-- ==== Sys2Proof/Word.lean ====
section
/-! DEFINITION. Word.lean: the word types of the block and nothing more: bytes, 64-byte lines, 12-byte patches and
96-byte codewords as bit vectors, byte j of each in bits 8j+7..8j (R33, R35). -/

namespace Sys2Proof

/-- One byte. -/
abbrev Byte := BitVec 8

/-- The 64 bytes of a host line; byte j is bits 8j+7..8j. -/
abbrev Line := BitVec 512

/-- The 12 bytes of a patch (R32); patch byte 0 is bits 7..0. -/
abbrev Patch := BitVec 96

/-- The 96 symbols of a tile's codeword (R34); symbol i is bits 8i+7..8i. -/
abbrev Codeword := BitVec 768

/-- Line address: DPA bits 43..6 (R89). -/
abbrev LineAddr := BitVec 38

/-- A device physical address, 44 bits. -/
abbrev Dpa := BitVec 44

/-- Host ports P0 to P3. -/
abbrev Port := Fin 4

/-- Channel groups G0 to G7. -/
abbrev Group := Fin 8

/-- Columns 0 to 7 of a group; also media domains D0 to D7. -/
abbrev Column := Fin 8

/-- Media channels: 8 × group + column (R1). -/
abbrev Channel := Fin 64

/-- Supply rails 0 to 29 (R336). -/
abbrev Rail := Fin 30

/-- Key ranges 0 to 7 (R180). -/
abbrev KeyRange := Fin 8

/-- Barrow channels 0 to 15 (R304). -/
abbrev BarrowChannel := Fin 16

/-- Stall queues 0 to 12: JQ0 to JQ7, TQ, EQ0 to EQ3 (R8). -/
abbrev QueueId := Fin 13

end Sys2Proof
end

