-- ==== Sys2Proof/Syntax.lean ====
section
/-! DEFINITION. Syntax.lean: the commands of the block: one constructor of Instr per row of spec/opcode_table.json, with
the operands the row's rule gives it. -/

namespace Sys2Proof

/-- The path a management request comes in on (R429, R430). -/
inductive Via where
  /-- the mailbox of a port: session p -/
  | mailbox (p : Port)
  /-- CAN, from the USDO client with this node-ID: one of sessions 4 to 11 -/
  | can (node : BitVec 7)
  /-- I3C, with this session field: session 12 + f -/
  | i3c (field : Fin 4)
  deriving DecidableEq, Repr

/-- What one ADC conversion samples (R353). -/
inductive AdcPoint where
  /-- `VRES`, value in mV -/
  | vres
  /-- `VIN`, value in mV -/
  | vin
  /-- a rail, value in mV -/
  | rail (r : Rail)
  /-- the reference check: its deviation in ADC codes, two's complement -/
  | refCheck
  /-- the zero check: its deviation in ADC codes, two's complement -/
  | zeroCheck
  deriving DecidableEq, Repr

/-- One regulator's answer to a telemetry pass (R356): failed tries before it answered (3: it never did), and the
values read. -/
structure PmbusReading where
  rail : Rail
  failures : Fin 4
  current : BitVec 16
  temperature : BitVec 8
  statusWord : BitVec 16
  deriving DecidableEq, Repr

/-- A soft error that the stores meet while they serve a command (R67, R98, R103, R106, R147, R152, R291). -/
inductive Upset where
  /-- no soft error -/
  | none
  /-- a single-bit error in a data word of the Easel line: corrected -/
  | easelWord
  /-- an uncorrectable data word of the Easel line -/
  | easelWordLost
  /-- the primary tag word of a way of the line's set is uncorrectable -/
  | tagPrimary (way : Fin 16)
  /-- the mirror tag word of a way of the line's set has become uncorrectable -/
  | tagMirror (way : Fin 16)
  /-- both tag copies of a way of the line's set are uncorrectable -/
  | tagLost (way : Fin 16)
  /-- parity error in one Palette copy of a tile of the line's tree path: level 0 the counter tile, 1 to 4 the nodes -/
  | palette (level : Fin 5)
  /-- parity errors in both Palette copies of a tile of the line's tree path -/
  | paletteBoth (level : Fin 5)
  /-- parity error in the replacement state of the Palette set of the line's counter tile, or of its remap table tile (R139) -/
  | paletteReplacement (remap : Bool)
  /-- parity error in one Palette copy of the remap table tile the line's region needs, or in both -/
  | remapTile (both : Bool)
  /-- an uncorrectable region state entry of the line's region -/
  | regionEntry
  /-- parity error in the replacement state of the line's Easel set (R98) -/
  | replacement
  /-- parity error in the poison-list bucket of the line (R152) -/
  | poisonBucket
  /-- a single-bit error in the directory entry of the line: corrected -/
  | directoryBit
  /-- an uncorrectable directory entry in the set of the line -/
  | directoryLost (way : Fin 16)
  deriving DecidableEq, Repr

/-- What fails of a program (R74, R83): the columns, and for each of these, lowest first, how many spares fail too. -/
structure ProgramFailure where
  columns : Byte
  spares : List (Fin 8)
  deriving DecidableEq, Repr

/-- The words of a row at its repair (R107): the ways with failing words, and those with a word the copy cannot correct. -/
structure RowWords where
  failing : BitVec 16
  lost : BitVec 16
  deriving DecidableEq, Repr

/-- What a read of a spill block shows (R103, R329): by Easel word, the uncorrectable and the corrected ones, and whether byte 7 of
word 7 names another block. -/
structure SpillWords where
  uncorrectable : Byte
  corrected : Byte
  misplaced : Bool
  deriving DecidableEq, Repr

/-- A forced spill access (R328). -/
inductive SpillAccess where
  /-- a block write -/
  | write
  /-- a block read -/
  | read (words : SpillWords)
  deriving DecidableEq, Repr

/-- A Barrow beat's access to the device: its channel, and the soft error the access meets (R103, R306). -/
structure BeatAccess where
  channel : BarrowChannel
  upset : Upset
  deriving DecidableEq, Repr

/-- What a rewrite's further reads meet: their error patterns, and whether the region's drift entry is uncorrectable (R217, R219). -/
structure RegionReads where
  patterns : List Codeword
  entryLost : Bool
  deriving DecidableEq, Repr

/-- The kind of frame a frame-error event refuses (R245). -/
inductive FrameKind where
  /-- RD or SRD -/
  | read
  /-- PRG -/
  | program
  /-- any other frame -/
  | other
  deriving DecidableEq, Repr

/-- A request line of a group arbiter in a phase (R259), by what it asks for; what the arbiter judges it by follows from the state.
Positions are those of the requesters of R259. -/
inductive ArbRequest where
  /-- FGR, or BAR or SCB for reads no host waits on: an outstanding read of a line -/
  | read (id : BitVec 32)
  /-- PAL: the fill of a miss register -/
  | fill (register : Fin 64)
  /-- PAL: the program of a granted writeback -/
  | writeback (set : Fin 8192) (way : Fin 16)
  /-- FGW: the program of a granted destage of a line -/
  | destage (line : LineAddr)
  /-- JNL: a journal tile, by sequence number -/
  | journal (seq : BitVec 64)
  /-- JNL: an anchor tile -/
  | anchor (addr : BitVec 35) (code : Codeword)
  /-- an engine's read of a slot: the attempt, whether it is the re-read of R52, and the bucket R214 gives it -/
  | engineRead (position : Fin 9) (region : BitVec 15) (slot : BitVec 21) (attempt : Fin 3) (misdirected : Bool)
      (bucket : Option (Fin 8))
  /-- an engine's program of a slot -/
  | engineProgram (position : Fin 9) (region : BitVec 15) (slot : BitVec 21) (code : Codeword)
  /-- RET: a deep read at one of its sixteen codes (R215) -/
  | deepRead (region : BitVec 15) (slot : BitVec 21) (code : Fin 16)
  /-- RET: a swatch read at one of its nine codes (R217) -/
  | swatchRead (region : BitVec 15) (tile : Fin 4) (code : Fin 9)
  /-- RET: Priming's read of an anchor or journal tile at one of its sixteen codes (R212) -/
  | sweepRead (addr : BitVec 35) (code : Fin 16)
  /-- SCB: another frame, the same on every non-erased column -/
  | frame (opcode : BitVec 4) (fields : BitVec 44)
  /-- GLZ, ROT or RET: a locked sequence of so many slots on a physical region, that reads one slot and programs another (R267) -/
  | lock (position : Fin 9) (slots : BitVec 7) (region : BitVec 15) (reads programs : BitVec 21)
  deriving DecidableEq, Repr

/-- The error pattern that a read of one tile meets in Priming (R470): group, patch address of the tile, pattern. A tile that
no entry names is read without disturbance. -/
structure TileDisturb where
  group : Group
  addr : BitVec 35
  pattern : Codeword
  deriving DecidableEq, Repr

/-- The error patterns of the 36 reads that the drift survey makes of one region (R217, R226). -/
structure SurveyReads where
  group : Group
  region : BitVec 15
  patterns : List Codeword
  deriving DecidableEq, Repr

/-- The commands. -/
inductive Instr where
  /-- OBJECT_WRITE (R424): A management write to an object that has no row of its own takes effect as its chapter states, or in the core cycle it is served. -/
  | objectWrite (via : Via) (idx : BitVec 16) (sub : BitVec 8) (data : List Byte)
  /-- STAGED_WRITE (R431): A write to a staged object is checked alone and then placed in the session's staging set, replacing any earlier entry for that object. -/
  | stagedWrite (via : Via) (idx : BitVec 16) (sub : BitVec 8) (data : List Byte)
  /-- COMMIT (R432): Writing 0x01 to [2020.01] judges the staging set on the combined view and then either applies every entry in one core cycle or refuses them all. -/
  | commit (via : Via)
  /-- DISCARD (R432): Writing 0x02 to [2020.01] discards the session's staging set. -/
  | discard (via : Via)
  /-- LEVEL_REQUEST (R427): A write to [2010.03] grants or refuses an access level for the session, depending on the level code. -/
  | levelRequest (via : Via) (level : Byte) (code : BitVec 32)
  /-- LEVEL_LOCKOUT_WINDOW (R429): The end of a 60 s refusal window lifts the lockout of its path. -/
  | levelLockoutWindow (path : Fin 6)
  /-- MAINT_EN_HIGH (R428): The filtered MAINT_EN_N input going high drops every Maintainer session to Operator. -/
  | maintEnHigh
  /-- SESSION_IDLE_TIMEOUT (R430): A CAN or I3C session that sees no request for its idle time is released. -/
  | sessionIdleTimeout (session : Fin 16)
  /-- STORE_PARAMETERS (R439): Writing the save signature to [1010] writes the changed parameter sections 0-8 to both Folio copies. -/
  | storeParameters (via : Via) (which : Fin 3)
  /-- RESTORE_DEFAULT_PARAMETERS (R439): Writing the load signature to [1011] sets the restore-defaults bit, which takes effect at the next Priming. -/
  | restoreDefaultParameters (via : Via) (which : Fin 3)
  /-- USDO_DOWNLOAD (R435): A complete USDO download carries one dictionary write request to the node. -/
  | usdoDownload (node : BitVec 7) (idx : BitVec 16) (sub : BitVec 8) (data : List Byte)
  /-- USDO_UPLOAD (R435): A complete USDO upload request returns the value of one object. -/
  | usdoUpload (node : BitVec 7) (idx : BitVec 16) (sub : BitVec 8)
  /-- USDO_SEGMENT_TIMEOUT (R433): A USDO segment not received within 1 s aborts the transfer with detail code 0x2012. -/
  | usdoSegmentTimeout (node : BitVec 7)
  /-- NMT_START (R436): The NMT start command puts the node in Operational. -/
  | nmtStart (_broadcast : Bool)
  /-- NMT_STOP (R436): The NMT stop command puts the node in Stopped, where it serves only NMT and heartbeat. -/
  | nmtStop (_broadcast : Bool)
  /-- NMT_ENTER_PRE_OPERATIONAL (R436): The NMT enter pre-operational command puts the node in Pre-operational. -/
  | nmtEnterPreOperational (_broadcast : Bool)
  /-- NMT_RESET_NODE (R436): The NMT reset node command releases the CAN sessions, applies pending CAN settings and records Ledger event 0x2008. -/
  | nmtResetNode (broadcast : Bool)
  /-- NMT_RESET_COMMUNICATION (R436): The NMT reset communication command releases the CAN sessions, applies pending CAN settings, sends boot-up and records Ledger event 0x2008. -/
  | nmtResetCommunication (broadcast : Bool)
  /-- SYNC (R435): A received SYNC message triggers the SYNC-driven TPDOs. -/
  | sync
  /-- TPDO_EVENT_TIMER (R435): The expiry of a TPDO event timer sends that TPDO in Operational. -/
  | tpdoEventTimer (tpdo : Fin 8)
  /-- HEARTBEAT_PRODUCER (R435): The expiry of the producer heartbeat time sends the node's heartbeat. -/
  | heartbeatProducer
  /-- HEARTBEAT_RECEIVED (R437): A heartbeat from a watched node restarts its timer and clears any timeout condition. -/
  | heartbeatReceived (node : BitVec 7)
  /-- HEARTBEAT_TIMEOUT (R437): A missing consumer heartbeat sends EMCY 0x8130, sets error register bit 4 and records Ledger event 0x2006. -/
  | heartbeatTimeout (entry : Fin 4)
  /-- EMCY_INHIBIT_EXPIRY (R438): The end of the EMCY inhibit time sends the next queued EMCY. -/
  | emcyInhibitExpiry
  /-- CAN_BUS_OFF (R438): The CAN controller entering bus-off records Ledger event 0x2007 and begins recovery. -/
  | canBusOff (tec rxErrors : Byte)
  /-- ERROR_HISTORY_CLEAR (R446): Writing 0 to [1003.00] clears the error history. -/
  | errorHistoryClear (via : Via)
  /-- I3C_REQUEST (R441): An I3C write transfer carries one request frame, which is checked and then executed, answered from the stored response or refused. -/
  | i3cRequest (frame : List Byte)
  /-- I3C_RESPONSE_READ (R441): An I3C read transfer returns the session's response frame, or is NACKed while the response is not ready. -/
  | i3cResponseRead
  /-- ENEC (R440): The CCC ENEC enables the target's events, such as IBIs. -/
  | enec
  /-- DISEC (R440): The CCC DISEC disables the target's events. -/
  | disec
  /-- RSTDAA (R440): The CCC RSTDAA resets the dynamic address, releases the I3C sessions and applies pending I3C settings. -/
  | rstdaa
  /-- ENTDAA (R440): The CCC ENTDAA assigns a dynamic address through the provisional ID. -/
  | entdaa (address : BitVec 7)
  /-- SETDASA (R440): The CCC SETDASA assigns a dynamic address from the static address. -/
  | setdasa (address : BitVec 7)
  /-- SETNEWDA (R440): The CCC SETNEWDA changes the dynamic address. -/
  | setnewda (address : BitVec 7)
  /-- GETPID (R440): The CCC GETPID returns the provisional ID. -/
  | getpid
  /-- GETBCR (R440): The CCC GETBCR returns BCR 0x06. -/
  | getbcr
  /-- GETDCR (R440): The CCC GETDCR returns DCR 0x00. -/
  | getdcr
  /-- GETSTATUS (R440): The CCC GETSTATUS returns the target status. -/
  | getstatus
  /-- GETMWL (R440): The CCC GETMWL returns the maximum write length of 288 bytes. -/
  | getmwl
  /-- GETMRL (R440): The CCC GETMRL returns the maximum read length of 288 bytes. -/
  | getmrl
  /-- DICTIONARY_REQUEST (R442): Mailbox command 0xC000 carries one dictionary request in the port's session and returns the response frame. -/
  | dictionaryRequest (port : Port) (payload : List Byte)
  /-- MANAGEMENT_STATISTICS_CLEAR (R446): Writing 0x01 to [2042.01] zeroes the per-path request statistics. -/
  | managementStatisticsClear (via : Via)
  /-- AON_POR (R386): The always-on power-on reset starts the oscillators, zeroes the time base and the timestamp offset, and releases the start lockout. -/
  | aonPor (torn : List Byte)
  /-- CRYSTAL_SWITCH (R382): A qualified crystal becomes the always-on clock source at a tick boundary. -/
  | crystalSwitch (offset : BitVec 16)
  /-- CRYSTAL_LOST (R382): A crystal that shows no edge for four periods returns the clock to the on-die oscillator. -/
  | crystalLost
  /-- VIN_BELOW_WARN (R355): The comparator reports VIN below 9.0 V, which isolates the reserve and enters Warn. -/
  | vinBelowWarn
  /-- VIN_GOOD (R355): The comparator reports VIN above 9.4 V, which starts the re-arm or ride-through qualification. -/
  | vinGood
  /-- RIDE_THROUGH_QUALIFIED (R372): VIN good for 100 us before t_warn withdraws the warning and returns to the previous state. -/
  | rideThroughQualified
  /-- WARN_WINDOW_END (R373): The end of the warn window stops CXL.mem acceptance and begins quiesce. -/
  | warnWindowEnd
  /-- QUIESCE_COMPLETE (R373): Quiesce ends once nothing is in flight, and Varnish begins. -/
  | quiesceComplete
  /-- QUIESCE_LIMIT (R373): Quiesce ends at its 50 us limit, and Barrow host beats still in flight are taken as failed. -/
  | quiesceLimit
  /-- VARNISH_LIMIT (R374): The 2.0 ms Varnish limit ends Varnish with outcome 1 and enters Varnished. -/
  | varnishLimit
  /-- STOP_ORDER_STEP (R349): A timed step of the stop order lowers the next enables, until the device rails are off. -/
  | stopOrderStep
  /-- EPILOGUE_LIMIT (R403): The epilogue ends 33.35 ms after entry to Warn, and the device enters Standby with the bleed path on. -/
  | epilogueLimit
  /-- PRIMING_START (R362): VIN good for the re-arm delay, with no lockout and the start conditions met, enters Priming and begins the Folio recall. -/
  | primingStart
  /-- RAMP_HOLD_END (R120): The end of the 1 ms hold at 4.0 V takes the first ESR and resumes charging. -/
  | rampHoldEnd (fallUv : BitVec 32)
  /-- FOLIO_RECALL_COMPLETE (R410): The end of the recall scan resolves and loads the Folio contents and starts the device rails. -/
  | folioRecallComplete (linear : BitVec 30)
  /-- PG_TICK_SAMPLE (R339): At each AON tick the supervisor samples every PG input and advances or resets the qualification counts, counting chatter events. -/
  | pgTickSample (high lowLatch : BitVec 30)
  /-- RAIL_QUALIFIED (R339): A rail whose count reaches tPGQ is qualified, and the next start stage begins when its stage is complete. -/
  | railQualified (rail : Rail)
  /-- DOMAIN_STAGGER (R342): The end of a domain's stagger delay enables stage A of that domain. -/
  | domainStagger (domain : Column)
  /-- RAIL_START_FAILURE (R340): A rail's eighth chatter event fails its start, drops its enable and records Ledger event 0x2E01. -/
  | railStartFailure (rail : Rail)
  /-- SEQUENCE_TIMEOUT (R340): A rail not qualified 1,639 ticks after its enable fails to start. -/
  | sequenceTimeout (rail : Rail)
  /-- START_STEP_OVERTIME (R361): A start step exceeding its maximum records Ledger event 0x2F0B. -/
  | startStepOvertime
  /-- CHANNEL_TRAINING (R251): After tINIT each channel of the domain is trained, with stored results or in full. -/
  | channelTraining (domain : Column)
  /-- CHANNEL_TRAINING_COMPLETE (R252): A channel's training ends; its channel state is decided, and a full training writes its training record. -/
  | channelTrainingComplete (channel : Channel) (identity : BitVec 16) (serial : BitVec 32) (storedFail fullFail : Fin 9) (settings : BitVec 168)
  /-- ANCHORS_AND_REGION_STATE (R368): Step 7 loads the newest valid anchor generation per group, checks the layout, surveys drift and judges the last shutdown. -/
  | anchorsAndRegionState (errs : List TileDisturb) (survey : List SurveyReads)
  /-- JOURNAL_REPLAY (R369): Step 8 replays each group's journal from the loaded generation, resolves Glaze state and takes a checkpoint. -/
  | journalReplay (errs : List TileDisturb)
  /-- SELF_TEST (R370): Step 9 runs the known-answer tests, the health tests and the group path tests under the ephemeral key. -/
  | selfTest (results : BitVec 16)
  /-- MEMORY_ACTIVE (R363): At Memory Active the ports set Memory_Active, the ephemeral key is zeroised and PFW_N is released. -/
  | memoryActive
  /-- TREE_REANCHOR (R198): After Memory Active, the counter tree is rebuilt level by level from the counter tiles in the medium. -/
  | treeReanchor
  /-- TREE_REANCHOR_END (R198): The end of re-anchoring opens the sealed ranges and sets their freshness-not-assured marks. -/
  | treeReanchorEnd
  /-- RESTART_REQUEST (R23): Writing 0x01 to [2F00.04] enters Warn and runs the full shutdown with VIN present, then restarts. -/
  | restartRequest (via : Via)
  /-- SELF_TEST_REQUEST (R380): Writing 0x01 to [2F00.05] in Test reruns the self-test, without its start-failure and fencing outcomes. -/
  | selfTestRequest (via : Via) (results : BitVec 16)
  /-- START_REQUEST (R344): Writing 0x01 to [2E00.0F] releases the start lockout. -/
  | startRequest (via : Via)
  /-- PBTN_ACTION (R359): A debounced press of PBTN_N makes a start request in Standby, or after its hold time a restart request. -/
  | pbtnAction
  /-- MR_ACTION (R359): A debounced MR_N low makes a start request, or a restart request that is latched during Priming. -/
  | mrAction
  /-- PG_LOSS (R345): The falling edge of a running rail's power-good starts the tPGD timer. -/
  | pgLoss (rail : Rail)
  /-- PG_GLITCH_END (R345): A power-good loss ending before tPGD is counted as a glitch. -/
  | pgGlitchEnd (rail : Rail)
  /-- PG_DROP_TIMEOUT (R345): A power-good loss still present at tPGD is a running fault of the rail. -/
  | pgDropTimeout (rail : Rail)
  /-- DOMAIN_OFF_CORE_RAILS (R348): 100 us after VMP is dropped, VMC and VMQ of the domain are dropped. -/
  | domainOffCoreRails (domain : Column)
  /-- DISCHARGE_TIMEOUT (R350): A rail still at or above 10 % 5 ms after its enable fell is counted and recorded, and the sequence proceeds. -/
  | dischargeTimeout (rail : Rail)
  /-- ADC_SAMPLE (R353): An ADC conversion updates VRES, VIN or a rail voltage and drives the band, discharge and reserve checks. -/
  | adcSample (point : AdcPoint) (value : BitVec 16)
  /-- BUDGET_UPDATE (R124): Every 100 us the budget B is recomputed with hysteresis, published, and the shares are sized. -/
  | budgetUpdate
  /-- RESERVE_CHARGE_TIMEOUT (R122): VRES below 2.0 V 2 s after charging began, or V_hi not reached in time, makes the reserve failed. -/
  | reserveChargeTimeout (late : Bool)
  /-- MEASURE_INTERVAL (R121): The end of a measurement window raises a measurement occasion. -/
  | measureInterval
  /-- MEASURE_REQUEST (R121): Writing 0x01 to [2400.05] raises a measurement occasion. -/
  | measureRequest (via : Via)
  /-- MEASUREMENT_START (R121): A measurement freezes v and subtracts E_meas from the published budget. -/
  | measurementStart
  /-- MEASUREMENT_SINK_ON (R121): 1 ms after the start, CHG_EN goes low and the 200 mA sink is connected. -/
  | measurementSinkOn
  /-- MEASUREMENT_END (R121): After 20 ms, C and ESR are computed, the sink is released and charging resumes. -/
  | measurementEnd (stepUv fallUv : BitVec 32)
  /-- RESERVE_DISABLE (R133): Writing 0 to [2400.07] sets the status to disabled and bleeds the reserve. -/
  | reserveDisable (via : Via)
  /-- RESERVE_ENABLE (R133): Writing 1 to [2400.07] restarts the ramp of R120 after bleeding the reserve below 2.0 V. -/
  | reserveEnable (via : Via)
  /-- PMBUS_TELEMETRY (R356): Each telemetry interval reads the regulators' telemetry and pushes a TQ packet of kind 0x03. -/
  | pmbusTelemetry (answers : List PmbusReading)
  /-- PMBUS_ALERT (R356): PMB_ALERT_N falling reads the alert response and STATUS_WORD, records Ledger event 0x2E07 and clears the faults. -/
  | pmbusAlert (address : BitVec 7) (statusWord : BitVec 16)
  /-- PMBUS_UNREACHABLE_END (R356): The end of a 10 s unreachable period lets the regulator be addressed again. -/
  | pmbusUnreachableEnd (rail : Rail)
  /-- MARGIN_NOMINAL (R357): MarginCommand 0 sends OPERATION 0x80 to the selected rail. -/
  | marginNominal (via : Via) (acknowledged : Bool)
  /-- MARGIN_LOW (R357): MarginCommand 1 writes VOUT_MARGIN_LOW and sends OPERATION margin low, in Test only. -/
  | marginLow (via : Via) (acknowledged : Bool)
  /-- MARGIN_HIGH (R357): MarginCommand 2 writes VOUT_MARGIN_HIGH and sends OPERATION margin high, in Test only. -/
  | marginHigh (via : Via) (acknowledged : Bool)
  /-- DOMAIN_RESTART (R351): Writing k to [2E30.01] reruns stages A and B of lost domain k. -/
  | domainRestart (via : Via) (domain : Byte)
  /-- SUPERVISION_STATISTICS_CLEAR (R360): Writing 0x01 to [2E00.10] zeroes the volatile rail statistics. -/
  | supervisionStatisticsClear (via : Via)
  /-- THERMAL_SCAN (R390): A completed 12-tick scan updates T_die, compensation and usability, and sets the thermal level. -/
  | thermalScan (readings : List (BitVec 16))
  /-- RISE_WINDOW (R397): The end of a rise window computes the rise rate and sets or clears the rise flag. -/
  | riseWindow
  /-- TEMPERATURE_WINDOW (R250): Each 32 ms window issues an MRR of register 0x03 per channel and updates the stack levels. -/
  | temperatureWindow (answers : List (Option Byte))
  /-- ZQ_INTERVAL (R250): Each ZqInterval window issues CAL ZQ to every channel in service and calibrates the PHYs. -/
  | zqInterval
  /-- MAINTENANCE_WAKE (R387): Once per 1 s window a deep-sleeping group wakes for its MRR, ZQ and Retouch quota. -/
  | maintenanceWake (group : Group) (answers : List (Option Byte))
  /-- DEEP_SLEEP_ENABLE_WRITE (R388): A write to [3000.05] that clears a group's bit wakes that group if it is in deep sleep. -/
  | deepSleepEnableWrite (via : Via) (value : Byte)
  /-- THERMAL_STATISTICS_CLEAR (R399): Writing 0x01 to [3010.13] zeroes the sleep and thermal statistics. -/
  | thermalStatisticsClear (via : Via)
  /-- LIGHT_SLEEP_ENTRY (R18): 128 slots with no request gate the group clock. -/
  | lightSleepEntry (group : Group)
  /-- DEEP_SLEEP_ENTRY (R257): 10 ms with no request in an enabled group issues PDE, stops CK and stops the group PLL. -/
  | deepSleepEntry (group : Group)
  /-- DEEP_SLEEP_WAKE (R257): A request to a deep-sleeping group relocks the PLL, runs CK and issues PDX. -/
  | deepSleepWake (group : Group)
  /-- DEEP_SLEEP_EXIT_DONE (R257): tXPD after PDX the group serves requests again. -/
  | deepSleepExitDone (group : Group)
  /-- HOST_READ (R157): A CXL.mem read is decoded, ordered at its Easel bank and served from the Easel or from the medium. -/
  | hostRead (port : Port) (tag : BitVec 16) (address : BitVec 52) (metaValue : Fin 3) (upset also : Upset)
  /-- HOST_WRITE (R93): A full-line CXL.mem write is taken into the Easel and acknowledged, or it is held, or it goes write-through. -/
  | hostWrite (port : Port) (tag : BitVec 16) (address : BitVec 52) (metaValue : Fin 3) (data : Line) (poison : Bool) (upset also : Upset)
  /-- PARTIAL_WRITE (R95): A partial write merges into the line or takes a merge entry and issues a fill. -/
  | partialWrite (port : Port) (tag : BitVec 16) (address : BitVec 52) (metaValue : Fin 3) (mask : BitVec 64) (data : Line) (poison : Bool) (upset also : Upset)
  /-- HELD_WRITE_TAKE_IN (R176): A held write is taken in once its share can carry it, or once write-through applies. -/
  | heldWriteTakeIn (port : Port)
  /-- BI_SNOOP_RESPONSE (R285): A BIRsp from a holder updates the directory and releases the request after the last response. -/
  | biSnoopResponse (port : Port) (line : LineAddr) (answer : Fin 3)
  /-- BI_CONFLICT (R286): A BIConflict from a holder is answered with BIConflictAck and restarts the snoop timeout. -/
  | biConflict (port : Port) (line : LineAddr)
  /-- SNOOP_TIMEOUT (R288): A snoop unanswered within SnoopTimeout is taken as BIRspI and fences the port from shared windows. -/
  | snoopTimeout (port : Port) (line : LineAddr)
  /-- DIRECTORY_EVICTION (R287): The background evictor invalidates the least recently touched entry of a set short of free ways. -/
  | directoryEviction (set : Fin 2097152)
  /-- TILE_READ_ARRIVAL (R48): The last patch of a read arrives; the tile is decoded, classed and verified, and the result is delivered or acted on. -/
  | tileReadArrival (read : BitVec 32) (err : Codeword) (xfer : Byte)
  /-- DEEP_READ (R215): The Retouch engine reads a failed tile at 16 consecutive codes and rewrites it recovered or as poison. -/
  | deepRead (group : Group) (swatch : RegionReads) (errs : List Codeword)
  /-- CODEC_STATISTICS_CLEAR (R58): Writing 0x01 to [2130.04] zeroes the codec counters and maxima. -/
  | codecStatisticsClear (via : Via)
  /-- HOLD_TICK (R99): At each hold tick the scanner selects due dirty lines for class-3 destage. -/
  | holdTick
  /-- DESTAGE_GRANT (R101): At the FGW grant the line is copied to the cipher lane, F is set and the sealed counter is incremented. -/
  | destageGrant (group : Group) (upset : Upset)
  /-- DESTAGE_COMPLETE (R101): The destage program completing clears D or keeps it after W, releases or moves the charge, and acknowledges write-through writes. -/
  | destageComplete (line : LineAddr)
  /-- FLUSH_REQUEST (R112): Writing 0x01 to [2300.07] selects every dirty line for class-4 destage and sets FlushActive. -/
  | flushRequest (via : Via)
  /-- EASEL_SCRUB (R109): The scrubber reads an Easel row with correction in an idle bank cycle. -/
  | easelScrub (bank : Fin 64) (way : Fin 16) (upset : Upset)
  /-- PATROL_WINDOW (R110): At the end of a patrol window, a bank that scrubbed no row has its next row scrubbed by force. -/
  | patrolWindow
  /-- ROW_REPAIR (R107): A nominated row gets a spare row, disabled ways or a frail mark. -/
  | rowRepair (ways : RowWords)
  /-- ROW_COUNT_WINDOW (R105): The end of a 24-hour correction window resets the row correction tracking. -/
  | rowCountWindow
  /-- EASEL_STATISTICS_CLEAR (R112): Writing 0x01 to [2300.0C] zeroes the Easel counters. -/
  | easelStatisticsClear (via : Via)
  /-- PALETTE_FILL (R146): A PAL fill is verified and installed, or installed invalid and its requesters replayed. -/
  | paletteFill (register : Fin 64) (err : Codeword) (xfer : Byte)
  /-- SPAN_FENCE_REBUILD_END (R149): The end of the subtree rebuild clears the span fence. -/
  | spanFenceRebuildEnd (fence : Fin 8)
  /-- PALETTE_TICK (R142): At each Palette tick, aged dirty lines are selected for writeback. -/
  | paletteTick
  /-- PALETTE_WRITEBACK_GRANT (R142): At the PAL grant the line is snapshotted, WB is set, D is cleared and the parent minor is incremented. -/
  | paletteWritebackGrant (set : Fin 8192) (way : Fin 16)
  /-- PALETTE_WRITEBACK_COMPLETE (R142): The writeback program completing clears WB and frees the mirror and the charge, or restamps the line. -/
  | paletteWritebackComplete (set : Fin 8192) (way : Fin 16)
  /-- RANGE_INVALIDATION_OPEN (R145): A range invalidation loads a comparator, marks the miss registers and sweeps the matching lines. -/
  | rangeInvalidationOpen (kind : Byte) (lo hi : BitVec 56)
  /-- RANGE_INVALIDATION_CLOSE (R145): The invalidating unit closes the invalidation, and the waiting lookups proceed. -/
  | rangeInvalidationClose (kind : Byte) (lo hi : BitVec 56)
  /-- DIRTY_LIMIT_WRITE (R154): A DirtyLimit write below the present count selects the excess for writeback. -/
  | dirtyLimitWrite (via : Via) (limit : BitVec 32)
  /-- PALETTE_STATISTICS_CLEAR (R154): Writing 0x01 to [2500.04] zeroes the Palette counters. -/
  | paletteStatisticsClear (via : Via)
  /-- MONITOR_CLEAR (R179): Writing 0x01 to [2600.05] zeroes the latency monitor statistics. -/
  | monitorClear (via : Via)
  /-- RANGE_OPEN (R182): Range command 0x01 makes a Closed range Open, or starts the opening of an Empty range. -/
  | rangeOpen (via : Via) (range : KeyRange)
  /-- RANGE_CLOSE (R182): Range command 0x02 starts a close that destages every dirty line of the range. -/
  | rangeClose (via : Via) (range : KeyRange)
  /-- RANGE_CLOSE_END (R182): Once no line of the range is dirty, the Easel lines are invalidated and the range becomes Closed. -/
  | rangeCloseEnd (range : KeyRange)
  /-- RANGE_ERASE (R182): Range command 0x03 discards the range's lines, poison entries and key, and reopens the range. -/
  | rangeErase (via : Via) (range : KeyRange)
  /-- OPENING_COMPLETE (R183): The last opening tile being programmed makes the range Open. -/
  | openingComplete
  /-- INSTALLATION_KEY (R186): A write of the first KI to [2720.01] stores it wrapped in the key store. -/
  | installationKey (via : Via) (key : BitVec 256)
  /-- INSTALLATION_KEY_REWRAP (R186): A wrapped replacement KI written to [2720.02] is unwrapped and becomes current. -/
  | installationKeyRewrap (via : Via) (wrapped : BitVec 320)
  /-- DISCARD_NEXT_KEY (R208): A write to [2720.06] discards the range's next key. -/
  | discardNextKey (via : Via) (range : KeyRange)
  /-- GLAZE_START (R201): Glaze command 0x01 starts the re-keying of an Open range. -/
  | glazeStart (via : Via)
  /-- GLAZE_PAUSE (R201): Glaze command 0x02 pauses the running operation. -/
  | glazePause (via : Via)
  /-- GLAZE_RESUME (R201): Glaze command 0x03 resumes a paused operation. -/
  | glazeResume (via : Via)
  /-- GLAZE_UNIT (R203): A Glaze lane probes, skips, defers or rewrites the lines of one unit under the new key. -/
  | glazeUnit (index : Fin 512) (errs : List (List Codeword))
  /-- GLAZE_UNIT_COMMIT (R203): The unit's programs completing set its step-mask bits and write the sealed counter tile. -/
  | glazeUnitCommit (line : LineAddr)
  /-- GLAZE_FINISH (R205): After the finishing destages, the old key is discarded and the range returns to Open. -/
  | glazeFinish
  /-- PAGE_REENCRYPTION (R195): A queued page re-encryption holds destages of the page and rewrites its lines under major M + 1. -/
  | pageReencryption (group : Group) (errs : List (List Codeword))
  /-- PAGE_REENCRYPTION_END (R195): The counter tile is written with the new major and the hold and the charge are released. -/
  | pageReencryptionEnd (group : Group)
  /-- ENCRYPTION_STATISTICS_CLEAR (R208): Writing 0x01 to [2700.0B] zeroes the encryption counters. -/
  | encryptionStatisticsClear (via : Via)
  /-- GLAZE_STATISTICS_CLEAR (R208): Writing 0x01 to [2780.0B] zeroes the Glaze counters. -/
  | glazeStatisticsClear (via : Via)
  /-- EPOCH_END (R209): The end of a 4-hour epoch advances E and rotates the recent-write filters. -/
  | epochEnd
  /-- REGION_PASS (R220): The Retouch engine takes a region, measures it and begins rewriting its tiles. -/
  | regionPass (group : Group)
  /-- SWATCH_MEASUREMENT_DONE (R218): The 36 swatch reads end; centre, window and epoch are written to the drift entry, with alarms. -/
  | swatchMeasurementDone (group : Group) (errs : List Codeword) (lost : Bool)
  /-- RETOUCH_REWRITE (R220): One RET locked sequence reads a tile and rewrites it with the current epoch where it is due. -/
  | retouchRewrite (group : Group) (errs : List Codeword) (deep : RegionReads)
  /-- REGION_PASS_CLOSE (R220): The swatch tiles are written, Visit is set, ST is cleared and an end record is pushed. -/
  | regionPassClose (group : Group)
  /-- MOVE_SWATCH_WRITE (R224): At the next RET grant after a move, the destination's swatch tiles are written. -/
  | moveSwatchWrite (group : Group)
  /-- RETOUCH_STATISTICS_CLEAR (R231): Writing 0x01 to [2800.0B] zeroes the Retouch statistics. -/
  | retouchStatisticsClear (via : Via)
  /-- ARBITRATION_PHASE (R262): Each slot's phase grants the next slot to one eligible request by rank and rotating pointer, or leaves it idle. -/
  | arbitrationPhase (group : Group) (requests : List ArbRequest) (withdraw : Bool)
  /-- LOCK_OVERRUN (R268): A locked sequence reaching 64 slots is cut, and its move is repeated. -/
  | lockOverrun (group : Group)
  /-- ARBITER_STATISTICS_CLEAR (R274): Writing 0x01 to [2A00.02] zeroes the arbiter counters. -/
  | arbiterStatisticsClear (via : Via)
  /-- GAP_STEP (R72): The rotation engine moves the tile next to the gap in one ROT locked sequence. -/
  | gapStep (group : Group) (errs : List Codeword)
  /-- GAP_STEP_COMMIT (R72): The program completing updates start and gap and pushes the step unit. -/
  | gapStepCommit (group : Group) (failed : ProgramFailure)
  /-- SWAP_INTERVAL (R75): The end of a swap interval picks regions for a swap or a march. -/
  | swapInterval (group : Group)
  /-- MOVE_TILE_COPY (R76): One tile of a move is copied in one locked sequence. -/
  | moveTileCopy (group : Group) (errs : List Codeword) (failed : ProgramFailure)
  /-- MOVE_BATCH_COMPLETE (R76): The completion of 64 programs advances the move pointer and pushes MoveProgress. -/
  | moveBatchComplete (group : Group)
  /-- PATCH_REMAP (R83): A nominated patch is programmed into a spare in one locked sequence. -/
  | patchRemap (group : Group) (errs : List Codeword)
  /-- PATCH_REMAP_COMMIT (R83): The spare program completing pushes a Remap record, installs the entry and sets HR. -/
  | patchRemapCommit (group : Group) (failed : Bool)
  /-- TRANSLATE_DPA (R87): A write to [2231.01] translates the DPA and fills the result objects. -/
  | translateDpa (via : Via) (dpa : BitVec 64)
  /-- JOURNAL_TILE_WRITE (R84): The committer writes a journal tile when 28 units wait or the oldest is 10 us old. -/
  | journalTileWrite (group : Group)
  /-- JOURNAL_TILE_COMPLETE (R330): A complete journal tile advances the JQ mark. -/
  | journalTileComplete (group : Group)
  /-- CHECKPOINT_WINDOW (R367): The end of a group's 1 s window triggers a checkpoint. -/
  | checkpointWindow (group : Group)
  /-- CHECKPOINT (R367): A checkpoint snapshots the region state, rotates the journal region and writes the body. -/
  | checkpoint (group : Group)
  /-- CHECKPOINT_HEADER_WRITE (R367): With every body program complete, JNL writes the header. -/
  | checkpointHeaderWrite (group : Group)
  /-- CHECKPOINT_COMPLETE (R367): The header program completing makes the generation complete. -/
  | checkpointComplete (group : Group)
  /-- REBUILD_REGION (R468): Rebuild takes the next region with RB set and sets its pointer to 0. -/
  | rebuildRegion (group : Group)
  /-- REBUILD_SEQUENCE (R468): One RET locked sequence programs the stale column's patch from the corrected codeword. -/
  | rebuildSequence (group : Group) (errs deep : List Codeword) (failed : Option (Fin 8))
  /-- DONE_EVENT (R244): A done event on ALERT_N completes the program on that channel. -/
  | doneEvent (channel : Channel) (bank : Byte)
  /-- FAIL_EVENT (R244): A fail event idles the bank and remaps the patch. -/
  | failEvent (channel : Channel) (bank : Byte)
  /-- PROGRAM_COMPLETE_TIMEOUT (R244): The end of tPG maximum plus 10 ns with no fail event completes the program. -/
  | programCompleteTimeout (channel : Channel) (bank : Byte)
  /-- READ_ERROR_EVENT (R245): A read error event erases the column for that read. -/
  | readErrorEvent (channel : Channel) (bank : Byte)
  /-- FRAME_ERROR_EVENT (R245): A frame error event erases a read, reissues a PRG or retries another command. -/
  | frameErrorEvent (channel : Channel) (bank : Byte) (kind : FrameKind)
  /-- WRITE_CRC_ERROR_EVENT (R246): A write-CRC error event reissues the PRG up to its retry limit. -/
  | writeCrcErrorEvent (channel : Channel) (bank : Byte)
  /-- STACK_STATUS_EVENT (R253): A thermal alert, fault or temperature-unavailable status is recorded, and a fault marks the channel failed. -/
  | stackStatusEvent (channel : Channel) (status : Byte) (reg : BitVec 16)
  /-- CHANNEL_ERROR_WINDOW (R253): The error limit within a 1 s window marks the channel failed, unless that would fence the group. -/
  | channelErrorWindow
  /-- MARK_CHANNEL_FAILED (R253): A write to [2900.08], or another cause, marks a channel failed and parks it. -/
  | markChannelFailed (via : Via) (channel : Byte)
  /-- RETURN_CHANNEL (R255): A write to [2900.09] trains a failed channel and returns it with its column rebuilding. -/
  | returnChannel (via : Via) (channel : Byte)
  /-- MR_READ (R258): A write to [2920.02] issues an MRR and places the result in [2920.03]. -/
  | mrRead (via : Via) (register temperature : Byte) (verified : Bool)
  /-- THERMAL_ALERT_THRESHOLD_WRITE (R258): A write to [2900.07] is written to register 0x04 of every channel. -/
  | thermalAlertThresholdWrite (via : Via) (value : Byte)
  /-- CHANNEL_STATISTICS_CLEAR (R258): Writing 0x01 to [2900.0B] zeroes the channel statistics. -/
  | channelStatisticsClear (via : Via)
  /-- RD (R237): The stack senses a patch at the reference code and returns it tRD after the frame. -/
  | rd (channel : Channel) (fields : BitVec 44) (err : Patch)
  /-- SRD (R239): The stack re-senses the latched patch at a new code. -/
  | srd (channel : Channel) (fields : BitVec 44) (err : Patch)
  /-- PRG (R243): The stack takes a patch and programs it, reporting done or fail. -/
  | prg (channel : Channel) (fields : BitVec 44) (data : Patch)
  /-- SUS (R240): The stack suspends the bank's running program. -/
  | sus (channel : Channel) (fields : BitVec 44)
  /-- RSM (R240): The stack resumes the bank's suspended program. -/
  | rsm (channel : Channel) (fields : BitVec 44)
  /-- MRR (R247): The stack returns a mode register with its complement. -/
  | mrr (channel : Channel) (fields : BitVec 44) (temperature : Byte)
  /-- MRW (R247): The stack writes a mode register. -/
  | mrw (channel : Channel) (fields : BitVec 44)
  /-- CAL_ZQ (R251): CAL sub-operation 0x0 runs ZQ calibration in the background. -/
  | calZq (channel : Channel) (fields : BitVec 44)
  /-- CAL_TRAINING_ENTRY (R251): CAL sub-operation 0x1 enters the training mode that register 0x0E selects. -/
  | calTrainingEntry (channel : Channel) (low : BitVec 40)
  /-- CAL_TRAINING_EXIT (R251): CAL sub-operation 0x2 leaves training mode. -/
  | calTrainingExit (channel : Channel) (low : BitVec 40)
  /-- PDE (R257): The stack enters power-down. -/
  | pde (channel : Channel) (fields : BitVec 44)
  /-- PDX (R257): The stack leaves power-down. -/
  | pdx (channel : Channel) (fields : BitVec 44)
  /-- LINK_TRAINING (R276): A port trains its link at the highest allowed rate and width. -/
  | linkTraining (port : Port) (rate : Fin 5) (width : Fin 4)
  /-- LANE_FAILURE (R278): A failed lane retrains the link to the widest working width, with the port state kept. -/
  | laneFailure (port : Port) (width : Fin 4)
  /-- PORT_RESET (R280): PERST_N low, a hot reset or a link down uncommits the decoders, aborts the mailbox and clears presence. -/
  | portReset (port : Port) (cause : Fin 4)
  /-- CXL_RESET (R280): A CXL Reset uncommits the decoders and clears presence with the link kept up. -/
  | cxlReset (port : Port)
  /-- FUNCTION_LEVEL_RESET (R280): An FLR aborts the mailbox command and affects CXL.io only. -/
  | functionLevelReset (port : Port)
  /-- PORT_ENABLE_WRITE (R280): Writing 0 to [2B10.01] takes the link down and holds it down. -/
  | portEnableWrite (via : Via) (port : Port) (value : Byte)
  /-- LINK_POWER_STATE (R279): The link enters or leaves L1 or L0p as the host and LowPowerAllowed permit. -/
  | linkPowerState (port : Port) (state : Fin 5)
  /-- HDM_DECODER_COMMIT (R282): A host decoder commit succeeds, or sets Error Not Committed when the windows do not allow it. -/
  | hdmDecoderCommit (port : Port) (decoder : Fin 8) (base : BitVec 24) (ways : Fin 5) (gran : Fin 7) (size dpa : BitVec 17) (shared lock : Bool)
  /-- SHARED_FENCE_RELEASE (R288): Writing 0x01 to [2B10.0D] releases a port's shared-window fence. -/
  | sharedFenceRelease (via : Via) (port : Port)
  /-- IDENTIFY (R292): The mailbox Identify command returns the device identity. -/
  | identify (port : Port)
  /-- BACKGROUND_OPERATION_STATUS (R292): The command returns the background command status. -/
  | backgroundOperationStatus (port : Port)
  /-- GET_RESPONSE_MESSAGE_LIMIT (R292): The command returns the response message limit. -/
  | getResponseMessageLimit (port : Port)
  /-- SET_RESPONSE_MESSAGE_LIMIT (R292): The command sets the response message limit. -/
  | setResponseMessageLimit (port : Port) (limit : Byte)
  /-- GET_EVENT_RECORDS (R295): The command returns event records from the port's event queue. -/
  | getEventRecords (port : Port) (log : Fin 4)
  /-- CLEAR_EVENT_RECORDS (R330): The command sets clear-map bits and advances the EQ mark. -/
  | clearEventRecords (port : Port) (log : Fin 4) (all : Bool) (handles : List (BitVec 16))
  /-- GET_EVENT_INTERRUPT_POLICY (R295): The command returns the event interrupt policy. -/
  | getEventInterruptPolicy (port : Port)
  /-- SET_EVENT_INTERRUPT_POLICY (R295): The command sets the event interrupt policy. -/
  | setEventInterruptPolicy (port : Port) (policy : BitVec 32)
  /-- GET_FW_INFO (R292): The command returns the mask-ROM revision in one read-only slot. -/
  | getFwInfo (port : Port)
  /-- MAILBOX_UNSUPPORTED (R292): An unsupported opcode returns Unsupported. -/
  | mailboxUnsupported (port : Port) (opcode : BitVec 16)
  /-- GET_TIMESTAMP (R293): The command returns the time base plus the device timestamp offset. -/
  | getTimestamp (port : Port)
  /-- SET_TIMESTAMP (R293): The command sets the device-wide timestamp offset. -/
  | setTimestamp (port : Port) (value : BitVec 64)
  /-- GET_SUPPORTED_LOGS (R292): The command lists the Command Effects Log. -/
  | getSupportedLogs (port : Port)
  /-- GET_LOG (R292): The command returns the Command Effects Log. -/
  | getLog (port : Port) (effects : Bool) (offset length : BitVec 32)
  /-- IDENTIFY_MEMORY_DEVICE (R292): The command returns the capacities and poison list size. -/
  | identifyMemoryDevice (port : Port)
  /-- GET_HEALTH_INFO (R296): The command returns the health information fields. -/
  | getHealthInfo (port : Port)
  /-- GET_ALERT_CONFIGURATION (R292): The command returns the alert configuration. -/
  | getAlertConfiguration (port : Port)
  /-- SET_ALERT_CONFIGURATION (R393): The command writes the warn threshold as a session of its own, under the ordering check. -/
  | setAlertConfiguration (port : Port) (valid enable life : Byte) (hot cold : BitVec 16)
  /-- GET_SHUTDOWN_STATE (R298): The command returns the port's shutdown state. -/
  | getShutdownState (port : Port)
  /-- SET_SHUTDOWN_STATE (R298): The command stores the port's shutdown state in both Folio copies. -/
  | setShutdownState (port : Port) (dirty : Bool)
  /-- GET_POISON_LIST (R292): The command returns the poison-list entries that the port's windows cover. -/
  | getPoisonList (port : Port) (first : LineAddr) (lines : BitVec 39)
  /-- INJECT_POISON (R294): The command poisons a line dirty in the Easel and adds an injected entry, when enabled. -/
  | injectPoison (port : Port) (line : LineAddr)
  /-- CLEAR_POISON (R292): The command writes the supplied 64 B as a full-line write. -/
  | clearPoison (port : Port) (line : LineAddr) (data : Line)
  /-- GET_SCAN_MEDIA_CAPABILITIES (R294): The command returns the Scan Media capabilities. -/
  | getScanMediaCapabilities (port : Port)
  /-- SCAN_MEDIA (R294): The command starts a background scan that reads every line of the range. -/
  | scanMedia (port : Port) (first : LineAddr) (lines : BitVec 39)
  /-- SCAN_MEDIA_COMPLETE (R294): The end of a background scan completes the background command. -/
  | scanMediaComplete (port : Port)
  /-- GET_SCAN_MEDIA_RESULTS (R294): The command returns the lines found poisoned by the scan. -/
  | getScanMediaResults (port : Port)
  /-- GPF_PHASE2 (R299): A GPF Phase 2 request is answered within 1 us without a flush. -/
  | gpfPhase2 (port : Port)
  /-- SPDM_GET_VERSION (R301): The SPDM request GET_VERSION is answered. -/
  | spdmGetVersion (port : Port)
  /-- SPDM_GET_CAPABILITIES (R301): The SPDM request GET_CAPABILITIES is answered. -/
  | spdmGetCapabilities (port : Port)
  /-- SPDM_NEGOTIATE_ALGORITHMS (R301): The SPDM request NEGOTIATE_ALGORITHMS is answered. -/
  | spdmNegotiateAlgorithms (port : Port)
  /-- SPDM_GET_DIGESTS (R301): The SPDM request GET_DIGESTS returns the certificate digests. -/
  | spdmGetDigests (port : Port)
  /-- SPDM_GET_CERTIFICATE (R301): The SPDM request GET_CERTIFICATE returns the certificate chain of slot 0. -/
  | spdmGetCertificate (port : Port) (offset length : BitVec 16)
  /-- SPDM_CHALLENGE (R301): The SPDM request CHALLENGE is answered with a signed response. -/
  | spdmChallenge (port : Port)
  /-- SPDM_GET_MEASUREMENTS (R301): The SPDM request GET_MEASUREMENTS returns the measurement blocks. -/
  | spdmGetMeasurements (port : Port) (block : Byte)
  /-- SPDM_KEY_EXCHANGE (R301): The SPDM request KEY_EXCHANGE begins a session. -/
  | spdmKeyExchange (port : Port)
  /-- SPDM_FINISH (R301): The SPDM request FINISH completes the session handshake. -/
  | spdmFinish (port : Port)
  /-- SPDM_HEARTBEAT (R301): The SPDM request HEARTBEAT keeps the session alive. -/
  | spdmHeartbeat (port : Port)
  /-- SPDM_KEY_UPDATE (R301): The SPDM request KEY_UPDATE updates the session keys. -/
  | spdmKeyUpdate (port : Port) (operation tag : Byte)
  /-- SPDM_END_SESSION (R301): The SPDM request END_SESSION ends the session. -/
  | spdmEndSession (port : Port)
  /-- SPDM_VENDOR_DEFINED_REQUEST (R301): The SPDM request VENDOR_DEFINED_REQUEST is answered. -/
  | spdmVendorDefinedRequest (port : Port)
  /-- IDE_KM_QUERY (R301): The IDE key-management message QUERY is answered within a session. -/
  | ideKmQuery (port : Port)
  /-- IDE_KM_KEY_PROG (R301): The IDE key-management message KEY_PROG programs a stream key. -/
  | ideKmKeyProg (port : Port) (io transmit : Bool) (key : BitVec 256)
  /-- IDE_KM_K_SET_GO (R301): The IDE key-management message K_SET_GO activates a key set. -/
  | ideKmKSetGo (port : Port) (io skid : Bool)
  /-- IDE_KM_K_SET_STOP (R301): The IDE key-management message K_SET_STOP stops a key set. -/
  | ideKmKSetStop (port : Port) (io : Bool)
  /-- IDE_KM_GETKEY (R301): The IDE key-management message GETKEY is answered. -/
  | ideKmGetkey (port : Port) (io : Bool)
  /-- IDE_INTEGRITY_FAILURE (R302): An IDE integrity failure contains or poisons the epoch, discards the keys and takes the link down. -/
  | ideIntegrityFailure (port : Port) (lines : List LineAddr)
  /-- PORT_STATISTICS_CLEAR (R303): Writing 0x01 to [2B00.07] zeroes the port and directory counters. -/
  | portStatisticsClear (via : Via)
  /-- SHADOW_COMMIT (R315): Writing 0x01 to ShadowCommit makes the shadow descriptor index the pending committed set. -/
  | shadowCommit (via : Via) (channel : BarrowChannel)
  /-- CHANNEL_START (R318): Writing 0x01 to ChannelCommand starts an idle channel with a hand-over of the pending set. -/
  | channelStart (via : Via) (channel : BarrowChannel)
  /-- CHANNEL_ABORT (R313): Writing 0x02 to ChannelCommand stops issuing beats and completes the descriptor as aborted. -/
  | channelAbort (via : Via) (channel : BarrowChannel)
  /-- BARROW_BEAT_ISSUE (R306): A channel issues the source read of its next beat within its limit of 16 in flight. -/
  | barrowBeatIssue (access : BeatAccess)
  /-- BARROW_SOURCE_READ_COMPLETE (R306): A beat's source data arrives and its write is issued to the destination. -/
  | barrowSourceReadComplete (access : BeatAccess) (beat : BitVec 32) (data : Line) (ok : Bool)
  /-- BARROW_WRITE_RESPONSE (R307): A device beat's take-in is its write response, and a descriptor may complete. -/
  | barrowWriteResponse (channel : BarrowChannel)
  /-- FLUSH_READ_COMPLETE (R307): A flush-read completion gives the write response of every posted beat before it. -/
  | flushReadComplete (channel : BarrowChannel) (ok : Bool)
  /-- FILL_THROUGH_COMPLETE (R319): The program of a fill-through completing leaves the line clean and gives the beat its response. -/
  | fillThroughComplete (line : LineAddr)
  /-- TELEMETRY_LINE_WRITE (R320): A telemetry channel writes a ring line from eight TQ words and posts the write pointer. -/
  | telemetryLineWrite (channel : BarrowChannel)
  /-- TELEMETRY_FLUSH_INTERVAL (R320): The oldest waiting TQ word reaching FlushInterval writes a partial line. -/
  | telemetryFlushInterval (channel : BarrowChannel)
  /-- TELEMETRY_READ_POINTER (R320): A write to [2C1x.11] records the consumer's read pointer and frees ring space. -/
  | telemetryReadPointer (via : Via) (channel : BarrowChannel) (value : BitVec 32)
  /-- INTERRUPT_CAUSE_CLEAR (R309): Writing 1 to InterruptCause bits clears them. -/
  | interruptCauseClear (via : Via) (channel : BarrowChannel) (mask : Byte)
  /-- BARROW_STATISTICS_CLEAR (R322): Writing 0x01 to [2C00.05] zeroes the Barrow counters. -/
  | barrowStatisticsClear (via : Via)
  /-- QUEUE_PUSH (R325): A producer's packet word is taken into a stall queue, with stall or discard when it is full. -/
  | queuePush (queue : QueueId) (producer : Fin 4) (data : BitVec 64) (first last : Bool)
  /-- SPILL_BLOCK_WRITE (R328): Seven tail words are written as a spill block in an idle bank cycle. -/
  | spillBlockWrite (queue : QueueId)
  /-- SPILL_BLOCK_READ (R329): The oldest spill block is read into the head, poisoning words that are uncorrectable. -/
  | spillBlockRead (queue : QueueId) (words : SpillWords)
  /-- SPILL_FORCED (R328): A spill access waiting 1 us is forced as a scrub-like bank operation. -/
  | spillForced (queue : QueueId) (access : SpillAccess)
  /-- QUEUE_FLUSH (R332): Writing 0x01 to a queue's Flush object discards its packets in one core cycle. -/
  | queueFlush (via : Via) (queue : QueueId)
  /-- TQ_READ (R335): A read of [2D20.01] returns eight TQ words and advances the mark. -/
  | tqRead (via : Via)
  /-- TIME_MARK (R326): Once per second a time-mark packet is pushed into the TQ. -/
  | timeMark
  /-- QUEUE_STATISTICS_CLEAR (R335): Writing 0x01 to [2D00.02] zeroes the queue statistics. -/
  | queueStatisticsClear (via : Via)
  /-- PAGE_WRITE (R402): The next queued Folio page write starts by class, under the abandon comparator. -/
  | pageWrite
  /-- PAGE_WRITE_COMPLETE (R405): A completed page write is read back, repeated once on mismatch, and the next item is taken. -/
  | pageWriteComplete (readBack : List Byte)
  /-- USER_DATA_WRITE (R411): A write to [3110.02] queues a user page write. -/
  | userDataWrite (via : Via) (data : List Byte)
  /-- TALLY_INCREMENT (R414): A tally with a pending count writes one increment at its write interval. -/
  | tallyIncrement (tally : Byte)
  /-- HOUR_TALLY (R474): 3,600 s accumulated under an hour tally's condition adds one to that tally. -/
  | hourTally (tally : Byte)
  /-- RATE_LIMIT_WINDOW (R418): The end of a rate-limit window raises summary records and frees the idle trackers. -/
  | rateLimitWindow
  /-- LEDGER_CLEAR (R420): Writing 0x01 to [3180.08] sets a new clear mark and updates section 9. -/
  | ledgerClear (via : Via)
  /-- LEDGER_WINDOW_READ (R421): A read of [3180.05] returns up to eight records from the cursor and advances it. -/
  | ledgerWindowRead (via : Via)
  /-- FOLIO_STATISTICS_CLEAR (R422): Writing 0x01 to [3100.09] zeroes the Folio statistics. -/
  | folioStatisticsClear (via : Via)
  /-- RUN_CONTROL (R456): A write to [3200.01] stops or starts all counters in one core cycle. -/
  | runControl (via : Via) (on : Bool)
  /-- COUNTER_CLEAR (R456): Writing 0x01 to [3200.02] zeroes every counter, sticky byte and sample count. -/
  | counterClear (via : Via)
  /-- WRAP_STICKY_CLEAR (R458): Writing 1 to WrapSticky bits clears them. -/
  | wrapStickyClear (via : Via) (block : Fin 13) (mask : Byte)
  /-- COUNTER_DUMP (R459): The end of a dump window captures all counters and pushes thirteen TQ packets. -/
  | counterDump
  /-- CORE_BROWN_OUT (R347): The on-die brown-out detector holds the core and Easel logic in reset while VCORE is below 0.70 V or VSRAM below 0.74 V, so charged lines are lost and the next Priming counts a dirty shutdown. -/
  | coreBrownOut
  /-- CAN_BUS_OFF_RECOVERY (R438): The CAN FD controller leaves bus-off, [2001.07] leaves 2, and EMCYs may be sent again. -/
  | canBusOffRecovery
  /-- MAINT_EN_LOW (R428): The filtered MAINT_EN_N input goes low, sets [2000.06] and allows Maintainer level to be granted again. -/
  | maintEnLow
  /-- BUS_MASTER_ENABLE_CLEARED (R310): Host software clears Bus Master Enable in the owner port's function, which stops the host beats of its Barrow channels with the flag link down. -/
  | busMasterEnableCleared (port : Port)
  /-- BI_ENABLE_SET (R282): Host software sets the port's BI enable, reported in [2B10.0B], which allows HDM-DB decoder commits in shared windows. -/
  | biEnableSet (port : Port)
  /-- COMPLETION_TIMEOUT (R307): A Barrow MRd or flush-read that exceeds the completion timeout of the owner's Device Control 2 register becomes a source or destination error of the beats it covers. -/
  | completionTimeout (channel : BarrowChannel) (flush : Bool) (beat : BitVec 32)
  /-- USDO_SEGMENT (R435): A non-final USDO segment of a segmented transfer is received or requested, and the 1 s segment timer restarts. -/
  | usdoSegment (node : BitVec 7) (idx : BitVec 16) (sub : BitVec 8)
  deriving DecidableEq, Repr

end Sys2Proof
end

