-- ==== Sys2Proof/Config.lean ====
section
/-! DEFINITION. Config.lean: what one part fixes and the spec leaves open, as constants with no body, so that no proof
can see a value of theirs: the random source, the fuse and mask-ROM values (R425), the factory calibration, and the
answers whose bytes the spec does not give. -/

namespace Sys2Proof.Config

/-- The random source (R69, R189, R207, R460): draw number n, as an unbounded number the user of a draw cuts to its
width. Log entry 4. -/
opaque random : Nat → Nat

/-- The device key fused by the factory (R184 keys table), 256 bits, as 32 bytes. -/
opaque deviceKey : List Byte

/-- [1018.03], [2000.04] mask-ROM revision (R425 class F). -/
opaque maskRomRevision : BitVec 32

/-- [1018.04] serial number (R425 class F). -/
opaque serialNumber : BitVec 32

/-- [2000.05] fuse configuration (R425 class F). -/
opaque fuseConfiguration : BitVec 32

/-- [1009.00] hardware version string (R425 class F). -/
opaque hardwareVersion : List Byte

/-- [100A.00] software version string (R425 class F). -/
opaque softwareVersion : List Byte

/-- Factory reference code of [2820], subindex 0x01 to 0x19, before the fall-back of R409. -/
opaque referenceCode : Nat → BitVec 8

/-- Payload of a CXL mailbox, SPDM or IDE answer whose bytes the spec does not give: by opcode and draw number. -/
opaque answerBytes : Nat → Nat → List Byte

/-- Trim of the on-die oscillator in ppm for a mean of zone C in 0.1 °C: the factory coefficient table (R384). -/
opaque oscillatorTrim : Int → Int

/-- Content of a patch after a fail event (R243), by free-value number. Log entry 4. -/
opaque freePatch : Nat → BitVec 96

/-- Words 2 to 13 of an event record: bytes 32 to 127 of the CXL record, which the spec leaves to the CXL specification,
by record kind, event type, line and word. Log entry 17. -/
opaque eventWord : Nat → Nat → Nat → Nat → BitVec 64

/-- Whether a presented SPDM signature, key share or MAC verifies: by request kind and draw number. -/
opaque spdmAccepts : Nat → Nat → Bool

/-- SHA-384 of a byte string, used in a measurement block (R301). Log entry 17. -/
opaque sha384 : List Byte → List Byte

/-- C in µF that a sink measurement with no fall at all gives: R121 states none. Log entry 9. -/
opaque capacitanceAtNoFall : Nat

/-- What the outside answers to a write that reaches it through a generic path: self-test results, a stack's register
value, a PMBus acknowledgement; by free-value number. Log entry 4. -/
opaque outsideAnswer : Nat → Nat

end Sys2Proof.Config
end

