-- ==== Sys2Proof/Machine/Bytes.lean ====
section
/-! DEFINITION. Machine/Bytes.lean: byte-order and bit-field helpers shared by every unit: least significant byte
first everywhere (R33, R423), and the two cyclic redundancy checks (CRC-32C of R36, CRC-8 of R234). -/

namespace Sys2Proof.Machine

/-- The `n` low bytes of a number, least significant first. -/
def leBytes : Nat → Nat → List Byte
  | 0, _ => []
  | n + 1, v => BitVec.ofNat 8 v :: leBytes n (v / 256)

/-- The number a byte list spells, least significant byte first. -/
def ofLe : List Byte → Nat
  | [] => 0
  | b :: bs => b.toNat + 256 * ofLe bs

/-- `n` bytes of `bs` from offset `k`; bytes past the end read as zero. -/
def bytesAt (bs : List Byte) (k n : Nat) : List Byte :=
  (List.range n).map (fun i => bs.getD (k + i) 0)

/-- The number in `n` bytes of `bs` from offset `k`. -/
def numAt (bs : List Byte) (k n : Nat) : Nat :=
  ofLe (bytesAt bs k n)

/-- Two's complement of a value of `n` bytes, as an unsigned number. -/
def toUnsigned (n : Nat) (v : Int) : Nat :=
  (v % (256 ^ n : Nat)).toNat

/-- The signed value of an unsigned number of `n` bytes. -/
def toSigned (n : Nat) (v : Nat) : Int :=
  if 2 * v < 256 ^ n then (v : Int) else (v : Int) - (256 ^ n : Nat)

/-- A field of `n` bytes holding `v`, or its maximum where `v` exceeds the width (R452). -/
def satBytes (n : Nat) (v : Nat) : List Byte :=
  leBytes n (if v < 256 ^ n then v else 256 ^ n - 1)

/-- A list cut or zero-filled to `n` bytes. -/
def padTo (n : Nat) (bs : List Byte) : List Byte :=
  bytesAt bs 0 n

/-- Bits hi..lo of a number. -/
def bitsOf (v hi lo : Nat) : Nat :=
  (v / 2 ^ lo) % 2 ^ (hi + 1 - lo)

/-- Bit `i` of a number. -/
def bitOf (v i : Nat) : Bool :=
  (v / 2 ^ i) % 2 == 1

/-- 1 for true, 0 for false. -/
def bnat (b : Bool) : Nat :=
  if b then 1 else 0

/-- One bit of the reflected CRC-32C register (polynomial 0x82F6_3B78, R36). -/
def crc32cBit (c : BitVec 32) : BitVec 32 :=
  if c.getLsbD 0 then (c >>> 1) ^^^ 0x82F63B78#32 else c >>> 1

/-- One byte through the CRC-32C register. -/
def crc32cByte (c : BitVec 32) (b : Byte) : BitVec 32 :=
  let c := c ^^^ b.setWidth 32
  crc32cBit (crc32cBit (crc32cBit (crc32cBit (crc32cBit (crc32cBit (crc32cBit (crc32cBit c)))))))

/-- CRC-32C of a byte list (R36). -/
def crc32c (bs : List Byte) : BitVec 32 :=
  (bs.foldl crc32cByte 0xFFFFFFFF#32) ^^^ 0xFFFFFFFF#32

/-- A byte list followed by its CRC-32C, least significant byte first. -/
def withCrc (bs : List Byte) : List Byte :=
  bs ++ leBytes 4 (crc32c bs).toNat

/-- Whether the last four bytes of a list are the CRC-32C of the rest. -/
def crcOk (bs : List Byte) : Bool :=
  4 ≤ bs.length && numAt bs (bs.length - 4) 4 == (crc32c (bs.take (bs.length - 4))).toNat

/-- One bit of the CRC-8 register of polynomial 0x07. -/
def crc8Bit (c : Byte) : Byte :=
  if c.getLsbD 7 then (c <<< 1) ^^^ 0x07#8 else c <<< 1

/-- CRC-8 with polynomial 0x07 over a byte list, initial value 0. -/
def crc8 (bs : List Byte) : Byte :=
  bs.foldl (fun c b =>
    crc8Bit (crc8Bit (crc8Bit (crc8Bit (crc8Bit (crc8Bit (crc8Bit (crc8Bit (c ^^^ b)))))))) ) 0

/-- Byte `j` of a line. -/
def lineByte (l : Line) (j : Nat) : Byte :=
  (l >>> (8 * j)).setWidth 8

/-- The 64 bytes of a line. -/
def lineBytes (l : Line) : List Byte :=
  (List.range 64).map (lineByte l)

/-- The number a byte list spells, as a bit vector of `w` bits. -/
def bvOfBytes (w : Nat) (bs : List Byte) : BitVec w :=
  BitVec.ofNat w (ofLe bs)

/-- A line from its 64 bytes. -/
def lineOf (bs : List Byte) : Line :=
  bvOfBytes 512 bs

/-- The 64-bit mask with bit j set for every byte j at `lo .. lo+n-1`. -/
def byteMask (lo n : Nat) : BitVec 64 :=
  BitVec.ofNat 64 ((2 ^ n - 1) * 2 ^ lo)

/-- A line whose bytes under `mask` come from `new` and whose other bytes come from `old`. -/
def mergeLine (old new : Line) (mask : BitVec 64) : Line :=
  lineOf ((List.range 64).map (fun j => if mask.getLsbD j then lineByte new j else lineByte old j))

/-- Puts an element before the first that `le` does not place before it. -/
def insertBy {α : Type} (le : α → α → Bool) (x : α) : List α → List α
  | [] => [x]
  | y :: ys => if le x y then x :: y :: ys else y :: insertBy le x ys

/-- A list in the order `le`, equal elements as they stood. -/
def sortBy {α : Type} (le : α → α → Bool) (xs : List α) : List α :=
  xs.foldr (insertBy le) []

/-- Saturating increment of an n-bit count. -/
def satInc (bits v : Nat) : Nat :=
  if v + 1 < 2 ^ bits then v + 1 else 2 ^ bits - 1

end Sys2Proof.Machine
end

