-- ==== Sys2Proof/Machine/Objects.lean ====
section
/-! DEFINITION. Machine/Objects.lean: the object tables of the object dictionary (R423, R447): one row per table row
of the chapters, in index order, with the implicit subindex 0x00 rows of R448. A default that depends on the
unit number, on another setting or on the factory stands as 0 here and is given by `objDefault` in Machine/Ops.lean. -/

namespace Sys2Proof.Machine

/-- Access levels of R427, lowest first. -/
inductive Level where
  | observer | operator | maintainer
  deriving DecidableEq, Repr

/-- The level code of R427 and [2010.02]. -/
def levelNum : Level → Nat
  | .observer => 0
  | .operator => 1
  | .maintainer => 2

/-- CiA 301 types the object tables use; `octets lo hi` is an OCTET_STRING of lo to hi bytes. -/
inductive ObjType where
  | bool | u8 | u16 | u32 | u64 | i8 | i16 | str
  | octets (lo hi : Nat)
  deriving DecidableEq, Repr

/-- Access codes of R423. -/
inductive Access where
  | const | ro | wo | rw
  deriving DecidableEq, Repr

/-- Persistence classes of R425. -/
inductive Persistence where
  | p | v | f
  deriving DecidableEq, Repr

/-- One row of an object table: indices idxLo..idxHi, subindices subLo..subHi, and the properties of R423.
`ranges` lists the accepted intervals of a written number (empty: the whole type); `mult` is the step a written
number must be a multiple of. -/
structure ObjRow where
  idxLo : Nat
  idxHi : Nat
  subLo : Nat
  subHi : Nat
  ty : ObjType
  access : Access
  staged : Bool
  level : Level
  dflt : Int
  ranges : List (Int × Int)
  mult : Nat
  pers : Persistence
  deriving DecidableEq, Repr

/-- Object rows of block 0x10 (spec/19_dictionary_and_management.md). -/
def objects10a : List ObjRow := [
  ⟨0x1000, 0x1000, 0x00, 0x00, .u32, .const, false, .observer, 0, [], 1, .f⟩, -- DeviceType
  ⟨0x1001, 0x1001, 0x00, 0x00, .u8, .ro, false, .observer, 0, [], 1, .v⟩, -- ErrorRegister
  ⟨0x1003, 0x1003, 0x00, 0x00, .u8, .rw, false, .operator, 0, [(0, 0)], 1, .v⟩, -- ErrorCount
  ⟨0x1003, 0x1003, 0x01, 0x08, .u32, .ro, false, .observer, 0, [], 1, .v⟩, -- PreDefinedErrorField
  ⟨0x1005, 0x1005, 0x00, 0x00, .u32, .rw, false, .operator, 128, [(0, 2047)], 1, .p⟩, -- CobIdSync
  ⟨0x1008, 0x1008, 0x00, 0x00, .str, .const, false, .observer, 0, [], 1, .f⟩, -- ManufacturerDeviceName
  ⟨0x1009, 0x1009, 0x00, 0x00, .str, .const, false, .observer, 0, [], 1, .f⟩, -- ManufacturerHardwareVersion
  ⟨0x100A, 0x100A, 0x00, 0x00, .str, .const, false, .observer, 0, [], 1, .f⟩, -- ManufacturerSoftwareVersion
  ⟨0x1010, 0x1010, 0x00, 0x00, .u8, .const, false, .observer, 3, [], 1, .f⟩, -- HighestSubindex
  ⟨0x1010, 0x1010, 0x01, 0x03, .u32, .rw, false, .maintainer, 1, [], 1, .v⟩, -- StoreParameters
  ⟨0x1011, 0x1011, 0x00, 0x00, .u8, .const, false, .observer, 3, [], 1, .f⟩, -- HighestSubindex
  ⟨0x1011, 0x1011, 0x01, 0x03, .u32, .rw, false, .maintainer, 1, [], 1, .v⟩, -- RestoreDefaultParameters
  ⟨0x1014, 0x1014, 0x00, 0x00, .u32, .rw, false, .operator, 0, [(0, 2047)], 1, .p⟩, -- CobIdEmcy
  ⟨0x1015, 0x1015, 0x00, 0x00, .u16, .rw, false, .operator, 0, [], 1, .p⟩, -- InhibitTimeEmcy
  ⟨0x1016, 0x1016, 0x00, 0x00, .u8, .const, false, .observer, 4, [], 1, .f⟩, -- HighestSubindex
  ⟨0x1016, 0x1016, 0x01, 0x04, .u32, .rw, false, .operator, 0, [(0, 16777215)], 1, .p⟩, -- ConsumerHeartbeatTime
  ⟨0x1017, 0x1017, 0x00, 0x00, .u16, .rw, false, .operator, 1000, [(0, 65535)], 1, .p⟩, -- ProducerHeartbeatTime
  ⟨0x1018, 0x1018, 0x00, 0x00, .u8, .const, false, .observer, 4, [], 1, .f⟩, -- HighestSubindex
  ⟨0x1018, 0x1018, 0x01, 0x01, .u32, .const, false, .observer, 1479, [], 1, .f⟩, -- VendorId
  ⟨0x1018, 0x1018, 0x02, 0x02, .u32, .const, false, .observer, 29824, [], 1, .f⟩, -- ProductCode
  ⟨0x1018, 0x1018, 0x03, 0x03, .u32, .const, false, .observer, 0, [], 1, .f⟩, -- RevisionNumber
  ⟨0x1018, 0x1018, 0x04, 0x04, .u32, .const, false, .observer, 0, [], 1, .f⟩, -- SerialNumber
  ⟨0x1800, 0x1807, 0x00, 0x00, .u8, .const, false, .observer, 5, [], 1, .f⟩, -- HighestSubindex
  ⟨0x1800, 0x1807, 0x01, 0x01, .u32, .rw, false, .operator, 0, [], 1, .p⟩, -- TpdoCobId
  ⟨0x1800, 0x1807, 0x02, 0x02, .u8, .rw, false, .operator, 254, [(1, 240), (254, 255)], 1, .p⟩, -- TpdoTransmissionType
  ⟨0x1800, 0x1807, 0x03, 0x03, .u16, .rw, false, .operator, 0, [], 1, .p⟩, -- TpdoInhibitTime
  ⟨0x1800, 0x1807, 0x05, 0x05, .u16, .rw, false, .operator, 1000, [(0, 65535)], 1, .p⟩, -- TpdoEventTimer
  ⟨0x1A00, 0x1A07, 0x00, 0x00, .u8, .rw, false, .operator, 5, [(0, 16)], 1, .p⟩, -- TpdoMappedCount
  ⟨0x1A00, 0x1A07, 0x01, 0x10, .u32, .rw, false, .operator, 0, [], 1, .p⟩] -- TpdoMapping

/-- Object rows of block 0x20 (spec/19_dictionary_and_management.md). -/
def objects20a : List ObjRow := [
  ⟨0x2000, 0x2000, 0x00, 0x00, .u8, .const, false, .observer, 6, [], 1, .f⟩, -- HighestSubindex
  ⟨0x2000, 0x2000, 0x01, 0x01, .u8, .ro, false, .observer, 0, [], 1, .v⟩, -- DeviceState
  ⟨0x2000, 0x2000, 0x02, 0x02, .u8, .ro, false, .observer, 0, [], 1, .v⟩, -- StateAttributes
  ⟨0x2000, 0x2000, 0x03, 0x03, .u64, .ro, false, .observer, 0, [], 1, .v⟩, -- TimeInState
  ⟨0x2000, 0x2000, 0x04, 0x04, .u32, .const, false, .observer, 0, [], 1, .f⟩, -- MaskRomRevision
  ⟨0x2000, 0x2000, 0x05, 0x05, .u32, .const, false, .observer, 0, [], 1, .f⟩, -- FuseConfiguration
  ⟨0x2000, 0x2000, 0x06, 0x06, .bool, .ro, false, .observer, 0, [], 1, .v⟩, -- MaintenanceEnable
  ⟨0x2001, 0x2001, 0x00, 0x00, .u8, .const, false, .observer, 8, [], 1, .f⟩, -- HighestSubindex
  ⟨0x2001, 0x2001, 0x01, 0x01, .bool, .rw, false, .maintainer, 1, [(0, 1)], 1, .p⟩, -- CanEnable
  ⟨0x2001, 0x2001, 0x02, 0x02, .u8, .rw, false, .maintainer, 64, [(1, 127)], 1, .p⟩, -- NodeId
  ⟨0x2001, 0x2001, 0x03, 0x03, .u8, .rw, false, .maintainer, 2, [(0, 3)], 1, .p⟩, -- ArbitrationRate
  ⟨0x2001, 0x2001, 0x04, 0x04, .u8, .rw, false, .maintainer, 1, [(0, 4)], 1, .p⟩, -- DataRate
  ⟨0x2001, 0x2001, 0x05, 0x05, .u16, .rw, false, .maintainer, 60, [(10, 3600)], 1, .p⟩, -- CanSessionIdle
  ⟨0x2001, 0x2001, 0x06, 0x06, .u8, .ro, false, .observer, 0, [], 1, .v⟩, -- NmtState
  ⟨0x2001, 0x2001, 0x07, 0x07, .u8, .ro, false, .observer, 0, [], 1, .v⟩, -- CanErrorState
  ⟨0x2001, 0x2001, 0x08, 0x08, .bool, .rw, false, .maintainer, 0, [(0, 1)], 1, .p⟩, -- NmtStartup
  ⟨0x2002, 0x2002, 0x00, 0x00, .u8, .const, false, .observer, 6, [], 1, .f⟩, -- HighestSubindex
  ⟨0x2002, 0x2002, 0x01, 0x01, .bool, .rw, false, .maintainer, 1, [(0, 1)], 1, .p⟩, -- I3cEnable
  ⟨0x2002, 0x2002, 0x02, 0x02, .u8, .rw, false, .maintainer, 58, [(8, 119)], 1, .p⟩, -- StaticAddress
  ⟨0x2002, 0x2002, 0x03, 0x03, .u8, .ro, false, .observer, 0, [], 1, .v⟩, -- DynamicAddress
  ⟨0x2002, 0x2002, 0x04, 0x04, .bool, .ro, false, .observer, 0, [], 1, .v⟩, -- IbiEnabled
  ⟨0x2002, 0x2002, 0x05, 0x05, .u16, .rw, false, .maintainer, 60, [(10, 3600)], 1, .p⟩, -- I3cSessionIdle
  ⟨0x2002, 0x2002, 0x06, 0x06, .u8, .rw, false, .maintainer, 0, [(0, 15)], 1, .p⟩, -- InstanceId
  ⟨0x2010, 0x2010, 0x00, 0x00, .u8, .const, false, .observer, 3, [], 1, .f⟩, -- HighestSubindex
  ⟨0x2010, 0x2010, 0x01, 0x01, .u8, .ro, false, .observer, 0, [], 1, .v⟩, -- SessionNumber
  ⟨0x2010, 0x2010, 0x02, 0x02, .u8, .ro, false, .observer, 0, [], 1, .v⟩, -- AccessLevel
  ⟨0x2010, 0x2010, 0x03, 0x03, (.octets 5 5), .wo, false, .observer, 0, [], 1, .v⟩, -- LevelRequest
  ⟨0x2011, 0x2011, 0x00, 0x00, .u8, .const, false, .observer, 3, [], 1, .f⟩, -- HighestSubindex
  ⟨0x2011, 0x2011, 0x01, 0x01, .u32, .wo, false, .maintainer, 0, [], 1, .p⟩, -- OperatorCode
  ⟨0x2011, 0x2011, 0x02, 0x02, .u32, .wo, false, .maintainer, 0, [], 1, .p⟩, -- MaintainerCode
  ⟨0x2011, 0x2011, 0x03, 0x03, .u32, .ro, false, .observer, 0, [], 1, .v⟩, -- LevelCodeFailures
  ⟨0x2012, 0x2012, 0x00, 0x00, .u8, .const, false, .observer, 16, [], 1, .f⟩, -- HighestSubindex
  ⟨0x2012, 0x2012, 0x01, 0x10, .u32, .ro, false, .observer, 4278190080, [], 1, .v⟩, -- SessionInfo
  ⟨0x2020, 0x2020, 0x00, 0x00, .u8, .const, false, .observer, 5, [], 1, .f⟩, -- HighestSubindex
  ⟨0x2020, 0x2020, 0x01, 0x01, .u8, .wo, false, .observer, 0, [(1, 2)], 1, .v⟩, -- Commit
  ⟨0x2020, 0x2020, 0x02, 0x02, .u8, .ro, false, .observer, 0, [], 1, .v⟩, -- CommitStatus
  ⟨0x2020, 0x2020, 0x03, 0x03, .u8, .ro, false, .observer, 0, [], 1, .v⟩, -- StagedEntries
  ⟨0x2020, 0x2020, 0x04, 0x04, .u8, .rw, false, .observer, 0, [(0, 63)], 1, .v⟩, -- StagedSelect
  ⟨0x2020, 0x2020, 0x05, 0x05, .u32, .ro, false, .observer, 0, [], 1, .v⟩, -- StagedEntry
  ⟨0x2030, 0x2030, 0x00, 0x00, .u8, .const, false, .observer, 4, [], 1, .f⟩] -- HighestSubindex

/-- Object rows of block 0x20 (spec/19_dictionary_and_management.md). -/
def objects20b : List ObjRow := [
  ⟨0x2030, 0x2030, 0x01, 0x01, .u16, .ro, false, .observer, 0, [], 1, .v⟩, -- LastDetail
  ⟨0x2030, 0x2030, 0x02, 0x02, .u32, .ro, false, .observer, 0, [], 1, .v⟩, -- LastAbort
  ⟨0x2030, 0x2030, 0x03, 0x03, .u32, .ro, false, .observer, 0, [], 1, .v⟩, -- LastObject
  ⟨0x2030, 0x2030, 0x04, 0x04, .u32, .ro, false, .observer, 0, [], 1, .v⟩, -- RejectCount
  ⟨0x2040, 0x2040, 0x00, 0x00, .u8, .const, false, .observer, 6, [], 1, .f⟩, -- HighestSubindex
  ⟨0x2040, 0x2040, 0x01, 0x06, .u64, .ro, false, .observer, 0, [], 1, .v⟩, -- RequestsServed
  ⟨0x2041, 0x2041, 0x00, 0x00, .u8, .const, false, .observer, 6, [], 1, .f⟩, -- HighestSubindex
  ⟨0x2041, 0x2041, 0x01, 0x06, .u64, .ro, false, .observer, 0, [], 1, .v⟩, -- RequestsRejected
  ⟨0x2042, 0x2042, 0x00, 0x00, .u8, .const, false, .observer, 1, [], 1, .f⟩, -- HighestSubindex
  ⟨0x2042, 0x2042, 0x01, 0x01, .u8, .wo, false, .operator, 0, [(1, 1)], 1, .v⟩] -- StatisticsClear

/-- Object rows of block 0x21 (spec/02_tile_code.md). -/
def objects21a : List ObjRow := [
  ⟨0x2100, 0x2100, 0x00, 0x00, .u8, .const, false, .observer, 14, [], 1, .f⟩, -- HighestSubindex
  ⟨0x2100, 0x2100, 0x01, 0x01, .u64, .ro, false, .observer, 0, [], 1, .v⟩, -- CodewordsDecoded
  ⟨0x2100, 0x2100, 0x02, 0x02, .u64, .ro, false, .observer, 0, [], 1, .v⟩, -- FastPathDecodes
  ⟨0x2100, 0x2100, 0x03, 0x03, .u64, .ro, false, .observer, 0, [], 1, .v⟩, -- ErasurePathDecodes
  ⟨0x2100, 0x2100, 0x04, 0x04, .u64, .ro, false, .observer, 0, [], 1, .v⟩, -- ErrorSymbolsCorrected
  ⟨0x2100, 0x2100, 0x05, 0x05, .u64, .ro, false, .observer, 0, [], 1, .v⟩, -- DecodeFailuresFirstRead
  ⟨0x2100, 0x2100, 0x06, 0x06, .u64, .ro, false, .observer, 0, [], 1, .v⟩, -- RetriesIssued
  ⟨0x2100, 0x2100, 0x07, 0x07, .u64, .ro, false, .observer, 0, [], 1, .v⟩, -- RecoveredByRetry
  ⟨0x2100, 0x2100, 0x08, 0x08, .u64, .ro, false, .observer, 0, [], 1, .v⟩, -- MiscorrectionsCaught
  ⟨0x2100, 0x2100, 0x09, 0x09, .u64, .ro, false, .observer, 0, [], 1, .v⟩, -- MisdirectedSuspected
  ⟨0x2100, 0x2100, 0x0A, 0x0A, .u64, .ro, false, .observer, 0, [], 1, .v⟩, -- DeepReadsQueued
  ⟨0x2100, 0x2100, 0x0B, 0x0B, .u64, .ro, false, .observer, 0, [], 1, .v⟩, -- DeepReadsRecovered
  ⟨0x2100, 0x2100, 0x0C, 0x0C, .u64, .ro, false, .observer, 0, [], 1, .v⟩, -- PoisonTilesRead
  ⟨0x2100, 0x2100, 0x0D, 0x0D, .u64, .ro, false, .observer, 0, [], 1, .v⟩, -- PoisonTilesWritten
  ⟨0x2100, 0x2100, 0x0E, 0x0E, .u8, .ro, false, .observer, 0, [], 1, .v⟩, -- MaxErrorSymbolsOneCodeword
  ⟨0x2110, 0x2117, 0x00, 0x00, .u8, .const, false, .observer, 14, [], 1, .f⟩, -- HighestSubindex
  ⟨0x2110, 0x2117, 0x01, 0x01, .u64, .ro, false, .observer, 0, [], 1, .v⟩, -- CodewordsDecoded
  ⟨0x2110, 0x2117, 0x02, 0x02, .u64, .ro, false, .observer, 0, [], 1, .v⟩, -- FastPathDecodes
  ⟨0x2110, 0x2117, 0x03, 0x03, .u64, .ro, false, .observer, 0, [], 1, .v⟩, -- ErasurePathDecodes
  ⟨0x2110, 0x2117, 0x04, 0x04, .u64, .ro, false, .observer, 0, [], 1, .v⟩, -- ErrorSymbolsCorrected
  ⟨0x2110, 0x2117, 0x05, 0x05, .u64, .ro, false, .observer, 0, [], 1, .v⟩, -- DecodeFailuresFirstRead
  ⟨0x2110, 0x2117, 0x06, 0x06, .u64, .ro, false, .observer, 0, [], 1, .v⟩, -- RetriesIssued
  ⟨0x2110, 0x2117, 0x07, 0x07, .u64, .ro, false, .observer, 0, [], 1, .v⟩, -- RecoveredByRetry
  ⟨0x2110, 0x2117, 0x08, 0x08, .u64, .ro, false, .observer, 0, [], 1, .v⟩, -- MiscorrectionsCaught
  ⟨0x2110, 0x2117, 0x09, 0x09, .u64, .ro, false, .observer, 0, [], 1, .v⟩, -- MisdirectedSuspected
  ⟨0x2110, 0x2117, 0x0A, 0x0A, .u64, .ro, false, .observer, 0, [], 1, .v⟩, -- DeepReadsQueued
  ⟨0x2110, 0x2117, 0x0B, 0x0B, .u64, .ro, false, .observer, 0, [], 1, .v⟩, -- DeepReadsRecovered
  ⟨0x2110, 0x2117, 0x0C, 0x0C, .u64, .ro, false, .observer, 0, [], 1, .v⟩, -- PoisonTilesRead
  ⟨0x2110, 0x2117, 0x0D, 0x0D, .u64, .ro, false, .observer, 0, [], 1, .v⟩, -- PoisonTilesWritten
  ⟨0x2110, 0x2117, 0x0E, 0x0E, .u8, .ro, false, .observer, 0, [], 1, .v⟩, -- MaxErrorSymbolsOneCodeword
  ⟨0x2120, 0x2120, 0x00, 0x00, .u8, .const, false, .observer, 64, [], 1, .f⟩, -- HighestSubindex
  ⟨0x2120, 0x2120, 0x01, 0x40, .u64, .ro, false, .observer, 0, [], 1, .v⟩, -- ErrorSymbolsPerChannel
  ⟨0x2121, 0x2121, 0x00, 0x00, .u8, .const, false, .observer, 64, [], 1, .f⟩, -- HighestSubindex
  ⟨0x2121, 0x2121, 0x01, 0x40, .u32, .ro, false, .observer, 0, [], 1, .v⟩, -- PatchesNominatedPerChannel
  ⟨0x2122, 0x2122, 0x00, 0x00, .u8, .const, false, .observer, 8, [], 1, .f⟩, -- HighestSubindex
  ⟨0x2122, 0x2122, 0x01, 0x08, .u8, .ro, false, .observer, 0, [], 1, .v⟩, -- ErasedColumnsPerGroup
  ⟨0x2123, 0x2123, 0x00, 0x00, .u8, .const, false, .observer, 8, [], 1, .f⟩, -- HighestSubindex
  ⟨0x2123, 0x2123, 0x01, 0x08, .u8, .ro, false, .observer, 0, [], 1, .v⟩, -- DeepReadQueueDepthPerGroup
  ⟨0x2130, 0x2130, 0x00, 0x00, .u8, .const, false, .observer, 4, [], 1, .f⟩, -- HighestSubindex
  ⟨0x2130, 0x2130, 0x01, 0x01, .u8, .rw, false, .operator, 2, [(0, 2)], 1, .p⟩] -- RetryLimit

/-- Object rows of block 0x21 (spec/02_tile_code.md). -/
def objects21b : List ObjRow := [
  ⟨0x2130, 0x2130, 0x02, 0x02, .bool, .rw, false, .maintainer, 1, [(0, 1)], 1, .p⟩, -- DeepReadEnable
  ⟨0x2130, 0x2130, 0x03, 0x03, .u8, .rw, false, .maintainer, 4, [(2, 12)], 1, .p⟩, -- PatchRemapThreshold
  ⟨0x2130, 0x2130, 0x04, 0x04, .u8, .wo, false, .operator, 0, [(1, 1)], 1, .v⟩] -- StatisticsClear

/-- Object rows of block 0x22 (spec/03_address_and_rotation.md). -/
def objects22a : List ObjRow := [
  ⟨0x2200, 0x2200, 0x00, 0x00, .u8, .const, false, .observer, 6, [], 1, .f⟩, -- HighestSubindex
  ⟨0x2200, 0x2200, 0x01, 0x01, .u16, .rw, true, .maintainer, 0, [(0, 7168)], 1, .p⟩, -- SpreadSize
  ⟨0x2200, 0x2200, 0x02, 0x02, .u16, .rw, false, .maintainer, 64, [(16, 1024)], 1, .p⟩, -- Psi
  ⟨0x2200, 0x2200, 0x03, 0x03, .u16, .rw, false, .maintainer, 4000, [(1000, 16000)], 1, .p⟩, -- SwapInterval
  ⟨0x2200, 0x2200, 0x04, 0x04, .u8, .rw, false, .maintainer, 32, [(1, 255)], 1, .p⟩, -- SwapHeatThreshold
  ⟨0x2200, 0x2200, 0x05, 0x05, .u32, .ro, false, .observer, 0, [], 1, .v⟩, -- HostVisibleSize
  ⟨0x2200, 0x2200, 0x06, 0x06, .bool, .ro, false, .observer, 0, [], 1, .v⟩, -- LayoutPending
  ⟨0x2201, 0x2208, 0x00, 0x00, .u8, .const, false, .observer, 3, [], 1, .f⟩, -- HighestSubindex
  ⟨0x2201, 0x2208, 0x01, 0x01, .u32, .rw, true, .maintainer, 0, [(0, 65535)], 1, .p⟩, -- ContainBase
  ⟨0x2201, 0x2208, 0x02, 0x02, .u32, .rw, true, .maintainer, 0, [(0, 65536)], 1, .p⟩, -- ContainSize
  ⟨0x2201, 0x2208, 0x03, 0x03, .u8, .rw, true, .maintainer, 0, [(0, 255)], 1, .p⟩, -- ContainGroupMask
  ⟨0x2210, 0x2217, 0x00, 0x00, .u8, .const, false, .observer, 12, [], 1, .f⟩, -- HighestSubindex
  ⟨0x2210, 0x2217, 0x01, 0x01, .u8, .ro, false, .observer, 0, [], 1, .v⟩, -- StackType
  ⟨0x2210, 0x2217, 0x02, 0x02, .u16, .ro, false, .observer, 0, [], 1, .v⟩, -- PhysicalRegions
  ⟨0x2210, 0x2217, 0x03, 0x03, .u16, .ro, false, .observer, 0, [], 1, .v⟩, -- HostRegionsMapped
  ⟨0x2210, 0x2217, 0x04, 0x04, .u16, .ro, false, .observer, 0, [], 1, .v⟩, -- FreeRegions
  ⟨0x2210, 0x2217, 0x05, 0x05, .u16, .ro, false, .observer, 0, [], 1, .v⟩, -- RetiredRegions
  ⟨0x2210, 0x2217, 0x06, 0x06, .u16, .ro, false, .observer, 0, [], 1, .v⟩, -- JournalRegion
  ⟨0x2210, 0x2217, 0x07, 0x07, .u64, .ro, false, .observer, 0, [], 1, .v⟩, -- GapSteps
  ⟨0x2210, 0x2217, 0x08, 0x08, .u64, .ro, false, .observer, 0, [], 1, .v⟩, -- StepsDropped
  ⟨0x2210, 0x2217, 0x09, 0x09, .u32, .ro, false, .observer, 0, [], 1, .v⟩, -- RegionMoves
  ⟨0x2210, 0x2217, 0x0A, 0x0A, .u16, .ro, false, .observer, 65535, [], 1, .v⟩, -- MoveInProgress
  ⟨0x2210, 0x2217, 0x0B, 0x0B, .u32, .ro, false, .observer, 0, [], 1, .v⟩, -- MovePointer
  ⟨0x2210, 0x2217, 0x0C, 0x0C, .u16, .ro, false, .observer, 0, [], 1, .v⟩, -- RegionsWithRemaps
  ⟨0x2220, 0x2220, 0x00, 0x00, .u8, .const, false, .observer, 64, [], 1, .f⟩, -- HighestSubindex
  ⟨0x2220, 0x2220, 0x01, 0x40, .u32, .ro, false, .observer, 0, [], 1, .v⟩, -- SparePatchesUsed
  ⟨0x2221, 0x2221, 0x00, 0x00, .u8, .const, false, .observer, 64, [], 1, .f⟩, -- HighestSubindex
  ⟨0x2221, 0x2221, 0x01, 0x40, .u32, .ro, false, .observer, 0, [], 1, .v⟩, -- SparePoolSize
  ⟨0x2230, 0x2230, 0x00, 0x00, .u8, .const, false, .observer, 3, [], 1, .f⟩, -- HighestSubindex
  ⟨0x2230, 0x2230, 0x01, 0x01, .u8, .rw, false, .operator, 0, [(0, 7)], 1, .v⟩, -- InspectGroup
  ⟨0x2230, 0x2230, 0x02, 0x02, .u16, .rw, false, .operator, 0, [], 1, .v⟩, -- InspectPhysicalRegion
  ⟨0x2230, 0x2230, 0x03, 0x03, (.octets 12 12), .ro, false, .observer, 0, [], 1, .v⟩, -- InspectRegionState
  ⟨0x2231, 0x2231, 0x00, 0x00, .u8, .const, false, .observer, 6, [], 1, .f⟩, -- HighestSubindex
  ⟨0x2231, 0x2231, 0x01, 0x01, .u64, .rw, false, .operator, 0, [(0, 17592186044352)], 64, .v⟩, -- TranslateDpa
  ⟨0x2231, 0x2231, 0x02, 0x02, .u8, .ro, false, .observer, 0, [], 1, .v⟩, -- TranslateGroup
  ⟨0x2231, 0x2231, 0x03, 0x03, .u16, .ro, false, .observer, 0, [], 1, .v⟩, -- TranslatePhysicalRegion
  ⟨0x2231, 0x2231, 0x04, 0x04, .u32, .ro, false, .observer, 0, [], 1, .v⟩, -- TranslateSlot
  ⟨0x2231, 0x2231, 0x05, 0x05, .u64, .ro, false, .observer, 0, [], 1, .v⟩, -- TranslatePatchAddress
  ⟨0x2231, 0x2231, 0x06, 0x06, .u8, .ro, false, .observer, 0, [], 1, .v⟩] -- TranslateRemapMask

/-- Object rows of block 0x23 (spec/04_easel.md). -/
def objects23a : List ObjRow := [
  ⟨0x2300, 0x2300, 0x00, 0x00, .u8, .const, false, .observer, 12, [], 1, .f⟩, -- HighestSubindex
  ⟨0x2300, 0x2300, 0x01, 0x01, .u32, .const, false, .observer, 4194304, [], 1, .f⟩, -- LineCapacity
  ⟨0x2300, 0x2300, 0x02, 0x02, .u8, .rw, false, .maintainer, 10, [(2, 100)], 1, .p⟩, -- HoldInterval
  ⟨0x2300, 0x2300, 0x03, 0x03, .u8, .rw, false, .maintainer, 75, [(25, 95)], 1, .p⟩, -- ShareWatermark
  ⟨0x2300, 0x2300, 0x04, 0x04, .u8, .rw, false, .maintainer, 2, [(1, 4)], 1, .p⟩, -- SetWatermarkMargin
  ⟨0x2300, 0x2300, 0x05, 0x05, .u16, .rw, false, .maintainer, 500, [(10, 10000)], 1, .p⟩, -- PatrolInterval
  ⟨0x2300, 0x2300, 0x06, 0x06, .u8, .rw, false, .maintainer, 4, [(1, 64)], 1, .p⟩, -- SoftSpareThreshold
  ⟨0x2300, 0x2300, 0x07, 0x07, .u8, .wo, false, .operator, 0, [(1, 1)], 1, .v⟩, -- FlushRequest
  ⟨0x2300, 0x2300, 0x08, 0x08, .bool, .ro, false, .observer, 0, [], 1, .v⟩, -- FlushActive
  ⟨0x2300, 0x2300, 0x09, 0x09, .u32, .ro, false, .observer, 0, [], 1, .v⟩, -- ValidLines
  ⟨0x2300, 0x2300, 0x0A, 0x0A, .u32, .ro, false, .observer, 0, [], 1, .v⟩, -- DirtyLines
  ⟨0x2300, 0x2300, 0x0B, 0x0B, .u16, .ro, false, .observer, 0, [], 1, .v⟩, -- MergeEntriesInUse
  ⟨0x2300, 0x2300, 0x0C, 0x0C, .u8, .wo, false, .operator, 0, [(1, 1)], 1, .v⟩, -- StatisticsClear
  ⟨0x2310, 0x2310, 0x00, 0x00, .u8, .const, false, .observer, 20, [], 1, .f⟩, -- HighestSubindex
  ⟨0x2310, 0x2310, 0x01, 0x01, .u64, .ro, false, .observer, 0, [], 1, .v⟩, -- ReadHits
  ⟨0x2310, 0x2310, 0x02, 0x02, .u64, .ro, false, .observer, 0, [], 1, .v⟩, -- ReadMisses
  ⟨0x2310, 0x2310, 0x03, 0x03, .u64, .ro, false, .observer, 0, [], 1, .v⟩, -- FullWrites
  ⟨0x2310, 0x2310, 0x04, 0x04, .u64, .ro, false, .observer, 0, [], 1, .v⟩, -- PartialWrites
  ⟨0x2310, 0x2310, 0x05, 0x05, .u64, .ro, false, .observer, 0, [], 1, .v⟩, -- MergeEntriesTaken
  ⟨0x2310, 0x2310, 0x06, 0x06, .u64, .ro, false, .observer, 0, [], 1, .v⟩, -- WritesHeldNoSetRoom
  ⟨0x2310, 0x2310, 0x07, 0x07, .u64, .ro, false, .observer, 0, [], 1, .v⟩, -- DestagesHoldExpiry
  ⟨0x2310, 0x2310, 0x08, 0x08, .u64, .ro, false, .observer, 0, [], 1, .v⟩, -- DestagesShareWatermark
  ⟨0x2310, 0x2310, 0x09, 0x09, .u64, .ro, false, .observer, 0, [], 1, .v⟩, -- DestagesSetWatermark
  ⟨0x2310, 0x2310, 0x0A, 0x0A, .u64, .ro, false, .observer, 0, [], 1, .v⟩, -- DestagesNoSetRoom
  ⟨0x2310, 0x2310, 0x0B, 0x0B, .u64, .ro, false, .observer, 0, [], 1, .v⟩, -- DestagesWriteThrough
  ⟨0x2310, 0x2310, 0x0C, 0x0C, .u64, .ro, false, .observer, 0, [], 1, .v⟩, -- DestagesFlush
  ⟨0x2310, 0x2310, 0x0D, 0x0D, .u64, .ro, false, .observer, 0, [], 1, .v⟩, -- WordsCorrected
  ⟨0x2310, 0x2310, 0x0E, 0x0E, .u64, .ro, false, .observer, 0, [], 1, .v⟩, -- UncorrectableCleanLines
  ⟨0x2310, 0x2310, 0x0F, 0x0F, .u64, .ro, false, .observer, 0, [], 1, .v⟩, -- DirtyLinesPoisoned
  ⟨0x2310, 0x2310, 0x10, 0x10, .u64, .ro, false, .observer, 0, [], 1, .v⟩, -- TagMirrorRepairs
  ⟨0x2310, 0x2310, 0x11, 0x11, .u32, .ro, false, .observer, 0, [], 1, .v⟩, -- TagIdentityLosses
  ⟨0x2310, 0x2310, 0x12, 0x12, .u32, .ro, false, .observer, 0, [], 1, .v⟩, -- ScrubLapsCompleted
  ⟨0x2310, 0x2310, 0x13, 0x13, .u32, .ro, false, .observer, 0, [], 1, .v⟩, -- LastLapTime
  ⟨0x2310, 0x2310, 0x14, 0x14, .u64, .ro, false, .observer, 0, [], 1, .v⟩, -- PatrolRowsForced
  ⟨0x2320, 0x2320, 0x00, 0x00, .u8, .const, false, .observer, 64, [], 1, .f⟩, -- HighestSubindex
  ⟨0x2320, 0x2320, 0x01, 0x40, .u8, .ro, false, .observer, 0, [], 1, .v⟩, -- SpareRowsUsed
  ⟨0x2321, 0x2321, 0x00, 0x00, .u8, .const, false, .observer, 64, [], 1, .f⟩, -- HighestSubindex
  ⟨0x2321, 0x2321, 0x01, 0x40, .u8, .ro, false, .observer, 0, [], 1, .v⟩, -- FieldSpareRowsUsed
  ⟨0x2322, 0x2322, 0x00, 0x00, .u8, .const, false, .observer, 64, [], 1, .f⟩, -- HighestSubindex
  ⟨0x2322, 0x2322, 0x01, 0x40, .u8, .ro, false, .observer, 0, [], 1, .v⟩] -- WayRecordsUsed

/-- Object rows of block 0x23 (spec/04_easel.md). -/
def objects23b : List ObjRow := [
  ⟨0x2323, 0x2323, 0x00, 0x00, .u8, .const, false, .observer, 64, [], 1, .f⟩, -- HighestSubindex
  ⟨0x2323, 0x2323, 0x01, 0x40, .u8, .ro, false, .observer, 0, [], 1, .v⟩] -- FrailSets

/-- Object rows of block 0x24 (spec/05_reserve_and_dirty_budget.md). -/
def objects24a : List ObjRow := [
  ⟨0x2400, 0x2400, 0x00, 0x00, .u8, .const, false, .observer, 21, [], 1, .f⟩, -- HighestSubindex
  ⟨0x2400, 0x2400, 0x01, 0x01, .u16, .rw, false, .maintainer, 1000, [(200, 3000)], 1, .p⟩, -- EnergyLimit
  ⟨0x2400, 0x2400, 0x02, 0x02, .u16, .rw, false, .maintainer, 500, [(100, 2000)], 1, .p⟩, -- ChargeCurrent
  ⟨0x2400, 0x2400, 0x03, 0x03, .u16, .rw, false, .maintainer, 14000, [(10000, 16000)], 1, .p⟩, -- ChargeTarget
  ⟨0x2400, 0x2400, 0x04, 0x04, .u16, .rw, false, .maintainer, 600, [(60, 3600)], 1, .p⟩, -- MeasureInterval
  ⟨0x2400, 0x2400, 0x05, 0x05, .u8, .wo, false, .operator, 0, [(1, 1)], 1, .v⟩, -- MeasureRequest
  ⟨0x2400, 0x2400, 0x06, 0x06, .u16, .rw, false, .maintainer, 195, [(50, 400)], 1, .p⟩, -- WarnPower
  ⟨0x2400, 0x2400, 0x07, 0x07, .bool, .rw, false, .maintainer, 1, [(0, 1)], 1, .p⟩, -- ReserveEnable
  ⟨0x2400, 0x2400, 0x08, 0x08, .u8, .ro, false, .observer, 1, [], 1, .v⟩, -- ReserveStatus
  ⟨0x2400, 0x2400, 0x09, 0x09, .u16, .ro, false, .observer, 0, [], 1, .v⟩, -- ReserveVoltage
  ⟨0x2400, 0x2400, 0x0A, 0x0A, .u32, .ro, false, .observer, 0, [], 1, .v⟩, -- Capacitance
  ⟨0x2400, 0x2400, 0x0B, 0x0B, .u16, .ro, false, .observer, 0, [], 1, .v⟩, -- Esr
  ⟨0x2400, 0x2400, 0x0C, 0x0C, .u16, .ro, false, .observer, 0, [], 1, .v⟩, -- StoredEnergy
  ⟨0x2400, 0x2400, 0x0D, 0x0D, .u16, .ro, false, .observer, 7000, [], 1, .v⟩, -- FloorVoltage
  ⟨0x2400, 0x2400, 0x0E, 0x0E, .u32, .ro, false, .observer, 85000, [], 1, .v⟩, -- FlushEnergyPerTile
  ⟨0x2400, 0x2400, 0x0F, 0x0F, .u32, .ro, false, .observer, 0, [], 1, .v⟩, -- BudgetTiles
  ⟨0x2400, 0x2400, 0x10, 0x10, .u32, .ro, false, .observer, 0, [], 1, .v⟩, -- DeviceShare
  ⟨0x2400, 0x2400, 0x11, 0x11, .u32, .ro, false, .observer, 0, [], 1, .v⟩, -- DeviceCharge
  ⟨0x2400, 0x2400, 0x12, 0x12, .bool, .ro, false, .observer, 1, [], 1, .v⟩, -- WriteThrough
  ⟨0x2400, 0x2400, 0x13, 0x13, .u64, .ro, false, .observer, 0, [], 1, .v⟩, -- LastMeasureTime
  ⟨0x2400, 0x2400, 0x14, 0x14, .u32, .ro, false, .observer, 0, [], 1, .v⟩, -- MeasurementsMade
  ⟨0x2400, 0x2400, 0x15, 0x15, .i8, .ro, false, .observer, 40, [], 1, .v⟩, -- BudgetTemperature
  ⟨0x2410, 0x2410, 0x00, 0x00, .u8, .const, false, .observer, 4, [], 1, .f⟩, -- HighestSubindex
  ⟨0x2410, 0x2410, 0x01, 0x04, .u8, .rw, true, .maintainer, 25, [(0, 100)], 1, .p⟩, -- PortShareWeight
  ⟨0x2411, 0x2411, 0x00, 0x00, .u8, .const, false, .observer, 4, [], 1, .f⟩, -- HighestSubindex
  ⟨0x2411, 0x2411, 0x01, 0x04, .u32, .ro, false, .observer, 0, [], 1, .v⟩, -- PortShareSize
  ⟨0x2412, 0x2412, 0x00, 0x00, .u8, .const, false, .observer, 4, [], 1, .f⟩, -- HighestSubindex
  ⟨0x2412, 0x2412, 0x01, 0x04, .u32, .ro, false, .observer, 0, [], 1, .v⟩, -- PortCharge
  ⟨0x2413, 0x2413, 0x00, 0x00, .u8, .const, false, .observer, 4, [], 1, .f⟩, -- HighestSubindex
  ⟨0x2413, 0x2413, 0x01, 0x04, .u64, .ro, false, .observer, 0, [], 1, .v⟩] -- PortWritesHeld

/-- Object rows of block 0x25 (spec/06_palette.md). -/
def objects25a : List ObjRow := [
  ⟨0x2500, 0x2500, 0x00, 0x00, .u8, .const, false, .observer, 9, [], 1, .f⟩, -- HighestSubindex
  ⟨0x2500, 0x2500, 0x01, 0x01, .u32, .const, false, .observer, 131072, [], 1, .f⟩, -- LineCapacity
  ⟨0x2500, 0x2500, 0x02, 0x02, .u8, .rw, false, .maintainer, 10, [(2, 100)], 1, .p⟩, -- WritebackInterval
  ⟨0x2500, 0x2500, 0x03, 0x03, .u32, .rw, false, .maintainer, 32768, [(1024, 65536)], 1, .p⟩, -- DirtyLimit
  ⟨0x2500, 0x2500, 0x04, 0x04, .u8, .wo, false, .operator, 0, [(1, 1)], 1, .v⟩, -- StatisticsClear
  ⟨0x2500, 0x2500, 0x05, 0x05, .u32, .ro, false, .observer, 0, [], 1, .v⟩, -- DirtyLines
  ⟨0x2500, 0x2500, 0x06, 0x06, .u8, .ro, false, .observer, 0, [], 1, .v⟩, -- MissRegistersInUse
  ⟨0x2500, 0x2500, 0x07, 0x07, .u16, .ro, false, .observer, 0, [], 1, .v⟩, -- PoisonListEntries
  ⟨0x2500, 0x2500, 0x08, 0x08, .bool, .ro, false, .observer, 0, [], 1, .v⟩, -- PoisonListOverflow
  ⟨0x2500, 0x2500, 0x09, 0x09, .u8, .ro, false, .observer, 0, [], 1, .v⟩, -- SpanFencesInUse
  ⟨0x2501, 0x2501, 0x00, 0x00, .u8, .const, false, .observer, 7, [], 1, .f⟩, -- HighestSubindex
  ⟨0x2501, 0x2501, 0x01, 0x07, .u8, .rw, true, .maintainer, 0, [(1, 255)], 1, .p⟩, -- ClassWayMask
  ⟨0x2502, 0x2502, 0x00, 0x00, .u8, .const, false, .observer, 7, [], 1, .f⟩, -- HighestSubindex
  ⟨0x2502, 0x2502, 0x01, 0x07, .u8, .rw, true, .maintainer, 0, [(0, 255)], 1, .p⟩, -- ClassLockMask
  ⟨0x2503, 0x2503, 0x00, 0x00, .u8, .const, false, .observer, 8, [], 1, .f⟩, -- HighestSubindex
  ⟨0x2503, 0x2503, 0x01, 0x08, .u8, .rw, false, .maintainer, 0, [(0, 1)], 1, .p⟩, -- SubtreePolicy
  ⟨0x2510, 0x2510, 0x00, 0x00, .u8, .const, false, .observer, 12, [], 1, .f⟩, -- HighestSubindex
  ⟨0x2510, 0x2510, 0x01, 0x01, .u64, .ro, false, .observer, 0, [], 1, .v⟩, -- Lookups
  ⟨0x2510, 0x2510, 0x02, 0x02, .u64, .ro, false, .observer, 0, [], 1, .v⟩, -- Hits
  ⟨0x2510, 0x2510, 0x03, 0x03, .u64, .ro, false, .observer, 0, [], 1, .v⟩, -- SecondaryMerges
  ⟨0x2510, 0x2510, 0x04, 0x04, .u64, .ro, false, .observer, 0, [], 1, .v⟩, -- MissRegisterWaits
  ⟨0x2510, 0x2510, 0x05, 0x05, .u64, .ro, false, .observer, 0, [], 1, .v⟩, -- Writebacks
  ⟨0x2510, 0x2510, 0x06, 0x06, .u64, .ro, false, .observer, 0, [], 1, .v⟩, -- WritesHeldDirtyLimit
  ⟨0x2510, 0x2510, 0x07, 0x07, .u64, .ro, false, .observer, 0, [], 1, .v⟩, -- CleanParityRefetches
  ⟨0x2510, 0x2510, 0x08, 0x08, .u64, .ro, false, .observer, 0, [], 1, .v⟩, -- MirrorRepairs
  ⟨0x2510, 0x2510, 0x09, 0x09, .u32, .ro, false, .observer, 0, [], 1, .v⟩, -- LinesLostBothCopies
  ⟨0x2510, 0x2510, 0x0A, 0x0A, .u64, .ro, false, .observer, 0, [], 1, .v⟩, -- FillsInstalledInvalid
  ⟨0x2510, 0x2510, 0x0B, 0x0B, .u32, .ro, false, .observer, 0, [], 1, .v⟩, -- RangeInvalidations
  ⟨0x2510, 0x2510, 0x0C, 0x0C, .u32, .ro, false, .observer, 0, [], 1, .v⟩] -- PoisonBucketsCleared

/-- Object rows of block 0x26 (spec/07_transaction_paths.md). -/
def objects26a : List ObjRow := [
  ⟨0x2600, 0x2600, 0x00, 0x00, .u8, .const, false, .observer, 9, [], 1, .f⟩, -- HighestSubindex
  ⟨0x2600, 0x2600, 0x01, 0x01, .u16, .rw, false, .operator, 1000, [(100, 5000)], 1, .p⟩, -- ReadThreshold
  ⟨0x2600, 0x2600, 0x02, 0x02, .u16, .rw, false, .operator, 1500, [(100, 5000)], 1, .p⟩, -- SealedReadThreshold
  ⟨0x2600, 0x2600, 0x03, 0x03, .u16, .rw, false, .operator, 300, [(100, 5000)], 1, .p⟩, -- WriteThreshold
  ⟨0x2600, 0x2600, 0x04, 0x04, .u16, .rw, false, .operator, 2500, [(100, 10000)], 1, .p⟩, -- WriteThroughThreshold
  ⟨0x2600, 0x2600, 0x05, 0x05, .u8, .wo, false, .operator, 0, [(1, 1)], 1, .v⟩, -- MonitorClear
  ⟨0x2600, 0x2600, 0x06, 0x06, .u64, .ro, false, .observer, 0, [], 1, .v⟩, -- RequestsNotWarm
  ⟨0x2600, 0x2600, 0x07, 0x07, .u64, .ro, false, .observer, 0, [], 1, .v⟩, -- BackInvalidateLate
  ⟨0x2600, 0x2600, 0x08, 0x08, .u64, .ro, false, .observer, 0, [], 1, .v⟩, -- SpareProgramAcks
  ⟨0x2600, 0x2600, 0x09, 0x09, .u64, .ro, false, .observer, 0, [], 1, .v⟩, -- BypassReads
  ⟨0x2610, 0x2613, 0x00, 0x00, .u8, .const, false, .observer, 12, [], 1, .f⟩, -- HighestSubindex
  ⟨0x2610, 0x2613, 0x01, 0x01, .u64, .ro, false, .observer, 0, [], 1, .v⟩, -- Reads
  ⟨0x2610, 0x2613, 0x02, 0x02, .u64, .ro, false, .observer, 0, [], 1, .v⟩, -- ReadLatencySum
  ⟨0x2610, 0x2613, 0x03, 0x03, .u32, .ro, false, .observer, 0, [], 1, .v⟩, -- ReadLatencyMax
  ⟨0x2610, 0x2613, 0x04, 0x04, .u32, .ro, false, .observer, 0, [], 1, .v⟩, -- SealedReadLatencyMax
  ⟨0x2610, 0x2613, 0x05, 0x05, .u64, .ro, false, .observer, 0, [], 1, .v⟩, -- ReadsOverThreshold
  ⟨0x2610, 0x2613, 0x06, 0x06, .u64, .ro, false, .observer, 0, [], 1, .v⟩, -- Writes
  ⟨0x2610, 0x2613, 0x07, 0x07, .u32, .ro, false, .observer, 0, [], 1, .v⟩, -- WriteAckMax
  ⟨0x2610, 0x2613, 0x08, 0x08, .u64, .ro, false, .observer, 0, [], 1, .v⟩, -- WritesOverThreshold
  ⟨0x2610, 0x2613, 0x09, 0x09, .u64, .ro, false, .observer, 0, [], 1, .v⟩, -- WriteThroughAcks
  ⟨0x2610, 0x2613, 0x0A, 0x0A, .u32, .ro, false, .observer, 0, [], 1, .v⟩, -- WriteThroughAckMax
  ⟨0x2610, 0x2613, 0x0B, 0x0B, .u64, .ro, false, .observer, 0, [], 1, .v⟩, -- WriteThroughOverThreshold
  ⟨0x2610, 0x2613, 0x0C, 0x0C, .u64, .ro, false, .observer, 0, [], 1, .v⟩, -- PoisonReturned
  ⟨0x2620, 0x2620, 0x00, 0x00, .u8, .const, false, .observer, 16, [], 1, .f⟩, -- HighestSubindex
  ⟨0x2620, 0x2620, 0x01, 0x10, .u64, .ro, false, .observer, 0, [], 1, .v⟩, -- ReadLatencyBin
  ⟨0x2621, 0x2623, 0x00, 0x00, .u8, .const, false, .observer, 16, [], 1, .f⟩, -- HighestSubindex
  ⟨0x2621, 0x2623, 0x01, 0x10, .u64, .ro, false, .observer, 0, [], 1, .v⟩] -- per port, as [2620]

/-- Object rows of block 0x27 (spec/08_encryption_and_glaze.md). -/
def objects27a : List ObjRow := [
  ⟨0x2700, 0x2700, 0x00, 0x00, .u8, .const, false, .observer, 11, [], 1, .f⟩, -- HighestSubindex
  ⟨0x2700, 0x2700, 0x01, 0x01, .bool, .ro, false, .observer, 1, [], 1, .v⟩, -- EphemeralKeyActive
  ⟨0x2700, 0x2700, 0x02, 0x02, .u16, .ro, false, .observer, 0, [], 1, .v⟩, -- SealedTotal
  ⟨0x2700, 0x2700, 0x03, 0x03, .u8, .ro, false, .observer, 0, [], 1, .v⟩, -- FreshnessNotAssured
  ⟨0x2700, 0x2700, 0x04, 0x04, .u8, .ro, false, .observer, 0, [], 1, .v⟩, -- KeyStoreCopies
  ⟨0x2700, 0x2700, 0x05, 0x05, .bool, .ro, false, .observer, 0, [], 1, .v⟩, -- InstallationKeySet
  ⟨0x2700, 0x2700, 0x06, 0x06, .u64, .ro, false, .observer, 0, [], 1, .v⟩, -- RootMajor
  ⟨0x2700, 0x2700, 0x07, 0x07, .u64, .ro, false, .observer, 0, [], 1, .v⟩, -- MacFailures
  ⟨0x2700, 0x2700, 0x08, 0x08, .u64, .ro, false, .observer, 0, [], 1, .v⟩, -- FreshnessFailures
  ⟨0x2700, 0x2700, 0x09, 0x09, .u64, .ro, false, .observer, 0, [], 1, .v⟩, -- PageReencryptions
  ⟨0x2700, 0x2700, 0x0A, 0x0A, .u64, .ro, false, .observer, 0, [], 1, .v⟩, -- NodeOverflows
  ⟨0x2700, 0x2700, 0x0B, 0x0B, .u8, .wo, false, .operator, 0, [(1, 1)], 1, .v⟩, -- StatisticsClear
  ⟨0x2710, 0x2717, 0x00, 0x00, .u8, .const, false, .observer, 8, [], 1, .f⟩, -- HighestSubindex
  ⟨0x2710, 0x2710, 0x01, 0x01, .u32, .ro, false, .observer, 0, [], 1, .v⟩, -- RangeBase
  ⟨0x2710, 0x2710, 0x02, 0x02, .u32, .ro, false, .observer, 0, [], 1, .v⟩, -- RangeSize
  ⟨0x2710, 0x2717, 0x03, 0x03, .bool, .rw, true, .maintainer, 0, [(0, 1)], 1, .p⟩, -- Sealed
  ⟨0x2710, 0x2717, 0x04, 0x04, .u8, .rw, true, .maintainer, 0, [(0, 255)], 1, .p⟩, -- SealedBase
  ⟨0x2710, 0x2717, 0x05, 0x05, .u8, .ro, false, .observer, 0, [], 1, .v⟩, -- RangeState
  ⟨0x2710, 0x2717, 0x06, 0x06, .u8, .wo, false, .maintainer, 0, [(1, 3)], 1, .v⟩, -- RangeCommand
  ⟨0x2710, 0x2717, 0x07, 0x07, .u8, .ro, false, .observer, 255, [], 1, .v⟩, -- KeySource
  ⟨0x2710, 0x2717, 0x08, 0x08, .u32, .ro, false, .observer, 0, [], 1, .v⟩, -- KeyGeneration
  ⟨0x2711, 0x2717, 0x01, 0x01, .u32, .rw, true, .maintainer, 0, [(0, 65535)], 1, .p⟩, -- RangeBase
  ⟨0x2711, 0x2717, 0x02, 0x02, .u32, .rw, true, .maintainer, 0, [(0, 65536)], 1, .p⟩, -- RangeSize
  ⟨0x2720, 0x2720, 0x00, 0x00, .u8, .const, false, .observer, 6, [], 1, .f⟩, -- HighestSubindex
  ⟨0x2720, 0x2720, 0x01, 0x01, (.octets 32 32), .wo, false, .maintainer, 0, [], 1, .v⟩, -- InstallationKey
  ⟨0x2720, 0x2720, 0x02, 0x02, (.octets 40 40), .wo, false, .maintainer, 0, [], 1, .v⟩, -- InstallationKeyRewrap
  ⟨0x2720, 0x2720, 0x03, 0x03, .u8, .rw, true, .maintainer, 0, [(0, 7)], 1, .v⟩, -- KeyTargetRange
  ⟨0x2720, 0x2720, 0x04, 0x04, (.octets 104 104), .wo, true, .maintainer, 0, [], 1, .v⟩, -- WrappedRangeKey
  ⟨0x2720, 0x2720, 0x05, 0x05, .u8, .ro, false, .observer, 0, [], 1, .v⟩, -- NextKeyLoaded
  ⟨0x2720, 0x2720, 0x06, 0x06, .u8, .wo, false, .maintainer, 0, [(0, 7)], 1, .v⟩, -- DiscardNextKey
  ⟨0x2780, 0x2780, 0x00, 0x00, .u8, .const, false, .observer, 11, [], 1, .f⟩, -- HighestSubindex
  ⟨0x2780, 0x2780, 0x01, 0x01, .u8, .rw, false, .maintainer, 0, [(0, 7)], 1, .v⟩, -- GlazeRange
  ⟨0x2780, 0x2780, 0x02, 0x02, .u8, .wo, false, .maintainer, 0, [(1, 3)], 1, .v⟩, -- GlazeCommand
  ⟨0x2780, 0x2780, 0x03, 0x03, .u16, .rw, false, .maintainer, 1000, [(10, 8000)], 1, .p⟩, -- GlazeRate
  ⟨0x2780, 0x2780, 0x04, 0x04, .u8, .ro, false, .observer, 0, [], 1, .v⟩, -- GlazeState
  ⟨0x2780, 0x2780, 0x05, 0x05, .u64, .ro, false, .observer, 0, [], 1, .v⟩, -- GlazeBoundary
  ⟨0x2780, 0x2780, 0x06, 0x06, .u64, .ro, false, .observer, 0, [], 1, .v⟩, -- GlazeLinesRemaining
  ⟨0x2780, 0x2780, 0x07, 0x07, .u64, .ro, false, .observer, 0, [], 1, .v⟩, -- LinesGlazed
  ⟨0x2780, 0x2780, 0x08, 0x08, .u64, .ro, false, .observer, 0, [], 1, .v⟩, -- LinesSkippedDirty
  ⟨0x2780, 0x2780, 0x09, 0x09, .u64, .ro, false, .observer, 0, [], 1, .v⟩] -- BoundaryBufferReads

/-- Object rows of block 0x27 (spec/08_encryption_and_glaze.md). -/
def objects27b : List ObjRow := [
  ⟨0x2780, 0x2780, 0x0A, 0x0A, .u32, .ro, false, .observer, 0, [], 1, .v⟩, -- OperationsCompleted
  ⟨0x2780, 0x2780, 0x0B, 0x0B, .u8, .wo, false, .operator, 0, [(1, 1)], 1, .v⟩] -- StatisticsClear

/-- Object rows of block 0x28 (spec/09_drift_and_retouch.md). -/
def objects28a : List ObjRow := [
  ⟨0x2800, 0x2800, 0x00, 0x00, .u8, .const, false, .observer, 11, [], 1, .f⟩, -- HighestSubindex
  ⟨0x2800, 0x2800, 0x01, 0x01, .u32, .ro, false, .observer, 0, [], 1, .v⟩, -- DeviceEpochCount
  ⟨0x2800, 0x2800, 0x02, 0x02, .u16, .const, false, .observer, 14400, [], 1, .f⟩, -- EpochPeriod
  ⟨0x2800, 0x2800, 0x03, 0x03, .u8, .rw, false, .maintainer, 2, [(1, 8)], 1, .p⟩, -- RetryStep
  ⟨0x2800, 0x2800, 0x04, 0x04, .u8, .rw, false, .maintainer, 8, [(1, 64)], 1, .p⟩, -- WindowErrorThreshold
  ⟨0x2800, 0x2800, 0x05, 0x05, .u8, .rw, false, .maintainer, 4, [(2, 16)], 1, .p⟩, -- OffsetAlarm
  ⟨0x2800, 0x2800, 0x06, 0x06, .u8, .rw, false, .maintainer, 100, [(25, 100)], 1, .p⟩, -- SweepScale
  ⟨0x2800, 0x2800, 0x07, 0x07, .u16, .rw, false, .maintainer, 2000, [(500, 8000)], 1, .p⟩, -- UrgentRate
  ⟨0x2800, 0x2800, 0x08, 0x08, .u32, .ro, false, .observer, 0, [], 1, .v⟩, -- OffTime
  ⟨0x2800, 0x2800, 0x09, 0x09, .u8, .ro, false, .observer, 0, [], 1, .v⟩, -- OffTimeSource
  ⟨0x2800, 0x2800, 0x0A, 0x0A, .u32, .ro, false, .observer, 0, [], 1, .v⟩, -- StaleRegionsRemaining
  ⟨0x2800, 0x2800, 0x0B, 0x0B, .u8, .wo, false, .operator, 0, [(1, 1)], 1, .v⟩, -- StatisticsClear
  ⟨0x2810, 0x2817, 0x00, 0x00, .u8, .const, false, .observer, 12, [], 1, .f⟩, -- HighestSubindex
  ⟨0x2810, 0x2817, 0x01, 0x01, .i8, .ro, false, .observer, 0, [], 1, .v⟩, -- StackTemperature
  ⟨0x2810, 0x2817, 0x02, 0x02, .u8, .ro, false, .observer, 0, [], 1, .v⟩, -- AgeLimit
  ⟨0x2810, 0x2817, 0x03, 0x03, .u8, .ro, false, .observer, 0, [], 1, .v⟩, -- SweepPeriod
  ⟨0x2810, 0x2817, 0x04, 0x04, .u8, .ro, false, .observer, 0, [], 1, .v⟩, -- OldestVisitAge
  ⟨0x2810, 0x2817, 0x05, 0x05, .u16, .ro, false, .observer, 0, [], 1, .v⟩, -- UrgentRegions
  ⟨0x2810, 0x2817, 0x06, 0x06, .u32, .ro, false, .observer, 0, [], 1, .v⟩, -- RegionPasses
  ⟨0x2810, 0x2817, 0x07, 0x07, .u64, .ro, false, .observer, 0, [], 1, .v⟩, -- TilesRewritten
  ⟨0x2810, 0x2817, 0x08, 0x08, .u64, .ro, false, .observer, 0, [], 1, .v⟩, -- TilesSkipped
  ⟨0x2810, 0x2817, 0x09, 0x09, .u64, .ro, false, .observer, 0, [], 1, .v⟩, -- SwatchMeasurements
  ⟨0x2810, 0x2817, 0x0A, 0x0A, .u32, .ro, false, .observer, 0, [], 1, .v⟩, -- RegionsWithoutWindow
  ⟨0x2810, 0x2817, 0x0B, 0x0B, .u8, .ro, false, .observer, 0, [], 1, .v⟩, -- MeanCentre
  ⟨0x2810, 0x2817, 0x0C, 0x0C, .u32, .ro, false, .observer, 0, [], 1, .v⟩, -- DeadlinesMissed
  ⟨0x2820, 0x2820, 0x00, 0x00, .u8, .const, false, .observer, 25, [], 1, .f⟩, -- HighestSubindex
  ⟨0x2820, 0x2820, 0x01, 0x08, .u8, .ro, false, .observer, 0, [], 1, .f⟩, -- BucketBaseCode
  ⟨0x2820, 0x2820, 0x09, 0x09, .u8, .ro, false, .observer, 0, [], 1, .f⟩, -- TemperatureStep
  ⟨0x2820, 0x2820, 0x0A, 0x19, .u8, .ro, false, .observer, 0, [], 1, .f⟩, -- ExtendedCurveCode
  ⟨0x2830, 0x2830, 0x00, 0x00, .u8, .const, false, .observer, 3, [], 1, .f⟩, -- HighestSubindex
  ⟨0x2830, 0x2830, 0x01, 0x01, .u8, .rw, false, .operator, 0, [(0, 7)], 1, .v⟩, -- InspectGroup
  ⟨0x2830, 0x2830, 0x02, 0x02, .u16, .rw, false, .operator, 0, [], 1, .v⟩, -- InspectPhysicalRegion
  ⟨0x2830, 0x2830, 0x03, 0x03, (.octets 4 4), .ro, false, .observer, 0, [], 1, .v⟩] -- InspectDriftEntry

/-- Object rows of block 0x29 (spec/10_jetre_channel_interface.md). -/
def objects29a : List ObjRow := [
  ⟨0x2900, 0x2900, 0x00, 0x00, .u8, .const, false, .observer, 11, [], 1, .f⟩, -- HighestSubindex
  ⟨0x2900, 0x2900, 0x01, 0x01, .u8, .rw, false, .maintainer, 0, [(0, 1)], 1, .p⟩, -- TrainingPolicy
  ⟨0x2900, 0x2900, 0x02, 0x02, .u16, .ro, false, .observer, 0, [], 1, .v⟩, -- LastTrainingTime
  ⟨0x2900, 0x2900, 0x03, 0x03, .u64, .ro, false, .observer, 0, [], 1, .v⟩, -- StoredResultsUsed
  ⟨0x2900, 0x2900, 0x04, 0x04, .u8, .rw, false, .maintainer, 3, [(0, 3)], 1, .p⟩, -- ProgramRetryLimit
  ⟨0x2900, 0x2900, 0x05, 0x05, .u16, .rw, false, .maintainer, 1024, [(16, 65535)], 1, .p⟩, -- ChannelErrorLimit
  ⟨0x2900, 0x2900, 0x06, 0x06, .u16, .rw, false, .maintainer, 1000, [(100, 10000)], 1, .p⟩, -- ZqInterval
  ⟨0x2900, 0x2900, 0x07, 0x07, .i8, .rw, false, .maintainer, 95, [(60, 120)], 1, .p⟩, -- ThermalAlertThreshold
  ⟨0x2900, 0x2900, 0x08, 0x08, .u8, .wo, false, .maintainer, 0, [(0, 63)], 1, .v⟩, -- MarkChannelFailed
  ⟨0x2900, 0x2900, 0x09, 0x09, .u8, .wo, false, .maintainer, 0, [(0, 63)], 1, .v⟩, -- ReturnChannel
  ⟨0x2900, 0x2900, 0x0A, 0x0A, .u64, .ro, false, .observer, 0, [], 1, .v⟩, -- FailedChannels
  ⟨0x2900, 0x2900, 0x0B, 0x0B, .u8, .wo, false, .operator, 0, [(1, 1)], 1, .v⟩, -- StatisticsClear
  ⟨0x2910, 0x2910, 0x00, 0x00, .u8, .const, false, .observer, 64, [], 1, .f⟩, -- HighestSubindex
  ⟨0x2910, 0x2910, 0x01, 0x40, .u8, .ro, false, .observer, 0, [], 1, .v⟩, -- ChannelState
  ⟨0x2911, 0x2911, 0x00, 0x00, .u8, .const, false, .observer, 64, [], 1, .f⟩, -- HighestSubindex
  ⟨0x2911, 0x2911, 0x01, 0x40, .u8, .ro, false, .observer, 255, [], 1, .v⟩, -- StackType
  ⟨0x2912, 0x2912, 0x00, 0x00, .u8, .const, false, .observer, 64, [], 1, .f⟩, -- HighestSubindex
  ⟨0x2912, 0x2912, 0x01, 0x40, .u32, .ro, false, .observer, 0, [], 1, .v⟩, -- StackSerial
  ⟨0x2913, 0x2913, 0x00, 0x00, .u8, .const, false, .observer, 64, [], 1, .f⟩, -- HighestSubindex
  ⟨0x2913, 0x2913, 0x01, 0x40, .i8, .ro, false, .observer, 0, [], 1, .v⟩, -- StackTemperature
  ⟨0x2914, 0x2914, 0x00, 0x00, .u8, .const, false, .observer, 64, [], 1, .f⟩, -- HighestSubindex
  ⟨0x2914, 0x2914, 0x01, 0x40, .u8, .ro, false, .observer, 0, [], 1, .v⟩, -- FailCause
  ⟨0x2915, 0x2915, 0x00, 0x00, .u8, .const, false, .observer, 64, [], 1, .f⟩, -- HighestSubindex
  ⟨0x2915, 0x2915, 0x01, 0x40, .u64, .ro, false, .observer, 0, [], 1, .v⟩, -- ReadsIssued
  ⟨0x2916, 0x2916, 0x00, 0x00, .u8, .const, false, .observer, 64, [], 1, .f⟩, -- HighestSubindex
  ⟨0x2916, 0x2916, 0x01, 0x40, .u64, .ro, false, .observer, 0, [], 1, .v⟩, -- ProgramsIssued
  ⟨0x2917, 0x2917, 0x00, 0x00, .u8, .const, false, .observer, 64, [], 1, .f⟩, -- HighestSubindex
  ⟨0x2917, 0x2917, 0x01, 0x40, .u32, .ro, false, .observer, 0, [], 1, .v⟩, -- ProgramFailures
  ⟨0x2918, 0x2918, 0x00, 0x00, .u8, .const, false, .observer, 64, [], 1, .f⟩, -- HighestSubindex
  ⟨0x2918, 0x2918, 0x01, 0x40, .u32, .ro, false, .observer, 0, [], 1, .v⟩, -- ReadErrorEvents
  ⟨0x2919, 0x2919, 0x00, 0x00, .u8, .const, false, .observer, 64, [], 1, .f⟩, -- HighestSubindex
  ⟨0x2919, 0x2919, 0x01, 0x40, .u32, .ro, false, .observer, 0, [], 1, .v⟩, -- FrameErrors
  ⟨0x291A, 0x291A, 0x00, 0x00, .u8, .const, false, .observer, 64, [], 1, .f⟩, -- HighestSubindex
  ⟨0x291A, 0x291A, 0x01, 0x40, .u32, .ro, false, .observer, 0, [], 1, .v⟩, -- WriteCrcErrors
  ⟨0x291B, 0x291B, 0x00, 0x00, .u8, .const, false, .observer, 64, [], 1, .f⟩, -- HighestSubindex
  ⟨0x291B, 0x291B, 0x01, 0x40, .u64, .ro, false, .observer, 0, [], 1, .v⟩, -- SuspendsIssued
  ⟨0x291C, 0x291C, 0x00, 0x00, .u8, .const, false, .observer, 64, [], 1, .f⟩, -- HighestSubindex
  ⟨0x291C, 0x291C, 0x01, 0x40, (.octets 20 20), .ro, false, .observer, 0, [], 1, .v⟩, -- TrainingSettings
  ⟨0x2920, 0x2920, 0x00, 0x00, .u8, .const, false, .observer, 3, [], 1, .f⟩, -- HighestSubindex
  ⟨0x2920, 0x2920, 0x01, 0x01, .u8, .rw, false, .operator, 0, [(0, 63)], 1, .v⟩] -- MrChannel

/-- Object rows of block 0x29 (spec/10_jetre_channel_interface.md). -/
def objects29b : List ObjRow := [
  ⟨0x2920, 0x2920, 0x02, 0x02, .u8, .rw, false, .operator, 0, [(0, 14)], 1, .v⟩, -- MrAddress
  ⟨0x2920, 0x2920, 0x03, 0x03, .u16, .ro, false, .observer, 0, [], 1, .v⟩] -- MrValue

/-- Object rows of block 0x2A (spec/11_group_arbiter.md). -/
def objects2Aa : List ObjRow := [
  ⟨0x2A00, 0x2A00, 0x00, 0x00, .u8, .const, false, .observer, 2, [], 1, .f⟩, -- HighestSubindex
  ⟨0x2A00, 0x2A00, 0x01, 0x01, .u8, .const, false, .observer, 64, [], 1, .f⟩, -- LockSlotLimit
  ⟨0x2A00, 0x2A00, 0x02, 0x02, .u8, .wo, false, .operator, 0, [(1, 1)], 1, .v⟩, -- StatisticsClear
  ⟨0x2A01, 0x2A01, 0x00, 0x00, .u8, .const, false, .observer, 9, [], 1, .f⟩, -- HighestSubindex
  ⟨0x2A01, 0x2A01, 0x01, 0x01, .u8, .const, false, .observer, 0, [], 1, .f⟩, -- RequesterRank, FGR
  ⟨0x2A01, 0x2A01, 0x02, 0x09, .u8, .rw, true, .maintainer, 0, [(1, 7)], 1, .p⟩, -- RequesterRank
  ⟨0x2A02, 0x2A02, 0x00, 0x00, .u8, .const, false, .observer, 9, [], 1, .f⟩, -- HighestSubindex
  ⟨0x2A02, 0x2A02, 0x01, 0x09, .u8, .ro, false, .observer, 0, [], 1, .v⟩, -- ActiveRank
  ⟨0x2A10, 0x2A17, 0x00, 0x00, .u8, .const, false, .observer, 18, [], 1, .f⟩, -- HighestSubindex
  ⟨0x2A10, 0x2A17, 0x01, 0x09, .u64, .ro, false, .observer, 0, [], 1, .v⟩, -- Grants
  ⟨0x2A10, 0x2A17, 0x0A, 0x0A, .u64, .ro, false, .observer, 0, [], 1, .v⟩, -- LockedSequences
  ⟨0x2A10, 0x2A17, 0x0B, 0x0B, .u64, .ro, false, .observer, 0, [], 1, .v⟩, -- LockedSlots
  ⟨0x2A10, 0x2A17, 0x0C, 0x0C, .u8, .ro, false, .observer, 0, [], 1, .v⟩, -- LongestLock
  ⟨0x2A10, 0x2A17, 0x0D, 0x0D, .u64, .ro, false, .observer, 0, [], 1, .v⟩, -- DeadSlots
  ⟨0x2A10, 0x2A17, 0x0E, 0x0E, .u64, .ro, false, .observer, 0, [], 1, .v⟩, -- IdleSlots
  ⟨0x2A10, 0x2A17, 0x0F, 0x0F, .u64, .ro, false, .observer, 0, [], 1, .v⟩, -- DeferredFrames
  ⟨0x2A10, 0x2A17, 0x10, 0x10, .u64, .ro, false, .observer, 0, [], 1, .v⟩, -- ResumesDelayedByLock
  ⟨0x2A10, 0x2A17, 0x11, 0x11, .u32, .ro, false, .observer, 0, [], 1, .v⟩, -- LockOverruns
  ⟨0x2A10, 0x2A17, 0x12, 0x12, .u8, .ro, false, .observer, 0, [], 1, .v⟩] -- RotatingPointer

/-- Object rows of block 0x2B (spec/12_cxl_host_ports.md). -/
def objects2Ba : List ObjRow := [
  ⟨0x2B00, 0x2B00, 0x00, 0x00, .u8, .const, false, .observer, 7, [], 1, .f⟩, -- HighestSubindex
  ⟨0x2B00, 0x2B00, 0x01, 0x01, .u16, .rw, false, .maintainer, 100, [(10, 10000)], 1, .p⟩, -- SnoopTimeout
  ⟨0x2B00, 0x2B00, 0x02, 0x02, .bool, .rw, false, .maintainer, 0, [(0, 1)], 1, .p⟩, -- PoisonInjectEnable
  ⟨0x2B00, 0x2B00, 0x03, 0x03, .u8, .rw, false, .maintainer, 2, [(1, 4)], 1, .p⟩, -- DirectoryReserveWays
  ⟨0x2B00, 0x2B00, 0x04, 0x04, .u8, .rw, false, .maintainer, 50, [(10, 90)], 1, .p⟩, -- DevLoadBusThreshold
  ⟨0x2B00, 0x2B00, 0x05, 0x05, .u32, .ro, false, .observer, 0, [], 1, .v⟩, -- DirtyShutdownCount
  ⟨0x2B00, 0x2B00, 0x06, 0x06, .u32, .ro, false, .observer, 0, [], 1, .v⟩, -- GpfPhase2Requests
  ⟨0x2B00, 0x2B00, 0x07, 0x07, .u8, .wo, false, .operator, 0, [(1, 1)], 1, .v⟩, -- StatisticsClear
  ⟨0x2B10, 0x2B13, 0x00, 0x00, .u8, .const, false, .observer, 16, [], 1, .f⟩, -- HighestSubindex
  ⟨0x2B10, 0x2B13, 0x01, 0x01, .bool, .rw, false, .maintainer, 1, [(0, 1)], 1, .p⟩, -- PortEnable
  ⟨0x2B10, 0x2B13, 0x02, 0x02, .u8, .rw, false, .maintainer, 4, [(0, 4)], 1, .p⟩, -- MaxLinkRate
  ⟨0x2B10, 0x2B13, 0x03, 0x03, .u8, .rw, false, .maintainer, 8, [(1, 2), (4, 4), (8, 8)], 1, .p⟩, -- MaxLinkWidth
  ⟨0x2B10, 0x2B13, 0x04, 0x04, .u8, .rw, false, .operator, 3, [(0, 3)], 1, .p⟩, -- LowPowerAllowed
  ⟨0x2B10, 0x2B13, 0x05, 0x05, .u8, .ro, false, .observer, 0, [], 1, .v⟩, -- LinkState
  ⟨0x2B10, 0x2B13, 0x06, 0x06, .u8, .ro, false, .observer, 255, [], 1, .v⟩, -- LinkRate
  ⟨0x2B10, 0x2B13, 0x07, 0x07, .u8, .ro, false, .observer, 0, [], 1, .v⟩, -- LinkWidth
  ⟨0x2B10, 0x2B13, 0x08, 0x08, .u8, .ro, false, .observer, 0, [], 1, .v⟩, -- FlitMode
  ⟨0x2B10, 0x2B13, 0x09, 0x09, .u8, .ro, false, .observer, 0, [], 1, .v⟩, -- IdeState
  ⟨0x2B10, 0x2B13, 0x0A, 0x0A, .u8, .ro, false, .observer, 0, [], 1, .v⟩, -- DecodersCommitted
  ⟨0x2B10, 0x2B13, 0x0B, 0x0B, .bool, .ro, false, .observer, 0, [], 1, .v⟩, -- BiEnabled
  ⟨0x2B10, 0x2B13, 0x0C, 0x0C, .bool, .ro, false, .observer, 0, [], 1, .v⟩, -- SharedFenced
  ⟨0x2B10, 0x2B13, 0x0D, 0x0D, .u8, .wo, false, .maintainer, 0, [(1, 1)], 1, .v⟩, -- SharedFenceRelease
  ⟨0x2B10, 0x2B13, 0x0E, 0x0E, .u8, .ro, false, .observer, 0, [], 1, .v⟩, -- HeldWriteEntries
  ⟨0x2B10, 0x2B13, 0x0F, 0x0F, .u8, .ro, false, .observer, 0, [], 1, .v⟩, -- DevLoad
  ⟨0x2B10, 0x2B13, 0x10, 0x10, .u8, .ro, false, .observer, 0, [], 1, .v⟩, -- ShutdownState
  ⟨0x2B20, 0x2B23, 0x00, 0x00, .u8, .const, false, .observer, 14, [], 1, .f⟩, -- HighestSubindex
  ⟨0x2B20, 0x2B23, 0x01, 0x01, .u32, .ro, false, .observer, 0, [], 1, .v⟩, -- LinkDowns
  ⟨0x2B20, 0x2B23, 0x02, 0x02, .u32, .ro, false, .observer, 0, [], 1, .v⟩, -- ReducedTrainings
  ⟨0x2B20, 0x2B23, 0x03, 0x03, .u64, .ro, false, .observer, 0, [], 1, .v⟩, -- SnoopsSent
  ⟨0x2B20, 0x2B23, 0x04, 0x04, .u64, .ro, false, .observer, 0, [], 1, .v⟩, -- SnoopWritebacks
  ⟨0x2B20, 0x2B23, 0x05, 0x05, .u32, .ro, false, .observer, 0, [], 1, .v⟩, -- SnoopTimeouts
  ⟨0x2B20, 0x2B23, 0x06, 0x06, .u64, .ro, false, .observer, 0, [], 1, .v⟩, -- BiConflicts
  ⟨0x2B20, 0x2B23, 0x07, 0x07, .u64, .ro, false, .observer, 0, [], 1, .v⟩, -- NoCacheGrants
  ⟨0x2B20, 0x2B23, 0x08, 0x08, .u32, .ro, false, .observer, 0, [], 1, .v⟩, -- IdeIntegrityFailures
  ⟨0x2B20, 0x2B23, 0x09, 0x09, .u64, .ro, false, .observer, 0, [], 1, .v⟩, -- EventsPosted
  ⟨0x2B20, 0x2B23, 0x0A, 0x0A, .u32, .ro, false, .observer, 0, [], 1, .v⟩, -- EventsDropped
  ⟨0x2B20, 0x2B23, 0x0B, 0x0B, .u64, .ro, false, .observer, 0, [], 1, .v⟩, -- MailboxCommands
  ⟨0x2B20, 0x2B23, 0x0C, 0x0C, .u32, .ro, false, .observer, 0, [], 1, .v⟩, -- DecoderCommitsRefused
  ⟨0x2B20, 0x2B23, 0x0D, 0x0D, .u32, .ro, false, .observer, 0, [], 1, .v⟩, -- PoisonInjected
  ⟨0x2B20, 0x2B23, 0x0E, 0x0E, .u64, .ro, false, .observer, 0, [], 1, .v⟩] -- LowPowerExits

/-- Object rows of block 0x2B (spec/12_cxl_host_ports.md). -/
def objects2Bb : List ObjRow := [
  ⟨0x2B30, 0x2B3F, 0x00, 0x00, .u8, .const, false, .observer, 5, [], 1, .f⟩, -- HighestSubindex
  ⟨0x2B30, 0x2B3F, 0x01, 0x01, .u32, .rw, true, .maintainer, 0, [(0, 65535)], 1, .p⟩, -- WindowBase
  ⟨0x2B30, 0x2B3F, 0x02, 0x02, .u32, .rw, true, .maintainer, 0, [(0, 65536)], 1, .p⟩, -- WindowSize
  ⟨0x2B30, 0x2B3F, 0x03, 0x03, .u8, .rw, true, .maintainer, 0, [(0, 15)], 1, .p⟩, -- WindowPortMask
  ⟨0x2B30, 0x2B3F, 0x04, 0x04, .bool, .rw, true, .maintainer, 0, [(0, 1)], 1, .p⟩, -- WindowShared
  ⟨0x2B30, 0x2B3F, 0x05, 0x05, .u8, .ro, false, .observer, 0, [], 1, .v⟩, -- WindowDecodedBy
  ⟨0x2B40, 0x2B40, 0x00, 0x00, .u8, .const, false, .observer, 7, [], 1, .f⟩, -- HighestSubindex
  ⟨0x2B40, 0x2B40, 0x01, 0x01, .u32, .ro, false, .observer, 0, [], 1, .v⟩, -- EntriesInUse
  ⟨0x2B40, 0x2B40, 0x02, 0x02, .u32, .ro, false, .observer, 0, [], 1, .v⟩, -- EntriesPeak
  ⟨0x2B40, 0x2B40, 0x03, 0x03, .u64, .ro, false, .observer, 0, [], 1, .v⟩, -- Evictions
  ⟨0x2B40, 0x2B40, 0x04, 0x04, .u64, .ro, false, .observer, 0, [], 1, .v⟩, -- EntriesCorrected
  ⟨0x2B40, 0x2B40, 0x05, 0x05, .u32, .ro, false, .observer, 0, [], 1, .v⟩, -- SuspectSets
  ⟨0x2B40, 0x2B40, 0x06, 0x06, .u16, .ro, false, .observer, 0, [], 1, .v⟩, -- SnoopRoundsOutstanding
  ⟨0x2B40, 0x2B40, 0x07, 0x07, .u32, .ro, false, .observer, 0, [], 1, .v⟩] -- PresenceSweeps

/-- Object rows of block 0x2C (spec/13_barrow.md). -/
def objects2Ca : List ObjRow := [
  ⟨0x2C00, 0x2C00, 0x00, 0x00, .u8, .const, false, .observer, 6, [], 1, .f⟩, -- HighestSubindex
  ⟨0x2C00, 0x2C00, 0x01, 0x01, .u8, .const, false, .observer, 16, [], 1, .f⟩, -- ChannelCount
  ⟨0x2C00, 0x2C00, 0x02, 0x02, .u16, .const, false, .observer, 256, [], 1, .f⟩, -- DescriptorCount
  ⟨0x2C00, 0x2C00, 0x03, 0x03, .u8, .ro, false, .observer, 255, [], 1, .v⟩, -- TelemetryChannel
  ⟨0x2C00, 0x2C00, 0x04, 0x04, .u16, .rw, false, .operator, 100, [(10, 10000)], 1, .p⟩, -- FlushInterval
  ⟨0x2C00, 0x2C00, 0x05, 0x05, .u8, .wo, false, .operator, 0, [(1, 1)], 1, .v⟩, -- StatisticsClear
  ⟨0x2C00, 0x2C00, 0x06, 0x06, .u64, .ro, false, .observer, 0, [], 1, .v⟩, -- BeatsMoved
  ⟨0x2C01, 0x2C01, 0x00, 0x00, .u8, .const, false, .observer, 2, [], 1, .f⟩, -- HighestSubindex
  ⟨0x2C01, 0x2C01, 0x01, 0x01, .u8, .rw, false, .operator, 0, [(0, 255)], 1, .v⟩, -- DescriptorSelect
  ⟨0x2C01, 0x2C01, 0x02, 0x02, (.octets 32 32), .rw, false, .operator, 0, [], 1, .v⟩, -- DescriptorData
  ⟨0x2C10, 0x2C1F, 0x00, 0x00, .u8, .const, false, .observer, 18, [], 1, .f⟩, -- HighestSubindex
  ⟨0x2C10, 0x2C1F, 0x01, 0x01, .u8, .rw, false, .maintainer, 0, [(0, 3)], 1, .p⟩, -- OwnerPort
  ⟨0x2C10, 0x2C1F, 0x02, 0x02, .u8, .rw, false, .operator, 0, [(0, 255)], 1, .v⟩, -- ShadowFirst
  ⟨0x2C10, 0x2C1F, 0x03, 0x03, .u8, .rw, false, .operator, 0, [(1, 1)], 1, .v⟩, -- ShadowCommit
  ⟨0x2C10, 0x2C1F, 0x04, 0x04, .u8, .wo, false, .operator, 0, [(1, 2)], 1, .v⟩, -- ChannelCommand
  ⟨0x2C10, 0x2C1F, 0x05, 0x05, .u8, .ro, false, .observer, 0, [], 1, .v⟩, -- ChannelState
  ⟨0x2C10, 0x2C1F, 0x06, 0x06, .u16, .ro, false, .observer, 65535, [], 1, .v⟩, -- ActiveDescriptor
  ⟨0x2C10, 0x2C1F, 0x07, 0x07, .u32, .ro, false, .observer, 0, [], 1, .v⟩, -- ActiveCount
  ⟨0x2C10, 0x2C1F, 0x08, 0x08, .u16, .ro, false, .observer, 65535, [], 1, .v⟩, -- LastDescriptor
  ⟨0x2C10, 0x2C1F, 0x09, 0x09, .u8, .ro, false, .observer, 255, [], 1, .v⟩, -- LastStatus
  ⟨0x2C10, 0x2C1F, 0x0A, 0x0A, .u32, .ro, false, .observer, 0, [], 1, .v⟩, -- LastResidue
  ⟨0x2C10, 0x2C1F, 0x0B, 0x0B, .u8, .ro, false, .observer, 0, [], 1, .v⟩, -- ErrorFlags
  ⟨0x2C10, 0x2C1F, 0x0C, 0x0C, .u32, .ro, false, .observer, 0, [], 1, .v⟩, -- FailBeat
  ⟨0x2C10, 0x2C1F, 0x0D, 0x0D, .u8, .rw, false, .operator, 0, [(0, 7)], 1, .v⟩, -- InterruptCause
  ⟨0x2C10, 0x2C1F, 0x0E, 0x0E, .u8, .rw, false, .operator, 0, [(0, 31)], 1, .v⟩, -- MsiVector
  ⟨0x2C10, 0x2C1F, 0x0F, 0x0F, .u64, .ro, false, .observer, 0, [], 1, .v⟩, -- Completions
  ⟨0x2C10, 0x2C1F, 0x10, 0x10, .u64, .ro, false, .observer, 0, [], 1, .v⟩, -- BeatsPoisonCarried
  ⟨0x2C10, 0x2C1F, 0x11, 0x11, .u32, .rw, false, .operator, 0, [], 1, .v⟩, -- TelemetryReadPointer
  ⟨0x2C10, 0x2C1F, 0x12, 0x12, .u16, .ro, false, .observer, 65535, [], 1, .v⟩] -- ErrorDescriptor

/-- Object rows of block 0x2D (spec/14_stall_queues.md). -/
def objects2Da : List ObjRow := [
  ⟨0x2D00, 0x2D00, 0x00, 0x00, .u8, .const, false, .observer, 2, [], 1, .f⟩, -- HighestSubindex
  ⟨0x2D00, 0x2D00, 0x01, 0x01, .u8, .rw, false, .operator, 16, [(0, 64)], 1, .p⟩, -- TqCutThrough
  ⟨0x2D00, 0x2D00, 0x02, 0x02, .u8, .wo, false, .operator, 0, [(1, 1)], 1, .v⟩, -- StatisticsClear
  ⟨0x2D10, 0x2D1C, 0x00, 0x00, .u8, .const, false, .observer, 13, [], 1, .f⟩, -- HighestSubindex
  ⟨0x2D10, 0x2D1C, 0x01, 0x01, .u32, .const, false, .observer, 0, [], 1, .f⟩, -- Capacity
  ⟨0x2D10, 0x2D1C, 0x02, 0x02, .u32, .ro, false, .observer, 0, [], 1, .v⟩, -- Occupancy
  ⟨0x2D10, 0x2D1C, 0x03, 0x03, .u32, .ro, false, .observer, 0, [], 1, .v⟩, -- PeakOccupancy
  ⟨0x2D10, 0x2D1C, 0x04, 0x04, .u32, .ro, false, .observer, 0, [], 1, .v⟩, -- PacketsAvailable
  ⟨0x2D10, 0x2D1C, 0x05, 0x05, .u64, .ro, false, .observer, 0, [], 1, .v⟩, -- WordsPushed
  ⟨0x2D10, 0x2D1C, 0x06, 0x06, .u64, .ro, false, .observer, 0, [], 1, .v⟩, -- PacketsPushed
  ⟨0x2D10, 0x2D1C, 0x07, 0x07, .u64, .ro, false, .observer, 0, [], 1, .v⟩, -- PacketsDiscarded
  ⟨0x2D10, 0x2D1C, 0x08, 0x08, .u64, .ro, false, .observer, 0, [], 1, .v⟩, -- ProducerStalls
  ⟨0x2D10, 0x2D1C, 0x09, 0x09, .u64, .ro, false, .observer, 0, [], 1, .v⟩, -- PoisonedWords
  ⟨0x2D10, 0x2D1C, 0x0A, 0x0A, .u64, .ro, false, .observer, 0, [], 1, .v⟩, -- SpillBlocksWritten
  ⟨0x2D10, 0x2D1C, 0x0B, 0x0B, .bool, .ro, false, .observer, 0, [], 1, .v⟩, -- MarkLost
  ⟨0x2D10, 0x2D1C, 0x0C, 0x0C, .u32, .ro, false, .observer, 0, [], 1, .v⟩, -- MarkLosses
  ⟨0x2D10, 0x2D1C, 0x0D, 0x0D, .u8, .wo, false, .maintainer, 0, [(1, 1)], 1, .v⟩, -- Flush
  ⟨0x2D20, 0x2D20, 0x00, 0x00, .u8, .const, false, .observer, 1, [], 1, .f⟩, -- HighestSubindex
  ⟨0x2D20, 0x2D20, 0x01, 0x01, (.octets 64 64), .ro, false, .observer, 0, [], 1, .v⟩] -- TqRead

/-- Object rows of block 0x2E (spec/15_power_supervision.md). -/
def objects2Ea : List ObjRow := [
  ⟨0x2E00, 0x2E00, 0x00, 0x00, .u8, .const, false, .observer, 16, [], 1, .f⟩, -- HighestSubindex
  ⟨0x2E00, 0x2E00, 0x01, 0x01, .u16, .rw, false, .maintainer, 66, [(16, 327)], 1, .p⟩, -- PgQualifyTicks
  ⟨0x2E00, 0x2E00, 0x02, 0x02, .u16, .rw, false, .maintainer, 50, [(10, 1000)], 1, .p⟩, -- PgDropTime
  ⟨0x2E00, 0x2E00, 0x03, 0x03, .u8, .const, false, .observer, 8, [], 1, .f⟩, -- ChatterLimit
  ⟨0x2E00, 0x2E00, 0x04, 0x04, .u16, .const, false, .observer, 1639, [], 1, .f⟩, -- SequenceTimeout
  ⟨0x2E00, 0x2E00, 0x05, 0x05, .u8, .rw, false, .maintainer, 66, [(16, 66)], 1, .p⟩, -- DomainStaggerTicks
  ⟨0x2E00, 0x2E00, 0x06, 0x06, .u16, .const, false, .observer, 5000, [], 1, .f⟩, -- DischargeTimeout
  ⟨0x2E00, 0x2E00, 0x07, 0x07, .u8, .const, false, .observer, 10, [], 1, .f⟩, -- DischargeLevel
  ⟨0x2E00, 0x2E00, 0x08, 0x08, .u8, .rw, false, .maintainer, 0, [(0, 1)], 1, .p⟩, -- PmbusSpeed
  ⟨0x2E00, 0x2E00, 0x09, 0x09, .bool, .rw, false, .maintainer, 1, [(0, 1)], 1, .p⟩, -- PmbusPec
  ⟨0x2E00, 0x2E00, 0x0A, 0x0A, .u16, .rw, false, .operator, 100, [(10, 10000)], 1, .p⟩, -- TelemetryInterval
  ⟨0x2E00, 0x2E00, 0x0B, 0x0B, .u8, .rw, false, .maintainer, 7, [(0, 7)], 1, .p⟩, -- ButtonControl
  ⟨0x2E00, 0x2E00, 0x0C, 0x0C, .u16, .rw, false, .maintainer, 4000, [(1000, 10000)], 1, .p⟩, -- PbtnHoldTime
  ⟨0x2E00, 0x2E00, 0x0D, 0x0D, .u8, .rw, false, .maintainer, 3, [(1, 10)], 1, .p⟩, -- StartAttemptLimit
  ⟨0x2E00, 0x2E00, 0x0E, 0x0E, .bool, .ro, false, .observer, 0, [], 1, .v⟩, -- StartLockout
  ⟨0x2E00, 0x2E00, 0x0F, 0x0F, .u8, .wo, false, .operator, 0, [(1, 1)], 1, .v⟩, -- StartRequest
  ⟨0x2E00, 0x2E00, 0x10, 0x10, .u8, .wo, false, .operator, 0, [(1, 1)], 1, .v⟩, -- StatisticsClear
  ⟨0x2E01, 0x2E01, 0x00, 0x00, .u8, .const, false, .observer, 3, [], 1, .f⟩, -- HighestSubindex
  ⟨0x2E01, 0x2E01, 0x01, 0x01, .u8, .rw, false, .maintainer, 0, [(0, 4), (6, 29)], 1, .v⟩, -- MarginRail
  ⟨0x2E01, 0x2E01, 0x02, 0x02, .u8, .wo, false, .maintainer, 0, [(0, 2)], 1, .v⟩, -- MarginCommand
  ⟨0x2E01, 0x2E01, 0x03, 0x03, .u8, .ro, false, .observer, 0, [], 1, .v⟩, -- MarginState
  ⟨0x2E10, 0x2E2D, 0x00, 0x00, .u8, .const, false, .observer, 23, [], 1, .f⟩, -- HighestSubindex
  ⟨0x2E10, 0x2E2D, 0x01, 0x01, .u16, .const, false, .observer, 0, [], 1, .f⟩, -- NominalVoltage
  ⟨0x2E10, 0x2E2D, 0x02, 0x02, .u8, .rw, false, .maintainer, 5, [(2, 10)], 1, .p⟩, -- WarnBand
  ⟨0x2E10, 0x2E2D, 0x03, 0x03, .u8, .rw, false, .maintainer, 10, [(4, 15)], 1, .p⟩, -- FaultBand
  ⟨0x2E10, 0x2E2D, 0x04, 0x04, .u8, .rw, false, .maintainer, 0, [(0, 0), (8, 119)], 1, .p⟩, -- PmbusAddress
  ⟨0x2E10, 0x2E2D, 0x05, 0x05, .u8, .rw, false, .maintainer, 255, [(0, 31), (255, 255)], 1, .p⟩, -- PmbusPage
  ⟨0x2E10, 0x2E2D, 0x06, 0x06, .u8, .ro, false, .observer, 0, [], 1, .v⟩, -- RailState
  ⟨0x2E10, 0x2E2D, 0x07, 0x07, .u16, .ro, false, .observer, 0, [], 1, .v⟩, -- Voltage
  ⟨0x2E10, 0x2E2D, 0x08, 0x08, .u16, .ro, false, .observer, 65535, [], 1, .v⟩, -- VoltageMin
  ⟨0x2E10, 0x2E2D, 0x09, 0x09, .u16, .ro, false, .observer, 0, [], 1, .v⟩, -- VoltageMax
  ⟨0x2E10, 0x2E2D, 0x0A, 0x0A, .u16, .ro, false, .observer, 65535, [], 1, .v⟩, -- Current
  ⟨0x2E10, 0x2E2D, 0x0B, 0x0B, .i8, .ro, false, .observer, (-128), [], 1, .v⟩, -- RegulatorTemperature
  ⟨0x2E10, 0x2E2D, 0x0C, 0x0C, .u16, .ro, false, .observer, 65535, [], 1, .v⟩, -- PmbusStatusWord
  ⟨0x2E10, 0x2E2D, 0x0D, 0x0D, .u32, .ro, false, .observer, 0, [], 1, .v⟩, -- Starts
  ⟨0x2E10, 0x2E2D, 0x0E, 0x0E, .u32, .ro, false, .observer, 0, [], 1, .v⟩, -- ChatterEvents
  ⟨0x2E10, 0x2E2D, 0x0F, 0x0F, .u32, .ro, false, .observer, 0, [], 1, .v⟩, -- StartFailures
  ⟨0x2E10, 0x2E2D, 0x10, 0x10, .u32, .ro, false, .observer, 0, [], 1, .v⟩, -- Glitches
  ⟨0x2E10, 0x2E2D, 0x11, 0x11, .u32, .ro, false, .observer, 0, [], 1, .v⟩, -- RunningFaults
  ⟨0x2E10, 0x2E2D, 0x12, 0x12, .u32, .ro, false, .observer, 0, [], 1, .v⟩] -- DischargeTimeouts

/-- Object rows of block 0x2E (spec/15_power_supervision.md). -/
def objects2Eb : List ObjRow := [
  ⟨0x2E10, 0x2E2D, 0x13, 0x13, .u32, .ro, false, .observer, 0, [], 1, .v⟩, -- WarnExcursions
  ⟨0x2E10, 0x2E2D, 0x14, 0x14, .u16, .ro, false, .observer, 0, [], 1, .v⟩, -- LastDischargeTime
  ⟨0x2E10, 0x2E2D, 0x15, 0x15, .u32, .ro, false, .observer, 0, [], 1, .v⟩, -- PmbusErrors
  ⟨0x2E10, 0x2E2D, 0x16, 0x16, .u16, .rw, false, .maintainer, 0, [], 1, .p⟩, -- MarginLow
  ⟨0x2E10, 0x2E2D, 0x17, 0x17, .u16, .rw, false, .maintainer, 0, [], 1, .p⟩, -- MarginHigh
  ⟨0x2E30, 0x2E30, 0x00, 0x00, .u8, .const, false, .observer, 3, [], 1, .f⟩, -- HighestSubindex
  ⟨0x2E30, 0x2E30, 0x01, 0x01, .u8, .wo, false, .maintainer, 0, [(0, 7)], 1, .v⟩, -- DomainRestart
  ⟨0x2E30, 0x2E30, 0x02, 0x02, .u8, .ro, false, .observer, 255, [], 1, .v⟩, -- DomainsOff
  ⟨0x2E30, 0x2E30, 0x03, 0x03, .u8, .ro, false, .observer, 0, [], 1, .v⟩, -- DomainsGood
  ⟨0x2E40, 0x2E40, 0x00, 0x00, .u8, .const, false, .observer, 3, [], 1, .f⟩, -- HighestSubindex
  ⟨0x2E40, 0x2E40, 0x01, 0x01, .u16, .ro, false, .observer, 0, [], 1, .v⟩, -- InputVoltage
  ⟨0x2E40, 0x2E40, 0x02, 0x02, .u8, .ro, false, .observer, 0, [], 1, .v⟩, -- AdcStatus
  ⟨0x2E40, 0x2E40, 0x03, 0x03, .i16, .ro, false, .observer, 0, [], 1, .v⟩] -- AdcReferenceError

/-- Object rows of block 0x2F (spec/16_priming_and_varnish.md). -/
def objects2Fa : List ObjRow := [
  ⟨0x2F00, 0x2F00, 0x00, 0x00, .u8, .const, false, .observer, 18, [], 1, .f⟩, -- HighestSubindex
  ⟨0x2F00, 0x2F00, 0x01, 0x01, .u8, .rw, true, .maintainer, 0, [(0, 2)], 1, .v⟩, -- StartMode
  ⟨0x2F00, 0x2F00, 0x02, 0x02, .u16, .rw, false, .maintainer, 100, [(20, 1000)], 1, .p⟩, -- ReArmDelay
  ⟨0x2F00, 0x2F00, 0x03, 0x03, .u16, .rw, false, .maintainer, 200, [(0, 2000)], 1, .p⟩, -- WarnWindow
  ⟨0x2F00, 0x2F00, 0x04, 0x04, .u8, .wo, false, .maintainer, 0, [(1, 1)], 1, .v⟩, -- RestartRequest
  ⟨0x2F00, 0x2F00, 0x05, 0x05, .u8, .wo, false, .maintainer, 0, [(1, 1)], 1, .v⟩, -- SelfTestRequest
  ⟨0x2F00, 0x2F00, 0x06, 0x06, .u16, .ro, false, .observer, 0, [], 1, .v⟩, -- SelfTestResult
  ⟨0x2F00, 0x2F00, 0x07, 0x07, .u32, .ro, false, .observer, 0, [], 1, .v⟩, -- LastStartTime
  ⟨0x2F00, 0x2F00, 0x08, 0x08, .u8, .ro, false, .observer, 0, [], 1, .v⟩, -- LastShutdownCause
  ⟨0x2F00, 0x2F00, 0x09, 0x09, .u8, .ro, false, .observer, 255, [], 1, .v⟩, -- LastVarnishOutcome
  ⟨0x2F00, 0x2F00, 0x0A, 0x0A, .u16, .ro, false, .observer, 0, [], 1, .v⟩, -- LastVarnishTime
  ⟨0x2F00, 0x2F00, 0x0B, 0x0B, .u32, .ro, false, .observer, 0, [], 1, .v⟩, -- LastVarnishTiles
  ⟨0x2F00, 0x2F00, 0x0C, 0x0C, .u8, .ro, false, .observer, 255, [], 1, .v⟩, -- LastEpilogue
  ⟨0x2F00, 0x2F00, 0x0D, 0x0D, .u64, .ro, false, .observer, 0, [], 1, .v⟩, -- ShutdownSequence
  ⟨0x2F00, 0x2F00, 0x0E, 0x0E, .u32, .ro, false, .observer, 0, [], 1, .v⟩, -- RideThroughs
  ⟨0x2F00, 0x2F00, 0x0F, 0x0F, .u16, .ro, false, .observer, 0, [], 1, .v⟩, -- ScratchSize
  ⟨0x2F00, 0x2F00, 0x10, 0x10, .u16, .const, false, .observer, 50, [], 1, .f⟩, -- QuiesceLimit
  ⟨0x2F00, 0x2F00, 0x11, 0x11, .u16, .const, false, .observer, 2000, [], 1, .f⟩, -- VarnishLimit
  ⟨0x2F00, 0x2F00, 0x12, 0x12, .u16, .const, false, .observer, 3000, [], 1, .f⟩, -- AbandonThreshold
  ⟨0x2F01, 0x2F01, 0x00, 0x00, .u8, .const, false, .observer, 9, [], 1, .f⟩, -- HighestSubindex
  ⟨0x2F01, 0x2F01, 0x01, 0x09, .u32, .ro, false, .observer, 0, [], 1, .v⟩, -- StepTime
  ⟨0x2F10, 0x2F10, 0x00, 0x00, .u8, .const, false, .observer, 8, [], 1, .f⟩, -- HighestSubindex
  ⟨0x2F10, 0x2F10, 0x01, 0x08, .u64, .ro, false, .observer, 0, [], 1, .v⟩, -- AnchorGeneration
  ⟨0x2F11, 0x2F11, 0x00, 0x00, .u8, .const, false, .observer, 8, [], 1, .f⟩, -- HighestSubindex
  ⟨0x2F11, 0x2F11, 0x01, 0x08, .u32, .ro, false, .observer, 0, [], 1, .v⟩, -- JournalTilesReplayed
  ⟨0x2F12, 0x2F12, 0x00, 0x00, .u8, .const, false, .observer, 8, [], 1, .f⟩, -- HighestSubindex
  ⟨0x2F12, 0x2F12, 0x01, 0x08, .u32, .ro, false, .observer, 0, [], 1, .v⟩] -- CheckpointsTaken

/-- Object rows of block 0x30 (spec/17_clocks_and_thermal.md). -/
def objects30a : List ObjRow := [
  ⟨0x3000, 0x3000, 0x00, 0x00, .u8, .const, false, .observer, 7, [], 1, .f⟩, -- HighestSubindex
  ⟨0x3000, 0x3000, 0x01, 0x01, .u64, .ro, false, .observer, 0, [], 1, .v⟩, -- TimeBase
  ⟨0x3000, 0x3000, 0x02, 0x02, .u8, .rw, false, .maintainer, 1, [(0, 1)], 1, .p⟩, -- ClockSourceSelect
  ⟨0x3000, 0x3000, 0x03, 0x03, .u8, .ro, false, .observer, 0, [], 1, .v⟩, -- ClockSource
  ⟨0x3000, 0x3000, 0x04, 0x04, .i16, .ro, false, .observer, 0, [], 1, .v⟩, -- OscillatorTrim
  ⟨0x3000, 0x3000, 0x05, 0x05, .u8, .rw, false, .operator, 0, [(0, 255)], 1, .p⟩, -- DeepSleepEnable
  ⟨0x3000, 0x3000, 0x06, 0x06, .u8, .const, false, .observer, 128, [], 1, .f⟩, -- LightSleepIdleSlots
  ⟨0x3000, 0x3000, 0x07, 0x07, .u8, .const, false, .observer, 10, [], 1, .f⟩, -- DeepSleepIdleTime
  ⟨0x3001, 0x3001, 0x00, 0x00, .u8, .const, false, .observer, 8, [], 1, .f⟩, -- HighestSubindex
  ⟨0x3001, 0x3001, 0x01, 0x08, .u8, .ro, false, .observer, 0, [], 1, .v⟩, -- SleepState
  ⟨0x3002, 0x3002, 0x00, 0x00, .u8, .const, false, .observer, 8, [], 1, .f⟩, -- HighestSubindex
  ⟨0x3002, 0x3002, 0x01, 0x08, .u32, .ro, false, .observer, 0, [], 1, .v⟩, -- DeepSleepEntries
  ⟨0x3003, 0x3003, 0x00, 0x00, .u8, .const, false, .observer, 8, [], 1, .f⟩, -- HighestSubindex
  ⟨0x3003, 0x3003, 0x01, 0x08, .u64, .ro, false, .observer, 0, [], 1, .v⟩, -- DeepSleepTime
  ⟨0x3010, 0x3010, 0x00, 0x00, .u8, .const, false, .observer, 19, [], 1, .f⟩, -- HighestSubindex
  ⟨0x3010, 0x3010, 0x01, 0x01, .i16, .ro, false, .observer, 0, [], 1, .v⟩, -- DieTemperature
  ⟨0x3010, 0x3010, 0x02, 0x02, .i16, .ro, false, .observer, (-400), [], 1, .v⟩, -- DieTemperatureMax
  ⟨0x3010, 0x3010, 0x03, 0x03, .u8, .ro, false, .observer, 0, [], 1, .v⟩, -- ThermalLevel
  ⟨0x3010, 0x3010, 0x04, 0x04, .i8, .rw, true, .operator, 95, [(70, 105)], 1, .p⟩, -- WarnThreshold
  ⟨0x3010, 0x3010, 0x05, 0x05, .i8, .rw, true, .maintainer, 102, [(80, 108)], 1, .p⟩, -- ThrottleThreshold
  ⟨0x3010, 0x3010, 0x06, 0x06, .i8, .rw, true, .maintainer, 112, [(105, 115)], 1, .p⟩, -- AbsoluteLimit
  ⟨0x3010, 0x3010, 0x07, 0x07, .u8, .const, false, .observer, 3, [], 1, .f⟩, -- Hysteresis
  ⟨0x3010, 0x3010, 0x08, 0x08, .i8, .rw, false, .maintainer, 90, [(60, 100)], 1, .p⟩, -- StartTemperatureMax
  ⟨0x3010, 0x3010, 0x09, 0x09, .u8, .rw, false, .maintainer, 20, [(5, 100)], 1, .p⟩, -- RiseRate
  ⟨0x3010, 0x3010, 0x0A, 0x0A, .u16, .rw, false, .maintainer, 1000, [(250, 10000)], 1, .p⟩, -- RiseWindow
  ⟨0x3010, 0x3010, 0x0B, 0x0B, .u8, .rw, false, .maintainer, 5, [(0, 20)], 1, .p⟩, -- RiseLead
  ⟨0x3010, 0x3010, 0x0C, 0x0C, .bool, .ro, false, .observer, 0, [], 1, .v⟩, -- RiseActive
  ⟨0x3010, 0x3010, 0x0D, 0x0D, .i16, .ro, false, .observer, 0, [], 1, .v⟩, -- LastRise
  ⟨0x3010, 0x3010, 0x0E, 0x0E, .u8, .rw, false, .maintainer, 50, [(10, 90)], 1, .p⟩, -- ThrottleAcceptance
  ⟨0x3010, 0x3010, 0x0F, 0x0F, .u8, .ro, false, .observer, 96, [], 1, .v⟩, -- SensorsUsable
  ⟨0x3010, 0x3010, 0x10, 0x10, .bool, .ro, false, .observer, 0, [], 1, .v⟩, -- ThermalFault
  ⟨0x3010, 0x3010, 0x11, 0x11, .u64, .ro, false, .observer, 0, [], 1, .v⟩, -- ThrottleTime
  ⟨0x3010, 0x3010, 0x12, 0x12, .u32, .ro, false, .observer, 0, [], 1, .v⟩, -- RiseEvents
  ⟨0x3010, 0x3010, 0x13, 0x13, .u8, .wo, false, .operator, 0, [(1, 1)], 1, .v⟩, -- StatisticsClear
  ⟨0x3020, 0x3020, 0x00, 0x00, .u8, .const, false, .observer, 96, [], 1, .f⟩, -- HighestSubindex
  ⟨0x3020, 0x3020, 0x01, 0x60, .i16, .ro, false, .observer, 0, [], 1, .v⟩] -- SensorTemperature

/-- Object rows of block 0x31 (spec/18_folio_and_ledger.md). -/
def objects31a : List ObjRow := [
  ⟨0x3100, 0x3100, 0x00, 0x00, .u8, .const, false, .observer, 11, [], 1, .f⟩, -- HighestSubindex
  ⟨0x3100, 0x3100, 0x01, 0x01, .bool, .ro, false, .observer, 0, [], 1, .v⟩, -- FolioBusy
  ⟨0x3100, 0x3100, 0x02, 0x02, .u16, .ro, false, .observer, 0, [], 1, .v⟩, -- QueuedPageWrites
  ⟨0x3100, 0x3100, 0x03, 0x03, .u64, .ro, false, .observer, 0, [], 1, .v⟩, -- PageWrites
  ⟨0x3100, 0x3100, 0x04, 0x04, .u64, .ro, false, .observer, 0, [], 1, .v⟩, -- BusyWaits
  ⟨0x3100, 0x3100, 0x05, 0x05, .u32, .ro, false, .observer, 0, [], 1, .v⟩, -- VerifyFailures
  ⟨0x3100, 0x3100, 0x06, 0x06, .u16, .ro, false, .observer, 0, [], 1, .v⟩, -- LastRecallTime
  ⟨0x3100, 0x3100, 0x07, 0x07, .u32, .ro, false, .observer, 0, [], 1, .v⟩, -- SectionStatus
  ⟨0x3100, 0x3100, 0x08, 0x08, .u32, .ro, false, .observer, 0, [], 1, .v⟩, -- TornCellsRepaired
  ⟨0x3100, 0x3100, 0x09, 0x09, .u8, .wo, false, .operator, 0, [(1, 1)], 1, .v⟩, -- StatisticsClear
  ⟨0x3100, 0x3100, 0x0A, 0x0A, .u8, .rw, false, .maintainer, 1, [(1, 60)], 1, .p⟩, -- TallyWriteInterval
  ⟨0x3100, 0x3100, 0x0B, 0x0B, .bool, .ro, false, .observer, 0, [], 1, .v⟩, -- RestorePending
  ⟨0x3101, 0x3101, 0x00, 0x00, .u8, .const, false, .observer, 4, [], 1, .f⟩, -- HighestSubindex
  ⟨0x3101, 0x3101, 0x01, 0x01, .u8, .rw, false, .observer, 0, [(0, 255)], 1, .v⟩, -- TallySelect
  ⟨0x3101, 0x3101, 0x02, 0x02, .u32, .ro, false, .observer, 0, [], 1, .v⟩, -- TallyValue
  ⟨0x3101, 0x3101, 0x03, 0x03, .u16, .ro, false, .observer, 0, [], 1, .v⟩, -- TallyPending
  ⟨0x3101, 0x3101, 0x04, 0x04, .bool, .ro, false, .observer, 0, [], 1, .v⟩, -- TallySaturated
  ⟨0x3110, 0x3110, 0x00, 0x00, .u8, .const, false, .observer, 2, [], 1, .f⟩, -- HighestSubindex
  ⟨0x3110, 0x3110, 0x01, 0x01, .u16, .rw, false, .operator, 0, [(0, 32767)], 1, .v⟩, -- UserAddress
  ⟨0x3110, 0x3110, 0x02, 0x02, (.octets 1 64), .rw, false, .operator, 0, [], 1, .v⟩, -- UserData
  ⟨0x3180, 0x3180, 0x00, 0x00, .u8, .const, false, .observer, 11, [], 1, .f⟩, -- HighestSubindex
  ⟨0x3180, 0x3180, 0x01, 0x01, .u64, .ro, false, .observer, 0, [], 1, .v⟩, -- OldestSequence
  ⟨0x3180, 0x3180, 0x02, 0x02, .u64, .ro, false, .observer, 0, [], 1, .v⟩, -- NewestSequence
  ⟨0x3180, 0x3180, 0x03, 0x03, .u16, .ro, false, .observer, 0, [], 1, .v⟩, -- RecordsHeld
  ⟨0x3180, 0x3180, 0x04, 0x04, .u64, .rw, false, .observer, 0, [(0, 281474976710655)], 1, .v⟩, -- Cursor
  ⟨0x3180, 0x3180, 0x05, 0x05, (.octets 264 264), .ro, false, .observer, 0, [], 1, .v⟩, -- Window
  ⟨0x3180, 0x3180, 0x06, 0x06, .u8, .rw, false, .maintainer, 4, [(1, 64)], 1, .p⟩, -- RateLimitCount
  ⟨0x3180, 0x3180, 0x07, 0x07, .u16, .rw, false, .maintainer, 60, [(1, 3600)], 1, .p⟩, -- RateLimitWindow
  ⟨0x3180, 0x3180, 0x08, 0x08, .u8, .wo, false, .maintainer, 0, [(1, 1)], 1, .v⟩, -- LedgerClear
  ⟨0x3180, 0x3180, 0x09, 0x09, .bool, .ro, false, .observer, 0, [], 1, .v⟩, -- LedgerFull
  ⟨0x3180, 0x3180, 0x0A, 0x0A, .u64, .ro, false, .observer, 0, [], 1, .v⟩, -- EventsSuppressed
  ⟨0x3180, 0x3180, 0x0B, 0x0B, .u8, .ro, false, .observer, 0, [], 1, .v⟩] -- PendingRecords

/-- Object rows of block 0x32 (spec/21_performance_counters.md). -/
def objects32a : List ObjRow := [
  ⟨0x3200, 0x3200, 0x00, 0x00, .u8, .const, false, .observer, 8, [], 1, .f⟩, -- HighestSubindex
  ⟨0x3200, 0x3200, 0x01, 0x01, .bool, .rw, false, .operator, 1, [(0, 1)], 1, .v⟩, -- RunControl
  ⟨0x3200, 0x3200, 0x02, 0x02, .u8, .wo, false, .operator, 0, [(1, 1)], 1, .v⟩, -- CounterClear
  ⟨0x3200, 0x3200, 0x03, 0x03, .u8, .rw, false, .operator, 16, [(0, 0), (8, 24)], 1, .p⟩, -- SampleRate
  ⟨0x3200, 0x3200, 0x04, 0x04, .u8, .rw, false, .operator, 127, [(0, 127)], 1, .p⟩, -- SampleFilter
  ⟨0x3200, 0x3200, 0x05, 0x05, .u16, .rw, false, .operator, 0, [(0, 0), (10, 10000)], 1, .p⟩, -- DumpInterval
  ⟨0x3200, 0x3200, 0x06, 0x06, .u64, .ro, false, .observer, 0, [], 1, .v⟩, -- SamplesTaken
  ⟨0x3200, 0x3200, 0x07, 0x07, .u64, .ro, false, .observer, 0, [], 1, .v⟩, -- SamplesLost
  ⟨0x3200, 0x3200, 0x08, 0x08, .u16, .ro, false, .observer, 0, [], 1, .v⟩, -- WrapSummary
  ⟨0x3210, 0x321C, 0x00, 0x00, .u8, .const, false, .observer, 25, [], 1, .f⟩, -- HighestSubindex
  ⟨0x3210, 0x321C, 0x01, 0x08, .u16, .rw, false, .operator, 0, [], 1, .p⟩, -- EventSelect
  ⟨0x3210, 0x321C, 0x09, 0x10, .u64, .rw, false, .operator, 0, [(0, 281474976710655)], 1, .v⟩, -- Counter
  ⟨0x3210, 0x321C, 0x11, 0x18, .u32, .rw, false, .operator, 0, [], 1, .p⟩, -- OccupancyThreshold
  ⟨0x3210, 0x321C, 0x19, 0x19, .u8, .rw, false, .operator, 0, [(0, 255)], 1, .v⟩] -- WrapSticky

/-- Object rows of block 0x33 (spec/22_service_life_and_degradation.md). -/
def objects33a : List ObjRow := [
  ⟨0x3300, 0x3300, 0x00, 0x00, .u8, .const, false, .observer, 48, [], 1, .f⟩, -- HighestSubindex
  ⟨0x3300, 0x3300, 0x01, 0x01, .u8, .ro, false, .observer, 0, [], 1, .v⟩, -- LifeUsed
  ⟨0x3300, 0x3300, 0x02, 0x02, .u8, .ro, false, .observer, 0, [], 1, .v⟩, -- LifeUsedByHours
  ⟨0x3300, 0x3300, 0x03, 0x03, .u8, .ro, false, .observer, 0, [], 1, .v⟩, -- LifeUsedByWear
  ⟨0x3300, 0x3300, 0x04, 0x04, .u8, .ro, false, .observer, 0, [], 1, .v⟩, -- LifeUsedBySpares
  ⟨0x3300, 0x3300, 0x05, 0x05, .u16, .rw, false, .maintainer, 100, [(10, 500)], 1, .p⟩, -- RebuildRate
  ⟨0x3300, 0x3300, 0x06, 0x06, .u32, .ro, false, .observer, 0, [], 1, .v⟩, -- StaleColumns
  ⟨0x3300, 0x3300, 0x07, 0x07, .u32, .ro, false, .observer, 0, [], 1, .v⟩, -- RebuildRegionsRemaining
  ⟨0x3300, 0x3300, 0x08, 0x08, .u8, .ro, false, .observer, 0, [], 1, .v⟩, -- FencedGroups
  ⟨0x3300, 0x3300, 0x09, 0x09, .u16, .ro, false, .observer, 65535, [], 1, .v⟩, -- RebuildRegion
  ⟨0x3300, 0x3300, 0x0A, 0x0A, .bool, .rw, false, .maintainer, 0, [(0, 1)], 1, .v⟩, -- RebuildPause
  ⟨0x3300, 0x3300, 0x0B, 0x30, .u32, .ro, false, .observer, 0, [], 1, .v⟩] -- service-life tallies, named in the tally table

/-- The whole dictionary in index order (R447). -/
def objectTable : List ObjRow :=
  objects10a
    ++ objects20a
    ++ objects20b
    ++ objects21a
    ++ objects21b
    ++ objects22a
    ++ objects23a
    ++ objects23b
    ++ objects24a
    ++ objects25a
    ++ objects26a
    ++ objects27a
    ++ objects27b
    ++ objects28a
    ++ objects29a
    ++ objects29b
    ++ objects2Aa
    ++ objects2Ba
    ++ objects2Bb
    ++ objects2Ca
    ++ objects2Da
    ++ objects2Ea
    ++ objects2Eb
    ++ objects2Fa
    ++ objects30a
    ++ objects31a
    ++ objects32a
    ++ objects33a

/-- Whether a row names the object `idx`.`sub`. -/
def ObjRow.names (r : ObjRow) (idx sub : Nat) : Bool :=
  r.idxLo ≤ idx && idx ≤ r.idxHi && r.subLo ≤ sub && sub ≤ r.subHi

/-- The row of an object, if the dictionary has it (R447, R449). -/
def objRow? (idx sub : Nat) : Option ObjRow :=
  objectTable.find? (fun r => r.names idx sub)

/-- Whether an index is in the map (R449). -/
def indexExists (idx : Nat) : Bool :=
  objectTable.any (fun r => r.idxLo ≤ idx && idx ≤ r.idxHi)

/-- Width in bytes of a numeric type (R408). -/
def ObjType.width : ObjType → Nat
  | .bool | .u8 | .i8 => 1
  | .u16 | .i16 => 2
  | .u32 => 4
  | .u64 => 8
  | .str => 0
  | .octets _ hi => hi

/-- Whether a written byte string has the type's length (check 4 of R450). -/
def ObjType.lengthOk (t : ObjType) (n : Nat) : Bool :=
  match t with
  | .octets lo hi => lo ≤ n && n ≤ hi
  | .str => false
  | t => n == t.width

/-- Whether a type is numeric. -/
def ObjType.isNum : ObjType → Bool
  | .octets _ _ | .str => false
  | _ => true

/-- Whether a number lies in the row's range (check 6 of R450). -/
def ObjRow.inRange (r : ObjRow) (v : Int) : Bool :=
  (r.ranges.isEmpty || r.ranges.any (fun p => p.1 ≤ v && v ≤ p.2)) && v % r.mult == 0

end Sys2Proof.Machine
end

