-- ==== Sys2Proof/Machine/Tab.lean ====
section
/-! DEFINITION. Machine/Tab.lean: sparse tables. A table is a list of key and value pairs in ONE canonical form: keys
strictly rising, and no entry equal to what an unlisted key reads as (`d`). Every addressed store of the block (the
medium, the Easel, the dictionary, the Folio bytes, the per-unit tables) is one of these, so equal stores are equal
data. -/

namespace Sys2Proof.Machine

/-- A sparse table from natural keys. -/
abbrev Tab (α : Type) := List (Nat × α)

/-- What the table holds at key `k`; an unlisted key reads as `d k`. -/
def tabGet {α : Type} (d : Nat → α) : Tab α → Nat → α
  | [], k => d k
  | (j, v) :: t, k => if k = j then v else tabGet d t k

/-- Lists `v` at key `k`. -/
def tabPut {α : Type} : Tab α → Nat → α → Tab α
  | [], k, v => [(k, v)]
  | (j, w) :: t, k, v =>
    if k = j then (k, v) :: t else if k < j then (k, v) :: (j, w) :: t else (j, w) :: tabPut t k v

/-- Unlists key `k`. -/
def tabDel {α : Type} : Tab α → Nat → Tab α
  | [], _ => []
  | (j, w) :: t, k =>
    if k = j then tabDel t k else (j, w) :: tabDel t k

/-- Writes `v` at key `k`, keeping the canonical form. -/
def tabSet {α : Type} [DecidableEq α] (d : Nat → α) (t : Tab α) (k : Nat) (v : α) : Tab α :=
  if v = d k then tabDel t k else tabPut t k v

/-- Changes the entry at key `k` by `f`. -/
def tabMod {α : Type} [DecidableEq α] (d : Nat → α) (t : Tab α) (k : Nat) (f : α → α) : Tab α :=
  tabSet d t k (f (tabGet d t k))

/-- Every key of `t` is above `lo`, keys rise strictly, and no entry is what an unlisted key reads as. -/
def tabWfAbove {α : Type} [DecidableEq α] (d : Nat → α) : Option Nat → Tab α → Bool
  | _, [] => true
  | lo, (k, v) :: t =>
    (match lo with
     | none => true
     | some l => decide (l < k)) && decide (v ≠ d k) && tabWfAbove d (some k) t

/-- The canonical form. -/
def tabWf {α : Type} [DecidableEq α] (d : Nat → α) (t : Tab α) : Bool :=
  tabWfAbove d none t

/-- Changes entries `lo`, `lo+1`, … (`n` of them) by `f`. -/
def tabModRange {α : Type} [DecidableEq α] (d : Nat → α) (f : Nat → α → α) : Tab α → Nat → Nat → Tab α
  | t, _, 0 => t
  | t, lo, n + 1 => tabModRange d f (tabMod d t lo (f lo)) (lo + 1) n

/-- Writes the list of values at `lo`, `lo+1`, …. -/
def tabSetList {α : Type} [DecidableEq α] (d : Nat → α) : Tab α → Nat → List α → Tab α
  | t, _, [] => t
  | t, lo, v :: vs => tabSetList d (tabSet d t lo v) (lo + 1) vs

/-- The table that holds the list of values at `lo`, `lo+1`, …, and nothing else. -/
def tabOfList {α : Type} [DecidableEq α] (d : Nat → α) : Nat → List α → Tab α
  | _, [] => []
  | lo, v :: vs => if v = d lo then tabOfList d (lo + 1) vs else (lo, v) :: tabOfList d (lo + 1) vs

/-- Reads `n` values from `lo`. -/
def tabGetList {α : Type} (d : Nat → α) (t : Tab α) (lo n : Nat) : List α :=
  (List.range n).map (fun i => tabGet d t (lo + i))

end Sys2Proof.Machine
end

