-- ==== Sys2Proof/Machine/State.lean ====
section
/-! DEFINITION. Machine/State.lean: everything the spec gives the block, as plain data, unit by unit; each field's
docstring names its rule, its width where the spec gives one, and where its reset value comes from (`spec`, or the
log entry of a `choice`). `draws` and `out` are the model's own. -/

namespace Sys2Proof.Machine

/-- Why a command could not go on in the block. No command of this model faults: every failure the spec describes is
a status, an event, poison or a change of device state, so the type has no constructor. -/
inductive Fault where
  deriving DecidableEq, Repr

/-- Why a command has no meaning in the model. -/
inductive Refusal where
  /-- the command is not modelled yet; raised by the dispatch arms only; safe: nothing is concluded about it -/
  | notModelled (mnemonic : String)
  deriving DecidableEq, Repr

/-- What leaves the block on its links and pins: the model's own record, newest first (log entry 6). -/
inductive Output where
  /-- a CAN frame with its identifier (R435, R438) -/
  | can (id : Nat) (data : List Byte)
  /-- the answer to a USDO transfer: abort code, 0 when served, and the data of an upload (R433, R435) -/
  | usdo (node : Nat) (abort : Nat) (data : List Byte)
  /-- a read-transfer answer of the I3C target (R441) -/
  | i3cData (data : List Byte)
  /-- the I3C target does not acknowledge its address (R441) -/
  | i3cNack
  /-- an IBI with its mandatory data byte (R441) -/
  | ibi (tag : Byte)
  /-- data returned by a GET CCC (R440) -/
  | ccc (data : List Byte)
  /-- a mailbox completion: opcode, return code and output payload (R292, R442) -/
  | mailbox (port : Port) (opcode returnCode : Nat) (payload : List Byte)
  /-- a PMBus transaction: rail, command code, data (R356, R357) -/
  | pmbus (rail command data : Nat)
  /-- a frame on a channel's CA bus, 48 bits (R234) -/
  | caFrame (channel : Nat) (bits : Nat)
  /-- a burst on DQ: the twelve bytes of a patch, from a stack or to it (R235) -/
  | burst (channel : Nat) (data : List Byte)
  /-- an event frame of a stack on ALERT_N, 12 bits (R245) -/
  | alert (channel : Nat) (bits : Nat)
  /-- read data to a host: line, poison mark, MetaValue (R285) and DevLoad (R157, R300) -/
  | data (port : Port) (tag : Nat) (line : Line) (poison : Bool) (metaValue devLoad : Nat)
  /-- a write completion to a host with its DevLoad (R93, R171, R300) -/
  | ack (port : Port) (tag : Nat) (devLoad : Nat)
  /-- a back-invalidate snoop to a host: 0 BISnpCur, 1 BISnpData, 2 BISnpInv (R161, R285) -/
  | snoop (port : Port) (line kind : Nat)
  /-- a BIConflictAck to a host (R286) -/
  | biConflictAck (port : Port) (line : Nat)
  /-- an MSI or MSI-X interrupt of a port's function (R295, R309) -/
  | interrupt (port : Port) (vector : Nat)
  /-- a memory write of Barrow to host memory: host address, bytes and the EP bit (R306, R310, R320) -/
  | hostWrite (port : Port) (address : Nat) (data : List Byte) (poison : Bool)
  /-- a memory read of Barrow from host memory: host address and length (R306) -/
  | hostRead (port : Port) (address length : Nat)
  /-- an SPDM or IDE message of a port (R301) -/
  | spdm (port : Port) (code : Nat) (payload : List Byte)
  /-- a GPF or link management answer of a port (R299) -/
  | link (port : Port) (what : Nat)
  deriving DecidableEq, Repr

/-- Device states in the order of R4; [2000.01] reads the position. -/
inductive DeviceState where
  | standby | priming | active | warn | varnish | varnished | recovery | test
  deriving DecidableEq, Repr

/-- The NMT states of R436. -/
inductive Nmt where
  | initialising | stopped | operational | preOperational
  deriving DecidableEq, Repr

/-- One management session (R430). -/
structure Session where
  /-- bound client, none while free (R430; reset: spec) -/
  client : Option Via := none
  /-- access level (R427; reset: spec Observer) -/
  level : Level := .observer
  /-- staging set: object key and value bytes, oldest first, at most 64 (R431; reset: spec empty) -/
  staged : List (Nat × List Byte) := []
  /-- [2020.02] CommitStatus (R432; 8 bits; reset: spec 0) -/
  commitStatus : Nat := 0
  /-- [2020.04] StagedSelect (R446; 8 bits; reset: spec 0) -/
  stagedSelect : Nat := 0
  /-- [2030.01] LastDetail (R433; 16 bits; reset: spec 0) -/
  lastDetail : Nat := 0
  /-- [2030.02] LastAbort (R433; 32 bits; reset: spec 0) -/
  lastAbort : Nat := 0
  /-- [2030.03] LastObject (R433; 32 bits; reset: spec 0) -/
  lastObject : Nat := 0
  /-- [2030.04] RejectCount (R446; 32 bits; reset: spec 0) -/
  rejectCount : Nat := 0
  /-- [2C01.01] DescriptorSelect, per session (R322, R430; 8 bits; reset: spec 0) -/
  descriptorSelect : Nat := 0
  /-- [3101.01] TallySelect, per session (R422; 8 bits; reset: spec 0) -/
  tallySelect : Nat := 0
  /-- [3110.01] UserAddress, per session (R422; 16 bits; reset: spec 0) -/
  userAddress : Nat := 0
  /-- [3180.04] Cursor, per session (R421; 48 bits; reset: spec 0) -/
  cursor : Nat := 0
  /-- stored I3C response frame (R441; up to 278 bytes; reset: spec empty) -/
  response : List Byte := []
  /-- tag and check of the session's last served I3C request, with its response frame (R441; 8 + 32 bits, up to 278 bytes;
  reset: spec none) -/
  lastServed : Option (Nat × Nat × List Byte) := none
  /-- object key plus one of the segmented USDO transfer in progress on a CAN session; 0 none (R433, R435; reset: spec 0) -/
  segment : Nat := 0
  deriving DecidableEq, Repr

/-- Management ports: sessions, CAN node and I3C target. -/
structure Mgmt where
  /-- the 16 sessions (R430; reset: spec all free) -/
  sessions : Tab Session := []
  /-- filtered MAINT_EN_N input, true while low; [2000.06] (R428; 1 bit; reset: choice 2) -/
  maintEnable : Bool := false
  /-- refused level codes of each path in the present 60 s window (R429; reset: spec 0) -/
  refusals : Tab Nat := []
  /-- paths locked out of level requests until the window ends (R429; reset: spec none) -/
  lockedOut : Tab Bool := []
  /-- NMT state (R436; reset: spec Pre-operational after AON POR) -/
  nmt : Nmt := .preOperational
  /-- [2001.07] CAN error state: 0 active, 1 passive, 2 bus-off (R446; reset: spec 0) -/
  canError : Nat := 0
  /-- node-ID in use since the last reset communication (R436, R446; 7 bits; reset: spec 64) -/
  nodeId : Nat := 64
  /-- arbitration rate in use since the last reset communication (R446; reset: spec 2) -/
  arbitrationRate : Nat := 2
  /-- data rate in use since the last reset communication (R446; reset: spec 1) -/
  dataRate : Nat := 1
  /-- error history [1003], newest first, at most 8 entries of 32 bits (R438; reset: spec empty) -/
  errorHistory : List Nat := []
  /-- [1001] as it stood after the last command, to see it return to 0 (R438; 8 bits; reset: spec 0) -/
  errorSeen : Nat := 0
  /-- EMCY frames waiting for the inhibit time, oldest first, at most 8 (R438; reset: spec empty) -/
  emcyQueue : List (List Byte) := []
  /-- the EMCY inhibit time is running (R438; 1 bit; reset: spec 0) -/
  emcyInhibited : Bool := false
  /-- consumer heartbeat entries 1 to 4 whose node timed out (R437; reset: spec none) -/
  heartbeatLost : Tab Bool := []
  /-- SYNC messages since each TPDO was last sent on SYNC (R435; reset: spec 0) -/
  syncCount : Tab Nat := []
  /-- time base at which each TPDO was last sent, plus one; 0 never (R435 inhibit time; reset: spec 0) -/
  tpdoSent : Tab Nat := []
  /-- [2002.03] I3C dynamic address, 0 none (R440; 7 bits; reset: spec 0) -/
  dynamicAddress : Nat := 0
  /-- static address in use since the last RSTDAA (R440, R446; 7 bits; reset: spec 0x3A) -/
  staticAddress : Nat := 0x3A
  /-- [2002.06] value in use since the last RSTDAA (R440, R446; 4 bits; reset: spec 0) -/
  instanceId : Nat := 0
  /-- [2002.04] IBIs enabled by ENEC (R440; 1 bit; reset: spec 0) -/
  ibiEnabled : Bool := false
  /-- session field of the last I3C request frame (R441; reset: spec none) -/
  i3cLast : Option (Fin 4) := none
  /-- refusal held for the next read transfer of the path (R441; reset: spec empty) -/
  i3cRefusal : List Byte := []
  deriving DecidableEq, Repr

/-- What an item of the Folio queue writes (R402). -/
inductive FolioTask where
  /-- the closed shutdown record (class 1) -/
  | closedRecord
  /-- a key store update (class 2) -/
  | keyStore
  /-- the open shutdown record (class 2) -/
  | openRecord
  /-- parameter section s: update phase 0 to 4 of R406, sequence number and first copy (0 A, 1 B) once begun
  (class 2 for sections 9 to 15, class 3 for 0 to 9); phase 5 waits as phase 0 does, for an update that saves the layout
  objects alone (R490, class 2) -/
  | parameter (s phase seq copy : Nat)
  /-- a Ledger page (class 4) -/
  | ledger (records : List Nat)
  /-- a user page write (class 5) -/
  | userPage
  /-- one increment of a tally (class 6) -/
  | tally (i : Nat)
  /-- the repair of a torn tally cell (class 6) -/
  | tornCell (i j : Nat)
  deriving DecidableEq, Repr

/-- One queued Folio item: its class, its task and the page writes it still has to make, each an address and the
bytes from there (R400, R402). -/
structure FolioItem where
  /-- class 1 to 6 of R402 -/
  cls : Nat
  /-- what the item writes -/
  task : FolioTask
  /-- page writes still to make -/
  pages : List (Nat × List Byte)
  /-- a page write of the item has begun -/
  begun : Bool := false
  deriving DecidableEq, Repr

/-- The page write in progress (R400, R405). -/
structure PageJob where
  /-- address of the first byte written -/
  addr : Nat
  /-- the bytes written from there -/
  bytes : List Byte
  /-- the page write is the repeat after a failed read-back (R405) -/
  repeated : Bool := false
  /-- the item it belongs to, with the pages after this one -/
  item : FolioItem
  deriving DecidableEq, Repr

/-- The Folio store (R400). -/
structure Folio where
  /-- the 512 KiB array (R400; 8 bits each; reset: tally cells spec R412, the rest choice 3) -/
  bytes : Tab Byte := []
  /-- queued page-write items in the order requested (R402; reset: spec empty) -/
  queue : List FolioItem := []
  /-- the page write being programmed (R401; reset: spec none) -/
  running : Option PageJob := none
  /-- the end of the running epilogue has been reached (R403; 1 bit; reset: spec 1, no epilogue runs) -/
  epilogueOver : Bool := true
  /-- pending counts of the tallies (R414, R415; 16 bits each; reset: spec 0 but tally 152, the power-on resets) -/
  tallyPending : Tab Nat := [(152, 1)]
  /-- live content of parameter sections 9 to 15, by copy offset (R108, R252, R298, R420; reset: choice 3) -/
  image : Tab Byte := []
  deriving DecidableEq, Repr

/-- One Ledger record not yet in the Folio (R416, R417). -/
structure LedgerRecord where
  /-- sequence number (48 bits) -/
  seq : Nat
  /-- event code (16 bits) -/
  code : Nat
  /-- time base in ns (64 bits) -/
  time : Nat
  /-- data bytes 16 to 26 -/
  data : List Byte
  /-- flags byte 27 -/
  flags : Nat
  deriving DecidableEq, Repr

/-- One rate-limit tracker (R418). -/
structure Tracker where
  /-- the code it tracks -/
  code : Nat
  /-- records made in the present window -/
  made : Nat
  /-- events suppressed in the present window -/
  suppressed : Nat
  deriving DecidableEq, Repr

/-- The Ledger's registers in the always-on domain (R416 to R420). -/
structure Ledger where
  /-- clear mark M (R416; 48 bits; reset: spec 0 on a new Ledger) -/
  mark : Nat := 0
  /-- last sequence number assigned (R417; 48 bits; reset: spec 0, numbers start at 1) -/
  lastSeq : Nat := 0
  /-- pending buffer, in sequence order, at most 64 (R417; reset: spec empty) -/
  pending : List LedgerRecord := []
  /-- the trackers in use, at most 128 (R418; reset: spec free) -/
  trackers : List Tracker := []
  /-- events suppressed because no tracker was free (R418; reset: spec 0) -/
  sharedSuppressed : Nat := 0
  /-- [3180.09] LedgerFull (R419; 1 bit; reset: spec 0) -/
  full : Bool := false
  /-- a clear in progress with its mark M' (R420; reset: spec none) -/
  clearing : Option Nat := none
  /-- no record has been made since the always-on power-on reset (R416 flags bit 4; reset: spec 1) -/
  firstSincePor : Bool := true
  deriving DecidableEq, Repr

/-- One supply rail (R336 to R352). -/
structure RailRec where
  /-- enable output (R341; 1 bit; reset: spec 0) -/
  enabled : Bool := false
  /-- qualification count; none before the first high sample (R339; reset: spec none) -/
  count : Option Nat := none
  /-- chatter events since the enable edge (R340; reset: spec 0) -/
  chatter : Nat := 0
  /-- the rail is running (R345; 1 bit; reset: spec 0) -/
  running : Bool := false
  /-- the rail failed to start (R340; 1 bit; reset: spec 0) -/
  startFailed : Bool := false
  /-- a running fault holds on the rail (R345, R346; 1 bit; reset: spec 0) -/
  faulted : Bool := false
  /-- a power-good loss is being timed (R345; 1 bit; reset: spec 0) -/
  losing : Bool := false
  /-- consecutive samples outside the fault band (R346; reset: spec 0) -/
  bandRun : Nat := 0
  /-- consecutive samples above 115 % of nominal (R346; reset: spec 0) -/
  overRun : Nat := 0
  /-- a warn excursion is open (R346; 1 bit; reset: spec 0) -/
  excursion : Bool := false
  /-- the rail is being checked for discharge (R350; 1 bit; reset: spec 0) -/
  discharging : Bool := false
  /-- time base at the enable's falling edge (R350; reset: spec 0) -/
  fellAt : Nat := 0
  /-- last ADC sample in mV, [2E1n.07] (R353; 16 bits; reset: spec 0) -/
  voltage : Nat := 0
  /-- tPGQ in force since the enable edge, in ticks (R339, R360; 16 bits; reset: spec 66) -/
  qualify : Nat := 66
  /-- failed PMBus transactions in a row (R356; reset: spec 0) -/
  pmbusFails : Nat := 0
  /-- the regulator is unreachable (R356; 1 bit; reset: spec 0) -/
  unreachable : Bool := false
  /-- the regulator's VOUT_MODE is LINEAR16 (R356; 1 bit; reset: spec 1) -/
  linear : Bool := true
  deriving DecidableEq, Repr

/-- Where a media domain stands in its start or stop (R341, R348, R351). -/
inductive DomainPhase where
  | off | stagger | stageA | stageB | good | stopping
  deriving DecidableEq, Repr

/-- One media power domain. -/
structure DomainRec where
  /-- start or stop phase (R341; reset: spec off) -/
  phase : DomainPhase := .off
  /-- the domain was lost in this run (R348; 1 bit; reset: spec 0) -/
  lost : Bool := false
  /-- a restart under R351 is in progress (1 bit; reset: spec 0) -/
  restarting : Bool := false
  /-- MD{k}_RST_N is driven low (R341; 1 bit; reset: spec 1) -/
  resetLow : Bool := true
  deriving DecidableEq, Repr

/-- The supervisor (R336 to R359). -/
structure Power where
  /-- the 30 rails (R336, R337; reset: spec off but the VAON branch enabled) -/
  rails : Tab RailRec := [(5, { enabled := true })]
  /-- the 8 media domains (R341; reset: spec off) -/
  domains : Tab DomainRec := []
  /-- device stage of the start order in progress: 0 none, 1 to 4, 5 ended (R341; reset: spec 0) -/
  deviceStage : Nat := 0
  /-- consecutive failed starts (R344; reset: spec 0) -/
  failedStarts : Nat := 0
  /-- [2E00.0E] start lockout (R344; 1 bit; reset: spec 0) -/
  lockout : Bool := false
  /-- next step of the stop order; none while no stop runs (R349; reset: spec none) -/
  stopStep : Option Nat := none
  /-- the stop order runs for a start that ended, not for a shutdown (R343; 1 bit; reset: spec 0) -/
  stopForStart : Bool := false
  /-- VIN comparator reports good (R355; 1 bit; reset: choice 2) -/
  vinGood : Bool := false
  /-- last VIN sample in mV, [2E40.01] (R353; 16 bits; reset: spec 0) -/
  vin : Nat := 0
  /-- ADC in fault, [2E40.02] (R354; 1 bit; reset: spec 0) -/
  adcFault : Bool := false
  /-- reference check outside tolerance at the last rotation (R354; 1 bit; reset: spec 0) -/
  refBad : Bool := false
  /-- zero check outside tolerance at the last rotation (R354; 1 bit; reset: spec 0) -/
  zeroBad : Bool := false
  /-- last reference check, ADC codes (R354; reset: choice 2) -/
  refCheck : Nat := 0
  /-- last zero check, ADC codes (R354; reset: choice 2) -/
  zeroCheck : Nat := 0
  /-- [2E01.03] margin state and the margined rail (R357; reset: spec 0) -/
  marginState : Nat := 0
  /-- the rail margined while marginState is not 0 (R357; reset: spec 0) -/
  marginRail : Nat := 0
  /-- ISO_G on (R115; 1 bit; reset: choice 2) -/
  isoOn : Bool := false
  /-- PFW_N driven low (R363, R371; 1 bit; reset: choice 2) -/
  pfwLow : Bool := true
  /-- EN_AON (R337; 1 bit; reset: spec 1) -/
  enAon : Bool := true
  deriving DecidableEq, Repr

/-- Stages of the first measurement of the bank (R120). -/
inductive RampStage where
  /-- no ramp runs -/
  | none
  /-- bleeding below 2.0 V before a ramp after ReserveEnable (R133) -/
  | bleeding
  /-- charging to 2.0 V, or timing 2.0 V to 4.0 V with this many samples taken -/
  | ramp (samples : Option Nat)
  /-- the 1 ms hold at 4.0 V with t_24 in µs -/
  | hold (t24 : Nat)
  /-- partly charged: charging to 4.0 V without a ramp measurement -/
  | partly
  /-- the sink measurement of the charged case -/
  | sink
  deriving DecidableEq, Repr

/-- Stages of a measurement (R121). -/
inductive MeasureStage where
  | idle | started | sinking
  deriving DecidableEq, Repr

/-- The reserve manager (R113 to R133). -/
structure Reserve where
  /-- last VRES sample in mV, [2400.09] (R353; 16 bits; reset: spec 0) -/
  vres : Nat := 0
  /-- the last ten 100 µs samples, newest first (R123; reset: spec none) -/
  samples : List Nat := []
  /-- last measured C in µF (R116, R121; 32 bits; reset: spec 0) -/
  c1 : Nat := 0
  /-- the measurement before it (R116; 32 bits; reset: spec 0) -/
  c2 : Nat := 0
  /-- a measurement has ended since power-on (R116; 1 bit; reset: spec 0) -/
  measured : Bool := false
  /-- last measured ESR in 0.1 mΩ (R121; 16 bits; reset: spec 0) -/
  esr : Nat := 0
  /-- status of R122 (reset: spec 1) -/
  status : Nat := 1
  /-- CHG_EN (R114; 1 bit; reset: spec 0) -/
  chgEn : Bool := false
  /-- CHG_ISET: its PWM duty is this current in mA over 2,000 mA (R114; reset: spec the default of [2400.02]) -/
  chgIset : Nat := 500
  /-- BLEED_EN (R119; 1 bit; reset: spec 1 in Standby) -/
  bleedEn : Bool := true
  /-- the internal 200 mA sink is connected (R121; 1 bit; reset: spec 0) -/
  sinkOn : Bool := false
  /-- stage of the first measurement (R120; reset: spec none) -/
  ramp : RampStage := .none
  /-- stage of a measurement (R121; reset: spec idle) -/
  measure : MeasureStage := .idle
  /-- a measurement occasion waits (R121; 1 bit; reset: spec 0) -/
  occasion : Bool := false
  /-- v frozen by a measurement, in mV (R121; reset: spec none) -/
  frozenV : Option Nat := none
  /-- highest die temperature at the last measurement, 0.1 °C (R121; reset: spec none) -/
  measuredAt : Option Int := none
  /-- write-through hysteresis of R124 (1 bit; reset: spec 1) -/
  wt : Bool := true
  /-- the formula's value n at the last publication was at or above the cap (R489; 1 bit; reset: spec 0) -/
  aboveCap : Bool := false
  /-- published budget B, [2400.0F] (R124; 32 bits; reset: spec 0) -/
  budget : Nat := 0
  /-- device share S_dev, [2400.10] (R126; reset: spec 0) -/
  deviceShare : Nat := 0
  /-- port shares S_p, [2411] (R126; reset: spec 0) -/
  portShare : Tab Nat := []
  /-- charges booked against the device share, [2400.11] (R26; reset: spec 0) -/
  deviceCharge : Nat := 0
  /-- charges booked against each port share, [2412] (R26; reset: spec 0) -/
  portCharge : Tab Nat := []
  /-- B and the shares are frozen from entry to Warn (R125; 1 bit; reset: spec 0) -/
  frozen : Bool := false
  /-- the device is in write-through mode, [2400.12] (R130; 1 bit; reset: spec 1) -/
  writeThrough : Bool := true
  /-- warn window in force in µs, taken from [2F00.03] at the last publication of B (R381; 16 bits; reset: spec 200) -/
  warnWindow : Nat := 200
  /-- [2400.13] time base at the last measurement, ns (R133; 64 bits; reset: spec 0) -/
  lastMeasure : Nat := 0
  deriving DecidableEq, Repr

/-- The thermal unit and the clocks (R382 to R398). -/
structure Thermal where
  /-- sensor readings of the last scan, 0.1 °C (R390; 16 bits each; reset: choice 2, 0) -/
  readings : Tab Int := []
  /-- unusable sensors (R391; reset: spec none) -/
  unusable : Tab Bool := []
  /-- consecutive scans each sensor differed from its zone median (R391; reset: spec 0) -/
  badScans : Tab Nat := []
  /-- T_die of the last scan, 0.1 °C (R390; 16 bits; reset: spec the default 40 of [2400.15], R133) -/
  tDie : Int := 400
  /-- thermal level 0 to 3 (R393; reset: spec 0) -/
  level : Nat := 0
  /-- thermal fault (R391; 1 bit; reset: spec 0) -/
  fault : Bool := false
  /-- consecutive scans at or above the absolute limit (R395; reset: spec 0) -/
  limitScans : Nat := 0
  /-- rise flag, [3010.0C] (R397; 1 bit; reset: spec 0) -/
  rising : Bool := false
  /-- sum of T_die over the scans of the present rise window (R397; reset: spec 0) -/
  riseSum : Int := 0
  /-- scans in the present rise window (R397; reset: spec 0) -/
  riseScans : Nat := 0
  /-- sum of T_die and scans of the window before (R397; reset: spec none) -/
  riseBefore : Option (Int × Nat) := none
  /-- time base at entry to level 2 (R394; reset: spec 0) -/
  throttledAt : Nat := 0
  /-- [3000.03] clock source: crystal in use (R382; 1 bit; reset: spec 0) -/
  crystal : Bool := false
  /-- the crystal was lost and is not tried before the next AON POR (R382; 1 bit; reset: spec 0) -/
  crystalLost : Bool := false
  /-- ClockSourceSelect in force since AON POR (R382, R399; reset: spec 1) -/
  sourceSelect : Nat := 1
  /-- sleep level of each group: 0 awake, 1 light, 2 deep, 3 leaving deep (R18, R19; reset: spec 0) -/
  sleep : Tab Nat := []
  /-- time base at entry to deep sleep of each group (R399; reset: spec 0) -/
  sleptAt : Tab Nat := []
  /-- groups in a maintenance wake (R387; reset: spec none) -/
  maintenance : Tab Bool := []
  /-- groups at stack level 2 (R398; reset: spec none) -/
  stackHot : Tab Bool := []
  deriving DecidableEq, Repr

/-- Device state, time base, start and shutdown sequences (R4, R361 to R381, R386). -/
structure Sys where
  /-- device state, [2000.01] (R4; reset: spec Standby) -/
  dev : DeviceState := .standby
  /-- time base in 1/64 ns (R386; 64 + 6 bits; reset: spec 0) -/
  time : Nat := 0
  /-- time base at entry to the present state (R446 [2000.03]; reset: spec 0) -/
  since : Nat := 0
  /-- values still in force of settings whose write takes effect later: 256 × index + subindex → value (R87, R112; reset: spec
  none) -/
  inForce : Tab (Option Nat) := []
  /-- the factory fuse map: 16 × bank + spare row → failed row + 1 (R108; reset: choice 109, no spare row assigned) -/
  fuseRows : Tab Nat := []
  /-- the core PLL runs (R385, R386; 1 bit; reset: spec 0) -/
  corePll : Bool := false
  /-- start mode, [2F00.01], always-on (R23, R381; reset: spec 0) -/
  startMode : Nat := 0
  /-- start mode of the present run (R21; reset: spec 0) -/
  runMode : Nat := 0
  /-- step of the start-up timeline, 3 to 9, 10 once the self-test has passed; 0 outside Priming (R361; reset: spec 0) -/
  step : Nat := 0
  /-- time base at the beginning of the step (R361; reset: spec 0) -/
  stepAt : Nat := 0
  /-- time base at entry to Priming (R381 [2F00.07]; reset: spec 0) -/
  primedAt : Nat := 0
  /-- the Folio recall scan runs (R365; 1 bit; reset: spec 0) -/
  recalling : Bool := false
  /-- Memory_Active has been set in this run (R363; 1 bit; reset: spec 0) -/
  memoryActive : Bool := false
  /-- cause of Recovery found so far in Priming: 0 none (R368, R379; reset: spec 0) -/
  recoveryCause : Nat := 0
  /-- region state was loaded from anchors (R374, R379; 1 bit; reset: spec 0) -/
  anchorsLoaded : Bool := false
  /-- a restart request latched in Priming (R359; 1 bit; reset: spec 0) -/
  restartLatched : Bool := false
  /-- 0x300A was recorded in this Standby (R396; 1 bit; reset: spec 0) -/
  heldByHeat : Bool := false
  /-- ports that recorded 0x2F0A in this Priming (R363; reset: spec none) -/
  earlyAccess : Tab Bool := []
  /-- the open record of the run is complete (R364; 1 bit; reset: spec 0) -/
  openRecordDone : Bool := false
  /-- n of this run, [2F00.0D] (R376; 64 bits; reset: spec 0) -/
  shutdownSeq : Nat := 0
  /-- cause of the present or last Warn (R371; reset: spec 0) -/
  warnCause : Nat := 0
  /-- state the warning was entered from (R372; reset: choice 2) -/
  warnFrom : DeviceState := .standby
  /-- time base at entry to Warn (R376; reset: spec 0) -/
  warnAt : Nat := 0
  /-- quiesce has begun (R373; 1 bit; reset: spec 0) -/
  quiescing : Bool := false
  /-- Varnish item in progress: 0 none, 1 Easel, 2 Palette, 3 journal, 4 closing checkpoints (R374; reset: spec 0) -/
  varnishItem : Nat := 0
  /-- time base at the beginning of Varnish (R376; reset: spec 0) -/
  varnishAt : Nat := 0
  /-- tiles programmed by Varnish (R376; 32 bits; reset: spec 0) -/
  varnishTiles : Nat := 0
  /-- Varnish time in µs (R376; 16 bits; reset: spec 0) -/
  varnishTime : Nat := 0
  /-- outcome of Varnish (R374; reset: spec 0) -/
  varnishOutcome : Nat := 0
  /-- a group was fenced during the sequence (R374; 1 bit; reset: spec 0) -/
  fencedInWarn : Bool := false
  /-- E at entry to Varnished (R376; 32 bits; reset: spec 0) -/
  varnishedEpoch : Nat := 0
  /-- a core brown-out has held the core and Easel logic in reset in this run (R347; 1 bit; reset: spec 0) -/
  coreLost : Bool := false
  /-- closed record of this shutdown is complete (R403; 1 bit; reset: spec 0) -/
  closedDone : Bool := false
  /-- [2F00.06] SelfTestResult (R370; 16 bits; reset: spec 0) -/
  selfTest : Nat := 0
  /-- [2F00.07] LastStartTime in µs (R381; 32 bits; reset: spec 0) -/
  lastStartTime : Nat := 0
  /-- [2F00.08] LastShutdownCause (R381; reset: spec 0) -/
  lastCause : Nat := 0
  /-- [2F00.09] LastVarnishOutcome (R381; reset: spec 0xFF) -/
  lastOutcome : Nat := 0xFF
  /-- [2F00.0A] LastVarnishTime (R381; reset: spec 0) -/
  lastVarnishTime : Nat := 0
  /-- [2F00.0B] LastVarnishTiles (R381; reset: spec 0) -/
  lastVarnishTiles : Nat := 0
  /-- [2F00.0C] LastEpilogue (R381; reset: spec 0xFF) -/
  lastEpilogue : Nat := 0xFF
  /-- newest valid shutdown record as recall found it: sequence, state and outcome (R378; reset: spec none) -/
  newestRecord : Option (Nat × Nat × Nat) := none
  /-- the last shutdown was judged dirty in this Priming (R378; 1 bit; reset: spec 0) -/
  judgedDirty : Bool := false
  /-- the counter tree must be re-anchored after Memory Active, with the cause of 0x2706 (R198; reset: spec none) -/
  reanchor : Option Nat := none
  /-- [2F00.0F] ScratchSize in units of 256 MiB (R379; reset: spec 0) -/
  scratchSize : Nat := 0
  /-- [3300.01] LifeUsed as last recomputed, in per cent (R475; 8 bits; reset: spec recomputed) -/
  lifeUsed : Nat := 0
  deriving DecidableEq, Repr

/-- What a tile holds, by the address field it carries (R37). -/
inductive TileId where
  /-- a host line, by line address -/
  | host (line : Nat)
  /-- counter tile c of the sealed index space (R191) -/
  | counter (c : Nat)
  /-- tree node n of level l (R191) -/
  | node (l n : Nat)
  /-- remap table tile t of region p of group g (R81) -/
  | remap (g p t : Nat)
  /-- anchor tile at patch address a of group g (R366) -/
  | anchor (g a : Nat)
  /-- journal tile with sequence number q of group g (R84) -/
  | journal (g q : Nat)
  deriving DecidableEq, Repr

/-- One entry of a region table (R65). -/
structure RegionEntry where
  /-- V: the entry is mapped (1 bit) -/
  mapped : Bool := false
  /-- M: a move of the logical region is in progress (1 bit) -/
  moving : Bool := false
  /-- physical region (15 bits) -/
  phys : Nat := 0
  deriving DecidableEq, Repr

/-- One region state entry (R66). -/
structure RegionRec where
  /-- start/gap start (20 bits) -/
  start : Nat := 0
  /-- gap slot (21 bits) -/
  gap : Nat := 1048576
  /-- writes since the last step request (10 bits) -/
  count : Nat := 0
  /-- Feistel region key (16 bits) -/
  key : Nat := 0
  /-- logical region held (15 bits) -/
  owner : Nat := 0
  /-- activity count (8 bits) -/
  heat : Nat := 0
  /-- RB: a column is marked rebuilding for the region (1 bit) -/
  rb : Bool := false
  /-- MD: holds a metadata region (1 bit) -/
  md : Bool := false
  /-- SW: destination of a move (1 bit) -/
  sw : Bool := false
  /-- RT: retired (1 bit) -/
  rt : Bool := false
  /-- FR: in the free list or a journal region (1 bit) -/
  fr : Bool := false
  /-- HR: has remaps (1 bit) -/
  hr : Bool := false
  deriving DecidableEq, Repr

/-- A region move in progress (R76). -/
structure MoveRec where
  /-- 1 swap first half, 2 swap second half, 3 march, 4 retirement (R366) -/
  kind : Nat
  /-- logical region moving -/
  logical : Nat
  /-- source physical region -/
  src : Nat
  /-- destination physical region -/
  dst : Nat
  /-- move pointer -/
  pointer : Nat := 0
  /-- tiles of the present batch copied -/
  copied : Nat := 0
  /-- hot region of a swap, moved in the second half -/
  partner : Nat := 0
  deriving DecidableEq, Repr

/-- A gap step between its locked sequence and its commit (R72). -/
structure GapJob where
  /-- physical region -/
  region : Nat
  /-- source slot -/
  src : Nat
  /-- destination slot -/
  dst : Nat
  /-- codeword to program, 96 symbols; empty where the source is unused (R491) -/
  code : List Byte
  deriving DecidableEq, Repr

/-- A patch to be remapped, or its spare program in flight (R57, R83). -/
structure RemapJob where
  /-- column -/
  column : Nat
  /-- physical region -/
  region : Nat
  /-- slot in the region -/
  slot : Nat
  /-- spare index taken; none while only nominated -/
  spare : Option Nat := none
  /-- the patch to program -/
  patch : Patch := 0
  /-- the codeword of a poison tile, renewed as a whole (R41); empty where the other patches stay as they are -/
  code : List Byte := []
  deriving DecidableEq, Repr

/-- One drift entry (R219). -/
structure DriftRec where
  /-- E mod 256 when the swatch tiles were last written (8 bits) -/
  visit : Nat := 0
  /-- measured centre referred to 40 °C (6 bits) -/
  centre : Nat := 0
  /-- window half-width (4 bits) -/
  half : Nat := 0
  /-- bucket of the swatch age at measurement (3 bits) -/
  bucket : Nat := 0
  /-- MV: measurement valid -/
  mv : Bool := false
  /-- ST: stale -/
  st : Bool := false
  /-- NW: no window at the last measurement -/
  nw : Bool := false
  /-- stack temperature at measurement + 40 (8 bits) -/
  tm : Nat := 0
  deriving DecidableEq, Repr

/-- A Retouch region pass in progress (R220). -/
structure PassRec where
  /-- physical region -/
  region : Nat
  /-- next offset; 2^20 to 2^20 + 15 are the remap table tiles -/
  offset : Nat := 0
  /-- the region has been measured in this pass -/
  measured : Bool := false
  /-- a tile at or above the age limit was reported in this pass (R223) -/
  late : Bool := false
  deriving DecidableEq, Repr

/-- A checkpoint in progress (R367). -/
structure CheckRec where
  /-- its generation g -/
  gen : Nat
  /-- payload of the header, fixed in the snapshot cycle -/
  header : List Byte
  /-- the header has been issued -/
  headerOut : Bool := false
  /-- a closing checkpoint (R374) -/
  closing : Bool := false
  deriving DecidableEq, Repr

/-- A journal tile whose program runs (R84, R330, R466). -/
structure JournalOut where
  /-- sequence number -/
  seq : Nat
  /-- patch address -/
  addr : Nat
  /-- codeword -/
  code : List Byte
  /-- JQ words it holds -/
  words : Nat
  /-- it carries the StaleColumn record -/
  stale : Bool := false
  /-- its frames are out -/
  sent : Bool := false
  /-- it carries a Checkpoint record after which the committer drops this many older words (R333) -/
  drop : Nat := 0
  deriving DecidableEq, Repr

/-- One page of a sealed range under re-encryption (R195). -/
structure PageJob2 where
  /-- counter index c -/
  c : Nat
  /-- the old counter tile payload -/
  old : Line
  /-- step 1 has begun -/
  begun : Bool := false
  /-- the lines have been read and their new codewords stand in `codes` -/
  ready : Bool := false
  /-- tiles booked against the device share -/
  booked : Nat := 0
  /-- new codewords of the page's lines, by line address -/
  codes : List (Nat × List Byte) := []
  deriving DecidableEq, Repr

/-- What a request of a group bus puts on it (R261, R267). -/
inductive BusOp where
  /-- one lockstep RD with the reference code of each column; SRD where R239 allows it for a read that is `shifted` -/
  | read (codes : List Nat) (shifted : Bool)
  /-- one lockstep PRG of a codeword; write-through or not (R241) -/
  | program (code : List Byte) (through : Bool)
  /-- another frame -/
  | other (opcode fields : Nat)
  /-- a locked sequence of so many slots on a physical region -/
  | lock (slots region : Nat)
  deriving DecidableEq, Repr

/-- A request as the arbiter judges it (R259, R261 to R263). -/
structure BusRequest where
  /-- the request line -/
  ask : ArbRequest
  /-- position of its requester -/
  position : Nat
  /-- member of the aged set -/
  aged : Bool := false
  /-- a retry of R50 or R52 -/
  retry : Bool := false
  /-- arrival time of the host request it serves -/
  arrival : Nat := 0
  /-- who that request came from: ports 0 to 3, 4 the Barrow or none -/
  source : Nat := 4
  /-- columns that take its frames -/
  cols : List Nat
  /-- patch address in each column -/
  addrs : List Nat := []
  /-- patch addresses that a locked sequence programs -/
  also : List Nat := []
  /-- its frames -/
  op : BusOp
  deriving DecidableEq, Repr

/-- An engine's program whose result the stacks may still report (R243, R244). -/
structure EngineProgram where
  /-- physical region and slot; none for an anchor tile -/
  slot : Option (Nat × Nat)
  /-- patch address in each column -/
  addrs : List Nat
  /-- codeword -/
  code : List Byte
  /-- time of its frames -/
  issued : Nat
  deriving DecidableEq, Repr

/-- A read that a bank runs (R240). -/
structure BankRead where
  /-- column -/
  column : Nat
  /-- bank -/
  bank : Nat
  /-- slot of its first DQ beat -/
  slot : Nat
  deriving DecidableEq, Repr

/-- An RSM frame due (R265). -/
structure ResumeRec where
  /-- column -/
  column : Nat
  /-- bank -/
  bank : Nat
  /-- earliest slot R241 allows after the reads made meanwhile -/
  earliest : Nat
  /-- slot at which a program into the suspended bank is complete at the latest; none when there is none, or it has ended (R241, R244) -/
  second : Option Nat := none
  /-- a locked sequence has delayed it -/
  delayed : Bool := false
  deriving DecidableEq, Repr

/-- A locked sequence (R267). -/
structure LockRec where
  /-- requester position -/
  position : Nat
  /-- slots it has run -/
  run : Nat := 0
  /-- slots it asks for -/
  slots : Nat
  /-- its physical region -/
  region : Nat
  deriving DecidableEq, Repr

/-- The arbiter of a group (R259 to R272). -/
structure Arbiter where
  /-- slot number of the slot in progress (R260) -/
  slot : Nat := 0
  /-- rotating pointer, [2A10.12] (R262; reset: spec 0) -/
  pointer : Nat := 0
  /-- active ranks by position, [2A02] (R271; reset: spec the defaults of [2A01]) -/
  ranks : List Nat := [0, 1, 2, 2, 4, 5, 5, 6, 7]
  /-- committed ranks not active before the next phase (R271; reset: spec none) -/
  shadow : Option (List Nat) := none
  /-- booked DQ slots (R261; reset: spec none) -/
  dq : List Nat := []
  /-- reserved CA slots with the deferred frame's request (R264; reset: spec none) -/
  reserved : List (Nat × BusRequest) := []
  /-- RSM frames due (R265; reset: spec none) -/
  resumes : List ResumeRec := []
  /-- locked sequence in progress (R267; reset: spec none) -/
  lock : Option LockRec := none
  /-- consecutive slots with no request (R18; reset: spec 0) -/
  quiet : Nat := 0
  /-- request granted the next slot, its frames not yet out (R260, R269; reset: spec none) -/
  granted : Option BusRequest := none
  /-- reads that banks run (R240; reset: spec none) -/
  reads : List BankRead := []
  /-- in-bank index + 1 of the last RD or SRD by 256 × column + bank, while it is the bank's last frame (R239; reset: spec none) -/
  latched : Tab Nat := []
  deriving DecidableEq, Repr

/-- One channel group: mapper, engines, journal and arbiter. -/
structure GroupRec where
  /-- group type: 0 JT192, 1 JT384 (R253; reset: choice 13, 1) -/
  typ : Nat := 1
  /-- fenced (R31, R370; 1 bit; reset: spec 0) -/
  fenced : Bool := false
  /-- region table (R65; 17 bits an entry; reset: spec loaded in Priming) -/
  table : Tab RegionEntry := []
  /-- region state (R66; 96 bits an entry; reset: spec loaded in Priming) -/
  regions : Tab RegionRec := []
  /-- regions fenced by an uncorrectable entry (R67; reset: spec none) -/
  regionFences : Tab Bool := []
  /-- free list, head first (R78; 15 bits an entry; reset: spec loaded in Priming) -/
  free : List Nat := []
  /-- journal regions held, newest first, at most four (R78; reset: spec loaded in Priming) -/
  journals : List Nat := []
  /-- step queue, at most 64 (R71; reset: spec empty) -/
  steps : List Nat := []
  /-- hot pointer (R75; 15 bits; reset: spec loaded in Priming) -/
  hot : Nat := 0
  /-- cold pointer (R75; 15 bits; reset: spec loaded in Priming) -/
  cold : Nat := 0
  /-- region move in progress (R76; reset: spec none) -/
  move : Option MoveRec := none
  /-- gap step in progress (R72; reset: spec none) -/
  gapJob : Option GapJob := none
  /-- remap in progress (R83; reset: spec none) -/
  remapJob : Option RemapJob := none
  /-- nominated patches, oldest first (R57; reset: spec none) -/
  nominations : List RemapJob := []
  /-- regions to be retired, oldest first, each with the patch that cannot be remapped (R80; reset: spec none) -/
  retiring : List RemapJob := []
  /-- spare pointers by column (R83; 31 bits; reset: spec loaded in Priming) -/
  spares : Tab Nat := []
  /-- sequence number of the next journal tile (R84; 64 bits; reset: spec loaded in Priming) -/
  journalSeq : Nat := 0
  /-- slot of the next journal tile in the current journal region (R84; 21 bits; reset: spec loaded in Priming) -/
  journalSlot : Nat := 0
  /-- journal tiles written since the last checkpoint (R367; reset: spec 0) -/
  journalTiles : Nat := 0
  /-- journal tiles whose programs run, oldest first (R84, R330; reset: spec none) -/
  journalOut : List JournalOut := []
  /-- programs of the group's engines whose results the stacks may still report (R243, R244; reset: spec none) -/
  engineOut : List EngineProgram := []
  /-- time of the last request that the group served (R19; reset: spec 0) -/
  requestAt : Nat := 0
  /-- frame + 1 last sent to a column that was neither a read nor a program; 0 none (R245; 48 bits; reset: spec none) -/
  sent : Tab Nat := []
  /-- that frame has been sent once more (R245; 1 bit; reset: spec 0) -/
  resent : Tab Bool := []
  /-- StaleColumn record handed to the committer and not yet written: column (R466; reset: spec none) -/
  staleRecord : Option Nat := none
  /-- programs of the group are held until the StaleColumn tile is complete (R466; 1 bit; reset: spec 0) -/
  staleHold : Bool := false
  /-- time the oldest JQ word not yet in a tile was pushed (R84; reset: spec 0) -/
  journalSince : Nat := 0
  /-- newest complete anchor generation, [2F10] (R366; 64 bits; reset: spec 0) -/
  generation : Nat := 0
  /-- checkpoint in progress (R367; reset: spec none) -/
  checkpoint : Option CheckRec := none
  /-- the closing checkpoint of this shutdown is complete (R374; 1 bit; reset: spec 0) -/
  closed : Bool := false
  /-- a checkpoint trigger waits (R367; 1 bit; reset: spec 0) -/
  checkpointDue : Bool := false
  /-- drift table (R219; 32 bits an entry; reset: spec rebuilt in Priming) -/
  drift : Tab DriftRec := []
  /-- recent-write filter F_cur (R212; 2^20 bits; reset: spec 0) -/
  filterCur : Tab Bool := []
  /-- recent-write filter F_prev (R212; 2^20 bits; reset: spec 0) -/
  filterPrev : Tab Bool := []
  /-- region pass in progress (R220; reset: spec none) -/
  pass : Option PassRec := none
  /-- regions queued as urgent (R218, R223; reset: spec none) -/
  urgent : List Nat := []
  /-- deep reads queued, oldest first, at most 64 (R51; reset: spec none) -/
  deepReads : List TileId := []
  /-- destinations whose swatch tiles wait (R224; reset: spec none) -/
  swatchDue : List Nat := []
  /-- highest stack temperature of the current epoch (R221; reset: spec none) -/
  tempCur : Option Int := none
  /-- highest stack temperature of the epoch before (R221; reset: spec none) -/
  tempPrev : Option Int := none
  /-- 0x2808 was recorded for the present lack of temperatures (R221; 1 bit; reset: spec 0) -/
  blind : Bool := false
  /-- stale column (R466; reset: spec none) -/
  stale : Option Nat := none
  /-- rebuild in progress: physical region and pointer (R468; reset: spec none) -/
  rebuild : Option (Nat × Nat) := none
  /-- time base at which the first rebuild pass for the stale column began (R469; reset: spec none) -/
  rebuildAt : Option Nat := none
  /-- destage queue: class and Easel place, in order, at most 64 (R100; reset: spec empty) -/
  destages : List (Nat × Nat) := []
  /-- class-1 lines waiting for a place in the queue (R100; reset: spec empty) -/
  destageWait : List Nat := []
  /-- pages queued for re-encryption or in it (R195; reset: spec none) -/
  pages : List PageJob2 := []
  /-- tile programs of the group in the present program unit (R474; 36 bits; reset: spec 0) -/
  programs : Nat := 0
  /-- the arbiter -/
  arb : Arbiter := {}
  deriving DecidableEq, Repr

/-- One line of the Easel: tag word of R90, data, and the charge it carries. -/
structure EaselLine where
  /-- tag T (20 bits) -/
  tag : Nat := 0
  /-- version of the medium copy (24 bits) -/
  version : Nat := 0
  /-- VK -/
  vk : Bool := false
  /-- V -/
  valid : Bool := false
  /-- D -/
  dirty : Bool := false
  /-- P -/
  poison : Bool := false
  /-- M -/
  merge : Bool := false
  /-- F -/
  flight : Bool := false
  /-- W -/
  written : Bool := false
  /-- Q -/
  queued : Bool := false
  /-- share that carries the charge (2 bits) -/
  share : Nat := 0
  /-- stamp (4 bits) -/
  stamp : Nat := 0
  /-- L -/
  fill : Bool := false
  /-- the 64 bytes, in the clear -/
  data : Line := 0
  /-- tiles charged (R94); the model's place for it -/
  charge : Nat := 0
  /-- the charge stands against the device share (R200) -/
  onDevice : Bool := false
  /-- port and tick of the first write since the snapshot (R101) -/
  writer : Nat := 0
  /-- stamp of that write -/
  restamp : Nat := 0
  deriving DecidableEq, Repr

/-- Who asked for a line (R157, R161, R289, R294). -/
inductive Requester where
  /-- a host request with its tag -/
  | host (port : Nat) (tag : Nat)
  /-- a Barrow beat: channel, load serial and beat number -/
  | barrow (channel load beat : Nat)
  /-- Scan Media of a port -/
  | scan (port : Nat)
  /-- Clear Poison of a port (R292) -/
  | clear (port : Nat)
  deriving DecidableEq, Repr

/-- A read waiting for its line (R157). -/
structure ReadWait where
  /-- line address -/
  line : Nat
  /-- requester -/
  who : Requester
  /-- MetaValue to return: 0 I, 1 S, 2 A (R285) -/
  metaValue : Nat := 0
  /-- order at the bank (R168); the model's own number -/
  seq : Nat := 0
  /-- bytes of the line that writes ordered before the read had already put into it (R169) -/
  overMask : BitVec 64 := 0
  /-- those bytes -/
  overData : Line := 0
  /-- time of arrival (R165) -/
  arrival : Nat := 0
  /-- warm at arrival (R156) -/
  warm : Bool := true
  /-- served as a bypass read (R158) -/
  bypass : Bool := false
  deriving DecidableEq, Repr

/-- A read of a tile on a group bus, from request to delivery (R157, R158, R104). -/
structure ReadRec where
  /-- line address -/
  line : Nat
  /-- 0 fill, 1 bypass read, 2 refill of the scrubber -/
  kind : Nat
  /-- Easel place of a fill -/
  place : Nat := 0
  /-- re-reads made under R50 and R52 -/
  retries : Nat := 0
  /-- the re-read of R52 was made -/
  misdirected : Bool := false
  /-- a decode has failed, so a good one is a recovery (R57) -/
  failed : Bool := false
  /-- retry limit and nomination threshold in force when the read began to decode (R58); none before -/
  latch : Option (Nat × Nat) := none
  /-- retries that the remap table tile fetched before it took from the series' limit (R160) -/
  spent : Nat := 0
  /-- the fill is not to be installed (R96, R492) -/
  dead : Bool := false
  /-- joined no more: a write to the line has allocated since (R158) -/
  closed : Bool := false
  /-- requesters of a bypass read, or of a dead fill -/
  readers : List ReadWait := []
  /-- corrected content waiting for its counter (R159): 80 bytes -/
  content : List Byte := []
  /-- arrival time (R165) -/
  arrival : Nat := 0
  /-- reference codes of the first read by column (R211, R228); empty before the read is issued -/
  base : List Nat := []
  /-- reference codes of the next read by column (R214, R228) -/
  codes : List Nat := []
  /-- bucket that a corrected and refused content gave (R214) -/
  bucket : Option Nat := none
  /-- the group has granted the read (R262) -/
  granted : Bool := false
  deriving DecidableEq, Repr

/-- A write as it arrived (R93, R174). -/
structure WriteReq where
  /-- line address -/
  line : Nat
  /-- requester -/
  who : Requester
  /-- port whose share carries the charge -/
  port : Nat
  /-- byte mask, all ones for a full-line write -/
  mask : BitVec 64
  /-- data -/
  data : Line
  /-- the data carries poison (R492) -/
  poison : Bool := false
  /-- order at the bank (R168); the model's own number -/
  seq : Nat := 0
  /-- a snoop round of the line must end before the acknowledgement (R163) -/
  snoop : Bool := false
  /-- a snoop round adds to its threshold (R179) -/
  snooped : Bool := false
  /-- MetaValue of the request: 0 I, 1 S, 2 A (R285) -/
  metaValue : Nat := 0
  /-- time of arrival -/
  arrival : Nat := 0
  /-- warm at arrival -/
  warm : Bool := true
  deriving DecidableEq, Repr

/-- A write taken in and not acknowledged before an event (R163, R164, R199). -/
structure AckWait where
  /-- line address -/
  line : Nat
  /-- requester -/
  who : Requester
  /-- waits for the line's destage (R94) -/
  destage : Bool := false
  /-- the copy of the destage in flight holds this write (R101) -/
  copied : Bool := false
  /-- waits for the writeback of this counter tile (R199) -/
  counter : Option Nat := none
  /-- the writeback in flight carries that counter -/
  back : Bool := false
  /-- waits for the snoop round of the line (R163) -/
  snoop : Bool := false
  /-- a spare program was part of it (R166) -/
  spare : Bool := false
  /-- the snoop round added to its threshold (R179) -/
  snooped : Bool := false
  /-- write-through acknowledgement -/
  through : Bool := false
  /-- sealed -/
  isSealed : Bool := false
  /-- time of arrival -/
  arrival : Nat := 0
  /-- warm at arrival -/
  warm : Bool := true
  deriving DecidableEq, Repr

/-- A request to a line as it reaches the directory and the bank (R285, R289). -/
inductive LineRequest where
  /-- a read -/
  | read (w : ReadWait)
  /-- a write, full or partial -/
  | write (w : WriteReq)
  deriving DecidableEq, Repr

/-- A round of snoops for one line (R161, R163, R285 to R287). -/
structure SnoopRound where
  /-- line address -/
  line : Nat
  /-- ports whose response is outstanding -/
  waiting : List Nat
  /-- the request the round serves; none for an eviction -/
  request : Option LineRequest := none
  /-- order number at the bank of data a holder writes back (R161); the model's own -/
  seq : Nat := 0
  /-- bytes that a write ordered after the snoop has put into the line (R161) -/
  covered : BitVec 64 := 0
  /-- requests to the line that wait behind the round, in order (R286) -/
  behind : List LineRequest := []
  /-- ports whose BIConflictAck waits for the response to an earlier request (R286) -/
  conflicts : List Nat := []
  /-- time the snoops were sent -/
  sentAt : Nat := 0
  deriving DecidableEq, Repr

/-- A destage whose program runs (R101). -/
structure DestageRec where
  /-- Easel place -/
  place : Nat
  /-- line address -/
  line : Nat
  /-- version written -/
  version : Nat
  /-- codeword, 96 symbols -/
  code : List Byte
  /-- a spare program was part of it (R166) -/
  spare : Bool := false
  /-- the beat whose fill-through it is; none for a destage (R319) -/
  fill : Option Requester := none
  /-- time of the write-through request it serves first; none for another destage (R165) -/
  through : Option Nat := none
  /-- its frames are out -/
  sent : Bool := false
  deriving DecidableEq, Repr

/-- The Easel (R88 to R112). -/
structure Easel where
  /-- lines by 16 × set + way (R89, R90; reset: spec all invalid) -/
  lines : Tab EaselLine := []
  /-- replacement state by set (R98; 15 bits; reset: spec 0) -/
  plru : Tab Nat := []
  /-- merge entries by place: byte mask, at most 8,192 (R95; 64 bits; reset: spec free) -/
  merges : Tab (BitVec 64) := []
  /-- hold tick index (R99; reset: spec 0) -/
  tick : Nat := 0
  /-- lines a flush still waits for: place, and whether the present flight counts (R112; reset: spec none) -/
  flush : List (Nat × Bool) := []
  /-- [2300.08] FlushActive (R112; 1 bit; reset: spec 0) -/
  flushing : Bool := false
  /-- reads on the group buses by identifier (R157; reset: spec none) -/
  reads : Tab ReadRec := []
  /-- next read identifier; the model's own (reset: choice 18, 0) -/
  nextRead : Nat := 0
  /-- next order number at the banks; the model's own (reset: choice 18, 0) -/
  nextSeq : Nat := 0
  /-- reads waiting for a line, in order (R168; reset: spec none) -/
  waits : List ReadWait := []
  /-- partial writes waiting for a merge entry (R96; reset: spec none) -/
  mergeWait : List WriteReq := []
  /-- writes not yet acknowledged (R163, R164; reset: spec none) -/
  acks : List AckWait := []
  /-- destage programs running (R101; reset: spec none) -/
  flights : List DestageRec := []
  /-- correction counts by row, 64 × row + bank, at most eight a bank (R105; reset: spec 0) -/
  rowCounts : Tab Nat := []
  /-- rows that have a correction count, oldest entry first (R105; reset: spec none) -/
  rowOrder : List Nat := []
  /-- places whose mirror tag word is uncorrectable until the next tag update or scrub (R90, R103; reset: spec none) -/
  mirrorBad : Tab Bool := []
  /-- nominated rows, 64 × row + bank, oldest first (R105; reset: spec none) -/
  rowsDue : List Nat := []
  /-- spare-row records in force: 16 × bank + spare row → failed row + 1 (R107, R108; reset: spec from the Folio) -/
  spareRows : Tab Nat := []
  /-- way records: 64 × bank + n → 32-bit record (R107, R108; reset: spec from the Folio) -/
  wayRecords : Tab Nat := []
  /-- scrub pointer by bank (R109; 13 bits; reset: spec 0) -/
  scrub : Tab Nat := []
  /-- banks whose pointer wrapped since the lap began (R109; reset: spec none) -/
  lapped : Tab Bool := []
  /-- time the lap began; none before the scrubber's first row (R109; reset: spec none) -/
  lapAt : Option Nat := none
  /-- banks whose next scrub is forced (R110; reset: spec none) -/
  patrolDue : Tab Bool := []
  /-- banks scrubbed in the present patrol window (R110; reset: spec none) -/
  patrolled : Tab Bool := []
  deriving DecidableEq, Repr

/-- One way of the Palette (R136). -/
structure PalLine where
  /-- key K (63 bits) -/
  key : Nat := 0
  /-- V -/
  valid : Bool := false
  /-- D -/
  dirty : Bool := false
  /-- MR: mirror of the partner way -/
  mirror : Bool := false
  /-- WB: writeback in flight -/
  back : Bool := false
  /-- FNA -/
  fna : Bool := false
  /-- class (3 bits) -/
  cls : Nat := 0
  /-- stamp (4 bits) -/
  stamp : Nat := 0
  /-- payload -/
  data : Line := 0
  /-- carries a charge of the device share (R142, R199) -/
  charged : Bool := false
  deriving DecidableEq, Repr

/-- Where a tile lies now. -/
structure Place where
  /-- group -/
  group : Nat
  /-- physical region and slot; none for anchors and journal tiles -/
  slot : Option (Nat × Nat)
  /-- patch address in each column -/
  addrs : List Nat
  /-- region and slot of the recent-write filters (R212) -/
  filter : Nat × Nat
  deriving DecidableEq, Repr

/-- One miss register (R141). -/
structure MissReg where
  /-- key K -/
  key : Nat
  /-- place 16 × set + way chosen -/
  place : Nat
  /-- class -/
  cls : Nat
  /-- secondary misses merged, at most 8 -/
  seconds : Nat := 0
  /-- invalid mark (R145) -/
  marked : Bool := false
  /-- retries of the fill -/
  retries : Nat := 0
  /-- the re-read of R52 was made -/
  misdirected : Bool := false
  /-- a decode has failed, so a good one is a recovery (R57) -/
  failed : Bool := false
  /-- retry limit and nomination threshold in force when the fill began to decode (R58); none before -/
  latch : Option (Nat × Nat) := none
  /-- retries that the remap table tile fetched before it took from the series' limit (R160) -/
  spent : Nat := 0
  /-- reference codes of the fill's first read by column (R211, R228); empty before it is issued -/
  base : List Nat := []
  /-- reference codes of the fill's next read by column (R214, R228) -/
  codes : List Nat := []
  /-- bucket that a corrected and refused content gave (R214) -/
  bucket : Option Nat := none
  /-- time of the host request it serves first (R165) -/
  arrival : Nat := 0
  /-- the group has granted the read (R262) -/
  granted : Bool := false
  /-- corrected content of a fill that came before its parent (R192); empty while none -/
  content : List Byte := []
  deriving DecidableEq, Repr

/-- A range invalidation (R145). -/
structure Invalidation where
  /-- kind -/
  kind : Nat
  /-- first index -/
  lo : Nat
  /-- end of the interval -/
  hi : Nat
  deriving DecidableEq, Repr

/-- One entry of the poison list (R151). -/
structure PoisonEntry where
  /-- line address (38 bits) -/
  line : Nat
  /-- S: permanent (1 bit) -/
  permanent : Bool
  /-- source: 0 unknown, 2 internal, 3 injected (3 bits) -/
  source : Nat
  deriving DecidableEq, Repr

/-- A write of a metadata line that waits to become dirty in the Palette (R141, R142, R145): for its fill, a way, room under
the dirty limit or the device share, or the close of a range invalidation. -/
structure PalUpdate where
  /-- class of the writer -/
  cls : Nat
  /-- key K -/
  key : Nat
  /-- the payload written; none where the line is only marked dirty as it stands (R196) -/
  data : Option Line
  /-- sets FNA -/
  fna : Bool := false
  deriving DecidableEq, Repr

/-- A fenced span of a sealed range (R149). -/
structure SpanFence where
  /-- key range -/
  range : Nat
  /-- level of the lost node -/
  level : Nat
  /-- node index -/
  node : Nat
  deriving DecidableEq, Repr

/-- A Palette writeback whose program runs (R142). -/
structure PalWrite where
  /-- place -/
  place : Nat
  /-- tile -/
  tile : TileId
  /-- codeword -/
  code : List Byte
  /-- where the program goes: the slot of the region state at the grant (R143) -/
  pl : Option Place := none
  /-- a spare program was part of it (R166) -/
  spare : Bool := false
  /-- time of the sealed write-through request it serves; none for another writeback (R165, R173) -/
  arrival : Option Nat := none
  /-- its frames are out -/
  sent : Bool := false
  deriving DecidableEq, Repr

/-- The Palette (R134 to R154). -/
structure Palette where
  /-- ways by 16 × set + way (R136; reset: spec all invalid) -/
  ways : Tab PalLine := []
  /-- replacement state by set (R139; 15 bits; reset: spec 0) -/
  plru : Tab Nat := []
  /-- miss registers 0 to 63 (R141; reset: spec free) -/
  misses : Tab (Option MissReg) := []
  /-- lines selected for writeback, in order (R142; reset: spec none) -/
  selected : List Nat := []
  /-- writebacks whose program runs (R142; reset: spec none) -/
  writes : List PalWrite := []
  /-- Palette tick index (R142; reset: spec 0) -/
  tick : Nat := 0
  /-- range comparators in use, at most four (R145; reset: spec free) -/
  comparators : List Invalidation := []
  /-- range invalidations that wait for a free comparator, in order (R145; reset: spec none) -/
  invalidations : List Invalidation := []
  /-- lookups that wait, in order: class and key (R141, R145; reset: spec none) -/
  lookups : List (Nat × Nat) := []
  /-- writes that wait, in order (R141, R142, R145; reset: spec none) -/
  updates : List PalUpdate := []
  /-- lost spans that wait for a fence, in order (R149; reset: spec none) -/
  spanWait : List SpanFence := []
  /-- poison-list buckets, oldest entry first, at most 8 each (R151; reset: spec empty) -/
  poison : Tab (List PoisonEntry) := []
  /-- span fences, at most eight (R149; reset: spec free) -/
  spans : List SpanFence := []
  /-- [2500.08] PoisonListOverflow (R152; 1 bit; reset: spec 0) -/
  overflow : Bool := false
  /-- time of the first and last overflow, plus one (R292; reset: spec none) -/
  overflowAt : Nat := 0
  deriving DecidableEq, Repr

/-- One key range (R180 to R186). -/
structure RangeRec where
  /-- state of R181: 0 Empty, 1 Opening, 2 Open, 3 Glazing, 4 Closed (reset: spec recomputed from the key store) -/
  state : Nat := 0
  /-- slot 0 key, 96 bytes; empty when none (R185; reset: spec from the key store) -/
  current : List Byte := []
  /-- slot 1 key: next or new (R185; reset: spec from the key store) -/
  next : List Byte := []
  /-- source of the slot 1 key is an installation (R208; 1 bit) -/
  nextInstalled : Bool := false
  /-- key generation (R208; 32 bits; reset: spec 0) -/
  generation : Nat := 0
  /-- key source: 0 generated, 1 installed (R208; reset: spec 0) -/
  source : Nat := 0
  /-- freshness-not-assured mark (R198; 1 bit; reset: spec from the key store) -/
  fna : Bool := false
  /-- a close runs (R182; 1 bit; reset: spec 0) -/
  closing : Bool := false
  /-- closed to hosts for want of a span fence or by re-anchoring (R149, R198; 1 bit; reset: spec 0) -/
  held : Bool := false
  deriving DecidableEq, Repr

/-- One unit of a Glaze step in flight (R203). -/
structure GlazeUnit where
  /-- lane (group) -/
  lane : Nat
  /-- first line address of the unit -/
  line : Nat
  /-- lines of the unit: 1 in an unsealed range, the 32 of a page in a sealed one -/
  count : Nat
  /-- new codewords by line address -/
  codes : List (Nat × List Byte)
  /-- plaintext of the unit's lines by line address (R204) -/
  plain : List (Nat × Line)
  /-- tiles booked against the device share -/
  booked : Nat
  deriving DecidableEq, Repr

/-- The Glaze engine (R183, R201 to R205). -/
structure Glaze where
  /-- key range served; none while idle (R201; reset: spec none) -/
  range : Option Nat := none
  /-- kind: 1 opening, 2 re-keying (R184; reset: spec 0) -/
  kind : Nat := 0
  /-- [2780.04] 0 idle, 1 opening, 2 re-keying, 3 paused, 4 finishing (R208; reset: spec 0) -/
  state : Nat := 0
  /-- step index: the boundary in steps of 512 lines from the range base (R205; reset: spec 0) -/
  step : Nat := 0
  /-- the 512-bit step mask (R202; reset: spec 0) -/
  mask : BitVec 512 := 0
  /-- the sealed window of the range an opening serves has been programmed (R183, R491; reset: spec no) -/
  opened : Bool := false
  /-- units in flight (R203, R204; reset: spec none) -/
  units : List GlazeUnit := []
  /-- Easel places whose destage the finishing state waits for, true once a destage begun after the selection has been
  granted (R205; reset: spec none) -/
  finishing : List (Nat × Bool) := []
  /-- time the operation began (R205; reset: spec 0) -/
  began : Nat := 0
  /-- openings waiting, ascending (R183; reset: spec none) -/
  queue : List Nat := []
  deriving DecidableEq, Repr

/-- Keys, key ranges and the counter tree's root (R180 to R208). -/
structure Crypt where
  /-- the eight key ranges (R180; reset: spec from the key store) -/
  ranges : Tab RangeRec := []
  /-- installation key KI, 32 bytes; empty when none (R186; reset: spec from the key store) -/
  ki : List Byte := []
  /-- tree key, 32 bytes (R184; reset: spec from the key store) -/
  treeKey : List Byte := []
  /-- ephemeral key, 96 bytes; empty when zeroised (R207; reset: spec drawn at Priming) -/
  ephemeral : List Byte := []
  /-- root node (R191; 512 bits; reset: spec from the root record) -/
  root : Line := 0
  /-- root record's sequence number as loaded (R197; reset: spec none) -/
  rootValid : Bool := false
  /-- sequence number of the key store (R184; 64 bits; reset: spec from the key store) -/
  storeSeq : Nat := 0
  /-- layout in force of the key store, 160 bytes; empty before the first initialisation (R490; reset: spec) -/
  layout : List Byte := []
  /-- [2780.01] GlazeRange is a setting; the engine -/
  glaze : Glaze := {}
  /-- re-anchoring of the tree runs (R198; 1 bit; reset: spec 0) -/
  reanchoring : Bool := false
  deriving DecidableEq, Repr

/-- The contain layout served in this run (R60 to R63, R490). -/
structure Layout where
  /-- spread span in units of 2 GiB (R60; reset: spec the maximum for the population) -/
  spread : Nat := 0
  /-- contain ranges 1 to 8: base, size in units of 256 MiB, group mask (R61; reset: spec none) -/
  contain : List (Nat × Nat × Nat) := []
  deriving DecidableEq, Repr

/-- One program inside a bank of a stack (R243). -/
structure BankProg where
  /-- in-bank index -/
  index : Nat
  /-- the twelve bytes -/
  data : Patch
  deriving DecidableEq, Repr

/-- One bank of a stack (R240). -/
structure BankRec where
  /-- in-bank index of the last executed RD or SRD, while it is the bank's last command (R239) -/
  latched : Option Nat := none
  /-- program running, not suspended -/
  running : Option BankProg := none
  /-- program suspended -/
  suspended : Option BankProg := none
  /-- time from which the bank's read has sent its first DQ beat (R240) -/
  readUntil : Nat := 0
  /-- program the stack refused with a frame or write-CRC error, held by the device for its reissue (R246) -/
  refused : Option BankProg := none
  deriving DecidableEq, Repr

/-- One media channel and its stack. -/
structure ChannelRec where
  /-- channel marked failed (R253; reset: spec 0) -/
  failed : Bool := false
  /-- [2914] fail cause (R258; reset: spec 0) -/
  cause : Nat := 0
  /-- [2910] channel state (R258; reset: spec 4 domain off) -/
  state : Nat := 4
  /-- trained in this power-up (R251; 1 bit; reset: spec 0) -/
  trained : Bool := false
  /-- parked (R254; 1 bit; reset: spec 1) -/
  parked : Bool := true
  /-- [2911] stack type: 0, 1, 0xFE, 0xFF none (R258; reset: spec 0xFF) -/
  stackType : Nat := 0xFF
  /-- [2912] stack serial (R258; 32 bits; reset: spec 0) -/
  serial : Nat := 0
  /-- last verified temperature, °C; none while it cannot be read (R250; reset: spec none) -/
  temp : Option Int := none
  /-- consecutive windows without a temperature (R250; reset: spec 0) -/
  noTemp : Nat := 0
  /-- temperature at the last ZQ (R250; reset: spec none) -/
  zqTemp : Option Int := none
  /-- errors in the present 1 s window (R253; reset: spec 0) -/
  errors : Nat := 0
  /-- times the refused program of a bank has been reissued (R246; reset: spec 0) -/
  reissues : Tab Nat := []
  /-- a thermal alert is reported (R398; 1 bit; reset: spec 0) -/
  alert : Bool := false
  /-- reads erased by an event: bank of the read (R54; reset: spec none) -/
  erased : List Nat := []
  /-- training record in force, 64 bytes (R252; reset: spec from the Folio) -/
  record : List Byte := []
  /-- banks of the stack (R240; reset: spec idle) -/
  banks : Tab BankRec := []
  /-- mode registers 0x00 to 0x0F (R247; 16 bits; reset: spec; identity and serial choice 14) -/
  regs : Tab Nat := []
  /-- the stack is in training mode (R251; reset: spec none) -/
  training : Option Nat := none
  /-- write-loopback register (R251; 96 bits; reset: spec 0) -/
  loopback : Patch := 0
  /-- a fault of bit 0, 2 or 3 has stopped every bank of the stack (R247; 1 bit; reset: spec 0) -/
  stopped : Bool := false
  /-- the stack is in power-down (R257; 1 bit; reset: spec 0) -/
  powerDown : Bool := false
  /-- a management return runs on the channel (R255; 1 bit; reset: spec 0) -/
  returning : Bool := false
  deriving DecidableEq, Repr

/-- One HDM decoder of a port (R282). -/
structure Decoder where
  /-- committed -/
  committed : Bool := false
  /-- lock on commit -/
  locked : Bool := false
  /-- Error Not Committed -/
  error : Bool := false
  /-- HDM-DB -/
  shared : Bool := false
  /-- host base in units of 256 MiB -/
  base : Nat := 0
  /-- host interleave ways: 1, 2, 4, 8 or 16 (R275) -/
  ways : Nat := 1
  /-- interleave granularity in bytes, 256 to 16,384 (R275) -/
  gran : Nat := 256
  /-- size in units of 256 MiB -/
  size : Nat := 0
  /-- DPA base in units of 256 MiB, after the skip -/
  dpa : Nat := 0
  deriving DecidableEq, Repr

/-- One event record in an event log (R295), 128 bytes in the part; the fields the spec fixes. -/
structure EventRec where
  /-- handle (16 bits) -/
  handle : Nat
  /-- log: 0 Informational, 1 Warning, 2 Failure, 3 Fatal -/
  log : Nat
  /-- record: 0 General Media, 1 Memory Module -/
  kind : Nat
  /-- event type: 0 ECC error, 1 data path error, 2 health status, 3 media status, 4 life used, 5 temperature -/
  what : Nat
  /-- DPA of a General Media record -/
  dpa : Nat
  /-- timestamp (R293) -/
  time : Nat
  deriving DecidableEq, Repr

/-- SPDM responder state of a port (R301). -/
inductive SpdmState where
  | idle | versioned | capable | negotiated | handshake | session
  deriving DecidableEq, Repr

/-- One host port (R275 to R303). -/
structure PortRec where
  /-- [2B10.05] link state (R303; reset: spec 0) -/
  link : Nat := 0
  /-- [2B10.06] link rate (R303; reset: spec 0xFF) -/
  rate : Nat := 0xFF
  /-- [2B10.07] link width (R303; reset: spec 0) -/
  width : Nat := 0
  /-- [2B10.09] IDE state (R303; reset: spec 0) -/
  ide : Nat := 0
  /-- IDE stream keys programmed, by stream and direction (R301; reset: spec none) -/
  ideKeys : Tab (List Byte) := []
  /-- link IDE of CXL.io in force (R275, R301; 1 bit; reset: spec 0) -/
  ideIo : Bool := false
  /-- SPDM responder (R301; reset: spec idle) -/
  spdm : SpdmState := .idle
  /-- [2B10.0B] BI enabled (R282; 1 bit; reset: spec 0) -/
  bi : Bool := false
  /-- [2B10.0C] fenced from shared windows (R288; 1 bit; reset: spec 0) -/
  fenced : Bool := false
  /-- the eight HDM decoders (R282; reset: spec uncommitted) -/
  decoders : Tab Decoder := []
  /-- Bus Master Enable of function 0 (R310; 1 bit; reset: choice 15, 0) -/
  busMaster : Bool := false
  /-- held-write buffer, at most 64 (R174; reset: spec empty) -/
  held : List WriteReq := []
  /-- response message limit, log2 of the bytes (R292; reset: choice 15, 11) -/
  messageLimit : Nat := 11
  /-- background command: opcode, 0 none; percentage done; return code (R292; reset: spec none) -/
  background : Nat × Nat × Nat := (0, 0, 0)
  /-- range of a running scan: first line, lines (R294; reset: spec none) -/
  scan : Nat × Nat := (0, 0)
  /-- lines the scan found poisoned (R294; reset: spec none) -/
  scanFound : List Nat := []
  /-- event interrupt policy: one byte per log (R295; reset: choice 15, 0) -/
  policy : List Byte := [0, 0, 0, 0]
  /-- event records posted, oldest first (R295; reset: spec empty) -/
  events : List EventRec := []
  /-- records the event poster holds, at most 256 (R295; reset: spec empty) -/
  heldEvents : List EventRec := []
  /-- next event handle (R295; 16 bits; reset: spec 1) -/
  handle : Nat := 1
  /-- overflow per log: count, first and last time (R295; reset: spec none) -/
  eventOverflow : Tab (Nat × Nat × Nat) := []
  /-- alert configuration: warn threshold of the device over-temperature, °C; enabled bits (R292, R393; reset: choice 15) -/
  alertEnabled : Nat := 0
  /-- warn thresholds set by the alert configuration: life used, over- and under-temperature, °C (R292; reset: choice 15) -/
  alerts : Tab Nat := []
  /-- Health Status bits, Media Status and Life Used as last seen, to post a change (R295; reset: spec set at entry to
  Priming) -/
  healthSeen : Nat × Nat × Nat := (0, 1, 0)
  /-- [2B10.10] shutdown state: dirty (R298; 1 bit; reset: spec from the Folio) -/
  shutdownDirty : Bool := false
  /-- a management client asked for the link down (R280; 1 bit; reset: spec 0) -/
  askedDown : Bool := false
  deriving DecidableEq, Repr

/-- One entry of the sharing directory (R284). -/
structure DirEntry where
  /-- tag T (17 bits) -/
  tag : Nat := 0
  /-- presence mask (4 bits) -/
  presence : Nat := 0
  /-- E (1 bit) -/
  exclusive : Bool := false
  /-- order of the last touch; the model's own, for "least recently touched" -/
  touch : Nat := 0
  deriving DecidableEq, Repr

/-- The sharing directory (R284 to R291). -/
structure Directory where
  /-- entries by 16 × set + way (R284; reset: spec empty) -/
  entries : Tab DirEntry := []
  /-- snoop rounds outstanding (R286; reset: spec none) -/
  rounds : List SnoopRound := []
  /-- suspect sets (R291; reset: spec none) -/
  suspect : Tab Bool := []
  /-- touch counter; the model's own -/
  touches : Nat := 0
  deriving DecidableEq, Repr

/-- One word of a stall queue (R323). -/
structure QWord where
  /-- data (64 bits) -/
  data : Nat
  /-- side byte: parity and tags (8 bits) -/
  side : Byte
  deriving DecidableEq, Repr

/-- One stall queue (R323 to R335). -/
structure QueueRec where
  /-- words from the mark to the write pointer, oldest first (R330; reset: spec empty) -/
  words : List QWord := []
  /-- position of the mark (R330; reset: spec 0) -/
  mark : Nat := 0
  /-- words from the mark to the read pointer (R330; reset: spec 0) -/
  taken : Nat := 0
  /-- words in the head register file and not taken (R328; reset: spec 0) -/
  head : Nat := 0
  /-- blocks in the spill area (R327; reset: spec 0) -/
  blocks : Nat := 0
  /-- blocks read out of the spill area: modulo its blocks, the index b of the oldest one (R88, R327; reset: spec 0) -/
  firstBlock : Nat := 0
  /-- producer whose packet is open (R325; reset: spec none) -/
  openBy : Option Nat := none
  /-- producer whose words are dropped up to its E word (R332; reset: spec none) -/
  dropping : Option Nat := none
  /-- packets available and not taken, [2D1n.04] (R326; reset: spec 0) -/
  notices : Nat := 0
  /-- words of the open packet pushed (R326; reset: spec 0) -/
  openWords : Nat := 0
  /-- cut-through limit of the open packet, taken with its S word; 0 where none is open (R326, R335; reset: spec 0) -/
  cutWords : Nat := 0
  /-- the open packet was made available by cut-through (R326; 1 bit; reset: spec 0) -/
  cut : Bool := false
  /-- the consumer is inside a packet under cut-through (R331; 1 bit; reset: spec 0) -/
  inside : Bool := false
  /-- [2D1n.03] peak occupancy (R335; reset: spec 0) -/
  peak : Nat := 0
  /-- [2D18.0B] MarkLost (R331; 1 bit; reset: spec 0) -/
  markLost : Bool := false
  /-- clear map of an EQ by record position (R330; 8,192 bits; reset: spec 0) -/
  cleared : Tab Bool := []
  deriving DecidableEq, Repr

/-- One descriptor a Barrow channel has loaded (R304, R316), from the hand-over to its completion. -/
structure LoadRec where
  /-- serial number of the load in its channel; the model's own -/
  serial : Nat
  /-- descriptor index -/
  index : Nat
  /-- kind (R304) -/
  kind : Nat
  /-- source address, or the pattern of a fill -/
  src : Nat
  /-- destination address -/
  dst : Nat
  /-- N, the Count -/
  total : Nat
  /-- flags byte -/
  flags : Nat
  /-- next descriptor -/
  next : Nat
  /-- auxiliary address (R320) -/
  aux : Nat
  /-- beats issued -/
  issued : Nat := 0
  /-- beats in flight: source read issued and no write yet (R306) -/
  reading : List Nat := []
  /-- device source data that has come back: beat, line, poison (R306, R310) -/
  arrived : List (Nat × Line × Bool) := []
  /-- beats whose write is at a device line and has no response yet; true once the response is due (R307) -/
  writing : List (Nat × Bool) := []
  /-- beats posted to host memory and not covered by a flush-read that completed (R307) -/
  posted : List Nat := []
  /-- error flags of [2C1x.0B] met by the descriptor -/
  errors : Nat := 0
  /-- first beat found in error -/
  failBeat : Option Nat := none
  /-- 0 running, 1 stopped by an error, 2 stopped by an abort (R310, R313) -/
  stopped : Nat := 0
  /-- the half interrupt has been raised (R309) -/
  halfDone : Bool := false
  /-- the check of R305 failed -/
  invalid : Bool := false
  /-- stopped because the descriptor before it completed with error: its completion raises no interrupt (R312) -/
  silent : Bool := false
  deriving DecidableEq, Repr

/-- A flush-read in flight (R307): the load and beats it covers. -/
structure FlushRec where
  /-- beats covered, as load serial and beat -/
  covers : List (Nat × Nat)
  /-- interrupt cause bits that a telemetry ring raises once it completes (R320) -/
  raises : Nat := 0
  deriving DecidableEq, Repr

/-- One Barrow channel (R304 to R322). -/
structure BarrowRec where
  /-- descriptors loaded and not completed, oldest first; the last is the active one (R316; reset: spec none) -/
  loads : List LoadRec := []
  /-- next load serial; the model's own (reset: choice 18, 0) -/
  serial : Nat := 0
  /-- [2C1x.02] ShadowFirst (R315; 8 bits; reset: spec 0) -/
  shadow : Nat := 0
  /-- the pending committed set (R315; reset: spec none) -/
  committed : Option Nat := none
  /-- [2C1x.03] as read: 0 none, 1 pending, 2 taken (R315; reset: spec 0) -/
  commitState : Nat := 0
  /-- no hand-over follows: the channel becomes idle once its loads complete (R313, R314; 1 bit; reset: spec 0) -/
  ending : Bool := false
  /-- flush-reads in flight, oldest first (R307; reset: spec none) -/
  flushes : List FlushRec := []
  /-- [2C1x.08] LastDescriptor (R322; 16 bits; reset: spec 0xFFFF) -/
  lastDescriptor : Nat := 0xFFFF
  /-- [2C1x.09] LastStatus (R322; 8 bits; reset: spec 0xFF) -/
  lastStatus : Nat := 0xFF
  /-- [2C1x.0A] LastResidue (R322; 32 bits; reset: spec 0) -/
  lastResidue : Nat := 0
  /-- [2C1x.0B] ErrorFlags (R311, R312; 8 bits; reset: spec 0) -/
  errorFlags : Nat := 0
  /-- [2C1x.0C] FailBeat (R311; 32 bits; reset: spec 0) -/
  failBeat : Nat := 0
  /-- [2C1x.12] ErrorDescriptor (R312; 16 bits; reset: spec 0xFFFF) -/
  errorDescriptor : Nat := 0xFFFF
  /-- [2C1x.0D] InterruptCause (R309; 3 bits; reset: spec 0) -/
  cause : Nat := 0
  /-- [2C1x.11] TelemetryReadPointer (R320; 32 bits; reset: spec 0) -/
  readPointer : Nat := 0
  /-- write pointer of the ring (R320; reset: spec 0) -/
  writePointer : Nat := 0
  deriving DecidableEq, Repr

/-- Barrow (R304 to R322). -/
structure Barrow where
  /-- the 256 descriptors, 32 bytes each (R304; reset: spec zero) -/
  descriptors : Tab (List Byte) := []
  /-- the 16 channels -/
  channels : Tab BarrowRec := []
  deriving DecidableEq, Repr

/-- One tagged request (R460 to R462). -/
structure SampleRec where
  /-- requester -/
  who : Requester
  /-- line address (38 bits) -/
  line : Nat
  /-- ingress time, 1/64 ns -/
  ingress : Nat
  /-- stamps S1 to S7 taken so far, in core cycles (16 bits each) -/
  stamps : Tab Nat := []
  /-- flag bits 19..12 of word 1 -/
  flags : Nat := 0
  /-- retries of R50 (3 bits) -/
  retries : Nat := 0
  deriving DecidableEq, Repr

/-- The performance counters and the sampler (R455 to R463). -/
structure Perf where
  /-- the 104 counters by 8 × block + n (R456; 48 bits each; reset: spec 0) -/
  counters : Tab Nat := []
  /-- the sticky bits by 8 × block + n (R458; 1 bit each; reset: spec 0) -/
  sticky : Tab Bool := []
  /-- the occupancy stood at or above the threshold in the last cycle, by 8 × block + n (R455 mode 3; reset: spec 0) -/
  above : Tab Bool := []
  /-- [3200.01] RunControl (R456; 1 bit; reset: spec 1) -/
  run : Bool := true
  /-- the tagged requests, at most 16 (R460; reset: spec none) -/
  tags : List SampleRec := []
  deriving DecidableEq, Repr

/-- The data path outside the groups. -/
structure Path where
  /-- the medium: 12-byte patches by 2^35 × channel + patch address (R32, R236; 96 bits; reset: choice 16) -/
  medium : Tab Patch := []
  /-- contain layout served (R60 to R63) -/
  layout : Layout := {}
  /-- an accepted contain layout waits for the next Priming, [2200.06] (R63; 1 bit; reset: spec 0) -/
  layoutPending : Bool := false
  /-- rotation seed D (R69; 40 bits; reset: spec drawn at the first initialisation) -/
  seed : Nat := 0
  /-- the medium has been initialised (R69, R183; 1 bit; reset: spec read from the anchors) -/
  initialised : Bool := false
  /-- device epoch count E (R209; 32 bits; reset: spec resumes from the records, 0 before) -/
  epoch : Nat := 0
  /-- E is to resume at the recorded value plus 1 (R209; 1 bit; reset: spec 1 after the power-on reset) -/
  epochResume : Bool := true
  /-- E at the last shutdown, from the newest record (R227; reset: spec 0) -/
  epochShutdown : Nat := 0
  /-- [2800.08] OffTime (R227; 32 bits; reset: spec 0) -/
  offTime : Nat := 0
  /-- [2800.09] OffTimeSource (R227; reset: spec 0) -/
  offSource : Nat := 0
  /-- time the catch-up of stale regions began (R228; reset: spec 0) -/
  catchUpAt : Nat := 0
  /-- device timestamp offset (R293; 64 bits; reset: spec 0) -/
  timestampOffset : Nat := 0
  /-- result of the last translation: group, region, slot, patch address, remap mask (R87; reset: spec 0) -/
  translated : List Nat := [0, 0, 0, 0, 0]
  /-- mean load of the group buses over the last 10 µs window, percent (R300; reset: spec 0) -/
  busLoad : Nat := 0
  /-- index of the 10 µs window being summed and the slots granted in it, all groups (R300; reset: spec 0) -/
  busWindow : Nat × Nat := (0, 0)
  /-- free values taken by the data path; the model's own (log entry 4) -/
  frees : Nat := 0
  deriving DecidableEq, Repr

/-- The whole block. -/
structure State where
  /-- device state, time base, start and shutdown -/
  sys : Sys := {}
  /-- management ports -/
  mgmt : Mgmt := {}
  /-- Folio store -/
  folio : Folio := {}
  /-- Ledger registers -/
  ledger : Ledger := {}
  /-- supervisor -/
  power : Power := {}
  /-- reserve manager -/
  reserve : Reserve := {}
  /-- thermal unit and clocks -/
  thermal : Thermal := {}
  /-- media channels -/
  channels : Tab ChannelRec := []
  /-- host ports -/
  ports : Tab PortRec := []
  /-- channel groups G0 to G7 -/
  groups : Tab GroupRec := []
  /-- the Easel -/
  easel : Easel := {}
  /-- the Palette -/
  palette : Palette := {}
  /-- keys and key ranges -/
  crypt : Crypt := {}
  /-- sharing directory -/
  directory : Directory := {}
  /-- stall queues 0 to 12: JQ0 to JQ7, TQ, EQ0 to EQ3 -/
  queues : Tab QueueRec := []
  /-- Barrow -/
  barrow : Barrow := {}
  /-- performance counters and sampler -/
  perf : Perf := {}
  /-- medium, layout, epochs -/
  path : Path := {}
  /-- active values of the rw objects that have no home of their own, by 256 × index + subindex; an unlisted key
  reads as its default (R424, R425; reset: spec defaults) -/
  settings : Tab Int := []
  /-- statistics and status values of the object dictionary without a home of their own, by key; unlisted keys read
  as their default (R424; reset: spec defaults) -/
  stats : Tab Int := []
  /-- draws taken from the random source; the model's own (log entry 4; reset: choice 4) -/
  draws : Nat := 0
  /-- what has left the block, newest first; the model's own (log entry 6; reset: choice 6) -/
  out : List Output := []
  /-- commands waiting, first in first out (the block's queue; reset: empty) -/
  pending : List Instr := []
  deriving DecidableEq, Repr

/-- The block right after the always-on power-on reset (R361 step 1): Standby, time base 0, every register at the
value its field states. -/
def State.reset : State := {}

end Sys2Proof.Machine
end

