-- ==== Sys2Proof/Machine/Flags.lean ====
section
/-! DEFINITION. Machine/Flags.lean: the status words the dictionary reports and the conditions they are made of: the
error register of R438, the state attributes of [2000.02], and the device-state tests the rules use. -/

namespace Sys2Proof.Machine

/-- Position of a device state in the table of R4. -/
def devNum : DeviceState → Nat
  | .standby => 0
  | .priming => 1
  | .active => 2
  | .warn => 3
  | .varnish => 4
  | .varnished => 5
  | .recovery => 6
  | .test => 7

/-- The NMT state code of [2001.06]. -/
def nmtNum : Nmt → Nat
  | .initialising => 0x00
  | .stopped => 0x04
  | .operational => 0x05
  | .preOperational => 0x7F

/-- Warn, Varnish or Varnished (R22). -/
def inShutdown (s : State) : Bool :=
  match s.sys.dev with
  | .warn | .varnish | .varnished => true
  | _ => false

/-- Active, Recovery or Test (R21). -/
def inService (s : State) : Bool :=
  match s.sys.dev with
  | .active | .recovery | .test => true
  | _ => false

/-- What an unlisted rail is. -/
def dRail : Nat → RailRec := fun _ => {}

/-- What an unlisted media domain is. -/
def dDomain : Nat → DomainRec := fun _ => {}

/-- What an unlisted channel is. -/
def dChannel : Nat → ChannelRec := fun _ => {}

/-- What an unlisted port is. -/
def dPort : Nat → PortRec := fun _ => {}

/-- What an unlisted session is. -/
def dSession : Nat → Session := fun _ => {}

/-- What an unlisted count is. -/
def dNat : Nat → Nat := fun _ => 0

/-- What an unlisted flag is. -/
def dBool : Nat → Bool := fun _ => false

/-- What an unlisted signed value is. -/
def dInt : Nat → Int := fun _ => 0

/-- Rail `r`. -/
def railOf (s : State) (r : Nat) : RailRec :=
  tabGet dRail s.power.rails r

/-- Media domain `k`. -/
def domainOf (s : State) (k : Nat) : DomainRec :=
  tabGet dDomain s.power.domains k

/-- Channel `c`. -/
def channelOf (s : State) (c : Nat) : ChannelRec :=
  tabGet dChannel s.channels c

/-- Port `p`. -/
def portOf (s : State) (p : Nat) : PortRec :=
  tabGet dPort s.ports p

/-- Session `n`. -/
def sessionOf (s : State) (n : Nat) : Session :=
  tabGet dSession s.mgmt.sessions n

/-- T_die in 0.1 °C as R123, R211 and R250 take it: +105 °C while the thermal unit is in fault (R391). -/
def budgetTemp (s : State) : Int :=
  if s.thermal.fault then 1050 else s.thermal.tDie

/-- The media domains lost in this run (R348), as a list. -/
def lostDomains (s : State) : List Nat :=
  (List.range 8).filter (fun k => (domainOf s k).lost)

/-- Some channel is marked failed (R253). -/
def someChannelFailed (s : State) : Bool :=
  (List.range 64).any (fun c => (channelOf s c).failed)

/-- Some port is fenced from shared windows (R288). -/
def somePortFenced (s : State) : Bool :=
  (List.range 4).any (fun p => (portOf s p).fenced)

/-- The error register [1001] (R438): bit 2 voltage, bit 3 temperature, bit 4 communication, bit 7 manufacturer, and
bit 0 while any other is set. -/
def errorRegister (s : State) : Nat :=
  let volt := !(lostDomains s).isEmpty || s.reserve.status == 5
  let temp := 1 ≤ s.thermal.level
  let comm := somePortFenced s || (List.range 4).any (fun e => tabGet dBool s.mgmt.heartbeatLost e)
  let manu := someChannelFailed s
  bnat (volt || temp || comm || manu) + 4 * bnat volt + 8 * bnat temp + 16 * bnat comm + 128 * bnat manu

end Sys2Proof.Machine
end

