-- ==== Sys2Proof/Machine/Ops.lean ====
section
/-! DEFINITION. Machine/Ops.lean: the operations every unit shares: the object registers with their defaults, the
statistics, draws of the random source, outputs, tallies (R414), the Ledger with its rate limit (R417 to R419) and the
EMCYs that go with it (R438, R454). -/

namespace Sys2Proof.Machine

/-- Records what leaves the block. -/
def emit (s : State) (o : Output) : State :=
  { s with out := o :: s.out }

/-- One draw of the random source, cut to `w` bits (log entry 4). -/
def drawn (s : State) (w : Nat) : Nat :=
  Config.random s.draws % 2 ^ w

/-- The state after one draw. -/
def afterDraw (s : State) : State :=
  { s with draws := s.draws + 1 }

/-- The device time base in ns (R386). -/
def nowNs (s : State) : Nat :=
  s.sys.time / 64 % 2 ^ 64

/-- One idle step of the time base (R386, log entry 1): a core cycle of 0.625 ns, or an always-on tick of 1 s / 32,768
while the core PLL does not run, in units of 1/64 ns. -/
def idle (s : State) : State :=
  { s with sys := { s.sys with time := s.sys.time + (if s.sys.corePll then 40 else 1953125) } }

/-- Key of object idx.sub. -/
def objKey (idx sub : Nat) : Nat :=
  idx * 256 + sub

/-- Nominal voltage of rail n in mV (table of R336). -/
def nominalMv (n : Nat) : Nat :=
  match n with
  | 0 => 750
  | 1 => 800
  | 2 => 900
  | 3 => 1050
  | 4 => 1800
  | 5 => 1800
  | n => if n % 3 = 0 then 1100 else if n % 3 = 1 then 1050 else 3300

/-- The capacity of queue n in words (table of R335). -/
def queueCapacity (n : Nat) : Nat :=
  if n < 8 then 1835072 else if n = 8 then 458816 else 114752

/-- The default of an object: its row's default, or the value the unit number, the factory or another rule gives. A
default that follows another setting stands as −1 and is computed where it is read (log entry 7). -/
def objDefault (key : Nat) : Int :=
  let idx := key / 256
  let sub := key % 256
  if idx = 0x1014 ∨ (idx = 0x1800 ∧ sub = 1) ∨ (idx = 0x2200 ∧ sub = 1) ∨ (idx = 0x2B30 ∧ sub = 2) then -1
  else if 0x1801 ≤ idx ∧ idx ≤ 0x1807 ∧ sub = 1 then 0x80000000
  else if 0x1A00 ≤ idx ∧ idx ≤ 0x1A07 ∧ 1 ≤ sub then
    [0x20000108, 0x20000208, 0x30100110, 0x24000808, 0x24000F20].getD (sub - 1) 0
  else if idx = 0x1018 ∧ sub = 3 then Config.maskRomRevision.toNat
  else if idx = 0x1018 ∧ sub = 4 then Config.serialNumber.toNat
  else if idx = 0x2000 ∧ sub = 4 then Config.maskRomRevision.toNat
  else if idx = 0x2000 ∧ sub = 5 then Config.fuseConfiguration.toNat
  else if idx = 0x2820 ∧ 1 ≤ sub then (Config.referenceCode sub).toNat
  else if idx = 0x2501 ∧ 1 ≤ sub then [0xFF, 0x0F, 0xF0, 0x30, 0x0F, 0xC0, 0x01].getD (sub - 1) 0
  else if idx = 0x2A01 ∧ 2 ≤ sub then [1, 2, 2, 4, 5, 5, 6, 7].getD (sub - 2) 0
  else if idx = 0x2B30 ∧ sub = 3 then 0x0F
  else if idx = 0x2B30 ∧ sub = 4 then 1
  else if 0x2C10 ≤ idx ∧ idx ≤ 0x2C1F ∧ sub = 1 then ((idx - 0x2C10) / 4 : Nat)
  else if 0x2C10 ≤ idx ∧ idx ≤ 0x2C1F ∧ sub = 0x0E then ((idx - 0x2C10 : Nat) : Int)
  else if 0x2D10 ≤ idx ∧ idx ≤ 0x2D1C ∧ sub = 1 then queueCapacity (idx - 0x2D10)
  else if 0x2E10 ≤ idx ∧ idx ≤ 0x2E2D ∧ sub = 1 then nominalMv (idx - 0x2E10)
  else if 0x2E10 ≤ idx ∧ idx ≤ 0x2E2D ∧ sub = 0x16 then (nominalMv (idx - 0x2E10) * 95 / 100 : Nat)
  else if 0x2E10 ≤ idx ∧ idx ≤ 0x2E2D ∧ sub = 0x17 then (nominalMv (idx - 0x2E10) * 105 / 100 : Nat)
  else
    match objRow? idx sub with
    | some r => r.dflt
    | none => 0

/-- The active value of a setting as stored. -/
def setting (s : State) (idx sub : Nat) : Int :=
  tabGet objDefault s.settings (objKey idx sub)

/-- A setting that is never negative, as a natural number. -/
def settingN (s : State) (idx sub : Nat) : Nat :=
  (setting s idx sub).toNat

/-- A BOOLEAN setting. -/
def settingB (s : State) (idx sub : Nat) : Bool :=
  setting s idx sub == 1

/-- Sets a setting. -/
def setSetting (s : State) (idx sub : Nat) (v : Int) : State :=
  { s with settings := tabSet objDefault s.settings (objKey idx sub) v }

/-- The value in force of a setting whose write takes effect later than the write (R87, R112, R133, R258, R399, R422). -/
def forceN (s : State) (idx sub : Nat) : Nat :=
  (tabGet (fun _ => none) s.sys.inForce (256 * idx + sub)).getD (settingN s idx sub)

/-- Keeps the present value of a setting in force while a write of it waits for its moment (R87, R112, R133, R258, R399, R422). -/
def keepForce (s : State) (idx sub : Nat) : State :=
  { s with sys := { s.sys with
    inForce := tabSet (fun _ => none) s.sys.inForce (256 * idx + sub) (some (forceN s idx sub)) } }

/-- The moment a waiting write of a setting takes effect (R87, R112, R133, R258, R399, R422). -/
def takeForce (s : State) (idx sub : Nat) : State :=
  { s with sys := { s.sys with inForce := tabSet (fun _ => none) s.sys.inForce (256 * idx + sub) none } }

/-- A statistic or status value kept in the dictionary registers. -/
def stat (s : State) (idx sub : Nat) : Int :=
  tabGet objDefault s.stats (objKey idx sub)

/-- Sets a statistic or status value. -/
def setStat (s : State) (idx sub : Nat) (v : Int) : State :=
  { s with stats := tabSet objDefault s.stats (objKey idx sub) v }

/-- Bits of the counter behind a statistic (R473): the width of its type. -/
def statBits (idx sub : Nat) : Nat :=
  match objRow? idx sub with
  | some r => 8 * r.ty.width
  | none => 64

/-- Adds `n` to a statistic; a count wraps at the width of its type (R473). -/
def bump (s : State) (idx sub : Nat) (n : Nat) : State :=
  setStat s idx sub ((stat s idx sub + n) % (2 ^ statBits idx sub : Nat))

/-- Zeroes the statistics of the index idx at subindices lo .. lo+n-1. -/
def clearStats (s : State) (idx lo n : Nat) : State :=
  { s with stats := tabModRange objDefault (fun k _ => objDefault k) s.stats (objKey idx lo) n }

/-- Zeroes the same subindices at `m` consecutive indices. -/
def clearStatsAt (s : State) (idx m lo n : Nat) : State :=
  (List.range m).foldl (fun s i => clearStats s (idx + i) lo n) s

/-- An event of tally i: adds one to its pending count, which saturates (R414). -/
def tallyAdd (s : State) (i : Nat) : State :=
  { s with folio := { s.folio with tallyPending := tabMod dNat s.folio.tallyPending i (fun n => min (n + 1) 65535) } }

/-- The CAN controller can send (R438): CanEnable set, not bus-off. -/
def canUp (s : State) : Bool :=
  settingB s 0x2001 1 && s.mgmt.canError != 2

/-- The node is in Pre-operational or Operational (R438). -/
def emcyStates (s : State) : Bool :=
  match s.mgmt.nmt with
  | .preOperational | .operational => true
  | _ => false

/-- COB-ID of the EMCY: [1014], by default 0x80 + node-ID. -/
def emcyCobId (s : State) : Nat :=
  if setting s 0x1014 0 < 0 then 0x80 + s.mgmt.nodeId else settingN s 0x1014 0

/-- Sends an EMCY frame and starts the inhibit time where one is set (R438). -/
def emcySend (s : State) (frame : List Byte) : State :=
  let s := emit s (.can (emcyCobId s) frame)
  { s with mgmt := { s.mgmt with emcyInhibited := decide (0 < settingN s 0x1015 0) } }

/-- Raises an EMCY (R438): enters [1003] and is sent, queued or dropped. -/
def emcyRaise (s : State) (err code seq : Nat) : State :=
  let s := { s with mgmt := { s.mgmt with errorHistory := ((err + 65536 * code) :: s.mgmt.errorHistory).take 8 } }
  let frame := leBytes 2 err ++ leBytes 1 (errorRegister s) ++ leBytes 2 code ++ leBytes 3 seq
  if canUp s && emcyStates s then
    if s.mgmt.emcyInhibited || !s.mgmt.emcyQueue.isEmpty then
      if s.mgmt.emcyQueue.length < 8 then
        { s with mgmt := { s.mgmt with emcyQueue := s.mgmt.emcyQueue ++ [frame] } }
      else s
    else emcySend s frame
  else s

/-- Sends the next queued EMCY where one may be sent now (R438). -/
def emcyNext (s : State) : State :=
  if canUp s && emcyStates s && !s.mgmt.emcyInhibited then
    match s.mgmt.emcyQueue with
    | frame :: rest => emcySend { s with mgmt := { s.mgmt with emcyQueue := rest } } frame
    | [] => s
  else s

/-- Sends queued EMCYs until the inhibit time runs or the queue of 8 is empty (R438). -/
def emcyDrain (s : State) : State :=
  (List.range 8).foldl (fun s _ => emcyNext s) s

/-- The EMCY error code of a Ledger event, if it sends one (R454); `data` gives the cause of 0x2F01. -/
def emcyOf (code : Nat) (data : List Byte) : Option Nat :=
  if code = 0x2006 then some 0x8130
  else if code = 0x2402 then some 0x3200
  else if code = 0x2901 then some 0x5000
  else if code = 0x2B03 then some 0x8100
  else if code = 0x2E03 then some 0x3300
  else if code = 0x2F04 then some 0xFF00
  else if code = 0x3005 then some 0x4200
  else if code = 0x3008 then some 0x4000
  else if code = 0x2F01 then
    match (data.headD 0).toNat with
    | 1 => some 0x3100
    | 2 => some 0x3200
    | 3 => some 0x3300
    | 4 => some 0x4200
    | _ => none
  else none

/-- Gives an event its place in the Ledger (R417 steps 2 and 3, R419): the state after it and the sequence number it
took, 0 where it was not recorded. -/
def ledgerAssign (s : State) (code : Nat) (data : List Byte) (summary : Bool) : State × Nat :=
  if s.ledger.full || 64 ≤ s.ledger.pending.length then (tallyAdd s 151, 0)
  else
    let q := s.ledger.lastSeq + 1
    let last := q == s.ledger.mark + 6144
    let flags := devNum s.sys.dev + 8 * bnat summary + 16 * bnat s.ledger.firstSincePor
    let record : LedgerRecord :=
      { seq := q, code := if last then 0x3181 else code, time := nowNs s,
        data := padTo 11 (if last then leBytes 2 code else data), flags := flags }
    ({ s with ledger := { s.ledger with lastSeq := q, pending := s.ledger.pending ++ [record], full := last,
                                        firstSincePor := false } },
     if last then 0 else q)

/-- Codes that are never limited (R418). -/
def neverLimited (code : Nat) : Bool :=
  (0x2F01 ≤ code && code ≤ 0x2F0B) || (0x3181 ≤ code && code ≤ 0x3183)

/-- Suppresses one event of a code (R418): counted in [3180.0A] and in the tracker, or in the shared count. -/
def suppress (s : State) (code : Nat) (tracked : Bool) : State :=
  let s := bump s 0x3180 0x0A 1
  if tracked then
    { s with ledger := { s.ledger with trackers := s.ledger.trackers.map (fun t =>
        if t.code = code then { t with suppressed := t.suppressed + 1 } else t) } }
  else { s with ledger := { s.ledger with sharedSuppressed := s.ledger.sharedSuppressed + 1 } }

/-- Raises a Ledger event without its EMCY (R417, R418): the state and the sequence number, 0 when not recorded. -/
def ledgerRecord (s : State) (code : Nat) (data : List Byte) : State × Nat :=
  if neverLimited code then ledgerAssign s code data false
  else
    match s.ledger.trackers.find? (fun t => t.code == code) with
    | some t =>
      if t.made < forceN s 0x3180 6 then
        ledgerAssign { s with ledger := { s.ledger with trackers := s.ledger.trackers.map (fun u =>
          if u.code = code then { u with made := u.made + 1 } else u) } } code data false
      else (suppress s code true, 0)
    | none =>
      if s.ledger.trackers.length < 128 then
        ledgerAssign { s with ledger := { s.ledger with
          trackers := s.ledger.trackers ++ [{ code := code, made := 1, suppressed := 0 }] } } code data false
      else (suppress s code false, 0)

/-- Raises an event (R417) and the EMCY that goes with it (R438, R454). Called after the state change it reports. -/
def raise (s : State) (code : Nat) (data : List Byte) : State :=
  let r := ledgerRecord s code data
  match emcyOf code data with
  | some err => emcyRaise r.1 err code (r.2 % 2 ^ 24)
  | none => r.1

/-- Follows the error register after a change of its conditions: EMCY 0x0000 when it returns to 0 (R438). -/
def settleErrors (s : State) : State :=
  let now := errorRegister s
  let was := s.mgmt.errorSeen
  let s := { s with mgmt := { s.mgmt with errorSeen := now } }
  if now = 0 ∧ was ≠ 0 then emcyRaise s 0 0 0 else s

/-- Changes the device state and notes the time of the change ([2000.03]). -/
def enterState (s : State) (d : DeviceState) : State :=
  { s with sys := { s.sys with dev := d, since := s.sys.time } }

/-- Begins step n of the start-up timeline (R361), reporting the time of the step before in [2F01]. -/
def beginStep (s : State) (n : Nat) : State :=
  let took := (s.sys.time - s.sys.stepAt) / 64000
  let s := if 3 ≤ s.sys.step then setStat s 0x2F01 s.sys.step took else s
  { s with sys := { s.sys with step := n, stepAt := s.sys.time } }

/-- Event select of a counter (R455). -/
def eventSelect (s : State) (b n : Nat) : Nat :=
  settingN s (0x3210 + b) (1 + n)

/-- Advances a counter that runs; an advance past 2^48 − 1 sets its sticky bit (R458). -/
def perfAdvance (s : State) (b n k : Nat) : State :=
  let i := 8 * b + n
  let v := tabGet dNat s.perf.counters i + k
  if s.perf.run && decide (0 < k) then
    { s with perf := { s.perf with
        counters := tabSet dNat s.perf.counters i (v % 2 ^ 48),
        sticky := if 2 ^ 48 ≤ v then tabSet dBool s.perf.sticky i true else s.perf.sticky } }
  else s

/-- Counts `k` happenings of a count event of block b (R455 mode 0). -/
def perfCount (s : State) (b e k : Nat) : State :=
  (List.range 8).foldl (fun s n => if eventSelect s b n = e then perfAdvance s b n k else s) s

/-- Changes rail r. -/
def modRail (s : State) (r : Nat) (f : RailRec → RailRec) : State :=
  { s with power := { s.power with rails := tabMod dRail s.power.rails r f } }

/-- Changes media domain k. -/
def modDomain (s : State) (k : Nat) (f : DomainRec → DomainRec) : State :=
  { s with power := { s.power with domains := tabMod dDomain s.power.domains k f } }

/-- Changes channel c. -/
def modChannel (s : State) (c : Nat) (f : ChannelRec → ChannelRec) : State :=
  { s with channels := tabMod dChannel s.channels c f }

/-- Changes port p. -/
def modPort (s : State) (p : Nat) (f : PortRec → PortRec) : State :=
  { s with ports := tabMod dPort s.ports p f }

/-- Changes session n. -/
def modSession (s : State) (n : Nat) (f : Session → Session) : State :=
  { s with mgmt := { s.mgmt with sessions := tabMod dSession s.mgmt.sessions n f } }

end Sys2Proof.Machine
end

