-- ==== Sys2Proof/Machine/Folio.lean ====
section
/-! DEFINITION. Machine/Folio.lean: the Folio store (R400 to R411), the tallies (R412 to R415) and the Ledger's place in
it (R416 to R421), with the commands that drive them. Section updates follow R406 phase by phase, page by page. -/

namespace Sys2Proof.Machine

/-- What an unlisted Folio byte holds: tally cell j holds j (R412), the two calibration halves are zero with the check
that makes them valid (R409), everything else is 0 (log entry 3). -/
def dFolio (a : Nat) : Byte :=
  if 0x50000 ≤ a ∧ a < 0x54000 ∧ a % 4 = 0 then BitVec.ofNat 8 (a % 64 / 4)
  else if 0x59FFC ≤ a ∧ a < 0x5A000 then [0x5A, 0x4F, 0x9E, 0xDD].getD (a - 0x59FFC) 0
  else if 0x5DFFC ≤ a ∧ a < 0x5E000 then [0x5A, 0x4F, 0x9E, 0xDD].getD (a - 0x5DFFC) 0
  else 0

/-- What an unlisted byte of the live image of sections 9 to 15 is. -/
def dImage : Nat → Byte := fun _ => 0

/-- `n` Folio bytes from address `a`. -/
def folioRead (s : State) (a n : Nat) : List Byte :=
  tabGetList dFolio s.folio.bytes a n

/-- The array with bytes written from address `a`. -/
def folioStore (s : State) (a : Nat) (bs : List Byte) : State :=
  { s with folio := { s.folio with bytes := tabSetList dFolio s.folio.bytes a bs } }

/-- The number in `n` Folio bytes. -/
def folioNum (s : State) (a n : Nat) : Nat :=
  ofLe (folioRead s a n)

/-- Cuts a run of bytes at 64-byte page boundaries (R400); `fuel` pages. -/
def pageSplitAux : Nat → Nat → List Byte → List (Nat × List Byte)
  | 0, _, _ => []
  | fuel + 1, a, bs =>
    if bs.isEmpty then []
    else
      let n := 64 - a % 64
      (a, bs.take n) :: pageSplitAux fuel (a + n) (bs.drop n)

/-- The page writes of a run of bytes. -/
def pageSplit (a : Nat) (bs : List Byte) : List (Nat × List Byte) :=
  pageSplitAux (bs.length / 64 + 2) a bs

/-- Changes the live image of sections 9 to 15. -/
def imageStore (s : State) (off : Nat) (bs : List Byte) : State :=
  { s with folio := { s.folio with image := tabSetList dImage s.folio.image off bs } }

/-- Queues an item. -/
def folioQueue (s : State) (cls : Nat) (task : FolioTask) (pages : List (Nat × List Byte)) : State :=
  { s with folio := { s.folio with queue := s.folio.queue ++ [{ cls := cls, task := task, pages := pages }] } }

/-- The section of a P-class object, by its owning block (table of R408). -/
def sectionOf (idx : Nat) : Nat :=
  let b := idx / 256
  if b ≤ 0x20 then 0
  else if b ≤ 0x30 then (b - 0x1F) / 2
  else 8

/-- Every P-class object of a section in ascending order of index and subindex, with its width (R408). -/
def sectionObjects (k : Nat) : List (Nat × Nat) :=
  let rows := objectTable.filter (fun r => r.pers == .p)
  let objs := rows.flatMap (fun r =>
    (List.range (r.idxHi + 1 - r.idxLo)).flatMap (fun i =>
      if sectionOf (r.idxLo + i) = k then
        (List.range (r.subHi + 1 - r.subLo)).map (fun j => (objKey (r.idxLo + i) (r.subLo + j), r.ty.width))
      else []))
  sortBy (fun a b => decide (a.1 ≤ b.1)) objs

/-- The effective value of a setting: its stored value, or the value its default follows (R446 COB-IDs; the layout
defaults are filled in by the units that own them and stand as 0 in the parameter store until then). -/
def settingEff (s : State) (key : Nat) : Int :=
  let v := tabGet objDefault s.settings key
  if v < 0 then
    if key = objKey 0x1014 0 then ((0x80 + s.mgmt.nodeId : Nat) : Int)
    else if key = objKey 0x1800 1 then ((0x180 + s.mgmt.nodeId : Nat) : Int)
    else v
  else v

/-- The stored bytes of a list of objects (R408). -/
def objectBytes (s : State) (objs : List (Nat × Nat)) : List Byte :=
  objs.flatMap (fun o => leBytes o.2 (toUnsigned o.2 (settingEff s o.1)))

/-- The runs of copy offsets a section occupies: start and length (table of sections). -/
def sectionRuns (k : Nat) : List (Nat × Nat) :=
  if k = 9 then [(0x9000, 0xE00), (0x9F00, 0x100)] else [(0x1000 * k, 0x1000)]

/-- The content a section should have now: object values for 0 to 8, the live image for 9 to 15. -/
def sectionContent (s : State) (k : Nat) : List Byte :=
  if k ≤ 8 then padTo 0x1000 (objectBytes s (sectionObjects k))
  else (sectionRuns k).flatMap (fun r => tabGetList dImage s.folio.image r.1 r.2)

/-- The content of a section as a copy holds it (copy 0 A, 1 B). -/
def sectionHeld (s : State) (copy k : Nat) : List Byte :=
  (sectionRuns k).flatMap (fun r => folioRead s (0x10000 * copy + r.1) r.2)

/-- The layout objects, whose committed values R490 saves: [2200.01], the contain ranges, the key ranges. -/
def layoutObject (key : Nat) : Bool :=
  let idx := key / 256
  key == objKey 0x2200 1 || (0x2201 ≤ idx && idx ≤ 0x2208) || (0x2710 ≤ idx && idx ≤ 0x2717)

/-- Values laid end to end: those of `pick` as they stand now, the others as `held` has them. -/
def overlaid (s : State) (pick : Nat → Bool) : List (Nat × Nat) → List Byte → List Byte
  | [], _ => []
  | o :: os, held =>
    (if pick o.1 then leBytes o.2 (toUnsigned o.2 (settingEff s o.1)) else padTo o.2 (held.take o.2))
      ++ overlaid s pick os (held.drop o.2)

/-- The page writes that put `content` into a copy of a section. -/
def sectionPages (copy k : Nat) (content : List Byte) : List (Nat × List Byte) :=
  if k = 9 then pageSplit (0x10000 * copy + 0x9000) (content.take 0xE00)
    ++ pageSplit (0x10000 * copy + 0x9F00) (content.drop 0xE00)
  else pageSplit (0x10000 * copy + 0x1000 * k) content

/-- Address of a copy's seal of a section. -/
def sealAddr (copy k : Nat) : Nat :=
  0x10000 * copy + 0x9E00 + 16 * k

/-- The seal entry of a section's content with a sequence number. -/
def sealBytes (k seq : Nat) (content : List Byte) : List Byte :=
  let seqB := leBytes 8 seq
  let tail := leBytes 1 k ++ leBytes 1 (0xFF - k) ++ [0, 0]
  seqB ++ leBytes 4 (crc32c (content ++ seqB ++ tail)).toNat ++ tail

/-- The sequence number a copy's seal holds. -/
def sectionSeq (s : State) (copy k : Nat) : Nat :=
  folioNum s (sealAddr copy k) 8

/-- Whether a copy of a section is valid (R406). -/
def sectionValid (s : State) (copy k : Nat) : Bool :=
  folioRead s (sealAddr copy k) 16 == sealBytes k (sectionSeq s copy k) (sectionHeld s copy k)

/-- The content of a section with the committed layout alone brought up to date (R490): the other values as the newer
valid copy holds them. With no valid copy the section is written whole. -/
def layoutContent (s : State) (k : Nat) : List Byte :=
  let newest := if sectionSeq s 0 k < sectionSeq s 1 k then 1 else 0
  let held := if sectionValid s newest k then some newest
    else if sectionValid s (1 - newest) k then some (1 - newest) else none
  match held with
  | some c => padTo 0x1000 (overlaid s layoutObject (sectionObjects k) (sectionHeld s c k))
  | none => sectionContent s k

/-- An item is a whole update of section k that has not begun. -/
def sectionWaits (k : Nat) (i : FolioItem) : Bool :=
  match i.task with
  | .parameter j 0 _ _ => j == k
  | _ => false

/-- The section whose update an item has begun. -/
def sectionBegun (i : FolioItem) : Option Nat :=
  match i.task with
  | .parameter k phase _ _ => if phase = 0 ∨ phase = 5 then none else some k
  | _ => none

/-- An update waits behind the update of the same section that has begun (R406). -/
def sectionBehind (s : State) (i : FolioItem) : Bool :=
  match i.task with
  | .parameter k phase _ _ =>
    (phase == 0 || phase == 5) && s.folio.queue.any (fun j => sectionBegun j == some k)
  | _ => false

/-- Queues an update of a section in a class (R402, R406); one of that class or a lower one already waiting covers it. -/
def sectionUpdateIn (cls : Nat) (s : State) (k : Nat) : State :=
  if s.folio.queue.any (fun i => sectionWaits k i && decide (i.cls ≤ cls)) then s
  else folioQueue s cls (.parameter k 0 0 0) []

/-- Queues an update of a section: class 3 for the parameter store, class 2 for sections 9 to 15 (R402). -/
def sectionUpdate (s : State) (k : Nat) : State :=
  sectionUpdateIn (if k ≤ 8 then 3 else 2) s k

/-- Queues the saving of a committed layout in section k (R490): class 2, the layout objects alone. -/
def layoutSave (s : State) (k : Nat) : State :=
  if s.folio.queue.any (fun i => i.task == .parameter k 5 0 0) then s
  else folioQueue s 2 (.parameter k 5 0 0) []

/-- What becomes of the device when a section's update is durable (R406 step 3): the Ledger clear ends (R420). -/
def sectionDurable (s : State) (k : Nat) : State :=
  if k = 9 then
    match s.ledger.clearing with
    | some m =>
      let record : LedgerRecord :=
        { seq := m + 1, code := 0x3182, time := nowNs s, data := padTo 11 (leBytes 6 m),
          flags := devNum s.sys.dev + 16 * bnat s.ledger.firstSincePor }
      { s with ledger := { s.ledger with clearing := none, pending := record :: s.ledger.pending,
                                         firstSincePor := false } }
    | none => s
  else s

/-- The pages of an item that would change the array (R400). -/
def realPages (s : State) (pages : List (Nat × List Byte)) : List (Nat × List Byte) :=
  pages.filter (fun p => folioRead s p.1 p.2.length != p.2)

/-- A section's update begins with its content (R406 steps 1 and 2): the copy with the lower sequence number first. -/
def sectionBegin (s : State) (it : FolioItem) (k : Nat) (content : List Byte) : State × Option FolioItem :=
  let a := sectionSeq s 0 k
  let b := sectionSeq s 1 k
  let first := if b < a then 1 else 0
  (s, some { it with task := .parameter k 1 (max a b + 1) first, pages := sectionPages first k content })

/-- One phase further of a section update whose pages are all written (R406). None: the item is finished. -/
def sectionAdvance (s : State) (it : FolioItem) (k phase seq copy : Nat) : State × Option FolioItem :=
  match phase with
  | 0 => sectionBegin s it k (sectionContent s k)
  | 5 => sectionBegin s it k (layoutContent s k)
  | 1 =>
    (s, some { it with task := .parameter k 2 seq copy,
                       pages := pageSplit (sealAddr copy k) (sealBytes k seq (sectionHeld s copy k)) })
  | 2 =>
    (sectionDurable s k,
     some { it with task := .parameter k 3 seq copy, pages := sectionPages (1 - copy) k (sectionHeld s copy k) })
  | 3 =>
    (s, some { it with task := .parameter k 4 seq copy,
                       pages := pageSplit (sealAddr (1 - copy) k) (sealBytes k seq (sectionHeld s (1 - copy) k)) })
  | _ => (s, none)

/-- What the end of a whole item does. -/
def itemDone (s : State) (it : FolioItem) : State :=
  match it.task with
  | .ledger seqs =>
    { s with ledger := { s.ledger with pending := s.ledger.pending.filter (fun r => !seqs.contains r.seq) } }
  | .tally i =>
    { s with folio := { s.folio with tallyPending := tabMod dNat s.folio.tallyPending i (fun n => n - 1) } }
  | .closedRecord => { s with sys := { s.sys with closedDone := true } }
  | .openRecord => { s with sys := { s.sys with openRecordDone := true } }
  | _ => s

/-- Brings an item to its next real page write, through at most `fuel` phases. -/
def itemSettle : Nat → State → FolioItem → State × Option FolioItem
  | 0, s, it => (s, some it)
  | fuel + 1, s, it =>
    match realPages s it.pages with
    | p :: ps => (s, some { it with pages := p :: ps })
    | [] =>
      match it.task with
      | .parameter k phase seq copy =>
        match sectionAdvance s it k phase seq copy with
        | (s', some it') => itemSettle fuel s' it'
        | (s', none) => (s', none)
      | _ => (itemDone s it, none)

/-- Slot of a Ledger record (R416). -/
def ledgerSlot (s : State) (q : Nat) : Nat :=
  q - s.ledger.mark - 1

/-- The 32 bytes of a Ledger record (R416). -/
def recordBytes (r : LedgerRecord) : List Byte :=
  withCrc (leBytes 6 r.seq ++ leBytes 2 r.code ++ leBytes 8 r.time ++ padTo 11 r.data ++ leBytes 1 r.flags)

/-- The next Ledger page write: the oldest pending record, with its page mate when both are pending (R417). -/
def ledgerItem (s : State) : Option FolioItem :=
  if s.ledger.clearing.isSome then none
  else
    match s.ledger.pending with
    | [] => none
    | r :: rest =>
      let slot := ledgerSlot s r.seq
      let mate := rest.find? (fun x => slot % 2 == 0 && x.seq == r.seq + 1)
      let rs := r :: mate.toList
      some { cls := 4, task := .ledger (rs.map (·.seq)),
             pages := [(0x20000 + 32 * slot, rs.flatMap recordBytes)] }

/-- Whether the abandon comparator of R377 allows a page write to begin (R403). -/
def comparatorOk (s : State) : Bool :=
  3000 ≤ max s.power.vin s.reserve.vres

/-- Whether an item of a class may begin in the present state (R403). -/
def classAllowed (s : State) (cls : Nat) : Bool :=
  match s.sys.dev with
  | .warn | .varnish => false
  | .varnished => !s.folio.epilogueOver && (cls == 1 || cls == 4 || cls == 6)
  | .priming => !s.sys.recalling
  | _ => true

/-- The place of a class in the order of page writes (R402). -/
def classRank (s : State) (cls : Nat) : Nat :=
  match s.sys.dev, cls with
  | .standby, 4 => 5
  | .standby, 5 => 4
  | _, c => c

/-- The item that goes next: the first class, in order of request within a class (R402); in Standby the user page writes go
before the Ledger records (R403). -/
def nextItem (s : State) : Option FolioItem :=
  let cands := (s.folio.queue ++ (ledgerItem s).toList).filter (fun i => classAllowed s i.cls && !sectionBehind s i)
  cands.foldl (fun best i =>
    match best with
    | none => some i
    | some b => if classRank s i.cls < classRank s b.cls then some i else some b) none

/-- Takes the first item equal to `it` out of the queue. -/
def unqueue (s : State) (it : FolioItem) : State :=
  { s with folio := { s.folio with queue := s.folio.queue.erase it } }

/-- Puts an item that has more pages back at the head of its class. -/
def requeue (s : State) (it : FolioItem) : State :=
  { s with folio := { s.folio with queue := it :: s.folio.queue } }

/-- The next queued page write starts (R402), when there is one. -/
def startPageWrite (s : State) : State :=
  match nextItem s with
  | none => s
  | some it =>
    match itemSettle 8 (unqueue s it) it with
    | (s', some it') =>
      match it'.pages with
      | (a, bs) :: ps =>
        let job : PageJob := { addr := a, bytes := bs, item := { it' with pages := ps, begun := true } }
        { s' with folio := { s'.folio with running := some job } }
      | [] => s'
    | (s', none) => s'

/-- Goes on with an item whose page write has ended: back to the head of its class, or done (R402, R406). -/
def continueItem (s : State) (it : FolioItem) : State :=
  match itemSettle 8 s it with
  | (s', some it') => requeue s' it'
  | (s', none) => s'

/-- The end of a page write (R405): the array holds what the read-back shows; a mismatch repeats the page write once, a
second one is counted and recorded and the item is taken as torn; otherwise the item goes on. -/
def completePageWrite (s : State) (readBack : List Byte) : State :=
  match s.folio.running with
  | none => s
  | some job =>
    let held := (readBack.take job.bytes.length) ++ job.bytes.drop readBack.length
    let s := bump (folioStore s job.addr held) 0x3100 3 1
    if held = job.bytes then continueItem { s with folio := { s.folio with running := none } } job.item
    else if job.repeated then
      let s := raise (bump { s with folio := { s.folio with running := none } } 0x3100 5 1) 0x3104 (leBytes 3 job.addr)
      match job.item.task with
      | .parameter _ _ _ _ => continueItem s job.item
      | _ => if job.item.pages.isEmpty then s else requeue s job.item
    else { s with folio := { s.folio with running := some { job with repeated := true } } }

/-- Value of cell j of tally i (R412). -/
def tallyCell (s : State) (i j : Nat) : Nat :=
  folioNum s (0x50000 + 64 * i + 4 * j) 4

/-- The stored value s of a tally: the largest held by a consistent cell whose ring predecessor holds one less. -/
def tallyStored (s : State) (i : Nat) : Nat :=
  (List.range 16).foldl (fun best j =>
    let v := tallyCell s i j
    if v % 16 = j ∧ tallyCell s i ((j + 15) % 16) + 1 = v ∧ best < v then v else best) 15

/-- The count of a tally as the Folio holds it (R412). -/
def tallyCount (s : State) (i : Nat) : Nat :=
  tallyStored s i - 15

/-- A tally's value as every object reports it: count plus pending (R414). -/
def tallyValue (s : State) (i : Nat) : Nat :=
  if 192 ≤ i then 0 else min (tallyCount s i + tabGet dNat s.folio.tallyPending i) 0xFFFFFFF0

/-- The value a cell of a tally should hold: the largest congruent to its index and not above s (R412). -/
def tallyExpected (stored j : Nat) : Nat :=
  stored - (stored + 16 - j) % 16

/-- The torn cells of a tally (R412). -/
def tornCells (s : State) (i : Nat) : List Nat :=
  let st := tallyStored s i
  (List.range 16).filter (fun j => tallyCell s i j != tallyExpected st j)

/-- Queues the repair of the torn cells of tally i, counted and recorded (R412 step 4). -/
def repairTally (s : State) (i : Nat) : State :=
  let st := tallyStored s i
  (tornCells s i).foldl (fun s j =>
    let s := folioQueue s 6 (.tornCell i j) [(0x50000 + 64 * i + 4 * j, leBytes 4 (tallyExpected st j))]
    raise (bump s 0x3100 8 1) 0x3103 (leBytes 1 i ++ leBytes 1 j)) s

/-- TALLY_INCREMENT (R414): a tally with a pending count queues one increment; one increment of a tally at a time, and
none of a saturated tally (R413). -/
def execTallyIncrement (tally : Byte) (s : State) : Host.Outcome State Fault Refusal :=
  let i := tally.toNat
  let running := s.folio.queue.any (fun it => it.task == .tally i) ||
    (match s.folio.running with
     | some j => j.item.task == .tally i
     | none => false)
  if tabGet dNat s.folio.tallyPending i = 0 ∨ running ∨ tallyCount s i ≥ 0xFFFFFFF0 then .next s
  else
    let n := tallyCount s i
    .next (folioQueue s 6 (.tally i) [(0x50000 + 64 * i + 4 * (n % 16), leBytes 4 (n + 16))])

/-- RATE_LIMIT_WINDOW (R418): summary records of the suppressed codes, event 0x3183 of the shared count, and the
trackers with no event in the window freed. -/
def execRateLimitWindow (s : State) : Host.Outcome State Fault Refusal :=
  let s := takeForce s 0x3180 6
  let ts := s.ledger.trackers
  let s := ts.foldl (fun s t =>
    if 0 < t.suppressed then (ledgerAssign s t.code (leBytes 4 t.suppressed) true).1 else s) s
  let shared := s.ledger.sharedSuppressed
  let kept := (ts.filter (fun t => 0 < t.made || 0 < t.suppressed)).map
    (fun t => { t with made := 0, suppressed := 0 })
  let s := { s with ledger := { s.ledger with trackers := kept, sharedSuppressed := 0 } }
  .next (if 0 < shared then raise s 0x3183 (satBytes 4 shared) else s)

/-- A record as the Folio holds it in a slot, if it is valid there (R416). -/
def recordInSlot (s : State) (slot : Nat) : Option (List Byte) :=
  let bs := folioRead s (0x20000 + 32 * slot) 32
  if crcOk bs && numAt bs 0 6 == s.ledger.mark + 1 + slot then some bs else none

/-- The first slot that is not valid, from `slot` on (R416). -/
def ledgerScan (s : State) : Nat → Nat → Nat
  | 0, slot => slot
  | fuel + 1, slot =>
    match recordInSlot s slot with
    | some _ => ledgerScan s fuel (slot + 1)
    | none => slot

/-- Record q as it is valid or pending now, with its pending mark (R421). -/
def recordAt (s : State) (q : Nat) : Option (List Byte × Bool) :=
  match s.ledger.pending.find? (fun r => r.seq == q) with
  | some r => some (recordBytes r, true)
  | none => (recordInSlot s (ledgerSlot s q)).map (fun b => (b, false))

/-- Up to `n` records from q on, in sequence order (R421). -/
def recordsFrom (s : State) : Nat → Nat → List (List Byte × Bool)
  | 0, _ => []
  | n + 1, q =>
    match recordAt s q with
    | some r => r :: recordsFrom s n (q + 1)
    | none => []

/-- The Window object of a session's cursor: its 264 bytes and the cursor after the read (R421). While a clear is in
progress nothing above M' is shown (R420). -/
def ledgerWindow (s : State) (cursor : Nat) : List Byte × Nat :=
  let gap := cursor ≤ s.ledger.mark
  let start := if gap then s.ledger.mark + 1 else cursor
  let rs := if s.ledger.clearing.isSome then [] else recordsFrom s 8 start
  let flags := bnat gap + 2 * bnat s.ledger.full + 4 * bnat (rs.any (·.2))
  let first := if rs.isEmpty then 0 else start
  (padTo 264 (leBytes 6 first ++ leBytes 1 rs.length ++ leBytes 1 flags ++ rs.flatMap (·.1)),
   if rs.isEmpty then cursor else start + rs.length)

/-- Records held: valid in the Folio or pending ([3180.03]). -/
def recordsHeld (s : State) : Nat :=
  if s.ledger.clearing.isSome then 0 else s.ledger.lastSeq - s.ledger.mark

/-- The effect of LEDGER_CLEAR (R420), or the detail code it is rejected with. -/
def ledgerClear (s : State) : Except Nat State :=
  if s.ledger.clearing.isSome then .error 0x3104
  else if inShutdown s then .error 0x3105
  else
    let m := s.ledger.lastSeq
    let s := { s with ledger := { s.ledger with mark := m, lastSeq := m + 1, full := false, clearing := some m,
                                                pending := s.ledger.pending.filter (fun r => m < r.seq) } }
    .ok (sectionUpdate (imageStore s 0x9FF8 (leBytes 8 m)) 9)

/-- The effect of a user page write (R411). -/
def userWrite (s : State) (address : Nat) (data : List Byte) : Except Nat State :=
  if 64 < address % 64 + data.length then .error 0x3103
  else if inShutdown s then .error 0x3105
  else .ok (folioQueue s 5 .userPage [(0x5E000 + address, data)])

/-- The user bytes from an address to the end of its page, with queued writes applied (R411). -/
def userRead (s : State) (address : Nat) : List Byte :=
  let n := 64 - address % 64
  let a := 0x5E000 + address
  let running := match s.folio.running with
    | some j => if j.item.task = .userPage then [(j.addr, j.bytes)] else []
    | none => []
  let queued := (s.folio.queue.filter (fun i => i.task == .userPage)).flatMap (·.pages)
  let t := (running ++ queued).foldl (fun t p => tabSetList dFolio t p.1 p.2) s.folio.bytes
  tabGetList dFolio t a n

/-- A read that needs the array while a page write is programmed waits for its end, and the wait is counted (R401). -/
def arrayWait (s : State) : State :=
  if s.folio.running.isSome then bump s 0x3100 4 1 else s

/-- The mask of the sections 0 to 8 whose content differs from a valid copy pair (R408). -/
def changedSections (s : State) : List Nat :=
  (List.range 9).filter (fun k =>
    !(sectionValid s 0 k && sectionValid s 1 k && sectionHeld s 0 k == sectionContent s k
      && sectionHeld s 1 k == sectionContent s k))

/-- The effect of a store command (R408): every changed section is queued in order, and 0x3106 is recorded. -/
def storeParameters (s : State) (sess : Nat) : State :=
  let ks := changedSections s
  let s := ks.foldl sectionUpdate s
  raise s 0x3106 (leBytes 1 sess ++ leBytes 2 (ks.foldl (fun m k => m + 2 ^ k) 0))

/-- The effect of a restore command (R408): the restore-defaults bit of section 9. -/
def restoreDefaults (s : State) : State :=
  sectionUpdateIn 3 (imageStore s 0x9000 [1]) 9

/-- The statistics clear of [3100.09] (R422). -/
def folioClear (s : State) : State :=
  clearStats (clearStats (clearStats s 0x3100 3 3) 0x3100 8 1) 0x3180 0x0A 1

/-- Whether an object is of a signed type. -/
def objSigned (key : Nat) : Bool :=
  match objRow? (key / 256) (key % 256) with
  | some r => r.ty == .i8 || r.ty == .i16
  | none => false

/-- Loads the objects of a section from the bytes a copy holds (R407). -/
def loadObjects (s : State) : List (Nat × Nat) → List Byte → State
  | [], _ => s
  | (key, w) :: rest, bs =>
    let v := ofLe (bs.take w)
    let value : Int := if objSigned key then toSigned w v
      else if objDefault key = -1 ∧ v = toUnsigned w (-1) then -1 else (v : Int)
    loadObjects { s with settings := tabSet objDefault s.settings key value } rest (bs.drop w)

/-- The copy of a section that recall loads, when one is valid (R407). -/
def bestCopy (s : State) (k : Nat) : Option Nat :=
  match sectionValid s 0 k, sectionValid s 1 k with
  | true, true => some (if sectionSeq s 0 k < sectionSeq s 1 k then 1 else 0)
  | true, false => some 0
  | false, true => some 1
  | false, false => none

/-- Loads what a copy of a section holds: object values, or the live image. -/
def loadSection (s : State) (c k : Nat) : State :=
  let held := sectionHeld s c k
  if k ≤ 8 then loadObjects s (sectionObjects k) held
  else if k = 9 then imageStore (imageStore s 0x9000 (held.take 0xE00)) 0x9F00 (held.drop 0xE00)
  else imageStore s (0x1000 * k) held

/-- The P-class objects of a section take their defaults. -/
def defaultSection (s : State) (k : Nat) : State :=
  (sectionObjects k).foldl (fun s o =>
    { s with settings := tabSet objDefault s.settings o.1 (objDefault o.1) }) s

/-- The highest sequence number in the Ledger area (R407). -/
def ledgerTop (s : State) : Nat :=
  (List.range 6144).foldl (fun m i =>
    let bs := folioRead s (0x20000 + 32 * i) 32
    if crcOk bs then max m (numAt bs 0 6) else m) 0

/-- Resolves one section at recall (R407). -/
def resolveSection (s : State) (k : Nat) : State :=
  match bestCopy s k with
  | some c =>
    let both := sectionValid s (1 - c) k
    let s := if both && sectionSeq s 0 k == sectionSeq s 1 k then s
      else
        let s := { s with folio := { s.folio with queue := s.folio.queue ++
          [{ cls := if k ≤ 8 then 3 else 2, task := .parameter k 3 (sectionSeq s c k) c,
             pages := sectionPages (1 - c) k (sectionHeld s c k) }] } }
        if both then s else raise s 0x3101 (leBytes 1 k ++ leBytes 1 (1 - c))
    loadSection s c k
  | none =>
    let s := raise s 0x3102 (leBytes 1 k)
    let s :=
      if k ≤ 8 then defaultSection s k
      else if k = 9 then
        imageStore (imageStore (imageStore s 0x9000 (List.replicate 0xE00 0)) 0x9F00 (List.replicate 0xF0 0))
          0x9FF0 ([1, 1, 1, 1, 0, 0, 0, 0] ++ leBytes 8 (ledgerTop s))
      else imageStore s (0x1000 * k) (List.replicate 0x1000 0)
    sectionUpdate s k

end Sys2Proof.Machine
end

