-- ==== Sys2Proof/Machine/Cipher.lean ====
section
/-! DEFINITION. Machine/Cipher.lean: the standards the encryption chapter names (R185, R187, R188): AES-256, XTS-AES-256
(IEEE 1619) over a 64-byte data unit, AES-256-CMAC (NIST SP 800-38B) and AES key wrap (RFC 3394). PRESUMED: the bodies of
these standards are taken from outside the spec, which names them (log entry 5). -/

namespace Sys2Proof.Machine

/-- The AES substitution box, entry i in bits 8i+7..8i. -/
def aesSboxBits : BitVec 2048 :=
  0x16BB54B00F2D99416842E6BF0D89A18CDF2855CEE9871E9B948ED9691198F8E19E1DC186B95735610EF6034866B53E708A8BBD4B1F74DDE8C6B4A61C2E2578BA08AE7A65EAF4566CA94ED58D6D37C8E779E4959162ACD3C25C2406490A3A32E0DB0B5EDE14B8EE4688902A22DC4F816073195D643D7EA7C41744975FEC130CCDD2F3FF1021DAB6BCF5389D928F40A351A89F3C507F02F94585334D43FBAAEFD0CF584C4A39BECB6A5BB1FC20ED00D153842FE329B3D63B52A05A6E1B1A2C830975B227EBE28012079A059618C323C7041531D871F1E5A534CCF73F362693FDB7C072A49CAFA2D4ADF04759FA7DC982CA76ABD7FE2B670130C56F6BF27B777C63#2048

/-- The inverse AES substitution box, entry i in bits 8i+7..8i. -/
def aesInvSboxBits : BitVec 2048 :=
  0x7D0C2155631469E126D677BA7E042B17619953833CBBEBC8B0F52AAE4D3BE0A0EF9CC9939F7AE52D0D4AB519A97F51605FEC8027591012B131C7078833A8DD1FF45ACD78FEC0DB9A2079D2C64B3E56FC1BBE18AA0E62B76F89C5291D711AF1476EDF751CE837F9E28535ADE72274AC9673E6B4F0CECFF297EADC674F4111913A6B8A130103BDAFC1020F3FCA8F1E2CD00645B3B80558E4F70AD3BC8C00ABD890849D8DA75746155EDAB9EDFD5048706C92B6655DCC5CA4D41698688664F6F87225D18B6D49A25B76B224D92866A12E084EC3FA420B954CEE3D23C2A632947B54CBE9DEC444438E3487FF2F9B8239E37CFBD7F3819EA340BF38A53630D56A0952#2048

/-- SubBytes of one byte. -/
def aesSub (b : Byte) : Byte :=
  (aesSboxBits >>> (8 * b.toNat)).setWidth 8

/-- InvSubBytes of one byte. -/
def aesInvSub (b : Byte) : Byte :=
  (aesInvSboxBits >>> (8 * b.toNat)).setWidth 8

/-- Multiplication by x in the AES field. -/
def aesX (b : Byte) : Byte :=
  if b.getLsbD 7 then (b <<< 1) ^^^ 0x1B#8 else b <<< 1

/-- Bytewise exclusive or. -/
def xorBytes (a b : List Byte) : List Byte :=
  List.zipWith (fun x y => x ^^^ y) a b

/-- One column of MixColumns. -/
def aesMixCol : List Byte → List Byte
  | [a, b, c, d] =>
    let t := a ^^^ b ^^^ c ^^^ d
    [a ^^^ t ^^^ aesX (a ^^^ b), b ^^^ t ^^^ aesX (b ^^^ c), c ^^^ t ^^^ aesX (c ^^^ d), d ^^^ t ^^^ aesX (d ^^^ a)]
  | l => l

/-- One column of InvMixColumns: MixColumns after the preparation by x². -/
def aesInvMixCol : List Byte → List Byte
  | [a, b, c, d] =>
    let u := aesX (aesX (a ^^^ c))
    let v := aesX (aesX (b ^^^ d))
    aesMixCol [a ^^^ u, b ^^^ v, c ^^^ u, d ^^^ v]
  | l => l

/-- A column function applied to the four columns of a 16-byte state. -/
def aesColumns (f : List Byte → List Byte) (s : List Byte) : List Byte :=
  f (s.take 4) ++ f ((s.drop 4).take 4) ++ f ((s.drop 8).take 4) ++ f (s.drop 12)

/-- ShiftRows: byte r + 4c comes from column c + r. -/
def aesShiftRows (s : List Byte) : List Byte :=
  (List.range 16).map (fun i => s.getD ((i + 4 * (i % 4)) % 16) 0)

/-- InvShiftRows. -/
def aesInvShiftRows (s : List Byte) : List Byte :=
  (List.range 16).map (fun i => s.getD ((i + 16 - 4 * (i % 4)) % 16) 0)

/-- The AES-256 key schedule: `n` further words after the words `ws` (newest first), word index `i`, round constant. -/
def aesExpand : Nat → Nat → Byte → List (List Byte) → List (List Byte)
  | 0, _, _, ws => ws
  | n + 1, i, rc, ws =>
    let prev := ws.headD []
    let base := ws.getD 7 []
    if i % 8 = 0 then
      let t := (prev.drop 1 ++ prev.take 1).map aesSub
      aesExpand n (i + 1) (aesX rc) (xorBytes base (xorBytes t [rc, 0, 0, 0]) :: ws)
    else if i % 8 = 4 then aesExpand n (i + 1) rc (xorBytes base (prev.map aesSub) :: ws)
    else aesExpand n (i + 1) rc (xorBytes base prev :: ws)

/-- A byte list cut into pieces of `k` bytes; `n` pieces. -/
def chunks (k : Nat) : Nat → List Byte → List (List Byte)
  | 0, _ => []
  | n + 1, l => l.take k :: chunks k n (l.drop k)

/-- The fifteen round keys of a 32-byte AES-256 key. -/
def aesRoundKeys (key : List Byte) : List (List Byte) :=
  let words := (aesExpand 52 8 1 (chunks 4 8 key).reverse).reverse
  chunks 16 15 words.flatten

/-- AES-256 encryption of one 16-byte block under its round keys. -/
def aesEncryptWith (rks : List (List Byte)) (block : List Byte) : List Byte :=
  let s0 := xorBytes block (rks.headD [])
  let s := ((rks.drop 1).take 13).foldl
    (fun s rk => xorBytes (aesColumns aesMixCol (aesShiftRows (s.map aesSub))) rk) s0
  xorBytes (aesShiftRows (s.map aesSub)) (rks.getD 14 [])

/-- AES-256 decryption of one 16-byte block under its round keys. -/
def aesDecryptWith (rks : List (List Byte)) (block : List Byte) : List Byte :=
  let s0 := (aesInvShiftRows (xorBytes block (rks.getD 14 []))).map aesInvSub
  let s := (((rks.drop 1).take 13).reverse).foldl
    (fun s rk => (aesInvShiftRows (aesColumns aesInvMixCol (xorBytes s rk))).map aesInvSub) s0
  xorBytes s (rks.headD [])

/-- AES-256 encryption of one block. -/
def aesEncrypt (key block : List Byte) : List Byte :=
  aesEncryptWith (aesRoundKeys key) block

/-- Multiplication of an XTS tweak by α in GF(2^128), bytes least significant first (IEEE 1619). -/
def xtsDouble (t : List Byte) : List Byte :=
  let n := ofLe t * 2
  let c := n / 2 ^ 128
  let bs := leBytes 16 (n % 2 ^ 128)
  if c = 0 then bs else (bs.headD 0 ^^^ 0x87#8) :: bs.drop 1

/-- The block pass of XTS over a list of blocks with the running tweak. -/
def xtsBlocks (f : List Byte → List Byte) : List (List Byte) → List Byte → List Byte
  | [], _ => []
  | b :: bs, t => xorBytes (f (xorBytes b t)) t ++ xtsBlocks f bs (xtsDouble t)

/-- XTS-AES-256 encryption of a 64-byte data unit with tweak value `i` (R187). -/
def xtsEncrypt (k1 k2 : List Byte) (i : Nat) (data : List Byte) : List Byte :=
  let rks := aesRoundKeys k1
  xtsBlocks (aesEncryptWith rks) (chunks 16 4 data) (aesEncrypt k2 (leBytes 16 i))

/-- XTS-AES-256 decryption of a 64-byte data unit with tweak value `i` (R187). -/
def xtsDecrypt (k1 k2 : List Byte) (i : Nat) (data : List Byte) : List Byte :=
  let rks := aesRoundKeys k1
  xtsBlocks (aesDecryptWith rks) (chunks 16 4 data) (aesEncrypt k2 (leBytes 16 i))

/-- Big-endian number of a byte list. -/
def ofBe (bs : List Byte) : Nat :=
  ofLe bs.reverse

/-- Big-endian bytes of a number. -/
def beBytes (n v : Nat) : List Byte :=
  (leBytes n v).reverse

/-- Doubling in GF(2^128) of a CMAC subkey, most significant byte first (SP 800-38B). -/
def cmacDouble (l : List Byte) : List Byte :=
  let n := ofBe l * 2
  let r := n % 2 ^ 128
  if n < 2 ^ 128 then beBytes 16 r
  else beBytes 15 (r / 256) ++ [BitVec.ofNat 8 r ^^^ 0x87#8]

/-- The CBC pass of CMAC over `n` whole blocks. -/
def cmacBlocks (rks : List (List Byte)) : Nat → List Byte → List Byte → List Byte × List Byte
  | 0, acc, msg => (acc, msg)
  | n + 1, acc, msg => cmacBlocks rks n (aesEncryptWith rks (xorBytes acc (msg.take 16))) (msg.drop 16)

/-- AES-256-CMAC tag of a message (NIST SP 800-38B). -/
def cmac (key msg : List Byte) : List Byte :=
  let rks := aesRoundKeys key
  let k1 := cmacDouble (aesEncryptWith rks (List.replicate 16 0))
  let k2 := cmacDouble k1
  let full := (msg.length - 1) / 16
  let (acc, rest) := cmacBlocks rks full (List.replicate 16 0) msg
  let last :=
    if rest.length = 16 then xorBytes rest k1
    else xorBytes (rest ++ [0x80#8] ++ List.replicate (15 - rest.length) 0) k2
  aesEncryptWith rks (xorBytes acc last)

/-- One wrapping step of RFC 3394 on the 64-bit registers. -/
def kwStep (rks : List (List Byte)) (st : List Byte × List (List Byte)) (jt : Nat × Nat) : List Byte × List (List Byte) :=
  let b := aesEncryptWith rks (st.1 ++ st.2.getD jt.1 [])
  (xorBytes (b.take 8) (beBytes 8 jt.2), st.2.set jt.1 (b.drop 8))

/-- One unwrapping step of RFC 3394. -/
def kwUnstep (rks : List (List Byte)) (st : List Byte × List (List Byte)) (jt : Nat × Nat) : List Byte × List (List Byte) :=
  let b := aesDecryptWith rks (xorBytes st.1 (beBytes 8 jt.2) ++ st.2.getD jt.1 [])
  (b.take 8, st.2.set jt.1 (b.drop 8))

/-- The register and counter pairs of the six rounds over n registers. -/
def kwSchedule (n : Nat) : List (Nat × Nat) :=
  (List.range (6 * n)).map (fun i => (i % n, i + 1))

/-- AES key wrap of key data of 8n bytes under a 32-byte key (RFC 3394, R185). -/
def keyWrap (kek data : List Byte) : List Byte :=
  let n := data.length / 8
  let r := (kwSchedule n).foldl (kwStep (aesRoundKeys kek)) (List.replicate 8 0xA6#8, chunks 8 n data)
  r.1 ++ r.2.flatten

/-- AES key unwrap: the key data, or none when the integrity check fails (R185). -/
def keyUnwrap (kek wrapped : List Byte) : Option (List Byte) :=
  let n := wrapped.length / 8 - 1
  let r := (kwSchedule n).reverse.foldl (kwUnstep (aesRoundKeys kek)) (wrapped.take 8, chunks 8 n (wrapped.drop 8))
  if r.1 = List.replicate 8 0xA6#8 then some r.2.flatten else none

end Sys2Proof.Machine
end

