-- ==== Sys2Proof/Machine/Codec.lean ====
section
/-! DEFINITION. Machine/Codec.lean: the Reed-Solomon code RS(96,80) of R34 over GF(2^8) with polynomial 0x11D, its
placement on the eight columns (R35), and a decoder for e errors and f erasures with 2e + f ≤ 16. -/

namespace Sys2Proof.Machine

/-- Multiplication by α = 0x02 in GF(2^8)/0x11D (R34). -/
def gfDouble (a : Byte) : Byte :=
  if a.getLsbD 7 then (a <<< 1) ^^^ 0x1D#8 else a <<< 1

/-- Multiplication in GF(2^8)/0x11D: `n` low bits of `b` are used. -/
def gfMulAux : Nat → Byte → Byte → Byte
  | 0, _, _ => 0
  | n + 1, a, b => (if b.getLsbD 0 then a else 0) ^^^ gfMulAux n (gfDouble a) (b >>> 1)

/-- Multiplication in the field of R34. -/
def gfMul (a b : Byte) : Byte :=
  gfMulAux 8 a b

/-- α to the power `n`. -/
def gfExp : Nat → Byte
  | 0 => 1
  | n + 1 => gfDouble (gfExp n)

/-- The inverse of a nonzero element, a^254. -/
def gfInv (a : Byte) : Byte :=
  let a2 := gfMul a a
  let a4 := gfMul a2 a2
  let a8 := gfMul a4 a4
  let a16 := gfMul a8 a8
  let a32 := gfMul a16 a16
  let a64 := gfMul a32 a32
  let a128 := gfMul a64 a64
  gfMul a2 (gfMul a4 (gfMul a8 (gfMul a16 (gfMul a32 (gfMul a64 a128)))))

/-- Sum of polynomials, coefficients lowest degree first. -/
def polyAdd : List Byte → List Byte → List Byte
  | [], q => q
  | p, [] => p
  | a :: p, b :: q => (a ^^^ b) :: polyAdd p q

/-- A polynomial times a constant. -/
def polyScale (c : Byte) (p : List Byte) : List Byte :=
  p.map (gfMul c)

/-- Product of polynomials. -/
def polyMul : List Byte → List Byte → List Byte
  | [], _ => []
  | a :: p, q => polyAdd (polyScale a q) (0 :: polyMul p q)

/-- Value of a polynomial at `x`. -/
def polyEval (p : List Byte) (x : Byte) : Byte :=
  p.foldr (fun c acc => c ^^^ gfMul x acc) 0

/-- Formal derivative in characteristic 2: the odd coefficients at even degrees. -/
def polyDeriv : List Byte → List Byte
  | [] => []
  | [_] => []
  | _ :: b :: t => b :: 0 :: polyDeriv t

/-- Degree of a polynomial (0 for the zero polynomial). -/
def polyDegree (p : List Byte) : Nat :=
  (p.reverse.dropWhile (fun c => c == 0)).length - 1

/-- The generator of R34, coefficients highest degree first, without the leading 1: (x-α^0)…(x-α^15). -/
def rsGenerator : List Byte :=
  ((List.range 16).foldl (fun g j => polyMul g [gfExp j, 1]) [1]).reverse.drop 1

/-- One step of the division by the generator: a content byte enters the 16-byte remainder register. -/
def rsShift (gen : List Byte) (rem : List Byte) (m : Byte) : List Byte :=
  let fb := m ^^^ rem.headD 0
  List.zipWith (fun g r => gfMul fb g ^^^ r) gen (rem.drop 1 ++ [0])

/-- The 16 parity bytes of 80 content bytes (R34). -/
def rsParity (content : List Byte) : List Byte :=
  content.foldl (rsShift rsGenerator) (List.replicate 16 0)

/-- The 96 symbols of a codeword (R34). -/
def rsEncode (content : List Byte) : List Byte :=
  content ++ rsParity content

/-- The sixteen syndromes S_0..S_15 of a received word: its value at α^j, symbol 0 being the highest coefficient. -/
def rsSyndromes (r : List Byte) : List Byte :=
  (List.range 16).map (fun j => r.foldl (fun acc c => gfMul acc (gfExp j) ^^^ c) 0)

/-- Locator of symbol i: α^(95-i). -/
def rsLocator (i : Nat) : Byte :=
  gfExp (95 - i)

/-- The polynomial whose roots are the inverse locators of the given symbols. -/
def locatorPoly (pos : List Nat) : List Byte :=
  pos.foldl (fun g i => polyMul g [1, rsLocator i]) [1]

/-- The discrepancy at step r of the Berlekamp-Massey iteration. -/
def rsDiscrepancy (lam synd : List Byte) (r : Nat) : Byte :=
  (List.range (r + 1)).foldl (fun acc j => acc ^^^ gfMul (lam.getD j 0) (synd.getD (r - j) 0)) 0

/-- Berlekamp-Massey with erasures: `n` steps are left, step index `r`, `f` erasures, current length `len`. -/
def rsMassey (synd : List Byte) (f : Nat) : Nat → Nat → List Byte → List Byte → Nat → List Byte × Nat
  | 0, _, lam, _, len => (lam, len)
  | n + 1, r, lam, b, len =>
    let d := rsDiscrepancy lam synd r
    let lam' := polyAdd lam (0 :: polyScale d b)
    if d ≠ 0 ∧ 2 * len ≤ r + f then
      rsMassey synd f n (r + 1) lam' (polyScale (gfInv d) lam) (r + 1 + f - len)
    else rsMassey synd f n (r + 1) lam' (0 :: b) len

/-- What the decoder answers (R49): the corrected symbols with the positions it changed among the symbols not erased,
or failure. -/
inductive DecodeResult where
  | failure
  | corrected (symbols : List Byte) (errors : List Nat) (clean : Bool)
  deriving DecidableEq, Repr

/-- Decodes a received word of 96 symbols with the given erased symbol positions (R34, R48, R49): corrects every
pattern with 2e + f ≤ 16 and reports failure on any other it detects, more than 16 erasures among them. `clean` is set when
every syndrome was zero. -/
def rsDecode (r : List Byte) (erased : List Nat) : DecodeResult :=
  let synd := rsSyndromes r
  let f := erased.length
  if 16 < f then .failure
  else if synd.all (fun s => s == 0) then .corrected r [] true
  else
    let gam := locatorPoly erased
    let (lam, len) := rsMassey synd f (16 - f) f gam gam f
    let roots := (List.range 96).filter (fun i => polyEval lam (gfInv (rsLocator i)) == 0)
    if roots.length ≠ len ∨ polyDegree lam ≠ len ∨ 2 * (len - f) + f > 16 then .failure
    else
      let omega := (polyMul lam synd).take 16
      let dlam := polyDeriv lam
      let fixed := (List.range 96).map (fun i =>
        let c := r.getD i 0
        if roots.contains i then
          let xi := gfInv (rsLocator i)
          c ^^^ gfMul (rsLocator i) (gfMul (polyEval omega xi) (gfInv (polyEval dlam xi)))
        else c)
      if (rsSyndromes fixed).all (fun s => s == 0) then
        .corrected fixed (roots.filter (fun i => !erased.contains i && r.getD i 0 != fixed.getD i 0)) false
      else .failure

/-- Symbol i stands in column i mod 8 at patch byte i div 8 (R35). -/
def symbolsOfPatches (patches : List Patch) : List Byte :=
  (List.range 96).map (fun i => ((patches.getD (i % 8) 0) >>> (8 * (i / 8))).setWidth 8)

/-- The patch of column c of a 96-symbol word (R35). -/
def patchOfSymbols (symbols : List Byte) (c : Nat) : Patch :=
  bvOfBytes 96 ((List.range 12).map (fun j => symbols.getD (8 * j + c) 0))

/-- The symbol positions of a column (R35). -/
def columnSymbols (c : Nat) : List Nat :=
  (List.range 12).map (fun j => 8 * j + c)

end Sys2Proof.Machine
end

