-- ==== Sys2Proof/Machine/Map.lean ====
section
/-! DEFINITION. Machine/Map.lean: the address mapper (R11, R59 to R70, R77 to R82, R191, R491): from a device physical
address, or a metadata tile, to eight patch addresses, and back from a slot to the tile it holds; the Palette's key of a
metadata tile (R134, R135); and reading and programming the eight patches of a tile (R32, R46, R54). -/

namespace Sys2Proof.Machine

/-- What an unlisted group is. -/
def dGroup : Nat → GroupRec := fun _ => {}

/-- What an unlisted region-table entry is. -/
def dEntry : Nat → RegionEntry := fun _ => {}

/-- What an unlisted region state entry is. -/
def dRegion : Nat → RegionRec := fun _ => {}

/-- What an unlisted Palette way is. -/
def dPal : Nat → PalLine := fun _ => {}

/-- What an unlisted patch of the medium holds (log entry 16). -/
def dPatch : Nat → Patch := fun _ => 0

/-- Group `g`. -/
def groupOf (s : State) (g : Nat) : GroupRec :=
  tabGet dGroup s.groups g

/-- Changes group `g`. -/
def modGroup (s : State) (g : Nat) (f : GroupRec → GroupRec) : State :=
  { s with groups := tabMod dGroup s.groups g f }

/-- Region state entry of physical region `p` of group `g`. -/
def regionOf (s : State) (g p : Nat) : RegionRec :=
  tabGet dRegion (groupOf s g).regions p

/-- Changes a region state entry. -/
def modRegion (s : State) (g p : Nat) (f : RegionRec → RegionRec) : State :=
  modGroup s g (fun x => { x with regions := tabMod dRegion x.regions p f })

/-- Physical regions P of a group (R64). -/
def physCount (s : State) (g : Nat) : Nat :=
  if (groupOf s g).typ = 1 then 30720 else 15360

/-- Host region capacity of a group (R86). -/
def hostCount (s : State) (g : Nat) : Nat :=
  if (groupOf s g).typ = 1 then 28672 else 14336

/-- Logical regions L of a group (R65). -/
def logicalCount (s : State) (g : Nat) : Nat :=
  hostCount s g + 5

/-- RegionArea of R64. -/
def regionArea (s : State) (g : Nat) : Nat :=
  if (groupOf s g).typ = 1 then 0x88000 else 0x4C000

/-- First patch address of a physical region (R64). -/
def regionBase (s : State) (g p : Nat) : Nat :=
  regionArea s g + p * 1048581

/-- First patch address of the spare pool (R64). -/
def spareBase (s : State) (g : Nat) : Nat :=
  if (groupOf s g).typ = 1 then 0x7800AD800 else 0x3C005EC00

/-- Patches in a channel's spare pool (R64). -/
def sparePool (s : State) (g : Nat) : Nat :=
  if (groupOf s g).typ = 1 then 2146772992 else 1073353728

/-- Last patch address of the spare pool (R379). -/
def poolEnd (s : State) (g : Nat) : Nat :=
  if (groupOf s g).typ = 1 then 0x7FFFFFFFF else 0x3FFFFFFFF

/-- Set bits of an 8-bit mask. -/
def maskCount (m : Nat) : Nat :=
  ((List.range 8).filter (fun i => bitOf m i)).length

/-- The m-th set bit of a mask, from bit 0 (R61). -/
def nthGroup (mask m : Nat) : Nat :=
  ((List.range 8).filter (fun i => bitOf mask i)).getD m 0

/-- Position of bit g among the set bits of a mask. -/
def groupRank (mask g : Nat) : Nat :=
  ((List.range g).filter (fun i => bitOf mask i)).length

/-- Tiles a contain range takes in each member group (R62). -/
def containTiles (r : Nat × Nat × Nat) : Nat :=
  if maskCount r.2.2 = 0 then 0 else r.2.1 * 2 ^ 28 / (64 * maskCount r.2.2)

/-- The contain bases C_i,g of R62 in group g, in order of range number. -/
def containBases (l : Layout) (g : Nat) : List Nat :=
  (l.contain.foldl (fun acc r =>
    (acc.1 ++ [acc.2], if r.2.1 ≠ 0 ∧ bitOf r.2.2 g then acc.2 + containTiles r else acc.2))
    (([] : List Nat), l.spread * 2 ^ 31 / 512)).1

/-- R59 step 1: the group and the group tile index of a DPA (R11, R60, R61), when it is host-visible. -/
def locate (l : Layout) (dpa : Nat) : Option (Nat × Nat) :=
  if dpa < l.spread * 2 ^ 31 then
    some (dpa / 4096 % 8, dpa / 32768 * 64 + dpa / 64 % 64)
  else
    (List.range l.contain.length).findSome? (fun i =>
      let r := l.contain.getD i (0, 0, 0)
      let base := r.1 * 2 ^ 28
      let n := maskCount r.2.2
      if base ≤ dpa ∧ dpa < base + r.2.1 * 2 ^ 28 ∧ n ≠ 0 then
        let o := dpa - base
        let g := nthGroup r.2.2 (o / 4096 % n)
        some (g, (containBases l g).getD i 0 + o / (4096 * n) * 64 + o / 64 % 64)
      else none)

/-- Whether a DPA is host-visible (R63). -/
def hostVisible (l : Layout) (dpa : Nat) : Bool :=
  (locate l dpa).isSome

/-- The line address whose tile a group holds at a tile index: the inverse of `locate`. -/
def lineAt (l : Layout) (g idx : Nat) : Option Nat :=
  if idx < l.spread * 2 ^ 31 / 512 then some (idx / 64 * 512 + g * 64 + idx % 64)
  else
    (List.range l.contain.length).findSome? (fun i =>
      let r := l.contain.getD i (0, 0, 0)
      let c := (containBases l g).getD i 0
      if r.2.1 ≠ 0 ∧ bitOf r.2.2 g ∧ c ≤ idx ∧ idx < c + containTiles r then
        let rel := idx - c
        some ((r.1 * 2 ^ 28 + (rel / 64 * maskCount r.2.2 + groupRank r.2.2 g) * 4096) / 64 + rel % 64)
      else none)

/-- The 40-bit expanded key of R68. -/
def feistelKey (d key : Nat) : Nat :=
  ((d ^^^ (key * 2 ^ 24)) ^^^ (key * 2 ^ 8)) ^^^ (key / 2 ^ 8)

/-- The round function of R68. -/
def feistelRound (e i r : Nat) : Nat :=
  let k := e / 2 ^ (30 - 10 * i) % 1024
  let t := ((r ^^^ k) * 0x2B5) % 1024
  t ^^^ (t / 32)

/-- The keyed scatter of R68. -/
def feistel (x d key : Nat) : Nat :=
  let e := feistelKey d key
  let f := (List.range 4).foldl (fun lr i => (lr.2, lr.1 ^^^ feistelRound e i lr.2)) (x / 1024 % 1024, x % 1024)
  f.1 * 1024 + f.2

/-- Its inverse. -/
def feistelInv (y d key : Nat) : Nat :=
  let e := feistelKey d key
  let f := [3, 2, 1, 0].foldl (fun lr i => (lr.2 ^^^ feistelRound e i lr.1, lr.1)) (y / 1024 % 1024, y % 1024)
  f.1 * 1024 + f.2

/-- Start/gap (R70): the slot of a scattered offset. -/
def slotOf (r : RegionRec) (x' : Nat) : Nat :=
  let slot := (x' + r.start) % 1048576
  if r.gap ≤ slot then slot + 1 else slot

/-- The scattered offset a slot holds; none for the gap. -/
def scatterAt (r : RegionRec) (slot : Nat) : Option Nat :=
  if slot = r.gap ∨ 1048576 < slot then none
  else some (((if r.gap < slot then slot - 1 else slot) + 1048576 - r.start) % 1048576)

/-- The slot of region offset x in physical region p (R68, R70). -/
def slotIn (s : State) (g p x : Nat) : Nat :=
  let r := regionOf s g p
  slotOf r (feistel x s.path.seed r.key)

/-- The physical region that holds offset x of logical region lr (R65, R77). -/
def regionFor (s : State) (g lr x : Nat) : Option Nat :=
  let e := tabGet dEntry (groupOf s g).table lr
  if e.mapped then
    match (groupOf s g).move with
    | some m => if e.moving ∧ m.logical = lr ∧ x < m.pointer then some m.dst else some e.phys
    | none => some e.phys
  else none

/-- Physical region and slot of a group tile index (R59 steps 2 to 4). -/
def placeIdx (s : State) (g idx : Nat) : Option (Nat × Nat) :=
  match regionFor s g (idx / 1048576) (idx % 1048576) with
  | some p => some (p, slotIn s g p (idx % 1048576))
  | none => none

/-- First counter-tree node number of a level (R191). -/
def nodeBase : Nat → Nat
  | 1 => 0
  | 2 => 2 ^ 20
  | 3 => 2 ^ 20 + 2 ^ 15
  | _ => 2 ^ 20 + 2 ^ 15 + 2 ^ 10

/-- Group and group tile index of a tile that lies in a region (R11, R191). -/
def tileIndex (s : State) : TileId → Option (Nat × Nat)
  | .host l => locate s.path.layout (l * 64)
  | .counter c =>
    let g := c % 8
    some (g, (hostCount s g + c / 2 ^ 23) * 1048576 + c / 8 % 1048576)
  | .node l n =>
    let m := n + nodeBase l
    some (m % 8, (hostCount s (m % 8) + 4) * 1048576 + m / 8)
  | _ => none

/-- The address field A of a tile (R37). -/
def addressField : TileId → Nat
  | .host l => l * 64
  | .counter c => 2 ^ 63 + 1 * 2 ^ 56 + c
  | .node l n => 2 ^ 63 + 2 * 2 ^ 56 + l * 2 ^ 32 + n
  | .journal g q => 2 ^ 63 + 3 * 2 ^ 56 + g * 2 ^ 53 + q % 2 ^ 53
  | .anchor g a => 2 ^ 63 + 4 * 2 ^ 56 + g * 2 ^ 53 + a
  | .remap g p t => 2 ^ 63 + 5 * 2 ^ 56 + g * 2 ^ 53 + (16 * p + t)

/-- Palette key K of a metadata tile (R134). -/
def paletteKey (t : TileId) : Nat :=
  addressField t % 2 ^ 63

/-- Kind of a Palette key. -/
def keyKind (k : Nat) : Nat :=
  k / 2 ^ 56

/-- The tile a Palette key names. -/
def tileOfKey (k : Nat) : TileId :=
  let i := k % 2 ^ 56
  if keyKind k = 1 then .counter i
  else if keyKind k = 2 then .node (i / 2 ^ 32) (i % 2 ^ 32)
  else .remap (i / 2 ^ 53) (i % 2 ^ 53 / 16) (i % 16)

/-- Palette set of a key (R135). -/
def paletteSet (k : Nat) : Nat :=
  let i := k % 2 ^ 56
  ((((i ^^^ (i / 2 ^ 13)) ^^^ (i / 2 ^ 26)) ^^^ (i / 2 ^ 39)) ^^^ (keyKind k * 64)) % 8192

/-- The way that holds a key, as 16 × set + way (R135). -/
def paletteFind (s : State) (k : Nat) : Option Nat :=
  (List.range 16).map (paletteSet k * 16 + ·) |>.find? (fun w =>
    let x := tabGet dPal s.palette.ways w
    x.valid && !x.mirror && x.key == k)

/-- The payload of a metadata tile in the Palette, if present: that of the last write that waits for it, else its line's (R141,
R144). A line present in the Palette is trusted (R192). -/
def paletteData (s : State) (t : TileId) : Option Line :=
  let k := paletteKey t
  match s.palette.updates.reverse.find? (fun u => u.key == k && u.data.isSome) with
  | some u => u.data
  | none => (paletteFind s k).map (fun w => (tabGet dPal s.palette.ways w).data)

/-- The column's domain is lost or its channel is failed (R54, first two conditions). -/
def columnLost (s : State) (g c : Nat) : Bool :=
  (domainOf s c).lost || (channelOf s (8 * g + c)).failed

/-- A tile's columns erased under the first three conditions of R54: region and slot, or none for an anchor or journal
tile (R467). -/
def erasedColumns (s : State) (g : Nat) (at? : Option (Nat × Nat)) : List Nat :=
  let x := groupOf s g
  let rebuilding : Bool :=
    match at? with
    | none => true
    | some (p, slot) =>
      (regionOf s g p).rb && !(match x.rebuild with
        | some (rp, ptr) => rp == p && decide (slot < ptr)
        | none => false)
  (List.range 8).filter (fun c => columnLost s g c || (rebuilding && x.stale == some c))

/-- Key of a patch in the medium. -/
def patchKey (channel addr : Nat) : Nat :=
  2 ^ 35 * channel + addr

/-- The eight stored patches at the given addresses of a group's columns. -/
def patchesAt (s : State) (g : Nat) (addrs : List Nat) : List Patch :=
  (List.range 8).map (fun c => tabGet dPatch s.path.medium (patchKey (8 * g + c) (addrs.getD c 0)))

/-- The part of a codeword's error pattern that falls in column c, as a patch (R35). -/
def errorPatch (err : Codeword) (c : Nat) : Patch :=
  bvOfBytes 96 ((List.range 12).map (fun i => (err >>> (8 * (8 * i + c))).setWidth 8))

/-- Reads a tile: the stored patches, disturbed by the error pattern of this read, decoded with the erased columns and
those whose transfer failed (R48, R54). -/
def decodeAt (s : State) (g : Nat) (addrs : List Nat) (erased : List Nat) (err : Codeword) : DecodeResult :=
  let patches := (List.range 8).map (fun c => (patchesAt s g addrs).getD c 0 ^^^ errorPatch err c)
  rsDecode (symbolsOfPatches patches) (erased.flatMap columnSymbols)

/-- Patch address of a remap table tile (R64). -/
def remapAddr (p t : Nat) : Nat :=
  0x10000 + 16 * p + t

/-- The class of decoded content (R38): 0 good, 1 poison, 2 mismatch. -/
def classify (t : TileId) (content : List Byte) : Nat :=
  let crc := crc32c (content.take 64 ++ leBytes 8 (addressField t) ++ bytesAt content 76 4)
  let held := numAt content 72 4
  if held = crc.toNat then 0 else if held = (~~~crc).toNat then 1 else 2

/-- The payload of remap table tile t of region p: the Palette's copy (R82, R144); while the Palette lacks it, what the medium's copy
says where it is a good tile (R38). -/
def remapPayload (s : State) (g p t : Nat) : List Byte :=
  match paletteData s (.remap g p t) with
  | some d => lineBytes d
  | none =>
    let addrs := List.replicate 8 (remapAddr p t)
    match decodeAt s g addrs (erasedColumns s g (some (p, 1048581 + t))) 0 with
    | .corrected symbols _ _ => if classify (.remap g p t) (symbols.take 80) = 0 then symbols.take 64 else []
    | .failure => []

/-- The valid entry for a slot and column of a region, by its index in the tile (R81, R82). -/
def remapEntry (payload : List Byte) (slot c : Nat) : Option (Nat × Nat) :=
  (List.range 8).findSome? (fun i =>
    let e := numAt payload (8 * i) 8
    if bitOf e 63 ∧ bitsOf e 62 60 = c ∧ bitsOf e 59 39 = slot then some (i, bitsOf e 30 0) else none)

/-- The eight patch addresses of a slot of a region (R59 step 5, R82). -/
def slotAddrs (s : State) (g p slot : Nat) : List Nat :=
  let base := regionBase s g p + slot
  if (regionOf s g p).hr then
    let payload := remapPayload s g p (slot % 16)
    (List.range 8).map (fun c =>
      match remapEntry payload slot c with
      | some (_, spare) => spareBase s g + spare
      | none => base)
  else List.replicate 8 base

/-- A slot of a region as a place. -/
def placeSlot (s : State) (g p slot : Nat) : Place :=
  { group := g, slot := some (p, slot), addrs := slotAddrs s g p slot, filter := (p, slot) }

/-- Where a tile lies (R59, R64, R84, R366). -/
def placeOf (s : State) (t : TileId) : Option Place :=
  match t with
  | .anchor g a =>
    some { group := g, slot := none, addrs := List.replicate 8 a, filter := (0x7FFF, a % 1048576) }
  | .remap g p t =>
    some { group := g, slot := some (p, 1048581 + t), addrs := List.replicate 8 (remapAddr p t),
           filter := (p, 0xFFFF0 + t) }
  | .journal _ _ => none
  | t =>
    match tileIndex s t with
    | some (g, idx) =>
      match placeIdx s g idx with
      | some (p, slot) => some (placeSlot s g p slot)
      | none => none
    | none => none

/-- Units that two half-open intervals share. -/
def overlap (a b c d : Nat) : Nat :=
  min b d - max a c

/-- Host-visible units of 256 MiB in an interval of units (R63). -/
def visibleUnits (s : State) (lo hi : Nat) : Nat :=
  overlap lo hi 0 (s.path.layout.spread * 8)
    + s.path.layout.contain.foldl (fun n r => n + overlap lo hi r.1 (r.1 + r.2.1)) 0

/-- Host-visible capacity in units of 256 MiB, [2200.05] (R86). -/
def hostVisibleUnits (s : State) : Nat :=
  s.path.layout.spread * 8 + s.path.layout.contain.foldl (fun n r => n + r.2.1) 0

/-- Size of a key range in units of 256 MiB; that of range 0 follows the others (R180, R208). -/
def rangeUnits (s : State) (r : Nat) : Nat :=
  if r = 0 then
    hostVisibleUnits s - (List.range 7).foldl (fun n i =>
      let b := settingN s (0x2711 + i) 1
      n + visibleUnits s b (b + settingN s (0x2711 + i) 2)) 0
  else settingN s (0x2710 + r) 2

/-- First and end counter index of a range's sealed window (R181): base and size in units of 256 MiB. -/
def windowOf (s : State) (r : Nat) : Option (Nat × Nat) :=
  if settingB s (0x2710 + r) 3 then
    let b := settingN s (0x2710 + r) 4 * 2 ^ 17
    some (b, b + rangeUnits s r * 2 ^ 17)
  else none

/-- What an unlisted key range is. -/
def dRange : Nat → RangeRec := fun _ => {}

/-- Key range `r`. -/
def rangeRec (s : State) (r : Nat) : RangeRec :=
  tabGet dRange s.crypt.ranges r

/-- Changes key range `r`. -/
def modRange (s : State) (r : Nat) (f : RangeRec → RangeRec) : State :=
  { s with crypt := { s.crypt with ranges := tabMod dRange s.crypt.ranges r f } }

/-- Key range of a line (R180). -/
def rangeOf (s : State) (line : Nat) : Nat :=
  let unit := line / 2 ^ 22
  ((List.range 7).map (· + 1)).find? (fun r =>
    let b := settingN s (0x2710 + r) 1
    decide (b ≤ unit ∧ unit < b + settingN s (0x2710 + r) 2)) |>.getD 0

/-- First line address of a key range (R180). -/
def rangeFirst (s : State) (r : Nat) : Nat :=
  if r = 0 then 0 else settingN s (0x2710 + r) 1 * 2 ^ 22

/-- Step index of a line in its range (R201). -/
def stepOf (s : State) (r line : Nat) : Nat :=
  (line - rangeFirst s r) / 512

/-- The sealed window of a range has been written (R183, R491): not while the range is Empty, nor before its opening has begun. -/
def windowUsed (s : State) (r : Nat) : Bool :=
  let x := (rangeRec s r).state
  decide (2 ≤ x) || (x == 1 && s.crypt.glaze.range == some r && s.crypt.glaze.opened)

/-- The tile of a line has been written for the layout being served (R491): its range has been opened, or its opening has come so
far. -/
def lineUsed (s : State) (line : Nat) : Bool :=
  let r := rangeOf s line
  let x := (rangeRec s r).state
  let gl := s.crypt.glaze
  decide (2 ≤ x) || (x == 1 && gl.range == some r &&
    (decide (stepOf s r line < gl.step)
      || (stepOf s r line == gl.step && gl.mask.getLsbD ((line - rangeFirst s r) % 512))))

/-- Whether counter indices lo .. hi-1 meet the used sealed window of a range that `ok` admits. -/
def inWindows (s : State) (ok : Nat → Bool) (lo hi : Nat) : Bool :=
  (List.range 8).any (fun r =>
    ok r && windowUsed s r && (match windowOf s r with
      | some (a, b) => decide (lo < b ∧ a < hi)
      | none => false))

/-- Whether counter indices lo .. hi-1 meet a used sealed window (R491). -/
def inWindow (s : State) (lo hi : Nat) : Bool :=
  inWindows s (fun _ => true) lo hi

/-- The level of a node number (R191). -/
def nodeLevel (m : Nat) : Nat :=
  if m < nodeBase 2 then 1 else if m < nodeBase 3 then 2 else if m < nodeBase 4 then 3 else 4

/-- The tile at a slot of a region; none where the position is unused (R491), the gap, or a free region. -/
def tileAt (s : State) (g p slot : Nat) : Option TileId :=
  let r := regionOf s g p
  if r.fr ∨ r.rt then none
  else
    match scatterAt r slot with
    | none => none
    | some y =>
      let x := feistelInv y s.path.seed r.key
      let h := hostCount s g
      if r.owner < h then
        match lineAt s.path.layout g (r.owner * 1048576 + x) with
        | some l => if lineUsed s l then some (.host l) else none
        | none => none
      else if r.owner < h + 4 then
        let c := ((r.owner - h) * 1048576 + x) * 8 + g
        if inWindow s c (c + 1) then some (.counter c) else none
      else
        let m := x * 8 + g
        let l := nodeLevel m
        let n := m - nodeBase l
        if inWindow s (n * 32 ^ l) ((n + 1) * 32 ^ l) then some (.node l n) else none

/-- The two filter bits of a program (R212). -/
def filterBits (p q : Nat) : Nat × Nat :=
  ((q ^^^ (p * 32)) % 1048576, ((q / 32) ^^^ (q * 32768) ^^^ (p * 0x2B5)) % 1048576)

/-- Marks a program in F_cur (R212). -/
def filterMark (s : State) (g p q : Nat) : State :=
  let b := filterBits p q
  modGroup s g (fun x => { x with filterCur := tabSet dBool (tabSet dBool x.filterCur b.1 true) b.2 true })

/-- Programs one patch of the medium. -/
def storePatch (s : State) (channel addr : Nat) (v : Patch) : State :=
  { s with path := { s.path with medium := tabSet dPatch s.path.medium (patchKey channel addr) v } }

/-- One tile program of a group: 2^36 of them are a program unit (R474); Varnish counts its own (R376). -/
def countProgram (s : State) (g : Nat) : State :=
  let s := if s.sys.dev = .varnish then { s with sys := { s.sys with varnishTiles := s.sys.varnishTiles + 1 } } else s
  if (groupOf s g).programs = 2 ^ 36 - 1 then tallyAdd (modGroup s g (fun x => { x with programs := 0 })) (176 + g)
  else modGroup s g (fun x => { x with programs := x.programs + 1 })

/-- Programs the patches of a codeword on the columns of a list (R35, R46). -/
def storeColumns (s : State) (g : Nat) (addrs : List Nat) (code : List Byte) (cols : List Nat) : State :=
  countProgram (cols.foldl (fun s c => bump (storePatch s (8 * g + c) (addrs.getD c 0) (patchOfSymbols code c)) 0x2916 (8 * g + c + 1) 1) s) g

/-- The region fence of R67. -/
def regionFenced (s : State) (g p : Nat) : Bool :=
  tabGet dBool (groupOf s g).regionFences p

/-- A place no access reaches: its group or its region is fenced (R31, R67). -/
def placeFenced (s : State) (pl : Place) : Bool :=
  (groupOf s pl.group).fenced || (match pl.slot with
    | some (p, _) => regionFenced s pl.group p
    | none => false)

/-- Programs a codeword at a place on every non-erased column, and marks the filters; a fenced place takes nothing (R31, R67). -/
def programAt (s : State) (pl : Place) (code : List Byte) : State :=
  if placeFenced s pl then s
  else
    let erased := erasedColumns s pl.group pl.slot
    let cols := (List.range 8).filter (fun c => !erased.contains c)
    modGroup (filterMark (storeColumns s pl.group pl.addrs code cols) pl.group pl.filter.1 pl.filter.2) pl.group
      (fun x => { x with requestAt := s.sys.time })

/-- A program of a tile into a region counts as a write of it (R71); a due step is queued or dropped. -/
def regionWrite (s : State) (g p : Nat) : State :=
  let x := groupOf s g
  let psi := settingN s 0x2200 2
  let moving := match x.move with
    | some m => m.src == p || m.dst == p
    | none => false
  let r := regionOf s g p
  if moving then modRegion s g p (fun r => { r with count := min (r.count + 1) (psi - 1) })
  else if psi - 1 ≤ r.count then
    let s := modRegion s g p (fun r => { r with count := 0 })
    if x.steps.contains p || 64 ≤ x.steps.length then bump s (0x2210 + g) 8 1
    else modGroup s g (fun x => { x with steps := x.steps ++ [p] })
  else modRegion s g p (fun r => { r with count := r.count + 1 })

/-- A program of an engine as its region's write; the stacks may report its failure up to tPG maximum and 10 ns later (R244). -/
def noteProgram (s : State) (pl : Place) (code : List Byte) : State :=
  if placeFenced s pl then s
  else
    modGroup s pl.group (fun x => { x with
      engineOut := x.engineOut.filter (fun e => decide (s.sys.time < e.issued + 1210 * 64))
        ++ [{ slot := pl.slot, addrs := pl.addrs, code := code, issued := s.sys.time }] })

/-- Programs a codeword at a place as a write of its region (R71, R101). -/
def programTile (s : State) (pl : Place) (code : List Byte) : State :=
  let s := programAt s pl code
  match pl.slot with
  | some (p, slot) => if slot ≤ 1048576 && !placeFenced s pl then regionWrite s pl.group p else s
  | none => s

/-- An engine's program of a tile. -/
def engineProgram (s : State) (pl : Place) (code : List Byte) : State :=
  noteProgram (programTile s pl code) pl code

/-- The region-state word of R66, bits 95..0. -/
def regionWord (r : RegionRec) : Nat :=
  r.start * 2 ^ 76 + r.gap * 2 ^ 55 + r.count * 2 ^ 45 + r.key * 2 ^ 29 + r.owner * 2 ^ 14 + r.heat * 2 ^ 6
    + 32 * bnat r.rb + 16 * bnat r.md + 8 * bnat r.sw + 4 * bnat r.rt + 2 * bnat r.fr + bnat r.hr

/-- The entry a region-state word spells. -/
def regionOfWord (w : Nat) : RegionRec :=
  { start := bitsOf w 95 76, gap := bitsOf w 75 55, count := bitsOf w 54 45, key := bitsOf w 44 29,
    owner := bitsOf w 28 14, heat := bitsOf w 13 6, rb := bitOf w 5, md := bitOf w 4, sw := bitOf w 3,
    rt := bitOf w 2, fr := bitOf w 1, hr := bitOf w 0 }

/-- The region-table word of R65. -/
def entryWord (e : RegionEntry) : Nat :=
  65536 * bnat e.mapped + 32768 * bnat e.moving + e.phys

/-- The entry a region-table word spells. -/
def entryOfWord (w : Nat) : RegionEntry :=
  { mapped := bitOf w 16, moving := bitOf w 15, phys := w % 32768 }

/-- The group is not in deep sleep nor leaving it (R19, R20). -/
def groupAwake (s : State) (g : Nat) : Bool :=
  decide (tabGet dNat s.thermal.sleep g < 2)

/-- New moves and Glaze units may start in a group: the device is below thermal level 2 and the group below stack level 2
(R394, R398). -/
def groupCool (s : State) (g : Nat) : Bool :=
  decide (s.thermal.level < 2) && !tabGet dBool s.thermal.stackHot g

/-- Group fences (R31): more than one erased column. -/
def groupErased (s : State) (g : Nat) : List Nat :=
  let x := groupOf s g
  (List.range 8).filter (fun c => columnLost s g c || x.stale == some c)

/-- The degraded attribute (R465): a domain lost, or one column stale in every group that is not fenced. -/
def degraded (s : State) : Bool :=
  let live := (List.range 8).filter (fun g => !(groupOf s g).fenced)
  !(lostDomains s).isEmpty ||
    (List.range 8).any (fun c => !live.isEmpty && live.all (fun g => (groupOf s g).stale == some c))

end Sys2Proof.Machine
end

