-- ==== Sys2Proof/Machine/Queue.lean ====
section
/-! DEFINITION. Machine/Queue.lean: the thirteen stall queues (R323 to R335): words with their side byte, pushing, taking,
marks, rewinds, overflow and flush; the journal records the engines push (R85) and the events posted to the ports
(R295). Queues are named by index: JQ g is g, TQ is 8, EQ p is 9 + p. -/

namespace Sys2Proof.Machine

/-- What an unlisted queue is. -/
def dQueue : Nat → QueueRec := fun _ => {}

/-- Queue `q`. -/
def queueOf (s : State) (q : Nat) : QueueRec :=
  tabGet dQueue s.queues q

/-- Changes queue `q`. -/
def modQueue (s : State) (q : Nat) (f : QueueRec → QueueRec) : State :=
  { s with queues := tabMod dQueue s.queues q f }

/-- The eight tag patterns (R323), by first, last and poisoned. -/
def tagPattern (first last poisoned : Bool) : Byte :=
  match first, last, poisoned with
  | false, false, false => 0x00
  | true, false, false => 0x0F
  | false, true, false => 0xF0
  | true, true, false => 0xFF
  | false, false, true => 0x3C
  | true, false, true => 0x66
  | false, true, true => 0xC3
  | true, true, true => 0x99

/-- Even parity of a byte. -/
def byteParity (b : Byte) : Bool :=
  (List.range 8).foldl (fun p i => p != b.getLsbD i) false

/-- The parity byte of a 64-bit word: bit j is the even parity of byte j. -/
def parityByte (data : Nat) : Byte :=
  BitVec.ofNat 8 ((List.range 8).foldl (fun m j => m + 2 ^ j * bnat (byteParity (BitVec.ofNat 8 (data / 256 ^ j)))) 0)

/-- A queue word with its tags (R323). -/
def qword (data : Nat) (first last poisoned : Bool) : QWord :=
  { data := data, side := parityByte data ^^^ tagPattern first last poisoned }

/-- Bits in which two bytes differ. -/
def byteDistance (a b : Byte) : Nat :=
  ((List.range 8).filter (fun i => a.getLsbD i != b.getLsbD i)).length

/-- The tags a word shows (R324): first, last, poisoned. A side byte at distance 1 from one pattern keeps that pattern's
first and last and is poisoned; one at distance 2 from two patterns is a poisoned single word. -/
def wordTags (w : QWord) : Bool × Bool × Bool :=
  let t := w.side ^^^ parityByte w.data
  let all := [(false, false, false), (true, false, false), (false, true, false), (true, true, false),
              (false, false, true), (true, false, true), (false, true, true), (true, true, true)]
  match all.find? (fun x => tagPattern x.1 x.2.1 x.2.2 == t) with
  | some x => x
  | none =>
    match all.find? (fun x => byteDistance (tagPattern x.1 x.2.1 x.2.2) t == 1) with
    | some x => (x.1, x.2.1, true)
    | none => (true, true, true)

/-- The word starts a packet. -/
def isFirst (w : QWord) : Bool := (wordTags w).1

/-- The word ends a packet. -/
def isLast (w : QWord) : Bool := (wordTags w).2.1

/-- The word is poisoned. -/
def isPoisoned (w : QWord) : Bool := (wordTags w).2.2

/-- Words not yet taken. -/
def unread (x : QueueRec) : Nat :=
  x.words.length - x.taken

/-- Words in the tail register file: neither in the head nor in the spill (R328). -/
def tailWords (x : QueueRec) : Nat :=
  unread x - x.head - 7 * x.blocks

/-- Places the unread words again after some have left: the tail keeps its words, the rest stands in whole blocks and the
head (R328). -/
def relayout (x : QueueRec) (tail : Nat) : QueueRec :=
  let n := unread x
  let t := min tail n
  let b := min x.blocks ((n - t) / 7)
  { x with blocks := b, firstBlock := x.firstBlock + (x.blocks - b), head := n - t - 7 * b }

/-- Object index of a queue. -/
def queueIdx (q : Nat) : Nat :=
  0x2D10 + q

/-- The packets in a list of words: its last words, and an open packet at the end. -/
def packetsIn (ws : List QWord) : Nat :=
  (ws.filter isLast).length + bnat (match ws.getLast? with
    | some w => !isLast w
    | none => false)

/-- Words of the oldest packet. -/
def firstPacket : List QWord → Nat
  | [] => 0
  | w :: ws => if isLast w then 1 else 1 + firstPacket ws

/-- Discards the oldest packet of the TQ (R331). -/
def tqDiscard (s : State) : State :=
  let x := queueOf s 8
  let n := firstPacket x.words
  let lostMark := !x.markLost
  let tail := tailWords x
  let inside := x.inside && decide (0 < x.taken ∧ x.taken < n)
  let s := modQueue s 8 (fun x =>
    let y := { x with
      words := x.words.drop n, mark := (x.mark + n) % queueCapacity 8, taken := x.taken - n, markLost := true,
      inside := x.inside && !inside, notices := if n ≤ x.taken then x.notices else x.notices - 1 }
    relayout y tail)
  let s := perfCount (bump s (queueIdx 8) 7 1) 12 0x0D n
  let s := if lostMark then bump s (queueIdx 8) 0x0C 1 else s
  if inside then bump s (queueIdx 8) 9 1 else s

/-- Discards TQ packets until `n` more words fit; at most `fuel` packets. -/
def tqRoom : Nat → State → Nat → State
  | 0, s, _ => s
  | fuel + 1, s, n =>
    if (queueOf s 8).words.length + n < queueCapacity 8 ∨ (queueOf s 8).words = [] then s else tqRoom fuel (tqDiscard s) n

/-- Whether `n` more words fit a queue (R330). -/
def queueFits (s : State) (q n : Nat) : Bool :=
  (queueOf s q).words.length + n < queueCapacity q

/-- The reserved partition (R88, R327): the first row of a queue's spill area and its rows, in every one of the 64 banks. -/
def spillArea (q : Nat) : Nat × Nat :=
  if q < 8 then (4096 + 256 * q, 256) else if q = 8 then (6144, 64) else (6208 + 16 * (q - 9), 16)

/-- Blocks of a queue's spill area: 16 a row and bank (R327). -/
def spillBlocks (q : Nat) : Nat :=
  1024 * (spillArea q).2

/-- Bank and row of block `b` of a queue (R327). -/
def spillPlace (q b : Nat) : Nat × Nat :=
  (b % 64, (spillArea q).1 + b / 1024)

/-- The block the next spill write goes to (R327); the blocks of an area are used in turn. -/
def nextBlock (q : Nat) (x : QueueRec) : Nat :=
  (x.firstBlock + x.blocks) % spillBlocks q

/-- Appends one word: it passes to the head while nothing is spilled and the head has room, else it joins the tail, a
full tail spilling a block first (R328). -/
def pushWord (s : State) (q : Nat) (w : QWord) : State :=
  let x := queueOf s q
  let spills := tailWords x == 32 && !(x.blocks == 0 && decide (x.head < 32)) && decide (x.blocks < spillBlocks q)
  let s := modQueue s q (fun x =>
    let x := if spills then { x with blocks := x.blocks + 1 } else x
    let toHead := x.blocks == 0 && decide (x.head < 32) && tailWords x == 0
    { x with
      words := x.words ++ [w], head := if toHead then x.head + 1 else x.head,
      peak := max x.peak (x.words.length + 1) })
  let s := bump s (queueIdx q) 5 1
  if spills then bump s (queueIdx q) 0x0A 1 else s

/-- What a push does to the packets available (R326). -/
def noticeAfter (s : State) (q : Nat) (w : QWord) : State :=
  let x := queueOf s q
  let limit := if x.openWords = 0 then settingN s 0x2D00 1 else x.cutWords
  let n := x.openWords + 1
  let early := q == 8 && decide (0 < limit) && n == limit && !x.cut
  let s := modQueue s q (fun x =>
    if isLast w then
      { x with openWords := 0, cutWords := 0, cut := false, openBy := none,
               notices := if x.cut then x.notices else x.notices + 1 }
    else { x with openWords := n, cutWords := limit, cut := x.cut || early, notices := if early then x.notices + 1 else x.notices })
  if isLast w then bump s (queueIdx q) 6 1 else s

/-- Pushes a whole packet of words that fits (R325). -/
def pushPacket (s : State) (q : Nat) (data : List Nat) : State :=
  let n := data.length
  (List.range n).foldl (fun s i =>
    let w := qword (data.getD i 0) (i == 0) (i + 1 == n) false
    noticeAfter (pushWord s q w) q w) s

/-- Pushes a TQ packet (R326, R331): kind, source and payload words. -/
def tqPush (s : State) (kind source : Nat) (payload : List Nat) : State :=
  let n := payload.length + 1
  let head := kind * 2 ^ 56 + n * 2 ^ 48 + source * 2 ^ 40 + nowNs s % 2 ^ 40
  pushPacket (tqRoom 458816 s n) 8 (head :: payload)

/-- The length of the packet a first word begins: 1 in a JQ, 14 in an EQ, its length field in the TQ (R326). -/
def packetLength (q data : Nat) : Nat :=
  if q < 8 then 1 else if q = 8 then max 1 (data / 2 ^ 48 % 256) else 14

/-- QUEUE_PUSH (R325): one word of a producer's packet. A producer inside a packet keeps the queue; a lossless queue takes
a first word only when the packet fits; the TQ makes room (R331); words of a packet cut by a flush are dropped (R332). -/
def execQueuePush (queue : QueueId) (producer : Fin 4) (data : BitVec 64) (first last : Bool) (s : State) :
    Host.Outcome State Fault Refusal :=
  let q := queue.val
  let x := queueOf s q
  let w := qword data.toNat first last false
  if x.dropping = some producer.val then
    .next (if last then modQueue s q (fun x => { x with dropping := none }) else s)
  else
    match x.openBy with
    | some p =>
      if p = producer.val ∧ first = false then .next (noticeAfter (pushWord s q w) q w)
      else .next (bump s (queueIdx q) 8 1)
    | none =>
      if first = false then .next s
      else
        let n := packetLength q data.toNat
        let s := if q = 8 then tqRoom 458816 s n else s
        if queueFits s q n then
          .next (noticeAfter (pushWord (modQueue s q (fun x => { x with openBy := some producer.val })) q w) q w)
        else .next (bump s (queueIdx q) 8 1)

/-- Takes the next `n` words of a queue. -/
def takeWords (s : State) (q n : Nat) : State :=
  let x := queueOf s q
  let k := min n (unread x)
  let tail := tailWords x
  let ws := (x.words.drop x.taken).take k
  let closed := (ws.filter isLast).length
  let bad := (ws.filter isPoisoned).length
  let s := modQueue s q (fun x =>
    relayout { x with taken := x.taken + k, notices := x.notices - closed,
                      inside := match ws.getLast? with
                        | some w => !isLast w
                        | none => x.inside } tail)
  if bad = 0 then s else bump s (queueIdx q) 9 bad

/-- Sets the mark `k` words on (R330): the words before it are freed and a lost mark is found again. -/
def setMark (s : State) (q k : Nat) : State :=
  modQueue s q (fun x =>
    { x with words := x.words.drop k, mark := (x.mark + k) % queueCapacity q, taken := x.taken - k, markLost := false })

/-- A rewind to the mark (R330); not performed while the mark is lost (R331). -/
def rewind (s : State) (q : Nat) : State :=
  modQueue s q (fun x => if x.markLost then x else { x with head := x.head + x.taken, taken := 0 })

/-- A block write: seven tail words, where the area has a free block (R327, R328). -/
def spillWrite (s : State) (q : Nat) : State :=
  if 7 ≤ tailWords (queueOf s q) ∧ (queueOf s q).blocks < spillBlocks q then
    bump (modQueue s q (fun x => { x with blocks := x.blocks + 1 })) (queueIdx q) 0x0A 1
  else s

/-- SPILL_BLOCK_WRITE (R328): seven tail words are written as a block. -/
def execSpillBlockWrite (queue : QueueId) (s : State) : Host.Outcome State Fault Refusal :=
  .next (spillWrite s queue.val)

/-- Poisons a word, keeping its tags and data. -/
def poisonWord (w : QWord) : QWord :=
  qword w.data (isFirst w) (isLast w) true

/-- Reads the oldest spill block into the head (R329); `bad` marks the uncorrectable Easel words 0 to 7, and a `misplaced` block's
byte 7 does not match its index. -/
def spillRead (s : State) (q : Nat) (bad : Byte) (misplaced : Bool) : State :=
  let x := queueOf s q
  let at0 := x.taken + x.head
  modQueue s q (fun x =>
    { x with
      blocks := x.blocks - 1, firstBlock := x.firstBlock + 1, head := x.head + 7,
      words := x.words.mapIdx (fun i w =>
        if at0 ≤ i ∧ i < at0 + 7 ∧ (misplaced ∨ bad.getLsbD 7 ∨ bad.getLsbD (i - at0)) then poisonWord w else w) })

/-- Discards everything in a queue (R332). -/
def flushQueue (s : State) (q : Nat) : State :=
  let x := queueOf s q
  let n := packetsIn x.words
  let s := modQueue s q (fun x =>
    { x with
      words := [], mark := (x.mark + x.words.length) % queueCapacity q, taken := 0, head := 0, blocks := 0,
      notices := 0, openWords := 0, cutWords := 0, cut := false, inside := false, dropping := x.openBy, openBy := none, cleared := [] })
  raise (bump s (queueIdx q) 7 n) 0x2D03 (leBytes 1 q ++ satBytes 4 n)

/-- The effect of the queue statistics clear (R335). -/
def queueStatisticsClear (s : State) : State :=
  let s := clearStatsAt (clearStatsAt s 0x2D10 13 5 6) 0x2D10 13 0x0C 1
  (List.range 13).foldl (fun s q => modQueue s q (fun x => { x with peak := 0 })) s

/-- Tiles the journal queues' contents are charged against the device share (R326). -/
def journalCharge (s : State) : Nat :=
  (List.range 8).foldl (fun n g => n + ((queueOf s g).words.length + 6) / 7) 0

/-- Everything charged against the device share (R26). -/
def deviceCharged (s : State) : Nat :=
  s.reserve.deviceCharge + journalCharge s

/-- The device share can carry `n` more tiles (R27, R129). -/
def deviceRoom (s : State) (n : Nat) : Bool :=
  decide (deviceCharged s + n ≤ s.reserve.deviceShare)

/-- Tiles that `n` more words would add to the charge of a group's journal queue (R27, R326). -/
def journalMore (s : State) (g n : Nat) : Nat :=
  let w := (queueOf s g).words.length
  (w + n + 6) / 7 - (w + 6) / 7

/-- The journal queue of a group can take `n` records: a producer otherwise stalls, for want of words or because the charge would
exceed the device share (R24, R27, R129). With the budget at zero nothing is charged. -/
def journalRoom (s : State) (g n : Nat) : Bool :=
  queueFits s g n && (s.reserve.budget == 0 || deviceRoom s (journalMore s g n))

/-- Pushes a journal record of up to four units (R85, R326). -/
def jqPush (s : State) (g : Nat) (units : List Nat) : State :=
  let x := queueOf s g
  let s := if unread x = 0 then modGroup s g (fun y => { y with journalSince := s.sys.time }) else s
  pushPacket (perfCount s 12 0x0C 1) g [(List.range 4).foldl (fun w i => w + units.getD i 0 * 2 ^ (16 * i)) 0]

/-- Header unit of a journal record (R85). -/
def recordUnit (typ n data : Nat) : Nat :=
  typ * 2 ^ 11 + n * 2 ^ 8 + data

/-- The step unit of a region (R85). -/
def stepUnit (p : Nat) : Nat :=
  32768 + p

/-- Size of window w in units of 256 MiB: window 0 follows the host-visible size by default (R303). -/
def windowSize (s : State) (w : Nat) : Nat :=
  let v := setting s (0x2B30 + w) 2
  if v < 0 then hostVisibleUnits s else v.toNat

/-- The access window that covers a DPA (R281). -/
def windowAt (s : State) (dpa : Nat) : Option Nat :=
  (List.range 16).find? (fun w =>
    let b := settingN s (0x2B30 + w) 1 * 2 ^ 28
    decide (b ≤ dpa ∧ dpa < b + windowSize s w * 2 ^ 28))

/-- Whether a port's windows cover a DPA. -/
def portCovers (s : State) (p dpa : Nat) : Bool :=
  match windowAt s dpa with
  | some w => bitOf (settingN s (0x2B30 + w) 3) p
  | none => false

/-- The fourteen words of an event record (R326); bytes the spec does not give are the part's (log entry 17). -/
def eventWords (e : EventRec) : List Nat :=
  (e.kind * 2 ^ 56 + e.log * 2 ^ 54 + e.handle * 2 ^ 32) :: e.time ::
    (List.range 12).map (fun i => (Config.eventWord e.kind e.what e.dpa i).toNat)

/-- Places a record in the port's event queue with its interrupt (R295, R326). -/
def eventQueue (s : State) (p : Nat) (e : EventRec) : State :=
  let s := pushPacket (modPort s p (fun x => { x with events := x.events ++ [e] })) (9 + p) (eventWords e)
  let s := bump s (0x2B20 + p) 9 1
  if ((portOf s p).policy.getD e.log 0).toNat % 4 = 1 then emit s (.interrupt (Fin.ofNat 4 p) e.log) else s

/-- EVENT_POST (R295): the record is posted, held by the event poster, or dropped with the overflow indication. -/
def eventPost (s : State) (p log kind what dpa : Nat) : State :=
  let x := portOf s p
  let e : EventRec := { handle := x.handle, log := log, kind := kind, what := what, dpa := dpa,
                        time := (nowNs s + s.path.timestampOffset) % 2 ^ 64 }
  let next := if x.handle = 0xFFFF then 1 else x.handle + 1
  if (queueOf s (9 + p)).words.length < 8192 * 14 ∧ x.heldEvents = [] then
    eventQueue (modPort s p (fun x => { x with handle := next })) p e
  else if x.heldEvents.length < 256 then
    modPort s p (fun x => { x with handle := next, heldEvents := x.heldEvents ++ [e] })
  else
    let o := tabGet (fun _ => (0, 0, 0)) x.eventOverflow log
    let o := (o.1 + 1, if o.1 = 0 then e.time else o.2.1, e.time)
    let s := modPort s p (fun x => { x with eventOverflow := tabSet (fun _ => (0, 0, 0)) x.eventOverflow log o })
    raise (bump s (0x2B20 + p) 0x0A 1) 0x2B05 (leBytes 1 p ++ leBytes 1 log ++ satBytes 4 o.1)

/-- A General Media event on each port whose windows cover the line (R295): type 0 ECC error, 1 data path error. -/
def mediaEvent (s : State) (what line : Nat) : State :=
  (List.range 4).foldl (fun s p => if portCovers s p (line * 64) then eventPost s p 2 0 what line else s) s

/-- A Memory Module event on every port (R295). -/
def moduleEvent (s : State) (log what : Nat) : State :=
  (List.range 4).foldl (fun s p => eventPost s p log 1 what 0) s

/-- Records held by the event poster move into the queue as it has room (R295). -/
def eventRelease : Nat → State → Nat → State
  | 0, s, _ => s
  | fuel + 1, s, p =>
    match (portOf s p).heldEvents with
    | e :: rest =>
      if (queueOf s (9 + p)).words.length < 8192 * 14 then
        eventRelease fuel (eventQueue (modPort s p (fun x => { x with heldEvents := rest })) p e) p
      else s
    | [] => s

/-- The effect of a write to a Flush object (R332, R335). An event queue's records go, and those its poster holds move in
(R295). -/
def queueFlush (s : State) (q : Nat) : Except Nat State :=
  if q < 8 then .error 0x2D03
  else
    let s := flushQueue s q
    .ok (if 9 ≤ q then eventRelease 256 (modPort s (q - 9) (fun p => { p with events := [] })) (q - 9) else s)

end Sys2Proof.Machine
end

