-- ==== Sys2Proof/Machine/Tile.lean ====
section
/-! DEFINITION. Machine/Tile.lean: what a tile holds (R33, R36 to R39), its class (R38), the count of every decode (R49,
R56), and the cipher lane: keys by range (R180, R190, R202), the MAC and the freshness block (R188), XTS (R187), versions
(R189), counter tiles and tree nodes (R191, R192). -/

namespace Sys2Proof.Machine

/-- The epoch field written now (R209). -/
def epochByte (s : State) : Nat :=
  s.path.epoch % 256

/-- The 80 content bytes of a tile (R33, R36): payload, MAC, CRC, version and epoch; a poison tile carries the complement
of its CRC (R39). -/
def tileContent (a : Nat) (payload mac : List Byte) (version epoch : Nat) (poison : Bool) : List Byte :=
  let tail := leBytes 3 version ++ leBytes 1 epoch
  let crc := crc32c (payload ++ leBytes 8 a ++ tail)
  payload ++ mac ++ leBytes 4 (if poison then ~~~crc else crc).toNat ++ tail

/-- Sixty-four zero bytes. -/
def zeroPayload : List Byte :=
  List.replicate 64 0

/-- Eight zero bytes. -/
def zeroMac : List Byte :=
  List.replicate 8 0

/-- The codeword of a poison tile (R39). -/
def poisonCode (s : State) (t : TileId) (version : Nat) : List Byte :=
  rsEncode (tileContent (addressField t) zeroPayload zeroMac version (epochByte s) true)

/-- The codeword of a good tile with the current epoch (R42, R43). -/
def goodCode (s : State) (t : TileId) (payload mac : List Byte) (version : Nat) : List Byte :=
  rsEncode (tileContent (addressField t) payload mac version (epochByte s) false)

/-- The version field of content bytes. -/
def versionOf (content : List Byte) : Nat :=
  numAt content 76 3

/-- The epoch field of content bytes. -/
def epochOf (content : List Byte) : Nat :=
  numAt content 79 1

/-- The payload of content bytes. -/
def payloadOf (content : List Byte) : List Byte :=
  content.take 64

/-- The MAC of content bytes. -/
def macOf (content : List Byte) : List Byte :=
  bytesAt content 64 8

/-- What a read of a tile gives (R49). -/
inductive TileRead where
  /-- good content, with the symbol positions corrected -/
  | good (content : List Byte) (errors : List Nat)
  /-- a poison tile -/
  | poison (content : List Byte) (errors : List Nat)
  /-- the CRC mismatches with no symbol corrected: misdirected read suspected -/
  | misdirected
  /-- decode failure, or a miscorrection; the corrected content where there is one (R214) -/
  | failed (content : List Byte)
  deriving DecidableEq, Repr

/-- The outcome of a decode (R49). -/
def judgeDecode (t : TileId) : DecodeResult → TileRead
  | .failure => .failed []
  | .corrected symbols errors _ =>
    let content := symbols.take 80
    let cls := classify t content
    if cls = 0 then .good content errors
    else if cls = 1 then .poison content errors
    else if errors = [] then .misdirected
    else .failed content

/-- Adds to a codec counter, of the device and of the group (R58). -/
def bumpCodec (s : State) (g sub n : Nat) : State :=
  bump (bump s 0x2100 sub n) (0x2110 + g) sub n

/-- Raises a codec maximum. -/
def maxStat (s : State) (idx sub : Nat) (v : Int) : State :=
  if stat s idx sub < v then setStat s idx sub v else s

/-- Counts one decode (R49, R56, R58). -/
def countDecode (s : State) (g : Nat) (erased : List Nat) (r : DecodeResult) (t : TileId) : State :=
  let s := bumpCodec s g 1 1
  let s := match r with
    | .corrected _ [] clean => perfCount s (4 + g) (if clean && erased.isEmpty then 0x0F else 0x10) 1
    | _ => perfCount s (4 + g) 0x11 1
  match r with
  | .failure => s
  | .corrected _ errors clean =>
    let s := if clean && erased.isEmpty then bumpCodec s g 2 1
      else if errors.isEmpty then bumpCodec s g 3 1 else s
    match judgeDecode t r with
    | .good _ _ | .poison _ _ =>
      let n := errors.length
      let s := bumpCodec s g 4 n
      let s := maxStat (maxStat s 0x2100 0x0E n) (0x2110 + g) 0x0E n
      let s := errors.foldl (fun s i => bump s 0x2120 (8 * g + i % 8 + 1) 1) s
      match judgeDecode t r with
      | .poison _ _ => bumpCodec s g 0x0C 1
      | _ => s
    | .failed _ => bumpCodec s g 8 1
    | .misdirected => s

/-- RD or SRD frames issued to the non-erased columns of a tile, [2915] (R248, R258). -/
def countReads (s : State) (pl : Place) (n : Nat) : State :=
  let erased := erasedColumns s pl.group pl.slot
  ((List.range 8).filter (fun c => !erased.contains c)).foldl (fun s c => bump s 0x2915 (8 * pl.group + c + 1) n) s

/-- A tile as read at a place with an error pattern and failed transfers, with its frames and its decode counted. -/
def readTile (s : State) (t : TileId) (pl : Place) (err : Codeword) (xfer : List Nat) : State × TileRead :=
  let erased := (erasedColumns s pl.group pl.slot ++ xfer).eraseDups
  let r := decodeAt s pl.group pl.addrs erased err
  (countDecode (countReads s pl 1) pl.group erased r t, judgeDecode t r)

/-- Columns whose transfer of a read failed by an event on their channel (R54); the events are used up. -/
def takeErased (s : State) (g : Nat) (addrs : List Nat) : State × List Nat :=
  (List.range 8).foldl (fun (r : State × List Nat) c =>
    let bank := addrs.getD c 0 % 256
    if (channelOf r.1 (8 * g + c)).erased.contains bank then
      (modChannel r.1 (8 * g + c) (fun x => { x with erased := x.erased.erase bank }), r.2 ++ [c])
    else r) (s, [])

/-- Columns of an 8-bit mask. -/
def maskColumns (m : Byte) : List Nat :=
  (List.range 8).filter (fun i => m.getLsbD i)

/-- The ephemeral key covers every access: Priming, Test and Recovery (R207). -/
def ephemeralState (s : State) : Bool :=
  match s.sys.dev with
  | .priming | .test | .recovery => true
  | .warn => !s.crypt.ephemeral.isEmpty
  | _ => false

/-- The state, or the one a warning interrupted, serves the scratch area alone: Test and Recovery (R207, R379, R380). -/
def scratchState (s : State) : Bool :=
  let serving := fun (d : DeviceState) =>
    match d with
    | .test | .recovery => true
    | _ => false
  serving s.sys.dev || (s.sys.dev == .warn && serving s.sys.warnFrom)

/-- The range's lines are sealed (R181); scratch lines never are (R207). -/
def sealedLine (s : State) (line : Nat) : Bool :=
  !ephemeralState s && settingB s (0x2710 + rangeOf s line) 3

/-- The key of a line at this moment (R190, R202). -/
def lineKey (s : State) (line : Nat) : List Byte :=
  let r := rangeOf s line
  let x := rangeRec s r
  let gl := s.crypt.glaze
  if ephemeralState s then s.crypt.ephemeral
  else if x.state = 3 ∧ gl.range = some r then
    let st := stepOf s r line
    if st < gl.step ∨ (st = gl.step ∧ gl.mask.getLsbD ((line - rangeFirst s r) % 512)) then x.next else x.current
  else x.current

/-- The major counter of a counter tile or node payload (R191). -/
def majorOf (payload : Line) : Nat :=
  payload.toNat % 2 ^ 64

/-- Minor j of a counter tile or node payload (R191). -/
def minorOf (payload : Line) (j : Nat) : Nat :=
  payload.toNat / 2 ^ (64 + 14 * j) % 2 ^ 14

/-- A payload from its major and minors. -/
def counterPayload (major : Nat) (minors : List Nat) : Line :=
  BitVec.ofNat 512 ((List.range 32).foldl (fun n j => n + minors.getD j 0 % 2 ^ 14 * 2 ^ (64 + 14 * j)) (major % 2 ^ 64))

/-- The 32 minors of a payload. -/
def minorsOf (payload : Line) : List Nat :=
  (List.range 32).map (minorOf payload)

/-- A payload with minor j replaced. -/
def setMinor (payload : Line) (j v : Nat) : Line :=
  counterPayload (majorOf payload) ((minorsOf payload).set j v)

/-- Counter index of a line of a sealed range (R191). -/
def counterIndex (s : State) (line : Nat) : Nat :=
  let r := rangeOf s line
  settingN s (0x2710 + r) 4 * 2 ^ 17 + (line - rangeFirst s r) / 32

/-- The version a counter gives (R189). -/
def counterVersion (major minor : Nat) : Nat :=
  major % 1024 * 2 ^ 14 + minor

/-- The freshness block F (R188). -/
def freshness (major version domain level : Nat) : List Byte :=
  leBytes 8 major ++ leBytes 3 version ++ [0, 0, 0] ++ leBytes 1 domain ++ leBytes 1 level

/-- The 64-bit MAC of a tile (R188). -/
def tileMac (key payload : List Byte) (a : Nat) (fresh : List Byte) : List Byte :=
  (cmac key (payload ++ leBytes 8 a ++ fresh)).take 8

/-- The XTS tweak value (R187). -/
def tweak (major version line : Nat) : Nat :=
  major % 2 ^ 64 * 2 ^ 62 + version % 2 ^ 24 * 2 ^ 38 + line

/-- The MAC of a host line (R188). -/
def lineMac (s : State) (key ct : List Byte) (line major version : Nat) : List Byte :=
  let sealing := sealedLine s line
  tileMac (bytesAt key 64 32) ct (line * 64)
    (freshness (if sealing then major else 0) version (if sealing then 2 else 1) (rangeOf s line))

/-- The codeword of a host line under a key: encipher, MAC, encode (R42, R187, R188). -/
def lineCode (s : State) (key : List Byte) (line major version : Nat) (data : Line) : List Byte :=
  let ct := xtsEncrypt (bytesAt key 0 32) (bytesAt key 32 32) (tweak major version line) (lineBytes data)
  goodCode s (.host line) ct (lineMac s key ct line major version) version

/-- Verifies the MAC of a host line's content and deciphers it (R187, R188). -/
def openLine (s : State) (key : List Byte) (line major : Nat) (content : List Byte) : Option Line :=
  let v := versionOf content
  let ct := payloadOf content
  if macOf content = lineMac s key ct line major v then
    some (lineOf (xtsDecrypt (bytesAt key 0 32) (bytesAt key 32 32) (tweak major v line) ct))
  else none

/-- Parent of a counter tile or node, and its slot there (R191); none above level 4: the root. -/
def parentOf : TileId → Option TileId × Nat
  | .counter c => (some (.node 1 (c / 32)), c % 32)
  | .node l n => if l < 4 then (some (.node (l + 1) (n / 32)), n % 32) else (none, n % 32)
  | _ => (none, 0)

/-- Domain byte and level byte of a metadata tile (R188). -/
def metaDomain : TileId → Nat × Nat
  | .counter _ => (0x11, 0)
  | .node l _ => (0x12, l)
  | _ => (0, 0)

/-- The MAC of a counter tile or node under its parent's counter (R188). -/
def metaMac (s : State) (t : TileId) (payload : List Byte) (major minor : Nat) : List Byte :=
  let d := metaDomain t
  tileMac s.crypt.treeKey payload (addressField t) (freshness major (counterVersion major minor) d.1 d.2)

/-- The codeword of a metadata tile: a counter tile or node under its parent's counter, a remap table tile with no MAC and
version 0 (R81, R189). -/
def metaCode (s : State) (t : TileId) (payload : Line) (major minor : Nat) : List Byte :=
  match t with
  | .counter _ | .node _ _ =>
    goodCode s t (lineBytes payload) (metaMac s t (lineBytes payload) major minor) (counterVersion major minor)
  | _ => goodCode s t (lineBytes payload) zeroMac 0

/-- Whether the content of a counter tile or node verifies under its parent's counter (R192). -/
def metaVerifies (s : State) (t : TileId) (content : List Byte) (major minor : Nat) : Bool :=
  macOf content == metaMac s t (payloadOf content) major minor
    && versionOf content == counterVersion major minor

/-- The parent's counter of a metadata tile that stands in the Palette or the root (R189, R192): major and minor; none while
the parent is absent. -/
def parentReady (s : State) (t : TileId) : Option (Nat × Nat) :=
  match parentOf t with
  | (some p, j) => (paletteData s p).map (fun d => (majorOf d, minorOf d j))
  | (none, j) => some (majorOf s.crypt.root, minorOf s.crypt.root j)

/-- The page re-encryption of a counter tile, when one has begun (R195). -/
def pageJob (s : State) (c : Nat) : Option PageJob2 :=
  (groupOf s (c % 8)).pages.find? (fun j => j.c == c && j.begun)

/-- The counter a line's content verifies under (R192, R195): major and minor. During a re-encryption the version field
says which of the two counters applies. -/
def lineCounter (s : State) (line : Nat) (payload : Line) (version : Nat) : Nat × Nat :=
  let c := counterIndex s line
  let j := line % 32
  match pageJob s c with
  | some job =>
    let m := majorOf job.old
    if version / 2 ^ 14 = (m + 1) % 1024 ∧ version / 2 ^ 14 ≠ m % 1024 then (m + 1, 0)
    else (m, minorOf job.old j)
  | none => (majorOf payload, minorOf payload j)

/-- What the check of a host line's good content gives (R192, R200). -/
inductive LineCheck where
  | ok (data : Line)
  | badMac
  | badVersion
  | noCounter
  deriving DecidableEq, Repr

/-- Checks and deciphers a host line (R187, R188, R192); an unsealed line needs no counter, a sealed one needs its counter tile in
the Palette. -/
def checkLineWith (s : State) (key : List Byte) (line : Nat) (content : List Byte) : LineCheck :=
  if sealedLine s line then
    match paletteData s (.counter (counterIndex s line)) with
    | none => .noCounter
    | some payload =>
      let k := lineCounter s line payload (versionOf content)
      match openLine s key line k.1 content with
      | none => .badMac
      | some d => if versionOf content = counterVersion k.1 k.2 then .ok d else .badVersion
  else
    match openLine s key line 0 content with
    | some d => .ok d
    | none => .badMac

/-- Checks and deciphers a host line under the key of its position (R190, R202). -/
def checkLine (s : State) (line : Nat) (content : List Byte) : LineCheck :=
  checkLineWith s (lineKey s line) line content

/-- The scratch place of a line in Recovery and Test (R379): group bits 14..12, tile index as in R11, no mapping. -/
def scratchPlace (s : State) (line : Nat) : Option Place :=
  let g := line / 64 % 8
  let idx := line / 512 * 64 + line % 64
  if line * 64 < s.sys.scratchSize * 2 ^ 28 then
    let a := poolEnd s g + 1 - 2 ^ 25 + idx
    some { group := g, slot := none, addrs := List.replicate 8 a, filter := (0x7FFF, a % 1048576) }
  else none

/-- Where a host line lies in the present state (R59, R379). -/
def linePlace (s : State) (line : Nat) : Option Place :=
  if ephemeralState s then scratchPlace s line else placeOf s (.host line)

/-- The group of a line in the present state. -/
def lineGroup (s : State) (line : Nat) : Nat :=
  if ephemeralState s then line / 64 % 8
  else match locate s.path.layout (line * 64) with
    | some (g, _) => g
    | none => 0

end Sys2Proof.Machine
end

