-- ==== Sys2Proof/Machine/Palette.lean ====
section
/-! DEFINITION. Machine/Palette.lean: the Palette (R134 to R154): tree pseudo-LRU replacement, classes with way and lock
masks, dirty lines with their mirrors and charges, writebacks that advance the parent's counter, miss registers, range
invalidations and the poison list. A way is named by 16 × set + way. -/

namespace Sys2Proof.Machine

/-- Victim of a 15-bit tree pseudo-LRU state among the ways `ok` allows, going from node `n` over `size` ways from `lo`;
subtrees with no such way are skipped (R98, R139). -/
def plruWalk (st : Nat) (ok : Nat → Bool) : Nat → Nat → Nat → Nat → Option Nat
  | 0, _, lo, _ => if ok lo then some lo else none
  | d + 1, n, lo, size =>
    let half := size / 2
    let l := plruWalk st ok d (2 * n + 1) lo half
    let r := plruWalk st ok d (2 * n + 2) (lo + half) half
    if bitOf st n then r.or l else l.or r

/-- The victim way of a set. -/
def plruVictim (st : Nat) (ok : Nat → Bool) : Option Nat :=
  plruWalk st ok 4 0 0 16

/-- Points every node on the way's path away from it. -/
def plruTouch (st way : Nat) : Nat :=
  let f := (List.range 4).foldl (fun (x : Nat × Nat) d =>
    let right := bitOf way (3 - d)
    let cleared := x.1 - (if bitOf x.1 x.2 then 2 ^ x.2 else 0)
    ((if right then cleared else cleared + 2 ^ x.2), 2 * x.2 + (if right then 2 else 1))) (st, 0)
  f.1

/-- Points every node on the way's path at it: the way is the next victim. -/
def plruDemote (st way : Nat) : Nat :=
  let f := (List.range 4).foldl (fun (x : Nat × Nat) d =>
    let right := bitOf way (3 - d)
    let cleared := x.1 - (if bitOf x.1 x.2 then 2 ^ x.2 else 0)
    ((if right then cleared + 2 ^ x.2 else cleared), 2 * x.2 + (if right then 2 else 1))) (st, 0)
  f.1

/-- Palette way `w`. -/
def palWay (s : State) (w : Nat) : PalLine :=
  tabGet dPal s.palette.ways w

/-- Changes Palette way `w`. -/
def modWay (s : State) (w : Nat) (f : PalLine → PalLine) : State :=
  { s with palette := { s.palette with ways := tabMod dPal s.palette.ways w f } }

/-- The partner of a way: the way XOR 8 of its set (R136). -/
def partner (w : Nat) : Nat :=
  if w % 16 < 8 then w + 8 else w - 8

/-- Miss register `n`. -/
def missReg (s : State) (n : Nat) : Option MissReg :=
  tabGet (fun _ => none) s.palette.misses n

/-- Sets miss register `n`. -/
def setMiss (s : State) (n : Nat) (m : Option MissReg) : State :=
  { s with palette := { s.palette with misses := tabSet (fun _ => none) s.palette.misses n m } }

/-- A miss register has chosen this way. -/
def wayPending (s : State) (w : Nat) : Bool :=
  s.palette.misses.any (fun e =>
    match e.2 with
    | some m => m.place == w
    | none => false)

/-- Dirty lines of the Palette, [2500.05]. -/
def palDirtyCount (s : State) : Nat :=
  (s.palette.ways.filter (fun e => e.2.dirty && !e.2.mirror)).length

/-- Pair p may be taken by a class (R138, R139): in its way mask and not locked to another class. -/
def pairAllowed (s : State) (cls p : Nat) : Bool :=
  bitOf (settingN s 0x2501 (cls + 1)) p &&
    (List.range 7).all (fun d => d == cls || !bitOf (settingN s 0x2502 (d + 1)) p)

/-- A way is eligible for a class: its pair is, and it is not the pinned way of a poison set (R139). -/
def wayAllowed (s : State) (cls w : Nat) : Bool :=
  pairAllowed s cls (w % 8) && !(w % 16 == 15 && w / 16 % 16 == 0)

/-- The tree path of a line (R159, R191): counter tile, then nodes of levels 1 to 4. -/
def treePath (s : State) (line : Nat) : List TileId :=
  let c := counterIndex s line
  [.counter c, .node 1 (c / 32), .node 2 (c / 1024), .node 3 (c / 32768), .node 4 (c / 1048576)]

/-- A sealed write-through write holds the lines of its path until its counter tile's writeback is granted (R173). -/
def pathHeld (s : State) (k : Nat) : Bool :=
  s.easel.acks.any (fun a => a.through && a.isSealed && !a.back && (a.destage || a.counter.isSome)
    && (treePath s a.line).any (fun t => paletteKey t == k))

/-- A line in this way may become dirty for a class (R137): both ways of the pair are eligible, no fill is coming to either,
and the partner holds no dirty line, mirror or writeback. -/
def wayDirtyable (s : State) (cls w : Nat) : Bool :=
  let y := palWay s (partner w)
  wayAllowed s cls w && wayAllowed s cls (partner w) && !wayPending s w && !wayPending s (partner w)
    && !y.dirty && !y.mirror && !y.back && !(y.valid && pathHeld s y.key)

/-- A clean line with no miss register outstanding and no writeback pending, that no write holds (R139, R173). -/
def wayClean (s : State) (w : Nat) : Bool :=
  let x := palWay s w
  x.valid && !x.dirty && !x.mirror && !x.back && !pathHeld s x.key

/-- The way a class gets in a set (R138, R139), for a line that is to be dirty or clean: the invalid one of lowest index, else a
clean line of another class in a pair locked to this one, else the pseudo-LRU clean one. -/
def palAllocate (s : State) (cls set : Nat) (dirty : Bool) : Option Nat :=
  let ways := (List.range 16).filter (fun i =>
    let w := 16 * set + i
    if dirty then wayDirtyable s cls w else wayAllowed s cls w && !wayPending s w)
  match ways.find? (fun i => !(palWay s (16 * set + i)).valid) with
  | some i => some (16 * set + i)
  | none =>
    match ways.find? (fun i => wayClean s (16 * set + i) && bitOf (settingN s 0x2502 (cls + 1)) (i % 8)
        && (palWay s (16 * set + i)).cls != cls) with
    | some i => some (16 * set + i)
    | none =>
      (plruVictim (tabGet dNat s.palette.plru set) (fun i => ways.contains i && wayClean s (16 * set + i))).map (16 * set + ·)

/-- Ticks since a stamp, modulo 16. -/
def stampAge (tick stamp : Nat) : Nat :=
  (tick % 16 + 16 - stamp) % 16

/-- The set's oldest dirty line in a class's mask (R139). -/
def palOldest (s : State) (cls set : Nat) : Option Nat :=
  ((List.range 16).map (16 * set + ·)).foldl (fun best w =>
    let x := palWay s w
    if x.dirty && !x.mirror && wayAllowed s cls w then
      match best with
      | none => some w
      | some b => if stampAge s.palette.tick (palWay s b).stamp < stampAge s.palette.tick x.stamp then some w else best
    else best) none

/-- The oldest dirty line of the Palette (R142). -/
def palOldestAll (s : State) : Option Nat :=
  (s.palette.ways.filter (fun e => e.2.dirty && !e.2.mirror)).foldl (fun best e =>
    match best with
    | none => some e.1
    | some b =>
      if stampAge s.palette.tick (palWay s b).stamp < stampAge s.palette.tick e.2.stamp then some e.1 else best) none

/-- Selects a line for writeback (R142). -/
def palSelect (s : State) (w : Nat) : State :=
  if s.palette.selected.contains w then s
  else { s with palette := { s.palette with selected := s.palette.selected ++ [w] } }

/-- Selects the line a search found, if any. -/
def palSelectSome (s : State) (w : Option Nat) : State :=
  match w with
  | some w => palSelect s w
  | none => s

/-- Notes a use of a way for replacement. -/
def palTouch (s : State) (w : Nat) : State :=
  { s with palette := { s.palette with plru := tabMod dNat s.palette.plru (w / 16) (fun st => plruTouch st (w % 16)) } }

/-- Installs a clean line in a way (R146). -/
def palInstallClean (s : State) (w : Nat) (t : TileId) (data : Line) (cls : Nat) : State :=
  palTouch (modWay s w (fun _ => { key := paletteKey t, valid := true, data := data, cls := cls })) w

/-- Takes a charge of one tile against the device share (R26). -/
def deviceBook (s : State) (n : Nat) : State :=
  { s with reserve := { s.reserve with deviceCharge := s.reserve.deviceCharge + n } }

/-- Releases charges of the device share. -/
def deviceFree (s : State) (n : Nat) : State :=
  { s with reserve := { s.reserve with deviceCharge := s.reserve.deviceCharge - n } }

/-- The dirty lines have reached DirtyLimit (R142). -/
def palFull (s : State) : Bool :=
  decide (settingN s 0x2500 3 ≤ palDirtyCount s)

/-- A write that would dirty a clean line is held (R27, R142): the dirty limit is reached, or the device share cannot carry the
charge. With the budget at zero no line carries a charge (R199). -/
def palHeld (s : State) : Bool :=
  palFull s || (s.reserve.budget != 0 && !deviceRoom s 1)

/-- Writes a line as dirty in way `w` (R137, R142, R199): both copies, the partner's clean line dropped, the charge booked
when it was clean; with the budget at zero there is no charge and the line is selected at once. At the dirty limit the oldest
dirty line is selected. -/
def palPlace (s : State) (w : Nat) (t : TileId) (data : Line) (cls : Nat) (fna : Bool) : State :=
  let old := palWay s w
  let same := old.valid && old.key == paletteKey t
  let was := same && old.dirty
  let charge := !was && !(same && old.charged) && decide (0 < s.reserve.budget)
  let line : PalLine :=
    { key := paletteKey t, valid := true, dirty := true, back := same && old.back, fna := fna || (same && old.fna),
      cls := if same then old.cls else cls, stamp := if was then old.stamp else s.palette.tick % 16, data := data,
      charged := charge || (same && old.charged) }
  let s := modWay (modWay s w (fun _ => line)) (partner w) (fun _ => { line with mirror := true, charged := false })
  let s := if charge then deviceBook s 1 else s
  let s := palTouch s w
  if s.reserve.budget = 0 then palSelect s w
  else if palFull s then palSelectSome s (palOldestAll s)
  else s

/-- Empties a way and its mirror, releasing its charge (R145). -/
def palDrop (s : State) (w : Nat) : State :=
  let x := palWay s w
  let s := modWay s w (fun _ => {})
  let s := if (palWay s (partner w)).mirror then modWay s (partner w) (fun _ => {}) else s
  let s := if x.charged then deviceFree s 1 else s
  { s with palette := { s.palette with selected := s.palette.selected.filter (· != w) } }

/-- Whether an open range invalidation covers a key (R145). -/
def comparatorHit (s : State) (k : Nat) : Bool :=
  s.palette.comparators.any (fun c => c.kind == keyKind k && decide (c.lo ≤ k % 2 ^ 56 ∧ k % 2 ^ 56 < c.hi))

/-- The miss register that holds a key and is not marked. -/
def missOf (s : State) (k : Nat) : Option Nat :=
  (List.range 64).find? (fun n =>
    match missReg s n with
    | some m => m.key == k && !m.marked
    | none => false)

/-- A lookup waits and is made again (R141, R145). -/
def palDefer (s : State) (cls k : Nat) : State :=
  if s.palette.lookups.contains (cls, k) then s
  else { s with palette := { s.palette with lookups := s.palette.lookups ++ [(cls, k)] } }

/-- The miss part of a lookup (R141): it merges into the key's register as a secondary, or takes a register and a way and issues
the fill; where that cannot be, it waits, and for want of a way the set's oldest dirty line is selected (R139). -/
def palMiss (s : State) (cls k : Nat) : State :=
  match missOf s k with
  | some n =>
    match missReg s n with
    | some m =>
      if m.seconds < 8 then bump (setMiss s n (some { m with seconds := m.seconds + 1 })) 0x2510 3 1
      else palDefer (bump s 0x2510 4 1) cls k
    | none => s
  | none =>
    match ((List.range 64).filter (fun n => cls == 0 || decide (16 ≤ n))).find? (fun n => missReg s n == none) with
    | none => palDefer (bump s 0x2510 4 1) cls k
    | some n =>
      match palAllocate s cls (paletteSet k) false with
      | some w => setMiss s n (some { key := k, place := w, cls := cls, arrival := s.sys.time })
      | none => palDefer (palSelectSome s (palOldest s cls (paletteSet k))) cls k

/-- A lookup of class `cls` for tile `t` that needs no data now: a hit is counted; a miss goes to the miss registers; one that an
open range invalidation covers waits for its close (R141, R145). The state and whether the tile is present. -/
def palLookup (s : State) (cls : Nat) (t : TileId) : State × Bool :=
  let k := paletteKey t
  let s := perfCount (bump s 0x2510 1 1) 12 2 1
  if comparatorHit s k then (palDefer s cls k, false)
  else
    match paletteFind s k with
    | some w => (palTouch (perfCount (bump s 0x2510 2 1) 12 3 1) w, true)
    | none => (palMiss s cls k, false)

/-- The remap table tile that decides where a place lies stands in the Palette, or the place needs none (R82). -/
def remapReady (s : State) (pl : Place) : Bool :=
  match pl.slot with
  | some (p, slot) =>
    !(regionOf s pl.group p).hr || decide (1048581 ≤ slot) || (paletteData s (.remap pl.group p (slot % 16))).isSome
  | none => true

/-- Looks up the remap table tile of a place for a class (R82, R157). -/
def askRemap (s : State) (cls : Nat) (pl : Place) : State :=
  match pl.slot with
  | some (p, slot) => if remapReady s pl then s else (palLookup s cls (.remap pl.group p (slot % 16))).1
  | none => s

/-- Tries to make a write's line dirty (R137, R139, R141, R142, R144, R145): in place when its pair lies in its class's mask, else in
a way of the mask that it moves to; none while it must wait. A write without content of its own needs the line present. -/
def palTry (s : State) (u : PalUpdate) : Option State :=
  let t := tileOfKey u.key
  let set := paletteSet u.key
  if comparatorHit s u.key then none
  else
    match paletteFind s u.key with
    | some w =>
      let x := palWay s w
      let data := u.data.getD x.data
      if x.dirty then some (palPlace s w t data x.cls u.fna)
      else if palHeld s then none
      else if x.back || wayDirtyable s x.cls w then some (palPlace s w t data x.cls u.fna)
      else (palAllocate s x.cls set true).map (fun v => palPlace (palDrop s w) v t data x.cls (u.fna || x.fna))
    | none =>
      match u.data with
      | none => none
      | some data =>
        if palHeld s || (missOf s u.key).isSome then none
        else (palAllocate s u.cls set true).map (fun v => palPlace s v t data u.cls u.fna)

/-- What a write that must wait starts meanwhile: its line's fill, or the writeback that makes room (R139, R141, R142). -/
def palPush (s : State) (u : PalUpdate) : State :=
  if comparatorHit s u.key then s
  else if (paletteFind s u.key).isNone && u.data.isNone then
    if (missOf s u.key).isSome || s.palette.lookups.contains (u.cls, u.key) then s else palMiss s u.cls u.key
  else if palHeld s then palSelectSome s (palOldestAll s)
  else palSelectSome s (palOldest s (match paletteFind s u.key with
    | some w => (palWay s w).cls
    | none => u.cls) (paletteSet u.key))

/-- Writes behind an earlier write of the same line wait with it. -/
def palApply (s : State) (u : PalUpdate) : State :=
  let wait := fun (s : State) => { s with palette := { s.palette with updates := s.palette.updates ++ [u] } }
  if s.palette.updates.any (fun v => v.key == u.key) then wait s
  else
    match palTry s u with
    | some s => s
    | none => wait (palPush s u)

/-- An internal writer writes tile `t` through the Palette as class `cls` (R141, R144): the lookup is counted, and the write becomes
a dirty line at once or waits for its turn; a wait for the dirty limit is counted. -/
def palPut (s : State) (cls : Nat) (t : TileId) (data : Option Line) (fna : Bool) : State :=
  let k := paletteKey t
  let s := perfCount (bump s 0x2510 1 1) 12 2 1
  let s := match paletteFind s k with
    | some w => palTouch (perfCount (bump s 0x2510 2 1) 12 3 1) w
    | none => s
  let held := palFull s && !(match paletteFind s k with
    | some w => (palWay s w).dirty
    | none => false)
  palApply (if held then bump s 0x2510 6 1 else s) { cls := cls, key := k, data := data, fna := fna }

/-- What waits at the Palette goes on (R139, R141, R142, R145): invalidations while a comparator is free, then lookups, then writes, each
in its order. -/
def settlePalette (s : State) : State :=
  let lookups := s.palette.lookups
  let s := { s with palette := { s.palette with lookups := [] } }
  let s := lookups.foldl (fun s e => if comparatorHit s e.2 then palDefer s e.1 e.2
    else if (paletteFind s e.2).isSome then s else palMiss s e.1 e.2) s
  let updates := s.palette.updates
  updates.foldl palApply { s with palette := { s.palette with updates := [] } }

/-- The counter a child's writeback uses after the parent's minor has advanced (R193, R196), with the parent's new
payload and whether its major advanced. -/
def advanceMinor (payload : Line) (j : Nat) : Line × Nat × Nat × Bool :=
  if minorOf payload j = 16383 then
    (counterPayload (majorOf payload + 1) [], majorOf payload + 1, 0, true)
  else (setMinor payload j (minorOf payload j + 1), majorOf payload, minorOf payload j + 1, false)

/-- The used children of a node, or of the root (R191, R196). -/
def childrenOf (s : State) : Option TileId → List TileId
  | some (.node l n) => (List.range 32).filterMap (fun i =>
      let c := n * 32 + i
      let t : TileId := if l = 1 then .counter c else .node (l - 1) c
      if inWindow s (c * 32 ^ (l - 1)) ((c + 1) * 32 ^ (l - 1)) then some t else none)
  | none => (List.range 32).filterMap (fun i =>
      if inWindow s (i * 32 ^ 4) ((i + 1) * 32 ^ 4) then some (.node 4 i) else none)
  | _ => []

/-- The payload of a tile's parent: a node in the Palette, or the root. -/
def parentPayload (s : State) (t : TileId) : Option Line :=
  match (parentOf t).1 with
  | some p => paletteData s p
  | none => some s.crypt.root

/-- The tiles that must stand in the Palette before a writeback of `t` can advance its parent's counter (R193, R196): the parent, and
where its minor overflows, every used child of it. -/
def advanceNeeds (s : State) (t : TileId) : List TileId :=
  match t with
  | .counter _ | .node _ _ =>
    let r := parentOf t
    match parentPayload s t with
    | none => r.1.toList
    | some d => if minorOf d r.2 = 16383 then (childrenOf s r.1).filter (fun c => (paletteData s c).isNone) else []
  | _ => []

/-- Advances the parent's counter for a writeback of `t` (R193, R196): the state and the counter the tile is written
under. Where the minor overflows every used child is marked dirty. A remap table tile has no parent. -/
def parentAdvance (s : State) (t : TileId) : State × Nat × Nat :=
  match t with
  | .counter _ | .node _ _ =>
    let r := parentOf t
    let d := (parentPayload s t).getD 0
    let a := advanceMinor d r.2
    let kids := if a.2.2.2 then childrenOf s r.1 else []
    let s := match r.1 with
      | some p => palPut s 0 p (some a.1) false
      | none => { s with crypt := { s.crypt with root := a.1 } }
    let s := if a.2.2.2 then bump (kids.foldl (fun s c => if c = t then s else palPut s 0 c none false) s) 0x2700 0x0A 1 else s
    (s, a.2.1, a.2.2.1)
  | _ => (s, 0, 0)

/-- The PAL grant of a writeback (R142, R143, R193): snapshot, WB set, D cleared, the parent's minor advanced, the slot taken from the
region state in force. A writeback whose parent is absent looks it up and waits. -/
def palGrant (s : State) (w : Nat) : State :=
  let x := palWay s w
  if x.valid && x.dirty && !x.mirror && !x.back then
    let t := tileOfKey x.key
    let needs := advanceNeeds s t
    if needs ≠ [] then needs.foldl (fun s p => (palLookup s x.cls p).1) s
    else
      let r := parentAdvance s t
      let s := r.1
      let code := metaCode s t x.data r.2.1 r.2.2
      let s := modWay (modWay s w (fun x => { x with dirty := false, back := true })) (partner w)
        (fun x => { x with dirty := false, back := true })
      { s with palette := { s.palette with
          selected := s.palette.selected.filter (· != w),
          writes := s.palette.writes ++ [{ place := w, tile := t, code := code, pl := placeOf s t }] } }
  else s

/-- The writeback program is complete (R142, R143): WB clears; a line not written since frees its mirror and its charge, any
other keeps D with the current stamp. What waited for room goes on. -/
def palComplete (s : State) (w : Nat) : State :=
  match s.palette.writes.find? (fun x => x.place == w) with
  | none => s
  | some job =>
    let s := { s with palette := { s.palette with writes := s.palette.writes.filter (fun x => x.place != w) } }
    let s := match job.pl with
      | some pl => programTile s pl job.code
      | none => s
    let s := bump s 0x2510 5 1
    let x := palWay s w
    settlePalette (if x.valid && x.back then
      if x.dirty then
        modWay (modWay s w (fun x => { x with back := false, stamp := s.palette.tick % 16 })) (partner w)
          (fun y => { y with back := false, stamp := s.palette.tick % 16 })
      else
        let s := if x.charged then deviceFree s 1 else s
        modWay (modWay s w (fun x => { x with back := false, charged := false })) (partner w) (fun _ => {})
    else s)

/-- PALETTE_TICK (R142): aged dirty lines are selected for writeback. -/
def execPaletteTick (s : State) : Host.Outcome State Fault Refusal :=
  let tick := s.palette.tick + 1
  let s := { s with palette := { s.palette with tick := tick } }
  let due := s.palette.ways.filter (fun e => e.2.dirty && !e.2.mirror && stampAge tick e.2.stamp == 9)
  .next (due.foldl (fun s e => palSelect s e.1) s)

/-- Loads a free comparator (R145): miss registers are marked, matching lines and the writes that wait for one are dropped. -/
def openInvalidation (s : State) (v : Invalidation) : State :=
  let hit := fun k => keyKind k == v.kind && decide (v.lo ≤ k % 2 ^ 56 ∧ k % 2 ^ 56 < v.hi)
  let s := { s with palette := { s.palette with
    comparators := s.palette.comparators ++ [v], updates := s.palette.updates.filter (fun u => !hit u.key) } }
  let s := (List.range 64).foldl (fun s n =>
    match missReg s n with
    | some m => if hit m.key then setMiss s n (some { m with marked := true }) else s
    | none => s) s
  let s := s.palette.ways.foldl (fun s e => if e.2.valid && !e.2.mirror && hit e.2.key then palDrop s e.1 else s) s
  bump s 0x2510 0x0B 1

/-- A range invalidation (R145): a fifth one waits for a free comparator. -/
def invalidateRange (s : State) (kind lo hi : Nat) : State :=
  let v : Invalidation := { kind := kind, lo := lo, hi := hi }
  if 4 ≤ s.palette.comparators.length then
    { s with palette := { s.palette with invalidations := s.palette.invalidations ++ [v] } }
  else openInvalidation s v

/-- Closes a range invalidation (R145): one that waited opens, and the lookups and writes that waited go on. -/
def closeInvalidation (s : State) (kind lo hi : Nat) : State :=
  let s := { s with palette := { s.palette with
    comparators := s.palette.comparators.erase { kind := kind, lo := lo, hi := hi } } }
  settlePalette (match s.palette.invalidations with
    | [] => s
    | v :: rest =>
      if s.palette.comparators.length < 4 then
        openInvalidation { s with palette := { s.palette with invalidations := rest } } v
      else s)

/-- RANGE_INVALIDATION_OPEN (R145): by kind and index interval. -/
def execRangeInvalidationOpen (kind : Byte) (lo hi : BitVec 56) (s : State) : Host.Outcome State Fault Refusal :=
  .next (invalidateRange s kind.toNat lo.toNat hi.toNat)

/-- RANGE_INVALIDATION_CLOSE (R145). -/
def execRangeInvalidationClose (kind : Byte) (lo hi : BitVec 56) (s : State) : Host.Outcome State Fault Refusal :=
  .next (closeInvalidation s kind.toNat lo.toNat hi.toNat)

/-- Bucket of a line in the poison list (R151). -/
def poisonBucket (line : Nat) : Nat :=
  (((line ^^^ (line / 2 ^ 9)) ^^^ (line / 2 ^ 18)) ^^^ (line / 2 ^ 27)) % 512

/-- A bucket, oldest entry first. -/
def bucketOf (s : State) (b : Nat) : List PoisonEntry :=
  tabGet (fun _ => []) s.palette.poison b

/-- Sets a bucket. -/
def setBucket (s : State) (b : Nat) (es : List PoisonEntry) : State :=
  { s with palette := { s.palette with poison := tabSet (fun _ => []) s.palette.poison b es } }

/-- The entry of a line. -/
def poisonEntry (s : State) (line : Nat) : Option PoisonEntry :=
  (bucketOf s (poisonBucket line)).find? (fun e => e.line == line)

/-- Every entry of the poison list. -/
def poisonEntries (s : State) : List PoisonEntry :=
  s.palette.poison.flatMap (·.2)

/-- Sets PoisonListOverflow with its time (R152, R292). -/
def poisonOverflow (s : State) : State :=
  { s with palette := { s.palette with overflow := true, overflowAt := nowNs s + 1 } }

/-- POISON_LIST_INSERT (R152): adds or changes an entry; false when a pending entry is refused. -/
def poisonInsert (s : State) (line : Nat) (permanent : Bool) (source : Nat) : State × Bool :=
  let b := poisonBucket line
  let es := bucketOf s b
  let e : PoisonEntry := { line := line, permanent := permanent, source := source }
  if es.any (fun x => x.line == line) then
    (setBucket s b (es.map (fun x => if x.line = line then e else x)), true)
  else if es.length < 8 then (setBucket s b (es ++ [e]), true)
  else
    match es.find? (fun x => x.permanent) with
    | some old => (poisonOverflow (setBucket s b (es.erase old ++ [e])), true)
    | none => if permanent then (poisonOverflow (setBucket s b (es.drop 1 ++ [e])), true) else (s, false)

/-- Removes a line's entry (R53, R97). -/
def poisonRemove (s : State) (line : Nat) : State :=
  let b := poisonBucket line
  setBucket s b ((bucketOf s b).filter (fun x => x.line != line))

/-- Makes the entry of a host line permanent, adding one where it has none (R51). -/
def poisonPermanent (s : State) (line : Nat) : State :=
  (poisonInsert s line true ((poisonEntry s line).elim 2 (·.source))).1

/-- The effect of a DirtyLimit write (R154): the excess is selected for writeback, oldest first. -/
def dirtyLimitWrite (s : State) (limit : Nat) : State :=
  let s := setSetting s 0x2500 3 limit
  let dirty := s.palette.ways.filter (fun e => e.2.dirty && !e.2.mirror)
  let aged := sortBy (fun a b => decide (stampAge s.palette.tick b.2.stamp ≤ stampAge s.palette.tick a.2.stamp)) dirty
  (aged.take (dirty.length - limit)).foldl (fun s e => palSelect s e.1) s

/-- Span fence that covers a line (R149). -/
def spanFenced (s : State) (line : Nat) : Bool :=
  s.palette.spans.any (fun f =>
    rangeOf s line == f.range && decide (counterIndex s line / 32 ^ f.level = f.node))

end Sys2Proof.Machine
end

