-- ==== Sys2Proof/Machine/Perf.lean ====
section
/-! DEFINITION. Machine/Perf.lean: the performance counters (R455 to R459) and random sampling (R460 to R462). Counter n of
block b is named by 8 × b + n: blocks 0 to 3 are the ports, 4 to 11 the groups, 12 the device. -/

namespace Sys2Proof.Machine

/-- Largest event number of a block's table (R455). -/
def eventMax (b : Nat) : Nat :=
  if b < 4 then 0x11 else if b < 12 then 0x18 else 0x0F

/-- Events marked O: occupancies (R455). -/
def eventIsOccupancy (b e : Nat) : Bool :=
  if b < 4 then e == 0x0B || e == 0x0C
  else if b < 12 then 0x13 ≤ e && e ≤ 0x16
  else (4 ≤ e && e ≤ 6) || e == 8 || e == 9

/-- Whether a select may be written (R455). -/
def selectAllowed (b v : Nat) : Bool :=
  v % 256 ≤ eventMax b && v < 1024 && (v / 256 == 0 || eventIsOccupancy b (v % 256))

/-- Reads in flight of a port. -/
def readsInFlight (s : State) (p : Nat) : Nat :=
  let mine := fun (w : ReadWait) => match w.who with
    | .host q _ => q == p
    | _ => false
  (s.easel.waits.filter mine).length
    + s.easel.reads.foldl (fun n e => n + (e.2.readers.filter mine).length) 0

/-- The port's entries of the held-write buffer (R174): host writes only. -/
def heldEntries (s : State) (p : Nat) : Nat :=
  ((portOf s p).held.filter (fun w => match w.who with
    | .host _ _ => true
    | _ => false)).length

/-- Tiles charged against the dirty budget, all shares (R26). -/
def chargedTiles (s : State) : Nat :=
  deviceCharged s + (List.range 4).foldl (fun n p => n + tabGet dNat s.reserve.portCharge p) 0

/-- The source bit of a requester in SampleFilter (R460), and its source index in a packet (R462). -/
def sampleSource : Requester → Nat
  | .host p _ => p
  | .barrow _ _ _ => 4
  | .scan p => p
  | .clear p => p

/-- The draw of R460 for a request that arrives now; `flags` are the bits 19 to 12 known at arrival. -/
def sampleDraw (s : State) (who : Requester) (line : Nat) (write : Bool) (flags : Nat) : State :=
  let k := settingN s 0x3200 3
  let filter := settingN s 0x3200 4
  if k = 0 ∨ bitOf filter (sampleSource who) = false ∨ bitOf filter (if write then 6 else 5) = false then s
  else
    let d := drawn s 24
    let s := afterDraw s
    if d % 2 ^ k = 0 then
      if s.perf.tags.length < 16 then
        { s with perf := { s.perf with tags := s.perf.tags ++
          [{ who := who, line := line, ingress := s.sys.time, flags := flags + (if write then 2 ^ 19 else 0) }] } }
      else bump s 0x3200 7 1
    else s

/-- Changes the tag of a requester, if it has one. -/
def modTag (s : State) (who : Requester) (f : SampleRec → SampleRec) : State :=
  { s with perf := { s.perf with tags := s.perf.tags.map (fun t => if t.who = who then f t else t) } }

/-- Stamp S`i` of a tag now (R461). -/
def stampOf (s : State) (i : Nat) (t : SampleRec) : SampleRec :=
  { t with stamps := tabSet dNat t.stamps i (min 65535 ((s.sys.time - t.ingress) / 40)) }

/-- Takes stamp S`i` of a requester's request (R461). -/
def stamp (s : State) (who : Requester) (i : Nat) : State :=
  modTag s who (stampOf s i)

/-- Sets a flag bit of a requester's sample (R462). -/
def flagSample (s : State) (who : Requester) (bit : Nat) : State :=
  modTag s who (fun t => if bitOf t.flags bit then t else { t with flags := t.flags + 2 ^ bit })

/-- S8 is taken: the packet is pushed and the tag freed (R462). -/
def sampleDone (s : State) (who : Requester) (group : Nat) : State :=
  match s.perf.tags.find? (fun t => t.who == who) with
  | none => s
  | some t0 =>
    let t := stampOf s 8 t0
    let st := fun i => tabGet dNat t.stamps i
    let head := 4 * 2 ^ 56 + 4 * 2 ^ 48 + sampleSource who * 2 ^ 40 + t.ingress / 64 % 2 ^ 40
    let word1 := t.line * 2 ^ 26 + group * 2 ^ 23 + t.retries * 2 ^ 20 + t.flags
    let word2 := st 1 + st 2 * 2 ^ 16 + st 3 * 2 ^ 32 + st 4 * 2 ^ 48
    let word3 := st 5 + st 6 * 2 ^ 16 + st 7 * 2 ^ 32 + st 8 * 2 ^ 48
    let s := { s with perf := { s.perf with tags := s.perf.tags.erase t0 } }
    bump (pushPacket (tqRoom 458816 s 4) 8 [head, word1, word2, word3]) 0x3200 6 1

/-- Tagged requests dropped at quiesce (R460). -/
def dropSamples (s : State) : State :=
  let n := s.perf.tags.length
  let s := { s with perf := { s.perf with tags := [] } }
  if n = 0 then s else bump s 0x3200 7 n

/-- The effect of a RunControl write (R456). -/
def runControl (s : State) (on : Bool) : State :=
  { s with perf := { s.perf with run := on } }

/-- The effect of a CounterClear write (R456). -/
def counterClear (s : State) : State :=
  clearStats { s with perf := { s.perf with counters := [], sticky := [] } } 0x3200 6 2

/-- The effect of writing `mask` to a block's WrapSticky (R458). -/
def wrapStickyClear (s : State) (b mask : Nat) : State :=
  (List.range 8).foldl (fun s n =>
    if bitOf mask n then { s with perf := { s.perf with sticky := tabSet dBool s.perf.sticky (8 * b + n) false } } else s) s

/-- The sticky byte of a block (R458). -/
def stickyByte (s : State) (b : Nat) : Nat :=
  (List.range 8).foldl (fun m n => m + 2 ^ n * bnat (tabGet dBool s.perf.sticky (8 * b + n))) 0

/-- The eleven-word dump packet of a block (R459). -/
def dumpPacket (s : State) (b : Nat) : List Nat :=
  let counters := (List.range 8).map (fun n => tabGet dNat s.perf.counters (8 * b + n))
  let events := (List.range 8).foldl (fun w n => w + eventSelect s b n % 256 * 2 ^ (8 * n)) 0
  let modes := (List.range 8).foldl (fun w n => w + eventSelect s b n / 256 % 4 * 2 ^ (8 + 2 * n)) 0
  counters ++ [events, stickyByte s b + modes]

/-- COUNTER_DUMP (R459): all counters are captured in one core cycle, then thirteen packets are pushed in block order. -/
def execCounterDump (s : State) : Host.Outcome State Fault Refusal :=
  if settingN s 0x3200 5 = 0 then .next s
  else
    let packets := (List.range 13).map (fun b => dumpPacket s b)
    .next ((List.range 13).foldl (fun s b => tqPush s 4 (0x10 + b) (packets.getD b [])) s)

end Sys2Proof.Machine
end

