-- ==== Sys2Proof/Machine/Easel.lean ====
section
/-! DEFINITION. Machine/Easel.lean: the Easel's lines (R88 to R101): set hashing, ways and their dirty limit, charges of the
shares, the destage queue with its classes, the take-in of a write with or without headroom, the latency monitors of a
completed request (R178), and the deliveries to requesters. A place is 16 × set + way. -/

namespace Sys2Proof.Machine

/-- What an unlisted Easel line is. -/
def dEasel : Nat → EaselLine := fun _ => {}

/-- What an unlisted Barrow channel is. -/
def dBarrow : Nat → BarrowRec := fun _ => {}

/-- Barrow channel `c`. -/
def barrowOf (s : State) (c : Nat) : BarrowRec :=
  tabGet dBarrow s.barrow.channels c

/-- Changes Barrow channel `c`. -/
def modBarrow (s : State) (c : Nat) (f : BarrowRec → BarrowRec) : State :=
  { s with barrow := { s.barrow with channels := tabMod dBarrow s.barrow.channels c f } }

/-- Owner port of a Barrow channel (R304). -/
def barrowOwner (s : State) (c : Nat) : Nat :=
  settingN s (0x2C10 + c) 1

/-- The line at place `p`. -/
def easelLine (s : State) (p : Nat) : EaselLine :=
  tabGet dEasel s.easel.lines p

/-- Bank of a place (R89). -/
def placeBank (p : Nat) : Nat :=
  p / 16 % 64

/-- Set row of a place (R89). -/
def placeRow (p : Nat) : Nat :=
  p / 16 / 64

/-- Bank and row of the mirror tag words of a place's set: the same row of the same bank index on die (die + 2) mod 4 (R89). -/
def mirrorPlace (p : Nat) : Nat × Nat :=
  (16 * ((placeBank p / 16 + 2) % 4) + placeBank p % 16, placeRow p)

/-- A list of nominated rows, 64 × row + bank, with one more (R105); a spare row is none of those (R107). -/
def rowsWith (due : List Nat) (bank row : Nat) : List Nat :=
  if 6272 ≤ row || due.contains (64 * row + bank) then due else due ++ [64 * row + bank]

/-- Changes the line at place `p`: both copies of its tag word are written (R90), and a mirror that this meets uncorrectable
is made good (R103, R105). -/
def modLine (s : State) (p : Nat) (f : EaselLine → EaselLine) : State :=
  { s with easel := { s.easel with
    lines := tabMod dEasel s.easel.lines p f,
    rowsDue := if tabGet dBool s.easel.mirrorBad p then rowsWith s.easel.rowsDue (mirrorPlace p).1 (mirrorPlace p).2
      else s.easel.rowsDue,
    mirrorBad := tabSet dBool s.easel.mirrorBad p false } }

/-- g of R89: it depends on the tag alone. -/
def easelMix (t : Nat) : Nat :=
  (t % 2 ^ 18) ^^^ (t / 4)

/-- Tag of a line address (R89). -/
def easelTag (l : Nat) : Nat :=
  l / 2 ^ 18

/-- Set of a line address (R89). -/
def easelSet (l : Nat) : Nat :=
  (l % 2 ^ 18) ^^^ easelMix (easelTag l)

/-- Line address of a place, from its set and tag (R89). -/
def placeLine (s : State) (p : Nat) : Nat :=
  let t := (easelLine s p).tag
  t * 2 ^ 18 + ((p / 16) ^^^ easelMix t)

/-- The tag word of a line (R90). -/
def tagWord (x : EaselLine) : Nat :=
  x.tag % 2 ^ 20 * 2 ^ 44 + x.version % 2 ^ 24 * 2 ^ 20 + bnat x.vk * 2 ^ 19 + bnat x.valid * 2 ^ 18 + bnat x.dirty * 2 ^ 17
    + bnat x.poison * 2 ^ 16 + bnat x.merge * 2 ^ 15 + bnat x.flight * 2 ^ 14 + bnat x.written * 2 ^ 13
    + bnat x.queued * 2 ^ 12 + x.share % 4 * 2 ^ 10 + x.stamp % 16 * 2 ^ 6 + bnat x.fill * 2 ^ 5

/-- The valid way records of a bank (R108). -/
def wayRecordsOf (s : State) (bank : Nat) : List Nat :=
  ((List.range 64).map (fun n => tabGet dNat s.easel.wayRecords (64 * bank + n))).filter (fun r => bitOf r 31)

/-- The set is frail (R107). -/
def frailSet (s : State) (set : Nat) : Bool :=
  (wayRecordsOf s (set % 64)).any (fun r => bitOf r 29 || (bitOf r 30 && bitsOf r 27 16 == set / 64))

/-- The set's way `w` is disabled (R107). -/
def wayDisabled (s : State) (set w : Nat) : Bool :=
  (wayRecordsOf s (set % 64)).any (fun r => !bitOf r 29 && bitsOf r 27 16 == set / 64 && bitOf r w)

/-- Usable ways of a set. -/
def usableWays (s : State) (set : Nat) : List Nat :=
  (List.range 16).filter (fun w => !wayDisabled s set w)

/-- Dirty limit of a set (R92). -/
def dirtyLimit (s : State) (set : Nat) : Nat :=
  if frailSet s set then 0 else 3 * (usableWays s set).length / 4

/-- Dirty ways of a set: those with D or M set (R92). -/
def dirtyWays (s : State) (set : Nat) : Nat :=
  ((List.range 16).filter (fun w =>
    let x := easelLine s (16 * set + w)
    x.valid && (x.dirty || x.merge))).length

/-- The place that holds a line. -/
def easelFind (s : State) (l : Nat) : Option Nat :=
  ((usableWays s (easelSet l)).map (16 * easelSet l + ·)).find? (fun p =>
    let x := easelLine s p
    x.valid && x.tag == easelTag l)

/-- The way a set gives (R98). -/
def easelVictim (s : State) (set : Nat) : Option Nat :=
  let ways := usableWays s set
  match ways.find? (fun w => !(easelLine s (16 * set + w)).valid) with
  | some w => some (16 * set + w)
  | none =>
    (plruVictim (tabGet dNat s.easel.plru set) (fun w =>
      let x := easelLine s (16 * set + w)
      ways.contains w && x.valid && !x.dirty && !x.merge && !x.flight && !x.fill && !x.queued)).map (16 * set + ·)

/-- Notes the use of a place: last victim of its set, or first for Barrow's installs. -/
def easelTouch (s : State) (p : Nat) (last : Bool) : State :=
  { s with easel := { s.easel with plru := tabMod dNat s.easel.plru (p / 16) (fun st =>
    if last then plruTouch st (p % 16) else plruDemote st (p % 16)) } }

/-- Merge entries in use, [2300.0B]. -/
def mergesInUse (s : State) : Nat :=
  (s.easel.lines.filter (fun e => e.2.merge)).length

/-- Charge that a port's share carries, [2412]. -/
def portCharged (s : State) (q : Nat) : Nat :=
  tabGet dNat s.reserve.portCharge q

/-- Size of a port's share, [2411]. -/
def portShareOf (s : State) (q : Nat) : Nat :=
  tabGet dNat s.reserve.portShare q

/-- Books `n` tiles to a port's share (R26). -/
def portBook (s : State) (q n : Nat) : State :=
  { s with reserve := { s.reserve with portCharge := tabMod dNat s.reserve.portCharge q (· + n) } }

/-- Releases `n` tiles of a port's share. -/
def portFree (s : State) (q n : Nat) : State :=
  { s with reserve := { s.reserve with portCharge := tabMod dNat s.reserve.portCharge q (· - n) } }

/-- A port's share can carry `n` more tiles (R27, R92). -/
def shareRoom (s : State) (q n : Nat) : Bool :=
  decide (portCharged s q + n ≤ portShareOf s q)

/-- Writes of this port are taken in without charge: budget or share zero (R94, R128). -/
def writesThrough (s : State) (q : Nat) : Bool :=
  s.reserve.budget == 0 || portShareOf s q == 0

/-- Sets the charge of the line at `p` to `n` tiles on port `q`'s share, booking or releasing the difference; a charge
already booked stays with its share (R94). -/
def chargeLine (s : State) (p q n : Nat) : State :=
  let x := easelLine s p
  if x.charge = 0 then
    modLine (if n = 0 then s else portBook s q n) p (fun x => { x with charge := n, share := q, onDevice := false })
  else
    let s := if x.onDevice then (if x.charge ≤ n then deviceBook s (n - x.charge) else deviceFree s (x.charge - n))
      else (if x.charge ≤ n then portBook s x.share (n - x.charge) else portFree s x.share (x.charge - n))
    modLine s p (fun x => { x with charge := n, onDevice := x.onDevice && decide (0 < n) })

/-- Order of lines within a destage class: oldest stamp first, then bank, then set (R100). -/
def destageOrder (s : State) (p : Nat) : Nat :=
  (15 - stampAge s.easel.tick (easelLine s p).stamp) * 2 ^ 40 + placeBank p * 2 ^ 30 + p

/-- Places an entry in its class (R100). -/
def destageInsert (s : State) (q : List (Nat × Nat)) (cls p : Nat) : List (Nat × Nat) :=
  let ahead := fun (e : Nat × Nat) =>
    decide (e.1 < cls) || (e.1 == cls && (cls == 1 || decide (destageOrder s e.2 ≤ destageOrder s p)))
  q.filter ahead ++ (cls, p) :: q.filter (fun e => !ahead e)

/-- Sets or clears Q. -/
def setQueued (s : State) (p : Nat) (on : Bool) : State :=
  modLine s p (fun x => { x with queued := on })

/-- Selects a dirty line for destage in a class (R100); `sub` names the counter of its trigger in [2310], 0 for none. -/
def destageSelect (s : State) (cls sub p : Nat) : State :=
  let g := lineGroup s (placeLine s p)
  let x := groupOf s g
  if (easelLine s p).dirty = false then s
  else if x.destages.any (fun e => e.2 == p) then
    if cls = 1 then
      modGroup s g (fun x => { x with destages := destageInsert s (x.destages.filter (fun e => e.2 != p)) 1 p })
    else s
  else if x.destageWait.contains p then s
  else
    let counted := if sub = 0 then s else bump s 0x2310 sub 1
    if x.destages.length < 64 then
      setQueued (modGroup counted g (fun x => { x with destages := destageInsert s x.destages cls p })) p true
    else if cls = 1 then
      match x.destages.getLast? with
      | some (c, v) =>
        if c = 1 then setQueued (modGroup counted g (fun x => { x with destageWait := x.destageWait ++ [p] })) p true
        else
          let s := setQueued counted v false
          setQueued (modGroup s g (fun x => { x with destages := destageInsert s x.destages.dropLast 1 p })) p true
      | none => s
    else s

/-- Removes a line from the destage queue; the first waiting class-1 line takes the place (R100). -/
def destageRemove (s : State) (p : Nat) : State :=
  let g := lineGroup s (placeLine s p)
  let s := setQueued s p false
  modGroup s g (fun x =>
    let q := x.destages.filter (fun e => e.2 != p)
    let w := x.destageWait.filter (· != p)
    match w with
    | v :: rest => if q.length < 64 then { x with destages := destageInsert s q 1 v, destageWait := rest }
      else { x with destages := q, destageWait := w }
    | [] => { x with destages := q, destageWait := [] })

/-- A dirty line that a selection can take: not already in a flight that leaves it clean. -/
def selectable (x : EaselLine) : Bool :=
  x.valid && x.dirty && (!x.flight || x.written)

/-- The set's oldest dirty line (R100). -/
def setOldest (s : State) (set : Nat) : Option Nat :=
  ((List.range 16).map (16 * set + ·)).foldl (fun best p =>
    if selectable (easelLine s p) then
      match best with
      | none => some p
      | some b => if destageOrder s p < destageOrder s b then some p else best
    else best) none

/-- The places of dirty lines that satisfy a test, oldest first. -/
def dirtyPlaces (s : State) (ok : EaselLine → Bool) : List Nat :=
  sortBy (fun a b => decide (destageOrder s a ≤ destageOrder s b))
    ((s.easel.lines.filter (fun e => selectable e.2 && ok e.2)).map (·.1))

/-- Charge of a share that destages already queued or in flight will release. -/
def releasing (s : State) (q : Nat) : Nat :=
  s.easel.lines.foldl (fun n e =>
    if e.2.share == q && !e.2.onDevice && (e.2.queued || (e.2.flight && !e.2.written)) then n + e.2.charge else n) 0

/-- Selects a share's lines in class 2, oldest first, until its charge is below `limit` (R100, R129). -/
def selectShare (s : State) (q limit : Nat) : State :=
  let need := portCharged s q - releasing s q
  ((dirtyPlaces s (fun x => x.share == q && !x.onDevice && decide (0 < x.charge) && !x.queued)).foldl
    (fun (r : State × Nat) p =>
      if r.2 < limit then r else (destageSelect r.1 2 8 p, r.2 - (easelLine s p).charge)) (s, need)).1

/-- Watermark of a share in tiles (R100). -/
def shareWatermark (s : State) (q : Nat) : Nat :=
  portShareOf s q * forceN s 0x2300 3 / 100

/-- The share's watermark trigger (R100). -/
def checkShare (s : State) (q : Nat) : State :=
  if 0 < portCharged s q ∧ shareWatermark s q ≤ portCharged s q then selectShare s q (shareWatermark s q) else s

/-- The set's watermark trigger (R100). -/
def checkSet (s : State) (set : Nat) : State :=
  if 0 < dirtyLimit s set ∧ dirtyLimit s set - forceN s 0x2300 4 ≤ dirtyWays s set then
    match setOldest s set with
    | some p => destageSelect s 2 9 p
    | none => s
  else s

/-- Every charged line goes to class 1 (R131). -/
def selectCharged (s : State) : State :=
  (dirtyPlaces s (fun x => decide (0 < x.charge))).foldl (fun s p => destageSelect s 1 0x0B p) s

/-- Takes up to `n` tiles of the device share's dirty lines for destage and writeback in class 2, oldest first: lines of the
Easel, then of the Palette (R27, R129). -/
def selectDevice (s : State) (n : Nat) : State :=
  let lines := (dirtyPlaces s (fun x => x.onDevice && !x.queued)).take n
  let s := lines.foldl (fun s p => destageSelect s 2 8 p) s
  let pal := sortBy (fun a b => decide (stampAge s.palette.tick b.2.stamp ≤ stampAge s.palette.tick a.2.stamp))
    (s.palette.ways.filter (fun e => e.2.dirty && !e.2.mirror && e.2.charged))
  (pal.take (n - lines.length)).foldl (fun s e => palSelect s e.1) s

/-- Shares smaller than the charge they carry (R129). -/
def selectOverShares (s : State) : State :=
  let s := (List.range 4).foldl (fun s q =>
    if portShareOf s q < portCharged s q then selectShare s q (portShareOf s q + 1) else s) s
  if s.reserve.deviceShare < deviceCharged s then selectDevice s (deviceCharged s - s.reserve.deviceShare) else s

/-- The DevLoad of a message of port `p` (R300). -/
def devLoad (s : State) (p : Nat) : Nat :=
  let n := heldEntries s p
  if 48 ≤ n ∨ portShareOf s p ≤ portCharged s p then 3
  else if 16 ≤ n ∨ shareWatermark s p ≤ portCharged s p ∨ s.reserve.writeThrough then 2
  else if settingN s 0x2B00 4 ≤ s.path.busLoad then 1
  else 0

/-- The port whose share and monitors a requester uses. -/
def requesterPort (s : State) : Requester → Nat
  | .host p _ => p
  | .barrow c _ _ => barrowOwner s c
  | .scan p => p
  | .clear p => p

/-- Requester byte of a Ledger record (R452): port, or 4 Barrow. -/
def requesterByte : Requester → Nat
  | .host p _ => p
  | .barrow _ _ _ => 4
  | .scan p => p
  | .clear p => p

/-- Latency of a request that completes now, in ns (R155, R178). -/
def latencyOf (s : State) (arrival : Nat) : Nat :=
  (s.sys.time - arrival) / 64

/-- LATENCY_OVER_THRESHOLD (R178): the monitor of a completed host request. `kind`: 0 read, 1 sealed read, 2 write, 3
write-through. -/
def overThreshold (s : State) (p kind limit lat line : Nat) (warm : Bool) : State :=
  if limit ≤ lat then
    let s := bump s (0x2610 + p) (if kind ≤ 1 then 5 else if kind = 2 then 8 else 0x0B) 1
    if warm then raise s 0x2601 (leBytes 1 p ++ leBytes 1 kind ++ satBytes 2 lat ++ leBytes 6 (line * 64)) else s
  else s

/-- The monitor of a completed read (R178, R179). -/
def monitorRead (s : State) (p line lat : Nat) (warm poison : Bool) : State :=
  let idx := 0x2610 + p
  let s := bump (bump s idx 1 1) idx 2 lat
  let secret := settingB s (0x2710 + rangeOf s line) 3
  let s := maxStat (maxStat s idx 3 lat) idx 4 (if secret then (lat : Int) else 0)
  let s := bump s (0x2620 + p) (min 15 (lat / 64) + 1) 1
  let s := if poison then bump s idx 0x0C 1 else s
  overThreshold s p (if secret then 1 else 0) (settingN s 0x2600 (if secret then 2 else 1)) lat line warm

/-- The monitor of a completed write (R178, R179). -/
def monitorWrite (s : State) (p line lat : Nat) (warm through snooped isSealed : Bool) : State :=
  let idx := 0x2610 + p
  let s := bump s idx 6 1
  if through then
    let s := perfCount (maxStat (bump s idx 9 1) idx 0x0A lat) p 0x0A 1
    overThreshold s p 3 (settingN s 0x2600 4 + (if isSealed then 1000 else 0)) lat line warm
  else
    overThreshold (maxStat s idx 7 lat) p 2 (settingN s 0x2600 3 + (if snooped then 340 else 0)) lat line warm

/-- A request of port `p` to a line that the port's host has no answer to yet. -/
def unanswered (s : State) (p line : Nat) : Bool :=
  let mine := fun (who : Requester) => match who with
    | .host q _ => q == p
    | _ => false
  s.easel.waits.any (fun w => w.line == line && mine w.who)
    || s.easel.reads.any (fun e => e.2.readers.any (fun w => w.line == line && mine w.who))
    || s.easel.acks.any (fun a => a.line == line && mine a.who)
    || s.easel.mergeWait.any (fun w => w.line == line && mine w.who)
    || (portOf s p).held.any (fun w => w.line == line && mine w.who)

/-- Sends a BIConflictAck that waited for the response to an earlier request of the port (R286). -/
def settleConflict (s : State) (p line : Nat) : State :=
  if s.directory.rounds.any (fun r => r.line == line && r.conflicts.contains p) && !unanswered s p line then
    emit { s with directory := { s.directory with rounds := s.directory.rounds.map (fun r =>
      if r.line = line then { r with conflicts := r.conflicts.erase p } else r) } }
      (.biConflictAck (Fin.ofNat 4 p) line)
  else s

/-- Delivers a read to its requester (R157, R167): data to a host, the beat's data to Barrow, the finding of a scan. -/
def deliverRead (s : State) (w : ReadWait) (data : Line) (poison : Bool) : State :=
  match w.who with
  | .host p tag =>
    let s := if poison then flagSample s w.who 14 else s
    let s := sampleDone (if w.bypass then flagSample s w.who 12 else s) w.who (lineGroup s w.line)
    let s := monitorRead s p w.line (latencyOf s w.arrival) w.warm poison
    let s := if poison then perfCount s p 7 1 else s
    settleConflict (emit s
      (.data (Fin.ofNat 4 p) tag (if poison then 0 else data) poison w.metaValue (devLoad s p))) p w.line
  | .barrow c load beat =>
    let s := sampleDone (if poison then flagSample s w.who 14 else s) w.who (lineGroup s w.line)
    modBarrow s c (fun x => { x with loads := x.loads.map (fun l =>
      if l.serial = load ∧ l.reading.contains beat then { l with arrived := l.arrived ++ [(beat, (if poison then 0 else data), poison)] } else l) })
  | .scan p =>
    if poison then
      (poisonInsert (modPort s p (fun x => { x with scanFound := x.scanFound ++ [w.line] })) w.line true 2).1
    else s
  | .clear _ => s

/-- Completes a write to its requester (R93, R171). -/
def deliverAck (s : State) (a : AckWait) : State :=
  match a.who with
  | .host p tag =>
    let s := sampleDone (if a.through then flagSample s a.who 15 else s) a.who (lineGroup s a.line)
    let s := monitorWrite s p a.line (latencyOf s a.arrival) a.warm a.through a.snooped a.isSealed
    let s := if a.through && a.spare then bump s 0x2600 8 1 else s
    settleConflict (emit s (.ack (Fin.ofNat 4 p) tag (devLoad s p))) p a.line
  | .barrow c load beat =>
    modBarrow s c (fun x => { x with loads := x.loads.map (fun l =>
      if l.serial = load then { l with writing := l.writing.map (fun b => if b.1 = beat then (beat, true) else b) }
      else l) })
  | _ => s

/-- Completes every write that waits for nothing more (R94, R163, R199). -/
def settleAcks (s : State) : State :=
  let ready := fun (a : AckWait) => !a.destage && a.counter.isNone && !a.snoop
  let s' := { s with easel := { s.easel with acks := s.easel.acks.filter (fun a => !ready a) } }
  (s.easel.acks.filter ready).foldl deliverAck s'

/-- A fill that is not to be installed goes only to the reads of its line that `mine` picks: those ordered before what ended it
(R96, R492). -/
def deadenFill (s : State) (p line : Nat) (mine : ReadWait → Bool) : State :=
  let ws := s.easel.waits.filter (fun w => w.line == line && mine w)
  { s with easel := { s.easel with
    waits := s.easel.waits.filter (fun w => !(w.line == line && mine w)),
    reads := s.easel.reads.map (fun e =>
      if e.2.kind = 0 ∧ e.2.place = p ∧ e.2.line = line ∧ e.2.dead = false then
        (e.1, { e.2 with dead := true, readers := e.2.readers ++ ws }) else e) } }

/-- No read joins the bypass reads of a line any more (R158). -/
def closeBypass (s : State) (line : Nat) : State :=
  { s with easel := { s.easel with reads := s.easel.reads.map (fun e =>
    if e.2.kind = 1 ∧ e.2.line = line then (e.1, { e.2 with closed := true }) else e) } }

/-- What an unlisted read is: no line has this address. -/
def dRead : Nat → ReadRec := fun _ => { line := 2 ^ 38, kind := 9 }

/-- Issues an FGR read of a line (R157): `kind` 0 fill of place `p`, 1 bypass, 2 refill. -/
def issueRead (s : State) (line kind p : Nat) (readers : List ReadWait) : State :=
  let n := s.easel.nextRead
  { s with easel := { s.easel with
    nextRead := n + 1,
    reads := tabSet dRead s.easel.reads n
      { line := line, kind := kind, place := p, readers := readers, arrival := s.sys.time } } }

/-- The Palette lookups of a line's path, issued together (R159, R173, R194). -/
def lookupPath (s : State) (line : Nat) : State :=
  if sealedLine s line then (treePath s line).foldl (fun s t => (palLookup s 0 t).1) s else s

/-- The remap table tile a line's read needs (R157 step 5, R82). -/
def lookupRemap (s : State) (line : Nat) : State :=
  match linePlace s line with
  | some pl =>
    match pl.slot with
    | some (p, slot) => if (regionOf s pl.group p).hr then (palLookup s 0 (.remap pl.group p (slot % 16))).1 else s
    | none => s
  | none => s

/-- Full-line writes (R93). -/
def fullMask : BitVec 64 :=
  BitVec.allOnes 64

/-- A write whose mask is not full. -/
def isPartial (w : WriteReq) : Bool :=
  w.mask != fullMask

/-- What an attempt to take a write in gives (R92 to R97, R107). -/
inductive TakeIn where
  /-- taken in; true when it must wait for its destage (R94, R107) -/
  | done (s : State) (through : Bool)
  /-- no headroom: 0 the share, 1 the set, 2 no way, 3 no merge entry, 5 the device share -/
  | held (why : Nat)

/-- The line after a write is put into it (R95 to R97, R492), its charge apart. -/
def writtenLine (s : State) (x : EaselLine) (w : WriteReq) (absent : Bool) : EaselLine :=
  let tick := s.easel.tick % 16
  let was := x.dirty
  let base : EaselLine :=
    { x with
      valid := true, tag := easelTag w.line, dirty := true, stamp := if was then x.stamp else tick,
      written := x.flight,
      writer := if x.flight && !x.written then w.port else x.writer,
      restamp := if x.flight && !x.written then tick else x.restamp }
  if w.poison then { base with poison := true, merge := false, fill := false, data := 0, vk := base.vk && !absent }
  else if isPartial w then
    let pending := absent || x.fill
    { base with merge := x.merge || pending, fill := pending, data := mergeLine x.data w.data w.mask,
                vk := base.vk && !absent }
  else { base with poison := false, merge := false, fill := false, data := w.data, vk := base.vk && !absent }

/-- Merge mask of a place. -/
def mergeMask (s : State) (p : Nat) : BitVec 64 :=
  tabGet (fun _ => 0#64) s.easel.merges p

/-- Sets a merge mask; zero frees the entry. -/
def setMerge (s : State) (p : Nat) (m : BitVec 64) : State :=
  { s with easel := { s.easel with merges := tabSet (fun _ => 0#64) s.easel.merges p m } }

/-- Puts a write into the line at `p` (one bank operation) with the charge its line is to carry, `none` to leave it. -/
def putWrite (s : State) (p : Nat) (w : WriteReq) (absent : Bool) (charge : Option Nat) : State :=
  let x := if absent then {} else easelLine s p
  let y := writtenLine s x w absent
  let kills := x.fill && !y.fill
  let s := modLine s p (fun _ => y)
  let s := match charge with
    | some n => chargeLine s p w.port n
    | none => s
  let s := if y.merge then setMerge s p ((if absent || !x.merge then 0#64 else mergeMask s p) ||| w.mask)
    else setMerge s p 0#64
  let s := if y.merge && !x.merge then bump s 0x2310 5 1 else s
  let s := if kills then deadenFill s p w.line (fun r => decide (r.seq < w.seq)) else s
  let s := if absent then closeBypass s w.line else s
  let s := if y.merge && !x.fill then issueRead (lookupRemap s w.line) w.line 0 p [] else s
  let s := if !w.poison && !isPartial w then poisonRemove s w.line else s
  easelTouch s p (match w.who with
    | .barrow _ _ _ => false
    | _ => true)

/-- Tries to take a write in at its bank (R92 to R97, R107, R128, R492): it needs headroom, in its set and in the share that
carries its line. -/
def takeIn (s : State) (w : WriteReq) : TakeIn :=
  let set := easelSet w.line
  let frail := frailSet s set
  let through := frail || writesThrough s w.port
  let setRoom := frail || decide (dirtyWays s set < dirtyLimit s set)
  match easelFind s w.line with
  | some p =>
    let x := easelLine s p
    if x.poison && isPartial w && !w.poison then
      let fits := x.dirty && x.charge == 0 && !through && setRoom && shareRoom s w.port 1
      .done (if fits then chargeLine s p w.port 1 else s) false
    else if !setRoom then .held 1
    else
      let want := if w.poison then 1 else if isPartial w && (x.fill || x.merge) then 2 else 1
      let more := want - x.charge
      if isPartial w && !w.poison && x.fill && !x.merge && decide (8192 ≤ mergesInUse s) then .held 3
      else if through then
        .done (putWrite s p w false (if x.charge = 0 then none else some want)) true
      else if x.onDevice then
        if deviceRoom s more then .done (putWrite s p w false (some want)) false else .held 5
      else if shareRoom s (if x.charge = 0 then w.port else x.share) more then
        .done (putWrite s p w false (some want)) false
      else .held 0
  | none =>
    let want := if isPartial w && !w.poison then 2 else 1
    if !setRoom then .held 1
    else if !through && !shareRoom s w.port want then .held 0
    else if isPartial w && !w.poison && decide (8192 ≤ mergesInUse s) then .held 3
    else
      match easelVictim s set with
      | none => .held 2
      | some p => .done (putWrite s p w true (if through then none else some want)) through

/-- Records the acknowledgement a taken-in write still waits for, or sends it (R93, R94, R163, R199). -/
def acknowledge (s : State) (w : WriteReq) (through : Bool) : State :=
  let a : AckWait :=
    { line := w.line, who := w.who, destage := through, snoop := w.snoop, snooped := w.snooped, through := through,
      isSealed := sealedLine s w.line, arrival := w.arrival, warm := w.warm }
  if through || w.snoop then { s with easel := { s.easel with acks := s.easel.acks ++ [a] } }
  else deliverAck s a

/-- What follows a take-in (R94, R100, R107, R194): counts, the counter tile's lookup, class 1 in write-through, the
watermarks, and the acknowledgement. -/
def afterTakeIn (s : State) (w : WriteReq) (through : Bool) : State :=
  let s := stamp (bump s 0x2310 (if isPartial w then 4 else 3) 1) w.who 2
  let s := lookupPath s w.line
  let s := if w.snoop then
      { s with directory := { s.directory with rounds := s.directory.rounds.map (fun r =>
        if r.line = w.line then { r with covered := r.covered ||| w.mask } else r) } }
    else s
  let s := if through then
      match easelFind s w.line with
      | some p => destageSelect s 1 0x0B p
      | none => s
    else checkSet (checkShare s w.port) (easelSet w.line)
  let s := if (rangeRec s (rangeOf s w.line)).closing then
      match easelFind s w.line with
      | some p => destageSelect s 4 0 p
      | none => s
    else s
  acknowledge s w through

/-- A held write to the line, or one that waits for a merge entry, stands before order number `seq` (R168, R175). -/
def heldBefore (s : State) (line seq : Nat) : Bool :=
  (List.range 4).any (fun p => (portOf s p).held.any (fun w => w.line == line && decide (w.seq < seq)))
    || s.easel.mergeWait.any (fun w => w.line == line && decide (w.seq < seq))

/-- Holds a write (R27, R93, R174): the cause raises a destage class. -/
def holdWrite (s : State) (w : WriteReq) (why : Nat) : State :=
  let s := modPort s w.port (fun x => { x with held := x.held ++ [w] })
  let s := bump s 0x2413 (w.port + 1) 1
  if why = 0 then selectShare s w.port (portShareOf s w.port)
  else if why = 1 then
    match setOldest s (easelSet w.line) with
    | some p => destageSelect (bump s 0x2310 6 1) 1 0x0A p
    | none => bump s 0x2310 6 1
  else if why = 5 then selectDevice s 1
  else s

/-- A write reaches its Easel bank (R93, R168): it is taken in or held. A write that finds no merge entry waits for one
(R96). -/
def bankWrite (s : State) (w : WriteReq) : State :=
  if heldBefore s w.line w.seq then holdWrite s w 4
  else
    match takeIn s w with
    | .done s' through => afterTakeIn s' w through
    | .held 3 => { s with easel := { s.easel with mergeWait := s.easel.mergeWait ++ [w] } }
    | .held why => holdWrite s w why

/-- Held writes of lines that no access may reach any more complete with no effect, and the reads that stood behind them return
poison (R31, R67, R149). -/
def completeHeld (s : State) (mine : Nat → Bool) : State :=
  let ws := (List.range 4).flatMap (fun p => (portOf s p).held.filter (fun w => mine w.line))
    ++ s.easel.mergeWait.filter (fun w => mine w.line)
  let stuck := s.easel.waits.filter (fun w => mine w.line && heldBefore s w.line w.seq)
  let s := (List.range 4).foldl (fun s p => modPort s p (fun x => { x with held := x.held.filter (fun w => !mine w.line) })) s
  let s := { s with easel := { s.easel with
    mergeWait := s.easel.mergeWait.filter (fun w => !mine w.line),
    waits := s.easel.waits.filter (fun w => !stuck.contains w) } }
  stuck.foldl (fun s w => deliverRead s w 0 true) (ws.foldl (fun s w => acknowledge s w false) s)

/-- The next order number of the banks (R168). -/
def nextOrder (s : State) : State × Nat :=
  ({ s with easel := { s.easel with nextSeq := s.easel.nextSeq + 1 } }, s.easel.nextSeq)

end Sys2Proof.Machine
end

