-- ==== Sys2Proof/Machine/Journal.lean ====
section
/-! DEFINITION. Machine/Journal.lean: the journal committer (R84, R85, R330, R333), checkpoints and the anchor slots (R366,
R367), stale columns and group fences (R31, R466). -/

namespace Sys2Proof.Machine

/-- The units of a journal word, in order (R326). -/
def wordUnits (data : Nat) : List Nat :=
  (List.range 4).map (fun i => data / 2 ^ (16 * i) % 2 ^ 16)

/-- MoveBegin record (R85). -/
def moveBeginUnits (retire : Bool) (logical dst key : Nat) : List Nat :=
  [recordUnit 1 3 (bnat retire), logical, dst, key]

/-- MoveProgress record (R85). -/
def moveProgressUnits (logical pointer : Nat) : List Nat :=
  [recordUnit 2 2 0, logical, pointer / 64]

/-- MoveEnd record (R85). -/
def moveEndUnits (logical : Nat) : List Nat :=
  [recordUnit 3 1 0, logical]

/-- Remap record (R85). -/
def remapUnits (column p slot : Nat) : List Nat :=
  [recordUnit 4 3 column, p, slot % 2 ^ 16, slot / 2 ^ 16]

/-- JournalRegion record (R85). -/
def journalRegionUnits (p : Nat) : List Nat :=
  [recordUnit 5 1 0, p]

/-- Checkpoint record (R85). -/
def checkpointUnits (gen : Nat) : List Nat :=
  [recordUnit 6 2 0, gen % 2 ^ 16, gen / 2 ^ 16 % 2 ^ 16]

/-- GlazeBoundary record (R205): form 0 advanced, 1 page begun, 2 page ended, 3 operation ended. -/
def glazeUnits (form range index : Nat) : List Nat :=
  [recordUnit 7 2 (form * 64 + range), index % 2 ^ 16, index / 2 ^ 16 % 2 ^ 16]

/-- RetouchPosition record (R225). -/
def retouchUnits (ended : Bool) (p progress : Nat) : List Nat :=
  [recordUnit 8 2 (bnat ended), p, progress / 64]

/-- StaleColumn record (R85). -/
def staleUnits (column : Nat) : List Nat :=
  [recordUnit 9 0 column]

/-- Payload of a journal tile from its sequence number and words (R84); the rest is padding units. -/
def journalPayload (seq : Nat) (words : List Nat) : List Byte :=
  leBytes 8 seq ++ (List.range 7).flatMap (fun i => leBytes 8 (words.getD i 0))

/-- Units that wait in the JQ of a group: words pushed and not yet taken. -/
def waitingWords (s : State) (g : Nat) : List QWord :=
  (queueOf s g).words.drop (queueOf s g).taken

/-- Whether a word carries a JournalRegion record, after which records go to the next region (R367). -/
def endsRegion (w : QWord) : Bool :=
  (wordUnits w.data).headD 0 / 2 ^ 11 == 5

/-- The words of the next tile: at most seven, none past a poisoned word or a JournalRegion record. -/
def nextTileWords : Nat → List QWord → List QWord
  | 0, _ => []
  | _, [] => []
  | n + 1, w :: ws => if isPoisoned w then [] else if endsRegion w then [w] else w :: nextTileWords n ws

/-- Issues one journal tile into the journal region (R84). -/
def issueJournalTile (s : State) (g : Nat) (words : List Nat) (n drop : Nat) (stale : Bool) : State :=
  let x := groupOf s g
  match x.journals.head? with
  | none => s
  | some j =>
    let code := goodCode s (.journal g x.journalSeq) (journalPayload x.journalSeq words) zeroMac 0
    let tile : JournalOut :=
      { seq := x.journalSeq, addr := regionBase s g j + x.journalSlot, code := code, words := n, stale := stale,
        drop := drop }
    modGroup s g (fun x => { x with
      journalOut := x.journalOut ++ [tile], journalSeq := x.journalSeq + 1, journalSlot := x.journalSlot + 1,
      journalTiles := x.journalTiles + 1, journalSince := s.sys.time,
      checkpointDue := x.checkpointDue || decide (262144 ≤ x.journalTiles + 1) })

/-- Writes the next tile from the waiting words. -/
def commitTile (s : State) (g drop : Nat) : State :=
  let ws := nextTileWords 7 (waitingWords s g)
  if ws = [] then s
  else issueJournalTile (takeWords s g ws.length) g (ws.map (·.data)) ws.length drop false

/-- Writes every waiting word, tile by tile; at most `fuel` tiles. -/
def commitAll : Nat → State → Nat → State
  | 0, s, _ => s
  | fuel + 1, s, g => if nextTileWords 7 (waitingWords s g) = [] then s else commitAll fuel (commitTile s g 0) g

/-- JOURNAL_TILE_WRITE (R84, R333, R466): the StaleColumn record first, alone; a poisoned word forces a checkpoint and is
recorded; else the next tile. -/
def execJournalTileWrite (group : Group) (s : State) : Host.Outcome State Fault Refusal :=
  let g := group.val
  let x := groupOf s g
  if groupAwake s g = false then .next s
  else
  match x.staleRecord with
  | some c =>
    let w := (staleUnits c).headD 0
    .next (modGroup (issueJournalTile s g [w] 0 0 true) g (fun x => { x with staleRecord := none }))
  | none =>
    match waitingWords s g with
    | [] => .next s
    | w :: _ =>
      if isPoisoned w then
        if x.checkpointDue then .next s
        else
          let at0 := ((queueOf s g).mark + (queueOf s g).taken) % queueCapacity g
          .next (raise (modGroup s g (fun x => { x with checkpointDue := true })) 0x2D01 (leBytes 1 g ++ satBytes 4 at0))
      else .next (commitTile s g 0)

/-- The oldest journal program completes (R330, R244): the tile is in the medium, the mark passes its words and, after a
poisoned word, the words it drops (R333); a StaleColumn tile releases the hold on programs (R466). -/
def journalComplete (s : State) (g : Nat) : State :=
  match (groupOf s g).journalOut with
  | [] => s
  | t :: rest =>
    let cols := (List.range 8).filter (fun c => !(erasedColumns s g none).contains c)
    let s := storeColumns s g (List.replicate 8 t.addr) t.code cols
    let rel := t.addr - regionArea s g
    let s := filterMark s g (rel / 1048581) (rel % 1048581)
    let s := modGroup s g (fun x => { x with
      journalOut := rest, staleHold := x.staleHold && !t.stale })
    setMark s g (t.words + t.drop)

/-- First patch address of the anchor slot of a generation (R64, R366). -/
def anchorBase (gen : Nat) : Nat :=
  gen % 4 * 16384

/-- The header payload of R366, as the snapshot cycle gives it. -/
def anchorHeader (s : State) (g gen shutdown : Nat) : List Byte :=
  let x := groupOf s g
  let m := x.move
  leBytes 8 gen ++ leBytes 8 shutdown ++ leBytes 8 x.journalSeq ++ leBytes 4 s.path.epoch ++ leBytes 5 s.path.seed
    ++ leBytes 1 (bnat (shutdown ≠ 0) + 2 * x.typ) ++ leBytes 2 (x.journals.headD 0) ++ leBytes 2 x.free.length
    ++ leBytes 2 x.hot ++ leBytes 2 x.cold ++ leBytes 2 (m.elim 0xFFFF (·.logical)) ++ leBytes 2 (m.elim 0 (·.src))
    ++ leBytes 2 (m.elim 0 (·.dst)) ++ leBytes 2 (m.elim 0 (·.pointer / 64)) ++ leBytes 1 (m.elim 0 (·.kind))
    ++ List.replicate 13 0

/-- Payload of tile `i` of an anchor slot's body (R366). -/
def anchorBody (s : State) (g i : Nat) : List Byte :=
  let x := groupOf s g
  if i ≤ 1921 then
    (List.range 16).flatMap (fun k => leBytes 4 (entryWord (tabGet dEntry x.table (16 * (i - 1) + k))))
  else if i ≤ 8065 then
    (List.range 5).flatMap (fun k => leBytes 12 (regionWord (tabGet dRegion x.regions (5 * (i - 1922) + k)))) ++ leBytes 4 0
  else if i ≤ 8129 then (List.range 32).flatMap (fun k => leBytes 2 (x.free.getD (32 * (i - 8066) + k) 0))
  else
    let step := if s.crypt.glaze.range.isSome then s.crypt.glaze.step else 0xFFFFFFFF
    (List.range 8).flatMap (fun c => leBytes 4 (tabGet dNat x.spares c))
      ++ leBytes 2 (x.pass.elim 0xFFFF (·.region)) ++ leBytes 2 (x.pass.elim 0 (·.offset / 64)) ++ leBytes 4 step
      ++ List.replicate 24 0

/-- Programs an anchor tile of a generation (R366). -/
def programAnchor (s : State) (g gen i : Nat) (payload : List Byte) : State :=
  let a := anchorBase gen + i
  match placeOf s (.anchor g a) with
  | some pl => programAt s pl (goodCode s (.anchor g a) payload zeroMac (gen % 2 ^ 24))
  | none => s

/-- The journal region of generation g − 4 returns to the tail of the free list and the head becomes the journal region
J_g (R78, R367); it enters and leaves with RB clear (R467). -/
def rotateJournal (s : State) (g : Nat) : State :=
  let x := groupOf s g
  let old := if 4 ≤ x.journals.length then x.journals.drop 3 else []
  let free := x.free ++ old
  match free with
  | [] => s
  | j :: rest =>
    let s := old.foldl (fun s p => modRegion s g p (fun r => { r with rb := false, fr := true, owner := 0 })) s
    let s := modRegion s g j (fun r => { r with rb := false, fr := true, owner := 0x7FFF })
    modGroup s g (fun x => { x with free := rest, journals := j :: x.journals.take (if old = [] then 4 else 3) })

/-- CHECKPOINT (R367 steps 1 and 2, R333): the snapshot with its two records, which the committer writes at once, and the
body of slot g mod 4. A poisoned word makes the committer drop what was pushed before. -/
def startCheckpoint (s : State) (g : Nat) (closing : Bool) : State :=
  let x := groupOf s g
  if x.checkpoint.isSome ∨ (x.free = [] ∧ x.journals.length < 4) ∨ journalRoom s g 2 = false ∨ x.staleRecord.isSome then s
  else
    let gen := x.generation + 1
    let ws := waitingWords s g
    let bad := ws.any isPoisoned
    let s := if bad then takeWords s g ws.length else s
    let s := jqPush (rotateJournal s g) g (checkpointUnits gen)
    let s := jqPush s g (journalRegionUnits ((groupOf s g).journals.headD 0))
    let jr := (groupOf s g).journals
    let s := modGroup s g (fun x => { x with journals := x.journals.drop 1 })
    let s := if bad then commitTile s g ws.length else commitAll 300000 s g
    let s := modGroup s g (fun x => { x with
      journals := jr, journalSlot := 0, journalTiles := 0, checkpointDue := false,
      checkpoint := some { gen := gen, header := [], closing := closing } })
    let header := anchorHeader s g gen (if closing then s.sys.shutdownSeq else 0)
    let s := modGroup s g (fun x => { x with checkpoint := some { gen := gen, header := header, closing := closing } })
    (List.range 8130).foldl (fun s i => programAnchor s g gen (i + 1) (anchorBody s g (i + 1))) s

/-- CHECKPOINT (R367), by a group that is awake (R19). -/
def execCheckpoint (group : Group) (s : State) : Host.Outcome State Fault Refusal :=
  .next (if (groupOf s group.val).checkpointDue && groupAwake s group.val then startCheckpoint s group.val false else s)

/-- CHECKPOINT_WINDOW (R367): the end of the group's 1 s window triggers a checkpoint. -/
def execCheckpointWindow (group : Group) (s : State) : Host.Outcome State Fault Refusal :=
  .next (modGroup s group.val (fun x => { x with checkpointDue := true }))

/-- CHECKPOINT_HEADER_WRITE (R367 step 3). -/
def execCheckpointHeaderWrite (group : Group) (s : State) : Host.Outcome State Fault Refusal :=
  .next (modGroup s group.val (fun x =>
    { x with checkpoint := x.checkpoint.map (fun c => { c with headerOut := true }) }))

/-- The header program completes: the generation is complete (R367 step 4). -/
def completeCheckpoint (s : State) (g : Nat) : State :=
  match (groupOf s g).checkpoint with
  | none => s
  | some c =>
    if c.headerOut then
      bump (modGroup (programAnchor s g c.gen 0 c.header) g (fun x =>
        { x with generation := c.gen, checkpoint := none, closed := x.closed || c.closing })) 0x2F12 (g + 1) 1
    else s

/-- Erased columns of a group as a mask (R466 data). -/
def erasedMask (s : State) (g : Nat) : Nat :=
  (groupErased s g).foldl (fun m c => m + 2 ^ c) 0

/-- GROUP_FENCE (R31, R466): fences a group; writes to it that wait for the medium complete on the link. -/
def fenceGroup (s : State) (g : Nat) : State :=
  if (groupOf s g).fenced then s
  else
    let s := modGroup s g (fun x => { x with fenced := true })
    let s := if inShutdown s then { s with sys := { s.sys with fencedInWarn := true } } else s
    let s := settleAcks { s with easel := { s.easel with acks := s.easel.acks.map (fun a =>
      if lineGroup s a.line = g then { a with destage := false, counter := none } else a) } }
    let s := completeHeld s (fun line => lineGroup s line == g)
    tallyAdd (raise s 0x3303 (leBytes 1 g ++ leBytes 1 (erasedMask s g))) 162

/-- Physical regions that hold a host or metadata logical region. -/
def heldRegions (x : GroupRec) : List Nat :=
  (x.table.filter (fun e => e.2.mapped)).map (·.2.phys) ++ (match x.move with
    | some m => [m.dst]
    | none => [])

/-- STALE_COLUMN (R466): a column of a group has become erased under the first or second condition of R54. A second stale
or erased column fences the group. -/
def staleColumn (s : State) (g c : Nat) : State :=
  if (groupErased s g).any (· != c) then fenceGroup s g
  else
    let held := heldRegions (groupOf s g)
    let s := held.foldl (fun s p => modRegion s g p (fun r => { r with rb := true })) s
    modGroup s g (fun x => { x with
      stale := some c, rebuild := none, rebuildAt := none, staleRecord := some c, staleHold := true, checkpointDue := true })

/-- The RB marks of every region are gone and the column is in service (R469): the stale column is cleared. -/
def rebuildDone (s : State) (g c duration : Nat) : State :=
  let s := modGroup s g (fun x => { x with stale := none, rebuild := none, rebuildAt := none, checkpointDue := true })
  tallyAdd (raise s 0x3302 (leBytes 1 g ++ leBytes 1 c ++ satBytes 4 duration)) 160

/-- The record units of the journal since the last checkpoint: the tiles of the present journal region, then the words not
yet in a tile (R150). -/
def recentUnits (s : State) (g : Nat) : List Nat :=
  let x := groupOf s g
  let base := regionBase s g (x.journals.headD 0)
  let tiles := (List.range x.journalSlot).flatMap (fun i =>
    let seq := x.journalSeq - x.journalSlot + i
    let code := decodeAt s g (List.replicate 8 (base + i)) (erasedColumns s g none) 0
    match judgeDecode (.journal g seq) code with
    | .good content _ => (List.range 28).map (fun k => numAt content (8 + 2 * k) 2)
    | _ => [])
  tiles ++ (waitingWords s g).flatMap (fun w => wordUnits w.data)

/-- Splits a unit stream into records: header or step unit with its following units (R85). -/
def splitRecords : Nat → List Nat → List (List Nat)
  | 0, _ => []
  | _, [] => []
  | fuel + 1, u :: us =>
    let n := if 32768 ≤ u ∨ u = 0 then 0 else u / 256 % 8
    (u :: us.take n) :: splitRecords fuel (us.drop n)

/-- Groups that Varnish writes for: those not fenced (R374). -/
def liveGroups (s : State) : List Nat :=
  (List.range 8).filter (fun g => !(groupOf s g).fenced)

/-- Dirty Easel lines that Varnish has to write, oldest first (R374 item 1). -/
def varnishLines (s : State) (live : Bool) : List Nat :=
  (dirtyPlaces s (fun x => x.dirty)).filter (fun p => (groupOf s (lineGroup s (placeLine s p))).fenced != live)

/-- The group a metadata tile lies in. -/
def tileGroup (s : State) (t : TileId) : Nat :=
  (placeOf s t).elim 0 (·.group)

/-- Order of a Palette line in Varnish (R374 item 2): counter tiles, then nodes by level, then remap tables. -/
def varnishOrder (t : TileId) : Nat :=
  match t with
  | .counter _ => 0
  | .node l _ => l
  | _ => 9

/-- Dirty Palette lines of groups that are live or fenced, in the order of R374 item 2. -/
def varnishPalette (s : State) (live : Bool) : List Nat :=
  let ws := (s.palette.ways.filter (fun e => e.2.valid && e.2.dirty && !e.2.mirror
    && ((groupOf s (tileGroup s (tileOfKey e.2.key))).fenced != live))).map (·.1)
  (List.range 10).flatMap (fun k => ws.filter (fun w => varnishOrder (tileOfKey (palWay s w).key) == k))

/-- What Varnish has not written: lines, metadata lines, journal tiles and the tiles of closing checkpoints. -/
def unwrittenTiles (s : State) : Nat :=
  (varnishLines s true).length + (varnishLines s false).length + (varnishPalette s true).length
    + (varnishPalette s false).length
    + (List.range 8).foldl (fun n g => n + ((waitingWords s g).length + 6) / 7
        + (if s.sys.anchorsLoaded ∧ (groupOf s g).closed = false then 8131 else 0)) 0

/-- Varnish ends (R374, R376): its time, outcome and epoch are noted, and Varnished begins with the stop order (R349). -/
def varnishEnd (s : State) (outcome : Nat) : State :=
  let left := unwrittenTiles s
  let s := { s with
    sys := { s.sys with
      varnishItem := 0, varnishTime := min 65535 ((s.sys.time - s.sys.varnishAt) / 64000), varnishOutcome := outcome,
      varnishedEpoch := s.path.epoch },
    power := { s.power with stopStep := some 0, stopForStart := false } }
  let s := if outcome = 0 then tallyAdd s 156 else raise s 0x2F03 (leBytes 1 outcome ++ satBytes 4 left)
  enterState s .varnished

/-- The work of the item in progress (R374): lines and metadata lines are selected, the journal queues written, the closing
checkpoints taken. -/
def varnishWork (s : State) : State :=
  let live := liveGroups s
  if s.sys.varnishItem = 1 then
    ((varnishLines s true).filter (fun p => selectable (easelLine s p) && !(easelLine s p).queued)).foldl
      (fun s p => destageSelect s 1 0 p) s
  else if s.sys.varnishItem = 2 then (varnishPalette s true).foldl palSelect s
  else if s.sys.varnishItem = 3 then live.foldl (commitAll 300000) s
  else
    live.foldl (fun s g =>
      if s.sys.anchorsLoaded ∧ (groupOf s g).closed = false then startCheckpoint s g true else s) s

/-- The item in progress is written (R374). -/
def varnishItemDone (s : State) : Bool :=
  let live := liveGroups s
  if s.sys.varnishItem = 1 then
    (varnishLines s true).isEmpty && !s.easel.flights.any (fun f => live.contains (lineGroup s f.line))
  else if s.sys.varnishItem = 2 then
    (varnishPalette s true).isEmpty && !s.palette.writes.any (fun w => live.contains (tileGroup s w.tile))
  else if s.sys.varnishItem = 3 then
    live.all (fun g => (waitingWords s g).isEmpty && (groupOf s g).journalOut.isEmpty)
  else !s.sys.anchorsLoaded || live.all (fun g => (groupOf s g).closed)

/-- VARNISH (R374): goes on with the items in their order; with the last of them written it ends with outcome 0, or 2 where a
group was fenced in the sequence and something of it stays unwritten. -/
def varnishAdvance : Nat → State → State
  | 0, s => s
  | fuel + 1, s =>
    if s.sys.dev = .varnish ∧ s.sys.coreLost = false then
      let s := varnishWork s
      if varnishItemDone s then
        if 4 ≤ s.sys.varnishItem then
          varnishEnd s (if s.sys.fencedInWarn ∧ 0 < unwrittenTiles s then 2 else 0)
        else varnishAdvance fuel { s with sys := { s.sys with varnishItem := s.sys.varnishItem + 1 } }
      else s
    else s

/-- JOURNAL_TILE_COMPLETE (R330). -/
def execJournalTileComplete (group : Group) (s : State) : Host.Outcome State Fault Refusal :=
  .next (varnishAdvance 5 (journalComplete s group.val))

/-- CHECKPOINT_COMPLETE (R367 step 4, R374). -/
def execCheckpointComplete (group : Group) (s : State) : Host.Outcome State Fault Refusal :=
  .next (varnishAdvance 5 (completeCheckpoint s group.val))

end Sys2Proof.Machine
end

