-- ==== Sys2Proof/Machine/Loss.lean ====
section
/-! DEFINITION. Machine/Loss.lean: what the block does when content is lost or fails a check: lost counter tiles, tree nodes
and remap table tiles (R148 to R150), failed MAC and version checks (R200), Palette parity errors (R147), re-anchoring of the
tree (R149, R198), Easel soft errors (R103, R106), uncorrectable region entries (R67), and tiles unreadable after their
retries (R51). -/

namespace Sys2Proof.Machine

/-- The key range whose sealed window holds a counter index. -/
def rangeOfCounter (s : State) (c : Nat) : Option Nat :=
  (List.range 8).find? (fun r =>
    match windowOf s r with
    | some (a, b) => decide (a ≤ c ∧ c < b)
    | none => false)

/-- The 32 lines a counter tile covers (R191). -/
def pageLines (s : State) (c : Nat) : List Nat :=
  match rangeOfCounter s c with
  | some r =>
    let first := rangeFirst s r + (c - settingN s (0x2710 + r) 4 * 2 ^ 17) * 32
    (List.range 32).map (first + ·)
  | none => []

/-- Puts P on a line present in the Easel (R148 step 1): a pending merge ends, its fill then goes to no line. -/
def poisonPresent (s : State) (line : Nat) : State :=
  match easelFind s line with
  | some p =>
    let x := easelLine s p
    let s := if x.merge ∧ 1 < x.charge then chargeLine s p x.share 1 else s
    let s := setMerge s p 0#64
    let s := if x.fill then deadenFill s p line (fun _ => true) else s
    modLine s p (fun x => { x with poison := true, merge := false, fill := false })
  | none => s

/-- A poison tile for a host line in the medium, as a write of its region (R39, R71). -/
def writePoisonTile (s : State) (line version : Nat) : State :=
  match linePlace s line with
  | some pl => bumpCodec (engineProgram s pl (poisonCode s (.host line) version)) pl.group 0x0D 1
  | none => s

/-- The line is dirty in the Easel. -/
def lineDirty (s : State) (line : Nat) : Bool :=
  match easelFind s line with
  | some p => (easelLine s p).dirty
  | none => false

/-- The payload of a metadata tile as it stands in the medium, with its CRC checked (R198): one read, counted as any other
(R56); none where it gives no good tile. -/
def readMeta (s : State) (t : TileId) : State × Option Line :=
  match placeOf s t with
  | some pl =>
    let e := takeErased s pl.group pl.addrs
    let d := readTile e.1 t pl 0 e.2
    match d.2 with
    | .good content _ => (d.1, some (lineOf (payloadOf content)))
    | _ => (d.1, none)
  | none => (s, none)

/-- A metadata tile as the Palette holds it, or else as read from the medium. -/
def heldOrRead (s : State) (t : TileId) : State × Option Line :=
  match paletteData s t with
  | some d => (s, some d)
  | none => readMeta s t

/-- COUNTER_TILE_LOST (R148): the page is poisoned and the counter tile written anew from its medium copy with the next
major; a medium copy that cannot be read gives a drawn major. `code` is the Ledger event with its data. -/
def counterLost (s : State) (c code : Nat) (data : List Byte) : State :=
  let lines := pageLines s c
  let s := lines.foldl poisonPresent s
  let r := readMeta s (.counter c)
  let major := match r.2 with
    | some d => majorOf d + 1
    | none => drawn r.1 64
  let s := afterDraw r.1
  let s := lines.foldl (fun s l => if lineDirty s l then s else writePoisonTile s l (counterVersion major 0)) s
  let s := lines.foldl (fun s l => mediaEvent (poisonPermanent s l) 0 l) s
  palPut (raise s code data) 0 (.counter c) (some (counterPayload major [])) false

/-- A node's span meets the sealed window of a key range. -/
def spanMeets (s : State) (r l n : Nat) : Bool :=
  match windowOf s r with
  | some (a, b) => decide (a < (n + 1) * 32 ^ l ∧ n * 32 ^ l < b)
  | none => false

/-- A node's span lies in the sealed window of a key range. -/
def spanWithin (s : State) (r l n : Nat) : Bool :=
  match windowOf s r with
  | some (a, b) => decide (a ≤ n * 32 ^ l ∧ (n + 1) * 32 ^ l ≤ b)
  | none => false

/-- The DPA of the first line of a key range that a node covers (R149). -/
def spanBase (s : State) (r l n : Nat) : Nat :=
  (pageLines s (max (n * 32 ^ l) ((windowOf s r).elim 0 (·.1)))).headD 0 * 64

/-- A child that is to be written again under its parent's new counter (R149, R198): a line present in the Palette is newer than
its medium copy and is marked dirty as it stands, any other is taken from the medium; one that gives no good tile stays, and
fails its check when it is next fetched. -/
def renewChild (s : State) (t : TileId) : State :=
  if (paletteData s t).isSome then palPut s 0 t none false
  else
    let r := readMeta s t
    match r.2 with
    | some d => palPut r.1 0 t (some d) false
    | none => r.1

/-- Rebuilds a node from its children as they stand (R149 policy 1, R198): new major, minors zero, dirty with FNA, and every
child written again under it. -/
def reanchorNode (s : State) (l n : Nat) : State :=
  let s' := palPut (afterDraw s) 0 (.node l n) (some (counterPayload (drawn s 64) [])) true
  (childrenOf s' (some (.node l n))).foldl renewChild s'

/-- Loads a span fence, or lets the span wait for one with its key range closed (R149). -/
def fenceSpan (s : State) (f : SpanFence) : State :=
  if s.palette.spans.length < 8 then { s with palette := { s.palette with spans := s.palette.spans ++ [f] } }
  else
    modRange { s with palette := { s.palette with spanWait := s.palette.spanWait ++ [f] } } f.range
      (fun x => { x with held := true })

/-- TREE_NODE_LOST (R149): the subtree policy of every key range the node covers; `failed` tells a failed check (R200) from a
loss. -/
def nodeLost (s : State) (l n : Nat) (failed : Bool) : State :=
  let ranges := (List.range 8).filter (fun r => spanMeets s r l n)
  let policy := fun (r : Nat) => settingN s 0x2503 (r + 1)
  let s := if ranges.any (fun r => policy r == 1) then reanchorNode s l n else s
  ranges.foldl (fun s r =>
    let s := if policy r = 1 then modRange s r (fun x => { x with fna := true })
      else fenceSpan s { range := r, level := l, node := n }
    if failed then raise s 0x2704 (leBytes 1 l ++ leBytes 4 n ++ leBytes 1 (policy r))
    else raise s (if policy r = 1 then 0x2503 else 0x2502) (leBytes 1 r ++ leBytes 1 l ++ leBytes 6 (spanBase s r l n))) s

/-- The counter tiles of a key range below a node. -/
def spanCounters (s : State) (r l n : Nat) : List Nat :=
  ((List.range (32 ^ l)).map (fun i => n * 32 ^ l + i)).filter (fun c => rangeOfCounter s c == some r)

/-- Fresh counters for the part of a subtree that lies in key range `r`, from the node down (R149 policy 0); a node that covers
other ranges too keeps the counters it has, and their tiles are written again under it. -/
def freshSubtree : Nat → State → Nat → Nat → Nat → State
  | 0, s, _, _, _ => s
  | fuel + 1, s, r, l, n =>
    let keep := (paletteData s (.node l n)).isSome && !spanWithin s r l n
    let s := if keep then palPut s 0 (.node l n) none false
      else palPut (afterDraw s) 0 (.node l n) (some (counterPayload (drawn s 64) [])) false
    (childrenOf s (some (.node l n))).foldl (fun s t =>
      match t with
      | .node l' n' => if spanMeets s r l' n' then freshSubtree fuel s r l' n' else if keep then s else renewChild s t
      | .counter c =>
        if rangeOfCounter s c = some r then palPut (afterDraw s) 0 t (some (counterPayload (drawn s 64) [])) false
        else if keep then s else renewChild s t
      | _ => s) s

/-- A fence that frees goes to the span that waits longest; a range that waits for no fence any more opens again (R149). -/
def freeFence (s : State) (f : SpanFence) : State :=
  let s := { s with palette := { s.palette with spans := s.palette.spans.erase f } }
  let s := match s.palette.spanWait with
    | [] => s
    | w :: rest => { s with palette := { s.palette with spans := s.palette.spans ++ [w], spanWait := rest } }
  (List.range 8).foldl (fun s r => modRange s r (fun x =>
    { x with held := x.held && (s.crypt.reanchoring || s.palette.spanWait.any (fun w => w.range == r)) })) s

/-- SPAN_FENCE_REBUILD_END (R149): the span's lines have been written as poison tiles, its subtree rebuilt with fresh
counters, and the fence is cleared. -/
def execSpanFenceRebuildEnd (fence : Fin 8) (s : State) : Host.Outcome State Fault Refusal :=
  match s.palette.spans[fence.val]? with
  | none => .next s
  | some f =>
    let s := freshSubtree 5 s f.range f.level f.node
    let s := (spanCounters s f.range f.level f.node).foldl (fun s c =>
      let version := (paletteData s (.counter c)).elim 0 (fun d => counterVersion (majorOf d) 0)
      (pageLines s c).foldl (fun s l => if lineDirty s l then poisonPresent s l else writePoisonTile s l version) s) s
    .next (freeFence s f)

/-- The entries a remap table tile gets from the Remap records its group's journal holds since the last checkpoint, every other
empty (R150). -/
def journalRemaps (s : State) (g p t : Nat) : Line :=
  let records := splitRecords 100000 (recentUnits s g)
  let entries := records.foldl (fun (acc : List Nat × (Nat → Nat)) u =>
    let h := u.headD 0
    let slot := u.getD 2 0 + u.getD 3 0 % 32 * 65536
    let col := h % 8
    if h / 2 ^ 11 = 4 then
      let spare := acc.2 col
      let next := fun c => if c = col then acc.2 c + 1 else acc.2 c
      if u.getD 1 0 = p ∧ slot % 16 = t ∧ slot ≠ 0x1FFFFF then
        (acc.1 ++ [2 ^ 63 + col * 2 ^ 60 + slot * 2 ^ 39 + spare], next)
      else (acc.1, next)
    else acc) ([], fun c =>
      tabGet dNat (groupOf s g).spares c
        - (records.filter (fun u => u.headD 0 / 2 ^ 11 == 4 && u.headD 0 % 8 == c)).length)
  lineOf ((List.range 8).flatMap (fun i => leBytes 8 (entries.1.getD i 0)))

/-- Writes a rebuilt remap table tile (R150). -/
def remapRebuilt (s : State) (g p t : Nat) (payload : Line) : State :=
  raise (palPut s 2 (.remap g p t) (some payload) false) 0x2504 (leBytes 1 g ++ leBytes 2 p ++ leBytes 1 t)

/-- The medium copy of a remap table tile cannot serve (R150). -/
def remapFromJournal (s : State) (g p t : Nat) : State :=
  remapRebuilt s g p t (journalRemaps s g p t)

/-- Deep reads of a group can take one more tile (R51 step 5). -/
def deepReadOpen (s : State) (g : Nat) : Bool :=
  settingB s 0x2130 2 && decide ((groupOf s g).deepReads.length < 64)

/-- REMAP_TILE_REBUILD (R150): from the medium copy, to which the kept Remap records are applied again, here `kept`, the dirty
content with them. A medium copy that gives no tile is read deeply first; where it is poison, or no deep read can be, the
journal's records serve. -/
def remapLost (s : State) (g p t : Nat) (kept : Option Line) : State :=
  let id : TileId := .remap g p t
  match placeOf s id with
  | none => s
  | some pl =>
    let e := takeErased s g pl.addrs
    let d := readTile e.1 id pl 0 e.2
    match d.2 with
    | .good content _ => remapRebuilt d.1 g p t (kept.getD (lineOf (payloadOf content)))
    | .poison _ _ => remapFromJournal d.1 g p t
    | _ =>
      if deepReadOpen d.1 g then
        bumpCodec (modGroup d.1 g (fun x =>
          { x with deepReads := if x.deepReads.contains id then x.deepReads else x.deepReads ++ [id] })) g 0x0A 1
      else remapFromJournal d.1 g p t

/-- What is done about a lost metadata tile, by kind (R148 to R150). -/
def metaLost (s : State) (t : TileId) (kept : Option Line) : State :=
  match t with
  | .counter c =>
    let page := (pageLines s c).headD 0
    counterLost s c 0x2501 (leBytes 1 ((rangeOfCounter s c).getD 0) ++ leBytes 6 (page * 64))
  | .node l n => nodeLost s l n false
  | .remap g p t => remapLost s g p t kept
  | _ => s

/-- PALETTE_PARITY_ERROR (R147): on tile `t`, in one copy or in both. -/
def paletteParity (s : State) (t : TileId) (both : Bool) : State :=
  match paletteFind s (paletteKey t) with
  | none => s
  | some w =>
    let x := palWay s w
    if x.dirty = false ∧ x.back = false then bump (palDrop s w) 0x2510 7 1
    else if both then
      let s := bump (palDrop s w) 0x2510 9 1
      metaLost s t (some x.data)
    else bump s 0x2510 8 1

/-- The failing metadata tile of a fill (R200): a counter tile or a node whose MAC fails. -/
def metaMacFailed (s : State) (t : TileId) : State :=
  let s := bump s 0x2700 7 1
  match t with
  | .counter c => counterLost s c 0x2703 (leBytes 1 ((rangeOfCounter s c).getD 0) ++ leBytes 4 c)
  | .node l n => nodeLost s l n true
  | _ => s

/-- The line becomes dirty with P at place `p` (R200): charged to the device share, or uncharged and selected at once. -/
def poisonDirty (s : State) (line p : Nat) : State :=
  let s := modLine s p (fun x =>
    { x with valid := true, tag := easelTag line, poison := true, dirty := true, fill := false, merge := false,
             data := 0, stamp := s.easel.tick % 16, vk := false })
  if 0 < (easelLine s p).charge then chargeLine s p (easelLine s p).share 1
  else if deviceRoom s 1 ∧ 0 < s.reserve.budget then
    modLine (deviceBook s 1) p (fun x => { x with charge := 1, onDevice := true })
  else destageSelect s 1 0x0B p

/-- MAC_CHECK_FAILURE of a host line (R200, first row): the line is installed dirty with P, in the way it has or one that its set
gives; permanent entry, General Media event, Ledger 0x2701. `place` is a way already taken. With no way to be had, the poison tile
is written at once. -/
def lineCheckFailed (s : State) (line requester : Nat) (version : Bool) (place : Option Nat) : State :=
  let s := bump s 0x2700 (if version then 8 else 7) 1
  let s := if lineDirty s line then s
    else
      match place, easelFind s line with
      | some p, _ => poisonDirty s line p
      | none, some p =>
        poisonDirty (if (easelLine s p).fill then deadenFill s p line (fun _ => true) else s) line p
      | none, none =>
        match easelVictim s (easelSet line) with
        | some p => poisonDirty s line p
        | none => writePoisonTile s line 0
  raise (mediaEvent (poisonPermanent s line) 1 line) 0x2701
    (leBytes 6 (line * 64) ++ leBytes 1 (rangeOf s line) ++ leBytes 1 requester)

/-- Nominates a patch (R57): the rotation engine will remap it. -/
def nominate (s : State) (g column p slot : Nat) : State :=
  let job : RemapJob := { column := column, region := p, slot := slot }
  if (groupOf s g).nominations.contains job then s
  else
    bump (modGroup s g (fun x => { x with nominations := x.nominations ++ [job] })) 0x2121 (8 * g + column + 1) 1

/-- PATCH_NOMINATION (R57): after a good decode, every column at the threshold; after a recovery, the one column alone that was
corrected, and none where there are two or more. -/
def nominateAfter (s : State) (pl : Place) (errors : List Nat) (good recovered : Bool) (threshold : Nat) : State :=
  match pl.slot with
  | none => s
  | some (p, slot) =>
    let per := fun c => (errors.filter (fun i => i % 8 == c)).length
    let hit := (List.range 8).filter (fun c => decide (0 < per c))
    let many := (List.range 8).filter (fun c => decide (threshold ≤ per c))
    let cols := if recovered then (if hit.length = 1 then hit else []) else if good then many else []
    cols.foldl (fun s c => nominate s pl.group c p slot) s

/-- Queues a deep read (R51 step 2); with deep read off or the queue full, the poison tile is written at once and the entry
made permanent (step 5). `t` is the tile, `version` the version known. -/
def deepReadOrPoison (s : State) (g : Nat) (t : TileId) (version : Nat) : State :=
  let poison := fun (s : State) (cause : Nat) =>
    let s := match t with
      | .host line => poisonPermanent (writePoisonTile s line version) line
      | t => match placeOf s t with
        | some pl => bumpCodec (engineProgram s pl (poisonCode s t version)) g 0x0D 1
        | none => s
    raise s 0x2103 (leBytes 8 (addressField t) ++ leBytes 1 cause)
  if settingB s 0x2130 2 = false then poison s 1
  else if (groupOf s g).deepReads.contains t then s
  else if 64 ≤ (groupOf s g).deepReads.length then poison (raise s 0x2105 (leBytes 1 g)) 2
  else bumpCodec (modGroup s g (fun x => { x with deepReads := x.deepReads ++ [t] })) g 0x0A 1

/-- RETRY_LIMIT_REACHED for a host line (R51, R152): Ledger event, and for a host request a General Media event and a
pending entry; a refused entry has its tile written as poison at once. A line that is dirty in the Easel has its tile written anew
by its destage (R53). -/
def lineUnreadable (s : State) (line g retries : Nat) (hostRead : Bool) : State :=
  let s := raise s 0x2101 (leBytes 8 (line * 64) ++ leBytes 1 g ++ leBytes 1 retries)
  if lineDirty s line then (if hostRead then mediaEvent s 0 line else s)
  else
  let r := if hostRead then poisonInsert (mediaEvent s 0 line) line false 0 else (s, true)
  if r.2 then deepReadOrPoison r.1 g (.host line) 0
  else
    let s := poisonPermanent (writePoisonTile r.1 line 0) line
    raise s 0x2103 (leBytes 8 (line * 64) ++ leBytes 1 3)

/-- Charges one corrected word to a row (R105): at the threshold the row is nominated. A bank tracks eight rows; among equal
counts the oldest entry goes. -/
def rowCorrected (s : State) (bank row : Nat) : State :=
  if 6272 ≤ row then s
  else
  let key := 64 * row + bank
  let mine := s.easel.rowOrder.filter (fun k => k % 64 == bank)
  let count := fun (k : Nat) => tabGet dNat s.easel.rowCounts k
  let gone := if mine.contains key || decide (mine.length < 8) then none
    else mine.foldl (fun b k => match b with
      | none => some k
      | some v => if count k < count v then some k else b) none
  let counts := match gone with
    | some k => tabSet dNat s.easel.rowCounts k 0
    | none => s.easel.rowCounts
  let order := match gone with
    | some k => s.easel.rowOrder.erase k
    | none => s.easel.rowOrder
  let counts := tabMod dNat counts key (· + 1)
  { s with easel := { s.easel with
    rowCounts := counts,
    rowOrder := if mine.contains key then order else order ++ [key],
    rowsDue := if forceN s 0x2300 6 ≤ tabGet dNat counts key then rowsWith s.easel.rowsDue bank row else s.easel.rowsDue } }

/-- A corrected word is counted and charged to its row (R103, R105). -/
def wordCorrected (s : State) (bank row : Nat) : State :=
  rowCorrected (bump s 0x2310 0x0D 1) bank row

/-- Nominates a row at once (R105, R106). -/
def rowNominate (s : State) (bank row : Nat) : State :=
  { s with easel := { s.easel with rowsDue := rowsWith s.easel.rowsDue bank row } }

/-- Writes of a line that wait for its destage need wait no more: their bytes were discarded (R95). -/
def releaseDiscarded (s : State) (line : Nat) : State :=
  settleAcks { s with easel := { s.easel with
    acks := s.easel.acks.map (fun a => if a.line = line then { a with destage := false, counter := none } else a) } }

/-- Data of the Easel's line events: DPA, bank, row, way (R452). -/
def placeData (s : State) (p : Nat) : List Byte :=
  leBytes 6 (placeLine s p * 64) ++ leBytes 1 (placeBank p) ++ leBytes 2 (placeRow p) ++ leBytes 1 (p % 16)

/-- EASEL_UNCORRECTABLE_WORD (R103): a clean line is invalidated, and refilled when the scrubber found it (R104); a dirty or
merge-pending line is poisoned. -/
def easelWordLost (s : State) (p : Nat) (scrub : Bool) : State :=
  let x := easelLine s p
  let line := placeLine s p
  let s := rowNominate s (placeBank p) (placeRow p)
  if x.dirty || x.merge then
    let s := poisonPresent s line
    raise (mediaEvent (poisonPermanent (bump s 0x2310 0x0F 1) line) 0 line) 0x2301 (placeData s p)
  else if x.fill || x.flight then s
  else
    let data := placeData s p
    let s := raise (bump (modLine s p (fun _ => {})) 0x2310 0x0E 1) 0x2302 data
    if scrub then issueRead s line 2 0 [] else s

/-- TAG_IDENTITY_LOST (R106): V is part of the lost word, so an invalid way takes the same steps. -/
def tagIdentityLost (s : State) (p : Nat) : State :=
  let x := easelLine s p
  let line := placeLine s p
  let s := chargeLine s p x.share 0
  let s := destageRemove (if x.fill then deadenFill s p line (fun _ => true) else s) p
  let s := setMerge (modLine s p (fun _ => {})) p 0#64
  let s := rowNominate (if x.valid && !x.flight then releaseDiscarded s line else s) (placeBank p) (placeRow p)
  let s := raise (bump s 0x2310 0x11 1) 0x2303 (leBytes 1 (placeBank p) ++ leBytes 2 (placeRow p) ++ leBytes 1 (p % 16))
  moduleEvent s 2 1

/-- The primary tag word of a way is uncorrectable (R103, R105): the mirror serves and the primary is rewritten; where the mirror
is uncorrectable too, the line's identity is lost. -/
def tagPrimaryLost (s : State) (p : Nat) : State :=
  if tabGet dBool s.easel.mirrorBad p then tagIdentityLost s p
  else rowNominate (bump s 0x2310 0x10 1) (placeBank p) (placeRow p)

/-- The mirror tag word of a way has become uncorrectable: its next update or scrub makes it good (R103). -/
def tagMirrorLost (s : State) (p : Nat) : State :=
  { s with easel := { s.easel with mirrorBad := tabSet dBool s.easel.mirrorBad p true } }

/-- The physical region a line lies in, for the region fence of R67. -/
def lineRegion (s : State) (line : Nat) : Option (Nat × Nat) :=
  match tileIndex s (.host line) with
  | some (g, idx) => (placeIdx s g idx).map (fun x => (g, x.1))
  | none => none

/-- An uncorrectable region state entry fences the region until the next Priming (R67): the writes to it that wait complete. -/
def regionEntryLost (s : State) (g p : Nat) : State :=
  if regionFenced s g p then s
  else
    let mine := fun (line : Nat) => lineRegion s line == some (g, p)
    let s := modGroup s g (fun x => { x with regionFences := tabSet dBool x.regionFences p true })
    let s := settleAcks { s with easel := { s.easel with acks := s.easel.acks.map (fun a =>
      if mine a.line then { a with destage := false, counter := none } else a) } }
    raise (completeHeld s mine) 0x2207 (leBytes 1 g ++ leBytes 2 p)

/-- A parity error clears a poison-list bucket; each queued deep read inserts its pending entry again (R152). -/
def poisonCleared (s : State) (b : Nat) : State :=
  let old := (bucketOf s b).filter (fun e => !e.permanent)
  let s := bump (poisonOverflow (setBucket s b [])) 0x2510 0x0C 1
  let s := raise s 0x2505 (leBytes 2 b)
  let queued := (List.range 8).flatMap (fun g => (groupOf s g).deepReads)
  (old.filter (fun e => queued.contains (.host e.line))).foldl (fun s e => (poisonInsert s e.line false e.source).1) s

/-- Tile `level` of a line's tree path: 0 its counter tile, 1 to 4 the nodes above it. -/
def pathTile (s : State) (line level : Nat) : TileId :=
  (treePath s line).getD level (.counter (counterIndex s line))

/-- A soft error met at the Easel bank, the Palette or the mapper while a request to `line` is served. -/
def applyUpset (s : State) (line : Nat) : Upset → State
  | .none => s
  | .easelWord =>
    let p := (easelFind s line).getD (16 * easelSet line)
    wordCorrected s (placeBank p) (placeRow p)
  | .easelWordLost =>
    match easelFind s line with
    | some p => easelWordLost s p false
    | none => s
  | .tagPrimary way => tagPrimaryLost s (16 * easelSet line + way.val)
  | .tagMirror way => tagMirrorLost s (16 * easelSet line + way.val)
  | .tagLost way => tagIdentityLost s (16 * easelSet line + way.val)
  | .palette level => if sealedLine s line then paletteParity s (pathTile s line level.val) false else s
  | .paletteBoth level => if sealedLine s line then paletteParity s (pathTile s line level.val) true else s
  | .paletteReplacement remap =>
    let t : Option TileId := if remap then
        (match linePlace s line with
         | some pl => pl.slot.map (fun x => .remap pl.group x.1 (x.2 % 16))
         | none => none)
      else if sealedLine s line then some (.counter (counterIndex s line)) else none
    match t with
    | some t => { s with palette := { s.palette with plru := tabSet dNat s.palette.plru (paletteSet (paletteKey t)) 0 } }
    | none => s
  | .remapTile both =>
    match linePlace s line with
    | some pl =>
      match pl.slot with
      | some (p, slot) => paletteParity s (.remap pl.group p (slot % 16)) both
      | none => s
    | none => s
  | .regionEntry =>
    match linePlace s line with
    | some pl =>
      match pl.slot with
      | some (p, _) => regionEntryLost s pl.group p
      | none => s
    | none => s
  | .replacement =>
    { s with easel := { s.easel with plru := tabSet dNat s.easel.plru (easelSet line) 0 } }
  | .poisonBucket => poisonCleared s (poisonBucket line)
  | .directoryBit => bump s 0x2B40 4 1
  | .directoryLost _ => s

end Sys2Proof.Machine
end

