-- ==== Sys2Proof/Machine/Refs.lean ====
section
/-! DEFINITION. Machine/Refs.lean: age, buckets and read-reference codes (R210 to R215, R228). A code list holds one code per
column. -/

namespace Sys2Proof.Machine

/-- What an unlisted drift entry is. -/
def dDrift : Nat → DriftRec := fun _ => {}

/-- Drift entry of a physical region. -/
def driftOf (s : State) (g p : Nat) : DriftRec :=
  tabGet dDrift (groupOf s g).drift p

/-- Age in epochs of an epoch field (R210). -/
def ageOf (s : State) (field : Nat) : Nat :=
  (s.path.epoch % 256 + 256 - field % 256) % 256

/-- Bucket of an age (R210). -/
def bucketFor (age : Nat) : Nat :=
  if age = 0 then 0 else if age = 1 then 1 else if age < 4 then 2 else if age < 8 then 3 else if age < 16 then 4
  else if age < 32 then 5 else if age < 64 then 6 else 7

/-- Base code B[b] (R211, [2820]). -/
def baseCode (s : State) (b : Nat) : Int :=
  stat s 0x2820 (b + 1)

/-- Extended curve X[k] ([2820]). -/
def curveCode (s : State) (k : Nat) : Int :=
  stat s 0x2820 (0x0A + k)

/-- T_c in °C: the stack's, or the highest die sensor (R211). -/
def columnTemp (s : State) (g c : Nat) : Int :=
  match (channelOf s (8 * g + c)).temp with
  | some t => t
  | none => budgetTemp s / 10

/-- tshift(T) = −floor((T − 40 + S/2) / S) (R211). -/
def tshift (s : State) (t : Int) : Int :=
  let st := stat s 0x2820 9
  Int.neg ((2 * (t - 40) + st) / (2 * st))

/-- Clamps a code to 0–63. -/
def clampCode (v : Int) : Nat :=
  if v < 0 then 0 else if 63 < v then 63 else v.toNat

/-- off of R211: the region's measured offset while MV is set and ST clear; 0 for anchors. -/
def regionOff (s : State) (g : Nat) (p : Option Nat) : Int :=
  match p with
  | some p =>
    let d := driftOf s g p
    if d.mv && !d.st then (d.centre : Int) - baseCode s d.bucket else 0
  | none => 0

/-- Both filter bits of a position stand in a filter (R212). -/
def filterHit (f : Tab Bool) (at0 : Nat × Nat) : Bool :=
  let b := filterBits at0.1 at0.2
  tabGet dBool f b.1 && tabGet dBool f b.2

/-- Predicted bucket of a first read (R212). -/
def predictedBucket (s : State) (pl : Place) : Nat :=
  let x := groupOf s pl.group
  if filterHit x.filterCur pl.filter then 0
  else if filterHit x.filterPrev pl.filter then 1
  else
    match pl.slot with
    | some (p, _) =>
      let b := bucketFor (ageOf s (driftOf s pl.group p).visit)
      if 2 ≤ b then (2 + b) / 2 else b
    | none => 7

/-- The codes of a bucket at a place (R211). -/
def bucketCodes (s : State) (pl : Place) (b : Nat) (off : Int) : List Nat :=
  (List.range 8).map (fun c => clampCode (baseCode s b + off + tshift s (columnTemp s pl.group c)))

/-- Codes moved by d, clamped (R214). -/
def shiftCodes (codes : List Nat) (d : Int) : List Nat :=
  codes.map (fun (c : Nat) => clampCode ((c : Int) + d))

/-- The place's region is stale (R227). -/
def staleRegion (s : State) (pl : Place) : Bool :=
  match pl.slot with
  | some (p, _) => (driftOf s pl.group p).st
  | none => false

/-- c_pre of R228. -/
def preCodes (s : State) (pl : Place) : List Nat :=
  let centre : Int := match pl.slot with
    | some (p, _) => (driftOf s pl.group p).centre
    | none => 0
  (List.range 8).map (fun c => clampCode (centre + tshift s (columnTemp s pl.group c)))

/-- c_post of R228. -/
def postCodes (s : State) (pl : Place) : List Nat :=
  bucketCodes s pl (predictedBucket s pl) 0

/-- The position hits a filter: written since resume (R228). -/
def writtenSince (s : State) (pl : Place) : Bool :=
  filterHit (groupOf s pl.group).filterCur pl.filter || filterHit (groupOf s pl.group).filterPrev pl.filter

/-- Codes of the first read of a tile (R211, R228). -/
def firstCodes (s : State) (pl : Place) : List Nat :=
  if staleRegion s pl then (if writtenSince s pl then postCodes s pl else preCodes s pl)
  else bucketCodes s pl (predictedBucket s pl) (regionOff s pl.group (pl.slot.map (·.1)))

/-- Codes of retry `n` (1 or 2), where `first` are those of the first read and `bucket` is what a corrected and refused content
gave (R214, R228). -/
def retryCodes (s : State) (pl : Place) (first : List Nat) (n : Nat) (bucket : Option Nat) : List Nat :=
  let step : Int := settingN s 0x2800 3
  if staleRegion s pl then
    if n = 1 then (if writtenSince s pl then preCodes s pl else postCodes s pl) else shiftCodes first step
  else
    match bucket with
    | some b =>
      let codes := bucketCodes s pl b (regionOff s pl.group (pl.slot.map (·.1)))
      if n = 1 then codes else shiftCodes codes step
    | none => if n = 1 then shiftCodes first step else shiftCodes first (-step)

/-- The bucket that a corrected and refused content gives, when it is not the one read at (R214). -/
def contentBucket (s : State) (pl : Place) (content : List Byte) : Option Nat :=
  if content = [] then none
  else
    let b := bucketFor (ageOf s (numAt content 79 1))
    if b = predictedBucket s pl then none else some b

/-- The run of 16 codes of a deep read centred on m (R215). -/
def deepRun (m : Int) : List Nat :=
  let lo := if m - 8 < 0 then 0 else if 48 < m - 8 then 48 else (m - 8).toNat
  (List.range 16).map (lo + ·)

/-- Delta_e of R212: 255 after a reset of the always-on domain. -/
def primingAge (s : State) : Nat :=
  if s.path.epochResume || s.path.offSource == 2 then 255 else (s.path.epoch - s.path.epochShutdown) % 256

/-- Code `k` of the sweep by which Priming reads an anchor or journal tile, by column (R212, R215). -/
def sweepCodes (s : State) (g k : Nat) : List Nat :=
  (List.range 8).map (fun c =>
    (deepRun (baseCode s (bucketFor (primingAge s)) + tshift s (columnTemp s g c))).getD k 0)

end Sys2Proof.Machine
end

