-- ==== Sys2Proof/Machine/Paths.lean ====
section
/-! DEFINITION. Machine/Paths.lean: reads (R48 to R54, R157 to R161, R167 to R169, R175, R192, R200, R204): a read at its
Easel bank, the arrival of a tile with its retries, the check of a sealed line against its counter, the install of a fill,
and the Palette's fills (R141, R146, R148, R160, R192). -/

namespace Sys2Proof.Machine

/-- Accesses to the line reach no medium: a group, region or span fence, a range that hosts may not use, or, under the
ephemeral key, a line beyond the scratch area (R31, R67, R149, R167, R181, R207, R379). -/
def lineFenced (s : State) (line : Nat) : Bool :=
  if ephemeralState s then (scratchPlace s line).isNone || (groupOf s (lineGroup s line)).fenced
  else
    let x := rangeRec s (rangeOf s line)
    !(x.state == 2 || x.state == 3) || x.held || (groupOf s (lineGroup s line)).fenced
      || (sealedLine s line && spanFenced s line)
      || (match lineRegion s line with
          | some (g, p) => regionFenced s g p
          | none => true)

/-- Lets reads wait for their line. -/
def waitRead (s : State) (w : ReadWait) : State :=
  { s with easel := { s.easel with waits := s.easel.waits ++ [w] } }

/-- The plaintext a Glaze unit in flight holds for a line, with the version its tile is to carry (R204). -/
def boundaryLine (s : State) (line : Nat) : Option (Line × Nat) :=
  s.crypt.glaze.units.findSome? (fun u =>
    (u.plain.find? (fun e => e.1 == line)).map (fun e =>
      (e.2, match u.codes.find? (fun c => c.1 == line) with
        | some c => versionOf c.2
        | none => 0)))

/-- The miss part of a read (R157 steps 4 and 5, R53, R158, R204). -/
def missRead (s : State) (w : ReadWait) : State :=
  let line := w.line
  let s := perfCount (bump s 0x2310 2 1) (requesterPort s w.who) 6 1
  let s := match linePlace s line with
    | some _ => stamp s w.who 2
    | none => s
  match poisonEntry s line with
  | some e => if e.permanent = false then deliverRead s w 0 true else go s line
  | none => go s line
where
  /-- allocation, or the bypass read -/
  go (s : State) (line : Nat) : State :=
    match boundaryLine s line with
    | some (data, version) =>
      let s := bump s 0x2780 9 1
      let s := match easelVictim s (easelSet line) with
        | some p => easelTouch (modLine s p (fun _ =>
            { tag := easelTag line, valid := true, vk := true, version := version, data := data })) p true
        | none => s
      deliverRead s w data false
    | none =>
      match s.easel.reads.find? (fun e => e.2.kind == 1 && e.2.line == line && !e.2.dead && !e.2.closed) with
      | some (n, _) =>
        { s with easel := { s.easel with reads := tabMod dRead s.easel.reads n (fun r =>
            { r with readers := r.readers ++ [{ w with bypass := true }] }) } }
      | none =>
        let s := lookupRemap (lookupPath s line) line
        match easelVictim s (easelSet line) with
        | some p =>
          waitRead (issueRead (modLine s p (fun _ => { tag := easelTag line, valid := true, fill := true })) line 0 p []) w
        | none => issueRead (bump s 0x2600 9 1) line 1 0 [{ w with bypass := true }]

/-- A fill issued beside a snoop round, before any read may take its data (R161). -/
def prefetch (s : State) (line : Nat) : State :=
  if lineFenced s line || (easelFind s line).isSome || (poisonEntry s line).isSome then s
  else
    match easelVictim s (easelSet line) with
    | some p =>
      let s := lookupRemap (lookupPath s line) line
      issueRead (modLine s p (fun _ => { tag := easelTag line, valid := true, fill := true })) line 0 p []
    | none => s

/-- A read at its bank (R157, R167, R168, R169, R175). A read that waits for a fill takes with it what the writes before
it have put into the line. -/
def bankRead (s : State) (w : ReadWait) : State :=
  let s := stamp s w.who 1
  if lineFenced s w.line then deliverRead s w 0 true
  else if heldBefore s w.line w.seq then waitRead s w
  else
    match easelFind s w.line with
    | none => missRead s w
    | some p =>
      let x := easelLine s p
      if x.poison then deliverRead (perfCount s (requesterPort s w.who) 5 1) w 0 true
      else if x.merge || x.fill then
        waitRead s { w with overMask := if x.merge then mergeMask s p else 0, overData := x.data }
      else
        let s := perfCount (flagSample (bump s 0x2310 1 1) w.who 16) (requesterPort s w.who) 5 1
        deliverRead (easelTouch s p true) w x.data false

/-- Runs again the reads that a held write, now taken in, stood before (R175). -/
def rerunReads (before s : State) (line : Nat) : State :=
  let mine := fun (w : ReadWait) => w.line == line && heldBefore before line w.seq && !heldBefore s line w.seq
  let ws := s.easel.waits.filter mine
  ws.foldl bankRead { s with easel := { s.easel with waits := s.easel.waits.filter (fun w => !mine w) } }

/-- Delivers a line to reads, each under the bytes written before it (R157 step 8, R169). -/
def deliverAll (s : State) (ws : List ReadWait) (data : Line) (poison : Bool) : State :=
  ws.foldl (fun s w => deliverRead (stamp s w.who 6) w (mergeLine data w.overData w.overMask) poison) s

/-- Delivers the waiting reads of a line, but for those behind a held write. -/
def deliverWaits (s : State) (line : Nat) (data : Line) (poison : Bool) : State :=
  let mine := fun (w : ReadWait) => w.line == line && !heldBefore s line w.seq
  let ws := s.easel.waits.filter mine
  deliverAll { s with easel := { s.easel with waits := s.easel.waits.filter (fun w => !mine w) } } ws data poison

/-- Partial writes that waited for a merge entry try again (R96). -/
def retryMerges (s : State) : State :=
  if s.easel.mergeWait = [] ∨ 8192 ≤ mergesInUse s then s
  else
    s.easel.mergeWait.foldl (fun s' w => rerunReads s (bankWrite s' w) w.line)
      { s with easel := { s.easel with mergeWait := [] } }

/-- The fill's content enters the line at `p` (R95, R157 step 8); the reads that waited are served. -/
def installFill (s : State) (p line version : Nat) (data : Line) (poison : Bool) : State :=
  let x := easelLine s p
  let last := match s.easel.waits.find? (fun w => w.line == line) with
    | some w => match w.who with
      | .barrow _ _ _ => false
      | _ => true
    | none => true
  if x.merge then
    let mask := mergeMask s p
    let s := setMerge s p 0#64
    if poison then
      let s := destageRemove (chargeLine s p x.share 0) p
      let s := modLine s p (fun x =>
        { x with poison := true, dirty := false, merge := false, fill := false, data := 0, version := version, vk := true })
      retryMerges (releaseDiscarded (deliverWaits s line 0 true) line)
    else
      let s := if 1 < x.charge then chargeLine s p x.share 1 else s
      let s := modLine s p (fun x =>
        { x with merge := false, fill := false, data := mergeLine data x.data mask, version := version, vk := true })
      retryMerges (deliverWaits s line data false)
  else
    let s := modLine s p (fun x =>
      { x with poison := poison, fill := false, data := if poison then 0 else data, version := version, vk := true })
    deliverWaits (easelTouch s p last) line data poison

/-- The line of a live fill still waits for it. -/
def fillLive (s : State) (r : ReadRec) : Bool :=
  let x := easelLine s r.place
  x.valid && x.fill && x.tag == easelTag r.line && easelSet r.line == r.place / 16

/-- Ends a read with its content (R40, R157, R158, R104, R492). -/
def completeRead (s : State) (n version : Nat) (data : Line) (poison : Bool) : State :=
  let r := tabGet dRead s.easel.reads n
  let s := { s with easel := { s.easel with reads := tabDel s.easel.reads n } }
  if r.kind = 0 && !r.dead then
    if fillLive s r then installFill s r.place r.line version data poison else s
  else if r.kind = 2 then
    match easelFind s r.line with
    | some p => if (easelLine s p).fill then installFill s p r.line version data poison else s
    | none =>
      match easelVictim s (easelSet r.line) with
      | some p => easelTouch (modLine s p (fun _ =>
          { tag := easelTag r.line, valid := true, poison := poison, vk := true, version := version,
            data := if poison then 0 else data })) p true
      | none => s
  else deliverAll s r.readers data poison

/-- A read's content fails its MAC or version check (R200). -/
def readRefused (s : State) (n : Nat) (version : Bool) : State :=
  let r := tabGet dRead s.easel.reads n
  let waiting := if r.kind = 0 && !r.dead then s.easel.waits.filter (fun w => w.line == r.line) else r.readers
  let who := match waiting with
    | w :: _ => requesterByte w.who
    | [] => 4
  let s := { s with easel := { s.easel with reads := tabDel s.easel.reads n } }
  if r.kind = 0 && !r.dead then
    if fillLive s r then
      let x := easelLine s r.place
      if x.merge then
        let s := setMerge (bump s 0x2700 (if version then 8 else 7) 1) r.place 0#64
        let s := if 1 < x.charge then chargeLine s r.place x.share 1 else s
        let s := modLine s r.place (fun x =>
          { x with poison := true, dirty := true, merge := false, fill := false, data := 0 })
        let s := raise (mediaEvent (poisonPermanent s r.line) 1 r.line) 0x2702 (leBytes 6 (r.line * 64) ++ leBytes 1 x.share)
        retryMerges (deliverWaits s r.line 0 true)
      else deliverWaits (lineCheckFailed s r.line who version (some r.place)) r.line 0 true
    else s
  else
    let s := lineCheckFailed s r.line who version none
    deliverAll s r.readers 0 true

/-- RETRY_LIMIT_REACHED for a read (R51, R95). -/
def readUnreadable (s : State) (n : Nat) : State :=
  let r := tabGet dRead s.easel.reads n
  let g := lineGroup s r.line
  let isHost := fun (w : ReadWait) => match w.who with
    | .host _ _ => true
    | _ => false
  let s := { s with easel := { s.easel with reads := tabDel s.easel.reads n } }
  if r.kind = 0 && !r.dead then
    if fillLive s r then
      let x := easelLine s r.place
      let ws := s.easel.waits.filter (fun w => w.line == r.line)
      if x.merge then
        let s := setMerge s r.place 0#64
        let s := if 1 < x.charge then chargeLine s r.place x.share 1 else s
        let s := modLine s r.place (fun x =>
          { x with poison := true, dirty := true, merge := false, fill := false, data := 0 })
        let s := raise s 0x2101 (leBytes 8 (r.line * 64) ++ leBytes 1 g ++ leBytes 1 r.retries)
        let s := raise (poisonPermanent (mediaEvent s 0 r.line) r.line) 0x2307 (leBytes 6 (r.line * 64) ++ leBytes 1 g)
        retryMerges (deliverWaits s r.line 0 true)
      else
        let s := lineUnreadable (modLine s r.place (fun _ => {})) r.line g r.retries (ws.any isHost)
        deliverWaits s r.line 0 true
    else s
  else deliverAll (lineUnreadable s r.line g r.retries (r.readers.any isHost)) r.readers 0 true

/-- The retry limit and the nomination threshold a read takes when it begins to decode (R58). -/
def latchNow (s : State) : Nat × Nat :=
  (settingN s 0x2130 1, settingN s 0x2130 3)

/-- Changes read `n`. -/
def modRead (s : State) (n : Nat) (f : ReadRec → ReadRec) : State :=
  { s with easel := { s.easel with reads := tabMod dRead s.easel.reads n f } }

/-- What a read takes with it when its frames go out or its patches arrive: its limits (R58) and the codes of its first read
(R211). -/
def beginRead (s : State) (n : Nat) (pl : Place) : State :=
  modRead s n (fun r =>
    let codes := if r.base = [] then firstCodes s pl else r.base
    { r with latch := some (r.latch.getD (latchNow s)), base := codes, codes := if r.codes = [] then codes else r.codes })

/-- Requesters that wait for a read. -/
def readersOf (s : State) (r : ReadRec) : List ReadWait :=
  if r.kind = 0 && !r.dead then s.easel.waits.filter (fun w => w.line == r.line) else r.readers

/-- Records a suspected misdirected read (R49, R56). -/
def misdirectedEvent (s : State) (t : TileId) (pl : Place) : State :=
  raise (bumpCodec s pl.group 9 1) 0x2104
    (leBytes 8 (addressField t) ++ leBytes 1 pl.group ++ leBytes 2 ((pl.slot.map (·.1)).getD 0))

/-- Counts one re-read (R56). -/
def retryIssued (s : State) (g : Nat) : State :=
  perfCount (bumpCodec s g 6 1) (4 + g) 0x12 1

/-- A decode that failed, or a suspected misdirected read: a retry, or the end of them (R50 to R52, R160, R214). -/
def readFailed (s : State) (n : Nat) (pl : Place) (content : List Byte) (misdirected : Bool) : State :=
  let r := tabGet dRead s.easel.reads n
  let g := pl.group
  let limit := (r.latch.getD (latchNow s)).1
  let s := if misdirected then misdirectedEvent s (.host r.line) pl
    else if r.retries = 0 then bumpCodec s g 5 1 else s
  if r.retries + r.spent < limit ∧ (misdirected = false ∨ r.misdirected = false) then
    let bucket := if r.retries = 0 then contentBucket s pl content else r.bucket
    let codes := if misdirected then r.base else retryCodes s pl r.base (r.retries + 1) bucket
    let s := (readersOf s r).foldl (fun s w => modTag s w.who (fun t => { t with retries := min 7 (r.retries + 1) })) (retryIssued s g)
    modRead s n (fun r =>
      { r with retries := r.retries + 1, misdirected := r.misdirected || misdirected, granted := false,
               failed := r.failed || !misdirected, codes := codes, bucket := bucket })
  else readUnreadable s n

/-- Checks the content of a read against key and counter (R157 step 7, R159, R192); a sealed line whose counter the Palette
lacks keeps its content until the counter is verified. -/
def verifyRead (s : State) (n : Nat) (content : List Byte) : State :=
  let r := tabGet dRead s.easel.reads n
  if sealedLine s r.line && (paletteData s (.counter (counterIndex s r.line))).isNone then
    lookupPath (modRead s n (fun r => { r with content := content })) r.line
  else
    match checkLine s r.line content with
    | .ok d => completeRead s n (versionOf content) d false
    | .badMac => readRefused s n false
    | .badVersion => readRefused s n true
    | .noCounter => s

/-- The patches of a read are in and decoded at place `pl` (R48 to R52, R57). -/
def readArrived (s : State) (n : Nat) (pl : Place) (err : Codeword) (xfer : Byte) : State :=
  let e := takeErased (beginRead s n pl) pl.group pl.addrs
  let r := tabGet dRead e.1.easel.reads n
  let s := (readersOf s r).foldl (fun s w => stamp (stamp s w.who 4) w.who 5) e.1
  let d := readTile s (.host r.line) pl err (maskColumns xfer ++ e.2)
  let threshold := (r.latch.getD (latchNow s)).2
  let recovered := fun (s : State) => if r.failed then bumpCodec s pl.group 7 1 else s
  match d.2 with
  | .good content errors => verifyRead (nominateAfter (recovered d.1) pl errors true r.failed threshold) n content
  | .poison content errors =>
    completeRead (poisonPermanent (nominateAfter (recovered d.1) pl errors false r.failed threshold) r.line) n (versionOf content) 0 true
  | .misdirected => readFailed d.1 n pl [] true
  | .failed content => readFailed d.1 n pl content false

/-- TILE_READ_ARRIVAL (R48, R157): the patches of read `read` are in, disturbed by `err`, with the columns of `xfer` failed. A read
of a fenced place returns poison (R31, R67); one of a group in deep sleep (R19), or whose remap table tile is not there yet (R82),
waits. -/
def execTileReadArrival (read : BitVec 32) (err : Codeword) (xfer : Byte) (s : State) :
    Host.Outcome State Fault Refusal :=
  let n := read.toNat
  let r := tabGet dRead s.easel.reads n
  if r.kind = 9 ∨ r.content ≠ [] then .next s
  else
    match linePlace s r.line with
    | none => .next (readUnreadable s n)
    | some pl =>
      .next (if placeFenced s pl then completeRead s n 0 0 true
        else if groupAwake s pl.group = false then s
        else if remapReady s pl = false then askRemap s 0 pl
        else readArrived s n pl err xfer)

/-- Verifies again every read that waits for its counter (R159). -/
def retrySealed (s : State) : State :=
  (s.easel.reads.filter (fun e => e.2.content ≠ [])).foldl (fun s e => verifyRead s e.1 e.2.content) s

/-- Reads whose counter path holds tile `t`, or whose region's remap table tile it is (R160). -/
def readsBehind (s : State) (t : TileId) : List Nat :=
  (s.easel.reads.filter (fun e =>
    match t with
    | .remap g p i =>
      (match linePlace s e.2.line with
       | some pl => pl.group == g && (match pl.slot with
          | some (q, slot) => q == p && slot % 16 == i
          | none => false)
       | none => false)
    | _ => sealedLine s e.2.line && (treePath s e.2.line).contains t)).map (·.1)

/-- Retries that a remap table tile's fill took are taken from the limit of what is fetched behind it: the reads of its region, and
the fills of metadata tiles there (R160). -/
def spendSeries (s : State) (t : TileId) (retries : Nat) : State :=
  let s := (readsBehind s t).foldl (fun s n => modRead s n (fun r => { r with spent := r.spent + retries })) s
  s.palette.misses.foldl (fun s e =>
    match e.2, t with
    | some m, .remap g p i =>
      (match placeOf s (tileOfKey m.key) with
       | some pl => if pl.group = g ∧ (pl.slot.elim false (fun x => x.1 == p && x.2 % 16 == i && decide (x.2 < 1048581))) then
           setMiss s e.1 (some { m with spent := m.spent + retries }) else s
       | none => s)
    | _, _ => s) s

/-- A fill under the invalid mark has come, whatever it brought (R146): its way holds no valid line, and every requester merged into
its register looks up anew. -/
def markedFill (s : State) (n : Nat) (m : MissReg) : State :=
  let s := modWay (bump (setMiss s n none) 0x2510 0x0A 1) m.place (fun _ => {})
  (List.range (m.seconds + 1)).foldl (fun s _ => (palLookup s m.cls (tileOfKey m.key)).1) s

/-- Ends a Palette fill with good content (R141, R146, R192): installed, installed invalid under the mark, or kept until
its parent is there. -/
def settleFill (s : State) (n : Nat) (m : MissReg) (content : List Byte) : State :=
  let t := tileOfKey m.key
  let data := lineOf (payloadOf content)
  if m.marked then markedFill s n m
  else
    match t with
    | .remap _ _ _ => palInstallClean (spendSeries (setMiss s n none) t m.retries) m.place t data m.cls
    | _ =>
      match parentReady s t with
      | none => (palLookup (setMiss s n (some { m with content := content })) 0 ((parentOf t).1.getD t)).1
      | some (major, minor) =>
        let s := setMiss s n none
        if metaVerifies s t content major minor then palInstallClean s m.place t data m.cls else metaMacFailed s t

/-- Verifies the fills that waited for a parent, from the root down. -/
def cascade : Nat → State → State
  | 0, s => s
  | fuel + 1, s =>
    let ready := s.palette.misses.filterMap (fun e =>
      match e.2 with
      | some m => if m.content ≠ [] ∧ (parentReady s (tileOfKey m.key)).isSome then some (e.1, m) else none
      | none => none)
    if ready = [] then s else cascade fuel (ready.foldl (fun s e => settleFill s e.1 e.2 e.2.content) s)

/-- A metadata tile is unreadable after its retries (R51, R148 to R150, R160): the reads behind it return poison, and it is read
deeply; where no deep read can be, it is lost at once. -/
def metaUnreadable (s : State) (t : TileId) (g retries : Nat) : State :=
  let s := raise s 0x2101 (leBytes 8 (addressField t) ++ leBytes 1 g ++ leBytes 1 retries)
  let s := (readsBehind s t).foldl readUnreadable s
  let deep := deepReadOpen s g
  let s := deepReadOrPoison s g t 0
  if deep then s else metaLost s t none

/-- A fill's decode failed, or it is suspected misdirected (R50 to R52, R160, R214): a retry, or the end of them. -/
def fillFailed (s : State) (n : Nat) (m : MissReg) (pl : Place) (content : List Byte) (misdirected : Bool) : State :=
  let t := tileOfKey m.key
  let s := if misdirected then misdirectedEvent s t pl else if m.retries = 0 then bumpCodec s pl.group 5 1 else s
  if m.retries + m.spent < (m.latch.getD (latchNow s)).1 ∧ (misdirected = false ∨ m.misdirected = false) then
    let bucket := if m.retries = 0 then contentBucket s pl content else m.bucket
    let codes := if misdirected then m.base else retryCodes s pl m.base (m.retries + 1) bucket
    setMiss (retryIssued s pl.group) n (some { m with
      retries := m.retries + 1, misdirected := m.misdirected || misdirected, failed := m.failed || !misdirected, granted := false,
      codes := codes, bucket := bucket })
  else if m.marked then markedFill s n m
  else metaUnreadable (setMiss s n none) t pl.group m.retries

/-- What a fill takes with it when its frames go out or its patches arrive (R58, R211). -/
def beginFill (s : State) (m : MissReg) (pl : Place) : MissReg :=
  let codes := if m.base = [] then firstCodes s pl else m.base
  { m with latch := some (m.latch.getD (latchNow s)), base := codes, codes := if m.codes = [] then codes else m.codes }

/-- The patches of a fill are in and decoded at place `pl` (R48 to R52, R57, R146). -/
def fillArrived (s : State) (n : Nat) (m : MissReg) (pl : Place) (err : Codeword) (xfer : Byte) : State :=
  let t := tileOfKey m.key
  let m := beginFill s m pl
  let e := takeErased (setMiss s n (some m)) pl.group pl.addrs
  let d := readTile e.1 t pl err (maskColumns xfer ++ e.2)
  let s := d.1
  let recovered := fun (s : State) => if m.failed then bumpCodec s pl.group 7 1 else s
  match d.2 with
  | .good content errors =>
    settleFill (nominateAfter (recovered s) pl errors true m.failed ((m.latch.getD (latchNow s)).2)) n m content
  | .poison _ errors =>
    let s := nominateAfter (recovered s) pl errors false m.failed ((m.latch.getD (latchNow s)).2)
    if m.marked then markedFill s n m
    else metaLost ((readsBehind s t).foldl readUnreadable (setMiss s n none)) t none
  | .misdirected => fillFailed s n m pl [] true
  | .failed content => fillFailed s n m pl content false

/-- PALETTE_FILL (R146): the fill of miss register `register` arrives. Reads behind a tile of a fenced place return poison (R31,
R67); a fill from a group in deep sleep (R19), or whose remap table tile is not there yet (R82), waits. What waited at the
Palette goes on. -/
def execPaletteFill (register : Fin 64) (err : Codeword) (xfer : Byte) (s : State) : Host.Outcome State Fault Refusal :=
  let n := register.val
  match missReg s n with
  | none => .next s
  | some m =>
    if m.content ≠ [] then .next s
    else
      match placeOf s (tileOfKey m.key) with
      | none => .next (setMiss s n none)
      | some pl =>
        if placeFenced s pl then
          .next ((readsBehind s (tileOfKey m.key)).foldl (fun s r => completeRead s r 0 0 true) (setMiss s n none))
        else if groupAwake s pl.group = false then .next s
        else if remapReady s pl = false then .next (askRemap s m.cls pl)
        else .next (retrySealed (settlePalette (cascade 8 (fillArrived s n m pl err xfer))))

end Sys2Proof.Machine
end

