-- ==== Sys2Proof/Machine/Serve.lean ====
section
/-! DEFINITION. Machine/Serve.lean: how the management sequencer serves one request (R434): the session it belongs to
(R430), the checks in the order of R450, the reject record and the request counts (R433), and the answer on the
request's path. The effect of an accepted write is an argument, so that each command with a row of its own gives its
own. -/

namespace Sys2Proof.Machine

/-- Path number of R429: P0 to P3, CAN 4, I3C 5. -/
def pathOf : Via → Nat
  | .mailbox p => p.val
  | .can _ => 4
  | .i3c _ => 5

/-- The low byte of SessionInfo: node-ID or session field (R446). -/
def clientByte : Via → Nat
  | .mailbox _ => 0
  | .can n => n.toNat
  | .i3c f => f.val

/-- Whether a request can arrive on a path now: the port's link is up; the CAN node is enabled, not bus-off and in an
NMT state that serves USDO (R436); the I3C target is enabled and holds a dynamic address (R430). -/
def pathOpen (s : State) : Via → Bool
  | .mailbox p => decide (2 ≤ (portOf s p.val).link ∧ (portOf s p.val).link ≤ 4)
  | .can _ => canUp s && emcyStates s
  | .i3c _ => settingB s 0x2002 1 && s.mgmt.dynamicAddress != 0

/-- Binds a free session to a client: Observer level, empty staging set, per-session objects 0 (R427, R430). -/
def bindTo (s : State) (n : Nat) (via : Via) : State :=
  modSession s n (fun _ => { client := some via })

/-- The CAN session bound to a node-ID, if any. -/
def canSession? (s : State) (via : Via) : Option Nat :=
  (List.range 8).map (· + 4) |>.find? (fun n => (sessionOf s n).client == some via)

/-- SESSION_BIND (R430): the session of a request, binding one at the first request; none when no CAN session is free. -/
def sessionFor (s : State) (via : Via) : Option (Nat × State) :=
  match via with
  | .mailbox p => if (sessionOf s p.val).client = some via then some (p.val, s) else some (p.val, bindTo s p.val via)
  | .can _ =>
    match canSession? s via with
    | some n => some (n, s)
    | none =>
      match (List.range 8).map (· + 4) |>.find? (fun n => (sessionOf s n).client == none) with
      | some n => some (n, bindTo s n via)
      | none => none
  | .i3c f =>
    if (sessionOf s (12 + f.val)).client = some via then some (12 + f.val, s)
    else some (12 + f.val, bindTo s (12 + f.val) via)

/-- Releases a session: everything it holds returns to the free session (R430). -/
def releaseSession (s : State) (n : Nat) : State :=
  modSession s n (fun _ => {})

/-- Releases the sessions `lo`, …, `lo + k - 1`. -/
def releaseSessions (s : State) (lo k : Nat) : State :=
  (List.range k).foldl (fun s i => releaseSession s (lo + i)) s

/-- Whether the AON responder serves an object in Standby (R443). -/
def standbyServed (idx sub : Nat) : Bool :=
  (0x1000 ≤ idx && idx ≤ 0x1A07) || (0x2000 ≤ idx && idx ≤ 0x2042) ||
  (idx == 0x2800 && sub ≤ 1) || (idx == 0x2B00 && (sub == 5 || sub == 0)) ||
  (idx == 0x2E00 && (sub == 0 || (0x0D ≤ sub && sub ≤ 0x0F))) || (idx == 0x2E30 && (sub == 0 || sub == 2)) ||
  (idx == 0x2E40 && sub ≤ 1) || (idx == 0x2F00 && (sub ≤ 2 || (7 ≤ sub && sub ≤ 0x0D))) ||
  (idx == 0x3000 && (sub ≤ 1 || sub == 3)) || (idx == 0x3010 && (sub ≤ 1 || sub == 8)) ||
  idx == 0x3020 || idx == 0x3100 || idx == 0x3101 || idx == 0x3110 || idx == 0x3180

/-- The owning block of an object (R445, R450). -/
def owningBlock (idx : Nat) : Nat :=
  if idx < 0x2100 then 0x20 else idx / 256

/-- Check 2 of R450: the object is served in the present state (R443, R365). -/
def stateCheck (s : State) (idx sub : Nat) : Except Nat Unit :=
  if s.sys.recalling then .error 0x2F05
  else if s.sys.dev = .standby ∧ standbyServed idx sub = false then .error 0x2004
  else .ok ()

/-- The number a written byte string spells for a row's type. -/
def writtenValue (r : ObjRow) (data : List Byte) : Int :=
  if r.ty = .i8 ∨ r.ty = .i16 then toSigned r.ty.width (ofLe data) else (ofLe data : Nat)

/-- Checks 1 to 6 of R450 for a write, in order. -/
def writeChecks (s : State) (level : Level) (idx sub : Nat) (data : List Byte) : Except Nat ObjRow :=
  match objRow? idx sub with
  | none => .error 0x2003
  | some r =>
    match stateCheck s idx sub with
    | .error d => .error d
    | .ok _ =>
      if r.access = .ro ∨ r.access = .const then .error 0x2009
      else if r.ty.lengthOk data.length = false then .error 0x200A
      else if levelNum level < levelNum r.level then .error (owningBlock idx * 256 + 2)
      else if r.ty.isNum && !r.inRange (writtenValue r data) then .error (owningBlock idx * 256 + 1)
      else .ok r

/-- Checks 1 to 3 of R450 for a read. -/
def readChecks (s : State) (idx sub : Nat) : Except Nat ObjRow :=
  match objRow? idx sub with
  | none => .error 0x2003
  | some r =>
    match stateCheck s idx sub with
    | .error d => .error d
    | .ok _ => if r.access = .wo then .error 0x2009 else .ok r

/-- The abort code of a detail code (R451). -/
def abortOf (detail idx : Nat) (write : Bool) : Nat :=
  let low := detail % 256
  if detail = 0x2003 then (if indexExists idx then 0x06090011 else 0x06020000)
  else if detail = 0x2009 then (if write then 0x06010002 else 0x06010001)
  else if low = 1 then 0x06090030
  else if low = 2 then 0x08000021
  else if detail = 0x2005 ∨ detail = 0x2006 ∨ detail = 0x200F then 0x08000021
  else if detail = 0x2007 ∨ detail = 0x200D then 0x05040005
  else if detail = 0x2008 then 0
  else if detail = 0x200A ∨ detail = 0x3103 then 0x06070010
  else if detail = 0x200B then 0x08000020
  else if detail = 0x2010 then 0x06040041
  else if detail = 0x2011 then 0x06040042
  else if detail = 0x2012 then 0x05040000
  else if detail = 0x2208 ∨ detail = 0x2803 ∨ detail = 0x2E03 ∨ detail = 0x2E08 then 0x06090030
  else if detail = 0x200E ∨ (0x2203 ≤ detail ∧ detail ≤ 0x2207) ∨ detail = 0x2403 ∨ (0x2503 ≤ detail ∧ detail ≤ 0x2505)
      ∨ (0x2703 ≤ detail ∧ detail ≤ 0x2707) ∨ detail = 0x270A ∨ (0x2B03 ≤ detail ∧ detail ≤ 0x2B05) ∨ detail = 0x3003
    then 0x06040043
  else 0x08000022

/-- The response frame of R440: tag, status, abort, detail, length, data, check. -/
def responseFrame (tag status abort detail : Nat) (data : List Byte) : List Byte :=
  withCrc (leBytes 1 tag ++ leBytes 1 status ++ leBytes 4 abort ++ leBytes 2 detail ++ leBytes 2 data.length ++ data)

/-- Sends an answer on the request's path (R433, R441, R442): a USDO response or abort, a mailbox completion, or the
session's stored I3C response with its IBI. -/
def answer (s : State) (via : Via) (sess tag status abort detail : Nat) (data : List Byte) : State :=
  let frame := responseFrame tag status abort detail data
  match via with
  | .can n => emit s (.usdo n.toNat abort data)
  | .mailbox p => emit (bump s (0x2B20 + p.val) 0x0B 1) (.mailbox p 0xC000 0 ((frame.drop 1).take (9 + data.length)))
  | .i3c f =>
    let s := modSession s sess (fun x => { x with response := frame })
    let s := { s with mgmt := { s.mgmt with i3cLast := some f } }
    if s.mgmt.ibiEnabled then emit s (.ibi (BitVec.ofNat 8 tag)) else s

/-- A request served (R446 counts [2040]). -/
def accept (s : State) (via : Via) (sess tag : Nat) (data : List Byte) : State :=
  answer (perfCount (bump s 0x2040 (pathOf via + 1) 1) 12 0x0E 1) via sess tag 0 0 0 data

/-- A request rejected (R433): the session's reject record takes the codes and the object, the path's count the
request, and the answer carries both codes. -/
def reject (s : State) (via : Via) (sess tag detail idx sub : Nat) (write : Bool) : State :=
  let abort := abortOf detail idx write
  let s := modSession s sess (fun x =>
    { x with lastDetail := detail, lastAbort := abort, lastObject := idx * 256 + sub, rejectCount := x.rejectCount + 1 })
  answer (bump s 0x2041 (pathOf via + 1) 1) via sess tag 1 abort detail []

/-- A refused level code counts on its path and in [2011.03]; the fourth in a window locks the path out (R429). -/
def countRefusal (s : State) (path : Nat) : State :=
  let k := tabGet dNat s.mgmt.refusals path + 1
  let s := bump { s with mgmt := { s.mgmt with refusals := tabSet dNat s.mgmt.refusals path k } } 0x2011 3 1
  if k = 4 then
    raise { s with mgmt := { s.mgmt with lockedOut := tabSet dBool s.mgmt.lockedOut path true } } 0x2003
      (leBytes 1 path ++ leBytes 1 k)
  else s

/-- What a refusal at check 7 leaves beside the reject record: the status of a refused commit (R432), the count of refused
level codes (R429). -/
def refusalMark (s : State) (via : Via) (sess detail idx sub : Nat) : State :=
  if idx = 0x2020 ∧ sub = 1 then modSession s sess (fun x => { x with commitStatus := 2 })
  else if idx = 0x2010 ∧ detail = 0x2005 then countRefusal s (pathOf via)
  else s

/-- The rejection of a CAN request that finds no session free (R430). -/
def rejectNoSession (s : State) (via : Via) (idx : Nat) : State :=
  match via with
  | .can n => emit (bump s 0x2041 5 1) (.usdo n.toNat (abortOf 0x200D idx true) [])
  | _ => s

/-- Stages an entry (R431): it replaces an entry of the same object, or joins the set of at most 64. -/
def stageEntry (s : State) (sess idx sub : Nat) (data : List Byte) : Except Nat State :=
  let key := objKey idx sub
  let set := (sessionOf s sess).staged
  if set.any (fun e => e.1 == key) then
    .ok (modSession s sess (fun x => { x with staged := x.staged.map (fun e => if e.1 = key then (key, data) else e) }))
  else if 64 ≤ set.length then .error 0x2007
  else .ok (modSession s sess (fun x => { x with staged := x.staged ++ [(key, data)] }))

/-- Serves one write request with tag `tag` (R431, R434, R450): a staged object goes into the staging set, any other
takes `eff`. A rejected request changes nothing but the reject record and the counts (R433). -/
def serveTagged (s : State) (via : Via) (tag idx sub : Nat) (data : List Byte)
    (eff : Nat → State → Except Nat State) : State :=
  if pathOpen s via then
    match sessionFor s via with
    | none => rejectNoSession s via idx
    | some (n, s) =>
      match writeChecks s (sessionOf s n).level idx sub data with
      | .error d => reject s via n tag d idx sub true
      | .ok r =>
        match (if r.staged then stageEntry s n idx sub data else eff n s) with
        | .error d => reject (refusalMark s via n d idx sub) via n tag d idx sub true
        | .ok s' => accept s' via n tag []
  else s

/-- The tag an I3C request of a command that names no frame carries: its version, session field and sequence 0
(log entry 8). -/
def plainTag : Via → Nat
  | .i3c f => 0x40 + 16 * f.val
  | _ => 0

/-- Serves one write request of a command with a row of its own. -/
def served (s : State) (via : Via) (idx sub : Nat) (data : List Byte)
    (eff : Nat → State → Except Nat State) : State :=
  serveTagged s via (plainTag via) idx sub data eff

/-- Serves one read request: `value` gives the bytes and the state after the read, or the detail code it is rejected
with. -/
def serveRead (s : State) (via : Via) (tag idx sub : Nat) (value : Nat → State → Except Nat (List Byte × State)) :
    State :=
  if pathOpen s via then
    match sessionFor s via with
    | none => rejectNoSession s via idx
    | some (n, s) =>
      match readChecks s idx sub with
      | .error d => reject s via n tag d idx sub false
      | .ok _ =>
        match value n s with
        | .error d => reject s via n tag d idx sub false
        | .ok (bs, s') => accept s' via n tag bs
  else s

end Sys2Proof.Machine
end

