-- ==== Sys2Proof/Machine/Destage.lean ====
section
/-! DEFINITION. Machine/Destage.lean: destages from grant to completion (R15, R73, R101, R164, R189, R190, R194, R195,
R199), the take-in of held writes (R176), hold ticks, flushes (R99, R112), writebacks that acknowledgements wait for, the
scrubber, patrol and repair of the Easel (R105, R107 to R110), and the statistics clears of codec, Easel, Palette and
monitors. -/

namespace Sys2Proof.Machine

/-- Serves a write of the number `v` to an object, in the object's width. -/
def servedNum (s : State) (via : Via) (idx sub : Nat) (v : Nat) (eff : Nat → State → Except Nat State) : State :=
  let width := match objRow? idx sub with
    | some r => r.ty.width
    | none => 1
  served s via idx sub (leBytes width v) eff

/-- A slot is held (R73, R76, R83): by a gap step, by the spare program of a remap, or as a tile of the batch a move copies. -/
def slotHeld (s : State) (g p slot : Nat) : Bool :=
  let x := groupOf s g
  (match x.gapJob with
   | some j => j.region == p && (slot == j.src || slot == j.dst)
   | none => false)
  || (match x.remapJob with
   | some j => j.region == p && j.slot == slot
   | none => false)
  || (match x.move with
   | some m => m.src == p && decide (0 < m.copied) &&
      (List.range 64).any (fun i => slotIn s g p (m.pointer + i) == slot)
   | none => false)

/-- The slot a tile lies in is held (R73). -/
def tileHeld (s : State) (t : TileId) : Bool :=
  match placeOf s t with
  | some pl =>
    match pl.slot with
    | some (p, slot) => slotHeld s pl.group p slot
    | none => false
  | none => false

/-- The destage of a line is held under R73. -/
def stepHolds (s : State) (line : Nat) : Bool :=
  !ephemeralState s && tileHeld s (.host line)

/-- A Glaze unit in flight holds the destages of its lines (R204). -/
def unitHolds (s : State) (line : Nat) : Bool :=
  s.crypt.glaze.units.any (fun u => decide (u.line ≤ line ∧ line < u.line + u.count))

/-- The Palette takes an update of a counter tile now (R27, R142, R145): no range invalidation covers it, and it is dirty already or
neither the dirty limit nor the device share stands against it. -/
def counterTakes (s : State) (c : Nat) : Bool :=
  let k := paletteKey (.counter c)
  match paletteFind s k with
  | none => false
  | some w => !comparatorHit s k && ((palWay s w).dirty || !palHeld s)

/-- A read ordered before the line's next write still waits for its patches: the medium must keep what it is to return (R169). -/
def readOutstanding (s : State) (line : Nat) : Bool :=
  s.easel.reads.any (fun e => e.2.line == line)

/-- Programs of a group go out now: it is awake, not fenced, and awaits no StaleColumn tile (R19, R31, R466). -/
def groupPrograms (s : State) (g : Nat) : Bool :=
  groupAwake s g && !(groupOf s g).fenced && !(groupOf s g).staleHold

/-- The line at `p` can be granted FGW now (R67, R73, R82, R101, R169, R194, R195, R204, R466). -/
def destageReady (s : State) (g p : Nat) : Bool :=
  let x := easelLine s p
  let line := placeLine s p
  x.valid && x.dirty && !x.flight && !x.fill && !x.merge && groupPrograms s g && !readOutstanding s line
    && (match linePlace s line with
        | some pl => !placeFenced s pl && remapReady s pl
        | none => false)
    && !stepHolds s line && !unitHolds s line
    && (!sealedLine s line ||
        (let c := counterIndex s line
         match paletteData s (.counter c) with
         | some d => decide (minorOf d (line % 32) < 16383) && (pageJob s c).isNone && counterTakes s c
         | none => false))

/-- Queues a page for re-encryption once (R195). -/
def queuePage (s : State) (c : Nat) : State :=
  if (groupOf s (c % 8)).pages.any (fun j => j.c == c) then s
  else modGroup s (c % 8) (fun x => { x with pages := x.pages ++ [{ c := c, old := 0 }] })

/-- The tile a destage of the line at `p` writes: the codeword and its version (R39, R189, R190, R194); under the ephemeral key
every version is drawn (R207). -/
def destageTile (s : State) (p : Nat) : State × List Byte × Nat :=
  let x := easelLine s p
  let line := placeLine s p
  let key := lineKey s line
  if sealedLine s line then
    let c := counterIndex s line
    let j := line % 32
    match paletteData s (.counter c) with
    | none => (s, [], 0)
    | some d =>
      let m := minorOf d j + 1
      let v := counterVersion (majorOf d) m
      let code := if x.poison then poisonCode s (.host line) v else lineCode s key line (majorOf d) v x.data
      let s := palPut s 0 (.counter c) (some (setMinor d j m)) false
      (if 16320 ≤ m then queuePage s c else s, code, v)
  else if x.vk && !ephemeralState s then
    let v := (x.version + 1) % 2 ^ 24
    (s, if x.poison then poisonCode s (.host line) v else lineCode s key line 0 v x.data, v)
  else if x.poison then (s, poisonCode s (.host line) 0, 0)
  else
    let v := drawn s 24
    (afterDraw s, lineCode s key line 0 v x.data, v)

/-- The FGW grant of the line at `p` (R101, R173, R199). -/
def grantLine (s : State) (g p : Nat) : State :=
  let line := placeLine s p
  let isSealed := sealedLine s line
  let r := destageTile s p
  let s := if (easelLine s p).poison then bumpCodec r.1 g 0x0D 1 else r.1
  let mine := s.easel.acks.filter (fun a => a.line == line && a.destage)
  let through := !mine.isEmpty
  let s := destageRemove s p
  let s := modLine s p (fun x => { x with flight := true, written := false, queued := false })
  let c := counterIndex s line
  let f : DestageRec :=
    { place := p, line := line, version := r.2.2, code := r.2.1, through := mine.head?.map (·.arrival) }
  let s := { s with crypt := { s.crypt with glaze := { s.crypt.glaze with
    finishing := s.crypt.glaze.finishing.map (fun (e : Nat × Bool) => if e.1 = p then (p, true) else e) } } }
  let s := { s with easel := { s.easel with
    flights := s.easel.flights ++ [f],
    flush := s.easel.flush.map (fun (e : Nat × Bool) => if e.1 = p then (p, true) else e),
    acks := s.easel.acks.map (fun (a : AckWait) =>
      if a.line = line ∧ a.destage then { a with copied := true, counter := (if isSealed then some c else none) } else a) } }
  let s := s.easel.acks.foldl (fun s (a : AckWait) => if a.line = line then stamp (stamp s a.who 3) a.who 4 else s) s
  if isSealed && through then
    match paletteFind s (paletteKey (.counter c)) with
    | some w => palSelect s w
    | none => s
  else s

/-- What a line of the destage queue that cannot go yet asks of the Palette (R82, R139, R142, R173): its remap table tile, its path
while the counter tile is absent, or room for the counter tile's update. -/
def askDestage (s : State) (p : Nat) : State :=
  let line := placeLine s p
  let s := match linePlace s line with
    | some pl => if placeFenced s pl then s else askRemap s 0 pl
    | none => s
  if sealedLine s line then
    let c := counterIndex s line
    if (paletteData s (.counter c)).isNone then lookupPath s line
    else if counterTakes s c then s
    else palSelectSome (if palFull s then bump s 0x2510 6 1 else s) (palOldestAll s)
  else s

/-- DESTAGE_GRANT (R101): the first line of the group's destage queue that can go is granted; where none can, each asks the Palette
for what it waits for. -/
def execDestageGrant (group : Group) (upset : Upset) (s : State) : Host.Outcome State Fault Refusal :=
  let g := group.val
  match (groupOf s g).destages.find? (fun e => destageReady s g e.2) with
  | some (_, p) =>
    let s := applyUpset s (placeLine s p) upset
    .next (if destageReady s g p then grantLine s g p else s)
  | none => .next ((groupOf s g).destages.foldl (fun s e => askDestage s e.2) s)

/-- Selects flush lines that found no place in the queue before (R112). -/
def reselectFlush (s : State) : State :=
  if s.easel.flushing then
    s.easel.flush.foldl (fun s e =>
      let x := easelLine s e.1
      if x.dirty && !x.queued && !x.flight then destageSelect s 4 0 e.1 else s) s
  else s

/-- A flush ends when it waits for no line (R112). -/
def settleFlush (s : State) : State :=
  let left := s.easel.flush.filter (fun e => (easelLine s e.1).valid && (easelLine s e.1).dirty)
  { s with easel := { s.easel with flush := left, flushing := s.easel.flushing && !left.isEmpty } }

/-- The line's own side of a completed destage (R101): the two cases of W. -/
def landLine (s : State) (f : DestageRec) : State :=
  let x := easelLine s f.place
  if x.valid && x.flight && x.tag == easelTag f.line then
    if x.written then
      let n := x.charge
      let s := if 0 < n then chargeLine (chargeLine s f.place x.share 0) f.place x.writer n else s
      modLine s f.place (fun x =>
        { x with flight := false, written := false, version := f.version, vk := true, stamp := x.restamp })
    else
      let s := chargeLine s f.place x.share 0
      modLine s f.place (fun x =>
        { x with dirty := false, flight := false, version := f.version, vk := true })
  else s

/-- A destage program is complete on every non-erased column (R101, R166): the tile is in the medium. -/
def destageComplete (s : State) (f : DestageRec) : State :=
  let s := { s with easel := { s.easel with flights := s.easel.flights.filter (fun x => x.place != f.place) } }
  let s := match linePlace s f.line with
    | some pl => programTile s pl f.code
    | none => s
  let s := landLine s f
  let s := { s with
    crypt := { s.crypt with glaze := { s.crypt.glaze with finishing := s.crypt.glaze.finishing.filter (· != (f.place, true)) } },
    easel := { s.easel with
      flush := s.easel.flush.filter (fun e => !(e.1 == f.place && e.2)),
      acks := s.easel.acks.map (fun (a : AckWait) =>
        if a.line = f.line ∧ a.copied then
          { a with destage := false, copied := false, spare := a.spare || f.spare }
        else a) } }
  let s := s.easel.acks.foldl (fun s (a : AckWait) => if a.line = f.line then stamp s a.who 5 else s) s
  settleAcks (reselectFlush (settleFlush s))

/-- DESTAGE_COMPLETE (R101): the destage of this line ends. -/
def execDestageComplete (line : LineAddr) (s : State) : Host.Outcome State Fault Refusal :=
  match s.easel.flights.find? (fun f => f.line == line.toNat && f.fill.isNone) with
  | some f => .next (varnishAdvance 5 (destageComplete s f))
  | none => .next s

/-- Takes the first held write of a port that can now be taken in (R176); those of fenced lines complete (R31, R67). -/
def heldTakeIn (s : State) (p : Nat) : State :=
  let s := if (portOf s p).held.any (fun w => lineFenced s w.line) then completeHeld s (lineFenced s) else s
  let held := (portOf s p).held
  match held.find? (fun w => !heldBefore s w.line w.seq && (match takeIn s w with
    | .done _ _ => true
    | .held _ => false)) with
  | none => s
  | some w =>
    let s' := modPort s p (fun x => { x with held := x.held.filter (fun v => v.seq != w.seq) })
    match takeIn s' w with
    | .done t through => retryMerges (rerunReads s (afterTakeIn t w through) w.line)
    | .held _ => s

/-- HELD_WRITE_TAKE_IN (R176). -/
def execHeldWriteTakeIn (port : Port) (s : State) : Host.Outcome State Fault Refusal :=
  .next (heldTakeIn s port.val)

/-- PALETTE_WRITEBACK_COMPLETE (R142): the acknowledgements that waited for the counter it carries are settled (R199). -/
def execPaletteWritebackComplete (set : Fin 8192) (way : Fin 16) (s : State) : Host.Outcome State Fault Refusal :=
  let w := 16 * set.val + way.val
  match s.palette.writes.find? (fun x => x.place == w) with
  | none => .next s
  | some job =>
    let s := palComplete s w
    .next (varnishAdvance 5 (settleAcks { s with easel := { s.easel with acks := s.easel.acks.map (fun a =>
      match a.counter with
      | some c => if job.tile = .counter c ∧ a.back then
          { a with counter := none, back := false, spare := a.spare || job.spare } else a
      | none => a) } }))

/-- Arrival time of the first write whose acknowledgement waits for a counter tile's writeback (R165, R173, R199). -/
def backArrival (s : State) (t : TileId) : Option Nat :=
  (s.easel.acks.find? (fun a => match a.counter with
    | some c => decide (t = .counter c) && !a.back
    | none => false)).map (·.arrival)

/-- A writeback of a tile can be granted now: its group programs, its place is not fenced, and no step, move or remap holds the slot
(R67, R73, R143). -/
def writebackReady (s : State) (t : TileId) : Bool :=
  match placeOf s t with
  | some pl => groupPrograms s pl.group && !placeFenced s pl && remapReady s pl && !tileHeld s t
  | none => false

/-- PALETTE_WRITEBACK_GRANT (R142, R143): the snapshot carries the counters that acknowledgements wait for. -/
def execPaletteWritebackGrant (set : Fin 8192) (way : Fin 16) (s : State) : Host.Outcome State Fault Refusal :=
  let w := 16 * set.val + way.val
  let t := tileOfKey (palWay s w).key
  if s.palette.selected.contains w ∧ writebackReady s t then
    let first := backArrival s t
    let s := palGrant s w
    if s.palette.writes.any (fun x => x.place == w) then
      .next { s with
        palette := { s.palette with writes := s.palette.writes.map (fun x =>
          if x.place = w then { x with arrival := first } else x) },
        easel := { s.easel with acks := s.easel.acks.map (fun a =>
          match a.counter with
          | some c => if t = .counter c then { a with back := true } else a
          | none => a) } }
    else .next s
  else .next (match placeOf s t with
    | some pl => if s.palette.selected.contains w && !placeFenced s pl then askRemap s 0 pl else s
    | none => s)

/-- Sets of the Easel that hold a dirty line. -/
def dirtySets (s : State) : List Nat :=
  ((s.easel.lines.filter (fun e => e.2.dirty)).map (·.1 / 16)).eraseDups

/-- HOLD_TICK (R99, R100, R112): the settings of the scanner take effect; it selects every line nine ticks old or older, and looks at
the watermarks of every set and share. -/
def execHoldTick (s : State) : Host.Outcome State Fault Refusal :=
  let s := takeForce (takeForce { s with easel := { s.easel with tick := s.easel.tick + 1 } } 0x2300 3) 0x2300 4
  let due := dirtyPlaces s (fun x => decide (9 ≤ stampAge s.easel.tick x.stamp))
  let s := due.foldl (fun s p => destageSelect s 3 7 p) s
  let s := (dirtySets s).foldl checkSet s
  .next ((List.range 4).foldl checkShare s)

/-- The effect of a flush request (R112). -/
def flushRequest (s : State) : Except Nat State :=
  if s.easel.flushing then .error 0x2303
  else
    let dirty := s.easel.lines.filter (fun e => e.2.valid && e.2.dirty)
    let s := { s with easel := { s.easel with
      flush := dirty.map (fun e => (e.1, e.2.flight && !e.2.written)), flushing := !dirty.isEmpty } }
    .ok ((dirtyPlaces s (fun _ => true)).foldl (fun s p => destageSelect s 4 0x0C p) s)

/-- FLUSH_REQUEST (R112). -/
def execFlushRequest (via : Via) (s : State) : Host.Outcome State Fault Refusal :=
  .next (served s via 0x2300 7 [1] (fun _ s => flushRequest s))

/-- Spare rows of a bank in use, by the factory fuse map and by field repair (R107, R108), [2320]. -/
def sparesUsed (s : State) (bank : Nat) : Nat :=
  ((List.range 16).filter (fun i => tabGet dNat s.easel.spareRows (16 * bank + i) != 0)).length

/-- Field soft spares of a bank, [2321] (R112). -/
def fieldSpares (s : State) (bank : Nat) : Nat :=
  ((List.range 16).filter (fun i => tabGet dNat s.easel.spareRows (16 * bank + i) != 0
    && tabGet dNat s.sys.fuseRows (16 * bank + i) == 0)).length

/-- The row that scrub pointer value `at0` of a bank reads: itself, or behind the 6,272 rows the row a spare in use stands for
(R109). -/
def scrubTarget (s : State) (bank at0 : Nat) : Nat :=
  if at0 < 6272 then at0
  else
    (((List.range 16).map (fun i => tabGet dNat s.easel.spareRows (16 * bank + i))).filter (· != 0)).getD (at0 - 6272) 1 - 1

/-- The place whose mirror tag word lies in a row of a bank (R89); each die holds the mirrors of the one opposite. -/
def mirrored (bank row way : Nat) : Nat :=
  16 * (64 * row + (mirrorPlace (16 * (64 * row + bank))).1) + way

/-- What a read of a row with correction finds in one of its ways (R103, R105, R106); rows from 4,096 on are of the reserved
partition, whose words *Stall Queues* treats. -/
def rowRead (s : State) (bank row way : Nat) (upset : Upset) : State :=
  let p := 16 * (64 * row + bank) + way
  match upset with
  | .easelWord => wordCorrected s bank row
  | .easelWordLost =>
    if row < 4096 then (if (easelLine s p).valid then easelWordLost s p true else rowNominate s bank row)
    else rowNominate s bank row
  | .tagPrimary w => if row < 4096 then tagPrimaryLost s (16 * (64 * row + bank) + w.val) else s
  | .tagMirror w =>
    let m := mirrored bank row w.val
    if row < 4096 then modLine (tagMirrorLost s m) m (fun x => x) else s
  | .tagLost w => if row < 4096 then tagIdentityLost s (16 * (64 * row + bank) + w.val) else s
  | _ => s

/-- A scrub of a row makes every bad mirror tag word in it good from its primary (R103). -/
def scrubMirrors (s : State) (bank row : Nat) : State :=
  (List.range 16).foldl (fun s w =>
    let p := mirrored bank row w
    if tabGet dBool s.easel.mirrorBad p then modLine s p (fun x => x) else s) s

/-- The scrubber reads the next row of a bank (R109): what it finds in one way of the row is `upset`. -/
def scrubRow (s : State) (bank : Nat) (way : Nat) (upset : Upset) : State :=
  let at0 := tabGet dNat s.easel.scrub bank
  let rows := 6272 + sparesUsed s bank
  let row := scrubTarget s bank at0
  let s := rowRead s bank row way upset
  let s := if row < 4096 then scrubMirrors s bank row else s
  let wraps := decide (rows ≤ at0 + 1)
  let began := s.easel.lapAt.getD s.sys.time
  let s := { s with easel := { s.easel with
    lapAt := some began,
    scrub := tabSet dNat s.easel.scrub bank (if wraps then 0 else at0 + 1),
    lapped := if wraps then tabSet dBool s.easel.lapped bank true else s.easel.lapped } }
  if (List.range 64).all (fun b => tabGet dBool s.easel.lapped b) then
    let s := setStat (bump s 0x2310 0x12 1) 0x2310 0x13 (((s.sys.time - began) / 64000000000 : Nat) : Int)
    { s with easel := { s.easel with lapped := [], lapAt := some s.sys.time } }
  else s

/-- EASEL_SCRUB (R109, R110): a forced scrub where the bank is due for one, which is counted; else one that the bank's idle cycles
allow, which spares the bank the force of its patrol window. -/
def execEaselScrub (bank : Fin 64) (way : Fin 16) (upset : Upset) (s : State) : Host.Outcome State Fault Refusal :=
  let b := bank.val
  let s :=
    if tabGet dBool s.easel.patrolDue b then
      bump { s with easel := { s.easel with patrolDue := tabSet dBool s.easel.patrolDue b false } } 0x2310 0x14 1
    else { s with easel := { s.easel with patrolled := tabSet dBool s.easel.patrolled b true } }
  .next (scrubRow s b way.val upset)

/-- PATROL_WINDOW (R110): every bank that scrubbed no row in the window is due: its next scrub, which waits only for an access in
progress, is a forced one. -/
def execPatrolWindow (s : State) : Host.Outcome State Fault Refusal :=
  let missed := (List.range 64).filter (fun b => !tabGet dBool s.easel.patrolled b)
  .next { s with easel := { s.easel with
    patrolled := [], patrolDue := missed.foldl (fun t b => tabSet dBool t b true) s.easel.patrolDue } }

/-- A read of a queue's oldest spill block, where the head has room for its seven words (R328, R329): the errors its Easel words
show are corrected and counted, or nominate the row (R103, R105). -/
def spillReadBlock (s : State) (q : Nat) (w : SpillWords) : State :=
  let x := queueOf s q
  if 0 < x.blocks ∧ x.head ≤ 25 then
    let pl := spillPlace q (x.firstBlock % spillBlocks q)
    let found := (List.range 8).filter (fun i => w.corrected.getLsbD i && !w.uncorrectable.getLsbD i)
    let s := found.foldl (fun s _ => wordCorrected s pl.1 pl.2) s
    spillRead (if w.uncorrectable = 0 then s else rowNominate s pl.1 pl.2) q w.uncorrectable w.misplaced
  else s

/-- SPILL_BLOCK_READ (R329): the oldest spill block moves to the head. -/
def execSpillBlockRead (queue : QueueId) (words : SpillWords) (s : State) : Host.Outcome State Fault Refusal :=
  .next (spillReadBlock s queue.val words)

/-- SPILL_FORCED (R328): a spill access that has waited 1 µs is forced; it counts as a scrub of the bank under R91. -/
def execSpillForced (queue : QueueId) (access : SpillAccess) (s : State) : Host.Outcome State Fault Refusal :=
  match access with
  | .write => .next (spillWrite s queue.val)
  | .read words => .next (spillReadBlock s queue.val words)

/-- Writes a bank's record into the Easel's repair image and queues its section (R108). -/
def repairImage (s : State) (off record : Nat) : State :=
  sectionUpdate (imageStore s off (leBytes 4 record)) (off / 0x1000)

/-- Sets way record `n` of a bank (R107, R108). -/
def setWayRecord (s : State) (bank n record : Nat) : State :=
  repairImage { s with easel := { s.easel with wayRecords := tabSet dNat s.easel.wayRecords (64 * bank + n) record } }
    (0xC000 + 4 * (64 * bank + n)) record

/-- The first free way record of a bank. -/
def freeWayRecord (s : State) (bank : Nat) : Option Nat :=
  (List.range 64).find? (fun n => !bitOf (tabGet dNat s.easel.wayRecords (64 * bank + n)) 31)

/-- Places of a set among the ways of a mask. -/
def maskPlaces (set : Nat) (mask : BitVec 16) : List Nat :=
  ((List.range 16).filter (fun i => mask.getLsbD i)).map (16 * set + ·)

/-- Steps 2 and 3 of R107 for a set row without a spare: dirty lines first go out in class 1. -/
def repairSet (s : State) (bank row : Nat) (ways : BitVec 16) : State :=
  let set := 64 * row + bank
  let bad := maskPlaces set ways
  let keep := ((usableWays s set).filter (fun i => !ways.getLsbD i)).length
  let disable := decide (8 ≤ keep ∧ (wayRecordsOf s bank).length < 56)
  let dirty := (if disable then bad else (List.range 16).map (16 * set + ·)).filter (fun p =>
    let x := easelLine s p
    x.valid && (x.dirty || x.fill))
  if dirty ≠ [] then dirty.foldl (fun s p => destageSelect s 1 0 p) s
  else
    let s := bad.foldl (fun s p => modLine s p (fun _ => {})) s
    let s := { s with easel := { s.easel with rowsDue := s.easel.rowsDue.erase (64 * row + bank) } }
    let record := 2 ^ 31 + row * 2 ^ 16 + ways.toNat
    match freeWayRecord s bank with
    | some n =>
      if disable then raise (setWayRecord s bank n record) 0x2306 (leBytes 1 bank ++ leBytes 2 row ++ leBytes 2 ways.toNat)
      else moduleEvent (raise (setWayRecord s bank n (record + 2 ^ 30)) 0x2308
        (leBytes 1 bank ++ leBytes 2 row ++ leBytes 1 keep)) 1 2
    | none =>
      moduleEvent (raise (setWayRecord s bank 63 (2 ^ 31 + 2 ^ 30 + 2 ^ 29)) 0x2308
        (leBytes 1 bank ++ leBytes 2 0xFFFF ++ leBytes 1 0)) 1 2

/-- The copy of a row to its spare meets uncorrectable words in these ways: a dirty or merge-pending line is poisoned (R103,
R107). -/
def copyLosses (s : State) (bank row : Nat) (lost : BitVec 16) : State :=
  if row < 4096 then
    (maskPlaces (64 * row + bank) lost).foldl (fun s p =>
      let x := easelLine s p
      if x.valid && (x.dirty || x.merge) then easelWordLost s p false else s) s
  else s

/-- ROW_REPAIR (R107): the oldest nominated row is repaired; `ways` says which hold failing words, and in which of them the copy to a
spare row meets an uncorrectable one. -/
def execRowRepair (ways : RowWords) (s : State) : Host.Outcome State Fault Refusal :=
  match s.easel.rowsDue with
  | [] => .next s
  | key :: _ =>
    let bank := key % 64
    let row := key / 64
    match (List.range 16).find? (fun i => tabGet dNat s.easel.spareRows (16 * bank + i) == 0) with
    | some i =>
      let s := copyLosses s bank row ways.lost
      let s := { s with easel := { s.easel with
        rowsDue := s.easel.rowsDue.erase key,
        spareRows := tabSet dNat s.easel.spareRows (16 * bank + i) (row + 1) } }
      let s := repairImage s (0xB000 + 4 * (16 * bank + i)) (2 ^ 31 + row * 2 ^ 16 + i)
      let s := raise s 0x2304 (leBytes 1 bank ++ leBytes 2 row ++ leBytes 1 i)
      .next (if sparesUsed s bank = 16 then raise s 0x2305 (leBytes 1 bank) else s)
    | none =>
      if row < 4096 then .next (repairSet s bank row ways.failing)
      else .next { s with easel := { s.easel with rowsDue := s.easel.rowsDue.erase key } }

/-- ROW_COUNT_WINDOW (R105, R112): the counts begin anew, and a written threshold takes effect. -/
def execRowCountWindow (s : State) : Host.Outcome State Fault Refusal :=
  .next (takeForce { s with easel := { s.easel with rowCounts := [], rowOrder := [] } } 0x2300 6)

/-- The effect of the codec statistics clear (R58). -/
def codecClear (s : State) : State :=
  clearStats (clearStats (clearStatsAt (clearStats s 0x2100 1 14) 0x2110 8 1 14) 0x2120 1 64) 0x2121 1 64

/-- CODEC_STATISTICS_CLEAR (R58). -/
def execCodecStatisticsClear (via : Via) (s : State) : Host.Outcome State Fault Refusal :=
  .next (served s via 0x2130 4 [1] (fun _ s => .ok (codecClear s)))

/-- The effect of the Easel statistics clear (R112). -/
def easelClear (s : State) : State :=
  clearStats (clearStats s 0x2310 1 0x11) 0x2310 0x14 1

/-- EASEL_STATISTICS_CLEAR (R112). -/
def execEaselStatisticsClear (via : Via) (s : State) : Host.Outcome State Fault Refusal :=
  .next (served s via 0x2300 0x0C [1] (fun _ s => .ok (easelClear s)))

/-- The effect of the Palette statistics clear (R154). -/
def paletteClear (s : State) : State :=
  clearStats s 0x2510 1 0x0C

/-- PALETTE_STATISTICS_CLEAR (R154). -/
def execPaletteStatisticsClear (via : Via) (s : State) : Host.Outcome State Fault Refusal :=
  .next (served s via 0x2500 4 [1] (fun _ s => .ok (paletteClear s)))

/-- The effect of the monitor clear (R179). -/
def monitorClear (s : State) : State :=
  clearStatsAt (clearStatsAt (clearStats s 0x2600 6 4) 0x2610 4 1 12) 0x2620 4 1 16

/-- MONITOR_CLEAR (R179). -/
def execMonitorClear (via : Via) (s : State) : Host.Outcome State Fault Refusal :=
  .next (served s via 0x2600 5 [1] (fun _ s => .ok (monitorClear s)))

/-- DIRTY_LIMIT_WRITE (R154). -/
def execDirtyLimitWrite (via : Via) (limit : BitVec 32) (s : State) : Host.Outcome State Fault Refusal :=
  .next (servedNum s via 0x2500 3 limit.toNat (fun _ s => .ok (dirtyLimitWrite s limit.toNat)))

end Sys2Proof.Machine
end

