-- ==== Sys2Proof/Machine/Engine.lean ====
section
/-! DEFINITION. Machine/Engine.lean: how an engine of a group reads a tile (R48 to R52, R57): the read with its retries, each
disturbed by the next error pattern of the command, and what R51 does about a tile that stays unreadable. -/

namespace Sys2Proof.Machine

/-- The codes of an engine's read of a place: the first read's; for the re-read of R52 those again; for a retry those of R214 and
R228, with the bucket that a corrected and refused content gave. -/
def engineCodes (s : State) (pl : Place) (n : Nat) (mis : Bool) (bucket : Option Nat) : List Nat :=
  if n = 0 || mis then firstCodes s pl else retryCodes s pl (firstCodes s pl) n bucket

/-- Reads of one tile by an engine (R49, R50, R52): at most `fuel` attempts, one error pattern each; `n` retries were made, `mis`
tells whether the re-read of R52 was, `bad` whether a decode has failed. The limits are those the read began with (R58). The
state, what came, and the retries made. -/
def engineAttempts : Nat → State → TileId → Place → List Codeword → Nat × Nat → Nat → Bool → Bool → State × TileRead × Nat
  | 0, s, _, _, _, _, n, _, _ => (s, .failed [], n)
  | fuel + 1, s, t, pl, errs, limits, n, mis, bad =>
    let e := takeErased s pl.group pl.addrs
    let d := readTile e.1 t pl (errs.headD 0) e.2
    let again := decide (n < limits.1)
    let recovered := fun (s : State) => if bad then bumpCodec s pl.group 7 1 else s
    match d.2 with
    | .good _ errors => (nominateAfter (recovered d.1) pl errors true bad limits.2, d.2, n)
    | .poison _ errors => (nominateAfter (recovered d.1) pl errors false bad limits.2, d.2, n)
    | .misdirected =>
      let s := misdirectedEvent d.1 t pl
      if again && !mis then engineAttempts fuel (retryIssued s pl.group) t pl errs.tail limits (n + 1) true bad
      else (s, d.2, n)
    | .failed _ =>
      let s := if n = 0 then bumpCodec d.1 pl.group 5 1 else d.1
      if again then engineAttempts fuel (retryIssued s pl.group) t pl errs.tail limits (n + 1) mis true
      else (s, d.2, n)

/-- An engine's read of a tile at a place, retries included: the state, what came, and the retries made. -/
def engineRead (s : State) (t : TileId) (pl : Place) (errs : List Codeword) : State × TileRead × Nat :=
  engineAttempts 3 s t pl errs (latchNow s) 0 false false

/-- Records a tile that an engine could not read (R56). -/
def unreadableEvent (s : State) (t : TileId) (g retries : Nat) : State :=
  raise s 0x2101 (leBytes 8 (addressField t) ++ leBytes 1 g ++ leBytes 1 retries)

/-- R51 for a tile an engine could not read: the Ledger event, and the deep read or the poison tile. -/
def engineUnreadable (s : State) (t : TileId) (g retries : Nat) : State :=
  match t with
  | .host line => lineUnreadable s line g retries false
  | t => deepReadOrPoison (unreadableEvent s t g retries) g t 0

/-- An engine can go to a place now: it is not fenced (R31, R67), and the remap table tile that decides it stands in the Palette
(R82). -/
def placeReady (s : State) (pl : Place) : Bool :=
  !placeFenced s pl && remapReady s pl

/-- Updates the version a clean Easel copy of a line carries after an engine has rewritten its tile (R90). -/
def noteVersion (s : State) (line version : Nat) : State :=
  match easelFind s line with
  | some p =>
    let x := easelLine s p
    if x.valid && !x.dirty && !x.fill then modLine s p (fun x => { x with version := version, vk := true }) else s
  | none => s

end Sys2Proof.Machine
end

