-- ==== Sys2Proof/Machine/Drift.lean ====
section
/-! DEFINITION. Machine/Drift.lean: epochs (R209, R212), swatch tiles and measurements (R216 to R219), the Retouch engine: region
passes (R220 to R225), deep reads (R51, R215), and swatch writes after a move (R224). -/

namespace Sys2Proof.Machine

/-- Changes a drift entry. -/
def modDrift (s : State) (g p : Nat) (f : DriftRec → DriftRec) : State :=
  modGroup s g (fun x => { x with drift := tabMod dDrift x.drift p f })

/-- Non-erased columns of a group (R54). -/
def liveColumns (s : State) (g : Nat) : List Nat :=
  (List.range 8).filter (fun c => !columnLost s g c)

/-- Highest stack temperature of a group's non-erased channels; none where none can be read. -/
def stackTemp (s : State) (g : Nat) : Option Int :=
  (liveColumns s g).foldl (fun (best : Option Int) c =>
    match best, (channelOf s (8 * g + c)).temp with
    | none, t => t
    | some b, some t => some (max b t)
    | some b, none => some b) none

/-- The highest T_c of a group's non-erased channels, in °C (R211, R231): a channel whose stack cannot be read counts with the
highest die sensor. -/
def groupTemp (s : State) (g : Nat) : Int :=
  match liveColumns s g with
  | [] => budgetTemp s / 10
  | c :: rest => rest.foldl (fun b c => max b (columnTemp s g c)) (columnTemp s g c)

/-- T_hist (R221): the highest stack temperature of the present and the previous epoch, +105 °C while none can be read. -/
def tHist (s : State) (g : Nat) : Int :=
  match stackTemp s g with
  | none => 105
  | some t => max ((groupOf s g).tempCur.getD t) ((groupOf s g).tempPrev.getD t)

/-- A_lim (R221), [281x.02]. -/
def ageLimit (s : State) (g : Nat) : Nat :=
  let t := tHist s g
  if t ≤ 55 then 126 else if t ≤ 65 then 63 else if t ≤ 75 then 31 else if t ≤ 85 then 15 else if t ≤ 95 then 7 else 3

/-- P_sw (R221), [281x.03]. -/
def sweepPeriod (s : State) (g : Nat) : Nat :=
  max 1 ((ageLimit s g - 2) * settingN s 0x2800 6 / 100)

/-- Visit age of a region (R220). -/
def visitAge (s : State) (g p : Nat) : Nat :=
  ageOf s (driftOf s g p).visit

/-- Notes a group's temperatures for T_hist (R221); the lack of any is recorded once. -/
def noteTemps (s : State) (g : Nat) : State :=
  match stackTemp s g with
  | some t => modGroup s g (fun x =>
      { x with tempCur := some (match x.tempCur with
          | some b => max b t
          | none => t), blind := false })
  | none =>
    if (groupOf s g).blind then s else raise (modGroup s g (fun x => { x with blind := true })) 0x2808 (leBytes 1 g)

/-- EPOCH_END (R209, R212, R221): E advances in every state; the filters and the temperature history move on. -/
def execEpochEnd (s : State) : Host.Outcome State Fault Refusal :=
  let s := { s with path := { s.path with epoch := (s.path.epoch + 1) % 2 ^ 32 } }
  .next ((List.range 8).foldl (fun s g => modGroup s g (fun x =>
    { x with filterPrev := x.filterCur, filterCur := [], tempPrev := x.tempCur, tempCur := none })) s)

/-- The twelve bytes of swatch tile `k` of region `p` (R216). -/
def swatchBytes (s : State) (k p : Nat) : List Byte :=
  let pat : List Byte := if k = 0 then [0, 0] else if k = 1 then [0xFF, 0xFF] else if k = 2 then [0x55, 0xAA] else [0x96, 0x69]
  let e : Byte := BitVec.ofNat 8 s.path.epoch
  pat ++ pat ++ pat ++ pat ++ [e, e ^^^ 0xFF] ++ leBytes 2 p

/-- Writes the four swatch tiles of a region with the current epoch (R216): no write under R71. -/
def writeSwatch (s : State) (g p : Nat) : State :=
  (List.range 4).foldl (fun s k =>
    let bytes := swatchBytes s k p
    let code := (List.range 96).map (fun i => bytes.getD (i / 8) 0)
    noteProgram (programAt s (placeSlot s g p (1048577 + k)) code) (placeSlot s g p (1048577 + k)) code) s

/-- Bits that differ between bytes 0 to 7 of a swatch patch as read and the pattern (R217). -/
def swatchErrors (k : Nat) (got : List Byte) : Nat :=
  let pat : List Byte := if k = 0 then [0, 0] else if k = 1 then [0xFF, 0xFF] else if k = 2 then [0x55, 0xAA] else [0x96, 0x69]
  (List.range 8).foldl (fun n i => n + byteDistance (got.getD i 0) (pat.getD (i % 2) 0)) 0

/-- The twelve bytes of a swatch patch as read: the stored patch disturbed by the read's error pattern. -/
def swatchRead (s : State) (g p k c : Nat) (err : Codeword) : List Byte :=
  let addr := (slotAddrs s g p (1048577 + k)).getD c 0
  leBytes 12 ((tabGet dPatch s.path.medium (patchKey (8 * g + c) addr)) ^^^ errorPatch err c).toNat

/-- Queues a region as urgent (R223). -/
def urge (s : State) (g p : Nat) : State :=
  modGroup s g (fun x => if x.urgent.contains p then x else { x with urgent := x.urgent ++ [p] })

/-- An uncorrectable drift entry (R219). -/
def driftLost (s : State) (g p : Nat) : State :=
  let s := modDrift s g p (fun _ => { visit := (s.path.epoch + 128) % 256 })
  raise (urge s g p) 0x2807 (leBytes 1 g ++ leBytes 2 p)

/-- The longest run of codes around `mid` that meet the test: first and last index of the nine. -/
def codeRun (ok : Nat → Bool) (mid : Nat) : Nat × Nat :=
  let down := (List.range mid).foldl (fun (r : Nat × Bool) i =>
    if r.2 && ok (mid - 1 - i) then (mid - 1 - i, true) else (r.1, false)) (mid, true)
  let up := (List.range (8 - mid)).foldl (fun (r : Nat × Bool) i =>
    if r.2 && ok (mid + 1 + i) then (mid + 1 + i, true) else (r.1, false)) (mid, true)
  (down.1, up.1)

/-- The value that occurs most often in a list; the first of equals; none of an empty list. -/
def commonest (l : List Nat) : Option Nat :=
  l.foldl (fun best v =>
    match best with
    | none => some v
    | some b => if (l.filter (· == b)).length < (l.filter (· == v)).length then some v else best) none

/-- The predicted code of a measurement, referred to 40 °C (R217 step 1): that of the swatch epoch's age, or of bucket 7. -/
def swatchBase (s : State) (g p : Nat) : Int :=
  let d := driftOf s g p
  baseCode s (if d.mv then bucketFor (ageOf s d.visit) else 7)

/-- Code `i` of the nine of a measurement, by column (R217 steps 1 and 2): p − 8 to p + 8 about that column's own prediction. -/
def swatchCodes (s : State) (g p i : Nat) : List Nat :=
  (List.range 8).map (fun c => clampCode (swatchBase s g p + tshift s (columnTemp s g c) + (2 * (i : Int) - 8)))

/-- The codes of a deep read's attempt `k`, by column (R215): 16 in a run centred on Centre + tshift(T_c). -/
def deepCodes (s : State) (g p k : Nat) : List Nat :=
  (List.range 8).map (fun c => (deepRun ((driftOf s g p).centre + tshift s (columnTemp s g c))).getD k 0)

/-- SWATCH measurement of a region (R217, R218) from its 36 reads: `errs` holds their error patterns, nine codes of tile 0 first. -/
def measureRegion (s : State) (g p : Nat) (errs : List Codeword) : State :=
  let d := driftOf s g p
  let cols := (List.range 8).filter (fun c => !(erasedColumns s g (some (p, 1048577))).contains c)
  let t := groupTemp s g
  let codeAt := fun (i : Nat) => clampCode (swatchBase s g p + (2 * (i : Int) - 8))
  let got := fun (k i c : Nat) => swatchRead s g p k c (errs.getD (9 * k + i) 0)
  let count := fun (i : Nat) => (List.range 4).foldl (fun n k => cols.foldl (fun n c => n + swatchErrors k (got k i c)) n) 0
  let counts := (List.range 9).map count
  let least := counts.foldl min (counts.headD 0)
  let ties := (List.range 9).filter (fun i => counts.getD i 0 == least)
  let mid := ties.getD ((ties.length - 1) / 2) 0
  let fits := fun (i : Nat) => decide (counts.getD i 0 ≤ 4 * settingN s 0x2800 4)
  let run := codeRun fits mid
  let half := min 15 ((codeAt run.2 - codeAt run.1 + 1) / 2)
  let copies := (List.range 4).flatMap (fun k => cols.map (fun c => got k mid c))
  let epoch := commonest ((copies.filter (fun x => x.getD 9 0 == x.getD 8 0 ^^^ 0xFF)).map (fun x => (x.getD 8 0).toNat))
  let placed := decide (copies.length < 2 * (copies.filter (fun x => numAt x 10 2 == p % 65536)).length)
  let visit := epoch.getD d.visit
  let bucket := bucketFor (ageOf s visit)
  let centre := codeAt mid
  let good := epoch.isSome && placed
  let window := fits mid
  let s := (List.range 4).foldl (fun s k => countReads s (placeSlot s g p (1048577 + k)) 9) s
  let s := modDrift s g p (fun d =>
    { d with centre := centre, half := if window then half else 0, bucket := bucket, mv := good, nw := !window,
             tm := (t + 40).toNat % 256, visit := visit })
  let s := bump s (0x2810 + g) 9 1
  let s := if window then s
    else raise (urge (bump s (0x2810 + g) 0x0A 1) g p) 0x2803 (leBytes 1 g ++ leBytes 2 p ++ satBytes 2 least)
  let s := if (settingN s 0x2800 5 : Int) ≤ ((centre : Int) - baseCode s bucket).natAbs then
      raise (urge s g p) 0x2804 (leBytes 1 g ++ leBytes 2 p ++ leBytes 1 centre ++ leBytes 1 bucket)
    else s
  if good then s else raise (urge s g p) 0x2806 (leBytes 1 g ++ leBytes 2 p)

/-- Regions the Retouch engine visits (R222). -/
def visitedRegions (s : State) (g : Nat) : List Nat :=
  let x := groupOf s g
  (heldRegions { x with move := none } ++ x.journals).filter (fun p =>
    !regionFenced s g p && (match x.move with
    | some m => p != m.src && p != m.dst
    | none => true))

/-- A region is urgent (R223). -/
def urgentRegion (s : State) (g p : Nat) : Bool :=
  (groupOf s g).urgent.contains p || decide (sweepPeriod s g ≤ visitAge s g p) || (driftOf s g p).st

/-- The region of the largest visit age, then the lowest index (R222). -/
def oldestRegion (s : State) (g : Nat) (ps : List Nat) : Option Nat :=
  ps.foldl (fun best p =>
    match best with
    | none => some p
    | some b =>
      let a := visitAge s g p
      let v := visitAge s g b
      if v < a ∨ (v = a ∧ p < b) then some p else best) none

/-- Rotation and Retouch run in this state (R371, R379, R380): Active, Test, or Recovery with region state loaded. -/
def enginesOn (s : State) : Bool :=
  match s.sys.dev with
  | .active | .test => s.sys.memoryActive
  | .recovery => s.sys.memoryActive && s.sys.anchorsLoaded
  | _ => false

/-- An engine of a group can work on the medium: the state lets it, the group is awake, not fenced and not held. -/
def engineRuns (s : State) (g : Nat) : Bool :=
  enginesOn s && groupAwake s g && !(groupOf s g).fenced && !(groupOf s g).staleHold

/-- The Retouch engine's next region (R222). -/
def nextRegion (s : State) (g : Nat) : Option Nat :=
  let all := visitedRegions s g
  let urgent := all.filter (urgentRegion s g)
  oldestRegion s g (if urgent = [] then all else urgent)

/-- Paced Retouch work may start (R387): deep sleep is not enabled for the group, or its maintenance wake runs. -/
def pacedRuns (s : State) (g : Nat) : Bool :=
  !bitOf (settingN s 0x3000 5) g || tabGet dBool s.thermal.maintenance g

/-- REGION_PASS (R220 step 1, R222): the engine takes a region and pushes its record. Deep reads come first; a region that is
not urgent waits for its quota (R387). -/
def execRegionPass (group : Group) (s : State) : Host.Outcome State Fault Refusal :=
  let g := group.val
  let x := groupOf s g
  if engineRuns s g ∧ x.pass.isNone ∧ x.deepReads = [] ∧ journalRoom s g 1 then
    match nextRegion s g with
    | some p =>
      if pacedRuns s g || urgentRegion s g p then
        .next (jqPush (modGroup s g (fun x => { x with pass := some { region := p } })) g (retouchUnits false p 0))
      else .next s
    | none => .next s
  else .next s

/-- SWATCH_MEASUREMENT_DONE (R217 to R219): the 36 reads of the region of the pass are in; `lost` tells that its drift entry
was uncorrectable. -/
def execSwatchMeasurementDone (group : Group) (errs : List Codeword) (lost : Bool) (s : State) :
    Host.Outcome State Fault Refusal :=
  let g := group.val
  match (groupOf s g).pass with
  | some w =>
    if w.measured then .next s
    else
      let s := if lost then driftLost s g w.region else s
      .next (modGroup (measureRegion s g w.region errs) g (fun x =>
        { x with pass := x.pass.map (fun w => { w with measured := true }) }))
  | none => .next s

/-- A tile's content with the current epoch, payload, MAC and version unchanged (R44, R41). -/
def renewed (s : State) (t : TileId) (content : List Byte) (poison : Bool) : List Byte :=
  rsEncode (tileContent (addressField t) (payloadOf content) (macOf content) (versionOf content) (epochByte s) poison)

/-- The shifted reads of a deep read (R215): the first code that gives a good or poison tile, with the reads it took. -/
def deepAttempts : List Codeword → State → TileId → Place → Nat → Nat → State × TileRead × Nat
  | _, s, _, _, n, 0 => (s, .failed [], n)
  | errs, s, t, pl, n, fuel + 1 =>
    let e := takeErased s pl.group pl.addrs
    let d := readTile e.1 t pl (errs.headD 0) e.2
    match d.2 with
    | .good _ _ | .poison _ _ => (d.1, d.2, n + 1)
    | _ => deepAttempts errs.tail d.1 t pl (n + 1) fuel

/-- The poison entry a tile's line has becomes permanent; metadata tiles are never listed. -/
def tilePermanent (s : State) (t : TileId) : State :=
  match t with
  | .host l => poisonPermanent s l
  | _ => s

/-- What the check of a tile's MAC needs stands in the Palette (R10, R192): the counter tile of a sealed line, the parent of a
counter tile or node. Under the ephemeral key no tile of a range can be checked. -/
def authReady (s : State) (t : TileId) : Bool :=
  ephemeralState s || (match t with
    | .host l => !sealedLine s l || (paletteData s (.counter (counterIndex s l))).isSome
    | .counter _ | .node _ _ => (parentReady s t).isSome
    | _ => true)

/-- Looks up what the check of a tile's MAC needs (R192). -/
def askAuth (s : State) (t : TileId) : State :=
  match t with
  | .host l => lookupPath s l
  | .counter _ | .node _ _ =>
    match (parentOf t).1 with
    | some p => (palLookup s 3 p).1
    | none => s
  | _ => s

/-- The state after a good tile's MAC or version check failed (R10, R192, R200); none where it stands. -/
def authFails (s : State) (t : TileId) (content : List Byte) : Option State :=
  if ephemeralState s then none
  else
    match t with
    | .host l =>
      match checkLine s l content with
      | .badMac => some (lineCheckFailed s l 5 false none)
      | .badVersion => some (lineCheckFailed s l 5 true none)
      | _ => none
    | .counter _ | .node _ _ =>
      match parentReady s t with
      | some k => if metaVerifies s t content k.1 k.2 then none else some (metaMacFailed s t)
      | none => none
    | _ => none

/-- A deep read of tile `t` (R51 steps 3 and 4): written by `program` recovered, or as poison; a recovered tile that fails its
check takes R200 (R10). The state, and the age of the tile rewritten. -/
def deepReadWith (program : State → List Byte → State) (s : State) (t : TileId) (pl : Place) (errs : List Codeword) :
    State × Option Nat :=
  let a := leBytes 8 (addressField t)
  let threshold := (latchNow s).2
  let r := deepAttempts errs s t pl 0 16
  match r.2.1 with
  | .good content errors =>
    match authFails r.1 t content with
    | some s => (s, none)
    | none =>
      let s := nominateAfter (program r.1 (renewed r.1 t content false)) pl errors true true threshold
      let s := match t with
        | .host l => poisonRemove s l
        | _ => s
      (raise (bumpCodec s pl.group 0x0B 1) 0x2102 (a ++ leBytes 1 r.2.2), some (ageOf s (epochOf content)))
  | .poison content errors =>
    let s := nominateAfter (program r.1 (renewed r.1 t content true)) pl errors false true threshold
    (raise (tilePermanent s t) 0x2103 (a ++ leBytes 1 4), some (ageOf s (epochOf content)))
  | _ =>
    let s := bumpCodec (program r.1 (poisonCode r.1 t 0)) pl.group 0x0D 1
    (raise (tallyAdd (tilePermanent s t) 190) 0x2103 (a ++ leBytes 1 0), none)

/-- A deep read that writes the tile in place; a region with no valid measurement is measured first, with `swatch` as the patterns
of those reads (R215). -/
def deepRead (s : State) (t : TileId) (pl : Place) (swatch errs : List Codeword) : State × Option Nat :=
  let s := match pl.slot with
    | some (p, _) => if (driftOf s pl.group p).mv then s else measureRegion s pl.group p swatch
    | none => s
  deepReadWith (fun s code => engineProgram s pl code) s t pl errs

/-- The copy of a tile on the die is newer: the line is dirty in the Easel, or the metadata line in the Palette (R15, R220). -/
def tileDirty (s : State) : TileId → Bool
  | .host l => lineDirty s l
  | t =>
    match paletteFind s (paletteKey t) with
    | some w => (palWay s w).dirty || (palWay s w).back
    | none => false

/-- An uncorrectable drift entry met at a place's region (R219). -/
def driftMet (s : State) (pl : Place) (lost : Bool) : State :=
  match pl.slot with
  | some (p, _) => if lost then driftLost s pl.group p else s
  | none => s

/-- A Glaze unit in flight or a page re-encryption holds the tile's line, or a destage or writeback of it runs: its region is held
by that unit (R14). -/
def tileInFlight (s : State) (t : TileId) : Bool :=
  (match t with
   | .host l => s.easel.flights.any (fun f => f.line == l)
   | _ => false)
  || s.palette.writes.any (fun w => w.tile == t)

/-- The region is held by a Glaze unit in flight or a page re-encryption (R14). -/
def unitInRegion (s : State) (t : TileId) : Bool :=
  match t with
  | .host l => unitHolds s l || (groupOf s (counterIndex s l % 8)).pages.any (fun j => j.ready && j.codes.any (fun e => e.1 == l))
  | _ => false

/-- DEEP_READ (R215, R51, R53): the oldest tile queued. Where the region has no valid measurement it is measured first, with
`swatch` as the patterns of those reads; `lost` tells that its drift entry was uncorrectable. A tile whose line is dirty is left to
its destage. -/
def execDeepRead (group : Group) (swatch : RegionReads) (errs : List Codeword) (s : State) : Host.Outcome State Fault Refusal :=
  let g := group.val
  match (groupOf s g).deepReads with
  | [] => .next s
  | t :: rest =>
    if engineRuns s g = false then .next s
    else
      let dropped := modGroup s g (fun x => { x with deepReads := rest })
      if tileDirty s t then .next dropped
      else
        match placeOf s t with
        | none => .next dropped
        | some pl =>
          if placeReady s pl = false then .next (askRemap s 3 pl)
          else if authReady s t = false then .next (askAuth s t)
          else if tileInFlight s t || unitInRegion s t then .next s
          else .next (deepRead (driftMet dropped pl swatch.entryLost) t pl swatch.patterns errs).1

/-- The journal tile a slot of a journal region holds, by the sequence number its payload carries (R84). -/
def journalTileAt (s : State) (g p slot : Nat) : Option TileId :=
  match decodeAt s g (slotAddrs s g p slot) (erasedColumns s g (some (p, slot))) 0 with
  | .corrected symbols _ _ =>
    let t : TileId := .journal g (numAt symbols 0 8)
    if classify t (symbols.take 80) = 2 then none else some t
  | .failure => none

/-- The tile at a progress offset of a pass, with its place (R220 steps 3 and 4); a journal tile whose slot gives none is one of
the sequence number its slot stands for. -/
def passTile (s : State) (g p x : Nat) : Option (TileId × Place) :=
  if 1048576 ≤ x then
    let t : TileId := .remap g p (x - 1048576)
    (placeOf s t).map (fun pl => (t, pl))
  else if (groupOf s g).journals.contains p then
    if p = (groupOf s g).journals.headD 0 ∧ (groupOf s g).journalSlot ≤ x then none
    else if p = (groupOf s g).journals.headD 0 then
      some (.journal g ((groupOf s g).journalSeq - (groupOf s g).journalSlot + x), placeSlot s g p x)
    else (journalTileAt s g p x).map (fun t => (t, placeSlot s g p x))
  else
    let slot := slotIn s g p x
    (tileAt s g p slot).map (fun t => (t, placeSlot s g p slot))

/-- A tile that Retouch has rewritten at or above the age limit is late: counted, and recorded once in a pass (R223). -/
def lateTile (s : State) (g : Nat) (w : PassRec) (age : Nat) : State :=
  if ageLimit s g ≤ age then
    let s := bump s (0x2810 + g) 0x0C 1
    if w.late then s
    else
      raise (modGroup s g (fun x => { x with pass := x.pass.map (fun w => { w with late := true }) })) 0x2805
        (leBytes 1 g ++ leBytes 2 w.region ++ leBytes 1 age ++ leBytes 1 (ageLimit s g))
  else s

/-- What Retouch does with a tile it has read (R220 step 3, R10, R41, R44): rewritten with the current epoch where it is due. -/
def retouchContent (s : State) (g : Nat) (w : PassRec) (t : TileId) (pl : Place) (content : List Byte) (poison : Bool) : State :=
  let age := ageOf s (epochOf content)
  if 1 ≤ age ∨ (driftOf s g w.region).st then
    lateTile (bump (engineProgram s pl (renewed s t content poison)) (0x2810 + g) 7 1) g w age
  else s

/-- One tile of a pass (R220): skipped, left, rewritten, or read deeply. The first 36 patterns of `deep` are those of a
measurement that the deep read needs first. -/
def retouchTile (s : State) (g : Nat) (w : PassRec) (t : TileId) (pl : Place) (errs deep : List Codeword) : State :=
  let held := match pl.slot with
    | some (p, slot) => slotHeld s g p slot
    | none => false
  if tileDirty s t || held then bump s (0x2810 + g) 8 1
  else
    let d := engineRead s t pl errs
    match d.2.1 with
    | .good content _ => (authFails d.1 t content).getD (retouchContent d.1 g w t pl content false)
    | .poison content _ => retouchContent d.1 g w t pl content true
    | _ =>
      let measured := decide ((driftOf s g w.region).mv)
      let r := deepRead (unreadableEvent d.1 t g d.2.2) t pl deep (if measured then deep else deep.drop 36)
      match r.2 with
      | some age => lateTile r.1 g w age
      | none => r.1

/-- End of a pass's offsets: the remap table tiles follow while HR is set (R220 step 4). -/
def passEnd (s : State) (g p : Nat) : Nat :=
  if (regionOf s g p).hr then 1048592 else 1048576

/-- A pass moves on by one offset, with a record after every 65,536 (R220 step 5). -/
def passAdvance (s : State) (g : Nat) (w : PassRec) : State :=
  let next := w.offset + 1
  let s := modGroup s g (fun x => { x with pass := x.pass.map (fun w => { w with offset := next }) })
  if next % 65536 = 0 ∧ next < 1048576 then jqPush s g (retouchUnits false w.region next) else s

/-- RETOUCH_REWRITE (R220 steps 3 to 5): one RET locked sequence at the pass's next offset; `errs` holds the patterns of its
reads, `deep` those of a deep read; `lost` tells that the region's drift entry was uncorrectable (R219). Queued deep reads go first
(R51); a tile that a Glaze unit or a page re-encryption holds waits (R14), and so does one whose remap table tile or counter is
not in the Palette. -/
def execRetouchRewrite (group : Group) (errs : List Codeword) (deep : RegionReads) (s : State) : Host.Outcome State Fault Refusal :=
  let g := group.val
  match (groupOf s g).pass with
  | none => .next s
  | some w =>
    if w.measured = false ∨ engineRuns s g = false ∨ passEnd s g w.region ≤ w.offset ∨ journalRoom s g 1 = false
        ∨ (groupOf s g).deepReads ≠ [] ∨ regionFenced s g w.region then .next s
    else
      let s := if deep.entryLost then driftLost s g w.region else s
      .next (match passTile s g w.region w.offset with
        | some (t, pl) =>
          if remapReady s pl = false then askRemap s 3 pl
          else if tileDirty s t = false ∧ authReady s t = false then askAuth s t
          else if tileInFlight s t || unitInRegion s t then s
          else passAdvance (retouchTile s g w t pl errs deep.patterns) g w
        | none => passAdvance s g w)

/-- Regions with ST set in a group. -/
def staleCount (s : State) (g : Nat) : Nat :=
  ((groupOf s g).drift.filter (fun e => e.2.st)).length

/-- [2800.0A] stale regions of the device. -/
def staleRegions (s : State) : Nat :=
  (List.range 8).foldl (fun n g => n + staleCount s g) 0

/-- REGION_PASS_CLOSE (R220 step 6): swatch tiles, Visit, ST, the end record; the last stale region ends the catch-up
(R228). -/
def execRegionPassClose (group : Group) (s : State) : Host.Outcome State Fault Refusal :=
  let g := group.val
  match (groupOf s g).pass with
  | none => .next s
  | some w =>
    if w.measured = false ∨ w.offset < passEnd s g w.region ∨ engineRuns s g = false ∨ journalRoom s g 1 = false then .next s
    else
      let p := w.region
      let was := (driftOf s g p).st
      let s := writeSwatch s g p
      let s := modDrift s g p (fun d =>
        { d with visit := s.path.epoch % 256, st := false, mv := d.mv && !was })
      let s := modGroup s g (fun x => { x with pass := none, urgent := x.urgent.filter (· != p) })
      let s := jqPush (bump s (0x2810 + g) 6 1) g (retouchUnits true p w.offset)
      .next (if was && staleRegions s == 0 then
          raise s 0x2802 (satBytes 4 ((s.sys.time - s.path.catchUpAt) / 64000000000))
        else s)

/-- MOVE_SWATCH_WRITE (R224): the swatch tiles of a move's destination, at the group's next RET grant. -/
def execMoveSwatchWrite (group : Group) (s : State) : Host.Outcome State Fault Refusal :=
  let g := group.val
  match (groupOf s g).swatchDue with
  | [] => .next s
  | p :: rest =>
    if engineRuns s g then
      let s := modGroup (writeSwatch s g p) g (fun x => { x with swatchDue := rest })
      .next (modDrift s g p (fun d => { d with visit := s.path.epoch % 256 }))
    else .next s

/-- The effect of the Retouch statistics clear (R231). -/
def retouchClear (s : State) : State :=
  clearStatsAt (clearStatsAt s 0x2810 8 6 5) 0x2810 8 0x0C 1

/-- RETOUCH_STATISTICS_CLEAR (R231). -/
def execRetouchStatisticsClear (via : Via) (s : State) : Host.Outcome State Fault Refusal :=
  .next (served s via 0x2800 0x0B [1] (fun _ s => .ok (retouchClear s)))

end Sys2Proof.Machine
end

