-- ==== Sys2Proof/Machine/Rotate.lean ====
section
/-! DEFINITION. Machine/Rotate.lean: the rotation engine of a group: gap steps (R72 to R74), region moves for swap, march and
retirement (R75 to R77, R80), patch remaps (R45, R83), and the translation object (R87). -/

namespace Sys2Proof.Machine

/-- The logical region mapped to a physical region. -/
def logicalOf (s : State) (g p : Nat) : Option Nat :=
  ((groupOf s g).table.find? (fun e => e.2.mapped && e.2.phys == p)).map (·.1)

/-- Spares of a channel the engine has taken (R83). -/
def sparesOf (s : State) (g c : Nat) : Nat :=
  tabGet dNat (groupOf s g).spares c

/-- Takes a channel's next spare (R83): events at 90 % of the pool and at its end. -/
def takeSpare (s : State) (g c : Nat) : State :=
  let n := sparesOf s g c + 1
  let s := modGroup s g (fun x => { x with spares := tabSet dNat x.spares c n })
  let pool := sparePool s g
  let s := if 9 * pool ≤ 10 * n ∧ 10 * (n - 1) < 9 * pool then raise s 0x2204 (leBytes 1 (8 * g + c) ++ satBytes 4 n) else s
  if n = pool then raise s 0x2205 (leBytes 1 (8 * g + c)) else s

/-- A column's channel has no spare left. -/
def sparesGone (s : State) (g c : Nat) : Bool :=
  decide (sparePool s g ≤ sparesOf s g c)

/-- The remap table tile of a slot cannot take an entry for (slot, column): its eight entries are valid, none of them this
one's (R80). -/
def remapFull (s : State) (g p slot c : Nat) : Bool :=
  let payload := remapPayload s g p (slot % 16)
  (remapEntry payload slot c).isNone && (List.range 8).all (fun i => bitOf (numAt payload (8 * i) 8) 63)

/-- The remap table tile with the entry for (slot, column) set to a spare (R81, R83): an entry of that pair is overwritten. -/
def remapWith (payload : List Byte) (slot c spare : Nat) : List Byte :=
  let place := match remapEntry payload slot c with
    | some (i, _) => i
    | none => ((List.range 8).find? (fun i => !bitOf (numAt payload (8 * i) 8) 63)).getD 0
  let entry := 2 ^ 63 + c * 2 ^ 60 + slot * 2 ^ 39 + spare
  (List.range 8).flatMap (fun i => if i = place then leBytes 8 entry else bytesAt payload (8 * i) 8)

/-- The remap table tile a remap changes: the region's own, or, while its HR is clear, as the medium has it since the group's
preparation (R81); all zero where that cannot be read. -/
def remapBase (s : State) (g p k : Nat) : State × List Byte :=
  if (regionOf s g p).hr then (s, remapPayload s g p k)
  else
    let m := readMeta s (.remap g p k)
    (m.1, m.2.elim zeroPayload lineBytes)

/-- Commits a remap (R83 steps 2 and 3): the record, the entry in the Palette copy, HR, and the table tile's write. -/
def remapCommit (s : State) (g p slot c spare : Nat) (patch : Patch) : State :=
  let s := bump (storePatch s (8 * g + c) (spareBase s g + spare) patch) 0x2916 (8 * g + c + 1) 1
  let s := jqPush (filterMark s g p slot) g (remapUnits c p slot)
  let t : TileId := .remap g p (slot % 16)
  let r := remapBase s g p (slot % 16)
  let s := palPut r.1 2 t (some (lineOf (remapWith (padTo 64 r.2) slot c spare))) false
  let s := palSelectSome (modRegion s g p (fun r => { r with hr := true })) (paletteFind s (paletteKey t))
  raise s 0x2201 (leBytes 1 g ++ leBytes 1 c ++ leBytes 2 p ++ leBytes 3 slot ++ leBytes 4 spare)

/-- R80 declines a retirement: the patch stays in place. -/
def declineRetirement (s : State) (g p slot c : Nat) : State :=
  raise s 0x2203 (leBytes 1 g ++ leBytes 2 p ++ leBytes 3 slot ++ leBytes 1 c)

/-- R80: a region whose patch cannot be remapped is retired, unless the free list is at its floor. A region that holds nothing that
could be moved keeps its patch. -/
def retireRegion (s : State) (g p slot c : Nat) : State :=
  let moved := match (groupOf s g).move with
    | some m => m.dst == p
    | none => false
  if (groupOf s g).free.length ≤ 8 ∨ ((logicalOf s g p).isNone ∧ moved = false) then declineRetirement s g p slot c
  else if (groupOf s g).retiring.any (fun j => j.region == p) then s
  else modGroup s g (fun x => { x with retiring := x.retiring ++ [{ column := c, region := p, slot := slot }] })

/-- A spare's own program has failed (R83): it stays consumed, and a record with slot field 0x1F_FFFF accounts for it. -/
def spareFailed (s : State) (g p c : Nat) : State :=
  jqPush s g (remapUnits c p 0x1FFFFF)

/-- Remaps a patch within the work in progress (R74, R83): `fails` spares fail before one programs. With no spare or no entry left
the region is retired and the patch stays in place. The state, and whether it was remapped. -/
def remapNow : Nat → State → Nat → Nat → Nat → Nat → Patch → State × Bool
  | 0, s, g, p, slot, c, patch =>
    if sparesGone s g c || remapFull s g p slot c then (retireRegion s g p slot c, false)
    else (remapCommit (takeSpare s g c) g p slot c (sparesOf s g c) patch, true)
  | n + 1, s, g, p, slot, c, patch =>
    if sparesGone s g c || remapFull s g p slot c then (retireRegion s g p slot c, false)
    else remapNow n (spareFailed (takeSpare s g c) g p c) g p slot c patch

/-- Remaps every failed column of a program at a slot, with the event of R74 for each patch that was; `fails` says how many spares
fail for each of these columns, lowest first. -/
def remapFailed (s : State) (g p slot : Nat) (code : List Byte) (failed : Byte) (fails : List (Fin 8)) : State :=
  let cols := (maskColumns failed).filter (fun c => !columnLost s g c)
  ((List.range cols.length).map (fun i => (cols.getD i 0, (fails.getD i 0).val))).foldl (fun s e =>
    let r := remapNow e.2 s g p slot e.1 (patchOfSymbols code e.1)
    if r.2 then raise r.1 0x2206 (leBytes 1 g ++ leBytes 1 e.1 ++ leBytes 2 p ++ leBytes 3 slot) else r.1) s

/-- Journal records that a work with failed programs may push beside its own. -/
def remapRecords (failed : Byte) (fails : List (Fin 8)) : Nat :=
  (maskColumns failed).length + fails.foldl (fun n f => n + f.val) 0

/-- The codeword a move programs for a tile it reads (R44): as it was with the current epoch, or a poison tile. -/
def movedCode (s : State) (g : Nat) (t : TileId) (pl : Place) (errs : List Codeword) : State × List Byte :=
  let d := engineRead s t pl errs
  match d.2.1 with
  | .good content _ => (d.1, renewed d.1 t content false)
  | .poison content _ => (d.1, renewed d.1 t content true)
  | _ =>
    let s := unreadableEvent d.1 t g d.2.2
    (bumpCodec s g 0x0D 1, poisonCode s t 0)

/-- The first of two places whose remap table tile the Palette lacks is looked up (R82). -/
def askRemaps (s : State) (a b : Place) : State :=
  if remapReady s a then askRemap s 2 b else askRemap s 2 a

/-- GAP_STEP (R72): the locked sequence of the first queued region that is not moving. `errs` holds the patterns of its reads. -/
def execGapStep (group : Group) (errs : List Codeword) (s : State) : Host.Outcome State Fault Refusal :=
  let g := group.val
  let x := groupOf s g
  let moving := fun (p : Nat) => match x.move with
    | some m => m.src == p || m.dst == p
    | none => false
  match x.steps.find? (fun p => !moving p && !regionFenced s g p) with
  | none => .next s
  | some p =>
    let r := regionOf s g p
    let src := if r.gap = 0 then 1048576 else r.gap - 1
    let t := tileAt s g p src
    let busy : Bool := match t with
      | some t => tileInFlight s t || unitInRegion s t
      | none => false
    if x.gapJob.isSome ∨ engineRuns s g = false ∨ slotHeld s g p src ∨ busy then .next s
    else if (remapReady s (placeSlot s g p src) && remapReady s (placeSlot s g p r.gap)) = false then
      .next (askRemaps s (placeSlot s g p src) (placeSlot s g p r.gap))
    else
      let s := modGroup s g (fun x => { x with steps := x.steps.erase p })
      let d := match t with
        | some t => movedCode s g t (placeSlot s g p src) errs
        | none => (s, [])
      .next (modGroup d.1 g (fun x => { x with gapJob := some { region := p, src := src, dst := r.gap, code := d.2 } }))

/-- GAP_STEP_COMMIT (R72, R74): the program at the destination is complete; `failed` names the columns where it failed, whose
patches go to spares. -/
def execGapStepCommit (group : Group) (failed : ProgramFailure) (s : State) : Host.Outcome State Fault Refusal :=
  let g := group.val
  match (groupOf s g).gapJob with
  | none => .next s
  | some j =>
    let pl := placeSlot s g j.region j.dst
    if remapReady s pl = false then .next (askRemap s 2 pl)
    else if journalRoom s g (1 + remapRecords failed.columns failed.spares) then
      let s := if j.code = [] then s
        else remapFailed (programAt s pl j.code) g j.region j.dst j.code failed.columns failed.spares
      let s := modRegion s g j.region (fun r =>
        let start := if r.gap = 0 then (r.start + 1) % 1048576 else r.start
        { r with start := start, gap := j.src,
                 heat := if j.src % 16 = 0 ∧ r.heat < 255 then r.heat + 1 else r.heat })
      let s := jqPush s g [stepUnit j.region]
      .next (bump (modGroup s g (fun x => { x with gapJob := none })) (0x2210 + g) 7 1)
    else .next s

/-- Begins a move of logical region `x` to `d` (R76 step 1). -/
def moveBegin (s : State) (g kind x d partner : Nat) : State :=
  let src := (tabGet dEntry (groupOf s g).table x).phys
  let key := drawn s 16
  let md := (regionOf s g src).md
  let rb := match (groupOf s g).stale with
    | some c => columnLost s g c
    | none => false
  let s := modRegion (afterDraw s) g d (fun r =>
    { r with start := 0, gap := 1048576, count := 0, key := key, heat := 0, owner := x, md := md, sw := true, rt := false,
             fr := false, rb := rb })
  let s := modGroup s g (fun y => { y with
    table := tabMod dEntry y.table x (fun e => { e with moving := true }),
    move := some { kind := kind, logical := x, src := src, dst := d, partner := partner } })
  jqPush s g (moveBeginUnits (kind == 4) x d key)

/-- Takes the head of the free list. -/
def takeFree (s : State) (g : Nat) : Option (Nat × State) :=
  match (groupOf s g).free with
  | [] => none
  | d :: rest => some (d, modGroup s g (fun x => { x with free := rest }))

/-- Begins the oldest retirement (R80): declined where the free list has come to its floor since. -/
def beginRetirement (s : State) (g : Nat) : State :=
  match (groupOf s g).retiring with
  | [] => s
  | j :: rest =>
    let s := modGroup s g (fun x => { x with retiring := rest })
    if (groupOf s g).free.length ≤ 8 then declineRetirement s g j.region j.slot j.column
    else
      match logicalOf s g j.region, takeFree s g with
      | some x, some (d, s) => moveBegin s g 4 x d 0
      | _, _ => s

/-- The logical region of the highest Heat, the first at or after the hot pointer (R75). -/
def hottest (s : State) (g : Nat) : Option Nat :=
  let n := logicalCount s g
  let x := groupOf s g
  ((List.range n).map (fun i => (x.hot + i) % n)).foldl (fun best l =>
    let e := tabGet dEntry x.table l
    if e.mapped then
      match best with
      | none => some l
      | some b =>
        if (regionOf s g (tabGet dEntry x.table b).phys).heat < (regionOf s g e.phys).heat then some l else best
    else best) none

/-- Key of group `g`'s swap heat threshold among the values in force. -/
def swapKey (g : Nat) : Nat :=
  256 * 0x2210 + 0x40 + g

/-- The swap heat threshold of group `g` in the interval in progress (R87). -/
def swapThreshold (s : State) (g : Nat) : Nat :=
  (tabGet (fun _ => none) s.sys.inForce (swapKey g)).getD (settingN s 0x2200 4)

/-- A swap interval of group `g` is in progress: a new one begins only after the swap's or march's moves have ended (R75). -/
def inInterval (s : State) (g : Nat) : Bool :=
  match (groupOf s g).move with
  | none => true
  | some m => m.kind == 4

/-- A write of [2200.04] applies from the next interval: a group in an interval keeps the present value until that ends
(R87). -/
def keepSwap (s : State) : State :=
  { s with sys := { s.sys with inForce := ((List.range 8).filter (inInterval s)).foldl (fun t g =>
      tabSet (fun _ => none) t (swapKey g) (some (swapThreshold s g))) s.sys.inForce } }

/-- The next interval of group `g` begins under the setting as it stands (R87). -/
def takeSwap (s : State) (g : Nat) : State :=
  { s with sys := { s.sys with inForce := tabSet (fun _ => none) s.sys.inForce (swapKey g) none } }

/-- The work of a swap interval's end (R75): the hottest region changes places with the one under the cold pointer, or marches,
by the threshold the interval ran under. -/
def swapMove (s : State) (g threshold : Nat) : State :=
  let n := logicalCount s g
  let x := groupOf s g
  match hottest s g, takeFree s g with
  | some h, some (d, s') =>
    let c := if x.cold % n = h then (h + 1) % n else x.cold % n
    let heat := (regionOf s g (tabGet dEntry x.table h).phys).heat
    if (tabGet dEntry x.table c).mapped then
      let s := moveBegin s' g (if threshold ≤ heat then 1 else 3) c d h
      modGroup s g (fun x => { x with hot := (h + 1) % n, cold := (c + 1) % n })
    else s
  | _, _ => s

/-- SWAP_INTERVAL (R75): a region to swap or to march; a retirement that waits goes first. The interval that ends ran under its
own threshold (R87). -/
def execSwapInterval (group : Group) (s : State) : Host.Outcome State Fault Refusal :=
  let g := group.val
  let threshold := swapThreshold s g
  let s := takeSwap s g
  if engineRuns s g = false ∨ groupCool s g = false ∨ (groupOf s g).move.isSome ∨ journalRoom s g 1 = false then .next s
  else if (groupOf s g).retiring ≠ [] then .next (beginRetirement s g)
  else .next (swapMove s g threshold)

/-- MOVE_TILE_COPY (R76 step 2): the next tile of the batch, in one locked sequence. `failed` names the columns whose program
failed. With no move in progress a retirement that waits begins. -/
def execMoveTileCopy (group : Group) (errs : List Codeword) (failed : ProgramFailure) (s : State) :
    Host.Outcome State Fault Refusal :=
  let g := group.val
  let s := if (groupOf s g).move.isNone && engineRuns s g && groupCool s g && journalRoom s g 1 then beginRetirement s g else s
  match (groupOf s g).move with
  | none => .next s
  | some m =>
    let x := m.pointer + m.copied
    if 64 ≤ m.copied ∨ engineRuns s g = false ∨ journalRoom s g (1 + remapRecords failed.columns failed.spares) = false
        ∨ regionFenced s g m.src ∨ regionFenced s g m.dst then .next s
    else
      let src := slotIn s g m.src x
      let dst := slotIn s g m.dst x
      let inBatch := (List.range 64).filterMap (fun i => tileAt s g m.src (slotIn s g m.src (m.pointer + i)))
      if inBatch.any (fun t => tileInFlight s t || unitInRegion s t) then .next s
      else if (remapReady s (placeSlot s g m.src src) && remapReady s (placeSlot s g m.dst dst)) = false then
        .next (askRemaps s (placeSlot s g m.src src) (placeSlot s g m.dst dst))
      else
        let s := match tileAt s g m.src src with
          | some t =>
            let d := movedCode s g t (placeSlot s g m.src src) errs
            remapFailed (programAt d.1 (placeSlot d.1 g m.dst dst) d.2) g m.dst dst d.2 failed.columns failed.spares
          | none => s
        .next (modGroup s g (fun x => { x with move := x.move.map (fun m => { m with copied := m.copied + 1 }) }))

/-- What becomes of the source region when a move has ended (R76 step 3). -/
def moveSource (s : State) (g : Nat) (m : MoveRec) : State :=
  if m.kind = 4 then
    let s := modRegion s g m.src (fun r => { r with rt := true, owner := 0 })
    tallyAdd (raise s 0x2202 (leBytes 1 g ++ leBytes 2 m.logical ++ leBytes 2 m.src ++ leBytes 2 m.dst)) 191
  else if m.kind = 1 then moveBegin s g 2 m.partner m.src 0
  else
    let s := modRegion s g m.src (fun r => { r with fr := true, owner := 0, rb := false })
    modGroup s g (fun x => { x with free := x.free ++ [m.src] })

/-- MOVE_END (R76 step 3, R71, R224). -/
def moveEnd (s : State) (g : Nat) (m : MoveRec) : State :=
  let s := modGroup s g (fun x => { x with
    move := none, swatchDue := x.swatchDue ++ [m.dst],
    table := tabMod dEntry x.table m.logical (fun e => { e with moving := false, phys := m.dst }) })
  let s := modRegion (modRegion s g m.src (fun r => { r with count := 0 })) g m.dst (fun r => { r with count := 0, sw := false })
  let s := bump (jqPush s g (moveEndUnits m.logical)) (0x2210 + g) 9 1
  let s := moveSource s g m
  if (groupOf s g).move.isNone && groupCool s g then beginRetirement s g else s

/-- MOVE_BATCH_COMPLETE (R76): the 64 programs are complete. -/
def execMoveBatchComplete (group : Group) (s : State) : Host.Outcome State Fault Refusal :=
  let g := group.val
  match (groupOf s g).move with
  | none => .next s
  | some m =>
    if m.copied = 64 ∧ journalRoom s g 3 then
      let m' := { m with pointer := m.pointer + 64, copied := 0 }
      let s := modGroup s g (fun x => { x with move := some m' })
      let s := jqPush s g (moveProgressUnits m.logical m'.pointer)
      .next (if 1048576 ≤ m'.pointer then moveEnd s g m' else s)
    else .next s

/-- The corrected codeword of a tile as it stands, with its own epoch (R45), and whether it is a poison tile; with the retries made
where it gives none. -/
def correctedCode (s : State) (t : TileId) (pl : Place) (errs : List Codeword) : State × Option (List Byte × Bool) × Nat :=
  let d := engineRead s t pl errs
  match d.2.1 with
  | .good content _ => (d.1, some (rsEncode content, false), d.2.2)
  | .poison content _ => (d.1, some (rsEncode content, true), d.2.2)
  | _ => (d.1, none, d.2.2)

/-- A remap's job from the corrected codeword (R41, R45): the patch of its column; of a poison tile the whole codeword is renewed
with the current epoch. -/
def remapJobOf (s : State) (t : TileId) (j : RemapJob) (code : List Byte) (poison : Bool) (spare : Nat) : RemapJob :=
  let code' := if poison then renewed s t (code.take 80) true else code
  { j with spare := some spare, patch := patchOfSymbols code' j.column, code := if poison then code' else [] }

/-- PATCH_REMAP (R45, R83, R74): the oldest nomination; the patch from the corrected codeword goes to a spare. A tile that
cannot be decoded drops the nomination and follows R51; a nomination with no spare or no entry retires the region. -/
def execPatchRemap (group : Group) (errs : List Codeword) (s : State) : Host.Outcome State Fault Refusal :=
  let g := group.val
  let x := groupOf s g
  match x.nominations with
  | [] => .next s
  | j :: rest =>
    let dropped := modGroup s g (fun x => { x with nominations := rest })
    let pl := placeSlot s g j.region j.slot
    if x.remapJob.isSome ∨ engineRuns s g = false ∨ slotHeld s g j.region j.slot ∨ regionFenced s g j.region then .next s
    else if columnLost s g j.column then .next dropped
    else if remapReady s pl = false then .next (askRemap s 2 pl)
    else if sparesGone s g j.column || remapFull s g j.region j.slot j.column then
      .next (retireRegion dropped g j.region j.slot j.column)
    else
      match tileAt s g j.region j.slot with
      | none => .next dropped
      | some t =>
        if tileInFlight s t || unitInRegion s t then .next s
        else
          let d := correctedCode dropped t pl errs
          match d.2.1 with
          | none => .next (engineUnreadable d.1 t g d.2.2)
          | some (code, poison) =>
            let n := sparesOf d.1 g j.column
            .next (modGroup (takeSpare d.1 g j.column) g (fun x => { x with remapJob := some (remapJobOf d.1 t j code poison n) }))

/-- PATCH_REMAP_COMMIT (R83): the spare program is complete, or has failed: then the spare stays consumed and the work begins
again with the next one. -/
def execPatchRemapCommit (group : Group) (failed : Bool) (s : State) : Host.Outcome State Fault Refusal :=
  let g := group.val
  match (groupOf s g).remapJob with
  | none => .next s
  | some j =>
    let pl := placeSlot s g j.region j.slot
    if remapReady s pl = false then .next (askRemap s 2 pl)
    else if journalRoom s g 1 then
      let s := modGroup s g (fun x => { x with remapJob := none })
      if failed then
        .next (modGroup (spareFailed s g j.region j.column) g (fun x =>
          { x with nominations := { j with spare := none, patch := 0, code := [] } :: x.nominations }))
      else
        let s := if j.code = [] then s
          else storeColumns s g pl.addrs j.code ((liveColumns s g).filter (· != j.column))
        .next (remapCommit s g j.region j.slot j.column (j.spare.getD 0) j.patch)
    else .next s

/-- The results of a translation (R87): group, physical region, slot, patch address, remap mask. -/
def translation (s : State) (dpa : Nat) : Option (List Nat) :=
  match placeOf s (.host (dpa / 64)) with
  | some pl =>
    match pl.slot with
    | some (p, slot) =>
      let base := regionBase s pl.group p + slot
      let mask := (List.range 8).foldl (fun m c => m + 2 ^ c * bnat (pl.addrs.getD c 0 != base)) 0
      some [pl.group, p, slot, base, mask]
    | none => none
  | none => none

/-- The effect of a write to [2231.01] (R87). -/
def translateWrite (s : State) (dpa : Nat) : Except Nat State :=
  (translation s dpa).elim (.error 0x2201) (fun r => .ok (setSetting { s with path := { s.path with translated := r } } 0x2231 1 dpa))

/-- TRANSLATE_DPA (R87). -/
def execTranslateDpa (via : Via) (dpa : BitVec 64) (s : State) : Host.Outcome State Fault Refusal :=
  .next (served s via 0x2231 1 (leBytes 8 dpa.toNat) (fun _ s => translateWrite s dpa.toNat))

end Sys2Proof.Machine
end

