-- ==== Sys2Proof/Machine/Channel.lean ====
section
/-! DEFINITION. Machine/Channel.lean: the Jetre channel interface (R232 to R258): what a stack does with a command frame, what
the block does with the stack's events, the state of each channel, its training and return, and the maintenance windows. A
stack command takes its frame's bits 47..4 below the opcode as `fields`: bits 43..0 of the frame. -/

namespace Sys2Proof.Machine

/-- Reset values of the mode registers (R247); identity and serial are the factory's (log entry 14). -/
def dMode (r : Nat) : Nat :=
  if r = 0 then 0x5B20 else if r = 4 then 0x005F else if r = 5 then 0x0033 else 0

/-- What an unlisted bank is: idle. -/
def dBank : Nat → BankRec := fun _ => {}

/-- Mode register `r` of a stack. -/
def modeReg (s : State) (ch r : Nat) : Nat :=
  tabGet dMode (channelOf s ch).regs r

/-- Sets a mode register. -/
def setModeReg (s : State) (ch r v : Nat) : State :=
  modChannel s ch (fun x => { x with regs := tabSet dMode x.regs r (v % 65536) })

/-- A bank of a stack. -/
def bankOf (s : State) (ch b : Nat) : BankRec :=
  tabGet dBank (channelOf s ch).banks b

/-- Changes a bank. -/
def modBank (s : State) (ch b : Nat) (f : BankRec → BankRec) : State :=
  modChannel s ch (fun x => { x with banks := tabMod dBank x.banks b f })

/-- Patch address of a bank and an in-bank index (R236). -/
def stackAddr (bank index : Nat) : Nat :=
  index * 256 + bank

/-- In-bank indices of a stack (R236), from its type nibble. -/
def stackIndices (s : State) (ch : Nat) : Nat :=
  if bitsOf (modeReg s ch 0) 7 4 = 2 then 2 ^ 27 else 2 ^ 26

/-- Ones among the low `n` bits of a number. -/
def onesCount : Nat → Nat → Nat
  | 0, _ => 0
  | n + 1, v => v % 2 + onesCount n (v / 2)

/-- An event frame of ALERT_N (R245): type, field and even parity. -/
def alertFrame (kind field : Nat) : Nat :=
  let f := kind * 512 + field * 2
  f + onesCount 12 f % 2

/-- The stack sends an event. -/
def sendEvent (s : State) (ch kind field : Nat) : State :=
  emit s (.alert ch (alertFrame kind field))

/-- The 48 bits of a frame hold an even number of ones (R234). -/
def frameEven (op : Nat) (fields : BitVec 44) : Bool :=
  (onesCount 4 op + onesCount 44 fields.toNat) % 2 == 0

/-- Bank field, bits 43..36. -/
def frameBank (fields : BitVec 44) : Nat :=
  bitsOf fields.toNat 43 36

/-- In-bank index, bits 35..9. -/
def frameIndex (fields : BitVec 44) : Nat :=
  bitsOf fields.toNat 35 9

/-- The stack takes frames: its channel is not parked (R254) and it is not in power-down (R257). -/
def stackHears (s : State) (ch : Nat) : Bool :=
  !(channelOf s ch).parked && !(channelOf s ch).powerDown

/-- The six beats of a frame (R234). -/
def frameBeats (op : Nat) (fields : BitVec 44) : List Byte :=
  (List.range 6).map (fun b => BitVec.ofNat 8 ((op * 2 ^ 44 + fields.toNat) / 2 ^ (40 - 8 * b)))

/-- A stack takes a frame (R237, R240, R247, R251, R257): in power-down or after a fault stop it executes nothing; in CA echo
mode the beats come back; a frame that is malformed or breaks a bank rule is a frame error with the bank it names. `ok` holds
for a frame whose reserved fields, index and bank are as the rules allow. -/
def takeFrame (s : State) (ch op : Nat) (fields : BitVec 44) (bank : Nat) (ok : Bool) (run : State → State) : State :=
  let x := channelOf s ch
  if x.parked ∨ x.powerDown then s
  else
    let s := if x.training = some 0 then emit s (.burst ch (frameBeats op fields)) else s
    if frameEven op fields && ok && (!x.stopped || op == 6) then run s else sendEvent s ch 3 bank

/-- The pattern of read-pattern mode (R251). -/
def patternBytes : List Byte :=
  [0x00, 0xFF, 0x55, 0xAA, 0x96, 0x69, 0x00, 0xFF, 0x55, 0xAA, 0x96, 0x69]

/-- The twelve bytes of a patch. -/
def patchBytes (p : Patch) : List Byte :=
  (List.range 12).map (fun i => (p >>> (8 * i)).setWidth 8)

/-- What a read of a stack returns (R237, R251): the pattern, the loopback register, or the stored patch as sensed. -/
def senseBytes (s : State) (ch bank index : Nat) (err : Patch) : List Byte :=
  match (channelOf s ch).training with
  | some 1 => patternBytes
  | some 2 => patchBytes (channelOf s ch).loopback
  | _ => patchBytes (tabGet dPatch s.path.medium (patchKey ch (stackAddr bank index)) ^^^ err)

/-- A read of a bank: the index is latched and the burst goes out, its first beat tRD after the frame; until then the bank takes
nothing (R235, R237, R240, R242). -/
def stackRead (s : State) (ch bank index : Nat) (err : Patch) : State :=
  let s := emit s (.burst ch (senseBytes s ch bank index err))
  modBank s ch bank (fun b => { b with latched := some index, readUntil := s.sys.time + 45 * 64 })

/-- The bank runs a read whose first DQ beat is not sent yet (R240). -/
def bankReading (s : State) (ch bank : Nat) : Bool :=
  decide (s.sys.time < (bankOf s ch bank).readUntil)

/-- RD (R237, R240): `err` is what the sensing at the reference code changes. -/
def execRd (channel : Channel) (fields : BitVec 44) (err : Patch) (s : State) : Host.Outcome State Fault Refusal :=
  let ch := channel.val
  let bank := frameBank fields
  let i := frameIndex fields
  let ok := decide (bitsOf fields.toNat 2 1 = 0) && decide (i < stackIndices s ch) && (bankOf s ch bank).running.isNone
    && !bankReading s ch bank
  .next (takeFrame s ch 1 fields bank ok (fun s => stackRead s ch bank i err))

/-- SRD (R239): only on the index the bank's last RD or SRD latched. -/
def execSrd (channel : Channel) (fields : BitVec 44) (err : Patch) (s : State) : Host.Outcome State Fault Refusal :=
  let ch := channel.val
  let bank := frameBank fields
  let i := frameIndex fields
  let b := bankOf s ch bank
  let ok := decide (bitsOf fields.toNat 2 1 = 0) && decide (i < stackIndices s ch) && b.running.isNone
    && (b.latched == some i) && !bankReading s ch bank
  .next (takeFrame s ch 2 fields bank ok (fun s => stackRead s ch bank i err))

/-- A stack takes a program (R237, R243, R251): a check that fails is a write-CRC event and starts nothing; in loopback mode the
bytes go into the register. -/
def stackProgram (s : State) (ch bank index check : Nat) (data : Patch) : State :=
  let prog : BankProg := { index := index, data := data }
  if (crc8 (patchBytes data)).toNat ≠ check then
    sendEvent (modBank s ch bank (fun b => { b with refused := some prog })) ch 4 bank
  else if (channelOf s ch).training = some 2 then modChannel s ch (fun x => { x with loopback := data })
  else
    modChannel (modBank s ch bank (fun b => { b with running := some prog, latched := none, refused := none })) ch (fun x =>
      { x with reissues := tabSet dNat x.reissues bank 0 })

/-- PRG (R237, R240): `data` is the burst one slot after the frame. -/
def execPrg (channel : Channel) (fields : BitVec 44) (data : Patch) (s : State) : Host.Outcome State Fault Refusal :=
  let ch := channel.val
  let bank := frameBank fields
  let i := frameIndex fields
  let fits := decide (i < stackIndices s ch)
  let ok := fits && (bankOf s ch bank).running.isNone && !bankReading s ch bank
  let s := if frameEven 3 fields && ok || !fits || !stackHears s ch then s
    else modBank s ch bank (fun b => { b with refused := some { index := i, data := data } })
  .next (takeFrame s ch 3 fields bank ok (fun s => stackProgram s ch bank i (bitsOf fields.toNat 8 1) data))

/-- SUS (R240): the bank's running program is suspended. -/
def execSus (channel : Channel) (fields : BitVec 44) (s : State) : Host.Outcome State Fault Refusal :=
  let ch := channel.val
  let bank := frameBank fields
  let b := bankOf s ch bank
  let ok := decide (bitsOf fields.toNat 35 1 = 0) && b.running.isSome && b.suspended.isNone
    && !bankReading s ch bank
  .next (takeFrame s ch 4 fields bank ok (fun s =>
    modBank s ch bank (fun b => { b with suspended := b.running, running := none, latched := none })))

/-- RSM (R240): the bank's suspended program runs again. -/
def execRsm (channel : Channel) (fields : BitVec 44) (s : State) : Host.Outcome State Fault Refusal :=
  let ch := channel.val
  let bank := frameBank fields
  let b := bankOf s ch bank
  let ok := decide (bitsOf fields.toNat 35 1 = 0) && b.suspended.isSome && b.running.isNone
    && !bankReading s ch bank
  .next (takeFrame s ch 5 fields bank ok (fun s =>
    modBank s ch bank (fun b => { b with running := b.suspended, suspended := none, latched := none })))

/-- The burst of a mode register read (R247): value, complement, zeros. -/
def mrrBytes (v : Nat) : List Byte :=
  leBytes 2 v ++ leBytes 2 (65535 - v) ++ [0, 0, 0, 0, 0, 0, 0, 0]

/-- The value a mode register read returns: register 0x03 holds what the stack's sensor shows. -/
def mrrValue (s : State) (ch r : Nat) (temperature : Byte) : Nat :=
  if r = 3 then temperature.toNat else modeReg s ch r

/-- A stack's mode register read; FaultStatus is cleared by it (R247). -/
def stackMrr (s : State) (ch r : Nat) (temperature : Byte) : State :=
  let s := emit s (.burst ch (mrrBytes (mrrValue s ch r temperature)))
  if r = 0x0D then setModeReg s ch 0x0D 0 else s

/-- MRR (R247): `temperature` is what the stack's sensor shows. -/
def execMrr (channel : Channel) (fields : BitVec 44) (temperature : Byte) (s : State) : Host.Outcome State Fault Refusal :=
  let ch := channel.val
  let r := frameBank fields
  let ok := decide (bitsOf fields.toNat 35 1 = 0) && decide (r < 0x0F)
  .next (takeFrame s ch 6 fields 0xFF ok (fun s => stackMrr s ch r temperature))

/-- The bits of a mode register that a write reaches (R247); 0 for a read-only one. -/
def modeMask (r : Nat) : Nat :=
  if r = 4 ∨ r = 5 then 0xFF else if r = 6 ∨ r = 7 then 0x3F else if 8 ≤ r ∧ r ≤ 0x0B then 0x3F3F
  else if r = 0x0E then 0x0F else 0

/-- MRW (R247): a write to a read-only register changes nothing (log entry 30). -/
def execMrw (channel : Channel) (fields : BitVec 44) (s : State) : Host.Outcome State Fault Refusal :=
  let ch := channel.val
  let r := frameBank fields
  let ok := decide (bitsOf fields.toNat 19 1 = 0) && decide (r < 0x0F)
  .next (takeFrame s ch 7 fields 0xFF ok (fun s =>
    if modeMask r = 0 then s else setModeReg s ch r (bitsOf fields.toNat 35 20 &&& modeMask r)))

/-- The fields of a CAL frame with its sub-operation in bits 43..40 (R237). -/
def calFields (sub : Nat) (low : BitVec 40) : BitVec 44 :=
  BitVec.ofNat 44 (sub * 2 ^ 40 + low.toNat)

/-- A CAL frame: its sub-operation is one of the three, and every bit below it but the parity bit is zero (R237). -/
def takeCal (s : State) (ch sub : Nat) (low : BitVec 40) (run : State → State) : State :=
  takeFrame s ch 8 (calFields sub low) 0xFF (decide (sub < 3) && decide (bitsOf low.toNat 39 1 = 0)) run

/-- CAL_ZQ (R237, R251): the stack calibrates its impedance in the background; the channel's last ZQ is at its present temperature.
The top four of its 44 bits are 0, or one of the reserved sub-operations 3 to 15, which is a frame error. -/
def execCalZq (channel : Channel) (fields : BitVec 44) (s : State) : Host.Outcome State Fault Refusal :=
  let top := fields.toNat / 2 ^ 40
  let sub := if top < 3 then 0 else top
  .next (takeCal s channel.val sub (fields.setWidth 40) (fun s => modChannel s channel.val (fun x => { x with zqTemp := x.temp })))

/-- The training mode register 0x0E selects: 0 CA echo, 1 read pattern, 2 write loopback, 3 ALERT_N pattern (R247). -/
def selectedMode (s : State) (ch : Nat) : Option Nat :=
  let v := modeReg s ch 0x0E
  (List.range 4).find? (fun i => v == 2 ^ i)

/-- CAL_TRAINING_ENTRY (R251): the mode register 0x0E selects; none where it selects none. -/
def execCalTrainingEntry (channel : Channel) (low : BitVec 40) (s : State) : Host.Outcome State Fault Refusal :=
  .next (takeCal s channel.val 1 low (fun s =>
    modChannel s channel.val (fun x => { x with training := selectedMode s channel.val })))

/-- CAL_TRAINING_EXIT (R251). -/
def execCalTrainingExit (channel : Channel) (low : BitVec 40) (s : State) : Host.Outcome State Fault Refusal :=
  .next (takeCal s channel.val 2 low (fun s => modChannel s channel.val (fun x => { x with training := none })))

/-- Every bank of a stack is idle (R240). -/
def stackIdle (s : State) (ch : Nat) : Bool :=
  (channelOf s ch).banks.all (fun b => b.2.running.isNone && b.2.suspended.isNone && decide (b.2.readUntil ≤ s.sys.time))

/-- PDE (R237, R240, R257). -/
def execPde (channel : Channel) (fields : BitVec 44) (s : State) : Host.Outcome State Fault Refusal :=
  let ch := channel.val
  .next (takeFrame s ch 9 fields 0xFF (decide (bitsOf fields.toNat 43 1 = 0) && stackIdle s ch) (fun s =>
    modChannel s ch (fun x => { x with powerDown := true })))

/-- PDX (R237, R257): the one frame a stack in power-down executes. -/
def execPdx (channel : Channel) (fields : BitVec 44) (s : State) : Host.Outcome State Fault Refusal :=
  let ch := channel.val
  let ok := decide (bitsOf fields.toNat 43 1 = 0)
  if (channelOf s ch).parked then .next s
  else if (channelOf s ch).powerDown then
    .next (if ok && frameEven 10 fields then modChannel s ch (fun x => { x with powerDown := false }) else s)
  else .next (takeFrame s ch 10 fields 0xFF ok (fun s => s))

/-- The stack's events reach the block: the channel is not parked and its stack not in power-down (R254, R257). -/
def eventsHeard (s : State) (ch : Nat) : Bool :=
  !(channelOf s ch).parked && !(channelOf s ch).powerDown

/-- Counts a channel error towards the limit of R253. -/
def channelError (s : State) (ch : Nat) : State :=
  modChannel s ch (fun x => { x with errors := x.errors + 1 })

/-- A frame error counted (R245). -/
def countFrameError (s : State) (ch : Nat) : State :=
  channelError (bump s 0x2919 (ch + 1) 1) ch

/-- A place has its patch of column `c` in bank `b`, at address `a` where that is known. -/
def inBank (c b : Nat) (a : Option Nat) (addrs : List Nat) : Bool :=
  addrs.getD c 0 % 256 == b && a.all (fun x => x == addrs.getD c 0)

/-- A program of a group as the stacks may report on it: where it lies and what it writes. -/
structure OpenProgram where
  /-- physical region and slot, if any -/
  slot : Option (Nat × Nat)
  /-- patch address in each column -/
  addrs : List Nat
  /-- codeword -/
  code : List Byte
  /-- its frames are out -/
  sent : Bool := true
  /-- a write-through program (R165, R173) -/
  through : Bool := false
  deriving DecidableEq, Repr

/-- A place's program. -/
def openAt (pl : Place) (code : List Byte) (sent through : Bool) : OpenProgram :=
  { slot := pl.slot, addrs := pl.addrs, code := code, sent := sent, through := through }

/-- Destages of a group whose programs run. -/
def openDestages (s : State) (g : Nat) : List OpenProgram :=
  s.easel.flights.filterMap (fun f =>
    match linePlace s f.line with
    | some pl => if pl.group = g then some (openAt pl f.code f.sent f.through.isSome) else none
    | none => none)

/-- Palette writebacks of a group whose programs run. -/
def openWritebacks (s : State) (g : Nat) : List OpenProgram :=
  s.palette.writes.filterMap (fun w =>
    match w.pl with
    | some pl => if pl.group = g then some (openAt pl w.code w.sent w.arrival.isSome) else none
    | none => none)

/-- Rewritten lines of a group whose programs run: those of Glaze units and of pages under re-encryption. -/
def openLines (s : State) (g : Nat) : List OpenProgram :=
  let codes := (s.crypt.glaze.units.filter (fun u => u.lane == g)).flatMap (·.codes)
    ++ ((groupOf s g).pages.filter (·.ready)).flatMap (·.codes)
  codes.filterMap (fun e => (linePlace s e.1).map (fun pl => openAt pl e.2 true false))

/-- Programs of a group that run: destages, writebacks, rewritten lines, the gap step, journal tiles, and the engines' last programs
within the time-out of R244. A spare program stands apart (`spareAt`). -/
def openPrograms (s : State) (g : Nat) : List OpenProgram :=
  let x := groupOf s g
  openDestages s g ++ openWritebacks s g ++ openLines s g
    ++ (match x.gapJob with
        | some j => if j.code = [] then [] else [openAt (placeSlot s g j.region j.dst) j.code true false]
        | none => [])
    ++ x.journalOut.map (fun t => { slot := none, addrs := List.replicate 8 t.addr, code := t.code, sent := t.sent })
    ++ (x.engineOut.filter (fun e => decide (s.sys.time < e.issued + 1210 * 64))).map (fun e =>
        { slot := e.slot, addrs := e.addrs, code := e.code })

/-- Programs of a group in a bank of a column. -/
def programsIn (s : State) (g c b : Nat) : List OpenProgram :=
  (openPrograms s g).filter (fun p => inBank c b none p.addrs)

/-- A spare program that runs there. -/
def spareAt (s : State) (g c b : Nat) : Option RemapJob :=
  match (groupOf s g).remapJob with
  | some j => if j.column = c ∧ (spareBase s g + j.spare.getD 0) % 256 = b then some j else none
  | none => none

/-- A program of the group is outstanding in bank `b` of a channel; while a checkpoint runs its anchor tiles are. -/
def groupProgram (s : State) (ch b : Nat) : Bool :=
  let g := ch / 8
  let c := ch % 8
  !(programsIn s g c b).isEmpty || (spareAt s g c b).isSome || (groupOf s g).checkpoint.isSome

/-- A program into a suspended bank has ended: the RSM waits for it no longer (R241, R244). -/
def secondEnded (s : State) (ch b : Nat) : State :=
  modGroup s (ch / 8) (fun x => { x with arb := { x.arb with resumes := x.arb.resumes.map (fun r =>
    if r.column = ch % 8 ∧ r.bank = b then { r with second := none } else r) } })

/-- The program of a bank is complete (R244): the patch holds the data and the bank is idle. -/
def stackDone (s : State) (ch bank : Nat) : State :=
  match (bankOf s ch bank).running with
  | some p =>
    let s := storePatch s ch (stackAddr bank p.index) p.data
    modChannel (modBank s ch bank (fun b => { b with running := none })) ch (fun x =>
      { x with reissues := tabSet dNat x.reissues bank 0 })
  | none => s

/-- DONE_EVENT (R244, R245): the program of that bank is complete; with none outstanding the event is a frame error. -/
def execDoneEvent (channel : Channel) (bank : Byte) (s : State) : Host.Outcome State Fault Refusal :=
  let ch := channel.val
  let b := bank.toNat
  if eventsHeard s ch = false then .next s
  else if (bankOf s ch b).running.isSome then .next (secondEnded (stackDone s ch b) ch b)
  else if groupProgram s ch b then .next (secondEnded s ch b)
  else .next (countFrameError s ch)

/-- PROGRAM_COMPLETE_TIMEOUT (R244): tPG maximum and 10 ns have passed with no fail event. -/
def execProgramCompleteTimeout (channel : Channel) (bank : Byte) (s : State) : Host.Outcome State Fault Refusal :=
  .next (secondEnded (stackDone s channel.val bank.toNat) channel.val bank.toNat)

/-- The region and slot a patch address of a group lies at, if any. -/
def slotAt (s : State) (g addr : Nat) : Option (Nat × Nat) :=
  if regionArea s g ≤ addr ∧ addr < spareBase s g then
    some ((addr - regionArea s g) / 1048581, (addr - regionArea s g) % 1048581)
  else none

/-- Remaps the patch of a failed program at a slot, with the event of R74 where a spare took it. -/
def failRemap (s : State) (g c p slot : Nat) (patch : Patch) : State :=
  let r := remapNow 0 s g p slot c patch
  if r.2 then raise r.1 0x2206 (leBytes 1 g ++ leBytes 1 c ++ leBytes 2 p ++ leBytes 3 slot) else r.1

/-- A patch whose content is undefined (R243). -/
def undefinePatch (s : State) (ch addr : Nat) : State :=
  let s := storePatch s ch addr (Config.freePatch s.path.frees)
  { s with path := { s.path with frees := s.path.frees + 1 } }

/-- Acknowledgements that wait for a program at these addresses include its spare program (R166). -/
def markSpares (s : State) (g c b : Nat) (a : Option Nat) : State :=
  { s with
    easel := { s.easel with flights := s.easel.flights.map (fun f =>
      match linePlace s f.line with
      | some pl => if pl.group = g ∧ inBank c b a pl.addrs then { f with spare := true } else f
      | none => f) },
    palette := { s.palette with writes := s.palette.writes.map (fun w =>
      match w.pl with
      | some pl => if pl.group = g ∧ inBank c b a pl.addrs then { w with spare := true } else w
      | none => w) } }

/-- A spare program fails (R83): it stays consumed, and the next spare is taken; with none left the region is retired. -/
def spareProgramFailed (s : State) (g c : Nat) (j : RemapJob) : State :=
  let s := spareFailed s g j.region c
  if sparesGone s g c then retireRegion (modGroup s g (fun x => { x with remapJob := none })) g j.region j.slot c
  else
    let n := sparesOf s g c
    modGroup (takeSpare s g c) g (fun x => { x with remapJob := some { j with spare := some n } })

/-- Writebacks in flight go to the patches that a slot has now (R82). -/
def placeWrites (s : State) (g p slot : Nat) : State :=
  { s with palette := { s.palette with writes := s.palette.writes.map (fun w =>
      match w.pl with
      | some pl => if pl.group = g ∧ pl.slot = some (p, slot) then { w with pl := some (placeSlot s g p slot) } else w
      | none => w) } }

/-- A program of the group fails in one column (R74, R83, R166): the patch of that column goes to a spare before the work ends, and
where its tile is in the medium already its old content is undefined. `a` is the patch address where the stack tells it. -/
def groupFail (s : State) (g c b : Nat) (a : Option Nat) : State :=
  match (programsIn s g c b).find? (fun p => inBank c b a p.addrs) with
  | some p =>
    let s := markSpares s g c b (some (p.addrs.getD c 0))
    let landed := (groupOf s g).engineOut.any (fun e => e.addrs == p.addrs && e.code == p.code)
    let s := if landed then undefinePatch s (8 * g + c) (p.addrs.getD c 0) else s
    match p.slot with
    | some (r, slot) =>
      if slot ≤ 1048580 then placeWrites (failRemap s g c r slot (patchOfSymbols p.code c)) g r slot else s
    | none => s
  | none =>
    match spareAt s g c b with
    | some j => spareProgramFailed s g c j
    | none => s

/-- The running program of a bank itself fails (R243, R244): the patch content is then undefined, the bank is idle, and the
patch is remapped. -/
def stackFail (s : State) (ch bank : Nat) (p : BankProg) : State :=
  let addr := stackAddr bank p.index
  let s := undefinePatch s ch addr
  let s := modBank s ch bank (fun b => { b with running := none, refused := none })
  let g := ch / 8
  let c := ch % 8
  if (programsIn s g c bank).any (fun q => inBank c bank (some addr) q.addrs) then groupFail s g c bank (some addr)
  else
    match spareAt s g c bank with
    | some j => if spareBase s g + j.spare.getD 0 = addr then spareProgramFailed s g c j else s
    | none =>
      match slotAt s g addr with
      | some (r, slot) => failRemap s g c r slot p.data
      | none => s

/-- A program fails on a channel (R243, R246). -/
def programFailed (s : State) (ch bank : Nat) : State :=
  let s := bump s 0x2917 (ch + 1) 1
  let s := secondEnded (modChannel s ch (fun x => { x with reissues := tabSet dNat x.reissues bank 0 })) ch bank
  match (bankOf s ch bank).running with
  | some p => stackFail s ch bank p
  | none =>
    match (bankOf s ch bank).refused with
    | some p => stackFail s ch bank p
    | none => groupFail s (ch / 8) (ch % 8) bank none

/-- FAIL_EVENT (R244): counted by the stack and by the block; with no program outstanding the event is a frame error. -/
def execFailEvent (channel : Channel) (bank : Byte) (s : State) : Host.Outcome State Fault Refusal :=
  let ch := channel.val
  let b := bank.toNat
  if eventsHeard s ch = false then .next s
  else if (bankOf s ch b).running.isSome || groupProgram s ch b then
    .next (programFailed (setModeReg s ch 0x0C (min 65535 (modeReg s ch 0x0C + 1))) ch b)
  else .next (countFrameError s ch)

/-- A read whose transfer failed: its column is erased for it (R54). -/
def eraseRead (s : State) (ch bank : Nat) : State :=
  modChannel s ch (fun x => { x with erased := x.erased ++ [bank] })

/-- READ_ERROR_EVENT (R245). -/
def execReadErrorEvent (channel : Channel) (bank : Byte) (s : State) : Host.Outcome State Fault Refusal :=
  let ch := channel.val
  if eventsHeard s ch = false then .next s
  else .next (eraseRead (channelError (bump s 0x2918 (ch + 1) 1) ch) ch bank.toNat)

/-- A command frame with its parity bit (R234). -/
def caBits (op body : Nat) : Nat :=
  let v := op * 2 ^ 44 + body
  v + onesCount 48 v % 2

/-- The body of a frame that names a patch address (R237). -/
def addrBody (addr : Nat) : Nat :=
  (addr % 256) * 2 ^ 36 + (addr / 256 % 2 ^ 27) * 2 ^ 9

/-- The PRG frame of a patch, its check in bits 8..1 (R237, R238). -/
def programFrame (addr : Nat) (p : Patch) : Nat :=
  caBits 3 (addrBody addr + (crc8 (patchBytes p)).toNat * 2)

/-- A refused program is reissued with its data on that channel alone, up to the limit; the next refusal is a program failure of the
column (R246). -/
def reissueProgram (s : State) (ch bank : Nat) : State :=
  let n := tabGet dNat (channelOf s ch).reissues bank
  if n < settingN s 0x2900 4 then
    let s := modChannel s ch (fun x => { x with reissues := tabSet dNat x.reissues bank (n + 1) })
    let b := bankOf s ch bank
    match b.refused with
    | some p =>
      if b.running.isNone then
        let s := emit (emit s (.caFrame ch (programFrame (stackAddr bank p.index) p.data))) (.burst ch (patchBytes p.data))
        modBank s ch bank (fun b => { b with running := some p, refused := none, latched := none })
      else s
    | none => s
  else programFailed s ch bank

/-- A frame that is neither a read nor a program goes out on a channel; it is kept for one reissue (R245). -/
def sendFrame (s : State) (ch bits : Nat) : State :=
  modGroup (emit s (.caFrame ch bits)) (ch / 8) (fun x => { x with
    sent := tabSet dNat x.sent (ch % 8) (bits + 1), resent := tabSet dBool x.resent (ch % 8) false })

/-- Another frame was refused (R245): it is sent once more; the second refusal, or one with no frame behind it, is counted. -/
def resendFrame (s : State) (ch : Nat) : State :=
  let x := groupOf s (ch / 8)
  let sent := tabGet dNat x.sent (ch % 8)
  if sent = 0 ∨ tabGet dBool x.resent (ch % 8) then
    countFrameError (modGroup s (ch / 8) (fun x => { x with
      sent := tabSet dNat x.sent (ch % 8) 0, resent := tabSet dBool x.resent (ch % 8) false })) ch
  else
    modGroup (emit s (.caFrame ch (sent - 1))) (ch / 8) (fun x => { x with resent := tabSet dBool x.resent (ch % 8) true })

/-- FRAME_ERROR_EVENT (R245): a read is erased and a program reissued, both counted; another frame is reissued once, then counted. -/
def execFrameErrorEvent (channel : Channel) (bank : Byte) (kind : FrameKind) (s : State) :
    Host.Outcome State Fault Refusal :=
  let ch := channel.val
  if eventsHeard s ch = false then .next s
  else
    match kind with
    | .read => .next (eraseRead (countFrameError s ch) ch bank.toNat)
    | .program => .next (reissueProgram (countFrameError s ch) ch bank.toNat)
    | .other => .next (resendFrame s ch)

/-- WRITE_CRC_ERROR_EVENT (R245, R246). -/
def execWriteCrcErrorEvent (channel : Channel) (bank : Byte) (s : State) : Host.Outcome State Fault Refusal :=
  let ch := channel.val
  if eventsHeard s ch = false then .next s
  else .next (reissueProgram (channelError (bump s 0x291A (ch + 1) 1) ch) ch bank.toNat)

/-- A column of a group has become erased in service (R31, R466); with no region state loaded only a fence can follow (R379). -/
def columnErased (s : State) (g c : Nat) : State :=
  if s.sys.memoryActive = false then s
  else if s.sys.anchorsLoaded then staleColumn s g c
  else if (groupErased s g).any (· != c) then fenceGroup s g
  else s

/-- Marks a channel failed (R253, R254): erased and parked, recorded and counted; its column becomes stale (R466). -/
def markFailed (s : State) (ch cause : Nat) : State :=
  if (channelOf s ch).failed then s
  else
    let s := modChannel s ch (fun x =>
      { x with failed := true, cause := cause, state := 3, parked := true, trained := false, temp := none, banks := [] })
    let s := tallyAdd (raise s 0x2901 (leBytes 1 ch ++ leBytes 1 cause)) 159
    columnErased s (ch / 8) (ch % 8)

/-- Marking the channel would give its group a second erased column. -/
def wouldFence (s : State) (ch : Nat) : Bool :=
  (groupErased s (ch / 8)).any (· != ch % 8)

/-- FaultStatus bits that stop a stack (R247, R253). -/
def stopsStack (reg : Nat) : Bool :=
  bitOf reg 0 || bitOf reg 2 || bitOf reg 3

/-- STACK_STATUS_EVENT (R245, R253, R398): status 1 a thermal alert, 2 a fault with register 0x0D as `reg`, 3 temperature
unavailable. -/
def execStackStatusEvent (channel : Channel) (status : Byte) (reg : BitVec 16) (s : State) :
    Host.Outcome State Fault Refusal :=
  let ch := channel.val
  if eventsHeard s ch = false then .next s
  else if status = 1 then
    let s := modChannel s ch (fun x => { x with alert := true })
    let s := { s with thermal := { s.thermal with stackHot := tabSet dBool s.thermal.stackHot (ch / 8) true } }
    let t := match (channelOf s ch).temp with
      | some t => toUnsigned 1 t
      | none => 0x80
    .next (raise s 0x2908 (leBytes 1 ch ++ leBytes 1 t))
  else if status = 2 then
    let s := raise s 0x2907 (leBytes 1 ch ++ leBytes 2 reg.toNat)
    if stopsStack reg.toNat then .next (markFailed (modChannel s ch (fun x => { x with stopped := true })) ch 5) else .next s
  else .next s

/-- CHANNEL_ERROR_WINDOW (R253, R258): a 1 s window ends, judged by the limit in force in it; a channel at the error limit is marked failed unless that would fence its
group. -/
def execChannelErrorWindow (s : State) : Host.Outcome State Fault Refusal :=
  let limit := forceN s 0x2900 5
  .next ((List.range 64).foldl (fun s ch =>
    let x := channelOf s ch
    let s := modChannel s ch (fun x => { x with errors := 0 })
    if x.failed ∨ x.parked ∨ x.errors < limit then s
    else if wouldFence s ch then raise s 0x2906 (leBytes 1 ch ++ satBytes 2 x.errors)
    else markFailed s ch 4) (takeForce s 0x2900 5))

/-- The effect of MARK_CHANNEL_FAILED (R255). -/
def markChannel (s : State) (ch : Nat) : Except Nat State :=
  if (channelOf s ch).failed then .error 0x2903
  else if wouldFence s ch then .error 0x2904
  else .ok (markFailed s ch 6)

/-- MARK_CHANNEL_FAILED (R253, R255): a write to [2900.08]. -/
def execMarkChannelFailed (via : Via) (channel : Byte) (s : State) : Host.Outcome State Fault Refusal :=
  .next (served s via 0x2900 8 [channel] (fun _ s => markChannel s channel.toNat))

/-- A channel return runs (R255, R351). -/
def returnInProgress (s : State) : Bool :=
  s.channels.any (fun e => e.2.returning)

/-- A stack as it leaves reset (R247, R251). -/
def stackReset (s : State) (ch : Nat) : State :=
  modChannel s ch (fun x =>
    { x with
      regs := (x.regs.filter (fun e => e.1 < 3)), banks := [], training := none, loopback := 0, stopped := false,
      powerDown := false, erased := [], reissues := [], trained := false, alert := false, zqTemp := none })

/-- The effect of RETURN_CHANNEL (R255): the channel is trained in full. -/
def returnChannel (s : State) (ch : Nat) : Except Nat State :=
  if (channelOf s ch).failed = false then .error 0x2903
  else if (domainOf s (ch % 8)).phase ≠ .good then .error 0x2905
  else if returnInProgress s || (List.range 8).any (fun k => (domainOf s k).restarting) then .error 0x2906
  else .ok (modChannel (stackReset s ch) ch (fun x => { x with returning := true, state := 6, parked := false }))

/-- RETURN_CHANNEL (R255): a write to [2900.09]. -/
def execReturnChannel (via : Via) (channel : Byte) (s : State) : Host.Outcome State Fault Refusal :=
  .next (served s via 0x2900 9 [channel] (fun _ s => returnChannel s channel.toNat))

/-- A domain's stacks come out of reset and wait for their training (R251 steps 1 to 3). -/
def domainReady (s : State) (k : Nat) : State :=
  let s := modDomain s k (fun x => { x with resetLow := false })
  (List.range 8).foldl (fun s g => stackReset s (8 * g + k)) s

/-- Parks the eight channels of a domain that goes off (R254); a program its stacks were running leaves its patch undefined. A
lost domain makes its column stale in every group (R466). -/
def parkDomain (s : State) (k : Nat) : State :=
  (List.range 8).foldl (fun s g =>
    let ch := 8 * g + k
    let x := channelOf s ch
    let cut := x.banks.flatMap (fun b => (b.2.running.toList ++ b.2.suspended.toList).map (fun p => stackAddr b.1 p.index))
    let s := cut.foldl (fun s a => undefinePatch s ch a) s
    let s := if x.returning then raise s 0x2903 (leBytes 1 ch ++ leBytes 1 0) else s
    let s := modChannel (stackReset s ch) ch (fun x =>
      { x with parked := true, state := if x.failed then 3 else 4, returning := false, temp := none, noTemp := 0 })
    if (domainOf s k).lost ∧ (groupOf s g).stale ≠ some k then columnErased s g k else s) s

/-- CHANNEL_TRAINING (R251): after tINIT the channels of a good domain train; a channel that stays failed stays parked. -/
def execChannelTraining (domain : Column) (s : State) : Host.Outcome State Fault Refusal :=
  let k := domain.val
  if (domainOf s k).phase ≠ .good then .next s
  else
    .next ((List.range 8).foldl (fun s g =>
      let x := channelOf s (8 * g + k)
      if x.failed ∨ x.trained then s else modChannel s (8 * g + k) (fun x => { x with state := 1, parked := false })) s)

/-- Offset of a channel's training record in a parameter copy (R252). -/
def recordAddr (ch : Nat) : Nat :=
  0xA000 + 64 * ch

/-- The training record of a channel (R252). -/
def trainingRecord (s : State) (ch : Nat) : List Byte :=
  tabGetList dImage s.folio.image (recordAddr ch) 64

/-- The stored results of a channel may be used (R252): the policy allows it, the record passes its CRC, and serial number and
type match the stack. -/
def storedUsable (s : State) (ch identity serial : Nat) : Bool :=
  let r := trainingRecord s ch
  settingN s 0x2900 1 == 0 && crcOk r && numAt r 0 4 == serial && bitsOf (numAt r 4 1) 7 4 == bitsOf identity 7 4

/-- The type code of [2911] that an identity spells (R253, R258). -/
def typeCode (identity : Nat) : Nat :=
  if identity / 256 ≠ 0x5B then 0xFE
  else if bitsOf identity 7 4 = 1 then 0 else if bitsOf identity 7 4 = 2 then 1 else 0xFE

/-- The check of a stack's type against its group's (R253): a JT192 stack in a JT384 group is marked failed, a JT384 stack in a
JT192 group is recorded. -/
def typeCheck (s : State) (ch : Nat) : State :=
  let x := channelOf s ch
  let g := (groupOf s (ch / 8)).typ
  if x.stackType = 0 ∧ g = 1 then markFailed s ch 2
  else if x.stackType = 1 ∧ g = 0 then
    raise s 0x2905 (leBytes 1 ch ++ leBytes 2 (modeReg s ch 0) ++ leBytes 1 g)
  else s

/-- Loads a channel's settings into its stack (R251): record bytes 5 to 15 and the alert threshold. -/
def loadSettings (s : State) (ch : Nat) (record : List Byte) : State :=
  let s := setModeReg s ch 5 (numAt record 5 1)
  let s := setModeReg s ch 6 (numAt record 6 1 % 64)
  let s := setModeReg s ch 7 (numAt record 7 1 % 64)
  let s := (List.range 4).foldl (fun s j =>
    setModeReg s ch (8 + j) (numAt record (8 + 2 * j) 1 % 64 + 256 * (numAt record (9 + 2 * j) 1 % 64))) s
  setModeReg s ch 4 (toUnsigned 1 (setting s 0x2900 7))

/-- A training that fails (R253, R255): step 3 without an identity is an absent stack. -/
def trainingFailed (s : State) (ch cause step : Nat) : State :=
  if (channelOf s ch).returning then
    raise (modChannel s ch (fun x => { x with returning := false, state := 3, parked := true })) 0x2903
      (leBytes 1 ch ++ leBytes 1 step)
  else
    let s := markFailed s ch cause
    if cause = 1 then modChannel s ch (fun x => { x with state := 0 }) else s

/-- A channel that has trained is in service (R253, R255): a returned channel's column is rebuilding in every region of its
group. -/
def trainingPassed (s : State) (ch : Nat) : State :=
  let g := ch / 8
  let c := ch % 8
  let back := (channelOf s ch).returning
  let s := modChannel s ch (fun x =>
    { x with trained := true, parked := false, state := 2, training := none, returning := false,
             failed := x.failed && !back, cause := if back then 0 else x.cause })
  if back then
    let s := if (groupOf s g).fenced then s
      else if (groupOf s g).stale = some c then
        modGroup ((heldRegions (groupOf s g)).foldl (fun s p => modRegion s g p (fun r => { r with rb := true })) s) g
          (fun x => { x with rebuild := none, rebuildAt := none })
      else staleColumn s g c
    settleErrors (raise s 0x2902 (leBytes 1 ch))
  else s

/-- Notes how long a training took (R258 [2900.02], table of R251), in units of 100 µs. -/
def noteTraining (s : State) (units : Nat) : State :=
  setStat s 0x2900 2 (if s.sys.dev = .priming then max (stat s 0x2900 2) units else units)

/-- The last training of a restarted domain has ended (R351 step 2): the domain is no longer lost. -/
def domainTrained (s : State) (k : Nat) : State :=
  if (domainOf s k).restarting && (List.range 8).all (fun g => (channelOf s (8 * g + k)).state != 1) then
    settleErrors (modDomain s k (fun x => { x with restarting := false, lost := false }))
  else s

/-- Step 6 of the start-up timeline ends, and step 7 begins, when every channel of a good domain has trained or failed (R361). -/
def trainingStepCheck (s : State) : State :=
  let waits := fun (ch : Nat) =>
    let x := channelOf s ch
    decide ((domainOf s (ch % 8)).phase = .good) && !x.failed && !x.trained
  if s.sys.dev = .priming ∧ s.sys.step = 6 ∧ (List.range 64).any waits = false then beginStep s 7 else s

/-- CHANNEL_TRAINING_COMPLETE (R251 to R253, R255): `identity` and `serial` are what the stack answered; `storedFail` and
`fullFail` name the step of R251 that did not pass with the stored results and in full, 0 for none, and step 3 is an identity
that did not come back; `settings` holds record bytes 5 to 25 as full training chose them. -/
def execChannelTrainingComplete (channel : Channel) (identity : BitVec 16) (serial : BitVec 32) (storedFail fullFail : Fin 9)
    (settings : BitVec 168) (s : State) : Host.Outcome State Fault Refusal :=
  let ch := channel.val
  let x := channelOf s ch
  if ¬(x.state = 1 ∨ x.state = 6) ∨ (domainOf s (ch % 8)).phase ≠ .good then .next s
  else
    let finish (s : State) : Host.Outcome State Fault Refusal := .next (trainingStepCheck (domainTrained s (ch % 8)))
    if fullFail.val = 3 then
      finish (trainingFailed (modChannel s ch (fun x => { x with stackType := 0xFF, serial := 0 })) ch 1 3)
    else
      let id := identity.toNat
      let s := setModeReg (setModeReg (setModeReg s ch 0 id) ch 1 (serial.toNat % 65536)) ch 2 (serial.toNat / 65536)
      let s := modChannel s ch (fun x => { x with stackType := typeCode id, serial := serial.toNat })
      if typeCode id = 0xFE then finish (trainingFailed s ch 2 3)
      else
        let stored := storedUsable s ch id serial.toNat && !x.returning
        if stored ∧ storedFail.val = 0 then
          let s := setStat s 0x2900 3 (((stat s 0x2900 3).toNat ||| 2 ^ ch : Nat) : Int)
          let s := noteTraining (loadSettings s ch (trainingRecord s ch)) 13
          let s := trainingPassed s ch
          finish (if s.sys.memoryActive then typeCheck s ch else s)
        else
          let s := if stored then raise s 0x2904 (leBytes 1 ch ++ leBytes 1 storedFail.val) else s
          let s := noteTraining s (if stored then 147 else 133)
          if fullFail.val ≠ 0 then finish (trainingFailed s ch 3 fullFail.val)
          else
            let body := leBytes 4 serial.toNat ++ leBytes 1 (id % 256) ++ leBytes 21 settings.toNat
            let record := withCrc (padTo 60 body)
            let s := sectionUpdate (imageStore s (recordAddr ch) record) 10
            let s := trainingPassed (loadSettings s ch record) ch
            finish (if s.sys.memoryActive then typeCheck s ch else s)

/-- A channel in service and awake: its stack is clocked and answers (R250). -/
def channelServes (s : State) (ch : Nat) : Bool :=
  let x := channelOf s ch
  x.state == 2 && !x.parked && !x.powerDown && !x.failed

/-- One channel's part of a temperature window (R250): an answer is kept and a move of 10 °C since the last ZQ calls for
another; after two windows without one the die stands in for the stack. -/
def channelTemperature (s : State) (ch : Nat) (answer : Option Byte) : State :=
  if channelServes s ch = false then s
  else
    let value := match answer with
      | some b => if b = 0x80 then none else some (toSigned 1 b.toNat)
      | none => none
    match value with
    | some t =>
      let s := modChannel s ch (fun x => { x with temp := some t, noTemp := 0 })
      match (channelOf s ch).zqTemp with
      | some z => if 10 ≤ (t - z).natAbs then modChannel s ch (fun x => { x with zqTemp := some t }) else s
      | none => modChannel s ch (fun x => { x with zqTemp := some t })
    | none =>
      let n := (channelOf s ch).noTemp + 1
      let s := modChannel s ch (fun x => { x with noTemp := n, temp := if 2 ≤ n then none else x.temp })
      if n = 2 then raise s 0x2909 (leBytes 1 ch) else s

/-- The stack level of a group (R398): 2 at or above [2900.07], left 3 °C below it. -/
def stackLevel (s : State) (g : Nat) : State :=
  let limit := setting s 0x2900 7
  match stackTemp s g with
  | none => s
  | some t =>
    if limit ≤ t then { s with thermal := { s.thermal with stackHot := tabSet dBool s.thermal.stackHot g true } }
    else if t ≤ limit - 3 then
      let s := (List.range 8).foldl (fun s c => modChannel s (8 * g + c) (fun x => { x with alert := false })) s
      { s with thermal := { s.thermal with stackHot := tabSet dBool s.thermal.stackHot g false } }
    else s

/-- TEMPERATURE_WINDOW (R250, R221, R398): one MRR of register 0x03 per channel in service; `answers` holds, by channel, the
byte that came back and verified. -/
def execTemperatureWindow (answers : List (Option Byte)) (s : State) : Host.Outcome State Fault Refusal :=
  let s := (List.range 64).foldl (fun s ch => channelTemperature s ch (answers.getD ch none)) s
  .next ((List.range 8).foldl (fun s g => stackLevel (if s.sys.memoryActive then noteTemps s g else s) g) s)

/-- ZQ_INTERVAL (R250): a CAL ZQ to every channel in service. -/
def execZqInterval (s : State) : Host.Outcome State Fault Refusal :=
  .next ((List.range 64).foldl (fun s ch =>
    if channelServes s ch then modChannel s ch (fun x => { x with zqTemp := x.temp }) else s) s)

/-- The effect of MR_READ (R258): an MRR to the channel of [2920.01]; an answer whose complement fails is discarded and counted
as a read error (R247). -/
def mrRead (s : State) (r : Nat) (temperature : Byte) (verified : Bool) : Except Nat State :=
  let ch := settingN s 0x2920 1
  if (channelOf s ch).state ≠ 2 then .error 0x2905
  else
    let s := setSetting s 0x2920 2 r
    let v := mrrValue s ch r temperature
    let s := if r = 0x0D then setModeReg s ch 0x0D 0 else s
    if verified then .ok (setStat s 0x2920 3 v)
    else .ok (channelError (bump s 0x2918 (ch + 1) 1) ch)

/-- MR_READ (R258): a write to [2920.02]. -/
def execMrRead (via : Via) (register temperature : Byte) (verified : Bool) (s : State) : Host.Outcome State Fault Refusal :=
  .next (served s via 0x2920 2 [register] (fun _ s => mrRead s register.toNat temperature verified))

/-- The effect of a write to [2900.07] (R258): register 0x04 of every channel in service follows. -/
def alertThreshold (s : State) (v : Int) : State :=
  (List.range 64).foldl (fun s ch => if (channelOf s ch).state = 2 then setModeReg s ch 4 (toUnsigned 1 v) else s)
    (setSetting s 0x2900 7 v)

/-- THERMAL_ALERT_THRESHOLD_WRITE (R258): a write to [2900.07]. -/
def execThermalAlertThresholdWrite (via : Via) (value : Byte) (s : State) : Host.Outcome State Fault Refusal :=
  .next (served s via 0x2900 7 [value] (fun _ s => .ok (alertThreshold s (toSigned 1 value.toNat))))

/-- The effect of the channel statistics clear (R258). -/
def channelClear (s : State) : State :=
  clearStatsAt s 0x2915 7 1 64

/-- CHANNEL_STATISTICS_CLEAR (R258): 0x01 written to [2900.0B]. -/
def execChannelStatisticsClear (via : Via) (s : State) : Host.Outcome State Fault Refusal :=
  .next (served s via 0x2900 0x0B [1] (fun _ s => .ok (channelClear s)))

end Sys2Proof.Machine
end

