-- ==== Sys2Proof/Machine/Sleep.lean ====
section
/-! DEFINITION. Machine/Sleep.lean: light and deep sleep of the groups (R18 to R20, R256, R257, R387, R388). -/

namespace Sys2Proof.Machine

/-- Sleep level of a group: 0 awake, 1 light, 2 deep, 3 leaving deep. -/
def sleepOf (s : State) (g : Nat) : Nat :=
  tabGet dNat s.thermal.sleep g

/-- Sets a group's sleep level. -/
def setSleep (s : State) (g n : Nat) : State :=
  { s with thermal := { s.thermal with sleep := tabSet dNat s.thermal.sleep g n } }

/-- A program of the group is not complete, or one is suspended (R256, R388). -/
def groupBusy (s : State) (g : Nat) : Bool :=
  let x := groupOf s g
  s.easel.flights.any (fun f => lineGroup s f.line == g)
    || s.palette.writes.any (fun w => match placeOf s w.tile with
      | some pl => pl.group == g
      | none => false)
    || x.gapJob.isSome || x.remapJob.isSome || !x.journalOut.isEmpty || x.checkpoint.isSome
    || x.pages.any (fun j => j.ready) || s.crypt.glaze.units.any (fun u => u.lane == g)
    || (List.range 8).any (fun c => !stackIdle s (8 * g + c))

/-- A read of the group is outstanding. -/
def groupReading (s : State) (g : Nat) : Bool :=
  s.easel.reads.any (fun e => lineGroup s e.2.line == g)

/-- A requester of the group has a request (R19, R20): a read or a fill, a line to destage or write back, journal words, deep reads,
steps, remaps, pages or an urgent region. -/
def groupWants (s : State) (g : Nat) : Bool :=
  let x := groupOf s g
  let here := fun (t : TileId) => match placeOf s t with
    | some pl => pl.group == g
    | none => false
  groupReading s g || s.palette.misses.any (fun e => e.2.elim false (fun m => here (tileOfKey m.key)))
    || !x.destages.isEmpty || s.palette.selected.any (fun w => here (tileOfKey (palWay s w).key))
    || !(waitingWords s g).isEmpty || x.checkpointDue || !x.deepReads.isEmpty || !x.steps.isEmpty || !x.nominations.isEmpty
    || !x.pages.isEmpty || x.pass.isSome || (visitedRegions s g).any (urgentRegion s g)

/-- Powers the group's non-erased stacks down or up (R257): PDE or PDX on each of them. -/
def stacksDown (s : State) (g : Nat) (down : Bool) : State :=
  (List.range 8).foldl (fun s c =>
    let ch := 8 * g + c
    if columnLost s g c ∨ (channelOf s ch).parked then s
    else
      let op : Nat := if down then 9 else 10
      let s := sendFrame s ch (op * 2 ^ 44 + onesCount 4 op % 2)
      modChannel s ch (fun x =>
        { x with powerDown := down,
                 state := if down ∧ x.state = 2 then 5 else if !down ∧ x.state = 5 then 2 else x.state })) s

/-- DEEP_SLEEP_WAKE (R20, R257): the PLL relocks, CK runs and PDX goes out; the time asleep is counted in ms. -/
def wakeGroup (s : State) (g : Nat) : State :=
  if sleepOf s g = 2 then
    let ms := (s.sys.time - tabGet dNat s.thermal.sleptAt g) / 64000000
    bump (stacksDown (setSleep s g 3) g false) 0x3003 (g + 1) ms
  else s

/-- Wakes every group in deep sleep (R371). -/
def wakeGroups (s : State) : State :=
  (List.range 8).foldl wakeGroup s

/-- LIGHT_SLEEP_ENTRY (R18, R256): 128 slots with no request. -/
def execLightSleepEntry (group : Group) (s : State) : Host.Outcome State Fault Refusal :=
  let g := group.val
  if sleepOf s g = 0 ∧ 128 ≤ (groupOf s g).arb.quiet then .next (setSleep s g 1) else .next s

/-- A group in deep sleep wakes for every requester (R20). -/
def wakeWanted (s : State) : State :=
  if s.thermal.sleep = [] then s
  else (List.range 8).foldl (fun s g => if sleepOf s g = 2 ∧ groupWants s g then wakeGroup s g else s) s

/-- Deep sleep is open to a group (R19, R388): it has no request, and the last one was 10 ms ago. -/
def maySleep (s : State) (g : Nat) : Bool :=
  enginesOn s && !groupWants s g && decide ((groupOf s g).requestAt + 640000000 ≤ s.sys.time) && bitOf (settingN s 0x3000 5) g && decide (sleepOf s g < 2) && !groupBusy s g
    && (groupOf s g).move.isNone && (groupOf s g).stale.isNone && !(groupOf s g).regions.any (fun r => r.2.rb)
    && !tabGet dBool s.thermal.stackHot g

/-- DEEP_SLEEP_ENTRY (R19, R257, R388): 10 ms with no request end. -/
def execDeepSleepEntry (group : Group) (s : State) : Host.Outcome State Fault Refusal :=
  let g := group.val
  if maySleep s g then
    let s := stacksDown (setSleep s g 2) g true
    .next (bump { s with thermal := { s.thermal with
      sleptAt := tabSet dNat s.thermal.sleptAt g s.sys.time,
      maintenance := tabSet dBool s.thermal.maintenance g false } } 0x3002 (g + 1) 1)
  else .next s

/-- DEEP_SLEEP_WAKE (R20, R257). -/
def execDeepSleepWake (group : Group) (s : State) : Host.Outcome State Fault Refusal :=
  .next (wakeGroup s group.val)

/-- DEEP_SLEEP_EXIT_DONE (R257): tXPD after PDX the group serves requests. -/
def execDeepSleepExitDone (group : Group) (s : State) : Host.Outcome State Fault Refusal :=
  if sleepOf s group.val = 3 then .next (setSleep s group.val 0) else .next s

/-- MAINTENANCE_WAKE (R387): a sleeping group wakes for its temperatures, any due ZQ and its Retouch quota; `answers` holds, by
column, the byte that came back and verified. -/
def execMaintenanceWake (group : Group) (answers : List (Option Byte)) (s : State) : Host.Outcome State Fault Refusal :=
  let g := group.val
  if sleepOf s g = 2 then
    let s := wakeGroup s g
    let s := { s with thermal := { s.thermal with maintenance := tabSet dBool s.thermal.maintenance g true } }
    let s := (List.range 8).foldl (fun s c => channelTemperature s (8 * g + c) (answers.getD c none)) s
    .next (stackLevel (if s.sys.memoryActive then noteTemps s g else s) g)
  else .next s

/-- The effect of a write to [3000.05] (R388): a group whose bit it clears wakes. -/
def deepSleepEnable (s : State) (v : Nat) : State :=
  (List.range 8).foldl (fun s g => if bitOf v g then s else wakeGroup s g) (setSetting s 0x3000 5 v)

/-- DEEP_SLEEP_ENABLE_WRITE (R388): a write to [3000.05]. -/
def execDeepSleepEnableWrite (via : Via) (value : Byte) (s : State) : Host.Outcome State Fault Refusal :=
  .next (served s via 0x3000 5 [value] (fun _ s => .ok (deepSleepEnable s value.toNat)))

end Sys2Proof.Machine
end

