-- ==== Sys2Proof/Machine/Cycle.lean ====
section
/-! DEFINITION. Machine/Cycle.lean: what the block follows from cycle to cycle: life used (R475), the health information and
the events its changes post (R295, R296), the mean bus load (R300), the counting cycle of the performance counters (R455), the error register (R438), and the step of a block
with no command waiting (log entry 1). -/

namespace Sys2Proof.Machine

/-- Spares used by a channel, [2220] (R83). -/
def sparesTaken (s : State) (channel : Nat) : Nat :=
  tabGet dNat (groupOf s (channel / 8)).spares (channel % 8)

/-- A share in whole per cent, capped at 100 (R475). -/
def percent (n total : Nat) : Nat :=
  min 100 (100 * n / total)

/-- Program units of W (R475). -/
def wearUnits (s : State) (g : Nat) : Nat :=
  if (groupOf s g).typ = 1 then 23440000 else 11720000

/-- [3300.02] life used by hours (R475). -/
def lifeByHours (s : State) : Nat :=
  percent (tallyValue s 154) 175200

/-- [3300.03] life used by wear (R475). -/
def lifeByWear (s : State) : Nat :=
  (List.range 8).foldl (fun n g => max n (percent (tallyValue s (176 + g)) (wearUnits s g))) 0

/-- [3300.04] life used by spares (R475). -/
def lifeBySpares (s : State) : Nat :=
  (List.range 64).foldl (fun n c => max n (percent (sparesTaken s c) (sparePool s (c / 8)))) 0

/-- Recomputes life used; a crossing of a multiple of 10 % is recorded (R475). -/
def settleLife (s : State) : State :=
  let now := max (lifeByHours s) (max (lifeByWear s) (lifeBySpares s))
  let was := s.sys.lifeUsed
  let s := { s with sys := { s.sys with lifeUsed := now } }
  if was / 10 < now / 10 then raise s 0x3301 (leBytes 1 now) else s

/-- Health Status of a port (R296). -/
def healthStatus (s : State) (p : Nat) : Nat :=
  let x := portOf s p
  let up := decide (2 ≤ x.link ∧ x.link ≤ 4)
  let maintenance := s.easel.wayRecords.any (fun e => bitOf e.2 31 && (bitOf e.2 29 || bitOf e.2 30))
    || (List.range 64).any (fun c => decide (sparePool s (c / 8) * 9 ≤ sparesTaken s c * 10))
    || decide (4 ≤ s.reserve.status) || !s.directory.suspect.isEmpty
  let slow := degraded s || s.reserve.writeThrough || (up && (decide (x.width < 8) || decide (x.rate < 4)))
  let replace := someChannelFailed s || !(lostDomains s).isEmpty
    || (List.range 8).any (fun g => (groupOf s g).fenced)
    || (List.range 64).any (fun c => decide (sparePool s (c / 8) ≤ sparesTaken s c))
  bnat maintenance + 2 * bnat slow + 4 * bnat replace

/-- Media Status (R296): 0 Normal, 1 Not Ready. -/
def mediaStatus (s : State) : Nat :=
  match s.sys.dev with
  | .active | .warn | .varnish | .varnished => 0
  | _ => 1

/-- Health Status, Media Status and Life Used of a port (R296). -/
def healthNow (s : State) (p : Nat) : Nat × Nat × Nat :=
  (healthStatus s p, mediaStatus s, s.sys.lifeUsed)

/-- A change of a port's health fields posts its Memory Module events (R295): 2 health status, 3 media status, 4 life
used. -/
def settleHealth (s : State) (p : Nat) : State :=
  let now := healthNow s p
  let was := (portOf s p).healthSeen
  if now = was then s
  else
    let s := modPort s p (fun x => { x with healthSeen := now })
    let s := if now.1 = was.1 then s else eventPost s p 1 1 2 0
    let s := if now.2.1 = was.2.1 then s else eventPost s p 1 1 3 0
    if now.2.2 = was.2.2 then s else eventPost s p 1 1 4 0

/-- Closes the 10 µs window of the bus load (R300): 8,000 slots of 1.25 ns in each of eight groups. -/
def busRoll (s : State) : State :=
  let w := s.sys.time / 640000
  let x := s.path.busWindow
  if w = x.1 then s
  else
    let load := if w = x.1 + 1 then min 100 (x.2 * 100 / 64000) else 0
    { s with path := { s.path with busLoad := load, busWindow := (w, 0) } }

/-- Slots granted on a group bus. -/
def busUse (s : State) (n : Nat) : State :=
  let s := busRoll s
  { s with path := { s.path with busWindow := (s.path.busWindow.1, s.path.busWindow.2 + n) } }

/-- What follows in every core cycle: the error register, the bus load, life used, the ports' health, and the groups in deep sleep
that a requester wakes. -/
def settle (s : State) : State :=
  let s := wakeWanted (settleLife (busRoll (settleErrors s)))
  (List.range 4).foldl settleHealth s

/-- Destage programs and writebacks that run in a group, on all columns (R244). -/
def programsOut (s : State) (g : Nat) : Nat :=
  (List.range 8).foldl (fun n c => n + ((channelOf s (8 * g + c)).banks.filter
    (fun e => e.2.running.isSome || e.2.suspended.isSome)).length) 0

/-- Palette miss registers of a group whose fill a host request waits for (R263). -/
def hostFills (s : State) (g : Nat) : Nat :=
  (s.palette.misses.filter (fun e => e.2.elim false (fun m => m.cls == 0 && (placeOf s (tileOfKey m.key)).elim false
    (fun pl => pl.group == g)))).length

/-- Members of a group's aged set and its deferred frames (R263, R264): reads, fills for a host read, counter writebacks that a sealed
write-through acknowledgement waits on, write-through destages and the journal tile of a StaleColumn record. -/
def agedMembers (s : State) (g : Nat) : Nat :=
  let x := groupOf s g
  (s.easel.reads.filter (fun e => lineGroup s e.2.line == g)).length + hostFills s g
    + (s.palette.writes.filter (fun w => w.arrival.isSome && w.pl.elim false (fun pl => pl.group == g))).length
    + (x.destages.filter (fun d => d.1 == 1)).length + bnat x.staleRecord.isSome + x.arb.reserved.length

/-- Requesters of a group that have work to present (table of requesters, R259); a fill-through and the maintenance of a channel are
granted with their own rows. -/
def requestersAsking (s : State) (g : Nat) : Nat :=
  let x := groupOf s g
  let here := fun (t : TileId) => (placeOf s t).elim false (fun pl => pl.group == g)
  bnat (groupReading s g)
    + bnat (s.palette.misses.any (fun e => e.2.elim false (fun m => here (tileOfKey m.key)))
      || s.palette.selected.any (fun w => here (tileOfKey (palWay s w).key)))
    + bnat (!x.destages.isEmpty) + bnat (!(waitingWords s g).isEmpty || x.checkpointDue || x.staleRecord.isSome)
    + bnat (!x.pages.isEmpty) + bnat (!x.steps.isEmpty || x.move.isSome || !x.nominations.isEmpty)
    + bnat (!x.deepReads.isEmpty || x.pass.isSome || x.rebuild.isSome || (visitedRegions s g).any (urgentRegion s g))

/-- The occupancy an O event shows (tables of R455). -/
def occupancy (s : State) (b e : Nat) : Nat :=
  if b < 4 then (if e = 0x0B then heldEntries s b else readsInFlight s b)
  else if b < 12 then
    if e = 0x13 then agedMembers s (b - 4)
    else if e = 0x14 then (groupOf s (b - 4)).destages.length
    else if e = 0x15 then requestersAsking s (b - 4)
    else programsOut s (b - 4)
  else if e = 4 then (s.palette.misses.filter (fun x => x.2.isSome)).length
  else if e = 5 then (s.easel.lines.filter (fun x => x.2.dirty)).length
  else if e = 6 then (s.easel.lines.filter (fun x => x.2.merge)).length
  else if e = 8 then (s.directory.entries.filter (fun x => x.2.presence != 0)).length
  else chargedTiles s

/-- Whether a count event that is a condition holds in this cycle. -/
def cycleEvent (s : State) (b e : Nat) : Bool :=
  if b < 4 then e == 1 || (e == 0x0D && decide (64 ≤ heldEntries s b))
  else if b < 12 then
    let sleep := tabGet dNat s.thermal.sleep (b - 4)
    e == 1 || (e == 0x17 && sleep == 1) || (e == 0x18 && decide (2 ≤ sleep))
  else e == 1 || (e == 0x0A && (List.range 4).any (fun p => !(portOf s p).held.isEmpty))
    || (e == 0x0F && decide (2 ≤ s.thermal.level))

/-- One counting cycle of a counter (R455). -/
def perfCycle (s : State) (b n : Nat) : State :=
  let v := eventSelect s b n
  let e := v % 256
  let mode := v / 256
  let i := 8 * b + n
  if e = 0 then s
  else if eventIsOccupancy b e then
    let o := occupancy s b e
    let at0 := settingN s (0x3210 + b) (0x11 + n) ≤ o
    let k := if mode = 0 then o
      else if mode = 1 then bnat at0
      else if mode = 2 then bnat (!at0)
      else bnat (at0 && !tabGet dBool s.perf.above i)
    let s := perfAdvance s b n k
    { s with perf := { s.perf with above := tabSet dBool s.perf.above i at0 } }
  else if mode = 0 && cycleEvent s b e then perfAdvance s b n 1 else s

/-- One core cycle of every block; the groups count one cycle in two (table of counter blocks). -/
def perfTick (s : State) : State :=
  let slot := s.sys.time / 40 % 2 == 0
  (List.range 13).foldl (fun s b =>
    if (decide (4 ≤ b ∧ b < 12)) && !slot then s else (List.range 8).foldl (fun s n => perfCycle s b n) s) s

/-- A step of the block with no command waiting (log entry 1): the time base moves on; while the core PLL runs the
counters see one core cycle and what depends on the state follows it. -/
def tick (s : State) : State :=
  let s := idle s
  if s.sys.corePll then perfTick (settle s) else settleErrors s

end Sys2Proof.Machine
end

