-- ==== Sys2Proof/Machine/Share.lean ====
section
/-! DEFINITION. Machine/Share.lean: the sharing directory and the snoop rounds (R161 to R163, R283 to R291), and a request
to a line from the directory to its bank. Port number 4 stands for Barrow, a requester with no cache (R289). -/

namespace Sys2Proof.Machine

/-- What an unlisted directory entry is. -/
def dDir : Nat → DirEntry := fun _ => {}

/-- Tag of a line (R284). -/
def dirTag (line : Nat) : Nat :=
  line / 2 ^ 21

/-- Set of a line (R284). -/
def dirSet (line : Nat) : Nat :=
  (line % 2 ^ 21) ^^^ (dirTag line * 16)

/-- Entry `e` = 16 × set + way. -/
def dirEntry (s : State) (e : Nat) : DirEntry :=
  tabGet dDir s.directory.entries e

/-- Changes an entry. -/
def modEntry (s : State) (e : Nat) (f : DirEntry → DirEntry) : State :=
  { s with directory := { s.directory with entries := tabMod dDir s.directory.entries e f } }

/-- The line of an entry. -/
def entryLine (s : State) (e : Nat) : Nat :=
  let t := (dirEntry s e).tag
  t * 2 ^ 21 + ((e / 16) ^^^ (t * 16))

/-- The valid entry of a line. -/
def dirFind (s : State) (line : Nat) : Option Nat :=
  ((List.range 16).map (16 * dirSet line + ·)).find? (fun e =>
    let x := dirEntry s e
    x.presence != 0 && x.tag == dirTag line)

/-- A free way of a line's set. -/
def dirFree (s : State) (line : Nat) : Option Nat :=
  ((List.range 16).map (16 * dirSet line + ·)).find? (fun e => (dirEntry s e).presence == 0)

/-- Free ways of a set. -/
def freeWays (s : State) (set : Nat) : Nat :=
  ((List.range 16).filter (fun i => (dirEntry s (16 * set + i)).presence == 0)).length

/-- Ports in a presence mask. -/
def portsIn (mask : Nat) : List Nat :=
  (List.range 4).filter (fun p => bitOf mask p)

/-- Sets an entry's content and notes the touch; an entry with no presence is free. -/
def putEntry (s : State) (e tag presence : Nat) (exclusive : Bool) : State :=
  if presence = 0 then modEntry s e (fun _ => {})
  else
    let n := s.directory.touches + 1
    let s := { s with directory := { s.directory with touches := n } }
    let s := modEntry s e (fun _ => { tag := tag, presence := presence, exclusive := exclusive, touch := n })
    maxStat s 0x2B40 2 s.directory.entries.length

/-- A port's number in requests: 4 for Barrow. -/
def requesterNumber : Requester → Nat
  | .host p _ => p
  | .barrow _ _ _ => 4
  | .scan p => p
  | .clear p => p

/-- The shared flag of the window that covers a line (R281). -/
def sharedLine (s : State) (line : Nat) : Bool :=
  match windowAt s (line * 64) with
  | some w => settingB s (0x2B30 + w) 4
  | none => false

/-- Port mask of the window that covers a line. -/
def windowMask (s : State) (line : Nat) : Nat :=
  match windowAt s (line * 64) with
  | some w => settingN s (0x2B30 + w) 3
  | none => 0

/-- A snoop can be sent to a port: its link is up; else it is taken as BIRspI at once (R290). -/
def snoopable (s : State) (p : Nat) : Bool :=
  decide (2 ≤ (portOf s p).link ∧ (portOf s p).link ≤ 4) && (portOf s p).bi

/-- The snoops of a request (R285, R291): their kind and the ports they go to. -/
def snoopsFor (s : State) (line p : Nat) (write : Bool) (mv : Nat) : Nat × List Nat :=
  if tabGet dBool s.directory.suspect (dirSet line) then
    (2, (portsIn (windowMask s line)).filter (fun q => q != p && snoopable s q))
  else
    match dirFind s line with
    | none => (0, [])
    | some e =>
      let x := dirEntry s e
      let others := (portsIn x.presence).filter (fun q => q != p && snoopable s q)
      if write || mv == 2 then (2, others) else if x.exclusive then (mv, others) else (0, [])

/-- The MetaValue the directory records for a port (R285). -/
def recordedMeta (s : State) (line p : Nat) : Nat :=
  match dirFind s line with
  | some e =>
    let x := dirEntry s e
    if bitOf x.presence p then (if x.exclusive then 2 else 1) else 0
  | none => 0

/-- The change a request makes to the directory for its own port (R285, R287). -/
def dirApply (s : State) (line p : Nat) (write : Bool) (mv : Nat) : State :=
  let bit := if p < 4 then 2 ^ p else 0
  match dirFind s line with
  | some e =>
    let x := dirEntry s e
    let without := if bitOf x.presence p && decide (p < 4) then x.presence - bit else x.presence
    if write then
      if mv = 0 then putEntry s e x.tag without (x.exclusive && without != 0 && without == x.presence)
      else putEntry s e x.tag bit (mv == 2)
    else if mv = 0 then putEntry s e x.tag x.presence x.exclusive
    else if mv = 1 then putEntry s e x.tag (without + bit) (x.exclusive && x.presence == bit)
    else putEntry s e x.tag bit true
  | none =>
    if mv = 0 ∨ bit = 0 then s
    else
      match dirFree s line with
      | some e => putEntry s e (dirTag line) bit (mv == 2)
      | none => bump s (0x2B20 + p) 7 1

/-- A holder's answer (R285): 0 BIRspI, 1 BIRspS, 2 BIRspE. -/
def holderAnswer (s : State) (line q answer : Nat) : State :=
  match dirFind s line with
  | none => s
  | some e =>
    let x := dirEntry s e
    if bitOf x.presence q then
      if answer = 0 then
        let left := x.presence - 2 ^ q
        putEntry s e x.tag left (x.exclusive && left != 0)
      else if answer = 1 then putEntry s e x.tag x.presence false
      else s
    else s

/-- The round outstanding for a line. -/
def roundOf (s : State) (line : Nat) : Option SnoopRound :=
  s.directory.rounds.find? (fun r => r.line == line)

/-- Changes the round of a line. -/
def modRound (s : State) (line : Nat) (f : SnoopRound → SnoopRound) : State :=
  { s with directory := { s.directory with rounds := s.directory.rounds.map (fun r =>
    if r.line = line then f r else r) } }

/-- Sends a round's snoops (R161, R163). -/
def sendRound (s : State) (r : SnoopRound) (kind : Nat) : State :=
  let s := { s with directory := { s.directory with rounds := s.directory.rounds ++ [{ r with sentAt := s.sys.time }] } }
  r.waiting.foldl (fun s q => emit (bump s (0x2B20 + q) 3 1) (.snoop (Fin.ofNat 4 q) r.line kind)) s

/-- A read at its bank, in its order there (R168). -/
def performRead (s : State) (w : ReadWait) : State :=
  let n := nextOrder s
  bankRead n.1 { w with seq := n.2 }

/-- A write at its bank, in its order there; a line no access may change completes it with no effect (R167). -/
def performWrite (s : State) (w : WriteReq) : State :=
  if lineFenced s w.line then
    deliverAck s { line := w.line, who := w.who, arrival := w.arrival, warm := w.warm }
  else
    let n := nextOrder s
    retryMerges (bankWrite n.1 { w with seq := n.2 })

/-- Data that a holder writes back in answer to a snoop (R161): it is older than every request the round serves, so bytes
that a write ordered after the snoop has put into the line keep that write's value. -/
def writeBack (s : State) (r : SnoopRound) (w : WriteReq) : State :=
  let s := bump s (0x2B20 + requesterNumber w.who) 4 1
  let mask := w.mask &&& ~~~r.covered
  if mask = 0 ∨ lineFenced s w.line then
    deliverAck s { line := w.line, who := w.who, arrival := w.arrival, warm := w.warm }
  else retryMerges (bankWrite s { w with mask := mask, seq := r.seq })

/-- A request to a line reaches the directory (R283 to R289, R291): it waits behind a round, starts one, or goes on. -/
def lineRequest (s : State) (q : LineRequest) : State :=
  let line := match q with
    | .read w => w.line
    | .write w => w.line
  if sharedLine s line = false then
    match q with
    | .read w => performRead s { w with metaValue := 0 }
    | .write w => performWrite s w
  else
    let s := perfCount s 12 7 1
    match roundOf s line, q with
    | some r, .write w =>
      if r.waiting.contains (requesterNumber w.who) then writeBack s r w
      else modRound s line (fun r => { r with behind := r.behind ++ [q] })
    | some _, .read _ => modRound s line (fun r => { r with behind := r.behind ++ [q] })
    | none, .read w =>
      let p := requesterNumber w.who
      let k := snoopsFor s line p false w.metaValue
      if k.2 = [] then
        let s := dirApply s line p false w.metaValue
        performRead s { w with metaValue := recordedMeta s line p }
      else
        let n := nextOrder s
        let s := if p < 4 then perfCount n.1 p 8 k.2.length else n.1
        prefetch (sendRound s { line := line, waiting := k.2, request := some q, seq := n.2 } k.1) line
    | none, .write w =>
      let p := requesterNumber w.who
      let k := snoopsFor s line p true w.metaValue
      if k.2 = [] ∨ lineFenced s line then performWrite (dirApply s line p true w.metaValue) w
      else
        let n := nextOrder s
        let s := if p < 4 then perfCount n.1 p 8 k.2.length else n.1
        let s := sendRound s { line := line, waiting := k.2, request := some q, seq := n.2 } 2
        performWrite s { w with snoop := true, snooped := true }

/-- The requests that waited behind a round go on in order; each is judged against the directory as it stands (R286). -/
def resumeBehind (s : State) (qs : List LineRequest) : State :=
  qs.foldl lineRequest s

/-- The last response of a round is in (R161, R163, R285, R287). -/
def endRound (s : State) (r : SnoopRound) : State :=
  let s := { s with directory := { s.directory with rounds := s.directory.rounds.filter (fun x => x.line != r.line) } }
  let s := match r.request with
    | none =>
      (match dirFind s r.line with
       | some e => bump (modEntry s e (fun _ => {})) 0x2B40 3 1
       | none => bump s 0x2B40 3 1)
    | some (.read w) =>
      let p := requesterNumber w.who
      let s := dirApply (stamp s w.who 7) r.line p false w.metaValue
      performRead s { w with metaValue := recordedMeta s r.line p }
    | some (.write w) =>
      let s := dirApply (stamp s w.who 7) r.line (requesterNumber w.who) true w.metaValue
      let s := (List.range 4).foldl (fun s p => modPort s p (fun x =>
        { x with held := x.held.map (fun h => if h.line = r.line then { h with snoop := false } else h) })) s
      settleAcks { s with easel := { s.easel with
        mergeWait := s.easel.mergeWait.map (fun h => if h.line = r.line then { h with snoop := false } else h),
        acks := s.easel.acks.map (fun a => if a.line = r.line then { a with snoop := false } else a) } }
  resumeBehind s r.behind

/-- A holder's response to a snoop, or what is taken as one. -/
def snoopAnswer (s : State) (line q answer : Nat) : State :=
  match roundOf s line with
  | none => s
  | some r =>
    if r.waiting.contains q then
      let s := holderAnswer s line q answer
      let left := r.waiting.erase q
      let r' := { r with waiting := left, conflicts := r.conflicts.erase q }
      if left = [] then endRound s r' else modRound s line (fun _ => r')
    else s

/-- BI_SNOOP_RESPONSE (R285, R162): 0 BIRspI, 1 BIRspS, 2 BIRspE. -/
def execBiSnoopResponse (port : Port) (line : LineAddr) (answer : Fin 3) (s : State) : Host.Outcome State Fault Refusal :=
  let l := line.toNat
  match roundOf s l with
  | none => .next s
  | some r =>
    if r.waiting.contains port.val then
      let late := s.sys.time - r.sentAt
      let s := if 400 * 64 ≤ late then
          raise (bump s 0x2600 7 1) 0x2602 (leBytes 1 port.val ++ leBytes 6 (l * 64) ++ satBytes 4 (late / 64))
        else s
      .next (snoopAnswer s l port.val answer.val)
    else .next s

/-- BI_CONFLICT (R286, R288): acknowledged at once, or after the response to a request of the port that was ordered before
the snoop. -/
def execBiConflict (port : Port) (line : LineAddr) (s : State) : Host.Outcome State Fault Refusal :=
  let p := port.val
  let l := line.toNat
  match roundOf s l with
  | none => .next s
  | some r =>
    if r.waiting.contains p then
      let s := perfCount (bump s (0x2B20 + p) 6 1) p 9 1
      if unanswered s p l then .next (modRound s l (fun r => { r with conflicts := p :: r.conflicts.erase p }))
      else .next (emit s (.biConflictAck port l))
    else .next s

/-- SNOOP_TIMEOUT (R288): taken as BIRspI; the port is fenced from shared windows. A BIConflict that waits for its acknowledgement
has stopped the timeout. -/
def execSnoopTimeout (port : Port) (line : LineAddr) (s : State) : Host.Outcome State Fault Refusal :=
  let p := port.val
  let l := line.toNat
  match roundOf s l with
  | none => .next s
  | some r =>
    if r.waiting.contains p && !r.conflicts.contains p then
      let s := snoopAnswer s l p 0
      let s := bump (modPort s p (fun x => { x with fenced := true })) (0x2B20 + p) 5 1
      let s := tallyAdd (raise s 0x2B03 (leBytes 1 p ++ leBytes 6 (l * 64))) 163
      .next ((List.range 4).foldl (fun s q =>
        if q ≠ p ∧ 2 ≤ (portOf s q).link ∧ (portOf s q).link ≤ 4 then eventPost s q 1 1 2 0 else s) s)
    else .next s

/-- DIRECTORY_EVICTION (R287): in a set short of free ways, the least recently touched entry with no round outstanding is
snooped out. -/
def execDirectoryEviction (set : Fin 2097152) (s : State) : Host.Outcome State Fault Refusal :=
  let k := set.val
  if settingN s 0x2B00 3 ≤ freeWays s k then .next s
  else
    let es := ((List.range 16).map (16 * k + ·)).filter (fun e =>
      (dirEntry s e).presence != 0 && (roundOf s (entryLine s e)).isNone)
    match es.foldl (fun best e =>
      match best with
      | none => some e
      | some b => if (dirEntry s e).touch < (dirEntry s b).touch then some e else best) none with
    | none => .next s
    | some e =>
      let line := entryLine s e
      let r : SnoopRound := { line := line, waiting := (portsIn (dirEntry s e).presence).filter (snoopable s) }
      if r.waiting = [] then .next (bump (modEntry s e (fun _ => {})) 0x2B40 3 1) else .next (sendRound s r 2)

/-- Clears a port's presence in every set (R290), and takes its outstanding snoops as answered BIRspI. -/
def clearPresence (s : State) (p : Nat) : State :=
  let s := s.directory.entries.foldl (fun s e =>
    if bitOf e.2.presence p then
      let left := e.2.presence - 2 ^ p
      if left = 0 then modEntry s e.1 (fun _ => {})
      else modEntry s e.1 (fun x => { x with presence := left })
    else s) s
  let s := bump s 0x2B40 7 1
  (s.directory.rounds.filter (fun r => r.waiting.contains p)).foldl (fun s r => snoopAnswer s r.line p 0) s

/-- An uncorrectable directory entry makes its set suspect (R291). -/
def directoryLost (s : State) (line way : Nat) : State :=
  let set := dirSet line
  let s := modEntry s (16 * set + way) (fun _ => {})
  let s := if tabGet dBool s.directory.suspect set then s
    else bump { s with directory := { s.directory with suspect := tabSet dBool s.directory.suspect set true } } 0x2B40 5 1
  raise s 0x2B08 (leBytes 3 set ++ leBytes 1 way)

/-- The soft error met on the way, the directory's among them (R291). -/
def meetUpset (s : State) (line : Nat) (u : Upset) : State :=
  match u with
  | .directoryLost way => if sharedLine s line then directoryLost s line way.val else s
  | u => applyUpset s line u

/-- The soft errors met on the way, one after the other. -/
def meetUpsets (s : State) (line : Nat) (us : List Upset) : State :=
  us.foldl (fun s u => meetUpset s line u) s

end Sys2Proof.Machine
end

