-- ==== Sys2Proof/Machine/Barrow.lean ====
section
/-! DEFINITION. Machine/Barrow.lean: the block mover (R304 to R322): descriptors and their check, hand-over, beats and
their write responses, flush-reads, interrupts, errors, aborts, fill-through and telemetry rings. -/

namespace Sys2Proof.Machine

/-- A descriptor's 32 bytes (R304). -/
def descriptorBytes (s : State) (i : Nat) : List Byte :=
  tabGet (fun _ => List.replicate 32 0) s.barrow.descriptors i

/-- Writes a descriptor. -/
def descriptorWrite (s : State) (i : Nat) (data : List Byte) : State :=
  { s with barrow := { s.barrow with
    descriptors := tabSet (fun _ => List.replicate 32 0) s.barrow.descriptors i data } }

/-- The load record a descriptor gives (R304). -/
def loadOf (bs : List Byte) (serial index : Nat) : LoadRec :=
  { serial := serial, index := index, kind := numAt bs 0x14 1, src := numAt bs 0 8, dst := numAt bs 8 8,
    total := numAt bs 0x10 4, flags := numAt bs 0x15 1, next := numAt bs 0x16 1, aux := numAt bs 0x18 8 }

/-- A DPA range is host-visible and lies in windows of the owner (R281, R305): bits 1 for visible, 2 for windows. -/
def rangeAllowed (s : State) (owner lo n : Nat) : Bool :=
  let a := lo / 2 ^ 28
  let b := (lo + n + 2 ^ 28 - 1) / 2 ^ 28
  visibleUnits s a b == b - a &&
    (List.range 16).foldl (fun k w =>
      if bitOf (settingN s (0x2B30 + w) 3) owner then
        let base := settingN s (0x2B30 + w) 1
        k + overlap a b base (base + windowSize s w)
      else k) 0 == b - a

/-- The channel bound to TQ (R320), [2C00.03]. -/
def telemetryChannel (s : State) : Option Nat :=
  (List.range 16).find? (fun c => (barrowOf s c).loads.any (fun l => l.kind == 4 && !l.invalid))

/-- The first failing condition of R305, 0 for none. -/
def descriptorCheck (s : State) (c : Nat) (bs : List Byte) (l : LoadRec) : Nat :=
  let owner := barrowOwner s c
  let n := l.total * 64
  if 4 < l.kind ∨ 16 ≤ l.flags ∨ numAt bs 0x17 1 ≠ 0 ∨ (l.kind ≠ 4 ∧ l.aux ≠ 0) ∨ (l.kind = 4 ∧ l.src ≠ 0) then 1
  else if (l.kind < 3 ∧ l.src % 64 ≠ 0) ∨ l.dst % 64 ≠ 0 ∨ (l.kind = 4 ∧ l.aux % 64 ≠ 0) then 2
  else if l.total = 0 ∨ (l.kind = 4 ∧ (l.total < 16 ∨ 2 ^ 24 < l.total)) then 3
  else if (l.kind ≤ 1 ∧ rangeAllowed s owner l.src n = false)
      ∨ ((l.kind = 0 ∨ l.kind = 2 ∨ l.kind = 3) ∧ rangeAllowed s owner l.dst n = false) then 4
  else if l.kind = 0 ∧ l.src < l.dst + n ∧ l.dst < l.src + n then 5
  else if l.kind = 4 ∧ (telemetryChannel s).isSome then 6
  else 0

/-- Changes the load with a serial number. -/
def modLoad (s : State) (c serial : Nat) (f : LoadRec → LoadRec) : State :=
  modBarrow s c (fun x => { x with loads := x.loads.map (fun l => if l.serial = serial then f l else l) })

/-- Loads descriptor `i` as the active one (R304, R305). -/
def loadDescriptor (s : State) (c i : Nat) : State :=
  let x := barrowOf s c
  let bs := descriptorBytes s i
  let l := loadOf bs x.serial i
  let cause := descriptorCheck s c bs l
  let l := if cause = 0 then l else { l with invalid := true, stopped := 1, errors := 8 }
  let s := modBarrow s c (fun x => { x with
    loads := x.loads ++ [l], serial := x.serial + 1,
    writePointer := if l.kind = 4 ∧ cause = 0 then 0 else x.writePointer })
  if cause = 0 then s else raise s 0x2C01 (leBytes 1 c ++ leBytes 1 i ++ leBytes 1 cause)

/-- A hand-over (R316): the pending committed set, else the Next descriptor, else nothing. -/
def handOver (s : State) (c : Nat) : State :=
  let x := barrowOf s c
  if x.ending then s
  else
    match x.committed with
    | some i => loadDescriptor (modBarrow s c (fun x => { x with committed := none, commitState := 2 })) c i
    | none =>
      match x.loads.getLast? with
      | some l => if bitOf l.flags 0 then s else loadDescriptor s c l.next
      | none => s

/-- Raises interrupt cause bits (R309). -/
def barrowInterrupt (s : State) (c bits : Nat) : State :=
  let s := modBarrow s c (fun x => { x with cause := x.cause ||| bits })
  let p := barrowOwner s c
  let y := portOf s p
  if 2 ≤ y.link ∧ y.link ≤ 4 ∧ y.busMaster then emit s (.interrupt (Fin.ofNat 4 p) (settingN s (0x2C10 + c) 0x0E)) else s

/-- Notes an error of a beat of a load: the channel stops (R310, R311). -/
def beatError (s : State) (c serial beat flag : Nat) : State :=
  modLoad s c serial (fun l =>
    { l with
      errors := l.errors ||| flag ||| (if l.issued = l.total then 1 else 0),
      failBeat := l.failBeat.or (some beat),
      stopped := if l.stopped = 0 then 1 else l.stopped })

/-- Issues a flush-read that covers every posted beat (R307). -/
def issueFlush (s : State) (c address raises : Nat) : State :=
  let x := barrowOf s c
  let covers := x.loads.flatMap (fun l => l.posted.map (fun b => (l.serial, b)))
  let s := emit s (.hostRead (Fin.ofNat 4 (barrowOwner s c)) address 0)
  modBarrow s c (fun x => { x with flushes := x.flushes ++ [{ covers := covers, raises := raises }] })

/-- The beats of a load that wait for a response. -/
def beatsOut (l : LoadRec) : Nat :=
  l.reading.length + l.writing.length

/-- H of R309. -/
def halfOf (l : LoadRec) : Nat :=
  (l.total + 1) / 2

/-- Raises the half interrupt of loads that reached it (R309). -/
def settleHalves (s : State) (c : Nat) : State :=
  (barrowOf s c).loads.foldl (fun s l =>
    let h := halfOf l
    if bitOf l.flags 1 && decide (2 ≤ l.total) && !l.halfDone && l.kind != 4 && decide (h ≤ l.issued)
        && l.reading.all (fun b => decide (h ≤ b)) && l.writing.all (fun b => decide (h ≤ b.1))
        && l.posted.all (fun b => decide (h ≤ b)) then
      barrowInterrupt (modLoad s c l.serial (fun l => { l with halfDone := true })) c 1
    else s) s

/-- A stopped or ended host transfer has its last flush-read issued once its MWrs are out (R307, R310, R313). -/
def settleFlushes (s : State) (c : Nat) : State :=
  let x := barrowOf s c
  match x.loads.head? with
  | some l =>
    let covered := x.flushes.any (fun f => l.posted.all (fun b => f.covers.contains (l.serial, b)))
    if l.kind = 1 && (l.stopped != 0 || l.issued == l.total) && beatsOut l == 0 && l.posted != [] && !covered then
      issueFlush s c (l.dst + 64 * (l.posted.getLastD 0)) 0
    else s
  | none => s

/-- Whether a load is ready to complete (R308). -/
def loadDone (x : BarrowRec) (l : LoadRec) : Bool :=
  l.invalid || ((decide (l.stopped ≠ 0) || (l.kind != 4 && l.issued == l.total)) && beatsOut l == 0 && l.posted == []
    && !(l.kind == 4 && !x.flushes.isEmpty))

/-- Completes the oldest load (R308, R309, R311, R312, R313). -/
def completeLoad (s : State) (c : Nat) (l : LoadRec) : State :=
  let status := if l.errors ≠ 0 ∧ l.stopped ≠ 2 then 1 else if l.stopped = 2 then 2 else 0
  let residue := if l.kind = 4 then l.total else l.total - l.issued
  let first := decide ((barrowOf s c).errorDescriptor = 0xFFFF) && decide (l.errors ≠ 0)
  let s := modBarrow s c (fun x => { x with
    loads := x.loads.filter (fun y => y.serial != l.serial),
    lastDescriptor := l.index, lastStatus := status, lastResidue := residue,
    errorDescriptor := if first then l.index else x.errorDescriptor,
    errorFlags := if first then l.errors else x.errorFlags,
    failBeat := if first then l.failBeat.getD 0 else x.failBeat,
    ending := x.ending || status != 0 })
  let s := bump s (0x2C10 + c) 0x0F 1
  let s := if status = 1 then
      modBarrow s c (fun x => { x with loads := x.loads.map (fun y => { y with stopped := 2, silent := true }) })
    else s
  let s := if status = 1 then
      raise s 0x2C02 (leBytes 1 c ++ leBytes 1 l.index ++ leBytes 1 l.errors ++ satBytes 4 (l.failBeat.getD 0)
        ++ satBytes 4 residue)
    else s
  if l.silent then s
  else if status = 0 then (if bitOf l.flags 2 then barrowInterrupt s c 2 else s)
  else barrowInterrupt s c 4

/-- Completes every load that can be, in the order loaded (R308). -/
def settleLoads : Nat → State → Nat → State
  | 0, s, _ => s
  | fuel + 1, s, c =>
    let s := settleFlushes (settleHalves s c) c
    let x := barrowOf s c
    match x.loads with
    | [] => modBarrow s c (fun x => { x with ending := false })
    | l :: _ => if loadDone x l then settleLoads fuel (completeLoad s c l) c else s

/-- What follows any event of a channel. -/
def settleChannel (s : State) (c : Nat) : State :=
  settleLoads 64 s c

/-- The effect of a shadow commit (R315). -/
def shadowCommit (s : State) (c : Nat) : State :=
  modBarrow s c (fun x => { x with committed := some x.shadow, commitState := 1 })

/-- SHADOW_COMMIT (R315). -/
def execShadowCommit (via : Via) (channel : BarrowChannel) (s : State) : Host.Outcome State Fault Refusal :=
  .next (served s via (0x2C10 + channel.val) 3 [1] (fun _ s => .ok (shadowCommit s channel.val)))

/-- The effect of a start (R318). -/
def channelStart (s : State) (c : Nat) : Except Nat State :=
  let x := barrowOf s c
  if x.loads ≠ [] then .error 0x2C03
  else if x.committed.isNone then .error 0x2C04
  else
    let s := modBarrow s c (fun x =>
      { x with errorFlags := 0, failBeat := 0, errorDescriptor := 0xFFFF, ending := false })
    .ok (settleChannel (handOver s c) c)

/-- CHANNEL_START (R318). -/
def execChannelStart (via : Via) (channel : BarrowChannel) (s : State) : Host.Outcome State Fault Refusal :=
  .next (served s via (0x2C10 + channel.val) 4 [1] (fun _ s => channelStart s channel.val))

/-- Stops a running channel as an abort does (R313, R314). -/
def channelStop (s : State) (c : Nat) : State :=
  settleChannel (modBarrow s c (fun x => { x with
    ending := true,
    loads := x.loads.map (fun l => if l.issued < l.total ∧ l.stopped = 0 then { l with stopped := 2 } else l) })) c

/-- The effect of an abort (R313, R322). -/
def channelAbort (s : State) (c : Nat) : Except Nat State :=
  if (barrowOf s c).loads = [] then .error 0x2C06 else .ok (channelStop s c)

/-- CHANNEL_ABORT (R313). -/
def execChannelAbort (via : Via) (channel : BarrowChannel) (s : State) : Host.Outcome State Fault Refusal :=
  .next (served s via (0x2C10 + channel.val) 4 [2] (fun _ s => channelAbort s channel.val))

/-- The owner's link can carry host requests of the channel (R306). -/
def hostOpen (s : State) (c : Nat) : Bool :=
  let y := portOf s (barrowOwner s c)
  decide (2 ≤ y.link ∧ y.link ≤ 4) && y.busMaster

/-- The line a fill writes: eight copies of the pattern (R319). -/
def fillLine (pattern : Nat) : Line :=
  lineOf ((List.range 8).flatMap (fun _ => leBytes 8 pattern))

/-- A Barrow full-line write reaches the directory and the bank (R289, R306). -/
def barrowWrite (s : State) (c serial beat line : Nat) (data : Line) (poison : Bool) : State :=
  let s := modLoad s c serial (fun l => { l with writing := l.writing ++ [(beat, false)] })
  lineRequest s (.write
    { line := line, who := .barrow c serial beat, port := barrowOwner s c, mask := fullMask,
      data := if poison then 0 else data, poison := poison, arrival := s.sys.time, warm := false })

/-- Whether a line's fill beat is a fill-through (R319). -/
def fillsThrough (s : State) (line : Nat) : Bool :=
  (easelFind s line).isNone && !sealedLine s line
    && !(sharedLine s line && ((roundOf s line).isSome || (snoopsFor s line 4 true 0).2 != []))

/-- A fill-through beat starts (R319): a clean line in flight and its program under a drawn version. -/
def fillThrough (s : State) (c serial beat line p : Nat) (data : Line) : State :=
  let v := drawn s 24
  let code := lineCode s (lineKey s line) line 0 v data
  let f : DestageRec := { place := p, line := line, version := v, code := code, fill := some (.barrow c serial beat) }
  let s := modLine (afterDraw s) p (fun _ => { tag := easelTag line, valid := true, flight := true, data := data })
  let s := poisonRemove { s with easel := { s.easel with flights := s.easel.flights ++ [f] } } line
  modLoad s c serial (fun l => { l with writing := l.writing ++ [(beat, false)] })

/-- Beat `b` of a load is issued: the count falls by one (R306). -/
def beatStep (s : State) (c serial b : Nat) (reading : Bool) : State :=
  perfCount (modLoad s c serial (fun l =>
    { l with issued := b + 1, reading := if reading then l.reading ++ [b] else l.reading })) 12 0x0B 1

/-- After a beat's issue: with the count at zero, the hand-over (R316). -/
def beatClose (s : State) (c : Nat) (last : Bool) : State :=
  settleChannel (if last then handOver s c else s) c

/-- A fill beat to a line (R310, R319); none where it cannot go yet. -/
def fillBeat (s : State) (c : Nat) (l : LoadRec) (line : Nat) : Option State :=
  let b := l.issued
  let n := l.serial
  if lineFenced s line then some (beatError (beatStep s c n b false) c n b 4)
  else if fillsThrough s line then
    match easelVictim s (easelSet line) with
    | some p =>
      let g := lineGroup s line
      if stepHolds s line ∨ unitHolds s line ∨ (groupOf s g).staleHold ∨ groupAwake s g = false
          ∨ tabGet dBool s.thermal.stackHot g then none
      else some (fillThrough (beatStep s c n b false) c n b line p (fillLine l.src))
    | none => none
  else some (barrowWrite (beatStep s c n b false) c n b line (fillLine l.src) false)

/-- The flags of a Barrow read's sample (R462). -/
def beatFlags (s : State) (line : Nat) : Nat :=
  (if sealedLine s line then 262144 else 0) + (if sharedLine s line then 131072 else 0)

/-- A beat's device read (R289, R306). -/
def deviceBeat (s : State) (c : Nat) (l : LoadRec) (line : Nat) : State :=
  let who := Requester.barrow c l.serial l.issued
  let s := sampleDraw (beatStep s c l.serial l.issued true) who line false (beatFlags s line)
  let w : ReadWait := { line := line, who := who, arrival := s.sys.time, warm := false }
  lineRequest s (.read w)

/-- BARROW_BEAT_ISSUE (R306): the next beat of the active descriptor, where one can go; with the soft error its
device line's access meets. -/
def execBarrowBeatIssue (access : BeatAccess) (s : State) : Host.Outcome State Fault Refusal :=
  let c := access.channel.val
  let x := barrowOf s c
  match x.loads.getLast? with
  | none => .next s
  | some l =>
    let out := x.loads.foldl (fun n l => n + beatsOut l) 0
    let last := l.issued + 1 == l.total
    if l.stopped ≠ 0 ∨ l.kind = 4 ∨ l.total ≤ l.issued ∨ 16 ≤ out ∨ ((l.kind = 1 ∨ l.kind = 2) ∧ hostOpen s c = false)
        ∨ s.sys.memoryActive = false then .next s
    else if l.kind ≤ 1 then 
      let line := (l.src + 64 * l.issued) / 64
      .next (beatClose (deviceBeat (meetUpset s line access.upset) c l line) c last)
    else if l.kind = 2 then
      .next (beatClose (emit (beatStep s c l.serial l.issued true)
        (.hostRead (Fin.ofNat 4 (barrowOwner s c)) (l.src + 64 * l.issued) 64)) c last)
    else
      let line := (l.dst + 64 * l.issued) / 64
      match fillBeat (meetUpset s line access.upset) c l line with
      | some s' => .next (beatClose s' c last)
      | none => .next s

/-- BARROW_SOURCE_READ_COMPLETE (R306, R310): a beat's source data is in, from the device or, with `data` and `ok`, from the
host; its write is issued to the destination, with the soft error it meets. -/
def execBarrowSourceReadComplete (access : BeatAccess) (beat : BitVec 32) (data : Line) (ok : Bool) (s : State) :
    Host.Outcome State Fault Refusal :=
  let c := access.channel.val
  let b := beat.toNat
  match (barrowOf s c).loads.find? (fun l => l.reading.contains b) with
  | none => .next s
  | some l =>
    let n := l.serial
    let src : Option (Option (Line × Bool)) :=
      if l.kind ≤ 1 then (l.arrived.find? (fun a => a.1 == b)).map (fun a => some (a.2.1, a.2.2))
      else some (if ok then some (data, false) else none)
    match src with
    | none => .next s
    | some got =>
      let s := modLoad s c n (fun l =>
        { l with reading := l.reading.erase b, arrived := l.arrived.filter (fun a => a.1 != b) })
      match got with
      | none => .next (settleChannel (beatError s c n b 2) c)
      | some (d, poison) =>
        if poison && !bitOf l.flags 3 then .next (settleChannel (beatError s c n b 2) c)
        else
          let s := if poison then bump s (0x2C10 + c) 0x10 1 else s
          if l.kind = 1 then
            let at0 := l.dst + 64 * b
            let p := Fin.ofNat 4 (barrowOwner s c)
            let s := emit s (.hostWrite p at0 (lineBytes (if poison then 0 else d)) poison)
            let s := modLoad s c n (fun l => { l with posted := l.posted ++ [b] })
            let half := bitOf l.flags 1 && decide (2 ≤ l.total) && b + 1 == halfOf l
            let s := if half || b + 1 == l.total then issueFlush s c at0 0 else s
            .next (settleChannel s c)
          else
            let line := (l.dst + 64 * b) / 64
            if lineFenced s line then .next (settleChannel (beatError s c n b 4) c)
            else .next (settleChannel (barrowWrite (meetUpset s line access.upset) c n b line d poison) c)

/-- Beats whose write response has come leave the channel (R307). -/
def takeResponses (s : State) (c : Nat) : State :=
  let n := (barrowOf s c).loads.foldl (fun n l => n + (l.writing.filter (·.2)).length) 0
  let s := modBarrow s c (fun x => { x with loads := x.loads.map (fun l =>
    { l with writing := l.writing.filter (fun b => !b.2) }) })
  settleChannel (bump s 0x2C00 6 n) c

/-- BARROW_WRITE_RESPONSE (R307). -/
def execBarrowWriteResponse (channel : BarrowChannel) (s : State) : Host.Outcome State Fault Refusal :=
  .next (takeResponses s channel.val)

/-- The oldest flush-read of a channel ends (R307). -/
def flushEnd (s : State) (c : Nat) (ok : Bool) : State :=
  match (barrowOf s c).flushes with
  | [] => s
  | f :: rest =>
    let s := modBarrow s c (fun x => { x with
      flushes := rest,
      loads := x.loads.map (fun l => { l with posted := l.posted.filter (fun b => !f.covers.contains (l.serial, b)) }) })
    let s := if ok then barrowInterruptIf (bump s 0x2C00 6 f.covers.length) c f.raises
      else
        let s := f.covers.foldl (fun s e => beatError s c e.1 e.2 4) s
        if f.covers = [] then
          modBarrow s c (fun x => { x with loads := x.loads.map (fun l =>
            if l.kind = 4 then { l with errors := l.errors ||| 4, stopped := if l.stopped = 0 then 1 else l.stopped }
            else l) })
        else s
    settleChannel s c
where
  /-- raises the ring's interrupts, if any -/
  barrowInterruptIf (s : State) (c bits : Nat) : State :=
    if bits = 0 then s else barrowInterrupt s c bits

/-- FLUSH_READ_COMPLETE (R307). -/
def execFlushReadComplete (channel : BarrowChannel) (ok : Bool) (s : State) : Host.Outcome State Fault Refusal :=
  .next (flushEnd s channel.val ok)

/-- COMPLETION_TIMEOUT (R307, R310): of the oldest flush-read, or of the MRd of a beat. -/
def execCompletionTimeout (channel : BarrowChannel) (flush : Bool) (beat : BitVec 32) (s : State) :
    Host.Outcome State Fault Refusal :=
  let c := channel.val
  let b := beat.toNat
  if flush then .next (flushEnd s c false)
  else
    match (barrowOf s c).loads.find? (fun l => l.kind == 2 && l.reading.contains b) with
    | none => .next s
    | some l =>
      let s := modLoad s c l.serial (fun l => { l with reading := l.reading.erase b })
      .next (settleChannel (beatError s c l.serial b 2) c)

/-- FILL_THROUGH_COMPLETE (R319): the line is clean and first in its set's replacement order, or keeps what was written
since; the beat has its response. -/
def execFillThroughComplete (line : LineAddr) (s : State) : Host.Outcome State Fault Refusal :=
  match s.easel.flights.find? (fun f => f.line == line.toNat && f.fill.isSome) with
  | none => .next s
  | some f =>
    let s := destageComplete s f
    let s := if (easelLine s f.place).dirty then s else easelTouch s f.place false
    match f.fill with
    | some (.barrow c n b) =>
      let s := modLoad s c n (fun l => { l with writing := l.writing.filter (fun w => w.1 != b) })
      .next (settleChannel (bump s 0x2C00 6 1) c)
    | _ => .next s

/-- The words of a telemetry line: up to eight taken from TQ, idle words for the rest (R320). -/
def telemetryLine (s : State) (c : Nat) (l : LoadRec) (n : Nat) : State :=
  let x := barrowOf s c
  let q := queueOf s 8
  let words := ((q.words.drop q.taken).take n).map (·.data)
  let s := takeWords s 8 n
  let s := setMark s 8 (queueOf s 8).taken
  let data := (List.range 8).flatMap (fun i => leBytes 8 (words.getD i 0))
  let p := Fin.ofNat 4 (barrowOwner s c)
  let s := emit s (.hostWrite p (l.dst + 64 * x.writePointer) data false)
  let next := (x.writePointer + 1) % l.total
  let s := emit (modBarrow s c (fun x => { x with writePointer := next })) (.hostWrite p l.aux (leBytes 8 next) false)
  let half := if bitOf l.flags 1 && x.writePointer + 1 == halfOf l then 1 else 0
  let full := if bitOf l.flags 2 && x.writePointer + 1 == l.total then 2 else 0
  if half + full = 0 then s else issueFlush s c l.aux (half + full)

/-- The active telemetry descriptor of a channel that can write a line now (R320). -/
def telemetryReady (s : State) (c : Nat) : Option LoadRec :=
  let x := barrowOf s c
  match x.loads.getLast? with
  | some l =>
    if l.kind = 4 ∧ l.stopped = 0 ∧ hostOpen s c ∧ (x.writePointer + 1) % l.total ≠ x.readPointer then some l else none
  | none => none

/-- TELEMETRY_LINE_WRITE (R320): a line of eight waiting words. -/
def execTelemetryLineWrite (channel : BarrowChannel) (s : State) : Host.Outcome State Fault Refusal :=
  match telemetryReady s channel.val with
  | some l => if 8 ≤ unread (queueOf s 8) then .next (telemetryLine s channel.val l 8) else .next s
  | none => .next s

/-- TELEMETRY_FLUSH_INTERVAL (R320): a partial line of the words that wait. -/
def execTelemetryFlushInterval (channel : BarrowChannel) (s : State) : Host.Outcome State Fault Refusal :=
  match telemetryReady s channel.val with
  | some l => if 0 < unread (queueOf s 8) then .next (telemetryLine s channel.val l 8) else .next s
  | none => .next s

/-- The effect of a read-pointer write (R320, R322). -/
def telemetryPointer (s : State) (c v : Nat) : Except Nat State :=
  if telemetryChannel s ≠ some c then .error 0x2C05
  else if (match (barrowOf s c).loads.getLast? with
    | some l => decide (l.total ≤ v)
    | none => true) then .error 0x2C01
  else .ok (modBarrow s c (fun x => { x with readPointer := v }))

/-- TELEMETRY_READ_POINTER (R320). -/
def execTelemetryReadPointer (via : Via) (channel : BarrowChannel) (value : BitVec 32) (s : State) :
    Host.Outcome State Fault Refusal :=
  .next (served s via (0x2C10 + channel.val) 0x11 (leBytes 4 value.toNat) (fun _ s =>
    telemetryPointer s channel.val value.toNat))

/-- Clears interrupt cause bits (R309). -/
def causeClear (s : State) (c mask : Nat) : State :=
  modBarrow s c (fun x => { x with cause := x.cause - (x.cause &&& mask) })

/-- INTERRUPT_CAUSE_CLEAR (R309). -/
def execInterruptCauseClear (via : Via) (channel : BarrowChannel) (mask : Byte) (s : State) :
    Host.Outcome State Fault Refusal :=
  .next (served s via (0x2C10 + channel.val) 0x0D [mask] (fun _ s => .ok (causeClear s channel.val mask.toNat)))

/-- The effect of the Barrow statistics clear (R322). -/
def barrowClear (s : State) : State :=
  clearStatsAt (clearStats s 0x2C00 6 1) 0x2C10 16 0x0F 2

/-- BARROW_STATISTICS_CLEAR (R322). -/
def execBarrowStatisticsClear (via : Via) (s : State) : Host.Outcome State Fault Refusal :=
  .next (served s via 0x2C00 5 [1] (fun _ s => .ok (barrowClear s)))

/-- The host beats in flight of a channel are taken as failed, with the flag "link down" (R310, R320, R373). -/
def hostBeatsFail (s : State) (c : Nat) : State :=
  let fail := fun (l : LoadRec) =>
    let lost := if l.kind = 1 then l.reading ++ l.posted else if l.kind = 2 then l.reading else []
    if l.kind = 4 then { l with errors := l.errors ||| 16, stopped := if l.stopped = 0 then 1 else l.stopped }
    else if lost = [] then l
    else
      { l with
        reading := [], arrived := [], posted := [], errors := l.errors ||| 16 ||| (if l.issued = l.total then 1 else 0),
        failBeat := l.failBeat.or (some (lost.foldl min (lost.headD 0))),
        stopped := if l.stopped = 0 then 1 else l.stopped }
  settleChannel (modBarrow s c (fun x => { x with flushes := [], loads := x.loads.map fail })) c

/-- The owner link of a port's channels can no longer carry host beats (R310, R321). -/
def barrowLinkDown (s : State) (p : Nat) : State :=
  (List.range 16).foldl (fun s c => if barrowOwner s c = p then hostBeatsFail s c else s) s

/-- BUS_MASTER_ENABLE_CLEARED (R310). -/
def execBusMasterEnableCleared (port : Port) (s : State) : Host.Outcome State Fault Refusal :=
  .next (barrowLinkDown (modPort s port.val (fun x => { x with busMaster := false })) port.val)

/-- Entry to Warn stops every running channel (R321). -/
def barrowAtWarn (s : State) : State :=
  let running := (List.range 16).filter (fun c => (barrowOf s c).loads != [])
  let s := running.foldl channelStop s
  if running = [] then s else raise s 0x2C03 (leBytes 2 (running.foldl (fun m c => m + 2 ^ c) 0))

end Sys2Proof.Machine
end

