-- ==== Sys2Proof/Machine/Ports.lean ====
section
/-! DEFINITION. Machine/Ports.lean: the host ports (R275 to R282, R288, R290, R303): links and their resets, HDM decoders, and
CXL.mem requests as they arrive (R155 to R157, R167, R174, R363). -/

namespace Sys2Proof.Machine

/-- What an unlisted decoder is. -/
def dDecoder : Nat → Decoder := fun _ => {}

/-- The port's link carries traffic (R303): L0, L0p or L1. -/
def linkUp (s : State) (p : Nat) : Bool :=
  decide (2 ≤ (portOf s p).link ∧ (portOf s p).link ≤ 4)

/-- The DPA a port's committed decoders give a host address (R275, R282): with w ways of granularity G the device holds
every w-th block of the range (log entry 17). -/
def hostDpa (s : State) (p address : Nat) : Option Nat :=
  (List.range 8).findSome? (fun n =>
    let d := tabGet dDecoder (portOf s p).decoders n
    let base := d.base * 2 ^ 28
    let off := address - base
    if d.committed && decide (base ≤ address ∧ off < d.size * d.ways * 2 ^ 28) then
      some (d.dpa * 2 ^ 28 + off / (d.gran * d.ways) * d.gran + off % d.gran)
    else none)

/-- A requester whose request goes with a reset of port `p`: its host, or its scan. -/
def ownedBy (p : Nat) : Requester → Bool
  | .host q _ => q == p
  | .scan q => q == p
  | _ => false

/-- A write's requester after a reset of port `p`: its completion is not sent (R280). -/
def quietFor (p : Nat) (who : Requester) : Requester :=
  if ownedBy p who then .clear p else who

/-- A request behind a snoop round after a reset of port `p`: reads are discarded, writes complete with no answer. -/
def silenceRequest (p : Nat) : LineRequest → Option LineRequest
  | .read w => if ownedBy p w.who then none else some (.read w)
  | .write w => some (.write (if ownedBy p w.who then { w with who := .clear p, metaValue := 0 } else w))

/-- Requests in flight of a port at its reset (R280): reads are discarded; a write that has arrived is taken in and its
completion is not sent. -/
def discardRequests (s : State) (p : Nat) : State :=
  let mine := ownedBy p
  let quiet := quietFor p
  let s := { s with
    easel := { s.easel with
      waits := s.easel.waits.filter (fun w => !mine w.who),
      reads := s.easel.reads.map (fun e => (e.1, { e.2 with readers := e.2.readers.filter (fun w => !mine w.who) })),
      acks := s.easel.acks.map (fun (a : AckWait) => { a with who := quiet a.who }),
      mergeWait := s.easel.mergeWait.map (fun (w : WriteReq) => { w with who := quiet w.who }) },
    directory := { s.directory with rounds := s.directory.rounds.map (fun (r : SnoopRound) =>
      { r with
        behind := r.behind.filterMap (silenceRequest p),
        request := r.request.map (fun q => match q with
          | .read w => .read (if mine w.who then { w with who := .clear p, metaValue := 0 } else w)
          | .write w => .write (if mine w.who then { w with who := .clear p, metaValue := 0 } else w)) }) },
    perf := { s.perf with tags := s.perf.tags.filter (fun t => !mine t.who) } }
  (List.range 4).foldl (fun s q => modPort s q (fun x =>
    { x with held := x.held.map (fun (w : WriteReq) => { w with who := quiet w.who }) })) s

/-- The part of a reset that every kind of R280's first two rows shares. -/
def portCleared (s : State) (p : Nat) : State :=
  let s := modPort s p (fun x =>
    { x with decoders := [], bi := false, background := (0, 0, 0), scan := (0, 0), scanFound := [] })
  releaseSession (clearPresence (discardRequests s p) p) p

/-- PORT_RESET, a link down (R280, R288, R290, R310): the port is cleared and its link is down. `state` is the link state
that follows: 0 down, 5 disabled. -/
def portDown (s : State) (p state : Nat) (requested : Bool) : State :=
  let before := (portOf s p).link
  if before = 0 ∨ before = 5 then modPort s p (fun x => { x with link := state })
  else
    let s := portCleared s p
    let s := modPort s p (fun x => { x with link := state, rate := 0xFF, width := 0, fenced := false, busMaster := false })
    let s := barrowLinkDown (bump s (0x2B20 + p) 1 1) p
    if requested then s else tallyAdd (raise s 0x2B01 (leBytes 1 p ++ leBytes 1 before)) 189

/-- PORT_RESET (R280): 0 `PERST_N` low, 1 hot reset, 2 a link down that nobody requested, 3 a link down that host software
requested. -/
def execPortReset (port : Port) (cause : Fin 4) (s : State) : Host.Outcome State Fault Refusal :=
  .next (portDown s port.val (if (portOf s port.val).link = 5 then 5 else 0) (cause.val != 2))

/-- CXL_RESET (R280, R290): the link stays up. -/
def execCxlReset (port : Port) (s : State) : Host.Outcome State Fault Refusal :=
  .next (if linkUp s port.val then portCleared s port.val else s)

/-- FUNCTION_LEVEL_RESET (R280): CXL.io only; the mailbox command is aborted. -/
def execFunctionLevelReset (port : Port) (s : State) : Host.Outcome State Fault Refusal :=
  let p := port.val
  if linkUp s p then
    .next { modPort s p (fun x => { x with background := (0, 0, 0), scan := (0, 0), scanFound := [] }) with
      easel := { s.easel with
        waits := s.easel.waits.filter (fun w => w.who != .scan p),
        reads := s.easel.reads.map (fun e =>
          (e.1, { e.2 with readers := e.2.readers.filter (fun w => w.who != .scan p) })) } }
  else .next s

/-- Effect of a write to [2B10.01] (R280). -/
def portEnable (s : State) (p v : Nat) : State :=
  let s := setSetting s (0x2B10 + p) 1 v
  if v = 0 then portDown s p 5 true
  else modPort s p (fun x => { x with link := if x.link = 5 then 0 else x.link })

/-- PORT_ENABLE_WRITE (R280). -/
def execPortEnableWrite (via : Via) (port : Port) (value : Byte) (s : State) : Host.Outcome State Fault Refusal :=
  .next (servedNum s via (0x2B10 + port.val) 1 value.toNat (fun _ s => .ok (portEnable s port.val value.toNat)))

/-- A training below what the port's limits allow (R276). -/
def reducedTraining (s : State) (p : Nat) : State :=
  let x := portOf s p
  if x.width < settingN s (0x2B10 + p) 3 ∨ x.rate < settingN s (0x2B10 + p) 2 then
    raise (bump s (0x2B20 + p) 2 1) 0x2B02 (leBytes 1 p ++ leBytes 1 x.rate ++ leBytes 1 x.width)
  else s

/-- LINK_TRAINING (R276, R430): the host and the channel allow `rate` (as [2B10.02]) and 2^`width` lanes. Bus Master Enable
is set with it (log entry 15). -/
def execLinkTraining (port : Port) (rate : Fin 5) (width : Fin 4) (s : State) : Host.Outcome State Fault Refusal :=
  let p := port.val
  let x := portOf s p
  if s.sys.corePll = false ∨ x.link = 5 ∨ settingB s (0x2B10 + p) 1 = false then .next s
  else
    let s := if x.link = 0 then bindTo s p (.mailbox port) else s
    let r := min rate.val (settingN s (0x2B10 + p) 2)
    let w := min (2 ^ width.val) (settingN s (0x2B10 + p) 3)
    .next (reducedTraining (modPort s p (fun x => { x with
      link := 2, rate := r, width := w, busMaster := x.busMaster || x.link == 0 })) p)

/-- LANE_FAILURE (R276, R278): the link retrains at 2^`width` lanes, the widest that still work; all else is kept. -/
def execLaneFailure (port : Port) (width : Fin 4) (s : State) : Host.Outcome State Fault Refusal :=
  let p := port.val
  if linkUp s p && decide (2 ^ width.val < (portOf s p).width) then
    .next (reducedTraining (modPort s p (fun x => { x with link := 2, width := 2 ^ width.val })) p)
  else .next s

/-- LINK_POWER_STATE (R279): to 2 L0, 3 L0p or 4 L1 (as [2B10.05]). -/
def execLinkPowerState (port : Port) (state : Fin 5) (s : State) : Host.Outcome State Fault Refusal :=
  let p := port.val
  let x := portOf s p
  let allowed := settingN s (0x2B10 + p) 4
  if state.val = 2 ∧ (x.link = 3 ∨ x.link = 4) then
    .next (bump (modPort s p (fun x => { x with link := 2 })) (0x2B20 + p) 0x0E 1)
  else if (state.val = 3 ∧ x.link = 2 ∧ bitOf allowed 1) ∨ (state.val = 4 ∧ x.link = 2 ∧ bitOf allowed 0) then
    .next (modPort s p (fun x => { x with link := state.val }))
  else .next s

/-- Units of an interval that lie in windows of the port, of the given type or of any (R282). -/
def windowUnits (s : State) (p lo hi : Nat) (type : Option Bool) : Nat :=
  (List.range 16).foldl (fun n w =>
    if bitOf (settingN s (0x2B30 + w) 3) p ∧ (type = none ∨ type = some (settingB s (0x2B30 + w) 4)) then
      let b := settingN s (0x2B30 + w) 1
      n + overlap lo hi b (b + windowSize s w)
    else n) 0

/-- Cause that refuses a decoder commit (R282, R453): 1 a DPA not host-visible, 2 the port not in a mask, 3 the type; 0
none. -/
def decoderCause (s : State) (p : Nat) (d : Decoder) : Nat :=
  let lo := d.dpa
  let hi := d.dpa + d.size
  if visibleUnits s lo hi ≠ d.size then 1
  else if windowUnits s p lo hi none ≠ d.size then 2
  else if windowUnits s p lo hi (some d.shared) ≠ d.size ∨ (d.shared ∧ (portOf s p).bi = false) then 3
  else 0

/-- HDM_DECODER_COMMIT (R282): base and DPA in units of 256 MiB, `ways` and `gran` as exponents of 2 (the granularity above
256 B), `size` the DPA units the decoder covers. A locked decoder stays as it is. -/
def execHdmDecoderCommit (port : Port) (decoder : Fin 8) (base : BitVec 24) (ways : Fin 5) (gran : Fin 7)
    (size dpa : BitVec 17) (shared lock : Bool) (s : State) : Host.Outcome State Fault Refusal :=
  let p := port.val
  let n := decoder.val
  let old := tabGet dDecoder (portOf s p).decoders n
  if linkUp s p = false ∨ (old.committed ∧ old.locked) then .next s
  else
    let d : Decoder :=
      { shared := shared, base := base.toNat, ways := 2 ^ ways.val, gran := 256 * 2 ^ gran.val, size := size.toNat,
        dpa := dpa.toNat }
    let cause := decoderCause s p d
    let put := fun (d : Decoder) => modPort s p (fun x => { x with decoders := tabSet dDecoder x.decoders n d })
    if cause = 0 then .next (put { d with committed := true, locked := lock })
    else
      .next (raise (bump (put { d with error := true }) (0x2B20 + p) 0x0C 1) 0x2B07
        (leBytes 1 p ++ leBytes 1 n ++ leBytes 1 cause))

/-- BI_ENABLE_SET (R282). -/
def execBiEnableSet (port : Port) (s : State) : Host.Outcome State Fault Refusal :=
  .next (if linkUp s port.val then modPort s port.val (fun x => { x with bi := true }) else s)

/-- The effect of a fence release (R288, R303). -/
def fenceRelease (s : State) (p : Nat) : Except Nat State :=
  if (portOf s p).fenced then .ok (modPort s p (fun x => { x with fenced := false })) else .error 0x2B06

/-- SHARED_FENCE_RELEASE (R288, R303). -/
def execSharedFenceRelease (via : Via) (port : Port) (s : State) : Host.Outcome State Fault Refusal :=
  .next (servedNum s via (0x2B10 + port.val) 0x0D 1 (fun _ s => fenceRelease s port.val))

/-- Effect of StatisticsClear [2B00.07] (R303). -/
def portStatisticsClear (s : State) : State :=
  clearStats (clearStatsAt s 0x2B20 4 1 14) 0x2B40 3 5

/-- PORT_STATISTICS_CLEAR (R303). -/
def execPortStatisticsClear (via : Via) (s : State) : Host.Outcome State Fault Refusal :=
  .next (servedNum s via 0x2B00 7 1 (fun _ s => .ok (portStatisticsClear s)))

/-- Ports take CXL.mem requests and serve them from the Easel and the medium: in Active, Recovery and Test, and in Warn up
to quiesce (R363, R373, R379, R380). -/
def hostsServed (s : State) : Bool :=
  match s.sys.dev with
  | .active | .recovery | .test => true
  | .warn => !s.sys.quiescing
  | _ => false

/-- Requests of a group's FGR and of its aged set that wait for a grant, deferred frames among them (R156, R263, R266). -/
def waitingRequests (s : State) (g : Nat) : Nat :=
  let fills := s.palette.misses.filter (fun e => e.2.any (fun m =>
    m.cls == 0 && !m.granted && (placeOf s (tileOfKey m.key)).any (fun pl => pl.group == g)))
  (s.easel.reads.filter (fun e => !e.2.granted && lineGroup s e.2.line == g)).length + fills.length
    + ((openDestages s g ++ openWritebacks s g).filter (fun p => p.through && !p.sent)).length
    + ((groupOf s g).journalOut.filter (fun t => t.stale && !t.sent)).length + (groupOf s g).arb.reserved.length

/-- The operations queued or running in a bank of a column: whether each is a read, or a program that R165 allows to suspend. -/
def bankWork (s : State) (g c b : Nat) : List Bool :=
  let at' := fun (pl : Option Place) => pl.any (fun pl => pl.group == g && inBank c b none pl.addrs)
  (s.easel.reads.filter (fun e => at' (linePlace s e.2.line))).map (fun _ => true)
    ++ (s.palette.misses.filter (fun e => e.2.any (fun m => at' (placeOf s (tileOfKey m.key))))).map (fun _ => true)
    ++ (programsIn s g c b).map (fun p => !p.through) ++ (spareAt s g c b).toList.map (fun _ => true)

/-- The banks a line's request addresses have at most one earlier operation each, one that can be waited for or suspended (R156). -/
def banksOpen (s : State) (line : Nat) : Bool :=
  (linePlace s line).all (fun pl => (List.range 8).all (fun c =>
    let w := bankWork s pl.group c (pl.addrs.getD c 0 % 256)
    decide (w.length ≤ 1) && w.all id))

/-- Metadata tiles that a sealed read fetches: those of its path and its remap table tile that the Palette lacks and no miss register
is fetching (R156, R159, R160). -/
def tilesToFetch (s : State) (line : Nat) : List TileId :=
  let remap := (linePlace s line).bind (fun pl => pl.slot.bind (fun x =>
    if (regionOf s pl.group x.1).hr then some (TileId.remap pl.group x.1 (x.2 % 16)) else none))
  (treePath s line ++ remap.toList).filter (fun t =>
    (paletteFind s (paletteKey t)).isNone && (missOf s (paletteKey t)).isNone)

/-- A request is warm (R3, R156). -/
def warmNow (s : State) (line : Nat) (read : Bool) : Bool :=
  let g := lineGroup s line
  let free := 64 - (s.palette.misses.filter (fun x => x.2.isSome)).length
  decide (tabGet dNat s.thermal.sleep g < 2) && decide (waitingRequests s g < 16) && banksOpen s line
    && (!read || !sealedLine s line || decide ((tilesToFetch s line).length ≤ free))

/-- Flag bits 18, 17 and 13 of a sample at arrival (R462). -/
def arrivalFlags (s : State) (line : Nat) (warm : Bool) : Nat :=
  bnat (sealedLine s line) * 2 ^ 18 + bnat (sharedLine s line) * 2 ^ 17 + bnat warm * 2 ^ 13

/-- The first CXL.mem access of a port before Memory Active is recorded (R363). -/
def earlyAccess (s : State) (p : Nat) : State :=
  if tabGet dBool s.sys.earlyAccess p then s
  else raise { s with sys := { s.sys with earlyAccess := tabSet dBool s.sys.earlyAccess p true } } 0x2F0A (leBytes 1 p)

/-- A request that is not warm is counted (R156). -/
def countWarm (s : State) (p : Nat) (warm : Bool) : State :=
  if warm then s else perfCount (bump s 0x2600 6 1) p 0x11 1

/-- A read arrives (R157, R167, R282, R288, R363). -/
def hostRead (s : State) (p tag address mv : Nat) (us : List Upset) : State :=
  let who : Requester := .host p tag
  let w : ReadWait := { line := 0, who := who, metaValue := 0, arrival := s.sys.time }
  if s.sys.dev = .priming then deliverRead (earlyAccess (perfCount s p 2 1) p) w 0 true
  else if hostsServed s then
    let s := perfCount s p 2 1
    match hostDpa s p address with
    | none => deliverRead (sampleDraw s who 0 false 0) w 0 true
    | some dpa =>
      let line := dpa / 64
      let warm := warmNow s line true
      let s := sampleDraw (countWarm s p warm) who line false (arrivalFlags s line warm)
      let w : ReadWait := { w with line := line, metaValue := mv, warm := warm }
      if sharedLine s line && (portOf s p).fenced then deliverRead s { w with metaValue := 0 } 0 true
      else lineRequest (meetUpsets s line us) (.read w)
  else s

/-- HOST_READ (R157): `upset` and `also` are the soft errors it meets. -/
def execHostRead (port : Port) (tag : BitVec 16) (address : BitVec 52) (metaValue : Fin 3)
    (upset also : Upset) (s : State) : Host.Outcome State Fault Refusal :=
  if linkUp s port.val then .next (hostRead s port.val tag.toNat address.toNat metaValue.val [upset, also]) else .next s

/-- A write arrives (R93 to R97, R167, R174, R282, R288, R363, R492). A port whose held-write buffer is full returns no
request-with-data credits, so no write can arrive. -/
def hostWrite (s : State) (p tag address mv : Nat) (mask : BitVec 64) (data : Line) (poison : Bool)
    (us : List Upset) : State :=
  let who : Requester := .host p tag
  let event := if mask = fullMask then 3 else 4
  let a : AckWait := { line := 0, who := who, arrival := s.sys.time }
  if s.sys.dev = .priming then deliverAck (earlyAccess (perfCount s p event 1) p) a
  else if hostsServed s && decide (heldEntries s p < 64) then
    let s := perfCount s p event 1
    match hostDpa s p address with
    | none => deliverAck (sampleDraw s who 0 true 0) a
    | some dpa =>
      let line := dpa / 64
      let warm := warmNow s line false
      let s := sampleDraw (countWarm s p warm) who line true (arrivalFlags s line warm)
      if sharedLine s line && (portOf s p).fenced then deliverAck s { a with line := line, warm := warm }
      else
        lineRequest (meetUpsets s line us) (.write
          { line := line, who := who, port := p, mask := mask, data := data, poison := poison, metaValue := mv,
            arrival := s.sys.time, warm := warm })
  else s

/-- HOST_WRITE (R93): a full line. -/
def execHostWrite (port : Port) (tag : BitVec 16) (address : BitVec 52) (metaValue : Fin 3) (data : Line)
    (poison : Bool) (upset also : Upset) (s : State) : Host.Outcome State Fault Refusal :=
  if linkUp s port.val then
    .next (hostWrite s port.val tag.toNat address.toNat metaValue.val fullMask data poison [upset, also])
  else .next s

/-- PARTIAL_WRITE (R95): the bytes of the mask. -/
def execPartialWrite (port : Port) (tag : BitVec 16) (address : BitVec 52) (metaValue : Fin 3) (mask : BitVec 64)
    (data : Line) (poison : Bool) (upset also : Upset) (s : State) : Host.Outcome State Fault Refusal :=
  if linkUp s port.val then
    .next (hostWrite s port.val tag.toNat address.toNat metaValue.val mask data poison [upset, also])
  else .next s

end Sys2Proof.Machine
end

