-- ==== Sys2Proof/Machine/Mailbox.lean ====
section
/-! DEFINITION. Machine/Mailbox.lean: the CXL mailbox commands of a port (R292 to R299), but for the dictionary tunnel. Return
codes and the places of fields in a payload are the CXL specification's (log entry 17). -/

namespace Sys2Proof.Machine

/-- Return codes of the CXL mailbox (log entry 17). -/
def rcSuccess : Nat := 0
/-- Background Command Started. -/
def rcStarted : Nat := 1
/-- Invalid Input. -/
def rcInvalid : Nat := 2
/-- Unsupported. -/
def rcUnsupported : Nat := 3
/-- Busy. -/
def rcBusy : Nat := 6
/-- Invalid Handle. -/
def rcHandle : Nat := 0x0E
/-- Invalid Physical Address. -/
def rcAddress : Nat := 0x0F
/-- Invalid Log. -/
def rcLog : Nat := 0x17

/-- Completes a mailbox command: it is counted and its answer given (R292, R303). -/
def mailboxDone (s : State) (p opcode rc : Nat) (payload : List Byte) : State :=
  emit (bump s (0x2B20 + p) 0x0B 1) (.mailbox (Fin.ofNat 4 p) opcode rc payload)

/-- Serves a mailbox command while the port's link is up. -/
def mailbox (s : State) (port : Port) (f : State → Nat → State) : Host.Outcome State Fault Refusal :=
  if linkUp s port.val then .next (f s port.val) else .next s

/-- IDENTIFY (R292). -/
def execIdentify (port : Port) (s : State) : Host.Outcome State Fault Refusal :=
  mailbox s port (fun s p => mailboxDone s p 1 rcSuccess (Config.answerBytes 1 0))

/-- A background command runs on the port (R292). -/
def backgroundRuns (s : State) (p : Nat) : Bool :=
  let b := (portOf s p).background
  b.1 != 0 && decide (b.2.1 < 100)

/-- BACKGROUND_OPERATION_STATUS (R292): running bit and percentage, opcode, return code. -/
def execBackgroundOperationStatus (port : Port) (s : State) : Host.Outcome State Fault Refusal :=
  mailbox s port (fun s p =>
    let b := (portOf s p).background
    mailboxDone s p 2 rcSuccess
      (leBytes 1 (bnat (backgroundRuns s p) + 2 * b.2.1) ++ leBytes 1 0 ++ leBytes 2 b.1 ++ leBytes 2 b.2.2 ++ leBytes 2 0))

/-- GET_RESPONSE_MESSAGE_LIMIT (R292). -/
def execGetResponseMessageLimit (port : Port) (s : State) : Host.Outcome State Fault Refusal :=
  mailbox s port (fun s p => mailboxDone s p 3 rcSuccess (leBytes 1 (portOf s p).messageLimit))

/-- SET_RESPONSE_MESSAGE_LIMIT (R292): a power of two of bytes from 256 B to the 2 KiB payload of R275. -/
def execSetResponseMessageLimit (port : Port) (limit : Byte) (s : State) : Host.Outcome State Fault Refusal :=
  mailbox s port (fun s p =>
    let n := limit.toNat
    if 8 ≤ n ∧ n ≤ 11 then
      mailboxDone (modPort s p (fun x => { x with messageLimit := n })) p 4 rcSuccess (leBytes 1 n)
    else mailboxDone s p 4 rcInvalid [])

/-- Clear-map bit of the i-th record kept in a port's event queue (R330). -/
def recordBit (s : State) (p i : Nat) : Nat :=
  ((queueOf s (9 + p)).mark + 14 * i) % queueCapacity (9 + p) / 14 % 8192

/-- The i-th record kept in the port's event queue is cleared. -/
def recordCleared (s : State) (p i : Nat) : Bool :=
  tabGet dBool (queueOf s (9 + p)).cleared (recordBit s p i)

/-- Sets a clear-map bit (R330). -/
def clearRecord (s : State) (p i : Nat) : State :=
  modQueue s (9 + p) (fun x => { x with cleared := tabSet dBool x.cleared (recordBit s p i) true })

/-- The mark advances past every leading cleared record (R330). -/
def advanceMark : Nat → State → Nat → State
  | 0, s, _ => s
  | fuel + 1, s, p =>
    if (portOf s p).events ≠ [] ∧ recordCleared s p 0 then
      let s := modQueue s (9 + p) (fun x => { x with cleared := tabSet dBool x.cleared (recordBit s p 0) false })
      let s := setMark (takeWords s (9 + p) 14) (9 + p) 14
      advanceMark fuel (modPort s p (fun x => { x with events := x.events.drop 1 })) p
    else s

/-- Advances the mark and lets the event poster's records in (R295, R330). -/
def advanceEvents (s : State) (p : Nat) : State :=
  eventRelease 256 (advanceMark 8192 s p) p

/-- The words of the i-th record kept. -/
def recordWords (s : State) (p i : Nat) : List QWord :=
  ((queueOf s (9 + p)).words.drop (14 * i)).take 14

/-- Overflow fields of a log: count, first and last time. -/
def logOverflow (s : State) (p log : Nat) : Nat × Nat × Nat :=
  tabGet (fun _ => (0, 0, 0)) (portOf s p).eventOverflow log

/-- A record with a poisoned word is discarded and its log's overflow indication set (R333). -/
def dropPoisonedRecord (s : State) (p i : Nat) (e : EventRec) : State :=
  let o := logOverflow s p e.log
  let o := (o.1 + 1, if o.1 = 0 then e.time else o.2.1, e.time)
  let s := modPort (clearRecord s p i) p (fun x =>
    { x with eventOverflow := tabSet (fun _ => (0, 0, 0)) x.eventOverflow e.log o })
  raise s 0x2D02 (leBytes 1 p ++ leBytes 1 e.log)

/-- GET_EVENT_RECORDS (R295, R330, R333): the log's records that are not cleared, as many as the payload holds. -/
def execGetEventRecords (port : Port) (log : Fin 4) (s : State) : Host.Outcome State Fault Refusal :=
  mailbox s port (fun s p =>
    let numbered := (portOf s p).events.zipIdx
    let s := (numbered.filter (fun e => e.1.log == log.val && (recordWords s p e.2).any isPoisoned
      && !recordCleared s p e.2)).foldl (fun s e => dropPoisonedRecord s p e.2 e.1) s
    let keep := numbered.filter (fun e => e.1.log == log.val && !recordCleared s p e.2)
    let room := (2 ^ min 11 (portOf s p).messageLimit - 32) / 128
    let o := logOverflow s p log.val
    let payload := leBytes 1 (bnat (decide (0 < o.1)) + 2 * bnat (decide (room < keep.length))) ++ leBytes 1 0
      ++ satBytes 2 o.1 ++ leBytes 8 o.2.1 ++ leBytes 8 o.2.2 ++ leBytes 2 (min room keep.length) ++ leBytes 10 0
      ++ (keep.take room).flatMap (fun e => (eventWords e.1).flatMap (fun w => leBytes 8 w))
    mailboxDone (advanceEvents s p) p 0x0100 rcSuccess payload)

/-- CLEAR_EVENT_RECORDS (R330): the records of the log with these handles, or all of it. -/
def execClearEventRecords (port : Port) (log : Fin 4) (all : Bool) (handles : List (BitVec 16)) (s : State) :
    Host.Outcome State Fault Refusal :=
  mailbox s port (fun s p =>
    let mine := (portOf s p).events.zipIdx.filter (fun e => e.1.log == log.val && !recordCleared s p e.2)
    let known := handles.all (fun h => mine.any (fun e => e.1.handle == h.toNat))
    if all || known then
      let gone := mine.filter (fun e => all || handles.any (fun h => h.toNat == e.1.handle))
      let s := gone.foldl (fun s e => clearRecord s p e.2) s
      let s := if all then modPort s p (fun x =>
          { x with eventOverflow := tabSet (fun _ => (0, 0, 0)) x.eventOverflow log.val (0, 0, 0) }) else s
      mailboxDone (advanceEvents s p) p 0x0101 rcSuccess []
    else mailboxDone s p 0x0101 rcHandle [])

/-- GET_EVENT_INTERRUPT_POLICY (R295). -/
def execGetEventInterruptPolicy (port : Port) (s : State) : Host.Outcome State Fault Refusal :=
  mailbox s port (fun s p => mailboxDone s p 0x0102 rcSuccess (portOf s p).policy)

/-- SET_EVENT_INTERRUPT_POLICY (R295): one byte for each log. -/
def execSetEventInterruptPolicy (port : Port) (policy : BitVec 32) (s : State) : Host.Outcome State Fault Refusal :=
  mailbox s port (fun s p =>
    mailboxDone (modPort s p (fun x => { x with policy := leBytes 4 policy.toNat })) p 0x0103 rcSuccess [])

/-- GET_FW_INFO (R292): one slot, read-only, with the mask-ROM revision; no activation. -/
def execGetFwInfo (port : Port) (s : State) : Host.Outcome State Fault Refusal :=
  mailbox s port (fun s p => mailboxDone s p 0x0200 rcSuccess
    ([1, 1, 0] ++ leBytes 13 0 ++ leBytes 16 Config.maskRomRevision.toNat ++ leBytes 48 0))

/-- Opcodes a mailbox serves (R292). -/
def mailboxServes (opcode : Nat) : Bool :=
  (1 ≤ opcode && opcode ≤ 4) || (0x100 ≤ opcode && opcode ≤ 0x103) || opcode == 0x200 || opcode == 0x300 || opcode == 0x301
    || opcode == 0x400 || opcode == 0x401 || opcode == 0x4000 || (0x4200 ≤ opcode && opcode ≤ 0x4204)
    || (0x4300 ≤ opcode && opcode ≤ 0x4305) || opcode == 0xC000

/-- MAILBOX_UNSUPPORTED (R292): any opcode outside the table. -/
def execMailboxUnsupported (port : Port) (opcode : BitVec 16) (s : State) : Host.Outcome State Fault Refusal :=
  mailbox s port (fun s p =>
    if mailboxServes opcode.toNat then s else mailboxDone s p opcode.toNat rcUnsupported [])

/-- The device timestamp (R293). -/
def timestamp (s : State) : Nat :=
  (nowNs s + s.path.timestampOffset) % 2 ^ 64

/-- GET_TIMESTAMP (R293). -/
def execGetTimestamp (port : Port) (s : State) : Host.Outcome State Fault Refusal :=
  mailbox s port (fun s p => mailboxDone s p 0x0300 rcSuccess (leBytes 8 (timestamp s)))

/-- SET_TIMESTAMP (R293): time base plus offset equals the value. -/
def execSetTimestamp (port : Port) (value : BitVec 64) (s : State) : Host.Outcome State Fault Refusal :=
  mailbox s port (fun s p =>
    mailboxDone { s with path := { s.path with timestampOffset := (value.toNat + 2 ^ 64 - nowNs s) % 2 ^ 64 } }
      p 0x0301 rcSuccess [])

/-- GET_SUPPORTED_LOGS (R292): the Command Effects Log. -/
def execGetSupportedLogs (port : Port) (s : State) : Host.Outcome State Fault Refusal :=
  mailbox s port (fun s p => mailboxDone s p 0x0400 rcSuccess (leBytes 2 1 ++ leBytes 6 0 ++ Config.answerBytes 0x400 0))

/-- GET_LOG (R292): bytes of the Command Effects Log. -/
def execGetLog (port : Port) (effects : Bool) (offset length : BitVec 32) (s : State) : Host.Outcome State Fault Refusal :=
  mailbox s port (fun s p =>
    if effects then
      mailboxDone s p 0x0401 rcSuccess (bytesAt (Config.answerBytes 0x401 0) offset.toNat (min length.toNat 2048))
    else mailboxDone s p 0x0401 rcLog [])

/-- IDENTIFY_MEMORY_DEVICE (R292): total and persistent capacity, volatile 0, no label area, poison list of 4,096. -/
def execIdentifyMemoryDevice (port : Port) (s : State) : Host.Outcome State Fault Refusal :=
  mailbox s port (fun s p =>
    let n := hostVisibleUnits s
    mailboxDone s p 0x4000 rcSuccess
      (leBytes 16 Config.maskRomRevision.toNat ++ leBytes 8 n ++ leBytes 8 0 ++ leBytes 8 n ++ leBytes 8 0
        ++ padTo 8 (Config.answerBytes 0x4000 0) ++ leBytes 4 0 ++ leBytes 3 4096 ++ padTo 4 (Config.answerBytes 0x4000 1)))

/-- Highest of the die sensors, in °C (R296). -/
def deviceTemperature (s : State) : Int :=
  s.thermal.tDie / 10

/-- GET_HEALTH_INFO (R296, R297). -/
def execGetHealthInfo (port : Port) (s : State) : Host.Outcome State Fault Refusal :=
  mailbox s port (fun s p => mailboxDone s p 0x4200 rcSuccess
    (leBytes 1 (healthStatus s p) ++ leBytes 1 (mediaStatus s) ++ leBytes 1 0 ++ leBytes 1 s.sys.lifeUsed
      ++ leBytes 2 (toUnsigned 2 (deviceTemperature s)) ++ leBytes 4 (tallyValue s 150)
      ++ satBytes 4 (stat s 0x2310 0x0D).toNat ++ satBytes 4 (stat s 0x2100 4).toNat))

/-- GET_ALERT_CONFIGURATION (R292, R393): the over-temperature warning is [3010.04], the critical one [3010.06]. -/
def execGetAlertConfiguration (port : Port) (s : State) : Host.Outcome State Fault Refusal :=
  mailbox s port (fun s p =>
    let x := portOf s p
    mailboxDone s p 0x4201 rcSuccess
      (leBytes 1 x.alertEnabled ++ leBytes 1 7 ++ leBytes 1 100 ++ leBytes 1 (tabGet dNat x.alerts 0)
        ++ leBytes 2 (settingN s 0x3010 6) ++ leBytes 2 0 ++ leBytes 2 (settingN s 0x3010 4)
        ++ leBytes 2 (tabGet dNat x.alerts 2) ++ leBytes 4 0))

/-- The ordering check of the thermal thresholds (R393). -/
def thermalOrder (warn throttle limit : Int) : Bool :=
  decide (warn + 2 ≤ throttle ∧ throttle + 2 ≤ limit)

/-- SET_ALERT_CONFIGURATION (R292, R393): `valid` and `enable` by bit: 0 life used, 1 over-temperature, 2 under-temperature.
The over-temperature threshold is written to [3010.04] under its range and the ordering check. -/
def execSetAlertConfiguration (port : Port) (valid enable life : Byte) (hot cold : BitVec 16) (s : State) :
    Host.Outcome State Fault Refusal :=
  mailbox s port (fun s p =>
    let t := hot.toInt
    let ok := !valid.getLsbD 1 ||
      (decide (70 ≤ t ∧ t ≤ 105) && thermalOrder t (setting s 0x3010 5) (setting s 0x3010 6))
    if ok then
      let s := if valid.getLsbD 1 then setSetting s 0x3010 4 t else s
      let s := modPort s p (fun x =>
        { x with
          alertEnabled := ((valid &&& enable) ||| (~~~valid &&& BitVec.ofNat 8 x.alertEnabled)).toNat % 8,
          alerts := tabSet dNat (if valid.getLsbD 0 then tabSet dNat x.alerts 0 life.toNat else x.alerts) 2
            (if valid.getLsbD 2 then cold.toNat else tabGet dNat x.alerts 2) })
      mailboxDone s p 0x4202 rcSuccess []
    else mailboxDone s p 0x4202 rcInvalid [])

/-- GET_SHUTDOWN_STATE (R298). -/
def execGetShutdownState (port : Port) (s : State) : Host.Outcome State Fault Refusal :=
  mailbox s port (fun s p => mailboxDone s p 0x4203 rcSuccess (leBytes 1 (bnat (portOf s p).shutdownDirty)))

/-- Sets a port's shutdown state and its place in both Folio copies (R298). -/
def setShutdownState (s : State) (p : Nat) (dirty : Bool) : State :=
  sectionUpdate (imageStore (modPort s p (fun x => { x with shutdownDirty := dirty })) (0x9FF0 + p)
    (leBytes 1 (bnat dirty))) 9

/-- SET_SHUTDOWN_STATE (R298). -/
def execSetShutdownState (port : Port) (dirty : Bool) (s : State) : Host.Outcome State Fault Refusal :=
  mailbox s port (fun s p => mailboxDone (setShutdownState s p dirty) p 0x4204 rcSuccess [])

/-- Serves a poison or scan command: Busy before Memory Active (R363). -/
def mediaCommand (s : State) (p opcode : Nat) (f : State → State) : State :=
  if s.sys.memoryActive then f s else mailboxDone s p opcode rcBusy []

/-- A media error record: DPA with its source, one line (R151, log entry 17). -/
def poisonRecord (line source : Nat) : List Byte :=
  leBytes 8 (line * 64 + source) ++ leBytes 4 1 ++ leBytes 4 0

/-- GET_POISON_LIST (R292, R151, R152): entries in `lines` lines from `first` that the port's windows cover. -/
def execGetPoisonList (port : Port) (first : LineAddr) (lines : BitVec 39) (s : State) :
    Host.Outcome State Fault Refusal :=
  mailbox s port (fun s p => mediaCommand s p 0x4300 (fun s =>
    let es := (poisonEntries s).filter (fun e => portCovers s p (e.line * 64)
      && decide (first.toNat ≤ e.line ∧ e.line < first.toNat + lines.toNat))
    let room := (2 ^ min 11 (portOf s p).messageLimit - 32) / 16
    mailboxDone s p 0x4300 rcSuccess
      (leBytes 1 (bnat (decide (room < es.length)) + 2 * bnat s.palette.overflow + 4 * bnat (backgroundRuns s p))
        ++ leBytes 1 0 ++ leBytes 8 (if s.palette.overflow then s.palette.overflowAt - 1 + s.path.timestampOffset else 0)
        ++ leBytes 2 (min room es.length) ++ leBytes 20 0
        ++ (es.take room).flatMap (fun e => poisonRecord e.line e.source))))

/-- The line may be named in a media command of the port. -/
def lineAllowed (s : State) (p line : Nat) : Bool :=
  hostVisible s.path.layout (line * 64) && portCovers s p (line * 64)

/-- INJECT_POISON (R294): P set, dirty, charged to the port's share; a permanent entry of source 3. -/
def execInjectPoison (port : Port) (line : LineAddr) (s : State) : Host.Outcome State Fault Refusal :=
  mailbox s port (fun s p => mediaCommand s p 0x4301 (fun s =>
    let l := line.toNat
    if settingB s 0x2B00 2 = false then mailboxDone s p 0x4301 rcUnsupported []
    else if lineAllowed s p l = false then mailboxDone s p 0x4301 rcAddress []
    else
      let s := performWrite s { line := l, who := .clear p, port := p, mask := fullMask, data := 0, poison := true,
                                arrival := s.sys.time }
      let s := bump (poisonInsert s l true 3).1 (0x2B20 + p) 0x0D 1
      mailboxDone s p 0x4301 rcSuccess []))

/-- CLEAR_POISON (R292): the 64 B as a full-line write. -/
def execClearPoison (port : Port) (line : LineAddr) (data : Line) (s : State) : Host.Outcome State Fault Refusal :=
  mailbox s port (fun s p => mediaCommand s p 0x4302 (fun s =>
    let l := line.toNat
    if lineAllowed s p l = false then mailboxDone s p 0x4302 rcAddress []
    else
      let s := lineRequest s (.write { line := l, who := .clear p, port := p, mask := fullMask, data := data,
                                       arrival := s.sys.time })
      mailboxDone s p 0x4302 rcSuccess []))

/-- GET_SCAN_MEDIA_CAPABILITIES (R294). -/
def execGetScanMediaCapabilities (port : Port) (s : State) : Host.Outcome State Fault Refusal :=
  mailbox s port (fun s p => mailboxDone s p 0x4303 rcSuccess (Config.answerBytes 0x4303 0))

/-- SCAN_MEDIA (R294): the reads of the range, in address order. -/
def execScanMedia (port : Port) (first : LineAddr) (lines : BitVec 39) (s : State) : Host.Outcome State Fault Refusal :=
  mailbox s port (fun s p => mediaCommand s p 0x4304 (fun s =>
    let a := first.toNat
    let n := lines.toNat
    if backgroundRuns s p then mailboxDone s p 0x4304 rcBusy []
    else if n = 0 ∨ lineAllowed s p a = false ∨ lineAllowed s p (a + n - 1) = false then
      mailboxDone s p 0x4304 rcAddress []
    else
      let s := modPort s p (fun x => { x with background := (0x4304, 0, 0), scan := (a, n), scanFound := [] })
      let s := mailboxDone s p 0x4304 rcStarted []
      (List.range n).foldl (fun s i =>
        performRead s { line := a + i, who := .scan p, arrival := s.sys.time }) s))

/-- Reads of the port's scan that are still out. -/
def scanOut (s : State) (p : Nat) : Bool :=
  s.easel.waits.any (fun w => w.who == .scan p)
    || s.easel.reads.any (fun e => e.2.readers.any (fun w => w.who == .scan p))

/-- SCAN_MEDIA_COMPLETE (R294): every read is answered and the background command ends. -/
def execScanMediaComplete (port : Port) (s : State) : Host.Outcome State Fault Refusal :=
  let p := port.val
  if backgroundRuns s p && !scanOut s p then
    .next (modPort s p (fun x => { x with background := (x.background.1, 100, rcSuccess) }))
  else .next s

/-- GET_SCAN_MEDIA_RESULTS (R294): the lines found poisoned, as many as the payload holds; those returned are dropped. -/
def execGetScanMediaResults (port : Port) (s : State) : Host.Outcome State Fault Refusal :=
  mailbox s port (fun s p =>
    let found := (portOf s p).scanFound
    let room := (2 ^ min 11 (portOf s p).messageLimit - 32) / 16
    let s := modPort s p (fun x => { x with scanFound := x.scanFound.drop room })
    mailboxDone s p 0x4305 rcSuccess
      (leBytes 16 0 ++ leBytes 1 (bnat (decide (room < found.length))) ++ leBytes 1 0 ++ leBytes 2 (min room found.length)
        ++ leBytes 12 0
        ++ (found.take room).flatMap (fun l => poisonRecord l ((poisonEntry s l).elim 2 (·.source)))))

/-- GPF_PHASE2 (R299): answered with no flush. -/
def execGpfPhase2 (port : Port) (s : State) : Host.Outcome State Fault Refusal :=
  if linkUp s port.val then .next (emit (bump s 0x2B00 6 1) (.link port 2)) else .next s

end Sys2Proof.Machine
end

