-- ==== Sys2Proof/Machine/Crypt.lean ====
section
/-! DEFINITION. Machine/Crypt.lean: the key store (R184, R185), the installation key and range keys (R186, R208), the states
of the key ranges and the range commands (R181 to R183), and the pages of sealed ranges under re-encryption (R195). -/

namespace Sys2Proof.Machine

/-- A wrapped key as the store holds it; all zero where there is none (R184, R185). -/
def wrappedOr (kek key : List Byte) (n : Nat) : List Byte :=
  if key = [] then List.replicate n 0 else padTo n (keyWrap kek key)

/-- A mask with one bit per key range. -/
def rangeMask (s : State) (f : RangeRec → Bool) : Nat :=
  (List.range 8).foldl (fun m r => m + 2 ^ r * bnat (f (rangeRec s r))) 0

/-- A next key is loaded, [2720.05]; the new key of a re-keying is none. -/
def nextLoaded (x : RangeRec) : Bool :=
  x.next != [] && x.state != 3

/-- One copy of the key store (R184) with sequence number `seq`. -/
def keyStoreBytes (s : State) (seq : Nat) : List Byte :=
  let c := s.crypt
  let gl := c.glaze
  let word := rangeMask s (·.fna) + 2 ^ 8 * rangeMask s nextLoaded
    + 2 ^ 16 * (gl.range.getD 0) + 2 ^ 19 * (if gl.range.isSome then gl.kind else 0)
  let keys := (List.range 8).flatMap (fun r =>
    let x := rangeRec s r
    wrappedOr Config.deviceKey x.current 104 ++ wrappedOr Config.deviceKey x.next 104)
  let states := (List.range 8).flatMap (fun r =>
    let x := rangeRec s r
    leBytes 1 x.state ++ leBytes 4 x.generation ++ leBytes 1 x.source ++ [0, 0])
  withCrc (padTo 0xFFC (leBytes 8 seq ++ wrappedOr Config.deviceKey c.ki 40 ++ wrappedOr Config.deviceKey c.treeKey 40
    ++ leBytes 8 word ++ keys ++ states ++ padTo 160 c.layout))

/-- Address of the copy an update with sequence number `seq` goes to: the two copies take turns (R184). -/
def keyStoreAddr (seq : Nat) : Nat :=
  if seq % 2 = 1 then 0x54000 else 0x55000

/-- Queues a key store update (R184, R402). -/
def keyStoreUpdate (s : State) : State :=
  let seq := s.crypt.storeSeq + 1
  let s := { s with crypt := { s.crypt with storeSeq := seq } }
  folioQueue s 2 .keyStore (pageSplit (keyStoreAddr seq) (keyStoreBytes s seq))

/-- A 768-bit key drawn from the random source. -/
def drawKey (s : State) : List Byte × State :=
  (leBytes 96 (drawn s 768), afterDraw s)

/-- Lines of a key range in the Easel, by place. -/
def rangePlaces (s : State) (r : Nat) : List Nat :=
  (s.easel.lines.filter (fun e => e.2.valid && rangeOf s (placeLine s e.1) == r)).map (·.1)

/-- First unit of 256 MiB of a range, and how many units it spans, gaps included (R180). -/
def rangeSpan (s : State) (r : Nat) : Nat × Nat :=
  if r = 0 then
    (0, s.path.layout.contain.foldl (fun n c => max n (c.1 + c.2.1)) (s.path.layout.spread * 8))
  else (settingN s (0x2710 + r) 1, settingN s (0x2710 + r) 2)

/-- The unit `u` of 256 MiB is host-visible and lies in range `r`. -/
def unitInRange (s : State) (r u : Nat) : Bool :=
  rangeOf s (u * 2 ^ 22) == r && (locate s.path.layout (u * 2 ^ 28)).isSome

/-- The first step from `k` on that holds lines of the range (R201); a step lies within one unit of 256 MiB. -/
def nextStep (s : State) (r k : Nat) : Option Nat :=
  let sp := rangeSpan s r
  let here := k / 8192
  if here < sp.2 ∧ unitInRange s r (sp.1 + here) then some k
  else
    (((List.range (sp.2 - here - 1)).map (here + 1 + ·)).find? (fun u => unitInRange s r (sp.1 + u))).map (· * 8192)

/-- Groups that a range covers (R205). -/
def rangeGroups (s : State) (r : Nat) : List Nat :=
  let sp := rangeSpan s r
  (List.range 8).filter (fun g => (List.range sp.2).any (fun i =>
    let u := sp.1 + i
    unitInRange s r u && (decide (u < s.path.layout.spread * 8) ||
      s.path.layout.contain.any (fun c => decide (c.1 ≤ u ∧ u < c.1 + c.2.1) && bitOf c.2.2 g))))

/-- Sets the Glaze engine going on an operation from the range's first step. -/
def engineStart (s : State) (r kind : Nat) : State :=
  { s with crypt := { s.crypt with glaze := { s.crypt.glaze with
      range := some r, kind := kind, state := kind, step := (nextStep s r 0).getD 0, mask := 0, opened := false, units := [],
      finishing := [], began := s.sys.time } } }

/-- Frees the engine; the next opening that waits begins (R183). -/
def engineIdle (s : State) : State :=
  let queue := s.crypt.glaze.queue
  let s := { s with crypt := { s.crypt with glaze := { queue := queue.tail } } }
  match queue with
  | r :: _ => engineStart s r 1
  | [] => s

/-- Places a range among the openings that wait, in ascending order. -/
def queueOpening (q : List Nat) (r : Nat) : List Nat :=
  if q.contains r then q else q.filter (· < r) ++ r :: q.filter (fun x => r < x)

/-- The range becomes Opening under its next key, or a drawn one (R182, R183). -/
def startOpening (s : State) (r : Nat) : State :=
  let x := rangeRec s r
  let s :=
    if x.next = [] then
      let k := drawKey s
      modRange k.2 r (fun x => { x with current := k.1, generation := x.generation + 1, source := 0, state := 1, closing := false })
    else modRange s r (fun x =>
      { x with current := x.next, next := [], source := bnat x.nextInstalled, nextInstalled := false, state := 1, closing := false })
  let s :=
    if s.crypt.glaze.range.isNone then engineStart s r 1
    else { s with crypt := { s.crypt with glaze := { s.crypt.glaze with queue := queueOpening s.crypt.glaze.queue r } } }
  keyStoreUpdate s

/-- What rejects a range command in every state (R182, R207). -/
def rangeGuard (s : State) (r : Nat) : Option Nat :=
  if ephemeralState s then some 0x270B
  else if (s.crypt.glaze.range.elim false (· != r)) || (rangeRec s r).closing then some 0x2709
  else none

/-- RANGE_OPEN (R182): from Closed at once, from Empty through an opening. -/
def rangeOpen (s : State) (r : Nat) : Except Nat State :=
  match rangeGuard s r with
  | some d => .error d
  | none =>
    if (rangeRec s r).state = 4 then .ok (keyStoreUpdate (modRange s r (fun x => { x with state := 2 })))
    else if (rangeRec s r).state = 0 then .ok (startOpening s r)
    else .error 0x2709

/-- RANGE_OPEN. -/
def execRangeOpen (via : Via) (range : KeyRange) (s : State) : Host.Outcome State Fault Refusal :=
  .next (served s via (0x2710 + range.val) 6 [1] (fun _ s => rangeOpen s range.val))

/-- RANGE_CLOSE (R182): every dirty line of the range is selected in class 4. -/
def rangeClose (s : State) (r : Nat) : Except Nat State :=
  match rangeGuard s r with
  | some d => .error d
  | none =>
    if (rangeRec s r).state = 2 then
      let s := modRange s r (fun x => { x with closing := true })
      .ok (((dirtyPlaces s (fun _ => true)).filter (fun p => rangeOf s (placeLine s p) == r)).foldl
        (fun s p => destageSelect s 4 0 p) s)
    else .error 0x2709

/-- RANGE_CLOSE. -/
def execRangeClose (via : Via) (range : KeyRange) (s : State) : Host.Outcome State Fault Refusal :=
  .next (served s via (0x2710 + range.val) 6 [2] (fun _ s => rangeClose s range.val))

/-- RANGE_CLOSE_END (R182): no line of the range is dirty, merge-pending or in flight; its Easel lines are invalidated. A
dirty line that found no place in its destage queue is selected again. -/
def execRangeCloseEnd (range : KeyRange) (s : State) : Host.Outcome State Fault Refusal :=
  let r := range.val
  if (rangeRec s r).closing then
    let ps := rangePlaces s r
    let busy := ps.filter (fun p =>
      let x := easelLine s p
      x.dirty || x.merge || x.flight)
    if busy = [] then
      let s := ps.foldl (fun s p =>
        let s := if (easelLine s p).fill then deadenFill s p (placeLine s p) (fun _ => true) else s
        modLine s p (fun _ => {})) s
      .next (keyStoreUpdate (modRange s r (fun x => { x with closing := false, state := 4 })))
    else .next (busy.foldl (fun s p =>
      if (easelLine s p).dirty && !(easelLine s p).queued && !(easelLine s p).flight then destageSelect s 4 0 p else s) s)
  else .next s

/-- Discards the Easel lines of a range without destage, its poison entries and fences (R182 erase); a page of it under
re-encryption is given up with its bookings. Requests that wait for those lines are answered as for a range that is not open
(R167). -/
def discardRange (s : State) (r : Nat) : State :=
  let mine := fun (l : Nat) => rangeOf s l == r
  let s0 := s
  let s := (rangePlaces s r).foldl (fun s p =>
    let s := chargeLine s p (easelLine s p).share 0
    let s := setMerge (destageRemove s p) p 0#64
    modLine s p (fun _ => {})) s
  let waits := s.easel.waits.filter (fun w => rangeOf s0 w.line == r)
  let bypass := (s.easel.reads.filter (fun e => rangeOf s0 e.2.line == r)).flatMap (·.2.readers)
  let s := { s with easel := { s.easel with
    waits := s.easel.waits.filter (fun w => rangeOf s0 w.line != r),
    reads := s.easel.reads.filter (fun e => rangeOf s0 e.2.line != r),
    flights := s.easel.flights.filter (fun f => rangeOf s0 f.line != r),
    flush := s.easel.flush.filter (fun e => (easelLine s e.1).valid),
    acks := s.easel.acks.map (fun (a : AckWait) =>
      if rangeOf s0 a.line = r then { a with destage := false, counter := none } else a) } }
  let s := { s with palette := { s.palette with spans := s.palette.spans.filter (fun f => f.range != r) } }
  let s := (poisonEntries s).foldl (fun s e => if mine e.line then poisonRemove s e.line else s) s
  let jobs := (List.range 8).flatMap (fun g => (groupOf s g).pages.filter (fun j => rangeOfCounter s0 j.c == some r))
  let s := deviceFree s (jobs.foldl (fun n j => n + j.booked) 0)
  let s := (List.range 8).foldl (fun s g => modGroup s g (fun x => { x with
    deepReads := x.deepReads.filter (fun t => match t with
      | .host l => !mine l
      | _ => true),
    pages := x.pages.filter (fun j => rangeOfCounter s0 j.c != some r) })) s
  let writes := s.easel.mergeWait ++ (List.range 4).flatMap (fun p => (portOf s p).held)
  let s := { s with easel := { s.easel with mergeWait := s.easel.mergeWait.filter (fun w => !mine w.line) } }
  let s := (List.range 4).foldl (fun s p =>
    modPort s p (fun x => { x with held := x.held.filter (fun w => !mine w.line) })) s
  let s := (writes.filter (fun w => mine w.line)).foldl (fun s w =>
    deliverAck s { line := w.line, who := w.who, arrival := w.arrival, warm := w.warm }) s
  settleFlush (settleAcks (deliverAll s (waits ++ bypass) 0 true))

/-- RANGE_ERASE (R182). -/
def rangeErase (s : State) (r : Nat) : Except Nat State :=
  match rangeGuard s r with
  | some d => .error d
  | none =>
    if (rangeRec s r).state = 2 ∨ (rangeRec s r).state = 4 then
      let s := discardRange s r
      .ok (startOpening (modRange s r (fun x => { x with current := [] })) r)
    else .error 0x2709

/-- RANGE_ERASE. -/
def execRangeErase (via : Via) (range : KeyRange) (s : State) : Host.Outcome State Fault Refusal :=
  .next (served s via (0x2710 + range.val) 6 [3] (fun _ s => rangeErase s range.val))

/-- INSTALLATION_KEY (R186): the first KI, in the clear. -/
def installationKey (s : State) (key : List Byte) : Except Nat State :=
  if ephemeralState s then .error 0x270B
  else if s.crypt.ki ≠ [] then .error 0x2708
  else .ok (raise (keyStoreUpdate { s with crypt := { s.crypt with ki := key } }) 0x270C [0])

/-- INSTALLATION_KEY. -/
def execInstallationKey (via : Via) (key : BitVec 256) (s : State) : Host.Outcome State Fault Refusal :=
  .next (served s via 0x2720 1 (leBytes 32 key.toNat) (fun _ s => installationKey s (leBytes 32 key.toNat)))

/-- INSTALLATION_KEY_REWRAP (R186): a replacement KI, wrapped under the present one. -/
def installationRewrap (s : State) (wrapped : List Byte) : Except Nat State :=
  if ephemeralState s then .error 0x270B
  else if s.crypt.ki = [] then .error 0x270A
  else match keyUnwrap s.crypt.ki wrapped with
    | none => .error 0x2706
    | some key => .ok (raise (keyStoreUpdate { s with crypt := { s.crypt with ki := key } }) 0x270C [1])

/-- INSTALLATION_KEY_REWRAP. -/
def execInstallationKeyRewrap (via : Via) (wrapped : BitVec 320) (s : State) : Host.Outcome State Fault Refusal :=
  .next (served s via 0x2720 2 (leBytes 40 wrapped.toNat) (fun _ s => installationRewrap s (leBytes 40 wrapped.toNat)))

/-- DISCARD_NEXT_KEY (R208). -/
def discardNext (s : State) (r : Nat) : Except Nat State :=
  if (rangeRec s r).state = 3 then .error 0x2709
  else .ok (keyStoreUpdate (modRange s r (fun x => { x with next := [], nextInstalled := false })))

/-- DISCARD_NEXT_KEY. -/
def execDiscardNextKey (via : Via) (range : KeyRange) (s : State) : Host.Outcome State Fault Refusal :=
  .next (served s via 0x2720 6 (leBytes 1 range.val) (fun _ s => discardNext s range.val))

/-- What refuses the commit of a wrapped range key (R186). -/
def rangeKeyCheck (s : State) (r : Nat) (wrapped : List Byte) : Option Nat :=
  if ephemeralState s then some 0x270B
  else if s.crypt.ki = [] then some 0x270A
  else match keyUnwrap s.crypt.ki wrapped with
    | none => some 0x2706
    | some key =>
      if key.take 32 = bytesAt key 32 32 then some 0x2707
      else if (rangeRec s r).state = 3 then some 0x2709
      else none

/-- The commit of a wrapped range key that passed its check (R186). -/
def rangeKeyInstall (s : State) (r : Nat) (wrapped : List Byte) : State :=
  match keyUnwrap s.crypt.ki wrapped with
  | none => s
  | some key =>
    let s := modRange s r (fun x =>
      { x with next := key, nextInstalled := true, generation := x.generation + 1 })
    raise (keyStoreUpdate s) 0x2709 (leBytes 1 r ++ leBytes 4 (rangeRec s r).generation)

/-- A range whose extent or attributes change goes to Empty without its keys (R181). -/
def emptyRange (s : State) (r : Nat) : State :=
  modRange s r (fun x =>
    { x with state := 0, current := [], next := [], nextInstalled := false, closing := false, held := false })

/-- Line reads of one page for a rewrite (R195, R203): each line that is clean in the Easel and whose tile reads. The new
codeword and the plaintext by line; `false` where a line stays to be read again. -/
structure PageRead where
  /-- the state after the reads -/
  state : State
  /-- lines as read: line, plaintext (none for a poison tile), version read -/
  lines : List (Nat × Option Line × Nat)
  /-- every line that is not dirty was read -/
  whole : Bool

/-- The places of a list of lines can be reached: each remap table tile they need stands in the Palette (R82). -/
def linesReady (s : State) (lines : List Nat) : Bool :=
  lines.all (fun l => (linePlace s l).elim true (remapReady s))

/-- Looks up the remap table tiles that a list of lines needs. -/
def askLines (s : State) (cls : Nat) (lines : List Nat) : State :=
  lines.foldl (fun s l => (linePlace s l).elim s (askRemap s cls)) s

/-- Reads a list of lines for a rewrite; `errs` holds the error patterns of each line's reads. A line of a fenced place reads as
poison (R31, R67). -/
def readLines (requester : Nat) : List Nat → List (List Codeword) → PageRead → PageRead
  | [], _, r => r
  | line :: rest, errs, r =>
    let s := r.state
    let next :=
      if lineDirty s line then r
      else
        match linePlace s line with
        | none => r
        | some pl =>
          if placeFenced s pl then { r with lines := r.lines ++ [(line, none, 0)] }
          else
          let d := engineRead s (.host line) pl (errs.headD [])
          match d.2.1 with
          | .good content _ =>
            (match checkLine d.1 line content with
             | .ok data => { r with state := d.1, lines := r.lines ++ [(line, some data, versionOf content)] }
             | .badMac => { r with state := lineCheckFailed d.1 line requester false none, whole := false }
             | .badVersion => { r with state := lineCheckFailed d.1 line requester true none, whole := false }
             | .noCounter => { r with state := d.1, whole := false })
          | .poison content _ => { r with state := d.1, lines := r.lines ++ [(line, none, versionOf content)] }
          | _ => { r with state := engineUnreadable d.1 (.host line) pl.group d.2.2, whole := false }
    readLines requester rest errs.tail next

/-- The page's lines have a destage whose program runs. -/
def pageInFlight (s : State) (lines : List Nat) : Bool :=
  s.easel.flights.any (fun f => lines.contains f.line)

/-- Changes the page job of counter index `c`. -/
def modPage (s : State) (c : Nat) (f : PageJob2 → PageJob2) : State :=
  modGroup s (c % 8) (fun x => { x with pages := x.pages.map (fun j => if j.c = c then f j else j) })

/-- Steps 1 to 3 of R195 for a page: hold, wait for its flights, book and read. -/
def pageStep (s : State) (job : PageJob2) (errs : List (List Codeword)) : State :=
  let c := job.c
  let g := c % 8
  match paletteData s (.counter c), rangeOfCounter s c with
  | some payload, some r =>
    let s :=
      if job.begun then s
      else jqPush (modPage s c (fun j => { j with begun := true, old := payload })) g (glazeUnits 1 r c)
    let lines := pageLines s c
    let room := s.reserve.budget == 0 || deviceRoom s 32
    let held := s.crypt.glaze.units.any (fun u => lines.contains u.line)
    if linesReady s lines = false then askLines s 1 lines
    else if pageInFlight s lines || !room || held then s
    else
      let booked := if s.reserve.budget = 0 then 0 else 32
      let d := readLines 5 lines errs { state := s, lines := [], whole := true }
      if d.whole then
        let s := d.state
        let m := majorOf payload + 1
        let v := counterVersion m 0
        let codes := d.lines.map (fun e => (e.1, match e.2.1 with
          | some data => lineCode s (lineKey s e.1) e.1 m v data
          | none => poisonCode s (.host e.1) v))
        modPage (deviceBook s booked) c (fun j => { j with ready := true, booked := booked, codes := codes })
      else d.state
  | none, _ => (palLookup s 1 (.counter c)).1
  | _, none => modGroup s g (fun x => { x with pages := x.pages.filter (fun j => j.c != c) })

/-- PAGE_REENCRYPTION (R195): the first page queued in the group. `errs` gives the error patterns of each line's reads. -/
def execPageReencryption (group : Group) (errs : List (List Codeword)) (s : State) : Host.Outcome State Fault Refusal :=
  match (groupOf s group.val).pages.find? (fun j => !j.ready) with
  | some job =>
    let g := group.val
    let open? := s.sys.dev == .active && s.sys.memoryActive && groupAwake s g && !(groupOf s g).fenced
      && !(groupOf s g).staleHold
    if open? && journalRoom s g 1 then .next (pageStep s job errs) else .next s
  | none => .next s

/-- Programs rewritten lines: each tile in its place, counted, and the version noted in a clean Easel copy. -/
def programLines (s : State) (codes : List (Nat × List Byte)) : State :=
  codes.foldl (fun s e =>
    match linePlace s e.1 with
    | some pl => noteVersion (programTile s pl e.2) e.1 (versionOf e.2)
    | none => s) s

/-- PAGE_REENCRYPTION_END (R195 step 4). -/
def execPageReencryptionEnd (group : Group) (s : State) : Host.Outcome State Fault Refusal :=
  let g := group.val
  match (groupOf s g).pages.find? (fun j => j.ready) with
  | none => .next s
  | some job =>
    if journalRoom s g 1 = false then .next s
    else
    let s := programLines s job.codes
    let s := palPut s 1 (.counter job.c) (some (counterPayload (majorOf job.old + 1) [])) false
    let s := deviceFree s job.booked
    let s := modGroup s g (fun x => { x with pages := x.pages.filter (fun j => j.c != job.c) })
    .next (jqPush (bump s 0x2700 9 1) g (glazeUnits 2 ((rangeOfCounter s job.c).getD 0) job.c))

/-- The effect of the encryption statistics clear (R208). -/
def cryptClear (s : State) : State :=
  clearStats s 0x2700 7 4

/-- ENCRYPTION_STATISTICS_CLEAR (R208). -/
def execEncryptionStatisticsClear (via : Via) (s : State) : Host.Outcome State Fault Refusal :=
  .next (served s via 0x2700 0x0B [1] (fun _ s => .ok (cryptClear s)))

end Sys2Proof.Machine
end

