-- ==== Sys2Proof/Machine/Layout.lean ====
section
/-! DEFINITION. Machine/Layout.lean: the contain layout and the key-range layout (R60 to R63, R180, R181, R490): the values
loaded, the checks of a commit, the layout record of the key store, and what a change of layout does to the key ranges. -/

namespace Sys2Proof.Machine

/-- The largest spread span of the population, in units of 2 GiB (R60): 8 × H_min × 64 MiB. -/
def maxSpread (s : State) : Nat :=
  (List.range 8).foldl (fun n g => min n (hostCount s g)) 28672 / 4

/-- [2200.01] SpreadSize; its default is the maximum of R60. -/
def spreadSize (s : State) : Nat :=
  if setting s 0x2200 1 < 0 then maxSpread s else settingN s 0x2200 1

/-- The contain layout the settings spell (R60, R61). -/
def loadedLayout (s : State) : Layout :=
  { spread := spreadSize s,
    contain := (List.range 8).map (fun i =>
      (settingN s (0x2201 + i) 1, settingN s (0x2201 + i) 2, settingN s (0x2201 + i) 3)) }

/-- The default of R60 with no contain ranges. -/
def defaultLayout (s : State) : Layout :=
  { spread := maxSpread s, contain := List.replicate 8 (0, 0, 0) }

/-- Tiles a layout takes in a group (R62). -/
def layoutTiles (l : Layout) (g : Nat) : Nat :=
  l.contain.foldl (fun n r => if r.2.1 ≠ 0 ∧ bitOf r.2.2 g then n + containTiles r else n) (l.spread * 2 ^ 31 / 512)

/-- Half-open intervals of a list that meet. -/
def someOverlap : List (Nat × Nat) → Bool
  | [] => false
  | r :: rest => rest.any (fun q => decide (0 < overlap r.1 r.2 q.1 q.2)) || someOverlap rest

/-- What refuses a contain layout (R63), reasons in table order; unused ranges are not checked. -/
def layoutFault (s : State) (l : Layout) : Option Nat :=
  let used := l.contain.filter (fun r => r.2.1 != 0)
  let legal := fun (n : Nat) => n == 1 || n == 2 || n == 4 || n == 8
  if used.any (fun r => legal (maskCount r.2.2) && r.2.1 % maskCount r.2.2 != 0) then some 0x2203
  else if someOverlap ((0, l.spread * 8) :: used.map (fun r => (r.1, r.1 + r.2.1))) then some 0x2204
  else if used.any (fun r => !legal (maskCount r.2.2)) then some 0x2205
  else if (List.range 8).any (fun g => decide (hostCount s g * 2 ^ 20 < layoutTiles l g)) then some 0x2206
  else if used.any (fun r => decide (65536 < r.1 + r.2.1)) then some 0x2207
  else none

/-- Some DPA of a unit of 256 MiB lies at another group or group tile index under the other layout (R63): one round of
4 KiB blocks through the groups tells. -/
def unitMoved (a b : Layout) (u : Nat) : Bool :=
  (List.range 8).any (fun k => locate a (u * 2 ^ 28 + k * 4096) != locate b (u * 2 ^ 28 + k * 4096))

/-- The sealed windows of the ranges, in units of 256 MiB (R181). -/
def sealedWindows (s : State) : List (Nat × Nat) :=
  ((List.range 8).filter (fun r => settingB s (0x2710 + r) 3 && rangeUnits s r != 0)).map (fun r =>
    (settingN s (0x2710 + r) 4, settingN s (0x2710 + r) 4 + rangeUnits s r))

/-- The attributes and the extent of key range `r`, as the layout record holds them (R490). -/
def rangeLayout (s : State) (r : Nat) : List Byte :=
  let i := 0x2710 + r
  let attributes := leBytes 1 (settingN s i 3) ++ leBytes 1 (settingN s i 4)
  if r = 0 then attributes else leBytes 4 (settingN s i 1) ++ leBytes 4 (settingN s i 2) ++ attributes

/-- Units of 256 MiB that lie in one of the ranges 1 to 7 with these records. -/
def unitTaken (ranges : List (List Byte)) (u : Nat) : Bool :=
  ranges.any (fun b => decide (numAt b 0 4 ≤ u ∧ u < numAt b 0 4 + numAt b 4 4))

/-- The key-range records of a state, ranges 0 to 7. -/
def rangeLayouts (s : State) : List (List Byte) :=
  (List.range 8).map (rangeLayout s)

/-- The extent or the attributes of range `r` differ between two key-range layouts; the extent of range 0 is what the others
leave of the host-visible units (R180, R181). -/
def rangeChanged (l : Layout) (a b : List (List Byte)) (r : Nat) : Bool :=
  a.getD r [] != b.getD r [] || (r == 0 && (List.range 65536).any (fun u =>
    (locate l (u * 2 ^ 28)).isSome && unitTaken a.tail u != unitTaken b.tail u))

/-- What refuses a key-range layout (R181): `old` is the state before the commit, `s` the state with the values committed. -/
def rangesFault (old s : State) : Option Nat :=
  let extents := ((List.range 7).map (fun i => (settingN s (0x2711 + i) 1, settingN s (0x2711 + i) 2))).filter
    (fun e => e.2 != 0)
  let windows := sealedWindows s
  if someOverlap (extents.map (fun e => (e.1, e.1 + e.2))) || extents.any (fun e => decide (65536 < e.1 + e.2)) then
    some 0x2703
  else if someOverlap windows || windows.any (fun w => decide (256 < w.2)) then some 0x2704
  else if (List.range 8).any (fun r =>
      (rangeRec s r).state != 0 && (rangeRec s r).state != 4
        && rangeChanged s.path.layout (rangeLayouts old) (rangeLayouts s) r) then some 0x2705
  else none

/-- The contain part of the layout record (R184): spread size and the eight contain ranges. -/
def containBytes (l : Layout) : List Byte :=
  leBytes 2 l.spread ++ (List.range 8).flatMap (fun i =>
    let r := l.contain.getD i (0, 0, 0)
    leBytes 4 r.1 ++ leBytes 4 r.2.1 ++ leBytes 1 r.2.2)

/-- The layout record of the key store, 160 bytes (R184, R490). -/
def layoutBytes (s : State) (l : Layout) : List Byte :=
  padTo 160 (containBytes l ++ (rangeLayouts s).flatMap id)

/-- The contain layout a layout record holds. -/
def layoutOfBytes (bs : List Byte) : Layout :=
  { spread := numAt bs 0 2,
    contain := (List.range 8).map (fun i => (numAt bs (2 + 9 * i) 4, numAt bs (6 + 9 * i) 4, numAt bs (10 + 9 * i) 1)) }

/-- The key-range records a layout record holds. -/
def rangesOfBytes (bs : List Byte) : List (List Byte) :=
  bytesAt bs 74 2 :: (List.range 7).map (fun i => bytesAt bs (76 + 10 * i) 10)

/-- A key range that holds a DPA whose place has changed opens anew (R63): its key and a Glaze operation's are discarded, and
it is Opening under its next key or a drawn one. An Empty range stays Empty. -/
def reopenRange (s : State) (r : Nat) : State :=
  let x := rangeRec s r
  if x.state = 0 then s
  else
    let busy := s.crypt.glaze.range == some r
    let s := if busy then { s with crypt := { s.crypt with glaze := { queue := s.crypt.glaze.queue } } } else s
    let s := if x.state = 3 then modRange s r (fun x => { x with next := [], nextInstalled := false }) else s
    let x := rangeRec s r
    if x.next = [] then
      let k := drawKey s
      modRange k.2 r (fun x => { x with current := k.1, generation := x.generation + 1, source := 0, state := 1 })
    else
      modRange s r (fun x =>
        { x with current := x.next, next := [], source := bnat x.nextInstalled, nextInstalled := false, state := 1 })

/-- LAYOUT_CHECK (R490): the loaded layout against the layout in force. -/
def layoutCheck (s : State) : State :=
  let l := loadedLayout s
  let bad := (layoutFault s l).isSome
  let served := if bad then defaultLayout s else l
  let s := if bad then raise s 0x2209 [] else s
  let s := { s with path := { s.path with layout := served, layoutPending := false } }
  let record := s.crypt.layout
  let s :=
    if record = [] then s
    else
      let old := layoutOfBytes record
      let moved := (List.range 65536).filter (unitMoved old served)
      let s := ((List.range 8).filter (fun r => moved.any (fun u => rangeOf s (u * 2 ^ 22) == r))).foldl reopenRange s
      ((List.range 8).filter (rangeChanged served (rangesOfBytes record) (rangeLayouts s))).foldl emptyRange s
  if s.crypt.layout = layoutBytes s served then s
  else keyStoreUpdate { s with crypt := { s.crypt with layout := layoutBytes s served } }

end Sys2Proof.Machine
end

