-- ==== Sys2Proof/Machine/Record.lean ====
section
/-! DEFINITION. Machine/Record.lean: the shutdown records of the Folio (R197, R376) and the loss of the core's volatile state
when its rails go down (R347, R349). -/

namespace Sys2Proof.Machine

/-- Folio address of a shutdown record slot (R376). -/
def recordSlot (i : Nat) : Nat :=
  0x68000 + 0x100 * i

/-- The 256 bytes of a slot, if its check holds. -/
def recordIn (s : State) (i : Nat) : Option (List Byte) :=
  let bs := folioRead s (recordSlot i) 256
  if crcOk bs then some bs else none

/-- Sequence number of a slot's valid record. -/
def recordSeq (s : State) (i : Nat) : Option Nat :=
  (recordIn s i).map (fun bs => numAt bs 0 8)

/-- The slot with the older sequence number; a slot without a valid record is older than any (R376). -/
def olderSlot (s : State) : Nat :=
  match recordSeq s 0, recordSeq s 1 with
  | some a, some b => if b < a then 1 else 0
  | some _, none => 1
  | _, _ => 0

/-- The CMAC of the root record over the root and the sequence number (R197). -/
def rootMac (s : State) (n : Nat) : List Byte :=
  (cmac s.crypt.treeKey (lineBytes s.crypt.root ++ leBytes 8 n)).take 8

/-- A shutdown record (R376). Cause and outcome apart, an open record holds the values of the moment it is written, with the
fields of a Varnish that has not run at zero (log entry 32). -/
def shutdownRecord (s : State) (closed : Bool) : List Byte :=
  let y := s.sys
  let n := y.shutdownSeq
  let gens := (List.range 8).flatMap (fun g => leBytes 4 (if closed then (groupOf s g).generation else 0))
  withCrc (padTo 252 (leBytes 8 n ++ leBytes 1 (bnat closed) ++ leBytes 1 (if closed then y.warnCause else 0)
    ++ leBytes 1 (if closed then y.varnishOutcome else 0xFF) ++ [0]
    ++ leBytes 4 (if closed then y.varnishedEpoch else s.path.epoch)
    ++ leBytes 8 (if closed then y.warnAt / 64 % 2 ^ 64 else 0)
    ++ satBytes 4 (if closed then y.varnishTiles else 0) ++ satBytes 2 (if closed then y.varnishTime else 0) ++ [0, 0]
    ++ gens ++ lineBytes s.crypt.root ++ rootMac s n))

/-- The page writes of the open record, into the older slot (R376). -/
def openRecordPages (s : State) : List (Nat × List Byte) :=
  pageSplit (recordSlot (olderSlot s)) (shutdownRecord s false)

/-- The page writes of the closed record, into the slot that does not hold this run's open record (R376). -/
def closedRecordPages (s : State) : List (Nat × List Byte) :=
  let slot := if recordSeq s 0 = some s.sys.shutdownSeq then 1
    else if recordSeq s 1 = some s.sys.shutdownSeq then 0 else olderSlot s
  pageSplit (recordSlot slot) (shutdownRecord s true)

/-- The core and Easel logic lose their state (R347, R349): what the Folio, the medium, the stacks' identities and the always-on
domain hold stays, and the mailbox sessions are released. -/
def coreReset (s : State) : State :=
  let s := releaseSessions s 0 4
  { s with
    groups := [], easel := {}, palette := {}, directory := {}, queues := [], barrow := {}, perf := {}, crypt := {},
    ports := [],
    channels := (List.range 64).foldl (fun t c => tabMod dChannel t c (fun x =>
      { regs := x.regs.filter (fun e => e.1 < 3) })) s.channels,
    path := { medium := s.path.medium, epoch := s.path.epoch, epochResume := s.path.epochResume,
              timestampOffset := s.path.timestampOffset, frees := s.path.frees, layoutPending := s.path.layoutPending },
    sys := { s.sys with memoryActive := false, anchorsLoaded := false, reanchor := none, inForce := [] } }

end Sys2Proof.Machine
end

