-- ==== Sys2Proof/Machine/Reserve.lean ====
section
/-! DEFINITION. Machine/Reserve.lean: the hold-up reserve and the dirty budget (R113 to R133, R489): regulation, the
first measurement and the later ones, the status, the budget formula in exact integer arithmetic, the shares and
write-through. Voltages are in mV, C in µF, ESR in 0.1 mΩ, temperatures in 0.1 °C. -/

namespace Sys2Proof.Machine

/-- Integer square root by bits: `r` is the root so far, `b` the bit tried. -/
def isqrtAux (n : Nat) : Nat → Nat → Nat
  | 0, r => r
  | b + 1, r =>
    let c := r + 2 ^ b
    isqrtAux n b (if c * c ≤ n then c else r)

/-- Integer square root of a number below 2^80. -/
def isqrt (n : Nat) : Nat :=
  isqrtAux n 40 0

/-- C_used: the lower of the last two measurements (R116). -/
def cUsed (s : State) : Nat :=
  min s.reserve.c1 s.reserve.c2

/-- C_hi: the higher of the last two measurements (R116). -/
def cHi (s : State) : Nat :=
  max s.reserve.c1 s.reserve.c2

/-- The charge ceiling V_hi = min(V_tgt, 0.99 × √(2 E_limit / C_hi)) in mV (R116); a written E_limit or V_tgt applies from the
next VRES sample (R133). -/
def vHi (s : State) : Nat :=
  let vt := forceN s 0x2400 3
  if cHi s = 0 then vt
  else min vt (isqrt (2000000000 * forceN s 0x2400 1 * 9801 / (cHi s * 10000)))

/-- Twice V_floor in mV (R123). -/
def floor2 (s : State) : Nat :=
  14000 + 7 * (s.reserve.esr - 200)

/-- The divisor of the budget: 80 × 2 × e_tile in pJ (R123). -/
def tileEnergy2 (s : State) : Nat :=
  170000 + 51 * (budgetTemp s - 400).toNat

/-- The formula's value n of R123 and R124 at voltage `v`: the floor of the energy over e_tile, 0 where v ≤ V_floor or
the energy is not positive. Energies are scaled by 1.6 × 10^14 per joule so that every term is an integer. -/
def budgetFormula (s : State) (v : Nat) : Nat :=
  let v2 := 2 * v
  let f2 := floor2 s
  let costs := 160 * (120000000000 + settingN s 0x2400 6 * settingN s 0x2F00 3 * 1000000
    + (if s.reserve.measure = .idle then 0 else 4000000 * v))
  let gain := 17 * cUsed s * (v2 * v2 - f2 * f2)
  if v2 ≤ f2 then 0 else (gain - costs) / (80 * tileEnergy2 s)

/-- Sizes the shares at a publication (R126). -/
def sizeShares (s : State) (b : Nat) : State :=
  let dev := min 131072 (b / 8)
  let pool := min (b - dev) 3145728
  let shares := (List.range 4).foldl (fun t p => tabSet dNat t p (pool * settingN s 0x2410 (p + 1) / 100)) []
  { s with reserve := { s.reserve with
      budget := b, deviceShare := dev, portShare := shares, warnWindow := settingN s 0x2F00 3 } }

/-- Why the device is in write-through (R453 cause of 0x2406): the reserve status, 8 a media domain lost, 7 the budget
hysteresis or the open record (R364). -/
def wtCause (s : State) : Nat :=
  if s.reserve.status < 2 ∨ 3 < s.reserve.status then s.reserve.status
  else if degraded s then 8 else 7

/-- Publishes B (R124, R126, R129, R130, R131): shares are sized; an entry to write-through is recorded, counted and
sends every charged line to destage; a leaving is recorded. -/
def publish (s : State) (b : Nat) : State :=
  let before := s.reserve.budget
  let was := s.reserve.writeThrough
  let s := sizeShares s b
  let now := b == 0
  let s := { s with reserve := { s.reserve with writeThrough := now } }
  if now && !was then
    let s := raise s 0x2406 (leBytes 1 (wtCause s) ++ satBytes 4 before)
    selectCharged (tallyAdd s 158)
  else if was && !now then selectOverShares (raise s 0x2407 (satBytes 4 b))
  else selectOverShares s

/-- Recomputes and publishes the budget at voltage `v` (the pseudocode of R124, with R30, R364 and R489). -/
def recompute (s : State) (v : Nat) : State :=
  if s.reserve.status < 2 ∨ 3 < s.reserve.status then
    publish { s with reserve := { s.reserve with wt := true, aboveCap := false } } 0
  else
    let n := budgetFormula s v
    let wt := if s.reserve.wt ∧ 16384 ≤ n then false else if s.reserve.wt = false ∧ n < 8192 then true else s.reserve.wt
    let fell := s.reserve.aboveCap && decide (n < 3276800)
    let s := { s with reserve := { s.reserve with wt := wt, aboveCap := decide (3276800 ≤ n) } }
    let b := if wt then 0 else n
    let b := if degraded s || !s.sys.openRecordDone then 0 else b
    let s := publish s b
    if fell then
      tallyAdd (raise s 0x2403 (satBytes 4 b ++ satBytes 4 (cUsed s) ++ satBytes 2 s.reserve.esr
        ++ leBytes 1 (toUnsigned 1 (budgetTemp s / 10)))) 186
    else s

/-- The voltage the budget uses: frozen during a measurement, else the lowest of the last ten samples (R123). -/
def budgetVoltage (s : State) : Nat :=
  match s.reserve.frozenV with
  | some v => v
  | none => s.reserve.samples.foldl min (s.reserve.samples.headD 0)

/-- Charging stops and the bank is bled: disabled, failed, absent or oversized (R119, R120). -/
def stopCharge (s : State) : State :=
  { s with reserve := { s.reserve with chgEn := false, bleedEn := true, sinkOn := false, ramp := .none,
                                       measure := .idle, frozenV := none } }

/-- Enters status "failed" with one of the causes 1 to 5 of R122. -/
def reserveFail (s : State) (cause : Nat) : State :=
  if s.reserve.status = 5 ∨ s.reserve.status = 0 then s
  else
    let s := stopCharge { s with reserve := { s.reserve with status := 5 } }
    let s := if cause = 1 then raise s 0x2405 (satBytes 2 s.reserve.vres) else s
    tallyAdd (raise s 0x2402 (leBytes 1 cause ++ satBytes 2 s.reserve.vres ++ satBytes 4 (cUsed s)
      ++ satBytes 2 s.reserve.esr)) 167

/-- CHG_EN goes high: only while the bank is not isolated or bled (R114, R115, R117). -/
def charge (s : State) : State :=
  if s.power.isoOn && !s.reserve.bleedEn then { s with reserve := { s.reserve with chgEn := true } } else s

/-- R117: whether the bank holds more than the energy limit allows. -/
def overEnergy (s : State) (v : Nat) : Bool :=
  2000000000 * forceN s 0x2400 1 < cHi s * v * v || vHi s + 100 < v

/-- The bank is bled down from above its limit (R117); VRES has then reached V_hi (R122). -/
def bleedOver (s : State) (v : Nat) : State :=
  raise { s with reserve := { s.reserve with chgEn := false, bleedEn := true, status := 3 } } 0x2408
    (satBytes 4 (cHi s) ++ satBytes 2 v ++ satBytes 2 (forceN s 0x2400 1))

/-- Enters status "oversized" (R118, R122): the lowest charge voltage already holds more than the energy limit. -/
def reserveOversized (s : State) : State :=
  raise (stopCharge { s with reserve := { s.reserve with status := 6 } }) 0x2404
    (satBytes 4 (cHi s) ++ satBytes 2 (forceN s 0x2400 1))

/-- The status after a measurement, causes in table order (R122): failed, absent, oversized; otherwise R117 where the bank lies
above its limit, and else charging, or ready where it was ready already. -/
def judgeMeasure (s : State) (c : Nat) (first : Bool) : State :=
  if 1500 < s.reserve.esr then reserveFail s 5
  else if c < 500 then
    raise (stopCharge { s with reserve := { s.reserve with status := 4 } }) 0x2401 (satBytes 4 c)
  else if vHi s < 10000 then reserveOversized s
  else
    let s := { s with reserve := { s.reserve with status := if first then 2 else s.reserve.status } }
    if overEnergy s s.reserve.vres then bleedOver s s.reserve.vres else charge s

/-- CHARGE_REGULATION (R116, R117) and the step from charging to ready (R122) at a VRES sample. -/
def regulate (s : State) (v : Nat) : State :=
  if s.reserve.status = 2 ∨ s.reserve.status = 3 then
    if s.reserve.bleedEn then
      { s with reserve := { s.reserve with chgEn := false, bleedEn := !decide (v ≤ vHi s - 100) } }
    else if overEnergy s v then bleedOver s v
    else if s.reserve.sinkOn || !s.power.isoOn then s
    else if vHi s ≤ v then { s with reserve := { s.reserve with chgEn := false, status := 3 } }
    else if v < vHi s - 50 then charge s
    else s
  else s

/-- The first measurement of the bank, sample by sample (R120); it stands still while the bank is isolated (R115). -/
def rampSample (s : State) (v : Nat) : State :=
  if s.power.isoOn = false then s
  else
  match s.reserve.ramp with
  | .bleeding =>
    if v < 2000 then
      { s with reserve := { s.reserve with bleedEn := false, chgEn := true, ramp := .ramp none } }
    else s
  | .ramp none =>
    if 4000 ≤ v then { s with reserve := { s.reserve with chgEn := false, ramp := .hold 0 } }
    else if 2000 ≤ v then { s with reserve := { s.reserve with ramp := .ramp (some 0) } }
    else s
  | .ramp (some n) =>
    if 4000 ≤ v then { s with reserve := { s.reserve with chgEn := false, ramp := .hold (10 * (n + 1)) } }
    else { s with reserve := { s.reserve with ramp := .ramp (some (n + 1)) } }
  | .partly =>
    if 4000 ≤ v then { s with reserve := { s.reserve with chgEn := false, sinkOn := true, ramp := .sink } } else s
  | _ => s

/-- RESERVE_RAMP (R120): the case that applies at the start of Priming, by VRES. -/
def rampStart (s : State) : State :=
  let v := s.reserve.vres
  let r : Reserve := { s.reserve with
      status := 1, bleedEn := false, chgEn := decide (v < 4000),
      sinkOn := decide (4000 ≤ v), measured := false, measure := .idle, frozenV := none, occasion := false,
      ramp := if v < 2000 then .ramp none else if v < 4000 then .partly else .sink }
  { s with reserve := r }

/-- Written values of E_limit, I_set and V_tgt apply at a VRES sample (R133); CHG_ISET carries I_set (R114). -/
def takeLimits (s : State) : State :=
  let s := takeForce (takeForce s 0x2400 1) 0x2400 3
  { s with reserve := { s.reserve with chgIset := settingN s 0x2400 2 } }

/-- One VRES sample (R353): the causes of R122 in table order, then regulation or the ramp. -/
def vresSample (s : State) (v : Nat) : State :=
  let s := takeLimits { s with reserve := { s.reserve with vres := v } }
  if s.sys.dev = .standby ∨ s.reserve.status = 0 ∨ 4 ≤ s.reserve.status then s
  else if 16500 < v then reserveFail s 1
  else if s.power.adcFault then reserveFail s 2
  else if s.reserve.measured && decide (vHi s < 10000) then reserveOversized s
  else if s.reserve.ramp = .none then regulate s v
  else rampSample s v

/-- Takes the result of the first measurement (R120). -/
def firstMeasure (s : State) (c esr : Nat) : State :=
  let r : Reserve := { s.reserve with
      c1 := c, c2 := c, esr := esr, measured := true, ramp := .none,
      sinkOn := false, lastMeasure := nowNs s, measuredAt := some (budgetTemp s) }
  judgeMeasure (bump { s with reserve := r } 0x2400 0x14 1) c true

/-- RAMP_HOLD_END (R120): the first C from t_24 and the first ESR from the fall at 4.0 V. -/
def execRampHoldEnd (fallUv : BitVec 32) (s : State) : Host.Outcome State Fault Refusal :=
  match s.reserve.ramp with
  | .hold t24 =>
    let i := s.reserve.chgIset
    if s.power.isoOn then .next (firstMeasure s (i * t24 / 2000) (fallUv.toNat * 10 / i)) else .next s
  | _ => .next s

/-- BUDGET_UPDATE (R124): the 100 µs sample joins the last ten and the budget is recomputed and published, unless it is
frozen from entry to Warn (R125). -/
def execBudgetUpdate (s : State) : Host.Outcome State Fault Refusal :=
  let s := { s with reserve := { s.reserve with samples := (s.reserve.vres :: s.reserve.samples).take 10 } }
  if s.reserve.frozen || s.sys.dev == .standby then .next s else .next (recompute s (budgetVoltage s))

/-- RESERVE_CHARGE_TIMEOUT (R122): VRES below 2.0 V 2 s after charging began, or V_hi not reached in time. -/
def execReserveChargeTimeout (late : Bool) (s : State) : Host.Outcome State Fault Refusal :=
  if (s.reserve.status = 1 ∨ s.reserve.status = 2) ∧ s.power.isoOn then
    if late then .next (if s.reserve.vres < vHi s then reserveFail s 4 else s)
    else .next (if s.reserve.vres < 2000 then reserveFail s 3 else s)
  else .next s

/-- MEASURE_INTERVAL (R121): a measurement occasion. -/
def execMeasureInterval (s : State) : Host.Outcome State Fault Refusal :=
  .next { s with reserve := { s.reserve with occasion := true } }

/-- Whether the reserve settings are frozen (R133): from entry to Warn until Priming or withdrawal. -/
def reserveFrozen (s : State) : Bool :=
  s.reserve.frozen

/-- The effect of MEASURE_REQUEST (R121, R133). -/
def measureRequest (s : State) : Except Nat State :=
  if s.reserve.status ≠ 3 then .error 0x2404
  else if reserveFrozen s then .error 0x2405
  else .ok { s with reserve := { s.reserve with occasion := true } }

/-- MEASURE_REQUEST (R121): writing 0x01 to [2400.05]. -/
def execMeasureRequest (via : Via) (s : State) : Host.Outcome State Fault Refusal :=
  .next (served s via 0x2400 5 [1] (fun _ s => measureRequest s))

/-- VRES stands at V_hi (R116, R121): within the regulated band or just above it, and not being bled down (R117). -/
def atCeiling (s : State) : Bool :=
  decide (vHi s - 50 ≤ s.reserve.vres ∧ s.reserve.vres ≤ vHi s + 100) && !s.reserve.bleedEn

/-- MEASUREMENT_START (R121 step 1): only in Active, ready and at V_hi with an occasion waiting; v is frozen and the
lowered budget published. -/
def execMeasurementStart (s : State) : Host.Outcome State Fault Refusal :=
  if s.sys.dev = .active ∧ s.reserve.status = 3 ∧ atCeiling s ∧ s.reserve.occasion ∧
      s.reserve.measure = .idle then
    let v := budgetVoltage s
    let s := { s with reserve := { s.reserve with measure := .started, frozenV := some v, occasion := false } }
    .next (recompute s v)
  else .next s

/-- MEASUREMENT_SINK_ON (R121 steps 2 and 3): CHG_EN low and the sink connected. -/
def execMeasurementSinkOn (s : State) : Host.Outcome State Fault Refusal :=
  if s.reserve.measure = .started then
    .next { s with reserve := { s.reserve with measure := .sinking, chgEn := false, sinkOn := true } }
  else .next s

/-- C in µF of a sink measurement: 0.2 A × 20 ms over the fall along the linear part; with no fall the spec states no
value and it is free (log entry 9). -/
def sinkCapacitance (fallUv : Nat) : Nat :=
  if fallUv = 0 then Config.capacitanceAtNoFall else 4000000000 / fallUv

/-- MEASUREMENT_END (R121 steps 4 and 5, and the charged case of R120): C and ESR from the onset step and the fall. -/
def execMeasurementEnd (stepUv fallUv : BitVec 32) (s : State) : Host.Outcome State Fault Refusal :=
  let c := sinkCapacitance fallUv.toNat
  let esr := stepUv.toNat / 20
  if s.reserve.ramp = .sink ∧ s.power.isoOn then .next (firstMeasure s c esr)
  else if s.reserve.measure = .sinking then
    let r : Reserve := { s.reserve with
      c2 := s.reserve.c1, c1 := c, esr := esr, sinkOn := false, measure := .idle,
      frozenV := none, occasion := false, lastMeasure := nowNs s, measuredAt := some (budgetTemp s) }
    .next (judgeMeasure (bump { s with reserve := r } 0x2400 0x14 1) c false)
  else .next s

/-- The effect of writing 0 to [2400.07] (R133). -/
def reserveDisable (s : State) : Except Nat State :=
  if reserveFrozen s then .error 0x2405
  else .ok (settleErrors (stopCharge { setSetting s 0x2400 7 0 with reserve := { s.reserve with status := 0 } }))

/-- The effect of writing 1 to [2400.07] (R133): the ramp of R120, after bleeding below 2.0 V. "Failed", "absent" and
"oversized" end only where a 0 was written first (R122). -/
def reserveEnable (s : State) : Except Nat State :=
  if reserveFrozen s then .error 0x2405
  else if 4 ≤ s.reserve.status then .ok (setSetting s 0x2400 7 1)
  else
    let s := stopCharge (setSetting s 0x2400 7 1)
    let low := decide (s.reserve.vres < 2000)
    let r : Reserve := { s.reserve with
      status := 1, measured := false, bleedEn := !low, ramp := if low then .ramp none else .bleeding }
    let s := { s with reserve := r }
    .ok (settleErrors (if low then charge s else s))

/-- RESERVE_DISABLE (R133): writing 0 to [2400.07]. -/
def execReserveDisable (via : Via) (s : State) : Host.Outcome State Fault Refusal :=
  .next (served s via 0x2400 7 [0] (fun _ s => reserveDisable s))

/-- RESERVE_ENABLE (R133): writing 1 to [2400.07]. -/
def execReserveEnable (via : Via) (s : State) : Host.Outcome State Fault Refusal :=
  .next (served s via 0x2400 7 [1] (fun _ s => reserveEnable s))

end Sys2Proof.Machine
end

