-- ==== Sys2Proof/Machine/Warn.lean ====
section
/-! DEFINITION. Machine/Warn.lean: entry to Warn for every cause (R371, ENTER_WARN), isolation (R115), the withdrawal of a
margin (R358), and the end of the Folio epilogue (R377, R403). -/

namespace Sys2Proof.Machine

/-- ISOLATION (R115): ISO_G off, CHG_EN low, the measurement sink released; a measurement so cut short waits again. -/
def isolate (s : State) : State :=
  { s with power := { s.power with isoOn := false },
           reserve := { s.reserve with
             chgEn := false, sinkOn := false, measure := .idle, frozenV := none,
             occasion := s.reserve.occasion || decide (s.reserve.measure ≠ .idle) } }

/-- On entry to Warn and on leaving Test a margined rail gets OPERATION 0x80 (R358). -/
def withdrawMargin (s : State) : State :=
  if s.power.marginState = 0 then s
  else { emit s (.pmbus s.power.marginRail 0x01 0x80) with power := { s.power with marginState := 0 } }

/-- ENTER_WARN (R371, R22): from Priming, Active, Recovery or Test the device enters Warn for `cause`; a further cause
met in Warn, Varnish or Varnished is only recorded. -/
def enterWarn (s : State) (cause : Nat) : State :=
  match s.sys.dev with
  | .priming | .active | .recovery | .test =>
    let left := s.sys.dev
    let s := withdrawMargin s
    let s := { s with
      power := { s.power with pfwLow := true },
      reserve := { s.reserve with frozen := true },
      sys := { s.sys with
        warnCause := cause, warnFrom := left, warnAt := s.sys.time, quiescing := false, varnishItem := 0,
        fencedInWarn := false, closedDone := false, varnishTiles := 0, varnishTime := 0, varnishOutcome := 0 } }
    let data := leBytes 1 cause ++ leBytes 1 (devNum left) ++ satBytes 2 s.reserve.vres ++ satBytes 4 s.reserve.budget
    let s := enterState (wakeGroups (barrowAtWarn s)) .warn
    let s := if cause = 4 then tallyAdd s 165 else if cause = 5 then tallyAdd s 188 else s
    raise s 0x2F01 data
  | .warn | .varnish | .varnished =>
    if cause = 1 then
      raise s 0x2F01 (leBytes 1 cause ++ leBytes 1 (devNum s.sys.dev) ++ satBytes 2 s.reserve.vres
        ++ satBytes 4 s.reserve.budget)
    else s
  | .standby => s

/-- The epilogue ends (R403, R119): Standby with the bleed path on. -/
def endEpilogue (s : State) : State :=
  enterState { s with folio := { s.folio with epilogueOver := true }, sys := { s.sys with heldByHeat := false },
                      reserve := { s.reserve with bleedEn := true, chgEn := false } } .standby

/-- The epilogue ends when its items are written (R403). -/
def epilogueCheck (s : State) : State :=
  if s.sys.dev = .varnished ∧ s.folio.epilogueOver = false ∧ s.folio.running = none ∧ (nextItem s).isNone then
    endEpilogue s
  else s

/-- PAGE_WRITE (R402, R403): the next queued page write starts; in Varnished a comparator below its threshold ends the
epilogue, and so does an empty list of items. -/
def execPageWrite (s : State) : Host.Outcome State Fault Refusal :=
  if s.folio.running.isSome then .next s
  else if comparatorOk s then .next (epilogueCheck (startPageWrite s))
  else if s.sys.dev = .varnished ∧ s.folio.epilogueOver = false then .next (endEpilogue s)
  else .next s

/-- PAGE_WRITE_COMPLETE (R405): the page write ends with what the read-back shows; the epilogue ends with its last. -/
def execPageWriteComplete (readBack : List Byte) (s : State) : Host.Outcome State Fault Refusal :=
  .next (epilogueCheck (completePageWrite s readBack))

/-- EPILOGUE_LIMIT (R403): 33.35 ms after entry to Warn the epilogue ends. -/
def execEpilogueLimit (s : State) : Host.Outcome State Fault Refusal :=
  if s.sys.dev = .varnished ∧ s.folio.epilogueOver = false then .next (endEpilogue s) else .next s

end Sys2Proof.Machine
end

