-- ==== Sys2Proof/Machine/Power.lean ====
section
/-! DEFINITION. Machine/Power.lean: rail sequencing and supervision (R336 to R360). A rail is named by its number; media
domain k owns rails 6 + 3k, 7 + 3k and 8 + 3k. -/

namespace Sys2Proof.Machine

/-- Raises a rail's enable: its qualification starts anew (R339, R341). -/
def railEnable (s : State) (r : Nat) : State :=
  modRail s r (fun x =>
    { x with
      enabled := true, count := none, chatter := 0, running := false, startFailed := false, faulted := false,
      losing := false, bandRun := 0, overRun := 0, excursion := false, discharging := false,
      qualify := settingN s 0x2E00 1 })

/-- Lowers a rail's enable: it is checked for discharge from here (R349, R350). -/
def railDrop (s : State) (r : Nat) : State :=
  if (railOf s r).enabled then
    modRail s r (fun x =>
      { x with
        enabled := false, running := false, count := none, losing := false, excursion := false,
        discharging := true, fellAt := s.sys.time })
  else s

/-- Lowers the enables of a list of rails. -/
def railsDrop (s : State) (rs : List Nat) : State :=
  rs.foldl railDrop s

/-- The domain of a media rail. -/
def railDomain (r : Nat) : Nat :=
  (r - 6) / 3

/-- Counts a failed start, and sets the lockout at the limit (R343, R344); the rails go down by the stop order without
Varnish. -/
def failedStart (s : State) : State :=
  if s.power.stopStep.isSome then s
  else
    let n := s.power.failedStarts + 1
    let s := { s with power := { s.power with failedStarts := n, stopStep := some 0, stopForStart := true } }
    if settingN s 0x2E00 0x0D ≤ n ∧ s.power.lockout = false then
      raise { s with power := { s.power with lockout := true } } 0x2E09 (satBytes 1 n)
    else s

/-- The count of media domains lost or off by failure in this run. -/
def domainsLost (s : State) : Nat :=
  (lostDomains s).length

/-- The media domains step has ended: every domain good or off (R341). -/
def mediaStepDone (s : State) : Bool :=
  (List.range 8).all (fun k =>
    let d := domainOf s k
    d.phase == .good || d.phase == .stopping || (d.phase == .off && d.lost))

/-- Follows the media domains step to its end in Priming. -/
def mediaStepCheck (s : State) : State :=
  if s.sys.dev = .priming ∧ s.sys.step = 5 ∧ s.power.stopStep = none ∧ mediaStepDone s then trainingStepCheck (beginStep s 6) else s

/-- MEDIA_DOMAIN_OFF (R348): reset low and parked, VMP dropped, the loss recorded and counted, and the action of the
state taken. -/
def domainOff (s : State) (k rail cause : Nat) : State :=
  let d := domainOf s k
  if d.phase = .off ∨ d.phase = .stopping then s
  else
    let restart := d.restarting
    let s := modDomain s k (fun x => { x with phase := .stopping, resetLow := true, lost := true, restarting := false })
    let s := railDrop s (8 + 3 * k)
    let s := parkDomain s k
    let s := if restart then s else tallyAdd s (168 + k)
    let s := raise s 0x2E03 (leBytes 1 k ++ leBytes 1 rail ++ leBytes 1 cause)
    match s.sys.dev with
    | .priming => if 2 ≤ domainsLost s then failedStart s else mediaStepCheck s
    | .active | .recovery | .test =>
      if restart then s
      else if 2 ≤ domainsLost s then enterWarn s 3
      else recompute s (budgetVoltage s)
    | _ => s

/-- What a rail's failure to start does after its enable is low (R340, R343, R348). -/
def railStartFailed (s : State) (r cause : Nat) : State :=
  let n := (railOf s r).chatter
  let s := if r = 5 then s else railDrop s r
  let s := modRail s r (fun x => { x with startFailed := true })
  let s := raise (tallyAdd s (5 * r + 1)) 0x2E01 (leBytes 1 r ++ leBytes 1 cause ++ satBytes 1 n)
  if r ≤ 4 then failedStart s
  else if r = 5 then s
  else domainOff s (railDomain r) r 1

/-- The rails a device stage enables (R341). -/
def stageRails : Nat → List Nat
  | 1 => [0]
  | 2 => [1]
  | 3 => [2, 3]
  | 4 => [4]
  | _ => []

/-- Enables the rails of a device stage. -/
def beginStage (s : State) (n : Nat) : State :=
  let s := { s with power := { s.power with deviceStage := n } }
  (stageRails n).foldl railEnable s

/-- The PMBus writes before a rail's enable edge at Priming (R356): ON_OFF_CONFIG 0x16 and CLEAR_FAULTS. -/
def pmbusPrepare (s : State) (r : Nat) : State :=
  if settingN s (0x2E10 + r) 4 = 0 then s else emit (emit s (.pmbus r 0x02 0x16)) (.pmbus r 0x03 0)

/-- Enables stage A of a domain. -/
def domainStageA (s : State) (k : Nat) : State :=
  let s := modDomain s k (fun x => { x with phase := .stageA })
  railEnable (railEnable s (6 + 3 * k)) (7 + 3 * k)

/-- What a qualified rail begins: the next device stage, the media step, stage B of its domain, or a good domain. -/
def afterQualified (s : State) (r : Nat) : State :=
  if r ≤ 4 then
    let s := if r = 0 then { s with sys := { s.sys with corePll := true } } else s
    let n := s.power.deviceStage
    if 1 ≤ n ∧ n ≤ 4 ∧ (stageRails n).all (fun x => (railOf s x).running) then
      if n < 4 then beginStage s (n + 1)
      else
        let s := { s with power := { s.power with deviceStage := 5 } }
        beginStep ((List.range 8).foldl (fun s k => modDomain s k (fun x => { x with phase := .stagger })) s) 5
    else s
  else if r = 5 then s
  else
    let k := railDomain r
    let d := domainOf s k
    if d.phase = .stageA ∧ (railOf s (6 + 3 * k)).running ∧ (railOf s (7 + 3 * k)).running then
      railEnable (modDomain s k (fun x => { x with phase := .stageB })) (8 + 3 * k)
    else if d.phase = .stageB ∧ (railOf s (8 + 3 * k)).running then
      let s := domainReady (modDomain s k (fun x => { x with phase := .good })) k
      mediaStepCheck (if d.restarting then raise s 0x2E0A (leBytes 1 k) else s)
    else s

/-- One rail at an AON tick (R339): its count advances, or a chatter event returns it to 0. -/
def pgSample (high latch : Bool) (s : State) (r : Nat) : State :=
  let x := railOf s r
  if x.enabled && !x.running then
    match x.count with
    | none => if high then modRail s r (fun x => { x with count := some 0 }) else s
    | some n =>
      if high && !latch then modRail s r (fun x => { x with count := some (n + 1) })
      else tallyAdd (modRail s r (fun x => { x with count := none, chatter := x.chatter + 1 })) (5 * r)
  else s

/-- PG_TICK_SAMPLE (R339): every PG input is sampled with its low latch. -/
def execPgTickSample (high lowLatch : BitVec 30) (s : State) : Host.Outcome State Fault Refusal :=
  .next ((List.range 30).foldl (fun s r => pgSample (high.getLsbD r) (lowLatch.getLsbD r) s r) s)

/-- RAIL_QUALIFIED (R339, R341): a rail whose count has reached tPGQ is running, and the next stage begins. -/
def execRailQualified (rail : Rail) (s : State) : Host.Outcome State Fault Refusal :=
  let r := rail.val
  let x := railOf s r
  match x.count with
  | some n =>
    if x.enabled ∧ x.running = false ∧ x.qualify ≤ n then
      let s := modRail s r (fun x => { x with running := true })
      .next (afterQualified (bump s (0x2E10 + r) 0x0D 1) r)
    else .next s
  | none => .next s

/-- DOMAIN_STAGGER (R341, R342): the stagger delay of domain k ends and stage A begins. -/
def execDomainStagger (domain : Column) (s : State) : Host.Outcome State Fault Refusal :=
  if (domainOf s domain.val).phase = .stagger then .next (domainStageA s domain.val) else .next s

/-- RAIL_START_FAILURE (R340): the eighth chatter event fails the rail's start. -/
def execRailStartFailure (rail : Rail) (s : State) : Host.Outcome State Fault Refusal :=
  let x := railOf s rail.val
  if x.enabled ∧ x.running = false ∧ 8 ≤ x.chatter ∧ x.startFailed = false then
    .next (railStartFailed s rail.val 1)
  else .next s

/-- SEQUENCE_TIMEOUT (R340): a rail not qualified 1,639 ticks after its enable; chatter is the cause where both occur. -/
def execSequenceTimeout (rail : Rail) (s : State) : Host.Outcome State Fault Refusal :=
  let x := railOf s rail.val
  if x.enabled ∧ x.running = false ∧ x.startFailed = false then
    .next (railStartFailed s rail.val (if 8 ≤ x.chatter then 1 else 2))
  else .next s

/-- START_STEP_OVERTIME (R361): the step in progress has exceeded its maximum; recorded, and the start goes on. -/
def execStartStepOvertime (s : State) : Host.Outcome State Fault Refusal :=
  if s.sys.dev = .priming then
    .next (raise s 0x2F0B (leBytes 1 s.sys.step ++ satBytes 4 ((s.sys.time - s.sys.stepAt) / 64000)))
  else .next s

/-- A running fault (R345 to R348): counted once per rail; the VAON branch changes no state, a device rail enters Warn or
fails the start, a media rail takes its domain off. Causes: 1 power-good loss, 2 fault band, 3 over-voltage. -/
def runningFault (s : State) (r cause : Nat) : State :=
  let x := railOf s r
  if x.running && !x.faulted then
    let s := tallyAdd (modRail s r (fun x => { x with faulted := true, losing := false })) (5 * r + 3)
    let volt := if s.power.adcFault then 0 else x.voltage
    let data := leBytes 1 r ++ leBytes 1 cause ++ satBytes 2 volt
    if r = 5 then raise s 0x2E02 data
    else if r ≤ 4 then
      let s := raise s 0x2E02 data
      match s.sys.dev with
      | .active | .recovery | .test => enterWarn (if cause = 3 then railDrop s r else s) 2
      | .priming => failedStart (railDrop s r)
      | _ => s
    else domainOff s (railDomain r) r 2
  else s

/-- A running fault of the VAON branch changes no state, so it ends when the rail is seen good again (R347). -/
def faultStands (r : Nat) (x : RailRec) : Bool :=
  x.faulted && r != 5

/-- PG_LOSS (R345): a running rail's power-good falls. -/
def execPgLoss (rail : Rail) (s : State) : Host.Outcome State Fault Refusal :=
  if (railOf s rail.val).running then .next (modRail s rail.val (fun x =>
    { x with losing := true, faulted := faultStands rail.val x })) else .next s

/-- PG_GLITCH_END (R345): a loss that ended before tPGD is a glitch, counted. -/
def execPgGlitchEnd (rail : Rail) (s : State) : Host.Outcome State Fault Refusal :=
  if (railOf s rail.val).losing then
    .next (tallyAdd (modRail s rail.val (fun x => { x with losing := false })) (5 * rail.val + 2))
  else .next s

/-- PG_DROP_TIMEOUT (R345): a loss still present at tPGD is a running fault. -/
def execPgDropTimeout (rail : Rail) (s : State) : Host.Outcome State Fault Refusal :=
  if (railOf s rail.val).losing then .next (runningFault s rail.val 1) else .next s

/-- DOMAIN_OFF_CORE_RAILS (R348 step 3): 100 µs after VMP, VMC and VMQ are dropped. -/
def execDomainOffCoreRails (domain : Column) (s : State) : Host.Outcome State Fault Refusal :=
  let k := domain.val
  if (domainOf s k).phase = .stopping then
    .next (railsDrop (modDomain s k (fun x => { x with phase := .off })) [6 + 3 * k, 7 + 3 * k])
  else .next s

/-- DISCHARGE_TIMEOUT (R350, R354): a rail still at or above 10 % 5 ms after its enable fell. -/
def execDischargeTimeout (rail : Rail) (s : State) : Host.Outcome State Fault Refusal :=
  let r := rail.val
  let x := railOf s r
  if x.discharging then
    let s := setStat (modRail s r (fun x => { x with discharging := false })) (0x2E10 + r) 0x14 5000
    if s.power.adcFault then .next s
    else .next (raise (tallyAdd s (5 * r + 4)) 0x2E04 (leBytes 1 r ++ satBytes 2 x.voltage))
  else .next s

/-- ADC_FAULT (R354): the ADC is in fault until the next Priming and the reserve has failed. -/
def adcFaulted (s : State) : State :=
  if s.power.adcFault then s
  else
    let s := { s with power := { s.power with adcFault := true } }
    let s := raise s 0x2E08 (leBytes 2 s.power.refCheck ++ leBytes 2 s.power.zeroCheck)
    if s.sys.dev = .standby then s else reserveFail s 2

/-- A reference or zero check of one rotation (R354): its deviation in codes against ±1 % of the 4,096 of full scale. -/
def adcCheck (s : State) (ref : Bool) (v : BitVec 16) : State :=
  let dev := v.toInt
  let bad := decide (4096 < dev.natAbs * 100)
  let was := if ref then s.power.refBad else s.power.zeroBad
  let s :=
    if ref then
      setStat { s with power := { s.power with refBad := bad, refCheck := v.toNat } } 0x2E40 3 (dev * 10000 / 4096)
    else { s with power := { s.power with zeroBad := bad, zeroCheck := v.toNat } }
  if bad && was then adcFaulted s else s

/-- RAIL_BAND_FAULT and the warn band (R346) for one sample of a running rail. -/
def bandCheck (s : State) (r v : Nat) : State :=
  let nom := nominalMv r
  let off := if nom ≤ v then v - nom else nom - v
  let warn := decide (nom * settingN s (0x2E10 + r) 2 < off * 100)
  let fault := decide (nom * settingN s (0x2E10 + r) 3 < off * 100)
  let above := decide (115 * nom < 100 * v)
  let margined := s.power.marginState != 0 && s.power.marginRail == r
  let x := railOf s r
  let first := warn && !fault && !x.excursion && !margined
  let s := modRail s r (fun x =>
    { x with
      bandRun := if fault then x.bandRun + 1 else 0, overRun := if above then x.overRun + 1 else 0,
      excursion := warn && !margined, faulted := if fault || x.losing then x.faulted else faultStands r x })
  let s := if first then raise (bump s (0x2E10 + r) 0x13 1) 0x2E05 (leBytes 1 r ++ satBytes 2 v) else s
  let x := railOf s r
  if 2 ≤ x.overRun then runningFault s r 3
  else if 3 ≤ x.bandRun then runningFault s r 2
  else s

/-- One ADC sample of a rail (R346, R350, R353). -/
def railSample (s : State) (r v : Nat) : State :=
  let x := railOf s r
  let s :=
    if x.running && !s.power.adcFault then bandCheck s r v
    else if x.discharging && !s.power.adcFault && decide (100 * v < 10 * nominalMv r) then
      setStat (modRail s r (fun x => { x with discharging := false })) (0x2E10 + r) 0x14
        ((s.sys.time - x.fellAt) / 64000 : Nat)
    else s
  let s := modRail s r (fun x => { x with voltage := v })
  if x.running then
    setStat (setStat s (0x2E10 + r) 8 (min (stat s (0x2E10 + r) 8) v)) (0x2E10 + r) 9
      (max (stat s (0x2E10 + r) 9) v)
  else s

/-- ADC_SAMPLE (R353): one conversion, by its point. -/
def execAdcSample (point : AdcPoint) (value : BitVec 16) (s : State) : Host.Outcome State Fault Refusal :=
  match point with
  | .vres => .next (vresSample s value.toNat)
  | .vin => .next { s with power := { s.power with vin := value.toNat } }
  | .rail r => .next (railSample s r.val value.toNat)
  | .refCheck => .next (adcCheck s true value)
  | .zeroCheck => .next (adcCheck s false value)

/-- Parks every media domain at the start of the stop order (R349 step 0). -/
def parkAll (s : State) : State :=
  (List.range 8).foldl (fun s k => parkDomain (modDomain s k (fun x => { x with resetLow := true })) k) s

/-- No rail of the list is still being checked for discharge. -/
def discharged (s : State) (rs : List Nat) : Bool :=
  rs.all (fun r => !(railOf s r).discharging)

/-- The device rails are off at the end of the stop order: a failed start returns to Standby, a shutdown begins the
Folio epilogue with the closed record, the Ledger and one increment of each pending tally (R343, R349, R377). A shutdown that
cut the recall scan short has no record to close: the root and n have not been read (log entry 33). -/
def railsOff (s : State) : State :=
  let s := { s with power := { s.power with stopStep := none, deviceStage := 0 } }
  let s := (List.range 8).foldl (fun s k => modDomain s k (fun x => { x with phase := .off })) s
  if s.power.stopForStart then
    let s := coreReset s
    enterState { s with power := { s.power with stopForStart := false },
                        reserve := { s.reserve with bleedEn := true, chgEn := false },
                        sys := { s.sys with step := 0, heldByHeat := false, recalling := false } } .standby
  else
    let s := { s with folio := { s.folio with epilogueOver := false } }
    let s := coreReset (if s.sys.recalling then s else folioQueue s 1 .closedRecord (closedRecordPages s))
    let s := { s with sys := { s.sys with recalling := false } }
    let s := s.folio.tallyPending.foldl (fun s p =>
      match execTallyIncrement (BitVec.ofNat 8 p.1) s with
      | .next s' => s'
      | _ => s) s
    epilogueCheck s

/-- STOP_ORDER_STEP (R349): the next step of the stop order. The steps at t_D and at the end wait until every rail
dropped before them is below 10 % or has timed out. -/
def execStopOrderStep (s : State) : Host.Outcome State Fault Refusal :=
  match s.power.stopStep with
  | none => .next s
  | some n =>
    let go (s : State) : State := { s with power := { s.power with stopStep := some (n + 1) } }
    if n = 0 then .next (go (railDrop (parkAll s) 29))
    else if n ≤ 7 then
      .next (go (railsDrop s [6 + 3 * (8 - n), 7 + 3 * (8 - n), 8 + 3 * (7 - n)]))
    else if n = 8 then .next (go (railsDrop s [6, 7]))
    else if n = 9 then
      .next (if discharged s ((List.range 24).map (· + 6)) then go (railDrop s 4) else s)
    else if n = 10 then .next (go (railsDrop s [2, 3]))
    else if n = 11 then .next (go (railDrop s 1))
    else if n = 12 then .next (go { railDrop s 0 with sys := { s.sys with corePll := false } })
    else .next (if discharged s (List.range 5) then railsOff s else s)

/-- Whether a rail has a reachable PMBus regulator in LINEAR16 mode (R356, R357). -/
def pmbusReachable (s : State) (r : Nat) : Bool :=
  settingN s (0x2E10 + r) 4 != 0 && !(railOf s r).unreachable && (railOf s r).linear

/-- The third failed transaction in a row (R356): the regulator is unreachable, its telemetry reads 0xFFFF, recorded once
per period and counted. -/
def pmbusLost (s : State) (r : Nat) : State :=
  if (railOf s r).unreachable then s
  else
    let s := modRail s r (fun x => { x with unreachable := true, pmbusFails := 0 })
    let s := setStat (setStat (setStat s (0x2E10 + r) 0x0A 0xFFFF) (0x2E10 + r) 0x0B (-128)) (0x2E10 + r) 0x0C 0xFFFF
    raise (bump s (0x2E10 + r) 0x15 1) 0x2E06 (leBytes 1 r ++ leBytes 1 (settingN s (0x2E10 + r) 4))

/-- RailState of [2E1n.06]. -/
def railState (s : State) (r : Nat) : Nat :=
  let x := railOf s r
  if x.faulted then 4
  else if x.startFailed then 3
  else if s.power.marginState ≠ 0 ∧ s.power.marginRail = r then 6
  else if x.running then 2
  else if x.enabled then 1
  else if x.discharging then 5
  else 0

/-- One rail of a telemetry pass (R356). -/
def telemetryOf (answers : List PmbusReading) (s : State) (r : Nat) : State :=
  if pmbusReachable s r then
    match answers.find? (fun a => a.rail.val == r) with
    | some a =>
      if a.failures.val = 3 then pmbusLost s r
      else
        setStat (setStat (setStat (modRail s r (fun x => { x with pmbusFails := 0 })) (0x2E10 + r) 0x0A a.current.toNat)
          (0x2E10 + r) 0x0B a.temperature.toInt) (0x2E10 + r) 0x0C a.statusWord.toNat
    | none => pmbusLost s r
  else s

/-- The TQ word of rail r (R356). -/
def telemetryWord (s : State) (r : Nat) : Nat :=
  r * 2 ^ 56 + (railOf s r).voltage * 2 ^ 40 + (stat s (0x2E10 + r) 0x0A).toNat % 65536 * 2 ^ 24
    + ((stat s (0x2E10 + r) 0x0B + 40) % 256).toNat * 2 ^ 16 + railState s r * 2 ^ 8

/-- PMBUS_TELEMETRY (R356): the telemetry interval ends: every reachable regulator is read and a TQ packet of kind 0x03
with 32 words is pushed. -/
def execPmbusTelemetry (answers : List PmbusReading) (s : State) : Host.Outcome State Fault Refusal :=
  let s := (List.range 30).foldl (telemetryOf answers) s
  .next (tqPush s 3 0 ((List.range 30).map (telemetryWord s)
    ++ [s.power.vin * 2 ^ 48 + s.reserve.vres * 2 ^ 32]))

/-- PMBUS_ALERT (R356): the alert response address is read, then STATUS_WORD of every rail at the responding address,
recorded, and CLEAR_FAULTS written. -/
def execPmbusAlert (address : BitVec 7) (statusWord : BitVec 16) (s : State) : Host.Outcome State Fault Refusal :=
  let rails := (List.range 30).filter (fun r => settingN s (0x2E10 + r) 4 == address.toNat && address.toNat != 0)
  let s := rails.foldl (fun s r =>
    emit (setStat s (0x2E10 + r) 0x0C statusWord.toNat) (.pmbus r 0x03 0)) s
  .next (raise s 0x2E07 (leBytes 1 address.toNat ++ leBytes 2 statusWord.toNat))

/-- PMBUS_UNREACHABLE_END (R356): the 10 s period ends. -/
def execPmbusUnreachableEnd (rail : Rail) (s : State) : Host.Outcome State Fault Refusal :=
  .next (modRail s rail.val (fun x => { x with unreachable := false }))

/-- The effect of a margin command (R357): mode 0 nominal, 1 low, 2 high, on the rail of [2E01.01]. -/
def marginCommand (s : State) (mode : Nat) (acknowledged : Bool) : Except Nat State :=
  let r := settingN s 0x2E01 1
  if pmbusReachable s r = false then .error 0x2E04
  else if s.sys.dev ≠ .test ∨ (s.power.marginState ≠ 0 ∧ s.power.marginRail ≠ r) then .error 0x2E05
  else if acknowledged then
    if mode = 0 then .ok { emit s (.pmbus r 0x01 0x80) with power := { s.power with marginState := 0 } }
    else
      let sub := if mode = 1 then 0x16 else 0x17
      let s := emit s (.pmbus r (if mode = 1 then 0x26 else 0x25) (settingN s (0x2E10 + r) sub))
      let s := emit s (.pmbus r 0x01 (if mode = 1 then 0x98 else 0xA8))
      .ok { s with power := { s.power with marginState := mode, marginRail := r } }
  else .ok (pmbusLost s r)

/-- MARGIN_NOMINAL (R357): 0 written to [2E01.02]. -/
def execMarginNominal (via : Via) (acknowledged : Bool) (s : State) : Host.Outcome State Fault Refusal :=
  .next (served s via 0x2E01 2 [0] (fun _ s => marginCommand s 0 acknowledged))

/-- MARGIN_LOW (R357): 1 written to [2E01.02]. -/
def execMarginLow (via : Via) (acknowledged : Bool) (s : State) : Host.Outcome State Fault Refusal :=
  .next (served s via 0x2E01 2 [1] (fun _ s => marginCommand s 1 acknowledged))

/-- MARGIN_HIGH (R357): 2 written to [2E01.02]. -/
def execMarginHigh (via : Via) (acknowledged : Bool) (s : State) : Host.Outcome State Fault Refusal :=
  .next (served s via 0x2E01 2 [2] (fun _ s => marginCommand s 2 acknowledged))

/-- The effect of a domain restart (R351). -/
def domainRestart (s : State) (k : Nat) : Except Nat State :=
  if (domainOf s k).phase ≠ .off then .error 0x2E06
  else if s.sys.dev ≠ .active ∨ (List.range 8).any (fun j => (domainOf s j).restarting) ∨ returnInProgress s then
    .error 0x2E07
  else .ok (domainStageA (modDomain s k (fun x => { x with restarting := true })) k)

/-- DOMAIN_RESTART (R351): a write to [2E30.01]. -/
def execDomainRestart (via : Via) (domain : Byte) (s : State) : Host.Outcome State Fault Refusal :=
  .next (served s via 0x2E30 1 [domain] (fun _ s => domainRestart s domain.toNat))

/-- The effect of the supervision statistics clear (R360): the lowest voltage, whose default is 0xFFFF, becomes zero too. -/
def supervisionClear (s : State) : State :=
  let s := (List.range 30).foldl (fun s r => setStat s (0x2E10 + r) 8 0) s
  clearStatsAt (clearStatsAt (clearStatsAt s 0x2E10 30 9 1) 0x2E10 30 0x13 1) 0x2E10 30 0x15 1

/-- SUPERVISION_STATISTICS_CLEAR (R360): 0x01 written to [2E00.10]. -/
def execSupervisionStatisticsClear (via : Via) (s : State) : Host.Outcome State Fault Refusal :=
  .next (served s via 0x2E00 0x10 [1] (fun _ s => .ok (supervisionClear s)))

/-- Releases the start lockout (R344). -/
def releaseLockout (s : State) : State :=
  { s with power := { s.power with lockout := false, failedStarts := 0 } }

/-- START_REQUEST (R344): 0x01 written to [2E00.0F]. -/
def execStartRequest (via : Via) (s : State) : Host.Outcome State Fault Refusal :=
  .next (served s via 0x2E00 0x0F [1] (fun _ s => .ok (releaseLockout s)))

/-- Records an action of R359: input, state, action; every action counts in tally 187. -/
def buttonEvent (s : State) (input action : Nat) : State :=
  raise (tallyAdd s 187) 0x2E0B (leBytes 1 input ++ leBytes 1 (devNum s.sys.dev) ++ leBytes 1 action)

/-- PBTN_ACTION (R359): a debounced press in Standby, or one held for its hold time in Active, Recovery or Test. -/
def execPbtnAction (s : State) : Host.Outcome State Fault Refusal :=
  let c := settingN s 0x2E00 0x0B
  match s.sys.dev with
  | .standby => .next (if bitOf c 0 then releaseLockout (buttonEvent s 0 1) else s)
  | .active | .recovery | .test => .next (if bitOf c 1 then enterWarn (buttonEvent s 0 2) 5 else s)
  | _ => .next s

/-- MR_ACTION (R359): a debounced low of MR_N. -/
def execMrAction (s : State) : Host.Outcome State Fault Refusal :=
  let c := settingN s 0x2E00 0x0B
  if bitOf c 2 then
    match s.sys.dev with
    | .standby => .next (releaseLockout (buttonEvent s 1 1))
    | .active | .recovery | .test => .next (enterWarn (buttonEvent s 1 2) 5)
    | .priming => .next { buttonEvent s 1 3 with sys := { s.sys with restartLatched := true } }
    | _ => .next s
  else .next s

/-- The effect of RESTART_REQUEST (R23, R381). -/
def restartRequest (s : State) : Except Nat State :=
  if inService s then .ok (enterWarn s 5) else .error 0x2F04

/-- RESTART_REQUEST (R23): 0x01 written to [2F00.04]. -/
def execRestartRequest (via : Via) (s : State) : Host.Outcome State Fault Refusal :=
  .next (served s via 0x2F00 4 [1] (fun _ s => restartRequest s))

end Sys2Proof.Machine
end

