-- ==== Sys2Proof/Machine/Thermal.lean ====
section
/-! DEFINITION. Machine/Thermal.lean: the always-on clock's source (R382), the temperature scan with its levels and the absolute
limit (R384, R389 to R396), and the rate of rise (R397). Readings are in 0.1 °C. -/

namespace Sys2Proof.Machine

/-- CRYSTAL_SWITCH (R382): a qualified crystal, measured `offset` ppm from the on-die oscillator, becomes the clock. -/
def execCrystalSwitch (offset : BitVec 16) (s : State) : Host.Outcome State Fault Refusal :=
  let t := s.thermal
  if t.sourceSelect = 1 ∧ t.crystal = false ∧ t.crystalLost = false ∧ offset.toInt.natAbs ≤ 1000 then
    .next (raise { s with thermal := { t with crystal := true } } 0x3002 (leBytes 2 offset.toNat))
  else .next s

/-- CRYSTAL_LOST (R382): four periods without an edge return the clock to the on-die oscillator until the next AON POR. -/
def execCrystalLost (s : State) : Host.Outcome State Fault Refusal :=
  if s.thermal.crystal then
    .next (raise { s with thermal := { s.thermal with crystal := false, crystalLost := true } } 0x3001 (leBytes 8 (nowNs s)))
  else .next s

/-- Zone of a sensor (R389): 0 A, 1 B, 2 C, 3 D. -/
def sensorZone (i : Nat) : Nat :=
  if i < 48 then 0 else if i < 64 then 1 else if i < 80 then 2 else 3

/-- The sensor makes no reading: it is unusable (R391). -/
def sensorOut (s : State) (i : Nat) : Bool :=
  tabGet dBool s.thermal.unusable i

/-- The reading of a sensor in the last scan. -/
def readingOf (s : State) (i : Nat) : Int :=
  tabGet dInt s.thermal.readings i

/-- The usable sensors of a zone. -/
def usableIn (s : State) (z : Nat) : List Nat :=
  (List.range 96).filter (fun i => sensorZone i == z && !sensorOut s i)

/-- Median of a list of readings: the mean of the middle two where their number is even (log entry 12). -/
def medianOf (xs : List Int) : Int :=
  let ys := sortBy (fun a b => decide (a ≤ b)) xs
  let n := ys.length
  if n = 0 then 0
  else if n % 2 = 1 then ys.getD (n / 2) 0
  else (ys.getD (n / 2 - 1) 0 + ys.getD (n / 2) 0) / 2

/-- Makes a sensor unusable, recorded (R391). -/
def dropSensor (s : State) (i : Nat) (median : Int) : State :=
  raise { s with thermal := { s.thermal with unusable := tabSet dBool s.thermal.unusable i true } } 0x3003
    (leBytes 1 i ++ leBytes 2 (toUnsigned 2 (readingOf s i)) ++ leBytes 2 (toUnsigned 2 median))

/-- Judges one sensor of a scan against its zone's median (R391). -/
def judgeSensor (medians : List Int) (s : State) (i : Nat) : State :=
  if sensorOut s i then s
  else
    let r := readingOf s i
    let m := medians.getD (sensorZone i) 0
    if r < -550 ∨ 1500 < r then dropSensor s i m
    else
      let n := if 100 < (r - m).natAbs then tabGet dNat s.thermal.badScans i + 1 else 0
      let s := { s with thermal := { s.thermal with badScans := tabSet dNat s.thermal.badScans i n } }
      if 3 ≤ n then dropSensor s i m else s

/-- THERMAL_FAULT (R391): a zone with fewer than two usable sensors. -/
def judgeZones (s : State) : State :=
  if s.thermal.fault then s
  else
    match (List.range 4).find? (fun z => decide ((usableIn s z).length < 2)) with
    | some z =>
      raise { s with thermal := { s.thermal with fault := true } } 0x3004
        (leBytes 1 z ++ leBytes 1 (usableIn s z).length)
    | none => s

/-- The usable sensors, ascending. -/
def usableSensors (s : State) : List Nat :=
  (List.range 96).filter (fun i => !sensorOut s i)

/-- The lowest-indexed usable sensor with the highest reading (R395). -/
def hottestSensor (s : State) : Option Nat :=
  (usableSensors s).foldl (fun best i =>
    match best with
    | none => some i
    | some b => if readingOf s b < readingOf s i then some i else some b) none

/-- The entry threshold of a thermal level in 0.1 °C; the rise flag lowers the first two (R393). -/
def levelThreshold (s : State) (n : Nat) : Int :=
  let lead : Int := if s.thermal.rising ∧ n < 3 then 10 * forceN s 0x3010 0x0B else 0
  10 * setting s 0x3010 (3 + n) - lead

/-- The thermal level after a scan (R391, R393): entered at its threshold, left below it by more than 3 °C; held at 2 in a
thermal fault, with the absolute limit still judged. -/
def nextLevel (s : State) : Nat :=
  let t := s.thermal.tDie
  if s.thermal.fault then (if levelThreshold s 3 ≤ t then 3 else 2)
  else
    let entered := [3, 2, 1].find? (fun n => decide (levelThreshold s n ≤ t))
    let held := [3, 2, 1].find? (fun n => decide (n ≤ s.thermal.level ∧ levelThreshold s n - 30 ≤ t))
    max (entered.getD 0) (held.getD 0)

/-- Data of 0x3005 and 0x3006: T_die and the rise flag. -/
def levelData (s : State) : List Byte :=
  leBytes 2 (toUnsigned 2 s.thermal.tDie) ++ leBytes 1 (bnat s.thermal.rising)

/-- The entry actions of a level (R393): the warning's event on every port, the throttle's record and count. -/
def enterLevel (s : State) (n : Nat) : State :=
  if n = 1 then
    (List.range 4).foldl (fun s p => eventPost s p 1 1 5 0) (raise s 0x3005 (levelData s))
  else if n = 2 then
    tallyAdd (raise { s with thermal := { s.thermal with throttledAt := s.sys.time } } 0x3006 (levelData s)) 164
  else s

/-- THERMAL_LEVEL_CHANGE (R393, R394): the level moves with the entry actions of each level passed; leaving the throttle adds
its time to [3010.11]. -/
def setLevel (s : State) (new : Nat) : State :=
  let old := s.thermal.level
  let s := { s with thermal := { s.thermal with level := new } }
  if old ≤ new then (List.range (new - old)).foldl (fun s i => enterLevel s (old + 1 + i)) s
  else
    let s := if 2 ≤ old ∧ new < 2 then
        let ms := (s.sys.time - s.thermal.throttledAt) / 64000000
        raise (bump s 0x3010 0x11 ms) 0x3007 (satBytes 4 ms)
      else s
    settleErrors s

/-- The second scan in a row at the absolute limit (R395), by state. -/
def limitReached (s : State) : State :=
  let data := leBytes 2 (toUnsigned 2 s.thermal.tDie) ++ leBytes 1 ((hottestSensor s).getD 0)
  match s.sys.dev with
  | .active | .recovery | .test => enterWarn (raise s 0x3009 data) 4
  | .priming =>
    if s.power.stopStep.isSome then s
    else { s with power := { s.power with stopStep := some 0, stopForStart := true } }
  | .warn | .varnish | .varnished => raise s 0x3009 data
  | .standby => s

/-- The absolute limit judged on one scan (R395). -/
def judgeLimit (s : State) : State :=
  if 10 * setting s 0x3010 6 ≤ s.thermal.tDie then
    let n := s.thermal.limitScans + 1
    let s := { s with thermal := { s.thermal with limitScans := n } }
    if n = 2 then limitReached s else s
  else { s with thermal := { s.thermal with limitScans := 0 } }

/-- The temperature start condition (R396). -/
def startTemperature (s : State) : Bool :=
  (usableSensors s).all (fun i => decide (-400 ≤ readingOf s i ∧ readingOf s i ≤ 10 * setting s 0x3010 8))

/-- A start held by heat or cold is recorded once in a Standby (R396). -/
def judgeStart (s : State) : State :=
  if s.sys.dev = .standby ∧ startTemperature s = false ∧ s.sys.heldByHeat = false then
    let rs := (usableSensors s).map (readingOf s)
    let hi := rs.foldl max (rs.headD 0)
    let lo := rs.foldl min (rs.headD 0)
    raise { s with sys := { s.sys with heldByHeat := true } } 0x300A
      (leBytes 2 (toUnsigned 2 hi) ++ leBytes 2 (toUnsigned 2 lo))
  else s

/-- A change of 15 °C since the last measurement is a measurement occasion (R121). -/
def judgeOccasion (s : State) : State :=
  match s.reserve.measuredAt with
  | some t =>
    if 150 ≤ (budgetTemp s - t).natAbs then { s with reserve := { s.reserve with occasion := true } } else s
  | none => s

/-- T_die and what counts it: the maximum of [3010.02] and the sum of the rise window (R390, R397). -/
def noteDie (s : State) : State :=
  match hottestSensor s with
  | some i =>
    let t := readingOf s i
    let s := { s with thermal := { s.thermal with
      tDie := t, riseSum := s.thermal.riseSum + t, riseScans := s.thermal.riseScans + 1 } }
    maxStat s 0x3010 2 t
  | none => s

/-- The oscillator's compensation (R384, R391): by the mean of zone C, and none in a thermal fault. -/
def compensate (s : State) : State :=
  let rs := (usableIn s 2).map (readingOf s)
  if s.thermal.fault ∨ rs = [] then s
  else setStat s 0x3000 4 (Config.oscillatorTrim (rs.foldl (· + ·) 0 / rs.length))

/-- THERMAL_SCAN (R390): a scan ends; `readings` holds the 96 sensors in 0.1 °C, two's complement. -/
def execThermalScan (readings : List (BitVec 16)) (s : State) : Host.Outcome State Fault Refusal :=
  let values := (List.range 96).map (fun i => (readings.getD i 0).toInt)
  let s := { s with thermal := { s.thermal with readings := tabSetList dInt s.thermal.readings 0 values } }
  let medians := (List.range 4).map (fun z => medianOf ((usableIn s z).map (readingOf s)))
  let s := judgeZones ((List.range 96).foldl (judgeSensor medians) s)
  let s := compensate (noteDie s)
  let s := judgeOccasion (setLevel s (nextLevel s))
  .next (judgeStart (judgeLimit s))

/-- RISE_WINDOW (R397, R399): a rise window ends, judged by the settings in force in it. -/
def execRiseWindow (s : State) : Host.Outcome State Fault Refusal :=
  let s0 := s
  let s := takeForce (takeForce (takeForce s 0x3010 9) 0x3010 0x0A) 0x3010 0x0B
  let t := s.thermal
  if t.riseScans = 0 then .next s
  else
    let s := { s with thermal := { s.thermal with
      riseSum := 0, riseScans := 0, riseBefore := some (t.riseSum, t.riseScans) } }
    match t.riseBefore with
    | none => .next s
    | some (sum0, n0) =>
      let rise := (t.riseSum * n0 - sum0 * t.riseScans) * 1000 / (t.riseScans * n0 * forceN s0 0x3010 0x0A : Nat)
      let s := setStat s 0x3010 0x0D rise
      if (forceN s0 0x3010 9 : Int) ≤ rise then
        let s := bump { s with thermal := { s.thermal with rising := true } } 0x3010 0x12 1
        .next (if t.rising then s
          else raise s 0x3008 (leBytes 2 (toUnsigned 2 rise) ++ leBytes 2 (toUnsigned 2 (t.riseSum / t.riseScans))))
      else .next { s with thermal := { s.thermal with rising := false } }

/-- The effect of the thermal statistics clear (R399): each goes to zero. -/
def thermalClear (s : State) : State :=
  let s := clearStatsAt s 0x3002 2 1 8
  setStat (setStat (setStat s 0x3010 2 0) 0x3010 0x11 0) 0x3010 0x12 0

/-- THERMAL_STATISTICS_CLEAR (R399): 0x01 written to [3010.13]. -/
def execThermalStatisticsClear (via : Via) (s : State) : Host.Outcome State Fault Refusal :=
  .next (served s via 0x3010 0x13 [1] (fun _ s => .ok (thermalClear s)))

end Sys2Proof.Machine
end

