-- ==== Sys2Proof/Machine/Recall.lean ====
section
/-! DEFINITION. Machine/Recall.lean: the power-on reset of the always-on domain (R361 step 1, R386, R404), entry to Priming
(R362), and the Folio recall with its loads (R365, R407 to R410). -/

namespace Sys2Proof.Machine

/-- The node takes the values of a reset communication (R436, R446) from the loaded settings. -/
def communicationSettings (s : State) : State :=
  { s with mgmt := { s.mgmt with
      nodeId := settingN s 0x2001 2, arbitrationRate := settingN s 0x2001 3, dataRate := settingN s 0x2001 4 } }

/-- The start of the NMT state machine (R436): Pre-operational with the boot-up message, then Operational where NmtStartup
says so. -/
def nmtBoot (s : State) : State :=
  let s := { s with mgmt := { s.mgmt with nmt := .preOperational } }
  let s := if canUp s then emit s (.can (0x700 + s.mgmt.nodeId) [0]) else s
  if settingB s 0x2001 8 then { s with mgmt := { s.mgmt with nmt := .operational } } else s

/-- The clear mark that a valid copy of section 9 holds, and the Ledger's position under it (R407, R416): the last record held
stands before the first slot that is not valid. -/
def loadLedger (s : State) (mark : Nat) : State :=
  let s := { s with ledger := { s.ledger with mark := mark } }
  let n := ledgerScan s 6144 0
  let last := max s.ledger.lastSeq (mark + n)
  { s with ledger := { s.ledger with lastSeq := last, full := decide (mark + 6144 ≤ last) } }

/-- The clear mark of the live image (table of sections, R416). -/
def imageMark (s : State) : Nat :=
  ofLe (tabGetList dImage s.folio.image 0x9FF8 8)

/-- The block as the power-on reset leaves it, with the array, the medium and the identities of the stacks as they were. -/
def aonReset (s : State) (bytes : Tab Byte) : State :=
  { folio := { bytes := bytes }, path := { medium := s.path.medium, frees := s.path.frees },
    channels := (List.range 64).foldl (fun t c => tabMod dChannel t c (fun x =>
      { regs := x.regs.filter (fun e => e.1 < 3) })) s.channels,
    draws := s.draws, out := s.out, pending := s.pending }

/-- AON_POR (R361, R386, R404): everything the always-on supply held is lost; `torn` gives what the write set of a page write in
progress reads as afterwards. The parameters that the always-on domain itself uses come from the valid copies (log entry
34). -/
def execAonPor (torn : List Byte) (s : State) : Host.Outcome State Fault Refusal :=
  let bytes := match s.folio.running with
    | some job => tabSetList dFolio s.folio.bytes job.addr (torn.take job.bytes.length)
    | none => s.folio.bytes
  let s := aonReset s bytes
  let s := [0, 8, 9].foldl (fun s k =>
    match bestCopy s k with
    | some c => loadSection s c k
    | none => s) s
  let s := loadLedger s (if (bestCopy s 9).isSome then imageMark s else ledgerTop s)
  let s := { s with
    thermal := { s.thermal with sourceSelect := settingN s 0x3000 2 },
    mgmt := { s.mgmt with staticAddress := settingN s 0x2002 2, instanceId := settingN s 0x2002 6 } }
  .next (nmtBoot (communicationSettings s))

/-- Whether an object is of persistence class P (R425). -/
def objPersistent (key : Nat) : Bool :=
  match objRow? (key / 256) (key % 256) with
  | some r => r.pers == .p
  | none => false

/-- The Folio queue at entry to Priming (R403): items of classes 2, 3 and 5 that have not begun are gone. -/
def primingQueue (s : State) : State :=
  { s with folio := { s.folio with queue := s.folio.queue.filter (fun i =>
      i.begun || !(i.cls == 2 || i.cls == 3 || i.cls == 5)) } }

/-- The supervisor at entry to Priming (R341, R344 to R354). -/
def primingPower (p : Power) : Power :=
  { p with
    isoOn := true, adcFault := false, refBad := false, zeroBad := false, deviceStage := 0, marginState := 0,
    domains := [] }

/-- The reserve manager at entry to Priming (R120, R123, R133). -/
def primingReserve (r : Reserve) : Reserve :=
  { r with
    frozen := false, budget := 0, deviceShare := 0, portShare := [], deviceCharge := 0, portCharge := [], wt := true,
    writeThrough := true, aboveCap := false, samples := [], ramp := .none, measure := .idle, measured := false,
    c1 := 0, c2 := 0, esr := 0, measuredAt := none, occasion := false, frozenV := none,
    lastMeasure := 0 }

/-- The thermal unit at entry to Priming (R391, R395, R397): its latches clear, its readings stand. -/
def primingThermal (t : Thermal) : Thermal :=
  { t with
    unusable := [], badScans := [], fault := false, limitScans := 0, rising := false, riseSum := 0, riseScans := 0,
    riseBefore := none, sleep := [], sleptAt := [], maintenance := [], stackHot := [] }

/-- The start and shutdown registers at entry to Priming (R361, R381). -/
def primingSys (y : Sys) : Sys :=
  { y with
    dev := .priming, since := y.time, step := 3, stepAt := y.time, primedAt := y.time, recalling := true,
    runMode := y.startMode, startMode := 0, memoryActive := false, anchorsLoaded := false, recoveryCause := 0,
    restartLatched := false, earlyAccess := [], openRecordDone := false, quiescing := false, fencedInWarn := false,
    selfTest := 0, lastStartTime := 0, coreLost := false, scratchSize := 0, judgedDirty := false, reanchor := none }

/-- The conditions of entry to Priming that the block itself knows (R362); the re-arm delay ends with the command (log
entry 10). -/
def mayPrime (s : State) : Bool :=
  s.sys.dev == .standby && s.power.vinGood && !s.power.lockout && startTemperature s && s.power.stopStep.isNone

/-- PRIMING_START (R362, R403, R410, R425, R429): the V-class objects take their defaults, the level-code windows begin, the reserve manager begins its first
measurement or, disabled, keeps the bank bled, and the recall scan begins. -/
def execPrimingStart (s : State) : Host.Outcome State Fault Refusal :=
  if mayPrime s then
    let delay := settingN s 0x2F00 2
    let s := releaseSessions (primingQueue (coreReset s)) 0 16
    let s := { s with
      settings := s.settings.filter (fun e => objPersistent e.1), stats := [],
      ledger := { s.ledger with trackers := [], sharedSuppressed := 0 },
      mgmt := { s.mgmt with errorHistory := [], refusals := [], lockedOut := [] },
      power := primingPower s.power, reserve := primingReserve s.reserve, thermal := primingThermal s.thermal,
      sys := primingSys s.sys }
    let s := if settingB s 0x2400 7 then rampStart s else { s with reserve := { s.reserve with status := 0, bleedEn := true } }
    let key := leBytes 96 (drawn s 768)
    let s := afterDraw s
    let s := { s with crypt := { s.crypt with ephemeral := key } }
    let s := (List.range 4).foldl (fun s p => modPort s p (fun x => { x with healthSeen := healthNow s p })) s
    .next (tallyAdd (setStat s 0x2F01 2 (delay * 1000)) 153)
  else .next s

/-- A restore that waits (R408): every P-class object takes its default, sections 0 to 8 and the cleared bit are written. -/
def applyRestore (s : State) : State :=
  let bit : Byte := tabGet dImage s.folio.image 0x9000
  if bit.getLsbD 0 then
    let s := (List.range 9).foldl (fun s k => sectionUpdateIn 3 (defaultSection s k) k) s
    raise (sectionUpdateIn 3 (imageStore s 0x9000 [bit &&& 0xFE]) 9) 0x3105 []
  else s

/-- A half of the calibration area is valid (R409). -/
def calibrationValid (s : State) (half : Nat) : Bool :=
  crcOk (folioRead s (0x56000 + 0x4000 * half) 0x4000)

/-- The calibration at recall (R409): with no valid half the thermal unit is in fault and the fall-back codes are taken. -/
def loadCalibration (s : State) : State :=
  if calibrationValid s 0 || calibrationValid s 1 then s
  else
    let s := raise s 0x3107 []
    let s := { s with thermal := { s.thermal with fault := true } }
    let s := (List.range 8).foldl (fun s b => setStat s 0x2820 (b + 1) (([32, 33, 34, 35, 36, 37, 38, 40].getD b 0 : Nat) : Int)) s
    let s := setStat s 0x2820 9 10
    (List.range 16).foldl (fun s k => setStat s 0x2820 (0x0A + k) ((33 + k : Nat) : Int)) s

/-- The Ledger at recall (R407, R416, R420): a clear whose update was discarded at entry to Priming is written again. -/
def recallLedger (s : State) : State :=
  match s.ledger.clearing with
  | some m =>
    let s := sectionUpdate (imageStore s 0x9FF8 (leBytes 8 m)) 9
    { s with ledger := { s.ledger with lastSeq := max s.ledger.lastSeq (m + 1) } }
  | none => loadLedger s (imageMark s)

/-- The repairs in force (R108): the factory fuse map, and over it the spare-row and way records of the live image. -/
def loadRepairs (s : State) : State :=
  let word := fun (off : Nat) => ofLe (tabGetList dImage s.folio.image off 4)
  let spares := (List.range 1024).foldl (fun (t : Tab Nat) i =>
    let w := word (0xB000 + 4 * i)
    if bitOf w 31 then tabSet dNat t (16 * (i / 16) + bitsOf w 3 0) (bitsOf w 28 16 + 1) else t) s.sys.fuseRows
  { s with easel := { s.easel with
      spareRows := spares, wayRecords := tabOfList dNat 0 ((List.range 4096).map (fun i => word (0xC000 + 4 * i))) } }

/-- Address of a key store copy: 0 A, 1 B. -/
def storeCopy (copy : Nat) : Nat :=
  0x54000 + 0x1000 * copy

/-- A wrapped entry is empty or passes the unwrap check (R184). -/
def wrappedOk (bs : List Byte) : Bool :=
  bs.all (· == 0) || (keyUnwrap Config.deviceKey bs).isSome

/-- The key of a wrapped entry, none where it is empty. -/
def wrappedKey (bs : List Byte) : List Byte :=
  if bs.all (· == 0) then [] else (keyUnwrap Config.deviceKey bs).getD []

/-- A key store copy is valid (R184). -/
def storeValid (bs : List Byte) : Bool :=
  crcOk bs && wrappedOk (bytesAt bs 8 40) && wrappedOk (bytesAt bs 0x30 40)
    && (List.range 16).all (fun i => wrappedOk (bytesAt bs (0x60 + 104 * i) 104))

/-- The key ranges and keys a key store copy holds (R184, R185, R208). -/
def cryptOf (bs : List Byte) : Crypt :=
  let word := numAt bs 0x58 8
  let range := fun (r : Nat) =>
    ({ state := numAt bs (0x6E0 + 8 * r) 1, current := wrappedKey (bytesAt bs (0x60 + 208 * r) 104),
       next := wrappedKey (bytesAt bs (0x60 + 208 * r + 104) 104), nextInstalled := bitOf word (8 + r),
       generation := numAt bs (0x6E1 + 8 * r) 4, source := numAt bs (0x6E5 + 8 * r) 1, fna := bitOf word r } : RangeRec)
  let kind := bitsOf word 21 19
  { ranges := tabOfList dRange 0 ((List.range 8).map range),
    ki := wrappedKey (bytesAt bs 8 40), treeKey := wrappedKey (bytesAt bs 0x30 40), storeSeq := numAt bs 0 8,
    layout := bytesAt bs 0x720 160,
    glaze := if kind = 0 then {} else { range := some (bitsOf word 18 16), kind := kind, state := kind } }

/-- The first initialisation of a medium: the key store has never been written (R183, R184; log entry 35). -/
def storeBlank (s : State) : Bool :=
  (folioRead s 0x54000 0x2000).all (· == 0)

/-- KEY_STORE_LOAD (R184): the valid copy with the higher sequence number; a copy that is not valid is written anew; with none
Priming enters Recovery. -/
def loadKeyStore (s : State) : State :=
  let keep := s.crypt.ephemeral
  let a := folioRead s (storeCopy 0) 0x1000
  let b := folioRead s (storeCopy 1) 0x1000
  let load := fun (bs : List Byte) =>
    { s with crypt := { cryptOf bs with ephemeral := keep }, path := { s.path with initialised := true } }
  if storeBlank s then
    let key := leBytes 32 (drawn s 256)
    let s := afterDraw s
    { s with crypt := { treeKey := key, ephemeral := keep }, path := { s.path with initialised := false } }
  else
    match storeValid a, storeValid b with
    | true, true => load (if numAt a 0 8 < numAt b 0 8 then b else a)
    | true, false => folioQueue (raise (load a) 0x2707 [1]) 2 .keyStore (pageSplit (storeCopy 1) a)
    | false, true => folioQueue (raise (load b) 0x2707 [0]) 2 .keyStore (pageSplit (storeCopy 0) b)
    | false, false =>
      let s := raise s 0x2708 []
      { s with sys := { s.sys with recoveryCause := 5 }, path := { s.path with initialised := true } }

/-- The newest valid shutdown record (R378). -/
def newestRecord (s : State) : Option (List Byte) :=
  match recordIn s 0, recordIn s 1 with
  | some a, some b => some (if numAt a 0 8 < numAt b 0 8 then b else a)
  | some a, none => some a
  | none, r => r

/-- The shutdown records at recall (R197, R198, R209, R227, R376, R378): n of this run, the epoch, and the root where the
record is of a complete shutdown and verifies. -/
def loadShutdownRecords (s : State) : State :=
  match newestRecord s with
  | none => { s with sys := { s.sys with newestRecord := none, shutdownSeq := 1 } }
  | some bs =>
    let n := numAt bs 0 8
    let state := numAt bs 8 1
    let outcome := numAt bs 0x0A 1
    let recorded := numAt bs 0x0C 4
    let root := lineOf (bytesAt bs 0x40 64)
    let complete := decide (state = 1 ∧ outcome = 0)
    let verifies := bytesAt bs 0x80 8 == (cmac s.crypt.treeKey (lineBytes root ++ leBytes 8 n)).take 8
    let good := complete && verifies
    let s := if complete && !verifies then bump s 0x2700 7 1 else s
    let epoch := if s.path.epochResume then (recorded + 1) % 2 ^ 32 else s.path.epoch
    { s with
      sys := { s.sys with newestRecord := some (n, state, outcome), shutdownSeq := n + 1 },
      path := { s.path with epoch := epoch, epochShutdown := recorded },
      crypt := { s.crypt with root := if good then root else 0, rootValid := good } }

/-- The ports' shutdown states of the live image (R298). -/
def loadPortStates (s : State) : State :=
  (List.range 4).foldl (fun s p => modPort s p (fun x =>
    { x with shutdownDirty := tabGet dImage s.folio.image (0x9FF0 + p) != 0 })) s

/-- The recall scan's loads, in the order of R365 and R410. -/
def recallLoads (s : State) : State :=
  let s := applyRestore ((List.range 16).foldl resolveSection s)
  let s := loadCalibration (loadPortStates s)
  let s := recallLedger ((List.range 192).foldl repairTally s)
  loadShutdownRecords (loadKeyStore (loadRepairs s))

/-- Every rail's regulator before its enable (R356): VOUT_MODE tells LINEAR16 from the other modes. -/
def preparePmbus (s : State) (linear : BitVec 30) : State :=
  (List.range 30).foldl (fun s r => pmbusPrepare (modRail s r (fun x => { x with linear := linear.getLsbD r })) r) s

/-- FOLIO_RECALL_COMPLETE (R365, R407 to R410, R341): the contents are resolved and loaded, and the device rails start. The page
write in progress at entry to Priming has ended before. `linear` tells which regulators answer VOUT_MODE with LINEAR16. -/
def execFolioRecallComplete (linear : BitVec 30) (s : State) : Host.Outcome State Fault Refusal :=
  if s.sys.dev = .priming ∧ s.sys.recalling = true ∧ s.power.stopStep = none ∧ s.folio.running = none then
    let s := recallLoads s
    let s := { s with sys := { s.sys with lifeUsed := max (lifeByHours s) (max (lifeByWear s) (lifeBySpares s)) } }
    let s := setStat s 0x3100 6 (((s.sys.time - s.sys.stepAt) / 64000 : Nat) : Int)
    let s := { preparePmbus s linear with sys := { s.sys with recalling := false } }
    .next (beginStep (beginStage s 1) 4)
  else .next s

end Sys2Proof.Machine
end

