-- ==== Sys2Proof/Machine/Anchors.lean ====
section
/-! DEFINITION. Machine/Anchors.lean: step 7 of the start (R361): the anchors of every group with the search for a stale column
(R366, R368, R470), the first initialisation of a medium (R69, R183, R253), the layout check (R490), the drift survey and the
off-time (R226, R227), and the judgement of the last shutdown (R378, R381). -/

namespace Sys2Proof.Machine

/-- The error patterns of the reads of the tile at an address of a group, first read first. -/
def disturbsAt (errs : List TileDisturb) (g addr : Nat) : List Codeword :=
  (errs.filter (fun e => e.group.val == g && e.addr.toNat == addr)).map (·.pattern)

/-- Columns of a group that the start has lost: domain lost or channel failed (R54). -/
def lostColumns (s : State) (g : Nat) : List Nat :=
  (List.range 8).filter (columnLost s g)

/-- Decodes a tile again with each column of a list in turn treated as erased, up to the first good result (R470). -/
def searchColumns (t : TileId) (g addr : Nat) (lost : List Nat) (err : Codeword) :
    List Nat → State → State × Option (List Byte × Nat)
  | [], s => (s, none)
  | c :: cs, s =>
    let r := decodeAt s g (List.replicate 8 addr) (lost ++ [c]) err
    let s := countDecode s g (lost ++ [c]) r t
    match judgeDecode t r with
    | .good content _ => (s, some (content, c))
    | _ => searchColumns t g addr lost err cs s

/-- The sweep of R212 and R215: at most `fuel` reads of a tile, one error pattern each, up to the first that gives a good or poison
tile; the content of a good one, and whether the sweep has ended so. -/
def sweepTile (t : TileId) (pl : Place) : Nat → List Codeword → State → State × Option (List Byte) × Bool
  | 0, _, s => (s, none, false)
  | fuel + 1, errs, s =>
    let e := takeErased s pl.group pl.addrs
    let d := readTile e.1 t pl (errs.headD 0) e.2
    match d.2 with
    | .good content _ => (d.1, some content, true)
    | .poison _ _ => (d.1, none, true)
    | _ => sweepTile t pl fuel errs.tail d.1

/-- An anchor or journal tile as Priming reads it (R212, R470): its content when it is good, and the column that had to be erased. The
search for a column decodes the read at the run's centre again (log entry 114). -/
def searchTile (errs : List TileDisturb) (s : State) (t : TileId) (g addr : Nat) : State × Option (List Byte × Option Nat) :=
  let patterns := disturbsAt errs g addr
  let pl : Place := { group := g, slot := none, addrs := List.replicate 8 addr, filter := (0x7FFF, 0) }
  let lost := lostColumns s g
  let r := sweepTile t pl 16 patterns s
  match r.2.1 with
  | some content => (r.1, some (content, none))
  | none =>
    if r.2.2 then (r.1, none)
    else
      let d := searchColumns t g addr lost (patterns.getD 8 0) ((List.range 8).filter (fun c => !lost.contains c)) r.1
      (d.1, d.2.map (fun x => (x.1, some x.2)))

/-- A good anchor header as read. -/
structure HeaderRead where
  /-- generation -/
  gen : Nat
  /-- the 64 payload bytes -/
  bytes : List Byte
  /-- column that had to be erased -/
  column : Option Nat
  deriving DecidableEq, Repr

/-- The good headers of a group, newest first (R368). A header names the slot it lies in (R366). -/
def readHeaders (errs : List TileDisturb) (s : State) (g : Nat) : State × List HeaderRead :=
  let r := (List.range 4).foldl (fun (x : State × List HeaderRead) k =>
    match searchTile errs x.1 (.anchor g (16384 * k)) g (16384 * k) with
    | (s, some (content, c)) =>
      let gen := numAt content 0 8
      if gen % 4 = k ∧ versionOf content = gen % 2 ^ 24 then (s, { gen := gen, bytes := content.take 64, column := c } :: x.2)
      else (s, x.2)
    | (s, none) => (s, x.2)) (s, [])
  (r.1, sortBy (fun a b => decide (b.gen ≤ a.gen)) r.2)

/-- The payloads of `n` body tiles of a generation from tile `i` on (R368): `acc` holds those before, newest first; nothing where
a tile is not good with the generation's version. `cols` are the columns that had to be erased. -/
def readBodyTiles (errs : List TileDisturb) (g gen : Nat) :
    Nat → Nat → State → List (List Byte) → List Nat → State × Option (List (List Byte)) × List Nat
  | 0, _, s, acc, cols => (s, some acc.reverse, cols)
  | n + 1, i, s, acc, cols =>
    let r := searchTile errs s (.anchor g (anchorBase gen + i)) g (anchorBase gen + i)
    match r.2 with
    | some (content, c) =>
      if versionOf content = gen % 2 ^ 24 then
        readBodyTiles errs g gen n (i + 1) r.1 (content.take 64 :: acc) (cols ++ c.toList)
      else (r.1, none, cols ++ c.toList)
    | none => (r.1, none, cols)

/-- The body of a generation (R368): the payloads of tiles 1 to 8,130 when every one is good with the generation's version, and
the columns that had to be erased. -/
def readBody (errs : List TileDisturb) (s : State) (g gen : Nat) : State × Option (List (List Byte)) × List Nat :=
  readBodyTiles errs g gen 8130 1 s [] []

/-- The newest valid generation among headers (R368); a newer one whose body is not valid is recorded and passed over. -/
def pickGeneration (errs : List TileDisturb) (g : Nat) :
    List HeaderRead → State → List Nat → State × Option (HeaderRead × List (List Byte)) × List Nat
  | [], s, cols => (s, none, cols)
  | h :: hs, s, cols =>
    let b := readBody errs s g h.gen
    let cols := cols ++ h.column.toList ++ b.2.2
    if b.2.1.isSome then (b.1, b.2.1.map (fun body => (h, body)), cols)
    else pickGeneration errs g hs (raise b.1 0x2F09 (leBytes 1 g ++ leBytes 8 h.gen)) cols

/-- Group type an anchor header records (R366). -/
def headerType (h : HeaderRead) : Nat :=
  numAt h.bytes 33 1 / 2 % 2

/-- The move in progress an anchor header records (R75, R76, R366): the hot region of a swap stands before the hot pointer. -/
def headerMove (h : HeaderRead) (logical : Nat) : Option MoveRec :=
  let x := numAt h.bytes 42 2
  let kind := numAt h.bytes 50 1
  if x = 0xFFFF ∨ kind = 0 then none
  else
    some { kind := kind, logical := x, src := numAt h.bytes 44 2, dst := numAt h.bytes 46 2,
           pointer := 64 * numAt h.bytes 48 2,
           partner := if kind = 1 then (numAt h.bytes 38 2 + logical - 1) % logical else 0 }

/-- The pass in progress the engine tile records (R225, R366). -/
def enginePass (tile : List Byte) : Option PassRec :=
  if numAt tile 32 2 = 0xFFFF then none else some { region := numAt tile 32 2, offset := 64 * numAt tile 34 2 }

/-- The journal regions held: J_g of the loaded generation and those of the generations before it (R78). -/
def heldJournals (h : HeaderRead) (hs : List HeaderRead) : List Nat :=
  (List.range 4).filterMap (fun i => (hs.find? (fun x => x.gen + i == h.gen)).map (fun x => numAt x.bytes 34 2))

/-- A group's state from its loaded generation (R366, R368). -/
def loadGroup (s : State) (g : Nat) (h : HeaderRead) (hs : List HeaderRead) (body : List (List Byte)) : State :=
  let tile := fun (i : Nat) => body.getD (i - 1) []
  let engine := tile 8130
  modGroup s g (fun x => { x with
    table := tabOfList dEntry 0 ((List.range (logicalCount s g)).map (fun l =>
      entryOfWord (numAt (tile (1 + l / 16)) (4 * (l % 16)) 4))),
    regions := tabOfList dRegion 0 ((List.range (physCount s g)).map (fun p =>
      regionOfWord (numAt (tile (1922 + p / 5)) (12 * (p % 5)) 12))),
    free := (List.range (numAt h.bytes 36 2)).map (fun i => numAt (tile (8066 + i / 32)) (2 * (i % 32)) 2),
    journals := heldJournals h hs, journalSeq := numAt h.bytes 16 8, journalSlot := 0, journalTiles := 0,
    hot := numAt h.bytes 38 2, cold := numAt h.bytes 40 2, move := headerMove h (logicalCount s g),
    spares := tabOfList dNat 0 ((List.range 8).map (fun c => numAt engine (4 * c) 4)),
    pass := enginePass engine, generation := h.gen })

/-- Sets RB on every region that holds a host or metadata region (R466 step 2). -/
def markRebuilding (s : State) (g : Nat) : State :=
  (heldRegions (groupOf s g)).foldl (fun s p => modRegion s g p (fun r => { r with rb := true })) s

/-- Priming is to enter Recovery with a cause; the first cause met stands (R21, R368). -/
def recoveryFor (s : State) (cause : Nat) : State :=
  if s.sys.recoveryCause = 0 then { s with sys := { s.sys with recoveryCause := cause } } else s

/-- The stale column of a loaded group (R470): a column found by the search, or one the start has lost; RB as loaded where the
header itself needed that column erased, set anew elsewhere. Two columns fence the group. -/
def settleStale (s : State) (g : Nat) (h : HeaderRead) (found : List Nat) : State :=
  let lost := lostColumns s g
  let found := (found.filter (fun c => !lost.contains c)).eraseDups
  match lost, found with
  | [], [] =>
    let held := heldRegions (groupOf s g)
    if held.any (fun p => (regionOf s g p).rb) then recoveryFor s 2 else s
  | [c], [] => markRebuilding (modGroup s g (fun x => { x with stale := some c })) g
  | [], [c] =>
    let s := tallyAdd (raise (modGroup s g (fun x => { x with stale := some c })) 0x2902 (leBytes 1 (8 * g + c))) 161
    if h.column = some c then s else markRebuilding s g
  | _, _ => fenceGroup s g

/-- What step 7 found of a group: its loaded generation's header. -/
abbrev Loaded := Nat × HeaderRead

/-- Step 7 of one group (R253, R368): headers, the group type and its check against the stacks, the newest valid generation. -/
def anchorGroup (errs : List TileDisturb) (x : State × List Loaded) (g : Nat) : State × List Loaded :=
  let d := readHeaders errs x.1 g
  let s := match d.2 with
    | h :: _ => modGroup d.1 g (fun y => { y with typ := headerType h })
    | [] => d.1
  let s := ((List.range 8).filter (fun c => (channelOf s (8 * g + c)).trained)).foldl (fun s c => typeCheck s (8 * g + c)) s
  if 2 ≤ (lostColumns s g).length then (fenceGroup s g, x.2)
  else
    match pickGeneration errs g d.2 s [] with
    | (s, none, _) => (recoveryFor s 2, x.2)
    | (s, some (h, body), cols) =>
      let s := settleStale (loadGroup s g h d.2 body) g h cols
      let s := if d.2.any (fun k => headerType k != headerType h) then recoveryFor s 2 else s
      (s, x.2 ++ [(g, h)])

/-- The seed and the epoch of the loaded generations (R69, R209, R368). -/
def anchorSeed (s : State) (loaded : List Loaded) : State :=
  match loaded with
  | [] => s
  | (_, h) :: _ =>
    let seed := numAt h.bytes 28 5
    let recorded := loaded.foldl (fun e x => max e (numAt x.2.bytes 24 4)) s.path.epochShutdown
    let s := if loaded.all (fun x => numAt x.2.bytes 28 5 == seed) then s else recoveryFor s 2
    let epoch := if s.path.epochResume then (recorded + 1) % 2 ^ 32 else s.path.epoch
    { s with path := { s.path with seed := seed, epoch := epoch, epochShutdown := recorded, epochResume := false } }

/-- The type the majority of a group's identified stacks reports; a tie is JT192 (R253). -/
def majorityType (s : State) (g : Nat) : Nat :=
  let count := fun (t : Nat) => ((List.range 8).filter (fun c => (channelOf s (8 * g + c)).stackType == t)).length
  if count 0 < count 1 then 1 else 0

/-- The remap table tiles of a group as the first initialisation writes them: no entry valid (R81). -/
def freshRemapTiles (s : State) (g : Nat) : State :=
  (List.range (16 * physCount s g)).foldl (fun s i =>
    let t : TileId := .remap g (i / 16) (i % 16)
    (placeOf s t).elim s (fun pl => programAt s pl (metaCode s t 0 0 0))) s

/-- A group at the first initialisation of the medium (R69, R253): logical region l lies in physical region l, every key is
drawn, and the regions left over are free (log entry 36). -/
def freshGroup (s : State) (g : Nat) : State :=
  let s := modGroup s g (fun x => { x with typ := majorityType s g })
  let l := logicalCount s g
  let p := physCount s g
  let first := s.draws
  let h := hostCount s g
  let s := { s with draws := s.draws + p }
  let s := modGroup s g (fun x => { x with
    table := tabOfList dEntry 0 ((List.range l).map (fun i => { mapped := true, phys := i })),
    regions := tabOfList dRegion 0 ((List.range p).map (fun i =>
      { key := Config.random (first + i) % 2 ^ 16, owner := if i < l then i else 0, md := decide (h ≤ i ∧ i < l),
        fr := decide (l ≤ i) })),
    free := (List.range (p - l)).map (l + ·) })
  let s := ((List.range 8).filter (fun c => (channelOf s (8 * g + c)).trained)).foldl (fun s c => typeCheck s (8 * g + c)) s
  match lostColumns s g with
  | [] => freshRemapTiles s g
  | [c] => markRebuilding (freshRemapTiles (modGroup s g (fun x => { x with stale := some c })) g) g
  | _ => fenceGroup s g

/-- The first initialisation of a medium (R69, R183, R198): the seed, the groups, the root, and key range 0 with a generated
key, Opening. -/
def firstInitialisation (s : State) : State :=
  let seed := drawn s 40
  let s := (List.range 8).foldl freshGroup (afterDraw s)
  let root := counterPayload (drawn s 64) []
  let s := { afterDraw s with path := { s.path with seed := seed, initialised := true, epoch := 0, epochResume := false },
                              crypt := { s.crypt with root := root, rootValid := true, layout := [] } }
  let k := drawKey s
  modRange k.2 0 (fun x => { x with current := k.1, generation := x.generation + 1, source := 0, state := 1 })

/-- A medium that no start has brought into service: its key store has never been written, or no shutdown record and no anchor
exist (log entry 35). -/
def freshMedium (errs : List TileDisturb) (s : State) : Bool :=
  !s.path.initialised || (s.sys.newestRecord.isNone && s.sys.recoveryCause == 0
    && (List.range 8).all (fun g => (readHeaders errs s g).2.isEmpty))

/-- The drift survey (R226): every region that Retouch visits, in groups that are not fenced. -/
def driftSurvey (s : State) (survey : List SurveyReads) : State :=
  ((List.range 8).filter (fun g => !(groupOf s g).fenced)).foldl (fun s g =>
    (visitedRegions s g).foldl (fun s p =>
      let patterns := match survey.find? (fun x => x.group.val == g && x.region.toNat == p) with
        | some x => x.patterns
        | none => []
      measureRegion s g p patterns) s) s

/-- The surveyed regions, as group and physical region. -/
def surveyed (s : State) : List (Nat × Nat) :=
  ((List.range 8).filter (fun g => !(groupOf s g).fenced)).flatMap (fun g => (visitedRegions s g).map (fun p => (g, p)))

/-- The off-time a region's centre tells (R227). -/
def regionOffTime (s : State) (g p : Nat) : Nat :=
  let d := driftOf s g p
  let k := ((List.range 16).find? (fun k => decide ((d.centre : Int) ≤ curveCode s k))).getD 15
  2 ^ k - visitAge s g p

/-- The median of a list of counts: of an even number, the floor of the mean of the middle two; 0 of none (log entry 12). -/
def medianCount (xs : List Nat) : Nat :=
  let ys := sortBy (fun a b => decide (a ≤ b)) xs
  let n := ys.length
  if n % 2 = 1 then ys.getD (n / 2) 0 else (ys.getD (n / 2 - 1) 0 + ys.getD (n / 2) 0) / 2

/-- The off-time and the stale marks (R227, R228); `cold` tells that the always-on domain was reset. -/
def offTime (s : State) (cold : Bool) : State :=
  let rs := surveyed s
  let delta := if cold then medianCount (rs.map (fun r => regionOffTime s r.1 r.2)) else s.path.epoch - s.path.epochShutdown
  let all := if cold then decide (1 ≤ delta) else decide (64 ≤ delta)
  let late := fun (r : Nat × Nat) =>
    let d := driftOf s r.1 r.2
    decide (2 ≤ (d.centre : Int) - baseCode s (bucketFor (visitAge s r.1 r.2)))
  let st := rs.filter (fun r => all || late r)
  let source := if cold then 2 else 1
  let s := { s with path := { s.path with offSource := source } }
  let s := st.foldl (fun s r => modDrift s r.1 r.2 (fun d => { d with st := true })) s
  if st = [] then s
  else
    let s := { s with path := { s.path with offTime := delta, catchUpAt := s.sys.time } }
    raise s 0x2801 (satBytes 4 delta ++ leBytes 1 source ++ satBytes 4 st.length)

/-- A group's journal region of the loaded generation holds no tile (R378). -/
def journalEmpty (errs : List TileDisturb) (s : State) (x : Loaded) : Bool :=
  let seq := numAt x.2.bytes 16 8
  (searchTile errs s (.journal x.1 seq) x.1 (regionBase s x.1 (numAt x.2.bytes 34 2))).2.isNone

/-- Every group not fenced has as its newest valid generation the closing one of shutdown n, with an empty journal (R378). -/
def closingAnchors (errs : List TileDisturb) (s : State) (loaded : List Loaded) (n : Nat) : Bool :=
  ((List.range 8).filter (fun g => !(groupOf s g).fenced)).all (fun g =>
    match loaded.find? (fun x => x.1 == g) with
    | some x => bitOf (numAt x.2.bytes 33 1) 0 && numAt x.2.bytes 8 8 == n && journalEmpty errs s x
    | none => false)

/-- A dirty shutdown (R297, R298, R378): the count, the ports' states, the record and the Fatal event. -/
def dirtyShutdown (s : State) (n state : Nat) : State :=
  let s := { s with sys := { s.sys with judgedDirty := true } }
  let s := (List.range 4).foldl (fun s p => setShutdownState s p true) (tallyAdd s 150)
  moduleEvent (raise s 0x2F04 (leBytes 8 n ++ leBytes 1 state)) 3 2

/-- Sets the shutdown objects [2F00.08] to [2F00.0C] (R381). -/
def shutdownObjects (s : State) (cause outcome time tiles epilogue : Nat) : State :=
  { s with sys := { s.sys with
      lastCause := cause, lastOutcome := outcome, lastVarnishTime := time, lastVarnishTiles := tiles,
      lastEpilogue := epilogue } }

/-- The tree is to be re-anchored, where the medium's region state is there to do it (R198). -/
def needReanchor (s : State) (cause : Nat) : State :=
  if s.sys.anchorsLoaded then { s with sys := { s.sys with reanchor := some cause } } else s

/-- SHUTDOWN_JUDGEMENT (R378, R381). -/
def judgeShutdown (errs : List TileDisturb) (s : State) (loaded : List Loaded) (fresh : Bool) : State :=
  match newestRecord s with
  | none =>
    let s := shutdownObjects s 0 0xFF 0 0 0xFF
    if fresh then s else needReanchor s 3
  | some bs =>
    let n := numAt bs 0 8
    let outcome := numAt bs 0x0A 1
    if numAt bs 8 1 = 1 then
      let s := shutdownObjects s (numAt bs 9 1) outcome (numAt bs 0x1C 2) (numAt bs 0x18 4) 0
      if outcome = 0 then (if s.crypt.rootValid then s else needReanchor s 3)
      else needReanchor (dirtyShutdown s n 1) 2
    else if closingAnchors errs s loaded n then
      needReanchor (raise (shutdownObjects s 0 0 0 0 1) 0x2F05 (leBytes 8 n)) 1
    else needReanchor (dirtyShutdown (shutdownObjects s 0 3 0 0 1) n 0) 2

/-- ANCHORS_AND_REGION_STATE (R361 step 7). With no valid region state the run goes to Recovery, and nothing outside the
scratch area is read further. -/
def execAnchorsAndRegionState (errs : List TileDisturb) (survey : List SurveyReads) (s : State) :
    Host.Outcome State Fault Refusal :=
  if s.sys.dev = .priming ∧ s.sys.step = 7 ∧ s.power.stopStep = none ∧ s.sys.coreLost = false then
    let fresh := freshMedium errs s
    let cold := s.path.epochResume
    let d := if fresh then (firstInitialisation s, []) else (List.range 8).foldl (anchorGroup errs) (s, [])
    let s := anchorSeed d.1 d.2
    let ok := fresh || s.sys.recoveryCause == 0 || s.sys.recoveryCause == 5
    let s := { s with sys := { s.sys with anchorsLoaded := ok } }
    let s := if ok then offTime (driftSurvey (layoutCheck s) survey) cold
      else { s with path := { s.path with layout := loadedLayout s } }
    .next (beginStep (judgeShutdown errs s d.2 fresh) 8)
  else .next s

end Sys2Proof.Machine
end

