-- ==== Sys2Proof/Machine/Arbiter.lean ====
section
/-! DEFINITION. Machine/Arbiter.lean: the group arbiter (R259 to R274): which request owns a slot, the bookings and deferred
frames, locked sequences, the dead slot. The request lines of a phase are the command's operand (log entry 31). -/

namespace Sys2Proof.Machine

/-- A group's arbiter. -/
def arbOf (s : State) (g : Nat) : Arbiter :=
  (groupOf s g).arb

/-- Changes a group's arbiter. -/
def modArb (s : State) (g : Nat) (f : Arbiter → Arbiter) : State :=
  modGroup s g (fun x => { x with arb := f x.arb })

/-- Columns that take frames (R46, R261). -/
def frameColumns (s : State) (g : Nat) : List Nat :=
  (List.range 8).filter (fun c => !columnLost s g c)

/-- Columns that take the frames of a tile: those that are not erased for it (R46, R54). -/
def tileColumns (s : State) (pl : Place) : List Nat :=
  let erased := erasedColumns s pl.group pl.slot
  (List.range 8).filter (fun c => !erased.contains c)

/-- An anchor or journal tile as a place of its group. -/
def tilePlace (g addr : Nat) : Place :=
  { group := g, slot := none, addrs := List.replicate 8 addr, filter := (0x7FFF, addr % 1048576) }

/-- Port of a requester, 4 for the Barrow (R168, R263). -/
def sourceOf : Requester → Nat
  | .host p _ => p
  | .scan p => p
  | .clear p => p
  | .barrow _ _ _ => 4

/-- The lowest source among requesters. -/
def sourceAmong (ws : List Requester) : Nat :=
  ws.foldl (fun n w => min n (sourceOf w)) 4

/-- The requester position of a read: FGR, but BAR for a read that only the Barrow waits on, and SCB for a refill of the
scrubber. -/
def readPosition (s : State) (r : ReadRec) : Nat :=
  if r.kind = 2 then 8
  else
    let ws := readersOf s r
    if !ws.isEmpty && ws.all (fun w => sourceOf w.who == 4) then 7 else 0

/-- An outstanding read as a request (R157, R211, R214, R263). -/
def askRead (s : State) (g : Nat) (ask : ArbRequest) (n : Nat) : Option BusRequest :=
  let r := tabGet dRead s.easel.reads n
  match linePlace s r.line with
  | some pl =>
    if pl.group = g ∧ r.kind ≠ 9 ∧ r.granted = false ∧ r.content = [] ∧ placeFenced s pl = false ∧ remapReady s pl then
      let p := readPosition s r
      some { ask := ask, position := p, aged := p == 0, retry := decide (0 < r.retries), arrival := r.arrival,
             source := sourceAmong ((readersOf s r).map (·.who)), cols := tileColumns s pl, addrs := pl.addrs,
             op := .read (if r.codes = [] then firstCodes s pl else r.codes) (decide (0 < r.retries)) }
    else none
  | none => none

/-- A Palette fill as a request: aged where a host read waits for it (R263). -/
def askFill (s : State) (g : Nat) (ask : ArbRequest) (n : Nat) : Option BusRequest :=
  match missReg s n with
  | some m =>
    let t := tileOfKey m.key
    match placeOf s t with
    | some pl =>
      if pl.group = g ∧ m.granted = false ∧ m.content = [] ∧ placeFenced s pl = false ∧ remapReady s pl then
        let behind := (readsBehind s t).flatMap (fun r => (readersOf s (tabGet dRead s.easel.reads r)).map (·.who))
        some { ask := ask, position := 1, aged := m.cls == 0, retry := decide (0 < m.retries), arrival := m.arrival,
               source := sourceAmong behind, cols := tileColumns s pl, addrs := pl.addrs,
               op := .read (if m.codes = [] then firstCodes s pl else m.codes) (decide (0 < m.retries)) }
      else none
    | none => none
  | none => none

/-- A granted writeback's program as a request: aged where a sealed write-through acknowledgement waits on it (R173, R199, R263). -/
def askWriteback (s : State) (g : Nat) (ask : ArbRequest) (w : Nat) : Option BusRequest :=
  match s.palette.writes.find? (fun x => x.place == w && !x.sent) with
  | some x =>
    match x.pl with
    | some pl =>
      if pl.group = g ∧ placeFenced s pl = false then
        let waits := s.easel.acks.filter (fun a => a.back && a.counter.any (fun c => x.tile == .counter c))
        some { ask := ask, position := 1, aged := x.arrival.isSome, arrival := x.arrival.getD 0,
               source := sourceAmong (waits.map (·.who)), cols := tileColumns s pl, addrs := pl.addrs,
               op := .program x.code x.arrival.isSome }
      else none
    | none => none
  | none => none

/-- A granted destage's program as a request: aged in write-through (R164, R165, R263). -/
def askDestaged (s : State) (g : Nat) (ask : ArbRequest) (line : Nat) : Option BusRequest :=
  match s.easel.flights.find? (fun f => f.line == line && !f.sent), linePlace s line with
  | some f, some pl =>
    if pl.group = g ∧ placeFenced s pl = false then
      let waits := s.easel.acks.filter (fun a => a.line == line && a.copied)
      some { ask := ask, position := 2, aged := f.through.isSome, arrival := f.through.getD 0,
             source := sourceAmong (waits.map (·.who)), cols := tileColumns s pl, addrs := pl.addrs,
             op := .program f.code f.through.isSome }
    else none
  | _, _ => none

/-- A journal tile's program as a request: aged where it carries a StaleColumn record (R263, R466). -/
def askJournal (s : State) (g : Nat) (ask : ArbRequest) (seq : Nat) : Option BusRequest :=
  ((groupOf s g).journalOut.find? (fun t => t.seq == seq && !t.sent)).map (fun t =>
    { ask := ask, position := 3, aged := t.stale, cols := tileColumns s (tilePlace g t.addr),
      addrs := List.replicate 8 t.addr, op := .program t.code false })

/-- A read or program of a place by a requester of its own position. -/
def askPlace (s : State) (ask : ArbRequest) (position : Nat) (pl : Place) (op : BusOp) : Option BusRequest :=
  if placeFenced s pl then none
  else some { ask := ask, position := position, cols := tileColumns s pl, addrs := pl.addrs, op := op }

/-- The 96 symbols of a codeword. -/
def codeSymbols (code : Codeword) : List Byte :=
  (List.range 96).map (fun i => (code >>> (8 * i)).setWidth 8)

/-- What a request line asks for in the present state; none where nothing stands behind it (R259). -/
def busRequest (s : State) (g : Nat) (ask : ArbRequest) : Option BusRequest :=
  match ask with
  | .read id => askRead s g ask id.toNat
  | .fill n => askFill s g ask n.val
  | .writeback set way => askWriteback s g ask (16 * set.val + way.val)
  | .destage line => askDestaged s g ask line.toNat
  | .journal seq => askJournal s g ask seq.toNat
  | .anchor addr code => askPlace s ask 3 (tilePlace g addr.toNat) (.program (codeSymbols code) false)
  | .engineRead position region slot attempt misdirected bucket =>
    let pl := placeSlot s g region.toNat slot.toNat
    askPlace s ask position.val pl
      (.read (engineCodes s pl attempt.val misdirected (bucket.map (·.val))) (decide (0 < attempt.val)))
  | .engineProgram position region slot code =>
    askPlace s ask position.val (placeSlot s g region.toNat slot.toNat) (.program (codeSymbols code) false)
  | .deepRead region slot code =>
    askPlace s ask 6 (placeSlot s g region.toNat slot.toNat) (.read (deepCodes s g region.toNat code.val) (decide (0 < code.val)))
  | .swatchRead region tile code =>
    askPlace s ask 6 (placeSlot s g region.toNat (1048577 + tile.val))
      (.read (swatchCodes s g region.toNat code.val) (decide (0 < code.val)))
  | .sweepRead addr code => askPlace s ask 6 (tilePlace g addr.toNat) (.read (sweepCodes s g code.val) (decide (0 < code.val)))
  | .frame opcode fields =>
    some { ask := ask, position := 8, cols := frameColumns s g, op := .other opcode.toNat fields.toNat }
  | .lock position slots region reads programs =>
    some { ask := ask, position := position.val, cols := frameColumns s g, addrs := slotAddrs s g region.toNat reads.toNat,
           also := slotAddrs s g region.toNat programs.toNat, op := .lock slots.toNat region.toNat }

/-- The requests behind the request lines of a phase. -/
def busRequests (s : State) (g : Nat) (asks : List ArbRequest) : List BusRequest :=
  asks.filterMap (busRequest s g)

/-- Patch address of a request in a column. -/
def reqAddr (r : BusRequest) (c : Nat) : Nat :=
  r.addrs.getD c 0

/-- A program of the bank is suspended. -/
def suspendedIn (s : State) (g c b : Nat) : Bool :=
  (arbOf s g).resumes.any (fun x => x.column == c && x.bank == b) || (bankOf s (8 * g + c) b).suspended.isSome

/-- Programs of the group in the bank whose frames are out. -/
def sentIn (s : State) (g c b : Nat) : Nat :=
  ((programsIn s g c b).filter (·.sent)).length + bnat (spareAt s g c b).isSome

/-- A program runs in the bank and is not suspended (R240). -/
def runningIn (s : State) (g c b : Nat) : Bool :=
  (bankOf s (8 * g + c) b).running.isSome || decide (bnat (suspendedIn s g c b) < sentIn s g c b)

/-- A program that runs in the bank is a write-through program, which is never suspended (R241). -/
def throughIn (s : State) (g c b : Nat) : Bool :=
  (programsIn s g c b).any (fun p => p.sent && p.through)

/-- The bank runs a read that has not sent its first DQ beat by slot `n` (R240). -/
def readingIn (s : State) (g n c b : Nat) : Bool :=
  (arbOf s g).reads.any (fun x => x.column == c && x.bank == b && decide (n < x.slot))

/-- What a request needs of a bank before its frame can go (R240, R241, R261, R267). -/
inductive BankNeed where
  /-- nothing -/
  | free
  /-- a SUS first -/
  | suspend
  /-- it cannot go -/
  | blocked
  deriving DecidableEq, Repr

/-- The need of a request for slot `n` at one column. -/
def bankNeed (s : State) (g n : Nat) (r : BusRequest) (c : Nat) : BankNeed :=
  let b := reqAddr r c % 256
  let running := runningIn s g c b
  let held := suspendedIn s g c b
  let mayHold := !held && !throughIn s g c b
  match r.op with
  | .read _ _ =>
    if readingIn s g n c b then .blocked else if running then (if mayHold then .suspend else .blocked) else .free
  | .program _ through =>
    if readingIn s g n c b then .blocked
    else if running then (if through && mayHold then .suspend else .blocked)
    else if held && !through then .blocked else .free
  | .other _ _ => .free
  | .lock _ _ =>
    let d := r.also.getD c 0 % 256
    let busy := fun (b : Nat) => readingIn s g n c b || runningIn s g c b || suspendedIn s g c b
    if busy b || busy d then .blocked else .free

/-- The request needs a SUS on some column (R264). -/
def needsSuspend (s : State) (g n : Nat) (r : BusRequest) : Bool :=
  r.cols.any (fun c => bankNeed s g n r c == .suspend)

/-- The DQ slot a frame of the request needs when it goes in CA slot `n` (R261). -/
def dqOf (r : BusRequest) (n : Nat) : Option Nat :=
  match r.op with
  | .read _ _ => some (n + 36)
  | .program _ _ => some (n + 1)
  | _ => none

/-- The DQ slot of a frame in slot `n` is not booked. -/
def dqFree (s : State) (g : Nat) (r : BusRequest) (n : Nat) : Bool :=
  match dqOf r n with
  | some k => !(arbOf s g).dq.contains k
  | none => true

/-- A request programs the medium: held while a StaleColumn tile is awaited, but for that tile itself (R466). -/
def staleHeld (s : State) (g : Nat) (r : BusRequest) : Bool :=
  (groupOf s g).staleHold &&
    match r.op with
    | .program _ _ => r.position != 3
    | .lock _ _ => true
    | _ => false

/-- A line lies in a physical region of a group. -/
def lineIn (s : State) (g p line : Nat) : Bool :=
  match linePlace s line with
  | some pl => pl.group == g && pl.slot.any (fun x => x.1 == p)
  | none => false

/-- The requester that holds a physical region for a work not ended (R14): Glaze its units in flight and its pages, rotation its gap
step and its remap. -/
def regionHolder (s : State) (g p : Nat) : Option Nat :=
  let x := groupOf s g
  if s.crypt.glaze.units.any (fun u => u.lane == g && u.codes.any (fun e => lineIn s g p e.1))
      || x.pages.any (fun j => j.ready && j.codes.any (fun e => lineIn s g p e.1)) then some 4
  else if x.gapJob.any (fun j => j.region == p) || x.remapJob.any (fun j => j.region == p) then some 5
  else none

/-- Eligibility for slot `n` (R14, R261, R264, R267). -/
def eligible (s : State) (g n : Nat) (r : BusRequest) : Bool :=
  r.cols.all (fun c => bankNeed s g n r c != .blocked) && !staleHeld s g r
    && (needsSuspend s g n r || dqFree s g r n)
    && (match r.op with
        | .lock _ region => (arbOf s g).reserved.isEmpty && (regionHolder s g region).all (· == r.position)
        | _ => true)

/-- Rank of a request (R262, R263): the aged set and FGR at 0. -/
def rankOf (s : State) (g : Nat) (r : BusRequest) : Nat :=
  if r.aged ∨ r.position = 0 then 0 else (arbOf s g).ranks.getD r.position 7

/-- Order in the aged set (R263): retries first, then arrival, then P0 to P3 and Barrow. -/
def agedKey (r : BusRequest) : Nat :=
  (if r.retry then 0 else 2 ^ 70) + r.arrival * 8 + r.source

/-- Order at one rank (R262): positions from the rotating pointer, wrapping. -/
def pointerKey (s : State) (g : Nat) (r : BusRequest) : Nat :=
  (r.position + 9 - (arbOf s g).pointer) % 9

/-- The first of the requests with the least key. -/
def leastBy (key : BusRequest → Nat) (rs : List BusRequest) : Option BusRequest :=
  rs.foldl (fun best r =>
    match best with
    | none => some r
    | some b => if key r < key b then some r else some b) none

/-- The winner of slot `n` (R262). -/
def arbWinner (s : State) (g n : Nat) (rs : List BusRequest) : Option BusRequest :=
  let el := rs.filter (eligible s g n)
  let low := el.foldl (fun m r => min m (rankOf s g r)) 8
  let best := el.filter (fun r => rankOf s g r == low)
  leastBy (if low = 0 then agedKey else pointerKey s g) best

/-- The last frame to a bank of a column was an RD or SRD of this address: an SRD may follow (R239). -/
def latchedAt (s : State) (g c addr : Nat) : Bool :=
  tabGet dNat (arbOf s g).latched (256 * c + addr % 256) == addr / 256 + 1

/-- Notes what a frame leaves of the bank's latched read, 0 for none (R239). -/
def latchBank (s : State) (g c b v : Nat) : State :=
  modArb s g (fun a => { a with latched := tabSet dNat a.latched (256 * c + b) v })

/-- Sends a request's frames on each of its columns, each with that column's own address and its own code or check, and a program's
data burst one slot later (R235, R237 to R239, R248). -/
def issueFrames (s : State) (g : Nat) (r : BusRequest) : State :=
  match r.op with
  | .read codes shifted =>
    r.cols.foldl (fun s c =>
      let a := reqAddr r c
      let op := if shifted && latchedAt s g c a then 2 else 1
      latchBank (emit s (.caFrame (8 * g + c) (caBits op (addrBody a + codes.getD c 0 * 8)))) g c (a % 256) (a / 256 + 1)) s
  | .program code _ =>
    let s := r.cols.foldl (fun s c =>
      let a := reqAddr r c
      latchBank (emit s (.caFrame (8 * g + c) (programFrame a (patchOfSymbols code c)))) g c (a % 256) 0) s
    r.cols.foldl (fun s c => emit s (.burst (8 * g + c) (patchBytes (patchOfSymbols code c)))) s
  | .other op fields => r.cols.foldl (fun s c => sendFrame s (8 * g + c) (caBits op (fields / 2 * 2))) s
  | .lock _ _ => s

/-- What frames that go in slot `n` leave in the arbiter's view of the banks: reads that run (R240), and for a suspended bank the slot
its RSM waits for (R241). -/
def noteBanks (s : State) (g n : Nat) (r : BusRequest) : State :=
  let bank := fun (c : Nat) => reqAddr r c % 256
  match r.op with
  | .read _ _ =>
    modArb s g (fun a => { a with
      reads := a.reads ++ r.cols.map (fun c => { column := c, bank := bank c, slot := n + 36 }),
      resumes := a.resumes.map (fun x =>
        if r.cols.contains x.column ∧ bank x.column = x.bank then { x with earliest := max x.earliest (n + 36) } else x) })
  | .program _ _ =>
    modArb s g (fun a => { a with resumes := a.resumes.map (fun x =>
      if r.cols.contains x.column ∧ bank x.column = x.bank then { x with second := some (n + 968) } else x) })
  | _ => s

/-- Sends the SUS frames a deferred request needs and schedules their RSM (R241, R264, R265): after the first beat of the read,
or after the program's end, at its time-out at the latest. -/
def issueSuspends (s : State) (g : Nat) (r : BusRequest) (at0 : Nat) : State :=
  let cols := r.cols.filter (fun c => bankNeed s g (arbOf s g).slot r c == .suspend)
  let isRead := match r.op with
    | .read _ _ => true
    | _ => false
  cols.foldl (fun s c =>
    let b := reqAddr r c % 256
    let s := bump (sendFrame s (8 * g + c) (caBits 4 (b * 2 ^ 36))) 0x291B (8 * g + c + 1) 1
    latchBank (modArb s g (fun a => { a with resumes := a.resumes ++ [{
      column := c, bank := b, earliest := if isRead then at0 + 36 else at0,
      second := if isRead then none else some (at0 + 968) }] })) g c b 0) s

/-- The CA slot reserved for a deferred frame: the first at or after `n + 32` whose own and whose DQ slot are free (R264). -/
def deferSlot (s : State) (g n : Nat) (r : BusRequest) : Nat :=
  ((List.range 128).map (n + 32 + ·)).find? (fun k =>
    dqFree s g r k && !(arbOf s g).reserved.any (fun e => e.1 == k)) |>.getD (n + 160)

/-- The dead slot (R269): no frame goes out, and the grant's booking, reservation and lock are released. -/
def deadSlot (s : State) (g : Nat) (r : BusRequest) : State :=
  let s := bump s (0x2A10 + g) 0x0D 1
  modArb s g (fun a =>
    let slots := (a.reserved.filter (fun e => e.2 = r)).map (·.1)
    let gone := (a.slot :: slots).filterMap (dqOf r)
    { a with dq := a.dq.filter (fun k => !gone.contains k), reserved := a.reserved.filter (fun e => e.2 ≠ r),
             lock := match r.op with
               | .lock _ _ => none
               | _ => a.lock })

/-- What a requester notes when its frames go out: its codes and limits (R58, R211), or that they are out. -/
def markSent (s : State) (g : Nat) (r : BusRequest) : State :=
  match r.ask with
  | .read id =>
    let n := id.toNat
    match linePlace s (tabGet dRead s.easel.reads n).line with
    | some pl => modRead (beginRead s n pl) n (fun x => { x with granted := true })
    | none => s
  | .fill n =>
    match missReg s n.val with
    | some m => (placeOf s (tileOfKey m.key)).elim s (fun pl => setMiss s n.val (some { beginFill s m pl with granted := true }))
    | none => s
  | .writeback set way =>
    { s with palette := { s.palette with writes := s.palette.writes.map (fun x =>
        if x.place = 16 * set.val + way.val then { x with sent := true } else x) } }
  | .destage line =>
    { s with easel := { s.easel with flights := s.easel.flights.map (fun f =>
        if f.line = line.toNat then { f with sent := true } else f) } }
  | .journal seq =>
    modGroup s g (fun x => { x with journalOut := x.journalOut.map (fun t =>
      if t.seq = seq.toNat then { t with sent := true } else t) })
  | _ => s

/-- The frames of the request that owns the slot in progress go out; a request that is withdrawn, or behind which nothing stands any
more, leaves the slot dead (R269). -/
def openSlot (s : State) (g : Nat) (withdraw : Bool) : State :=
  match (arbOf s g).granted with
  | none => s
  | some r =>
    let s' := modArb s g (fun a => { a with granted := none })
    if withdraw || (busRequest s g r.ask).isNone then deadSlot s' g r
    else
      match (arbOf s g).reserved.find? (fun e => e.2 = r) with
      | some e => issueSuspends s' g r e.1
      | none => markSent (noteBanks (issueFrames s' g r) g (arbOf s g).slot r) g r

/-- Books a grant of slot `n` (R261, R262, R264, R267). -/
def bookGrant (s : State) (g n : Nat) (r : BusRequest) : State :=
  let s := bump s (0x2A10 + g) (r.position + 1) 1
  let s := modArb s g (fun a =>
    { a with granted := some r, pointer := if rankOf s g r = 0 then a.pointer else (r.position + 1) % 9 })
  if needsSuspend s g n r then
    let k := deferSlot s g n r
    let s := bump s (0x2A10 + g) 0x0F 1
    modArb s g (fun a => { a with reserved := a.reserved ++ [(k, r)], dq := a.dq ++ (dqOf r k).toList })
  else
    match r.op with
    | .lock slots region =>
      let s := bump (bump s (0x2A10 + g) 0x0A 1) (0x2A10 + g) 0x0B 1
      modArb s g (fun a => { a with
        lock := some { position := r.position, slots := slots, region := region } })
    | _ => modArb s g (fun a => { a with dq := a.dq ++ (dqOf r n).toList })

/-- The RSM frames that go in slot `n`: one a column (R265), once the reads made meanwhile have sent their first beat and a program
into the suspended bank has ended (R240, R241). -/
def dueResumes (s : State) (g n : Nat) : List ResumeRec :=
  ((arbOf s g).resumes.filter (fun x => decide (x.earliest ≤ n) && x.second.all (fun k => decide (k ≤ n))
    && ((bankOf s (8 * g + x.column) x.bank).suspended.isNone || (bankOf s (8 * g + x.column) x.bank).running.isNone))).foldl (fun xs x =>
    if xs.any (fun y => y.column == x.column) then xs else xs ++ [x]) []

/-- Sends RSM frames; those a locked sequence delayed are counted (R265). -/
def issueResumes (s : State) (g : Nat) (xs : List ResumeRec) : State :=
  let s := xs.foldl (fun s x =>
    let s := latchBank (sendFrame s (8 * g + x.column) (caBits 5 (x.bank * 2 ^ 36))) g x.column x.bank 0
    if x.delayed then bump s (0x2A10 + g) 0x10 1 else s) s
  modArb s g (fun a => { a with resumes := a.resumes.filter (fun x => !xs.contains x) })

/-- The move of a cut sequence is abandoned without a commit and presented again (R268). -/
def abandonMove (s : State) (g region : Nat) : State :=
  match (groupOf s g).gapJob with
  | some j =>
    if j.region = region then modGroup s g (fun x => { x with gapJob := none, steps := j.region :: x.steps }) else s
  | none =>
    match (groupOf s g).remapJob with
    | some j =>
      if j.region = region then
        modGroup (jqPush s g (remapUnits j.column j.region 0x1FFFFF)) g (fun x =>
          { x with remapJob := none, nominations := { j with spare := none, patch := 0 } :: x.nominations })
      else s
    | none =>
      modGroup s g (fun x => { x with move := x.move.map (fun m =>
        if m.src = region ∧ 0 < m.copied then { m with copied := m.copied - 1 } else m) })

/-- A locked sequence is cut at its 64th slot (R268). -/
def lockOverrun (s : State) (g : Nat) (l : LockRec) : State :=
  let s := maxStat (bump s (0x2A10 + g) 0x11 1) (0x2A10 + g) 0x0C 64
  let s := modArb s g (fun a => { a with lock := none })
  let s := if l.position = 5 then abandonMove s g l.region else s
  raise s 0x2A01 (leBytes 1 g ++ leBytes 1 l.position ++ leBytes 2 l.region)

/-- Follows the lock at the end of the slot in progress (R267, R268): it runs on, ends, or is cut. -/
def lockStep (s : State) (g : Nat) : State :=
  match (arbOf s g).lock with
  | none => s
  | some l =>
    if 63 ≤ l.run ∧ 64 < l.slots then lockOverrun s g l
    else if l.slots ≤ l.run + 1 then
      maxStat (modArb s g (fun a => { a with lock := none })) (0x2A10 + g) 0x0C l.slots
    else
      bump (modArb s g (fun a => { a with lock := some { l with run := l.run + 1 } })) (0x2A10 + g) 0x0B 1

/-- The frame that the owner of the locked sequence sends in slot `n` (R267). -/
def lockedFrame (s : State) (g n : Nat) (rs : List BusRequest) : Option BusRequest :=
  rs.find? (fun r => (arbOf s g).lock.any (fun l => l.position == r.position)
    && (match r.op with
        | .lock _ _ => false
        | _ => true)
    && r.cols.all (fun c => bankNeed s g n r c == .free))

/-- Decides slot `n` (R262, R264, R265): a slot of a locked sequence is its owner's. -/
def decideSlot (s : State) (g n : Nat) (rs : List BusRequest) : State :=
  if (arbOf s g).lock.isSome then
    let own := lockedFrame s g n rs
    busUse (modArb s g (fun a => { a with
      granted := own, dq := a.dq ++ (own.bind (fun r => dqOf r n)).toList,
      resumes := a.resumes.map (fun x => if x.earliest ≤ n then { x with delayed := true } else x) })) 1
  else
    match (arbOf s g).reserved.find? (fun e => e.1 == n) with
    | some e =>
      busUse (modArb s g (fun a => { a with granted := some e.2, reserved := a.reserved.filter (fun x => x.1 != n) })) 1
    | none =>
      if dueResumes s g n ≠ [] then busUse (issueResumes s g (dueResumes s g n)) 1
      else
        match arbWinner s g n rs with
        | some r => busUse (bookGrant s g n r) 1
        | none => bump s (0x2A10 + g) 0x0E 1

/-- The count of slots with no request, deferred frame or outstanding program (R18). -/
def quietStep (s : State) (g : Nat) (rs : List BusRequest) : State :=
  let a := arbOf s g
  let none? := rs.isEmpty && a.granted.isNone && a.reserved.isEmpty && a.resumes.isEmpty && a.lock.isNone && !groupBusy s g
  modArb s g (fun a => { a with quiet := if none? then a.quiet + 1 else 0 })

/-- ARBITRATION_PHASE (R260 to R272): the slot in progress goes out, or is dead where its request was withdrawn, and the next
slot is decided among the asserted requests. A group in light sleep wakes at the first of them (R18). -/
def execArbitrationPhase (group : Group) (requests : List ArbRequest) (withdraw : Bool) (s : State) :
    Host.Outcome State Fault Refusal :=
  let g := group.val
  if groupAwake s g = false then .next s
  else
    let s := if sleepOf s g = 1 ∧ busRequests s g requests ≠ [] then setSleep s g 0 else s
    let s := lockStep (openSlot s g withdraw) g
    let s := modArb s g (fun a => { a with
      ranks := a.shadow.getD a.ranks, shadow := none, slot := a.slot + 1, dq := a.dq.filter (fun k => decide (a.slot < k)),
      reads := a.reads.filter (fun x => decide (a.slot + 1 < x.slot)) })
    let rs := busRequests s g requests
    let s := if rs = [] then s else modGroup s g (fun x => { x with requestAt := s.sys.time })
    .next (quietStep (decideSlot s g (arbOf s g).slot rs) g rs)

/-- LOCK_OVERRUN (R268): the locked sequence in its 64th slot without its last frame. -/
def execLockOverrun (group : Group) (s : State) : Host.Outcome State Fault Refusal :=
  match (arbOf s group.val).lock with
  | some l => if 63 ≤ l.run ∧ 64 < l.slots then .next (lockOverrun s group.val l) else .next s
  | none => .next s

/-- The effect of the arbiter statistics clear (R274). -/
def arbiterClear (s : State) : State :=
  clearStatsAt s 0x2A10 8 1 0x11

/-- ARBITER_STATISTICS_CLEAR (R274): 0x01 written to [2A00.02]. -/
def execArbiterStatisticsClear (via : Via) (s : State) : Host.Outcome State Fault Refusal :=
  .next (served s via 0x2A00 2 [1] (fun _ s => .ok (arbiterClear s)))

end Sys2Proof.Machine
end

