-- ==== Sys2Proof/Machine/Glaze.lean ====
section
/-! DEFINITION. Machine/Glaze.lean: the Glaze engine (R183, R201 to R205): openings, re-keying behind the boundary, its
finishing state; and the re-anchoring of the counter tree (R198). -/

namespace Sys2Proof.Machine

/-- A metadata tile programmed straight to the medium inside a range invalidation (R144). -/
def programMeta (s : State) (t : TileId) (payload : Line) (major minor : Nat) : State :=
  match placeOf s t with
  | some pl => programTile s pl (metaCode s t payload major minor)
  | none => s

/-- Opens the range invalidations of a sealed window's counter tiles and of its nodes up to level `top` (R145, R183). -/
def windowInvalidate (s : State) (a b top : Nat) : State :=
  (List.range top).foldl (fun s i =>
    let l := i + 1
    invalidateRange s 2 (l * 2 ^ 32 + a / 32 ^ l) (l * 2 ^ 32 + (b + 32 ^ l - 1) / 32 ^ l)) (invalidateRange s 1 a b)

/-- Closes them. -/
def windowRelease (s : State) (a b top : Nat) : State :=
  (List.range top).foldl (fun s i =>
    let l := i + 1
    closeInvalidation s 2 (l * 2 ^ 32 + a / 32 ^ l) (l * 2 ^ 32 + (b + 32 ^ l - 1) / 32 ^ l)) (closeInvalidation s 1 a b)

/-- The level-4 node above level-3 node `n`. -/
def upperNode (n : Nat) : TileId :=
  .node 4 (n / 32)

/-- No other range's window has written a level-4 node (R491): it begins with a drawn major (R183). -/
def upperFresh (s : State) (r n : Nat) : Bool :=
  !inWindows s (fun q => q != r) (n / 32 * 32 ^ 4) ((n / 32 + 1) * 32 ^ 4)

/-- The counter a level-3 node is written under: the level-4 entry above it, updated through the Palette (R183, R196). -/
def levelFour (s : State) (n : Nat) : State × Nat × Nat :=
  let up := upperNode n
  let s := if (paletteData s up).isSome then s
    else palPut (afterDraw s) 1 up (some (counterPayload (drawn s 64) [])) false
  parentAdvance s (.node 3 n)

/-- Writes the tiles below level-3 node `n` of a window: nodes with drawn majors and minors 0, counter tiles all zero. -/
def freshNode (s : State) (n : Nat) : State :=
  let up := levelFour s n
  let m3 := drawn up.1 64
  let s := programMeta (afterDraw up.1) (.node 3 n) (counterPayload m3 []) up.2.1 up.2.2
  (List.range 32).foldl (fun s i =>
    let n2 := 32 * n + i
    let m2 := drawn s 64
    let s := programMeta (afterDraw s) (.node 2 n2) (counterPayload m2 []) m3 0
    (List.range 32).foldl (fun s j =>
      let n1 := 32 * n2 + j
      let m1 := drawn s 64
      let s := programMeta (afterDraw s) (.node 1 n1) (counterPayload m1 []) m2 0
      (List.range 32).foldl (fun s k => programMeta s (.counter (32 * n1 + k)) 0 m1 0) s) s) s

/-- Level-3 nodes of a range's sealed window. -/
def windowNodes (s : State) (r : Nat) : List Nat :=
  match windowOf s r with
  | some (a, b) => (List.range (b / 32768 - a / 32768)).map (a / 32768 + ·)
  | none => []

/-- Tiles that must stand in the Palette before a range's window is written: the level-4 nodes it shares with other windows, and
where the entry of one overflows, its other children (R183, R196). -/
def windowNeeds (s : State) (r : Nat) : List TileId :=
  (windowNodes s r).flatMap (fun n =>
    if (paletteData s (upperNode n)).isNone && upperFresh s r n then [] else advanceNeeds s (.node 3 n))

/-- A range's window can be written: what it needs is in the Palette, the comparators are free, and no writeback of a counter tile or
node is in flight (R144, R145). -/
def windowReady (s : State) (r : Nat) : Bool :=
  (windowOf s r).isNone || ((windowNeeds s r).isEmpty && s.palette.comparators.isEmpty
    && s.palette.writes.all (fun w => keyKind (paletteKey w.tile) == 5))

/-- Looks up what a range's window needs. -/
def askWindow (s : State) (r : Nat) : State :=
  (windowNeeds s r).foldl (fun s t => (palLookup s 1 t).1) s

/-- The sealed window of a range as its opening writes it (R183). A level-3 node whose level-4 entry overflows comes first, so that
every other is written under the counters that follow the overflow (R196). -/
def openWindow (s : State) (r : Nat) : State :=
  let full := fun (n : Nat) => (paletteData s (upperNode n)).elim false (fun d => minorOf d (n % 32) == 16383)
  let s' := match windowOf s r with
    | none => s
    | some (a, b) =>
      let ns := windowNodes s r
      windowRelease ((ns.filter full ++ ns.filter (fun n => !full n)).foldl freshNode (windowInvalidate s a b 3)) a b 3
  { s' with crypt := { s'.crypt with glaze := { s'.crypt.glaze with opened := true } } }

/-- The opening's window, before its first line (R183): the state, and whether the window stands written. -/
def openFirst (s : State) (r : Nat) : State × Bool :=
  if s.crypt.glaze.opened then (s, true)
  else if windowReady s r then (openWindow s r, true)
  else (askWindow s r, false)

/-- Writes a line's tile with a zero payload under its range's current key (R47, R183, R189). -/
def openLineTile (program : State → Place → List Byte → State) (s : State) (line : Nat) : State :=
  match linePlace s line with
  | none => s
  | some pl =>
    let isSealed := sealedLine s line
    let v := if isSealed then 0 else drawn s 24
    let code := lineCode s (lineKey s line) line 0 v 0
    program (if isSealed then s else afterDraw s) pl code

/-- The lines of step `k` of range `r` that the range holds. -/
def stepLines (s : State) (r k : Nat) : List Nat :=
  ((List.range 512).map (rangeFirst s r + 512 * k + ·)).filter (fun l =>
    rangeOf s l == r && (locate s.path.layout (l * 64)).isSome)

/-- Bit of a line in the step mask (R202). -/
def maskIndex (s : State) (r line : Nat) : Nat :=
  (line - rangeFirst s r) % 512

/-- Sets step-mask bits. -/
def markLines (s : State) (r : Nat) (lines : List Nat) : State :=
  { s with crypt := { s.crypt with glaze := { s.crypt.glaze with
      mask := lines.foldl (fun m l => m ||| (1#512 <<< maskIndex s r l)) s.crypt.glaze.mask } } }

/-- The line's step-mask bit is set. -/
def markedLine (s : State) (r line : Nat) : Bool :=
  s.crypt.glaze.mask.getLsbD (maskIndex s r line)

/-- Writes every tile of an opening that is not written yet, from the engine's position on. -/
def openRest (s : State) (r : Nat) : State :=
  let gl := s.crypt.glaze
  let s := ((stepLines s r gl.step).filter (fun l => !markedLine s r l)).foldl (openLineTile programTile) s
  (List.range ((rangeSpan s r).2 * 8192 - (gl.step + 1))).foldl (fun s i =>
    (stepLines s r (gl.step + 1 + i)).foldl (openLineTile programTile) s) s

/-- Seconds since the engine's operation began. -/
def operationTime (s : State) : List Byte :=
  satBytes 4 ((s.sys.time - s.crypt.glaze.began) / 64000000000)

/-- OPENING_COMPLETE (R183): the last tile of the opening is programmed; the range is Open. -/
def execOpeningComplete (s : State) : Host.Outcome State Fault Refusal :=
  let gl := s.crypt.glaze
  match gl.range with
  | none => .next s
  | some r =>
    if gl.kind = 1 ∧ gl.state = 1 ∧ s.sys.memoryActive ∧ ephemeralState s = false then
      let w := openFirst s r
      if w.2 = false then .next w.1
      else
      let s := modRange (openRest w.1 r) r (fun x => { x with state := 2 })
      let x := rangeRec s r
      let s := raise s 0x270A (leBytes 1 r ++ leBytes 4 x.generation ++ leBytes 1 x.source)
      let s := raise s 0x2782 (leBytes 1 r ++ leBytes 1 1 ++ operationTime s)
      .next (keyStoreUpdate (engineIdle (bump s 0x2780 0x0A 1)))
    else .next s

/-- The finishing state (R205): every dirty Easel line of the range is selected for destage. -/
def beginFinishing (s : State) (r : Nat) : State :=
  let ps := (dirtyPlaces s (fun _ => true)).filter (fun p => rangeOf s (placeLine s p) == r)
  let more := (rangePlaces s r).filter (fun p => (easelLine s p).dirty && !ps.contains p)
  let s := { s with crypt := { s.crypt with glaze := { s.crypt.glaze with
    state := 4, finishing := ps.map (fun p => (p, false)) ++ more.map (fun p => (p, true)) } } }
  ps.foldl (fun s p => destageSelect s 4 0 p) s

/-- GLAZE_STEP_END (R205): every line of the step has its bit set: the boundary moves on, the mask clears, and every group
the range covers takes a GlazeBoundary record. Without room for those the step stays (R27). -/
def stepEnd (s : State) (r : Nat) : State :=
  let gl := s.crypt.glaze
  let room := gl.kind == 1 || (rangeGroups s r).all (fun g => journalRoom s g 1)
  if (stepLines s r gl.step).all (markedLine s r) ∧ gl.units = [] ∧ room then
    let next := nextStep s r (gl.step + 1)
    let step := next.getD (gl.step + 1)
    let s := { s with crypt := { s.crypt with glaze := { gl with step := step, mask := 0 } } }
    if gl.kind = 1 then s
    else
      let s := (rangeGroups s r).foldl (fun s g => jqPush s g (glazeUnits 0 r step)) s
      if next.isNone then beginFinishing s r else s
  else s

/-- GLAZE_START (R201). -/
def glazeStart (s : State) : Except Nat State :=
  let r := settingN s 0x2780 1
  if ephemeralState s then .error 0x270B
  else if s.crypt.glaze.range.isSome || (rangeRec s r).closing then .error 0x2781
  else if (rangeRec s r).state ≠ 2 then .error 0x2782
  else
    let s :=
      if (rangeRec s r).next = [] then
        let k := drawKey s
        modRange k.2 r (fun x => { x with next := k.1, nextInstalled := false, generation := x.generation + 1 })
      else s
    let s := engineStart (modRange s r (fun x => { x with state := 3 })) r 2
    let s := raise (keyStoreUpdate s) 0x2781 (leBytes 1 r ++ leBytes 4 (rangeRec s r).generation)
    .ok (if (nextStep s r 0).isNone then beginFinishing s r else s)

/-- GLAZE_START. -/
def execGlazeStart (via : Via) (s : State) : Host.Outcome State Fault Refusal :=
  .next (served s via 0x2780 2 [1] (fun _ s => glazeStart s))

/-- GLAZE_PAUSE (R201). -/
def glazePause (s : State) : Except Nat State :=
  let gl := s.crypt.glaze
  if ephemeralState s then .error 0x270B
  else if gl.state = 1 ∨ gl.state = 2 then .ok { s with crypt := { s.crypt with glaze := { gl with state := 3 } } }
  else .error 0x2783

/-- GLAZE_PAUSE. -/
def execGlazePause (via : Via) (s : State) : Host.Outcome State Fault Refusal :=
  .next (served s via 0x2780 2 [2] (fun _ s => glazePause s))

/-- GLAZE_RESUME (R201). -/
def glazeResume (s : State) : Except Nat State :=
  let gl := s.crypt.glaze
  if ephemeralState s then .error 0x270B
  else if gl.state = 3 then .ok { s with crypt := { s.crypt with glaze := { gl with state := gl.kind } } }
  else .error 0x2783

/-- GLAZE_RESUME. -/
def execGlazeResume (via : Via) (s : State) : Host.Outcome State Fault Refusal :=
  .next (served s via 0x2780 2 [3] (fun _ s => glazeResume s))

/-- Puts a unit into flight with its tiles booked (R203). -/
def launchUnit (s : State) (line count : Nat) (codes : List (Nat × List Byte)) (plain : List (Nat × Line)) : State :=
  let u : GlazeUnit :=
    { lane := lineGroup s line, line := line, count := count, codes := codes, plain := plain, booked := codes.length }
  let s := deviceBook s codes.length
  { s with crypt := { s.crypt with glaze := { s.crypt.glaze with units := s.crypt.glaze.units ++ [u] } } }

/-- The plaintexts of lines read. -/
def plainOf (lines : List (Nat × Option Line × Nat)) : List (Nat × Line) :=
  lines.filterMap (fun e => e.2.1.map (fun d => (e.1, d)))

/-- A unit of an unsealed range: one line (R203). -/
def glazeLine (s : State) (r line : Nat) (errs : List (List Codeword)) : State :=
  if lineDirty s line then
    stepEnd (bump (markLines s r [line]) 0x2780 8 1) r
  else if deviceRoom s 1 then
    let d := readLines 5 [line] errs { state := s, lines := [], whole := true }
    let key := (rangeRec d.state r).next
    let codes := d.lines.map (fun e =>
      let v := (e.2.2 + 1) % 2 ^ 24
      (e.1, match e.2.1 with
        | some data => lineCode d.state key e.1 0 v data
        | none => poisonCode d.state (.host e.1) v))
    if codes = [] then d.state else launchUnit d.state line 1 codes (plainOf d.lines)
  else s

/-- A unit of a sealed range: one page of 32 lines (R203). -/
def glazePage (s : State) (r line : Nat) (errs : List (List Codeword)) : State :=
  let c := counterIndex s line
  let lines := pageLines s c
  match paletteData s (.counter c) with
  | none => (palLookup s 1 (.counter c)).1
  | some payload =>
    if (pageJob s c).isSome || !deviceRoom s 32 then s
    else
      let d := readLines 5 lines errs { state := s, lines := [], whole := true }
      if d.whole then
        let s := d.state
        let skipped := lines.filter (lineDirty s)
        let m := majorOf payload + 1
        let v := counterVersion m 0
        let key := (rangeRec s r).next
        let codes := d.lines.map (fun e => (e.1, match e.2.1 with
          | some data => lineCode s key e.1 m v data
          | none => poisonCode s (.host e.1) v))
        launchUnit (bump (markLines s r skipped) 0x2780 8 skipped.length) (lines.headD line) 32 codes (plainOf d.lines)
      else d.state

/-- GLAZE_UNIT (R203): the unit that holds line `index` of the step. A line whose bit is set, one in a unit in flight, and one
whose destage runs wait; while the budget is zero re-keying pauses (R199). In an opening the line's tile is written. `errs`
gives the error patterns of each line's reads. -/
def execGlazeUnit (index : Fin 512) (errs : List (List Codeword)) (s : State) : Host.Outcome State Fault Refusal :=
  let gl := s.crypt.glaze
  match gl.range with
  | none => .next s
  | some r =>
    let line := rangeFirst s r + 512 * gl.step + index.val
    let mine := (stepLines s r gl.step).contains line && !markedLine s r line
    if s.sys.memoryActive = false ∨ s.sys.dev ≠ .active ∨ ephemeralState s
        ∨ groupCool s (lineGroup s line) = false ∨ groupAwake s (lineGroup s line) = false then .next s
    else if mine = false then .next (if gl.kind = 2 ∧ gl.state = 2 then stepEnd s r else s)
    else if gl.kind = 1 ∧ gl.state = 1 then
      let w := openFirst s r
      if w.2 = false then .next w.1
      else if linesReady w.1 [line] = false then .next (askLines w.1 1 [line])
      else
      let s := markLines (openLineTile engineProgram w.1 line) r [line]
      .next (if (nextStep s r (gl.step + 1)).isSome then stepEnd s r else s)
    else if gl.kind = 2 ∧ gl.state = 2 ∧ 0 < s.reserve.budget then
      let lines := if sealedLine s line then pageLines s (counterIndex s line) else [line]
      if unitHolds s line ∨ lines.any (stepHolds s) ∨ pageInFlight s lines then .next s
      else if linesReady s lines = false then .next (askLines s 1 lines)
      else if sealedLine s line then .next (glazePage s r line errs)
      else .next (glazeLine s r line errs)
    else .next s

/-- A unit can commit: its lines' places can be reached, and its counter tile is in the Palette (R203). -/
def commitReady (s : State) (u : GlazeUnit) : Bool :=
  linesReady s (u.codes.map (·.1)) && (!sealedLine s u.line || (paletteData s (.counter (counterIndex s u.line))).isSome)

/-- Looks up what a unit's commit needs. -/
def askCommit (s : State) (u : GlazeUnit) : State :=
  let s := askLines s 1 (u.codes.map (·.1))
  if sealedLine s u.line then (palLookup s 1 (.counter (counterIndex s u.line))).1 else s

/-- GLAZE_UNIT_COMMIT (R203, R204): the programs of the unit that begins at `line` are complete. -/
def execGlazeUnitCommit (line : LineAddr) (s : State) : Host.Outcome State Fault Refusal :=
  let gl := s.crypt.glaze
  match gl.range, gl.units.find? (fun u => u.line == line.toNat) with
  | some r, some u =>
    if commitReady s u = false then .next (askCommit s u)
    else
    let c := counterIndex s u.line
    let isSealed := sealedLine s u.line
    let major := ((paletteData s (.counter c)).map majorOf).getD 0
    let s := programLines s u.codes
    let bad := (u.codes.filter (fun e => !u.plain.any (fun p => p.1 == e.1))).length
    let s := bumpCodec s u.lane 0x0D bad
    let s := markLines s r ((List.range u.count).map (u.line + ·))
    let s := if isSealed then palPut s 1 (.counter c) (some (counterPayload (major + 1) [])) false else s
    let s := deviceFree (bump s 0x2780 7 u.codes.length) u.booked
    let s := { s with crypt := { s.crypt with glaze := { s.crypt.glaze with
      units := s.crypt.glaze.units.filter (fun v => v.line != u.line) } } }
    .next (stepEnd s r)
  | _, _ => .next s

/-- GLAZE_FINISH (R205): every line that was dirty has completed a destage begun after the selection: the old key is
discarded from both copies of the key store, the new key is current and the range Open. -/
def execGlazeFinish (s : State) : Host.Outcome State Fault Refusal :=
  let gl := s.crypt.glaze
  match gl.range with
  | none => .next s
  | some r =>
    if gl.kind = 2 ∧ gl.state = 4 then
      let left := gl.finishing.filter (fun e => (easelLine s e.1).dirty && rangeOf s (placeLine s e.1) == r)
      if left = [] then
        if (rangeGroups s r).any (fun g => !journalRoom s g 1) then .next s
        else
        let s := (rangeGroups s r).foldl (fun s g => jqPush s g (glazeUnits 3 r gl.step)) s
        let s := modRange s r (fun x =>
          { x with current := x.next, next := [], source := bnat x.nextInstalled, nextInstalled := false, fna := false,
                   state := 2 })
        let s := raise (bump s 0x2780 0x0A 1) 0x2782 (leBytes 1 r ++ leBytes 1 2 ++ operationTime s)
        .next (keyStoreUpdate (keyStoreUpdate (engineIdle s)))
      else .next (left.foldl (fun s e =>
        let x := easelLine s e.1
        if x.queued || x.flight then s else destageSelect s 4 0 e.1) s)
    else .next s

/-- The effect of the Glaze statistics clear (R208). -/
def glazeClear (s : State) : State :=
  clearStats s 0x2780 7 4

/-- GLAZE_STATISTICS_CLEAR (R208). -/
def execGlazeStatisticsClear (via : Via) (s : State) : Host.Outcome State Fault Refusal :=
  .next (served s via 0x2780 0x0B [1] (fun _ s => .ok (glazeClear s)))

/-- Rewrites a counter tile under a new level-1 node with the payload it holds in the medium (R198 steps 1 and 2), or with that of
`kept`, a dirty Palette line; a tile that cannot be read is noted, its major drawn. -/
def reanchorCounter (kept : Nat → Option Line) (x : State × List Nat) (c major : Nat) : State × List Nat :=
  match kept c with
  | some d => (programMeta x.1 (.counter c) d major 0, x.2)
  | none =>
    let r := readMeta x.1 (.counter c)
    match r.2 with
    | some d => (programMeta r.1 (.counter c) d major 0, x.2)
    | none => (programMeta (afterDraw r.1) (.counter c) (counterPayload (drawn r.1 64) []) major 0, x.2 ++ [c])

/-- The used children of a node, by index. -/
def usedChildren (s : State) (l n : Nat) : List Nat :=
  ((List.range 32).map (32 * n + ·)).filter (fun k => inWindow s (k * 32 ^ (l - 1)) ((k + 1) * 32 ^ (l - 1)))

/-- Rebuilds the subtree of node `n` of level `l` under its parent's counter (R198): new majors, minors 0. -/
def reanchorTree (kept : Nat → Option Line) : Nat → State × List Nat → Nat → Nat → State × List Nat
  | 0, x, c, major => reanchorCounter kept x c major
  | l + 1, x, n, major =>
    let m := drawn x.1 64
    let s := programMeta (afterDraw x.1) (.node (l + 1) n) (counterPayload m []) major 0
    (usedChildren s (l + 1) n).foldl (fun x k => reanchorTree kept l x k m) (s, x.2)

/-- The content of a counter tile that is newer than the medium's: that of a dirty Palette line. -/
def dirtyCounter (s : State) (c : Nat) : Option Line :=
  match paletteFind s (paletteKey (.counter c)) with
  | some w => if (palWay s w).dirty then paletteData s (.counter c) else none
  | none => paletteData s (.counter c)

/-- TREE_REANCHOR (R198 steps 1 to 3): every used counter tile as it stands, then levels 1 to 4 and the root, with new majors, inside
range invalidations of all of them (R145). A counter tile that cannot be read is lost (R148). -/
def reanchorAll (s : State) : State :=
  let m := drawn s 64
  let kept := dirtyCounter s
  let s := { afterDraw s with crypt := { s.crypt with root := counterPayload m [], reanchoring := true } }
  let s := invalidateRange (invalidateRange s 1 0 (2 ^ 25)) 2 (2 ^ 32) (5 * 2 ^ 32)
  let r := (usedChildren s 5 0).foldl (fun x k => reanchorTree kept 4 x k m) (s, [])
  let s := closeInvalidation (closeInvalidation r.1 1 0 (2 ^ 25)) 2 (2 ^ 32) (5 * 2 ^ 32)
  r.2.foldl (fun s c =>
    counterLost s c 0x2501 (leBytes 1 ((rangeOfCounter s c).getD 0) ++ leBytes 6 ((pageLines s c).headD 0 * 64))) s

/-- TREE_REANCHOR (R198). -/
def execTreeReanchor (s : State) : Host.Outcome State Fault Refusal :=
  if s.sys.reanchor.isSome ∧ s.sys.memoryActive ∧ s.crypt.reanchoring = false ∧ s.palette.comparators = []
      ∧ s.palette.writes.all (fun w => keyKind (paletteKey w.tile) == 5) then .next (reanchorAll s)
  else .next s

/-- TREE_REANCHOR_END (R198): the sealed ranges open with their freshness-not-assured marks set. -/
def execTreeReanchorEnd (s : State) : Host.Outcome State Fault Refusal :=
  match s.sys.reanchor with
  | some cause =>
    if s.crypt.reanchoring then
      let s := (List.range 8).foldl (fun s r =>
        if settingB s (0x2710 + r) 3 then modRange s r (fun x =>
          { x with held := s.palette.spanWait.any (fun w => w.range == r), fna := true }) else s) s
      let s := { s with crypt := { s.crypt with reanchoring := false }, sys := { s.sys with reanchor := none } }
      .next (keyStoreUpdate (raise s 0x2706 (leBytes 1 cause)))
    else .next s
  | none => .next s

end Sys2Proof.Machine
end

