-- ==== Sys2Proof/Machine/Rebuild.lean ====
section
/-! DEFINITION. Machine/Rebuild.lean: the rebuild of a stale column, region by region (R467 to R469). -/

namespace Sys2Proof.Machine

/-- Regions with RB set, in ascending order. -/
def rebuildRegions (s : State) (g : Nat) : List Nat :=
  ((groupOf s g).regions.filter (fun e => e.2.rb)).map (·.1)

/-- The group's stale column when its channel is in service (R468). -/
def serviceableStale (s : State) (g : Nat) : Option Nat :=
  match (groupOf s g).stale with
  | some c => if columnLost s g c then none else some c
  | none => none

/-- REBUILD_COMPLETE (R469): no region of the group has RB set. -/
def rebuildCheck (s : State) (g : Nat) : State :=
  match serviceableStale s g with
  | some c =>
    if rebuildRegions s g = [] then
      rebuildDone s g c ((s.sys.time - (groupOf s g).rebuildAt.getD s.sys.time) / 64000000000)
    else s
  | none => s

/-- REBUILD_REGION (R468): after deep reads and urgent regions; [3300.0A] holds the work between regions. -/
def execRebuildRegion (group : Group) (s : State) : Host.Outcome State Fault Refusal :=
  let g := group.val
  let x := groupOf s g
  if engineRuns s g = false ∨ x.rebuild.isSome ∨ x.deepReads ≠ [] ∨ settingB s 0x3300 0x0A
      ∨ (visitedRegions s g).any (urgentRegion s g) then .next s
  else
    match serviceableStale s g with
    | none => .next s
    | some _ =>
      match rebuildRegions s g with
      | [] => .next (rebuildCheck s g)
      | p :: _ => .next (modGroup s g (fun x => { x with
          rebuild := some (p, 0), rebuildAt := some (x.rebuildAt.getD s.sys.time) }))

/-- Programs one column's patch (R468 step 1); a failure remaps it (R74), `fails` spares failing first. -/
def rebuildPatch (s : State) (g p slot c : Nat) (pl : Place) (code : List Byte) (failed : Bool) (fails : Nat) : State :=
  let s := filterMark (storeColumns s g pl.addrs code [c]) g pl.filter.1 pl.filter.2
  if failed ∧ slot ≤ 1048580 then
    let r := remapNow fails s g p slot c (patchOfSymbols code c)
    if r.2 then raise r.1 0x2206 (leBytes 1 g ++ leBytes 1 c ++ leBytes 2 p ++ leBytes 3 slot) else r.1
  else s

/-- Writes a tile on every column in service (R468 step 3), as a write of its region (R71). -/
def rebuildWhole (s : State) (g p slot : Nat) (pl : Place) (code : List Byte) : State :=
  let s := filterMark (storeColumns s g pl.addrs code (liveColumns s g)) g pl.filter.1 pl.filter.2
  if slot ≤ 1048576 then regionWrite s g p else s

/-- Rebuilds the stale column of one tile. -/
def rebuildTile (s : State) (g p slot c : Nat) (t : TileId) (pl : Place) (errs deep : List Codeword) (failed : Bool)
    (fails : Nat) : State :=
  let d := correctedCode s t pl errs
  match d.2.1 with
  | some code => rebuildPatch d.1 g p slot c pl code.1 failed fails
  | none =>
    let s := unreadableEvent d.1 t g d.2.2
    let measured := decide ((driftOf s g p).mv)
    let s := if measured then s else measureRegion s g p deep
    (deepReadWith (fun s code => rebuildWhole s g p slot pl code) s t pl (if measured then deep else deep.drop 36)).1

/-- Rebuilds the stale column of a swatch tile (R468 step 2): the pattern with the epoch most other copies hold. -/
def rebuildSwatch (s : State) (g p slot c : Nat) : State :=
  let k := slot - 1048577
  let others := (List.range 8).filter (fun d => d != c && !columnLost s g d)
  let copies := others.map (fun d => swatchRead s g p k d 0)
  let epoch := (commonest ((copies.filter (fun x => x.getD 9 0 == x.getD 8 0 ^^^ 0xFF)).map
    (fun x => (x.getD 8 0).toNat))).getD (s.path.epoch % 256)
  let e : Byte := BitVec.ofNat 8 epoch
  let bytes := (swatchBytes s k p).take 8 ++ [e, e ^^^ 0xFF] ++ leBytes 2 p
  filterMark (storeColumns s g (slotAddrs s g p slot) ((List.range 96).map (fun i => bytes.getD (i / 8) 0)) [c]) g p slot

/-- REBUILD_SEQUENCE (R468): the next item of the region; after the last one RB clears (R469). `failed` tells that the program
failed, and how many spares fail too. -/
def execRebuildSequence (group : Group) (errs deep : List Codeword) (failed : Option (Fin 8)) (s : State) :
    Host.Outcome State Fault Refusal :=
  let g := group.val
  let fails := failed.elim 0 (·.val)
  match (groupOf s g).rebuild, serviceableStale s g with
  | some (p, slot), some c =>
    let r := regionOf s g p
    let last := if r.hr then 1048597 else 1048581
    let t := if 1048581 ≤ slot then some (TileId.remap g p (slot - 1048581)) else tileAt s g p slot
    let busy : Bool := match t with
      | some t => tileInFlight s t || unitInRegion s t
      | none => false
    if engineRuns s g = false ∨ slotHeld s g p slot ∨ busy ∨ journalRoom s g (1 + fails) = false
        ∨ regionFenced s g p then .next s
    else if slot < 1048581 ∧ remapReady s (placeSlot s g p slot) = false then .next (askRemap s 3 (placeSlot s g p slot))
    else if t.any (fun t => !tileDirty s t && !authReady s t) then .next (t.elim s (askAuth s))
    else
      let s :=
        if 1048577 ≤ slot ∧ slot < 1048581 then rebuildSwatch s g p slot c
        else
          match t with
          | none => s
          | some t =>
            let pl := if 1048581 ≤ slot then placeOf s t else some (placeSlot s g p slot)
            match pl with
            | some pl => rebuildTile s g p slot c t pl errs deep failed.isSome fails
            | none => s
      if slot + 1 < last then .next (modGroup s g (fun x => { x with rebuild := some (p, slot + 1) }))
      else
        let s := modRegion s g p (fun r => { r with rb := false })
        .next (rebuildCheck (modGroup s g (fun x => { x with rebuild := none })) g)
  | _, _ => .next s

end Sys2Proof.Machine
end

