-- ==== Sys2Proof/Machine/Service.lean ====
section
/-! DEFINITION. Machine/Service.lean: the management commands of the stall queues (R332, R335), the Folio store and the Ledger
(R411, R420 to R422) and the performance counters (R456, R458), the time mark (R326) and the hour tallies (R474). -/

namespace Sys2Proof.Machine

/-- QUEUE_FLUSH (R332): 0x01 written to a queue's Flush object; a journal queue refuses it. -/
def execQueueFlush (via : Via) (queue : QueueId) (s : State) : Host.Outcome State Fault Refusal :=
  .next (served s via (queueIdx queue.val) 0x0D [1] (fun _ s => queueFlush s queue.val))

/-- The read of [2D20.01] (R335): the next eight words, filled with idle words (kind 0, R326), and the mark set to the new read
pointer. -/
def tqRead (s : State) : Except Nat (List Byte × State) :=
  if (telemetryChannel s).isSome then .error 0x2D04
  else
    let x := queueOf s 8
    let words := (x.words.drop x.taken).take 8
    let s := takeWords s 8 8
    .ok ((List.range 8).flatMap (fun i => leBytes 8 (match words[i]? with
      | some w => w.data
      | none => 0)), setMark s 8 (queueOf s 8).taken)

/-- TQ_READ (R335). -/
def execTqRead (via : Via) (s : State) : Host.Outcome State Fault Refusal :=
  .next (serveRead s via (plainTag via) 0x2D20 1 (fun _ s => tqRead s))

/-- TIME_MARK (R326): the 64-bit time base in word 1. The queues run with the core PLL. -/
def execTimeMark (s : State) : Host.Outcome State Fault Refusal :=
  .next (if s.sys.corePll then tqPush s 1 0 [nowNs s] else s)

/-- QUEUE_STATISTICS_CLEAR (R335). -/
def execQueueStatisticsClear (via : Via) (s : State) : Host.Outcome State Fault Refusal :=
  .next (served s via 0x2D00 2 [1] (fun _ s => .ok (queueStatisticsClear s)))

/-- USER_DATA_WRITE (R411): the bytes go to the session's user address as one page write. -/
def execUserDataWrite (via : Via) (data : List Byte) (s : State) : Host.Outcome State Fault Refusal :=
  .next (served s via 0x3110 2 data (fun n s => userWrite s (sessionOf s n).userAddress data))

/-- The condition of an hour tally (R474). -/
def hourHolds (s : State) (i : Nat) : Bool :=
  if i = 154 then s.sys.dev != .standby
  else if i = 166 then decide (10 * setting s 0x3010 4 ≤ s.thermal.tDie)
  else if i = 184 then degraded s
  else i == 185 && s.reserve.writeThrough

/-- HOUR_TALLY (R474): 3,600 s accumulated in the always-on domain while the tally's condition holds. -/
def execHourTally (tally : Byte) (s : State) : Host.Outcome State Fault Refusal :=
  .next (if hourHolds s tally.toNat then tallyAdd s tally.toNat else s)

/-- LEDGER_CLEAR (R420): 0x01 written to [3180.08]. -/
def execLedgerClear (via : Via) (s : State) : Host.Outcome State Fault Refusal :=
  .next (served s via 0x3180 8 [1] (fun _ s => ledgerClear s))

/-- The read of [3180.05] (R421): the window from the session's cursor, which moves past the records returned. -/
def windowRead (n : Nat) (s : State) : List Byte × State :=
  let w := ledgerWindow s (sessionOf s n).cursor
  (w.1, modSession (arrayWait s) n (fun x => { x with cursor := w.2 }))

/-- LEDGER_WINDOW_READ (R421). -/
def execLedgerWindowRead (via : Via) (s : State) : Host.Outcome State Fault Refusal :=
  .next (serveRead s via (plainTag via) 0x3180 5 (fun n s => .ok (windowRead n s)))

/-- FOLIO_STATISTICS_CLEAR (R422): 0x01 written to [3100.09]. -/
def execFolioStatisticsClear (via : Via) (s : State) : Host.Outcome State Fault Refusal :=
  .next (served s via 0x3100 9 [1] (fun _ s => .ok (folioClear s)))

/-- RUN_CONTROL (R456): a write to [3200.01] stops or starts all counters. -/
def execRunControl (via : Via) (on : Bool) (s : State) : Host.Outcome State Fault Refusal :=
  .next (served s via 0x3200 1 [if on then 1 else 0] (fun _ s => .ok (runControl s on)))

/-- COUNTER_CLEAR (R456): 0x01 written to [3200.02]. -/
def execCounterClear (via : Via) (s : State) : Host.Outcome State Fault Refusal :=
  .next (served s via 0x3200 2 [1] (fun _ s => .ok (counterClear s)))

/-- WRAP_STICKY_CLEAR (R458): ones written to a block's WrapSticky clear its sticky bits. -/
def execWrapStickyClear (via : Via) (block : Fin 13) (mask : Byte) (s : State) : Host.Outcome State Fault Refusal :=
  .next (served s via (0x3210 + block.val) 0x19 [mask] (fun _ s => .ok (wrapStickyClear s block.val mask.toNat)))

end Sys2Proof.Machine
end

