-- ==== Sys2Proof/Machine/Replay.lean ====
section
/-! DEFINITION. Machine/Replay.lean: step 8 of the start (R361): the replay of every group's journal (R85, R369, R470), the
resolution of a Glaze operation and of pages under re-encryption (R206), and the checkpoints that end it. -/

namespace Sys2Proof.Machine

/-- What the replay of a group's journal has gathered. -/
structure ReplayRec where
  /-- tiles replayed, [2F11] -/
  tiles : Nat := 0
  /-- lowest and highest Glaze boundary the group tells, in steps; none while it tells none -/
  bound : Option (Nat × Nat) := none
  /-- counter indices of pages begun and not ended (R195) -/
  pages : List Nat := []
  /-- columns that had to be erased (R470) -/
  columns : List Nat := []
  deriving DecidableEq, Repr

/-- A step unit (R72, R85). -/
def replayStep (s : State) (g p : Nat) : State :=
  modRegion s g p (fun r =>
    let src := if r.gap = 0 then 1048576 else r.gap - 1
    { r with start := if r.gap = 0 then (r.start + 1) % 1048576 else r.start, gap := src,
             heat := if src % 16 = 0 ∧ r.heat < 255 then r.heat + 1 else r.heat })

/-- A MoveBegin record (R76, R85). A destination that is the region the move before has left makes it the second half of a swap;
else a move that does not retire counts as a march (log entry 37). -/
def replayMoveBegin (s : State) (g : Nat) (retire : Bool) (x d key : Nat) : State :=
  let e := tabGet dEntry (groupOf s g).table x
  let md := (regionOf s g e.phys).md
  let rb := match (groupOf s g).stale with
    | some c => columnLost s g c
    | none => false
  let second := (groupOf s g).free.getLast? == some d
  let s := modRegion s g d (fun r =>
    { r with start := 0, gap := 1048576, count := 0, key := key, heat := 0, owner := x, md := md, sw := true, rt := false,
             fr := false, rb := rb })
  modGroup s g (fun y => { y with
    free := y.free.erase d, table := tabMod dEntry y.table x (fun e => { e with moving := true }),
    move := some { kind := if retire then 4 else if second then 2 else 3, logical := x, src := e.phys, dst := d } })

/-- A MoveEnd record (R76 step 3). -/
def replayMoveEnd (s : State) (g : Nat) : State :=
  match (groupOf s g).move with
  | none => s
  | some m =>
    let s := modGroup s g (fun y => { y with
      move := none, swatchDue := y.swatchDue ++ [m.dst],
      table := tabMod dEntry y.table m.logical (fun e => { e with moving := false, phys := m.dst }) })
    let s := modRegion s g m.dst (fun r => { r with count := 0, sw := false })
    if m.kind = 4 then modRegion s g m.src (fun r => { r with count := 0, rt := true, owner := 0 })
    else
      modGroup (modRegion s g m.src (fun r => { r with count := 0, fr := true, owner := 0, rb := false })) g
        (fun y => { y with free := y.free ++ [m.src] })

/-- A Remap record (R83, R85): the channel's next spare; the slot field 0x1F_FFFF installs no entry. -/
def replayRemap (s : State) (g c p slot : Nat) : State :=
  let n := sparesOf s g c
  let s := modGroup s g (fun x => { x with spares := tabSet dNat x.spares c (n + 1) })
  if slot = 0x1FFFFF then s
  else
    let t : TileId := .remap g p (slot % 16)
    let r := heldOrRead s t
    let s := palPut r.1 2 t (some (lineOf (remapWith (lineBytes (r.2.getD 0)) slot c n))) false
    modRegion s g p (fun r => { r with hr := true })

/-- A JournalRegion record (R78, R85, R367): the region leaves the free list, and the oldest of four journal regions enters it. -/
def replayRegion (s : State) (g p : Nat) : State :=
  let old := if 4 ≤ (groupOf s g).journals.length then (groupOf s g).journals.drop 3 else []
  let s := old.foldl (fun s q => modRegion s g q (fun r => { r with rb := false, fr := true, owner := 0 })) s
  let s := modRegion s g p (fun r => { r with rb := false, fr := true, owner := 0x7FFF })
  modGroup s g (fun x => { x with
    free := (x.free ++ old).erase p, journals := p :: x.journals.take (if old = [] then 4 else 3), journalSlot := 0 })

/-- A GlazeBoundary record (R205, R206). An operation that ended leaves its whole range to be resolved (log entry 38). -/
def replayGlaze (s : State) (note : ReplayRec) (form range index : Nat) : ReplayRec :=
  if form = 1 then { note with pages := note.pages ++ [index] }
  else if form = 2 then { note with pages := note.pages.filter (· != index) }
  else if s.crypt.glaze.range = some range then
    { note with bound := some (if form = 3 then (nextStep s range 0).getD 0 else index, index) }
  else note

/-- Applies one record to a group (R85). -/
def replayRecord (g : Nat) (x : State × ReplayRec) (units : List Nat) : State × ReplayRec :=
  let s := x.1
  let u := units.headD 0
  let typ := u / 2 ^ 11
  let data := u % 256
  let a := units.getD 1 0
  let b := units.getD 2 0
  if 32768 ≤ u then (replayStep s g (u - 32768), x.2)
  else if typ = 1 then (replayMoveBegin s g (bitOf data 0) a b (units.getD 3 0), x.2)
  else if typ = 2 then
    (modGroup s g (fun y => { y with move := y.move.map (fun m => { m with pointer := 64 * b }) }), x.2)
  else if typ = 3 then (replayMoveEnd s g, x.2)
  else if typ = 4 then (replayRemap s g (data % 8) a (b + 65536 * (units.getD 3 0 % 32)), x.2)
  else if typ = 5 then (replayRegion s g a, x.2)
  else if typ = 7 then
    (s, replayGlaze s x.2 (data / 64) (data % 8) (a + 65536 * (if data / 64 = 1 ∨ data / 64 = 2 then b % 512 else b)))
  else if typ = 8 then
    (modGroup s g (fun y => { y with pass := if bitOf data 0 then none else some { region := a, offset := 64 * b } }), x.2)
  else if typ = 9 then (markRebuilding (modGroup s g (fun y => { y with stale := some (data % 8) })) g, x.2)
  else x

/-- The records of a journal tile that replay has found (R85): its columns are noted, its units carried out. -/
def replayUnits (g : Nat) (x : State × ReplayRec) (content : List Byte) (c : Option Nat) : State × ReplayRec :=
  let s := modGroup x.1 g (fun y => { y with journalSeq := y.journalSeq + 1, journalSlot := y.journalSlot + 1 })
  let units := (List.range 28).map (fun k => numAt content (8 + 2 * k) 2)
  let note := { x.2 with tiles := x.2.tiles + 1, columns := x.2.columns ++ c.toList }
  (splitRecords 28 units).foldl (replayRecord g) (s, note)

/-- The journal of a group from its current slot on (R369): at most `fuel` tiles. -/
def replayTiles (errs : List TileDisturb) (g : Nat) : Nat → State × ReplayRec → State × ReplayRec
  | 0, x => x
  | fuel + 1, x =>
    let y := groupOf x.1 g
    let r := searchTile errs x.1 (.journal g y.journalSeq) g (regionBase x.1 g (y.journals.headD 0) + y.journalSlot)
    let found := (r.2.getD ([], none))
    if 1048576 ≤ y.journalSlot then x
    else if r.2.isNone ∨ numAt found.1 0 8 ≠ y.journalSeq then (r.1, x.2)
    else replayTiles errs g fuel (replayUnits g (r.1, x.2) found.1 found.2)

/-- The Glaze step the engine tile of the loaded generation records (R366). -/
def anchorStep (errs : List TileDisturb) (s : State) (g : Nat) : Option Nat :=
  let a := anchorBase (groupOf s g).generation + 8130
  match (searchTile errs s (.anchor g a) g a).2 with
  | some (content, _) => if numAt content 36 4 = 0xFFFFFFFF then none else some (numAt content 36 4)
  | none => none

/-- A column that the journal shows to be stale (R470): the second of a group fences it. -/
def journalColumns (s : State) (g : Nat) (found : List Nat) : State :=
  let lost := lostColumns s g
  match (found.filter (fun c => !lost.contains c)).eraseDups with
  | [] => s
  | [c] =>
    if (groupOf s g).stale = some c then s
    else if lost ≠ [] ∨ (groupOf s g).stale.isSome then fenceGroup s g
    else
      let s := raise (modGroup s g (fun x => { x with stale := some c })) 0x2902 (leBytes 1 (8 * g + c))
      markRebuilding (tallyAdd s 161) g
  | _ => fenceGroup s g

/-- Replays the journal of a group. -/
def replayGroup (errs : List TileDisturb) (x : State × List (Nat × ReplayRec)) (g : Nat) : State × List (Nat × ReplayRec) :=
  let r := replayTiles errs g 40000000 (x.1, { bound := (anchorStep errs x.1 g).map (fun b => (b, b)) })
  (setStat (journalColumns r.1 g r.2.columns) 0x2F11 (g + 1) (r.2.tiles : Nat), x.2 ++ [(g, r.2)])

/-- A host line that step 8 has resolved (R206): its plaintext, none of a poison tile, whether it verified under the old key and
whether under the raised counter. -/
structure ResolvedLine where
  line : Nat
  data : Option Line
  version : Nat
  old : Bool
  raised : Bool
  deriving DecidableEq, Repr

/-- The first of several keys and counters that a line's content verifies under. -/
def tryKeys (s : State) (line : Nat) (content : List Byte) (pairing : Bool) :
    List (List Byte × Nat × Nat × Bool × Bool) → Option ResolvedLine
  | [] => none
  | (key, major, minor, old, raised) :: rest =>
    match openLine s key line major content with
    | some d =>
      if !pairing || versionOf content == counterVersion major minor then
        some { line := line, data := some d, version := versionOf content, old := old, raised := raised }
      else tryKeys s line content pairing rest
    | none => tryKeys s line content pairing rest

/-- A line that verifies under no key and counter is lost to a poison tile (R200). -/
def resolveLost (s : State) (line : Nat) : State :=
  let s := poisonPermanent (writePoisonTile (bump s 0x2700 7 1) line 0) line
  raise (mediaEvent s 1 line) 0x2701 (leBytes 6 (line * 64) ++ leBytes 1 (rangeOf s line) ++ leBytes 1 5)

/-- A line whose tile cannot be read: it stands for a poison tile (R51 step 5); no deep read runs in Priming. -/
def resolveUnreadable (s : State) (line g retries : Nat) : State :=
  let s := unreadableEvent s (.host line) g retries
  poisonPermanent (writePoisonTile s line 0) line

/-- Reads a line and resolves it among keys and counters; a tile that cannot be read or verifies under none is lost. -/
def resolveLine (errs : List TileDisturb) (x : State × List ResolvedLine) (line : Nat)
    (keys : List (List Byte × Nat × Nat × Bool × Bool)) : State × List ResolvedLine :=
  match linePlace x.1 line with
  | none => x
  | some pl =>
    let d := engineRead x.1 (.host line) pl (disturbsAt errs pl.group (pl.addrs.headD 0))
    match d.2.1 with
    | .good content _ =>
      match tryKeys d.1 line content (sealedLine d.1 line) keys with
      | some r => (d.1, x.2 ++ [r])
      | none => (resolveLost d.1 line, x.2)
    | .poison _ _ => (d.1, x.2 ++ [{ line := line, data := none, version := 0, old := false, raised := false }])
    | _ => (resolveUnreadable d.1 line pl.group d.2.2, x.2)

/-- Rewrites a resolved line under a key and a counter. -/
def rewriteLine (s : State) (key : List Byte) (major version : Nat) (r : ResolvedLine) : State :=
  match linePlace s r.line, r.data with
  | some pl, some d => programTile s pl (lineCode s key r.line major version d)
  | some pl, none => programTile s pl (poisonCode s (.host r.line) version)
  | none, _ => s

/-- A line of an unsealed range in the uncertain zone (R206): a line that verifies under the old key is rewritten under the new
one. -/
def resolveOpen (errs : List TileDisturb) (r : Nat) (s : State) (line : Nat) : State :=
  let k := rangeRec s r
  let x := resolveLine errs (s, []) line [(k.current, 0, 0, true, false), (k.next, 0, 0, false, false)]
  x.2.foldl (fun s v => if v.old then rewriteLine s k.next 0 ((v.version + 1) % 2 ^ 24) v else s) x.1

/-- A page of a sealed range (R195, R206): its lines verify under the key `old` or `new` and either of the two counters. A page of
which any line has moved on, or stands under the old key, is rewritten whole under the new key and the raised counter. -/
def resolvePage (errs : List TileDisturb) (old new : List Byte) (s : State) (c : Nat) : State :=
  let p := heldOrRead s (.counter c)
  match p.2 with
  | none => p.1
  | some payload =>
    let m := majorOf payload
    let x := (pageLines p.1 c).foldl (fun x line =>
      let j := line % 32
      resolveLine errs x line
        [(old, m, minorOf payload j, decide (new ≠ old), false), (new, m, minorOf payload j, false, false),
         (new, m + 1, 0, false, true), (old, m + 1, 0, decide (new ≠ old), true)]) (p.1, [])
    if x.2.any (fun v => v.old || v.raised) then
      let s := x.2.foldl (fun s v => rewriteLine s new (m + 1) (counterVersion (m + 1) 0) v) x.1
      palPut s 1 (.counter c) (some (counterPayload (m + 1) [])) false
    else x.1

/-- Resolution under the view of a device in service, whose keys are the ranges' own (R207). -/
def underRangeKeys (s : State) (f : State → State) : State :=
  let t := f { s with sys := { s.sys with dev := .active } }
  { t with sys := { t.sys with dev := s.sys.dev } }

/-- The uncertain zone of a re-keying in progress (R206): its range, and the steps from the lowest boundary to the highest; the zone
runs to one step beyond the highest. -/
def zoneOf (s : State) (recs : List (Nat × ReplayRec)) : Option (Nat × Nat × Nat) :=
  match s.crypt.glaze.range with
  | none => none
  | some r =>
    if s.crypt.glaze.kind ≠ 2 then none
    else
      let first := (nextStep s r 0).getD 0
      let bounds := (rangeGroups s r).map (fun g =>
        match recs.find? (fun x => x.1 == g) with
        | some x => x.2.bound.getD (first, first)
        | none => (first, first))
      some (r, bounds.foldl (fun n b => min n b.1) ((bounds.headD (first, first)).1), bounds.foldl (fun n b => max n b.2) first)

/-- Resolves the Glaze operation that was in progress (R206): the lines from the lowest boundary to one step beyond the highest,
then the operation stands one step further. -/
def resolveZone (errs : List TileDisturb) (s : State) (r lo hi : Nat) : State :=
  let lines := (List.range (hi + 1 - lo)).flatMap (fun i => stepLines s r (lo + i))
  let k := rangeRec s r
  let s := underRangeKeys s (fun s =>
    if settingB s (0x2710 + r) 3 then ((lines.map (counterIndex s)).eraseDups).foldl (resolvePage errs k.current k.next) s
    else lines.foldl (resolveOpen errs r) s)
  let next := nextStep s r (hi + 1)
  let s := { s with crypt := { s.crypt with glaze := { s.crypt.glaze with
    step := next.getD (hi + 1), mask := 0, units := [], finishing := [], state := 2, began := s.sys.time } } }
  let s := if next.isNone then beginFinishing s r else s
  raise s 0x2783 (leBytes 1 r ++ leBytes 6 ((rangeFirst s r + 512 * lo) * 64) ++ satBytes 4 lines.length)

/-- The key under which a page of range `r` outside the uncertain zone stands: the new one before it, the old one beyond it; none of a
page inside it. -/
def pageKey (s : State) (zone : Option (Nat × Nat × Nat)) (r line : Nat) : Option (List Byte) :=
  let k := rangeRec s r
  match zone with
  | some (q, lo, hi) =>
    if q ≠ r then some k.current
    else if stepOf s r line < lo then some k.next
    else if hi < stepOf s r line then some k.current
    else none
  | none => some k.current

/-- Resolves the pages begun and not ended that lie outside the uncertain zone (R206). -/
def resolvePages (errs : List TileDisturb) (s : State) (zone : Option (Nat × Nat × Nat)) (recs : List (Nat × ReplayRec)) :
    State :=
  underRangeKeys s (fun s => (recs.flatMap (fun x => x.2.pages)).foldl (fun s c =>
    match rangeOfCounter s c with
    | some r =>
      match pageKey s zone r ((pageLines s c).headD 0) with
      | some key => resolvePage errs key key s c
      | none => s
    | none => s) s)

/-- Resolves Glaze state and pages under re-encryption (R206, R369 step 5). -/
def resolveGlaze (errs : List TileDisturb) (s : State) (recs : List (Nat × ReplayRec)) : State :=
  let zone := zoneOf s recs
  let s := resolvePages errs s zone recs
  match zone with
  | some (r, lo, hi) => resolveZone errs s r lo hi
  | none => s

/-- JOURNAL_REPLAY (R361 step 8, R369): with region state loaded, every group not fenced replays its journal, Glaze state is
resolved, and a checkpoint begins. -/
def execJournalReplay (errs : List TileDisturb) (s : State) : Host.Outcome State Fault Refusal :=
  if s.sys.dev = .priming ∧ s.sys.step = 8 ∧ s.power.stopStep = none ∧ s.sys.coreLost = false then
    if s.sys.anchorsLoaded then
      let live := (List.range 8).filter (fun g => !(groupOf s g).fenced)
      let old := live.filter (fun g => 0 < (groupOf s g).generation)
      let d := old.foldl (replayGroup errs) (s, [])
      let s := resolveGlaze errs d.1 d.2
      let s := (live.filter (fun g => !(groupOf s g).fenced)).foldl (fun s g => startCheckpoint s g false) s
      .next (beginStep s 9)
    else .next (beginStep s 9)
  else .next s

end Sys2Proof.Machine
end

