-- ==== Sys2Proof/Machine/Start.lean ====
section
/-! DEFINITION. Machine/Start.lean: step 9 of the start and the self-test (R370, R380), and Memory Active with the state it leads
to (R21, R363, R364, R376, R379). -/

namespace Sys2Proof.Machine

/-- The 64 tiles that a group's path test leaves in a region of its free list (R370): the spec gives no content, so each patch is
a free value (log entry 4). -/
def pathTestTile (g p : Nat) (s : State) (slot : Nat) : State :=
  let cols := (List.range 8).filter (fun c => !(erasedColumns s g (some (p, slot))).contains c)
  let addr := regionBase s g p + slot
  let s := cols.foldl (fun s c =>
    let s := bump (storePatch s (8 * g + c) addr (Config.freePatch s.path.frees)) 0x2916 (8 * g + c + 1) 1
    { s with path := { s.path with frees := s.path.frees + 1 } }) s
  filterMark (countProgram s g) g p slot

/-- A group that the path test takes: not fenced, with a free region (R370). -/
def pathTested (s : State) (g : Nat) : Bool :=
  !(groupOf s g).fenced && !(groupOf s g).free.isEmpty

/-- The self-test (R370): `results` names the tests that failed; the bit of a group it skips stays clear. A group whose path test
fails is fenced where `fencing` tells so. -/
def selfTest (s : State) (results : Nat) (fencing : Bool) : State :=
  let groups := (List.range 8).filter (pathTested s)
  let s := groups.foldl (fun s g =>
    (List.range 64).foldl (pathTestTile g ((groupOf s g).free.getLastD 0)) s) s
  let word := results % 128 + groups.foldl (fun n g => n + 2 ^ (8 + g) * bnat (bitOf results (8 + g))) 0
  let s := { s with sys := { s.sys with selfTest := word } }
  let s := if word = 0 then s else raise s 0x2F08 (leBytes 2 word)
  if fencing then (groups.filter (fun g => bitOf word (8 + g))).foldl fenceGroup s else s

/-- SELF_TEST (R361 step 9, R370): a failure of bits 0 to 6 makes the start a failed one. -/
def execSelfTest (results : BitVec 16) (s : State) : Host.Outcome State Fault Refusal :=
  if s.sys.dev = .priming ∧ s.sys.step = 9 ∧ s.power.stopStep = none ∧ s.sys.coreLost = false then
    let s := selfTest s results.toNat true
    if s.sys.selfTest % 128 = 0 then .next (beginStep s 10) else .next (failedStart s)
  else .next s

/-- The effect of SELF_TEST_REQUEST (R380). -/
def selfTestRequest (s : State) (results : Nat) : Except Nat State :=
  if s.sys.dev = .test then .ok (selfTest s results false) else .error 0x2F03

/-- SELF_TEST_REQUEST (R380): 0x01 written to [2F00.05]. -/
def execSelfTestRequest (via : Via) (results : BitVec 16) (s : State) : Host.Outcome State Fault Refusal :=
  .next (served s via 0x2F00 5 [1] (fun _ s => selfTestRequest s results.toNat))

/-- No scratch patch of `n` units of 256 MiB lies at or below a channel's spare pointer (R379). -/
def scratchFits (s : State) (n : Nat) : Bool :=
  n == 0 || (List.range 64).all (fun ch =>
    decide (spareBase s (ch / 8) + sparesOf s (ch / 8) (ch % 8) < poolEnd s (ch / 8) + 1 - 2 ^ 25))

/-- The scratch size of Recovery and Test in units of 256 MiB (R379). -/
def scratchUnits (s : State) : Nat :=
  (((List.range 65).reverse).find? (scratchFits s)).getD 0

/-- The state that the start leads to (R21, R379, R380): 0 none for Active, else the cause of Recovery; Test stands apart. -/
def recoveryOf (s : State) : Nat :=
  if s.sys.recoveryCause ≠ 0 then s.sys.recoveryCause else if s.sys.runMode = 2 then 1 else 0

/-- Columns that the last steps of the start have lost are stale from here on (R466). -/
def lateLosses (s : State) : State :=
  if s.sys.anchorsLoaded then
    ((List.range 8).filter (fun g => !(groupOf s g).fenced)).foldl (fun s g =>
      match (lostColumns s g).filter (fun c => (groupOf s g).stale != some c) with
      | [] => s
      | c :: _ => staleColumn s g c) s
  else s

/-- The openings and the re-anchoring that an Active run takes up after Memory Active (R183, R198, R206). -/
def takeUpRanges (s : State) : State :=
  let opening := (List.range 8).filter (fun r => (rangeRec s r).state == 1)
  let gl := s.crypt.glaze
  let s :=
    if gl.range.isSome ∧ gl.kind = 2 then { s with crypt := { s.crypt with glaze := { gl with queue := opening } } }
    else engineIdle { s with crypt := { s.crypt with glaze := { queue := opening } } }
  if s.sys.reanchor.isSome then
    (List.range 8).foldl (fun s r =>
      if settingB s (0x2710 + r) 3 then modRange s r (fun x => { x with held := true }) else s) s
  else s

/-- Enters the state of the run at Memory Active (R21, R207, R379, R380). -/
def enterRun (s : State) : State :=
  if recoveryOf s ≠ 0 then
    let s := enterState { s with sys := { s.sys with scratchSize := scratchUnits s } } .recovery
    raise s 0x2F06 (leBytes 1 (recoveryOf s))
  else if s.sys.runMode = 1 then
    raise (enterState { s with sys := { s.sys with scratchSize := scratchUnits s } } .test) 0x2F07 []
  else takeUpRanges (tallyAdd (enterState { s with crypt := { s.crypt with ephemeral := [] } } .active) 155)

/-- MEMORY_ACTIVE (R361, R363, R344, R359, R364, R376): the run begins in its state, PFW_N is released, the open record is
queued, and a restart latched in Priming follows. -/
def execMemoryActive (s : State) : Host.Outcome State Fault Refusal :=
  if s.sys.dev = .priming ∧ s.sys.step = 10 ∧ s.power.stopStep = none ∧ s.sys.coreLost = false then
    let s := { s with
      power := { s.power with pfwLow := false, failedStarts := 0 },
      sys := { s.sys with
        memoryActive := true, step := 0, lastStartTime := (s.sys.time - s.sys.primedAt) / 64000 % 2 ^ 32 } }
    let s := lateLosses (enterRun s)
    let s := folioQueue s 2 .openRecord (openRecordPages s)
    .next (if s.sys.restartLatched then enterWarn s 5 else s)
  else .next s

end Sys2Proof.Machine
end

