-- ==== Sys2Proof/Machine/Read.lean ====
section
/-! DEFINITION. Machine/Read.lean: the value of every object that can be read (R423, R424, R447), taken from the state in one
core cycle. An object with no place of its own reads as a setting or a statistic. -/

namespace Sys2Proof.Machine

/-- A number in the width of an object's type, least significant byte first (R423). -/
def typeBytes (t : ObjType) (v : Int) : List Byte :=
  leBytes t.width (toUnsigned t.width v)

/-- [2012] SessionInfo of session `n` (R446). -/
def sessionInfo (s : State) (n : Nat) : Nat :=
  let x := sessionOf s n
  match x.client with
  | none => 0xFF000000
  | some via => pathOf via * 2 ^ 24 + levelNum x.level * 2 ^ 16 + x.staged.length * 2 ^ 8 + clientByte via

/-- The object key of a session's selected staged entry, 0 where there is none ([2020.05], R431). -/
def stagedEntry (x : Session) : Nat :=
  match x.staged[x.stagedSelect]? with
  | some e => e.1
  | none => 0

/-- [2000.02] StateAttributes (R446). -/
def stateAttributes (s : State) : Nat :=
  bnat (degraded s) + 2 * bnat s.reserve.writeThrough + 4 * bnat (!s.crypt.ephemeral.isEmpty) + 8 * bnat s.power.lockout
    + 16 * bnat (decide (2 ≤ s.thermal.level))

/-- A mask of the indices below `n` that satisfy a condition. -/
def maskWhere (n : Nat) (f : Nat → Bool) : Nat :=
  (List.range n).foldl (fun m i => m + 2 ^ i * bnat (f i)) 0

/-- The communication and management objects that have a place of their own (R446). -/
def readManagement (s : State) (n idx sub : Nat) : Option Int :=
  let x := sessionOf s n
  if idx = 0x1001 then some (errorRegister s)
  else if idx = 0x1003 then some (if sub = 0 then s.mgmt.errorHistory.length else s.mgmt.errorHistory.getD (sub - 1) 0)
  else if idx = 0x1014 ∨ (idx = 0x1800 ∧ sub = 1) then some (settingEff s (objKey idx sub))
  else if idx = 0x2000 then
    match sub with
    | 1 => some (devNum s.sys.dev)
    | 2 => some (stateAttributes s)
    | 3 => some ((s.sys.time - s.sys.since) / 64 : Nat)
    | 6 => some (bnat s.mgmt.maintEnable)
    | _ => none
  else if idx = 0x2001 ∧ sub = 6 then some (nmtNum s.mgmt.nmt)
  else if idx = 0x2001 ∧ sub = 7 then some s.mgmt.canError
  else if idx = 0x2002 ∧ sub = 3 then some s.mgmt.dynamicAddress
  else if idx = 0x2002 ∧ sub = 4 then some (bnat s.mgmt.ibiEnabled)
  else if idx = 0x2010 ∧ sub = 1 then some n
  else if idx = 0x2010 ∧ sub = 2 then some (levelNum x.level)
  else if idx = 0x2012 ∧ 1 ≤ sub then some (sessionInfo s (sub - 1))
  else if idx = 0x2020 then
    match sub with
    | 2 => some x.commitStatus
    | 3 => some x.staged.length
    | 4 => some x.stagedSelect
    | 5 => some (stagedEntry x)
    | _ => none
  else if idx = 0x2030 then
    match sub with
    | 1 => some x.lastDetail
    | 2 => some x.lastAbort
    | 3 => some x.lastObject
    | 4 => some x.rejectCount
    | _ => none
  else none

/-- The mapping objects of group `g` (R87). -/
def readGroup (s : State) (g sub : Nat) : Option Int :=
  let x := groupOf s g
  let count := fun (f : RegionRec → Bool) => (x.regions.filter (fun e => f e.2)).length
  match sub with
  | 1 => some x.typ
  | 2 => some (physCount s g)
  | 3 => some (x.table.filter (fun e => decide (e.1 < hostCount s g) && e.2.mapped)).length
  | 4 => some x.free.length
  | 5 => some (count (·.rt))
  | 6 => some (x.journals.headD 0)
  | 0x0A => some (match x.move with
    | some m => m.logical
    | none => 0xFFFF)
  | 0x0B => some (match x.move with
    | some m => m.pointer
    | none => 0)
  | 0x0C => some (count (·.hr))
  | _ => none

/-- The objects of the tile codec, mapping and the Easel that have a place of their own (R58, R87, R112). -/
def readMapping (s : State) (idx sub : Nat) : Option Int :=
  if idx = 0x2122 ∧ 1 ≤ sub then some (erasedMask s (sub - 1))
  else if idx = 0x2123 ∧ 1 ≤ sub then some (groupOf s (sub - 1)).deepReads.length
  else if idx = 0x2200 ∧ sub = 1 then some (spreadSize s)
  else if idx = 0x2200 ∧ sub = 5 then some (hostVisibleUnits s)
  else if idx = 0x2200 ∧ sub = 6 then some (bnat s.path.layoutPending)
  else if 0x2210 ≤ idx ∧ idx ≤ 0x2217 then readGroup s (idx - 0x2210) sub
  else if idx = 0x2220 ∧ 1 ≤ sub then some (sparesTaken s (sub - 1))
  else if idx = 0x2221 ∧ 1 ≤ sub then some (sparePool s ((sub - 1) / 8))
  else if idx = 0x2231 ∧ 2 ≤ sub then some (s.path.translated.getD (sub - 2) 0)
  else if idx = 0x2300 then
    match sub with
    | 8 => some (bnat s.easel.flushing)
    | 9 => some (s.easel.lines.filter (fun e => e.2.valid)).length
    | 0x0A => some (s.easel.lines.filter (fun e => e.2.dirty)).length
    | 0x0B => some (mergesInUse s)
    | _ => none
  else if idx = 0x2320 ∧ 1 ≤ sub then some (sparesUsed s (sub - 1))
  else if idx = 0x2321 ∧ 1 ≤ sub then some (fieldSpares s (sub - 1))
  else if idx = 0x2322 ∧ 1 ≤ sub then some (wayRecordsOf s (sub - 1)).length
  else if idx = 0x2323 ∧ 1 ≤ sub then
    let rs := wayRecordsOf s (sub - 1)
    some (if rs.any (fun r => bitOf r 29) then 0xFF else (rs.filter (fun r => bitOf r 30)).length)
  else none

/-- The reserve and Palette objects that have a place of their own (R133, R154). -/
def readReserve (s : State) (idx sub : Nat) : Option Int :=
  let x := s.reserve
  if idx = 0x2400 then
    match sub with
    | 8 => some x.status
    | 9 => some x.vres
    | 0x0A => some (cUsed s)
    | 0x0B => some x.esr
    | 0x0C => some (cHi s * x.vres * x.vres / 2000000000 : Nat)
    | 0x0D => some (floor2 s / 2 : Nat)
    | 0x0E => some ((tileEnergy2 s + 1) / 2 : Nat)
    | 0x0F => some x.budget
    | 0x10 => some x.deviceShare
    | 0x11 => some (deviceCharged s)
    | 0x12 => some (bnat x.writeThrough)
    | 0x13 => some x.lastMeasure
    | 0x15 => some (budgetTemp s / 10)
    | _ => none
  else if idx = 0x2411 ∧ 1 ≤ sub then some (portShareOf s (sub - 1))
  else if idx = 0x2412 ∧ 1 ≤ sub then some (portCharged s (sub - 1))
  else if idx = 0x2500 then
    match sub with
    | 5 => some (palDirtyCount s)
    | 6 => some (s.palette.misses.filter (fun e => e.2.isSome)).length
    | 7 => some (poisonEntries s).length
    | 8 => some (bnat s.palette.overflow)
    | 9 => some s.palette.spans.length
    | _ => none
  else none

/-- The state of a key range as [2710.05] reports it: every range is Closed in Test and Recovery (R207). -/
def rangeStateRead (s : State) (r : Nat) : Nat :=
  if scratchState s then 4 else (rangeRec s r).state

/-- Lines of the engine's range at or past the boundary that are not yet processed ([2780.06], R208). -/
def glazeRemaining (s : State) : Nat :=
  let gl := s.crypt.glaze
  match gl.range with
  | none => 0
  | some r =>
    let sp := rangeSpan s r
    let here := gl.step / 8192
    let later := ((List.range (sp.2 - here - 1)).filter (fun i => unitInRange s r (sp.1 + here + 1 + i))).length
    if here < sp.2 then
      (later + 1) * 2 ^ 22 - gl.step % 8192 * 512 - ((List.range 512).filter (fun i => gl.mask.getLsbD i)).length
    else 0

/-- The encryption and Glaze objects that have a place of their own (R208). -/
def readCrypt (s : State) (idx sub : Nat) : Option Int :=
  let gl := s.crypt.glaze
  if idx = 0x2700 then
    match sub with
    | 1 => some (bnat (!s.crypt.ephemeral.isEmpty))
    | 2 => some (((List.range 8).filter (fun r => settingB s (0x2710 + r) 3)).foldl (fun n r => n + rangeUnits s r) 0 : Nat)
    | 3 => some (rangeMask s (·.fna))
    | 4 => some (bnat (storeValid (folioRead s (storeCopy 0) 0x1000))
        + 2 * bnat (storeValid (folioRead s (storeCopy 1) 0x1000)) : Nat)
    | 5 => some (bnat (!s.crypt.ki.isEmpty))
    | 6 => some (majorOf s.crypt.root)
    | _ => none
  else if 0x2710 ≤ idx ∧ idx ≤ 0x2717 then
    let r := idx - 0x2710
    let x := rangeRec s r
    if r = 0 ∧ sub = 1 then some 0
    else if r = 0 ∧ sub = 2 then some (rangeUnits s 0)
    else
      match sub with
      | 5 => some (rangeStateRead s r)
      | 7 => some (if x.current.isEmpty then 0xFF else x.source)
      | 8 => some x.generation
      | _ => none
  else if idx = 0x2720 ∧ sub = 5 then some (rangeMask s nextLoaded)
  else if idx = 0x2780 then
    match sub with
    | 4 => some gl.state
    | 5 => some (match gl.range with
      | some r => (rangeFirst s r + 512 * gl.step) * 64
      | none => 0)
    | 6 => some (glazeRemaining s)
    | _ => none
  else none

/-- The drift entry of a region as the 32-bit word of R219. -/
def driftWord (d : DriftRec) : Nat :=
  d.visit * 2 ^ 24 + d.centre * 2 ^ 18 + d.half * 2 ^ 14 + d.bucket * 2 ^ 11 + bnat d.mv * 2 ^ 10 + bnat d.st * 2 ^ 9
    + bnat d.nw * 2 ^ 8 + d.tm

/-- The drift objects of group `g` (R231). -/
def readDrift (s : State) (g sub : Nat) : Option Int :=
  let seen := visitedRegions s g
  let valid := ((groupOf s g).drift.map (·.2)).filter (·.mv)
  match sub with
  | 1 => some (groupTemp s g)
  | 2 => some (ageLimit s g)
  | 3 => some (sweepPeriod s g)
  | 4 => some (seen.foldl (fun n p => max n (visitAge s g p)) 0 : Nat)
  | 5 => some (seen.filter (urgentRegion s g)).length
  | 0x0B => some (valid.foldl (fun n d => n + d.centre) 0 / max 1 valid.length : Nat)
  | _ => none

/-- The drift, channel and arbiter objects that have a place of their own (R231, R258, R274). -/
def readMedia (s : State) (idx sub : Nat) : Option Int :=
  let ch := channelOf s (sub - 1)
  if idx = 0x2800 then
    match sub with
    | 1 => some s.path.epoch
    | 8 => some s.path.offTime
    | 9 => some s.path.offSource
    | 0x0A => some (staleRegions s)
    | _ => none
  else if 0x2810 ≤ idx ∧ idx ≤ 0x2817 then readDrift s (idx - 0x2810) sub
  else if idx = 0x2900 ∧ sub = 0x0A then some (maskWhere 64 (fun c => (channelOf s c).failed))
  else if sub = 0 then none
  else if idx = 0x2910 then some ch.state
  else if idx = 0x2911 then some ch.stackType
  else if idx = 0x2912 then some ch.serial
  else if idx = 0x2913 then some (ch.temp.getD 0)
  else if idx = 0x2914 then some ch.cause
  else if idx = 0x2A02 then some ((arbOf s 0).ranks.getD (sub - 1) 0)
  else if 0x2A10 ≤ idx ∧ idx ≤ 0x2A17 ∧ sub = 0x12 then some (arbOf s (idx - 0x2A10)).pointer
  else none

/-- A port has a committed decoder that meets window `w` ([2B30.05]). -/
def decodesWindow (s : State) (w p : Nat) : Bool :=
  let base := settingN s (0x2B30 + w) 1
  (portOf s p).decoders.any (fun d => d.2.committed
    && decide (0 < overlap d.2.dpa (d.2.dpa + d.2.size) base (base + windowSize s w)))

/-- The objects of port `p` (R303). -/
def readPort (s : State) (p sub : Nat) : Option Int :=
  let x := portOf s p
  match sub with
  | 5 => some x.link
  | 6 => some x.rate
  | 7 => some x.width
  | 8 => some (if x.rate = 0xFF then 0 else if x.rate = 4 then 2 else 1)
  | 9 => some x.ide
  | 0x0A => some (maskWhere 8 (fun n => (tabGet dDecoder x.decoders n).committed))
  | 0x0B => some (bnat x.bi)
  | 0x0C => some (bnat x.fenced)
  | 0x0E => some (heldEntries s p)
  | 0x0F => some (devLoad s p)
  | 0x10 => some (bnat x.shutdownDirty)
  | _ => none

/-- The state of a Barrow channel (R313, R322): 0 idle, 1 running, 2 stopping. -/
def barrowState (x : BarrowRec) : Nat :=
  if x.loads = [] then 0 else if x.ending then 2 else 1

/-- The objects of Barrow channel `c` (R322). -/
def readBarrow (s : State) (c sub : Nat) : Option Int :=
  let x := barrowOf s c
  match sub with
  | 2 => some x.shadow
  | 3 => some x.commitState
  | 5 => some (barrowState x)
  | 6 => some (match x.loads.getLast? with
    | some l => l.index
    | none => 0xFFFF)
  | 7 => some (match x.loads.getLast? with
    | some l => (l.total - l.issued : Nat)
    | none => (0 : Nat))
  | 8 => some x.lastDescriptor
  | 9 => some x.lastStatus
  | 0x0A => some x.lastResidue
  | 0x0B => some x.errorFlags
  | 0x0C => some x.failBeat
  | 0x0D => some x.cause
  | 0x11 => some x.readPointer
  | 0x12 => some x.errorDescriptor
  | _ => none

/-- The objects of the ports, Barrow and the stall queues that have a place of their own (R303, R322, R335). -/
def readPorts (s : State) (n idx sub : Nat) : Option Int :=
  if idx = 0x2B00 ∧ sub = 5 then some (tallyValue s 150)
  else if 0x2B10 ≤ idx ∧ idx ≤ 0x2B13 then readPort s (idx - 0x2B10) sub
  else if 0x2B30 ≤ idx ∧ idx ≤ 0x2B3F then
    match sub with
    | 2 => some (windowSize s (idx - 0x2B30))
    | 5 => some (maskWhere 4 (decodesWindow s (idx - 0x2B30)))
    | _ => none
  else if idx = 0x2B40 ∧ sub = 1 then some (s.directory.entries.filter (fun e => e.2.presence != 0)).length
  else if idx = 0x2B40 ∧ sub = 6 then some s.directory.rounds.length
  else if idx = 0x2C00 ∧ sub = 3 then some ((telemetryChannel s).getD 0xFF)
  else if idx = 0x2C01 ∧ sub = 1 then some (sessionOf s n).descriptorSelect
  else if 0x2C10 ≤ idx ∧ idx ≤ 0x2C1F then readBarrow s (idx - 0x2C10) sub
  else if 0x2D10 ≤ idx ∧ idx ≤ 0x2D1C then
    let x := queueOf s (idx - 0x2D10)
    match sub with
    | 2 => some x.words.length
    | 3 => some x.peak
    | 4 => some x.notices
    | 0x0B => some (bnat x.markLost)
    | _ => none
  else none

/-- The objects of supervision and of start and shutdown that have a place of their own (R360, R381). -/
def readPower (s : State) (idx sub : Nat) : Option Int :=
  let y := s.sys
  if idx = 0x2E00 ∧ sub = 0x0E then some (bnat s.power.lockout)
  else if idx = 0x2E01 ∧ sub = 3 then some s.power.marginState
  else if 0x2E10 ≤ idx ∧ idx ≤ 0x2E2D then
    let r := idx - 0x2E10
    if sub = 6 then some (railState s r)
    else if sub = 7 then some (railOf s r).voltage
    else if 0x0E ≤ sub ∧ sub ≤ 0x12 then some (tallyValue s (5 * r + (sub - 0x0E)))
    else none
  else if idx = 0x2E30 ∧ sub = 2 then some (maskWhere 8 (fun k => (domainOf s k).phase == .off))
  else if idx = 0x2E30 ∧ sub = 3 then some (maskWhere 8 (fun k => (domainOf s k).phase == .good))
  else if idx = 0x2E40 ∧ sub = 1 then some s.power.vin
  else if idx = 0x2E40 ∧ sub = 2 then some (bnat s.power.adcFault)
  else if idx = 0x2F00 then
    match sub with
    | 1 => some y.startMode
    | 6 => some y.selfTest
    | 7 => some y.lastStartTime
    | 8 => some y.lastCause
    | 9 => some y.lastOutcome
    | 0x0A => some y.lastVarnishTime
    | 0x0B => some y.lastVarnishTiles
    | 0x0C => some y.lastEpilogue
    | 0x0D => some y.shutdownSeq
    | 0x0F => some y.scratchSize
    | _ => none
  else if idx = 0x2F10 ∧ 1 ≤ sub then some (groupOf s (sub - 1)).generation
  else none

/-- The clock and thermal objects that have a place of their own (R399). -/
def readThermal (s : State) (idx sub : Nat) : Option Int :=
  let x := s.thermal
  if idx = 0x3000 ∧ sub = 1 then some (nowNs s)
  else if idx = 0x3000 ∧ sub = 3 then some (bnat x.crystal)
  else if idx = 0x3001 ∧ 1 ≤ sub then some (min 2 (sleepOf s (sub - 1)))
  else if idx = 0x3010 then
    match sub with
    | 1 => some x.tDie
    | 3 => some x.level
    | 0x0C => some (bnat x.rising)
    | 0x0F => some (usableSensors s).length
    | 0x10 => some (bnat x.fault)
    | _ => none
  else if idx = 0x3020 ∧ 1 ≤ sub then some (if sensorOut s (sub - 1) then 0x7FFF else readingOf s (sub - 1))
  else none

/-- The Folio and Ledger objects that have a place of their own (R422). -/
def readFolio (s : State) (n idx sub : Nat) : Option Int :=
  let x := sessionOf s n
  let f := s.folio
  if idx = 0x3100 then
    match sub with
    | 1 => some (bnat (f.running.isSome || !f.queue.isEmpty))
    | 2 => some (f.queue.foldl (fun k i => k + max 1 i.pages.length) 0 : Nat)
    | 7 => some (maskWhere 16 (sectionValid s 0) + 65536 * maskWhere 16 (sectionValid s 1) : Nat)
    | 0x0B => some (bnat (bitOf (tabGet dImage f.image 0x9000).toNat 0))
    | _ => none
  else if idx = 0x3101 then
    match sub with
    | 1 => some x.tallySelect
    | 2 => some (tallyValue s x.tallySelect)
    | 3 => some (tabGet dNat f.tallyPending x.tallySelect : Nat)
    | 4 => some (bnat (decide (x.tallySelect < 192 ∧ 0xFFFFFFF0 ≤ tallyCount s x.tallySelect)))
    | _ => none
  else if idx = 0x3110 ∧ sub = 1 then some x.userAddress
  else if idx = 0x3180 then
    match sub with
    | 1 => some (if recordsHeld s = 0 then (0 : Nat) else s.ledger.mark + 1)
    | 2 => some s.ledger.lastSeq
    | 3 => some (recordsHeld s)
    | 4 => some x.cursor
    | 9 => some (bnat s.ledger.full)
    | 0x0B => some s.ledger.pending.length
    | _ => none
  else none

/-- The counters and service-life objects that have a place of their own (R463, R476). -/
def readService (s : State) (idx sub : Nat) : Option Int :=
  if idx = 0x3200 ∧ sub = 1 then some (bnat s.perf.run)
  else if idx = 0x3200 ∧ sub = 8 then some (maskWhere 13 (fun b => stickyByte s b != 0))
  else if 0x3210 ≤ idx ∧ idx ≤ 0x321C then
    if 9 ≤ sub ∧ sub ≤ 0x10 then some (tabGet dNat s.perf.counters (8 * (idx - 0x3210) + (sub - 9)) : Nat)
    else if sub = 0x19 then some (stickyByte s (idx - 0x3210))
    else none
  else if idx = 0x3300 then
    match sub with
    | 1 => some s.sys.lifeUsed
    | 2 => some (lifeByHours s)
    | 3 => some (lifeByWear s)
    | 4 => some (lifeBySpares s)
    | 6 => some ((List.range 8).foldl (fun m g => m + 16 ^ g * (match (groupOf s g).stale with
      | some c => 8 + c
      | none => 0)) 0 : Nat)
    | 7 => some ((List.range 8).foldl (fun k g => k + (rebuildRegions s g).length) 0 : Nat)
    | 8 => some (maskWhere 8 (fun g => (groupOf s g).fenced))
    | 9 => some ((((List.range 8).filterMap (fun g => (groupOf s g).rebuild)).map (·.1)).headD 0xFFFF)
    | _ => if 0x0B ≤ sub then some (tallyValue s (154 + (sub - 0x0B))) else none
  else none

/-- An object's value where it has a place of its own in the state. -/
def readOwn (s : State) (n idx sub : Nat) : Option Int :=
  if idx < 0x2100 then readManagement s n idx sub
  else if idx < 0x2400 then readMapping s idx sub
  else if idx < 0x2700 then readReserve s idx sub
  else if idx < 0x2800 then readCrypt s idx sub
  else if idx < 0x2B00 then readMedia s idx sub
  else if idx < 0x2E00 then readPorts s n idx sub
  else if idx < 0x3000 then readPower s idx sub
  else if idx < 0x3100 then readThermal s idx sub
  else if idx < 0x3200 then readFolio s n idx sub
  else readService s idx sub

/-- The number an object reads as: its place of its own, a setting of access rw or const, or a statistic. -/
def objectNumber (s : State) (r : ObjRow) (n idx sub : Nat) : Int :=
  match readOwn s n idx sub with
  | some v => v
  | none => if r.access = .rw ∨ r.access = .const then setting s idx sub else stat s idx sub

/-- The bytes of the objects whose type is a string (R87, R231, R258, R304, R411, R446). -/
def objectOctets (s : State) (n idx sub : Nat) : List Byte :=
  if idx = 0x1008 then [0x50, 0x5A, 0x37, 0x34, 0x38, 0x30]
  else if idx = 0x1009 then Config.hardwareVersion
  else if idx = 0x100A then Config.softwareVersion
  else if idx = 0x2230 then leBytes 12 (regionWord (regionOf s (settingN s 0x2230 1) (settingN s 0x2230 2)))
  else if idx = 0x2830 then leBytes 4 (driftWord (driftOf s (settingN s 0x2830 1) (settingN s 0x2830 2)))
  else if idx = 0x291C then padTo 20 (bytesAt (channelOf s (sub - 1)).record 4 20)
  else if idx = 0x2C01 then descriptorBytes s (sessionOf s n).descriptorSelect
  else if idx = 0x3110 then userRead s (sessionOf s n).userAddress
  else []

/-- Whether an object's answer needs the Folio array (R401): user data and the objects that report a tally. -/
def needsArray (idx sub : Nat) : Bool :=
  idx == 0x3110 && sub == 2 || idx == 0x3101 && (sub == 2 || sub == 4) || idx == 0x2B00 && sub == 5
    || 0x2E10 ≤ idx && idx ≤ 0x2E2D && 0x0E ≤ sub && sub ≤ 0x12 || idx == 0x3300 && 0x0B ≤ sub

/-- The value of an object that passed the checks of R450, and the state after the read (R424): two reads move on, of the TQ
(R335) and of the Ledger window (R421). -/
def objectRead (s : State) (n idx sub : Nat) : Except Nat (List Byte × State) :=
  if idx = 0x2D20 ∧ sub = 1 then tqRead s
  else if idx = 0x3180 ∧ sub = 5 then .ok (windowRead n s)
  else
    match objRow? idx sub with
    | none => .error 0x2003
    | some r =>
      .ok (if r.ty.isNum then typeBytes r.ty (objectNumber s r n idx sub) else objectOctets s n idx sub,
        if needsArray idx sub then arrayWait s else s)

end Sys2Proof.Machine
end

