-- ==== Sys2Proof/Machine/Write.lean ====
section
/-! DEFINITION. Machine/Write.lean: what a write that passed checks 1 to 6 of R450 does, object by object (check 7 and the
effect, R424), the level request (R427) and the commit of a staging set (R432). A write whose object no chapter gives an
effect sets the active value. -/

namespace Sys2Proof.Machine

/-- The next answer of the outside to a write through a generic path (log entry 4). -/
def outsideWord (s : State) : Nat :=
  Config.outsideAnswer s.path.frees

/-- The state after such an answer. -/
def afterOutside (s : State) : State :=
  { s with path := { s.path with frees := s.path.frees + 1 } }

/-- The number written to an object. -/
def writtenNumber (idx sub : Nat) (data : List Byte) : Int :=
  match objRow? idx sub with
  | some r => writtenValue r data
  | none => 0

/-- The level a code of R427 names. -/
def levelOf (n : Nat) : Level :=
  if n = 0 then .observer else if n = 1 then .operator else .maintainer

/-- The effect of a level request (R427, R429). -/
def levelRequest (s : State) (via : Via) (n : Nat) (data : List Byte) : Except Nat State :=
  let want := (data.headD 0).toNat
  let grant := modSession s n (fun x => { x with level := levelOf want })
  if want ≤ levelNum (sessionOf s n).level then .ok grant
  else if 3 ≤ want then .error 0x200F
  else if tabGet dBool s.mgmt.lockedOut (pathOf via) then .error 0x2006
  else if want = 2 ∧ s.mgmt.maintEnable = false then .error 0x200F
  else if numAt data 1 4 ≠ settingN s 0x2011 want then .error 0x2005
  else if want = 2 then .ok (raise grant 0x2001 (leBytes 1 n ++ leBytes 1 (pathOf via)))
  else .ok grant

/-- Whether a mapping entry (index, subindex, bit length) names an object that may be mapped into a TPDO (R444). -/
def mappable (entry : Nat) : Bool :=
  match objRow? (entry / 65536) (entry / 256 % 256) with
  | none => false
  | some r =>
    (r.access == .ro || r.access == .rw) && !r.staged && entry % 256 == 8 * r.ty.width &&
      match r.ty with
      | .bool | .i8 | .i16 | .u8 | .u16 | .u32 | .u64 => true
      | _ => false

/-- The mapped entries of a TPDO. -/
def mappedEntries (s : State) (tpdo : Nat) : List Nat :=
  (List.range (settingN s (0x1A00 + tpdo) 0)).map (fun i => settingN s (0x1A00 + tpdo) (i + 1))

/-- The effect of a write to a TPDO object (R436, R444, R451). -/
def pdoWrite (s : State) (idx sub : Nat) (v : Int) : Except Nat State :=
  let s' := setSetting s idx sub v
  if s.mgmt.nmt ≠ .preOperational then .error 0x200C
  else if idx < 0x1A00 then .ok s'
  else
    let entries := mappedEntries s' (idx - 0x1A00)
    if (sub ≠ 0 ∧ mappable v.toNat = false) ∨ (sub = 0 ∧ entries.all mappable = false) then .error 0x2010
    else if 512 < (entries.map (· % 256)).sum then .error 0x2011
    else .ok s'

/-- What refuses the layouts of the combined view: the contain layout (R63). -/
def layoutRule (touched : Nat → Bool) (s : State) : Option Nat :=
  if (List.range 9).any (fun i => touched (0x2200 + i)) then layoutFault s (loadedLayout s) else none

/-- What refuses the port share weights (R127, R133). -/
def weightRule (touched : Nat → Bool) (old s : State) : Option Nat :=
  if touched 0x2410 then
    if reserveFrozen old then some 0x2405
    else if ((List.range 4).map (fun p => settingN s 0x2410 (p + 1))).sum = 100 then none
    else some 0x2403
  else none

/-- What refuses the class masks (R138). -/
def maskRule (touched : Nat → Bool) (s : State) : Option Nat :=
  if touched 0x2501 || touched 0x2502 then
    let way := fun (c : Nat) => settingN s 0x2501 (c + 1)
    let lock := fun (c : Nat) => settingN s 0x2502 (c + 1)
    let clash := fun (c d : Nat) => c != d && (lock c &&& (lock d ||| way d)) != 0
    if (List.range 7).any (fun c => way c == 0) then some 0x2503
    else if (List.range 7).any (fun c => (List.range 7).any (clash c)) then some 0x2504
    else if ((List.range 8).filter (fun p => bitOf (way 0) p
        && (List.range 6).all (fun c => !bitOf (lock (c + 1)) p))).length < 2 then some 0x2505
    else none
  else none

/-- The wrapped range key of a staging set. -/
def stagedKey (set : List (Nat × List Byte)) : Option (List Byte) :=
  (set.find? (fun e => e.1 == objKey 0x2720 4)).map (·.2)

/-- What refuses the key ranges (R181) and the range key (R186). -/
def keyRule (touched : Nat → Bool) (set : List (Nat × List Byte)) (old s : State) : Option Nat :=
  let ranges := if (List.range 8).any (fun r => touched (0x2710 + r)) then rangesFault old s else none
  match ranges, stagedKey set with
  | some d, _ => some d
  | none, some wrapped => rangeKeyCheck s (settingN s 0x2720 3) wrapped
  | none, none => none

/-- The first unit and the unit past the end of a window; an unused window covers none. -/
def windowExtent (s : State) (w : Nat) : Nat × Nat :=
  let base := settingN s (0x2B30 + w) 1
  (base, base + windowSize s w)

/-- A window as a commit may change it. -/
def windowImage (s : State) (w : Nat) : (Nat × Nat) × Nat × Bool :=
  (windowExtent s w, settingN s (0x2B30 + w) 3, settingB s (0x2B30 + w) 4)

/-- The windows a commit changes. -/
def windowsChanged (old s : State) : List Nat :=
  (List.range 16).filter (fun w => windowImage old w != windowImage s w)

/-- Units in both of two extents. -/
def extentsMeet (a b : Nat × Nat) : Bool :=
  decide (0 < overlap a.1 a.2 b.1 b.2)

/-- A committed decoder of port `p` meets an extent of units of 256 MiB. -/
def decoderMeets (s : State) (p : Nat) (e : Nat × Nat) : Bool :=
  (portOf s p).decoders.any (fun d => d.2.committed && extentsMeet (d.2.dpa, d.2.dpa + d.2.size) e)

/-- What refuses the access windows (R281); an unused window is not checked. -/
def windowRule (touched : Nat → Bool) (old s : State) : Option Nat :=
  if (List.range 16).any (fun w => touched (0x2B30 + w)) then
    let used := (List.range 16).filter (fun w => windowSize s w != 0)
    let extents := used.map (windowExtent s)
    if someOverlap extents || extents.any (fun e => visibleUnits s e.1 e.2 != e.2 - e.1) then some 0x2B03
    else if (windowsChanged old s).any (fun w => (List.range 4).any (fun p =>
        (decoderMeets s p (windowExtent old w) || decoderMeets s p (windowExtent s w))
          && !(bitOf (settingN old (0x2B30 + w) 3) p && bitOf (settingN s (0x2B30 + w) 3) p
            && settingB old (0x2B30 + w) 4 == settingB s (0x2B30 + w) 4))) then some 0x2B04
    else if used.any (fun w =>
        let mask := settingN s (0x2B30 + w) 3
        if settingB s (0x2B30 + w) 4 then mask == 0 else maskCount mask != 1) then some 0x2B05
    else none
  else none

/-- What refuses the thermal thresholds (R393). -/
def thresholdRule (touched : Nat → Bool) (s : State) : Option Nat :=
  if touched 0x3010 && !thermalOrder (setting s 0x3010 4) (setting s 0x3010 5) (setting s 0x3010 6) then some 0x3003
  else none

/-- The combined view (R432): the staged values laid over the active ones. The wrapped key has no active value. -/
def combinedView (s : State) (set : List (Nat × List Byte)) : State :=
  set.foldl (fun s e =>
    if e.1 = objKey 0x2720 4 then s
    else setSetting s (e.1 / 256) (e.1 % 256) (writtenNumber (e.1 / 256) (e.1 % 256) e.2)) s

/-- The detail code a set fails the level check with (R432), in staging order. -/
def levelFault (level : Level) (set : List (Nat × List Byte)) : Option Nat :=
  (set.find? (fun e =>
    match objRow? (e.1 / 256) (e.1 % 256) with
    | some r => decide (levelNum level < levelNum r.level)
    | none => false)).map (fun e => owningBlock (e.1 / 256) * 256 + 2)

/-- What refuses a commit (R432): the levels, then each subsystem's rules in ascending index order. -/
def commitFault (s : State) (level : Level) (set : List (Nat × List Byte)) : Option Nat :=
  let s' := combinedView s set
  let touched := fun (idx : Nat) => set.any (fun e => e.1 / 256 == idx)
  [levelFault level set, layoutRule touched s', weightRule touched s s', maskRule touched s', keyRule touched set s s',
    windowRule touched s s', thresholdRule touched s'].findSome? id

/-- What an accepted layout leaves to be done (R63, R490): it waits for the next Priming and is saved. -/
def layoutCommitted (s : State) : State :=
  layoutSave { s with path := { s.path with layoutPending := true } } 1

/-- What an accepted key-range layout leaves to be done (R181, R490). -/
def rangesCommitted (old s : State) : State :=
  let changed := (List.range 8).filter (rangeChanged s.path.layout (rangeLayouts old) (rangeLayouts s))
  let s := layoutSave (changed.foldl emptyRange s) 4
  keyStoreUpdate { s with crypt := { s.crypt with layout := layoutBytes s s.path.layout } }

/-- The directory after a change of windows (R281): an entry in a changed window that names a port not in the new mask is
dropped. -/
def dropEntries (old s : State) (changed : List Nat) : State :=
  s.directory.entries.foldl (fun t e =>
    let unit := entryLine s e.1 / 2 ^ 22
    let out := changed.any (fun w =>
      let mask := if windowSize s w = 0 then 0 else settingN s (0x2B30 + w) 3
      (extentsMeet (unit, unit + 1) (windowExtent old w) || extentsMeet (unit, unit + 1) (windowExtent s w))
        && (portsIn e.2.presence).any (fun p => !bitOf mask p))
    if out then modEntry t e.1 (fun _ => {}) else t) s

/-- What accepted windows leave to be done (R281). -/
def windowsCommitted (old s : State) (n : Nat) : State :=
  let changed := windowsChanged old s
  raise (dropEntries old s changed) 0x2B06
    (leBytes 1 n ++ leBytes 2 (changed.foldl (fun m w => m + 2 ^ w) 0))

/-- What accepted ranks leave to be done (R271): the shadow registers of all eight arbiters take them. -/
def ranksCommitted (s : State) (n : Nat) : State :=
  let ranks := 0 :: (List.range 8).map (fun i => settingN s 0x2A01 (i + 2))
  let s := (List.range 8).foldl (fun s g => modArb s g (fun a => { a with shadow := some ranks })) s
  raise s 0x2A02 (leBytes 1 n ++ ranks.map (BitVec.ofNat 8))

/-- Some entry of a set is of Maintainer level. -/
def maintainerEntry (set : List (Nat × List Byte)) : Bool :=
  set.any (fun e =>
    match objRow? (e.1 / 256) (e.1 % 256) with
    | some r => r.level == .maintainer
    | none => false)

/-- Applies a staging set that passed its checks (R432). -/
def applySet (old : State) (n : Nat) (set : List (Nat × List Byte)) : State :=
  let s := combinedView old set
  let touched := fun (lo k : Nat) => (List.range k).any (fun i => set.any (fun e => e.1 / 256 == lo + i))
  let s := if touched 0x2F00 1 then { s with sys := { s.sys with startMode := settingN s 0x2F00 1 } } else s
  let s := if maintainerEntry set then
      raise s 0x2004 (leBytes 1 n ++ leBytes 1 set.length
        ++ (match set.head? with
          | some e => leBytes 2 (e.1 / 256) ++ leBytes 1 (e.1 % 256)
          | none => []))
    else s
  let s := if touched 0x2200 9 then layoutCommitted s else s
  let s := if touched 0x2710 8 then rangesCommitted old s else s
  let s := match stagedKey set with
    | some wrapped => rangeKeyInstall s (settingN s 0x2720 3) wrapped
    | none => s
  let s := if touched 0x2A01 1 then ranksCommitted s n else s
  let s := if touched 0x2B30 16 then windowsCommitted old s n else s
  modSession s n (fun x => { x with staged := [], commitStatus := 1 })

/-- The effect of a commit (R432). -/
def commitSet (s : State) (n : Nat) : Except Nat State :=
  let x := sessionOf s n
  if x.staged = [] then .error 0x200E
  else
    match commitFault s x.level x.staged with
    | some d => .error d
    | none => .ok (applySet s n x.staged)

/-- The effect of a discard (R432). -/
def discardSet (s : State) (n : Nat) : State :=
  modSession s n (fun x => { x with staged := [] })

/-- Clears the error history (R446). -/
def historyClear (s : State) : State :=
  { s with mgmt := { s.mgmt with errorHistory := [] } }

/-- Clears the request statistics (R446). -/
def managementClear (s : State) : State :=
  clearStats (clearStats s 0x2040 1 6) 0x2041 1 6

/-- The effect of a write to [1010] (R439). -/
def storeWrite (s : State) (n : Nat) (v : Int) : Except Nat State :=
  if v = 0x65766173 then .ok (storeParameters s n) else .error 0x200B

/-- The effect of a write to [1011] (R439). -/
def restoreWrite (s : State) (v : Int) : Except Nat State :=
  if v = 0x64616F6C then .ok (restoreDefaults s) else .error 0x200B

/-- Block 0x20 (R446). -/
def writeManagement (via : Via) (idx sub : Nat) (data : List Byte) (v : Int) (n : Nat) (s : State) : Except Nat State :=
  if idx = 0x1003 then .ok (historyClear s)
  else if idx = 0x1010 then storeWrite s n v
  else if idx = 0x1011 then restoreWrite s v
  else if idx = 0x1016 then
    .ok (settleErrors { setSetting s idx sub v with mgmt := { s.mgmt with
      heartbeatLost := tabSet dBool s.mgmt.heartbeatLost (sub - 1) false } })
  else if 0x1800 ≤ idx ∧ idx ≤ 0x1A07 then pdoWrite s idx sub v
  else if idx = 0x2001 ∧ sub = 1 then .ok (emcyDrain (setSetting s idx sub v))
  else if idx = 0x2010 then levelRequest s via n data
  else if idx = 0x2020 ∧ sub = 1 then (if v = 1 then commitSet s n else .ok (discardSet s n))
  else if idx = 0x2020 then .ok (modSession s n (fun x => { x with stagedSelect := v.toNat }))
  else if idx = 0x2042 then .ok (managementClear s)
  else .ok (setSetting s idx sub v)

/-- Blocks 0x21 to 0x23: codec, mapping, Easel (R58, R87, R112). -/
def writeMapping (idx sub : Nat) (v : Int) (s : State) : Except Nat State :=
  if idx = 0x2130 ∧ sub = 4 then .ok (codecClear s)
  else if idx = 0x2230 ∧ sub = 2 ∧ physCount s (settingN s 0x2230 1) ≤ v.toNat then .error 0x2208
  else if idx = 0x2231 then translateWrite s v.toNat
  else if idx = 0x2200 ∧ sub = 4 then .ok (setSetting (keepSwap s) idx sub v)
  else if idx = 0x2300 ∧ (sub = 3 ∨ sub = 4 ∨ sub = 6) then .ok (setSetting (keepForce s idx sub) idx sub v)
  else if idx = 0x2300 ∧ sub = 7 then flushRequest s
  else if idx = 0x2300 ∧ sub = 0x0C then .ok (easelClear s)
  else .ok (setSetting s idx sub v)

/-- Blocks 0x24 to 0x26: reserve, Palette, monitors (R133, R154, R179). -/
def writeReserve (idx sub : Nat) (v : Int) (s : State) : Except Nat State :=
  if idx = 0x2400 ∧ sub = 5 then measureRequest s
  else if idx = 0x2400 ∧ sub = 7 then (if v = 0 then reserveDisable s else reserveEnable s)
  else if idx = 0x2400 ∧ reserveFrozen s then .error 0x2405
  else if idx = 0x2400 ∧ (sub = 1 ∨ sub = 3) then .ok (setSetting (keepForce s idx sub) idx sub v)
  else if idx = 0x2500 ∧ sub = 3 then .ok (dirtyLimitWrite s v.toNat)
  else if idx = 0x2500 ∧ sub = 4 then .ok (paletteClear s)
  else if idx = 0x2600 ∧ sub = 5 then .ok (monitorClear s)
  else .ok (setSetting s idx sub v)

/-- A command written to a key range (R182): 1 open, 2 close, 3 erase. -/
def rangeCommand (s : State) (r : Nat) (v : Int) : Except Nat State :=
  if v = 1 then rangeOpen s r else if v = 2 then rangeClose s r else rangeErase s r

/-- A command written to the Glaze engine (R201): 1 start, 2 pause, 3 resume. -/
def glazeCommand (s : State) (v : Int) : Except Nat State :=
  if v = 1 then glazeStart s else if v = 2 then glazePause s else glazeResume s

/-- Block 0x27: keys and Glaze (R208). -/
def writeCrypt (idx sub : Nat) (data : List Byte) (v : Int) (s : State) : Except Nat State :=
  if idx = 0x2700 ∧ sub = 0x0B then .ok (cryptClear s)
  else if 0x2710 ≤ idx ∧ idx ≤ 0x2717 then rangeCommand s (idx - 0x2710) v
  else if idx = 0x2720 ∧ sub = 1 then installationKey s data
  else if idx = 0x2720 ∧ sub = 2 then installationRewrap s data
  else if idx = 0x2720 ∧ sub = 6 then discardNext s v.toNat
  else if idx = 0x2780 ∧ sub = 2 then glazeCommand s v
  else if idx = 0x2780 ∧ sub = 0x0B then .ok (glazeClear s)
  else .ok (setSetting s idx sub v)

/-- Blocks 0x28 to 0x2A: drift, channels, arbiter (R231, R258, R274). A register read's answer is the stack's. -/
def writeMedia (idx sub : Nat) (v : Int) (s : State) : Except Nat State :=
  if idx = 0x2800 ∧ sub = 0x0B then .ok (retouchClear s)
  else if idx = 0x2830 ∧ sub = 2 ∧ physCount s (settingN s 0x2830 1) ≤ v.toNat then .error 0x2803
  else if idx = 0x2900 ∧ sub = 5 then .ok (setSetting (keepForce s idx sub) idx sub v)
  else if idx = 0x2900 ∧ sub = 7 then .ok (alertThreshold s v)
  else if idx = 0x2900 ∧ sub = 8 then markChannel s v.toNat
  else if idx = 0x2900 ∧ sub = 9 then returnChannel s v.toNat
  else if idx = 0x2900 ∧ sub = 0x0B then .ok (channelClear s)
  else if idx = 0x2920 ∧ sub = 2 then
    mrRead (afterOutside s) v.toNat (BitVec.ofNat 8 (outsideWord s)) (outsideWord s / 256 % 2 == 1)
  else if idx = 0x2A00 ∧ sub = 2 then .ok (arbiterClear s)
  else .ok (setSetting s idx sub v)

/-- A write to Barrow channel `c` (R322). -/
def writeBarrow (c idx sub : Nat) (v : Int) (s : State) : Except Nat State :=
  if sub = 1 then (if (barrowOf s c).loads ≠ [] then .error 0x2C07 else .ok (setSetting s idx sub v))
  else if sub = 2 then .ok (modBarrow s c (fun x => { x with shadow := v.toNat }))
  else if sub = 3 then .ok (shadowCommit s c)
  else if sub = 4 then (if v = 1 then channelStart s c else channelAbort s c)
  else if sub = 0x0D then .ok (causeClear s c v.toNat)
  else if sub = 0x11 then telemetryPointer s c v.toNat
  else .ok (setSetting s idx sub v)

/-- Blocks 0x2B to 0x2D: ports, Barrow, stall queues (R303, R322, R335). -/
def writePorts (idx sub : Nat) (data : List Byte) (v : Int) (n : Nat) (s : State) : Except Nat State :=
  if idx = 0x2B00 ∧ sub = 7 then .ok (portStatisticsClear s)
  else if 0x2B10 ≤ idx ∧ idx ≤ 0x2B13 ∧ sub = 1 then .ok (portEnable s (idx - 0x2B10) v.toNat)
  else if 0x2B10 ≤ idx ∧ idx ≤ 0x2B13 ∧ sub = 0x0D then fenceRelease s (idx - 0x2B10)
  else if idx = 0x2C00 ∧ sub = 5 then .ok (barrowClear s)
  else if idx = 0x2C01 ∧ sub = 1 then .ok (modSession s n (fun x => { x with descriptorSelect := v.toNat }))
  else if idx = 0x2C01 then .ok (descriptorWrite s (sessionOf s n).descriptorSelect data)
  else if 0x2C10 ≤ idx ∧ idx ≤ 0x2C1F then writeBarrow (idx - 0x2C10) idx sub v s
  else if idx = 0x2D00 ∧ sub = 2 then .ok (queueStatisticsClear s)
  else if 0x2D10 ≤ idx ∧ idx ≤ 0x2D1C ∧ sub = 0x0D then queueFlush s (idx - 0x2D10)
  else .ok (setSetting s idx sub v)

/-- A band or a margin value of a rail (R358, R360). -/
def railWrite (idx sub : Nat) (v : Int) (s : State) : Except Nat State :=
  let s' := setSetting s idx sub v
  let nominal := (nominalMv (idx - 0x2E10) : Int)
  if (sub = 2 ∨ sub = 3) ∧ setting s' idx 3 < setting s' idx 2 + 2 then .error 0x2E03
  else if (sub = 0x16 ∨ sub = 0x17) ∧ nominal * (setting s idx 3 - 2) < (v - nominal).natAbs * 100 then .error 0x2E08
  else .ok s'

/-- Blocks 0x2E and 0x2F: supervision, start and shutdown (R360, R381). The answers of self-tests and of PMBus devices are
the outside's. -/
def writePower (idx sub : Nat) (v : Int) (s : State) : Except Nat State :=
  if idx = 0x2E00 ∧ sub = 0x0F then .ok (releaseLockout s)
  else if idx = 0x2E00 ∧ sub = 0x10 then .ok (supervisionClear s)
  else if idx = 0x2E01 ∧ sub = 2 then marginCommand (afterOutside s) v.toNat (outsideWord s % 2 == 1)
  else if 0x2E10 ≤ idx ∧ idx ≤ 0x2E2D then railWrite idx sub v s
  else if idx = 0x2E30 then domainRestart s v.toNat
  else if idx = 0x2F00 ∧ sub = 3 ∧ inShutdown s then .error 0x2F06
  else if idx = 0x2F00 ∧ sub = 4 then restartRequest s
  else if idx = 0x2F00 ∧ sub = 5 then selfTestRequest (afterOutside s) (outsideWord s % 65536)
  else .ok (setSetting s idx sub v)

/-- Blocks 0x30 to 0x33: clocks, Folio and Ledger, counters, service life (R399, R422, R463, R476). -/
def writeService (idx sub : Nat) (data : List Byte) (v : Int) (n : Nat) (s : State) : Except Nat State :=
  if idx = 0x3000 ∧ sub = 5 then .ok (deepSleepEnable s v.toNat)
  else if (idx = 0x3010 ∧ 9 ≤ sub ∧ sub ≤ 0x0B) ∨ (idx = 0x3180 ∧ sub = 6) then .ok (setSetting (keepForce s idx sub) idx sub v)
  else if idx = 0x3010 ∧ sub = 0x13 then .ok (thermalClear s)
  else if idx = 0x3100 ∧ sub = 9 then .ok (folioClear s)
  else if idx = 0x3101 then .ok (modSession s n (fun x => { x with tallySelect := v.toNat }))
  else if idx = 0x3110 ∧ sub = 1 then .ok (modSession s n (fun x => { x with userAddress := v.toNat }))
  else if idx = 0x3110 then userWrite s (sessionOf s n).userAddress data
  else if idx = 0x3180 ∧ sub = 4 then .ok (modSession s n (fun x => { x with cursor := v.toNat }))
  else if idx = 0x3180 ∧ sub = 8 then ledgerClear s
  else if idx = 0x3200 ∧ sub = 1 then .ok (runControl s (v == 1))
  else if idx = 0x3200 ∧ sub = 2 then .ok (counterClear s)
  else if 0x3210 ≤ idx ∧ idx ≤ 0x321C ∧ 1 ≤ sub ∧ sub ≤ 8 then
    if selectAllowed (idx - 0x3210) v.toNat then .ok (setSetting s idx sub v) else .error 0x3201
  else if 0x3210 ≤ idx ∧ idx ≤ 0x321C ∧ 9 ≤ sub ∧ sub ≤ 0x10 then
    .ok { s with perf := { s.perf with
      counters := tabSet dNat s.perf.counters (8 * (idx - 0x3210) + (sub - 9)) v.toNat } }
  else if 0x3210 ≤ idx ∧ idx ≤ 0x321C ∧ sub = 0x19 then .ok (wrapStickyClear s (idx - 0x3210) v.toNat)
  else .ok (setSetting s idx sub v)

/-- The effect of a write to an object that is not staged, after checks 1 to 6 of R450. -/
def writeEffect (via : Via) (idx sub : Nat) (data : List Byte) (n : Nat) (s : State) : Except Nat State :=
  let v := writtenNumber idx sub data
  if idx < 0x2100 then writeManagement via idx sub data v n s
  else if idx < 0x2400 then writeMapping idx sub v s
  else if idx < 0x2700 then writeReserve idx sub v s
  else if idx < 0x2800 then writeCrypt idx sub data v s
  else if idx < 0x2B00 then writeMedia idx sub v s
  else if idx < 0x2E00 then writePorts idx sub data v n s
  else if idx < 0x3000 then writePower idx sub v s
  else writeService idx sub data v n s

end Sys2Proof.Machine
end

