-- ==== Sys2Proof/Machine/Manage.lean ====
section
/-! DEFINITION. Machine/Manage.lean: the commands of the management ports (R427 to R446): level requests and sessions,
staging and commit, the CANopen FD services, the I3C target and the mailbox tunnel. -/

namespace Sys2Proof.Machine

/-- OBJECT_WRITE (R424, R450): a write to any object, on any path. -/
def execObjectWrite (via : Via) (idx : BitVec 16) (sub : BitVec 8) (data : List Byte) (s : State) :
    Host.Outcome State Fault Refusal :=
  .next (served s via idx.toNat sub.toNat data (writeEffect via idx.toNat sub.toNat data))

/-- STAGED_WRITE (R431): a write to a staged object joins the session's staging set. -/
def execStagedWrite (via : Via) (idx : BitVec 16) (sub : BitVec 8) (data : List Byte) (s : State) :
    Host.Outcome State Fault Refusal :=
  .next (served s via idx.toNat sub.toNat data (writeEffect via idx.toNat sub.toNat data))

/-- COMMIT (R432): 0x01 written to [2020.01]. -/
def execCommit (via : Via) (s : State) : Host.Outcome State Fault Refusal :=
  .next (served s via 0x2020 1 [1] (fun n s => commitSet s n))

/-- DISCARD (R432): 0x02 written to [2020.01]. -/
def execDiscard (via : Via) (s : State) : Host.Outcome State Fault Refusal :=
  .next (served s via 0x2020 1 [2] (fun n s => .ok (discardSet s n)))

/-- LEVEL_REQUEST (R427): the level and its code written to [2010.03]. -/
def execLevelRequest (via : Via) (level : Byte) (code : BitVec 32) (s : State) : Host.Outcome State Fault Refusal :=
  let data := level :: leBytes 4 code.toNat
  .next (served s via 0x2010 3 data (fun n s => levelRequest s via n data))

/-- LEVEL_LOCKOUT_WINDOW (R429): the 60 s window of a path ends. -/
def execLevelLockoutWindow (path : Fin 6) (s : State) : Host.Outcome State Fault Refusal :=
  .next { s with mgmt := { s.mgmt with
    refusals := tabSet dNat s.mgmt.refusals path.val 0, lockedOut := tabSet dBool s.mgmt.lockedOut path.val false } }

/-- A Maintainer session drops to Operator (R428). -/
def dropMaintainer (x : Session) : Session :=
  if x.level = .maintainer then { x with level := .operator } else x

/-- MAINT_EN_HIGH (R428): staging sets are kept. -/
def execMaintEnHigh (s : State) : Host.Outcome State Fault Refusal :=
  let s := { s with mgmt := { s.mgmt with maintEnable := false } }
  .next ((List.range 16).foldl (fun s n => modSession s n dropMaintainer) s)

/-- MAINT_EN_LOW (R428). -/
def execMaintEnLow (s : State) : Host.Outcome State Fault Refusal :=
  .next { s with mgmt := { s.mgmt with maintEnable := true } }

/-- SESSION_IDLE_TIMEOUT (R430): only CAN and I3C sessions have an idle time. -/
def execSessionIdleTimeout (session : Fin 16) (s : State) : Host.Outcome State Fault Refusal :=
  .next (if 4 ≤ session.val then releaseSession s session.val else s)

/-- STORE_PARAMETERS (R439): the save signature written to [1010]. -/
def execStoreParameters (via : Via) (which : Fin 3) (s : State) : Host.Outcome State Fault Refusal :=
  .next (served s via 0x1010 (which.val + 1) (leBytes 4 0x65766173) (fun n s => storeWrite s n 0x65766173))

/-- RESTORE_DEFAULT_PARAMETERS (R439): the load signature written to [1011]. -/
def execRestoreDefaultParameters (via : Via) (which : Fin 3) (s : State) : Host.Outcome State Fault Refusal :=
  .next (served s via 0x1011 (which.val + 1) (leBytes 4 0x64616F6C) (fun _ s => restoreWrite s 0x64616F6C))

/-- ERROR_HISTORY_CLEAR (R446): 0 written to [1003.00]. -/
def execErrorHistoryClear (via : Via) (s : State) : Host.Outcome State Fault Refusal :=
  .next (served s via 0x1003 0 [0] (fun _ s => .ok (historyClear s)))

/-- MANAGEMENT_STATISTICS_CLEAR (R446): 0x01 written to [2042.01]. -/
def execManagementStatisticsClear (via : Via) (s : State) : Host.Outcome State Fault Refusal :=
  .next (served s via 0x2042 1 [1] (fun _ s => .ok (managementClear s)))

/-- A complete transfer of a client ends its segmented one (R435). -/
def endSegments (s : State) (via : Via) : State :=
  match canSession? s via with
  | some n => modSession s n (fun x => { x with segment := 0 })
  | none => s

/-- USDO_DOWNLOAD (R435). -/
def execUsdoDownload (node : BitVec 7) (idx : BitVec 16) (sub : BitVec 8) (data : List Byte) (s : State) :
    Host.Outcome State Fault Refusal :=
  let via := Via.can node
  .next (served (endSegments s via) via idx.toNat sub.toNat data (writeEffect via idx.toNat sub.toNat data))

/-- USDO_UPLOAD (R435). -/
def execUsdoUpload (node : BitVec 7) (idx : BitVec 16) (sub : BitVec 8) (s : State) :
    Host.Outcome State Fault Refusal :=
  let via := Via.can node
  .next (serveRead (endSegments s via) via 0 idx.toNat sub.toNat (fun n s => objectRead s n idx.toNat sub.toNat))

/-- USDO_SEGMENT (R435): a transfer goes on; its session is bound, as by any first request (R430). -/
def execUsdoSegment (node : BitVec 7) (idx : BitVec 16) (sub : BitVec 8) (s : State) :
    Host.Outcome State Fault Refusal :=
  let via := Via.can node
  if pathOpen s via then
    match sessionFor s via with
    | none => .next (rejectNoSession s via idx.toNat)
    | some (n, s) => .next (modSession s n (fun x => { x with segment := objKey idx.toNat sub.toNat + 1 }))
  else .next s

/-- USDO_SEGMENT_TIMEOUT (R433): the transfer in progress is aborted with detail code 0x2012. -/
def execUsdoSegmentTimeout (node : BitVec 7) (s : State) : Host.Outcome State Fault Refusal :=
  let via := Via.can node
  match canSession? s via with
  | none => .next s
  | some n =>
    let key := (sessionOf s n).segment
    if key = 0 then .next s
    else
      let s := endSegments s via
      .next (if pathOpen s via then reject s via n 0 0x2012 ((key - 1) / 256) ((key - 1) % 256) true else s)

/-- Leaving Pre-operational and Operational, where queued EMCYs are not sent (R438). -/
def leaveService (s : State) (state : Nmt) : State :=
  { s with mgmt := { s.mgmt with nmt := state, emcyQueue := [] } }

/-- NMT_START (R436). -/
def execNmtStart (_broadcast : Bool) (s : State) : Host.Outcome State Fault Refusal :=
  .next (if canUp s then { s with mgmt := { s.mgmt with nmt := .operational } } else s)

/-- NMT_STOP (R436). -/
def execNmtStop (_broadcast : Bool) (s : State) : Host.Outcome State Fault Refusal :=
  .next (if canUp s then leaveService s .stopped else s)

/-- NMT_ENTER_PRE_OPERATIONAL (R436). -/
def execNmtEnterPreOperational (_broadcast : Bool) (s : State) : Host.Outcome State Fault Refusal :=
  .next (if canUp s then { s with mgmt := { s.mgmt with nmt := .preOperational } } else s)

/-- A reset of the node (R436): sessions 4 to 11 are released, the CAN settings apply, and the node starts again. The event
holds the command and its node-ID field. -/
def nmtReset (s : State) (command : Nat) (broadcast : Bool) : State :=
  let field := if broadcast then 0 else s.mgmt.nodeId
  let s := releaseSessions (leaveService s .initialising) 4 8
  let s := { s with mgmt := { s.mgmt with emcyInhibited := false, syncCount := [] } }
  raise (nmtBoot (communicationSettings s)) 0x2008 (leBytes 1 command ++ leBytes 1 field)

/-- NMT_RESET_NODE (R436). -/
def execNmtResetNode (broadcast : Bool) (s : State) : Host.Outcome State Fault Refusal :=
  .next (if canUp s then nmtReset s 0x81 broadcast else s)

/-- NMT_RESET_COMMUNICATION (R436). -/
def execNmtResetCommunication (broadcast : Bool) (s : State) : Host.Outcome State Fault Refusal :=
  .next (if canUp s then nmtReset s 0x82 broadcast else s)

/-- A TPDO may be sent now (R435, R436, R443): in Operational, enabled, mapped, past its inhibit time of units of 100 µs, and
in Standby only where the AON responder serves every mapped object. -/
def tpdoReady (s : State) (t : Nat) : Bool :=
  let entries := mappedEntries s t
  let last := tabGet dNat s.mgmt.tpdoSent t
  canUp s && s.mgmt.nmt == .operational && decide (settingEff s (objKey (0x1800 + t) 1) < 2 ^ 31) && !entries.isEmpty
    && (last == 0 || decide (last - 1 + settingN s (0x1800 + t) 3 * 6400000 ≤ s.sys.time))
    && (s.sys.dev != .standby || entries.all (fun e => standbyServed (e / 65536) (e / 256 % 256)))

/-- The bytes of one mapped object; session 16 stands for no session (R444). -/
def tpdoBytes (s : State) (entry : Nat) : List Byte :=
  match objectRead s 16 (entry / 65536) (entry / 256 % 256) with
  | .ok r => r.1
  | .error _ => []

/-- Sends a TPDO where it may be sent (R435). -/
def tpdoSend (s : State) (t : Nat) : State :=
  if tpdoReady s t then
    let s := emit s (.can ((settingEff s (objKey (0x1800 + t) 1)).toNat % 2048) ((mappedEntries s t).flatMap (tpdoBytes s)))
    { s with mgmt := { s.mgmt with tpdoSent := tabSet dNat s.mgmt.tpdoSent t (s.sys.time + 1) } }
  else s

/-- A SYNC for one TPDO (R435): types 0x01 to 0xF0 send at every so many SYNCs. -/
def tpdoSync (s : State) (t : Nat) : State :=
  let every := settingN s (0x1800 + t) 2
  let n := tabGet dNat s.mgmt.syncCount t + 1
  if every ≤ 0xF0 then
    if every ≤ n then
      tpdoSend { s with mgmt := { s.mgmt with syncCount := tabSet dNat s.mgmt.syncCount t 0 } } t
    else { s with mgmt := { s.mgmt with syncCount := tabSet dNat s.mgmt.syncCount t n } }
  else s

/-- SYNC (R435). -/
def execSync (s : State) : Host.Outcome State Fault Refusal :=
  .next (if canUp s && s.mgmt.nmt == .operational then (List.range 8).foldl tpdoSync s else s)

/-- TPDO_EVENT_TIMER (R435): of a TPDO of type 0xFE or 0xFF. -/
def execTpdoEventTimer (tpdo : Fin 8) (s : State) : Host.Outcome State Fault Refusal :=
  let i := 0x1800 + tpdo.val
  .next (if settingN s i 2 < 0xFE ∨ settingN s i 5 = 0 then s else tpdoSend s tpdo.val)

/-- HEARTBEAT_PRODUCER (R435). -/
def execHeartbeatProducer (s : State) : Host.Outcome State Fault Refusal :=
  .next (if canUp s && settingN s 0x1017 0 != 0 then
    emit s (.can (0x700 + s.mgmt.nodeId) [BitVec.ofNat 8 (nmtNum s.mgmt.nmt)]) else s)

/-- Node-ID and time of a consumer heartbeat entry ([1016], R446). -/
def heartbeatEntry (s : State) (e : Nat) : Nat × Nat :=
  let v := settingN s 0x1016 (e + 1)
  (v / 65536 % 256, v % 65536)

/-- HEARTBEAT_RECEIVED (R437): the condition of every entry that watches the node clears. -/
def execHeartbeatReceived (node : BitVec 7) (s : State) : Host.Outcome State Fault Refusal :=
  .next (if canUp s then
    settleErrors ((List.range 4).foldl (fun s e =>
      if (heartbeatEntry s e).1 = node.toNat then
        { s with mgmt := { s.mgmt with heartbeatLost := tabSet dBool s.mgmt.heartbeatLost e false } }
      else s) s)
  else s)

/-- HEARTBEAT_TIMEOUT (R437): error register bit 4, event 0x2006 and EMCY 0x8130. -/
def execHeartbeatTimeout (entry : Fin 4) (s : State) : Host.Outcome State Fault Refusal :=
  let e := entry.val
  let watched := heartbeatEntry s e
  if settingB s 0x2001 1 && watched.2 != 0 && !tabGet dBool s.mgmt.heartbeatLost e then
    let s := { s with mgmt := { s.mgmt with heartbeatLost := tabSet dBool s.mgmt.heartbeatLost e true } }
    .next (settleErrors (raise s 0x2006 (leBytes 1 watched.1)))
  else .next s

/-- EMCY_INHIBIT_EXPIRY (R438). -/
def execEmcyInhibitExpiry (s : State) : Host.Outcome State Fault Refusal :=
  .next (emcyDrain { s with mgmt := { s.mgmt with emcyInhibited := false } })

/-- CAN_BUS_OFF (R438): the controller's transmit and receive error counts go into the event. -/
def execCanBusOff (tec rxErrors : Byte) (s : State) : Host.Outcome State Fault Refusal :=
  if canUp s then
    .next (raise { s with mgmt := { s.mgmt with canError := 2 } } 0x2007 [tec, rxErrors])
  else .next s

/-- CAN_BUS_OFF_RECOVERY (R438). -/
def execCanBusOffRecovery (s : State) : Host.Outcome State Fault Refusal :=
  .next (if s.mgmt.canError = 2 then emcyDrain { s with mgmt := { s.mgmt with canError := 0 } } else s)

/-- Makes a frame a session's readable response, with its IBI (R441). -/
def i3cReady (s : State) (f : Fin 4) (frame : List Byte) : State :=
  let s := modSession s (12 + f.val) (fun x => { x with response := frame })
  let s := { s with mgmt := { s.mgmt with i3cLast := some f } }
  if s.mgmt.ibiEnabled then emit s (.ibi (frame.headD 0)) else s

/-- A refused frame (R441): it binds no session; a bound one takes it in its reject record and as its response. -/
def i3cRefuse (s : State) (frame : List Byte) : State :=
  let tag := (frame.headD 0).toNat
  let f : Fin 4 := Fin.ofNat 4 (tag / 16)
  let answer := responseFrame tag 2 0 0x2008 []
  let s := bump s 0x2041 6 1
  if (sessionOf s (12 + f.val)).client.isSome then
    i3cReady (modSession s (12 + f.val) (fun x =>
      { x with lastDetail := 0x2008, lastAbort := 0, lastObject := 0, rejectCount := x.rejectCount + 1 })) f answer
  else { s with mgmt := { s.mgmt with i3cRefusal := answer } }

/-- A request frame is well formed (R440, R441). -/
def frameOk (frame : List Byte) : Bool :=
  let op := numAt frame 1 1
  decide (11 ≤ frame.length ∧ frame.length = 11 + numAt frame 5 2) && numAt frame 0 1 / 64 == 1
    && (op == 1 || op == 2) && crcOk frame

/-- The request of operation, index, subindex, length and data that a frame or a tunnel payload carries from offset `k`
(R440, R442). -/
def dictionaryRequest (s : State) (via : Via) (tag : Nat) (bs : List Byte) (k : Nat) : State :=
  let idx := numAt bs (k + 1) 2
  let sub := numAt bs (k + 3) 1
  let data := bytesAt bs (k + 6) (numAt bs (k + 4) 2)
  if numAt bs k 1 = 1 then serveRead s via tag idx sub (fun n s => objectRead s n idx sub)
  else serveTagged s via tag idx sub data (writeEffect via idx sub data)

/-- A well-formed frame is executed (R441); once served, it is the session's last served request. -/
def i3cExecute (s : State) (f : Fin 4) (frame : List Byte) : State :=
  let s := dictionaryRequest s (.i3c f) (numAt frame 0 1) frame 1
  let response := (sessionOf s (12 + f.val)).response
  if numAt response 1 1 = 0 ∧ response ≠ [] then
    modSession s (12 + f.val) (fun x =>
      { x with lastServed := some (numAt frame 0 1, numAt frame (frame.length - 4) 4, response) })
  else s

/-- I3C_REQUEST (R441): refused, answered from the stored response, or executed. Without its address the target does not
answer. -/
def execI3cRequest (frame : List Byte) (s : State) : Host.Outcome State Fault Refusal :=
  let f : Fin 4 := Fin.ofNat 4 ((frame.headD 0).toNat / 16)
  if pathOpen s (.i3c f) = false then .next (emit s .i3cNack)
  else if frameOk frame = false then .next (i3cRefuse s frame)
  else
    match (sessionOf s (12 + f.val)).lastServed with
    | some (tag, check, response) =>
      if tag = numAt frame 0 1 ∧ check = numAt frame (frame.length - 4) 4 then .next (i3cReady s f response)
      else .next (i3cExecute s f frame)
    | none => .next (i3cExecute s f frame)

/-- The response of the session of the last request, where it is readable (R441). -/
def i3cResponse (s : State) : List Byte :=
  match s.mgmt.i3cLast with
  | some f => (sessionOf s (12 + f.val)).response
  | none => []

/-- I3C_RESPONSE_READ (R441): a refusal held for the path comes first. -/
def execI3cResponseRead (s : State) : Host.Outcome State Fault Refusal :=
  if pathOpen s (.i3c 0) = false then .next (emit s .i3cNack)
  else if s.mgmt.i3cRefusal ≠ [] then
    .next { emit s (.i3cData s.mgmt.i3cRefusal) with mgmt := { s.mgmt with i3cRefusal := [] } }
  else if i3cResponse s ≠ [] then .next (emit s (.i3cData (i3cResponse s)))
  else .next (emit s .i3cNack)

/-- The I3C target runs (R440, [2002.01]). -/
def i3cOn (s : State) : Bool :=
  settingB s 0x2002 1

/-- ENEC (R440). -/
def execEnec (s : State) : Host.Outcome State Fault Refusal :=
  .next (if i3cOn s then { s with mgmt := { s.mgmt with ibiEnabled := true } } else s)

/-- DISEC (R440). -/
def execDisec (s : State) : Host.Outcome State Fault Refusal :=
  .next (if i3cOn s then { s with mgmt := { s.mgmt with ibiEnabled := false } } else s)

/-- RSTDAA (R430, R440, R446): the address is lost, the I3C sessions are released and the I3C settings apply. -/
def execRstdaa (s : State) : Host.Outcome State Fault Refusal :=
  .next (if i3cOn s then
    let s := releaseSessions s 12 4
    { s with mgmt := { s.mgmt with
      dynamicAddress := 0, i3cLast := none, i3cRefusal := [],
      staticAddress := settingN s 0x2002 2, instanceId := settingN s 0x2002 6 } }
  else s)

/-- The provisional ID (R440), most significant byte first (log entry 39). -/
def provisionalId (s : State) : List Byte :=
  (leBytes 6 (0x0A5C * 2 ^ 33 + 0x7480 * 2 ^ 16 + s.mgmt.instanceId * 2 ^ 12)).reverse

/-- Takes a dynamic address. -/
def takeAddress (s : State) (address : BitVec 7) : State :=
  { s with mgmt := { s.mgmt with dynamicAddress := address.toNat } }

/-- ENTDAA (R440): a target without an address offers its provisional ID, BCR and DCR and takes the address given. -/
def execEntdaa (address : BitVec 7) (s : State) : Host.Outcome State Fault Refusal :=
  .next (if i3cOn s && s.mgmt.dynamicAddress == 0 && address != 0 then
    takeAddress (emit s (.ccc (provisionalId s ++ [0x06, 0x00]))) address else s)

/-- SETDASA (R440): addressed by the static address. -/
def execSetdasa (address : BitVec 7) (s : State) : Host.Outcome State Fault Refusal :=
  .next (if i3cOn s && s.mgmt.dynamicAddress == 0 && address != 0 then takeAddress s address else s)

/-- SETNEWDA (R440). -/
def execSetnewda (address : BitVec 7) (s : State) : Host.Outcome State Fault Refusal :=
  .next (if i3cOn s && s.mgmt.dynamicAddress != 0 && address != 0 then takeAddress s address else s)

/-- A directed GET CCC (R440): not acknowledged without the dynamic address. -/
def getCcc (s : State) (data : List Byte) : State :=
  if i3cOn s && s.mgmt.dynamicAddress != 0 then emit s (.ccc data) else emit s .i3cNack

/-- GETPID (R440). -/
def execGetpid (s : State) : Host.Outcome State Fault Refusal :=
  .next (getCcc s (provisionalId s))

/-- GETBCR (R440). -/
def execGetbcr (s : State) : Host.Outcome State Fault Refusal :=
  .next (getCcc s [0x06])

/-- GETDCR (R440). -/
def execGetdcr (s : State) : Host.Outcome State Fault Refusal :=
  .next (getCcc s [0x00])

/-- GETSTATUS (R440): two bytes the spec does not give (log entry 39). -/
def execGetstatus (s : State) : Host.Outcome State Fault Refusal :=
  .next (afterOutside (getCcc s (padTo 2 (Config.answerBytes 0x90 s.path.frees))))

/-- GETMWL (R440): 288 bytes. -/
def execGetmwl (s : State) : Host.Outcome State Fault Refusal :=
  .next (getCcc s [0x01, 0x20])

/-- GETMRL (R440): 288 bytes. -/
def execGetmrl (s : State) : Host.Outcome State Fault Refusal :=
  .next (getCcc s [0x01, 0x20])

/-- A malformed tunnel payload (R442): Invalid Input, and the reject record of the port's session takes 0x2008. -/
def tunnelRefuse (s : State) (port : Port) : State :=
  let via := Via.mailbox port
  match sessionFor s via with
  | none => s
  | some (n, s) =>
    let s := modSession s n (fun x =>
      { x with lastDetail := 0x2008, lastAbort := 0, lastObject := 0, rejectCount := x.rejectCount + 1 })
    mailboxDone s port.val 0xC000 rcInvalid []

/-- DICTIONARY_REQUEST (R442): the payload is a request frame from its operation to its data. -/
def execDictionaryRequest (port : Port) (payload : List Byte) (s : State) : Host.Outcome State Fault Refusal :=
  let op := numAt payload 0 1
  if pathOpen s (.mailbox port) = false then .next s
  else if payload.length = 6 + numAt payload 4 2 ∧ (op = 1 ∨ op = 2) then
    .next (dictionaryRequest s (.mailbox port) 0 payload 0)
  else .next (tunnelRefuse s port)

end Sys2Proof.Machine
end

