-- ==== Sys2Proof/Machine/Secure.lean ====
section
/-! DEFINITION. Machine/Secure.lean: SPDM, IDE key management and IDE integrity failures of a port (R301, R302). Codes of
messages are those of the SPDM and IDE specifications (log entry 17); what a message carries beyond the spec's words is a
constant of Config. -/

namespace Sys2Proof.Machine

/-- Answers an SPDM request with a response code and payload. -/
def spdmAnswer (s : State) (p code : Nat) (payload : List Byte) : State :=
  emit s (.spdm (Fin.ofNat 4 p) code payload)

/-- The ERROR response, Unexpected Request. -/
def spdmError (s : State) (p : Nat) : State :=
  spdmAnswer s p 0x7F [4]

/-- How far the responder has come. -/
def spdmRank : SpdmState → Nat
  | .idle => 0
  | .versioned => 1
  | .capable => 2
  | .negotiated => 3
  | .handshake => 4
  | .session => 5

/-- Serves an SPDM request in the responder states `lo` to `hi`; the response's content is the part's, by code and draw. -/
def spdmServe (s : State) (port : Port) (lo hi : Nat) (f : State → Nat → State) : Host.Outcome State Fault Refusal :=
  let p := port.val
  let r := spdmRank (portOf s p).spdm
  if linkUp s p = false then .next s
  else if lo ≤ r ∧ r ≤ hi then .next (f s p)
  else .next (spdmError s p)

/-- The part's answer content. -/
def spdmContent (s : State) (code : Nat) : List Byte :=
  Config.answerBytes (0x10000 + code) s.draws

/-- Moves the responder on. -/
def spdmMove (s : State) (p : Nat) (x : SpdmState) : State :=
  modPort s p (fun r => { r with spdm := x })

/-- SPDM_GET_VERSION (R301): version 1.2; the responder starts anew. -/
def execSpdmGetVersion (port : Port) (s : State) : Host.Outcome State Fault Refusal :=
  spdmServe s port 0 5 (fun s p => spdmAnswer (spdmMove s p .versioned) p 4 [0, 1, 0x00, 0x12])

/-- SPDM_GET_CAPABILITIES (R301). -/
def execSpdmGetCapabilities (port : Port) (s : State) : Host.Outcome State Fault Refusal :=
  spdmServe s port 1 1 (fun s p => spdmAnswer (spdmMove s p .capable) p 0x61 (spdmContent s 0x61))

/-- SPDM_NEGOTIATE_ALGORITHMS (R301): ECDSA P-384, SHA-384, secp384r1, AES-256-GCM. -/
def execSpdmNegotiateAlgorithms (port : Port) (s : State) : Host.Outcome State Fault Refusal :=
  spdmServe s port 2 2 (fun s p => spdmAnswer (spdmMove s p .negotiated) p 0x63 (spdmContent s 0x63))

/-- SPDM_GET_DIGESTS (R301). -/
def execSpdmGetDigests (port : Port) (s : State) : Host.Outcome State Fault Refusal :=
  spdmServe s port 3 5 (fun s p => spdmAnswer s p 1 (Config.answerBytes 0x10001 0))

/-- SPDM_GET_CERTIFICATE (R301): the chain of slot 0. -/
def execSpdmGetCertificate (port : Port) (offset length : BitVec 16) (s : State) : Host.Outcome State Fault Refusal :=
  spdmServe s port 3 5 (fun s p =>
    spdmAnswer s p 2 (bytesAt (Config.answerBytes 0x10002 0) offset.toNat length.toNat))

/-- SPDM_CHALLENGE (R301): a signed response. -/
def execSpdmChallenge (port : Port) (s : State) : Host.Outcome State Fault Refusal :=
  spdmServe s port 3 3 (fun s p => afterDraw (spdmAnswer s p 3 (spdmContent s 3)))

/-- The measurement blocks (R301): mask-ROM identity, fuse configuration, hash of the active parameter copy. -/
def measurementBlocks (s : State) : List (List Byte) :=
  [leBytes 4 Config.maskRomRevision.toNat, leBytes 4 Config.fuseConfiguration.toNat,
   Config.sha384 ((List.range 9).flatMap (sectionContent s))]

/-- SPDM_GET_MEASUREMENTS (R301): block 1 to 3, 0 their number, 0xFF all. -/
def execSpdmGetMeasurements (port : Port) (block : Byte) (s : State) : Host.Outcome State Fault Refusal :=
  spdmServe s port 3 5 (fun s p =>
    let bs := measurementBlocks s
    let b := block.toNat
    if b = 0 then spdmAnswer s p 0x60 [3]
    else if b = 0xFF then spdmAnswer s p 0x60 (bs.flatten)
    else if b ≤ 3 then spdmAnswer s p 0x60 (bs.getD (b - 1) [])
    else spdmAnswer s p 0x7F [1])

/-- SPDM_KEY_EXCHANGE (R301): begins a session. -/
def execSpdmKeyExchange (port : Port) (s : State) : Host.Outcome State Fault Refusal :=
  spdmServe s port 3 3 (fun s p => afterDraw (spdmAnswer (spdmMove s p .handshake) p 0x64 (spdmContent s 0x64)))

/-- SPDM_FINISH (R301): completes the handshake when the requester's proof verifies. -/
def execSpdmFinish (port : Port) (s : State) : Host.Outcome State Fault Refusal :=
  spdmServe s port 4 4 (fun s p =>
    let ok := Config.spdmAccepts 0xE5 s.draws
    let s := afterDraw s
    if ok then spdmAnswer (spdmMove s p .session) p 0x65 (spdmContent s 0x65)
    else spdmAnswer (spdmMove s p .negotiated) p 0x7F [6])

/-- SPDM_HEARTBEAT (R301). -/
def execSpdmHeartbeat (port : Port) (s : State) : Host.Outcome State Fault Refusal :=
  spdmServe s port 5 5 (fun s p => spdmAnswer s p 0x68 [])

/-- SPDM_KEY_UPDATE (R301). -/
def execSpdmKeyUpdate (port : Port) (operation tag : Byte) (s : State) : Host.Outcome State Fault Refusal :=
  spdmServe s port 5 5 (fun s p => spdmAnswer s p 0x69 [operation, tag])

/-- SPDM_END_SESSION (R301). -/
def execSpdmEndSession (port : Port) (s : State) : Host.Outcome State Fault Refusal :=
  spdmServe s port 5 5 (fun s p => spdmAnswer (spdmMove s p .negotiated) p 0x6C [])

/-- SPDM_VENDOR_DEFINED_REQUEST (R301). -/
def execSpdmVendorDefinedRequest (port : Port) (s : State) : Host.Outcome State Fault Refusal :=
  spdmServe s port 3 5 (fun s p => spdmAnswer s p 0x7E (spdmContent s 0x7E))

/-- IDE_KM_QUERY (R301): within a session. -/
def execIdeKmQuery (port : Port) (s : State) : Host.Outcome State Fault Refusal :=
  spdmServe s port 5 5 (fun s p => spdmAnswer s p 0x101 (Config.answerBytes 0x20001 0))

/-- Place of a stream key: CXL.cachemem 0 and 1, CXL.io 2 and 3; receive, then transmit. -/
def ideSlot (io transmit : Bool) : Nat :=
  2 * bnat io + bnat transmit

/-- IDE_KM_KEY_PROG (R301): programs one direction of a stream. -/
def execIdeKmKeyProg (port : Port) (io transmit : Bool) (key : BitVec 256) (s : State) :
    Host.Outcome State Fault Refusal :=
  spdmServe s port 5 5 (fun s p =>
    spdmAnswer (modPort s p (fun x =>
      { x with ideKeys := tabSet (fun _ => []) x.ideKeys (ideSlot io transmit) (leBytes 32 key.toNat) })) p 0x103 [0])

/-- Both directions of a stream have keys. -/
def ideReady (x : PortRec) (io : Bool) : Bool :=
  tabGet (fun _ => []) x.ideKeys (ideSlot io false) != [] && tabGet (fun _ => []) x.ideKeys (ideSlot io true) != []

/-- IDE_KM_K_SET_GO (R301, R303): the stream comes into force; CXL.cachemem in containment or skid mode. -/
def execIdeKmKSetGo (port : Port) (io skid : Bool) (s : State) : Host.Outcome State Fault Refusal :=
  spdmServe s port 5 5 (fun s p =>
    if ideReady (portOf s p) io then
      spdmAnswer (modPort s p (fun x =>
        if io then { x with ideIo := true } else { x with ide := if skid then 2 else 1 })) p 0x106 []
    else spdmAnswer s p 0x7F [1])

/-- IDE_KM_K_SET_STOP (R301): the stream ends and its keys go. -/
def execIdeKmKSetStop (port : Port) (io : Bool) (s : State) : Host.Outcome State Fault Refusal :=
  spdmServe s port 5 5 (fun s p =>
    spdmAnswer (modPort s p (fun x =>
      let keys := tabSet (fun _ => []) (tabSet (fun _ => []) x.ideKeys (ideSlot io false) []) (ideSlot io true) []
      if io then { x with ideIo := false, ideKeys := keys } else { x with ide := 0, ideKeys := keys })) p 0x106 [])

/-- IDE_KM_GETKEY (R301): a key the device generates for its transmit direction. -/
def execIdeKmGetkey (port : Port) (io : Bool) (s : State) : Host.Outcome State Fault Refusal :=
  spdmServe s port 5 5 (fun s p =>
    let key := leBytes 32 (drawn s 256)
    let s := afterDraw s
    spdmAnswer (modPort s p (fun x =>
      { x with ideKeys := tabSet (fun _ => []) x.ideKeys (ideSlot io true) key })) p 0x108 key)

/-- IDE_INTEGRITY_FAILURE (R302): `lines` are the lines that writes of the failing epoch changed and that no later full-line
write of another requester has replaced. -/
def execIdeIntegrityFailure (port : Port) (lines : List LineAddr) (s : State) : Host.Outcome State Fault Refusal :=
  let p := port.val
  let mode := (portOf s p).ide
  if linkUp s p = false ∨ (mode ≠ 1 ∧ mode ≠ 2) then .next s
  else
    let hit := if mode = 2 then lines.map (·.toNat) else []
    let s := hit.foldl (fun s l =>
      mediaEvent (performWrite s { line := l, who := .clear p, port := p, mask := fullMask, data := 0, poison := true,
                                   arrival := s.sys.time }) 1 l) s
    let s := modPort s p (fun x => { x with ide := 3, ideIo := false, ideKeys := [] })
    let s := raise (bump s (0x2B20 + p) 8 1) 0x2B04 (leBytes 1 p ++ leBytes 1 mode ++ satBytes 4 hit.length)
    .next (portDown s p 0 false)

end Sys2Proof.Machine
end

