-- ==== Sys2Proof/Machine/Shutdown.lean ====
section
/-! DEFINITION. Machine/Shutdown.lean: the input comparator (R355), the warn window and its withdrawal (R372), quiesce
(R373), the beginning and the limit of Varnish (R374), and a brown-out of the core (R347). -/

namespace Sys2Proof.Machine

/-- VIN_BELOW_WARN (R355, R115, R21): the reserve is isolated and the device enters Warn; in Standby only the isolation. -/
def execVinBelowWarn (s : State) : Host.Outcome State Fault Refusal :=
  .next (enterWarn (isolate { s with power := { s.power with vinGood := false } }) 1)

/-- VIN_GOOD (R355): the delays of R362 and R372 that count from here end in commands of their own (log entry 10). -/
def execVinGood (s : State) : Host.Outcome State Fault Refusal :=
  .next { s with power := { s.power with vinGood := true } }

/-- Time in Warn so far, in µs. -/
def warnTime (s : State) : Nat :=
  (s.sys.time - s.sys.warnAt) / 64000

/-- A warning of cause 1 may be withdrawn now (R372): VIN is good, and the moment lies strictly before t_warn. -/
def mayWithdraw (s : State) : Bool :=
  s.sys.dev == .warn && s.sys.warnCause == 1 && s.power.vinGood && !s.sys.quiescing
    && decide (s.sys.time - s.sys.warnAt < s.reserve.warnWindow * 64000)

/-- RIDE_THROUGH_QUALIFIED (R372): ISO_G on, PFW_N released where it was before the warning, B published from the present
VRES sample, the shares unfrozen, and the state the warning was entered from taken up again. A first measurement of the bank
that the isolation cut short begins anew. -/
def execRideThroughQualified (s : State) : Host.Outcome State Fault Refusal :=
  if mayWithdraw s then
    let us := warnTime s
    let s := { s with power := { s.power with isoOn := true, pfwLow := !s.sys.memoryActive },
                      reserve := { s.reserve with frozen := false } }
    let s := if s.reserve.ramp = .none ∨ s.reserve.ramp = .bleeding then s else rampStart s
    let s := enterState (recompute s s.reserve.vres) s.sys.warnFrom
    .next (raise (tallyAdd (bump s 0x2F00 0x0E 1) 157) 0x2F02 (satBytes 4 us))
  else .next s

/-- The writes among requests that wait behind a round. -/
def onlyWrites (qs : List LineRequest) : List LineRequest :=
  qs.filter (fun q => match q with
    | .read _ => false
    | .write _ => true)

/-- An outstanding snoop round at quiesce (R373): its responses are taken as BIRspI with no fence, and reads that wait on it
are dropped. -/
def dropRound (s : State) (r : SnoopRound) : State :=
  let s := r.waiting.foldl (fun s q => holderAnswer s r.line q 0) s
  match r.request with
  | some (.read _) =>
    let left := s.directory.rounds.filter (fun x => x.line != r.line)
    resumeBehind { s with directory := { s.directory with rounds := left } } (onlyWrites r.behind)
  | _ => endRound s { r with waiting := [], behind := onlyWrites r.behind }

/-- Ends every round, with those that the writes behind them start. -/
def dropRounds : Nat → State → State
  | 0, s => s
  | fuel + 1, s =>
    match s.directory.rounds with
    | [] => s
    | r :: _ => dropRounds fuel (dropRound s r)

/-- WARN_WINDOW_END (R373): CXL.mem requests are taken no more, held writes are discarded, snoop rounds are over. -/
def execWarnWindowEnd (s : State) : Host.Outcome State Fault Refusal :=
  if s.sys.dev = .warn ∧ s.sys.quiescing = false then
    let s := { s with sys := { s.sys with quiescing := true } }
    let s := (List.range 4).foldl (fun s p => modPort s p (fun x => { x with held := [] })) s
    .next (dropRounds (s.directory.rounds.foldl (fun n r => n + 1 + r.behind.length) 0) s)
  else .next s

/-- A request, a Barrow beat, a locked sequence or a fill is in flight (R373). -/
def inFlight (s : State) : Bool :=
  !s.easel.reads.isEmpty || !s.easel.waits.isEmpty || !s.easel.acks.isEmpty || !s.easel.mergeWait.isEmpty
    || (List.range 16).any (fun c => !(barrowOf s c).loads.isEmpty) || !s.crypt.glaze.units.isEmpty
    || (List.range 8).any (fun g =>
      let x := groupOf s g
      x.gapJob.isSome || x.remapJob.isSome || x.arb.lock.isSome || x.pages.any (fun j => j.ready))

/-- Scratch lines of Recovery and Test are discarded and their charges released (R374). -/
def discardScratch (s : State) : State :=
  (s.easel.lines.map (·.1)).foldl (fun s p =>
    let s := chargeLine s p (easelLine s p).share 0
    modLine (setMerge (destageRemove s p) p 0#64) p (fun _ => {})) s

/-- Varnish begins (R373, R374); tagged requests that quiesce has dropped are counted (R460). The state the warning came from can
be returned to no more, so its ephemeral key is zeroised (R207). -/
def startVarnish (s : State) : State :=
  let s := dropSamples s
  let s := (List.range 8).foldl (fun s g => modGroup s g (fun x => { x with closed := false })) s
  let s := match s.sys.warnFrom with
    | .recovery | .test => discardScratch s
    | _ => s
  let s := enterState { s with crypt := { s.crypt with ephemeral := [] }, sys := { s.sys with varnishAt := s.sys.time, varnishItem := 1 } } .varnish
  varnishAdvance 5 s

/-- QUIESCE_COMPLETE (R373). -/
def execQuiesceComplete (s : State) : Host.Outcome State Fault Refusal :=
  if s.sys.dev = .warn ∧ s.sys.quiescing = true ∧ inFlight s = false then .next (startVarnish s) else .next s

/-- QUIESCE_LIMIT (R373): 50 µs after t_warn; Barrow host beats still in flight have failed. -/
def execQuiesceLimit (s : State) : Host.Outcome State Fault Refusal :=
  if s.sys.dev = .warn ∧ s.sys.quiescing = true then .next (startVarnish ((List.range 16).foldl hostBeatsFail s))
  else .next s

/-- VARNISH_LIMIT (R374): 2.0 ms after the beginning, with items unwritten. -/
def execVarnishLimit (s : State) : Host.Outcome State Fault Refusal :=
  if s.sys.dev = .varnish then .next (varnishEnd s 1) else .next s

/-- CORE_BROWN_OUT (R347): the core and Easel logic are held in reset, so charged lines are lost and Varnish cannot run. -/
def execCoreBrownOut (s : State) : Host.Outcome State Fault Refusal :=
  if (railOf s 0).enabled then
    let s := coreReset s
    .next { s with sys := { s.sys with coreLost := true } }
  else .next s

end Sys2Proof.Machine
end

