-- ==== Sys2Proof/Machine/Dispatch.lean ====
section
/-! DEFINITION. Machine/Dispatch.lean: the meaning of every command, one arm per constructor of Instr. -/

namespace Sys2Proof.Machine

/-- The effect of one command on the state (everything but the queue of waiting commands). -/
def exec (i : Instr) (s : State) : Host.Outcome State Fault Refusal :=
  match i with
  | .objectWrite via idx sub data => Sys2Proof.Machine.execObjectWrite via idx sub data s
  | .stagedWrite via idx sub data => Sys2Proof.Machine.execStagedWrite via idx sub data s
  | .commit via => Sys2Proof.Machine.execCommit via s
  | .discard via => Sys2Proof.Machine.execDiscard via s
  | .levelRequest via level code => Sys2Proof.Machine.execLevelRequest via level code s
  | .levelLockoutWindow path => Sys2Proof.Machine.execLevelLockoutWindow path s
  | .maintEnHigh => Sys2Proof.Machine.execMaintEnHigh s
  | .sessionIdleTimeout session => Sys2Proof.Machine.execSessionIdleTimeout session s
  | .storeParameters via which => Sys2Proof.Machine.execStoreParameters via which s
  | .restoreDefaultParameters via which => Sys2Proof.Machine.execRestoreDefaultParameters via which s
  | .usdoDownload node idx sub data => Sys2Proof.Machine.execUsdoDownload node idx sub data s
  | .usdoUpload node idx sub => Sys2Proof.Machine.execUsdoUpload node idx sub s
  | .usdoSegmentTimeout node => Sys2Proof.Machine.execUsdoSegmentTimeout node s
  | .nmtStart _broadcast => Sys2Proof.Machine.execNmtStart _broadcast s
  | .nmtStop _broadcast => Sys2Proof.Machine.execNmtStop _broadcast s
  | .nmtEnterPreOperational _broadcast => Sys2Proof.Machine.execNmtEnterPreOperational _broadcast s
  | .nmtResetNode broadcast => Sys2Proof.Machine.execNmtResetNode broadcast s
  | .nmtResetCommunication broadcast => Sys2Proof.Machine.execNmtResetCommunication broadcast s
  | .sync => Sys2Proof.Machine.execSync s
  | .tpdoEventTimer tpdo => Sys2Proof.Machine.execTpdoEventTimer tpdo s
  | .heartbeatProducer => Sys2Proof.Machine.execHeartbeatProducer s
  | .heartbeatReceived node => Sys2Proof.Machine.execHeartbeatReceived node s
  | .heartbeatTimeout entry => Sys2Proof.Machine.execHeartbeatTimeout entry s
  | .emcyInhibitExpiry => Sys2Proof.Machine.execEmcyInhibitExpiry s
  | .canBusOff tec rxErrors => Sys2Proof.Machine.execCanBusOff tec rxErrors s
  | .errorHistoryClear via => Sys2Proof.Machine.execErrorHistoryClear via s
  | .i3cRequest frame => Sys2Proof.Machine.execI3cRequest frame s
  | .i3cResponseRead => Sys2Proof.Machine.execI3cResponseRead s
  | .enec => Sys2Proof.Machine.execEnec s
  | .disec => Sys2Proof.Machine.execDisec s
  | .rstdaa => Sys2Proof.Machine.execRstdaa s
  | .entdaa address => Sys2Proof.Machine.execEntdaa address s
  | .setdasa address => Sys2Proof.Machine.execSetdasa address s
  | .setnewda address => Sys2Proof.Machine.execSetnewda address s
  | .getpid => Sys2Proof.Machine.execGetpid s
  | .getbcr => Sys2Proof.Machine.execGetbcr s
  | .getdcr => Sys2Proof.Machine.execGetdcr s
  | .getstatus => Sys2Proof.Machine.execGetstatus s
  | .getmwl => Sys2Proof.Machine.execGetmwl s
  | .getmrl => Sys2Proof.Machine.execGetmrl s
  | .dictionaryRequest port payload => Sys2Proof.Machine.execDictionaryRequest port payload s
  | .managementStatisticsClear via => Sys2Proof.Machine.execManagementStatisticsClear via s
  | .aonPor torn => Sys2Proof.Machine.execAonPor torn s
  | .crystalSwitch offset => Sys2Proof.Machine.execCrystalSwitch offset s
  | .crystalLost => Sys2Proof.Machine.execCrystalLost s
  | .vinBelowWarn => Sys2Proof.Machine.execVinBelowWarn s
  | .vinGood => Sys2Proof.Machine.execVinGood s
  | .rideThroughQualified => Sys2Proof.Machine.execRideThroughQualified s
  | .warnWindowEnd => Sys2Proof.Machine.execWarnWindowEnd s
  | .quiesceComplete => Sys2Proof.Machine.execQuiesceComplete s
  | .quiesceLimit => Sys2Proof.Machine.execQuiesceLimit s
  | .varnishLimit => Sys2Proof.Machine.execVarnishLimit s
  | .stopOrderStep => Sys2Proof.Machine.execStopOrderStep s
  | .epilogueLimit => Sys2Proof.Machine.execEpilogueLimit s
  | .primingStart => Sys2Proof.Machine.execPrimingStart s
  | .rampHoldEnd fallUv => Sys2Proof.Machine.execRampHoldEnd fallUv s
  | .folioRecallComplete linear => Sys2Proof.Machine.execFolioRecallComplete linear s
  | .pgTickSample high lowLatch => Sys2Proof.Machine.execPgTickSample high lowLatch s
  | .railQualified rail => Sys2Proof.Machine.execRailQualified rail s
  | .domainStagger domain => Sys2Proof.Machine.execDomainStagger domain s
  | .railStartFailure rail => Sys2Proof.Machine.execRailStartFailure rail s
  | .sequenceTimeout rail => Sys2Proof.Machine.execSequenceTimeout rail s
  | .startStepOvertime => Sys2Proof.Machine.execStartStepOvertime s
  | .channelTraining domain => Sys2Proof.Machine.execChannelTraining domain s
  | .channelTrainingComplete channel identity serial storedFail fullFail settings => Sys2Proof.Machine.execChannelTrainingComplete channel identity serial storedFail fullFail settings s
  | .anchorsAndRegionState errs survey => Sys2Proof.Machine.execAnchorsAndRegionState errs survey s
  | .journalReplay errs => Sys2Proof.Machine.execJournalReplay errs s
  | .selfTest results => Sys2Proof.Machine.execSelfTest results s
  | .memoryActive => Sys2Proof.Machine.execMemoryActive s
  | .treeReanchor => Sys2Proof.Machine.execTreeReanchor s
  | .treeReanchorEnd => Sys2Proof.Machine.execTreeReanchorEnd s
  | .restartRequest via => Sys2Proof.Machine.execRestartRequest via s
  | .selfTestRequest via results => Sys2Proof.Machine.execSelfTestRequest via results s
  | .startRequest via => Sys2Proof.Machine.execStartRequest via s
  | .pbtnAction => Sys2Proof.Machine.execPbtnAction s
  | .mrAction => Sys2Proof.Machine.execMrAction s
  | .pgLoss rail => Sys2Proof.Machine.execPgLoss rail s
  | .pgGlitchEnd rail => Sys2Proof.Machine.execPgGlitchEnd rail s
  | .pgDropTimeout rail => Sys2Proof.Machine.execPgDropTimeout rail s
  | .domainOffCoreRails domain => Sys2Proof.Machine.execDomainOffCoreRails domain s
  | .dischargeTimeout rail => Sys2Proof.Machine.execDischargeTimeout rail s
  | .adcSample point value => Sys2Proof.Machine.execAdcSample point value s
  | .budgetUpdate => Sys2Proof.Machine.execBudgetUpdate s
  | .reserveChargeTimeout late => Sys2Proof.Machine.execReserveChargeTimeout late s
  | .measureInterval => Sys2Proof.Machine.execMeasureInterval s
  | .measureRequest via => Sys2Proof.Machine.execMeasureRequest via s
  | .measurementStart => Sys2Proof.Machine.execMeasurementStart s
  | .measurementSinkOn => Sys2Proof.Machine.execMeasurementSinkOn s
  | .measurementEnd stepUv fallUv => Sys2Proof.Machine.execMeasurementEnd stepUv fallUv s
  | .reserveDisable via => Sys2Proof.Machine.execReserveDisable via s
  | .reserveEnable via => Sys2Proof.Machine.execReserveEnable via s
  | .pmbusTelemetry answers => Sys2Proof.Machine.execPmbusTelemetry answers s
  | .pmbusAlert address statusWord => Sys2Proof.Machine.execPmbusAlert address statusWord s
  | .pmbusUnreachableEnd rail => Sys2Proof.Machine.execPmbusUnreachableEnd rail s
  | .marginNominal via acknowledged => Sys2Proof.Machine.execMarginNominal via acknowledged s
  | .marginLow via acknowledged => Sys2Proof.Machine.execMarginLow via acknowledged s
  | .marginHigh via acknowledged => Sys2Proof.Machine.execMarginHigh via acknowledged s
  | .domainRestart via domain => Sys2Proof.Machine.execDomainRestart via domain s
  | .supervisionStatisticsClear via => Sys2Proof.Machine.execSupervisionStatisticsClear via s
  | .thermalScan readings => Sys2Proof.Machine.execThermalScan readings s
  | .riseWindow => Sys2Proof.Machine.execRiseWindow s
  | .temperatureWindow answers => Sys2Proof.Machine.execTemperatureWindow answers s
  | .zqInterval => Sys2Proof.Machine.execZqInterval s
  | .maintenanceWake group answers => Sys2Proof.Machine.execMaintenanceWake group answers s
  | .deepSleepEnableWrite via value => Sys2Proof.Machine.execDeepSleepEnableWrite via value s
  | .thermalStatisticsClear via => Sys2Proof.Machine.execThermalStatisticsClear via s
  | .lightSleepEntry group => Sys2Proof.Machine.execLightSleepEntry group s
  | .deepSleepEntry group => Sys2Proof.Machine.execDeepSleepEntry group s
  | .deepSleepWake group => Sys2Proof.Machine.execDeepSleepWake group s
  | .deepSleepExitDone group => Sys2Proof.Machine.execDeepSleepExitDone group s
  | .hostRead port tag address metaValue upset also => Sys2Proof.Machine.execHostRead port tag address metaValue upset also s
  | .hostWrite port tag address metaValue data poison upset also => Sys2Proof.Machine.execHostWrite port tag address metaValue data poison upset also s
  | .partialWrite port tag address metaValue mask data poison upset also => Sys2Proof.Machine.execPartialWrite port tag address metaValue mask data poison upset also s
  | .heldWriteTakeIn port => Sys2Proof.Machine.execHeldWriteTakeIn port s
  | .biSnoopResponse port line answer => Sys2Proof.Machine.execBiSnoopResponse port line answer s
  | .biConflict port line => Sys2Proof.Machine.execBiConflict port line s
  | .snoopTimeout port line => Sys2Proof.Machine.execSnoopTimeout port line s
  | .directoryEviction set => Sys2Proof.Machine.execDirectoryEviction set s
  | .tileReadArrival read err xfer => Sys2Proof.Machine.execTileReadArrival read err xfer s
  | .deepRead group swatch errs => Sys2Proof.Machine.execDeepRead group swatch errs s
  | .codecStatisticsClear via => Sys2Proof.Machine.execCodecStatisticsClear via s
  | .holdTick => Sys2Proof.Machine.execHoldTick s
  | .destageGrant group upset => Sys2Proof.Machine.execDestageGrant group upset s
  | .destageComplete line => Sys2Proof.Machine.execDestageComplete line s
  | .flushRequest via => Sys2Proof.Machine.execFlushRequest via s
  | .easelScrub bank way upset => Sys2Proof.Machine.execEaselScrub bank way upset s
  | .patrolWindow => Sys2Proof.Machine.execPatrolWindow s
  | .rowRepair ways => Sys2Proof.Machine.execRowRepair ways s
  | .rowCountWindow => Sys2Proof.Machine.execRowCountWindow s
  | .easelStatisticsClear via => Sys2Proof.Machine.execEaselStatisticsClear via s
  | .paletteFill register err xfer => Sys2Proof.Machine.execPaletteFill register err xfer s
  | .spanFenceRebuildEnd fence => Sys2Proof.Machine.execSpanFenceRebuildEnd fence s
  | .paletteTick => Sys2Proof.Machine.execPaletteTick s
  | .paletteWritebackGrant set way => Sys2Proof.Machine.execPaletteWritebackGrant set way s
  | .paletteWritebackComplete set way => Sys2Proof.Machine.execPaletteWritebackComplete set way s
  | .rangeInvalidationOpen kind lo hi => Sys2Proof.Machine.execRangeInvalidationOpen kind lo hi s
  | .rangeInvalidationClose kind lo hi => Sys2Proof.Machine.execRangeInvalidationClose kind lo hi s
  | .dirtyLimitWrite via limit => Sys2Proof.Machine.execDirtyLimitWrite via limit s
  | .paletteStatisticsClear via => Sys2Proof.Machine.execPaletteStatisticsClear via s
  | .monitorClear via => Sys2Proof.Machine.execMonitorClear via s
  | .rangeOpen via range => Sys2Proof.Machine.execRangeOpen via range s
  | .rangeClose via range => Sys2Proof.Machine.execRangeClose via range s
  | .rangeCloseEnd range => Sys2Proof.Machine.execRangeCloseEnd range s
  | .rangeErase via range => Sys2Proof.Machine.execRangeErase via range s
  | .openingComplete => Sys2Proof.Machine.execOpeningComplete s
  | .installationKey via key => Sys2Proof.Machine.execInstallationKey via key s
  | .installationKeyRewrap via wrapped => Sys2Proof.Machine.execInstallationKeyRewrap via wrapped s
  | .discardNextKey via range => Sys2Proof.Machine.execDiscardNextKey via range s
  | .glazeStart via => Sys2Proof.Machine.execGlazeStart via s
  | .glazePause via => Sys2Proof.Machine.execGlazePause via s
  | .glazeResume via => Sys2Proof.Machine.execGlazeResume via s
  | .glazeUnit index errs => Sys2Proof.Machine.execGlazeUnit index errs s
  | .glazeUnitCommit line => Sys2Proof.Machine.execGlazeUnitCommit line s
  | .glazeFinish => Sys2Proof.Machine.execGlazeFinish s
  | .pageReencryption group errs => Sys2Proof.Machine.execPageReencryption group errs s
  | .pageReencryptionEnd group => Sys2Proof.Machine.execPageReencryptionEnd group s
  | .encryptionStatisticsClear via => Sys2Proof.Machine.execEncryptionStatisticsClear via s
  | .glazeStatisticsClear via => Sys2Proof.Machine.execGlazeStatisticsClear via s
  | .epochEnd => Sys2Proof.Machine.execEpochEnd s
  | .regionPass group => Sys2Proof.Machine.execRegionPass group s
  | .swatchMeasurementDone group errs lost => Sys2Proof.Machine.execSwatchMeasurementDone group errs lost s
  | .retouchRewrite group errs deep => Sys2Proof.Machine.execRetouchRewrite group errs deep s
  | .regionPassClose group => Sys2Proof.Machine.execRegionPassClose group s
  | .moveSwatchWrite group => Sys2Proof.Machine.execMoveSwatchWrite group s
  | .retouchStatisticsClear via => Sys2Proof.Machine.execRetouchStatisticsClear via s
  | .arbitrationPhase group requests withdraw => Sys2Proof.Machine.execArbitrationPhase group requests withdraw s
  | .lockOverrun group => Sys2Proof.Machine.execLockOverrun group s
  | .arbiterStatisticsClear via => Sys2Proof.Machine.execArbiterStatisticsClear via s
  | .gapStep group errs => Sys2Proof.Machine.execGapStep group errs s
  | .gapStepCommit group failed => Sys2Proof.Machine.execGapStepCommit group failed s
  | .swapInterval group => Sys2Proof.Machine.execSwapInterval group s
  | .moveTileCopy group errs failed => Sys2Proof.Machine.execMoveTileCopy group errs failed s
  | .moveBatchComplete group => Sys2Proof.Machine.execMoveBatchComplete group s
  | .patchRemap group errs => Sys2Proof.Machine.execPatchRemap group errs s
  | .patchRemapCommit group failed => Sys2Proof.Machine.execPatchRemapCommit group failed s
  | .translateDpa via dpa => Sys2Proof.Machine.execTranslateDpa via dpa s
  | .journalTileWrite group => Sys2Proof.Machine.execJournalTileWrite group s
  | .journalTileComplete group => Sys2Proof.Machine.execJournalTileComplete group s
  | .checkpointWindow group => Sys2Proof.Machine.execCheckpointWindow group s
  | .checkpoint group => Sys2Proof.Machine.execCheckpoint group s
  | .checkpointHeaderWrite group => Sys2Proof.Machine.execCheckpointHeaderWrite group s
  | .checkpointComplete group => Sys2Proof.Machine.execCheckpointComplete group s
  | .rebuildRegion group => Sys2Proof.Machine.execRebuildRegion group s
  | .rebuildSequence group errs deep failed => Sys2Proof.Machine.execRebuildSequence group errs deep failed s
  | .doneEvent channel bank => Sys2Proof.Machine.execDoneEvent channel bank s
  | .failEvent channel bank => Sys2Proof.Machine.execFailEvent channel bank s
  | .programCompleteTimeout channel bank => Sys2Proof.Machine.execProgramCompleteTimeout channel bank s
  | .readErrorEvent channel bank => Sys2Proof.Machine.execReadErrorEvent channel bank s
  | .frameErrorEvent channel bank kind => Sys2Proof.Machine.execFrameErrorEvent channel bank kind s
  | .writeCrcErrorEvent channel bank => Sys2Proof.Machine.execWriteCrcErrorEvent channel bank s
  | .stackStatusEvent channel status reg => Sys2Proof.Machine.execStackStatusEvent channel status reg s
  | .channelErrorWindow => Sys2Proof.Machine.execChannelErrorWindow s
  | .markChannelFailed via channel => Sys2Proof.Machine.execMarkChannelFailed via channel s
  | .returnChannel via channel => Sys2Proof.Machine.execReturnChannel via channel s
  | .mrRead via register temperature verified => Sys2Proof.Machine.execMrRead via register temperature verified s
  | .thermalAlertThresholdWrite via value => Sys2Proof.Machine.execThermalAlertThresholdWrite via value s
  | .channelStatisticsClear via => Sys2Proof.Machine.execChannelStatisticsClear via s
  | .rd channel fields err => Sys2Proof.Machine.execRd channel fields err s
  | .srd channel fields err => Sys2Proof.Machine.execSrd channel fields err s
  | .prg channel fields data => Sys2Proof.Machine.execPrg channel fields data s
  | .sus channel fields => Sys2Proof.Machine.execSus channel fields s
  | .rsm channel fields => Sys2Proof.Machine.execRsm channel fields s
  | .mrr channel fields temperature => Sys2Proof.Machine.execMrr channel fields temperature s
  | .mrw channel fields => Sys2Proof.Machine.execMrw channel fields s
  | .calZq channel fields => Sys2Proof.Machine.execCalZq channel fields s
  | .calTrainingEntry channel low => Sys2Proof.Machine.execCalTrainingEntry channel low s
  | .calTrainingExit channel low => Sys2Proof.Machine.execCalTrainingExit channel low s
  | .pde channel fields => Sys2Proof.Machine.execPde channel fields s
  | .pdx channel fields => Sys2Proof.Machine.execPdx channel fields s
  | .linkTraining port rate width => Sys2Proof.Machine.execLinkTraining port rate width s
  | .laneFailure port width => Sys2Proof.Machine.execLaneFailure port width s
  | .portReset port cause => Sys2Proof.Machine.execPortReset port cause s
  | .cxlReset port => Sys2Proof.Machine.execCxlReset port s
  | .functionLevelReset port => Sys2Proof.Machine.execFunctionLevelReset port s
  | .portEnableWrite via port value => Sys2Proof.Machine.execPortEnableWrite via port value s
  | .linkPowerState port state => Sys2Proof.Machine.execLinkPowerState port state s
  | .hdmDecoderCommit port decoder base ways gran size dpa shared lock => Sys2Proof.Machine.execHdmDecoderCommit port decoder base ways gran size dpa shared lock s
  | .sharedFenceRelease via port => Sys2Proof.Machine.execSharedFenceRelease via port s
  | .identify port => Sys2Proof.Machine.execIdentify port s
  | .backgroundOperationStatus port => Sys2Proof.Machine.execBackgroundOperationStatus port s
  | .getResponseMessageLimit port => Sys2Proof.Machine.execGetResponseMessageLimit port s
  | .setResponseMessageLimit port limit => Sys2Proof.Machine.execSetResponseMessageLimit port limit s
  | .getEventRecords port log => Sys2Proof.Machine.execGetEventRecords port log s
  | .clearEventRecords port log all handles => Sys2Proof.Machine.execClearEventRecords port log all handles s
  | .getEventInterruptPolicy port => Sys2Proof.Machine.execGetEventInterruptPolicy port s
  | .setEventInterruptPolicy port policy => Sys2Proof.Machine.execSetEventInterruptPolicy port policy s
  | .getFwInfo port => Sys2Proof.Machine.execGetFwInfo port s
  | .mailboxUnsupported port opcode => Sys2Proof.Machine.execMailboxUnsupported port opcode s
  | .getTimestamp port => Sys2Proof.Machine.execGetTimestamp port s
  | .setTimestamp port value => Sys2Proof.Machine.execSetTimestamp port value s
  | .getSupportedLogs port => Sys2Proof.Machine.execGetSupportedLogs port s
  | .getLog port effects offset length => Sys2Proof.Machine.execGetLog port effects offset length s
  | .identifyMemoryDevice port => Sys2Proof.Machine.execIdentifyMemoryDevice port s
  | .getHealthInfo port => Sys2Proof.Machine.execGetHealthInfo port s
  | .getAlertConfiguration port => Sys2Proof.Machine.execGetAlertConfiguration port s
  | .setAlertConfiguration port valid enable life hot cold => Sys2Proof.Machine.execSetAlertConfiguration port valid enable life hot cold s
  | .getShutdownState port => Sys2Proof.Machine.execGetShutdownState port s
  | .setShutdownState port dirty => Sys2Proof.Machine.execSetShutdownState port dirty s
  | .getPoisonList port first lines => Sys2Proof.Machine.execGetPoisonList port first lines s
  | .injectPoison port line => Sys2Proof.Machine.execInjectPoison port line s
  | .clearPoison port line data => Sys2Proof.Machine.execClearPoison port line data s
  | .getScanMediaCapabilities port => Sys2Proof.Machine.execGetScanMediaCapabilities port s
  | .scanMedia port first lines => Sys2Proof.Machine.execScanMedia port first lines s
  | .scanMediaComplete port => Sys2Proof.Machine.execScanMediaComplete port s
  | .getScanMediaResults port => Sys2Proof.Machine.execGetScanMediaResults port s
  | .gpfPhase2 port => Sys2Proof.Machine.execGpfPhase2 port s
  | .spdmGetVersion port => Sys2Proof.Machine.execSpdmGetVersion port s
  | .spdmGetCapabilities port => Sys2Proof.Machine.execSpdmGetCapabilities port s
  | .spdmNegotiateAlgorithms port => Sys2Proof.Machine.execSpdmNegotiateAlgorithms port s
  | .spdmGetDigests port => Sys2Proof.Machine.execSpdmGetDigests port s
  | .spdmGetCertificate port offset length => Sys2Proof.Machine.execSpdmGetCertificate port offset length s
  | .spdmChallenge port => Sys2Proof.Machine.execSpdmChallenge port s
  | .spdmGetMeasurements port block => Sys2Proof.Machine.execSpdmGetMeasurements port block s
  | .spdmKeyExchange port => Sys2Proof.Machine.execSpdmKeyExchange port s
  | .spdmFinish port => Sys2Proof.Machine.execSpdmFinish port s
  | .spdmHeartbeat port => Sys2Proof.Machine.execSpdmHeartbeat port s
  | .spdmKeyUpdate port operation tag => Sys2Proof.Machine.execSpdmKeyUpdate port operation tag s
  | .spdmEndSession port => Sys2Proof.Machine.execSpdmEndSession port s
  | .spdmVendorDefinedRequest port => Sys2Proof.Machine.execSpdmVendorDefinedRequest port s
  | .ideKmQuery port => Sys2Proof.Machine.execIdeKmQuery port s
  | .ideKmKeyProg port io transmit key => Sys2Proof.Machine.execIdeKmKeyProg port io transmit key s
  | .ideKmKSetGo port io skid => Sys2Proof.Machine.execIdeKmKSetGo port io skid s
  | .ideKmKSetStop port io => Sys2Proof.Machine.execIdeKmKSetStop port io s
  | .ideKmGetkey port io => Sys2Proof.Machine.execIdeKmGetkey port io s
  | .ideIntegrityFailure port lines => Sys2Proof.Machine.execIdeIntegrityFailure port lines s
  | .portStatisticsClear via => Sys2Proof.Machine.execPortStatisticsClear via s
  | .shadowCommit via channel => Sys2Proof.Machine.execShadowCommit via channel s
  | .channelStart via channel => Sys2Proof.Machine.execChannelStart via channel s
  | .channelAbort via channel => Sys2Proof.Machine.execChannelAbort via channel s
  | .barrowBeatIssue access => Sys2Proof.Machine.execBarrowBeatIssue access s
  | .barrowSourceReadComplete access beat data ok => Sys2Proof.Machine.execBarrowSourceReadComplete access beat data ok s
  | .barrowWriteResponse channel => Sys2Proof.Machine.execBarrowWriteResponse channel s
  | .flushReadComplete channel ok => Sys2Proof.Machine.execFlushReadComplete channel ok s
  | .fillThroughComplete line => Sys2Proof.Machine.execFillThroughComplete line s
  | .telemetryLineWrite channel => Sys2Proof.Machine.execTelemetryLineWrite channel s
  | .telemetryFlushInterval channel => Sys2Proof.Machine.execTelemetryFlushInterval channel s
  | .telemetryReadPointer via channel value => Sys2Proof.Machine.execTelemetryReadPointer via channel value s
  | .interruptCauseClear via channel mask => Sys2Proof.Machine.execInterruptCauseClear via channel mask s
  | .barrowStatisticsClear via => Sys2Proof.Machine.execBarrowStatisticsClear via s
  | .queuePush queue producer data first last => Sys2Proof.Machine.execQueuePush queue producer data first last s
  | .spillBlockWrite queue => Sys2Proof.Machine.execSpillBlockWrite queue s
  | .spillBlockRead queue words => Sys2Proof.Machine.execSpillBlockRead queue words s
  | .spillForced queue access => Sys2Proof.Machine.execSpillForced queue access s
  | .queueFlush via queue => Sys2Proof.Machine.execQueueFlush via queue s
  | .tqRead via => Sys2Proof.Machine.execTqRead via s
  | .timeMark => Sys2Proof.Machine.execTimeMark s
  | .queueStatisticsClear via => Sys2Proof.Machine.execQueueStatisticsClear via s
  | .pageWrite => Sys2Proof.Machine.execPageWrite s
  | .pageWriteComplete readBack => Sys2Proof.Machine.execPageWriteComplete readBack s
  | .userDataWrite via data => Sys2Proof.Machine.execUserDataWrite via data s
  | .tallyIncrement tally => Sys2Proof.Machine.execTallyIncrement tally s
  | .hourTally tally => Sys2Proof.Machine.execHourTally tally s
  | .rateLimitWindow => Sys2Proof.Machine.execRateLimitWindow s
  | .ledgerClear via => Sys2Proof.Machine.execLedgerClear via s
  | .ledgerWindowRead via => Sys2Proof.Machine.execLedgerWindowRead via s
  | .folioStatisticsClear via => Sys2Proof.Machine.execFolioStatisticsClear via s
  | .runControl via on => Sys2Proof.Machine.execRunControl via on s
  | .counterClear via => Sys2Proof.Machine.execCounterClear via s
  | .wrapStickyClear via block mask => Sys2Proof.Machine.execWrapStickyClear via block mask s
  | .counterDump => Sys2Proof.Machine.execCounterDump s
  | .coreBrownOut => Sys2Proof.Machine.execCoreBrownOut s
  | .canBusOffRecovery => Sys2Proof.Machine.execCanBusOffRecovery s
  | .maintEnLow => Sys2Proof.Machine.execMaintEnLow s
  | .busMasterEnableCleared port => Sys2Proof.Machine.execBusMasterEnableCleared port s
  | .biEnableSet port => Sys2Proof.Machine.execBiEnableSet port s
  | .completionTimeout channel flush beat => Sys2Proof.Machine.execCompletionTimeout channel flush beat s
  | .usdoSegment node idx sub => Sys2Proof.Machine.execUsdoSegment node idx sub s

end Sys2Proof.Machine
end

