-- ==== Sys2Proof/WellFormed.lean ====
section
/-! DEFINITION. WellFormed.lean: the checks on a command's operands that their types do not make (R429 to R442, R356, R387,
R250, R411, R414). A meaning is total all the same: what it does with an operand that fails a check rests on no rule. -/

namespace Sys2Proof

/-- A CAN node-ID (R435): 1 to 127. -/
def nodeOk (node : BitVec 7) : Bool :=
  node != 0

/-- A path names a client: on CAN, a node-ID. -/
def viaOk : Via → Bool
  | .can node => nodeOk node
  | _ => true

/-- The value of a write (R435, R440): at most 264 bytes. -/
def dataOk (data : List Byte) : Bool :=
  decide (data.length ≤ 264)

/-- An I3C address that can be assigned (R440). -/
def addressOk (address : BitVec 7) : Bool :=
  address != 0

/-- A host address of a line of 64 bytes (R282). -/
def lineAligned (address : BitVec 52) : Bool :=
  address.toNat % 64 == 0

/-- Whether a command's operands are ones the spec gives it. -/
def Instr.wellFormed (i : Instr) : Bool :=
  match i with
  | .objectWrite via _ _ data => viaOk via && dataOk data
  | .stagedWrite via _ _ data => viaOk via && dataOk data
  | .commit via => viaOk via
  | .discard via => viaOk via
  | .levelRequest via _ _ => viaOk via
  | .levelLockoutWindow _ => true
  | .maintEnHigh => true
  | .sessionIdleTimeout _ => true
  | .storeParameters via _ => viaOk via
  | .restoreDefaultParameters via _ => viaOk via
  | .usdoDownload node _ _ data => nodeOk node && dataOk data
  | .usdoUpload node _ _ => nodeOk node
  | .usdoSegmentTimeout node => nodeOk node
  | .nmtStart _ => true
  | .nmtStop _ => true
  | .nmtEnterPreOperational _ => true
  | .nmtResetNode _ => true
  | .nmtResetCommunication _ => true
  | .sync => true
  | .tpdoEventTimer _ => true
  | .heartbeatProducer => true
  | .heartbeatReceived node => nodeOk node
  | .heartbeatTimeout _ => true
  | .emcyInhibitExpiry => true
  | .canBusOff _ _ => true
  | .errorHistoryClear via => viaOk via
  | .i3cRequest frame => decide (frame.length ≤ 288)
  | .i3cResponseRead => true
  | .enec => true
  | .disec => true
  | .rstdaa => true
  | .entdaa address => addressOk address
  | .setdasa address => addressOk address
  | .setnewda address => addressOk address
  | .getpid => true
  | .getbcr => true
  | .getdcr => true
  | .getstatus => true
  | .getmwl => true
  | .getmrl => true
  | .dictionaryRequest _ payload => decide (payload.length ≤ 2048)
  | .managementStatisticsClear via => viaOk via
  | .aonPor _ => true
  | .crystalSwitch _ => true
  | .crystalLost => true
  | .vinBelowWarn => true
  | .vinGood => true
  | .rideThroughQualified => true
  | .warnWindowEnd => true
  | .quiesceComplete => true
  | .quiesceLimit => true
  | .varnishLimit => true
  | .stopOrderStep => true
  | .epilogueLimit => true
  | .primingStart => true
  | .rampHoldEnd _ => true
  | .folioRecallComplete _ => true
  | .pgTickSample _ _ => true
  | .railQualified _ => true
  | .domainStagger _ => true
  | .railStartFailure _ => true
  | .sequenceTimeout _ => true
  | .startStepOvertime => true
  | .channelTraining _ => true
  | .channelTrainingComplete _ _ _ _ _ _ => true
  | .anchorsAndRegionState _ _ => true
  | .journalReplay _ => true
  | .selfTest _ => true
  | .memoryActive => true
  | .treeReanchor => true
  | .treeReanchorEnd => true
  | .restartRequest via => viaOk via
  | .selfTestRequest via _ => viaOk via
  | .startRequest via => viaOk via
  | .pbtnAction => true
  | .mrAction => true
  | .pgLoss _ => true
  | .pgGlitchEnd _ => true
  | .pgDropTimeout _ => true
  | .domainOffCoreRails _ => true
  | .dischargeTimeout _ => true
  | .adcSample _ _ => true
  | .budgetUpdate => true
  | .reserveChargeTimeout _ => true
  | .measureInterval => true
  | .measureRequest via => viaOk via
  | .measurementStart => true
  | .measurementSinkOn => true
  | .measurementEnd _ _ => true
  | .reserveDisable via => viaOk via
  | .reserveEnable via => viaOk via
  | .pmbusTelemetry answers => decide (answers.length ≤ 30)
  | .pmbusAlert _ _ => true
  | .pmbusUnreachableEnd _ => true
  | .marginNominal via _ => viaOk via
  | .marginLow via _ => viaOk via
  | .marginHigh via _ => viaOk via
  | .domainRestart via _ => viaOk via
  | .supervisionStatisticsClear via => viaOk via
  | .thermalScan readings => decide (readings.length = 96)
  | .riseWindow => true
  | .temperatureWindow answers => decide (answers.length = 64)
  | .zqInterval => true
  | .maintenanceWake _ answers => decide (answers.length = 8)
  | .deepSleepEnableWrite via _ => viaOk via
  | .thermalStatisticsClear via => viaOk via
  | .lightSleepEntry _ => true
  | .deepSleepEntry _ => true
  | .deepSleepWake _ => true
  | .deepSleepExitDone _ => true
  | .hostRead _ _ address _ _ _ => lineAligned address
  | .hostWrite _ _ address _ _ _ _ _ => lineAligned address
  | .partialWrite _ _ address _ _ _ _ _ _ => lineAligned address
  | .heldWriteTakeIn _ => true
  | .biSnoopResponse _ _ _ => true
  | .biConflict _ _ => true
  | .snoopTimeout _ _ => true
  | .directoryEviction _ => true
  | .tileReadArrival _ _ _ => true
  | .deepRead _ _ _ => true
  | .codecStatisticsClear via => viaOk via
  | .holdTick => true
  | .destageGrant _ _ => true
  | .destageComplete _ => true
  | .flushRequest via => viaOk via
  | .easelScrub _ _ _ => true
  | .patrolWindow => true
  | .rowRepair _ => true
  | .rowCountWindow => true
  | .easelStatisticsClear via => viaOk via
  | .paletteFill _ _ _ => true
  | .spanFenceRebuildEnd _ => true
  | .paletteTick => true
  | .paletteWritebackGrant _ _ => true
  | .paletteWritebackComplete _ _ => true
  | .rangeInvalidationOpen _ _ _ => true
  | .rangeInvalidationClose _ _ _ => true
  | .dirtyLimitWrite via _ => viaOk via
  | .paletteStatisticsClear via => viaOk via
  | .monitorClear via => viaOk via
  | .rangeOpen via _ => viaOk via
  | .rangeClose via _ => viaOk via
  | .rangeCloseEnd _ => true
  | .rangeErase via _ => viaOk via
  | .openingComplete => true
  | .installationKey via _ => viaOk via
  | .installationKeyRewrap via _ => viaOk via
  | .discardNextKey via _ => viaOk via
  | .glazeStart via => viaOk via
  | .glazePause via => viaOk via
  | .glazeResume via => viaOk via
  | .glazeUnit _ _ => true
  | .glazeUnitCommit _ => true
  | .glazeFinish => true
  | .pageReencryption _ _ => true
  | .pageReencryptionEnd _ => true
  | .encryptionStatisticsClear via => viaOk via
  | .glazeStatisticsClear via => viaOk via
  | .epochEnd => true
  | .regionPass _ => true
  | .swatchMeasurementDone _ _ _ => true
  | .retouchRewrite _ _ _ => true
  | .regionPassClose _ => true
  | .moveSwatchWrite _ => true
  | .retouchStatisticsClear via => viaOk via
  | .arbitrationPhase _ _ _ => true
  | .lockOverrun _ => true
  | .arbiterStatisticsClear via => viaOk via
  | .gapStep _ _ => true
  | .gapStepCommit _ _ => true
  | .swapInterval _ => true
  | .moveTileCopy _ _ _ => true
  | .moveBatchComplete _ => true
  | .patchRemap _ _ => true
  | .patchRemapCommit _ _ => true
  | .translateDpa via _ => viaOk via
  | .journalTileWrite _ => true
  | .journalTileComplete _ => true
  | .checkpointWindow _ => true
  | .checkpoint _ => true
  | .checkpointHeaderWrite _ => true
  | .checkpointComplete _ => true
  | .rebuildRegion _ => true
  | .rebuildSequence _ _ _ _ => true
  | .doneEvent _ _ => true
  | .failEvent _ _ => true
  | .programCompleteTimeout _ _ => true
  | .readErrorEvent _ _ => true
  | .frameErrorEvent _ _ _ => true
  | .writeCrcErrorEvent _ _ => true
  | .stackStatusEvent _ _ _ => true
  | .channelErrorWindow => true
  | .markChannelFailed via _ => viaOk via
  | .returnChannel via _ => viaOk via
  | .mrRead via _ _ _ => viaOk via
  | .thermalAlertThresholdWrite via _ => viaOk via
  | .channelStatisticsClear via => viaOk via
  | .rd _ _ _ => true
  | .srd _ _ _ => true
  | .prg _ _ _ => true
  | .sus _ _ => true
  | .rsm _ _ => true
  | .mrr _ _ _ => true
  | .mrw _ _ => true
  | .calZq _ _ => true
  | .calTrainingEntry _ _ => true
  | .calTrainingExit _ _ => true
  | .pde _ _ => true
  | .pdx _ _ => true
  | .linkTraining _ _ _ => true
  | .laneFailure _ _ => true
  | .portReset _ _ => true
  | .cxlReset _ => true
  | .functionLevelReset _ => true
  | .portEnableWrite via _ _ => viaOk via
  | .linkPowerState _ _ => true
  | .hdmDecoderCommit _ _ _ _ _ _ _ _ _ => true
  | .sharedFenceRelease via _ => viaOk via
  | .identify _ => true
  | .backgroundOperationStatus _ => true
  | .getResponseMessageLimit _ => true
  | .setResponseMessageLimit _ _ => true
  | .getEventRecords _ _ => true
  | .clearEventRecords _ _ _ handles => decide (handles.length ≤ 255)
  | .getEventInterruptPolicy _ => true
  | .setEventInterruptPolicy _ _ => true
  | .getFwInfo _ => true
  | .mailboxUnsupported _ _ => true
  | .getTimestamp _ => true
  | .setTimestamp _ _ => true
  | .getSupportedLogs _ => true
  | .getLog _ _ _ _ => true
  | .identifyMemoryDevice _ => true
  | .getHealthInfo _ => true
  | .getAlertConfiguration _ => true
  | .setAlertConfiguration _ _ _ _ _ _ => true
  | .getShutdownState _ => true
  | .setShutdownState _ _ => true
  | .getPoisonList _ _ _ => true
  | .injectPoison _ _ => true
  | .clearPoison _ _ _ => true
  | .getScanMediaCapabilities _ => true
  | .scanMedia _ _ _ => true
  | .scanMediaComplete _ => true
  | .getScanMediaResults _ => true
  | .gpfPhase2 _ => true
  | .spdmGetVersion _ => true
  | .spdmGetCapabilities _ => true
  | .spdmNegotiateAlgorithms _ => true
  | .spdmGetDigests _ => true
  | .spdmGetCertificate _ _ _ => true
  | .spdmChallenge _ => true
  | .spdmGetMeasurements _ _ => true
  | .spdmKeyExchange _ => true
  | .spdmFinish _ => true
  | .spdmHeartbeat _ => true
  | .spdmKeyUpdate _ _ _ => true
  | .spdmEndSession _ => true
  | .spdmVendorDefinedRequest _ => true
  | .ideKmQuery _ => true
  | .ideKmKeyProg _ _ _ _ => true
  | .ideKmKSetGo _ _ _ => true
  | .ideKmKSetStop _ _ => true
  | .ideKmGetkey _ _ => true
  | .ideIntegrityFailure _ _ => true
  | .portStatisticsClear via => viaOk via
  | .shadowCommit via _ => viaOk via
  | .channelStart via _ => viaOk via
  | .channelAbort via _ => viaOk via
  | .barrowBeatIssue _ => true
  | .barrowSourceReadComplete _ _ _ _ => true
  | .barrowWriteResponse _ => true
  | .flushReadComplete _ _ => true
  | .fillThroughComplete _ => true
  | .telemetryLineWrite _ => true
  | .telemetryFlushInterval _ => true
  | .telemetryReadPointer via _ _ => viaOk via
  | .interruptCauseClear via _ _ => viaOk via
  | .barrowStatisticsClear via => viaOk via
  | .queuePush _ _ _ _ _ => true
  | .spillBlockWrite _ => true
  | .spillBlockRead _ _ => true
  | .spillForced _ _ => true
  | .queueFlush via _ => viaOk via
  | .tqRead via => viaOk via
  | .timeMark => true
  | .queueStatisticsClear via => viaOk via
  | .pageWrite => true
  | .pageWriteComplete _ => true
  | .userDataWrite via data => viaOk via && decide (1 ≤ data.length ∧ data.length ≤ 64)
  | .tallyIncrement tally => decide (tally.toNat < 192)
  | .hourTally tally => decide (tally.toNat < 192)
  | .rateLimitWindow => true
  | .ledgerClear via => viaOk via
  | .ledgerWindowRead via => viaOk via
  | .folioStatisticsClear via => viaOk via
  | .runControl via _ => viaOk via
  | .counterClear via => viaOk via
  | .wrapStickyClear via _ _ => viaOk via
  | .counterDump => true
  | .coreBrownOut => true
  | .canBusOffRecovery => true
  | .maintEnLow => true
  | .busMasterEnableCleared _ => true
  | .biEnableSet _ => true
  | .completionTimeout _ _ _ => true
  | .usdoSegment node _ _ => nodeOk node

end Sys2Proof
end

