-- ==== Sys2Proof/Safety.lean ====
section
/-! DEFINITION. Safety.lean: the terms claims are stated in: what a command leaves unchanged, unit by unit; when a management
request of a level is served; and the two invariants that every step of the block keeps. -/

namespace Sys2Proof.Machine

/-- The units a state is made of. -/
inductive UnitName where
  | sys | mgmt | folio | ledger | power | reserve | thermal | channels | ports | groups | easel | palette | crypt
  | directory | queues | barrow | perf | path | settings | stats | draws | out | pending
  deriving DecidableEq, Repr

/-- One unit holds the same in both states. -/
def sameUnit (u : UnitName) (s t : State) : Prop :=
  match u with
  | .sys => t.sys = s.sys
  | .mgmt => t.mgmt = s.mgmt
  | .folio => t.folio = s.folio
  | .ledger => t.ledger = s.ledger
  | .power => t.power = s.power
  | .reserve => t.reserve = s.reserve
  | .thermal => t.thermal = s.thermal
  | .channels => t.channels = s.channels
  | .ports => t.ports = s.ports
  | .groups => t.groups = s.groups
  | .easel => t.easel = s.easel
  | .palette => t.palette = s.palette
  | .crypt => t.crypt = s.crypt
  | .directory => t.directory = s.directory
  | .queues => t.queues = s.queues
  | .barrow => t.barrow = s.barrow
  | .perf => t.perf = s.perf
  | .path => t.path = s.path
  | .settings => t.settings = s.settings
  | .stats => t.stats = s.stats
  | .draws => t.draws = s.draws
  | .out => t.out = s.out
  | .pending => t.pending = s.pending

/-- Every unit but those named holds the same in both states: the frame of a command. -/
def Frame (changed : List UnitName) (s t : State) : Prop :=
  ∀ u, u ∉ changed → sameUnit u s t

/-- A management request of access level `level` on path `via` passes the path, the state and the level checks of R427, R430,
R443 and R450: `n` is its session, and `s'` the state with that session bound (`s` itself where it was bound already). -/
structure Ready (s : State) (via : Via) (level : Level) (n : Nat) (s' : State) : Prop where
  /-- the path takes requests (R430, R436) -/
  isOpen : pathOpen s via = true
  /-- the session of the request (R430) -/
  session : sessionFor s via = some (n, s')
  /-- the session's level suffices (R423, R427) -/
  allowed : levelNum level ≤ levelNum (sessionOf s' n).level
  /-- not during the Folio recall (R365) -/
  recalled : s.sys.recalling = false
  /-- not in Standby, where only the list of R443 is served -/
  awake : s.sys.dev ≠ .standby

/-- The units every served management request may change beside its own effect: sessions and their answers, the request
counts, the device block's counters and what leaves the block (R433, R440, R446, R455). -/
def requestUnits : List UnitName :=
  [.mgmt, .stats, .perf, .out]

/-- A write of these bytes at this level passes the checks of R450 that do not depend on the state. -/
def writeFits (level : Level) (idx sub : Nat) (data : List Byte) : Bool :=
  match objRow? idx sub with
  | some r =>
    !(r.access == .ro || r.access == .const) && r.ty.lengthOk data.length && decide (levelNum r.level ≤ levelNum level)
      && !(r.ty.isNum && !r.inRange (writtenValue r data)) && !r.staged
  | none => false

/-- The medium table is in its one canonical form: addresses strictly rising, and no entry that an unlisted patch reads as
anyway. -/
def MediumCanonical (s : State) : Prop :=
  tabWf dPatch s.path.medium = true

/-- No session holds Maintainer level while `MAINT_EN_N` is high (R427, R428). -/
def MaintainerGuarded (s : State) : Prop :=
  s.mgmt.maintEnable = false → ∀ n, n < 16 → (sessionOf s n).level ≠ .maintainer

/-- A command completes: from every state that meets `before`, `exec` answers a next state, in which every unit but those
named holds the same and `after` holds of the two states. -/
def Completes (c : Instr) (units : List UnitName) (before : State → Prop) (after : State → State → Prop) : Prop :=
  ∀ s, before s → ∃ t, exec c s = .next t ∧ Frame units s t ∧ after s t

/-- A management request with a row of its own completes: where it passes the path, the state and the level checks
(`Ready`, which names its session `n` and the state `s'` with that session bound) and `before` holds of that state, `exec`
answers the state `t` in which the request's effect has taken place, with the request then answered and counted (`accept`,
R424, R446); every unit but those named holds the same in `s'` and `t`, and `after` holds of them. -/
def Serves (c : Instr) (via : Via) (level : Level) (units : List UnitName) (before : Nat → State → Prop)
    (after : Nat → State → State → Prop) : Prop :=
  ∀ s n s', Ready s via level n s' → before n s' →
    ∃ t, exec c s = .next (accept t via n (plainTag via) []) ∧ Frame units s' t ∧ after n s' t

/-- A request with a row of its own that fails check 7 of R450 with a detail code: its effect does not take place, and the
rejection is recorded and answered (R433). -/
def Rejects (c : Instr) (via : Via) (level : Level) (detail idx sub : Nat) (before : Nat → State → Prop) : Prop :=
  ∀ s n s', Ready s via level n s' → before n s' →
    exec c s = .next (reject (refusalMark s' via n detail idx sub) via n (plainTag via) detail idx sub true)

/-- The Ledger of `t` is the Ledger of `s` with one event raised (R417 to R419): numbered and pending, or suppressed by the
rate limit. -/
def LogsEvent (code : Nat) (data : List Byte) (s t : State) : Prop :=
  t.ledger = (ledgerRecord s code data).1.ledger

/-- The groups differ at most in the frame last put out on each of their channels (R245). -/
def FramesOnly (s t : State) : Prop :=
  ∀ g, { groupOf t g with sent := [], resent := [] } = { groupOf s g with sent := [], resent := [] }

/-- Settings of every part of the dictionary that a write sets and that nothing else happens to (R424): index and subindex. -/
def plainSettings : List (Nat × Nat) :=
  [(0x1005, 0), (0x1015, 0), (0x1017, 0), (0x2001, 2), (0x2001, 3), (0x2001, 5), (0x2001, 8), (0x2002, 2), (0x2002, 5),
    (0x2130, 1), (0x2130, 3), (0x2300, 2), (0x2600, 1), (0x2780, 1), (0x2780, 3), (0x2800, 3), (0x2900, 1),
    (0x2900, 4), (0x2B00, 1), (0x2C00, 4), (0x2D00, 1), (0x2E00, 1), (0x2E01, 1), (0x2F00, 2), (0x3010, 8),
    (0x3180, 7), (0x3200, 3), (0x3300, 5)]

/-- Settings whose write is active at once and in force from a later moment (R112, R258, R399, R422). -/
def latchedSettings : List (Nat × Nat) :=
  [(0x2300, 3), (0x2300, 4), (0x2300, 6), (0x2900, 5), (0x3010, 9), (0x3010, 0x0A), (0x3010, 0x0B), (0x3180, 6)]

/-- Objects of the dictionary: an index, its first subindex and how many subindices. -/
abbrev Span := Nat × Nat × Nat

/-- An object is one of a list of spans. -/
def InSpans (spans : List Span) (idx sub : Nat) : Prop :=
  ∃ p ∈ spans, p.1 = idx ∧ p.2.1 ≤ sub ∧ sub < p.2.1 + p.2.2

/-- Every statistic of the spans reads 0. -/
def StatsZero (spans : List Span) (t : State) : Prop :=
  ∀ idx sub, InSpans spans idx sub → stat t idx sub = 0

/-- Every statistic outside the spans reads as before. -/
def StatsKept (spans : List Span) (s t : State) : Prop :=
  ∀ idx sub, sub < 256 → ¬ InSpans spans idx sub → stat t idx sub = stat s idx sub

/-- The same subindices at `m` consecutive indices. -/
def spansAt (idx m lo n : Nat) : List Span :=
  (List.range m).map (fun i => (idx + i, lo, n))

/-- The statistics of the spans are cleared, and no other. -/
def Cleared (spans : List Span) (s t : State) : Prop :=
  StatsZero spans t ∧ StatsKept spans s t

/-- Every setting but idx.sub reads as before. -/
def SettingsKept (idx sub : Nat) (s t : State) : Prop :=
  ∀ i j, j < 256 → ¬ (i = idx ∧ j = sub) → setting t i j = setting s i j

/-- Every session but `n` is as before. -/
def SessionsKept (n : Nat) (s t : State) : Prop :=
  ∀ m, m ≠ n → sessionOf t m = sessionOf s m

/-- Every port but `p` is as before. -/
def PortsKept (p : Nat) (s t : State) : Prop :=
  ∀ q, q ≠ p → portOf t q = portOf s q

/-- Every channel but `c` is as before. -/
def ChannelsKept (c : Nat) (s t : State) : Prop :=
  ∀ d, d ≠ c → channelOf t d = channelOf s d

/-- Every rail but `r` is as before. -/
def RailsKept (r : Nat) (s t : State) : Prop :=
  ∀ q, q ≠ r → railOf t q = railOf s q

/-- Every group but `g` is as before. -/
def GroupsKept (g : Nat) (s t : State) : Prop :=
  ∀ q, q ≠ g → groupOf t q = groupOf s q

end Sys2Proof.Machine
end

