-- ==== Sys2Proof/Certificates/Slice0/Obligations.lean ====
section
/-! DEFINITION. Certificates/Slice0/Obligations.lean: the statements about the block, in the order of the chapters: what each
command does, where it is refused, what it leaves unchanged, and the invariants every step keeps. Most say that a command
completes (`Completes`, `Serves`) or is turned away (`Rejects`), in the terms of Safety.lean. -/

open Sys2Proof Sys2Proof.Machine

set_option linter.unusedVariables false

/-- Each statistics clear of the data path, at Operator level, completes (R58, R112, R154, R179, R208, R231, R258, R274): every
statistic of its subsystem reads 0, every other statistic and every other unit holds the same, and the request is then answered
and counted. -/
def Obligations.StatisticsClearsOfTheDataPath : Prop :=
  ∀ via : Via,
    Serves (.codecStatisticsClear via) via .operator [.stats] (fun _ _ => True)
      (fun _ s t => Cleared ((0x2100, 1, 14) :: (0x2120, 1, 64) :: (0x2121, 1, 64) :: spansAt 0x2110 8 1 14) s t) ∧
    Serves (.easelStatisticsClear via) via .operator [.stats] (fun _ _ => True)
      (fun _ s t => Cleared [(0x2310, 1, 0x11), (0x2310, 0x14, 1)] s t) ∧
    Serves (.paletteStatisticsClear via) via .operator [.stats] (fun _ _ => True)
      (fun _ s t => Cleared [(0x2510, 1, 12)] s t) ∧
    Serves (.monitorClear via) via .operator [.stats] (fun _ _ => True)
      (fun _ s t => Cleared ((0x2600, 6, 4) :: spansAt 0x2610 4 1 12 ++ spansAt 0x2620 4 1 16) s t) ∧
    Serves (.encryptionStatisticsClear via) via .operator [.stats] (fun _ _ => True)
      (fun _ s t => Cleared [(0x2700, 7, 4)] s t) ∧
    Serves (.glazeStatisticsClear via) via .operator [.stats] (fun _ _ => True)
      (fun _ s t => Cleared [(0x2780, 7, 4)] s t) ∧
    Serves (.retouchStatisticsClear via) via .operator [.stats] (fun _ _ => True)
      (fun _ s t => Cleared (spansAt 0x2810 8 6 5 ++ spansAt 0x2810 8 0x0C 1) s t) ∧
    Serves (.channelStatisticsClear via) via .operator [.stats] (fun _ _ => True)
      (fun _ s t => Cleared (spansAt 0x2915 7 1 64) s t) ∧
    Serves (.arbiterStatisticsClear via) via .operator [.stats] (fun _ _ => True)
      (fun _ s t => Cleared (spansAt 0x2A10 8 1 0x11) s t)

/-- Each statistics clear outside the data path, at Operator level, completes (R303, R322, R335, R360, R399, R422, R446, R456):
every statistic it names reads 0 and every other one reads as before. The queues' clear also zeroes the 13 peak levels and
nothing else of a queue; the counter clear also empties every counter and sticky bit and leaves the run control and the
samples. A request's own count follows its effect (`accept`). -/
def Obligations.StatisticsClearsOfThePortsAndServices : Prop :=
  ∀ via : Via,
    Serves (.portStatisticsClear via) via .operator [.stats] (fun _ _ => True)
      (fun _ s t => Cleared ((0x2B40, 3, 5) :: spansAt 0x2B20 4 1 14) s t) ∧
    Serves (.barrowStatisticsClear via) via .operator [.stats] (fun _ _ => True)
      (fun _ s t => Cleared ((0x2C00, 6, 1) :: spansAt 0x2C10 16 0x0F 2) s t) ∧
    Serves (.queueStatisticsClear via) via .operator [.stats, .queues] (fun _ _ => True)
      (fun _ s t => Cleared (spansAt 0x2D10 13 5 6 ++ spansAt 0x2D10 13 0x0C 1) s t ∧
        ∀ q, queueOf t q = if q < 13 then { queueOf s q with peak := 0 } else queueOf s q) ∧
    Serves (.supervisionStatisticsClear via) via .operator [.stats] (fun _ _ => True)
      (fun _ s t => Cleared (spansAt 0x2E10 30 8 1 ++ spansAt 0x2E10 30 9 1 ++
        spansAt 0x2E10 30 0x13 1 ++ spansAt 0x2E10 30 0x15 1) s t) ∧
    Serves (.thermalStatisticsClear via) via .operator [.stats] (fun _ _ => True)
      (fun _ s t => Cleared (spansAt 0x3002 2 1 8 ++ [(0x3010, 2, 1), (0x3010, 0x11, 1), (0x3010, 0x12, 1)]) s t) ∧
    Serves (.folioStatisticsClear via) via .operator [.stats] (fun _ _ => True)
      (fun _ s t => Cleared [(0x3100, 3, 3), (0x3100, 8, 1), (0x3180, 0x0A, 1)] s t) ∧
    Serves (.counterClear via) via .operator [.stats, .perf] (fun _ _ => True)
      (fun _ s t => Cleared [(0x3200, 6, 2)] s t ∧ t.perf = { s.perf with counters := [], sticky := [] }) ∧
    Serves (.managementStatisticsClear via) via .operator [.stats] (fun _ _ => True)
      (fun _ s t => Cleared [(0x2040, 1, 6), (0x2041, 1, 6)] s t)

/-- R427, whole: a session starts at Observer level; a request for the present level or a lower one is granted whatever its
code; Operator with its code, and Maintainer with its code while `MAINT_EN_N` is low, are granted, Maintainer with event 0x2001;
a wrong code is refused with 0x2005 and level 3 and above, or Maintainer while `MAINT_EN_N` is high, with 0x200F, the level
staying as it was; both codes default to 0. A path locked out under R429 is the subject of another statement. -/
def Obligations.LevelRequests : Prop :=
  settingN State.reset 0x2011 1 = 0 ∧ settingN State.reset 0x2011 2 = 0 ∧
  (∀ s via n s', sessionFor s via = some (n, s') → s' ≠ s → (sessionOf s' n).level = .observer) ∧
  ∀ (via : Via) (level : Byte) (code : BitVec 32),
    Serves (.levelRequest via level code) via .observer [.mgmt]
      (fun n s => level.toNat ≤ levelNum (sessionOf s n).level)
      (fun n s t => sessionOf t n = { sessionOf s n with level := levelOf level.toNat } ∧ SessionsKept n s t) ∧
    Serves (.levelRequest via level code) via .observer [.mgmt]
      (fun n s => level = 1 ∧ (sessionOf s n).level = .observer ∧ tabGet dBool s.mgmt.lockedOut (pathOf via) = false ∧
        code.toNat = settingN s 0x2011 1)
      (fun n s t => sessionOf t n = { sessionOf s n with level := .operator } ∧ SessionsKept n s t) ∧
    Serves (.levelRequest via level code) via .observer [.mgmt, .folio, .ledger, .stats, .out]
      (fun n s => level = 2 ∧ (sessionOf s n).level ≠ .maintainer ∧
        tabGet dBool s.mgmt.lockedOut (pathOf via) = false ∧ s.mgmt.maintEnable = true ∧ code.toNat = settingN s 0x2011 2)
      (fun n s t => sessionOf t n = { sessionOf s n with level := .maintainer } ∧ SessionsKept n s t ∧
        LogsEvent 0x2001 (leBytes 1 n ++ leBytes 1 (pathOf via)) s t) ∧
    Rejects (.levelRequest via level code) via .observer 0x2005 0x2010 3
      (fun n s => (level = 1 ∨ level = 2 ∧ s.mgmt.maintEnable = true) ∧ levelNum (sessionOf s n).level < level.toNat ∧
        tabGet dBool s.mgmt.lockedOut (pathOf via) = false ∧ code.toNat ≠ settingN s 0x2011 level.toNat) ∧
    Rejects (.levelRequest via level code) via .observer 0x200F 0x2010 3
      (fun n s => 3 ≤ level.toNat ∨ level = 2 ∧ s.mgmt.maintEnable = false ∧ (sessionOf s n).level ≠ .maintainer ∧
        tabGet dBool s.mgmt.lockedOut (pathOf via) = false) ∧
    ∀ s n m detail, (sessionOf (reject (refusalMark s via n detail 0x2010 3) via n (plainTag via) detail 0x2010 3 true) m).level
      = (sessionOf s m).level

/-- R428 to R430. `MAINT_EN_N` high drops every Maintainer session to Operator and changes nothing else of a session, its staging
set included; low only opens Maintainer. The fourth refused level code on a path locks it out with event 0x2003, the third does
not; a locked-out path refuses every raise with 0x2006; the end of its window forgets its refusals. An idle CAN or I3C session
is released, with everything it holds; a mailbox session has no idle time. -/
def Obligations.SessionsAndLockouts : Prop :=
  Completes .maintEnHigh [.mgmt] (fun _ => True) (fun s t =>
    t.mgmt = { s.mgmt with maintEnable := false, sessions := t.mgmt.sessions } ∧
    ∀ n, sessionOf t n = if n < 16 ∧ (sessionOf s n).level = .maintainer then { sessionOf s n with level := .operator }
      else sessionOf s n) ∧
  Completes .maintEnLow [.mgmt] (fun _ => True) (fun s t => t.mgmt = { s.mgmt with maintEnable := true }) ∧
  (∀ path : Fin 6, Completes (.levelLockoutWindow path) [.mgmt] (fun _ => True) (fun s t =>
    t.mgmt = { s.mgmt with refusals := t.mgmt.refusals, lockedOut := t.mgmt.lockedOut } ∧
    ∀ q, tabGet dNat t.mgmt.refusals q = (if q = path.val then 0 else tabGet dNat s.mgmt.refusals q) ∧
      tabGet dBool t.mgmt.lockedOut q = (if q = path.val then false else tabGet dBool s.mgmt.lockedOut q))) ∧
  (∀ n : Fin 16, Completes (.sessionIdleTimeout n) [.mgmt] (fun _ => True) (fun s t =>
    sessionOf t n.val = (if 4 ≤ n.val then {} else sessionOf s n.val) ∧ SessionsKept n.val s t ∧
      t.mgmt = { s.mgmt with sessions := t.mgmt.sessions })) ∧
  (∀ s path, tabGet dBool (countRefusal s path).mgmt.lockedOut path =
    (decide (tabGet dNat s.mgmt.refusals path = 3) || tabGet dBool s.mgmt.lockedOut path)) ∧
  (∀ s path, tabGet dNat (countRefusal s path).mgmt.refusals path = tabGet dNat s.mgmt.refusals path + 1) ∧
  ∀ (via : Via) (level : Byte) (code : BitVec 32),
    Rejects (.levelRequest via level code) via .observer 0x2006 0x2010 3
      (fun n s => levelNum (sessionOf s n).level < level.toNat ∧ level.toNat < 3 ∧
        tabGet dBool s.mgmt.lockedOut (pathOf via) = true)

/-- R431. A write that passes its own checks to a staged object is answered; it replaces the session's entry of the same object
or is added to the set, and neither the object's active value nor any other session changes. A 65th object is refused with
0x2007 and leaves the set as it was.
R432. An empty set is refused with 0x200E. A set whose combined view fails a check is refused with that check's code, an
entry above the session's level before every subsystem rule; the refusal leaves the active values and the set, and reads 2 in
[2020.02]. An accepted set becomes active whole: the settings are the staged values laid over the active ones; the set is empty,
[2020.02] reads 1, and a Maintainer entry is recorded as event 0x2004. A discard empties the set and changes nothing else. -/
def Obligations.StagingSets : Prop :=
  (
    ∀ (via : Via) (idx : BitVec 16) (sub : BitVec 8) (data : List Byte) (r : ObjRow),
      objRow? idx.toNat sub.toNat = some r → r.staged = true → r.access ≠ .ro → r.access ≠ .const →
      r.ty.lengthOk data.length = true → (r.ty.isNum = true → r.inRange (writtenValue r data) = true) →
      Serves (.stagedWrite via idx sub data) via r.level [.mgmt]
        (fun n s => ∃ e ∈ (sessionOf s n).staged, e.1 = objKey idx.toNat sub.toNat)
        (fun n s t => sessionOf t n = { sessionOf s n with staged := (sessionOf s n).staged.map (fun e =>
            if e.1 = objKey idx.toNat sub.toNat then (objKey idx.toNat sub.toNat, data) else e) } ∧ SessionsKept n s t) ∧
      Serves (.stagedWrite via idx sub data) via r.level [.mgmt]
        (fun n s => (∀ e ∈ (sessionOf s n).staged, e.1 ≠ objKey idx.toNat sub.toNat) ∧ (sessionOf s n).staged.length < 64)
        (fun n s t => sessionOf t n = { sessionOf s n with
            staged := (sessionOf s n).staged ++ [(objKey idx.toNat sub.toNat, data)] } ∧ SessionsKept n s t) ∧
      Rejects (.stagedWrite via idx sub data) via r.level 0x2007 idx.toNat sub.toNat
        (fun n s => (∀ e ∈ (sessionOf s n).staged, e.1 ≠ objKey idx.toNat sub.toNat) ∧ 64 ≤ (sessionOf s n).staged.length)) ∧
  (
    (∀ via : Via,
      Rejects (.commit via) via .observer 0x200E 0x2020 1 (fun n s => (sessionOf s n).staged = []) ∧
      (∀ d, Rejects (.commit via) via .observer d 0x2020 1 (fun n s => (sessionOf s n).staged ≠ [] ∧
        commitFault s (sessionOf s n).level (sessionOf s n).staged = some d)) ∧
      Serves (.commit via) via .observer [.sys, .mgmt, .folio, .ledger, .groups, .crypt, .directory, .path, .settings, .stats, .out]
        (fun n s => (sessionOf s n).staged ≠ [] ∧ commitFault s (sessionOf s n).level (sessionOf s n).staged = none)
        (fun n s t => t.settings = (combinedView s (sessionOf s n).staged).settings ∧
          sessionOf t n = { sessionOf s n with staged := [], commitStatus := 1 } ∧ SessionsKept n s t) ∧
      Serves (.discard via) via .observer [.mgmt] (fun _ _ => True)
        (fun n s t => sessionOf t n = { sessionOf s n with staged := [] } ∧ SessionsKept n s t)) ∧
    (∀ s level set d, levelFault level set = some d → commitFault s level set = some d) ∧
    (∀ s via n d m, sessionOf (refusalMark s via n d 0x2020 1) m
      = if m = n then { sessionOf s n with commitStatus := 2 } else sessionOf s m) ∧
    (∀ s set i j data, j < 256 → objKey i j ≠ objKey 0x2720 4 →
      setting (combinedView s (set ++ [(objKey i j, data)])) i j = writtenNumber i j data) ∧
    ∀ s set i j, j < 256 → (∀ e ∈ set, e.1 ≠ objKey i j) → setting (combinedView s set) i j = setting s i j)

/-- A write that passes its checks to a plain setting, on any path, sets its active value and no other (R424, R450); the value
in force of a setting that its block takes later stays as it was. A USDO
download does the same in its client's session (R435); an I3C frame well formed and not repeated does the same in session
12 + f (R441), and a tunnel payload in the session of its port (R442). -/
def Obligations.ObjectWrites : Prop :=
  (∀ p ∈ latchedSettings, ∀ (level : Level) (data : List Byte), writeFits level p.1 p.2 data = true → ∀ via : Via,
    Serves (.objectWrite via (BitVec.ofNat 16 p.1) (BitVec.ofNat 8 p.2) data) via level [.sys, .settings] (fun _ _ => True)
      (fun _ s t => setting t p.1 p.2 = writtenNumber p.1 p.2 data ∧ SettingsKept p.1 p.2 s t ∧
        forceN t p.1 p.2 = forceN s p.1 p.2)) ∧
  ∀ p ∈ plainSettings, ∀ (level : Level) (data : List Byte), writeFits level p.1 p.2 data = true →
    (∀ via : Via, Serves (.objectWrite via (BitVec.ofNat 16 p.1) (BitVec.ofNat 8 p.2) data) via level [.settings] (fun _ _ => True)
      (fun _ s t => setting t p.1 p.2 = writtenNumber p.1 p.2 data ∧ SettingsKept p.1 p.2 s t)) ∧
    (∀ (node : BitVec 7) (s : State) (n : Nat) (s' : State), Ready (endSegments s (.can node)) (.can node) level n s' →
      ∃ t, exec (.usdoDownload node (BitVec.ofNat 16 p.1) (BitVec.ofNat 8 p.2) data) s = .next (accept t (.can node) n 0 []) ∧
        Frame [.settings] s' t ∧ setting t p.1 p.2 = writtenNumber p.1 p.2 data ∧ SettingsKept p.1 p.2 s' t) ∧
    (∀ (port : Port) (s : State) (n : Nat) (s' : State), Ready s (.mailbox port) level n s' →
      ∃ t, exec (.dictionaryRequest port ([2] ++ leBytes 2 p.1 ++ leBytes 1 p.2 ++ leBytes 2 data.length ++ data)) s
          = .next (accept t (.mailbox port) n 0 []) ∧
        Frame [.settings] s' t ∧ setting t p.1 p.2 = writtenNumber p.1 p.2 data ∧ SettingsKept p.1 p.2 s' t) ∧
    ∀ (f : Fin 4) (seq : Fin 16) (s : State) (n : Nat) (s' : State), Ready s (.i3c f) level n s' →
      (sessionOf s (12 + f.val)).lastServed = none →
      let tag := 0x40 + 16 * f.val + seq.val
      let body := leBytes 1 tag ++ [2] ++ leBytes 2 p.1 ++ leBytes 1 p.2 ++ leBytes 2 data.length ++ data
      ∃ t, exec (.i3cRequest (withCrc body)) s = .next t ∧ setting t p.1 p.2 = writtenNumber p.1 p.2 data ∧
        SettingsKept p.1 p.2 s t ∧ (sessionOf t (12 + f.val)).response = responseFrame tag 0 0 0 []

/-- R435, R433. A USDO upload answers a plain setting's active value in its type's width and changes nothing but the request's
own records; a segment keeps the transfer open in its client's session, bound where none was; a segment not received in time
aborts the transfer with 0x2012 and 0x0504_0000 in the session's reject record, and changes no other session. -/
def Obligations.UploadsAndSegments : Prop :=
  (∀ p ∈ plainSettings, ∀ (r : ObjRow), objRow? p.1 p.2 = some r → ∀ (node : BitVec 7) (s : State) (n : Nat) (s' : State),
    Ready (endSegments s (.can node)) (.can node) .observer n s' →
      exec (.usdoUpload node (BitVec.ofNat 16 p.1) (BitVec.ofNat 8 p.2)) s
        = .next (accept s' (.can node) n 0 (typeBytes r.ty (setting s' p.1 p.2)))) ∧
  (∀ (node : BitVec 7) (idx : BitVec 16) (sub : BitVec 8) (s : State) (n : Nat) (s' : State),
    pathOpen s (.can node) = true → sessionFor s (.can node) = some (n, s') →
      ∃ t, exec (.usdoSegment node idx sub) s = .next t ∧ Frame [.mgmt] s' t ∧
        sessionOf t n = { sessionOf s' n with segment := objKey idx.toNat sub.toNat + 1 } ∧ SessionsKept n s' t) ∧
  ∀ (node : BitVec 7) (n : Nat), Completes (.usdoSegmentTimeout node) [.mgmt, .stats, .out]
    (fun s => canSession? s (.can node) = some n ∧ (sessionOf s n).segment ≠ 0 ∧ pathOpen s (.can node) = true)
    (fun s t => sessionOf t n = { sessionOf s n with
        segment := 0, lastDetail := 0x2012, lastAbort := 0x05040000, lastObject := (sessionOf s n).segment - 1,
        rejectCount := (sessionOf s n).rejectCount + 1 } ∧ SessionsKept n s t)

/-- R450, whole: existence, the present state, the access type, type and length, the level, the range, and then the owning
chapter's rules or the staging set. The owning block is bits 15..8 of the index, 0x20 below [2100]. Stated of OBJECT_WRITE on
any path, and of USDO_UPLOAD, whose checks end with the access type. -/
def Obligations.RequestsAreJudgedInOrder : Prop :=
  (∀ (via : Via) (idx : BitVec 16) (sub : BitVec 8) (data : List Byte) (s : State) (n : Nat) (s' : State),
    pathOpen s via = true → sessionFor s via = some (n, s') →
    let no := fun (d : Nat) => exec (.objectWrite via idx sub data) s
      = .next (reject s' via n (plainTag via) d idx.toNat sub.toNat true)
    let block := if idx.toNat < 0x2100 then 0x20 else idx.toNat / 256
    (objRow? idx.toNat sub.toNat = none → no 0x2003) ∧
    ∀ r, objRow? idx.toNat sub.toNat = some r →
      (s'.sys.recalling = true → no 0x2F05) ∧
      (s'.sys.recalling = false → s'.sys.dev = .standby → standbyServed idx.toNat sub.toNat = false → no 0x2004) ∧
      (s'.sys.recalling = false → s'.sys.dev ≠ .standby ∨ standbyServed idx.toNat sub.toNat = true →
        (r.access = .ro ∨ r.access = .const → no 0x2009) ∧
        (r.access ≠ .ro ∧ r.access ≠ .const →
          (r.ty.lengthOk data.length = false → no 0x200A) ∧
          (r.ty.lengthOk data.length = true →
            (levelNum (sessionOf s' n).level < levelNum r.level → no (block * 256 + 2)) ∧
            (levelNum r.level ≤ levelNum (sessionOf s' n).level →
              (r.ty.isNum = true ∧ r.inRange (writtenValue r data) = false → no (block * 256 + 1)) ∧
              (r.ty.isNum = false ∨ r.inRange (writtenValue r data) = true →
                ∀ o, (if r.staged then stageEntry s' n idx.toNat sub.toNat data
                    else writeEffect via idx.toNat sub.toNat data n s') = o →
                  exec (.objectWrite via idx sub data) s = match o with
                    | .error d => .next (reject (refusalMark s' via n d idx.toNat sub.toNat) via n (plainTag via) d
                        idx.toNat sub.toNat true)
                    | .ok t => .next (accept t via n (plainTag via) []))))))) ∧
  ∀ (node : BitVec 7) (idx : BitVec 16) (sub : BitVec 8) (s : State) (n : Nat) (s' : State),
    pathOpen (endSegments s (.can node)) (.can node) = true → sessionFor (endSegments s (.can node)) (.can node) = some (n, s') →
    let no := fun (d : Nat) => exec (.usdoUpload node idx sub) s
      = .next (reject s' (.can node) n 0 d idx.toNat sub.toNat false)
    (objRow? idx.toNat sub.toNat = none → no 0x2003) ∧
    ∀ r, objRow? idx.toNat sub.toNat = some r →
      (s'.sys.recalling = true → no 0x2F05) ∧
      (s'.sys.recalling = false → s'.sys.dev = .standby → standbyServed idx.toNat sub.toNat = false → no 0x2004) ∧
      (s'.sys.recalling = false → s'.sys.dev ≠ .standby ∨ standbyServed idx.toNat sub.toNat = true → r.access = .wo → no 0x2009)

/-- R433. A rejection writes its session's reject record, counts on the request's path and answers; it changes no other session,
no other statistic but a mailbox port's command count, and no unit beside those of the answer. A served request counts on its
path and changes no session but an I3C one's stored response. The abort codes are those of the table of R433. -/
def Obligations.AnswersAndRejections : Prop :=
  (∀ (s : State) (via : Via) (n tag d idx sub : Nat) (w : Bool),
    let t := reject s via n tag d idx sub w
    Frame [.mgmt, .stats, .out] s t ∧ SessionsKept n s t ∧
    t.mgmt = { s.mgmt with sessions := t.mgmt.sessions, i3cLast := t.mgmt.i3cLast } ∧
    sessionOf t n = { sessionOf s n with
      lastDetail := d, lastAbort := abortOf d idx w, lastObject := idx * 256 + sub,
      rejectCount := (sessionOf s n).rejectCount + 1, response := (sessionOf t n).response } ∧
    stat t 0x2041 (pathOf via + 1) = (stat s 0x2041 (pathOf via + 1) + 1) % 2 ^ 64 ∧
    StatsKept ((0x2041, pathOf via + 1, 1) :: spansAt 0x2B20 4 0x0B 1) s t) ∧
  (∀ (s : State) (via : Via) (n tag : Nat) (data : List Byte),
    let t := accept s via n tag data
    Frame [.mgmt, .perf, .stats, .out] s t ∧ SessionsKept n s t ∧
    t.mgmt = { s.mgmt with sessions := t.mgmt.sessions, i3cLast := t.mgmt.i3cLast } ∧
    sessionOf t n = { sessionOf s n with response := (sessionOf t n).response } ∧
    stat t 0x2040 (pathOf via + 1) = (stat s 0x2040 (pathOf via + 1) + 1) % 2 ^ 64 ∧
    StatsKept ((0x2040, pathOf via + 1, 1) :: spansAt 0x2B20 4 0x0B 1) s t) ∧
  (∀ (s : State) (f : Fin 4) (n tag status abort detail : Nat) (data : List Byte),
    (sessionOf (answer s (.i3c f) n tag status abort detail data) n).response
      = responseFrame tag status abort detail data) ∧
  (∀ idx w, abortOf 0x2012 idx w = 0x05040000 ∧ abortOf 0x2007 idx w = 0x05040005 ∧ abortOf 0x200D idx w = 0x05040005 ∧
    abortOf 0x2009 idx false = 0x06010001 ∧ abortOf 0x2009 idx true = 0x06010002 ∧ abortOf 0x2010 idx w = 0x06040041 ∧
    abortOf 0x2011 idx w = 0x06040042 ∧ abortOf 0x2403 idx w = 0x06040043 ∧ abortOf 0x200A idx w = 0x06070010 ∧
    abortOf 0x2401 idx w = 0x06090030 ∧ abortOf 0x200B idx w = 0x08000020 ∧ abortOf 0x2402 idx w = 0x08000021 ∧
    abortOf 0x2005 idx w = 0x08000021 ∧ abortOf 0x2006 idx w = 0x08000021 ∧ abortOf 0x200F idx w = 0x08000021 ∧
    abortOf 0x2004 idx w = 0x08000022 ∧ abortOf 0x2F05 idx w = 0x08000022) ∧
  abortOf 0x2003 0x2BFF false = 0x06020000 ∧ abortOf 0x2003 0x2010 false = 0x06090011

/-- R436. Start, stop and enter pre-operational change the NMT state; stop also drops the queued EMCYs (R438). Reset node and
reset communication release sessions 4 to 11 and no other, apply [2001.02] to [2001.04], enter Pre-operational, or Operational
where [2001.08] says so, send the boot-up message and record event 0x2008 with the node-ID field of the command. None of them
changes device state, the data path or any other unit (the frame; R6). A node that cannot receive does nothing.
R435, R438. A SYNC counts for every TPDO of type 0x01 to 0xF0; an event timer sends its TPDO with the bytes of its mapped
objects; the producer heartbeat carries the NMT state. At the end of the inhibit time the next queued EMCY goes out. Bus-off is
recorded as event 0x2007 with the controller's counts and stops the controller until it recovers. The error history is emptied
by its clear. -/
def Obligations.NmtAndCanServices : Prop :=
  (
    (∀ b : Bool,
      Completes (.nmtStart b) [.mgmt] (fun s => canUp s = true) (fun s t => t.mgmt = { s.mgmt with nmt := .operational }) ∧
      Completes (.nmtStop b) [.mgmt] (fun s => canUp s = true)
        (fun s t => t.mgmt = { s.mgmt with nmt := .stopped, emcyQueue := [] }) ∧
      Completes (.nmtEnterPreOperational b) [.mgmt] (fun s => canUp s = true)
        (fun s t => t.mgmt = { s.mgmt with nmt := .preOperational }) ∧
      (∀ x ∈ [(Instr.nmtResetNode b, 0x81), (Instr.nmtResetCommunication b, 0x82)],
        Completes x.1 [.mgmt, .folio, .ledger, .stats, .out] (fun s => canUp s = true) (fun s t =>
          (∀ n, sessionOf t n = if 4 ≤ n ∧ n < 12 then {} else sessionOf s n) ∧
          t.mgmt.nmt = (if settingB s 0x2001 8 then .operational else .preOperational) ∧
          t.mgmt.nodeId = settingN s 0x2001 2 ∧ t.mgmt.arbitrationRate = settingN s 0x2001 3 ∧
          t.mgmt.dataRate = settingN s 0x2001 4 ∧
          t.out = .can (0x700 + settingN s 0x2001 2) [0] :: s.out ∧
          LogsEvent 0x2008 (leBytes 1 x.2 ++ leBytes 1 (if b then 0 else s.mgmt.nodeId)) s t)) ∧
      ∀ c ∈ [Instr.nmtStart b, .nmtStop b, .nmtEnterPreOperational b, .nmtResetNode b, .nmtResetCommunication b],
        ∀ s, canUp s = false → exec c s = .next s)) ∧
  (
    Completes .sync [.mgmt, .out] (fun s => canUp s = true ∧ s.mgmt.nmt = .operational) (fun s t =>
      ∀ i, i < 8 → tabGet dNat t.mgmt.syncCount i =
        (if 0xF0 < settingN s (0x1800 + i) 2 then tabGet dNat s.mgmt.syncCount i
          else if settingN s (0x1800 + i) 2 ≤ tabGet dNat s.mgmt.syncCount i + 1 then 0
          else tabGet dNat s.mgmt.syncCount i + 1)) ∧
    (∀ i : Fin 8, Completes (.tpdoEventTimer i) [.mgmt, .out]
      (fun s => 0xFE ≤ settingN s (0x1800 + i.val) 2 ∧ settingN s (0x1800 + i.val) 5 ≠ 0 ∧ tpdoReady s i.val = true)
      (fun s t => t.out = .can ((settingEff s (objKey (0x1800 + i.val) 1)).toNat % 2048)
          ((mappedEntries s i.val).flatMap (tpdoBytes s)) :: s.out ∧
        t.mgmt = { s.mgmt with tpdoSent := tabSet dNat s.mgmt.tpdoSent i.val (s.sys.time + 1) })) ∧
    Completes .heartbeatProducer [.out] (fun s => canUp s = true ∧ settingN s 0x1017 0 ≠ 0) (fun s t =>
      t.out = .can (0x700 + s.mgmt.nodeId) [BitVec.ofNat 8 (nmtNum s.mgmt.nmt)] :: s.out) ∧
    (∀ frame rest, Completes .emcyInhibitExpiry [.mgmt, .out]
      (fun s => canUp s = true ∧ emcyStates s = true ∧ s.mgmt.emcyQueue = frame :: rest ∧ 0 < settingN s 0x1015 0)
      (fun s t => t.out = .can (emcyCobId s) frame :: s.out ∧
        t.mgmt = { s.mgmt with emcyQueue := rest, emcyInhibited := true })) ∧
    Completes .emcyInhibitExpiry [.mgmt] (fun s => s.mgmt.emcyQueue = [])
      (fun s t => t.mgmt = { s.mgmt with emcyInhibited := false }) ∧
    (∀ tec rxErrors : Byte, Completes (.canBusOff tec rxErrors) [.mgmt, .folio, .ledger, .stats] (fun s => canUp s = true)
      (fun s t => t.mgmt = { s.mgmt with canError := 2 } ∧ LogsEvent 0x2007 [tec, rxErrors] s t)) ∧
    Completes .canBusOffRecovery [.mgmt, .out] (fun s => s.mgmt.canError = 2)
      (fun s t => t.mgmt.canError = 0 ∧ t.mgmt.sessions = s.mgmt.sessions ∧ t.mgmt.nmt = s.mgmt.nmt) ∧
    ∀ via : Via, Serves (.errorHistoryClear via) via .operator [.mgmt] (fun _ _ => True)
      (fun _ s t => t.mgmt = { s.mgmt with errorHistory := [] }))

/-- R437, whole: for each entry of [1016] with a nonzero time. The EMCY enters [1003] and is sent where one can be sent now
(R438). -/
def Obligations.Heartbeats : Prop :=
  (∀ e : Fin 4, Completes (.heartbeatTimeout e) [.mgmt, .folio, .ledger, .stats, .out]
    (fun s => settingB s 0x2001 1 = true ∧ (heartbeatEntry s e.val).2 ≠ 0 ∧ tabGet dBool s.mgmt.heartbeatLost e.val = false)
    (fun s t =>
      (∀ i, tabGet dBool t.mgmt.heartbeatLost i = (decide (i = e.val) || tabGet dBool s.mgmt.heartbeatLost i)) ∧
      errorRegister t / 16 % 2 = 1 ∧
      LogsEvent 0x2006 (leBytes 1 (heartbeatEntry s e.val).1) s t ∧
      t.mgmt.errorHistory = ((0x8130 + 65536 * 0x2006) :: s.mgmt.errorHistory).take 8 ∧
      (canUp s = true → emcyStates s = true → s.mgmt.emcyInhibited = false → s.mgmt.emcyQueue = [] →
        ∃ seq, t.out = .can (emcyCobId s) (leBytes 2 0x8130 ++ leBytes 1 (errorRegister t) ++ leBytes 2 0x2006 ++ leBytes 3 seq)
          :: s.out) ∧
      t.mgmt = { s.mgmt with
        heartbeatLost := t.mgmt.heartbeatLost, errorSeen := t.mgmt.errorSeen, errorHistory := t.mgmt.errorHistory,
        emcyQueue := t.mgmt.emcyQueue, emcyInhibited := t.mgmt.emcyInhibited })) ∧
  ∀ node : BitVec 7, Completes (.heartbeatReceived node) [.mgmt, .out] (fun s => canUp s = true)
    (fun s t => (∀ i, i < 4 → tabGet dBool t.mgmt.heartbeatLost i
        = (tabGet dBool s.mgmt.heartbeatLost i && !decide ((heartbeatEntry s i).1 = node.toNat))) ∧
      t.mgmt.sessions = s.mgmt.sessions ∧ t.mgmt.nmt = s.mgmt.nmt)

/-- R440, R441. ENEC and DISEC open and close in-band interrupts; ENTDAA, answered with the provisional ID, BCR 0x06 and DCR
0x00, and SETDASA give a target without an address its dynamic address, SETNEWDA changes it, RSTDAA takes it away with the I3C
sessions. The GET codes answer their fixed bytes; the two bytes of GETSTATUS and the order of GETMWL and GETMRL are the model's
(log entry 39). A refused frame executes nothing: it is counted and answered with status 0x02 and 0x2008. A repeated request is
answered from the stored response, a private read returns it as often as it is asked. -/
def Obligations.I3cTarget : Prop :=
  (∀ (address : BitVec 7), address ≠ 0 →
    Completes (.entdaa address) [.mgmt, .out] (fun s => i3cOn s = true ∧ s.mgmt.dynamicAddress = 0) (fun s t =>
      t.mgmt = { s.mgmt with dynamicAddress := address.toNat } ∧
      t.out = .ccc ((leBytes 6 (0x0A5C * 2 ^ 33 + 0x7480 * 2 ^ 16 + s.mgmt.instanceId * 2 ^ 12)).reverse ++ [0x06, 0x00])
        :: s.out) ∧
    Completes (.setdasa address) [.mgmt] (fun s => i3cOn s = true ∧ s.mgmt.dynamicAddress = 0)
      (fun s t => t.mgmt = { s.mgmt with dynamicAddress := address.toNat }) ∧
    Completes (.setnewda address) [.mgmt] (fun s => i3cOn s = true ∧ s.mgmt.dynamicAddress ≠ 0)
      (fun s t => t.mgmt = { s.mgmt with dynamicAddress := address.toNat })) ∧
  Completes .enec [.mgmt] (fun s => i3cOn s = true) (fun s t => t.mgmt = { s.mgmt with ibiEnabled := true }) ∧
  Completes .disec [.mgmt] (fun s => i3cOn s = true) (fun s t => t.mgmt = { s.mgmt with ibiEnabled := false }) ∧
  Completes .rstdaa [.mgmt] (fun s => i3cOn s = true) (fun s t =>
    t.mgmt.dynamicAddress = 0 ∧ t.mgmt.staticAddress = settingN s 0x2002 2 ∧ t.mgmt.instanceId = settingN s 0x2002 6 ∧
    ∀ n, sessionOf t n = if 12 ≤ n ∧ n < 16 then {} else sessionOf s n) ∧
  (∀ x ∈ [(Instr.getbcr, [(0x06 : Byte)]), (.getdcr, [0x00]), (.getmwl, [0x01, 0x20]), (.getmrl, [0x01, 0x20])],
    Completes x.1 [.out] (fun s => i3cOn s = true ∧ s.mgmt.dynamicAddress ≠ 0) (fun s t => t.out = .ccc x.2 :: s.out)) ∧
  Completes .getpid [.out] (fun s => i3cOn s = true ∧ s.mgmt.dynamicAddress ≠ 0) (fun s t => t.out =
    .ccc (leBytes 6 (0x0A5C * 2 ^ 33 + 0x7480 * 2 ^ 16 + s.mgmt.instanceId * 2 ^ 12)).reverse :: s.out) ∧
  Completes .getstatus [.out, .path] (fun s => i3cOn s = true ∧ s.mgmt.dynamicAddress ≠ 0)
    (fun s t => ∃ bs : List Byte, bs.length = 2 ∧ t.out = .ccc bs :: s.out) ∧
  (∀ (frame : List Byte) (f : Fin 4), (frame.headD 0).toNat / 16 % 4 = f.val →
    Completes (.i3cRequest frame) [.mgmt, .stats, .out] (fun s => pathOpen s (.i3c f) = true ∧ frameOk frame = false)
      (fun s t => stat t 0x2041 6 = (stat s 0x2041 6 + 1) % 2 ^ 64 ∧ StatsKept [(0x2041, 6, 1)] s t ∧
        let answer := responseFrame (frame.headD 0).toNat 2 0 0x2008 []
        if (sessionOf s (12 + f.val)).client.isSome then
          sessionOf t (12 + f.val) = { sessionOf s (12 + f.val) with
            lastDetail := 0x2008, lastAbort := 0, lastObject := 0,
            rejectCount := (sessionOf s (12 + f.val)).rejectCount + 1, response := answer } ∧ SessionsKept (12 + f.val) s t
        else t.mgmt = { s.mgmt with i3cRefusal := answer }) ∧
    ∀ response, Completes (.i3cRequest frame) [.mgmt, .out]
      (fun s => pathOpen s (.i3c f) = true ∧ frameOk frame = true ∧
        (sessionOf s (12 + f.val)).lastServed = some (numAt frame 0 1, numAt frame (frame.length - 4) 4, response))
      (fun s t => sessionOf t (12 + f.val) = { sessionOf s (12 + f.val) with response := response } ∧
        SessionsKept (12 + f.val) s t)) ∧
  (∀ f : Fin 4, Completes .i3cResponseRead [.out]
    (fun s => pathOpen s (.i3c 0) = true ∧ s.mgmt.i3cRefusal = [] ∧ s.mgmt.i3cLast = some f ∧
      (sessionOf s (12 + f.val)).response ≠ [])
    (fun s t => t.out = .i3cData (sessionOf s (12 + f.val)).response :: s.out)) ∧
  Completes .i3cResponseRead [.mgmt, .out] (fun s => pathOpen s (.i3c 0) = true ∧ s.mgmt.i3cRefusal ≠ [])
    (fun s t => t.out = .i3cData s.mgmt.i3cRefusal :: s.out ∧ t.mgmt = { s.mgmt with i3cRefusal := [] })

/-- R439, R408. A store, at Maintainer level and on any of the three subindices, queues the update of every section 0 to 8 whose
copies do not both hold its content, and of no other, and records event 0x3106 with their mask; it changes no active value. A
restore sets the restore-defaults bit of section 9 and queues its update; the active values stay until the next Priming. Any
other signature is refused with 0x200B. -/
def Obligations.ParameterStores : Prop :=
  ∀ (via : Via) (which : Fin 3),
    Serves (.storeParameters via which) via .maintainer [.mgmt, .folio, .ledger, .stats, .out] (fun _ _ => True)
      (fun n s t => LogsEvent 0x3106 (leBytes 1 n ++ leBytes 2 ((changedSections s).foldl (fun m k => m + 2 ^ k) 0)) s t ∧
        t.folio = { ((changedSections s).foldl sectionUpdate s).folio with tallyPending := t.folio.tallyPending } ∧
        (∀ k ∈ changedSections s, k < 9) ∧ t.mgmt = s.mgmt) ∧
    Serves (.restoreDefaultParameters via which) via .maintainer [.folio] (fun _ _ => True)
      (fun _ s t => tabGet dImage t.folio.image 0x9000 = 1 ∧ (∀ a, a ≠ 0x9000 → tabGet dImage t.folio.image a = tabGet dImage s.folio.image a) ∧
        t.folio.queue ≠ [] ∧ t.folio.bytes = s.folio.bytes) ∧
    ∀ (idx : BitVec 16) (data : List Byte), idx = 0x1010 ∨ idx = 0x1011 → data.length = 4 →
      (ofLe data ≠ if idx = 0x1010 then 0x65766173 else 0x64616F6C) →
      Rejects (.objectWrite via idx (BitVec.ofNat 8 (which.val + 1)) data) via .maintainer 0x200B idx.toNat (which.val + 1)
        (fun _ _ => True)

/-- R339, R341. At an AON tick every rail that is enabled and not yet running advances its own count: it starts at 0 at the first
high sample, adds one while the input is high and its latch clear, and otherwise returns and counts one chatter event; no other
rail field changes. A rail whose count has reached the tPGQ its enable took is running and counts one start; the last rail of a device stage begins
the next stage, the last of stage 4 the stagger of the media domains, the last of stage A of a domain its stage B, and the last
of stage B makes the domain good. -/
def Obligations.RailSequencing : Prop :=
  (∀ high lowLatch : BitVec 30, Completes (.pgTickSample high lowLatch) [.folio, .power] (fun _ => True) (fun s t =>
    t.power = { s.power with rails := t.power.rails } ∧
    ∀ r, railOf t r =
      (let x := railOf s r
       if 30 ≤ r ∨ x.enabled = false ∨ x.running = true then x
       else match x.count with
         | none => if high.getLsbD r then { x with count := some 0 } else x
         | some n => if high.getLsbD r && !lowLatch.getLsbD r then { x with count := some (n + 1) }
           else { x with count := none, chatter := x.chatter + 1 }))) ∧
  (∀ rail : Rail, ∀ n : Nat,
    let qualified := fun (s : State) => (railOf s rail.val).enabled = true ∧ (railOf s rail.val).running = false ∧
      (railOf s rail.val).count = some n ∧ (railOf s rail.val).qualify ≤ n
    Completes (.railQualified rail) [.power, .stats] (fun s => qualified s ∧ rail.val = 5) (fun s t =>
      railOf t 5 = { railOf s 5 with running := true } ∧ RailsKept 5 s t ∧
      stat t 0x2E15 0x0D = (stat s 0x2E15 0x0D + 1) % 2 ^ statBits 0x2E15 0x0D) ∧
    (∀ stage, 1 ≤ stage ∧ stage < 4 → Completes (.railQualified rail) [.sys, .power, .stats]
      (fun s => qualified s ∧ s.power.deviceStage = stage ∧ rail.val ∈ stageRails stage ∧
        ∀ r ∈ stageRails stage, r ≠ rail.val → (railOf s r).running = true)
      (fun s t => (railOf t rail.val).running = true ∧ t.power.deviceStage = stage + 1 ∧
        (∀ r ∈ stageRails (stage + 1), (railOf t r).enabled = true ∧ (railOf t r).running = false ∧ (railOf t r).count = none) ∧
        (∀ r, r ≠ rail.val → r ∉ stageRails (stage + 1) → railOf t r = railOf s r) ∧
        t.sys.corePll = (decide (rail.val = 0) || s.sys.corePll))) ∧
    Completes (.railQualified rail) [.sys, .power, .stats] (fun s => qualified s ∧ s.power.deviceStage = 4 ∧ rail.val = 4)
      (fun s t => (railOf t 4).running = true ∧ t.sys.step = 5 ∧ ∀ k, k < 8 → (domainOf t k).phase = .stagger) ∧
    (∀ k : Column, Completes (.railQualified rail) [.power, .stats]
      (fun s => qualified s ∧ (rail.val = 6 + 3 * k.val ∨ rail.val = 7 + 3 * k.val) ∧ (domainOf s k.val).phase = .stageA ∧
        ∀ r, r = 6 + 3 * k.val ∨ r = 7 + 3 * k.val → r ≠ rail.val → (railOf s r).running = true)
      (fun s t => (railOf t rail.val).running = true ∧ (domainOf t k.val).phase = .stageB ∧
        (railOf t (8 + 3 * k.val)).enabled = true ∧ ∀ j, j ≠ k.val → domainOf t j = domainOf s j)) ∧
    ∀ k : Column, Completes (.railQualified rail) [.sys, .mgmt, .folio, .ledger, .power, .channels, .stats, .out]
      (fun s => qualified s ∧ rail.val = 8 + 3 * k.val ∧ (domainOf s k.val).phase = .stageB)
      (fun s t => (railOf t rail.val).running = true ∧ (domainOf t k.val).phase = .good)) ∧
  ∀ k : Column, Completes (.domainStagger k) [.power] (fun s => (domainOf s k.val).phase = .stagger) (fun s t =>
    domainOf t k.val = { domainOf s k.val with phase := .stageA } ∧ (∀ j, j ≠ k.val → domainOf t j = domainOf s j) ∧
    (railOf t (6 + 3 * k.val)).enabled = true ∧ (railOf t (7 + 3 * k.val)).enabled = true ∧
    ∀ r, r ≠ 6 + 3 * k.val → r ≠ 7 + 3 * k.val → railOf t r = railOf s r)

/-- R340, R343, R345, R347, R348, R350. A rail that fails to start is driven low and recorded as event 0x2E01 with its cause and
chatter count; a device rail's failure begins the stop order without Varnish, the VAON branch's changes nothing else. A loss of
power-good that ends is a counted glitch; one still present is a running fault, counted once: of the VAON branch it changes no
state, of a device rail in service it enters Warn with cause 2, the rail left enabled, of a media rail it takes its domain off:
held in reset, VMP dropped, and VMC and VMQ 100 µs later. A rail that has not discharged in 5 ms reads 5,000 µs and is counted and
recorded, but not while the ADC is in fault. -/
def Obligations.RailFaults : Prop :=
  (∀ (rail : Rail), ∀ x ∈ [(Instr.railStartFailure rail, 1), (Instr.sequenceTimeout rail, 2)],
    let fails := fun (s : State) => (railOf s rail.val).enabled = true ∧ (railOf s rail.val).running = false ∧
      (railOf s rail.val).startFailed = false ∧ (x.2 = 1 ↔ 8 ≤ (railOf s rail.val).chatter)
    Completes x.1 [.mgmt, .folio, .ledger, .power, .stats, .out]
      (fun s => fails s ∧ rail.val ≤ 4 ∧ s.power.stopStep = none ∧ s.power.failedStarts + 1 < settingN s 0x2E00 0x0D)
      (fun s t => (railOf t rail.val).enabled = false ∧ (railOf t rail.val).startFailed = true ∧ RailsKept rail.val s t ∧
        t.power.stopStep = some 0 ∧ t.power.stopForStart = true ∧ t.power.failedStarts = s.power.failedStarts + 1 ∧
        tabGet dNat t.folio.tallyPending (5 * rail.val + 1) = min (tabGet dNat s.folio.tallyPending (5 * rail.val + 1) + 1) 65535 ∧
        LogsEvent 0x2E01 (leBytes 1 rail.val ++ leBytes 1 x.2 ++ satBytes 1 (railOf s rail.val).chatter) s t) ∧
    Completes x.1 [.mgmt, .folio, .ledger, .power, .stats, .out] (fun s => fails s ∧ rail.val = 5)
      (fun s t => railOf t 5 = { railOf s 5 with startFailed := true } ∧ RailsKept 5 s t ∧
        LogsEvent 0x2E01 (leBytes 1 5 ++ leBytes 1 x.2 ++ satBytes 1 (railOf s 5).chatter) s t)) ∧
  (∀ rail : Rail,
    Completes (.pgLoss rail) [.power] (fun s => (railOf s rail.val).running = true) (fun s t =>
      railOf t rail.val = { railOf s rail.val with losing := true, faulted := faultStands rail.val (railOf s rail.val) } ∧ RailsKept rail.val s t) ∧
    Completes (.pgGlitchEnd rail) [.power, .folio] (fun s => (railOf s rail.val).losing = true) (fun s t =>
      railOf t rail.val = { railOf s rail.val with losing := false } ∧ RailsKept rail.val s t ∧
      tabGet dNat t.folio.tallyPending (5 * rail.val + 2) = min (tabGet dNat s.folio.tallyPending (5 * rail.val + 2) + 1) 65535) ∧
    Completes (.pgDropTimeout rail) [.mgmt, .folio, .ledger, .power, .stats, .out]
      (fun s => (railOf s rail.val).losing = true ∧ (railOf s rail.val).running = true ∧ (railOf s rail.val).faulted = false ∧
        rail.val = 5)
      (fun s t => railOf t 5 = { railOf s 5 with faulted := true, losing := false } ∧ RailsKept 5 s t ∧
        tabGet dNat t.folio.tallyPending 28 = min (tabGet dNat s.folio.tallyPending 28 + 1) 65535) ∧
    Completes (.pgDropTimeout rail)
      [.sys, .mgmt, .folio, .ledger, .power, .reserve, .thermal, .channels, .groups, .barrow, .stats, .out]
      (fun s => (railOf s rail.val).losing = true ∧ (railOf s rail.val).running = true ∧ (railOf s rail.val).faulted = false ∧
        rail.val ≤ 4 ∧ inService s = true)
      (fun s t => t.sys.dev = .warn ∧ t.sys.warnCause = 2 ∧ t.sys.warnFrom = s.sys.dev ∧
        (railOf t rail.val).enabled = (railOf s rail.val).enabled ∧ (railOf t rail.val).faulted = true ∧ t.power.pfwLow = true ∧
        FramesOnly s t) ∧
    Completes (.pgDropTimeout rail)
      [.sys, .mgmt, .folio, .ledger, .power, .reserve, .thermal, .channels, .groups, .easel, .directory, .queues, .barrow, .perf, .path, .stats, .out]
      (fun s => (railOf s rail.val).losing = true ∧ (railOf s rail.val).running = true ∧ (railOf s rail.val).faulted = false ∧
        6 ≤ rail.val ∧ (domainOf s (railDomain rail.val)).phase = .good)
      (fun _ t => (domainOf t (railDomain rail.val)).phase = .stopping ∧ (domainOf t (railDomain rail.val)).lost = true ∧
        (domainOf t (railDomain rail.val)).resetLow = true ∧ (railOf t (8 + 3 * railDomain rail.val)).enabled = false) ∧
    (∀ d, Completes (.dischargeTimeout rail) [.mgmt, .folio, .ledger, .power, .stats, .out]
      (fun s => (railOf s rail.val).discharging = true ∧ s.power.adcFault = d)
      (fun s t => railOf t rail.val = { railOf s rail.val with discharging := false } ∧ RailsKept rail.val s t ∧
        stat t (0x2E10 + rail.val) 0x14 = 5000 ∧
        if d then t.ledger = s.ledger ∧ t.folio = s.folio
        else LogsEvent 0x2E04 (leBytes 1 rail.val ++ satBytes 2 (railOf s rail.val).voltage) s t ∧
          tabGet dNat t.folio.tallyPending (5 * rail.val + 4)
            = min (tabGet dNat s.folio.tallyPending (5 * rail.val + 4) + 1) 65535))) ∧
  ∀ k : Column, Completes (.domainOffCoreRails k) [.power] (fun s => (domainOf s k.val).phase = .stopping) (fun s t =>
    domainOf t k.val = { domainOf s k.val with phase := .off } ∧ (∀ j, j ≠ k.val → domainOf t j = domainOf s j) ∧
    (railOf t (6 + 3 * k.val)).enabled = false ∧ (railOf t (7 + 3 * k.val)).enabled = false ∧
    ∀ r, r ≠ 6 + 3 * k.val → r ≠ 7 + 3 * k.val → railOf t r = railOf s r)

/-- R349. Each step of the stop order up to 800 µs drives its rails' enables low, no other rail changing, and the next step is due;
step 0 also holds every media domain in reset. The steps at t_D and at the end are taken only when every rail dropped before is
below 10 % or has timed out. At the last step of a failed start the block is in Standby with the bleed path on; of a shutdown, the
epilogue begins with the closed record queued, whole recall given. -/
def Obligations.StopOrder : Prop :=
  let lowered := fun (n : Nat) => if n = 0 then [29] else if n ≤ 7 then [6 + 3 * (8 - n), 7 + 3 * (8 - n), 8 + 3 * (7 - n)]
    else if n = 8 then [6, 7] else if n = 10 then [2, 3] else if n = 11 then [1] else if n = 12 then [0] else []
  (∀ n, n ≤ 12 → n ≠ 9 → n ≠ 0 → Completes .stopOrderStep [.sys, .power] (fun s => s.power.stopStep = some n) (fun s t =>
    t.power.stopStep = some (n + 1) ∧ (∀ r ∈ lowered n, (railOf t r).enabled = false) ∧
    (∀ r, r ∉ lowered n → railOf t r = railOf s r) ∧
    t.sys = { s.sys with corePll := if n = 12 then false else s.sys.corePll })) ∧
  Completes .stopOrderStep [.sys, .mgmt, .folio, .ledger, .power, .channels, .groups, .easel, .directory, .queues, .barrow, .perf, .path, .stats, .out]
    (fun s => s.power.stopStep = some 0)
    (fun s t => t.power.stopStep = some 1 ∧ (railOf t 29).enabled = false ∧ RailsKept 29 s t ∧
      ∀ k, k < 8 → (domainOf t k).resetLow = true) ∧
  (∀ b, Completes .stopOrderStep [.power]
    (fun s => s.power.stopStep = some 9 ∧ discharged s ((List.range 24).map (· + 6)) = b)
    (fun s t => if b then t.power.stopStep = some 10 ∧ (railOf t 4).enabled = false ∧ RailsKept 4 s t else t = s)) ∧
  Completes .stopOrderStep [] (fun s => s.power.stopStep = some 13 ∧ discharged s (List.range 5) = false) (fun s t => t = s) ∧
  Completes .stopOrderStep
    [.sys, .mgmt, .power, .reserve, .channels, .ports, .groups, .easel, .palette, .crypt, .directory, .queues, .barrow, .perf, .path]
    (fun s => s.power.stopStep = some 13 ∧ discharged s (List.range 5) = true ∧ s.power.stopForStart = true)
    (fun s t => t.power.stopStep = none ∧ t.sys.dev = .standby ∧ t.reserve.bleedEn = true ∧ t.reserve.chgEn = false ∧
      ∀ k, k < 8 → (domainOf t k).phase = .off) ∧
  Completes .stopOrderStep
    [.sys, .mgmt, .folio, .power, .reserve, .channels, .ports, .groups, .easel, .palette, .crypt, .directory, .queues, .barrow, .perf, .path]
    (fun s => s.power.stopStep = some 13 ∧ discharged s (List.range 5) = true ∧ s.power.stopForStart = false ∧
      s.sys.recalling = false)
    (fun s t => t.power.stopStep = none ∧ t.sys.dev = s.sys.dev ∧ t.folio.epilogueOver = false ∧
      ∃ i ∈ t.folio.queue, i.task = .closedRecord ∧ i.cls = 1)

/-- R344, R359, R23. A start request releases the lockout and its count. A press acts as its enable bit and the state say: in
Standby it releases the lockout, in Active, Recovery and Test it enters Warn with cause 5, MR_N in Priming latches a restart, and
in Warn, Varnish and Varnished it is ignored; every action counts in tally 187. A restart request enters Warn with cause 5 in
service and is refused with 0x2F04 elsewhere; the self-test runs on request in Test only. -/
def Obligations.StartAndRestartRequests : Prop :=
  (∀ via : Via,
    Serves (.startRequest via) via .operator [.power] (fun _ _ => True)
      (fun _ s t => t.power = { s.power with lockout := false, failedStarts := 0 }) ∧
    Serves (.restartRequest via) via .maintainer
      [.sys, .mgmt, .folio, .ledger, .power, .reserve, .thermal, .channels, .groups, .barrow, .stats, .out]
      (fun _ s => inService s = true)
      (fun _ s t => t.sys.dev = .warn ∧ t.sys.warnCause = 5 ∧ t.sys.warnFrom = s.sys.dev ∧ t.sys.warnAt = s.sys.time ∧
        t.power.pfwLow = true ∧ t.reserve.frozen = true ∧ FramesOnly s t) ∧
    Rejects (.restartRequest via) via .maintainer 0x2F04 0x2F00 4 (fun _ s => inService s = false) ∧
    (∀ results : BitVec 16,
      Serves (.selfTestRequest via results) via .maintainer
        [.sys, .mgmt, .folio, .ledger, .groups, .easel, .directory, .queues, .barrow, .perf, .path, .stats, .out]
        (fun _ s => s.sys.dev = .test ∧ ∀ g, g < 8 → pathTested s g = true)
        (fun _ s t => t.sys = { s.sys with selfTest := results.toNat % 128 + results.toNat / 256 * 256 }) ∧
      Rejects (.selfTestRequest via results) via .maintainer 0x2F03 0x2F00 5 (fun _ s => s.sys.dev ≠ .test))) ∧
  (∀ x ∈ [(Instr.pbtnAction, 0, 0), (.mrAction, 2, 1)],
    Completes x.1 [.mgmt, .folio, .ledger, .power, .stats, .out]
      (fun s => s.sys.dev = .standby ∧ bitOf (settingN s 0x2E00 0x0B) x.2.1 = true)
      (fun s t => t.power = { s.power with lockout := false, failedStarts := 0 } ∧
        LogsEvent 0x2E0B (leBytes 1 x.2.2 ++ leBytes 1 0 ++ leBytes 1 1) s t ∧
        tabGet dNat t.folio.tallyPending 187 = min (tabGet dNat s.folio.tallyPending 187 + 1) 65535) ∧
    (∀ s, inShutdown s = true → exec x.1 s = .next s) ∧
    (∀ s, (∀ n, bitOf (settingN s 0x2E00 0x0B) n = false) → exec x.1 s = .next s)) ∧
  (∀ x ∈ [(Instr.pbtnAction, 1), (.mrAction, 2)],
    Completes x.1 [.sys, .mgmt, .folio, .ledger, .power, .reserve, .thermal, .channels, .groups, .barrow, .stats, .out]
      (fun s => inService s = true ∧ bitOf (settingN s 0x2E00 0x0B) x.2 = true)
      (fun s t => t.sys.dev = .warn ∧ t.sys.warnCause = 5 ∧ t.sys.warnFrom = s.sys.dev ∧ FramesOnly s t)) ∧
  Completes .mrAction [.sys, .mgmt, .folio, .ledger, .stats, .out]
    (fun s => s.sys.dev = .priming ∧ bitOf (settingN s 0x2E00 0x0B) 2 = true)
    (fun s t => t.sys = { s.sys with restartLatched := true } ∧
      LogsEvent 0x2E0B (leBytes 1 1 ++ leBytes 1 1 ++ leBytes 1 3) s t)

/-- R353, R346, R354. A sample of VIN and of VRES is kept; a sample of a rail that is running inside its warn band ends an excursion
and moves the extremes, and a second reference check in a row outside 1 % of full scale is an ADC fault, recorded as 0x2E08.
R356: a telemetry pass pushes one TQ packet of 32 words and reads every answering regulator into [2E1n.0A] to [2E1n.0C]; an alert
reads STATUS_WORD of the rails at its address, records 0x2E07 and clears the faults; the 10 s of an unreachable regulator end.
R357, R351: in Test a reachable rail takes its margin and OPERATION; nominal ends it; other devices states and unreachable rails are
refused. A restart of an off domain in Active begins its stage A; it is refused with 0x2E06 or 0x2E07 otherwise. -/
def Obligations.AdcAndPmbus : Prop :=
  (∀ value : BitVec 16,
    Completes (.adcSample .vin value) [.power] (fun _ => True) (fun s t => t.power = { s.power with vin := value.toNat }) ∧
    (∀ r : Rail, Completes (.adcSample (.rail r) value) [.power, .stats]
      (fun s => (railOf s r.val).running = true ∧ s.power.adcFault = false ∧ s.power.marginState = 0 ∧
        (if nominalMv r.val ≤ value.toNat then value.toNat - nominalMv r.val else nominalMv r.val - value.toNat) * 100
          ≤ nominalMv r.val * min (settingN s (0x2E10 + r.val) 2) (settingN s (0x2E10 + r.val) 3) ∧
        100 * value.toNat ≤ 115 * nominalMv r.val)
      (fun s t => railOf t r.val = { railOf s r.val with
          bandRun := 0, overRun := 0, excursion := false, voltage := value.toNat } ∧ RailsKept r.val s t ∧
        stat t (0x2E10 + r.val) 8 = min (stat s (0x2E10 + r.val) 8) value.toNat ∧
        stat t (0x2E10 + r.val) 9 = max (stat s (0x2E10 + r.val) 9) value.toNat)) ∧
    Completes (.adcSample .refCheck value)
      [.sys, .mgmt, .folio, .ledger, .power, .reserve, .thermal, .channels, .groups, .easel, .directory, .queues, .barrow, .perf, .path, .stats, .out]
      (fun s => s.power.refBad = true ∧ s.power.adcFault = false ∧ 4096 < value.toInt.natAbs * 100)
      (fun _ t => t.power.adcFault = true) ∧
    Completes (.adcSample .zeroCheck value) [.power] (fun s => value.toInt.natAbs * 100 ≤ 4096)
      (fun s t => t.power = { s.power with zeroBad := false, zeroCheck := value.toNat })) ∧
  (∀ (answers : List PmbusReading) (r : Nat) (a : PmbusReading),
    Completes (.pmbusTelemetry answers) [.mgmt, .folio, .ledger, .power, .queues, .perf, .stats, .out]
      (fun s => r < 30 ∧ pmbusReachable s r = true ∧ answers.find? (fun x => x.rail.val == r) = some a ∧ a.failures.val ≠ 3)
      (fun _ t => stat t (0x2E10 + r) 0x0A = a.current.toNat ∧ stat t (0x2E10 + r) 0x0B = a.temperature.toInt ∧
        stat t (0x2E10 + r) 0x0C = a.statusWord.toNat ∧ (railOf t r).pmbusFails = 0)) ∧
  (∀ (address : BitVec 7) (word : BitVec 16), address ≠ 0 →
    Completes (.pmbusAlert address word) [.mgmt, .folio, .ledger, .stats, .out] (fun _ => True) (fun s t =>
      LogsEvent 0x2E07 (leBytes 1 address.toNat ++ leBytes 2 word.toNat) s t ∧
      ∀ r, r < 30 → settingN s (0x2E10 + r) 4 = address.toNat →
        stat t (0x2E10 + r) 0x0C = word.toNat ∧ Output.pmbus r 0x03 0 ∈ t.out)) ∧
  (∀ r : Rail, Completes (.pmbusUnreachableEnd r) [.power] (fun _ => True) (fun s t =>
    railOf t r.val = { railOf s r.val with unreachable := false } ∧ RailsKept r.val s t)) ∧
  (∀ via : Via, let rail := fun s => settingN s 0x2E01 1
    let may := fun s => s.sys.dev = .test ∧ pmbusReachable s (rail s) = true ∧ (s.power.marginState = 0 ∨ s.power.marginRail = rail s)
    Serves (.marginNominal via true) via .maintainer [.power, .out] (fun _ s => may s)
      (fun _ s t => t.power = { s.power with marginState := 0 } ∧ t.out = .pmbus (rail s) 0x01 0x80 :: s.out) ∧
    (∀ x ∈ [(Instr.marginLow via true, 1, 0x26, 0x98, 0x16), (.marginHigh via true, 2, 0x25, 0xA8, 0x17)],
      Serves x.1 via .maintainer [.power, .out] (fun _ s => may s)
        (fun _ s t => t.power = { s.power with marginState := x.2.1, marginRail := rail s } ∧
          t.out = .pmbus (rail s) 0x01 x.2.2.2.1 :: .pmbus (rail s) x.2.2.1 (settingN s (0x2E10 + rail s) x.2.2.2.2) :: s.out)) ∧
    (∀ ack, ∀ c ∈ [Instr.marginNominal via ack, .marginLow via ack, .marginHigh via ack],
      Rejects c via .maintainer 0x2E04 0x2E01 2 (fun _ s => pmbusReachable s (rail s) = false) ∧
      Rejects c via .maintainer 0x2E05 0x2E01 2 (fun _ s => pmbusReachable s (rail s) = true ∧
        (s.sys.dev ≠ .test ∨ s.power.marginState ≠ 0 ∧ s.power.marginRail ≠ rail s)))) ∧
  ∀ (via : Via) (k : Byte), k.toNat < 8 →
    Serves (.domainRestart via k) via .maintainer [.power]
      (fun _ s => (domainOf s k.toNat).phase = .off ∧ s.sys.dev = .active ∧ (∀ j, j < 8 → (domainOf s j).restarting = false) ∧
        returnInProgress s = false)
      (fun _ s t => domainOf t k.toNat = { domainOf s k.toNat with restarting := true, phase := .stageA } ∧
        (railOf t (6 + 3 * k.toNat)).enabled = true ∧ (railOf t (7 + 3 * k.toNat)).enabled = true ∧
        ∀ j, j ≠ k.toNat → domainOf t j = domainOf s j) ∧
    Rejects (.domainRestart via k) via .maintainer 0x2E06 0x2E30 1 (fun _ s => (domainOf s k.toNat).phase ≠ .off) ∧
    Rejects (.domainRestart via k) via .maintainer 0x2E07 0x2E30 1 (fun _ s => (domainOf s k.toNat).phase = .off ∧
      (s.sys.dev ≠ .active ∨ returnInProgress s = true))

/-- R355, R371: VIN below its warn level isolates the reserve and takes the device from service into Warn with cause 1, PFW_N low
and the shares frozen; in Standby it only isolates. R372: a withdrawal returns to the state the warning came from. R373: at t_warn
held writes are discarded and quiesce begins; it ends when nothing is in flight, or at its limit, and Varnish begins. R374: at its
limit Varnish ends with outcome 1 and the rails go down. R403: at its limit the epilogue ends in Standby with the bleed path on.
R347: a brown-out of the core loses what the core and the Easel hold and nothing of the medium, the Folio or the Ledger. -/
def Obligations.ShutdownSequence : Prop :=
  Completes .vinBelowWarn [.sys, .mgmt, .folio, .ledger, .power, .reserve, .thermal, .channels, .groups, .barrow, .stats, .out]
    (fun s => inService s = true ∨ s.sys.dev = .priming)
    (fun s t => t.sys.dev = .warn ∧ t.sys.warnCause = 1 ∧ t.sys.warnFrom = s.sys.dev ∧ t.sys.warnAt = s.sys.time ∧
      t.sys.since = s.sys.time ∧ t.sys.quiescing = false ∧ t.power.isoOn = false ∧ t.power.vinGood = false ∧
      t.power.pfwLow = true ∧ t.reserve.frozen = true ∧ t.reserve.chgEn = false ∧ t.reserve.sinkOn = false ∧ FramesOnly s t) ∧
  Completes .vinBelowWarn [.power, .reserve] (fun s => s.sys.dev = .standby) (fun s t =>
    t.power = { s.power with isoOn := false, vinGood := false }) ∧
  Completes .vinGood [.power] (fun _ => True) (fun s t => t.power = { s.power with vinGood := true }) ∧
  Completes .rideThroughQualified [.sys, .mgmt, .folio, .ledger, .power, .reserve, .groups, .easel, .stats, .out]
    (fun s => mayWithdraw s = true)
    (fun s t => t.sys = { s.sys with dev := s.sys.warnFrom, since := s.sys.time } ∧
      t.power = { s.power with isoOn := true, pfwLow := !s.sys.memoryActive } ∧ t.reserve.frozen = false ∧
      tabGet dNat t.folio.tallyPending 157 = min (tabGet dNat s.folio.tallyPending 157 + 1) 65535) ∧
  Completes .warnWindowEnd [.sys, .ports]
    (fun s => s.sys.dev = .warn ∧ s.sys.quiescing = false ∧ s.directory.rounds = [])
    (fun s t => t.sys = { s.sys with quiescing := true } ∧
      ∀ p, portOf t p = if p < 4 then { portOf s p with held := [] } else portOf s p) ∧
  Completes .quiesceComplete
    [.sys, .mgmt, .folio, .ledger, .power, .reserve, .groups, .easel, .palette, .crypt, .queues, .perf, .path, .stats, .out]
    (fun s => s.sys.dev = .warn ∧ s.sys.quiescing = true ∧ inFlight s = false)
    (fun s t => (t.sys.dev = .varnish ∨ t.sys.dev = .varnished) ∧ t.sys.varnishAt = s.sys.time ∧ t.crypt.ephemeral = []) ∧
  Completes .quiesceLimit
    [.sys, .mgmt, .folio, .ledger, .power, .reserve, .groups, .easel, .palette, .crypt, .queues, .barrow, .perf, .path, .stats, .out]
    (fun s => s.sys.dev = .warn ∧ s.sys.quiescing = true)
    (fun s t => (t.sys.dev = .varnish ∨ t.sys.dev = .varnished) ∧ t.sys.varnishAt = s.sys.time ∧ t.crypt.ephemeral = []) ∧
  Completes .varnishLimit [.sys, .mgmt, .folio, .ledger, .power, .stats, .out] (fun s => s.sys.dev = .varnish)
    (fun s t => t.sys.dev = .varnished ∧ t.sys.varnishOutcome = 1 ∧ t.sys.varnishedEpoch = s.path.epoch ∧
      t.power = { s.power with stopStep := some 0, stopForStart := false }) ∧
  Completes .epilogueLimit [.sys, .folio, .reserve] (fun s => s.sys.dev = .varnished ∧ s.folio.epilogueOver = false)
    (fun s t => t.sys = { s.sys with dev := .standby, since := s.sys.time, heldByHeat := false } ∧
      t.folio = { s.folio with epilogueOver := true } ∧ t.reserve = { s.reserve with bleedEn := true, chgEn := false }) ∧
  Completes .coreBrownOut [.sys, .mgmt, .channels, .ports, .groups, .easel, .palette, .crypt, .directory, .queues, .barrow, .perf, .path]
    (fun s => (railOf s 0).enabled = true)
    (fun s t => t.sys.coreLost = true ∧ t.sys.dev = s.sys.dev ∧ t.easel = {} ∧ t.palette = {} ∧ t.crypt = {} ∧ t.queues = [] ∧
      t.barrow = {} ∧ t.directory = {} ∧ t.path.medium = s.path.medium ∧ t.path.epoch = s.path.epoch)

/-- R361: AON POR loses all that the always-on supply held and keeps the medium and the Folio array, but for the write set of a page
write in progress; each step of the start ends with the next one begun. R362: entry to Priming releases every session and gives the
volatile settings their defaults. R365: the recall ends with VCORE enabled. R251: the channels of a good domain train and come into
service. R370: a self-test with no failure in bits 0 to 6 passes. R363, R364, R379, R380: Memory Active releases PFW_N, queues the
open record and enters Recovery, Test or Active; a step that overruns is recorded as 0x2F0B. -/
def Obligations.StartSequence : Prop :=
  (∀ torn : List Byte, Completes (.aonPor torn)
    [.sys, .mgmt, .folio, .ledger, .power, .reserve, .thermal, .channels, .ports, .groups, .easel, .palette, .crypt, .directory, .queues, .barrow, .perf, .path, .settings, .stats, .out]
    (fun _ => True)
    (fun s t => t.sys = {} ∧ t.power = {} ∧ t.reserve = {} ∧ t.easel = {} ∧ t.crypt = {} ∧ t.ledger.pending = [] ∧
      t.ledger.firstSincePor = true ∧ t.mgmt.sessions = [] ∧ t.path.medium = s.path.medium ∧ t.stats = [] ∧
      t.folio.queue = [] ∧ (s.folio.running = none → t.folio.bytes = s.folio.bytes))) ∧
  Completes .startStepOvertime [.mgmt, .folio, .ledger, .stats, .out] (fun s => s.sys.dev = .priming) (fun s t =>
    LogsEvent 0x2F0B (leBytes 1 s.sys.step ++ satBytes 4 ((s.sys.time - s.sys.stepAt) / 64000)) s t) ∧
  Completes .primingStart
    [.sys, .mgmt, .folio, .ledger, .power, .reserve, .thermal, .channels, .ports, .groups, .easel, .palette, .crypt, .directory, .queues, .barrow, .perf, .path, .settings, .stats, .draws]
    (fun s => mayPrime s = true)
    (fun s t => t.sys.dev = .priming ∧ t.sys.step = 3 ∧ t.sys.recalling = true ∧ t.sys.runMode = s.sys.startMode ∧
      t.sys.primedAt = s.sys.time ∧ t.sys.memoryActive = false ∧ (∀ n, n < 16 → sessionOf t n = {}) ∧
      t.mgmt.errorHistory = [] ∧ t.mgmt.refusals = [] ∧ t.mgmt.lockedOut = [] ∧ t.ledger.trackers = [] ∧
      t.power.domains = [] ∧ t.path.medium = s.path.medium ∧ t.folio.bytes = s.folio.bytes ∧
      tabGet dNat t.folio.tallyPending 153 = min (tabGet dNat s.folio.tallyPending 153 + 1) 65535 ∧
      ∀ e ∈ t.settings, objPersistent e.1 = true ∧ e ∈ s.settings) ∧
  (∀ linear : BitVec 30, Completes (.folioRecallComplete linear)
    [.sys, .mgmt, .folio, .ledger, .power, .thermal, .ports, .easel, .crypt, .path, .settings, .stats, .draws, .out]
    (fun s => s.sys.dev = .priming ∧ s.sys.recalling = true ∧ s.power.stopStep = none ∧ s.folio.running = none)
    (fun s t => t.sys.recalling = false ∧ t.sys.step = 4 ∧ t.sys.stepAt = s.sys.time ∧ t.power.deviceStage = 1 ∧
      (railOf t 0).enabled = true ∧ (railOf t 0).running = false)) ∧
  (∀ k : Column, Completes (.channelTraining k) [.channels] (fun s => (domainOf s k.val).phase = .good) (fun s t =>
    ∀ c, channelOf t c = if c < 64 ∧ c % 8 = k.val ∧ (channelOf s c).failed = false ∧ (channelOf s c).trained = false
      then { channelOf s c with state := 1, parked := false } else channelOf s c)) ∧
  (∀ (ch : Channel) (serial : BitVec 32) (settings : BitVec 168) (identity : BitVec 16), typeCode identity.toNat ≠ 0xFE →
    Completes (.channelTrainingComplete ch identity serial 0 0 settings)
      [.sys, .mgmt, .folio, .ledger, .power, .channels, .groups, .easel, .directory, .queues, .barrow, .perf, .stats, .out]
      (fun s => (channelOf s ch.val).state = 1 ∧ (domainOf s (ch.val % 8)).phase = .good ∧ (channelOf s ch.val).returning = false ∧
        s.sys.memoryActive = false)
      (fun _ t => (channelOf t ch.val).trained = true ∧ (channelOf t ch.val).state = 2 ∧ (channelOf t ch.val).parked = false ∧
        (channelOf t ch.val).stackType = typeCode identity.toNat ∧ (channelOf t ch.val).serial = serial.toNat)) ∧
  (∀ errs survey, Completes (.anchorsAndRegionState errs survey)
    [.sys, .mgmt, .folio, .ledger, .channels, .ports, .groups, .easel, .crypt, .directory, .queues, .barrow, .perf, .path, .stats, .draws, .out]
    (fun s => s.sys.dev = .priming ∧ s.sys.step = 7 ∧ s.power.stopStep = none ∧ s.sys.coreLost = false)
    (fun s t => t.sys.step = 8 ∧ t.sys.stepAt = s.sys.time ∧ t.sys.dev = .priming)) ∧
  (∀ errs, Completes (.journalReplay errs)
    [.sys, .mgmt, .folio, .ledger, .reserve, .channels, .ports, .groups, .easel, .palette, .crypt, .directory, .queues, .barrow, .perf, .path, .stats, .out]
    (fun s => s.sys.dev = .priming ∧ s.sys.step = 8 ∧ s.power.stopStep = none ∧ s.sys.coreLost = false)
    (fun s t => t.sys.step = 9 ∧ t.sys.stepAt = s.sys.time)) ∧
  (∀ results : BitVec 16, results.toNat % 128 = 0 → Completes (.selfTest results)
    [.sys, .mgmt, .folio, .ledger, .power, .groups, .easel, .directory, .queues, .barrow, .perf, .path, .stats, .out]
    (fun s => s.sys.dev = .priming ∧ s.sys.step = 9 ∧ s.power.stopStep = none ∧ s.sys.coreLost = false)
    (fun s t => t.sys.step = 10 ∧ t.sys.dev = .priming ∧ t.sys.stepAt = s.sys.time)) ∧
  Completes .memoryActive
    [.sys, .mgmt, .folio, .ledger, .power, .reserve, .thermal, .channels, .groups, .easel, .crypt, .directory, .queues, .barrow, .perf, .stats, .out]
    (fun s => s.sys.dev = .priming ∧ s.sys.step = 10 ∧ s.power.stopStep = none ∧ s.sys.coreLost = false ∧
      s.sys.restartLatched = false ∧ ∀ g, g < 8 → lostColumns s g = [])
    (fun s t => t.sys.dev = (if recoveryOf s ≠ 0 then .recovery else if s.sys.runMode = 1 then .test else .active) ∧
      t.sys.memoryActive = true ∧ t.sys.step = 0 ∧ t.power = { s.power with pfwLow := false, failedStarts := 0 } ∧
      ∃ i ∈ t.folio.queue, i.task = .openRecord ∧ i.cls = 2)

/-- R123, R124. Over the rational numbers, with C_used the lower of the last two measurements, v the voltage, V_floor =
7.0 V + 35 A × max(0, ESR − 20 mΩ), E_fixed = 0.12 J, E_warn = P_warn × t_warn, E_meas = 0.2 A × v × 20 ms during a measurement and
e_tile = 85 nJ × (1 + 0.003 × (T − 40 °C)) above 40 °C (T = 105 °C on a sensor fault), the model's integer computation gives
floor((½ × C_used × (v² − V_floor²) × 0.85 − E_fixed − E_warn − E_meas) / e_tile), 0 where it is negative or v ≤ V_floor.
R124, R126, R130. A budget update outside Standby and outside the frozen time takes the VRES sample into the last ten, computes
n from their lowest (from the frozen v during a measurement) while the status is charging or ready, leaves write-through at 16,384
and enters it below 8,192, publishes 0 while degraded or before the open record is done, and sizes the device share
min(131072, B/8) and the port shares by their weights. From entry to Warn until Priming only the sample is taken (R125). -/
def Obligations.BudgetFormulaAndPublication : Prop :=
  (
    ∀ (s : State) (mv : Nat),
      let v : ℚ := mv / 1000
      let c : ℚ := (min s.reserve.c1 s.reserve.c2 : ℕ) / 1000000
      let vFloor : ℚ := 7 + 35 * max 0 ((s.reserve.esr : ℚ) / 10000 - 20 / 1000)
      let eWarn : ℚ := settingN s 0x2400 6 * (settingN s 0x2F00 3 / 1000000)
      let eMeas : ℚ := if s.reserve.measure = .idle then 0 else 2 / 10 * v * (20 / 1000)
      let heat : ℚ := if s.thermal.fault then 105 else (s.thermal.tDie : ℚ) / 10
      let eTile : ℚ := 85 / 1000000000 * (1 + 3 / 1000 * (max heat 40 - 40))
      budgetFormula s mv =
        if v ≤ vFloor then 0
        else ⌊(1 / 2 * c * (v * v - vFloor * vFloor) * (85 / 100) - 12 / 100 - eWarn - eMeas) / eTile⌋.toNat) ∧
  (
    Completes .budgetUpdate [.mgmt, .folio, .ledger, .reserve, .groups, .easel, .stats, .out]
      (fun s => s.reserve.frozen = false ∧ s.sys.dev ≠ .standby)
      (fun s t =>
        let samples := (s.reserve.vres :: s.reserve.samples).take 10
        let v := s.reserve.frozenV.getD (samples.foldl min s.reserve.vres)
        let usable := decide (s.reserve.status = 2 ∨ s.reserve.status = 3)
        let n := budgetFormula s v
        let wt := if usable then (if s.reserve.wt then decide (n < 16384) else decide (n < 8192)) else true
        let b := if wt || degraded s || !s.sys.openRecordDone then 0 else n
        let pool := min (b - min 131072 (b / 8)) 3145728
        t.reserve.samples = samples ∧ t.reserve.wt = wt ∧ t.reserve.budget = b ∧ t.reserve.writeThrough = decide (b = 0) ∧
        t.reserve.deviceShare = min 131072 (b / 8) ∧
        (∀ p, p < 4 → portShareOf t p = pool * settingN s 0x2410 (p + 1) / 100) ∧
        t.reserve.status = s.reserve.status ∧ t.reserve.portCharge = s.reserve.portCharge ∧
        t.reserve.deviceCharge = s.reserve.deviceCharge ∧
        tabGet dNat t.folio.tallyPending 158 =
          if s.reserve.writeThrough = false ∧ b = 0 then min (tabGet dNat s.folio.tallyPending 158 + 1) 65535
          else tabGet dNat s.folio.tallyPending 158) ∧
    Completes .budgetUpdate [.reserve] (fun s => s.reserve.frozen = true ∨ s.sys.dev = .standby) (fun s t =>
      t.reserve = { s.reserve with samples := (s.reserve.vres :: s.reserve.samples).take 10 }))

/-- R120 to R122, R133. The ramp gives C = I_set × t_24 / 2.0 V and the ESR from the fall over I_set; the sink gives C = 0.2 A × 20 ms
over the fall (with no fall a free value, log entry 9) and the ESR from the step over 0.2 A; the status after it is failed above
150 mΩ, absent below 0.5 mF, oversized where V_hi is below 10 V, else the bank is bled where it lies above its limit and charged
where it is not. A later measurement runs in Active, ready, at V_hi and with an occasion, with v frozen. A sample above 16.5 V
fails the reserve; regulation stops at V_hi and charges again 50 mV below it, takes the written limits, and bleeds a bank above
its limit down to 100 mV below V_hi. The ramp stands still while the bank is isolated. Requests and the enable are refused while frozen (0x2405) and, for a measurement, unless ready (0x2404). -/
def Obligations.ReserveMeasurement : Prop :=
  let above := fun (t : State) => 2000000000 * forceN t 0x2400 1 < cHi t * t.reserve.vres * t.reserve.vres ∨
    vHi t + 100 < t.reserve.vres
  let judged := fun (t : State) (fine : Nat) =>
    (1500 < t.reserve.esr → t.reserve.status = 5) ∧
    (t.reserve.esr ≤ 1500 → t.reserve.c1 < 500 → t.reserve.status = 4) ∧
    (t.reserve.esr ≤ 1500 → 500 ≤ t.reserve.c1 → vHi t < 10000 → t.reserve.status = 6) ∧
    (t.reserve.esr ≤ 1500 → 500 ≤ t.reserve.c1 → 10000 ≤ vHi t →
      (above t → t.reserve.status = 3 ∧ t.reserve.chgEn = false ∧ t.reserve.bleedEn = true) ∧
      (¬ above t → t.reserve.status = fine ∧
        (t.power.isoOn = true → t.reserve.bleedEn = false → t.reserve.chgEn = true))) ∧
    (4 ≤ t.reserve.status → t.reserve.chgEn = false ∧ t.reserve.bleedEn = true)
  (∀ fallUv : BitVec 32, ∀ t24 : Nat,
    Completes (.rampHoldEnd fallUv) [.mgmt, .folio, .ledger, .reserve, .stats, .out]
      (fun s => s.reserve.ramp = .hold t24 ∧ s.reserve.status = 1 ∧ s.power.isoOn = true)
      (fun s t => t.reserve.c1 = s.reserve.chgIset * t24 / 2000 ∧ t.reserve.c2 = t.reserve.c1 ∧
        t.reserve.esr = fallUv.toNat * 10 / s.reserve.chgIset ∧ t.reserve.measured = true ∧ t.reserve.ramp = .none ∧
        t.reserve.lastMeasure = nowNs s ∧ judged t 2 ∧ stat t 0x2400 0x14 = (stat s 0x2400 0x14 + 1) % 2 ^ 32)) ∧
  (∀ stepUv fallUv : BitVec 32,
    Completes (.measurementEnd stepUv fallUv) [.mgmt, .folio, .ledger, .reserve, .stats, .out]
      (fun s => s.reserve.ramp = .sink ∧ s.reserve.status = 1 ∧ s.power.isoOn = true)
      (fun _ t => (fallUv ≠ 0 → t.reserve.c1 = 4000000000 / fallUv.toNat) ∧ t.reserve.c2 = t.reserve.c1 ∧
        t.reserve.esr = stepUv.toNat / 20 ∧ judged t 2 ∧ t.reserve.sinkOn = false ∧ t.reserve.ramp = .none) ∧
    Completes (.measurementEnd stepUv fallUv) [.mgmt, .folio, .ledger, .reserve, .stats, .out]
      (fun s => s.reserve.ramp = .none ∧ s.reserve.measure = .sinking ∧ s.reserve.status = 3)
      (fun s t => (fallUv ≠ 0 → t.reserve.c1 = 4000000000 / fallUv.toNat) ∧ t.reserve.c2 = s.reserve.c1 ∧
        t.reserve.esr = stepUv.toNat / 20 ∧ judged t 3 ∧
        t.reserve.sinkOn = false ∧ t.reserve.measure = .idle ∧ t.reserve.frozenV = none ∧ t.reserve.occasion = false)) ∧
  Completes .measureInterval [.reserve] (fun _ => True) (fun s t => t.reserve = { s.reserve with occasion := true }) ∧
  Completes .measurementStart [.mgmt, .folio, .ledger, .reserve, .groups, .easel, .stats, .out]
    (fun s => s.sys.dev = .active ∧ s.reserve.status = 3 ∧ s.reserve.occasion = true ∧ s.reserve.measure = .idle ∧
      vHi s - 50 ≤ s.reserve.vres ∧ s.reserve.vres ≤ vHi s + 100 ∧ s.reserve.bleedEn = false)
    (fun s t => t.reserve.measure = .started ∧ t.reserve.frozenV = some (budgetVoltage s) ∧ t.reserve.occasion = false) ∧
  Completes .measurementSinkOn [.reserve] (fun s => s.reserve.measure = .started) (fun s t =>
    t.reserve = { s.reserve with measure := .sinking, chgEn := false, sinkOn := true }) ∧
  (∀ late : Bool, Completes (.reserveChargeTimeout late) [.mgmt, .folio, .ledger, .reserve, .stats, .out]
    (fun s => (s.reserve.status = 1 ∨ s.reserve.status = 2) ∧ s.power.isoOn = true ∧
      s.reserve.vres < (if late then vHi s else 2000))
    (fun s t => t.reserve.status = 5 ∧ t.reserve.chgEn = false ∧ t.reserve.bleedEn = true ∧
      tabGet dNat t.folio.tallyPending 167 = min (tabGet dNat s.folio.tallyPending 167 + 1) 65535)) ∧
  (∀ value : BitVec 16,
    Completes (.adcSample .vres value) [.sys, .mgmt, .folio, .ledger, .reserve, .stats, .out]
      (fun s => s.sys.dev ≠ .standby ∧ 1 ≤ s.reserve.status ∧ s.reserve.status ≤ 3 ∧ 16500 < value.toNat)
      (fun s t => t.reserve.status = 5 ∧ t.reserve.vres = value.toNat ∧ t.reserve.bleedEn = true ∧ t.reserve.chgEn = false ∧
        tabGet dNat t.folio.tallyPending 167 = min (tabGet dNat s.folio.tallyPending 167 + 1) 65535) ∧
    Completes (.adcSample .vres value) [.sys, .mgmt, .folio, .ledger, .reserve, .stats, .out]
      (fun s => s.sys.dev ≠ .standby ∧ (s.reserve.status = 2 ∨ s.reserve.status = 3) ∧ value.toNat ≤ 16500 ∧
        s.power.adcFault = false ∧ s.reserve.ramp = .none)
      (fun s t => t.reserve.vres = value.toNat ∧ t.reserve.chgIset = settingN s 0x2400 2 ∧
        (s.reserve.measured = true → vHi t < 10000 → t.reserve.status = 6) ∧
        (10000 ≤ vHi t → s.reserve.bleedEn = true → t.reserve.status = s.reserve.status ∧ t.reserve.chgEn = false ∧
          t.reserve.bleedEn = decide (vHi t - 100 < value.toNat)) ∧
        (10000 ≤ vHi t → s.reserve.bleedEn = false →
          (above t → t.reserve.status = 3 ∧ t.reserve.chgEn = false ∧ t.reserve.bleedEn = true) ∧
          (¬ above t → s.reserve.sinkOn = false → s.power.isoOn = true → t.reserve.bleedEn = false ∧
            t.reserve.status = (if vHi t ≤ value.toNat then 3 else s.reserve.status) ∧
            t.reserve.chgEn = (if vHi t ≤ value.toNat then false
              else if value.toNat < vHi t - 50 then true else s.reserve.chgEn))))) ∧
  (∀ via : Via,
    Serves (.measureRequest via) via .operator [.reserve] (fun _ s => s.reserve.status = 3 ∧ s.reserve.frozen = false)
      (fun _ s t => t.reserve = { s.reserve with occasion := true }) ∧
    Rejects (.measureRequest via) via .operator 0x2404 0x2400 5 (fun _ s => s.reserve.status ≠ 3) ∧
    Rejects (.measureRequest via) via .operator 0x2405 0x2400 5 (fun _ s => s.reserve.status = 3 ∧ s.reserve.frozen = true) ∧
    Serves (.reserveDisable via) via .maintainer [.mgmt, .reserve, .settings, .out] (fun _ s => s.reserve.frozen = false)
      (fun _ s t => settingN t 0x2400 7 = 0 ∧ SettingsKept 0x2400 7 s t ∧ t.reserve.status = 0 ∧ t.reserve.chgEn = false ∧
        t.reserve.bleedEn = true) ∧
    Serves (.reserveEnable via) via .maintainer [.mgmt, .reserve, .settings, .out] (fun _ s => s.reserve.frozen = false)
      (fun _ s t => settingN t 0x2400 7 = 1 ∧ SettingsKept 0x2400 7 s t ∧
        (4 ≤ s.reserve.status → t.reserve = s.reserve) ∧
        (s.reserve.status < 4 → t.reserve.status = 1 ∧ t.reserve.measured = false ∧
          t.reserve.bleedEn = decide (2000 ≤ s.reserve.vres) ∧
          t.reserve.chgEn = decide (s.reserve.vres < 2000 ∧ s.power.isoOn = true) ∧
          t.reserve.ramp = if s.reserve.vres < 2000 then .ramp none else .bleeding)) ∧
    Rejects (.reserveDisable via) via .maintainer 0x2405 0x2400 7 (fun _ s => s.reserve.frozen = true) ∧
    Rejects (.reserveEnable via) via .maintainer 0x2405 0x2400 7 (fun _ s => s.reserve.frozen = true))

/-- R390, R391, R393, R395. A scan keeps its 96 readings; a sensor becomes unusable outside -55 to +150 °C or in the third scan in a
row more than 10 °C from its zone's median (the mean of the middle two where their number is even, log entry 12); a zone with fewer
than two usable sensors is a thermal fault, which holds level 2; T_die is the highest usable reading; a level is entered at its
threshold and left more than 3 °C below it; the second scan in a row at the absolute limit enters Warn with cause 4 from service and
the stop order from Priming.
R397. At the end of a rise window with scans and a window before it, the rise is the difference of the two windows' mean T_die
over the window length, in 0.1 °C/s (rounded down, log entry 7); at or above [3010.09] it sets the flag and counts, below it clears
the flag; the first window sets no flag. A value written to a setting of the rise is in force after the window. R382. A crystal within 1,000 ppm is selected and recorded; a lost crystal returns the clock
to the on-die oscillator and is not tried again. -/
def Obligations.ThermalScanRiseAndClock : Prop :=
  (
    ∀ readings : List (BitVec 16),
      let r := fun (i : Nat) => (readings.getD i 0).toInt
      Completes (.thermalScan readings)
        [.sys, .mgmt, .folio, .ledger, .power, .reserve, .thermal, .channels, .ports, .groups, .queues, .barrow, .stats, .out]
        (fun _ => True)
        (fun s t =>
          let median := fun (i : Nat) => medianOf ((usableIn s (sensorZone i)).map r)
          let tDie := t.thermal.tDie
          let holds := fun (m : Nat) => levelThreshold s m ≤ tDie ∨ (m ≤ s.thermal.level ∧ levelThreshold s m - 30 ≤ tDie)
          let limit := decide (10 * setting s 0x3010 6 ≤ tDie)
          (∀ i, i < 96 → readingOf t i = r i ∧
            (sensorOut t i = true ↔ sensorOut s i = true ∨ r i < -550 ∨ 1500 < r i ∨
              (100 < (r i - median i).natAbs ∧ 2 ≤ tabGet dNat s.thermal.badScans i))) ∧
          (t.thermal.fault = true ↔ s.thermal.fault = true ∨ ∃ z, z < 4 ∧ (usableIn t z).length < 2) ∧
          ((∃ i, i < 96 ∧ sensorOut t i = false) →
            (∃ i, i < 96 ∧ sensorOut t i = false ∧ r i = tDie) ∧ ∀ i, i < 96 → sensorOut t i = false → r i ≤ tDie) ∧
          (t.thermal.fault = true → t.thermal.level = if levelThreshold s 3 ≤ tDie then 3 else 2) ∧
          (t.thermal.fault = false → ∀ n, 1 ≤ n → n ≤ 3 → (n ≤ t.thermal.level ↔ ∃ m, n ≤ m ∧ m ≤ 3 ∧ holds m)) ∧
          FramesOnly s t ∧
          t.thermal.limitScans = (if limit then s.thermal.limitScans + 1 else 0) ∧
          (limit = true → s.thermal.limitScans = 1 → inService s = true → t.sys.dev = .warn ∧ t.sys.warnCause = 4) ∧
          (limit = true → s.thermal.limitScans = 1 → s.sys.dev = .priming → s.power.stopStep = none →
            t.power.stopStep = some 0 ∧ t.power.stopForStart = true) ∧
          (limit = false ∨ s.thermal.limitScans ≠ 1 → t.sys.dev = s.sys.dev ∧ t.power = s.power))) ∧
  (
    (∀ (sum0 : Int) (n0 : Nat), n0 ≠ 0 →
      Completes .riseWindow [.sys, .mgmt, .folio, .ledger, .thermal, .stats, .out]
        (fun s => s.thermal.riseScans ≠ 0 ∧ s.thermal.riseBefore = some (sum0, n0))
        (fun s t =>
          let now : ℚ := s.thermal.riseSum / s.thermal.riseScans
          let rise : Int := ⌊(now - sum0 / n0) * 1000 / forceN s 0x3010 0x0A⌋
          stat t 0x3010 0x0D = rise ∧ t.thermal.rising = decide ((forceN s 0x3010 9 : Int) ≤ rise) ∧
          stat t 0x3010 0x12 = (if (forceN s 0x3010 9 : Int) ≤ rise then (stat s 0x3010 0x12 + 1) % 2 ^ 32 else stat s 0x3010 0x12) ∧
          t.thermal.riseBefore = some (s.thermal.riseSum, s.thermal.riseScans) ∧ t.thermal.riseSum = 0 ∧
          t.thermal.riseScans = 0 ∧ t.thermal.level = s.thermal.level ∧ ∀ e ∈ [9, 0x0A, 0x0B], forceN t 0x3010 e = settingN s 0x3010 e)) ∧
    Completes .riseWindow [.sys, .thermal] (fun s => s.thermal.riseScans ≠ 0 ∧ s.thermal.riseBefore = none) (fun s t =>
      t.thermal = { s.thermal with
        riseSum := 0, riseScans := 0, riseBefore := some (s.thermal.riseSum, s.thermal.riseScans) }) ∧
    (∀ offset : BitVec 16, Completes (.crystalSwitch offset) [.mgmt, .folio, .ledger, .thermal, .stats, .out]
      (fun s => s.thermal.sourceSelect = 1 ∧ s.thermal.crystal = false ∧ s.thermal.crystalLost = false ∧
        offset.toInt.natAbs ≤ 1000)
      (fun s t => t.thermal = { s.thermal with crystal := true } ∧ LogsEvent 0x3002 (leBytes 2 offset.toNat) s t) ∧
      Completes (.crystalSwitch offset) []
        (fun s => s.thermal.sourceSelect ≠ 1 ∨ s.thermal.crystalLost = true ∨ 1000 < offset.toInt.natAbs) (fun _ _ => True)) ∧
    Completes .crystalLost [.mgmt, .folio, .ledger, .thermal, .stats, .out] (fun s => s.thermal.crystal = true) (fun s t =>
      t.thermal = { s.thermal with crystal := false, crystalLost := true } ∧ LogsEvent 0x3001 (leBytes 8 (nowNs s)) s t))

/-- R18 to R20, R257, R387, R388. Only an awake group of 128 quiet slots enters light sleep; a group that may sleep enters deep sleep,
its entry is counted and PDE goes to each of its columns that is neither erased nor parked; a group in deep sleep wakes with PDX to
them and its time asleep counted, and serves again when the exit is done; a maintenance wake does the same; clearing a group's bit
of [3000.05] wakes it at once. A group that may not sleep stays as it is.
R250. In each window a channel in service keeps the temperature its stack answers (0x80 and no answer are none), is due a ZQ at a
move of 10 °C since its last, and after two windows without a value has none; a channel not in service keeps what it had. At the ZQ
interval every channel in service is calibrated at its temperature. R258. A write of [2900.07] reaches register 0x04 of every
channel in service. -/
def Obligations.SleepAndStackTemperatures : Prop :=
  (
    (∀ group : Group,
      let g := group.val
      let others := fun (s t : State) => ∀ h, h ≠ g → sleepOf t h = sleepOf s h
      Completes (.lightSleepEntry group) [.thermal] (fun s => sleepOf s g = 0 ∧ 128 ≤ (groupOf s g).arb.quiet) (fun s t =>
        sleepOf t g = 1 ∧ others s t) ∧
      Completes (.deepSleepEntry group) [.thermal, .channels, .groups, .stats, .out] (fun s => maySleep s g = true) (fun s t =>
        sleepOf t g = 2 ∧ others s t ∧ FramesOnly s t ∧ stat t 0x3002 (g + 1) = (stat s 0x3002 (g + 1) + 1) % 2 ^ 32 ∧
        ∀ c, c < 8 → columnLost s g c = false → (channelOf s (8 * g + c)).parked = false →
          (channelOf t (8 * g + c)).powerDown = true ∧ Output.caFrame (8 * g + c) 0x900000000000 ∈ t.out) ∧
      Completes (.deepSleepEntry group) [] (fun s => maySleep s g = false) (fun _ _ => True) ∧
      Completes (.deepSleepWake group) [.thermal, .channels, .groups, .stats, .out] (fun s => sleepOf s g = 2) (fun s t =>
        sleepOf t g = 3 ∧ others s t ∧ FramesOnly s t ∧
        stat t 0x3003 (g + 1) =
          (stat s 0x3003 (g + 1) + ((s.sys.time - tabGet dNat s.thermal.sleptAt g) / 64000000 : Nat)) % 2 ^ 64 ∧
        ∀ c, c < 8 → columnLost s g c = false → (channelOf s (8 * g + c)).parked = false →
          (channelOf t (8 * g + c)).powerDown = false ∧ Output.caFrame (8 * g + c) 0xA00000000000 ∈ t.out) ∧
      Completes (.deepSleepWake group) [] (fun s => sleepOf s g ≠ 2) (fun _ _ => True) ∧
      Completes (.deepSleepExitDone group) [.thermal] (fun s => sleepOf s g = 3) (fun s t => sleepOf t g = 0 ∧ others s t) ∧
      (∀ answers, Completes (.maintenanceWake group answers) [.mgmt, .folio, .ledger, .thermal, .channels, .groups, .stats, .out]
        (fun s => sleepOf s g = 2) (fun s t => sleepOf t g = 3 ∧ others s t ∧ tabGet dBool t.thermal.maintenance g = true))) ∧
    (∀ (via : Via) (value : Byte), Serves (.deepSleepEnableWrite via value) via .operator
      [.thermal, .channels, .groups, .settings, .stats, .out] (fun _ _ => True) (fun _ s t =>
        settingN t 0x3000 5 = value.toNat ∧ SettingsKept 0x3000 5 s t ∧ FramesOnly s t ∧
        ∀ g, g < 8 → sleepOf t g = if sleepOf s g = 2 ∧ bitOf value.toNat g = false then 3 else sleepOf s g))) ∧
  (
    (∀ answers : List (Option Byte),
      Completes (.temperatureWindow answers) [.mgmt, .folio, .ledger, .thermal, .channels, .groups, .stats, .out]
        (fun _ => True)
        (fun s t => ∀ ch, ch < 64 →
          let x := channelOf s ch
          let y := channelOf t ch
          (channelServes s ch = false → y.temp = x.temp ∧ y.noTemp = x.noTemp ∧ y.zqTemp = x.zqTemp) ∧
          (∀ b : Byte, channelServes s ch = true → answers.getD ch none = some b → b ≠ 0x80 →
            y.temp = some b.toInt ∧ y.noTemp = 0 ∧
            y.zqTemp = match x.zqTemp with
              | some z => if 10 ≤ (b.toInt - z).natAbs then some b.toInt else some z
              | none => some b.toInt) ∧
          (channelServes s ch = true → (answers.getD ch none = none ∨ answers.getD ch none = some 0x80) →
            y.noTemp = x.noTemp + 1 ∧ y.temp = (if 1 ≤ x.noTemp then none else x.temp) ∧ y.zqTemp = x.zqTemp))) ∧
    Completes .zqInterval [.channels] (fun _ => True) (fun s t => ∀ ch, channelOf t ch =
      if ch < 64 ∧ channelServes s ch = true then { channelOf s ch with zqTemp := (channelOf s ch).temp } else channelOf s ch) ∧
    (∀ (via : Via) (value : Byte), 60 ≤ value.toInt → value.toInt ≤ 120 →
      Serves (.thermalAlertThresholdWrite via value) via .maintainer [.settings, .channels] (fun _ _ => True) (fun _ s t =>
        setting t 0x2900 7 = value.toInt ∧ SettingsKept 0x2900 7 s t ∧
        ∀ ch r, modeReg t ch r = if ch < 64 ∧ (channelOf s ch).state = 2 ∧ r = 4 then value.toNat else modeReg s ch r)))

/-- R234 to R240, R245. A stack that hears frames and is in no training mode answers an RD of an idle or suspended bank with the
stored patch as sensed, latches the index and reads for 45 ns; an SRD needs the latched index; a PRG with the CRC-8 of its data
starts, with another it sends a write-CRC event; SUS and RSM move the bank's program; a frame with an odd count of ones, a reserved
bit or a broken bank rule (one to a bank that reads among them) is a frame error naming the bank, and only a refused program's data
is kept (to be sent again); a parked or powered-down stack ignores all of them. -/
def Obligations.StackBankFrames : Prop :=
  let hears := fun (s : State) (ch : Nat) => (channelOf s ch).parked = false ∧ (channelOf s ch).powerDown = false ∧
    (channelOf s ch).stopped = false ∧ (channelOf s ch).training = none
  let bankSet := fun (ch bank : Nat) (b : BankRec) (s t : State) =>
    ∀ c k, bankOf t c k = if c = ch ∧ k = bank then b else bankOf s c k
  let error := fun (c : Instr) (ch kind bank : Nat) (before : State → Prop) =>
    Completes c [.out] (fun s => hears s ch ∧ before s) (fun s t => t.out = .alert ch (alertFrame kind bank) :: s.out)
  ∀ (channel : Channel) (fields : BitVec 44) (data : Patch),
    let ch := channel.val
    let bank := frameBank fields
    let i := frameIndex fields
    let sensed := fun (s : State) => Output.burst ch (patchBytes (tabGet dPatch s.path.medium (patchKey ch (i * 256 + bank)) ^^^ data))
    let free := fun (s : State) => (bankOf s ch bank).running = none ∧ (bankOf s ch bank).readUntil ≤ s.sys.time
    let readOk := fun (s : State) => bitsOf fields.toNat 2 1 = 0 ∧ i < stackIndices s ch ∧ free s
    let begun := fun (s t : State) =>
      bankSet ch bank { bankOf s ch bank with latched := some i, readUntil := s.sys.time + 45 * 64 } s t
    Completes (.rd channel fields data) [.channels, .out] (fun s => hears s ch ∧ frameEven 1 fields = true ∧ readOk s)
      (fun s t => t.out = sensed s :: s.out ∧ begun s t) ∧
    error (.rd channel fields data) ch 3 bank (fun s => frameEven 1 fields = false ∨ ¬ readOk s) ∧
    Completes (.srd channel fields data) [.channels, .out]
      (fun s => hears s ch ∧ frameEven 2 fields = true ∧ readOk s ∧ (bankOf s ch bank).latched = some i)
      (fun s t => t.out = sensed s :: s.out ∧ begun s t) ∧
    error (.srd channel fields data) ch 3 bank
      (fun s => frameEven 2 fields = false ∨ ¬ readOk s ∨ (bankOf s ch bank).latched ≠ some i) ∧
    Completes (.prg channel fields data) [.channels]
      (fun s => hears s ch ∧ frameEven 3 fields = true ∧ i < stackIndices s ch ∧ free s ∧
        (crc8 (patchBytes data)).toNat = bitsOf fields.toNat 8 1)
      (fun s t => bankSet ch bank { bankOf s ch bank with running := some ⟨i, data⟩, latched := none, refused := none } s t) ∧
    Completes (.prg channel fields data) [.channels, .out]
      (fun s => hears s ch ∧ frameEven 3 fields = true ∧ i < stackIndices s ch ∧ free s ∧
        (crc8 (patchBytes data)).toNat ≠ bitsOf fields.toNat 8 1)
      (fun s t => t.out = .alert ch (alertFrame 4 bank) :: s.out ∧
        bankSet ch bank { bankOf s ch bank with refused := some ⟨i, data⟩ } s t) ∧
    Completes (.prg channel fields data) [.channels, .out]
      (fun s => hears s ch ∧ (frameEven 3 fields = false ∨ stackIndices s ch ≤ i ∨ ¬ free s))
      (fun s t => t.out = .alert ch (alertFrame 3 bank) :: s.out ∧
        bankSet ch bank (if i < stackIndices s ch then { bankOf s ch bank with refused := some ⟨i, data⟩ } else bankOf s ch bank) s t) ∧
    Completes (.sus channel fields) [.channels]
      (fun s => hears s ch ∧ frameEven 4 fields = true ∧ bitsOf fields.toNat 35 1 = 0 ∧ (bankOf s ch bank).running.isSome = true ∧
        (bankOf s ch bank).suspended = none ∧ (bankOf s ch bank).readUntil ≤ s.sys.time)
      (fun s t => bankSet ch bank
        { bankOf s ch bank with suspended := (bankOf s ch bank).running, running := none, latched := none } s t) ∧
    error (.sus channel fields) ch 3 bank (fun s => frameEven 4 fields = false ∨ bitsOf fields.toNat 35 1 ≠ 0 ∨
      (bankOf s ch bank).running = none ∨ (bankOf s ch bank).suspended.isSome = true ∨
      s.sys.time < (bankOf s ch bank).readUntil) ∧
    Completes (.rsm channel fields) [.channels]
      (fun s => hears s ch ∧ frameEven 5 fields = true ∧ bitsOf fields.toNat 35 1 = 0 ∧ free s ∧
        (bankOf s ch bank).suspended.isSome = true)
      (fun s t => bankSet ch bank
        { bankOf s ch bank with running := (bankOf s ch bank).suspended, suspended := none, latched := none } s t) ∧
    error (.rsm channel fields) ch 3 bank (fun s => frameEven 5 fields = false ∨ bitsOf fields.toNat 35 1 ≠ 0 ∨
      (bankOf s ch bank).suspended = none ∨ ¬ free s) ∧
    (∀ c ∈ [Instr.rd channel fields data, .srd channel fields data, .prg channel fields data, .sus channel fields,
        .rsm channel fields],
      Completes c [] (fun s => (channelOf s ch).parked = true ∨ (channelOf s ch).powerDown = true) (fun _ _ => True))

/-- R247, R251, R257. MRR answers a register's value with its complement (register 3 the temperature) and clears only FaultStatus;
MRW sets the bits a register has, and nothing where it has none (log entry 30); a register not listed is a frame error; CAL enters
the training mode register 0x0E selects, leaves it, or calibrates, and with one of the reserved sub-operations 3 to 15 is a frame error; PDE needs every bank idle; PDX is what a stack in power-down
executes. -/
def Obligations.StackModeFrames : Prop :=
  let hears := fun (s : State) (ch : Nat) => (channelOf s ch).parked = false ∧ (channelOf s ch).powerDown = false ∧
    (channelOf s ch).stopped = false ∧ (channelOf s ch).training ≠ some 0
  let only := fun (ch : Nat) (x : ChannelRec) (s t : State) => ∀ c, channelOf t c = if c = ch then x else channelOf s c
  let error := fun (c : Instr) (ch : Nat) (before : State → Prop) =>
    Completes c [.out] (fun s => hears s ch ∧ before s) (fun s t => t.out = .alert ch (alertFrame 3 0xFF) :: s.out)
  ∀ (channel : Channel) (fields : BitVec 44) (low : BitVec 40) (temperature : Byte),
    let ch := channel.val
    let r := frameBank fields
    let calOk := fun (sub : Nat) => frameEven 8 (calFields sub low) = true ∧ bitsOf low.toNat 39 1 = 0
    Completes (.mrr channel fields temperature) [.channels, .out]
      (fun s => hears s ch ∧ frameEven 6 fields = true ∧ bitsOf fields.toNat 35 1 = 0 ∧ r < 0x0F)
      (fun s t =>
        let v := if r = 3 then temperature.toNat else modeReg s ch r
        t.out = .burst ch (leBytes 2 v ++ leBytes 2 (65535 - v) ++ List.replicate 8 0) :: s.out ∧
        ∀ c q, modeReg t c q = if c = ch ∧ r = 0x0D ∧ q = 0x0D then 0 else modeReg s c q) ∧
    error (.mrr channel fields temperature) ch
      (fun _ => frameEven 6 fields = false ∨ bitsOf fields.toNat 35 1 ≠ 0 ∨ 0x0F ≤ r) ∧
    Completes (.mrw channel fields) [.channels]
      (fun s => hears s ch ∧ frameEven 7 fields = true ∧ bitsOf fields.toNat 19 1 = 0 ∧ r < 0x0F)
      (fun s t => ∀ c q, modeReg t c q =
        if c = ch ∧ q = r ∧ modeMask r ≠ 0 then bitsOf fields.toNat 35 20 &&& modeMask r else modeReg s c q) ∧
    error (.mrw channel fields) ch (fun _ => frameEven 7 fields = false ∨ bitsOf fields.toNat 19 1 ≠ 0 ∨ 0x0F ≤ r) ∧
    Completes (.calZq channel (calFields 0 low)) [.channels] (fun s => hears s ch ∧ calOk 0)
      (fun s t => only ch { channelOf s ch with zqTemp := (channelOf s ch).temp } s t) ∧
    Completes (.calTrainingEntry channel low) [.channels] (fun s => hears s ch ∧ calOk 1)
      (fun s t => only ch { channelOf s ch with
        training := if modeReg s ch 14 = 1 then some 0 else if modeReg s ch 14 = 2 then some 1
          else if modeReg s ch 14 = 4 then some 2 else if modeReg s ch 14 = 8 then some 3 else none } s t) ∧
    Completes (.calTrainingExit channel low) [.channels] (fun s => hears s ch ∧ calOk 2)
      (fun s t => only ch { channelOf s ch with training := none } s t) ∧
    (∀ k, 3 ≤ k → k < 16 → error (.calZq channel (calFields k low)) ch (fun _ => True)) ∧
    (∀ x ∈ [(Instr.calZq channel (calFields 0 low), 0), (.calTrainingEntry channel low, 1), (.calTrainingExit channel low, 2)],
      error x.1 ch (fun _ => ¬ calOk x.2)) ∧
    Completes (.pde channel fields) [.channels]
      (fun s => hears s ch ∧ frameEven 9 fields = true ∧ bitsOf fields.toNat 43 1 = 0 ∧ stackIdle s ch = true)
      (fun s t => only ch { channelOf s ch with powerDown := true } s t) ∧
    error (.pde channel fields) ch
      (fun s => frameEven 9 fields = false ∨ bitsOf fields.toNat 43 1 ≠ 0 ∨ stackIdle s ch = false) ∧
    Completes (.pdx channel fields) [.channels]
      (fun s => (channelOf s ch).parked = false ∧ (channelOf s ch).powerDown = true ∧ frameEven 10 fields = true ∧
        bitsOf fields.toNat 43 1 = 0)
      (fun s t => only ch { channelOf s ch with powerDown := false } s t)

/-- R243 to R246. A done event, or the time-out, of a running program stores its data at the patch it addresses and idles the bank,
every other patch of the medium unchanged; a done or fail event with no program outstanding is counted as a frame error; a read error
erases the column for that read and counts; a refused program is reissued up to [2900.04] times; a stack fault that stops the banks
marks the channel failed. A parked channel's events are ignored (R254). -/
def Obligations.StackEvents : Prop :=
  let heard := fun (s : State) (ch : Nat) => (channelOf s ch).parked = false ∧ (channelOf s ch).powerDown = false
  ∀ (channel : Channel) (bank : Byte),
    let ch := channel.val
    let b := bank.toNat
    let done := fun (prog : BankProg) (s t : State) =>
      (∀ k, tabGet dPatch t.path.medium k =
        if k = patchKey ch (prog.index * 256 + b) then prog.data else tabGet dPatch s.path.medium k) ∧
      t.path = { s.path with medium := t.path.medium } ∧
      ∀ c k, bankOf t c k = if c = ch ∧ k = b then { bankOf s ch b with running := none } else bankOf s c k
    (∀ prog : BankProg,
      Completes (.doneEvent channel bank) [.channels, .groups, .path] (fun s => heard s ch ∧ (bankOf s ch b).running = some prog) (done prog) ∧
      Completes (.programCompleteTimeout channel bank) [.channels, .groups, .path] (fun s => (bankOf s ch b).running = some prog) (done prog)) ∧
    Completes (.programCompleteTimeout channel bank) [.groups] (fun s => (bankOf s ch b).running = none) (fun _ _ => True) ∧
    (∀ c ∈ [Instr.doneEvent channel bank, .failEvent channel bank], Completes c [.channels, .stats]
      (fun s => heard s ch ∧ (bankOf s ch b).running = none ∧ groupProgram s ch b = false)
      (fun s t => stat t 0x2919 (ch + 1) = (stat s 0x2919 (ch + 1) + 1) % 2 ^ 32 ∧ ChannelsKept ch s t ∧
        channelOf t ch = { channelOf s ch with errors := (channelOf s ch).errors + 1 })) ∧
    Completes (.failEvent channel bank)
      [.mgmt, .folio, .ledger, .reserve, .channels, .groups, .easel, .palette, .queues, .perf, .path, .stats, .out]
      (fun s => heard s ch ∧ (bankOf s ch b).running.isSome = true)
      (fun s t => (bankOf t ch b).running = none ∧ stat t 0x2917 (ch + 1) = (stat s 0x2917 (ch + 1) + 1) % 2 ^ 32) ∧
    Completes (.readErrorEvent channel bank) [.channels, .stats] (fun s => heard s ch) (fun s t =>
      stat t 0x2918 (ch + 1) = (stat s 0x2918 (ch + 1) + 1) % 2 ^ 32 ∧ ChannelsKept ch s t ∧
      channelOf t ch = { channelOf s ch with
        errors := (channelOf s ch).errors + 1, erased := (channelOf s ch).erased ++ [b] }) ∧
    Completes (.frameErrorEvent channel bank .read) [.channels, .stats] (fun s => heard s ch) (fun s t =>
      stat t 0x2919 (ch + 1) = (stat s 0x2919 (ch + 1) + 1) % 2 ^ 32 ∧ ChannelsKept ch s t ∧
      channelOf t ch = { channelOf s ch with
        errors := (channelOf s ch).errors + 1, erased := (channelOf s ch).erased ++ [b] }) ∧
    (∀ sent : Nat, ∀ again : Bool, Completes (.frameErrorEvent channel bank .other)
      (if again = true ∨ sent = 0 then [.channels, .groups, .stats] else [.groups, .out])
      (fun s => heard s ch ∧ tabGet dNat (groupOf s (ch / 8)).sent (ch % 8) = sent ∧
        tabGet dBool (groupOf s (ch / 8)).resent (ch % 8) = again)
      (fun s t =>
        (again = false → sent ≠ 0 → t.out = .caFrame ch (sent - 1) :: s.out ∧
          tabGet dBool (groupOf t (ch / 8)).resent (ch % 8) = true ∧ tabGet dNat (groupOf t (ch / 8)).sent (ch % 8) = sent) ∧
        (again = true ∨ sent = 0 → stat t 0x2919 (ch + 1) = (stat s 0x2919 (ch + 1) + 1) % 2 ^ 32 ∧
          channelOf t ch = { channelOf s ch with errors := (channelOf s ch).errors + 1 } ∧
          tabGet dNat (groupOf t (ch / 8)).sent (ch % 8) = 0))) ∧
    (∀ prog : BankProg, ∀ x ∈ [(Instr.writeCrcErrorEvent channel bank, 0x291A), (.frameErrorEvent channel bank .program, 0x2919)],
      Completes x.1 [.channels, .stats, .out]
        (fun s => heard s ch ∧ (bankOf s ch b).refused = some prog ∧ (bankOf s ch b).running = none ∧
          tabGet dNat (channelOf s ch).reissues b < settingN s 0x2900 4)
        (fun s t => t.out = .burst ch (patchBytes prog.data) :: .caFrame ch (programFrame (stackAddr b prog.index) prog.data) :: s.out ∧
          (bankOf t ch b).running = some prog ∧ (bankOf t ch b).refused = none ∧
          tabGet dNat (channelOf t ch).reissues b = tabGet dNat (channelOf s ch).reissues b + 1 ∧ ChannelsKept ch s t ∧
          stat t x.2 (ch + 1) = (stat s x.2 (ch + 1) + 1) % 2 ^ 32)) ∧
    (∀ reg : BitVec 16, Completes (.stackStatusEvent channel 2 reg)
      [.sys, .mgmt, .folio, .ledger, .ports, .channels, .groups, .easel, .palette, .directory, .queues, .barrow, .perf, .stats, .out]
      (fun s => heard s ch ∧ (channelOf s ch).failed = false ∧
        (bitOf reg.toNat 0 = true ∨ bitOf reg.toNat 2 = true ∨ bitOf reg.toNat 3 = true))
      (fun s t => (channelOf t ch).failed = true ∧ (channelOf t ch).cause = 5 ∧ (channelOf t ch).parked = true ∧
        (channelOf t ch).state = 3 ∧
        tabGet dNat t.folio.tallyPending 159 = min (tabGet dNat s.folio.tallyPending 159 + 1) 65535)) ∧
    (∀ c ∈ [Instr.doneEvent channel bank, .failEvent channel bank, .readErrorEvent channel bank,
        .writeCrcErrorEvent channel bank, .frameErrorEvent channel bank .read],
      Completes c [] (fun s => (channelOf s ch).parked = true) (fun _ _ => True))

/-- R253 to R255, R258. At the end of a 1 s window every channel's error count restarts, a limit written meanwhile is in force, and below the limit nothing else happens.
Marking a channel fails and parks it with cause 6, unless it is failed already (0x2903) or its group would be fenced (0x2904). A
return trains a failed channel of a good domain in full, one at a time (0x2903, 0x2905, 0x2906). A mode register read of a channel
in service places the value in [2920.03]; elsewhere it is refused with 0x2905. -/
def Obligations.ChannelService : Prop :=
  Completes .channelErrorWindow
    [.sys, .mgmt, .folio, .ledger, .ports, .channels, .groups, .easel, .palette, .directory, .queues, .barrow, .perf, .stats, .out]
    (fun _ => True) (fun s t => forceN t 0x2900 5 = settingN s 0x2900 5 ∧ ∀ ch, ch < 64 → (channelOf t ch).errors = 0 ∧
      ((channelOf s ch).failed = false → (channelOf t ch).failed = true →
        forceN s 0x2900 5 ≤ (channelOf s ch).errors ∧ (channelOf t ch).cause = 4 ∧ (channelOf t ch).parked = true)) ∧
  Completes .channelErrorWindow [.sys, .channels]
    (fun s => ∀ ch, ch < 64 → (channelOf s ch).failed = true ∨ (channelOf s ch).errors < forceN s 0x2900 5)
    (fun s t => ∀ ch, channelOf t ch = if ch < 64 then { channelOf s ch with errors := 0 } else channelOf s ch) ∧
  (∀ (via : Via) (channel : Byte), channel.toNat < 64 →
    let ch := channel.toNat
    Serves (.markChannelFailed via channel) via .maintainer
      [.sys, .mgmt, .folio, .ledger, .ports, .channels, .groups, .easel, .palette, .directory, .queues, .barrow, .perf, .stats, .out]
      (fun _ s => (channelOf s ch).failed = false ∧ wouldFence s ch = false)
      (fun _ s t => (channelOf t ch).failed = true ∧ (channelOf t ch).cause = 6 ∧ (channelOf t ch).parked = true ∧
        (channelOf t ch).state = 3 ∧ ChannelsKept ch s t ∧
        tabGet dNat t.folio.tallyPending 159 = min (tabGet dNat s.folio.tallyPending 159 + 1) 65535) ∧
    Rejects (.markChannelFailed via channel) via .maintainer 0x2903 0x2900 8 (fun _ s => (channelOf s ch).failed = true) ∧
    Rejects (.markChannelFailed via channel) via .maintainer 0x2904 0x2900 8
      (fun _ s => (channelOf s ch).failed = false ∧ wouldFence s ch = true) ∧
    Serves (.returnChannel via channel) via .maintainer [.channels]
      (fun _ s => (channelOf s ch).failed = true ∧ (domainOf s (ch % 8)).phase = .good ∧ returnInProgress s = false ∧
        ∀ k, k < 8 → (domainOf s k).restarting = false)
      (fun _ s t => (channelOf t ch).returning = true ∧ (channelOf t ch).state = 6 ∧ (channelOf t ch).failed = true ∧
        (channelOf t ch).parked = false ∧ (∀ r, 3 ≤ r → modeReg t ch r = dMode r) ∧ ChannelsKept ch s t) ∧
    Rejects (.returnChannel via channel) via .maintainer 0x2903 0x2900 9 (fun _ s => (channelOf s ch).failed = false) ∧
    Rejects (.returnChannel via channel) via .maintainer 0x2905 0x2900 9
      (fun _ s => (channelOf s ch).failed = true ∧ (domainOf s (ch % 8)).phase ≠ .good) ∧
    Rejects (.returnChannel via channel) via .maintainer 0x2906 0x2900 9
      (fun _ s => (channelOf s ch).failed = true ∧ (domainOf s (ch % 8)).phase = .good ∧ returnInProgress s = true)) ∧
  (∀ (via : Via) (register temperature : Byte), register.toNat < 15 →
    Serves (.mrRead via register temperature true) via .operator [.channels, .settings, .stats]
      (fun _ s => (channelOf s (settingN s 0x2920 1)).state = 2)
      (fun _ s t => settingN t 0x2920 2 = register.toNat ∧ SettingsKept 0x2920 2 s t ∧
        stat t 0x2920 3 = if register = 3 then temperature.toNat else modeReg s (settingN s 0x2920 1) register.toNat) ∧
    Rejects (.mrRead via register temperature true) via .operator 0x2905 0x2920 2
      (fun _ s => (channelOf s (settingN s 0x2920 1)).state ≠ 2))

/-- R157, R167, R169, R363. For a line no window shares and no write is held before, a read returns the line's data where the line is
valid with M, L and P clear, poison where P is set or where the line is fenced, and otherwise takes the way R98 gives, sets L and
issues one medium read for which it waits. An address no decoder maps, and any address in Priming, reads as poison; with its link
down a port does nothing. No read changes a byte of any line that stays valid, or of the medium. -/
def Obligations.HostReads : Prop :=
  let units : List UnitName := [.sys, .mgmt, .folio, .ledger, .reserve, .ports, .channels, .groups, .easel, .palette, .crypt, .directory,
    .queues, .barrow, .perf, .path, .stats, .draws, .out]
  ∀ (port : Port) (tag : BitVec 16) (address : BitVec 52) (mv : Fin 3),
    let p := port.val
    let c := Instr.hostRead port tag address mv .none .none
    let served := fun (s : State) (line : Nat) => linkUp s p = true ∧ hostsServed s = true ∧
      (∃ dpa, hostDpa s p address.toNat = some dpa ∧ dpa / 64 = line) ∧ sharedLine s line = false ∧
      heldBefore s line s.easel.nextSeq = false
    let kept := fun (s t : State) => t.easel.lines = s.easel.lines ∧ t.path.medium = s.path.medium ∧
      t.easel.nextRead = s.easel.nextRead
    (∀ line q, Completes c units
      (fun s => served s line ∧ lineFenced s line = false ∧ easelFind s line = some q ∧ (easelLine s q).poison = false ∧
        (easelLine s q).merge = false ∧ (easelLine s q).fill = false)
      (fun s t => Output.data port tag.toNat (easelLine s q).data false 0 (devLoad s p) ∈ t.out ∧ kept s t)) ∧
    (∀ line q, Completes c units
      (fun s => served s line ∧ lineFenced s line = false ∧ easelFind s line = some q ∧ (easelLine s q).poison = true)
      (fun s t => Output.data port tag.toNat 0 true 0 (devLoad s p) ∈ t.out ∧ kept s t)) ∧
    (∀ line, Completes c units (fun s => served s line ∧ lineFenced s line = true)
      (fun s t => Output.data port tag.toNat 0 true 0 (devLoad s p) ∈ t.out ∧ kept s t)) ∧
    (∀ line q, Completes c units
      (fun s => served s line ∧ lineFenced s line = false ∧ easelFind s line = none ∧ poisonEntry s line = none ∧
        boundaryLine s line = none ∧ easelVictim s (easelSet line) = some q ∧
        ∀ e ∈ s.easel.reads, ¬ (e.2.kind = 1 ∧ e.2.line = line ∧ e.2.dead = false ∧ e.2.closed = false))
      (fun s t => (∀ r, easelLine t r =
          if r = q then { tag := easelTag line, valid := true, fill := true } else easelLine s r) ∧
        (tabGet dRead t.easel.reads s.easel.nextRead).line = line ∧ (tabGet dRead t.easel.reads s.easel.nextRead).kind = 0 ∧
        (tabGet dRead t.easel.reads s.easel.nextRead).place = q ∧ t.easel.nextRead = s.easel.nextRead + 1 ∧
        t.path.medium = s.path.medium ∧ ∃ w ∈ t.easel.waits, w.line = line ∧ w.who = .host p tag.toNat)) ∧
    Completes c units
      (fun s => linkUp s p = true ∧ (s.sys.dev = .priming ∨ (hostsServed s = true ∧ hostDpa s p address.toNat = none)))
      (fun s t => Output.data port tag.toNat 0 true 0 (devLoad s p) ∈ t.out ∧ kept s t) ∧
    Completes c [] (fun s => linkUp s p = false) (fun _ _ => True)

/-- R92 to R95, R164, R167, R174. For a line no window shares, with no write held before it: a full-line write with headroom puts its
data into the line, dirty and charged one tile to its port's share, and is acknowledged; a partial write to a good dirty line merges
its bytes; a partial write to an absent line is charged two tiles, takes a merge entry and a medium read, and is acknowledged; a
write its share cannot carry is held; at budget zero it is taken in without charge and its line queued, and the acknowledgement
waits for the destage. A write to a fenced line, an unmapped address, or in Priming is acknowledged and changes no line. No other
line's data, and nothing of the medium, changes. -/
def Obligations.HostWrites : Prop :=
  let units : List UnitName := [.sys, .mgmt, .folio, .ledger, .reserve, .ports, .channels, .groups, .easel, .palette, .crypt, .directory,
    .queues, .barrow, .perf, .path, .stats, .draws, .out]
  ∀ (port : Port) (tag : BitVec 16) (address : BitVec 52) (mv : Fin 3) (mask : BitVec 64) (data : Line),
    let p := port.val
    let full := Instr.hostWrite port tag address mv data false .none .none
    let part := Instr.partialWrite port tag address mv mask data false .none .none
    let mapped := fun (s : State) (line : Nat) => linkUp s p = true ∧ hostsServed s = true ∧ heldEntries s p < 64 ∧
      (∃ dpa, hostDpa s p address.toNat = some dpa ∧ dpa / 64 = line) ∧ sharedLine s line = false ∧
      heldBefore s line s.easel.nextSeq = false
    let open_ := fun (s : State) (line : Nat) => mapped s line ∧ lineFenced s line = false ∧ frailSet s (easelSet line) = false
    let budget := fun (s : State) => s.reserve.budget ≠ 0 ∧ portShareOf s p ≠ 0
    let others := fun (s t : State) (q : Nat) => t.path.medium = s.path.medium ∧ ∀ r, r ≠ q →
      (easelLine t r).data = (easelLine s r).data ∧ (easelLine t r).dirty = (easelLine s r).dirty ∧
      (easelLine t r).poison = (easelLine s r).poison ∧ (easelLine t r).charge = (easelLine s r).charge
    let acked := fun (t : State) => ∃ n, Output.ack port tag.toNat n ∈ t.out
    (∀ line q, Completes full units
      (fun s => open_ s line ∧ budget s ∧ easelFind s line = some q ∧ (easelLine s q).dirty = true ∧
        (easelLine s q).charge = 1 ∧ (easelLine s q).onDevice = false ∧
        portCharged s (easelLine s q).share ≤ portShareOf s (easelLine s q).share ∧
        dirtyWays s (easelSet line) < dirtyLimit s (easelSet line))
      (fun s t => (easelLine t q).data = data ∧ (easelLine t q).dirty = true ∧ (easelLine t q).poison = false ∧
        (easelLine t q).charge = 1 ∧ (easelLine t q).share = (easelLine s q).share ∧
        (∀ k, portCharged t k = portCharged s k) ∧ acked t ∧ others s t q)) ∧
    (∀ line q, Completes full units
      (fun s => open_ s line ∧ budget s ∧ easelFind s line = none ∧ easelVictim s (easelSet line) = some q ∧
        dirtyWays s (easelSet line) < dirtyLimit s (easelSet line) ∧ portCharged s p + 1 ≤ portShareOf s p)
      (fun s t => easelFind t line = some q ∧ (easelLine t q).data = data ∧ (easelLine t q).dirty = true ∧
        (easelLine t q).poison = false ∧ (easelLine t q).vk = false ∧ (easelLine t q).charge = 1 ∧ (easelLine t q).share = p ∧
        (∀ k, portCharged t k = if k = p then portCharged s p + 1 else portCharged s k) ∧ acked t ∧ others s t q)) ∧
    (∀ line q, mask ≠ BitVec.allOnes 64 → Completes part units
      (fun s => open_ s line ∧ budget s ∧ easelFind s line = some q ∧ (easelLine s q).dirty = true ∧
        (easelLine s q).poison = false ∧ (easelLine s q).merge = false ∧ (easelLine s q).fill = false ∧
        (easelLine s q).charge = 1 ∧ (easelLine s q).onDevice = false ∧
        portCharged s (easelLine s q).share ≤ portShareOf s (easelLine s q).share ∧
        dirtyWays s (easelSet line) < dirtyLimit s (easelSet line))
      (fun s t => (easelLine t q).data = mergeLine (easelLine s q).data data mask ∧ (easelLine t q).dirty = true ∧
        (easelLine t q).merge = false ∧ (easelLine t q).charge = 1 ∧ acked t ∧ others s t q)) ∧
    (∀ line q, mask ≠ BitVec.allOnes 64 → Completes part units
      (fun s => open_ s line ∧ budget s ∧ easelFind s line = none ∧ easelVictim s (easelSet line) = some q ∧
        dirtyWays s (easelSet line) < dirtyLimit s (easelSet line) ∧ portCharged s p + 2 ≤ portShareOf s p ∧
        mergesInUse s < 8192)
      (fun s t => (easelLine t q).data = mergeLine 0 data mask ∧ (easelLine t q).dirty = true ∧ (easelLine t q).merge = true ∧
        (easelLine t q).fill = true ∧ mergeMask t q = mask ∧ (easelLine t q).charge = 2 ∧
        (tabGet dRead t.easel.reads s.easel.nextRead).line = line ∧
        (∀ k, portCharged t k = if k = p then portCharged s p + 2 else portCharged s k) ∧ acked t ∧ others s t q)) ∧
    (∀ line, Completes full units
      (fun s => open_ s line ∧ budget s ∧ easelFind s line = none ∧ dirtyWays s (easelSet line) < dirtyLimit s (easelSet line) ∧
        portShareOf s p < portCharged s p + 1)
      (fun s t => (∃ w ∈ (portOf t p).held, w.line = line ∧ w.data = data ∧ w.mask = BitVec.allOnes 64) ∧
        (∀ r, (easelLine t r).data = (easelLine s r).data ∧ (easelLine t r).valid = (easelLine s r).valid) ∧
        (∀ k, portCharged t k = portCharged s k) ∧ t.path.medium = s.path.medium)) ∧
    (∀ line q, Completes full units
      (fun s => open_ s line ∧ s.reserve.budget = 0 ∧ easelFind s line = none ∧ easelVictim s (easelSet line) = some q ∧
        dirtyWays s (easelSet line) < dirtyLimit s (easelSet line))
      (fun s t => (easelLine t q).data = data ∧ (easelLine t q).dirty = true ∧ (easelLine t q).charge = 0 ∧
        (∀ k, portCharged t k = portCharged s k) ∧
        (∃ a ∈ t.easel.acks, a.line = line ∧ a.who = .host p tag.toNat ∧ a.destage = true) ∧
        ((∃ e ∈ (groupOf t (lineGroup s line)).destages, e.2 = q) ∨ q ∈ (groupOf t (lineGroup s line)).destageWait) ∧
        others s t q)) ∧
    (∀ line, ∀ c ∈ [full, part], Completes c units (fun s => mapped s line ∧ lineFenced s line = true)
      (fun s t => acked t ∧ t.easel.lines = s.easel.lines ∧ t.path.medium = s.path.medium)) ∧
    (∀ c ∈ [full, part], Completes c units
      (fun s => linkUp s p = true ∧ (s.sys.dev = .priming ∨
        (hostsServed s = true ∧ heldEntries s p < 64 ∧ hostDpa s p address.toNat = none)))
      (fun s t => acked t ∧ t.easel.lines = s.easel.lines ∧ t.path.medium = s.path.medium) ∧
    Completes c [] (fun s => linkUp s p = false ∨ (hostsServed s = true ∧ 64 ≤ heldEntries s p)) (fun _ _ => True))

/-- R31, R48 to R50, R54, R157. When the patches of an unsealed line's fill are in, decoded with the erased columns and those whose
transfer failed: good content that passes its MAC is deciphered into the line with its version, and every host read that waits gets
it under the bytes written before that read; a poison tile makes the line poison and answers poison; a failed decode is read again
while retries of the limit it took when it began are left; a fenced place answers poison; a group in deep sleep keeps the read. No
patch of the medium changes. -/
def Obligations.TileArrival : Prop :=
  let units : List UnitName := [.sys, .mgmt, .folio, .ledger, .reserve, .channels, .ports, .groups, .easel, .palette,
    .directory, .queues, .barrow, .perf, .path, .stats, .out]
  ∀ (read : BitVec 32) (err : Codeword) (xfer : Byte),
    let n := read.toNat
    let r := fun (s : State) => tabGet dRead s.easel.reads n
    let fill := fun (s : State) => (r s).kind = 0 ∧ (r s).dead = false ∧ (r s).content = [] ∧ fillLive s (r s) = true ∧
      (easelLine s (r s).place).merge = false ∧ sealedLine s (r s).line = false
    let reached := fun (s : State) (pl : Place) => linePlace s (r s).line = some pl ∧ placeFenced s pl = false ∧
      groupAwake s pl.group = true ∧ remapReady s pl = true
    let judged := fun (s : State) (pl : Place) =>
      judgeDecode (.host (r s).line) (decodeAt s pl.group pl.addrs
        ((erasedColumns s pl.group pl.slot ++ (maskColumns xfer ++ (takeErased s pl.group pl.addrs).2)).eraseDups) err)
    let answered := fun (s t : State) (data : Line) (poison : Bool) =>
      ∀ w ∈ s.easel.waits, ∀ p tag, w.line = (r s).line → w.who = .host p tag → heldBefore s w.line w.seq = false →
        ∃ load, Output.data (Fin.ofNat 4 p) tag (if poison then 0 else mergeLine data w.overData w.overMask) poison
          w.metaValue load ∈ t.out
    (∀ pl content errors d, Completes (.tileReadArrival read err xfer) units
      (fun s => fill s ∧ reached s pl ∧ judged s pl = .good content errors ∧
        checkLine s (r s).line content = .ok d)
      (fun s t => (∀ q, q ≠ (r s).place → easelLine t q = easelLine s q) ∧
        easelLine t (r s).place = { easelLine s (r s).place with
          data := d, poison := false, fill := false, version := versionOf content, vk := true } ∧
        tabGet dRead t.easel.reads n = dRead n ∧ answered s t d false ∧ t.path.medium = s.path.medium)) ∧
    (∀ pl content errors, Completes (.tileReadArrival read err xfer) units
      (fun s => fill s ∧ reached s pl ∧ judged s pl = .poison content errors)
      (fun s t => (easelLine t (r s).place).poison = true ∧ (easelLine t (r s).place).data = 0 ∧
        (easelLine t (r s).place).fill = false ∧ answered s t 0 true ∧ t.path.medium = s.path.medium)) ∧
    (∀ pl content, Completes (.tileReadArrival read err xfer) units
      (fun s => fill s ∧ reached s pl ∧ judged s pl = .failed content ∧
        (r s).retries + (r s).spent < ((r s).latch.getD (latchNow s)).1)
      (fun s t => (r t).retries = (r s).retries + 1 ∧ (r t).granted = false ∧ (r t).line = (r s).line ∧ (r t).kind = 0 ∧
        (r t).failed = true ∧ t.easel.lines = s.easel.lines ∧ t.path.medium = s.path.medium)) ∧
    (∀ pl, Completes (.tileReadArrival read err xfer) units
      (fun s => fill s ∧ linePlace s (r s).line = some pl ∧ placeFenced s pl = true)
      (fun s t => (easelLine t (r s).place).poison = true ∧ (easelLine t (r s).place).data = 0 ∧ answered s t 0 true ∧
        t.path.medium = s.path.medium)) ∧
    (∀ pl, Completes (.tileReadArrival read err xfer) []
      (fun s => linePlace s (r s).line = some pl ∧ placeFenced s pl = false ∧ groupAwake s pl.group = false) (fun _ _ => True)) ∧
    Completes (.tileReadArrival read err xfer) [] (fun s => (r s).kind = 9 ∨ (r s).content ≠ []) (fun _ _ => True)

/-- R101. At its grant the first line of a group's queue that can go, here unsealed and good with a known version, is copied: F is
set, W and Q cleared, and its tile carries the version after the known one. When the program is complete every column that is not
erased holds its patch of the codeword and no other patch changes; with W clear the line is clean, its version the one written and
its charge released; with W set it stays dirty with the stamp of that write, the charge moving to its writer. Host writes whose data
was in the copy are then acknowledged (R94, R164). -/
def Obligations.Destages : Prop :=
  (∀ (group : Group) (cls p : Nat),
    let line := fun (s : State) => placeLine s p
    let v := fun (s : State) => ((easelLine s p).version + 1) % 2 ^ 24
    Completes (.destageGrant group .none)
      [.reserve, .groups, .easel, .palette, .crypt, .perf, .stats, .draws]
      (fun s => (groupOf s group.val).destages.find? (fun e => destageReady s group.val e.2) = some (cls, p) ∧
        sealedLine s (line s) = false ∧ ephemeralState s = false ∧ (easelLine s p).poison = false ∧ (easelLine s p).vk = true)
      (fun s t => easelLine t p = { easelLine s p with flight := true, written := false, queued := false } ∧
        (∃ f ∈ t.easel.flights, f.place = p ∧ f.line = line s ∧ f.version = v s ∧
          f.code = lineCode s (lineKey s (line s)) (line s) 0 (v s) (easelLine s p).data) ∧
        (∀ e ∈ (groupOf t (lineGroup s (line s))).destages, e.2 ≠ p) ∧ t.path.medium = s.path.medium)) ∧
  (∀ (line : LineAddr) (f : DestageRec) (pl : Place), (∀ c, c < 8 → pl.addrs.getD c 0 < 2 ^ 35) →
    let programmed := fun (s t : State) => ∀ ch a, ch < 64 → a < 2 ^ 35 →
      tabGet dPatch t.path.medium (patchKey ch a) =
        if ch / 8 = pl.group ∧ a = pl.addrs.getD (ch % 8) 0 ∧ ch % 8 ∉ erasedColumns s pl.group pl.slot
        then patchOfSymbols f.code (ch % 8) else tabGet dPatch s.path.medium (patchKey ch a)
    let before := fun (s : State) => s.easel.flights.find? (fun x => x.line == line.toNat && x.fill.isNone) = some f ∧
      linePlace s f.line = some pl ∧ placeFenced s pl = false ∧ pl.group < 8 ∧ s.sys.dev ≠ .varnish ∧ (easelLine s f.place).valid = true ∧
      (easelLine s f.place).flight = true ∧ (easelLine s f.place).tag = easelTag f.line ∧ (easelLine s f.place).onDevice = false
    let acked := fun (s t : State) => ∀ a ∈ s.easel.acks, ∀ p tag, a.line = f.line → a.copied = true → a.counter = none →
      a.snoop = false → a.who = .host p tag → ∃ load, Output.ack (Fin.ofNat 4 p) tag load ∈ t.out
    let units : List UnitName := [.sys, .mgmt, .folio, .ledger, .power, .reserve, .groups, .easel, .palette, .crypt, .directory,
      .queues, .barrow, .perf, .path, .stats, .out]
    Completes (.destageComplete line) units (fun s => before s ∧ (easelLine s f.place).written = false) (fun s t =>
      let x := easelLine s f.place
      let y := easelLine t f.place
      y.dirty = false ∧ y.flight = false ∧ y.version = f.version ∧ y.vk = true ∧ y.data = x.data ∧ y.charge = 0 ∧
      (∀ k, portCharged t k = if k = x.share then portCharged s k - x.charge else portCharged s k) ∧ programmed s t ∧ acked s t) ∧
    Completes (.destageComplete line) units (fun s => before s ∧ (easelLine s f.place).written = true) (fun s t =>
      let x := easelLine s f.place
      let y := easelLine t f.place
      y.dirty = x.dirty ∧ y.flight = false ∧ y.written = false ∧ y.version = f.version ∧ y.vk = true ∧ y.data = x.data ∧
      y.stamp = x.restamp ∧ y.charge = x.charge ∧ (0 < x.charge → y.share = x.writer) ∧ programmed s t ∧ acked s t))

/-- R99, R100, R112. A hold tick, and a flush request for every dirty line, selects each line nine ticks old or older: it then stands in its
group's queue or waits for it, or the queue is full. A flush requested while one is active is refused with 0x2303. R176. A held write
that can be taken in leaves its port's buffer; where none can, nothing changes; those of a line fenced meanwhile complete. R215. A deep
read takes the oldest tile queued, leaves a tile whose line is dirty to its destage, and waits while its remap table tile or counter
is not there or another unit holds its region. No line's data changes by a selection. -/
def Obligations.Selections : Prop :=
  let chosen := fun (s t : State) (q : Nat) =>
    let x := groupOf t (lineGroup s (placeLine s q))
    (∃ e ∈ x.destages, e.2 = q) ∨ q ∈ x.destageWait ∨ 64 ≤ x.destages.length
  let lines := fun (s t : State) => ∀ q, easelLine t q = { easelLine s q with queued := (easelLine t q).queued }
  Completes .holdTick [.sys, .groups, .easel, .stats] (fun _ => True) (fun s t =>
    t.easel.tick = s.easel.tick + 1 ∧ lines s t ∧
    ∀ q, selectable (easelLine s q) = true → 9 ≤ stampAge (s.easel.tick + 1) (easelLine s q).stamp → chosen s t q) ∧
  (∀ via : Via,
    Serves (.flushRequest via) via .operator [.groups, .easel, .stats] (fun _ s => s.easel.flushing = false) (fun _ s t =>
      lines s t ∧ (t.easel.flushing = true ↔ ∃ e ∈ s.easel.lines, e.2.valid = true ∧ e.2.dirty = true) ∧
      ∀ q, selectable (easelLine s q) = true → chosen s t q) ∧
    Rejects (.flushRequest via) via .operator 0x2303 0x2300 7 (fun _ s => s.easel.flushing = true)) ∧
  (∀ (port : Port) (w : WriteReq),
    let clear := fun (s : State) => ∀ v ∈ (portOf s port.val).held, lineFenced s v.line = false
    let ready := fun (s : State) (w : WriteReq) => !heldBefore s w.line w.seq && (match takeIn s w with
      | .done _ _ => true
      | .held _ => false)
    Completes (.heldWriteTakeIn port)
      [.mgmt, .folio, .ledger, .reserve, .ports, .groups, .easel, .palette, .directory, .queues, .barrow, .perf, .stats, .out]
      (fun s => clear s ∧ (portOf s port.val).held.find? (ready s) = some w)
      (fun s t => (portOf t port.val).held = (portOf s port.val).held.filter (fun v => v.seq != w.seq)) ∧
    Completes (.heldWriteTakeIn port) [] (fun s => clear s ∧ (portOf s port.val).held.find? (ready s) = none) (fun _ _ => True) ∧
    Completes (.heldWriteTakeIn port)
      [.mgmt, .folio, .ledger, .reserve, .ports, .groups, .easel, .palette, .directory, .queues, .barrow, .perf, .stats, .out]
      (fun s => ¬ clear s) (fun s t => (∀ v ∈ (portOf t port.val).held, lineFenced s v.line = false) ∧
        ∀ v ∈ (portOf s port.val).held, ∀ p tag, lineFenced s v.line = true → v.who = .host p tag → v.snoop = false →
          ∃ load, Output.ack (Fin.ofNat 4 p) tag load ∈ t.out)) ∧
  (∀ (group : Group) (swatch : RegionReads) (errs : List Codeword) (x : TileId) (rest : List TileId),
    let first := fun (s : State) (x : TileId) (rest : List TileId) =>
      (groupOf s group.val).deepReads = x :: rest ∧ engineRuns s group.val = true ∧ tileDirty s x = false
    Completes (.deepRead group swatch errs) [.groups]
      (fun s => (groupOf s group.val).deepReads = x :: rest ∧ engineRuns s group.val = true ∧ tileDirty s x = true)
      (fun s t => GroupsKept group.val s t ∧ groupOf t group.val = { groupOf s group.val with deepReads := rest }) ∧
    Completes (.deepRead group swatch errs)
      [.sys, .mgmt, .folio, .ledger, .reserve, .channels, .ports, .groups, .easel, .palette, .crypt, .queues, .perf, .path, .stats,
        .draws, .out]
      (fun s => first s x rest ∧ ∃ pl, placeOf s x = some pl ∧ placeReady s pl = true ∧ authReady s x = true ∧
        tileInFlight s x = false ∧ unitInRegion s x = false)
      (fun _ t => rest <+: (groupOf t group.val).deepReads) ∧
    Completes (.deepRead group swatch errs) [.palette, .perf, .stats]
      (fun s => first s x rest ∧ ∃ pl, placeOf s x = some pl ∧ (placeReady s pl = false ∨ authReady s x = false ∨
        tileInFlight s x = true ∨ unitInRegion s x = true)) (fun _ _ => True) ∧
    Completes (.deepRead group swatch errs) []
      (fun s => (groupOf s group.val).deepReads = [] ∨ engineRuns s group.val = false) (fun _ _ => True))

/-- R109, R110. A scrub that finds nothing moves its bank's pointer to the next row, back to 0 past the last, makes the row's mirror
tag words good and changes no line; one of a bank that is due after a patrol window is the forced scrub and is counted, any other
spares its bank the force of its window. The window's end makes every bank due that scrubbed no row in it. R103, R105. A corrected
word is counted and charged to its row, and a row at the threshold in force is nominated. R107. The oldest nominated row gets the
lowest free spare of its bank, recorded; a dirty line whose word the copy finds uncorrectable is poisoned, no other line changes.
R105. At the end of the 24 hour window the counts restart. -/
def Obligations.EaselRepair : Prop :=
  let advance := fun (s : State) (b : Nat) =>
    if 6272 + sparesUsed s b ≤ tabGet dNat s.easel.scrub b + 1 then 0 else tabGet dNat s.easel.scrub b + 1
  let kept := fun (s t : State) => ∀ q, easelLine t q = easelLine s q
  (∀ (bank : Fin 64) (way : Fin 16),
    let b := bank.val
    let row := fun (s : State) => scrubTarget s b (tabGet dNat s.easel.scrub b)
    Completes (.easelScrub bank way .none) [.easel, .stats] (fun _ => True) (fun s t =>
      (∀ k, tabGet dNat t.easel.scrub k = if k = b then advance s b else tabGet dNat s.easel.scrub k) ∧
      (∀ w, w < 16 → row s < 4096 → tabGet dBool t.easel.mirrorBad (mirrored b (row s) w) = false) ∧
      kept s t ∧ t.easel.rowsDue = s.easel.rowsDue) ∧
    Completes (.easelScrub bank way .none) [.easel, .stats] (fun s => tabGet dBool s.easel.patrolDue b = true) (fun s t =>
      tabGet dBool t.easel.patrolDue b = false ∧ t.easel.patrolled = s.easel.patrolled ∧
      stat t 0x2310 0x14 = (stat s 0x2310 0x14 + 1) % 2 ^ 64) ∧
    Completes (.easelScrub bank way .none) [.easel, .stats] (fun s => tabGet dBool s.easel.patrolDue b = false) (fun s t =>
      tabGet dBool t.easel.patrolled b = true ∧ t.easel.patrolDue = s.easel.patrolDue ∧ stat t 0x2310 0x14 = stat s 0x2310 0x14) ∧
    Completes (.easelScrub bank way .easelWord) [.easel, .stats] (fun s => row s < 6272) (fun s t =>
      stat t 0x2310 0x0D = (stat s 0x2310 0x0D + 1) % 2 ^ 64 ∧ kept s t ∧
      tabGet dNat s.easel.rowCounts (64 * row s + b) < tabGet dNat t.easel.rowCounts (64 * row s + b) ∧
      (forceN s 0x2300 6 ≤ tabGet dNat t.easel.rowCounts (64 * row s + b) → 64 * row s + b ∈ t.easel.rowsDue))) ∧
  Completes .patrolWindow [.easel] (fun _ => True) (fun s t => t.easel.patrolled = [] ∧ t.easel.lines = s.easel.lines ∧
    t.easel.scrub = s.easel.scrub ∧
    ∀ b, tabGet dBool t.easel.patrolDue b = (tabGet dBool s.easel.patrolDue b || decide (b < 64) && !tabGet dBool s.easel.patrolled b)) ∧
  Completes .rowCountWindow [.sys, .easel] (fun _ => True) (fun s t =>
    t.easel = { s.easel with rowCounts := [], rowOrder := [] } ∧ forceN t 0x2300 6 = settingN s 0x2300 6) ∧
  (∀ ways : RowWords,
    Completes (.rowRepair ways) [] (fun s => s.easel.rowsDue = []) (fun _ _ => True) ∧
    (∀ key rest i, i < 16 → Completes (.rowRepair ways)
      [.mgmt, .folio, .ledger, .reserve, .ports, .groups, .easel, .palette, .queues, .stats, .out]
      (fun s => s.easel.rowsDue = key :: rest ∧ tabGet dNat s.easel.spareRows (16 * (key % 64) + i) = 0 ∧
        (∀ j, j < i → tabGet dNat s.easel.spareRows (16 * (key % 64) + j) ≠ 0) ∧
        ∀ q, q / 16 = key → (easelLine s q).valid = true → easelFind s (placeLine s q) = some q)
      (fun s t => t.easel.rowsDue = rest ∧
        (∀ k, tabGet dNat t.easel.spareRows k =
          if k = 16 * (key % 64) + i then key / 64 + 1 else tabGet dNat s.easel.spareRows k) ∧
        ∀ q, if q / 16 = key ∧ key / 64 < 4096 ∧ ways.lost.getLsbD (q % 16) = true ∧ (easelLine s q).valid = true ∧
            ((easelLine s q).dirty = true ∨ (easelLine s q).merge = true)
          then (easelLine t q).poison = true else easelLine t q = easelLine s q)))

/-- R161, R285 to R288. A read of a shared line that another port holds exclusively snoops the holder and waits. A response of a port
the round does not wait for does nothing; one it waits for leaves the round, clearing the port's presence (BIRspI) or the exclusive
state (BIRspS), and the last response ends the round. A conflict is acknowledged at once where the port waits for no answer to the
line, else later. A time-out counts as BIRspI and fences the port. A set short of free ways gives up its least recently touched entry
with no round. -/
def Obligations.Sharing : Prop :=
  let units : List UnitName := [.mgmt, .folio, .ledger, .reserve, .ports, .groups, .easel, .palette, .directory, .queues,
    .barrow, .perf, .stats, .out]
  (∀ (port : Port) (tag : BitVec 16) (address : BitVec 52) (line e q : Nat), q < 4 → q ≠ port.val →
    Completes (.hostRead port tag address 1 .none .none)
      [.sys, .mgmt, .folio, .ledger, .reserve, .ports, .channels, .groups, .easel, .palette, .crypt, .directory, .queues, .barrow,
        .perf, .path, .stats, .draws, .out]
      (fun s => linkUp s port.val = true ∧ hostsServed s = true ∧
        (∃ dpa, hostDpa s port.val address.toNat = some dpa ∧ dpa / 64 = line) ∧ sharedLine s line = true ∧
        (portOf s port.val).fenced = false ∧ roundOf s line = none ∧ tabGet dBool s.directory.suspect (dirSet line) = false ∧
        dirFind s line = some e ∧ (dirEntry s e).exclusive = true ∧ bitOf (dirEntry s e).presence q = true ∧
        snoopable s q = true)
      (fun s t => Output.snoop (Fin.ofNat 4 q) line 1 ∈ t.out ∧ (∃ r, roundOf t line = some r ∧ q ∈ r.waiting) ∧
        dirEntry t e = dirEntry s e ∧ t.path.medium = s.path.medium)) ∧
  (∀ (port : Port) (line : LineAddr) (answer : Fin 3) (r : SnoopRound),
    let p := port.val
    let l := line.toNat
    let waits := fun (s : State) => roundOf s l = some r ∧ p ∈ r.waiting
    (∀ c ∈ [Instr.biSnoopResponse port line answer, .biConflict port line, .snoopTimeout port line],
      Completes c [] (fun s => ∀ x, roundOf s l = some x → p ∉ x.waiting) (fun _ _ => True)) ∧
    Completes (.biSnoopResponse port line answer) units (fun s => waits s ∧ r.waiting.erase p ≠ [])
      (fun s t => roundOf t l = some { r with waiting := r.waiting.erase p, conflicts := r.conflicts.erase p } ∧
        ∀ e, dirFind s l = some e → bitOf (dirEntry s e).presence p = true →
          (dirEntry t e).presence = (if answer.val = 0 then (dirEntry s e).presence - 2 ^ p else (dirEntry s e).presence) ∧
          (dirEntry t e).exclusive = (if answer.val = 0 then (dirEntry s e).exclusive && (dirEntry s e).presence - 2 ^ p != 0
            else if answer.val = 1 then false else (dirEntry s e).exclusive)) ∧
    Completes (.biSnoopResponse port line answer) units (fun s => waits s ∧ r.waiting.erase p = [] ∧ r.behind = [])
      (fun s t => roundOf t l = none ∧ (r.request = none → ∀ e, dirFind s l = some e → dirEntry t e = {})) ∧
    Completes (.snoopTimeout port line) units (fun s => waits s ∧ p ∉ r.conflicts ∧ r.waiting.erase p ≠ [])
      (fun s t => (portOf t p).fenced = true ∧ stat t (0x2B20 + p) 5 = (stat s (0x2B20 + p) 5 + 1) % 2 ^ 32 ∧
        roundOf t l = some { r with waiting := r.waiting.erase p, conflicts := r.conflicts.erase p } ∧
        tabGet dNat t.folio.tallyPending 163 = min (tabGet dNat s.folio.tallyPending 163 + 1) 65535) ∧
    Completes (.snoopTimeout port line) [] (fun s => waits s ∧ p ∈ r.conflicts) (fun _ _ => True) ∧
    Completes (.biConflict port line) [.perf, .stats, .out] (fun s => waits s ∧ unanswered s p l = false)
      (fun s t => t.out = .biConflictAck port l :: s.out) ∧
    Completes (.biConflict port line) [.directory, .perf, .stats] (fun s => waits s ∧ unanswered s p l = true)
      (fun _ t => ∃ x, roundOf t l = some x ∧ p ∈ x.conflicts ∧ x.waiting = r.waiting)) ∧
  (∀ (set : Fin 2097152) (i : Nat), i < 16 →
    let e := 16 * set.val + i
    let oldest := fun (s : State) => freeWays s set.val < settingN s 0x2B00 3 ∧ (dirEntry s e).presence ≠ 0 ∧
      roundOf s (entryLine s e) = none ∧ ∀ j, j < 16 → j ≠ i → (dirEntry s (16 * set.val + j)).presence ≠ 0 →
        roundOf s (entryLine s (16 * set.val + j)) = none → (dirEntry s e).touch < (dirEntry s (16 * set.val + j)).touch
    let holders := fun (s : State) => (portsIn (dirEntry s e).presence).filter (snoopable s)
    Completes (.directoryEviction set) [.directory, .stats] (fun s => oldest s ∧ holders s = []) (fun s t =>
      (∀ k, dirEntry t k = if k = e then {} else dirEntry s k) ∧ stat t 0x2B40 3 = (stat s 0x2B40 3 + 1) % 2 ^ 64) ∧
    Completes (.directoryEviction set) [.directory, .stats, .out] (fun s => oldest s ∧ holders s ≠ []) (fun s t =>
      (∀ k, dirEntry t k = dirEntry s k) ∧ (∃ r, roundOf t (entryLine s e) = some r ∧ r.waiting = holders s ∧ r.request = none) ∧
      ∀ q ∈ holders s, Output.snoop (Fin.ofNat 4 q) (entryLine s e) 2 ∈ t.out) ∧
    Completes (.directoryEviction set) [] (fun s => settingN s 0x2B00 3 ≤ freeWays s set.val) (fun _ _ => True))

/-- R141, R146. The fill of the only miss, of a remap table tile, installs its good content clean in the way the register chose;
under the invalid mark it leaves the way invalid and is counted; after a failed decode it is read again. R142. A tick selects the
dirty lines nine ticks old; a granted writeback, whose parent is present, sets WB and clears D; when it is complete its tile stands
in every column not erased, WB is clear, and a line not written since frees its mirror. R145. A range invalidation loads a
comparator, marks the miss registers and drops the lines it covers and the updates that wait for them; a fifth waits until one is
closed; a lookup that waited is then made. R149. The rebuild of a fenced span clears its fence, which the span that waits longest takes. -/
def Obligations.PaletteLines : Prop :=
  (∀ (register : Fin 64) (err : Codeword) (xfer : Byte) (m : MissReg) (g p i : Nat) (pl : Place),
    let units : List UnitName := [.sys, .mgmt, .folio, .ledger, .reserve, .channels, .ports, .groups, .easel, .palette, .crypt,
      .directory, .queues, .barrow, .perf, .path, .stats, .draws, .out]
    let judged := fun (s : State) => judgeDecode (.remap g p i) (decodeAt s pl.group pl.addrs
      ((erasedColumns s pl.group pl.slot ++ (maskColumns xfer ++ (takeErased s pl.group pl.addrs).2)).eraseDups) err)
    let before := fun (s : State) => s.palette.misses = [(register.val, some m)] ∧ s.easel.reads = [] ∧ m.content = [] ∧
      tileOfKey m.key = .remap g p i ∧ placeOf s (.remap g p i) = some pl ∧ placeFenced s pl = false ∧
      groupAwake s pl.group = true ∧ s.palette.lookups = [] ∧ s.palette.updates = []
    (∀ content errors, Completes (.paletteFill register err xfer) units
      (fun s => before s ∧ m.marked = false ∧ judged s = .good content errors)
      (fun s t => t.palette.misses = [] ∧ ∀ w, palWay t w =
        if w = m.place then
          { key := paletteKey (.remap g p i), valid := true, data := lineOf (payloadOf content), cls := m.cls }
        else palWay s w)) ∧
    (∀ content errors, Completes (.paletteFill register err xfer) units
      (fun s => before s ∧ m.marked = true ∧ judged s = .good content errors)
      (fun s t => stat t 0x2510 0x0A = (stat s 0x2510 0x0A + 1) % 2 ^ 64 ∧ ∀ w, palWay t w = if w = m.place then {} else palWay s w)) ∧
    (∀ content, Completes (.paletteFill register err xfer) units
      (fun s => before s ∧ judged s = .failed content ∧ m.retries + m.spent < (m.latch.getD (latchNow s)).1)
      (fun s t => (∃ x, missReg t register.val = some x ∧ x.key = m.key ∧ x.place = m.place ∧ x.retries = m.retries + 1 ∧
        x.granted = false) ∧ t.palette.ways = s.palette.ways)) ∧
    Completes (.paletteFill register err xfer) [] (fun s => missReg s register.val = none) (fun _ _ => True)) ∧
  Completes .paletteTick [.palette] (fun _ => True) (fun s t => t.palette.tick = s.palette.tick + 1 ∧
    t.palette.ways = s.palette.ways ∧ ∀ e ∈ s.palette.ways, e.2.dirty = true → e.2.mirror = false →
      stampAge (s.palette.tick + 1) e.2.stamp = 9 → e.1 ∈ t.palette.selected) ∧
  (∀ (set : Fin 8192) (way : Fin 16),
    let w := 16 * set.val + way.val
    Completes (.paletteWritebackGrant set way) [.reserve, .easel, .palette, .crypt, .perf, .stats]
      (fun s => w ∈ s.palette.selected ∧ writebackReady s (tileOfKey (palWay s w).key) = true ∧
        advanceNeeds s (tileOfKey (palWay s w).key) = [] ∧ (palWay s w).valid = true ∧ (palWay s w).dirty = true ∧
        (palWay s w).mirror = false ∧ (palWay s w).back = false ∧ (palWay s (partner w)).mirror = true)
      (fun s t => (palWay t w).back = true ∧ (palWay t w).dirty = false ∧ w ∉ t.palette.selected ∧
        ∃ job ∈ t.palette.writes, job.place = w ∧ job.tile = tileOfKey (palWay s w).key ∧ job.pl = placeOf s job.tile) ∧
    Completes (.paletteWritebackGrant set way) [] (fun s => w ∉ s.palette.selected) (fun _ _ => True) ∧
    (∀ (job : PalWrite) (pl : Place), pl.group < 8 → (∀ c, c < 8 → pl.addrs.getD c 0 < 2 ^ 35) →
      Completes (.paletteWritebackComplete set way)
        [.sys, .mgmt, .folio, .ledger, .power, .reserve, .groups, .easel, .palette, .crypt, .directory, .queues, .barrow,
          .perf, .path, .stats, .out]
        (fun s => s.palette.writes.find? (fun x => x.place == w) = some job ∧ job.pl = some pl ∧ placeFenced s pl = false ∧
          s.palette.updates = [] ∧
          (palWay s w).valid = true ∧ (palWay s w).back = true ∧ s.sys.dev ≠ .varnish)
        (fun s t => (palWay t w).back = false ∧ (palWay t w).dirty = (palWay s w).dirty ∧
          (palWay t w).data = (palWay s w).data ∧
          ((palWay s w).dirty = false → (palWay t w).charged = false ∧ palWay t (partner w) = {}) ∧
          ∀ ch a, ch < 64 → a < 2 ^ 35 → tabGet dPatch t.path.medium (patchKey ch a) =
            if ch / 8 = pl.group ∧ a = pl.addrs.getD (ch % 8) 0 ∧ ch % 8 ∉ erasedColumns s pl.group pl.slot
            then patchOfSymbols job.code (ch % 8) else tabGet dPatch s.path.medium (patchKey ch a)))) ∧
  (∀ (kind : Byte) (lo hi : BitVec 56),
    let v : Invalidation := ⟨kind.toNat, lo.toNat, hi.toNat⟩
    let hit := fun (k : Nat) => keyKind k = kind.toNat ∧ lo.toNat ≤ k % 2 ^ 56 ∧ k % 2 ^ 56 < hi.toNat
    Completes (.rangeInvalidationOpen kind lo hi) [.reserve, .palette, .stats] (fun s => s.palette.comparators.length < 4)
      (fun s t => t.palette.comparators = s.palette.comparators ++ [v] ∧ (∀ u ∈ t.palette.updates, ¬ hit u.key) ∧
        (∀ w, (palWay s w).valid = true → (palWay s w).mirror = false → hit (palWay s w).key → (palWay t w).valid = false) ∧
        ∀ n m, n < 64 → missReg s n = some m →
          missReg t n = some (if keyKind m.key == kind.toNat && decide (lo.toNat ≤ m.key % 2 ^ 56 ∧ m.key % 2 ^ 56 < hi.toNat)
            then { m with marked := true } else m)) ∧
    Completes (.rangeInvalidationOpen kind lo hi) [.palette] (fun s => 4 ≤ s.palette.comparators.length)
      (fun s t => t.palette = { s.palette with invalidations := s.palette.invalidations ++ [v] }) ∧
    Completes (.rangeInvalidationClose kind lo hi) [.reserve, .palette, .stats]
      (fun s => s.palette.invalidations = [] ∧ s.palette.lookups = [] ∧ s.palette.updates = [])
      (fun s t => t.palette = { s.palette with comparators := s.palette.comparators.erase v }) ∧
    (∀ x rest, Completes (.rangeInvalidationClose kind lo hi) [.reserve, .palette, .stats]
      (fun s => s.palette.invalidations = x :: rest ∧ (s.palette.comparators.erase v).length < 4)
      (fun s t => t.palette.comparators = s.palette.comparators.erase v ++ [x] ∧ t.palette.invalidations = rest)) ∧
    (∀ cls k, Completes (.rangeInvalidationClose kind lo hi) [.reserve, .palette, .stats]
      (fun s => s.palette.invalidations = [] ∧ s.palette.lookups = [(cls, k)] ∧ paletteFind s k = none ∧ missOf s k = none)
      (fun _ t => (cls, k) ∈ t.palette.lookups ∨ (missOf t k).isSome = true))) ∧
  (∀ (via : Via) (limit : BitVec 32), 1024 ≤ limit.toNat → limit.toNat ≤ 65536 →
    Serves (.dirtyLimitWrite via limit) via .maintainer [.palette, .settings] (fun _ _ => True) (fun _ s t =>
      settingN t 0x2500 3 = limit.toNat ∧ SettingsKept 0x2500 3 s t ∧ t.palette.ways = s.palette.ways)) ∧
  (∀ (fence : Fin 8),
    Completes (.spanFenceRebuildEnd fence) [] (fun s => s.palette.spans.length ≤ fence.val) (fun _ _ => True) ∧
    (∀ f : SpanFence, Completes (.spanFenceRebuildEnd fence)
      [.sys, .folio, .reserve, .channels, .groups, .easel, .palette, .crypt, .perf, .path, .stats, .draws]
      (fun s => s.palette.spans[fence.val]? = some f) (fun s t =>
        t.palette.spans = s.palette.spans.erase f ++ s.palette.spanWait.take 1 ∧ t.palette.spanWait = s.palette.spanWait.drop 1)))

/-- R182, R183. RANGE_OPEN takes a Closed range to Open and an Empty one to Opening, under its next key where one is loaded, else a
drawn one; RANGE_CLOSE selects every dirty line of an Open range, and its end drops the range's lines once none is dirty, merge
pending or in flight; RANGE_ERASE drops the lines of an Open or Closed range without destage and begins an opening. Each writes the
key store. R186, R208. The installation key is set once, then replaced only under itself; a next key is discarded. A command in a state
that does not allow it, or under the ephemeral key, is rejected by its code. -/
def Obligations.KeyRanges : Prop :=
  let stored := fun (k : Nat) (s t : State) => t.crypt.storeSeq = s.crypt.storeSeq + k ∧
    ∃ j ∈ t.folio.queue, j.task = .keyStore ∧ j.cls = 2
  let ranges := fun (r : Nat) (s t : State) => ∀ q, q ≠ r → rangeRec t q = rangeRec s q
  ∀ (via : Via) (range : KeyRange),
    let r := range.val
    let idle := fun (s : State) => ephemeralState s = false ∧ s.crypt.glaze.range = none ∧ (rangeRec s r).closing = false
    let turned := fun (c : Instr) (cmd : Nat → Prop) =>
      Rejects c via .maintainer 0x270B (0x2710 + r) 6 (fun _ s => ephemeralState s = true) ∧
      Rejects c via .maintainer 0x2709 (0x2710 + r) 6 (fun _ s => ephemeralState s = false ∧
        ((∃ q, s.crypt.glaze.range = some q ∧ q ≠ r) ∨ (rangeRec s r).closing = true ∨ cmd (rangeRec s r).state))
    let opening := fun (s t : State) =>
      rangeRec t r = (if (rangeRec s r).next = [] then
          { rangeRec s r with
            current := leBytes 96 (drawn s 768), generation := (rangeRec s r).generation + 1, source := 0, state := 1,
            closing := false }
        else
          { rangeRec s r with
            current := (rangeRec s r).next, next := [], source := bnat (rangeRec s r).nextInstalled, nextInstalled := false,
            state := 1, closing := false }) ∧
      t.crypt.glaze.range = some r ∧ t.crypt.glaze.kind = 1 ∧ t.crypt.glaze.state = 1 ∧ t.crypt.glaze.mask = 0 ∧
      ranges r s t ∧ stored 1 s t
    let chosen := fun (s t : State) (q : Nat) =>
      let x := groupOf t (lineGroup s (placeLine s q))
      (∃ e ∈ x.destages, e.2 = q) ∨ q ∈ x.destageWait ∨ 64 ≤ x.destages.length
    let mine := fun (s : State) (p : Nat) => (easelLine s p).valid = true ∧ rangeOf s (placeLine s p) = r
    Serves (.rangeOpen via range) via .maintainer [.folio, .crypt] (fun _ s => idle s ∧ (rangeRec s r).state = 4)
      (fun _ s t => rangeRec t r = { rangeRec s r with state := 2 } ∧ ranges r s t ∧ stored 1 s t) ∧
    Serves (.rangeOpen via range) via .maintainer [.folio, .crypt, .draws] (fun _ s => idle s ∧ (rangeRec s r).state = 0)
      (fun _ => opening) ∧
    turned (.rangeOpen via range) (fun st => st ≠ 4 ∧ st ≠ 0) ∧
    Serves (.rangeClose via range) via .maintainer [.groups, .easel, .crypt, .stats]
      (fun _ s => idle s ∧ (rangeRec s r).state = 2)
      (fun _ s t => rangeRec t r = { rangeRec s r with closing := true } ∧ ranges r s t ∧
        (∀ q, easelLine t q = { easelLine s q with queued := (easelLine t q).queued }) ∧
        ∀ q, mine s q → selectable (easelLine s q) = true → chosen s t q) ∧
    turned (.rangeClose via range) (· ≠ 2) ∧
    Completes (.rangeCloseEnd range) [.folio, .groups, .easel, .crypt, .stats]
      (fun s => (rangeRec s r).closing = true ∧ ∀ p ∈ rangePlaces s r, (easelLine s p).dirty = false ∧
        (easelLine s p).merge = false ∧ (easelLine s p).flight = false)
      (fun s t => rangeRec t r = { rangeRec s r with closing := false, state := 4 } ∧ ranges r s t ∧ stored 1 s t ∧
        ∀ p, mine s p → (easelLine t p).valid = false) ∧
    Completes (.rangeCloseEnd range) [.groups, .easel, .stats]
      (fun s => (rangeRec s r).closing = true ∧ ∃ p ∈ rangePlaces s r, (easelLine s p).dirty = true ∨
        (easelLine s p).merge = true ∨ (easelLine s p).flight = true)
      (fun s t => ∀ q, easelLine t q = { easelLine s q with queued := (easelLine t q).queued }) ∧
    Completes (.rangeCloseEnd range) [] (fun s => (rangeRec s r).closing = false) (fun _ _ => True) ∧
    Serves (.rangeErase via range) via .maintainer [.mgmt, .folio, .ledger, .reserve, .ports, .groups, .easel, .palette, .crypt,
        .directory, .queues, .barrow, .perf, .stats, .draws, .out]
      (fun _ s => idle s ∧ ((rangeRec s r).state = 2 ∨ (rangeRec s r).state = 4))
      (fun _ s t => opening s t ∧ (∀ p, mine s p → (easelLine t p).valid = false) ∧
        ∀ p, (easelLine s p).valid = true → rangeOf s (placeLine s p) ≠ r → (easelLine t p).data = (easelLine s p).data ∧
          (easelLine t p).valid = true ∧ (easelLine t p).dirty = (easelLine s p).dirty) ∧
    turned (.rangeErase via range) (fun st => st ≠ 2 ∧ st ≠ 4) ∧
    Serves (.discardNextKey via range) via .maintainer [.folio, .crypt] (fun _ s => (rangeRec s r).state ≠ 3)
      (fun _ s t => rangeRec t r = { rangeRec s r with next := [], nextInstalled := false } ∧ ranges r s t ∧ stored 1 s t) ∧
    Rejects (.discardNextKey via range) via .maintainer 0x2709 0x2720 6 (fun _ s => (rangeRec s r).state = 3) ∧
    (∀ key : BitVec 256,
      Serves (.installationKey via key) via .maintainer [.mgmt, .folio, .ledger, .crypt, .stats, .out]
        (fun _ s => ephemeralState s = false ∧ s.crypt.ki = [])
        (fun _ s t => t.crypt.ki = leBytes 32 key.toNat ∧ t.crypt.ranges = s.crypt.ranges ∧ stored 1 s t ∧
          LogsEvent 0x270C [0] s t) ∧
      Rejects (.installationKey via key) via .maintainer 0x270B 0x2720 1 (fun _ s => ephemeralState s = true) ∧
      Rejects (.installationKey via key) via .maintainer 0x2708 0x2720 1
        (fun _ s => ephemeralState s = false ∧ s.crypt.ki ≠ [])) ∧
    (∀ (wrapped : BitVec 320),
      let bytes := leBytes 40 wrapped.toNat
      (∀ key, Serves (.installationKeyRewrap via wrapped) via .maintainer [.mgmt, .folio, .ledger, .crypt, .stats, .out]
        (fun _ s => ephemeralState s = false ∧ s.crypt.ki ≠ [] ∧ keyUnwrap s.crypt.ki bytes = some key)
        (fun _ s t => t.crypt.ki = key ∧ t.crypt.ranges = s.crypt.ranges ∧ stored 1 s t ∧ LogsEvent 0x270C [1] s t)) ∧
      Rejects (.installationKeyRewrap via wrapped) via .maintainer 0x270B 0x2720 2 (fun _ s => ephemeralState s = true) ∧
      Rejects (.installationKeyRewrap via wrapped) via .maintainer 0x270A 0x2720 2
        (fun _ s => ephemeralState s = false ∧ s.crypt.ki = []) ∧
      Rejects (.installationKeyRewrap via wrapped) via .maintainer 0x2706 0x2720 2
        (fun _ s => ephemeralState s = false ∧ s.crypt.ki ≠ [] ∧ keyUnwrap s.crypt.ki bytes = none))

/-- R201. A start takes an Open range to Glazing under its next key, or a drawn one; pause and resume stop and continue the engine; each is
rejected outside its states. R183. A unit of an opening writes its line's tile with a zero payload under the range's key. R203. A
unit's commit programs its codeword, sets its mask bit and counts it. R205. Finishing waits for every line that was dirty, then makes
the new key the only one. R195. A page waits for its flights, and its end counts and frees it. R198. A re-anchoring runs once, and its
end opens every sealed range with its freshness mark set. -/
def Obligations.Glazing : Prop :=
  let ranges := fun (r : Nat) (s t : State) => ∀ q, q ≠ r → rangeRec t q = rangeRec s q
  let calm := fun (s : State) => s.palette.comparators = [] ∧ s.palette.writes.all (fun w => keyKind (paletteKey w.tile) == 5) = true
  let programmed := fun (s t : State) (pl : Place) (code : List Byte) => ∀ ch a, ch < 64 → a < 2 ^ 35 →
    tabGet dPatch t.path.medium (patchKey ch a) =
      if ch / 8 = pl.group ∧ a = pl.addrs.getD (ch % 8) 0 ∧ ch % 8 ∉ erasedColumns s pl.group pl.slot
      then patchOfSymbols code (ch % 8) else tabGet dPatch s.path.medium (patchKey ch a)
  let inside := fun (pl : Place) => pl.group < 8 ∧ ∀ c, c < 8 → pl.addrs.getD c 0 < 2 ^ 35
  (∀ (via : Via),
    let r := fun (s : State) => settingN s 0x2780 1
    let free := fun (s : State) => s.crypt.glaze.range = none ∧ (rangeRec s (r s)).closing = false
    Serves (.glazeStart via) via .maintainer [.mgmt, .folio, .ledger, .groups, .easel, .crypt, .stats, .draws, .out]
      (fun _ s => ephemeralState s = false ∧ free s ∧ (rangeRec s (r s)).state = 2)
      (fun _ s t => t.crypt.glaze.range = some (r s) ∧ t.crypt.glaze.kind = 2 ∧ t.crypt.glaze.mask = 0 ∧
        (t.crypt.glaze.state = 2 ∨ t.crypt.glaze.state = 4) ∧ ranges (r s) s t ∧ t.crypt.storeSeq = s.crypt.storeSeq + 1 ∧
        rangeRec t (r s) = (if (rangeRec s (r s)).next = [] then
          { rangeRec s (r s) with
            state := 3, next := leBytes 96 (drawn s 768), nextInstalled := false,
            generation := (rangeRec s (r s)).generation + 1 }
          else { rangeRec s (r s) with state := 3 }) ∧
        LogsEvent 0x2781 (leBytes 1 (r s) ++ leBytes 4 (rangeRec t (r s)).generation) s t) ∧
    (∀ c ∈ [Instr.glazeStart via, .glazePause via, .glazeResume via],
      Rejects c via .maintainer 0x270B 0x2780 2 (fun _ s => ephemeralState s = true)) ∧
    Rejects (.glazeStart via) via .maintainer 0x2781 0x2780 2 (fun _ s => ephemeralState s = false ∧ ¬ free s) ∧
    Rejects (.glazeStart via) via .maintainer 0x2782 0x2780 2
      (fun _ s => ephemeralState s = false ∧ free s ∧ (rangeRec s (r s)).state ≠ 2) ∧
    Serves (.glazePause via) via .maintainer [.crypt]
      (fun _ s => ephemeralState s = false ∧ (s.crypt.glaze.state = 1 ∨ s.crypt.glaze.state = 2))
      (fun _ s t => t.crypt = { s.crypt with glaze := { s.crypt.glaze with state := 3 } }) ∧
    Rejects (.glazePause via) via .maintainer 0x2783 0x2780 2
      (fun _ s => ephemeralState s = false ∧ s.crypt.glaze.state ≠ 1 ∧ s.crypt.glaze.state ≠ 2) ∧
    Serves (.glazeResume via) via .maintainer [.crypt] (fun _ s => ephemeralState s = false ∧ s.crypt.glaze.state = 3)
      (fun _ s t => t.crypt = { s.crypt with glaze := { s.crypt.glaze with state := s.crypt.glaze.kind } }) ∧
    Rejects (.glazeResume via) via .maintainer 0x2783 0x2780 2
      (fun _ s => ephemeralState s = false ∧ s.crypt.glaze.state ≠ 3)) ∧
  (let units : List UnitName := [.sys, .mgmt, .folio, .ledger, .reserve, .groups, .palette, .crypt, .perf, .path, .stats, .draws, .out]
   ∀ r, Completes .openingComplete units
      (fun s => s.crypt.glaze.range = some r ∧ s.crypt.glaze.kind = 1 ∧ s.crypt.glaze.state = 1 ∧ s.sys.memoryActive = true ∧
        ephemeralState s = false ∧ (openFirst s r).2 = true)
      (fun s t => (rangeRec t r).state = 2 ∧ (rangeRec t r).current = (rangeRec s r).current ∧
        t.crypt.storeSeq = s.crypt.storeSeq + 1 ∧ t.crypt.glaze.range = s.crypt.glaze.queue.head? ∧
        t.crypt.glaze.queue = s.crypt.glaze.queue.tail ∧ stat t 0x2780 0x0A = (stat s 0x2780 0x0A + 1) % 2 ^ 32)) ∧
  (∀ r, Completes .openingComplete [.palette, .perf, .stats] (fun s => s.crypt.glaze.range = some r ∧ s.crypt.glaze.kind = 1 ∧
    s.crypt.glaze.opened = false ∧ windowReady s r = false) (fun _ _ => True)) ∧
  Completes .openingComplete [] (fun s => s.crypt.glaze.range = none ∨ s.crypt.glaze.kind ≠ 1) (fun _ _ => True) ∧
  (∀ (i : Fin 512) (errs : List (List Codeword)) (r : Nat) (pl : Place), inside pl →
    let line := fun (s : State) => rangeFirst s r + 512 * s.crypt.glaze.step + i.val
    Completes (.glazeUnit i errs) [.sys, .mgmt, .folio, .ledger, .reserve, .channels, .ports, .groups, .easel, .palette, .crypt,
        .queues, .perf, .path, .stats, .draws, .out]
      (fun s => s.crypt.glaze.range = some r ∧ s.crypt.glaze.kind = 1 ∧ s.crypt.glaze.state = 1 ∧ s.sys.memoryActive = true ∧
        s.sys.dev = .active ∧ line s ∈ stepLines s r s.crypt.glaze.step ∧ markedLine s r (line s) = false ∧
        groupCool s (lineGroup s (line s)) = true ∧ groupAwake s (lineGroup s (line s)) = true ∧ windowOf s r = none ∧
        linePlace s (line s) = some pl ∧ remapReady s pl = true ∧ placeFenced s pl = false)
      (fun s t => programmed s t pl (lineCode s (lineKey s (line s)) (line s) 0 (drawn s 24) 0) ∧
        (t.crypt.glaze.step = s.crypt.glaze.step → markedLine t r (line s) = true) ∧ t.easel.lines = s.easel.lines) ∧
    Completes (.glazeUnit i errs) [] (fun s => s.crypt.glaze.range = none ∨ s.sys.dev ≠ .active) (fun _ _ => True)) ∧
  (∀ (line : LineAddr) (u : GlazeUnit) (code : List Byte) (pl : Place) (r : Nat), inside pl →
    Completes (.glazeUnitCommit line) [.sys, .folio, .reserve, .groups, .easel, .palette, .crypt, .queues, .perf, .path, .stats]
      (fun s => s.crypt.glaze.range = some r ∧ s.crypt.glaze.units.find? (fun x => x.line == line.toNat) = some u ∧
        u.count = 1 ∧ u.codes = [(u.line, code)] ∧ sealedLine s u.line = false ∧ linePlace s u.line = some pl ∧
        remapReady s pl = true ∧ placeFenced s pl = false)
      (fun s t => programmed s t pl code ∧ (∀ v ∈ t.crypt.glaze.units, v.line ≠ line.toNat) ∧
        stat t 0x2780 7 = (stat s 0x2780 7 + 1) % 2 ^ 64 ∧
        (t.crypt.glaze.step = s.crypt.glaze.step → markedLine t r u.line = true)) ∧
    Completes (.glazeUnitCommit line) []
      (fun s => s.crypt.glaze.units.find? (fun x => x.line == line.toNat) = none) (fun _ _ => True)) ∧
  (∀ r, let waits := fun (s : State) => ∃ e ∈ s.crypt.glaze.finishing, (easelLine s e.1).dirty = true ∧
      rangeOf s (placeLine s e.1) = r
    let before := fun (s : State) => s.crypt.glaze.range = some r ∧ s.crypt.glaze.kind = 2 ∧ s.crypt.glaze.state = 4
    Completes .glazeFinish [.mgmt, .folio, .ledger, .groups, .easel, .crypt, .queues, .perf, .stats, .out]
      (fun s => before s ∧ ¬ waits s ∧ ∀ g ∈ rangeGroups s r, journalRoom s g 1 = true) (fun s t =>
        rangeRec t r =
          { rangeRec s r with
            current := (rangeRec s r).next, next := [], source := bnat (rangeRec s r).nextInstalled, nextInstalled := false,
            fna := false, state := 2 } ∧ ranges r s t ∧ t.crypt.storeSeq = s.crypt.storeSeq + 2 ∧
        stat t 0x2780 0x0A = (stat s 0x2780 0x0A + 1) % 2 ^ 32) ∧
    Completes .glazeFinish [] (fun s => before s ∧ ¬ waits s ∧ ∃ g ∈ rangeGroups s r, journalRoom s g 1 = false) (fun _ _ => True) ∧
    Completes .glazeFinish [.groups, .easel, .stats] (fun s => before s ∧ waits s) (fun s t =>
      ∀ q, easelLine t q = { easelLine s q with queued := (easelLine t q).queued })) ∧
  (∀ (group : Group) (errs : List (List Codeword)) (job : PageJob2) (payload : Line) (r : Nat),
    let g := group.val
    Completes (.pageReencryption group errs) [.sys, .mgmt, .folio, .ledger, .reserve, .channels, .ports, .groups, .easel, .palette,
        .queues, .perf, .path, .stats, .out]
      (fun s => (groupOf s g).pages.find? (fun j => !j.ready) = some job ∧ job.c % 8 = g ∧ job.begun = false ∧
        s.sys.dev = .active ∧ s.sys.memoryActive = true ∧ groupAwake s g = true ∧ (groupOf s g).fenced = false ∧
        (groupOf s g).staleHold = false ∧ journalRoom s g 1 = true ∧ paletteData s (.counter job.c) = some payload ∧
        rangeOfCounter s job.c = some r ∧ pageInFlight s (pageLines s job.c) = true)
      (fun s t => { job with begun := true, old := payload } ∈ (groupOf t g).pages ∧ t.path.medium = s.path.medium) ∧
    Completes (.pageReencryption group errs) [] (fun s => (groupOf s g).pages.find? (fun j => !j.ready) = none)
      (fun _ _ => True) ∧
    Completes (.pageReencryptionEnd group) [.sys, .folio, .reserve, .groups, .easel, .palette, .crypt, .queues, .perf, .path,
        .stats]
      (fun s => (groupOf s g).pages.find? (fun j => j.ready) = some job ∧ journalRoom s g 1 = true)
      (fun s t => (∀ j ∈ (groupOf t g).pages, j.c ≠ job.c) ∧ stat t 0x2700 9 = (stat s 0x2700 9 + 1) % 2 ^ 64) ∧
    Completes (.pageReencryptionEnd group) []
      (fun s => (groupOf s g).pages.find? (fun j => j.ready) = none ∨ journalRoom s g 1 = false)
      (fun _ _ => True)) ∧
  Completes .treeReanchor [.sys, .mgmt, .folio, .ledger, .reserve, .ports, .channels, .groups, .easel, .palette, .crypt, .queues, .perf,
      .path, .stats, .draws, .out]
    (fun s => s.sys.reanchor.isSome = true ∧ s.sys.memoryActive = true ∧ s.crypt.reanchoring = false ∧ calm s)
    (fun s t => t.crypt.reanchoring = true ∧ t.sys.reanchor = s.sys.reanchor) ∧
  Completes .treeReanchor [] (fun s => s.sys.reanchor = none ∨ s.sys.memoryActive = false ∨ s.crypt.reanchoring = true ∨ ¬ calm s)
    (fun _ _ => True) ∧
  (∀ cause, Completes .treeReanchorEnd [.sys, .mgmt, .folio, .ledger, .crypt, .stats, .out]
    (fun s => s.sys.reanchor = some cause ∧ s.crypt.reanchoring = true) (fun s t =>
      t.crypt.reanchoring = false ∧ t.sys.reanchor = none ∧ t.crypt.storeSeq = s.crypt.storeSeq + 1 ∧
      (∀ r, rangeRec t r = if r < 8 ∧ settingB s (0x2710 + r) 3 then { rangeRec s r with held := s.palette.spanWait.any (fun w => w.range == r), fna := true }
        else rangeRec s r) ∧ LogsEvent 0x2706 (leBytes 1 cause) s t)) ∧
  Completes .treeReanchorEnd [] (fun s => s.sys.reanchor = none ∨ s.crypt.reanchoring = false) (fun _ _ => True)

/-- R209, R212. An epoch's end counts E and moves the recent-write filters and the temperature history on. R222. The region a pass takes
is urgent if any is, and among those of its kind has the largest visit age, then the lowest index. R218. A measurement fills the
region's drift entry, and makes the region urgent where it has no window or no valid place. R220. A dirty or held tile is skipped;
a tile waits while its remap table tile or counter is not there or another unit holds its region, and every tile while deep reads are
queued; an aged good tile is programmed again with the current epoch; a pass that is through writes the four swatch tiles, R216, and sets Visit,
clearing ST and with it MV. R224. A move's destination gets its swatch tiles and its Visit. -/
def Obligations.Retouch : Prop :=
  let drift := fun (g p : Nat) (s t : State) => ∀ q, q ≠ p → driftOf t g q = driftOf s g q
  let swatches := fun (g p : Nat) (s t : State) => (regionOf s g p).hr = false → regionBase s g p + 2 ^ 21 < 2 ^ 35 →
    ∀ k c, k < 4 → c < 8 → c ∉ erasedColumns s g (some (p, 1048577 + k)) →
      leBytes 12 (tabGet dPatch t.path.medium (patchKey (8 * g + c) (regionBase s g p + 1048577 + k))).toNat = swatchBytes s k p
  Completes .epochEnd [.groups, .path] (fun _ => True) (fun s t =>
    t.path.epoch = (s.path.epoch + 1) % 2 ^ 32 ∧ t.path.medium = s.path.medium ∧
    ∀ g, groupOf t g = if g < 8 then
        { groupOf s g with
          filterPrev := (groupOf s g).filterCur, filterCur := [], tempPrev := (groupOf s g).tempCur, tempCur := none }
      else groupOf s g) ∧
  (∀ (group : Group),
    let g := group.val
    let runs := fun (s : State) => engineRuns s g = true ∧ journalRoom s g 1 = true
    Completes (.regionPass group) [.groups, .queues, .perf, .stats]
      (fun s => runs s ∧ (groupOf s g).pass = none ∧ (groupOf s g).deepReads = [] ∧ visitedRegions s g ≠ [] ∧
        bitOf (settingN s 0x3000 5) g = false)
      (fun s t => ∃ p ∈ visitedRegions s g, (groupOf t g).pass = some { region := p } ∧
        ∀ q ∈ visitedRegions s g, (urgentRegion s g p = false → urgentRegion s g q = false) ∧
          (urgentRegion s g q = urgentRegion s g p →
            visitAge s g q < visitAge s g p ∨ (visitAge s g q = visitAge s g p ∧ p ≤ q))) ∧
    Completes (.regionPass group) []
      (fun s => engineRuns s g = false ∨ (groupOf s g).pass.isSome = true ∨ (groupOf s g).deepReads ≠ [] ∨
        visitedRegions s g = []) (fun _ _ => True) ∧
    (∀ (errs : List Codeword) (lost : Bool) (w : PassRec),
      Completes (.swatchMeasurementDone group errs lost) [.mgmt, .folio, .ledger, .groups, .stats, .out]
        (fun s => (groupOf s g).pass = some w ∧ w.measured = false)
        (fun s t =>
          let d := driftOf t g w.region
          (groupOf t g).pass = some { w with measured := true } ∧ drift g w.region s t ∧
          d.tm = (groupTemp s g + 40).toNat % 256 ∧ d.bucket = bucketFor (ageOf s d.visit) ∧ d.centre < 64 ∧ d.half < 16 ∧
          d.st = (if lost then false else (driftOf s g w.region).st) ∧
          (d.nw = true ∨ d.mv = false ∨ lost = true → w.region ∈ (groupOf t g).urgent) ∧
          stat t (0x2810 + g) 9 = (stat s (0x2810 + g) 9 + 1) % 2 ^ 64)) ∧
    (∀ (errs : List Codeword) (deep : RegionReads) (w : PassRec) (x : TileId) (pl : Place), deep.entryLost = false →
      let units : List UnitName := [.sys, .mgmt, .folio, .ledger, .channels, .groups, .palette, .queues, .perf, .path, .stats, .out]
      let next := fun (s : State) => (groupOf s g).pass = some w ∧ w.measured = true ∧ runs s ∧ (groupOf s g).deepReads = [] ∧
        regionFenced s g w.region = false ∧ w.offset < passEnd s g w.region ∧ passTile s g w.region w.offset = some (x, pl)
      let before := fun (s : State) => next s ∧ remapReady s pl = true ∧ (tileDirty s x = true ∨ authReady s x = true) ∧
        tileInFlight s x = false ∧ unitInRegion s x = false
      let held := fun (s : State) => ∃ p slot, pl.slot = some (p, slot) ∧ slotHeld s g p slot = true
      let moved := fun (t : State) => ∃ v, (groupOf t g).pass = some v ∧ v.offset = w.offset + 1 ∧ v.region = w.region
      Completes (.retouchRewrite group errs deep) [.groups, .queues, .perf, .stats]
        (fun s => before s ∧ (tileDirty s x = true ∨ held s))
        (fun s t => moved t ∧ stat t (0x2810 + g) 8 = (stat s (0x2810 + g) 8 + 1) % 2 ^ 64) ∧
      (∀ content errors, pl.group < 8 → (∀ c, c < 8 → pl.addrs.getD c 0 < 2 ^ 35) →
        Completes (.retouchRewrite group errs deep) units
          (fun s => before s ∧ tileDirty s x = false ∧ ¬ held s ∧ (engineRead s x pl errs).2.1 = .good content errors ∧
            authFails (engineRead s x pl errs).1 x content = none ∧ placeFenced s pl = false ∧
            (1 ≤ ageOf s (epochOf content) ∨ (driftOf s g w.region).st = true))
          (fun s t => moved t ∧ ∀ ch a, ch < 64 → a < 2 ^ 35 → tabGet dPatch t.path.medium (patchKey ch a) =
            if ch / 8 = pl.group ∧ a = pl.addrs.getD (ch % 8) 0 ∧
              ch % 8 ∉ erasedColumns (engineRead s x pl errs).1 pl.group pl.slot
            then patchOfSymbols (renewed s x content false) (ch % 8) else tabGet dPatch s.path.medium (patchKey ch a)) ∧
        Completes (.retouchRewrite group errs deep) units
          (fun s => before s ∧ tileDirty s x = false ∧ ¬ held s ∧ (engineRead s x pl errs).2.1 = .good content errors ∧
            authFails (engineRead s x pl errs).1 x content = none ∧ placeFenced s pl = false ∧
            ageOf s (epochOf content) = 0 ∧ (driftOf (engineRead s x pl errs).1 g w.region).st = false)
          (fun s t => moved t ∧ t.path.medium = s.path.medium)) ∧
      Completes (.retouchRewrite group errs deep) [.palette, .perf, .stats]
        (fun s => next s ∧ (remapReady s pl = false ∨ (tileDirty s x = false ∧ authReady s x = false) ∨ tileInFlight s x = true ∨
          unitInRegion s x = true)) (fun _ _ => True) ∧
      Completes (.retouchRewrite group errs deep) []
        (fun s => (groupOf s g).pass = none ∨ engineRuns s g = false ∨ (groupOf s g).deepReads ≠ []) (fun _ _ => True) ∧
      Completes (.regionPassClose group) [.sys, .mgmt, .folio, .ledger, .groups, .queues, .perf, .path, .stats, .out]
        (fun s => (groupOf s g).pass = some w ∧ w.measured = true ∧ runs s ∧ regionFenced s g w.region = false ∧
          passEnd s g w.region ≤ w.offset)
        (fun s t => swatches g w.region s t ∧ drift g w.region s t ∧ (groupOf t g).pass = none ∧
          w.region ∉ (groupOf t g).urgent ∧ stat t (0x2810 + g) 6 = (stat s (0x2810 + g) 6 + 1) % 2 ^ 64 ∧
          driftOf t g w.region =
            { driftOf s g w.region with
              visit := s.path.epoch % 256, st := false,
              mv := (driftOf s g w.region).mv && !(driftOf s g w.region).st }) ∧
      Completes (.regionPassClose group) []
        (fun s => (groupOf s g).pass = some w ∧ (w.measured = false ∨ w.offset < passEnd s g w.region)) (fun _ _ => True)) ∧
    (∀ p rest,
      Completes (.moveSwatchWrite group) [.sys, .folio, .groups, .path, .stats]
        (fun s => engineRuns s g = true ∧ regionFenced s g p = false ∧ (groupOf s g).swatchDue = p :: rest)
        (fun s t => swatches g p s t ∧ drift g p s t ∧ (groupOf t g).swatchDue = rest ∧
          driftOf t g p = { driftOf s g p with visit := s.path.epoch % 256 })) ∧
    Completes (.moveSwatchWrite group) []
      (fun s => engineRuns s g = false ∨ (groupOf s g).swatchDue = []) (fun _ _ => True))

/-- R262, R263. With the bus free, the slot goes to an eligible request of the lowest rank; among several, to the oldest of the aged set
at rank 0, else to the first at or after the pointer, which then moves past the winner; with none eligible the slot is idle. The
command's operand says which requests are asserted (log entry 31); what each asks for, its position and its age are judged from the
state. R271: the ranks are those last committed. R248, R235, R239. The read that owns a slot goes out on each of its columns, as an
SRD where the bank last read that index and the codes are shifted, and a program with its data. R269. A withdrawn one sends nothing
and frees its bookings. R267, R268. A locked sequence ends after its slots, and only its owner's frames go in them; one at its 64th
without its last frame is cut, and a gap step is presented again. -/
def Obligations.Arbitration : Prop :=
  let units : List UnitName := [.mgmt, .folio, .ledger, .thermal, .groups, .easel, .palette, .queues, .perf, .path, .stats, .out]
  ∀ (group : Group) (asks : List ArbRequest) (withdraw : Bool),
    let g := group.val
    let quiet := fun (s : State) => groupAwake s g = true ∧ (arbOf s g).lock = none ∧
      (∀ e ∈ (arbOf s g).reserved, e.1 ≠ (arbOf s g).slot + 1) ∧ (arbOf s g).resumes = []
    let ranked := fun (s : State) => modArb s g (fun a => { a with
      ranks := a.shadow.getD a.ranks, shadow := none, slot := a.slot + 1, dq := a.dq.filter (fun k => decide (a.slot < k)),
      reads := a.reads.filter (fun x => decide (a.slot + 1 < x.slot)) })
    let count := fun (s t : State) (k : Nat) => stat t (0x2A10 + g) k = (stat s (0x2A10 + g) k + 1) % 2 ^ 64
    let can := fun (s : State) (r : BusRequest) =>
      (∃ a ∈ asks, busRequest (ranked s) g a = some r) ∧ eligible (ranked s) g ((arbOf s g).slot + 1) r = true
    Completes (.arbitrationPhase group asks withdraw) units
      (fun s => quiet s ∧ (arbOf s g).granted = none ∧ sleepOf s g = 0 ∧
        ∀ k ∈ (arbOf s g).shadow.getD (arbOf s g).ranks, k < 8)
      (fun s t =>
        (arbOf t g).slot = (arbOf s g).slot + 1 ∧ (arbOf t g).ranks = (arbOf s g).shadow.getD (arbOf s g).ranks ∧
        ((∀ r, ¬ can s r) → (arbOf t g).granted = none ∧ count s t 0x0E) ∧
        ∀ q, can s q → ∃ r, (arbOf t g).granted = some r ∧ can s r ∧ count s t (r.position + 1) ∧
          (arbOf t g).pointer =
            (if rankOf (ranked s) g r = 0 then (arbOf s g).pointer else (r.position + 1) % 9) ∧
          (rankOf (ranked s) g r < rankOf (ranked s) g q ∨ (rankOf (ranked s) g r = rankOf (ranked s) g q ∧
            (if rankOf (ranked s) g r = 0 then agedKey r ≤ agedKey q
              else pointerKey (ranked s) g r ≤ pointerKey (ranked s) g q)))) ∧
    (∀ (r : BusRequest),
      let owns := fun (s : State) => quiet s ∧ (arbOf s g).granted = some r ∧ sleepOf s g = 0
      let stands := fun (s : State) => (busRequest s g r.ask).isSome = true ∧ r.cols.Nodup ∧ ∀ e ∈ (arbOf s g).reserved, e.2 ≠ r
      Completes (.arbitrationPhase group [] true) units owns
        (fun s t => t.out = s.out ∧ count s t 0x0D ∧ ∀ e ∈ (arbOf t g).reserved, e.2 ≠ r) ∧
      Completes (.arbitrationPhase group [] false) units (fun s => owns s ∧ busRequest s g r.ask = none)
        (fun s t => t.out = s.out ∧ count s t 0x0D) ∧
      (∀ codes shifted, r.op = .read codes shifted →
        Completes (.arbitrationPhase group [] false) units (fun s => owns s ∧ stands s)
          (fun s t => ∀ c ∈ r.cols, Output.caFrame (8 * g + c)
            (caBits (if shifted && latchedAt s g c (reqAddr r c) then 2 else 1) (addrBody (reqAddr r c) + codes.getD c 0 * 8)) ∈ t.out)) ∧
      (∀ code through, r.op = .program code through →
        Completes (.arbitrationPhase group [] false) units (fun s => owns s ∧ stands s)
          (fun _ t => ∀ c ∈ r.cols, Output.caFrame (8 * g + c) (programFrame (reqAddr r c) (patchOfSymbols code c)) ∈ t.out ∧
            Output.burst (8 * g + c) (patchBytes (patchOfSymbols code c)) ∈ t.out))) ∧
    (∀ (l : LockRec),
      Completes (.arbitrationPhase group asks withdraw) units
        (fun s => groupAwake s g = true ∧ (arbOf s g).granted = none ∧ (arbOf s g).lock = some l ∧ l.run + 1 < l.slots ∧
          (l.run < 63 ∨ l.slots ≤ 64))
        (fun _ t => (arbOf t g).lock = some { l with run := l.run + 1 } ∧
          ∀ r, (arbOf t g).granted = some r → r.position = l.position) ∧
      Completes (.lockOverrun group) [.mgmt, .folio, .ledger, .groups, .queues, .perf, .stats, .out]
        (fun s => (arbOf s g).lock = some l ∧ 63 ≤ l.run ∧ 64 < l.slots)
        (fun s t => (arbOf t g).lock = none ∧
          stat t (0x2A10 + g) 0x11 = (stat s (0x2A10 + g) 0x11 + 1) % 2 ^ 32 ∧
          (l.position = 5 → ∀ j, (groupOf s g).gapJob = some j → j.region = l.region →
            (groupOf t g).gapJob = none ∧ (groupOf t g).steps = j.region :: (groupOf s g).steps)) ∧
      Completes (.lockOverrun group) [] (fun s => (arbOf s g).lock = some l ∧ (l.run < 63 ∨ l.slots ≤ 64))
        (fun _ _ => True)) ∧
    Completes (.lockOverrun group) [] (fun s => (arbOf s g).lock = none) (fun _ _ => True) ∧
    Completes (.arbitrationPhase group asks withdraw) [] (fun s => groupAwake s g = false) (fun _ _ => True)

/-- R72, R44. A gap step reads the tile beside the gap and programs it in the gap with the current epoch; its commit moves the gap, the
start when the gap wraps, and the heat. R75, R76. At a swap interval the region of the highest heat is found and the cold one moves to
the head of the free list, initialised; each tile copied keeps its content; a batch moves the pointer by 64; the last one ends the
move: the mapping changes, and the source goes to the free list, or becomes the destination of the swap's second half. A new interval begins under the threshold as
it stands (R87). R45, R83. A remap
takes the next spare for the corrected patch; a failed spare stays consumed. R87. A translation reports where the line lies. -/
def Obligations.Rotation : Prop :=
  let inside := fun (s : State) (g p : Nat) => (regionOf s g p).hr = false ∧ regionBase s g p + 2 ^ 21 < 2 ^ 35
  let programmed := fun (s e t : State) (g p slot : Nat) (code : List Byte) => ∀ ch a, ch < 64 → a < 2 ^ 35 →
    tabGet dPatch t.path.medium (patchKey ch a) =
      if ch / 8 = g ∧ a = regionBase s g p + slot ∧ ch % 8 ∉ erasedColumns e g (some (p, slot))
      then patchOfSymbols code (ch % 8) else tabGet dPatch s.path.medium (patchKey ch a)
  (∀ (group : Group) (errs : List Codeword),
    let g := group.val
    let moving := fun (s : State) (p : Nat) => match (groupOf s g).move with
      | some m => m.src == p || m.dst == p
      | none => false
    let idle := fun (s : State) (x : TileId) => tileInFlight s x = false ∧ unitInRegion s x = false
    (∀ p, let src := fun (s : State) => if (regionOf s g p).gap = 0 then 1048576 else (regionOf s g p).gap - 1
      let before := fun (s : State) => (groupOf s g).steps.find? (fun q => !moving s q && !regionFenced s g q) = some p ∧
        remapReady s (placeSlot s g p (src s)) = true ∧ remapReady s (placeSlot s g p (regionOf s g p).gap) = true ∧
        (groupOf s g).gapJob = none ∧ engineRuns s g = true ∧ slotHeld s g p (src s) = false
      let after := fun (s t : State) (code : List Byte) => (groupOf t g).gapJob =
        some { region := p, src := src s, dst := (regionOf s g p).gap, code := code } ∧
        (groupOf t g).steps = (groupOf s g).steps.erase p ∧ ∀ q, regionOf t g q = regionOf s g q
      Completes (.gapStep group errs) [.groups] (fun s => before s ∧ tileAt s g p (src s) = none)
        (fun s t => after s t []) ∧
      (∀ x content errors, Completes (.gapStep group errs) [.mgmt, .folio, .ledger, .channels, .groups, .perf, .stats, .out]
        (fun s => before s ∧ tileAt s g p (src s) = some x ∧ idle s x ∧
          (engineRead s x (placeSlot s g p (src s)) errs).2.1 = .good content errors)
        (fun s t => after s t (renewed s x content false)))) ∧
    Completes (.gapStep group errs) []
      (fun s => (groupOf s g).gapJob.isSome = true ∨ engineRuns s g = false ∨ (groupOf s g).steps = []) (fun _ _ => True) ∧
    (∀ j : GapJob, Completes (.gapStepCommit group ⟨0, []⟩) [.sys, .mgmt, .folio, .ledger, .reserve, .groups, .palette, .crypt, .queues,
        .perf, .path, .stats, .out]
      (fun s => (groupOf s g).gapJob = some j ∧ j.code ≠ [] ∧ journalRoom s g 1 = true ∧ inside s g j.region ∧
        j.dst ≤ 1048576 ∧ placeFenced s (placeSlot s g j.region j.dst) = false)
      (fun s t => programmed s s t g j.region j.dst j.code ∧ (groupOf t g).gapJob = none ∧
        stat t (0x2210 + g) 7 = (stat s (0x2210 + g) 7 + 1) % 2 ^ 64 ∧
        ∀ q, regionOf t g q = if q = j.region then
          { regionOf s g q with
            start := (if (regionOf s g q).gap = 0 then ((regionOf s g q).start + 1) % 1048576 else (regionOf s g q).start),
            gap := j.src,
            heat := (if j.src % 16 = 0 ∧ (regionOf s g q).heat < 255 then (regionOf s g q).heat + 1 else (regionOf s g q).heat) }
          else regionOf s g q)) ∧
    (∀ failed : ProgramFailure, Completes (.gapStepCommit group failed) []
      (fun s => (groupOf s g).gapJob = none ∨ ∃ j, (groupOf s g).gapJob = some j ∧
        remapReady s (placeSlot s g j.region j.dst) = true ∧
        journalRoom s g (1 + remapRecords failed.columns failed.spares) = false) (fun _ _ => True)) ∧
    (∀ h d rest,
      let cold := fun (s : State) => let n := logicalCount s g
        if (groupOf s g).cold % n = h then (h + 1) % n else (groupOf s g).cold % n
      let entry := fun (s : State) (l : Nat) => tabGet dEntry (groupOf s g).table l
      let heat := fun (s : State) (l : Nat) => (regionOf s g (entry s l).phys).heat
      Completes (.swapInterval group) [.sys, .groups, .queues, .perf, .stats, .draws]
        (fun s => engineRuns s g = true ∧ groupCool s g = true ∧ (groupOf s g).move = none ∧ journalRoom s g 1 = true ∧
          (groupOf s g).retiring = [] ∧ hottest s g = some h ∧ (groupOf s g).free = d :: rest ∧
          (entry s (cold s)).mapped = true)
        (fun s t =>
          let c := cold s
          (∀ l, l < logicalCount s g → (entry s l).mapped = true → heat s l ≤ heat s h) ∧
          (groupOf t g).move = some
            { kind := (if swapThreshold s g ≤ heat s h then 1 else 3), logical := c, src := (entry s c).phys, dst := d,
              partner := h } ∧
          (groupOf t g).free = rest ∧ (entry t c).moving = true ∧ (groupOf t g).hot = (h + 1) % logicalCount s g ∧
          (groupOf t g).cold = (c + 1) % logicalCount s g ∧
          regionOf t g d =
            { start := 0, gap := 1048576, count := 0, key := drawn s 16, owner := c, heat := 0, rb := (regionOf t g d).rb,
              md := (regionOf s g (entry s c).phys).md, sw := true, rt := false, fr := false, hr := (regionOf s g d).hr })) ∧
    Completes (.swapInterval group) [.sys]
      (fun s => engineRuns s g = false ∨ groupCool s g = false ∨ (groupOf s g).move.isSome = true)
      (fun s t => swapThreshold t g = settingN s 0x2200 4) ∧
    (∀ (m : MoveRec) (x : TileId) (content : List Byte) (errors : List Nat),
      let src := fun (s : State) => slotIn s g m.src (m.pointer + m.copied)
      let dst := fun (s : State) => slotIn s g m.dst (m.pointer + m.copied)
      let before := fun (s : State) => (groupOf s g).move = some m ∧ m.copied < 64 ∧ engineRuns s g = true ∧
        journalRoom s g 1 = true ∧ regionFenced s g m.src = false ∧ regionFenced s g m.dst = false ∧
        remapReady s (placeSlot s g m.src (src s)) = true ∧ remapReady s (placeSlot s g m.dst (dst s)) = true ∧ ∀ i, i < 64 → ∀ y, tileAt s g m.src (slotIn s g m.src (m.pointer + i)) = some y → idle s y
      let after := fun (t : State) => (groupOf t g).move = some { m with copied := m.copied + 1 }
      Completes (.moveTileCopy group errs ⟨0, []⟩) [.groups] (fun s => before s ∧ tileAt s g m.src (src s) = none)
        (fun _ t => after t) ∧
      Completes (.moveTileCopy group errs ⟨0, []⟩) [.sys, .mgmt, .folio, .ledger, .reserve, .channels, .groups, .palette, .crypt,
          .queues, .perf, .path, .stats, .draws, .out]
        (fun s => before s ∧ tileAt s g m.src (src s) = some x ∧ inside s g m.dst ∧
          (engineRead s x (placeSlot s g m.src (src s)) errs).2.1 = .good content errors)
        (fun s t => after t ∧ programmed s (engineRead s x (placeSlot s g m.src (src s)) errs).1 t g m.dst (dst s)
          (renewed s x content false)) ∧
      (∀ failed : ProgramFailure, Completes (.moveTileCopy group errs failed) []
        (fun s => (groupOf s g).move = some m ∧ (64 ≤ m.copied ∨ engineRuns s g = false)) (fun _ _ => True)) ∧
      Completes (.moveBatchComplete group) [.groups, .queues, .perf, .stats]
        (fun s => (groupOf s g).move = some m ∧ m.copied = 64 ∧ journalRoom s g 3 = true ∧ m.pointer + 64 < 1048576)
        (fun _ t => (groupOf t g).move = some { m with pointer := m.pointer + 64, copied := 0 }) ∧
      Completes (.moveBatchComplete group) [.mgmt, .folio, .ledger, .groups, .queues, .perf, .stats, .draws, .out]
        (fun s => (groupOf s g).move = some m ∧ m.copied = 64 ∧ journalRoom s g 3 = true ∧ 1048576 ≤ m.pointer + 64 ∧
          m.src ≠ m.dst ∧ m.kind ≠ 4 ∧ (groupOf s g).retiring = [])
        (fun s t => (groupOf t g).swatchDue = (groupOf s g).swatchDue ++ [m.dst] ∧ (regionOf t g m.dst).sw = false ∧
          (regionOf t g m.dst).count = 0 ∧ stat t (0x2210 + g) 9 = (stat s (0x2210 + g) 9 + 1) % 2 ^ 32 ∧
          (m.kind ≠ 1 → tabGet dEntry (groupOf t g).table m.logical =
              { tabGet dEntry (groupOf s g).table m.logical with moving := false, phys := m.dst } ∧
            (groupOf t g).move = none ∧ (groupOf t g).free = (groupOf s g).free ++ [m.src] ∧
            (regionOf t g m.src).fr = true ∧ (regionOf t g m.src).owner = 0) ∧
          (m.kind = 1 → m.partner ≠ m.logical → ∃ v, (groupOf t g).move = some v ∧ v.kind = 2 ∧ v.logical = m.partner ∧
            v.dst = m.src ∧ v.src = (tabGet dEntry (groupOf s g).table m.partner).phys ∧ v.pointer = 0 ∧
            (groupOf t g).free = (groupOf s g).free)) ∧
      Completes (.moveBatchComplete group) [] (fun s => (groupOf s g).move = none ∨
        ((groupOf s g).move = some m ∧ m.copied ≠ 64)) (fun _ _ => True)) ∧
    (∀ (j : RemapJob) (rest : List RemapJob) (x : TileId) (content : List Byte) (errors : List Nat),
      Completes (.patchRemap group errs) [.mgmt, .folio, .ledger, .channels, .groups, .perf, .stats, .out]
        (fun s => (groupOf s g).nominations = j :: rest ∧ (groupOf s g).remapJob = none ∧ engineRuns s g = true ∧
          slotHeld s g j.region j.slot = false ∧ regionFenced s g j.region = false ∧ columnLost s g j.column = false ∧
          remapReady s (placeSlot s g j.region j.slot) = true ∧ unitInRegion s x = false ∧ sparesGone s g j.column = false ∧
          remapFull s g j.region j.slot j.column = false ∧ tileAt s g j.region j.slot = some x ∧ tileInFlight s x = false ∧
          (engineRead s x (placeSlot s g j.region j.slot) errs).2.1 = .good content errors)
        (fun s t => (groupOf t g).remapJob = some
            { j with spare := some (sparesOf s g j.column), patch := patchOfSymbols (rsEncode content) j.column, code := [] } ∧
          sparesOf t g j.column = sparesOf s g j.column + 1) ∧
      Completes (.patchRemap group errs) [.groups]
        (fun s => (groupOf s g).nominations = j :: rest ∧ (groupOf s g).remapJob = none ∧ engineRuns s g = true ∧
          slotHeld s g j.region j.slot = false ∧ regionFenced s g j.region = false ∧ columnLost s g j.column = true)
        (fun s t => groupOf t g = { groupOf s g with nominations := rest }) ∧
      Completes (.patchRemapCommit group true) [.groups, .queues, .perf, .stats]
        (fun s => (groupOf s g).remapJob = some j ∧ remapReady s (placeSlot s g j.region j.slot) = true ∧ journalRoom s g 1 = true)
        (fun s t => (groupOf t g).remapJob = none ∧ (groupOf t g).spares = (groupOf s g).spares ∧
          (groupOf t g).nominations = { j with spare := none, patch := 0, code := [] } :: (groupOf s g).nominations) ∧
      Completes (.patchRemapCommit group false) [.sys, .mgmt, .folio, .ledger, .reserve, .channels, .groups, .palette, .queues,
          .perf, .path, .stats, .out]
        (fun s => (groupOf s g).remapJob = some j ∧ remapReady s (placeSlot s g j.region j.slot) = true ∧ journalRoom s g 1 = true)
        (fun s t => (groupOf t g).remapJob = none ∧ (regionOf t g j.region).hr = true ∧
          (groupOf t g).spares = (groupOf s g).spares ∧ (∀ spare, j.spare = some spare →
            tabGet dPatch t.path.medium (patchKey (8 * g + j.column) (spareBase s g + spare)) = j.patch))) ∧
    Completes (.patchRemap group errs) [] (fun s => (groupOf s g).nominations = []) (fun _ _ => True) ∧
    (∀ failed, Completes (.patchRemapCommit group failed) [] (fun s => (groupOf s g).remapJob = none) (fun _ _ => True))) ∧
  (∀ (via : Via) (dpa : BitVec 64) (pl : Place) (p slot : Nat),
    dpa.toNat % 64 = 0 → dpa.toNat < 2 ^ 44 →
    Serves (.translateDpa via dpa) via .operator [.path, .settings]
      (fun _ s => placeOf s (.host (dpa.toNat / 64)) = some pl ∧ pl.slot = some (p, slot))
      (fun _ s t => SettingsKept 0x2231 1 s t ∧ setting t 0x2231 1 = dpa.toNat ∧
        ∃ mask, t.path = { s.path with translated := [pl.group, p, slot, regionBase s pl.group p + slot, mask] } ∧
          ∀ c, c < 8 → (bitOf mask c = true ↔ pl.addrs.getD c 0 ≠ regionBase s pl.group p + slot)) ∧
    Rejects (.translateDpa via dpa) via .operator 0x2201 0x2231 1
      (fun _ s => placeOf s (.host (dpa.toNat / 64)) = none))

/-- R84. A journal tile takes at most seven waiting words, none past a poisoned one, with the next sequence number, at the next slot of
the journal region. R333. A poisoned word makes a checkpoint due instead. R466. A StaleColumn record goes first and alone. R330. A
tile whose program is complete stands in the medium and the mark passes its words. R367, R78. A checkpoint takes the free list's
head as journal region and snapshots the header; its header program completes the generation. R468, R469. A rebuild takes the next
region with RB, item by item; the last one clears RB. -/
def Obligations.JournalAndCheckpoints : Prop :=
  ∀ (group : Group),
    let g := group.val
    let x := fun (s : State) => groupOf s g
    let waiting := fun (s : State) => waitingWords s g
    (∀ (j w : Nat) (q : QWord) (qs : List QWord),
      let tile := fun (s : State) (words : List Nat) (n : Nat) (stale : Bool) => JournalOut.mk (x s).journalSeq
        (regionBase s g j + (x s).journalSlot)
        (goodCode s (.journal g (x s).journalSeq) (journalPayload (x s).journalSeq words) zeroMac 0) n stale false 0
      let issued := fun (s t : State) (words : List Nat) (n : Nat) (stale : Bool) =>
        (x t).journalOut = (x s).journalOut ++ [tile s words n stale] ∧ (x t).journalSeq = (x s).journalSeq + 1 ∧
        (x t).journalSlot = (x s).journalSlot + 1
      Completes (.journalTileWrite group) [.groups, .queues, .stats]
        (fun s => groupAwake s g = true ∧ (x s).journals.head? = some j ∧ (x s).staleRecord = none ∧ waiting s = q :: qs ∧ isPoisoned q = false)
        (fun s t => ∃ ws, ws <+: waiting s ∧ ws ≠ [] ∧ ws.length ≤ 7 ∧ (∀ v ∈ ws, isPoisoned v = false) ∧
          (ws.length = 7 ∨ ws = waiting s ∨ (∃ v ∈ ws.getLast?, endsRegion v = true) ∨
            ∃ v ∈ (waiting s)[ws.length]?, isPoisoned v = true) ∧
          issued s t (ws.map (·.data)) ws.length false ∧ (queueOf t g).taken = (queueOf s g).taken + ws.length) ∧
      Completes (.journalTileWrite group) [.groups]
        (fun s => groupAwake s g = true ∧ (x s).journals.head? = some j ∧ (x s).staleRecord = some w)
        (fun s t => issued s t [(staleUnits w).headD 0] 0 true ∧ (x t).staleRecord = none) ∧
      Completes (.journalTileWrite group) [.mgmt, .folio, .ledger, .groups, .stats, .out]
        (fun s => groupAwake s g = true ∧ (x s).staleRecord = none ∧ waiting s = q :: qs ∧ isPoisoned q = true ∧ (x s).checkpointDue = false)
        (fun s t => (x t).checkpointDue = true ∧ (x t).journalOut = (x s).journalOut ∧
          LogsEvent 0x2D01 (leBytes 1 g ++ satBytes 4 (((queueOf s g).mark + (queueOf s g).taken) % queueCapacity g)) s t)) ∧
    Completes (.journalTileWrite group) [] (fun s => groupAwake s g = false ∨ ((x s).staleRecord = none ∧ waiting s = [])) (fun _ _ => True) ∧
    (∀ (tile : JournalOut) (rest : List JournalOut), tile.addr < 2 ^ 35 →
      Completes (.journalTileComplete group) [.sys, .folio, .groups, .queues, .path, .stats]
        (fun s => (x s).journalOut = tile :: rest ∧ s.sys.dev ≠ .varnish)
        (fun s t => (x t).journalOut = rest ∧ (x t).staleHold = ((x s).staleHold && !tile.stale) ∧
          (queueOf t g).mark = ((queueOf s g).mark + (tile.words + tile.drop)) % queueCapacity g ∧
          (queueOf t g).words = (queueOf s g).words.drop (tile.words + tile.drop) ∧
          ∀ ch a, ch < 64 → a < 2 ^ 35 → tabGet dPatch t.path.medium (patchKey ch a) =
            if ch / 8 = g ∧ a = tile.addr ∧ ch % 8 ∉ erasedColumns s g none then patchOfSymbols tile.code (ch % 8)
            else tabGet dPatch s.path.medium (patchKey ch a))) ∧
    Completes (.journalTileComplete group) [] (fun s => (x s).journalOut = [] ∧ s.sys.dev ≠ .varnish) (fun _ _ => True) ∧
    Completes (.checkpointWindow group) [.groups] (fun _ => True) (fun s t =>
      GroupsKept g s t ∧ x t = { x s with checkpointDue := true }) ∧
    (let freed := fun (s : State) => (x s).free ++ (if 4 ≤ (x s).journals.length then (x s).journals.drop 3 else [])
     Completes (.checkpoint group) [.sys, .folio, .groups, .queues, .perf, .path, .stats]
      (fun s => (x s).checkpointDue = true ∧ (x s).checkpoint = none ∧ freed s ≠ [] ∧ journalRoom s g 2 = true ∧
        groupAwake s g = true ∧
        (x s).staleRecord = none ∧ ∀ w ∈ waiting s, isPoisoned w = false)
      (fun s t => (∃ c, (x t).checkpoint = some c ∧ c.gen = (x s).generation + 1 ∧ c.closing = false ∧ c.headerOut = false) ∧
        (x t).checkpointDue = false ∧ (x t).journalSlot = 0 ∧ (x t).journals.head? = (freed s).head? ∧
        (x t).free = (freed s).tail)) ∧
    Completes (.checkpoint group) [] (fun s => (x s).checkpointDue = false ∨ (x s).checkpoint.isSome = true ∨ groupAwake s g = false)
      (fun _ _ => True) ∧
    (∀ c : CheckRec,
      Completes (.checkpointHeaderWrite group) [.groups] (fun s => (x s).checkpoint = some c)
        (fun s t => GroupsKept g s t ∧ x t = { x s with checkpoint := some { c with headerOut := true } }) ∧
      Completes (.checkpointComplete group) [.sys, .folio, .groups, .path, .stats]
        (fun s => (x s).checkpoint = some c ∧ c.headerOut = true ∧ s.sys.dev ≠ .varnish ∧ (x s).fenced = false)
        (fun s t => (x t).generation = c.gen ∧ (x t).checkpoint = none ∧ (x t).closed = ((x s).closed || c.closing) ∧
          stat t 0x2F12 (g + 1) = (stat s 0x2F12 (g + 1) + 1) % 2 ^ 32 ∧
          ∀ k, k < 8 → k ∉ erasedColumns s g none →
            tabGet dPatch t.path.medium (patchKey (8 * g + k) (anchorBase c.gen)) =
              patchOfSymbols (goodCode s (.anchor g (anchorBase c.gen)) c.header zeroMac (c.gen % 2 ^ 24)) k) ∧
      Completes (.checkpointComplete group) [] (fun s => s.sys.dev ≠ .varnish ∧
        ((x s).checkpoint = none ∨ ((x s).checkpoint = some c ∧ c.headerOut = false))) (fun _ _ => True)) ∧
    (∀ c p rest,
      Completes (.rebuildRegion group) [.groups]
        (fun s => engineRuns s g = true ∧ (x s).rebuild = none ∧ (x s).deepReads = [] ∧ settingB s 0x3300 0x0A = false ∧
          (∀ q ∈ visitedRegions s g, urgentRegion s g q = false) ∧ serviceableStale s g = some c ∧
          rebuildRegions s g = p :: rest)
        (fun s t => (x t).rebuild = some (p, 0) ∧ (∀ q, regionOf t g q = regionOf s g q) ∧
          (x t).rebuildAt = some ((x s).rebuildAt.getD s.sys.time))) ∧
    Completes (.rebuildRegion group) []
      (fun s => engineRuns s g = false ∨ (x s).rebuild.isSome = true ∨ settingB s 0x3300 0x0A = true) (fun _ _ => True) ∧
    (∀ (errs deep : List Codeword) (failed : Option (Fin 8)) (p slot c : Nat),
      let before := fun (s : State) => (x s).rebuild = some (p, slot) ∧ serviceableStale s g = some c ∧
        engineRuns s g = true ∧ slotHeld s g p slot = false ∧ regionFenced s g p = false ∧ remapReady s (placeSlot s g p slot) = true
      (∀ (k : TileId) (content : List Byte) (errors : List Nat), slot < 1048577 →
        let pl := fun (s : State) => placeSlot s g p slot
        Completes (.rebuildSequence group errs deep none)
          [.sys, .mgmt, .folio, .ledger, .channels, .groups, .perf, .path, .stats, .out]
          (fun s => before s ∧ tileAt s g p slot = some k ∧ tileInFlight s k = false ∧ unitInRegion s k = false ∧
            journalRoom s g 1 = true ∧ (tileDirty s k = true ∨ authReady s k = true) ∧ (engineRead s k (pl s) errs).2.1 = .good content errors ∧ (pl s).addrs.getD c 0 < 2 ^ 35 ∧ c < 8)
          (fun s t => (x t).rebuild = some (p, slot + 1) ∧ ∀ ch a, ch < 64 → a < 2 ^ 35 →
            tabGet dPatch t.path.medium (patchKey ch a) = if ch = 8 * g + c ∧ a = (pl s).addrs.getD c 0
              then patchOfSymbols (rsEncode content) c else tabGet dPatch s.path.medium (patchKey ch a))) ∧
      Completes (.rebuildSequence group errs deep failed) [.sys, .mgmt, .folio, .ledger, .groups, .path, .stats, .out]
        (fun s => before s ∧ journalRoom s g (1 + failed.elim 0 (·.val)) = true ∧ slot = 1048580 ∧ tileAt s g p slot = none ∧ (regionOf s g p).hr = false)
        (fun _ t => (x t).rebuild = none ∧ (regionOf t g p).rb = false)) ∧
    (∀ errs deep failed, Completes (.rebuildSequence group errs deep failed) []
      (fun s => (x s).rebuild = none ∨ serviceableStale s g = none ∨ engineRuns s g = false) (fun _ _ => True))

/-- R276, R278. A training runs at what the host and the limits both allow, and counts itself where it stays below the limits; a lane
failure narrows the link and keeps the rest. R279. L0p and L1 are entered as allowed, and left to L0. R280, R290. A link down and a CXL
Reset uncommit the decoders, stop the background command, discard the port's reads and clear its presence; a function level reset keeps
decoders and link. R282. A decoder commits when all it covers is reachable, else it is an error; a locked one stays. R288. The
shared fence is released by command. R310. Bus Master Enable cleared. What a training binds and Bus Master Enable after it are the
model's choice (log entries 10 and 15). -/
def Obligations.PortLinks : Prop :=
  ∀ (port : Port),
    let p := port.val
    let x := fun (s : State) => portOf s p
    let up := fun (s : State) => linkUp s p = true
    let others := fun (s t : State) => ∀ q, q ≠ p → (portOf t q).link = (portOf s q).link ∧
      (portOf t q).decoders = (portOf s q).decoders ∧ (portOf t q).bi = (portOf s q).bi ∧
      (portOf t q).fenced = (portOf s q).fenced
    let events : List UnitName := [.mgmt, .folio, .ledger, .ports, .stats, .out]
    let wide : List UnitName := [.mgmt, .folio, .ledger, .reserve, .ports, .groups, .easel, .palette, .directory, .queues, .barrow,
      .perf, .stats, .out]
    let cleared := fun (s t : State) => (x t).decoders = [] ∧ (x t).bi = false ∧ (x t).background = (0, 0, 0) ∧
      (x t).scan = (0, 0) ∧ sessionOf t p = {} ∧ stat t 0x2B40 7 = (stat s 0x2B40 7 + 1) % 2 ^ 32 ∧ others s t ∧
      (s.directory.rounds = [] → (∀ e, bitOf (dirEntry t e).presence p = false) ∧
        ∀ w ∈ t.easel.waits, ownedBy p w.who = false)
    let down := fun (s t : State) => cleared s t ∧ (x t).rate = 0xFF ∧ (x t).width = 0 ∧ (x t).fenced = false ∧
      (x t).busMaster = false ∧ stat t (0x2B20 + p) 1 = (stat s (0x2B20 + p) 1 + 1) % 2 ^ 32
    let reduced := fun (s : State) (rate width : Nat) =>
      width < settingN s (0x2B10 + p) 3 ∨ rate < settingN s (0x2B10 + p) 2
    let counted := fun (s t : State) (rate width : Nat) =>
      (reduced s rate width → stat t (0x2B20 + p) 2 = (stat s (0x2B20 + p) 2 + 1) % 2 ^ 32) ∧
      (¬ reduced s rate width → t.stats = s.stats)
    (∀ (rate : Fin 5) (width : Fin 4),
      let r := fun (s : State) => min rate.val (settingN s (0x2B10 + p) 2)
      let w := fun (s : State) => min (2 ^ width.val) (settingN s (0x2B10 + p) 3)
      let may := fun (s : State) => s.sys.corePll = true ∧ (x s).link ≠ 5 ∧ settingB s (0x2B10 + p) 1 = true
      Completes (.linkTraining port rate width) events may (fun s t => (x t).link = 2 ∧ (x t).rate = r s ∧
        (x t).width = w s ∧ (x t).decoders = (x s).decoders ∧ others s t ∧ counted s t (r s) (w s) ∧
        ((x s).link = 0 → sessionOf t p = { client := some (.mailbox port) } ∧ (x t).busMaster = true)) ∧
      Completes (.linkTraining port rate width) [] (fun s => ¬ may s) (fun _ _ => True)) ∧
    (∀ (width : Fin 4),
      Completes (.laneFailure port width) events (fun s => up s ∧ 2 ^ width.val < (x s).width) (fun s t =>
        (x t).link = 2 ∧ (x t).width = 2 ^ width.val ∧ (x t).rate = (x s).rate ∧ (x t).decoders = (x s).decoders ∧
        others s t ∧ counted s t (x s).rate (2 ^ width.val)) ∧
      Completes (.laneFailure port width) [] (fun s => ¬ up s ∨ (x s).width ≤ 2 ^ width.val) (fun _ _ => True)) ∧
    (∀ (state : Fin 5),
      let wake := fun (s : State) => state.val = 2 ∧ ((x s).link = 3 ∨ (x s).link = 4)
      let sleep := fun (s : State) => (x s).link = 2 ∧ ((state.val = 3 ∧ bitOf (settingN s (0x2B10 + p) 4) 1 = true) ∨
        (state.val = 4 ∧ bitOf (settingN s (0x2B10 + p) 4) 0 = true))
      Completes (.linkPowerState port state) [.ports, .stats] wake (fun s t => PortsKept p s t ∧
        x t = { x s with link := 2 } ∧ stat t (0x2B20 + p) 0x0E = (stat s (0x2B20 + p) 0x0E + 1) % 2 ^ 64) ∧
      Completes (.linkPowerState port state) [.ports] sleep
        (fun s t => PortsKept p s t ∧ x t = { x s with link := state.val }) ∧
      Completes (.linkPowerState port state) [] (fun s => ¬ wake s ∧ ¬ sleep s) (fun _ _ => True)) ∧
    (∀ (cause : Fin 4),
      Completes (.portReset port cause) wide (fun s => (x s).link ≠ 0 ∧ (x s).link ≠ 5) (fun s t =>
        down s t ∧ (x t).link = 0 ∧ (cause.val = 2 → tabGet dNat t.folio.tallyPending 189 =
          min (tabGet dNat s.folio.tallyPending 189 + 1) 65535)) ∧
      Completes (.portReset port cause) [.ports] (fun s => (x s).link = 0 ∨ (x s).link = 5)
        (fun s t => PortsKept p s t ∧ x t = x s)) ∧
    Completes (.cxlReset port) wide up (fun s t => cleared s t ∧ (x t).link = (x s).link ∧ (x t).width = (x s).width) ∧
    Completes (.cxlReset port) [] (fun s => ¬ up s) (fun _ _ => True) ∧
    Completes (.functionLevelReset port) [.ports, .easel] up (fun s t => PortsKept p s t ∧
      x t = { x s with background := (0, 0, 0), scan := (0, 0), scanFound := [] } ∧
      t.easel.waits = s.easel.waits.filter (fun w => w.who != .scan p) ∧ t.easel.lines = s.easel.lines) ∧
    Completes (.functionLevelReset port) [] (fun s => ¬ up s) (fun _ _ => True) ∧
    (∀ (via : Via),
      Serves (.portEnableWrite via port 0) via .maintainer (.settings :: wide) (fun _ s => (x s).link ≠ 0 ∧ (x s).link ≠ 5)
        (fun _ s t => down s t ∧ (x t).link = 5 ∧ settingN t (0x2B10 + p) 1 = 0 ∧ SettingsKept (0x2B10 + p) 1 s t) ∧
      Serves (.portEnableWrite via port 0) via .maintainer [.settings, .ports] (fun _ s => (x s).link = 0 ∨ (x s).link = 5)
        (fun _ s t => PortsKept p s t ∧ x t = { x s with link := 5 } ∧ settingN t (0x2B10 + p) 1 = 0) ∧
      Serves (.portEnableWrite via port 1) via .maintainer [.settings, .ports] (fun _ _ => True)
        (fun _ s t => PortsKept p s t ∧ x t = { x s with link := if (x s).link = 5 then 0 else (x s).link } ∧
          settingN t (0x2B10 + p) 1 = 1 ∧ SettingsKept (0x2B10 + p) 1 s t) ∧
      Serves (.sharedFenceRelease via port) via .maintainer [.ports] (fun _ s => (x s).fenced = true)
        (fun _ s t => PortsKept p s t ∧ x t = { x s with fenced := false }) ∧
      Rejects (.sharedFenceRelease via port) via .maintainer 0x2B06 (0x2B10 + p) 0x0D (fun _ s => (x s).fenced = false)) ∧
    (∀ (n : Fin 8) (base : BitVec 24) (ways : Fin 5) (gran : Fin 7) (size dpa : BitVec 17) (shared lock : Bool),
      let d : Decoder :=
        { shared := shared, base := base.toNat, ways := 2 ^ ways.val, gran := 256 * 2 ^ gran.val, size := size.toNat,
          dpa := dpa.toNat }
      let c := Instr.hdmDecoderCommit port n base ways gran size dpa shared lock
      let at_ := fun (t : State) (k : Nat) => tabGet dDecoder (x t).decoders k
      let free := fun (s : State) => up s ∧ ((at_ s n).committed = false ∨ (at_ s n).locked = false)
      let rest := fun (s t : State) => (∀ k, k ≠ n.val → at_ t k = at_ s k) ∧ others s t
      Completes c [.ports] (fun s => free s ∧ decoderCause s p d = 0)
        (fun s t => at_ t n = { d with committed := true, locked := lock } ∧ rest s t) ∧
      Completes c events (fun s => free s ∧ decoderCause s p d ≠ 0)
        (fun s t => at_ t n = { d with error := true } ∧ rest s t ∧
          stat t (0x2B20 + p) 0x0C = (stat s (0x2B20 + p) 0x0C + 1) % 2 ^ 32 ∧
          LogsEvent 0x2B07 (leBytes 1 p ++ leBytes 1 n.val ++ leBytes 1 (decoderCause s p d)) s t) ∧
      Completes c [] (fun s => ¬ free s) (fun _ _ => True)) ∧
    Completes (.biEnableSet port) [.ports] up (fun s t => PortsKept p s t ∧ x t = { x s with bi := true }) ∧
    Completes (.biEnableSet port) [] (fun s => ¬ up s) (fun _ _ => True) ∧
    Completes (.busMasterEnableCleared port) [.mgmt, .folio, .ledger, .ports, .barrow, .stats, .out] (fun _ => True)
      (fun s t => (x t).busMaster = false ∧ (x t).link = (x s).link ∧ (x t).decoders = (x s).decoders ∧ others s t)

/-- R292, R303. While the link is up each command is answered with its return code and payload and counted once; an opcode outside the table
returns Unsupported. R293. After Set Timestamp the device's timestamp is the value written. R275: a message limit outside 256 B
to 2 KiB is refused. R393. An over-temperature alert within its range and order writes [3010.04]; any other is refused and changes
nothing. R295, R330. Get Event Records returns the log's uncleared records; Clear Event Records clears them, and an unknown handle is
refused. R298. The shutdown state is kept. R299. GPF is answered and counted. Where the CXL specification fixes a code or a payload
the value is the model's (log entry 17). -/
def Obligations.MailboxAnswers : Prop :=
  ∀ (port : Port),
    let p := port.val
    let x := fun (s : State) => portOf s p
    let up := fun (s : State) => linkUp s p = true
    let counted := fun (s t : State) => stat t (0x2B20 + p) 0x0B = (stat s (0x2B20 + p) 0x0B + 1) % 2 ^ 64
    let answer := fun (op rc : Nat) (payload : State → List Byte) (s t : State) =>
      t.out = .mailbox port op rc (payload s) :: s.out ∧ counted s t
    let live := fun (s : State) (log i : Nat) (e : EventRec) => (x s).events[i]? = some e ∧ e.log = log ∧
      recordCleared s p i = false
    let status := fun (s : State) => let b := (x s).background
      leBytes 1 (bnat (backgroundRuns s p) + 2 * b.2.1) ++ leBytes 1 0 ++ leBytes 2 b.1 ++ leBytes 2 b.2.2 ++ leBytes 2 0
    let memory := fun (s : State) => leBytes 16 Config.maskRomRevision.toNat ++ leBytes 8 (hostVisibleUnits s) ++ leBytes 8 0 ++
      leBytes 8 (hostVisibleUnits s) ++ leBytes 8 0 ++ padTo 8 (Config.answerBytes 0x4000 0) ++ leBytes 4 0 ++
      leBytes 3 4096 ++ padTo 4 (Config.answerBytes 0x4000 1)
    let health := fun (s : State) => leBytes 1 (healthStatus s p) ++ leBytes 1 (mediaStatus s) ++ leBytes 1 0 ++
      leBytes 1 s.sys.lifeUsed ++ leBytes 2 (toUnsigned 2 (deviceTemperature s)) ++ leBytes 4 (tallyValue s 150) ++
      satBytes 4 (stat s 0x2310 0x0D).toNat ++ satBytes 4 (stat s 0x2100 4).toNat
    (∀ e ∈ ([(.identify port, 1, fun _ => Config.answerBytes 1 0), (.backgroundOperationStatus port, 2, status),
        (.getResponseMessageLimit port, 3, fun s => leBytes 1 (x s).messageLimit),
        (.getEventInterruptPolicy port, 0x0102, fun s => (x s).policy),
        (.getFwInfo port, 0x0200, fun _ =>
          [1, 1, 0] ++ leBytes 13 0 ++ leBytes 16 Config.maskRomRevision.toNat ++ leBytes 48 0),
        (.getTimestamp port, 0x0300, fun s => leBytes 8 (timestamp s)),
        (.getSupportedLogs port, 0x0400, fun _ => leBytes 2 1 ++ leBytes 6 0 ++ Config.answerBytes 0x400 0),
        (.identifyMemoryDevice port, 0x4000, memory), (.getHealthInfo port, 0x4200, health),
        (.getAlertConfiguration port, 0x4201, fun s => leBytes 1 (x s).alertEnabled ++ leBytes 1 7 ++ leBytes 1 100 ++
          leBytes 1 (tabGet dNat (x s).alerts 0) ++ leBytes 2 (settingN s 0x3010 6) ++ leBytes 2 0 ++
          leBytes 2 (settingN s 0x3010 4) ++ leBytes 2 (tabGet dNat (x s).alerts 2) ++ leBytes 4 0),
        (.getShutdownState port, 0x4203, fun s => leBytes 1 (bnat (x s).shutdownDirty)),
        (.getScanMediaCapabilities port, 0x4303, fun _ => Config.answerBytes 0x4303 0)] :
        List (Instr × Nat × (State → List Byte))),
      Completes e.1 [.stats, .out] up (answer e.2.1 rcSuccess e.2.2) ∧
      Completes e.1 [] (fun s => ¬ up s) (fun _ _ => True)) ∧
    (∀ (effects : Bool) (offset length : BitVec 32),
      Completes (.getLog port effects offset length) [.stats, .out] up (answer 0x0401 (if effects then rcSuccess else rcLog)
        (fun _ => if effects then bytesAt (Config.answerBytes 0x401 0) offset.toNat (min length.toNat 2048) else []))) ∧
    (∀ (opcode : BitVec 16),
      Completes (.mailboxUnsupported port opcode) [.stats, .out] (fun s => up s ∧ mailboxServes opcode.toNat = false)
        (answer opcode.toNat rcUnsupported (fun _ => [])) ∧
      Completes (.mailboxUnsupported port opcode) [] (fun s => ¬ up s ∨ mailboxServes opcode.toNat = true)
        (fun _ _ => True)) ∧
    (∀ (limit : Byte),
      Completes (.setResponseMessageLimit port limit) [.ports, .stats, .out]
        (fun s => up s ∧ 8 ≤ limit.toNat ∧ limit.toNat ≤ 11)
        (fun s t => answer 4 rcSuccess (fun _ => leBytes 1 limit.toNat) s t ∧ PortsKept p s t ∧
          x t = { x s with messageLimit := limit.toNat }) ∧
      Completes (.setResponseMessageLimit port limit) [.stats, .out]
        (fun s => up s ∧ (limit.toNat < 8 ∨ 11 < limit.toNat)) (answer 4 rcInvalid (fun _ => []))) ∧
    (∀ (policy : BitVec 32), Completes (.setEventInterruptPolicy port policy) [.ports, .stats, .out] up (fun s t =>
      answer 0x0103 rcSuccess (fun _ => []) s t ∧ PortsKept p s t ∧ x t = { x s with policy := leBytes 4 policy.toNat })) ∧
    (∀ (value : BitVec 64), Completes (.setTimestamp port value) [.path, .stats, .out] up (fun s t =>
      answer 0x0301 rcSuccess (fun _ => []) s t ∧ timestamp t = value.toNat ∧ t.path.medium = s.path.medium)) ∧
    (∀ (valid enable life : Byte) (hot cold : BitVec 16),
      let c := Instr.setAlertConfiguration port valid enable life hot cold
      let fits := fun (s : State) => 70 ≤ hot.toInt ∧ hot.toInt ≤ 105 ∧ hot.toInt + 2 ≤ setting s 0x3010 5 ∧
        setting s 0x3010 5 + 2 ≤ setting s 0x3010 6
      Completes c [.ports, .settings, .stats, .out] (fun s => up s ∧ (valid.getLsbD 1 = true → fits s)) (fun s t =>
        answer 0x4202 rcSuccess (fun _ => []) s t ∧ SettingsKept 0x3010 4 s t ∧ PortsKept p s t ∧
        setting t 0x3010 4 = (if valid.getLsbD 1 then hot.toInt else setting s 0x3010 4) ∧
        ∀ i, i < 3 → bitOf (x t).alertEnabled i =
          if valid.getLsbD i then enable.getLsbD i else bitOf ((x s).alertEnabled % 256) i) ∧
      Completes c [.stats, .out] (fun s => up s ∧ valid.getLsbD 1 = true ∧ ¬ fits s) (answer 0x4202 rcInvalid (fun _ => []))) ∧
    (∀ (dirty : Bool), Completes (.setShutdownState port dirty) [.folio, .ports, .stats, .out] up (fun s t =>
      answer 0x4204 rcSuccess (fun _ => []) s t ∧ PortsKept p s t ∧ x t = { x s with shutdownDirty := dirty })) ∧
    (∀ (log : Fin 4),
      Completes (.getEventRecords port log) [.mgmt, .folio, .ledger, .ports, .queues, .stats, .out]
        (fun s => up s ∧ ∀ i e, live s log.val i e → ∀ w ∈ recordWords s p i, isPoisoned w = false)
        (fun s t => ∃ payload, Output.mailbox port 0x0100 rcSuccess payload ∈ t.out ∧
          let room := (2 ^ min 11 (x s).messageLimit - 32) / 128
          let kept := (x s).events.zipIdx.filter (fun e => e.1.log == log.val && !recordCleared s p e.2)
          numAt payload 20 2 = min room kept.length ∧
          payload.drop 32 = (kept.take room).flatMap (fun e => (eventWords e.1).flatMap (fun w => leBytes 8 w))) ∧
      (∀ (handles : List (BitVec 16)),
        Completes (.clearEventRecords port log false handles) [.stats, .out]
          (fun s => up s ∧ ∃ h ∈ handles, ∀ i e, live s log.val i e → e.handle ≠ h.toNat)
          (answer 0x0101 rcHandle (fun _ => [])) ∧
        Completes (.clearEventRecords port log true handles) [.ports, .queues, .stats, .out]
          (fun s => up s ∧ (x s).heldEvents = [] ∧ (queueOf s (9 + p)).mark + 14 * (x s).events.length ≤ 114688)
          (fun _ t => Output.mailbox port 0x0101 rcSuccess [] ∈ t.out ∧ logOverflow t p log.val = (0, 0, 0) ∧
            ∀ i e, ¬ live t log.val i e) ∧
        Completes (.clearEventRecords port log false handles) [.ports, .queues, .stats, .out]
          (fun s => up s ∧ (x s).heldEvents = [] ∧ (queueOf s (9 + p)).mark + 14 * (x s).events.length ≤ 114688 ∧
            ∀ h ∈ handles, ∃ i e, live s log.val i e ∧ e.handle = h.toNat)
          (fun _ t => Output.mailbox port 0x0101 rcSuccess [] ∈ t.out ∧
            ∀ i e, live t log.val i e → ∀ h ∈ handles, e.handle ≠ h.toNat))) ∧
    Completes (.gpfPhase2 port) [.stats, .out] up (fun s t => t.out = .link port 2 :: s.out ∧
      stat t 0x2B00 6 = (stat s 0x2B00 6 + 1) % 2 ^ 32) ∧
    Completes (.gpfPhase2 port) [] (fun s => ¬ up s) (fun _ _ => True)

/-- R363. Before Memory Active the media commands return Busy and do nothing else. R292, R151. The poison list returns the entries in the
range that the port's windows cover, as many as fit. R294. An injection is Unsupported unless enabled; enabled, it leaves the line a
permanent entry of source 3 and is counted; a line outside host-visible memory or the port's windows is refused, as it is for a clear.
A scan starts as the background command, one at a time, and ends when none of its reads is out; its results are returned once.
Return codes are the model's (log entry 17). -/
def Obligations.MediaCommands : Prop :=
  ∀ (port : Port) (line : LineAddr) (lines : BitVec 39) (data : Line),
    let p := port.val
    let l := line.toNat
    let x := fun (s : State) => portOf s p
    let up := fun (s : State) => linkUp s p = true
    let live := fun (s : State) => up s ∧ s.sys.memoryActive = true
    let counted := fun (s t : State) => stat t (0x2B20 + p) 0x0B = (stat s (0x2B20 + p) 0x0B + 1) % 2 ^ 64
    let answer := fun (op rc : Nat) (s t : State) => t.out = .mailbox port op rc [] :: s.out ∧ counted s t
    let wide : List UnitName := [.mgmt, .folio, .ledger, .reserve, .ports, .groups, .easel, .palette, .directory, .queues,
      .barrow, .perf, .stats, .out]
    let room := fun (s : State) => (2 ^ min 11 (x s).messageLimit - 32) / 16
    (∀ e ∈ ([(.getPoisonList port line lines, 0x4300), (.injectPoison port line, 0x4301), (.clearPoison port line data, 0x4302),
        (.scanMedia port line lines, 0x4304)] : List (Instr × Nat)),
      Completes e.1 [.stats, .out] (fun s => up s ∧ s.sys.memoryActive = false) (answer e.2 rcBusy) ∧
      Completes e.1 [] (fun s => ¬ up s) (fun _ _ => True)) ∧
    Completes (.getPoisonList port line lines) [.stats, .out] live (fun s t =>
      let es := (poisonEntries s).filter (fun e => portCovers s p (e.line * 64) && decide (l ≤ e.line ∧ e.line < l + lines.toNat))
      counted s t ∧ ∃ payload, t.out = .mailbox port 0x4300 rcSuccess payload :: s.out ∧
        numAt payload 10 2 = min (room s) es.length ∧
        payload.drop 32 = (es.take (room s)).flatMap (fun e => poisonRecord e.line e.source)) ∧
    Completes (.injectPoison port line) wide
      (fun s => live s ∧ settingB s 0x2B00 2 = true ∧ lineAllowed s p l = true)
      (fun s t => (∃ e, poisonEntry t l = some e ∧ e.permanent = true ∧ e.source = 3) ∧ counted s t ∧
        Output.mailbox port 0x4301 rcSuccess [] ∈ t.out ∧
        stat t (0x2B20 + p) 0x0D = (stat s (0x2B20 + p) 0x0D + 1) % 2 ^ 32) ∧
    Completes (.injectPoison port line) [.stats, .out] (fun s => live s ∧ settingB s 0x2B00 2 = false)
      (answer 0x4301 rcUnsupported) ∧
    Completes (.injectPoison port line) [.stats, .out]
      (fun s => live s ∧ settingB s 0x2B00 2 = true ∧ lineAllowed s p l = false) (answer 0x4301 rcAddress) ∧
    Completes (.clearPoison port line data) wide (fun s => live s ∧ lineAllowed s p l = true)
      (fun s t => Output.mailbox port 0x4302 rcSuccess [] ∈ t.out ∧ counted s t ∧ t.path.medium = s.path.medium) ∧
    Completes (.clearPoison port line data) [.stats, .out] (fun s => live s ∧ lineAllowed s p l = false)
      (answer 0x4302 rcAddress) ∧
    (let free := fun (s : State) => live s ∧ backgroundRuns s p = false
     let fits := fun (s : State) => lines.toNat ≠ 0 ∧ lineAllowed s p l = true ∧ lineAllowed s p (l + lines.toNat - 1) = true
     Completes (.scanMedia port line lines) [.mgmt, .folio, .ledger, .ports, .easel, .palette, .directory, .queues, .barrow,
        .perf, .stats, .out] (fun s => free s ∧ fits s)
      (fun s t => (x t).background = (0x4304, 0, 0) ∧ (x t).scan = (l, lines.toNat) ∧ counted s t ∧
        Output.mailbox port 0x4304 rcStarted [] ∈ t.out) ∧
     Completes (.scanMedia port line lines) [.stats, .out] (fun s => free s ∧ ¬ fits s) (answer 0x4304 rcAddress) ∧
     Completes (.scanMedia port line lines) [.stats, .out] (fun s => live s ∧ backgroundRuns s p = true)
      (answer 0x4304 rcBusy)) ∧
    Completes (.scanMediaComplete port) [.ports] (fun s => backgroundRuns s p = true ∧ scanOut s p = false)
      (fun s t => PortsKept p s t ∧ x t = { x s with background := ((x s).background.1, 100, rcSuccess) } ∧
        backgroundRuns t p = false) ∧
    Completes (.scanMediaComplete port) [] (fun s => backgroundRuns s p = false ∨ scanOut s p = true) (fun _ _ => True) ∧
    Completes (.getScanMediaResults port) [.ports, .stats, .out] up (fun s t =>
      PortsKept p s t ∧ x t = { x s with scanFound := (x s).scanFound.drop (room s) } ∧ counted s t ∧
      ∃ payload, t.out = .mailbox port 0x4305 rcSuccess payload :: s.out ∧
        numAt payload 18 2 = min (room s) (x s).scanFound.length ∧
        payload.drop 32 = ((x s).scanFound.take (room s)).flatMap
          (fun m => poisonRecord m ((poisonEntry s m).elim 2 (·.source))))

/-- R301. The responder of a port serves each SPDM request in the states of its handshake: a version request begins it anew, and each later
request is served in its place and refused elsewhere without a change of state. Within a session the keys of a stream are programmed, a
stream whose two directions have keys comes into force, in containment or skid mode, and a stop takes the stream and its keys. R302. An
IDE integrity failure counts itself, makes the stream insecure, discards the keys and takes the link down. Message codes are the
model's (log entry 17). -/
def Obligations.LinkSecurity : Prop :=
  ∀ (port : Port),
    let p := port.val
    let x := fun (s : State) => portOf s p
    let at_ := fun (k : SpdmState) (s : State) => linkUp s p = true ∧ (x s).spdm = k
    let past := fun (s : State) => linkUp s p = true ∧ 3 ≤ spdmRank (x s).spdm
    let sent := fun (code : Nat) (payload : State → List Byte) (s t : State) => t.out = .spdm port code (payload s) :: s.out
    let moved := fun (k : SpdmState) (s t : State) => PortsKept p s t ∧ x t = { x s with spdm := k }
    let slot := fun (s : State) (i : Nat) => tabGet (fun _ => ([] : List Byte)) (x s).ideKeys i
    let ready := fun (s : State) (io : Bool) => slot s (ideSlot io false) ≠ [] ∧ slot s (ideSlot io true) ≠ []
    let content := fun (code : Nat) (s : State) => spdmContent s code
    (∀ (block operation tag : Byte) (offset length : BitVec 16) (io skid transmit : Bool) (key : BitVec 256),
      Completes (.spdmGetVersion port) [.ports, .out] (fun s => linkUp s p = true)
        (fun s t => moved .versioned s t ∧ sent 4 (fun _ => [0, 1, 0x00, 0x12]) s t) ∧
      (∀ e ∈ ([(.spdmGetCapabilities port, .versioned, .capable, 0x61), (.spdmNegotiateAlgorithms port, .capable, .negotiated, 0x63)]
          : List (Instr × SpdmState × SpdmState × Nat)),
        Completes e.1 [.ports, .out] (at_ e.2.1) (fun s t => moved e.2.2.1 s t ∧ sent e.2.2.2 (content e.2.2.2) s t)) ∧
      Completes (.spdmKeyExchange port) [.ports, .draws, .out] (at_ .negotiated)
        (fun s t => moved .handshake s t ∧ sent 0x64 (content 0x64) s t) ∧
      Completes (.spdmFinish port) [.ports, .draws, .out] (at_ .handshake) (fun s t =>
        (moved .session s t ∧ sent 0x65 (content 0x65) { s with draws := s.draws + 1 } t) ∨
        (moved .negotiated s t ∧ sent 0x7F (fun _ => [6]) s t)) ∧
      Completes (.spdmChallenge port) [.draws, .out] (at_ .negotiated) (sent 3 (content 3)) ∧
      (∀ e ∈ ([(.spdmGetDigests port, 1, fun _ => Config.answerBytes 0x10001 0),
          (.spdmGetCertificate port offset length, 2,
            fun _ => bytesAt (Config.answerBytes 0x10002 0) offset.toNat length.toNat),
          (.spdmVendorDefinedRequest port, 0x7E, content 0x7E)] : List (Instr × Nat × (State → List Byte))),
        Completes e.1 [.out] past (sent e.2.1 e.2.2)) ∧
      Completes (.spdmGetMeasurements port block) [.out] past (fun s t =>
        (block = 0 → sent 0x60 (fun _ => [3]) s t) ∧ (block = 0xFF → sent 0x60 (fun s => (measurementBlocks s).flatten) s t) ∧
        (∀ i, i < 3 → block.toNat = i + 1 → sent 0x60 (fun s => (measurementBlocks s).getD i []) s t) ∧
        (3 < block.toNat → block ≠ 0xFF → sent 0x7F (fun _ => [1]) s t)) ∧
      (∀ e ∈ ([(.spdmHeartbeat port, 0x68, []), (.spdmKeyUpdate port operation tag, 0x69, [operation, tag]),
          (.ideKmQuery port, 0x101, Config.answerBytes 0x20001 0)] : List (Instr × Nat × List Byte)),
        Completes e.1 [.out] (at_ .session) (sent e.2.1 (fun _ => e.2.2))) ∧
      Completes (.spdmEndSession port) [.ports, .out] (at_ .session)
        (fun s t => moved .negotiated s t ∧ sent 0x6C (fun _ => []) s t) ∧
      Completes (.ideKmKeyProg port io transmit key) [.ports, .out] (at_ .session) (fun s t =>
        PortsKept p s t ∧ sent 0x103 (fun _ => [0]) s t ∧
        ∀ i, slot t i = if i = ideSlot io transmit then leBytes 32 key.toNat else slot s i) ∧
      Completes (.ideKmKSetGo port io skid) [.ports, .out] (fun s => at_ .session s ∧ ready s io) (fun s t =>
        PortsKept p s t ∧ sent 0x106 (fun _ => []) s t ∧
        x t = if io then { x s with ideIo := true } else { x s with ide := if skid then 2 else 1 }) ∧
      Completes (.ideKmKSetGo port io skid) [.out] (fun s => at_ .session s ∧ ¬ ready s io) (sent 0x7F (fun _ => [1])) ∧
      Completes (.ideKmKSetStop port io) [.ports, .out] (at_ .session) (fun s t =>
        PortsKept p s t ∧ sent 0x106 (fun _ => []) s t ∧ ¬ ready t io ∧
        (∀ i, i ≠ ideSlot io false → i ≠ ideSlot io true → slot t i = slot s i) ∧
        (if io then (x t).ideIo = false ∧ (x t).ide = (x s).ide else (x t).ide = 0 ∧ (x t).ideIo = (x s).ideIo)) ∧
      Completes (.ideKmGetkey port io) [.ports, .draws, .out] (at_ .session) (fun s t =>
        PortsKept p s t ∧ sent 0x108 (fun s => leBytes 32 (drawn s 256)) s t ∧
        ∀ i, slot t i = if i = ideSlot io true then leBytes 32 (drawn s 256) else slot s i) ∧
      (∀ e ∈ ([(.spdmGetCapabilities port, 1, 1), (.spdmNegotiateAlgorithms port, 2, 2), (.spdmGetDigests port, 3, 5),
          (.spdmGetCertificate port offset length, 3, 5), (.spdmChallenge port, 3, 3), (.spdmGetMeasurements port block, 3, 5),
          (.spdmKeyExchange port, 3, 3), (.spdmFinish port, 4, 4), (.spdmHeartbeat port, 5, 5),
          (.spdmKeyUpdate port operation tag, 5, 5), (.spdmEndSession port, 5, 5), (.spdmVendorDefinedRequest port, 3, 5),
          (.ideKmQuery port, 5, 5), (.ideKmKeyProg port io transmit key, 5, 5), (.ideKmKSetGo port io skid, 5, 5),
          (.ideKmKSetStop port io, 5, 5), (.ideKmGetkey port io, 5, 5)] : List (Instr × Nat × Nat)),
        Completes e.1 [.out] (fun s => linkUp s p = true ∧ (spdmRank (x s).spdm < e.2.1 ∨ e.2.2 < spdmRank (x s).spdm))
          (sent 0x7F (fun _ => [4])) ∧
        Completes e.1 [] (fun s => linkUp s p = false) (fun _ _ => True))) ∧
    (∀ (hit : List LineAddr),
      Completes (.ideIntegrityFailure port hit) [.mgmt, .folio, .ledger, .reserve, .ports, .groups, .easel, .palette, .directory,
          .queues, .barrow, .perf, .stats, .out]
        (fun s => linkUp s p = true ∧ ((x s).ide = 1 ∨ (x s).ide = 2))
        (fun s t => (x t).ide = 3 ∧ (x t).ideKeys = [] ∧ (x t).ideIo = false ∧ (x t).link = 0 ∧ (x t).decoders = [] ∧
          stat t (0x2B20 + p) 8 = (stat s (0x2B20 + p) 8 + 1) % 2 ^ 32) ∧
      Completes (.ideIntegrityFailure port hit) []
        (fun s => linkUp s p = false ∨ ((x s).ide ≠ 1 ∧ (x s).ide ≠ 2)) (fun _ _ => True))

/-- R315, R316, R318. A commit takes the shadow value; a start of an idle channel takes the committed set and loads its descriptor, and
is refused otherwise. R305. A descriptor that fails its check completes at once with error, its residue its Count. R306. A host beat
reads its line and counts as in flight; its data then goes out to the destination. R307, R308. When every beat has its response the
descriptor completes with success. R309. The full interrupt and the error interrupt set their causes, which a client clears. R310, R311.
A source error stops the channel; a failed flush-read is an error of every beat it covers, and a final-beat error once the count is
zero. R313. An abort ends a descriptor with nothing in flight at once, its residue the beats never issued. -/
def Obligations.BarrowTransfers : Prop :=
  ∀ (via : Via) (channel : BarrowChannel) (upset : Upset),
    let c := channel.val
    let access : BeatAccess := ⟨channel, upset⟩
    let x := fun (s : State) => barrowOf s c
    let rest := fun (s t : State) => (∀ d, d ≠ c → barrowOf t d = barrowOf s d) ∧ t.barrow.descriptors = s.barrow.descriptors
    let units : List UnitName := [.mgmt, .folio, .ledger, .barrow, .stats, .out]
    let ended := fun (l : LoadRec) (status residue bits : Nat) (s t : State) =>
      (x t).loads = [] ∧ (x t).lastDescriptor = l.index ∧ (x t).lastStatus = status ∧ (x t).lastResidue = residue ∧
      (x t).cause = (x s).cause ||| bits ∧ rest s t ∧ stat t (0x2C10 + c) 0x0F = (stat s (0x2C10 + c) 0x0F + 1) % 2 ^ 64
    let failed := fun (l : LoadRec) (flags beat : Nat) (t : State) => (x t).errorDescriptor = l.index ∧
      (x t).errorFlags = flags ∧ (x t).failBeat = beat
    let moved := fun (s t : State) (n : Nat) => stat t 0x2C00 6 = (stat s 0x2C00 6 + n) % 2 ^ 64
    let sound := fun (l : LoadRec) => l.errors = 0 ∧ l.failBeat = none ∧ l.stopped = 0 ∧ l.invalid = false ∧ l.silent = false ∧
      bitOf l.flags 1 = false
    let alone := fun (s : State) (l : LoadRec) => (x s).loads = [l] ∧ sound l ∧ (x s).errorDescriptor = 0xFFFF
    let port := fun (s : State) => Fin.ofNat 4 (barrowOwner s c)
    Serves (.shadowCommit via channel) via .operator [.barrow] (fun _ _ => True) (fun _ s t => rest s t ∧
      x t = { x s with committed := some (x s).shadow, commitState := 1 }) ∧
    (∀ i,
      let l := fun (s : State) => loadOf (descriptorBytes s i) (x s).serial i
      let before := fun (s : State) => (x s).loads = [] ∧ (x s).committed = some i
      let cause := fun (s : State) => descriptorCheck s c (descriptorBytes s i) (l s)
      Serves (.channelStart via channel) via .operator [.barrow] (fun _ s => before s ∧ cause s = 0) (fun _ s t =>
        (x t).loads = [l s] ∧ (x t).committed = none ∧ (x t).commitState = 2 ∧ (x t).errorFlags = 0 ∧ (x t).failBeat = 0 ∧
        (x t).errorDescriptor = 0xFFFF ∧ rest s t) ∧
      Serves (.channelStart via channel) via .operator units (fun _ s => before s ∧ cause s ≠ 0) (fun _ s t =>
        ended (l s) 1 (l s).total 4 s t ∧ failed (l s) 8 0 t ∧ (x t).committed = none)) ∧
    Rejects (.channelStart via channel) via .operator 0x2C03 (0x2C10 + c) 4 (fun _ s => (x s).loads ≠ []) ∧
    Rejects (.channelStart via channel) via .operator 0x2C04 (0x2C10 + c) 4
      (fun _ s => (x s).loads = [] ∧ (x s).committed = none) ∧
    (∀ l : LoadRec,
      Serves (.channelAbort via channel) via .operator units
        (fun _ s => alone s l ∧ l.kind ≠ 4 ∧ l.reading = [] ∧ l.writing = [] ∧ l.posted = [] ∧ l.issued < l.total)
        (fun _ s t => ended l 2 (l.total - l.issued) 4 s t ∧ (x t).committed = (x s).committed) ∧
      Completes (.barrowBeatIssue access) [.barrow, .perf, .out]
        (fun s => alone s l ∧ l.kind = 2 ∧ l.issued + 1 < l.total ∧ beatsOut l < 16 ∧ hostOpen s c = true ∧
          s.sys.memoryActive = true)
        (fun s t => rest s t ∧ t.out = .hostRead (port s) (l.src + 64 * l.issued) 64 :: s.out ∧
          (x t).loads = [{ l with issued := l.issued + 1, reading := l.reading ++ [l.issued] }]) ∧
      Completes (.barrowBeatIssue access) []
        (fun s => (x s).loads = [l] ∧ (l.stopped ≠ 0 ∨ l.kind = 4 ∨ l.total ≤ l.issued ∨ 16 ≤ beatsOut l ∨
          s.sys.memoryActive = false)) (fun _ _ => True) ∧
      (∀ (beat : BitVec 32) (data d : Line) (ok : Bool),
        let b := beat.toNat
        Completes (.barrowSourceReadComplete access beat data ok) [.barrow, .out]
          (fun s => alone s l ∧ l.kind = 1 ∧ b ∈ l.reading ∧ l.arrived.find? (fun a => a.1 == b) = some (b, d, false) ∧
            b + 1 < l.total ∧ l.issued < l.total)
          (fun s t => rest s t ∧ t.out = .hostWrite (port s) (l.dst + 64 * b) (lineBytes d) false :: s.out ∧
            (x t).loads = [{ l with
              reading := l.reading.erase b, arrived := l.arrived.filter (fun a => a.1 != b), posted := l.posted ++ [b] }]) ∧
        (∀ e ∈ [Instr.barrowSourceReadComplete access beat data false, .completionTimeout channel false beat],
          Completes e units
            (fun s => alone s l ∧ l.kind = 2 ∧ l.reading = [b] ∧ l.writing = [] ∧ l.posted = [] ∧ l.issued < l.total)
            (fun s t => ended l 1 (l.total - l.issued) 4 s t ∧ failed l 2 b t)) ∧
        Completes (.barrowSourceReadComplete access beat data ok) []
          (fun s => ∀ y ∈ (x s).loads, b ∉ y.reading) (fun _ _ => True)) ∧
      Completes (.barrowWriteResponse channel) units
        (fun s => alone s l ∧ l.kind ≠ 1 ∧ l.kind ≠ 4 ∧ l.issued = l.total ∧ l.reading = [] ∧ l.posted = [] ∧
          ∀ w ∈ l.writing, w.2 = true)
        (fun s t => ended l 0 0 (if bitOf l.flags 2 then 2 else 0) s t ∧ moved s t l.writing.length) ∧
      (∀ (f : FlushRec) (b : Nat) (beat : BitVec 32),
        let last := fun (s : State) => alone s l ∧ l.kind = 1 ∧ l.issued = l.total ∧ l.reading = [] ∧ l.writing = [] ∧
          l.posted.head? = some b ∧ (x s).flushes = [f] ∧ f.covers = l.posted.map (fun b => (l.serial, b)) ∧ f.raises = 0
        Completes (.flushReadComplete channel true) units last (fun s t =>
          ended l 0 0 (if bitOf l.flags 2 then 2 else 0) s t ∧ moved s t l.posted.length) ∧
        (∀ e ∈ [Instr.flushReadComplete channel false, .completionTimeout channel true beat],
          Completes e units last (fun s t => ended l 1 0 4 s t ∧ failed l 5 b t) ∧
          Completes e [] (fun s => (x s).flushes = []) (fun _ _ => True)))) ∧
    Rejects (.channelAbort via channel) via .operator 0x2C06 (0x2C10 + c) 4 (fun _ s => (x s).loads = []) ∧
    (∀ mask : Byte, mask.toNat < 8 →
      Serves (.interruptCauseClear via channel mask) via .operator [.barrow] (fun _ _ => True)
        (fun _ s t => rest s t ∧ (∃ k, x t = { x s with cause := k }) ∧
          ∀ i, bitOf (x t).cause i = (bitOf (x s).cause i && !mask.getLsbD i)))

/-- R319. When a fill-through's program is complete its codeword stands in every column not erased, the line is clean with that version
and keeps its data, and the beat has its response. R320. A telemetry line is the next eight words of TQ, idle words for the rest,
written at the write pointer, which moves on round the ring and is posted to Aux; nothing is taken while the ring is full or the
owner's link cannot carry it. The read pointer is written while the channel is bound to TQ, within the ring, and is refused
otherwise. -/
def Obligations.BarrowStreams : Prop :=
  (∀ (line : LineAddr) (f : DestageRec) (pl : Place) (c n b : Nat),
    pl.group < 8 → (∀ k, k < 8 → pl.addrs.getD k 0 < 2 ^ 35) →
    Completes (.fillThroughComplete line)
      [.sys, .mgmt, .folio, .ledger, .reserve, .groups, .easel, .crypt, .directory, .queues, .barrow, .perf, .path, .stats, .out]
      (fun s => s.easel.flights.find? (fun x => x.line == line.toNat && x.fill.isSome) = some f ∧
        f.fill = some (.barrow c n b) ∧ linePlace s f.line = some pl ∧ placeFenced s pl = false ∧ (easelLine s f.place).valid = true ∧
        (easelLine s f.place).flight = true ∧ (easelLine s f.place).tag = easelTag f.line ∧
        (easelLine s f.place).written = false ∧ (easelLine s f.place).onDevice = false)
      (fun s t => (easelLine t f.place).flight = false ∧ (easelLine t f.place).dirty = false ∧
        (easelLine t f.place).version = f.version ∧ (easelLine t f.place).vk = true ∧
        (easelLine t f.place).data = (easelLine s f.place).data ∧
        stat t 0x2C00 6 = (stat s 0x2C00 6 + 1) % 2 ^ 64 ∧
        ∀ ch a, ch < 64 → a < 2 ^ 35 → tabGet dPatch t.path.medium (patchKey ch a) =
          if ch / 8 = pl.group ∧ a = pl.addrs.getD (ch % 8) 0 ∧ ch % 8 ∉ erasedColumns s pl.group pl.slot
          then patchOfSymbols f.code (ch % 8) else tabGet dPatch s.path.medium (patchKey ch a)) ∧
    Completes (.fillThroughComplete line) []
      (fun s => s.easel.flights.find? (fun x => x.line == line.toNat && x.fill.isSome) = none) (fun _ _ => True)) ∧
  (∀ (channel : BarrowChannel),
    let c := channel.val
    let x := fun (s : State) => barrowOf s c
    let waiting := fun (s : State) => (queueOf s 8).words.drop (queueOf s 8).taken
    let port := fun (s : State) => Fin.ofNat 4 (barrowOwner s c)
    let taken := fun (l : LoadRec) (s t : State) =>
      let next := ((x s).writePointer + 1) % l.total
      (x t).writePointer = next ∧ (x t).loads = (x s).loads ∧ (∀ d, d ≠ c → barrowOf t d = barrowOf s d) ∧
      (queueOf t 8).words = (waiting s).drop 8 ∧ (queueOf t 8).taken = 0 ∧
      Output.hostWrite (port s) (l.dst + 64 * (x s).writePointer)
        ((List.range 8).flatMap (fun i => leBytes 8 ((((waiting s).take 8).map (·.data)).getD i 0))) false ∈ t.out ∧
      Output.hostWrite (port s) l.aux (leBytes 8 next) false ∈ t.out
    (∀ l : LoadRec,
      let ready := fun (s : State) => (x s).loads.getLast? = some l ∧ l.kind = 4 ∧ l.stopped = 0 ∧ hostOpen s c = true ∧
        ((x s).writePointer + 1) % l.total ≠ (x s).readPointer
      Completes (.telemetryLineWrite channel) [.queues, .barrow, .stats, .out] (fun s => ready s ∧ 8 ≤ (waiting s).length)
        (taken l) ∧
      Completes (.telemetryLineWrite channel) [] (fun s => (waiting s).length < 8) (fun _ _ => True) ∧
      Completes (.telemetryFlushInterval channel) [.queues, .barrow, .stats, .out] (fun s => ready s ∧ waiting s ≠ [])
        (taken l) ∧
      (∀ e ∈ [Instr.telemetryLineWrite channel, .telemetryFlushInterval channel],
        Completes e [] (fun s => waiting s = [] ∨ hostOpen s c = false ∨ ((x s).loads.getLast? = some l ∧
          (l.kind ≠ 4 ∨ ((x s).writePointer + 1) % l.total = (x s).readPointer))) (fun _ _ => True)) ∧
      (∀ (via : Via) (value : BitVec 32),
        Serves (.telemetryReadPointer via channel value) via .operator [.barrow]
          (fun _ s => telemetryChannel s = some c ∧ (x s).loads.getLast? = some l ∧ value.toNat < l.total)
          (fun _ s t => x t = { x s with readPointer := value.toNat } ∧ ∀ d, d ≠ c → barrowOf t d = barrowOf s d) ∧
        Rejects (.telemetryReadPointer via channel value) via .operator 0x2C01 (0x2C10 + c) 0x11
          (fun _ s => telemetryChannel s = some c ∧ (x s).loads.getLast? = some l ∧ l.total ≤ value.toNat))) ∧
    (∀ (via : Via) (value : BitVec 32), Rejects (.telemetryReadPointer via channel value) via .operator 0x2C05 (0x2C10 + c) 0x11
      (fun _ s => telemetryChannel s ≠ some c)))

/-- R325. While a producer's packet is open its words join the queue and no other producer's do; a first word needs room for its
whole packet. R331. The telemetry queue makes room by discarding its oldest packets, and its rewind mark is then lost. R332. Words of a
packet cut by a flush are dropped up to its last. R326. Once a second, while the queues run, a time mark of two words is pushed. R328,
R329. A spill write moves seven tail words to a block; a spill read moves the oldest block to a head with room for it, poisoning the
words Easel could not correct and all seven of a block out of place; a corrected word is counted. A full spill area takes no block. R332. A flush empties a queue, clears an event queue's clear map, and is logged; a journal queue's is
refused. R335. A read of the telemetry queue returns eight words, idle ones for the rest, and sets the mark; it is refused while a
Barrow channel is bound to that queue. -/
def Obligations.StallQueues : Prop :=
  (∀ (queue : QueueId),
    let q := queue.val
    let x := fun (s : State) => queueOf s q
    let others := fun (s t : State) => ∀ i, i ≠ q → queueOf t i = queueOf s i
    let counts := fun (s t : State) (sub n : Nat) => stat t (0x2D10 + q) sub = (stat s (0x2D10 + q) sub + n) % 2 ^ 64
    let bit := fun (b : Bool) => if b = true then 1 else 0
    (∀ (producer : Fin 4) (data : BitVec 64) (first last : Bool),
      let push := Instr.queuePush queue producer data first last
      let w := qword data.toNat first last false
      let n := packetLength q data.toNat
      Completes push [.queues] (fun s => (x s).dropping = some producer.val) (fun s t => others s t ∧
        x t = { x s with dropping := if last then none else some producer.val }) ∧
      Completes push [.queues, .stats]
        (fun s => (x s).dropping ≠ some producer.val ∧ (x s).openBy = some producer.val ∧ first = false)
        (fun s t => others s t ∧ (x t).words = (x s).words ++ [w] ∧ (x t).taken = (x s).taken ∧
          (x t).openBy = (if last then none else some producer.val) ∧ counts s t 5 1 ∧ (last = true → counts s t 6 1) ∧
          (q ≠ 8 → (x t).notices = (x s).notices + bit (last && !(x s).cut))) ∧
      Completes push [.stats]
        (fun s => (x s).dropping ≠ some producer.val ∧
          (((x s).openBy.isSome ∧ ((x s).openBy ≠ some producer.val ∨ first = true)) ∨
            ((x s).openBy = none ∧ first = true ∧ q ≠ 8 ∧ queueCapacity q ≤ (x s).words.length + n)))
        (fun s t => counts s t 8 1) ∧
      Completes push [] (fun s => (x s).dropping ≠ some producer.val ∧ (x s).openBy = none ∧ first = false) (fun _ _ => True) ∧
      Completes push [.queues, .perf, .stats]
        (fun s => (x s).dropping ≠ some producer.val ∧ (x s).openBy = none ∧ first = true ∧
          (x s).words.length ≤ queueCapacity q ∧ (q = 8 ∨ (x s).words.length + n < queueCapacity q))
        (fun s t => others s t ∧ (x t).openBy = (if last then none else some producer.val) ∧ counts s t 5 1 ∧
          (last = true → counts s t 6 1) ∧
          ∃ k, (x t).words = (x s).words.drop k ++ [w] ∧ (x t).words.length + n ≤ queueCapacity q + 1 ∧
            (x t).markLost = ((x s).markLost || decide (0 < k)) ∧
            ((x s).words.length + n < queueCapacity q → k = 0))) ∧
    (∀ e ∈ [Instr.spillBlockWrite queue, .spillForced queue .write],
      Completes e [.queues, .stats] (fun s => 7 ≤ tailWords (x s) ∧ (x s).blocks < spillBlocks q) (fun s t => others s t ∧
        x t = { x s with blocks := (x s).blocks + 1 } ∧ counts s t 0x0A 1) ∧
      Completes e [] (fun s => tailWords (x s) < 7 ∨ spillBlocks q ≤ (x s).blocks) (fun _ _ => True)) ∧
    (∀ (ws : SpillWords), ∀ e ∈ [Instr.spillBlockRead queue ws, .spillForced queue (.read ws)],
      Completes e [.easel, .queues, .stats] (fun s => 0 < (x s).blocks ∧ (x s).head ≤ 25) (fun s t => others s t ∧
        (x t).blocks = (x s).blocks - 1 ∧ (x t).firstBlock = (x s).firstBlock + 1 ∧ (x t).head = (x s).head + 7 ∧
        (x t).taken = (x s).taken ∧ (x t).words.length = (x s).words.length ∧
        ∀ i w, (x s).words[i]? = some w →
          let k := i - ((x s).taken + (x s).head)
          (x t).words[i]? = some (if (x s).taken + (x s).head ≤ i ∧ k < 7 ∧ (ws.misplaced = true ∨ ws.uncorrectable.getLsbD 7 = true ∨
              ws.uncorrectable.getLsbD k = true)
            then qword w.data (isFirst w) (isLast w) true else w) ∧
        stat t 0x2310 0x0D = (stat s 0x2310 0x0D +
          ((List.range 8).filter (fun i => ws.corrected.getLsbD i && !ws.uncorrectable.getLsbD i)).length) % 2 ^ 64 ∧
        ∀ p, easelLine t p = easelLine s p) ∧
      Completes e [] (fun s => (x s).blocks = 0 ∨ 25 < (x s).head) (fun _ _ => True)) ∧
    (∀ via,
      (q < 8 → Rejects (.queueFlush via queue) via .maintainer 0x2D03 (0x2D10 + q) 0x0D (fun _ _ => True)) ∧
      (8 ≤ q → Serves (.queueFlush via queue) via .maintainer [.mgmt, .folio, .ledger, .ports, .queues, .stats, .out]
        (fun _ s => q = 8 ∨ (portOf s (q - 9)).heldEvents = [])
        (fun _ s t => others s t ∧ (x t).words = [] ∧ (x t).taken = 0 ∧ (x t).notices = 0 ∧ (x t).cleared = [] ∧
          (x t).openBy = none ∧ (x t).dropping = (x s).openBy ∧
          (x t).mark = ((x s).mark + (x s).words.length) % queueCapacity q ∧ counts s t 7 (packetsIn (x s).words) ∧
          (9 ≤ q → (portOf t (q - 9)).events = []) ∧
          LogsEvent 0x2D03 (leBytes 1 q ++ satBytes 4 (packetsIn (x s).words)) s t)))) ∧
  Completes .timeMark [.queues, .perf, .stats]
    (fun s => s.sys.corePll = true ∧ (queueOf s 8).words.length + 2 < queueCapacity 8)
    (fun s t => (∀ i, i ≠ 8 → queueOf t i = queueOf s i) ∧
      (queueOf t 8).words = (queueOf s 8).words ++
        [qword (2 ^ 56 + 2 * 2 ^ 48 + nowNs s % 2 ^ 40) true false false, qword (nowNs s) false true false] ∧
      stat t 0x2D18 6 = (stat s 0x2D18 6 + 1) % 2 ^ 64) ∧
  Completes .timeMark [] (fun s => s.sys.corePll = false) (fun _ _ => True) ∧
  (∀ (via : Via) (s : State) (n : Nat) (s' : State), Ready s via .observer n s' →
    let waiting := (queueOf s' 8).words.drop (queueOf s' 8).taken
    (telemetryChannel s' = none → ∃ t,
      exec (.tqRead via) s = .next (accept t via n (plainTag via)
        ((List.range 8).flatMap (fun i => leBytes 8 ((waiting.map (·.data)).getD i 0)))) ∧
      Frame [.queues, .stats] s' t ∧ (queueOf t 8).words = waiting.drop 8 ∧ (queueOf t 8).taken = 0 ∧
      (queueOf t 8).markLost = false ∧ ∀ i, i ≠ 8 → queueOf t i = queueOf s' i) ∧
    ((telemetryChannel s').isSome = true → exec (.tqRead via) s =
      .next (reject s' via n (plainTag via) 0x2D04 0x2D20 1 false)))

/-- R402. The next queued page write is of the first class the device state allows; one that runs is never interrupted. R403. None
starts in Warn or Varnish, nor below the comparator; in Varnished the epilogue then ends in Standby, the reserve bled. R406, R490. An update
of a section begins with the copy of the lower sequence number; one for a layout commit writes the layout objects' values alone. R405. A page write whose read-back differs is repeated once; a second
difference is counted and logged. When it agrees the array holds its bytes, and the item is done: a Ledger page's records are no longer
pending, a tally's pending count is one less. R411. A user write is queued as one page write, unless it crosses a page or the device
is in shutdown. -/
def Obligations.FolioPageWrites : Prop :=
  let idle := fun (s : State) => s.folio.running = none ∧ comparatorOk s = true
  let starts := fun (it it' : FolioItem) (p : Nat × List Byte) (ps : List (Nat × List Byte)) (s t : State) =>
    t.folio.running = some { addr := p.1, bytes := p.2, repeated := false, item := { it' with pages := ps, begun := true } } ∧
    t.folio.queue = s.folio.queue.erase it ∧ t.folio.bytes = s.folio.bytes ∧
    ∀ i ∈ s.folio.queue, classAllowed s i.cls = true → classRank s it.cls ≤ classRank s i.cls
  let held := fun (job : PageJob) (readBack : List Byte) (s t : State) => ∀ a, tabGet dFolio t.folio.bytes a =
    if job.addr ≤ a ∧ a < job.addr + readBack.length then readBack.getD (a - job.addr) 0 else tabGet dFolio s.folio.bytes a
  (∀ (it : FolioItem) (p : Nat × List Byte) (ps : List (Nat × List Byte)),
    Completes .pageWrite [.folio] (fun s => idle s ∧ nextItem s = some it ∧ realPages s it.pages = p :: ps) (starts it it p ps) ∧
    (∀ k seq copy,
      let first := fun (s : State) => if sectionSeq s 1 k < sectionSeq s 0 k then 1 else 0
      let next := fun (s : State) => max (sectionSeq s 0 k) (sectionSeq s 1 k) + 1
      Completes .pageWrite [.folio]
        (fun s => idle s ∧ nextItem s = some it ∧ it.task = .parameter k 0 seq copy ∧ it.pages = [] ∧
          realPages s (sectionPages (first s) k (sectionContent s k)) = p :: ps)
        (fun s t => starts it { it with task := .parameter k 1 (next s) (first s) } p ps s t) ∧
      Completes .pageWrite [.folio]
        (fun s => idle s ∧ nextItem s = some it ∧ it.task = .parameter k 5 seq copy ∧ it.pages = [] ∧
          realPages s (sectionPages (first s) k (layoutContent s k)) = p :: ps)
        (fun s t => starts it { it with task := .parameter k 1 (next s) (first s) } p ps s t))) ∧
  Completes .pageWrite [] (fun s => s.folio.running.isSome = true ∨ s.sys.dev = .warn ∨ s.sys.dev = .varnish ∨
    (comparatorOk s = false ∧ s.sys.dev ≠ .varnished)) (fun _ _ => True) ∧
  Completes .pageWrite [.sys, .folio, .reserve]
    (fun s => s.folio.running = none ∧ s.sys.dev = .varnished ∧ s.folio.epilogueOver = false ∧
      (comparatorOk s = false ∨ nextItem s = none))
    (fun s t => t.sys.dev = .standby ∧ t.folio.epilogueOver = true ∧ t.folio.queue = s.folio.queue ∧
      t.reserve.bleedEn = true ∧ t.reserve.chgEn = false) ∧
  (∀ (readBack : List Byte) (job : PageJob),
    let done := Instr.pageWriteComplete readBack
    let runs := fun (s : State) => s.folio.running = some job ∧ readBack.length = job.bytes.length
    let counted := fun (s t : State) => stat t 0x3100 3 = (stat s 0x3100 3 + 1) % 2 ^ 64
    Completes done [] (fun s => s.folio.running = none ∧ s.sys.dev ≠ .varnished) (fun _ _ => True) ∧
    Completes done [.folio, .stats] (fun s => runs s ∧ readBack ≠ job.bytes ∧ job.repeated = false) (fun s t =>
      t.folio.running = some { job with repeated := true } ∧ t.folio.queue = s.folio.queue ∧ held job readBack s t ∧
      counted s t) ∧
    Completes done [.folio, .ledger, .stats]
      (fun s => runs s ∧ readBack ≠ job.bytes ∧ job.repeated = true ∧ s.sys.dev ≠ .varnished ∧
        ∀ k p q c, job.item.task ≠ .parameter k p q c)
      (fun s t => t.folio.running = none ∧ held job readBack s t ∧
        t.folio.queue = (if job.item.pages = [] then [] else [job.item]) ++ s.folio.queue ∧ counted s t ∧
        stat t 0x3100 5 = (stat s 0x3100 5 + 1) % 2 ^ 32 ∧ LogsEvent 0x3104 (leBytes 3 job.addr) s t) ∧
    Completes done [.folio, .ledger, .stats]
      (fun s => runs s ∧ readBack = job.bytes ∧ s.sys.dev ≠ .varnished ∧ job.item.pages = [] ∧
        (job.item.task = .userPage ∨ (∃ i, job.item.task = .tally i) ∨ ∃ seqs, job.item.task = .ledger seqs))
      (fun s t => t.folio.running = none ∧ t.folio.queue = s.folio.queue ∧ held job readBack s t ∧ counted s t ∧
        t.ledger = (match job.item.task with
          | .ledger seqs => { s.ledger with pending := s.ledger.pending.filter (fun r => !seqs.contains r.seq) }
          | _ => s.ledger) ∧
        ∀ i, tabGet dNat t.folio.tallyPending i =
          tabGet dNat s.folio.tallyPending i - (if job.item.task = .tally i then 1 else 0))) ∧
  ∀ (via : Via) (data : List Byte),
    let at0 := fun (n : Nat) (s : State) => (sessionOf s n).userAddress
    1 ≤ data.length → data.length ≤ 64 →
    Serves (.userDataWrite via data) via .operator [.folio]
      (fun n s => at0 n s % 64 + data.length ≤ 64 ∧ inShutdown s = false)
      (fun n s t => t.folio = { s.folio with
        queue := s.folio.queue ++ [{ cls := 5, task := .userPage, pages := [(0x5E000 + at0 n s, data)] }] }) ∧
    Rejects (.userDataWrite via data) via .operator 0x3103 0x3110 2 (fun n s => 64 < at0 n s % 64 + data.length) ∧
    Rejects (.userDataWrite via data) via .operator 0x3105 0x3110 2
      (fun n s => at0 n s % 64 + data.length ≤ 64 ∧ inShutdown s = true)

/-- R414. An hour tally adds one to its pending count while its condition holds. R412, R414. A tally with a pending count queues one
increment at a time, of the one cell its count names, and none once saturated (R413). R412. Whatever the four bytes of that cell hold
after the page write, a tally whose sixteen cells were in order reads as its old count or one more, and as one more when the cell
holds what was written. -/
def Obligations.Tallies : Prop :=
  ∀ (tally : Byte),
    let i := tally.toNat
    let idle := fun (s : State) => (∀ it ∈ s.folio.queue, it.task ≠ .tally i) ∧
      ∀ j, s.folio.running = some j → j.item.task ≠ .tally i
    let cell := fun (n : Nat) => 0x50000 + 64 * i + 4 * (n % 16)
    Completes (.hourTally tally) [.folio] (fun s => hourHolds s i = true) (fun s t =>
      tabGet dNat t.folio.tallyPending i = min (tabGet dNat s.folio.tallyPending i + 1) 65535 ∧
      (∀ k, k ≠ i → tabGet dNat t.folio.tallyPending k = tabGet dNat s.folio.tallyPending k) ∧
      t.folio.bytes = s.folio.bytes ∧ t.folio.queue = s.folio.queue) ∧
    Completes (.hourTally tally) [] (fun s => hourHolds s i = false) (fun _ _ => True) ∧
    Completes (.tallyIncrement tally) [.folio]
      (fun s => tabGet dNat s.folio.tallyPending i ≠ 0 ∧ idle s ∧ tallyCount s i < 0xFFFFFFF0)
      (fun s t => t.folio = { s.folio with queue := s.folio.queue ++ [{
        cls := 6, task := .tally i, pages := [(cell (tallyCount s i), leBytes 4 (tallyCount s i + 16))] }] }) ∧
    Completes (.tallyIncrement tally) []
      (fun s => tabGet dNat s.folio.tallyPending i = 0 ∨ 0xFFFFFFF0 ≤ tallyCount s i ∨ ∃ it ∈ s.folio.queue, it.task = .tally i)
      (fun _ _ => True) ∧
    ∀ (s : State) (n : Nat) (job : PageJob) (readBack : List Byte), n < 0xFFFFFFF0 →
      (∀ j, j < 16 → tallyCell s i j = tallyExpected (n + 15) j) → tallyCount s i = n ∧
      (s.folio.running = some job → job.item.task = .tally i → job.item.pages = [] → job.addr = cell n →
        job.bytes = leBytes 4 (n + 16) → readBack.length = 4 → s.sys.dev ≠ .varnished →
        ∃ t, exec (.pageWriteComplete readBack) s = .next t ∧ (tallyCount t i = n ∨ tallyCount t i = n + 1) ∧
          (readBack = job.bytes → tallyCount t i = n + 1))

/-- R417, R419. An event the rate limit lets through takes the next sequence number and joins the pending buffer; the one for the last
slot is recorded as 0x3181 with its own code as data, and from then on, as with a full buffer, an event is counted in tally 151 only.
R418. An event beyond its code's limit is suppressed and counted; at the end of a window each suppressed code gives a summary, the
shared count an event 0x3183, and trackers of codes without an event are freed. R420. A clear moves the mark, reserves its record's
number and discards what is pending; it is refused in progress and in shutdown. R421. A window read returns up to eight records from the
session's cursor, which moves past them. -/
def Obligations.LedgerRecords : Prop :=
  (∀ (s : State) (code : Nat) (data : List Byte),
    let t := (ledgerRecord s code data).1
    let passes := neverLimited code = true ∨
      (∃ r, s.ledger.trackers.find? (fun r => r.code == code) = some r ∧ r.made < forceN s 0x3180 6) ∨
      ((∀ r ∈ s.ledger.trackers, r.code ≠ code) ∧ s.ledger.trackers.length < 128)
    let q := s.ledger.lastSeq + 1
    let flags := devNum s.sys.dev + 16 * bnat s.ledger.firstSincePor
    (passes → s.ledger.full = false → s.ledger.pending.length < 64 →
      Frame [.ledger] s t ∧ t.ledger.lastSeq = q ∧ t.ledger.full = decide (q = s.ledger.mark + 6144) ∧
      t.ledger.pending = s.ledger.pending ++ [if q = s.ledger.mark + 6144
        then { seq := q, code := 0x3181, time := nowNs s, data := padTo 11 (leBytes 2 code), flags := flags }
        else { seq := q, code := code, time := nowNs s, data := padTo 11 data, flags := flags }]) ∧
    (passes → s.ledger.full = true ∨ 64 ≤ s.ledger.pending.length →
      Frame [.folio, .ledger] s t ∧ t.ledger.lastSeq = s.ledger.lastSeq ∧ t.ledger.pending = s.ledger.pending ∧
      tabGet dNat t.folio.tallyPending 151 = min (tabGet dNat s.folio.tallyPending 151 + 1) 65535) ∧
    (¬ passes → Frame [.ledger, .stats] s t ∧ t.ledger.lastSeq = s.ledger.lastSeq ∧ t.ledger.pending = s.ledger.pending ∧
      stat t 0x3180 0x0A = (stat s 0x3180 0x0A + 1) % 2 ^ 64 ∧
      ((∀ r ∈ s.ledger.trackers, r.code ≠ code) → t.ledger.sharedSuppressed = s.ledger.sharedSuppressed + 1))) ∧
  Completes .rateLimitWindow [.sys, .folio, .ledger] (fun _ => True) (fun s t =>
    let cut := s.ledger.trackers.filter (fun r => decide (0 < r.suppressed))
    let shared := s.ledger.sharedSuppressed
    let raised := cut.map (fun r => (r.code, padTo 11 (leBytes 4 r.suppressed), true)) ++
      (if 0 < shared then [(0x3183, padTo 11 (satBytes 4 shared), false)] else [])
    t.ledger.sharedSuppressed = 0 ∧ forceN t 0x3180 6 = settingN s 0x3180 6 ∧
    t.ledger.trackers = (s.ledger.trackers.filter (fun r => decide (0 < r.made ∨ 0 < r.suppressed))).map
      (fun r => { r with made := 0, suppressed := 0 }) ∧
    (s.ledger.full = false → s.ledger.pending.length + raised.length ≤ 64 →
      s.ledger.lastSeq + raised.length < s.ledger.mark + 6144 →
      t.ledger.lastSeq = s.ledger.lastSeq + raised.length ∧ t.ledger.pending.take s.ledger.pending.length = s.ledger.pending ∧
      (t.ledger.pending.drop s.ledger.pending.length).map (fun r => (r.code, r.data, bitOf r.flags 3)) = raised)) ∧
  ∀ (via : Via),
    Serves (.ledgerClear via) via .maintainer [.folio, .ledger] (fun _ s => s.ledger.clearing = none ∧ inShutdown s = false)
      (fun _ s t =>
        let m := s.ledger.lastSeq
        t.ledger = { s.ledger with
          mark := m, lastSeq := m + 1, full := false, clearing := some m,
          pending := s.ledger.pending.filter (fun r => m < r.seq) } ∧
        tabGetList dImage t.folio.image 0x9FF8 8 = leBytes 8 m ∧
        (∃ it ∈ t.folio.queue, sectionWaits 9 it = true ∧ it.cls ≤ 2) ∧ t.folio.bytes = s.folio.bytes) ∧
    Rejects (.ledgerClear via) via .maintainer 0x3104 0x3180 8 (fun _ s => s.ledger.clearing.isSome = true) ∧
    Rejects (.ledgerClear via) via .maintainer 0x3105 0x3180 8
      (fun _ s => s.ledger.clearing = none ∧ inShutdown s = true) ∧
    ∀ (s : State) (n : Nat) (s' : State), Ready s via .observer n s' →
      ∃ (t : State) (rs : List (List Byte × Bool)),
        let cursor := (sessionOf s' n).cursor
        let start := max cursor (s'.ledger.mark + 1)
        let flags := bnat (decide (cursor ≤ s'.ledger.mark)) + 2 * bnat s'.ledger.full + 4 * bnat (rs.any (·.2))
        exec (.ledgerWindowRead via) s = .next (accept t via n (plainTag via) (padTo 264 (leBytes 6 (if rs = [] then 0 else start)
          ++ leBytes 1 rs.length ++ leBytes 1 flags ++ rs.flatMap (·.1)))) ∧
        Frame [.mgmt, .stats] s' t ∧ SessionsKept n s' t ∧
        sessionOf t n = { sessionOf s' n with cursor := if rs = [] then cursor else start + rs.length } ∧
        rs.length ≤ 8 ∧ (∀ k, k < rs.length → recordAt s' (start + k) = rs[k]?) ∧
        (rs.length < 8 → s'.ledger.clearing.isSome = true ∨ recordAt s' (start + rs.length) = none) ∧
        (s'.ledger.clearing.isSome = true → rs = [])

/-- R456. A write to RunControl stops or starts the counters and changes no counter. R458. Ones written to a block's WrapSticky clear
those bits of that block alone. R459. A dump pushes thirteen packets of eleven words to the telemetry queue, each with its header, the
block's eight counters, their event numbers, and the sticky byte and modes; none while no dump interval is set. -/
def Obligations.PerformanceControl : Prop :=
  (∀ (via : Via) (on : Bool), Serves (.runControl via on) via .operator [.perf] (fun _ _ => True)
    (fun _ s t => t.perf = { s.perf with run := on })) ∧
  (∀ (via : Via) (block : Fin 13) (mask : Byte),
    Serves (.wrapStickyClear via block mask) via .operator [.perf] (fun _ _ => True)
      (fun _ s t => t.perf = { s.perf with sticky := t.perf.sticky } ∧ ∀ b n, n < 8 →
        tabGet dBool t.perf.sticky (8 * b + n) =
          (tabGet dBool s.perf.sticky (8 * b + n) && !(decide (b = block.val) && mask.getLsbD n)))) ∧
  Completes .counterDump [.queues, .stats]
    (fun s => settingN s 0x3200 5 ≠ 0 ∧ (queueOf s 8).words.length + 143 < queueCapacity 8)
    (fun s t => (∀ i, i ≠ 8 → queueOf t i = queueOf s i) ∧ (queueOf t 8).words.length = (queueOf s 8).words.length + 143 ∧
      (∀ i, i < (queueOf s 8).words.length → (queueOf t 8).words[i]? = (queueOf s 8).words[i]?) ∧
      stat t 0x2D18 6 = (stat s 0x2D18 6 + 13) % 2 ^ 64 ∧
      ∀ b j, b < 13 → j < 11 → (queueOf t 8).words[(queueOf s 8).words.length + 11 * b + j]? = some (qword
        (if j = 0 then 4 * 2 ^ 56 + 11 * 2 ^ 48 + (0x10 + b) * 2 ^ 40 + nowNs s % 2 ^ 40
          else if j ≤ 8 then tabGet dNat s.perf.counters (8 * b + (j - 1))
          else (dumpPacket s b).getD (j - 1) 0) (j == 0) (j == 10) false) ∧
        ∀ k, k < 8 → (dumpPacket s b).getD 8 0 / 256 ^ k % 256 = eventSelect s b k % 256 ∧
          bitOf ((dumpPacket s b).getD 9 0) k = tabGet dBool s.perf.sticky (8 * b + k) ∧
          (dumpPacket s b).getD 9 0 / 2 ^ (8 + 2 * k) % 4 = eventSelect s b k / 256 % 4) ∧
  Completes .counterDump [] (fun s => settingN s 0x3200 5 = 0) (fun _ _ => True)

/-- The block's interface, and log entry 1 (DESIGN CHOICE). Step with a command at the front of the queue is that command's effect on
the state with the queue's rest. With an empty queue one core cycle passes, or one always-on tick while the core clock is off (R386):
the time base moves on by it and nothing waits. The opcode table gives no bits, so no word spells a command. -/
def Obligations.StepTakesTheFront : Prop :=
  (∀ (c : Instr) (rest : List Instr) (s : State), s.pending = c :: rest → step s = exec c { s with pending := rest }) ∧
  (∀ s : State, s.pending = [] → ∃ t, step s = .next t ∧ t.pending = [] ∧
    t.sys.time = s.sys.time + (if s.sys.corePll = true then 40 else 1953125)) ∧
  ∀ (s : State) (nbits w : Nat), decodeTableWord nbits w = none ∧ s.withFetchWord nbits w = s

/-- The spec gives every row of the command table an effect, so no command of the model stops: in every state it answers a next state,
with the same commands waiting. What each does is the matter of the other statements. -/
def Obligations.EveryCommandCompletes : Prop :=
  ∀ (c : Instr) (s : State), ∃ t, exec c s = .next t ∧ t.pending = s.pending

/-- R4, R386. After the power-on reset of the always-on domain the device is in Standby, its time base at 0 and the core clock off. R430.
Every session is free, at Observer, with nothing staged. R446. The node-ID is 64, the CAN node Pre-operational. R417, R414, R412. No
Ledger number is assigned, every tally stands at 0, and the power-on reset itself is pending in tally 152. Only the VAON branch is
enabled. R122, R124, R130. The reserve charges, nothing is budgeted, write-through holds. R334. Every queue is empty, its pointers at 0.
R381. No shutdown has been seen. Settings and statistics stand at their defaults, and no line of Easel or Palette is valid. -/
def Obligations.ResetState : Prop :=
  let s := State.reset
  s.pending = [] ∧ s.sys.dev = .standby ∧ s.sys.time = 0 ∧ s.sys.corePll = false ∧ s.sys.memoryActive = false ∧
  (∀ n, (sessionOf s n).client = none ∧ (sessionOf s n).level = .observer ∧ (sessionOf s n).staged = []) ∧
  s.mgmt.nmt = .preOperational ∧ s.mgmt.nodeId = 64 ∧ s.mgmt.errorHistory = [] ∧ s.mgmt.dynamicAddress = 0 ∧
  s.ledger.lastSeq = 0 ∧ s.ledger.pending = [] ∧ s.ledger.full = false ∧ s.folio.queue = [] ∧ s.folio.running = none ∧
  (∀ i, i < 192 → tallyCount s i = 0 ∧ tabGet dNat s.folio.tallyPending i = if i = 152 then 1 else 0) ∧
  (∀ r, (railOf s r).enabled = decide (r = 5)) ∧ s.power.lockout = false ∧ s.power.failedStarts = 0 ∧
  s.reserve.status = 1 ∧ s.reserve.budget = 0 ∧ s.reserve.deviceShare = 0 ∧ s.reserve.writeThrough = true ∧
  s.reserve.bleedEn = true ∧ s.thermal.level = 0 ∧ s.thermal.fault = false ∧ s.sys.lastEpilogue = 0xFF ∧
  (∀ q, (queueOf s q).words = [] ∧ (queueOf s q).mark = 0 ∧ (queueOf s q).taken = 0 ∧ (queueOf s q).markLost = false) ∧
  (∀ idx sub, setting s idx sub = objDefault (objKey idx sub) ∧ stat s idx sub = objDefault (objKey idx sub)) ∧
  (∀ place, (easelLine s place).valid = false) ∧ s.out = []

/-- The table of the medium is in its canonical form (the model's own representation), and no session holds Maintainer level
(R428). -/
def Obligations.ResetInvariants : Prop :=
  MediumCanonical State.reset ∧ MaintainerGuarded State.reset

/-- The canonical form is the representation of the model. Whatever command the block takes, or idles, the patches it has written to its stacks stay one table of rising
addresses in which no entry equals what an unwritten patch reads as: every path that programs tiles (destages, moves, gap steps, remaps,
writebacks, journal tiles, anchors, rebuilds, Glazing) goes through the one write that keeps it, and nothing else reaches the medium. -/
def Obligations.EveryStepKeepsTheMedium : Prop :=
  ∀ s t : State, MediumCanonical s → step s = .next t → MediumCanonical t

/-- R427, R428, R430. Over every command of the block, and over time: a level request grants Maintainer only while the pin is low, the
pin's rise takes the level from every session that holds it, and a session is bound and released at Observer. -/
def Obligations.EveryStepGuardsMaintainer : Prop :=
  ∀ s t : State, MaintainerGuarded s → step s = .next t → MaintainerGuarded t

/-- R416, R417, R420. The sequence number is never reused: whatever the block does, the last number assigned does not fall, not at a
clear, and not at a recall, which takes the highest the array holds (R407); only the power-on reset of the always-on domain, which loses
the pending records, starts again from the array. -/
def Obligations.LedgerNumbersNeverFall : Prop :=
  ∀ s t : State, (∀ c ∈ s.pending.head?, ∀ torn, c ≠ .aonPor torn) → step s = .next t → s.ledger.lastSeq ≤ t.ledger.lastSeq
end

