-- ==== Sys2Proof/Laws/Frame.lean ====
section
/-! SUPPORT. Laws/Frame.lean: how frames compose, and what a change of one unit keeps. -/
namespace Sys2Proof.Machine

/-- Whether every unit of one list is in another. -/
def unitsIn (a b : List UnitName) : Bool := a.all (fun u => b.contains u)

theorem Frame.refl (U : List UnitName) (s : State) : Frame U s s := by
  intro u _; cases u <;> rfl

theorem Frame.trans {U : List UnitName} {s t r : State} (h : Frame U s t) (k : Frame U t r) : Frame U s r := by
  intro u hu
  have a := h u hu
  have b := k u hu
  cases u <;> simp only [sameUnit] at * <;> rw [b, a]

theorem Frame.mono {U V : List UnitName} {s t : State} (h : Frame U s t) (hs : unitsIn U V = true) : Frame V s t := by
  intro u hu
  apply h u
  intro hm
  apply hu
  simp only [unitsIn, List.all_eq_true, List.contains_iff_mem] at hs
  exact hs u hm

theorem Frame.step {U V : List UnitName} {s x y : State} (hf : Frame U x y) (h : Frame V s x)
    (hs : unitsIn U V = true) : Frame V s y :=
  Frame.trans h (Frame.mono hf hs)

theorem Frame.foldl {α : Type} {U : List UnitName} {s x : State} {f : State → α → State} {l : List α}
    (hf : ∀ x a, Frame U x (f x a)) (h : Frame U s x) : Frame U s (l.foldl f x) := by
  induction l generalizing x with
  | nil => exact h
  | cons a l ih => exact ih (Frame.trans h (hf x a))

theorem Frame.ite {U : List UnitName} {s a b : State} {c : Prop} [Decidable c] (ha : Frame U s a) (hb : Frame U s b) :
    Frame U s (if c then a else b) := by
  split
  · exact ha
  · exact hb

theorem Frame.ofFst {β : Type} {U V : List UnitName} {s x y : State} {b : β} {p : State × β} (hf : Frame U x p.1)
    (e : p = (y, b)) (h : Frame V s x) (hs : unitsIn U V = true) : Frame V s y := by
  subst e
  exact Frame.step hf h hs

theorem Frame.ofSnd {β : Type} {U V : List UnitName} {s x y : State} {b : β} {p : β × State} (hf : Frame U x p.2)
    (e : p = (b, y)) (h : Frame V s x) (hs : unitsIn U V = true) : Frame V s y := by
  subst e
  exact Frame.step hf h hs

theorem Frame.ofOk {U V : List UnitName} {s x y : State} {p : Except Nat State}
    (hf : ∀ t, p = .ok t → Frame U x t) (e : p = .ok y) (h : Frame V s x) (hs : unitsIn U V = true) : Frame V s y :=
  Frame.step (hf y e) h hs

theorem Frame.ofOkSnd {β : Type} {U V : List UnitName} {s x y : State} {b : β} {p : Except Nat (β × State)}
    (hf : ∀ q, p = .ok q → Frame U x q.2) (e : p = .ok (b, y)) (h : Frame V s x) (hs : unitsIn U V = true) :
    Frame V s y :=
  Frame.step (hf _ e) h hs

theorem Frame.ofSome {U V : List UnitName} {s x y : State} {p : Option State}
    (hf : ∀ t, p = some t → Frame U x t) (e : p = some y) (h : Frame V s x) (hs : unitsIn U V = true) : Frame V s y :=
  Frame.step (hf y e) h hs

theorem Frame.ofSomeFst {β : Type} {U V : List UnitName} {s x y : State} {b : β} {p : Option (State × β)}
    (hf : ∀ q, p = some q → Frame U x q.1) (e : p = some (y, b)) (h : Frame V s x) (hs : unitsIn U V = true) :
    Frame V s y :=
  Frame.step (hf _ e) h hs

theorem Frame.ofSomeSnd {β : Type} {U V : List UnitName} {s x y : State} {b : β} {p : Option (β × State)}
    (hf : ∀ q, p = some q → Frame U x q.2) (e : p = some (b, y)) (h : Frame V s x) (hs : unitsIn U V = true) :
    Frame V s y :=
  Frame.step (hf _ e) h hs

theorem Frame.upd_sys {U : List UnitName} {s x : State} {v} (h : Frame U s x) (hs : unitsIn [.sys] U = true) :
    Frame U s { x with sys := v } := by
  refine Frame.step (U := [.sys]) ?_ h hs
  intro u hu; cases u <;> first | rfl | exact absurd (by simp) hu

theorem Frame.upd_mgmt {U : List UnitName} {s x : State} {v} (h : Frame U s x) (hs : unitsIn [.mgmt] U = true) :
    Frame U s { x with mgmt := v } := by
  refine Frame.step (U := [.mgmt]) ?_ h hs
  intro u hu; cases u <;> first | rfl | exact absurd (by simp) hu

theorem Frame.upd_folio {U : List UnitName} {s x : State} {v} (h : Frame U s x) (hs : unitsIn [.folio] U = true) :
    Frame U s { x with folio := v } := by
  refine Frame.step (U := [.folio]) ?_ h hs
  intro u hu; cases u <;> first | rfl | exact absurd (by simp) hu

theorem Frame.upd_ledger {U : List UnitName} {s x : State} {v} (h : Frame U s x) (hs : unitsIn [.ledger] U = true) :
    Frame U s { x with ledger := v } := by
  refine Frame.step (U := [.ledger]) ?_ h hs
  intro u hu; cases u <;> first | rfl | exact absurd (by simp) hu

theorem Frame.upd_power {U : List UnitName} {s x : State} {v} (h : Frame U s x) (hs : unitsIn [.power] U = true) :
    Frame U s { x with power := v } := by
  refine Frame.step (U := [.power]) ?_ h hs
  intro u hu; cases u <;> first | rfl | exact absurd (by simp) hu

theorem Frame.upd_reserve {U : List UnitName} {s x : State} {v} (h : Frame U s x) (hs : unitsIn [.reserve] U = true) :
    Frame U s { x with reserve := v } := by
  refine Frame.step (U := [.reserve]) ?_ h hs
  intro u hu; cases u <;> first | rfl | exact absurd (by simp) hu

theorem Frame.upd_thermal {U : List UnitName} {s x : State} {v} (h : Frame U s x) (hs : unitsIn [.thermal] U = true) :
    Frame U s { x with thermal := v } := by
  refine Frame.step (U := [.thermal]) ?_ h hs
  intro u hu; cases u <;> first | rfl | exact absurd (by simp) hu

theorem Frame.upd_channels {U : List UnitName} {s x : State} {v} (h : Frame U s x) (hs : unitsIn [.channels] U = true) :
    Frame U s { x with channels := v } := by
  refine Frame.step (U := [.channels]) ?_ h hs
  intro u hu; cases u <;> first | rfl | exact absurd (by simp) hu

theorem Frame.upd_ports {U : List UnitName} {s x : State} {v} (h : Frame U s x) (hs : unitsIn [.ports] U = true) :
    Frame U s { x with ports := v } := by
  refine Frame.step (U := [.ports]) ?_ h hs
  intro u hu; cases u <;> first | rfl | exact absurd (by simp) hu

theorem Frame.upd_groups {U : List UnitName} {s x : State} {v} (h : Frame U s x) (hs : unitsIn [.groups] U = true) :
    Frame U s { x with groups := v } := by
  refine Frame.step (U := [.groups]) ?_ h hs
  intro u hu; cases u <;> first | rfl | exact absurd (by simp) hu

theorem Frame.upd_easel {U : List UnitName} {s x : State} {v} (h : Frame U s x) (hs : unitsIn [.easel] U = true) :
    Frame U s { x with easel := v } := by
  refine Frame.step (U := [.easel]) ?_ h hs
  intro u hu; cases u <;> first | rfl | exact absurd (by simp) hu

theorem Frame.upd_palette {U : List UnitName} {s x : State} {v} (h : Frame U s x) (hs : unitsIn [.palette] U = true) :
    Frame U s { x with palette := v } := by
  refine Frame.step (U := [.palette]) ?_ h hs
  intro u hu; cases u <;> first | rfl | exact absurd (by simp) hu

theorem Frame.upd_crypt {U : List UnitName} {s x : State} {v} (h : Frame U s x) (hs : unitsIn [.crypt] U = true) :
    Frame U s { x with crypt := v } := by
  refine Frame.step (U := [.crypt]) ?_ h hs
  intro u hu; cases u <;> first | rfl | exact absurd (by simp) hu

theorem Frame.upd_directory {U : List UnitName} {s x : State} {v} (h : Frame U s x) (hs : unitsIn [.directory] U = true) :
    Frame U s { x with directory := v } := by
  refine Frame.step (U := [.directory]) ?_ h hs
  intro u hu; cases u <;> first | rfl | exact absurd (by simp) hu

theorem Frame.upd_queues {U : List UnitName} {s x : State} {v} (h : Frame U s x) (hs : unitsIn [.queues] U = true) :
    Frame U s { x with queues := v } := by
  refine Frame.step (U := [.queues]) ?_ h hs
  intro u hu; cases u <;> first | rfl | exact absurd (by simp) hu

theorem Frame.upd_barrow {U : List UnitName} {s x : State} {v} (h : Frame U s x) (hs : unitsIn [.barrow] U = true) :
    Frame U s { x with barrow := v } := by
  refine Frame.step (U := [.barrow]) ?_ h hs
  intro u hu; cases u <;> first | rfl | exact absurd (by simp) hu

theorem Frame.upd_perf {U : List UnitName} {s x : State} {v} (h : Frame U s x) (hs : unitsIn [.perf] U = true) :
    Frame U s { x with perf := v } := by
  refine Frame.step (U := [.perf]) ?_ h hs
  intro u hu; cases u <;> first | rfl | exact absurd (by simp) hu

theorem Frame.upd_path {U : List UnitName} {s x : State} {v} (h : Frame U s x) (hs : unitsIn [.path] U = true) :
    Frame U s { x with path := v } := by
  refine Frame.step (U := [.path]) ?_ h hs
  intro u hu; cases u <;> first | rfl | exact absurd (by simp) hu

theorem Frame.upd_settings {U : List UnitName} {s x : State} {v} (h : Frame U s x) (hs : unitsIn [.settings] U = true) :
    Frame U s { x with settings := v } := by
  refine Frame.step (U := [.settings]) ?_ h hs
  intro u hu; cases u <;> first | rfl | exact absurd (by simp) hu

theorem Frame.upd_stats {U : List UnitName} {s x : State} {v} (h : Frame U s x) (hs : unitsIn [.stats] U = true) :
    Frame U s { x with stats := v } := by
  refine Frame.step (U := [.stats]) ?_ h hs
  intro u hu; cases u <;> first | rfl | exact absurd (by simp) hu

theorem Frame.upd_draws {U : List UnitName} {s x : State} {v} (h : Frame U s x) (hs : unitsIn [.draws] U = true) :
    Frame U s { x with draws := v } := by
  refine Frame.step (U := [.draws]) ?_ h hs
  intro u hu; cases u <;> first | rfl | exact absurd (by simp) hu

theorem Frame.upd_out {U : List UnitName} {s x : State} {v} (h : Frame U s x) (hs : unitsIn [.out] U = true) :
    Frame U s { x with out := v } := by
  refine Frame.step (U := [.out]) ?_ h hs
  intro u hu; cases u <;> first | rfl | exact absurd (by simp) hu

theorem Frame.upd_pending {U : List UnitName} {s x : State} {v} (h : Frame U s x) (hs : unitsIn [.pending] U = true) :
    Frame U s { x with pending := v } := by
  refine Frame.step (U := [.pending]) ?_ h hs
  intro u hu; cases u <;> first | rfl | exact absurd (by simp) hu

/-- A result, if there is one, keeps the frame. -/
def FrameE (U : List UnitName) (s : State) (e : Except Nat State) : Prop := ∀ t, e = .ok t → Frame U s t

theorem FrameE.ok {U : List UnitName} {s t : State} (h : Frame U s t) : FrameE U s (.ok t) := by
  intro t' e; cases e; exact h

theorem FrameE.error {U : List UnitName} {s : State} {d : Nat} : FrameE U s (.error d) := by
  intro t' e; cases e

theorem FrameE.ite {U : List UnitName} {s : State} {a b : Except Nat State} {c : Prop} [Decidable c]
    (ha : FrameE U s a) (hb : FrameE U s b) : FrameE U s (if c then a else b) := by
  split
  · exact ha
  · exact hb

theorem FrameE.step {U V : List UnitName} {s x : State} {e : Except Nat State} (hf : FrameE U x e) (h : Frame V s x)
    (hs : unitsIn U V = true) : FrameE V s e :=
  fun t ht => Frame.step (hf t ht) h hs

theorem Frame.ofE {U V : List UnitName} {s x y : State} {p : Except Nat State}
    (hf : FrameE U x p) (e : p = .ok y) (h : Frame V s x) (hs : unitsIn U V = true) : Frame V s y :=
  Frame.step (hf y e) h hs

/-- The outcome is a next state, and it keeps the frame. -/
def FrameN (U : List UnitName) (s : State) (o : Host.Outcome State Fault Refusal) : Prop :=
  ∃ t, o = .next t ∧ Frame U s t

theorem FrameN.next {U : List UnitName} {s t : State} (h : Frame U s t) : FrameN U s (.next t) := ⟨t, rfl, h⟩

theorem FrameN.ite {U : List UnitName} {s : State} {a b : Host.Outcome State Fault Refusal} {c : Prop} [Decidable c]
    (ha : FrameN U s a) (hb : FrameN U s b) : FrameN U s (if c then a else b) := by
  split
  · exact ha
  · exact hb

theorem Frame.fstIte {β : Type} {U : List UnitName} {s : State} {a b : State × β} {c : Prop} [Decidable c]
    (ha : Frame U s a.1) (hb : Frame U s b.1) : Frame U s (if c then a else b).1 := by
  split
  · exact ha
  · exact hb

theorem Frame.foldlFst {α β : Type} {U : List UnitName} {s : State} {f : State × β → α → State × β} {l : List α}
    {x : State × β} (hf : ∀ x a, Frame U x.1 (f x a).1) (h : Frame U s x.1) : Frame U s (l.foldl f x).1 := by
  induction l generalizing x with
  | nil => exact h
  | cons a l ih => exact ih (Frame.trans h (hf x a))

/-- A result, if there is one, keeps the frame in its state. -/
def FrameQ (U : List UnitName) (s : State) (e : Except Nat (List Byte × State)) : Prop :=
  ∀ q, e = .ok q → Frame U s q.2

theorem FrameQ.ok {U : List UnitName} {s : State} {q : List Byte × State} (h : Frame U s q.2) : FrameQ U s (.ok q) := by
  intro t' e; cases e; exact h

theorem FrameQ.error {U : List UnitName} {s : State} {d : Nat} : FrameQ U s (.error d) := by
  intro t' e; cases e

theorem FrameQ.ite {U : List UnitName} {s : State} {a b : Except Nat (List Byte × State)} {c : Prop} [Decidable c]
    (ha : FrameQ U s a) (hb : FrameQ U s b) : FrameQ U s (if c then a else b) := by
  split
  · exact ha
  · exact hb

theorem FrameQ.step {U V : List UnitName} {s x : State} {e : Except Nat (List Byte × State)} (hf : FrameQ U x e)
    (h : Frame V s x) (hs : unitsIn U V = true) : FrameQ V s e :=
  fun t ht => Frame.step (hf t ht) h hs

theorem Frame.ofQ {U V : List UnitName} {s x y : State} {b : List Byte} {p : Except Nat (List Byte × State)}
    (hf : FrameQ U x p) (e : p = .ok (b, y)) (h : Frame V s x) (hs : unitsIn U V = true) : Frame V s y :=
  Frame.step (hf _ e) h hs

/-- A state, if there is one, keeps the frame. -/
def FrameO (U : List UnitName) (s : State) (e : Option State) : Prop := ∀ t, e = some t → Frame U s t

theorem FrameO.some {U : List UnitName} {s t : State} (h : Frame U s t) : FrameO U s (some t) := by
  intro t' e; cases e; exact h

theorem FrameO.none {U : List UnitName} {s : State} : FrameO U s none := by
  intro t' e; cases e

theorem FrameO.step {U V : List UnitName} {s x : State} {e : Option State} (hf : FrameO U x e) (h : Frame V s x)
    (hs : unitsIn U V = true) : FrameO V s e := by
  intro t et; exact Frame.step (hf t et) h hs

theorem FrameO.map {α : Type} {U : List UnitName} {s : State} {o : Option α} {f : α → State}
    (h : ∀ x, Frame U s (f x)) : FrameO U s (o.map f) := by
  cases o with
  | none => exact FrameO.none
  | some x => exact FrameO.some (h x)

theorem Frame.elim {α : Type} {U : List UnitName} {s a : State} {o : Option α} {f : α → State} (ha : Frame U s a)
    (hf : ∀ x, Frame U s (f x)) : Frame U s (o.elim a f) := by
  cases o with
  | none => exact ha
  | some x => exact hf x

theorem FrameN.elim {α : Type} {U : List UnitName} {s : State} {a : Host.Outcome State Fault Refusal} {o : Option α}
    {f : α → Host.Outcome State Fault Refusal} (ha : FrameN U s a) (hf : ∀ x, FrameN U s (f x)) :
    FrameN U s (o.elim a f) := by
  cases o with
  | none => exact ha
  | some x => exact hf x

theorem Frame.getD {U : List UnitName} {s b : State} {o : Option State} (ho : FrameO U s o) (hb : Frame U s b) :
    Frame U s (o.getD b) := by
  cases o with
  | none => exact hb
  | some x => exact ho x rfl

theorem FrameO.ite {U : List UnitName} {s : State} {a b : Option State} {c : Prop} [Decidable c]
    (ha : FrameO U s a) (hb : FrameO U s b) : FrameO U s (if c then a else b) := by
  split
  · exact ha
  · exact hb

theorem Frame.ofO {U V : List UnitName} {s x y : State} {p : Option State}
    (hf : FrameO U x p) (e : p = Option.some y) (h : Frame V s x) (hs : unitsIn U V = true) : Frame V s y :=
  Frame.step (hf _ e) h hs

theorem FrameN.mono {U V : List UnitName} {s : State} {o : Host.Outcome State Fault Refusal} (h : FrameN U s o)
    (hs : unitsIn U V = true) : FrameN V s o := by
  obtain ⟨t, e, f⟩ := h
  exact ⟨t, e, f.mono hs⟩

theorem unitsIn_trans {U V W : List UnitName} (h : unitsIn U V = true) (k : unitsIn V W = true) : unitsIn U W = true := by
  simp only [unitsIn, List.all_eq_true, List.contains_iff_mem] at *
  exact fun u hu => k u (h u hu)

theorem Frame.many {W V : List UnitName} {s x y : State} (hd : ∀ u, u ∉ W → sameUnit u x y) (h : Frame V s x)
    (hs : unitsIn W V = true) : Frame V s y :=
  Frame.step hd h hs

theorem Frame.upd_sys_power_reserve {U : List UnitName} {s x : State} {v0} {v1} {v2} (h : Frame U s x)
    (hs : unitsIn [.sys, .power, .reserve] U = true) :
    Frame U s { x with sys := v0, power := v1, reserve := v2 } := by
  refine Frame.step (U := [.sys, .power, .reserve]) ?_ h hs
  intro u hu; cases u <;> first | rfl | exact absurd (by simp) hu

theorem Frame.upd_sys_channels_ports_groups_easel_palette_crypt_directory_queues_barrow_perf_path {U : List UnitName} {s x : State} {v0} {v1} {v2} {v3} {v4} {v5} {v6} {v7} {v8} {v9} {v10} {v11} (h : Frame U s x)
    (hs : unitsIn [.sys, .channels, .ports, .groups, .easel, .palette, .crypt, .directory, .queues, .barrow, .perf, .path] U = true) :
    Frame U s { x with sys := v0, channels := v1, ports := v2, groups := v3, easel := v4, palette := v5, crypt := v6, directory := v7, queues := v8, barrow := v9, perf := v10, path := v11 } := by
  refine Frame.step (U := [.sys, .channels, .ports, .groups, .easel, .palette, .crypt, .directory, .queues, .barrow, .perf, .path]) ?_ h hs
  intro u hu; cases u <;> first | rfl | exact absurd (by simp) hu

theorem Frame.upd_easel_crypt {U : List UnitName} {s x : State} {v0} {v1} (h : Frame U s x)
    (hs : unitsIn [.easel, .crypt] U = true) :
    Frame U s { x with easel := v0, crypt := v1 } := by
  refine Frame.step (U := [.easel, .crypt]) ?_ h hs
  intro u hu; cases u <;> first | rfl | exact absurd (by simp) hu

theorem Frame.upd_easel_palette {U : List UnitName} {s x : State} {v0} {v1} (h : Frame U s x)
    (hs : unitsIn [.easel, .palette] U = true) :
    Frame U s { x with easel := v0, palette := v1 } := by
  refine Frame.step (U := [.easel, .palette]) ?_ h hs
  intro u hu; cases u <;> first | rfl | exact absurd (by simp) hu

theorem Frame.upd_easel_directory_perf {U : List UnitName} {s x : State} {v0} {v1} {v2} (h : Frame U s x)
    (hs : unitsIn [.easel, .directory, .perf] U = true) :
    Frame U s { x with easel := v0, directory := v1, perf := v2 } := by
  refine Frame.step (U := [.easel, .directory, .perf]) ?_ h hs
  intro u hu; cases u <;> first | rfl | exact absurd (by simp) hu

theorem Frame.upd_sys_folio_reserve {U : List UnitName} {s x : State} {v0} {v1} {v2} (h : Frame U s x)
    (hs : unitsIn [.sys, .folio, .reserve] U = true) :
    Frame U s { x with sys := v0, folio := v1, reserve := v2 } := by
  refine Frame.step (U := [.sys, .folio, .reserve]) ?_ h hs
  intro u hu; cases u <;> first | rfl | exact absurd (by simp) hu

theorem Frame.upd_crypt_path {U : List UnitName} {s x : State} {v0} {v1} (h : Frame U s x)
    (hs : unitsIn [.crypt, .path] U = true) :
    Frame U s { x with crypt := v0, path := v1 } := by
  refine Frame.step (U := [.crypt, .path]) ?_ h hs
  intro u hu; cases u <;> first | rfl | exact absurd (by simp) hu

theorem Frame.upd_sys_path {U : List UnitName} {s x : State} {v0} {v1} (h : Frame U s x)
    (hs : unitsIn [.sys, .path] U = true) :
    Frame U s { x with sys := v0, path := v1 } := by
  refine Frame.step (U := [.sys, .path]) ?_ h hs
  intro u hu; cases u <;> first | rfl | exact absurd (by simp) hu

theorem Frame.upd_mgmt_thermal {U : List UnitName} {s x : State} {v0} {v1} (h : Frame U s x)
    (hs : unitsIn [.mgmt, .thermal] U = true) :
    Frame U s { x with mgmt := v0, thermal := v1 } := by
  refine Frame.step (U := [.mgmt, .thermal]) ?_ h hs
  intro u hu; cases u <;> first | rfl | exact absurd (by simp) hu

theorem Frame.upd_sys_power_crypt {U : List UnitName} {s x : State} {v0} {v1} {v2} (h : Frame U s x)
    (hs : unitsIn [.sys, .power, .crypt] U = true) :
    Frame U s { x with sys := v0, power := v1, crypt := v2 } := by
  refine Frame.step (U := [.sys, .power, .crypt]) ?_ h hs
  intro u hu; cases u <;> first | rfl | exact absurd (by simp) hu

theorem Frame.upd_sys_crypt_path {U : List UnitName} {s x : State} {v0} {v1} {v2} (h : Frame U s x)
    (hs : unitsIn [.sys, .crypt, .path] U = true) :
    Frame U s { x with sys := v0, crypt := v1, path := v2 } := by
  refine Frame.step (U := [.sys, .crypt, .path]) ?_ h hs
  intro u hu; cases u <;> first | rfl | exact absurd (by simp) hu

theorem Frame.upd_sys_power {U : List UnitName} {s x : State} {v0} {v1} (h : Frame U s x)
    (hs : unitsIn [.sys, .power] U = true) :
    Frame U s { x with sys := v0, power := v1 } := by
  refine Frame.step (U := [.sys, .power]) ?_ h hs
  intro u hu; cases u <;> first | rfl | exact absurd (by simp) hu

theorem Frame.upd_sys_mgmt_ledger_power_reserve_thermal_settings_stats {U : List UnitName} {s x : State} {v0} {v1} {v2} {v3} {v4} {v5} {v6} {v7} (h : Frame U s x)
    (hs : unitsIn [.sys, .mgmt, .ledger, .power, .reserve, .thermal, .settings, .stats] U = true) :
    Frame U s { x with sys := v0, mgmt := v1, ledger := v2, power := v3, reserve := v4, thermal := v5, settings := v6, stats := v7 } := by
  refine Frame.step (U := [.sys, .mgmt, .ledger, .power, .reserve, .thermal, .settings, .stats]) ?_ h hs
  intro u hu; cases u <;> first | rfl | exact absurd (by simp) hu

theorem Frame.upd_power_reserve {U : List UnitName} {s x : State} {v0} {v1} (h : Frame U s x)
    (hs : unitsIn [.power, .reserve] U = true) :
    Frame U s { x with power := v0, reserve := v1 } := by
  refine Frame.step (U := [.power, .reserve]) ?_ h hs
  intro u hu; cases u <;> first | rfl | exact absurd (by simp) hu

theorem Frame.upd_sys_crypt {U : List UnitName} {s x : State} {v0} {v1} (h : Frame U s x)
    (hs : unitsIn [.sys, .crypt] U = true) :
    Frame U s { x with sys := v0, crypt := v1 } := by
  refine Frame.step (U := [.sys, .crypt]) ?_ h hs
  intro u hu; cases u <;> first | rfl | exact absurd (by simp) hu

theorem Frame.ofN {U V : List UnitName} {s x y : State} {o : Host.Outcome State Fault Refusal} (hf : FrameN U x o)
    (e : o = .next y) (h : Frame V s x) (hs : unitsIn U V = true) : Frame V s y := by
  obtain ⟨t, et, ft⟩ := hf
  rw [et] at e
  cases e
  exact Frame.step ft h hs

end Sys2Proof.Machine
end

