-- ==== Sys2Proof/Laws/FrameOps1.lean ====
section
/-! SUPPORT. Laws/FrameOps1.lean: which units of the state each operation can change, one lemma per operation, in the order the operations are built on each other (part 1 of 3). -/

namespace Sys2Proof.Machine

theorem modGroup_frame (s : State) (g : Nat) (f : GroupRec → GroupRec) :
    Frame [.groups] s (modGroup s g f) := by
  unfold modGroup
  refine Frame.upd_groups ?_ rfl
  exact Frame.refl _ _

theorem setStat_frame (s : State) (idx : Nat) (sub : Nat) (v : Int) :
    Frame [.stats] s (setStat s idx sub v) := by
  unfold setStat
  refine Frame.upd_stats ?_ rfl
  exact Frame.refl _ _

theorem bump_frame (s : State) (idx : Nat) (sub : Nat) (n : Nat) :
    Frame [.stats] s (bump s idx sub n) := by
  unfold bump
  refine Frame.step (setStat_frame _ _ _ _) ?_ rfl
  exact Frame.refl _ _

theorem modQueue_frame (s : State) (q : Nat) (f : QueueRec → QueueRec) :
    Frame [.queues] s (modQueue s q f) := by
  unfold modQueue
  refine Frame.upd_queues ?_ rfl
  exact Frame.refl _ _

theorem noticeAfter_frame (s : State) (q : Nat) (w : QWord) :
    Frame [.queues, .stats] s (noticeAfter s q w) := by
  unfold noticeAfter
  dsimp only
  refine Frame.ite ?_ ?_
  · refine Frame.step (bump_frame _ _ _ _) ?_ rfl
    refine Frame.step (modQueue_frame _ _ _) ?_ rfl
    exact Frame.refl _ _
  · refine Frame.step (modQueue_frame _ _ _) ?_ rfl
    exact Frame.refl _ _

theorem pushWord_frame (s : State) (q : Nat) (w : QWord) :
    Frame [.queues, .stats] s (pushWord s q w) := by
  unfold pushWord
  dsimp only
  refine Frame.ite ?_ ?_
  · refine Frame.step (bump_frame _ _ _ _) ?_ rfl
    refine Frame.step (bump_frame _ _ _ _) ?_ rfl
    refine Frame.step (modQueue_frame _ _ _) ?_ rfl
    exact Frame.refl _ _
  · refine Frame.step (bump_frame _ _ _ _) ?_ rfl
    refine Frame.step (modQueue_frame _ _ _) ?_ rfl
    exact Frame.refl _ _

theorem pushPacket_frame (s : State) (q : Nat) (data : List Nat) :
    Frame [.queues, .stats] s (pushPacket s q data) := by
  unfold pushPacket
  dsimp only
  refine Frame.foldl ?_ ?_
  · intro _ _
    refine Frame.step (noticeAfter_frame _ _ _) ?_ rfl
    refine Frame.step (pushWord_frame _ _ _) ?_ rfl
    exact Frame.refl _ _
  · exact Frame.refl _ _

theorem perfAdvance_frame (s : State) (b : Nat) (n : Nat) (k : Nat) :
    Frame [.perf] s (perfAdvance s b n k) := by
  unfold perfAdvance
  dsimp only
  refine Frame.ite ?_ ?_
  · refine Frame.upd_perf ?_ rfl
    exact Frame.refl _ _
  · exact Frame.refl _ _

theorem perfCount_frame (s : State) (b : Nat) (e : Nat) (k : Nat) :
    Frame [.perf] s (perfCount s b e k) := by
  unfold perfCount
  refine Frame.foldl ?_ ?_
  · intro _ _
    refine Frame.ite ?_ ?_
    · refine Frame.step (perfAdvance_frame _ _ _ _) ?_ rfl
      exact Frame.refl _ _
    · exact Frame.refl _ _
  · exact Frame.refl _ _

theorem jqPush_frame (s : State) (g : Nat) (units : List Nat) :
    Frame [.groups, .queues, .perf, .stats] s (jqPush s g units) := by
  unfold jqPush
  dsimp only
  refine Frame.step (pushPacket_frame _ _ _) ?_ rfl
  refine Frame.step (perfCount_frame _ _ _ _) ?_ rfl
  refine Frame.ite ?_ ?_
  · refine Frame.step (modGroup_frame _ _ _) ?_ rfl
    exact Frame.refl _ _
  · exact Frame.refl _ _

theorem abandonMove_frame (s : State) (g : Nat) (region : Nat) :
    Frame [.groups, .queues, .perf, .stats] s (abandonMove s g region) := by
  unfold abandonMove
  split
  · refine Frame.ite ?_ ?_
    · refine Frame.step (modGroup_frame _ _ _) ?_ rfl
      exact Frame.refl _ _
    · exact Frame.refl _ _
  · split
    · refine Frame.ite ?_ ?_
      · refine Frame.step (modGroup_frame _ _ _) ?_ rfl
        refine Frame.step (jqPush_frame _ _ _) ?_ rfl
        exact Frame.refl _ _
      · exact Frame.refl _ _
    · refine Frame.step (modGroup_frame _ _ _) ?_ rfl
      exact Frame.refl _ _

theorem emit_frame (s : State) (o : Output) :
    Frame [.out] s (emit s o) := by
  unfold emit
  refine Frame.upd_out ?_ rfl
  exact Frame.refl _ _

theorem modSession_frame (s : State) (n : Nat) (f : Session → Session) :
    Frame [.mgmt] s (modSession s n f) := by
  unfold modSession
  refine Frame.upd_mgmt ?_ rfl
  exact Frame.refl _ _

theorem answer_frame (s : State) (via : Via) (sess : Nat) (tag : Nat) (status : Nat) (abort : Nat) (detail : Nat) (data : List Byte) :
    Frame [.mgmt, .stats, .out] s (answer s via sess tag status abort detail data) := by
  unfold answer
  dsimp only
  split
  · refine Frame.step (emit_frame _ _) ?_ rfl
    exact Frame.refl _ _
  · refine Frame.step (emit_frame _ _) ?_ rfl
    refine Frame.step (bump_frame _ _ _ _) ?_ rfl
    exact Frame.refl _ _
  · refine Frame.ite ?_ ?_
    · refine Frame.step (emit_frame _ _) ?_ rfl
      refine Frame.upd_mgmt ?_ rfl
      refine Frame.step (modSession_frame _ _ _) ?_ rfl
      exact Frame.refl _ _
    · refine Frame.upd_mgmt ?_ rfl
      refine Frame.step (modSession_frame _ _ _) ?_ rfl
      exact Frame.refl _ _

theorem accept_frame (s : State) (via : Via) (sess : Nat) (tag : Nat) (data : List Byte) :
    Frame [.mgmt, .perf, .stats, .out] s (accept s via sess tag data) := by
  unfold accept
  refine Frame.step (answer_frame _ _ _ _ _ _ _ _) ?_ rfl
  refine Frame.step (perfCount_frame _ _ _ _) ?_ rfl
  refine Frame.step (bump_frame _ _ _ _) ?_ rfl
  exact Frame.refl _ _

theorem tqDiscard_frame (s : State) :
    Frame [.queues, .perf, .stats] s (tqDiscard s) := by
  unfold tqDiscard
  dsimp only
  refine Frame.ite ?_ ?_
  · refine Frame.step (bump_frame _ _ _ _) ?_ rfl
    refine Frame.ite ?_ ?_
    · refine Frame.step (bump_frame _ _ _ _) ?_ rfl
      refine Frame.step (perfCount_frame _ _ _ _) ?_ rfl
      refine Frame.step (bump_frame _ _ _ _) ?_ rfl
      refine Frame.step (modQueue_frame _ _ _) ?_ rfl
      exact Frame.refl _ _
    · refine Frame.step (perfCount_frame _ _ _ _) ?_ rfl
      refine Frame.step (bump_frame _ _ _ _) ?_ rfl
      refine Frame.step (modQueue_frame _ _ _) ?_ rfl
      exact Frame.refl _ _
  · refine Frame.ite ?_ ?_
    · refine Frame.step (bump_frame _ _ _ _) ?_ rfl
      refine Frame.step (perfCount_frame _ _ _ _) ?_ rfl
      refine Frame.step (bump_frame _ _ _ _) ?_ rfl
      refine Frame.step (modQueue_frame _ _ _) ?_ rfl
      exact Frame.refl _ _
    · refine Frame.step (perfCount_frame _ _ _ _) ?_ rfl
      refine Frame.step (bump_frame _ _ _ _) ?_ rfl
      refine Frame.step (modQueue_frame _ _ _) ?_ rfl
      exact Frame.refl _ _

theorem tqRoom_frame (a1 : Nat) (a2 : State) (a3 : Nat) :
    Frame [.queues, .perf, .stats] a2 (tqRoom a1 a2 a3) := by
  induction a1 generalizing a2 a3 with
  | zero =>
    unfold tqRoom
    exact Frame.refl _ _
  | succ n ih =>
    unfold tqRoom
    refine Frame.ite ?_ ?_
    · exact Frame.refl _ _
    · refine Frame.step (ih _ _) ?_ rfl
      refine Frame.step (tqDiscard_frame _) ?_ rfl
      exact Frame.refl _ _

theorem sampleDone_frame (s : State) (who : Requester) (group : Nat) :
    Frame [.queues, .perf, .stats] s (sampleDone s who group) := by
  unfold sampleDone
  dsimp only
  split
  · exact Frame.refl _ _
  · refine Frame.step (bump_frame _ _ _ _) ?_ rfl
    refine Frame.step (pushPacket_frame _ _ _) ?_ rfl
    refine Frame.step (tqRoom_frame _ _ _) ?_ rfl
    refine Frame.upd_perf ?_ rfl
    exact Frame.refl _ _

theorem modBarrow_frame (s : State) (c : Nat) (f : BarrowRec → BarrowRec) :
    Frame [.barrow] s (modBarrow s c f) := by
  unfold modBarrow
  refine Frame.upd_barrow ?_ rfl
  exact Frame.refl _ _

theorem maxStat_frame (s : State) (idx : Nat) (sub : Nat) (v : Int) :
    Frame [.stats] s (maxStat s idx sub v) := by
  unfold maxStat
  refine Frame.ite ?_ ?_
  · refine Frame.step (setStat_frame _ _ _ _) ?_ rfl
    exact Frame.refl _ _
  · exact Frame.refl _ _

theorem tallyAdd_frame (s : State) (i : Nat) :
    Frame [.folio] s (tallyAdd s i) := by
  unfold tallyAdd
  refine Frame.upd_folio ?_ rfl
  exact Frame.refl _ _

theorem ledgerAssign_frame (s : State) (code : Nat) (data : List Byte) (summary : Bool) :
    Frame [.folio, .ledger] s (ledgerAssign s code data summary).1 := by
  unfold ledgerAssign
  refine Frame.fstIte ?_ ?_
  · dsimp only
    refine Frame.step (tallyAdd_frame _ _) ?_ rfl
    exact Frame.refl _ _
  · dsimp only
    refine Frame.upd_ledger ?_ rfl
    exact Frame.refl _ _

theorem suppress_frame (s : State) (code : Nat) (tracked : Bool) :
    Frame [.ledger, .stats] s (suppress s code tracked) := by
  unfold suppress
  dsimp only
  refine Frame.ite ?_ ?_
  · refine Frame.upd_ledger ?_ rfl
    refine Frame.step (bump_frame _ _ _ _) ?_ rfl
    exact Frame.refl _ _
  · refine Frame.upd_ledger ?_ rfl
    refine Frame.step (bump_frame _ _ _ _) ?_ rfl
    exact Frame.refl _ _

theorem ledgerRecord_frame (s : State) (code : Nat) (data : List Byte) :
    Frame [.folio, .ledger, .stats] s (ledgerRecord s code data).1 := by
  unfold ledgerRecord
  refine Frame.fstIte ?_ ?_
  · refine Frame.step (ledgerAssign_frame _ _ _ _) ?_ rfl
    exact Frame.refl _ _
  · split
    · refine Frame.fstIte ?_ ?_
      · refine Frame.step (ledgerAssign_frame _ _ _ _) ?_ rfl
        refine Frame.upd_ledger ?_ rfl
        exact Frame.refl _ _
      · dsimp only
        refine Frame.step (suppress_frame _ _ _) ?_ rfl
        exact Frame.refl _ _
    · refine Frame.fstIte ?_ ?_
      · refine Frame.step (ledgerAssign_frame _ _ _ _) ?_ rfl
        refine Frame.upd_ledger ?_ rfl
        exact Frame.refl _ _
      · dsimp only
        refine Frame.step (suppress_frame _ _ _) ?_ rfl
        exact Frame.refl _ _

theorem emcySend_frame (s : State) (frame : List Byte) :
    Frame [.mgmt, .out] s (emcySend s frame) := by
  unfold emcySend
  dsimp only
  refine Frame.upd_mgmt ?_ rfl
  refine Frame.step (emit_frame _ _) ?_ rfl
  exact Frame.refl _ _

theorem emcyRaise_frame (s : State) (err : Nat) (code : Nat) (seq : Nat) :
    Frame [.mgmt, .out] s (emcyRaise s err code seq) := by
  unfold emcyRaise
  dsimp only
  refine Frame.ite ?_ ?_
  · refine Frame.ite ?_ ?_
    · refine Frame.ite ?_ ?_
      · refine Frame.upd_mgmt ?_ rfl
        exact Frame.refl _ _
      · refine Frame.upd_mgmt ?_ rfl
        exact Frame.refl _ _
    · refine Frame.step (emcySend_frame _ _) ?_ rfl
      refine Frame.upd_mgmt ?_ rfl
      exact Frame.refl _ _
  · refine Frame.upd_mgmt ?_ rfl
    exact Frame.refl _ _

theorem raise_frame (s : State) (code : Nat) (data : List Byte) :
    Frame [.mgmt, .folio, .ledger, .stats, .out] s (raise s code data) := by
  unfold raise
  dsimp only
  split
  · refine Frame.step (emcyRaise_frame _ _ _ _) ?_ rfl
    refine Frame.step (ledgerRecord_frame _ _ _) ?_ rfl
    exact Frame.refl _ _
  · refine Frame.step (ledgerRecord_frame _ _ _) ?_ rfl
    exact Frame.refl _ _

theorem overThreshold_frame (s : State) (p : Nat) (kind : Nat) (limit : Nat) (lat : Nat) (line : Nat) (warm : Bool) :
    Frame [.mgmt, .folio, .ledger, .stats, .out] s (overThreshold s p kind limit lat line warm) := by
  unfold overThreshold
  refine Frame.ite ?_ ?_
  · dsimp only
    refine Frame.ite ?_ ?_
    · refine Frame.step (raise_frame _ _ _) ?_ rfl
      refine Frame.step (bump_frame _ _ _ _) ?_ rfl
      exact Frame.refl _ _
    · refine Frame.step (bump_frame _ _ _ _) ?_ rfl
      exact Frame.refl _ _
  · exact Frame.refl _ _

theorem monitorWrite_frame (s : State) (p : Nat) (line : Nat) (lat : Nat) (warm : Bool) (through : Bool) (snooped : Bool) (isSealed : Bool) :
    Frame [.mgmt, .folio, .ledger, .perf, .stats, .out] s (monitorWrite s p line lat warm through snooped isSealed) := by
  unfold monitorWrite
  dsimp only
  refine Frame.ite ?_ ?_
  · refine Frame.step (overThreshold_frame _ _ _ _ _ _ _) ?_ rfl
    refine Frame.step (perfCount_frame _ _ _ _) ?_ rfl
    refine Frame.step (maxStat_frame _ _ _ _) ?_ rfl
    refine Frame.step (bump_frame _ _ _ _) ?_ rfl
    refine Frame.step (bump_frame _ _ _ _) ?_ rfl
    exact Frame.refl _ _
  · refine Frame.step (overThreshold_frame _ _ _ _ _ _ _) ?_ rfl
    refine Frame.step (maxStat_frame _ _ _ _) ?_ rfl
    refine Frame.step (bump_frame _ _ _ _) ?_ rfl
    exact Frame.refl _ _

theorem modTag_frame (s : State) (who : Requester) (f : SampleRec → SampleRec) :
    Frame [.perf] s (modTag s who f) := by
  unfold modTag
  refine Frame.upd_perf ?_ rfl
  exact Frame.refl _ _

theorem flagSample_frame (s : State) (who : Requester) (bit : Nat) :
    Frame [.perf] s (flagSample s who bit) := by
  unfold flagSample
  refine Frame.step (modTag_frame _ _ _) ?_ rfl
  exact Frame.refl _ _

theorem settleConflict_frame (s : State) (p : Nat) (line : Nat) :
    Frame [.directory, .out] s (settleConflict s p line) := by
  unfold settleConflict
  refine Frame.ite ?_ ?_
  · refine Frame.step (emit_frame _ _) ?_ rfl
    refine Frame.upd_directory ?_ rfl
    exact Frame.refl _ _
  · exact Frame.refl _ _

theorem deliverAck_frame (s : State) (a : AckWait) :
    Frame [.mgmt, .folio, .ledger, .directory, .queues, .barrow, .perf, .stats, .out] s (deliverAck s a) := by
  unfold deliverAck
  dsimp only
  split
  · refine Frame.step (settleConflict_frame _ _ _) ?_ rfl
    refine Frame.step (emit_frame _ _) ?_ rfl
    refine Frame.ite ?_ ?_
    · refine Frame.step (bump_frame _ _ _ _) ?_ rfl
      refine Frame.step (monitorWrite_frame _ _ _ _ _ _ _ _) ?_ rfl
      refine Frame.step (sampleDone_frame _ _ _) ?_ rfl
      refine Frame.ite ?_ ?_
      · refine Frame.step (flagSample_frame _ _ _) ?_ rfl
        exact Frame.refl _ _
      · exact Frame.refl _ _
    · refine Frame.step (monitorWrite_frame _ _ _ _ _ _ _ _) ?_ rfl
      refine Frame.step (sampleDone_frame _ _ _) ?_ rfl
      refine Frame.ite ?_ ?_
      · refine Frame.step (flagSample_frame _ _ _) ?_ rfl
        exact Frame.refl _ _
      · exact Frame.refl _ _
  · refine Frame.step (modBarrow_frame _ _ _) ?_ rfl
    exact Frame.refl _ _
  · exact Frame.refl _ _

theorem acknowledge_frame (s : State) (w : WriteReq) (through : Bool) :
    Frame [.mgmt, .folio, .ledger, .easel, .directory, .queues, .barrow, .perf, .stats, .out] s (acknowledge s w through) := by
  unfold acknowledge
  dsimp only
  refine Frame.ite ?_ ?_
  · refine Frame.upd_easel ?_ rfl
    exact Frame.refl _ _
  · refine Frame.step (deliverAck_frame _ _) ?_ rfl
    exact Frame.refl _ _

theorem stopCharge_frame (s : State) :
    Frame [.reserve] s (stopCharge s) := by
  unfold stopCharge
  refine Frame.upd_reserve ?_ rfl
  exact Frame.refl _ _

theorem reserveFail_frame (s : State) (cause : Nat) :
    Frame [.mgmt, .folio, .ledger, .reserve, .stats, .out] s (reserveFail s cause) := by
  unfold reserveFail
  refine Frame.ite ?_ ?_
  · exact Frame.refl _ _
  · dsimp only
    refine Frame.step (tallyAdd_frame _ _) ?_ rfl
    refine Frame.step (raise_frame _ _ _) ?_ rfl
    refine Frame.ite ?_ ?_
    · refine Frame.step (raise_frame _ _ _) ?_ rfl
      refine Frame.step (stopCharge_frame _) ?_ rfl
      refine Frame.upd_reserve ?_ rfl
      exact Frame.refl _ _
    · refine Frame.step (stopCharge_frame _) ?_ rfl
      refine Frame.upd_reserve ?_ rfl
      exact Frame.refl _ _

theorem adcFaulted_frame (s : State) :
    Frame [.mgmt, .folio, .ledger, .power, .reserve, .stats, .out] s (adcFaulted s) := by
  unfold adcFaulted
  refine Frame.ite ?_ ?_
  · exact Frame.refl _ _
  · dsimp only
    refine Frame.ite ?_ ?_
    · refine Frame.step (raise_frame _ _ _) ?_ rfl
      refine Frame.upd_power ?_ rfl
      exact Frame.refl _ _
    · refine Frame.step (reserveFail_frame _ _) ?_ rfl
      refine Frame.step (raise_frame _ _ _) ?_ rfl
      refine Frame.upd_power ?_ rfl
      exact Frame.refl _ _

theorem adcCheck_frame (s : State) (ref : Bool) (v : BitVec 16) :
    Frame [.mgmt, .folio, .ledger, .power, .reserve, .stats, .out] s (adcCheck s ref v) := by
  unfold adcCheck
  dsimp only
  refine Frame.ite ?_ ?_
  · refine Frame.step (adcFaulted_frame _) ?_ rfl
    refine Frame.ite ?_ ?_
    · refine Frame.step (setStat_frame _ _ _ _) ?_ rfl
      refine Frame.upd_power ?_ rfl
      exact Frame.refl _ _
    · refine Frame.upd_power ?_ rfl
      exact Frame.refl _ _
  · refine Frame.ite ?_ ?_
    · refine Frame.step (setStat_frame _ _ _ _) ?_ rfl
      refine Frame.upd_power ?_ rfl
      exact Frame.refl _ _
    · refine Frame.upd_power ?_ rfl
      exact Frame.refl _ _

theorem modPort_frame (s : State) (p : Nat) (f : PortRec → PortRec) :
    Frame [.ports] s (modPort s p f) := by
  unfold modPort
  refine Frame.upd_ports ?_ rfl
  exact Frame.refl _ _

theorem eventQueue_frame (s : State) (p : Nat) (e : EventRec) :
    Frame [.ports, .queues, .stats, .out] s (eventQueue s p e) := by
  unfold eventQueue
  dsimp only
  refine Frame.ite ?_ ?_
  · refine Frame.step (emit_frame _ _) ?_ rfl
    refine Frame.step (bump_frame _ _ _ _) ?_ rfl
    refine Frame.step (pushPacket_frame _ _ _) ?_ rfl
    refine Frame.step (modPort_frame _ _ _) ?_ rfl
    exact Frame.refl _ _
  · refine Frame.step (bump_frame _ _ _ _) ?_ rfl
    refine Frame.step (pushPacket_frame _ _ _) ?_ rfl
    refine Frame.step (modPort_frame _ _ _) ?_ rfl
    exact Frame.refl _ _

theorem eventRelease_frame (a1 : Nat) (a2 : State) (a3 : Nat) :
    Frame [.ports, .queues, .stats, .out] a2 (eventRelease a1 a2 a3) := by
  induction a1 generalizing a2 a3 with
  | zero =>
    unfold eventRelease
    exact Frame.refl _ _
  | succ n ih =>
    unfold eventRelease
    split
    · refine Frame.ite ?_ ?_
      · refine Frame.step (ih _ _) ?_ rfl
        refine Frame.step (eventQueue_frame _ _ _) ?_ rfl
        refine Frame.step (modPort_frame _ _ _) ?_ rfl
        exact Frame.refl _ _
      · exact Frame.refl _ _
    · exact Frame.refl _ _

theorem setMark_frame (s : State) (q : Nat) (k : Nat) :
    Frame [.queues] s (setMark s q k) := by
  unfold setMark
  refine Frame.step (modQueue_frame _ _ _) ?_ rfl
  exact Frame.refl _ _

theorem takeWords_frame (s : State) (q : Nat) (n : Nat) :
    Frame [.queues, .stats] s (takeWords s q n) := by
  unfold takeWords
  dsimp only
  refine Frame.ite ?_ ?_
  · refine Frame.step (modQueue_frame _ _ _) ?_ rfl
    exact Frame.refl _ _
  · refine Frame.step (bump_frame _ _ _ _) ?_ rfl
    refine Frame.step (modQueue_frame _ _ _) ?_ rfl
    exact Frame.refl _ _

theorem advanceMark_frame (a1 : Nat) (a2 : State) (a3 : Nat) :
    Frame [.ports, .queues, .stats] a2 (advanceMark a1 a2 a3) := by
  induction a1 generalizing a2 a3 with
  | zero =>
    unfold advanceMark
    exact Frame.refl _ _
  | succ n ih =>
    unfold advanceMark
    refine Frame.ite ?_ ?_
    · dsimp only
      refine Frame.step (ih _ _) ?_ rfl
      refine Frame.step (modPort_frame _ _ _) ?_ rfl
      refine Frame.step (setMark_frame _ _ _) ?_ rfl
      refine Frame.step (takeWords_frame _ _ _) ?_ rfl
      refine Frame.step (modQueue_frame _ _ _) ?_ rfl
      exact Frame.refl _ _
    · exact Frame.refl _ _

theorem advanceEvents_frame (s : State) (p : Nat) :
    Frame [.ports, .queues, .stats, .out] s (advanceEvents s p) := by
  unfold advanceEvents
  refine Frame.step (eventRelease_frame _ _ _) ?_ rfl
  refine Frame.step (advanceMark_frame _ _ _) ?_ rfl
  exact Frame.refl _ _

theorem afterDraw_frame (s : State) :
    Frame [.draws] s (afterDraw s) := by
  unfold afterDraw
  refine Frame.upd_draws ?_ rfl
  exact Frame.refl _ _

theorem afterOutside_frame (s : State) :
    Frame [.path] s (afterOutside s) := by
  unfold afterOutside
  refine Frame.upd_path ?_ rfl
  exact Frame.refl _ _

theorem modRail_frame (s : State) (r : Nat) (f : RailRec → RailRec) :
    Frame [.power] s (modRail s r f) := by
  unfold modRail
  refine Frame.upd_power ?_ rfl
  exact Frame.refl _ _

theorem railEnable_frame (s : State) (r : Nat) :
    Frame [.power] s (railEnable s r) := by
  unfold railEnable
  refine Frame.step (modRail_frame _ _ _) ?_ rfl
  exact Frame.refl _ _

theorem beginStage_frame (s : State) (n : Nat) :
    Frame [.power] s (beginStage s n) := by
  unfold beginStage
  dsimp only
  refine Frame.foldl ?_ ?_
  · intro _ _
    refine Frame.step (railEnable_frame _ _) ?_ rfl
    exact Frame.refl _ _
  · refine Frame.upd_power ?_ rfl
    exact Frame.refl _ _

theorem modDomain_frame (s : State) (k : Nat) (f : DomainRec → DomainRec) :
    Frame [.power] s (modDomain s k f) := by
  unfold modDomain
  refine Frame.upd_power ?_ rfl
  exact Frame.refl _ _

theorem beginStep_frame (s : State) (n : Nat) :
    Frame [.sys, .stats] s (beginStep s n) := by
  unfold beginStep
  dsimp only
  refine Frame.upd_sys ?_ rfl
  refine Frame.ite ?_ ?_
  · refine Frame.step (setStat_frame _ _ _ _) ?_ rfl
    exact Frame.refl _ _
  · exact Frame.refl _ _

theorem modChannel_frame (s : State) (c : Nat) (f : ChannelRec → ChannelRec) :
    Frame [.channels] s (modChannel s c f) := by
  unfold modChannel
  refine Frame.upd_channels ?_ rfl
  exact Frame.refl _ _

theorem stackReset_frame (s : State) (ch : Nat) :
    Frame [.channels] s (stackReset s ch) := by
  unfold stackReset
  refine Frame.step (modChannel_frame _ _ _) ?_ rfl
  exact Frame.refl _ _

theorem domainReady_frame (s : State) (k : Nat) :
    Frame [.power, .channels] s (domainReady s k) := by
  unfold domainReady
  dsimp only
  refine Frame.foldl ?_ ?_
  · intro _ _
    refine Frame.step (stackReset_frame _ _) ?_ rfl
    exact Frame.refl _ _
  · refine Frame.step (modDomain_frame _ _ _) ?_ rfl
    exact Frame.refl _ _

theorem trainingStepCheck_frame (s : State) :
    Frame [.sys, .stats] s (trainingStepCheck s) := by
  unfold trainingStepCheck
  dsimp only
  refine Frame.ite ?_ ?_
  · refine Frame.step (beginStep_frame _ _) ?_ rfl
    exact Frame.refl _ _
  · exact Frame.refl _ _

theorem mediaStepCheck_frame (s : State) :
    Frame [.sys, .stats] s (mediaStepCheck s) := by
  unfold mediaStepCheck
  refine Frame.ite ?_ ?_
  · refine Frame.step (trainingStepCheck_frame _) ?_ rfl
    refine Frame.step (beginStep_frame _ _) ?_ rfl
    exact Frame.refl _ _
  · exact Frame.refl _ _

theorem afterQualified_frame (s : State) (r : Nat) :
    Frame [.sys, .mgmt, .folio, .ledger, .power, .channels, .stats, .out] s (afterQualified s r) := by
  unfold afterQualified
  refine Frame.ite ?_ ?_
  · dsimp only
    refine Frame.ite ?_ ?_
    · refine Frame.ite ?_ ?_
      · refine Frame.step (beginStage_frame _ _) ?_ rfl
        refine Frame.ite ?_ ?_
        · refine Frame.upd_sys ?_ rfl
          exact Frame.refl _ _
        · exact Frame.refl _ _
      · refine Frame.step (beginStep_frame _ _) ?_ rfl
        refine Frame.foldl ?_ ?_
        · intro _ _
          refine Frame.step (modDomain_frame _ _ _) ?_ rfl
          exact Frame.refl _ _
        · refine Frame.upd_power ?_ rfl
          refine Frame.ite ?_ ?_
          · refine Frame.upd_sys ?_ rfl
            exact Frame.refl _ _
          · exact Frame.refl _ _
    · refine Frame.ite ?_ ?_
      · refine Frame.upd_sys ?_ rfl
        exact Frame.refl _ _
      · exact Frame.refl _ _
  · refine Frame.ite ?_ ?_
    · exact Frame.refl _ _
    · dsimp only
      refine Frame.ite ?_ ?_
      · refine Frame.step (railEnable_frame _ _) ?_ rfl
        refine Frame.step (modDomain_frame _ _ _) ?_ rfl
        exact Frame.refl _ _
      · refine Frame.ite ?_ ?_
        · refine Frame.step (mediaStepCheck_frame _) ?_ rfl
          refine Frame.ite ?_ ?_
          · refine Frame.step (raise_frame _ _ _) ?_ rfl
            refine Frame.step (domainReady_frame _ _) ?_ rfl
            refine Frame.step (modDomain_frame _ _ _) ?_ rfl
            exact Frame.refl _ _
          · refine Frame.step (domainReady_frame _ _) ?_ rfl
            refine Frame.step (modDomain_frame _ _ _) ?_ rfl
            exact Frame.refl _ _
        · exact Frame.refl _ _

theorem modLine_frame (s : State) (p : Nat) (f : EaselLine → EaselLine) :
    Frame [.easel] s (modLine s p f) := by
  unfold modLine
  refine Frame.upd_easel ?_ rfl
  exact Frame.refl _ _

theorem setQueued_frame (s : State) (p : Nat) (on : Bool) :
    Frame [.easel] s (setQueued s p on) := by
  unfold setQueued
  refine Frame.step (modLine_frame _ _ _) ?_ rfl
  exact Frame.refl _ _

theorem destageSelect_frame (s : State) (cls : Nat) (sub : Nat) (p : Nat) :
    Frame [.groups, .easel, .stats] s (destageSelect s cls sub p) := by
  unfold destageSelect
  dsimp only
  refine Frame.ite ?_ ?_
  · exact Frame.refl _ _
  · refine Frame.ite ?_ ?_
    · refine Frame.ite ?_ ?_
      · refine Frame.step (modGroup_frame _ _ _) ?_ rfl
        exact Frame.refl _ _
      · exact Frame.refl _ _
    · refine Frame.ite ?_ ?_
      · exact Frame.refl _ _
      · refine Frame.ite ?_ ?_
        · refine Frame.step (setQueued_frame _ _ _) ?_ rfl
          refine Frame.step (modGroup_frame _ _ _) ?_ rfl
          refine Frame.ite ?_ ?_
          · exact Frame.refl _ _
          · refine Frame.step (bump_frame _ _ _ _) ?_ rfl
            exact Frame.refl _ _
        · refine Frame.ite ?_ ?_
          · split
            · refine Frame.ite ?_ ?_
              · refine Frame.step (setQueued_frame _ _ _) ?_ rfl
                refine Frame.step (modGroup_frame _ _ _) ?_ rfl
                refine Frame.ite ?_ ?_
                · exact Frame.refl _ _
                · refine Frame.step (bump_frame _ _ _ _) ?_ rfl
                  exact Frame.refl _ _
              · refine Frame.step (setQueued_frame _ _ _) ?_ rfl
                refine Frame.step (modGroup_frame _ _ _) ?_ rfl
                refine Frame.step (setQueued_frame _ _ _) ?_ rfl
                refine Frame.ite ?_ ?_
                · exact Frame.refl _ _
                · refine Frame.step (bump_frame _ _ _ _) ?_ rfl
                  exact Frame.refl _ _
            · exact Frame.refl _ _
          · exact Frame.refl _ _

theorem checkSet_frame (s : State) (set : Nat) :
    Frame [.groups, .easel, .stats] s (checkSet s set) := by
  unfold checkSet
  refine Frame.ite ?_ ?_
  · split
    · refine Frame.step (destageSelect_frame _ _ _ _) ?_ rfl
      exact Frame.refl _ _
    · exact Frame.refl _ _
  · exact Frame.refl _ _

theorem stamp_frame (s : State) (who : Requester) (i : Nat) :
    Frame [.perf] s (stamp s who i) := by
  unfold stamp
  refine Frame.step (modTag_frame _ _ _) ?_ rfl
  exact Frame.refl _ _

theorem palTouch_frame (s : State) (w : Nat) :
    Frame [.palette] s (palTouch s w) := by
  unfold palTouch
  refine Frame.upd_palette ?_ rfl
  exact Frame.refl _ _

theorem palDefer_frame (s : State) (cls : Nat) (k : Nat) :
    Frame [.palette] s (palDefer s cls k) := by
  unfold palDefer
  refine Frame.ite ?_ ?_
  · exact Frame.refl _ _
  · refine Frame.upd_palette ?_ rfl
    exact Frame.refl _ _

theorem palSelect_frame (s : State) (w : Nat) :
    Frame [.palette] s (palSelect s w) := by
  unfold palSelect
  refine Frame.ite ?_ ?_
  · exact Frame.refl _ _
  · refine Frame.upd_palette ?_ rfl
    exact Frame.refl _ _

theorem palSelectSome_frame (s : State) (w : Option Nat) :
    Frame [.palette] s (palSelectSome s w) := by
  unfold palSelectSome
  split
  · refine Frame.step (palSelect_frame _ _) ?_ rfl
    exact Frame.refl _ _
  · exact Frame.refl _ _

theorem setMiss_frame (s : State) (n : Nat) (m : Option MissReg) :
    Frame [.palette] s (setMiss s n m) := by
  unfold setMiss
  refine Frame.upd_palette ?_ rfl
  exact Frame.refl _ _

theorem palMiss_frame (s : State) (cls : Nat) (k : Nat) :
    Frame [.palette, .stats] s (palMiss s cls k) := by
  unfold palMiss
  split
  · split
    · refine Frame.ite ?_ ?_
      · refine Frame.step (bump_frame _ _ _ _) ?_ rfl
        refine Frame.step (setMiss_frame _ _ _) ?_ rfl
        exact Frame.refl _ _
      · refine Frame.step (palDefer_frame _ _ _) ?_ rfl
        refine Frame.step (bump_frame _ _ _ _) ?_ rfl
        exact Frame.refl _ _
    · exact Frame.refl _ _
  · split
    · refine Frame.step (palDefer_frame _ _ _) ?_ rfl
      refine Frame.step (bump_frame _ _ _ _) ?_ rfl
      exact Frame.refl _ _
    · split
      · refine Frame.step (setMiss_frame _ _ _) ?_ rfl
        exact Frame.refl _ _
      · refine Frame.step (palDefer_frame _ _ _) ?_ rfl
        refine Frame.step (palSelectSome_frame _ _) ?_ rfl
        exact Frame.refl _ _

theorem palLookup_frame (s : State) (cls : Nat) (t : TileId) :
    Frame [.palette, .perf, .stats] s (palLookup s cls t).1 := by
  unfold palLookup
  dsimp only
  refine Frame.fstIte ?_ ?_
  · dsimp only
    refine Frame.step (palDefer_frame _ _ _) ?_ rfl
    refine Frame.step (perfCount_frame _ _ _ _) ?_ rfl
    refine Frame.step (bump_frame _ _ _ _) ?_ rfl
    exact Frame.refl _ _
  · split
    · dsimp only
      refine Frame.step (palTouch_frame _ _) ?_ rfl
      refine Frame.step (perfCount_frame _ _ _ _) ?_ rfl
      refine Frame.step (bump_frame _ _ _ _) ?_ rfl
      refine Frame.step (perfCount_frame _ _ _ _) ?_ rfl
      refine Frame.step (bump_frame _ _ _ _) ?_ rfl
      exact Frame.refl _ _
    · dsimp only
      refine Frame.step (palMiss_frame _ _ _) ?_ rfl
      refine Frame.step (perfCount_frame _ _ _ _) ?_ rfl
      refine Frame.step (bump_frame _ _ _ _) ?_ rfl
      exact Frame.refl _ _

theorem lookupPath_frame (s : State) (line : Nat) :
    Frame [.palette, .perf, .stats] s (lookupPath s line) := by
  unfold lookupPath
  refine Frame.ite ?_ ?_
  · refine Frame.foldl ?_ ?_
    · intro _ _
      refine Frame.step (palLookup_frame _ _ _) ?_ rfl
      exact Frame.refl _ _
    · exact Frame.refl _ _
  · exact Frame.refl _ _

theorem selectShare_frame (s : State) (q : Nat) (limit : Nat) :
    Frame [.groups, .easel, .stats] s (selectShare s q limit) := by
  unfold selectShare
  dsimp only
  refine Frame.foldlFst ?_ ?_
  · intro _ _
    refine Frame.fstIte ?_ ?_
    · exact Frame.refl _ _
    · dsimp only
      refine Frame.step (destageSelect_frame _ _ _ _) ?_ rfl
      exact Frame.refl _ _
  · dsimp only
    exact Frame.refl _ _

theorem checkShare_frame (s : State) (q : Nat) :
    Frame [.groups, .easel, .stats] s (checkShare s q) := by
  unfold checkShare
  refine Frame.ite ?_ ?_
  · refine Frame.step (selectShare_frame _ _ _) ?_ rfl
    exact Frame.refl _ _
  · exact Frame.refl _ _

theorem afterTakeIn_frame (s : State) (w : WriteReq) (through : Bool) :
    Frame [.mgmt, .folio, .ledger, .groups, .easel, .palette, .directory, .queues, .barrow, .perf, .stats, .out] s (afterTakeIn s w through) := by
  unfold afterTakeIn
  dsimp only
  refine Frame.step (acknowledge_frame _ _ _) ?_ rfl
  refine Frame.ite ?_ ?_
  · split
    · refine Frame.step (destageSelect_frame _ _ _ _) ?_ rfl
      refine Frame.ite ?_ ?_
      · split
        · refine Frame.step (destageSelect_frame _ _ _ _) ?_ rfl
          refine Frame.ite ?_ ?_
          · refine Frame.upd_directory ?_ rfl
            refine Frame.step (lookupPath_frame _ _) ?_ rfl
            refine Frame.step (stamp_frame _ _ _) ?_ rfl
            refine Frame.step (bump_frame _ _ _ _) ?_ rfl
            exact Frame.refl _ _
          · refine Frame.step (lookupPath_frame _ _) ?_ rfl
            refine Frame.step (stamp_frame _ _ _) ?_ rfl
            refine Frame.step (bump_frame _ _ _ _) ?_ rfl
            exact Frame.refl _ _
        · refine Frame.ite ?_ ?_
          · refine Frame.upd_directory ?_ rfl
            refine Frame.step (lookupPath_frame _ _) ?_ rfl
            refine Frame.step (stamp_frame _ _ _) ?_ rfl
            refine Frame.step (bump_frame _ _ _ _) ?_ rfl
            exact Frame.refl _ _
          · refine Frame.step (lookupPath_frame _ _) ?_ rfl
            refine Frame.step (stamp_frame _ _ _) ?_ rfl
            refine Frame.step (bump_frame _ _ _ _) ?_ rfl
            exact Frame.refl _ _
      · refine Frame.step (checkSet_frame _ _) ?_ rfl
        refine Frame.step (checkShare_frame _ _) ?_ rfl
        refine Frame.ite ?_ ?_
        · refine Frame.upd_directory ?_ rfl
          refine Frame.step (lookupPath_frame _ _) ?_ rfl
          refine Frame.step (stamp_frame _ _ _) ?_ rfl
          refine Frame.step (bump_frame _ _ _ _) ?_ rfl
          exact Frame.refl _ _
        · refine Frame.step (lookupPath_frame _ _) ?_ rfl
          refine Frame.step (stamp_frame _ _ _) ?_ rfl
          refine Frame.step (bump_frame _ _ _ _) ?_ rfl
          exact Frame.refl _ _
    · refine Frame.ite ?_ ?_
      · split
        · refine Frame.step (destageSelect_frame _ _ _ _) ?_ rfl
          refine Frame.ite ?_ ?_
          · refine Frame.upd_directory ?_ rfl
            refine Frame.step (lookupPath_frame _ _) ?_ rfl
            refine Frame.step (stamp_frame _ _ _) ?_ rfl
            refine Frame.step (bump_frame _ _ _ _) ?_ rfl
            exact Frame.refl _ _
          · refine Frame.step (lookupPath_frame _ _) ?_ rfl
            refine Frame.step (stamp_frame _ _ _) ?_ rfl
            refine Frame.step (bump_frame _ _ _ _) ?_ rfl
            exact Frame.refl _ _
        · refine Frame.ite ?_ ?_
          · refine Frame.upd_directory ?_ rfl
            refine Frame.step (lookupPath_frame _ _) ?_ rfl
            refine Frame.step (stamp_frame _ _ _) ?_ rfl
            refine Frame.step (bump_frame _ _ _ _) ?_ rfl
            exact Frame.refl _ _
          · refine Frame.step (lookupPath_frame _ _) ?_ rfl
            refine Frame.step (stamp_frame _ _ _) ?_ rfl
            refine Frame.step (bump_frame _ _ _ _) ?_ rfl
            exact Frame.refl _ _
      · refine Frame.step (checkSet_frame _ _) ?_ rfl
        refine Frame.step (checkShare_frame _ _) ?_ rfl
        refine Frame.ite ?_ ?_
        · refine Frame.upd_directory ?_ rfl
          refine Frame.step (lookupPath_frame _ _) ?_ rfl
          refine Frame.step (stamp_frame _ _ _) ?_ rfl
          refine Frame.step (bump_frame _ _ _ _) ?_ rfl
          exact Frame.refl _ _
        · refine Frame.step (lookupPath_frame _ _) ?_ rfl
          refine Frame.step (stamp_frame _ _ _) ?_ rfl
          refine Frame.step (bump_frame _ _ _ _) ?_ rfl
          exact Frame.refl _ _
  · refine Frame.ite ?_ ?_
    · split
      · refine Frame.step (destageSelect_frame _ _ _ _) ?_ rfl
        refine Frame.ite ?_ ?_
        · refine Frame.upd_directory ?_ rfl
          refine Frame.step (lookupPath_frame _ _) ?_ rfl
          refine Frame.step (stamp_frame _ _ _) ?_ rfl
          refine Frame.step (bump_frame _ _ _ _) ?_ rfl
          exact Frame.refl _ _
        · refine Frame.step (lookupPath_frame _ _) ?_ rfl
          refine Frame.step (stamp_frame _ _ _) ?_ rfl
          refine Frame.step (bump_frame _ _ _ _) ?_ rfl
          exact Frame.refl _ _
      · refine Frame.ite ?_ ?_
        · refine Frame.upd_directory ?_ rfl
          refine Frame.step (lookupPath_frame _ _) ?_ rfl
          refine Frame.step (stamp_frame _ _ _) ?_ rfl
          refine Frame.step (bump_frame _ _ _ _) ?_ rfl
          exact Frame.refl _ _
        · refine Frame.step (lookupPath_frame _ _) ?_ rfl
          refine Frame.step (stamp_frame _ _ _) ?_ rfl
          refine Frame.step (bump_frame _ _ _ _) ?_ rfl
          exact Frame.refl _ _
    · refine Frame.step (checkSet_frame _ _) ?_ rfl
      refine Frame.step (checkShare_frame _ _) ?_ rfl
      refine Frame.ite ?_ ?_
      · refine Frame.upd_directory ?_ rfl
        refine Frame.step (lookupPath_frame _ _) ?_ rfl
        refine Frame.step (stamp_frame _ _ _) ?_ rfl
        refine Frame.step (bump_frame _ _ _ _) ?_ rfl
        exact Frame.refl _ _
      · refine Frame.step (lookupPath_frame _ _) ?_ rfl
        refine Frame.step (stamp_frame _ _ _) ?_ rfl
        refine Frame.step (bump_frame _ _ _ _) ?_ rfl
        exact Frame.refl _ _

theorem setModeReg_frame (s : State) (ch : Nat) (r : Nat) (v : Nat) :
    Frame [.channels] s (setModeReg s ch r v) := by
  unfold setModeReg
  refine Frame.step (modChannel_frame _ _ _) ?_ rfl
  exact Frame.refl _ _

theorem setSetting_frame (s : State) (idx : Nat) (sub : Nat) (v : Int) :
    Frame [.settings] s (setSetting s idx sub v) := by
  unfold setSetting
  refine Frame.upd_settings ?_ rfl
  exact Frame.refl _ _

theorem alertThreshold_frame (s : State) (v : Int) :
    Frame [.channels, .settings] s (alertThreshold s v) := by
  unfold alertThreshold
  refine Frame.foldl ?_ ?_
  · intro _ _
    refine Frame.ite ?_ ?_
    · refine Frame.step (setModeReg_frame _ _ _ _) ?_ rfl
      exact Frame.refl _ _
    · exact Frame.refl _ _
  · refine Frame.step (setSetting_frame _ _ _ _) ?_ rfl
    exact Frame.refl _ _

theorem setBucket_frame (s : State) (b : Nat) (es : List PoisonEntry) :
    Frame [.palette] s (setBucket s b es) := by
  unfold setBucket
  refine Frame.upd_palette ?_ rfl
  exact Frame.refl _ _

theorem poisonOverflow_frame (s : State) :
    Frame [.palette] s (poisonOverflow s) := by
  unfold poisonOverflow
  refine Frame.upd_palette ?_ rfl
  exact Frame.refl _ _

theorem poisonInsert_frame (s : State) (line : Nat) (permanent : Bool) (source : Nat) :
    Frame [.palette] s (poisonInsert s line permanent source).1 := by
  unfold poisonInsert
  dsimp only
  refine Frame.fstIte ?_ ?_
  · dsimp only
    refine Frame.step (setBucket_frame _ _ _) ?_ rfl
    exact Frame.refl _ _
  · refine Frame.fstIte ?_ ?_
    · dsimp only
      refine Frame.step (setBucket_frame _ _ _) ?_ rfl
      exact Frame.refl _ _
    · split
      · dsimp only
        refine Frame.step (poisonOverflow_frame _) ?_ rfl
        refine Frame.step (setBucket_frame _ _ _) ?_ rfl
        exact Frame.refl _ _
      · refine Frame.fstIte ?_ ?_
        · dsimp only
          refine Frame.step (poisonOverflow_frame _) ?_ rfl
          refine Frame.step (setBucket_frame _ _ _) ?_ rfl
          exact Frame.refl _ _
        · dsimp only
          exact Frame.refl _ _

theorem monitorRead_frame (s : State) (p : Nat) (line : Nat) (lat : Nat) (warm : Bool) (poison : Bool) :
    Frame [.mgmt, .folio, .ledger, .stats, .out] s (monitorRead s p line lat warm poison) := by
  unfold monitorRead
  dsimp only
  refine Frame.step (overThreshold_frame _ _ _ _ _ _ _) ?_ rfl
  refine Frame.ite ?_ ?_
  · refine Frame.step (bump_frame _ _ _ _) ?_ rfl
    refine Frame.step (bump_frame _ _ _ _) ?_ rfl
    refine Frame.step (maxStat_frame _ _ _ _) ?_ rfl
    refine Frame.step (maxStat_frame _ _ _ _) ?_ rfl
    refine Frame.step (bump_frame _ _ _ _) ?_ rfl
    refine Frame.step (bump_frame _ _ _ _) ?_ rfl
    exact Frame.refl _ _
  · refine Frame.step (bump_frame _ _ _ _) ?_ rfl
    refine Frame.step (maxStat_frame _ _ _ _) ?_ rfl
    refine Frame.step (maxStat_frame _ _ _ _) ?_ rfl
    refine Frame.step (bump_frame _ _ _ _) ?_ rfl
    refine Frame.step (bump_frame _ _ _ _) ?_ rfl
    exact Frame.refl _ _

theorem deliverRead_frame (s : State) (w : ReadWait) (data : Line) (poison : Bool) :
    Frame [.mgmt, .folio, .ledger, .ports, .palette, .directory, .queues, .barrow, .perf, .stats, .out] s (deliverRead s w data poison) := by
  unfold deliverRead
  dsimp only
  split
  · refine Frame.step (settleConflict_frame _ _ _) ?_ rfl
    refine Frame.step (emit_frame _ _) ?_ rfl
    refine Frame.ite ?_ ?_
    · refine Frame.step (perfCount_frame _ _ _ _) ?_ rfl
      refine Frame.step (monitorRead_frame _ _ _ _ _ _) ?_ rfl
      refine Frame.step (sampleDone_frame _ _ _) ?_ rfl
      refine Frame.ite ?_ ?_
      · refine Frame.step (flagSample_frame _ _ _) ?_ rfl
        refine Frame.ite ?_ ?_
        · refine Frame.step (flagSample_frame _ _ _) ?_ rfl
          exact Frame.refl _ _
        · exact Frame.refl _ _
      · refine Frame.ite ?_ ?_
        · refine Frame.step (flagSample_frame _ _ _) ?_ rfl
          exact Frame.refl _ _
        · exact Frame.refl _ _
    · refine Frame.step (monitorRead_frame _ _ _ _ _ _) ?_ rfl
      refine Frame.step (sampleDone_frame _ _ _) ?_ rfl
      refine Frame.ite ?_ ?_
      · refine Frame.step (flagSample_frame _ _ _) ?_ rfl
        refine Frame.ite ?_ ?_
        · refine Frame.step (flagSample_frame _ _ _) ?_ rfl
          exact Frame.refl _ _
        · exact Frame.refl _ _
      · refine Frame.ite ?_ ?_
        · refine Frame.step (flagSample_frame _ _ _) ?_ rfl
          exact Frame.refl _ _
        · exact Frame.refl _ _
  · refine Frame.step (modBarrow_frame _ _ _) ?_ rfl
    refine Frame.step (sampleDone_frame _ _ _) ?_ rfl
    refine Frame.ite ?_ ?_
    · refine Frame.step (flagSample_frame _ _ _) ?_ rfl
      exact Frame.refl _ _
    · exact Frame.refl _ _
  · refine Frame.ite ?_ ?_
    · refine Frame.step (poisonInsert_frame _ _ _ _) ?_ rfl
      refine Frame.step (modPort_frame _ _ _) ?_ rfl
      exact Frame.refl _ _
    · exact Frame.refl _ _
  · exact Frame.refl _ _

theorem completeHeld_frame (s : State) (mine : Nat → Bool) :
    Frame [.mgmt, .folio, .ledger, .ports, .easel, .palette, .directory, .queues, .barrow, .perf, .stats, .out] s (completeHeld s mine) := by
  unfold completeHeld
  dsimp only
  refine Frame.foldl ?_ ?_
  · intro _ _
    refine Frame.step (deliverRead_frame _ _ _ _) ?_ rfl
    exact Frame.refl _ _
  · refine Frame.foldl ?_ ?_
    · intro _ _
      refine Frame.step (acknowledge_frame _ _ _) ?_ rfl
      exact Frame.refl _ _
    · refine Frame.upd_easel ?_ rfl
      refine Frame.foldl ?_ ?_
      · intro _ _
        refine Frame.step (modPort_frame _ _ _) ?_ rfl
        exact Frame.refl _ _
      · exact Frame.refl _ _

theorem settleAcks_frame (s : State) :
    Frame [.mgmt, .folio, .ledger, .easel, .directory, .queues, .barrow, .perf, .stats, .out] s (settleAcks s) := by
  unfold settleAcks
  dsimp only
  refine Frame.foldl ?_ ?_
  · intro _ _
    refine Frame.step (deliverAck_frame _ _) ?_ rfl
    exact Frame.refl _ _
  · refine Frame.upd_easel ?_ rfl
    exact Frame.refl _ _

theorem fenceGroup_frame (s : State) (g : Nat) :
    Frame [.sys, .mgmt, .folio, .ledger, .ports, .groups, .easel, .palette, .directory, .queues, .barrow, .perf, .stats, .out] s (fenceGroup s g) := by
  unfold fenceGroup
  refine Frame.ite ?_ ?_
  · exact Frame.refl _ _
  · dsimp only
    refine Frame.step (tallyAdd_frame _ _) ?_ rfl
    refine Frame.step (raise_frame _ _ _) ?_ rfl
    refine Frame.step (completeHeld_frame _ _) ?_ rfl
    refine Frame.step (settleAcks_frame _) ?_ rfl
    refine Frame.upd_easel ?_ rfl
    refine Frame.ite ?_ ?_
    · refine Frame.upd_sys ?_ rfl
      refine Frame.step (modGroup_frame _ _ _) ?_ rfl
      exact Frame.refl _ _
    · refine Frame.step (modGroup_frame _ _ _) ?_ rfl
      exact Frame.refl _ _

theorem bumpCodec_frame (s : State) (g : Nat) (sub : Nat) (n : Nat) :
    Frame [.stats] s (bumpCodec s g sub n) := by
  unfold bumpCodec
  refine Frame.step (bump_frame _ _ _ _) ?_ rfl
  refine Frame.step (bump_frame _ _ _ _) ?_ rfl
  exact Frame.refl _ _

theorem countDecode_frame (s : State) (g : Nat) (erased : List Nat) (r : DecodeResult) (t : TileId) :
    Frame [.perf, .stats] s (countDecode s g erased r t) := by
  unfold countDecode
  dsimp only
  split
  · dsimp only
    refine Frame.step (perfCount_frame _ _ _ _) ?_ rfl
    refine Frame.step (bumpCodec_frame _ _ _ _) ?_ rfl
    exact Frame.refl _ _
  · split
    · split
      · refine Frame.step (bumpCodec_frame _ _ _ _) ?_ rfl
        refine Frame.foldl ?_ ?_
        · intro _ _
          refine Frame.step (bump_frame _ _ _ _) ?_ rfl
          exact Frame.refl _ _
        · refine Frame.step (maxStat_frame _ _ _ _) ?_ rfl
          refine Frame.step (maxStat_frame _ _ _ _) ?_ rfl
          refine Frame.step (bumpCodec_frame _ _ _ _) ?_ rfl
          refine Frame.ite ?_ ?_
          · refine Frame.step (bumpCodec_frame _ _ _ _) ?_ rfl
            split
            · refine Frame.step (perfCount_frame _ _ _ _) ?_ rfl
              refine Frame.step (bumpCodec_frame _ _ _ _) ?_ rfl
              exact Frame.refl _ _
            · refine Frame.step (perfCount_frame _ _ _ _) ?_ rfl
              refine Frame.step (bumpCodec_frame _ _ _ _) ?_ rfl
              exact Frame.refl _ _
          · refine Frame.ite ?_ ?_
            · refine Frame.step (bumpCodec_frame _ _ _ _) ?_ rfl
              split
              · refine Frame.step (perfCount_frame _ _ _ _) ?_ rfl
                refine Frame.step (bumpCodec_frame _ _ _ _) ?_ rfl
                exact Frame.refl _ _
              · refine Frame.step (perfCount_frame _ _ _ _) ?_ rfl
                refine Frame.step (bumpCodec_frame _ _ _ _) ?_ rfl
                exact Frame.refl _ _
            · split
              · refine Frame.step (perfCount_frame _ _ _ _) ?_ rfl
                refine Frame.step (bumpCodec_frame _ _ _ _) ?_ rfl
                exact Frame.refl _ _
              · refine Frame.step (perfCount_frame _ _ _ _) ?_ rfl
                refine Frame.step (bumpCodec_frame _ _ _ _) ?_ rfl
                exact Frame.refl _ _
      · refine Frame.foldl ?_ ?_
        · intro _ _
          refine Frame.step (bump_frame _ _ _ _) ?_ rfl
          exact Frame.refl _ _
        · refine Frame.step (maxStat_frame _ _ _ _) ?_ rfl
          refine Frame.step (maxStat_frame _ _ _ _) ?_ rfl
          refine Frame.step (bumpCodec_frame _ _ _ _) ?_ rfl
          refine Frame.ite ?_ ?_
          · refine Frame.step (bumpCodec_frame _ _ _ _) ?_ rfl
            split
            · refine Frame.step (perfCount_frame _ _ _ _) ?_ rfl
              refine Frame.step (bumpCodec_frame _ _ _ _) ?_ rfl
              exact Frame.refl _ _
            · refine Frame.step (perfCount_frame _ _ _ _) ?_ rfl
              refine Frame.step (bumpCodec_frame _ _ _ _) ?_ rfl
              exact Frame.refl _ _
          · refine Frame.ite ?_ ?_
            · refine Frame.step (bumpCodec_frame _ _ _ _) ?_ rfl
              split
              · refine Frame.step (perfCount_frame _ _ _ _) ?_ rfl
                refine Frame.step (bumpCodec_frame _ _ _ _) ?_ rfl
                exact Frame.refl _ _
              · refine Frame.step (perfCount_frame _ _ _ _) ?_ rfl
                refine Frame.step (bumpCodec_frame _ _ _ _) ?_ rfl
                exact Frame.refl _ _
            · split
              · refine Frame.step (perfCount_frame _ _ _ _) ?_ rfl
                refine Frame.step (bumpCodec_frame _ _ _ _) ?_ rfl
                exact Frame.refl _ _
              · refine Frame.step (perfCount_frame _ _ _ _) ?_ rfl
                refine Frame.step (bumpCodec_frame _ _ _ _) ?_ rfl
                exact Frame.refl _ _
    · split
      · refine Frame.step (bumpCodec_frame _ _ _ _) ?_ rfl
        refine Frame.foldl ?_ ?_
        · intro _ _
          refine Frame.step (bump_frame _ _ _ _) ?_ rfl
          exact Frame.refl _ _
        · refine Frame.step (maxStat_frame _ _ _ _) ?_ rfl
          refine Frame.step (maxStat_frame _ _ _ _) ?_ rfl
          refine Frame.step (bumpCodec_frame _ _ _ _) ?_ rfl
          refine Frame.ite ?_ ?_
          · refine Frame.step (bumpCodec_frame _ _ _ _) ?_ rfl
            split
            · refine Frame.step (perfCount_frame _ _ _ _) ?_ rfl
              refine Frame.step (bumpCodec_frame _ _ _ _) ?_ rfl
              exact Frame.refl _ _
            · refine Frame.step (perfCount_frame _ _ _ _) ?_ rfl
              refine Frame.step (bumpCodec_frame _ _ _ _) ?_ rfl
              exact Frame.refl _ _
          · refine Frame.ite ?_ ?_
            · refine Frame.step (bumpCodec_frame _ _ _ _) ?_ rfl
              split
              · refine Frame.step (perfCount_frame _ _ _ _) ?_ rfl
                refine Frame.step (bumpCodec_frame _ _ _ _) ?_ rfl
                exact Frame.refl _ _
              · refine Frame.step (perfCount_frame _ _ _ _) ?_ rfl
                refine Frame.step (bumpCodec_frame _ _ _ _) ?_ rfl
                exact Frame.refl _ _
            · split
              · refine Frame.step (perfCount_frame _ _ _ _) ?_ rfl
                refine Frame.step (bumpCodec_frame _ _ _ _) ?_ rfl
                exact Frame.refl _ _
              · refine Frame.step (perfCount_frame _ _ _ _) ?_ rfl
                refine Frame.step (bumpCodec_frame _ _ _ _) ?_ rfl
                exact Frame.refl _ _
      · refine Frame.foldl ?_ ?_
        · intro _ _
          refine Frame.step (bump_frame _ _ _ _) ?_ rfl
          exact Frame.refl _ _
        · refine Frame.step (maxStat_frame _ _ _ _) ?_ rfl
          refine Frame.step (maxStat_frame _ _ _ _) ?_ rfl
          refine Frame.step (bumpCodec_frame _ _ _ _) ?_ rfl
          refine Frame.ite ?_ ?_
          · refine Frame.step (bumpCodec_frame _ _ _ _) ?_ rfl
            split
            · refine Frame.step (perfCount_frame _ _ _ _) ?_ rfl
              refine Frame.step (bumpCodec_frame _ _ _ _) ?_ rfl
              exact Frame.refl _ _
            · refine Frame.step (perfCount_frame _ _ _ _) ?_ rfl
              refine Frame.step (bumpCodec_frame _ _ _ _) ?_ rfl
              exact Frame.refl _ _
          · refine Frame.ite ?_ ?_
            · refine Frame.step (bumpCodec_frame _ _ _ _) ?_ rfl
              split
              · refine Frame.step (perfCount_frame _ _ _ _) ?_ rfl
                refine Frame.step (bumpCodec_frame _ _ _ _) ?_ rfl
                exact Frame.refl _ _
              · refine Frame.step (perfCount_frame _ _ _ _) ?_ rfl
                refine Frame.step (bumpCodec_frame _ _ _ _) ?_ rfl
                exact Frame.refl _ _
            · split
              · refine Frame.step (perfCount_frame _ _ _ _) ?_ rfl
                refine Frame.step (bumpCodec_frame _ _ _ _) ?_ rfl
                exact Frame.refl _ _
              · refine Frame.step (perfCount_frame _ _ _ _) ?_ rfl
                refine Frame.step (bumpCodec_frame _ _ _ _) ?_ rfl
                exact Frame.refl _ _
    · refine Frame.step (bumpCodec_frame _ _ _ _) ?_ rfl
      refine Frame.ite ?_ ?_
      · refine Frame.step (bumpCodec_frame _ _ _ _) ?_ rfl
        split
        · refine Frame.step (perfCount_frame _ _ _ _) ?_ rfl
          refine Frame.step (bumpCodec_frame _ _ _ _) ?_ rfl
          exact Frame.refl _ _
        · refine Frame.step (perfCount_frame _ _ _ _) ?_ rfl
          refine Frame.step (bumpCodec_frame _ _ _ _) ?_ rfl
          exact Frame.refl _ _
      · refine Frame.ite ?_ ?_
        · refine Frame.step (bumpCodec_frame _ _ _ _) ?_ rfl
          split
          · refine Frame.step (perfCount_frame _ _ _ _) ?_ rfl
            refine Frame.step (bumpCodec_frame _ _ _ _) ?_ rfl
            exact Frame.refl _ _
          · refine Frame.step (perfCount_frame _ _ _ _) ?_ rfl
            refine Frame.step (bumpCodec_frame _ _ _ _) ?_ rfl
            exact Frame.refl _ _
        · split
          · refine Frame.step (perfCount_frame _ _ _ _) ?_ rfl
            refine Frame.step (bumpCodec_frame _ _ _ _) ?_ rfl
            exact Frame.refl _ _
          · refine Frame.step (perfCount_frame _ _ _ _) ?_ rfl
            refine Frame.step (bumpCodec_frame _ _ _ _) ?_ rfl
            exact Frame.refl _ _
    · refine Frame.ite ?_ ?_
      · refine Frame.step (bumpCodec_frame _ _ _ _) ?_ rfl
        split
        · refine Frame.step (perfCount_frame _ _ _ _) ?_ rfl
          refine Frame.step (bumpCodec_frame _ _ _ _) ?_ rfl
          exact Frame.refl _ _
        · refine Frame.step (perfCount_frame _ _ _ _) ?_ rfl
          refine Frame.step (bumpCodec_frame _ _ _ _) ?_ rfl
          exact Frame.refl _ _
      · refine Frame.ite ?_ ?_
        · refine Frame.step (bumpCodec_frame _ _ _ _) ?_ rfl
          split
          · refine Frame.step (perfCount_frame _ _ _ _) ?_ rfl
            refine Frame.step (bumpCodec_frame _ _ _ _) ?_ rfl
            exact Frame.refl _ _
          · refine Frame.step (perfCount_frame _ _ _ _) ?_ rfl
            refine Frame.step (bumpCodec_frame _ _ _ _) ?_ rfl
            exact Frame.refl _ _
        · split
          · refine Frame.step (perfCount_frame _ _ _ _) ?_ rfl
            refine Frame.step (bumpCodec_frame _ _ _ _) ?_ rfl
            exact Frame.refl _ _
          · refine Frame.step (perfCount_frame _ _ _ _) ?_ rfl
            refine Frame.step (bumpCodec_frame _ _ _ _) ?_ rfl
            exact Frame.refl _ _

theorem searchColumns_frame (t : TileId) (g : Nat) (addr : Nat) (lost : List Nat) (err : Codeword) (a1 : List Nat) (a2 : State) :
    Frame [.perf, .stats] a2 (searchColumns t g addr lost err a1 a2).1 := by
  induction a1 generalizing t g addr lost err a2 with
  | nil =>
    unfold searchColumns
    dsimp only
    exact Frame.refl _ _
  | cons a l ih =>
    unfold searchColumns
    dsimp only
    split
    · dsimp only
      refine Frame.step (countDecode_frame _ _ _ _ _) ?_ rfl
      exact Frame.refl _ _
    · refine Frame.step (ih _ _ _ _ _ _) ?_ rfl
      refine Frame.step (countDecode_frame _ _ _ _ _) ?_ rfl
      exact Frame.refl _ _

theorem takeErased_frame (s : State) (g : Nat) (addrs : List Nat) :
    Frame [.channels] s (takeErased s g addrs).1 := by
  unfold takeErased
  refine Frame.foldlFst ?_ ?_
  · intro _ _
    dsimp only
    refine Frame.fstIte ?_ ?_
    · dsimp only
      refine Frame.step (modChannel_frame _ _ _) ?_ rfl
      exact Frame.refl _ _
    · exact Frame.refl _ _
  · dsimp only
    exact Frame.refl _ _

theorem countReads_frame (s : State) (pl : Place) (n : Nat) :
    Frame [.stats] s (countReads s pl n) := by
  unfold countReads
  dsimp only
  refine Frame.foldl ?_ ?_
  · intro _ _
    refine Frame.step (bump_frame _ _ _ _) ?_ rfl
    exact Frame.refl _ _
  · exact Frame.refl _ _

theorem readTile_frame (s : State) (t : TileId) (pl : Place) (err : Codeword) (xfer : List Nat) :
    Frame [.perf, .stats] s (readTile s t pl err xfer).1 := by
  unfold readTile
  dsimp only
  refine Frame.step (countDecode_frame _ _ _ _ _) ?_ rfl
  refine Frame.step (countReads_frame _ _ _) ?_ rfl
  exact Frame.refl _ _

theorem sweepTile_frame (t : TileId) (pl : Place) (a1 : Nat) (a2 : List Codeword) (a3 : State) :
    Frame [.channels, .perf, .stats] a3 (sweepTile t pl a1 a2 a3).1 := by
  induction a1 generalizing t pl a2 a3 with
  | zero =>
    unfold sweepTile
    dsimp only
    exact Frame.refl _ _
  | succ n ih =>
    unfold sweepTile
    dsimp only
    split
    · dsimp only
      refine Frame.step (readTile_frame _ _ _ _ _) ?_ rfl
      refine Frame.step (takeErased_frame _ _ _) ?_ rfl
      exact Frame.refl _ _
    · dsimp only
      refine Frame.step (readTile_frame _ _ _ _ _) ?_ rfl
      refine Frame.step (takeErased_frame _ _ _) ?_ rfl
      exact Frame.refl _ _
    · refine Frame.step (ih _ _ _ _) ?_ rfl
      refine Frame.step (readTile_frame _ _ _ _ _) ?_ rfl
      refine Frame.step (takeErased_frame _ _ _) ?_ rfl
      exact Frame.refl _ _

theorem searchTile_frame (errs : List TileDisturb) (s : State) (t : TileId) (g : Nat) (addr : Nat) :
    Frame [.channels, .perf, .stats] s (searchTile errs s t g addr).1 := by
  unfold searchTile
  dsimp only
  split
  · dsimp only
    refine Frame.step (sweepTile_frame _ _ _ _ _) ?_ rfl
    exact Frame.refl _ _
  · refine Frame.fstIte ?_ ?_
    · dsimp only
      refine Frame.step (sweepTile_frame _ _ _ _ _) ?_ rfl
      exact Frame.refl _ _
    · dsimp only
      refine Frame.step (searchColumns_frame _ _ _ _ _ _ _) ?_ rfl
      refine Frame.step (sweepTile_frame _ _ _ _ _) ?_ rfl
      exact Frame.refl _ _

theorem readHeaders_frame (errs : List TileDisturb) (s : State) (g : Nat) :
    Frame [.channels, .perf, .stats] s (readHeaders errs s g).1 := by
  unfold readHeaders
  dsimp only
  refine Frame.foldlFst ?_ ?_
  · intro _ _
    split
    · refine Frame.fstIte ?_ ?_
      · dsimp only
        refine Frame.ofFst (searchTile_frame _ _ _ _ _) (by assumption) ?_ rfl
        exact Frame.refl _ _
      · dsimp only
        refine Frame.ofFst (searchTile_frame _ _ _ _ _) (by assumption) ?_ rfl
        exact Frame.refl _ _
    · dsimp only
      refine Frame.ofFst (searchTile_frame _ _ _ _ _) (by assumption) ?_ rfl
      exact Frame.refl _ _
  · dsimp only
    exact Frame.refl _ _

theorem loadGroup_frame (s : State) (g : Nat) (h : HeaderRead) (hs : List HeaderRead) (body : List (List Byte)) :
    Frame [.groups] s (loadGroup s g h hs body) := by
  unfold loadGroup
  dsimp only
  refine Frame.step (modGroup_frame _ _ _) ?_ rfl
  exact Frame.refl _ _

theorem recoveryFor_frame (s : State) (cause : Nat) :
    Frame [.sys] s (recoveryFor s cause) := by
  unfold recoveryFor
  refine Frame.ite ?_ ?_
  · refine Frame.upd_sys ?_ rfl
    exact Frame.refl _ _
  · exact Frame.refl _ _

theorem modRegion_frame (s : State) (g : Nat) (p : Nat) (f : RegionRec → RegionRec) :
    Frame [.groups] s (modRegion s g p f) := by
  unfold modRegion
  refine Frame.step (modGroup_frame _ _ _) ?_ rfl
  exact Frame.refl _ _

theorem markRebuilding_frame (s : State) (g : Nat) :
    Frame [.groups] s (markRebuilding s g) := by
  unfold markRebuilding
  refine Frame.foldl ?_ ?_
  · intro _ _
    refine Frame.step (modRegion_frame _ _ _ _) ?_ rfl
    exact Frame.refl _ _
  · exact Frame.refl _ _

theorem settleStale_frame (s : State) (g : Nat) (h : HeaderRead) (found : List Nat) :
    Frame [.sys, .mgmt, .folio, .ledger, .ports, .groups, .easel, .palette, .directory, .queues, .barrow, .perf, .stats, .out] s (settleStale s g h found) := by
  unfold settleStale
  dsimp only
  split
  · refine Frame.ite ?_ ?_
    · refine Frame.step (recoveryFor_frame _ _) ?_ rfl
      exact Frame.refl _ _
    · exact Frame.refl _ _
  · refine Frame.step (markRebuilding_frame _ _) ?_ rfl
    refine Frame.step (modGroup_frame _ _ _) ?_ rfl
    exact Frame.refl _ _
  · refine Frame.ite ?_ ?_
    · refine Frame.step (tallyAdd_frame _ _) ?_ rfl
      refine Frame.step (raise_frame _ _ _) ?_ rfl
      refine Frame.step (modGroup_frame _ _ _) ?_ rfl
      exact Frame.refl _ _
    · refine Frame.step (markRebuilding_frame _ _) ?_ rfl
      refine Frame.step (tallyAdd_frame _ _) ?_ rfl
      refine Frame.step (raise_frame _ _ _) ?_ rfl
      refine Frame.step (modGroup_frame _ _ _) ?_ rfl
      exact Frame.refl _ _
  · refine Frame.step (fenceGroup_frame _ _) ?_ rfl
    exact Frame.refl _ _

theorem readBodyTiles_frame (errs : List TileDisturb) (g : Nat) (gen : Nat) (a1 : Nat) (a2 : Nat) (a3 : State) (a4 : List (List Byte)) (a5 : List Nat) :
    Frame [.channels, .perf, .stats] a3 (readBodyTiles errs g gen a1 a2 a3 a4 a5).1 := by
  induction a1 generalizing errs g gen a2 a3 a4 a5 with
  | zero =>
    unfold readBodyTiles
    dsimp only
    exact Frame.refl _ _
  | succ n ih =>
    unfold readBodyTiles
    dsimp only
    split
    · refine Frame.fstIte ?_ ?_
      · refine Frame.step (ih _ _ _ _ _ _ _) ?_ rfl
        refine Frame.step (searchTile_frame _ _ _ _ _) ?_ rfl
        exact Frame.refl _ _
      · dsimp only
        refine Frame.step (searchTile_frame _ _ _ _ _) ?_ rfl
        exact Frame.refl _ _
    · dsimp only
      refine Frame.step (searchTile_frame _ _ _ _ _) ?_ rfl
      exact Frame.refl _ _

theorem readBody_frame (errs : List TileDisturb) (s : State) (g : Nat) (gen : Nat) :
    Frame [.channels, .perf, .stats] s (readBody errs s g gen).1 := by
  unfold readBody
  refine Frame.step (readBodyTiles_frame _ _ _ _ _ _ _ _) ?_ rfl
  exact Frame.refl _ _

theorem pickGeneration_frame (errs : List TileDisturb) (g : Nat) (hs : List HeaderRead) :
    ∀ (s : State) (cols : List Nat), Frame [.mgmt, .folio, .ledger, .channels, .perf, .stats, .out] s (pickGeneration errs g hs s cols).1 := by
  induction hs with
  | nil =>
    intro s cols
    have e : pickGeneration errs g [] s cols = (s, none, cols) := rfl
    rw [e]
    exact Frame.refl _ _
  | cons h hs ih =>
    intro s cols
    unfold pickGeneration
    have hb := readBody_frame errs s g h.gen
    generalize readBody errs s g h.gen = r at *
    dsimp only
    split
    · exact Frame.step hb (Frame.refl _ _) rfl
    · exact Frame.step (ih _ _) (Frame.step (raise_frame _ _ _) (Frame.step hb (Frame.refl _ _) rfl) rfl) rfl

theorem staleColumn_frame (s : State) (g : Nat) (c : Nat) :
    Frame [.sys, .mgmt, .folio, .ledger, .ports, .groups, .easel, .palette, .directory, .queues, .barrow, .perf, .stats, .out] s (staleColumn s g c) := by
  unfold staleColumn
  refine Frame.ite ?_ ?_
  · refine Frame.step (fenceGroup_frame _ _) ?_ rfl
    exact Frame.refl _ _
  · dsimp only
    refine Frame.step (modGroup_frame _ _ _) ?_ rfl
    refine Frame.foldl ?_ ?_
    · intro _ _
      refine Frame.step (modRegion_frame _ _ _ _) ?_ rfl
      exact Frame.refl _ _
    · exact Frame.refl _ _

theorem columnErased_frame (s : State) (g : Nat) (c : Nat) :
    Frame [.sys, .mgmt, .folio, .ledger, .ports, .groups, .easel, .palette, .directory, .queues, .barrow, .perf, .stats, .out] s (columnErased s g c) := by
  unfold columnErased
  refine Frame.ite ?_ ?_
  · exact Frame.refl _ _
  · refine Frame.ite ?_ ?_
    · refine Frame.step (staleColumn_frame _ _ _) ?_ rfl
      exact Frame.refl _ _
    · refine Frame.ite ?_ ?_
      · refine Frame.step (fenceGroup_frame _ _) ?_ rfl
        exact Frame.refl _ _
      · exact Frame.refl _ _

theorem markFailed_frame (s : State) (ch : Nat) (cause : Nat) :
    Frame [.sys, .mgmt, .folio, .ledger, .channels, .ports, .groups, .easel, .palette, .directory, .queues, .barrow, .perf, .stats, .out] s (markFailed s ch cause) := by
  unfold markFailed
  refine Frame.ite ?_ ?_
  · exact Frame.refl _ _
  · dsimp only
    refine Frame.step (columnErased_frame _ _ _) ?_ rfl
    refine Frame.step (tallyAdd_frame _ _) ?_ rfl
    refine Frame.step (raise_frame _ _ _) ?_ rfl
    refine Frame.step (modChannel_frame _ _ _) ?_ rfl
    exact Frame.refl _ _

theorem typeCheck_frame (s : State) (ch : Nat) :
    Frame [.sys, .mgmt, .folio, .ledger, .channels, .ports, .groups, .easel, .palette, .directory, .queues, .barrow, .perf, .stats, .out] s (typeCheck s ch) := by
  unfold typeCheck
  dsimp only
  refine Frame.ite ?_ ?_
  · refine Frame.step (markFailed_frame _ _ _) ?_ rfl
    exact Frame.refl _ _
  · refine Frame.ite ?_ ?_
    · refine Frame.step (raise_frame _ _ _) ?_ rfl
      exact Frame.refl _ _
    · exact Frame.refl _ _

theorem anchorGroup_frame (errs : List TileDisturb) (x : State × List Loaded) (g : Nat) :
    Frame [.sys, .mgmt, .folio, .ledger, .channels, .ports, .groups, .easel, .palette, .directory, .queues, .barrow, .perf, .stats, .out] x.1 (anchorGroup errs x g).1 := by
  unfold anchorGroup
  dsimp only
  refine Frame.fstIte ?_ ?_
  · dsimp only
    refine Frame.step (fenceGroup_frame _ _) ?_ rfl
    refine Frame.foldl ?_ ?_
    · intro _ _
      refine Frame.step (typeCheck_frame _ _) ?_ rfl
      exact Frame.refl _ _
    · split
      · refine Frame.step (modGroup_frame _ _ _) ?_ rfl
        refine Frame.step (readHeaders_frame _ _ _) ?_ rfl
        exact Frame.refl _ _
      · refine Frame.step (readHeaders_frame _ _ _) ?_ rfl
        exact Frame.refl _ _
  · split
    · dsimp only
      refine Frame.step (recoveryFor_frame _ _) ?_ rfl
      refine Frame.ofFst (pickGeneration_frame _ _ _ _ _) (by assumption) ?_ rfl
      refine Frame.foldl ?_ ?_
      · intro _ _
        refine Frame.step (typeCheck_frame _ _) ?_ rfl
        exact Frame.refl _ _
      · split
        · refine Frame.step (modGroup_frame _ _ _) ?_ rfl
          refine Frame.step (readHeaders_frame _ _ _) ?_ rfl
          exact Frame.refl _ _
        · refine Frame.step (readHeaders_frame _ _ _) ?_ rfl
          exact Frame.refl _ _
    · dsimp only
      refine Frame.ite ?_ ?_
      · refine Frame.step (recoveryFor_frame _ _) ?_ rfl
        refine Frame.step (settleStale_frame _ _ _ _) ?_ rfl
        refine Frame.step (loadGroup_frame _ _ _ _ _) ?_ rfl
        refine Frame.ofFst (pickGeneration_frame _ _ _ _ _) (by assumption) ?_ rfl
        refine Frame.foldl ?_ ?_
        · intro _ _
          refine Frame.step (typeCheck_frame _ _) ?_ rfl
          exact Frame.refl _ _
        · split
          · refine Frame.step (modGroup_frame _ _ _) ?_ rfl
            refine Frame.step (readHeaders_frame _ _ _) ?_ rfl
            exact Frame.refl _ _
          · refine Frame.step (readHeaders_frame _ _ _) ?_ rfl
            exact Frame.refl _ _
      · refine Frame.step (settleStale_frame _ _ _ _) ?_ rfl
        refine Frame.step (loadGroup_frame _ _ _ _ _) ?_ rfl
        refine Frame.ofFst (pickGeneration_frame _ _ _ _ _) (by assumption) ?_ rfl
        refine Frame.foldl ?_ ?_
        · intro _ _
          refine Frame.step (typeCheck_frame _ _) ?_ rfl
          exact Frame.refl _ _
        · split
          · refine Frame.step (modGroup_frame _ _ _) ?_ rfl
            refine Frame.step (readHeaders_frame _ _ _) ?_ rfl
            exact Frame.refl _ _
          · refine Frame.step (readHeaders_frame _ _ _) ?_ rfl
            exact Frame.refl _ _

theorem anchorSeed_frame (s : State) (loaded : List Loaded) :
    Frame [.sys, .path] s (anchorSeed s loaded) := by
  unfold anchorSeed
  dsimp only
  split
  · exact Frame.refl _ _
  · refine Frame.upd_path ?_ rfl
    refine Frame.ite ?_ ?_
    · exact Frame.refl _ _
    · refine Frame.step (recoveryFor_frame _ _) ?_ rfl
      exact Frame.refl _ _

theorem aonReset_frame (s : State) (bytes : Tab Byte) : Frame [.sys, .mgmt, .folio, .ledger, .power, .reserve, .thermal, .channels, .ports, .groups, .easel, .palette, .crypt, .directory, .queues, .barrow, .perf, .path, .settings, .stats] s (aonReset s bytes) := by
  intro u hu
  cases u <;> first | exact absurd (by decide) hu | rfl

theorem imageStore_frame (s : State) (off : Nat) (bs : List Byte) :
    Frame [.folio] s (imageStore s off bs) := by
  unfold imageStore
  refine Frame.upd_folio ?_ rfl
  exact Frame.refl _ _

theorem folioQueue_frame (s : State) (cls : Nat) (task : FolioTask) (pages : List (Nat × List Byte)) :
    Frame [.folio] s (folioQueue s cls task pages) := by
  unfold folioQueue
  refine Frame.upd_folio ?_ rfl
  exact Frame.refl _ _

theorem sectionUpdateIn_frame (cls : Nat) (s : State) (k : Nat) :
    Frame [.folio] s (sectionUpdateIn cls s k) := by
  unfold sectionUpdateIn
  refine Frame.ite ?_ ?_
  · exact Frame.refl _ _
  · refine Frame.step (folioQueue_frame _ _ _ _) ?_ rfl
    exact Frame.refl _ _

theorem defaultSection_frame (s : State) (k : Nat) :
    Frame [.settings] s (defaultSection s k) := by
  unfold defaultSection
  refine Frame.foldl ?_ ?_
  · intro _ _
    refine Frame.upd_settings ?_ rfl
    exact Frame.refl _ _
  · exact Frame.refl _ _

theorem applyRestore_frame (s : State) :
    Frame [.mgmt, .folio, .ledger, .settings, .stats, .out] s (applyRestore s) := by
  unfold applyRestore
  dsimp only
  refine Frame.ite ?_ ?_
  · refine Frame.step (raise_frame _ _ _) ?_ rfl
    refine Frame.step (sectionUpdateIn_frame _ _ _) ?_ rfl
    refine Frame.step (imageStore_frame _ _ _) ?_ rfl
    refine Frame.foldl ?_ ?_
    · intro _ _
      refine Frame.step (sectionUpdateIn_frame _ _ _) ?_ rfl
      refine Frame.step (defaultSection_frame _ _) ?_ rfl
      exact Frame.refl _ _
    · exact Frame.refl _ _
  · exact Frame.refl _ _

theorem keyStoreUpdate_frame (s : State) :
    Frame [.folio, .crypt] s (keyStoreUpdate s) := by
  unfold keyStoreUpdate
  dsimp only
  refine Frame.step (folioQueue_frame _ _ _ _) ?_ rfl
  refine Frame.upd_crypt ?_ rfl
  exact Frame.refl _ _

theorem layoutSave_frame (s : State) (k : Nat) :
    Frame [.folio] s (layoutSave s k) := by
  unfold layoutSave
  refine Frame.ite ?_ ?_
  · exact Frame.refl _ _
  · refine Frame.step (folioQueue_frame _ _ _ _) ?_ rfl
    exact Frame.refl _ _

theorem modRange_frame (s : State) (r : Nat) (f : RangeRec → RangeRec) :
    Frame [.crypt] s (modRange s r f) := by
  unfold modRange
  refine Frame.upd_crypt ?_ rfl
  exact Frame.refl _ _

theorem emptyRange_frame (s : State) (r : Nat) :
    Frame [.crypt] s (emptyRange s r) := by
  unfold emptyRange
  refine Frame.step (modRange_frame _ _ _) ?_ rfl
  exact Frame.refl _ _

theorem rangesCommitted_frame (old : State) (s : State) :
    Frame [.folio, .crypt] s (rangesCommitted old s) := by
  unfold rangesCommitted
  dsimp only
  refine Frame.step (keyStoreUpdate_frame _) ?_ rfl
  refine Frame.upd_crypt ?_ rfl
  refine Frame.step (layoutSave_frame _ _) ?_ rfl
  refine Frame.foldl ?_ ?_
  · intro _ _
    refine Frame.step (emptyRange_frame _ _) ?_ rfl
    exact Frame.refl _ _
  · exact Frame.refl _ _

theorem combinedView_frame (s : State) (set : List (Nat × List Byte)) :
    Frame [.settings] s (combinedView s set) := by
  unfold combinedView
  refine Frame.foldl ?_ ?_
  · intro _ _
    refine Frame.ite ?_ ?_
    · exact Frame.refl _ _
    · refine Frame.step (setSetting_frame _ _ _ _) ?_ rfl
      exact Frame.refl _ _
  · exact Frame.refl _ _

theorem layoutCommitted_frame (s : State) :
    Frame [.folio, .path] s (layoutCommitted s) := by
  unfold layoutCommitted
  refine Frame.step (layoutSave_frame _ _) ?_ rfl
  refine Frame.upd_path ?_ rfl
  exact Frame.refl _ _

theorem rangeKeyInstall_frame (s : State) (r : Nat) (wrapped : List Byte) :
    Frame [.mgmt, .folio, .ledger, .crypt, .stats, .out] s (rangeKeyInstall s r wrapped) := by
  unfold rangeKeyInstall
  dsimp only
  split
  · exact Frame.refl _ _
  · refine Frame.step (raise_frame _ _ _) ?_ rfl
    refine Frame.step (keyStoreUpdate_frame _) ?_ rfl
    refine Frame.step (modRange_frame _ _ _) ?_ rfl
    exact Frame.refl _ _

theorem modArb_frame (s : State) (g : Nat) (f : Arbiter → Arbiter) :
    Frame [.groups] s (modArb s g f) := by
  unfold modArb
  refine Frame.step (modGroup_frame _ _ _) ?_ rfl
  exact Frame.refl _ _

theorem ranksCommitted_frame (s : State) (n : Nat) :
    Frame [.mgmt, .folio, .ledger, .groups, .stats, .out] s (ranksCommitted s n) := by
  unfold ranksCommitted
  dsimp only
  refine Frame.step (raise_frame _ _ _) ?_ rfl
  refine Frame.foldl ?_ ?_
  · intro _ _
    refine Frame.step (modArb_frame _ _ _) ?_ rfl
    exact Frame.refl _ _
  · exact Frame.refl _ _

theorem modEntry_frame (s : State) (e : Nat) (f : DirEntry → DirEntry) :
    Frame [.directory] s (modEntry s e f) := by
  unfold modEntry
  refine Frame.upd_directory ?_ rfl
  exact Frame.refl _ _

theorem dropEntries_frame (old : State) (s : State) (changed : List Nat) :
    Frame [.directory] s (dropEntries old s changed) := by
  unfold dropEntries
  refine Frame.foldl ?_ ?_
  · intro _ _
    dsimp only
    refine Frame.ite ?_ ?_
    · refine Frame.step (modEntry_frame _ _ _) ?_ rfl
      exact Frame.refl _ _
    · exact Frame.refl _ _
  · exact Frame.refl _ _

theorem windowsCommitted_frame (old : State) (s : State) (n : Nat) :
    Frame [.mgmt, .folio, .ledger, .directory, .stats, .out] s (windowsCommitted old s n) := by
  unfold windowsCommitted
  dsimp only
  refine Frame.step (raise_frame _ _ _) ?_ rfl
  refine Frame.step (dropEntries_frame _ _ _) ?_ rfl
  exact Frame.refl _ _

theorem applySet_frame (old : State) (n : Nat) (set : List (Nat × List Byte)) :
    Frame [.sys, .mgmt, .folio, .ledger, .groups, .crypt, .directory, .path, .settings, .stats, .out] old (applySet old n set) := by
  unfold applySet
  dsimp only
  refine Frame.step (modSession_frame _ _ _) ?_ rfl
  refine Frame.ite ?_ ?_
  · refine Frame.step (windowsCommitted_frame _ _ _) ?_ rfl
    refine Frame.ite ?_ ?_
    · refine Frame.step (ranksCommitted_frame _ _) ?_ rfl
      split
      · refine Frame.step (rangeKeyInstall_frame _ _ _) ?_ rfl
        refine Frame.ite ?_ ?_
        · refine Frame.step (rangesCommitted_frame _ _) ?_ rfl
          refine Frame.ite ?_ ?_
          · refine Frame.step (layoutCommitted_frame _) ?_ rfl
            refine Frame.ite ?_ ?_
            · refine Frame.step (raise_frame _ _ _) ?_ rfl
              refine Frame.ite ?_ ?_
              · refine Frame.upd_sys ?_ rfl
                refine Frame.step (combinedView_frame _ _) ?_ rfl
                exact Frame.refl _ _
              · refine Frame.step (combinedView_frame _ _) ?_ rfl
                exact Frame.refl _ _
            · refine Frame.ite ?_ ?_
              · refine Frame.upd_sys ?_ rfl
                refine Frame.step (combinedView_frame _ _) ?_ rfl
                exact Frame.refl _ _
              · refine Frame.step (combinedView_frame _ _) ?_ rfl
                exact Frame.refl _ _
          · refine Frame.ite ?_ ?_
            · refine Frame.step (raise_frame _ _ _) ?_ rfl
              refine Frame.ite ?_ ?_
              · refine Frame.upd_sys ?_ rfl
                refine Frame.step (combinedView_frame _ _) ?_ rfl
                exact Frame.refl _ _
              · refine Frame.step (combinedView_frame _ _) ?_ rfl
                exact Frame.refl _ _
            · refine Frame.ite ?_ ?_
              · refine Frame.upd_sys ?_ rfl
                refine Frame.step (combinedView_frame _ _) ?_ rfl
                exact Frame.refl _ _
              · refine Frame.step (combinedView_frame _ _) ?_ rfl
                exact Frame.refl _ _
        · refine Frame.ite ?_ ?_
          · refine Frame.step (layoutCommitted_frame _) ?_ rfl
            refine Frame.ite ?_ ?_
            · refine Frame.step (raise_frame _ _ _) ?_ rfl
              refine Frame.ite ?_ ?_
              · refine Frame.upd_sys ?_ rfl
                refine Frame.step (combinedView_frame _ _) ?_ rfl
                exact Frame.refl _ _
              · refine Frame.step (combinedView_frame _ _) ?_ rfl
                exact Frame.refl _ _
            · refine Frame.ite ?_ ?_
              · refine Frame.upd_sys ?_ rfl
                refine Frame.step (combinedView_frame _ _) ?_ rfl
                exact Frame.refl _ _
              · refine Frame.step (combinedView_frame _ _) ?_ rfl
                exact Frame.refl _ _
          · refine Frame.ite ?_ ?_
            · refine Frame.step (raise_frame _ _ _) ?_ rfl
              refine Frame.ite ?_ ?_
              · refine Frame.upd_sys ?_ rfl
                refine Frame.step (combinedView_frame _ _) ?_ rfl
                exact Frame.refl _ _
              · refine Frame.step (combinedView_frame _ _) ?_ rfl
                exact Frame.refl _ _
            · refine Frame.ite ?_ ?_
              · refine Frame.upd_sys ?_ rfl
                refine Frame.step (combinedView_frame _ _) ?_ rfl
                exact Frame.refl _ _
              · refine Frame.step (combinedView_frame _ _) ?_ rfl
                exact Frame.refl _ _
      · refine Frame.ite ?_ ?_
        · refine Frame.step (rangesCommitted_frame _ _) ?_ rfl
          refine Frame.ite ?_ ?_
          · refine Frame.step (layoutCommitted_frame _) ?_ rfl
            refine Frame.ite ?_ ?_
            · refine Frame.step (raise_frame _ _ _) ?_ rfl
              refine Frame.ite ?_ ?_
              · refine Frame.upd_sys ?_ rfl
                refine Frame.step (combinedView_frame _ _) ?_ rfl
                exact Frame.refl _ _
              · refine Frame.step (combinedView_frame _ _) ?_ rfl
                exact Frame.refl _ _
            · refine Frame.ite ?_ ?_
              · refine Frame.upd_sys ?_ rfl
                refine Frame.step (combinedView_frame _ _) ?_ rfl
                exact Frame.refl _ _
              · refine Frame.step (combinedView_frame _ _) ?_ rfl
                exact Frame.refl _ _
          · refine Frame.ite ?_ ?_
            · refine Frame.step (raise_frame _ _ _) ?_ rfl
              refine Frame.ite ?_ ?_
              · refine Frame.upd_sys ?_ rfl
                refine Frame.step (combinedView_frame _ _) ?_ rfl
                exact Frame.refl _ _
              · refine Frame.step (combinedView_frame _ _) ?_ rfl
                exact Frame.refl _ _
            · refine Frame.ite ?_ ?_
              · refine Frame.upd_sys ?_ rfl
                refine Frame.step (combinedView_frame _ _) ?_ rfl
                exact Frame.refl _ _
              · refine Frame.step (combinedView_frame _ _) ?_ rfl
                exact Frame.refl _ _
        · refine Frame.ite ?_ ?_
          · refine Frame.step (layoutCommitted_frame _) ?_ rfl
            refine Frame.ite ?_ ?_
            · refine Frame.step (raise_frame _ _ _) ?_ rfl
              refine Frame.ite ?_ ?_
              · refine Frame.upd_sys ?_ rfl
                refine Frame.step (combinedView_frame _ _) ?_ rfl
                exact Frame.refl _ _
              · refine Frame.step (combinedView_frame _ _) ?_ rfl
                exact Frame.refl _ _
            · refine Frame.ite ?_ ?_
              · refine Frame.upd_sys ?_ rfl
                refine Frame.step (combinedView_frame _ _) ?_ rfl
                exact Frame.refl _ _
              · refine Frame.step (combinedView_frame _ _) ?_ rfl
                exact Frame.refl _ _
          · refine Frame.ite ?_ ?_
            · refine Frame.step (raise_frame _ _ _) ?_ rfl
              refine Frame.ite ?_ ?_
              · refine Frame.upd_sys ?_ rfl
                refine Frame.step (combinedView_frame _ _) ?_ rfl
                exact Frame.refl _ _
              · refine Frame.step (combinedView_frame _ _) ?_ rfl
                exact Frame.refl _ _
            · refine Frame.ite ?_ ?_
              · refine Frame.upd_sys ?_ rfl
                refine Frame.step (combinedView_frame _ _) ?_ rfl
                exact Frame.refl _ _
              · refine Frame.step (combinedView_frame _ _) ?_ rfl
                exact Frame.refl _ _
    · split
      · refine Frame.step (rangeKeyInstall_frame _ _ _) ?_ rfl
        refine Frame.ite ?_ ?_
        · refine Frame.step (rangesCommitted_frame _ _) ?_ rfl
          refine Frame.ite ?_ ?_
          · refine Frame.step (layoutCommitted_frame _) ?_ rfl
            refine Frame.ite ?_ ?_
            · refine Frame.step (raise_frame _ _ _) ?_ rfl
              refine Frame.ite ?_ ?_
              · refine Frame.upd_sys ?_ rfl
                refine Frame.step (combinedView_frame _ _) ?_ rfl
                exact Frame.refl _ _
              · refine Frame.step (combinedView_frame _ _) ?_ rfl
                exact Frame.refl _ _
            · refine Frame.ite ?_ ?_
              · refine Frame.upd_sys ?_ rfl
                refine Frame.step (combinedView_frame _ _) ?_ rfl
                exact Frame.refl _ _
              · refine Frame.step (combinedView_frame _ _) ?_ rfl
                exact Frame.refl _ _
          · refine Frame.ite ?_ ?_
            · refine Frame.step (raise_frame _ _ _) ?_ rfl
              refine Frame.ite ?_ ?_
              · refine Frame.upd_sys ?_ rfl
                refine Frame.step (combinedView_frame _ _) ?_ rfl
                exact Frame.refl _ _
              · refine Frame.step (combinedView_frame _ _) ?_ rfl
                exact Frame.refl _ _
            · refine Frame.ite ?_ ?_
              · refine Frame.upd_sys ?_ rfl
                refine Frame.step (combinedView_frame _ _) ?_ rfl
                exact Frame.refl _ _
              · refine Frame.step (combinedView_frame _ _) ?_ rfl
                exact Frame.refl _ _
        · refine Frame.ite ?_ ?_
          · refine Frame.step (layoutCommitted_frame _) ?_ rfl
            refine Frame.ite ?_ ?_
            · refine Frame.step (raise_frame _ _ _) ?_ rfl
              refine Frame.ite ?_ ?_
              · refine Frame.upd_sys ?_ rfl
                refine Frame.step (combinedView_frame _ _) ?_ rfl
                exact Frame.refl _ _
              · refine Frame.step (combinedView_frame _ _) ?_ rfl
                exact Frame.refl _ _
            · refine Frame.ite ?_ ?_
              · refine Frame.upd_sys ?_ rfl
                refine Frame.step (combinedView_frame _ _) ?_ rfl
                exact Frame.refl _ _
              · refine Frame.step (combinedView_frame _ _) ?_ rfl
                exact Frame.refl _ _
          · refine Frame.ite ?_ ?_
            · refine Frame.step (raise_frame _ _ _) ?_ rfl
              refine Frame.ite ?_ ?_
              · refine Frame.upd_sys ?_ rfl
                refine Frame.step (combinedView_frame _ _) ?_ rfl
                exact Frame.refl _ _
              · refine Frame.step (combinedView_frame _ _) ?_ rfl
                exact Frame.refl _ _
            · refine Frame.ite ?_ ?_
              · refine Frame.upd_sys ?_ rfl
                refine Frame.step (combinedView_frame _ _) ?_ rfl
                exact Frame.refl _ _
              · refine Frame.step (combinedView_frame _ _) ?_ rfl
                exact Frame.refl _ _
      · refine Frame.ite ?_ ?_
        · refine Frame.step (rangesCommitted_frame _ _) ?_ rfl
          refine Frame.ite ?_ ?_
          · refine Frame.step (layoutCommitted_frame _) ?_ rfl
            refine Frame.ite ?_ ?_
            · refine Frame.step (raise_frame _ _ _) ?_ rfl
              refine Frame.ite ?_ ?_
              · refine Frame.upd_sys ?_ rfl
                refine Frame.step (combinedView_frame _ _) ?_ rfl
                exact Frame.refl _ _
              · refine Frame.step (combinedView_frame _ _) ?_ rfl
                exact Frame.refl _ _
            · refine Frame.ite ?_ ?_
              · refine Frame.upd_sys ?_ rfl
                refine Frame.step (combinedView_frame _ _) ?_ rfl
                exact Frame.refl _ _
              · refine Frame.step (combinedView_frame _ _) ?_ rfl
                exact Frame.refl _ _
          · refine Frame.ite ?_ ?_
            · refine Frame.step (raise_frame _ _ _) ?_ rfl
              refine Frame.ite ?_ ?_
              · refine Frame.upd_sys ?_ rfl
                refine Frame.step (combinedView_frame _ _) ?_ rfl
                exact Frame.refl _ _
              · refine Frame.step (combinedView_frame _ _) ?_ rfl
                exact Frame.refl _ _
            · refine Frame.ite ?_ ?_
              · refine Frame.upd_sys ?_ rfl
                refine Frame.step (combinedView_frame _ _) ?_ rfl
                exact Frame.refl _ _
              · refine Frame.step (combinedView_frame _ _) ?_ rfl
                exact Frame.refl _ _
        · refine Frame.ite ?_ ?_
          · refine Frame.step (layoutCommitted_frame _) ?_ rfl
            refine Frame.ite ?_ ?_
            · refine Frame.step (raise_frame _ _ _) ?_ rfl
              refine Frame.ite ?_ ?_
              · refine Frame.upd_sys ?_ rfl
                refine Frame.step (combinedView_frame _ _) ?_ rfl
                exact Frame.refl _ _
              · refine Frame.step (combinedView_frame _ _) ?_ rfl
                exact Frame.refl _ _
            · refine Frame.ite ?_ ?_
              · refine Frame.upd_sys ?_ rfl
                refine Frame.step (combinedView_frame _ _) ?_ rfl
                exact Frame.refl _ _
              · refine Frame.step (combinedView_frame _ _) ?_ rfl
                exact Frame.refl _ _
          · refine Frame.ite ?_ ?_
            · refine Frame.step (raise_frame _ _ _) ?_ rfl
              refine Frame.ite ?_ ?_
              · refine Frame.upd_sys ?_ rfl
                refine Frame.step (combinedView_frame _ _) ?_ rfl
                exact Frame.refl _ _
              · refine Frame.step (combinedView_frame _ _) ?_ rfl
                exact Frame.refl _ _
            · refine Frame.ite ?_ ?_
              · refine Frame.upd_sys ?_ rfl
                refine Frame.step (combinedView_frame _ _) ?_ rfl
                exact Frame.refl _ _
              · refine Frame.step (combinedView_frame _ _) ?_ rfl
                exact Frame.refl _ _
  · refine Frame.ite ?_ ?_
    · refine Frame.step (ranksCommitted_frame _ _) ?_ rfl
      split
      · refine Frame.step (rangeKeyInstall_frame _ _ _) ?_ rfl
        refine Frame.ite ?_ ?_
        · refine Frame.step (rangesCommitted_frame _ _) ?_ rfl
          refine Frame.ite ?_ ?_
          · refine Frame.step (layoutCommitted_frame _) ?_ rfl
            refine Frame.ite ?_ ?_
            · refine Frame.step (raise_frame _ _ _) ?_ rfl
              refine Frame.ite ?_ ?_
              · refine Frame.upd_sys ?_ rfl
                refine Frame.step (combinedView_frame _ _) ?_ rfl
                exact Frame.refl _ _
              · refine Frame.step (combinedView_frame _ _) ?_ rfl
                exact Frame.refl _ _
            · refine Frame.ite ?_ ?_
              · refine Frame.upd_sys ?_ rfl
                refine Frame.step (combinedView_frame _ _) ?_ rfl
                exact Frame.refl _ _
              · refine Frame.step (combinedView_frame _ _) ?_ rfl
                exact Frame.refl _ _
          · refine Frame.ite ?_ ?_
            · refine Frame.step (raise_frame _ _ _) ?_ rfl
              refine Frame.ite ?_ ?_
              · refine Frame.upd_sys ?_ rfl
                refine Frame.step (combinedView_frame _ _) ?_ rfl
                exact Frame.refl _ _
              · refine Frame.step (combinedView_frame _ _) ?_ rfl
                exact Frame.refl _ _
            · refine Frame.ite ?_ ?_
              · refine Frame.upd_sys ?_ rfl
                refine Frame.step (combinedView_frame _ _) ?_ rfl
                exact Frame.refl _ _
              · refine Frame.step (combinedView_frame _ _) ?_ rfl
                exact Frame.refl _ _
        · refine Frame.ite ?_ ?_
          · refine Frame.step (layoutCommitted_frame _) ?_ rfl
            refine Frame.ite ?_ ?_
            · refine Frame.step (raise_frame _ _ _) ?_ rfl
              refine Frame.ite ?_ ?_
              · refine Frame.upd_sys ?_ rfl
                refine Frame.step (combinedView_frame _ _) ?_ rfl
                exact Frame.refl _ _
              · refine Frame.step (combinedView_frame _ _) ?_ rfl
                exact Frame.refl _ _
            · refine Frame.ite ?_ ?_
              · refine Frame.upd_sys ?_ rfl
                refine Frame.step (combinedView_frame _ _) ?_ rfl
                exact Frame.refl _ _
              · refine Frame.step (combinedView_frame _ _) ?_ rfl
                exact Frame.refl _ _
          · refine Frame.ite ?_ ?_
            · refine Frame.step (raise_frame _ _ _) ?_ rfl
              refine Frame.ite ?_ ?_
              · refine Frame.upd_sys ?_ rfl
                refine Frame.step (combinedView_frame _ _) ?_ rfl
                exact Frame.refl _ _
              · refine Frame.step (combinedView_frame _ _) ?_ rfl
                exact Frame.refl _ _
            · refine Frame.ite ?_ ?_
              · refine Frame.upd_sys ?_ rfl
                refine Frame.step (combinedView_frame _ _) ?_ rfl
                exact Frame.refl _ _
              · refine Frame.step (combinedView_frame _ _) ?_ rfl
                exact Frame.refl _ _
      · refine Frame.ite ?_ ?_
        · refine Frame.step (rangesCommitted_frame _ _) ?_ rfl
          refine Frame.ite ?_ ?_
          · refine Frame.step (layoutCommitted_frame _) ?_ rfl
            refine Frame.ite ?_ ?_
            · refine Frame.step (raise_frame _ _ _) ?_ rfl
              refine Frame.ite ?_ ?_
              · refine Frame.upd_sys ?_ rfl
                refine Frame.step (combinedView_frame _ _) ?_ rfl
                exact Frame.refl _ _
              · refine Frame.step (combinedView_frame _ _) ?_ rfl
                exact Frame.refl _ _
            · refine Frame.ite ?_ ?_
              · refine Frame.upd_sys ?_ rfl
                refine Frame.step (combinedView_frame _ _) ?_ rfl
                exact Frame.refl _ _
              · refine Frame.step (combinedView_frame _ _) ?_ rfl
                exact Frame.refl _ _
          · refine Frame.ite ?_ ?_
            · refine Frame.step (raise_frame _ _ _) ?_ rfl
              refine Frame.ite ?_ ?_
              · refine Frame.upd_sys ?_ rfl
                refine Frame.step (combinedView_frame _ _) ?_ rfl
                exact Frame.refl _ _
              · refine Frame.step (combinedView_frame _ _) ?_ rfl
                exact Frame.refl _ _
            · refine Frame.ite ?_ ?_
              · refine Frame.upd_sys ?_ rfl
                refine Frame.step (combinedView_frame _ _) ?_ rfl
                exact Frame.refl _ _
              · refine Frame.step (combinedView_frame _ _) ?_ rfl
                exact Frame.refl _ _
        · refine Frame.ite ?_ ?_
          · refine Frame.step (layoutCommitted_frame _) ?_ rfl
            refine Frame.ite ?_ ?_
            · refine Frame.step (raise_frame _ _ _) ?_ rfl
              refine Frame.ite ?_ ?_
              · refine Frame.upd_sys ?_ rfl
                refine Frame.step (combinedView_frame _ _) ?_ rfl
                exact Frame.refl _ _
              · refine Frame.step (combinedView_frame _ _) ?_ rfl
                exact Frame.refl _ _
            · refine Frame.ite ?_ ?_
              · refine Frame.upd_sys ?_ rfl
                refine Frame.step (combinedView_frame _ _) ?_ rfl
                exact Frame.refl _ _
              · refine Frame.step (combinedView_frame _ _) ?_ rfl
                exact Frame.refl _ _
          · refine Frame.ite ?_ ?_
            · refine Frame.step (raise_frame _ _ _) ?_ rfl
              refine Frame.ite ?_ ?_
              · refine Frame.upd_sys ?_ rfl
                refine Frame.step (combinedView_frame _ _) ?_ rfl
                exact Frame.refl _ _
              · refine Frame.step (combinedView_frame _ _) ?_ rfl
                exact Frame.refl _ _
            · refine Frame.ite ?_ ?_
              · refine Frame.upd_sys ?_ rfl
                refine Frame.step (combinedView_frame _ _) ?_ rfl
                exact Frame.refl _ _
              · refine Frame.step (combinedView_frame _ _) ?_ rfl
                exact Frame.refl _ _
    · split
      · refine Frame.step (rangeKeyInstall_frame _ _ _) ?_ rfl
        refine Frame.ite ?_ ?_
        · refine Frame.step (rangesCommitted_frame _ _) ?_ rfl
          refine Frame.ite ?_ ?_
          · refine Frame.step (layoutCommitted_frame _) ?_ rfl
            refine Frame.ite ?_ ?_
            · refine Frame.step (raise_frame _ _ _) ?_ rfl
              refine Frame.ite ?_ ?_
              · refine Frame.upd_sys ?_ rfl
                refine Frame.step (combinedView_frame _ _) ?_ rfl
                exact Frame.refl _ _
              · refine Frame.step (combinedView_frame _ _) ?_ rfl
                exact Frame.refl _ _
            · refine Frame.ite ?_ ?_
              · refine Frame.upd_sys ?_ rfl
                refine Frame.step (combinedView_frame _ _) ?_ rfl
                exact Frame.refl _ _
              · refine Frame.step (combinedView_frame _ _) ?_ rfl
                exact Frame.refl _ _
          · refine Frame.ite ?_ ?_
            · refine Frame.step (raise_frame _ _ _) ?_ rfl
              refine Frame.ite ?_ ?_
              · refine Frame.upd_sys ?_ rfl
                refine Frame.step (combinedView_frame _ _) ?_ rfl
                exact Frame.refl _ _
              · refine Frame.step (combinedView_frame _ _) ?_ rfl
                exact Frame.refl _ _
            · refine Frame.ite ?_ ?_
              · refine Frame.upd_sys ?_ rfl
                refine Frame.step (combinedView_frame _ _) ?_ rfl
                exact Frame.refl _ _
              · refine Frame.step (combinedView_frame _ _) ?_ rfl
                exact Frame.refl _ _
        · refine Frame.ite ?_ ?_
          · refine Frame.step (layoutCommitted_frame _) ?_ rfl
            refine Frame.ite ?_ ?_
            · refine Frame.step (raise_frame _ _ _) ?_ rfl
              refine Frame.ite ?_ ?_
              · refine Frame.upd_sys ?_ rfl
                refine Frame.step (combinedView_frame _ _) ?_ rfl
                exact Frame.refl _ _
              · refine Frame.step (combinedView_frame _ _) ?_ rfl
                exact Frame.refl _ _
            · refine Frame.ite ?_ ?_
              · refine Frame.upd_sys ?_ rfl
                refine Frame.step (combinedView_frame _ _) ?_ rfl
                exact Frame.refl _ _
              · refine Frame.step (combinedView_frame _ _) ?_ rfl
                exact Frame.refl _ _
          · refine Frame.ite ?_ ?_
            · refine Frame.step (raise_frame _ _ _) ?_ rfl
              refine Frame.ite ?_ ?_
              · refine Frame.upd_sys ?_ rfl
                refine Frame.step (combinedView_frame _ _) ?_ rfl
                exact Frame.refl _ _
              · refine Frame.step (combinedView_frame _ _) ?_ rfl
                exact Frame.refl _ _
            · refine Frame.ite ?_ ?_
              · refine Frame.upd_sys ?_ rfl
                refine Frame.step (combinedView_frame _ _) ?_ rfl
                exact Frame.refl _ _
              · refine Frame.step (combinedView_frame _ _) ?_ rfl
                exact Frame.refl _ _
      · refine Frame.ite ?_ ?_
        · refine Frame.step (rangesCommitted_frame _ _) ?_ rfl
          refine Frame.ite ?_ ?_
          · refine Frame.step (layoutCommitted_frame _) ?_ rfl
            refine Frame.ite ?_ ?_
            · refine Frame.step (raise_frame _ _ _) ?_ rfl
              refine Frame.ite ?_ ?_
              · refine Frame.upd_sys ?_ rfl
                refine Frame.step (combinedView_frame _ _) ?_ rfl
                exact Frame.refl _ _
              · refine Frame.step (combinedView_frame _ _) ?_ rfl
                exact Frame.refl _ _
            · refine Frame.ite ?_ ?_
              · refine Frame.upd_sys ?_ rfl
                refine Frame.step (combinedView_frame _ _) ?_ rfl
                exact Frame.refl _ _
              · refine Frame.step (combinedView_frame _ _) ?_ rfl
                exact Frame.refl _ _
          · refine Frame.ite ?_ ?_
            · refine Frame.step (raise_frame _ _ _) ?_ rfl
              refine Frame.ite ?_ ?_
              · refine Frame.upd_sys ?_ rfl
                refine Frame.step (combinedView_frame _ _) ?_ rfl
                exact Frame.refl _ _
              · refine Frame.step (combinedView_frame _ _) ?_ rfl
                exact Frame.refl _ _
            · refine Frame.ite ?_ ?_
              · refine Frame.upd_sys ?_ rfl
                refine Frame.step (combinedView_frame _ _) ?_ rfl
                exact Frame.refl _ _
              · refine Frame.step (combinedView_frame _ _) ?_ rfl
                exact Frame.refl _ _
        · refine Frame.ite ?_ ?_
          · refine Frame.step (layoutCommitted_frame _) ?_ rfl
            refine Frame.ite ?_ ?_
            · refine Frame.step (raise_frame _ _ _) ?_ rfl
              refine Frame.ite ?_ ?_
              · refine Frame.upd_sys ?_ rfl
                refine Frame.step (combinedView_frame _ _) ?_ rfl
                exact Frame.refl _ _
              · refine Frame.step (combinedView_frame _ _) ?_ rfl
                exact Frame.refl _ _
            · refine Frame.ite ?_ ?_
              · refine Frame.upd_sys ?_ rfl
                refine Frame.step (combinedView_frame _ _) ?_ rfl
                exact Frame.refl _ _
              · refine Frame.step (combinedView_frame _ _) ?_ rfl
                exact Frame.refl _ _
          · refine Frame.ite ?_ ?_
            · refine Frame.step (raise_frame _ _ _) ?_ rfl
              refine Frame.ite ?_ ?_
              · refine Frame.upd_sys ?_ rfl
                refine Frame.step (combinedView_frame _ _) ?_ rfl
                exact Frame.refl _ _
              · refine Frame.step (combinedView_frame _ _) ?_ rfl
                exact Frame.refl _ _
            · refine Frame.ite ?_ ?_
              · refine Frame.upd_sys ?_ rfl
                refine Frame.step (combinedView_frame _ _) ?_ rfl
                exact Frame.refl _ _
              · refine Frame.step (combinedView_frame _ _) ?_ rfl
                exact Frame.refl _ _

theorem rowNominate_frame (s : State) (bank : Nat) (row : Nat) :
    Frame [.easel] s (rowNominate s bank row) := by
  unfold rowNominate
  refine Frame.upd_easel ?_ rfl
  exact Frame.refl _ _

theorem poisonPermanent_frame (s : State) (line : Nat) :
    Frame [.palette] s (poisonPermanent s line) := by
  unfold poisonPermanent
  refine Frame.step (poisonInsert_frame _ _ _ _) ?_ rfl
  exact Frame.refl _ _

theorem portFree_frame (s : State) (q : Nat) (n : Nat) :
    Frame [.reserve] s (portFree s q n) := by
  unfold portFree
  refine Frame.upd_reserve ?_ rfl
  exact Frame.refl _ _

theorem deviceBook_frame (s : State) (n : Nat) :
    Frame [.reserve] s (deviceBook s n) := by
  unfold deviceBook
  refine Frame.upd_reserve ?_ rfl
  exact Frame.refl _ _

theorem portBook_frame (s : State) (q : Nat) (n : Nat) :
    Frame [.reserve] s (portBook s q n) := by
  unfold portBook
  refine Frame.upd_reserve ?_ rfl
  exact Frame.refl _ _

theorem deviceFree_frame (s : State) (n : Nat) :
    Frame [.reserve] s (deviceFree s n) := by
  unfold deviceFree
  refine Frame.upd_reserve ?_ rfl
  exact Frame.refl _ _

theorem chargeLine_frame (s : State) (p : Nat) (q : Nat) (n : Nat) :
    Frame [.reserve, .easel] s (chargeLine s p q n) := by
  unfold chargeLine
  dsimp only
  refine Frame.ite ?_ ?_
  · refine Frame.step (modLine_frame _ _ _) ?_ rfl
    refine Frame.ite ?_ ?_
    · exact Frame.refl _ _
    · refine Frame.step (portBook_frame _ _ _) ?_ rfl
      exact Frame.refl _ _
  · refine Frame.step (modLine_frame _ _ _) ?_ rfl
    refine Frame.ite ?_ ?_
    · refine Frame.ite ?_ ?_
      · refine Frame.step (deviceBook_frame _ _) ?_ rfl
        exact Frame.refl _ _
      · refine Frame.step (deviceFree_frame _ _) ?_ rfl
        exact Frame.refl _ _
    · refine Frame.ite ?_ ?_
      · refine Frame.step (portBook_frame _ _ _) ?_ rfl
        exact Frame.refl _ _
      · refine Frame.step (portFree_frame _ _ _) ?_ rfl
        exact Frame.refl _ _

theorem setMerge_frame (s : State) (p : Nat) (m : BitVec 64) :
    Frame [.easel] s (setMerge s p m) := by
  unfold setMerge
  refine Frame.upd_easel ?_ rfl
  exact Frame.refl _ _

theorem deadenFill_frame (s : State) (p : Nat) (line : Nat) (mine : ReadWait → Bool) :
    Frame [.easel] s (deadenFill s p line mine) := by
  unfold deadenFill
  dsimp only
  refine Frame.upd_easel ?_ rfl
  exact Frame.refl _ _

theorem poisonPresent_frame (s : State) (line : Nat) :
    Frame [.reserve, .easel] s (poisonPresent s line) := by
  unfold poisonPresent
  dsimp only
  split
  · refine Frame.step (modLine_frame _ _ _) ?_ rfl
    refine Frame.ite ?_ ?_
    · refine Frame.step (deadenFill_frame _ _ _ _) ?_ rfl
      refine Frame.step (setMerge_frame _ _ _) ?_ rfl
      refine Frame.ite ?_ ?_
      · refine Frame.step (chargeLine_frame _ _ _ _) ?_ rfl
        exact Frame.refl _ _
      · exact Frame.refl _ _
    · refine Frame.step (setMerge_frame _ _ _) ?_ rfl
      refine Frame.ite ?_ ?_
      · refine Frame.step (chargeLine_frame _ _ _ _) ?_ rfl
        exact Frame.refl _ _
      · exact Frame.refl _ _
  · exact Frame.refl _ _

theorem issueRead_frame (s : State) (line : Nat) (kind : Nat) (p : Nat) (readers : List ReadWait) :
    Frame [.easel] s (issueRead s line kind p readers) := by
  unfold issueRead
  dsimp only
  refine Frame.upd_easel ?_ rfl
  exact Frame.refl _ _

theorem eventPost_frame (s : State) (p : Nat) (log : Nat) (kind : Nat) (what : Nat) (dpa : Nat) :
    Frame [.mgmt, .folio, .ledger, .ports, .queues, .stats, .out] s (eventPost s p log kind what dpa) := by
  unfold eventPost
  dsimp only
  refine Frame.ite ?_ ?_
  · refine Frame.step (eventQueue_frame _ _ _) ?_ rfl
    refine Frame.step (modPort_frame _ _ _) ?_ rfl
    exact Frame.refl _ _
  · refine Frame.ite ?_ ?_
    · refine Frame.step (modPort_frame _ _ _) ?_ rfl
      exact Frame.refl _ _
    · refine Frame.step (raise_frame _ _ _) ?_ rfl
      refine Frame.step (bump_frame _ _ _ _) ?_ rfl
      refine Frame.step (modPort_frame _ _ _) ?_ rfl
      exact Frame.refl _ _

theorem mediaEvent_frame (s : State) (what : Nat) (line : Nat) :
    Frame [.mgmt, .folio, .ledger, .ports, .queues, .stats, .out] s (mediaEvent s what line) := by
  unfold mediaEvent
  refine Frame.foldl ?_ ?_
  · intro _ _
    refine Frame.ite ?_ ?_
    · refine Frame.step (eventPost_frame _ _ _ _ _ _) ?_ rfl
      exact Frame.refl _ _
    · exact Frame.refl _ _
  · exact Frame.refl _ _

theorem easelWordLost_frame (s : State) (p : Nat) (scrub : Bool) :
    Frame [.mgmt, .folio, .ledger, .reserve, .ports, .easel, .palette, .queues, .stats, .out] s (easelWordLost s p scrub) := by
  unfold easelWordLost
  dsimp only
  refine Frame.ite ?_ ?_
  · refine Frame.step (raise_frame _ _ _) ?_ rfl
    refine Frame.step (mediaEvent_frame _ _ _) ?_ rfl
    refine Frame.step (poisonPermanent_frame _ _) ?_ rfl
    refine Frame.step (bump_frame _ _ _ _) ?_ rfl
    refine Frame.step (poisonPresent_frame _ _) ?_ rfl
    refine Frame.step (rowNominate_frame _ _ _) ?_ rfl
    exact Frame.refl _ _
  · refine Frame.ite ?_ ?_
    · refine Frame.step (rowNominate_frame _ _ _) ?_ rfl
      exact Frame.refl _ _
    · refine Frame.ite ?_ ?_
      · refine Frame.step (issueRead_frame _ _ _ _ _) ?_ rfl
        refine Frame.step (raise_frame _ _ _) ?_ rfl
        refine Frame.step (bump_frame _ _ _ _) ?_ rfl
        refine Frame.step (modLine_frame _ _ _) ?_ rfl
        refine Frame.step (rowNominate_frame _ _ _) ?_ rfl
        exact Frame.refl _ _
      · refine Frame.step (raise_frame _ _ _) ?_ rfl
        refine Frame.step (bump_frame _ _ _ _) ?_ rfl
        refine Frame.step (modLine_frame _ _ _) ?_ rfl
        refine Frame.step (rowNominate_frame _ _ _) ?_ rfl
        exact Frame.refl _ _

theorem tagMirrorLost_frame (s : State) (p : Nat) :
    Frame [.easel] s (tagMirrorLost s p) := by
  unfold tagMirrorLost
  refine Frame.upd_easel ?_ rfl
  exact Frame.refl _ _

theorem regionEntryLost_frame (s : State) (g : Nat) (p : Nat) :
    Frame [.mgmt, .folio, .ledger, .ports, .groups, .easel, .palette, .directory, .queues, .barrow, .perf, .stats, .out] s (regionEntryLost s g p) := by
  unfold regionEntryLost
  refine Frame.ite ?_ ?_
  · exact Frame.refl _ _
  · dsimp only
    refine Frame.step (raise_frame _ _ _) ?_ rfl
    refine Frame.step (completeHeld_frame _ _) ?_ rfl
    refine Frame.step (settleAcks_frame _) ?_ rfl
    refine Frame.upd_easel ?_ rfl
    refine Frame.step (modGroup_frame _ _ _) ?_ rfl
    exact Frame.refl _ _

theorem poisonCleared_frame (s : State) (b : Nat) :
    Frame [.mgmt, .folio, .ledger, .palette, .stats, .out] s (poisonCleared s b) := by
  unfold poisonCleared
  dsimp only
  refine Frame.foldl ?_ ?_
  · intro _ _
    refine Frame.step (poisonInsert_frame _ _ _ _) ?_ rfl
    exact Frame.refl _ _
  · refine Frame.step (raise_frame _ _ _) ?_ rfl
    refine Frame.step (bump_frame _ _ _ _) ?_ rfl
    refine Frame.step (poisonOverflow_frame _) ?_ rfl
    refine Frame.step (setBucket_frame _ _ _) ?_ rfl
    exact Frame.refl _ _

theorem moduleEvent_frame (s : State) (log : Nat) (what : Nat) :
    Frame [.mgmt, .folio, .ledger, .ports, .queues, .stats, .out] s (moduleEvent s log what) := by
  unfold moduleEvent
  refine Frame.foldl ?_ ?_
  · intro _ _
    refine Frame.step (eventPost_frame _ _ _ _ _ _) ?_ rfl
    exact Frame.refl _ _
  · exact Frame.refl _ _

theorem releaseDiscarded_frame (s : State) (line : Nat) :
    Frame [.mgmt, .folio, .ledger, .easel, .directory, .queues, .barrow, .perf, .stats, .out] s (releaseDiscarded s line) := by
  unfold releaseDiscarded
  refine Frame.step (settleAcks_frame _) ?_ rfl
  refine Frame.upd_easel ?_ rfl
  exact Frame.refl _ _

theorem destageRemove_frame (s : State) (p : Nat) :
    Frame [.groups, .easel] s (destageRemove s p) := by
  unfold destageRemove
  dsimp only
  refine Frame.step (modGroup_frame _ _ _) ?_ rfl
  refine Frame.step (setQueued_frame _ _ _) ?_ rfl
  exact Frame.refl _ _

theorem tagIdentityLost_frame (s : State) (p : Nat) :
    Frame [.mgmt, .folio, .ledger, .reserve, .ports, .groups, .easel, .directory, .queues, .barrow, .perf, .stats, .out] s (tagIdentityLost s p) := by
  unfold tagIdentityLost
  dsimp only
  refine Frame.step (moduleEvent_frame _ _ _) ?_ rfl
  refine Frame.step (raise_frame _ _ _) ?_ rfl
  refine Frame.step (bump_frame _ _ _ _) ?_ rfl
  refine Frame.step (rowNominate_frame _ _ _) ?_ rfl
  refine Frame.ite ?_ ?_
  · refine Frame.step (releaseDiscarded_frame _ _) ?_ rfl
    refine Frame.step (setMerge_frame _ _ _) ?_ rfl
    refine Frame.step (modLine_frame _ _ _) ?_ rfl
    refine Frame.step (destageRemove_frame _ _) ?_ rfl
    refine Frame.ite ?_ ?_
    · refine Frame.step (deadenFill_frame _ _ _ _) ?_ rfl
      refine Frame.step (chargeLine_frame _ _ _ _) ?_ rfl
      exact Frame.refl _ _
    · refine Frame.step (chargeLine_frame _ _ _ _) ?_ rfl
      exact Frame.refl _ _
  · refine Frame.step (setMerge_frame _ _ _) ?_ rfl
    refine Frame.step (modLine_frame _ _ _) ?_ rfl
    refine Frame.step (destageRemove_frame _ _) ?_ rfl
    refine Frame.ite ?_ ?_
    · refine Frame.step (deadenFill_frame _ _ _ _) ?_ rfl
      refine Frame.step (chargeLine_frame _ _ _ _) ?_ rfl
      exact Frame.refl _ _
    · refine Frame.step (chargeLine_frame _ _ _ _) ?_ rfl
      exact Frame.refl _ _

theorem tagPrimaryLost_frame (s : State) (p : Nat) :
    Frame [.mgmt, .folio, .ledger, .reserve, .ports, .groups, .easel, .directory, .queues, .barrow, .perf, .stats, .out] s (tagPrimaryLost s p) := by
  unfold tagPrimaryLost
  refine Frame.ite ?_ ?_
  · refine Frame.step (tagIdentityLost_frame _ _) ?_ rfl
    exact Frame.refl _ _
  · refine Frame.step (rowNominate_frame _ _ _) ?_ rfl
    refine Frame.step (bump_frame _ _ _ _) ?_ rfl
    exact Frame.refl _ _

theorem modWay_frame (s : State) (w : Nat) (f : PalLine → PalLine) :
    Frame [.palette] s (modWay s w f) := by
  unfold modWay
  refine Frame.upd_palette ?_ rfl
  exact Frame.refl _ _

theorem palDrop_frame (s : State) (w : Nat) :
    Frame [.reserve, .palette] s (palDrop s w) := by
  unfold palDrop
  dsimp only
  refine Frame.upd_palette ?_ rfl
  refine Frame.ite ?_ ?_
  · refine Frame.step (deviceFree_frame _ _) ?_ rfl
    refine Frame.ite ?_ ?_
    · refine Frame.step (modWay_frame _ _ _) ?_ rfl
      refine Frame.step (modWay_frame _ _ _) ?_ rfl
      exact Frame.refl _ _
    · refine Frame.step (modWay_frame _ _ _) ?_ rfl
      exact Frame.refl _ _
  · refine Frame.ite ?_ ?_
    · refine Frame.step (modWay_frame _ _ _) ?_ rfl
      refine Frame.step (modWay_frame _ _ _) ?_ rfl
      exact Frame.refl _ _
    · refine Frame.step (modWay_frame _ _ _) ?_ rfl
      exact Frame.refl _ _

theorem palPush_frame (s : State) (u : PalUpdate) :
    Frame [.palette, .stats] s (palPush s u) := by
  unfold palPush
  refine Frame.ite ?_ ?_
  · exact Frame.refl _ _
  · refine Frame.ite ?_ ?_
    · refine Frame.ite ?_ ?_
      · exact Frame.refl _ _
      · refine Frame.step (palMiss_frame _ _ _) ?_ rfl
        exact Frame.refl _ _
    · refine Frame.ite ?_ ?_
      · refine Frame.step (palSelectSome_frame _ _) ?_ rfl
        exact Frame.refl _ _
      · refine Frame.step (palSelectSome_frame _ _) ?_ rfl
        exact Frame.refl _ _

theorem palPlace_frame (s : State) (w : Nat) (t : TileId) (data : Line) (cls : Nat) (fna : Bool) :
    Frame [.reserve, .palette] s (palPlace s w t data cls fna) := by
  unfold palPlace
  dsimp only
  refine Frame.ite ?_ ?_
  · refine Frame.step (palSelect_frame _ _) ?_ rfl
    refine Frame.step (palTouch_frame _ _) ?_ rfl
    refine Frame.ite ?_ ?_
    · refine Frame.step (deviceBook_frame _ _) ?_ rfl
      refine Frame.step (modWay_frame _ _ _) ?_ rfl
      refine Frame.step (modWay_frame _ _ _) ?_ rfl
      exact Frame.refl _ _
    · refine Frame.step (modWay_frame _ _ _) ?_ rfl
      refine Frame.step (modWay_frame _ _ _) ?_ rfl
      exact Frame.refl _ _
  · refine Frame.ite ?_ ?_
    · refine Frame.step (palSelectSome_frame _ _) ?_ rfl
      refine Frame.step (palTouch_frame _ _) ?_ rfl
      refine Frame.ite ?_ ?_
      · refine Frame.step (deviceBook_frame _ _) ?_ rfl
        refine Frame.step (modWay_frame _ _ _) ?_ rfl
        refine Frame.step (modWay_frame _ _ _) ?_ rfl
        exact Frame.refl _ _
      · refine Frame.step (modWay_frame _ _ _) ?_ rfl
        refine Frame.step (modWay_frame _ _ _) ?_ rfl
        exact Frame.refl _ _
    · refine Frame.step (palTouch_frame _ _) ?_ rfl
      refine Frame.ite ?_ ?_
      · refine Frame.step (deviceBook_frame _ _) ?_ rfl
        refine Frame.step (modWay_frame _ _ _) ?_ rfl
        refine Frame.step (modWay_frame _ _ _) ?_ rfl
        exact Frame.refl _ _
      · refine Frame.step (modWay_frame _ _ _) ?_ rfl
        refine Frame.step (modWay_frame _ _ _) ?_ rfl
        exact Frame.refl _ _

theorem palTry_frame (s : State) (u : PalUpdate) :
    FrameO [.reserve, .palette] s (palTry s u) := by
  unfold palTry
  dsimp only
  refine FrameO.ite ?_ ?_
  · exact FrameO.none
  · split
    · refine FrameO.ite ?_ ?_
      · refine FrameO.some ?_
        refine Frame.step (palPlace_frame _ _ _ _ _ _) ?_ rfl
        exact Frame.refl _ _
      · refine FrameO.ite ?_ ?_
        · exact FrameO.none
        · refine FrameO.ite ?_ ?_
          · refine FrameO.some ?_
            refine Frame.step (palPlace_frame _ _ _ _ _ _) ?_ rfl
            exact Frame.refl _ _
          · refine FrameO.map ?_
            intro _
            refine Frame.step (palPlace_frame _ _ _ _ _ _) ?_ rfl
            refine Frame.step (palDrop_frame _ _) ?_ rfl
            exact Frame.refl _ _
    · split
      · exact FrameO.none
      · refine FrameO.ite ?_ ?_
        · exact FrameO.none
        · refine FrameO.map ?_
          intro _
          refine Frame.step (palPlace_frame _ _ _ _ _ _) ?_ rfl
          exact Frame.refl _ _

theorem palApply_frame (s : State) (u : PalUpdate) :
    Frame [.reserve, .palette, .stats] s (palApply s u) := by
  unfold palApply
  dsimp only
  refine Frame.ite ?_ ?_
  · refine Frame.upd_palette ?_ rfl
    exact Frame.refl _ _
  · split
    · refine Frame.ofO (palTry_frame _ _) (by assumption) ?_ rfl
      exact Frame.refl _ _
    · refine Frame.upd_palette ?_ rfl
      refine Frame.step (palPush_frame _ _) ?_ rfl
      exact Frame.refl _ _

theorem palPut_frame (s : State) (cls : Nat) (t : TileId) (data : Option Line) (fna : Bool) :
    Frame [.reserve, .palette, .perf, .stats] s (palPut s cls t data fna) := by
  unfold palPut
  dsimp only
  refine Frame.step (palApply_frame _ _) ?_ rfl
  refine Frame.ite ?_ ?_
  · refine Frame.step (bump_frame _ _ _ _) ?_ rfl
    split
    · refine Frame.step (palTouch_frame _ _) ?_ rfl
      refine Frame.step (perfCount_frame _ _ _ _) ?_ rfl
      refine Frame.step (bump_frame _ _ _ _) ?_ rfl
      refine Frame.step (perfCount_frame _ _ _ _) ?_ rfl
      refine Frame.step (bump_frame _ _ _ _) ?_ rfl
      exact Frame.refl _ _
    · refine Frame.step (perfCount_frame _ _ _ _) ?_ rfl
      refine Frame.step (bump_frame _ _ _ _) ?_ rfl
      exact Frame.refl _ _
  · split
    · refine Frame.step (palTouch_frame _ _) ?_ rfl
      refine Frame.step (perfCount_frame _ _ _ _) ?_ rfl
      refine Frame.step (bump_frame _ _ _ _) ?_ rfl
      refine Frame.step (perfCount_frame _ _ _ _) ?_ rfl
      refine Frame.step (bump_frame _ _ _ _) ?_ rfl
      exact Frame.refl _ _
    · refine Frame.step (perfCount_frame _ _ _ _) ?_ rfl
      refine Frame.step (bump_frame _ _ _ _) ?_ rfl
      exact Frame.refl _ _

theorem noteProgram_frame (s : State) (pl : Place) (code : List Byte) :
    Frame [.groups] s (noteProgram s pl code) := by
  unfold noteProgram
  refine Frame.ite ?_ ?_
  · exact Frame.refl _ _
  · refine Frame.step (modGroup_frame _ _ _) ?_ rfl
    exact Frame.refl _ _

theorem countProgram_frame (s : State) (g : Nat) :
    Frame [.sys, .folio, .groups] s (countProgram s g) := by
  unfold countProgram
  dsimp only
  refine Frame.ite ?_ ?_
  · refine Frame.step (tallyAdd_frame _ _) ?_ rfl
    refine Frame.step (modGroup_frame _ _ _) ?_ rfl
    refine Frame.ite ?_ ?_
    · refine Frame.upd_sys ?_ rfl
      exact Frame.refl _ _
    · exact Frame.refl _ _
  · refine Frame.step (modGroup_frame _ _ _) ?_ rfl
    refine Frame.ite ?_ ?_
    · refine Frame.upd_sys ?_ rfl
      exact Frame.refl _ _
    · exact Frame.refl _ _

theorem storePatch_frame (s : State) (channel : Nat) (addr : Nat) (v : Patch) :
    Frame [.path] s (storePatch s channel addr v) := by
  unfold storePatch
  refine Frame.upd_path ?_ rfl
  exact Frame.refl _ _

theorem storeColumns_frame (s : State) (g : Nat) (addrs : List Nat) (code : List Byte) (cols : List Nat) :
    Frame [.sys, .folio, .groups, .path, .stats] s (storeColumns s g addrs code cols) := by
  unfold storeColumns
  refine Frame.step (countProgram_frame _ _) ?_ rfl
  refine Frame.foldl ?_ ?_
  · intro _ _
    refine Frame.step (bump_frame _ _ _ _) ?_ rfl
    refine Frame.step (storePatch_frame _ _ _ _) ?_ rfl
    exact Frame.refl _ _
  · exact Frame.refl _ _

theorem filterMark_frame (s : State) (g : Nat) (p : Nat) (q : Nat) :
    Frame [.groups] s (filterMark s g p q) := by
  unfold filterMark
  dsimp only
  refine Frame.step (modGroup_frame _ _ _) ?_ rfl
  exact Frame.refl _ _

theorem programAt_frame (s : State) (pl : Place) (code : List Byte) :
    Frame [.sys, .folio, .groups, .path, .stats] s (programAt s pl code) := by
  unfold programAt
  refine Frame.ite ?_ ?_
  · exact Frame.refl _ _
  · dsimp only
    refine Frame.step (modGroup_frame _ _ _) ?_ rfl
    refine Frame.step (filterMark_frame _ _ _ _) ?_ rfl
    refine Frame.step (storeColumns_frame _ _ _ _ _) ?_ rfl
    exact Frame.refl _ _

theorem regionWrite_frame (s : State) (g : Nat) (p : Nat) :
    Frame [.groups, .stats] s (regionWrite s g p) := by
  unfold regionWrite
  dsimp only
  refine Frame.ite ?_ ?_
  · refine Frame.step (modRegion_frame _ _ _ _) ?_ rfl
    exact Frame.refl _ _
  · refine Frame.ite ?_ ?_
    · refine Frame.ite ?_ ?_
      · refine Frame.step (bump_frame _ _ _ _) ?_ rfl
        refine Frame.step (modRegion_frame _ _ _ _) ?_ rfl
        exact Frame.refl _ _
      · refine Frame.step (modGroup_frame _ _ _) ?_ rfl
        refine Frame.step (modRegion_frame _ _ _ _) ?_ rfl
        exact Frame.refl _ _
    · refine Frame.step (modRegion_frame _ _ _ _) ?_ rfl
      exact Frame.refl _ _

theorem programTile_frame (s : State) (pl : Place) (code : List Byte) :
    Frame [.sys, .folio, .groups, .path, .stats] s (programTile s pl code) := by
  unfold programTile
  dsimp only
  split
  · refine Frame.ite ?_ ?_
    · refine Frame.step (regionWrite_frame _ _ _) ?_ rfl
      refine Frame.step (programAt_frame _ _ _) ?_ rfl
      exact Frame.refl _ _
    · refine Frame.step (programAt_frame _ _ _) ?_ rfl
      exact Frame.refl _ _
  · refine Frame.step (programAt_frame _ _ _) ?_ rfl
    exact Frame.refl _ _

theorem engineProgram_frame (s : State) (pl : Place) (code : List Byte) :
    Frame [.sys, .folio, .groups, .path, .stats] s (engineProgram s pl code) := by
  unfold engineProgram
  refine Frame.step (noteProgram_frame _ _ _) ?_ rfl
  refine Frame.step (programTile_frame _ _ _) ?_ rfl
  exact Frame.refl _ _

theorem writePoisonTile_frame (s : State) (line : Nat) (version : Nat) :
    Frame [.sys, .folio, .groups, .path, .stats] s (writePoisonTile s line version) := by
  unfold writePoisonTile
  split
  · refine Frame.step (bumpCodec_frame _ _ _ _) ?_ rfl
    refine Frame.step (engineProgram_frame _ _ _) ?_ rfl
    exact Frame.refl _ _
  · exact Frame.refl _ _

theorem readMeta_frame (s : State) (t : TileId) :
    Frame [.channels, .perf, .stats] s (readMeta s t).1 := by
  unfold readMeta
  split
  · dsimp only
    split
    · dsimp only
      refine Frame.step (readTile_frame _ _ _ _ _) ?_ rfl
      refine Frame.step (takeErased_frame _ _ _) ?_ rfl
      exact Frame.refl _ _
    · dsimp only
      refine Frame.step (readTile_frame _ _ _ _ _) ?_ rfl
      refine Frame.step (takeErased_frame _ _ _) ?_ rfl
      exact Frame.refl _ _
  · dsimp only
    exact Frame.refl _ _

theorem counterLost_frame (s : State) (c : Nat) (code : Nat) (data : List Byte) :
    Frame [.sys, .mgmt, .folio, .ledger, .reserve, .channels, .ports, .groups, .easel, .palette, .queues, .perf, .path, .stats, .draws, .out] s (counterLost s c code data) := by
  unfold counterLost
  dsimp only
  refine Frame.step (palPut_frame _ _ _ _ _) ?_ rfl
  refine Frame.step (raise_frame _ _ _) ?_ rfl
  refine Frame.foldl ?_ ?_
  · intro _ _
    refine Frame.step (mediaEvent_frame _ _ _) ?_ rfl
    refine Frame.step (poisonPermanent_frame _ _) ?_ rfl
    exact Frame.refl _ _
  · refine Frame.foldl ?_ ?_
    · intro _ _
      refine Frame.ite ?_ ?_
      · exact Frame.refl _ _
      · refine Frame.step (writePoisonTile_frame _ _ _) ?_ rfl
        exact Frame.refl _ _
    · refine Frame.step (afterDraw_frame _) ?_ rfl
      refine Frame.step (readMeta_frame _ _) ?_ rfl
      refine Frame.foldl ?_ ?_
      · intro _ _
        refine Frame.step (poisonPresent_frame _ _) ?_ rfl
        exact Frame.refl _ _
      · exact Frame.refl _ _

theorem remapRebuilt_frame (s : State) (g : Nat) (p : Nat) (t : Nat) (payload : Line) :
    Frame [.mgmt, .folio, .ledger, .reserve, .palette, .perf, .stats, .out] s (remapRebuilt s g p t payload) := by
  unfold remapRebuilt
  refine Frame.step (raise_frame _ _ _) ?_ rfl
  refine Frame.step (palPut_frame _ _ _ _ _) ?_ rfl
  exact Frame.refl _ _

theorem remapFromJournal_frame (s : State) (g : Nat) (p : Nat) (t : Nat) :
    Frame [.mgmt, .folio, .ledger, .reserve, .palette, .perf, .stats, .out] s (remapFromJournal s g p t) := by
  unfold remapFromJournal
  refine Frame.step (remapRebuilt_frame _ _ _ _ _) ?_ rfl
  exact Frame.refl _ _

theorem remapLost_frame (s : State) (g : Nat) (p : Nat) (t : Nat) (kept : Option Line) :
    Frame [.mgmt, .folio, .ledger, .reserve, .channels, .groups, .palette, .perf, .stats, .out] s (remapLost s g p t kept) := by
  unfold remapLost
  dsimp only
  split
  · exact Frame.refl _ _
  · split
    · refine Frame.step (remapRebuilt_frame _ _ _ _ _) ?_ rfl
      refine Frame.step (readTile_frame _ _ _ _ _) ?_ rfl
      refine Frame.step (takeErased_frame _ _ _) ?_ rfl
      exact Frame.refl _ _
    · refine Frame.step (remapFromJournal_frame _ _ _ _) ?_ rfl
      refine Frame.step (readTile_frame _ _ _ _ _) ?_ rfl
      refine Frame.step (takeErased_frame _ _ _) ?_ rfl
      exact Frame.refl _ _
    · refine Frame.ite ?_ ?_
      · refine Frame.step (bumpCodec_frame _ _ _ _) ?_ rfl
        refine Frame.step (modGroup_frame _ _ _) ?_ rfl
        refine Frame.step (readTile_frame _ _ _ _ _) ?_ rfl
        refine Frame.step (takeErased_frame _ _ _) ?_ rfl
        exact Frame.refl _ _
      · refine Frame.step (remapFromJournal_frame _ _ _ _) ?_ rfl
        refine Frame.step (readTile_frame _ _ _ _ _) ?_ rfl
        refine Frame.step (takeErased_frame _ _ _) ?_ rfl
        exact Frame.refl _ _

theorem renewChild_frame (s : State) (t : TileId) :
    Frame [.reserve, .channels, .palette, .perf, .stats] s (renewChild s t) := by
  unfold renewChild
  refine Frame.ite ?_ ?_
  · refine Frame.step (palPut_frame _ _ _ _ _) ?_ rfl
    exact Frame.refl _ _
  · dsimp only
    split
    · refine Frame.step (palPut_frame _ _ _ _ _) ?_ rfl
      refine Frame.step (readMeta_frame _ _) ?_ rfl
      exact Frame.refl _ _
    · refine Frame.step (readMeta_frame _ _) ?_ rfl
      exact Frame.refl _ _

theorem reanchorNode_frame (s : State) (l : Nat) (n : Nat) :
    Frame [.reserve, .channels, .palette, .perf, .stats, .draws] s (reanchorNode s l n) := by
  unfold reanchorNode
  dsimp only
  refine Frame.foldl ?_ ?_
  · intro _ _
    refine Frame.step (renewChild_frame _ _) ?_ rfl
    exact Frame.refl _ _
  · refine Frame.step (palPut_frame _ _ _ _ _) ?_ rfl
    refine Frame.step (afterDraw_frame _) ?_ rfl
    exact Frame.refl _ _

theorem fenceSpan_frame (s : State) (f : SpanFence) :
    Frame [.palette, .crypt] s (fenceSpan s f) := by
  unfold fenceSpan
  refine Frame.ite ?_ ?_
  · refine Frame.upd_palette ?_ rfl
    exact Frame.refl _ _
  · refine Frame.step (modRange_frame _ _ _) ?_ rfl
    refine Frame.upd_palette ?_ rfl
    exact Frame.refl _ _

theorem nodeLost_frame (s : State) (l : Nat) (n : Nat) (failed : Bool) :
    Frame [.mgmt, .folio, .ledger, .reserve, .channels, .palette, .crypt, .perf, .stats, .draws, .out] s (nodeLost s l n failed) := by
  unfold nodeLost
  dsimp only
  refine Frame.foldl ?_ ?_
  · intro _ _
    refine Frame.ite ?_ ?_
    · refine Frame.step (raise_frame _ _ _) ?_ rfl
      refine Frame.ite ?_ ?_
      · refine Frame.step (modRange_frame _ _ _) ?_ rfl
        exact Frame.refl _ _
      · refine Frame.step (fenceSpan_frame _ _) ?_ rfl
        exact Frame.refl _ _
    · refine Frame.step (raise_frame _ _ _) ?_ rfl
      refine Frame.ite ?_ ?_
      · refine Frame.step (modRange_frame _ _ _) ?_ rfl
        exact Frame.refl _ _
      · refine Frame.step (fenceSpan_frame _ _) ?_ rfl
        exact Frame.refl _ _
  · refine Frame.ite ?_ ?_
    · refine Frame.step (reanchorNode_frame _ _ _) ?_ rfl
      exact Frame.refl _ _
    · exact Frame.refl _ _

theorem metaLost_frame (s : State) (t : TileId) (kept : Option Line) :
    Frame [.sys, .mgmt, .folio, .ledger, .reserve, .channels, .ports, .groups, .easel, .palette, .crypt, .queues, .perf, .path, .stats, .draws, .out] s (metaLost s t kept) := by
  unfold metaLost
  dsimp only
  split
  · refine Frame.step (counterLost_frame _ _ _ _) ?_ rfl
    exact Frame.refl _ _
  · refine Frame.step (nodeLost_frame _ _ _ _) ?_ rfl
    exact Frame.refl _ _
  · refine Frame.step (remapLost_frame _ _ _ _ _) ?_ rfl
    exact Frame.refl _ _
  · exact Frame.refl _ _

theorem paletteParity_frame (s : State) (t : TileId) (both : Bool) :
    Frame [.sys, .mgmt, .folio, .ledger, .reserve, .channels, .ports, .groups, .easel, .palette, .crypt, .queues, .perf, .path, .stats, .draws, .out] s (paletteParity s t both) := by
  unfold paletteParity
  dsimp only
  split
  · exact Frame.refl _ _
  · refine Frame.ite ?_ ?_
    · refine Frame.step (bump_frame _ _ _ _) ?_ rfl
      refine Frame.step (palDrop_frame _ _) ?_ rfl
      exact Frame.refl _ _
    · refine Frame.ite ?_ ?_
      · refine Frame.step (metaLost_frame _ _ _) ?_ rfl
        refine Frame.step (bump_frame _ _ _ _) ?_ rfl
        refine Frame.step (palDrop_frame _ _) ?_ rfl
        exact Frame.refl _ _
      · refine Frame.step (bump_frame _ _ _ _) ?_ rfl
        exact Frame.refl _ _

theorem rowCorrected_frame (s : State) (bank : Nat) (row : Nat) :
    Frame [.easel] s (rowCorrected s bank row) := by
  unfold rowCorrected
  refine Frame.ite ?_ ?_
  · exact Frame.refl _ _
  · dsimp only
    refine Frame.upd_easel ?_ rfl
    exact Frame.refl _ _

theorem wordCorrected_frame (s : State) (bank : Nat) (row : Nat) :
    Frame [.easel, .stats] s (wordCorrected s bank row) := by
  unfold wordCorrected
  refine Frame.step (rowCorrected_frame _ _ _) ?_ rfl
  refine Frame.step (bump_frame _ _ _ _) ?_ rfl
  exact Frame.refl _ _

theorem applyUpset_frame (s : State) (line : Nat) (a1 : Upset) :
    Frame [.sys, .mgmt, .folio, .ledger, .reserve, .channels, .ports, .groups, .easel, .palette, .crypt, .directory, .queues, .barrow, .perf, .path, .stats, .draws, .out] s (applyUpset s line a1) := by
  unfold applyUpset
  dsimp only
  split
  · exact Frame.refl _ _
  · refine Frame.step (wordCorrected_frame _ _ _) ?_ rfl
    exact Frame.refl _ _
  · split
    · refine Frame.step (easelWordLost_frame _ _ _) ?_ rfl
      exact Frame.refl _ _
    · exact Frame.refl _ _
  · refine Frame.step (tagPrimaryLost_frame _ _) ?_ rfl
    exact Frame.refl _ _
  · refine Frame.step (tagMirrorLost_frame _ _) ?_ rfl
    exact Frame.refl _ _
  · refine Frame.step (tagIdentityLost_frame _ _) ?_ rfl
    exact Frame.refl _ _
  · refine Frame.ite ?_ ?_
    · refine Frame.step (paletteParity_frame _ _ _) ?_ rfl
      exact Frame.refl _ _
    · exact Frame.refl _ _
  · refine Frame.ite ?_ ?_
    · refine Frame.step (paletteParity_frame _ _ _) ?_ rfl
      exact Frame.refl _ _
    · exact Frame.refl _ _
  · split
    · refine Frame.upd_palette ?_ rfl
      exact Frame.refl _ _
    · exact Frame.refl _ _
  · split
    · split
      · refine Frame.step (paletteParity_frame _ _ _) ?_ rfl
        exact Frame.refl _ _
      · exact Frame.refl _ _
    · exact Frame.refl _ _
  · split
    · split
      · refine Frame.step (regionEntryLost_frame _ _ _) ?_ rfl
        exact Frame.refl _ _
      · exact Frame.refl _ _
    · exact Frame.refl _ _
  · refine Frame.upd_easel ?_ rfl
    exact Frame.refl _ _
  · refine Frame.step (poisonCleared_frame _ _) ?_ rfl
    exact Frame.refl _ _
  · refine Frame.step (bump_frame _ _ _ _) ?_ rfl
    exact Frame.refl _ _
  · exact Frame.refl _ _

theorem clearStats_frame (s : State) (idx : Nat) (lo : Nat) (n : Nat) :
    Frame [.stats] s (clearStats s idx lo n) := by
  unfold clearStats
  refine Frame.upd_stats ?_ rfl
  exact Frame.refl _ _

theorem clearStatsAt_frame (s : State) (idx : Nat) (m : Nat) (lo : Nat) (n : Nat) :
    Frame [.stats] s (clearStatsAt s idx m lo n) := by
  unfold clearStatsAt
  refine Frame.foldl ?_ ?_
  · intro _ _
    refine Frame.step (clearStats_frame _ _ _ _) ?_ rfl
    exact Frame.refl _ _
  · exact Frame.refl _ _

theorem arbiterClear_frame (s : State) :
    Frame [.stats] s (arbiterClear s) := by
  unfold arbiterClear
  refine Frame.step (clearStatsAt_frame _ _ _ _ _) ?_ rfl
  exact Frame.refl _ _

theorem arrayWait_frame (s : State) :
    Frame [.stats] s (arrayWait s) := by
  unfold arrayWait
  refine Frame.ite ?_ ?_
  · refine Frame.step (bump_frame _ _ _ _) ?_ rfl
    exact Frame.refl _ _
  · exact Frame.refl _ _

theorem askAuth_frame (s : State) (t : TileId) :
    Frame [.palette, .perf, .stats] s (askAuth s t) := by
  unfold askAuth
  split
  · refine Frame.step (lookupPath_frame _ _) ?_ rfl
    exact Frame.refl _ _
  · split
    · refine Frame.step (palLookup_frame _ _ _) ?_ rfl
      exact Frame.refl _ _
    · exact Frame.refl _ _
  · split
    · refine Frame.step (palLookup_frame _ _ _) ?_ rfl
      exact Frame.refl _ _
    · exact Frame.refl _ _
  · exact Frame.refl _ _

theorem askRemap_frame (s : State) (cls : Nat) (pl : Place) :
    Frame [.palette, .perf, .stats] s (askRemap s cls pl) := by
  unfold askRemap
  split
  · refine Frame.ite ?_ ?_
    · exact Frame.refl _ _
    · refine Frame.step (palLookup_frame _ _ _) ?_ rfl
      exact Frame.refl _ _
  · exact Frame.refl _ _

theorem askLines_frame (s : State) (cls : Nat) (lines : List Nat) :
    Frame [.palette, .perf, .stats] s (askLines s cls lines) := by
  unfold askLines
  refine Frame.foldl ?_ ?_
  · intro _ _
    refine Frame.elim ?_ ?_
    · exact Frame.refl _ _
    · intro _
      refine Frame.step (askRemap_frame _ _ _) ?_ rfl
      exact Frame.refl _ _
  · exact Frame.refl _ _

theorem askCommit_frame (s : State) (u : GlazeUnit) :
    Frame [.palette, .perf, .stats] s (askCommit s u) := by
  unfold askCommit
  dsimp only
  refine Frame.ite ?_ ?_
  · refine Frame.step (palLookup_frame _ _ _) ?_ rfl
    refine Frame.step (askLines_frame _ _ _) ?_ rfl
    exact Frame.refl _ _
  · refine Frame.step (askLines_frame _ _ _) ?_ rfl
    exact Frame.refl _ _

theorem askDestage_frame (s : State) (p : Nat) :
    Frame [.palette, .perf, .stats] s (askDestage s p) := by
  unfold askDestage
  dsimp only
  refine Frame.ite ?_ ?_
  · refine Frame.ite ?_ ?_
    · refine Frame.step (lookupPath_frame _ _) ?_ rfl
      split
      · refine Frame.ite ?_ ?_
        · exact Frame.refl _ _
        · refine Frame.step (askRemap_frame _ _ _) ?_ rfl
          exact Frame.refl _ _
      · exact Frame.refl _ _
    · refine Frame.ite ?_ ?_
      · split
        · refine Frame.ite ?_ ?_
          · exact Frame.refl _ _
          · refine Frame.step (askRemap_frame _ _ _) ?_ rfl
            exact Frame.refl _ _
        · exact Frame.refl _ _
      · refine Frame.step (palSelectSome_frame _ _) ?_ rfl
        refine Frame.ite ?_ ?_
        · refine Frame.step (bump_frame _ _ _ _) ?_ rfl
          split
          · refine Frame.ite ?_ ?_
            · exact Frame.refl _ _
            · refine Frame.step (askRemap_frame _ _ _) ?_ rfl
              exact Frame.refl _ _
          · exact Frame.refl _ _
        · split
          · refine Frame.ite ?_ ?_
            · exact Frame.refl _ _
            · refine Frame.step (askRemap_frame _ _ _) ?_ rfl
              exact Frame.refl _ _
          · exact Frame.refl _ _
  · split
    · refine Frame.ite ?_ ?_
      · exact Frame.refl _ _
      · refine Frame.step (askRemap_frame _ _ _) ?_ rfl
        exact Frame.refl _ _
    · exact Frame.refl _ _

theorem askRemaps_frame (s : State) (a : Place) (b : Place) :
    Frame [.palette, .perf, .stats] s (askRemaps s a b) := by
  unfold askRemaps
  refine Frame.ite ?_ ?_
  · refine Frame.step (askRemap_frame _ _ _) ?_ rfl
    exact Frame.refl _ _
  · refine Frame.step (askRemap_frame _ _ _) ?_ rfl
    exact Frame.refl _ _

theorem askWindow_frame (s : State) (r : Nat) :
    Frame [.palette, .perf, .stats] s (askWindow s r) := by
  unfold askWindow
  refine Frame.foldl ?_ ?_
  · intro _ _
    refine Frame.step (palLookup_frame _ _ _) ?_ rfl
    exact Frame.refl _ _
  · exact Frame.refl _ _

theorem poisonDirty_frame (s : State) (line : Nat) (p : Nat) :
    Frame [.reserve, .groups, .easel, .stats] s (poisonDirty s line p) := by
  unfold poisonDirty
  dsimp only
  refine Frame.ite ?_ ?_
  · refine Frame.step (chargeLine_frame _ _ _ _) ?_ rfl
    refine Frame.step (modLine_frame _ _ _) ?_ rfl
    exact Frame.refl _ _
  · refine Frame.ite ?_ ?_
    · refine Frame.step (modLine_frame _ _ _) ?_ rfl
      refine Frame.step (deviceBook_frame _ _) ?_ rfl
      refine Frame.step (modLine_frame _ _ _) ?_ rfl
      exact Frame.refl _ _
    · refine Frame.step (destageSelect_frame _ _ _ _) ?_ rfl
      refine Frame.step (modLine_frame _ _ _) ?_ rfl
      exact Frame.refl _ _

theorem lineCheckFailed_frame (s : State) (line : Nat) (requester : Nat) (version : Bool) (place : Option Nat) :
    Frame [.sys, .mgmt, .folio, .ledger, .reserve, .ports, .groups, .easel, .palette, .queues, .path, .stats, .out] s (lineCheckFailed s line requester version place) := by
  unfold lineCheckFailed
  dsimp only
  refine Frame.step (raise_frame _ _ _) ?_ rfl
  refine Frame.step (mediaEvent_frame _ _ _) ?_ rfl
  refine Frame.step (poisonPermanent_frame _ _) ?_ rfl
  refine Frame.ite ?_ ?_
  · refine Frame.step (bump_frame _ _ _ _) ?_ rfl
    exact Frame.refl _ _
  · split
    · refine Frame.step (poisonDirty_frame _ _ _) ?_ rfl
      refine Frame.step (bump_frame _ _ _ _) ?_ rfl
      exact Frame.refl _ _
    · refine Frame.step (poisonDirty_frame _ _ _) ?_ rfl
      refine Frame.ite ?_ ?_
      · refine Frame.step (deadenFill_frame _ _ _ _) ?_ rfl
        refine Frame.step (bump_frame _ _ _ _) ?_ rfl
        exact Frame.refl _ _
      · refine Frame.step (bump_frame _ _ _ _) ?_ rfl
        exact Frame.refl _ _
    · split
      · refine Frame.step (poisonDirty_frame _ _ _) ?_ rfl
        refine Frame.step (bump_frame _ _ _ _) ?_ rfl
        exact Frame.refl _ _
      · refine Frame.step (writePoisonTile_frame _ _ _) ?_ rfl
        refine Frame.step (bump_frame _ _ _ _) ?_ rfl
        exact Frame.refl _ _

theorem metaMacFailed_frame (s : State) (t : TileId) :
    Frame [.sys, .mgmt, .folio, .ledger, .reserve, .channels, .ports, .groups, .easel, .palette, .crypt, .queues, .perf, .path, .stats, .draws, .out] s (metaMacFailed s t) := by
  unfold metaMacFailed
  dsimp only
  split
  · refine Frame.step (counterLost_frame _ _ _ _) ?_ rfl
    refine Frame.step (bump_frame _ _ _ _) ?_ rfl
    exact Frame.refl _ _
  · refine Frame.step (nodeLost_frame _ _ _ _) ?_ rfl
    refine Frame.step (bump_frame _ _ _ _) ?_ rfl
    exact Frame.refl _ _
  · refine Frame.step (bump_frame _ _ _ _) ?_ rfl
    exact Frame.refl _ _

theorem authFails_frame (s : State) (t : TileId) (content : List Byte) :
    FrameO [.sys, .mgmt, .folio, .ledger, .reserve, .channels, .ports, .groups, .easel, .palette, .crypt, .queues, .perf, .path, .stats, .draws, .out] s (authFails s t content) := by
  unfold authFails
  refine FrameO.ite ?_ ?_
  · exact FrameO.none
  · split
    · split
      · refine FrameO.some ?_
        refine Frame.step (lineCheckFailed_frame _ _ _ _ _) ?_ rfl
        exact Frame.refl _ _
      · refine FrameO.some ?_
        refine Frame.step (lineCheckFailed_frame _ _ _ _ _) ?_ rfl
        exact Frame.refl _ _
      · exact FrameO.none
    · split
      · refine FrameO.ite ?_ ?_
        · exact FrameO.none
        · refine FrameO.some ?_
          refine Frame.step (metaMacFailed_frame _ _) ?_ rfl
          exact Frame.refl _ _
      · exact FrameO.none
    · split
      · refine FrameO.ite ?_ ?_
        · exact FrameO.none
        · refine FrameO.some ?_
          refine Frame.step (metaMacFailed_frame _ _) ?_ rfl
          exact Frame.refl _ _
      · exact FrameO.none
    · exact FrameO.none

theorem railDrop_frame (s : State) (r : Nat) :
    Frame [.power] s (railDrop s r) := by
  unfold railDrop
  refine Frame.ite ?_ ?_
  · refine Frame.step (modRail_frame _ _ _) ?_ rfl
    exact Frame.refl _ _
  · exact Frame.refl _ _

theorem modLoad_frame (s : State) (c : Nat) (serial : Nat) (f : LoadRec → LoadRec) :
    Frame [.barrow] s (modLoad s c serial f) := by
  unfold modLoad
  refine Frame.step (modBarrow_frame _ _ _) ?_ rfl
  exact Frame.refl _ _

theorem barrowInterrupt_frame (s : State) (c : Nat) (bits : Nat) :
    Frame [.barrow, .out] s (barrowInterrupt s c bits) := by
  unfold barrowInterrupt
  dsimp only
  refine Frame.ite ?_ ?_
  · refine Frame.step (emit_frame _ _) ?_ rfl
    refine Frame.step (modBarrow_frame _ _ _) ?_ rfl
    exact Frame.refl _ _
  · refine Frame.step (modBarrow_frame _ _ _) ?_ rfl
    exact Frame.refl _ _

theorem settleHalves_frame (s : State) (c : Nat) :
    Frame [.barrow, .out] s (settleHalves s c) := by
  unfold settleHalves
  refine Frame.foldl ?_ ?_
  · intro _ _
    dsimp only
    refine Frame.ite ?_ ?_
    · refine Frame.step (barrowInterrupt_frame _ _ _) ?_ rfl
      refine Frame.step (modLoad_frame _ _ _ _) ?_ rfl
      exact Frame.refl _ _
    · exact Frame.refl _ _
  · exact Frame.refl _ _

theorem issueFlush_frame (s : State) (c : Nat) (address : Nat) (raises : Nat) :
    Frame [.barrow, .out] s (issueFlush s c address raises) := by
  unfold issueFlush
  dsimp only
  refine Frame.step (modBarrow_frame _ _ _) ?_ rfl
  refine Frame.step (emit_frame _ _) ?_ rfl
  exact Frame.refl _ _

theorem settleFlushes_frame (s : State) (c : Nat) :
    Frame [.barrow, .out] s (settleFlushes s c) := by
  unfold settleFlushes
  dsimp only
  split
  · refine Frame.ite ?_ ?_
    · refine Frame.step (issueFlush_frame _ _ _ _) ?_ rfl
      exact Frame.refl _ _
    · exact Frame.refl _ _
  · exact Frame.refl _ _

theorem completeLoad_frame (s : State) (c : Nat) (l : LoadRec) :
    Frame [.mgmt, .folio, .ledger, .barrow, .stats, .out] s (completeLoad s c l) := by
  unfold completeLoad
  dsimp only
  refine Frame.ite ?_ ?_
  · refine Frame.ite ?_ ?_
    · refine Frame.step (raise_frame _ _ _) ?_ rfl
      refine Frame.ite ?_ ?_
      · refine Frame.step (modBarrow_frame _ _ _) ?_ rfl
        refine Frame.step (bump_frame _ _ _ _) ?_ rfl
        refine Frame.step (modBarrow_frame _ _ _) ?_ rfl
        exact Frame.refl _ _
      · refine Frame.step (bump_frame _ _ _ _) ?_ rfl
        refine Frame.step (modBarrow_frame _ _ _) ?_ rfl
        exact Frame.refl _ _
    · refine Frame.ite ?_ ?_
      · refine Frame.step (modBarrow_frame _ _ _) ?_ rfl
        refine Frame.step (bump_frame _ _ _ _) ?_ rfl
        refine Frame.step (modBarrow_frame _ _ _) ?_ rfl
        exact Frame.refl _ _
      · refine Frame.step (bump_frame _ _ _ _) ?_ rfl
        refine Frame.step (modBarrow_frame _ _ _) ?_ rfl
        exact Frame.refl _ _
  · refine Frame.ite ?_ ?_
    · refine Frame.ite ?_ ?_
      · refine Frame.step (barrowInterrupt_frame _ _ _) ?_ rfl
        refine Frame.ite ?_ ?_
        · refine Frame.step (raise_frame _ _ _) ?_ rfl
          refine Frame.ite ?_ ?_
          · refine Frame.step (modBarrow_frame _ _ _) ?_ rfl
            refine Frame.step (bump_frame _ _ _ _) ?_ rfl
            refine Frame.step (modBarrow_frame _ _ _) ?_ rfl
            exact Frame.refl _ _
          · refine Frame.step (bump_frame _ _ _ _) ?_ rfl
            refine Frame.step (modBarrow_frame _ _ _) ?_ rfl
            exact Frame.refl _ _
        · refine Frame.ite ?_ ?_
          · refine Frame.step (modBarrow_frame _ _ _) ?_ rfl
            refine Frame.step (bump_frame _ _ _ _) ?_ rfl
            refine Frame.step (modBarrow_frame _ _ _) ?_ rfl
            exact Frame.refl _ _
          · refine Frame.step (bump_frame _ _ _ _) ?_ rfl
            refine Frame.step (modBarrow_frame _ _ _) ?_ rfl
            exact Frame.refl _ _
      · refine Frame.ite ?_ ?_
        · refine Frame.step (raise_frame _ _ _) ?_ rfl
          refine Frame.ite ?_ ?_
          · refine Frame.step (modBarrow_frame _ _ _) ?_ rfl
            refine Frame.step (bump_frame _ _ _ _) ?_ rfl
            refine Frame.step (modBarrow_frame _ _ _) ?_ rfl
            exact Frame.refl _ _
          · refine Frame.step (bump_frame _ _ _ _) ?_ rfl
            refine Frame.step (modBarrow_frame _ _ _) ?_ rfl
            exact Frame.refl _ _
        · refine Frame.ite ?_ ?_
          · refine Frame.step (modBarrow_frame _ _ _) ?_ rfl
            refine Frame.step (bump_frame _ _ _ _) ?_ rfl
            refine Frame.step (modBarrow_frame _ _ _) ?_ rfl
            exact Frame.refl _ _
          · refine Frame.step (bump_frame _ _ _ _) ?_ rfl
            refine Frame.step (modBarrow_frame _ _ _) ?_ rfl
            exact Frame.refl _ _
    · refine Frame.step (barrowInterrupt_frame _ _ _) ?_ rfl
      refine Frame.ite ?_ ?_
      · refine Frame.step (raise_frame _ _ _) ?_ rfl
        refine Frame.ite ?_ ?_
        · refine Frame.step (modBarrow_frame _ _ _) ?_ rfl
          refine Frame.step (bump_frame _ _ _ _) ?_ rfl
          refine Frame.step (modBarrow_frame _ _ _) ?_ rfl
          exact Frame.refl _ _
        · refine Frame.step (bump_frame _ _ _ _) ?_ rfl
          refine Frame.step (modBarrow_frame _ _ _) ?_ rfl
          exact Frame.refl _ _
      · refine Frame.ite ?_ ?_
        · refine Frame.step (modBarrow_frame _ _ _) ?_ rfl
          refine Frame.step (bump_frame _ _ _ _) ?_ rfl
          refine Frame.step (modBarrow_frame _ _ _) ?_ rfl
          exact Frame.refl _ _
        · refine Frame.step (bump_frame _ _ _ _) ?_ rfl
          refine Frame.step (modBarrow_frame _ _ _) ?_ rfl
          exact Frame.refl _ _

theorem settleLoads_frame (a1 : Nat) (a2 : State) (a3 : Nat) :
    Frame [.mgmt, .folio, .ledger, .barrow, .stats, .out] a2 (settleLoads a1 a2 a3) := by
  induction a1 generalizing a2 a3 with
  | zero =>
    unfold settleLoads
    exact Frame.refl _ _
  | succ n ih =>
    unfold settleLoads
    dsimp only
    split
    · refine Frame.step (modBarrow_frame _ _ _) ?_ rfl
      refine Frame.step (settleFlushes_frame _ _) ?_ rfl
      refine Frame.step (settleHalves_frame _ _) ?_ rfl
      exact Frame.refl _ _
    · refine Frame.ite ?_ ?_
      · refine Frame.step (ih _ _) ?_ rfl
        refine Frame.step (completeLoad_frame _ _ _) ?_ rfl
        refine Frame.step (settleFlushes_frame _ _) ?_ rfl
        refine Frame.step (settleHalves_frame _ _) ?_ rfl
        exact Frame.refl _ _
      · refine Frame.step (settleFlushes_frame _ _) ?_ rfl
        refine Frame.step (settleHalves_frame _ _) ?_ rfl
        exact Frame.refl _ _

theorem settleChannel_frame (s : State) (c : Nat) :
    Frame [.mgmt, .folio, .ledger, .barrow, .stats, .out] s (settleChannel s c) := by
  unfold settleChannel
  refine Frame.step (settleLoads_frame _ _ _) ?_ rfl
  exact Frame.refl _ _

theorem channelStop_frame (s : State) (c : Nat) :
    Frame [.mgmt, .folio, .ledger, .barrow, .stats, .out] s (channelStop s c) := by
  unfold channelStop
  refine Frame.step (settleChannel_frame _ _) ?_ rfl
  refine Frame.step (modBarrow_frame _ _ _) ?_ rfl
  exact Frame.refl _ _

theorem barrowAtWarn_frame (s : State) :
    Frame [.mgmt, .folio, .ledger, .barrow, .stats, .out] s (barrowAtWarn s) := by
  unfold barrowAtWarn
  dsimp only
  refine Frame.ite ?_ ?_
  · refine Frame.foldl ?_ ?_
    · intro _ _
      refine Frame.step (channelStop_frame _ _) ?_ rfl
      exact Frame.refl _ _
    · exact Frame.refl _ _
  · refine Frame.step (raise_frame _ _ _) ?_ rfl
    refine Frame.foldl ?_ ?_
    · intro _ _
      refine Frame.step (channelStop_frame _ _) ?_ rfl
      exact Frame.refl _ _
    · exact Frame.refl _ _

theorem withdrawMargin_frame (s : State) :
    Frame [.power, .out] s (withdrawMargin s) := by
  unfold withdrawMargin
  refine Frame.ite ?_ ?_
  · exact Frame.refl _ _
  · dsimp only
    refine Frame.upd_power ?_ rfl
    refine Frame.step (emit_frame _ _) ?_ rfl
    exact Frame.refl _ _

theorem enterState_frame (s : State) (d : DeviceState) :
    Frame [.sys] s (enterState s d) := by
  unfold enterState
  refine Frame.upd_sys ?_ rfl
  exact Frame.refl _ _

theorem sendFrame_frame (s : State) (ch : Nat) (bits : Nat) :
    Frame [.groups, .out] s (sendFrame s ch bits) := by
  unfold sendFrame
  refine Frame.step (modGroup_frame _ _ _) ?_ rfl
  refine Frame.step (emit_frame _ _) ?_ rfl
  exact Frame.refl _ _

theorem stacksDown_frame (s : State) (g : Nat) (down : Bool) :
    Frame [.channels, .groups, .out] s (stacksDown s g down) := by
  unfold stacksDown
  refine Frame.foldl ?_ ?_
  · intro _ _
    dsimp only
    refine Frame.ite ?_ ?_
    · exact Frame.refl _ _
    · refine Frame.step (modChannel_frame _ _ _) ?_ rfl
      refine Frame.step (sendFrame_frame _ _ _) ?_ rfl
      exact Frame.refl _ _
  · exact Frame.refl _ _

theorem setSleep_frame (s : State) (g : Nat) (n : Nat) :
    Frame [.thermal] s (setSleep s g n) := by
  unfold setSleep
  refine Frame.upd_thermal ?_ rfl
  exact Frame.refl _ _

theorem wakeGroup_frame (s : State) (g : Nat) :
    Frame [.thermal, .channels, .groups, .stats, .out] s (wakeGroup s g) := by
  unfold wakeGroup
  refine Frame.ite ?_ ?_
  · dsimp only
    refine Frame.step (bump_frame _ _ _ _) ?_ rfl
    refine Frame.step (stacksDown_frame _ _ _) ?_ rfl
    refine Frame.step (setSleep_frame _ _ _) ?_ rfl
    exact Frame.refl _ _
  · exact Frame.refl _ _

theorem wakeGroups_frame (s : State) :
    Frame [.thermal, .channels, .groups, .stats, .out] s (wakeGroups s) := by
  unfold wakeGroups
  refine Frame.foldl ?_ ?_
  · intro _ _
    refine Frame.step (wakeGroup_frame _ _) ?_ rfl
    exact Frame.refl _ _
  · exact Frame.refl _ _

theorem enterWarn_frame (s : State) (cause : Nat) :
    Frame [.sys, .mgmt, .folio, .ledger, .power, .reserve, .thermal, .channels, .groups, .barrow, .stats, .out] s (enterWarn s cause) := by
  unfold enterWarn
  dsimp only
  split
  · refine Frame.step (raise_frame _ _ _) ?_ rfl
    refine Frame.ite ?_ ?_
    · refine Frame.step (tallyAdd_frame _ _) ?_ rfl
      refine Frame.step (enterState_frame _ _) ?_ rfl
      refine Frame.step (wakeGroups_frame _) ?_ rfl
      refine Frame.step (barrowAtWarn_frame _) ?_ rfl
      refine Frame.upd_sys_power_reserve ?_ rfl
      refine Frame.step (withdrawMargin_frame _) ?_ rfl
      exact Frame.refl _ _
    · refine Frame.ite ?_ ?_
      · refine Frame.step (tallyAdd_frame _ _) ?_ rfl
        refine Frame.step (enterState_frame _ _) ?_ rfl
        refine Frame.step (wakeGroups_frame _) ?_ rfl
        refine Frame.step (barrowAtWarn_frame _) ?_ rfl
        refine Frame.upd_sys_power_reserve ?_ rfl
        refine Frame.step (withdrawMargin_frame _) ?_ rfl
        exact Frame.refl _ _
      · refine Frame.step (enterState_frame _ _) ?_ rfl
        refine Frame.step (wakeGroups_frame _) ?_ rfl
        refine Frame.step (barrowAtWarn_frame _) ?_ rfl
        refine Frame.upd_sys_power_reserve ?_ rfl
        refine Frame.step (withdrawMargin_frame _) ?_ rfl
        exact Frame.refl _ _
  · refine Frame.step (raise_frame _ _ _) ?_ rfl
    refine Frame.ite ?_ ?_
    · refine Frame.step (tallyAdd_frame _ _) ?_ rfl
      refine Frame.step (enterState_frame _ _) ?_ rfl
      refine Frame.step (wakeGroups_frame _) ?_ rfl
      refine Frame.step (barrowAtWarn_frame _) ?_ rfl
      refine Frame.upd_sys_power_reserve ?_ rfl
      refine Frame.step (withdrawMargin_frame _) ?_ rfl
      exact Frame.refl _ _
    · refine Frame.ite ?_ ?_
      · refine Frame.step (tallyAdd_frame _ _) ?_ rfl
        refine Frame.step (enterState_frame _ _) ?_ rfl
        refine Frame.step (wakeGroups_frame _) ?_ rfl
        refine Frame.step (barrowAtWarn_frame _) ?_ rfl
        refine Frame.upd_sys_power_reserve ?_ rfl
        refine Frame.step (withdrawMargin_frame _) ?_ rfl
        exact Frame.refl _ _
      · refine Frame.step (enterState_frame _ _) ?_ rfl
        refine Frame.step (wakeGroups_frame _) ?_ rfl
        refine Frame.step (barrowAtWarn_frame _) ?_ rfl
        refine Frame.upd_sys_power_reserve ?_ rfl
        refine Frame.step (withdrawMargin_frame _) ?_ rfl
        exact Frame.refl _ _
  · refine Frame.step (raise_frame _ _ _) ?_ rfl
    refine Frame.ite ?_ ?_
    · refine Frame.step (tallyAdd_frame _ _) ?_ rfl
      refine Frame.step (enterState_frame _ _) ?_ rfl
      refine Frame.step (wakeGroups_frame _) ?_ rfl
      refine Frame.step (barrowAtWarn_frame _) ?_ rfl
      refine Frame.upd_sys_power_reserve ?_ rfl
      refine Frame.step (withdrawMargin_frame _) ?_ rfl
      exact Frame.refl _ _
    · refine Frame.ite ?_ ?_
      · refine Frame.step (tallyAdd_frame _ _) ?_ rfl
        refine Frame.step (enterState_frame _ _) ?_ rfl
        refine Frame.step (wakeGroups_frame _) ?_ rfl
        refine Frame.step (barrowAtWarn_frame _) ?_ rfl
        refine Frame.upd_sys_power_reserve ?_ rfl
        refine Frame.step (withdrawMargin_frame _) ?_ rfl
        exact Frame.refl _ _
      · refine Frame.step (enterState_frame _ _) ?_ rfl
        refine Frame.step (wakeGroups_frame _) ?_ rfl
        refine Frame.step (barrowAtWarn_frame _) ?_ rfl
        refine Frame.upd_sys_power_reserve ?_ rfl
        refine Frame.step (withdrawMargin_frame _) ?_ rfl
        exact Frame.refl _ _
  · refine Frame.step (raise_frame _ _ _) ?_ rfl
    refine Frame.ite ?_ ?_
    · refine Frame.step (tallyAdd_frame _ _) ?_ rfl
      refine Frame.step (enterState_frame _ _) ?_ rfl
      refine Frame.step (wakeGroups_frame _) ?_ rfl
      refine Frame.step (barrowAtWarn_frame _) ?_ rfl
      refine Frame.upd_sys_power_reserve ?_ rfl
      refine Frame.step (withdrawMargin_frame _) ?_ rfl
      exact Frame.refl _ _
    · refine Frame.ite ?_ ?_
      · refine Frame.step (tallyAdd_frame _ _) ?_ rfl
        refine Frame.step (enterState_frame _ _) ?_ rfl
        refine Frame.step (wakeGroups_frame _) ?_ rfl
        refine Frame.step (barrowAtWarn_frame _) ?_ rfl
        refine Frame.upd_sys_power_reserve ?_ rfl
        refine Frame.step (withdrawMargin_frame _) ?_ rfl
        exact Frame.refl _ _
      · refine Frame.step (enterState_frame _ _) ?_ rfl
        refine Frame.step (wakeGroups_frame _) ?_ rfl
        refine Frame.step (barrowAtWarn_frame _) ?_ rfl
        refine Frame.upd_sys_power_reserve ?_ rfl
        refine Frame.step (withdrawMargin_frame _) ?_ rfl
        exact Frame.refl _ _
  · refine Frame.ite ?_ ?_
    · refine Frame.step (raise_frame _ _ _) ?_ rfl
      exact Frame.refl _ _
    · exact Frame.refl _ _
  · refine Frame.ite ?_ ?_
    · refine Frame.step (raise_frame _ _ _) ?_ rfl
      exact Frame.refl _ _
    · exact Frame.refl _ _
  · refine Frame.ite ?_ ?_
    · refine Frame.step (raise_frame _ _ _) ?_ rfl
      exact Frame.refl _ _
    · exact Frame.refl _ _
  · exact Frame.refl _ _

theorem undefinePatch_frame (s : State) (ch : Nat) (addr : Nat) :
    Frame [.path] s (undefinePatch s ch addr) := by
  unfold undefinePatch
  dsimp only
  refine Frame.upd_path ?_ rfl
  refine Frame.step (storePatch_frame _ _ _ _) ?_ rfl
  exact Frame.refl _ _

theorem parkDomain_frame (s : State) (k : Nat) :
    Frame [.sys, .mgmt, .folio, .ledger, .channels, .ports, .groups, .easel, .palette, .directory, .queues, .barrow, .perf, .path, .stats, .out] s (parkDomain s k) := by
  unfold parkDomain
  refine Frame.foldl ?_ ?_
  · intro _ _
    dsimp only
    refine Frame.ite ?_ ?_
    · refine Frame.step (columnErased_frame _ _ _) ?_ rfl
      refine Frame.step (modChannel_frame _ _ _) ?_ rfl
      refine Frame.step (stackReset_frame _ _) ?_ rfl
      refine Frame.ite ?_ ?_
      · refine Frame.step (raise_frame _ _ _) ?_ rfl
        refine Frame.foldl ?_ ?_
        · intro _ _
          refine Frame.step (undefinePatch_frame _ _ _) ?_ rfl
          exact Frame.refl _ _
        · exact Frame.refl _ _
      · refine Frame.foldl ?_ ?_
        · intro _ _
          refine Frame.step (undefinePatch_frame _ _ _) ?_ rfl
          exact Frame.refl _ _
        · exact Frame.refl _ _
    · refine Frame.step (modChannel_frame _ _ _) ?_ rfl
      refine Frame.step (stackReset_frame _ _) ?_ rfl
      refine Frame.ite ?_ ?_
      · refine Frame.step (raise_frame _ _ _) ?_ rfl
        refine Frame.foldl ?_ ?_
        · intro _ _
          refine Frame.step (undefinePatch_frame _ _ _) ?_ rfl
          exact Frame.refl _ _
        · exact Frame.refl _ _
      · refine Frame.foldl ?_ ?_
        · intro _ _
          refine Frame.step (undefinePatch_frame _ _ _) ?_ rfl
          exact Frame.refl _ _
        · exact Frame.refl _ _
  · exact Frame.refl _ _

theorem failedStart_frame (s : State) :
    Frame [.mgmt, .folio, .ledger, .power, .stats, .out] s (failedStart s) := by
  unfold failedStart
  refine Frame.ite ?_ ?_
  · exact Frame.refl _ _
  · dsimp only
    refine Frame.ite ?_ ?_
    · refine Frame.step (raise_frame _ _ _) ?_ rfl
      refine Frame.upd_power ?_ rfl
      exact Frame.refl _ _
    · refine Frame.upd_power ?_ rfl
      exact Frame.refl _ _

theorem selectCharged_frame (s : State) :
    Frame [.groups, .easel, .stats] s (selectCharged s) := by
  unfold selectCharged
  refine Frame.foldl ?_ ?_
  · intro _ _
    refine Frame.step (destageSelect_frame _ _ _ _) ?_ rfl
    exact Frame.refl _ _
  · exact Frame.refl _ _

theorem sizeShares_frame (s : State) (b : Nat) :
    Frame [.reserve] s (sizeShares s b) := by
  unfold sizeShares
  dsimp only
  refine Frame.upd_reserve ?_ rfl
  exact Frame.refl _ _

theorem selectDevice_frame (s : State) (n : Nat) :
    Frame [.groups, .easel, .palette, .stats] s (selectDevice s n) := by
  unfold selectDevice
  dsimp only
  refine Frame.foldl ?_ ?_
  · intro _ _
    refine Frame.step (palSelect_frame _ _) ?_ rfl
    exact Frame.refl _ _
  · refine Frame.foldl ?_ ?_
    · intro _ _
      refine Frame.step (destageSelect_frame _ _ _ _) ?_ rfl
      exact Frame.refl _ _
    · exact Frame.refl _ _

theorem selectOverShares_frame (s : State) :
    Frame [.groups, .easel, .palette, .stats] s (selectOverShares s) := by
  unfold selectOverShares
  dsimp only
  refine Frame.ite ?_ ?_
  · refine Frame.step (selectDevice_frame _ _) ?_ rfl
    refine Frame.foldl ?_ ?_
    · intro _ _
      refine Frame.ite ?_ ?_
      · refine Frame.step (selectShare_frame _ _ _) ?_ rfl
        exact Frame.refl _ _
      · exact Frame.refl _ _
    · exact Frame.refl _ _
  · refine Frame.foldl ?_ ?_
    · intro _ _
      refine Frame.ite ?_ ?_
      · refine Frame.step (selectShare_frame _ _ _) ?_ rfl
        exact Frame.refl _ _
      · exact Frame.refl _ _
    · exact Frame.refl _ _

theorem publish_frame (s : State) (b : Nat) :
    Frame [.mgmt, .folio, .ledger, .reserve, .groups, .easel, .palette, .stats, .out] s (publish s b) := by
  unfold publish
  dsimp only
  refine Frame.ite ?_ ?_
  · refine Frame.step (selectCharged_frame _) ?_ rfl
    refine Frame.step (tallyAdd_frame _ _) ?_ rfl
    refine Frame.step (raise_frame _ _ _) ?_ rfl
    refine Frame.upd_reserve ?_ rfl
    refine Frame.step (sizeShares_frame _ _) ?_ rfl
    exact Frame.refl _ _
  · refine Frame.ite ?_ ?_
    · refine Frame.step (selectOverShares_frame _) ?_ rfl
      refine Frame.step (raise_frame _ _ _) ?_ rfl
      refine Frame.upd_reserve ?_ rfl
      refine Frame.step (sizeShares_frame _ _) ?_ rfl
      exact Frame.refl _ _
    · refine Frame.step (selectOverShares_frame _) ?_ rfl
      refine Frame.upd_reserve ?_ rfl
      refine Frame.step (sizeShares_frame _ _) ?_ rfl
      exact Frame.refl _ _

theorem recompute_frame (s : State) (v : Nat) :
    Frame [.mgmt, .folio, .ledger, .reserve, .groups, .easel, .palette, .stats, .out] s (recompute s v) := by
  unfold recompute
  refine Frame.ite ?_ ?_
  · refine Frame.step (publish_frame _ _) ?_ rfl
    refine Frame.upd_reserve ?_ rfl
    exact Frame.refl _ _
  · dsimp only
    refine Frame.ite ?_ ?_
    · refine Frame.step (tallyAdd_frame _ _) ?_ rfl
      refine Frame.step (raise_frame _ _ _) ?_ rfl
      refine Frame.step (publish_frame _ _) ?_ rfl
      refine Frame.upd_reserve ?_ rfl
      exact Frame.refl _ _
    · refine Frame.step (publish_frame _ _) ?_ rfl
      refine Frame.upd_reserve ?_ rfl
      exact Frame.refl _ _

theorem domainOff_frame (s : State) (k : Nat) (rail : Nat) (cause : Nat) :
    Frame [.sys, .mgmt, .folio, .ledger, .power, .reserve, .thermal, .channels, .ports, .groups, .easel, .palette, .directory, .queues, .barrow, .perf, .path, .stats, .out] s (domainOff s k rail cause) := by
  unfold domainOff
  dsimp only
  refine Frame.ite ?_ ?_
  · exact Frame.refl _ _
  · split
    · refine Frame.ite ?_ ?_
      · refine Frame.step (failedStart_frame _) ?_ rfl
        refine Frame.step (raise_frame _ _ _) ?_ rfl
        refine Frame.ite ?_ ?_
        · refine Frame.step (parkDomain_frame _ _) ?_ rfl
          refine Frame.step (railDrop_frame _ _) ?_ rfl
          refine Frame.step (modDomain_frame _ _ _) ?_ rfl
          exact Frame.refl _ _
        · refine Frame.step (tallyAdd_frame _ _) ?_ rfl
          refine Frame.step (parkDomain_frame _ _) ?_ rfl
          refine Frame.step (railDrop_frame _ _) ?_ rfl
          refine Frame.step (modDomain_frame _ _ _) ?_ rfl
          exact Frame.refl _ _
      · refine Frame.step (mediaStepCheck_frame _) ?_ rfl
        refine Frame.step (raise_frame _ _ _) ?_ rfl
        refine Frame.ite ?_ ?_
        · refine Frame.step (parkDomain_frame _ _) ?_ rfl
          refine Frame.step (railDrop_frame _ _) ?_ rfl
          refine Frame.step (modDomain_frame _ _ _) ?_ rfl
          exact Frame.refl _ _
        · refine Frame.step (tallyAdd_frame _ _) ?_ rfl
          refine Frame.step (parkDomain_frame _ _) ?_ rfl
          refine Frame.step (railDrop_frame _ _) ?_ rfl
          refine Frame.step (modDomain_frame _ _ _) ?_ rfl
          exact Frame.refl _ _
    · refine Frame.ite ?_ ?_
      · refine Frame.step (raise_frame _ _ _) ?_ rfl
        refine Frame.ite ?_ ?_
        · refine Frame.step (parkDomain_frame _ _) ?_ rfl
          refine Frame.step (railDrop_frame _ _) ?_ rfl
          refine Frame.step (modDomain_frame _ _ _) ?_ rfl
          exact Frame.refl _ _
        · refine Frame.step (tallyAdd_frame _ _) ?_ rfl
          refine Frame.step (parkDomain_frame _ _) ?_ rfl
          refine Frame.step (railDrop_frame _ _) ?_ rfl
          refine Frame.step (modDomain_frame _ _ _) ?_ rfl
          exact Frame.refl _ _
      · refine Frame.ite ?_ ?_
        · refine Frame.step (enterWarn_frame _ _) ?_ rfl
          refine Frame.step (raise_frame _ _ _) ?_ rfl
          refine Frame.ite ?_ ?_
          · refine Frame.step (parkDomain_frame _ _) ?_ rfl
            refine Frame.step (railDrop_frame _ _) ?_ rfl
            refine Frame.step (modDomain_frame _ _ _) ?_ rfl
            exact Frame.refl _ _
          · refine Frame.step (tallyAdd_frame _ _) ?_ rfl
            refine Frame.step (parkDomain_frame _ _) ?_ rfl
            refine Frame.step (railDrop_frame _ _) ?_ rfl
            refine Frame.step (modDomain_frame _ _ _) ?_ rfl
            exact Frame.refl _ _
        · refine Frame.step (recompute_frame _ _) ?_ rfl
          refine Frame.step (raise_frame _ _ _) ?_ rfl
          refine Frame.ite ?_ ?_
          · refine Frame.step (parkDomain_frame _ _) ?_ rfl
            refine Frame.step (railDrop_frame _ _) ?_ rfl
            refine Frame.step (modDomain_frame _ _ _) ?_ rfl
            exact Frame.refl _ _
          · refine Frame.step (tallyAdd_frame _ _) ?_ rfl
            refine Frame.step (parkDomain_frame _ _) ?_ rfl
            refine Frame.step (railDrop_frame _ _) ?_ rfl
            refine Frame.step (modDomain_frame _ _ _) ?_ rfl
            exact Frame.refl _ _
    · refine Frame.ite ?_ ?_
      · refine Frame.step (raise_frame _ _ _) ?_ rfl
        refine Frame.ite ?_ ?_
        · refine Frame.step (parkDomain_frame _ _) ?_ rfl
          refine Frame.step (railDrop_frame _ _) ?_ rfl
          refine Frame.step (modDomain_frame _ _ _) ?_ rfl
          exact Frame.refl _ _
        · refine Frame.step (tallyAdd_frame _ _) ?_ rfl
          refine Frame.step (parkDomain_frame _ _) ?_ rfl
          refine Frame.step (railDrop_frame _ _) ?_ rfl
          refine Frame.step (modDomain_frame _ _ _) ?_ rfl
          exact Frame.refl _ _
      · refine Frame.ite ?_ ?_
        · refine Frame.step (enterWarn_frame _ _) ?_ rfl
          refine Frame.step (raise_frame _ _ _) ?_ rfl
          refine Frame.ite ?_ ?_
          · refine Frame.step (parkDomain_frame _ _) ?_ rfl
            refine Frame.step (railDrop_frame _ _) ?_ rfl
            refine Frame.step (modDomain_frame _ _ _) ?_ rfl
            exact Frame.refl _ _
          · refine Frame.step (tallyAdd_frame _ _) ?_ rfl
            refine Frame.step (parkDomain_frame _ _) ?_ rfl
            refine Frame.step (railDrop_frame _ _) ?_ rfl
            refine Frame.step (modDomain_frame _ _ _) ?_ rfl
            exact Frame.refl _ _
        · refine Frame.step (recompute_frame _ _) ?_ rfl
          refine Frame.step (raise_frame _ _ _) ?_ rfl
          refine Frame.ite ?_ ?_
          · refine Frame.step (parkDomain_frame _ _) ?_ rfl
            refine Frame.step (railDrop_frame _ _) ?_ rfl
            refine Frame.step (modDomain_frame _ _ _) ?_ rfl
            exact Frame.refl _ _
          · refine Frame.step (tallyAdd_frame _ _) ?_ rfl
            refine Frame.step (parkDomain_frame _ _) ?_ rfl
            refine Frame.step (railDrop_frame _ _) ?_ rfl
            refine Frame.step (modDomain_frame _ _ _) ?_ rfl
            exact Frame.refl _ _
    · refine Frame.ite ?_ ?_
      · refine Frame.step (raise_frame _ _ _) ?_ rfl
        refine Frame.ite ?_ ?_
        · refine Frame.step (parkDomain_frame _ _) ?_ rfl
          refine Frame.step (railDrop_frame _ _) ?_ rfl
          refine Frame.step (modDomain_frame _ _ _) ?_ rfl
          exact Frame.refl _ _
        · refine Frame.step (tallyAdd_frame _ _) ?_ rfl
          refine Frame.step (parkDomain_frame _ _) ?_ rfl
          refine Frame.step (railDrop_frame _ _) ?_ rfl
          refine Frame.step (modDomain_frame _ _ _) ?_ rfl
          exact Frame.refl _ _
      · refine Frame.ite ?_ ?_
        · refine Frame.step (enterWarn_frame _ _) ?_ rfl
          refine Frame.step (raise_frame _ _ _) ?_ rfl
          refine Frame.ite ?_ ?_
          · refine Frame.step (parkDomain_frame _ _) ?_ rfl
            refine Frame.step (railDrop_frame _ _) ?_ rfl
            refine Frame.step (modDomain_frame _ _ _) ?_ rfl
            exact Frame.refl _ _
          · refine Frame.step (tallyAdd_frame _ _) ?_ rfl
            refine Frame.step (parkDomain_frame _ _) ?_ rfl
            refine Frame.step (railDrop_frame _ _) ?_ rfl
            refine Frame.step (modDomain_frame _ _ _) ?_ rfl
            exact Frame.refl _ _
        · refine Frame.step (recompute_frame _ _) ?_ rfl
          refine Frame.step (raise_frame _ _ _) ?_ rfl
          refine Frame.ite ?_ ?_
          · refine Frame.step (parkDomain_frame _ _) ?_ rfl
            refine Frame.step (railDrop_frame _ _) ?_ rfl
            refine Frame.step (modDomain_frame _ _ _) ?_ rfl
            exact Frame.refl _ _
          · refine Frame.step (tallyAdd_frame _ _) ?_ rfl
            refine Frame.step (parkDomain_frame _ _) ?_ rfl
            refine Frame.step (railDrop_frame _ _) ?_ rfl
            refine Frame.step (modDomain_frame _ _ _) ?_ rfl
            exact Frame.refl _ _
    · refine Frame.step (raise_frame _ _ _) ?_ rfl
      refine Frame.ite ?_ ?_
      · refine Frame.step (parkDomain_frame _ _) ?_ rfl
        refine Frame.step (railDrop_frame _ _) ?_ rfl
        refine Frame.step (modDomain_frame _ _ _) ?_ rfl
        exact Frame.refl _ _
      · refine Frame.step (tallyAdd_frame _ _) ?_ rfl
        refine Frame.step (parkDomain_frame _ _) ?_ rfl
        refine Frame.step (railDrop_frame _ _) ?_ rfl
        refine Frame.step (modDomain_frame _ _ _) ?_ rfl
        exact Frame.refl _ _

theorem runningFault_frame (s : State) (r : Nat) (cause : Nat) :
    Frame [.sys, .mgmt, .folio, .ledger, .power, .reserve, .thermal, .channels, .ports, .groups, .easel, .palette, .directory, .queues, .barrow, .perf, .path, .stats, .out] s (runningFault s r cause) := by
  unfold runningFault
  dsimp only
  refine Frame.ite ?_ ?_
  · refine Frame.ite ?_ ?_
    · refine Frame.step (raise_frame _ _ _) ?_ rfl
      refine Frame.step (tallyAdd_frame _ _) ?_ rfl
      refine Frame.step (modRail_frame _ _ _) ?_ rfl
      exact Frame.refl _ _
    · refine Frame.ite ?_ ?_
      · split
        · refine Frame.step (enterWarn_frame _ _) ?_ rfl
          refine Frame.ite ?_ ?_
          · refine Frame.step (railDrop_frame _ _) ?_ rfl
            refine Frame.step (raise_frame _ _ _) ?_ rfl
            refine Frame.step (tallyAdd_frame _ _) ?_ rfl
            refine Frame.step (modRail_frame _ _ _) ?_ rfl
            exact Frame.refl _ _
          · refine Frame.step (raise_frame _ _ _) ?_ rfl
            refine Frame.step (tallyAdd_frame _ _) ?_ rfl
            refine Frame.step (modRail_frame _ _ _) ?_ rfl
            exact Frame.refl _ _
        · refine Frame.step (enterWarn_frame _ _) ?_ rfl
          refine Frame.ite ?_ ?_
          · refine Frame.step (railDrop_frame _ _) ?_ rfl
            refine Frame.step (raise_frame _ _ _) ?_ rfl
            refine Frame.step (tallyAdd_frame _ _) ?_ rfl
            refine Frame.step (modRail_frame _ _ _) ?_ rfl
            exact Frame.refl _ _
          · refine Frame.step (raise_frame _ _ _) ?_ rfl
            refine Frame.step (tallyAdd_frame _ _) ?_ rfl
            refine Frame.step (modRail_frame _ _ _) ?_ rfl
            exact Frame.refl _ _
        · refine Frame.step (enterWarn_frame _ _) ?_ rfl
          refine Frame.ite ?_ ?_
          · refine Frame.step (railDrop_frame _ _) ?_ rfl
            refine Frame.step (raise_frame _ _ _) ?_ rfl
            refine Frame.step (tallyAdd_frame _ _) ?_ rfl
            refine Frame.step (modRail_frame _ _ _) ?_ rfl
            exact Frame.refl _ _
          · refine Frame.step (raise_frame _ _ _) ?_ rfl
            refine Frame.step (tallyAdd_frame _ _) ?_ rfl
            refine Frame.step (modRail_frame _ _ _) ?_ rfl
            exact Frame.refl _ _
        · refine Frame.step (failedStart_frame _) ?_ rfl
          refine Frame.step (railDrop_frame _ _) ?_ rfl
          refine Frame.step (raise_frame _ _ _) ?_ rfl
          refine Frame.step (tallyAdd_frame _ _) ?_ rfl
          refine Frame.step (modRail_frame _ _ _) ?_ rfl
          exact Frame.refl _ _
        · refine Frame.step (raise_frame _ _ _) ?_ rfl
          refine Frame.step (tallyAdd_frame _ _) ?_ rfl
          refine Frame.step (modRail_frame _ _ _) ?_ rfl
          exact Frame.refl _ _
      · refine Frame.step (domainOff_frame _ _ _ _) ?_ rfl
        refine Frame.step (tallyAdd_frame _ _) ?_ rfl
        refine Frame.step (modRail_frame _ _ _) ?_ rfl
        exact Frame.refl _ _
  · exact Frame.refl _ _

theorem bandCheck_frame (s : State) (r : Nat) (v : Nat) :
    Frame [.sys, .mgmt, .folio, .ledger, .power, .reserve, .thermal, .channels, .ports, .groups, .easel, .palette, .directory, .queues, .barrow, .perf, .path, .stats, .out] s (bandCheck s r v) := by
  unfold bandCheck
  dsimp only
  refine Frame.ite ?_ ?_
  · refine Frame.step (runningFault_frame _ _ _) ?_ rfl
    refine Frame.ite ?_ ?_
    · refine Frame.step (raise_frame _ _ _) ?_ rfl
      refine Frame.step (bump_frame _ _ _ _) ?_ rfl
      refine Frame.step (modRail_frame _ _ _) ?_ rfl
      exact Frame.refl _ _
    · refine Frame.step (modRail_frame _ _ _) ?_ rfl
      exact Frame.refl _ _
  · refine Frame.ite ?_ ?_
    · refine Frame.step (runningFault_frame _ _ _) ?_ rfl
      refine Frame.ite ?_ ?_
      · refine Frame.step (raise_frame _ _ _) ?_ rfl
        refine Frame.step (bump_frame _ _ _ _) ?_ rfl
        refine Frame.step (modRail_frame _ _ _) ?_ rfl
        exact Frame.refl _ _
      · refine Frame.step (modRail_frame _ _ _) ?_ rfl
        exact Frame.refl _ _
    · refine Frame.ite ?_ ?_
      · refine Frame.step (raise_frame _ _ _) ?_ rfl
        refine Frame.step (bump_frame _ _ _ _) ?_ rfl
        refine Frame.step (modRail_frame _ _ _) ?_ rfl
        exact Frame.refl _ _
      · refine Frame.step (modRail_frame _ _ _) ?_ rfl
        exact Frame.refl _ _

theorem waitRead_frame (s : State) (w : ReadWait) :
    Frame [.easel] s (waitRead s w) := by
  unfold waitRead
  refine Frame.upd_easel ?_ rfl
  exact Frame.refl _ _

theorem lookupRemap_frame (s : State) (line : Nat) :
    Frame [.palette, .perf, .stats] s (lookupRemap s line) := by
  unfold lookupRemap
  split
  · split
    · refine Frame.ite ?_ ?_
      · refine Frame.step (palLookup_frame _ _ _) ?_ rfl
        exact Frame.refl _ _
      · exact Frame.refl _ _
    · exact Frame.refl _ _
  · exact Frame.refl _ _

theorem easelTouch_frame (s : State) (p : Nat) (last : Bool) :
    Frame [.easel] s (easelTouch s p last) := by
  unfold easelTouch
  refine Frame.upd_easel ?_ rfl
  exact Frame.refl _ _

theorem missRead_go_frame (w : ReadWait) (s : State) (line : Nat) :
    Frame [.mgmt, .folio, .ledger, .ports, .easel, .palette, .directory, .queues, .barrow, .perf, .stats, .out] s (missRead.go w s line) := by
  unfold missRead.go
  dsimp only
  split
  · refine Frame.step (deliverRead_frame _ _ _ _) ?_ rfl
    split
    · refine Frame.step (easelTouch_frame _ _ _) ?_ rfl
      refine Frame.step (modLine_frame _ _ _) ?_ rfl
      refine Frame.step (bump_frame _ _ _ _) ?_ rfl
      exact Frame.refl _ _
    · refine Frame.step (bump_frame _ _ _ _) ?_ rfl
      exact Frame.refl _ _
  · split
    · refine Frame.upd_easel ?_ rfl
      exact Frame.refl _ _
    · split
      · refine Frame.step (waitRead_frame _ _) ?_ rfl
        refine Frame.step (issueRead_frame _ _ _ _ _) ?_ rfl
        refine Frame.step (modLine_frame _ _ _) ?_ rfl
        refine Frame.step (lookupRemap_frame _ _) ?_ rfl
        refine Frame.step (lookupPath_frame _ _) ?_ rfl
        exact Frame.refl _ _
      · refine Frame.step (issueRead_frame _ _ _ _ _) ?_ rfl
        refine Frame.step (bump_frame _ _ _ _) ?_ rfl
        refine Frame.step (lookupRemap_frame _ _) ?_ rfl
        refine Frame.step (lookupPath_frame _ _) ?_ rfl
        exact Frame.refl _ _

theorem missRead_frame (s : State) (w : ReadWait) :
    Frame [.mgmt, .folio, .ledger, .ports, .easel, .palette, .directory, .queues, .barrow, .perf, .stats, .out] s (missRead s w) := by
  unfold missRead
  dsimp only
  split
  · refine Frame.ite ?_ ?_
    · refine Frame.step (deliverRead_frame _ _ _ _) ?_ rfl
      split
      · refine Frame.step (stamp_frame _ _ _) ?_ rfl
        refine Frame.step (perfCount_frame _ _ _ _) ?_ rfl
        refine Frame.step (bump_frame _ _ _ _) ?_ rfl
        exact Frame.refl _ _
      · refine Frame.step (perfCount_frame _ _ _ _) ?_ rfl
        refine Frame.step (bump_frame _ _ _ _) ?_ rfl
        exact Frame.refl _ _
    · refine Frame.step (missRead_go_frame _ _ _) ?_ rfl
      split
      · refine Frame.step (stamp_frame _ _ _) ?_ rfl
        refine Frame.step (perfCount_frame _ _ _ _) ?_ rfl
        refine Frame.step (bump_frame _ _ _ _) ?_ rfl
        exact Frame.refl _ _
      · refine Frame.step (perfCount_frame _ _ _ _) ?_ rfl
        refine Frame.step (bump_frame _ _ _ _) ?_ rfl
        exact Frame.refl _ _
  · refine Frame.step (missRead_go_frame _ _ _) ?_ rfl
    split
    · refine Frame.step (stamp_frame _ _ _) ?_ rfl
      refine Frame.step (perfCount_frame _ _ _ _) ?_ rfl
      refine Frame.step (bump_frame _ _ _ _) ?_ rfl
      exact Frame.refl _ _
    · refine Frame.step (perfCount_frame _ _ _ _) ?_ rfl
      refine Frame.step (bump_frame _ _ _ _) ?_ rfl
      exact Frame.refl _ _

theorem bankRead_frame (s : State) (w : ReadWait) :
    Frame [.mgmt, .folio, .ledger, .ports, .easel, .palette, .directory, .queues, .barrow, .perf, .stats, .out] s (bankRead s w) := by
  unfold bankRead
  dsimp only
  refine Frame.ite ?_ ?_
  · refine Frame.step (deliverRead_frame _ _ _ _) ?_ rfl
    refine Frame.step (stamp_frame _ _ _) ?_ rfl
    exact Frame.refl _ _
  · refine Frame.ite ?_ ?_
    · refine Frame.step (waitRead_frame _ _) ?_ rfl
      refine Frame.step (stamp_frame _ _ _) ?_ rfl
      exact Frame.refl _ _
    · split
      · refine Frame.step (missRead_frame _ _) ?_ rfl
        refine Frame.step (stamp_frame _ _ _) ?_ rfl
        exact Frame.refl _ _
      · refine Frame.ite ?_ ?_
        · refine Frame.step (deliverRead_frame _ _ _ _) ?_ rfl
          refine Frame.step (perfCount_frame _ _ _ _) ?_ rfl
          refine Frame.step (stamp_frame _ _ _) ?_ rfl
          exact Frame.refl _ _
        · refine Frame.ite ?_ ?_
          · refine Frame.step (waitRead_frame _ _) ?_ rfl
            refine Frame.step (stamp_frame _ _ _) ?_ rfl
            exact Frame.refl _ _
          · refine Frame.step (deliverRead_frame _ _ _ _) ?_ rfl
            refine Frame.step (easelTouch_frame _ _ _) ?_ rfl
            refine Frame.step (perfCount_frame _ _ _ _) ?_ rfl
            refine Frame.step (flagSample_frame _ _ _) ?_ rfl
            refine Frame.step (bump_frame _ _ _ _) ?_ rfl
            refine Frame.step (stamp_frame _ _ _) ?_ rfl
            exact Frame.refl _ _

theorem holdWrite_frame (s : State) (w : WriteReq) (why : Nat) :
    Frame [.ports, .groups, .easel, .palette, .stats] s (holdWrite s w why) := by
  unfold holdWrite
  dsimp only
  refine Frame.ite ?_ ?_
  · refine Frame.step (selectShare_frame _ _ _) ?_ rfl
    refine Frame.step (bump_frame _ _ _ _) ?_ rfl
    refine Frame.step (modPort_frame _ _ _) ?_ rfl
    exact Frame.refl _ _
  · refine Frame.ite ?_ ?_
    · split
      · refine Frame.step (destageSelect_frame _ _ _ _) ?_ rfl
        refine Frame.step (bump_frame _ _ _ _) ?_ rfl
        refine Frame.step (bump_frame _ _ _ _) ?_ rfl
        refine Frame.step (modPort_frame _ _ _) ?_ rfl
        exact Frame.refl _ _
      · refine Frame.step (bump_frame _ _ _ _) ?_ rfl
        refine Frame.step (bump_frame _ _ _ _) ?_ rfl
        refine Frame.step (modPort_frame _ _ _) ?_ rfl
        exact Frame.refl _ _
    · refine Frame.ite ?_ ?_
      · refine Frame.step (selectDevice_frame _ _) ?_ rfl
        refine Frame.step (bump_frame _ _ _ _) ?_ rfl
        refine Frame.step (modPort_frame _ _ _) ?_ rfl
        exact Frame.refl _ _
      · refine Frame.step (bump_frame _ _ _ _) ?_ rfl
        refine Frame.step (modPort_frame _ _ _) ?_ rfl
        exact Frame.refl _ _

end Sys2Proof.Machine
end

