-- ==== Sys2Proof/Laws/FrameOps2.lean ====
section
/-! SUPPORT. Laws/FrameOps2.lean: which units of the state each operation can change, one lemma per operation, in the order the operations are built on each other (part 2 of 3). -/

namespace Sys2Proof.Machine

theorem poisonRemove_frame (s : State) (line : Nat) :
    Frame [.palette] s (poisonRemove s line) := by
  unfold poisonRemove
  dsimp only
  refine Frame.step (setBucket_frame _ _ _) ?_ rfl
  exact Frame.refl _ _

theorem closeBypass_frame (s : State) (line : Nat) :
    Frame [.easel] s (closeBypass s line) := by
  unfold closeBypass
  refine Frame.upd_easel ?_ rfl
  exact Frame.refl _ _

theorem putWrite_frame (s : State) (p : Nat) (w : WriteReq) (absent : Bool) (charge : Option Nat) :
    Frame [.reserve, .easel, .palette, .perf, .stats] s (putWrite s p w absent charge) := by
  unfold putWrite
  dsimp only
  refine Frame.step (easelTouch_frame _ _ _) ?_ rfl
  refine Frame.ite ?_ ?_
  · refine Frame.step (poisonRemove_frame _ _) ?_ rfl
    refine Frame.ite ?_ ?_
    · refine Frame.step (issueRead_frame _ _ _ _ _) ?_ rfl
      refine Frame.step (lookupRemap_frame _ _) ?_ rfl
      refine Frame.ite ?_ ?_
      · refine Frame.step (closeBypass_frame _ _) ?_ rfl
        refine Frame.ite ?_ ?_
        · refine Frame.step (deadenFill_frame _ _ _ _) ?_ rfl
          refine Frame.ite ?_ ?_
          · refine Frame.step (bump_frame _ _ _ _) ?_ rfl
            refine Frame.ite ?_ ?_
            · refine Frame.step (setMerge_frame _ _ _) ?_ rfl
              split
              · refine Frame.step (chargeLine_frame _ _ _ _) ?_ rfl
                refine Frame.step (modLine_frame _ _ _) ?_ rfl
                exact Frame.refl _ _
              · refine Frame.step (modLine_frame _ _ _) ?_ rfl
                exact Frame.refl _ _
            · refine Frame.step (setMerge_frame _ _ _) ?_ rfl
              split
              · refine Frame.step (chargeLine_frame _ _ _ _) ?_ rfl
                refine Frame.step (modLine_frame _ _ _) ?_ rfl
                exact Frame.refl _ _
              · refine Frame.step (modLine_frame _ _ _) ?_ rfl
                exact Frame.refl _ _
          · refine Frame.ite ?_ ?_
            · refine Frame.step (setMerge_frame _ _ _) ?_ rfl
              split
              · refine Frame.step (chargeLine_frame _ _ _ _) ?_ rfl
                refine Frame.step (modLine_frame _ _ _) ?_ rfl
                exact Frame.refl _ _
              · refine Frame.step (modLine_frame _ _ _) ?_ rfl
                exact Frame.refl _ _
            · refine Frame.step (setMerge_frame _ _ _) ?_ rfl
              split
              · refine Frame.step (chargeLine_frame _ _ _ _) ?_ rfl
                refine Frame.step (modLine_frame _ _ _) ?_ rfl
                exact Frame.refl _ _
              · refine Frame.step (modLine_frame _ _ _) ?_ rfl
                exact Frame.refl _ _
        · refine Frame.ite ?_ ?_
          · refine Frame.step (bump_frame _ _ _ _) ?_ rfl
            refine Frame.ite ?_ ?_
            · refine Frame.step (setMerge_frame _ _ _) ?_ rfl
              split
              · refine Frame.step (chargeLine_frame _ _ _ _) ?_ rfl
                refine Frame.step (modLine_frame _ _ _) ?_ rfl
                exact Frame.refl _ _
              · refine Frame.step (modLine_frame _ _ _) ?_ rfl
                exact Frame.refl _ _
            · refine Frame.step (setMerge_frame _ _ _) ?_ rfl
              split
              · refine Frame.step (chargeLine_frame _ _ _ _) ?_ rfl
                refine Frame.step (modLine_frame _ _ _) ?_ rfl
                exact Frame.refl _ _
              · refine Frame.step (modLine_frame _ _ _) ?_ rfl
                exact Frame.refl _ _
          · refine Frame.ite ?_ ?_
            · refine Frame.step (setMerge_frame _ _ _) ?_ rfl
              split
              · refine Frame.step (chargeLine_frame _ _ _ _) ?_ rfl
                refine Frame.step (modLine_frame _ _ _) ?_ rfl
                exact Frame.refl _ _
              · refine Frame.step (modLine_frame _ _ _) ?_ rfl
                exact Frame.refl _ _
            · refine Frame.step (setMerge_frame _ _ _) ?_ rfl
              split
              · refine Frame.step (chargeLine_frame _ _ _ _) ?_ rfl
                refine Frame.step (modLine_frame _ _ _) ?_ rfl
                exact Frame.refl _ _
              · refine Frame.step (modLine_frame _ _ _) ?_ rfl
                exact Frame.refl _ _
      · refine Frame.ite ?_ ?_
        · refine Frame.step (deadenFill_frame _ _ _ _) ?_ rfl
          refine Frame.ite ?_ ?_
          · refine Frame.step (bump_frame _ _ _ _) ?_ rfl
            refine Frame.ite ?_ ?_
            · refine Frame.step (setMerge_frame _ _ _) ?_ rfl
              split
              · refine Frame.step (chargeLine_frame _ _ _ _) ?_ rfl
                refine Frame.step (modLine_frame _ _ _) ?_ rfl
                exact Frame.refl _ _
              · refine Frame.step (modLine_frame _ _ _) ?_ rfl
                exact Frame.refl _ _
            · refine Frame.step (setMerge_frame _ _ _) ?_ rfl
              split
              · refine Frame.step (chargeLine_frame _ _ _ _) ?_ rfl
                refine Frame.step (modLine_frame _ _ _) ?_ rfl
                exact Frame.refl _ _
              · refine Frame.step (modLine_frame _ _ _) ?_ rfl
                exact Frame.refl _ _
          · refine Frame.ite ?_ ?_
            · refine Frame.step (setMerge_frame _ _ _) ?_ rfl
              split
              · refine Frame.step (chargeLine_frame _ _ _ _) ?_ rfl
                refine Frame.step (modLine_frame _ _ _) ?_ rfl
                exact Frame.refl _ _
              · refine Frame.step (modLine_frame _ _ _) ?_ rfl
                exact Frame.refl _ _
            · refine Frame.step (setMerge_frame _ _ _) ?_ rfl
              split
              · refine Frame.step (chargeLine_frame _ _ _ _) ?_ rfl
                refine Frame.step (modLine_frame _ _ _) ?_ rfl
                exact Frame.refl _ _
              · refine Frame.step (modLine_frame _ _ _) ?_ rfl
                exact Frame.refl _ _
        · refine Frame.ite ?_ ?_
          · refine Frame.step (bump_frame _ _ _ _) ?_ rfl
            refine Frame.ite ?_ ?_
            · refine Frame.step (setMerge_frame _ _ _) ?_ rfl
              split
              · refine Frame.step (chargeLine_frame _ _ _ _) ?_ rfl
                refine Frame.step (modLine_frame _ _ _) ?_ rfl
                exact Frame.refl _ _
              · refine Frame.step (modLine_frame _ _ _) ?_ rfl
                exact Frame.refl _ _
            · refine Frame.step (setMerge_frame _ _ _) ?_ rfl
              split
              · refine Frame.step (chargeLine_frame _ _ _ _) ?_ rfl
                refine Frame.step (modLine_frame _ _ _) ?_ rfl
                exact Frame.refl _ _
              · refine Frame.step (modLine_frame _ _ _) ?_ rfl
                exact Frame.refl _ _
          · refine Frame.ite ?_ ?_
            · refine Frame.step (setMerge_frame _ _ _) ?_ rfl
              split
              · refine Frame.step (chargeLine_frame _ _ _ _) ?_ rfl
                refine Frame.step (modLine_frame _ _ _) ?_ rfl
                exact Frame.refl _ _
              · refine Frame.step (modLine_frame _ _ _) ?_ rfl
                exact Frame.refl _ _
            · refine Frame.step (setMerge_frame _ _ _) ?_ rfl
              split
              · refine Frame.step (chargeLine_frame _ _ _ _) ?_ rfl
                refine Frame.step (modLine_frame _ _ _) ?_ rfl
                exact Frame.refl _ _
              · refine Frame.step (modLine_frame _ _ _) ?_ rfl
                exact Frame.refl _ _
    · refine Frame.ite ?_ ?_
      · refine Frame.step (closeBypass_frame _ _) ?_ rfl
        refine Frame.ite ?_ ?_
        · refine Frame.step (deadenFill_frame _ _ _ _) ?_ rfl
          refine Frame.ite ?_ ?_
          · refine Frame.step (bump_frame _ _ _ _) ?_ rfl
            refine Frame.ite ?_ ?_
            · refine Frame.step (setMerge_frame _ _ _) ?_ rfl
              split
              · refine Frame.step (chargeLine_frame _ _ _ _) ?_ rfl
                refine Frame.step (modLine_frame _ _ _) ?_ rfl
                exact Frame.refl _ _
              · refine Frame.step (modLine_frame _ _ _) ?_ rfl
                exact Frame.refl _ _
            · refine Frame.step (setMerge_frame _ _ _) ?_ rfl
              split
              · refine Frame.step (chargeLine_frame _ _ _ _) ?_ rfl
                refine Frame.step (modLine_frame _ _ _) ?_ rfl
                exact Frame.refl _ _
              · refine Frame.step (modLine_frame _ _ _) ?_ rfl
                exact Frame.refl _ _
          · refine Frame.ite ?_ ?_
            · refine Frame.step (setMerge_frame _ _ _) ?_ rfl
              split
              · refine Frame.step (chargeLine_frame _ _ _ _) ?_ rfl
                refine Frame.step (modLine_frame _ _ _) ?_ rfl
                exact Frame.refl _ _
              · refine Frame.step (modLine_frame _ _ _) ?_ rfl
                exact Frame.refl _ _
            · refine Frame.step (setMerge_frame _ _ _) ?_ rfl
              split
              · refine Frame.step (chargeLine_frame _ _ _ _) ?_ rfl
                refine Frame.step (modLine_frame _ _ _) ?_ rfl
                exact Frame.refl _ _
              · refine Frame.step (modLine_frame _ _ _) ?_ rfl
                exact Frame.refl _ _
        · refine Frame.ite ?_ ?_
          · refine Frame.step (bump_frame _ _ _ _) ?_ rfl
            refine Frame.ite ?_ ?_
            · refine Frame.step (setMerge_frame _ _ _) ?_ rfl
              split
              · refine Frame.step (chargeLine_frame _ _ _ _) ?_ rfl
                refine Frame.step (modLine_frame _ _ _) ?_ rfl
                exact Frame.refl _ _
              · refine Frame.step (modLine_frame _ _ _) ?_ rfl
                exact Frame.refl _ _
            · refine Frame.step (setMerge_frame _ _ _) ?_ rfl
              split
              · refine Frame.step (chargeLine_frame _ _ _ _) ?_ rfl
                refine Frame.step (modLine_frame _ _ _) ?_ rfl
                exact Frame.refl _ _
              · refine Frame.step (modLine_frame _ _ _) ?_ rfl
                exact Frame.refl _ _
          · refine Frame.ite ?_ ?_
            · refine Frame.step (setMerge_frame _ _ _) ?_ rfl
              split
              · refine Frame.step (chargeLine_frame _ _ _ _) ?_ rfl
                refine Frame.step (modLine_frame _ _ _) ?_ rfl
                exact Frame.refl _ _
              · refine Frame.step (modLine_frame _ _ _) ?_ rfl
                exact Frame.refl _ _
            · refine Frame.step (setMerge_frame _ _ _) ?_ rfl
              split
              · refine Frame.step (chargeLine_frame _ _ _ _) ?_ rfl
                refine Frame.step (modLine_frame _ _ _) ?_ rfl
                exact Frame.refl _ _
              · refine Frame.step (modLine_frame _ _ _) ?_ rfl
                exact Frame.refl _ _
      · refine Frame.ite ?_ ?_
        · refine Frame.step (deadenFill_frame _ _ _ _) ?_ rfl
          refine Frame.ite ?_ ?_
          · refine Frame.step (bump_frame _ _ _ _) ?_ rfl
            refine Frame.ite ?_ ?_
            · refine Frame.step (setMerge_frame _ _ _) ?_ rfl
              split
              · refine Frame.step (chargeLine_frame _ _ _ _) ?_ rfl
                refine Frame.step (modLine_frame _ _ _) ?_ rfl
                exact Frame.refl _ _
              · refine Frame.step (modLine_frame _ _ _) ?_ rfl
                exact Frame.refl _ _
            · refine Frame.step (setMerge_frame _ _ _) ?_ rfl
              split
              · refine Frame.step (chargeLine_frame _ _ _ _) ?_ rfl
                refine Frame.step (modLine_frame _ _ _) ?_ rfl
                exact Frame.refl _ _
              · refine Frame.step (modLine_frame _ _ _) ?_ rfl
                exact Frame.refl _ _
          · refine Frame.ite ?_ ?_
            · refine Frame.step (setMerge_frame _ _ _) ?_ rfl
              split
              · refine Frame.step (chargeLine_frame _ _ _ _) ?_ rfl
                refine Frame.step (modLine_frame _ _ _) ?_ rfl
                exact Frame.refl _ _
              · refine Frame.step (modLine_frame _ _ _) ?_ rfl
                exact Frame.refl _ _
            · refine Frame.step (setMerge_frame _ _ _) ?_ rfl
              split
              · refine Frame.step (chargeLine_frame _ _ _ _) ?_ rfl
                refine Frame.step (modLine_frame _ _ _) ?_ rfl
                exact Frame.refl _ _
              · refine Frame.step (modLine_frame _ _ _) ?_ rfl
                exact Frame.refl _ _
        · refine Frame.ite ?_ ?_
          · refine Frame.step (bump_frame _ _ _ _) ?_ rfl
            refine Frame.ite ?_ ?_
            · refine Frame.step (setMerge_frame _ _ _) ?_ rfl
              split
              · refine Frame.step (chargeLine_frame _ _ _ _) ?_ rfl
                refine Frame.step (modLine_frame _ _ _) ?_ rfl
                exact Frame.refl _ _
              · refine Frame.step (modLine_frame _ _ _) ?_ rfl
                exact Frame.refl _ _
            · refine Frame.step (setMerge_frame _ _ _) ?_ rfl
              split
              · refine Frame.step (chargeLine_frame _ _ _ _) ?_ rfl
                refine Frame.step (modLine_frame _ _ _) ?_ rfl
                exact Frame.refl _ _
              · refine Frame.step (modLine_frame _ _ _) ?_ rfl
                exact Frame.refl _ _
          · refine Frame.ite ?_ ?_
            · refine Frame.step (setMerge_frame _ _ _) ?_ rfl
              split
              · refine Frame.step (chargeLine_frame _ _ _ _) ?_ rfl
                refine Frame.step (modLine_frame _ _ _) ?_ rfl
                exact Frame.refl _ _
              · refine Frame.step (modLine_frame _ _ _) ?_ rfl
                exact Frame.refl _ _
            · refine Frame.step (setMerge_frame _ _ _) ?_ rfl
              split
              · refine Frame.step (chargeLine_frame _ _ _ _) ?_ rfl
                refine Frame.step (modLine_frame _ _ _) ?_ rfl
                exact Frame.refl _ _
              · refine Frame.step (modLine_frame _ _ _) ?_ rfl
                exact Frame.refl _ _
  · refine Frame.ite ?_ ?_
    · refine Frame.step (issueRead_frame _ _ _ _ _) ?_ rfl
      refine Frame.step (lookupRemap_frame _ _) ?_ rfl
      refine Frame.ite ?_ ?_
      · refine Frame.step (closeBypass_frame _ _) ?_ rfl
        refine Frame.ite ?_ ?_
        · refine Frame.step (deadenFill_frame _ _ _ _) ?_ rfl
          refine Frame.ite ?_ ?_
          · refine Frame.step (bump_frame _ _ _ _) ?_ rfl
            refine Frame.ite ?_ ?_
            · refine Frame.step (setMerge_frame _ _ _) ?_ rfl
              split
              · refine Frame.step (chargeLine_frame _ _ _ _) ?_ rfl
                refine Frame.step (modLine_frame _ _ _) ?_ rfl
                exact Frame.refl _ _
              · refine Frame.step (modLine_frame _ _ _) ?_ rfl
                exact Frame.refl _ _
            · refine Frame.step (setMerge_frame _ _ _) ?_ rfl
              split
              · refine Frame.step (chargeLine_frame _ _ _ _) ?_ rfl
                refine Frame.step (modLine_frame _ _ _) ?_ rfl
                exact Frame.refl _ _
              · refine Frame.step (modLine_frame _ _ _) ?_ rfl
                exact Frame.refl _ _
          · refine Frame.ite ?_ ?_
            · refine Frame.step (setMerge_frame _ _ _) ?_ rfl
              split
              · refine Frame.step (chargeLine_frame _ _ _ _) ?_ rfl
                refine Frame.step (modLine_frame _ _ _) ?_ rfl
                exact Frame.refl _ _
              · refine Frame.step (modLine_frame _ _ _) ?_ rfl
                exact Frame.refl _ _
            · refine Frame.step (setMerge_frame _ _ _) ?_ rfl
              split
              · refine Frame.step (chargeLine_frame _ _ _ _) ?_ rfl
                refine Frame.step (modLine_frame _ _ _) ?_ rfl
                exact Frame.refl _ _
              · refine Frame.step (modLine_frame _ _ _) ?_ rfl
                exact Frame.refl _ _
        · refine Frame.ite ?_ ?_
          · refine Frame.step (bump_frame _ _ _ _) ?_ rfl
            refine Frame.ite ?_ ?_
            · refine Frame.step (setMerge_frame _ _ _) ?_ rfl
              split
              · refine Frame.step (chargeLine_frame _ _ _ _) ?_ rfl
                refine Frame.step (modLine_frame _ _ _) ?_ rfl
                exact Frame.refl _ _
              · refine Frame.step (modLine_frame _ _ _) ?_ rfl
                exact Frame.refl _ _
            · refine Frame.step (setMerge_frame _ _ _) ?_ rfl
              split
              · refine Frame.step (chargeLine_frame _ _ _ _) ?_ rfl
                refine Frame.step (modLine_frame _ _ _) ?_ rfl
                exact Frame.refl _ _
              · refine Frame.step (modLine_frame _ _ _) ?_ rfl
                exact Frame.refl _ _
          · refine Frame.ite ?_ ?_
            · refine Frame.step (setMerge_frame _ _ _) ?_ rfl
              split
              · refine Frame.step (chargeLine_frame _ _ _ _) ?_ rfl
                refine Frame.step (modLine_frame _ _ _) ?_ rfl
                exact Frame.refl _ _
              · refine Frame.step (modLine_frame _ _ _) ?_ rfl
                exact Frame.refl _ _
            · refine Frame.step (setMerge_frame _ _ _) ?_ rfl
              split
              · refine Frame.step (chargeLine_frame _ _ _ _) ?_ rfl
                refine Frame.step (modLine_frame _ _ _) ?_ rfl
                exact Frame.refl _ _
              · refine Frame.step (modLine_frame _ _ _) ?_ rfl
                exact Frame.refl _ _
      · refine Frame.ite ?_ ?_
        · refine Frame.step (deadenFill_frame _ _ _ _) ?_ rfl
          refine Frame.ite ?_ ?_
          · refine Frame.step (bump_frame _ _ _ _) ?_ rfl
            refine Frame.ite ?_ ?_
            · refine Frame.step (setMerge_frame _ _ _) ?_ rfl
              split
              · refine Frame.step (chargeLine_frame _ _ _ _) ?_ rfl
                refine Frame.step (modLine_frame _ _ _) ?_ rfl
                exact Frame.refl _ _
              · refine Frame.step (modLine_frame _ _ _) ?_ rfl
                exact Frame.refl _ _
            · refine Frame.step (setMerge_frame _ _ _) ?_ rfl
              split
              · refine Frame.step (chargeLine_frame _ _ _ _) ?_ rfl
                refine Frame.step (modLine_frame _ _ _) ?_ rfl
                exact Frame.refl _ _
              · refine Frame.step (modLine_frame _ _ _) ?_ rfl
                exact Frame.refl _ _
          · refine Frame.ite ?_ ?_
            · refine Frame.step (setMerge_frame _ _ _) ?_ rfl
              split
              · refine Frame.step (chargeLine_frame _ _ _ _) ?_ rfl
                refine Frame.step (modLine_frame _ _ _) ?_ rfl
                exact Frame.refl _ _
              · refine Frame.step (modLine_frame _ _ _) ?_ rfl
                exact Frame.refl _ _
            · refine Frame.step (setMerge_frame _ _ _) ?_ rfl
              split
              · refine Frame.step (chargeLine_frame _ _ _ _) ?_ rfl
                refine Frame.step (modLine_frame _ _ _) ?_ rfl
                exact Frame.refl _ _
              · refine Frame.step (modLine_frame _ _ _) ?_ rfl
                exact Frame.refl _ _
        · refine Frame.ite ?_ ?_
          · refine Frame.step (bump_frame _ _ _ _) ?_ rfl
            refine Frame.ite ?_ ?_
            · refine Frame.step (setMerge_frame _ _ _) ?_ rfl
              split
              · refine Frame.step (chargeLine_frame _ _ _ _) ?_ rfl
                refine Frame.step (modLine_frame _ _ _) ?_ rfl
                exact Frame.refl _ _
              · refine Frame.step (modLine_frame _ _ _) ?_ rfl
                exact Frame.refl _ _
            · refine Frame.step (setMerge_frame _ _ _) ?_ rfl
              split
              · refine Frame.step (chargeLine_frame _ _ _ _) ?_ rfl
                refine Frame.step (modLine_frame _ _ _) ?_ rfl
                exact Frame.refl _ _
              · refine Frame.step (modLine_frame _ _ _) ?_ rfl
                exact Frame.refl _ _
          · refine Frame.ite ?_ ?_
            · refine Frame.step (setMerge_frame _ _ _) ?_ rfl
              split
              · refine Frame.step (chargeLine_frame _ _ _ _) ?_ rfl
                refine Frame.step (modLine_frame _ _ _) ?_ rfl
                exact Frame.refl _ _
              · refine Frame.step (modLine_frame _ _ _) ?_ rfl
                exact Frame.refl _ _
            · refine Frame.step (setMerge_frame _ _ _) ?_ rfl
              split
              · refine Frame.step (chargeLine_frame _ _ _ _) ?_ rfl
                refine Frame.step (modLine_frame _ _ _) ?_ rfl
                exact Frame.refl _ _
              · refine Frame.step (modLine_frame _ _ _) ?_ rfl
                exact Frame.refl _ _
    · refine Frame.ite ?_ ?_
      · refine Frame.step (closeBypass_frame _ _) ?_ rfl
        refine Frame.ite ?_ ?_
        · refine Frame.step (deadenFill_frame _ _ _ _) ?_ rfl
          refine Frame.ite ?_ ?_
          · refine Frame.step (bump_frame _ _ _ _) ?_ rfl
            refine Frame.ite ?_ ?_
            · refine Frame.step (setMerge_frame _ _ _) ?_ rfl
              split
              · refine Frame.step (chargeLine_frame _ _ _ _) ?_ rfl
                refine Frame.step (modLine_frame _ _ _) ?_ rfl
                exact Frame.refl _ _
              · refine Frame.step (modLine_frame _ _ _) ?_ rfl
                exact Frame.refl _ _
            · refine Frame.step (setMerge_frame _ _ _) ?_ rfl
              split
              · refine Frame.step (chargeLine_frame _ _ _ _) ?_ rfl
                refine Frame.step (modLine_frame _ _ _) ?_ rfl
                exact Frame.refl _ _
              · refine Frame.step (modLine_frame _ _ _) ?_ rfl
                exact Frame.refl _ _
          · refine Frame.ite ?_ ?_
            · refine Frame.step (setMerge_frame _ _ _) ?_ rfl
              split
              · refine Frame.step (chargeLine_frame _ _ _ _) ?_ rfl
                refine Frame.step (modLine_frame _ _ _) ?_ rfl
                exact Frame.refl _ _
              · refine Frame.step (modLine_frame _ _ _) ?_ rfl
                exact Frame.refl _ _
            · refine Frame.step (setMerge_frame _ _ _) ?_ rfl
              split
              · refine Frame.step (chargeLine_frame _ _ _ _) ?_ rfl
                refine Frame.step (modLine_frame _ _ _) ?_ rfl
                exact Frame.refl _ _
              · refine Frame.step (modLine_frame _ _ _) ?_ rfl
                exact Frame.refl _ _
        · refine Frame.ite ?_ ?_
          · refine Frame.step (bump_frame _ _ _ _) ?_ rfl
            refine Frame.ite ?_ ?_
            · refine Frame.step (setMerge_frame _ _ _) ?_ rfl
              split
              · refine Frame.step (chargeLine_frame _ _ _ _) ?_ rfl
                refine Frame.step (modLine_frame _ _ _) ?_ rfl
                exact Frame.refl _ _
              · refine Frame.step (modLine_frame _ _ _) ?_ rfl
                exact Frame.refl _ _
            · refine Frame.step (setMerge_frame _ _ _) ?_ rfl
              split
              · refine Frame.step (chargeLine_frame _ _ _ _) ?_ rfl
                refine Frame.step (modLine_frame _ _ _) ?_ rfl
                exact Frame.refl _ _
              · refine Frame.step (modLine_frame _ _ _) ?_ rfl
                exact Frame.refl _ _
          · refine Frame.ite ?_ ?_
            · refine Frame.step (setMerge_frame _ _ _) ?_ rfl
              split
              · refine Frame.step (chargeLine_frame _ _ _ _) ?_ rfl
                refine Frame.step (modLine_frame _ _ _) ?_ rfl
                exact Frame.refl _ _
              · refine Frame.step (modLine_frame _ _ _) ?_ rfl
                exact Frame.refl _ _
            · refine Frame.step (setMerge_frame _ _ _) ?_ rfl
              split
              · refine Frame.step (chargeLine_frame _ _ _ _) ?_ rfl
                refine Frame.step (modLine_frame _ _ _) ?_ rfl
                exact Frame.refl _ _
              · refine Frame.step (modLine_frame _ _ _) ?_ rfl
                exact Frame.refl _ _
      · refine Frame.ite ?_ ?_
        · refine Frame.step (deadenFill_frame _ _ _ _) ?_ rfl
          refine Frame.ite ?_ ?_
          · refine Frame.step (bump_frame _ _ _ _) ?_ rfl
            refine Frame.ite ?_ ?_
            · refine Frame.step (setMerge_frame _ _ _) ?_ rfl
              split
              · refine Frame.step (chargeLine_frame _ _ _ _) ?_ rfl
                refine Frame.step (modLine_frame _ _ _) ?_ rfl
                exact Frame.refl _ _
              · refine Frame.step (modLine_frame _ _ _) ?_ rfl
                exact Frame.refl _ _
            · refine Frame.step (setMerge_frame _ _ _) ?_ rfl
              split
              · refine Frame.step (chargeLine_frame _ _ _ _) ?_ rfl
                refine Frame.step (modLine_frame _ _ _) ?_ rfl
                exact Frame.refl _ _
              · refine Frame.step (modLine_frame _ _ _) ?_ rfl
                exact Frame.refl _ _
          · refine Frame.ite ?_ ?_
            · refine Frame.step (setMerge_frame _ _ _) ?_ rfl
              split
              · refine Frame.step (chargeLine_frame _ _ _ _) ?_ rfl
                refine Frame.step (modLine_frame _ _ _) ?_ rfl
                exact Frame.refl _ _
              · refine Frame.step (modLine_frame _ _ _) ?_ rfl
                exact Frame.refl _ _
            · refine Frame.step (setMerge_frame _ _ _) ?_ rfl
              split
              · refine Frame.step (chargeLine_frame _ _ _ _) ?_ rfl
                refine Frame.step (modLine_frame _ _ _) ?_ rfl
                exact Frame.refl _ _
              · refine Frame.step (modLine_frame _ _ _) ?_ rfl
                exact Frame.refl _ _
        · refine Frame.ite ?_ ?_
          · refine Frame.step (bump_frame _ _ _ _) ?_ rfl
            refine Frame.ite ?_ ?_
            · refine Frame.step (setMerge_frame _ _ _) ?_ rfl
              split
              · refine Frame.step (chargeLine_frame _ _ _ _) ?_ rfl
                refine Frame.step (modLine_frame _ _ _) ?_ rfl
                exact Frame.refl _ _
              · refine Frame.step (modLine_frame _ _ _) ?_ rfl
                exact Frame.refl _ _
            · refine Frame.step (setMerge_frame _ _ _) ?_ rfl
              split
              · refine Frame.step (chargeLine_frame _ _ _ _) ?_ rfl
                refine Frame.step (modLine_frame _ _ _) ?_ rfl
                exact Frame.refl _ _
              · refine Frame.step (modLine_frame _ _ _) ?_ rfl
                exact Frame.refl _ _
          · refine Frame.ite ?_ ?_
            · refine Frame.step (setMerge_frame _ _ _) ?_ rfl
              split
              · refine Frame.step (chargeLine_frame _ _ _ _) ?_ rfl
                refine Frame.step (modLine_frame _ _ _) ?_ rfl
                exact Frame.refl _ _
              · refine Frame.step (modLine_frame _ _ _) ?_ rfl
                exact Frame.refl _ _
            · refine Frame.step (setMerge_frame _ _ _) ?_ rfl
              split
              · refine Frame.step (chargeLine_frame _ _ _ _) ?_ rfl
                refine Frame.step (modLine_frame _ _ _) ?_ rfl
                exact Frame.refl _ _
              · refine Frame.step (modLine_frame _ _ _) ?_ rfl
                exact Frame.refl _ _

/-- A write taken in keeps the frame. -/

def FrameT (U : List UnitName) (s : State) (e : TakeIn) : Prop := ∀ t b, e = .done t b → Frame U s t

theorem FrameT.done {U : List UnitName} {s t : State} {b : Bool} (h : Frame U s t) : FrameT U s (.done t b) := by
  intro t' b' e; cases e; exact h

theorem FrameT.held {U : List UnitName} {s : State} {n : Nat} : FrameT U s (.held n) := by
  intro t' b' e; cases e

theorem FrameT.ite {U : List UnitName} {s : State} {a b : TakeIn} {c : Prop} [Decidable c]
    (ha : FrameT U s a) (hb : FrameT U s b) : FrameT U s (if c then a else b) := by
  split
  · exact ha
  · exact hb

theorem Frame.ofT {U V : List UnitName} {s x y : State} {b : Bool} {p : TakeIn}
    (hf : FrameT U x p) (e : p = .done y b) (h : Frame V s x) (hs : unitsIn U V = true) : Frame V s y :=
  Frame.step (hf _ _ e) h hs

theorem takeIn_frame (s : State) (w : WriteReq) : FrameT [.reserve, .easel, .palette, .perf, .stats] s (takeIn s w) := by
  unfold takeIn
  dsimp only
  split
  · refine FrameT.ite ?_ ?_
    · refine FrameT.done ?_
      refine Frame.ite ?_ ?_
      · refine Frame.step (chargeLine_frame _ _ _ _) ?_ rfl
        exact Frame.refl _ _
      · exact Frame.refl _ _
    · refine FrameT.ite ?_ ?_
      · exact FrameT.held
      · refine FrameT.ite ?_ ?_
        · exact FrameT.held
        · refine FrameT.ite ?_ ?_
          · refine FrameT.done ?_
            refine Frame.step (putWrite_frame _ _ _ _ _) ?_ rfl
            exact Frame.refl _ _
          · refine FrameT.ite ?_ ?_
            · refine FrameT.ite ?_ ?_
              · refine FrameT.done ?_
                refine Frame.step (putWrite_frame _ _ _ _ _) ?_ rfl
                exact Frame.refl _ _
              · exact FrameT.held
            · refine FrameT.ite ?_ ?_
              · refine FrameT.done ?_
                refine Frame.step (putWrite_frame _ _ _ _ _) ?_ rfl
                exact Frame.refl _ _
              · exact FrameT.held
  · refine FrameT.ite ?_ ?_
    · exact FrameT.held
    · refine FrameT.ite ?_ ?_
      · exact FrameT.held
      · refine FrameT.ite ?_ ?_
        · exact FrameT.held
        · split
          · exact FrameT.held
          · refine FrameT.done ?_
            refine Frame.step (putWrite_frame _ _ _ _ _) ?_ rfl
            exact Frame.refl _ _

theorem bankWrite_frame (s : State) (w : WriteReq) :
    Frame [.mgmt, .folio, .ledger, .reserve, .ports, .groups, .easel, .palette, .directory, .queues, .barrow, .perf, .stats, .out] s (bankWrite s w) := by
  unfold bankWrite
  refine Frame.ite ?_ ?_
  · refine Frame.step (holdWrite_frame _ _ _) ?_ rfl
    exact Frame.refl _ _
  · dsimp only
    split
    · refine Frame.step (afterTakeIn_frame _ _ _) ?_ rfl
      refine Frame.ofT (takeIn_frame _ _) (by assumption) ?_ rfl
      exact Frame.refl _ _
    · refine Frame.upd_easel ?_ rfl
      exact Frame.refl _ _
    · refine Frame.step (holdWrite_frame _ _ _) ?_ rfl
      exact Frame.refl _ _

theorem barrowClear_frame (s : State) :
    Frame [.stats] s (barrowClear s) := by
  unfold barrowClear
  refine Frame.step (clearStatsAt_frame _ _ _ _ _) ?_ rfl
  refine Frame.step (clearStats_frame _ _ _ _) ?_ rfl
  exact Frame.refl _ _

theorem hostBeatsFail_frame (s : State) (c : Nat) :
    Frame [.mgmt, .folio, .ledger, .barrow, .stats, .out] s (hostBeatsFail s c) := by
  unfold hostBeatsFail
  dsimp only
  refine Frame.step (settleChannel_frame _ _) ?_ rfl
  refine Frame.step (modBarrow_frame _ _ _) ?_ rfl
  exact Frame.refl _ _

theorem barrowLinkDown_frame (s : State) (p : Nat) :
    Frame [.mgmt, .folio, .ledger, .barrow, .stats, .out] s (barrowLinkDown s p) := by
  unfold barrowLinkDown
  refine Frame.foldl ?_ ?_
  · intro _ _
    refine Frame.ite ?_ ?_
    · refine Frame.step (hostBeatsFail_frame _ _) ?_ rfl
      exact Frame.refl _ _
    · exact Frame.refl _ _
  · exact Frame.refl _ _

theorem nextOrder_frame (s : State) :
    Frame [.easel] s (nextOrder s).1 := by
  unfold nextOrder
  dsimp only
  refine Frame.upd_easel ?_ rfl
  exact Frame.refl _ _

theorem performRead_frame (s : State) (w : ReadWait) :
    Frame [.mgmt, .folio, .ledger, .ports, .easel, .palette, .directory, .queues, .barrow, .perf, .stats, .out] s (performRead s w) := by
  unfold performRead
  dsimp only
  refine Frame.step (bankRead_frame _ _) ?_ rfl
  refine Frame.step (nextOrder_frame _) ?_ rfl
  exact Frame.refl _ _

theorem rerunReads_frame (before : State) (s : State) (line : Nat) :
    Frame [.mgmt, .folio, .ledger, .ports, .easel, .palette, .directory, .queues, .barrow, .perf, .stats, .out] s (rerunReads before s line) := by
  unfold rerunReads
  dsimp only
  refine Frame.foldl ?_ ?_
  · intro _ _
    refine Frame.step (bankRead_frame _ _) ?_ rfl
    exact Frame.refl _ _
  · refine Frame.upd_easel ?_ rfl
    exact Frame.refl _ _

theorem retryMerges_frame (s : State) :
    Frame [.mgmt, .folio, .ledger, .reserve, .ports, .groups, .easel, .palette, .directory, .queues, .barrow, .perf, .stats, .out] s (retryMerges s) := by
  unfold retryMerges
  refine Frame.ite ?_ ?_
  · exact Frame.refl _ _
  · refine Frame.foldl ?_ ?_
    · intro _ _
      refine Frame.step (rerunReads_frame _ _ _) ?_ rfl
      refine Frame.step (bankWrite_frame _ _) ?_ rfl
      exact Frame.refl _ _
    · refine Frame.upd_easel ?_ rfl
      exact Frame.refl _ _

theorem performWrite_frame (s : State) (w : WriteReq) :
    Frame [.mgmt, .folio, .ledger, .reserve, .ports, .groups, .easel, .palette, .directory, .queues, .barrow, .perf, .stats, .out] s (performWrite s w) := by
  unfold performWrite
  refine Frame.ite ?_ ?_
  · refine Frame.step (deliverAck_frame _ _) ?_ rfl
    exact Frame.refl _ _
  · dsimp only
    refine Frame.step (retryMerges_frame _) ?_ rfl
    refine Frame.step (bankWrite_frame _ _) ?_ rfl
    refine Frame.step (nextOrder_frame _) ?_ rfl
    exact Frame.refl _ _

theorem modRound_frame (s : State) (line : Nat) (f : SnoopRound → SnoopRound) :
    Frame [.directory] s (modRound s line f) := by
  unfold modRound
  refine Frame.upd_directory ?_ rfl
  exact Frame.refl _ _

theorem prefetch_frame (s : State) (line : Nat) :
    Frame [.easel, .palette, .perf, .stats] s (prefetch s line) := by
  unfold prefetch
  refine Frame.ite ?_ ?_
  · exact Frame.refl _ _
  · dsimp only
    split
    · refine Frame.step (issueRead_frame _ _ _ _ _) ?_ rfl
      refine Frame.step (modLine_frame _ _ _) ?_ rfl
      refine Frame.step (lookupRemap_frame _ _) ?_ rfl
      refine Frame.step (lookupPath_frame _ _) ?_ rfl
      exact Frame.refl _ _
    · exact Frame.refl _ _

theorem writeBack_frame (s : State) (r : SnoopRound) (w : WriteReq) :
    Frame [.mgmt, .folio, .ledger, .reserve, .ports, .groups, .easel, .palette, .directory, .queues, .barrow, .perf, .stats, .out] s (writeBack s r w) := by
  unfold writeBack
  dsimp only
  refine Frame.ite ?_ ?_
  · refine Frame.step (deliverAck_frame _ _) ?_ rfl
    refine Frame.step (bump_frame _ _ _ _) ?_ rfl
    exact Frame.refl _ _
  · refine Frame.step (retryMerges_frame _) ?_ rfl
    refine Frame.step (bankWrite_frame _ _) ?_ rfl
    refine Frame.step (bump_frame _ _ _ _) ?_ rfl
    exact Frame.refl _ _

theorem sendRound_frame (s : State) (r : SnoopRound) (kind : Nat) :
    Frame [.directory, .stats, .out] s (sendRound s r kind) := by
  unfold sendRound
  dsimp only
  refine Frame.foldl ?_ ?_
  · intro _ _
    refine Frame.step (emit_frame _ _) ?_ rfl
    refine Frame.step (bump_frame _ _ _ _) ?_ rfl
    exact Frame.refl _ _
  · refine Frame.upd_directory ?_ rfl
    exact Frame.refl _ _

theorem putEntry_frame (s : State) (e : Nat) (tag : Nat) (presence : Nat) (exclusive : Bool) :
    Frame [.directory, .stats] s (putEntry s e tag presence exclusive) := by
  unfold putEntry
  refine Frame.ite ?_ ?_
  · refine Frame.step (modEntry_frame _ _ _) ?_ rfl
    exact Frame.refl _ _
  · dsimp only
    refine Frame.step (maxStat_frame _ _ _ _) ?_ rfl
    refine Frame.step (modEntry_frame _ _ _) ?_ rfl
    refine Frame.upd_directory ?_ rfl
    exact Frame.refl _ _

theorem dirApply_frame (s : State) (line : Nat) (p : Nat) (write : Bool) (mv : Nat) :
    Frame [.directory, .stats] s (dirApply s line p write mv) := by
  unfold dirApply
  dsimp only
  split
  · refine Frame.ite ?_ ?_
    · refine Frame.ite ?_ ?_
      · refine Frame.step (putEntry_frame _ _ _ _ _) ?_ rfl
        exact Frame.refl _ _
      · refine Frame.step (putEntry_frame _ _ _ _ _) ?_ rfl
        exact Frame.refl _ _
    · refine Frame.ite ?_ ?_
      · refine Frame.step (putEntry_frame _ _ _ _ _) ?_ rfl
        exact Frame.refl _ _
      · refine Frame.ite ?_ ?_
        · refine Frame.step (putEntry_frame _ _ _ _ _) ?_ rfl
          exact Frame.refl _ _
        · refine Frame.step (putEntry_frame _ _ _ _ _) ?_ rfl
          exact Frame.refl _ _
  · refine Frame.ite ?_ ?_
    · exact Frame.refl _ _
    · split
      · refine Frame.step (putEntry_frame _ _ _ _ _) ?_ rfl
        exact Frame.refl _ _
      · refine Frame.step (bump_frame _ _ _ _) ?_ rfl
        exact Frame.refl _ _

theorem lineRequest_frame (s : State) (q : LineRequest) :
    Frame [.mgmt, .folio, .ledger, .reserve, .ports, .groups, .easel, .palette, .directory, .queues, .barrow, .perf, .stats, .out] s (lineRequest s q) := by
  unfold lineRequest
  dsimp only
  refine Frame.ite ?_ ?_
  · split
    · refine Frame.step (performRead_frame _ _) ?_ rfl
      exact Frame.refl _ _
    · refine Frame.step (performWrite_frame _ _) ?_ rfl
      exact Frame.refl _ _
  · split
    · refine Frame.ite ?_ ?_
      · refine Frame.step (writeBack_frame _ _ _) ?_ rfl
        refine Frame.step (perfCount_frame _ _ _ _) ?_ rfl
        exact Frame.refl _ _
      · refine Frame.step (modRound_frame _ _ _) ?_ rfl
        refine Frame.step (perfCount_frame _ _ _ _) ?_ rfl
        exact Frame.refl _ _
    · refine Frame.step (modRound_frame _ _ _) ?_ rfl
      refine Frame.step (perfCount_frame _ _ _ _) ?_ rfl
      exact Frame.refl _ _
    · refine Frame.ite ?_ ?_
      · refine Frame.step (performRead_frame _ _) ?_ rfl
        refine Frame.step (dirApply_frame _ _ _ _ _) ?_ rfl
        refine Frame.step (perfCount_frame _ _ _ _) ?_ rfl
        exact Frame.refl _ _
      · refine Frame.step (prefetch_frame _ _) ?_ rfl
        refine Frame.step (sendRound_frame _ _ _) ?_ rfl
        refine Frame.ite ?_ ?_
        · refine Frame.step (perfCount_frame _ _ _ _) ?_ rfl
          refine Frame.step (nextOrder_frame _) ?_ rfl
          refine Frame.step (perfCount_frame _ _ _ _) ?_ rfl
          exact Frame.refl _ _
        · refine Frame.step (nextOrder_frame _) ?_ rfl
          refine Frame.step (perfCount_frame _ _ _ _) ?_ rfl
          exact Frame.refl _ _
    · refine Frame.ite ?_ ?_
      · refine Frame.step (performWrite_frame _ _) ?_ rfl
        refine Frame.step (dirApply_frame _ _ _ _ _) ?_ rfl
        refine Frame.step (perfCount_frame _ _ _ _) ?_ rfl
        exact Frame.refl _ _
      · refine Frame.step (performWrite_frame _ _) ?_ rfl
        refine Frame.step (sendRound_frame _ _ _) ?_ rfl
        refine Frame.ite ?_ ?_
        · refine Frame.step (perfCount_frame _ _ _ _) ?_ rfl
          refine Frame.step (nextOrder_frame _) ?_ rfl
          refine Frame.step (perfCount_frame _ _ _ _) ?_ rfl
          exact Frame.refl _ _
        · refine Frame.step (nextOrder_frame _) ?_ rfl
          refine Frame.step (perfCount_frame _ _ _ _) ?_ rfl
          exact Frame.refl _ _

theorem barrowWrite_frame (s : State) (c : Nat) (serial : Nat) (beat : Nat) (line : Nat) (data : Line) (poison : Bool) :
    Frame [.mgmt, .folio, .ledger, .reserve, .ports, .groups, .easel, .palette, .directory, .queues, .barrow, .perf, .stats, .out] s (barrowWrite s c serial beat line data poison) := by
  unfold barrowWrite
  dsimp only
  refine Frame.step (lineRequest_frame _ _) ?_ rfl
  refine Frame.step (modLoad_frame _ _ _ _) ?_ rfl
  exact Frame.refl _ _

theorem loadDescriptor_frame (s : State) (c : Nat) (i : Nat) :
    Frame [.mgmt, .folio, .ledger, .barrow, .stats, .out] s (loadDescriptor s c i) := by
  unfold loadDescriptor
  dsimp only
  refine Frame.ite ?_ ?_
  · refine Frame.step (modBarrow_frame _ _ _) ?_ rfl
    exact Frame.refl _ _
  · refine Frame.step (raise_frame _ _ _) ?_ rfl
    refine Frame.step (modBarrow_frame _ _ _) ?_ rfl
    exact Frame.refl _ _

theorem handOver_frame (s : State) (c : Nat) :
    Frame [.mgmt, .folio, .ledger, .barrow, .stats, .out] s (handOver s c) := by
  unfold handOver
  dsimp only
  refine Frame.ite ?_ ?_
  · exact Frame.refl _ _
  · split
    · refine Frame.step (loadDescriptor_frame _ _ _) ?_ rfl
      refine Frame.step (modBarrow_frame _ _ _) ?_ rfl
      exact Frame.refl _ _
    · split
      · refine Frame.ite ?_ ?_
        · exact Frame.refl _ _
        · refine Frame.step (loadDescriptor_frame _ _ _) ?_ rfl
          exact Frame.refl _ _
      · exact Frame.refl _ _

theorem beatClose_frame (s : State) (c : Nat) (last : Bool) :
    Frame [.mgmt, .folio, .ledger, .barrow, .stats, .out] s (beatClose s c last) := by
  unfold beatClose
  refine Frame.step (settleChannel_frame _ _) ?_ rfl
  refine Frame.ite ?_ ?_
  · refine Frame.step (handOver_frame _ _) ?_ rfl
    exact Frame.refl _ _
  · exact Frame.refl _ _

theorem beatError_frame (s : State) (c : Nat) (serial : Nat) (beat : Nat) (flag : Nat) :
    Frame [.barrow] s (beatError s c serial beat flag) := by
  unfold beatError
  refine Frame.step (modLoad_frame _ _ _ _) ?_ rfl
  exact Frame.refl _ _

theorem beatStep_frame (s : State) (c : Nat) (serial : Nat) (b : Nat) (reading : Bool) :
    Frame [.barrow, .perf] s (beatStep s c serial b reading) := by
  unfold beatStep
  refine Frame.step (perfCount_frame _ _ _ _) ?_ rfl
  refine Frame.step (modLoad_frame _ _ _ _) ?_ rfl
  exact Frame.refl _ _

theorem beginFinishing_frame (s : State) (r : Nat) :
    Frame [.groups, .easel, .crypt, .stats] s (beginFinishing s r) := by
  unfold beginFinishing
  dsimp only
  refine Frame.foldl ?_ ?_
  · intro _ _
    refine Frame.step (destageSelect_frame _ _ _ _) ?_ rfl
    exact Frame.refl _ _
  · refine Frame.upd_crypt ?_ rfl
    exact Frame.refl _ _

theorem modRead_frame (s : State) (n : Nat) (f : ReadRec → ReadRec) :
    Frame [.easel] s (modRead s n f) := by
  unfold modRead
  refine Frame.upd_easel ?_ rfl
  exact Frame.refl _ _

theorem beginRead_frame (s : State) (n : Nat) (pl : Place) :
    Frame [.easel] s (beginRead s n pl) := by
  unfold beginRead
  refine Frame.step (modRead_frame _ _ _) ?_ rfl
  exact Frame.refl _ _

theorem declineRetirement_frame (s : State) (g : Nat) (p : Nat) (slot : Nat) (c : Nat) :
    Frame [.mgmt, .folio, .ledger, .stats, .out] s (declineRetirement s g p slot c) := by
  unfold declineRetirement
  refine Frame.step (raise_frame _ _ _) ?_ rfl
  exact Frame.refl _ _

theorem takeFree_frame (s : State) (g : Nat) : ∀ q, takeFree s g = some q → Frame [.groups] s q.2 := by
  unfold takeFree
  intro q h
  split at h
  · cases h
  · cases h
    exact Frame.step (modGroup_frame _ _ _) (Frame.refl _ _) rfl

theorem moveBegin_frame (s : State) (g : Nat) (kind : Nat) (x : Nat) (d : Nat) (partner : Nat) :
    Frame [.groups, .queues, .perf, .stats, .draws] s (moveBegin s g kind x d partner) := by
  unfold moveBegin
  dsimp only
  refine Frame.step (jqPush_frame _ _ _) ?_ rfl
  refine Frame.step (modGroup_frame _ _ _) ?_ rfl
  refine Frame.step (modRegion_frame _ _ _ _) ?_ rfl
  refine Frame.step (afterDraw_frame _) ?_ rfl
  exact Frame.refl _ _

theorem beginRetirement_frame (s : State) (g : Nat) :
    Frame [.mgmt, .folio, .ledger, .groups, .queues, .perf, .stats, .draws, .out] s (beginRetirement s g) := by
  unfold beginRetirement
  dsimp only
  split
  · exact Frame.refl _ _
  · refine Frame.ite ?_ ?_
    · refine Frame.step (declineRetirement_frame _ _ _ _ _) ?_ rfl
      refine Frame.step (modGroup_frame _ _ _) ?_ rfl
      exact Frame.refl _ _
    · split
      · refine Frame.step (moveBegin_frame _ _ _ _ _ _) ?_ rfl
        refine Frame.ofSomeSnd (takeFree_frame _ _) (by assumption) ?_ rfl
        refine Frame.step (modGroup_frame _ _ _) ?_ rfl
        exact Frame.refl _ _
      · refine Frame.step (modGroup_frame _ _ _) ?_ rfl
        exact Frame.refl _ _

theorem bindTo_frame (s : State) (n : Nat) (via : Via) :
    Frame [.mgmt] s (bindTo s n via) := by
  unfold bindTo
  refine Frame.step (modSession_frame _ _ _) ?_ rfl
  exact Frame.refl _ _

theorem bleedOver_frame (s : State) (v : Nat) :
    Frame [.mgmt, .folio, .ledger, .reserve, .stats, .out] s (bleedOver s v) := by
  unfold bleedOver
  refine Frame.step (raise_frame _ _ _) ?_ rfl
  refine Frame.upd_reserve ?_ rfl
  exact Frame.refl _ _

theorem bookGrant_frame (s : State) (g : Nat) (n : Nat) (r : BusRequest) :
    Frame [.groups, .stats] s (bookGrant s g n r) := by
  unfold bookGrant
  dsimp only
  refine Frame.ite ?_ ?_
  · refine Frame.step (modArb_frame _ _ _) ?_ rfl
    refine Frame.step (bump_frame _ _ _ _) ?_ rfl
    refine Frame.step (modArb_frame _ _ _) ?_ rfl
    refine Frame.step (bump_frame _ _ _ _) ?_ rfl
    exact Frame.refl _ _
  · split
    · refine Frame.step (modArb_frame _ _ _) ?_ rfl
      refine Frame.step (bump_frame _ _ _ _) ?_ rfl
      refine Frame.step (bump_frame _ _ _ _) ?_ rfl
      refine Frame.step (modArb_frame _ _ _) ?_ rfl
      refine Frame.step (bump_frame _ _ _ _) ?_ rfl
      exact Frame.refl _ _
    · refine Frame.step (modArb_frame _ _ _) ?_ rfl
      refine Frame.step (modArb_frame _ _ _) ?_ rfl
      refine Frame.step (bump_frame _ _ _ _) ?_ rfl
      exact Frame.refl _ _

theorem busRoll_frame (s : State) :
    Frame [.path] s (busRoll s) := by
  unfold busRoll
  dsimp only
  refine Frame.ite ?_ ?_
  · exact Frame.refl _ _
  · refine Frame.upd_path ?_ rfl
    exact Frame.refl _ _

theorem busUse_frame (s : State) (n : Nat) :
    Frame [.path] s (busUse s n) := by
  unfold busUse
  dsimp only
  refine Frame.upd_path ?_ rfl
  refine Frame.step (busRoll_frame _) ?_ rfl
  exact Frame.refl _ _

theorem buttonEvent_frame (s : State) (input : Nat) (action : Nat) :
    Frame [.mgmt, .folio, .ledger, .stats, .out] s (buttonEvent s input action) := by
  unfold buttonEvent
  refine Frame.step (raise_frame _ _ _) ?_ rfl
  refine Frame.step (tallyAdd_frame _ _) ?_ rfl
  exact Frame.refl _ _

theorem spendSeries_frame (s : State) (t : TileId) (retries : Nat) :
    Frame [.easel, .palette] s (spendSeries s t retries) := by
  unfold spendSeries
  dsimp only
  refine Frame.foldl ?_ ?_
  · intro _ _
    split
    · split
      · refine Frame.ite ?_ ?_
        · refine Frame.step (setMiss_frame _ _ _) ?_ rfl
          exact Frame.refl _ _
        · exact Frame.refl _ _
      · exact Frame.refl _ _
    · exact Frame.refl _ _
  · refine Frame.foldl ?_ ?_
    · intro _ _
      refine Frame.step (modRead_frame _ _ _) ?_ rfl
      exact Frame.refl _ _
    · exact Frame.refl _ _

theorem markedFill_frame (s : State) (n : Nat) (m : MissReg) :
    Frame [.palette, .perf, .stats] s (markedFill s n m) := by
  unfold markedFill
  dsimp only
  refine Frame.foldl ?_ ?_
  · intro _ _
    refine Frame.step (palLookup_frame _ _ _) ?_ rfl
    exact Frame.refl _ _
  · refine Frame.step (modWay_frame _ _ _) ?_ rfl
    refine Frame.step (bump_frame _ _ _ _) ?_ rfl
    refine Frame.step (setMiss_frame _ _ _) ?_ rfl
    exact Frame.refl _ _

theorem palInstallClean_frame (s : State) (w : Nat) (t : TileId) (data : Line) (cls : Nat) :
    Frame [.palette] s (palInstallClean s w t data cls) := by
  unfold palInstallClean
  refine Frame.step (palTouch_frame _ _) ?_ rfl
  refine Frame.step (modWay_frame _ _ _) ?_ rfl
  exact Frame.refl _ _

theorem settleFill_frame (s : State) (n : Nat) (m : MissReg) (content : List Byte) :
    Frame [.sys, .mgmt, .folio, .ledger, .reserve, .channels, .ports, .groups, .easel, .palette, .crypt, .queues, .perf, .path, .stats, .draws, .out] s (settleFill s n m content) := by
  unfold settleFill
  dsimp only
  refine Frame.ite ?_ ?_
  · refine Frame.step (markedFill_frame _ _ _) ?_ rfl
    exact Frame.refl _ _
  · split
    · refine Frame.step (palInstallClean_frame _ _ _ _ _) ?_ rfl
      refine Frame.step (spendSeries_frame _ _ _) ?_ rfl
      refine Frame.step (setMiss_frame _ _ _) ?_ rfl
      exact Frame.refl _ _
    · split
      · refine Frame.step (palLookup_frame _ _ _) ?_ rfl
        refine Frame.step (setMiss_frame _ _ _) ?_ rfl
        exact Frame.refl _ _
      · refine Frame.ite ?_ ?_
        · refine Frame.step (palInstallClean_frame _ _ _ _ _) ?_ rfl
          refine Frame.step (setMiss_frame _ _ _) ?_ rfl
          exact Frame.refl _ _
        · refine Frame.step (metaMacFailed_frame _ _) ?_ rfl
          refine Frame.step (setMiss_frame _ _ _) ?_ rfl
          exact Frame.refl _ _

theorem cascade_frame (a1 : Nat) (a2 : State) :
    Frame [.sys, .mgmt, .folio, .ledger, .reserve, .channels, .ports, .groups, .easel, .palette, .crypt, .queues, .perf, .path, .stats, .draws, .out] a2 (cascade a1 a2) := by
  induction a1 generalizing a2 with
  | zero =>
    unfold cascade
    exact Frame.refl _ _
  | succ n ih =>
    unfold cascade
    dsimp only
    refine Frame.ite ?_ ?_
    · exact Frame.refl _ _
    · refine Frame.step (ih _) ?_ rfl
      refine Frame.foldl ?_ ?_
      · intro _ _
        refine Frame.step (settleFill_frame _ _ _ _) ?_ rfl
        exact Frame.refl _ _
      · exact Frame.refl _ _

theorem causeClear_frame (s : State) (c : Nat) (mask : Nat) :
    Frame [.barrow] s (causeClear s c mask) := by
  unfold causeClear
  refine Frame.step (modBarrow_frame _ _ _) ?_ rfl
  exact Frame.refl _ _

theorem channelAbort_frame (s : State) (c : Nat) :
    FrameE [.mgmt, .folio, .ledger, .barrow, .stats, .out] s (channelAbort s c) := by
  unfold channelAbort
  refine FrameE.ite ?_ ?_
  · exact FrameE.error
  · refine FrameE.ok ?_
    refine Frame.step (channelStop_frame _ _) ?_ rfl
    exact Frame.refl _ _

theorem channelClear_frame (s : State) :
    Frame [.stats] s (channelClear s) := by
  unfold channelClear
  refine Frame.step (clearStatsAt_frame _ _ _ _ _) ?_ rfl
  exact Frame.refl _ _

theorem channelError_frame (s : State) (ch : Nat) :
    Frame [.channels] s (channelError s ch) := by
  unfold channelError
  refine Frame.step (modChannel_frame _ _ _) ?_ rfl
  exact Frame.refl _ _

theorem channelStart_frame (s : State) (c : Nat) :
    FrameE [.mgmt, .folio, .ledger, .barrow, .stats, .out] s (channelStart s c) := by
  unfold channelStart
  dsimp only
  refine FrameE.ite ?_ ?_
  · exact FrameE.error
  · refine FrameE.ite ?_ ?_
    · exact FrameE.error
    · refine FrameE.ok ?_
      refine Frame.step (settleChannel_frame _ _) ?_ rfl
      refine Frame.step (handOver_frame _ _) ?_ rfl
      refine Frame.step (modBarrow_frame _ _ _) ?_ rfl
      exact Frame.refl _ _

theorem channelTemperature_frame (s : State) (ch : Nat) (answer : Option Byte) :
    Frame [.mgmt, .folio, .ledger, .channels, .stats, .out] s (channelTemperature s ch answer) := by
  unfold channelTemperature
  refine Frame.ite ?_ ?_
  · exact Frame.refl _ _
  · dsimp only
    split
    · split
      · refine Frame.ite ?_ ?_
        · refine Frame.step (modChannel_frame _ _ _) ?_ rfl
          refine Frame.step (modChannel_frame _ _ _) ?_ rfl
          exact Frame.refl _ _
        · refine Frame.step (modChannel_frame _ _ _) ?_ rfl
          exact Frame.refl _ _
      · refine Frame.step (modChannel_frame _ _ _) ?_ rfl
        refine Frame.step (modChannel_frame _ _ _) ?_ rfl
        exact Frame.refl _ _
    · refine Frame.ite ?_ ?_
      · refine Frame.step (raise_frame _ _ _) ?_ rfl
        refine Frame.step (modChannel_frame _ _ _) ?_ rfl
        exact Frame.refl _ _
      · refine Frame.step (modChannel_frame _ _ _) ?_ rfl
        exact Frame.refl _ _

theorem charge_frame (s : State) :
    Frame [.reserve] s (charge s) := by
  unfold charge
  refine Frame.ite ?_ ?_
  · refine Frame.upd_reserve ?_ rfl
    exact Frame.refl _ _
  · exact Frame.refl _ _

theorem resumeBehind_frame (s : State) (qs : List LineRequest) :
    Frame [.mgmt, .folio, .ledger, .reserve, .ports, .groups, .easel, .palette, .directory, .queues, .barrow, .perf, .stats, .out] s (resumeBehind s qs) := by
  unfold resumeBehind
  refine Frame.foldl ?_ ?_
  · intro _ _
    refine Frame.step (lineRequest_frame _ _) ?_ rfl
    exact Frame.refl _ _
  · exact Frame.refl _ _

theorem endRound_frame (s : State) (r : SnoopRound) :
    Frame [.mgmt, .folio, .ledger, .reserve, .ports, .groups, .easel, .palette, .directory, .queues, .barrow, .perf, .stats, .out] s (endRound s r) := by
  unfold endRound
  dsimp only
  refine Frame.step (resumeBehind_frame _ _) ?_ rfl
  split
  · split
    · refine Frame.step (bump_frame _ _ _ _) ?_ rfl
      refine Frame.step (modEntry_frame _ _ _) ?_ rfl
      refine Frame.upd_directory ?_ rfl
      exact Frame.refl _ _
    · refine Frame.step (bump_frame _ _ _ _) ?_ rfl
      refine Frame.upd_directory ?_ rfl
      exact Frame.refl _ _
  · refine Frame.step (performRead_frame _ _) ?_ rfl
    refine Frame.step (dirApply_frame _ _ _ _ _) ?_ rfl
    refine Frame.step (stamp_frame _ _ _) ?_ rfl
    refine Frame.upd_directory ?_ rfl
    exact Frame.refl _ _
  · refine Frame.step (settleAcks_frame _) ?_ rfl
    refine Frame.upd_easel ?_ rfl
    refine Frame.foldl ?_ ?_
    · intro _ _
      refine Frame.step (modPort_frame _ _ _) ?_ rfl
      exact Frame.refl _ _
    · refine Frame.step (dirApply_frame _ _ _ _ _) ?_ rfl
      refine Frame.step (stamp_frame _ _ _) ?_ rfl
      refine Frame.upd_directory ?_ rfl
      exact Frame.refl _ _

theorem holderAnswer_frame (s : State) (line : Nat) (q : Nat) (answer : Nat) :
    Frame [.directory, .stats] s (holderAnswer s line q answer) := by
  unfold holderAnswer
  dsimp only
  split
  · exact Frame.refl _ _
  · refine Frame.ite ?_ ?_
    · refine Frame.ite ?_ ?_
      · refine Frame.step (putEntry_frame _ _ _ _ _) ?_ rfl
        exact Frame.refl _ _
      · refine Frame.ite ?_ ?_
        · refine Frame.step (putEntry_frame _ _ _ _ _) ?_ rfl
          exact Frame.refl _ _
        · exact Frame.refl _ _
    · exact Frame.refl _ _

theorem snoopAnswer_frame (s : State) (line : Nat) (q : Nat) (answer : Nat) :
    Frame [.mgmt, .folio, .ledger, .reserve, .ports, .groups, .easel, .palette, .directory, .queues, .barrow, .perf, .stats, .out] s (snoopAnswer s line q answer) := by
  unfold snoopAnswer
  dsimp only
  split
  · exact Frame.refl _ _
  · refine Frame.ite ?_ ?_
    · refine Frame.ite ?_ ?_
      · refine Frame.step (endRound_frame _ _) ?_ rfl
        refine Frame.step (holderAnswer_frame _ _ _ _) ?_ rfl
        exact Frame.refl _ _
      · refine Frame.step (modRound_frame _ _ _) ?_ rfl
        refine Frame.step (holderAnswer_frame _ _ _ _) ?_ rfl
        exact Frame.refl _ _
    · exact Frame.refl _ _

theorem clearPresence_frame (s : State) (p : Nat) :
    Frame [.mgmt, .folio, .ledger, .reserve, .ports, .groups, .easel, .palette, .directory, .queues, .barrow, .perf, .stats, .out] s (clearPresence s p) := by
  unfold clearPresence
  dsimp only
  refine Frame.foldl ?_ ?_
  · intro _ _
    refine Frame.step (snoopAnswer_frame _ _ _ _) ?_ rfl
    exact Frame.refl _ _
  · refine Frame.step (bump_frame _ _ _ _) ?_ rfl
    refine Frame.foldl ?_ ?_
    · intro _ _
      refine Frame.ite ?_ ?_
      · refine Frame.ite ?_ ?_
        · refine Frame.step (modEntry_frame _ _ _) ?_ rfl
          exact Frame.refl _ _
        · refine Frame.step (modEntry_frame _ _ _) ?_ rfl
          exact Frame.refl _ _
      · exact Frame.refl _ _
    · exact Frame.refl _ _

theorem clearRecord_frame (s : State) (p : Nat) (i : Nat) :
    Frame [.queues] s (clearRecord s p i) := by
  unfold clearRecord
  refine Frame.step (modQueue_frame _ _ _) ?_ rfl
  exact Frame.refl _ _

theorem openInvalidation_frame (s : State) (v : Invalidation) :
    Frame [.reserve, .palette, .stats] s (openInvalidation s v) := by
  unfold openInvalidation
  dsimp only
  refine Frame.step (bump_frame _ _ _ _) ?_ rfl
  refine Frame.foldl ?_ ?_
  · intro _ _
    refine Frame.ite ?_ ?_
    · refine Frame.step (palDrop_frame _ _) ?_ rfl
      exact Frame.refl _ _
    · exact Frame.refl _ _
  · refine Frame.foldl ?_ ?_
    · intro _ _
      split
      · refine Frame.ite ?_ ?_
        · refine Frame.step (setMiss_frame _ _ _) ?_ rfl
          exact Frame.refl _ _
        · exact Frame.refl _ _
      · exact Frame.refl _ _
    · refine Frame.upd_palette ?_ rfl
      exact Frame.refl _ _

theorem settlePalette_frame (s : State) :
    Frame [.reserve, .palette, .stats] s (settlePalette s) := by
  unfold settlePalette
  dsimp only
  refine Frame.foldl ?_ ?_
  · intro _ _
    refine Frame.step (palApply_frame _ _) ?_ rfl
    exact Frame.refl _ _
  · refine Frame.upd_palette ?_ rfl
    refine Frame.foldl ?_ ?_
    · intro _ _
      refine Frame.ite ?_ ?_
      · refine Frame.step (palDefer_frame _ _ _) ?_ rfl
        exact Frame.refl _ _
      · refine Frame.ite ?_ ?_
        · exact Frame.refl _ _
        · refine Frame.step (palMiss_frame _ _ _) ?_ rfl
          exact Frame.refl _ _
    · refine Frame.upd_palette ?_ rfl
      exact Frame.refl _ _

theorem closeInvalidation_frame (s : State) (kind : Nat) (lo : Nat) (hi : Nat) :
    Frame [.reserve, .palette, .stats] s (closeInvalidation s kind lo hi) := by
  unfold closeInvalidation
  dsimp only
  refine Frame.step (settlePalette_frame _) ?_ rfl
  split
  · refine Frame.upd_palette ?_ rfl
    exact Frame.refl _ _
  · refine Frame.ite ?_ ?_
    · refine Frame.step (openInvalidation_frame _ _) ?_ rfl
      refine Frame.upd_palette ?_ rfl
      exact Frame.refl _ _
    · refine Frame.upd_palette ?_ rfl
      exact Frame.refl _ _

theorem codecClear_frame (s : State) :
    Frame [.stats] s (codecClear s) := by
  unfold codecClear
  refine Frame.step (clearStats_frame _ _ _ _) ?_ rfl
  refine Frame.step (clearStats_frame _ _ _ _) ?_ rfl
  refine Frame.step (clearStatsAt_frame _ _ _ _ _) ?_ rfl
  refine Frame.step (clearStats_frame _ _ _ _) ?_ rfl
  exact Frame.refl _ _

theorem issueJournalTile_frame (s : State) (g : Nat) (words : List Nat) (n : Nat) (drop : Nat) (stale : Bool) :
    Frame [.groups] s (issueJournalTile s g words n drop stale) := by
  unfold issueJournalTile
  dsimp only
  split
  · exact Frame.refl _ _
  · refine Frame.step (modGroup_frame _ _ _) ?_ rfl
    exact Frame.refl _ _

theorem commitTile_frame (s : State) (g : Nat) (drop : Nat) :
    Frame [.groups, .queues, .stats] s (commitTile s g drop) := by
  unfold commitTile
  dsimp only
  refine Frame.ite ?_ ?_
  · exact Frame.refl _ _
  · refine Frame.step (issueJournalTile_frame _ _ _ _ _ _) ?_ rfl
    refine Frame.step (takeWords_frame _ _ _) ?_ rfl
    exact Frame.refl _ _

theorem commitAll_frame (a1 : Nat) (a2 : State) (a3 : Nat) :
    Frame [.groups, .queues, .stats] a2 (commitAll a1 a2 a3) := by
  induction a1 generalizing a2 a3 with
  | zero =>
    unfold commitAll
    exact Frame.refl _ _
  | succ n ih =>
    unfold commitAll
    refine Frame.ite ?_ ?_
    · exact Frame.refl _ _
    · refine Frame.step (ih _ _) ?_ rfl
      refine Frame.step (commitTile_frame _ _ _) ?_ rfl
      exact Frame.refl _ _

theorem commitSet_frame (s : State) (n : Nat) :
    FrameE [.sys, .mgmt, .folio, .ledger, .groups, .crypt, .directory, .path, .settings, .stats, .out] s (commitSet s n) := by
  unfold commitSet
  dsimp only
  refine FrameE.ite ?_ ?_
  · exact FrameE.error
  · split
    · exact FrameE.error
    · refine FrameE.ok ?_
      refine Frame.step (applySet_frame _ _ _) ?_ rfl
      exact Frame.refl _ _

theorem communicationSettings_frame (s : State) :
    Frame [.mgmt] s (communicationSettings s) := by
  unfold communicationSettings
  refine Frame.upd_mgmt ?_ rfl
  exact Frame.refl _ _

theorem compensate_frame (s : State) :
    Frame [.stats] s (compensate s) := by
  unfold compensate
  dsimp only
  refine Frame.ite ?_ ?_
  · exact Frame.refl _ _
  · refine Frame.step (setStat_frame _ _ _ _) ?_ rfl
    exact Frame.refl _ _

theorem programAnchor_frame (s : State) (g : Nat) (gen : Nat) (i : Nat) (payload : List Byte) :
    Frame [.sys, .folio, .groups, .path, .stats] s (programAnchor s g gen i payload) := by
  unfold programAnchor
  dsimp only
  split
  · refine Frame.step (programAt_frame _ _ _) ?_ rfl
    exact Frame.refl _ _
  · exact Frame.refl _ _

theorem completeCheckpoint_frame (s : State) (g : Nat) :
    Frame [.sys, .folio, .groups, .path, .stats] s (completeCheckpoint s g) := by
  unfold completeCheckpoint
  split
  · exact Frame.refl _ _
  · refine Frame.ite ?_ ?_
    · refine Frame.step (bump_frame _ _ _ _) ?_ rfl
      refine Frame.step (modGroup_frame _ _ _) ?_ rfl
      refine Frame.step (programAnchor_frame _ _ _ _ _) ?_ rfl
      exact Frame.refl _ _
    · exact Frame.refl _ _

theorem folioStore_frame (s : State) (a : Nat) (bs : List Byte) :
    Frame [.folio] s (folioStore s a bs) := by
  unfold folioStore
  refine Frame.upd_folio ?_ rfl
  exact Frame.refl _ _

theorem itemDone_frame (s : State) (it : FolioItem) :
    Frame [.sys, .folio, .ledger] s (itemDone s it) := by
  unfold itemDone
  dsimp only
  split
  · refine Frame.upd_ledger ?_ rfl
    exact Frame.refl _ _
  · refine Frame.upd_folio ?_ rfl
    exact Frame.refl _ _
  · refine Frame.upd_sys ?_ rfl
    exact Frame.refl _ _
  · refine Frame.upd_sys ?_ rfl
    exact Frame.refl _ _
  · exact Frame.refl _ _

theorem sectionBegin_frame (s : State) (it : FolioItem) (k : Nat) (content : List Byte) :
    Frame [] s (sectionBegin s it k content).1 := by
  unfold sectionBegin
  dsimp only
  exact Frame.refl _ _

theorem sectionDurable_frame (s : State) (k : Nat) :
    Frame [.ledger] s (sectionDurable s k) := by
  unfold sectionDurable
  refine Frame.ite ?_ ?_
  · dsimp only
    split
    · refine Frame.upd_ledger ?_ rfl
      exact Frame.refl _ _
    · exact Frame.refl _ _
  · exact Frame.refl _ _

theorem sectionAdvance_frame (s : State) (it : FolioItem) (k : Nat) (phase : Nat) (seq : Nat) (copy : Nat) :
    Frame [.ledger] s (sectionAdvance s it k phase seq copy).1 := by
  unfold sectionAdvance
  split
  · refine Frame.step (sectionBegin_frame _ _ _ _) ?_ rfl
    exact Frame.refl _ _
  · refine Frame.step (sectionBegin_frame _ _ _ _) ?_ rfl
    exact Frame.refl _ _
  · dsimp only
    exact Frame.refl _ _
  · dsimp only
    refine Frame.step (sectionDurable_frame _ _) ?_ rfl
    exact Frame.refl _ _
  · dsimp only
    exact Frame.refl _ _
  · dsimp only
    exact Frame.refl _ _

theorem itemSettle_frame (a1 : Nat) (a2 : State) (a3 : FolioItem) :
    Frame [.sys, .folio, .ledger] a2 (itemSettle a1 a2 a3).1 := by
  induction a1 generalizing a2 a3 with
  | zero =>
    unfold itemSettle
    dsimp only
    exact Frame.refl _ _
  | succ n ih =>
    unfold itemSettle
    split
    · dsimp only
      exact Frame.refl _ _
    · split
      · split
        · refine Frame.step (ih _ _) ?_ rfl
          refine Frame.ofFst (sectionAdvance_frame _ _ _ _ _ _) (by assumption) ?_ rfl
          exact Frame.refl _ _
        · dsimp only
          refine Frame.ofFst (sectionAdvance_frame _ _ _ _ _ _) (by assumption) ?_ rfl
          exact Frame.refl _ _
      · dsimp only
        refine Frame.step (itemDone_frame _ _) ?_ rfl
        exact Frame.refl _ _

theorem requeue_frame (s : State) (it : FolioItem) :
    Frame [.folio] s (requeue s it) := by
  unfold requeue
  refine Frame.upd_folio ?_ rfl
  exact Frame.refl _ _

theorem continueItem_frame (s : State) (it : FolioItem) :
    Frame [.sys, .folio, .ledger] s (continueItem s it) := by
  unfold continueItem
  split
  · refine Frame.step (requeue_frame _ _) ?_ rfl
    refine Frame.ofFst (itemSettle_frame _ _ _) (by assumption) ?_ rfl
    exact Frame.refl _ _
  · refine Frame.ofFst (itemSettle_frame _ _ _) (by assumption) ?_ rfl
    exact Frame.refl _ _

theorem completePageWrite_frame (s : State) (readBack : List Byte) :
    Frame [.sys, .mgmt, .folio, .ledger, .stats, .out] s (completePageWrite s readBack) := by
  unfold completePageWrite
  dsimp only
  split
  · exact Frame.refl _ _
  · refine Frame.ite ?_ ?_
    · refine Frame.step (continueItem_frame _ _) ?_ rfl
      refine Frame.upd_folio ?_ rfl
      refine Frame.step (bump_frame _ _ _ _) ?_ rfl
      refine Frame.step (folioStore_frame _ _ _) ?_ rfl
      exact Frame.refl _ _
    · refine Frame.ite ?_ ?_
      · split
        · refine Frame.step (continueItem_frame _ _) ?_ rfl
          refine Frame.step (raise_frame _ _ _) ?_ rfl
          refine Frame.step (bump_frame _ _ _ _) ?_ rfl
          refine Frame.upd_folio ?_ rfl
          refine Frame.step (bump_frame _ _ _ _) ?_ rfl
          refine Frame.step (folioStore_frame _ _ _) ?_ rfl
          exact Frame.refl _ _
        · refine Frame.ite ?_ ?_
          · refine Frame.step (raise_frame _ _ _) ?_ rfl
            refine Frame.step (bump_frame _ _ _ _) ?_ rfl
            refine Frame.upd_folio ?_ rfl
            refine Frame.step (bump_frame _ _ _ _) ?_ rfl
            refine Frame.step (folioStore_frame _ _ _) ?_ rfl
            exact Frame.refl _ _
          · refine Frame.step (requeue_frame _ _) ?_ rfl
            refine Frame.step (raise_frame _ _ _) ?_ rfl
            refine Frame.step (bump_frame _ _ _ _) ?_ rfl
            refine Frame.upd_folio ?_ rfl
            refine Frame.step (bump_frame _ _ _ _) ?_ rfl
            refine Frame.step (folioStore_frame _ _ _) ?_ rfl
            exact Frame.refl _ _
      · refine Frame.upd_folio ?_ rfl
        refine Frame.step (bump_frame _ _ _ _) ?_ rfl
        refine Frame.step (folioStore_frame _ _ _) ?_ rfl
        exact Frame.refl _ _

theorem deliverAll_frame (s : State) (ws : List ReadWait) (data : Line) (poison : Bool) :
    Frame [.mgmt, .folio, .ledger, .ports, .palette, .directory, .queues, .barrow, .perf, .stats, .out] s (deliverAll s ws data poison) := by
  unfold deliverAll
  refine Frame.foldl ?_ ?_
  · intro _ _
    refine Frame.step (deliverRead_frame _ _ _ _) ?_ rfl
    refine Frame.step (stamp_frame _ _ _) ?_ rfl
    exact Frame.refl _ _
  · exact Frame.refl _ _

theorem deliverWaits_frame (s : State) (line : Nat) (data : Line) (poison : Bool) :
    Frame [.mgmt, .folio, .ledger, .ports, .easel, .palette, .directory, .queues, .barrow, .perf, .stats, .out] s (deliverWaits s line data poison) := by
  unfold deliverWaits
  dsimp only
  refine Frame.step (deliverAll_frame _ _ _ _) ?_ rfl
  refine Frame.upd_easel ?_ rfl
  exact Frame.refl _ _

theorem installFill_frame (s : State) (p : Nat) (line : Nat) (version : Nat) (data : Line) (poison : Bool) :
    Frame [.mgmt, .folio, .ledger, .reserve, .ports, .groups, .easel, .palette, .directory, .queues, .barrow, .perf, .stats, .out] s (installFill s p line version data poison) := by
  unfold installFill
  dsimp only
  refine Frame.ite ?_ ?_
  · refine Frame.ite ?_ ?_
    · refine Frame.step (retryMerges_frame _) ?_ rfl
      refine Frame.step (releaseDiscarded_frame _ _) ?_ rfl
      refine Frame.step (deliverWaits_frame _ _ _ _) ?_ rfl
      refine Frame.step (modLine_frame _ _ _) ?_ rfl
      refine Frame.step (destageRemove_frame _ _) ?_ rfl
      refine Frame.step (chargeLine_frame _ _ _ _) ?_ rfl
      refine Frame.step (setMerge_frame _ _ _) ?_ rfl
      exact Frame.refl _ _
    · refine Frame.step (retryMerges_frame _) ?_ rfl
      refine Frame.step (deliverWaits_frame _ _ _ _) ?_ rfl
      refine Frame.step (modLine_frame _ _ _) ?_ rfl
      refine Frame.ite ?_ ?_
      · refine Frame.step (chargeLine_frame _ _ _ _) ?_ rfl
        refine Frame.step (setMerge_frame _ _ _) ?_ rfl
        exact Frame.refl _ _
      · refine Frame.step (setMerge_frame _ _ _) ?_ rfl
        exact Frame.refl _ _
  · refine Frame.step (deliverWaits_frame _ _ _ _) ?_ rfl
    refine Frame.step (easelTouch_frame _ _ _) ?_ rfl
    refine Frame.step (modLine_frame _ _ _) ?_ rfl
    exact Frame.refl _ _

theorem completeRead_frame (s : State) (n : Nat) (version : Nat) (data : Line) (poison : Bool) :
    Frame [.mgmt, .folio, .ledger, .reserve, .ports, .groups, .easel, .palette, .directory, .queues, .barrow, .perf, .stats, .out] s (completeRead s n version data poison) := by
  unfold completeRead
  dsimp only
  refine Frame.ite ?_ ?_
  · refine Frame.ite ?_ ?_
    · refine Frame.step (installFill_frame _ _ _ _ _ _) ?_ rfl
      refine Frame.upd_easel ?_ rfl
      exact Frame.refl _ _
    · refine Frame.upd_easel ?_ rfl
      exact Frame.refl _ _
  · refine Frame.ite ?_ ?_
    · split
      · refine Frame.ite ?_ ?_
        · refine Frame.step (installFill_frame _ _ _ _ _ _) ?_ rfl
          refine Frame.upd_easel ?_ rfl
          exact Frame.refl _ _
        · refine Frame.upd_easel ?_ rfl
          exact Frame.refl _ _
      · split
        · refine Frame.step (easelTouch_frame _ _ _) ?_ rfl
          refine Frame.step (modLine_frame _ _ _) ?_ rfl
          refine Frame.upd_easel ?_ rfl
          exact Frame.refl _ _
        · refine Frame.upd_easel ?_ rfl
          exact Frame.refl _ _
    · refine Frame.step (deliverAll_frame _ _ _ _) ?_ rfl
      refine Frame.upd_easel ?_ rfl
      exact Frame.refl _ _

theorem copyLosses_frame (s : State) (bank : Nat) (row : Nat) (lost : BitVec 16) :
    Frame [.mgmt, .folio, .ledger, .reserve, .ports, .easel, .palette, .queues, .stats, .out] s (copyLosses s bank row lost) := by
  unfold copyLosses
  refine Frame.ite ?_ ?_
  · refine Frame.foldl ?_ ?_
    · intro _ _
      dsimp only
      refine Frame.ite ?_ ?_
      · refine Frame.step (easelWordLost_frame _ _ _) ?_ rfl
        exact Frame.refl _ _
      · exact Frame.refl _ _
    · exact Frame.refl _ _
  · exact Frame.refl _ _

theorem releaseSession_frame (s : State) (n : Nat) :
    Frame [.mgmt] s (releaseSession s n) := by
  unfold releaseSession
  refine Frame.step (modSession_frame _ _ _) ?_ rfl
  exact Frame.refl _ _

theorem releaseSessions_frame (s : State) (lo : Nat) (k : Nat) :
    Frame [.mgmt] s (releaseSessions s lo k) := by
  unfold releaseSessions
  refine Frame.foldl ?_ ?_
  · intro _ _
    refine Frame.step (releaseSession_frame _ _) ?_ rfl
    exact Frame.refl _ _
  · exact Frame.refl _ _

theorem coreReset_frame (s : State) :
    Frame [.sys, .mgmt, .channels, .ports, .groups, .easel, .palette, .crypt, .directory, .queues, .barrow, .perf, .path] s (coreReset s) := by
  unfold coreReset
  dsimp only
  refine Frame.upd_sys_channels_ports_groups_easel_palette_crypt_directory_queues_barrow_perf_path ?_ rfl
  refine Frame.step (releaseSessions_frame _ _ _) ?_ rfl
  exact Frame.refl _ _

theorem misdirectedEvent_frame (s : State) (t : TileId) (pl : Place) :
    Frame [.mgmt, .folio, .ledger, .stats, .out] s (misdirectedEvent s t pl) := by
  unfold misdirectedEvent
  refine Frame.step (raise_frame _ _ _) ?_ rfl
  refine Frame.step (bumpCodec_frame _ _ _ _) ?_ rfl
  exact Frame.refl _ _

theorem nominate_frame (s : State) (g : Nat) (column : Nat) (p : Nat) (slot : Nat) :
    Frame [.groups, .stats] s (nominate s g column p slot) := by
  unfold nominate
  dsimp only
  refine Frame.ite ?_ ?_
  · exact Frame.refl _ _
  · refine Frame.step (bump_frame _ _ _ _) ?_ rfl
    refine Frame.step (modGroup_frame _ _ _) ?_ rfl
    exact Frame.refl _ _

theorem nominateAfter_frame (s : State) (pl : Place) (errors : List Nat) (good : Bool) (recovered : Bool) (threshold : Nat) :
    Frame [.groups, .stats] s (nominateAfter s pl errors good recovered threshold) := by
  unfold nominateAfter
  dsimp only
  split
  · exact Frame.refl _ _
  · refine Frame.foldl ?_ ?_
    · intro _ _
      refine Frame.step (nominate_frame _ _ _ _ _) ?_ rfl
      exact Frame.refl _ _
    · exact Frame.refl _ _

theorem retryIssued_frame (s : State) (g : Nat) :
    Frame [.perf, .stats] s (retryIssued s g) := by
  unfold retryIssued
  refine Frame.step (perfCount_frame _ _ _ _) ?_ rfl
  refine Frame.step (bumpCodec_frame _ _ _ _) ?_ rfl
  exact Frame.refl _ _

theorem engineAttempts_frame (a1 : Nat) (a2 : State) (a3 : TileId) (a4 : Place) (a5 : List Codeword) (a6 : Nat × Nat) (a7 : Nat) (a8 : Bool) (a9 : Bool) :
    Frame [.mgmt, .folio, .ledger, .channels, .groups, .perf, .stats, .out] a2 (engineAttempts a1 a2 a3 a4 a5 a6 a7 a8 a9).1 := by
  induction a1 generalizing a2 a3 a4 a5 a6 a7 a8 a9 with
  | zero =>
    unfold engineAttempts
    dsimp only
    exact Frame.refl _ _
  | succ n ih =>
    unfold engineAttempts
    dsimp only
    split
    · dsimp only
      refine Frame.step (nominateAfter_frame _ _ _ _ _ _) ?_ rfl
      refine Frame.ite ?_ ?_
      · refine Frame.step (bumpCodec_frame _ _ _ _) ?_ rfl
        refine Frame.step (readTile_frame _ _ _ _ _) ?_ rfl
        refine Frame.step (takeErased_frame _ _ _) ?_ rfl
        exact Frame.refl _ _
      · refine Frame.step (readTile_frame _ _ _ _ _) ?_ rfl
        refine Frame.step (takeErased_frame _ _ _) ?_ rfl
        exact Frame.refl _ _
    · dsimp only
      refine Frame.step (nominateAfter_frame _ _ _ _ _ _) ?_ rfl
      refine Frame.ite ?_ ?_
      · refine Frame.step (bumpCodec_frame _ _ _ _) ?_ rfl
        refine Frame.step (readTile_frame _ _ _ _ _) ?_ rfl
        refine Frame.step (takeErased_frame _ _ _) ?_ rfl
        exact Frame.refl _ _
      · refine Frame.step (readTile_frame _ _ _ _ _) ?_ rfl
        refine Frame.step (takeErased_frame _ _ _) ?_ rfl
        exact Frame.refl _ _
    · refine Frame.fstIte ?_ ?_
      · refine Frame.step (ih _ _ _ _ _ _ _ _) ?_ rfl
        refine Frame.step (retryIssued_frame _ _) ?_ rfl
        refine Frame.step (misdirectedEvent_frame _ _ _) ?_ rfl
        refine Frame.step (readTile_frame _ _ _ _ _) ?_ rfl
        refine Frame.step (takeErased_frame _ _ _) ?_ rfl
        exact Frame.refl _ _
      · dsimp only
        refine Frame.step (misdirectedEvent_frame _ _ _) ?_ rfl
        refine Frame.step (readTile_frame _ _ _ _ _) ?_ rfl
        refine Frame.step (takeErased_frame _ _ _) ?_ rfl
        exact Frame.refl _ _
    · refine Frame.fstIte ?_ ?_
      · refine Frame.step (ih _ _ _ _ _ _ _ _) ?_ rfl
        refine Frame.step (retryIssued_frame _ _) ?_ rfl
        refine Frame.ite ?_ ?_
        · refine Frame.step (bumpCodec_frame _ _ _ _) ?_ rfl
          refine Frame.step (readTile_frame _ _ _ _ _) ?_ rfl
          refine Frame.step (takeErased_frame _ _ _) ?_ rfl
          exact Frame.refl _ _
        · refine Frame.step (readTile_frame _ _ _ _ _) ?_ rfl
          refine Frame.step (takeErased_frame _ _ _) ?_ rfl
          exact Frame.refl _ _
      · dsimp only
        refine Frame.ite ?_ ?_
        · refine Frame.step (bumpCodec_frame _ _ _ _) ?_ rfl
          refine Frame.step (readTile_frame _ _ _ _ _) ?_ rfl
          refine Frame.step (takeErased_frame _ _ _) ?_ rfl
          exact Frame.refl _ _
        · refine Frame.step (readTile_frame _ _ _ _ _) ?_ rfl
          refine Frame.step (takeErased_frame _ _ _) ?_ rfl
          exact Frame.refl _ _

theorem engineRead_frame (s : State) (t : TileId) (pl : Place) (errs : List Codeword) :
    Frame [.mgmt, .folio, .ledger, .channels, .groups, .perf, .stats, .out] s (engineRead s t pl errs).1 := by
  unfold engineRead
  refine Frame.step (engineAttempts_frame _ _ _ _ _ _ _ _ _) ?_ rfl
  exact Frame.refl _ _

theorem correctedCode_frame (s : State) (t : TileId) (pl : Place) (errs : List Codeword) :
    Frame [.mgmt, .folio, .ledger, .channels, .groups, .perf, .stats, .out] s (correctedCode s t pl errs).1 := by
  unfold correctedCode
  dsimp only
  split
  · dsimp only
    refine Frame.step (engineRead_frame _ _ _ _) ?_ rfl
    exact Frame.refl _ _
  · dsimp only
    refine Frame.step (engineRead_frame _ _ _ _) ?_ rfl
    exact Frame.refl _ _
  · dsimp only
    refine Frame.step (engineRead_frame _ _ _ _) ?_ rfl
    exact Frame.refl _ _

theorem countFrameError_frame (s : State) (ch : Nat) :
    Frame [.channels, .stats] s (countFrameError s ch) := by
  unfold countFrameError
  refine Frame.step (channelError_frame _ _) ?_ rfl
  refine Frame.step (bump_frame _ _ _ _) ?_ rfl
  exact Frame.refl _ _

theorem countRefusal_frame (s : State) (path : Nat) :
    Frame [.mgmt, .folio, .ledger, .stats, .out] s (countRefusal s path) := by
  unfold countRefusal
  dsimp only
  refine Frame.ite ?_ ?_
  · refine Frame.step (raise_frame _ _ _) ?_ rfl
    refine Frame.upd_mgmt ?_ rfl
    refine Frame.step (bump_frame _ _ _ _) ?_ rfl
    refine Frame.upd_mgmt ?_ rfl
    exact Frame.refl _ _
  · refine Frame.step (bump_frame _ _ _ _) ?_ rfl
    refine Frame.upd_mgmt ?_ rfl
    exact Frame.refl _ _

theorem countWarm_frame (s : State) (p : Nat) (warm : Bool) :
    Frame [.perf, .stats] s (countWarm s p warm) := by
  unfold countWarm
  refine Frame.ite ?_ ?_
  · exact Frame.refl _ _
  · refine Frame.step (perfCount_frame _ _ _ _) ?_ rfl
    refine Frame.step (bump_frame _ _ _ _) ?_ rfl
    exact Frame.refl _ _

theorem counterClear_frame (s : State) :
    Frame [.perf, .stats] s (counterClear s) := by
  unfold counterClear
  refine Frame.step (clearStats_frame _ _ _ _) ?_ rfl
  refine Frame.upd_perf ?_ rfl
  exact Frame.refl _ _

theorem cryptClear_frame (s : State) :
    Frame [.stats] s (cryptClear s) := by
  unfold cryptClear
  refine Frame.step (clearStats_frame _ _ _ _) ?_ rfl
  exact Frame.refl _ _

theorem deadSlot_frame (s : State) (g : Nat) (r : BusRequest) :
    Frame [.groups, .stats] s (deadSlot s g r) := by
  unfold deadSlot
  dsimp only
  refine Frame.step (modArb_frame _ _ _) ?_ rfl
  refine Frame.step (bump_frame _ _ _ _) ?_ rfl
  exact Frame.refl _ _

theorem latchBank_frame (s : State) (g : Nat) (c : Nat) (b : Nat) (v : Nat) :
    Frame [.groups] s (latchBank s g c b v) := by
  unfold latchBank
  refine Frame.step (modArb_frame _ _ _) ?_ rfl
  exact Frame.refl _ _

theorem issueResumes_frame (s : State) (g : Nat) (xs : List ResumeRec) :
    Frame [.groups, .stats, .out] s (issueResumes s g xs) := by
  unfold issueResumes
  dsimp only
  refine Frame.step (modArb_frame _ _ _) ?_ rfl
  refine Frame.foldl ?_ ?_
  · intro _ _
    refine Frame.ite ?_ ?_
    · refine Frame.step (bump_frame _ _ _ _) ?_ rfl
      refine Frame.step (latchBank_frame _ _ _ _ _) ?_ rfl
      refine Frame.step (sendFrame_frame _ _ _) ?_ rfl
      exact Frame.refl _ _
    · refine Frame.step (latchBank_frame _ _ _ _ _) ?_ rfl
      refine Frame.step (sendFrame_frame _ _ _) ?_ rfl
      exact Frame.refl _ _
  · exact Frame.refl _ _

theorem decideSlot_frame (s : State) (g : Nat) (n : Nat) (rs : List BusRequest) :
    Frame [.groups, .path, .stats, .out] s (decideSlot s g n rs) := by
  unfold decideSlot
  refine Frame.ite ?_ ?_
  · dsimp only
    refine Frame.step (busUse_frame _ _) ?_ rfl
    refine Frame.step (modArb_frame _ _ _) ?_ rfl
    exact Frame.refl _ _
  · split
    · refine Frame.step (busUse_frame _ _) ?_ rfl
      refine Frame.step (modArb_frame _ _ _) ?_ rfl
      exact Frame.refl _ _
    · refine Frame.ite ?_ ?_
      · refine Frame.step (busUse_frame _ _) ?_ rfl
        refine Frame.step (issueResumes_frame _ _ _) ?_ rfl
        exact Frame.refl _ _
      · split
        · refine Frame.step (busUse_frame _ _) ?_ rfl
          refine Frame.step (bookGrant_frame _ _ _ _) ?_ rfl
          exact Frame.refl _ _
        · refine Frame.step (bump_frame _ _ _ _) ?_ rfl
          exact Frame.refl _ _

theorem deepAttempts_frame (a1 : List Codeword) (a2 : State) (a3 : TileId) (a4 : Place) (a5 : Nat) (a6 : Nat) :
    Frame [.channels, .perf, .stats] a2 (deepAttempts a1 a2 a3 a4 a5 a6).1 := by
  induction a6 generalizing a1 a2 a3 a4 a5 with
  | zero =>
    unfold deepAttempts
    dsimp only
    exact Frame.refl _ _
  | succ n ih =>
    unfold deepAttempts
    dsimp only
    split
    · dsimp only
      refine Frame.step (readTile_frame _ _ _ _ _) ?_ rfl
      refine Frame.step (takeErased_frame _ _ _) ?_ rfl
      exact Frame.refl _ _
    · dsimp only
      refine Frame.step (readTile_frame _ _ _ _ _) ?_ rfl
      refine Frame.step (takeErased_frame _ _ _) ?_ rfl
      exact Frame.refl _ _
    · refine Frame.step (ih _ _ _ _ _) ?_ rfl
      refine Frame.step (readTile_frame _ _ _ _ _) ?_ rfl
      refine Frame.step (takeErased_frame _ _ _) ?_ rfl
      exact Frame.refl _ _

theorem modDrift_frame (s : State) (g : Nat) (p : Nat) (f : DriftRec → DriftRec) :
    Frame [.groups] s (modDrift s g p f) := by
  unfold modDrift
  refine Frame.step (modGroup_frame _ _ _) ?_ rfl
  exact Frame.refl _ _

theorem urge_frame (s : State) (g : Nat) (p : Nat) :
    Frame [.groups] s (urge s g p) := by
  unfold urge
  refine Frame.step (modGroup_frame _ _ _) ?_ rfl
  exact Frame.refl _ _

theorem measureRegion_frame (s : State) (g : Nat) (p : Nat) (errs : List Codeword) :
    Frame [.mgmt, .folio, .ledger, .groups, .stats, .out] s (measureRegion s g p errs) := by
  unfold measureRegion
  dsimp only
  refine Frame.ite ?_ ?_
  · refine Frame.ite ?_ ?_
    · refine Frame.step (raise_frame _ _ _) ?_ rfl
      refine Frame.step (urge_frame _ _ _) ?_ rfl
      refine Frame.ite ?_ ?_
      · refine Frame.step (bump_frame _ _ _ _) ?_ rfl
        refine Frame.step (modDrift_frame _ _ _ _) ?_ rfl
        refine Frame.foldl ?_ ?_
        · intro _ _
          refine Frame.step (countReads_frame _ _ _) ?_ rfl
          exact Frame.refl _ _
        · exact Frame.refl _ _
      · refine Frame.step (raise_frame _ _ _) ?_ rfl
        refine Frame.step (urge_frame _ _ _) ?_ rfl
        refine Frame.step (bump_frame _ _ _ _) ?_ rfl
        refine Frame.step (bump_frame _ _ _ _) ?_ rfl
        refine Frame.step (modDrift_frame _ _ _ _) ?_ rfl
        refine Frame.foldl ?_ ?_
        · intro _ _
          refine Frame.step (countReads_frame _ _ _) ?_ rfl
          exact Frame.refl _ _
        · exact Frame.refl _ _
    · refine Frame.ite ?_ ?_
      · refine Frame.step (bump_frame _ _ _ _) ?_ rfl
        refine Frame.step (modDrift_frame _ _ _ _) ?_ rfl
        refine Frame.foldl ?_ ?_
        · intro _ _
          refine Frame.step (countReads_frame _ _ _) ?_ rfl
          exact Frame.refl _ _
        · exact Frame.refl _ _
      · refine Frame.step (raise_frame _ _ _) ?_ rfl
        refine Frame.step (urge_frame _ _ _) ?_ rfl
        refine Frame.step (bump_frame _ _ _ _) ?_ rfl
        refine Frame.step (bump_frame _ _ _ _) ?_ rfl
        refine Frame.step (modDrift_frame _ _ _ _) ?_ rfl
        refine Frame.foldl ?_ ?_
        · intro _ _
          refine Frame.step (countReads_frame _ _ _) ?_ rfl
          exact Frame.refl _ _
        · exact Frame.refl _ _
  · refine Frame.step (raise_frame _ _ _) ?_ rfl
    refine Frame.step (urge_frame _ _ _) ?_ rfl
    refine Frame.ite ?_ ?_
    · refine Frame.step (raise_frame _ _ _) ?_ rfl
      refine Frame.step (urge_frame _ _ _) ?_ rfl
      refine Frame.ite ?_ ?_
      · refine Frame.step (bump_frame _ _ _ _) ?_ rfl
        refine Frame.step (modDrift_frame _ _ _ _) ?_ rfl
        refine Frame.foldl ?_ ?_
        · intro _ _
          refine Frame.step (countReads_frame _ _ _) ?_ rfl
          exact Frame.refl _ _
        · exact Frame.refl _ _
      · refine Frame.step (raise_frame _ _ _) ?_ rfl
        refine Frame.step (urge_frame _ _ _) ?_ rfl
        refine Frame.step (bump_frame _ _ _ _) ?_ rfl
        refine Frame.step (bump_frame _ _ _ _) ?_ rfl
        refine Frame.step (modDrift_frame _ _ _ _) ?_ rfl
        refine Frame.foldl ?_ ?_
        · intro _ _
          refine Frame.step (countReads_frame _ _ _) ?_ rfl
          exact Frame.refl _ _
        · exact Frame.refl _ _
    · refine Frame.ite ?_ ?_
      · refine Frame.step (bump_frame _ _ _ _) ?_ rfl
        refine Frame.step (modDrift_frame _ _ _ _) ?_ rfl
        refine Frame.foldl ?_ ?_
        · intro _ _
          refine Frame.step (countReads_frame _ _ _) ?_ rfl
          exact Frame.refl _ _
        · exact Frame.refl _ _
      · refine Frame.step (raise_frame _ _ _) ?_ rfl
        refine Frame.step (urge_frame _ _ _) ?_ rfl
        refine Frame.step (bump_frame _ _ _ _) ?_ rfl
        refine Frame.step (bump_frame _ _ _ _) ?_ rfl
        refine Frame.step (modDrift_frame _ _ _ _) ?_ rfl
        refine Frame.foldl ?_ ?_
        · intro _ _
          refine Frame.step (countReads_frame _ _ _) ?_ rfl
          exact Frame.refl _ _
        · exact Frame.refl _ _

theorem tilePermanent_frame (s : State) (t : TileId) :
    Frame [.palette] s (tilePermanent s t) := by
  unfold tilePermanent
  split
  · refine Frame.step (poisonPermanent_frame _ _) ?_ rfl
    exact Frame.refl _ _
  · exact Frame.refl _ _

theorem deepReadWith_frame {V : List UnitName} {s x : State} {program : State → List Byte → State} {t : TileId}
    {pl : Place} {errs : List Codeword} (hf : ∀ y b, Frame V y (program y b)) (h : Frame V s x)
    (hs : unitsIn [.sys, .mgmt, .folio, .ledger, .reserve, .channels, .ports, .groups, .easel, .palette, .crypt, .queues, .perf, .path, .stats, .draws, .out] V = true) : Frame V s (deepReadWith program x t pl errs).1 := by
  unfold deepReadWith
  have hr : Frame V s (deepAttempts errs x t pl 0 16).1 :=
    Frame.step (deepAttempts_frame _ _ _ _ _ _) h (unitsIn_trans rfl hs)
  dsimp only
  split
  · split
    · rename_i e
      exact Frame.ofO (authFails_frame _ _ _) e hr (unitsIn_trans rfl hs)
    · refine Frame.step (raise_frame _ _ _) ?_ (unitsIn_trans rfl hs)
      refine Frame.step (bumpCodec_frame _ _ _ _) ?_ (unitsIn_trans rfl hs)
      split
      · refine Frame.step (poisonRemove_frame _ _) ?_ (unitsIn_trans rfl hs)
        exact Frame.step (nominateAfter_frame _ _ _ _ _ _) (Frame.trans hr (hf _ _)) (unitsIn_trans rfl hs)
      · exact Frame.step (nominateAfter_frame _ _ _ _ _ _) (Frame.trans hr (hf _ _)) (unitsIn_trans rfl hs)
  · refine Frame.step (raise_frame _ _ _) ?_ (unitsIn_trans rfl hs)
    refine Frame.step (tilePermanent_frame _ _) ?_ (unitsIn_trans rfl hs)
    exact Frame.step (nominateAfter_frame _ _ _ _ _ _) (Frame.trans hr (hf _ _)) (unitsIn_trans rfl hs)
  · refine Frame.step (raise_frame _ _ _) ?_ (unitsIn_trans rfl hs)
    refine Frame.step (tallyAdd_frame _ _) ?_ (unitsIn_trans rfl hs)
    refine Frame.step (tilePermanent_frame _ _) ?_ (unitsIn_trans rfl hs)
    exact Frame.step (bumpCodec_frame _ _ _ _) (Frame.trans hr (hf _ _)) (unitsIn_trans rfl hs)

theorem deepRead_frame (s : State) (t : TileId) (pl : Place) (swatch : List Codeword) (errs : List Codeword) :
    Frame [.sys, .mgmt, .folio, .ledger, .reserve, .channels, .ports, .groups, .easel, .palette, .crypt, .queues, .perf, .path, .stats, .draws, .out] s (deepRead s t pl swatch errs).1 := by
  unfold deepRead
  dsimp only
  refine deepReadWith_frame ?_ ?_ rfl
  · intro _ _
    refine Frame.step (engineProgram_frame _ _ _) ?_ rfl
    exact Frame.refl _ _
  · split
    · refine Frame.ite ?_ ?_
      · exact Frame.refl _ _
      · refine Frame.step (measureRegion_frame _ _ _ _) ?_ rfl
        exact Frame.refl _ _
    · exact Frame.refl _ _

theorem deepReadOrPoison_frame (s : State) (g : Nat) (t : TileId) (version : Nat) :
    Frame [.sys, .mgmt, .folio, .ledger, .groups, .palette, .path, .stats, .out] s (deepReadOrPoison s g t version) := by
  unfold deepReadOrPoison
  dsimp only
  refine Frame.ite ?_ ?_
  · refine Frame.step (raise_frame _ _ _) ?_ rfl
    split
    · refine Frame.step (poisonPermanent_frame _ _) ?_ rfl
      refine Frame.step (writePoisonTile_frame _ _ _) ?_ rfl
      exact Frame.refl _ _
    · split
      · refine Frame.step (bumpCodec_frame _ _ _ _) ?_ rfl
        refine Frame.step (engineProgram_frame _ _ _) ?_ rfl
        exact Frame.refl _ _
      · exact Frame.refl _ _
  · refine Frame.ite ?_ ?_
    · exact Frame.refl _ _
    · refine Frame.ite ?_ ?_
      · refine Frame.step (raise_frame _ _ _) ?_ rfl
        split
        · refine Frame.step (poisonPermanent_frame _ _) ?_ rfl
          refine Frame.step (writePoisonTile_frame _ _ _) ?_ rfl
          refine Frame.step (raise_frame _ _ _) ?_ rfl
          exact Frame.refl _ _
        · split
          · refine Frame.step (bumpCodec_frame _ _ _ _) ?_ rfl
            refine Frame.step (engineProgram_frame _ _ _) ?_ rfl
            refine Frame.step (raise_frame _ _ _) ?_ rfl
            exact Frame.refl _ _
          · refine Frame.step (raise_frame _ _ _) ?_ rfl
            exact Frame.refl _ _
      · refine Frame.step (bumpCodec_frame _ _ _ _) ?_ rfl
        refine Frame.step (modGroup_frame _ _ _) ?_ rfl
        exact Frame.refl _ _

theorem deepSleepEnable_frame (s : State) (v : Nat) :
    Frame [.thermal, .channels, .groups, .settings, .stats, .out] s (deepSleepEnable s v) := by
  unfold deepSleepEnable
  refine Frame.foldl ?_ ?_
  · intro _ _
    refine Frame.ite ?_ ?_
    · exact Frame.refl _ _
    · refine Frame.step (wakeGroup_frame _ _) ?_ rfl
      exact Frame.refl _ _
  · refine Frame.step (setSetting_frame _ _ _ _) ?_ rfl
    exact Frame.refl _ _

theorem descriptorWrite_frame (s : State) (i : Nat) (data : List Byte) :
    Frame [.barrow] s (descriptorWrite s i data) := by
  unfold descriptorWrite
  refine Frame.upd_barrow ?_ rfl
  exact Frame.refl _ _

theorem landLine_frame (s : State) (f : DestageRec) :
    Frame [.reserve, .easel] s (landLine s f) := by
  unfold landLine
  dsimp only
  refine Frame.ite ?_ ?_
  · refine Frame.ite ?_ ?_
    · refine Frame.step (modLine_frame _ _ _) ?_ rfl
      refine Frame.ite ?_ ?_
      · refine Frame.step (chargeLine_frame _ _ _ _) ?_ rfl
        refine Frame.step (chargeLine_frame _ _ _ _) ?_ rfl
        exact Frame.refl _ _
      · exact Frame.refl _ _
    · refine Frame.step (modLine_frame _ _ _) ?_ rfl
      refine Frame.step (chargeLine_frame _ _ _ _) ?_ rfl
      exact Frame.refl _ _
  · exact Frame.refl _ _

theorem reselectFlush_frame (s : State) :
    Frame [.groups, .easel, .stats] s (reselectFlush s) := by
  unfold reselectFlush
  refine Frame.ite ?_ ?_
  · refine Frame.foldl ?_ ?_
    · intro _ _
      dsimp only
      refine Frame.ite ?_ ?_
      · refine Frame.step (destageSelect_frame _ _ _ _) ?_ rfl
        exact Frame.refl _ _
      · exact Frame.refl _ _
    · exact Frame.refl _ _
  · exact Frame.refl _ _

theorem settleFlush_frame (s : State) :
    Frame [.easel] s (settleFlush s) := by
  unfold settleFlush
  dsimp only
  refine Frame.upd_easel ?_ rfl
  exact Frame.refl _ _

theorem destageComplete_frame (s : State) (f : DestageRec) :
    Frame [.sys, .mgmt, .folio, .ledger, .reserve, .groups, .easel, .crypt, .directory, .queues, .barrow, .perf, .path, .stats, .out] s (destageComplete s f) := by
  unfold destageComplete
  dsimp only
  refine Frame.step (settleAcks_frame _) ?_ rfl
  refine Frame.step (reselectFlush_frame _) ?_ rfl
  refine Frame.step (settleFlush_frame _) ?_ rfl
  refine Frame.foldl ?_ ?_
  · intro _ _
    refine Frame.ite ?_ ?_
    · refine Frame.step (stamp_frame _ _ _) ?_ rfl
      exact Frame.refl _ _
    · exact Frame.refl _ _
  · refine Frame.upd_easel_crypt ?_ rfl
    refine Frame.step (landLine_frame _ _) ?_ rfl
    split
    · refine Frame.step (programTile_frame _ _ _) ?_ rfl
      refine Frame.upd_easel ?_ rfl
      exact Frame.refl _ _
    · refine Frame.upd_easel ?_ rfl
      exact Frame.refl _ _

theorem queuePage_frame (s : State) (c : Nat) :
    Frame [.groups] s (queuePage s c) := by
  unfold queuePage
  refine Frame.ite ?_ ?_
  · exact Frame.refl _ _
  · refine Frame.step (modGroup_frame _ _ _) ?_ rfl
    exact Frame.refl _ _

theorem destageTile_frame (s : State) (p : Nat) :
    Frame [.reserve, .groups, .palette, .perf, .stats, .draws] s (destageTile s p).1 := by
  unfold destageTile
  dsimp only
  refine Frame.fstIte ?_ ?_
  · split
    · dsimp only
      exact Frame.refl _ _
    · dsimp only
      refine Frame.ite ?_ ?_
      · refine Frame.step (queuePage_frame _ _) ?_ rfl
        refine Frame.step (palPut_frame _ _ _ _ _) ?_ rfl
        exact Frame.refl _ _
      · refine Frame.step (palPut_frame _ _ _ _ _) ?_ rfl
        exact Frame.refl _ _
  · refine Frame.fstIte ?_ ?_
    · dsimp only
      exact Frame.refl _ _
    · refine Frame.fstIte ?_ ?_
      · dsimp only
        exact Frame.refl _ _
      · dsimp only
        refine Frame.step (afterDraw_frame _) ?_ rfl
        exact Frame.refl _ _

theorem sampleDraw_frame (s : State) (who : Requester) (line : Nat) (write : Bool) (flags : Nat) :
    Frame [.perf, .stats, .draws] s (sampleDraw s who line write flags) := by
  unfold sampleDraw
  dsimp only
  refine Frame.ite ?_ ?_
  · exact Frame.refl _ _
  · refine Frame.ite ?_ ?_
    · refine Frame.ite ?_ ?_
      · refine Frame.upd_perf ?_ rfl
        refine Frame.step (afterDraw_frame _) ?_ rfl
        exact Frame.refl _ _
      · refine Frame.step (bump_frame _ _ _ _) ?_ rfl
        refine Frame.step (afterDraw_frame _) ?_ rfl
        exact Frame.refl _ _
    · refine Frame.step (afterDraw_frame _) ?_ rfl
      exact Frame.refl _ _

theorem deviceBeat_frame (s : State) (c : Nat) (l : LoadRec) (line : Nat) :
    Frame [.mgmt, .folio, .ledger, .reserve, .ports, .groups, .easel, .palette, .directory, .queues, .barrow, .perf, .stats, .draws, .out] s (deviceBeat s c l line) := by
  unfold deviceBeat
  dsimp only
  refine Frame.step (lineRequest_frame _ _) ?_ rfl
  refine Frame.step (sampleDraw_frame _ _ _ _ _) ?_ rfl
  refine Frame.step (beatStep_frame _ _ _ _ _) ?_ rfl
  exact Frame.refl _ _

theorem monitorClear_frame (s : State) :
    Frame [.stats] s (monitorClear s) := by
  unfold monitorClear
  refine Frame.step (clearStatsAt_frame _ _ _ _ _) ?_ rfl
  refine Frame.step (clearStatsAt_frame _ _ _ _ _) ?_ rfl
  refine Frame.step (clearStats_frame _ _ _ _) ?_ rfl
  exact Frame.refl _ _

theorem measureRequest_frame (s : State) :
    FrameE [.reserve] s (measureRequest s) := by
  unfold measureRequest
  refine FrameE.ite ?_ ?_
  · exact FrameE.error
  · refine FrameE.ite ?_ ?_
    · exact FrameE.error
    · refine FrameE.ok ?_
      refine Frame.upd_reserve ?_ rfl
      exact Frame.refl _ _

theorem settleErrors_frame (s : State) :
    Frame [.mgmt, .out] s (settleErrors s) := by
  unfold settleErrors
  dsimp only
  refine Frame.ite ?_ ?_
  · refine Frame.step (emcyRaise_frame _ _ _ _) ?_ rfl
    refine Frame.upd_mgmt ?_ rfl
    exact Frame.refl _ _
  · refine Frame.upd_mgmt ?_ rfl
    exact Frame.refl _ _

theorem reserveEnable_frame (s : State) :
    FrameE [.mgmt, .reserve, .settings, .out] s (reserveEnable s) := by
  unfold reserveEnable
  refine FrameE.ite ?_ ?_
  · exact FrameE.error
  · refine FrameE.ite ?_ ?_
    · refine FrameE.ok ?_
      refine Frame.step (setSetting_frame _ _ _ _) ?_ rfl
      exact Frame.refl _ _
    · dsimp only
      refine FrameE.ok ?_
      refine Frame.step (settleErrors_frame _) ?_ rfl
      refine Frame.ite ?_ ?_
      · refine Frame.step (charge_frame _) ?_ rfl
        refine Frame.upd_reserve ?_ rfl
        refine Frame.step (stopCharge_frame _) ?_ rfl
        refine Frame.step (setSetting_frame _ _ _ _) ?_ rfl
        exact Frame.refl _ _
      · refine Frame.upd_reserve ?_ rfl
        refine Frame.step (stopCharge_frame _) ?_ rfl
        refine Frame.step (setSetting_frame _ _ _ _) ?_ rfl
        exact Frame.refl _ _

theorem dirtyLimitWrite_frame (s : State) (limit : Nat) :
    Frame [.palette, .settings] s (dirtyLimitWrite s limit) := by
  unfold dirtyLimitWrite
  dsimp only
  refine Frame.foldl ?_ ?_
  · intro _ _
    refine Frame.step (palSelect_frame _ _) ?_ rfl
    exact Frame.refl _ _
  · refine Frame.step (setSetting_frame _ _ _ _) ?_ rfl
    exact Frame.refl _ _

theorem reserveDisable_frame (s : State) :
    FrameE [.mgmt, .reserve, .settings, .out] s (reserveDisable s) := by
  unfold reserveDisable
  refine FrameE.ite ?_ ?_
  · exact FrameE.error
  · refine FrameE.ok ?_
    refine Frame.step (settleErrors_frame _) ?_ rfl
    refine Frame.step (stopCharge_frame _) ?_ rfl
    dsimp only
    refine Frame.upd_reserve ?_ rfl
    refine Frame.step (setSetting_frame _ _ _ _) ?_ rfl
    exact Frame.refl _ _

theorem keepForce_frame (s : State) (idx : Nat) (sub : Nat) :
    Frame [.sys] s (keepForce s idx sub) := by
  unfold keepForce
  refine Frame.upd_sys ?_ rfl
  exact Frame.refl _ _

theorem paletteClear_frame (s : State) :
    Frame [.stats] s (paletteClear s) := by
  unfold paletteClear
  refine Frame.step (clearStats_frame _ _ _ _) ?_ rfl
  exact Frame.refl _ _

theorem writeReserve_frame (idx : Nat) (sub : Nat) (v : Int) (s : State) :
    FrameE [.sys, .mgmt, .reserve, .palette, .settings, .stats, .out] s (writeReserve idx sub v s) := by
  unfold writeReserve
  refine FrameE.ite ?_ ?_
  · refine FrameE.step (measureRequest_frame _) ?_ rfl
    exact Frame.refl _ _
  · refine FrameE.ite ?_ ?_
    · refine FrameE.ite ?_ ?_
      · refine FrameE.step (reserveDisable_frame _) ?_ rfl
        exact Frame.refl _ _
      · refine FrameE.step (reserveEnable_frame _) ?_ rfl
        exact Frame.refl _ _
    · refine FrameE.ite ?_ ?_
      · exact FrameE.error
      · refine FrameE.ite ?_ ?_
        · refine FrameE.ok ?_
          refine Frame.step (setSetting_frame _ _ _ _) ?_ rfl
          refine Frame.step (keepForce_frame _ _ _) ?_ rfl
          exact Frame.refl _ _
        · refine FrameE.ite ?_ ?_
          · refine FrameE.ok ?_
            refine Frame.step (dirtyLimitWrite_frame _ _) ?_ rfl
            exact Frame.refl _ _
          · refine FrameE.ite ?_ ?_
            · refine FrameE.ok ?_
              refine Frame.step (paletteClear_frame _) ?_ rfl
              exact Frame.refl _ _
            · refine FrameE.ite ?_ ?_
              · refine FrameE.ok ?_
                refine Frame.step (monitorClear_frame _) ?_ rfl
                exact Frame.refl _ _
              · refine FrameE.ok ?_
                refine Frame.step (setSetting_frame _ _ _ _) ?_ rfl
                exact Frame.refl _ _

theorem glazeResume_frame (s : State) :
    FrameE [.crypt] s (glazeResume s) := by
  unfold glazeResume
  dsimp only
  refine FrameE.ite ?_ ?_
  · exact FrameE.error
  · refine FrameE.ite ?_ ?_
    · refine FrameE.ok ?_
      refine Frame.upd_crypt ?_ rfl
      exact Frame.refl _ _
    · exact FrameE.error

theorem engineStart_frame (s : State) (r : Nat) (kind : Nat) :
    Frame [.crypt] s (engineStart s r kind) := by
  unfold engineStart
  refine Frame.upd_crypt ?_ rfl
  exact Frame.refl _ _

theorem drawKey_frame (s : State) :
    Frame [.draws] s (drawKey s).2 := by
  unfold drawKey
  dsimp only
  refine Frame.step (afterDraw_frame _) ?_ rfl
  exact Frame.refl _ _

theorem glazeStart_frame (s : State) :
    FrameE [.mgmt, .folio, .ledger, .groups, .easel, .crypt, .stats, .draws, .out] s (glazeStart s) := by
  unfold glazeStart
  dsimp only
  refine FrameE.ite ?_ ?_
  · exact FrameE.error
  · refine FrameE.ite ?_ ?_
    · exact FrameE.error
    · refine FrameE.ite ?_ ?_
      · exact FrameE.error
      · refine FrameE.ok ?_
        refine Frame.ite ?_ ?_
        · refine Frame.step (beginFinishing_frame _ _) ?_ rfl
          refine Frame.step (raise_frame _ _ _) ?_ rfl
          refine Frame.step (keyStoreUpdate_frame _) ?_ rfl
          refine Frame.step (engineStart_frame _ _ _) ?_ rfl
          refine Frame.step (modRange_frame _ _ _) ?_ rfl
          refine Frame.ite ?_ ?_
          · refine Frame.step (modRange_frame _ _ _) ?_ rfl
            refine Frame.step (drawKey_frame _) ?_ rfl
            exact Frame.refl _ _
          · exact Frame.refl _ _
        · refine Frame.step (raise_frame _ _ _) ?_ rfl
          refine Frame.step (keyStoreUpdate_frame _) ?_ rfl
          refine Frame.step (engineStart_frame _ _ _) ?_ rfl
          refine Frame.step (modRange_frame _ _ _) ?_ rfl
          refine Frame.ite ?_ ?_
          · refine Frame.step (modRange_frame _ _ _) ?_ rfl
            refine Frame.step (drawKey_frame _) ?_ rfl
            exact Frame.refl _ _
          · exact Frame.refl _ _

theorem glazePause_frame (s : State) :
    FrameE [.crypt] s (glazePause s) := by
  unfold glazePause
  dsimp only
  refine FrameE.ite ?_ ?_
  · exact FrameE.error
  · refine FrameE.ite ?_ ?_
    · refine FrameE.ok ?_
      refine Frame.upd_crypt ?_ rfl
      exact Frame.refl _ _
    · exact FrameE.error

theorem glazeCommand_frame (s : State) (v : Int) :
    FrameE [.mgmt, .folio, .ledger, .groups, .easel, .crypt, .stats, .draws, .out] s (glazeCommand s v) := by
  unfold glazeCommand
  refine FrameE.ite ?_ ?_
  · refine FrameE.step (glazeStart_frame _) ?_ rfl
    exact Frame.refl _ _
  · refine FrameE.ite ?_ ?_
    · refine FrameE.step (glazePause_frame _) ?_ rfl
      exact Frame.refl _ _
    · refine FrameE.step (glazeResume_frame _) ?_ rfl
      exact Frame.refl _ _

theorem glazeClear_frame (s : State) :
    Frame [.stats] s (glazeClear s) := by
  unfold glazeClear
  refine Frame.step (clearStats_frame _ _ _ _) ?_ rfl
  exact Frame.refl _ _

theorem discardNext_frame (s : State) (r : Nat) :
    FrameE [.folio, .crypt] s (discardNext s r) := by
  unfold discardNext
  refine FrameE.ite ?_ ?_
  · exact FrameE.error
  · refine FrameE.ok ?_
    refine Frame.step (keyStoreUpdate_frame _) ?_ rfl
    refine Frame.step (modRange_frame _ _ _) ?_ rfl
    exact Frame.refl _ _

theorem discardRange_frame (s : State) (r : Nat) :
    Frame [.mgmt, .folio, .ledger, .reserve, .ports, .groups, .easel, .palette, .directory, .queues, .barrow, .perf, .stats, .out] s (discardRange s r) := by
  unfold discardRange
  dsimp only
  refine Frame.step (settleFlush_frame _) ?_ rfl
  refine Frame.step (settleAcks_frame _) ?_ rfl
  refine Frame.step (deliverAll_frame _ _ _ _) ?_ rfl
  refine Frame.foldl ?_ ?_
  · intro _ _
    refine Frame.step (deliverAck_frame _ _) ?_ rfl
    exact Frame.refl _ _
  · refine Frame.foldl ?_ ?_
    · intro _ _
      refine Frame.step (modPort_frame _ _ _) ?_ rfl
      exact Frame.refl _ _
    · refine Frame.upd_easel ?_ rfl
      refine Frame.foldl ?_ ?_
      · intro _ _
        refine Frame.step (modGroup_frame _ _ _) ?_ rfl
        exact Frame.refl _ _
      · refine Frame.step (deviceFree_frame _ _) ?_ rfl
        refine Frame.foldl ?_ ?_
        · intro _ _
          refine Frame.ite ?_ ?_
          · refine Frame.step (poisonRemove_frame _ _) ?_ rfl
            exact Frame.refl _ _
          · exact Frame.refl _ _
        · refine Frame.upd_easel_palette ?_ rfl
          refine Frame.foldl ?_ ?_
          · intro _ _
            refine Frame.step (modLine_frame _ _ _) ?_ rfl
            refine Frame.step (setMerge_frame _ _ _) ?_ rfl
            refine Frame.step (destageRemove_frame _ _) ?_ rfl
            refine Frame.step (chargeLine_frame _ _ _ _) ?_ rfl
            exact Frame.refl _ _
          · exact Frame.refl _ _

theorem startOpening_frame (s : State) (r : Nat) :
    Frame [.folio, .crypt, .draws] s (startOpening s r) := by
  unfold startOpening
  dsimp only
  refine Frame.step (keyStoreUpdate_frame _) ?_ rfl
  refine Frame.ite ?_ ?_
  · refine Frame.step (engineStart_frame _ _ _) ?_ rfl
    refine Frame.ite ?_ ?_
    · refine Frame.step (modRange_frame _ _ _) ?_ rfl
      refine Frame.step (drawKey_frame _) ?_ rfl
      exact Frame.refl _ _
    · refine Frame.step (modRange_frame _ _ _) ?_ rfl
      exact Frame.refl _ _
  · refine Frame.upd_crypt ?_ rfl
    refine Frame.ite ?_ ?_
    · refine Frame.step (modRange_frame _ _ _) ?_ rfl
      refine Frame.step (drawKey_frame _) ?_ rfl
      exact Frame.refl _ _
    · refine Frame.step (modRange_frame _ _ _) ?_ rfl
      exact Frame.refl _ _

theorem rangeErase_frame (s : State) (r : Nat) :
    FrameE [.mgmt, .folio, .ledger, .reserve, .ports, .groups, .easel, .palette, .crypt, .directory, .queues, .barrow, .perf, .stats, .draws, .out] s (rangeErase s r) := by
  unfold rangeErase
  dsimp only
  split
  · exact FrameE.error
  · refine FrameE.ite ?_ ?_
    · refine FrameE.ok ?_
      refine Frame.step (startOpening_frame _ _) ?_ rfl
      refine Frame.step (modRange_frame _ _ _) ?_ rfl
      refine Frame.step (discardRange_frame _ _) ?_ rfl
      exact Frame.refl _ _
    · exact FrameE.error

theorem rangeClose_frame (s : State) (r : Nat) :
    FrameE [.groups, .easel, .crypt, .stats] s (rangeClose s r) := by
  unfold rangeClose
  dsimp only
  split
  · exact FrameE.error
  · refine FrameE.ite ?_ ?_
    · refine FrameE.ok ?_
      refine Frame.foldl ?_ ?_
      · intro _ _
        refine Frame.step (destageSelect_frame _ _ _ _) ?_ rfl
        exact Frame.refl _ _
      · refine Frame.step (modRange_frame _ _ _) ?_ rfl
        exact Frame.refl _ _
    · exact FrameE.error

theorem rangeOpen_frame (s : State) (r : Nat) :
    FrameE [.folio, .crypt, .draws] s (rangeOpen s r) := by
  unfold rangeOpen
  split
  · exact FrameE.error
  · refine FrameE.ite ?_ ?_
    · refine FrameE.ok ?_
      refine Frame.step (keyStoreUpdate_frame _) ?_ rfl
      refine Frame.step (modRange_frame _ _ _) ?_ rfl
      exact Frame.refl _ _
    · refine FrameE.ite ?_ ?_
      · refine FrameE.ok ?_
        refine Frame.step (startOpening_frame _ _) ?_ rfl
        exact Frame.refl _ _
      · exact FrameE.error

theorem rangeCommand_frame (s : State) (r : Nat) (v : Int) :
    FrameE [.mgmt, .folio, .ledger, .reserve, .ports, .groups, .easel, .palette, .crypt, .directory, .queues, .barrow, .perf, .stats, .draws, .out] s (rangeCommand s r v) := by
  unfold rangeCommand
  refine FrameE.ite ?_ ?_
  · refine FrameE.step (rangeOpen_frame _ _) ?_ rfl
    exact Frame.refl _ _
  · refine FrameE.ite ?_ ?_
    · refine FrameE.step (rangeClose_frame _ _) ?_ rfl
      exact Frame.refl _ _
    · refine FrameE.step (rangeErase_frame _ _) ?_ rfl
      exact Frame.refl _ _

theorem installationRewrap_frame (s : State) (wrapped : List Byte) :
    FrameE [.mgmt, .folio, .ledger, .crypt, .stats, .out] s (installationRewrap s wrapped) := by
  unfold installationRewrap
  refine FrameE.ite ?_ ?_
  · exact FrameE.error
  · refine FrameE.ite ?_ ?_
    · exact FrameE.error
    · dsimp only
      split
      · exact FrameE.error
      · refine FrameE.ok ?_
        refine Frame.step (raise_frame _ _ _) ?_ rfl
        refine Frame.step (keyStoreUpdate_frame _) ?_ rfl
        refine Frame.upd_crypt ?_ rfl
        exact Frame.refl _ _

theorem installationKey_frame (s : State) (key : List Byte) :
    FrameE [.mgmt, .folio, .ledger, .crypt, .stats, .out] s (installationKey s key) := by
  unfold installationKey
  refine FrameE.ite ?_ ?_
  · exact FrameE.error
  · refine FrameE.ite ?_ ?_
    · exact FrameE.error
    · refine FrameE.ok ?_
      refine Frame.step (raise_frame _ _ _) ?_ rfl
      refine Frame.step (keyStoreUpdate_frame _) ?_ rfl
      refine Frame.upd_crypt ?_ rfl
      exact Frame.refl _ _

theorem writeCrypt_frame (idx : Nat) (sub : Nat) (data : List Byte) (v : Int) (s : State) :
    FrameE [.mgmt, .folio, .ledger, .reserve, .ports, .groups, .easel, .palette, .crypt, .directory, .queues, .barrow, .perf, .settings, .stats, .draws, .out] s (writeCrypt idx sub data v s) := by
  unfold writeCrypt
  refine FrameE.ite ?_ ?_
  · refine FrameE.ok ?_
    refine Frame.step (cryptClear_frame _) ?_ rfl
    exact Frame.refl _ _
  · refine FrameE.ite ?_ ?_
    · refine FrameE.step (rangeCommand_frame _ _ _) ?_ rfl
      exact Frame.refl _ _
    · refine FrameE.ite ?_ ?_
      · refine FrameE.step (installationKey_frame _ _) ?_ rfl
        exact Frame.refl _ _
      · refine FrameE.ite ?_ ?_
        · refine FrameE.step (installationRewrap_frame _ _) ?_ rfl
          exact Frame.refl _ _
        · refine FrameE.ite ?_ ?_
          · refine FrameE.step (discardNext_frame _ _) ?_ rfl
            exact Frame.refl _ _
          · refine FrameE.ite ?_ ?_
            · refine FrameE.step (glazeCommand_frame _ _) ?_ rfl
              exact Frame.refl _ _
            · refine FrameE.ite ?_ ?_
              · refine FrameE.ok ?_
                refine Frame.step (glazeClear_frame _) ?_ rfl
                exact Frame.refl _ _
              · refine FrameE.ok ?_
                refine Frame.step (setSetting_frame _ _ _ _) ?_ rfl
                exact Frame.refl _ _

theorem pdoWrite_frame (s : State) (idx : Nat) (sub : Nat) (v : Int) :
    FrameE [.settings] s (pdoWrite s idx sub v) := by
  unfold pdoWrite
  dsimp only
  refine FrameE.ite ?_ ?_
  · exact FrameE.error
  · refine FrameE.ite ?_ ?_
    · refine FrameE.ok ?_
      refine Frame.step (setSetting_frame _ _ _ _) ?_ rfl
      exact Frame.refl _ _
    · refine FrameE.ite ?_ ?_
      · exact FrameE.error
      · refine FrameE.ite ?_ ?_
        · exact FrameE.error
        · refine FrameE.ok ?_
          refine Frame.step (setSetting_frame _ _ _ _) ?_ rfl
          exact Frame.refl _ _

theorem sectionUpdate_frame (s : State) (k : Nat) :
    Frame [.folio] s (sectionUpdate s k) := by
  unfold sectionUpdate
  refine Frame.step (sectionUpdateIn_frame _ _ _) ?_ rfl
  exact Frame.refl _ _

theorem storeParameters_frame (s : State) (sess : Nat) :
    Frame [.mgmt, .folio, .ledger, .stats, .out] s (storeParameters s sess) := by
  unfold storeParameters
  dsimp only
  refine Frame.step (raise_frame _ _ _) ?_ rfl
  refine Frame.foldl ?_ ?_
  · intro _ _
    refine Frame.step (sectionUpdate_frame _ _) ?_ rfl
    exact Frame.refl _ _
  · exact Frame.refl _ _

theorem storeWrite_frame (s : State) (n : Nat) (v : Int) :
    FrameE [.mgmt, .folio, .ledger, .stats, .out] s (storeWrite s n v) := by
  unfold storeWrite
  refine FrameE.ite ?_ ?_
  · refine FrameE.ok ?_
    refine Frame.step (storeParameters_frame _ _) ?_ rfl
    exact Frame.refl _ _
  · exact FrameE.error

theorem restoreDefaults_frame (s : State) :
    Frame [.folio] s (restoreDefaults s) := by
  unfold restoreDefaults
  refine Frame.step (sectionUpdateIn_frame _ _ _) ?_ rfl
  refine Frame.step (imageStore_frame _ _ _) ?_ rfl
  exact Frame.refl _ _

theorem restoreWrite_frame (s : State) (v : Int) :
    FrameE [.folio] s (restoreWrite s v) := by
  unfold restoreWrite
  refine FrameE.ite ?_ ?_
  · refine FrameE.ok ?_
    refine Frame.step (restoreDefaults_frame _) ?_ rfl
    exact Frame.refl _ _
  · exact FrameE.error

theorem discardSet_frame (s : State) (n : Nat) :
    Frame [.mgmt] s (discardSet s n) := by
  unfold discardSet
  refine Frame.step (modSession_frame _ _ _) ?_ rfl
  exact Frame.refl _ _

theorem emcyNext_frame (s : State) :
    Frame [.mgmt, .out] s (emcyNext s) := by
  unfold emcyNext
  refine Frame.ite ?_ ?_
  · dsimp only
    split
    · refine Frame.step (emcySend_frame _ _) ?_ rfl
      refine Frame.upd_mgmt ?_ rfl
      exact Frame.refl _ _
    · exact Frame.refl _ _
  · exact Frame.refl _ _

theorem emcyDrain_frame (s : State) :
    Frame [.mgmt, .out] s (emcyDrain s) := by
  unfold emcyDrain
  refine Frame.foldl ?_ ?_
  · intro _ _
    refine Frame.step (emcyNext_frame _) ?_ rfl
    exact Frame.refl _ _
  · exact Frame.refl _ _

theorem levelRequest_frame (s : State) (via : Via) (n : Nat) (data : List Byte) :
    FrameE [.mgmt, .folio, .ledger, .stats, .out] s (levelRequest s via n data) := by
  unfold levelRequest
  dsimp only
  refine FrameE.ite ?_ ?_
  · refine FrameE.ok ?_
    refine Frame.step (modSession_frame _ _ _) ?_ rfl
    exact Frame.refl _ _
  · refine FrameE.ite ?_ ?_
    · exact FrameE.error
    · refine FrameE.ite ?_ ?_
      · exact FrameE.error
      · refine FrameE.ite ?_ ?_
        · exact FrameE.error
        · refine FrameE.ite ?_ ?_
          · exact FrameE.error
          · refine FrameE.ite ?_ ?_
            · refine FrameE.ok ?_
              refine Frame.step (raise_frame _ _ _) ?_ rfl
              refine Frame.step (modSession_frame _ _ _) ?_ rfl
              exact Frame.refl _ _
            · refine FrameE.ok ?_
              refine Frame.step (modSession_frame _ _ _) ?_ rfl
              exact Frame.refl _ _

theorem historyClear_frame (s : State) :
    Frame [.mgmt] s (historyClear s) := by
  unfold historyClear
  refine Frame.upd_mgmt ?_ rfl
  exact Frame.refl _ _

theorem managementClear_frame (s : State) :
    Frame [.stats] s (managementClear s) := by
  unfold managementClear
  refine Frame.step (clearStats_frame _ _ _ _) ?_ rfl
  refine Frame.step (clearStats_frame _ _ _ _) ?_ rfl
  exact Frame.refl _ _

theorem writeManagement_frame (via : Via) (idx : Nat) (sub : Nat) (data : List Byte) (v : Int) (n : Nat) (s : State) :
    FrameE [.sys, .mgmt, .folio, .ledger, .groups, .crypt, .directory, .path, .settings, .stats, .out] s (writeManagement via idx sub data v n s) := by
  unfold writeManagement
  refine FrameE.ite ?_ ?_
  · refine FrameE.ok ?_
    refine Frame.step (historyClear_frame _) ?_ rfl
    exact Frame.refl _ _
  · refine FrameE.ite ?_ ?_
    · refine FrameE.step (storeWrite_frame _ _ _) ?_ rfl
      exact Frame.refl _ _
    · refine FrameE.ite ?_ ?_
      · refine FrameE.step (restoreWrite_frame _ _) ?_ rfl
        exact Frame.refl _ _
      · refine FrameE.ite ?_ ?_
        · refine FrameE.ok ?_
          refine Frame.step (settleErrors_frame _) ?_ rfl
          dsimp only
          refine Frame.upd_mgmt ?_ rfl
          refine Frame.step (setSetting_frame _ _ _ _) ?_ rfl
          exact Frame.refl _ _
        · refine FrameE.ite ?_ ?_
          · refine FrameE.step (pdoWrite_frame _ _ _ _) ?_ rfl
            exact Frame.refl _ _
          · refine FrameE.ite ?_ ?_
            · refine FrameE.ok ?_
              refine Frame.step (emcyDrain_frame _) ?_ rfl
              refine Frame.step (setSetting_frame _ _ _ _) ?_ rfl
              exact Frame.refl _ _
            · refine FrameE.ite ?_ ?_
              · refine FrameE.step (levelRequest_frame _ _ _ _) ?_ rfl
                exact Frame.refl _ _
              · refine FrameE.ite ?_ ?_
                · refine FrameE.ite ?_ ?_
                  · refine FrameE.step (commitSet_frame _ _) ?_ rfl
                    exact Frame.refl _ _
                  · refine FrameE.ok ?_
                    refine Frame.step (discardSet_frame _ _) ?_ rfl
                    exact Frame.refl _ _
                · refine FrameE.ite ?_ ?_
                  · refine FrameE.ok ?_
                    refine Frame.step (modSession_frame _ _ _) ?_ rfl
                    exact Frame.refl _ _
                  · refine FrameE.ite ?_ ?_
                    · refine FrameE.ok ?_
                      refine Frame.step (managementClear_frame _) ?_ rfl
                      exact Frame.refl _ _
                    · refine FrameE.ok ?_
                      refine Frame.step (setSetting_frame _ _ _ _) ?_ rfl
                      exact Frame.refl _ _

theorem mrRead_frame (s : State) (r : Nat) (temperature : Byte) (verified : Bool) :
    FrameE [.channels, .settings, .stats] s (mrRead s r temperature verified) := by
  unfold mrRead
  dsimp only
  refine FrameE.ite ?_ ?_
  · exact FrameE.error
  · refine FrameE.ite ?_ ?_
    · refine FrameE.ok ?_
      refine Frame.step (setStat_frame _ _ _ _) ?_ rfl
      refine Frame.ite ?_ ?_
      · refine Frame.step (setModeReg_frame _ _ _ _) ?_ rfl
        refine Frame.step (setSetting_frame _ _ _ _) ?_ rfl
        exact Frame.refl _ _
      · refine Frame.step (setSetting_frame _ _ _ _) ?_ rfl
        exact Frame.refl _ _
    · refine FrameE.ok ?_
      refine Frame.step (channelError_frame _ _) ?_ rfl
      refine Frame.step (bump_frame _ _ _ _) ?_ rfl
      refine Frame.ite ?_ ?_
      · refine Frame.step (setModeReg_frame _ _ _ _) ?_ rfl
        refine Frame.step (setSetting_frame _ _ _ _) ?_ rfl
        exact Frame.refl _ _
      · refine Frame.step (setSetting_frame _ _ _ _) ?_ rfl
        exact Frame.refl _ _

theorem returnChannel_frame (s : State) (ch : Nat) :
    FrameE [.channels] s (returnChannel s ch) := by
  unfold returnChannel
  refine FrameE.ite ?_ ?_
  · exact FrameE.error
  · refine FrameE.ite ?_ ?_
    · exact FrameE.error
    · refine FrameE.ite ?_ ?_
      · exact FrameE.error
      · refine FrameE.ok ?_
        refine Frame.step (modChannel_frame _ _ _) ?_ rfl
        refine Frame.step (stackReset_frame _ _) ?_ rfl
        exact Frame.refl _ _

theorem markChannel_frame (s : State) (ch : Nat) :
    FrameE [.sys, .mgmt, .folio, .ledger, .channels, .ports, .groups, .easel, .palette, .directory, .queues, .barrow, .perf, .stats, .out] s (markChannel s ch) := by
  unfold markChannel
  refine FrameE.ite ?_ ?_
  · exact FrameE.error
  · refine FrameE.ite ?_ ?_
    · exact FrameE.error
    · refine FrameE.ok ?_
      refine Frame.step (markFailed_frame _ _ _) ?_ rfl
      exact Frame.refl _ _

theorem retouchClear_frame (s : State) :
    Frame [.stats] s (retouchClear s) := by
  unfold retouchClear
  refine Frame.step (clearStatsAt_frame _ _ _ _ _) ?_ rfl
  refine Frame.step (clearStatsAt_frame _ _ _ _ _) ?_ rfl
  exact Frame.refl _ _

theorem writeMedia_frame (idx : Nat) (sub : Nat) (v : Int) (s : State) :
    FrameE [.sys, .mgmt, .folio, .ledger, .channels, .ports, .groups, .easel, .palette, .directory, .queues, .barrow, .perf, .path, .settings, .stats, .out] s (writeMedia idx sub v s) := by
  unfold writeMedia
  refine FrameE.ite ?_ ?_
  · refine FrameE.ok ?_
    refine Frame.step (retouchClear_frame _) ?_ rfl
    exact Frame.refl _ _
  · refine FrameE.ite ?_ ?_
    · exact FrameE.error
    · refine FrameE.ite ?_ ?_
      · refine FrameE.ok ?_
        refine Frame.step (setSetting_frame _ _ _ _) ?_ rfl
        refine Frame.step (keepForce_frame _ _ _) ?_ rfl
        exact Frame.refl _ _
      · refine FrameE.ite ?_ ?_
        · refine FrameE.ok ?_
          refine Frame.step (alertThreshold_frame _ _) ?_ rfl
          exact Frame.refl _ _
        · refine FrameE.ite ?_ ?_
          · refine FrameE.step (markChannel_frame _ _) ?_ rfl
            exact Frame.refl _ _
          · refine FrameE.ite ?_ ?_
            · refine FrameE.step (returnChannel_frame _ _) ?_ rfl
              exact Frame.refl _ _
            · refine FrameE.ite ?_ ?_
              · refine FrameE.ok ?_
                refine Frame.step (channelClear_frame _) ?_ rfl
                exact Frame.refl _ _
              · refine FrameE.ite ?_ ?_
                · refine FrameE.step (mrRead_frame _ _ _ _) ?_ rfl
                  refine Frame.step (afterOutside_frame _) ?_ rfl
                  exact Frame.refl _ _
                · refine FrameE.ite ?_ ?_
                  · refine FrameE.ok ?_
                    refine Frame.step (arbiterClear_frame _) ?_ rfl
                    exact Frame.refl _ _
                  · refine FrameE.ok ?_
                    refine Frame.step (setSetting_frame _ _ _ _) ?_ rfl
                    exact Frame.refl _ _

theorem railWrite_frame (idx : Nat) (sub : Nat) (v : Int) (s : State) :
    FrameE [.settings] s (railWrite idx sub v s) := by
  unfold railWrite
  dsimp only
  refine FrameE.ite ?_ ?_
  · exact FrameE.error
  · refine FrameE.ite ?_ ?_
    · exact FrameE.error
    · refine FrameE.ok ?_
      refine Frame.step (setSetting_frame _ _ _ _) ?_ rfl
      exact Frame.refl _ _

theorem restartRequest_frame (s : State) :
    FrameE [.sys, .mgmt, .folio, .ledger, .power, .reserve, .thermal, .channels, .groups, .barrow, .stats, .out] s (restartRequest s) := by
  unfold restartRequest
  refine FrameE.ite ?_ ?_
  · refine FrameE.ok ?_
    refine Frame.step (enterWarn_frame _ _) ?_ rfl
    exact Frame.refl _ _
  · exact FrameE.error

theorem releaseLockout_frame (s : State) :
    Frame [.power] s (releaseLockout s) := by
  unfold releaseLockout
  refine Frame.upd_power ?_ rfl
  exact Frame.refl _ _

theorem pmbusLost_frame (s : State) (r : Nat) :
    Frame [.mgmt, .folio, .ledger, .power, .stats, .out] s (pmbusLost s r) := by
  unfold pmbusLost
  refine Frame.ite ?_ ?_
  · exact Frame.refl _ _
  · dsimp only
    refine Frame.step (raise_frame _ _ _) ?_ rfl
    refine Frame.step (bump_frame _ _ _ _) ?_ rfl
    refine Frame.step (setStat_frame _ _ _ _) ?_ rfl
    refine Frame.step (setStat_frame _ _ _ _) ?_ rfl
    refine Frame.step (setStat_frame _ _ _ _) ?_ rfl
    refine Frame.step (modRail_frame _ _ _) ?_ rfl
    exact Frame.refl _ _

theorem marginCommand_frame (s : State) (mode : Nat) (acknowledged : Bool) :
    FrameE [.mgmt, .folio, .ledger, .power, .stats, .out] s (marginCommand s mode acknowledged) := by
  unfold marginCommand
  dsimp only
  refine FrameE.ite ?_ ?_
  · exact FrameE.error
  · refine FrameE.ite ?_ ?_
    · exact FrameE.error
    · refine FrameE.ite ?_ ?_
      · refine FrameE.ite ?_ ?_
        · refine FrameE.ok ?_
          refine Frame.upd_power ?_ rfl
          refine Frame.step (emit_frame _ _) ?_ rfl
          exact Frame.refl _ _
        · refine FrameE.ok ?_
          refine Frame.upd_power ?_ rfl
          refine Frame.step (emit_frame _ _) ?_ rfl
          refine Frame.step (emit_frame _ _) ?_ rfl
          exact Frame.refl _ _
      · refine FrameE.ok ?_
        refine Frame.step (pmbusLost_frame _ _) ?_ rfl
        exact Frame.refl _ _

theorem pathTestTile_frame (g : Nat) (p : Nat) (s : State) (slot : Nat) :
    Frame [.sys, .folio, .groups, .path, .stats] s (pathTestTile g p s slot) := by
  unfold pathTestTile
  dsimp only
  refine Frame.step (filterMark_frame _ _ _ _) ?_ rfl
  refine Frame.step (countProgram_frame _ _) ?_ rfl
  refine Frame.foldl ?_ ?_
  · intro _ _
    refine Frame.upd_path ?_ rfl
    refine Frame.step (bump_frame _ _ _ _) ?_ rfl
    refine Frame.step (storePatch_frame _ _ _ _) ?_ rfl
    exact Frame.refl _ _
  · exact Frame.refl _ _

theorem selfTest_frame (s : State) (results : Nat) (fencing : Bool) :
    Frame [.sys, .mgmt, .folio, .ledger, .ports, .groups, .easel, .palette, .directory, .queues, .barrow, .perf, .path, .stats, .out] s (selfTest s results fencing) := by
  unfold selfTest
  dsimp only
  refine Frame.ite ?_ ?_
  · refine Frame.foldl ?_ ?_
    · intro _ _
      refine Frame.step (fenceGroup_frame _ _) ?_ rfl
      exact Frame.refl _ _
    · refine Frame.ite ?_ ?_
      · refine Frame.upd_sys ?_ rfl
        refine Frame.foldl ?_ ?_
        · intro _ _
          refine Frame.foldl ?_ ?_
          · intro _ _
            refine Frame.step (pathTestTile_frame _ _ _ _) ?_ rfl
            exact Frame.refl _ _
          · exact Frame.refl _ _
        · exact Frame.refl _ _
      · refine Frame.step (raise_frame _ _ _) ?_ rfl
        refine Frame.upd_sys ?_ rfl
        refine Frame.foldl ?_ ?_
        · intro _ _
          refine Frame.foldl ?_ ?_
          · intro _ _
            refine Frame.step (pathTestTile_frame _ _ _ _) ?_ rfl
            exact Frame.refl _ _
          · exact Frame.refl _ _
        · exact Frame.refl _ _
  · refine Frame.ite ?_ ?_
    · refine Frame.upd_sys ?_ rfl
      refine Frame.foldl ?_ ?_
      · intro _ _
        refine Frame.foldl ?_ ?_
        · intro _ _
          refine Frame.step (pathTestTile_frame _ _ _ _) ?_ rfl
          exact Frame.refl _ _
        · exact Frame.refl _ _
      · exact Frame.refl _ _
    · refine Frame.step (raise_frame _ _ _) ?_ rfl
      refine Frame.upd_sys ?_ rfl
      refine Frame.foldl ?_ ?_
      · intro _ _
        refine Frame.foldl ?_ ?_
        · intro _ _
          refine Frame.step (pathTestTile_frame _ _ _ _) ?_ rfl
          exact Frame.refl _ _
        · exact Frame.refl _ _
      · exact Frame.refl _ _

theorem selfTestRequest_frame (s : State) (results : Nat) :
    FrameE [.sys, .mgmt, .folio, .ledger, .ports, .groups, .easel, .palette, .directory, .queues, .barrow, .perf, .path, .stats, .out] s (selfTestRequest s results) := by
  unfold selfTestRequest
  refine FrameE.ite ?_ ?_
  · refine FrameE.ok ?_
    refine Frame.step (selfTest_frame _ _ _) ?_ rfl
    exact Frame.refl _ _
  · exact FrameE.error

theorem supervisionClear_frame (s : State) :
    Frame [.stats] s (supervisionClear s) := by
  unfold supervisionClear
  dsimp only
  refine Frame.step (clearStatsAt_frame _ _ _ _ _) ?_ rfl
  refine Frame.step (clearStatsAt_frame _ _ _ _ _) ?_ rfl
  refine Frame.step (clearStatsAt_frame _ _ _ _ _) ?_ rfl
  refine Frame.foldl ?_ ?_
  · intro _ _
    refine Frame.step (setStat_frame _ _ _ _) ?_ rfl
    exact Frame.refl _ _
  · exact Frame.refl _ _

theorem domainStageA_frame (s : State) (k : Nat) :
    Frame [.power] s (domainStageA s k) := by
  unfold domainStageA
  dsimp only
  refine Frame.step (railEnable_frame _ _) ?_ rfl
  refine Frame.step (railEnable_frame _ _) ?_ rfl
  refine Frame.step (modDomain_frame _ _ _) ?_ rfl
  exact Frame.refl _ _

theorem domainRestart_frame (s : State) (k : Nat) :
    FrameE [.power] s (domainRestart s k) := by
  unfold domainRestart
  refine FrameE.ite ?_ ?_
  · exact FrameE.error
  · refine FrameE.ite ?_ ?_
    · exact FrameE.error
    · refine FrameE.ok ?_
      refine Frame.step (domainStageA_frame _ _) ?_ rfl
      refine Frame.step (modDomain_frame _ _ _) ?_ rfl
      exact Frame.refl _ _

theorem writePower_frame (idx : Nat) (sub : Nat) (v : Int) (s : State) :
    FrameE [.sys, .mgmt, .folio, .ledger, .power, .reserve, .thermal, .channels, .ports, .groups, .easel, .palette, .directory, .queues, .barrow, .perf, .path, .settings, .stats, .out] s (writePower idx sub v s) := by
  unfold writePower
  refine FrameE.ite ?_ ?_
  · refine FrameE.ok ?_
    refine Frame.step (releaseLockout_frame _) ?_ rfl
    exact Frame.refl _ _
  · refine FrameE.ite ?_ ?_
    · refine FrameE.ok ?_
      refine Frame.step (supervisionClear_frame _) ?_ rfl
      exact Frame.refl _ _
    · refine FrameE.ite ?_ ?_
      · refine FrameE.step (marginCommand_frame _ _ _) ?_ rfl
        refine Frame.step (afterOutside_frame _) ?_ rfl
        exact Frame.refl _ _
      · refine FrameE.ite ?_ ?_
        · refine FrameE.step (railWrite_frame _ _ _ _) ?_ rfl
          exact Frame.refl _ _
        · refine FrameE.ite ?_ ?_
          · refine FrameE.step (domainRestart_frame _ _) ?_ rfl
            exact Frame.refl _ _
          · refine FrameE.ite ?_ ?_
            · exact FrameE.error
            · refine FrameE.ite ?_ ?_
              · refine FrameE.step (restartRequest_frame _) ?_ rfl
                exact Frame.refl _ _
              · refine FrameE.ite ?_ ?_
                · refine FrameE.step (selfTestRequest_frame _ _) ?_ rfl
                  refine Frame.step (afterOutside_frame _) ?_ rfl
                  exact Frame.refl _ _
                · refine FrameE.ok ?_
                  refine Frame.step (setSetting_frame _ _ _ _) ?_ rfl
                  exact Frame.refl _ _

theorem flushRequest_frame (s : State) :
    FrameE [.groups, .easel, .stats] s (flushRequest s) := by
  unfold flushRequest
  refine FrameE.ite ?_ ?_
  · exact FrameE.error
  · dsimp only
    refine FrameE.ok ?_
    refine Frame.foldl ?_ ?_
    · intro _ _
      refine Frame.step (destageSelect_frame _ _ _ _) ?_ rfl
      exact Frame.refl _ _
    · refine Frame.upd_easel ?_ rfl
      exact Frame.refl _ _

theorem translateWrite_frame (s : State) (dpa : Nat) : FrameE [.path, .settings] s (translateWrite s dpa) := by
  unfold translateWrite
  generalize translation s dpa = r
  cases r with
  | none => exact FrameE.error
  | some r =>
    refine FrameE.ok ?_
    exact Frame.step (setSetting_frame _ _ _ _) (Frame.upd_path (Frame.refl _ _) rfl) rfl

theorem easelClear_frame (s : State) :
    Frame [.stats] s (easelClear s) := by
  unfold easelClear
  refine Frame.step (clearStats_frame _ _ _ _) ?_ rfl
  refine Frame.step (clearStats_frame _ _ _ _) ?_ rfl
  exact Frame.refl _ _

theorem keepSwap_frame (s : State) :
    Frame [.sys] s (keepSwap s) := by
  unfold keepSwap
  refine Frame.upd_sys ?_ rfl
  exact Frame.refl _ _

theorem writeMapping_frame (idx : Nat) (sub : Nat) (v : Int) (s : State) :
    FrameE [.sys, .groups, .easel, .path, .settings, .stats] s (writeMapping idx sub v s) := by
  unfold writeMapping
  refine FrameE.ite ?_ ?_
  · refine FrameE.ok ?_
    refine Frame.step (codecClear_frame _) ?_ rfl
    exact Frame.refl _ _
  · refine FrameE.ite ?_ ?_
    · exact FrameE.error
    · refine FrameE.ite ?_ ?_
      · refine FrameE.step (translateWrite_frame _ _) ?_ rfl
        exact Frame.refl _ _
      · refine FrameE.ite ?_ ?_
        · refine FrameE.ok ?_
          refine Frame.step (setSetting_frame _ _ _ _) ?_ rfl
          refine Frame.step (keepSwap_frame _) ?_ rfl
          exact Frame.refl _ _
        · refine FrameE.ite ?_ ?_
          · refine FrameE.ok ?_
            refine Frame.step (setSetting_frame _ _ _ _) ?_ rfl
            refine Frame.step (keepForce_frame _ _ _) ?_ rfl
            exact Frame.refl _ _
          · refine FrameE.ite ?_ ?_
            · refine FrameE.step (flushRequest_frame _) ?_ rfl
              exact Frame.refl _ _
            · refine FrameE.ite ?_ ?_
              · refine FrameE.ok ?_
                refine Frame.step (easelClear_frame _) ?_ rfl
                exact Frame.refl _ _
              · refine FrameE.ok ?_
                refine Frame.step (setSetting_frame _ _ _ _) ?_ rfl
                exact Frame.refl _ _

theorem telemetryPointer_frame (s : State) (c : Nat) (v : Nat) :
    FrameE [.barrow] s (telemetryPointer s c v) := by
  unfold telemetryPointer
  refine FrameE.ite ?_ ?_
  · exact FrameE.error
  · refine FrameE.ite ?_ ?_
    · exact FrameE.error
    · refine FrameE.ok ?_
      refine Frame.step (modBarrow_frame _ _ _) ?_ rfl
      exact Frame.refl _ _

theorem shadowCommit_frame (s : State) (c : Nat) :
    Frame [.barrow] s (shadowCommit s c) := by
  unfold shadowCommit
  refine Frame.step (modBarrow_frame _ _ _) ?_ rfl
  exact Frame.refl _ _

theorem writeBarrow_frame (c : Nat) (idx : Nat) (sub : Nat) (v : Int) (s : State) :
    FrameE [.mgmt, .folio, .ledger, .barrow, .settings, .stats, .out] s (writeBarrow c idx sub v s) := by
  unfold writeBarrow
  refine FrameE.ite ?_ ?_
  · refine FrameE.ite ?_ ?_
    · exact FrameE.error
    · refine FrameE.ok ?_
      refine Frame.step (setSetting_frame _ _ _ _) ?_ rfl
      exact Frame.refl _ _
  · refine FrameE.ite ?_ ?_
    · refine FrameE.ok ?_
      refine Frame.step (modBarrow_frame _ _ _) ?_ rfl
      exact Frame.refl _ _
    · refine FrameE.ite ?_ ?_
      · refine FrameE.ok ?_
        refine Frame.step (shadowCommit_frame _ _) ?_ rfl
        exact Frame.refl _ _
      · refine FrameE.ite ?_ ?_
        · refine FrameE.ite ?_ ?_
          · refine FrameE.step (channelStart_frame _ _) ?_ rfl
            exact Frame.refl _ _
          · refine FrameE.step (channelAbort_frame _ _) ?_ rfl
            exact Frame.refl _ _
        · refine FrameE.ite ?_ ?_
          · refine FrameE.ok ?_
            refine Frame.step (causeClear_frame _ _ _) ?_ rfl
            exact Frame.refl _ _
          · refine FrameE.ite ?_ ?_
            · refine FrameE.step (telemetryPointer_frame _ _ _) ?_ rfl
              exact Frame.refl _ _
            · refine FrameE.ok ?_
              refine Frame.step (setSetting_frame _ _ _ _) ?_ rfl
              exact Frame.refl _ _

theorem discardRequests_frame (s : State) (p : Nat) :
    Frame [.ports, .easel, .directory, .perf] s (discardRequests s p) := by
  unfold discardRequests
  dsimp only
  refine Frame.foldl ?_ ?_
  · intro _ _
    refine Frame.step (modPort_frame _ _ _) ?_ rfl
    exact Frame.refl _ _
  · refine Frame.upd_easel_directory_perf ?_ rfl
    exact Frame.refl _ _

theorem portCleared_frame (s : State) (p : Nat) :
    Frame [.mgmt, .folio, .ledger, .reserve, .ports, .groups, .easel, .palette, .directory, .queues, .barrow, .perf, .stats, .out] s (portCleared s p) := by
  unfold portCleared
  dsimp only
  refine Frame.step (releaseSession_frame _ _) ?_ rfl
  refine Frame.step (clearPresence_frame _ _) ?_ rfl
  refine Frame.step (discardRequests_frame _ _) ?_ rfl
  refine Frame.step (modPort_frame _ _ _) ?_ rfl
  exact Frame.refl _ _

theorem portDown_frame (s : State) (p : Nat) (state : Nat) (requested : Bool) :
    Frame [.mgmt, .folio, .ledger, .reserve, .ports, .groups, .easel, .palette, .directory, .queues, .barrow, .perf, .stats, .out] s (portDown s p state requested) := by
  unfold portDown
  dsimp only
  refine Frame.ite ?_ ?_
  · refine Frame.step (modPort_frame _ _ _) ?_ rfl
    exact Frame.refl _ _
  · refine Frame.ite ?_ ?_
    · refine Frame.step (barrowLinkDown_frame _ _) ?_ rfl
      refine Frame.step (bump_frame _ _ _ _) ?_ rfl
      refine Frame.step (modPort_frame _ _ _) ?_ rfl
      refine Frame.step (portCleared_frame _ _) ?_ rfl
      exact Frame.refl _ _
    · refine Frame.step (tallyAdd_frame _ _) ?_ rfl
      refine Frame.step (raise_frame _ _ _) ?_ rfl
      refine Frame.step (barrowLinkDown_frame _ _) ?_ rfl
      refine Frame.step (bump_frame _ _ _ _) ?_ rfl
      refine Frame.step (modPort_frame _ _ _) ?_ rfl
      refine Frame.step (portCleared_frame _ _) ?_ rfl
      exact Frame.refl _ _

theorem portEnable_frame (s : State) (p : Nat) (v : Nat) :
    Frame [.mgmt, .folio, .ledger, .reserve, .ports, .groups, .easel, .palette, .directory, .queues, .barrow, .perf, .settings, .stats, .out] s (portEnable s p v) := by
  unfold portEnable
  dsimp only
  refine Frame.ite ?_ ?_
  · refine Frame.step (portDown_frame _ _ _ _) ?_ rfl
    refine Frame.step (setSetting_frame _ _ _ _) ?_ rfl
    exact Frame.refl _ _
  · refine Frame.step (modPort_frame _ _ _) ?_ rfl
    refine Frame.step (setSetting_frame _ _ _ _) ?_ rfl
    exact Frame.refl _ _

theorem flushQueue_frame (s : State) (q : Nat) :
    Frame [.mgmt, .folio, .ledger, .queues, .stats, .out] s (flushQueue s q) := by
  unfold flushQueue
  dsimp only
  refine Frame.step (raise_frame _ _ _) ?_ rfl
  refine Frame.step (bump_frame _ _ _ _) ?_ rfl
  refine Frame.step (modQueue_frame _ _ _) ?_ rfl
  exact Frame.refl _ _

theorem queueFlush_frame (s : State) (q : Nat) :
    FrameE [.mgmt, .folio, .ledger, .ports, .queues, .stats, .out] s (queueFlush s q) := by
  unfold queueFlush
  refine FrameE.ite ?_ ?_
  · exact FrameE.error
  · dsimp only
    refine FrameE.ok ?_
    refine Frame.ite ?_ ?_
    · refine Frame.step (eventRelease_frame _ _ _) ?_ rfl
      refine Frame.step (modPort_frame _ _ _) ?_ rfl
      refine Frame.step (flushQueue_frame _ _) ?_ rfl
      exact Frame.refl _ _
    · refine Frame.step (flushQueue_frame _ _) ?_ rfl
      exact Frame.refl _ _

theorem portStatisticsClear_frame (s : State) :
    Frame [.stats] s (portStatisticsClear s) := by
  unfold portStatisticsClear
  refine Frame.step (clearStats_frame _ _ _ _) ?_ rfl
  refine Frame.step (clearStatsAt_frame _ _ _ _ _) ?_ rfl
  exact Frame.refl _ _

theorem queueStatisticsClear_frame (s : State) :
    Frame [.queues, .stats] s (queueStatisticsClear s) := by
  unfold queueStatisticsClear
  dsimp only
  refine Frame.foldl ?_ ?_
  · intro _ _
    refine Frame.step (modQueue_frame _ _ _) ?_ rfl
    exact Frame.refl _ _
  · refine Frame.step (clearStatsAt_frame _ _ _ _ _) ?_ rfl
    refine Frame.step (clearStatsAt_frame _ _ _ _ _) ?_ rfl
    exact Frame.refl _ _

theorem fenceRelease_frame (s : State) (p : Nat) :
    FrameE [.ports] s (fenceRelease s p) := by
  unfold fenceRelease
  refine FrameE.ite ?_ ?_
  · refine FrameE.ok ?_
    refine Frame.step (modPort_frame _ _ _) ?_ rfl
    exact Frame.refl _ _
  · exact FrameE.error

theorem writePorts_frame (idx : Nat) (sub : Nat) (data : List Byte) (v : Int) (n : Nat) (s : State) :
    FrameE [.mgmt, .folio, .ledger, .reserve, .ports, .groups, .easel, .palette, .directory, .queues, .barrow, .perf, .settings, .stats, .out] s (writePorts idx sub data v n s) := by
  unfold writePorts
  refine FrameE.ite ?_ ?_
  · refine FrameE.ok ?_
    refine Frame.step (portStatisticsClear_frame _) ?_ rfl
    exact Frame.refl _ _
  · refine FrameE.ite ?_ ?_
    · refine FrameE.ok ?_
      refine Frame.step (portEnable_frame _ _ _) ?_ rfl
      exact Frame.refl _ _
    · refine FrameE.ite ?_ ?_
      · refine FrameE.step (fenceRelease_frame _ _) ?_ rfl
        exact Frame.refl _ _
      · refine FrameE.ite ?_ ?_
        · refine FrameE.ok ?_
          refine Frame.step (barrowClear_frame _) ?_ rfl
          exact Frame.refl _ _
        · refine FrameE.ite ?_ ?_
          · refine FrameE.ok ?_
            refine Frame.step (modSession_frame _ _ _) ?_ rfl
            exact Frame.refl _ _
          · refine FrameE.ite ?_ ?_
            · refine FrameE.ok ?_
              refine Frame.step (descriptorWrite_frame _ _ _) ?_ rfl
              exact Frame.refl _ _
            · refine FrameE.ite ?_ ?_
              · refine FrameE.step (writeBarrow_frame _ _ _ _ _) ?_ rfl
                exact Frame.refl _ _
              · refine FrameE.ite ?_ ?_
                · refine FrameE.ok ?_
                  refine Frame.step (queueStatisticsClear_frame _) ?_ rfl
                  exact Frame.refl _ _
                · refine FrameE.ite ?_ ?_
                  · refine FrameE.step (queueFlush_frame _ _) ?_ rfl
                    exact Frame.refl _ _
                  · refine FrameE.ok ?_
                    refine Frame.step (setSetting_frame _ _ _ _) ?_ rfl
                    exact Frame.refl _ _

theorem userWrite_frame (s : State) (address : Nat) (data : List Byte) :
    FrameE [.folio] s (userWrite s address data) := by
  unfold userWrite
  refine FrameE.ite ?_ ?_
  · exact FrameE.error
  · refine FrameE.ite ?_ ?_
    · exact FrameE.error
    · refine FrameE.ok ?_
      refine Frame.step (folioQueue_frame _ _ _ _) ?_ rfl
      exact Frame.refl _ _

theorem runControl_frame (s : State) (on : Bool) :
    Frame [.perf] s (runControl s on) := by
  unfold runControl
  refine Frame.upd_perf ?_ rfl
  exact Frame.refl _ _

theorem wrapStickyClear_frame (s : State) (b : Nat) (mask : Nat) :
    Frame [.perf] s (wrapStickyClear s b mask) := by
  unfold wrapStickyClear
  refine Frame.foldl ?_ ?_
  · intro _ _
    refine Frame.ite ?_ ?_
    · refine Frame.upd_perf ?_ rfl
      exact Frame.refl _ _
    · exact Frame.refl _ _
  · exact Frame.refl _ _

theorem ledgerClear_frame (s : State) :
    FrameE [.folio, .ledger] s (ledgerClear s) := by
  unfold ledgerClear
  refine FrameE.ite ?_ ?_
  · exact FrameE.error
  · refine FrameE.ite ?_ ?_
    · exact FrameE.error
    · dsimp only
      refine FrameE.ok ?_
      refine Frame.step (sectionUpdate_frame _ _) ?_ rfl
      refine Frame.step (imageStore_frame _ _ _) ?_ rfl
      refine Frame.upd_ledger ?_ rfl
      exact Frame.refl _ _

theorem thermalClear_frame (s : State) :
    Frame [.stats] s (thermalClear s) := by
  unfold thermalClear
  dsimp only
  refine Frame.step (setStat_frame _ _ _ _) ?_ rfl
  refine Frame.step (setStat_frame _ _ _ _) ?_ rfl
  refine Frame.step (setStat_frame _ _ _ _) ?_ rfl
  refine Frame.step (clearStatsAt_frame _ _ _ _ _) ?_ rfl
  exact Frame.refl _ _

theorem folioClear_frame (s : State) :
    Frame [.stats] s (folioClear s) := by
  unfold folioClear
  refine Frame.step (clearStats_frame _ _ _ _) ?_ rfl
  refine Frame.step (clearStats_frame _ _ _ _) ?_ rfl
  refine Frame.step (clearStats_frame _ _ _ _) ?_ rfl
  exact Frame.refl _ _

theorem writeService_frame (idx : Nat) (sub : Nat) (data : List Byte) (v : Int) (n : Nat) (s : State) :
    FrameE [.sys, .mgmt, .folio, .ledger, .thermal, .channels, .groups, .perf, .settings, .stats, .out] s (writeService idx sub data v n s) := by
  unfold writeService
  refine FrameE.ite ?_ ?_
  · refine FrameE.ok ?_
    refine Frame.step (deepSleepEnable_frame _ _) ?_ rfl
    exact Frame.refl _ _
  · refine FrameE.ite ?_ ?_
    · refine FrameE.ok ?_
      refine Frame.step (setSetting_frame _ _ _ _) ?_ rfl
      refine Frame.step (keepForce_frame _ _ _) ?_ rfl
      exact Frame.refl _ _
    · refine FrameE.ite ?_ ?_
      · refine FrameE.ok ?_
        refine Frame.step (thermalClear_frame _) ?_ rfl
        exact Frame.refl _ _
      · refine FrameE.ite ?_ ?_
        · refine FrameE.ok ?_
          refine Frame.step (folioClear_frame _) ?_ rfl
          exact Frame.refl _ _
        · refine FrameE.ite ?_ ?_
          · refine FrameE.ok ?_
            refine Frame.step (modSession_frame _ _ _) ?_ rfl
            exact Frame.refl _ _
          · refine FrameE.ite ?_ ?_
            · refine FrameE.ok ?_
              refine Frame.step (modSession_frame _ _ _) ?_ rfl
              exact Frame.refl _ _
            · refine FrameE.ite ?_ ?_
              · refine FrameE.step (userWrite_frame _ _ _) ?_ rfl
                exact Frame.refl _ _
              · refine FrameE.ite ?_ ?_
                · refine FrameE.ok ?_
                  refine Frame.step (modSession_frame _ _ _) ?_ rfl
                  exact Frame.refl _ _
                · refine FrameE.ite ?_ ?_
                  · refine FrameE.step (ledgerClear_frame _) ?_ rfl
                    exact Frame.refl _ _
                  · refine FrameE.ite ?_ ?_
                    · refine FrameE.ok ?_
                      refine Frame.step (runControl_frame _ _) ?_ rfl
                      exact Frame.refl _ _
                    · refine FrameE.ite ?_ ?_
                      · refine FrameE.ok ?_
                        refine Frame.step (counterClear_frame _) ?_ rfl
                        exact Frame.refl _ _
                      · refine FrameE.ite ?_ ?_
                        · refine FrameE.ite ?_ ?_
                          · refine FrameE.ok ?_
                            refine Frame.step (setSetting_frame _ _ _ _) ?_ rfl
                            exact Frame.refl _ _
                          · exact FrameE.error
                        · refine FrameE.ite ?_ ?_
                          · refine FrameE.ok ?_
                            refine Frame.upd_perf ?_ rfl
                            exact Frame.refl _ _
                          · refine FrameE.ite ?_ ?_
                            · refine FrameE.ok ?_
                              refine Frame.step (wrapStickyClear_frame _ _ _) ?_ rfl
                              exact Frame.refl _ _
                            · refine FrameE.ok ?_
                              refine Frame.step (setSetting_frame _ _ _ _) ?_ rfl
                              exact Frame.refl _ _

theorem writeEffect_frame (via : Via) (idx : Nat) (sub : Nat) (data : List Byte) (n : Nat) (s : State) :
    FrameE [.sys, .mgmt, .folio, .ledger, .power, .reserve, .thermal, .channels, .ports, .groups, .easel, .palette, .crypt, .directory, .queues, .barrow, .perf, .path, .settings, .stats, .draws, .out] s (writeEffect via idx sub data n s) := by
  unfold writeEffect
  dsimp only
  refine FrameE.ite ?_ ?_
  · refine FrameE.step (writeManagement_frame _ _ _ _ _ _ _) ?_ rfl
    exact Frame.refl _ _
  · refine FrameE.ite ?_ ?_
    · refine FrameE.step (writeMapping_frame _ _ _ _) ?_ rfl
      exact Frame.refl _ _
    · refine FrameE.ite ?_ ?_
      · refine FrameE.step (writeReserve_frame _ _ _ _) ?_ rfl
        exact Frame.refl _ _
      · refine FrameE.ite ?_ ?_
        · refine FrameE.step (writeCrypt_frame _ _ _ _ _) ?_ rfl
          exact Frame.refl _ _
        · refine FrameE.ite ?_ ?_
          · refine FrameE.step (writeMedia_frame _ _ _ _) ?_ rfl
            exact Frame.refl _ _
          · refine FrameE.ite ?_ ?_
            · refine FrameE.step (writePorts_frame _ _ _ _ _ _) ?_ rfl
              exact Frame.refl _ _
            · refine FrameE.ite ?_ ?_
              · refine FrameE.step (writePower_frame _ _ _ _) ?_ rfl
                exact Frame.refl _ _
              · refine FrameE.step (writeService_frame _ _ _ _ _ _) ?_ rfl
                exact Frame.refl _ _

theorem rejectNoSession_frame (s : State) (via : Via) (idx : Nat) :
    Frame [.stats, .out] s (rejectNoSession s via idx) := by
  unfold rejectNoSession
  split
  · refine Frame.step (emit_frame _ _) ?_ rfl
    refine Frame.step (bump_frame _ _ _ _) ?_ rfl
    exact Frame.refl _ _
  · exact Frame.refl _ _

theorem reject_frame (s : State) (via : Via) (sess : Nat) (tag : Nat) (detail : Nat) (idx : Nat) (sub : Nat) (write : Bool) :
    Frame [.mgmt, .stats, .out] s (reject s via sess tag detail idx sub write) := by
  unfold reject
  dsimp only
  refine Frame.step (answer_frame _ _ _ _ _ _ _ _) ?_ rfl
  refine Frame.step (bump_frame _ _ _ _) ?_ rfl
  refine Frame.step (modSession_frame _ _ _) ?_ rfl
  exact Frame.refl _ _

theorem sessionFor_frame (s : State) (via : Via) : ∀ q, sessionFor s via = some q → Frame [.mgmt] s q.2 := by
  unfold sessionFor
  intro q h
  have hb : ∀ n v, Frame [.mgmt] s (bindTo s n v) := fun n v => bindTo_frame _ _ _
  (repeat' split at h) <;> first
    | (cases h; exact Frame.refl _ _)
    | (cases h; exact hb _ _)
    | cases h

theorem serveRead_frame {V : List UnitName} {s x : State} {via : Via} {tag idx sub : Nat}
    {value : Nat → State → Except Nat (List Byte × State)} (hf : ∀ n y, FrameQ V y (value n y)) (h : Frame V s x)
    (hs : unitsIn [.mgmt, .perf, .stats, .out] V = true) :
    Frame V s (serveRead x via tag idx sub value) := by
  unfold serveRead
  split
  · split
    · exact Frame.step (rejectNoSession_frame _ _ _) h (unitsIn_trans rfl hs)
    · rename_i n y e
      have hy : Frame V s y := Frame.step (sessionFor_frame x via _ e) h (unitsIn_trans rfl hs)
      split
      · exact Frame.step (reject_frame _ _ _ _ _ _ _ _) hy (unitsIn_trans rfl hs)
      · split
        · exact Frame.step (reject_frame _ _ _ _ _ _ _ _) hy (unitsIn_trans rfl hs)
        · rename_i bs z ez
          exact Frame.step (accept_frame _ _ _ _ _) (Frame.trans hy (hf n y _ ez)) (unitsIn_trans rfl hs)
  · exact h

theorem windowRead_frame (n : Nat) (s : State) :
    Frame [.mgmt, .stats] s (windowRead n s).2 := by
  unfold windowRead
  dsimp only
  refine Frame.step (modSession_frame _ _ _) ?_ rfl
  refine Frame.step (arrayWait_frame _) ?_ rfl
  exact Frame.refl _ _

theorem tqRead_frame (s : State) :
    FrameQ [.queues, .stats] s (tqRead s) := by
  unfold tqRead
  refine FrameQ.ite ?_ ?_
  · exact FrameQ.error
  · dsimp only
    refine FrameQ.ok ?_
    dsimp only
    refine Frame.step (setMark_frame _ _ _) ?_ rfl
    refine Frame.step (takeWords_frame _ _ _) ?_ rfl
    exact Frame.refl _ _

theorem objectRead_frame (s : State) (n : Nat) (idx : Nat) (sub : Nat) :
    FrameQ [.mgmt, .queues, .stats] s (objectRead s n idx sub) := by
  unfold objectRead
  refine FrameQ.ite ?_ ?_
  · refine FrameQ.step (tqRead_frame _) ?_ rfl
    exact Frame.refl _ _
  · refine FrameQ.ite ?_ ?_
    · refine FrameQ.ok ?_
      refine Frame.step (windowRead_frame _ _) ?_ rfl
      exact Frame.refl _ _
    · split
      · exact FrameQ.error
      · refine FrameQ.ok ?_
        dsimp only
        refine Frame.ite ?_ ?_
        · refine Frame.step (arrayWait_frame _) ?_ rfl
          exact Frame.refl _ _
        · exact Frame.refl _ _

theorem refusalMark_frame (s : State) (via : Via) (sess : Nat) (detail : Nat) (idx : Nat) (sub : Nat) :
    Frame [.mgmt, .folio, .ledger, .stats, .out] s (refusalMark s via sess detail idx sub) := by
  unfold refusalMark
  refine Frame.ite ?_ ?_
  · refine Frame.step (modSession_frame _ _ _) ?_ rfl
    exact Frame.refl _ _
  · refine Frame.ite ?_ ?_
    · refine Frame.step (countRefusal_frame _ _) ?_ rfl
      exact Frame.refl _ _
    · exact Frame.refl _ _

theorem stageEntry_frame (s : State) (sess : Nat) (idx : Nat) (sub : Nat) (data : List Byte) :
    FrameE [.mgmt] s (stageEntry s sess idx sub data) := by
  unfold stageEntry
  dsimp only
  refine FrameE.ite ?_ ?_
  · refine FrameE.ok ?_
    refine Frame.step (modSession_frame _ _ _) ?_ rfl
    exact Frame.refl _ _
  · refine FrameE.ite ?_ ?_
    · exact FrameE.error
    · refine FrameE.ok ?_
      refine Frame.step (modSession_frame _ _ _) ?_ rfl
      exact Frame.refl _ _

theorem serveTagged_frame {V : List UnitName} {s x : State} {via : Via} {tag idx sub : Nat} {data : List Byte}
    {eff : Nat → State → Except Nat State} (hf : ∀ n y, FrameE V y (eff n y)) (h : Frame V s x)
    (hs : unitsIn [.mgmt, .folio, .ledger, .perf, .stats, .out] V = true) :
    Frame V s (serveTagged x via tag idx sub data eff) := by
  unfold serveTagged
  split
  · split
    · exact Frame.step (rejectNoSession_frame _ _ _) h (unitsIn_trans rfl hs)
    · rename_i n y e
      have hy : Frame V s y := Frame.step (sessionFor_frame x via _ e) h (unitsIn_trans rfl hs)
      split
      · exact Frame.step (reject_frame _ _ _ _ _ _ _ _) hy (unitsIn_trans rfl hs)
      · split
        · exact Frame.step (reject_frame _ _ _ _ _ _ _ _)
            (Frame.step (refusalMark_frame _ _ _ _ _ _) hy (unitsIn_trans rfl hs)) (unitsIn_trans rfl hs)
        · rename_i z ez
          have hz : Frame V s z := by
            split at ez
            · exact Frame.ofE (stageEntry_frame _ _ _ _ _) ez hy (unitsIn_trans rfl hs)
            · exact Frame.trans hy (hf n y z ez)
          exact Frame.step (accept_frame _ _ _ _ _) hz (unitsIn_trans rfl hs)
  · exact h

theorem dictionaryRequest_frame (s : State) (via : Via) (tag : Nat) (bs : List Byte) (k : Nat) :
    Frame [.sys, .mgmt, .folio, .ledger, .power, .reserve, .thermal, .channels, .ports, .groups, .easel, .palette, .crypt, .directory, .queues, .barrow, .perf, .path, .settings, .stats, .draws, .out] s (dictionaryRequest s via tag bs k) := by
  unfold dictionaryRequest
  dsimp only
  refine Frame.ite ?_ ?_
  · refine serveRead_frame ?_ ?_ rfl
    · intro _ _
      refine FrameQ.step (objectRead_frame _ _ _ _) ?_ rfl
      exact Frame.refl _ _
    · exact Frame.refl _ _
  · refine serveTagged_frame ?_ ?_ rfl
    · intro _ _
      refine FrameE.step (writeEffect_frame _ _ _ _ _ _) ?_ rfl
      exact Frame.refl _ _
    · exact Frame.refl _ _

theorem directoryLost_frame (s : State) (line : Nat) (way : Nat) :
    Frame [.mgmt, .folio, .ledger, .directory, .stats, .out] s (directoryLost s line way) := by
  unfold directoryLost
  dsimp only
  refine Frame.step (raise_frame _ _ _) ?_ rfl
  refine Frame.ite ?_ ?_
  · refine Frame.step (modEntry_frame _ _ _) ?_ rfl
    exact Frame.refl _ _
  · refine Frame.step (bump_frame _ _ _ _) ?_ rfl
    refine Frame.upd_directory ?_ rfl
    refine Frame.step (modEntry_frame _ _ _) ?_ rfl
    exact Frame.refl _ _

theorem setShutdownState_frame (s : State) (p : Nat) (dirty : Bool) :
    Frame [.folio, .ports] s (setShutdownState s p dirty) := by
  unfold setShutdownState
  refine Frame.step (sectionUpdate_frame _ _) ?_ rfl
  refine Frame.step (imageStore_frame _ _ _) ?_ rfl
  refine Frame.step (modPort_frame _ _ _) ?_ rfl
  exact Frame.refl _ _

theorem dirtyShutdown_frame (s : State) (n : Nat) (state : Nat) :
    Frame [.sys, .mgmt, .folio, .ledger, .ports, .queues, .stats, .out] s (dirtyShutdown s n state) := by
  unfold dirtyShutdown
  dsimp only
  refine Frame.step (moduleEvent_frame _ _ _) ?_ rfl
  refine Frame.step (raise_frame _ _ _) ?_ rfl
  refine Frame.foldl ?_ ?_
  · intro _ _
    refine Frame.step (setShutdownState_frame _ _ _) ?_ rfl
    exact Frame.refl _ _
  · refine Frame.step (tallyAdd_frame _ _) ?_ rfl
    refine Frame.upd_sys ?_ rfl
    exact Frame.refl _ _

theorem discardScratch_frame (s : State) :
    Frame [.reserve, .groups, .easel] s (discardScratch s) := by
  unfold discardScratch
  refine Frame.foldl ?_ ?_
  · intro _ _
    dsimp only
    refine Frame.step (modLine_frame _ _ _) ?_ rfl
    refine Frame.step (setMerge_frame _ _ _) ?_ rfl
    refine Frame.step (destageRemove_frame _ _) ?_ rfl
    refine Frame.step (chargeLine_frame _ _ _ _) ?_ rfl
    exact Frame.refl _ _
  · exact Frame.refl _ _

theorem domainTrained_frame (s : State) (k : Nat) :
    Frame [.mgmt, .power, .out] s (domainTrained s k) := by
  unfold domainTrained
  refine Frame.ite ?_ ?_
  · refine Frame.step (settleErrors_frame _) ?_ rfl
    refine Frame.step (modDomain_frame _ _ _) ?_ rfl
    exact Frame.refl _ _
  · exact Frame.refl _ _

theorem driftLost_frame (s : State) (g : Nat) (p : Nat) :
    Frame [.mgmt, .folio, .ledger, .groups, .stats, .out] s (driftLost s g p) := by
  unfold driftLost
  dsimp only
  refine Frame.step (raise_frame _ _ _) ?_ rfl
  refine Frame.step (urge_frame _ _ _) ?_ rfl
  refine Frame.step (modDrift_frame _ _ _ _) ?_ rfl
  exact Frame.refl _ _

theorem driftMet_frame (s : State) (pl : Place) (lost : Bool) :
    Frame [.mgmt, .folio, .ledger, .groups, .stats, .out] s (driftMet s pl lost) := by
  unfold driftMet
  split
  · refine Frame.ite ?_ ?_
    · refine Frame.step (driftLost_frame _ _ _) ?_ rfl
      exact Frame.refl _ _
    · exact Frame.refl _ _
  · exact Frame.refl _ _

theorem driftSurvey_frame (s : State) (survey : List SurveyReads) :
    Frame [.mgmt, .folio, .ledger, .groups, .stats, .out] s (driftSurvey s survey) := by
  unfold driftSurvey
  refine Frame.foldl ?_ ?_
  · intro _ _
    refine Frame.foldl ?_ ?_
    · intro _ _
      dsimp only
      refine Frame.step (measureRegion_frame _ _ _ _) ?_ rfl
      exact Frame.refl _ _
    · exact Frame.refl _ _
  · exact Frame.refl _ _

theorem dropPoisonedRecord_frame (s : State) (p : Nat) (i : Nat) (e : EventRec) :
    Frame [.mgmt, .folio, .ledger, .ports, .queues, .stats, .out] s (dropPoisonedRecord s p i e) := by
  unfold dropPoisonedRecord
  dsimp only
  refine Frame.step (raise_frame _ _ _) ?_ rfl
  refine Frame.step (modPort_frame _ _ _) ?_ rfl
  refine Frame.step (clearRecord_frame _ _ _) ?_ rfl
  exact Frame.refl _ _

theorem dropRound_frame (s : State) (r : SnoopRound) :
    Frame [.mgmt, .folio, .ledger, .reserve, .ports, .groups, .easel, .palette, .directory, .queues, .barrow, .perf, .stats, .out] s (dropRound s r) := by
  unfold dropRound
  dsimp only
  split
  · refine Frame.step (resumeBehind_frame _ _) ?_ rfl
    refine Frame.upd_directory ?_ rfl
    refine Frame.foldl ?_ ?_
    · intro _ _
      refine Frame.step (holderAnswer_frame _ _ _ _) ?_ rfl
      exact Frame.refl _ _
    · exact Frame.refl _ _
  · refine Frame.step (endRound_frame _ _) ?_ rfl
    refine Frame.foldl ?_ ?_
    · intro _ _
      refine Frame.step (holderAnswer_frame _ _ _ _) ?_ rfl
      exact Frame.refl _ _
    · exact Frame.refl _ _

theorem dropRounds_frame (a1 : Nat) (a2 : State) :
    Frame [.mgmt, .folio, .ledger, .reserve, .ports, .groups, .easel, .palette, .directory, .queues, .barrow, .perf, .stats, .out] a2 (dropRounds a1 a2) := by
  induction a1 generalizing a2 with
  | zero =>
    unfold dropRounds
    exact Frame.refl _ _
  | succ n ih =>
    unfold dropRounds
    split
    · exact Frame.refl _ _
    · refine Frame.step (ih _) ?_ rfl
      refine Frame.step (dropRound_frame _ _) ?_ rfl
      exact Frame.refl _ _

theorem dropSamples_frame (s : State) :
    Frame [.perf, .stats] s (dropSamples s) := by
  unfold dropSamples
  dsimp only
  refine Frame.ite ?_ ?_
  · refine Frame.upd_perf ?_ rfl
    exact Frame.refl _ _
  · refine Frame.step (bump_frame _ _ _ _) ?_ rfl
    refine Frame.upd_perf ?_ rfl
    exact Frame.refl _ _

theorem dropSensor_frame (s : State) (i : Nat) (median : Int) :
    Frame [.mgmt, .folio, .ledger, .thermal, .stats, .out] s (dropSensor s i median) := by
  unfold dropSensor
  refine Frame.step (raise_frame _ _ _) ?_ rfl
  refine Frame.upd_thermal ?_ rfl
  exact Frame.refl _ _

theorem earlyAccess_frame (s : State) (p : Nat) :
    Frame [.sys, .mgmt, .folio, .ledger, .stats, .out] s (earlyAccess s p) := by
  unfold earlyAccess
  refine Frame.ite ?_ ?_
  · exact Frame.refl _ _
  · refine Frame.step (raise_frame _ _ _) ?_ rfl
    refine Frame.upd_sys ?_ rfl
    exact Frame.refl _ _

theorem endEpilogue_frame (s : State) :
    Frame [.sys, .folio, .reserve] s (endEpilogue s) := by
  unfold endEpilogue
  refine Frame.step (enterState_frame _ _) ?_ rfl
  refine Frame.upd_sys_folio_reserve ?_ rfl
  exact Frame.refl _ _

end Sys2Proof.Machine
end

