-- ==== Sys2Proof/Laws/FrameOps3.lean ====
section
/-! SUPPORT. Laws/FrameOps3.lean: which units of the state each operation can change, one lemma per operation, in the order the operations are built on each other (part 3 of 3). -/

namespace Sys2Proof.Machine

theorem endSegments_frame (s : State) (via : Via) :
    Frame [.mgmt] s (endSegments s via) := by
  unfold endSegments
  split
  · refine Frame.step (modSession_frame _ _ _) ?_ rfl
    exact Frame.refl _ _
  · exact Frame.refl _ _

theorem engineIdle_frame (s : State) :
    Frame [.crypt] s (engineIdle s) := by
  unfold engineIdle
  dsimp only
  split
  · refine Frame.step (engineStart_frame _ _ _) ?_ rfl
    refine Frame.upd_crypt ?_ rfl
    exact Frame.refl _ _
  · refine Frame.upd_crypt ?_ rfl
    exact Frame.refl _ _

theorem unreadableEvent_frame (s : State) (t : TileId) (g : Nat) (retries : Nat) :
    Frame [.mgmt, .folio, .ledger, .stats, .out] s (unreadableEvent s t g retries) := by
  unfold unreadableEvent
  refine Frame.step (raise_frame _ _ _) ?_ rfl
  exact Frame.refl _ _

theorem lineUnreadable_frame (s : State) (line : Nat) (g : Nat) (retries : Nat) (hostRead : Bool) :
    Frame [.sys, .mgmt, .folio, .ledger, .ports, .groups, .palette, .queues, .path, .stats, .out] s (lineUnreadable s line g retries hostRead) := by
  unfold lineUnreadable
  dsimp only
  refine Frame.ite ?_ ?_
  · refine Frame.ite ?_ ?_
    · refine Frame.step (mediaEvent_frame _ _ _) ?_ rfl
      refine Frame.step (raise_frame _ _ _) ?_ rfl
      exact Frame.refl _ _
    · refine Frame.step (raise_frame _ _ _) ?_ rfl
      exact Frame.refl _ _
  · refine Frame.ite ?_ ?_
    · refine Frame.step (deepReadOrPoison_frame _ _ _ _) ?_ rfl
      refine Frame.fstIte ?_ ?_
      · refine Frame.step (poisonInsert_frame _ _ _ _) ?_ rfl
        refine Frame.step (mediaEvent_frame _ _ _) ?_ rfl
        refine Frame.step (raise_frame _ _ _) ?_ rfl
        exact Frame.refl _ _
      · dsimp only
        refine Frame.step (raise_frame _ _ _) ?_ rfl
        exact Frame.refl _ _
    · refine Frame.step (raise_frame _ _ _) ?_ rfl
      refine Frame.step (poisonPermanent_frame _ _) ?_ rfl
      refine Frame.step (writePoisonTile_frame _ _ _) ?_ rfl
      refine Frame.fstIte ?_ ?_
      · refine Frame.step (poisonInsert_frame _ _ _ _) ?_ rfl
        refine Frame.step (mediaEvent_frame _ _ _) ?_ rfl
        refine Frame.step (raise_frame _ _ _) ?_ rfl
        exact Frame.refl _ _
      · dsimp only
        refine Frame.step (raise_frame _ _ _) ?_ rfl
        exact Frame.refl _ _

theorem engineUnreadable_frame (s : State) (t : TileId) (g : Nat) (retries : Nat) :
    Frame [.sys, .mgmt, .folio, .ledger, .ports, .groups, .palette, .queues, .path, .stats, .out] s (engineUnreadable s t g retries) := by
  unfold engineUnreadable
  split
  · refine Frame.step (lineUnreadable_frame _ _ _ _ _) ?_ rfl
    exact Frame.refl _ _
  · refine Frame.step (deepReadOrPoison_frame _ _ _ _) ?_ rfl
    refine Frame.step (unreadableEvent_frame _ _ _ _) ?_ rfl
    exact Frame.refl _ _

theorem enterLevel_frame (s : State) (n : Nat) :
    Frame [.mgmt, .folio, .ledger, .thermal, .ports, .queues, .stats, .out] s (enterLevel s n) := by
  unfold enterLevel
  refine Frame.ite ?_ ?_
  · refine Frame.foldl ?_ ?_
    · intro _ _
      refine Frame.step (eventPost_frame _ _ _ _ _ _) ?_ rfl
      exact Frame.refl _ _
    · refine Frame.step (raise_frame _ _ _) ?_ rfl
      exact Frame.refl _ _
  · refine Frame.ite ?_ ?_
    · refine Frame.step (tallyAdd_frame _ _) ?_ rfl
      refine Frame.step (raise_frame _ _ _) ?_ rfl
      refine Frame.upd_thermal ?_ rfl
      exact Frame.refl _ _
    · exact Frame.refl _ _

theorem takeUpRanges_frame (s : State) :
    Frame [.crypt] s (takeUpRanges s) := by
  unfold takeUpRanges
  dsimp only
  refine Frame.ite ?_ ?_
  · refine Frame.foldl ?_ ?_
    · intro _ _
      refine Frame.ite ?_ ?_
      · refine Frame.step (modRange_frame _ _ _) ?_ rfl
        exact Frame.refl _ _
      · exact Frame.refl _ _
    · refine Frame.ite ?_ ?_
      · refine Frame.upd_crypt ?_ rfl
        exact Frame.refl _ _
      · refine Frame.step (engineIdle_frame _) ?_ rfl
        refine Frame.upd_crypt ?_ rfl
        exact Frame.refl _ _
  · refine Frame.ite ?_ ?_
    · refine Frame.upd_crypt ?_ rfl
      exact Frame.refl _ _
    · refine Frame.step (engineIdle_frame _) ?_ rfl
      refine Frame.upd_crypt ?_ rfl
      exact Frame.refl _ _

theorem enterRun_frame (s : State) :
    Frame [.sys, .mgmt, .folio, .ledger, .crypt, .stats, .out] s (enterRun s) := by
  unfold enterRun
  refine Frame.ite ?_ ?_
  · dsimp only
    refine Frame.step (raise_frame _ _ _) ?_ rfl
    refine Frame.step (enterState_frame _ _) ?_ rfl
    refine Frame.upd_sys ?_ rfl
    exact Frame.refl _ _
  · refine Frame.ite ?_ ?_
    · refine Frame.step (raise_frame _ _ _) ?_ rfl
      refine Frame.step (enterState_frame _ _) ?_ rfl
      refine Frame.upd_sys ?_ rfl
      exact Frame.refl _ _
    · refine Frame.step (takeUpRanges_frame _) ?_ rfl
      refine Frame.step (tallyAdd_frame _ _) ?_ rfl
      refine Frame.step (enterState_frame _ _) ?_ rfl
      refine Frame.upd_crypt ?_ rfl
      exact Frame.refl _ _

theorem epilogueCheck_frame (s : State) :
    Frame [.sys, .folio, .reserve] s (epilogueCheck s) := by
  unfold epilogueCheck
  refine Frame.ite ?_ ?_
  · refine Frame.step (endEpilogue_frame _) ?_ rfl
    exact Frame.refl _ _
  · exact Frame.refl _ _

theorem eraseRead_frame (s : State) (ch : Nat) (bank : Nat) :
    Frame [.channels] s (eraseRead s ch bank) := by
  unfold eraseRead
  refine Frame.step (modChannel_frame _ _ _) ?_ rfl
  exact Frame.refl _ _

theorem rampSample_frame (s : State) (v : Nat) :
    Frame [.reserve] s (rampSample s v) := by
  unfold rampSample
  refine Frame.ite ?_ ?_
  · exact Frame.refl _ _
  · dsimp only
    split
    · refine Frame.ite ?_ ?_
      · refine Frame.upd_reserve ?_ rfl
        exact Frame.refl _ _
      · exact Frame.refl _ _
    · refine Frame.ite ?_ ?_
      · refine Frame.upd_reserve ?_ rfl
        exact Frame.refl _ _
      · refine Frame.ite ?_ ?_
        · refine Frame.upd_reserve ?_ rfl
          exact Frame.refl _ _
        · exact Frame.refl _ _
    · refine Frame.ite ?_ ?_
      · refine Frame.upd_reserve ?_ rfl
        exact Frame.refl _ _
      · refine Frame.upd_reserve ?_ rfl
        exact Frame.refl _ _
    · refine Frame.ite ?_ ?_
      · refine Frame.upd_reserve ?_ rfl
        exact Frame.refl _ _
      · exact Frame.refl _ _
    · exact Frame.refl _ _

theorem reserveOversized_frame (s : State) :
    Frame [.mgmt, .folio, .ledger, .reserve, .stats, .out] s (reserveOversized s) := by
  unfold reserveOversized
  refine Frame.step (raise_frame _ _ _) ?_ rfl
  refine Frame.step (stopCharge_frame _) ?_ rfl
  refine Frame.upd_reserve ?_ rfl
  exact Frame.refl _ _

theorem regulate_frame (s : State) (v : Nat) :
    Frame [.mgmt, .folio, .ledger, .reserve, .stats, .out] s (regulate s v) := by
  unfold regulate
  refine Frame.ite ?_ ?_
  · refine Frame.ite ?_ ?_
    · refine Frame.upd_reserve ?_ rfl
      exact Frame.refl _ _
    · refine Frame.ite ?_ ?_
      · refine Frame.step (bleedOver_frame _ _) ?_ rfl
        exact Frame.refl _ _
      · refine Frame.ite ?_ ?_
        · exact Frame.refl _ _
        · refine Frame.ite ?_ ?_
          · refine Frame.upd_reserve ?_ rfl
            exact Frame.refl _ _
          · refine Frame.ite ?_ ?_
            · refine Frame.step (charge_frame _) ?_ rfl
              exact Frame.refl _ _
            · exact Frame.refl _ _
  · exact Frame.refl _ _

theorem takeForce_frame (s : State) (idx : Nat) (sub : Nat) :
    Frame [.sys] s (takeForce s idx sub) := by
  unfold takeForce
  refine Frame.upd_sys ?_ rfl
  exact Frame.refl _ _

theorem takeLimits_frame (s : State) :
    Frame [.sys, .reserve] s (takeLimits s) := by
  unfold takeLimits
  dsimp only
  refine Frame.upd_reserve ?_ rfl
  refine Frame.step (takeForce_frame _ _ _) ?_ rfl
  refine Frame.step (takeForce_frame _ _ _) ?_ rfl
  exact Frame.refl _ _

theorem vresSample_frame (s : State) (v : Nat) :
    Frame [.sys, .mgmt, .folio, .ledger, .reserve, .stats, .out] s (vresSample s v) := by
  unfold vresSample
  dsimp only
  refine Frame.ite ?_ ?_
  · refine Frame.step (takeLimits_frame _) ?_ rfl
    refine Frame.upd_reserve ?_ rfl
    exact Frame.refl _ _
  · refine Frame.ite ?_ ?_
    · refine Frame.step (reserveFail_frame _ _) ?_ rfl
      refine Frame.step (takeLimits_frame _) ?_ rfl
      refine Frame.upd_reserve ?_ rfl
      exact Frame.refl _ _
    · refine Frame.ite ?_ ?_
      · refine Frame.step (reserveFail_frame _ _) ?_ rfl
        refine Frame.step (takeLimits_frame _) ?_ rfl
        refine Frame.upd_reserve ?_ rfl
        exact Frame.refl _ _
      · refine Frame.ite ?_ ?_
        · refine Frame.step (reserveOversized_frame _) ?_ rfl
          refine Frame.step (takeLimits_frame _) ?_ rfl
          refine Frame.upd_reserve ?_ rfl
          exact Frame.refl _ _
        · refine Frame.ite ?_ ?_
          · refine Frame.step (regulate_frame _ _) ?_ rfl
            refine Frame.step (takeLimits_frame _) ?_ rfl
            refine Frame.upd_reserve ?_ rfl
            exact Frame.refl _ _
          · refine Frame.step (rampSample_frame _ _) ?_ rfl
            refine Frame.step (takeLimits_frame _) ?_ rfl
            refine Frame.upd_reserve ?_ rfl
            exact Frame.refl _ _

theorem railSample_frame (s : State) (r : Nat) (v : Nat) :
    Frame [.sys, .mgmt, .folio, .ledger, .power, .reserve, .thermal, .channels, .ports, .groups, .easel, .palette, .directory, .queues, .barrow, .perf, .path, .stats, .out] s (railSample s r v) := by
  unfold railSample
  dsimp only
  refine Frame.ite ?_ ?_
  · refine Frame.step (setStat_frame _ _ _ _) ?_ rfl
    refine Frame.step (setStat_frame _ _ _ _) ?_ rfl
    refine Frame.step (modRail_frame _ _ _) ?_ rfl
    refine Frame.ite ?_ ?_
    · refine Frame.step (bandCheck_frame _ _ _) ?_ rfl
      exact Frame.refl _ _
    · refine Frame.ite ?_ ?_
      · refine Frame.step (setStat_frame _ _ _ _) ?_ rfl
        refine Frame.step (modRail_frame _ _ _) ?_ rfl
        exact Frame.refl _ _
      · exact Frame.refl _ _
  · refine Frame.step (modRail_frame _ _ _) ?_ rfl
    refine Frame.ite ?_ ?_
    · refine Frame.step (bandCheck_frame _ _ _) ?_ rfl
      exact Frame.refl _ _
    · refine Frame.ite ?_ ?_
      · refine Frame.step (setStat_frame _ _ _ _) ?_ rfl
        refine Frame.step (modRail_frame _ _ _) ?_ rfl
        exact Frame.refl _ _
      · exact Frame.refl _ _

theorem shutdownObjects_frame (s : State) (cause : Nat) (outcome : Nat) (time : Nat) (tiles : Nat) (epilogue : Nat) :
    Frame [.sys] s (shutdownObjects s cause outcome time tiles epilogue) := by
  unfold shutdownObjects
  refine Frame.upd_sys ?_ rfl
  exact Frame.refl _ _

theorem needReanchor_frame (s : State) (cause : Nat) :
    Frame [.sys] s (needReanchor s cause) := by
  unfold needReanchor
  refine Frame.ite ?_ ?_
  · refine Frame.upd_sys ?_ rfl
    exact Frame.refl _ _
  · exact Frame.refl _ _

theorem judgeShutdown_frame (errs : List TileDisturb) (s : State) (loaded : List Loaded) (fresh : Bool) :
    Frame [.sys, .mgmt, .folio, .ledger, .channels, .ports, .queues, .perf, .stats, .out] s (judgeShutdown errs s loaded fresh) := by
  unfold judgeShutdown
  dsimp only
  split
  · refine Frame.ite ?_ ?_
    · refine Frame.step (shutdownObjects_frame _ _ _ _ _ _) ?_ rfl
      exact Frame.refl _ _
    · refine Frame.step (needReanchor_frame _ _) ?_ rfl
      refine Frame.step (shutdownObjects_frame _ _ _ _ _ _) ?_ rfl
      exact Frame.refl _ _
  · refine Frame.ite ?_ ?_
    · refine Frame.ite ?_ ?_
      · refine Frame.ite ?_ ?_
        · refine Frame.step (shutdownObjects_frame _ _ _ _ _ _) ?_ rfl
          exact Frame.refl _ _
        · refine Frame.step (needReanchor_frame _ _) ?_ rfl
          refine Frame.step (shutdownObjects_frame _ _ _ _ _ _) ?_ rfl
          exact Frame.refl _ _
      · refine Frame.step (needReanchor_frame _ _) ?_ rfl
        refine Frame.step (dirtyShutdown_frame _ _ _) ?_ rfl
        refine Frame.step (shutdownObjects_frame _ _ _ _ _ _) ?_ rfl
        exact Frame.refl _ _
    · refine Frame.ite ?_ ?_
      · refine Frame.step (needReanchor_frame _ _) ?_ rfl
        refine Frame.step (raise_frame _ _ _) ?_ rfl
        refine Frame.step (shutdownObjects_frame _ _ _ _ _ _) ?_ rfl
        exact Frame.refl _ _
      · refine Frame.step (needReanchor_frame _ _) ?_ rfl
        refine Frame.step (dirtyShutdown_frame _ _ _) ?_ rfl
        refine Frame.step (shutdownObjects_frame _ _ _ _ _ _) ?_ rfl
        exact Frame.refl _ _

theorem freshRemapTiles_frame (s : State) (g : Nat) :
    Frame [.sys, .folio, .groups, .path, .stats] s (freshRemapTiles s g) := by
  unfold freshRemapTiles
  refine Frame.foldl ?_ ?_
  · intro _ _
    dsimp only
    refine Frame.elim ?_ ?_
    · exact Frame.refl _ _
    · intro _
      refine Frame.step (programAt_frame _ _ _) ?_ rfl
      exact Frame.refl _ _
  · exact Frame.refl _ _

theorem freshGroup_frame (s : State) (g : Nat) :
    Frame [.sys, .mgmt, .folio, .ledger, .channels, .ports, .groups, .easel, .palette, .directory, .queues, .barrow, .perf, .path, .stats, .draws, .out] s (freshGroup s g) := by
  unfold freshGroup
  dsimp only
  split
  · refine Frame.step (freshRemapTiles_frame _ _) ?_ rfl
    refine Frame.foldl ?_ ?_
    · intro _ _
      refine Frame.step (typeCheck_frame _ _) ?_ rfl
      exact Frame.refl _ _
    · refine Frame.step (modGroup_frame _ _ _) ?_ rfl
      refine Frame.upd_draws ?_ rfl
      refine Frame.step (modGroup_frame _ _ _) ?_ rfl
      exact Frame.refl _ _
  · refine Frame.step (markRebuilding_frame _ _) ?_ rfl
    refine Frame.step (freshRemapTiles_frame _ _) ?_ rfl
    refine Frame.step (modGroup_frame _ _ _) ?_ rfl
    refine Frame.foldl ?_ ?_
    · intro _ _
      refine Frame.step (typeCheck_frame _ _) ?_ rfl
      exact Frame.refl _ _
    · refine Frame.step (modGroup_frame _ _ _) ?_ rfl
      refine Frame.upd_draws ?_ rfl
      refine Frame.step (modGroup_frame _ _ _) ?_ rfl
      exact Frame.refl _ _
  · refine Frame.step (fenceGroup_frame _ _) ?_ rfl
    refine Frame.foldl ?_ ?_
    · intro _ _
      refine Frame.step (typeCheck_frame _ _) ?_ rfl
      exact Frame.refl _ _
    · refine Frame.step (modGroup_frame _ _ _) ?_ rfl
      refine Frame.upd_draws ?_ rfl
      refine Frame.step (modGroup_frame _ _ _) ?_ rfl
      exact Frame.refl _ _

theorem firstInitialisation_frame (s : State) :
    Frame [.sys, .mgmt, .folio, .ledger, .channels, .ports, .groups, .easel, .palette, .crypt, .directory, .queues, .barrow, .perf, .path, .stats, .draws, .out] s (firstInitialisation s) := by
  unfold firstInitialisation
  dsimp only
  refine Frame.step (modRange_frame _ _ _) ?_ rfl
  refine Frame.step (drawKey_frame _) ?_ rfl
  refine Frame.upd_crypt_path ?_ rfl
  refine Frame.step (afterDraw_frame _) ?_ rfl
  refine Frame.foldl ?_ ?_
  · intro _ _
    refine Frame.step (freshGroup_frame _ _) ?_ rfl
    exact Frame.refl _ _
  · refine Frame.step (afterDraw_frame _) ?_ rfl
    exact Frame.refl _ _

theorem offTime_frame (s : State) (cold : Bool) :
    Frame [.mgmt, .folio, .ledger, .groups, .path, .stats, .out] s (offTime s cold) := by
  unfold offTime
  dsimp only
  refine Frame.ite ?_ ?_
  · refine Frame.foldl ?_ ?_
    · intro _ _
      refine Frame.step (modDrift_frame _ _ _ _) ?_ rfl
      exact Frame.refl _ _
    · refine Frame.upd_path ?_ rfl
      exact Frame.refl _ _
  · refine Frame.step (raise_frame _ _ _) ?_ rfl
    refine Frame.upd_path ?_ rfl
    refine Frame.foldl ?_ ?_
    · intro _ _
      refine Frame.step (modDrift_frame _ _ _ _) ?_ rfl
      exact Frame.refl _ _
    · refine Frame.upd_path ?_ rfl
      exact Frame.refl _ _

theorem reopenRange_frame (s : State) (r : Nat) :
    Frame [.crypt, .draws] s (reopenRange s r) := by
  unfold reopenRange
  dsimp only
  refine Frame.ite ?_ ?_
  · exact Frame.refl _ _
  · refine Frame.ite ?_ ?_
    · refine Frame.step (modRange_frame _ _ _) ?_ rfl
      refine Frame.step (drawKey_frame _) ?_ rfl
      refine Frame.ite ?_ ?_
      · refine Frame.step (modRange_frame _ _ _) ?_ rfl
        refine Frame.ite ?_ ?_
        · refine Frame.upd_crypt ?_ rfl
          exact Frame.refl _ _
        · exact Frame.refl _ _
      · refine Frame.ite ?_ ?_
        · refine Frame.upd_crypt ?_ rfl
          exact Frame.refl _ _
        · exact Frame.refl _ _
    · refine Frame.step (modRange_frame _ _ _) ?_ rfl
      refine Frame.ite ?_ ?_
      · refine Frame.step (modRange_frame _ _ _) ?_ rfl
        refine Frame.ite ?_ ?_
        · refine Frame.upd_crypt ?_ rfl
          exact Frame.refl _ _
        · exact Frame.refl _ _
      · refine Frame.ite ?_ ?_
        · refine Frame.upd_crypt ?_ rfl
          exact Frame.refl _ _
        · exact Frame.refl _ _

theorem layoutCheck_frame (s : State) :
    Frame [.mgmt, .folio, .ledger, .crypt, .path, .stats, .draws, .out] s (layoutCheck s) := by
  unfold layoutCheck
  dsimp only
  refine Frame.ite ?_ ?_
  · refine Frame.ite ?_ ?_
    · refine Frame.upd_path ?_ rfl
      refine Frame.ite ?_ ?_
      · refine Frame.step (raise_frame _ _ _) ?_ rfl
        exact Frame.refl _ _
      · exact Frame.refl _ _
    · refine Frame.foldl ?_ ?_
      · intro _ _
        refine Frame.step (emptyRange_frame _ _) ?_ rfl
        exact Frame.refl _ _
      · refine Frame.foldl ?_ ?_
        · intro _ _
          refine Frame.step (reopenRange_frame _ _) ?_ rfl
          exact Frame.refl _ _
        · refine Frame.upd_path ?_ rfl
          refine Frame.ite ?_ ?_
          · refine Frame.step (raise_frame _ _ _) ?_ rfl
            exact Frame.refl _ _
          · exact Frame.refl _ _
  · refine Frame.step (keyStoreUpdate_frame _) ?_ rfl
    refine Frame.upd_crypt ?_ rfl
    refine Frame.ite ?_ ?_
    · refine Frame.upd_path ?_ rfl
      refine Frame.ite ?_ ?_
      · refine Frame.step (raise_frame _ _ _) ?_ rfl
        exact Frame.refl _ _
      · exact Frame.refl _ _
    · refine Frame.foldl ?_ ?_
      · intro _ _
        refine Frame.step (emptyRange_frame _ _) ?_ rfl
        exact Frame.refl _ _
      · refine Frame.foldl ?_ ?_
        · intro _ _
          refine Frame.step (reopenRange_frame _ _) ?_ rfl
          exact Frame.refl _ _
        · refine Frame.upd_path ?_ rfl
          refine Frame.ite ?_ ?_
          · refine Frame.step (raise_frame _ _ _) ?_ rfl
            exact Frame.refl _ _
          · exact Frame.refl _ _

theorem loadObjects_frame (s : State) (a1 : List (Nat × Nat)) (a2 : List Byte) :
    Frame [.settings] s (loadObjects s a1 a2) := by
  induction a1 generalizing s a2 with
  | nil =>
    unfold loadObjects
    exact Frame.refl _ _
  | cons a l ih =>
    unfold loadObjects
    dsimp only
    refine Frame.step (ih _ _) ?_ rfl
    refine Frame.upd_settings ?_ rfl
    exact Frame.refl _ _

theorem loadSection_frame (s : State) (c : Nat) (k : Nat) :
    Frame [.folio, .settings] s (loadSection s c k) := by
  unfold loadSection
  dsimp only
  refine Frame.ite ?_ ?_
  · refine Frame.step (loadObjects_frame _ _ _) ?_ rfl
    exact Frame.refl _ _
  · refine Frame.ite ?_ ?_
    · refine Frame.step (imageStore_frame _ _ _) ?_ rfl
      refine Frame.step (imageStore_frame _ _ _) ?_ rfl
      exact Frame.refl _ _
    · refine Frame.step (imageStore_frame _ _ _) ?_ rfl
      exact Frame.refl _ _

theorem loadLedger_frame (s : State) (mark : Nat) :
    Frame [.ledger] s (loadLedger s mark) := by
  unfold loadLedger
  dsimp only
  refine Frame.upd_ledger ?_ rfl
  exact Frame.refl _ _

theorem nmtBoot_frame (s : State) :
    Frame [.mgmt, .out] s (nmtBoot s) := by
  unfold nmtBoot
  dsimp only
  refine Frame.ite ?_ ?_
  · refine Frame.upd_mgmt ?_ rfl
    refine Frame.ite ?_ ?_
    · refine Frame.step (emit_frame _ _) ?_ rfl
      refine Frame.upd_mgmt ?_ rfl
      exact Frame.refl _ _
    · refine Frame.upd_mgmt ?_ rfl
      exact Frame.refl _ _
  · refine Frame.ite ?_ ?_
    · refine Frame.step (emit_frame _ _) ?_ rfl
      refine Frame.upd_mgmt ?_ rfl
      exact Frame.refl _ _
    · refine Frame.upd_mgmt ?_ rfl
      exact Frame.refl _ _

theorem served_frame {V : List UnitName} {s x : State} {via : Via} {idx sub : Nat} {data : List Byte}
    {eff : Nat → State → Except Nat State} (hf : ∀ n y, FrameE V y (eff n y)) (h : Frame V s x)
    (hs : unitsIn [.mgmt, .folio, .ledger, .perf, .stats, .out] V = true) :
    Frame V s (served x via idx sub data eff) :=
  serveTagged_frame hf h hs

theorem issueFrames_frame (s : State) (g : Nat) (r : BusRequest) :
    Frame [.groups, .out] s (issueFrames s g r) := by
  unfold issueFrames
  dsimp only
  split
  · refine Frame.foldl ?_ ?_
    · intro _ _
      refine Frame.step (latchBank_frame _ _ _ _ _) ?_ rfl
      refine Frame.step (emit_frame _ _) ?_ rfl
      exact Frame.refl _ _
    · exact Frame.refl _ _
  · refine Frame.foldl ?_ ?_
    · intro _ _
      refine Frame.step (emit_frame _ _) ?_ rfl
      exact Frame.refl _ _
    · refine Frame.foldl ?_ ?_
      · intro _ _
        refine Frame.step (latchBank_frame _ _ _ _ _) ?_ rfl
        refine Frame.step (emit_frame _ _) ?_ rfl
        exact Frame.refl _ _
      · exact Frame.refl _ _
  · refine Frame.foldl ?_ ?_
    · intro _ _
      refine Frame.step (sendFrame_frame _ _ _) ?_ rfl
      exact Frame.refl _ _
    · exact Frame.refl _ _
  · exact Frame.refl _ _

theorem noteBanks_frame (s : State) (g : Nat) (n : Nat) (r : BusRequest) :
    Frame [.groups] s (noteBanks s g n r) := by
  unfold noteBanks
  dsimp only
  split
  · refine Frame.step (modArb_frame _ _ _) ?_ rfl
    exact Frame.refl _ _
  · refine Frame.step (modArb_frame _ _ _) ?_ rfl
    exact Frame.refl _ _
  · exact Frame.refl _ _

theorem issueSuspends_frame (s : State) (g : Nat) (r : BusRequest) (at0 : Nat) :
    Frame [.groups, .stats, .out] s (issueSuspends s g r at0) := by
  unfold issueSuspends
  dsimp only
  refine Frame.foldl ?_ ?_
  · intro _ _
    refine Frame.step (latchBank_frame _ _ _ _ _) ?_ rfl
    refine Frame.step (modArb_frame _ _ _) ?_ rfl
    refine Frame.step (bump_frame _ _ _ _) ?_ rfl
    refine Frame.step (sendFrame_frame _ _ _) ?_ rfl
    exact Frame.refl _ _
  · exact Frame.refl _ _

theorem markSent_frame (s : State) (g : Nat) (r : BusRequest) :
    Frame [.groups, .easel, .palette] s (markSent s g r) := by
  unfold markSent
  dsimp only
  split
  · split
    · refine Frame.step (modRead_frame _ _ _) ?_ rfl
      refine Frame.step (beginRead_frame _ _ _) ?_ rfl
      exact Frame.refl _ _
    · exact Frame.refl _ _
  · split
    · refine Frame.elim ?_ ?_
      · exact Frame.refl _ _
      · intro _
        refine Frame.step (setMiss_frame _ _ _) ?_ rfl
        exact Frame.refl _ _
    · exact Frame.refl _ _
  · refine Frame.upd_palette ?_ rfl
    exact Frame.refl _ _
  · refine Frame.upd_easel ?_ rfl
    exact Frame.refl _ _
  · refine Frame.step (modGroup_frame _ _ _) ?_ rfl
    exact Frame.refl _ _
  · exact Frame.refl _ _

theorem openSlot_frame (s : State) (g : Nat) (withdraw : Bool) :
    Frame [.groups, .easel, .palette, .stats, .out] s (openSlot s g withdraw) := by
  unfold openSlot
  dsimp only
  split
  · exact Frame.refl _ _
  · refine Frame.ite ?_ ?_
    · refine Frame.step (deadSlot_frame _ _ _) ?_ rfl
      refine Frame.step (modArb_frame _ _ _) ?_ rfl
      exact Frame.refl _ _
    · split
      · refine Frame.step (issueSuspends_frame _ _ _ _) ?_ rfl
        refine Frame.step (modArb_frame _ _ _) ?_ rfl
        exact Frame.refl _ _
      · refine Frame.step (markSent_frame _ _ _) ?_ rfl
        refine Frame.step (noteBanks_frame _ _ _ _) ?_ rfl
        refine Frame.step (issueFrames_frame _ _ _) ?_ rfl
        refine Frame.step (modArb_frame _ _ _) ?_ rfl
        exact Frame.refl _ _

theorem quietStep_frame (s : State) (g : Nat) (rs : List BusRequest) :
    Frame [.groups] s (quietStep s g rs) := by
  unfold quietStep
  dsimp only
  refine Frame.step (modArb_frame _ _ _) ?_ rfl
  exact Frame.refl _ _

theorem lockOverrun_frame (s : State) (g : Nat) (l : LockRec) :
    Frame [.mgmt, .folio, .ledger, .groups, .queues, .perf, .stats, .out] s (lockOverrun s g l) := by
  unfold lockOverrun
  dsimp only
  refine Frame.step (raise_frame _ _ _) ?_ rfl
  refine Frame.ite ?_ ?_
  · refine Frame.step (abandonMove_frame _ _ _) ?_ rfl
    refine Frame.step (modArb_frame _ _ _) ?_ rfl
    refine Frame.step (maxStat_frame _ _ _ _) ?_ rfl
    refine Frame.step (bump_frame _ _ _ _) ?_ rfl
    exact Frame.refl _ _
  · refine Frame.step (modArb_frame _ _ _) ?_ rfl
    refine Frame.step (maxStat_frame _ _ _ _) ?_ rfl
    refine Frame.step (bump_frame _ _ _ _) ?_ rfl
    exact Frame.refl _ _

theorem lockStep_frame (s : State) (g : Nat) :
    Frame [.mgmt, .folio, .ledger, .groups, .queues, .perf, .stats, .out] s (lockStep s g) := by
  unfold lockStep
  split
  · exact Frame.refl _ _
  · refine Frame.ite ?_ ?_
    · refine Frame.step (lockOverrun_frame _ _ _) ?_ rfl
      exact Frame.refl _ _
    · refine Frame.ite ?_ ?_
      · refine Frame.step (maxStat_frame _ _ _ _) ?_ rfl
        refine Frame.step (modArb_frame _ _ _) ?_ rfl
        exact Frame.refl _ _
      · refine Frame.step (bump_frame _ _ _ _) ?_ rfl
        refine Frame.step (modArb_frame _ _ _) ?_ rfl
        exact Frame.refl _ _

theorem mailbox_frame {U : List UnitName} {s : State} {port : Port} {f : State → Nat → State}
    (hf : Frame U s (f s port.val)) : FrameN U s (mailbox s port f) := by
  unfold mailbox
  split
  · exact FrameN.next hf
  · exact FrameN.next (Frame.refl _ _)

theorem mailboxDone_frame (s : State) (p : Nat) (opcode : Nat) (rc : Nat) (payload : List Byte) :
    Frame [.stats, .out] s (mailboxDone s p opcode rc payload) := by
  unfold mailboxDone
  refine Frame.step (emit_frame _ _) ?_ rfl
  refine Frame.step (bump_frame _ _ _ _) ?_ rfl
  exact Frame.refl _ _

theorem fillThrough_frame (s : State) (c : Nat) (serial : Nat) (beat : Nat) (line : Nat) (p : Nat) (data : Line) :
    Frame [.easel, .palette, .barrow, .draws] s (fillThrough s c serial beat line p data) := by
  unfold fillThrough
  dsimp only
  refine Frame.step (modLoad_frame _ _ _ _) ?_ rfl
  refine Frame.step (poisonRemove_frame _ _) ?_ rfl
  refine Frame.upd_easel ?_ rfl
  refine Frame.step (modLine_frame _ _ _) ?_ rfl
  refine Frame.step (afterDraw_frame _) ?_ rfl
  exact Frame.refl _ _

theorem fillBeat_frame (s : State) (c : Nat) (l : LoadRec) (line : Nat) :
    FrameO [.mgmt, .folio, .ledger, .reserve, .ports, .groups, .easel, .palette, .directory, .queues, .barrow, .perf, .stats, .draws, .out] s (fillBeat s c l line) := by
  unfold fillBeat
  dsimp only
  refine FrameO.ite ?_ ?_
  · refine FrameO.some ?_
    refine Frame.step (beatError_frame _ _ _ _ _) ?_ rfl
    refine Frame.step (beatStep_frame _ _ _ _ _) ?_ rfl
    exact Frame.refl _ _
  · refine FrameO.ite ?_ ?_
    · split
      · refine FrameO.ite ?_ ?_
        · exact FrameO.none
        · refine FrameO.some ?_
          refine Frame.step (fillThrough_frame _ _ _ _ _ _ _) ?_ rfl
          refine Frame.step (beatStep_frame _ _ _ _ _) ?_ rfl
          exact Frame.refl _ _
      · exact FrameO.none
    · refine FrameO.some ?_
      refine Frame.step (barrowWrite_frame _ _ _ _ _ _ _) ?_ rfl
      refine Frame.step (beatStep_frame _ _ _ _ _) ?_ rfl
      exact Frame.refl _ _

theorem meetUpset_frame (s : State) (line : Nat) (u : Upset) :
    Frame [.sys, .mgmt, .folio, .ledger, .reserve, .channels, .ports, .groups, .easel, .palette, .crypt, .directory, .queues, .barrow, .perf, .path, .stats, .draws, .out] s (meetUpset s line u) := by
  unfold meetUpset
  split
  · refine Frame.ite ?_ ?_
    · refine Frame.step (directoryLost_frame _ _ _) ?_ rfl
      exact Frame.refl _ _
    · exact Frame.refl _ _
  · refine Frame.step (applyUpset_frame _ _ _) ?_ rfl
    exact Frame.refl _ _

theorem takeResponses_frame (s : State) (c : Nat) :
    Frame [.mgmt, .folio, .ledger, .barrow, .stats, .out] s (takeResponses s c) := by
  unfold takeResponses
  dsimp only
  refine Frame.step (settleChannel_frame _ _) ?_ rfl
  refine Frame.step (bump_frame _ _ _ _) ?_ rfl
  refine Frame.step (modBarrow_frame _ _ _) ?_ rfl
  exact Frame.refl _ _

theorem sendEvent_frame (s : State) (ch : Nat) (kind : Nat) (field : Nat) :
    Frame [.out] s (sendEvent s ch kind field) := by
  unfold sendEvent
  refine Frame.step (emit_frame _ _) ?_ rfl
  exact Frame.refl _ _

theorem takeFrame_frame {V : List UnitName} {s x : State} {ch op : Nat} {fields : BitVec 44} {bank : Nat} {ok : Bool}
    {run : State → State} (hf : ∀ y, Frame V y (run y)) (h : Frame V s x) (hs : unitsIn [.channels, .out] V = true) :
    Frame V s (takeFrame x ch op fields bank ok run) := by
  unfold takeFrame
  dsimp only
  have he : Frame V s (if (channelOf x ch).training = some 0 then emit x (.burst ch (frameBeats op fields)) else x) :=
    Frame.ite (Frame.step (emit_frame _ _) h (unitsIn_trans rfl hs)) h
  refine Frame.ite h (Frame.ite (Frame.trans he (hf _)) (Frame.step (sendEvent_frame _ _ _ _) he (unitsIn_trans rfl hs)))

theorem takeCal_frame {V : List UnitName} {s x : State} {ch sub : Nat} {low : BitVec 40}
    {run : State → State} (hf : ∀ y, Frame V y (run y)) (h : Frame V s x) (hs : unitsIn [.channels, .out] V = true) :
    Frame V s (takeCal x ch sub low run) :=
  takeFrame_frame hf h hs

theorem loadSettings_frame (s : State) (ch : Nat) (record : List Byte) :
    Frame [.channels] s (loadSettings s ch record) := by
  unfold loadSettings
  dsimp only
  refine Frame.step (setModeReg_frame _ _ _ _) ?_ rfl
  refine Frame.foldl ?_ ?_
  · intro _ _
    refine Frame.step (setModeReg_frame _ _ _ _) ?_ rfl
    exact Frame.refl _ _
  · refine Frame.step (setModeReg_frame _ _ _ _) ?_ rfl
    refine Frame.step (setModeReg_frame _ _ _ _) ?_ rfl
    refine Frame.step (setModeReg_frame _ _ _ _) ?_ rfl
    exact Frame.refl _ _

theorem noteTraining_frame (s : State) (units : Nat) :
    Frame [.stats] s (noteTraining s units) := by
  unfold noteTraining
  refine Frame.step (setStat_frame _ _ _ _) ?_ rfl
  exact Frame.refl _ _

theorem trainingPassed_frame (s : State) (ch : Nat) :
    Frame [.sys, .mgmt, .folio, .ledger, .channels, .ports, .groups, .easel, .palette, .directory, .queues, .barrow, .perf, .stats, .out] s (trainingPassed s ch) := by
  unfold trainingPassed
  dsimp only
  refine Frame.ite ?_ ?_
  · refine Frame.step (settleErrors_frame _) ?_ rfl
    refine Frame.step (raise_frame _ _ _) ?_ rfl
    refine Frame.ite ?_ ?_
    · refine Frame.step (modChannel_frame _ _ _) ?_ rfl
      exact Frame.refl _ _
    · refine Frame.ite ?_ ?_
      · refine Frame.step (modGroup_frame _ _ _) ?_ rfl
        refine Frame.foldl ?_ ?_
        · intro _ _
          refine Frame.step (modRegion_frame _ _ _ _) ?_ rfl
          exact Frame.refl _ _
        · refine Frame.step (modChannel_frame _ _ _) ?_ rfl
          exact Frame.refl _ _
      · refine Frame.step (staleColumn_frame _ _ _) ?_ rfl
        refine Frame.step (modChannel_frame _ _ _) ?_ rfl
        exact Frame.refl _ _
  · refine Frame.step (modChannel_frame _ _ _) ?_ rfl
    exact Frame.refl _ _

theorem trainingFailed_frame (s : State) (ch : Nat) (cause : Nat) (step : Nat) :
    Frame [.sys, .mgmt, .folio, .ledger, .channels, .ports, .groups, .easel, .palette, .directory, .queues, .barrow, .perf, .stats, .out] s (trainingFailed s ch cause step) := by
  unfold trainingFailed
  refine Frame.ite ?_ ?_
  · refine Frame.step (raise_frame _ _ _) ?_ rfl
    refine Frame.step (modChannel_frame _ _ _) ?_ rfl
    exact Frame.refl _ _
  · dsimp only
    refine Frame.ite ?_ ?_
    · refine Frame.step (modChannel_frame _ _ _) ?_ rfl
      refine Frame.step (markFailed_frame _ _ _) ?_ rfl
      exact Frame.refl _ _
    · refine Frame.step (markFailed_frame _ _ _) ?_ rfl
      exact Frame.refl _ _

theorem rotateJournal_frame (s : State) (g : Nat) :
    Frame [.groups] s (rotateJournal s g) := by
  unfold rotateJournal
  dsimp only
  split
  · exact Frame.refl _ _
  · refine Frame.step (modGroup_frame _ _ _) ?_ rfl
    refine Frame.step (modRegion_frame _ _ _ _) ?_ rfl
    refine Frame.foldl ?_ ?_
    · intro _ _
      refine Frame.step (modRegion_frame _ _ _ _) ?_ rfl
      exact Frame.refl _ _
    · exact Frame.refl _ _

theorem startCheckpoint_frame (s : State) (g : Nat) (closing : Bool) :
    Frame [.sys, .folio, .groups, .queues, .perf, .path, .stats] s (startCheckpoint s g closing) := by
  unfold startCheckpoint
  dsimp only
  refine Frame.ite ?_ ?_
  · exact Frame.refl _ _
  · refine Frame.foldl ?_ ?_
    · intro _ _
      refine Frame.step (programAnchor_frame _ _ _ _ _) ?_ rfl
      exact Frame.refl _ _
    · refine Frame.step (modGroup_frame _ _ _) ?_ rfl
      refine Frame.step (modGroup_frame _ _ _) ?_ rfl
      refine Frame.ite ?_ ?_
      · refine Frame.step (commitTile_frame _ _ _) ?_ rfl
        refine Frame.step (modGroup_frame _ _ _) ?_ rfl
        refine Frame.step (jqPush_frame _ _ _) ?_ rfl
        refine Frame.step (jqPush_frame _ _ _) ?_ rfl
        refine Frame.step (rotateJournal_frame _ _) ?_ rfl
        refine Frame.ite ?_ ?_
        · refine Frame.step (takeWords_frame _ _ _) ?_ rfl
          exact Frame.refl _ _
        · exact Frame.refl _ _
      · refine Frame.step (commitAll_frame _ _ _) ?_ rfl
        refine Frame.step (modGroup_frame _ _ _) ?_ rfl
        refine Frame.step (jqPush_frame _ _ _) ?_ rfl
        refine Frame.step (jqPush_frame _ _ _) ?_ rfl
        refine Frame.step (rotateJournal_frame _ _) ?_ rfl
        refine Frame.ite ?_ ?_
        · refine Frame.step (takeWords_frame _ _ _) ?_ rfl
          exact Frame.refl _ _
        · exact Frame.refl _ _

theorem varnishEnd_frame (s : State) (outcome : Nat) :
    Frame [.sys, .mgmt, .folio, .ledger, .power, .stats, .out] s (varnishEnd s outcome) := by
  unfold varnishEnd
  dsimp only
  refine Frame.step (enterState_frame _ _) ?_ rfl
  refine Frame.ite ?_ ?_
  · refine Frame.step (tallyAdd_frame _ _) ?_ rfl
    refine Frame.upd_sys_power ?_ rfl
    exact Frame.refl _ _
  · refine Frame.step (raise_frame _ _ _) ?_ rfl
    refine Frame.upd_sys_power ?_ rfl
    exact Frame.refl _ _

theorem varnishWork_frame (s : State) :
    Frame [.sys, .folio, .groups, .easel, .palette, .queues, .perf, .path, .stats] s (varnishWork s) := by
  unfold varnishWork
  dsimp only
  refine Frame.ite ?_ ?_
  · refine Frame.foldl ?_ ?_
    · intro _ _
      refine Frame.step (destageSelect_frame _ _ _ _) ?_ rfl
      exact Frame.refl _ _
    · exact Frame.refl _ _
  · refine Frame.ite ?_ ?_
    · refine Frame.foldl ?_ ?_
      · intro _ _
        refine Frame.step (palSelect_frame _ _) ?_ rfl
        exact Frame.refl _ _
      · exact Frame.refl _ _
    · refine Frame.ite ?_ ?_
      · refine Frame.foldl ?_ ?_
        · intro _ _
          refine Frame.step (commitAll_frame _ _ _) ?_ rfl
          exact Frame.refl _ _
        · exact Frame.refl _ _
      · refine Frame.foldl ?_ ?_
        · intro _ _
          refine Frame.ite ?_ ?_
          · refine Frame.step (startCheckpoint_frame _ _ _) ?_ rfl
            exact Frame.refl _ _
          · exact Frame.refl _ _
        · exact Frame.refl _ _

theorem varnishAdvance_frame (a1 : Nat) (a2 : State) :
    Frame [.sys, .mgmt, .folio, .ledger, .power, .groups, .easel, .palette, .queues, .perf, .path, .stats, .out] a2 (varnishAdvance a1 a2) := by
  induction a1 generalizing a2 with
  | zero =>
    unfold varnishAdvance
    exact Frame.refl _ _
  | succ n ih =>
    unfold varnishAdvance
    refine Frame.ite ?_ ?_
    · dsimp only
      refine Frame.ite ?_ ?_
      · refine Frame.ite ?_ ?_
        · refine Frame.step (varnishEnd_frame _ _) ?_ rfl
          refine Frame.step (varnishWork_frame _) ?_ rfl
          exact Frame.refl _ _
        · refine Frame.step (ih _) ?_ rfl
          refine Frame.upd_sys ?_ rfl
          refine Frame.step (varnishWork_frame _) ?_ rfl
          exact Frame.refl _ _
      · refine Frame.step (varnishWork_frame _) ?_ rfl
        exact Frame.refl _ _
    · exact Frame.refl _ _

theorem mediaCommand_frame {V : List UnitName} {s x : State} {p opcode : Nat} {f : State → State}
    (hf : ∀ y, Frame V y (f y)) (h : Frame V s x) (hs : unitsIn [.stats, .out] V = true) :
    Frame V s (mediaCommand x p opcode f) := by
  unfold mediaCommand
  exact Frame.ite (Frame.trans h (hf x)) (Frame.step (mailboxDone_frame _ _ _ _ _) h hs)

theorem flushEnd_barrowInterruptIf_frame (s : State) (c : Nat) (bits : Nat) :
    Frame [.barrow, .out] s (flushEnd.barrowInterruptIf s c bits) := by
  unfold flushEnd.barrowInterruptIf
  refine Frame.ite ?_ ?_
  · exact Frame.refl _ _
  · refine Frame.step (barrowInterrupt_frame _ _ _) ?_ rfl
    exact Frame.refl _ _

theorem flushEnd_frame (s : State) (c : Nat) (ok : Bool) :
    Frame [.mgmt, .folio, .ledger, .barrow, .stats, .out] s (flushEnd s c ok) := by
  unfold flushEnd
  dsimp only
  split
  · exact Frame.refl _ _
  · refine Frame.step (settleChannel_frame _ _) ?_ rfl
    refine Frame.ite ?_ ?_
    · refine Frame.step (flushEnd_barrowInterruptIf_frame _ _ _) ?_ rfl
      refine Frame.step (bump_frame _ _ _ _) ?_ rfl
      refine Frame.step (modBarrow_frame _ _ _) ?_ rfl
      exact Frame.refl _ _
    · refine Frame.ite ?_ ?_
      · refine Frame.step (modBarrow_frame _ _ _) ?_ rfl
        refine Frame.foldl ?_ ?_
        · intro _ _
          refine Frame.step (beatError_frame _ _ _ _ _) ?_ rfl
          exact Frame.refl _ _
        · refine Frame.step (modBarrow_frame _ _ _) ?_ rfl
          exact Frame.refl _ _
      · refine Frame.foldl ?_ ?_
        · intro _ _
          refine Frame.step (beatError_frame _ _ _ _ _) ?_ rfl
          exact Frame.refl _ _
        · refine Frame.step (modBarrow_frame _ _ _) ?_ rfl
          exact Frame.refl _ _

theorem tqPush_frame (s : State) (kind : Nat) (source : Nat) (payload : List Nat) :
    Frame [.queues, .perf, .stats] s (tqPush s kind source payload) := by
  unfold tqPush
  dsimp only
  refine Frame.step (pushPacket_frame _ _ _) ?_ rfl
  refine Frame.step (tqRoom_frame _ _ _) ?_ rfl
  exact Frame.refl _ _

theorem grantLine_frame (s : State) (g : Nat) (p : Nat) :
    Frame [.reserve, .groups, .easel, .palette, .crypt, .perf, .stats, .draws] s (grantLine s g p) := by
  unfold grantLine
  dsimp only
  refine Frame.ite ?_ ?_
  · split
    · refine Frame.step (palSelect_frame _ _) ?_ rfl
      refine Frame.foldl ?_ ?_
      · intro _ _
        refine Frame.ite ?_ ?_
        · refine Frame.step (stamp_frame _ _ _) ?_ rfl
          refine Frame.step (stamp_frame _ _ _) ?_ rfl
          exact Frame.refl _ _
        · exact Frame.refl _ _
      · refine Frame.upd_easel_crypt ?_ rfl
        refine Frame.step (modLine_frame _ _ _) ?_ rfl
        refine Frame.step (destageRemove_frame _ _) ?_ rfl
        refine Frame.ite ?_ ?_
        · refine Frame.step (bumpCodec_frame _ _ _ _) ?_ rfl
          refine Frame.step (destageTile_frame _ _) ?_ rfl
          exact Frame.refl _ _
        · refine Frame.step (destageTile_frame _ _) ?_ rfl
          exact Frame.refl _ _
    · refine Frame.foldl ?_ ?_
      · intro _ _
        refine Frame.ite ?_ ?_
        · refine Frame.step (stamp_frame _ _ _) ?_ rfl
          refine Frame.step (stamp_frame _ _ _) ?_ rfl
          exact Frame.refl _ _
        · exact Frame.refl _ _
      · refine Frame.upd_easel_crypt ?_ rfl
        refine Frame.step (modLine_frame _ _ _) ?_ rfl
        refine Frame.step (destageRemove_frame _ _) ?_ rfl
        refine Frame.ite ?_ ?_
        · refine Frame.step (bumpCodec_frame _ _ _ _) ?_ rfl
          refine Frame.step (destageTile_frame _ _) ?_ rfl
          exact Frame.refl _ _
        · refine Frame.step (destageTile_frame _ _) ?_ rfl
          exact Frame.refl _ _
  · refine Frame.foldl ?_ ?_
    · intro _ _
      refine Frame.ite ?_ ?_
      · refine Frame.step (stamp_frame _ _ _) ?_ rfl
        refine Frame.step (stamp_frame _ _ _) ?_ rfl
        exact Frame.refl _ _
      · exact Frame.refl _ _
    · refine Frame.upd_easel_crypt ?_ rfl
      refine Frame.step (modLine_frame _ _ _) ?_ rfl
      refine Frame.step (destageRemove_frame _ _) ?_ rfl
      refine Frame.ite ?_ ?_
      · refine Frame.step (bumpCodec_frame _ _ _ _) ?_ rfl
        refine Frame.step (destageTile_frame _ _) ?_ rfl
        exact Frame.refl _ _
      · refine Frame.step (destageTile_frame _ _) ?_ rfl
        exact Frame.refl _ _

theorem tunnelRefuse_frame (s : State) (port : Port) :
    Frame [.mgmt, .stats, .out] s (tunnelRefuse s port) := by
  unfold tunnelRefuse
  dsimp only
  split
  · exact Frame.refl _ _
  · refine Frame.step (mailboxDone_frame _ _ _ _ _) ?_ rfl
    refine Frame.step (modSession_frame _ _ _) ?_ rfl
    refine Frame.ofSomeSnd (sessionFor_frame _ _) (by assumption) ?_ rfl
    exact Frame.refl _ _

theorem servedNum_frame {V : List UnitName} {s x : State} {via : Via} {idx sub v : Nat}
    {eff : Nat → State → Except Nat State} (hf : ∀ n y, FrameE V y (eff n y)) (h : Frame V s x)
    (hs : unitsIn [.mgmt, .folio, .ledger, .perf, .stats, .out] V = true) :
    Frame V s (servedNum x via idx sub v eff) :=
  serveTagged_frame hf h hs

theorem railsDrop_frame (s : State) (rs : List Nat) :
    Frame [.power] s (railsDrop s rs) := by
  unfold railsDrop
  refine Frame.foldl ?_ ?_
  · intro _ _
    refine Frame.step (railDrop_frame _ _) ?_ rfl
    exact Frame.refl _ _
  · exact Frame.refl _ _

theorem secondEnded_frame (s : State) (ch : Nat) (b : Nat) :
    Frame [.groups] s (secondEnded s ch b) := by
  unfold secondEnded
  refine Frame.step (modGroup_frame _ _ _) ?_ rfl
  exact Frame.refl _ _

theorem modBank_frame (s : State) (ch : Nat) (b : Nat) (f : BankRec → BankRec) :
    Frame [.channels] s (modBank s ch b f) := by
  unfold modBank
  refine Frame.step (modChannel_frame _ _ _) ?_ rfl
  exact Frame.refl _ _

theorem stackDone_frame (s : State) (ch : Nat) (bank : Nat) :
    Frame [.channels, .path] s (stackDone s ch bank) := by
  unfold stackDone
  dsimp only
  split
  · refine Frame.step (modChannel_frame _ _ _) ?_ rfl
    refine Frame.step (modBank_frame _ _ _ _) ?_ rfl
    refine Frame.step (storePatch_frame _ _ _ _) ?_ rfl
    exact Frame.refl _ _
  · exact Frame.refl _ _

theorem rowRead_frame (s : State) (bank : Nat) (row : Nat) (way : Nat) (upset : Upset) :
    Frame [.mgmt, .folio, .ledger, .reserve, .ports, .groups, .easel, .palette, .directory, .queues, .barrow, .perf, .stats, .out] s (rowRead s bank row way upset) := by
  unfold rowRead
  dsimp only
  split
  · refine Frame.step (wordCorrected_frame _ _ _) ?_ rfl
    exact Frame.refl _ _
  · refine Frame.ite ?_ ?_
    · refine Frame.ite ?_ ?_
      · refine Frame.step (easelWordLost_frame _ _ _) ?_ rfl
        exact Frame.refl _ _
      · refine Frame.step (rowNominate_frame _ _ _) ?_ rfl
        exact Frame.refl _ _
    · refine Frame.step (rowNominate_frame _ _ _) ?_ rfl
      exact Frame.refl _ _
  · refine Frame.ite ?_ ?_
    · refine Frame.step (tagPrimaryLost_frame _ _) ?_ rfl
      exact Frame.refl _ _
    · exact Frame.refl _ _
  · refine Frame.ite ?_ ?_
    · refine Frame.step (modLine_frame _ _ _) ?_ rfl
      refine Frame.step (tagMirrorLost_frame _ _) ?_ rfl
      exact Frame.refl _ _
    · exact Frame.refl _ _
  · refine Frame.ite ?_ ?_
    · refine Frame.step (tagIdentityLost_frame _ _) ?_ rfl
      exact Frame.refl _ _
    · exact Frame.refl _ _
  · exact Frame.refl _ _

theorem scrubMirrors_frame (s : State) (bank : Nat) (row : Nat) :
    Frame [.easel] s (scrubMirrors s bank row) := by
  unfold scrubMirrors
  refine Frame.foldl ?_ ?_
  · intro _ _
    dsimp only
    refine Frame.ite ?_ ?_
    · refine Frame.step (modLine_frame _ _ _) ?_ rfl
      exact Frame.refl _ _
    · exact Frame.refl _ _
  · exact Frame.refl _ _

theorem scrubRow_frame (s : State) (bank : Nat) (way : Nat) (upset : Upset) :
    Frame [.mgmt, .folio, .ledger, .reserve, .ports, .groups, .easel, .palette, .directory, .queues, .barrow, .perf, .stats, .out] s (scrubRow s bank way upset) := by
  unfold scrubRow
  dsimp only
  refine Frame.ite ?_ ?_
  · refine Frame.upd_easel ?_ rfl
    refine Frame.step (setStat_frame _ _ _ _) ?_ rfl
    refine Frame.step (bump_frame _ _ _ _) ?_ rfl
    refine Frame.upd_easel ?_ rfl
    refine Frame.ite ?_ ?_
    · refine Frame.step (scrubMirrors_frame _ _ _) ?_ rfl
      refine Frame.step (rowRead_frame _ _ _ _ _) ?_ rfl
      exact Frame.refl _ _
    · refine Frame.step (rowRead_frame _ _ _ _ _) ?_ rfl
      exact Frame.refl _ _
  · refine Frame.upd_easel ?_ rfl
    refine Frame.ite ?_ ?_
    · refine Frame.step (scrubMirrors_frame _ _ _) ?_ rfl
      refine Frame.step (rowRead_frame _ _ _ _ _) ?_ rfl
      exact Frame.refl _ _
    · refine Frame.step (rowRead_frame _ _ _ _ _) ?_ rfl
      exact Frame.refl _ _

theorem takeAddress_frame (s : State) (address : BitVec 7) :
    Frame [.mgmt] s (takeAddress s address) := by
  unfold takeAddress
  refine Frame.upd_mgmt ?_ rfl
  exact Frame.refl _ _

theorem spareFailed_frame (s : State) (g : Nat) (p : Nat) (c : Nat) :
    Frame [.groups, .queues, .perf, .stats] s (spareFailed s g p c) := by
  unfold spareFailed
  refine Frame.step (jqPush_frame _ _ _) ?_ rfl
  exact Frame.refl _ _

theorem takeSpare_frame (s : State) (g : Nat) (c : Nat) :
    Frame [.mgmt, .folio, .ledger, .groups, .stats, .out] s (takeSpare s g c) := by
  unfold takeSpare
  dsimp only
  refine Frame.ite ?_ ?_
  · refine Frame.step (raise_frame _ _ _) ?_ rfl
    refine Frame.ite ?_ ?_
    · refine Frame.step (raise_frame _ _ _) ?_ rfl
      refine Frame.step (modGroup_frame _ _ _) ?_ rfl
      exact Frame.refl _ _
    · refine Frame.step (modGroup_frame _ _ _) ?_ rfl
      exact Frame.refl _ _
  · refine Frame.ite ?_ ?_
    · refine Frame.step (raise_frame _ _ _) ?_ rfl
      refine Frame.step (modGroup_frame _ _ _) ?_ rfl
      exact Frame.refl _ _
    · refine Frame.step (modGroup_frame _ _ _) ?_ rfl
      exact Frame.refl _ _

theorem retireRegion_frame (s : State) (g : Nat) (p : Nat) (slot : Nat) (c : Nat) :
    Frame [.mgmt, .folio, .ledger, .groups, .stats, .out] s (retireRegion s g p slot c) := by
  unfold retireRegion
  dsimp only
  refine Frame.ite ?_ ?_
  · refine Frame.step (declineRetirement_frame _ _ _ _ _) ?_ rfl
    exact Frame.refl _ _
  · refine Frame.ite ?_ ?_
    · exact Frame.refl _ _
    · refine Frame.step (modGroup_frame _ _ _) ?_ rfl
      exact Frame.refl _ _

theorem spareProgramFailed_frame (s : State) (g : Nat) (c : Nat) (j : RemapJob) :
    Frame [.mgmt, .folio, .ledger, .groups, .queues, .perf, .stats, .out] s (spareProgramFailed s g c j) := by
  unfold spareProgramFailed
  dsimp only
  refine Frame.ite ?_ ?_
  · refine Frame.step (retireRegion_frame _ _ _ _ _) ?_ rfl
    refine Frame.step (modGroup_frame _ _ _) ?_ rfl
    refine Frame.step (spareFailed_frame _ _ _ _) ?_ rfl
    exact Frame.refl _ _
  · refine Frame.step (modGroup_frame _ _ _) ?_ rfl
    refine Frame.step (takeSpare_frame _ _ _) ?_ rfl
    refine Frame.step (spareFailed_frame _ _ _ _) ?_ rfl
    exact Frame.refl _ _

theorem placeWrites_frame (s : State) (g : Nat) (p : Nat) (slot : Nat) :
    Frame [.palette] s (placeWrites s g p slot) := by
  unfold placeWrites
  refine Frame.upd_palette ?_ rfl
  exact Frame.refl _ _

theorem remapBase_frame (s : State) (g : Nat) (p : Nat) (k : Nat) :
    Frame [.channels, .perf, .stats] s (remapBase s g p k).1 := by
  unfold remapBase
  refine Frame.fstIte ?_ ?_
  · dsimp only
    exact Frame.refl _ _
  · dsimp only
    refine Frame.step (readMeta_frame _ _) ?_ rfl
    exact Frame.refl _ _

theorem remapCommit_frame (s : State) (g : Nat) (p : Nat) (slot : Nat) (c : Nat) (spare : Nat) (patch : Patch) :
    Frame [.mgmt, .folio, .ledger, .reserve, .channels, .groups, .palette, .queues, .perf, .path, .stats, .out] s (remapCommit s g p slot c spare patch) := by
  unfold remapCommit
  dsimp only
  refine Frame.step (raise_frame _ _ _) ?_ rfl
  refine Frame.step (palSelectSome_frame _ _) ?_ rfl
  refine Frame.step (modRegion_frame _ _ _ _) ?_ rfl
  refine Frame.step (palPut_frame _ _ _ _ _) ?_ rfl
  refine Frame.step (remapBase_frame _ _ _ _) ?_ rfl
  refine Frame.step (jqPush_frame _ _ _) ?_ rfl
  refine Frame.step (filterMark_frame _ _ _ _) ?_ rfl
  refine Frame.step (bump_frame _ _ _ _) ?_ rfl
  refine Frame.step (storePatch_frame _ _ _ _) ?_ rfl
  exact Frame.refl _ _

theorem remapNow_frame (a1 : Nat) (a2 : State) (a3 : Nat) (a4 : Nat) (a5 : Nat) (a6 : Nat) (a7 : Patch) :
    Frame [.mgmt, .folio, .ledger, .reserve, .channels, .groups, .palette, .queues, .perf, .path, .stats, .out] a2 (remapNow a1 a2 a3 a4 a5 a6 a7).1 := by
  induction a1 generalizing a2 a3 a4 a5 a6 a7 with
  | zero =>
    unfold remapNow
    refine Frame.fstIte ?_ ?_
    · dsimp only
      refine Frame.step (retireRegion_frame _ _ _ _ _) ?_ rfl
      exact Frame.refl _ _
    · dsimp only
      refine Frame.step (remapCommit_frame _ _ _ _ _ _ _) ?_ rfl
      refine Frame.step (takeSpare_frame _ _ _) ?_ rfl
      exact Frame.refl _ _
  | succ n ih =>
    unfold remapNow
    refine Frame.fstIte ?_ ?_
    · dsimp only
      refine Frame.step (retireRegion_frame _ _ _ _ _) ?_ rfl
      exact Frame.refl _ _
    · refine Frame.step (ih _ _ _ _ _ _) ?_ rfl
      refine Frame.step (spareFailed_frame _ _ _ _) ?_ rfl
      refine Frame.step (takeSpare_frame _ _ _) ?_ rfl
      exact Frame.refl _ _

theorem failRemap_frame (s : State) (g : Nat) (c : Nat) (p : Nat) (slot : Nat) (patch : Patch) :
    Frame [.mgmt, .folio, .ledger, .reserve, .channels, .groups, .palette, .queues, .perf, .path, .stats, .out] s (failRemap s g c p slot patch) := by
  unfold failRemap
  dsimp only
  refine Frame.ite ?_ ?_
  · refine Frame.step (raise_frame _ _ _) ?_ rfl
    refine Frame.step (remapNow_frame _ _ _ _ _ _ _) ?_ rfl
    exact Frame.refl _ _
  · refine Frame.step (remapNow_frame _ _ _ _ _ _ _) ?_ rfl
    exact Frame.refl _ _

theorem markSpares_frame (s : State) (g : Nat) (c : Nat) (b : Nat) (a : Option Nat) :
    Frame [.easel, .palette] s (markSpares s g c b a) := by
  unfold markSpares
  refine Frame.upd_easel_palette ?_ rfl
  exact Frame.refl _ _

theorem groupFail_frame (s : State) (g : Nat) (c : Nat) (b : Nat) (a : Option Nat) :
    Frame [.mgmt, .folio, .ledger, .reserve, .channels, .groups, .easel, .palette, .queues, .perf, .path, .stats, .out] s (groupFail s g c b a) := by
  unfold groupFail
  dsimp only
  split
  · split
    · refine Frame.ite ?_ ?_
      · refine Frame.step (placeWrites_frame _ _ _ _) ?_ rfl
        refine Frame.step (failRemap_frame _ _ _ _ _ _) ?_ rfl
        refine Frame.ite ?_ ?_
        · refine Frame.step (undefinePatch_frame _ _ _) ?_ rfl
          refine Frame.step (markSpares_frame _ _ _ _ _) ?_ rfl
          exact Frame.refl _ _
        · refine Frame.step (markSpares_frame _ _ _ _ _) ?_ rfl
          exact Frame.refl _ _
      · refine Frame.ite ?_ ?_
        · refine Frame.step (undefinePatch_frame _ _ _) ?_ rfl
          refine Frame.step (markSpares_frame _ _ _ _ _) ?_ rfl
          exact Frame.refl _ _
        · refine Frame.step (markSpares_frame _ _ _ _ _) ?_ rfl
          exact Frame.refl _ _
    · refine Frame.ite ?_ ?_
      · refine Frame.step (undefinePatch_frame _ _ _) ?_ rfl
        refine Frame.step (markSpares_frame _ _ _ _ _) ?_ rfl
        exact Frame.refl _ _
      · refine Frame.step (markSpares_frame _ _ _ _ _) ?_ rfl
        exact Frame.refl _ _
  · split
    · refine Frame.step (spareProgramFailed_frame _ _ _ _) ?_ rfl
      exact Frame.refl _ _
    · exact Frame.refl _ _

theorem stackFail_frame (s : State) (ch : Nat) (bank : Nat) (p : BankProg) :
    Frame [.mgmt, .folio, .ledger, .reserve, .channels, .groups, .easel, .palette, .queues, .perf, .path, .stats, .out] s (stackFail s ch bank p) := by
  unfold stackFail
  dsimp only
  refine Frame.ite ?_ ?_
  · refine Frame.step (groupFail_frame _ _ _ _ _) ?_ rfl
    refine Frame.step (modBank_frame _ _ _ _) ?_ rfl
    refine Frame.step (undefinePatch_frame _ _ _) ?_ rfl
    exact Frame.refl _ _
  · split
    · refine Frame.ite ?_ ?_
      · refine Frame.step (spareProgramFailed_frame _ _ _ _) ?_ rfl
        refine Frame.step (modBank_frame _ _ _ _) ?_ rfl
        refine Frame.step (undefinePatch_frame _ _ _) ?_ rfl
        exact Frame.refl _ _
      · refine Frame.step (modBank_frame _ _ _ _) ?_ rfl
        refine Frame.step (undefinePatch_frame _ _ _) ?_ rfl
        exact Frame.refl _ _
    · split
      · refine Frame.step (failRemap_frame _ _ _ _ _ _) ?_ rfl
        refine Frame.step (modBank_frame _ _ _ _) ?_ rfl
        refine Frame.step (undefinePatch_frame _ _ _) ?_ rfl
        exact Frame.refl _ _
      · refine Frame.step (modBank_frame _ _ _ _) ?_ rfl
        refine Frame.step (undefinePatch_frame _ _ _) ?_ rfl
        exact Frame.refl _ _

theorem programFailed_frame (s : State) (ch : Nat) (bank : Nat) :
    Frame [.mgmt, .folio, .ledger, .reserve, .channels, .groups, .easel, .palette, .queues, .perf, .path, .stats, .out] s (programFailed s ch bank) := by
  unfold programFailed
  dsimp only
  split
  · refine Frame.step (stackFail_frame _ _ _ _) ?_ rfl
    refine Frame.step (secondEnded_frame _ _ _) ?_ rfl
    refine Frame.step (modChannel_frame _ _ _) ?_ rfl
    refine Frame.step (bump_frame _ _ _ _) ?_ rfl
    exact Frame.refl _ _
  · split
    · refine Frame.step (stackFail_frame _ _ _ _) ?_ rfl
      refine Frame.step (secondEnded_frame _ _ _) ?_ rfl
      refine Frame.step (modChannel_frame _ _ _) ?_ rfl
      refine Frame.step (bump_frame _ _ _ _) ?_ rfl
      exact Frame.refl _ _
    · refine Frame.step (groupFail_frame _ _ _ _ _) ?_ rfl
      refine Frame.step (secondEnded_frame _ _ _) ?_ rfl
      refine Frame.step (modChannel_frame _ _ _) ?_ rfl
      refine Frame.step (bump_frame _ _ _ _) ?_ rfl
      exact Frame.refl _ _

theorem repairTally_frame (s : State) (i : Nat) :
    Frame [.mgmt, .folio, .ledger, .stats, .out] s (repairTally s i) := by
  unfold repairTally
  dsimp only
  refine Frame.foldl ?_ ?_
  · intro _ _
    refine Frame.step (raise_frame _ _ _) ?_ rfl
    refine Frame.step (bump_frame _ _ _ _) ?_ rfl
    refine Frame.step (folioQueue_frame _ _ _ _) ?_ rfl
    exact Frame.refl _ _
  · exact Frame.refl _ _

theorem recallLedger_frame (s : State) :
    Frame [.folio, .ledger] s (recallLedger s) := by
  unfold recallLedger
  dsimp only
  split
  · refine Frame.upd_ledger ?_ rfl
    refine Frame.step (sectionUpdate_frame _ _) ?_ rfl
    refine Frame.step (imageStore_frame _ _ _) ?_ rfl
    exact Frame.refl _ _
  · refine Frame.step (loadLedger_frame _ _) ?_ rfl
    exact Frame.refl _ _

theorem resolveSection_frame (s : State) (k : Nat) :
    Frame [.mgmt, .folio, .ledger, .settings, .stats, .out] s (resolveSection s k) := by
  unfold resolveSection
  dsimp only
  split
  · refine Frame.step (loadSection_frame _ _ _) ?_ rfl
    refine Frame.ite ?_ ?_
    · exact Frame.refl _ _
    · refine Frame.ite ?_ ?_
      · refine Frame.upd_folio ?_ rfl
        exact Frame.refl _ _
      · refine Frame.step (raise_frame _ _ _) ?_ rfl
        refine Frame.upd_folio ?_ rfl
        exact Frame.refl _ _
  · refine Frame.step (sectionUpdate_frame _ _) ?_ rfl
    refine Frame.ite ?_ ?_
    · refine Frame.step (defaultSection_frame _ _) ?_ rfl
      refine Frame.step (raise_frame _ _ _) ?_ rfl
      exact Frame.refl _ _
    · refine Frame.ite ?_ ?_
      · refine Frame.step (imageStore_frame _ _ _) ?_ rfl
        refine Frame.step (imageStore_frame _ _ _) ?_ rfl
        refine Frame.step (imageStore_frame _ _ _) ?_ rfl
        refine Frame.step (raise_frame _ _ _) ?_ rfl
        exact Frame.refl _ _
      · refine Frame.step (imageStore_frame _ _ _) ?_ rfl
        refine Frame.step (raise_frame _ _ _) ?_ rfl
        exact Frame.refl _ _

theorem loadCalibration_frame (s : State) :
    Frame [.mgmt, .folio, .ledger, .thermal, .stats, .out] s (loadCalibration s) := by
  unfold loadCalibration
  refine Frame.ite ?_ ?_
  · exact Frame.refl _ _
  · dsimp only
    refine Frame.foldl ?_ ?_
    · intro _ _
      refine Frame.step (setStat_frame _ _ _ _) ?_ rfl
      exact Frame.refl _ _
    · refine Frame.step (setStat_frame _ _ _ _) ?_ rfl
      refine Frame.foldl ?_ ?_
      · intro _ _
        refine Frame.step (setStat_frame _ _ _ _) ?_ rfl
        exact Frame.refl _ _
      · refine Frame.upd_thermal ?_ rfl
        refine Frame.step (raise_frame _ _ _) ?_ rfl
        exact Frame.refl _ _

theorem loadRepairs_frame (s : State) :
    Frame [.easel] s (loadRepairs s) := by
  unfold loadRepairs
  dsimp only
  refine Frame.upd_easel ?_ rfl
  exact Frame.refl _ _

theorem loadShutdownRecords_frame (s : State) :
    Frame [.sys, .crypt, .path, .stats] s (loadShutdownRecords s) := by
  unfold loadShutdownRecords
  dsimp only
  split
  · refine Frame.upd_sys ?_ rfl
    exact Frame.refl _ _
  · refine Frame.upd_sys_crypt_path ?_ rfl
    refine Frame.ite ?_ ?_
    · refine Frame.step (bump_frame _ _ _ _) ?_ rfl
      exact Frame.refl _ _
    · exact Frame.refl _ _

theorem loadPortStates_frame (s : State) :
    Frame [.ports] s (loadPortStates s) := by
  unfold loadPortStates
  refine Frame.foldl ?_ ?_
  · intro _ _
    refine Frame.step (modPort_frame _ _ _) ?_ rfl
    exact Frame.refl _ _
  · exact Frame.refl _ _

theorem loadKeyStore_frame (s : State) :
    Frame [.sys, .mgmt, .folio, .ledger, .crypt, .path, .stats, .draws, .out] s (loadKeyStore s) := by
  unfold loadKeyStore
  dsimp only
  refine Frame.ite ?_ ?_
  · refine Frame.upd_crypt_path ?_ rfl
    refine Frame.step (afterDraw_frame _) ?_ rfl
    exact Frame.refl _ _
  · split
    · refine Frame.upd_crypt_path ?_ rfl
      exact Frame.refl _ _
    · refine Frame.step (folioQueue_frame _ _ _ _) ?_ rfl
      refine Frame.step (raise_frame _ _ _) ?_ rfl
      refine Frame.upd_crypt_path ?_ rfl
      exact Frame.refl _ _
    · refine Frame.step (folioQueue_frame _ _ _ _) ?_ rfl
      refine Frame.step (raise_frame _ _ _) ?_ rfl
      refine Frame.upd_crypt_path ?_ rfl
      exact Frame.refl _ _
    · refine Frame.upd_sys_path ?_ rfl
      refine Frame.step (raise_frame _ _ _) ?_ rfl
      exact Frame.refl _ _

theorem recallLoads_frame (s : State) :
    Frame [.sys, .mgmt, .folio, .ledger, .thermal, .ports, .easel, .crypt, .path, .settings, .stats, .draws, .out] s (recallLoads s) := by
  unfold recallLoads
  dsimp only
  refine Frame.step (loadShutdownRecords_frame _) ?_ rfl
  refine Frame.step (loadKeyStore_frame _) ?_ rfl
  refine Frame.step (loadRepairs_frame _) ?_ rfl
  refine Frame.step (recallLedger_frame _) ?_ rfl
  refine Frame.foldl ?_ ?_
  · intro _ _
    refine Frame.step (repairTally_frame _ _) ?_ rfl
    exact Frame.refl _ _
  · refine Frame.step (loadCalibration_frame _) ?_ rfl
    refine Frame.step (loadPortStates_frame _) ?_ rfl
    refine Frame.step (applyRestore_frame _) ?_ rfl
    refine Frame.foldl ?_ ?_
    · intro _ _
      refine Frame.step (resolveSection_frame _ _) ?_ rfl
      exact Frame.refl _ _
    · exact Frame.refl _ _

theorem pmbusPrepare_frame (s : State) (r : Nat) :
    Frame [.out] s (pmbusPrepare s r) := by
  unfold pmbusPrepare
  refine Frame.ite ?_ ?_
  · exact Frame.refl _ _
  · refine Frame.step (emit_frame _ _) ?_ rfl
    refine Frame.step (emit_frame _ _) ?_ rfl
    exact Frame.refl _ _

theorem preparePmbus_frame (s : State) (linear : BitVec 30) :
    Frame [.power, .out] s (preparePmbus s linear) := by
  unfold preparePmbus
  refine Frame.foldl ?_ ?_
  · intro _ _
    refine Frame.step (pmbusPrepare_frame _ _) ?_ rfl
    refine Frame.step (modRail_frame _ _ _) ?_ rfl
    exact Frame.refl _ _
  · exact Frame.refl _ _

theorem resendFrame_frame (s : State) (ch : Nat) :
    Frame [.channels, .groups, .stats, .out] s (resendFrame s ch) := by
  unfold resendFrame
  dsimp only
  refine Frame.ite ?_ ?_
  · refine Frame.step (countFrameError_frame _ _) ?_ rfl
    refine Frame.step (modGroup_frame _ _ _) ?_ rfl
    exact Frame.refl _ _
  · refine Frame.step (modGroup_frame _ _ _) ?_ rfl
    refine Frame.step (emit_frame _ _) ?_ rfl
    exact Frame.refl _ _

theorem reissueProgram_frame (s : State) (ch : Nat) (bank : Nat) :
    Frame [.mgmt, .folio, .ledger, .reserve, .channels, .groups, .easel, .palette, .queues, .perf, .path, .stats, .out] s (reissueProgram s ch bank) := by
  unfold reissueProgram
  dsimp only
  refine Frame.ite ?_ ?_
  · split
    · refine Frame.ite ?_ ?_
      · refine Frame.step (modBank_frame _ _ _ _) ?_ rfl
        refine Frame.step (emit_frame _ _) ?_ rfl
        refine Frame.step (emit_frame _ _) ?_ rfl
        refine Frame.step (modChannel_frame _ _ _) ?_ rfl
        exact Frame.refl _ _
      · refine Frame.step (modChannel_frame _ _ _) ?_ rfl
        exact Frame.refl _ _
    · refine Frame.step (modChannel_frame _ _ _) ?_ rfl
      exact Frame.refl _ _
  · refine Frame.step (programFailed_frame _ _ _) ?_ rfl
    exact Frame.refl _ _

theorem movedCode_frame (s : State) (g : Nat) (t : TileId) (pl : Place) (errs : List Codeword) :
    Frame [.mgmt, .folio, .ledger, .channels, .groups, .perf, .stats, .out] s (movedCode s g t pl errs).1 := by
  unfold movedCode
  dsimp only
  split
  · dsimp only
    refine Frame.step (engineRead_frame _ _ _ _) ?_ rfl
    exact Frame.refl _ _
  · dsimp only
    refine Frame.step (engineRead_frame _ _ _ _) ?_ rfl
    exact Frame.refl _ _
  · dsimp only
    refine Frame.step (bumpCodec_frame _ _ _ _) ?_ rfl
    refine Frame.step (unreadableEvent_frame _ _ _ _) ?_ rfl
    refine Frame.step (engineRead_frame _ _ _ _) ?_ rfl
    exact Frame.refl _ _

theorem remapFailed_frame (s : State) (g : Nat) (p : Nat) (slot : Nat) (code : List Byte) (failed : Byte) (fails : List (Fin 8)) :
    Frame [.mgmt, .folio, .ledger, .reserve, .channels, .groups, .palette, .queues, .perf, .path, .stats, .out] s (remapFailed s g p slot code failed fails) := by
  unfold remapFailed
  dsimp only
  refine Frame.foldl ?_ ?_
  · intro _ _
    refine Frame.ite ?_ ?_
    · refine Frame.step (raise_frame _ _ _) ?_ rfl
      refine Frame.step (remapNow_frame _ _ _ _ _ _ _) ?_ rfl
      exact Frame.refl _ _
    · refine Frame.step (remapNow_frame _ _ _ _ _ _ _) ?_ rfl
      exact Frame.refl _ _
  · exact Frame.refl _ _

theorem getCcc_frame (s : State) (data : List Byte) :
    Frame [.out] s (getCcc s data) := by
  unfold getCcc
  refine Frame.ite ?_ ?_
  · refine Frame.step (emit_frame _ _) ?_ rfl
    exact Frame.refl _ _
  · refine Frame.step (emit_frame _ _) ?_ rfl
    exact Frame.refl _ _

theorem stepEnd_frame (s : State) (r : Nat) :
    Frame [.groups, .easel, .crypt, .queues, .perf, .stats] s (stepEnd s r) := by
  unfold stepEnd
  dsimp only
  refine Frame.ite ?_ ?_
  · refine Frame.ite ?_ ?_
    · refine Frame.upd_crypt ?_ rfl
      exact Frame.refl _ _
    · refine Frame.ite ?_ ?_
      · refine Frame.step (beginFinishing_frame _ _) ?_ rfl
        refine Frame.foldl ?_ ?_
        · intro _ _
          refine Frame.step (jqPush_frame _ _ _) ?_ rfl
          exact Frame.refl _ _
        · refine Frame.upd_crypt ?_ rfl
          exact Frame.refl _ _
      · refine Frame.foldl ?_ ?_
        · intro _ _
          refine Frame.step (jqPush_frame _ _ _) ?_ rfl
          exact Frame.refl _ _
        · refine Frame.upd_crypt ?_ rfl
          exact Frame.refl _ _
  · exact Frame.refl _ _

theorem launchUnit_frame (s : State) (line : Nat) (count : Nat) (codes : List (Nat × List Byte)) (plain : List (Nat × Line)) :
    Frame [.reserve, .crypt] s (launchUnit s line count codes plain) := by
  unfold launchUnit
  dsimp only
  refine Frame.upd_crypt ?_ rfl
  refine Frame.step (deviceBook_frame _ _) ?_ rfl
  exact Frame.refl _ _

theorem markLines_frame (s : State) (r : Nat) (lines : List Nat) :
    Frame [.crypt] s (markLines s r lines) := by
  unfold markLines
  refine Frame.upd_crypt ?_ rfl
  exact Frame.refl _ _

theorem readLines_frame (requester : Nat) (lines : List Nat) (errs : List (List Codeword)) (r : PageRead) :
    Frame [.sys, .mgmt, .folio, .ledger, .reserve, .channels, .ports, .groups, .easel, .palette, .queues, .perf, .path, .stats, .out] r.state (readLines requester lines errs r).state := by
  induction lines generalizing errs r with
  | nil => exact Frame.refl _ _
  | cons line rest ih =>
    unfold readLines
    refine Frame.step (ih _ _) ?_ rfl
    split
    · exact Frame.refl _ _
    · split
      · exact Frame.refl _ _
      · split
        · dsimp only
          exact Frame.refl _ _
        · dsimp only
          split
          · split
            · dsimp only
              refine Frame.step (engineRead_frame _ _ _ _) ?_ rfl
              exact Frame.refl _ _
            · dsimp only
              refine Frame.step (lineCheckFailed_frame _ _ _ _ _) ?_ rfl
              refine Frame.step (engineRead_frame _ _ _ _) ?_ rfl
              exact Frame.refl _ _
            · dsimp only
              refine Frame.step (lineCheckFailed_frame _ _ _ _ _) ?_ rfl
              refine Frame.step (engineRead_frame _ _ _ _) ?_ rfl
              exact Frame.refl _ _
            · dsimp only
              refine Frame.step (engineRead_frame _ _ _ _) ?_ rfl
              exact Frame.refl _ _
          · dsimp only
            refine Frame.step (engineRead_frame _ _ _ _) ?_ rfl
            exact Frame.refl _ _
          · dsimp only
            refine Frame.step (engineUnreadable_frame _ _ _ _) ?_ rfl
            refine Frame.step (engineRead_frame _ _ _ _) ?_ rfl
            exact Frame.refl _ _

theorem glazeLine_frame (s : State) (r : Nat) (line : Nat) (errs : List (List Codeword)) :
    Frame [.sys, .mgmt, .folio, .ledger, .reserve, .channels, .ports, .groups, .easel, .palette, .crypt, .queues, .perf, .path, .stats, .out] s (glazeLine s r line errs) := by
  unfold glazeLine
  refine Frame.ite ?_ ?_
  · refine Frame.step (stepEnd_frame _ _) ?_ rfl
    refine Frame.step (bump_frame _ _ _ _) ?_ rfl
    refine Frame.step (markLines_frame _ _ _) ?_ rfl
    exact Frame.refl _ _
  · refine Frame.ite ?_ ?_
    · dsimp only
      refine Frame.ite ?_ ?_
      · refine Frame.step (readLines_frame _ _ _ _) ?_ rfl
        dsimp only
        exact Frame.refl _ _
      · refine Frame.step (launchUnit_frame _ _ _ _ _) ?_ rfl
        refine Frame.step (readLines_frame _ _ _ _) ?_ rfl
        dsimp only
        exact Frame.refl _ _
    · exact Frame.refl _ _

theorem glazePage_frame (s : State) (r : Nat) (line : Nat) (errs : List (List Codeword)) :
    Frame [.sys, .mgmt, .folio, .ledger, .reserve, .channels, .ports, .groups, .easel, .palette, .crypt, .queues, .perf, .path, .stats, .out] s (glazePage s r line errs) := by
  unfold glazePage
  dsimp only
  split
  · refine Frame.step (palLookup_frame _ _ _) ?_ rfl
    exact Frame.refl _ _
  · refine Frame.ite ?_ ?_
    · exact Frame.refl _ _
    · refine Frame.ite ?_ ?_
      · refine Frame.step (launchUnit_frame _ _ _ _ _) ?_ rfl
        refine Frame.step (bump_frame _ _ _ _) ?_ rfl
        refine Frame.step (markLines_frame _ _ _) ?_ rfl
        refine Frame.step (readLines_frame _ _ _ _) ?_ rfl
        dsimp only
        exact Frame.refl _ _
      · refine Frame.step (readLines_frame _ _ _ _) ?_ rfl
        dsimp only
        exact Frame.refl _ _

theorem invalidateRange_frame (s : State) (kind : Nat) (lo : Nat) (hi : Nat) :
    Frame [.reserve, .palette, .stats] s (invalidateRange s kind lo hi) := by
  unfold invalidateRange
  dsimp only
  refine Frame.ite ?_ ?_
  · refine Frame.upd_palette ?_ rfl
    exact Frame.refl _ _
  · refine Frame.step (openInvalidation_frame _ _) ?_ rfl
    exact Frame.refl _ _

theorem windowInvalidate_frame (s : State) (a : Nat) (b : Nat) (top : Nat) :
    Frame [.reserve, .palette, .stats] s (windowInvalidate s a b top) := by
  unfold windowInvalidate
  refine Frame.foldl ?_ ?_
  · intro _ _
    dsimp only
    refine Frame.step (invalidateRange_frame _ _ _ _) ?_ rfl
    exact Frame.refl _ _
  · refine Frame.step (invalidateRange_frame _ _ _ _) ?_ rfl
    exact Frame.refl _ _

theorem parentAdvance_frame (s : State) (t : TileId) :
    Frame [.reserve, .palette, .crypt, .perf, .stats] s (parentAdvance s t).1 := by
  unfold parentAdvance
  split
  · dsimp only
    refine Frame.ite ?_ ?_
    · refine Frame.step (bump_frame _ _ _ _) ?_ rfl
      refine Frame.foldl ?_ ?_
      · intro _ _
        refine Frame.ite ?_ ?_
        · exact Frame.refl _ _
        · refine Frame.step (palPut_frame _ _ _ _ _) ?_ rfl
          exact Frame.refl _ _
      · split
        · refine Frame.step (palPut_frame _ _ _ _ _) ?_ rfl
          exact Frame.refl _ _
        · refine Frame.upd_crypt ?_ rfl
          exact Frame.refl _ _
    · split
      · refine Frame.step (palPut_frame _ _ _ _ _) ?_ rfl
        exact Frame.refl _ _
      · refine Frame.upd_crypt ?_ rfl
        exact Frame.refl _ _
  · dsimp only
    refine Frame.ite ?_ ?_
    · refine Frame.step (bump_frame _ _ _ _) ?_ rfl
      refine Frame.foldl ?_ ?_
      · intro _ _
        refine Frame.ite ?_ ?_
        · exact Frame.refl _ _
        · refine Frame.step (palPut_frame _ _ _ _ _) ?_ rfl
          exact Frame.refl _ _
      · split
        · refine Frame.step (palPut_frame _ _ _ _ _) ?_ rfl
          exact Frame.refl _ _
        · refine Frame.upd_crypt ?_ rfl
          exact Frame.refl _ _
    · split
      · refine Frame.step (palPut_frame _ _ _ _ _) ?_ rfl
        exact Frame.refl _ _
      · refine Frame.upd_crypt ?_ rfl
        exact Frame.refl _ _
  · dsimp only
    exact Frame.refl _ _

theorem levelFour_frame (s : State) (n : Nat) :
    Frame [.reserve, .palette, .crypt, .perf, .stats, .draws] s (levelFour s n).1 := by
  unfold levelFour
  dsimp only
  refine Frame.step (parentAdvance_frame _ _) ?_ rfl
  refine Frame.ite ?_ ?_
  · exact Frame.refl _ _
  · refine Frame.step (palPut_frame _ _ _ _ _) ?_ rfl
    refine Frame.step (afterDraw_frame _) ?_ rfl
    exact Frame.refl _ _

theorem programMeta_frame (s : State) (t : TileId) (payload : Line) (major : Nat) (minor : Nat) :
    Frame [.sys, .folio, .groups, .path, .stats] s (programMeta s t payload major minor) := by
  unfold programMeta
  split
  · refine Frame.step (programTile_frame _ _ _) ?_ rfl
    exact Frame.refl _ _
  · exact Frame.refl _ _

theorem freshNode_frame (s : State) (n : Nat) :
    Frame [.sys, .folio, .reserve, .groups, .palette, .crypt, .perf, .path, .stats, .draws] s (freshNode s n) := by
  unfold freshNode
  dsimp only
  refine Frame.foldl ?_ ?_
  · intro _ _
    refine Frame.foldl ?_ ?_
    · intro _ _
      refine Frame.foldl ?_ ?_
      · intro _ _
        refine Frame.step (programMeta_frame _ _ _ _ _) ?_ rfl
        exact Frame.refl _ _
      · refine Frame.step (programMeta_frame _ _ _ _ _) ?_ rfl
        refine Frame.step (afterDraw_frame _) ?_ rfl
        exact Frame.refl _ _
    · refine Frame.step (programMeta_frame _ _ _ _ _) ?_ rfl
      refine Frame.step (afterDraw_frame _) ?_ rfl
      exact Frame.refl _ _
  · refine Frame.step (programMeta_frame _ _ _ _ _) ?_ rfl
    refine Frame.step (afterDraw_frame _) ?_ rfl
    refine Frame.step (levelFour_frame _ _) ?_ rfl
    exact Frame.refl _ _

theorem windowRelease_frame (s : State) (a : Nat) (b : Nat) (top : Nat) :
    Frame [.reserve, .palette, .stats] s (windowRelease s a b top) := by
  unfold windowRelease
  refine Frame.foldl ?_ ?_
  · intro _ _
    dsimp only
    refine Frame.step (closeInvalidation_frame _ _ _ _) ?_ rfl
    exact Frame.refl _ _
  · refine Frame.step (closeInvalidation_frame _ _ _ _) ?_ rfl
    exact Frame.refl _ _

theorem openWindow_frame (s : State) (r : Nat) :
    Frame [.sys, .folio, .reserve, .groups, .palette, .crypt, .perf, .path, .stats, .draws] s (openWindow s r) := by
  unfold openWindow
  dsimp only
  refine Frame.upd_crypt ?_ rfl
  split
  · exact Frame.refl _ _
  · refine Frame.step (windowRelease_frame _ _ _ _) ?_ rfl
    refine Frame.foldl ?_ ?_
    · intro _ _
      refine Frame.step (freshNode_frame _ _) ?_ rfl
      exact Frame.refl _ _
    · refine Frame.step (windowInvalidate_frame _ _ _ _) ?_ rfl
      exact Frame.refl _ _

theorem openFirst_frame (s : State) (r : Nat) :
    Frame [.sys, .folio, .reserve, .groups, .palette, .crypt, .perf, .path, .stats, .draws] s (openFirst s r).1 := by
  unfold openFirst
  refine Frame.fstIte ?_ ?_
  · dsimp only
    exact Frame.refl _ _
  · refine Frame.fstIte ?_ ?_
    · dsimp only
      refine Frame.step (openWindow_frame _ _) ?_ rfl
      exact Frame.refl _ _
    · dsimp only
      refine Frame.step (askWindow_frame _ _) ?_ rfl
      exact Frame.refl _ _

theorem openLineTile_frame {V : List UnitName} {s x : State} {program : State → Place → List Byte → State} {line : Nat}
    (hf : ∀ y pl b, Frame V y (program y pl b)) (h : Frame V s x) (hs : unitsIn [.draws] V = true) :
    Frame V s (openLineTile program x line) := by
  unfold openLineTile
  split
  · exact h
  · dsimp only
    exact Frame.trans (Frame.ite h (Frame.step (afterDraw_frame _) h hs)) (hf _ _ _)

theorem noteVersion_frame (s : State) (line : Nat) (version : Nat) :
    Frame [.easel] s (noteVersion s line version) := by
  unfold noteVersion
  dsimp only
  split
  · refine Frame.ite ?_ ?_
    · refine Frame.step (modLine_frame _ _ _) ?_ rfl
      exact Frame.refl _ _
    · exact Frame.refl _ _
  · exact Frame.refl _ _

theorem programLines_frame (s : State) (codes : List (Nat × List Byte)) :
    Frame [.sys, .folio, .groups, .easel, .path, .stats] s (programLines s codes) := by
  unfold programLines
  refine Frame.foldl ?_ ?_
  · intro _ _
    split
    · refine Frame.step (noteVersion_frame _ _ _) ?_ rfl
      refine Frame.step (programTile_frame _ _ _) ?_ rfl
      exact Frame.refl _ _
    · exact Frame.refl _ _
  · exact Frame.refl _ _

theorem heldTakeIn_frame (s : State) (p : Nat) :
    Frame [.mgmt, .folio, .ledger, .reserve, .ports, .groups, .easel, .palette, .directory, .queues, .barrow, .perf, .stats, .out] s (heldTakeIn s p) := by
  unfold heldTakeIn
  dsimp only
  split
  · refine Frame.ite ?_ ?_
    · refine Frame.step (completeHeld_frame _ _) ?_ rfl
      exact Frame.refl _ _
    · exact Frame.refl _ _
  · split
    · refine Frame.step (retryMerges_frame _) ?_ rfl
      refine Frame.step (rerunReads_frame _ _ _) ?_ rfl
      refine Frame.step (afterTakeIn_frame _ _ _) ?_ rfl
      refine Frame.ofT (takeIn_frame _ _) (by assumption) ?_ rfl
      refine Frame.step (modPort_frame _ _ _) ?_ rfl
      refine Frame.ite ?_ ?_
      · refine Frame.step (completeHeld_frame _ _) ?_ rfl
        exact Frame.refl _ _
      · exact Frame.refl _ _
    · refine Frame.ite ?_ ?_
      · refine Frame.step (completeHeld_frame _ _) ?_ rfl
        exact Frame.refl _ _
      · exact Frame.refl _ _

theorem meetUpsets_frame (s : State) (line : Nat) (us : List Upset) :
    Frame [.sys, .mgmt, .folio, .ledger, .reserve, .channels, .ports, .groups, .easel, .palette, .crypt, .directory, .queues, .barrow, .perf, .path, .stats, .draws, .out] s (meetUpsets s line us) := by
  unfold meetUpsets
  refine Frame.foldl ?_ ?_
  · intro _ _
    refine Frame.step (meetUpset_frame _ _ _) ?_ rfl
    exact Frame.refl _ _
  · exact Frame.refl _ _

theorem hostRead_frame (s : State) (p : Nat) (tag : Nat) (address : Nat) (mv : Nat) (us : List Upset) :
    Frame [.sys, .mgmt, .folio, .ledger, .reserve, .channels, .ports, .groups, .easel, .palette, .crypt, .directory, .queues, .barrow, .perf, .path, .stats, .draws, .out] s (hostRead s p tag address mv us) := by
  unfold hostRead
  dsimp only
  refine Frame.ite ?_ ?_
  · refine Frame.step (deliverRead_frame _ _ _ _) ?_ rfl
    refine Frame.step (earlyAccess_frame _ _) ?_ rfl
    refine Frame.step (perfCount_frame _ _ _ _) ?_ rfl
    exact Frame.refl _ _
  · refine Frame.ite ?_ ?_
    · split
      · refine Frame.step (deliverRead_frame _ _ _ _) ?_ rfl
        refine Frame.step (sampleDraw_frame _ _ _ _ _) ?_ rfl
        refine Frame.step (perfCount_frame _ _ _ _) ?_ rfl
        exact Frame.refl _ _
      · refine Frame.ite ?_ ?_
        · refine Frame.step (deliverRead_frame _ _ _ _) ?_ rfl
          refine Frame.step (sampleDraw_frame _ _ _ _ _) ?_ rfl
          refine Frame.step (countWarm_frame _ _ _) ?_ rfl
          refine Frame.step (perfCount_frame _ _ _ _) ?_ rfl
          exact Frame.refl _ _
        · refine Frame.step (lineRequest_frame _ _) ?_ rfl
          refine Frame.step (meetUpsets_frame _ _ _) ?_ rfl
          refine Frame.step (sampleDraw_frame _ _ _ _ _) ?_ rfl
          refine Frame.step (countWarm_frame _ _ _) ?_ rfl
          refine Frame.step (perfCount_frame _ _ _ _) ?_ rfl
          exact Frame.refl _ _
    · exact Frame.refl _ _

theorem hostWrite_frame (s : State) (p : Nat) (tag : Nat) (address : Nat) (mv : Nat) (mask : BitVec 64) (data : Line) (poison : Bool) (us : List Upset) :
    Frame [.sys, .mgmt, .folio, .ledger, .reserve, .channels, .ports, .groups, .easel, .palette, .crypt, .directory, .queues, .barrow, .perf, .path, .stats, .draws, .out] s (hostWrite s p tag address mv mask data poison us) := by
  unfold hostWrite
  dsimp only
  refine Frame.ite ?_ ?_
  · refine Frame.step (deliverAck_frame _ _) ?_ rfl
    refine Frame.step (earlyAccess_frame _ _) ?_ rfl
    refine Frame.step (perfCount_frame _ _ _ _) ?_ rfl
    exact Frame.refl _ _
  · refine Frame.ite ?_ ?_
    · split
      · refine Frame.step (deliverAck_frame _ _) ?_ rfl
        refine Frame.step (sampleDraw_frame _ _ _ _ _) ?_ rfl
        refine Frame.step (perfCount_frame _ _ _ _) ?_ rfl
        exact Frame.refl _ _
      · refine Frame.ite ?_ ?_
        · refine Frame.step (deliverAck_frame _ _) ?_ rfl
          refine Frame.step (sampleDraw_frame _ _ _ _ _) ?_ rfl
          refine Frame.step (countWarm_frame _ _ _) ?_ rfl
          refine Frame.step (perfCount_frame _ _ _ _) ?_ rfl
          exact Frame.refl _ _
        · refine Frame.step (lineRequest_frame _ _) ?_ rfl
          refine Frame.step (meetUpsets_frame _ _ _) ?_ rfl
          refine Frame.step (sampleDraw_frame _ _ _ _ _) ?_ rfl
          refine Frame.step (countWarm_frame _ _ _) ?_ rfl
          refine Frame.step (perfCount_frame _ _ _ _) ?_ rfl
          exact Frame.refl _ _
    · exact Frame.refl _ _

theorem i3cExecute_frame (s : State) (f : Fin 4) (frame : List Byte) :
    Frame [.sys, .mgmt, .folio, .ledger, .power, .reserve, .thermal, .channels, .ports, .groups, .easel, .palette, .crypt, .directory, .queues, .barrow, .perf, .path, .settings, .stats, .draws, .out] s (i3cExecute s f frame) := by
  unfold i3cExecute
  dsimp only
  refine Frame.ite ?_ ?_
  · refine Frame.step (modSession_frame _ _ _) ?_ rfl
    refine Frame.step (dictionaryRequest_frame _ _ _ _ _) ?_ rfl
    exact Frame.refl _ _
  · refine Frame.step (dictionaryRequest_frame _ _ _ _ _) ?_ rfl
    exact Frame.refl _ _

theorem i3cReady_frame (s : State) (f : Fin 4) (frame : List Byte) :
    Frame [.mgmt, .out] s (i3cReady s f frame) := by
  unfold i3cReady
  dsimp only
  refine Frame.ite ?_ ?_
  · refine Frame.step (emit_frame _ _) ?_ rfl
    refine Frame.upd_mgmt ?_ rfl
    refine Frame.step (modSession_frame _ _ _) ?_ rfl
    exact Frame.refl _ _
  · refine Frame.upd_mgmt ?_ rfl
    refine Frame.step (modSession_frame _ _ _) ?_ rfl
    exact Frame.refl _ _

theorem i3cRefuse_frame (s : State) (frame : List Byte) :
    Frame [.mgmt, .stats, .out] s (i3cRefuse s frame) := by
  unfold i3cRefuse
  dsimp only
  refine Frame.ite ?_ ?_
  · refine Frame.step (i3cReady_frame _ _ _) ?_ rfl
    refine Frame.step (modSession_frame _ _ _) ?_ rfl
    refine Frame.step (bump_frame _ _ _ _) ?_ rfl
    exact Frame.refl _ _
  · refine Frame.upd_mgmt ?_ rfl
    refine Frame.step (bump_frame _ _ _ _) ?_ rfl
    exact Frame.refl _ _

theorem spdmAnswer_frame (s : State) (p : Nat) (code : Nat) (payload : List Byte) :
    Frame [.out] s (spdmAnswer s p code payload) := by
  unfold spdmAnswer
  refine Frame.step (emit_frame _ _) ?_ rfl
  exact Frame.refl _ _

theorem spdmError_frame (s : State) (p : Nat) :
    Frame [.out] s (spdmError s p) := by
  unfold spdmError
  refine Frame.step (spdmAnswer_frame _ _ _ _) ?_ rfl
  exact Frame.refl _ _

theorem spdmServe_frame {U : List UnitName} {s : State} {port : Port} {lo hi : Nat} {f : State → Nat → State}
    (hf : Frame U s (f s port.val)) (hs : unitsIn [.out] U = true) : FrameN U s (spdmServe s port lo hi f) := by
  unfold spdmServe
  dsimp only
  refine FrameN.ite (FrameN.next (Frame.refl _ _)) (FrameN.ite (FrameN.next hf) (FrameN.next ?_))
  exact Frame.step (spdmError_frame _ _) (Frame.refl _ _) hs

theorem journalColumns_frame (s : State) (g : Nat) (found : List Nat) :
    Frame [.sys, .mgmt, .folio, .ledger, .ports, .groups, .easel, .palette, .directory, .queues, .barrow, .perf, .stats, .out] s (journalColumns s g found) := by
  unfold journalColumns
  dsimp only
  split
  · exact Frame.refl _ _
  · refine Frame.ite ?_ ?_
    · exact Frame.refl _ _
    · refine Frame.ite ?_ ?_
      · refine Frame.step (fenceGroup_frame _ _) ?_ rfl
        exact Frame.refl _ _
      · refine Frame.step (markRebuilding_frame _ _) ?_ rfl
        refine Frame.step (tallyAdd_frame _ _) ?_ rfl
        refine Frame.step (raise_frame _ _ _) ?_ rfl
        refine Frame.step (modGroup_frame _ _ _) ?_ rfl
        exact Frame.refl _ _
  · refine Frame.step (fenceGroup_frame _ _) ?_ rfl
    exact Frame.refl _ _

theorem replayMoveBegin_frame (s : State) (g : Nat) (retire : Bool) (x : Nat) (d : Nat) (key : Nat) :
    Frame [.groups] s (replayMoveBegin s g retire x d key) := by
  unfold replayMoveBegin
  dsimp only
  refine Frame.step (modGroup_frame _ _ _) ?_ rfl
  refine Frame.step (modRegion_frame _ _ _ _) ?_ rfl
  exact Frame.refl _ _

theorem replayStep_frame (s : State) (g : Nat) (p : Nat) :
    Frame [.groups] s (replayStep s g p) := by
  unfold replayStep
  refine Frame.step (modRegion_frame _ _ _ _) ?_ rfl
  exact Frame.refl _ _

theorem replayRegion_frame (s : State) (g : Nat) (p : Nat) :
    Frame [.groups] s (replayRegion s g p) := by
  unfold replayRegion
  dsimp only
  refine Frame.step (modGroup_frame _ _ _) ?_ rfl
  refine Frame.step (modRegion_frame _ _ _ _) ?_ rfl
  refine Frame.foldl ?_ ?_
  · intro _ _
    refine Frame.step (modRegion_frame _ _ _ _) ?_ rfl
    exact Frame.refl _ _
  · exact Frame.refl _ _

theorem replayMoveEnd_frame (s : State) (g : Nat) :
    Frame [.groups] s (replayMoveEnd s g) := by
  unfold replayMoveEnd
  dsimp only
  split
  · exact Frame.refl _ _
  · refine Frame.ite ?_ ?_
    · refine Frame.step (modRegion_frame _ _ _ _) ?_ rfl
      refine Frame.step (modRegion_frame _ _ _ _) ?_ rfl
      refine Frame.step (modGroup_frame _ _ _) ?_ rfl
      exact Frame.refl _ _
    · refine Frame.step (modGroup_frame _ _ _) ?_ rfl
      refine Frame.step (modRegion_frame _ _ _ _) ?_ rfl
      refine Frame.step (modRegion_frame _ _ _ _) ?_ rfl
      refine Frame.step (modGroup_frame _ _ _) ?_ rfl
      exact Frame.refl _ _

theorem heldOrRead_frame (s : State) (t : TileId) :
    Frame [.channels, .perf, .stats] s (heldOrRead s t).1 := by
  unfold heldOrRead
  split
  · dsimp only
    exact Frame.refl _ _
  · refine Frame.step (readMeta_frame _ _) ?_ rfl
    exact Frame.refl _ _

theorem replayRemap_frame (s : State) (g : Nat) (c : Nat) (p : Nat) (slot : Nat) :
    Frame [.reserve, .channels, .groups, .palette, .perf, .stats] s (replayRemap s g c p slot) := by
  unfold replayRemap
  dsimp only
  refine Frame.ite ?_ ?_
  · refine Frame.step (modGroup_frame _ _ _) ?_ rfl
    exact Frame.refl _ _
  · refine Frame.step (modRegion_frame _ _ _ _) ?_ rfl
    refine Frame.step (palPut_frame _ _ _ _ _) ?_ rfl
    refine Frame.step (heldOrRead_frame _ _) ?_ rfl
    refine Frame.step (modGroup_frame _ _ _) ?_ rfl
    exact Frame.refl _ _

theorem replayRecord_frame (g : Nat) (x : State × ReplayRec) (units : List Nat) :
    Frame [.reserve, .channels, .groups, .palette, .perf, .stats] x.1 (replayRecord g x units).1 := by
  unfold replayRecord
  dsimp only
  refine Frame.fstIte ?_ ?_
  · dsimp only
    refine Frame.step (replayStep_frame _ _ _) ?_ rfl
    exact Frame.refl _ _
  · refine Frame.fstIte ?_ ?_
    · dsimp only
      refine Frame.step (replayMoveBegin_frame _ _ _ _ _ _) ?_ rfl
      exact Frame.refl _ _
    · refine Frame.fstIte ?_ ?_
      · dsimp only
        refine Frame.step (modGroup_frame _ _ _) ?_ rfl
        exact Frame.refl _ _
      · refine Frame.fstIte ?_ ?_
        · dsimp only
          refine Frame.step (replayMoveEnd_frame _ _) ?_ rfl
          exact Frame.refl _ _
        · refine Frame.fstIte ?_ ?_
          · dsimp only
            refine Frame.step (replayRemap_frame _ _ _ _ _) ?_ rfl
            exact Frame.refl _ _
          · refine Frame.fstIte ?_ ?_
            · dsimp only
              refine Frame.step (replayRegion_frame _ _ _) ?_ rfl
              exact Frame.refl _ _
            · refine Frame.fstIte ?_ ?_
              · dsimp only
                exact Frame.refl _ _
              · refine Frame.fstIte ?_ ?_
                · dsimp only
                  refine Frame.step (modGroup_frame _ _ _) ?_ rfl
                  exact Frame.refl _ _
                · refine Frame.fstIte ?_ ?_
                  · dsimp only
                    refine Frame.step (markRebuilding_frame _ _) ?_ rfl
                    refine Frame.step (modGroup_frame _ _ _) ?_ rfl
                    exact Frame.refl _ _
                  · exact Frame.refl _ _

theorem replayUnits_frame (g : Nat) (x : State × ReplayRec) (content : List Byte) (c : Option Nat) :
    Frame [.reserve, .channels, .groups, .palette, .perf, .stats] x.1 (replayUnits g x content c).1 := by
  unfold replayUnits
  dsimp only
  refine Frame.foldlFst ?_ ?_
  · intro _ _
    refine Frame.step (replayRecord_frame _ _ _) ?_ rfl
    exact Frame.refl _ _
  · dsimp only
    refine Frame.step (modGroup_frame _ _ _) ?_ rfl
    exact Frame.refl _ _

theorem replayTiles_frame (errs : List TileDisturb) (g : Nat) (a1 : Nat) (a2 : State × ReplayRec) :
    Frame [.reserve, .channels, .groups, .palette, .perf, .stats] a2.1 (replayTiles errs g a1 a2).1 := by
  induction a1 generalizing errs g a2 with
  | zero =>
    unfold replayTiles
    exact Frame.refl _ _
  | succ n ih =>
    unfold replayTiles
    dsimp only
    refine Frame.fstIte ?_ ?_
    · exact Frame.refl _ _
    · refine Frame.fstIte ?_ ?_
      · dsimp only
        refine Frame.step (searchTile_frame _ _ _ _ _) ?_ rfl
        exact Frame.refl _ _
      · refine Frame.step (ih _ _ _) ?_ rfl
        refine Frame.step (replayUnits_frame _ _ _ _) ?_ rfl
        dsimp only
        refine Frame.step (searchTile_frame _ _ _ _ _) ?_ rfl
        exact Frame.refl _ _

theorem replayGroup_frame (errs : List TileDisturb) (x : State × List (Nat × ReplayRec)) (g : Nat) :
    Frame [.sys, .mgmt, .folio, .ledger, .reserve, .channels, .ports, .groups, .easel, .palette, .directory, .queues, .barrow, .perf, .stats, .out] x.1 (replayGroup errs x g).1 := by
  unfold replayGroup
  dsimp only
  refine Frame.step (setStat_frame _ _ _ _) ?_ rfl
  refine Frame.step (journalColumns_frame _ _ _) ?_ rfl
  refine Frame.step (replayTiles_frame _ _ _ _) ?_ rfl
  dsimp only
  exact Frame.refl _ _

theorem resolveUnreadable_frame (s : State) (line : Nat) (g : Nat) (retries : Nat) :
    Frame [.sys, .mgmt, .folio, .ledger, .groups, .palette, .path, .stats, .out] s (resolveUnreadable s line g retries) := by
  unfold resolveUnreadable
  dsimp only
  refine Frame.step (poisonPermanent_frame _ _) ?_ rfl
  refine Frame.step (writePoisonTile_frame _ _ _) ?_ rfl
  refine Frame.step (unreadableEvent_frame _ _ _ _) ?_ rfl
  exact Frame.refl _ _

theorem resolveLost_frame (s : State) (line : Nat) :
    Frame [.sys, .mgmt, .folio, .ledger, .ports, .groups, .palette, .queues, .path, .stats, .out] s (resolveLost s line) := by
  unfold resolveLost
  dsimp only
  refine Frame.step (raise_frame _ _ _) ?_ rfl
  refine Frame.step (mediaEvent_frame _ _ _) ?_ rfl
  refine Frame.step (poisonPermanent_frame _ _) ?_ rfl
  refine Frame.step (writePoisonTile_frame _ _ _) ?_ rfl
  refine Frame.step (bump_frame _ _ _ _) ?_ rfl
  exact Frame.refl _ _

theorem resolveLine_frame (errs : List TileDisturb) (x : State × List ResolvedLine) (line : Nat) (keys : List (List Byte × Nat × Nat × Bool × Bool)) :
    Frame [.sys, .mgmt, .folio, .ledger, .channels, .ports, .groups, .palette, .queues, .perf, .path, .stats, .out] x.1 (resolveLine errs x line keys).1 := by
  unfold resolveLine
  split
  · exact Frame.refl _ _
  · dsimp only
    split
    · split
      · dsimp only
        refine Frame.step (engineRead_frame _ _ _ _) ?_ rfl
        exact Frame.refl _ _
      · dsimp only
        refine Frame.step (resolveLost_frame _ _) ?_ rfl
        refine Frame.step (engineRead_frame _ _ _ _) ?_ rfl
        exact Frame.refl _ _
    · dsimp only
      refine Frame.step (engineRead_frame _ _ _ _) ?_ rfl
      exact Frame.refl _ _
    · dsimp only
      refine Frame.step (resolveUnreadable_frame _ _ _ _) ?_ rfl
      refine Frame.step (engineRead_frame _ _ _ _) ?_ rfl
      exact Frame.refl _ _

theorem rewriteLine_frame (s : State) (key : List Byte) (major : Nat) (version : Nat) (r : ResolvedLine) :
    Frame [.sys, .folio, .groups, .path, .stats] s (rewriteLine s key major version r) := by
  unfold rewriteLine
  split
  · refine Frame.step (programTile_frame _ _ _) ?_ rfl
    exact Frame.refl _ _
  · refine Frame.step (programTile_frame _ _ _) ?_ rfl
    exact Frame.refl _ _
  · exact Frame.refl _ _

theorem resolvePage_frame (errs : List TileDisturb) (old : List Byte) (new : List Byte) (s : State) (c : Nat) :
    Frame [.sys, .mgmt, .folio, .ledger, .reserve, .channels, .ports, .groups, .palette, .queues, .perf, .path, .stats, .out] s (resolvePage errs old new s c) := by
  unfold resolvePage
  dsimp only
  split
  · refine Frame.step (heldOrRead_frame _ _) ?_ rfl
    exact Frame.refl _ _
  · refine Frame.ite ?_ ?_
    · refine Frame.step (palPut_frame _ _ _ _ _) ?_ rfl
      refine Frame.foldl ?_ ?_
      · intro _ _
        refine Frame.step (rewriteLine_frame _ _ _ _ _) ?_ rfl
        exact Frame.refl _ _
      · refine Frame.foldlFst ?_ ?_
        · intro _ _
          refine Frame.step (resolveLine_frame _ _ _ _) ?_ rfl
          exact Frame.refl _ _
        · dsimp only
          refine Frame.step (heldOrRead_frame _ _) ?_ rfl
          exact Frame.refl _ _
    · refine Frame.foldlFst ?_ ?_
      · intro _ _
        refine Frame.step (resolveLine_frame _ _ _ _) ?_ rfl
        exact Frame.refl _ _
      · dsimp only
        refine Frame.step (heldOrRead_frame _ _) ?_ rfl
        exact Frame.refl _ _

theorem underRangeKeys_frame {V : List UnitName} {s x : State} {f : State → State}
    (hf : ∀ y, Frame V y (f y)) (h : Frame V s x) (hs : unitsIn [.sys] V = true) : Frame V s (underRangeKeys x f) := by
  unfold underRangeKeys
  exact Frame.upd_sys (Frame.trans (Frame.upd_sys h hs) (hf _)) hs

theorem resolvePages_frame (errs : List TileDisturb) (s : State) (zone : Option (Nat × Nat × Nat)) (recs : List (Nat × ReplayRec)) :
    Frame [.sys, .mgmt, .folio, .ledger, .reserve, .channels, .ports, .groups, .palette, .queues, .perf, .path, .stats, .out] s (resolvePages errs s zone recs) := by
  unfold resolvePages
  refine underRangeKeys_frame ?_ ?_ rfl
  · intro _
    refine Frame.foldl ?_ ?_
    · intro _ _
      split
      · split
        · refine Frame.step (resolvePage_frame _ _ _ _ _) ?_ rfl
          exact Frame.refl _ _
        · exact Frame.refl _ _
      · exact Frame.refl _ _
    · exact Frame.refl _ _
  · exact Frame.refl _ _

theorem resolveOpen_frame (errs : List TileDisturb) (r : Nat) (s : State) (line : Nat) :
    Frame [.sys, .mgmt, .folio, .ledger, .channels, .ports, .groups, .palette, .queues, .perf, .path, .stats, .out] s (resolveOpen errs r s line) := by
  unfold resolveOpen
  dsimp only
  refine Frame.foldl ?_ ?_
  · intro _ _
    refine Frame.ite ?_ ?_
    · refine Frame.step (rewriteLine_frame _ _ _ _ _) ?_ rfl
      exact Frame.refl _ _
    · exact Frame.refl _ _
  · refine Frame.step (resolveLine_frame _ _ _ _) ?_ rfl
    dsimp only
    exact Frame.refl _ _

theorem resolveZone_frame (errs : List TileDisturb) (s : State) (r : Nat) (lo : Nat) (hi : Nat) :
    Frame [.sys, .mgmt, .folio, .ledger, .reserve, .channels, .ports, .groups, .easel, .palette, .crypt, .queues, .perf, .path, .stats, .out] s (resolveZone errs s r lo hi) := by
  unfold resolveZone
  dsimp only
  refine Frame.step (raise_frame _ _ _) ?_ rfl
  refine Frame.ite ?_ ?_
  · refine Frame.step (beginFinishing_frame _ _) ?_ rfl
    refine Frame.upd_crypt ?_ rfl
    refine underRangeKeys_frame ?_ ?_ rfl
    · intro _
      refine Frame.ite ?_ ?_
      · refine Frame.foldl ?_ ?_
        · intro _ _
          refine Frame.step (resolvePage_frame _ _ _ _ _) ?_ rfl
          exact Frame.refl _ _
        · exact Frame.refl _ _
      · refine Frame.foldl ?_ ?_
        · intro _ _
          refine Frame.step (resolveOpen_frame _ _ _ _) ?_ rfl
          exact Frame.refl _ _
        · exact Frame.refl _ _
    · exact Frame.refl _ _
  · refine Frame.upd_crypt ?_ rfl
    refine underRangeKeys_frame ?_ ?_ rfl
    · intro _
      refine Frame.ite ?_ ?_
      · refine Frame.foldl ?_ ?_
        · intro _ _
          refine Frame.step (resolvePage_frame _ _ _ _ _) ?_ rfl
          exact Frame.refl _ _
        · exact Frame.refl _ _
      · refine Frame.foldl ?_ ?_
        · intro _ _
          refine Frame.step (resolveOpen_frame _ _ _ _) ?_ rfl
          exact Frame.refl _ _
        · exact Frame.refl _ _
    · exact Frame.refl _ _

theorem resolveGlaze_frame (errs : List TileDisturb) (s : State) (recs : List (Nat × ReplayRec)) :
    Frame [.sys, .mgmt, .folio, .ledger, .reserve, .channels, .ports, .groups, .easel, .palette, .crypt, .queues, .perf, .path, .stats, .out] s (resolveGlaze errs s recs) := by
  unfold resolveGlaze
  dsimp only
  split
  · refine Frame.step (resolveZone_frame _ _ _ _ _) ?_ rfl
    refine Frame.step (resolvePages_frame _ _ _ _) ?_ rfl
    exact Frame.refl _ _
  · refine Frame.step (resolvePages_frame _ _ _ _) ?_ rfl
    exact Frame.refl _ _

theorem journalComplete_frame (s : State) (g : Nat) :
    Frame [.sys, .folio, .groups, .queues, .path, .stats] s (journalComplete s g) := by
  unfold journalComplete
  dsimp only
  split
  · exact Frame.refl _ _
  · refine Frame.step (setMark_frame _ _ _) ?_ rfl
    refine Frame.step (modGroup_frame _ _ _) ?_ rfl
    refine Frame.step (filterMark_frame _ _ _ _) ?_ rfl
    refine Frame.step (storeColumns_frame _ _ _ _ _) ?_ rfl
    exact Frame.refl _ _

theorem reducedTraining_frame (s : State) (p : Nat) :
    Frame [.mgmt, .folio, .ledger, .stats, .out] s (reducedTraining s p) := by
  unfold reducedTraining
  dsimp only
  refine Frame.ite ?_ ?_
  · refine Frame.step (raise_frame _ _ _) ?_ rfl
    refine Frame.step (bump_frame _ _ _ _) ?_ rfl
    exact Frame.refl _ _
  · exact Frame.refl _ _

theorem noteTemps_frame (s : State) (g : Nat) :
    Frame [.mgmt, .folio, .ledger, .groups, .stats, .out] s (noteTemps s g) := by
  unfold noteTemps
  split
  · refine Frame.step (modGroup_frame _ _ _) ?_ rfl
    exact Frame.refl _ _
  · refine Frame.ite ?_ ?_
    · exact Frame.refl _ _
    · refine Frame.step (raise_frame _ _ _) ?_ rfl
      refine Frame.step (modGroup_frame _ _ _) ?_ rfl
      exact Frame.refl _ _

theorem stackLevel_frame (s : State) (g : Nat) :
    Frame [.thermal, .channels] s (stackLevel s g) := by
  unfold stackLevel
  dsimp only
  split
  · exact Frame.refl _ _
  · refine Frame.ite ?_ ?_
    · refine Frame.upd_thermal ?_ rfl
      exact Frame.refl _ _
    · refine Frame.ite ?_ ?_
      · refine Frame.upd_thermal ?_ rfl
        refine Frame.foldl ?_ ?_
        · intro _ _
          refine Frame.step (modChannel_frame _ _ _) ?_ rfl
          exact Frame.refl _ _
        · exact Frame.refl _ _
      · exact Frame.refl _ _

theorem judgeMeasure_frame (s : State) (c : Nat) (first : Bool) :
    Frame [.mgmt, .folio, .ledger, .reserve, .stats, .out] s (judgeMeasure s c first) := by
  unfold judgeMeasure
  refine Frame.ite ?_ ?_
  · refine Frame.step (reserveFail_frame _ _) ?_ rfl
    exact Frame.refl _ _
  · refine Frame.ite ?_ ?_
    · refine Frame.step (raise_frame _ _ _) ?_ rfl
      refine Frame.step (stopCharge_frame _) ?_ rfl
      refine Frame.upd_reserve ?_ rfl
      exact Frame.refl _ _
    · refine Frame.ite ?_ ?_
      · refine Frame.step (reserveOversized_frame _) ?_ rfl
        exact Frame.refl _ _
      · dsimp only
        refine Frame.ite ?_ ?_
        · refine Frame.step (bleedOver_frame _ _) ?_ rfl
          refine Frame.upd_reserve ?_ rfl
          exact Frame.refl _ _
        · refine Frame.step (charge_frame _) ?_ rfl
          refine Frame.upd_reserve ?_ rfl
          exact Frame.refl _ _

theorem firstMeasure_frame (s : State) (c : Nat) (esr : Nat) :
    Frame [.mgmt, .folio, .ledger, .reserve, .stats, .out] s (firstMeasure s c esr) := by
  unfold firstMeasure
  dsimp only
  refine Frame.step (judgeMeasure_frame _ _ _) ?_ rfl
  refine Frame.step (bump_frame _ _ _ _) ?_ rfl
  refine Frame.upd_reserve ?_ rfl
  exact Frame.refl _ _

theorem lateLosses_frame (s : State) :
    Frame [.sys, .mgmt, .folio, .ledger, .ports, .groups, .easel, .palette, .directory, .queues, .barrow, .perf, .stats, .out] s (lateLosses s) := by
  unfold lateLosses
  refine Frame.ite ?_ ?_
  · refine Frame.foldl ?_ ?_
    · intro _ _
      split
      · exact Frame.refl _ _
      · refine Frame.step (staleColumn_frame _ _ _) ?_ rfl
        exact Frame.refl _ _
    · exact Frame.refl _ _
  · exact Frame.refl _ _

theorem moveSource_frame (s : State) (g : Nat) (m : MoveRec) :
    Frame [.mgmt, .folio, .ledger, .groups, .queues, .perf, .stats, .draws, .out] s (moveSource s g m) := by
  unfold moveSource
  refine Frame.ite ?_ ?_
  · dsimp only
    refine Frame.step (tallyAdd_frame _ _) ?_ rfl
    refine Frame.step (raise_frame _ _ _) ?_ rfl
    refine Frame.step (modRegion_frame _ _ _ _) ?_ rfl
    exact Frame.refl _ _
  · refine Frame.ite ?_ ?_
    · refine Frame.step (moveBegin_frame _ _ _ _ _ _) ?_ rfl
      exact Frame.refl _ _
    · dsimp only
      refine Frame.step (modGroup_frame _ _ _) ?_ rfl
      refine Frame.step (modRegion_frame _ _ _ _) ?_ rfl
      exact Frame.refl _ _

theorem moveEnd_frame (s : State) (g : Nat) (m : MoveRec) :
    Frame [.mgmt, .folio, .ledger, .groups, .queues, .perf, .stats, .draws, .out] s (moveEnd s g m) := by
  unfold moveEnd
  dsimp only
  refine Frame.ite ?_ ?_
  · refine Frame.step (beginRetirement_frame _ _) ?_ rfl
    refine Frame.step (moveSource_frame _ _ _) ?_ rfl
    refine Frame.step (bump_frame _ _ _ _) ?_ rfl
    refine Frame.step (jqPush_frame _ _ _) ?_ rfl
    refine Frame.step (modRegion_frame _ _ _ _) ?_ rfl
    refine Frame.step (modRegion_frame _ _ _ _) ?_ rfl
    refine Frame.step (modGroup_frame _ _ _) ?_ rfl
    exact Frame.refl _ _
  · refine Frame.step (moveSource_frame _ _ _) ?_ rfl
    refine Frame.step (bump_frame _ _ _ _) ?_ rfl
    refine Frame.step (jqPush_frame _ _ _) ?_ rfl
    refine Frame.step (modRegion_frame _ _ _ _) ?_ rfl
    refine Frame.step (modRegion_frame _ _ _ _) ?_ rfl
    refine Frame.step (modGroup_frame _ _ _) ?_ rfl
    exact Frame.refl _ _

theorem writeSwatch_frame (s : State) (g : Nat) (p : Nat) :
    Frame [.sys, .folio, .groups, .path, .stats] s (writeSwatch s g p) := by
  unfold writeSwatch
  refine Frame.foldl ?_ ?_
  · intro _ _
    dsimp only
    refine Frame.step (noteProgram_frame _ _ _) ?_ rfl
    refine Frame.step (programAt_frame _ _ _) ?_ rfl
    exact Frame.refl _ _
  · exact Frame.refl _ _

theorem stackMrr_frame (s : State) (ch : Nat) (r : Nat) (temperature : Byte) :
    Frame [.channels, .out] s (stackMrr s ch r temperature) := by
  unfold stackMrr
  dsimp only
  refine Frame.ite ?_ ?_
  · refine Frame.step (setModeReg_frame _ _ _ _) ?_ rfl
    refine Frame.step (emit_frame _ _) ?_ rfl
    exact Frame.refl _ _
  · refine Frame.step (emit_frame _ _) ?_ rfl
    exact Frame.refl _ _

theorem leaveService_frame (s : State) (state : Nmt) :
    Frame [.mgmt] s (leaveService s state) := by
  unfold leaveService
  refine Frame.upd_mgmt ?_ rfl
  exact Frame.refl _ _

theorem nmtReset_frame (s : State) (command : Nat) (broadcast : Bool) :
    Frame [.mgmt, .folio, .ledger, .stats, .out] s (nmtReset s command broadcast) := by
  unfold nmtReset
  dsimp only
  refine Frame.step (raise_frame _ _ _) ?_ rfl
  refine Frame.step (nmtBoot_frame _) ?_ rfl
  refine Frame.step (communicationSettings_frame _) ?_ rfl
  refine Frame.upd_mgmt ?_ rfl
  refine Frame.step (releaseSessions_frame _ _ _) ?_ rfl
  refine Frame.step (leaveService_frame _ _) ?_ rfl
  exact Frame.refl _ _

theorem openRest_frame (s : State) (r : Nat) :
    Frame [.sys, .folio, .groups, .path, .stats, .draws] s (openRest s r) := by
  unfold openRest
  dsimp only
  refine Frame.foldl ?_ ?_
  · intro _ _
    refine Frame.foldl ?_ ?_
    · intro _ _
      refine openLineTile_frame ?_ ?_ rfl
      · intro _ _ _
        refine Frame.step (programTile_frame _ _ _) ?_ rfl
        exact Frame.refl _ _
      · exact Frame.refl _ _
    · exact Frame.refl _ _
  · refine Frame.foldl ?_ ?_
    · intro _ _
      refine openLineTile_frame ?_ ?_ rfl
      · intro _ _ _
        refine Frame.step (programTile_frame _ _ _) ?_ rfl
        exact Frame.refl _ _
      · exact Frame.refl _ _
    · exact Frame.refl _ _

theorem modPage_frame (s : State) (c : Nat) (f : PageJob2 → PageJob2) :
    Frame [.groups] s (modPage s c f) := by
  unfold modPage
  refine Frame.step (modGroup_frame _ _ _) ?_ rfl
  exact Frame.refl _ _

theorem pageStep_frame (s : State) (job : PageJob2) (errs : List (List Codeword)) :
    Frame [.sys, .mgmt, .folio, .ledger, .reserve, .channels, .ports, .groups, .easel, .palette, .queues, .perf, .path, .stats, .out] s (pageStep s job errs) := by
  unfold pageStep
  dsimp only
  split
  · refine Frame.ite ?_ ?_
    · refine Frame.step (askLines_frame _ _ _) ?_ rfl
      refine Frame.ite ?_ ?_
      · exact Frame.refl _ _
      · refine Frame.step (jqPush_frame _ _ _) ?_ rfl
        refine Frame.step (modPage_frame _ _ _) ?_ rfl
        exact Frame.refl _ _
    · refine Frame.ite ?_ ?_
      · refine Frame.ite ?_ ?_
        · exact Frame.refl _ _
        · refine Frame.step (jqPush_frame _ _ _) ?_ rfl
          refine Frame.step (modPage_frame _ _ _) ?_ rfl
          exact Frame.refl _ _
      · refine Frame.ite ?_ ?_
        · refine Frame.step (modPage_frame _ _ _) ?_ rfl
          refine Frame.step (deviceBook_frame _ _) ?_ rfl
          refine Frame.step (readLines_frame _ _ _ _) ?_ rfl
          dsimp only
          refine Frame.ite ?_ ?_
          · exact Frame.refl _ _
          · refine Frame.step (jqPush_frame _ _ _) ?_ rfl
            refine Frame.step (modPage_frame _ _ _) ?_ rfl
            exact Frame.refl _ _
        · refine Frame.step (readLines_frame _ _ _ _) ?_ rfl
          dsimp only
          refine Frame.ite ?_ ?_
          · exact Frame.refl _ _
          · refine Frame.step (jqPush_frame _ _ _) ?_ rfl
            refine Frame.step (modPage_frame _ _ _) ?_ rfl
            exact Frame.refl _ _
  · refine Frame.step (palLookup_frame _ _ _) ?_ rfl
    exact Frame.refl _ _
  · refine Frame.step (modGroup_frame _ _ _) ?_ rfl
    exact Frame.refl _ _

theorem unqueue_frame (s : State) (it : FolioItem) :
    Frame [.folio] s (unqueue s it) := by
  unfold unqueue
  refine Frame.upd_folio ?_ rfl
  exact Frame.refl _ _

theorem startPageWrite_frame (s : State) :
    Frame [.sys, .folio, .ledger] s (startPageWrite s) := by
  unfold startPageWrite
  dsimp only
  split
  · exact Frame.refl _ _
  · split
    · split
      · refine Frame.upd_folio ?_ rfl
        refine Frame.ofFst (itemSettle_frame _ _ _) (by assumption) ?_ rfl
        refine Frame.step (unqueue_frame _ _) ?_ rfl
        exact Frame.refl _ _
      · refine Frame.ofFst (itemSettle_frame _ _ _) (by assumption) ?_ rfl
        refine Frame.step (unqueue_frame _ _) ?_ rfl
        exact Frame.refl _ _
    · refine Frame.ofFst (itemSettle_frame _ _ _) (by assumption) ?_ rfl
      refine Frame.step (unqueue_frame _ _) ?_ rfl
      exact Frame.refl _ _

theorem readRefused_frame (s : State) (n : Nat) (version : Bool) :
    Frame [.sys, .mgmt, .folio, .ledger, .reserve, .ports, .groups, .easel, .palette, .directory, .queues, .barrow, .perf, .path, .stats, .out] s (readRefused s n version) := by
  unfold readRefused
  dsimp only
  refine Frame.ite ?_ ?_
  · refine Frame.ite ?_ ?_
    · refine Frame.ite ?_ ?_
      · refine Frame.step (retryMerges_frame _) ?_ rfl
        refine Frame.step (deliverWaits_frame _ _ _ _) ?_ rfl
        refine Frame.step (raise_frame _ _ _) ?_ rfl
        refine Frame.step (mediaEvent_frame _ _ _) ?_ rfl
        refine Frame.step (poisonPermanent_frame _ _) ?_ rfl
        refine Frame.step (modLine_frame _ _ _) ?_ rfl
        refine Frame.ite ?_ ?_
        · refine Frame.step (chargeLine_frame _ _ _ _) ?_ rfl
          refine Frame.step (setMerge_frame _ _ _) ?_ rfl
          refine Frame.step (bump_frame _ _ _ _) ?_ rfl
          refine Frame.upd_easel ?_ rfl
          exact Frame.refl _ _
        · refine Frame.step (setMerge_frame _ _ _) ?_ rfl
          refine Frame.step (bump_frame _ _ _ _) ?_ rfl
          refine Frame.upd_easel ?_ rfl
          exact Frame.refl _ _
      · refine Frame.step (deliverWaits_frame _ _ _ _) ?_ rfl
        refine Frame.step (lineCheckFailed_frame _ _ _ _ _) ?_ rfl
        refine Frame.upd_easel ?_ rfl
        exact Frame.refl _ _
    · refine Frame.upd_easel ?_ rfl
      exact Frame.refl _ _
  · refine Frame.step (deliverAll_frame _ _ _ _) ?_ rfl
    refine Frame.step (lineCheckFailed_frame _ _ _ _ _) ?_ rfl
    refine Frame.upd_easel ?_ rfl
    exact Frame.refl _ _

theorem verifyRead_frame (s : State) (n : Nat) (content : List Byte) :
    Frame [.sys, .mgmt, .folio, .ledger, .reserve, .ports, .groups, .easel, .palette, .directory, .queues, .barrow, .perf, .path, .stats, .out] s (verifyRead s n content) := by
  unfold verifyRead
  dsimp only
  refine Frame.ite ?_ ?_
  · refine Frame.step (lookupPath_frame _ _) ?_ rfl
    refine Frame.step (modRead_frame _ _ _) ?_ rfl
    exact Frame.refl _ _
  · split
    · refine Frame.step (completeRead_frame _ _ _ _ _) ?_ rfl
      exact Frame.refl _ _
    · refine Frame.step (readRefused_frame _ _ _) ?_ rfl
      exact Frame.refl _ _
    · refine Frame.step (readRefused_frame _ _ _) ?_ rfl
      exact Frame.refl _ _
    · exact Frame.refl _ _

theorem retrySealed_frame (s : State) :
    Frame [.sys, .mgmt, .folio, .ledger, .reserve, .ports, .groups, .easel, .palette, .directory, .queues, .barrow, .perf, .path, .stats, .out] s (retrySealed s) := by
  unfold retrySealed
  refine Frame.foldl ?_ ?_
  · intro _ _
    refine Frame.step (verifyRead_frame _ _ _) ?_ rfl
    exact Frame.refl _ _
  · exact Frame.refl _ _

theorem readUnreadable_frame (s : State) (n : Nat) :
    Frame [.sys, .mgmt, .folio, .ledger, .reserve, .ports, .groups, .easel, .palette, .directory, .queues, .barrow, .perf, .path, .stats, .out] s (readUnreadable s n) := by
  unfold readUnreadable
  dsimp only
  refine Frame.ite ?_ ?_
  · refine Frame.ite ?_ ?_
    · refine Frame.ite ?_ ?_
      · refine Frame.step (retryMerges_frame _) ?_ rfl
        refine Frame.step (deliverWaits_frame _ _ _ _) ?_ rfl
        refine Frame.step (raise_frame _ _ _) ?_ rfl
        refine Frame.step (poisonPermanent_frame _ _) ?_ rfl
        refine Frame.step (mediaEvent_frame _ _ _) ?_ rfl
        refine Frame.step (raise_frame _ _ _) ?_ rfl
        refine Frame.step (modLine_frame _ _ _) ?_ rfl
        refine Frame.ite ?_ ?_
        · refine Frame.step (chargeLine_frame _ _ _ _) ?_ rfl
          refine Frame.step (setMerge_frame _ _ _) ?_ rfl
          refine Frame.upd_easel ?_ rfl
          exact Frame.refl _ _
        · refine Frame.step (setMerge_frame _ _ _) ?_ rfl
          refine Frame.upd_easel ?_ rfl
          exact Frame.refl _ _
      · refine Frame.step (deliverWaits_frame _ _ _ _) ?_ rfl
        refine Frame.step (lineUnreadable_frame _ _ _ _ _) ?_ rfl
        refine Frame.step (modLine_frame _ _ _) ?_ rfl
        refine Frame.upd_easel ?_ rfl
        exact Frame.refl _ _
    · refine Frame.upd_easel ?_ rfl
      exact Frame.refl _ _
  · refine Frame.step (deliverAll_frame _ _ _ _) ?_ rfl
    refine Frame.step (lineUnreadable_frame _ _ _ _ _) ?_ rfl
    refine Frame.upd_easel ?_ rfl
    exact Frame.refl _ _

theorem metaUnreadable_frame (s : State) (t : TileId) (g : Nat) (retries : Nat) :
    Frame [.sys, .mgmt, .folio, .ledger, .reserve, .channels, .ports, .groups, .easel, .palette, .crypt, .directory, .queues, .barrow, .perf, .path, .stats, .draws, .out] s (metaUnreadable s t g retries) := by
  unfold metaUnreadable
  dsimp only
  refine Frame.ite ?_ ?_
  · refine Frame.step (deepReadOrPoison_frame _ _ _ _) ?_ rfl
    refine Frame.foldl ?_ ?_
    · intro _ _
      refine Frame.step (readUnreadable_frame _ _) ?_ rfl
      exact Frame.refl _ _
    · refine Frame.step (raise_frame _ _ _) ?_ rfl
      exact Frame.refl _ _
  · refine Frame.step (metaLost_frame _ _ _) ?_ rfl
    refine Frame.step (deepReadOrPoison_frame _ _ _ _) ?_ rfl
    refine Frame.foldl ?_ ?_
    · intro _ _
      refine Frame.step (readUnreadable_frame _ _) ?_ rfl
      exact Frame.refl _ _
    · refine Frame.step (raise_frame _ _ _) ?_ rfl
      exact Frame.refl _ _

theorem fillFailed_frame (s : State) (n : Nat) (m : MissReg) (pl : Place) (content : List Byte) (misdirected : Bool) :
    Frame [.sys, .mgmt, .folio, .ledger, .reserve, .channels, .ports, .groups, .easel, .palette, .crypt, .directory, .queues, .barrow, .perf, .path, .stats, .draws, .out] s (fillFailed s n m pl content misdirected) := by
  unfold fillFailed
  dsimp only
  refine Frame.ite ?_ ?_
  · refine Frame.step (setMiss_frame _ _ _) ?_ rfl
    refine Frame.step (retryIssued_frame _ _) ?_ rfl
    refine Frame.ite ?_ ?_
    · refine Frame.step (misdirectedEvent_frame _ _ _) ?_ rfl
      exact Frame.refl _ _
    · refine Frame.ite ?_ ?_
      · refine Frame.step (bumpCodec_frame _ _ _ _) ?_ rfl
        exact Frame.refl _ _
      · exact Frame.refl _ _
  · refine Frame.ite ?_ ?_
    · refine Frame.step (markedFill_frame _ _ _) ?_ rfl
      refine Frame.ite ?_ ?_
      · refine Frame.step (misdirectedEvent_frame _ _ _) ?_ rfl
        exact Frame.refl _ _
      · refine Frame.ite ?_ ?_
        · refine Frame.step (bumpCodec_frame _ _ _ _) ?_ rfl
          exact Frame.refl _ _
        · exact Frame.refl _ _
    · refine Frame.step (metaUnreadable_frame _ _ _ _) ?_ rfl
      refine Frame.step (setMiss_frame _ _ _) ?_ rfl
      refine Frame.ite ?_ ?_
      · refine Frame.step (misdirectedEvent_frame _ _ _) ?_ rfl
        exact Frame.refl _ _
      · refine Frame.ite ?_ ?_
        · refine Frame.step (bumpCodec_frame _ _ _ _) ?_ rfl
          exact Frame.refl _ _
        · exact Frame.refl _ _

theorem fillArrived_frame (s : State) (n : Nat) (m : MissReg) (pl : Place) (err : Codeword) (xfer : Byte) :
    Frame [.sys, .mgmt, .folio, .ledger, .reserve, .channels, .ports, .groups, .easel, .palette, .crypt, .directory, .queues, .barrow, .perf, .path, .stats, .draws, .out] s (fillArrived s n m pl err xfer) := by
  unfold fillArrived
  dsimp only
  split
  · refine Frame.step (settleFill_frame _ _ _ _) ?_ rfl
    refine Frame.step (nominateAfter_frame _ _ _ _ _ _) ?_ rfl
    refine Frame.ite ?_ ?_
    · refine Frame.step (bumpCodec_frame _ _ _ _) ?_ rfl
      refine Frame.step (readTile_frame _ _ _ _ _) ?_ rfl
      refine Frame.step (takeErased_frame _ _ _) ?_ rfl
      refine Frame.step (setMiss_frame _ _ _) ?_ rfl
      exact Frame.refl _ _
    · refine Frame.step (readTile_frame _ _ _ _ _) ?_ rfl
      refine Frame.step (takeErased_frame _ _ _) ?_ rfl
      refine Frame.step (setMiss_frame _ _ _) ?_ rfl
      exact Frame.refl _ _
  · refine Frame.ite ?_ ?_
    · refine Frame.step (markedFill_frame _ _ _) ?_ rfl
      refine Frame.step (nominateAfter_frame _ _ _ _ _ _) ?_ rfl
      refine Frame.ite ?_ ?_
      · refine Frame.step (bumpCodec_frame _ _ _ _) ?_ rfl
        refine Frame.step (readTile_frame _ _ _ _ _) ?_ rfl
        refine Frame.step (takeErased_frame _ _ _) ?_ rfl
        refine Frame.step (setMiss_frame _ _ _) ?_ rfl
        exact Frame.refl _ _
      · refine Frame.step (readTile_frame _ _ _ _ _) ?_ rfl
        refine Frame.step (takeErased_frame _ _ _) ?_ rfl
        refine Frame.step (setMiss_frame _ _ _) ?_ rfl
        exact Frame.refl _ _
    · refine Frame.step (metaLost_frame _ _ _) ?_ rfl
      refine Frame.foldl ?_ ?_
      · intro _ _
        refine Frame.step (readUnreadable_frame _ _) ?_ rfl
        exact Frame.refl _ _
      · refine Frame.step (setMiss_frame _ _ _) ?_ rfl
        refine Frame.step (nominateAfter_frame _ _ _ _ _ _) ?_ rfl
        refine Frame.ite ?_ ?_
        · refine Frame.step (bumpCodec_frame _ _ _ _) ?_ rfl
          refine Frame.step (readTile_frame _ _ _ _ _) ?_ rfl
          refine Frame.step (takeErased_frame _ _ _) ?_ rfl
          refine Frame.step (setMiss_frame _ _ _) ?_ rfl
          exact Frame.refl _ _
        · refine Frame.step (readTile_frame _ _ _ _ _) ?_ rfl
          refine Frame.step (takeErased_frame _ _ _) ?_ rfl
          refine Frame.step (setMiss_frame _ _ _) ?_ rfl
          exact Frame.refl _ _
  · refine Frame.step (fillFailed_frame _ _ _ _ _ _) ?_ rfl
    refine Frame.step (readTile_frame _ _ _ _ _) ?_ rfl
    refine Frame.step (takeErased_frame _ _ _) ?_ rfl
    refine Frame.step (setMiss_frame _ _ _) ?_ rfl
    exact Frame.refl _ _
  · refine Frame.step (fillFailed_frame _ _ _ _ _ _) ?_ rfl
    refine Frame.step (readTile_frame _ _ _ _ _) ?_ rfl
    refine Frame.step (takeErased_frame _ _ _) ?_ rfl
    refine Frame.step (setMiss_frame _ _ _) ?_ rfl
    exact Frame.refl _ _

theorem palComplete_frame (s : State) (w : Nat) :
    Frame [.sys, .folio, .reserve, .groups, .palette, .path, .stats] s (palComplete s w) := by
  unfold palComplete
  dsimp only
  split
  · exact Frame.refl _ _
  · refine Frame.step (settlePalette_frame _) ?_ rfl
    refine Frame.ite ?_ ?_
    · refine Frame.ite ?_ ?_
      · refine Frame.step (modWay_frame _ _ _) ?_ rfl
        refine Frame.step (modWay_frame _ _ _) ?_ rfl
        refine Frame.step (bump_frame _ _ _ _) ?_ rfl
        split
        · refine Frame.step (programTile_frame _ _ _) ?_ rfl
          refine Frame.upd_palette ?_ rfl
          exact Frame.refl _ _
        · refine Frame.upd_palette ?_ rfl
          exact Frame.refl _ _
      · refine Frame.step (modWay_frame _ _ _) ?_ rfl
        refine Frame.step (modWay_frame _ _ _) ?_ rfl
        refine Frame.ite ?_ ?_
        · refine Frame.step (deviceFree_frame _ _) ?_ rfl
          refine Frame.step (bump_frame _ _ _ _) ?_ rfl
          split
          · refine Frame.step (programTile_frame _ _ _) ?_ rfl
            refine Frame.upd_palette ?_ rfl
            exact Frame.refl _ _
          · refine Frame.upd_palette ?_ rfl
            exact Frame.refl _ _
        · refine Frame.step (bump_frame _ _ _ _) ?_ rfl
          split
          · refine Frame.step (programTile_frame _ _ _) ?_ rfl
            refine Frame.upd_palette ?_ rfl
            exact Frame.refl _ _
          · refine Frame.upd_palette ?_ rfl
            exact Frame.refl _ _
    · refine Frame.step (bump_frame _ _ _ _) ?_ rfl
      split
      · refine Frame.step (programTile_frame _ _ _) ?_ rfl
        refine Frame.upd_palette ?_ rfl
        exact Frame.refl _ _
      · refine Frame.upd_palette ?_ rfl
        exact Frame.refl _ _

theorem palGrant_frame (s : State) (w : Nat) :
    Frame [.reserve, .palette, .crypt, .perf, .stats] s (palGrant s w) := by
  unfold palGrant
  dsimp only
  refine Frame.ite ?_ ?_
  · refine Frame.ite ?_ ?_
    · refine Frame.foldl ?_ ?_
      · intro _ _
        refine Frame.step (palLookup_frame _ _ _) ?_ rfl
        exact Frame.refl _ _
      · exact Frame.refl _ _
    · refine Frame.upd_palette ?_ rfl
      refine Frame.step (modWay_frame _ _ _) ?_ rfl
      refine Frame.step (modWay_frame _ _ _) ?_ rfl
      refine Frame.step (parentAdvance_frame _ _) ?_ rfl
      exact Frame.refl _ _
  · exact Frame.refl _ _

theorem pgSample_frame (high : Bool) (latch : Bool) (s : State) (r : Nat) :
    Frame [.folio, .power] s (pgSample high latch s r) := by
  unfold pgSample
  dsimp only
  refine Frame.ite ?_ ?_
  · split
    · refine Frame.ite ?_ ?_
      · refine Frame.step (modRail_frame _ _ _) ?_ rfl
        exact Frame.refl _ _
      · exact Frame.refl _ _
    · refine Frame.ite ?_ ?_
      · refine Frame.step (modRail_frame _ _ _) ?_ rfl
        exact Frame.refl _ _
      · refine Frame.step (tallyAdd_frame _ _) ?_ rfl
        refine Frame.step (modRail_frame _ _ _) ?_ rfl
        exact Frame.refl _ _
  · exact Frame.refl _ _

theorem telemetryOf_frame (answers : List PmbusReading) (s : State) (r : Nat) :
    Frame [.mgmt, .folio, .ledger, .power, .stats, .out] s (telemetryOf answers s r) := by
  unfold telemetryOf
  refine Frame.ite ?_ ?_
  · split
    · refine Frame.ite ?_ ?_
      · refine Frame.step (pmbusLost_frame _ _) ?_ rfl
        exact Frame.refl _ _
      · refine Frame.step (setStat_frame _ _ _ _) ?_ rfl
        refine Frame.step (setStat_frame _ _ _ _) ?_ rfl
        refine Frame.step (setStat_frame _ _ _ _) ?_ rfl
        refine Frame.step (modRail_frame _ _ _) ?_ rfl
        exact Frame.refl _ _
    · refine Frame.step (pmbusLost_frame _ _) ?_ rfl
      exact Frame.refl _ _
  · exact Frame.refl _ _

theorem stackProgram_frame (s : State) (ch : Nat) (bank : Nat) (index : Nat) (check : Nat) (data : Patch) :
    Frame [.channels, .out] s (stackProgram s ch bank index check data) := by
  unfold stackProgram
  dsimp only
  refine Frame.ite ?_ ?_
  · refine Frame.step (sendEvent_frame _ _ _ _) ?_ rfl
    refine Frame.step (modBank_frame _ _ _ _) ?_ rfl
    exact Frame.refl _ _
  · refine Frame.ite ?_ ?_
    · refine Frame.step (modChannel_frame _ _ _) ?_ rfl
      exact Frame.refl _ _
    · refine Frame.step (modChannel_frame _ _ _) ?_ rfl
      refine Frame.step (modBank_frame _ _ _ _) ?_ rfl
      exact Frame.refl _ _

theorem primingQueue_frame (s : State) :
    Frame [.folio] s (primingQueue s) := by
  unfold primingQueue
  refine Frame.upd_folio ?_ rfl
  exact Frame.refl _ _

theorem rampStart_frame (s : State) :
    Frame [.reserve] s (rampStart s) := by
  unfold rampStart
  dsimp only
  refine Frame.upd_reserve ?_ rfl
  exact Frame.refl _ _

theorem startVarnish_frame (s : State) :
    Frame [.sys, .mgmt, .folio, .ledger, .power, .reserve, .groups, .easel, .palette, .crypt, .queues, .perf, .path, .stats, .out] s (startVarnish s) := by
  unfold startVarnish
  dsimp only
  refine Frame.step (varnishAdvance_frame _ _) ?_ rfl
  refine Frame.step (enterState_frame _ _) ?_ rfl
  refine Frame.upd_sys_crypt ?_ rfl
  split
  · refine Frame.step (discardScratch_frame _) ?_ rfl
    refine Frame.foldl ?_ ?_
    · intro _ _
      refine Frame.step (modGroup_frame _ _ _) ?_ rfl
      exact Frame.refl _ _
    · refine Frame.step (dropSamples_frame _) ?_ rfl
      exact Frame.refl _ _
  · refine Frame.step (discardScratch_frame _) ?_ rfl
    refine Frame.foldl ?_ ?_
    · intro _ _
      refine Frame.step (modGroup_frame _ _ _) ?_ rfl
      exact Frame.refl _ _
    · refine Frame.step (dropSamples_frame _) ?_ rfl
      exact Frame.refl _ _
  · refine Frame.foldl ?_ ?_
    · intro _ _
      refine Frame.step (modGroup_frame _ _ _) ?_ rfl
      exact Frame.refl _ _
    · refine Frame.step (dropSamples_frame _) ?_ rfl
      exact Frame.refl _ _

theorem railStartFailed_frame (s : State) (r : Nat) (cause : Nat) :
    Frame [.sys, .mgmt, .folio, .ledger, .power, .reserve, .thermal, .channels, .ports, .groups, .easel, .palette, .directory, .queues, .barrow, .perf, .path, .stats, .out] s (railStartFailed s r cause) := by
  unfold railStartFailed
  dsimp only
  refine Frame.ite ?_ ?_
  · refine Frame.step (failedStart_frame _) ?_ rfl
    refine Frame.step (raise_frame _ _ _) ?_ rfl
    refine Frame.step (tallyAdd_frame _ _) ?_ rfl
    refine Frame.step (modRail_frame _ _ _) ?_ rfl
    refine Frame.ite ?_ ?_
    · exact Frame.refl _ _
    · refine Frame.step (railDrop_frame _ _) ?_ rfl
      exact Frame.refl _ _
  · refine Frame.ite ?_ ?_
    · refine Frame.step (raise_frame _ _ _) ?_ rfl
      refine Frame.step (tallyAdd_frame _ _) ?_ rfl
      refine Frame.step (modRail_frame _ _ _) ?_ rfl
      refine Frame.ite ?_ ?_
      · exact Frame.refl _ _
      · refine Frame.step (railDrop_frame _ _) ?_ rfl
        exact Frame.refl _ _
    · refine Frame.step (domainOff_frame _ _ _ _) ?_ rfl
      refine Frame.step (raise_frame _ _ _) ?_ rfl
      refine Frame.step (tallyAdd_frame _ _) ?_ rfl
      refine Frame.step (modRail_frame _ _ _) ?_ rfl
      refine Frame.ite ?_ ?_
      · exact Frame.refl _ _
      · refine Frame.step (railDrop_frame _ _) ?_ rfl
        exact Frame.refl _ _

theorem stackRead_frame (s : State) (ch : Nat) (bank : Nat) (index : Nat) (err : Patch) :
    Frame [.channels, .out] s (stackRead s ch bank index err) := by
  unfold stackRead
  dsimp only
  refine Frame.step (modBank_frame _ _ _ _) ?_ rfl
  refine Frame.step (emit_frame _ _) ?_ rfl
  exact Frame.refl _ _

theorem rebuildDone_frame (s : State) (g : Nat) (c : Nat) (duration : Nat) :
    Frame [.mgmt, .folio, .ledger, .groups, .stats, .out] s (rebuildDone s g c duration) := by
  unfold rebuildDone
  dsimp only
  refine Frame.step (tallyAdd_frame _ _) ?_ rfl
  refine Frame.step (raise_frame _ _ _) ?_ rfl
  refine Frame.step (modGroup_frame _ _ _) ?_ rfl
  exact Frame.refl _ _

theorem rebuildCheck_frame (s : State) (g : Nat) :
    Frame [.mgmt, .folio, .ledger, .groups, .stats, .out] s (rebuildCheck s g) := by
  unfold rebuildCheck
  split
  · refine Frame.ite ?_ ?_
    · refine Frame.step (rebuildDone_frame _ _ _ _) ?_ rfl
      exact Frame.refl _ _
    · exact Frame.refl _ _
  · exact Frame.refl _ _

theorem rebuildSwatch_frame (s : State) (g : Nat) (p : Nat) (slot : Nat) (c : Nat) :
    Frame [.sys, .folio, .groups, .path, .stats] s (rebuildSwatch s g p slot c) := by
  unfold rebuildSwatch
  dsimp only
  refine Frame.step (filterMark_frame _ _ _ _) ?_ rfl
  refine Frame.step (storeColumns_frame _ _ _ _ _) ?_ rfl
  exact Frame.refl _ _

theorem rebuildWhole_frame (s : State) (g : Nat) (p : Nat) (slot : Nat) (pl : Place) (code : List Byte) :
    Frame [.sys, .folio, .groups, .path, .stats] s (rebuildWhole s g p slot pl code) := by
  unfold rebuildWhole
  dsimp only
  refine Frame.ite ?_ ?_
  · refine Frame.step (regionWrite_frame _ _ _) ?_ rfl
    refine Frame.step (filterMark_frame _ _ _ _) ?_ rfl
    refine Frame.step (storeColumns_frame _ _ _ _ _) ?_ rfl
    exact Frame.refl _ _
  · refine Frame.step (filterMark_frame _ _ _ _) ?_ rfl
    refine Frame.step (storeColumns_frame _ _ _ _ _) ?_ rfl
    exact Frame.refl _ _

theorem rebuildPatch_frame (s : State) (g : Nat) (p : Nat) (slot : Nat) (c : Nat) (pl : Place) (code : List Byte) (failed : Bool) (fails : Nat) :
    Frame [.sys, .mgmt, .folio, .ledger, .reserve, .channels, .groups, .palette, .queues, .perf, .path, .stats, .out] s (rebuildPatch s g p slot c pl code failed fails) := by
  unfold rebuildPatch
  dsimp only
  refine Frame.ite ?_ ?_
  · refine Frame.ite ?_ ?_
    · refine Frame.step (raise_frame _ _ _) ?_ rfl
      refine Frame.step (remapNow_frame _ _ _ _ _ _ _) ?_ rfl
      refine Frame.step (filterMark_frame _ _ _ _) ?_ rfl
      refine Frame.step (storeColumns_frame _ _ _ _ _) ?_ rfl
      exact Frame.refl _ _
    · refine Frame.step (remapNow_frame _ _ _ _ _ _ _) ?_ rfl
      refine Frame.step (filterMark_frame _ _ _ _) ?_ rfl
      refine Frame.step (storeColumns_frame _ _ _ _ _) ?_ rfl
      exact Frame.refl _ _
  · refine Frame.step (filterMark_frame _ _ _ _) ?_ rfl
    refine Frame.step (storeColumns_frame _ _ _ _ _) ?_ rfl
    exact Frame.refl _ _

theorem rebuildTile_frame (s : State) (g : Nat) (p : Nat) (slot : Nat) (c : Nat) (t : TileId) (pl : Place) (errs : List Codeword) (deep : List Codeword) (failed : Bool) (fails : Nat) :
    Frame [.sys, .mgmt, .folio, .ledger, .reserve, .channels, .ports, .groups, .easel, .palette, .crypt, .queues, .perf, .path, .stats, .draws, .out] s (rebuildTile s g p slot c t pl errs deep failed fails) := by
  unfold rebuildTile
  dsimp only
  split
  · refine Frame.step (rebuildPatch_frame _ _ _ _ _ _ _ _ _) ?_ rfl
    refine Frame.step (correctedCode_frame _ _ _ _) ?_ rfl
    exact Frame.refl _ _
  · refine deepReadWith_frame ?_ ?_ rfl
    · intro _ _
      refine Frame.step (rebuildWhole_frame _ _ _ _ _ _) ?_ rfl
      exact Frame.refl _ _
    · refine Frame.ite ?_ ?_
      · refine Frame.step (unreadableEvent_frame _ _ _ _) ?_ rfl
        refine Frame.step (correctedCode_frame _ _ _ _) ?_ rfl
        exact Frame.refl _ _
      · refine Frame.step (measureRegion_frame _ _ _ _) ?_ rfl
        refine Frame.step (unreadableEvent_frame _ _ _ _) ?_ rfl
        refine Frame.step (correctedCode_frame _ _ _ _) ?_ rfl
        exact Frame.refl _ _

theorem lateTile_frame (s : State) (g : Nat) (w : PassRec) (age : Nat) :
    Frame [.mgmt, .folio, .ledger, .groups, .stats, .out] s (lateTile s g w age) := by
  unfold lateTile
  refine Frame.ite ?_ ?_
  · dsimp only
    refine Frame.ite ?_ ?_
    · refine Frame.step (bump_frame _ _ _ _) ?_ rfl
      exact Frame.refl _ _
    · refine Frame.step (raise_frame _ _ _) ?_ rfl
      refine Frame.step (modGroup_frame _ _ _) ?_ rfl
      refine Frame.step (bump_frame _ _ _ _) ?_ rfl
      exact Frame.refl _ _
  · exact Frame.refl _ _

theorem retouchContent_frame (s : State) (g : Nat) (w : PassRec) (t : TileId) (pl : Place) (content : List Byte) (poison : Bool) :
    Frame [.sys, .mgmt, .folio, .ledger, .groups, .path, .stats, .out] s (retouchContent s g w t pl content poison) := by
  unfold retouchContent
  dsimp only
  refine Frame.ite ?_ ?_
  · refine Frame.step (lateTile_frame _ _ _ _) ?_ rfl
    refine Frame.step (bump_frame _ _ _ _) ?_ rfl
    refine Frame.step (engineProgram_frame _ _ _) ?_ rfl
    exact Frame.refl _ _
  · exact Frame.refl _ _

theorem retouchTile_frame (s : State) (g : Nat) (w : PassRec) (t : TileId) (pl : Place) (errs : List Codeword) (deep : List Codeword) :
    Frame [.sys, .mgmt, .folio, .ledger, .reserve, .channels, .ports, .groups, .easel, .palette, .crypt, .queues, .perf, .path, .stats, .draws, .out] s (retouchTile s g w t pl errs deep) := by
  unfold retouchTile
  dsimp only
  refine Frame.ite ?_ ?_
  · refine Frame.step (bump_frame _ _ _ _) ?_ rfl
    exact Frame.refl _ _
  · split
    · refine Frame.getD ?_ ?_
      · refine FrameO.step (authFails_frame _ _ _) ?_ rfl
        refine Frame.step (engineRead_frame _ _ _ _) ?_ rfl
        exact Frame.refl _ _
      · refine Frame.step (retouchContent_frame _ _ _ _ _ _ _) ?_ rfl
        refine Frame.step (engineRead_frame _ _ _ _) ?_ rfl
        exact Frame.refl _ _
    · refine Frame.step (retouchContent_frame _ _ _ _ _ _ _) ?_ rfl
      refine Frame.step (engineRead_frame _ _ _ _) ?_ rfl
      exact Frame.refl _ _
    · split
      · refine Frame.step (lateTile_frame _ _ _ _) ?_ rfl
        refine Frame.step (deepRead_frame _ _ _ _ _) ?_ rfl
        refine Frame.step (unreadableEvent_frame _ _ _ _) ?_ rfl
        refine Frame.step (engineRead_frame _ _ _ _) ?_ rfl
        exact Frame.refl _ _
      · refine Frame.step (deepRead_frame _ _ _ _ _) ?_ rfl
        refine Frame.step (unreadableEvent_frame _ _ _ _) ?_ rfl
        refine Frame.step (engineRead_frame _ _ _ _) ?_ rfl
        exact Frame.refl _ _

theorem passAdvance_frame (s : State) (g : Nat) (w : PassRec) :
    Frame [.groups, .queues, .perf, .stats] s (passAdvance s g w) := by
  unfold passAdvance
  dsimp only
  refine Frame.ite ?_ ?_
  · refine Frame.step (jqPush_frame _ _ _) ?_ rfl
    refine Frame.step (modGroup_frame _ _ _) ?_ rfl
    exact Frame.refl _ _
  · refine Frame.step (modGroup_frame _ _ _) ?_ rfl
    exact Frame.refl _ _

theorem repairImage_frame (s : State) (off : Nat) (record : Nat) :
    Frame [.folio] s (repairImage s off record) := by
  unfold repairImage
  refine Frame.step (sectionUpdate_frame _ _) ?_ rfl
  refine Frame.step (imageStore_frame _ _ _) ?_ rfl
  exact Frame.refl _ _

theorem setWayRecord_frame (s : State) (bank : Nat) (n : Nat) (record : Nat) :
    Frame [.folio, .easel] s (setWayRecord s bank n record) := by
  unfold setWayRecord
  refine Frame.step (repairImage_frame _ _ _) ?_ rfl
  refine Frame.upd_easel ?_ rfl
  exact Frame.refl _ _

theorem repairSet_frame (s : State) (bank : Nat) (row : Nat) (ways : BitVec 16) :
    Frame [.mgmt, .folio, .ledger, .ports, .groups, .easel, .queues, .stats, .out] s (repairSet s bank row ways) := by
  unfold repairSet
  dsimp only
  refine Frame.ite ?_ ?_
  · refine Frame.foldl ?_ ?_
    · intro _ _
      refine Frame.step (destageSelect_frame _ _ _ _) ?_ rfl
      exact Frame.refl _ _
    · exact Frame.refl _ _
  · split
    · refine Frame.ite ?_ ?_
      · refine Frame.step (raise_frame _ _ _) ?_ rfl
        refine Frame.step (setWayRecord_frame _ _ _ _) ?_ rfl
        refine Frame.upd_easel ?_ rfl
        refine Frame.foldl ?_ ?_
        · intro _ _
          refine Frame.step (modLine_frame _ _ _) ?_ rfl
          exact Frame.refl _ _
        · exact Frame.refl _ _
      · refine Frame.step (moduleEvent_frame _ _ _) ?_ rfl
        refine Frame.step (raise_frame _ _ _) ?_ rfl
        refine Frame.step (setWayRecord_frame _ _ _ _) ?_ rfl
        refine Frame.upd_easel ?_ rfl
        refine Frame.foldl ?_ ?_
        · intro _ _
          refine Frame.step (modLine_frame _ _ _) ?_ rfl
          exact Frame.refl _ _
        · exact Frame.refl _ _
    · refine Frame.step (moduleEvent_frame _ _ _) ?_ rfl
      refine Frame.step (raise_frame _ _ _) ?_ rfl
      refine Frame.step (setWayRecord_frame _ _ _ _) ?_ rfl
      refine Frame.upd_easel ?_ rfl
      refine Frame.foldl ?_ ?_
      · intro _ _
        refine Frame.step (modLine_frame _ _ _) ?_ rfl
        exact Frame.refl _ _
      · exact Frame.refl _ _

theorem freeFence_frame (s : State) (f : SpanFence) :
    Frame [.palette, .crypt] s (freeFence s f) := by
  unfold freeFence
  dsimp only
  refine Frame.foldl ?_ ?_
  · intro _ _
    refine Frame.step (modRange_frame _ _ _) ?_ rfl
    exact Frame.refl _ _
  · split
    · refine Frame.upd_palette ?_ rfl
      exact Frame.refl _ _
    · refine Frame.upd_palette ?_ rfl
      exact Frame.refl _ _

theorem freshSubtree_frame (a1 : Nat) (a2 : State) (a3 : Nat) (a4 : Nat) (a5 : Nat) :
    Frame [.reserve, .channels, .palette, .perf, .stats, .draws] a2 (freshSubtree a1 a2 a3 a4 a5) := by
  induction a1 generalizing a2 a3 a4 a5 with
  | zero =>
    unfold freshSubtree
    exact Frame.refl _ _
  | succ n ih =>
    unfold freshSubtree
    dsimp only
    refine Frame.foldl ?_ ?_
    · intro _ _
      split
      · refine Frame.ite ?_ ?_
        · refine Frame.step (ih _ _ _ _) ?_ rfl
          exact Frame.refl _ _
        · refine Frame.ite ?_ ?_
          · exact Frame.refl _ _
          · refine Frame.step (renewChild_frame _ _) ?_ rfl
            exact Frame.refl _ _
      · refine Frame.ite ?_ ?_
        · refine Frame.step (palPut_frame _ _ _ _ _) ?_ rfl
          refine Frame.step (afterDraw_frame _) ?_ rfl
          exact Frame.refl _ _
        · refine Frame.ite ?_ ?_
          · exact Frame.refl _ _
          · refine Frame.step (renewChild_frame _ _) ?_ rfl
            exact Frame.refl _ _
      · exact Frame.refl _ _
    · refine Frame.ite ?_ ?_
      · refine Frame.step (palPut_frame _ _ _ _ _) ?_ rfl
        exact Frame.refl _ _
      · refine Frame.step (palPut_frame _ _ _ _ _) ?_ rfl
        refine Frame.step (afterDraw_frame _) ?_ rfl
        exact Frame.refl _ _

theorem spdmMove_frame (s : State) (p : Nat) (x : SpdmState) :
    Frame [.ports] s (spdmMove s p x) := by
  unfold spdmMove
  refine Frame.step (modPort_frame _ _ _) ?_ rfl
  exact Frame.refl _ _

theorem spillRead_frame (s : State) (q : Nat) (bad : Byte) (misplaced : Bool) :
    Frame [.queues] s (spillRead s q bad misplaced) := by
  unfold spillRead
  dsimp only
  refine Frame.step (modQueue_frame _ _ _) ?_ rfl
  exact Frame.refl _ _

theorem spillReadBlock_frame (s : State) (q : Nat) (w : SpillWords) :
    Frame [.easel, .queues, .stats] s (spillReadBlock s q w) := by
  unfold spillReadBlock
  dsimp only
  refine Frame.ite ?_ ?_
  · refine Frame.step (spillRead_frame _ _ _ _) ?_ rfl
    refine Frame.ite ?_ ?_
    · refine Frame.foldl ?_ ?_
      · intro _ _
        refine Frame.step (wordCorrected_frame _ _ _) ?_ rfl
        exact Frame.refl _ _
      · exact Frame.refl _ _
    · refine Frame.step (rowNominate_frame _ _ _) ?_ rfl
      refine Frame.foldl ?_ ?_
      · intro _ _
        refine Frame.step (wordCorrected_frame _ _ _) ?_ rfl
        exact Frame.refl _ _
      · exact Frame.refl _ _
  · exact Frame.refl _ _

theorem spillWrite_frame (s : State) (q : Nat) :
    Frame [.queues, .stats] s (spillWrite s q) := by
  unfold spillWrite
  refine Frame.ite ?_ ?_
  · refine Frame.step (bump_frame _ _ _ _) ?_ rfl
    refine Frame.step (modQueue_frame _ _ _) ?_ rfl
    exact Frame.refl _ _
  · exact Frame.refl _ _

theorem parkAll_frame (s : State) :
    Frame [.sys, .mgmt, .folio, .ledger, .power, .channels, .ports, .groups, .easel, .palette, .directory, .queues, .barrow, .perf, .path, .stats, .out] s (parkAll s) := by
  unfold parkAll
  refine Frame.foldl ?_ ?_
  · intro _ _
    refine Frame.step (parkDomain_frame _ _) ?_ rfl
    refine Frame.step (modDomain_frame _ _ _) ?_ rfl
    exact Frame.refl _ _
  · exact Frame.refl _ _

theorem execTallyIncrement_frame (tally : Byte) (s : State) :
    FrameN [.folio] s (execTallyIncrement tally s) := by
  unfold execTallyIncrement
  dsimp only
  refine FrameN.ite ?_ ?_
  · refine FrameN.next ?_
    exact Frame.refl _ _
  · refine FrameN.next ?_
    refine Frame.step (folioQueue_frame _ _ _ _) ?_ rfl
    exact Frame.refl _ _

theorem railsOff_frame (s : State) :
    Frame [.sys, .mgmt, .folio, .power, .reserve, .channels, .ports, .groups, .easel, .palette, .crypt, .directory, .queues, .barrow, .perf, .path] s (railsOff s) := by
  unfold railsOff
  dsimp only
  refine Frame.ite ?_ ?_
  · refine Frame.step (enterState_frame _ _) ?_ rfl
    refine Frame.upd_sys_power_reserve ?_ rfl
    refine Frame.step (coreReset_frame _) ?_ rfl
    refine Frame.foldl ?_ ?_
    · intro _ _
      refine Frame.step (modDomain_frame _ _ _) ?_ rfl
      exact Frame.refl _ _
    · refine Frame.upd_power ?_ rfl
      exact Frame.refl _ _
  · refine Frame.step (epilogueCheck_frame _) ?_ rfl
    refine Frame.foldl ?_ ?_
    · intro _ _
      split
      · refine Frame.ofN (execTallyIncrement_frame _ _) (by assumption) ?_ rfl
        exact Frame.refl _ _
      · exact Frame.refl _ _
    · refine Frame.upd_sys ?_ rfl
      refine Frame.step (coreReset_frame _) ?_ rfl
      refine Frame.ite ?_ ?_
      · refine Frame.upd_folio ?_ rfl
        refine Frame.foldl ?_ ?_
        · intro _ _
          refine Frame.step (modDomain_frame _ _ _) ?_ rfl
          exact Frame.refl _ _
        · refine Frame.upd_power ?_ rfl
          exact Frame.refl _ _
      · refine Frame.step (folioQueue_frame _ _ _ _) ?_ rfl
        refine Frame.upd_folio ?_ rfl
        refine Frame.foldl ?_ ?_
        · intro _ _
          refine Frame.step (modDomain_frame _ _ _) ?_ rfl
          exact Frame.refl _ _
        · refine Frame.upd_power ?_ rfl
          exact Frame.refl _ _

theorem takeSwap_frame (s : State) (g : Nat) :
    Frame [.sys] s (takeSwap s g) := by
  unfold takeSwap
  refine Frame.upd_sys ?_ rfl
  exact Frame.refl _ _

theorem swapMove_frame (s : State) (g : Nat) (threshold : Nat) :
    Frame [.groups, .queues, .perf, .stats, .draws] s (swapMove s g threshold) := by
  unfold swapMove
  dsimp only
  split
  · refine Frame.ite ?_ ?_
    · refine Frame.step (modGroup_frame _ _ _) ?_ rfl
      refine Frame.step (moveBegin_frame _ _ _ _ _ _) ?_ rfl
      refine Frame.ofSomeSnd (takeFree_frame _ _) (by assumption) ?_ rfl
      exact Frame.refl _ _
    · exact Frame.refl _ _
  · exact Frame.refl _ _

theorem tpdoSend_frame (s : State) (t : Nat) :
    Frame [.mgmt, .queues, .stats, .out] s (tpdoSend s t) := by
  unfold tpdoSend
  refine Frame.ite ?_ ?_
  · dsimp only
    refine Frame.upd_mgmt ?_ rfl
    refine Frame.step (emit_frame _ _) ?_ rfl
    exact Frame.refl _ _
  · exact Frame.refl _ _

theorem tpdoSync_frame (s : State) (t : Nat) :
    Frame [.mgmt, .queues, .stats, .out] s (tpdoSync s t) := by
  unfold tpdoSync
  dsimp only
  refine Frame.ite ?_ ?_
  · refine Frame.ite ?_ ?_
    · refine Frame.step (tpdoSend_frame _ _) ?_ rfl
      refine Frame.upd_mgmt ?_ rfl
      exact Frame.refl _ _
    · refine Frame.upd_mgmt ?_ rfl
      exact Frame.refl _ _
  · exact Frame.refl _ _

theorem telemetryLine_frame (s : State) (c : Nat) (l : LoadRec) (n : Nat) :
    Frame [.queues, .barrow, .stats, .out] s (telemetryLine s c l n) := by
  unfold telemetryLine
  dsimp only
  refine Frame.ite ?_ ?_
  · refine Frame.step (emit_frame _ _) ?_ rfl
    refine Frame.step (modBarrow_frame _ _ _) ?_ rfl
    refine Frame.step (emit_frame _ _) ?_ rfl
    refine Frame.step (setMark_frame _ _ _) ?_ rfl
    refine Frame.step (takeWords_frame _ _ _) ?_ rfl
    exact Frame.refl _ _
  · refine Frame.step (issueFlush_frame _ _ _ _) ?_ rfl
    refine Frame.step (emit_frame _ _) ?_ rfl
    refine Frame.step (modBarrow_frame _ _ _) ?_ rfl
    refine Frame.step (emit_frame _ _) ?_ rfl
    refine Frame.step (setMark_frame _ _ _) ?_ rfl
    refine Frame.step (takeWords_frame _ _ _) ?_ rfl
    exact Frame.refl _ _

theorem judgeStart_frame (s : State) :
    Frame [.sys, .mgmt, .folio, .ledger, .stats, .out] s (judgeStart s) := by
  unfold judgeStart
  refine Frame.ite ?_ ?_
  · dsimp only
    refine Frame.step (raise_frame _ _ _) ?_ rfl
    refine Frame.upd_sys ?_ rfl
    exact Frame.refl _ _
  · exact Frame.refl _ _

theorem noteDie_frame (s : State) :
    Frame [.thermal, .stats] s (noteDie s) := by
  unfold noteDie
  dsimp only
  split
  · refine Frame.step (maxStat_frame _ _ _ _) ?_ rfl
    refine Frame.upd_thermal ?_ rfl
    exact Frame.refl _ _
  · exact Frame.refl _ _

theorem judgeOccasion_frame (s : State) :
    Frame [.reserve] s (judgeOccasion s) := by
  unfold judgeOccasion
  dsimp only
  split
  · refine Frame.ite ?_ ?_
    · refine Frame.upd_reserve ?_ rfl
      exact Frame.refl _ _
    · exact Frame.refl _ _
  · exact Frame.refl _ _

theorem judgeZones_frame (s : State) :
    Frame [.mgmt, .folio, .ledger, .thermal, .stats, .out] s (judgeZones s) := by
  unfold judgeZones
  refine Frame.ite ?_ ?_
  · exact Frame.refl _ _
  · dsimp only
    split
    · refine Frame.step (raise_frame _ _ _) ?_ rfl
      refine Frame.upd_thermal ?_ rfl
      exact Frame.refl _ _
    · exact Frame.refl _ _

theorem setLevel_frame (s : State) (new : Nat) :
    Frame [.mgmt, .folio, .ledger, .thermal, .ports, .queues, .stats, .out] s (setLevel s new) := by
  unfold setLevel
  dsimp only
  refine Frame.ite ?_ ?_
  · refine Frame.foldl ?_ ?_
    · intro _ _
      refine Frame.step (enterLevel_frame _ _) ?_ rfl
      exact Frame.refl _ _
    · refine Frame.upd_thermal ?_ rfl
      exact Frame.refl _ _
  · refine Frame.step (settleErrors_frame _) ?_ rfl
    refine Frame.ite ?_ ?_
    · refine Frame.step (raise_frame _ _ _) ?_ rfl
      refine Frame.step (bump_frame _ _ _ _) ?_ rfl
      refine Frame.upd_thermal ?_ rfl
      exact Frame.refl _ _
    · refine Frame.upd_thermal ?_ rfl
      exact Frame.refl _ _

theorem limitReached_frame (s : State) :
    Frame [.sys, .mgmt, .folio, .ledger, .power, .reserve, .thermal, .channels, .groups, .barrow, .stats, .out] s (limitReached s) := by
  unfold limitReached
  dsimp only
  split
  · refine Frame.step (enterWarn_frame _ _) ?_ rfl
    refine Frame.step (raise_frame _ _ _) ?_ rfl
    exact Frame.refl _ _
  · refine Frame.step (enterWarn_frame _ _) ?_ rfl
    refine Frame.step (raise_frame _ _ _) ?_ rfl
    exact Frame.refl _ _
  · refine Frame.step (enterWarn_frame _ _) ?_ rfl
    refine Frame.step (raise_frame _ _ _) ?_ rfl
    exact Frame.refl _ _
  · refine Frame.ite ?_ ?_
    · exact Frame.refl _ _
    · refine Frame.upd_power ?_ rfl
      exact Frame.refl _ _
  · refine Frame.step (raise_frame _ _ _) ?_ rfl
    exact Frame.refl _ _
  · refine Frame.step (raise_frame _ _ _) ?_ rfl
    exact Frame.refl _ _
  · refine Frame.step (raise_frame _ _ _) ?_ rfl
    exact Frame.refl _ _
  · exact Frame.refl _ _

theorem judgeLimit_frame (s : State) :
    Frame [.sys, .mgmt, .folio, .ledger, .power, .reserve, .thermal, .channels, .groups, .barrow, .stats, .out] s (judgeLimit s) := by
  unfold judgeLimit
  refine Frame.ite ?_ ?_
  · dsimp only
    refine Frame.ite ?_ ?_
    · refine Frame.step (limitReached_frame _) ?_ rfl
      refine Frame.upd_thermal ?_ rfl
      exact Frame.refl _ _
    · refine Frame.upd_thermal ?_ rfl
      exact Frame.refl _ _
  · refine Frame.upd_thermal ?_ rfl
    exact Frame.refl _ _

theorem judgeSensor_frame (medians : List Int) (s : State) (i : Nat) :
    Frame [.mgmt, .folio, .ledger, .thermal, .stats, .out] s (judgeSensor medians s i) := by
  unfold judgeSensor
  refine Frame.ite ?_ ?_
  · exact Frame.refl _ _
  · dsimp only
    refine Frame.ite ?_ ?_
    · refine Frame.step (dropSensor_frame _ _ _) ?_ rfl
      exact Frame.refl _ _
    · refine Frame.ite ?_ ?_
      · refine Frame.step (dropSensor_frame _ _ _) ?_ rfl
        refine Frame.upd_thermal ?_ rfl
        exact Frame.refl _ _
      · refine Frame.upd_thermal ?_ rfl
        exact Frame.refl _ _

theorem readFailed_frame (s : State) (n : Nat) (pl : Place) (content : List Byte) (misdirected : Bool) :
    Frame [.sys, .mgmt, .folio, .ledger, .reserve, .ports, .groups, .easel, .palette, .directory, .queues, .barrow, .perf, .path, .stats, .out] s (readFailed s n pl content misdirected) := by
  unfold readFailed
  dsimp only
  refine Frame.ite ?_ ?_
  · refine Frame.step (modRead_frame _ _ _) ?_ rfl
    refine Frame.foldl ?_ ?_
    · intro _ _
      refine Frame.step (modTag_frame _ _ _) ?_ rfl
      exact Frame.refl _ _
    · refine Frame.step (retryIssued_frame _ _) ?_ rfl
      refine Frame.ite ?_ ?_
      · refine Frame.step (misdirectedEvent_frame _ _ _) ?_ rfl
        exact Frame.refl _ _
      · refine Frame.ite ?_ ?_
        · refine Frame.step (bumpCodec_frame _ _ _ _) ?_ rfl
          exact Frame.refl _ _
        · exact Frame.refl _ _
  · refine Frame.step (readUnreadable_frame _ _) ?_ rfl
    refine Frame.ite ?_ ?_
    · refine Frame.step (misdirectedEvent_frame _ _ _) ?_ rfl
      exact Frame.refl _ _
    · refine Frame.ite ?_ ?_
      · refine Frame.step (bumpCodec_frame _ _ _ _) ?_ rfl
        exact Frame.refl _ _
      · exact Frame.refl _ _

theorem readArrived_frame (s : State) (n : Nat) (pl : Place) (err : Codeword) (xfer : Byte) :
    Frame [.sys, .mgmt, .folio, .ledger, .reserve, .channels, .ports, .groups, .easel, .palette, .directory, .queues, .barrow, .perf, .path, .stats, .out] s (readArrived s n pl err xfer) := by
  unfold readArrived
  dsimp only
  split
  · refine Frame.step (verifyRead_frame _ _ _) ?_ rfl
    refine Frame.step (nominateAfter_frame _ _ _ _ _ _) ?_ rfl
    refine Frame.ite ?_ ?_
    · refine Frame.step (bumpCodec_frame _ _ _ _) ?_ rfl
      refine Frame.step (readTile_frame _ _ _ _ _) ?_ rfl
      refine Frame.foldl ?_ ?_
      · intro _ _
        refine Frame.step (stamp_frame _ _ _) ?_ rfl
        refine Frame.step (stamp_frame _ _ _) ?_ rfl
        exact Frame.refl _ _
      · refine Frame.step (takeErased_frame _ _ _) ?_ rfl
        refine Frame.step (beginRead_frame _ _ _) ?_ rfl
        exact Frame.refl _ _
    · refine Frame.step (readTile_frame _ _ _ _ _) ?_ rfl
      refine Frame.foldl ?_ ?_
      · intro _ _
        refine Frame.step (stamp_frame _ _ _) ?_ rfl
        refine Frame.step (stamp_frame _ _ _) ?_ rfl
        exact Frame.refl _ _
      · refine Frame.step (takeErased_frame _ _ _) ?_ rfl
        refine Frame.step (beginRead_frame _ _ _) ?_ rfl
        exact Frame.refl _ _
  · refine Frame.step (completeRead_frame _ _ _ _ _) ?_ rfl
    refine Frame.step (poisonPermanent_frame _ _) ?_ rfl
    refine Frame.step (nominateAfter_frame _ _ _ _ _ _) ?_ rfl
    refine Frame.ite ?_ ?_
    · refine Frame.step (bumpCodec_frame _ _ _ _) ?_ rfl
      refine Frame.step (readTile_frame _ _ _ _ _) ?_ rfl
      refine Frame.foldl ?_ ?_
      · intro _ _
        refine Frame.step (stamp_frame _ _ _) ?_ rfl
        refine Frame.step (stamp_frame _ _ _) ?_ rfl
        exact Frame.refl _ _
      · refine Frame.step (takeErased_frame _ _ _) ?_ rfl
        refine Frame.step (beginRead_frame _ _ _) ?_ rfl
        exact Frame.refl _ _
    · refine Frame.step (readTile_frame _ _ _ _ _) ?_ rfl
      refine Frame.foldl ?_ ?_
      · intro _ _
        refine Frame.step (stamp_frame _ _ _) ?_ rfl
        refine Frame.step (stamp_frame _ _ _) ?_ rfl
        exact Frame.refl _ _
      · refine Frame.step (takeErased_frame _ _ _) ?_ rfl
        refine Frame.step (beginRead_frame _ _ _) ?_ rfl
        exact Frame.refl _ _
  · refine Frame.step (readFailed_frame _ _ _ _ _) ?_ rfl
    refine Frame.step (readTile_frame _ _ _ _ _) ?_ rfl
    refine Frame.foldl ?_ ?_
    · intro _ _
      refine Frame.step (stamp_frame _ _ _) ?_ rfl
      refine Frame.step (stamp_frame _ _ _) ?_ rfl
      exact Frame.refl _ _
    · refine Frame.step (takeErased_frame _ _ _) ?_ rfl
      refine Frame.step (beginRead_frame _ _ _) ?_ rfl
      exact Frame.refl _ _
  · refine Frame.step (readFailed_frame _ _ _ _ _) ?_ rfl
    refine Frame.step (readTile_frame _ _ _ _ _) ?_ rfl
    refine Frame.foldl ?_ ?_
    · intro _ _
      refine Frame.step (stamp_frame _ _ _) ?_ rfl
      refine Frame.step (stamp_frame _ _ _) ?_ rfl
      exact Frame.refl _ _
    · refine Frame.step (takeErased_frame _ _ _) ?_ rfl
      refine Frame.step (beginRead_frame _ _ _) ?_ rfl
      exact Frame.refl _ _

theorem reanchorCounter_frame (kept : Nat → Option Line) (x : State × List Nat) (c : Nat) (major : Nat) :
    Frame [.sys, .folio, .channels, .groups, .perf, .path, .stats, .draws] x.1 (reanchorCounter kept x c major).1 := by
  unfold reanchorCounter
  split
  · dsimp only
    refine Frame.step (programMeta_frame _ _ _ _ _) ?_ rfl
    exact Frame.refl _ _
  · dsimp only
    split
    · dsimp only
      refine Frame.step (programMeta_frame _ _ _ _ _) ?_ rfl
      refine Frame.step (readMeta_frame _ _) ?_ rfl
      exact Frame.refl _ _
    · dsimp only
      refine Frame.step (programMeta_frame _ _ _ _ _) ?_ rfl
      refine Frame.step (afterDraw_frame _) ?_ rfl
      refine Frame.step (readMeta_frame _ _) ?_ rfl
      exact Frame.refl _ _

theorem reanchorTree_frame (kept : Nat → Option Line) (a1 : Nat) (a2 : State × List Nat) (a3 : Nat) (a4 : Nat) :
    Frame [.sys, .folio, .channels, .groups, .perf, .path, .stats, .draws] a2.1 (reanchorTree kept a1 a2 a3 a4).1 := by
  induction a1 generalizing kept a2 a3 a4 with
  | zero =>
    unfold reanchorTree
    refine Frame.step (reanchorCounter_frame _ _ _ _) ?_ rfl
    exact Frame.refl _ _
  | succ n ih =>
    unfold reanchorTree
    dsimp only
    refine Frame.foldlFst ?_ ?_
    · intro _ _
      refine Frame.step (ih _ _ _ _) ?_ rfl
      exact Frame.refl _ _
    · dsimp only
      refine Frame.step (programMeta_frame _ _ _ _ _) ?_ rfl
      refine Frame.step (afterDraw_frame _) ?_ rfl
      exact Frame.refl _ _

theorem reanchorAll_frame (s : State) :
    Frame [.sys, .mgmt, .folio, .ledger, .reserve, .channels, .ports, .groups, .easel, .palette, .crypt, .queues, .perf, .path, .stats, .draws, .out] s (reanchorAll s) := by
  unfold reanchorAll
  dsimp only
  refine Frame.foldl ?_ ?_
  · intro _ _
    refine Frame.step (counterLost_frame _ _ _ _) ?_ rfl
    exact Frame.refl _ _
  · refine Frame.step (closeInvalidation_frame _ _ _ _) ?_ rfl
    refine Frame.step (closeInvalidation_frame _ _ _ _) ?_ rfl
    refine Frame.foldlFst ?_ ?_
    · intro _ _
      refine Frame.step (reanchorTree_frame _ _ _ _ _) ?_ rfl
      exact Frame.refl _ _
    · dsimp only
      refine Frame.step (invalidateRange_frame _ _ _ _) ?_ rfl
      refine Frame.step (invalidateRange_frame _ _ _ _) ?_ rfl
      refine Frame.upd_crypt ?_ rfl
      refine Frame.step (afterDraw_frame _) ?_ rfl
      exact Frame.refl _ _

theorem isolate_frame (s : State) :
    Frame [.power, .reserve] s (isolate s) := by
  unfold isolate
  refine Frame.upd_power_reserve ?_ rfl
  exact Frame.refl _ _

theorem idle_frame (s : State) :
    Frame [.sys] s (idle s) := by
  unfold idle
  refine Frame.upd_sys ?_ rfl
  exact Frame.refl _ _

theorem perfCycle_frame (s : State) (b : Nat) (n : Nat) :
    Frame [.perf] s (perfCycle s b n) := by
  unfold perfCycle
  dsimp only
  refine Frame.ite ?_ ?_
  · exact Frame.refl _ _
  · refine Frame.ite ?_ ?_
    · refine Frame.upd_perf ?_ rfl
      refine Frame.step (perfAdvance_frame _ _ _ _) ?_ rfl
      exact Frame.refl _ _
    · refine Frame.ite ?_ ?_
      · refine Frame.step (perfAdvance_frame _ _ _ _) ?_ rfl
        exact Frame.refl _ _
      · exact Frame.refl _ _

theorem perfTick_frame (s : State) :
    Frame [.perf] s (perfTick s) := by
  unfold perfTick
  dsimp only
  refine Frame.foldl ?_ ?_
  · intro _ _
    refine Frame.ite ?_ ?_
    · exact Frame.refl _ _
    · refine Frame.foldl ?_ ?_
      · intro _ _
        refine Frame.step (perfCycle_frame _ _ _) ?_ rfl
        exact Frame.refl _ _
      · exact Frame.refl _ _
  · exact Frame.refl _ _

theorem settleHealth_frame (s : State) (p : Nat) :
    Frame [.mgmt, .folio, .ledger, .ports, .queues, .stats, .out] s (settleHealth s p) := by
  unfold settleHealth
  dsimp only
  refine Frame.ite ?_ ?_
  · exact Frame.refl _ _
  · refine Frame.ite ?_ ?_
    · refine Frame.ite ?_ ?_
      · refine Frame.ite ?_ ?_
        · refine Frame.step (modPort_frame _ _ _) ?_ rfl
          exact Frame.refl _ _
        · refine Frame.step (eventPost_frame _ _ _ _ _ _) ?_ rfl
          refine Frame.step (modPort_frame _ _ _) ?_ rfl
          exact Frame.refl _ _
      · refine Frame.step (eventPost_frame _ _ _ _ _ _) ?_ rfl
        refine Frame.ite ?_ ?_
        · refine Frame.step (modPort_frame _ _ _) ?_ rfl
          exact Frame.refl _ _
        · refine Frame.step (eventPost_frame _ _ _ _ _ _) ?_ rfl
          refine Frame.step (modPort_frame _ _ _) ?_ rfl
          exact Frame.refl _ _
    · refine Frame.step (eventPost_frame _ _ _ _ _ _) ?_ rfl
      refine Frame.ite ?_ ?_
      · refine Frame.ite ?_ ?_
        · refine Frame.step (modPort_frame _ _ _) ?_ rfl
          exact Frame.refl _ _
        · refine Frame.step (eventPost_frame _ _ _ _ _ _) ?_ rfl
          refine Frame.step (modPort_frame _ _ _) ?_ rfl
          exact Frame.refl _ _
      · refine Frame.step (eventPost_frame _ _ _ _ _ _) ?_ rfl
        refine Frame.ite ?_ ?_
        · refine Frame.step (modPort_frame _ _ _) ?_ rfl
          exact Frame.refl _ _
        · refine Frame.step (eventPost_frame _ _ _ _ _ _) ?_ rfl
          refine Frame.step (modPort_frame _ _ _) ?_ rfl
          exact Frame.refl _ _

theorem wakeWanted_frame (s : State) :
    Frame [.thermal, .channels, .groups, .stats, .out] s (wakeWanted s) := by
  unfold wakeWanted
  refine Frame.ite ?_ ?_
  · exact Frame.refl _ _
  · refine Frame.foldl ?_ ?_
    · intro _ _
      refine Frame.ite ?_ ?_
      · refine Frame.step (wakeGroup_frame _ _) ?_ rfl
        exact Frame.refl _ _
      · exact Frame.refl _ _
    · exact Frame.refl _ _

theorem settleLife_frame (s : State) :
    Frame [.sys, .mgmt, .folio, .ledger, .stats, .out] s (settleLife s) := by
  unfold settleLife
  dsimp only
  refine Frame.ite ?_ ?_
  · refine Frame.step (raise_frame _ _ _) ?_ rfl
    refine Frame.upd_sys ?_ rfl
    exact Frame.refl _ _
  · refine Frame.upd_sys ?_ rfl
    exact Frame.refl _ _

theorem settle_frame (s : State) :
    Frame [.sys, .mgmt, .folio, .ledger, .thermal, .channels, .ports, .groups, .queues, .path, .stats, .out] s (settle s) := by
  unfold settle
  dsimp only
  refine Frame.foldl ?_ ?_
  · intro _ _
    refine Frame.step (settleHealth_frame _ _) ?_ rfl
    exact Frame.refl _ _
  · refine Frame.step (wakeWanted_frame _) ?_ rfl
    refine Frame.step (settleLife_frame _) ?_ rfl
    refine Frame.step (busRoll_frame _) ?_ rfl
    refine Frame.step (settleErrors_frame _) ?_ rfl
    exact Frame.refl _ _

theorem tick_frame (s : State) :
    Frame [.sys, .mgmt, .folio, .ledger, .thermal, .channels, .ports, .groups, .queues, .perf, .path, .stats, .out] s (tick s) := by
  unfold tick
  dsimp only
  refine Frame.ite ?_ ?_
  · refine Frame.step (perfTick_frame _) ?_ rfl
    refine Frame.step (settle_frame _) ?_ rfl
    refine Frame.step (idle_frame _) ?_ rfl
    exact Frame.refl _ _
  · refine Frame.step (settleErrors_frame _) ?_ rfl
    refine Frame.step (idle_frame _) ?_ rfl
    exact Frame.refl _ _

end Sys2Proof.Machine
end

