-- ==== Sys2Proof/Laws/FrameExec.lean ====
section
/-! SUPPORT. Laws/FrameExec.lean: every command answers a next state and which units it can change, one lemma per command. -/

namespace Sys2Proof.Machine

theorem execAdcSample_frame (point : AdcPoint) (value : BitVec 16) (s : State) :
    FrameN [.sys, .mgmt, .folio, .ledger, .power, .reserve, .thermal, .channels, .ports, .groups, .easel, .palette, .directory, .queues, .barrow, .perf, .path, .stats, .out] s (execAdcSample point value s) := by
  unfold execAdcSample
  dsimp only
  split
  · refine FrameN.next ?_
    refine Frame.step (vresSample_frame _ _) ?_ rfl
    exact Frame.refl _ _
  · refine FrameN.next ?_
    refine Frame.upd_power ?_ rfl
    exact Frame.refl _ _
  · refine FrameN.next ?_
    refine Frame.step (railSample_frame _ _ _) ?_ rfl
    exact Frame.refl _ _
  · refine FrameN.next ?_
    refine Frame.step (adcCheck_frame _ _ _) ?_ rfl
    exact Frame.refl _ _
  · refine FrameN.next ?_
    refine Frame.step (adcCheck_frame _ _ _) ?_ rfl
    exact Frame.refl _ _

theorem execAnchorsAndRegionState_frame (errs : List TileDisturb) (survey : List SurveyReads) (s : State) :
    FrameN [.sys, .mgmt, .folio, .ledger, .channels, .ports, .groups, .easel, .palette, .crypt, .directory, .queues, .barrow, .perf, .path, .stats, .draws, .out] s (execAnchorsAndRegionState errs survey s) := by
  unfold execAnchorsAndRegionState
  refine FrameN.ite ?_ ?_
  · dsimp only
    refine FrameN.next ?_
    refine Frame.step (beginStep_frame _ _) ?_ rfl
    refine Frame.step (judgeShutdown_frame _ _ _ _) ?_ rfl
    refine Frame.ite ?_ ?_
    · refine Frame.step (offTime_frame _ _) ?_ rfl
      refine Frame.step (driftSurvey_frame _ _) ?_ rfl
      refine Frame.step (layoutCheck_frame _) ?_ rfl
      refine Frame.upd_sys ?_ rfl
      refine Frame.step (anchorSeed_frame _ _) ?_ rfl
      refine Frame.fstIte ?_ ?_
      · dsimp only
        refine Frame.step (firstInitialisation_frame _) ?_ rfl
        exact Frame.refl _ _
      · refine Frame.foldlFst ?_ ?_
        · intro _ _
          refine Frame.step (anchorGroup_frame _ _ _) ?_ rfl
          exact Frame.refl _ _
        · dsimp only
          exact Frame.refl _ _
    · refine Frame.upd_sys_path ?_ rfl
      refine Frame.step (anchorSeed_frame _ _) ?_ rfl
      refine Frame.fstIte ?_ ?_
      · dsimp only
        refine Frame.step (firstInitialisation_frame _) ?_ rfl
        exact Frame.refl _ _
      · refine Frame.foldlFst ?_ ?_
        · intro _ _
          refine Frame.step (anchorGroup_frame _ _ _) ?_ rfl
          exact Frame.refl _ _
        · dsimp only
          exact Frame.refl _ _
  · refine FrameN.next ?_
    exact Frame.refl _ _

theorem execAonPor_frame (torn : List Byte) (s : State) :
    FrameN [.sys, .mgmt, .folio, .ledger, .power, .reserve, .thermal, .channels, .ports, .groups, .easel, .palette, .crypt, .directory, .queues, .barrow, .perf, .path, .settings, .stats, .out] s (execAonPor torn s) := by
  unfold execAonPor
  dsimp only
  refine FrameN.next ?_
  refine Frame.step (nmtBoot_frame _) ?_ rfl
  refine Frame.step (communicationSettings_frame _) ?_ rfl
  refine Frame.upd_mgmt_thermal ?_ rfl
  refine Frame.step (loadLedger_frame _ _) ?_ rfl
  refine Frame.foldl ?_ ?_
  · intro _ _
    split
    · refine Frame.step (loadSection_frame _ _ _) ?_ rfl
      exact Frame.refl _ _
    · exact Frame.refl _ _
  · refine Frame.step (aonReset_frame _ _) ?_ rfl
    exact Frame.refl _ _

theorem execArbiterStatisticsClear_frame (via : Via) (s : State) :
    FrameN [.mgmt, .folio, .ledger, .perf, .stats, .out] s (execArbiterStatisticsClear via s) := by
  unfold execArbiterStatisticsClear
  refine FrameN.next ?_
  refine served_frame ?_ ?_ rfl
  · intro _ _
    refine FrameE.ok ?_
    refine Frame.step (arbiterClear_frame _) ?_ rfl
    exact Frame.refl _ _
  · exact Frame.refl _ _

theorem execArbitrationPhase_frame (group : Group) (requests : List ArbRequest) (withdraw : Bool) (s : State) :
    FrameN [.mgmt, .folio, .ledger, .thermal, .groups, .easel, .palette, .queues, .perf, .path, .stats, .out] s (execArbitrationPhase group requests withdraw s) := by
  unfold execArbitrationPhase
  dsimp only
  refine FrameN.ite ?_ ?_
  · refine FrameN.next ?_
    exact Frame.refl _ _
  · refine FrameN.next ?_
    refine Frame.step (quietStep_frame _ _ _) ?_ rfl
    refine Frame.step (decideSlot_frame _ _ _ _) ?_ rfl
    refine Frame.ite ?_ ?_
    · refine Frame.step (modArb_frame _ _ _) ?_ rfl
      refine Frame.step (lockStep_frame _ _) ?_ rfl
      refine Frame.step (openSlot_frame _ _ _) ?_ rfl
      refine Frame.ite ?_ ?_
      · refine Frame.step (setSleep_frame _ _ _) ?_ rfl
        exact Frame.refl _ _
      · exact Frame.refl _ _
    · refine Frame.step (modGroup_frame _ _ _) ?_ rfl
      refine Frame.step (modArb_frame _ _ _) ?_ rfl
      refine Frame.step (lockStep_frame _ _) ?_ rfl
      refine Frame.step (openSlot_frame _ _ _) ?_ rfl
      refine Frame.ite ?_ ?_
      · refine Frame.step (setSleep_frame _ _ _) ?_ rfl
        exact Frame.refl _ _
      · exact Frame.refl _ _

theorem execBackgroundOperationStatus_frame (port : Port) (s : State) :
    FrameN [.stats, .out] s (execBackgroundOperationStatus port s) := by
  unfold execBackgroundOperationStatus
  refine mailbox_frame ?_
  dsimp only
  refine Frame.step (mailboxDone_frame _ _ _ _ _) ?_ rfl
  exact Frame.refl _ _

theorem execBarrowBeatIssue_frame (access : BeatAccess) (s : State) :
    FrameN [.sys, .mgmt, .folio, .ledger, .reserve, .channels, .ports, .groups, .easel, .palette, .crypt, .directory, .queues, .barrow, .perf, .path, .stats, .draws, .out] s (execBarrowBeatIssue access s) := by
  unfold execBarrowBeatIssue
  dsimp only
  split
  · refine FrameN.next ?_
    exact Frame.refl _ _
  · refine FrameN.ite ?_ ?_
    · refine FrameN.next ?_
      exact Frame.refl _ _
    · refine FrameN.ite ?_ ?_
      · refine FrameN.next ?_
        refine Frame.step (beatClose_frame _ _ _) ?_ rfl
        refine Frame.step (deviceBeat_frame _ _ _ _) ?_ rfl
        refine Frame.step (meetUpset_frame _ _ _) ?_ rfl
        exact Frame.refl _ _
      · refine FrameN.ite ?_ ?_
        · refine FrameN.next ?_
          refine Frame.step (beatClose_frame _ _ _) ?_ rfl
          refine Frame.step (emit_frame _ _) ?_ rfl
          refine Frame.step (beatStep_frame _ _ _ _ _) ?_ rfl
          exact Frame.refl _ _
        · split
          · refine FrameN.next ?_
            refine Frame.step (beatClose_frame _ _ _) ?_ rfl
            refine Frame.ofO (fillBeat_frame _ _ _ _) (by assumption) ?_ rfl
            refine Frame.step (meetUpset_frame _ _ _) ?_ rfl
            exact Frame.refl _ _
          · refine FrameN.next ?_
            exact Frame.refl _ _

theorem execBarrowSourceReadComplete_frame (access : BeatAccess) (beat : BitVec 32) (data : Line) (ok : Bool) (s : State) :
    FrameN [.sys, .mgmt, .folio, .ledger, .reserve, .channels, .ports, .groups, .easel, .palette, .crypt, .directory, .queues, .barrow, .perf, .path, .stats, .draws, .out] s (execBarrowSourceReadComplete access beat data ok s) := by
  unfold execBarrowSourceReadComplete
  dsimp only
  split
  · refine FrameN.next ?_
    exact Frame.refl _ _
  · split
    · refine FrameN.next ?_
      exact Frame.refl _ _
    · split
      · refine FrameN.next ?_
        refine Frame.step (settleChannel_frame _ _) ?_ rfl
        refine Frame.step (beatError_frame _ _ _ _ _) ?_ rfl
        refine Frame.step (modLoad_frame _ _ _ _) ?_ rfl
        exact Frame.refl _ _
      · refine FrameN.ite ?_ ?_
        · refine FrameN.next ?_
          refine Frame.step (settleChannel_frame _ _) ?_ rfl
          refine Frame.step (beatError_frame _ _ _ _ _) ?_ rfl
          refine Frame.step (modLoad_frame _ _ _ _) ?_ rfl
          exact Frame.refl _ _
        · refine FrameN.ite ?_ ?_
          · refine FrameN.next ?_
            refine Frame.step (settleChannel_frame _ _) ?_ rfl
            refine Frame.ite ?_ ?_
            · refine Frame.step (issueFlush_frame _ _ _ _) ?_ rfl
              refine Frame.step (modLoad_frame _ _ _ _) ?_ rfl
              refine Frame.step (emit_frame _ _) ?_ rfl
              refine Frame.ite ?_ ?_
              · refine Frame.step (bump_frame _ _ _ _) ?_ rfl
                refine Frame.step (modLoad_frame _ _ _ _) ?_ rfl
                exact Frame.refl _ _
              · refine Frame.step (modLoad_frame _ _ _ _) ?_ rfl
                exact Frame.refl _ _
            · refine Frame.step (modLoad_frame _ _ _ _) ?_ rfl
              refine Frame.step (emit_frame _ _) ?_ rfl
              refine Frame.ite ?_ ?_
              · refine Frame.step (bump_frame _ _ _ _) ?_ rfl
                refine Frame.step (modLoad_frame _ _ _ _) ?_ rfl
                exact Frame.refl _ _
              · refine Frame.step (modLoad_frame _ _ _ _) ?_ rfl
                exact Frame.refl _ _
          · refine FrameN.ite ?_ ?_
            · refine FrameN.next ?_
              refine Frame.step (settleChannel_frame _ _) ?_ rfl
              refine Frame.step (beatError_frame _ _ _ _ _) ?_ rfl
              refine Frame.ite ?_ ?_
              · refine Frame.step (bump_frame _ _ _ _) ?_ rfl
                refine Frame.step (modLoad_frame _ _ _ _) ?_ rfl
                exact Frame.refl _ _
              · refine Frame.step (modLoad_frame _ _ _ _) ?_ rfl
                exact Frame.refl _ _
            · refine FrameN.next ?_
              refine Frame.step (settleChannel_frame _ _) ?_ rfl
              refine Frame.step (barrowWrite_frame _ _ _ _ _ _ _) ?_ rfl
              refine Frame.step (meetUpset_frame _ _ _) ?_ rfl
              refine Frame.ite ?_ ?_
              · refine Frame.step (bump_frame _ _ _ _) ?_ rfl
                refine Frame.step (modLoad_frame _ _ _ _) ?_ rfl
                exact Frame.refl _ _
              · refine Frame.step (modLoad_frame _ _ _ _) ?_ rfl
                exact Frame.refl _ _

theorem execBarrowStatisticsClear_frame (via : Via) (s : State) :
    FrameN [.mgmt, .folio, .ledger, .perf, .stats, .out] s (execBarrowStatisticsClear via s) := by
  unfold execBarrowStatisticsClear
  refine FrameN.next ?_
  refine served_frame ?_ ?_ rfl
  · intro _ _
    refine FrameE.ok ?_
    refine Frame.step (barrowClear_frame _) ?_ rfl
    exact Frame.refl _ _
  · exact Frame.refl _ _

theorem execBarrowWriteResponse_frame (channel : BarrowChannel) (s : State) :
    FrameN [.mgmt, .folio, .ledger, .barrow, .stats, .out] s (execBarrowWriteResponse channel s) := by
  unfold execBarrowWriteResponse
  refine FrameN.next ?_
  refine Frame.step (takeResponses_frame _ _) ?_ rfl
  exact Frame.refl _ _

theorem execBiConflict_frame (port : Port) (line : LineAddr) (s : State) :
    FrameN [.directory, .perf, .stats, .out] s (execBiConflict port line s) := by
  unfold execBiConflict
  dsimp only
  split
  · refine FrameN.next ?_
    exact Frame.refl _ _
  · refine FrameN.ite ?_ ?_
    · refine FrameN.ite ?_ ?_
      · refine FrameN.next ?_
        refine Frame.step (modRound_frame _ _ _) ?_ rfl
        refine Frame.step (perfCount_frame _ _ _ _) ?_ rfl
        refine Frame.step (bump_frame _ _ _ _) ?_ rfl
        exact Frame.refl _ _
      · refine FrameN.next ?_
        refine Frame.step (emit_frame _ _) ?_ rfl
        refine Frame.step (perfCount_frame _ _ _ _) ?_ rfl
        refine Frame.step (bump_frame _ _ _ _) ?_ rfl
        exact Frame.refl _ _
    · refine FrameN.next ?_
      exact Frame.refl _ _

theorem execBiEnableSet_frame (port : Port) (s : State) :
    FrameN [.ports] s (execBiEnableSet port s) := by
  unfold execBiEnableSet
  refine FrameN.next ?_
  refine Frame.ite ?_ ?_
  · refine Frame.step (modPort_frame _ _ _) ?_ rfl
    exact Frame.refl _ _
  · exact Frame.refl _ _

theorem execBiSnoopResponse_frame (port : Port) (line : LineAddr) (answer : Fin 3) (s : State) :
    FrameN [.mgmt, .folio, .ledger, .reserve, .ports, .groups, .easel, .palette, .directory, .queues, .barrow, .perf, .stats, .out] s (execBiSnoopResponse port line answer s) := by
  unfold execBiSnoopResponse
  dsimp only
  split
  · refine FrameN.next ?_
    exact Frame.refl _ _
  · refine FrameN.ite ?_ ?_
    · refine FrameN.next ?_
      refine Frame.step (snoopAnswer_frame _ _ _ _) ?_ rfl
      refine Frame.ite ?_ ?_
      · refine Frame.step (raise_frame _ _ _) ?_ rfl
        refine Frame.step (bump_frame _ _ _ _) ?_ rfl
        exact Frame.refl _ _
      · exact Frame.refl _ _
    · refine FrameN.next ?_
      exact Frame.refl _ _

theorem execBudgetUpdate_frame (s : State) :
    FrameN [.mgmt, .folio, .ledger, .reserve, .groups, .easel, .palette, .stats, .out] s (execBudgetUpdate s) := by
  unfold execBudgetUpdate
  dsimp only
  refine FrameN.ite ?_ ?_
  · refine FrameN.next ?_
    refine Frame.upd_reserve ?_ rfl
    exact Frame.refl _ _
  · refine FrameN.next ?_
    refine Frame.step (recompute_frame _ _) ?_ rfl
    refine Frame.upd_reserve ?_ rfl
    exact Frame.refl _ _

theorem execBusMasterEnableCleared_frame (port : Port) (s : State) :
    FrameN [.mgmt, .folio, .ledger, .ports, .barrow, .stats, .out] s (execBusMasterEnableCleared port s) := by
  unfold execBusMasterEnableCleared
  refine FrameN.next ?_
  refine Frame.step (barrowLinkDown_frame _ _) ?_ rfl
  refine Frame.step (modPort_frame _ _ _) ?_ rfl
  exact Frame.refl _ _

theorem execCalTrainingEntry_frame (channel : Channel) (low : BitVec 40) (s : State) :
    FrameN [.channels, .out] s (execCalTrainingEntry channel low s) := by
  unfold execCalTrainingEntry
  refine FrameN.next ?_
  refine takeCal_frame ?_ ?_ rfl
  · intro _
    refine Frame.step (modChannel_frame _ _ _) ?_ rfl
    exact Frame.refl _ _
  · exact Frame.refl _ _

theorem execCalTrainingExit_frame (channel : Channel) (low : BitVec 40) (s : State) :
    FrameN [.channels, .out] s (execCalTrainingExit channel low s) := by
  unfold execCalTrainingExit
  refine FrameN.next ?_
  refine takeCal_frame ?_ ?_ rfl
  · intro _
    refine Frame.step (modChannel_frame _ _ _) ?_ rfl
    exact Frame.refl _ _
  · exact Frame.refl _ _

theorem execCalZq_frame (channel : Channel) (fields : BitVec 44) (s : State) :
    FrameN [.channels, .out] s (execCalZq channel fields s) := by
  unfold execCalZq
  dsimp only
  refine FrameN.next ?_
  refine takeCal_frame ?_ ?_ rfl
  · intro _
    refine Frame.step (modChannel_frame _ _ _) ?_ rfl
    exact Frame.refl _ _
  · exact Frame.refl _ _

theorem execCanBusOff_frame (tec : Byte) (rxErrors : Byte) (s : State) :
    FrameN [.mgmt, .folio, .ledger, .stats, .out] s (execCanBusOff tec rxErrors s) := by
  unfold execCanBusOff
  refine FrameN.ite ?_ ?_
  · refine FrameN.next ?_
    refine Frame.step (raise_frame _ _ _) ?_ rfl
    refine Frame.upd_mgmt ?_ rfl
    exact Frame.refl _ _
  · refine FrameN.next ?_
    exact Frame.refl _ _

theorem execCanBusOffRecovery_frame (s : State) :
    FrameN [.mgmt, .out] s (execCanBusOffRecovery s) := by
  unfold execCanBusOffRecovery
  refine FrameN.next ?_
  refine Frame.ite ?_ ?_
  · refine Frame.step (emcyDrain_frame _) ?_ rfl
    refine Frame.upd_mgmt ?_ rfl
    exact Frame.refl _ _
  · exact Frame.refl _ _

theorem execChannelAbort_frame (via : Via) (channel : BarrowChannel) (s : State) :
    FrameN [.mgmt, .folio, .ledger, .barrow, .perf, .stats, .out] s (execChannelAbort via channel s) := by
  unfold execChannelAbort
  refine FrameN.next ?_
  refine served_frame ?_ ?_ rfl
  · intro _ _
    refine FrameE.step (channelAbort_frame _ _) ?_ rfl
    exact Frame.refl _ _
  · exact Frame.refl _ _

theorem execChannelErrorWindow_frame (s : State) :
    FrameN [.sys, .mgmt, .folio, .ledger, .channels, .ports, .groups, .easel, .palette, .directory, .queues, .barrow, .perf, .stats, .out] s (execChannelErrorWindow s) := by
  unfold execChannelErrorWindow
  dsimp only
  refine FrameN.next ?_
  refine Frame.foldl ?_ ?_
  · intro _ _
    refine Frame.ite ?_ ?_
    · refine Frame.step (modChannel_frame _ _ _) ?_ rfl
      exact Frame.refl _ _
    · refine Frame.ite ?_ ?_
      · refine Frame.step (raise_frame _ _ _) ?_ rfl
        refine Frame.step (modChannel_frame _ _ _) ?_ rfl
        exact Frame.refl _ _
      · refine Frame.step (markFailed_frame _ _ _) ?_ rfl
        refine Frame.step (modChannel_frame _ _ _) ?_ rfl
        exact Frame.refl _ _
  · refine Frame.step (takeForce_frame _ _ _) ?_ rfl
    exact Frame.refl _ _

theorem execChannelStart_frame (via : Via) (channel : BarrowChannel) (s : State) :
    FrameN [.mgmt, .folio, .ledger, .barrow, .perf, .stats, .out] s (execChannelStart via channel s) := by
  unfold execChannelStart
  refine FrameN.next ?_
  refine served_frame ?_ ?_ rfl
  · intro _ _
    refine FrameE.step (channelStart_frame _ _) ?_ rfl
    exact Frame.refl _ _
  · exact Frame.refl _ _

theorem execChannelStatisticsClear_frame (via : Via) (s : State) :
    FrameN [.mgmt, .folio, .ledger, .perf, .stats, .out] s (execChannelStatisticsClear via s) := by
  unfold execChannelStatisticsClear
  refine FrameN.next ?_
  refine served_frame ?_ ?_ rfl
  · intro _ _
    refine FrameE.ok ?_
    refine Frame.step (channelClear_frame _) ?_ rfl
    exact Frame.refl _ _
  · exact Frame.refl _ _

theorem execChannelTraining_frame (domain : Column) (s : State) :
    FrameN [.channels] s (execChannelTraining domain s) := by
  unfold execChannelTraining
  dsimp only
  refine FrameN.ite ?_ ?_
  · refine FrameN.next ?_
    exact Frame.refl _ _
  · refine FrameN.next ?_
    refine Frame.foldl ?_ ?_
    · intro _ _
      refine Frame.ite ?_ ?_
      · exact Frame.refl _ _
      · refine Frame.step (modChannel_frame _ _ _) ?_ rfl
        exact Frame.refl _ _
    · exact Frame.refl _ _

theorem execChannelTrainingComplete_frame (channel : Channel) (identity : BitVec 16) (serial : BitVec 32) (storedFail : Fin 9) (fullFail : Fin 9) (settings : BitVec 168) (s : State) :
    FrameN [.sys, .mgmt, .folio, .ledger, .power, .channels, .ports, .groups, .easel, .palette, .directory, .queues, .barrow, .perf, .stats, .out] s (execChannelTrainingComplete channel identity serial storedFail fullFail settings s) := by
  unfold execChannelTrainingComplete
  dsimp only
  refine FrameN.ite ?_ ?_
  · refine FrameN.next ?_
    exact Frame.refl _ _
  · refine FrameN.ite ?_ ?_
    · refine FrameN.next ?_
      refine Frame.step (trainingStepCheck_frame _) ?_ rfl
      refine Frame.step (domainTrained_frame _ _) ?_ rfl
      refine Frame.step (trainingFailed_frame _ _ _ _) ?_ rfl
      refine Frame.step (modChannel_frame _ _ _) ?_ rfl
      exact Frame.refl _ _
    · refine FrameN.ite ?_ ?_
      · refine FrameN.next ?_
        refine Frame.step (trainingStepCheck_frame _) ?_ rfl
        refine Frame.step (domainTrained_frame _ _) ?_ rfl
        refine Frame.step (trainingFailed_frame _ _ _ _) ?_ rfl
        refine Frame.step (modChannel_frame _ _ _) ?_ rfl
        refine Frame.step (setModeReg_frame _ _ _ _) ?_ rfl
        refine Frame.step (setModeReg_frame _ _ _ _) ?_ rfl
        refine Frame.step (setModeReg_frame _ _ _ _) ?_ rfl
        exact Frame.refl _ _
      · refine FrameN.ite ?_ ?_
        · refine FrameN.next ?_
          refine Frame.step (trainingStepCheck_frame _) ?_ rfl
          refine Frame.step (domainTrained_frame _ _) ?_ rfl
          refine Frame.ite ?_ ?_
          · refine Frame.step (typeCheck_frame _ _) ?_ rfl
            refine Frame.step (trainingPassed_frame _ _) ?_ rfl
            refine Frame.step (noteTraining_frame _ _) ?_ rfl
            refine Frame.step (loadSettings_frame _ _ _) ?_ rfl
            refine Frame.step (setStat_frame _ _ _ _) ?_ rfl
            refine Frame.step (modChannel_frame _ _ _) ?_ rfl
            refine Frame.step (setModeReg_frame _ _ _ _) ?_ rfl
            refine Frame.step (setModeReg_frame _ _ _ _) ?_ rfl
            refine Frame.step (setModeReg_frame _ _ _ _) ?_ rfl
            exact Frame.refl _ _
          · refine Frame.step (trainingPassed_frame _ _) ?_ rfl
            refine Frame.step (noteTraining_frame _ _) ?_ rfl
            refine Frame.step (loadSettings_frame _ _ _) ?_ rfl
            refine Frame.step (setStat_frame _ _ _ _) ?_ rfl
            refine Frame.step (modChannel_frame _ _ _) ?_ rfl
            refine Frame.step (setModeReg_frame _ _ _ _) ?_ rfl
            refine Frame.step (setModeReg_frame _ _ _ _) ?_ rfl
            refine Frame.step (setModeReg_frame _ _ _ _) ?_ rfl
            exact Frame.refl _ _
        · refine FrameN.ite ?_ ?_
          · refine FrameN.next ?_
            refine Frame.step (trainingStepCheck_frame _) ?_ rfl
            refine Frame.step (domainTrained_frame _ _) ?_ rfl
            refine Frame.step (trainingFailed_frame _ _ _ _) ?_ rfl
            refine Frame.step (noteTraining_frame _ _) ?_ rfl
            refine Frame.ite ?_ ?_
            · refine Frame.step (raise_frame _ _ _) ?_ rfl
              refine Frame.step (modChannel_frame _ _ _) ?_ rfl
              refine Frame.step (setModeReg_frame _ _ _ _) ?_ rfl
              refine Frame.step (setModeReg_frame _ _ _ _) ?_ rfl
              refine Frame.step (setModeReg_frame _ _ _ _) ?_ rfl
              exact Frame.refl _ _
            · refine Frame.step (modChannel_frame _ _ _) ?_ rfl
              refine Frame.step (setModeReg_frame _ _ _ _) ?_ rfl
              refine Frame.step (setModeReg_frame _ _ _ _) ?_ rfl
              refine Frame.step (setModeReg_frame _ _ _ _) ?_ rfl
              exact Frame.refl _ _
          · refine FrameN.next ?_
            refine Frame.step (trainingStepCheck_frame _) ?_ rfl
            refine Frame.step (domainTrained_frame _ _) ?_ rfl
            refine Frame.ite ?_ ?_
            · refine Frame.step (typeCheck_frame _ _) ?_ rfl
              refine Frame.step (trainingPassed_frame _ _) ?_ rfl
              refine Frame.step (loadSettings_frame _ _ _) ?_ rfl
              refine Frame.step (sectionUpdate_frame _ _) ?_ rfl
              refine Frame.step (imageStore_frame _ _ _) ?_ rfl
              refine Frame.step (noteTraining_frame _ _) ?_ rfl
              refine Frame.ite ?_ ?_
              · refine Frame.step (raise_frame _ _ _) ?_ rfl
                refine Frame.step (modChannel_frame _ _ _) ?_ rfl
                refine Frame.step (setModeReg_frame _ _ _ _) ?_ rfl
                refine Frame.step (setModeReg_frame _ _ _ _) ?_ rfl
                refine Frame.step (setModeReg_frame _ _ _ _) ?_ rfl
                exact Frame.refl _ _
              · refine Frame.step (modChannel_frame _ _ _) ?_ rfl
                refine Frame.step (setModeReg_frame _ _ _ _) ?_ rfl
                refine Frame.step (setModeReg_frame _ _ _ _) ?_ rfl
                refine Frame.step (setModeReg_frame _ _ _ _) ?_ rfl
                exact Frame.refl _ _
            · refine Frame.step (trainingPassed_frame _ _) ?_ rfl
              refine Frame.step (loadSettings_frame _ _ _) ?_ rfl
              refine Frame.step (sectionUpdate_frame _ _) ?_ rfl
              refine Frame.step (imageStore_frame _ _ _) ?_ rfl
              refine Frame.step (noteTraining_frame _ _) ?_ rfl
              refine Frame.ite ?_ ?_
              · refine Frame.step (raise_frame _ _ _) ?_ rfl
                refine Frame.step (modChannel_frame _ _ _) ?_ rfl
                refine Frame.step (setModeReg_frame _ _ _ _) ?_ rfl
                refine Frame.step (setModeReg_frame _ _ _ _) ?_ rfl
                refine Frame.step (setModeReg_frame _ _ _ _) ?_ rfl
                exact Frame.refl _ _
              · refine Frame.step (modChannel_frame _ _ _) ?_ rfl
                refine Frame.step (setModeReg_frame _ _ _ _) ?_ rfl
                refine Frame.step (setModeReg_frame _ _ _ _) ?_ rfl
                refine Frame.step (setModeReg_frame _ _ _ _) ?_ rfl
                exact Frame.refl _ _

theorem execCheckpoint_frame (group : Group) (s : State) :
    FrameN [.sys, .folio, .groups, .queues, .perf, .path, .stats] s (execCheckpoint group s) := by
  unfold execCheckpoint
  refine FrameN.next ?_
  refine Frame.ite ?_ ?_
  · refine Frame.step (startCheckpoint_frame _ _ _) ?_ rfl
    exact Frame.refl _ _
  · exact Frame.refl _ _

theorem execCheckpointComplete_frame (group : Group) (s : State) :
    FrameN [.sys, .mgmt, .folio, .ledger, .power, .groups, .easel, .palette, .queues, .perf, .path, .stats, .out] s (execCheckpointComplete group s) := by
  unfold execCheckpointComplete
  refine FrameN.next ?_
  refine Frame.step (varnishAdvance_frame _ _) ?_ rfl
  refine Frame.step (completeCheckpoint_frame _ _) ?_ rfl
  exact Frame.refl _ _

theorem execCheckpointHeaderWrite_frame (group : Group) (s : State) :
    FrameN [.groups] s (execCheckpointHeaderWrite group s) := by
  unfold execCheckpointHeaderWrite
  refine FrameN.next ?_
  refine Frame.step (modGroup_frame _ _ _) ?_ rfl
  exact Frame.refl _ _

theorem execCheckpointWindow_frame (group : Group) (s : State) :
    FrameN [.groups] s (execCheckpointWindow group s) := by
  unfold execCheckpointWindow
  refine FrameN.next ?_
  refine Frame.step (modGroup_frame _ _ _) ?_ rfl
  exact Frame.refl _ _

theorem execClearEventRecords_frame (port : Port) (log : Fin 4) (all : Bool) (handles : List (BitVec 16)) (s : State) :
    FrameN [.ports, .queues, .stats, .out] s (execClearEventRecords port log all handles s) := by
  unfold execClearEventRecords
  refine mailbox_frame ?_
  dsimp only
  refine Frame.ite ?_ ?_
  · refine Frame.step (mailboxDone_frame _ _ _ _ _) ?_ rfl
    refine Frame.step (advanceEvents_frame _ _) ?_ rfl
    refine Frame.ite ?_ ?_
    · refine Frame.step (modPort_frame _ _ _) ?_ rfl
      refine Frame.foldl ?_ ?_
      · intro _ _
        refine Frame.step (clearRecord_frame _ _ _) ?_ rfl
        exact Frame.refl _ _
      · exact Frame.refl _ _
    · refine Frame.foldl ?_ ?_
      · intro _ _
        refine Frame.step (clearRecord_frame _ _ _) ?_ rfl
        exact Frame.refl _ _
      · exact Frame.refl _ _
  · refine Frame.step (mailboxDone_frame _ _ _ _ _) ?_ rfl
    exact Frame.refl _ _

theorem execClearPoison_frame (port : Port) (line : LineAddr) (data : Line) (s : State) :
    FrameN [.mgmt, .folio, .ledger, .reserve, .ports, .groups, .easel, .palette, .directory, .queues, .barrow, .perf, .stats, .out] s (execClearPoison port line data s) := by
  unfold execClearPoison
  refine mailbox_frame ?_
  refine mediaCommand_frame ?_ ?_ rfl
  · intro _
    dsimp only
    refine Frame.ite ?_ ?_
    · refine Frame.step (mailboxDone_frame _ _ _ _ _) ?_ rfl
      exact Frame.refl _ _
    · refine Frame.step (mailboxDone_frame _ _ _ _ _) ?_ rfl
      refine Frame.step (lineRequest_frame _ _) ?_ rfl
      exact Frame.refl _ _
  · exact Frame.refl _ _

theorem execCodecStatisticsClear_frame (via : Via) (s : State) :
    FrameN [.mgmt, .folio, .ledger, .perf, .stats, .out] s (execCodecStatisticsClear via s) := by
  unfold execCodecStatisticsClear
  refine FrameN.next ?_
  refine served_frame ?_ ?_ rfl
  · intro _ _
    refine FrameE.ok ?_
    refine Frame.step (codecClear_frame _) ?_ rfl
    exact Frame.refl _ _
  · exact Frame.refl _ _

theorem execCommit_frame (via : Via) (s : State) :
    FrameN [.sys, .mgmt, .folio, .ledger, .groups, .crypt, .directory, .perf, .path, .settings, .stats, .out] s (execCommit via s) := by
  unfold execCommit
  refine FrameN.next ?_
  refine served_frame ?_ ?_ rfl
  · intro _ _
    refine FrameE.step (commitSet_frame _ _) ?_ rfl
    exact Frame.refl _ _
  · exact Frame.refl _ _

theorem execCompletionTimeout_frame (channel : BarrowChannel) (flush : Bool) (beat : BitVec 32) (s : State) :
    FrameN [.mgmt, .folio, .ledger, .barrow, .stats, .out] s (execCompletionTimeout channel flush beat s) := by
  unfold execCompletionTimeout
  dsimp only
  refine FrameN.ite ?_ ?_
  · refine FrameN.next ?_
    refine Frame.step (flushEnd_frame _ _ _) ?_ rfl
    exact Frame.refl _ _
  · split
    · refine FrameN.next ?_
      exact Frame.refl _ _
    · refine FrameN.next ?_
      refine Frame.step (settleChannel_frame _ _) ?_ rfl
      refine Frame.step (beatError_frame _ _ _ _ _) ?_ rfl
      refine Frame.step (modLoad_frame _ _ _ _) ?_ rfl
      exact Frame.refl _ _

theorem execCoreBrownOut_frame (s : State) :
    FrameN [.sys, .mgmt, .channels, .ports, .groups, .easel, .palette, .crypt, .directory, .queues, .barrow, .perf, .path] s (execCoreBrownOut s) := by
  unfold execCoreBrownOut
  refine FrameN.ite ?_ ?_
  · dsimp only
    refine FrameN.next ?_
    refine Frame.upd_sys ?_ rfl
    refine Frame.step (coreReset_frame _) ?_ rfl
    exact Frame.refl _ _
  · refine FrameN.next ?_
    exact Frame.refl _ _

theorem execCounterClear_frame (via : Via) (s : State) :
    FrameN [.mgmt, .folio, .ledger, .perf, .stats, .out] s (execCounterClear via s) := by
  unfold execCounterClear
  refine FrameN.next ?_
  refine served_frame ?_ ?_ rfl
  · intro _ _
    refine FrameE.ok ?_
    refine Frame.step (counterClear_frame _) ?_ rfl
    exact Frame.refl _ _
  · exact Frame.refl _ _

theorem execCounterDump_frame (s : State) :
    FrameN [.queues, .perf, .stats] s (execCounterDump s) := by
  unfold execCounterDump
  refine FrameN.ite ?_ ?_
  · refine FrameN.next ?_
    exact Frame.refl _ _
  · dsimp only
    refine FrameN.next ?_
    refine Frame.foldl ?_ ?_
    · intro _ _
      refine Frame.step (tqPush_frame _ _ _ _) ?_ rfl
      exact Frame.refl _ _
    · exact Frame.refl _ _

theorem execCrystalLost_frame (s : State) :
    FrameN [.mgmt, .folio, .ledger, .thermal, .stats, .out] s (execCrystalLost s) := by
  unfold execCrystalLost
  refine FrameN.ite ?_ ?_
  · refine FrameN.next ?_
    refine Frame.step (raise_frame _ _ _) ?_ rfl
    refine Frame.upd_thermal ?_ rfl
    exact Frame.refl _ _
  · refine FrameN.next ?_
    exact Frame.refl _ _

theorem execCrystalSwitch_frame (offset : BitVec 16) (s : State) :
    FrameN [.mgmt, .folio, .ledger, .thermal, .stats, .out] s (execCrystalSwitch offset s) := by
  unfold execCrystalSwitch
  dsimp only
  refine FrameN.ite ?_ ?_
  · refine FrameN.next ?_
    refine Frame.step (raise_frame _ _ _) ?_ rfl
    refine Frame.upd_thermal ?_ rfl
    exact Frame.refl _ _
  · refine FrameN.next ?_
    exact Frame.refl _ _

theorem execCxlReset_frame (port : Port) (s : State) :
    FrameN [.mgmt, .folio, .ledger, .reserve, .ports, .groups, .easel, .palette, .directory, .queues, .barrow, .perf, .stats, .out] s (execCxlReset port s) := by
  unfold execCxlReset
  refine FrameN.next ?_
  refine Frame.ite ?_ ?_
  · refine Frame.step (portCleared_frame _ _) ?_ rfl
    exact Frame.refl _ _
  · exact Frame.refl _ _

theorem execDeepRead_frame (group : Group) (swatch : RegionReads) (errs : List Codeword) (s : State) :
    FrameN [.sys, .mgmt, .folio, .ledger, .reserve, .channels, .ports, .groups, .easel, .palette, .crypt, .queues, .perf, .path, .stats, .draws, .out] s (execDeepRead group swatch errs s) := by
  unfold execDeepRead
  dsimp only
  split
  · refine FrameN.next ?_
    exact Frame.refl _ _
  · refine FrameN.ite ?_ ?_
    · refine FrameN.next ?_
      exact Frame.refl _ _
    · refine FrameN.ite ?_ ?_
      · refine FrameN.next ?_
        refine Frame.step (modGroup_frame _ _ _) ?_ rfl
        exact Frame.refl _ _
      · split
        · refine FrameN.next ?_
          refine Frame.step (modGroup_frame _ _ _) ?_ rfl
          exact Frame.refl _ _
        · refine FrameN.ite ?_ ?_
          · refine FrameN.next ?_
            refine Frame.step (askRemap_frame _ _ _) ?_ rfl
            exact Frame.refl _ _
          · refine FrameN.ite ?_ ?_
            · refine FrameN.next ?_
              refine Frame.step (askAuth_frame _ _) ?_ rfl
              exact Frame.refl _ _
            · refine FrameN.ite ?_ ?_
              · refine FrameN.next ?_
                exact Frame.refl _ _
              · refine FrameN.next ?_
                refine Frame.step (deepRead_frame _ _ _ _ _) ?_ rfl
                refine Frame.step (driftMet_frame _ _ _) ?_ rfl
                refine Frame.step (modGroup_frame _ _ _) ?_ rfl
                exact Frame.refl _ _

theorem execDeepSleepEnableWrite_frame (via : Via) (value : Byte) (s : State) :
    FrameN [.mgmt, .folio, .ledger, .thermal, .channels, .groups, .perf, .settings, .stats, .out] s (execDeepSleepEnableWrite via value s) := by
  unfold execDeepSleepEnableWrite
  refine FrameN.next ?_
  refine served_frame ?_ ?_ rfl
  · intro _ _
    refine FrameE.ok ?_
    refine Frame.step (deepSleepEnable_frame _ _) ?_ rfl
    exact Frame.refl _ _
  · exact Frame.refl _ _

theorem execDeepSleepEntry_frame (group : Group) (s : State) :
    FrameN [.thermal, .channels, .groups, .stats, .out] s (execDeepSleepEntry group s) := by
  unfold execDeepSleepEntry
  dsimp only
  refine FrameN.ite ?_ ?_
  · refine FrameN.next ?_
    refine Frame.step (bump_frame _ _ _ _) ?_ rfl
    refine Frame.upd_thermal ?_ rfl
    refine Frame.step (stacksDown_frame _ _ _) ?_ rfl
    refine Frame.step (setSleep_frame _ _ _) ?_ rfl
    exact Frame.refl _ _
  · refine FrameN.next ?_
    exact Frame.refl _ _

theorem execDeepSleepExitDone_frame (group : Group) (s : State) :
    FrameN [.thermal] s (execDeepSleepExitDone group s) := by
  unfold execDeepSleepExitDone
  refine FrameN.ite ?_ ?_
  · refine FrameN.next ?_
    refine Frame.step (setSleep_frame _ _ _) ?_ rfl
    exact Frame.refl _ _
  · refine FrameN.next ?_
    exact Frame.refl _ _

theorem execDeepSleepWake_frame (group : Group) (s : State) :
    FrameN [.thermal, .channels, .groups, .stats, .out] s (execDeepSleepWake group s) := by
  unfold execDeepSleepWake
  refine FrameN.next ?_
  refine Frame.step (wakeGroup_frame _ _) ?_ rfl
  exact Frame.refl _ _

theorem execDestageComplete_frame (line : LineAddr) (s : State) :
    FrameN [.sys, .mgmt, .folio, .ledger, .power, .reserve, .groups, .easel, .palette, .crypt, .directory, .queues, .barrow, .perf, .path, .stats, .out] s (execDestageComplete line s) := by
  unfold execDestageComplete
  split
  · refine FrameN.next ?_
    refine Frame.step (varnishAdvance_frame _ _) ?_ rfl
    refine Frame.step (destageComplete_frame _ _) ?_ rfl
    exact Frame.refl _ _
  · refine FrameN.next ?_
    exact Frame.refl _ _

theorem execDestageGrant_frame (group : Group) (upset : Upset) (s : State) :
    FrameN [.sys, .mgmt, .folio, .ledger, .reserve, .channels, .ports, .groups, .easel, .palette, .crypt, .directory, .queues, .barrow, .perf, .path, .stats, .draws, .out] s (execDestageGrant group upset s) := by
  unfold execDestageGrant
  dsimp only
  split
  · refine FrameN.next ?_
    refine Frame.ite ?_ ?_
    · refine Frame.step (grantLine_frame _ _ _) ?_ rfl
      refine Frame.step (applyUpset_frame _ _ _) ?_ rfl
      exact Frame.refl _ _
    · refine Frame.step (applyUpset_frame _ _ _) ?_ rfl
      exact Frame.refl _ _
  · refine FrameN.next ?_
    refine Frame.foldl ?_ ?_
    · intro _ _
      refine Frame.step (askDestage_frame _ _) ?_ rfl
      exact Frame.refl _ _
    · exact Frame.refl _ _

theorem execDictionaryRequest_frame (port : Port) (payload : List Byte) (s : State) :
    FrameN [.sys, .mgmt, .folio, .ledger, .power, .reserve, .thermal, .channels, .ports, .groups, .easel, .palette, .crypt, .directory, .queues, .barrow, .perf, .path, .settings, .stats, .draws, .out] s (execDictionaryRequest port payload s) := by
  unfold execDictionaryRequest
  dsimp only
  refine FrameN.ite ?_ ?_
  · refine FrameN.next ?_
    exact Frame.refl _ _
  · refine FrameN.ite ?_ ?_
    · refine FrameN.next ?_
      refine Frame.step (dictionaryRequest_frame _ _ _ _ _) ?_ rfl
      exact Frame.refl _ _
    · refine FrameN.next ?_
      refine Frame.step (tunnelRefuse_frame _ _) ?_ rfl
      exact Frame.refl _ _

theorem execDirectoryEviction_frame (set : Fin 2097152) (s : State) :
    FrameN [.directory, .stats, .out] s (execDirectoryEviction set s) := by
  unfold execDirectoryEviction
  dsimp only
  refine FrameN.ite ?_ ?_
  · refine FrameN.next ?_
    exact Frame.refl _ _
  · split
    · refine FrameN.next ?_
      exact Frame.refl _ _
    · refine FrameN.ite ?_ ?_
      · refine FrameN.next ?_
        refine Frame.step (bump_frame _ _ _ _) ?_ rfl
        refine Frame.step (modEntry_frame _ _ _) ?_ rfl
        exact Frame.refl _ _
      · refine FrameN.next ?_
        refine Frame.step (sendRound_frame _ _ _) ?_ rfl
        exact Frame.refl _ _

theorem execDirtyLimitWrite_frame (via : Via) (limit : BitVec 32) (s : State) :
    FrameN [.mgmt, .folio, .ledger, .palette, .perf, .settings, .stats, .out] s (execDirtyLimitWrite via limit s) := by
  unfold execDirtyLimitWrite
  refine FrameN.next ?_
  refine servedNum_frame ?_ ?_ rfl
  · intro _ _
    refine FrameE.ok ?_
    refine Frame.step (dirtyLimitWrite_frame _ _) ?_ rfl
    exact Frame.refl _ _
  · exact Frame.refl _ _

theorem execDiscard_frame (via : Via) (s : State) :
    FrameN [.mgmt, .folio, .ledger, .perf, .stats, .out] s (execDiscard via s) := by
  unfold execDiscard
  refine FrameN.next ?_
  refine served_frame ?_ ?_ rfl
  · intro _ _
    refine FrameE.ok ?_
    refine Frame.step (discardSet_frame _ _) ?_ rfl
    exact Frame.refl _ _
  · exact Frame.refl _ _

theorem execDiscardNextKey_frame (via : Via) (range : KeyRange) (s : State) :
    FrameN [.mgmt, .folio, .ledger, .crypt, .perf, .stats, .out] s (execDiscardNextKey via range s) := by
  unfold execDiscardNextKey
  refine FrameN.next ?_
  refine served_frame ?_ ?_ rfl
  · intro _ _
    refine FrameE.step (discardNext_frame _ _) ?_ rfl
    exact Frame.refl _ _
  · exact Frame.refl _ _

theorem execDischargeTimeout_frame (rail : Rail) (s : State) :
    FrameN [.mgmt, .folio, .ledger, .power, .stats, .out] s (execDischargeTimeout rail s) := by
  unfold execDischargeTimeout
  dsimp only
  refine FrameN.ite ?_ ?_
  · refine FrameN.ite ?_ ?_
    · refine FrameN.next ?_
      refine Frame.step (setStat_frame _ _ _ _) ?_ rfl
      refine Frame.step (modRail_frame _ _ _) ?_ rfl
      exact Frame.refl _ _
    · refine FrameN.next ?_
      refine Frame.step (raise_frame _ _ _) ?_ rfl
      refine Frame.step (tallyAdd_frame _ _) ?_ rfl
      refine Frame.step (setStat_frame _ _ _ _) ?_ rfl
      refine Frame.step (modRail_frame _ _ _) ?_ rfl
      exact Frame.refl _ _
  · refine FrameN.next ?_
    exact Frame.refl _ _

theorem execDisec_frame (s : State) :
    FrameN [.mgmt] s (execDisec s) := by
  unfold execDisec
  refine FrameN.next ?_
  refine Frame.ite ?_ ?_
  · refine Frame.upd_mgmt ?_ rfl
    exact Frame.refl _ _
  · exact Frame.refl _ _

theorem execDomainOffCoreRails_frame (domain : Column) (s : State) :
    FrameN [.power] s (execDomainOffCoreRails domain s) := by
  unfold execDomainOffCoreRails
  dsimp only
  refine FrameN.ite ?_ ?_
  · refine FrameN.next ?_
    refine Frame.step (railsDrop_frame _ _) ?_ rfl
    refine Frame.step (modDomain_frame _ _ _) ?_ rfl
    exact Frame.refl _ _
  · refine FrameN.next ?_
    exact Frame.refl _ _

theorem execDomainRestart_frame (via : Via) (domain : Byte) (s : State) :
    FrameN [.mgmt, .folio, .ledger, .power, .perf, .stats, .out] s (execDomainRestart via domain s) := by
  unfold execDomainRestart
  refine FrameN.next ?_
  refine served_frame ?_ ?_ rfl
  · intro _ _
    refine FrameE.step (domainRestart_frame _ _) ?_ rfl
    exact Frame.refl _ _
  · exact Frame.refl _ _

theorem execDomainStagger_frame (domain : Column) (s : State) :
    FrameN [.power] s (execDomainStagger domain s) := by
  unfold execDomainStagger
  refine FrameN.ite ?_ ?_
  · refine FrameN.next ?_
    refine Frame.step (domainStageA_frame _ _) ?_ rfl
    exact Frame.refl _ _
  · refine FrameN.next ?_
    exact Frame.refl _ _

theorem execDoneEvent_frame (channel : Channel) (bank : Byte) (s : State) :
    FrameN [.channels, .groups, .path, .stats] s (execDoneEvent channel bank s) := by
  unfold execDoneEvent
  dsimp only
  refine FrameN.ite ?_ ?_
  · refine FrameN.next ?_
    exact Frame.refl _ _
  · refine FrameN.ite ?_ ?_
    · refine FrameN.next ?_
      refine Frame.step (secondEnded_frame _ _ _) ?_ rfl
      refine Frame.step (stackDone_frame _ _ _) ?_ rfl
      exact Frame.refl _ _
    · refine FrameN.ite ?_ ?_
      · refine FrameN.next ?_
        refine Frame.step (secondEnded_frame _ _ _) ?_ rfl
        exact Frame.refl _ _
      · refine FrameN.next ?_
        refine Frame.step (countFrameError_frame _ _) ?_ rfl
        exact Frame.refl _ _

theorem execEaselScrub_frame (bank : Fin 64) (way : Fin 16) (upset : Upset) (s : State) :
    FrameN [.mgmt, .folio, .ledger, .reserve, .ports, .groups, .easel, .palette, .directory, .queues, .barrow, .perf, .stats, .out] s (execEaselScrub bank way upset s) := by
  unfold execEaselScrub
  dsimp only
  refine FrameN.next ?_
  refine Frame.step (scrubRow_frame _ _ _ _) ?_ rfl
  refine Frame.ite ?_ ?_
  · refine Frame.step (bump_frame _ _ _ _) ?_ rfl
    refine Frame.upd_easel ?_ rfl
    exact Frame.refl _ _
  · refine Frame.upd_easel ?_ rfl
    exact Frame.refl _ _

theorem execEaselStatisticsClear_frame (via : Via) (s : State) :
    FrameN [.mgmt, .folio, .ledger, .perf, .stats, .out] s (execEaselStatisticsClear via s) := by
  unfold execEaselStatisticsClear
  refine FrameN.next ?_
  refine served_frame ?_ ?_ rfl
  · intro _ _
    refine FrameE.ok ?_
    refine Frame.step (easelClear_frame _) ?_ rfl
    exact Frame.refl _ _
  · exact Frame.refl _ _

theorem execEmcyInhibitExpiry_frame (s : State) :
    FrameN [.mgmt, .out] s (execEmcyInhibitExpiry s) := by
  unfold execEmcyInhibitExpiry
  refine FrameN.next ?_
  refine Frame.step (emcyDrain_frame _) ?_ rfl
  refine Frame.upd_mgmt ?_ rfl
  exact Frame.refl _ _

theorem execEncryptionStatisticsClear_frame (via : Via) (s : State) :
    FrameN [.mgmt, .folio, .ledger, .perf, .stats, .out] s (execEncryptionStatisticsClear via s) := by
  unfold execEncryptionStatisticsClear
  refine FrameN.next ?_
  refine served_frame ?_ ?_ rfl
  · intro _ _
    refine FrameE.ok ?_
    refine Frame.step (cryptClear_frame _) ?_ rfl
    exact Frame.refl _ _
  · exact Frame.refl _ _

theorem execEnec_frame (s : State) :
    FrameN [.mgmt] s (execEnec s) := by
  unfold execEnec
  refine FrameN.next ?_
  refine Frame.ite ?_ ?_
  · refine Frame.upd_mgmt ?_ rfl
    exact Frame.refl _ _
  · exact Frame.refl _ _

theorem execEntdaa_frame (address : BitVec 7) (s : State) :
    FrameN [.mgmt, .out] s (execEntdaa address s) := by
  unfold execEntdaa
  refine FrameN.next ?_
  refine Frame.ite ?_ ?_
  · refine Frame.step (takeAddress_frame _ _) ?_ rfl
    refine Frame.step (emit_frame _ _) ?_ rfl
    exact Frame.refl _ _
  · exact Frame.refl _ _

theorem execEpilogueLimit_frame (s : State) :
    FrameN [.sys, .folio, .reserve] s (execEpilogueLimit s) := by
  unfold execEpilogueLimit
  refine FrameN.ite ?_ ?_
  · refine FrameN.next ?_
    refine Frame.step (endEpilogue_frame _) ?_ rfl
    exact Frame.refl _ _
  · refine FrameN.next ?_
    exact Frame.refl _ _

theorem execEpochEnd_frame (s : State) :
    FrameN [.groups, .path] s (execEpochEnd s) := by
  unfold execEpochEnd
  dsimp only
  refine FrameN.next ?_
  refine Frame.foldl ?_ ?_
  · intro _ _
    refine Frame.step (modGroup_frame _ _ _) ?_ rfl
    exact Frame.refl _ _
  · refine Frame.upd_path ?_ rfl
    exact Frame.refl _ _

theorem execErrorHistoryClear_frame (via : Via) (s : State) :
    FrameN [.mgmt, .folio, .ledger, .perf, .stats, .out] s (execErrorHistoryClear via s) := by
  unfold execErrorHistoryClear
  refine FrameN.next ?_
  refine served_frame ?_ ?_ rfl
  · intro _ _
    refine FrameE.ok ?_
    refine Frame.step (historyClear_frame _) ?_ rfl
    exact Frame.refl _ _
  · exact Frame.refl _ _

theorem execFailEvent_frame (channel : Channel) (bank : Byte) (s : State) :
    FrameN [.mgmt, .folio, .ledger, .reserve, .channels, .groups, .easel, .palette, .queues, .perf, .path, .stats, .out] s (execFailEvent channel bank s) := by
  unfold execFailEvent
  dsimp only
  refine FrameN.ite ?_ ?_
  · refine FrameN.next ?_
    exact Frame.refl _ _
  · refine FrameN.ite ?_ ?_
    · refine FrameN.next ?_
      refine Frame.step (programFailed_frame _ _ _) ?_ rfl
      refine Frame.step (setModeReg_frame _ _ _ _) ?_ rfl
      exact Frame.refl _ _
    · refine FrameN.next ?_
      refine Frame.step (countFrameError_frame _ _) ?_ rfl
      exact Frame.refl _ _

theorem execFillThroughComplete_frame (line : LineAddr) (s : State) :
    FrameN [.sys, .mgmt, .folio, .ledger, .reserve, .groups, .easel, .crypt, .directory, .queues, .barrow, .perf, .path, .stats, .out] s (execFillThroughComplete line s) := by
  unfold execFillThroughComplete
  dsimp only
  split
  · refine FrameN.next ?_
    exact Frame.refl _ _
  · split
    · refine FrameN.next ?_
      refine Frame.step (settleChannel_frame _ _) ?_ rfl
      refine Frame.step (bump_frame _ _ _ _) ?_ rfl
      refine Frame.step (modLoad_frame _ _ _ _) ?_ rfl
      refine Frame.ite ?_ ?_
      · refine Frame.step (destageComplete_frame _ _) ?_ rfl
        exact Frame.refl _ _
      · refine Frame.step (easelTouch_frame _ _ _) ?_ rfl
        refine Frame.step (destageComplete_frame _ _) ?_ rfl
        exact Frame.refl _ _
    · refine FrameN.next ?_
      refine Frame.ite ?_ ?_
      · refine Frame.step (destageComplete_frame _ _) ?_ rfl
        exact Frame.refl _ _
      · refine Frame.step (easelTouch_frame _ _ _) ?_ rfl
        refine Frame.step (destageComplete_frame _ _) ?_ rfl
        exact Frame.refl _ _

theorem execFlushReadComplete_frame (channel : BarrowChannel) (ok : Bool) (s : State) :
    FrameN [.mgmt, .folio, .ledger, .barrow, .stats, .out] s (execFlushReadComplete channel ok s) := by
  unfold execFlushReadComplete
  refine FrameN.next ?_
  refine Frame.step (flushEnd_frame _ _ _) ?_ rfl
  exact Frame.refl _ _

theorem execFlushRequest_frame (via : Via) (s : State) :
    FrameN [.mgmt, .folio, .ledger, .groups, .easel, .perf, .stats, .out] s (execFlushRequest via s) := by
  unfold execFlushRequest
  refine FrameN.next ?_
  refine served_frame ?_ ?_ rfl
  · intro _ _
    refine FrameE.step (flushRequest_frame _) ?_ rfl
    exact Frame.refl _ _
  · exact Frame.refl _ _

theorem execFolioRecallComplete_frame (linear : BitVec 30) (s : State) :
    FrameN [.sys, .mgmt, .folio, .ledger, .power, .thermal, .ports, .easel, .crypt, .path, .settings, .stats, .draws, .out] s (execFolioRecallComplete linear s) := by
  unfold execFolioRecallComplete
  refine FrameN.ite ?_ ?_
  · dsimp only
    refine FrameN.next ?_
    refine Frame.step (beginStep_frame _ _) ?_ rfl
    refine Frame.step (beginStage_frame _ _) ?_ rfl
    refine Frame.upd_sys ?_ rfl
    refine Frame.step (preparePmbus_frame _ _) ?_ rfl
    refine Frame.step (setStat_frame _ _ _ _) ?_ rfl
    refine Frame.upd_sys ?_ rfl
    refine Frame.step (recallLoads_frame _) ?_ rfl
    exact Frame.refl _ _
  · refine FrameN.next ?_
    exact Frame.refl _ _

theorem execFolioStatisticsClear_frame (via : Via) (s : State) :
    FrameN [.mgmt, .folio, .ledger, .perf, .stats, .out] s (execFolioStatisticsClear via s) := by
  unfold execFolioStatisticsClear
  refine FrameN.next ?_
  refine served_frame ?_ ?_ rfl
  · intro _ _
    refine FrameE.ok ?_
    refine Frame.step (folioClear_frame _) ?_ rfl
    exact Frame.refl _ _
  · exact Frame.refl _ _

theorem execFrameErrorEvent_frame (channel : Channel) (bank : Byte) (kind : FrameKind) (s : State) :
    FrameN [.mgmt, .folio, .ledger, .reserve, .channels, .groups, .easel, .palette, .queues, .perf, .path, .stats, .out] s (execFrameErrorEvent channel bank kind s) := by
  unfold execFrameErrorEvent
  dsimp only
  refine FrameN.ite ?_ ?_
  · refine FrameN.next ?_
    exact Frame.refl _ _
  · split
    · refine FrameN.next ?_
      refine Frame.step (eraseRead_frame _ _ _) ?_ rfl
      refine Frame.step (countFrameError_frame _ _) ?_ rfl
      exact Frame.refl _ _
    · refine FrameN.next ?_
      refine Frame.step (reissueProgram_frame _ _ _) ?_ rfl
      refine Frame.step (countFrameError_frame _ _) ?_ rfl
      exact Frame.refl _ _
    · refine FrameN.next ?_
      refine Frame.step (resendFrame_frame _ _) ?_ rfl
      exact Frame.refl _ _

theorem execFunctionLevelReset_frame (port : Port) (s : State) :
    FrameN [.ports, .easel] s (execFunctionLevelReset port s) := by
  unfold execFunctionLevelReset
  dsimp only
  refine FrameN.ite ?_ ?_
  · refine FrameN.next ?_
    refine Frame.upd_easel ?_ rfl
    refine Frame.step (modPort_frame _ _ _) ?_ rfl
    exact Frame.refl _ _
  · refine FrameN.next ?_
    exact Frame.refl _ _

theorem execGapStep_frame (group : Group) (errs : List Codeword) (s : State) :
    FrameN [.mgmt, .folio, .ledger, .channels, .groups, .palette, .perf, .stats, .out] s (execGapStep group errs s) := by
  unfold execGapStep
  dsimp only
  split
  · refine FrameN.next ?_
    exact Frame.refl _ _
  · refine FrameN.ite ?_ ?_
    · refine FrameN.next ?_
      exact Frame.refl _ _
    · refine FrameN.ite ?_ ?_
      · refine FrameN.next ?_
        refine Frame.step (askRemaps_frame _ _ _) ?_ rfl
        exact Frame.refl _ _
      · refine FrameN.next ?_
        refine Frame.step (modGroup_frame _ _ _) ?_ rfl
        split
        · refine Frame.step (movedCode_frame _ _ _ _ _) ?_ rfl
          refine Frame.step (modGroup_frame _ _ _) ?_ rfl
          exact Frame.refl _ _
        · dsimp only
          refine Frame.step (modGroup_frame _ _ _) ?_ rfl
          exact Frame.refl _ _

theorem execGapStepCommit_frame (group : Group) (failed : ProgramFailure) (s : State) :
    FrameN [.sys, .mgmt, .folio, .ledger, .reserve, .channels, .groups, .palette, .queues, .perf, .path, .stats, .out] s (execGapStepCommit group failed s) := by
  unfold execGapStepCommit
  dsimp only
  split
  · refine FrameN.next ?_
    exact Frame.refl _ _
  · refine FrameN.ite ?_ ?_
    · refine FrameN.next ?_
      refine Frame.step (askRemap_frame _ _ _) ?_ rfl
      exact Frame.refl _ _
    · refine FrameN.ite ?_ ?_
      · refine FrameN.next ?_
        refine Frame.step (bump_frame _ _ _ _) ?_ rfl
        refine Frame.step (modGroup_frame _ _ _) ?_ rfl
        refine Frame.step (jqPush_frame _ _ _) ?_ rfl
        refine Frame.step (modRegion_frame _ _ _ _) ?_ rfl
        refine Frame.ite ?_ ?_
        · exact Frame.refl _ _
        · refine Frame.step (remapFailed_frame _ _ _ _ _ _ _) ?_ rfl
          refine Frame.step (programAt_frame _ _ _) ?_ rfl
          exact Frame.refl _ _
      · refine FrameN.next ?_
        exact Frame.refl _ _

theorem execGetAlertConfiguration_frame (port : Port) (s : State) :
    FrameN [.stats, .out] s (execGetAlertConfiguration port s) := by
  unfold execGetAlertConfiguration
  refine mailbox_frame ?_
  dsimp only
  refine Frame.step (mailboxDone_frame _ _ _ _ _) ?_ rfl
  exact Frame.refl _ _

theorem execGetEventInterruptPolicy_frame (port : Port) (s : State) :
    FrameN [.stats, .out] s (execGetEventInterruptPolicy port s) := by
  unfold execGetEventInterruptPolicy
  refine mailbox_frame ?_
  refine Frame.step (mailboxDone_frame _ _ _ _ _) ?_ rfl
  exact Frame.refl _ _

theorem execGetEventRecords_frame (port : Port) (log : Fin 4) (s : State) :
    FrameN [.mgmt, .folio, .ledger, .ports, .queues, .stats, .out] s (execGetEventRecords port log s) := by
  unfold execGetEventRecords
  refine mailbox_frame ?_
  dsimp only
  refine Frame.step (mailboxDone_frame _ _ _ _ _) ?_ rfl
  refine Frame.step (advanceEvents_frame _ _) ?_ rfl
  refine Frame.foldl ?_ ?_
  · intro _ _
    refine Frame.step (dropPoisonedRecord_frame _ _ _ _) ?_ rfl
    exact Frame.refl _ _
  · exact Frame.refl _ _

theorem execGetFwInfo_frame (port : Port) (s : State) :
    FrameN [.stats, .out] s (execGetFwInfo port s) := by
  unfold execGetFwInfo
  refine mailbox_frame ?_
  refine Frame.step (mailboxDone_frame _ _ _ _ _) ?_ rfl
  exact Frame.refl _ _

theorem execGetHealthInfo_frame (port : Port) (s : State) :
    FrameN [.stats, .out] s (execGetHealthInfo port s) := by
  unfold execGetHealthInfo
  refine mailbox_frame ?_
  refine Frame.step (mailboxDone_frame _ _ _ _ _) ?_ rfl
  exact Frame.refl _ _

theorem execGetLog_frame (port : Port) (effects : Bool) (offset : BitVec 32) (length : BitVec 32) (s : State) :
    FrameN [.stats, .out] s (execGetLog port effects offset length s) := by
  unfold execGetLog
  refine mailbox_frame ?_
  refine Frame.ite ?_ ?_
  · refine Frame.step (mailboxDone_frame _ _ _ _ _) ?_ rfl
    exact Frame.refl _ _
  · refine Frame.step (mailboxDone_frame _ _ _ _ _) ?_ rfl
    exact Frame.refl _ _

theorem execGetPoisonList_frame (port : Port) (first : LineAddr) (lines : BitVec 39) (s : State) :
    FrameN [.stats, .out] s (execGetPoisonList port first lines s) := by
  unfold execGetPoisonList
  refine mailbox_frame ?_
  refine mediaCommand_frame ?_ ?_ rfl
  · intro _
    dsimp only
    refine Frame.step (mailboxDone_frame _ _ _ _ _) ?_ rfl
    exact Frame.refl _ _
  · exact Frame.refl _ _

theorem execGetResponseMessageLimit_frame (port : Port) (s : State) :
    FrameN [.stats, .out] s (execGetResponseMessageLimit port s) := by
  unfold execGetResponseMessageLimit
  refine mailbox_frame ?_
  refine Frame.step (mailboxDone_frame _ _ _ _ _) ?_ rfl
  exact Frame.refl _ _

theorem execGetScanMediaCapabilities_frame (port : Port) (s : State) :
    FrameN [.stats, .out] s (execGetScanMediaCapabilities port s) := by
  unfold execGetScanMediaCapabilities
  refine mailbox_frame ?_
  refine Frame.step (mailboxDone_frame _ _ _ _ _) ?_ rfl
  exact Frame.refl _ _

theorem execGetScanMediaResults_frame (port : Port) (s : State) :
    FrameN [.ports, .stats, .out] s (execGetScanMediaResults port s) := by
  unfold execGetScanMediaResults
  refine mailbox_frame ?_
  dsimp only
  refine Frame.step (mailboxDone_frame _ _ _ _ _) ?_ rfl
  refine Frame.step (modPort_frame _ _ _) ?_ rfl
  exact Frame.refl _ _

theorem execGetShutdownState_frame (port : Port) (s : State) :
    FrameN [.stats, .out] s (execGetShutdownState port s) := by
  unfold execGetShutdownState
  refine mailbox_frame ?_
  refine Frame.step (mailboxDone_frame _ _ _ _ _) ?_ rfl
  exact Frame.refl _ _

theorem execGetSupportedLogs_frame (port : Port) (s : State) :
    FrameN [.stats, .out] s (execGetSupportedLogs port s) := by
  unfold execGetSupportedLogs
  refine mailbox_frame ?_
  refine Frame.step (mailboxDone_frame _ _ _ _ _) ?_ rfl
  exact Frame.refl _ _

theorem execGetTimestamp_frame (port : Port) (s : State) :
    FrameN [.stats, .out] s (execGetTimestamp port s) := by
  unfold execGetTimestamp
  refine mailbox_frame ?_
  refine Frame.step (mailboxDone_frame _ _ _ _ _) ?_ rfl
  exact Frame.refl _ _

theorem execGetbcr_frame (s : State) :
    FrameN [.out] s (execGetbcr s) := by
  unfold execGetbcr
  refine FrameN.next ?_
  refine Frame.step (getCcc_frame _ _) ?_ rfl
  exact Frame.refl _ _

theorem execGetdcr_frame (s : State) :
    FrameN [.out] s (execGetdcr s) := by
  unfold execGetdcr
  refine FrameN.next ?_
  refine Frame.step (getCcc_frame _ _) ?_ rfl
  exact Frame.refl _ _

theorem execGetmrl_frame (s : State) :
    FrameN [.out] s (execGetmrl s) := by
  unfold execGetmrl
  refine FrameN.next ?_
  refine Frame.step (getCcc_frame _ _) ?_ rfl
  exact Frame.refl _ _

theorem execGetmwl_frame (s : State) :
    FrameN [.out] s (execGetmwl s) := by
  unfold execGetmwl
  refine FrameN.next ?_
  refine Frame.step (getCcc_frame _ _) ?_ rfl
  exact Frame.refl _ _

theorem execGetpid_frame (s : State) :
    FrameN [.out] s (execGetpid s) := by
  unfold execGetpid
  refine FrameN.next ?_
  refine Frame.step (getCcc_frame _ _) ?_ rfl
  exact Frame.refl _ _

theorem execGetstatus_frame (s : State) :
    FrameN [.path, .out] s (execGetstatus s) := by
  unfold execGetstatus
  refine FrameN.next ?_
  refine Frame.step (afterOutside_frame _) ?_ rfl
  refine Frame.step (getCcc_frame _ _) ?_ rfl
  exact Frame.refl _ _

theorem execGlazeFinish_frame (s : State) :
    FrameN [.mgmt, .folio, .ledger, .groups, .easel, .crypt, .queues, .perf, .stats, .out] s (execGlazeFinish s) := by
  unfold execGlazeFinish
  dsimp only
  split
  · refine FrameN.next ?_
    exact Frame.refl _ _
  · refine FrameN.ite ?_ ?_
    · refine FrameN.ite ?_ ?_
      · refine FrameN.ite ?_ ?_
        · refine FrameN.next ?_
          exact Frame.refl _ _
        · refine FrameN.next ?_
          refine Frame.step (keyStoreUpdate_frame _) ?_ rfl
          refine Frame.step (keyStoreUpdate_frame _) ?_ rfl
          refine Frame.step (engineIdle_frame _) ?_ rfl
          refine Frame.step (raise_frame _ _ _) ?_ rfl
          refine Frame.step (bump_frame _ _ _ _) ?_ rfl
          refine Frame.step (modRange_frame _ _ _) ?_ rfl
          refine Frame.foldl ?_ ?_
          · intro _ _
            refine Frame.step (jqPush_frame _ _ _) ?_ rfl
            exact Frame.refl _ _
          · exact Frame.refl _ _
      · refine FrameN.next ?_
        refine Frame.foldl ?_ ?_
        · intro _ _
          refine Frame.ite ?_ ?_
          · exact Frame.refl _ _
          · refine Frame.step (destageSelect_frame _ _ _ _) ?_ rfl
            exact Frame.refl _ _
        · exact Frame.refl _ _
    · refine FrameN.next ?_
      exact Frame.refl _ _

theorem execGlazePause_frame (via : Via) (s : State) :
    FrameN [.mgmt, .folio, .ledger, .crypt, .perf, .stats, .out] s (execGlazePause via s) := by
  unfold execGlazePause
  refine FrameN.next ?_
  refine served_frame ?_ ?_ rfl
  · intro _ _
    refine FrameE.step (glazePause_frame _) ?_ rfl
    exact Frame.refl _ _
  · exact Frame.refl _ _

theorem execGlazeResume_frame (via : Via) (s : State) :
    FrameN [.mgmt, .folio, .ledger, .crypt, .perf, .stats, .out] s (execGlazeResume via s) := by
  unfold execGlazeResume
  refine FrameN.next ?_
  refine served_frame ?_ ?_ rfl
  · intro _ _
    refine FrameE.step (glazeResume_frame _) ?_ rfl
    exact Frame.refl _ _
  · exact Frame.refl _ _

theorem execGlazeStart_frame (via : Via) (s : State) :
    FrameN [.mgmt, .folio, .ledger, .groups, .easel, .crypt, .perf, .stats, .draws, .out] s (execGlazeStart via s) := by
  unfold execGlazeStart
  refine FrameN.next ?_
  refine served_frame ?_ ?_ rfl
  · intro _ _
    refine FrameE.step (glazeStart_frame _) ?_ rfl
    exact Frame.refl _ _
  · exact Frame.refl _ _

theorem execGlazeStatisticsClear_frame (via : Via) (s : State) :
    FrameN [.mgmt, .folio, .ledger, .perf, .stats, .out] s (execGlazeStatisticsClear via s) := by
  unfold execGlazeStatisticsClear
  refine FrameN.next ?_
  refine served_frame ?_ ?_ rfl
  · intro _ _
    refine FrameE.ok ?_
    refine Frame.step (glazeClear_frame _) ?_ rfl
    exact Frame.refl _ _
  · exact Frame.refl _ _

theorem execGlazeUnit_frame (index : Fin 512) (errs : List (List Codeword)) (s : State) :
    FrameN [.sys, .mgmt, .folio, .ledger, .reserve, .channels, .ports, .groups, .easel, .palette, .crypt, .queues, .perf, .path, .stats, .draws, .out] s (execGlazeUnit index errs s) := by
  unfold execGlazeUnit
  dsimp only
  split
  · refine FrameN.next ?_
    exact Frame.refl _ _
  · refine FrameN.ite ?_ ?_
    · refine FrameN.next ?_
      exact Frame.refl _ _
    · refine FrameN.ite ?_ ?_
      · refine FrameN.next ?_
        refine Frame.ite ?_ ?_
        · refine Frame.step (stepEnd_frame _ _) ?_ rfl
          exact Frame.refl _ _
        · exact Frame.refl _ _
      · refine FrameN.ite ?_ ?_
        · refine FrameN.ite ?_ ?_
          · refine FrameN.next ?_
            refine Frame.step (openFirst_frame _ _) ?_ rfl
            exact Frame.refl _ _
          · refine FrameN.ite ?_ ?_
            · refine FrameN.next ?_
              refine Frame.step (askLines_frame _ _ _) ?_ rfl
              refine Frame.step (openFirst_frame _ _) ?_ rfl
              exact Frame.refl _ _
            · refine FrameN.next ?_
              refine Frame.ite ?_ ?_
              · refine Frame.step (stepEnd_frame _ _) ?_ rfl
                refine Frame.step (markLines_frame _ _ _) ?_ rfl
                refine openLineTile_frame ?_ ?_ rfl
                · intro _ _ _
                  refine Frame.step (engineProgram_frame _ _ _) ?_ rfl
                  exact Frame.refl _ _
                · refine Frame.step (openFirst_frame _ _) ?_ rfl
                  exact Frame.refl _ _
              · refine Frame.step (markLines_frame _ _ _) ?_ rfl
                refine openLineTile_frame ?_ ?_ rfl
                · intro _ _ _
                  refine Frame.step (engineProgram_frame _ _ _) ?_ rfl
                  exact Frame.refl _ _
                · refine Frame.step (openFirst_frame _ _) ?_ rfl
                  exact Frame.refl _ _
        · refine FrameN.ite ?_ ?_
          · refine FrameN.ite ?_ ?_
            · refine FrameN.next ?_
              exact Frame.refl _ _
            · refine FrameN.ite ?_ ?_
              · refine FrameN.next ?_
                refine Frame.step (askLines_frame _ _ _) ?_ rfl
                exact Frame.refl _ _
              · refine FrameN.ite ?_ ?_
                · refine FrameN.next ?_
                  refine Frame.step (glazePage_frame _ _ _ _) ?_ rfl
                  exact Frame.refl _ _
                · refine FrameN.next ?_
                  refine Frame.step (glazeLine_frame _ _ _ _) ?_ rfl
                  exact Frame.refl _ _
          · refine FrameN.next ?_
            exact Frame.refl _ _

theorem execGlazeUnitCommit_frame (line : LineAddr) (s : State) :
    FrameN [.sys, .folio, .reserve, .groups, .easel, .palette, .crypt, .queues, .perf, .path, .stats] s (execGlazeUnitCommit line s) := by
  unfold execGlazeUnitCommit
  dsimp only
  split
  · refine FrameN.ite ?_ ?_
    · refine FrameN.next ?_
      refine Frame.step (askCommit_frame _ _) ?_ rfl
      exact Frame.refl _ _
    · refine FrameN.next ?_
      refine Frame.step (stepEnd_frame _ _) ?_ rfl
      refine Frame.upd_crypt ?_ rfl
      refine Frame.step (deviceFree_frame _ _) ?_ rfl
      refine Frame.step (bump_frame _ _ _ _) ?_ rfl
      refine Frame.ite ?_ ?_
      · refine Frame.step (palPut_frame _ _ _ _ _) ?_ rfl
        refine Frame.step (markLines_frame _ _ _) ?_ rfl
        refine Frame.step (bumpCodec_frame _ _ _ _) ?_ rfl
        refine Frame.step (programLines_frame _ _) ?_ rfl
        exact Frame.refl _ _
      · refine Frame.step (markLines_frame _ _ _) ?_ rfl
        refine Frame.step (bumpCodec_frame _ _ _ _) ?_ rfl
        refine Frame.step (programLines_frame _ _) ?_ rfl
        exact Frame.refl _ _
  · refine FrameN.next ?_
    exact Frame.refl _ _

theorem execGpfPhase2_frame (port : Port) (s : State) :
    FrameN [.stats, .out] s (execGpfPhase2 port s) := by
  unfold execGpfPhase2
  refine FrameN.ite ?_ ?_
  · refine FrameN.next ?_
    refine Frame.step (emit_frame _ _) ?_ rfl
    refine Frame.step (bump_frame _ _ _ _) ?_ rfl
    exact Frame.refl _ _
  · refine FrameN.next ?_
    exact Frame.refl _ _

theorem execHdmDecoderCommit_frame (port : Port) (decoder : Fin 8) (base : BitVec 24) (ways : Fin 5) (gran : Fin 7) (size : BitVec 17) (dpa : BitVec 17) (shared : Bool) (lock : Bool) (s : State) :
    FrameN [.mgmt, .folio, .ledger, .ports, .stats, .out] s (execHdmDecoderCommit port decoder base ways gran size dpa shared lock s) := by
  unfold execHdmDecoderCommit
  dsimp only
  refine FrameN.ite ?_ ?_
  · refine FrameN.next ?_
    exact Frame.refl _ _
  · refine FrameN.ite ?_ ?_
    · refine FrameN.next ?_
      refine Frame.step (modPort_frame _ _ _) ?_ rfl
      exact Frame.refl _ _
    · refine FrameN.next ?_
      refine Frame.step (raise_frame _ _ _) ?_ rfl
      refine Frame.step (bump_frame _ _ _ _) ?_ rfl
      refine Frame.step (modPort_frame _ _ _) ?_ rfl
      exact Frame.refl _ _

theorem execHeartbeatProducer_frame (s : State) :
    FrameN [.out] s (execHeartbeatProducer s) := by
  unfold execHeartbeatProducer
  refine FrameN.next ?_
  refine Frame.ite ?_ ?_
  · refine Frame.step (emit_frame _ _) ?_ rfl
    exact Frame.refl _ _
  · exact Frame.refl _ _

theorem execHeartbeatReceived_frame (node : BitVec 7) (s : State) :
    FrameN [.mgmt, .out] s (execHeartbeatReceived node s) := by
  unfold execHeartbeatReceived
  refine FrameN.next ?_
  refine Frame.ite ?_ ?_
  · refine Frame.step (settleErrors_frame _) ?_ rfl
    refine Frame.foldl ?_ ?_
    · intro _ _
      refine Frame.ite ?_ ?_
      · refine Frame.upd_mgmt ?_ rfl
        exact Frame.refl _ _
      · exact Frame.refl _ _
    · exact Frame.refl _ _
  · exact Frame.refl _ _

theorem execHeartbeatTimeout_frame (entry : Fin 4) (s : State) :
    FrameN [.mgmt, .folio, .ledger, .stats, .out] s (execHeartbeatTimeout entry s) := by
  unfold execHeartbeatTimeout
  dsimp only
  refine FrameN.ite ?_ ?_
  · refine FrameN.next ?_
    refine Frame.step (settleErrors_frame _) ?_ rfl
    refine Frame.step (raise_frame _ _ _) ?_ rfl
    refine Frame.upd_mgmt ?_ rfl
    exact Frame.refl _ _
  · refine FrameN.next ?_
    exact Frame.refl _ _

theorem execHeldWriteTakeIn_frame (port : Port) (s : State) :
    FrameN [.mgmt, .folio, .ledger, .reserve, .ports, .groups, .easel, .palette, .directory, .queues, .barrow, .perf, .stats, .out] s (execHeldWriteTakeIn port s) := by
  unfold execHeldWriteTakeIn
  refine FrameN.next ?_
  refine Frame.step (heldTakeIn_frame _ _) ?_ rfl
  exact Frame.refl _ _

theorem execHoldTick_frame (s : State) :
    FrameN [.sys, .groups, .easel, .stats] s (execHoldTick s) := by
  unfold execHoldTick
  dsimp only
  refine FrameN.next ?_
  refine Frame.foldl ?_ ?_
  · intro _ _
    refine Frame.step (checkShare_frame _ _) ?_ rfl
    exact Frame.refl _ _
  · refine Frame.foldl ?_ ?_
    · intro _ _
      refine Frame.step (checkSet_frame _ _) ?_ rfl
      exact Frame.refl _ _
    · refine Frame.foldl ?_ ?_
      · intro _ _
        refine Frame.step (destageSelect_frame _ _ _ _) ?_ rfl
        exact Frame.refl _ _
      · refine Frame.step (takeForce_frame _ _ _) ?_ rfl
        refine Frame.step (takeForce_frame _ _ _) ?_ rfl
        refine Frame.upd_easel ?_ rfl
        exact Frame.refl _ _

theorem execHostRead_frame (port : Port) (tag : BitVec 16) (address : BitVec 52) (metaValue : Fin 3) (upset : Upset) (also : Upset) (s : State) :
    FrameN [.sys, .mgmt, .folio, .ledger, .reserve, .channels, .ports, .groups, .easel, .palette, .crypt, .directory, .queues, .barrow, .perf, .path, .stats, .draws, .out] s (execHostRead port tag address metaValue upset also s) := by
  unfold execHostRead
  refine FrameN.ite ?_ ?_
  · refine FrameN.next ?_
    refine Frame.step (hostRead_frame _ _ _ _ _ _) ?_ rfl
    exact Frame.refl _ _
  · refine FrameN.next ?_
    exact Frame.refl _ _

theorem execHostWrite_frame (port : Port) (tag : BitVec 16) (address : BitVec 52) (metaValue : Fin 3) (data : Line) (poison : Bool) (upset : Upset) (also : Upset) (s : State) :
    FrameN [.sys, .mgmt, .folio, .ledger, .reserve, .channels, .ports, .groups, .easel, .palette, .crypt, .directory, .queues, .barrow, .perf, .path, .stats, .draws, .out] s (execHostWrite port tag address metaValue data poison upset also s) := by
  unfold execHostWrite
  refine FrameN.ite ?_ ?_
  · refine FrameN.next ?_
    refine Frame.step (hostWrite_frame _ _ _ _ _ _ _ _ _) ?_ rfl
    exact Frame.refl _ _
  · refine FrameN.next ?_
    exact Frame.refl _ _

theorem execHourTally_frame (tally : Byte) (s : State) :
    FrameN [.folio] s (execHourTally tally s) := by
  unfold execHourTally
  refine FrameN.next ?_
  refine Frame.ite ?_ ?_
  · refine Frame.step (tallyAdd_frame _ _) ?_ rfl
    exact Frame.refl _ _
  · exact Frame.refl _ _

theorem execI3cRequest_frame (frame : List Byte) (s : State) :
    FrameN [.sys, .mgmt, .folio, .ledger, .power, .reserve, .thermal, .channels, .ports, .groups, .easel, .palette, .crypt, .directory, .queues, .barrow, .perf, .path, .settings, .stats, .draws, .out] s (execI3cRequest frame s) := by
  unfold execI3cRequest
  dsimp only
  refine FrameN.ite ?_ ?_
  · refine FrameN.next ?_
    refine Frame.step (emit_frame _ _) ?_ rfl
    exact Frame.refl _ _
  · refine FrameN.ite ?_ ?_
    · refine FrameN.next ?_
      refine Frame.step (i3cRefuse_frame _ _) ?_ rfl
      exact Frame.refl _ _
    · split
      · refine FrameN.ite ?_ ?_
        · refine FrameN.next ?_
          refine Frame.step (i3cReady_frame _ _ _) ?_ rfl
          exact Frame.refl _ _
        · refine FrameN.next ?_
          refine Frame.step (i3cExecute_frame _ _ _) ?_ rfl
          exact Frame.refl _ _
      · refine FrameN.next ?_
        refine Frame.step (i3cExecute_frame _ _ _) ?_ rfl
        exact Frame.refl _ _

theorem execI3cResponseRead_frame (s : State) :
    FrameN [.mgmt, .out] s (execI3cResponseRead s) := by
  unfold execI3cResponseRead
  refine FrameN.ite ?_ ?_
  · refine FrameN.next ?_
    refine Frame.step (emit_frame _ _) ?_ rfl
    exact Frame.refl _ _
  · refine FrameN.ite ?_ ?_
    · refine FrameN.next ?_
      dsimp only
      refine Frame.upd_mgmt ?_ rfl
      refine Frame.step (emit_frame _ _) ?_ rfl
      exact Frame.refl _ _
    · refine FrameN.ite ?_ ?_
      · refine FrameN.next ?_
        refine Frame.step (emit_frame _ _) ?_ rfl
        exact Frame.refl _ _
      · refine FrameN.next ?_
        refine Frame.step (emit_frame _ _) ?_ rfl
        exact Frame.refl _ _

theorem execIdeIntegrityFailure_frame (port : Port) (lines : List LineAddr) (s : State) :
    FrameN [.mgmt, .folio, .ledger, .reserve, .ports, .groups, .easel, .palette, .directory, .queues, .barrow, .perf, .stats, .out] s (execIdeIntegrityFailure port lines s) := by
  unfold execIdeIntegrityFailure
  dsimp only
  refine FrameN.ite ?_ ?_
  · refine FrameN.next ?_
    exact Frame.refl _ _
  · refine FrameN.next ?_
    refine Frame.step (portDown_frame _ _ _ _) ?_ rfl
    refine Frame.step (raise_frame _ _ _) ?_ rfl
    refine Frame.step (bump_frame _ _ _ _) ?_ rfl
    refine Frame.step (modPort_frame _ _ _) ?_ rfl
    refine Frame.foldl ?_ ?_
    · intro _ _
      refine Frame.step (mediaEvent_frame _ _ _) ?_ rfl
      refine Frame.step (performWrite_frame _ _) ?_ rfl
      exact Frame.refl _ _
    · exact Frame.refl _ _

theorem execIdeKmGetkey_frame (port : Port) (io : Bool) (s : State) :
    FrameN [.ports, .draws, .out] s (execIdeKmGetkey port io s) := by
  unfold execIdeKmGetkey
  refine spdmServe_frame ?_ rfl
  dsimp only
  refine Frame.step (spdmAnswer_frame _ _ _ _) ?_ rfl
  refine Frame.step (modPort_frame _ _ _) ?_ rfl
  refine Frame.step (afterDraw_frame _) ?_ rfl
  exact Frame.refl _ _

theorem execIdeKmKSetGo_frame (port : Port) (io : Bool) (skid : Bool) (s : State) :
    FrameN [.ports, .out] s (execIdeKmKSetGo port io skid s) := by
  unfold execIdeKmKSetGo
  refine spdmServe_frame ?_ rfl
  refine Frame.ite ?_ ?_
  · refine Frame.step (spdmAnswer_frame _ _ _ _) ?_ rfl
    refine Frame.step (modPort_frame _ _ _) ?_ rfl
    exact Frame.refl _ _
  · refine Frame.step (spdmAnswer_frame _ _ _ _) ?_ rfl
    exact Frame.refl _ _

theorem execIdeKmKSetStop_frame (port : Port) (io : Bool) (s : State) :
    FrameN [.ports, .out] s (execIdeKmKSetStop port io s) := by
  unfold execIdeKmKSetStop
  refine spdmServe_frame ?_ rfl
  refine Frame.step (spdmAnswer_frame _ _ _ _) ?_ rfl
  refine Frame.step (modPort_frame _ _ _) ?_ rfl
  exact Frame.refl _ _

theorem execIdeKmKeyProg_frame (port : Port) (io : Bool) (transmit : Bool) (key : BitVec 256) (s : State) :
    FrameN [.ports, .out] s (execIdeKmKeyProg port io transmit key s) := by
  unfold execIdeKmKeyProg
  refine spdmServe_frame ?_ rfl
  refine Frame.step (spdmAnswer_frame _ _ _ _) ?_ rfl
  refine Frame.step (modPort_frame _ _ _) ?_ rfl
  exact Frame.refl _ _

theorem execIdeKmQuery_frame (port : Port) (s : State) :
    FrameN [.out] s (execIdeKmQuery port s) := by
  unfold execIdeKmQuery
  refine spdmServe_frame ?_ rfl
  refine Frame.step (spdmAnswer_frame _ _ _ _) ?_ rfl
  exact Frame.refl _ _

theorem execIdentify_frame (port : Port) (s : State) :
    FrameN [.stats, .out] s (execIdentify port s) := by
  unfold execIdentify
  refine mailbox_frame ?_
  refine Frame.step (mailboxDone_frame _ _ _ _ _) ?_ rfl
  exact Frame.refl _ _

theorem execIdentifyMemoryDevice_frame (port : Port) (s : State) :
    FrameN [.stats, .out] s (execIdentifyMemoryDevice port s) := by
  unfold execIdentifyMemoryDevice
  refine mailbox_frame ?_
  dsimp only
  refine Frame.step (mailboxDone_frame _ _ _ _ _) ?_ rfl
  exact Frame.refl _ _

theorem execInjectPoison_frame (port : Port) (line : LineAddr) (s : State) :
    FrameN [.mgmt, .folio, .ledger, .reserve, .ports, .groups, .easel, .palette, .directory, .queues, .barrow, .perf, .stats, .out] s (execInjectPoison port line s) := by
  unfold execInjectPoison
  refine mailbox_frame ?_
  refine mediaCommand_frame ?_ ?_ rfl
  · intro _
    dsimp only
    refine Frame.ite ?_ ?_
    · refine Frame.step (mailboxDone_frame _ _ _ _ _) ?_ rfl
      exact Frame.refl _ _
    · refine Frame.ite ?_ ?_
      · refine Frame.step (mailboxDone_frame _ _ _ _ _) ?_ rfl
        exact Frame.refl _ _
      · refine Frame.step (mailboxDone_frame _ _ _ _ _) ?_ rfl
        refine Frame.step (bump_frame _ _ _ _) ?_ rfl
        refine Frame.step (poisonInsert_frame _ _ _ _) ?_ rfl
        refine Frame.step (performWrite_frame _ _) ?_ rfl
        exact Frame.refl _ _
  · exact Frame.refl _ _

theorem execInstallationKey_frame (via : Via) (key : BitVec 256) (s : State) :
    FrameN [.mgmt, .folio, .ledger, .crypt, .perf, .stats, .out] s (execInstallationKey via key s) := by
  unfold execInstallationKey
  refine FrameN.next ?_
  refine served_frame ?_ ?_ rfl
  · intro _ _
    refine FrameE.step (installationKey_frame _ _) ?_ rfl
    exact Frame.refl _ _
  · exact Frame.refl _ _

theorem execInstallationKeyRewrap_frame (via : Via) (wrapped : BitVec 320) (s : State) :
    FrameN [.mgmt, .folio, .ledger, .crypt, .perf, .stats, .out] s (execInstallationKeyRewrap via wrapped s) := by
  unfold execInstallationKeyRewrap
  refine FrameN.next ?_
  refine served_frame ?_ ?_ rfl
  · intro _ _
    refine FrameE.step (installationRewrap_frame _ _) ?_ rfl
    exact Frame.refl _ _
  · exact Frame.refl _ _

theorem execInterruptCauseClear_frame (via : Via) (channel : BarrowChannel) (mask : Byte) (s : State) :
    FrameN [.mgmt, .folio, .ledger, .barrow, .perf, .stats, .out] s (execInterruptCauseClear via channel mask s) := by
  unfold execInterruptCauseClear
  refine FrameN.next ?_
  refine served_frame ?_ ?_ rfl
  · intro _ _
    refine FrameE.ok ?_
    refine Frame.step (causeClear_frame _ _ _) ?_ rfl
    exact Frame.refl _ _
  · exact Frame.refl _ _

theorem execJournalReplay_frame (errs : List TileDisturb) (s : State) :
    FrameN [.sys, .mgmt, .folio, .ledger, .reserve, .channels, .ports, .groups, .easel, .palette, .crypt, .directory, .queues, .barrow, .perf, .path, .stats, .out] s (execJournalReplay errs s) := by
  unfold execJournalReplay
  refine FrameN.ite ?_ ?_
  · refine FrameN.ite ?_ ?_
    · dsimp only
      refine FrameN.next ?_
      refine Frame.step (beginStep_frame _ _) ?_ rfl
      refine Frame.foldl ?_ ?_
      · intro _ _
        refine Frame.step (startCheckpoint_frame _ _ _) ?_ rfl
        exact Frame.refl _ _
      · refine Frame.step (resolveGlaze_frame _ _ _) ?_ rfl
        refine Frame.foldlFst ?_ ?_
        · intro _ _
          refine Frame.step (replayGroup_frame _ _ _) ?_ rfl
          exact Frame.refl _ _
        · dsimp only
          exact Frame.refl _ _
    · refine FrameN.next ?_
      refine Frame.step (beginStep_frame _ _) ?_ rfl
      exact Frame.refl _ _
  · refine FrameN.next ?_
    exact Frame.refl _ _

theorem execJournalTileComplete_frame (group : Group) (s : State) :
    FrameN [.sys, .mgmt, .folio, .ledger, .power, .groups, .easel, .palette, .queues, .perf, .path, .stats, .out] s (execJournalTileComplete group s) := by
  unfold execJournalTileComplete
  refine FrameN.next ?_
  refine Frame.step (varnishAdvance_frame _ _) ?_ rfl
  refine Frame.step (journalComplete_frame _ _) ?_ rfl
  exact Frame.refl _ _

theorem execJournalTileWrite_frame (group : Group) (s : State) :
    FrameN [.mgmt, .folio, .ledger, .groups, .queues, .stats, .out] s (execJournalTileWrite group s) := by
  unfold execJournalTileWrite
  dsimp only
  refine FrameN.ite ?_ ?_
  · refine FrameN.next ?_
    exact Frame.refl _ _
  · split
    · refine FrameN.next ?_
      refine Frame.step (modGroup_frame _ _ _) ?_ rfl
      refine Frame.step (issueJournalTile_frame _ _ _ _ _ _) ?_ rfl
      exact Frame.refl _ _
    · split
      · refine FrameN.next ?_
        exact Frame.refl _ _
      · refine FrameN.ite ?_ ?_
        · refine FrameN.ite ?_ ?_
          · refine FrameN.next ?_
            exact Frame.refl _ _
          · refine FrameN.next ?_
            refine Frame.step (raise_frame _ _ _) ?_ rfl
            refine Frame.step (modGroup_frame _ _ _) ?_ rfl
            exact Frame.refl _ _
        · refine FrameN.next ?_
          refine Frame.step (commitTile_frame _ _ _) ?_ rfl
          exact Frame.refl _ _

theorem execLaneFailure_frame (port : Port) (width : Fin 4) (s : State) :
    FrameN [.mgmt, .folio, .ledger, .ports, .stats, .out] s (execLaneFailure port width s) := by
  unfold execLaneFailure
  dsimp only
  refine FrameN.ite ?_ ?_
  · refine FrameN.next ?_
    refine Frame.step (reducedTraining_frame _ _) ?_ rfl
    refine Frame.step (modPort_frame _ _ _) ?_ rfl
    exact Frame.refl _ _
  · refine FrameN.next ?_
    exact Frame.refl _ _

theorem execLedgerClear_frame (via : Via) (s : State) :
    FrameN [.mgmt, .folio, .ledger, .perf, .stats, .out] s (execLedgerClear via s) := by
  unfold execLedgerClear
  refine FrameN.next ?_
  refine served_frame ?_ ?_ rfl
  · intro _ _
    refine FrameE.step (ledgerClear_frame _) ?_ rfl
    exact Frame.refl _ _
  · exact Frame.refl _ _

theorem execLedgerWindowRead_frame (via : Via) (s : State) :
    FrameN [.mgmt, .perf, .stats, .out] s (execLedgerWindowRead via s) := by
  unfold execLedgerWindowRead
  refine FrameN.next ?_
  refine serveRead_frame ?_ ?_ rfl
  · intro _ _
    refine FrameQ.ok ?_
    refine Frame.step (windowRead_frame _ _) ?_ rfl
    exact Frame.refl _ _
  · exact Frame.refl _ _

theorem execLevelLockoutWindow_frame (path : Fin 6) (s : State) :
    FrameN [.mgmt] s (execLevelLockoutWindow path s) := by
  unfold execLevelLockoutWindow
  refine FrameN.next ?_
  refine Frame.upd_mgmt ?_ rfl
  exact Frame.refl _ _

theorem execLevelRequest_frame (via : Via) (level : Byte) (code : BitVec 32) (s : State) :
    FrameN [.mgmt, .folio, .ledger, .perf, .stats, .out] s (execLevelRequest via level code s) := by
  unfold execLevelRequest
  dsimp only
  refine FrameN.next ?_
  refine served_frame ?_ ?_ rfl
  · intro _ _
    refine FrameE.step (levelRequest_frame _ _ _ _) ?_ rfl
    exact Frame.refl _ _
  · exact Frame.refl _ _

theorem execLightSleepEntry_frame (group : Group) (s : State) :
    FrameN [.thermal] s (execLightSleepEntry group s) := by
  unfold execLightSleepEntry
  dsimp only
  refine FrameN.ite ?_ ?_
  · refine FrameN.next ?_
    refine Frame.step (setSleep_frame _ _ _) ?_ rfl
    exact Frame.refl _ _
  · refine FrameN.next ?_
    exact Frame.refl _ _

theorem execLinkPowerState_frame (port : Port) (state : Fin 5) (s : State) :
    FrameN [.ports, .stats] s (execLinkPowerState port state s) := by
  unfold execLinkPowerState
  dsimp only
  refine FrameN.ite ?_ ?_
  · refine FrameN.next ?_
    refine Frame.step (bump_frame _ _ _ _) ?_ rfl
    refine Frame.step (modPort_frame _ _ _) ?_ rfl
    exact Frame.refl _ _
  · refine FrameN.ite ?_ ?_
    · refine FrameN.next ?_
      refine Frame.step (modPort_frame _ _ _) ?_ rfl
      exact Frame.refl _ _
    · refine FrameN.next ?_
      exact Frame.refl _ _

theorem execLinkTraining_frame (port : Port) (rate : Fin 5) (width : Fin 4) (s : State) :
    FrameN [.mgmt, .folio, .ledger, .ports, .stats, .out] s (execLinkTraining port rate width s) := by
  unfold execLinkTraining
  dsimp only
  refine FrameN.ite ?_ ?_
  · refine FrameN.next ?_
    exact Frame.refl _ _
  · refine FrameN.next ?_
    refine Frame.step (reducedTraining_frame _ _) ?_ rfl
    refine Frame.step (modPort_frame _ _ _) ?_ rfl
    refine Frame.ite ?_ ?_
    · refine Frame.step (bindTo_frame _ _ _) ?_ rfl
      exact Frame.refl _ _
    · exact Frame.refl _ _

theorem execLockOverrun_frame (group : Group) (s : State) :
    FrameN [.mgmt, .folio, .ledger, .groups, .queues, .perf, .stats, .out] s (execLockOverrun group s) := by
  unfold execLockOverrun
  split
  · refine FrameN.ite ?_ ?_
    · refine FrameN.next ?_
      refine Frame.step (lockOverrun_frame _ _ _) ?_ rfl
      exact Frame.refl _ _
    · refine FrameN.next ?_
      exact Frame.refl _ _
  · refine FrameN.next ?_
    exact Frame.refl _ _

theorem execMailboxUnsupported_frame (port : Port) (opcode : BitVec 16) (s : State) :
    FrameN [.stats, .out] s (execMailboxUnsupported port opcode s) := by
  unfold execMailboxUnsupported
  refine mailbox_frame ?_
  refine Frame.ite ?_ ?_
  · exact Frame.refl _ _
  · refine Frame.step (mailboxDone_frame _ _ _ _ _) ?_ rfl
    exact Frame.refl _ _

theorem execMaintEnHigh_frame (s : State) :
    FrameN [.mgmt] s (execMaintEnHigh s) := by
  unfold execMaintEnHigh
  dsimp only
  refine FrameN.next ?_
  refine Frame.foldl ?_ ?_
  · intro _ _
    refine Frame.step (modSession_frame _ _ _) ?_ rfl
    exact Frame.refl _ _
  · refine Frame.upd_mgmt ?_ rfl
    exact Frame.refl _ _

theorem execMaintEnLow_frame (s : State) :
    FrameN [.mgmt] s (execMaintEnLow s) := by
  unfold execMaintEnLow
  refine FrameN.next ?_
  refine Frame.upd_mgmt ?_ rfl
  exact Frame.refl _ _

theorem execMaintenanceWake_frame (group : Group) (answers : List (Option Byte)) (s : State) :
    FrameN [.mgmt, .folio, .ledger, .thermal, .channels, .groups, .stats, .out] s (execMaintenanceWake group answers s) := by
  unfold execMaintenanceWake
  dsimp only
  refine FrameN.ite ?_ ?_
  · refine FrameN.next ?_
    refine Frame.step (stackLevel_frame _ _) ?_ rfl
    refine Frame.ite ?_ ?_
    · refine Frame.step (noteTemps_frame _ _) ?_ rfl
      refine Frame.foldl ?_ ?_
      · intro _ _
        refine Frame.step (channelTemperature_frame _ _ _) ?_ rfl
        exact Frame.refl _ _
      · refine Frame.upd_thermal ?_ rfl
        refine Frame.step (wakeGroup_frame _ _) ?_ rfl
        exact Frame.refl _ _
    · refine Frame.foldl ?_ ?_
      · intro _ _
        refine Frame.step (channelTemperature_frame _ _ _) ?_ rfl
        exact Frame.refl _ _
      · refine Frame.upd_thermal ?_ rfl
        refine Frame.step (wakeGroup_frame _ _) ?_ rfl
        exact Frame.refl _ _
  · refine FrameN.next ?_
    exact Frame.refl _ _

theorem execManagementStatisticsClear_frame (via : Via) (s : State) :
    FrameN [.mgmt, .folio, .ledger, .perf, .stats, .out] s (execManagementStatisticsClear via s) := by
  unfold execManagementStatisticsClear
  refine FrameN.next ?_
  refine served_frame ?_ ?_ rfl
  · intro _ _
    refine FrameE.ok ?_
    refine Frame.step (managementClear_frame _) ?_ rfl
    exact Frame.refl _ _
  · exact Frame.refl _ _

theorem execMarginHigh_frame (via : Via) (acknowledged : Bool) (s : State) :
    FrameN [.mgmt, .folio, .ledger, .power, .perf, .stats, .out] s (execMarginHigh via acknowledged s) := by
  unfold execMarginHigh
  refine FrameN.next ?_
  refine served_frame ?_ ?_ rfl
  · intro _ _
    refine FrameE.step (marginCommand_frame _ _ _) ?_ rfl
    exact Frame.refl _ _
  · exact Frame.refl _ _

theorem execMarginLow_frame (via : Via) (acknowledged : Bool) (s : State) :
    FrameN [.mgmt, .folio, .ledger, .power, .perf, .stats, .out] s (execMarginLow via acknowledged s) := by
  unfold execMarginLow
  refine FrameN.next ?_
  refine served_frame ?_ ?_ rfl
  · intro _ _
    refine FrameE.step (marginCommand_frame _ _ _) ?_ rfl
    exact Frame.refl _ _
  · exact Frame.refl _ _

theorem execMarginNominal_frame (via : Via) (acknowledged : Bool) (s : State) :
    FrameN [.mgmt, .folio, .ledger, .power, .perf, .stats, .out] s (execMarginNominal via acknowledged s) := by
  unfold execMarginNominal
  refine FrameN.next ?_
  refine served_frame ?_ ?_ rfl
  · intro _ _
    refine FrameE.step (marginCommand_frame _ _ _) ?_ rfl
    exact Frame.refl _ _
  · exact Frame.refl _ _

theorem execMarkChannelFailed_frame (via : Via) (channel : Byte) (s : State) :
    FrameN [.sys, .mgmt, .folio, .ledger, .channels, .ports, .groups, .easel, .palette, .directory, .queues, .barrow, .perf, .stats, .out] s (execMarkChannelFailed via channel s) := by
  unfold execMarkChannelFailed
  refine FrameN.next ?_
  refine served_frame ?_ ?_ rfl
  · intro _ _
    refine FrameE.step (markChannel_frame _ _) ?_ rfl
    exact Frame.refl _ _
  · exact Frame.refl _ _

theorem execMeasureInterval_frame (s : State) :
    FrameN [.reserve] s (execMeasureInterval s) := by
  unfold execMeasureInterval
  refine FrameN.next ?_
  refine Frame.upd_reserve ?_ rfl
  exact Frame.refl _ _

theorem execMeasureRequest_frame (via : Via) (s : State) :
    FrameN [.mgmt, .folio, .ledger, .reserve, .perf, .stats, .out] s (execMeasureRequest via s) := by
  unfold execMeasureRequest
  refine FrameN.next ?_
  refine served_frame ?_ ?_ rfl
  · intro _ _
    refine FrameE.step (measureRequest_frame _) ?_ rfl
    exact Frame.refl _ _
  · exact Frame.refl _ _

theorem execMeasurementEnd_frame (stepUv : BitVec 32) (fallUv : BitVec 32) (s : State) :
    FrameN [.mgmt, .folio, .ledger, .reserve, .stats, .out] s (execMeasurementEnd stepUv fallUv s) := by
  unfold execMeasurementEnd
  dsimp only
  refine FrameN.ite ?_ ?_
  · refine FrameN.next ?_
    refine Frame.step (firstMeasure_frame _ _ _) ?_ rfl
    exact Frame.refl _ _
  · refine FrameN.ite ?_ ?_
    · refine FrameN.next ?_
      refine Frame.step (judgeMeasure_frame _ _ _) ?_ rfl
      refine Frame.step (bump_frame _ _ _ _) ?_ rfl
      refine Frame.upd_reserve ?_ rfl
      exact Frame.refl _ _
    · refine FrameN.next ?_
      exact Frame.refl _ _

theorem execMeasurementSinkOn_frame (s : State) :
    FrameN [.reserve] s (execMeasurementSinkOn s) := by
  unfold execMeasurementSinkOn
  refine FrameN.ite ?_ ?_
  · refine FrameN.next ?_
    refine Frame.upd_reserve ?_ rfl
    exact Frame.refl _ _
  · refine FrameN.next ?_
    exact Frame.refl _ _

theorem execMeasurementStart_frame (s : State) :
    FrameN [.mgmt, .folio, .ledger, .reserve, .groups, .easel, .palette, .stats, .out] s (execMeasurementStart s) := by
  unfold execMeasurementStart
  refine FrameN.ite ?_ ?_
  · dsimp only
    refine FrameN.next ?_
    refine Frame.step (recompute_frame _ _) ?_ rfl
    refine Frame.upd_reserve ?_ rfl
    exact Frame.refl _ _
  · refine FrameN.next ?_
    exact Frame.refl _ _

theorem execMemoryActive_frame (s : State) :
    FrameN [.sys, .mgmt, .folio, .ledger, .power, .reserve, .thermal, .channels, .ports, .groups, .easel, .palette, .crypt, .directory, .queues, .barrow, .perf, .stats, .out] s (execMemoryActive s) := by
  unfold execMemoryActive
  refine FrameN.ite ?_ ?_
  · dsimp only
    refine FrameN.next ?_
    refine Frame.ite ?_ ?_
    · refine Frame.step (enterWarn_frame _ _) ?_ rfl
      refine Frame.step (folioQueue_frame _ _ _ _) ?_ rfl
      refine Frame.step (lateLosses_frame _) ?_ rfl
      refine Frame.step (enterRun_frame _) ?_ rfl
      refine Frame.upd_sys_power ?_ rfl
      exact Frame.refl _ _
    · refine Frame.step (folioQueue_frame _ _ _ _) ?_ rfl
      refine Frame.step (lateLosses_frame _) ?_ rfl
      refine Frame.step (enterRun_frame _) ?_ rfl
      refine Frame.upd_sys_power ?_ rfl
      exact Frame.refl _ _
  · refine FrameN.next ?_
    exact Frame.refl _ _

theorem execMonitorClear_frame (via : Via) (s : State) :
    FrameN [.mgmt, .folio, .ledger, .perf, .stats, .out] s (execMonitorClear via s) := by
  unfold execMonitorClear
  refine FrameN.next ?_
  refine served_frame ?_ ?_ rfl
  · intro _ _
    refine FrameE.ok ?_
    refine Frame.step (monitorClear_frame _) ?_ rfl
    exact Frame.refl _ _
  · exact Frame.refl _ _

theorem execMoveBatchComplete_frame (group : Group) (s : State) :
    FrameN [.mgmt, .folio, .ledger, .groups, .queues, .perf, .stats, .draws, .out] s (execMoveBatchComplete group s) := by
  unfold execMoveBatchComplete
  dsimp only
  split
  · refine FrameN.next ?_
    exact Frame.refl _ _
  · refine FrameN.ite ?_ ?_
    · refine FrameN.next ?_
      refine Frame.ite ?_ ?_
      · refine Frame.step (moveEnd_frame _ _ _) ?_ rfl
        refine Frame.step (jqPush_frame _ _ _) ?_ rfl
        refine Frame.step (modGroup_frame _ _ _) ?_ rfl
        exact Frame.refl _ _
      · refine Frame.step (jqPush_frame _ _ _) ?_ rfl
        refine Frame.step (modGroup_frame _ _ _) ?_ rfl
        exact Frame.refl _ _
    · refine FrameN.next ?_
      exact Frame.refl _ _

theorem execMoveSwatchWrite_frame (group : Group) (s : State) :
    FrameN [.sys, .folio, .groups, .path, .stats] s (execMoveSwatchWrite group s) := by
  unfold execMoveSwatchWrite
  dsimp only
  split
  · refine FrameN.next ?_
    exact Frame.refl _ _
  · refine FrameN.ite ?_ ?_
    · refine FrameN.next ?_
      refine Frame.step (modDrift_frame _ _ _ _) ?_ rfl
      refine Frame.step (modGroup_frame _ _ _) ?_ rfl
      refine Frame.step (writeSwatch_frame _ _ _) ?_ rfl
      exact Frame.refl _ _
    · refine FrameN.next ?_
      exact Frame.refl _ _

theorem execMoveTileCopy_frame (group : Group) (errs : List Codeword) (failed : ProgramFailure) (s : State) :
    FrameN [.sys, .mgmt, .folio, .ledger, .reserve, .channels, .groups, .palette, .queues, .perf, .path, .stats, .draws, .out] s (execMoveTileCopy group errs failed s) := by
  unfold execMoveTileCopy
  dsimp only
  split
  · refine FrameN.next ?_
    refine Frame.ite ?_ ?_
    · refine Frame.step (beginRetirement_frame _ _) ?_ rfl
      exact Frame.refl _ _
    · exact Frame.refl _ _
  · refine FrameN.ite ?_ ?_
    · refine FrameN.next ?_
      refine Frame.ite ?_ ?_
      · refine Frame.step (beginRetirement_frame _ _) ?_ rfl
        exact Frame.refl _ _
      · exact Frame.refl _ _
    · refine FrameN.ite ?_ ?_
      · refine FrameN.next ?_
        refine Frame.ite ?_ ?_
        · refine Frame.step (beginRetirement_frame _ _) ?_ rfl
          exact Frame.refl _ _
        · exact Frame.refl _ _
      · refine FrameN.ite ?_ ?_
        · refine FrameN.next ?_
          refine Frame.step (askRemaps_frame _ _ _) ?_ rfl
          refine Frame.ite ?_ ?_
          · refine Frame.step (beginRetirement_frame _ _) ?_ rfl
            exact Frame.refl _ _
          · exact Frame.refl _ _
        · refine FrameN.next ?_
          refine Frame.step (modGroup_frame _ _ _) ?_ rfl
          split
          · refine Frame.step (remapFailed_frame _ _ _ _ _ _ _) ?_ rfl
            refine Frame.step (programAt_frame _ _ _) ?_ rfl
            refine Frame.step (movedCode_frame _ _ _ _ _) ?_ rfl
            refine Frame.ite ?_ ?_
            · refine Frame.step (beginRetirement_frame _ _) ?_ rfl
              exact Frame.refl _ _
            · exact Frame.refl _ _
          · refine Frame.ite ?_ ?_
            · refine Frame.step (beginRetirement_frame _ _) ?_ rfl
              exact Frame.refl _ _
            · exact Frame.refl _ _

theorem execMrAction_frame (s : State) :
    FrameN [.sys, .mgmt, .folio, .ledger, .power, .reserve, .thermal, .channels, .groups, .barrow, .stats, .out] s (execMrAction s) := by
  unfold execMrAction
  dsimp only
  refine FrameN.ite ?_ ?_
  · split
    · refine FrameN.next ?_
      refine Frame.step (releaseLockout_frame _) ?_ rfl
      refine Frame.step (buttonEvent_frame _ _ _) ?_ rfl
      exact Frame.refl _ _
    · refine FrameN.next ?_
      refine Frame.step (enterWarn_frame _ _) ?_ rfl
      refine Frame.step (buttonEvent_frame _ _ _) ?_ rfl
      exact Frame.refl _ _
    · refine FrameN.next ?_
      refine Frame.step (enterWarn_frame _ _) ?_ rfl
      refine Frame.step (buttonEvent_frame _ _ _) ?_ rfl
      exact Frame.refl _ _
    · refine FrameN.next ?_
      refine Frame.step (enterWarn_frame _ _) ?_ rfl
      refine Frame.step (buttonEvent_frame _ _ _) ?_ rfl
      exact Frame.refl _ _
    · refine FrameN.next ?_
      refine Frame.upd_sys ?_ rfl
      refine Frame.step (buttonEvent_frame _ _ _) ?_ rfl
      exact Frame.refl _ _
    · refine FrameN.next ?_
      exact Frame.refl _ _
  · refine FrameN.next ?_
    exact Frame.refl _ _

theorem execMrRead_frame (via : Via) (register : Byte) (temperature : Byte) (verified : Bool) (s : State) :
    FrameN [.mgmt, .folio, .ledger, .channels, .perf, .settings, .stats, .out] s (execMrRead via register temperature verified s) := by
  unfold execMrRead
  refine FrameN.next ?_
  refine served_frame ?_ ?_ rfl
  · intro _ _
    refine FrameE.step (mrRead_frame _ _ _ _) ?_ rfl
    exact Frame.refl _ _
  · exact Frame.refl _ _

theorem execMrr_frame (channel : Channel) (fields : BitVec 44) (temperature : Byte) (s : State) :
    FrameN [.channels, .out] s (execMrr channel fields temperature s) := by
  unfold execMrr
  dsimp only
  refine FrameN.next ?_
  refine takeFrame_frame ?_ ?_ rfl
  · intro _
    refine Frame.step (stackMrr_frame _ _ _ _) ?_ rfl
    exact Frame.refl _ _
  · exact Frame.refl _ _

theorem execMrw_frame (channel : Channel) (fields : BitVec 44) (s : State) :
    FrameN [.channels, .out] s (execMrw channel fields s) := by
  unfold execMrw
  dsimp only
  refine FrameN.next ?_
  refine takeFrame_frame ?_ ?_ rfl
  · intro _
    refine Frame.ite ?_ ?_
    · exact Frame.refl _ _
    · refine Frame.step (setModeReg_frame _ _ _ _) ?_ rfl
      exact Frame.refl _ _
  · exact Frame.refl _ _

theorem execNmtEnterPreOperational_frame (a1 : Bool) (s : State) :
    FrameN [.mgmt] s (execNmtEnterPreOperational a1 s) := by
  unfold execNmtEnterPreOperational
  refine FrameN.next ?_
  refine Frame.ite ?_ ?_
  · refine Frame.upd_mgmt ?_ rfl
    exact Frame.refl _ _
  · exact Frame.refl _ _

theorem execNmtResetCommunication_frame (broadcast : Bool) (s : State) :
    FrameN [.mgmt, .folio, .ledger, .stats, .out] s (execNmtResetCommunication broadcast s) := by
  unfold execNmtResetCommunication
  refine FrameN.next ?_
  refine Frame.ite ?_ ?_
  · refine Frame.step (nmtReset_frame _ _ _) ?_ rfl
    exact Frame.refl _ _
  · exact Frame.refl _ _

theorem execNmtResetNode_frame (broadcast : Bool) (s : State) :
    FrameN [.mgmt, .folio, .ledger, .stats, .out] s (execNmtResetNode broadcast s) := by
  unfold execNmtResetNode
  refine FrameN.next ?_
  refine Frame.ite ?_ ?_
  · refine Frame.step (nmtReset_frame _ _ _) ?_ rfl
    exact Frame.refl _ _
  · exact Frame.refl _ _

theorem execNmtStart_frame (a1 : Bool) (s : State) :
    FrameN [.mgmt] s (execNmtStart a1 s) := by
  unfold execNmtStart
  refine FrameN.next ?_
  refine Frame.ite ?_ ?_
  · refine Frame.upd_mgmt ?_ rfl
    exact Frame.refl _ _
  · exact Frame.refl _ _

theorem execNmtStop_frame (a1 : Bool) (s : State) :
    FrameN [.mgmt] s (execNmtStop a1 s) := by
  unfold execNmtStop
  refine FrameN.next ?_
  refine Frame.ite ?_ ?_
  · refine Frame.step (leaveService_frame _ _) ?_ rfl
    exact Frame.refl _ _
  · exact Frame.refl _ _

theorem execObjectWrite_frame (via : Via) (idx : BitVec 16) (sub : BitVec 8) (data : List Byte) (s : State) :
    FrameN [.sys, .mgmt, .folio, .ledger, .power, .reserve, .thermal, .channels, .ports, .groups, .easel, .palette, .crypt, .directory, .queues, .barrow, .perf, .path, .settings, .stats, .draws, .out] s (execObjectWrite via idx sub data s) := by
  unfold execObjectWrite
  refine FrameN.next ?_
  refine served_frame ?_ ?_ rfl
  · intro _ _
    refine FrameE.step (writeEffect_frame _ _ _ _ _ _) ?_ rfl
    exact Frame.refl _ _
  · exact Frame.refl _ _

theorem execOpeningComplete_frame (s : State) :
    FrameN [.sys, .mgmt, .folio, .ledger, .reserve, .groups, .palette, .crypt, .perf, .path, .stats, .draws, .out] s (execOpeningComplete s) := by
  unfold execOpeningComplete
  dsimp only
  split
  · refine FrameN.next ?_
    exact Frame.refl _ _
  · refine FrameN.ite ?_ ?_
    · refine FrameN.ite ?_ ?_
      · refine FrameN.next ?_
        refine Frame.step (openFirst_frame _ _) ?_ rfl
        exact Frame.refl _ _
      · refine FrameN.next ?_
        refine Frame.step (keyStoreUpdate_frame _) ?_ rfl
        refine Frame.step (engineIdle_frame _) ?_ rfl
        refine Frame.step (bump_frame _ _ _ _) ?_ rfl
        refine Frame.step (raise_frame _ _ _) ?_ rfl
        refine Frame.step (raise_frame _ _ _) ?_ rfl
        refine Frame.step (modRange_frame _ _ _) ?_ rfl
        refine Frame.step (openRest_frame _ _) ?_ rfl
        refine Frame.step (openFirst_frame _ _) ?_ rfl
        exact Frame.refl _ _
    · refine FrameN.next ?_
      exact Frame.refl _ _

theorem execPageReencryption_frame (group : Group) (errs : List (List Codeword)) (s : State) :
    FrameN [.sys, .mgmt, .folio, .ledger, .reserve, .channels, .ports, .groups, .easel, .palette, .queues, .perf, .path, .stats, .out] s (execPageReencryption group errs s) := by
  unfold execPageReencryption
  dsimp only
  split
  · refine FrameN.ite ?_ ?_
    · refine FrameN.next ?_
      refine Frame.step (pageStep_frame _ _ _) ?_ rfl
      exact Frame.refl _ _
    · refine FrameN.next ?_
      exact Frame.refl _ _
  · refine FrameN.next ?_
    exact Frame.refl _ _

theorem execPageReencryptionEnd_frame (group : Group) (s : State) :
    FrameN [.sys, .folio, .reserve, .groups, .easel, .palette, .queues, .perf, .path, .stats] s (execPageReencryptionEnd group s) := by
  unfold execPageReencryptionEnd
  dsimp only
  split
  · refine FrameN.next ?_
    exact Frame.refl _ _
  · refine FrameN.ite ?_ ?_
    · refine FrameN.next ?_
      exact Frame.refl _ _
    · refine FrameN.next ?_
      refine Frame.step (jqPush_frame _ _ _) ?_ rfl
      refine Frame.step (bump_frame _ _ _ _) ?_ rfl
      refine Frame.step (modGroup_frame _ _ _) ?_ rfl
      refine Frame.step (deviceFree_frame _ _) ?_ rfl
      refine Frame.step (palPut_frame _ _ _ _ _) ?_ rfl
      refine Frame.step (programLines_frame _ _) ?_ rfl
      exact Frame.refl _ _

theorem execPageWrite_frame (s : State) :
    FrameN [.sys, .folio, .ledger, .reserve] s (execPageWrite s) := by
  unfold execPageWrite
  refine FrameN.ite ?_ ?_
  · refine FrameN.next ?_
    exact Frame.refl _ _
  · refine FrameN.ite ?_ ?_
    · refine FrameN.next ?_
      refine Frame.step (epilogueCheck_frame _) ?_ rfl
      refine Frame.step (startPageWrite_frame _) ?_ rfl
      exact Frame.refl _ _
    · refine FrameN.ite ?_ ?_
      · refine FrameN.next ?_
        refine Frame.step (endEpilogue_frame _) ?_ rfl
        exact Frame.refl _ _
      · refine FrameN.next ?_
        exact Frame.refl _ _

theorem execPageWriteComplete_frame (readBack : List Byte) (s : State) :
    FrameN [.sys, .mgmt, .folio, .ledger, .reserve, .stats, .out] s (execPageWriteComplete readBack s) := by
  unfold execPageWriteComplete
  refine FrameN.next ?_
  refine Frame.step (epilogueCheck_frame _) ?_ rfl
  refine Frame.step (completePageWrite_frame _ _) ?_ rfl
  exact Frame.refl _ _

theorem execPaletteFill_frame (register : Fin 64) (err : Codeword) (xfer : Byte) (s : State) :
    FrameN [.sys, .mgmt, .folio, .ledger, .reserve, .channels, .ports, .groups, .easel, .palette, .crypt, .directory, .queues, .barrow, .perf, .path, .stats, .draws, .out] s (execPaletteFill register err xfer s) := by
  unfold execPaletteFill
  dsimp only
  split
  · refine FrameN.next ?_
    exact Frame.refl _ _
  · refine FrameN.ite ?_ ?_
    · refine FrameN.next ?_
      exact Frame.refl _ _
    · split
      · refine FrameN.next ?_
        refine Frame.step (setMiss_frame _ _ _) ?_ rfl
        exact Frame.refl _ _
      · refine FrameN.ite ?_ ?_
        · refine FrameN.next ?_
          refine Frame.foldl ?_ ?_
          · intro _ _
            refine Frame.step (completeRead_frame _ _ _ _ _) ?_ rfl
            exact Frame.refl _ _
          · refine Frame.step (setMiss_frame _ _ _) ?_ rfl
            exact Frame.refl _ _
        · refine FrameN.ite ?_ ?_
          · refine FrameN.next ?_
            exact Frame.refl _ _
          · refine FrameN.ite ?_ ?_
            · refine FrameN.next ?_
              refine Frame.step (askRemap_frame _ _ _) ?_ rfl
              exact Frame.refl _ _
            · refine FrameN.next ?_
              refine Frame.step (retrySealed_frame _) ?_ rfl
              refine Frame.step (settlePalette_frame _) ?_ rfl
              refine Frame.step (cascade_frame _ _) ?_ rfl
              refine Frame.step (fillArrived_frame _ _ _ _ _ _) ?_ rfl
              exact Frame.refl _ _

theorem execPaletteStatisticsClear_frame (via : Via) (s : State) :
    FrameN [.mgmt, .folio, .ledger, .perf, .stats, .out] s (execPaletteStatisticsClear via s) := by
  unfold execPaletteStatisticsClear
  refine FrameN.next ?_
  refine served_frame ?_ ?_ rfl
  · intro _ _
    refine FrameE.ok ?_
    refine Frame.step (paletteClear_frame _) ?_ rfl
    exact Frame.refl _ _
  · exact Frame.refl _ _

theorem execPaletteTick_frame (s : State) :
    FrameN [.palette] s (execPaletteTick s) := by
  unfold execPaletteTick
  dsimp only
  refine FrameN.next ?_
  refine Frame.foldl ?_ ?_
  · intro _ _
    refine Frame.step (palSelect_frame _ _) ?_ rfl
    exact Frame.refl _ _
  · refine Frame.upd_palette ?_ rfl
    exact Frame.refl _ _

theorem execPaletteWritebackComplete_frame (set : Fin 8192) (way : Fin 16) (s : State) :
    FrameN [.sys, .mgmt, .folio, .ledger, .power, .reserve, .groups, .easel, .palette, .directory, .queues, .barrow, .perf, .path, .stats, .out] s (execPaletteWritebackComplete set way s) := by
  unfold execPaletteWritebackComplete
  dsimp only
  split
  · refine FrameN.next ?_
    exact Frame.refl _ _
  · refine FrameN.next ?_
    refine Frame.step (varnishAdvance_frame _ _) ?_ rfl
    refine Frame.step (settleAcks_frame _) ?_ rfl
    refine Frame.upd_easel ?_ rfl
    refine Frame.step (palComplete_frame _ _) ?_ rfl
    exact Frame.refl _ _

theorem execPaletteWritebackGrant_frame (set : Fin 8192) (way : Fin 16) (s : State) :
    FrameN [.reserve, .easel, .palette, .crypt, .perf, .stats] s (execPaletteWritebackGrant set way s) := by
  unfold execPaletteWritebackGrant
  dsimp only
  refine FrameN.ite ?_ ?_
  · refine FrameN.ite ?_ ?_
    · refine FrameN.next ?_
      refine Frame.upd_easel_palette ?_ rfl
      refine Frame.step (palGrant_frame _ _) ?_ rfl
      exact Frame.refl _ _
    · refine FrameN.next ?_
      refine Frame.step (palGrant_frame _ _) ?_ rfl
      exact Frame.refl _ _
  · refine FrameN.next ?_
    split
    · refine Frame.ite ?_ ?_
      · refine Frame.step (askRemap_frame _ _ _) ?_ rfl
        exact Frame.refl _ _
      · exact Frame.refl _ _
    · exact Frame.refl _ _

theorem execPartialWrite_frame (port : Port) (tag : BitVec 16) (address : BitVec 52) (metaValue : Fin 3) (mask : BitVec 64) (data : Line) (poison : Bool) (upset : Upset) (also : Upset) (s : State) :
    FrameN [.sys, .mgmt, .folio, .ledger, .reserve, .channels, .ports, .groups, .easel, .palette, .crypt, .directory, .queues, .barrow, .perf, .path, .stats, .draws, .out] s (execPartialWrite port tag address metaValue mask data poison upset also s) := by
  unfold execPartialWrite
  refine FrameN.ite ?_ ?_
  · refine FrameN.next ?_
    refine Frame.step (hostWrite_frame _ _ _ _ _ _ _ _ _) ?_ rfl
    exact Frame.refl _ _
  · refine FrameN.next ?_
    exact Frame.refl _ _

theorem execPatchRemap_frame (group : Group) (errs : List Codeword) (s : State) :
    FrameN [.sys, .mgmt, .folio, .ledger, .channels, .ports, .groups, .palette, .queues, .perf, .path, .stats, .out] s (execPatchRemap group errs s) := by
  unfold execPatchRemap
  dsimp only
  split
  · refine FrameN.next ?_
    exact Frame.refl _ _
  · refine FrameN.ite ?_ ?_
    · refine FrameN.next ?_
      exact Frame.refl _ _
    · refine FrameN.ite ?_ ?_
      · refine FrameN.next ?_
        refine Frame.step (modGroup_frame _ _ _) ?_ rfl
        exact Frame.refl _ _
      · refine FrameN.ite ?_ ?_
        · refine FrameN.next ?_
          refine Frame.step (askRemap_frame _ _ _) ?_ rfl
          exact Frame.refl _ _
        · refine FrameN.ite ?_ ?_
          · refine FrameN.next ?_
            refine Frame.step (retireRegion_frame _ _ _ _ _) ?_ rfl
            refine Frame.step (modGroup_frame _ _ _) ?_ rfl
            exact Frame.refl _ _
          · split
            · refine FrameN.next ?_
              refine Frame.step (modGroup_frame _ _ _) ?_ rfl
              exact Frame.refl _ _
            · refine FrameN.ite ?_ ?_
              · refine FrameN.next ?_
                exact Frame.refl _ _
              · split
                · refine FrameN.next ?_
                  refine Frame.step (engineUnreadable_frame _ _ _ _) ?_ rfl
                  refine Frame.step (correctedCode_frame _ _ _ _) ?_ rfl
                  refine Frame.step (modGroup_frame _ _ _) ?_ rfl
                  exact Frame.refl _ _
                · refine FrameN.next ?_
                  refine Frame.step (modGroup_frame _ _ _) ?_ rfl
                  refine Frame.step (takeSpare_frame _ _ _) ?_ rfl
                  refine Frame.step (correctedCode_frame _ _ _ _) ?_ rfl
                  refine Frame.step (modGroup_frame _ _ _) ?_ rfl
                  exact Frame.refl _ _

theorem execPatchRemapCommit_frame (group : Group) (failed : Bool) (s : State) :
    FrameN [.sys, .mgmt, .folio, .ledger, .reserve, .channels, .groups, .palette, .queues, .perf, .path, .stats, .out] s (execPatchRemapCommit group failed s) := by
  unfold execPatchRemapCommit
  dsimp only
  split
  · refine FrameN.next ?_
    exact Frame.refl _ _
  · refine FrameN.ite ?_ ?_
    · refine FrameN.next ?_
      refine Frame.step (askRemap_frame _ _ _) ?_ rfl
      exact Frame.refl _ _
    · refine FrameN.ite ?_ ?_
      · refine FrameN.ite ?_ ?_
        · refine FrameN.next ?_
          refine Frame.step (modGroup_frame _ _ _) ?_ rfl
          refine Frame.step (spareFailed_frame _ _ _ _) ?_ rfl
          refine Frame.step (modGroup_frame _ _ _) ?_ rfl
          exact Frame.refl _ _
        · refine FrameN.next ?_
          refine Frame.step (remapCommit_frame _ _ _ _ _ _ _) ?_ rfl
          refine Frame.ite ?_ ?_
          · refine Frame.step (modGroup_frame _ _ _) ?_ rfl
            exact Frame.refl _ _
          · refine Frame.step (storeColumns_frame _ _ _ _ _) ?_ rfl
            refine Frame.step (modGroup_frame _ _ _) ?_ rfl
            exact Frame.refl _ _
      · refine FrameN.next ?_
        exact Frame.refl _ _

theorem execPatrolWindow_frame (s : State) :
    FrameN [.easel] s (execPatrolWindow s) := by
  unfold execPatrolWindow
  dsimp only
  refine FrameN.next ?_
  refine Frame.upd_easel ?_ rfl
  exact Frame.refl _ _

theorem execPbtnAction_frame (s : State) :
    FrameN [.sys, .mgmt, .folio, .ledger, .power, .reserve, .thermal, .channels, .groups, .barrow, .stats, .out] s (execPbtnAction s) := by
  unfold execPbtnAction
  dsimp only
  split
  · refine FrameN.next ?_
    refine Frame.ite ?_ ?_
    · refine Frame.step (releaseLockout_frame _) ?_ rfl
      refine Frame.step (buttonEvent_frame _ _ _) ?_ rfl
      exact Frame.refl _ _
    · exact Frame.refl _ _
  · refine FrameN.next ?_
    refine Frame.ite ?_ ?_
    · refine Frame.step (enterWarn_frame _ _) ?_ rfl
      refine Frame.step (buttonEvent_frame _ _ _) ?_ rfl
      exact Frame.refl _ _
    · exact Frame.refl _ _
  · refine FrameN.next ?_
    refine Frame.ite ?_ ?_
    · refine Frame.step (enterWarn_frame _ _) ?_ rfl
      refine Frame.step (buttonEvent_frame _ _ _) ?_ rfl
      exact Frame.refl _ _
    · exact Frame.refl _ _
  · refine FrameN.next ?_
    refine Frame.ite ?_ ?_
    · refine Frame.step (enterWarn_frame _ _) ?_ rfl
      refine Frame.step (buttonEvent_frame _ _ _) ?_ rfl
      exact Frame.refl _ _
    · exact Frame.refl _ _
  · refine FrameN.next ?_
    exact Frame.refl _ _

theorem execPde_frame (channel : Channel) (fields : BitVec 44) (s : State) :
    FrameN [.channels, .out] s (execPde channel fields s) := by
  unfold execPde
  dsimp only
  refine FrameN.next ?_
  refine takeFrame_frame ?_ ?_ rfl
  · intro _
    refine Frame.step (modChannel_frame _ _ _) ?_ rfl
    exact Frame.refl _ _
  · exact Frame.refl _ _

theorem execPdx_frame (channel : Channel) (fields : BitVec 44) (s : State) :
    FrameN [.channels, .out] s (execPdx channel fields s) := by
  unfold execPdx
  dsimp only
  refine FrameN.ite ?_ ?_
  · refine FrameN.next ?_
    exact Frame.refl _ _
  · refine FrameN.ite ?_ ?_
    · refine FrameN.next ?_
      refine Frame.ite ?_ ?_
      · refine Frame.step (modChannel_frame _ _ _) ?_ rfl
        exact Frame.refl _ _
      · exact Frame.refl _ _
    · refine FrameN.next ?_
      refine takeFrame_frame ?_ ?_ rfl
      · intro _
        exact Frame.refl _ _
      · exact Frame.refl _ _

theorem execPgDropTimeout_frame (rail : Rail) (s : State) :
    FrameN [.sys, .mgmt, .folio, .ledger, .power, .reserve, .thermal, .channels, .ports, .groups, .easel, .palette, .directory, .queues, .barrow, .perf, .path, .stats, .out] s (execPgDropTimeout rail s) := by
  unfold execPgDropTimeout
  refine FrameN.ite ?_ ?_
  · refine FrameN.next ?_
    refine Frame.step (runningFault_frame _ _ _) ?_ rfl
    exact Frame.refl _ _
  · refine FrameN.next ?_
    exact Frame.refl _ _

theorem execPgGlitchEnd_frame (rail : Rail) (s : State) :
    FrameN [.folio, .power] s (execPgGlitchEnd rail s) := by
  unfold execPgGlitchEnd
  refine FrameN.ite ?_ ?_
  · refine FrameN.next ?_
    refine Frame.step (tallyAdd_frame _ _) ?_ rfl
    refine Frame.step (modRail_frame _ _ _) ?_ rfl
    exact Frame.refl _ _
  · refine FrameN.next ?_
    exact Frame.refl _ _

theorem execPgLoss_frame (rail : Rail) (s : State) :
    FrameN [.power] s (execPgLoss rail s) := by
  unfold execPgLoss
  refine FrameN.ite ?_ ?_
  · refine FrameN.next ?_
    refine Frame.step (modRail_frame _ _ _) ?_ rfl
    exact Frame.refl _ _
  · refine FrameN.next ?_
    exact Frame.refl _ _

theorem execPgTickSample_frame (high : BitVec 30) (lowLatch : BitVec 30) (s : State) :
    FrameN [.folio, .power] s (execPgTickSample high lowLatch s) := by
  unfold execPgTickSample
  refine FrameN.next ?_
  refine Frame.foldl ?_ ?_
  · intro _ _
    refine Frame.step (pgSample_frame _ _ _ _) ?_ rfl
    exact Frame.refl _ _
  · exact Frame.refl _ _

theorem execPmbusAlert_frame (address : BitVec 7) (statusWord : BitVec 16) (s : State) :
    FrameN [.mgmt, .folio, .ledger, .stats, .out] s (execPmbusAlert address statusWord s) := by
  unfold execPmbusAlert
  dsimp only
  refine FrameN.next ?_
  refine Frame.step (raise_frame _ _ _) ?_ rfl
  refine Frame.foldl ?_ ?_
  · intro _ _
    refine Frame.step (emit_frame _ _) ?_ rfl
    refine Frame.step (setStat_frame _ _ _ _) ?_ rfl
    exact Frame.refl _ _
  · exact Frame.refl _ _

theorem execPmbusTelemetry_frame (answers : List PmbusReading) (s : State) :
    FrameN [.mgmt, .folio, .ledger, .power, .queues, .perf, .stats, .out] s (execPmbusTelemetry answers s) := by
  unfold execPmbusTelemetry
  dsimp only
  refine FrameN.next ?_
  refine Frame.step (tqPush_frame _ _ _ _) ?_ rfl
  refine Frame.foldl ?_ ?_
  · intro _ _
    refine Frame.step (telemetryOf_frame _ _ _) ?_ rfl
    exact Frame.refl _ _
  · exact Frame.refl _ _

theorem execPmbusUnreachableEnd_frame (rail : Rail) (s : State) :
    FrameN [.power] s (execPmbusUnreachableEnd rail s) := by
  unfold execPmbusUnreachableEnd
  refine FrameN.next ?_
  refine Frame.step (modRail_frame _ _ _) ?_ rfl
  exact Frame.refl _ _

theorem execPortEnableWrite_frame (via : Via) (port : Port) (value : Byte) (s : State) :
    FrameN [.mgmt, .folio, .ledger, .reserve, .ports, .groups, .easel, .palette, .directory, .queues, .barrow, .perf, .settings, .stats, .out] s (execPortEnableWrite via port value s) := by
  unfold execPortEnableWrite
  refine FrameN.next ?_
  refine servedNum_frame ?_ ?_ rfl
  · intro _ _
    refine FrameE.ok ?_
    refine Frame.step (portEnable_frame _ _ _) ?_ rfl
    exact Frame.refl _ _
  · exact Frame.refl _ _

theorem execPortReset_frame (port : Port) (cause : Fin 4) (s : State) :
    FrameN [.mgmt, .folio, .ledger, .reserve, .ports, .groups, .easel, .palette, .directory, .queues, .barrow, .perf, .stats, .out] s (execPortReset port cause s) := by
  unfold execPortReset
  refine FrameN.next ?_
  refine Frame.step (portDown_frame _ _ _ _) ?_ rfl
  exact Frame.refl _ _

theorem execPortStatisticsClear_frame (via : Via) (s : State) :
    FrameN [.mgmt, .folio, .ledger, .perf, .stats, .out] s (execPortStatisticsClear via s) := by
  unfold execPortStatisticsClear
  refine FrameN.next ?_
  refine servedNum_frame ?_ ?_ rfl
  · intro _ _
    refine FrameE.ok ?_
    refine Frame.step (portStatisticsClear_frame _) ?_ rfl
    exact Frame.refl _ _
  · exact Frame.refl _ _

theorem execPrg_frame (channel : Channel) (fields : BitVec 44) (data : Patch) (s : State) :
    FrameN [.channels, .out] s (execPrg channel fields data s) := by
  unfold execPrg
  dsimp only
  refine FrameN.next ?_
  refine takeFrame_frame ?_ ?_ rfl
  · intro _
    refine Frame.step (stackProgram_frame _ _ _ _ _ _) ?_ rfl
    exact Frame.refl _ _
  · refine Frame.ite ?_ ?_
    · exact Frame.refl _ _
    · refine Frame.step (modBank_frame _ _ _ _) ?_ rfl
      exact Frame.refl _ _

theorem execPrimingStart_frame (s : State) :
    FrameN [.sys, .mgmt, .folio, .ledger, .power, .reserve, .thermal, .channels, .ports, .groups, .easel, .palette, .crypt, .directory, .queues, .barrow, .perf, .path, .settings, .stats, .draws] s (execPrimingStart s) := by
  unfold execPrimingStart
  refine FrameN.ite ?_ ?_
  · dsimp only
    refine FrameN.next ?_
    refine Frame.step (tallyAdd_frame _ _) ?_ rfl
    refine Frame.step (setStat_frame _ _ _ _) ?_ rfl
    refine Frame.foldl ?_ ?_
    · intro _ _
      refine Frame.step (modPort_frame _ _ _) ?_ rfl
      exact Frame.refl _ _
    · refine Frame.upd_crypt ?_ rfl
      refine Frame.step (afterDraw_frame _) ?_ rfl
      refine Frame.ite ?_ ?_
      · refine Frame.step (rampStart_frame _) ?_ rfl
        refine Frame.upd_sys_mgmt_ledger_power_reserve_thermal_settings_stats ?_ rfl
        refine Frame.step (releaseSessions_frame _ _ _) ?_ rfl
        refine Frame.step (primingQueue_frame _) ?_ rfl
        refine Frame.step (coreReset_frame _) ?_ rfl
        exact Frame.refl _ _
      · refine Frame.upd_sys_mgmt_ledger_power_reserve_thermal_settings_stats ?_ rfl
        refine Frame.step (releaseSessions_frame _ _ _) ?_ rfl
        refine Frame.step (primingQueue_frame _) ?_ rfl
        refine Frame.step (coreReset_frame _) ?_ rfl
        exact Frame.refl _ _
  · refine FrameN.next ?_
    exact Frame.refl _ _

theorem execProgramCompleteTimeout_frame (channel : Channel) (bank : Byte) (s : State) :
    FrameN [.channels, .groups, .path] s (execProgramCompleteTimeout channel bank s) := by
  unfold execProgramCompleteTimeout
  refine FrameN.next ?_
  refine Frame.step (secondEnded_frame _ _ _) ?_ rfl
  refine Frame.step (stackDone_frame _ _ _) ?_ rfl
  exact Frame.refl _ _

theorem execQueueFlush_frame (via : Via) (queue : QueueId) (s : State) :
    FrameN [.mgmt, .folio, .ledger, .ports, .queues, .perf, .stats, .out] s (execQueueFlush via queue s) := by
  unfold execQueueFlush
  refine FrameN.next ?_
  refine served_frame ?_ ?_ rfl
  · intro _ _
    refine FrameE.step (queueFlush_frame _ _) ?_ rfl
    exact Frame.refl _ _
  · exact Frame.refl _ _

theorem execQueuePush_frame (queue : QueueId) (producer : Fin 4) (data : BitVec 64) (first : Bool) (last : Bool) (s : State) :
    FrameN [.queues, .perf, .stats] s (execQueuePush queue producer data first last s) := by
  unfold execQueuePush
  dsimp only
  refine FrameN.ite ?_ ?_
  · refine FrameN.next ?_
    refine Frame.ite ?_ ?_
    · refine Frame.step (modQueue_frame _ _ _) ?_ rfl
      exact Frame.refl _ _
    · exact Frame.refl _ _
  · split
    · refine FrameN.ite ?_ ?_
      · refine FrameN.next ?_
        refine Frame.step (noticeAfter_frame _ _ _) ?_ rfl
        refine Frame.step (pushWord_frame _ _ _) ?_ rfl
        exact Frame.refl _ _
      · refine FrameN.next ?_
        refine Frame.step (bump_frame _ _ _ _) ?_ rfl
        exact Frame.refl _ _
    · refine FrameN.ite ?_ ?_
      · refine FrameN.next ?_
        exact Frame.refl _ _
      · refine FrameN.ite ?_ ?_
        · refine FrameN.next ?_
          refine Frame.step (noticeAfter_frame _ _ _) ?_ rfl
          refine Frame.step (pushWord_frame _ _ _) ?_ rfl
          refine Frame.step (modQueue_frame _ _ _) ?_ rfl
          refine Frame.ite ?_ ?_
          · refine Frame.step (tqRoom_frame _ _ _) ?_ rfl
            exact Frame.refl _ _
          · exact Frame.refl _ _
        · refine FrameN.next ?_
          refine Frame.step (bump_frame _ _ _ _) ?_ rfl
          refine Frame.ite ?_ ?_
          · refine Frame.step (tqRoom_frame _ _ _) ?_ rfl
            exact Frame.refl _ _
          · exact Frame.refl _ _

theorem execQueueStatisticsClear_frame (via : Via) (s : State) :
    FrameN [.mgmt, .folio, .ledger, .queues, .perf, .stats, .out] s (execQueueStatisticsClear via s) := by
  unfold execQueueStatisticsClear
  refine FrameN.next ?_
  refine served_frame ?_ ?_ rfl
  · intro _ _
    refine FrameE.ok ?_
    refine Frame.step (queueStatisticsClear_frame _) ?_ rfl
    exact Frame.refl _ _
  · exact Frame.refl _ _

theorem execQuiesceComplete_frame (s : State) :
    FrameN [.sys, .mgmt, .folio, .ledger, .power, .reserve, .groups, .easel, .palette, .crypt, .queues, .perf, .path, .stats, .out] s (execQuiesceComplete s) := by
  unfold execQuiesceComplete
  refine FrameN.ite ?_ ?_
  · refine FrameN.next ?_
    refine Frame.step (startVarnish_frame _) ?_ rfl
    exact Frame.refl _ _
  · refine FrameN.next ?_
    exact Frame.refl _ _

theorem execQuiesceLimit_frame (s : State) :
    FrameN [.sys, .mgmt, .folio, .ledger, .power, .reserve, .groups, .easel, .palette, .crypt, .queues, .barrow, .perf, .path, .stats, .out] s (execQuiesceLimit s) := by
  unfold execQuiesceLimit
  refine FrameN.ite ?_ ?_
  · refine FrameN.next ?_
    refine Frame.step (startVarnish_frame _) ?_ rfl
    refine Frame.foldl ?_ ?_
    · intro _ _
      refine Frame.step (hostBeatsFail_frame _ _) ?_ rfl
      exact Frame.refl _ _
    · exact Frame.refl _ _
  · refine FrameN.next ?_
    exact Frame.refl _ _

theorem execRailQualified_frame (rail : Rail) (s : State) :
    FrameN [.sys, .mgmt, .folio, .ledger, .power, .channels, .stats, .out] s (execRailQualified rail s) := by
  unfold execRailQualified
  dsimp only
  split
  · refine FrameN.ite ?_ ?_
    · refine FrameN.next ?_
      refine Frame.step (afterQualified_frame _ _) ?_ rfl
      refine Frame.step (bump_frame _ _ _ _) ?_ rfl
      refine Frame.step (modRail_frame _ _ _) ?_ rfl
      exact Frame.refl _ _
    · refine FrameN.next ?_
      exact Frame.refl _ _
  · refine FrameN.next ?_
    exact Frame.refl _ _

theorem execRailStartFailure_frame (rail : Rail) (s : State) :
    FrameN [.sys, .mgmt, .folio, .ledger, .power, .reserve, .thermal, .channels, .ports, .groups, .easel, .palette, .directory, .queues, .barrow, .perf, .path, .stats, .out] s (execRailStartFailure rail s) := by
  unfold execRailStartFailure
  dsimp only
  refine FrameN.ite ?_ ?_
  · refine FrameN.next ?_
    refine Frame.step (railStartFailed_frame _ _ _) ?_ rfl
    exact Frame.refl _ _
  · refine FrameN.next ?_
    exact Frame.refl _ _

theorem execRampHoldEnd_frame (fallUv : BitVec 32) (s : State) :
    FrameN [.mgmt, .folio, .ledger, .reserve, .stats, .out] s (execRampHoldEnd fallUv s) := by
  unfold execRampHoldEnd
  dsimp only
  split
  · refine FrameN.ite ?_ ?_
    · refine FrameN.next ?_
      refine Frame.step (firstMeasure_frame _ _ _) ?_ rfl
      exact Frame.refl _ _
    · refine FrameN.next ?_
      exact Frame.refl _ _
  · refine FrameN.next ?_
    exact Frame.refl _ _

theorem execRangeClose_frame (via : Via) (range : KeyRange) (s : State) :
    FrameN [.mgmt, .folio, .ledger, .groups, .easel, .crypt, .perf, .stats, .out] s (execRangeClose via range s) := by
  unfold execRangeClose
  refine FrameN.next ?_
  refine served_frame ?_ ?_ rfl
  · intro _ _
    refine FrameE.step (rangeClose_frame _ _) ?_ rfl
    exact Frame.refl _ _
  · exact Frame.refl _ _

theorem execRangeCloseEnd_frame (range : KeyRange) (s : State) :
    FrameN [.folio, .groups, .easel, .crypt, .stats] s (execRangeCloseEnd range s) := by
  unfold execRangeCloseEnd
  dsimp only
  refine FrameN.ite ?_ ?_
  · refine FrameN.ite ?_ ?_
    · refine FrameN.next ?_
      refine Frame.step (keyStoreUpdate_frame _) ?_ rfl
      refine Frame.step (modRange_frame _ _ _) ?_ rfl
      refine Frame.foldl ?_ ?_
      · intro _ _
        refine Frame.step (modLine_frame _ _ _) ?_ rfl
        refine Frame.ite ?_ ?_
        · refine Frame.step (deadenFill_frame _ _ _ _) ?_ rfl
          exact Frame.refl _ _
        · exact Frame.refl _ _
      · exact Frame.refl _ _
    · refine FrameN.next ?_
      refine Frame.foldl ?_ ?_
      · intro _ _
        refine Frame.ite ?_ ?_
        · refine Frame.step (destageSelect_frame _ _ _ _) ?_ rfl
          exact Frame.refl _ _
        · exact Frame.refl _ _
      · exact Frame.refl _ _
  · refine FrameN.next ?_
    exact Frame.refl _ _

theorem execRangeErase_frame (via : Via) (range : KeyRange) (s : State) :
    FrameN [.mgmt, .folio, .ledger, .reserve, .ports, .groups, .easel, .palette, .crypt, .directory, .queues, .barrow, .perf, .stats, .draws, .out] s (execRangeErase via range s) := by
  unfold execRangeErase
  refine FrameN.next ?_
  refine served_frame ?_ ?_ rfl
  · intro _ _
    refine FrameE.step (rangeErase_frame _ _) ?_ rfl
    exact Frame.refl _ _
  · exact Frame.refl _ _

theorem execRangeInvalidationClose_frame (kind : Byte) (lo : BitVec 56) (hi : BitVec 56) (s : State) :
    FrameN [.reserve, .palette, .stats] s (execRangeInvalidationClose kind lo hi s) := by
  unfold execRangeInvalidationClose
  refine FrameN.next ?_
  refine Frame.step (closeInvalidation_frame _ _ _ _) ?_ rfl
  exact Frame.refl _ _

theorem execRangeInvalidationOpen_frame (kind : Byte) (lo : BitVec 56) (hi : BitVec 56) (s : State) :
    FrameN [.reserve, .palette, .stats] s (execRangeInvalidationOpen kind lo hi s) := by
  unfold execRangeInvalidationOpen
  refine FrameN.next ?_
  refine Frame.step (invalidateRange_frame _ _ _ _) ?_ rfl
  exact Frame.refl _ _

theorem execRangeOpen_frame (via : Via) (range : KeyRange) (s : State) :
    FrameN [.mgmt, .folio, .ledger, .crypt, .perf, .stats, .draws, .out] s (execRangeOpen via range s) := by
  unfold execRangeOpen
  refine FrameN.next ?_
  refine served_frame ?_ ?_ rfl
  · intro _ _
    refine FrameE.step (rangeOpen_frame _ _) ?_ rfl
    exact Frame.refl _ _
  · exact Frame.refl _ _

theorem execRateLimitWindow_frame (s : State) :
    FrameN [.sys, .mgmt, .folio, .ledger, .stats, .out] s (execRateLimitWindow s) := by
  unfold execRateLimitWindow
  dsimp only
  refine FrameN.next ?_
  refine Frame.ite ?_ ?_
  · refine Frame.step (raise_frame _ _ _) ?_ rfl
    refine Frame.upd_ledger ?_ rfl
    refine Frame.foldl ?_ ?_
    · intro _ _
      refine Frame.ite ?_ ?_
      · refine Frame.step (ledgerAssign_frame _ _ _ _) ?_ rfl
        exact Frame.refl _ _
      · exact Frame.refl _ _
    · refine Frame.step (takeForce_frame _ _ _) ?_ rfl
      exact Frame.refl _ _
  · refine Frame.upd_ledger ?_ rfl
    refine Frame.foldl ?_ ?_
    · intro _ _
      refine Frame.ite ?_ ?_
      · refine Frame.step (ledgerAssign_frame _ _ _ _) ?_ rfl
        exact Frame.refl _ _
      · exact Frame.refl _ _
    · refine Frame.step (takeForce_frame _ _ _) ?_ rfl
      exact Frame.refl _ _

theorem execRd_frame (channel : Channel) (fields : BitVec 44) (err : Patch) (s : State) :
    FrameN [.channels, .out] s (execRd channel fields err s) := by
  unfold execRd
  dsimp only
  refine FrameN.next ?_
  refine takeFrame_frame ?_ ?_ rfl
  · intro _
    refine Frame.step (stackRead_frame _ _ _ _ _) ?_ rfl
    exact Frame.refl _ _
  · exact Frame.refl _ _

theorem execReadErrorEvent_frame (channel : Channel) (bank : Byte) (s : State) :
    FrameN [.channels, .stats] s (execReadErrorEvent channel bank s) := by
  unfold execReadErrorEvent
  dsimp only
  refine FrameN.ite ?_ ?_
  · refine FrameN.next ?_
    exact Frame.refl _ _
  · refine FrameN.next ?_
    refine Frame.step (eraseRead_frame _ _ _) ?_ rfl
    refine Frame.step (channelError_frame _ _) ?_ rfl
    refine Frame.step (bump_frame _ _ _ _) ?_ rfl
    exact Frame.refl _ _

theorem execRebuildRegion_frame (group : Group) (s : State) :
    FrameN [.mgmt, .folio, .ledger, .groups, .stats, .out] s (execRebuildRegion group s) := by
  unfold execRebuildRegion
  dsimp only
  refine FrameN.ite ?_ ?_
  · refine FrameN.next ?_
    exact Frame.refl _ _
  · split
    · refine FrameN.next ?_
      exact Frame.refl _ _
    · split
      · refine FrameN.next ?_
        refine Frame.step (rebuildCheck_frame _ _) ?_ rfl
        exact Frame.refl _ _
      · refine FrameN.next ?_
        refine Frame.step (modGroup_frame _ _ _) ?_ rfl
        exact Frame.refl _ _

theorem execRebuildSequence_frame (group : Group) (errs : List Codeword) (deep : List Codeword) (failed : Option (Fin 8)) (s : State) :
    FrameN [.sys, .mgmt, .folio, .ledger, .reserve, .channels, .ports, .groups, .easel, .palette, .crypt, .queues, .perf, .path, .stats, .draws, .out] s (execRebuildSequence group errs deep failed s) := by
  unfold execRebuildSequence
  dsimp only
  split
  · refine FrameN.ite ?_ ?_
    · refine FrameN.next ?_
      exact Frame.refl _ _
    · refine FrameN.ite ?_ ?_
      · refine FrameN.next ?_
        refine Frame.step (askRemap_frame _ _ _) ?_ rfl
        exact Frame.refl _ _
      · refine FrameN.ite ?_ ?_
        · refine FrameN.next ?_
          refine Frame.elim ?_ ?_
          · exact Frame.refl _ _
          · intro _
            refine Frame.step (askAuth_frame _ _) ?_ rfl
            exact Frame.refl _ _
        · refine FrameN.ite ?_ ?_
          · refine FrameN.next ?_
            refine Frame.step (modGroup_frame _ _ _) ?_ rfl
            refine Frame.ite ?_ ?_
            · refine Frame.step (rebuildSwatch_frame _ _ _ _ _) ?_ rfl
              exact Frame.refl _ _
            · split
              · exact Frame.refl _ _
              · split
                · refine Frame.step (rebuildTile_frame _ _ _ _ _ _ _ _ _ _ _) ?_ rfl
                  exact Frame.refl _ _
                · exact Frame.refl _ _
          · refine FrameN.next ?_
            refine Frame.step (rebuildCheck_frame _ _) ?_ rfl
            refine Frame.step (modGroup_frame _ _ _) ?_ rfl
            refine Frame.step (modRegion_frame _ _ _ _) ?_ rfl
            refine Frame.ite ?_ ?_
            · refine Frame.step (rebuildSwatch_frame _ _ _ _ _) ?_ rfl
              exact Frame.refl _ _
            · split
              · exact Frame.refl _ _
              · split
                · refine Frame.step (rebuildTile_frame _ _ _ _ _ _ _ _ _ _ _) ?_ rfl
                  exact Frame.refl _ _
                · exact Frame.refl _ _
  · refine FrameN.next ?_
    exact Frame.refl _ _

theorem execRegionPass_frame (group : Group) (s : State) :
    FrameN [.groups, .queues, .perf, .stats] s (execRegionPass group s) := by
  unfold execRegionPass
  dsimp only
  refine FrameN.ite ?_ ?_
  · split
    · refine FrameN.ite ?_ ?_
      · refine FrameN.next ?_
        refine Frame.step (jqPush_frame _ _ _) ?_ rfl
        refine Frame.step (modGroup_frame _ _ _) ?_ rfl
        exact Frame.refl _ _
      · refine FrameN.next ?_
        exact Frame.refl _ _
    · refine FrameN.next ?_
      exact Frame.refl _ _
  · refine FrameN.next ?_
    exact Frame.refl _ _

theorem execRegionPassClose_frame (group : Group) (s : State) :
    FrameN [.sys, .mgmt, .folio, .ledger, .groups, .queues, .perf, .path, .stats, .out] s (execRegionPassClose group s) := by
  unfold execRegionPassClose
  dsimp only
  split
  · refine FrameN.next ?_
    exact Frame.refl _ _
  · refine FrameN.ite ?_ ?_
    · refine FrameN.next ?_
      exact Frame.refl _ _
    · refine FrameN.next ?_
      refine Frame.ite ?_ ?_
      · refine Frame.step (raise_frame _ _ _) ?_ rfl
        refine Frame.step (jqPush_frame _ _ _) ?_ rfl
        refine Frame.step (bump_frame _ _ _ _) ?_ rfl
        refine Frame.step (modGroup_frame _ _ _) ?_ rfl
        refine Frame.step (modDrift_frame _ _ _ _) ?_ rfl
        refine Frame.step (writeSwatch_frame _ _ _) ?_ rfl
        exact Frame.refl _ _
      · refine Frame.step (jqPush_frame _ _ _) ?_ rfl
        refine Frame.step (bump_frame _ _ _ _) ?_ rfl
        refine Frame.step (modGroup_frame _ _ _) ?_ rfl
        refine Frame.step (modDrift_frame _ _ _ _) ?_ rfl
        refine Frame.step (writeSwatch_frame _ _ _) ?_ rfl
        exact Frame.refl _ _

theorem execReserveChargeTimeout_frame (late : Bool) (s : State) :
    FrameN [.mgmt, .folio, .ledger, .reserve, .stats, .out] s (execReserveChargeTimeout late s) := by
  unfold execReserveChargeTimeout
  refine FrameN.ite ?_ ?_
  · refine FrameN.ite ?_ ?_
    · refine FrameN.next ?_
      refine Frame.ite ?_ ?_
      · refine Frame.step (reserveFail_frame _ _) ?_ rfl
        exact Frame.refl _ _
      · exact Frame.refl _ _
    · refine FrameN.next ?_
      refine Frame.ite ?_ ?_
      · refine Frame.step (reserveFail_frame _ _) ?_ rfl
        exact Frame.refl _ _
      · exact Frame.refl _ _
  · refine FrameN.next ?_
    exact Frame.refl _ _

theorem execReserveDisable_frame (via : Via) (s : State) :
    FrameN [.mgmt, .folio, .ledger, .reserve, .perf, .settings, .stats, .out] s (execReserveDisable via s) := by
  unfold execReserveDisable
  refine FrameN.next ?_
  refine served_frame ?_ ?_ rfl
  · intro _ _
    refine FrameE.step (reserveDisable_frame _) ?_ rfl
    exact Frame.refl _ _
  · exact Frame.refl _ _

theorem execReserveEnable_frame (via : Via) (s : State) :
    FrameN [.mgmt, .folio, .ledger, .reserve, .perf, .settings, .stats, .out] s (execReserveEnable via s) := by
  unfold execReserveEnable
  refine FrameN.next ?_
  refine served_frame ?_ ?_ rfl
  · intro _ _
    refine FrameE.step (reserveEnable_frame _) ?_ rfl
    exact Frame.refl _ _
  · exact Frame.refl _ _

theorem execRestartRequest_frame (via : Via) (s : State) :
    FrameN [.sys, .mgmt, .folio, .ledger, .power, .reserve, .thermal, .channels, .groups, .barrow, .perf, .stats, .out] s (execRestartRequest via s) := by
  unfold execRestartRequest
  refine FrameN.next ?_
  refine served_frame ?_ ?_ rfl
  · intro _ _
    refine FrameE.step (restartRequest_frame _) ?_ rfl
    exact Frame.refl _ _
  · exact Frame.refl _ _

theorem execRestoreDefaultParameters_frame (via : Via) (which : Fin 3) (s : State) :
    FrameN [.mgmt, .folio, .ledger, .perf, .stats, .out] s (execRestoreDefaultParameters via which s) := by
  unfold execRestoreDefaultParameters
  refine FrameN.next ?_
  refine served_frame ?_ ?_ rfl
  · intro _ _
    refine FrameE.step (restoreWrite_frame _ _) ?_ rfl
    exact Frame.refl _ _
  · exact Frame.refl _ _

theorem execRetouchRewrite_frame (group : Group) (errs : List Codeword) (deep : RegionReads) (s : State) :
    FrameN [.sys, .mgmt, .folio, .ledger, .reserve, .channels, .ports, .groups, .easel, .palette, .crypt, .queues, .perf, .path, .stats, .draws, .out] s (execRetouchRewrite group errs deep s) := by
  unfold execRetouchRewrite
  dsimp only
  split
  · refine FrameN.next ?_
    exact Frame.refl _ _
  · refine FrameN.ite ?_ ?_
    · refine FrameN.next ?_
      exact Frame.refl _ _
    · refine FrameN.next ?_
      split
      · refine Frame.ite ?_ ?_
        · refine Frame.step (askRemap_frame _ _ _) ?_ rfl
          refine Frame.ite ?_ ?_
          · refine Frame.step (driftLost_frame _ _ _) ?_ rfl
            exact Frame.refl _ _
          · exact Frame.refl _ _
        · refine Frame.ite ?_ ?_
          · refine Frame.step (askAuth_frame _ _) ?_ rfl
            refine Frame.ite ?_ ?_
            · refine Frame.step (driftLost_frame _ _ _) ?_ rfl
              exact Frame.refl _ _
            · exact Frame.refl _ _
          · refine Frame.ite ?_ ?_
            · refine Frame.ite ?_ ?_
              · refine Frame.step (driftLost_frame _ _ _) ?_ rfl
                exact Frame.refl _ _
              · exact Frame.refl _ _
            · refine Frame.step (passAdvance_frame _ _ _) ?_ rfl
              refine Frame.step (retouchTile_frame _ _ _ _ _ _ _) ?_ rfl
              refine Frame.ite ?_ ?_
              · refine Frame.step (driftLost_frame _ _ _) ?_ rfl
                exact Frame.refl _ _
              · exact Frame.refl _ _
      · refine Frame.step (passAdvance_frame _ _ _) ?_ rfl
        refine Frame.ite ?_ ?_
        · refine Frame.step (driftLost_frame _ _ _) ?_ rfl
          exact Frame.refl _ _
        · exact Frame.refl _ _

theorem execRetouchStatisticsClear_frame (via : Via) (s : State) :
    FrameN [.mgmt, .folio, .ledger, .perf, .stats, .out] s (execRetouchStatisticsClear via s) := by
  unfold execRetouchStatisticsClear
  refine FrameN.next ?_
  refine served_frame ?_ ?_ rfl
  · intro _ _
    refine FrameE.ok ?_
    refine Frame.step (retouchClear_frame _) ?_ rfl
    exact Frame.refl _ _
  · exact Frame.refl _ _

theorem execReturnChannel_frame (via : Via) (channel : Byte) (s : State) :
    FrameN [.mgmt, .folio, .ledger, .channels, .perf, .stats, .out] s (execReturnChannel via channel s) := by
  unfold execReturnChannel
  refine FrameN.next ?_
  refine served_frame ?_ ?_ rfl
  · intro _ _
    refine FrameE.step (returnChannel_frame _ _) ?_ rfl
    exact Frame.refl _ _
  · exact Frame.refl _ _

theorem execRideThroughQualified_frame (s : State) :
    FrameN [.sys, .mgmt, .folio, .ledger, .power, .reserve, .groups, .easel, .palette, .stats, .out] s (execRideThroughQualified s) := by
  unfold execRideThroughQualified
  refine FrameN.ite ?_ ?_
  · dsimp only
    refine FrameN.next ?_
    refine Frame.step (raise_frame _ _ _) ?_ rfl
    refine Frame.step (tallyAdd_frame _ _) ?_ rfl
    refine Frame.step (bump_frame _ _ _ _) ?_ rfl
    refine Frame.step (enterState_frame _ _) ?_ rfl
    refine Frame.step (recompute_frame _ _) ?_ rfl
    refine Frame.ite ?_ ?_
    · refine Frame.upd_power_reserve ?_ rfl
      exact Frame.refl _ _
    · refine Frame.step (rampStart_frame _) ?_ rfl
      refine Frame.upd_power_reserve ?_ rfl
      exact Frame.refl _ _
  · refine FrameN.next ?_
    exact Frame.refl _ _

theorem execRiseWindow_frame (s : State) :
    FrameN [.sys, .mgmt, .folio, .ledger, .thermal, .stats, .out] s (execRiseWindow s) := by
  unfold execRiseWindow
  dsimp only
  refine FrameN.ite ?_ ?_
  · refine FrameN.next ?_
    refine Frame.step (takeForce_frame _ _ _) ?_ rfl
    refine Frame.step (takeForce_frame _ _ _) ?_ rfl
    refine Frame.step (takeForce_frame _ _ _) ?_ rfl
    exact Frame.refl _ _
  · split
    · refine FrameN.next ?_
      refine Frame.upd_thermal ?_ rfl
      refine Frame.step (takeForce_frame _ _ _) ?_ rfl
      refine Frame.step (takeForce_frame _ _ _) ?_ rfl
      refine Frame.step (takeForce_frame _ _ _) ?_ rfl
      exact Frame.refl _ _
    · refine FrameN.ite ?_ ?_
      · refine FrameN.next ?_
        refine Frame.ite ?_ ?_
        · refine Frame.step (bump_frame _ _ _ _) ?_ rfl
          refine Frame.upd_thermal ?_ rfl
          refine Frame.step (setStat_frame _ _ _ _) ?_ rfl
          refine Frame.upd_thermal ?_ rfl
          refine Frame.step (takeForce_frame _ _ _) ?_ rfl
          refine Frame.step (takeForce_frame _ _ _) ?_ rfl
          refine Frame.step (takeForce_frame _ _ _) ?_ rfl
          exact Frame.refl _ _
        · refine Frame.step (raise_frame _ _ _) ?_ rfl
          refine Frame.step (bump_frame _ _ _ _) ?_ rfl
          refine Frame.upd_thermal ?_ rfl
          refine Frame.step (setStat_frame _ _ _ _) ?_ rfl
          refine Frame.upd_thermal ?_ rfl
          refine Frame.step (takeForce_frame _ _ _) ?_ rfl
          refine Frame.step (takeForce_frame _ _ _) ?_ rfl
          refine Frame.step (takeForce_frame _ _ _) ?_ rfl
          exact Frame.refl _ _
      · refine FrameN.next ?_
        refine Frame.upd_thermal ?_ rfl
        refine Frame.step (setStat_frame _ _ _ _) ?_ rfl
        refine Frame.upd_thermal ?_ rfl
        refine Frame.step (takeForce_frame _ _ _) ?_ rfl
        refine Frame.step (takeForce_frame _ _ _) ?_ rfl
        refine Frame.step (takeForce_frame _ _ _) ?_ rfl
        exact Frame.refl _ _

theorem execRowCountWindow_frame (s : State) :
    FrameN [.sys, .easel] s (execRowCountWindow s) := by
  unfold execRowCountWindow
  refine FrameN.next ?_
  refine Frame.step (takeForce_frame _ _ _) ?_ rfl
  refine Frame.upd_easel ?_ rfl
  exact Frame.refl _ _

theorem execRowRepair_frame (ways : RowWords) (s : State) :
    FrameN [.mgmt, .folio, .ledger, .reserve, .ports, .groups, .easel, .palette, .queues, .stats, .out] s (execRowRepair ways s) := by
  unfold execRowRepair
  dsimp only
  split
  · refine FrameN.next ?_
    exact Frame.refl _ _
  · split
    · refine FrameN.next ?_
      refine Frame.ite ?_ ?_
      · refine Frame.step (raise_frame _ _ _) ?_ rfl
        refine Frame.step (raise_frame _ _ _) ?_ rfl
        refine Frame.step (repairImage_frame _ _ _) ?_ rfl
        refine Frame.upd_easel ?_ rfl
        refine Frame.step (copyLosses_frame _ _ _ _) ?_ rfl
        exact Frame.refl _ _
      · refine Frame.step (raise_frame _ _ _) ?_ rfl
        refine Frame.step (repairImage_frame _ _ _) ?_ rfl
        refine Frame.upd_easel ?_ rfl
        refine Frame.step (copyLosses_frame _ _ _ _) ?_ rfl
        exact Frame.refl _ _
    · refine FrameN.ite ?_ ?_
      · refine FrameN.next ?_
        refine Frame.step (repairSet_frame _ _ _ _) ?_ rfl
        exact Frame.refl _ _
      · refine FrameN.next ?_
        refine Frame.upd_easel ?_ rfl
        exact Frame.refl _ _

theorem execRsm_frame (channel : Channel) (fields : BitVec 44) (s : State) :
    FrameN [.channels, .out] s (execRsm channel fields s) := by
  unfold execRsm
  dsimp only
  refine FrameN.next ?_
  refine takeFrame_frame ?_ ?_ rfl
  · intro _
    refine Frame.step (modBank_frame _ _ _ _) ?_ rfl
    exact Frame.refl _ _
  · exact Frame.refl _ _

theorem execRstdaa_frame (s : State) :
    FrameN [.mgmt] s (execRstdaa s) := by
  unfold execRstdaa
  refine FrameN.next ?_
  refine Frame.ite ?_ ?_
  · dsimp only
    refine Frame.upd_mgmt ?_ rfl
    refine Frame.step (releaseSessions_frame _ _ _) ?_ rfl
    exact Frame.refl _ _
  · exact Frame.refl _ _

theorem execRunControl_frame (via : Via) (on : Bool) (s : State) :
    FrameN [.mgmt, .folio, .ledger, .perf, .stats, .out] s (execRunControl via on s) := by
  unfold execRunControl
  refine FrameN.next ?_
  refine served_frame ?_ ?_ rfl
  · intro _ _
    refine FrameE.ok ?_
    refine Frame.step (runControl_frame _ _) ?_ rfl
    exact Frame.refl _ _
  · exact Frame.refl _ _

theorem execScanMedia_frame (port : Port) (first : LineAddr) (lines : BitVec 39) (s : State) :
    FrameN [.mgmt, .folio, .ledger, .ports, .easel, .palette, .directory, .queues, .barrow, .perf, .stats, .out] s (execScanMedia port first lines s) := by
  unfold execScanMedia
  refine mailbox_frame ?_
  refine mediaCommand_frame ?_ ?_ rfl
  · intro _
    dsimp only
    refine Frame.ite ?_ ?_
    · refine Frame.step (mailboxDone_frame _ _ _ _ _) ?_ rfl
      exact Frame.refl _ _
    · refine Frame.ite ?_ ?_
      · refine Frame.step (mailboxDone_frame _ _ _ _ _) ?_ rfl
        exact Frame.refl _ _
      · refine Frame.foldl ?_ ?_
        · intro _ _
          refine Frame.step (performRead_frame _ _) ?_ rfl
          exact Frame.refl _ _
        · refine Frame.step (mailboxDone_frame _ _ _ _ _) ?_ rfl
          refine Frame.step (modPort_frame _ _ _) ?_ rfl
          exact Frame.refl _ _
  · exact Frame.refl _ _

theorem execScanMediaComplete_frame (port : Port) (s : State) :
    FrameN [.ports] s (execScanMediaComplete port s) := by
  unfold execScanMediaComplete
  dsimp only
  refine FrameN.ite ?_ ?_
  · refine FrameN.next ?_
    refine Frame.step (modPort_frame _ _ _) ?_ rfl
    exact Frame.refl _ _
  · refine FrameN.next ?_
    exact Frame.refl _ _

theorem execSelfTest_frame (results : BitVec 16) (s : State) :
    FrameN [.sys, .mgmt, .folio, .ledger, .power, .ports, .groups, .easel, .palette, .directory, .queues, .barrow, .perf, .path, .stats, .out] s (execSelfTest results s) := by
  unfold execSelfTest
  refine FrameN.ite ?_ ?_
  · dsimp only
    refine FrameN.ite ?_ ?_
    · refine FrameN.next ?_
      refine Frame.step (beginStep_frame _ _) ?_ rfl
      refine Frame.step (selfTest_frame _ _ _) ?_ rfl
      exact Frame.refl _ _
    · refine FrameN.next ?_
      refine Frame.step (failedStart_frame _) ?_ rfl
      refine Frame.step (selfTest_frame _ _ _) ?_ rfl
      exact Frame.refl _ _
  · refine FrameN.next ?_
    exact Frame.refl _ _

theorem execSelfTestRequest_frame (via : Via) (results : BitVec 16) (s : State) :
    FrameN [.sys, .mgmt, .folio, .ledger, .ports, .groups, .easel, .palette, .directory, .queues, .barrow, .perf, .path, .stats, .out] s (execSelfTestRequest via results s) := by
  unfold execSelfTestRequest
  refine FrameN.next ?_
  refine served_frame ?_ ?_ rfl
  · intro _ _
    refine FrameE.step (selfTestRequest_frame _ _) ?_ rfl
    exact Frame.refl _ _
  · exact Frame.refl _ _

theorem execSequenceTimeout_frame (rail : Rail) (s : State) :
    FrameN [.sys, .mgmt, .folio, .ledger, .power, .reserve, .thermal, .channels, .ports, .groups, .easel, .palette, .directory, .queues, .barrow, .perf, .path, .stats, .out] s (execSequenceTimeout rail s) := by
  unfold execSequenceTimeout
  dsimp only
  refine FrameN.ite ?_ ?_
  · refine FrameN.next ?_
    refine Frame.step (railStartFailed_frame _ _ _) ?_ rfl
    exact Frame.refl _ _
  · refine FrameN.next ?_
    exact Frame.refl _ _

theorem execSessionIdleTimeout_frame (session : Fin 16) (s : State) :
    FrameN [.mgmt] s (execSessionIdleTimeout session s) := by
  unfold execSessionIdleTimeout
  refine FrameN.next ?_
  refine Frame.ite ?_ ?_
  · refine Frame.step (releaseSession_frame _ _) ?_ rfl
    exact Frame.refl _ _
  · exact Frame.refl _ _

theorem execSetAlertConfiguration_frame (port : Port) (valid : Byte) (enable : Byte) (life : Byte) (hot : BitVec 16) (cold : BitVec 16) (s : State) :
    FrameN [.ports, .settings, .stats, .out] s (execSetAlertConfiguration port valid enable life hot cold s) := by
  unfold execSetAlertConfiguration
  refine mailbox_frame ?_
  dsimp only
  refine Frame.ite ?_ ?_
  · refine Frame.step (mailboxDone_frame _ _ _ _ _) ?_ rfl
    refine Frame.step (modPort_frame _ _ _) ?_ rfl
    refine Frame.ite ?_ ?_
    · refine Frame.step (setSetting_frame _ _ _ _) ?_ rfl
      exact Frame.refl _ _
    · exact Frame.refl _ _
  · refine Frame.step (mailboxDone_frame _ _ _ _ _) ?_ rfl
    exact Frame.refl _ _

theorem execSetEventInterruptPolicy_frame (port : Port) (policy : BitVec 32) (s : State) :
    FrameN [.ports, .stats, .out] s (execSetEventInterruptPolicy port policy s) := by
  unfold execSetEventInterruptPolicy
  refine mailbox_frame ?_
  refine Frame.step (mailboxDone_frame _ _ _ _ _) ?_ rfl
  refine Frame.step (modPort_frame _ _ _) ?_ rfl
  exact Frame.refl _ _

theorem execSetResponseMessageLimit_frame (port : Port) (limit : Byte) (s : State) :
    FrameN [.ports, .stats, .out] s (execSetResponseMessageLimit port limit s) := by
  unfold execSetResponseMessageLimit
  refine mailbox_frame ?_
  dsimp only
  refine Frame.ite ?_ ?_
  · refine Frame.step (mailboxDone_frame _ _ _ _ _) ?_ rfl
    refine Frame.step (modPort_frame _ _ _) ?_ rfl
    exact Frame.refl _ _
  · refine Frame.step (mailboxDone_frame _ _ _ _ _) ?_ rfl
    exact Frame.refl _ _

theorem execSetShutdownState_frame (port : Port) (dirty : Bool) (s : State) :
    FrameN [.folio, .ports, .stats, .out] s (execSetShutdownState port dirty s) := by
  unfold execSetShutdownState
  refine mailbox_frame ?_
  refine Frame.step (mailboxDone_frame _ _ _ _ _) ?_ rfl
  refine Frame.step (setShutdownState_frame _ _ _) ?_ rfl
  exact Frame.refl _ _

theorem execSetTimestamp_frame (port : Port) (value : BitVec 64) (s : State) :
    FrameN [.path, .stats, .out] s (execSetTimestamp port value s) := by
  unfold execSetTimestamp
  refine mailbox_frame ?_
  refine Frame.step (mailboxDone_frame _ _ _ _ _) ?_ rfl
  refine Frame.upd_path ?_ rfl
  exact Frame.refl _ _

theorem execSetdasa_frame (address : BitVec 7) (s : State) :
    FrameN [.mgmt] s (execSetdasa address s) := by
  unfold execSetdasa
  refine FrameN.next ?_
  refine Frame.ite ?_ ?_
  · refine Frame.step (takeAddress_frame _ _) ?_ rfl
    exact Frame.refl _ _
  · exact Frame.refl _ _

theorem execSetnewda_frame (address : BitVec 7) (s : State) :
    FrameN [.mgmt] s (execSetnewda address s) := by
  unfold execSetnewda
  refine FrameN.next ?_
  refine Frame.ite ?_ ?_
  · refine Frame.step (takeAddress_frame _ _) ?_ rfl
    exact Frame.refl _ _
  · exact Frame.refl _ _

theorem execShadowCommit_frame (via : Via) (channel : BarrowChannel) (s : State) :
    FrameN [.mgmt, .folio, .ledger, .barrow, .perf, .stats, .out] s (execShadowCommit via channel s) := by
  unfold execShadowCommit
  refine FrameN.next ?_
  refine served_frame ?_ ?_ rfl
  · intro _ _
    refine FrameE.ok ?_
    refine Frame.step (shadowCommit_frame _ _) ?_ rfl
    exact Frame.refl _ _
  · exact Frame.refl _ _

theorem execSharedFenceRelease_frame (via : Via) (port : Port) (s : State) :
    FrameN [.mgmt, .folio, .ledger, .ports, .perf, .stats, .out] s (execSharedFenceRelease via port s) := by
  unfold execSharedFenceRelease
  refine FrameN.next ?_
  refine servedNum_frame ?_ ?_ rfl
  · intro _ _
    refine FrameE.step (fenceRelease_frame _ _) ?_ rfl
    exact Frame.refl _ _
  · exact Frame.refl _ _

theorem execSnoopTimeout_frame (port : Port) (line : LineAddr) (s : State) :
    FrameN [.mgmt, .folio, .ledger, .reserve, .ports, .groups, .easel, .palette, .directory, .queues, .barrow, .perf, .stats, .out] s (execSnoopTimeout port line s) := by
  unfold execSnoopTimeout
  dsimp only
  split
  · refine FrameN.next ?_
    exact Frame.refl _ _
  · refine FrameN.ite ?_ ?_
    · refine FrameN.next ?_
      refine Frame.foldl ?_ ?_
      · intro _ _
        refine Frame.ite ?_ ?_
        · refine Frame.step (eventPost_frame _ _ _ _ _ _) ?_ rfl
          exact Frame.refl _ _
        · exact Frame.refl _ _
      · refine Frame.step (tallyAdd_frame _ _) ?_ rfl
        refine Frame.step (raise_frame _ _ _) ?_ rfl
        refine Frame.step (bump_frame _ _ _ _) ?_ rfl
        refine Frame.step (modPort_frame _ _ _) ?_ rfl
        refine Frame.step (snoopAnswer_frame _ _ _ _) ?_ rfl
        exact Frame.refl _ _
    · refine FrameN.next ?_
      exact Frame.refl _ _

theorem execSpanFenceRebuildEnd_frame (fence : Fin 8) (s : State) :
    FrameN [.sys, .folio, .reserve, .channels, .groups, .easel, .palette, .crypt, .perf, .path, .stats, .draws] s (execSpanFenceRebuildEnd fence s) := by
  unfold execSpanFenceRebuildEnd
  dsimp only
  split
  · refine FrameN.next ?_
    exact Frame.refl _ _
  · refine FrameN.next ?_
    refine Frame.step (freeFence_frame _ _) ?_ rfl
    refine Frame.foldl ?_ ?_
    · intro _ _
      refine Frame.foldl ?_ ?_
      · intro _ _
        refine Frame.ite ?_ ?_
        · refine Frame.step (poisonPresent_frame _ _) ?_ rfl
          exact Frame.refl _ _
        · refine Frame.step (writePoisonTile_frame _ _ _) ?_ rfl
          exact Frame.refl _ _
      · exact Frame.refl _ _
    · refine Frame.step (freshSubtree_frame _ _ _ _ _) ?_ rfl
      exact Frame.refl _ _

theorem execSpdmChallenge_frame (port : Port) (s : State) :
    FrameN [.draws, .out] s (execSpdmChallenge port s) := by
  unfold execSpdmChallenge
  refine spdmServe_frame ?_ rfl
  refine Frame.step (afterDraw_frame _) ?_ rfl
  refine Frame.step (spdmAnswer_frame _ _ _ _) ?_ rfl
  exact Frame.refl _ _

theorem execSpdmEndSession_frame (port : Port) (s : State) :
    FrameN [.ports, .out] s (execSpdmEndSession port s) := by
  unfold execSpdmEndSession
  refine spdmServe_frame ?_ rfl
  refine Frame.step (spdmAnswer_frame _ _ _ _) ?_ rfl
  refine Frame.step (spdmMove_frame _ _ _) ?_ rfl
  exact Frame.refl _ _

theorem execSpdmFinish_frame (port : Port) (s : State) :
    FrameN [.ports, .draws, .out] s (execSpdmFinish port s) := by
  unfold execSpdmFinish
  refine spdmServe_frame ?_ rfl
  dsimp only
  refine Frame.ite ?_ ?_
  · refine Frame.step (spdmAnswer_frame _ _ _ _) ?_ rfl
    refine Frame.step (spdmMove_frame _ _ _) ?_ rfl
    refine Frame.step (afterDraw_frame _) ?_ rfl
    exact Frame.refl _ _
  · refine Frame.step (spdmAnswer_frame _ _ _ _) ?_ rfl
    refine Frame.step (spdmMove_frame _ _ _) ?_ rfl
    refine Frame.step (afterDraw_frame _) ?_ rfl
    exact Frame.refl _ _

theorem execSpdmGetCapabilities_frame (port : Port) (s : State) :
    FrameN [.ports, .out] s (execSpdmGetCapabilities port s) := by
  unfold execSpdmGetCapabilities
  refine spdmServe_frame ?_ rfl
  refine Frame.step (spdmAnswer_frame _ _ _ _) ?_ rfl
  refine Frame.step (spdmMove_frame _ _ _) ?_ rfl
  exact Frame.refl _ _

theorem execSpdmGetCertificate_frame (port : Port) (offset : BitVec 16) (length : BitVec 16) (s : State) :
    FrameN [.out] s (execSpdmGetCertificate port offset length s) := by
  unfold execSpdmGetCertificate
  refine spdmServe_frame ?_ rfl
  refine Frame.step (spdmAnswer_frame _ _ _ _) ?_ rfl
  exact Frame.refl _ _

theorem execSpdmGetDigests_frame (port : Port) (s : State) :
    FrameN [.out] s (execSpdmGetDigests port s) := by
  unfold execSpdmGetDigests
  refine spdmServe_frame ?_ rfl
  refine Frame.step (spdmAnswer_frame _ _ _ _) ?_ rfl
  exact Frame.refl _ _

theorem execSpdmGetMeasurements_frame (port : Port) (block : Byte) (s : State) :
    FrameN [.out] s (execSpdmGetMeasurements port block s) := by
  unfold execSpdmGetMeasurements
  refine spdmServe_frame ?_ rfl
  dsimp only
  refine Frame.ite ?_ ?_
  · refine Frame.step (spdmAnswer_frame _ _ _ _) ?_ rfl
    exact Frame.refl _ _
  · refine Frame.ite ?_ ?_
    · refine Frame.step (spdmAnswer_frame _ _ _ _) ?_ rfl
      exact Frame.refl _ _
    · refine Frame.ite ?_ ?_
      · refine Frame.step (spdmAnswer_frame _ _ _ _) ?_ rfl
        exact Frame.refl _ _
      · refine Frame.step (spdmAnswer_frame _ _ _ _) ?_ rfl
        exact Frame.refl _ _

theorem execSpdmGetVersion_frame (port : Port) (s : State) :
    FrameN [.ports, .out] s (execSpdmGetVersion port s) := by
  unfold execSpdmGetVersion
  refine spdmServe_frame ?_ rfl
  refine Frame.step (spdmAnswer_frame _ _ _ _) ?_ rfl
  refine Frame.step (spdmMove_frame _ _ _) ?_ rfl
  exact Frame.refl _ _

theorem execSpdmHeartbeat_frame (port : Port) (s : State) :
    FrameN [.out] s (execSpdmHeartbeat port s) := by
  unfold execSpdmHeartbeat
  refine spdmServe_frame ?_ rfl
  refine Frame.step (spdmAnswer_frame _ _ _ _) ?_ rfl
  exact Frame.refl _ _

theorem execSpdmKeyExchange_frame (port : Port) (s : State) :
    FrameN [.ports, .draws, .out] s (execSpdmKeyExchange port s) := by
  unfold execSpdmKeyExchange
  refine spdmServe_frame ?_ rfl
  refine Frame.step (afterDraw_frame _) ?_ rfl
  refine Frame.step (spdmAnswer_frame _ _ _ _) ?_ rfl
  refine Frame.step (spdmMove_frame _ _ _) ?_ rfl
  exact Frame.refl _ _

theorem execSpdmKeyUpdate_frame (port : Port) (operation : Byte) (tag : Byte) (s : State) :
    FrameN [.out] s (execSpdmKeyUpdate port operation tag s) := by
  unfold execSpdmKeyUpdate
  refine spdmServe_frame ?_ rfl
  refine Frame.step (spdmAnswer_frame _ _ _ _) ?_ rfl
  exact Frame.refl _ _

theorem execSpdmNegotiateAlgorithms_frame (port : Port) (s : State) :
    FrameN [.ports, .out] s (execSpdmNegotiateAlgorithms port s) := by
  unfold execSpdmNegotiateAlgorithms
  refine spdmServe_frame ?_ rfl
  refine Frame.step (spdmAnswer_frame _ _ _ _) ?_ rfl
  refine Frame.step (spdmMove_frame _ _ _) ?_ rfl
  exact Frame.refl _ _

theorem execSpdmVendorDefinedRequest_frame (port : Port) (s : State) :
    FrameN [.out] s (execSpdmVendorDefinedRequest port s) := by
  unfold execSpdmVendorDefinedRequest
  refine spdmServe_frame ?_ rfl
  refine Frame.step (spdmAnswer_frame _ _ _ _) ?_ rfl
  exact Frame.refl _ _

theorem execSpillBlockRead_frame (queue : QueueId) (words : SpillWords) (s : State) :
    FrameN [.easel, .queues, .stats] s (execSpillBlockRead queue words s) := by
  unfold execSpillBlockRead
  refine FrameN.next ?_
  refine Frame.step (spillReadBlock_frame _ _ _) ?_ rfl
  exact Frame.refl _ _

theorem execSpillBlockWrite_frame (queue : QueueId) (s : State) :
    FrameN [.queues, .stats] s (execSpillBlockWrite queue s) := by
  unfold execSpillBlockWrite
  refine FrameN.next ?_
  refine Frame.step (spillWrite_frame _ _) ?_ rfl
  exact Frame.refl _ _

theorem execSpillForced_frame (queue : QueueId) (access : SpillAccess) (s : State) :
    FrameN [.easel, .queues, .stats] s (execSpillForced queue access s) := by
  unfold execSpillForced
  split
  · refine FrameN.next ?_
    refine Frame.step (spillWrite_frame _ _) ?_ rfl
    exact Frame.refl _ _
  · refine FrameN.next ?_
    refine Frame.step (spillReadBlock_frame _ _ _) ?_ rfl
    exact Frame.refl _ _

theorem execSrd_frame (channel : Channel) (fields : BitVec 44) (err : Patch) (s : State) :
    FrameN [.channels, .out] s (execSrd channel fields err s) := by
  unfold execSrd
  dsimp only
  refine FrameN.next ?_
  refine takeFrame_frame ?_ ?_ rfl
  · intro _
    refine Frame.step (stackRead_frame _ _ _ _ _) ?_ rfl
    exact Frame.refl _ _
  · exact Frame.refl _ _

theorem execStackStatusEvent_frame (channel : Channel) (status : Byte) (reg : BitVec 16) (s : State) :
    FrameN [.sys, .mgmt, .folio, .ledger, .thermal, .channels, .ports, .groups, .easel, .palette, .directory, .queues, .barrow, .perf, .stats, .out] s (execStackStatusEvent channel status reg s) := by
  unfold execStackStatusEvent
  dsimp only
  refine FrameN.ite ?_ ?_
  · refine FrameN.next ?_
    exact Frame.refl _ _
  · refine FrameN.ite ?_ ?_
    · refine FrameN.next ?_
      refine Frame.step (raise_frame _ _ _) ?_ rfl
      refine Frame.upd_thermal ?_ rfl
      refine Frame.step (modChannel_frame _ _ _) ?_ rfl
      exact Frame.refl _ _
    · refine FrameN.ite ?_ ?_
      · refine FrameN.ite ?_ ?_
        · refine FrameN.next ?_
          refine Frame.step (markFailed_frame _ _ _) ?_ rfl
          refine Frame.step (modChannel_frame _ _ _) ?_ rfl
          refine Frame.step (raise_frame _ _ _) ?_ rfl
          exact Frame.refl _ _
        · refine FrameN.next ?_
          refine Frame.step (raise_frame _ _ _) ?_ rfl
          exact Frame.refl _ _
      · refine FrameN.next ?_
        exact Frame.refl _ _

theorem execStagedWrite_frame (via : Via) (idx : BitVec 16) (sub : BitVec 8) (data : List Byte) (s : State) :
    FrameN [.sys, .mgmt, .folio, .ledger, .power, .reserve, .thermal, .channels, .ports, .groups, .easel, .palette, .crypt, .directory, .queues, .barrow, .perf, .path, .settings, .stats, .draws, .out] s (execStagedWrite via idx sub data s) := by
  unfold execStagedWrite
  refine FrameN.next ?_
  refine served_frame ?_ ?_ rfl
  · intro _ _
    refine FrameE.step (writeEffect_frame _ _ _ _ _ _) ?_ rfl
    exact Frame.refl _ _
  · exact Frame.refl _ _

theorem execStartRequest_frame (via : Via) (s : State) :
    FrameN [.mgmt, .folio, .ledger, .power, .perf, .stats, .out] s (execStartRequest via s) := by
  unfold execStartRequest
  refine FrameN.next ?_
  refine served_frame ?_ ?_ rfl
  · intro _ _
    refine FrameE.ok ?_
    refine Frame.step (releaseLockout_frame _) ?_ rfl
    exact Frame.refl _ _
  · exact Frame.refl _ _

theorem execStartStepOvertime_frame (s : State) :
    FrameN [.mgmt, .folio, .ledger, .stats, .out] s (execStartStepOvertime s) := by
  unfold execStartStepOvertime
  refine FrameN.ite ?_ ?_
  · refine FrameN.next ?_
    refine Frame.step (raise_frame _ _ _) ?_ rfl
    exact Frame.refl _ _
  · refine FrameN.next ?_
    exact Frame.refl _ _

theorem execStopOrderStep_frame (s : State) :
    FrameN [.sys, .mgmt, .folio, .ledger, .power, .reserve, .channels, .ports, .groups, .easel, .palette, .crypt, .directory, .queues, .barrow, .perf, .path, .stats, .out] s (execStopOrderStep s) := by
  unfold execStopOrderStep
  dsimp only
  split
  · refine FrameN.next ?_
    exact Frame.refl _ _
  · refine FrameN.ite ?_ ?_
    · refine FrameN.next ?_
      refine Frame.upd_power ?_ rfl
      refine Frame.step (railDrop_frame _ _) ?_ rfl
      refine Frame.step (parkAll_frame _) ?_ rfl
      exact Frame.refl _ _
    · refine FrameN.ite ?_ ?_
      · refine FrameN.next ?_
        refine Frame.upd_power ?_ rfl
        refine Frame.step (railsDrop_frame _ _) ?_ rfl
        exact Frame.refl _ _
      · refine FrameN.ite ?_ ?_
        · refine FrameN.next ?_
          refine Frame.upd_power ?_ rfl
          refine Frame.step (railsDrop_frame _ _) ?_ rfl
          exact Frame.refl _ _
        · refine FrameN.ite ?_ ?_
          · refine FrameN.next ?_
            refine Frame.ite ?_ ?_
            · refine Frame.upd_power ?_ rfl
              refine Frame.step (railDrop_frame _ _) ?_ rfl
              exact Frame.refl _ _
            · exact Frame.refl _ _
          · refine FrameN.ite ?_ ?_
            · refine FrameN.next ?_
              refine Frame.upd_power ?_ rfl
              refine Frame.step (railsDrop_frame _ _) ?_ rfl
              exact Frame.refl _ _
            · refine FrameN.ite ?_ ?_
              · refine FrameN.next ?_
                refine Frame.upd_power ?_ rfl
                refine Frame.step (railDrop_frame _ _) ?_ rfl
                exact Frame.refl _ _
              · refine FrameN.ite ?_ ?_
                · refine FrameN.next ?_
                  refine Frame.upd_sys_power ?_ rfl
                  refine Frame.step (railDrop_frame _ _) ?_ rfl
                  exact Frame.refl _ _
                · refine FrameN.next ?_
                  refine Frame.ite ?_ ?_
                  · refine Frame.step (railsOff_frame _) ?_ rfl
                    exact Frame.refl _ _
                  · exact Frame.refl _ _

theorem execStoreParameters_frame (via : Via) (which : Fin 3) (s : State) :
    FrameN [.mgmt, .folio, .ledger, .perf, .stats, .out] s (execStoreParameters via which s) := by
  unfold execStoreParameters
  refine FrameN.next ?_
  refine served_frame ?_ ?_ rfl
  · intro _ _
    refine FrameE.step (storeWrite_frame _ _ _) ?_ rfl
    exact Frame.refl _ _
  · exact Frame.refl _ _

theorem execSupervisionStatisticsClear_frame (via : Via) (s : State) :
    FrameN [.mgmt, .folio, .ledger, .perf, .stats, .out] s (execSupervisionStatisticsClear via s) := by
  unfold execSupervisionStatisticsClear
  refine FrameN.next ?_
  refine served_frame ?_ ?_ rfl
  · intro _ _
    refine FrameE.ok ?_
    refine Frame.step (supervisionClear_frame _) ?_ rfl
    exact Frame.refl _ _
  · exact Frame.refl _ _

theorem execSus_frame (channel : Channel) (fields : BitVec 44) (s : State) :
    FrameN [.channels, .out] s (execSus channel fields s) := by
  unfold execSus
  dsimp only
  refine FrameN.next ?_
  refine takeFrame_frame ?_ ?_ rfl
  · intro _
    refine Frame.step (modBank_frame _ _ _ _) ?_ rfl
    exact Frame.refl _ _
  · exact Frame.refl _ _

theorem execSwapInterval_frame (group : Group) (s : State) :
    FrameN [.sys, .mgmt, .folio, .ledger, .groups, .queues, .perf, .stats, .draws, .out] s (execSwapInterval group s) := by
  unfold execSwapInterval
  dsimp only
  refine FrameN.ite ?_ ?_
  · refine FrameN.next ?_
    refine Frame.step (takeSwap_frame _ _) ?_ rfl
    exact Frame.refl _ _
  · refine FrameN.ite ?_ ?_
    · refine FrameN.next ?_
      refine Frame.step (beginRetirement_frame _ _) ?_ rfl
      refine Frame.step (takeSwap_frame _ _) ?_ rfl
      exact Frame.refl _ _
    · refine FrameN.next ?_
      refine Frame.step (swapMove_frame _ _ _) ?_ rfl
      refine Frame.step (takeSwap_frame _ _) ?_ rfl
      exact Frame.refl _ _

theorem execSwatchMeasurementDone_frame (group : Group) (errs : List Codeword) (lost : Bool) (s : State) :
    FrameN [.mgmt, .folio, .ledger, .groups, .stats, .out] s (execSwatchMeasurementDone group errs lost s) := by
  unfold execSwatchMeasurementDone
  dsimp only
  split
  · refine FrameN.ite ?_ ?_
    · refine FrameN.next ?_
      exact Frame.refl _ _
    · refine FrameN.next ?_
      refine Frame.step (modGroup_frame _ _ _) ?_ rfl
      refine Frame.step (measureRegion_frame _ _ _ _) ?_ rfl
      refine Frame.ite ?_ ?_
      · refine Frame.step (driftLost_frame _ _ _) ?_ rfl
        exact Frame.refl _ _
      · exact Frame.refl _ _
  · refine FrameN.next ?_
    exact Frame.refl _ _

theorem execSync_frame (s : State) :
    FrameN [.mgmt, .queues, .stats, .out] s (execSync s) := by
  unfold execSync
  refine FrameN.next ?_
  refine Frame.ite ?_ ?_
  · refine Frame.foldl ?_ ?_
    · intro _ _
      refine Frame.step (tpdoSync_frame _ _) ?_ rfl
      exact Frame.refl _ _
    · exact Frame.refl _ _
  · exact Frame.refl _ _

theorem execTelemetryFlushInterval_frame (channel : BarrowChannel) (s : State) :
    FrameN [.queues, .barrow, .stats, .out] s (execTelemetryFlushInterval channel s) := by
  unfold execTelemetryFlushInterval
  split
  · refine FrameN.ite ?_ ?_
    · refine FrameN.next ?_
      refine Frame.step (telemetryLine_frame _ _ _ _) ?_ rfl
      exact Frame.refl _ _
    · refine FrameN.next ?_
      exact Frame.refl _ _
  · refine FrameN.next ?_
    exact Frame.refl _ _

theorem execTelemetryLineWrite_frame (channel : BarrowChannel) (s : State) :
    FrameN [.queues, .barrow, .stats, .out] s (execTelemetryLineWrite channel s) := by
  unfold execTelemetryLineWrite
  split
  · refine FrameN.ite ?_ ?_
    · refine FrameN.next ?_
      refine Frame.step (telemetryLine_frame _ _ _ _) ?_ rfl
      exact Frame.refl _ _
    · refine FrameN.next ?_
      exact Frame.refl _ _
  · refine FrameN.next ?_
    exact Frame.refl _ _

theorem execTelemetryReadPointer_frame (via : Via) (channel : BarrowChannel) (value : BitVec 32) (s : State) :
    FrameN [.mgmt, .folio, .ledger, .barrow, .perf, .stats, .out] s (execTelemetryReadPointer via channel value s) := by
  unfold execTelemetryReadPointer
  refine FrameN.next ?_
  refine served_frame ?_ ?_ rfl
  · intro _ _
    refine FrameE.step (telemetryPointer_frame _ _ _) ?_ rfl
    exact Frame.refl _ _
  · exact Frame.refl _ _

theorem execTemperatureWindow_frame (answers : List (Option Byte)) (s : State) :
    FrameN [.mgmt, .folio, .ledger, .thermal, .channels, .groups, .stats, .out] s (execTemperatureWindow answers s) := by
  unfold execTemperatureWindow
  dsimp only
  refine FrameN.next ?_
  refine Frame.foldl ?_ ?_
  · intro _ _
    refine Frame.step (stackLevel_frame _ _) ?_ rfl
    refine Frame.ite ?_ ?_
    · refine Frame.step (noteTemps_frame _ _) ?_ rfl
      exact Frame.refl _ _
    · exact Frame.refl _ _
  · refine Frame.foldl ?_ ?_
    · intro _ _
      refine Frame.step (channelTemperature_frame _ _ _) ?_ rfl
      exact Frame.refl _ _
    · exact Frame.refl _ _

theorem execThermalAlertThresholdWrite_frame (via : Via) (value : Byte) (s : State) :
    FrameN [.mgmt, .folio, .ledger, .channels, .perf, .settings, .stats, .out] s (execThermalAlertThresholdWrite via value s) := by
  unfold execThermalAlertThresholdWrite
  refine FrameN.next ?_
  refine served_frame ?_ ?_ rfl
  · intro _ _
    refine FrameE.ok ?_
    refine Frame.step (alertThreshold_frame _ _) ?_ rfl
    exact Frame.refl _ _
  · exact Frame.refl _ _

theorem execThermalScan_frame (readings : List (BitVec 16)) (s : State) :
    FrameN [.sys, .mgmt, .folio, .ledger, .power, .reserve, .thermal, .channels, .ports, .groups, .queues, .barrow, .stats, .out] s (execThermalScan readings s) := by
  unfold execThermalScan
  dsimp only
  refine FrameN.next ?_
  refine Frame.step (judgeStart_frame _) ?_ rfl
  refine Frame.step (judgeLimit_frame _) ?_ rfl
  refine Frame.step (judgeOccasion_frame _) ?_ rfl
  refine Frame.step (setLevel_frame _ _) ?_ rfl
  refine Frame.step (compensate_frame _) ?_ rfl
  refine Frame.step (noteDie_frame _) ?_ rfl
  refine Frame.step (judgeZones_frame _) ?_ rfl
  refine Frame.foldl ?_ ?_
  · intro _ _
    refine Frame.step (judgeSensor_frame _ _ _) ?_ rfl
    exact Frame.refl _ _
  · refine Frame.upd_thermal ?_ rfl
    exact Frame.refl _ _

theorem execThermalStatisticsClear_frame (via : Via) (s : State) :
    FrameN [.mgmt, .folio, .ledger, .perf, .stats, .out] s (execThermalStatisticsClear via s) := by
  unfold execThermalStatisticsClear
  refine FrameN.next ?_
  refine served_frame ?_ ?_ rfl
  · intro _ _
    refine FrameE.ok ?_
    refine Frame.step (thermalClear_frame _) ?_ rfl
    exact Frame.refl _ _
  · exact Frame.refl _ _

theorem execTileReadArrival_frame (read : BitVec 32) (err : Codeword) (xfer : Byte) (s : State) :
    FrameN [.sys, .mgmt, .folio, .ledger, .reserve, .channels, .ports, .groups, .easel, .palette, .directory, .queues, .barrow, .perf, .path, .stats, .out] s (execTileReadArrival read err xfer s) := by
  unfold execTileReadArrival
  dsimp only
  refine FrameN.ite ?_ ?_
  · refine FrameN.next ?_
    exact Frame.refl _ _
  · split
    · refine FrameN.next ?_
      refine Frame.step (readUnreadable_frame _ _) ?_ rfl
      exact Frame.refl _ _
    · refine FrameN.next ?_
      refine Frame.ite ?_ ?_
      · refine Frame.step (completeRead_frame _ _ _ _ _) ?_ rfl
        exact Frame.refl _ _
      · refine Frame.ite ?_ ?_
        · exact Frame.refl _ _
        · refine Frame.ite ?_ ?_
          · refine Frame.step (askRemap_frame _ _ _) ?_ rfl
            exact Frame.refl _ _
          · refine Frame.step (readArrived_frame _ _ _ _ _) ?_ rfl
            exact Frame.refl _ _

theorem execTimeMark_frame (s : State) :
    FrameN [.queues, .perf, .stats] s (execTimeMark s) := by
  unfold execTimeMark
  refine FrameN.next ?_
  refine Frame.ite ?_ ?_
  · refine Frame.step (tqPush_frame _ _ _ _) ?_ rfl
    exact Frame.refl _ _
  · exact Frame.refl _ _

theorem execTpdoEventTimer_frame (tpdo : Fin 8) (s : State) :
    FrameN [.mgmt, .queues, .stats, .out] s (execTpdoEventTimer tpdo s) := by
  unfold execTpdoEventTimer
  dsimp only
  refine FrameN.next ?_
  refine Frame.ite ?_ ?_
  · exact Frame.refl _ _
  · refine Frame.step (tpdoSend_frame _ _) ?_ rfl
    exact Frame.refl _ _

theorem execTqRead_frame (via : Via) (s : State) :
    FrameN [.mgmt, .queues, .perf, .stats, .out] s (execTqRead via s) := by
  unfold execTqRead
  refine FrameN.next ?_
  refine serveRead_frame ?_ ?_ rfl
  · intro _ _
    refine FrameQ.step (tqRead_frame _) ?_ rfl
    exact Frame.refl _ _
  · exact Frame.refl _ _

theorem execTranslateDpa_frame (via : Via) (dpa : BitVec 64) (s : State) :
    FrameN [.mgmt, .folio, .ledger, .perf, .path, .settings, .stats, .out] s (execTranslateDpa via dpa s) := by
  unfold execTranslateDpa
  refine FrameN.next ?_
  refine served_frame ?_ ?_ rfl
  · intro _ _
    refine FrameE.step (translateWrite_frame _ _) ?_ rfl
    exact Frame.refl _ _
  · exact Frame.refl _ _

theorem execTreeReanchor_frame (s : State) :
    FrameN [.sys, .mgmt, .folio, .ledger, .reserve, .channels, .ports, .groups, .easel, .palette, .crypt, .queues, .perf, .path, .stats, .draws, .out] s (execTreeReanchor s) := by
  unfold execTreeReanchor
  refine FrameN.ite ?_ ?_
  · refine FrameN.next ?_
    refine Frame.step (reanchorAll_frame _) ?_ rfl
    exact Frame.refl _ _
  · refine FrameN.next ?_
    exact Frame.refl _ _

theorem execTreeReanchorEnd_frame (s : State) :
    FrameN [.sys, .mgmt, .folio, .ledger, .crypt, .stats, .out] s (execTreeReanchorEnd s) := by
  unfold execTreeReanchorEnd
  dsimp only
  split
  · refine FrameN.ite ?_ ?_
    · refine FrameN.next ?_
      refine Frame.step (keyStoreUpdate_frame _) ?_ rfl
      refine Frame.step (raise_frame _ _ _) ?_ rfl
      refine Frame.upd_sys_crypt ?_ rfl
      refine Frame.foldl ?_ ?_
      · intro _ _
        refine Frame.ite ?_ ?_
        · refine Frame.step (modRange_frame _ _ _) ?_ rfl
          exact Frame.refl _ _
        · exact Frame.refl _ _
      · exact Frame.refl _ _
    · refine FrameN.next ?_
      exact Frame.refl _ _
  · refine FrameN.next ?_
    exact Frame.refl _ _

theorem execUsdoDownload_frame (node : BitVec 7) (idx : BitVec 16) (sub : BitVec 8) (data : List Byte) (s : State) :
    FrameN [.sys, .mgmt, .folio, .ledger, .power, .reserve, .thermal, .channels, .ports, .groups, .easel, .palette, .crypt, .directory, .queues, .barrow, .perf, .path, .settings, .stats, .draws, .out] s (execUsdoDownload node idx sub data s) := by
  unfold execUsdoDownload
  dsimp only
  refine FrameN.next ?_
  refine served_frame ?_ ?_ rfl
  · intro _ _
    refine FrameE.step (writeEffect_frame _ _ _ _ _ _) ?_ rfl
    exact Frame.refl _ _
  · refine Frame.step (endSegments_frame _ _) ?_ rfl
    exact Frame.refl _ _

theorem execUsdoSegment_frame (node : BitVec 7) (idx : BitVec 16) (sub : BitVec 8) (s : State) :
    FrameN [.mgmt, .stats, .out] s (execUsdoSegment node idx sub s) := by
  unfold execUsdoSegment
  dsimp only
  refine FrameN.ite ?_ ?_
  · split
    · refine FrameN.next ?_
      refine Frame.step (rejectNoSession_frame _ _ _) ?_ rfl
      exact Frame.refl _ _
    · refine FrameN.next ?_
      refine Frame.step (modSession_frame _ _ _) ?_ rfl
      refine Frame.ofSomeSnd (sessionFor_frame _ _) (by assumption) ?_ rfl
      exact Frame.refl _ _
  · refine FrameN.next ?_
    exact Frame.refl _ _

theorem execUsdoSegmentTimeout_frame (node : BitVec 7) (s : State) :
    FrameN [.mgmt, .stats, .out] s (execUsdoSegmentTimeout node s) := by
  unfold execUsdoSegmentTimeout
  dsimp only
  split
  · refine FrameN.next ?_
    exact Frame.refl _ _
  · refine FrameN.ite ?_ ?_
    · refine FrameN.next ?_
      exact Frame.refl _ _
    · refine FrameN.next ?_
      refine Frame.ite ?_ ?_
      · refine Frame.step (reject_frame _ _ _ _ _ _ _ _) ?_ rfl
        refine Frame.step (endSegments_frame _ _) ?_ rfl
        exact Frame.refl _ _
      · refine Frame.step (endSegments_frame _ _) ?_ rfl
        exact Frame.refl _ _

theorem execUsdoUpload_frame (node : BitVec 7) (idx : BitVec 16) (sub : BitVec 8) (s : State) :
    FrameN [.mgmt, .queues, .perf, .stats, .out] s (execUsdoUpload node idx sub s) := by
  unfold execUsdoUpload
  dsimp only
  refine FrameN.next ?_
  refine serveRead_frame ?_ ?_ rfl
  · intro _ _
    refine FrameQ.step (objectRead_frame _ _ _ _) ?_ rfl
    exact Frame.refl _ _
  · refine Frame.step (endSegments_frame _ _) ?_ rfl
    exact Frame.refl _ _

theorem execUserDataWrite_frame (via : Via) (data : List Byte) (s : State) :
    FrameN [.mgmt, .folio, .ledger, .perf, .stats, .out] s (execUserDataWrite via data s) := by
  unfold execUserDataWrite
  refine FrameN.next ?_
  refine served_frame ?_ ?_ rfl
  · intro _ _
    refine FrameE.step (userWrite_frame _ _ _) ?_ rfl
    exact Frame.refl _ _
  · exact Frame.refl _ _

theorem execVarnishLimit_frame (s : State) :
    FrameN [.sys, .mgmt, .folio, .ledger, .power, .stats, .out] s (execVarnishLimit s) := by
  unfold execVarnishLimit
  refine FrameN.ite ?_ ?_
  · refine FrameN.next ?_
    refine Frame.step (varnishEnd_frame _ _) ?_ rfl
    exact Frame.refl _ _
  · refine FrameN.next ?_
    exact Frame.refl _ _

theorem execVinBelowWarn_frame (s : State) :
    FrameN [.sys, .mgmt, .folio, .ledger, .power, .reserve, .thermal, .channels, .groups, .barrow, .stats, .out] s (execVinBelowWarn s) := by
  unfold execVinBelowWarn
  refine FrameN.next ?_
  refine Frame.step (enterWarn_frame _ _) ?_ rfl
  refine Frame.step (isolate_frame _) ?_ rfl
  refine Frame.upd_power ?_ rfl
  exact Frame.refl _ _

theorem execVinGood_frame (s : State) :
    FrameN [.power] s (execVinGood s) := by
  unfold execVinGood
  refine FrameN.next ?_
  refine Frame.upd_power ?_ rfl
  exact Frame.refl _ _

theorem execWarnWindowEnd_frame (s : State) :
    FrameN [.sys, .mgmt, .folio, .ledger, .reserve, .ports, .groups, .easel, .palette, .directory, .queues, .barrow, .perf, .stats, .out] s (execWarnWindowEnd s) := by
  unfold execWarnWindowEnd
  refine FrameN.ite ?_ ?_
  · dsimp only
    refine FrameN.next ?_
    refine Frame.step (dropRounds_frame _ _) ?_ rfl
    refine Frame.foldl ?_ ?_
    · intro _ _
      refine Frame.step (modPort_frame _ _ _) ?_ rfl
      exact Frame.refl _ _
    · refine Frame.upd_sys ?_ rfl
      exact Frame.refl _ _
  · refine FrameN.next ?_
    exact Frame.refl _ _

theorem execWrapStickyClear_frame (via : Via) (block : Fin 13) (mask : Byte) (s : State) :
    FrameN [.mgmt, .folio, .ledger, .perf, .stats, .out] s (execWrapStickyClear via block mask s) := by
  unfold execWrapStickyClear
  refine FrameN.next ?_
  refine served_frame ?_ ?_ rfl
  · intro _ _
    refine FrameE.ok ?_
    refine Frame.step (wrapStickyClear_frame _ _ _) ?_ rfl
    exact Frame.refl _ _
  · exact Frame.refl _ _

theorem execWriteCrcErrorEvent_frame (channel : Channel) (bank : Byte) (s : State) :
    FrameN [.mgmt, .folio, .ledger, .reserve, .channels, .groups, .easel, .palette, .queues, .perf, .path, .stats, .out] s (execWriteCrcErrorEvent channel bank s) := by
  unfold execWriteCrcErrorEvent
  dsimp only
  refine FrameN.ite ?_ ?_
  · refine FrameN.next ?_
    exact Frame.refl _ _
  · refine FrameN.next ?_
    refine Frame.step (reissueProgram_frame _ _ _) ?_ rfl
    refine Frame.step (channelError_frame _ _) ?_ rfl
    refine Frame.step (bump_frame _ _ _ _) ?_ rfl
    exact Frame.refl _ _

theorem execZqInterval_frame (s : State) :
    FrameN [.channels] s (execZqInterval s) := by
  unfold execZqInterval
  refine FrameN.next ?_
  refine Frame.foldl ?_ ?_
  · intro _ _
    refine Frame.ite ?_ ?_
    · refine Frame.step (modChannel_frame _ _ _) ?_ rfl
      exact Frame.refl _ _
    · exact Frame.refl _ _
  · exact Frame.refl _ _

end Sys2Proof.Machine
end

