-- ==== Sys2Proof/Laws/Tab.lean ====
section
/-! SUPPORT. Laws/Tab.lean: what a sparse table holds after a write, in any table, and that every operation keeps the canonical
form. -/

namespace Sys2Proof.Machine

theorem tabGet_put_self {α : Type} {d : Nat → α} (t : Tab α) (k : Nat) (v : α) : tabGet d (tabPut t k v) k = v := by
  induction t with
  | nil => simp [tabPut, tabGet]
  | cons e t ih =>
    obtain ⟨j, w⟩ := e
    unfold tabPut
    split
    · simp [tabGet]
    · split
      · simp [tabGet]
      · rename_i hk _
        simp [tabGet, hk, ih]

theorem tabGet_put_of_ne {α : Type} {d : Nat → α} (t : Tab α) {k i : Nat} (v : α) (h : i ≠ k) :
    tabGet d (tabPut t k v) i = tabGet d t i := by
  induction t with
  | nil => simp [tabPut, tabGet, h]
  | cons e t ih =>
    obtain ⟨j, w⟩ := e
    unfold tabPut
    split
    · rename_i hk
      subst hk
      simp [tabGet, h]
    · split
      · simp [tabGet, h]
      · simp only [tabGet, ih]

theorem tabGet_del_self {α : Type} {d : Nat → α} (t : Tab α) (k : Nat) : tabGet d (tabDel t k) k = d k := by
  induction t with
  | nil => rfl
  | cons e t ih =>
    obtain ⟨j, w⟩ := e
    unfold tabDel
    split
    · exact ih
    · rename_i hk
      simp [tabGet, hk, ih]

theorem tabGet_del_of_ne {α : Type} {d : Nat → α} (t : Tab α) {k i : Nat} (h : i ≠ k) :
    tabGet d (tabDel t k) i = tabGet d t i := by
  induction t with
  | nil => rfl
  | cons e t ih =>
    obtain ⟨j, w⟩ := e
    unfold tabDel
    split
    · rename_i hk
      subst hk
      simp [tabGet, h, ih]
    · simp only [tabGet, ih]

variable {α : Type} [DecidableEq α] {d : Nat → α}

/-- A read after a write to the same key gives the value written. -/
@[simp] theorem tabGet_set_self (t : Tab α) (k : Nat) (v : α) : tabGet d (tabSet d t k v) k = v := by
  unfold tabSet
  split
  · rename_i hv
    rw [hv]
    exact tabGet_del_self t k
  · exact tabGet_put_self t k v

/-- A write leaves every other key as it was. -/
theorem tabGet_set_of_ne (t : Tab α) {k i : Nat} (v : α) (h : i ≠ k) : tabGet d (tabSet d t k v) i = tabGet d t i := by
  unfold tabSet
  split
  · exact tabGet_del_of_ne t h
  · exact tabGet_put_of_ne t v h

/-- What a table holds after a write. -/
theorem tabGet_set (t : Tab α) (k i : Nat) (v : α) :
    tabGet d (tabSet d t k v) i = if i = k then v else tabGet d t i := by
  split
  · rename_i h
    rw [h, tabGet_set_self]
  · exact tabGet_set_of_ne t v (by assumption)

/-- What a table holds after a change of one entry. -/
theorem tabGet_mod (t : Tab α) (k i : Nat) (f : α → α) :
    tabGet d (tabMod d t k f) i = if i = k then f (tabGet d t k) else tabGet d t i :=
  tabGet_set t k i _

@[simp] theorem tabGet_mod_self (t : Tab α) (k : Nat) (f : α → α) :
    tabGet d (tabMod d t k f) k = f (tabGet d t k) :=
  tabGet_set_self t k _

/-- What a table holds after a change of a run of entries. -/
theorem tabGet_modRange (f : Nat → α → α) (t : Tab α) (lo n i : Nat) :
    tabGet d (tabModRange d f t lo n) i = if lo ≤ i ∧ i < lo + n then f i (tabGet d t i) else tabGet d t i := by
  induction n generalizing t lo with
  | zero => rw [if_neg (by omega)]; rfl
  | succ n ih =>
    unfold tabModRange
    rw [ih, tabGet_mod]
    by_cases h : i = lo
    · subst h
      rw [if_neg (by omega), if_pos rfl, if_pos (by omega)]
    · rw [if_neg h]
      by_cases h2 : lo ≤ i ∧ i < lo + (n + 1)
      · rw [if_pos (by omega), if_pos h2]
      · rw [if_neg (by omega), if_neg h2]

theorem tabWfAbove_mono {t : Tab α} {a b : Nat} (h : tabWfAbove d (some b) t = true) (hab : a ≤ b) :
    tabWfAbove d (some a) t = true := by
  cases t with
  | nil => rfl
  | cons e t =>
    obtain ⟨k, v⟩ := e
    simp only [tabWfAbove, Bool.and_eq_true, decide_eq_true_eq] at h ⊢
    exact ⟨⟨by omega, h.1.2⟩, h.2⟩

theorem tabWfAbove_put {t : Tab α} {lo : Option Nat} {k : Nat} {v : α} (h : tabWfAbove d lo t = true)
    (hv : v ≠ d k) (hlo : ∀ l, lo = some l → l < k) : tabWfAbove d lo (tabPut t k v) = true := by
  induction t generalizing lo with
  | nil => cases lo <;> simp_all [tabPut, tabWfAbove]
  | cons e t ih =>
    obtain ⟨j, w⟩ := e
    simp only [tabWfAbove, Bool.and_eq_true, decide_eq_true_eq] at h
    unfold tabPut
    split
    · rename_i hk
      subst hk
      cases lo <;> simp_all [tabWfAbove]
    · split
      · cases lo <;> simp_all [tabWfAbove]
      · have hjk : j < k := by omega
        have := ih h.2 (by simpa using hjk)
        cases lo <;> simp_all [tabWfAbove]

theorem tabWfAbove_del {t : Tab α} {lo : Option Nat} {k : Nat} (h : tabWfAbove d lo t = true) :
    tabWfAbove d lo (tabDel t k) = true := by
  induction t generalizing lo with
  | nil => rfl
  | cons e t ih =>
    obtain ⟨j, w⟩ := e
    simp only [tabWfAbove, Bool.and_eq_true, decide_eq_true_eq] at h
    unfold tabDel
    split
    · cases lo with
      | none => exact ih (by cases t with
        | nil => rfl
        | cons e t => simp_all [tabWfAbove])
      | some l =>
        have := h.1.1
        simp only [decide_eq_true_eq] at this
        exact ih (tabWfAbove_mono h.2 (by omega))
    · have := ih h.2
      simp_all [tabWfAbove]

/-- A write keeps the canonical form. -/
theorem tabWf_set {t : Tab α} (h : tabWf d t = true) (k : Nat) (v : α) : tabWf d (tabSet d t k v) = true := by
  unfold tabWf tabSet at *
  split
  · exact tabWfAbove_del h
  · exact tabWfAbove_put h (by assumption) (by simp)

/-- A change of one entry keeps the canonical form. -/
theorem tabWf_mod {t : Tab α} (h : tabWf d t = true) (k : Nat) (f : α → α) : tabWf d (tabMod d t k f) = true :=
  tabWf_set h k _

/-- A change of a run of entries keeps the canonical form. -/
theorem tabWf_modRange {t : Tab α} (h : tabWf d t = true) (f : Nat → α → α) (lo n : Nat) :
    tabWf d (tabModRange d f t lo n) = true := by
  induction n generalizing t lo with
  | zero => exact h
  | succ n ih => exact ih (tabWf_mod h lo _) (lo + 1)

/-- A write of a run of values keeps the canonical form. -/
theorem tabWf_setList {t : Tab α} (h : tabWf d t = true) (lo : Nat) (vs : List α) :
    tabWf d (tabSetList d t lo vs) = true := by
  induction vs generalizing t lo with
  | nil => exact h
  | cons v vs ih => exact ih (tabWf_set h lo v) (lo + 1)

end Sys2Proof.Machine
end

