-- ==== Sys2Proof/Laws/State.lean ====
section
/-! SUPPORT. Laws/State.lean: what each update of the state leaves as it was, one lemma per unit of the state, and what it
writes, read back through the accessor of its unit. -/

namespace Sys2Proof.Machine

@[simp] theorem emit_sys (s : State) (o : Output) : (emit s o).sys = s.sys := rfl
@[simp] theorem emit_mgmt (s : State) (o : Output) : (emit s o).mgmt = s.mgmt := rfl
@[simp] theorem emit_folio (s : State) (o : Output) : (emit s o).folio = s.folio := rfl
@[simp] theorem emit_ledger (s : State) (o : Output) : (emit s o).ledger = s.ledger := rfl
@[simp] theorem emit_power (s : State) (o : Output) : (emit s o).power = s.power := rfl
@[simp] theorem emit_reserve (s : State) (o : Output) : (emit s o).reserve = s.reserve := rfl
@[simp] theorem emit_thermal (s : State) (o : Output) : (emit s o).thermal = s.thermal := rfl
@[simp] theorem emit_channels (s : State) (o : Output) : (emit s o).channels = s.channels := rfl
@[simp] theorem emit_ports (s : State) (o : Output) : (emit s o).ports = s.ports := rfl
@[simp] theorem emit_groups (s : State) (o : Output) : (emit s o).groups = s.groups := rfl
@[simp] theorem emit_easel (s : State) (o : Output) : (emit s o).easel = s.easel := rfl
@[simp] theorem emit_palette (s : State) (o : Output) : (emit s o).palette = s.palette := rfl
@[simp] theorem emit_crypt (s : State) (o : Output) : (emit s o).crypt = s.crypt := rfl
@[simp] theorem emit_directory (s : State) (o : Output) : (emit s o).directory = s.directory := rfl
@[simp] theorem emit_queues (s : State) (o : Output) : (emit s o).queues = s.queues := rfl
@[simp] theorem emit_barrow (s : State) (o : Output) : (emit s o).barrow = s.barrow := rfl
@[simp] theorem emit_perf (s : State) (o : Output) : (emit s o).perf = s.perf := rfl
@[simp] theorem emit_path (s : State) (o : Output) : (emit s o).path = s.path := rfl
@[simp] theorem emit_settings (s : State) (o : Output) : (emit s o).settings = s.settings := rfl
@[simp] theorem emit_stats (s : State) (o : Output) : (emit s o).stats = s.stats := rfl
@[simp] theorem emit_draws (s : State) (o : Output) : (emit s o).draws = s.draws := rfl
@[simp] theorem emit_pending (s : State) (o : Output) : (emit s o).pending = s.pending := rfl

@[simp] theorem afterDraw_sys (s : State) : (afterDraw s).sys = s.sys := rfl
@[simp] theorem afterDraw_mgmt (s : State) : (afterDraw s).mgmt = s.mgmt := rfl
@[simp] theorem afterDraw_folio (s : State) : (afterDraw s).folio = s.folio := rfl
@[simp] theorem afterDraw_ledger (s : State) : (afterDraw s).ledger = s.ledger := rfl
@[simp] theorem afterDraw_power (s : State) : (afterDraw s).power = s.power := rfl
@[simp] theorem afterDraw_reserve (s : State) : (afterDraw s).reserve = s.reserve := rfl
@[simp] theorem afterDraw_thermal (s : State) : (afterDraw s).thermal = s.thermal := rfl
@[simp] theorem afterDraw_channels (s : State) : (afterDraw s).channels = s.channels := rfl
@[simp] theorem afterDraw_ports (s : State) : (afterDraw s).ports = s.ports := rfl
@[simp] theorem afterDraw_groups (s : State) : (afterDraw s).groups = s.groups := rfl
@[simp] theorem afterDraw_easel (s : State) : (afterDraw s).easel = s.easel := rfl
@[simp] theorem afterDraw_palette (s : State) : (afterDraw s).palette = s.palette := rfl
@[simp] theorem afterDraw_crypt (s : State) : (afterDraw s).crypt = s.crypt := rfl
@[simp] theorem afterDraw_directory (s : State) : (afterDraw s).directory = s.directory := rfl
@[simp] theorem afterDraw_queues (s : State) : (afterDraw s).queues = s.queues := rfl
@[simp] theorem afterDraw_barrow (s : State) : (afterDraw s).barrow = s.barrow := rfl
@[simp] theorem afterDraw_perf (s : State) : (afterDraw s).perf = s.perf := rfl
@[simp] theorem afterDraw_path (s : State) : (afterDraw s).path = s.path := rfl
@[simp] theorem afterDraw_settings (s : State) : (afterDraw s).settings = s.settings := rfl
@[simp] theorem afterDraw_stats (s : State) : (afterDraw s).stats = s.stats := rfl
@[simp] theorem afterDraw_out (s : State) : (afterDraw s).out = s.out := rfl
@[simp] theorem afterDraw_pending (s : State) : (afterDraw s).pending = s.pending := rfl

@[simp] theorem idle_mgmt (s : State) : (idle s).mgmt = s.mgmt := rfl
@[simp] theorem idle_folio (s : State) : (idle s).folio = s.folio := rfl
@[simp] theorem idle_ledger (s : State) : (idle s).ledger = s.ledger := rfl
@[simp] theorem idle_power (s : State) : (idle s).power = s.power := rfl
@[simp] theorem idle_reserve (s : State) : (idle s).reserve = s.reserve := rfl
@[simp] theorem idle_thermal (s : State) : (idle s).thermal = s.thermal := rfl
@[simp] theorem idle_channels (s : State) : (idle s).channels = s.channels := rfl
@[simp] theorem idle_ports (s : State) : (idle s).ports = s.ports := rfl
@[simp] theorem idle_groups (s : State) : (idle s).groups = s.groups := rfl
@[simp] theorem idle_easel (s : State) : (idle s).easel = s.easel := rfl
@[simp] theorem idle_palette (s : State) : (idle s).palette = s.palette := rfl
@[simp] theorem idle_crypt (s : State) : (idle s).crypt = s.crypt := rfl
@[simp] theorem idle_directory (s : State) : (idle s).directory = s.directory := rfl
@[simp] theorem idle_queues (s : State) : (idle s).queues = s.queues := rfl
@[simp] theorem idle_barrow (s : State) : (idle s).barrow = s.barrow := rfl
@[simp] theorem idle_perf (s : State) : (idle s).perf = s.perf := rfl
@[simp] theorem idle_path (s : State) : (idle s).path = s.path := rfl
@[simp] theorem idle_settings (s : State) : (idle s).settings = s.settings := rfl
@[simp] theorem idle_stats (s : State) : (idle s).stats = s.stats := rfl
@[simp] theorem idle_draws (s : State) : (idle s).draws = s.draws := rfl
@[simp] theorem idle_out (s : State) : (idle s).out = s.out := rfl
@[simp] theorem idle_pending (s : State) : (idle s).pending = s.pending := rfl

@[simp] theorem setSetting_sys (s : State) (idx sub : Nat) (v : Int) : (setSetting s idx sub v).sys = s.sys := rfl
@[simp] theorem setSetting_mgmt (s : State) (idx sub : Nat) (v : Int) : (setSetting s idx sub v).mgmt = s.mgmt := rfl
@[simp] theorem setSetting_folio (s : State) (idx sub : Nat) (v : Int) : (setSetting s idx sub v).folio = s.folio := rfl
@[simp] theorem setSetting_ledger (s : State) (idx sub : Nat) (v : Int) : (setSetting s idx sub v).ledger = s.ledger := rfl
@[simp] theorem setSetting_power (s : State) (idx sub : Nat) (v : Int) : (setSetting s idx sub v).power = s.power := rfl
@[simp] theorem setSetting_reserve (s : State) (idx sub : Nat) (v : Int) : (setSetting s idx sub v).reserve = s.reserve := rfl
@[simp] theorem setSetting_thermal (s : State) (idx sub : Nat) (v : Int) : (setSetting s idx sub v).thermal = s.thermal := rfl
@[simp] theorem setSetting_channels (s : State) (idx sub : Nat) (v : Int) : (setSetting s idx sub v).channels = s.channels := rfl
@[simp] theorem setSetting_ports (s : State) (idx sub : Nat) (v : Int) : (setSetting s idx sub v).ports = s.ports := rfl
@[simp] theorem setSetting_groups (s : State) (idx sub : Nat) (v : Int) : (setSetting s idx sub v).groups = s.groups := rfl
@[simp] theorem setSetting_easel (s : State) (idx sub : Nat) (v : Int) : (setSetting s idx sub v).easel = s.easel := rfl
@[simp] theorem setSetting_palette (s : State) (idx sub : Nat) (v : Int) : (setSetting s idx sub v).palette = s.palette := rfl
@[simp] theorem setSetting_crypt (s : State) (idx sub : Nat) (v : Int) : (setSetting s idx sub v).crypt = s.crypt := rfl
@[simp] theorem setSetting_directory (s : State) (idx sub : Nat) (v : Int) : (setSetting s idx sub v).directory = s.directory := rfl
@[simp] theorem setSetting_queues (s : State) (idx sub : Nat) (v : Int) : (setSetting s idx sub v).queues = s.queues := rfl
@[simp] theorem setSetting_barrow (s : State) (idx sub : Nat) (v : Int) : (setSetting s idx sub v).barrow = s.barrow := rfl
@[simp] theorem setSetting_perf (s : State) (idx sub : Nat) (v : Int) : (setSetting s idx sub v).perf = s.perf := rfl
@[simp] theorem setSetting_path (s : State) (idx sub : Nat) (v : Int) : (setSetting s idx sub v).path = s.path := rfl
@[simp] theorem setSetting_stats (s : State) (idx sub : Nat) (v : Int) : (setSetting s idx sub v).stats = s.stats := rfl
@[simp] theorem setSetting_draws (s : State) (idx sub : Nat) (v : Int) : (setSetting s idx sub v).draws = s.draws := rfl
@[simp] theorem setSetting_out (s : State) (idx sub : Nat) (v : Int) : (setSetting s idx sub v).out = s.out := rfl
@[simp] theorem setSetting_pending (s : State) (idx sub : Nat) (v : Int) : (setSetting s idx sub v).pending = s.pending := rfl

@[simp] theorem setStat_sys (s : State) (idx sub : Nat) (v : Int) : (setStat s idx sub v).sys = s.sys := rfl
@[simp] theorem setStat_mgmt (s : State) (idx sub : Nat) (v : Int) : (setStat s idx sub v).mgmt = s.mgmt := rfl
@[simp] theorem setStat_folio (s : State) (idx sub : Nat) (v : Int) : (setStat s idx sub v).folio = s.folio := rfl
@[simp] theorem setStat_ledger (s : State) (idx sub : Nat) (v : Int) : (setStat s idx sub v).ledger = s.ledger := rfl
@[simp] theorem setStat_power (s : State) (idx sub : Nat) (v : Int) : (setStat s idx sub v).power = s.power := rfl
@[simp] theorem setStat_reserve (s : State) (idx sub : Nat) (v : Int) : (setStat s idx sub v).reserve = s.reserve := rfl
@[simp] theorem setStat_thermal (s : State) (idx sub : Nat) (v : Int) : (setStat s idx sub v).thermal = s.thermal := rfl
@[simp] theorem setStat_channels (s : State) (idx sub : Nat) (v : Int) : (setStat s idx sub v).channels = s.channels := rfl
@[simp] theorem setStat_ports (s : State) (idx sub : Nat) (v : Int) : (setStat s idx sub v).ports = s.ports := rfl
@[simp] theorem setStat_groups (s : State) (idx sub : Nat) (v : Int) : (setStat s idx sub v).groups = s.groups := rfl
@[simp] theorem setStat_easel (s : State) (idx sub : Nat) (v : Int) : (setStat s idx sub v).easel = s.easel := rfl
@[simp] theorem setStat_palette (s : State) (idx sub : Nat) (v : Int) : (setStat s idx sub v).palette = s.palette := rfl
@[simp] theorem setStat_crypt (s : State) (idx sub : Nat) (v : Int) : (setStat s idx sub v).crypt = s.crypt := rfl
@[simp] theorem setStat_directory (s : State) (idx sub : Nat) (v : Int) : (setStat s idx sub v).directory = s.directory := rfl
@[simp] theorem setStat_queues (s : State) (idx sub : Nat) (v : Int) : (setStat s idx sub v).queues = s.queues := rfl
@[simp] theorem setStat_barrow (s : State) (idx sub : Nat) (v : Int) : (setStat s idx sub v).barrow = s.barrow := rfl
@[simp] theorem setStat_perf (s : State) (idx sub : Nat) (v : Int) : (setStat s idx sub v).perf = s.perf := rfl
@[simp] theorem setStat_path (s : State) (idx sub : Nat) (v : Int) : (setStat s idx sub v).path = s.path := rfl
@[simp] theorem setStat_settings (s : State) (idx sub : Nat) (v : Int) : (setStat s idx sub v).settings = s.settings := rfl
@[simp] theorem setStat_draws (s : State) (idx sub : Nat) (v : Int) : (setStat s idx sub v).draws = s.draws := rfl
@[simp] theorem setStat_out (s : State) (idx sub : Nat) (v : Int) : (setStat s idx sub v).out = s.out := rfl
@[simp] theorem setStat_pending (s : State) (idx sub : Nat) (v : Int) : (setStat s idx sub v).pending = s.pending := rfl

@[simp] theorem bump_sys (s : State) (idx sub n : Nat) : (bump s idx sub n).sys = s.sys := rfl
@[simp] theorem bump_mgmt (s : State) (idx sub n : Nat) : (bump s idx sub n).mgmt = s.mgmt := rfl
@[simp] theorem bump_folio (s : State) (idx sub n : Nat) : (bump s idx sub n).folio = s.folio := rfl
@[simp] theorem bump_ledger (s : State) (idx sub n : Nat) : (bump s idx sub n).ledger = s.ledger := rfl
@[simp] theorem bump_power (s : State) (idx sub n : Nat) : (bump s idx sub n).power = s.power := rfl
@[simp] theorem bump_reserve (s : State) (idx sub n : Nat) : (bump s idx sub n).reserve = s.reserve := rfl
@[simp] theorem bump_thermal (s : State) (idx sub n : Nat) : (bump s idx sub n).thermal = s.thermal := rfl
@[simp] theorem bump_channels (s : State) (idx sub n : Nat) : (bump s idx sub n).channels = s.channels := rfl
@[simp] theorem bump_ports (s : State) (idx sub n : Nat) : (bump s idx sub n).ports = s.ports := rfl
@[simp] theorem bump_groups (s : State) (idx sub n : Nat) : (bump s idx sub n).groups = s.groups := rfl
@[simp] theorem bump_easel (s : State) (idx sub n : Nat) : (bump s idx sub n).easel = s.easel := rfl
@[simp] theorem bump_palette (s : State) (idx sub n : Nat) : (bump s idx sub n).palette = s.palette := rfl
@[simp] theorem bump_crypt (s : State) (idx sub n : Nat) : (bump s idx sub n).crypt = s.crypt := rfl
@[simp] theorem bump_directory (s : State) (idx sub n : Nat) : (bump s idx sub n).directory = s.directory := rfl
@[simp] theorem bump_queues (s : State) (idx sub n : Nat) : (bump s idx sub n).queues = s.queues := rfl
@[simp] theorem bump_barrow (s : State) (idx sub n : Nat) : (bump s idx sub n).barrow = s.barrow := rfl
@[simp] theorem bump_perf (s : State) (idx sub n : Nat) : (bump s idx sub n).perf = s.perf := rfl
@[simp] theorem bump_path (s : State) (idx sub n : Nat) : (bump s idx sub n).path = s.path := rfl
@[simp] theorem bump_settings (s : State) (idx sub n : Nat) : (bump s idx sub n).settings = s.settings := rfl
@[simp] theorem bump_draws (s : State) (idx sub n : Nat) : (bump s idx sub n).draws = s.draws := rfl
@[simp] theorem bump_out (s : State) (idx sub n : Nat) : (bump s idx sub n).out = s.out := rfl
@[simp] theorem bump_pending (s : State) (idx sub n : Nat) : (bump s idx sub n).pending = s.pending := rfl

@[simp] theorem clearStats_sys (s : State) (idx lo n : Nat) : (clearStats s idx lo n).sys = s.sys := rfl
@[simp] theorem clearStats_mgmt (s : State) (idx lo n : Nat) : (clearStats s idx lo n).mgmt = s.mgmt := rfl
@[simp] theorem clearStats_folio (s : State) (idx lo n : Nat) : (clearStats s idx lo n).folio = s.folio := rfl
@[simp] theorem clearStats_ledger (s : State) (idx lo n : Nat) : (clearStats s idx lo n).ledger = s.ledger := rfl
@[simp] theorem clearStats_power (s : State) (idx lo n : Nat) : (clearStats s idx lo n).power = s.power := rfl
@[simp] theorem clearStats_reserve (s : State) (idx lo n : Nat) : (clearStats s idx lo n).reserve = s.reserve := rfl
@[simp] theorem clearStats_thermal (s : State) (idx lo n : Nat) : (clearStats s idx lo n).thermal = s.thermal := rfl
@[simp] theorem clearStats_channels (s : State) (idx lo n : Nat) : (clearStats s idx lo n).channels = s.channels := rfl
@[simp] theorem clearStats_ports (s : State) (idx lo n : Nat) : (clearStats s idx lo n).ports = s.ports := rfl
@[simp] theorem clearStats_groups (s : State) (idx lo n : Nat) : (clearStats s idx lo n).groups = s.groups := rfl
@[simp] theorem clearStats_easel (s : State) (idx lo n : Nat) : (clearStats s idx lo n).easel = s.easel := rfl
@[simp] theorem clearStats_palette (s : State) (idx lo n : Nat) : (clearStats s idx lo n).palette = s.palette := rfl
@[simp] theorem clearStats_crypt (s : State) (idx lo n : Nat) : (clearStats s idx lo n).crypt = s.crypt := rfl
@[simp] theorem clearStats_directory (s : State) (idx lo n : Nat) : (clearStats s idx lo n).directory = s.directory := rfl
@[simp] theorem clearStats_queues (s : State) (idx lo n : Nat) : (clearStats s idx lo n).queues = s.queues := rfl
@[simp] theorem clearStats_barrow (s : State) (idx lo n : Nat) : (clearStats s idx lo n).barrow = s.barrow := rfl
@[simp] theorem clearStats_perf (s : State) (idx lo n : Nat) : (clearStats s idx lo n).perf = s.perf := rfl
@[simp] theorem clearStats_path (s : State) (idx lo n : Nat) : (clearStats s idx lo n).path = s.path := rfl
@[simp] theorem clearStats_settings (s : State) (idx lo n : Nat) : (clearStats s idx lo n).settings = s.settings := rfl
@[simp] theorem clearStats_draws (s : State) (idx lo n : Nat) : (clearStats s idx lo n).draws = s.draws := rfl
@[simp] theorem clearStats_out (s : State) (idx lo n : Nat) : (clearStats s idx lo n).out = s.out := rfl
@[simp] theorem clearStats_pending (s : State) (idx lo n : Nat) : (clearStats s idx lo n).pending = s.pending := rfl

@[simp] theorem tallyAdd_sys (s : State) (i : Nat) : (tallyAdd s i).sys = s.sys := rfl
@[simp] theorem tallyAdd_mgmt (s : State) (i : Nat) : (tallyAdd s i).mgmt = s.mgmt := rfl
@[simp] theorem tallyAdd_ledger (s : State) (i : Nat) : (tallyAdd s i).ledger = s.ledger := rfl
@[simp] theorem tallyAdd_power (s : State) (i : Nat) : (tallyAdd s i).power = s.power := rfl
@[simp] theorem tallyAdd_reserve (s : State) (i : Nat) : (tallyAdd s i).reserve = s.reserve := rfl
@[simp] theorem tallyAdd_thermal (s : State) (i : Nat) : (tallyAdd s i).thermal = s.thermal := rfl
@[simp] theorem tallyAdd_channels (s : State) (i : Nat) : (tallyAdd s i).channels = s.channels := rfl
@[simp] theorem tallyAdd_ports (s : State) (i : Nat) : (tallyAdd s i).ports = s.ports := rfl
@[simp] theorem tallyAdd_groups (s : State) (i : Nat) : (tallyAdd s i).groups = s.groups := rfl
@[simp] theorem tallyAdd_easel (s : State) (i : Nat) : (tallyAdd s i).easel = s.easel := rfl
@[simp] theorem tallyAdd_palette (s : State) (i : Nat) : (tallyAdd s i).palette = s.palette := rfl
@[simp] theorem tallyAdd_crypt (s : State) (i : Nat) : (tallyAdd s i).crypt = s.crypt := rfl
@[simp] theorem tallyAdd_directory (s : State) (i : Nat) : (tallyAdd s i).directory = s.directory := rfl
@[simp] theorem tallyAdd_queues (s : State) (i : Nat) : (tallyAdd s i).queues = s.queues := rfl
@[simp] theorem tallyAdd_barrow (s : State) (i : Nat) : (tallyAdd s i).barrow = s.barrow := rfl
@[simp] theorem tallyAdd_perf (s : State) (i : Nat) : (tallyAdd s i).perf = s.perf := rfl
@[simp] theorem tallyAdd_path (s : State) (i : Nat) : (tallyAdd s i).path = s.path := rfl
@[simp] theorem tallyAdd_settings (s : State) (i : Nat) : (tallyAdd s i).settings = s.settings := rfl
@[simp] theorem tallyAdd_stats (s : State) (i : Nat) : (tallyAdd s i).stats = s.stats := rfl
@[simp] theorem tallyAdd_draws (s : State) (i : Nat) : (tallyAdd s i).draws = s.draws := rfl
@[simp] theorem tallyAdd_out (s : State) (i : Nat) : (tallyAdd s i).out = s.out := rfl
@[simp] theorem tallyAdd_pending (s : State) (i : Nat) : (tallyAdd s i).pending = s.pending := rfl

@[simp] theorem enterState_mgmt (s : State) (d : DeviceState) : (enterState s d).mgmt = s.mgmt := rfl
@[simp] theorem enterState_folio (s : State) (d : DeviceState) : (enterState s d).folio = s.folio := rfl
@[simp] theorem enterState_ledger (s : State) (d : DeviceState) : (enterState s d).ledger = s.ledger := rfl
@[simp] theorem enterState_power (s : State) (d : DeviceState) : (enterState s d).power = s.power := rfl
@[simp] theorem enterState_reserve (s : State) (d : DeviceState) : (enterState s d).reserve = s.reserve := rfl
@[simp] theorem enterState_thermal (s : State) (d : DeviceState) : (enterState s d).thermal = s.thermal := rfl
@[simp] theorem enterState_channels (s : State) (d : DeviceState) : (enterState s d).channels = s.channels := rfl
@[simp] theorem enterState_ports (s : State) (d : DeviceState) : (enterState s d).ports = s.ports := rfl
@[simp] theorem enterState_groups (s : State) (d : DeviceState) : (enterState s d).groups = s.groups := rfl
@[simp] theorem enterState_easel (s : State) (d : DeviceState) : (enterState s d).easel = s.easel := rfl
@[simp] theorem enterState_palette (s : State) (d : DeviceState) : (enterState s d).palette = s.palette := rfl
@[simp] theorem enterState_crypt (s : State) (d : DeviceState) : (enterState s d).crypt = s.crypt := rfl
@[simp] theorem enterState_directory (s : State) (d : DeviceState) : (enterState s d).directory = s.directory := rfl
@[simp] theorem enterState_queues (s : State) (d : DeviceState) : (enterState s d).queues = s.queues := rfl
@[simp] theorem enterState_barrow (s : State) (d : DeviceState) : (enterState s d).barrow = s.barrow := rfl
@[simp] theorem enterState_perf (s : State) (d : DeviceState) : (enterState s d).perf = s.perf := rfl
@[simp] theorem enterState_path (s : State) (d : DeviceState) : (enterState s d).path = s.path := rfl
@[simp] theorem enterState_settings (s : State) (d : DeviceState) : (enterState s d).settings = s.settings := rfl
@[simp] theorem enterState_stats (s : State) (d : DeviceState) : (enterState s d).stats = s.stats := rfl
@[simp] theorem enterState_draws (s : State) (d : DeviceState) : (enterState s d).draws = s.draws := rfl
@[simp] theorem enterState_out (s : State) (d : DeviceState) : (enterState s d).out = s.out := rfl
@[simp] theorem enterState_pending (s : State) (d : DeviceState) : (enterState s d).pending = s.pending := rfl

@[simp] theorem modRail_sys (s : State) (r : Nat) (f : RailRec → RailRec) : (modRail s r f).sys = s.sys := rfl
@[simp] theorem modRail_mgmt (s : State) (r : Nat) (f : RailRec → RailRec) : (modRail s r f).mgmt = s.mgmt := rfl
@[simp] theorem modRail_folio (s : State) (r : Nat) (f : RailRec → RailRec) : (modRail s r f).folio = s.folio := rfl
@[simp] theorem modRail_ledger (s : State) (r : Nat) (f : RailRec → RailRec) : (modRail s r f).ledger = s.ledger := rfl
@[simp] theorem modRail_reserve (s : State) (r : Nat) (f : RailRec → RailRec) : (modRail s r f).reserve = s.reserve := rfl
@[simp] theorem modRail_thermal (s : State) (r : Nat) (f : RailRec → RailRec) : (modRail s r f).thermal = s.thermal := rfl
@[simp] theorem modRail_channels (s : State) (r : Nat) (f : RailRec → RailRec) : (modRail s r f).channels = s.channels := rfl
@[simp] theorem modRail_ports (s : State) (r : Nat) (f : RailRec → RailRec) : (modRail s r f).ports = s.ports := rfl
@[simp] theorem modRail_groups (s : State) (r : Nat) (f : RailRec → RailRec) : (modRail s r f).groups = s.groups := rfl
@[simp] theorem modRail_easel (s : State) (r : Nat) (f : RailRec → RailRec) : (modRail s r f).easel = s.easel := rfl
@[simp] theorem modRail_palette (s : State) (r : Nat) (f : RailRec → RailRec) : (modRail s r f).palette = s.palette := rfl
@[simp] theorem modRail_crypt (s : State) (r : Nat) (f : RailRec → RailRec) : (modRail s r f).crypt = s.crypt := rfl
@[simp] theorem modRail_directory (s : State) (r : Nat) (f : RailRec → RailRec) : (modRail s r f).directory = s.directory := rfl
@[simp] theorem modRail_queues (s : State) (r : Nat) (f : RailRec → RailRec) : (modRail s r f).queues = s.queues := rfl
@[simp] theorem modRail_barrow (s : State) (r : Nat) (f : RailRec → RailRec) : (modRail s r f).barrow = s.barrow := rfl
@[simp] theorem modRail_perf (s : State) (r : Nat) (f : RailRec → RailRec) : (modRail s r f).perf = s.perf := rfl
@[simp] theorem modRail_path (s : State) (r : Nat) (f : RailRec → RailRec) : (modRail s r f).path = s.path := rfl
@[simp] theorem modRail_settings (s : State) (r : Nat) (f : RailRec → RailRec) : (modRail s r f).settings = s.settings := rfl
@[simp] theorem modRail_stats (s : State) (r : Nat) (f : RailRec → RailRec) : (modRail s r f).stats = s.stats := rfl
@[simp] theorem modRail_draws (s : State) (r : Nat) (f : RailRec → RailRec) : (modRail s r f).draws = s.draws := rfl
@[simp] theorem modRail_out (s : State) (r : Nat) (f : RailRec → RailRec) : (modRail s r f).out = s.out := rfl
@[simp] theorem modRail_pending (s : State) (r : Nat) (f : RailRec → RailRec) : (modRail s r f).pending = s.pending := rfl

@[simp] theorem modDomain_sys (s : State) (k : Nat) (f : DomainRec → DomainRec) : (modDomain s k f).sys = s.sys := rfl
@[simp] theorem modDomain_mgmt (s : State) (k : Nat) (f : DomainRec → DomainRec) : (modDomain s k f).mgmt = s.mgmt := rfl
@[simp] theorem modDomain_folio (s : State) (k : Nat) (f : DomainRec → DomainRec) : (modDomain s k f).folio = s.folio := rfl
@[simp] theorem modDomain_ledger (s : State) (k : Nat) (f : DomainRec → DomainRec) : (modDomain s k f).ledger = s.ledger := rfl
@[simp] theorem modDomain_reserve (s : State) (k : Nat) (f : DomainRec → DomainRec) : (modDomain s k f).reserve = s.reserve := rfl
@[simp] theorem modDomain_thermal (s : State) (k : Nat) (f : DomainRec → DomainRec) : (modDomain s k f).thermal = s.thermal := rfl
@[simp] theorem modDomain_channels (s : State) (k : Nat) (f : DomainRec → DomainRec) : (modDomain s k f).channels = s.channels := rfl
@[simp] theorem modDomain_ports (s : State) (k : Nat) (f : DomainRec → DomainRec) : (modDomain s k f).ports = s.ports := rfl
@[simp] theorem modDomain_groups (s : State) (k : Nat) (f : DomainRec → DomainRec) : (modDomain s k f).groups = s.groups := rfl
@[simp] theorem modDomain_easel (s : State) (k : Nat) (f : DomainRec → DomainRec) : (modDomain s k f).easel = s.easel := rfl
@[simp] theorem modDomain_palette (s : State) (k : Nat) (f : DomainRec → DomainRec) : (modDomain s k f).palette = s.palette := rfl
@[simp] theorem modDomain_crypt (s : State) (k : Nat) (f : DomainRec → DomainRec) : (modDomain s k f).crypt = s.crypt := rfl
@[simp] theorem modDomain_directory (s : State) (k : Nat) (f : DomainRec → DomainRec) : (modDomain s k f).directory = s.directory := rfl
@[simp] theorem modDomain_queues (s : State) (k : Nat) (f : DomainRec → DomainRec) : (modDomain s k f).queues = s.queues := rfl
@[simp] theorem modDomain_barrow (s : State) (k : Nat) (f : DomainRec → DomainRec) : (modDomain s k f).barrow = s.barrow := rfl
@[simp] theorem modDomain_perf (s : State) (k : Nat) (f : DomainRec → DomainRec) : (modDomain s k f).perf = s.perf := rfl
@[simp] theorem modDomain_path (s : State) (k : Nat) (f : DomainRec → DomainRec) : (modDomain s k f).path = s.path := rfl
@[simp] theorem modDomain_settings (s : State) (k : Nat) (f : DomainRec → DomainRec) : (modDomain s k f).settings = s.settings := rfl
@[simp] theorem modDomain_stats (s : State) (k : Nat) (f : DomainRec → DomainRec) : (modDomain s k f).stats = s.stats := rfl
@[simp] theorem modDomain_draws (s : State) (k : Nat) (f : DomainRec → DomainRec) : (modDomain s k f).draws = s.draws := rfl
@[simp] theorem modDomain_out (s : State) (k : Nat) (f : DomainRec → DomainRec) : (modDomain s k f).out = s.out := rfl
@[simp] theorem modDomain_pending (s : State) (k : Nat) (f : DomainRec → DomainRec) : (modDomain s k f).pending = s.pending := rfl

@[simp] theorem modChannel_sys (s : State) (c : Nat) (f : ChannelRec → ChannelRec) : (modChannel s c f).sys = s.sys := rfl
@[simp] theorem modChannel_mgmt (s : State) (c : Nat) (f : ChannelRec → ChannelRec) : (modChannel s c f).mgmt = s.mgmt := rfl
@[simp] theorem modChannel_folio (s : State) (c : Nat) (f : ChannelRec → ChannelRec) : (modChannel s c f).folio = s.folio := rfl
@[simp] theorem modChannel_ledger (s : State) (c : Nat) (f : ChannelRec → ChannelRec) : (modChannel s c f).ledger = s.ledger := rfl
@[simp] theorem modChannel_power (s : State) (c : Nat) (f : ChannelRec → ChannelRec) : (modChannel s c f).power = s.power := rfl
@[simp] theorem modChannel_reserve (s : State) (c : Nat) (f : ChannelRec → ChannelRec) : (modChannel s c f).reserve = s.reserve := rfl
@[simp] theorem modChannel_thermal (s : State) (c : Nat) (f : ChannelRec → ChannelRec) : (modChannel s c f).thermal = s.thermal := rfl
@[simp] theorem modChannel_ports (s : State) (c : Nat) (f : ChannelRec → ChannelRec) : (modChannel s c f).ports = s.ports := rfl
@[simp] theorem modChannel_groups (s : State) (c : Nat) (f : ChannelRec → ChannelRec) : (modChannel s c f).groups = s.groups := rfl
@[simp] theorem modChannel_easel (s : State) (c : Nat) (f : ChannelRec → ChannelRec) : (modChannel s c f).easel = s.easel := rfl
@[simp] theorem modChannel_palette (s : State) (c : Nat) (f : ChannelRec → ChannelRec) : (modChannel s c f).palette = s.palette := rfl
@[simp] theorem modChannel_crypt (s : State) (c : Nat) (f : ChannelRec → ChannelRec) : (modChannel s c f).crypt = s.crypt := rfl
@[simp] theorem modChannel_directory (s : State) (c : Nat) (f : ChannelRec → ChannelRec) : (modChannel s c f).directory = s.directory := rfl
@[simp] theorem modChannel_queues (s : State) (c : Nat) (f : ChannelRec → ChannelRec) : (modChannel s c f).queues = s.queues := rfl
@[simp] theorem modChannel_barrow (s : State) (c : Nat) (f : ChannelRec → ChannelRec) : (modChannel s c f).barrow = s.barrow := rfl
@[simp] theorem modChannel_perf (s : State) (c : Nat) (f : ChannelRec → ChannelRec) : (modChannel s c f).perf = s.perf := rfl
@[simp] theorem modChannel_path (s : State) (c : Nat) (f : ChannelRec → ChannelRec) : (modChannel s c f).path = s.path := rfl
@[simp] theorem modChannel_settings (s : State) (c : Nat) (f : ChannelRec → ChannelRec) : (modChannel s c f).settings = s.settings := rfl
@[simp] theorem modChannel_stats (s : State) (c : Nat) (f : ChannelRec → ChannelRec) : (modChannel s c f).stats = s.stats := rfl
@[simp] theorem modChannel_draws (s : State) (c : Nat) (f : ChannelRec → ChannelRec) : (modChannel s c f).draws = s.draws := rfl
@[simp] theorem modChannel_out (s : State) (c : Nat) (f : ChannelRec → ChannelRec) : (modChannel s c f).out = s.out := rfl
@[simp] theorem modChannel_pending (s : State) (c : Nat) (f : ChannelRec → ChannelRec) : (modChannel s c f).pending = s.pending := rfl

@[simp] theorem modPort_sys (s : State) (p : Nat) (f : PortRec → PortRec) : (modPort s p f).sys = s.sys := rfl
@[simp] theorem modPort_mgmt (s : State) (p : Nat) (f : PortRec → PortRec) : (modPort s p f).mgmt = s.mgmt := rfl
@[simp] theorem modPort_folio (s : State) (p : Nat) (f : PortRec → PortRec) : (modPort s p f).folio = s.folio := rfl
@[simp] theorem modPort_ledger (s : State) (p : Nat) (f : PortRec → PortRec) : (modPort s p f).ledger = s.ledger := rfl
@[simp] theorem modPort_power (s : State) (p : Nat) (f : PortRec → PortRec) : (modPort s p f).power = s.power := rfl
@[simp] theorem modPort_reserve (s : State) (p : Nat) (f : PortRec → PortRec) : (modPort s p f).reserve = s.reserve := rfl
@[simp] theorem modPort_thermal (s : State) (p : Nat) (f : PortRec → PortRec) : (modPort s p f).thermal = s.thermal := rfl
@[simp] theorem modPort_channels (s : State) (p : Nat) (f : PortRec → PortRec) : (modPort s p f).channels = s.channels := rfl
@[simp] theorem modPort_groups (s : State) (p : Nat) (f : PortRec → PortRec) : (modPort s p f).groups = s.groups := rfl
@[simp] theorem modPort_easel (s : State) (p : Nat) (f : PortRec → PortRec) : (modPort s p f).easel = s.easel := rfl
@[simp] theorem modPort_palette (s : State) (p : Nat) (f : PortRec → PortRec) : (modPort s p f).palette = s.palette := rfl
@[simp] theorem modPort_crypt (s : State) (p : Nat) (f : PortRec → PortRec) : (modPort s p f).crypt = s.crypt := rfl
@[simp] theorem modPort_directory (s : State) (p : Nat) (f : PortRec → PortRec) : (modPort s p f).directory = s.directory := rfl
@[simp] theorem modPort_queues (s : State) (p : Nat) (f : PortRec → PortRec) : (modPort s p f).queues = s.queues := rfl
@[simp] theorem modPort_barrow (s : State) (p : Nat) (f : PortRec → PortRec) : (modPort s p f).barrow = s.barrow := rfl
@[simp] theorem modPort_perf (s : State) (p : Nat) (f : PortRec → PortRec) : (modPort s p f).perf = s.perf := rfl
@[simp] theorem modPort_path (s : State) (p : Nat) (f : PortRec → PortRec) : (modPort s p f).path = s.path := rfl
@[simp] theorem modPort_settings (s : State) (p : Nat) (f : PortRec → PortRec) : (modPort s p f).settings = s.settings := rfl
@[simp] theorem modPort_stats (s : State) (p : Nat) (f : PortRec → PortRec) : (modPort s p f).stats = s.stats := rfl
@[simp] theorem modPort_draws (s : State) (p : Nat) (f : PortRec → PortRec) : (modPort s p f).draws = s.draws := rfl
@[simp] theorem modPort_out (s : State) (p : Nat) (f : PortRec → PortRec) : (modPort s p f).out = s.out := rfl
@[simp] theorem modPort_pending (s : State) (p : Nat) (f : PortRec → PortRec) : (modPort s p f).pending = s.pending := rfl

@[simp] theorem modSession_sys (s : State) (n : Nat) (f : Session → Session) : (modSession s n f).sys = s.sys := rfl
@[simp] theorem modSession_folio (s : State) (n : Nat) (f : Session → Session) : (modSession s n f).folio = s.folio := rfl
@[simp] theorem modSession_ledger (s : State) (n : Nat) (f : Session → Session) : (modSession s n f).ledger = s.ledger := rfl
@[simp] theorem modSession_power (s : State) (n : Nat) (f : Session → Session) : (modSession s n f).power = s.power := rfl
@[simp] theorem modSession_reserve (s : State) (n : Nat) (f : Session → Session) : (modSession s n f).reserve = s.reserve := rfl
@[simp] theorem modSession_thermal (s : State) (n : Nat) (f : Session → Session) : (modSession s n f).thermal = s.thermal := rfl
@[simp] theorem modSession_channels (s : State) (n : Nat) (f : Session → Session) : (modSession s n f).channels = s.channels := rfl
@[simp] theorem modSession_ports (s : State) (n : Nat) (f : Session → Session) : (modSession s n f).ports = s.ports := rfl
@[simp] theorem modSession_groups (s : State) (n : Nat) (f : Session → Session) : (modSession s n f).groups = s.groups := rfl
@[simp] theorem modSession_easel (s : State) (n : Nat) (f : Session → Session) : (modSession s n f).easel = s.easel := rfl
@[simp] theorem modSession_palette (s : State) (n : Nat) (f : Session → Session) : (modSession s n f).palette = s.palette := rfl
@[simp] theorem modSession_crypt (s : State) (n : Nat) (f : Session → Session) : (modSession s n f).crypt = s.crypt := rfl
@[simp] theorem modSession_directory (s : State) (n : Nat) (f : Session → Session) : (modSession s n f).directory = s.directory := rfl
@[simp] theorem modSession_queues (s : State) (n : Nat) (f : Session → Session) : (modSession s n f).queues = s.queues := rfl
@[simp] theorem modSession_barrow (s : State) (n : Nat) (f : Session → Session) : (modSession s n f).barrow = s.barrow := rfl
@[simp] theorem modSession_perf (s : State) (n : Nat) (f : Session → Session) : (modSession s n f).perf = s.perf := rfl
@[simp] theorem modSession_path (s : State) (n : Nat) (f : Session → Session) : (modSession s n f).path = s.path := rfl
@[simp] theorem modSession_settings (s : State) (n : Nat) (f : Session → Session) : (modSession s n f).settings = s.settings := rfl
@[simp] theorem modSession_stats (s : State) (n : Nat) (f : Session → Session) : (modSession s n f).stats = s.stats := rfl
@[simp] theorem modSession_draws (s : State) (n : Nat) (f : Session → Session) : (modSession s n f).draws = s.draws := rfl
@[simp] theorem modSession_out (s : State) (n : Nat) (f : Session → Session) : (modSession s n f).out = s.out := rfl
@[simp] theorem modSession_pending (s : State) (n : Nat) (f : Session → Session) : (modSession s n f).pending = s.pending := rfl

@[simp] theorem modGroup_sys (s : State) (g : Nat) (f : GroupRec → GroupRec) : (modGroup s g f).sys = s.sys := rfl
@[simp] theorem modGroup_mgmt (s : State) (g : Nat) (f : GroupRec → GroupRec) : (modGroup s g f).mgmt = s.mgmt := rfl
@[simp] theorem modGroup_folio (s : State) (g : Nat) (f : GroupRec → GroupRec) : (modGroup s g f).folio = s.folio := rfl
@[simp] theorem modGroup_ledger (s : State) (g : Nat) (f : GroupRec → GroupRec) : (modGroup s g f).ledger = s.ledger := rfl
@[simp] theorem modGroup_power (s : State) (g : Nat) (f : GroupRec → GroupRec) : (modGroup s g f).power = s.power := rfl
@[simp] theorem modGroup_reserve (s : State) (g : Nat) (f : GroupRec → GroupRec) : (modGroup s g f).reserve = s.reserve := rfl
@[simp] theorem modGroup_thermal (s : State) (g : Nat) (f : GroupRec → GroupRec) : (modGroup s g f).thermal = s.thermal := rfl
@[simp] theorem modGroup_channels (s : State) (g : Nat) (f : GroupRec → GroupRec) : (modGroup s g f).channels = s.channels := rfl
@[simp] theorem modGroup_ports (s : State) (g : Nat) (f : GroupRec → GroupRec) : (modGroup s g f).ports = s.ports := rfl
@[simp] theorem modGroup_easel (s : State) (g : Nat) (f : GroupRec → GroupRec) : (modGroup s g f).easel = s.easel := rfl
@[simp] theorem modGroup_palette (s : State) (g : Nat) (f : GroupRec → GroupRec) : (modGroup s g f).palette = s.palette := rfl
@[simp] theorem modGroup_crypt (s : State) (g : Nat) (f : GroupRec → GroupRec) : (modGroup s g f).crypt = s.crypt := rfl
@[simp] theorem modGroup_directory (s : State) (g : Nat) (f : GroupRec → GroupRec) : (modGroup s g f).directory = s.directory := rfl
@[simp] theorem modGroup_queues (s : State) (g : Nat) (f : GroupRec → GroupRec) : (modGroup s g f).queues = s.queues := rfl
@[simp] theorem modGroup_barrow (s : State) (g : Nat) (f : GroupRec → GroupRec) : (modGroup s g f).barrow = s.barrow := rfl
@[simp] theorem modGroup_perf (s : State) (g : Nat) (f : GroupRec → GroupRec) : (modGroup s g f).perf = s.perf := rfl
@[simp] theorem modGroup_path (s : State) (g : Nat) (f : GroupRec → GroupRec) : (modGroup s g f).path = s.path := rfl
@[simp] theorem modGroup_settings (s : State) (g : Nat) (f : GroupRec → GroupRec) : (modGroup s g f).settings = s.settings := rfl
@[simp] theorem modGroup_stats (s : State) (g : Nat) (f : GroupRec → GroupRec) : (modGroup s g f).stats = s.stats := rfl
@[simp] theorem modGroup_draws (s : State) (g : Nat) (f : GroupRec → GroupRec) : (modGroup s g f).draws = s.draws := rfl
@[simp] theorem modGroup_out (s : State) (g : Nat) (f : GroupRec → GroupRec) : (modGroup s g f).out = s.out := rfl
@[simp] theorem modGroup_pending (s : State) (g : Nat) (f : GroupRec → GroupRec) : (modGroup s g f).pending = s.pending := rfl

@[simp] theorem modRegion_sys (s : State) (g p : Nat) (f : RegionRec → RegionRec) : (modRegion s g p f).sys = s.sys := rfl
@[simp] theorem modRegion_mgmt (s : State) (g p : Nat) (f : RegionRec → RegionRec) : (modRegion s g p f).mgmt = s.mgmt := rfl
@[simp] theorem modRegion_folio (s : State) (g p : Nat) (f : RegionRec → RegionRec) : (modRegion s g p f).folio = s.folio := rfl
@[simp] theorem modRegion_ledger (s : State) (g p : Nat) (f : RegionRec → RegionRec) : (modRegion s g p f).ledger = s.ledger := rfl
@[simp] theorem modRegion_power (s : State) (g p : Nat) (f : RegionRec → RegionRec) : (modRegion s g p f).power = s.power := rfl
@[simp] theorem modRegion_reserve (s : State) (g p : Nat) (f : RegionRec → RegionRec) : (modRegion s g p f).reserve = s.reserve := rfl
@[simp] theorem modRegion_thermal (s : State) (g p : Nat) (f : RegionRec → RegionRec) : (modRegion s g p f).thermal = s.thermal := rfl
@[simp] theorem modRegion_channels (s : State) (g p : Nat) (f : RegionRec → RegionRec) : (modRegion s g p f).channels = s.channels := rfl
@[simp] theorem modRegion_ports (s : State) (g p : Nat) (f : RegionRec → RegionRec) : (modRegion s g p f).ports = s.ports := rfl
@[simp] theorem modRegion_easel (s : State) (g p : Nat) (f : RegionRec → RegionRec) : (modRegion s g p f).easel = s.easel := rfl
@[simp] theorem modRegion_palette (s : State) (g p : Nat) (f : RegionRec → RegionRec) : (modRegion s g p f).palette = s.palette := rfl
@[simp] theorem modRegion_crypt (s : State) (g p : Nat) (f : RegionRec → RegionRec) : (modRegion s g p f).crypt = s.crypt := rfl
@[simp] theorem modRegion_directory (s : State) (g p : Nat) (f : RegionRec → RegionRec) : (modRegion s g p f).directory = s.directory := rfl
@[simp] theorem modRegion_queues (s : State) (g p : Nat) (f : RegionRec → RegionRec) : (modRegion s g p f).queues = s.queues := rfl
@[simp] theorem modRegion_barrow (s : State) (g p : Nat) (f : RegionRec → RegionRec) : (modRegion s g p f).barrow = s.barrow := rfl
@[simp] theorem modRegion_perf (s : State) (g p : Nat) (f : RegionRec → RegionRec) : (modRegion s g p f).perf = s.perf := rfl
@[simp] theorem modRegion_path (s : State) (g p : Nat) (f : RegionRec → RegionRec) : (modRegion s g p f).path = s.path := rfl
@[simp] theorem modRegion_settings (s : State) (g p : Nat) (f : RegionRec → RegionRec) : (modRegion s g p f).settings = s.settings := rfl
@[simp] theorem modRegion_stats (s : State) (g p : Nat) (f : RegionRec → RegionRec) : (modRegion s g p f).stats = s.stats := rfl
@[simp] theorem modRegion_draws (s : State) (g p : Nat) (f : RegionRec → RegionRec) : (modRegion s g p f).draws = s.draws := rfl
@[simp] theorem modRegion_out (s : State) (g p : Nat) (f : RegionRec → RegionRec) : (modRegion s g p f).out = s.out := rfl
@[simp] theorem modRegion_pending (s : State) (g p : Nat) (f : RegionRec → RegionRec) : (modRegion s g p f).pending = s.pending := rfl

@[simp] theorem storePatch_sys (s : State) (c a : Nat) (v : Patch) : (storePatch s c a v).sys = s.sys := rfl
@[simp] theorem storePatch_mgmt (s : State) (c a : Nat) (v : Patch) : (storePatch s c a v).mgmt = s.mgmt := rfl
@[simp] theorem storePatch_folio (s : State) (c a : Nat) (v : Patch) : (storePatch s c a v).folio = s.folio := rfl
@[simp] theorem storePatch_ledger (s : State) (c a : Nat) (v : Patch) : (storePatch s c a v).ledger = s.ledger := rfl
@[simp] theorem storePatch_power (s : State) (c a : Nat) (v : Patch) : (storePatch s c a v).power = s.power := rfl
@[simp] theorem storePatch_reserve (s : State) (c a : Nat) (v : Patch) : (storePatch s c a v).reserve = s.reserve := rfl
@[simp] theorem storePatch_thermal (s : State) (c a : Nat) (v : Patch) : (storePatch s c a v).thermal = s.thermal := rfl
@[simp] theorem storePatch_channels (s : State) (c a : Nat) (v : Patch) : (storePatch s c a v).channels = s.channels := rfl
@[simp] theorem storePatch_ports (s : State) (c a : Nat) (v : Patch) : (storePatch s c a v).ports = s.ports := rfl
@[simp] theorem storePatch_groups (s : State) (c a : Nat) (v : Patch) : (storePatch s c a v).groups = s.groups := rfl
@[simp] theorem storePatch_easel (s : State) (c a : Nat) (v : Patch) : (storePatch s c a v).easel = s.easel := rfl
@[simp] theorem storePatch_palette (s : State) (c a : Nat) (v : Patch) : (storePatch s c a v).palette = s.palette := rfl
@[simp] theorem storePatch_crypt (s : State) (c a : Nat) (v : Patch) : (storePatch s c a v).crypt = s.crypt := rfl
@[simp] theorem storePatch_directory (s : State) (c a : Nat) (v : Patch) : (storePatch s c a v).directory = s.directory := rfl
@[simp] theorem storePatch_queues (s : State) (c a : Nat) (v : Patch) : (storePatch s c a v).queues = s.queues := rfl
@[simp] theorem storePatch_barrow (s : State) (c a : Nat) (v : Patch) : (storePatch s c a v).barrow = s.barrow := rfl
@[simp] theorem storePatch_perf (s : State) (c a : Nat) (v : Patch) : (storePatch s c a v).perf = s.perf := rfl
@[simp] theorem storePatch_settings (s : State) (c a : Nat) (v : Patch) : (storePatch s c a v).settings = s.settings := rfl
@[simp] theorem storePatch_stats (s : State) (c a : Nat) (v : Patch) : (storePatch s c a v).stats = s.stats := rfl
@[simp] theorem storePatch_draws (s : State) (c a : Nat) (v : Patch) : (storePatch s c a v).draws = s.draws := rfl
@[simp] theorem storePatch_out (s : State) (c a : Nat) (v : Patch) : (storePatch s c a v).out = s.out := rfl
@[simp] theorem storePatch_pending (s : State) (c a : Nat) (v : Patch) : (storePatch s c a v).pending = s.pending := rfl

@[simp] theorem modQueue_sys (s : State) (q : Nat) (f : QueueRec → QueueRec) : (modQueue s q f).sys = s.sys := rfl
@[simp] theorem modQueue_mgmt (s : State) (q : Nat) (f : QueueRec → QueueRec) : (modQueue s q f).mgmt = s.mgmt := rfl
@[simp] theorem modQueue_folio (s : State) (q : Nat) (f : QueueRec → QueueRec) : (modQueue s q f).folio = s.folio := rfl
@[simp] theorem modQueue_ledger (s : State) (q : Nat) (f : QueueRec → QueueRec) : (modQueue s q f).ledger = s.ledger := rfl
@[simp] theorem modQueue_power (s : State) (q : Nat) (f : QueueRec → QueueRec) : (modQueue s q f).power = s.power := rfl
@[simp] theorem modQueue_reserve (s : State) (q : Nat) (f : QueueRec → QueueRec) : (modQueue s q f).reserve = s.reserve := rfl
@[simp] theorem modQueue_thermal (s : State) (q : Nat) (f : QueueRec → QueueRec) : (modQueue s q f).thermal = s.thermal := rfl
@[simp] theorem modQueue_channels (s : State) (q : Nat) (f : QueueRec → QueueRec) : (modQueue s q f).channels = s.channels := rfl
@[simp] theorem modQueue_ports (s : State) (q : Nat) (f : QueueRec → QueueRec) : (modQueue s q f).ports = s.ports := rfl
@[simp] theorem modQueue_groups (s : State) (q : Nat) (f : QueueRec → QueueRec) : (modQueue s q f).groups = s.groups := rfl
@[simp] theorem modQueue_easel (s : State) (q : Nat) (f : QueueRec → QueueRec) : (modQueue s q f).easel = s.easel := rfl
@[simp] theorem modQueue_palette (s : State) (q : Nat) (f : QueueRec → QueueRec) : (modQueue s q f).palette = s.palette := rfl
@[simp] theorem modQueue_crypt (s : State) (q : Nat) (f : QueueRec → QueueRec) : (modQueue s q f).crypt = s.crypt := rfl
@[simp] theorem modQueue_directory (s : State) (q : Nat) (f : QueueRec → QueueRec) : (modQueue s q f).directory = s.directory := rfl
@[simp] theorem modQueue_barrow (s : State) (q : Nat) (f : QueueRec → QueueRec) : (modQueue s q f).barrow = s.barrow := rfl
@[simp] theorem modQueue_perf (s : State) (q : Nat) (f : QueueRec → QueueRec) : (modQueue s q f).perf = s.perf := rfl
@[simp] theorem modQueue_path (s : State) (q : Nat) (f : QueueRec → QueueRec) : (modQueue s q f).path = s.path := rfl
@[simp] theorem modQueue_settings (s : State) (q : Nat) (f : QueueRec → QueueRec) : (modQueue s q f).settings = s.settings := rfl
@[simp] theorem modQueue_stats (s : State) (q : Nat) (f : QueueRec → QueueRec) : (modQueue s q f).stats = s.stats := rfl
@[simp] theorem modQueue_draws (s : State) (q : Nat) (f : QueueRec → QueueRec) : (modQueue s q f).draws = s.draws := rfl
@[simp] theorem modQueue_out (s : State) (q : Nat) (f : QueueRec → QueueRec) : (modQueue s q f).out = s.out := rfl
@[simp] theorem modQueue_pending (s : State) (q : Nat) (f : QueueRec → QueueRec) : (modQueue s q f).pending = s.pending := rfl

@[simp] theorem modRange_sys (s : State) (r : Nat) (f : RangeRec → RangeRec) : (modRange s r f).sys = s.sys := rfl
@[simp] theorem modRange_mgmt (s : State) (r : Nat) (f : RangeRec → RangeRec) : (modRange s r f).mgmt = s.mgmt := rfl
@[simp] theorem modRange_folio (s : State) (r : Nat) (f : RangeRec → RangeRec) : (modRange s r f).folio = s.folio := rfl
@[simp] theorem modRange_ledger (s : State) (r : Nat) (f : RangeRec → RangeRec) : (modRange s r f).ledger = s.ledger := rfl
@[simp] theorem modRange_power (s : State) (r : Nat) (f : RangeRec → RangeRec) : (modRange s r f).power = s.power := rfl
@[simp] theorem modRange_reserve (s : State) (r : Nat) (f : RangeRec → RangeRec) : (modRange s r f).reserve = s.reserve := rfl
@[simp] theorem modRange_thermal (s : State) (r : Nat) (f : RangeRec → RangeRec) : (modRange s r f).thermal = s.thermal := rfl
@[simp] theorem modRange_channels (s : State) (r : Nat) (f : RangeRec → RangeRec) : (modRange s r f).channels = s.channels := rfl
@[simp] theorem modRange_ports (s : State) (r : Nat) (f : RangeRec → RangeRec) : (modRange s r f).ports = s.ports := rfl
@[simp] theorem modRange_groups (s : State) (r : Nat) (f : RangeRec → RangeRec) : (modRange s r f).groups = s.groups := rfl
@[simp] theorem modRange_easel (s : State) (r : Nat) (f : RangeRec → RangeRec) : (modRange s r f).easel = s.easel := rfl
@[simp] theorem modRange_palette (s : State) (r : Nat) (f : RangeRec → RangeRec) : (modRange s r f).palette = s.palette := rfl
@[simp] theorem modRange_directory (s : State) (r : Nat) (f : RangeRec → RangeRec) : (modRange s r f).directory = s.directory := rfl
@[simp] theorem modRange_queues (s : State) (r : Nat) (f : RangeRec → RangeRec) : (modRange s r f).queues = s.queues := rfl
@[simp] theorem modRange_barrow (s : State) (r : Nat) (f : RangeRec → RangeRec) : (modRange s r f).barrow = s.barrow := rfl
@[simp] theorem modRange_perf (s : State) (r : Nat) (f : RangeRec → RangeRec) : (modRange s r f).perf = s.perf := rfl
@[simp] theorem modRange_path (s : State) (r : Nat) (f : RangeRec → RangeRec) : (modRange s r f).path = s.path := rfl
@[simp] theorem modRange_settings (s : State) (r : Nat) (f : RangeRec → RangeRec) : (modRange s r f).settings = s.settings := rfl
@[simp] theorem modRange_stats (s : State) (r : Nat) (f : RangeRec → RangeRec) : (modRange s r f).stats = s.stats := rfl
@[simp] theorem modRange_draws (s : State) (r : Nat) (f : RangeRec → RangeRec) : (modRange s r f).draws = s.draws := rfl
@[simp] theorem modRange_out (s : State) (r : Nat) (f : RangeRec → RangeRec) : (modRange s r f).out = s.out := rfl
@[simp] theorem modRange_pending (s : State) (r : Nat) (f : RangeRec → RangeRec) : (modRange s r f).pending = s.pending := rfl

@[simp] theorem modLine_sys (s : State) (p : Nat) (f : EaselLine → EaselLine) : (modLine s p f).sys = s.sys := rfl
@[simp] theorem modLine_mgmt (s : State) (p : Nat) (f : EaselLine → EaselLine) : (modLine s p f).mgmt = s.mgmt := rfl
@[simp] theorem modLine_folio (s : State) (p : Nat) (f : EaselLine → EaselLine) : (modLine s p f).folio = s.folio := rfl
@[simp] theorem modLine_ledger (s : State) (p : Nat) (f : EaselLine → EaselLine) : (modLine s p f).ledger = s.ledger := rfl
@[simp] theorem modLine_power (s : State) (p : Nat) (f : EaselLine → EaselLine) : (modLine s p f).power = s.power := rfl
@[simp] theorem modLine_reserve (s : State) (p : Nat) (f : EaselLine → EaselLine) : (modLine s p f).reserve = s.reserve := rfl
@[simp] theorem modLine_thermal (s : State) (p : Nat) (f : EaselLine → EaselLine) : (modLine s p f).thermal = s.thermal := rfl
@[simp] theorem modLine_channels (s : State) (p : Nat) (f : EaselLine → EaselLine) : (modLine s p f).channels = s.channels := rfl
@[simp] theorem modLine_ports (s : State) (p : Nat) (f : EaselLine → EaselLine) : (modLine s p f).ports = s.ports := rfl
@[simp] theorem modLine_groups (s : State) (p : Nat) (f : EaselLine → EaselLine) : (modLine s p f).groups = s.groups := rfl
@[simp] theorem modLine_palette (s : State) (p : Nat) (f : EaselLine → EaselLine) : (modLine s p f).palette = s.palette := rfl
@[simp] theorem modLine_crypt (s : State) (p : Nat) (f : EaselLine → EaselLine) : (modLine s p f).crypt = s.crypt := rfl
@[simp] theorem modLine_directory (s : State) (p : Nat) (f : EaselLine → EaselLine) : (modLine s p f).directory = s.directory := rfl
@[simp] theorem modLine_queues (s : State) (p : Nat) (f : EaselLine → EaselLine) : (modLine s p f).queues = s.queues := rfl
@[simp] theorem modLine_barrow (s : State) (p : Nat) (f : EaselLine → EaselLine) : (modLine s p f).barrow = s.barrow := rfl
@[simp] theorem modLine_perf (s : State) (p : Nat) (f : EaselLine → EaselLine) : (modLine s p f).perf = s.perf := rfl
@[simp] theorem modLine_path (s : State) (p : Nat) (f : EaselLine → EaselLine) : (modLine s p f).path = s.path := rfl
@[simp] theorem modLine_settings (s : State) (p : Nat) (f : EaselLine → EaselLine) : (modLine s p f).settings = s.settings := rfl
@[simp] theorem modLine_stats (s : State) (p : Nat) (f : EaselLine → EaselLine) : (modLine s p f).stats = s.stats := rfl
@[simp] theorem modLine_draws (s : State) (p : Nat) (f : EaselLine → EaselLine) : (modLine s p f).draws = s.draws := rfl
@[simp] theorem modLine_out (s : State) (p : Nat) (f : EaselLine → EaselLine) : (modLine s p f).out = s.out := rfl
@[simp] theorem modLine_pending (s : State) (p : Nat) (f : EaselLine → EaselLine) : (modLine s p f).pending = s.pending := rfl

@[simp] theorem setMerge_sys (s : State) (p : Nat) (m : BitVec 64) : (setMerge s p m).sys = s.sys := rfl
@[simp] theorem setMerge_mgmt (s : State) (p : Nat) (m : BitVec 64) : (setMerge s p m).mgmt = s.mgmt := rfl
@[simp] theorem setMerge_folio (s : State) (p : Nat) (m : BitVec 64) : (setMerge s p m).folio = s.folio := rfl
@[simp] theorem setMerge_ledger (s : State) (p : Nat) (m : BitVec 64) : (setMerge s p m).ledger = s.ledger := rfl
@[simp] theorem setMerge_power (s : State) (p : Nat) (m : BitVec 64) : (setMerge s p m).power = s.power := rfl
@[simp] theorem setMerge_reserve (s : State) (p : Nat) (m : BitVec 64) : (setMerge s p m).reserve = s.reserve := rfl
@[simp] theorem setMerge_thermal (s : State) (p : Nat) (m : BitVec 64) : (setMerge s p m).thermal = s.thermal := rfl
@[simp] theorem setMerge_channels (s : State) (p : Nat) (m : BitVec 64) : (setMerge s p m).channels = s.channels := rfl
@[simp] theorem setMerge_ports (s : State) (p : Nat) (m : BitVec 64) : (setMerge s p m).ports = s.ports := rfl
@[simp] theorem setMerge_groups (s : State) (p : Nat) (m : BitVec 64) : (setMerge s p m).groups = s.groups := rfl
@[simp] theorem setMerge_palette (s : State) (p : Nat) (m : BitVec 64) : (setMerge s p m).palette = s.palette := rfl
@[simp] theorem setMerge_crypt (s : State) (p : Nat) (m : BitVec 64) : (setMerge s p m).crypt = s.crypt := rfl
@[simp] theorem setMerge_directory (s : State) (p : Nat) (m : BitVec 64) : (setMerge s p m).directory = s.directory := rfl
@[simp] theorem setMerge_queues (s : State) (p : Nat) (m : BitVec 64) : (setMerge s p m).queues = s.queues := rfl
@[simp] theorem setMerge_barrow (s : State) (p : Nat) (m : BitVec 64) : (setMerge s p m).barrow = s.barrow := rfl
@[simp] theorem setMerge_perf (s : State) (p : Nat) (m : BitVec 64) : (setMerge s p m).perf = s.perf := rfl
@[simp] theorem setMerge_path (s : State) (p : Nat) (m : BitVec 64) : (setMerge s p m).path = s.path := rfl
@[simp] theorem setMerge_settings (s : State) (p : Nat) (m : BitVec 64) : (setMerge s p m).settings = s.settings := rfl
@[simp] theorem setMerge_stats (s : State) (p : Nat) (m : BitVec 64) : (setMerge s p m).stats = s.stats := rfl
@[simp] theorem setMerge_draws (s : State) (p : Nat) (m : BitVec 64) : (setMerge s p m).draws = s.draws := rfl
@[simp] theorem setMerge_out (s : State) (p : Nat) (m : BitVec 64) : (setMerge s p m).out = s.out := rfl
@[simp] theorem setMerge_pending (s : State) (p : Nat) (m : BitVec 64) : (setMerge s p m).pending = s.pending := rfl

@[simp] theorem modBarrow_sys (s : State) (c : Nat) (f : BarrowRec → BarrowRec) : (modBarrow s c f).sys = s.sys := rfl
@[simp] theorem modBarrow_mgmt (s : State) (c : Nat) (f : BarrowRec → BarrowRec) : (modBarrow s c f).mgmt = s.mgmt := rfl
@[simp] theorem modBarrow_folio (s : State) (c : Nat) (f : BarrowRec → BarrowRec) : (modBarrow s c f).folio = s.folio := rfl
@[simp] theorem modBarrow_ledger (s : State) (c : Nat) (f : BarrowRec → BarrowRec) : (modBarrow s c f).ledger = s.ledger := rfl
@[simp] theorem modBarrow_power (s : State) (c : Nat) (f : BarrowRec → BarrowRec) : (modBarrow s c f).power = s.power := rfl
@[simp] theorem modBarrow_reserve (s : State) (c : Nat) (f : BarrowRec → BarrowRec) : (modBarrow s c f).reserve = s.reserve := rfl
@[simp] theorem modBarrow_thermal (s : State) (c : Nat) (f : BarrowRec → BarrowRec) : (modBarrow s c f).thermal = s.thermal := rfl
@[simp] theorem modBarrow_channels (s : State) (c : Nat) (f : BarrowRec → BarrowRec) : (modBarrow s c f).channels = s.channels := rfl
@[simp] theorem modBarrow_ports (s : State) (c : Nat) (f : BarrowRec → BarrowRec) : (modBarrow s c f).ports = s.ports := rfl
@[simp] theorem modBarrow_groups (s : State) (c : Nat) (f : BarrowRec → BarrowRec) : (modBarrow s c f).groups = s.groups := rfl
@[simp] theorem modBarrow_easel (s : State) (c : Nat) (f : BarrowRec → BarrowRec) : (modBarrow s c f).easel = s.easel := rfl
@[simp] theorem modBarrow_palette (s : State) (c : Nat) (f : BarrowRec → BarrowRec) : (modBarrow s c f).palette = s.palette := rfl
@[simp] theorem modBarrow_crypt (s : State) (c : Nat) (f : BarrowRec → BarrowRec) : (modBarrow s c f).crypt = s.crypt := rfl
@[simp] theorem modBarrow_directory (s : State) (c : Nat) (f : BarrowRec → BarrowRec) : (modBarrow s c f).directory = s.directory := rfl
@[simp] theorem modBarrow_queues (s : State) (c : Nat) (f : BarrowRec → BarrowRec) : (modBarrow s c f).queues = s.queues := rfl
@[simp] theorem modBarrow_perf (s : State) (c : Nat) (f : BarrowRec → BarrowRec) : (modBarrow s c f).perf = s.perf := rfl
@[simp] theorem modBarrow_path (s : State) (c : Nat) (f : BarrowRec → BarrowRec) : (modBarrow s c f).path = s.path := rfl
@[simp] theorem modBarrow_settings (s : State) (c : Nat) (f : BarrowRec → BarrowRec) : (modBarrow s c f).settings = s.settings := rfl
@[simp] theorem modBarrow_stats (s : State) (c : Nat) (f : BarrowRec → BarrowRec) : (modBarrow s c f).stats = s.stats := rfl
@[simp] theorem modBarrow_draws (s : State) (c : Nat) (f : BarrowRec → BarrowRec) : (modBarrow s c f).draws = s.draws := rfl
@[simp] theorem modBarrow_out (s : State) (c : Nat) (f : BarrowRec → BarrowRec) : (modBarrow s c f).out = s.out := rfl
@[simp] theorem modBarrow_pending (s : State) (c : Nat) (f : BarrowRec → BarrowRec) : (modBarrow s c f).pending = s.pending := rfl

@[simp] theorem modWay_sys (s : State) (w : Nat) (f : PalLine → PalLine) : (modWay s w f).sys = s.sys := rfl
@[simp] theorem modWay_mgmt (s : State) (w : Nat) (f : PalLine → PalLine) : (modWay s w f).mgmt = s.mgmt := rfl
@[simp] theorem modWay_folio (s : State) (w : Nat) (f : PalLine → PalLine) : (modWay s w f).folio = s.folio := rfl
@[simp] theorem modWay_ledger (s : State) (w : Nat) (f : PalLine → PalLine) : (modWay s w f).ledger = s.ledger := rfl
@[simp] theorem modWay_power (s : State) (w : Nat) (f : PalLine → PalLine) : (modWay s w f).power = s.power := rfl
@[simp] theorem modWay_reserve (s : State) (w : Nat) (f : PalLine → PalLine) : (modWay s w f).reserve = s.reserve := rfl
@[simp] theorem modWay_thermal (s : State) (w : Nat) (f : PalLine → PalLine) : (modWay s w f).thermal = s.thermal := rfl
@[simp] theorem modWay_channels (s : State) (w : Nat) (f : PalLine → PalLine) : (modWay s w f).channels = s.channels := rfl
@[simp] theorem modWay_ports (s : State) (w : Nat) (f : PalLine → PalLine) : (modWay s w f).ports = s.ports := rfl
@[simp] theorem modWay_groups (s : State) (w : Nat) (f : PalLine → PalLine) : (modWay s w f).groups = s.groups := rfl
@[simp] theorem modWay_easel (s : State) (w : Nat) (f : PalLine → PalLine) : (modWay s w f).easel = s.easel := rfl
@[simp] theorem modWay_crypt (s : State) (w : Nat) (f : PalLine → PalLine) : (modWay s w f).crypt = s.crypt := rfl
@[simp] theorem modWay_directory (s : State) (w : Nat) (f : PalLine → PalLine) : (modWay s w f).directory = s.directory := rfl
@[simp] theorem modWay_queues (s : State) (w : Nat) (f : PalLine → PalLine) : (modWay s w f).queues = s.queues := rfl
@[simp] theorem modWay_barrow (s : State) (w : Nat) (f : PalLine → PalLine) : (modWay s w f).barrow = s.barrow := rfl
@[simp] theorem modWay_perf (s : State) (w : Nat) (f : PalLine → PalLine) : (modWay s w f).perf = s.perf := rfl
@[simp] theorem modWay_path (s : State) (w : Nat) (f : PalLine → PalLine) : (modWay s w f).path = s.path := rfl
@[simp] theorem modWay_settings (s : State) (w : Nat) (f : PalLine → PalLine) : (modWay s w f).settings = s.settings := rfl
@[simp] theorem modWay_stats (s : State) (w : Nat) (f : PalLine → PalLine) : (modWay s w f).stats = s.stats := rfl
@[simp] theorem modWay_draws (s : State) (w : Nat) (f : PalLine → PalLine) : (modWay s w f).draws = s.draws := rfl
@[simp] theorem modWay_out (s : State) (w : Nat) (f : PalLine → PalLine) : (modWay s w f).out = s.out := rfl
@[simp] theorem modWay_pending (s : State) (w : Nat) (f : PalLine → PalLine) : (modWay s w f).pending = s.pending := rfl

@[simp] theorem modEntry_sys (s : State) (e : Nat) (f : DirEntry → DirEntry) : (modEntry s e f).sys = s.sys := rfl
@[simp] theorem modEntry_mgmt (s : State) (e : Nat) (f : DirEntry → DirEntry) : (modEntry s e f).mgmt = s.mgmt := rfl
@[simp] theorem modEntry_folio (s : State) (e : Nat) (f : DirEntry → DirEntry) : (modEntry s e f).folio = s.folio := rfl
@[simp] theorem modEntry_ledger (s : State) (e : Nat) (f : DirEntry → DirEntry) : (modEntry s e f).ledger = s.ledger := rfl
@[simp] theorem modEntry_power (s : State) (e : Nat) (f : DirEntry → DirEntry) : (modEntry s e f).power = s.power := rfl
@[simp] theorem modEntry_reserve (s : State) (e : Nat) (f : DirEntry → DirEntry) : (modEntry s e f).reserve = s.reserve := rfl
@[simp] theorem modEntry_thermal (s : State) (e : Nat) (f : DirEntry → DirEntry) : (modEntry s e f).thermal = s.thermal := rfl
@[simp] theorem modEntry_channels (s : State) (e : Nat) (f : DirEntry → DirEntry) : (modEntry s e f).channels = s.channels := rfl
@[simp] theorem modEntry_ports (s : State) (e : Nat) (f : DirEntry → DirEntry) : (modEntry s e f).ports = s.ports := rfl
@[simp] theorem modEntry_groups (s : State) (e : Nat) (f : DirEntry → DirEntry) : (modEntry s e f).groups = s.groups := rfl
@[simp] theorem modEntry_easel (s : State) (e : Nat) (f : DirEntry → DirEntry) : (modEntry s e f).easel = s.easel := rfl
@[simp] theorem modEntry_palette (s : State) (e : Nat) (f : DirEntry → DirEntry) : (modEntry s e f).palette = s.palette := rfl
@[simp] theorem modEntry_crypt (s : State) (e : Nat) (f : DirEntry → DirEntry) : (modEntry s e f).crypt = s.crypt := rfl
@[simp] theorem modEntry_queues (s : State) (e : Nat) (f : DirEntry → DirEntry) : (modEntry s e f).queues = s.queues := rfl
@[simp] theorem modEntry_barrow (s : State) (e : Nat) (f : DirEntry → DirEntry) : (modEntry s e f).barrow = s.barrow := rfl
@[simp] theorem modEntry_perf (s : State) (e : Nat) (f : DirEntry → DirEntry) : (modEntry s e f).perf = s.perf := rfl
@[simp] theorem modEntry_path (s : State) (e : Nat) (f : DirEntry → DirEntry) : (modEntry s e f).path = s.path := rfl
@[simp] theorem modEntry_settings (s : State) (e : Nat) (f : DirEntry → DirEntry) : (modEntry s e f).settings = s.settings := rfl
@[simp] theorem modEntry_stats (s : State) (e : Nat) (f : DirEntry → DirEntry) : (modEntry s e f).stats = s.stats := rfl
@[simp] theorem modEntry_draws (s : State) (e : Nat) (f : DirEntry → DirEntry) : (modEntry s e f).draws = s.draws := rfl
@[simp] theorem modEntry_out (s : State) (e : Nat) (f : DirEntry → DirEntry) : (modEntry s e f).out = s.out := rfl
@[simp] theorem modEntry_pending (s : State) (e : Nat) (f : DirEntry → DirEntry) : (modEntry s e f).pending = s.pending := rfl

@[simp] theorem modArb_sys (s : State) (g : Nat) (f : Arbiter → Arbiter) : (modArb s g f).sys = s.sys := rfl
@[simp] theorem modArb_mgmt (s : State) (g : Nat) (f : Arbiter → Arbiter) : (modArb s g f).mgmt = s.mgmt := rfl
@[simp] theorem modArb_folio (s : State) (g : Nat) (f : Arbiter → Arbiter) : (modArb s g f).folio = s.folio := rfl
@[simp] theorem modArb_ledger (s : State) (g : Nat) (f : Arbiter → Arbiter) : (modArb s g f).ledger = s.ledger := rfl
@[simp] theorem modArb_power (s : State) (g : Nat) (f : Arbiter → Arbiter) : (modArb s g f).power = s.power := rfl
@[simp] theorem modArb_reserve (s : State) (g : Nat) (f : Arbiter → Arbiter) : (modArb s g f).reserve = s.reserve := rfl
@[simp] theorem modArb_thermal (s : State) (g : Nat) (f : Arbiter → Arbiter) : (modArb s g f).thermal = s.thermal := rfl
@[simp] theorem modArb_channels (s : State) (g : Nat) (f : Arbiter → Arbiter) : (modArb s g f).channels = s.channels := rfl
@[simp] theorem modArb_ports (s : State) (g : Nat) (f : Arbiter → Arbiter) : (modArb s g f).ports = s.ports := rfl
@[simp] theorem modArb_easel (s : State) (g : Nat) (f : Arbiter → Arbiter) : (modArb s g f).easel = s.easel := rfl
@[simp] theorem modArb_palette (s : State) (g : Nat) (f : Arbiter → Arbiter) : (modArb s g f).palette = s.palette := rfl
@[simp] theorem modArb_crypt (s : State) (g : Nat) (f : Arbiter → Arbiter) : (modArb s g f).crypt = s.crypt := rfl
@[simp] theorem modArb_directory (s : State) (g : Nat) (f : Arbiter → Arbiter) : (modArb s g f).directory = s.directory := rfl
@[simp] theorem modArb_queues (s : State) (g : Nat) (f : Arbiter → Arbiter) : (modArb s g f).queues = s.queues := rfl
@[simp] theorem modArb_barrow (s : State) (g : Nat) (f : Arbiter → Arbiter) : (modArb s g f).barrow = s.barrow := rfl
@[simp] theorem modArb_perf (s : State) (g : Nat) (f : Arbiter → Arbiter) : (modArb s g f).perf = s.perf := rfl
@[simp] theorem modArb_path (s : State) (g : Nat) (f : Arbiter → Arbiter) : (modArb s g f).path = s.path := rfl
@[simp] theorem modArb_settings (s : State) (g : Nat) (f : Arbiter → Arbiter) : (modArb s g f).settings = s.settings := rfl
@[simp] theorem modArb_stats (s : State) (g : Nat) (f : Arbiter → Arbiter) : (modArb s g f).stats = s.stats := rfl
@[simp] theorem modArb_draws (s : State) (g : Nat) (f : Arbiter → Arbiter) : (modArb s g f).draws = s.draws := rfl
@[simp] theorem modArb_out (s : State) (g : Nat) (f : Arbiter → Arbiter) : (modArb s g f).out = s.out := rfl
@[simp] theorem modArb_pending (s : State) (g : Nat) (f : Arbiter → Arbiter) : (modArb s g f).pending = s.pending := rfl

@[simp] theorem setSleep_sys (s : State) (g n : Nat) : (setSleep s g n).sys = s.sys := rfl
@[simp] theorem setSleep_mgmt (s : State) (g n : Nat) : (setSleep s g n).mgmt = s.mgmt := rfl
@[simp] theorem setSleep_folio (s : State) (g n : Nat) : (setSleep s g n).folio = s.folio := rfl
@[simp] theorem setSleep_ledger (s : State) (g n : Nat) : (setSleep s g n).ledger = s.ledger := rfl
@[simp] theorem setSleep_power (s : State) (g n : Nat) : (setSleep s g n).power = s.power := rfl
@[simp] theorem setSleep_reserve (s : State) (g n : Nat) : (setSleep s g n).reserve = s.reserve := rfl
@[simp] theorem setSleep_channels (s : State) (g n : Nat) : (setSleep s g n).channels = s.channels := rfl
@[simp] theorem setSleep_ports (s : State) (g n : Nat) : (setSleep s g n).ports = s.ports := rfl
@[simp] theorem setSleep_groups (s : State) (g n : Nat) : (setSleep s g n).groups = s.groups := rfl
@[simp] theorem setSleep_easel (s : State) (g n : Nat) : (setSleep s g n).easel = s.easel := rfl
@[simp] theorem setSleep_palette (s : State) (g n : Nat) : (setSleep s g n).palette = s.palette := rfl
@[simp] theorem setSleep_crypt (s : State) (g n : Nat) : (setSleep s g n).crypt = s.crypt := rfl
@[simp] theorem setSleep_directory (s : State) (g n : Nat) : (setSleep s g n).directory = s.directory := rfl
@[simp] theorem setSleep_queues (s : State) (g n : Nat) : (setSleep s g n).queues = s.queues := rfl
@[simp] theorem setSleep_barrow (s : State) (g n : Nat) : (setSleep s g n).barrow = s.barrow := rfl
@[simp] theorem setSleep_perf (s : State) (g n : Nat) : (setSleep s g n).perf = s.perf := rfl
@[simp] theorem setSleep_path (s : State) (g n : Nat) : (setSleep s g n).path = s.path := rfl
@[simp] theorem setSleep_settings (s : State) (g n : Nat) : (setSleep s g n).settings = s.settings := rfl
@[simp] theorem setSleep_stats (s : State) (g n : Nat) : (setSleep s g n).stats = s.stats := rfl
@[simp] theorem setSleep_draws (s : State) (g n : Nat) : (setSleep s g n).draws = s.draws := rfl
@[simp] theorem setSleep_out (s : State) (g n : Nat) : (setSleep s g n).out = s.out := rfl
@[simp] theorem setSleep_pending (s : State) (g n : Nat) : (setSleep s g n).pending = s.pending := rfl

@[simp] theorem folioStore_sys (s : State) (a : Nat) (bs : List Byte) : (folioStore s a bs).sys = s.sys := rfl
@[simp] theorem folioStore_mgmt (s : State) (a : Nat) (bs : List Byte) : (folioStore s a bs).mgmt = s.mgmt := rfl
@[simp] theorem folioStore_ledger (s : State) (a : Nat) (bs : List Byte) : (folioStore s a bs).ledger = s.ledger := rfl
@[simp] theorem folioStore_power (s : State) (a : Nat) (bs : List Byte) : (folioStore s a bs).power = s.power := rfl
@[simp] theorem folioStore_reserve (s : State) (a : Nat) (bs : List Byte) : (folioStore s a bs).reserve = s.reserve := rfl
@[simp] theorem folioStore_thermal (s : State) (a : Nat) (bs : List Byte) : (folioStore s a bs).thermal = s.thermal := rfl
@[simp] theorem folioStore_channels (s : State) (a : Nat) (bs : List Byte) : (folioStore s a bs).channels = s.channels := rfl
@[simp] theorem folioStore_ports (s : State) (a : Nat) (bs : List Byte) : (folioStore s a bs).ports = s.ports := rfl
@[simp] theorem folioStore_groups (s : State) (a : Nat) (bs : List Byte) : (folioStore s a bs).groups = s.groups := rfl
@[simp] theorem folioStore_easel (s : State) (a : Nat) (bs : List Byte) : (folioStore s a bs).easel = s.easel := rfl
@[simp] theorem folioStore_palette (s : State) (a : Nat) (bs : List Byte) : (folioStore s a bs).palette = s.palette := rfl
@[simp] theorem folioStore_crypt (s : State) (a : Nat) (bs : List Byte) : (folioStore s a bs).crypt = s.crypt := rfl
@[simp] theorem folioStore_directory (s : State) (a : Nat) (bs : List Byte) : (folioStore s a bs).directory = s.directory := rfl
@[simp] theorem folioStore_queues (s : State) (a : Nat) (bs : List Byte) : (folioStore s a bs).queues = s.queues := rfl
@[simp] theorem folioStore_barrow (s : State) (a : Nat) (bs : List Byte) : (folioStore s a bs).barrow = s.barrow := rfl
@[simp] theorem folioStore_perf (s : State) (a : Nat) (bs : List Byte) : (folioStore s a bs).perf = s.perf := rfl
@[simp] theorem folioStore_path (s : State) (a : Nat) (bs : List Byte) : (folioStore s a bs).path = s.path := rfl
@[simp] theorem folioStore_settings (s : State) (a : Nat) (bs : List Byte) : (folioStore s a bs).settings = s.settings := rfl
@[simp] theorem folioStore_stats (s : State) (a : Nat) (bs : List Byte) : (folioStore s a bs).stats = s.stats := rfl
@[simp] theorem folioStore_draws (s : State) (a : Nat) (bs : List Byte) : (folioStore s a bs).draws = s.draws := rfl
@[simp] theorem folioStore_out (s : State) (a : Nat) (bs : List Byte) : (folioStore s a bs).out = s.out := rfl
@[simp] theorem folioStore_pending (s : State) (a : Nat) (bs : List Byte) : (folioStore s a bs).pending = s.pending := rfl

@[simp] theorem imageStore_sys (s : State) (a : Nat) (bs : List Byte) : (imageStore s a bs).sys = s.sys := rfl
@[simp] theorem imageStore_mgmt (s : State) (a : Nat) (bs : List Byte) : (imageStore s a bs).mgmt = s.mgmt := rfl
@[simp] theorem imageStore_ledger (s : State) (a : Nat) (bs : List Byte) : (imageStore s a bs).ledger = s.ledger := rfl
@[simp] theorem imageStore_power (s : State) (a : Nat) (bs : List Byte) : (imageStore s a bs).power = s.power := rfl
@[simp] theorem imageStore_reserve (s : State) (a : Nat) (bs : List Byte) : (imageStore s a bs).reserve = s.reserve := rfl
@[simp] theorem imageStore_thermal (s : State) (a : Nat) (bs : List Byte) : (imageStore s a bs).thermal = s.thermal := rfl
@[simp] theorem imageStore_channels (s : State) (a : Nat) (bs : List Byte) : (imageStore s a bs).channels = s.channels := rfl
@[simp] theorem imageStore_ports (s : State) (a : Nat) (bs : List Byte) : (imageStore s a bs).ports = s.ports := rfl
@[simp] theorem imageStore_groups (s : State) (a : Nat) (bs : List Byte) : (imageStore s a bs).groups = s.groups := rfl
@[simp] theorem imageStore_easel (s : State) (a : Nat) (bs : List Byte) : (imageStore s a bs).easel = s.easel := rfl
@[simp] theorem imageStore_palette (s : State) (a : Nat) (bs : List Byte) : (imageStore s a bs).palette = s.palette := rfl
@[simp] theorem imageStore_crypt (s : State) (a : Nat) (bs : List Byte) : (imageStore s a bs).crypt = s.crypt := rfl
@[simp] theorem imageStore_directory (s : State) (a : Nat) (bs : List Byte) : (imageStore s a bs).directory = s.directory := rfl
@[simp] theorem imageStore_queues (s : State) (a : Nat) (bs : List Byte) : (imageStore s a bs).queues = s.queues := rfl
@[simp] theorem imageStore_barrow (s : State) (a : Nat) (bs : List Byte) : (imageStore s a bs).barrow = s.barrow := rfl
@[simp] theorem imageStore_perf (s : State) (a : Nat) (bs : List Byte) : (imageStore s a bs).perf = s.perf := rfl
@[simp] theorem imageStore_path (s : State) (a : Nat) (bs : List Byte) : (imageStore s a bs).path = s.path := rfl
@[simp] theorem imageStore_settings (s : State) (a : Nat) (bs : List Byte) : (imageStore s a bs).settings = s.settings := rfl
@[simp] theorem imageStore_stats (s : State) (a : Nat) (bs : List Byte) : (imageStore s a bs).stats = s.stats := rfl
@[simp] theorem imageStore_draws (s : State) (a : Nat) (bs : List Byte) : (imageStore s a bs).draws = s.draws := rfl
@[simp] theorem imageStore_out (s : State) (a : Nat) (bs : List Byte) : (imageStore s a bs).out = s.out := rfl
@[simp] theorem imageStore_pending (s : State) (a : Nat) (bs : List Byte) : (imageStore s a bs).pending = s.pending := rfl

@[simp] theorem folioQueue_sys (s : State) (cls : Nat) (task : FolioTask) (pages : List (Nat × List Byte)) : (folioQueue s cls task pages).sys = s.sys := rfl
@[simp] theorem folioQueue_mgmt (s : State) (cls : Nat) (task : FolioTask) (pages : List (Nat × List Byte)) : (folioQueue s cls task pages).mgmt = s.mgmt := rfl
@[simp] theorem folioQueue_ledger (s : State) (cls : Nat) (task : FolioTask) (pages : List (Nat × List Byte)) : (folioQueue s cls task pages).ledger = s.ledger := rfl
@[simp] theorem folioQueue_power (s : State) (cls : Nat) (task : FolioTask) (pages : List (Nat × List Byte)) : (folioQueue s cls task pages).power = s.power := rfl
@[simp] theorem folioQueue_reserve (s : State) (cls : Nat) (task : FolioTask) (pages : List (Nat × List Byte)) : (folioQueue s cls task pages).reserve = s.reserve := rfl
@[simp] theorem folioQueue_thermal (s : State) (cls : Nat) (task : FolioTask) (pages : List (Nat × List Byte)) : (folioQueue s cls task pages).thermal = s.thermal := rfl
@[simp] theorem folioQueue_channels (s : State) (cls : Nat) (task : FolioTask) (pages : List (Nat × List Byte)) : (folioQueue s cls task pages).channels = s.channels := rfl
@[simp] theorem folioQueue_ports (s : State) (cls : Nat) (task : FolioTask) (pages : List (Nat × List Byte)) : (folioQueue s cls task pages).ports = s.ports := rfl
@[simp] theorem folioQueue_groups (s : State) (cls : Nat) (task : FolioTask) (pages : List (Nat × List Byte)) : (folioQueue s cls task pages).groups = s.groups := rfl
@[simp] theorem folioQueue_easel (s : State) (cls : Nat) (task : FolioTask) (pages : List (Nat × List Byte)) : (folioQueue s cls task pages).easel = s.easel := rfl
@[simp] theorem folioQueue_palette (s : State) (cls : Nat) (task : FolioTask) (pages : List (Nat × List Byte)) : (folioQueue s cls task pages).palette = s.palette := rfl
@[simp] theorem folioQueue_crypt (s : State) (cls : Nat) (task : FolioTask) (pages : List (Nat × List Byte)) : (folioQueue s cls task pages).crypt = s.crypt := rfl
@[simp] theorem folioQueue_directory (s : State) (cls : Nat) (task : FolioTask) (pages : List (Nat × List Byte)) : (folioQueue s cls task pages).directory = s.directory := rfl
@[simp] theorem folioQueue_queues (s : State) (cls : Nat) (task : FolioTask) (pages : List (Nat × List Byte)) : (folioQueue s cls task pages).queues = s.queues := rfl
@[simp] theorem folioQueue_barrow (s : State) (cls : Nat) (task : FolioTask) (pages : List (Nat × List Byte)) : (folioQueue s cls task pages).barrow = s.barrow := rfl
@[simp] theorem folioQueue_perf (s : State) (cls : Nat) (task : FolioTask) (pages : List (Nat × List Byte)) : (folioQueue s cls task pages).perf = s.perf := rfl
@[simp] theorem folioQueue_path (s : State) (cls : Nat) (task : FolioTask) (pages : List (Nat × List Byte)) : (folioQueue s cls task pages).path = s.path := rfl
@[simp] theorem folioQueue_settings (s : State) (cls : Nat) (task : FolioTask) (pages : List (Nat × List Byte)) : (folioQueue s cls task pages).settings = s.settings := rfl
@[simp] theorem folioQueue_stats (s : State) (cls : Nat) (task : FolioTask) (pages : List (Nat × List Byte)) : (folioQueue s cls task pages).stats = s.stats := rfl
@[simp] theorem folioQueue_draws (s : State) (cls : Nat) (task : FolioTask) (pages : List (Nat × List Byte)) : (folioQueue s cls task pages).draws = s.draws := rfl
@[simp] theorem folioQueue_out (s : State) (cls : Nat) (task : FolioTask) (pages : List (Nat × List Byte)) : (folioQueue s cls task pages).out = s.out := rfl
@[simp] theorem folioQueue_pending (s : State) (cls : Nat) (task : FolioTask) (pages : List (Nat × List Byte)) : (folioQueue s cls task pages).pending = s.pending := rfl

@[simp] theorem bindTo_sys (s : State) (n : Nat) (via : Via) : (bindTo s n via).sys = s.sys := rfl
@[simp] theorem bindTo_folio (s : State) (n : Nat) (via : Via) : (bindTo s n via).folio = s.folio := rfl
@[simp] theorem bindTo_ledger (s : State) (n : Nat) (via : Via) : (bindTo s n via).ledger = s.ledger := rfl
@[simp] theorem bindTo_power (s : State) (n : Nat) (via : Via) : (bindTo s n via).power = s.power := rfl
@[simp] theorem bindTo_reserve (s : State) (n : Nat) (via : Via) : (bindTo s n via).reserve = s.reserve := rfl
@[simp] theorem bindTo_thermal (s : State) (n : Nat) (via : Via) : (bindTo s n via).thermal = s.thermal := rfl
@[simp] theorem bindTo_channels (s : State) (n : Nat) (via : Via) : (bindTo s n via).channels = s.channels := rfl
@[simp] theorem bindTo_ports (s : State) (n : Nat) (via : Via) : (bindTo s n via).ports = s.ports := rfl
@[simp] theorem bindTo_groups (s : State) (n : Nat) (via : Via) : (bindTo s n via).groups = s.groups := rfl
@[simp] theorem bindTo_easel (s : State) (n : Nat) (via : Via) : (bindTo s n via).easel = s.easel := rfl
@[simp] theorem bindTo_palette (s : State) (n : Nat) (via : Via) : (bindTo s n via).palette = s.palette := rfl
@[simp] theorem bindTo_crypt (s : State) (n : Nat) (via : Via) : (bindTo s n via).crypt = s.crypt := rfl
@[simp] theorem bindTo_directory (s : State) (n : Nat) (via : Via) : (bindTo s n via).directory = s.directory := rfl
@[simp] theorem bindTo_queues (s : State) (n : Nat) (via : Via) : (bindTo s n via).queues = s.queues := rfl
@[simp] theorem bindTo_barrow (s : State) (n : Nat) (via : Via) : (bindTo s n via).barrow = s.barrow := rfl
@[simp] theorem bindTo_perf (s : State) (n : Nat) (via : Via) : (bindTo s n via).perf = s.perf := rfl
@[simp] theorem bindTo_path (s : State) (n : Nat) (via : Via) : (bindTo s n via).path = s.path := rfl
@[simp] theorem bindTo_settings (s : State) (n : Nat) (via : Via) : (bindTo s n via).settings = s.settings := rfl
@[simp] theorem bindTo_stats (s : State) (n : Nat) (via : Via) : (bindTo s n via).stats = s.stats := rfl
@[simp] theorem bindTo_draws (s : State) (n : Nat) (via : Via) : (bindTo s n via).draws = s.draws := rfl
@[simp] theorem bindTo_out (s : State) (n : Nat) (via : Via) : (bindTo s n via).out = s.out := rfl
@[simp] theorem bindTo_pending (s : State) (n : Nat) (via : Via) : (bindTo s n via).pending = s.pending := rfl

@[simp] theorem releaseSession_sys (s : State) (n : Nat) : (releaseSession s n).sys = s.sys := rfl
@[simp] theorem releaseSession_folio (s : State) (n : Nat) : (releaseSession s n).folio = s.folio := rfl
@[simp] theorem releaseSession_ledger (s : State) (n : Nat) : (releaseSession s n).ledger = s.ledger := rfl
@[simp] theorem releaseSession_power (s : State) (n : Nat) : (releaseSession s n).power = s.power := rfl
@[simp] theorem releaseSession_reserve (s : State) (n : Nat) : (releaseSession s n).reserve = s.reserve := rfl
@[simp] theorem releaseSession_thermal (s : State) (n : Nat) : (releaseSession s n).thermal = s.thermal := rfl
@[simp] theorem releaseSession_channels (s : State) (n : Nat) : (releaseSession s n).channels = s.channels := rfl
@[simp] theorem releaseSession_ports (s : State) (n : Nat) : (releaseSession s n).ports = s.ports := rfl
@[simp] theorem releaseSession_groups (s : State) (n : Nat) : (releaseSession s n).groups = s.groups := rfl
@[simp] theorem releaseSession_easel (s : State) (n : Nat) : (releaseSession s n).easel = s.easel := rfl
@[simp] theorem releaseSession_palette (s : State) (n : Nat) : (releaseSession s n).palette = s.palette := rfl
@[simp] theorem releaseSession_crypt (s : State) (n : Nat) : (releaseSession s n).crypt = s.crypt := rfl
@[simp] theorem releaseSession_directory (s : State) (n : Nat) : (releaseSession s n).directory = s.directory := rfl
@[simp] theorem releaseSession_queues (s : State) (n : Nat) : (releaseSession s n).queues = s.queues := rfl
@[simp] theorem releaseSession_barrow (s : State) (n : Nat) : (releaseSession s n).barrow = s.barrow := rfl
@[simp] theorem releaseSession_perf (s : State) (n : Nat) : (releaseSession s n).perf = s.perf := rfl
@[simp] theorem releaseSession_path (s : State) (n : Nat) : (releaseSession s n).path = s.path := rfl
@[simp] theorem releaseSession_settings (s : State) (n : Nat) : (releaseSession s n).settings = s.settings := rfl
@[simp] theorem releaseSession_stats (s : State) (n : Nat) : (releaseSession s n).stats = s.stats := rfl
@[simp] theorem releaseSession_draws (s : State) (n : Nat) : (releaseSession s n).draws = s.draws := rfl
@[simp] theorem releaseSession_out (s : State) (n : Nat) : (releaseSession s n).out = s.out := rfl
@[simp] theorem releaseSession_pending (s : State) (n : Nat) : (releaseSession s n).pending = s.pending := rfl

@[simp] theorem afterOutside_sys (s : State) : (afterOutside s).sys = s.sys := rfl
@[simp] theorem afterOutside_mgmt (s : State) : (afterOutside s).mgmt = s.mgmt := rfl
@[simp] theorem afterOutside_folio (s : State) : (afterOutside s).folio = s.folio := rfl
@[simp] theorem afterOutside_ledger (s : State) : (afterOutside s).ledger = s.ledger := rfl
@[simp] theorem afterOutside_power (s : State) : (afterOutside s).power = s.power := rfl
@[simp] theorem afterOutside_reserve (s : State) : (afterOutside s).reserve = s.reserve := rfl
@[simp] theorem afterOutside_thermal (s : State) : (afterOutside s).thermal = s.thermal := rfl
@[simp] theorem afterOutside_channels (s : State) : (afterOutside s).channels = s.channels := rfl
@[simp] theorem afterOutside_ports (s : State) : (afterOutside s).ports = s.ports := rfl
@[simp] theorem afterOutside_groups (s : State) : (afterOutside s).groups = s.groups := rfl
@[simp] theorem afterOutside_easel (s : State) : (afterOutside s).easel = s.easel := rfl
@[simp] theorem afterOutside_palette (s : State) : (afterOutside s).palette = s.palette := rfl
@[simp] theorem afterOutside_crypt (s : State) : (afterOutside s).crypt = s.crypt := rfl
@[simp] theorem afterOutside_directory (s : State) : (afterOutside s).directory = s.directory := rfl
@[simp] theorem afterOutside_queues (s : State) : (afterOutside s).queues = s.queues := rfl
@[simp] theorem afterOutside_barrow (s : State) : (afterOutside s).barrow = s.barrow := rfl
@[simp] theorem afterOutside_perf (s : State) : (afterOutside s).perf = s.perf := rfl
@[simp] theorem afterOutside_settings (s : State) : (afterOutside s).settings = s.settings := rfl
@[simp] theorem afterOutside_stats (s : State) : (afterOutside s).stats = s.stats := rfl
@[simp] theorem afterOutside_draws (s : State) : (afterOutside s).draws = s.draws := rfl
@[simp] theorem afterOutside_out (s : State) : (afterOutside s).out = s.out := rfl
@[simp] theorem afterOutside_pending (s : State) : (afterOutside s).pending = s.pending := rfl

theorem railOf_modRail (s : State) (r i : Nat) (f : RailRec → RailRec) :
    railOf (modRail s r f) i = if i = r then f (railOf s r) else railOf s i :=
  tabGet_mod _ r i f

@[simp] theorem railOf_modRail_self (s : State) (r : Nat) (f : RailRec → RailRec) :
    railOf (modRail s r f) r = f (railOf s r) :=
  tabGet_mod_self _ r f

theorem domainOf_modDomain (s : State) (k i : Nat) (f : DomainRec → DomainRec) :
    domainOf (modDomain s k f) i = if i = k then f (domainOf s k) else domainOf s i :=
  tabGet_mod _ k i f

@[simp] theorem domainOf_modDomain_self (s : State) (k : Nat) (f : DomainRec → DomainRec) :
    domainOf (modDomain s k f) k = f (domainOf s k) :=
  tabGet_mod_self _ k f

theorem channelOf_modChannel (s : State) (c i : Nat) (f : ChannelRec → ChannelRec) :
    channelOf (modChannel s c f) i = if i = c then f (channelOf s c) else channelOf s i :=
  tabGet_mod _ c i f

@[simp] theorem channelOf_modChannel_self (s : State) (c : Nat) (f : ChannelRec → ChannelRec) :
    channelOf (modChannel s c f) c = f (channelOf s c) :=
  tabGet_mod_self _ c f

theorem portOf_modPort (s : State) (p i : Nat) (f : PortRec → PortRec) :
    portOf (modPort s p f) i = if i = p then f (portOf s p) else portOf s i :=
  tabGet_mod _ p i f

@[simp] theorem portOf_modPort_self (s : State) (p : Nat) (f : PortRec → PortRec) :
    portOf (modPort s p f) p = f (portOf s p) :=
  tabGet_mod_self _ p f

theorem sessionOf_modSession (s : State) (n i : Nat) (f : Session → Session) :
    sessionOf (modSession s n f) i = if i = n then f (sessionOf s n) else sessionOf s i :=
  tabGet_mod _ n i f

@[simp] theorem sessionOf_modSession_self (s : State) (n : Nat) (f : Session → Session) :
    sessionOf (modSession s n f) n = f (sessionOf s n) :=
  tabGet_mod_self _ n f

theorem groupOf_modGroup (s : State) (g i : Nat) (f : GroupRec → GroupRec) :
    groupOf (modGroup s g f) i = if i = g then f (groupOf s g) else groupOf s i :=
  tabGet_mod _ g i f

@[simp] theorem groupOf_modGroup_self (s : State) (g : Nat) (f : GroupRec → GroupRec) :
    groupOf (modGroup s g f) g = f (groupOf s g) :=
  tabGet_mod_self _ g f

theorem queueOf_modQueue (s : State) (q i : Nat) (f : QueueRec → QueueRec) :
    queueOf (modQueue s q f) i = if i = q then f (queueOf s q) else queueOf s i :=
  tabGet_mod _ q i f

@[simp] theorem queueOf_modQueue_self (s : State) (q : Nat) (f : QueueRec → QueueRec) :
    queueOf (modQueue s q f) q = f (queueOf s q) :=
  tabGet_mod_self _ q f

theorem rangeRec_modRange (s : State) (r i : Nat) (f : RangeRec → RangeRec) :
    rangeRec (modRange s r f) i = if i = r then f (rangeRec s r) else rangeRec s i :=
  tabGet_mod _ r i f

@[simp] theorem rangeRec_modRange_self (s : State) (r : Nat) (f : RangeRec → RangeRec) :
    rangeRec (modRange s r f) r = f (rangeRec s r) :=
  tabGet_mod_self _ r f

theorem easelLine_modLine (s : State) (p i : Nat) (f : EaselLine → EaselLine) :
    easelLine (modLine s p f) i = if i = p then f (easelLine s p) else easelLine s i :=
  tabGet_mod _ p i f

@[simp] theorem easelLine_modLine_self (s : State) (p : Nat) (f : EaselLine → EaselLine) :
    easelLine (modLine s p f) p = f (easelLine s p) :=
  tabGet_mod_self _ p f

theorem barrowOf_modBarrow (s : State) (c i : Nat) (f : BarrowRec → BarrowRec) :
    barrowOf (modBarrow s c f) i = if i = c then f (barrowOf s c) else barrowOf s i :=
  tabGet_mod _ c i f

@[simp] theorem barrowOf_modBarrow_self (s : State) (c : Nat) (f : BarrowRec → BarrowRec) :
    barrowOf (modBarrow s c f) c = f (barrowOf s c) :=
  tabGet_mod_self _ c f

theorem dirEntry_modEntry (s : State) (e i : Nat) (f : DirEntry → DirEntry) :
    dirEntry (modEntry s e f) i = if i = e then f (dirEntry s e) else dirEntry s i :=
  tabGet_mod _ e i f

@[simp] theorem dirEntry_modEntry_self (s : State) (e : Nat) (f : DirEntry → DirEntry) :
    dirEntry (modEntry s e f) e = f (dirEntry s e) :=
  tabGet_mod_self _ e f

theorem setting_setSetting (s : State) (idx sub i j : Nat) (v : Int) :
    setting (setSetting s idx sub v) i j = if objKey i j = objKey idx sub then v else setting s i j :=
  tabGet_set _ _ _ v

@[simp] theorem setting_setSetting_self (s : State) (idx sub : Nat) (v : Int) :
    setting (setSetting s idx sub v) idx sub = v :=
  tabGet_set_self _ _ v

theorem stat_setStat (s : State) (idx sub i j : Nat) (v : Int) :
    stat (setStat s idx sub v) i j = if objKey i j = objKey idx sub then v else stat s i j :=
  tabGet_set _ _ _ v

@[simp] theorem stat_setStat_self (s : State) (idx sub : Nat) (v : Int) : stat (setStat s idx sub v) idx sub = v :=
  tabGet_set_self _ _ v

theorem stat_bump (s : State) (idx sub n i j : Nat) :
    stat (bump s idx sub n) i j =
      if objKey i j = objKey idx sub then (stat s idx sub + n) % (2 ^ statBits idx sub : Nat) else stat s i j :=
  tabGet_set _ _ _ _

theorem stat_clearStats (s : State) (idx lo n i j : Nat) :
    stat (clearStats s idx lo n) i j =
      if objKey idx lo ≤ objKey i j ∧ objKey i j < objKey idx lo + n then objDefault (objKey i j) else stat s i j :=
  tabGet_modRange _ _ _ n _

end Sys2Proof.Machine
end

