-- ==== Sys2Proof/Laws/Serve.lean ====
section
/-! SUPPORT. Laws/Serve.lean: what a management request that passes its checks does (R424, R431, R450): a write takes its effect
or joins the staging set, a read answers its value; and what a rejected one does (R433). -/

namespace Sys2Proof.Machine

theorem sessionFor_sys {s s' : State} {via : Via} {n : Nat} (h : sessionFor s via = some (n, s')) : s'.sys = s.sys := by
  unfold sessionFor at h
  (repeat' split at h) <;> cases h <;> rfl

theorem stateCheck_ready {s : State} {via : Via} {level : Level} {n : Nat} {s' : State} (h : Ready s via level n s')
    (idx sub : Nat) : stateCheck s' idx sub = .ok () := by
  have hs := sessionFor_sys h.session
  unfold stateCheck
  rw [hs, h.recalled]
  simp [h.awake]

theorem writeChecks_ready {s : State} {via : Via} {level : Level} {n : Nat} {s' : State} (h : Ready s via level n s')
    {idx sub : Nat} {data : List Byte} (hw : writeFits level idx sub data = true) :
    ∃ r, writeChecks s' (sessionOf s' n).level idx sub data = .ok r ∧ r.staged = false := by
  have hl := h.allowed
  unfold writeFits at hw
  unfold writeChecks
  split at hw
  · rename_i r hr
    rw [hr]
    simp only [stateCheck_ready h]
    simp only [Bool.and_eq_true, Bool.not_eq_true', Bool.or_eq_false_iff, beq_eq_false_iff_ne, ne_eq,
      decide_eq_true_eq] at hw
    obtain ⟨⟨⟨⟨⟨h1, h2⟩, h3⟩, h4⟩, h5⟩, h6⟩ := hw
    refine ⟨r, ?_, h6⟩
    rw [if_neg (by simp [h1, h2]), if_neg (by simp [h3]), if_neg (by omega), if_neg (by simp [h5])]
  · cases hw

/-- A write that passes its checks takes its effect and is answered (R424, R450). -/
theorem served_ready {s : State} {via : Via} {level : Level} {n : Nat} {s' t : State} (h : Ready s via level n s')
    {idx sub : Nat} {data : List Byte} (hw : writeFits level idx sub data = true)
    {eff : Nat → State → Except Nat State} (he : eff n s' = .ok t) :
    served s via idx sub data eff = accept t via n (plainTag via) [] := by
  obtain ⟨r, hr, hst⟩ := writeChecks_ready h hw
  unfold served serveTagged
  rw [if_pos h.isOpen, h.session]
  simp only [hr, hst, he, Bool.false_eq_true, if_false]

/-- A read that passes its checks answers its value. -/
theorem serveRead_ready {s : State} {via : Via} {level : Level} {n : Nat} {s' t : State} (h : Ready s via level n s')
    {tag idx sub : Nat} {bs : List Byte}
    (hr : (match objRow? idx sub with | some r => !(r.access == .wo) | none => false) = true)
    {value : Nat → State → Except Nat (List Byte × State)} (he : value n s' = .ok (bs, t)) :
    serveRead s via tag idx sub value = accept t via n tag bs := by
  have hc : ∃ u, readChecks s' idx sub = .ok u := by
    unfold readChecks
    split at hr
    · rename_i r hrr
      rw [hrr]
      simp only [stateCheck_ready h]
      simp only [Bool.not_eq_true', beq_eq_false_iff_ne, ne_eq] at hr
      exact ⟨r, by simp [hr]⟩
    · cases hr
  obtain ⟨u, hu⟩ := hc
  unfold serveRead
  rw [if_pos h.isOpen, h.session]
  simp only [hu, he]

end Sys2Proof.Machine
end

