-- ==== Sys2Proof/Tests/Slice0.lean ====
section
/-! SUPPORT. Tests/Slice0.lean: ill-formed terms, the worked examples of the spec, and for the statements of
Certificates/Slice0/Obligations.lean states and operands that meet their hypotheses. Every expected value of an example is the
text's; no test stands for a statement. -/

set_option maxRecDepth 100000
set_option Elab.async false
namespace Sys2Proof.Tests
open Sys2Proof Sys2Proof.Machine

/-! Ill-formed operands: one term for each check of WellFormed.lean, which the check refuses. -/

theorem test_ill_formed_path : (Instr.commit (.can 0)).wellFormed = false := by decide
theorem test_ill_formed_data : dataOk (List.replicate 265 0) = false ∧ dataOk (List.replicate 264 0) = true := by decide
theorem test_ill_formed_write : (Instr.objectWrite (.mailbox 0) 0x2300 2 (List.replicate 265 0)).wellFormed = false := by decide
theorem test_ill_formed_node : (Instr.usdoUpload 0 0x2300 2).wellFormed = false := by decide
theorem test_ill_formed_address : (Instr.entdaa 0).wellFormed = false := by decide
theorem test_ill_formed_line : (Instr.hostRead 0 0 65 0 .none .none).wellFormed = false := by decide
theorem test_well_formed_line : (Instr.hostRead 0 0 128 0 .none .none).wellFormed = true := by decide
theorem test_ill_formed_frame : (Instr.i3cRequest (List.replicate 289 0)).wellFormed = false := by decide
theorem test_ill_formed_scan : (Instr.thermalScan []).wellFormed = false := by decide

/-! Worked examples of the spec, by hand from its text. -/

/-- Chapter 3, worked example: DPA 0x0ABC_DEF1_2340 in spread interleave over eight JT384 groups. -/
theorem test_locate_spread :
    locate { spread := 57344, contain := List.replicate 8 (0, 0, 0) } 0x0ABCDEF12340 = some (2, 0x55E6F788D) := by decide

/-- Chapter 3, worked example: the expanded key and the scattered offset. -/
theorem test_feistel : feistelKey 0x5AC3F0961E 0x7B29 = 0x21EA8BBF65 ∧ feistel 0xF788D 0x5AC3F0961E 0x7B29 = 0x874FA := by decide

/-- Chapter 3, worked example: start and gap. -/
theorem test_slot : slotOf { start := 500000, gap := 600000, key := 0x7B29 } 0x874FA = 5658 := by decide

/-- Chapter 3, worked example: the patch address of the slot, and of the spare of column 5. -/
theorem test_patch_address :
    regionBase State.reset 2 12345 + 5658 = 0x303998737 ∧ spareBase State.reset 2 + 1234567 = 0x7801DAE87 := by decide

/-- Chapter 3, worked example: the remap entry of column 5, slot 5,658, spare 1,234,567. -/
theorem test_remap_entry :
    remapEntry (leBytes 8 0xD00B0D000012D687 ++ List.replicate 56 0) 5658 5 = some (0, 1234567) := by decide +kernel

/-- Chapter 4, worked example: tag, set, bank and row of a line, and its mirror tag words' row. -/
theorem test_easel_place :
    easelTag 0x2AF37BC48D = 0xABCDE ∧ easelSet 0x2AF37BC48D = 0x3D764 ∧ placeBank (16 * 0x3D764) = 36 ∧
    placeRow (16 * 0x3D764) = 3933 ∧ (mirrorPlace (16 * 0x3D764)).2 = 3933 := by decide

/-- Chapter 12, worked example: the directory set of a line. -/
theorem test_directory_set : dirTag 0x2AF37BC48D = 0x1579B ∧ dirSet 0x2AF37BC48D = 0x0EBD3D := by decide

/-- Chapter 10, worked example: the RD frames of channels 16 and 21. -/
theorem test_read_frames :
    caBits 1 (addrBody 0x303998737 + 35 * 8) = 0x137607330F19 ∧ caBits 1 (addrBody 0x7801DAE87 + 34 * 8) = 0x187F003B5D10 := by
  decide

/-- R37, worked example: the address field of a host line is its DPA. -/
theorem test_address_field : addressField (.host (0x0ABCDEF12340 / 64)) = 0x0ABCDEF12340 := by decide

/-- R34, worked example: payload byte 37 is on column 5, MAC byte 66 and parity symbol 90 on column 2. -/
theorem test_columns : 37 ∈ columnSymbols 5 ∧ 66 ∈ columnSymbols 2 ∧ 90 ∈ columnSymbols 2 ∧ (columnSymbols 5).idxOf 37 = 4 := by
  decide

/-- Chapter 5, worked example: the budget of the aged 6 mF bank at 14.0 V and its shares. -/
def agedBank : State :=
  { reserve := { c1 := 6000, c2 := 6000, esr := 120, vres := 14000, status := 3 } }

theorem test_budget_aged : budgetFormula { agedBank with reserve := { agedBank.reserve with esr := 120 } } 14000 = 2539411 := by
  decide +kernel

theorem test_budget_shares :
    (sizeShares agedBank 2539411).reserve.deviceShare = 131072 ∧ portShareOf (sizeShares agedBank 2539411) 3 = 602084 := by
  decide +kernel

/-- Chapter 5, worked example: the healthy 10 mF bank. -/
theorem test_budget_healthy :
    budgetFormula { agedBank with reserve := { agedBank.reserve with c1 := 10000, c2 := 10000 } } 14000 = 5479411 := by
  decide +kernel

/-- A part whose temperature step [2820.09] is 10 °C. -/
def tenDegrees : State := { stats := [(objKey 0x2820 9, 10)] }

/-- Chapter 9, worked example: buckets, the temperature shift and the code of channels 16 and 21. -/
theorem test_drift_buckets : bucketFor 13 = 4 ∧ bucketFor 40 = 6 ∧ bucketFor 25 = 5 := by decide

theorem test_temperature_shift :
    tshift tenDegrees 62 = -2 ∧ tshift tenDegrees 71 = -3 ∧ tshift tenDegrees 30 = 1 := by decide +kernel

/-- Chapter 18, worked example: tally 150 stands at 37 with cells 5 to 15 at 37 to 47 and cells 0 to 4 at 48 to 52. -/
def tally150 : Folio :=
  { bytes := (List.range 16).foldl (fun m j =>
      tabSetList dFolio m (0x50000 + 64 * 150 + 4 * j) (leBytes 4 (if j < 5 then 48 + j else 32 + j))) [] }

theorem test_tally_count : tallyCount { folio := tally150 } 150 = 37 := by decide +kernel

theorem test_tally_new_cell :
    tallyCount { folio := { tally150 with bytes := tabSetList dFolio tally150.bytes (0x50000 + 64 * 150 + 20) (leBytes 4 53) } }
      150 = 38 := by decide +kernel

theorem test_tally_torn_cell :
    tallyCount { folio := { tally150 with
      bytes := tabSetList dFolio tally150.bytes (0x50000 + 64 * 150 + 20) (leBytes 4 0xF35) } } 150 = 37 := by decide +kernel

/-! The queue of commands. -/

theorem test_front_of_queue :
    step { State.reset with pending := [.warnWindowEnd, .sync] } =
      exec .warnWindowEnd { State.reset with pending := [.sync] } := rfl

theorem test_no_word_spells_a_command : decodeTableWord 32 0 = none ∧ State.reset.withFetchWord 32 0 = State.reset := ⟨rfl, rfl⟩

end Sys2Proof.Tests

namespace Sys2Proof.Tests.Base
open Sys2Proof Sys2Proof.Machine

/-! States that the witnesses share. -/

/-- The conditions of `Ready`, as a test. -/
def readyB (s : State) (via : Via) (level : Level) : Bool :=
  pathOpen s via && (match sessionFor s via with
    | some (n, s') => decide (levelNum level ≤ levelNum (sessionOf s' n).level)
    | none => false) && !s.sys.recalling && decide (s.sys.dev ≠ .standby)

/-- The session a request is bound to. -/
def sfN (s : State) (via : Via) : Nat := match sessionFor s via with | some (n, _) => n | none => 99

/-- The state once its session is bound. -/
def sfS (s : State) (via : Via) : State := match sessionFor s via with | some (_, s') => s' | none => s

/-- A request that passes `readyB` is `Ready`. -/
theorem ready_of (s : State) (via : Via) (level : Level) (h : readyB s via level = true) :
    Ready s via level (sfN s via) (sfS s via) := by
  unfold readyB at h
  unfold sfN sfS
  cases hs : sessionFor s via with
  | none => simp [hs] at h
  | some p =>
    simp only [hs, Bool.and_eq_true, decide_eq_true_eq, Bool.not_eq_true'] at h
    exact ⟨h.1.1.1, hs, h.1.1.2, h.1.2, h.2⟩

/-- a served maintainer session -/
def m : Mgmt := { sessions := [(4, { client := some (.can 5), level := .maintainer })] }

def a : State := { mgmt := m, sys := { dev := .active, corePll := true, memoryActive := true } }

def v : Via := .can 5

/-- the data path in service: eight groups, region 0 mapped, range 0 open, port 0 with one decoder, a budget -/
def D : State :=
  { mgmt := m, sys := { dev := .active, corePll := true, memoryActive := true, openRecordDone := true },
    path := { layout := { spread := 3584, contain := List.replicate 8 (0, 0, 0) } },
    groups := (List.range 8).map (fun g => (g, { table := [(0, { mapped := true })], free := [14341, 14342, 14343, 14344], journals := [14340] })),
    crypt := { ranges := [(0, { state := 2 })] },
    reserve := { c1 := 6000, c2 := 6000, vres := 16000, status := 3, wt := false, writeThrough := false, budget := 100000, deviceShare := 12500, portShare := [(0, 100), (1, 100), (2, 100), (3, 100)], bleedEn := false },
    ports := (List.range 4).map (fun p => (p, { link := 3, decoders := [(0, { base := 0, dpa := 0, size := 28672, ways := 1, gran := 256, committed := true })] })),
    power := { domains := (List.range 8).map (fun k => (k, { phase := .good })), rails := (List.range 30).map (fun r => (r, { enabled := true, running := true })) },
    channels := (List.range 64).map (fun c => (c, { state := 2, trained := true, parked := false, temp := some 30 })) }

/-- the same, its first access window shared by no ports -/
def U : State := { D with settings := [(objKey 0x2B30 4, 0)] }

abbrev O := Host.Outcome State Fault Refusal

def go (s : State) (f : State → O) : State := match f s with | .next t => t | _ => s

def gos (s : State) (fs : List (State → O)) : State := fs.foldl go s


def dat : Line := 0x1234567#512

/-- the stored patches of line 64 holding `dat` -/
def md1 : Tab Patch :=
  [(274878464000, 20067773703982673530492044154), (309238202368, 19119348157928016659692728746),
    (343597940736, 149443836359008546089347443), (377957679104, 61395908074969217129615223089),
    (412317417472, 24883323091837919463804395256), (446677155840, 35173697134412832819845301542),
    (481036894208, 37896202112968286507737809240), (515396632576, 76010003218584104848982830109)]

/-- the stored patches of line 64 as a poison tile -/
def md2 : Tab Patch :=
  [(274878464000, 39269197388155232867525328896), (309238202368, 73662707220841491750201589760),
    (343597940736, 52495478651847980571269529600), (377957679104, 76687944914730960997354307584),
    (412317417472, 68405882188906591569800331264), (446677155840, 66015812231696055343180152832),
    (481036894208, 41671673002116267652121886720), (515396632576, 7772184094302450964186005504)]

/-- what the first decodes to, and the second -/
def held1 : List Byte := leBytes 80 0x819d27ac43f0169f3df6746002fd5fbdd49a7757cdd2b6d0812d741cd9e073f34412063defaef12cc2c45f2344c46f8dd6738bc23c8478de586c75e46c01855e692931431d5826f83173aa7a

def held2 : List Byte := leBytes 80 0x5c83e5db8000000000000000000000000000000000000000000000000000000000000000000000000000000000000000000000000000000000000000000000000000000000000000000000000

/-- the state, its line 64 stored -/
def stored (m : Tab Patch) : State :=
  { U with
    path := { U.path with medium := m }
    groups := tabMod dGroup U.groups 1 (fun g =>
      { g with regions := [(0, { gap := 1048576, count := 1 })], filterCur := [(0, true)] }) }

/-- line 64 stored and in the Easel -/
def c1 : State := { stored md1 with easel := { lines := [(1024, { valid := true, vk := true, data := dat })] } }

/-- the same line with a way at its fill, a host read waiting -/
def fillOf (m : Tab Patch) : State :=
  { stored m with
    easel :=
      { lines := [(1024, { valid := true, fill := true })]
        reads := [(0, { line := 64, kind := 0, place := 1024 })]
        nextRead := 1
        waits := [{ line := 64, who := .host 0 10, warm := true }] } }

def rd : State := fillOf md1

def prd : State := fillOf md2

/-- a destage in flight -/
def f0 : DestageRec := { place := 1024, line := 64, version := 0, code := List.replicate 96 5 }

/-- line 64 written, its destage in queue -/
def w1 : State :=
  { U with
    easel := { lines := [(1024, { valid := true, dirty := true, queued := true, charge := 1, data := dat })] }
    groups := tabMod dGroup U.groups 1 (fun g => { g with destages := [(4, 1024)] }) }

/-- line 64 written, its destage granted -/
def g1 : State :=
  { U with
    easel :=
      { lines := [(1024, { valid := true, dirty := true, flight := true, charge := 1, data := dat })]
        flights := [f0] }
    groups := c1.groups }

/-- the same line written again during the flight -/
def g1w : State :=
  { g1 with
    easel :=
      { g1.easel with
        lines := [(1024, { valid := true, dirty := true, flight := true, written := true, charge := 1, data := 0x55 })] } }


/-- every port open to back-invalidation -/
def B : State := { D with ports := (List.range 4).map (fun p => (p, { link := 3, bi := true, decoders := [(0, { base := 0, dpa := 0, size := 28672, ways := 1, gran := 256, committed := true })] })) }

def dirE (e : List (Nat × DirEntry)) (x : State := B) : State := { x with directory := { x.directory with entries := e } }

def ex1 : State := dirE [(1024, { tag := 0, presence := 2, exclusive := true, touch := 1 })]

def ex12 : State := dirE [(1024, { tag := 0, presence := 6, exclusive := false, touch := 1 })]

/-- a snoop round of line 64 for a read by port 0 -/
def roundFor (ports : List Nat) : SnoopRound :=
  { line := 64, waiting := ports, request := some (.read { line := 64, who := .host 0 7, metaValue := 2, warm := true }) }

def inRound (r : SnoopRound) (s : State) : State := { s with directory := { s.directory with rounds := [r] } }

def rq : State := inRound (roundFor [1]) ex1

def rq2 : State := inRound (roundFor [1, 2]) ex12

def ev1 : State := dirE ((List.range 16).map (fun i => (1024 + i, { tag := i, presence := 1, touch := 20 - i })))

def ev2 : State := inRound { line := 31457456, waiting := [0] } ev1

def ev3 : State := { ev1 with ports := [] }


end Sys2Proof.Tests.Base

namespace Sys2Proof.Tests.G01
open Sys2Proof Sys2Proof.Machine Sys2Proof.Tests.Base

def lo : State := { a with mgmt := { sessions := [(4, { client := some v })], maintEnable := true } }

def lo2 : State := { lo with mgmt := { lo.mgmt with maintEnable := false } }

def lo3 : State := { lo with mgmt := { lo.mgmt with lockedOut := [(4, true)], refusals := [(4, 3)] } }

def sg (x : List (Nat × List Byte)) : State := { a with mgmt := { sessions := [(4, { client := some v, level := .maintainer, staged := x })] } }

def sg2 : State := sg [(objKey 0x2410 1, [25])]

def sg3 : State := sg [(objKey 0x2410 1, [26])]

def sg4 : State := sg ((List.range 64).map (fun i => (objKey 0x2200 1 + 65536 * (i + 1), [0, 0])))

def se1 : State := { a with mgmt := { sessions := [(4, { client := some v, level := .maintainer, segment := 77 })]} }

/-- States and operands that meet the hypotheses of `Obligations.StatisticsClearsOfTheDataPath`, clause by clause. -/
theorem witness_StatisticsClearsOfTheDataPath :
    readyB a v Level.operator = true :=
  by decide +kernel

/-- States and operands that meet the hypotheses of `Obligations.StatisticsClearsOfThePortsAndServices`, clause by clause. -/
theorem witness_StatisticsClearsOfThePortsAndServices :
    readyB a v Level.operator = true :=
  by decide +kernel

/-- States and operands that meet the hypotheses of `Obligations.LevelRequests`, clause by clause. -/
theorem witness_LevelRequests :
    (readyB a v Level.observer = true ∧ BitVec.toNat (0 : Byte) ≤ levelNum (sessionOf (sfS a v) (sfN a v)).level) ∧
    (readyB lo v Level.observer = true ∧ (1 : Byte) = (1 : Byte) ∧ (sessionOf (sfS lo v) (sfN lo v)).level = Level.observer ∧
      tabGet dBool (sfS lo v).mgmt.lockedOut (pathOf v) = false ∧ (BitVec.ofNat 32 0).toNat = settingN (sfS lo v) 8209 1) ∧
    (readyB lo v Level.observer = true ∧ ((1 : Byte) = (1 : Byte) ∨ (1 : Byte) = (2 : Byte) ∧
      (sfS lo v).mgmt.maintEnable = true) ∧ levelNum (sessionOf (sfS lo v) (sfN lo v)).level < BitVec.toNat (1 : Byte) ∧
      tabGet dBool (sfS lo v).mgmt.lockedOut (pathOf v) = false ∧
      (BitVec.ofNat 32 7).toNat ≠ settingN (sfS lo v) 8209 (BitVec.toNat (1 : Byte))) ∧
    (readyB lo v Level.observer = true ∧ (2 : Byte) = (2 : Byte) ∧ (sessionOf (sfS lo v) (sfN lo v)).level ≠ Level.maintainer ∧
      tabGet dBool (sfS lo v).mgmt.lockedOut (pathOf v) = false ∧ (sfS lo v).mgmt.maintEnable = true ∧
      (BitVec.ofNat 32 0).toNat = settingN (sfS lo v) 8209 2) ∧
    (readyB lo2 v Level.observer = true ∧ (3 ≤ BitVec.toNat (2 : Byte) ∨ (2 : Byte) = (2 : Byte) ∧
      (sfS lo2 v).mgmt.maintEnable = false ∧ (sessionOf (sfS lo2 v) (sfN lo2 v)).level ≠ Level.maintainer ∧
      tabGet dBool (sfS lo2 v).mgmt.lockedOut (pathOf v) = false)) :=
  ⟨by decide +kernel,
    by decide +kernel,
    by decide +kernel,
    by decide +kernel,
    by decide +kernel⟩

/-- States and operands that meet the hypotheses of `Obligations.SessionsAndLockouts`, clause by clause. -/
theorem witness_SessionsAndLockouts :
    readyB lo3 v Level.observer = true ∧ levelNum (sessionOf (sfS lo3 v) (sfN lo3 v)).level < BitVec.toNat (1 : Byte) ∧
      BitVec.toNat (1 : Byte) < 3 ∧ tabGet dBool (sfS lo3 v).mgmt.lockedOut (pathOf v) = true :=
  by decide +kernel

/-- States and operands that meet the hypotheses of `Obligations.StagingSets`, clause by clause. -/
theorem witness_StagingSets :
    (readyB sg2 v { idxLo := 9232, idxHi := 9232, subLo := 1, subHi := 4, ty := ObjType.u8, access := Access.rw, staged := true, level := Level.maintainer, dflt := (25 : ℤ), ranges := [((0 : ℤ), (100 : ℤ))], mult := 1, pers := Persistence.p : ObjRow }.level = true ∧ ∃ e ∈ (sessionOf (sfS sg2 v) (sfN sg2 v)).staged, e.1 = objKey (BitVec.ofNat 16 9232).toNat (BitVec.ofNat 8 1).toNat) ∧
    (readyB a v { idxLo := 9232, idxHi := 9232, subLo := 1, subHi := 4, ty := ObjType.u8, access := Access.rw, staged := true, level := Level.maintainer, dflt := (25 : ℤ), ranges := [((0 : ℤ), (100 : ℤ))], mult := 1, pers := Persistence.p : ObjRow }.level = true ∧ (∀ e ∈ (sessionOf (sfS a v) (sfN a v)).staged, e.1 ≠ objKey (BitVec.ofNat 16 9232).toNat (BitVec.ofNat 8 1).toNat) ∧ (sessionOf (sfS a v) (sfN a v)).staged.length < 64) ∧
    (readyB sg4 v { idxLo := 9232, idxHi := 9232, subLo := 1, subHi := 4, ty := ObjType.u8, access := Access.rw, staged := true, level := Level.maintainer, dflt := (25 : ℤ), ranges := [((0 : ℤ), (100 : ℤ))], mult := 1, pers := Persistence.p : ObjRow }.level = true ∧ (∀ e ∈ (sessionOf (sfS sg4 v) (sfN sg4 v)).staged, e.1 ≠ objKey (BitVec.ofNat 16 9232).toNat (BitVec.ofNat 8 1).toNat) ∧ 64 ≤ (sessionOf (sfS sg4 v) (sfN sg4 v)).staged.length) ∧
    (readyB a v Level.observer = true ∧ (sessionOf (sfS a v) (sfN a v)).staged = []) ∧
    (readyB sg3 v Level.observer = true ∧ (sessionOf (sfS sg3 v) (sfN sg3 v)).staged ≠ [] ∧
      commitFault (sfS sg3 v) (sessionOf (sfS sg3 v) (sfN sg3 v)).level (sessionOf (sfS sg3 v) (sfN sg3 v)).staged =
      some 9219) ∧
    (readyB sg2 v Level.observer = true ∧ (sessionOf (sfS sg2 v) (sfN sg2 v)).staged ≠ [] ∧
      commitFault (sfS sg2 v) (sessionOf (sfS sg2 v) (sfN sg2 v)).level (sessionOf (sfS sg2 v) (sfN sg2 v)).staged = none) ∧
    (readyB a v Level.observer = true) :=
  ⟨by decide +kernel,
    by decide +kernel,
    by decide +kernel,
    by decide +kernel,
    by decide +kernel,
    by decide +kernel,
    by decide +kernel⟩

/-- States and operands that meet the hypotheses of `Obligations.ObjectWrites`, clause by clause. -/
theorem witness_ObjectWrites :
    readyB a v Level.maintainer = true :=
  by decide +kernel

/-- States and operands that meet the hypotheses of `Obligations.UploadsAndSegments`, clause by clause. -/
theorem witness_UploadsAndSegments :
    canSession? se1 (Via.can (BitVec.ofNat 7 5)) = some 4 ∧ (sessionOf se1 4).segment ≠ 0 ∧
      pathOpen se1 (Via.can (BitVec.ofNat 7 5)) = true :=
  by decide +kernel

end Sys2Proof.Tests.G01

namespace Sys2Proof.Tests.G09
open Sys2Proof Sys2Proof.Machine Sys2Proof.Tests.Base

def op : State := { a with mgmt := { a.mgmt with nmt := .operational, emcyQueue := [[1], [2]], syncCount := [(0, 2)], emcyInhibited := true }, settings := [(objKey 0x1015 0, 5), (objKey 0x1017 0, 10)] }

def bo : State := { a with mgmt := { a.mgmt with canError := 2 } }

def hb : State := { a with settings := [(objKey 0x1016 1, 0x050064), (objKey 0x1016 4, 0x060064)], mgmt := { a.mgmt with heartbeatLost := [(3, true)], errorSeen := 0x11 } }

/-- States and operands that meet the hypotheses of `Obligations.NmtAndCanServices`, clause by clause. -/
theorem witness_NmtAndCanServices :
    (canUp a = true) ∧
    (canUp op = true ∧ op.mgmt.nmt = Nmt.operational) ∧
    ((254 : ℕ) ≤ settingN op ((6144 : ℕ) + ↑(0 : Fin (8 : ℕ))) (2 : ℕ) ∧
      settingN op ((6144 : ℕ) + ↑(0 : Fin (8 : ℕ))) (5 : ℕ) ≠ (0 : ℕ) ∧ tpdoReady op ↑(0 : Fin (8 : ℕ)) = true) ∧
    (canUp a = true ∧ settingN a 4119 0 ≠ 0) ∧
    (canUp op = true ∧ emcyStates op = true ∧ op.mgmt.emcyQueue = [[(1 : Byte)], [(2 : Byte)]] ∧ 0 < settingN op 4117 0) ∧
    (a.mgmt.emcyQueue = []) ∧
    (bo.mgmt.canError = 2) ∧
    (readyB a v Level.operator = true) :=
  ⟨by decide +kernel,
    by decide +kernel,
    by decide +kernel,
    by decide +kernel,
    by decide +kernel,
    by decide +kernel,
    by decide +kernel,
    by decide +kernel⟩

/-- States and operands that meet the hypotheses of `Obligations.Heartbeats`, clause by clause. -/
theorem witness_Heartbeats :
    (settingB hb (8193 : ℕ) (1 : ℕ) = true ∧ (heartbeatEntry hb ↑(0 : Fin (4 : ℕ))).2 ≠ (0 : ℕ) ∧
      tabGet dBool hb.mgmt.heartbeatLost ↑(0 : Fin (4 : ℕ)) = false) ∧
    (canUp a = true) :=
  ⟨by decide +kernel,
    by decide +kernel⟩

end Sys2Proof.Tests.G09

namespace Sys2Proof.Tests.G11
open Sys2Proof Sys2Proof.Machine Sys2Proof.Tests.Base

def c0 : State := { a with settings := [(objKey 0x2002 1, 1)] }

def c1 : State := { c0 with mgmt := { a.mgmt with dynamicAddress := 9, i3cLast := some 1, sessions := [(4, { client := some v, level := .maintainer }), (13, { client := some (.i3c 1), response := [1,2], lastServed := some (0x55, numAt (withCrc [0x55, 1, 0,0,0,0,0]) 7 4, [7,7]) })] } }

def c2 : State := { c1 with mgmt := { c1.mgmt with i3cRefusal := [3], i3cLast := none } }

/-- States and operands that meet the hypotheses of `Obligations.I3cTarget`, clause by clause. -/
theorem witness_I3cTarget :
    (i3cOn c0 = true ∧ c0.mgmt.dynamicAddress = 0) ∧
    (i3cOn c1 = true ∧ c1.mgmt.dynamicAddress ≠ 0) ∧
    (i3cOn c0 = true) ∧
    (pathOpen c1 (Via.i3c (1 : Fin (4 : ℕ))) = true ∧
      frameOk (withCrc [(85 : Byte), (1 : Byte), (0 : Byte), (0 : Byte), (0 : Byte), (0 : Byte), (0 : Byte)]) = true ∧
      (sessionOf c1 ((12 : ℕ) + ↑(1 : Fin (4 : ℕ)))).lastServed =
      some (numAt (withCrc [(85 : Byte), (1 : Byte), (0 : Byte), (0 : Byte), (0 : Byte), (0 : Byte), (0 : Byte)]) (0 : ℕ) (1 : ℕ), numAt (withCrc [(85 : Byte), (1 : Byte), (0 : Byte), (0 : Byte), (0 : Byte), (0 : Byte), (0 : Byte)]) ((withCrc [(85 : Byte), (1 : Byte), (0 : Byte), (0 : Byte), (0 : Byte), (0 : Byte), (0 : Byte)]).length - (4 : ℕ)) (4 : ℕ), [(7 : Byte), (7 : Byte)])) ∧
    (pathOpen c1 (Via.i3c (1 : Fin (4 : ℕ))) = true ∧ frameOk [(85 : Byte), (0 : Byte)] = false) ∧
    (pathOpen c1 (Via.i3c (0 : Fin (4 : ℕ))) = true ∧ c1.mgmt.i3cRefusal = [] ∧ c1.mgmt.i3cLast = some (1 : Fin (4 : ℕ)) ∧
      (sessionOf c1 ((12 : ℕ) + ↑(1 : Fin (4 : ℕ)))).response ≠ []) ∧
    (pathOpen c2 (Via.i3c (0 : Fin (4 : ℕ))) = true ∧ c2.mgmt.i3cRefusal ≠ []) :=
  ⟨by decide +kernel,
    by decide +kernel,
    by decide +kernel,
    by decide +kernel,
    by decide +kernel,
    by decide +kernel,
    by decide +kernel⟩

/-- States and operands that meet the hypotheses of `Obligations.ParameterStores`, clause by clause. -/
theorem witness_ParameterStores :
    readyB a v Level.maintainer = true :=
  by decide +kernel

end Sys2Proof.Tests.G11

namespace Sys2Proof.Tests.G12
open Sys2Proof Sys2Proof.Machine Sys2Proof.Tests.Base

def on : RailRec := { enabled := true, running := true }

def rl (l : List (Nat × RailRec)) (x : Power := {}) : State := { a with power := { x with rails := sortBy (fun x y => decide (x.1 ≤ y.1)) l } }

def up : RailRec := { enabled := true, count := some 200 }

def p1 : State := rl [(5, up)]

def p3 : State := rl [(0, up)] { deviceStage := 1 }

def p4 : State := rl [(4, up)] { deviceStage := 4 }

def p6 : State := rl [(6, up), (7, on)] { domains := [(0, { phase := .stageA })] }

def p8 : State := rl [(29, up)] { domains := [(7, { phase := .stagger })] }

def p9 : State := rl [(29, { enabled := true, count := some 66, qualify := 66 })] { domains := [(7, { phase := .stageB })] }

def f1 : State := rl [(4, { enabled := true, chatter := 8 })] {}

def f2 : State := rl [(4, { enabled := true, chatter := 7 })] {}

def f3 : State := rl [(5, { enabled := true, chatter := 8 })] {}

def f4 : State := rl [(5, { enabled := true, chatter := 1 })] {}

def f5 : State := rl [(5, { enabled := true, running := true, losing := true })] {}

def f6 : State := rl [(4, { enabled := true, running := true, losing := true })] {}

def f7 : State := rl [(29, { enabled := true, running := true, losing := true })] {domains := [(7, { phase := .good })] }

def f9 : State := rl [(0, { discharging := true, voltage := 700 })] {domains := [(0, { phase := .stopping })], adcFault := true }

def so (n : Nat) (x : Power := {}) : State := { rl [(0, on), (1, on), (2, on), (4, on), (6, on), (26, on), (29, on), (13, on)] { x with stopStep := some n } with sys := { a.sys with dev := .varnished } }

def s0 := so 0

def s1 := so 1

def s9 := so 9

def s13 := so 13

def s13b := so 13 { stopForStart := true }

def s13c : State := { so 13 with power := { stopStep := some 13, rails := [(3, { voltage := 5000, discharging := true })] } }

/-- States and operands that meet the hypotheses of `Obligations.RailSequencing`, clause by clause. -/
theorem witness_RailSequencing :
    (((railOf p3 ↑(0 : Fin (30 : ℕ))).enabled = true ∧ (railOf p3 ↑(0 : Fin (30 : ℕ))).running = false ∧
      (railOf p3 ↑(0 : Fin (30 : ℕ))).count = some (200 : ℕ) ∧ (railOf p3 ↑(0 : Fin (30 : ℕ))).qualify ≤ (200 : ℕ)) ∧
      p3.power.deviceStage = (1 : ℕ) ∧ ↑(0 : Fin (30 : ℕ)) ∈ stageRails (1 : ℕ) ∧
      ∀ r ∈ stageRails (1 : ℕ), r ≠ ↑(0 : Fin (30 : ℕ)) → (railOf p3 r).running = true) ∧
    (((railOf p4 ↑(4 : Fin (30 : ℕ))).enabled = true ∧ (railOf p4 ↑(4 : Fin (30 : ℕ))).running = false ∧
      (railOf p4 ↑(4 : Fin (30 : ℕ))).count = some (200 : ℕ) ∧ (railOf p4 ↑(4 : Fin (30 : ℕ))).qualify ≤ (200 : ℕ)) ∧
      p4.power.deviceStage = (4 : ℕ) ∧ ↑(4 : Fin (30 : ℕ)) = (4 : ℕ)) ∧
    (((railOf p1 ↑(5 : Fin (30 : ℕ))).enabled = true ∧ (railOf p1 ↑(5 : Fin (30 : ℕ))).running = false ∧
      (railOf p1 ↑(5 : Fin (30 : ℕ))).count = some (200 : ℕ) ∧ (railOf p1 ↑(5 : Fin (30 : ℕ))).qualify ≤ (200 : ℕ)) ∧
      ↑(5 : Fin (30 : ℕ)) = (5 : ℕ)) ∧
    (((railOf p6 ↑(6 : Fin (30 : ℕ))).enabled = true ∧ (railOf p6 ↑(6 : Fin (30 : ℕ))).running = false ∧
      (railOf p6 ↑(6 : Fin (30 : ℕ))).count = some (200 : ℕ) ∧ (railOf p6 ↑(6 : Fin (30 : ℕ))).qualify ≤ (200 : ℕ)) ∧
      (↑(6 : Fin (30 : ℕ)) = (6 : ℕ) + (3 : ℕ) * ↑(0 : Fin (8 : ℕ)) ∨ ↑(6 : Fin (30 : ℕ)) =
      (7 : ℕ) + (3 : ℕ) * ↑(0 : Fin (8 : ℕ))) ∧ (domainOf p6 ↑(0 : Fin (8 : ℕ))).phase = DomainPhase.stageA ∧
      ∀ (r : ℕ), r = (6 : ℕ) + (3 : ℕ) * ↑(0 : Fin (8 : ℕ)) ∨ r =
      (7 : ℕ) + (3 : ℕ) * ↑(0 : Fin (8 : ℕ)) → r ≠ ↑(6 : Fin (30 : ℕ)) → (railOf p6 r).running = true) ∧
    (((railOf p9 ↑(29 : Fin (30 : ℕ))).enabled = true ∧ (railOf p9 ↑(29 : Fin (30 : ℕ))).running = false ∧
      (railOf p9 ↑(29 : Fin (30 : ℕ))).count = some (66 : ℕ) ∧ (railOf p9 ↑(29 : Fin (30 : ℕ))).qualify ≤ (66 : ℕ)) ∧
      ↑(29 : Fin (30 : ℕ)) = (8 : ℕ) + (3 : ℕ) * ↑(7 : Fin (8 : ℕ)) ∧ (domainOf p9 ↑(7 : Fin (8 : ℕ))).phase =
      DomainPhase.stageB) ∧
    ((domainOf p8 ↑(7 : Fin (8 : ℕ))).phase = DomainPhase.stagger) :=
  ⟨by decide +kernel,
    by decide +kernel,
    by decide +kernel,
    ⟨by decide +kernel, by decide +kernel, by decide +kernel, by rintro r (rfl | rfl) h <;> first | exact absurd rfl h | decide +kernel⟩,
    by decide +kernel,
    by decide +kernel⟩

/-- States and operands that meet the hypotheses of `Obligations.RailFaults`, clause by clause. -/
theorem witness_RailFaults :
    (((railOf f1 ↑(4 : Fin (30 : ℕ))).enabled = true ∧ (railOf f1 ↑(4 : Fin (30 : ℕ))).running = false ∧
      (railOf f1 ↑(4 : Fin (30 : ℕ))).startFailed = false ∧ ((Instr.railStartFailure (4 : Fin (30 : ℕ)), (1 : ℕ)).2 =
      (1 : ℕ) ↔ (8 : ℕ) ≤ (railOf f1 ↑(4 : Fin (30 : ℕ))).chatter)) ∧ ↑(4 : Fin (30 : ℕ)) ≤ (4 : ℕ) ∧
      f1.power.stopStep = none ∧ f1.power.failedStarts + (1 : ℕ) < settingN f1 (11776 : ℕ) (13 : ℕ)) ∧
    (((railOf f2 ↑(4 : Fin (30 : ℕ))).enabled = true ∧ (railOf f2 ↑(4 : Fin (30 : ℕ))).running = false ∧
      (railOf f2 ↑(4 : Fin (30 : ℕ))).startFailed = false ∧ ((Instr.sequenceTimeout (4 : Fin (30 : ℕ)), (2 : ℕ)).2 =
      (1 : ℕ) ↔ (8 : ℕ) ≤ (railOf f2 ↑(4 : Fin (30 : ℕ))).chatter)) ∧ ↑(4 : Fin (30 : ℕ)) ≤ (4 : ℕ) ∧
      f2.power.stopStep = none ∧ f2.power.failedStarts + (1 : ℕ) < settingN f2 (11776 : ℕ) (13 : ℕ)) ∧
    (((railOf f3 ↑(5 : Fin (30 : ℕ))).enabled = true ∧ (railOf f3 ↑(5 : Fin (30 : ℕ))).running = false ∧
      (railOf f3 ↑(5 : Fin (30 : ℕ))).startFailed = false ∧ ((Instr.railStartFailure (5 : Fin (30 : ℕ)), (1 : ℕ)).2 =
      (1 : ℕ) ↔ (8 : ℕ) ≤ (railOf f3 ↑(5 : Fin (30 : ℕ))).chatter)) ∧ ↑(5 : Fin (30 : ℕ)) = (5 : ℕ)) ∧
    (((railOf f4 ↑(5 : Fin (30 : ℕ))).enabled = true ∧ (railOf f4 ↑(5 : Fin (30 : ℕ))).running = false ∧
      (railOf f4 ↑(5 : Fin (30 : ℕ))).startFailed = false ∧ ((Instr.sequenceTimeout (5 : Fin (30 : ℕ)), (2 : ℕ)).2 =
      (1 : ℕ) ↔ (8 : ℕ) ≤ (railOf f4 ↑(5 : Fin (30 : ℕ))).chatter)) ∧ ↑(5 : Fin (30 : ℕ)) = (5 : ℕ)) ∧
    ((railOf f9 ↑(0 : Fin (30 : ℕ))).discharging = true ∧ f9.power.adcFault = true) ∧
    ((railOf f6 ↑(4 : Fin (30 : ℕ))).running = true) ∧
    ((railOf f6 ↑(4 : Fin (30 : ℕ))).losing = true) ∧
    ((railOf f6 ↑(4 : Fin (30 : ℕ))).losing = true ∧ (railOf f6 ↑(4 : Fin (30 : ℕ))).running = true ∧
      (railOf f6 ↑(4 : Fin (30 : ℕ))).faulted = false ∧ ↑(4 : Fin (30 : ℕ)) ≤ (4 : ℕ) ∧ inService f6 = true) :=
  ⟨by decide +kernel,
    by decide +kernel,
    by decide +kernel,
    by decide +kernel,
    by decide +kernel,
    by decide +kernel,
    by decide +kernel,
    by decide +kernel⟩

theorem witness_RailFaults_2 :
    ((railOf f5 ↑(5 : Fin (30 : ℕ))).losing = true ∧ (railOf f5 ↑(5 : Fin (30 : ℕ))).running = true ∧
      (railOf f5 ↑(5 : Fin (30 : ℕ))).faulted = false ∧ ↑(5 : Fin (30 : ℕ)) = (5 : ℕ)) ∧
    ((railOf f7 ↑(29 : Fin (30 : ℕ))).losing = true ∧ (railOf f7 ↑(29 : Fin (30 : ℕ))).running = true ∧
      (railOf f7 ↑(29 : Fin (30 : ℕ))).faulted = false ∧ (6 : ℕ) ≤ ↑(29 : Fin (30 : ℕ)) ∧
      (domainOf f7 (railDomain ↑(29 : Fin (30 : ℕ)))).phase = DomainPhase.good) ∧
    ((domainOf f9 ↑(0 : Fin (8 : ℕ))).phase = DomainPhase.stopping) :=
  ⟨by decide +kernel,
    by decide +kernel,
    by decide +kernel⟩

/-- States and operands that meet the hypotheses of `Obligations.StopOrder`, clause by clause. -/
theorem witness_StopOrder :
    (s1.power.stopStep = some 1) ∧
    (s0.power.stopStep = some 0) ∧
    (s9.power.stopStep = some 9 ∧ discharged s9 (List.map (fun x => x + 6) (List.range 24)) = true) ∧
    (s13c.power.stopStep = some 13 ∧ discharged s13c (List.range 5) = false) ∧
    (s13b.power.stopStep = some 13 ∧ discharged s13b (List.range 5) = true ∧ s13b.power.stopForStart = true) ∧
    (s13.power.stopStep = some 13 ∧ discharged s13 (List.range 5) = true ∧ s13.power.stopForStart = false ∧
      s13.sys.recalling = false) :=
  ⟨by decide +kernel,
    by decide +kernel,
    by decide +kernel,
    by decide +kernel,
    by decide +kernel,
    by decide +kernel⟩

end Sys2Proof.Tests.G12

namespace Sys2Proof.Tests.G14
open Sys2Proof Sys2Proof.Machine Sys2Proof.Tests.Base

def sby : State := { a with sys := { dev := .standby }, power := { lockout := true, failedStarts := 3 } }

def tst : State := { a with sys := { dev := .test, memoryActive := true }, groups := (List.range 8).map (fun g => (g, { free := [3] })) }

def pri : State := { a with sys := { dev := .priming, step := 5 } }

/-- States and operands that meet the hypotheses of `Obligations.StartAndRestartRequests`, clause by clause. -/
theorem witness_StartAndRestartRequests :
    (readyB a v Level.operator = true) ∧
    (readyB a v Level.maintainer = true ∧ inService (sfS a v) = true) ∧
    (readyB pri v Level.maintainer = true ∧ inService (sfS pri v) = false) ∧
    (readyB tst v Level.maintainer = true ∧ (sfS tst v).sys.dev = DeviceState.test ∧ ∀ g < 8, pathTested (sfS tst v) g = true) ∧
    (readyB a v Level.maintainer = true ∧ (sfS a v).sys.dev ≠ DeviceState.test) ∧
    (sby.sys.dev = DeviceState.standby ∧ bitOf (settingN sby 11776 11) (Instr.pbtnAction, 0, 0).2.1 = true) ∧
    (sby.sys.dev = DeviceState.standby ∧ bitOf (settingN sby 11776 11) (Instr.mrAction, 2, 1).2.1 = true) ∧
    (inService a = true ∧ bitOf (settingN a 11776 11) (Instr.pbtnAction, 1).2 = true) :=
  ⟨by decide +kernel,
    by decide +kernel,
    by decide +kernel,
    by decide +kernel,
    by decide +kernel,
    by decide +kernel,
    by decide +kernel,
    by decide +kernel⟩

theorem witness_StartAndRestartRequests_2 :
    (inService a = true ∧ bitOf (settingN a 11776 11) (Instr.mrAction, 2).2 = true) ∧
    (pri.sys.dev = DeviceState.priming ∧ bitOf (settingN pri 11776 11) 2 = true) :=
  ⟨by decide +kernel,
    by decide +kernel⟩

end Sys2Proof.Tests.G14

namespace Sys2Proof.Tests.G15
open Sys2Proof Sys2Proof.Machine Sys2Proof.Tests.Base

def on : RailRec := { enabled := true, running := true }

def r1 : State := { a with power := { rails := [(0, { on with bandRun := 2, excursion := true}), (29, on)] } }

def rb : State := { a with power := { rails := [(0, on)], refBad := true, zeroBad := true } }

def pm : State := { a with power := { rails := [(2, { on with unreachable := true }), (3, {on with pmbusFails := 1})] }, settings := [(objKey 0x2E10 4, 0x20), (objKey 0x2E12 4, 0x22), (objKey 0x2E13 4, 0x20)] }

def mg : State := { pm with sys := { dev := .test }, settings := [(objKey 0x2E01 1, 3), (objKey 0x2E13 4, 0x20)] }

def d1 : State := { a with power := { domains := [(0, { phase := .off }), (7, { phase := .good })] } }

/-- States and operands that meet the hypotheses of `Obligations.AdcAndPmbus`, clause by clause. -/
theorem witness_AdcAndPmbus :
    ((BitVec.ofNat 16 5).toInt.natAbs * 100 ≤ 4096) ∧
    (rb.power.refBad = true ∧ rb.power.adcFault = false ∧ 4096 < (BitVec.ofNat 16 800).toInt.natAbs * 100) ∧
    ((railOf r1 ↑(29 : Fin (30 : ℕ))).running = true ∧ r1.power.adcFault = false ∧ r1.power.marginState = (0 : ℕ) ∧
      (if nominalMv ↑(29 : Fin (30 : ℕ)) ≤ (BitVec.ofNat (16 : ℕ) (3300 : ℕ)).toNat then (BitVec.ofNat (16 : ℕ) (3300 : ℕ)).toNat - nominalMv ↑(29 : Fin (30 : ℕ)) else nominalMv ↑(29 : Fin (30 : ℕ)) - (BitVec.ofNat (16 : ℕ) (3300 : ℕ)).toNat) * (100 : ℕ) ≤ nominalMv ↑(29 : Fin (30 : ℕ)) * min (settingN r1 ((11792 : ℕ) + ↑(29 : Fin (30 : ℕ))) (2 : ℕ)) (settingN r1 ((11792 : ℕ) + ↑(29 : Fin (30 : ℕ))) (3 : ℕ)) ∧ (100 : ℕ) * (BitVec.ofNat (16 : ℕ) (3300 : ℕ)).toNat ≤ (115 : ℕ) * nominalMv ↑(29 : Fin (30 : ℕ))) ∧
    ((3 : ℕ) < (30 : ℕ) ∧ pmbusReachable pm (3 : ℕ) = true ∧
      List.find? (fun x => ↑x.rail == (3 : ℕ)) [{ rail := (3 : Rail), failures := (1 : Fin (4 : ℕ)), current := (5 : BitVec (16 : ℕ)), temperature := (7 : BitVec (8 : ℕ)), statusWord := (9 : BitVec (16 : ℕ)) : PmbusReading }, { rail := (0 : Rail), failures := (2 : Fin (4 : ℕ)), current := (5 : BitVec (16 : ℕ)), temperature := (7 : BitVec (8 : ℕ)), statusWord := (9 : BitVec (16 : ℕ)) : PmbusReading }] = some { rail := (3 : Rail), failures := (1 : Fin (4 : ℕ)), current := (5 : BitVec (16 : ℕ)), temperature := (7 : BitVec (8 : ℕ)), statusWord := (9 : BitVec (16 : ℕ)) : PmbusReading } ∧ ↑{ rail := (3 : Rail), failures := (1 : Fin (4 : ℕ)), current := (5 : BitVec (16 : ℕ)), temperature := (7 : BitVec (8 : ℕ)), statusWord := (9 : BitVec (16 : ℕ)) : PmbusReading }.failures ≠ (3 : ℕ)) ∧
    (readyB mg v Level.maintainer = true ∧ (sfS mg v).sys.dev = DeviceState.test ∧
      pmbusReachable (sfS mg v) (settingN (sfS mg v) 11777 1) = true ∧ ((sfS mg v).power.marginState = 0 ∨
      (sfS mg v).power.marginRail = settingN (sfS mg v) 11777 1)) ∧
    (readyB a v Level.maintainer = true ∧ pmbusReachable (sfS a v) (settingN (sfS a v) 11777 1) = false) ∧
    (readyB pm v Level.maintainer = true ∧ pmbusReachable (sfS pm v) (settingN (sfS pm v) 11777 1) = true ∧
      ((sfS pm v).sys.dev ≠ DeviceState.test ∨ (sfS pm v).power.marginState ≠ 0 ∧
      (sfS pm v).power.marginRail ≠ settingN (sfS pm v) 11777 1)) ∧
    (readyB a v Level.maintainer = true ∧ (domainOf (sfS a v) (BitVec.toNat (0 : Byte))).phase = DomainPhase.off ∧
      (sfS a v).sys.dev = DeviceState.active ∧ (∀ j < 8, (domainOf (sfS a v) j).restarting = false) ∧
      returnInProgress (sfS a v) = false) :=
  ⟨by decide +kernel,
    by decide +kernel,
    by decide +kernel,
    by decide +kernel,
    by decide +kernel,
    by decide +kernel,
    by decide +kernel,
    by decide +kernel⟩

theorem witness_AdcAndPmbus_2 :
    (readyB mg v Level.maintainer = true ∧ (domainOf (sfS mg v) (BitVec.toNat (0 : Byte))).phase = DomainPhase.off ∧
      ((sfS mg v).sys.dev ≠ DeviceState.active ∨ returnInProgress (sfS mg v) = true)) ∧
    (readyB d1 v Level.maintainer = true ∧ (domainOf (sfS d1 v) (BitVec.toNat (7 : Byte))).phase ≠ DomainPhase.off) :=
  ⟨by decide +kernel,
    by decide +kernel⟩

end Sys2Proof.Tests.G15

namespace Sys2Proof.Tests.G16a
open Sys2Proof Sys2Proof.Machine Sys2Proof.Tests.Base

def on : RailRec := { enabled := true, running := true }

def sby : State := { a with sys := { dev := .standby }, power := { vinGood := true }, settings := [(objKey 0x2300 2, 11), (objKey 0x2130 1, 3)], stats := [(objKey 0x2300 9, 11)] , folio := { queue := [{ cls := 5, task := .userPage, pages := [(0x5E000, [1])]}] } }

def wrn : State := { a with sys := { dev := .warn, warnFrom := .active, warnCause := 1 }, power := { vinGood := true, pfwLow := true }, ports := [(0, { link := 3 }), (3, { link := 3})] }

def qu : State := { wrn with sys := { wrn.sys with quiescing := true } }

def vn : State := { a with sys := { dev := .varnish, warnFrom := .active, warnCause := 1 }, crypt := { ephemeral := [1] } }

def vd : State := { a with sys := { dev := .varnished, heldByHeat := true }, folio := { epilogueOver := false } }

def bo : State := { a with power := { rails := [(0, on)] }, queues := [(0, { words := [qword 0 true true false] })] }

/-- States and operands that meet the hypotheses of `Obligations.ShutdownSequence`, clause by clause. -/
theorem witness_ShutdownSequence :
    (inService a = true ∨ a.sys.dev = DeviceState.priming) ∧
    (sby.sys.dev = DeviceState.standby) ∧
    (mayWithdraw wrn = true) ∧
    (wrn.sys.dev = DeviceState.warn ∧ wrn.sys.quiescing = false ∧ wrn.directory.rounds = []) ∧
    (qu.sys.dev = DeviceState.warn ∧ qu.sys.quiescing = true ∧ inFlight qu = false) ∧
    (qu.sys.dev = DeviceState.warn ∧ qu.sys.quiescing = true) ∧
    (vn.sys.dev = DeviceState.varnish) ∧
    (vd.sys.dev = DeviceState.varnished ∧ vd.folio.epilogueOver = false) :=
  ⟨by decide +kernel,
    by decide +kernel,
    by decide +kernel,
    by decide +kernel,
    by decide +kernel,
    by decide +kernel,
    by decide +kernel,
    by decide +kernel⟩

theorem witness_ShutdownSequence_2 :
    (railOf bo 0).enabled = true :=
  by decide +kernel

end Sys2Proof.Tests.G16a

namespace Sys2Proof.Tests.G16b
open Sys2Proof Sys2Proof.Machine Sys2Proof.Tests.Base

def pri : State := { a with sys := { dev := .priming, step := 5, time := 64000000 } }

def sby : State := { a with sys := { dev := .standby }, power := { vinGood := true }, settings := [(objKey 0x2300 2, 11), (objKey 0x2130 1, 3)], stats := [(objKey 0x2300 9, 11)] , folio := { queue := [{ cls := 5, task := .userPage, pages := [(0x5E000, [1])]}] } }

def rec : State := { pri with sys := { dev := .priming, step := 3, recalling := true, time := 5 } }

def tr : State := { pri with power := { domains := [(0, { phase := .good }), (7, { phase := .good })] }, channels := [(0, { state := 1 }), (63, { state := 1 }), (8, { trained := true }), (15, {failed := true})] }

def lostCh : Tab ChannelRec := (List.range 64).filterMap (fun c => if c % 8 < 2 then some (c, { failed := true }) else none)

def s7 : State := { pri with channels := lostCh, sys := { dev := .priming, step := 7, time := 9 } }

def s8 : State := { pri with sys := { dev := .priming, step := 8, time := 9 } }

def s9 : State := { pri with sys := { dev := .priming, step := 9, time := 9 } }

def s10 : State := { pri with sys := { dev := .priming, step := 10, time := 9 } }

/-- States and operands that meet the hypotheses of `Obligations.StartSequence`, clause by clause. -/
theorem witness_StartSequence :
    (rec.sys.dev = DeviceState.priming) ∧
    (mayPrime sby = true) ∧
    (rec.sys.dev = DeviceState.priming ∧ rec.sys.recalling = true ∧ rec.power.stopStep = none ∧ rec.folio.running = none) ∧
    ((domainOf tr ↑(0 : Fin (8 : ℕ))).phase = DomainPhase.good) ∧
    ((channelOf tr ↑(0 : Fin (64 : ℕ))).state = (1 : ℕ) ∧ (domainOf tr (↑(0 : Fin (64 : ℕ)) % (8 : ℕ))).phase =
      DomainPhase.good ∧ (channelOf tr ↑(0 : Fin (64 : ℕ))).returning = false ∧ tr.sys.memoryActive = false) ∧
    (s7.sys.dev = DeviceState.priming ∧ s7.sys.step = 7 ∧ s7.power.stopStep = none ∧ s7.sys.coreLost = false) ∧
    (s8.sys.dev = DeviceState.priming ∧ s8.sys.step = 8 ∧ s8.power.stopStep = none ∧ s8.sys.coreLost = false) ∧
    (s9.sys.dev = DeviceState.priming ∧ s9.sys.step = 9 ∧ s9.power.stopStep = none ∧ s9.sys.coreLost = false) :=
  ⟨by decide +kernel,
    by decide +kernel,
    by decide +kernel,
    by decide +kernel,
    by decide +kernel,
    by decide +kernel,
    by decide +kernel,
    by decide +kernel⟩

theorem witness_StartSequence_2 :
    s10.sys.dev = DeviceState.priming ∧ s10.sys.step = 10 ∧ s10.power.stopStep = none ∧ s10.sys.coreLost = false ∧
      s10.sys.restartLatched = false ∧ ∀ g < 8, lostColumns s10 g = [] :=
  by decide +kernel

end Sys2Proof.Tests.G16b

namespace Sys2Proof.Tests.G17
open Sys2Proof Sys2Proof.Machine Sys2Proof.Tests.Base

def r (x : Reserve) : State := { a with reserve := { x with chgIset := 500, bleedEn := x.bleedEn }, power := { isoOn := true }, sys := { a.sys with openRecordDone := true } }

def rr (x : Reserve) : State := r { x with bleedEn := false }

def b0 := rr { c1 := 6000, c2 := 6200, esr := 300, vres := 15500, status := 3, samples := [15000, 15600], writeThrough := false, wt := false, portCharge := [(1, 5)] }

def b1 := rr { c1 := 6000, c2 := 5900, esr := 100, vres := 9000, status := 2, wt := true }

def b3 := rr { c1 := 6000, c2 := 6000, esr := 100, vres := 15000, status := 3, frozen := true }

def b4 := r { c1 := 6000, c2 := 6000, vres := 15000, status := 3, frozenV := some 14900, measure := .sinking, bleedEn := false, chgEn := true }

def b6 : State := { b4 with reserve := { b4.reserve with measure := .idle, frozenV := none } }

def b8 := rr { c1 := 60000, c2 := 60000, esr := 100, vres := 9000, status := 2, measured := true }

def m1 := rr { status := 1, ramp := .hold 5000 , vres := 2000}

def m2 := rr { status := 1, ramp := .sink, sinkOn := true , vres := 15000}

def m4 := rr { status := 3, measure := .idle, occasion := true, vres := 14050, c1 := 6000, c2 := 6000}

def m5 := rr { status := 3, measure := .started, occasion := true, vres := 14050, c1 := 6000, c2 := 6000}

/-- States and operands that meet the hypotheses of `Obligations.BudgetFormulaAndPublication`, clause by clause. -/
theorem witness_BudgetFormulaAndPublication :
    (b0.reserve.frozen = false ∧ b0.sys.dev ≠ DeviceState.standby) ∧
    (b3.reserve.frozen = true ∨ b3.sys.dev = DeviceState.standby) :=
  ⟨by decide +kernel,
    by decide +kernel⟩

/-- States and operands that meet the hypotheses of `Obligations.ReserveMeasurement`, clause by clause. -/
theorem witness_ReserveMeasurement :
    (m1.reserve.ramp = RampStage.hold 5000 ∧ m1.reserve.status = 1 ∧ m1.power.isoOn = true) ∧
    (m2.reserve.ramp = RampStage.sink ∧ m2.reserve.status = 1 ∧ m2.power.isoOn = true) ∧
    (b4.reserve.ramp = RampStage.none ∧ b4.reserve.measure = MeasureStage.sinking ∧ b4.reserve.status = 3) ∧
    (m4.sys.dev = DeviceState.active ∧ m4.reserve.status = 3 ∧ m4.reserve.occasion = true ∧
      m4.reserve.measure = MeasureStage.idle ∧ vHi m4 - 50 ≤ m4.reserve.vres ∧ m4.reserve.vres ≤ vHi m4 + 100 ∧
      m4.reserve.bleedEn = false) ∧
    (m5.reserve.measure = MeasureStage.started) ∧
    ((b1.reserve.status = 1 ∨ b1.reserve.status = 2) ∧ b1.power.isoOn = true ∧
      b1.reserve.vres < if true = true then vHi b1 else 2000) ∧
    (b6.sys.dev ≠ DeviceState.standby ∧ 1 ≤ b6.reserve.status ∧ b6.reserve.status ≤ 3 ∧ 16500 < (BitVec.ofNat 16 16501).toNat) ∧
    (b6.sys.dev ≠ DeviceState.standby ∧ (b6.reserve.status = 2 ∨ b6.reserve.status = 3) ∧ (BitVec.ofNat 16 16500).toNat ≤ 16500 ∧ b6.power.adcFault = false ∧ b6.reserve.ramp = RampStage.none) :=
  ⟨by decide +kernel,
    by decide +kernel,
    by decide +kernel,
    by decide +kernel,
    by decide +kernel,
    by decide +kernel,
    by decide +kernel,
    by decide +kernel⟩

theorem witness_ReserveMeasurement_2 :
    (readyB b6 v Level.operator = true ∧ (sfS b6 v).reserve.status = 3 ∧ (sfS b6 v).reserve.frozen = false) ∧
    (readyB b8 v Level.operator = true ∧ (sfS b8 v).reserve.status ≠ 3) ∧
    (readyB b3 v Level.operator = true ∧ (sfS b3 v).reserve.status = 3 ∧ (sfS b3 v).reserve.frozen = true) ∧
    (readyB b6 v Level.maintainer = true ∧ (sfS b6 v).reserve.frozen = false) ∧
    (readyB b3 v Level.maintainer = true ∧ (sfS b3 v).reserve.frozen = true) :=
  ⟨by decide +kernel,
    by decide +kernel,
    by decide +kernel,
    by decide +kernel,
    by decide +kernel⟩

end Sys2Proof.Tests.G17

namespace Sys2Proof.Tests.G18
open Sys2Proof Sys2Proof.Machine Sys2Proof.Tests.Base

def t0 : State := { a with thermal := { level := 2, limitScans := 1, badScans := [(5, 2)], readings := [(3, 200)] } }

def w1 : State := { a with thermal := { riseScans := 10, riseSum := 5000, riseBefore := some (4000, 10), crystal := true } }

def w3 : State := { a with thermal := { riseScans := 10, riseSum := 5000, crystalLost := true } }

def g0 : State := { a with groups := [(0, { arb := { quiet := 128 } }), (7, { arb := { quiet := 40000 } })], settings := [(objKey 0x3000 5, 0xFF)], channels := (List.range 64).map (fun c => (c, { state := 2, trained := true, temp := some 20, zqTemp := some 20, noTemp := 1 })) }

def g3 : State := { g0 with sys := { D.sys with time := 64000000000 } }

def g1 : State := { g0 with thermal := { sleep := [(0, 2), (7, 2)], sleptAt := [(0, 5)] }, sys := { g0.sys with time := 64000000000 } }

def g2 : State := { g0 with thermal := { sleep := [(0, 3), (7, 1)] } }

/-- States and operands that meet the hypotheses of `Obligations.ThermalScanRiseAndClock`, clause by clause. -/
theorem witness_ThermalScanRiseAndClock :
    (w1.thermal.riseScans ≠ 0 ∧ w1.thermal.riseBefore = some ((4000 : ℤ), 10)) ∧
    (w3.thermal.riseScans ≠ 0 ∧ w3.thermal.riseBefore = none) ∧
    (t0.thermal.sourceSelect = 1 ∧ t0.thermal.crystal = false ∧ t0.thermal.crystalLost = false ∧
      (BitVec.ofNat 16 1000).toInt.natAbs ≤ 1000) ∧
    (w3.thermal.sourceSelect ≠ 1 ∨ w3.thermal.crystalLost = true ∨ 1000 < (BitVec.ofNat 16 1000).toInt.natAbs) ∧
    (w1.thermal.crystal = true) :=
  ⟨by decide +kernel,
    by decide +kernel,
    by decide +kernel,
    by decide +kernel,
    by decide +kernel⟩

/-- States and operands that meet the hypotheses of `Obligations.SleepAndStackTemperatures`, clause by clause. -/
theorem witness_SleepAndStackTemperatures :
    (sleepOf g3 ↑(0 : Fin (8 : ℕ)) = (0 : ℕ) ∧ (128 : ℕ) ≤ (groupOf g3 ↑(0 : Fin (8 : ℕ))).arb.quiet) ∧
    (maySleep g3 ↑(0 : Fin (8 : ℕ)) = true) ∧
    (maySleep a ↑(0 : Fin (8 : ℕ)) = false) ∧
    (sleepOf g1 ↑(0 : Fin (8 : ℕ)) = (2 : ℕ)) ∧
    (sleepOf a ↑(0 : Fin (8 : ℕ)) ≠ (2 : ℕ)) ∧
    (sleepOf g2 ↑(0 : Fin (8 : ℕ)) = (3 : ℕ)) ∧
    (readyB a v Level.operator = true) ∧
    (readyB a v Level.maintainer = true) :=
  ⟨by decide +kernel,
    by decide +kernel,
    by decide +kernel,
    by decide +kernel,
    by decide +kernel,
    by decide +kernel,
    by decide +kernel,
    by decide +kernel⟩

end Sys2Proof.Tests.G18

namespace Sys2Proof.Tests.G19
open Sys2Proof Sys2Proof.Machine Sys2Proof.Tests.Base

def mk (op body : Nat) : BitVec 44 := let f := BitVec.ofNat 44 body; if frameEven op f then f else f ^^^ 1#44

def fr : BitVec 44 := mk 1 (5 * 2^36 + 9 * 2^9)

def dd : Patch := 77#96

def fp : BitVec 44 := mk 3 (5 * 2^36 + 9 * 2^9 + (crc8 (patchBytes dd)).toNat * 2)

def fsus : BitVec 44 := mk 4 (5 * 2^36)

def frsm : BitVec 44 := mk 5 (5 * 2^36)

def st (x : ChannelRec) (c : Nat := 63) : State := { a with channels := [(c, x)] }

def q0 := st {parked := false, state := 2}

def q1 := st {parked := false, state := 2, banks := [(5, { latched := some 9 })]}

def q2 := st {parked := false, state := 2, banks := [(5, { running := some ⟨9, dd⟩ })]}

def q3 := st {parked := false, state := 2, banks := [(5, { suspended := some ⟨9, dd⟩ })]}

def q5 := st {parked := true}

def q6 := st {parked := false, powerDown := true}

def m6 : BitVec 44 := mk 6 (13 * 2^36)

def m6c : BitVec 44 := mk 6 (15 * 2^36)

def m7 : BitVec 44 := mk 7 (4 * 2^36 + 0x1FF * 2 ^ 20)

def m9 : BitVec 44 := mk 9 0

def e2 := st {parked := false, state := 2, banks := [(5, { refused := some ⟨9, dd⟩ })], reissues := [(5, 1)] }

def e3 : State := { a with channels := (List.range 64).map (fun c => (c, { state := 2, trained := true, parked := false })), power := { domains := (List.range 8).map (fun k => (k, { phase := .good })) } }

def e4 : State := { q0 with groups := [(7, { sent := [(7, 0x900000000001)] })] }

def e5 : State := { q0 with groups := [(7, { sent := [(7, 0x900000000001)], resent := [(7, true)] })] }

def h2 := { e3 with channels := (List.range 64).map (fun c => (c, if c = 63 then { state := 3, trained := true, parked := true, failed := true } else { state := 2, trained := true, parked := false, errors := 1 })) }

def h3 := { h2 with power := { } }

def h4 := { h2 with channels := (List.range 64).map (fun c => (c, if c = 63 then { state := 3, trained := true, parked := true, failed := true } else if c = 5 then { state := 6, returning := true, failed := true } else { state := 2, trained := true, parked := false, errors := 1 })) }

def h6 := { h3 with settings := [(objKey 0x2920 1, 63)] }

/-- States and operands that meet the hypotheses of `Obligations.StackBankFrames`, clause by clause. -/
theorem witness_StackBankFrames :
    (((channelOf q0 ↑(63 : Fin (64 : ℕ))).parked = false ∧ (channelOf q0 ↑(63 : Fin (64 : ℕ))).powerDown = false ∧
      (channelOf q0 ↑(63 : Fin (64 : ℕ))).stopped = false ∧ (channelOf q0 ↑(63 : Fin (64 : ℕ))).training = none) ∧
      frameEven (1 : ℕ) fr = true ∧ bitsOf fr.toNat (2 : ℕ) (1 : ℕ) = (0 : ℕ) ∧
      frameIndex fr < stackIndices q0 ↑(63 : Fin (64 : ℕ)) ∧ (bankOf q0 (↑(63 : Fin (64 : ℕ))) (frameBank fr)).running = none ∧
      (bankOf q0 (↑(63 : Fin (64 : ℕ))) (frameBank fr)).readUntil ≤ q0.sys.time) ∧
    (((channelOf q2 ↑(63 : Fin (64 : ℕ))).parked = false ∧ (channelOf q2 ↑(63 : Fin (64 : ℕ))).powerDown = false ∧
      (channelOf q2 ↑(63 : Fin (64 : ℕ))).stopped = false ∧ (channelOf q2 ↑(63 : Fin (64 : ℕ))).training = none) ∧
      (frameEven (1 : ℕ) fr = false ∨ ¬(bitsOf fr.toNat (2 : ℕ) (1 : ℕ) = (0 : ℕ) ∧
      frameIndex fr < stackIndices q2 ↑(63 : Fin (64 : ℕ)) ∧ (bankOf q2 (↑(63 : Fin (64 : ℕ))) (frameBank fr)).running = none ∧
      (bankOf q2 (↑(63 : Fin (64 : ℕ))) (frameBank fr)).readUntil ≤ q2.sys.time))) ∧
    (((channelOf q1 ↑(63 : Fin (64 : ℕ))).parked = false ∧ (channelOf q1 ↑(63 : Fin (64 : ℕ))).powerDown = false ∧
      (channelOf q1 ↑(63 : Fin (64 : ℕ))).stopped = false ∧ (channelOf q1 ↑(63 : Fin (64 : ℕ))).training = none) ∧
      frameEven (2 : ℕ) fr = true ∧ (bitsOf fr.toNat (2 : ℕ) (1 : ℕ) = (0 : ℕ) ∧
      frameIndex fr < stackIndices q1 ↑(63 : Fin (64 : ℕ)) ∧ (bankOf q1 (↑(63 : Fin (64 : ℕ))) (frameBank fr)).running = none ∧
      (bankOf q1 (↑(63 : Fin (64 : ℕ))) (frameBank fr)).readUntil ≤ q1.sys.time) ∧
      (bankOf q1 (↑(63 : Fin (64 : ℕ))) (frameBank fr)).latched = some (frameIndex fr)) ∧
    (((channelOf q0 ↑(63 : Fin (64 : ℕ))).parked = false ∧ (channelOf q0 ↑(63 : Fin (64 : ℕ))).powerDown = false ∧
      (channelOf q0 ↑(63 : Fin (64 : ℕ))).stopped = false ∧ (channelOf q0 ↑(63 : Fin (64 : ℕ))).training = none) ∧
      (frameEven (2 : ℕ) fr = false ∨ ¬(bitsOf fr.toNat (2 : ℕ) (1 : ℕ) = (0 : ℕ) ∧
      frameIndex fr < stackIndices q0 ↑(63 : Fin (64 : ℕ)) ∧ (bankOf q0 (↑(63 : Fin (64 : ℕ))) (frameBank fr)).running = none ∧
      (bankOf q0 (↑(63 : Fin (64 : ℕ))) (frameBank fr)).readUntil ≤ q0.sys.time) ∨
      (bankOf q0 (↑(63 : Fin (64 : ℕ))) (frameBank fr)).latched ≠ some (frameIndex fr))) ∧
    (((channelOf q0 ↑(63 : Fin (64 : ℕ))).parked = false ∧ (channelOf q0 ↑(63 : Fin (64 : ℕ))).powerDown = false ∧
      (channelOf q0 ↑(63 : Fin (64 : ℕ))).stopped = false ∧ (channelOf q0 ↑(63 : Fin (64 : ℕ))).training = none) ∧
      (frameEven (3 : ℕ) fr = false ∨ stackIndices q0 ↑(63 : Fin (64 : ℕ)) ≤ frameIndex fr ∨
      ¬((bankOf q0 (↑(63 : Fin (64 : ℕ))) (frameBank fr)).running = none ∧
      (bankOf q0 (↑(63 : Fin (64 : ℕ))) (frameBank fr)).readUntil ≤ q0.sys.time))) ∧
    (((channelOf q0 ↑(63 : Fin (64 : ℕ))).parked = false ∧ (channelOf q0 ↑(63 : Fin (64 : ℕ))).powerDown = false ∧
      (channelOf q0 ↑(63 : Fin (64 : ℕ))).stopped = false ∧ (channelOf q0 ↑(63 : Fin (64 : ℕ))).training = none) ∧
      (frameEven (4 : ℕ) fr = false ∨ bitsOf fr.toNat (35 : ℕ) (1 : ℕ) ≠ (0 : ℕ) ∨
      (bankOf q0 (↑(63 : Fin (64 : ℕ))) (frameBank fr)).running = none ∨
      (bankOf q0 (↑(63 : Fin (64 : ℕ))) (frameBank fr)).suspended.isSome = true ∨
      q0.sys.time < (bankOf q0 (↑(63 : Fin (64 : ℕ))) (frameBank fr)).readUntil)) ∧
    (((channelOf q0 ↑(63 : Fin (64 : ℕ))).parked = false ∧ (channelOf q0 ↑(63 : Fin (64 : ℕ))).powerDown = false ∧
      (channelOf q0 ↑(63 : Fin (64 : ℕ))).stopped = false ∧ (channelOf q0 ↑(63 : Fin (64 : ℕ))).training = none) ∧
      (frameEven (5 : ℕ) fr = false ∨ bitsOf fr.toNat (35 : ℕ) (1 : ℕ) ≠ (0 : ℕ) ∨
      (bankOf q0 (↑(63 : Fin (64 : ℕ))) (frameBank fr)).suspended = none ∨
      ¬((bankOf q0 (↑(63 : Fin (64 : ℕ))) (frameBank fr)).running = none ∧
      (bankOf q0 (↑(63 : Fin (64 : ℕ))) (frameBank fr)).readUntil ≤ q0.sys.time))) ∧
    ((channelOf q5 ↑(63 : Fin (64 : ℕ))).parked = true ∨ (channelOf q5 ↑(63 : Fin (64 : ℕ))).powerDown = true) :=
  ⟨by decide +kernel,
    by decide +kernel,
    by decide +kernel,
    by decide +kernel,
    by decide +kernel,
    by decide +kernel,
    by decide +kernel,
    by decide +kernel⟩

theorem witness_StackBankFrames_2 :
    (((channelOf q0 ↑(63 : Fin (64 : ℕ))).parked = false ∧ (channelOf q0 ↑(63 : Fin (64 : ℕ))).powerDown = false ∧
      (channelOf q0 ↑(63 : Fin (64 : ℕ))).stopped = false ∧ (channelOf q0 ↑(63 : Fin (64 : ℕ))).training = none) ∧
      frameEven (3 : ℕ) fp = true ∧ frameIndex fp < stackIndices q0 ↑(63 : Fin (64 : ℕ)) ∧
      ((bankOf q0 (↑(63 : Fin (64 : ℕ))) (frameBank fp)).running = none ∧
      (bankOf q0 (↑(63 : Fin (64 : ℕ))) (frameBank fp)).readUntil ≤ q0.sys.time) ∧
      BitVec.toNat (crc8 (patchBytes dd)) = bitsOf fp.toNat (8 : ℕ) (1 : ℕ)) ∧
    (((channelOf q0 ↑(63 : Fin (64 : ℕ))).parked = false ∧ (channelOf q0 ↑(63 : Fin (64 : ℕ))).powerDown = false ∧
      (channelOf q0 ↑(63 : Fin (64 : ℕ))).stopped = false ∧ (channelOf q0 ↑(63 : Fin (64 : ℕ))).training = none) ∧
      frameEven (3 : ℕ) fp = true ∧ frameIndex fp < stackIndices q0 ↑(63 : Fin (64 : ℕ)) ∧
      ((bankOf q0 (↑(63 : Fin (64 : ℕ))) (frameBank fp)).running = none ∧
      (bankOf q0 (↑(63 : Fin (64 : ℕ))) (frameBank fp)).readUntil ≤ q0.sys.time) ∧
      BitVec.toNat (crc8 (patchBytes (0 : Patch))) ≠ bitsOf fp.toNat (8 : ℕ) (1 : ℕ)) ∧
    (((channelOf q2 ↑(63 : Fin (64 : ℕ))).parked = false ∧ (channelOf q2 ↑(63 : Fin (64 : ℕ))).powerDown = false ∧
      (channelOf q2 ↑(63 : Fin (64 : ℕ))).stopped = false ∧ (channelOf q2 ↑(63 : Fin (64 : ℕ))).training = none) ∧
      frameEven (4 : ℕ) fsus = true ∧ bitsOf fsus.toNat (35 : ℕ) (1 : ℕ) = (0 : ℕ) ∧
      (bankOf q2 (↑(63 : Fin (64 : ℕ))) (frameBank fsus)).running.isSome = true ∧
      (bankOf q2 (↑(63 : Fin (64 : ℕ))) (frameBank fsus)).suspended = none ∧
      (bankOf q2 (↑(63 : Fin (64 : ℕ))) (frameBank fsus)).readUntil ≤ q2.sys.time) ∧
    (((channelOf q3 ↑(63 : Fin (64 : ℕ))).parked = false ∧ (channelOf q3 ↑(63 : Fin (64 : ℕ))).powerDown = false ∧
      (channelOf q3 ↑(63 : Fin (64 : ℕ))).stopped = false ∧ (channelOf q3 ↑(63 : Fin (64 : ℕ))).training = none) ∧
      frameEven (5 : ℕ) frsm = true ∧ bitsOf frsm.toNat (35 : ℕ) (1 : ℕ) = (0 : ℕ) ∧
      ((bankOf q3 (↑(63 : Fin (64 : ℕ))) (frameBank frsm)).running = none ∧
      (bankOf q3 (↑(63 : Fin (64 : ℕ))) (frameBank frsm)).readUntil ≤ q3.sys.time) ∧
      (bankOf q3 (↑(63 : Fin (64 : ℕ))) (frameBank frsm)).suspended.isSome = true) :=
  ⟨by decide +kernel,
    by decide +kernel,
    by decide +kernel,
    by decide +kernel⟩

/-- States and operands that meet the hypotheses of `Obligations.StackModeFrames`, clause by clause. -/
theorem witness_StackModeFrames :
    (((channelOf q0 ↑(63 : Fin (64 : ℕ))).parked = false ∧ (channelOf q0 ↑(63 : Fin (64 : ℕ))).powerDown = false ∧
      (channelOf q0 ↑(63 : Fin (64 : ℕ))).stopped = false ∧ (channelOf q0 ↑(63 : Fin (64 : ℕ))).training ≠ some (0 : ℕ)) ∧
      frameEven (6 : ℕ) m6 = true ∧ bitsOf m6.toNat (35 : ℕ) (1 : ℕ) = (0 : ℕ) ∧ frameBank m6 < (15 : ℕ)) ∧
    (((channelOf q0 ↑(63 : Fin (64 : ℕ))).parked = false ∧ (channelOf q0 ↑(63 : Fin (64 : ℕ))).powerDown = false ∧
      (channelOf q0 ↑(63 : Fin (64 : ℕ))).stopped = false ∧ (channelOf q0 ↑(63 : Fin (64 : ℕ))).training ≠ some (0 : ℕ)) ∧
      (frameEven (7 : ℕ) m6 = false ∨ bitsOf m6.toNat (19 : ℕ) (1 : ℕ) ≠ (0 : ℕ) ∨ (15 : ℕ) ≤ frameBank m6)) ∧
    (((channelOf q0 ↑(63 : Fin (64 : ℕ))).parked = false ∧ (channelOf q0 ↑(63 : Fin (64 : ℕ))).powerDown = false ∧
      (channelOf q0 ↑(63 : Fin (64 : ℕ))).stopped = false ∧ (channelOf q0 ↑(63 : Fin (64 : ℕ))).training ≠ some (0 : ℕ)) ∧
      frameEven (8 : ℕ) (calFields (1 : ℕ) (BitVec.ofNat (40 : ℕ) (0 : ℕ))) = true ∧
      bitsOf (BitVec.ofNat (40 : ℕ) (0 : ℕ)).toNat (39 : ℕ) (1 : ℕ) = (0 : ℕ)) ∧
    (((channelOf q0 ↑(63 : Fin (64 : ℕ))).parked = false ∧ (channelOf q0 ↑(63 : Fin (64 : ℕ))).powerDown = false ∧
      (channelOf q0 ↑(63 : Fin (64 : ℕ))).stopped = false ∧ (channelOf q0 ↑(63 : Fin (64 : ℕ))).training ≠ some (0 : ℕ)) ∧
      frameEven (8 : ℕ) (calFields (2 : ℕ) (BitVec.ofNat (40 : ℕ) (0 : ℕ))) = true ∧
      bitsOf (BitVec.ofNat (40 : ℕ) (0 : ℕ)).toNat (39 : ℕ) (1 : ℕ) = (0 : ℕ)) ∧
    (((channelOf q0 ↑(63 : Fin (64 : ℕ))).parked = false ∧ (channelOf q0 ↑(63 : Fin (64 : ℕ))).powerDown = false ∧
      (channelOf q0 ↑(63 : Fin (64 : ℕ))).stopped = false ∧ (channelOf q0 ↑(63 : Fin (64 : ℕ))).training ≠ some (0 : ℕ)) ∧
      True) ∧
    (((channelOf q0 ↑(63 : Fin (64 : ℕ))).parked = false ∧ (channelOf q0 ↑(63 : Fin (64 : ℕ))).powerDown = false ∧
      (channelOf q0 ↑(63 : Fin (64 : ℕ))).stopped = false ∧ (channelOf q0 ↑(63 : Fin (64 : ℕ))).training ≠ some (0 : ℕ)) ∧
      ¬(frameEven (8 : ℕ) (calFields (Instr.calZq (63 : Fin (64 : ℕ)) (calFields (0 : ℕ) (BitVec.ofNat (40 : ℕ) (0 : ℕ))), (0 : ℕ)).2 (BitVec.ofNat (40 : ℕ) (0 : ℕ))) = true ∧ bitsOf (BitVec.ofNat (40 : ℕ) (0 : ℕ)).toNat (39 : ℕ) (1 : ℕ) = (0 : ℕ))) ∧
    (((channelOf q0 ↑(63 : Fin (64 : ℕ))).parked = false ∧ (channelOf q0 ↑(63 : Fin (64 : ℕ))).powerDown = false ∧
      (channelOf q0 ↑(63 : Fin (64 : ℕ))).stopped = false ∧ (channelOf q0 ↑(63 : Fin (64 : ℕ))).training ≠ some (0 : ℕ)) ∧
      (frameEven (9 : ℕ) m6 = false ∨ bitsOf m6.toNat (43 : ℕ) (1 : ℕ) ≠ (0 : ℕ) ∨ stackIdle q0 ↑(63 : Fin (64 : ℕ)) = false)) ∧
    (((channelOf q0 ↑(63 : Fin (64 : ℕ))).parked = false ∧ (channelOf q0 ↑(63 : Fin (64 : ℕ))).powerDown = false ∧
      (channelOf q0 ↑(63 : Fin (64 : ℕ))).stopped = false ∧ (channelOf q0 ↑(63 : Fin (64 : ℕ))).training ≠ some (0 : ℕ)) ∧
      frameEven (8 : ℕ) (calFields (0 : ℕ) (BitVec.ofNat (40 : ℕ) (1 : ℕ))) = true ∧
      bitsOf (BitVec.ofNat (40 : ℕ) (1 : ℕ)).toNat (39 : ℕ) (1 : ℕ) = (0 : ℕ)) :=
  ⟨by decide +kernel,
    by decide +kernel,
    by decide +kernel,
    by decide +kernel,
    by decide +kernel,
    by decide +kernel,
    by decide +kernel,
    by decide +kernel⟩

theorem witness_StackModeFrames_2 :
    (((channelOf q0 ↑(63 : Fin (64 : ℕ))).parked = false ∧ (channelOf q0 ↑(63 : Fin (64 : ℕ))).powerDown = false ∧
      (channelOf q0 ↑(63 : Fin (64 : ℕ))).stopped = false ∧ (channelOf q0 ↑(63 : Fin (64 : ℕ))).training ≠ some (0 : ℕ)) ∧
      ¬(frameEven (8 : ℕ) (calFields (Instr.calTrainingEntry (63 : Fin (64 : ℕ)) (BitVec.ofNat (40 : ℕ) (1 : ℕ)), (1 : ℕ)).2 (BitVec.ofNat (40 : ℕ) (1 : ℕ))) = true ∧ bitsOf (BitVec.ofNat (40 : ℕ) (1 : ℕ)).toNat (39 : ℕ) (1 : ℕ) = (0 : ℕ))) ∧
    (((channelOf q0 ↑(63 : Fin (64 : ℕ))).parked = false ∧ (channelOf q0 ↑(63 : Fin (64 : ℕ))).powerDown = false ∧
      (channelOf q0 ↑(63 : Fin (64 : ℕ))).stopped = false ∧ (channelOf q0 ↑(63 : Fin (64 : ℕ))).training ≠ some (0 : ℕ)) ∧
      ¬(frameEven (8 : ℕ) (calFields (Instr.calTrainingExit (63 : Fin (64 : ℕ)) (BitVec.ofNat (40 : ℕ) (1 : ℕ)), (2 : ℕ)).2 (BitVec.ofNat (40 : ℕ) (1 : ℕ))) = true ∧ bitsOf (BitVec.ofNat (40 : ℕ) (1 : ℕ)).toNat (39 : ℕ) (1 : ℕ) = (0 : ℕ))) ∧
    (((channelOf q0 ↑(63 : Fin (64 : ℕ))).parked = false ∧ (channelOf q0 ↑(63 : Fin (64 : ℕ))).powerDown = false ∧
      (channelOf q0 ↑(63 : Fin (64 : ℕ))).stopped = false ∧ (channelOf q0 ↑(63 : Fin (64 : ℕ))).training ≠ some (0 : ℕ)) ∧
      (frameEven (6 : ℕ) m6c = false ∨ bitsOf m6c.toNat (35 : ℕ) (1 : ℕ) ≠ (0 : ℕ) ∨ (15 : ℕ) ≤ frameBank m6c)) ∧
    (((channelOf q0 ↑(63 : Fin (64 : ℕ))).parked = false ∧ (channelOf q0 ↑(63 : Fin (64 : ℕ))).powerDown = false ∧
      (channelOf q0 ↑(63 : Fin (64 : ℕ))).stopped = false ∧ (channelOf q0 ↑(63 : Fin (64 : ℕ))).training ≠ some (0 : ℕ)) ∧
      frameEven (7 : ℕ) m7 = true ∧ bitsOf m7.toNat (19 : ℕ) (1 : ℕ) = (0 : ℕ) ∧ frameBank m7 < (15 : ℕ)) ∧
    (((channelOf q0 ↑(63 : Fin (64 : ℕ))).parked = false ∧ (channelOf q0 ↑(63 : Fin (64 : ℕ))).powerDown = false ∧
      (channelOf q0 ↑(63 : Fin (64 : ℕ))).stopped = false ∧ (channelOf q0 ↑(63 : Fin (64 : ℕ))).training ≠ some (0 : ℕ)) ∧
      frameEven (9 : ℕ) m9 = true ∧ bitsOf m9.toNat (43 : ℕ) (1 : ℕ) = (0 : ℕ) ∧ stackIdle q0 ↑(63 : Fin (64 : ℕ)) = true) ∧
    ((channelOf q6 ↑(63 : Fin (64 : ℕ))).parked = false ∧ (channelOf q6 ↑(63 : Fin (64 : ℕ))).powerDown = true ∧
      frameEven (10 : ℕ) m9 = true ∧ bitsOf m9.toNat (43 : ℕ) (1 : ℕ) = (0 : ℕ)) :=
  ⟨by decide +kernel,
    by decide +kernel,
    by decide +kernel,
    by decide +kernel,
    by decide +kernel,
    by decide +kernel⟩

/-- States and operands that meet the hypotheses of `Obligations.StackEvents`, clause by clause. -/
theorem witness_StackEvents :
    (((channelOf q2 ↑(63 : Fin (64 : ℕ))).parked = false ∧ (channelOf q2 ↑(63 : Fin (64 : ℕ))).powerDown = false) ∧
      (bankOf q2 (↑(63 : Fin (64 : ℕ))) (BitVec.toNat (5 : Byte))).running = some { index := (9 : ℕ), data := dd : BankProg }) ∧
    ((bankOf q2 (↑(63 : Fin (64 : ℕ))) (BitVec.toNat (5 : Byte))).running = some { index := (9 : ℕ), data := dd : BankProg }) ∧
    ((bankOf e4 (↑(63 : Fin (64 : ℕ))) (BitVec.toNat (5 : Byte))).running = none) ∧
    (((channelOf e4 ↑(63 : Fin (64 : ℕ))).parked = false ∧ (channelOf e4 ↑(63 : Fin (64 : ℕ))).powerDown = false) ∧
      (bankOf e4 (↑(63 : Fin (64 : ℕ))) (BitVec.toNat (5 : Byte))).running = none ∧
      groupProgram e4 (↑(63 : Fin (64 : ℕ))) (BitVec.toNat (5 : Byte)) = false) ∧
    (((channelOf q2 ↑(63 : Fin (64 : ℕ))).parked = false ∧ (channelOf q2 ↑(63 : Fin (64 : ℕ))).powerDown = false) ∧
      (bankOf q2 (↑(63 : Fin (64 : ℕ))) (BitVec.toNat (5 : Byte))).running.isSome = true) ∧
    ((channelOf e4 ↑(63 : Fin (64 : ℕ))).parked = false ∧ (channelOf e4 ↑(63 : Fin (64 : ℕ))).powerDown = false) ∧
    (((channelOf e5 ↑(63 : Fin (64 : ℕ))).parked = false ∧ (channelOf e5 ↑(63 : Fin (64 : ℕ))).powerDown = false) ∧
      tabGet dNat (groupOf e5 (↑(63 : Fin (64 : ℕ)) / (8 : ℕ))).sent (↑(63 : Fin (64 : ℕ)) % (8 : ℕ)) = (158329674399745 : ℕ) ∧
      tabGet dBool (groupOf e5 (↑(63 : Fin (64 : ℕ)) / (8 : ℕ))).resent (↑(63 : Fin (64 : ℕ)) % (8 : ℕ)) = true) ∧
    (((channelOf e2 ↑(63 : Fin (64 : ℕ))).parked = false ∧ (channelOf e2 ↑(63 : Fin (64 : ℕ))).powerDown = false) ∧
      (bankOf e2 (↑(63 : Fin (64 : ℕ))) (BitVec.toNat (5 : Byte))).refused = some { index := (9 : ℕ), data := dd : BankProg } ∧
      (bankOf e2 (↑(63 : Fin (64 : ℕ))) (BitVec.toNat (5 : Byte))).running = none ∧
      tabGet dNat (channelOf e2 ↑(63 : Fin (64 : ℕ))).reissues (BitVec.toNat (5 : Byte)) < settingN e2 (10496 : ℕ) (4 : ℕ)) :=
  ⟨by decide +kernel,
    by decide +kernel,
    by decide +kernel,
    by decide +kernel,
    by decide +kernel,
    by decide +kernel,
    by decide +kernel,
    by decide +kernel⟩

theorem witness_StackEvents_2 :
    (((channelOf e4 ↑(63 : Fin (64 : ℕ))).parked = false ∧ (channelOf e4 ↑(63 : Fin (64 : ℕ))).powerDown = false) ∧
      (channelOf e4 ↑(63 : Fin (64 : ℕ))).failed = false ∧ (bitOf (BitVec.toNat (8 : BitVec (16 : ℕ))) (0 : ℕ) = true ∨
      bitOf (BitVec.toNat (8 : BitVec (16 : ℕ))) (2 : ℕ) = true ∨ bitOf (BitVec.toNat (8 : BitVec (16 : ℕ))) (3 : ℕ) = true)) ∧
    ((channelOf q5 ↑(63 : Fin (64 : ℕ))).parked = true) :=
  ⟨by decide +kernel,
    by decide +kernel⟩

/-- States and operands that meet the hypotheses of `Obligations.ChannelService`, clause by clause. -/
theorem witness_ChannelService :
    (∀ ch < 64, (channelOf e3 ch).failed = true ∨ (channelOf e3 ch).errors < forceN e3 10496 5) ∧
    (readyB e3 v Level.maintainer = true ∧ (channelOf (sfS e3 v) (BitVec.toNat (0 : Byte))).failed = false ∧
      wouldFence (sfS e3 v) (BitVec.toNat (0 : Byte)) = false) ∧
    (readyB h4 v Level.maintainer = true ∧ (channelOf (sfS h4 v) (BitVec.toNat (0 : Byte))).failed = false ∧
      wouldFence (sfS h4 v) (BitVec.toNat (0 : Byte)) = true) ∧
    (readyB e3 v Level.maintainer = true ∧ (channelOf (sfS e3 v) (BitVec.toNat (0 : Byte))).failed = false) ∧
    (readyB h2 v Level.maintainer = true ∧ (channelOf (sfS h2 v) (BitVec.toNat (63 : Byte))).failed = true) ∧
    (readyB h2 v Level.maintainer = true ∧ (channelOf (sfS h2 v) (BitVec.toNat (63 : Byte))).failed = true ∧
      (domainOf (sfS h2 v) (BitVec.toNat (63 : Byte) % 8)).phase = DomainPhase.good ∧ returnInProgress (sfS h2 v) = false ∧
      ∀ k < 8, (domainOf (sfS h2 v) k).restarting = false) ∧
    (readyB h3 v Level.maintainer = true ∧ (channelOf (sfS h3 v) (BitVec.toNat (63 : Byte))).failed = true ∧
      (domainOf (sfS h3 v) (BitVec.toNat (63 : Byte) % 8)).phase ≠ DomainPhase.good) ∧
    (readyB h4 v Level.maintainer = true ∧ (channelOf (sfS h4 v) (BitVec.toNat (63 : Byte))).failed = true ∧
      (domainOf (sfS h4 v) (BitVec.toNat (63 : Byte) % 8)).phase = DomainPhase.good ∧ returnInProgress (sfS h4 v) = true) :=
  ⟨by decide +kernel,
    by decide +kernel,
    by decide +kernel,
    by decide +kernel,
    by decide +kernel,
    by decide +kernel,
    by decide +kernel,
    by decide +kernel⟩

theorem witness_ChannelService_2 :
    (readyB e3 v Level.operator = true ∧ (channelOf (sfS e3 v) (settingN (sfS e3 v) 10528 1)).state = 2) ∧
    (readyB h6 v Level.operator = true ∧ (channelOf (sfS h6 v) (settingN (sfS h6 v) 10528 1)).state ≠ 2) :=
  ⟨by decide +kernel,
    by decide +kernel⟩

end Sys2Proof.Tests.G19

namespace Sys2Proof.Tests.G20
open Sys2Proof Sys2Proof.Machine Sys2Proof.Tests.Base

def ln (x : EaselLine) : State := { U with easel := { lines := [(1024, x)] }, reserve := { D.reserve with portCharge := if x.charge = 0 then [] else [(x.share, x.charge)] } }

def dat : Line := 0x1234567#512

def l1 := ln { valid := true, data := dat, vk := true, version := 3 }

def l2 := ln { valid := true, data := 0, poison := true, dirty := true, charge := 1, share := 1 }

def l3 := ln { valid := true, data := dat, dirty := true, charge := 1, share := 1, stamp := 3 }

def fen : State := { U with crypt := { ranges := [(0, { state := 4 })] } }

def pri : State := { U with sys := { D.sys with dev := .priming } }

def dn : State := { U with ports := [] }

def full : State := { U with reserve := { D.reserve with portCharge := [(0, 100)] } }

def wt : State := { U with reserve := { D.reserve with budget := 0, writeThrough := true, portShare := [] } }

/-- States and operands that meet the hypotheses of `Obligations.HostReads`, clause by clause. -/
theorem witness_HostReads :
    ((linkUp l1 ↑(0 : Fin (4 : ℕ)) = true ∧ hostsServed l1 = true ∧ (Option.any (fun dpa => decide (dpa / (64 : ℕ) =
      (64 : ℕ))) (hostDpa l1 (↑(0 : Fin (4 : ℕ))) (BitVec.ofNat (52 : ℕ) (4096 : ℕ)).toNat) = true) ∧
      sharedLine l1 (64 : ℕ) = false ∧ heldBefore l1 (64 : ℕ) l1.easel.nextSeq = false) ∧ lineFenced l1 (64 : ℕ) = false ∧
      easelFind l1 (64 : ℕ) = some (1024 : ℕ) ∧ (easelLine l1 (1024 : ℕ)).poison = false ∧
      (easelLine l1 (1024 : ℕ)).merge = false ∧ (easelLine l1 (1024 : ℕ)).fill = false) ∧
    ((linkUp l2 ↑(0 : Fin (4 : ℕ)) = true ∧ hostsServed l2 = true ∧ (Option.any (fun dpa => decide (dpa / (64 : ℕ) =
      (64 : ℕ))) (hostDpa l2 (↑(0 : Fin (4 : ℕ))) (BitVec.ofNat (52 : ℕ) (4096 : ℕ)).toNat) = true) ∧
      sharedLine l2 (64 : ℕ) = false ∧ heldBefore l2 (64 : ℕ) l2.easel.nextSeq = false) ∧ lineFenced l2 (64 : ℕ) = false ∧
      easelFind l2 (64 : ℕ) = some (1024 : ℕ) ∧ (easelLine l2 (1024 : ℕ)).poison = true) ∧
    ((linkUp fen ↑(0 : Fin (4 : ℕ)) = true ∧ hostsServed fen = true ∧ (Option.any (fun dpa => decide (dpa / (64 : ℕ) =
      (64 : ℕ))) (hostDpa fen (↑(0 : Fin (4 : ℕ))) (BitVec.ofNat (52 : ℕ) (4096 : ℕ)).toNat) = true) ∧
      sharedLine fen (64 : ℕ) = false ∧ heldBefore fen (64 : ℕ) fen.easel.nextSeq = false) ∧ lineFenced fen (64 : ℕ) = true) ∧
    ((linkUp U ↑(0 : Fin (4 : ℕ)) = true ∧ hostsServed U = true ∧ (Option.any (fun dpa => decide (dpa / (64 : ℕ) =
      (64 : ℕ))) (hostDpa U (↑(0 : Fin (4 : ℕ))) (BitVec.ofNat (52 : ℕ) (4096 : ℕ)).toNat) = true) ∧
      sharedLine U (64 : ℕ) = false ∧ heldBefore U (64 : ℕ) U.easel.nextSeq = false) ∧ lineFenced U (64 : ℕ) = false ∧
      easelFind U (64 : ℕ) = none ∧ poisonEntry U (64 : ℕ) = none ∧ boundaryLine U (64 : ℕ) = none ∧
      easelVictim U (easelSet (64 : ℕ)) = some (1024 : ℕ) ∧ ∀ e ∈ U.easel.reads, ¬(e.2.kind = (1 : ℕ) ∧ e.2.line = (64 : ℕ) ∧
      e.2.dead = false ∧ e.2.closed = false)) ∧
    (linkUp pri ↑(0 : Fin (4 : ℕ)) = true ∧ (pri.sys.dev = DeviceState.priming ∨ hostsServed pri = true ∧
      hostDpa pri (↑(0 : Fin (4 : ℕ))) (BitVec.ofNat (52 : ℕ) (4096 : ℕ)).toNat = none)) ∧
    (linkUp dn ↑(0 : Fin (4 : ℕ)) = false) :=
  ⟨by decide +kernel,
    by decide +kernel,
    by decide +kernel,
    by decide +kernel,
    by decide +kernel,
    by decide +kernel⟩

/-- States and operands that meet the hypotheses of `Obligations.HostWrites`, clause by clause. -/
theorem witness_HostWrites :
    (((linkUp l2 ↑(0 : Fin (4 : ℕ)) = true ∧ hostsServed l2 = true ∧ heldEntries l2 ↑(0 : Fin (4 : ℕ)) < (64 : ℕ) ∧
      (Option.any (fun dpa => decide (dpa / (64 : ℕ) =
      (64 : ℕ))) (hostDpa l2 (↑(0 : Fin (4 : ℕ))) (BitVec.ofNat (52 : ℕ) (4096 : ℕ)).toNat) = true) ∧
      sharedLine l2 (64 : ℕ) = false ∧ heldBefore l2 (64 : ℕ) l2.easel.nextSeq = false) ∧ lineFenced l2 (64 : ℕ) = false ∧
      frailSet l2 (easelSet (64 : ℕ)) = false) ∧ (l2.reserve.budget ≠ (0 : ℕ) ∧ portShareOf l2 ↑(0 : Fin (4 : ℕ)) ≠ (0 : ℕ)) ∧
      easelFind l2 (64 : ℕ) = some (1024 : ℕ) ∧ (easelLine l2 (1024 : ℕ)).dirty = true ∧
      (easelLine l2 (1024 : ℕ)).charge = (1 : ℕ) ∧ (easelLine l2 (1024 : ℕ)).onDevice = false ∧
      portCharged l2 (easelLine l2 (1024 : ℕ)).share ≤ portShareOf l2 (easelLine l2 (1024 : ℕ)).share ∧
      dirtyWays l2 (easelSet (64 : ℕ)) < dirtyLimit l2 (easelSet (64 : ℕ))) ∧
    (((linkUp U ↑(0 : Fin (4 : ℕ)) = true ∧ hostsServed U = true ∧ heldEntries U ↑(0 : Fin (4 : ℕ)) < (64 : ℕ) ∧
      (Option.any (fun dpa => decide (dpa / (64 : ℕ) =
      (64 : ℕ))) (hostDpa U (↑(0 : Fin (4 : ℕ))) (BitVec.ofNat (52 : ℕ) (4096 : ℕ)).toNat) = true) ∧
      sharedLine U (64 : ℕ) = false ∧ heldBefore U (64 : ℕ) U.easel.nextSeq = false) ∧ lineFenced U (64 : ℕ) = false ∧
      frailSet U (easelSet (64 : ℕ)) = false) ∧ (U.reserve.budget ≠ (0 : ℕ) ∧ portShareOf U ↑(0 : Fin (4 : ℕ)) ≠ (0 : ℕ)) ∧
      easelFind U (64 : ℕ) = none ∧ easelVictim U (easelSet (64 : ℕ)) = some (1024 : ℕ) ∧
      dirtyWays U (easelSet (64 : ℕ)) < dirtyLimit U (easelSet (64 : ℕ)) ∧
      portCharged U ↑(0 : Fin (4 : ℕ)) + (1 : ℕ) ≤ portShareOf U ↑(0 : Fin (4 : ℕ))) ∧
    (((linkUp l3 ↑(0 : Fin (4 : ℕ)) = true ∧ hostsServed l3 = true ∧ heldEntries l3 ↑(0 : Fin (4 : ℕ)) < (64 : ℕ) ∧
      (Option.any (fun dpa => decide (dpa / (64 : ℕ) =
      (64 : ℕ))) (hostDpa l3 (↑(0 : Fin (4 : ℕ))) (BitVec.ofNat (52 : ℕ) (4096 : ℕ)).toNat) = true) ∧
      sharedLine l3 (64 : ℕ) = false ∧ heldBefore l3 (64 : ℕ) l3.easel.nextSeq = false) ∧ lineFenced l3 (64 : ℕ) = false ∧
      frailSet l3 (easelSet (64 : ℕ)) = false) ∧ (l3.reserve.budget ≠ (0 : ℕ) ∧ portShareOf l3 ↑(0 : Fin (4 : ℕ)) ≠ (0 : ℕ)) ∧
      easelFind l3 (64 : ℕ) = some (1024 : ℕ) ∧ (easelLine l3 (1024 : ℕ)).dirty = true ∧
      (easelLine l3 (1024 : ℕ)).poison = false ∧ (easelLine l3 (1024 : ℕ)).merge = false ∧
      (easelLine l3 (1024 : ℕ)).fill = false ∧ (easelLine l3 (1024 : ℕ)).charge = (1 : ℕ) ∧
      (easelLine l3 (1024 : ℕ)).onDevice = false ∧
      portCharged l3 (easelLine l3 (1024 : ℕ)).share ≤ portShareOf l3 (easelLine l3 (1024 : ℕ)).share ∧
      dirtyWays l3 (easelSet (64 : ℕ)) < dirtyLimit l3 (easelSet (64 : ℕ))) ∧
    (((linkUp U ↑(0 : Fin (4 : ℕ)) = true ∧ hostsServed U = true ∧ heldEntries U ↑(0 : Fin (4 : ℕ)) < (64 : ℕ) ∧
      (Option.any (fun dpa => decide (dpa / (64 : ℕ) =
      (64 : ℕ))) (hostDpa U (↑(0 : Fin (4 : ℕ))) (BitVec.ofNat (52 : ℕ) (4096 : ℕ)).toNat) = true) ∧
      sharedLine U (64 : ℕ) = false ∧ heldBefore U (64 : ℕ) U.easel.nextSeq = false) ∧ lineFenced U (64 : ℕ) = false ∧
      frailSet U (easelSet (64 : ℕ)) = false) ∧ (U.reserve.budget ≠ (0 : ℕ) ∧ portShareOf U ↑(0 : Fin (4 : ℕ)) ≠ (0 : ℕ)) ∧
      easelFind U (64 : ℕ) = none ∧ easelVictim U (easelSet (64 : ℕ)) = some (1024 : ℕ) ∧
      dirtyWays U (easelSet (64 : ℕ)) < dirtyLimit U (easelSet (64 : ℕ)) ∧
      portCharged U ↑(0 : Fin (4 : ℕ)) + (2 : ℕ) ≤ portShareOf U ↑(0 : Fin (4 : ℕ)) ∧ mergesInUse U < (8192 : ℕ)) ∧
    (((linkUp full ↑(0 : Fin (4 : ℕ)) = true ∧ hostsServed full = true ∧ heldEntries full ↑(0 : Fin (4 : ℕ)) < (64 : ℕ) ∧
      (Option.any (fun dpa => decide (dpa / (64 : ℕ) =
      (64 : ℕ))) (hostDpa full (↑(0 : Fin (4 : ℕ))) (BitVec.ofNat (52 : ℕ) (4096 : ℕ)).toNat) = true) ∧
      sharedLine full (64 : ℕ) = false ∧ heldBefore full (64 : ℕ) full.easel.nextSeq = false) ∧
      lineFenced full (64 : ℕ) = false ∧ frailSet full (easelSet (64 : ℕ)) = false) ∧ (full.reserve.budget ≠ (0 : ℕ) ∧
      portShareOf full ↑(0 : Fin (4 : ℕ)) ≠ (0 : ℕ)) ∧ easelFind full (64 : ℕ) = none ∧
      dirtyWays full (easelSet (64 : ℕ)) < dirtyLimit full (easelSet (64 : ℕ)) ∧
      portShareOf full ↑(0 : Fin (4 : ℕ)) < portCharged full ↑(0 : Fin (4 : ℕ)) + (1 : ℕ)) ∧
    (((linkUp wt ↑(0 : Fin (4 : ℕ)) = true ∧ hostsServed wt = true ∧ heldEntries wt ↑(0 : Fin (4 : ℕ)) < (64 : ℕ) ∧
      (Option.any (fun dpa => decide (dpa / (64 : ℕ) =
      (64 : ℕ))) (hostDpa wt (↑(0 : Fin (4 : ℕ))) (BitVec.ofNat (52 : ℕ) (4096 : ℕ)).toNat) = true) ∧
      sharedLine wt (64 : ℕ) = false ∧ heldBefore wt (64 : ℕ) wt.easel.nextSeq = false) ∧ lineFenced wt (64 : ℕ) = false ∧
      frailSet wt (easelSet (64 : ℕ)) = false) ∧ wt.reserve.budget = (0 : ℕ) ∧ easelFind wt (64 : ℕ) = none ∧
      easelVictim wt (easelSet (64 : ℕ)) = some (1024 : ℕ) ∧
      dirtyWays wt (easelSet (64 : ℕ)) < dirtyLimit wt (easelSet (64 : ℕ))) ∧
    ((linkUp fen ↑(0 : Fin (4 : ℕ)) = true ∧ hostsServed fen = true ∧ heldEntries fen ↑(0 : Fin (4 : ℕ)) < (64 : ℕ) ∧
      (Option.any (fun dpa => decide (dpa / (64 : ℕ) =
      (64 : ℕ))) (hostDpa fen (↑(0 : Fin (4 : ℕ))) (BitVec.ofNat (52 : ℕ) (4096 : ℕ)).toNat) = true) ∧
      sharedLine fen (64 : ℕ) = false ∧ heldBefore fen (64 : ℕ) fen.easel.nextSeq = false) ∧ lineFenced fen (64 : ℕ) = true) ∧
    (linkUp pri ↑(0 : Fin (4 : ℕ)) = true ∧ (pri.sys.dev = DeviceState.priming ∨ hostsServed pri = true ∧
      heldEntries pri ↑(0 : Fin (4 : ℕ)) < (64 : ℕ) ∧
      hostDpa pri (↑(0 : Fin (4 : ℕ))) (BitVec.ofNat (52 : ℕ) (4096 : ℕ)).toNat = none)) :=
  ⟨by decide +kernel,
    by decide +kernel,
    by decide +kernel,
    by decide +kernel,
    by decide +kernel,
    by decide +kernel,
    by decide +kernel,
    by decide +kernel⟩

theorem witness_HostWrites_2 :
    linkUp dn ↑(0 : Fin (4 : ℕ)) = false ∨ hostsServed dn = true ∧ (64 : ℕ) ≤ heldEntries dn ↑(0 : Fin (4 : ℕ)) :=
  by decide +kernel

end Sys2Proof.Tests.G20

namespace Sys2Proof.Tests.G21
open Sys2Proof Sys2Proof.Machine Sys2Proof.Tests.Base

def pl : Place := { group := 1, slot := some (0, 0), addrs := List.replicate 8 557056, filter := (0, 0) }

def E1 : Codeword := 0

def E2 : Codeword := BitVec.ofNat 768 (2^400 - 1)

def k1 := held1

def k2 := held2

def x1 : List Nat := []

def rq : State := { U with easel := { lines := [(1024, { valid := true, fill := true, tag := easelTag 64 })], reads := [(0, { line := 64, kind := 0, place := 1024 })], waits := [{ line := 64, who := .host 0 10 }] } }

def rqF : State := { rq with groups := tabMod dGroup rq.groups 1 (fun g => { g with fenced := true }) }

def rqS : State := { rq with thermal := { rq.thermal with sleep := [(1, 2)] } }

def rqN : State := { rq with easel := { rq.easel with reads := [(0, { line := 64, kind := 9 })] } }

def dg : State := { g1 with easel := { g1.easel with lines := [(1024, { valid := true, dirty := true, vk := true, version := 0xFFFFFF, charge := 1, data := dat, queued := true })], flights := [] }, groups := w1.groups }

/-- States and operands that meet the hypotheses of `Obligations.TileArrival`, clause by clause. -/
theorem witness_TileArrival :
    ((tabGet dRead rd.easel.reads (BitVec.ofNat 32 0).toNat).kind = 0 ∧
      (tabGet dRead rd.easel.reads (BitVec.ofNat 32 0).toNat).dead = false ∧
      (tabGet dRead rd.easel.reads (BitVec.ofNat 32 0).toNat).content = [] ∧
      fillLive rd (tabGet dRead rd.easel.reads (BitVec.ofNat 32 0).toNat) = true ∧
      (easelLine rd (tabGet dRead rd.easel.reads (BitVec.ofNat 32 0).toNat).place).merge = false ∧
      sealedLine rd (tabGet dRead rd.easel.reads (BitVec.ofNat 32 0).toNat).line = false) ∧
      (linePlace rd (tabGet dRead rd.easel.reads (BitVec.ofNat 32 0).toNat).line = some pl ∧ placeFenced rd pl = false ∧
      groupAwake rd pl.group = true ∧ remapReady rd pl = true) ∧
      judgeDecode (TileId.host (tabGet dRead rd.easel.reads (BitVec.ofNat 32 0).toNat).line) (decodeAt rd pl.group pl.addrs (erasedColumns rd pl.group pl.slot ++ (maskColumns (0 : Byte) ++ (takeErased rd pl.group pl.addrs).2)).eraseDups E1) = TileRead.good k1 x1 ∧ checkLine rd (tabGet dRead rd.easel.reads (BitVec.ofNat 32 0).toNat).line k1 = LineCheck.ok dat :=
  by decide +kernel

theorem witness_TileArrival_2 :
    ((tabGet dRead prd.easel.reads (BitVec.ofNat 32 0).toNat).kind = 0 ∧
      (tabGet dRead prd.easel.reads (BitVec.ofNat 32 0).toNat).dead = false ∧
      (tabGet dRead prd.easel.reads (BitVec.ofNat 32 0).toNat).content = [] ∧
      fillLive prd (tabGet dRead prd.easel.reads (BitVec.ofNat 32 0).toNat) = true ∧
      (easelLine prd (tabGet dRead prd.easel.reads (BitVec.ofNat 32 0).toNat).place).merge = false ∧
      sealedLine prd (tabGet dRead prd.easel.reads (BitVec.ofNat 32 0).toNat).line = false) ∧
      (linePlace prd (tabGet dRead prd.easel.reads (BitVec.ofNat 32 0).toNat).line = some pl ∧ placeFenced prd pl = false ∧
      groupAwake prd pl.group = true ∧ remapReady prd pl = true) ∧
      judgeDecode (TileId.host (tabGet dRead prd.easel.reads (BitVec.ofNat 32 0).toNat).line) (decodeAt prd pl.group pl.addrs (erasedColumns prd pl.group pl.slot ++ (maskColumns (0 : Byte) ++ (takeErased prd pl.group pl.addrs).2)).eraseDups E1) = TileRead.poison k2 x1 :=
  by decide +kernel

theorem witness_TileArrival_3 :
    ((tabGet dRead rqF.easel.reads (BitVec.ofNat 32 0).toNat).kind = 0 ∧
      (tabGet dRead rqF.easel.reads (BitVec.ofNat 32 0).toNat).dead = false ∧
      (tabGet dRead rqF.easel.reads (BitVec.ofNat 32 0).toNat).content = [] ∧
      fillLive rqF (tabGet dRead rqF.easel.reads (BitVec.ofNat 32 0).toNat) = true ∧
      (easelLine rqF (tabGet dRead rqF.easel.reads (BitVec.ofNat 32 0).toNat).place).merge = false ∧
      sealedLine rqF (tabGet dRead rqF.easel.reads (BitVec.ofNat 32 0).toNat).line = false) ∧
      linePlace rqF (tabGet dRead rqF.easel.reads (BitVec.ofNat 32 0).toNat).line = some pl ∧ placeFenced rqF pl = true :=
  by decide +kernel

theorem witness_TileArrival_4 :
    linePlace rqS (tabGet dRead rqS.easel.reads (BitVec.ofNat 32 0).toNat).line = some pl ∧ placeFenced rqS pl = false ∧
      groupAwake rqS pl.group = false :=
  by decide +kernel

theorem witness_TileArrival_5 :
    (tabGet dRead rqN.easel.reads (BitVec.ofNat 32 0).toNat).kind = 9 ∨
      (tabGet dRead rqN.easel.reads (BitVec.ofNat 32 0).toNat).content ≠ [] :=
  by decide +kernel

theorem witness_TileArrival_6 :
    ((tabGet dRead rd.easel.reads (BitVec.ofNat 32 0).toNat).kind = 0 ∧
      (tabGet dRead rd.easel.reads (BitVec.ofNat 32 0).toNat).dead = false ∧
      (tabGet dRead rd.easel.reads (BitVec.ofNat 32 0).toNat).content = [] ∧
      fillLive rd (tabGet dRead rd.easel.reads (BitVec.ofNat 32 0).toNat) = true ∧
      (easelLine rd (tabGet dRead rd.easel.reads (BitVec.ofNat 32 0).toNat).place).merge = false ∧
      sealedLine rd (tabGet dRead rd.easel.reads (BitVec.ofNat 32 0).toNat).line = false) ∧
      (linePlace rd (tabGet dRead rd.easel.reads (BitVec.ofNat 32 0).toNat).line = some pl ∧ placeFenced rd pl = false ∧
      groupAwake rd pl.group = true ∧ remapReady rd pl = true) ∧
      judgeDecode (TileId.host (tabGet dRead rd.easel.reads (BitVec.ofNat 32 0).toNat).line) (decodeAt rd pl.group pl.addrs (erasedColumns rd pl.group pl.slot ++ (maskColumns (0 : Byte) ++ (takeErased rd pl.group pl.addrs).2)).eraseDups E2) = TileRead.failed [] ∧ (tabGet dRead rd.easel.reads (BitVec.ofNat 32 0).toNat).retries + (tabGet dRead rd.easel.reads (BitVec.ofNat 32 0).toNat).spent < ((tabGet dRead rd.easel.reads (BitVec.ofNat 32 0).toNat).latch.getD (latchNow rd)).1 :=
  by decide +kernel

/-- States and operands that meet the hypotheses of `Obligations.Destages`, clause by clause. -/
theorem witness_Destages :
    List.find? (fun e => destageReady dg (↑(1 : Fin (8 : ℕ))) e.2) (groupOf dg ↑(1 : Fin (8 : ℕ))).destages =
      some ((4 : ℕ), (1024 : ℕ)) ∧ sealedLine dg (placeLine dg (1024 : ℕ)) = false ∧ ephemeralState dg = false ∧
      (easelLine dg (1024 : ℕ)).poison = false ∧ (easelLine dg (1024 : ℕ)).vk = true :=
  by decide +kernel

theorem witness_Destages_2 :
    (List.find? (fun x => x.line == (BitVec.ofNat 38 64).toNat && x.fill.isNone) g1.easel.flights = some f0 ∧
      linePlace g1 f0.line = some pl ∧ placeFenced g1 pl = false ∧ pl.group < 8 ∧ g1.sys.dev ≠ DeviceState.varnish ∧
      (easelLine g1 f0.place).valid = true ∧ (easelLine g1 f0.place).flight = true ∧
      (easelLine g1 f0.place).tag = easelTag f0.line ∧ (easelLine g1 f0.place).onDevice = false) ∧
      (easelLine g1 f0.place).written = false :=
  by decide +kernel

theorem witness_Destages_3 :
    (List.find? (fun x => x.line == (BitVec.ofNat 38 64).toNat && x.fill.isNone) g1w.easel.flights = some f0 ∧
      linePlace g1w f0.line = some pl ∧ placeFenced g1w pl = false ∧ pl.group < 8 ∧ g1w.sys.dev ≠ DeviceState.varnish ∧
      (easelLine g1w f0.place).valid = true ∧ (easelLine g1w f0.place).flight = true ∧
      (easelLine g1w f0.place).tag = easelTag f0.line ∧ (easelLine g1w f0.place).onDevice = false) ∧
      (easelLine g1w f0.place).written = true :=
  by decide +kernel

end Sys2Proof.Tests.G21

namespace Sys2Proof.Tests.G21b
open Sys2Proof Sys2Proof.Machine Sys2Proof.Tests.Base

def sl (x : EaselLine) (k : Nat := 0) : State := { U with easel := { lines := [(1024, x), (1041, { x with stamp := 5 })], tick := 7, flushing := k == 1 } }

def t1 := sl { valid := true, dirty := true, stamp := 15, charge := 1 }

def t3 := sl { valid := true, dirty := true, stamp := 15, charge := 1 } 1

def hw : WriteReq := { line := 64, data := 7, mask := BitVec.allOnes 64, seq := 5, port := 0, who := .host 0 3 }

def hw2 : WriteReq := { line := 64, data := 8, mask := BitVec.allOnes 64, seq := 6, port := 0, who := .host 0 4 }

def ph (l : List WriteReq) (x : State) : State := { x with ports := [(0, { link := 3, held := l, decoders := [(0, { base := 0, dpa := 0, size := 28672, ways := 1, gran := 256, committed := true })] })], easel := { x.easel with nextSeq := 9 } }

def t5 := ph [hw, hw2] U

def dq (x : List TileId) (y : State) : State := { y with groups := (List.range 8).map (fun g => (g, { table := [(0, { mapped := true })], free := [14341, 14342], journals := [14340], deepReads := x })) }

def t7 := dq [.host 64, .host 65] t1

def t8 := dq [.host 64, .host 65] U

def t10 : State := { ph [hw, hw2] U with groups := (List.range 8).map (fun g => (g, { fenced := g == 0 || g == 1, table := [(0, { mapped := true })] })) }

def r1 : State := { U with easel := { scrub := [(0, 6271), (63, 6272), (5, 3)], patrolled := [(5, true)], rowsDue := [64 * 3 + 5, 9], spareRows := [(16 * 5, 8), (16*63, 1)], rowCounts := [(64*3+5, 1000)] } }

def r2 : State := { r1 with easel := { r1.easel with patrolDue := [(5, true)] } }

/-- States and operands that meet the hypotheses of `Obligations.Selections`, clause by clause. -/
theorem witness_Selections :
    (readyB t10 v Level.operator = true ∧ (sfS t10 v).easel.flushing = false) ∧
    (readyB t3 v Level.operator = true ∧ (sfS t3 v).easel.flushing = true) ∧
    ((∀ v ∈ (portOf t5 ↑(0 : Fin (4 : ℕ))).held, lineFenced t5 v.line = false) ∧   List.find?       (fun w =>         !heldBefore t5 w.line w.seq &&           match takeIn t5 w with           | TakeIn.done s through => true           | TakeIn.held why => false)       (portOf t5 ↑(0 : Fin (4 : ℕ))).held =     some hw) ∧
    ((∀ v ∈ (portOf U ↑(0 : Fin (4 : ℕ))).held, lineFenced U v.line = false) ∧   List.find?       (fun w =>         !heldBefore U w.line w.seq &&           match takeIn U w with           | TakeIn.done s through => true           | TakeIn.held why => false)       (portOf U ↑(0 : Fin (4 : ℕ))).held =     none) ∧
    (¬∀ v ∈ (portOf t10 ↑(0 : Fin (4 : ℕ))).held, lineFenced t10 v.line = false) ∧
    ((groupOf t7 ↑(1 : Fin (8 : ℕ))).deepReads = [TileId.host (64 : ℕ), TileId.host (65 : ℕ)] ∧
      engineRuns t7 ↑(1 : Fin (8 : ℕ)) = true ∧ tileDirty t7 (TileId.host (64 : ℕ)) = true) ∧
    (((groupOf t8 ↑(1 : Fin (8 : ℕ))).deepReads = [TileId.host (64 : ℕ), TileId.host (65 : ℕ)] ∧
      engineRuns t8 ↑(1 : Fin (8 : ℕ)) = true ∧ tileDirty t8 (TileId.host (64 : ℕ)) = false) ∧
      Option.any (fun pl => decide (placeReady t8 pl = true ∧ authReady t8 (TileId.host (64 : ℕ)) = true ∧
      tileInFlight t8 (TileId.host (64 : ℕ)) = false ∧ unitInRegion t8 (TileId.host (64 : ℕ)) =
      false)) (placeOf t8 (TileId.host (64 : ℕ))) = true) ∧
    ((groupOf t10 ↑(1 : Fin (8 : ℕ))).deepReads = [] ∨ engineRuns t10 ↑(1 : Fin (8 : ℕ)) = false) :=
  ⟨by decide +kernel,
    by decide +kernel,
    by decide +kernel,
    by decide +kernel,
    by decide +kernel,
    by decide +kernel,
    by decide +kernel,
    by decide +kernel⟩

/-- States and operands that meet the hypotheses of `Obligations.EaselRepair`, clause by clause. -/
theorem witness_EaselRepair :
    (tabGet dBool r2.easel.patrolDue ↑(0 : Fin (64 : ℕ)) = false) ∧
    (scrubTarget r2 (↑(0 : Fin (64 : ℕ))) (tabGet dNat r2.easel.scrub ↑(0 : Fin (64 : ℕ))) < (6272 : ℕ)) ∧
    (tabGet dBool r2.easel.patrolDue ↑(5 : Fin (64 : ℕ)) = true) ∧
    (U.easel.rowsDue = []) ∧
    (r2.easel.rowsDue = [(64 : ℕ) * (3 : ℕ) + (5 : ℕ), (9 : ℕ)] ∧
      tabGet dNat r2.easel.spareRows ((16 : ℕ) * (((64 : ℕ) * (3 : ℕ) + (5 : ℕ)) % (64 : ℕ)) + (1 : ℕ)) = (0 : ℕ) ∧
      (∀ j < (1 : ℕ), tabGet dNat r2.easel.spareRows ((16 : ℕ) * (((64 : ℕ) * (3 : ℕ) + (5 : ℕ)) % (64 : ℕ)) + j) ≠ (0 : ℕ)) ∧
      ∀ (q : ℕ), q / (16 : ℕ) = (64 : ℕ) * (3 : ℕ) + (5 : ℕ) → (easelLine r2 q).valid = true → easelFind r2 (placeLine r2 q) =
      some q) :=
  ⟨by decide +kernel,
    by decide +kernel,
    by decide +kernel,
    by decide +kernel,
    ⟨by decide +kernel, by decide +kernel, by decide +kernel, fun q hq => by
      have h1 : 3152 ≤ q := by omega
      have h2 : q < 3168 := by omega
      interval_cases q <;> decide +kernel⟩⟩

end Sys2Proof.Tests.G21b

namespace Sys2Proof.Tests.G21c
open Sys2Proof Sys2Proof.Machine Sys2Proof.Tests.Base

def dq (x : List TileId) (y : State) : State := { y with groups := (List.range 8).map (fun g => (g, { table := [(0, { mapped := true })], free := [14341, 14342], journals := [14340], deepReads := x })) }

def t8 := dq [.host 64, .host 65] U

def t11 : State := { t8 with easel := { t8.easel with flights := [{ place := 1024, line := 64, version := 0, code := [] }] } }

theorem witness_Selections_2 :
    ((groupOf t11 ↑(1 : Fin (8 : ℕ))).deepReads = [TileId.host (64 : ℕ), TileId.host (65 : ℕ)] ∧
      engineRuns t11 ↑(1 : Fin (8 : ℕ)) = true ∧ tileDirty t11 (TileId.host (64 : ℕ)) = false) ∧
      Option.any (fun pl => decide ((placeReady t11 pl = false ∨ authReady t11 (TileId.host (64 : ℕ)) = false ∨
      tileInFlight t11 (TileId.host (64 : ℕ)) = true ∨ unitInRegion t11 (TileId.host (64 : ℕ)) =
      true))) (placeOf t11 (TileId.host (64 : ℕ))) = true :=
  by decide +kernel

end Sys2Proof.Tests.G21c

namespace Sys2Proof.Tests.G22
open Sys2Proof Sys2Proof.Machine Sys2Proof.Tests.Base

def rd0 : SnoopRound := { line := 0, waiting := [] }

def r1 := rq.directory.rounds.getD 0 rd0

def r2 := rq2.directory.rounds.getD 0 rd0

def r4 := ev2.directory.rounds.getD 0 rd0

def r5 : SnoopRound := { r1 with conflicts := [1] }

def rqc : State := { rq with directory := { rq.directory with rounds := [r5] } }

/-- States and operands that meet the hypotheses of `Obligations.Sharing`, clause by clause. -/
theorem witness_Sharing :
    (linkUp ex1 ↑(0 : Fin (4 : ℕ)) = true ∧ hostsServed ex1 = true ∧ (Option.any (fun dpa => decide (dpa / (64 : ℕ) =
      (64 : ℕ))) (hostDpa ex1 (↑(0 : Fin (4 : ℕ))) (BitVec.ofNat (52 : ℕ) (4096 : ℕ)).toNat) = true) ∧
      sharedLine ex1 (64 : ℕ) = true ∧ (portOf ex1 ↑(0 : Fin (4 : ℕ))).fenced = false ∧ roundOf ex1 (64 : ℕ) = none ∧
      tabGet dBool ex1.directory.suspect (dirSet (64 : ℕ)) = false ∧ dirFind ex1 (64 : ℕ) = some (1024 : ℕ) ∧
      (dirEntry ex1 (1024 : ℕ)).exclusive = true ∧ bitOf (dirEntry ex1 (1024 : ℕ)).presence (1 : ℕ) = true ∧
      snoopable ex1 (1 : ℕ) = true) ∧
    (Option.all (fun x => decide (↑(0 : Fin (4 : ℕ)) ∉ x.waiting)) (roundOf B (BitVec.ofNat (38 : ℕ) (64 : ℕ)).toNat) = true) ∧
    ((roundOf ev2 (BitVec.ofNat (38 : ℕ) (entryLine ev1 (1039 : ℕ))).toNat = some r4 ∧ ↑(0 : Fin (4 : ℕ)) ∈ r4.waiting) ∧
      r4.waiting.erase ↑(0 : Fin (4 : ℕ)) = [] ∧ r4.behind = []) ∧
    ((roundOf ev2 (BitVec.ofNat (38 : ℕ) (entryLine ev1 (1039 : ℕ))).toNat = some r4 ∧ ↑(0 : Fin (4 : ℕ)) ∈ r4.waiting) ∧
      unanswered ev2 (↑(0 : Fin (4 : ℕ))) (BitVec.ofNat (38 : ℕ) (entryLine ev1 (1039 : ℕ))).toNat = false) ∧
    ((roundOf rqc (BitVec.ofNat (38 : ℕ) (64 : ℕ)).toNat = some r5 ∧ ↑(1 : Fin (4 : ℕ)) ∈ r5.waiting) ∧
      ↑(1 : Fin (4 : ℕ)) ∈ r5.conflicts) ∧
    ((roundOf rq2 (BitVec.ofNat (38 : ℕ) (64 : ℕ)).toNat = some r2 ∧ ↑(1 : Fin (4 : ℕ)) ∈ r2.waiting) ∧
      r2.waiting.erase ↑(1 : Fin (4 : ℕ)) ≠ []) ∧
    ((roundOf rq2 (BitVec.ofNat (38 : ℕ) (64 : ℕ)).toNat = some r2 ∧ ↑(1 : Fin (4 : ℕ)) ∈ r2.waiting) ∧
      ↑(1 : Fin (4 : ℕ)) ∉ r2.conflicts ∧ r2.waiting.erase ↑(1 : Fin (4 : ℕ)) ≠ []) ∧
    ((freeWays ev3 ↑(64 : Fin (2097152 : ℕ)) < settingN ev3 (11008 : ℕ) (3 : ℕ) ∧
      (dirEntry ev3 ((16 : ℕ) * ↑(64 : Fin (2097152 : ℕ)) + (15 : ℕ))).presence ≠ (0 : ℕ) ∧
      roundOf ev3 (entryLine ev3 ((16 : ℕ) * ↑(64 : Fin (2097152 : ℕ)) + (15 : ℕ))) = none ∧
      ∀ j < (16 : ℕ), j ≠ (15 : ℕ) → (dirEntry ev3 ((16 : ℕ) * ↑(64 : Fin (2097152 : ℕ)) + j)).presence ≠ (0 : ℕ) → roundOf ev3 (entryLine ev3 ((16 : ℕ) * ↑(64 : Fin (2097152 : ℕ)) + j)) = none → (dirEntry ev3 ((16 : ℕ) * ↑(64 : Fin (2097152 : ℕ)) + (15 : ℕ))).touch < (dirEntry ev3 ((16 : ℕ) * ↑(64 : Fin (2097152 : ℕ)) + j)).touch) ∧ List.filter (snoopable ev3) (portsIn (dirEntry ev3 ((16 : ℕ) * ↑(64 : Fin (2097152 : ℕ)) + (15 : ℕ))).presence) = []) :=
  ⟨by decide +kernel,
    by decide +kernel,
    by decide +kernel,
    by decide +kernel,
    by decide +kernel,
    by decide +kernel,
    by decide +kernel,
    by decide +kernel⟩

theorem witness_Sharing_2 :
    ((freeWays ev1 ↑(64 : Fin (2097152 : ℕ)) < settingN ev1 (11008 : ℕ) (3 : ℕ) ∧
      (dirEntry ev1 ((16 : ℕ) * ↑(64 : Fin (2097152 : ℕ)) + (15 : ℕ))).presence ≠ (0 : ℕ) ∧
      roundOf ev1 (entryLine ev1 ((16 : ℕ) * ↑(64 : Fin (2097152 : ℕ)) + (15 : ℕ))) = none ∧
      ∀ j < (16 : ℕ), j ≠ (15 : ℕ) → (dirEntry ev1 ((16 : ℕ) * ↑(64 : Fin (2097152 : ℕ)) + j)).presence ≠ (0 : ℕ) → roundOf ev1 (entryLine ev1 ((16 : ℕ) * ↑(64 : Fin (2097152 : ℕ)) + j)) = none → (dirEntry ev1 ((16 : ℕ) * ↑(64 : Fin (2097152 : ℕ)) + (15 : ℕ))).touch < (dirEntry ev1 ((16 : ℕ) * ↑(64 : Fin (2097152 : ℕ)) + j)).touch) ∧ List.filter (snoopable ev1) (portsIn (dirEntry ev1 ((16 : ℕ) * ↑(64 : Fin (2097152 : ℕ)) + (15 : ℕ))).presence) ≠ []) ∧
    (settingN B (11008 : ℕ) (3 : ℕ) ≤ freeWays B ↑(64 : Fin (2097152 : ℕ))) :=
  ⟨by decide +kernel,
    by decide +kernel⟩

end Sys2Proof.Tests.G22

namespace Sys2Proof.Tests.G22b
open Sys2Proof Sys2Proof.Machine Sys2Proof.Tests.Base

def prk : Nat := paletteKey (.remap 1 0 0)

def pl : Place := (placeOf U (.remap 1 0 0)).getD { group := 0, slot := none, addrs := [], filter := (0,0) }

def ms : MissReg := { key := prk, place := 16 * paletteSet prk + 3, cls := 1 }

def ms1 : MissReg := { ms with marked := true }

def jd (s : State) (err : Codeword) : TileRead := judgeDecode (.remap 1 0 0) (decodeAt s pl.group pl.addrs
        ((erasedColumns s pl.group pl.slot ++ (maskColumns 0 ++ (takeErased s pl.group pl.addrs).2)).eraseDups) err)

def cont (j : TileRead) : List Byte := match j with | .good c _ => c | .poison c _ => c | .failed c => c | _ => []

def errs (j : TileRead) : List Nat := match j with | .good _ e => e | .poison _ e => e | _ => []

/-- a written remap tile: put in the palette dirty, selected, granted, complete -/
def W0 : State := { U with palette := { ways := [(16 * 5 + 3, { key := prk, valid := true, dirty := true, data := dat, cls := 1, stamp := 15, charged := true }), (partner (16 * 5 + 3), { key := prk, valid := true, dirty := true, mirror := true, data := dat, cls := 1, stamp := 15, charged := true })], tick := 7, selected := [16 * 5 + 3] } }

def W1 : State := gos W0 [execPaletteWritebackGrant 5 3]

def W2 : State := { gos W1 [execPaletteWritebackComplete 5 3] with palette := { misses := [(0, some ms)] } }

def W3 : State := { W2 with palette := { misses := [(63, some ms1)] } }

def E2 : Codeword := BitVec.ofNat 768 (2^400 - 1)

/-- States and operands that meet the hypotheses of `Obligations.PaletteLines`, clause by clause. -/
theorem witness_PaletteLines :
    missReg W3 ↑(0 : Fin (64 : ℕ)) = none :=
  by decide +kernel

theorem witness_PaletteLines_2 :
    (W2.palette.misses = [(↑(0 : Fin (64 : ℕ)), some ms)] ∧ W2.easel.reads = [] ∧ ms.content = [] ∧
      tileOfKey ms.key = TileId.remap (1 : ℕ) (0 : ℕ) (0 : ℕ) ∧ placeOf W2 (TileId.remap (1 : ℕ) (0 : ℕ) (0 : ℕ)) = some pl ∧
      placeFenced W2 pl = false ∧ groupAwake W2 pl.group = true ∧ W2.palette.lookups = [] ∧ W2.palette.updates = []) ∧
      judgeDecode (TileId.remap (1 : ℕ) (0 : ℕ) (0 : ℕ)) (decodeAt W2 pl.group pl.addrs (erasedColumns W2 pl.group pl.slot ++ (maskColumns (0 : Byte) ++ (takeErased W2 pl.group pl.addrs).2)).eraseDups E2) = TileRead.failed [] ∧ ms.retries + ms.spent < (ms.latch.getD (latchNow W2)).1 :=
  by decide +kernel

theorem witness_PaletteLines_3 :
    (W2.palette.misses = [(↑(0 : Fin (64 : ℕ)), some ms)] ∧ W2.easel.reads = [] ∧ ms.content = [] ∧
      tileOfKey ms.key = TileId.remap (1 : ℕ) (0 : ℕ) (0 : ℕ) ∧ placeOf W2 (TileId.remap (1 : ℕ) (0 : ℕ) (0 : ℕ)) = some pl ∧
      placeFenced W2 pl = false ∧ groupAwake W2 pl.group = true ∧ W2.palette.lookups = [] ∧ W2.palette.updates = []) ∧
      ms.marked = false ∧ judgeDecode (TileId.remap (1 : ℕ) (0 : ℕ) (0 : ℕ)) (decodeAt W2 pl.group pl.addrs (erasedColumns W2 pl.group pl.slot ++ (maskColumns (0 : Byte) ++ (takeErased W2 pl.group pl.addrs).2)).eraseDups (0 : Codeword)) = TileRead.good (cont (jd W2 (0 : Codeword))) (errs (jd W2 (0 : Codeword))) :=
  by decide +kernel

theorem witness_PaletteLines_4 :
    (W3.palette.misses = [(↑(63 : Fin (64 : ℕ)), some ms1)] ∧ W3.easel.reads = [] ∧ ms1.content = [] ∧
      tileOfKey ms1.key = TileId.remap (1 : ℕ) (0 : ℕ) (0 : ℕ) ∧ placeOf W3 (TileId.remap (1 : ℕ) (0 : ℕ) (0 : ℕ)) = some pl ∧
      placeFenced W3 pl = false ∧ groupAwake W3 pl.group = true ∧ W3.palette.lookups = [] ∧ W3.palette.updates = []) ∧
      ms1.marked = true ∧ judgeDecode (TileId.remap (1 : ℕ) (0 : ℕ) (0 : ℕ)) (decodeAt W3 pl.group pl.addrs (erasedColumns W3 pl.group pl.slot ++ (maskColumns (0 : Byte) ++ (takeErased W3 pl.group pl.addrs).2)).eraseDups (0 : Codeword)) = TileRead.good (cont (jd W2 (0 : Codeword))) (errs (jd W2 (0 : Codeword))) :=
  by decide +kernel

theorem witness_PaletteLines_5 :
    (16 : ℕ) * ↑(5 : Fin (8192 : ℕ)) + ↑(3 : Fin (16 : ℕ)) ∉ W2.palette.selected :=
  by decide +kernel

theorem witness_PaletteLines_6 :
    W2.palette.comparators.length < 4 :=
  by decide +kernel

theorem witness_PaletteLines_7 :
    W2.palette.invalidations = [] ∧ W2.palette.lookups = [] ∧ W2.palette.updates = [] :=
  by decide +kernel

theorem witness_PaletteLines_8 :
    readyB W2 v Level.maintainer = true :=
  by decide +kernel

theorem witness_PaletteLines_9 :
    W2.palette.spans.length ≤ ↑(0 : Fin (8 : ℕ)) :=
  by decide +kernel

end Sys2Proof.Tests.G22b

namespace Sys2Proof.Tests.G22d
open Sys2Proof Sys2Proof.Machine Sys2Proof.Tests.Base

def rd0 : SnoopRound := { line := 0, waiting := [] }

def r1 := rq.directory.rounds.getD 0 rd0

def rqU : State := { rq with easel := { rq.easel with waits := [{ line := 64, who := .host 1 3 }] } }

theorem witness_Sharing_3 :
    (roundOf rqU (BitVec.ofNat (38 : ℕ) (64 : ℕ)).toNat = some r1 ∧ ↑(1 : Fin (4 : ℕ)) ∈ r1.waiting) ∧
      unanswered rqU (↑(1 : Fin (4 : ℕ))) (BitVec.ofNat (38 : ℕ) (64 : ℕ)).toNat = true :=
  by decide +kernel

end Sys2Proof.Tests.G22d

namespace Sys2Proof.Tests.G23
open Sys2Proof Sys2Proof.Machine Sys2Proof.Tests.Base

def rr (x : RangeRec) (s : State := D) : State := { s with crypt := { s.crypt with ranges := [(0, x)] } }

def k96 : List Byte := List.replicate 96 7

def s0 : State := rr {}

def s4 : State := rr { state := 4, current := k96 }

def s3 : State := rr { state := 3, current := k96, next := k96 }

def s2c : State := rr { state := 2, closing := true }

def s2w : State := { w1 with crypt := { w1.crypt with ranges := [(0, { state := 2, current := k96 })] } }

def s2wc : State := gos s2w [execRangeClose v 0]

def ep : State := { D with sys := { D.sys with dev := .test } }

def ki0 : List Byte := List.replicate 32 9

def ki : State := { D with crypt := { D.crypt with ki := ki0 } }

def wr1 : List Byte := keyWrap ki0 (List.replicate 32 3)

def wrv : BitVec 320 := BitVec.ofNat 320 (wr1.foldr (fun b n => n * 256 + b.toNat) 0)

def nk : List Byte := List.replicate 32 3

/-- States and operands that meet the hypotheses of `Obligations.KeyRanges`, clause by clause. -/
theorem witness_KeyRanges :
    readyB s4 v Level.maintainer = true ∧ (ephemeralState (sfS s4 v) = false ∧ (sfS s4 v).crypt.glaze.range = none ∧
      (rangeRec (sfS s4 v) ↑(0 : KeyRange)).closing = false) ∧ (rangeRec (sfS s4 v) ↑(0 : KeyRange)).state = (4 : ℕ) :=
  by decide +kernel

theorem witness_KeyRanges_2 :
    readyB s0 v Level.maintainer = true ∧ (ephemeralState (sfS s0 v) = false ∧ (sfS s0 v).crypt.glaze.range = none ∧
      (rangeRec (sfS s0 v) ↑(0 : KeyRange)).closing = false) ∧ (rangeRec (sfS s0 v) ↑(0 : KeyRange)).state = (0 : ℕ) :=
  by decide +kernel

theorem witness_KeyRanges_3 :
    readyB ep v Level.maintainer = true ∧ ephemeralState (sfS ep v) = true :=
  by decide +kernel

theorem witness_KeyRanges_4 :
    readyB D v Level.maintainer = true ∧ ephemeralState (sfS D v) = false ∧
      ((Option.any (fun q => decide (q ≠ ↑(0 : KeyRange))) ((sfS D v).crypt.glaze.range) = true) ∨
      (rangeRec (sfS D v) ↑(0 : KeyRange)).closing = true ∨ (rangeRec (sfS D v) ↑(0 : KeyRange)).state ≠ (4 : ℕ) ∧
      (rangeRec (sfS D v) ↑(0 : KeyRange)).state ≠ (0 : ℕ)) :=
  by decide +kernel

theorem witness_KeyRanges_5 :
    readyB D v Level.maintainer = true ∧ (ephemeralState (sfS D v) = false ∧ (sfS D v).crypt.glaze.range = none ∧
      (rangeRec (sfS D v) ↑(0 : KeyRange)).closing = false) ∧ (rangeRec (sfS D v) ↑(0 : KeyRange)).state = (2 : ℕ) :=
  by decide +kernel

theorem witness_KeyRanges_6 :
    readyB s0 v Level.maintainer = true ∧ ephemeralState (sfS s0 v) = false ∧
      ((Option.any (fun q => decide (q ≠ ↑(0 : KeyRange))) ((sfS s0 v).crypt.glaze.range) = true) ∨
      (rangeRec (sfS s0 v) ↑(0 : KeyRange)).closing = true ∨ (rangeRec (sfS s0 v) ↑(0 : KeyRange)).state ≠ (2 : ℕ)) :=
  by decide +kernel

theorem witness_KeyRanges_7 :
    (rangeRec s2c ↑(0 : KeyRange)).closing = true ∧ ∀ p ∈ rangePlaces s2c ↑(0 : KeyRange), (easelLine s2c p).dirty = false ∧
      (easelLine s2c p).merge = false ∧ (easelLine s2c p).flight = false :=
  by decide +kernel

theorem witness_KeyRanges_8 :
    (rangeRec s2wc ↑(0 : KeyRange)).closing = true ∧ ∃ p ∈ rangePlaces s2wc ↑(0 : KeyRange), (easelLine s2wc p).dirty = true ∨
      (easelLine s2wc p).merge = true ∨ (easelLine s2wc p).flight = true :=
  by decide +kernel

theorem witness_KeyRanges_9 :
    (rangeRec D ↑(0 : KeyRange)).closing = false :=
  by decide +kernel

theorem witness_KeyRanges_10 :
    readyB D v Level.maintainer = true ∧ (ephemeralState (sfS D v) = false ∧ (sfS D v).crypt.glaze.range = none ∧
      (rangeRec (sfS D v) ↑(0 : KeyRange)).closing = false) ∧ ((rangeRec (sfS D v) ↑(0 : KeyRange)).state = (2 : ℕ) ∨
      (rangeRec (sfS D v) ↑(0 : KeyRange)).state = (4 : ℕ)) :=
  by decide +kernel

theorem witness_KeyRanges_11 :
    readyB s0 v Level.maintainer = true ∧ ephemeralState (sfS s0 v) = false ∧
      ((Option.any (fun q => decide (q ≠ ↑(0 : KeyRange))) ((sfS s0 v).crypt.glaze.range) = true) ∨
      (rangeRec (sfS s0 v) ↑(0 : KeyRange)).closing = true ∨ (rangeRec (sfS s0 v) ↑(0 : KeyRange)).state ≠ (2 : ℕ) ∧
      (rangeRec (sfS s0 v) ↑(0 : KeyRange)).state ≠ (4 : ℕ)) :=
  by decide +kernel

theorem witness_KeyRanges_12 :
    readyB D v Level.maintainer = true ∧ (rangeRec (sfS D v) ↑(0 : KeyRange)).state ≠ (3 : ℕ) :=
  by decide +kernel

theorem witness_KeyRanges_13 :
    readyB s3 v Level.maintainer = true ∧ (rangeRec (sfS s3 v) ↑(0 : KeyRange)).state = (3 : ℕ) :=
  by decide +kernel

theorem witness_KeyRanges_14 :
    readyB D v Level.maintainer = true ∧ ephemeralState (sfS D v) = false ∧ (sfS D v).crypt.ki = [] :=
  by decide +kernel

theorem witness_KeyRanges_15 :
    readyB ki v Level.maintainer = true ∧ ephemeralState (sfS ki v) = false ∧ (sfS ki v).crypt.ki ≠ [] :=
  by decide +kernel

theorem witness_KeyRanges_16 :
    readyB ki v Level.maintainer = true ∧ ephemeralState (sfS ki v) = false ∧ (sfS ki v).crypt.ki ≠ [] ∧
      keyUnwrap (sfS ki v).crypt.ki (leBytes 40 (BitVec.toNat (0 : BitVec 320))) = none :=
  by decide +kernel

theorem witness_KeyRanges_17 :
    readyB ki v Level.maintainer = true ∧ ephemeralState (sfS ki v) = false ∧ (sfS ki v).crypt.ki ≠ [] ∧
      keyUnwrap (sfS ki v).crypt.ki (leBytes 40 wrv.toNat) = some nk :=
  by decide +kernel

end Sys2Proof.Tests.G23

namespace Sys2Proof.Tests.G23b
open Sys2Proof Sys2Proof.Machine Sys2Proof.Tests.Base

def k96 : List Byte := List.replicate 96 7

def crr (x : RangeRec) (gl : Glaze) (s : State := D) : State := { s with crypt := { s.crypt with ranges := [(0, x)], glaze := gl } }

def s2 : State := crr { state := 2, current := k96 } {}

def s2n : State := crr { state := 2, current := k96, next := k96, nextInstalled := true } {}

def s2t : State := { s2 with sys := { s2.sys with dev := .test } }

def s0 : State := crr {} {}

def s3g : State := gos s2n [execGlazeStart v]

def s3p : State := gos s3g [execGlazePause v]

def DL : State := { D with groups := (List.range 8).map (fun g => (g, { table := [(0, { mapped := true }), (14335, { mapped := true })], free := [14341, 14342, 14343, 14344], journals := [14340] })) }

def opU : State := crr { state := 1, current := k96 } { range := some 0, kind := 1, state := 1, step := 28672 * 8192 - 1, mask := ((BitVec.allOnes 512) ^^^ (1#512 <<< 64)) } DL

def un : GlazeUnit := { lane := 1, line := 64, count := 1, codes := [(64, k96)], plain := [(64, 0)], booked := 1 }

def unS : State := crr { state := 3, current := k96, next := k96 } { range := some 0, kind := 2, state := 2, units := [un] }

def fin0 : State := crr { state := 3, current := k96, next := k96 } { range := some 0, kind := 2, state := 4, finishing := [(1024, false)] }

def fin1 : State := crr { state := 3, current := k96, next := k96, nextInstalled := true } { range := some 0, kind := 2, state := 4, finishing := [(1024, false)] } w1

def job : PageJob2 := { c := 1, old := 0 }

def jobr : PageJob2 := { c := 1, old := 0, begun := true, ready := true, booked := 1, codes := [(64, k96)] }

def pk : Nat := paletteKey (.counter 1)

def pg (j : PageJob2) (s : State) : State := { s with settings := (objKey 0x2710 3, 1) :: s.settings, groups := tabMod dGroup s.groups 1 (fun x => { x with pages := [j] }), palette := { ways := [(16 * paletteSet pk + 2, { key := pk, valid := true, data := dat })] } }

def pgS : State := pg job { D with easel := { D.easel with flights := [{ place := 1024, line := 40, version := 1, code := [] }] } }

def pgR : State := pg jobr D

def re0 : State := { D with sys := { D.sys with reanchor := some 3 }, settings := [(objKey 0x2710 3, 1)] }

def reN : State := { D with sys := { D.sys with reanchor := some 3 } }

def re1 : State := { re0 with crypt := { re0.crypt with reanchoring := true } }

def pl : Place := (linePlace opU (28672*8192*512 - 512 + 64)).getD { group := 0, slot := none, addrs := [], filter := (0,0) }

def pl0 : Place := (linePlace unS 64).getD { group := 0, slot := none, addrs := [], filter := (0,0) }

/-- States and operands that meet the hypotheses of `Obligations.Glazing`, clause by clause. -/
theorem witness_Glazing :
    (readyB s2 v Level.maintainer = true ∧ ephemeralState (sfS s2 v) = false ∧ ((sfS s2 v).crypt.glaze.range = none ∧
      (rangeRec (sfS s2 v) (settingN (sfS s2 v) 10112 1)).closing = false) ∧
      (rangeRec (sfS s2 v) (settingN (sfS s2 v) 10112 1)).state = 2) ∧
    (readyB s2t v Level.maintainer = true ∧ ephemeralState (sfS s2t v) = true) ∧
    (readyB s3g v Level.maintainer = true ∧ ephemeralState (sfS s3g v) = false ∧ ¬((sfS s3g v).crypt.glaze.range = none ∧
      (rangeRec (sfS s3g v) (settingN (sfS s3g v) 10112 1)).closing = false)) ∧
    (readyB s0 v Level.maintainer = true ∧ ephemeralState (sfS s0 v) = false ∧ ((sfS s0 v).crypt.glaze.range = none ∧
      (rangeRec (sfS s0 v) (settingN (sfS s0 v) 10112 1)).closing = false) ∧
      (rangeRec (sfS s0 v) (settingN (sfS s0 v) 10112 1)).state ≠ 2) ∧
    (readyB s3g v Level.maintainer = true ∧ ephemeralState (sfS s3g v) = false ∧
      ((sfS s3g v).crypt.glaze.state = 1 ∨ (sfS s3g v).crypt.glaze.state = 2)) ∧
    (readyB s2 v Level.maintainer = true ∧ ephemeralState (sfS s2 v) = false ∧ (sfS s2 v).crypt.glaze.state ≠ 1 ∧
      (sfS s2 v).crypt.glaze.state ≠ 2) ∧
    (readyB s3p v Level.maintainer = true ∧ ephemeralState (sfS s3p v) = false ∧ (sfS s3p v).crypt.glaze.state = 3) ∧
    (readyB s2 v Level.maintainer = true ∧ ephemeralState (sfS s2 v) = false ∧ (sfS s2 v).crypt.glaze.state ≠ 3) :=
  ⟨by decide +kernel,
    by decide +kernel,
    by decide +kernel,
    by decide +kernel,
    by decide +kernel,
    by decide +kernel,
    by decide +kernel,
    by decide +kernel⟩

theorem witness_Glazing_2 :
    (opU.crypt.glaze.range = some 0 ∧ opU.crypt.glaze.kind = 1 ∧ opU.crypt.glaze.state = 1 ∧ opU.sys.memoryActive = true ∧
      ephemeralState opU = false ∧ (openFirst opU 0).2 = true) ∧
    (s2.crypt.glaze.range = none ∨ s2.crypt.glaze.kind ≠ 1) ∧
    (s2.crypt.glaze.range = none ∨ s2.sys.dev ≠ DeviceState.active) ∧
    (opU.crypt.glaze.range = some (0 : ℕ) ∧ opU.crypt.glaze.kind = (1 : ℕ) ∧ opU.crypt.glaze.state = (1 : ℕ) ∧
      opU.sys.memoryActive = true ∧ opU.sys.dev = DeviceState.active ∧
      rangeFirst opU (0 : ℕ) + (512 : ℕ) * opU.crypt.glaze.step + ↑(64 : Fin (512 : ℕ)) ∈ stepLines opU (0 : ℕ) opU.crypt.glaze.step ∧ markedLine opU (0 : ℕ) (rangeFirst opU (0 : ℕ) + (512 : ℕ) * opU.crypt.glaze.step + ↑(64 : Fin (512 : ℕ))) = false ∧ groupCool opU (lineGroup opU (rangeFirst opU (0 : ℕ) + (512 : ℕ) * opU.crypt.glaze.step + ↑(64 : Fin (512 : ℕ)))) = true ∧ groupAwake opU (lineGroup opU (rangeFirst opU (0 : ℕ) + (512 : ℕ) * opU.crypt.glaze.step + ↑(64 : Fin (512 : ℕ)))) = true ∧ windowOf opU (0 : ℕ) = none ∧ linePlace opU (rangeFirst opU (0 : ℕ) + (512 : ℕ) * opU.crypt.glaze.step + ↑(64 : Fin (512 : ℕ))) = some pl ∧ remapReady opU pl = true ∧ placeFenced opU pl = false) ∧
    (List.find? (fun x => x.line == (BitVec.ofNat 38 64).toNat) s2.crypt.glaze.units = none) ∧
    (unS.crypt.glaze.range = some 0 ∧ List.find? (fun x => x.line == (BitVec.ofNat 38 64).toNat) unS.crypt.glaze.units =
      some un ∧ un.count = 1 ∧ un.codes = [(un.line, k96)] ∧ sealedLine unS un.line = false ∧
      linePlace unS un.line = some pl0 ∧ remapReady unS pl0 = true ∧ placeFenced unS pl0 = false) ∧
    ((fin0.crypt.glaze.range = some 0 ∧ fin0.crypt.glaze.kind = 2 ∧ fin0.crypt.glaze.state = 4) ∧
      (¬∃ e ∈ fin0.crypt.glaze.finishing, (easelLine fin0 e.1).dirty = true ∧ rangeOf fin0 (placeLine fin0 e.1) = 0) ∧
      ∀ g ∈ rangeGroups fin0 0, journalRoom fin0 g 1 = true) ∧
    ((fin1.crypt.glaze.range = some 0 ∧ fin1.crypt.glaze.kind = 2 ∧ fin1.crypt.glaze.state = 4) ∧
      ∃ e ∈ fin1.crypt.glaze.finishing, (easelLine fin1 e.1).dirty = true ∧ rangeOf fin1 (placeLine fin1 e.1) = 0) :=
  ⟨by decide +kernel,
    by decide +kernel,
    by decide +kernel,
    by decide +kernel,
    by decide +kernel,
    by decide +kernel,
    by decide +kernel,
    by decide +kernel⟩

theorem witness_Glazing_3 :
    (List.find? (fun j => !j.ready) (groupOf pgS ↑(1 : Group)).pages = some job ∧ job.c % (8 : ℕ) = ↑(1 : Group) ∧
      job.begun = false ∧ pgS.sys.dev = DeviceState.active ∧ pgS.sys.memoryActive = true ∧ groupAwake pgS ↑(1 : Group) = true ∧
      (groupOf pgS ↑(1 : Group)).fenced = false ∧ (groupOf pgS ↑(1 : Group)).staleHold = false ∧
      journalRoom pgS ↑(1 : Group) (1 : ℕ) = true ∧ paletteData pgS (TileId.counter job.c) = some dat ∧
      rangeOfCounter pgS job.c = some (0 : ℕ) ∧ pageInFlight pgS (pageLines pgS job.c) = true) ∧
    (List.find? (fun j => !j.ready) (groupOf s2 ↑(1 : Group)).pages = none) ∧
    (List.find? (fun j => j.ready) (groupOf s2 ↑(1 : Group)).pages = none ∨ journalRoom s2 ↑(1 : Group) (1 : ℕ) = false) ∧
    (List.find? (fun j => j.ready) (groupOf pgR ↑(1 : Group)).pages = some jobr ∧ journalRoom pgR ↑(1 : Group) (1 : ℕ) = true) ∧
    (reN.sys.reanchor.isSome = true ∧ reN.sys.memoryActive = true ∧ reN.crypt.reanchoring = false ∧
      reN.palette.comparators = [] ∧ (reN.palette.writes.all fun w => keyKind (paletteKey w.tile) == 5) = true) ∧
    (s2.sys.reanchor = none ∨ s2.sys.memoryActive = false ∨ s2.crypt.reanchoring = true ∨ ¬(s2.palette.comparators = [] ∧
      (s2.palette.writes.all fun w => keyKind (paletteKey w.tile) == 5) = true)) ∧
    (re1.sys.reanchor = some 3 ∧ re1.crypt.reanchoring = true) ∧
    (s2.sys.reanchor = none ∨ s2.crypt.reanchoring = false) :=
  ⟨by decide +kernel,
    by decide +kernel,
    by decide +kernel,
    by decide +kernel,
    by decide +kernel,
    by decide +kernel,
    by decide +kernel,
    by decide +kernel⟩

end Sys2Proof.Tests.G23b

namespace Sys2Proof.Tests.G23c
open Sys2Proof Sys2Proof.Machine Sys2Proof.Tests.Base

def k96 : List Byte := List.replicate 96 7

def crr (x : RangeRec) (gl : Glaze) (s : State := D) : State := { s with crypt := { s.crypt with ranges := [(0, x)], glaze := gl } }

def fin0 : State := crr { state := 3, current := k96, next := k96 } { range := some 0, kind := 2, state := 4, finishing := [(1024, false)] }

def pJ : State := { fin0 with reserve := { fin0.reserve with deviceShare := 0 } }

theorem witness_Glazing_4 :
    (pJ.crypt.glaze.range = some 0 ∧ pJ.crypt.glaze.kind = 2 ∧ pJ.crypt.glaze.state = 4) ∧
      (¬∃ e ∈ pJ.crypt.glaze.finishing, (easelLine pJ e.1).dirty = true ∧ rangeOf pJ (placeLine pJ e.1) = 0) ∧
      ∃ g ∈ rangeGroups pJ 0, journalRoom pJ g 1 = false :=
  by decide +kernel

end Sys2Proof.Tests.G23c

namespace Sys2Proof.Tests.G24
open Sys2Proof Sys2Proof.Machine Sys2Proof.Tests.Base

def ps (w : PassRec) (s : State := c1) (f : GroupRec → GroupRec := id) : State := { s with groups := tabMod dGroup s.groups 1 (fun x => f { x with pass := some w, swatchDue := [] }) }

def off : Nat := 0

def tl (x : Nat) : TileId := ((passTile c1 1 0 x).map (·.1)).getD (.host 0)

def pc (x : Nat) : Place := ((passTile c1 1 0 x).map (·.2)).getD { group := 0, slot := none, addrs := [], filter := (0,0) }

def w0 : PassRec := { region := 0, measured := true, offset := off }

def q0 : State := ps w0

def cnt (_ : State) : List Byte := held1

def ers (_ : State) : List Nat := []

def pFl : State := { q0 with easel := { q0.easel with flights := [{ place := 1024, line := 64, version := 0, code := [] }] } }

/-- States and operands that meet the hypotheses of `Obligations.Retouch`, clause by clause. -/
theorem witness_Retouch :
    engineRuns pFl ↑(1 : Group) = false ∨ (groupOf pFl ↑(1 : Group)).pass.isSome = true ∨
      (groupOf pFl ↑(1 : Group)).deepReads ≠ [] ∨ visitedRegions pFl ↑(1 : Group) = [] :=
  by decide +kernel

theorem witness_Retouch_2 :
    (((groupOf q0 ↑(1 : Group)).pass = some w0 ∧ w0.measured = true ∧ (engineRuns q0 ↑(1 : Group) = true ∧
      journalRoom q0 ↑(1 : Group) (1 : ℕ) = true) ∧ (groupOf q0 ↑(1 : Group)).deepReads = [] ∧
      regionFenced q0 (↑(1 : Group)) w0.region = false ∧ w0.offset < passEnd q0 (↑(1 : Group)) w0.region ∧
      passTile q0 (↑(1 : Group)) w0.region w0.offset = some (tl off, pc off)) ∧ remapReady q0 (pc off) = true ∧
      (tileDirty q0 (tl off) = true ∨ authReady q0 (tl off) = true) ∧ tileInFlight q0 (tl off) = false ∧
      unitInRegion q0 (tl off) = false) ∧ tileDirty q0 (tl off) = false ∧ (¬∃ p slot, (pc off).slot = some (p, slot) ∧
      slotHeld q0 (↑(1 : Group)) p slot = true) ∧ (engineRead q0 (tl off) (pc off) []).2.1 = TileRead.good (cnt q0) (ers q0) ∧
      authFails (engineRead q0 (tl off) (pc off) []).1 (tl off) (cnt q0) = none ∧ placeFenced q0 (pc off) = false ∧
      ageOf q0 (epochOf (cnt q0)) = (0 : ℕ) ∧ (driftOf (engineRead q0 (tl off) (pc off) []).1 (↑(1 : Group)) w0.region).st =
      false :=
  ⟨by decide +kernel, by decide +kernel, by
      rintro ⟨p, slot, h, h2⟩
      have e : (pc off).slot = some (0, 0) := by decide +kernel
      rw [e] at h
      obtain ⟨rfl, rfl⟩ : 0 = p ∧ 0 = slot := by simpa using h
      exact absurd h2 (by decide +kernel), by decide +kernel, by decide +kernel, by decide +kernel, by decide +kernel, by decide +kernel⟩

theorem witness_Retouch_3 :
    ((groupOf pFl ↑(1 : Group)).pass = some w0 ∧ w0.measured = true ∧ (engineRuns pFl ↑(1 : Group) = true ∧
      journalRoom pFl ↑(1 : Group) (1 : ℕ) = true) ∧ (groupOf pFl ↑(1 : Group)).deepReads = [] ∧
      regionFenced pFl (↑(1 : Group)) w0.region = false ∧ w0.offset < passEnd pFl (↑(1 : Group)) w0.region ∧
      passTile pFl (↑(1 : Group)) w0.region w0.offset = some (tl off, pc off)) ∧
      (remapReady pFl (pc off) = false ∨ tileDirty pFl (tl off) = false ∧ authReady pFl (tl off) = false ∨
      tileInFlight pFl (tl off) = true ∨ unitInRegion pFl (tl off) = true) :=
  by decide +kernel

theorem witness_Retouch_4 :
    (groupOf pFl ↑(1 : Group)).pass = some w0 ∧ (w0.measured = false ∨ w0.offset < passEnd pFl (↑(1 : Group)) w0.region) :=
  by decide +kernel

theorem witness_Retouch_5 :
    engineRuns pFl ↑(1 : Group) = false ∨ (groupOf pFl ↑(1 : Group)).swatchDue = [] :=
  by decide +kernel

end Sys2Proof.Tests.G24

namespace Sys2Proof.Tests.G24b
open Sys2Proof Sys2Proof.Machine Sys2Proof.Tests.Base

def ps (w : PassRec) (s : State := c1) (f : GroupRec → GroupRec := id) : State := { s with groups := tabMod dGroup s.groups 1 (fun x => f { x with pass := some w, swatchDue := [] }) }

def w1' : PassRec := { region := 0 }

def pm : State := ps w1'

def pS : State := { c1 with groups := tabMod dGroup c1.groups 1 (fun x => { x with swatchDue := [5, 0], table := [(0, { mapped := true }), (1, { mapped := true, phys := 5 }), (2, { mapped := true, phys := 4 })], drift := [(5, { visit := 250 }), (4, { visit := 250 })] }) }

theorem witness_Retouch_6 :
    ((engineRuns pS ↑(1 : Group) = true ∧ journalRoom pS ↑(1 : Group) (1 : ℕ) = true) ∧ (groupOf pS ↑(1 : Group)).pass = none ∧
      (groupOf pS ↑(1 : Group)).deepReads = [] ∧ visitedRegions pS ↑(1 : Group) ≠ [] ∧
      bitOf (settingN pS (12288 : ℕ) (5 : ℕ)) ↑(1 : Group) = false) ∧
    ((groupOf pm ↑(1 : Group)).pass = some w1' ∧ w1'.measured = false) ∧
    (engineRuns pS ↑(1 : Group) = true ∧ regionFenced pS ↑(1 : Group) (5 : ℕ) = false ∧
      (groupOf pS ↑(1 : Group)).swatchDue = [(5 : ℕ), (0 : ℕ)]) :=
  ⟨by decide +kernel,
    by decide +kernel,
    by decide +kernel⟩

end Sys2Proof.Tests.G24b

namespace Sys2Proof.Tests.G25
open Sys2Proof Sys2Proof.Machine Sys2Proof.Tests.Base

def B0 : State := { D with easel := { D.easel with reads := [(0, { line := 64, kind := 0, place := 1024, arrival := 9 })], lines := [(1024, { valid := true, fill := true })], waits := [{ line := 64, who := .host 1 3 }] } }

def a1 : ArbRequest := .read 0

def a3 : ArbRequest := .engineProgram 5 0 5 77

def ar (f : Arbiter → Arbiter) (s : State := B0) : State := { s with groups := tabMod dGroup s.groups 1 (fun x => { x with arb := f x.arb }) }

def A0 : State := ar id

def br (a : ArbRequest) : BusRequest := (busRequest A0 1 a).getD { ask := a, position := 0, cols := [], op := .other 0 0 }

def b1 : BusRequest := { ask := a1, position := 0, aged := true, arrival := 9, source := 1, cols := [0, 1, 2, 3, 4, 5, 6, 7], addrs := List.replicate 8 557056, op := .read (List.replicate 8 0) false }

def b3 := br a3

def bN : BusRequest := { b1 with ask := .read 7 }

def A1 : State := ar (fun a => { a with pointer := 4, shadow := some [0,1,2,3,3,3,3,3,3] })

def A2 : State := ar (fun a => { a with granted := some b1 })

def A2n : State := ar (fun a => { a with granted := some bN })

def A3 : State := ar (fun a => { a with granted := some b3, slot := 4 })

def l1 : LockRec := { position := 5, run := 63, slots := 70, region := 0 }

def l2 : LockRec := { position := 5, run := 3, slots := 20, region := 0 }

def A4 : State := ar (fun a => { a with lock := some l1 }) { D with groups := tabMod dGroup D.groups 1 (fun x => { x with gapJob := some { region := 0, src := 3, dst := 4, code := [] } }) }

def A5 : State := ar (fun a => { a with lock := some l2 })

def A7 : State := { A1 with thermal := { A1.thermal with sleep := [(1, 2)] } }

/-- States and operands that meet the hypotheses of `Obligations.Arbitration`, clause by clause. -/
theorem witness_Arbitration :
    ((groupAwake A0 ↑(1 : Group) = true ∧ (arbOf A0 ↑(1 : Group)).lock = none ∧
      (∀ e ∈ (arbOf A0 ↑(1 : Group)).reserved, e.1 ≠ (arbOf A0 ↑(1 : Group)).slot + (1 : ℕ)) ∧
      (arbOf A0 ↑(1 : Group)).resumes = []) ∧ (arbOf A0 ↑(1 : Group)).granted = none ∧ sleepOf A0 ↑(1 : Group) = (0 : ℕ) ∧
      ∀ k ∈ (arbOf A0 ↑(1 : Group)).shadow.getD (arbOf A0 ↑(1 : Group)).ranks, k < (8 : ℕ)) ∧
    ((groupAwake A2 ↑(1 : Group) = true ∧ (arbOf A2 ↑(1 : Group)).lock = none ∧
      (∀ e ∈ (arbOf A2 ↑(1 : Group)).reserved, e.1 ≠ (arbOf A2 ↑(1 : Group)).slot + (1 : ℕ)) ∧
      (arbOf A2 ↑(1 : Group)).resumes = []) ∧ (arbOf A2 ↑(1 : Group)).granted = some b1 ∧ sleepOf A2 ↑(1 : Group) = (0 : ℕ)) ∧
    (((groupAwake A2 ↑(1 : Group) = true ∧ (arbOf A2 ↑(1 : Group)).lock = none ∧
      (∀ e ∈ (arbOf A2 ↑(1 : Group)).reserved, e.1 ≠ (arbOf A2 ↑(1 : Group)).slot + (1 : ℕ)) ∧
      (arbOf A2 ↑(1 : Group)).resumes = []) ∧ (arbOf A2 ↑(1 : Group)).granted = some b1 ∧ sleepOf A2 ↑(1 : Group) = (0 : ℕ)) ∧
      (busRequest A2 (↑(1 : Group)) b1.ask).isSome = true ∧ b1.cols.Nodup ∧ ∀ e ∈ (arbOf A2 ↑(1 : Group)).reserved, e.2 ≠ b1) ∧
    (((groupAwake A3 ↑(1 : Group) = true ∧ (arbOf A3 ↑(1 : Group)).lock = none ∧
      (∀ e ∈ (arbOf A3 ↑(1 : Group)).reserved, e.1 ≠ (arbOf A3 ↑(1 : Group)).slot + (1 : ℕ)) ∧
      (arbOf A3 ↑(1 : Group)).resumes = []) ∧ (arbOf A3 ↑(1 : Group)).granted = some b3 ∧ sleepOf A3 ↑(1 : Group) = (0 : ℕ)) ∧
      (busRequest A3 (↑(1 : Group)) b3.ask).isSome = true ∧ b3.cols.Nodup ∧ ∀ e ∈ (arbOf A3 ↑(1 : Group)).reserved, e.2 ≠ b3) ∧
    (((groupAwake A2n ↑(1 : Group) = true ∧ (arbOf A2n ↑(1 : Group)).lock = none ∧
      (∀ e ∈ (arbOf A2n ↑(1 : Group)).reserved, e.1 ≠ (arbOf A2n ↑(1 : Group)).slot + (1 : ℕ)) ∧
      (arbOf A2n ↑(1 : Group)).resumes = []) ∧ (arbOf A2n ↑(1 : Group)).granted = some bN ∧
      sleepOf A2n ↑(1 : Group) = (0 : ℕ)) ∧ busRequest A2n (↑(1 : Group)) bN.ask = none) ∧
    ((arbOf A4 ↑(1 : Group)).lock = some l1 ∧ (63 : ℕ) ≤ l1.run ∧ (64 : ℕ) < l1.slots) ∧
    (groupAwake A5 ↑(1 : Group) = true ∧ (arbOf A5 ↑(1 : Group)).granted = none ∧ (arbOf A5 ↑(1 : Group)).lock = some l2 ∧
      l2.run + (1 : ℕ) < l2.slots ∧ (l2.run < (63 : ℕ) ∨ l2.slots ≤ (64 : ℕ))) ∧
    ((arbOf A5 ↑(1 : Group)).lock = some l2 ∧ (l2.run < (63 : ℕ) ∨ l2.slots ≤ (64 : ℕ))) :=
  ⟨by decide +kernel,
    by decide +kernel,
    by decide +kernel,
    by decide +kernel,
    by decide +kernel,
    by decide +kernel,
    by decide +kernel,
    by decide +kernel⟩

theorem witness_Arbitration_2 :
    ((arbOf A0 ↑(1 : Group)).lock = none) ∧
    (groupAwake A7 ↑(1 : Group) = false) :=
  ⟨by decide +kernel,
    by decide +kernel⟩

end Sys2Proof.Tests.G25

namespace Sys2Proof.Tests.G26
open Sys2Proof Sys2Proof.Machine Sys2Proof.Tests.Base

def G (f : GroupRec → GroupRec) (s : State := c1) : State := { s with groups := tabMod dGroup s.groups 1 f }

def g0 : State := G (fun x => { x with steps := [0, 3], regions := [(0, { gap := 1 })] })

def gN : State := G (fun x => { x with steps := [9], regions := [(9, { fr := true, gap := 0 })] })

def x64 : TileId := .host 64

def sl : Place := placeSlot g0 1 0 0

def rdc (_ : State) : List Byte := held1

def rde (_ : State) : List Nat := []

def gj : State := gos g0 [execGapStep 1 []]

def j1 : GapJob := (groupOf gj 1).gapJob.getD { region := 7, src := 0, dst := 0, code := [] }

def tb : Tab RegionEntry := [(0, { mapped := true }), (1, { mapped := true, phys := 1 }), (2, { mapped := true, phys := 2 })]

def rg : Tab RegionRec := [(0, { heat := 40 }), (1, { heat := 4, owner := 1 }), (2, { heat := 255, owner := 2, md := true })]

def sw1 : State := G (fun x => { x with table := tb, regions := rg, free := [9, 10], cold := 0 })

def m1 : MoveRec := { kind := 3, logical := 0, src := 0, dst := 9 }

def m2 : MoveRec := { kind := 1, logical := 1, src := 1, dst := 9, pointer := 1048512, copied := 64, partner := 2 }

def m4 : MoveRec := { kind := 3, logical := 1, src := 1, dst := 9, pointer := 64, copied := 64, partner := 2 }

def m5 : MoveRec := { kind := 3, logical := 5, src := 11, dst := 9, pointer := 64, copied := 3 }

def mv (m : MoveRec) : State := G (fun x => { x with table := tabMod dEntry tb m.logical (fun e => { e with moving := true }), move := some m, regions := [(0, {}), (1, { owner := 1, heat := 4 }), (2, { owner := 2, heat := 99 }), (9, { owner := m.logical, sw := true, count := 17, key := 77 }), (11, { fr := true })] })

def jr : RemapJob := { column := 2, region := 0, slot := 0 }

def rm : State := G (fun x => { x with nominations := [jr, { jr with column := 5 }] })

def rmL : State := { rm with power := { rm.power with domains := (List.range 8).map (fun k => (k, { phase := .good, lost := k == 2 })) } }

def rm1 : State := gos rm [execPatchRemap 1 []]

def jr1 : RemapJob := (groupOf rm1 1).remapJob.getD jr

/-- States and operands that meet the hypotheses of `Obligations.Rotation`, clause by clause. -/
theorem witness_Rotation :
    (List.find?         (fun q =>           (!match (groupOf g0 ↑(1 : Group)).move with               | some m => m.src == q || m.dst == q               | none => false) &&             !regionFenced g0 (↑(1 : Group)) q)         (groupOf g0 ↑(1 : Group)).steps =       some (0 : ℕ) ∧     remapReady g0 (placeSlot g0 ↑(1 : Group) (0 : ℕ) (if (regionOf g0 ↑(1 : Group) (0 : ℕ)).gap = (0 : ℕ) then (1048576 : ℕ) else (regionOf g0 ↑(1 : Group) (0 : ℕ)).gap - (1 : ℕ))) = true ∧ remapReady g0 (placeSlot g0 ↑(1 : Group) (0 : ℕ) (regionOf g0 ↑(1 : Group) (0 : ℕ)).gap) = true ∧ (groupOf g0 ↑(1 : Group)).gapJob = none ∧ engineRuns g0 ↑(1 : Group) = true ∧ slotHeld g0 ↑(1 : Group) (0 : ℕ) (if (regionOf g0 ↑(1 : Group) (0 : ℕ)).gap = (0 : ℕ) then (1048576 : ℕ) else (regionOf g0 ↑(1 : Group) (0 : ℕ)).gap - (1 : ℕ)) = false) ∧   tileAt g0 ↑(1 : Group) (0 : ℕ) (if (regionOf g0 ↑(1 : Group) (0 : ℕ)).gap = (0 : ℕ) then (1048576 : ℕ) else (regionOf g0 ↑(1 : Group) (0 : ℕ)).gap - (1 : ℕ)) = some x64 ∧ (tileInFlight g0 x64 = false ∧ unitInRegion g0 x64 = false) ∧ (engineRead g0 x64 (placeSlot g0 ↑(1 : Group) (0 : ℕ) (if (regionOf g0 ↑(1 : Group) (0 : ℕ)).gap = (0 : ℕ) then (1048576 : ℕ) else (regionOf g0 ↑(1 : Group) (0 : ℕ)).gap - (1 : ℕ))) []).2.1 = TileRead.good (rdc g0) (rde g0) :=
  by decide +kernel

theorem witness_Rotation_2 :
    (List.find?         (fun q =>           (!match (groupOf gN ↑(1 : Group)).move with               | some m => m.src == q || m.dst == q               | none => false) &&             !regionFenced gN (↑(1 : Group)) q)         (groupOf gN ↑(1 : Group)).steps =       some (9 : ℕ) ∧     remapReady gN (placeSlot gN ↑(1 : Group) (9 : ℕ) (if (regionOf gN ↑(1 : Group) (9 : ℕ)).gap = (0 : ℕ) then (1048576 : ℕ) else (regionOf gN ↑(1 : Group) (9 : ℕ)).gap - (1 : ℕ))) = true ∧ remapReady gN (placeSlot gN ↑(1 : Group) (9 : ℕ) (regionOf gN ↑(1 : Group) (9 : ℕ)).gap) = true ∧ (groupOf gN ↑(1 : Group)).gapJob = none ∧ engineRuns gN ↑(1 : Group) = true ∧ slotHeld gN ↑(1 : Group) (9 : ℕ) (if (regionOf gN ↑(1 : Group) (9 : ℕ)).gap = (0 : ℕ) then (1048576 : ℕ) else (regionOf gN ↑(1 : Group) (9 : ℕ)).gap - (1 : ℕ)) = false) ∧   tileAt gN ↑(1 : Group) (9 : ℕ) (if (regionOf gN ↑(1 : Group) (9 : ℕ)).gap = (0 : ℕ) then (1048576 : ℕ) else (regionOf gN ↑(1 : Group) (9 : ℕ)).gap - (1 : ℕ)) = none :=
  by decide +kernel

theorem witness_Rotation_3 :
    (groupOf gj ↑(1 : Group)).gapJob.isSome = true ∨ engineRuns gj ↑(1 : Group) = false ∨
      (groupOf gj ↑(1 : Group)).steps = [] :=
  by decide +kernel

theorem witness_Rotation_4 :
    (groupOf gj ↑(1 : Group)).gapJob = some j1 ∧ j1.code ≠ [] ∧ journalRoom gj ↑(1 : Group) (1 : ℕ) = true ∧
      ((regionOf gj (↑(1 : Group)) j1.region).hr = false ∧
      regionBase gj (↑(1 : Group)) j1.region + (2 : ℕ) ^ (21 : ℕ) < (2 : ℕ) ^ (35 : ℕ)) ∧ j1.dst ≤ (1048576 : ℕ) ∧
      placeFenced gj (placeSlot gj (↑(1 : Group)) j1.region j1.dst) = false :=
  by decide +kernel

theorem witness_Rotation_5 :
    (groupOf g0 ↑(1 : Group)).gapJob = none ∨
      Option.any (fun j => decide (remapReady g0 (placeSlot g0 (↑(1 : Group)) j.region j.dst) = true ∧
      journalRoom g0 (↑(1 : Group)) ((1 : ℕ) + remapRecords { columns := (0 : Byte), spares := [] : ProgramFailure }.columns { columns := (0 : Byte), spares := [] : ProgramFailure }.spares) = false)) ((groupOf g0 ↑(1 : Group)).gapJob) = true :=
  by decide +kernel

theorem witness_Rotation_6 :
    engineRuns sw1 ↑(1 : Group) = true ∧ groupCool sw1 ↑(1 : Group) = true ∧ (groupOf sw1 ↑(1 : Group)).move = none ∧
      journalRoom sw1 ↑(1 : Group) (1 : ℕ) = true ∧ (groupOf sw1 ↑(1 : Group)).retiring = [] ∧
      hottest sw1 ↑(1 : Group) = some (2 : ℕ) ∧ (groupOf sw1 ↑(1 : Group)).free = [(9 : ℕ), (10 : ℕ)] ∧
      (tabGet dEntry (groupOf sw1 ↑(1 : Group)).table (if (groupOf sw1 ↑(1 : Group)).cold % logicalCount sw1 ↑(1 : Group) =
      (2 : ℕ) then ((2 : ℕ) + (1 : ℕ)) % logicalCount sw1 ↑(1 : Group) else (groupOf sw1 ↑(1 : Group)).cold % logicalCount sw1 ↑(1 : Group))).mapped = true :=
  by decide +kernel

theorem witness_Rotation_7 :
    engineRuns (mv m1) ↑(1 : Group) = false ∨ groupCool (mv m1) ↑(1 : Group) = false ∨
      (groupOf (mv m1) ↑(1 : Group)).move.isSome = true :=
  by decide +kernel

theorem witness_Rotation_8 :
    ((groupOf (mv m1) ↑(1 : Group)).move = some m1 ∧ m1.copied < (64 : ℕ) ∧ engineRuns (mv m1) ↑(1 : Group) = true ∧
      journalRoom (mv m1) ↑(1 : Group) (1 : ℕ) = true ∧ regionFenced (mv m1) (↑(1 : Group)) m1.src = false ∧
      regionFenced (mv m1) (↑(1 : Group)) m1.dst = false ∧
      remapReady (mv m1) (placeSlot (mv m1) (↑(1 : Group)) m1.src (slotIn (mv m1) (↑(1 : Group)) m1.src (m1.pointer + m1.copied))) = true ∧ remapReady (mv m1) (placeSlot (mv m1) (↑(1 : Group)) m1.dst (slotIn (mv m1) (↑(1 : Group)) m1.dst (m1.pointer + m1.copied))) = true ∧ ∀ i < (64 : ℕ), Option.all (fun y => decide (tileInFlight (mv m1) y = false ∧ unitInRegion (mv m1) y = false)) (tileAt (mv m1) (↑(1 : Group)) m1.src (slotIn (mv m1) (↑(1 : Group)) m1.src (m1.pointer + i))) = true) ∧ tileAt (mv m1) (↑(1 : Group)) m1.src (slotIn (mv m1) (↑(1 : Group)) m1.src (m1.pointer + m1.copied)) = some x64 ∧ ((regionOf (mv m1) (↑(1 : Group)) m1.dst).hr = false ∧ regionBase (mv m1) (↑(1 : Group)) m1.dst + (2 : ℕ) ^ (21 : ℕ) < (2 : ℕ) ^ (35 : ℕ)) ∧ (engineRead (mv m1) x64 (placeSlot (mv m1) (↑(1 : Group)) m1.src (slotIn (mv m1) (↑(1 : Group)) m1.src (m1.pointer + m1.copied))) []).2.1 = TileRead.good (rdc g0) (rde g0) :=
  by decide +kernel

theorem witness_Rotation_9 :
    (groupOf g0 ↑(1 : Group)).move = none ∨ (groupOf g0 ↑(1 : Group)).move = some m1 ∧ m1.copied ≠ (64 : ℕ) :=
  by decide +kernel

theorem witness_Rotation_10 :
    (groupOf (mv m2) ↑(1 : Group)).move = some m2 ∧ ((64 : ℕ) ≤ m2.copied ∨ engineRuns (mv m2) ↑(1 : Group) = false) :=
  by decide +kernel

theorem witness_Rotation_11 :
    (groupOf (mv m2) ↑(1 : Group)).move = some m2 ∧ m2.copied = (64 : ℕ) ∧ journalRoom (mv m2) ↑(1 : Group) (3 : ℕ) = true ∧
      (1048576 : ℕ) ≤ m2.pointer + (64 : ℕ) ∧ m2.src ≠ m2.dst ∧ m2.kind ≠ (4 : ℕ) ∧
      (groupOf (mv m2) ↑(1 : Group)).retiring = [] :=
  by decide +kernel

theorem witness_Rotation_12 :
    (groupOf (mv m4) ↑(1 : Group)).move = some m4 ∧ m4.copied = (64 : ℕ) ∧ journalRoom (mv m4) ↑(1 : Group) (3 : ℕ) = true ∧
      m4.pointer + (64 : ℕ) < (1048576 : ℕ) :=
  by decide +kernel

theorem witness_Rotation_13 :
    ((groupOf (mv m5) ↑(1 : Group)).move = some m5 ∧ m5.copied < (64 : ℕ) ∧ engineRuns (mv m5) ↑(1 : Group) = true ∧
      journalRoom (mv m5) ↑(1 : Group) (1 : ℕ) = true ∧ regionFenced (mv m5) (↑(1 : Group)) m5.src = false ∧
      regionFenced (mv m5) (↑(1 : Group)) m5.dst = false ∧
      remapReady (mv m5) (placeSlot (mv m5) (↑(1 : Group)) m5.src (slotIn (mv m5) (↑(1 : Group)) m5.src (m5.pointer + m5.copied))) = true ∧ remapReady (mv m5) (placeSlot (mv m5) (↑(1 : Group)) m5.dst (slotIn (mv m5) (↑(1 : Group)) m5.dst (m5.pointer + m5.copied))) = true ∧ ∀ i < (64 : ℕ), Option.all (fun y => decide (tileInFlight (mv m5) y = false ∧ unitInRegion (mv m5) y = false)) (tileAt (mv m5) (↑(1 : Group)) m5.src (slotIn (mv m5) (↑(1 : Group)) m5.src (m5.pointer + i))) = true) ∧ tileAt (mv m5) (↑(1 : Group)) m5.src (slotIn (mv m5) (↑(1 : Group)) m5.src (m5.pointer + m5.copied)) = none :=
  by decide +kernel

theorem witness_Rotation_14 :
    (groupOf rm ↑(1 : Group)).nominations =
      [jr, { column := (5 : ℕ), region := jr.region, slot := jr.slot, spare := jr.spare, patch := jr.patch, code := jr.code : RemapJob }] ∧ (groupOf rm ↑(1 : Group)).remapJob = none ∧ engineRuns rm ↑(1 : Group) = true ∧ slotHeld rm (↑(1 : Group)) jr.region jr.slot = false ∧ regionFenced rm (↑(1 : Group)) jr.region = false ∧ columnLost rm (↑(1 : Group)) jr.column = false ∧ remapReady rm (placeSlot rm (↑(1 : Group)) jr.region jr.slot) = true ∧ unitInRegion rm x64 = false ∧ sparesGone rm (↑(1 : Group)) jr.column = false ∧ remapFull rm (↑(1 : Group)) jr.region jr.slot jr.column = false ∧ tileAt rm (↑(1 : Group)) jr.region jr.slot = some x64 ∧ tileInFlight rm x64 = false ∧ (engineRead rm x64 (placeSlot rm (↑(1 : Group)) jr.region jr.slot) []).2.1 = TileRead.good (rdc g0) (rde g0) :=
  by decide +kernel

theorem witness_Rotation_15 :
    (groupOf rmL ↑(1 : Group)).nominations =
      [jr, { column := (5 : ℕ), region := jr.region, slot := jr.slot, spare := jr.spare, patch := jr.patch, code := jr.code : RemapJob }] ∧ (groupOf rmL ↑(1 : Group)).remapJob = none ∧ engineRuns rmL ↑(1 : Group) = true ∧ slotHeld rmL (↑(1 : Group)) jr.region jr.slot = false ∧ regionFenced rmL (↑(1 : Group)) jr.region = false ∧ columnLost rmL (↑(1 : Group)) jr.column = true :=
  by decide +kernel

theorem witness_Rotation_16 :
    (groupOf rm1 ↑(1 : Group)).remapJob = some jr1 ∧ remapReady rm1 (placeSlot rm1 (↑(1 : Group)) jr1.region jr1.slot) = true ∧
      journalRoom rm1 ↑(1 : Group) (1 : ℕ) = true :=
  by decide +kernel

theorem witness_Rotation_17 :
    (groupOf g0 ↑(1 : Group)).nominations = [] :=
  by decide +kernel

theorem witness_Rotation_18 :
    (groupOf g0 ↑(1 : Group)).remapJob = none :=
  by decide +kernel

theorem witness_Rotation_19 :
    readyB g0 v Level.operator = true ∧ placeOf (sfS g0 v) (TileId.host ((BitVec.ofNat 64 4096).toNat / 64)) = some sl ∧
      sl.slot = some (0, 0) :=
  by decide +kernel

end Sys2Proof.Tests.G26

namespace Sys2Proof.Tests.G27
open Sys2Proof Sys2Proof.Machine Sys2Proof.Tests.Base

def gm (f : GroupRec → GroupRec) (s : State := D) : State := { s with groups := tabMod dGroup s.groups 1 f }

def jq (ws : List QWord) (f : GroupRec → GroupRec := id) : State := { gm f with queues := [(1, { words := ws })] }

def w4 : List QWord := (List.range 9).map (fun i => qword (i * 5) (i % 4 == 0) (i % 4 == 3) false)

def wq : List QWord := qword 7 true true true :: w4

def J0 := jq w4

def J2 := jq wq

def J3 := jq w4 (fun x => { x with staleRecord := some 0x123456 })

def J4 : State := { J0 with thermal := { J0.thermal with sleep := [(1, 2)] } }

def J5 := gos J0 [execJournalTileWrite 1]

def jt : JournalOut := (groupOf J5 1).journalOut.getD 0 { seq := 0, addr := 0, code := [], words := 0 }

def ck : CheckRec := { gen := 1, header := List.replicate 64 9 }

def C2 := gm (fun x => { x with checkpoint := some ck })

def C3 := gos C2 [execCheckpointHeaderWrite 1]

def ck2 : CheckRec := (groupOf C3 1).checkpoint.getD { gen := 0, header := [] }

def R0 := gm (fun x => { x with stale := some 3, regions := tabMod dRegion x.regions 0 (fun r => { r with rb := true }), drift := [] })

def off0 : Nat := match (linePlace c1 64).bind (·.slot) with | some (_, sl) => sl | none => 0

def R1 := gm (fun x => { x with stale := some 3, rebuild := some (0, off0), regions := tabMod dRegion x.regions 0 (fun r => { r with rb := true }) }) c1

def R2 := gm (fun x => { x with stale := some 3, rebuild := some (0, 1048580), regions := tabMod dRegion x.regions 0 (fun r => { r with rb := true }) }) c1

def cnt : List Byte := held1

def cw : List Codeword := []

/-- States and operands that meet the hypotheses of `Obligations.JournalAndCheckpoints`, clause by clause. -/
theorem witness_JournalAndCheckpoints :
    (groupAwake J0 ↑(1 : Group) = true ∧ (groupOf J0 ↑(1 : Group)).journals.head? = some (14340 : ℕ) ∧
      (groupOf J0 ↑(1 : Group)).staleRecord = none ∧ waitingWords J0 ↑(1 : Group) = qword (0 : ℕ) true false false :: w4.tail ∧
      isPoisoned (qword (0 : ℕ) true false false) = false) ∧
    (groupAwake J2 ↑(1 : Group) = true ∧ (groupOf J2 ↑(1 : Group)).staleRecord = none ∧
      waitingWords J2 ↑(1 : Group) = qword (7 : ℕ) true true true :: w4 ∧ isPoisoned (qword (7 : ℕ) true true true) = true ∧
      (groupOf J2 ↑(1 : Group)).checkpointDue = false) ∧
    (groupAwake J3 ↑(1 : Group) = true ∧ (groupOf J3 ↑(1 : Group)).journals.head? = some (14340 : ℕ) ∧
      (groupOf J3 ↑(1 : Group)).staleRecord = some (1193046 : ℕ)) ∧
    (groupAwake D ↑(1 : Group) = false ∨ (groupOf D ↑(1 : Group)).staleRecord = none ∧ waitingWords D ↑(1 : Group) = []) ∧
    ((groupOf J5 ↑(1 : Group)).journalOut = [jt] ∧ J5.sys.dev ≠ DeviceState.varnish) ∧
    ((groupOf D ↑(1 : Group)).journalOut = [] ∧ D.sys.dev ≠ DeviceState.varnish) ∧
    ((groupOf D ↑(1 : Group)).checkpointDue = false ∨ (groupOf D ↑(1 : Group)).checkpoint.isSome = true ∨
      groupAwake D ↑(1 : Group) = false) ∧
    ((groupOf C2 ↑(1 : Group)).checkpoint = some ck) :=
  ⟨by decide +kernel,
    by decide +kernel,
    by decide +kernel,
    by decide +kernel,
    by decide +kernel,
    by decide +kernel,
    by decide +kernel,
    by decide +kernel⟩

theorem witness_JournalAndCheckpoints_2 :
    (D.sys.dev ≠ DeviceState.varnish ∧ ((groupOf D ↑(1 : Group)).checkpoint = none ∨
      (groupOf D ↑(1 : Group)).checkpoint = some ck ∧ ck.headerOut = false)) ∧
    ((groupOf C3 ↑(1 : Group)).checkpoint = some ck2 ∧ ck2.headerOut = true ∧ C3.sys.dev ≠ DeviceState.varnish ∧
      (groupOf C3 ↑(1 : Group)).fenced = false) ∧
    (engineRuns R0 ↑(1 : Group) = true ∧ (groupOf R0 ↑(1 : Group)).rebuild = none ∧ (groupOf R0 ↑(1 : Group)).deepReads = [] ∧
      settingB R0 (13056 : ℕ) (10 : ℕ) = false ∧ (∀ q ∈ visitedRegions R0 ↑(1 : Group), urgentRegion R0 (↑(1 : Group)) q =
      false) ∧ serviceableStale R0 ↑(1 : Group) = some (3 : ℕ) ∧ rebuildRegions R0 ↑(1 : Group) = [(0 : ℕ)]) ∧
    (engineRuns J4 ↑(1 : Group) = false ∨ (groupOf J4 ↑(1 : Group)).rebuild.isSome = true ∨
      settingB J4 (13056 : ℕ) (10 : ℕ) = true) ∧
    (((groupOf R1 ↑(1 : Group)).rebuild = some ((0 : ℕ), (0 : ℕ)) ∧ serviceableStale R1 ↑(1 : Group) = some (3 : ℕ) ∧
      engineRuns R1 ↑(1 : Group) = true ∧ slotHeld R1 ↑(1 : Group) (0 : ℕ) (0 : ℕ) = false ∧
      regionFenced R1 ↑(1 : Group) (0 : ℕ) = false ∧ remapReady R1 (placeSlot R1 ↑(1 : Group) (0 : ℕ) (0 : ℕ)) = true) ∧
      tileAt R1 ↑(1 : Group) (0 : ℕ) (0 : ℕ) = some (TileId.host (64 : ℕ)) ∧ tileInFlight R1 (TileId.host (64 : ℕ)) = false ∧
      unitInRegion R1 (TileId.host (64 : ℕ)) = false ∧ journalRoom R1 ↑(1 : Group) (1 : ℕ) = true ∧
      (tileDirty R1 (TileId.host (64 : ℕ)) = true ∨ authReady R1 (TileId.host (64 : ℕ)) = true) ∧
      (engineRead R1 (TileId.host (64 : ℕ)) (placeSlot R1 ↑(1 : Group) (0 : ℕ) (0 : ℕ)) cw).2.1 = TileRead.good cnt [] ∧
      (placeSlot R1 ↑(1 : Group) (0 : ℕ) (0 : ℕ)).addrs.getD (3 : ℕ) (0 : ℕ) < (2 : ℕ) ^ (35 : ℕ) ∧ (3 : ℕ) < (8 : ℕ)) ∧
    (((groupOf R2 ↑(1 : Group)).rebuild = some ((0 : ℕ), (1048580 : ℕ)) ∧ serviceableStale R2 ↑(1 : Group) = some (3 : ℕ) ∧
      engineRuns R2 ↑(1 : Group) = true ∧ slotHeld R2 ↑(1 : Group) (0 : ℕ) (1048580 : ℕ) = false ∧
      regionFenced R2 ↑(1 : Group) (0 : ℕ) = false ∧ remapReady R2 (placeSlot R2 ↑(1 : Group) (0 : ℕ) (1048580 : ℕ)) = true) ∧
      journalRoom R2 (↑(1 : Group)) ((1 : ℕ) + none.elim (0 : ℕ) fun x => ↑x) = true ∧ (1048580 : ℕ) = (1048580 : ℕ) ∧
      tileAt R2 ↑(1 : Group) (0 : ℕ) (1048580 : ℕ) = none ∧ (regionOf R2 ↑(1 : Group) (0 : ℕ)).hr = false) ∧
    ((groupOf D ↑(1 : Group)).rebuild = none ∨ serviceableStale D ↑(1 : Group) = none ∨ engineRuns D ↑(1 : Group) = false) :=
  ⟨by decide +kernel,
    by decide +kernel,
    by decide +kernel,
    by decide +kernel,
    by decide +kernel,
    by decide +kernel,
    by decide +kernel⟩

end Sys2Proof.Tests.G27

namespace Sys2Proof.Tests.G27b
open Sys2Proof Sys2Proof.Machine Sys2Proof.Tests.Base

def gm (f : GroupRec → GroupRec) (s : State := D) : State := { s with groups := tabMod dGroup s.groups 1 f }

def C0 := gm (fun x => { x with checkpointDue := true })

def lostAll : Tab ChannelRec := (List.range 8).map (fun c => (8 + c, { failed := true }))

def CL : State := { C0 with channels := lostAll }

theorem witness_JournalAndCheckpoints_3 :
    (groupOf CL ↑(1 : Group)).checkpointDue = true ∧ (groupOf CL ↑(1 : Group)).checkpoint = none ∧
      ((groupOf CL ↑(1 : Group)).free ++ if (4 : ℕ) ≤ (groupOf CL ↑(1 : Group)).journals.length then List.drop (3 : ℕ) (groupOf CL ↑(1 : Group)).journals else []) ≠ [] ∧ journalRoom CL ↑(1 : Group) (2 : ℕ) = true ∧ groupAwake CL ↑(1 : Group) = true ∧ (groupOf CL ↑(1 : Group)).staleRecord = none ∧ ∀ w ∈ waitingWords CL ↑(1 : Group), isPoisoned w = false :=
  by decide +kernel

end Sys2Proof.Tests.G27b

namespace Sys2Proof.Tests.G28
open Sys2Proof Sys2Proof.Machine Sys2Proof.Tests.Base

def pp (x : PortRec) (s : State := D) : State := { s with ports := [(0, x), (1, { link := 2, width := 8, rate := 4 })] }

def P0 := pp { link := 0 }

def P2 := pp { link := 2, rate := 4, width := 8, bi := true, busMaster := true, decoders := [(0, { base := 0, dpa := 0, size := 28672, ways := 1, gran := 256, committed := true, locked := true }), (1, {})], background := (1, 2, 3), scan := (1, 2), scanFound := [4] } { D with easel := { waits := [{ line := 64, who := .host 0 3 }, { line := 65, who := .scan 0 }, { line := 66, who := .host 1 3 }] }, directory := { entries := [(1024, { tag := 0, presence := 3 })] } }

def P3 := pp { link := 3, rate := 4, width := 8 } { D with settings := [(objKey 0x2B10 4, 3)] }

def P2s := pp { link := 2, rate := 4, width := 8, fenced := true } { D with settings := [(objKey 0x2B10 4, 3)] }

def P5 := pp { link := 5 }

/-- States and operands that meet the hypotheses of `Obligations.PortLinks`, clause by clause. -/
theorem witness_PortLinks :
    (P0.sys.corePll = true ∧ (portOf P0 (Fin.val (0 : Port))).link ≠ (5 : ℕ) ∧
      settingB P0 ((11024 : ℕ) + (Fin.val (0 : Port))) (1 : ℕ) = true) ∧
    (¬(P5.sys.corePll = true ∧ (portOf P5 (Fin.val (0 : Port))).link ≠ (5 : ℕ) ∧
      settingB P5 ((11024 : ℕ) + (Fin.val (0 : Port))) (1 : ℕ) = true)) ∧
    (linkUp P2 (Fin.val (0 : Port)) = true ∧ (2 : ℕ) ^ (Fin.val (0 : Port)) < (portOf P2 (Fin.val (0 : Port))).width) ∧
    (¬linkUp P0 (Fin.val (0 : Port)) = true ∨ (portOf P0 (Fin.val (0 : Port))).width ≤ (2 : ℕ) ^ (Fin.val (0 : Port))) ∧
    (↑(2 : Fin (5 : ℕ)) = (2 : ℕ) ∧ ((portOf P3 (Fin.val (0 : Port))).link = (3 : ℕ) ∨
      (portOf P3 (Fin.val (0 : Port))).link = (4 : ℕ))) ∧
    (¬(↑(2 : Fin (5 : ℕ)) = (2 : ℕ) ∧ ((portOf P0 (Fin.val (0 : Port))).link = (3 : ℕ) ∨
      (portOf P0 (Fin.val (0 : Port))).link = (4 : ℕ))) ∧ ¬((portOf P0 (Fin.val (0 : Port))).link = (2 : ℕ) ∧
      (↑(2 : Fin (5 : ℕ)) = (3 : ℕ) ∧ bitOf (settingN P0 ((11024 : ℕ) + (Fin.val (0 : Port))) (4 : ℕ)) (1 : ℕ) = true ∨
      ↑(2 : Fin (5 : ℕ)) = (4 : ℕ) ∧ bitOf (settingN P0 ((11024 : ℕ) + (Fin.val (0 : Port))) (4 : ℕ)) (0 : ℕ) = true))) ∧
    ((portOf P2 (Fin.val (0 : Port))).link = (2 : ℕ) ∧ (↑(4 : Fin (5 : ℕ)) = (3 : ℕ) ∧
      bitOf (settingN P2 ((11024 : ℕ) + (Fin.val (0 : Port))) (4 : ℕ)) (1 : ℕ) = true ∨ ↑(4 : Fin (5 : ℕ)) = (4 : ℕ) ∧
      bitOf (settingN P2 ((11024 : ℕ) + (Fin.val (0 : Port))) (4 : ℕ)) (0 : ℕ) = true)) ∧
    ((portOf P2 (Fin.val (0 : Port))).link ≠ (0 : ℕ) ∧ (portOf P2 (Fin.val (0 : Port))).link ≠ (5 : ℕ)) :=
  ⟨by decide +kernel,
    by decide +kernel,
    by decide +kernel,
    by decide +kernel,
    by decide +kernel,
    by decide +kernel,
    by decide +kernel,
    by decide +kernel⟩

theorem witness_PortLinks_2 :
    ((portOf P0 (Fin.val (0 : Port))).link = (0 : ℕ) ∨ (portOf P0 (Fin.val (0 : Port))).link = (5 : ℕ)) ∧
    (linkUp P2 (Fin.val (0 : Port)) = true) ∧
    (¬linkUp P0 (Fin.val (0 : Port)) = true) ∧
    (readyB P2 v Level.maintainer = true ∧ (portOf (sfS P2 v) (Fin.val (0 : Port))).link ≠ (0 : ℕ) ∧
      (portOf (sfS P2 v) (Fin.val (0 : Port))).link ≠ (5 : ℕ)) ∧
    (readyB P0 v Level.maintainer = true ∧ ((portOf (sfS P0 v) (Fin.val (0 : Port))).link = (0 : ℕ) ∨
      (portOf (sfS P0 v) (Fin.val (0 : Port))).link = (5 : ℕ))) ∧
    (readyB P0 v Level.maintainer = true) ∧
    (readyB P2s v Level.maintainer = true ∧ (portOf (sfS P2s v) (Fin.val (0 : Port))).fenced = true) ∧
    (readyB P0 v Level.maintainer = true ∧ (portOf (sfS P0 v) (Fin.val (0 : Port))).fenced = false) :=
  ⟨by decide +kernel,
    by decide +kernel,
    by decide +kernel,
    by decide +kernel,
    by decide +kernel,
    by decide +kernel,
    by decide +kernel,
    by decide +kernel⟩

theorem witness_PortLinks_3 :
    ((linkUp P3 (Fin.val (0 : Port)) = true ∧
      ((tabGet dDecoder (portOf P3 (Fin.val (0 : Port))).decoders ↑(0 : Fin (8 : ℕ))).committed = false ∨
      (tabGet dDecoder (portOf P3 (Fin.val (0 : Port))).decoders ↑(0 : Fin (8 : ℕ))).locked = false)) ∧
      decoderCause P3 (Fin.val (0 : Port)) { shared := true, base := (BitVec.ofNat (24 : ℕ) (0 : ℕ)).toNat, ways := (2 : ℕ) ^ ↑(2 : Fin (5 : ℕ)), gran := (256 : ℕ) * (2 : ℕ) ^ ↑(0 : Fin (7 : ℕ)), size := (BitVec.ofNat (17 : ℕ) (4 : ℕ)).toNat, dpa := (BitVec.ofNat (17 : ℕ) (4 : ℕ)).toNat : Decoder } ≠ (0 : ℕ)) ∧
    (¬(linkUp P0 (Fin.val (0 : Port)) = true ∧
      ((tabGet dDecoder (portOf P0 (Fin.val (0 : Port))).decoders ↑(0 : Fin (8 : ℕ))).committed = false ∨
      (tabGet dDecoder (portOf P0 (Fin.val (0 : Port))).decoders ↑(0 : Fin (8 : ℕ))).locked = false))) ∧
    ((linkUp P2 (Fin.val (0 : Port)) = true ∧
      ((tabGet dDecoder (portOf P2 (Fin.val (0 : Port))).decoders ↑(1 : Fin (8 : ℕ))).committed = false ∨
      (tabGet dDecoder (portOf P2 (Fin.val (0 : Port))).decoders ↑(1 : Fin (8 : ℕ))).locked = false)) ∧
      decoderCause P2 (Fin.val (0 : Port)) { shared := true, base := (BitVec.ofNat (24 : ℕ) (0 : ℕ)).toNat, ways := (2 : ℕ) ^ ↑(2 : Fin (5 : ℕ)), gran := (256 : ℕ) * (2 : ℕ) ^ ↑(0 : Fin (7 : ℕ)), size := (BitVec.ofNat (17 : ℕ) (4 : ℕ)).toNat, dpa := (BitVec.ofNat (17 : ℕ) (4 : ℕ)).toNat : Decoder } = (0 : ℕ)) :=
  ⟨by decide +kernel,
    by decide +kernel,
    by decide +kernel⟩

end Sys2Proof.Tests.G28

namespace Sys2Proof.Tests.G29
open Sys2Proof Sys2Proof.Machine Sys2Proof.Tests.Base

def pp (x : PortRec) (s : State := D) : State := { s with ports := [(0, x), (1, { link := 2, width := 8, rate := 4 })] }

def P0 := pp { link := 0 }

def ev (h l : Nat) : EventRec := { handle := h, log := l, kind := 1, what := 2, dpa := 64, time := 5 }

def P2 := pp { link := 2, rate := 4, width := 8, events := [ev 3 0, ev 4 1, ev 5 0], background := (0x4304, 50, 0), alertEnabled := 5, shutdownDirty := true }

def hs : List (BitVec 16) := [3, 5]

/-- States and operands that meet the hypotheses of `Obligations.MailboxAnswers`, clause by clause. -/
theorem witness_MailboxAnswers :
    (linkUp P2 (Fin.val (0 : Port)) = true) ∧
    (¬linkUp P0 (Fin.val (0 : Port)) = true) ∧
    (¬linkUp P0 (Fin.val (0 : Port)) = true ∨ mailboxServes (BitVec.ofNat (16 : ℕ) (16384 : ℕ)).toNat = true) ∧
    (linkUp P2 (Fin.val (0 : Port)) = true ∧ mailboxServes (BitVec.ofNat (16 : ℕ) (85 : ℕ)).toNat = false) ∧
    (linkUp P2 (Fin.val (0 : Port)) = true ∧ (BitVec.toNat (3 : Byte) < (8 : ℕ) ∨ (11 : ℕ) < BitVec.toNat (3 : Byte))) ∧
    (linkUp P2 (Fin.val (0 : Port)) = true ∧ (8 : ℕ) ≤ BitVec.toNat (8 : Byte) ∧ BitVec.toNat (8 : Byte) ≤ (11 : ℕ)) ∧
    (linkUp P2 (Fin.val (0 : Port)) = true ∧ BitVec.getLsbD (3 : Byte) (1 : ℕ) = true ∧
      ¬((70 : ℤ) ≤ (BitVec.ofNat (16 : ℕ) (16384 : ℕ)).toInt ∧ (BitVec.ofNat (16 : ℕ) (16384 : ℕ)).toInt ≤ (105 : ℤ) ∧
      (BitVec.ofNat (16 : ℕ) (16384 : ℕ)).toInt + (2 : ℤ) ≤ setting P2 (12304 : ℕ) (5 : ℕ) ∧
      setting P2 (12304 : ℕ) (5 : ℕ) + (2 : ℤ) ≤ setting P2 (12304 : ℕ) (6 : ℕ))) ∧
    (linkUp P2 (Fin.val (0 : Port)) = true ∧ (BitVec.getLsbD (3 : Byte) (1 : ℕ) =
      true → (70 : ℤ) ≤ (BitVec.ofNat (16 : ℕ) (85 : ℕ)).toInt ∧ (BitVec.ofNat (16 : ℕ) (85 : ℕ)).toInt ≤ (105 : ℤ) ∧
      (BitVec.ofNat (16 : ℕ) (85 : ℕ)).toInt + (2 : ℤ) ≤ setting P2 (12304 : ℕ) (5 : ℕ) ∧
      setting P2 (12304 : ℕ) (5 : ℕ) + (2 : ℤ) ≤ setting P2 (12304 : ℕ) (6 : ℕ))) :=
  ⟨by decide +kernel,
    by decide +kernel,
    by decide +kernel,
    by decide +kernel,
    by decide +kernel,
    by decide +kernel,
    by decide +kernel,
    by decide +kernel⟩

theorem witness_MailboxAnswers_2 :
    (linkUp P2 (Fin.val (0 : Port)) = true ∧ ∀ (i : ℕ) (e : EventRec), (portOf P2 (Fin.val (0 : Port))).events[i]? = some e ∧
      e.log = (Fin.val (0 : Port)) ∧ recordCleared P2 ((Fin.val (0 : Port))) i =
      false → ∀ w ∈ recordWords P2 ((Fin.val (0 : Port))) i, isPoisoned w = false) ∧
    (linkUp P2 (Fin.val (0 : Port)) = true ∧ (portOf P2 (Fin.val (0 : Port))).heldEvents = [] ∧
      (queueOf P2 ((9 : ℕ) + (Fin.val (0 : Port)))).mark + (14 : ℕ) * (portOf P2 (Fin.val (0 : Port))).events.length ≤ (114688 : ℕ)) ∧
    (linkUp P2 (Fin.val (0 : Port)) = true ∧ (portOf P2 (Fin.val (0 : Port))).heldEvents = [] ∧
      (queueOf P2 ((9 : ℕ) + (Fin.val (0 : Port)))).mark + (14 : ℕ) * (portOf P2 (Fin.val (0 : Port))).events.length ≤ (114688 : ℕ) ∧ ∀ h ∈ hs, ∃ i e, ((portOf P2 (Fin.val (0 : Port))).events[i]? = some e ∧ e.log = (Fin.val (0 : Port)) ∧ recordCleared P2 ((Fin.val (0 : Port))) i = false) ∧ e.handle = h.toNat) :=
  ⟨⟨by decide +kernel, by
      rintro i e ⟨h, -, -⟩
      have hl : (portOf P2 (Fin.val (0 : Port))).events.length = 3 := by decide +kernel
      have hi := (List.getElem?_eq_some_iff.mp h).1
      rw [hl] at hi
      interval_cases i <;> decide +kernel⟩,
    by decide +kernel,
    ⟨by decide +kernel, by decide +kernel, by decide +kernel, by
      intro h hh
      simp only [hs, List.mem_cons, List.not_mem_nil, or_false] at hh
      rcases hh with rfl | rfl
      · exact ⟨0, ev 3 0, by decide +kernel, by decide +kernel⟩
      · exact ⟨2, ev 5 0, by decide +kernel, by decide +kernel⟩⟩⟩

end Sys2Proof.Tests.G29

namespace Sys2Proof.Tests.G30
open Sys2Proof Sys2Proof.Machine Sys2Proof.Tests.Base

def pp (x : PortRec) (s : State := D) : State := { s with ports := [(0, x), (1, { link := 2, width := 8, rate := 4 })] }

def wd : Tab Int := [(objKey 0x2B30 1, 0), (objKey 0x2B30 2, 4), (objKey 0x2B30 3, 15)]

def S : State := { D with settings := wd }

def M0 : State := pp { link := 3 } { S with sys := { S.sys with memoryActive := false } }

def M1 := pp { link := 0 } S

def M2 := pp { link := 3, scanFound := [64, 3] } S

def M3 : State := pp { link := 3, background := (0x4304, 5, 0), scan := (64, 5) } { S with settings := (objKey 0x2B00 2, 1) :: wd }

def sp (k : SpdmState) (x : PortRec := {}) : State := pp { x with link := 3, spdm := k }

def X0 := pp { link := 0 }

def ky : Tab (List Byte) := [(0, [1]), (1, [2]), (2, [3]), (3, [4])]

def Q1 := sp .idle

def Q2 := sp .versioned

def Q3 := sp .capable

def Q4 := sp .negotiated { ide := 1 }

def Q5 := sp .handshake { ide := 2, ideKeys := ky }

def Q6 := sp .session { ideKeys := ky, ideIo := true, ide := 2 }

def Q7 := sp .session { }

/-- States and operands that meet the hypotheses of `Obligations.MediaCommands`, clause by clause. -/
theorem witness_MediaCommands :
    (linkUp M0 (Fin.val (0 : Port)) = true ∧ M0.sys.memoryActive = false) ∧
    (¬linkUp M1 (Fin.val (0 : Port)) = true) ∧
    (linkUp M2 (Fin.val (0 : Port)) = true ∧ M2.sys.memoryActive = true) ∧
    ((linkUp M3 (Fin.val (0 : Port)) = true ∧ M3.sys.memoryActive = true) ∧ settingB M3 (11008 : ℕ) (2 : ℕ) = true ∧
      lineAllowed M3 ((Fin.val (0 : Port))) (BitVec.ofNat (38 : ℕ) (64 : ℕ)).toNat = true) ∧
    ((linkUp M2 (Fin.val (0 : Port)) = true ∧ M2.sys.memoryActive = true) ∧ settingB M2 (11008 : ℕ) (2 : ℕ) = false) ∧
    ((linkUp M2 (Fin.val (0 : Port)) = true ∧ M2.sys.memoryActive = true) ∧
      lineAllowed M2 ((Fin.val (0 : Port))) (BitVec.ofNat (38 : ℕ) (64 : ℕ)).toNat = true) ∧
    (((linkUp M2 (Fin.val (0 : Port)) = true ∧ M2.sys.memoryActive = true) ∧ backgroundRuns M2 (Fin.val (0 : Port)) = false) ∧
      (BitVec.ofNat (39 : ℕ) (5 : ℕ)).toNat ≠ (0 : ℕ) ∧
      lineAllowed M2 ((Fin.val (0 : Port))) (BitVec.ofNat (38 : ℕ) (64 : ℕ)).toNat = true ∧
      lineAllowed M2 ((Fin.val (0 : Port))) ((BitVec.ofNat (38 : ℕ) (64 : ℕ)).toNat + (BitVec.ofNat (39 : ℕ) (5 : ℕ)).toNat - (1 : ℕ)) = true) ∧
    ((linkUp M3 (Fin.val (0 : Port)) = true ∧ M3.sys.memoryActive = true) ∧ backgroundRuns M3 (Fin.val (0 : Port)) = true) :=
  ⟨by decide +kernel,
    by decide +kernel,
    by decide +kernel,
    by decide +kernel,
    by decide +kernel,
    by decide +kernel,
    by decide +kernel,
    by decide +kernel⟩

theorem witness_MediaCommands_2 :
    (backgroundRuns M3 (Fin.val (0 : Port)) = true ∧ scanOut M3 (Fin.val (0 : Port)) = false) ∧
    (backgroundRuns M0 (Fin.val (0 : Port)) = false ∨ scanOut M0 (Fin.val (0 : Port)) = true) ∧
    (linkUp M0 (Fin.val (0 : Port)) = true) ∧
    (((linkUp M2 (Fin.val (0 : Port)) = true ∧ M2.sys.memoryActive = true) ∧ backgroundRuns M2 (Fin.val (0 : Port)) = false) ∧
      ¬((BitVec.ofNat (39 : ℕ) (0 : ℕ)).toNat ≠ (0 : ℕ) ∧
      lineAllowed M2 ((Fin.val (0 : Port))) (BitVec.ofNat (38 : ℕ) (64 : ℕ)).toNat = true ∧
      lineAllowed M2 ((Fin.val (0 : Port))) ((BitVec.ofNat (38 : ℕ) (64 : ℕ)).toNat + (BitVec.ofNat (39 : ℕ) (0 : ℕ)).toNat - (1 : ℕ)) = true)) ∧
    ((linkUp M3 (Fin.val (0 : Port)) = true ∧ M3.sys.memoryActive = true) ∧ settingB M3 (11008 : ℕ) (2 : ℕ) = true ∧
      lineAllowed M3 ((Fin.val (0 : Port))) (BitVec.ofNat (38 : ℕ) (137438953472 : ℕ)).toNat = false) ∧
    ((linkUp M2 (Fin.val (0 : Port)) = true ∧ M2.sys.memoryActive = true) ∧
      lineAllowed M2 ((Fin.val (0 : Port))) (BitVec.ofNat (38 : ℕ) (137438953472 : ℕ)).toNat = false) :=
  ⟨by decide +kernel,
    by decide +kernel,
    by decide +kernel,
    by decide +kernel,
    by decide +kernel,
    by decide +kernel⟩

/-- States and operands that meet the hypotheses of `Obligations.LinkSecurity`, clause by clause. -/
theorem witness_LinkSecurity :
    (linkUp Q1 (Fin.val (0 : Port)) = true) ∧
    (linkUp Q2 (Fin.val (0 : Port)) = true ∧ (portOf Q2 (Fin.val (0 : Port))).spdm =
      (Instr.spdmGetCapabilities (0 : Port), SpdmState.versioned, SpdmState.capable, (97 : ℕ)).2.1) ∧
    (linkUp Q3 (Fin.val (0 : Port)) = true ∧ (portOf Q3 (Fin.val (0 : Port))).spdm =
      (Instr.spdmNegotiateAlgorithms (0 : Port), SpdmState.capable, SpdmState.negotiated, (99 : ℕ)).2.1) ∧
    (linkUp Q4 (Fin.val (0 : Port)) = true ∧ (portOf Q4 (Fin.val (0 : Port))).spdm = SpdmState.negotiated) ∧
    (linkUp Q5 (Fin.val (0 : Port)) = true ∧ (portOf Q5 (Fin.val (0 : Port))).spdm = SpdmState.handshake) ∧
    (linkUp Q4 (Fin.val (0 : Port)) = true ∧ (3 : ℕ) ≤ spdmRank (portOf Q4 (Fin.val (0 : Port))).spdm) ∧
    (linkUp Q6 (Fin.val (0 : Port)) = true ∧ (portOf Q6 (Fin.val (0 : Port))).spdm = SpdmState.session) ∧
    ((linkUp Q6 (Fin.val (0 : Port)) = true ∧ (portOf Q6 (Fin.val (0 : Port))).spdm = SpdmState.session) ∧
      tabGet (fun x => []) (portOf Q6 (Fin.val (0 : Port))).ideKeys (ideSlot true false) ≠ [] ∧
      tabGet (fun x => []) (portOf Q6 (Fin.val (0 : Port))).ideKeys (ideSlot true true) ≠ []) :=
  ⟨by decide +kernel,
    by decide +kernel,
    by decide +kernel,
    by decide +kernel,
    by decide +kernel,
    by decide +kernel,
    by decide +kernel,
    by decide +kernel⟩

theorem witness_LinkSecurity_2 :
    ((linkUp Q7 (Fin.val (0 : Port)) = true ∧ (portOf Q7 (Fin.val (0 : Port))).spdm = SpdmState.session) ∧
      ¬(tabGet (fun x => []) (portOf Q7 (Fin.val (0 : Port))).ideKeys (ideSlot true false) ≠ [] ∧
      tabGet (fun x => []) (portOf Q7 (Fin.val (0 : Port))).ideKeys (ideSlot true true) ≠ [])) ∧
    (linkUp Q1 (Fin.val (0 : Port)) = true ∧
      (spdmRank (portOf Q1 (Fin.val (0 : Port))).spdm < (Instr.spdmGetCapabilities (0 : Port), (1 : ℕ), (1 : ℕ)).2.1 ∨
      (Instr.spdmGetCapabilities (0 : Port), (1 : ℕ), (1 : ℕ)).2.2 < spdmRank (portOf Q1 (Fin.val (0 : Port))).spdm)) ∧
    (linkUp X0 (Fin.val (0 : Port)) = false) ∧
    (linkUp Q1 (Fin.val (0 : Port)) = true ∧
      (spdmRank (portOf Q1 (Fin.val (0 : Port))).spdm < (Instr.spdmNegotiateAlgorithms (0 : Port), (2 : ℕ), (2 : ℕ)).2.1 ∨
      (Instr.spdmNegotiateAlgorithms (0 : Port), (2 : ℕ), (2 : ℕ)).2.2 < spdmRank (portOf Q1 (Fin.val (0 : Port))).spdm)) ∧
    (linkUp Q1 (Fin.val (0 : Port)) = true ∧
      (spdmRank (portOf Q1 (Fin.val (0 : Port))).spdm < (Instr.spdmGetDigests (0 : Port), (3 : ℕ), (5 : ℕ)).2.1 ∨
      (Instr.spdmGetDigests (0 : Port), (3 : ℕ), (5 : ℕ)).2.2 < spdmRank (portOf Q1 (Fin.val (0 : Port))).spdm)) ∧
    (linkUp Q1 (Fin.val (0 : Port)) = true ∧
      (spdmRank (portOf Q1 (Fin.val (0 : Port))).spdm < (Instr.spdmGetCertificate (0 : Port) (BitVec.ofNat (16 : ℕ) (0 : ℕ)) (BitVec.ofNat (16 : ℕ) (0 : ℕ)), (3 : ℕ), (5 : ℕ)).2.1 ∨ (Instr.spdmGetCertificate (0 : Port) (BitVec.ofNat (16 : ℕ) (0 : ℕ)) (BitVec.ofNat (16 : ℕ) (0 : ℕ)), (3 : ℕ), (5 : ℕ)).2.2 < spdmRank (portOf Q1 (Fin.val (0 : Port))).spdm)) ∧
    (linkUp Q1 (Fin.val (0 : Port)) = true ∧
      (spdmRank (portOf Q1 (Fin.val (0 : Port))).spdm < (Instr.spdmChallenge (0 : Port), (3 : ℕ), (3 : ℕ)).2.1 ∨
      (Instr.spdmChallenge (0 : Port), (3 : ℕ), (3 : ℕ)).2.2 < spdmRank (portOf Q1 (Fin.val (0 : Port))).spdm)) ∧
    (linkUp Q1 (Fin.val (0 : Port)) = true ∧
      (spdmRank (portOf Q1 (Fin.val (0 : Port))).spdm < (Instr.spdmGetMeasurements (0 : Port) (0 : Byte), (3 : ℕ), (5 : ℕ)).2.1 ∨ (Instr.spdmGetMeasurements (0 : Port) (0 : Byte), (3 : ℕ), (5 : ℕ)).2.2 < spdmRank (portOf Q1 (Fin.val (0 : Port))).spdm)) :=
  ⟨by decide +kernel,
    by decide +kernel,
    by decide +kernel,
    by decide +kernel,
    by decide +kernel,
    by decide +kernel,
    by decide +kernel,
    by decide +kernel⟩

theorem witness_LinkSecurity_3 :
    (linkUp Q1 (Fin.val (0 : Port)) = true ∧
      (spdmRank (portOf Q1 (Fin.val (0 : Port))).spdm < (Instr.spdmKeyExchange (0 : Port), (3 : ℕ), (3 : ℕ)).2.1 ∨
      (Instr.spdmKeyExchange (0 : Port), (3 : ℕ), (3 : ℕ)).2.2 < spdmRank (portOf Q1 (Fin.val (0 : Port))).spdm)) ∧
    (linkUp Q1 (Fin.val (0 : Port)) = true ∧
      (spdmRank (portOf Q1 (Fin.val (0 : Port))).spdm < (Instr.spdmFinish (0 : Port), (4 : ℕ), (4 : ℕ)).2.1 ∨
      (Instr.spdmFinish (0 : Port), (4 : ℕ), (4 : ℕ)).2.2 < spdmRank (portOf Q1 (Fin.val (0 : Port))).spdm)) ∧
    (linkUp Q1 (Fin.val (0 : Port)) = true ∧
      (spdmRank (portOf Q1 (Fin.val (0 : Port))).spdm < (Instr.spdmHeartbeat (0 : Port), (5 : ℕ), (5 : ℕ)).2.1 ∨
      (Instr.spdmHeartbeat (0 : Port), (5 : ℕ), (5 : ℕ)).2.2 < spdmRank (portOf Q1 (Fin.val (0 : Port))).spdm)) ∧
    (linkUp Q1 (Fin.val (0 : Port)) = true ∧
      (spdmRank (portOf Q1 (Fin.val (0 : Port))).spdm < (Instr.spdmKeyUpdate (0 : Port) (0 : Byte) (0 : Byte), (5 : ℕ), (5 : ℕ)).2.1 ∨ (Instr.spdmKeyUpdate (0 : Port) (0 : Byte) (0 : Byte), (5 : ℕ), (5 : ℕ)).2.2 < spdmRank (portOf Q1 (Fin.val (0 : Port))).spdm)) ∧
    (linkUp Q1 (Fin.val (0 : Port)) = true ∧
      (spdmRank (portOf Q1 (Fin.val (0 : Port))).spdm < (Instr.spdmEndSession (0 : Port), (5 : ℕ), (5 : ℕ)).2.1 ∨
      (Instr.spdmEndSession (0 : Port), (5 : ℕ), (5 : ℕ)).2.2 < spdmRank (portOf Q1 (Fin.val (0 : Port))).spdm)) ∧
    (linkUp Q1 (Fin.val (0 : Port)) = true ∧
      (spdmRank (portOf Q1 (Fin.val (0 : Port))).spdm < (Instr.spdmVendorDefinedRequest (0 : Port), (3 : ℕ), (5 : ℕ)).2.1 ∨
      (Instr.spdmVendorDefinedRequest (0 : Port), (3 : ℕ), (5 : ℕ)).2.2 < spdmRank (portOf Q1 (Fin.val (0 : Port))).spdm)) ∧
    (linkUp Q1 (Fin.val (0 : Port)) = true ∧
      (spdmRank (portOf Q1 (Fin.val (0 : Port))).spdm < (Instr.ideKmQuery (0 : Port), (5 : ℕ), (5 : ℕ)).2.1 ∨
      (Instr.ideKmQuery (0 : Port), (5 : ℕ), (5 : ℕ)).2.2 < spdmRank (portOf Q1 (Fin.val (0 : Port))).spdm)) ∧
    (linkUp Q1 (Fin.val (0 : Port)) = true ∧
      (spdmRank (portOf Q1 (Fin.val (0 : Port))).spdm < (Instr.ideKmKeyProg (0 : Port) true true (BitVec.ofNat (256 : ℕ) (7 : ℕ)), (5 : ℕ), (5 : ℕ)).2.1 ∨ (Instr.ideKmKeyProg (0 : Port) true true (BitVec.ofNat (256 : ℕ) (7 : ℕ)), (5 : ℕ), (5 : ℕ)).2.2 < spdmRank (portOf Q1 (Fin.val (0 : Port))).spdm)) :=
  ⟨by decide +kernel,
    by decide +kernel,
    by decide +kernel,
    by decide +kernel,
    by decide +kernel,
    by decide +kernel,
    by decide +kernel,
    by decide +kernel⟩

theorem witness_LinkSecurity_4 :
    (linkUp Q1 (Fin.val (0 : Port)) = true ∧
      (spdmRank (portOf Q1 (Fin.val (0 : Port))).spdm < (Instr.ideKmKSetGo (0 : Port) true true, (5 : ℕ), (5 : ℕ)).2.1 ∨
      (Instr.ideKmKSetGo (0 : Port) true true, (5 : ℕ), (5 : ℕ)).2.2 < spdmRank (portOf Q1 (Fin.val (0 : Port))).spdm)) ∧
    (linkUp Q1 (Fin.val (0 : Port)) = true ∧
      (spdmRank (portOf Q1 (Fin.val (0 : Port))).spdm < (Instr.ideKmKSetStop (0 : Port) true, (5 : ℕ), (5 : ℕ)).2.1 ∨
      (Instr.ideKmKSetStop (0 : Port) true, (5 : ℕ), (5 : ℕ)).2.2 < spdmRank (portOf Q1 (Fin.val (0 : Port))).spdm)) ∧
    (linkUp Q1 (Fin.val (0 : Port)) = true ∧
      (spdmRank (portOf Q1 (Fin.val (0 : Port))).spdm < (Instr.ideKmGetkey (0 : Port) true, (5 : ℕ), (5 : ℕ)).2.1 ∨
      (Instr.ideKmGetkey (0 : Port) true, (5 : ℕ), (5 : ℕ)).2.2 < spdmRank (portOf Q1 (Fin.val (0 : Port))).spdm)) ∧
    (linkUp Q4 (Fin.val (0 : Port)) = true ∧ ((portOf Q4 (Fin.val (0 : Port))).ide = (1 : ℕ) ∨
      (portOf Q4 (Fin.val (0 : Port))).ide = (2 : ℕ))) ∧
    (linkUp X0 (Fin.val (0 : Port)) = false ∨ (portOf X0 (Fin.val (0 : Port))).ide ≠ (1 : ℕ) ∧
      (portOf X0 (Fin.val (0 : Port))).ide ≠ (2 : ℕ)) :=
  ⟨by decide +kernel,
    by decide +kernel,
    by decide +kernel,
    by decide +kernel,
    by decide +kernel⟩

end Sys2Proof.Tests.G30

namespace Sys2Proof.Tests.G31
open Sys2Proof Sys2Proof.Machine Sys2Proof.Tests.Base

def P0 : State := { D with ports := D.ports.map (fun p => (p.1, { p.2 with busMaster := true })) }

def bw (r : BarrowRec) (s : State := P0) : State := { s with barrow := { s.barrow with channels := [(0, r)] } }

def l0 : LoadRec := { serial := 4, index := 7, kind := 1, src := 0, dst := 4096, total := 3, flags := 4, next := 0xFF, aux := 0 }

def lh : LoadRec := { l0 with kind := 2, src := 8192, dst := 0 }

def lr : LoadRec := { lh with issued := 1, reading := [0] }

def la : LoadRec := { l0 with issued := 1, reading := [0], arrived := [(0, dat, false)] }

def lw : LoadRec := { lh with issued := 3, writing := [(0, true), (2, true)] }

def lp : LoadRec := { l0 with issued := 3, posted := [0, 2] }

def fl : FlushRec := { covers := [(4, 0), (4, 2)] }

def B1 := bw { loads := [l0], serial := 5, cause := 1 }

def B2 := bw { loads := [lh], serial := 5 }

def B3 := bw { loads := [lr], serial := 5 }

def B4 := bw { loads := [la], serial := 5 }

def B5 := bw { loads := [lw], serial := 5 }

def B6 := bw { loads := [lp], serial := 5, flushes := [fl] }

def db (k : Nat) (n : Nat) : List Byte := leBytes 8 0 ++ leBytes 8 8192 ++ leBytes 4 n ++ leBytes 1 k ++ leBytes 1 4 ++ leBytes 1 0xFF ++ leBytes 9 0

def wd : Tab Int := [(objKey 0x2B30 1, 0), (objKey 0x2B30 2, 4), (objKey 0x2B30 3, 15)]

def B7 : State := { bw { committed := some 3, serial := 5 } with barrow := { descriptors := [(3, db 1 3)], channels := [(0, { committed := some 3, serial := 5 })] }, settings := wd }

def B8 : State := { B7 with barrow := { B7.barrow with descriptors := [(3, db 1 0)] } }

/-- States and operands that meet the hypotheses of `Obligations.BarrowTransfers`, clause by clause. -/
theorem witness_BarrowTransfers :
    (readyB a v Level.operator = true) ∧
    (readyB B7 v Level.operator = true ∧ ((barrowOf (sfS B7 v) ↑(0 : BarrowChannel)).loads = [] ∧
      (barrowOf (sfS B7 v) ↑(0 : BarrowChannel)).committed = some (3 : ℕ)) ∧
      descriptorCheck (sfS B7 v) (↑(0 : BarrowChannel)) (descriptorBytes (sfS B7 v) (3 : ℕ)) (loadOf (descriptorBytes (sfS B7 v) (3 : ℕ)) (barrowOf (sfS B7 v) ↑(0 : BarrowChannel)).serial (3 : ℕ)) = (0 : ℕ)) ∧
    (readyB B8 v Level.operator = true ∧ ((barrowOf (sfS B8 v) ↑(0 : BarrowChannel)).loads = [] ∧
      (barrowOf (sfS B8 v) ↑(0 : BarrowChannel)).committed = some (3 : ℕ)) ∧
      descriptorCheck (sfS B8 v) (↑(0 : BarrowChannel)) (descriptorBytes (sfS B8 v) (3 : ℕ)) (loadOf (descriptorBytes (sfS B8 v) (3 : ℕ)) (barrowOf (sfS B8 v) ↑(0 : BarrowChannel)).serial (3 : ℕ)) ≠ (0 : ℕ)) ∧
    (readyB B1 v Level.operator = true ∧ (barrowOf (sfS B1 v) ↑(0 : BarrowChannel)).loads ≠ []) ∧
    (readyB a v Level.operator = true ∧ (barrowOf (sfS a v) ↑(0 : BarrowChannel)).loads = [] ∧
      (barrowOf (sfS a v) ↑(0 : BarrowChannel)).committed = none) ∧
    (readyB B1 v Level.operator = true ∧ ((barrowOf (sfS B1 v) ↑(0 : BarrowChannel)).loads = [l0] ∧ (l0.errors = (0 : ℕ) ∧
      l0.failBeat = none ∧ l0.stopped = (0 : ℕ) ∧ l0.invalid = false ∧ l0.silent = false ∧ bitOf l0.flags (1 : ℕ) = false) ∧
      (barrowOf (sfS B1 v) ↑(0 : BarrowChannel)).errorDescriptor = (65535 : ℕ)) ∧ l0.kind ≠ (4 : ℕ) ∧ l0.reading = [] ∧
      l0.writing = [] ∧ l0.posted = [] ∧ l0.issued < l0.total) ∧
    (∀ y ∈ (barrowOf a ↑(0 : BarrowChannel)).loads, (BitVec.ofNat (32 : ℕ) (0 : ℕ)).toNat ∉ y.reading) ∧
    ((barrowOf a ↑(0 : BarrowChannel)).flushes = []) :=
  ⟨by decide +kernel,
    by decide +kernel,
    by decide +kernel,
    by decide +kernel,
    by decide +kernel,
    by decide +kernel,
    by decide +kernel,
    by decide +kernel⟩

theorem witness_BarrowTransfers_2 :
    (((barrowOf B2 ↑(0 : BarrowChannel)).loads = [lh] ∧ (lh.errors = (0 : ℕ) ∧ lh.failBeat = none ∧ lh.stopped = (0 : ℕ) ∧
      lh.invalid = false ∧ lh.silent = false ∧ bitOf lh.flags (1 : ℕ) = false) ∧
      (barrowOf B2 ↑(0 : BarrowChannel)).errorDescriptor = (65535 : ℕ)) ∧ lh.kind = (2 : ℕ) ∧ lh.issued + (1 : ℕ) < lh.total ∧
      beatsOut lh < (16 : ℕ) ∧ hostOpen B2 ↑(0 : BarrowChannel) = true ∧ B2.sys.memoryActive = true) ∧
    (((barrowOf B3 ↑(0 : BarrowChannel)).loads = [lr] ∧ (lr.errors = (0 : ℕ) ∧ lr.failBeat = none ∧ lr.stopped = (0 : ℕ) ∧
      lr.invalid = false ∧ lr.silent = false ∧ bitOf lr.flags (1 : ℕ) = false) ∧
      (barrowOf B3 ↑(0 : BarrowChannel)).errorDescriptor = (65535 : ℕ)) ∧ lr.kind = (2 : ℕ) ∧
      lr.reading = [(BitVec.ofNat (32 : ℕ) (0 : ℕ)).toNat] ∧ lr.writing = [] ∧ lr.posted = [] ∧ lr.issued < lr.total) ∧
    (((barrowOf B4 ↑(0 : BarrowChannel)).loads = [la] ∧ (la.errors = (0 : ℕ) ∧ la.failBeat = none ∧ la.stopped = (0 : ℕ) ∧
      la.invalid = false ∧ la.silent = false ∧ bitOf la.flags (1 : ℕ) = false) ∧
      (barrowOf B4 ↑(0 : BarrowChannel)).errorDescriptor = (65535 : ℕ)) ∧ la.kind = (1 : ℕ) ∧
      (BitVec.ofNat (32 : ℕ) (0 : ℕ)).toNat ∈ la.reading ∧
      List.find? (fun a => a.1 == (BitVec.ofNat (32 : ℕ) (0 : ℕ)).toNat) la.arrived =
      some ((BitVec.ofNat (32 : ℕ) (0 : ℕ)).toNat, dat, false) ∧ (BitVec.ofNat (32 : ℕ) (0 : ℕ)).toNat + (1 : ℕ) < la.total ∧
      la.issued < la.total) ∧
    ((barrowOf B5 ↑(0 : BarrowChannel)).loads = [lw] ∧ (lw.stopped ≠ (0 : ℕ) ∨ lw.kind = (4 : ℕ) ∨ lw.total ≤ lw.issued ∨
      (16 : ℕ) ≤ beatsOut lw ∨ B5.sys.memoryActive = false)) ∧
    (((barrowOf B5 ↑(0 : BarrowChannel)).loads = [lw] ∧ (lw.errors = (0 : ℕ) ∧ lw.failBeat = none ∧ lw.stopped = (0 : ℕ) ∧
      lw.invalid = false ∧ lw.silent = false ∧ bitOf lw.flags (1 : ℕ) = false) ∧
      (barrowOf B5 ↑(0 : BarrowChannel)).errorDescriptor = (65535 : ℕ)) ∧ lw.kind ≠ (1 : ℕ) ∧ lw.kind ≠ (4 : ℕ) ∧
      lw.issued = lw.total ∧ lw.reading = [] ∧ lw.posted = [] ∧ ∀ w ∈ lw.writing, w.2 = true) ∧
    (((barrowOf B6 ↑(0 : BarrowChannel)).loads = [lp] ∧ (lp.errors = (0 : ℕ) ∧ lp.failBeat = none ∧ lp.stopped = (0 : ℕ) ∧
      lp.invalid = false ∧ lp.silent = false ∧ bitOf lp.flags (1 : ℕ) = false) ∧
      (barrowOf B6 ↑(0 : BarrowChannel)).errorDescriptor = (65535 : ℕ)) ∧ lp.kind = (1 : ℕ) ∧ lp.issued = lp.total ∧
      lp.reading = [] ∧ lp.writing = [] ∧ lp.posted.head? = some (0 : ℕ) ∧ (barrowOf B6 ↑(0 : BarrowChannel)).flushes = [fl] ∧
      fl.covers = List.map (fun b => (lp.serial, b)) lp.posted ∧ fl.raises = (0 : ℕ)) ∧
    (readyB a v Level.operator = true ∧ (barrowOf (sfS a v) ↑(0 : BarrowChannel)).loads = []) :=
  ⟨by decide +kernel,
    by decide +kernel,
    by decide +kernel,
    by decide +kernel,
    by decide +kernel,
    by decide +kernel,
    by decide +kernel⟩

end Sys2Proof.Tests.G31

namespace Sys2Proof.Tests.G31b
open Sys2Proof Sys2Proof.Machine Sys2Proof.Tests.Base

def P0 : State := { D with ports := D.ports.map (fun p => (p.1, { p.2 with busMaster := true })) }

def bw (r : BarrowRec) (s : State := P0) : State := { s with barrow := { s.barrow with channels := [(0, r)] } }

def l0 : LoadRec := { serial := 4, index := 7, kind := 1, src := 0, dst := 4096, total := 3, flags := 4, next := 0xFF, aux := 0 }

def lt : LoadRec := { l0 with kind := 4, src := 0, dst := 8192, total := 16, aux := 64 }

def fb : DestageRec := { place := 1024, line := 64, version := 5, code := List.replicate 96 5, fill := some (.barrow 0 0 0) }

def pl : Place := { group := 1, slot := some (0, 0), addrs := List.replicate 8 557056, filter := (0, 0) }

def FB : State := { P0 with easel := { lines := [(1024, { valid := true, dirty := true, flight := true, data := dat })], flights := [fb] }, barrow := { P0.barrow with channels := [(0, { loads := [{ l0 with issued := 1, reading := [], writing := [(0, false)] }], serial := 5 })] } }

def tq (n : Nat) (s : State) : State := { s with queues := [(8, { words := List.replicate n (qword 0 true true false) })] }

def T8 : State := tq 9 (bw { loads := [lt], serial := 5, writePointer := 15, readPointer := 3 })

/-- States and operands that meet the hypotheses of `Obligations.BarrowStreams`, clause by clause. -/
theorem witness_BarrowStreams :
    (List.find? (fun x => x.line == (BitVec.ofNat 38 64).toNat && x.fill.isSome) FB.easel.flights = some fb ∧
      fb.fill = some (Requester.barrow 0 0 0) ∧ linePlace FB fb.line = some pl ∧ placeFenced FB pl = false ∧
      (easelLine FB fb.place).valid = true ∧ (easelLine FB fb.place).flight = true ∧
      (easelLine FB fb.place).tag = easelTag fb.line ∧ (easelLine FB fb.place).written = false ∧
      (easelLine FB fb.place).onDevice = false) ∧
    (List.find? (fun x => x.line == (BitVec.ofNat 38 64).toNat && x.fill.isSome) D.easel.flights = none) ∧
    (((barrowOf T8 ↑(0 : BarrowChannel)).loads.getLast? = some lt ∧ lt.kind = (4 : ℕ) ∧ lt.stopped = (0 : ℕ) ∧
      hostOpen T8 ↑(0 : BarrowChannel) = true ∧
      ((barrowOf T8 ↑(0 : BarrowChannel)).writePointer + (1 : ℕ)) % lt.total ≠ (barrowOf T8 ↑(0 : BarrowChannel)).readPointer) ∧ (8 : ℕ) ≤ (List.drop (queueOf T8 (8 : ℕ)).taken (queueOf T8 (8 : ℕ)).words).length) ∧
    ((List.drop (queueOf FB 8).taken (queueOf FB 8).words).length < 8) ∧
    (((barrowOf T8 ↑(0 : BarrowChannel)).loads.getLast? = some lt ∧ lt.kind = (4 : ℕ) ∧ lt.stopped = (0 : ℕ) ∧
      hostOpen T8 ↑(0 : BarrowChannel) = true ∧
      ((barrowOf T8 ↑(0 : BarrowChannel)).writePointer + (1 : ℕ)) % lt.total ≠ (barrowOf T8 ↑(0 : BarrowChannel)).readPointer) ∧ List.drop (queueOf T8 (8 : ℕ)).taken (queueOf T8 (8 : ℕ)).words ≠ []) ∧
    (List.drop (queueOf FB (8 : ℕ)).taken (queueOf FB (8 : ℕ)).words = [] ∨ hostOpen FB ↑(0 : BarrowChannel) = false ∨
      (barrowOf FB ↑(0 : BarrowChannel)).loads.getLast? = some lt ∧ (lt.kind ≠ (4 : ℕ) ∨
      ((barrowOf FB ↑(0 : BarrowChannel)).writePointer + (1 : ℕ)) % lt.total =
      (barrowOf FB ↑(0 : BarrowChannel)).readPointer)) ∧
    (readyB T8 v Level.operator = true ∧ telemetryChannel (sfS T8 v) = some ↑(0 : BarrowChannel) ∧
      (barrowOf (sfS T8 v) ↑(0 : BarrowChannel)).loads.getLast? = some lt ∧ (BitVec.ofNat (32 : ℕ) (5 : ℕ)).toNat < lt.total) ∧
    (readyB T8 v Level.operator = true ∧ telemetryChannel (sfS T8 v) = some ↑(0 : BarrowChannel) ∧
      (barrowOf (sfS T8 v) ↑(0 : BarrowChannel)).loads.getLast? = some lt ∧
      lt.total ≤ (BitVec.ofNat (32 : ℕ) (16 : ℕ)).toNat) :=
  ⟨by decide +kernel,
    by decide +kernel,
    by decide +kernel,
    by decide +kernel,
    by decide +kernel,
    by decide +kernel,
    by decide +kernel,
    by decide +kernel⟩

theorem witness_BarrowStreams_2 :
    readyB FB v Level.operator = true ∧ telemetryChannel (sfS FB v) ≠ some ↑(0 : BarrowChannel) :=
  by decide +kernel

end Sys2Proof.Tests.G31b

namespace Sys2Proof.Tests.G32
open Sys2Proof Sys2Proof.Machine Sys2Proof.Tests.Base

def q (i : Nat) (x : QueueRec) : State := { a with queues := [(i, x)] }

def ws (n : Nat) : List QWord := (List.range n).map (fun i => qword i (i % 4 == 0) (i % 4 == 3) false)

def q1 : State := q 0 { words := ws 9, openBy := some 3, head := 1 }

def q2 : State := q 8 { words := ws 9, openBy := some 3, head := 1, blocks := 1, taken := 1, dropping := some 0 }

def aP : State := { a with sys := { a.sys with corePll := false } }

/-- States and operands that meet the hypotheses of `Obligations.StallQueues`, clause by clause. -/
theorem witness_StallQueues :
    ((queueOf q1 ↑(0 : Fin (13 : ℕ))).dropping ≠ some ↑(0 : Fin (4 : ℕ)) ∧
      ((queueOf q1 ↑(0 : Fin (13 : ℕ))).openBy.isSome = true ∧
      ((queueOf q1 ↑(0 : Fin (13 : ℕ))).openBy ≠ some ↑(0 : Fin (4 : ℕ)) ∨ true = true) ∨
      (queueOf q1 ↑(0 : Fin (13 : ℕ))).openBy = none ∧ true = true ∧ ↑(0 : Fin (13 : ℕ)) ≠ (8 : ℕ) ∧
      queueCapacity ↑(0 : Fin (13 : ℕ)) ≤ (queueOf q1 ↑(0 : Fin (13 : ℕ))).words.length + packetLength (↑(0 : Fin (13 : ℕ))) (BitVec.ofNat (64 : ℕ) (0 : ℕ)).toNat)) ∧
    ((queueOf aP ↑(0 : Fin (13 : ℕ))).dropping ≠ some ↑(0 : Fin (4 : ℕ)) ∧ (queueOf aP ↑(0 : Fin (13 : ℕ))).openBy = none ∧
      true = true ∧ (queueOf aP ↑(0 : Fin (13 : ℕ))).words.length ≤ queueCapacity ↑(0 : Fin (13 : ℕ)) ∧
      (↑(0 : Fin (13 : ℕ)) = (8 : ℕ) ∨
      (queueOf aP ↑(0 : Fin (13 : ℕ))).words.length + packetLength (↑(0 : Fin (13 : ℕ))) (BitVec.ofNat (64 : ℕ) (0 : ℕ)).toNat < queueCapacity ↑(0 : Fin (13 : ℕ)))) ∧
    ((queueOf aP ↑(0 : Fin (13 : ℕ))).dropping ≠ some ↑(0 : Fin (4 : ℕ)) ∧ (queueOf aP ↑(0 : Fin (13 : ℕ))).openBy = none ∧
      false = false) ∧
    ((queueOf q1 ↑(0 : Fin (13 : ℕ))).dropping ≠ some ↑(3 : Fin (4 : ℕ)) ∧
      (queueOf q1 ↑(0 : Fin (13 : ℕ))).openBy = some ↑(3 : Fin (4 : ℕ)) ∧ false = false) ∧
    ((7 : ℕ) ≤ tailWords (queueOf q1 ↑(0 : Fin (13 : ℕ))) ∧
      (queueOf q1 ↑(0 : Fin (13 : ℕ))).blocks < spillBlocks ↑(0 : Fin (13 : ℕ))) ∧
    (tailWords (queueOf aP ↑(0 : Fin (13 : ℕ))) < (7 : ℕ) ∨
      spillBlocks ↑(0 : Fin (13 : ℕ)) ≤ (queueOf aP ↑(0 : Fin (13 : ℕ))).blocks) ∧
    ((queueOf aP ↑(0 : Fin (13 : ℕ))).blocks = (0 : ℕ) ∨ (25 : ℕ) < (queueOf aP ↑(0 : Fin (13 : ℕ))).head) ∧
    (readyB aP v Level.maintainer = true) :=
  ⟨by decide +kernel,
    by decide +kernel,
    by decide +kernel,
    by decide +kernel,
    by decide +kernel,
    by decide +kernel,
    by decide +kernel,
    by decide +kernel⟩

theorem witness_StallQueues_2 :
    ((queueOf q2 ↑(8 : Fin (13 : ℕ))).dropping = some ↑(0 : Fin (4 : ℕ))) ∧
    ((0 : ℕ) < (queueOf q2 ↑(8 : Fin (13 : ℕ))).blocks ∧ (queueOf q2 ↑(8 : Fin (13 : ℕ))).head ≤ (25 : ℕ)) ∧
    (readyB aP v Level.maintainer = true ∧ (↑(8 : Fin (13 : ℕ)) = (8 : ℕ) ∨
      (portOf (sfS aP v) (↑(8 : Fin (13 : ℕ)) - (9 : ℕ))).heldEvents = [])) ∧
    (q1.sys.corePll = true ∧ (queueOf q1 8).words.length + 2 < queueCapacity 8) ∧
    (aP.sys.corePll = false) :=
  ⟨by decide +kernel,
    by decide +kernel,
    by decide +kernel,
    by decide +kernel,
    by decide +kernel⟩

end Sys2Proof.Tests.G32

namespace Sys2Proof.Tests.G33
open Sys2Proof Sys2Proof.Machine Sys2Proof.Tests.Base

def fo (f : Folio) (s : State := D) : State := { s with folio := f, power := { s.power with vinGood := true } }

def pg : Nat × List Byte := (0x5E000, [1, 2])

def i0 : FolioItem := { cls := 5, task := .userPage, pages := [pg] }

def it : FolioItem := { cls := 6, task := .tally 152, pages := [] }

def F0 := fo { queue := [i0] }

def j0 : PageJob := { addr := 0x5E000, bytes := [1, 2], item := { i0 with pages := [] } }

def j1 : PageJob := { j0 with repeated := true, item := i0 }

def F3 := fo { running := some j0 , queue := [i0] }

def F4 := fo { running := some j1 , queue := [i0] }

def F7 : State := { fo { queue := [i0] } with sys := { D.sys with dev := .varnished } }

def F8 : State := { fo { epilogueOver := false } with sys := { D.sys with dev := .varnished } }

def Fu : State := { fo {} with mgmt := { m with sessions := m.sessions.map (fun e => (e.1, { e.2 with userAddress := 63 })) } }

def T0 := fo { tallyPending := [(155, 3)] }

def T1 := fo { tallyPending := [(155, 3)], queue := [{ it with task := .tally 155 }] }

def lg (l : Ledger) : State := { D with ledger := l, folio := {}, mgmt := m }

def tr (c m s : Nat) : Tracker := { code := c, made := m, suppressed := s }

def rc (n : Nat) : LedgerRecord := { seq := n, code := 4, time := 5, data := leBytes 11 0, flags := 0 }

def L0 := lg { lastSeq := 5, pending := [rc 4, rc 5], trackers := [tr 0x2101 1000 0, tr 0x2102 1 4, tr 9 0 0], sharedSuppressed := 3 }

def L2 := lg { lastSeq := 6144, mark := 0, full := true, clearing := some 4 }

def L4 : State := { L0 with sys := { D.sys with dev := .warn } }

/-- States and operands that meet the hypotheses of `Obligations.FolioPageWrites`, clause by clause. -/
theorem witness_FolioPageWrites :
    (F0.folio.running = none ∧ comparatorOk F0 = true) ∧ nextItem F0 = some i0 ∧ realPages F0 i0.pages = [pg] :=
  by decide +kernel

theorem witness_FolioPageWrites_2 :
    F3.folio.running.isSome = true ∨ F3.sys.dev = DeviceState.warn ∨ F3.sys.dev = DeviceState.varnish ∨
      comparatorOk F3 = false ∧ F3.sys.dev ≠ DeviceState.varnished :=
  by decide +kernel

theorem witness_FolioPageWrites_3 :
    F8.folio.running = none ∧ F8.sys.dev = DeviceState.varnished ∧ F8.folio.epilogueOver = false ∧
      (comparatorOk F8 = false ∨ nextItem F8 = none) :=
  by decide +kernel

theorem witness_FolioPageWrites_4 :
    F0.folio.running = none ∧ F0.sys.dev ≠ DeviceState.varnished :=
  by decide +kernel

theorem witness_FolioPageWrites_5 :
    (F3.folio.running = some j0 ∧ [(1 : Byte), (2 : Byte)].length = j0.bytes.length) ∧ [(1 : Byte), (2 : Byte)] = j0.bytes ∧
      F3.sys.dev ≠ DeviceState.varnished ∧ j0.item.pages = [] ∧ (j0.item.task = FolioTask.userPage ∨
      (∃ i, j0.item.task = FolioTask.tally i) ∨ ∃ seqs, j0.item.task = FolioTask.ledger seqs) :=
  ⟨by decide +kernel, by decide +kernel, by decide +kernel, by decide +kernel, .inl (by decide +kernel)⟩

theorem witness_FolioPageWrites_6 :
    (F3.folio.running = some j0 ∧ [(1 : Byte), (3 : Byte)].length = j0.bytes.length) ∧ [(1 : Byte), (3 : Byte)] ≠ j0.bytes ∧
      j0.repeated = false :=
  by decide +kernel

theorem witness_FolioPageWrites_7 :
    (F4.folio.running = some j1 ∧ [(1 : Byte), (3 : Byte)].length = j1.bytes.length) ∧ [(1 : Byte), (3 : Byte)] ≠ j1.bytes ∧
      j1.repeated = true ∧ F4.sys.dev ≠ DeviceState.varnished ∧ ∀ (k p q c : ℕ), j1.item.task ≠ FolioTask.parameter k p q c :=
  ⟨by decide +kernel, by decide +kernel, by decide +kernel, by decide +kernel, fun k p q c h => by
      have h2 : FolioTask.userPage = FolioTask.parameter k p q c := h
      cases h2⟩

theorem witness_FolioPageWrites_8 :
    readyB F0 v Level.operator = true ∧
      (sessionOf (sfS F0 v) (sfN F0 v)).userAddress % 64 + [(1 : Byte), (2 : Byte)].length ≤ 64 ∧
      inShutdown (sfS F0 v) = false :=
  by decide +kernel

theorem witness_FolioPageWrites_9 :
    readyB Fu v Level.operator = true ∧
      64 < (sessionOf (sfS Fu v) (sfN Fu v)).userAddress % 64 + [(1 : Byte), (2 : Byte)].length :=
  by decide +kernel

theorem witness_FolioPageWrites_10 :
    readyB F7 v Level.operator = true ∧
      (sessionOf (sfS F7 v) (sfN F7 v)).userAddress % 64 + [(1 : Byte), (2 : Byte)].length ≤ 64 ∧
      inShutdown (sfS F7 v) = true :=
  by decide +kernel

/-- States and operands that meet the hypotheses of `Obligations.Tallies`, clause by clause. -/
theorem witness_Tallies :
    hourHolds T0 (BitVec.ofNat 8 155).toNat = false :=
  by decide +kernel

theorem witness_Tallies_2 :
    tabGet dNat T0.folio.tallyPending (BitVec.ofNat 8 155).toNat ≠ 0 ∧
      ((∀ it ∈ T0.folio.queue, it.task ≠ FolioTask.tally (BitVec.ofNat 8 155).toNat) ∧
      Option.all (fun j => decide (j.item.task ≠ FolioTask.tally (BitVec.ofNat 8 155).toNat)) (T0.folio.running) = true) ∧
      tallyCount T0 (BitVec.ofNat 8 155).toNat < 4294967280 :=
  by decide +kernel

theorem witness_Tallies_3 :
    tabGet dNat T1.folio.tallyPending (BitVec.ofNat 8 155).toNat = 0 ∨ 4294967280 ≤ tallyCount T1 (BitVec.ofNat 8 155).toNat ∨
      ∃ it ∈ T1.folio.queue, it.task = FolioTask.tally (BitVec.ofNat 8 155).toNat :=
  by decide +kernel

theorem witness_Tallies_4 :
    hourHolds T0 (BitVec.ofNat 8 ((List.filter (hourHolds T0) (List.range 192)).headD 0)).toNat = true :=
  by decide +kernel

/-- States and operands that meet the hypotheses of `Obligations.LedgerRecords`, clause by clause. -/
theorem witness_LedgerRecords :
    readyB L0 v Level.maintainer = true ∧ (sfS L0 v).ledger.clearing = none ∧ inShutdown (sfS L0 v) = false :=
  by decide +kernel

theorem witness_LedgerRecords_2 :
    readyB L2 v Level.maintainer = true ∧ (sfS L2 v).ledger.clearing.isSome = true :=
  by decide +kernel

theorem witness_LedgerRecords_3 :
    readyB L4 v Level.maintainer = true ∧ (sfS L4 v).ledger.clearing = none ∧ inShutdown (sfS L4 v) = true :=
  by decide +kernel

end Sys2Proof.Tests.G33

namespace Sys2Proof.Tests.G34
open Sys2Proof Sys2Proof.Machine Sys2Proof.Tests.Base

def q0 : State := { D with perf := { D.perf with counters := [(0, 5), (103, 2^63)], sticky := [(0, true), (9, true), (103, true)] }, settings := [(objKey 0x3200 5, 10), (objKey 0x3201 1, 0x305)] }

/-- States and operands that meet the hypotheses of `Obligations.PerformanceControl`, clause by clause. -/
theorem witness_PerformanceControl :
    (readyB D v Level.operator = true) ∧
    (settingN q0 12800 5 ≠ 0 ∧ (queueOf q0 8).words.length + 143 < queueCapacity 8) ∧
    (settingN D 12800 5 = 0) :=
  ⟨by decide +kernel,
    by decide +kernel,
    by decide +kernel⟩

end Sys2Proof.Tests.G34

namespace Sys2Proof.Tests.G35
open Sys2Proof Sys2Proof.Machine Sys2Proof.Tests.Base

/-- A row of the dictionary that exists and meets a test. -/
def row (idx sub : Nat) (p : ObjRow → Bool) : Bool := (objRow? idx sub).any p

/-- The maintainer's session with the recall scan running. -/
def scanning : State := { a with sys := { a.sys with recalling := true } }

/-- A session at Observer. -/
def watching : State := { a with mgmt := { m with sessions := [(4, { client := some (.can 5) })] } }

/-- States and operands that meet the hypotheses of `Obligations.RequestsAreJudgedInOrder`: no object, the recall scan, Standby, the
access, the length, the level, the range, and a request that passes them all. -/
theorem witness_RequestsAreJudgedInOrder :
    (pathOpen a v = true ∧ sessionFor a v = some (4, sfS a v) ∧ objRow? 0x2BFF 0 = none) ∧
    (pathOpen scanning v = true ∧ (sfS scanning v).sys.recalling = true ∧ (objRow? 0x2300 2).isSome = true) ∧
    (pathOpen State.reset v = true ∧ (sessionFor State.reset v).isSome = true ∧ (sfS State.reset v).sys.recalling = false ∧
      (sfS State.reset v).sys.dev = .standby ∧ standbyServed 0x2300 2 = false) ∧
    ((sfS a v).sys.dev ≠ .standby ∧ row 0x2000 1 (fun r => decide (r.access = .ro ∨ r.access = .const)) = true) ∧
    (row 0x2130 1 (fun r => decide (r.access ≠ .ro ∧ r.access ≠ .const) && !r.ty.lengthOk 9) = true) ∧
    (pathOpen watching v = true ∧ levelNum (sessionOf (sfS watching v) (sfN watching v)).level < levelNum .operator ∧
      row 0x2130 1 (fun r => r.ty.lengthOk 1 && decide (levelNum .operator ≤ levelNum r.level)) = true) ∧
    (row 0x2130 1 (fun r => r.ty.isNum && r.ty.lengthOk 1 && !r.inRange (writtenValue r [200])) = true) ∧
    (row 0x2130 1 (fun r => r.ty.isNum && r.ty.lengthOk 1 && r.inRange (writtenValue r [2]) &&
      decide (levelNum r.level ≤ levelNum (sessionOf (sfS a v) 4).level)) = true) ∧
    (pathOpen (endSegments a (.can 5)) (.can 5) = true ∧ (sessionFor (endSegments a (.can 5)) (.can 5)).isSome = true) := by
  decide +kernel

/-- A write-only object, for the last clause of `Obligations.RequestsAreJudgedInOrder`. -/
theorem witness_RequestsAreJudgedInOrder_writeOnly :
    objectTable.any (fun r => decide (r.access = .wo) && decide (objRow? r.idxLo r.subLo = some r)) = true := by
  decide +kernel

/-- A queue with a command in front, and an empty one, under each clock. -/
theorem witness_StepTakesTheFront :
    { State.reset with pending := [Instr.sync, .warnWindowEnd] }.pending = .sync :: [.warnWindowEnd] ∧
    State.reset.pending = [] ∧ State.reset.sys.corePll = false ∧ a.pending = [] ∧ a.sys.corePll = true := by
  decide +kernel

theorem witness_EveryStepKeepsTheMedium : MediumCanonical State.reset ∧ ∃ t, step State.reset = .next t :=
  ⟨show tabWf dPatch State.reset.path.medium = true by decide +kernel, _, rfl⟩

theorem witness_EveryStepGuardsMaintainer : MaintainerGuarded State.reset ∧ ∃ t, step State.reset = .next t :=
  ⟨fun _ => by decide +kernel, _, rfl⟩

theorem witness_LedgerNumbersNeverFall :
    (∀ c ∈ State.reset.pending.head?, ∀ torn, c ≠ .aonPor torn) ∧ ∃ t, step State.reset = .next t :=
  ⟨fun c h => by simp [State.reset] at h, _, rfl⟩

end Sys2Proof.Tests.G35
end

section
/-! The machine after the power-on reset (O56): what the shared accessors read of it, and its tallies. -/
namespace Sys2Proof.Machine

@[simp] theorem sessionOf_reset (n : Nat) : sessionOf State.reset n = {} := rfl

@[simp] theorem queueOf_reset (q : Nat) : queueOf State.reset q = {} := rfl

@[simp] theorem easelLine_reset (p : Nat) : easelLine State.reset p = {} := rfl

@[simp] theorem setting_reset (idx sub : Nat) : setting State.reset idx sub = objDefault (objKey idx sub) := rfl

@[simp] theorem stat_reset (idx sub : Nat) : stat State.reset idx sub = objDefault (objKey idx sub) := rfl

@[simp] theorem railOf_reset_enabled (r : Nat) : (railOf State.reset r).enabled = decide (r = 5) := by
  show (if r = 5 then ({ enabled := true } : RailRec) else {}).enabled = _
  by_cases h : r = 5 <;> simp [h]

theorem tallyPending_reset (i : Nat) : tabGet dNat State.reset.folio.tallyPending i = if i = 152 then 1 else 0 := rfl

/-- The first byte of a tally cell of the array as made holds the cell's place in its ring (R412). -/
theorem dFolio_tallyCell {i j : Nat} (hi : i < 192) (hj : j < 16) :
    dFolio (0x50000 + 64 * i + 4 * j) = BitVec.ofNat 8 j := by
  unfold dFolio
  rw [if_pos (by omega)]
  congr 1
  omega

/-- The upper bytes of a tally cell of the array as made are zero. -/
theorem dFolio_tallyCell_upper {i j b : Nat} (hi : i < 192) (hj : j < 16) (hb : 0 < b) (hb4 : b < 4) :
    dFolio (0x50000 + 64 * i + 4 * j + b) = 0 := by
  unfold dFolio
  rw [if_neg (by omega), if_neg (by omega), if_neg (by omega)]

/-- Cell `j` of every tally of the array as made holds `j` (R412). -/
theorem tallyCell_reset {i j : Nat} (hi : i < 192) (hj : j < 16) : tallyCell State.reset i j = j := by
  have hread : folioRead State.reset (0x50000 + 64 * i + 4 * j) 4 = [BitVec.ofNat 8 j, 0, 0, 0] := by
    show [dFolio (0x50000 + 64 * i + 4 * j + 0), dFolio (0x50000 + 64 * i + 4 * j + 1),
      dFolio (0x50000 + 64 * i + 4 * j + 2), dFolio (0x50000 + 64 * i + 4 * j + 3)] = _
    rw [Nat.add_zero, dFolio_tallyCell hi hj, dFolio_tallyCell_upper hi hj (by omega) (by omega),
      dFolio_tallyCell_upper hi hj (by omega) (by omega), dFolio_tallyCell_upper hi hj (by omega) (by omega)]
  unfold tallyCell folioNum
  rw [hread]
  simp [ofLe]
  omega

/-- No cell of the array as made stands above 15, so every tally counts 0 (R412). -/
theorem tallyCount_reset {i : Nat} (hi : i < 192) : tallyCount State.reset i = 0 := by
  have hstored : tallyStored State.reset i = 15 := by
    refine List.foldlRecOn (motive := fun best => best = 15) _ _ rfl ?_
    rintro best rfl j hj
    have hj16 : j < 16 := List.mem_range.mp hj
    have hcell := tallyCell_reset hi hj16
    exact if_neg (by omega)
  unfold tallyCount
  rw [hstored]

/-- Settles O56: each unit of the block is at its reset value; the tallies stand at 0 because their rings hold no cell above
15 (`tallyCount_reset`). -/
theorem resetState : Obligations.ResetState := by
  refine ⟨rfl, rfl, rfl, rfl, rfl, fun n => by simp, rfl, rfl, rfl, rfl, rfl, rfl, rfl, rfl, rfl,
    fun i hi => ⟨tallyCount_reset hi, tallyPending_reset i⟩, railOf_reset_enabled, rfl, rfl, rfl, rfl, rfl, rfl, rfl, rfl,
    rfl, rfl, fun q => by simp, fun idx sub => ⟨setting_reset idx sub, stat_reset idx sub⟩, fun p => by simp, rfl⟩

end Sys2Proof.Machine
end

section
/-! The services of the CAN node (O10): what an event without an EMCY does, and what the release of sessions, a node reset, a
SYNC and the EMCY queue leave behind. -/
namespace Sys2Proof.Machine

/-! ### Events that send no EMCY (R417, R454) -/

theorem raise_of_emcyOf_none {code : Nat} {data : List Byte} (h : emcyOf code data = none) (s : State) :
    raise s code data = (ledgerRecord s code data).1 := by
  unfold raise
  simp only [h]

theorem ledgerRecord_mgmt (s : State) (code : Nat) (data : List Byte) : (ledgerRecord s code data).1.mgmt = s.mgmt :=
  ledgerRecord_frame s code data .mgmt (by decide)

theorem ledgerRecord_out (s : State) (code : Nat) (data : List Byte) : (ledgerRecord s code data).1.out = s.out :=
  ledgerRecord_frame s code data .out (by decide)

theorem ledgerAssign_ledger_congr {s t : State} (hl : t.ledger = s.ledger) (hs : t.sys = s.sys) (code : Nat)
    (data : List Byte) (summary : Bool) :
    (ledgerAssign t code data summary).1.ledger = (ledgerAssign s code data summary).1.ledger := by
  unfold ledgerAssign nowNs
  rw [hl, hs]
  split
  · exact hl
  · rfl

theorem suppress_ledger_congr {s t : State} (hl : t.ledger = s.ledger) (code : Nat) (tracked : Bool) :
    (suppress t code tracked).ledger = (suppress s code tracked).ledger := by
  unfold suppress
  cases tracked with
  | false => simp only [bump_ledger, hl, Bool.false_eq_true, if_false]
  | true => simp only [bump_ledger, hl, if_true]

/-- What an event does to the Ledger depends on the Ledger, the device state and time, and the settings alone (R417 to
R419). -/
theorem ledgerRecord_ledger_congr {s t : State} (hl : t.ledger = s.ledger) (hs : t.sys = s.sys)
    (hset : t.settings = s.settings) (code : Nat) (data : List Byte) :
    (ledgerRecord t code data).1.ledger = (ledgerRecord s code data).1.ledger := by
  have hlimit : forceN t 0x3180 6 = forceN s 0x3180 6 := by
    unfold forceN settingN setting
    rw [hs, hset]
  unfold ledgerRecord
  rw [hl, hlimit]
  split
  · exact ledgerAssign_ledger_congr hl hs ..
  · split
    · split
      · exact ledgerAssign_ledger_congr (by rfl) (by exact hs) ..
      · exact suppress_ledger_congr hl ..
    · split
      · exact ledgerAssign_ledger_congr (by rfl) (by exact hs) ..
      · exact suppress_ledger_congr hl ..

/-- An event recorded in a state with the Ledger, the device state and time, and the settings of `s` is one event of `s`. -/
theorem logsEvent_ledgerRecord {s t : State} (hl : t.ledger = s.ledger) (hs : t.sys = s.sys)
    (hset : t.settings = s.settings) (code : Nat) (data : List Byte) :
    LogsEvent code data s (ledgerRecord t code data).1 :=
  ledgerRecord_ledger_congr hl hs hset code data

/-! ### The NMT commands (R436) -/

/-- A release of sessions changes the session table and nothing else. -/
theorem releaseSessions_eq (s : State) (lo k : Nat) :
    releaseSessions s lo k = { s with mgmt := { s.mgmt with sessions := (releaseSessions s lo k).mgmt.sessions } } := by
  refine List.foldlRecOn
    (motive := fun x : State => x = { s with mgmt := { s.mgmt with sessions := x.mgmt.sessions } }) _ _ rfl ?_
  intro x hx i _
  rw [hx]
  rfl

theorem sessionOf_releaseSessions (s : State) (lo k n : Nat) :
    sessionOf (releaseSessions s lo k) n = if lo ≤ n ∧ n < lo + k then {} else sessionOf s n := by
  induction k with
  | zero => rw [if_neg (by omega)]; rfl
  | succ k ih =>
    have hlast : releaseSessions s lo (k + 1) = releaseSession (releaseSessions s lo k) (lo + k) := by
      simp [releaseSessions, List.range_succ]
    rw [hlast, releaseSession, sessionOf_modSession, ih]
    grind

/-- A node that can send starts with its boot-up message, in the state NmtStartup gives (R436). -/
theorem nmtBoot_of_canUp {s : State} (h : canUp s = true) :
    nmtBoot s = { emit s (.can (0x700 + s.mgmt.nodeId) [0]) with
      mgmt := { s.mgmt with nmt := if settingB s 0x2001 8 then .operational else .preOperational } } := by
  have hup : canUp { s with mgmt := { s.mgmt with nmt := .preOperational } } = true := h
  unfold nmtBoot
  dsimp only
  rw [if_pos hup]
  show (if settingB s 0x2001 8 = true then _ else _) = _
  split <;> rfl

/-- The node with its CAN sessions released and its CAN settings applied, before it starts again (R436). -/
def nodeReleased (s : State) : State :=
  { s with mgmt := { s.mgmt with
      sessions := (releaseSessions (leaveService s .initialising) 4 8).mgmt.sessions
      nmt := .initialising, emcyQueue := [], emcyInhibited := false, syncCount := []
      nodeId := settingN s 0x2001 2, arbitrationRate := settingN s 0x2001 3, dataRate := settingN s 0x2001 4 } }

theorem nmtReset_eq_boot (s : State) (command : Nat) (b : Bool) :
    nmtReset s command b = raise (nmtBoot (nodeReleased s)) 0x2008
      (leBytes 1 command ++ leBytes 1 (if b then 0 else s.mgmt.nodeId)) := by
  unfold nmtReset
  rw [releaseSessions_eq]
  rfl

/-- The node as it stands after a reset of its NMT state machine, before the event of it (R436). -/
def nodeRestarted (s : State) : State :=
  { nodeReleased s with
    mgmt := { (nodeReleased s).mgmt with nmt := if settingB s 0x2001 8 then .operational else .preOperational }
    out := .can (0x700 + settingN s 0x2001 2) [0] :: s.out }

theorem sessionOf_nodeRestarted (s : State) (n : Nat) :
    sessionOf (nodeRestarted s) n = if 4 ≤ n ∧ n < 12 then {} else sessionOf s n :=
  sessionOf_releaseSessions (leaveService s .initialising) 4 8 n

theorem nmtReset_eq {s : State} (h : canUp s = true) (command : Nat) (b : Bool) :
    nmtReset s command b =
      (ledgerRecord (nodeRestarted s) 0x2008 (leBytes 1 command ++ leBytes 1 (if b then 0 else s.mgmt.nodeId))).1 := by
  have hup : canUp (nodeReleased s) = true := h
  have hboot : nmtBoot (nodeReleased s) = nodeRestarted s := nmtBoot_of_canUp hup
  rw [nmtReset_eq_boot, raise_of_emcyOf_none rfl, hboot]

/-- What a reset of the node by `command`, sent to all nodes where `b`, does from state `s` (R436). -/
def NodeReset (command : Nat) (b : Bool) (s t : State) : Prop :=
  (∀ n, sessionOf t n = if 4 ≤ n ∧ n < 12 then {} else sessionOf s n) ∧
  t.mgmt.nmt = (if settingB s 0x2001 8 then .operational else .preOperational) ∧
  t.mgmt.nodeId = settingN s 0x2001 2 ∧ t.mgmt.arbitrationRate = settingN s 0x2001 3 ∧
  t.mgmt.dataRate = settingN s 0x2001 4 ∧
  t.out = .can (0x700 + settingN s 0x2001 2) [0] :: s.out ∧
  LogsEvent 0x2008 (leBytes 1 command ++ leBytes 1 (if b then 0 else s.mgmt.nodeId)) s t

theorem nmtReset_resets_node {s : State} (h : canUp s = true) (command : Nat) (b : Bool) :
    NodeReset command b s (nmtReset s command b) := by
  rw [nmtReset_eq h]
  refine ⟨fun n => ?_, ?_, ?_, ?_, ?_, ?_, ?_⟩
  · unfold sessionOf
    rw [ledgerRecord_mgmt]
    exact sessionOf_nodeRestarted s n
  · rw [ledgerRecord_mgmt]; rfl
  · rw [ledgerRecord_mgmt]; rfl
  · rw [ledgerRecord_mgmt]; rfl
  · rw [ledgerRecord_mgmt]; rfl
  · rw [ledgerRecord_out]; rfl
  · exact logsEvent_ledgerRecord (s := s) (t := nodeRestarted s) rfl rfl rfl ..

theorem exec_nmtResetNode {s : State} (h : canUp s = true) (b : Bool) :
    exec (.nmtResetNode b) s = .next (nmtReset s 0x81 b) :=
  congrArg Host.Outcome.next (if_pos h)

theorem exec_nmtResetCommunication {s : State} (h : canUp s = true) (b : Bool) :
    exec (.nmtResetCommunication b) s = .next (nmtReset s 0x82 b) :=
  congrArg Host.Outcome.next (if_pos h)

/-- A command that is the node reset of `command` completes, as R436 says. -/
theorem completes_nmtReset {c : Instr} {command : Nat} {b : Bool}
    (hc : ∀ s, canUp s = true → exec c s = .next (nmtReset s command b)) :
    Completes c [.mgmt, .folio, .ledger, .stats, .out] (fun s => canUp s = true) (NodeReset command b) :=
  fun s h => ⟨_, hc s h, nmtReset_frame s command b, nmtReset_resets_node h command b⟩

/-! ### TPDOs (R435) -/

theorem tpdoSend_of_ready {s : State} {i : Nat} (h : tpdoReady s i = true) :
    tpdoSend s i = {
      emit s (.can ((settingEff s (objKey (0x1800 + i) 1)).toNat % 2048) ((mappedEntries s i).flatMap (tpdoBytes s))) with
      mgmt := { s.mgmt with tpdoSent := tabSet dNat s.mgmt.tpdoSent i (s.sys.time + 1) } } := by
  unfold tpdoSend
  rw [if_pos h]
  rfl

theorem tpdoSend_of_not_ready {s : State} {i : Nat} (h : ¬ tpdoReady s i = true) : tpdoSend s i = s := by
  unfold tpdoSend
  rw [if_neg h]

theorem tpdoSend_keeps (s : State) (i : Nat) : Frame [.mgmt, .out] s (tpdoSend s i) := by
  by_cases h : tpdoReady s i = true
  · rw [tpdoSend_of_ready h]
    refine Frame.upd_mgmt ?_ rfl
    exact Frame.step (emit_frame s _) (Frame.refl _ s) rfl
  · rw [tpdoSend_of_not_ready h]
    exact Frame.refl _ s

@[simp] theorem tpdoSend_syncCount (s : State) (i : Nat) : (tpdoSend s i).mgmt.syncCount = s.mgmt.syncCount := by
  by_cases h : tpdoReady s i = true
  · rw [tpdoSend_of_ready h]
  · rw [tpdoSend_of_not_ready h]

/-- The SYNC count of a TPDO of transmission type `every` after one more SYNC (R435). -/
def nextSyncCount (every n : Nat) : Nat :=
  if 0xF0 < every then n else if every ≤ n + 1 then 0 else n + 1

theorem tpdoSync_keeps (s : State) (i : Nat) : Frame [.mgmt, .out] s (tpdoSync s i) := by
  unfold tpdoSync
  refine Frame.ite (Frame.ite ?_ ?_) (Frame.refl _ s)
  · exact Frame.step (tpdoSend_keeps _ i) (Frame.upd_mgmt (Frame.refl _ s) rfl) rfl
  · exact Frame.upd_mgmt (Frame.refl _ s) rfl

/-- A SYNC for one TPDO moves that TPDO's count and no other. -/
theorem syncCount_tpdoSync (s : State) (k i : Nat) :
    tabGet dNat (tpdoSync s k).mgmt.syncCount i =
      if i = k then nextSyncCount (settingN s (0x1800 + k) 2) (tabGet dNat s.mgmt.syncCount k)
      else tabGet dNat s.mgmt.syncCount i := by
  unfold tpdoSync nextSyncCount
  dsimp only
  split
  case isTrue hsync =>
    rw [if_neg (Nat.not_lt.mpr hsync)]
    split
    case isTrue hdue => rw [tpdoSend_syncCount, tabGet_set]
    case isFalse hwait => rw [tabGet_set]
  case isFalse hother =>
    rw [if_pos (Nat.lt_of_not_le hother)]
    split
    case isTrue hk => rw [hk]
    case isFalse => rfl

theorem syncs_keep (s : State) (k : Nat) : Frame [.mgmt, .out] s ((List.range k).foldl tpdoSync s) :=
  Frame.foldl tpdoSync_keeps (Frame.refl _ s)

/-- A SYNC for the TPDOs below `k` moves each of their counts once. -/
theorem syncCount_syncs (s : State) (k i : Nat) :
    tabGet dNat ((List.range k).foldl tpdoSync s).mgmt.syncCount i =
      if i < k then nextSyncCount (settingN s (0x1800 + i) 2) (tabGet dNat s.mgmt.syncCount i)
      else tabGet dNat s.mgmt.syncCount i := by
  induction k with
  | zero => rfl
  | succ k ih =>
    have hset : ((List.range k).foldl tpdoSync s).settings = s.settings := syncs_keep s k .settings (by decide)
    have hevery : settingN ((List.range k).foldl tpdoSync s) (0x1800 + k) 2 = settingN s (0x1800 + k) 2 := by
      unfold settingN setting
      rw [hset]
    rw [List.range_succ, List.foldl_append, List.foldl_cons, List.foldl_nil, syncCount_tpdoSync, hevery]
    grind

/-! ### The EMCY queue (R438) -/

theorem emcyNext_of_empty {s : State} (h : s.mgmt.emcyQueue = []) : emcyNext s = s := by
  unfold emcyNext
  rw [h]
  exact ite_self s

theorem emcyNext_of_inhibited {s : State} (h : s.mgmt.emcyInhibited = true) : emcyNext s = s := by
  unfold emcyNext
  rw [if_neg (by simp [h])]

theorem emcyNext_of_queued {s : State} {frame : List Byte} {rest : List (List Byte)} (hup : canUp s = true)
    (hstate : emcyStates s = true) (hfree : s.mgmt.emcyInhibited = false) (hqueue : s.mgmt.emcyQueue = frame :: rest) :
    emcyNext s = { s with
      out := .can (emcyCobId s) frame :: s.out
      mgmt := { s.mgmt with emcyQueue := rest, emcyInhibited := decide (0 < settingN s 0x1015 0) } } := by
  unfold emcyNext
  rw [if_pos (by simp [hup, hstate, hfree]), hqueue]
  rfl

/-- Where the step after the first does nothing, the first is the whole drain. -/
theorem emcyDrain_eq_emcyNext {s : State} (h : emcyNext (emcyNext s) = emcyNext s) : emcyDrain s = emcyNext s := by
  unfold emcyDrain
  rw [List.range_succ_eq_map, List.foldl_cons]
  exact List.foldl_fixed' (fun _ => h) _

/-- The state at the end of the EMCY inhibit time, before a queued EMCY goes out. -/
def inhibitEnded (s : State) : State :=
  { s with mgmt := { s.mgmt with emcyInhibited := false } }

theorem inhibitEnded_frame (s : State) : Frame [.mgmt] s (inhibitEnded s) :=
  Frame.upd_mgmt (Frame.refl _ s) rfl

/-- The state with another error state of the CAN controller ([2001.07]). -/
def withCanError (s : State) (e : Nat) : State :=
  { s with mgmt := { s.mgmt with canError := e } }

theorem withCanError_frame (s : State) (e : Nat) : Frame [.mgmt] s (withCanError s e) :=
  Frame.upd_mgmt (Frame.refl _ s) rfl

/-- Sending EMCYs changes nothing of the management ports but the queue and its inhibit flag. -/
theorem emcyNext_mgmt (s : State) :
    ∃ queue inhibited, (emcyNext s).mgmt = { s.mgmt with emcyQueue := queue, emcyInhibited := inhibited } := by
  unfold emcyNext
  split
  · split <;> exact ⟨_, _, rfl⟩
  · exact ⟨_, _, rfl⟩

theorem emcyDrain_mgmt (s : State) :
    ∃ queue inhibited, (emcyDrain s).mgmt = { s.mgmt with emcyQueue := queue, emcyInhibited := inhibited } := by
  refine List.foldlRecOn (motive := fun x : State =>
    ∃ queue inhibited, x.mgmt = { s.mgmt with emcyQueue := queue, emcyInhibited := inhibited }) _ _ ⟨_, _, rfl⟩ ?_
  rintro x ⟨_, _, hx⟩ _ _
  obtain ⟨queue, inhibited, hnext⟩ := emcyNext_mgmt x
  exact ⟨queue, inhibited, by rw [hnext, hx]⟩

/-! ### The statement -/

/-- The commands of the NMT master that set the state of a node that can receive (R436, R438). -/
theorem completes_nmtStateCommands (b : Bool) :
    Completes (.nmtStart b) [.mgmt] (fun s => canUp s = true) (fun s t => t.mgmt = { s.mgmt with nmt := .operational }) ∧
    Completes (.nmtStop b) [.mgmt] (fun s => canUp s = true)
      (fun s t => t.mgmt = { s.mgmt with nmt := .stopped, emcyQueue := [] }) ∧
    Completes (.nmtEnterPreOperational b) [.mgmt] (fun s => canUp s = true)
      (fun s t => t.mgmt = { s.mgmt with nmt := .preOperational }) := by
  refine ⟨fun s h => ⟨_, congrArg Host.Outcome.next (if_pos h), ?_, rfl⟩,
    fun s h => ⟨_, congrArg Host.Outcome.next (if_pos h), ?_, rfl⟩,
    fun s h => ⟨_, congrArg Host.Outcome.next (if_pos h), ?_, rfl⟩⟩ <;>
  exact Frame.upd_mgmt (Frame.refl _ s) rfl

/-- A node that cannot receive does nothing on an NMT command (R436, R438). -/
theorem exec_nmtCommand_of_not_canUp {s : State} (h : canUp s = false) (b : Bool) :
    ∀ c ∈ [Instr.nmtStart b, .nmtStop b, .nmtEnterPreOperational b, .nmtResetNode b, .nmtResetCommunication b],
      exec c s = .next s := by
  have hdown : ¬ canUp s = true := by simp [h]
  intro c hc
  simp only [List.mem_cons, List.not_mem_nil, or_false] at hc
  rcases hc with rfl | rfl | rfl | rfl | rfl <;> exact congrArg Host.Outcome.next (if_neg hdown)

theorem completes_sync :
    Completes .sync [.mgmt, .out] (fun s => canUp s = true ∧ s.mgmt.nmt = .operational) (fun s t =>
      ∀ i, i < 8 → tabGet dNat t.mgmt.syncCount i =
        nextSyncCount (settingN s (0x1800 + i) 2) (tabGet dNat s.mgmt.syncCount i)) := by
  rintro s ⟨hup, hnmt⟩
  refine ⟨_, congrArg Host.Outcome.next (if_pos (by simp [hup, hnmt])), syncs_keep s 8, fun i hi => ?_⟩
  rw [syncCount_syncs, if_pos hi]

theorem completes_tpdoEventTimer (i : Fin 8) :
    Completes (.tpdoEventTimer i) [.mgmt, .out]
      (fun s => 0xFE ≤ settingN s (0x1800 + i.val) 2 ∧ settingN s (0x1800 + i.val) 5 ≠ 0 ∧ tpdoReady s i.val = true)
      (fun s t => t.out = .can ((settingEff s (objKey (0x1800 + i.val) 1)).toNat % 2048)
          ((mappedEntries s i.val).flatMap (tpdoBytes s)) :: s.out ∧
        t.mgmt = { s.mgmt with tpdoSent := tabSet dNat s.mgmt.tpdoSent i.val (s.sys.time + 1) }) := by
  rintro s ⟨htype, htimer, hready⟩
  refine ⟨_, congrArg Host.Outcome.next (if_neg (by omega)), tpdoSend_keeps s i.val, ?_⟩
  rw [tpdoSend_of_ready hready]
  exact ⟨rfl, rfl⟩

theorem completes_heartbeatProducer :
    Completes .heartbeatProducer [.out] (fun s => canUp s = true ∧ settingN s 0x1017 0 ≠ 0) (fun s t =>
      t.out = .can (0x700 + s.mgmt.nodeId) [BitVec.ofNat 8 (nmtNum s.mgmt.nmt)] :: s.out) := by
  rintro s ⟨hup, htime⟩
  exact ⟨_, congrArg Host.Outcome.next (if_pos (by simp [hup, htime])), Frame.upd_out (Frame.refl _ s) rfl, rfl⟩

/-- The end of the inhibit time sends the oldest queued EMCY, and where an inhibit time is set, that one alone. -/
theorem completes_emcyInhibitExpiry_queued (frame : List Byte) (rest : List (List Byte)) :
    Completes .emcyInhibitExpiry [.mgmt, .out]
      (fun s => canUp s = true ∧ emcyStates s = true ∧ s.mgmt.emcyQueue = frame :: rest ∧ 0 < settingN s 0x1015 0)
      (fun s t => t.out = .can (emcyCobId s) frame :: s.out ∧
        t.mgmt = { s.mgmt with emcyQueue := rest, emcyInhibited := true }) := by
  rintro s ⟨hup, hstate, hqueue, htime⟩
  have hnext : emcyNext (inhibitEnded s) = { s with
      out := .can (emcyCobId s) frame :: s.out
      mgmt := { s.mgmt with emcyQueue := rest, emcyInhibited := true } } := by
    rw [emcyNext_of_queued (s := inhibitEnded s) hup hstate rfl hqueue,
      show settingN (inhibitEnded s) 0x1015 0 = settingN s 0x1015 0 from rfl, decide_eq_true htime]
    rfl
  have hdrain : emcyDrain (inhibitEnded s) = emcyNext (inhibitEnded s) :=
    emcyDrain_eq_emcyNext (emcyNext_of_inhibited (by rw [hnext]))
  refine ⟨emcyDrain (inhibitEnded s), rfl, ?_, ?_⟩
  · exact Frame.step (emcyDrain_frame _) ((inhibitEnded_frame s).mono rfl) rfl
  · rw [hdrain, hnext]
    exact ⟨rfl, rfl⟩

theorem completes_emcyInhibitExpiry_empty :
    Completes .emcyInhibitExpiry [.mgmt] (fun s => s.mgmt.emcyQueue = [])
      (fun s t => t.mgmt = { s.mgmt with emcyInhibited := false }) := by
  intro s hqueue
  have hnext : emcyNext (inhibitEnded s) = inhibitEnded s := emcyNext_of_empty hqueue
  have hdrain : emcyDrain (inhibitEnded s) = inhibitEnded s := (emcyDrain_eq_emcyNext (by rw [hnext, hnext])).trans hnext
  exact ⟨inhibitEnded s, congrArg Host.Outcome.next hdrain, inhibitEnded_frame s, rfl⟩

theorem completes_canBusOff (tec rxErrors : Byte) :
    Completes (.canBusOff tec rxErrors) [.mgmt, .folio, .ledger, .stats] (fun s => canUp s = true)
      (fun s t => t.mgmt = { s.mgmt with canError := 2 } ∧ LogsEvent 0x2007 [tec, rxErrors] s t) := by
  intro s h
  have hraise : raise (withCanError s 2) 0x2007 [tec, rxErrors] =
      (ledgerRecord (withCanError s 2) 0x2007 [tec, rxErrors]).1 :=
    raise_of_emcyOf_none rfl _
  refine ⟨(ledgerRecord (withCanError s 2) 0x2007 [tec, rxErrors]).1, ?_, ?_, ledgerRecord_mgmt (withCanError s 2) _ _, ?_⟩
  · exact (if_pos h).trans (congrArg Host.Outcome.next hraise)
  · exact Frame.step (ledgerRecord_frame _ _ _) ((withCanError_frame s 2).mono rfl) rfl
  · exact logsEvent_ledgerRecord (s := s) (t := withCanError s 2) rfl rfl rfl ..

theorem completes_canBusOffRecovery :
    Completes .canBusOffRecovery [.mgmt, .out] (fun s => s.mgmt.canError = 2)
      (fun s t => t.mgmt.canError = 0 ∧ t.mgmt.sessions = s.mgmt.sessions ∧ t.mgmt.nmt = s.mgmt.nmt) := by
  intro s h
  obtain ⟨queue, inhibited, hmgmt⟩ := emcyDrain_mgmt (withCanError s 0)
  refine ⟨emcyDrain (withCanError s 0), congrArg Host.Outcome.next (if_pos h), ?_, ?_⟩
  · exact Frame.step (emcyDrain_frame _) ((withCanError_frame s 0).mono rfl) rfl
  · dsimp only
    rw [hmgmt]
    exact ⟨rfl, rfl, rfl⟩

theorem serves_errorHistoryClear (via : Via) :
    Serves (.errorHistoryClear via) via .operator [.mgmt] (fun _ _ => True)
      (fun _ s t => t.mgmt = { s.mgmt with errorHistory := [] }) := by
  intro s n s' hready _
  exact ⟨historyClear s', congrArg Host.Outcome.next (served_ready hready (by decide) rfl), historyClear_frame s', rfl⟩

/-- Settles O10, command by command: a node reset is one equation (`nmtReset_eq`), the SYNC counts are an induction over the
TPDOs (`syncCount_syncs`), and the drain of the EMCY queue stops at its first step (`emcyDrain_eq_emcyNext`). -/
theorem nmtAndCanServices : Obligations.NmtAndCanServices := by
  refine ⟨fun b => ?_, completes_sync, completes_tpdoEventTimer, completes_heartbeatProducer,
    completes_emcyInhibitExpiry_queued, completes_emcyInhibitExpiry_empty, completes_canBusOff,
    completes_canBusOffRecovery, serves_errorHistoryClear⟩
  obtain ⟨hstart, hstop, hpre⟩ := completes_nmtStateCommands b
  refine ⟨hstart, hstop, hpre, ?_, ?_⟩
  · simp only [List.forall_mem_cons, List.not_mem_nil, false_imp_iff, implies_true, and_true]
    exact ⟨completes_nmtReset fun s h => exec_nmtResetNode h b,
      completes_nmtReset fun s h => exec_nmtResetCommunication h b⟩
  · exact fun c hc s hdown => exec_nmtCommand_of_not_canUp hdown b c hc

end Sys2Proof.Machine
end

section
/-! Requests that fail a check of their own (R433, R450), the frames last put out (R245), and entry to Warn (R371). -/
namespace Sys2Proof.Machine

/-! ### Requests turned away at check 7 (R433, R450) -/

/-- A write that passes the common checks and fails its own is recorded and answered, and has no effect (R433, R450). -/
theorem served_error {s : State} {via : Via} {level : Level} {n : Nat} {s' : State} (h : Ready s via level n s')
    {idx sub : Nat} {data : List Byte} (hw : writeFits level idx sub data = true) {d : Nat}
    {eff : Nat → State → Except Nat State} (he : eff n s' = .error d) :
    served s via idx sub data eff = reject (refusalMark s' via n d idx sub) via n (plainTag via) d idx sub true := by
  obtain ⟨r, hr, hst⟩ := writeChecks_ready h hw
  unfold served serveTagged
  rw [if_pos h.isOpen, h.session]
  simp only [hr, hst, he, Bool.false_eq_true, if_false]

/-! ### Reading a frame -/

theorem Frame.sys_eq {U : List UnitName} {s t : State} (h : Frame U s t) (hu : .sys ∉ U) : t.sys = s.sys := h .sys hu

theorem Frame.folio_eq {U : List UnitName} {s t : State} (h : Frame U s t) (hu : .folio ∉ U) : t.folio = s.folio := h .folio hu

theorem Frame.ledger_eq {U : List UnitName} {s t : State} (h : Frame U s t) (hu : .ledger ∉ U) : t.ledger = s.ledger := h .ledger hu

theorem Frame.power_eq {U : List UnitName} {s t : State} (h : Frame U s t) (hu : .power ∉ U) : t.power = s.power := h .power hu

theorem Frame.reserve_eq {U : List UnitName} {s t : State} (h : Frame U s t) (hu : .reserve ∉ U) : t.reserve = s.reserve := h .reserve hu

theorem Frame.groups_eq {U : List UnitName} {s t : State} (h : Frame U s t) (hu : .groups ∉ U) : t.groups = s.groups := h .groups hu

theorem Frame.groupOf {U : List UnitName} {s t : State} (h : Frame U s t) (hu : .groups ∉ U) (g : Nat) :
    groupOf t g = groupOf s g := by
  unfold Machine.groupOf
  rw [h.groups_eq hu]

/-! ### The frames last put out (R245) -/

theorem FramesOnly.refl (s : State) : FramesOnly s s := fun _ => rfl

theorem FramesOnly.trans {s t r : State} (h : FramesOnly s t) (k : FramesOnly t r) : FramesOnly s r :=
  fun g => (k g).trans (h g)

/-- What leaves the groups alone changes no frame either. -/
theorem Frame.framesOnly {U : List UnitName} {s t : State} (h : Frame U s t) (hu : .groups ∉ U) : FramesOnly s t :=
  fun g => by rw [h.groupOf hu g]

theorem FramesOnly.foldl {α : Type} {f : State → α → State} (hf : ∀ s a, FramesOnly s (f s a)) (l : List α) (s : State) :
    FramesOnly s (l.foldl f s) :=
  List.foldlRecOn (motive := FramesOnly s) l f (.refl s) fun _ hx a _ => hx.trans (hf _ a)

theorem sendFrame_framesOnly (s : State) (ch bits : Nat) : FramesOnly s (sendFrame s ch bits) := by
  intro g
  unfold sendFrame
  rw [groupOf_modGroup]
  by_cases hg : g = ch / 8
  · rw [if_pos hg, hg]
    rfl
  · rw [if_neg hg]
    rfl

/-! ### Power-down and wake of a group (R257) -/

/-- The part of one column in powering a group down or up (R257). -/
def columnPower (g : Nat) (down : Bool) (s : State) (c : Nat) : State :=
  if columnLost s g c ∨ (channelOf s (8 * g + c)).parked then s
  else
    modChannel (sendFrame s (8 * g + c) ((if down then 9 else 10) * 2 ^ 44 + onesCount 4 (if down then 9 else 10) % 2))
      (8 * g + c) (fun x =>
        { x with powerDown := down,
                 state := if down ∧ x.state = 2 then 5 else if !down ∧ x.state = 5 then 2 else x.state })

theorem stacksDown_eq_foldl (s : State) (g : Nat) (down : Bool) :
    stacksDown s g down = (List.range 8).foldl (columnPower g down) s := rfl

theorem columnPower_framesOnly (g : Nat) (down : Bool) (s : State) (c : Nat) :
    FramesOnly s (columnPower g down s c) := by
  unfold columnPower
  split
  · exact .refl s
  · exact (sendFrame_framesOnly s _ _).trans ((modChannel_frame _ _ _).framesOnly (by decide))

theorem stacksDown_framesOnly (s : State) (g : Nat) (down : Bool) : FramesOnly s (stacksDown s g down) := by
  rw [stacksDown_eq_foldl]
  exact .foldl (columnPower_framesOnly g down) _ s

theorem wakeGroup_framesOnly (s : State) (g : Nat) : FramesOnly s (wakeGroup s g) := by
  unfold wakeGroup
  split
  · exact (stacksDown_framesOnly (setSleep s g 3) g false).trans ((bump_frame _ _ _ _).framesOnly (by decide))
  · exact .refl s

theorem wakeGroups_framesOnly (s : State) : FramesOnly s (wakeGroups s) :=
  .foldl wakeGroup_framesOnly _ s

/-! ### The records of an event and of a button (R359, R414, R417) -/

theorem tallyPending_tallyAdd (s : State) (i j : Nat) :
    tabGet dNat (tallyAdd s i).folio.tallyPending j =
      if j = i then min (tabGet dNat s.folio.tallyPending i + 1) 65535 else tabGet dNat s.folio.tallyPending j :=
  tabGet_mod (d := dNat) s.folio.tallyPending i j fun n => min (n + 1) 65535

theorem ledgerAssign_tallyPending {j : Nat} (hj : j ≠ 151) (s : State) (code : Nat) (data : List Byte) (summary : Bool) :
    tabGet dNat (ledgerAssign s code data summary).1.folio.tallyPending j = tabGet dNat s.folio.tallyPending j := by
  unfold ledgerAssign
  split
  · rw [tallyPending_tallyAdd, if_neg hj]
  · rfl

/-- An event counts in no tally but that of the full Ledger (R414, R419). -/
theorem ledgerRecord_tallyPending {j : Nat} (hj : j ≠ 151) (s : State) (code : Nat) (data : List Byte) :
    tabGet dNat (ledgerRecord s code data).1.folio.tallyPending j = tabGet dNat s.folio.tallyPending j := by
  have hsuppress (tracked : Bool) : (suppress s code tracked).folio = s.folio :=
    suppress_frame s code tracked .folio (by decide)
  unfold ledgerRecord
  split
  · exact ledgerAssign_tallyPending hj ..
  · split
    · split
      · exact ledgerAssign_tallyPending hj ..
      · rw [hsuppress]
    · split
      · exact ledgerAssign_tallyPending hj ..
      · rw [hsuppress]

theorem raise_keeps_record (s : State) (code : Nat) (data : List Byte) :
    Frame [.mgmt, .out] (ledgerRecord s code data).1 (raise s code data) := by
  unfold raise
  dsimp only
  split
  · exact emcyRaise_frame _ _ _ _
  · exact Frame.refl _ _

theorem raise_tallyPending {j : Nat} (hj : j ≠ 151) (s : State) (code : Nat) (data : List Byte) :
    tabGet dNat (raise s code data).folio.tallyPending j = tabGet dNat s.folio.tallyPending j := by
  rw [show (raise s code data).folio = _ from raise_keeps_record s code data .folio (by decide)]
  exact ledgerRecord_tallyPending hj s code data

/-- An event raised in a state with the Ledger, the device state and time, and the settings of `s` is one event of `s`. -/
theorem logsEvent_raise {s t : State} (hl : t.ledger = s.ledger) (hs : t.sys = s.sys) (hset : t.settings = s.settings)
    (code : Nat) (data : List Byte) : LogsEvent code data s (raise t code data) :=
  (show (raise t code data).ledger = _ from raise_keeps_record t code data .ledger (by decide)).trans
    (logsEvent_ledgerRecord hl hs hset code data)

/-! ### Entry to Warn (R371) -/

/-- The states that Warn is entered from (R371). -/
def mayWarn (s : State) : Prop := inService s = true ∨ s.sys.dev = .priming

/-- The first part of an entry to Warn: the margin withdrawn, PFW_N low, the shares frozen, the cause noted (R371). -/
def warnBegun (s : State) (cause : Nat) : State :=
  { withdrawMargin s with
    power := { (withdrawMargin s).power with pfwLow := true }
    reserve := { (withdrawMargin s).reserve with frozen := true }
    sys := { (withdrawMargin s).sys with
      warnCause := cause, warnFrom := s.sys.dev, warnAt := (withdrawMargin s).sys.time, quiescing := false, varnishItem := 0,
      fencedInWarn := false, closedDone := false, varnishTiles := 0, varnishTime := 0, varnishOutcome := 0 } }

/-- The last part of an entry to Warn: its tally and its event (R371, R414, R453). -/
def warnRecorded (s : State) (cause : Nat) (data : List Byte) : State :=
  raise (if cause = 4 then tallyAdd s 165 else if cause = 5 then tallyAdd s 188 else s) 0x2F01 data

/-- What an entry to Warn records: the cause, the state it comes from, VRES and the budget (R453). -/
def warnData (s : State) (cause : Nat) : List Byte :=
  leBytes 1 cause ++ leBytes 1 (devNum s.sys.dev) ++ satBytes 2 (warnBegun s cause).reserve.vres
    ++ satBytes 4 (warnBegun s cause).reserve.budget

theorem enterWarn_eq {s : State} (h : mayWarn s) (cause : Nat) :
    enterWarn s cause =
      warnRecorded (enterState (wakeGroups (barrowAtWarn (warnBegun s cause))) .warn) cause (warnData s cause) := by
  have hdev : s.sys.dev = .priming ∨ s.sys.dev = .active ∨ s.sys.dev = .recovery ∨ s.sys.dev = .test := by
    unfold mayWarn inService at h
    cases hd : s.sys.dev <;> simp_all
  unfold enterWarn warnData warnRecorded warnBegun
  rcases hdev with hd | hd | hd | hd <;> simp only [hd]

@[simp] theorem withdrawMargin_sys (s : State) : (withdrawMargin s).sys = s.sys :=
  (withdrawMargin_frame s).sys_eq (by decide)

@[simp] theorem withdrawMargin_reserve (s : State) : (withdrawMargin s).reserve = s.reserve :=
  (withdrawMargin_frame s).reserve_eq (by decide)

@[simp] theorem withdrawMargin_power (s : State) :
    (withdrawMargin s).power = { s.power with marginState := 0 } := by
  unfold withdrawMargin
  split
  case isTrue h => rw [← h]
  case isFalse => rfl

theorem warnBegun_framesOnly (s : State) (cause : Nat) : FramesOnly s (warnBegun s cause) :=
  (withdrawMargin_frame s).framesOnly (by decide)

theorem warnRecorded_frame (s : State) (cause : Nat) (data : List Byte) :
    Frame [.mgmt, .folio, .ledger, .stats, .out] s (warnRecorded s cause data) := by
  unfold warnRecorded
  refine Frame.step (raise_frame _ _ _) ?_ rfl
  exact Frame.ite ((tallyAdd_frame s 165).mono rfl) (Frame.ite ((tallyAdd_frame s 188).mono rfl) (Frame.refl _ s))

theorem warned_frame (s : State) :
    Frame [.mgmt, .folio, .ledger, .thermal, .channels, .groups, .barrow, .stats, .out] s (wakeGroups (barrowAtWarn s)) :=
  Frame.step (wakeGroups_frame _) ((barrowAtWarn_frame s).mono rfl) rfl

theorem enterWarn_sys {s : State} (h : mayWarn s) (cause : Nat) :
    (enterWarn s cause).sys = { s.sys with
      dev := .warn, since := s.sys.time, warnCause := cause, warnFrom := s.sys.dev, warnAt := s.sys.time, quiescing := false,
      varnishItem := 0, fencedInWarn := false, closedDone := false, varnishTiles := 0, varnishTime := 0,
      varnishOutcome := 0 } := by
  have hwarned := (warned_frame (warnBegun s cause)).sys_eq (by decide)
  rw [enterWarn_eq h, (warnRecorded_frame _ _ _).sys_eq (by decide)]
  unfold enterState
  dsimp only
  rw [hwarned]
  simp only [warnBegun, withdrawMargin_sys]

/-- Entry to Warn holds PFW_N low and takes the margin off (R358, R371). -/
theorem enterWarn_power {s : State} (h : mayWarn s) (cause : Nat) :
    (enterWarn s cause).power = { s.power with marginState := 0, pfwLow := true } := by
  have hwarned := (warned_frame (warnBegun s cause)).power_eq (by decide)
  rw [enterWarn_eq h, (warnRecorded_frame _ _ _).power_eq (by decide), enterState_power, hwarned]
  simp only [warnBegun, withdrawMargin_power]

/-- Entry to Warn freezes the shares (R371). -/
theorem enterWarn_reserve {s : State} (h : mayWarn s) (cause : Nat) :
    (enterWarn s cause).reserve = { s.reserve with frozen := true } := by
  have hwarned := (warned_frame (warnBegun s cause)).reserve_eq (by decide)
  rw [enterWarn_eq h, (warnRecorded_frame _ _ _).reserve_eq (by decide), enterState_reserve, hwarned]
  simp only [warnBegun, withdrawMargin_reserve]

/-- Entry to Warn sends sleeping groups a frame and leaves the groups as they are (R20, R371). -/
theorem enterWarn_framesOnly {s : State} (h : mayWarn s) (cause : Nat) : FramesOnly s (enterWarn s cause) := by
  rw [enterWarn_eq h]
  refine (warnBegun_framesOnly s cause).trans ?_
  refine ((barrowAtWarn_frame _).framesOnly (by decide)).trans ?_
  refine (wakeGroups_framesOnly _).trans ?_
  exact ((enterState_frame _ _).framesOnly (by decide)).trans ((warnRecorded_frame _ _ _).framesOnly (by decide))

end Sys2Proof.Machine
end

section
/-! Requests to start and to restart, and the two push inputs (O17). -/
namespace Sys2Proof.Machine

theorem serves_startRequest (via : Via) :
    Serves (.startRequest via) via .operator [.power] (fun _ _ => True)
      (fun _ s t => t.power = { s.power with lockout := false, failedStarts := 0 }) := by
  intro s n s' hready _
  exact ⟨releaseLockout s', congrArg Host.Outcome.next (served_ready hready (by decide +kernel) rfl),
    Frame.upd_power (Frame.refl _ s') rfl, rfl⟩

theorem serves_restartRequest (via : Via) :
    Serves (.restartRequest via) via .maintainer
      [.sys, .mgmt, .folio, .ledger, .power, .reserve, .thermal, .channels, .groups, .barrow, .stats, .out]
      (fun _ s => inService s = true)
      (fun _ s t => t.sys.dev = .warn ∧ t.sys.warnCause = 5 ∧ t.sys.warnFrom = s.sys.dev ∧ t.sys.warnAt = s.sys.time ∧
        t.power.pfwLow = true ∧ t.reserve.frozen = true ∧ FramesOnly s t) := by
  intro s n s' hready hserve
  have heffect : restartRequest s' = .ok (enterWarn s' 5) := if_pos hserve
  refine ⟨enterWarn s' 5, congrArg Host.Outcome.next (served_ready hready (by decide +kernel) heffect), enterWarn_frame s' 5, ?_⟩
  dsimp only
  rw [enterWarn_sys (.inl hserve), enterWarn_power (.inl hserve), enterWarn_reserve (.inl hserve)]
  exact ⟨rfl, rfl, rfl, rfl, rfl, rfl, enterWarn_framesOnly (.inl hserve) 5⟩

theorem rejects_restartRequest (via : Via) :
    Rejects (.restartRequest via) via .maintainer 0x2F04 0x2F00 4 (fun _ s => inService s = false) := by
  intro s n s' hready hidle
  have heffect : restartRequest s' = .error 0x2F04 := if_neg (by simp [hidle])
  exact congrArg Host.Outcome.next (served_error hready (by decide +kernel) heffect)

/-! ### The self-test on request (R370, R380) -/

theorem countProgram_sys {s : State} (h : s.sys.dev ≠ .varnish) (g : Nat) : (countProgram s g).sys = s.sys := by
  unfold countProgram
  rw [if_neg h]
  dsimp only
  split <;> rfl

/-- One patch of a tile that a path test leaves (R370). -/
def pathTestPatch (g addr : Nat) (s : State) (c : Nat) : State :=
  let s := bump (storePatch s (8 * g + c) addr (Config.freePatch s.path.frees)) 0x2916 (8 * g + c + 1) 1
  { s with path := { s.path with frees := s.path.frees + 1 } }

theorem pathTestTile_eq (g p : Nat) (s : State) (slot : Nat) :
    pathTestTile g p s slot = filterMark (countProgram
      (((List.range 8).filter (fun c => !(erasedColumns s g (some (p, slot))).contains c)).foldl
        (pathTestPatch g (regionBase s g p + slot)) s) g) g p slot := rfl

theorem pathTestPatches_sys (g addr : Nat) (cols : List Nat) (s : State) :
    (cols.foldl (pathTestPatch g addr) s).sys = s.sys :=
  List.foldlRecOn (motive := fun x : State => x.sys = s.sys) cols _ rfl fun _ hx _ _ => hx

/-- Outside Varnish a tile of a path test changes nothing of the device state (R370, R376). -/
theorem pathTestTile_sys {s : State} (h : s.sys.dev ≠ .varnish) (g p slot : Nat) :
    (pathTestTile g p s slot).sys = s.sys := by
  rw [pathTestTile_eq, (filterMark_frame _ _ _ _).sys_eq (by decide), countProgram_sys, pathTestPatches_sys]
  rw [pathTestPatches_sys]
  exact h

/-- Outside Varnish the path tests of all the groups change nothing of the device state (R370). -/
theorem pathTests_sys {s : State} (h : s.sys.dev ≠ .varnish) (groups : List Nat) (p : State → Nat → Nat) :
    (groups.foldl (fun s g => (List.range 64).foldl (pathTestTile g (p s g)) s) s).sys = s.sys := by
  refine List.foldlRecOn (motive := fun x : State => x.sys = s.sys) groups _ rfl fun x hx g _ => ?_
  refine List.foldlRecOn (motive := fun y : State => y.sys = s.sys) (List.range 64) _ hx fun y hy slot _ => ?_
  exact (pathTestTile_sys (by rw [hy]; exact h) ..).trans hy

theorem pathTests_frame (s : State) (groups : List Nat) (p : State → Nat → Nat) :
    Frame [.sys, .folio, .groups, .path, .stats] s
      (groups.foldl (fun s g => (List.range 64).foldl (pathTestTile g (p s g)) s) s) :=
  Frame.foldl (fun x g => Frame.foldl (fun y slot => pathTestTile_frame g (p x g) y slot) (Frame.refl _ x)) (Frame.refl _ s)

/-- The state after the path tests of all groups, before the result word is set (R370). -/
def pathsTested (s : State) : State :=
  ((List.range 8).filter (pathTested s)).foldl (fun s g =>
    (List.range 64).foldl (pathTestTile g ((groupOf s g).free.getLastD 0)) s) s

theorem bnat_bitOf (v i : Nat) : bnat (bitOf v i) = v / 2 ^ i % 2 := by
  unfold bnat bitOf
  rcases Nat.mod_two_eq_zero_or_one (v / 2 ^ i) with h | h <;> simp [h]

/-- The result word of a self-test that takes every group (R370). -/
def fullTestWord (results : Nat) : Nat :=
  results % 128 + (List.range 8).foldl (fun n g => n + 2 ^ (8 + g) * bnat (bitOf results (8 + g))) 0

/-- The word of a self-test of every group holds the bits 0 to 6 and 8 to 15 of the results. -/
theorem fullTestWord_eq (results : BitVec 16) :
    fullTestWord results.toNat = results.toNat % 128 + results.toNat / 256 * 256 := by
  have hlt := results.isLt
  unfold fullTestWord
  congr 1
  simp only [bnat_bitOf, List.range_succ, List.range_zero, List.nil_append, List.foldl_append, List.foldl_cons, List.foldl_nil]
  omega

/-- A self-test on request that takes every group: the path tests, the result word, and the event of a failure (R370, R380). -/
theorem selfTest_eq {s : State} (h : ∀ g, g < 8 → pathTested s g = true) (results : Nat) :
    selfTest s results false =
      if fullTestWord results = 0 then
        { pathsTested s with sys := { (pathsTested s).sys with selfTest := fullTestWord results } }
      else
        raise { pathsTested s with sys := { (pathsTested s).sys with selfTest := fullTestWord results } } 0x2F08
          (leBytes 2 (fullTestWord results)) := by
  have hall : (List.range 8).filter (pathTested s) = List.range 8 :=
    List.filter_eq_self.mpr fun g hg => h g (List.mem_range.mp hg)
  unfold selfTest pathsTested fullTestWord
  simp only [hall, Bool.false_eq_true, if_false]

theorem selfTest_sys {s : State} (hdev : s.sys.dev ≠ .varnish) (h : ∀ g, g < 8 → pathTested s g = true) (results : Nat) :
    (selfTest s results false).sys = { s.sys with selfTest := fullTestWord results } := by
  have htested : (pathsTested s).sys = s.sys := pathTests_sys hdev _ _
  rw [selfTest_eq h]
  split
  · dsimp only
    rw [htested]
  · rw [(raise_frame _ _ _).sys_eq (by decide)]
    dsimp only
    rw [htested]

theorem selfTest_frame_unfenced {s : State} (h : ∀ g, g < 8 → pathTested s g = true) (results : Nat) :
    Frame [.sys, .mgmt, .folio, .ledger, .groups, .path, .stats, .out] s (selfTest s results false) := by
  have htested := (pathTests_frame s ((List.range 8).filter (pathTested s)) fun s g => (groupOf s g).free.getLastD 0).mono
    (V := [.sys, .mgmt, .folio, .ledger, .groups, .path, .stats, .out]) rfl
  rw [selfTest_eq h]
  split
  · exact Frame.upd_sys htested rfl
  · exact Frame.step (raise_frame _ _ _) (Frame.upd_sys htested rfl) rfl

theorem serves_selfTestRequest (via : Via) (results : BitVec 16) :
    Serves (.selfTestRequest via results) via .maintainer
      [.sys, .mgmt, .folio, .ledger, .groups, .easel, .directory, .queues, .barrow, .perf, .path, .stats, .out]
      (fun _ s => s.sys.dev = .test ∧ ∀ g, g < 8 → pathTested s g = true)
      (fun _ s t => t.sys = { s.sys with selfTest := results.toNat % 128 + results.toNat / 256 * 256 }) := by
  rintro s n s' hready ⟨htest, hgroups⟩
  have heffect : selfTestRequest s' results.toNat = .ok (selfTest s' results.toNat false) := if_pos htest
  refine ⟨selfTest s' results.toNat false, congrArg Host.Outcome.next (served_ready hready (by decide +kernel) heffect),
    (selfTest_frame_unfenced hgroups _).mono rfl, ?_⟩
  dsimp only
  rw [selfTest_sys (by simp [htest]) hgroups, fullTestWord_eq]

theorem rejects_selfTestRequest (via : Via) (results : BitVec 16) :
    Rejects (.selfTestRequest via results) via .maintainer 0x2F03 0x2F00 5 (fun _ s => s.sys.dev ≠ .test) := by
  intro s n s' hready htest
  have heffect : selfTestRequest s' results.toNat = .error 0x2F03 := if_neg htest
  exact congrArg Host.Outcome.next (served_error hready (by decide +kernel) heffect)

/-! ### The push inputs (R359) -/

theorem buttonEvent_sys (s : State) (input action : Nat) : (buttonEvent s input action).sys = s.sys :=
  (buttonEvent_frame s input action).sys_eq (by decide)

theorem buttonEvent_tally (s : State) (input action : Nat) :
    tabGet dNat (buttonEvent s input action).folio.tallyPending 187 =
      min (tabGet dNat s.folio.tallyPending 187 + 1) 65535 := by
  unfold buttonEvent
  rw [raise_tallyPending (by decide), tallyPending_tallyAdd, if_pos rfl]

theorem buttonEvent_logs (s : State) (input action : Nat) :
    LogsEvent 0x2E0B (leBytes 1 input ++ leBytes 1 (devNum s.sys.dev) ++ leBytes 1 action) s (buttonEvent s input action) :=
  logsEvent_raise (s := s) (t := tallyAdd s 187) rfl rfl rfl ..

theorem inService_buttonEvent (s : State) (input action : Nat) : inService (buttonEvent s input action) = inService s := by
  unfold inService
  rw [buttonEvent_sys]

/-- What a press does in Standby: it is recorded and releases the start lockout (R344, R359). -/
theorem releaseLockout_buttonEvent {s : State} (hdev : s.sys.dev = .standby) (input : Nat) :
    let t := releaseLockout (buttonEvent s input 1)
    Frame [.mgmt, .folio, .ledger, .power, .stats, .out] s t ∧
      t.power = { s.power with lockout := false, failedStarts := 0 } ∧
      LogsEvent 0x2E0B (leBytes 1 input ++ leBytes 1 0 ++ leBytes 1 1) s t ∧
      tabGet dNat t.folio.tallyPending 187 = min (tabGet dNat s.folio.tallyPending 187 + 1) 65535 := by
  have hlogs := buttonEvent_logs s input 1
  rw [hdev] at hlogs
  refine ⟨Frame.upd_power ((buttonEvent_frame s input 1).mono rfl) rfl, ?_, hlogs, buttonEvent_tally s input 1⟩
  unfold releaseLockout
  dsimp only
  rw [(buttonEvent_frame s input 1).power_eq (by decide)]

/-- What a press does in service: it is recorded and the device enters Warn (R359, R371). -/
theorem enterWarn_buttonEvent {s : State} (h : inService s = true) (input : Nat) :
    let t := enterWarn (buttonEvent s input 2) 5
    Frame [.sys, .mgmt, .folio, .ledger, .power, .reserve, .thermal, .channels, .groups, .barrow, .stats, .out] s t ∧
      t.sys.dev = .warn ∧ t.sys.warnCause = 5 ∧ t.sys.warnFrom = s.sys.dev ∧ FramesOnly s t := by
  have hwarn : mayWarn (buttonEvent s input 2) := .inl ((inService_buttonEvent s input 2).trans h)
  have hevent := (buttonEvent_frame s input 2).framesOnly (by decide)
  refine ⟨Frame.step (enterWarn_frame _ 5) ((buttonEvent_frame s input 2).mono rfl) rfl, ?_⟩
  rw [enterWarn_sys hwarn, buttonEvent_sys]
  exact ⟨rfl, rfl, rfl, hevent.trans (enterWarn_framesOnly hwarn 5)⟩

theorem execPbtnAction_standby {s : State} (hdev : s.sys.dev = .standby) (hbit : bitOf (settingN s 0x2E00 0x0B) 0 = true) :
    execPbtnAction s = .next (releaseLockout (buttonEvent s 0 1)) := by
  unfold execPbtnAction
  simp only [hdev, hbit, if_true]

theorem execMrAction_standby {s : State} (hdev : s.sys.dev = .standby) (hbit : bitOf (settingN s 0x2E00 0x0B) 2 = true) :
    execMrAction s = .next (releaseLockout (buttonEvent s 1 1)) := by
  unfold execMrAction
  simp only [hdev, hbit, if_true]

theorem dev_of_inService {s : State} (h : inService s = true) :
    s.sys.dev = .active ∨ s.sys.dev = .recovery ∨ s.sys.dev = .test := by
  unfold inService at h
  cases hd : s.sys.dev <;> simp_all

theorem dev_of_inShutdown {s : State} (h : inShutdown s = true) :
    s.sys.dev = .warn ∨ s.sys.dev = .varnish ∨ s.sys.dev = .varnished := by
  unfold inShutdown at h
  cases hd : s.sys.dev <;> simp_all

theorem execPbtnAction_inService {s : State} (h : inService s = true) (hbit : bitOf (settingN s 0x2E00 0x0B) 1 = true) :
    execPbtnAction s = .next (enterWarn (buttonEvent s 0 2) 5) := by
  unfold execPbtnAction
  rcases dev_of_inService h with hd | hd | hd <;> simp only [hd, hbit, if_true]

theorem execMrAction_inService {s : State} (h : inService s = true) (hbit : bitOf (settingN s 0x2E00 0x0B) 2 = true) :
    execMrAction s = .next (enterWarn (buttonEvent s 1 2) 5) := by
  unfold execMrAction
  rcases dev_of_inService h with hd | hd | hd <;> simp only [hd, hbit, if_true]

theorem execPbtnAction_inShutdown {s : State} (h : inShutdown s = true) : execPbtnAction s = .next s := by
  unfold execPbtnAction
  rcases dev_of_inShutdown h with hd | hd | hd <;> simp only [hd]

theorem execMrAction_inShutdown {s : State} (h : inShutdown s = true) : execMrAction s = .next s := by
  unfold execMrAction
  rcases dev_of_inShutdown h with hd | hd | hd <;> simp only [hd, ite_self]

theorem execPbtnAction_disabled {s : State} (h : ∀ n, bitOf (settingN s 0x2E00 0x0B) n = false) :
    execPbtnAction s = .next s := by
  unfold execPbtnAction
  simp only [h, Bool.false_eq_true, if_false]
  split <;> rfl

theorem execMrAction_disabled {s : State} (h : ∀ n, bitOf (settingN s 0x2E00 0x0B) n = false) :
    execMrAction s = .next s :=
  if_neg (by simp [h])

theorem completes_pressInStandby {c : Instr} {bit input : Nat}
    (hc : ∀ s, s.sys.dev = .standby → bitOf (settingN s 0x2E00 0x0B) bit = true →
      exec c s = .next (releaseLockout (buttonEvent s input 1))) :
    Completes c [.mgmt, .folio, .ledger, .power, .stats, .out]
      (fun s => s.sys.dev = .standby ∧ bitOf (settingN s 0x2E00 0x0B) bit = true)
      (fun s t => t.power = { s.power with lockout := false, failedStarts := 0 } ∧
        LogsEvent 0x2E0B (leBytes 1 input ++ leBytes 1 0 ++ leBytes 1 1) s t ∧
        tabGet dNat t.folio.tallyPending 187 = min (tabGet dNat s.folio.tallyPending 187 + 1) 65535) :=
  fun s ⟨hdev, hbit⟩ => ⟨_, hc s hdev hbit, releaseLockout_buttonEvent hdev input⟩

theorem completes_pressInService {c : Instr} {bit input : Nat}
    (hc : ∀ s, inService s = true → bitOf (settingN s 0x2E00 0x0B) bit = true →
      exec c s = .next (enterWarn (buttonEvent s input 2) 5)) :
    Completes c [.sys, .mgmt, .folio, .ledger, .power, .reserve, .thermal, .channels, .groups, .barrow, .stats, .out]
      (fun s => inService s = true ∧ bitOf (settingN s 0x2E00 0x0B) bit = true)
      (fun s t => t.sys.dev = .warn ∧ t.sys.warnCause = 5 ∧ t.sys.warnFrom = s.sys.dev ∧ FramesOnly s t) :=
  fun s ⟨hserve, hbit⟩ => ⟨_, hc s hserve hbit, enterWarn_buttonEvent hserve input⟩

theorem completes_mrInPriming :
    Completes .mrAction [.sys, .mgmt, .folio, .ledger, .stats, .out]
      (fun s => s.sys.dev = .priming ∧ bitOf (settingN s 0x2E00 0x0B) 2 = true)
      (fun s t => t.sys = { s.sys with restartLatched := true } ∧
        LogsEvent 0x2E0B (leBytes 1 1 ++ leBytes 1 1 ++ leBytes 1 3) s t) := by
  rintro s ⟨hdev, hbit⟩
  have hexec : execMrAction s =
      .next { buttonEvent s 1 3 with sys := { s.sys with restartLatched := true } } := by
    unfold execMrAction
    simp only [hdev, hbit, if_true]
  have hlogs := buttonEvent_logs s 1 3
  rw [hdev] at hlogs
  exact ⟨_, hexec, Frame.upd_sys ((buttonEvent_frame s 1 3).mono rfl) rfl, rfl, hlogs⟩

/-- Settles O17: a request is one use of `served_ready` or `served_error`, and a press is `releaseLockout` or `enterWarn` after
its record (`releaseLockout_buttonEvent`, `enterWarn_buttonEvent`). -/
theorem startAndRestartRequests : Obligations.StartAndRestartRequests := by
  refine ⟨fun via => ⟨serves_startRequest via, serves_restartRequest via, rejects_restartRequest via,
    fun results => ⟨serves_selfTestRequest via results, rejects_selfTestRequest via results⟩⟩, ?_, ?_, completes_mrInPriming⟩
  · simp only [List.forall_mem_cons, List.not_mem_nil, false_imp_iff, implies_true, and_true]
    exact ⟨⟨completes_pressInStandby fun _ => execPbtnAction_standby, fun _ => execPbtnAction_inShutdown,
        fun _ => execPbtnAction_disabled⟩,
      completes_pressInStandby fun _ => execMrAction_standby, fun _ => execMrAction_inShutdown, fun _ => execMrAction_disabled⟩
  · simp only [List.forall_mem_cons, List.not_mem_nil, false_imp_iff, implies_true, and_true]
    exact ⟨completes_pressInService fun _ => execPbtnAction_inService, completes_pressInService fun _ => execMrAction_inService⟩

end Sys2Proof.Machine
end

section
/-! The shutdown sequence (O19): a withdrawal of the warning publishes the budget, and where the device share has become smaller
than its charge, that selects lines of the Palette for writeback (R129, R372), a unit the statement does not name. -/
namespace Sys2Proof.Machine

/-- A device in Warn whose warning may be withdrawn, in write-through (the budget at zero), with one dirty line of the Palette
still charged to the device share. -/
def withdrawalInWriteThrough : State :=
  { sys := { dev := .warn, warnCause := 1, warnFrom := .active, memoryActive := true },
    power := { vinGood := true, pfwLow := true },
    reserve := { deviceCharge := 1, frozen := true },
    palette := { ways := [(0, { valid := true, dirty := true, charged := true })] } }

theorem withdrawalInWriteThrough_mayWithdraw : mayWithdraw withdrawalInWriteThrough = true := by decide +kernel

/-- The lines that the Palette has selected for writeback after a command (R142). -/
def selectedAfter (c : Instr) (s : State) : Option (List Nat) :=
  match exec c s with
  | .next t => some t.palette.selected
  | _ => none

/-- The withdrawal selects the charged line. -/
theorem rideThrough_selects_palette :
    selectedAfter .rideThroughQualified withdrawalInWriteThrough = some [0] := by decide +kernel

/-- Refutes O19 in its fourth clause: at the withdrawal of a warning the budget is published, and a charge of the device share
above the share selects lines of the Palette for writeback (R129), so the Palette does not hold the same. -/
theorem not_shutdownSequence : ¬ Obligations.ShutdownSequence := by
  rintro ⟨-, -, -, hwithdraw, -⟩
  obtain ⟨t, hexec, hframe, -⟩ := hwithdraw withdrawalInWriteThrough withdrawalInWriteThrough_mayWithdraw
  have hkept : t.palette = withdrawalInWriteThrough.palette := hframe .palette (by decide)
  have hselected := rideThrough_selects_palette
  unfold selectedAfter at hselected
  rw [hexec] at hselected
  simp [hkept, withdrawalInWriteThrough] at hselected

end Sys2Proof.Machine
end

section
/-! Light and deep sleep of a group, and the temperatures of its stacks (O24). -/
namespace Sys2Proof.Machine

/-! ### Units by index -/

/-- A pass over the units `base` to `base + n - 1`, each step of which changes its own unit and keeps what the change depends on. -/
theorem foldl_range_get {α β : Type} {get : α → Nat → β} {f : α → Nat → α} {F : Nat → β → β} {Inv : α → Prop} {base : Nat}
    (hinv : ∀ x i, Inv x → Inv (f x i))
    (hget : ∀ x i, Inv x → ∀ j, get (f x i) j = if j = base + i then F j (get x j) else get x j)
    {s : α} (hs : Inv s) (n j : Nat) :
    get ((List.range n).foldl f s) j = if base ≤ j ∧ j < base + n then F j (get s j) else get s j := by
  have hkept (n : Nat) : Inv ((List.range n).foldl f s) :=
    List.foldlRecOn (motive := Inv) _ f hs fun x hx i _ => hinv x i hx
  induction n with
  | zero => rw [if_neg (by omega)]; rfl
  | succ n ih =>
    rw [List.range_succ, List.foldl_append, List.foldl_cons, List.foldl_nil, hget _ _ (hkept n), ih]
    grind

theorem Frame.thermal_eq {U : List UnitName} {s t : State} (h : Frame U s t) (hu : .thermal ∉ U) : t.thermal = s.thermal :=
  h .thermal hu

theorem Frame.channels_eq {U : List UnitName} {s t : State} (h : Frame U s t) (hu : .channels ∉ U) : t.channels = s.channels :=
  h .channels hu

theorem Frame.stats_eq {U : List UnitName} {s t : State} (h : Frame U s t) (hu : .stats ∉ U) : t.stats = s.stats :=
  h .stats hu

theorem Frame.out_eq {U : List UnitName} {s t : State} (h : Frame U s t) (hu : .out ∉ U) : t.out = s.out := h .out hu

theorem Frame.channelOf {U : List UnitName} {s t : State} (h : Frame U s t) (hu : .channels ∉ U) (ch : Nat) :
    channelOf t ch = channelOf s ch := by
  unfold Machine.channelOf
  rw [h.channels_eq hu]

theorem Frame.sleepOf {U : List UnitName} {s t : State} (h : Frame U s t) (hu : .thermal ∉ U) (g : Nat) :
    sleepOf t g = sleepOf s g := by
  unfold Machine.sleepOf
  rw [h.thermal_eq hu]

theorem Frame.stat {U : List UnitName} {s t : State} (h : Frame U s t) (hu : .stats ∉ U) (idx sub : Nat) :
    stat t idx sub = stat s idx sub := by
  unfold Machine.stat
  rw [h.stats_eq hu]

/-! ### Sleep levels (R18 to R20, R387, R388) -/

theorem sleepOf_setSleep (s : State) (g n h : Nat) : sleepOf (setSleep s g n) h = if h = g then n else sleepOf s h :=
  tabGet_set _ g h n

theorem sleepOf_wakeGroup (s : State) (g h : Nat) :
    sleepOf (wakeGroup s g) h = if h = g ∧ sleepOf s h = 2 then 3 else sleepOf s h := by
  unfold wakeGroup
  split
  case isTrue hdeep =>
    dsimp only
    rw [(bump_frame _ _ _ _).sleepOf (by decide), (stacksDown_frame _ _ _).sleepOf (by decide), sleepOf_setSleep]
    grind
  case isFalse hawake => grind

/-- One group at a write of [3000.05] (R388). -/
def enableGroup (v : Nat) (s : State) (g : Nat) : State := if bitOf v g then s else wakeGroup s g

theorem deepSleepEnable_eq_foldl (s : State) (v : Nat) :
    deepSleepEnable s v = (List.range 8).foldl (enableGroup v) (setSetting s 0x3000 5 v) := rfl

theorem sleepOf_enableGroup (v : Nat) (s : State) (g h : Nat) :
    sleepOf (enableGroup v s g) h = if h = g then (if sleepOf s h = 2 ∧ bitOf v h = false then 3 else sleepOf s h) else sleepOf s h := by
  unfold enableGroup
  split
  case isTrue hset => grind
  case isFalse hclear =>
    rw [sleepOf_wakeGroup]
    grind

theorem sleepOf_deepSleepEnable (s : State) (v : Nat) {g : Nat} (hg : g < 8) :
    sleepOf (deepSleepEnable s v) g = if sleepOf s g = 2 ∧ bitOf v g = false then 3 else sleepOf s g := by
  rw [deepSleepEnable_eq_foldl, foldl_range_get (get := sleepOf) (Inv := fun _ => True) (base := 0)
    (F := fun h n => if n = 2 ∧ bitOf v h = false then 3 else n) (fun _ _ h => h)
    (fun x i _ j => by rw [sleepOf_enableGroup, Nat.zero_add]) trivial, if_pos (by omega),
    (setSetting_frame _ _ _ _).sleepOf (by decide)]

theorem deepSleepEnable_framesOnly (s : State) (v : Nat) : FramesOnly s (deepSleepEnable s v) := by
  rw [deepSleepEnable_eq_foldl]
  refine ((setSetting_frame s 0x3000 5 v).framesOnly (by decide)).trans (.foldl (fun x g => ?_) _ _)
  unfold enableGroup
  split
  · exact .refl x
  · exact wakeGroup_framesOnly x g

/-- Waking groups leaves the settings alone. -/
theorem deepSleepEnable_settings (s : State) (v : Nat) :
    (deepSleepEnable s v).settings = (setSetting s 0x3000 5 v).settings := by
  rw [deepSleepEnable_eq_foldl]
  refine List.foldlRecOn (motive := fun x : State => x.settings = (setSetting s 0x3000 5 v).settings) _ _ rfl fun x hx g _ => ?_
  unfold enableGroup
  split
  · exact hx
  · exact (wakeGroup_frame x g .settings (by decide)).trans hx

/-! ### PDE and PDX (R257) -/

/-- A column whose stack hears PDE and PDX: neither erased nor parked (R257). -/
def columnHears (s : State) (g c : Nat) : Prop :=
  columnLost s g c = false ∧ (channelOf s (8 * g + c)).parked = false

/-- The channel record of a stack that has heard PDE or PDX (R257). -/
def poweredRec (down : Bool) (x : ChannelRec) : ChannelRec :=
  { x with powerDown := down,
           state := if down ∧ x.state = 2 then 5 else if !down ∧ x.state = 5 then 2 else x.state }

/-- The frame of PDE or PDX (R257). -/
def powerFrame (down : Bool) : Nat := if down then 0x900000000000 else 0xA00000000000

theorem columnPower_of_hears {s : State} {g c : Nat} (h : columnHears s g c) (down : Bool) :
    columnPower g down s c = modChannel (sendFrame s (8 * g + c) (powerFrame down)) (8 * g + c) (poweredRec down) := by
  obtain ⟨hlost, hparked⟩ := h
  unfold columnPower
  rw [if_neg (by simp [hlost, hparked])]
  cases down <;> rfl

theorem columnPower_of_not_hears {s : State} {g c : Nat} (h : ¬ columnHears s g c) (down : Bool) :
    columnPower g down s c = s := by
  unfold columnPower columnHears at *
  refine if_pos ?_
  cases hl : columnLost s g c <;> simp_all

/-- Whether a column hears depends on its own channel and on the supply of its domain. -/
theorem columnHears_congr {s t : State} {g c : Nat} (hpower : t.power = s.power)
    (hchannel : channelOf t (8 * g + c) = channelOf s (8 * g + c)) : columnHears t g c ↔ columnHears s g c := by
  unfold columnHears columnLost domainOf
  rw [hpower, hchannel]

theorem columnPower_frame (g : Nat) (down : Bool) (s : State) (c : Nat) :
    Frame [.channels, .groups, .out] s (columnPower g down s c) := by
  by_cases h : columnHears s g c
  · rw [columnPower_of_hears h]
    exact Frame.step (modChannel_frame _ _ _) ((sendFrame_frame s _ _).mono rfl) rfl
  · rw [columnPower_of_not_hears h]
    exact Frame.refl _ s

theorem columnPower_other {s : State} {g c ch : Nat} (h : ch ≠ 8 * g + c) (down : Bool) :
    channelOf (columnPower g down s c) ch = channelOf s ch := by
  by_cases hh : columnHears s g c
  · rw [columnPower_of_hears hh, channelOf_modChannel, if_neg h, (sendFrame_frame _ _ _).channelOf (by decide)]
  · rw [columnPower_of_not_hears hh]

theorem out_columnPower (g : Nat) (down : Bool) (s : State) (c : Nat) {o : Output} (h : o ∈ s.out) :
    o ∈ (columnPower g down s c).out := by
  by_cases hh : columnHears s g c
  · rw [columnPower_of_hears hh]
    exact List.mem_cons_of_mem _ h
  · rw [columnPower_of_not_hears hh]
    exact h

/-- What stands of a column once its frame is out: its stack is powered down or up, and the frame is in the output. -/
def columnSwitched (down : Bool) (g c : Nat) (t : State) : Prop :=
  (channelOf t (8 * g + c)).powerDown = down ∧ Output.caFrame (8 * g + c) (powerFrame down) ∈ t.out

theorem columnSwitched_columnPower {s : State} {g c : Nat} (h : columnHears s g c) (down : Bool) :
    columnSwitched down g c (columnPower g down s c) := by
  rw [columnPower_of_hears h]
  refine ⟨by rw [channelOf_modChannel_self]; rfl, List.mem_cons_self ..⟩

theorem columnSwitched_columnPower_other {s : State} {down : Bool} {g c d : Nat} (hne : c ≠ d)
    (h : columnSwitched down g c s) : columnSwitched down g c (columnPower g down s d) := by
  obtain ⟨hpower, hout⟩ := h
  exact ⟨by rw [columnPower_other (by omega)]; exact hpower, out_columnPower g down s d hout⟩

/-- Columns below `n` are switched after their part, and the others still hear as before. -/
theorem columnsSwitched (s : State) (g : Nat) (down : Bool) (n : Nat) {c : Nat} (h : columnHears s g c) :
    if c < n then columnSwitched down g c ((List.range n).foldl (columnPower g down) s)
    else columnHears ((List.range n).foldl (columnPower g down) s) g c := by
  induction n with
  | zero => exact h
  | succ n ih =>
    rw [List.range_succ, List.foldl_append, List.foldl_cons, List.foldl_nil]
    rcases Nat.lt_trichotomy c n with hlt | rfl | hgt
    · rw [if_pos hlt] at ih
      rw [if_pos (by omega)]
      exact columnSwitched_columnPower_other (by omega) ih
    · rw [if_neg (by omega)] at ih
      rw [if_pos (by omega)]
      exact columnSwitched_columnPower ih down
    · rw [if_neg (by omega)] at ih
      rw [if_neg (by omega)]
      exact (columnHears_congr ((columnPower_frame g down _ n).power_eq (by decide)) (columnPower_other (by omega) down)).mpr ih

/-- Powering a group down or up reaches each of its columns that hears (R257). -/
theorem stacksDown_switches {s : State} {g c : Nat} (hc : c < 8) (h : columnHears s g c) (down : Bool) :
    columnSwitched down g c (stacksDown s g down) := by
  have hswitched := columnsSwitched s g down 8 h
  rw [if_pos hc] at hswitched
  exact hswitched

/-! ### The temperatures of the stacks (R250, R398) -/

/-- The value of an answer to an MRR of register 0x03: 0x80 and no answer are none (R250). -/
def answerValue (answer : Option Byte) : Option Int :=
  match answer with
  | some b => if b = 0x80 then none else some (toSigned 1 b.toNat)
  | none => none

/-- A channel's record after its part of a temperature window (R250). -/
def measuredRec (value : Option Int) (x : ChannelRec) : ChannelRec :=
  match value with
  | some t =>
    { x with temp := some t, noTemp := 0, zqTemp := match x.zqTemp with
        | some z => if 10 ≤ (t - z).natAbs then some t else some z
        | none => some t }
  | none => { x with noTemp := x.noTemp + 1, temp := if 2 ≤ x.noTemp + 1 then none else x.temp }

/-- One channel's part of a temperature window, by the value of its answer (R250). -/
theorem channelTemperature_eq {s : State} {ch : Nat} (h : channelServes s ch = true) (answer : Option Byte) :
    channelTemperature s ch answer = match answerValue answer with
      | some t =>
        let s := modChannel s ch (fun x => { x with temp := some t, noTemp := 0 })
        match (channelOf s ch).zqTemp with
        | some z => if 10 ≤ (t - z).natAbs then modChannel s ch (fun x => { x with zqTemp := some t }) else s
        | none => modChannel s ch (fun x => { x with zqTemp := some t })
      | none =>
        let n := (channelOf s ch).noTemp + 1
        let s := modChannel s ch (fun x => { x with noTemp := n, temp := if 2 ≤ n then none else x.temp })
        if n = 2 then raise s 0x2909 (leBytes 1 ch) else s := by
  unfold channelTemperature
  exact if_neg (by simp [h])

theorem channelOf_channelTemperature (s : State) (ch : Nat) (answer : Option Byte) (c : Nat) :
    channelOf (channelTemperature s ch answer) c =
      if c = ch then (if channelServes s c then measuredRec (answerValue answer) (channelOf s c) else channelOf s c)
      else channelOf s c := by
  cases hserves : channelServes s ch
  case false =>
    unfold channelTemperature
    grind
  case true =>
    rw [channelTemperature_eq hserves]
    by_cases hc : c = ch
    case pos =>
      subst hc
      rw [if_pos rfl, if_pos hserves]
      cases answerValue answer with
      | some t =>
        dsimp only [measuredRec]
        rw [channelOf_modChannel_self]
        dsimp only
        cases hz : (channelOf s c).zqTemp with
        | some z => dsimp only; split <;> simp only [channelOf_modChannel_self, hz]
        | none => simp only [channelOf_modChannel_self]
      | none =>
        dsimp only [measuredRec]
        split
        · rw [(raise_frame _ _ _).channelOf (by decide), channelOf_modChannel_self]
        · rw [channelOf_modChannel_self]
    case neg =>
      rw [if_neg hc]
      cases answerValue answer with
      | some t =>
        dsimp only
        split
        · split <;> simp only [channelOf_modChannel, hc, if_false]
        · simp only [channelOf_modChannel, hc, if_false]
      | none =>
        dsimp only
        split
        · rw [(raise_frame _ _ _).channelOf (by decide), channelOf_modChannel, if_neg hc]
        · rw [channelOf_modChannel, if_neg hc]

/-- Whether a channel of this record is in service and awake (R250). -/
def recServes (x : ChannelRec) : Bool := x.state == 2 && !x.parked && !x.powerDown && !x.failed

theorem channelServes_eq (s : State) (ch : Nat) : channelServes s ch = recServes (channelOf s ch) := rfl

/-- The channels after the measurements of a temperature window (R250). -/
theorem channelOf_temperatures (answers : List (Option Byte)) (s : State) (ch : Nat) :
    channelOf ((List.range 64).foldl (fun s ch => channelTemperature s ch (answers.getD ch none)) s) ch =
      if ch < 64 ∧ channelServes s ch = true then measuredRec (answerValue (answers.getD ch none)) (channelOf s ch)
      else channelOf s ch := by
  rw [foldl_range_get (get := channelOf) (Inv := fun _ => True) (base := 0)
    (F := fun c x => if recServes x then measuredRec (answerValue (answers.getD c none)) x else x) (fun _ _ h => h)
    (fun x i _ j => by
      rw [channelOf_channelTemperature, Nat.zero_add]
      by_cases h : j = i
      · rw [if_pos h, if_pos h, h, channelServes_eq]
      · rw [if_neg h, if_neg h]) trivial, channelServes_eq]
  grind

/-- Two states whose channels differ at most in their alert marks (R398). -/
def AlertsOnly (s t : State) : Prop :=
  ∀ ch, { channelOf t ch with alert := false } = { channelOf s ch with alert := false }

theorem AlertsOnly.trans {s t r : State} (h : AlertsOnly s t) (k : AlertsOnly t r) : AlertsOnly s r :=
  fun ch => (k ch).trans (h ch)

theorem Frame.alertsOnly {U : List UnitName} {s t : State} (h : Frame U s t) (hu : .channels ∉ U) : AlertsOnly s t :=
  fun ch => by rw [h.channelOf hu ch]

theorem AlertsOnly.foldl {α : Type} {f : State → α → State} (hf : ∀ s a, AlertsOnly s (f s a)) (l : List α) (s : State) :
    AlertsOnly s (l.foldl f s) :=
  List.foldlRecOn (motive := AlertsOnly s) l f (fun _ => rfl) fun _ hx a _ => hx.trans (hf _ a)

theorem modChannel_alert_alertsOnly (s : State) (c : Nat) (b : Bool) :
    AlertsOnly s (modChannel s c (fun x => { x with alert := b })) := by
  intro ch
  rw [channelOf_modChannel]
  split
  case isTrue h => rw [h]
  case isFalse => rfl

/-- The stack level of a group moves alert marks and the group's own mark, and nothing else (R398). -/
theorem stackLevel_keeps (s : State) (g : Nat) :
    AlertsOnly s (stackLevel s g) ∧
      (stackLevel s g).thermal = { s.thermal with stackHot := (stackLevel s g).thermal.stackHot } := by
  have hclear : AlertsOnly s ((List.range 8).foldl (fun s c => modChannel s (8 * g + c) (fun x => { x with alert := false })) s) :=
    .foldl (fun x c => modChannel_alert_alertsOnly x _ false) _ s
  have hthermal : ((List.range 8).foldl (fun s c => modChannel s (8 * g + c) (fun x => { x with alert := false })) s).thermal
      = s.thermal :=
    List.foldlRecOn (motive := fun x : State => x.thermal = s.thermal) _ _ rfl fun _ hx _ _ => hx
  have hmark {x : State} (hx : AlertsOnly s x) (ht : x.thermal = s.thermal) (hot : Tab Bool) :
      AlertsOnly s { x with thermal := { x.thermal with stackHot := hot } } ∧
        ({ x.thermal with stackHot := hot } : Thermal) = { s.thermal with stackHot := hot } :=
    ⟨fun ch => hx ch, by rw [ht]⟩
  unfold stackLevel
  dsimp only
  split
  · exact ⟨fun _ => rfl, rfl⟩
  · split
    · exact hmark (fun _ => rfl) rfl _
    · split
      · exact hmark hclear hthermal _
      · exact ⟨fun _ => rfl, rfl⟩

/-- A group's notes of its temperatures and its stack level move no channel's temperatures (R221, R398). -/
theorem noted_alertsOnly (s : State) (g : Nat) :
    AlertsOnly s (stackLevel (if s.sys.memoryActive then noteTemps s g else s) g) := by
  split
  · exact ((noteTemps_frame s g).alertsOnly (by decide)).trans (stackLevel_keeps _ g).1
  · exact (stackLevel_keeps s g).1

theorem toSigned_toNat (b : Byte) : toSigned 1 b.toNat = b.toInt := by
  rw [BitVec.toInt_eq_toNat_cond]
  rfl

/-- What a window makes of a channel's temperatures (R250). -/
theorem completes_temperatureWindow (answers : List (Option Byte)) :
    Completes (.temperatureWindow answers) [.mgmt, .folio, .ledger, .thermal, .channels, .groups, .stats, .out]
      (fun _ => True)
      (fun s t => ∀ ch, ch < 64 →
        let x := channelOf s ch
        let y := channelOf t ch
        (channelServes s ch = false → y.temp = x.temp ∧ y.noTemp = x.noTemp ∧ y.zqTemp = x.zqTemp) ∧
        (∀ b : Byte, channelServes s ch = true → answers.getD ch none = some b → b ≠ 0x80 →
          y.temp = some b.toInt ∧ y.noTemp = 0 ∧
          y.zqTemp = match x.zqTemp with
            | some z => if 10 ≤ (b.toInt - z).natAbs then some b.toInt else some z
            | none => some b.toInt) ∧
        (channelServes s ch = true → (answers.getD ch none = none ∨ answers.getD ch none = some 0x80) →
          y.noTemp = x.noTemp + 1 ∧ y.temp = (if 1 ≤ x.noTemp then none else x.temp) ∧ y.zqTemp = x.zqTemp)) := by
  intro s _
  obtain ⟨t, ht, hframe⟩ := execTemperatureWindow_frame answers s
  refine ⟨t, ht, hframe, fun ch hch => ?_⟩
  have halert : AlertsOnly ((List.range 64).foldl (fun s ch => channelTemperature s ch (answers.getD ch none)) s) t := by
    injection ht with ht
    rw [← ht]
    exact .foldl noted_alertsOnly _ _
  have hrec := halert ch
  rw [channelOf_temperatures] at hrec
  have htemp := congrArg ChannelRec.temp hrec
  have hno := congrArg ChannelRec.noTemp hrec
  have hzq := congrArg ChannelRec.zqTemp hrec
  dsimp only at htemp hno hzq ⊢
  rw [htemp, hno, hzq]
  refine ⟨fun hserves => ?_, fun b hserves hanswer hb => ?_, fun hserves hanswer => ?_⟩
  · rw [if_neg (by simp [hserves])]
    exact ⟨rfl, rfl, rfl⟩
  · have hvalue : answerValue (answers.getD ch none) = some b.toInt := by
      rw [hanswer, answerValue, if_neg hb, toSigned_toNat]
    rw [if_pos ⟨hch, hserves⟩, hvalue]
    exact ⟨rfl, rfl, rfl⟩
  · have hvalue : answerValue (answers.getD ch none) = none := by
      rcases hanswer with h | h <;> rw [h] <;> rfl
    rw [if_pos ⟨hch, hserves⟩, hvalue]
    refine ⟨rfl, ?_, rfl⟩
    dsimp only [measuredRec]
    exact if_congr (by omega) rfl rfl

/-- The channels after a ZQ calibration of every channel in service (R250). -/
theorem channelOf_zqPass (s : State) (ch : Nat) :
    channelOf ((List.range 64).foldl (fun s ch =>
        if channelServes s ch then modChannel s ch (fun x => { x with zqTemp := x.temp }) else s) s) ch =
      if ch < 64 ∧ channelServes s ch = true then { channelOf s ch with zqTemp := (channelOf s ch).temp }
      else channelOf s ch := by
  rw [foldl_range_get (get := channelOf) (Inv := fun _ => True) (base := 0)
    (F := fun _ x => if recServes x then { x with zqTemp := x.temp } else x) (fun _ _ h => h)
    (fun x i _ j => by
      rw [channelServes_eq, Nat.zero_add]
      split
      case isTrue hserves =>
        rw [channelOf_modChannel]
        by_cases h : j = i
        · rw [if_pos h, if_pos h, h, if_pos hserves]
        · rw [if_neg h, if_neg h]
      case isFalse hserves => grind) trivial, channelServes_eq]
  grind

theorem completes_zqInterval :
    Completes .zqInterval [.channels] (fun _ => True) (fun s t => ∀ ch, channelOf t ch =
      if ch < 64 ∧ channelServes s ch = true then { channelOf s ch with zqTemp := (channelOf s ch).temp }
      else channelOf s ch) := by
  intro s _
  obtain ⟨t, ht, hframe⟩ := execZqInterval_frame s
  refine ⟨t, ht, hframe, ?_⟩
  injection ht with ht
  rw [← ht]
  exact channelOf_zqPass s

/-! ### The alert threshold and the sleep enable (R258, R388) -/

theorem objKey_inj {i j idx sub : Nat} (hj : j < 256) (hsub : sub < 256) (h : objKey i j = objKey idx sub) :
    i = idx ∧ j = sub := by
  unfold objKey at h
  omega

/-- A write of one setting keeps every other one (R424). -/
theorem settingsKept_of_setSetting {s t : State} {idx sub : Nat} {v : Int} (hsub : sub < 256)
    (h : t.settings = (setSetting s idx sub v).settings) : SettingsKept idx sub s t := by
  intro i j hj hne
  unfold setting
  rw [h]
  exact (setting_setSetting s idx sub i j v).trans (if_neg fun hkey => hne (objKey_inj hj hsub hkey))

theorem setting_of_setSetting {s t : State} {idx sub : Nat} {v : Int} (h : t.settings = (setSetting s idx sub v).settings) :
    setting t idx sub = v := by
  unfold setting
  rw [h]
  exact setting_setSetting_self s idx sub v

theorem alertThreshold_settings (s : State) (v : Int) :
    (alertThreshold s v).settings = (setSetting s 0x2900 7 v).settings := by
  refine List.foldlRecOn (motive := fun x : State => x.settings = (setSetting s 0x2900 7 v).settings) _ _ rfl fun x hx c _ => ?_
  split
  · exact hx
  · exact hx

/-- The channels after a write of [2900.07]: register 0x04 of every channel in service follows (R258). -/
theorem channelOf_alertThreshold (s : State) (v : Int) (ch : Nat) :
    channelOf (alertThreshold s v) ch =
      if ch < 64 ∧ (channelOf s ch).state = 2 then
        { channelOf s ch with regs := tabSet dMode (channelOf s ch).regs 4 (toUnsigned 1 v % 65536) }
      else channelOf s ch := by
  unfold alertThreshold
  rw [foldl_range_get (get := channelOf) (Inv := fun _ => True) (base := 0)
    (F := fun _ x => if x.state = 2 then { x with regs := tabSet dMode x.regs 4 (toUnsigned 1 v % 65536) } else x)
    (fun _ _ h => h)
    (fun x i _ j => by
      rw [Nat.zero_add]
      split
      case isTrue hstate =>
        unfold setModeReg
        rw [channelOf_modChannel]
        by_cases h : j = i
        · rw [if_pos h, if_pos h, h, if_pos hstate]
        · rw [if_neg h, if_neg h]
      case isFalse hstate => grind) trivial, (setSetting_frame _ _ _ _).channelOf (by decide)]
  grind

theorem toUnsigned_toInt (b : Byte) : toUnsigned 1 b.toInt % 65536 = b.toNat := by
  have hlt := b.isLt
  unfold toUnsigned
  rw [BitVec.toInt_eq_toNat_cond]
  split <;> omega

theorem writeFits_alertThreshold :
    ∀ b : Byte, 60 ≤ b.toInt → b.toInt ≤ 120 → writeFits .maintainer 0x2900 7 [b] = true := by decide +kernel

theorem writeFits_deepSleepEnable : ∀ b : Byte, writeFits .operator 0x3000 5 [b] = true := by decide +kernel

theorem serves_thermalAlertThresholdWrite (via : Via) (value : Byte) (hlow : 60 ≤ value.toInt) (hhigh : value.toInt ≤ 120) :
    Serves (.thermalAlertThresholdWrite via value) via .maintainer [.settings, .channels] (fun _ _ => True) (fun _ s t =>
      setting t 0x2900 7 = value.toInt ∧ SettingsKept 0x2900 7 s t ∧
      ∀ ch r, modeReg t ch r = if ch < 64 ∧ (channelOf s ch).state = 2 ∧ r = 4 then value.toNat else modeReg s ch r) := by
  intro s n s' hready _
  have hsettings := alertThreshold_settings s' value.toInt
  have hserved := served_ready hready (writeFits_alertThreshold value hlow hhigh)
    (eff := fun _ s => .ok (alertThreshold s (toSigned 1 value.toNat))) rfl
  rw [toSigned_toNat] at hserved
  refine ⟨_, congrArg Host.Outcome.next hserved, (alertThreshold_frame s' _).mono rfl, setting_of_setSetting hsettings,
    settingsKept_of_setSetting (by decide) hsettings, fun ch r => ?_⟩
  unfold modeReg
  rw [channelOf_alertThreshold, toUnsigned_toInt]
  by_cases hch : ch < 64 ∧ (channelOf s' ch).state = 2
  · rw [if_pos hch, tabGet_set]
    grind
  · rw [if_neg hch, if_neg fun h => hch ⟨h.1, h.2.1⟩]

theorem serves_deepSleepEnableWrite (via : Via) (value : Byte) :
    Serves (.deepSleepEnableWrite via value) via .operator
      [.thermal, .channels, .groups, .settings, .stats, .out] (fun _ _ => True) (fun _ s t =>
        settingN t 0x3000 5 = value.toNat ∧ SettingsKept 0x3000 5 s t ∧ FramesOnly s t ∧
        ∀ g, g < 8 → sleepOf t g = if sleepOf s g = 2 ∧ bitOf value.toNat g = false then 3 else sleepOf s g) := by
  intro s n s' hready _
  have hsettings := deepSleepEnable_settings s' value.toNat
  refine ⟨deepSleepEnable s' value.toNat,
    congrArg Host.Outcome.next (served_ready hready (writeFits_deepSleepEnable value) rfl), deepSleepEnable_frame s' _, ?_,
    settingsKept_of_setSetting (by decide) hsettings, deepSleepEnable_framesOnly s' _, fun g hg => sleepOf_deepSleepEnable s' _ hg⟩
  unfold settingN
  rw [setting_of_setSetting hsettings]
  rfl

/-! ### Entry to sleep and wake (R18 to R20, R257, R387) -/

theorem completes_lightSleepEntry (group : Group) :
    Completes (.lightSleepEntry group) [.thermal] (fun s => sleepOf s group.val = 0 ∧ 128 ≤ (groupOf s group.val).arb.quiet)
      (fun s t => sleepOf t group.val = 1 ∧ ∀ h, h ≠ group.val → sleepOf t h = sleepOf s h) := by
  intro s hquiet
  refine ⟨setSleep s group.val 1, if_pos hquiet, setSleep_frame s _ _, ?_, fun h hh => ?_⟩
  · rw [sleepOf_setSleep, if_pos rfl]
  · rw [sleepOf_setSleep, if_neg hh]

theorem completes_deepSleepExitDone (group : Group) :
    Completes (.deepSleepExitDone group) [.thermal] (fun s => sleepOf s group.val = 3)
      (fun s t => sleepOf t group.val = 0 ∧ ∀ h, h ≠ group.val → sleepOf t h = sleepOf s h) := by
  intro s hleaving
  refine ⟨setSleep s group.val 0, if_pos hleaving, setSleep_frame s _ _, ?_, fun h hh => ?_⟩
  · rw [sleepOf_setSleep, if_pos rfl]
  · rw [sleepOf_setSleep, if_neg hh]

/-- The note of an entry to deep sleep (R387). -/
def sleepNoted (s : State) (g : Nat) : State :=
  { s with thermal := { s.thermal with
      sleptAt := tabSet dNat s.thermal.sleptAt g s.sys.time, maintenance := tabSet dBool s.thermal.maintenance g false } }

theorem sleepNoted_frame (s : State) (g : Nat) : Frame [.thermal] s (sleepNoted s g) :=
  Frame.upd_thermal (Frame.refl _ s) rfl

theorem sleepOf_sleepNoted (s : State) (g h : Nat) : sleepOf (sleepNoted s g) h = sleepOf s h := rfl

/-- The group asleep, its PDE sent and its entry noted, before it is counted (R257). -/
def sleepEntered (s : State) (g : Nat) : State := sleepNoted (stacksDown (setSleep s g 2) g true) g

theorem execDeepSleepEntry_of_maySleep {s : State} {group : Group} (h : maySleep s group.val = true) :
    execDeepSleepEntry group s = .next (bump (sleepEntered s group.val) 0x3002 (group.val + 1) 1) := by
  unfold execDeepSleepEntry
  dsimp only
  rw [if_pos h]
  rfl

theorem sleepOf_sleepEntered (s : State) (g h : Nat) : sleepOf (sleepEntered s g) h = if h = g then 2 else sleepOf s h := by
  unfold sleepEntered
  rw [sleepOf_sleepNoted, (stacksDown_frame _ _ _).sleepOf (by decide), sleepOf_setSleep]

theorem sleepEntered_framesOnly (s : State) (g : Nat) : FramesOnly s (sleepEntered s g) := by
  unfold sleepEntered
  refine ((setSleep_frame s g 2).framesOnly (by decide)).trans ((stacksDown_framesOnly _ g true).trans ?_)
  exact (sleepNoted_frame _ g).framesOnly (by decide)

theorem stat_sleepEntered (s : State) (g idx sub : Nat) : stat (sleepEntered s g) idx sub = stat s idx sub := by
  unfold sleepEntered
  rw [(sleepNoted_frame _ _).stat (by decide), (stacksDown_frame _ _ _).stat (by decide),
    (setSleep_frame _ _ _).stat (by decide)]

/-- A column that is switched stays so in a state with the same channels and output. -/
theorem columnSwitched_congr {s t : State} {down : Bool} {g c : Nat} (hchannels : t.channels = s.channels)
    (hout : t.out = s.out) (h : columnSwitched down g c s) : columnSwitched down g c t := by
  unfold columnSwitched channelOf at *
  rwa [hchannels, hout]

theorem columnHears_setSleep {s : State} {g c : Nat} (n : Nat) (h : columnHears s g c) : columnHears (setSleep s g n) g c :=
  (columnHears_congr (s := s) rfl rfl).mpr h

theorem statBits_sleepEntries (group : Group) : statBits 0x3002 (group.val + 1) = 32 := by
  revert group; decide +kernel

theorem statBits_timeAsleep (group : Group) : statBits 0x3003 (group.val + 1) = 64 := by
  revert group; decide +kernel

theorem completes_deepSleepEntry (group : Group) :
    Completes (.deepSleepEntry group) [.thermal, .channels, .groups, .stats, .out] (fun s => maySleep s group.val = true)
      (fun s t => sleepOf t group.val = 2 ∧ (∀ h, h ≠ group.val → sleepOf t h = sleepOf s h) ∧ FramesOnly s t ∧
        stat t 0x3002 (group.val + 1) = (stat s 0x3002 (group.val + 1) + 1) % 2 ^ 32 ∧
        ∀ c, c < 8 → columnLost s group.val c = false → (channelOf s (8 * group.val + c)).parked = false →
          (channelOf t (8 * group.val + c)).powerDown = true ∧
            Output.caFrame (8 * group.val + c) 0x900000000000 ∈ t.out) := by
  intro s hmay
  have hexec := execDeepSleepEntry_of_maySleep hmay
  have hbump := bump_frame (sleepEntered s group.val) 0x3002 (group.val + 1) 1
  have hnote := sleepNoted_frame (stacksDown (setSleep s group.val 2) group.val true) group.val
  obtain ⟨t, ht, hframe⟩ := execDeepSleepEntry_frame group s
  obtain rfl : bump (sleepEntered s group.val) 0x3002 (group.val + 1) 1 = t := Host.Outcome.next.inj (hexec.symm.trans ht)
  refine ⟨_, hexec, hframe, ?_, fun h hh => ?_, (sleepEntered_framesOnly s _).trans (hbump.framesOnly (by decide)), ?_,
    fun c hc hlost hparked => ?_⟩
  · rw [hbump.sleepOf (by decide), sleepOf_sleepEntered, if_pos rfl]
  · rw [hbump.sleepOf (by decide), sleepOf_sleepEntered, if_neg hh]
  · rw [stat_bump, if_pos rfl, stat_sleepEntered, statBits_sleepEntries]
    rfl
  · have hswitched := stacksDown_switches hc (columnHears_setSleep 2 ⟨hlost, hparked⟩) true
    have hnoted := columnSwitched_congr (hnote.channels_eq (by decide)) (hnote.out_eq (by decide)) hswitched
    exact columnSwitched_congr (hbump.channels_eq (by decide)) (hbump.out_eq (by decide)) hnoted

theorem completes_deepSleepEntry_awake (group : Group) :
    Completes (.deepSleepEntry group) [] (fun s => maySleep s group.val = false) (fun _ _ => True) :=
  fun s h => ⟨s, if_neg (by simp [h]), Frame.refl _ s, trivial⟩

theorem wakeGroup_of_deep {s : State} {g : Nat} (h : sleepOf s g = 2) :
    wakeGroup s g = bump (stacksDown (setSleep s g 3) g false) 0x3003 (g + 1)
      ((s.sys.time - tabGet dNat s.thermal.sleptAt g) / 64000000) :=
  if_pos h

theorem completes_deepSleepWake (group : Group) :
    Completes (.deepSleepWake group) [.thermal, .channels, .groups, .stats, .out] (fun s => sleepOf s group.val = 2)
      (fun s t => sleepOf t group.val = 3 ∧ (∀ h, h ≠ group.val → sleepOf t h = sleepOf s h) ∧ FramesOnly s t ∧
        stat t 0x3003 (group.val + 1) = (stat s 0x3003 (group.val + 1) +
          ((s.sys.time - tabGet dNat s.thermal.sleptAt group.val) / 64000000 : Nat)) % 2 ^ 64 ∧
        ∀ c, c < 8 → columnLost s group.val c = false → (channelOf s (8 * group.val + c)).parked = false →
          (channelOf t (8 * group.val + c)).powerDown = false ∧
            Output.caFrame (8 * group.val + c) 0xA00000000000 ∈ t.out) := by
  intro s hdeep
  have hbump := bump_frame (stacksDown (setSleep s group.val 3) group.val false) 0x3003 (group.val + 1)
    ((s.sys.time - tabGet dNat s.thermal.sleptAt group.val) / 64000000)
  refine ⟨wakeGroup s group.val, rfl, wakeGroup_frame s _, ?_, fun h hh => ?_, wakeGroup_framesOnly s _, ?_,
    fun c hc hlost hparked => ?_⟩
  · rw [sleepOf_wakeGroup, if_pos ⟨rfl, hdeep⟩]
  · rw [sleepOf_wakeGroup, if_neg (by tauto)]
  · rw [wakeGroup_of_deep hdeep, stat_bump, if_pos rfl, (stacksDown_frame _ _ _).stat (by decide),
      (setSleep_frame _ _ _).stat (by decide), statBits_timeAsleep]
    rfl
  · rw [wakeGroup_of_deep hdeep]
    have hswitched := stacksDown_switches hc (columnHears_setSleep 3 ⟨hlost, hparked⟩) false
    exact columnSwitched_congr (hbump.channels_eq (by decide)) (hbump.out_eq (by decide)) hswitched

theorem completes_deepSleepWake_awake (group : Group) :
    Completes (.deepSleepWake group) [] (fun s => sleepOf s group.val ≠ 2) (fun _ _ => True) :=
  fun s h => ⟨s, congrArg Host.Outcome.next (if_neg h), Frame.refl _ s, trivial⟩

/-- A group marked awake for its maintenance alone (R387). -/
def maintenanceMarked (s : State) (g : Nat) : State :=
  { s with thermal := { s.thermal with maintenance := tabSet dBool s.thermal.maintenance g true } }

/-- The measurements of a maintenance wake (R387). -/
def groupMeasured (s : State) (g : Nat) (answers : List (Option Byte)) : State :=
  (List.range 8).foldl (fun s c => channelTemperature s (8 * g + c) (answers.getD c none)) s

theorem groupMeasured_thermal (s : State) (g : Nat) (answers : List (Option Byte)) :
    (groupMeasured s g answers).thermal = s.thermal :=
  List.foldlRecOn (motive := fun x : State => x.thermal = s.thermal) _ _ rfl fun x hx _ _ =>
    ((channelTemperature_frame x _ _).thermal_eq (by decide)).trans hx

/-- The last part of a temperature window or a maintenance wake for a group: its notes and its stack level (R221, R398). -/
def groupNoted (s : State) (g : Nat) : State := stackLevel (if s.sys.memoryActive then noteTemps s g else s) g

/-- The notes of a group move its heat mark and nothing else of the thermal unit. -/
theorem groupNoted_thermal (s : State) (g : Nat) :
    (groupNoted s g).thermal = { s.thermal with stackHot := (groupNoted s g).thermal.stackHot } := by
  have hnoted : (if s.sys.memoryActive = true then noteTemps s g else s).thermal = s.thermal := by
    split
    · exact (noteTemps_frame s g).thermal_eq (by decide)
    · rfl
  have hlevel := (stackLevel_keeps (if s.sys.memoryActive = true then noteTemps s g else s) g).2
  rw [hnoted] at hlevel
  exact hlevel

theorem groupMeasured_eq_foldl (s : State) (g : Nat) (answers : List (Option Byte)) :
    groupMeasured s g answers =
      (List.range 8).foldl (fun s c => channelTemperature s (8 * g + c) (answers.getD c none)) s := rfl

theorem execMaintenanceWake_eq (group : Group) (answers : List (Option Byte)) (s : State) :
    execMaintenanceWake group answers s =
      if sleepOf s group.val = 2 then
        .next (groupNoted (groupMeasured (maintenanceMarked (wakeGroup s group.val) group.val) group.val answers) group.val)
      else .next s := by
  unfold execMaintenanceWake groupNoted
  generalize hmarked : maintenanceMarked (wakeGroup s group.val) group.val = x
  unfold maintenanceMarked at hmarked
  dsimp only
  rw [hmarked, ← groupMeasured_eq_foldl]

theorem completes_maintenanceWake (group : Group) (answers : List (Option Byte)) :
    Completes (.maintenanceWake group answers) [.mgmt, .folio, .ledger, .thermal, .channels, .groups, .stats, .out]
      (fun s => sleepOf s group.val = 2) (fun s t => sleepOf t group.val = 3 ∧
        (∀ h, h ≠ group.val → sleepOf t h = sleepOf s h) ∧ tabGet dBool t.thermal.maintenance group.val = true) := by
  intro s hdeep
  have hexec := (execMaintenanceWake_eq group answers s).trans (if_pos hdeep)
  obtain ⟨t, ht, hframe⟩ := execMaintenanceWake_frame group answers s
  have hthermal := groupNoted_thermal (groupMeasured (maintenanceMarked (wakeGroup s group.val) group.val) group.val answers)
    group.val
  rw [groupMeasured_thermal, Host.Outcome.next.inj (hexec.symm.trans ht)] at hthermal
  have hsleep (h : Nat) : sleepOf t h = sleepOf (wakeGroup s group.val) h := by
    unfold sleepOf
    rw [hthermal]
    rfl
  refine ⟨t, ht, hframe, ?_, fun h hh => ?_, ?_⟩
  · rw [hsleep, sleepOf_wakeGroup, if_pos ⟨rfl, hdeep⟩]
  · rw [hsleep, sleepOf_wakeGroup, if_neg (by tauto)]
  · rw [hthermal]
    exact tabGet_set_self _ _ true

/-- Settles O24: the sleep commands reach a group's columns one by one (`stacksDown_switches`), and the passes over the channels
change each channel by its own record (`foldl_range_get`). -/
theorem sleepAndStackTemperatures : Obligations.SleepAndStackTemperatures :=
  ⟨⟨fun group => ⟨completes_lightSleepEntry group, completes_deepSleepEntry group, completes_deepSleepEntry_awake group,
      completes_deepSleepWake group, completes_deepSleepWake_awake group, completes_deepSleepExitDone group,
      completes_maintenanceWake group⟩,
    serves_deepSleepEnableWrite⟩,
  completes_temperatureWindow, completes_zqInterval, serves_thermalAlertThresholdWrite⟩

end Sys2Proof.Machine
end

section
/-! Host writes (O30): a write at its bank also tries again every partial write that waits for a merge entry (R96), so it can change
a line that is not its own. -/
namespace Sys2Proof.Machine

/-! ### A host write while the counters stand still and no request is sampled (R456, R460) -/

theorem perfCount_of_stopped {s : State} (h : s.perf.run = false) (b e k : Nat) : perfCount s b e k = s := by
  unfold perfCount
  refine List.foldlRecOn (motive := (· = s)) _ _ rfl fun x hx n _ => ?_
  subst hx
  simp [perfAdvance, h]

theorem sampleDraw_of_rate_zero {s : State} (h : settingN s 0x3200 3 = 0) (who : Requester) (line : Nat) (write : Bool)
    (flags : Nat) : sampleDraw s who line write flags = s := if_pos (.inl h)

/-- A warm write of an unshared line that meets no upset goes straight to its bank (R93). -/
theorem hostWrite_eq_performWrite {s : State} {p address dpa : Nat} (hserved : hostsServed s = true)
    (hheld : heldEntries s p < 64) (hdpa : hostDpa s p address = some dpa) (hshared : sharedLine s (dpa / 64) = false)
    (hwarm : warmNow s (dpa / 64) false = true) (hrun : s.perf.run = false) (hrate : settingN s 0x3200 3 = 0)
    (tag mv : Nat) (mask : BitVec 64) (data : Line) :
    hostWrite s p tag address mv mask data false [.none, .none] = performWrite s
      { line := dpa / 64, who := .host p tag, port := p, mask := mask, data := data, poison := false, metaValue := mv,
        arrival := s.sys.time, warm := true } := by
  have hdev : s.sys.dev ≠ .priming := by
    intro h
    simp [hostsServed, h] at hserved
  have hmeet : meetUpsets s (dpa / 64) [.none, .none] = s := rfl
  unfold hostWrite
  simp [hdev, hserved, hheld, perfCount_of_stopped hrun, hdpa, hwarm, countWarm, sampleDraw_of_rate_zero hrate, hshared, hmeet,
    lineRequest]

/-! ### The counterexample -/

/-- A device in service: line 64 is dirty at place 1024, and a partial write of port 1 to line 65, which found no merge entry
free, still waits. The entry it waits for has become free with the line that held it, as where a tag is lost (R106). -/
def freedMergeEntry : State :=
  { sys := { dev := .active, corePll := true, memoryActive := true, openRecordDone := true },
    settings := [(objKey 0x2B30 4, 0), (objKey 0x3200 3, 0)],
    perf := { run := false },
    path := { layout := { spread := 3584, contain := List.replicate 8 (0, 0, 0) } },
    groups := (List.range 8).map (fun g => (g, { table := [(0, { mapped := true })], free := [14341, 14342, 14343, 14344] })),
    crypt := { ranges := [(0, { state := 2 })] },
    reserve := {
      status := 3, wt := false, writeThrough := false, budget := 100000, deviceShare := 12500,
      portShare := [(0, 100), (1, 100), (2, 100), (3, 100)], portCharge := [(0, 1)], bleedEn := false },
    ports := [(0, { link := 3, decoders := [(0, { size := 28672, ways := 1, gran := 256, committed := true })] })],
    easel := {
      lines := [(1024, { valid := true, dirty := true, vk := true, charge := 1, data := 0x1234567#512 })],
      mergeWait := [{ line := 65, who := .host 1 7, port := 1, mask := 1#64, data := 0xFF#512 }] } }

/-- The state meets the hypotheses of the first clause of O30, for line 64 at place 1024. -/
theorem freedMergeEntry_open :
    (linkUp freedMergeEntry 0 = true ∧ hostsServed freedMergeEntry = true ∧ heldEntries freedMergeEntry 0 < 64 ∧
      hostDpa freedMergeEntry 0 4096 = some 4096 ∧ sharedLine freedMergeEntry 64 = false ∧
      heldBefore freedMergeEntry 64 freedMergeEntry.easel.nextSeq = false) ∧
    lineFenced freedMergeEntry 64 = false ∧ frailSet freedMergeEntry (easelSet 64) = false ∧
    freedMergeEntry.reserve.budget ≠ 0 ∧ portShareOf freedMergeEntry 0 ≠ 0 ∧ easelFind freedMergeEntry 64 = some 1024 ∧
    portCharged freedMergeEntry 0 ≤ portShareOf freedMergeEntry 0 ∧
    dirtyWays freedMergeEntry (easelSet 64) < dirtyLimit freedMergeEntry (easelSet 64) := by decide +kernel

/-- A write of line 64 by port 0, as it reaches its bank. -/
def writeOfLine64 : WriteReq :=
  { line := 64, who := .host 0 7, port := 0, mask := fullMask, data := 0xABCDEF#512, poison := false, metaValue := 0, arrival := 0,
    warm := true }

/-- The bank takes in the write of line 65 with that of line 64: it goes to place 1040 (R96). -/
theorem performWrite_dirties_1040 : (easelLine (performWrite freedMergeEntry writeOfLine64) 1040).dirty = true := by
  decide +kernel

theorem exec_writeOfLine64 : exec (.hostWrite 0 7 4096 0 0xABCDEF false .none .none) freedMergeEntry =
    .next (performWrite freedMergeEntry writeOfLine64) := by
  obtain ⟨⟨hlink, hserved, hheld, hdpa, hshared, -⟩, -⟩ := freedMergeEntry_open
  have hwrite := hostWrite_eq_performWrite hserved hheld hdpa hshared (by decide +kernel) rfl (by decide +kernel) 7 0 fullMask
    0xABCDEF
  calc exec (.hostWrite 0 7 4096 0 0xABCDEF false .none .none) freedMergeEntry
    _ = execHostWrite 0 7 4096 0 0xABCDEF false .none .none freedMergeEntry := rfl
    _ = .next (hostWrite freedMergeEntry 0 7 4096 0 fullMask 0xABCDEF false [.none, .none]) := if_pos hlink
    _ = .next (performWrite freedMergeEntry writeOfLine64) := congrArg Host.Outcome.next hwrite

/-- Refutes O30 in its first clause: a write to a dirty line with headroom, met while a partial write waits for a merge entry that
has become free, takes that write in too, and so makes another line dirty (R96). -/
theorem not_hostWrites : ¬ Obligations.HostWrites := by
  intro h
  obtain ⟨hfull, -⟩ := h 0 7 4096 0 0 0xABCDEF
  obtain ⟨⟨hlink, hserved, hheld, hdpa, hshared, hbefore⟩, hfence, hfrail, hbudget, hshare, hfind, hroom, hways⟩ :=
    freedMergeEntry_open
  obtain ⟨t, hexec, -, -, -, -, -, -, -, -, -, hothers⟩ := hfull 64 1024 freedMergeEntry
    ⟨⟨⟨hlink, hserved, hheld, ⟨4096, hdpa, rfl⟩, hshared, hbefore⟩, hfence, hfrail⟩, ⟨hbudget, hshare⟩, hfind, rfl, rfl, rfl,
      hroom, hways⟩
  obtain ⟨-, hdirty, -, -⟩ := hothers 1040 (by decide)
  obtain rfl : performWrite freedMergeEntry writeOfLine64 = t := Host.Outcome.next.inj (exec_writeOfLine64.symm.trans hexec)
  have hclean : (easelLine freedMergeEntry 1040).dirty = false := rfl
  exact Bool.false_ne_true (hclean.symm.trans (hdirty.symm.trans performWrite_dirties_1040))

end Sys2Proof.Machine
end

section
/-! The delivery of a line to the reads that wait for it (R157, R169). -/
namespace Sys2Proof.Machine

theorem Frame.easel_eq {U : List UnitName} {s t : State} (h : Frame U s t) (hu : .easel ∉ U) : t.easel = s.easel := h .easel hu

theorem Frame.path_eq {U : List UnitName} {s t : State} (h : Frame U s t) (hu : .path ∉ U) : t.path = s.path := h .path hu

theorem Frame.ports_eq {U : List UnitName} {s t : State} (h : Frame U s t) (hu : .ports ∉ U) : t.ports = s.ports := h .ports hu

theorem Frame.settings_eq {U : List UnitName} {s t : State} (h : Frame U s t) (hu : .settings ∉ U) : t.settings = s.settings :=
  h .settings hu

theorem Frame.crypt_eq {U : List UnitName} {s t : State} (h : Frame U s t) (hu : .crypt ∉ U) : t.crypt = s.crypt := h .crypt hu

/-! ### What has left the device stays in its output -/

theorem Frame.out_suffix {U : List UnitName} {s t : State} (h : Frame U s t) (hu : .out ∉ U) : s.out <:+ t.out := by
  rw [h.out_eq hu]

theorem emit_out_suffix (s : State) (o : Output) : s.out <:+ (emit s o).out := List.suffix_cons _ _

theorem raise_out_suffix (s : State) (code : Nat) (data : List Byte) : s.out <:+ (raise s code data).out := by
  have hemcy (x : State) (err seq : Nat) : x.out <:+ (emcyRaise x err code seq).out := by
    unfold emcyRaise
    dsimp only
    split
    · split
      · split <;> exact List.suffix_rfl
      · exact List.suffix_cons _ _
    · exact List.suffix_rfl
  rw [← ledgerRecord_out s code data]
  unfold raise
  dsimp only
  split
  · exact hemcy _ _ _
  · exact List.suffix_rfl

theorem overThreshold_out_suffix (s : State) (p kind limit lat line : Nat) (warm : Bool) :
    s.out <:+ (overThreshold s p kind limit lat line warm).out := by
  unfold overThreshold
  split
  · dsimp only
    split
    · exact ((bump_frame s _ _ _).out_suffix (by decide)).trans (raise_out_suffix _ _ _)
    · exact (bump_frame s _ _ _).out_suffix (by decide)
  · exact List.suffix_rfl

theorem maxStat_out (s : State) (idx sub : Nat) (v : Int) : (maxStat s idx sub v).out = s.out :=
  (maxStat_frame s idx sub v).out_eq (by decide)

/-- The counts of a completed read, before its latency is judged (R178). -/
theorem monitorRead_eq_overThreshold (s : State) (p line lat : Nat) (warm poison : Bool) :
    ∃ x kind limit, x.out = s.out ∧ monitorRead s p line lat warm poison = overThreshold x p kind limit lat line warm := by
  refine ⟨_, _, _, ?_, rfl⟩
  split <;> simp only [bump_out, maxStat_out]

theorem monitorRead_out_suffix (s : State) (p line lat : Nat) (warm poison : Bool) :
    s.out <:+ (monitorRead s p line lat warm poison).out := by
  obtain ⟨x, kind, limit, hx, hmonitor⟩ := monitorRead_eq_overThreshold s p line lat warm poison
  rw [hmonitor, ← hx]
  exact overThreshold_out_suffix x p kind limit lat line warm

theorem settleConflict_out_suffix (s : State) (p line : Nat) : s.out <:+ (settleConflict s p line).out := by
  unfold settleConflict
  split
  · exact List.suffix_cons _ _
  · exact List.suffix_rfl

/-! ### A line to one read, and to every read that waits for it -/

theorem deliverRead_host {s : State} {w : ReadWait} {p tag : Nat} (hw : w.who = .host p tag) (data : Line) (poison : Bool) :
    ∃ x, s.out <:+ x.out ∧ deliverRead s w data poison = settleConflict (emit x
      (.data (Fin.ofNat 4 p) tag (if poison then 0 else data) poison w.metaValue (devLoad x p))) p w.line := by
  unfold deliverRead
  rw [hw]
  refine ⟨_, ?_, rfl⟩
  have hflag (x : State) (c : Bool) (bit : Nat) : x.out <:+ (if c then flagSample x (.host p tag) bit else x).out :=
    (Frame.ite (flagSample_frame x _ bit) (.refl _ x)).out_suffix (by decide)
  have hcount (x : State) : x.out <:+ (if poison then perfCount x p 7 1 else x).out :=
    (Frame.ite (perfCount_frame x _ _ _) (.refl _ x)).out_suffix (by decide)
  exact ((hflag s poison 14).trans (hflag _ w.bypass 12)).trans
    (((sampleDone_frame _ _ _).out_suffix (by decide)).trans ((monitorRead_out_suffix _ _ _ _ _ _).trans (hcount _)))

theorem deliverRead_out_suffix (s : State) (w : ReadWait) (data : Line) (poison : Bool) :
    s.out <:+ (deliverRead s w data poison).out := by
  cases hw : w.who with
  | host p tag =>
    obtain ⟨x, hx, hdeliver⟩ := deliverRead_host (s := s) hw data poison
    rw [hdeliver]
    exact hx.trans ((emit_out_suffix x _).trans (settleConflict_out_suffix _ _ _))
  | barrow c load beat =>
    unfold deliverRead
    rw [hw]
    refine Frame.out_suffix (U := [.queues, .barrow, .perf, .stats]) ?_ (by decide)
    exact Frame.step (modBarrow_frame _ _ _) (Frame.step (sampleDone_frame _ _ _)
      (Frame.ite (Frame.step (flagSample_frame _ _ _) (.refl _ s) rfl) (.refl _ s)) rfl) rfl
  | scan p =>
    unfold deliverRead
    rw [hw]
    refine Frame.out_suffix (U := [.ports, .palette]) ?_ (by decide)
    exact Frame.ite (Frame.step (poisonInsert_frame _ _ _ _) (Frame.step (modPort_frame _ _ _) (.refl _ s) rfl) rfl) (.refl _ s)
  | clear p =>
    unfold deliverRead
    rw [hw]

/-- A host gets the data of its read (R157). -/
theorem data_mem_deliverRead {s : State} {w : ReadWait} {p tag : Nat} (hw : w.who = .host p tag) (data : Line) (poison : Bool) :
    ∃ load, Output.data (Fin.ofNat 4 p) tag (if poison then 0 else data) poison w.metaValue load ∈
      (deliverRead s w data poison).out := by
  obtain ⟨x, -, hdeliver⟩ := deliverRead_host (s := s) hw data poison
  rw [hdeliver]
  exact ⟨_, (settleConflict_out_suffix _ _ _).subset List.mem_cons_self⟩

/-- One read of `deliverAll`: it gets the line under the bytes written before it (R169). -/
def deliverUnder (data : Line) (poison : Bool) (s : State) (w : ReadWait) : State :=
  deliverRead (stamp s w.who 6) w (mergeLine data w.overData w.overMask) poison

theorem deliverAll_eq_foldl (s : State) (ws : List ReadWait) (data : Line) (poison : Bool) :
    deliverAll s ws data poison = ws.foldl (deliverUnder data poison) s := rfl

theorem deliverUnder_out_suffix (data : Line) (poison : Bool) (s : State) (w : ReadWait) :
    s.out <:+ (deliverUnder data poison s w).out :=
  ((stamp_frame s w.who 6).out_suffix (by decide)).trans (deliverRead_out_suffix _ _ _ _)

theorem deliverUnder_foldl_out_suffix (data : Line) (poison : Bool) (ws : List ReadWait) (s : State) :
    s.out <:+ (ws.foldl (deliverUnder data poison) s).out :=
  List.foldlRecOn (motive := fun t => s.out <:+ t.out) ws _ List.suffix_rfl fun t ht w _ =>
    ht.trans (deliverUnder_out_suffix data poison t w)

theorem data_mem_deliverAll {ws : List ReadWait} {w : ReadWait} {p tag : Nat} (hmem : w ∈ ws) (hw : w.who = .host p tag)
    (s : State) (data : Line) (poison : Bool) :
    ∃ load, Output.data (Fin.ofNat 4 p) tag (if poison then 0 else mergeLine data w.overData w.overMask) poison
      w.metaValue load ∈ (deliverAll s ws data poison).out := by
  obtain ⟨before, after, rfl⟩ := List.append_of_mem hmem
  rw [deliverAll_eq_foldl, List.foldl_append, List.foldl_cons]
  obtain ⟨load, hload⟩ := data_mem_deliverRead hw (mergeLine data w.overData w.overMask) poison
  exact ⟨load, (deliverUnder_foldl_out_suffix data poison after _).subset hload⟩

/-- Every host read of `line` that waits in `s`, but for those behind a held write, has its data in the output of `t`: those of
`data`, under the bytes written before the read (R157, R169). -/
def ReadsAnswered (s t : State) (line : Nat) (data : Line) (poison : Bool) : Prop :=
  ∀ w ∈ s.easel.waits, ∀ p tag, w.line = line → w.who = .host p tag → heldBefore s w.line w.seq = false →
    ∃ load, Output.data (Fin.ofNat 4 p) tag (if poison then 0 else mergeLine data w.overData w.overMask) poison
      w.metaValue load ∈ t.out

theorem deliverWaits_answers (s : State) (line : Nat) (data : Line) (poison : Bool) :
    ReadsAnswered s (deliverWaits s line data poison) line data poison := by
  intro w hmem p tag hline hw hheld
  refine data_mem_deliverAll (List.mem_filter.mpr ⟨hmem, ?_⟩) hw _ data poison
  rw [hline] at hheld
  simp [hline, hheld]

/-- A delivery changes nothing of the Easel but the reads that wait. -/
theorem deliverWaits_easel (s : State) (line : Nat) (data : Line) (poison : Bool) :
    (deliverWaits s line data poison).easel =
      { s.easel with waits := s.easel.waits.filter (fun w => !(w.line == line && !heldBefore s line w.seq)) } := by
  unfold deliverWaits
  exact (deliverAll_frame _ _ data poison).easel_eq (by decide)

theorem heldBefore_congr {s t : State} (hports : t.ports = s.ports) (hmerge : t.easel.mergeWait = s.easel.mergeWait)
    (line seq : Nat) : heldBefore t line seq = heldBefore s line seq := by
  unfold heldBefore portOf
  rw [hports, hmerge]

theorem ReadsAnswered.of_waits {s x t : State} {line : Nat} {data : Line} {poison : Bool} (h : ReadsAnswered x t line data poison)
    (hwaits : x.easel.waits = s.easel.waits) (hports : x.ports = s.ports) (hmerge : x.easel.mergeWait = s.easel.mergeWait) :
    ReadsAnswered s t line data poison := by
  intro w hmem p tag hline hw hheld
  exact h w (hwaits ▸ hmem) p tag hline hw ((heldBefore_congr hports hmerge _ _).trans hheld)

end Sys2Proof.Machine
end

section
/-! The arrival of a tile read (O31): the end of an unsealed fill, and what its content is judged to be. -/
namespace Sys2Proof.Machine

/-! ### A line found in a state with the same keys is found the same (R187, R188) -/

theorem ephemeralState_congr {s t : State} (hsys : t.sys = s.sys) (hcrypt : t.crypt = s.crypt) :
    ephemeralState t = ephemeralState s := by
  unfold ephemeralState
  rw [hsys, hcrypt]

theorem settingN_congr {s t : State} (hset : t.settings = s.settings) (idx sub : Nat) : settingN t idx sub = settingN s idx sub := by
  unfold settingN setting
  rw [hset]

theorem rangeOf_congr {s t : State} (hset : t.settings = s.settings) (line : Nat) : rangeOf t line = rangeOf s line := by
  unfold rangeOf
  simp only [settingN_congr hset]

theorem sealedLine_congr {s t : State} (hsys : t.sys = s.sys) (hcrypt : t.crypt = s.crypt) (hset : t.settings = s.settings)
    (line : Nat) : sealedLine t line = sealedLine s line := by
  unfold sealedLine settingB setting
  rw [ephemeralState_congr hsys hcrypt, rangeOf_congr hset, hset]

theorem lineKey_congr {s t : State} (hsys : t.sys = s.sys) (hcrypt : t.crypt = s.crypt) (hset : t.settings = s.settings)
    (line : Nat) : lineKey t line = lineKey s line := by
  unfold lineKey stepOf rangeFirst rangeRec
  rw [ephemeralState_congr hsys hcrypt, hcrypt]
  simp only [rangeOf_congr hset, settingN_congr hset]

/-- An unsealed line is checked against its key alone (R192). -/
theorem checkLine_of_unsealed {s : State} {line : Nat} (hseal : sealedLine s line = false) (content : List Byte) :
    checkLine s line content = (openLine s (lineKey s line) line 0 content).elim .badMac .ok := by
  unfold checkLine checkLineWith
  rw [if_neg (by simp [hseal])]
  cases openLine s (lineKey s line) line 0 content <;> rfl

theorem checkLine_congr {s t : State} {line : Nat} (hseal : sealedLine s line = false) (hsys : t.sys = s.sys)
    (hcrypt : t.crypt = s.crypt) (hset : t.settings = s.settings) (content : List Byte) :
    checkLine t line content = checkLine s line content := by
  have hseals := sealedLine_congr hsys hcrypt hset line
  have hopen : openLine t (lineKey t line) line 0 content = openLine s (lineKey s line) line 0 content := by
    unfold openLine lineMac
    rw [lineKey_congr hsys hcrypt hset, hseals, rangeOf_congr hset]
  rw [checkLine_of_unsealed hseal, checkLine_of_unsealed (hseals.trans hseal), hopen]

/-! ### The end of a fill (R40, R95, R157) -/

/-- A line that its fill leaves (R157 step 8). -/
def filledLine (version : Nat) (data : Line) (poison : Bool) (x : EaselLine) : EaselLine :=
  { x with poison := poison, fill := false, data := if poison then 0 else data, version := version, vk := true }

theorem installFill_eq {s : State} {p : Nat} (h : (easelLine s p).merge = false) (line version : Nat) (data : Line)
    (poison : Bool) : ∃ last, installFill s p line version data poison =
      deliverWaits (easelTouch (modLine s p (filledLine version data poison)) p last) line data poison := by
  unfold installFill
  dsimp only
  rw [if_neg (by simp [h])]
  exact ⟨_, rfl⟩

/-- A read is a fill whose line waits for it, with no bytes to merge. -/
structure PlainFill (s : State) (n : Nat) : Prop where
  kind : (tabGet dRead s.easel.reads n).kind = 0
  alive : (tabGet dRead s.easel.reads n).dead = false
  live : fillLive s (tabGet dRead s.easel.reads n) = true
  unmerged : (easelLine s (tabGet dRead s.easel.reads n).place).merge = false

/-- Fill `n` of `s` has ended in `t`: its line is what the fill leaves, no other line has changed, the read is gone, the reads that
waited have their data, and the medium is kept. -/
structure FillEnded (s t : State) (n version : Nat) (data : Line) (poison : Bool) : Prop where
  filled : easelLine t (tabGet dRead s.easel.reads n).place =
    filledLine version data poison (easelLine s (tabGet dRead s.easel.reads n).place)
  others : ∀ q, q ≠ (tabGet dRead s.easel.reads n).place → easelLine t q = easelLine s q
  ended : tabGet dRead t.easel.reads n = dRead n
  answered : ReadsAnswered s t (tabGet dRead s.easel.reads n).line data poison
  medium : t.path.medium = s.path.medium

/-- The state with a read gone from the table. -/
def readGone (s : State) (n : Nat) : State :=
  { s with easel := { s.easel with reads := tabDel s.easel.reads n } }

theorem completeRead_of_plainFill {s : State} {n : Nat} (h : PlainFill s n) (version : Nat) (data : Line) (poison : Bool) :
    completeRead s n version data poison = installFill (readGone s n) (tabGet dRead s.easel.reads n).place
      (tabGet dRead s.easel.reads n).line version data poison := by
  have hlive : fillLive (readGone s n) (tabGet dRead s.easel.reads n) = true := h.live
  unfold completeRead
  rw [if_pos (by simp [h.kind, h.alive])]
  exact if_pos hlive

theorem completeRead_ends {s : State} {n : Nat} (h : PlainFill s n) (version : Nat) (data : Line) (poison : Bool) :
    FillEnded s (completeRead s n version data poison) n version data poison := by
  rw [completeRead_of_plainFill h]
  obtain ⟨last, hinstall⟩ := installFill_eq (s := readGone s n) h.unmerged (tabGet dRead s.easel.reads n).line version data poison
  rw [hinstall]
  generalize hx : easelTouch (modLine (readGone s n) _ _) _ last = x
  have heasel := deliverWaits_easel x (tabGet dRead s.easel.reads n).line data poison
  have hline (q : Nat) : easelLine (deliverWaits x (tabGet dRead s.easel.reads n).line data poison) q =
      if q = (tabGet dRead s.easel.reads n).place then
        filledLine version data poison (easelLine s (tabGet dRead s.easel.reads n).place)
      else easelLine s q := by
    unfold easelLine
    rw [heasel, ← hx]
    exact easelLine_modLine (readGone s n) _ q _
  constructor
  · rw [hline, if_pos rfl]
  · intro q hq
    rw [hline, if_neg hq]
  · rw [heasel, ← hx]
    exact tabGet_del_self _ n
  · refine (deliverWaits_answers x _ data poison).of_waits ?_ ?_ ?_ <;> rw [← hx] <;> rfl
  · rw [(deliverWaits_frame x _ data poison).path_eq (by decide), ← hx]
    rfl

end Sys2Proof.Machine
end

section
/-! The arrival of a tile read (O31). -/
namespace Sys2Proof.Machine

/-! ### What the patches of a read are decoded to (R48 to R50) -/

/-- One column of `takeErased`. -/
def takeColumn (g : Nat) (addrs : List Nat) (r : State × List Nat) (c : Nat) : State × List Nat :=
  let bank := addrs.getD c 0 % 256
  if (channelOf r.1 (8 * g + c)).erased.contains bank then
    (modChannel r.1 (8 * g + c) (fun x => { x with erased := x.erased.erase bank }), r.2 ++ [c])
  else r

theorem takeErased_eq_foldl (s : State) (g : Nat) (addrs : List Nat) :
    takeErased s g addrs = (List.range 8).foldl (takeColumn g addrs) (s, []) := rfl

/-- The columns found erased depend on the channels alone. -/
theorem takeErased_columns_congr {s t : State} (h : t.channels = s.channels) (g : Nat) (addrs : List Nat) :
    (takeErased t g addrs).2 = (takeErased s g addrs).2 := by
  have hstep (x y : State × List Nat) (c : Nat) (hxy : x.1.channels = y.1.channels ∧ x.2 = y.2) :
      (takeColumn g addrs x c).1.channels = (takeColumn g addrs y c).1.channels ∧
        (takeColumn g addrs x c).2 = (takeColumn g addrs y c).2 := by
    obtain ⟨hchannels, hcols⟩ := hxy
    have hof : channelOf x.1 (8 * g + c) = channelOf y.1 (8 * g + c) := by
      unfold channelOf
      rw [hchannels]
    unfold takeColumn
    rw [hof]
    dsimp only
    split
    · refine ⟨?_, congrArg (· ++ [c]) hcols⟩
      unfold modChannel
      rw [hchannels]
    · exact ⟨hchannels, hcols⟩
  have hfold (l : List Nat) (x y : State × List Nat) (hxy : x.1.channels = y.1.channels ∧ x.2 = y.2) :
      (l.foldl (takeColumn g addrs) x).2 = (l.foldl (takeColumn g addrs) y).2 := by
    induction l generalizing x y with
    | nil => exact hxy.2
    | cons c l ih => exact ih _ _ (hstep x y c hxy)
  exact hfold _ _ _ ⟨h, rfl⟩

theorem takeErased_failed (s : State) (g : Nat) (addrs : List Nat) (ch : Nat) :
    (channelOf (takeErased s g addrs).1 ch).failed = (channelOf s ch).failed := by
  rw [takeErased_eq_foldl]
  refine List.foldlRecOn (motive := fun r : State × List Nat => (channelOf r.1 ch).failed = (channelOf s ch).failed) _ _ rfl
    fun r hr c _ => ?_
  unfold takeColumn
  dsimp only
  split
  · rw [channelOf_modChannel]
    split
    · rename_i hch
      rw [← hr, hch]
    · exact hr
  · exact hr

theorem erasedColumns_congr {s t : State} (hgroups : t.groups = s.groups) (hpower : t.power = s.power)
    (hfailed : ∀ ch, (channelOf t ch).failed = (channelOf s ch).failed) (g : Nat) (at? : Option (Nat × Nat)) :
    erasedColumns t g at? = erasedColumns s g at? := by
  have hlost (c : Nat) : columnLost t g c = columnLost s g c := by
    unfold columnLost domainOf
    rw [hpower, hfailed]
  unfold erasedColumns regionOf groupOf
  simp only [hgroups, hlost]

theorem decodeAt_congr {s t : State} (hpath : t.path = s.path) (g : Nat) (addrs erased : List Nat) (err : Codeword) :
    decodeAt t g addrs erased err = decodeAt s g addrs erased err := by
  unfold decodeAt patchesAt
  rw [hpath]

/-- What read `n` finds at place `pl` (R48 to R50). -/
def judgedRead (s : State) (n : Nat) (pl : Place) (err : Codeword) (xfer : Byte) : TileRead :=
  judgeDecode (.host (tabGet dRead s.easel.reads n).line) (decodeAt s pl.group pl.addrs
    ((erasedColumns s pl.group pl.slot ++ (maskColumns xfer ++ (takeErased s pl.group pl.addrs).2)).eraseDups) err)

/-- Read `n` as it is once it has begun to decode (R58, R211). -/
def begunRead (s : State) (pl : Place) (r : ReadRec) : ReadRec :=
  let codes := if r.base = [] then firstCodes s pl else r.base
  { r with latch := some (r.latch.getD (latchNow s)), base := codes, codes := if r.codes = [] then codes else r.codes }

theorem beginRead_easel (s : State) (n : Nat) (pl : Place) : (beginRead s n pl).easel =
    { s.easel with reads := tabMod dRead s.easel.reads n (begunRead s pl) } := rfl

theorem read_beginRead (s : State) (n : Nat) (pl : Place) :
    tabGet dRead (beginRead s n pl).easel.reads n = begunRead s pl (tabGet dRead s.easel.reads n) :=
  tabGet_mod_self s.easel.reads n (begunRead s pl)

/-- The state with the patches of read `n` in: their erased bursts are used up, and the reads that wait are stamped (R461). -/
def patchesIn (s : State) (n : Nat) (pl : Place) : State :=
  (readersOf s (begunRead s pl (tabGet dRead s.easel.reads n))).foldl (fun s w => stamp (stamp s w.who 4) w.who 5)
    (takeErased (beginRead s n pl) pl.group pl.addrs).1

theorem patchesIn_frame_taken (s : State) (n : Nat) (pl : Place) :
    Frame [.perf] (takeErased (beginRead s n pl) pl.group pl.addrs).1 (patchesIn s n pl) :=
  Frame.foldl (fun _ _ => Frame.step (stamp_frame _ _ _) (stamp_frame _ _ _) rfl) (.refl _ _)

theorem patchesIn_frame (s : State) (n : Nat) (pl : Place) :
    Frame [.channels, .perf] (beginRead s n pl) (patchesIn s n pl) :=
  Frame.step (patchesIn_frame_taken s n pl) (Frame.mono (takeErased_frame _ _ _) rfl) rfl

/-- The decode sees the columns that were erased before the arrival: those of the group, those the transfer failed, and those whose
burst was. -/
theorem readTile_patchesIn (s : State) (n : Nat) (pl : Place) (err : Codeword) (xfer : Byte) :
    (readTile (patchesIn s n pl) (.host (tabGet dRead s.easel.reads n).line) pl err
      (maskColumns xfer ++ (takeErased (beginRead s n pl) pl.group pl.addrs).2)).2 = judgedRead s n pl err xfer := by
  have hbegun := beginRead_frame s n pl
  have hin := patchesIn_frame s n pl
  have hfailed (ch : Nat) : (channelOf (patchesIn s n pl) ch).failed = (channelOf s ch).failed := by
    rw [(patchesIn_frame_taken s n pl).channelOf (by decide), takeErased_failed, hbegun.channelOf (by decide)]
  have herased := erasedColumns_congr ((hin.groups_eq (by decide)).trans (hbegun.groups_eq (by decide)))
    ((hin.power_eq (by decide)).trans (hbegun.power_eq (by decide))) hfailed pl.group pl.slot
  have hpath := (hin.path_eq (by decide)).trans (hbegun.path_eq (by decide))
  have htaken := takeErased_columns_congr (hbegun.channels_eq (by decide)) pl.group pl.addrs
  unfold readTile judgedRead
  dsimp only
  rw [herased, decodeAt_congr hpath, htaken]

/-! ### What follows the decode (R48 to R52, R57) -/

/-- The units that a read's decode changes before its content is used. -/
def decodeUnits : List UnitName := [.channels, .groups, .palette, .perf, .stats]

section
variable {s : State} {n : Nat} {pl : Place} {err : Codeword} {xfer : Byte}

theorem read_takeErased (s : State) (n : Nat) (pl : Place) :
    (tabGet dRead (takeErased (beginRead s n pl) pl.group pl.addrs).1.easel.reads n) =
      begunRead s pl (tabGet dRead s.easel.reads n) := by
  rw [(takeErased_frame (beginRead s n pl) pl.group pl.addrs).easel_eq (by decide), read_beginRead]

theorem nominated_frame (x : State) (errors : List Nat) (good failed : Bool) (threshold : Nat) :
    Frame [.groups, .stats] x
      (nominateAfter (if failed then bumpCodec x pl.group 7 1 else x) pl errors good failed threshold) :=
  Frame.step (nominateAfter_frame _ _ _ _ _ _)
    (Frame.ite (Frame.step (bumpCodec_frame _ _ _ _) (.refl _ x) rfl) (.refl _ x)) rfl

theorem readTile_frame_begun (t : TileId) (cols : List Nat) :
    Frame [.channels, .perf, .stats] (beginRead s n pl) (readTile (patchesIn s n pl) t pl err cols).1 :=
  Frame.step (readTile_frame _ _ _ _ _) (Frame.mono (patchesIn_frame s n pl) rfl) rfl

/-- What becomes of read `n` at place `pl`, recorded as `r`, once its tile is judged (R48 to R52, R57). -/
def afterDecode (x : State) (n : Nat) (pl : Place) (r : ReadRec) (threshold : Nat) : TileRead → State
  | .good content errors =>
    verifyRead (nominateAfter (if r.failed then bumpCodec x pl.group 7 1 else x) pl errors true r.failed threshold) n content
  | .poison content errors =>
    completeRead (poisonPermanent
      (nominateAfter (if r.failed then bumpCodec x pl.group 7 1 else x) pl errors false r.failed threshold) r.line)
      n (versionOf content) 0 true
  | .misdirected => readFailed x n pl [] true
  | .failed content => readFailed x n pl content false

theorem readArrived_eq_afterDecode (s : State) (n : Nat) (pl : Place) (err : Codeword) (xfer : Byte) :
    ∃ x threshold, Frame [.channels, .perf, .stats] (beginRead s n pl) x ∧ readArrived s n pl err xfer =
      afterDecode x n pl (begunRead s pl (tabGet dRead s.easel.reads n)) threshold (judgedRead s n pl err xfer) := by
  rw [← readTile_patchesIn]
  unfold readArrived
  dsimp only
  rw [read_takeErased]
  exact ⟨_, _, readTile_frame_begun (err := err) _ _, rfl⟩

theorem readArrived_of_good {content : List Byte} {errors : List Nat} (h : judgedRead s n pl err xfer = .good content errors) :
    ∃ x, Frame decodeUnits (beginRead s n pl) x ∧ readArrived s n pl err xfer = verifyRead x n content := by
  obtain ⟨x, threshold, hx, harrived⟩ := readArrived_eq_afterDecode s n pl err xfer
  rw [harrived, h]
  exact ⟨_, Frame.step (nominated_frame x errors true _ threshold) (Frame.mono hx rfl) rfl, rfl⟩

theorem readArrived_of_poison {content : List Byte} {errors : List Nat} (h : judgedRead s n pl err xfer = .poison content errors) :
    ∃ x, Frame decodeUnits (beginRead s n pl) x ∧
      readArrived s n pl err xfer = completeRead x n (versionOf content) 0 true := by
  obtain ⟨x, threshold, hx, harrived⟩ := readArrived_eq_afterDecode s n pl err xfer
  rw [harrived, h]
  exact ⟨_, Frame.step (poisonPermanent_frame _ _)
    (Frame.step (nominated_frame x errors false _ threshold) (Frame.mono hx rfl) rfl) rfl, rfl⟩

theorem readArrived_of_failed {content : List Byte} (h : judgedRead s n pl err xfer = .failed content) :
    ∃ x, Frame decodeUnits (beginRead s n pl) x ∧ readArrived s n pl err xfer = readFailed x n pl content false := by
  obtain ⟨x, threshold, hx, harrived⟩ := readArrived_eq_afterDecode s n pl err xfer
  rw [harrived, h]
  exact ⟨x, Frame.mono hx rfl, rfl⟩
end

/-! ### The read once its tile is decoded -/

section
variable {s x : State} {n : Nat} {pl : Place} (h : Frame decodeUnits (beginRead s n pl) x)
include h

theorem easel_decoded : x.easel = { s.easel with reads := tabMod dRead s.easel.reads n (begunRead s pl) } :=
  h.easel_eq (by decide)

theorem path_decoded : x.path = s.path := (h.path_eq (by decide)).trans ((beginRead_frame s n pl).path_eq (by decide))

theorem ports_decoded : x.ports = s.ports := (h.ports_eq (by decide)).trans ((beginRead_frame s n pl).ports_eq (by decide))

theorem read_decoded : tabGet dRead x.easel.reads n = begunRead s pl (tabGet dRead s.easel.reads n) := by
  rw [easel_decoded h]
  exact tabGet_mod_self _ _ _

theorem easelLine_decoded (q : Nat) : easelLine x q = easelLine s q := by
  unfold easelLine
  rw [easel_decoded h]

theorem PlainFill.decoded (hfill : PlainFill s n) : PlainFill x n := by
  constructor <;> rw [read_decoded h]
  · exact hfill.kind
  · exact hfill.alive
  · unfold fillLive
    rw [easelLine_decoded h]
    exact hfill.live
  · rw [easelLine_decoded h]
    exact hfill.unmerged

theorem FillEnded.of_decoded {t : State} {version : Nat} {data : Line} {poison : Bool} (hend : FillEnded x t n version data poison) :
    FillEnded s t n version data poison := by
  obtain ⟨hfilled, hothers, hended, hanswered, hmedium⟩ := hend
  simp only [read_decoded h, easelLine_decoded h] at hfilled hothers hanswered
  have heasel := easel_decoded h
  exact ⟨hfilled, hothers, hended, hanswered.of_waits (by rw [heasel]) (ports_decoded h) (by rw [heasel]),
    hmedium.trans (by rw [path_decoded h])⟩

/-- An unsealed line is checked against the same key before and after the decode. -/
theorem checkLine_decoded {line : Nat} (hseal : sealedLine s line = false) (content : List Byte) :
    sealedLine x line = false ∧ checkLine x line content = checkLine s line content := by
  have hbegun := beginRead_frame s n pl
  have hsys : x.sys = s.sys := (h.sys_eq (by decide)).trans (hbegun.sys_eq (by decide))
  have hcrypt : x.crypt = s.crypt := (h.crypt_eq (by decide)).trans (hbegun.crypt_eq (by decide))
  have hset : x.settings = s.settings := (h.settings_eq (by decide)).trans (hbegun.settings_eq (by decide))
  exact ⟨(sealedLine_congr hsys hcrypt hset line).trans hseal, checkLine_congr hseal hsys hcrypt hset content⟩
end

theorem verifyRead_of_ok {s : State} {n : Nat} {content : List Byte} {d : Line}
    (hseal : sealedLine s (tabGet dRead s.easel.reads n).line = false)
    (hok : checkLine s (tabGet dRead s.easel.reads n).line content = .ok d) :
    verifyRead s n content = completeRead s n (versionOf content) d false := by
  unfold verifyRead
  dsimp only
  rw [if_neg (by simp [hseal]), hok]

/-- A read whose decode failed, to be granted again (R50, R58). -/
def retriedRead (codes : List Nat) (bucket : Option Nat) (r : ReadRec) : ReadRec :=
  { r with retries := r.retries + 1, misdirected := r.misdirected || false, granted := false, failed := r.failed || !false,
           codes := codes, bucket := bucket }

theorem readFailed_of_retriesLeft {s : State} {n : Nat} {pl : Place} {content : List Byte}
    (h : (tabGet dRead s.easel.reads n).retries + (tabGet dRead s.easel.reads n).spent <
      ((tabGet dRead s.easel.reads n).latch.getD (latchNow s)).1) :
    ∃ x codes bucket, Frame [.perf, .stats] s x ∧ readFailed s n pl content false = modRead x n (retriedRead codes bucket) := by
  unfold readFailed
  dsimp only
  rw [if_pos ⟨h, .inl rfl⟩, if_neg Bool.false_ne_true]
  refine ⟨_, _, _, ?_, rfl⟩
  refine Frame.foldl (fun _ _ => Frame.mono (modTag_frame _ _ _) rfl) (Frame.step (retryIssued_frame _ _) ?_ rfl)
  exact Frame.ite (Frame.mono (bumpCodec_frame _ _ _ _) rfl) (.refl _ s)

end Sys2Proof.Machine
end

section
/-! The ends of a tile read's arrival, and the obligation (O31). -/
namespace Sys2Proof.Machine

/-- The units an arrival may change. -/
def arrivalUnits : List UnitName := [.sys, .mgmt, .folio, .ledger, .reserve, .channels, .ports, .groups, .easel, .palette,
  .directory, .queues, .barrow, .perf, .path, .stats, .out]

section
variable {s : State} {read : BitVec 32} {err : Codeword} {xfer : Byte} {pl : Place}

theorem arrival_frame {t : State} (h : execTileReadArrival read err xfer s = .next t) : Frame arrivalUnits s t := by
  obtain ⟨t', hexec, hframe⟩ := execTileReadArrival_frame read err xfer s
  obtain rfl := Host.Outcome.next.inj (h.symm.trans hexec)
  exact hframe

/-- A read that has its content already, or that is not in the table, takes no arrival. -/
theorem arrival_idle
    (h : (tabGet dRead s.easel.reads read.toNat).kind = 9 ∨ (tabGet dRead s.easel.reads read.toNat).content ≠ []) :
    execTileReadArrival read err xfer s = .next s := if_pos h

/-- An arrival for a read whose line has a place (R31, R19, R82). -/
theorem arrival_at_place
    (h : ¬ ((tabGet dRead s.easel.reads read.toNat).kind = 9 ∨ (tabGet dRead s.easel.reads read.toNat).content ≠ []))
    (hplace : linePlace s (tabGet dRead s.easel.reads read.toNat).line = some pl) :
    execTileReadArrival read err xfer s =
      .next (if placeFenced s pl then completeRead s read.toNat 0 0 true
        else if groupAwake s pl.group = false then s
        else if remapReady s pl = false then askRemap s 0 pl
        else readArrived s read.toNat pl err xfer) := by
  unfold execTileReadArrival
  dsimp only
  rw [if_neg h, hplace]

theorem arrival_asleep (hplace : linePlace s (tabGet dRead s.easel.reads read.toNat).line = some pl)
    (hfence : placeFenced s pl = false) (hasleep : groupAwake s pl.group = false) :
    execTileReadArrival read err xfer s = .next s := by
  by_cases h : (tabGet dRead s.easel.reads read.toNat).kind = 9 ∨ (tabGet dRead s.easel.reads read.toNat).content ≠ []
  · exact arrival_idle h
  · rw [arrival_at_place h hplace, if_neg (by simp [hfence]), if_pos hasleep]

/-- The fill that the statement speaks of: unsealed, its line waiting, its patches not yet in. -/
structure AwaitedFill (s : State) (n : Nat) : Prop extends PlainFill s n where
  empty : (tabGet dRead s.easel.reads n).content = []
  unsealed : sealedLine s (tabGet dRead s.easel.reads n).line = false

/-- The place of a read can be read: not fenced, its group awake, its remap table tile there. -/
structure Reached (s : State) (n : Nat) (pl : Place) : Prop where
  place : linePlace s (tabGet dRead s.easel.reads n).line = some pl
  unfenced : placeFenced s pl = false
  awake : groupAwake s pl.group = true
  ready : remapReady s pl = true

theorem AwaitedFill.takes {n : Nat} (h : AwaitedFill s n) :
    ¬ ((tabGet dRead s.easel.reads n).kind = 9 ∨ (tabGet dRead s.easel.reads n).content ≠ []) := by
  simp [h.kind, h.empty]

theorem arrival_reached (hfill : AwaitedFill s read.toNat) (hreached : Reached s read.toNat pl) :
    execTileReadArrival read err xfer s = .next (readArrived s read.toNat pl err xfer) := by
  rw [arrival_at_place hfill.takes hreached.place, if_neg (by simp [hreached.unfenced]), if_neg (by simp [hreached.awake]),
    if_neg (by simp [hreached.ready])]

theorem arrival_fenced (hfill : AwaitedFill s read.toNat)
    (hplace : linePlace s (tabGet dRead s.easel.reads read.toNat).line = some pl) (hfence : placeFenced s pl = true) :
    ∃ t, execTileReadArrival read err xfer s = .next t ∧ FillEnded s t read.toNat 0 0 true := by
  refine ⟨_, ?_, completeRead_ends hfill.toPlainFill 0 0 true⟩
  rw [arrival_at_place hfill.takes hplace, if_pos hfence]

theorem arrival_good (hfill : AwaitedFill s read.toNat) (hreached : Reached s read.toNat pl) {content : List Byte}
    {errors : List Nat} {d : Line} (hgood : judgedRead s read.toNat pl err xfer = .good content errors)
    (hcheck : checkLine s (tabGet dRead s.easel.reads read.toNat).line content = .ok d) :
    ∃ t, execTileReadArrival read err xfer s = .next t ∧ FillEnded s t read.toNat (versionOf content) d false := by
  obtain ⟨x, hx, harrived⟩ := readArrived_of_good hgood
  obtain ⟨hseal, hsame⟩ := checkLine_decoded hx hfill.unsealed content
  have hline : (tabGet dRead x.easel.reads read.toNat).line = (tabGet dRead s.easel.reads read.toNat).line := by
    rw [read_decoded hx]
    rfl
  have hverified : verifyRead x read.toNat content = completeRead x read.toNat (versionOf content) d false :=
    verifyRead_of_ok (hline ▸ hseal) (by rw [hline, hsame, hcheck])
  refine ⟨_, arrival_reached hfill hreached, ?_⟩
  rw [harrived, hverified]
  exact (completeRead_ends (hfill.decoded hx) _ d false).of_decoded hx

theorem arrival_poison (hfill : AwaitedFill s read.toNat) (hreached : Reached s read.toNat pl) {content : List Byte}
    {errors : List Nat} (hpoison : judgedRead s read.toNat pl err xfer = .poison content errors) :
    ∃ t, execTileReadArrival read err xfer s = .next t ∧ FillEnded s t read.toNat (versionOf content) 0 true := by
  obtain ⟨x, hx, harrived⟩ := readArrived_of_poison hpoison
  refine ⟨_, arrival_reached hfill hreached, ?_⟩
  rw [harrived]
  exact (completeRead_ends (hfill.decoded hx) _ 0 true).of_decoded hx

theorem arrival_failed (hfill : AwaitedFill s read.toNat) (hreached : Reached s read.toNat pl) {content : List Byte}
    (hfailed : judgedRead s read.toNat pl err xfer = .failed content)
    (hleft : (tabGet dRead s.easel.reads read.toNat).retries + (tabGet dRead s.easel.reads read.toNat).spent <
      ((tabGet dRead s.easel.reads read.toNat).latch.getD (latchNow s)).1) :
    ∃ t codes bucket, execTileReadArrival read err xfer s = .next t ∧
      tabGet dRead t.easel.reads read.toNat =
        retriedRead codes bucket (begunRead s pl (tabGet dRead s.easel.reads read.toNat)) ∧
      t.easel.lines = s.easel.lines ∧ t.path.medium = s.path.medium := by
  obtain ⟨x, hx, harrived⟩ := readArrived_of_failed hfailed
  have hread := read_decoded hx
  obtain ⟨y, codes, bucket, hy, hagain⟩ :=
    readFailed_of_retriesLeft (s := x) (n := read.toNat) (pl := pl) (content := content) (by rw [hread]; exact hleft)
  have heasel := hy.easel_eq (by decide)
  refine ⟨_, codes, bucket, arrival_reached hfill hreached, ?_⟩
  rw [harrived, hagain, ← hread]
  refine ⟨?_, ?_, ?_⟩
  · rw [← heasel]
    exact tabGet_mod_self _ _ _
  · show y.easel.lines = s.easel.lines
    rw [heasel, easel_decoded hx]
  · show y.path.medium = s.path.medium
    rw [hy.path_eq (by decide), path_decoded hx]
end

/-- Settles O31: an arrival either leaves the read, or reads again, or ends the fill, and a fill ends in one way (`FillEnded`). -/
theorem tileArrival : Obligations.TileArrival := by
  unfold Obligations.TileArrival
  intro units read err xfer n r fill reached judged answered
  have hawaited {s : State} (h : fill s) : AwaitedFill s n := by
    obtain ⟨hkind, halive, hempty, hlive, hmerge, hseal⟩ := h
    exact ⟨⟨hkind, halive, hlive, hmerge⟩, hempty, hseal⟩
  have hreached {s : State} {pl : Place} (h : reached s pl) : Reached s n pl := by
    obtain ⟨hplace, hfence, hawake, hready⟩ := h
    exact ⟨hplace, hfence, hawake, hready⟩
  refine ⟨fun pl content errors d s ⟨hfill, hreach, hgood, hcheck⟩ => ?_, fun pl content errors s ⟨hfill, hreach, hpoison⟩ => ?_,
    fun pl content s ⟨hfill, hreach, hfailed, hleft⟩ => ?_, fun pl s ⟨hfill, hplace, hfence⟩ => ?_,
    fun pl s ⟨hplace, hfence, hasleep⟩ => ⟨s, arrival_asleep hplace hfence hasleep, .refl _ s, trivial⟩,
    fun s hidle => ⟨s, arrival_idle hidle, .refl _ s, trivial⟩⟩
  · obtain ⟨t, hexec, hend⟩ := arrival_good (hawaited hfill) (hreached hreach) hgood hcheck
    exact ⟨t, hexec, arrival_frame hexec, hend.others, hend.filled, hend.ended, hend.answered, hend.medium⟩
  · obtain ⟨t, hexec, hend⟩ := arrival_poison (hawaited hfill) (hreached hreach) hpoison
    have hline := hend.filled
    exact ⟨t, hexec, arrival_frame hexec, congrArg EaselLine.poison hline, congrArg EaselLine.data hline,
      congrArg EaselLine.fill hline, hend.answered, hend.medium⟩
  · obtain ⟨t, codes, bucket, hexec, hread, hlines, hmedium⟩ := arrival_failed (hawaited hfill) (hreached hreach) hfailed hleft
    exact ⟨t, hexec, arrival_frame hexec, congrArg ReadRec.retries hread, congrArg ReadRec.granted hread,
      (congrArg ReadRec.line hread).trans rfl, (congrArg ReadRec.kind hread).trans (hawaited hfill).kind,
      (congrArg ReadRec.failed hread).trans (Bool.or_true _), hlines, hmedium⟩
  · obtain ⟨t, hexec, hend⟩ := arrival_fenced (err := err) (xfer := xfer) (hawaited hfill) hplace hfence
    have hline := hend.filled
    exact ⟨t, hexec, arrival_frame hexec, congrArg EaselLine.poison hline, congrArg EaselLine.data hline, hend.answered,
      hend.medium⟩

end Sys2Proof.Machine
end

section
/-! The statistics clears of the data path (O1): a clear is a pass over spans of objects, each of which has the default 0. -/
namespace Sys2Proof.Machine

/-- The statistics of the spans cleared, span after span. -/
def clearSpans (s : State) (spans : List Span) : State :=
  spans.foldl (fun s p => clearStats s p.1 p.2.1 p.2.2) s

/-- An index of the data path whose objects have the defaults of their rows in the dictionary. -/
def rowDefaults (idx : Nat) : Bool :=
  decide (0x2100 ≤ idx ∧ idx < 0x2B00) && !([0x2200, 0x2501, 0x2820, 0x2A01].contains idx)

/-- A span lies within its index, and every row of the dictionary that it meets has the default 0. -/
def spanZero (p : Span) : Bool :=
  decide (p.2.1 + p.2.2 ≤ 256) && rowDefaults p.1 &&
    objectTable.all fun r => r.dflt == 0 || !(r.idxLo ≤ p.1 && p.1 ≤ r.idxHi) || p.2.1 + p.2.2 ≤ r.subLo || r.subHi < p.2.1

theorem objDefault_eq_zero {idx sub : Nat} (hidx : rowDefaults idx = true) (hsub : sub < 256)
    (hrow : ∀ r, objRow? idx sub = some r → r.dflt = 0) : objDefault (objKey idx sub) = 0 := by
  have hkey : objKey idx sub / 256 = idx ∧ objKey idx sub % 256 = sub := by
    unfold objKey
    omega
  simp only [rowDefaults, Bool.and_eq_true, decide_eq_true_eq, Bool.not_eq_true', List.contains_eq_mem,
    decide_eq_false_iff_not, List.mem_cons, List.not_mem_nil, or_false, not_or] at hidx
  obtain ⟨⟨hlo, hhi⟩, h2200, h2501, h2820, h2a01⟩ := hidx
  unfold objDefault
  simp only [hkey.1, hkey.2]
  repeat rw [if_neg (by omega)]
  split
  · exact hrow _ ‹_›
  · rfl

theorem spanZero_fits {p : Span} (hp : spanZero p = true) : p.2.1 + p.2.2 ≤ 256 := by
  simp only [spanZero, Bool.and_eq_true, decide_eq_true_eq] at hp
  obtain ⟨⟨hfits, -⟩, -⟩ := hp
  exact hfits

/-- A row that names an object of the span meets the span, so its default is 0. -/
theorem objDefault_of_spanZero {p : Span} (hp : spanZero p = true) {sub : Nat} (hlo : p.2.1 ≤ sub)
    (hhi : sub < p.2.1 + p.2.2) : objDefault (objKey p.1 sub) = 0 := by
  have hfits := spanZero_fits hp
  simp only [spanZero, Bool.and_eq_true] at hp
  obtain ⟨⟨-, hidx⟩, hrows⟩ := hp
  refine objDefault_eq_zero hidx (by omega) fun r hrow => ?_
  have hnames : r.names p.1 sub = true := by
    unfold objRow? at hrow
    exact List.find?_some (p := fun r : ObjRow => r.names p.1 sub) hrow
  have hmeets := List.all_eq_true.mp hrows r (List.mem_of_find?_eq_some hrow)
  simp only [ObjRow.names, Bool.and_eq_true, Bool.or_eq_true, Bool.not_eq_true', Bool.and_eq_false_iff,
    decide_eq_true_eq, decide_eq_false_iff_not, beq_iff_eq] at hnames hmeets
  omega

theorem clearStatsAt_eq_clearSpans (s : State) (idx m lo n : Nat) :
    clearStatsAt s idx m lo n = clearSpans s (spansAt idx m lo n) := by
  unfold clearStatsAt clearSpans spansAt
  rw [List.foldl_map]

theorem clearSpans_append (s : State) (a b : List Span) : clearSpans s (a ++ b) = clearSpans (clearSpans s a) b :=
  List.foldl_append ..

theorem clearSpans_frame (s : State) (spans : List Span) : Frame [.stats] s (clearSpans s spans) :=
  Frame.foldl (fun x (p : Span) => clearStats_frame x p.1 p.2.1 p.2.2) (Frame.refl _ s)

theorem stat_clearStats_of_mem {p : Span} (hp : spanZero p = true) (s : State) {idx sub : Nat}
    (h : p.1 = idx ∧ p.2.1 ≤ sub ∧ sub < p.2.1 + p.2.2) : stat (clearStats s p.1 p.2.1 p.2.2) idx sub = 0 := by
  obtain ⟨rfl, hlo, hhi⟩ := h
  rw [stat_clearStats, if_pos (by unfold objKey; omega), objDefault_of_spanZero hp hlo hhi]

theorem stat_clearStats_of_not_mem {p : Span} (hp : spanZero p = true) (s : State) {idx sub : Nat} (hsub : sub < 256)
    (h : ¬ (p.1 = idx ∧ p.2.1 ≤ sub ∧ sub < p.2.1 + p.2.2)) :
    stat (clearStats s p.1 p.2.1 p.2.2) idx sub = stat s idx sub := by
  have hfits := spanZero_fits hp
  rw [stat_clearStats, if_neg (by unfold objKey; omega)]

/-- A pass of clears zeroes the objects of its spans and leaves every other statistic. -/
theorem cleared_clearSpans {spans : List Span} (h : spans.all spanZero = true) (s : State) :
    Cleared spans s (clearSpans s spans) := by
  induction spans using List.reverseRecOn with
  | nil => exact ⟨fun _ _ ⟨_, hp, _⟩ => absurd hp List.not_mem_nil, fun _ _ _ _ => rfl⟩
  | append_singleton spans p ih =>
    rw [List.all_append, Bool.and_eq_true] at h
    obtain ⟨hinit, hlast⟩ := h
    have hp : spanZero p = true := by simpa using hlast
    obtain ⟨hzero, hkept⟩ := ih hinit
    rw [clearSpans_append]
    refine ⟨fun idx sub hin => ?_, fun idx sub hsub hout => ?_⟩
    · by_cases hmem : p.1 = idx ∧ p.2.1 ≤ sub ∧ sub < p.2.1 + p.2.2
      · exact stat_clearStats_of_mem hp _ hmem
      · obtain ⟨q, hq, hin⟩ := hin
        rcases List.mem_append.mp hq with hq | hq
        · have hfits : sub < 256 := by
            have hq' := spanZero_fits (List.all_eq_true.mp hinit q hq)
            omega
          exact (stat_clearStats_of_not_mem hp _ hfits hmem).trans (hzero idx sub ⟨q, hq, hin⟩)
        · exact absurd (List.mem_singleton.mp hq ▸ hin) hmem
    · have hmem : ¬ (p.1 = idx ∧ p.2.1 ≤ sub ∧ sub < p.2.1 + p.2.2) :=
        fun hin => hout ⟨p, List.mem_append_right _ (List.mem_singleton_self p), hin⟩
      have hrest : ¬ InSpans spans idx sub := fun ⟨q, hq, hin⟩ => hout ⟨q, List.mem_append_left _ hq, hin⟩
      exact (stat_clearStats_of_not_mem hp _ hsub hmem).trans (hkept idx sub hsub hrest)

theorem Cleared.of_perm {a b : List Span} {s t : State} (h : Cleared a s t) (hab : a.Perm b) : Cleared b s t := by
  have hmem : ∀ idx sub, InSpans b idx sub ↔ InSpans a idx sub := fun idx sub =>
    exists_congr fun p => and_congr_left' hab.mem_iff.symm
  exact ⟨fun idx sub hb => h.1 idx sub ((hmem idx sub).mp hb),
    fun idx sub hsub hb => h.2 idx sub hsub fun ha => hb ((hmem idx sub).mpr ha)⟩

/-- A request whose effect is a pass of clears, in any order of the spans, is served. -/
theorem serves_clearSpans {c : Instr} {via : Via} {idx sub : Nat} {eff : State → State} {order spans : List Span}
    (hexec : ∀ s, exec c s = .next (served s via idx sub [1] fun _ s => .ok (eff s)))
    (heff : ∀ s, eff s = clearSpans s order) (hfits : writeFits .operator idx sub [1] = true)
    (hzero : order.all spanZero = true) (hperm : order.Perm spans) :
    Serves c via .operator [.stats] (fun _ _ => True) (fun _ s t => Cleared spans s t) := by
  intro s n s' hready _
  refine ⟨clearSpans s' order, ?_, clearSpans_frame s' order, (cleared_clearSpans hzero s').of_perm hperm⟩
  rw [hexec, served_ready hready hfits rfl, heff]

/-! ### The clears as passes (R58, R112, R154, R179, R208, R231, R258, R274) -/

@[simp] theorem clearSpans_nil (s : State) : clearSpans s [] = s := rfl

@[simp] theorem clearSpans_cons (s : State) (p : Span) (spans : List Span) :
    clearSpans s (p :: spans) = clearSpans (clearStats s p.1 p.2.1 p.2.2) spans := rfl

theorem codecClear_eq_clearSpans (s : State) :
    codecClear s = clearSpans s ((0x2100, 1, 14) :: spansAt 0x2110 8 1 14 ++ [(0x2120, 1, 64), (0x2121, 1, 64)]) := by
  simp only [codecClear, clearStatsAt_eq_clearSpans, clearSpans_append, clearSpans_cons, clearSpans_nil]

theorem easelClear_eq_clearSpans (s : State) : easelClear s = clearSpans s [(0x2310, 1, 0x11), (0x2310, 0x14, 1)] := by
  simp only [easelClear, clearSpans_cons, clearSpans_nil]

theorem paletteClear_eq_clearSpans (s : State) : paletteClear s = clearSpans s [(0x2510, 1, 12)] := by
  simp only [paletteClear, clearSpans_cons, clearSpans_nil]

theorem monitorClear_eq_clearSpans (s : State) :
    monitorClear s = clearSpans s ((0x2600, 6, 4) :: spansAt 0x2610 4 1 12 ++ spansAt 0x2620 4 1 16) := by
  simp only [monitorClear, clearStatsAt_eq_clearSpans, clearSpans_append, clearSpans_cons]

theorem cryptClear_eq_clearSpans (s : State) : cryptClear s = clearSpans s [(0x2700, 7, 4)] := by
  simp only [cryptClear, clearSpans_cons, clearSpans_nil]

theorem glazeClear_eq_clearSpans (s : State) : glazeClear s = clearSpans s [(0x2780, 7, 4)] := by
  simp only [glazeClear, clearSpans_cons, clearSpans_nil]

theorem retouchClear_eq_clearSpans (s : State) :
    retouchClear s = clearSpans s (spansAt 0x2810 8 6 5 ++ spansAt 0x2810 8 0x0C 1) := by
  simp only [retouchClear, clearStatsAt_eq_clearSpans, clearSpans_append]

theorem channelClear_eq_clearSpans (s : State) : channelClear s = clearSpans s (spansAt 0x2915 7 1 64) := by
  simp only [channelClear, clearStatsAt_eq_clearSpans]

theorem arbiterClear_eq_clearSpans (s : State) : arbiterClear s = clearSpans s (spansAt 0x2A10 8 1 0x11) := by
  simp only [arbiterClear, clearStatsAt_eq_clearSpans]

theorem serves_codecStatisticsClear (via : Via) :
    Serves (.codecStatisticsClear via) via .operator [.stats] (fun _ _ => True)
      (fun _ s t => Cleared ((0x2100, 1, 14) :: (0x2120, 1, 64) :: (0x2121, 1, 64) :: spansAt 0x2110 8 1 14) s t) :=
  serves_clearSpans (eff := codecClear) (fun _ => rfl) codecClear_eq_clearSpans (by decide +kernel) (by decide +kernel)
    (by decide +kernel)

theorem serves_easelStatisticsClear (via : Via) :
    Serves (.easelStatisticsClear via) via .operator [.stats] (fun _ _ => True)
      (fun _ s t => Cleared [(0x2310, 1, 0x11), (0x2310, 0x14, 1)] s t) :=
  serves_clearSpans (eff := easelClear) (fun _ => rfl) easelClear_eq_clearSpans (by decide +kernel) (by decide +kernel)
    (.refl _)

theorem serves_paletteStatisticsClear (via : Via) :
    Serves (.paletteStatisticsClear via) via .operator [.stats] (fun _ _ => True)
      (fun _ s t => Cleared [(0x2510, 1, 12)] s t) :=
  serves_clearSpans (eff := paletteClear) (fun _ => rfl) paletteClear_eq_clearSpans (by decide +kernel) (by decide +kernel)
    (.refl _)

theorem serves_monitorClear (via : Via) :
    Serves (.monitorClear via) via .operator [.stats] (fun _ _ => True)
      (fun _ s t => Cleared ((0x2600, 6, 4) :: spansAt 0x2610 4 1 12 ++ spansAt 0x2620 4 1 16) s t) :=
  serves_clearSpans (eff := monitorClear) (fun _ => rfl) monitorClear_eq_clearSpans (by decide +kernel) (by decide +kernel)
    (.refl _)

theorem serves_encryptionStatisticsClear (via : Via) :
    Serves (.encryptionStatisticsClear via) via .operator [.stats] (fun _ _ => True)
      (fun _ s t => Cleared [(0x2700, 7, 4)] s t) :=
  serves_clearSpans (eff := cryptClear) (fun _ => rfl) cryptClear_eq_clearSpans (by decide +kernel) (by decide +kernel)
    (.refl _)

theorem serves_glazeStatisticsClear (via : Via) :
    Serves (.glazeStatisticsClear via) via .operator [.stats] (fun _ _ => True)
      (fun _ s t => Cleared [(0x2780, 7, 4)] s t) :=
  serves_clearSpans (eff := glazeClear) (fun _ => rfl) glazeClear_eq_clearSpans (by decide +kernel) (by decide +kernel)
    (.refl _)

theorem serves_retouchStatisticsClear (via : Via) :
    Serves (.retouchStatisticsClear via) via .operator [.stats] (fun _ _ => True)
      (fun _ s t => Cleared (spansAt 0x2810 8 6 5 ++ spansAt 0x2810 8 0x0C 1) s t) :=
  serves_clearSpans (eff := retouchClear) (fun _ => rfl) retouchClear_eq_clearSpans (by decide +kernel) (by decide +kernel)
    (.refl _)

theorem serves_channelStatisticsClear (via : Via) :
    Serves (.channelStatisticsClear via) via .operator [.stats] (fun _ _ => True)
      (fun _ s t => Cleared (spansAt 0x2915 7 1 64) s t) :=
  serves_clearSpans (eff := channelClear) (fun _ => rfl) channelClear_eq_clearSpans (by decide +kernel) (by decide +kernel)
    (.refl _)

theorem serves_arbiterStatisticsClear (via : Via) :
    Serves (.arbiterStatisticsClear via) via .operator [.stats] (fun _ _ => True)
      (fun _ s t => Cleared (spansAt 0x2A10 8 1 0x11) s t) :=
  serves_clearSpans (eff := arbiterClear) (fun _ => rfl) arbiterClear_eq_clearSpans (by decide +kernel) (by decide +kernel)
    (.refl _)

/-- Settles O1: every clear is a pass over its spans (`serves_clearSpans`). -/
theorem statisticsClearsOfTheDataPath : Obligations.StatisticsClearsOfTheDataPath := fun via =>
  ⟨serves_codecStatisticsClear via, serves_easelStatisticsClear via, serves_paletteStatisticsClear via, serves_monitorClear via,
    serves_encryptionStatisticsClear via, serves_glazeStatisticsClear via, serves_retouchStatisticsClear via,
    serves_channelStatisticsClear via, serves_arbiterStatisticsClear via⟩

end Sys2Proof.Machine
end

section
/-! Held writes (O33): a take-in also tries again every partial write that waits for a merge entry (R96), and one that finds no room
in its share now joins the writes its port holds. -/
namespace Sys2Proof.Machine

/-- A device in service whose port 0 has room for one tile in its share. Its full write of line 64 is held; its partial write of
line 65 found no merge entry free and waits for one, which has become free since with the line that held it, as where a tag is lost
(R106). -/
def heldBesideMerge : State :=
  { freedMergeEntry with
    reserve := { freedMergeEntry.reserve with portShare := [(0, 1)], portCharge := [] }
    ports := [(0, { held := [writeOfLine64] })]
    easel := { mergeWait := [{ line := 65, who := .host 0 8, port := 0, mask := 1#64, data := 0xFF#512, seq := 1 }] } }

theorem heldBesideMerge_unfenced : ∀ v ∈ (portOf heldBesideMerge 0).held, lineFenced heldBesideMerge v.line = false := by
  decide +kernel

/-- The held write can be taken in. -/
theorem heldBesideMerge_ready :
    (portOf heldBesideMerge 0).held.find? (fun w => !heldBefore heldBesideMerge w.line w.seq &&
      (match takeIn heldBesideMerge w with
        | .done _ _ => true
        | .held _ => false)) = some writeOfLine64 := by
  decide +kernel

/-- The take-in leaves port 0 holding the partial write, for which its share has no room. -/
theorem heldTakeIn_holds_merge : ((portOf (heldTakeIn heldBesideMerge 0) 0).held.map (·.line)) = [65] := by
  decide +kernel

/-- Refutes O33 in its clause on held writes: the take-in of a held write also lets a partial write that waited for a merge entry
try again (R96); its share full now, that write is held (R93), so the port holds a write that it did not hold before. -/
theorem not_selections : ¬ Obligations.Selections := by
  rintro ⟨-, -, hheld, -⟩
  obtain ⟨htaken, -⟩ := hheld 0 writeOfLine64
  obtain ⟨t, hexec, -, hrest⟩ := htaken heldBesideMerge ⟨heldBesideMerge_unfenced, heldBesideMerge_ready⟩
  obtain rfl : heldTakeIn heldBesideMerge 0 = t := Host.Outcome.next.inj hexec
  have hempty : (portOf heldBesideMerge 0).held.filter (fun v => v.seq != writeOfLine64.seq) = [] := rfl
  have hline := heldTakeIn_holds_merge
  rw [show (portOf (heldTakeIn heldBesideMerge 0) 0).held = [] from hrest.trans hempty] at hline
  exact List.cons_ne_nil _ _ hline.symm

end Sys2Proof.Machine
end

section
/-! What the program of a tile leaves behind (R32, R35, R46): the patches of the medium, and the device state outside Varnish. -/
namespace Sys2Proof.Machine

theorem patchKey_inj {c d a b : Nat} (ha : a < 2 ^ 35) (hb : b < 2 ^ 35) (h : patchKey c a = patchKey d b) :
    c = d ∧ a = b := by
  unfold patchKey at h
  omega

/-- The program of one column of a codeword (R35, R46). -/
def columnStored (g : Nat) (addrs : List Nat) (code : List Byte) (s : State) (c : Nat) : State :=
  bump (storePatch s (8 * g + c) (addrs.getD c 0) (patchOfSymbols code c)) 0x2916 (8 * g + c + 1) 1

theorem storeColumns_eq_foldl (s : State) (g : Nat) (addrs : List Nat) (code : List Byte) (cols : List Nat) :
    storeColumns s g addrs code cols = countProgram (cols.foldl (columnStored g addrs code) s) g := rfl

theorem columnStored_frame (g : Nat) (addrs : List Nat) (code : List Byte) (s : State) (c : Nat) :
    Frame [.path, .stats] s (columnStored g addrs code s c) :=
  Frame.step (bump_frame _ _ _ _) (Frame.step (storePatch_frame s _ _ _) (.refl _ s) rfl) rfl

theorem columnsStored_frame (g : Nat) (addrs : List Nat) (code : List Byte) (s : State) (cols : List Nat) :
    Frame [.path, .stats] s (cols.foldl (columnStored g addrs code) s) :=
  Frame.foldl (columnStored_frame g addrs code) (.refl _ s)

theorem countProgram_path (s : State) (g : Nat) : (countProgram s g).path = s.path :=
  (countProgram_frame s g).path_eq (by decide)

theorem medium_columnStored (g : Nat) (addrs : List Nat) (code : List Byte) (s : State) (c k : Nat) :
    tabGet dPatch (columnStored g addrs code s c).path.medium k =
      if k = patchKey (8 * g + c) (addrs.getD c 0) then patchOfSymbols code c else tabGet dPatch s.path.medium k := by
  unfold columnStored
  rw [bump_path]
  unfold storePatch
  dsimp only
  rw [tabGet_set]

/-- The columns of a list hold their patches of the codeword, and no other patch has changed. -/
theorem medium_columnsStored {g : Nat} {addrs cols : List Nat} (code : List Byte) (hcols : ∀ c ∈ cols, c < 8)
    (haddrs : ∀ c, c < 8 → addrs.getD c 0 < 2 ^ 35) (s : State) {ch a : Nat} (ha : a < 2 ^ 35) :
    tabGet dPatch (cols.foldl (columnStored g addrs code) s).path.medium (patchKey ch a) =
      if ch / 8 = g ∧ a = addrs.getD (ch % 8) 0 ∧ ch % 8 ∈ cols then patchOfSymbols code (ch % 8)
      else tabGet dPatch s.path.medium (patchKey ch a) := by
  induction cols generalizing s with
  | nil => simp
  | cons c cols ih =>
    obtain ⟨hc, hrest⟩ := List.forall_mem_cons.mp hcols
    rw [List.foldl_cons, ih hrest, medium_columnStored]
    by_cases hkey : patchKey ch a = patchKey (8 * g + c) (addrs.getD c 0)
    · obtain ⟨rfl, rfl⟩ := patchKey_inj ha (haddrs c hc) hkey
      have hcol : (8 * g + c) % 8 = c := by omega
      have hgroup : (8 * g + c) / 8 = g := by omega
      simp [hcol, hgroup]
    · have hother : ¬ (ch / 8 = g ∧ a = addrs.getD (ch % 8) 0 ∧ ch % 8 = c) := by
        rintro ⟨rfl, rfl, rfl⟩
        exact hkey (by rw [Nat.div_add_mod])
      rw [if_neg hkey]
      refine if_congr ?_ rfl rfl
      rw [List.mem_cons]
      tauto

theorem medium_storeColumns {g : Nat} {addrs cols : List Nat} (code : List Byte) (hcols : ∀ c ∈ cols, c < 8)
    (haddrs : ∀ c, c < 8 → addrs.getD c 0 < 2 ^ 35) (s : State) {ch a : Nat} (ha : a < 2 ^ 35) :
    tabGet dPatch (storeColumns s g addrs code cols).path.medium (patchKey ch a) =
      if ch / 8 = g ∧ a = addrs.getD (ch % 8) 0 ∧ ch % 8 ∈ cols then patchOfSymbols code (ch % 8)
      else tabGet dPatch s.path.medium (patchKey ch a) := by
  rw [storeColumns_eq_foldl, countProgram_path]
  exact medium_columnsStored code hcols haddrs s ha

theorem programAt_path {s : State} {pl : Place} (h : placeFenced s pl = false) (code : List Byte) :
    (programAt s pl code).path =
      (storeColumns s pl.group pl.addrs code
        ((List.range 8).filter fun c => !(erasedColumns s pl.group pl.slot).contains c)).path := by
  unfold programAt
  rw [if_neg (by simp [h])]
  exact ((modGroup_frame _ _ _).path_eq (by decide)).trans ((filterMark_frame _ _ _ _).path_eq (by decide))

/-- A program at a place that is not fenced puts every column that is not erased into the medium, and nothing else (R46, R54). -/
theorem medium_programAt {s : State} {pl : Place} (hfence : placeFenced s pl = false)
    (haddrs : ∀ c, c < 8 → pl.addrs.getD c 0 < 2 ^ 35) (code : List Byte) {ch a : Nat} (ha : a < 2 ^ 35) :
    tabGet dPatch (programAt s pl code).path.medium (patchKey ch a) =
      if ch / 8 = pl.group ∧ a = pl.addrs.getD (ch % 8) 0 ∧ ch % 8 ∉ erasedColumns s pl.group pl.slot then
        patchOfSymbols code (ch % 8)
      else tabGet dPatch s.path.medium (patchKey ch a) := by
  rw [programAt_path hfence, medium_storeColumns code (fun c hc => List.mem_range.mp (List.mem_filter.mp hc).1) haddrs s ha]
  have hcol : ch % 8 < 8 := Nat.mod_lt _ (by decide)
  refine if_congr ?_ rfl rfl
  simp [hcol]

theorem programTile_path (s : State) (pl : Place) (code : List Byte) :
    (programTile s pl code).path = (programAt s pl code).path := by
  unfold programTile
  dsimp only
  split
  · exact (Frame.ite (regionWrite_frame _ _ _) (.refl _ _)).path_eq (by decide)
  · rfl

/-! ### Outside Varnish a program leaves the device state (R374) -/

theorem storeColumns_sys {s : State} (h : s.sys.dev ≠ .varnish) (g : Nat) (addrs : List Nat) (code : List Byte)
    (cols : List Nat) : (storeColumns s g addrs code cols).sys = s.sys := by
  have hcols := (columnsStored_frame g addrs code s cols).sys_eq (by decide)
  rw [storeColumns_eq_foldl, countProgram_sys (by rwa [hcols]), hcols]

theorem programAt_sys {s : State} (h : s.sys.dev ≠ .varnish) (pl : Place) (code : List Byte) :
    (programAt s pl code).sys = s.sys := by
  unfold programAt
  split
  · rfl
  · exact ((modGroup_frame _ _ _).sys_eq (by decide)).trans
      (((filterMark_frame _ _ _ _).sys_eq (by decide)).trans (storeColumns_sys h _ _ _ _))

theorem programTile_sys {s : State} (h : s.sys.dev ≠ .varnish) (pl : Place) (code : List Byte) :
    (programTile s pl code).sys = s.sys := by
  unfold programTile
  dsimp only
  split
  · exact ((Frame.ite (regionWrite_frame _ _ _) (.refl _ _)).sys_eq (by decide)).trans (programAt_sys h pl code)
  · exact programAt_sys h pl code

end Sys2Proof.Machine
end

section
/-! Where tiles lie (R59, R64, R82): what the place of a tile and of a line is read from. -/
namespace Sys2Proof.Machine

/-- Two states read the slots of every region alike: the same power, failed channels, medium, mapping and Palette, and for each group
the same type, region states, rebuild and stale column. -/
structure SameSlots (s t : State) : Prop where
  power : t.power = s.power
  failed : ∀ ch, (channelOf t ch).failed = (channelOf s ch).failed
  path : t.path = s.path
  palette : t.palette = s.palette
  typ : ∀ g, (groupOf t g).typ = (groupOf s g).typ
  regions : ∀ g, (groupOf t g).regions = (groupOf s g).regions
  rebuild : ∀ g, (groupOf t g).rebuild = (groupOf s g).rebuild
  stale : ∀ g, (groupOf t g).stale = (groupOf s g).stale

/-- A change that leaves the groups and what they are read with leaves every slot. -/
theorem Frame.sameSlots {U : List UnitName} {s t : State} (h : Frame U s t) (hgroups : .groups ∉ U) (hpower : .power ∉ U)
    (hchannels : .channels ∉ U) (hpath : .path ∉ U) (hpalette : .palette ∉ U) : SameSlots s t where
  power := h.power_eq hpower
  failed ch := by rw [h.channelOf hchannels]
  path := h.path_eq hpath
  palette := h .palette hpalette
  typ g := by rw [h.groupOf hgroups]
  regions g := by rw [h.groupOf hgroups]
  rebuild g := by rw [h.groupOf hgroups]
  stale g := by rw [h.groupOf hgroups]

/-- A change of what a group keeps beside its type, its region states, its rebuild and its stale column leaves every slot. -/
theorem modGroup_sameSlots {f : GroupRec → GroupRec} (htyp : ∀ x, (f x).typ = x.typ) (hregions : ∀ x, (f x).regions = x.regions)
    (hrebuild : ∀ x, (f x).rebuild = x.rebuild) (hstale : ∀ x, (f x).stale = x.stale) (s : State) (g : Nat) :
    SameSlots s (modGroup s g f) where
  power := rfl
  failed _ := rfl
  path := rfl
  palette := rfl
  typ h := by rw [groupOf_modGroup]; split <;> simp_all
  regions h := by rw [groupOf_modGroup]; split <;> simp_all
  rebuild h := by rw [groupOf_modGroup]; split <;> simp_all
  stale h := by rw [groupOf_modGroup]; split <;> simp_all

section
variable {s t : State} (h : SameSlots s t)
include h

theorem SameSlots.regionOf (g p : Nat) : regionOf t g p = regionOf s g p := by
  unfold Machine.regionOf
  rw [h.regions]

theorem SameSlots.erasedColumns (g : Nat) (at? : Option (Nat × Nat)) : erasedColumns t g at? = erasedColumns s g at? := by
  unfold Machine.erasedColumns columnLost domainOf
  simp only [h.power, h.failed, h.rebuild, h.stale, h.regionOf]

theorem SameSlots.regionBase (g p : Nat) : regionBase t g p = regionBase s g p := by
  unfold Machine.regionBase regionArea
  rw [h.typ]

theorem SameSlots.paletteData (x : TileId) : paletteData t x = paletteData s x := by
  unfold Machine.paletteData paletteFind
  rw [h.palette]

theorem SameSlots.slotIn (g p x : Nat) : slotIn t g p x = slotIn s g p x := by
  unfold Machine.slotIn
  rw [h.path, h.regionOf]

theorem SameSlots.remapPayload (g p k : Nat) : remapPayload t g p k = remapPayload s g p k := by
  unfold Machine.remapPayload
  simp only [h.paletteData, h.erasedColumns, decodeAt_congr h.path]

theorem SameSlots.slotAddrs (g p slot : Nat) : slotAddrs t g p slot = slotAddrs s g p slot := by
  unfold Machine.slotAddrs spareBase
  simp only [h.regionBase, h.regionOf, h.remapPayload, h.typ]

theorem SameSlots.placeSlot (g p slot : Nat) : placeSlot t g p slot = placeSlot s g p slot := by
  unfold Machine.placeSlot
  rw [h.slotAddrs]

theorem SameSlots.remapReady (pl : Place) : remapReady t pl = remapReady s pl := by
  unfold Machine.remapReady
  simp only [h.regionOf, h.paletteData]

/-- The same mapping of the same groups puts every tile at the same place. -/
theorem SameSlots.placeOf (hgroups : t.groups = s.groups) (x : TileId) : placeOf t x = placeOf s x := by
  have hgroup (g : Nat) : Machine.groupOf t g = Machine.groupOf s g := by
    unfold Machine.groupOf
    rw [hgroups]
  have hindex (x : TileId) : tileIndex t x = tileIndex s x := by
    unfold tileIndex hostCount
    simp only [h.path, h.typ]
  have hidx (g i : Nat) : placeIdx t g i = placeIdx s g i := by
    unfold placeIdx regionFor
    simp only [hgroup, h.slotIn]
  unfold Machine.placeOf
  simp only [hindex, hidx, h.placeSlot]

theorem SameSlots.linePlace (hgroups : t.groups = s.groups) (hsys : t.sys = s.sys) (hcrypt : t.crypt = s.crypt)
    (line : Nat) : linePlace t line = linePlace s line := by
  unfold Machine.linePlace scratchPlace poolEnd
  rw [ephemeralState_congr hsys hcrypt, h.placeOf hgroups, hsys]
  simp only [h.typ]

end

end Sys2Proof.Machine
end

section
/-! Selections of lines for destage (R100), and the completion of writes that wait (R93, R94, R163). -/
namespace Sys2Proof.Machine

/-! ### A selection sets or clears Q, and changes nothing else of a line (R100) -/

/-- The Easels differ at most in the Q of their lines and in the rows that writes of tag words nominated (R105). -/
structure Selects (s t : State) : Prop where
  easel : t.easel = { s.easel with lines := t.easel.lines, rowsDue := t.easel.rowsDue, mirrorBad := t.easel.mirrorBad }
  lines : ∀ q, easelLine t q = { easelLine s q with queued := (easelLine t q).queued }

theorem Selects.of_easel_eq {s t : State} (h : t.easel = s.easel) : Selects s t :=
  ⟨by rw [h], fun q => by unfold easelLine; rw [h]⟩

theorem Selects.refl (s : State) : Selects s s := .of_easel_eq rfl

theorem Selects.trans {s t r : State} (h : Selects s t) (k : Selects t r) : Selects s r :=
  ⟨by rw [k.easel, h.easel], fun q => by rw [k.lines q, h.lines q]⟩

theorem Selects.foldl {α : Type} {f : State → α → State} (hf : ∀ s a, Selects s (f s a)) (l : List α) (s : State) :
    Selects s (l.foldl f s) :=
  List.foldlRecOn (motive := fun x => Selects s x) l f (.refl s) fun _ hx a _ => hx.trans (hf _ a)

theorem setQueued_selects (s : State) (p : Nat) (on : Bool) : Selects s (setQueued s p on) := by
  refine ⟨rfl, fun q => ?_⟩
  unfold setQueued
  rw [easelLine_modLine]
  split
  case isTrue h => rw [h]
  case isFalse => rfl

theorem destageSelect_selects (s : State) (cls sub p : Nat) : Selects s (destageSelect s cls sub p) := by
  have hgroup (x : State) (g : Nat) (f : GroupRec → GroupRec) : Selects x (modGroup x g f) := .of_easel_eq rfl
  have hcount : Selects s (if sub = 0 then s else bump s 0x2310 sub 1) :=
    .of_easel_eq ((Frame.ite (.refl [.stats] s) (bump_frame s _ _ _)).easel_eq (by decide))
  unfold destageSelect
  dsimp only
  split
  · exact .refl s
  · split
    · split
      · exact hgroup _ _ _
      · exact .refl s
    · split
      · exact .refl s
      · split
        · exact hcount.trans ((hgroup _ _ _).trans (setQueued_selects _ _ _))
        · split
          · split
            · split
              · exact hcount.trans ((hgroup _ _ _).trans (setQueued_selects _ _ _))
              · exact hcount.trans ((setQueued_selects _ _ _).trans ((hgroup _ _ _).trans (setQueued_selects _ _ _)))
            · exact .refl s
          · exact .refl s

theorem reselectFlush_selects (s : State) : Selects s (reselectFlush s) := by
  unfold reselectFlush
  split
  · refine Selects.foldl (fun x e => ?_) _ s
    dsimp only
    split
    · exact destageSelect_selects x 4 0 e.1
    · exact .refl x
  · exact .refl s

/-! ### Writes that wait for nothing more (R93, R94, R163) -/

theorem monitorWrite_out_suffix (s : State) (p line lat : Nat) (warm through snooped isSealed : Bool) :
    s.out <:+ (monitorWrite s p line lat warm through snooped isSealed).out := by
  unfold monitorWrite
  dsimp only
  split
  · refine List.IsSuffix.trans ?_ (overThreshold_out_suffix _ _ _ _ _ _ _)
    rw [(perfCount_frame _ _ _ _).out_eq (by decide), maxStat_out, bump_out, bump_out]
  · refine List.IsSuffix.trans ?_ (overThreshold_out_suffix _ _ _ _ _ _ _)
    rw [maxStat_out, bump_out]

theorem deliverAck_host {s : State} {a : AckWait} {p tag : Nat} (ha : a.who = .host p tag) :
    ∃ x, s.out <:+ x.out ∧ deliverAck s a = settleConflict (emit x (.ack (Fin.ofNat 4 p) tag (devLoad x p))) p a.line := by
  unfold deliverAck
  rw [ha]
  refine ⟨_, ?_, rfl⟩
  have hflag : s.out <:+ (if a.through then flagSample s (.host p tag) 15 else s).out :=
    (Frame.ite (flagSample_frame s _ _) (.refl _ s)).out_suffix (by decide)
  have hspare (x : State) : x.out <:+ (if a.through && a.spare then bump x 0x2600 8 1 else x).out :=
    (Frame.ite (bump_frame x _ _ _) (.refl _ x)).out_suffix (by decide)
  exact hflag.trans (((sampleDone_frame _ _ _).out_suffix (by decide)).trans
    ((monitorWrite_out_suffix _ _ _ _ _ _ _ _).trans (hspare _)))

theorem deliverAck_out_suffix (s : State) (a : AckWait) : s.out <:+ (deliverAck s a).out := by
  cases ha : a.who with
  | host p tag =>
    obtain ⟨x, hx, hdeliver⟩ := deliverAck_host (s := s) ha
    rw [hdeliver]
    exact hx.trans ((emit_out_suffix x _).trans (settleConflict_out_suffix _ _ _))
  | barrow c load beat =>
    unfold deliverAck
    rw [ha]
    exact (modBarrow_frame s _ _).out_suffix (by decide)
  | scan p =>
    unfold deliverAck
    rw [ha]
  | clear p =>
    unfold deliverAck
    rw [ha]

theorem ack_mem_deliverAck {a : AckWait} {p tag : Nat} (ha : a.who = .host p tag) (s : State) :
    ∃ load, Output.ack (Fin.ofNat 4 p) tag load ∈ (deliverAck s a).out := by
  obtain ⟨x, -, hdeliver⟩ := deliverAck_host (s := s) ha
  rw [hdeliver]
  exact ⟨_, (settleConflict_out_suffix _ _ _).subset List.mem_cons_self⟩

theorem ack_mem_deliverAcks {as : List AckWait} {a : AckWait} {p tag : Nat} (hmem : a ∈ as) (ha : a.who = .host p tag)
    (s : State) : ∃ load, Output.ack (Fin.ofNat 4 p) tag load ∈ (as.foldl deliverAck s).out := by
  obtain ⟨before, after, rfl⟩ := List.append_of_mem hmem
  rw [List.foldl_append, List.foldl_cons]
  obtain ⟨load, hload⟩ := ack_mem_deliverAck ha (before.foldl deliverAck s)
  have hlater (x : State) : x.out <:+ (after.foldl deliverAck x).out :=
    List.foldlRecOn (motive := fun t => x.out <:+ t.out) after _ List.suffix_rfl fun t ht b _ =>
      ht.trans (deliverAck_out_suffix t b)
  exact ⟨load, (hlater _).subset hload⟩

/-- A host write that waits for nothing more is acknowledged (R93). -/
theorem settleAcks_acks {s : State} {a : AckWait} {p tag : Nat} (hmem : a ∈ s.easel.acks) (hdestage : a.destage = false)
    (hcounter : a.counter = none) (hsnoop : a.snoop = false) (ha : a.who = .host p tag) :
    ∃ load, Output.ack (Fin.ofNat 4 p) tag load ∈ (settleAcks s).out :=
  ack_mem_deliverAcks (List.mem_filter.mpr ⟨hmem, by simp [hdestage, hcounter, hsnoop]⟩) ha _

theorem settleAcks_lines (s : State) : (settleAcks s).easel.lines = s.easel.lines := by
  have hdeliver (as : List AckWait) (x : State) : (as.foldl deliverAck x).easel = x.easel :=
    (Frame.foldl deliverAck_frame (.refl _ x)).easel_eq (by decide)
  unfold settleAcks
  dsimp only
  rw [hdeliver]

end Sys2Proof.Machine
end

section
/-! Destages, from the grant to the completion (O32, R101). -/
namespace Sys2Proof.Machine

/-! ### The grant of an unsealed line (R101, R189) -/

/-- The version a destage of a line with a known version writes (R189). -/
def nextVersion (s : State) (p : Nat) : Nat :=
  ((easelLine s p).version + 1) % 2 ^ 24

/-- The program of an unsealed line's destage (R101). -/
def grantRecord (s : State) (p : Nat) : DestageRec :=
  { place := p, line := placeLine s p, version := nextVersion s p,
    code := lineCode s (lineKey s (placeLine s p)) (placeLine s p) 0 (nextVersion s p) (easelLine s p).data,
    through := (s.easel.acks.filter fun a => a.line == placeLine s p && a.destage).head?.map (·.arrival) }

/-- The line copied: F is set, W and Q are cleared (R101). -/
def copiedLine (x : EaselLine) : EaselLine :=
  { x with flight := true, written := false, queued := false }

/-- A line that a grant takes without a counter: unsealed, good, with a known version (R189). -/
structure PlainGrant (s : State) (p : Nat) : Prop where
  unsealed : sealedLine s (placeLine s p) = false
  lasting : ephemeralState s = false
  good : (easelLine s p).poison = false
  known : (easelLine s p).vk = true

theorem PlainGrant.destageTile {s : State} {p : Nat} (h : PlainGrant s p) :
    destageTile s p = (s, (grantRecord s p).code, nextVersion s p) := by
  unfold Machine.destageTile
  simp only [h.unsealed, h.lasting, h.good, h.known]
  rfl

/-- The state after a grant of an unsealed line, but for the stamps of samples. -/
def granted (s : State) (p : Nat) (crypt : Crypt) (flush : List (Nat × Bool)) (acks : List AckWait) : State :=
  let x := modLine (destageRemove s p) p copiedLine
  { x with crypt := crypt, easel := { x.easel with flights := x.easel.flights ++ [grantRecord s p], flush := flush, acks := acks } }

/-- A grant removes the line from its queue, copies it, notes its program, and stamps the samples of its writes. -/
theorem PlainGrant.grantLine {s : State} {p : Nat} (h : PlainGrant s p) (g : Nat) :
    ∃ crypt flush acks, Frame [.perf] (granted s p crypt flush acks) (grantLine s g p) := by
  unfold Machine.grantLine
  simp only [h.destageTile, h.unsealed, h.good, Bool.false_eq_true, if_false, Bool.false_and]
  refine ⟨_, _, _, Frame.foldl (fun x (a : AckWait) => ?_) (.refl _ _)⟩
  exact Frame.ite (Frame.step (stamp_frame _ _ _) (Frame.step (stamp_frame _ _ _) (.refl _ x) rfl) rfl) (.refl _ x)

/-! ### What leaves the queue of a group (R100) -/

theorem mem_destageInsert {s : State} {q : List (Nat × Nat)} {cls v : Nat} {e : Nat × Nat}
    (h : e ∈ destageInsert s q cls v) : e ∈ q ∨ e = (cls, v) := by
  unfold destageInsert at h
  rcases List.mem_append.mp h with h | h
  · exact .inl (List.mem_filter.mp h).1
  · rcases List.mem_cons.mp h with h | h
    · exact .inr h
    · exact .inl (List.mem_filter.mp h).1

/-- After its removal a line stands in the queue of its group no more, nor does it wait for a place there. -/
theorem destageRemove_removes (s : State) (p : Nat) :
    ∀ e ∈ (groupOf (destageRemove s p) (lineGroup s (placeLine s p))).destages, e.2 ≠ p := by
  intro e he
  unfold destageRemove at he
  dsimp only at he
  rw [groupOf_modGroup_self] at he
  have hkept {q : List (Nat × Nat)} (hmem : e ∈ q.filter fun e => e.2 != p) : e.2 ≠ p := by
    simpa using (List.mem_filter.mp hmem).2
  split at he
  case h_1 v rest hwait =>
    have hv : v ≠ p := by
      have hmem : v ∈ (groupOf (setQueued s p false) (lineGroup s (placeLine s p))).destageWait.filter (· != p) :=
        hwait ▸ List.mem_cons_self
      simpa using (List.mem_filter.mp hmem).2
    split at he
    · rcases mem_destageInsert he with hmem | rfl
      · exact hkept hmem
      · exact hv
    · exact hkept he
  case h_2 => exact hkept he

theorem easelLine_destageRemove (s : State) (p : Nat) :
    easelLine (destageRemove s p) p = { easelLine s p with queued := false } := by
  have heasel : (destageRemove s p).easel = (setQueued s p false).easel := by
    unfold destageRemove
    exact (modGroup_frame _ _ _).easel_eq (by decide)
  unfold easelLine
  rw [heasel]
  exact easelLine_modLine_self s p _

theorem exec_destageGrant_of_find {s : State} {group : Group} {cls p : Nat}
    (h : (groupOf s group.val).destages.find? (fun e => destageReady s group.val e.2) = some (cls, p)) :
    exec (.destageGrant group .none) s = .next (grantLine s group.val p) := by
  have hready := List.find?_some h
  dsimp only at hready
  have hupset : applyUpset s (placeLine s p) .none = s := rfl
  show execDestageGrant group .none s = _
  unfold execDestageGrant
  simp only [h, hupset, hready, if_true]

/-- A grant of an unsealed line: the line is copied and leaves its queue, its program goes out, and the medium stays (R101). -/
theorem completes_destageGrant (group : Group) (cls p : Nat) :
    Completes (.destageGrant group .none) [.reserve, .groups, .easel, .palette, .crypt, .perf, .stats, .draws]
      (fun s => (groupOf s group.val).destages.find? (fun e => destageReady s group.val e.2) = some (cls, p) ∧
        sealedLine s (placeLine s p) = false ∧ ephemeralState s = false ∧ (easelLine s p).poison = false ∧
        (easelLine s p).vk = true)
      (fun s t => easelLine t p = copiedLine (easelLine s p) ∧ grantRecord s p ∈ t.easel.flights ∧
        (∀ e ∈ (groupOf t (lineGroup s (placeLine s p))).destages, e.2 ≠ p) ∧ t.path.medium = s.path.medium) := by
  rintro s ⟨hfind, hseal, hlasting, hgood, hknown⟩
  obtain ⟨crypt, flush, acks, hperf⟩ := PlainGrant.grantLine ⟨hseal, hlasting, hgood, hknown⟩ group.val
  have heasel := hperf.easel_eq (by decide)
  have hgroups := hperf.groups_eq (by decide)
  refine ⟨_, exec_destageGrant_of_find hfind, grantLine_frame s group.val p, ?_, ?_, ?_, ?_⟩
  · unfold easelLine
    rw [heasel]
    show easelLine (modLine (destageRemove s p) p copiedLine) p = _
    rw [easelLine_modLine_self, easelLine_destageRemove]
    rfl
  · rw [heasel]
    exact List.mem_append_right _ (List.mem_singleton_self _)
  · unfold groupOf
    rw [hgroups]
    show ∀ e ∈ (groupOf (destageRemove s p) _).destages, e.2 ≠ p
    exact destageRemove_removes s p
  · rw [(grantLine_frame s group.val p).path_eq (by decide)]

end Sys2Proof.Machine
end

section
/-! The completion of a destage (O32, R101): the tile lands, the line settles, and the writes it carried are acknowledged. -/
namespace Sys2Proof.Machine

/-! ### The charge of a line whose charge stands with a port (R26, R94) -/

theorem easelLine_chargeLine_zero {s : State} {p : Nat} (h : (easelLine s p).onDevice = false) :
    easelLine (chargeLine s p (easelLine s p).share 0) p = { easelLine s p with charge := 0 } := by
  unfold chargeLine
  dsimp only
  split
  · rw [if_pos rfl, easelLine_modLine_self]
    simp [← h]
  · rw [easelLine_modLine_self]
    simp only [h, Bool.false_eq_true, if_false]
    split <;> simp [easelLine, portBook, portFree, ← h]

theorem portCharged_portFree (s : State) (q n k : Nat) :
    portCharged (portFree s q n) k = if k = q then portCharged s q - n else portCharged s k := by
  unfold portCharged portFree
  dsimp only
  rw [tabGet_mod]

/-- Releasing a line's charge frees it of the share that carried it. -/
theorem portCharged_chargeLine_zero {s : State} {p : Nat} (h : (easelLine s p).onDevice = false) (k : Nat) :
    portCharged (chargeLine s p (easelLine s p).share 0) k =
      if k = (easelLine s p).share then portCharged s k - (easelLine s p).charge else portCharged s k := by
  unfold chargeLine
  dsimp only
  split
  case isTrue hzero =>
    rw [hzero]
    exact (ite_self _).symm
  case isFalse hcharged =>
    simp only [h, Bool.false_eq_true, if_false]
    rw [if_neg (by omega)]
    refine (portCharged_portFree s _ _ k).trans (ite_congr rfl (fun hk => ?_) fun _ => rfl)
    rw [hk, Nat.sub_zero]

theorem easelLine_chargeLine_of_uncharged {s : State} {p : Nat} (h : (easelLine s p).charge = 0) (q n : Nat) :
    easelLine (chargeLine s p q n) p = { easelLine s p with charge := n, share := q, onDevice := false } := by
  unfold chargeLine
  dsimp only
  rw [if_pos h, easelLine_modLine_self]
  split <;> rfl

theorem chargeLine_acks (s : State) (p q n : Nat) : (chargeLine s p q n).easel.acks = s.easel.acks := by
  unfold chargeLine
  dsimp only
  split
  · split <;> rfl
  · split <;> split <;> rfl

/-! ### The line's own side (R101) -/

/-- The line of a destage is still the one that was copied, its charge with a port. -/
structure InFlight (s : State) (f : DestageRec) : Prop where
  valid : (easelLine s f.place).valid = true
  flight : (easelLine s f.place).flight = true
  tag : (easelLine s f.place).tag = easelTag f.line
  onPort : (easelLine s f.place).onDevice = false

/-- The line that no write has met since its copy: clean, with the version written. -/
def cleanedLine (version : Nat) (x : EaselLine) : EaselLine :=
  { x with dirty := false, flight := false, version := version, vk := true, charge := 0 }

/-- The line that a write has met since its copy: dirty under that write's stamp, its charge with that write's port. -/
def restampedLine (version : Nat) (x : EaselLine) : EaselLine :=
  { x with flight := false, written := false, version := version, vk := true, stamp := x.restamp,
           share := if 0 < x.charge then x.writer else x.share }

theorem landLine_of_inFlight {s : State} {f : DestageRec} (h : InFlight s f) :
    landLine s f = if (easelLine s f.place).written then
        modLine (if 0 < (easelLine s f.place).charge then
            chargeLine (chargeLine s f.place (easelLine s f.place).share 0) f.place (easelLine s f.place).writer
              (easelLine s f.place).charge
          else s) f.place
          (fun x => { x with flight := false, written := false, version := f.version, vk := true, stamp := x.restamp })
      else modLine (chargeLine s f.place (easelLine s f.place).share 0) f.place
        (fun x => { x with dirty := false, flight := false, version := f.version, vk := true }) := by
  unfold landLine
  simp [h.valid, h.flight, h.tag]

theorem easelLine_landLine_unwritten {s : State} {f : DestageRec} (h : InFlight s f)
    (hwritten : (easelLine s f.place).written = false) :
    easelLine (landLine s f) f.place = cleanedLine f.version (easelLine s f.place) := by
  rw [landLine_of_inFlight h, hwritten, if_neg (by decide), easelLine_modLine_self, easelLine_chargeLine_zero h.onPort]
  rfl

theorem portCharged_landLine_unwritten {s : State} {f : DestageRec} (h : InFlight s f)
    (hwritten : (easelLine s f.place).written = false) (k : Nat) :
    portCharged (landLine s f) k = if k = (easelLine s f.place).share then portCharged s k - (easelLine s f.place).charge
      else portCharged s k := by
  rw [landLine_of_inFlight h, hwritten, if_neg (by decide)]
  exact portCharged_chargeLine_zero h.onPort k

theorem easelLine_landLine_written {s : State} {f : DestageRec} (h : InFlight s f)
    (hwritten : (easelLine s f.place).written = true) :
    easelLine (landLine s f) f.place = restampedLine f.version (easelLine s f.place) := by
  rw [landLine_of_inFlight h, hwritten, if_pos rfl, easelLine_modLine_self]
  unfold restampedLine
  split
  case isTrue hcharged =>
    have hzero := easelLine_chargeLine_zero h.onPort
    rw [easelLine_chargeLine_of_uncharged (by rw [hzero]), hzero]
    simp [← h.onPort]
  case isFalse => rfl

theorem landLine_acks (s : State) (f : DestageRec) : (landLine s f).easel.acks = s.easel.acks := by
  have hmod (x : State) (p : Nat) (c : EaselLine → EaselLine) : (modLine x p c).easel.acks = x.easel.acks := rfl
  unfold landLine
  dsimp only
  split
  · split
    · rw [hmod]
      split
      · rw [chargeLine_acks, chargeLine_acks]
      · rfl
    · rw [hmod, chargeLine_acks]
  · rfl

end Sys2Proof.Machine
end

section
/-! A destage from its grant to its completion (O32). -/
namespace Sys2Proof.Machine

/-- The destage in flight at the place of `f` has ended. -/
def flightEnded (s : State) (f : DestageRec) : State :=
  { s with easel := { s.easel with flights := s.easel.flights.filter fun x => x.place != f.place } }

/-- A write that the copy carried waits for its destage no more (R94, R101). -/
def carriedAck (f : DestageRec) (a : AckWait) : AckWait :=
  if a.line = f.line ∧ a.copied then { a with destage := false, copied := false, spare := a.spare || f.spare } else a

/-- The flush, the Glaze units and the writes that waited for this destage are told of its end (R101, R112, R204). -/
def destageTold (s : State) (f : DestageRec) : State :=
  { s with
    crypt := { s.crypt with glaze := { s.crypt.glaze with finishing := s.crypt.glaze.finishing.filter (· != (f.place, true)) } }
    easel := { s.easel with
      flush := s.easel.flush.filter fun e => !(e.1 == f.place && e.2), acks := s.easel.acks.map fun a => carriedAck f a } }

/-- The stamps of the samples whose writes the destage carried (R461). -/
def destageStamped (s : State) (f : DestageRec) : State :=
  s.easel.acks.foldl (fun s (a : AckWait) => if a.line = f.line then stamp s a.who 5 else s) s

/-- The state in which the tile has landed and the line has taken its side of it. -/
def destageLanded (s : State) (f : DestageRec) (pl : Place) : State :=
  landLine (programTile (flightEnded s f) pl f.code) f

/-- The program of a destage, where its line still has a place (R46, R101). -/
def destageProgrammed (s : State) (f : DestageRec) : State :=
  match linePlace s f.line with
  | some pl => programTile s pl f.code
  | none => s

theorem destageComplete_eq_stages (s : State) (f : DestageRec) :
    destageComplete s f = settleAcks (reselectFlush (settleFlush (destageStamped
      (destageTold (landLine (destageProgrammed (flightEnded s f) f) f) f) f))) := rfl

theorem flightEnded_frame (s : State) (f : DestageRec) : Frame [.easel] s (flightEnded s f) := Frame.upd_easel (.refl _ s) rfl

theorem flightEnded_sameSlots (s : State) (f : DestageRec) : SameSlots s (flightEnded s f) :=
  (flightEnded_frame s f).sameSlots (by decide) (by decide) (by decide) (by decide) (by decide)

theorem destageComplete_eq {s : State} {f : DestageRec} {pl : Place} (h : linePlace s f.line = some pl) :
    destageComplete s f =
      settleAcks (reselectFlush (settleFlush (destageStamped (destageTold (destageLanded s f pl) f) f))) := by
  have hplace : linePlace (flightEnded s f) f.line = some pl := by
    rw [(flightEnded_sameSlots s f).linePlace rfl rfl rfl, h]
  rw [destageComplete_eq_stages]
  unfold destageProgrammed destageLanded
  rw [hplace]

theorem destageStamped_frame (s : State) (f : DestageRec) : Frame [.perf] s (destageStamped s f) :=
  Frame.foldl (fun x (_ : AckWait) => Frame.ite (stamp_frame _ _ _) (.refl _ x)) (.refl _ s)

theorem destageTold_frame (s : State) (f : DestageRec) : Frame [.easel, .crypt] s (destageTold s f) :=
  Frame.upd_easel_crypt (.refl _ s) rfl

section
variable {s : State} {f : DestageRec} {pl : Place}

/-- What follows the landing changes neither the medium nor the charges. -/
theorem destageComplete_frame_landed (h : linePlace s f.line = some pl) :
    Frame [.mgmt, .folio, .ledger, .groups, .easel, .crypt, .directory, .queues, .barrow, .perf, .stats, .out]
      (destageLanded s f pl) (destageComplete s f) := by
  rw [destageComplete_eq h]
  exact Frame.step (settleAcks_frame _) (Frame.step (reselectFlush_frame _) (Frame.step (settleFlush_frame _)
    (Frame.step (destageStamped_frame _ _) ((destageTold_frame _ _).mono rfl) rfl) rfl) rfl) rfl

theorem destageStamped_easel (s : State) (f : DestageRec) : (destageStamped s f).easel = s.easel :=
  (destageStamped_frame s f).easel_eq (by decide)

/-- After the landing only the Q of a line can change. -/
theorem easelLine_destageComplete (h : linePlace s f.line = some pl) (q : Nat) :
    ∃ queued, easelLine (destageComplete s f) q = { easelLine (destageLanded s f pl) q with queued := queued } := by
  have hselect := reselectFlush_selects (settleFlush (destageStamped (destageTold (destageLanded s f pl) f) f))
  have hline : easelLine (settleFlush (destageStamped (destageTold (destageLanded s f pl) f) f)) q =
      easelLine (destageLanded s f pl) q := by
    show easelLine (destageStamped (destageTold (destageLanded s f pl) f) f) q = _
    unfold easelLine
    rw [destageStamped_easel]
    rfl
  refine ⟨(easelLine (reselectFlush (settleFlush (destageStamped (destageTold (destageLanded s f pl) f) f))) q).queued, ?_⟩
  rw [destageComplete_eq h, ← hline, ← hselect.lines q]
  unfold easelLine
  rw [settleAcks_lines]

theorem destageLanded_acks (s : State) (f : DestageRec) (pl : Place) :
    (destageLanded s f pl).easel.acks = s.easel.acks := by
  unfold destageLanded
  rw [landLine_acks, (programTile_frame _ _ _).easel_eq (by decide)]
  rfl

/-- A host write that the copy carried, and that waits for nothing else, is acknowledged (R94, R164). -/
theorem destageComplete_acks (h : linePlace s f.line = some pl) {a : AckWait} {p tag : Nat} (hmem : a ∈ s.easel.acks)
    (hline : a.line = f.line) (hcopied : a.copied = true) (hcounter : a.counter = none) (hsnoop : a.snoop = false)
    (ha : a.who = .host p tag) : ∃ load, Output.ack (Fin.ofNat 4 p) tag load ∈ (destageComplete s f).out := by
  have hcarried : carriedAck f a = { a with destage := false, copied := false, spare := a.spare || f.spare } :=
    if_pos ⟨hline, hcopied⟩
  have hacks : (reselectFlush (settleFlush (destageStamped (destageTold (destageLanded s f pl) f) f))).easel.acks =
      s.easel.acks.map (carriedAck f) := by
    rw [(reselectFlush_selects _).easel]
    show (destageStamped (destageTold (destageLanded s f pl) f) f).easel.acks = _
    rw [destageStamped_easel, ← destageLanded_acks s f pl]
    rfl
  rw [destageComplete_eq h]
  refine settleAcks_acks (a := carriedAck f a) (hacks ▸ List.mem_map_of_mem hmem) ?_ ?_ ?_ ?_
  all_goals rw [hcarried]
  · exact hcounter
  · exact hsnoop
  · exact ha

/-- With the tile in the medium on every column that is not erased (R46, R101). -/
theorem medium_destageComplete (h : linePlace s f.line = some pl) (hfence : placeFenced s pl = false)
    (haddrs : ∀ c, c < 8 → pl.addrs.getD c 0 < 2 ^ 35) {ch a : Nat} (ha : a < 2 ^ 35) :
    tabGet dPatch (destageComplete s f).path.medium (patchKey ch a) =
      if ch / 8 = pl.group ∧ a = pl.addrs.getD (ch % 8) 0 ∧ ch % 8 ∉ erasedColumns s pl.group pl.slot then
        patchOfSymbols f.code (ch % 8)
      else tabGet dPatch s.path.medium (patchKey ch a) := by
  rw [(destageComplete_frame_landed h).path_eq (by decide)]
  unfold destageLanded
  rw [(landLine_frame _ _).path_eq (by decide), programTile_path]
  rw [medium_programAt (s := flightEnded s f) hfence haddrs f.code ha, (flightEnded_sameSlots s f).erasedColumns]
  rfl

theorem destageComplete_sys (h : linePlace s f.line = some pl) (hdev : s.sys.dev ≠ .varnish) :
    (destageComplete s f).sys = s.sys := by
  rw [(destageComplete_frame_landed h).sys_eq (by decide)]
  unfold destageLanded
  rw [(landLine_frame _ _).sys_eq (by decide)]
  exact programTile_sys (s := flightEnded s f) hdev pl f.code

end

theorem varnishAdvance_of_not_varnish {s : State} (h : s.sys.dev ≠ .varnish) (fuel : Nat) : varnishAdvance fuel s = s := by
  cases fuel with
  | zero => rfl
  | succ fuel => exact if_neg fun hv => h hv.1

/-- The destage of `f` in flight is complete: its place is `pl`, and its line is still the one copied. -/
structure DestageDone (s : State) (line : LineAddr) (f : DestageRec) (pl : Place) : Prop where
  found : s.easel.flights.find? (fun x => x.line == line.toNat && x.fill.isNone) = some f
  place : linePlace s f.line = some pl
  unfenced : placeFenced s pl = false
  notVarnish : s.sys.dev ≠ .varnish
  inFlight : InFlight s f

section
variable {s : State} {line : LineAddr} {f : DestageRec} {pl : Place}

theorem DestageDone.exec (h : DestageDone s line f pl) : exec (.destageComplete line) s = .next (destageComplete s f) := by
  have hdev : (destageComplete s f).sys.dev ≠ .varnish := by
    rw [destageComplete_sys h.place h.notVarnish]
    exact h.notVarnish
  show execDestageComplete line s = _
  unfold execDestageComplete
  rw [h.found]
  exact congrArg Host.Outcome.next (varnishAdvance_of_not_varnish hdev 5)

/-- The state whose line takes its side: the tile programmed, the lines as before. -/
theorem easelLine_programTile (s : State) (f : DestageRec) (pl : Place) (q : Nat) :
    easelLine (programTile (flightEnded s f) pl f.code) q = easelLine s q := by
  unfold easelLine
  rw [(programTile_frame _ _ _).easel_eq (by decide)]
  rfl

theorem DestageDone.programmed_inFlight (h : DestageDone s line f pl) :
    InFlight (programTile (flightEnded s f) pl f.code) f := by
  obtain ⟨hvalid, hflight, htag, hport⟩ := h.inFlight
  exact ⟨by rwa [easelLine_programTile], by rwa [easelLine_programTile], by rwa [easelLine_programTile],
    by rwa [easelLine_programTile]⟩

theorem DestageDone.line_unwritten (h : DestageDone s line f pl) (hwritten : (easelLine s f.place).written = false) :
    ∃ queued, easelLine (destageComplete s f) f.place =
      { cleanedLine f.version (easelLine s f.place) with queued := queued } := by
  obtain ⟨queued, hline⟩ := easelLine_destageComplete h.place f.place
  refine ⟨queued, ?_⟩
  rw [hline]
  unfold destageLanded
  rw [easelLine_landLine_unwritten h.programmed_inFlight (by rwa [easelLine_programTile]), easelLine_programTile]

theorem DestageDone.line_written (h : DestageDone s line f pl) (hwritten : (easelLine s f.place).written = true) :
    ∃ queued, easelLine (destageComplete s f) f.place =
      { restampedLine f.version (easelLine s f.place) with queued := queued } := by
  obtain ⟨queued, hline⟩ := easelLine_destageComplete h.place f.place
  refine ⟨queued, ?_⟩
  rw [hline]
  unfold destageLanded
  rw [easelLine_landLine_written h.programmed_inFlight (by rwa [easelLine_programTile]), easelLine_programTile]

theorem portCharged_congr {s t : State} (h : t.reserve = s.reserve) (k : Nat) : portCharged t k = portCharged s k := by
  unfold portCharged
  rw [h]

theorem DestageDone.portCharged_unwritten (h : DestageDone s line f pl) (hwritten : (easelLine s f.place).written = false)
    (k : Nat) :
    portCharged (destageComplete s f) k = if k = (easelLine s f.place).share then
      portCharged s k - (easelLine s f.place).charge else portCharged s k := by
  have hprogrammed : portCharged (programTile (flightEnded s f) pl f.code) k = portCharged s k :=
    portCharged_congr ((programTile_frame _ _ _).reserve_eq (by decide)) k
  rw [portCharged_congr ((destageComplete_frame_landed h.place).reserve_eq (by decide))]
  unfold destageLanded
  rw [portCharged_landLine_unwritten h.programmed_inFlight (by rwa [easelLine_programTile]), hprogrammed, easelLine_programTile]

end

/-- Settles O32: the grant is one equation (`PlainGrant.grantLine`), and after the landing of a destage only the Q of lines and what
waits for it change (`easelLine_destageComplete`, `destageComplete_frame_landed`). -/
theorem destages : Obligations.Destages := by
  refine ⟨fun group cls p s hready => ?_, fun line f pl haddrs => ⟨?_, ?_⟩⟩
  · obtain ⟨t, hexec, hframe, hline, hflight, hqueue, hmedium⟩ := completes_destageGrant group cls p s hready
    exact ⟨t, hexec, hframe, hline, ⟨grantRecord s p, hflight, rfl, rfl, rfl, rfl⟩, hqueue, hmedium⟩
  · rintro s ⟨⟨hfound, hplace, hfence, -, hdev, hvalid, hflight, htag, hport⟩, hwritten⟩
    have hdone : DestageDone s line f pl := ⟨hfound, hplace, hfence, hdev, hvalid, hflight, htag, hport⟩
    obtain ⟨queued, hline⟩ := hdone.line_unwritten hwritten
    obtain ⟨t, hnext, hframe⟩ := execDestageComplete_frame line s
    obtain rfl : destageComplete s f = t := Host.Outcome.next.inj (hdone.exec.symm.trans hnext)
    refine ⟨_, hdone.exec, hframe, ?_⟩
    simp only [hline]
    exact ⟨rfl, rfl, rfl, rfl, rfl, rfl, hdone.portCharged_unwritten hwritten,
      fun ch a _ ha => medium_destageComplete hplace hfence haddrs ha,
      fun a hmem p tag h1 h2 h3 h4 h5 => destageComplete_acks hplace hmem h1 h2 h3 h4 h5⟩
  · rintro s ⟨⟨hfound, hplace, hfence, -, hdev, hvalid, hflight, htag, hport⟩, hwritten⟩
    have hdone : DestageDone s line f pl := ⟨hfound, hplace, hfence, hdev, hvalid, hflight, htag, hport⟩
    obtain ⟨queued, hline⟩ := hdone.line_written hwritten
    obtain ⟨t, hnext, hframe⟩ := execDestageComplete_frame line s
    obtain rfl : destageComplete s f = t := Host.Outcome.next.inj (hdone.exec.symm.trans hnext)
    refine ⟨_, hdone.exec, hframe, ?_⟩
    simp only [hline]
    exact ⟨rfl, rfl, rfl, rfl, rfl, rfl, rfl, rfl, fun hcharged => if_pos hcharged,
      fun ch a _ ha => medium_destageComplete hplace hfence haddrs ha,
      fun a hmem p tag h1 h2 h3 h4 h5 => destageComplete_acks hplace hmem h1 h2 h3 h4 h5⟩

end Sys2Proof.Machine
end

section
/-! What the shared operations of the engines leave of a group (R57, R85, R212, R474): records of programs, of nominations and of the
time of a push, and nothing of its mapping or of the work in progress. -/
namespace Sys2Proof.Machine

/-! ### The notes an operation may leave in a group -/

/-- The groups differ at most in their nominations, in the time of the last push, and in what they keep of their programs. -/
def GroupsNoted (s t : State) : Prop :=
  ∀ g, groupOf t g = { groupOf s g with
    nominations := (groupOf t g).nominations, journalSince := (groupOf t g).journalSince, filterCur := (groupOf t g).filterCur,
    programs := (groupOf t g).programs, requestAt := (groupOf t g).requestAt }

theorem GroupsNoted.refl (s : State) : GroupsNoted s s := fun _ => rfl

theorem GroupsNoted.trans {s t r : State} (h : GroupsNoted s t) (k : GroupsNoted t r) : GroupsNoted s r :=
  fun g => by rw [k g, h g]

theorem Frame.groupsNoted {U : List UnitName} {s t : State} (h : Frame U s t) (hu : .groups ∉ U) : GroupsNoted s t :=
  fun g => by rw [h.groupOf hu]

/-- A change of one group that writes those notes only. -/
theorem modGroup_groupsNoted {f : GroupRec → GroupRec}
    (hf : ∀ x, f x = { x with
      nominations := (f x).nominations, journalSince := (f x).journalSince, filterCur := (f x).filterCur,
      programs := (f x).programs, requestAt := (f x).requestAt }) (s : State) (g : Nat) : GroupsNoted s (modGroup s g f) := by
  intro h
  rw [groupOf_modGroup]
  split
  case isTrue heq =>
    rw [heq]
    exact hf _
  case isFalse => rfl

section
variable {s t : State} (h : GroupsNoted s t)
include h

theorem GroupsNoted.regionOf (g p : Nat) : regionOf t g p = regionOf s g p := by
  unfold Machine.regionOf
  rw [h g]

theorem GroupsNoted.placeFenced (pl : Place) : placeFenced t pl = placeFenced s pl := by
  unfold Machine.placeFenced regionFenced
  rw [h pl.group]

theorem GroupsNoted.sameSlots (hpower : t.power = s.power) (hfailed : ∀ ch, (channelOf t ch).failed = (channelOf s ch).failed)
    (hpath : t.path = s.path) (hpalette : t.palette = s.palette) : SameSlots s t where
  power := hpower
  failed := hfailed
  path := hpath
  palette := hpalette
  typ g := by rw [h g]
  regions g := by rw [h g]
  rebuild g := by rw [h g]
  stale g := by rw [h g]

end

/-! ### The statistics of the rotation engine stand below those of the channels and of the queues -/

/-- Every statistic of an index below 0x2900 reads as before. -/
def LowStatsKept (s t : State) : Prop :=
  ∀ idx sub, idx < 0x2900 → sub < 256 → stat t idx sub = stat s idx sub

theorem LowStatsKept.refl (s : State) : LowStatsKept s s := fun _ _ _ _ => rfl

theorem LowStatsKept.trans {s t r : State} (h : LowStatsKept s t) (k : LowStatsKept t r) : LowStatsKept s r :=
  fun idx sub hidx hsub => (k idx sub hidx hsub).trans (h idx sub hidx hsub)

theorem Frame.lowStatsKept {U : List UnitName} {s t : State} (h : Frame U s t) (hu : .stats ∉ U) : LowStatsKept s t :=
  fun idx sub _ _ => h.stat hu idx sub

theorem LowStatsKept.foldl {α : Type} {f : State → α → State} (hf : ∀ s a, LowStatsKept s (f s a)) (l : List α) (s : State) :
    LowStatsKept s (l.foldl f s) :=
  List.foldlRecOn (motive := fun x => LowStatsKept s x) l f (.refl s) fun _ hx a _ => hx.trans (hf _ a)

theorem bump_lowStatsKept (s : State) {idx : Nat} (hidx : 0x2900 ≤ idx) (sub n : Nat) : LowStatsKept s (bump s idx sub n) := by
  intro i j hi hj
  rw [stat_bump, if_neg (by unfold objKey; omega)]

/-! ### A journal record (R85, R326) -/

theorem pushPacket_lowStatsKept (s : State) (q : Nat) (data : List Nat) : LowStatsKept s (pushPacket s q data) := by
  have hidx : 0x2900 ≤ queueIdx q := by
    unfold queueIdx
    omega
  have hword (x : State) (w : QWord) : LowStatsKept x (pushWord x q w) := by
    unfold pushWord
    dsimp only
    have hfirst (f : QueueRec → QueueRec) : LowStatsKept x (bump (modQueue x q f) (queueIdx q) 5 1) :=
      ((modQueue_frame x q f).lowStatsKept (by decide)).trans (bump_lowStatsKept _ hidx 5 1)
    split
    · exact (hfirst _).trans (bump_lowStatsKept _ hidx _ _)
    · exact hfirst _
  have hnotice (x : State) (w : QWord) : LowStatsKept x (noticeAfter x q w) := by
    unfold noticeAfter
    dsimp only
    have hfirst (f : QueueRec → QueueRec) := (modQueue_frame x q f).lowStatsKept (by decide)
    split
    · exact (hfirst _).trans (bump_lowStatsKept _ hidx _ _)
    · exact hfirst _
  unfold pushPacket
  exact LowStatsKept.foldl (fun x i => (hword x _).trans (hnotice _ _)) _ s

/-- The time of a push to a queue that had been read empty is noted (R326). -/
def journalNoted (s : State) (g : Nat) : State :=
  if unread (queueOf s g) = 0 then modGroup s g (fun y => { y with journalSince := s.sys.time }) else s

theorem journalNoted_frame (s : State) (g : Nat) : Frame [.groups] s (journalNoted s g) :=
  Frame.ite (modGroup_frame s _ _) (.refl _ s)

theorem jqPush_eq (s : State) (g : Nat) (units : List Nat) :
    jqPush s g units = pushPacket (perfCount (journalNoted s g) 12 0x0C 1) g
      [(List.range 4).foldl (fun w i => w + units.getD i 0 * 2 ^ (16 * i)) 0] := rfl

theorem jqPush_lowStatsKept (s : State) (g : Nat) (units : List Nat) : LowStatsKept s (jqPush s g units) := by
  rw [jqPush_eq]
  exact ((journalNoted_frame s g).lowStatsKept (by decide)).trans
    (((perfCount_frame _ _ _ _).lowStatsKept (by decide)).trans (pushPacket_lowStatsKept _ _ _))

theorem groupOf_journalNoted (s : State) (g h : Nat) :
    groupOf (journalNoted s g) h = { groupOf s h with journalSince := (groupOf (journalNoted s g) h).journalSince } := by
  unfold journalNoted
  split
  · rw [groupOf_modGroup]
    split
    case isTrue heq => rw [heq]
    case isFalse => rfl
  · rfl

/-- A push notes its time in the group whose queue was read empty, and leaves the groups else. -/
theorem groupOf_jqPush (s : State) (g : Nat) (units : List Nat) (h : Nat) :
    groupOf (jqPush s g units) h = { groupOf s h with journalSince := (groupOf (jqPush s g units) h).journalSince } := by
  have heq : groupOf (jqPush s g units) h = groupOf (journalNoted s g) h := by
    rw [jqPush_eq, (pushPacket_frame _ _ _).groupOf (by decide), (perfCount_frame _ _ _ _).groupOf (by decide)]
  rw [heq]
  exact groupOf_journalNoted s g h

theorem jqPush_groupsNoted (s : State) (g : Nat) (units : List Nat) : GroupsNoted s (jqPush s g units) := by
  have hnoted : GroupsNoted s (journalNoted s g) := by
    unfold journalNoted
    split
    · exact modGroup_groupsNoted (fun _ => rfl) _ _
    · exact .refl s
  rw [jqPush_eq]
  exact hnoted.trans (((perfCount_frame _ _ _ _).groupsNoted (by decide)).trans
    ((pushPacket_frame _ _ _).groupsNoted (by decide)))

/-! ### The program of a tile (R46, R212, R474) -/

/-- A program on the reserve is counted against the tiles of Varnish (R374). -/
def varnishCounted (s : State) : State :=
  if s.sys.dev = .varnish then { s with sys := { s.sys with varnishTiles := s.sys.varnishTiles + 1 } } else s

/-- A program is counted in its group (R474). -/
def programCounted (s : State) (g : Nat) : State :=
  if (groupOf s g).programs = 2 ^ 36 - 1 then tallyAdd (modGroup s g (fun x => { x with programs := 0 })) (176 + g)
  else modGroup s g (fun x => { x with programs := x.programs + 1 })

theorem countProgram_eq (s : State) (g : Nat) : countProgram s g = programCounted (varnishCounted s) g := rfl

theorem varnishCounted_frame (s : State) : Frame [.sys] s (varnishCounted s) :=
  Frame.ite (Frame.upd_sys (.refl _ s) rfl) (.refl _ s)

theorem programCounted_groupsNoted (s : State) (g : Nat) : GroupsNoted s (programCounted s g) := by
  unfold programCounted
  split
  · exact (modGroup_groupsNoted (fun _ => rfl) _ _).trans ((tallyAdd_frame _ _).groupsNoted (by decide))
  · exact modGroup_groupsNoted (fun _ => rfl) _ _

theorem countProgram_groupsNoted (s : State) (g : Nat) : GroupsNoted s (countProgram s g) := by
  rw [countProgram_eq]
  exact ((varnishCounted_frame s).groupsNoted (by decide)).trans (programCounted_groupsNoted _ _)

theorem storeColumns_groupsNoted (s : State) (g : Nat) (addrs : List Nat) (code : List Byte) (cols : List Nat) :
    GroupsNoted s (storeColumns s g addrs code cols) := by
  rw [storeColumns_eq_foldl]
  exact ((columnsStored_frame g addrs code s cols).groupsNoted (by decide)).trans (countProgram_groupsNoted _ _)

theorem storeColumns_lowStatsKept (s : State) (g : Nat) (addrs : List Nat) (code : List Byte) (cols : List Nat) :
    LowStatsKept s (storeColumns s g addrs code cols) := by
  rw [storeColumns_eq_foldl]
  refine LowStatsKept.trans (LowStatsKept.foldl (fun x c => ?_) cols s) ((countProgram_frame _ _).lowStatsKept (by decide))
  exact ((storePatch_frame x _ _ _).lowStatsKept (by decide)).trans (bump_lowStatsKept _ (by decide) _ _)

theorem filterMark_groupsNoted (s : State) (g p q : Nat) : GroupsNoted s (filterMark s g p q) :=
  modGroup_groupsNoted (fun _ => rfl) s g

theorem programAt_groupsNoted (s : State) (pl : Place) (code : List Byte) : GroupsNoted s (programAt s pl code) := by
  unfold programAt
  dsimp only
  split
  · exact .refl s
  · exact (storeColumns_groupsNoted _ _ _ _ _).trans ((filterMark_groupsNoted _ _ _ _).trans
      (modGroup_groupsNoted (fun _ => rfl) _ _))

theorem programAt_lowStatsKept (s : State) (pl : Place) (code : List Byte) : LowStatsKept s (programAt s pl code) := by
  unfold programAt
  dsimp only
  split
  · exact .refl s
  · exact (storeColumns_lowStatsKept _ _ _ _ _).trans (((filterMark_frame _ _ _ _).lowStatsKept (by decide)).trans
      ((modGroup_frame _ _ _).lowStatsKept (by decide)))

end Sys2Proof.Machine
end

section
/-! What an engine's read of a tile leaves, and what its outcome rests on (R48 to R52, R57). -/
namespace Sys2Proof.Machine

/-! ### The slots of a state and of its change -/

theorem SameSlots.symm {s t : State} (h : SameSlots s t) : SameSlots t s :=
  ⟨h.power.symm, fun ch => (h.failed ch).symm, h.path.symm, h.palette.symm, fun g => (h.typ g).symm, fun g => (h.regions g).symm,
    fun g => (h.rebuild g).symm, fun g => (h.stale g).symm⟩

theorem SameSlots.trans {s t r : State} (h : SameSlots s t) (k : SameSlots t r) : SameSlots s r :=
  ⟨k.power.trans h.power, fun ch => (k.failed ch).trans (h.failed ch), k.path.trans h.path, k.palette.trans h.palette,
    fun g => (k.typ g).trans (h.typ g), fun g => (k.regions g).trans (h.regions g), fun g => (k.rebuild g).trans (h.rebuild g),
    fun g => (k.stale g).trans (h.stale g)⟩

/-! ### What a read leaves -/

/-- Notes of the groups and erased transfers apart, groups and failed channels are as before. -/
structure ReadLeaves (s t : State) : Prop where
  groups : GroupsNoted s t
  failed : ∀ ch, (channelOf t ch).failed = (channelOf s ch).failed

theorem ReadLeaves.refl (s : State) : ReadLeaves s s := ⟨.refl s, fun _ => rfl⟩

theorem ReadLeaves.trans {s t r : State} (h : ReadLeaves s t) (k : ReadLeaves t r) : ReadLeaves s r :=
  ⟨h.groups.trans k.groups, fun ch => (k.failed ch).trans (h.failed ch)⟩

theorem Frame.readLeaves {U : List UnitName} {s t : State} (h : Frame U s t) (hgroups : .groups ∉ U) (hchannels : .channels ∉ U) :
    ReadLeaves s t :=
  ⟨h.groupsNoted hgroups, fun ch => by rw [h.channelOf hchannels]⟩

theorem takeErased_readLeaves (s : State) (g : Nat) (addrs : List Nat) : ReadLeaves s (takeErased s g addrs).1 :=
  ⟨(takeErased_frame s g addrs).groupsNoted (by decide), takeErased_failed s g addrs⟩

theorem nominate_readLeaves (s : State) (g c p slot : Nat) : ReadLeaves s (nominate s g c p slot) := by
  refine ⟨?_, fun ch => by rw [(nominate_frame s g c p slot).channelOf (by decide)]⟩
  unfold nominate
  dsimp only
  split
  · exact .refl s
  · exact (modGroup_groupsNoted (fun _ => rfl) s g).trans ((bump_frame _ _ _ _).groupsNoted (by decide))

theorem nominateAfter_readLeaves (s : State) (pl : Place) (errors : List Nat) (good recovered : Bool) (threshold : Nat) :
    ReadLeaves s (nominateAfter s pl errors good recovered threshold) := by
  unfold nominateAfter
  split
  · exact .refl s
  · exact List.foldlRecOn (motive := fun x => ReadLeaves s x) _ _ (.refl s) fun _ hx c _ =>
      hx.trans (nominate_readLeaves _ _ c _ _)

theorem readTile_readLeaves (s : State) (t : TileId) (pl : Place) (err : Codeword) :
    ReadLeaves s (readTile (takeErased s pl.group pl.addrs).1 t pl err (takeErased s pl.group pl.addrs).2).1 :=
  (takeErased_readLeaves _ _ _).trans ((readTile_frame _ _ _ _ _).readLeaves (by decide) (by decide))

theorem bumpCodec_if_frame (c : Prop) [Decidable c] (s : State) (g sub n : Nat) :
    Frame [.stats] s (if c then bumpCodec s g sub n else s) :=
  Frame.ite (bumpCodec_frame _ _ _ _) (.refl _ s)

theorem engineAttempts_readLeaves (fuel : Nat) (s : State) (t : TileId) (pl : Place) (errs : List Codeword) (limits : Nat × Nat)
    (n : Nat) (mis bad : Bool) : ReadLeaves s (engineAttempts fuel s t pl errs limits n mis bad).1 := by
  induction fuel generalizing s errs n mis bad with
  | zero =>
    unfold engineAttempts
    exact .refl s
  | succ fuel ih =>
    have hread := readTile_readLeaves s t pl (errs.headD 0)
    have hretry (x : State) := (retryIssued_frame x pl.group).readLeaves (by decide) (by decide)
    unfold engineAttempts
    dsimp only
    split
    · exact hread.trans (((bumpCodec_if_frame (bad = true) _ _ _ _).readLeaves (by decide) (by decide)).trans
        (nominateAfter_readLeaves _ _ _ _ _ _))
    · exact hread.trans (((bumpCodec_if_frame (bad = true) _ _ _ _).readLeaves (by decide) (by decide)).trans
        (nominateAfter_readLeaves _ _ _ _ _ _))
    · have hmisdirected := hread.trans ((misdirectedEvent_frame _ t pl).readLeaves (by decide) (by decide))
      split
      · exact hmisdirected.trans ((hretry _).trans (ih ..))
      · dsimp only
        exact hmisdirected
    · have hfailed := hread.trans ((bumpCodec_if_frame (n = 0) _ pl.group 5 1).readLeaves (by decide) (by decide))
      split
      · exact hfailed.trans ((hretry _).trans (ih ..))
      · dsimp only
        exact hfailed

theorem engineRead_readLeaves (s : State) (t : TileId) (pl : Place) (errs : List Codeword) :
    ReadLeaves s (engineRead s t pl errs).1 :=
  engineAttempts_readLeaves 3 s t pl errs (latchNow s) 0 false false

theorem engineRead_sameSlots (s : State) (t : TileId) (pl : Place) (errs : List Codeword) :
    SameSlots s (engineRead s t pl errs).1 := by
  have hframe := engineRead_frame s t pl errs
  obtain ⟨hgroups, hfailed⟩ := engineRead_readLeaves s t pl errs
  exact hgroups.sameSlots (hframe.power_eq (by decide)) hfailed (hframe.path_eq (by decide)) (hframe .palette (by decide))

/-! ### What the outcome of a read rests on -/

/-- The channels after erased transfers are taken depend on the channels alone. -/
theorem takeErased_channels_congr {s t : State} (h : t.channels = s.channels) (g : Nat) (addrs : List Nat) :
    (takeErased t g addrs).1.channels = (takeErased s g addrs).1.channels := by
  have hstep (x y : State × List Nat) (c : Nat) (hxy : x.1.channels = y.1.channels) :
      (takeColumn g addrs x c).1.channels = (takeColumn g addrs y c).1.channels := by
    have hof : channelOf x.1 (8 * g + c) = channelOf y.1 (8 * g + c) := by
      unfold channelOf
      rw [hxy]
    unfold takeColumn
    rw [hof]
    dsimp only
    split
    · unfold modChannel
      rw [hxy]
    · exact hxy
  have hfold (l : List Nat) (x y : State × List Nat) (hxy : x.1.channels = y.1.channels) :
      (l.foldl (takeColumn g addrs) x).1.channels = (l.foldl (takeColumn g addrs) y).1.channels := by
    induction l generalizing x y with
    | nil => exact hxy
    | cons c l ih => exact ih _ _ (hstep x y c hxy)
  rw [takeErased_eq_foldl, takeErased_eq_foldl]
  exact hfold _ (t, []) (s, []) h

/-- The same channels and slots: a read of a tile finds the same in both. -/
structure ReadsAlike (s t : State) : Prop where
  channels : t.channels = s.channels
  slots : SameSlots s t

/-- A change that leaves channels and slots, made on both sides. -/
theorem ReadsAlike.step {U : List UnitName} {s t s' t' : State} (h : ReadsAlike s t) (hs : Frame U s s') (ht : Frame U t t')
    (hgroups : .groups ∉ U) (hpower : .power ∉ U) (hchannels : .channels ∉ U) (hpath : .path ∉ U) (hpalette : .palette ∉ U) :
    ReadsAlike s' t' where
  channels := by rw [ht.channels_eq hchannels, hs.channels_eq hchannels, h.channels]
  slots := (hs.sameSlots hgroups hpower hchannels hpath hpalette).symm.trans
    (h.slots.trans (ht.sameSlots hgroups hpower hchannels hpath hpalette))

theorem takeErased_sameSlots (s : State) (g : Nat) (addrs : List Nat) : SameSlots s (takeErased s g addrs).1 := by
  have hframe := takeErased_frame s g addrs
  exact (hframe.groupsNoted (by decide)).sameSlots (hframe.power_eq (by decide)) (takeErased_failed s g addrs)
    (hframe.path_eq (by decide)) (hframe .palette (by decide))

theorem ReadsAlike.takeErased {s t : State} (h : ReadsAlike s t) (g : Nat) (addrs : List Nat) :
    ReadsAlike (Machine.takeErased s g addrs).1 (Machine.takeErased t g addrs).1 :=
  ⟨takeErased_channels_congr h.channels g addrs,
    (takeErased_sameSlots s g addrs).symm.trans (h.slots.trans (takeErased_sameSlots t g addrs))⟩

theorem ReadsAlike.readTile {s t : State} (h : ReadsAlike s t) (x : TileId) (pl : Place) (err : Codeword) (xfer : List Nat) :
    (Machine.readTile t x pl err xfer).2 = (Machine.readTile s x pl err xfer).2 := by
  unfold Machine.readTile
  dsimp only
  rw [h.slots.erasedColumns, decodeAt_congr h.slots.path]

/-- What an engine's read gives rests on the channels, the medium and the mapping alone. -/
theorem ReadsAlike.engineAttempts {s t : State} (h : ReadsAlike s t) (fuel : Nat) (x : TileId) (pl : Place) (errs : List Codeword)
    (limits : Nat × Nat) (n : Nat) (mis bad : Bool) :
    (Machine.engineAttempts fuel t x pl errs limits n mis bad).2 = (Machine.engineAttempts fuel s x pl errs limits n mis bad).2 := by
  induction fuel generalizing s t errs n mis bad with
  | zero =>
    unfold Machine.engineAttempts
    rfl
  | succ fuel ih =>
    have htaken := h.takeErased pl.group pl.addrs
    have hcols := takeErased_columns_congr h.channels pl.group pl.addrs
    have hread := htaken.readTile x pl (errs.headD 0) (Machine.takeErased s pl.group pl.addrs).2
    have halike := htaken.step (readTile_frame _ x pl (errs.headD 0) (Machine.takeErased s pl.group pl.addrs).2)
      (readTile_frame _ x pl (errs.headD 0) (Machine.takeErased s pl.group pl.addrs).2)
      (by decide) (by decide) (by decide) (by decide) (by decide)
    have hretry {a b : State} (hab : ReadsAlike a b) : ReadsAlike (retryIssued a pl.group) (retryIssued b pl.group) :=
      hab.step (retryIssued_frame _ _) (retryIssued_frame _ _) (by decide) (by decide) (by decide) (by decide) (by decide)
    unfold Machine.engineAttempts
    dsimp only
    rw [hcols, hread]
    split
    · rfl
    · rfl
    · split
      · exact ih (hretry (halike.step (misdirectedEvent_frame _ x pl) (misdirectedEvent_frame _ x pl) (by decide) (by decide)
          (by decide) (by decide) (by decide))) ..
      · rfl
    · split
      · exact ih (hretry (halike.step (bumpCodec_if_frame (n = 0) _ _ 5 1) (bumpCodec_if_frame (n = 0) _ _ 5 1) (by decide)
          (by decide) (by decide) (by decide) (by decide))) ..
      · rfl

theorem ReadsAlike.engineRead {s t : State} (h : ReadsAlike s t) (hsettings : t.settings = s.settings) (x : TileId) (pl : Place)
    (errs : List Codeword) : (Machine.engineRead t x pl errs).2 = (Machine.engineRead s x pl errs).2 := by
  have hlimits : latchNow t = latchNow s := by
    unfold latchNow
    rw [settingN_congr hsettings, settingN_congr hsettings]
  unfold Machine.engineRead
  rw [hlimits]
  exact h.engineAttempts 3 x pl errs _ 0 false false

end Sys2Proof.Machine
end

section
/-! A gap step and its commit (R72, R44, R46). -/
namespace Sys2Proof.Machine

/-- Region `p` is the source or the destination of the group's move. -/
def inMove (s : State) (g p : Nat) : Bool :=
  match (groupOf s g).move with
  | some m => m.src == p || m.dst == p
  | none => false

/-- The slot beside the gap, whose tile a gap step moves (R72). -/
def besideGap (s : State) (g p : Nat) : Nat :=
  if (regionOf s g p).gap = 0 then 1048576 else (regionOf s g p).gap - 1

/-- The step of region `p` has left the group's steps. -/
def stepTaken (s : State) (g p : Nat) : State :=
  modGroup s g (fun x => { x with steps := x.steps.erase p })

/-- The job of a gap step stands in its group. -/
def gapJobSet (s : State) (g : Nat) (j : GapJob) : State :=
  modGroup s g (fun x => { x with gapJob := some j })

theorem stepTaken_frame (s : State) (g p : Nat) : Frame [.groups] s (stepTaken s g p) := modGroup_frame _ _ _

theorem gapJobSet_frame (s : State) (g : Nat) (j : GapJob) : Frame [.groups] s (gapJobSet s g j) := modGroup_frame _ _ _

/-- A gap step's region is the first queued one that neither moves nor is fenced, and nothing stands in the way of the step. -/
structure GapStepRuns (s : State) (g p : Nat) : Prop where
  first : (groupOf s g).steps.find? (fun q => !inMove s g q && !regionFenced s g q) = some p
  source : remapReady s (placeSlot s g p (besideGap s g p)) = true
  gap : remapReady s (placeSlot s g p (regionOf s g p).gap) = true
  job : (groupOf s g).gapJob = none
  runs : engineRuns s g = true
  held : slotHeld s g p (besideGap s g p) = false

section
variable {s : State} {group : Group} {p : Nat} (h : GapStepRuns s group.val p) (errs : List Codeword)
include h

theorem GapStepRuns.exec_none (htile : tileAt s group.val p (besideGap s group.val p) = none) :
    exec (.gapStep group errs) s = .next (gapJobSet (stepTaken s group.val p) group.val
      { region := p, src := besideGap s group.val p, dst := (regionOf s group.val p).gap, code := [] }) := by
  obtain ⟨hfirst, hsource, hgap, hjob, hruns, hheld⟩ := h
  show execGapStep group errs s = _
  unfold besideGap at *
  unfold execGapStep
  dsimp only
  split
  case h_1 hnone => exact absurd (hnone.symm.trans hfirst) (by simp)
  case h_2 q hsome =>
    obtain rfl : q = p := Option.some.inj (hsome.symm.trans hfirst)
    rw [htile]
    simp only [hsource, hgap, hjob, hruns, hheld, Bool.and_self, Option.isSome_none, Bool.false_eq_true, Bool.true_eq_false,
      or_self, if_false]
    rfl

theorem GapStepRuns.exec_some {x : TileId} (htile : tileAt s group.val p (besideGap s group.val p) = some x)
    (hflight : tileInFlight s x = false) (hunit : unitInRegion s x = false) :
    exec (.gapStep group errs) s = .next (gapJobSet
      (movedCode (stepTaken s group.val p) group.val x
        (placeSlot (stepTaken s group.val p) group.val p (besideGap s group.val p)) errs).1 group.val
      { region := p, src := besideGap s group.val p, dst := (regionOf s group.val p).gap,
        code := (movedCode (stepTaken s group.val p) group.val x
          (placeSlot (stepTaken s group.val p) group.val p (besideGap s group.val p)) errs).2 }) := by
  obtain ⟨hfirst, hsource, hgap, hjob, hruns, hheld⟩ := h
  show execGapStep group errs s = _
  unfold besideGap at *
  unfold execGapStep
  dsimp only
  split
  case h_1 hnone => exact absurd (hnone.symm.trans hfirst) (by simp)
  case h_2 q hsome =>
    obtain rfl : q = p := Option.some.inj (hsome.symm.trans hfirst)
    rw [htile]
    simp only [hsource, hgap, hjob, hruns, hheld, hflight, hunit, Bool.and_self, Bool.or_self, Option.isSome_none,
      Bool.false_eq_true, Bool.true_eq_false, or_self, if_false]
    rfl

end

theorem renewed_congr {s t : State} (hpath : t.path = s.path) (x : TileId) (content : List Byte) (poison : Bool) :
    renewed t x content poison = renewed s x content poison := by
  unfold renewed epochByte
  rw [hpath]

/-- What a move programs for a tile that was read (R44): its content with the current epoch. -/
theorem movedCode_of_good {s : State} {g : Nat} {x : TileId} {pl : Place} {errs : List Codeword} {content : List Byte}
    {errors : List Nat} (h : (engineRead s x pl errs).2.1 = .good content errors) :
    movedCode s g x pl errs = ((engineRead s x pl errs).1, renewed s x content false) := by
  unfold movedCode
  dsimp only
  rw [h]
  dsimp only
  rw [renewed_congr ((engineRead_frame s x pl errs).path_eq (by decide))]

/-- Where the job of a gap step stands, nothing else of the group but its steps has changed since. -/
theorem gapJobSet_after {s d : State} {g p : Nat} (hd : ReadLeaves (stepTaken s g p) d) (j : GapJob) :
    (groupOf (gapJobSet d g j) g).gapJob = some j ∧ (groupOf (gapJobSet d g j) g).steps = (groupOf s g).steps.erase p ∧
      ∀ q, regionOf (gapJobSet d g j) g q = regionOf s g q := by
  unfold gapJobSet
  refine ⟨by rw [groupOf_modGroup_self], ?_, fun q => ?_⟩
  · rw [groupOf_modGroup_self, hd.groups g]
    unfold stepTaken
    rw [groupOf_modGroup_self]
  · have hset := (modGroup_sameSlots (f := fun x => { x with gapJob := some j }) (fun _ => rfl) (fun _ => rfl) (fun _ => rfl)
      (fun _ => rfl) d g).regionOf g q
    have htaken := (modGroup_sameSlots (f := fun x => { x with steps := x.steps.erase p }) (fun _ => rfl) (fun _ => rfl)
      (fun _ => rfl) (fun _ => rfl) s g).regionOf g q
    exact hset.trans ((hd.groups.regionOf g q).trans htaken)

theorem stepTaken_readsAlike (s : State) (g p : Nat) : ReadsAlike s (stepTaken s g p) where
  channels := rfl
  slots := modGroup_sameSlots (f := fun x => { x with steps := x.steps.erase p }) (fun _ => rfl) (fun _ => rfl) (fun _ => rfl)
    (fun _ => rfl) s g

/-- The gap step of a slot that holds no tile takes its place without a program. -/
theorem gapStep_of_none {s : State} {group : Group} {p : Nat} (errs : List Codeword) (h : GapStepRuns s group.val p)
    (htile : tileAt s group.val p (besideGap s group.val p) = none) :
    ∃ t, exec (.gapStep group errs) s = .next t ∧ Frame [.groups] s t ∧
      (groupOf t group.val).gapJob =
        some { region := p, src := besideGap s group.val p, dst := (regionOf s group.val p).gap, code := [] } ∧
      (groupOf t group.val).steps = (groupOf s group.val).steps.erase p ∧
      ∀ q, regionOf t group.val q = regionOf s group.val q :=
  ⟨_, h.exec_none errs htile, Frame.step (gapJobSet_frame _ _ _) (stepTaken_frame s _ p) rfl,
    gapJobSet_after (.refl _) _⟩

/-- The gap step of a tile that reads well programs its content with the current epoch. -/
theorem gapStep_of_good {s : State} {group : Group} {p : Nat} (errs : List Codeword) (h : GapStepRuns s group.val p)
    {x : TileId} (htile : tileAt s group.val p (besideGap s group.val p) = some x) (hflight : tileInFlight s x = false)
    (hunit : unitInRegion s x = false) {content : List Byte} {errors : List Nat}
    (hgood : (engineRead s x (placeSlot s group.val p (besideGap s group.val p)) errs).2.1 = .good content errors) :
    ∃ t, exec (.gapStep group errs) s = .next t ∧
      Frame [.mgmt, .folio, .ledger, .channels, .groups, .perf, .stats, .out] s t ∧
      (groupOf t group.val).gapJob = some
        { region := p, src := besideGap s group.val p, dst := (regionOf s group.val p).gap,
          code := renewed s x content false } ∧
      (groupOf t group.val).steps = (groupOf s group.val).steps.erase p ∧
      ∀ q, regionOf t group.val q = regionOf s group.val q := by
  have halike := stepTaken_readsAlike s group.val p
  have hplace := halike.slots.placeSlot group.val p (besideGap s group.val p)
  have hread : (engineRead (stepTaken s group.val p) x (placeSlot s group.val p (besideGap s group.val p)) errs).2.1 =
      .good content errors := by
    rw [halike.engineRead rfl]
    exact hgood
  have hexec := h.exec_some errs htile hflight hunit
  rw [hplace, movedCode_of_good hread, renewed_congr halike.slots.path] at hexec
  dsimp only at hexec
  have hframe : Frame [.mgmt, .folio, .ledger, .channels, .groups, .perf, .stats, .out] s _ :=
    Frame.step (engineRead_frame (stepTaken s group.val p) x (placeSlot s group.val p (besideGap s group.val p)) errs)
      ((stepTaken_frame s group.val p).mono rfl) rfl
  exact ⟨_, hexec, Frame.step (gapJobSet_frame _ _ _) hframe rfl, gapJobSet_after (engineRead_readLeaves _ _ _ _) _⟩

theorem exec_gapStep_idle {s : State} {group : Group} (errs : List Codeword)
    (h : (groupOf s group.val).gapJob.isSome = true ∨ engineRuns s group.val = false ∨ (groupOf s group.val).steps = []) :
    exec (.gapStep group errs) s = .next s := by
  show execGapStep group errs s = _
  unfold execGapStep
  dsimp only
  split
  case h_1 => rfl
  case h_2 p hfirst =>
    have hsteps : (groupOf s group.val).steps ≠ [] := by
      intro hnil
      rw [hnil] at hfirst
      exact Option.some_ne_none _ hfirst.symm
    rw [if_pos]
    rcases h with hjob | hruns | hnil
    · exact .inl hjob
    · exact .inr (.inl hruns)
    · exact absurd hnil hsteps

end Sys2Proof.Machine
end

section
/-! The commit of a gap step (R72): the tile stands in the gap, which has moved on. -/
namespace Sys2Proof.Machine

theorem regionOf_modRegion (s : State) (g p : Nat) (f : RegionRec → RegionRec) (q : Nat) :
    regionOf (modRegion s g p f) g q = if q = p then f (regionOf s g p) else regionOf s g q := by
  unfold modRegion regionOf
  rw [groupOf_modGroup_self]
  dsimp only
  rw [tabGet_mod]

/-- With no column failed no program of a spare is asked for. -/
theorem maskColumns_zero : maskColumns 0 = [] := by decide

theorem remapRecords_zero : remapRecords 0 [] = 0 := by
  unfold remapRecords
  rw [maskColumns_zero]
  rfl

theorem remapFailed_zero (s : State) (g p slot : Nat) (code : List Byte) : remapFailed s g p slot code 0 [] = s := by
  unfold remapFailed
  rw [maskColumns_zero]
  rfl

/-- Where a region holds no remapped patch every patch of a slot lies at the slot's own address (R64, R81). -/
theorem slotAddrs_of_hr_clear {s : State} {g p : Nat} (h : (regionOf s g p).hr = false) (slot : Nat) {c : Nat} (hc : c < 8) :
    (slotAddrs s g p slot).getD c 0 = regionBase s g p + slot := by
  unfold slotAddrs
  dsimp only
  rw [h, if_neg Bool.false_ne_true, List.getD_eq_getElem _ _ (by simpa using hc), List.getElem_replicate]

theorem remapReady_of_hr_clear {s : State} {g p : Nat} (h : (regionOf s g p).hr = false) (slot : Nat) :
    remapReady s (placeSlot s g p slot) = true := by
  unfold remapReady placeSlot
  dsimp only
  rw [h]
  rfl

/-- A program at a slot of a region that holds no remapped patch (R46, R54). -/
theorem medium_programAt_slot {s : State} {g p slot : Nat} (hhr : (regionOf s g p).hr = false)
    (hbase : regionBase s g p + slot < 2 ^ 35) (hfence : placeFenced s (placeSlot s g p slot) = false) (code : List Byte)
    {ch a : Nat} (ha : a < 2 ^ 35) :
    tabGet dPatch (programAt s (placeSlot s g p slot) code).path.medium (patchKey ch a) =
      if ch / 8 = g ∧ a = regionBase s g p + slot ∧ ch % 8 ∉ erasedColumns s g (some (p, slot)) then patchOfSymbols code (ch % 8)
      else tabGet dPatch s.path.medium (patchKey ch a) := by
  have haddr {c : Nat} (hc : c < 8) : (placeSlot s g p slot).addrs.getD c 0 = regionBase s g p + slot :=
    slotAddrs_of_hr_clear hhr slot hc
  rw [medium_programAt hfence (fun c hc => by rw [haddr hc]; exact hbase) code ha, haddr (Nat.mod_lt _ (by decide))]
  rfl

/-- The entry of a region whose gap step has been made: the gap stands where the tile came from, the start moves as it wraps, and
every sixteenth step adds to the heat (R72). -/
def gapMoved (src : Nat) (r : RegionRec) : RegionRec :=
  { r with start := if r.gap = 0 then (r.start + 1) % 1048576 else r.start, gap := src,
           heat := if src % 16 = 0 ∧ r.heat < 255 then r.heat + 1 else r.heat }

/-- The program of a gap step is complete: gap, start and heat follow, and the record stands in the queue. -/
def gapStepped (s : State) (g : Nat) (j : GapJob) : State :=
  jqPush (modRegion s g j.region (gapMoved j.src)) g [stepUnit j.region]

/-- A group's gap step has ended. -/
def gapJobDone (s : State) (g : Nat) : State :=
  bump (modGroup s g (fun x => { x with gapJob := none })) (0x2210 + g) 7 1

theorem exec_gapStepCommit {s : State} {group : Group} {j : GapJob} (hjob : (groupOf s group.val).gapJob = some j)
    (hcode : j.code ≠ []) (hroom : journalRoom s group.val 1 = true) (hhr : (regionOf s group.val j.region).hr = false) :
    exec (.gapStepCommit group ⟨0, []⟩) s = .next (gapJobDone
      (gapStepped (programAt s (placeSlot s group.val j.region j.dst) j.code) group.val j) group.val) := by
  have hready := remapReady_of_hr_clear hhr j.dst
  show execGapStepCommit group ⟨0, []⟩ s = _
  unfold execGapStepCommit
  dsimp only
  rw [hjob]
  dsimp only
  rw [hready, if_neg (by decide), remapRecords_zero, hroom, if_pos rfl, if_neg hcode, remapFailed_zero]
  rfl

theorem gapStepped_frame (s : State) (g : Nat) (j : GapJob) :
    Frame [.groups, .queues, .perf, .stats] s (gapStepped s g j) :=
  Frame.step (jqPush_frame _ _ _) ((modRegion_frame _ _ _ _).mono rfl) rfl

theorem gapJobDone_frame (s : State) (g : Nat) : Frame [.groups, .stats] s (gapJobDone s g) :=
  Frame.step (bump_frame _ _ _ _) ((modGroup_frame _ _ _).mono rfl) rfl

theorem statBits_gapSteps {g : Nat} (hg : g < 8) : statBits (0x2210 + g) 7 = 64 := by
  interval_cases g <;> rfl

theorem groupOf_gapJobDone (s : State) (g : Nat) : groupOf (gapJobDone s g) g = { groupOf s g with gapJob := none } := by
  unfold gapJobDone
  rw [(bump_frame _ _ _ _).groupOf (by decide), groupOf_modGroup_self]

theorem regionOf_gapJobDone (s : State) (g q : Nat) : regionOf (gapJobDone s g) g q = regionOf s g q := by
  unfold regionOf
  rw [groupOf_gapJobDone]

theorem regionOf_gapStepped (s : State) (g : Nat) (j : GapJob) (q : Nat) :
    regionOf (gapStepped s g j) g q = if q = j.region then gapMoved j.src (regionOf s g q) else regionOf s g q := by
  unfold gapStepped
  rw [(jqPush_groupsNoted _ _ _).regionOf, regionOf_modRegion]
  split
  case isTrue heq => rw [heq]
  case isFalse => rfl

theorem gapStepped_lowStatsKept (s : State) (g : Nat) (j : GapJob) : LowStatsKept s (gapStepped s g j) :=
  ((modRegion_frame s g j.region (gapMoved j.src)).lowStatsKept (by decide)).trans (jqPush_lowStatsKept _ _ _)

theorem stat_gapJobDone (s : State) {g : Nat} (hg : g < 8) :
    stat (gapJobDone s g) (0x2210 + g) 7 = (stat s (0x2210 + g) 7 + 1) % 2 ^ 64 := by
  unfold gapJobDone
  rw [stat_bump, if_pos rfl, statBits_gapSteps hg, (modGroup_frame _ _ _).stat (by decide)]
  norm_num

/-- The commit of a gap step: the tile stands in the gap, and the region's gap, start and heat have moved on. -/
theorem gapStepCommit_of_room {s : State} {group : Group} {j : GapJob} (hjob : (groupOf s group.val).gapJob = some j)
    (hcode : j.code ≠ []) (hroom : journalRoom s group.val 1 = true) (hhr : (regionOf s group.val j.region).hr = false)
    (hbase : regionBase s group.val j.region + 2 ^ 21 < 2 ^ 35) (hdst : j.dst ≤ 1048576)
    (hfence : placeFenced s (placeSlot s group.val j.region j.dst) = false) :
    ∃ t, exec (.gapStepCommit group ⟨0, []⟩) s = .next t ∧
      Frame [.sys, .folio, .groups, .queues, .perf, .path, .stats] s t ∧
      (∀ ch a, a < 2 ^ 35 → tabGet dPatch t.path.medium (patchKey ch a) =
        if ch / 8 = group.val ∧ a = regionBase s group.val j.region + j.dst ∧
            ch % 8 ∉ erasedColumns s group.val (some (j.region, j.dst))
        then patchOfSymbols j.code (ch % 8) else tabGet dPatch s.path.medium (patchKey ch a)) ∧
      (groupOf t group.val).gapJob = none ∧
      stat t (0x2210 + group.val) 7 = (stat s (0x2210 + group.val) 7 + 1) % 2 ^ 64 ∧
      ∀ q, regionOf t group.val q =
        if q = j.region then gapMoved j.src (regionOf s group.val q) else regionOf s group.val q := by
  have hprogram := programAt_frame s (placeSlot s group.val j.region j.dst) j.code
  refine ⟨_, exec_gapStepCommit hjob hcode hroom hhr, Frame.step (gapJobDone_frame _ _) (Frame.step (gapStepped_frame _ _ _)
    (hprogram.mono rfl) rfl) rfl, fun ch a ha => ?_, ?_, ?_, fun q => ?_⟩
  · rw [(gapJobDone_frame _ _).path_eq (by decide), (gapStepped_frame _ _ _).path_eq (by decide)]
    exact medium_programAt_slot hhr (by omega) hfence j.code ha
  · rw [groupOf_gapJobDone]
  · rw [stat_gapJobDone _ group.isLt,
      ((programAt_lowStatsKept s _ j.code).trans (gapStepped_lowStatsKept _ _ j)) _ _ (by omega) (by decide)]
  · rw [regionOf_gapJobDone, regionOf_gapStepped, (programAt_groupsNoted s _ j.code).regionOf]

theorem exec_gapStepCommit_idle {s : State} {group : Group} (failed : ProgramFailure)
    (h : (groupOf s group.val).gapJob = none ∨ ∃ j, (groupOf s group.val).gapJob = some j ∧
      remapReady s (placeSlot s group.val j.region j.dst) = true ∧
      journalRoom s group.val (1 + remapRecords failed.columns failed.spares) = false) :
    exec (.gapStepCommit group failed) s = .next s := by
  show execGapStepCommit group failed s = _
  unfold execGapStepCommit
  rcases h with hnone | ⟨j, hjob, hready, hroom⟩
  · dsimp only
    rw [hnone]
  · dsimp only
    rw [hjob]
    dsimp only
    rw [hready, if_neg (by decide), hroom, if_neg (by decide)]

end Sys2Proof.Machine
end

section
/-! A swap interval (R75, R76 step 1, R87): the hottest region, the move that begins, and the threshold of the next interval. -/
namespace Sys2Proof.Machine

/-! ### The hottest region (R75) -/

/-- One region in the search for the hottest: it replaces the best so far if it is mapped and hotter. -/
def hotter (s : State) (g : Nat) (best : Option Nat) (l : Nat) : Option Nat :=
  let x := groupOf s g
  let e := tabGet dEntry x.table l
  if e.mapped then
    match best with
    | none => some l
    | some b => if (regionOf s g (tabGet dEntry x.table b).phys).heat < (regionOf s g e.phys).heat then some l else best
  else best

theorem hottest_eq (s : State) (g : Nat) :
    hottest s g = ((List.range (logicalCount s g)).map (fun i => ((groupOf s g).hot + i) % logicalCount s g)).foldl (hotter s g)
      none := rfl

/-- The heat of the physical region that holds logical region `l`. -/
def heatOf (s : State) (g l : Nat) : Nat :=
  (regionOf s g (tabGet dEntry (groupOf s g).table l).phys).heat

/-- What a search has found is as hot as what it began with and as every mapped region it has passed. -/
theorem heat_le_of_search {s : State} {g h : Nat} (ls : List Nat) (best : Option Nat) (hfound : ls.foldl (hotter s g) best = some h) :
    (∀ b, best = some b → heatOf s g b ≤ heatOf s g h) ∧
      ∀ l ∈ ls, (tabGet dEntry (groupOf s g).table l).mapped = true → heatOf s g l ≤ heatOf s g h := by
  induction ls generalizing best with
  | nil =>
    obtain rfl : best = some h := hfound
    exact ⟨fun b hb => by rw [Option.some.inj hb], fun l hl => absurd hl List.not_mem_nil⟩
  | cons y ls ih =>
    obtain ⟨hbest, hrest⟩ := ih (hotter s g best y) hfound
    rw [List.forall_mem_cons]
    by_cases hmapped : (tabGet dEntry (groupOf s g).table y).mapped = true
    · cases best with
      | none =>
        have hstep : hotter s g none y = some y := by
          unfold hotter
          dsimp only
          rw [if_pos hmapped]
        exact ⟨fun b hb => absurd hb (by simp), fun _ => hbest y hstep, hrest⟩
      | some b =>
        have hstep : hotter s g (some b) y = if heatOf s g b < heatOf s g y then some y else some b := by
          unfold hotter heatOf
          dsimp only
          rw [if_pos hmapped]
        by_cases hlt : heatOf s g b < heatOf s g y
        · have hy := hbest y (hstep.trans (if_pos hlt))
          exact ⟨fun b' hb' => by obtain rfl := Option.some.inj hb'; omega, fun _ => hy, hrest⟩
        · have hb := hbest b (hstep.trans (if_neg hlt))
          exact ⟨fun b' hb' => by obtain rfl := Option.some.inj hb'; exact hb, fun _ => by omega, hrest⟩
    · have hstep : hotter s g best y = best := by
        unfold hotter
        dsimp only
        rw [if_neg hmapped]
      exact ⟨fun b hb => hbest b (hstep.trans hb), fun hm => absurd hm hmapped, hrest⟩

/-- The search passes every logical region. -/
theorem heat_le_hottest {s : State} {g h : Nat} (hfound : hottest s g = some h) {l : Nat} (hl : l < logicalCount s g)
    (hmapped : (tabGet dEntry (groupOf s g).table l).mapped = true) : heatOf s g l ≤ heatOf s g h := by
  refine (heat_le_of_search _ none ((hottest_eq s g).symm.trans hfound)).2 l ?_ hmapped
  have hpos : 0 < logicalCount s g := by omega
  refine List.mem_map.mpr ⟨(l + logicalCount s g - (groupOf s g).hot % logicalCount s g) % logicalCount s g,
    List.mem_range.mpr (Nat.mod_lt _ hpos), ?_⟩
  have hmod := Nat.mod_lt (groupOf s g).hot hpos
  have hsum : (groupOf s g).hot + (l + logicalCount s g - (groupOf s g).hot % logicalCount s g) =
      l + logicalCount s g * ((groupOf s g).hot / logicalCount s g + 1) := by
    have hdiv := Nat.div_add_mod (groupOf s g).hot (logicalCount s g)
    rw [Nat.mul_add]
    omega
  rw [Nat.add_mod_mod, hsum, Nat.add_mul_mod_self_left, Nat.mod_eq_of_lt hl]

/-! ### The move that begins (R76 step 1) -/

/-- The stale column, if there is one, of a channel that is lost marks a fresh region for the rebuild (R468). -/
def freshRebuild (s : State) (g : Nat) : Bool :=
  match (groupOf s g).stale with
  | some c => columnLost s g c
  | none => false

/-- The entry of a region that begins as the destination of logical region `x` (R76). -/
def begunRegion (s : State) (g x : Nat) (r : RegionRec) : RegionRec :=
  { r with start := 0, gap := 1048576, count := 0, key := drawn s 16, heat := 0, owner := x,
           md := (regionOf s g (tabGet dEntry (groupOf s g).table x).phys).md, sw := true, rt := false, fr := false,
           rb := freshRebuild s g }

/-- The record of the move of logical region `x` that begins. -/
def begunMove (s : State) (g kind x d partner : Nat) : MoveRec :=
  { kind := kind, logical := x, src := (tabGet dEntry (groupOf s g).table x).phys, dst := d, partner := partner }

/-- The destination is initialised and the move stands in the group; its record has not been pushed yet. -/
def moveNoted (s : State) (g kind x d partner : Nat) : State :=
  modGroup (modRegion (afterDraw s) g d (begunRegion s g x)) g (fun y => { y with
    table := tabMod dEntry y.table x (fun e => { e with moving := true }), move := some (begunMove s g kind x d partner) })

theorem moveBegin_eq (s : State) (g kind x d partner : Nat) :
    moveBegin s g kind x d partner = jqPush (moveNoted s g kind x d partner) g (moveBeginUnits (kind == 4) x d (drawn s 16)) := rfl

theorem groupOf_moveNoted (s : State) (g kind x d partner : Nat) :
    groupOf (moveNoted s g kind x d partner) g = { groupOf s g with
      regions := tabMod dRegion (groupOf s g).regions d (begunRegion s g x)
      table := tabMod dEntry (groupOf s g).table x (fun e => { e with moving := true })
      move := some (begunMove s g kind x d partner) } := by
  unfold moveNoted modRegion
  rw [groupOf_modGroup_self, groupOf_modGroup_self]
  rfl

/-- A move that begins leaves of its group everything but the destination's entry, the logical region's mark, the move and the time
of the push. -/
theorem groupOf_moveBegin (s : State) (g kind x d partner : Nat) :
    groupOf (moveBegin s g kind x d partner) g = { groupOf s g with
      regions := tabMod dRegion (groupOf s g).regions d (begunRegion s g x)
      table := tabMod dEntry (groupOf s g).table x (fun e => { e with moving := true })
      move := some (begunMove s g kind x d partner)
      journalSince := (groupOf (moveBegin s g kind x d partner) g).journalSince } := by
  rw [moveBegin_eq]
  refine (groupOf_jqPush _ _ _ g).trans ?_
  rw [groupOf_moveNoted]

theorem moveBegin_lowStatsKept (s : State) (g kind x d partner : Nat) : LowStatsKept s (moveBegin s g kind x d partner) := by
  have hnoted : LowStatsKept s (moveNoted s g kind x d partner) :=
    (Frame.step (modGroup_frame _ _ _) (Frame.step (modRegion_frame (afterDraw s) g d (begunRegion s g x))
      ((afterDraw_frame s).mono rfl) rfl) rfl : Frame [.groups, .draws] s _).lowStatsKept (by decide)
  rw [moveBegin_eq]
  exact hnoted.trans (jqPush_lowStatsKept _ _ _)

/-! ### The interval (R75, R87) -/

theorem takeSwap_runs (s : State) (g : Nat) : engineRuns (takeSwap s g) g = engineRuns s g := rfl

theorem takeSwap_cool (s : State) (g : Nat) : groupCool (takeSwap s g) g = groupCool s g := rfl

theorem takeSwap_room (s : State) (g n : Nat) : journalRoom (takeSwap s g) g n = journalRoom s g n := rfl

theorem takeSwap_hottest (s : State) (g : Nat) : hottest (takeSwap s g) g = hottest s g := rfl

/-- The next interval begins under the setting (R87). -/
theorem swapThreshold_takeSwap (s : State) (g : Nat) : swapThreshold (takeSwap s g) g = settingN s 0x2200 4 := by
  unfold swapThreshold takeSwap
  dsimp only
  rw [tabGet_set_self]
  rfl

/-- The logical region under the cold pointer, the one after the hottest where they meet (R75). -/
def coldRegion (s : State) (g h : Nat) : Nat :=
  let n := logicalCount s g
  if (groupOf s g).cold % n = h then (h + 1) % n else (groupOf s g).cold % n

/-- The free list without its head. -/
def freeSet (s : State) (g : Nat) (rest : List Nat) : State :=
  modGroup s g (fun x => { x with free := rest })

/-- The pointers of the next interval (R75). -/
def pointersSet (s : State) (g hot cold : Nat) : State :=
  modGroup s g (fun x => { x with hot := hot, cold := cold })

/-- The kind of the move a swap interval begins: a swap where the hottest region has reached the threshold, else a march (R75). -/
def swapKind (s : State) (g threshold h : Nat) : Nat :=
  if threshold ≤ heatOf s g h then 1 else 3

section
variable {s : State} {g h d : Nat} {rest : List Nat} (threshold : Nat) (hhot : hottest s g = some h)
  (hfree : (groupOf s g).free = d :: rest)
  (hmapped : (tabGet dEntry (groupOf s g).table (coldRegion s g h)).mapped = true)
include hhot hfree hmapped

theorem swapMove_of_mapped :
    swapMove s g threshold = pointersSet
      (moveBegin (freeSet s g rest) g (swapKind s g threshold h) (coldRegion s g h) d h) g
      ((h + 1) % logicalCount s g) ((coldRegion s g h + 1) % logicalCount s g) := by
  have htake : takeFree s g = some (d, freeSet s g rest) := by
    unfold takeFree
    rw [hfree]
    rfl
  unfold coldRegion at hmapped
  unfold swapMove
  dsimp only
  rw [hhot, htake]
  dsimp only
  dsimp only at hmapped
  rw [if_pos hmapped]
  rfl

theorem groupOf_swapMove : ∃ since,
    groupOf (swapMove s g threshold) g = { groupOf s g with
      free := rest
      regions := tabMod dRegion (groupOf s g).regions d (begunRegion s g (coldRegion s g h))
      table := tabMod dEntry (groupOf s g).table (coldRegion s g h) (fun e => { e with moving := true })
      move := some (begunMove s g (swapKind s g threshold h) (coldRegion s g h) d h)
      hot := (h + 1) % logicalCount s g
      cold := (coldRegion s g h + 1) % logicalCount s g
      journalSince := since } := by
  have hfreed : groupOf (freeSet s g rest) g = { groupOf s g with free := rest } := by
    unfold freeSet
    rw [groupOf_modGroup_self]
  have hregion (r : RegionRec) : begunRegion (freeSet s g rest) g (coldRegion s g h) r = begunRegion s g (coldRegion s g h) r := by
    unfold begunRegion freshRebuild regionOf
    rw [hfreed]
    rfl
  have hmove : begunMove (freeSet s g rest) g (swapKind s g threshold h) (coldRegion s g h) d h =
      begunMove s g (swapKind s g threshold h) (coldRegion s g h) d h := by
    unfold begunMove
    rw [hfreed]
  rw [swapMove_of_mapped threshold hhot hfree hmapped]
  unfold pointersSet
  rw [groupOf_modGroup_self, groupOf_moveBegin, hfreed, hmove, funext hregion]
  exact ⟨_, rfl⟩

end

theorem exec_swapInterval {s : State} {group : Group} (hruns : engineRuns s group.val = true) (hcool : groupCool s group.val = true)
    (hmove : (groupOf s group.val).move = none) (hroom : journalRoom s group.val 1 = true)
    (hretiring : (groupOf s group.val).retiring = []) :
    exec (.swapInterval group) s = .next (swapMove (takeSwap s group.val) group.val (swapThreshold s group.val)) := by
  have hgroup : groupOf (takeSwap s group.val) group.val = groupOf s group.val := rfl
  show execSwapInterval group s = _
  unfold execSwapInterval
  dsimp only
  rw [if_neg (by rw [takeSwap_runs, takeSwap_cool, takeSwap_room, hgroup, hruns, hcool, hmove, hroom]; decide),
    if_neg (by rw [hgroup, hretiring]; exact fun h => h rfl)]

theorem exec_swapInterval_idle {s : State} {group : Group}
    (h : engineRuns s group.val = false ∨ groupCool s group.val = false ∨ (groupOf s group.val).move.isSome = true) :
    exec (.swapInterval group) s = .next (takeSwap s group.val) := by
  have hgroup : groupOf (takeSwap s group.val) group.val = groupOf s group.val := rfl
  show execSwapInterval group s = _
  unfold execSwapInterval
  dsimp only
  rw [if_pos]
  rw [takeSwap_runs, takeSwap_cool, hgroup]
  tauto

/-- The work of a swap interval (R75): the move from the cold region to the head of the free list begins. -/
theorem swapInterval_begins {s : State} {group : Group} {h d : Nat} {rest : List Nat} (hruns : engineRuns s group.val = true)
    (hcool : groupCool s group.val = true) (hmove : (groupOf s group.val).move = none) (hroom : journalRoom s group.val 1 = true)
    (hretiring : (groupOf s group.val).retiring = []) (hhot : hottest s group.val = some h)
    (hfree : (groupOf s group.val).free = d :: rest)
    (hmapped : (tabGet dEntry (groupOf s group.val).table (coldRegion s group.val h)).mapped = true) :
    ∃ t, exec (.swapInterval group) s = .next t ∧ Frame [.sys, .groups, .queues, .perf, .stats, .draws] s t ∧
      (groupOf t group.val).move =
        some (begunMove s group.val (swapKind s group.val (swapThreshold s group.val) h) (coldRegion s group.val h) d h) ∧
      (groupOf t group.val).free = rest ∧
      (tabGet dEntry (groupOf t group.val).table (coldRegion s group.val h)).moving = true ∧
      (groupOf t group.val).hot = (h + 1) % logicalCount s group.val ∧
      (groupOf t group.val).cold = (coldRegion s group.val h + 1) % logicalCount s group.val ∧
      regionOf t group.val d = begunRegion s group.val (coldRegion s group.val h) (regionOf s group.val d) := by
  obtain ⟨since, hgroup⟩ := groupOf_swapMove (s := takeSwap s group.val) (swapThreshold s group.val)
    ((takeSwap_hottest s group.val).trans hhot) hfree hmapped
  refine ⟨_, exec_swapInterval hruns hcool hmove hroom hretiring,
    Frame.step (swapMove_frame _ _ _) ((takeSwap_frame s group.val).mono rfl) rfl, ?_, ?_, ?_, ?_, ?_, ?_⟩
  · rw [hgroup]
    rfl
  · rw [hgroup]
  · rw [hgroup]
    dsimp only
    rw [show coldRegion (takeSwap s group.val) group.val h = coldRegion s group.val h from rfl, tabGet_mod_self]
  · rw [hgroup]
    rfl
  · rw [hgroup]
    rfl
  · unfold regionOf
    rw [hgroup]
    dsimp only
    rw [tabGet_mod_self]
    rfl

end Sys2Proof.Machine
end

section
/-! The copy of a move's tile (R76 step 2, R44). -/
namespace Sys2Proof.Machine

theorem slotOf_le (r : RegionRec) (x : Nat) : slotOf r x ≤ 1048576 := by
  unfold slotOf
  dsimp only
  have h := Nat.mod_lt (x + r.start) (show 0 < 1048576 by decide)
  split <;> omega

theorem slotIn_le (s : State) (g p x : Nat) : slotIn s g p x ≤ 1048576 := slotOf_le _ _

/-- A group whose engine runs is not fenced. -/
theorem fenced_of_engineRuns {s : State} {g : Nat} (h : engineRuns s g = true) : (groupOf s g).fenced = false := by
  unfold engineRuns at h
  simp only [Bool.and_eq_true, Bool.not_eq_true'] at h
  obtain ⟨⟨-, hfenced⟩, -⟩ := h
  exact hfenced

theorem placeFenced_of_engineRuns {s : State} {g p : Nat} (h : engineRuns s g = true) (hregion : regionFenced s g p = false)
    (slot : Nat) : placeFenced s (placeSlot s g p slot) = false := by
  unfold placeFenced placeSlot
  dsimp only
  rw [fenced_of_engineRuns h, hregion]
  rfl

/-- One more tile of the batch is copied. -/
def tileCopied (s : State) (g : Nat) : State :=
  modGroup s g (fun x => { x with move := x.move.map (fun m => { m with copied := m.copied + 1 }) })

theorem tileCopied_frame (s : State) (g : Nat) : Frame [.groups] s (tileCopied s g) := modGroup_frame _ _ _

theorem move_tileCopied {s t : State} (h : GroupsNoted s t) {g : Nat} {m : MoveRec} (hmove : (groupOf s g).move = some m) :
    (groupOf (tileCopied t g) g).move = some { m with copied := m.copied + 1 } := by
  unfold tileCopied
  rw [groupOf_modGroup_self, h g]
  dsimp only
  rw [hmove]
  rfl

/-- The next tile of a move's batch can be copied: the move is in its batch, the engine runs, and no tile of the batch is in work
elsewhere. -/
structure TileCopyRuns (s : State) (g : Nat) (m : MoveRec) : Prop where
  move : (groupOf s g).move = some m
  copied : m.copied < 64
  runs : engineRuns s g = true
  room : journalRoom s g 1 = true
  sourceFence : regionFenced s g m.src = false
  destinationFence : regionFenced s g m.dst = false
  source : remapReady s (placeSlot s g m.src (slotIn s g m.src (m.pointer + m.copied))) = true
  destination : remapReady s (placeSlot s g m.dst (slotIn s g m.dst (m.pointer + m.copied))) = true
  idle : ∀ i, i < 64 → ∀ y, tileAt s g m.src (slotIn s g m.src (m.pointer + i)) = some y →
    tileInFlight s y = false ∧ unitInRegion s y = false

/-- The tile a move copies next, programmed at its destination where there is one. -/
def copyProgrammed (s : State) (g : Nat) (m : MoveRec) (errs : List Codeword) : State :=
  let src := slotIn s g m.src (m.pointer + m.copied)
  let dst := slotIn s g m.dst (m.pointer + m.copied)
  match tileAt s g m.src src with
  | some t =>
    let d := movedCode s g t (placeSlot s g m.src src) errs
    programAt d.1 (placeSlot d.1 g m.dst dst) d.2
  | none => s

theorem TileCopyRuns.exec {s : State} {group : Group} {m : MoveRec} (h : TileCopyRuns s group.val m) (errs : List Codeword) :
    Machine.exec (.moveTileCopy group errs ⟨0, []⟩) s = .next (tileCopied (copyProgrammed s group.val m errs) group.val) := by
  obtain ⟨hmove, hcopied, hruns, hroom, hsrc, hdst, hready, hready', hidle⟩ := h
  have hbatch : ((List.range 64).filterMap fun i => tileAt s group.val m.src (slotIn s group.val m.src (m.pointer + i))).any
      (fun t => tileInFlight s t || unitInRegion s t) = false := by
    rw [List.any_eq_false]
    intro y hy
    obtain ⟨i, hi, htile⟩ := List.mem_filterMap.mp hy
    obtain ⟨hflight, hunit⟩ := hidle i (List.mem_range.mp hi) y htile
    rw [hflight, hunit]
    decide
  show execMoveTileCopy group errs ⟨0, []⟩ s = _
  unfold execMoveTileCopy
  dsimp only
  have hstays : ((groupOf s group.val).move.isNone && engineRuns s group.val && groupCool s group.val &&
      journalRoom s group.val 1) = false := by
    rw [hmove]
    rfl
  rw [hstays, if_neg Bool.false_ne_true, hmove]
  dsimp only
  rw [if_neg (by rw [hruns, remapRecords_zero, hroom, hsrc, hdst]; simpa using hcopied), hbatch, if_neg Bool.false_ne_true, hready, hready',
    if_neg (by decide)]
  unfold copyProgrammed
  dsimp only
  simp only [remapFailed_zero]
  rfl

theorem copyProgrammed_of_none {s : State} {g : Nat} {m : MoveRec}
    (h : tileAt s g m.src (slotIn s g m.src (m.pointer + m.copied)) = none) (errs : List Codeword) :
    copyProgrammed s g m errs = s := by
  unfold copyProgrammed
  dsimp only
  rw [h]

/-- A slot that holds no tile is copied without a read. -/
theorem moveTileCopy_of_none {s : State} {group : Group} {m : MoveRec} (h : TileCopyRuns s group.val m) (errs : List Codeword)
    (htile : tileAt s group.val m.src (slotIn s group.val m.src (m.pointer + m.copied)) = none) :
    ∃ t, exec (.moveTileCopy group errs ⟨0, []⟩) s = .next t ∧ Frame [.groups] s t ∧
      (groupOf t group.val).move = some { m with copied := m.copied + 1 } := by
  refine ⟨_, h.exec errs, ?_, ?_⟩
  · rw [copyProgrammed_of_none htile]
    exact tileCopied_frame s _
  · rw [copyProgrammed_of_none htile]
    exact move_tileCopied (.refl s) h.move

section
variable {s : State} {g : Nat} {m : MoveRec} {x : TileId} {errs : List Codeword} {content : List Byte} {errors : List Nat}
  (htile : tileAt s g m.src (slotIn s g m.src (m.pointer + m.copied)) = some x)
  (hgood : (engineRead s x (placeSlot s g m.src (slotIn s g m.src (m.pointer + m.copied))) errs).2.1 = .good content errors)
include htile hgood

theorem copyProgrammed_of_good :
    copyProgrammed s g m errs =
      programAt (engineRead s x (placeSlot s g m.src (slotIn s g m.src (m.pointer + m.copied))) errs).1
        (placeSlot (engineRead s x (placeSlot s g m.src (slotIn s g m.src (m.pointer + m.copied))) errs).1 g m.dst
          (slotIn s g m.dst (m.pointer + m.copied))) (renewed s x content false) := by
  unfold copyProgrammed
  dsimp only
  rw [htile]
  dsimp only
  rw [movedCode_of_good hgood]

theorem copyProgrammed_frame :
    Frame [.sys, .mgmt, .folio, .ledger, .channels, .groups, .perf, .path, .stats, .out] s (copyProgrammed s g m errs) := by
  rw [copyProgrammed_of_good htile hgood]
  exact Frame.step (programAt_frame _ _ _) ((engineRead_frame _ _ _ _).mono rfl) rfl

theorem copyProgrammed_groupsNoted : GroupsNoted s (copyProgrammed s g m errs) := by
  rw [copyProgrammed_of_good htile hgood]
  exact (engineRead_readLeaves _ _ _ _).groups.trans (programAt_groupsNoted _ _ _)

end

/-- A tile that reads well stands at its destination with the current epoch. -/
theorem moveTileCopy_of_good {s : State} {group : Group} {m : MoveRec} (h : TileCopyRuns s group.val m) {errs : List Codeword}
    {x : TileId} (htile : tileAt s group.val m.src (slotIn s group.val m.src (m.pointer + m.copied)) = some x)
    (hhr : (regionOf s group.val m.dst).hr = false) (hbase : regionBase s group.val m.dst + 2 ^ 21 < 2 ^ 35)
    {content : List Byte} {errors : List Nat}
    (hgood : (engineRead s x (placeSlot s group.val m.src (slotIn s group.val m.src (m.pointer + m.copied))) errs).2.1 =
      .good content errors) :
    ∃ t, exec (.moveTileCopy group errs ⟨0, []⟩) s = .next t ∧
      Frame [.sys, .mgmt, .folio, .ledger, .channels, .groups, .perf, .path, .stats, .out] s t ∧
      (groupOf t group.val).move = some { m with copied := m.copied + 1 } ∧
      ∀ ch a, a < 2 ^ 35 → tabGet dPatch t.path.medium (patchKey ch a) =
        if ch / 8 = group.val ∧ a = regionBase s group.val m.dst + slotIn s group.val m.dst (m.pointer + m.copied) ∧
          ch % 8 ∉ erasedColumns
            (engineRead s x (placeSlot s group.val m.src (slotIn s group.val m.src (m.pointer + m.copied))) errs).1
            group.val (some (m.dst, slotIn s group.val m.dst (m.pointer + m.copied)))
        then patchOfSymbols (renewed s x content false) (ch % 8) else tabGet dPatch s.path.medium (patchKey ch a) := by
  have hslots := engineRead_sameSlots s x (placeSlot s group.val m.src (slotIn s group.val m.src (m.pointer + m.copied))) errs
  have hread := engineRead_readLeaves s x (placeSlot s group.val m.src (slotIn s group.val m.src (m.pointer + m.copied))) errs
  refine ⟨_, h.exec errs, Frame.step (tileCopied_frame _ _) (copyProgrammed_frame htile hgood) rfl,
    move_tileCopied (copyProgrammed_groupsNoted htile hgood) h.move, fun ch a ha => ?_⟩
  have hslot := slotIn_le s group.val m.dst (m.pointer + m.copied)
  have hfence := placeFenced_of_engineRuns h.runs h.destinationFence (slotIn s group.val m.dst (m.pointer + m.copied))
  rw [(tileCopied_frame _ _).path_eq (by decide), copyProgrammed_of_good htile hgood]
  rw [medium_programAt_slot (by rw [hslots.regionOf]; exact hhr) (by rw [hslots.regionBase]; omega)
    (by rw [hslots.placeSlot, hread.groups.placeFenced]; exact hfence) _ ha, hslots.regionBase, hslots.path]

theorem exec_moveTileCopy_idle {s : State} {group : Group} {m : MoveRec} (errs : List Codeword) (failed : ProgramFailure)
    (hmove : (groupOf s group.val).move = some m) (h : 64 ≤ m.copied ∨ engineRuns s group.val = false) :
    exec (.moveTileCopy group errs failed) s = .next s := by
  have hstays : ((groupOf s group.val).move.isNone && engineRuns s group.val && groupCool s group.val &&
      journalRoom s group.val 1) = false := by
    rw [hmove]
    rfl
  show execMoveTileCopy group errs failed s = _
  unfold execMoveTileCopy
  dsimp only
  rw [hstays, if_neg Bool.false_ne_true, hmove]
  dsimp only
  rw [if_pos (by tauto)]

end Sys2Proof.Machine
end

section
/-! The end of a move's batch and of the move (R76 step 3, R71, R224). -/
namespace Sys2Proof.Machine

/-- The record of a move whose batch of 64 tiles is complete. -/
def batchCounted (m : MoveRec) : MoveRec :=
  { m with pointer := m.pointer + 64, copied := 0 }

/-- The pointer of the move has passed the batch, and the queue has its record. -/
def batchNoted (s : State) (g : Nat) (m : MoveRec) : State :=
  jqPush (modGroup s g (fun x => { x with move := some (batchCounted m) })) g (moveProgressUnits m.logical (m.pointer + 64))

theorem exec_moveBatchComplete {s : State} {group : Group} {m : MoveRec} (hmove : (groupOf s group.val).move = some m)
    (hcopied : m.copied = 64) (hroom : journalRoom s group.val 3 = true) :
    exec (.moveBatchComplete group) s = .next
      (if 1048576 ≤ m.pointer + 64 then moveEnd (batchNoted s group.val m) group.val (batchCounted m)
       else batchNoted s group.val m) := by
  show execMoveBatchComplete group s = _
  unfold execMoveBatchComplete
  dsimp only
  rw [hmove]
  dsimp only
  rw [if_pos ⟨hcopied, hroom⟩]
  rfl

theorem exec_moveBatchComplete_idle {s : State} {group : Group} {m : MoveRec}
    (h : (groupOf s group.val).move = none ∨ ((groupOf s group.val).move = some m ∧ m.copied ≠ 64)) :
    exec (.moveBatchComplete group) s = .next s := by
  show execMoveBatchComplete group s = _
  unfold execMoveBatchComplete
  dsimp only
  rcases h with hnone | ⟨hmove, hcopied⟩
  · rw [hnone]
  · rw [hmove]
    dsimp only
    rw [if_neg fun h => hcopied h.1]

theorem batchNoted_frame (s : State) (g : Nat) (m : MoveRec) : Frame [.groups, .queues, .perf, .stats] s (batchNoted s g m) :=
  Frame.step (jqPush_frame _ _ _) ((modGroup_frame _ _ _).mono rfl) rfl

theorem batchNoted_lowStatsKept (s : State) (g : Nat) (m : MoveRec) : LowStatsKept s (batchNoted s g m) :=
  ((modGroup_frame _ _ _).lowStatsKept (by decide)).trans (jqPush_lowStatsKept _ _ _)

theorem groupOf_batchNoted (s : State) (g : Nat) (m : MoveRec) :
    groupOf (batchNoted s g m) g =
      { groupOf s g with move := some (batchCounted m), journalSince := (groupOf (batchNoted s g m) g).journalSince } := by
  unfold batchNoted
  refine (groupOf_jqPush _ _ _ g).trans ?_
  rw [groupOf_modGroup_self]

/-- Within the move a batch's end moves the pointer on by 64. -/
theorem moveBatchComplete_of_within {s : State} {group : Group} {m : MoveRec} (hmove : (groupOf s group.val).move = some m)
    (hcopied : m.copied = 64) (hroom : journalRoom s group.val 3 = true) (hwithin : m.pointer + 64 < 1048576) :
    ∃ t, exec (.moveBatchComplete group) s = .next t ∧ Frame [.groups, .queues, .perf, .stats] s t ∧
      (groupOf t group.val).move = some { m with pointer := m.pointer + 64, copied := 0 } := by
  have hexec := exec_moveBatchComplete hmove hcopied hroom
  rw [if_neg (by omega)] at hexec
  refine ⟨_, hexec, batchNoted_frame s group.val m, ?_⟩
  rw [groupOf_batchNoted]
  rfl

/-! ### The end of the move -/

/-- The mapping of a move that has ended: the logical region lies at the destination, whose swatch is due (R71, R224). -/
def mappingMoved (m : MoveRec) (x : GroupRec) : GroupRec :=
  { x with
    move := none, swatchDue := x.swatchDue ++ [m.dst]
    table := tabMod dEntry x.table m.logical (fun e => { e with moving := false, phys := m.dst }) }

/-- The region states of a move that has ended: both count from zero. -/
def regionsMoved (m : MoveRec) (t : Tab RegionRec) : Tab RegionRec :=
  tabMod dRegion (tabMod dRegion t m.src (fun r => { r with count := 0 })) m.dst (fun r => { r with count := 0, sw := false })

/-- The mapping has changed; the record of it has not been pushed yet. -/
def moveLanded (s : State) (g : Nat) (m : MoveRec) : State :=
  modRegion (modRegion (modGroup s g (mappingMoved m)) g m.src (fun r => { r with count := 0 })) g m.dst
    (fun r => { r with count := 0, sw := false })

/-- The mapping has changed, with its record in the queue and the move counted. -/
def moveRecorded (s : State) (g : Nat) (m : MoveRec) : State :=
  bump (jqPush (moveLanded s g m) g (moveEndUnits m.logical)) (0x2210 + g) 9 1

/-- With no retirement waiting a move's end leaves the source to what its kind says. -/
theorem beginRetirement_of_nil {s : State} {g : Nat} (h : (groupOf s g).retiring = []) : beginRetirement s g = s := by
  unfold beginRetirement
  rw [h]

theorem moveEnd_of_no_retirement {s : State} {g : Nat} {m : MoveRec}
    (h : (groupOf (moveSource (moveRecorded s g m) g m) g).retiring = []) :
    moveEnd s g m = moveSource (moveRecorded s g m) g m := by
  have heq : moveEnd s g m = if (groupOf (moveSource (moveRecorded s g m) g m) g).move.isNone &&
      groupCool (moveSource (moveRecorded s g m) g m) g then beginRetirement (moveSource (moveRecorded s g m) g m) g
      else moveSource (moveRecorded s g m) g m := rfl
  rw [heq, beginRetirement_of_nil h, ite_self]

theorem moveLanded_frame (s : State) (g : Nat) (m : MoveRec) : Frame [.groups] s (moveLanded s g m) :=
  Frame.step (modRegion_frame _ _ _ _) (Frame.step (modRegion_frame _ _ _ _) (modGroup_frame s g (mappingMoved m)) rfl) rfl

theorem moveRecorded_frame (s : State) (g : Nat) (m : MoveRec) : Frame [.groups, .queues, .perf, .stats] s (moveRecorded s g m) :=
  Frame.step (bump_frame _ _ _ _) (Frame.step (jqPush_frame _ _ _) ((moveLanded_frame s g m).mono rfl) rfl) rfl

theorem groupOf_moveLanded (s : State) (g : Nat) (m : MoveRec) :
    groupOf (moveLanded s g m) g = { mappingMoved m (groupOf s g) with regions := regionsMoved m (groupOf s g).regions } := by
  unfold moveLanded modRegion
  rw [groupOf_modGroup_self, groupOf_modGroup_self, groupOf_modGroup_self]
  rfl

theorem groupOf_moveRecorded (s : State) (g : Nat) (m : MoveRec) : ∃ since,
    groupOf (moveRecorded s g m) g =
      { mappingMoved m (groupOf s g) with regions := regionsMoved m (groupOf s g).regions, journalSince := since } := by
  have heq := groupOf_jqPush (moveLanded s g m) g (moveEndUnits m.logical) g
  rw [groupOf_moveLanded] at heq
  unfold moveRecorded
  rw [(bump_frame _ _ _ _).groupOf (by decide), heq]
  exact ⟨_, rfl⟩

theorem statBits_moves {g : Nat} (hg : g < 8) : statBits (0x2210 + g) 9 = 32 := by
  interval_cases g <;> rfl

theorem stat_moveRecorded (s : State) {g : Nat} (hg : g < 8) (m : MoveRec) :
    stat (moveRecorded s g m) (0x2210 + g) 9 = (stat s (0x2210 + g) 9 + 1) % 2 ^ 32 := by
  have hkept := ((moveLanded_frame s g m).lowStatsKept (by decide)).trans (jqPush_lowStatsKept _ g (moveEndUnits m.logical))
  unfold moveRecorded
  rw [stat_bump, if_pos rfl, statBits_moves hg, hkept _ _ (by omega) (by decide)]
  norm_num

end Sys2Proof.Machine
end

section
/-! What becomes of a move's source (R76 step 3): it is freed, or receives the swap's second half. -/
namespace Sys2Proof.Machine

/-- The state of a group whose last batch is complete, before its source is given up. -/
def batchLanded (s : State) (g : Nat) (m : MoveRec) : State :=
  moveRecorded (batchNoted s g m) g (batchCounted m)

theorem batchLanded_frame (s : State) (g : Nat) (m : MoveRec) : Frame [.groups, .queues, .perf, .stats] s (batchLanded s g m) :=
  Frame.step (moveRecorded_frame _ _ _) (batchNoted_frame s g m) rfl

theorem groupOf_batchLanded (s : State) (g : Nat) (m : MoveRec) : ∃ since,
    groupOf (batchLanded s g m) g =
      { mappingMoved m (groupOf s g) with regions := regionsMoved m (groupOf s g).regions, journalSince := since } := by
  obtain ⟨since, heq⟩ := groupOf_moveRecorded (batchNoted s g m) g (batchCounted m)
  rw [groupOf_batchNoted] at heq
  exact ⟨since, heq⟩

theorem stat_batchLanded (s : State) {g : Nat} (hg : g < 8) (m : MoveRec) :
    stat (batchLanded s g m) (0x2210 + g) 9 = (stat s (0x2210 + g) 9 + 1) % 2 ^ 32 := by
  unfold batchLanded
  rw [stat_moveRecorded _ hg, batchNoted_lowStatsKept _ _ _ _ _ (by omega) (by decide)]

/-- The source of a march or of a swap's second half joins the free list. -/
def sourceFreed (s : State) (g p : Nat) : State :=
  modGroup (modRegion s g p (fun r => { r with fr := true, owner := 0, rb := false })) g (fun x => { x with free := x.free ++ [p] })

theorem moveSource_of_swap (s : State) (g : Nat) {m : MoveRec} (h : m.kind = 1) :
    moveSource s g m = moveBegin s g 2 m.partner m.src 0 := by
  unfold moveSource
  rw [if_neg (by rw [h]; decide), if_pos h]

theorem moveSource_of_free (s : State) (g : Nat) {m : MoveRec} (h1 : m.kind ≠ 1) (h4 : m.kind ≠ 4) :
    moveSource s g m = sourceFreed s g m.src := by
  unfold moveSource
  rw [if_neg h4, if_neg h1]
  rfl

theorem groupOf_sourceFreed (s : State) (g p : Nat) :
    groupOf (sourceFreed s g p) g = { groupOf s g with
      regions := tabMod dRegion (groupOf s g).regions p (fun r => { r with fr := true, owner := 0, rb := false })
      free := (groupOf s g).free ++ [p] } := by
  unfold sourceFreed modRegion
  rw [groupOf_modGroup_self, groupOf_modGroup_self]

theorem moveSource_lowStatsKept (s : State) (g : Nat) {m : MoveRec} (h4 : m.kind ≠ 4) : LowStatsKept s (moveSource s g m) := by
  by_cases h1 : m.kind = 1
  · rw [moveSource_of_swap s g h1]
    exact moveBegin_lowStatsKept _ _ _ _ _ _
  · rw [moveSource_of_free s g h1 h4]
    exact (Frame.step (modGroup_frame _ _ _) (modRegion_frame s g m.src _) rfl : Frame [.groups] s _).lowStatsKept (by decide)

/-- What a move's end gives of the source leaves the rest of the group: its state has changed, and the free list or the move. -/
theorem groupOf_moveSource (s : State) (g : Nat) {m : MoveRec} (h4 : m.kind ≠ 4) : ∃ f,
    (groupOf (moveSource s g m) g).regions = tabMod dRegion (groupOf s g).regions m.src f ∧
      (groupOf (moveSource s g m) g).retiring = (groupOf s g).retiring ∧
      (groupOf (moveSource s g m) g).swatchDue = (groupOf s g).swatchDue := by
  by_cases h1 : m.kind = 1
  · rw [moveSource_of_swap s g h1, groupOf_moveBegin]
    exact ⟨_, rfl, rfl, rfl⟩
  · rw [moveSource_of_free s g h1 h4, groupOf_sourceFreed]
    exact ⟨fun r => { r with fr := true, owner := 0, rb := false }, rfl, rfl, rfl⟩

theorem tabGet_regionsMoved {m : MoveRec} (h : m.src ≠ m.dst) (t : Tab RegionRec) (f : RegionRec → RegionRec) :
    tabGet dRegion (tabMod dRegion (regionsMoved m t) m.src f) m.dst = { tabGet dRegion t m.dst with count := 0, sw := false } := by
  unfold regionsMoved
  rw [tabGet_mod, if_neg h.symm, tabGet_mod_self, tabGet_mod, if_neg h.symm]

/-- The end of a move that is no retirement, none waiting: the destination's swatch is due and its state counts anew. -/
theorem moveBatchComplete_of_last {s : State} {group : Group} {m : MoveRec} (hmove : (groupOf s group.val).move = some m)
    (hcopied : m.copied = 64) (hroom : journalRoom s group.val 3 = true) (hlast : 1048576 ≤ m.pointer + 64)
    (hregions : m.src ≠ m.dst) (hkind : m.kind ≠ 4) (hretiring : (groupOf s group.val).retiring = []) :
    exec (.moveBatchComplete group) s = .next (moveSource (batchLanded s group.val m) group.val (batchCounted m)) ∧
      (groupOf (moveSource (batchLanded s group.val m) group.val (batchCounted m)) group.val).swatchDue =
        (groupOf s group.val).swatchDue ++ [m.dst] ∧
      regionOf (moveSource (batchLanded s group.val m) group.val (batchCounted m)) group.val m.dst =
        { regionOf s group.val m.dst with count := 0, sw := false } ∧
      stat (moveSource (batchLanded s group.val m) group.val (batchCounted m)) (0x2210 + group.val) 9 =
        (stat s (0x2210 + group.val) 9 + 1) % 2 ^ 32 := by
  obtain ⟨since, hgroup⟩ := groupOf_batchLanded s group.val m
  obtain ⟨f, hstates, hwaiting, hdue⟩ := groupOf_moveSource (batchLanded s group.val m) group.val (m := batchCounted m) hkind
  rw [hgroup] at hstates hwaiting hdue
  have hexec := exec_moveBatchComplete hmove hcopied hroom
  rw [if_pos hlast, moveEnd_of_no_retirement (hwaiting.trans hretiring)] at hexec
  refine ⟨hexec, hdue, ?_, ?_⟩
  · unfold regionOf
    rw [hstates]
    exact tabGet_regionsMoved hregions _ f
  · rw [moveSource_lowStatsKept _ _ (m := batchCounted m) hkind _ _ (by omega) (by decide), stat_batchLanded s group.isLt]

/-- After a march, or the second half of a swap, the source is free and the logical region lies at the destination. -/
theorem groupOf_of_move_freed {s : State} {g : Nat} {m : MoveRec} (h1 : m.kind ≠ 1) (h4 : m.kind ≠ 4) : ∃ since,
    groupOf (moveSource (batchLanded s g m) g (batchCounted m)) g = { mappingMoved m (groupOf s g) with
      regions := tabMod dRegion (regionsMoved m (groupOf s g).regions) m.src (fun r => { r with fr := true, owner := 0, rb := false })
      free := (groupOf s g).free ++ [m.src]
      journalSince := since } := by
  obtain ⟨since, hgroup⟩ := groupOf_batchLanded s g m
  rw [moveSource_of_free _ g (m := batchCounted m) h1 h4, groupOf_sourceFreed, hgroup]
  exact ⟨since, rfl⟩

/-- After the first half of a swap the source is the destination of the second. -/
theorem groupOf_of_move_swapped {s : State} {g : Nat} {m : MoveRec} (h1 : m.kind = 1) (hpartner : m.partner ≠ m.logical) :
    (groupOf (moveSource (batchLanded s g m) g (batchCounted m)) g).move = some
        { kind := 2, logical := m.partner, src := (tabGet dEntry (groupOf s g).table m.partner).phys, dst := m.src, partner := 0 } ∧
      (groupOf (moveSource (batchLanded s g m) g (batchCounted m)) g).free = (groupOf s g).free := by
  obtain ⟨since, hgroup⟩ := groupOf_batchLanded s g m
  rw [moveSource_of_swap _ g (m := batchCounted m) h1, groupOf_moveBegin]
  dsimp only
  refine ⟨?_, by rw [hgroup]; rfl⟩
  unfold begunMove
  rw [hgroup]
  unfold mappingMoved
  dsimp only
  rw [show (batchCounted m).partner = m.partner from rfl, tabGet_mod, if_neg hpartner]
  rfl

end Sys2Proof.Machine
end

section
/-! Patch remaps (R45, R83): the spare taken, and the commit that puts the patch there. -/
namespace Sys2Proof.Machine

/-! ### The spare taken -/

theorem groupOf_takeSpare (s : State) (g c : Nat) :
    groupOf (takeSpare s g c) g =
      { groupOf s g with spares := tabSet dNat (groupOf s g).spares c (sparesOf s g c + 1) } := by
  have hraise (x : State) (code : Nat) (data : List Byte) : groupOf (raise x code data) g = groupOf x g :=
    (raise_frame x code data).groupOf (by decide) g
  have hif (P : Prop) [Decidable P] (x : State) (code : Nat) (data : List Byte) :
      groupOf (if P then raise x code data else x) g = groupOf x g := by
    split
    · exact hraise x code data
    · rfl
  unfold takeSpare
  extract_lets n taken pool warned
  rw [hif, hif, groupOf_modGroup_self]

theorem sparesOf_takeSpare (s : State) (g c : Nat) : sparesOf (takeSpare s g c) g c = sparesOf s g c + 1 := by
  have h : sparesOf (takeSpare s g c) g c = tabGet dNat (groupOf (takeSpare s g c) g).spares c := rfl
  rw [h, groupOf_takeSpare]
  dsimp only
  rw [tabGet_set_self]

theorem GroupsNoted.sparesOf {s t : State} (h : GroupsNoted s t) (g c : Nat) : sparesOf t g c = sparesOf s g c := by
  unfold Machine.sparesOf
  rw [h g]

/-- The nominations after the oldest one. -/
def nominationsSet (s : State) (g : Nat) (rest : List RemapJob) : State :=
  modGroup s g (fun x => { x with nominations := rest })

theorem nominationsSet_frame (s : State) (g : Nat) (rest : List RemapJob) : Frame [.groups] s (nominationsSet s g rest) :=
  modGroup_frame _ _ _

theorem nominationsSet_groupsNoted (s : State) (g : Nat) (rest : List RemapJob) : GroupsNoted s (nominationsSet s g rest) :=
  modGroup_groupsNoted (f := fun x => { x with nominations := rest }) (fun _ => rfl) s g

theorem nominationsSet_readsAlike (s : State) (g : Nat) (rest : List RemapJob) : ReadsAlike s (nominationsSet s g rest) where
  channels := rfl
  slots := modGroup_sameSlots (f := fun x => { x with nominations := rest }) (fun _ => rfl) (fun _ => rfl) (fun _ => rfl)
    (fun _ => rfl) s g

/-- The job of a remap stands in its group. -/
def remapJobSet (s : State) (g : Nat) (j : Option RemapJob) : State :=
  modGroup s g (fun x => { x with remapJob := j })

theorem remapJobSet_frame (s : State) (g : Nat) (j : Option RemapJob) : Frame [.groups] s (remapJobSet s g j) :=
  modGroup_frame _ _ _

theorem groupOf_remapJobSet (s : State) (g : Nat) (j : Option RemapJob) :
    groupOf (remapJobSet s g j) g = { groupOf s g with remapJob := j } := by
  unfold remapJobSet
  rw [groupOf_modGroup_self]

/-- The oldest nomination can be worked on: no remap is at work, the engine runs and its slot is free. -/
structure RemapRuns (s : State) (g : Nat) (j : RemapJob) (rest : List RemapJob) : Prop where
  first : (groupOf s g).nominations = j :: rest
  job : (groupOf s g).remapJob = none
  runs : engineRuns s g = true
  held : slotHeld s g j.region j.slot = false
  fence : regionFenced s g j.region = false

theorem RemapRuns.exec_of_lost {s : State} {group : Group} {j : RemapJob} {rest : List RemapJob}
    (h : RemapRuns s group.val j rest) (hlost : columnLost s group.val j.column = true) (errs : List Codeword) :
    exec (.patchRemap group errs) s = .next (nominationsSet s group.val rest) := by
  obtain ⟨hfirst, hjob, hruns, hheld, hfence⟩ := h
  show execPatchRemap group errs s = _
  unfold execPatchRemap
  dsimp only
  rw [hfirst]
  dsimp only
  rw [if_neg (by rw [hjob, hruns, hheld, hfence]; decide), if_pos hlost]
  rfl

/-- The corrected codeword of a tile that reads well (R45). -/
theorem correctedCode_of_good {s : State} {x : TileId} {pl : Place} {errs : List Codeword} {content : List Byte}
    {errors : List Nat} (h : (engineRead s x pl errs).2.1 = .good content errors) :
    correctedCode s x pl errs =
      ((engineRead s x pl errs).1, some (rsEncode content, false), (engineRead s x pl errs).2.2) := by
  unfold correctedCode
  dsimp only
  rw [h]

/-- The job of a remap of a tile with a good content: its patch of the corrected codeword goes to the next spare (R83). -/
def goodRemap (j : RemapJob) (content : List Byte) (spare : Nat) : RemapJob :=
  { j with spare := some spare, patch := patchOfSymbols (rsEncode content) j.column, code := [] }

theorem remapJobOf_of_good (s : State) (x : TileId) (j : RemapJob) (content : List Byte) (spare : Nat) :
    remapJobOf s x j (rsEncode content) false spare = goodRemap j content spare := rfl

theorem RemapRuns.exec_of_good {s : State} {group : Group} {j : RemapJob} {rest : List RemapJob} {x : TileId}
    {errs : List Codeword} {content : List Byte} {errors : List Nat} (h : RemapRuns s group.val j rest)
    (hlost : columnLost s group.val j.column = false) (hready : remapReady s (placeSlot s group.val j.region j.slot) = true)
    (hspares : sparesGone s group.val j.column = false) (hfull : remapFull s group.val j.region j.slot j.column = false)
    (htile : tileAt s group.val j.region j.slot = some x) (hflight : tileInFlight s x = false) (hunit : unitInRegion s x = false)
    (hgood : (engineRead (nominationsSet s group.val rest) x (placeSlot s group.val j.region j.slot) errs).2.1 =
      .good content errors) :
    exec (.patchRemap group errs) s = .next (remapJobSet
      (takeSpare (engineRead (nominationsSet s group.val rest) x (placeSlot s group.val j.region j.slot) errs).1 group.val j.column)
      group.val (some (goodRemap j content (sparesOf
        (engineRead (nominationsSet s group.val rest) x (placeSlot s group.val j.region j.slot) errs).1 group.val j.column)))) := by
  obtain ⟨hfirst, hjob, hruns, hheld, hfence⟩ := h
  have hcorrected := correctedCode_of_good hgood
  unfold nominationsSet at hcorrected
  show execPatchRemap group errs s = _
  unfold execPatchRemap
  dsimp only
  rw [hfirst]
  dsimp only
  rw [if_neg (by rw [hjob, hruns, hheld, hfence]; decide), if_neg (by rw [hlost]; decide), if_neg (by rw [hready]; decide),
    if_neg (by rw [hspares, hfull]; decide), htile]
  dsimp only
  rw [if_neg (by rw [hflight, hunit]; decide), hcorrected]
  dsimp only
  simp only [remapJobOf_of_good]
  rfl

theorem exec_patchRemap_idle {s : State} {group : Group} (errs : List Codeword)
    (h : (groupOf s group.val).nominations = []) : exec (.patchRemap group errs) s = .next s := by
  show execPatchRemap group errs s = _
  unfold execPatchRemap
  dsimp only
  rw [h]

end Sys2Proof.Machine
end

section
/-! The outcome of a patch remap and its commit (R83). -/
namespace Sys2Proof.Machine

theorem patchRemap_of_good {s : State} {group : Group} {j : RemapJob} {rest : List RemapJob} {x : TileId}
    {errs : List Codeword} {content : List Byte} {errors : List Nat} (h : RemapRuns s group.val j rest)
    (hlost : columnLost s group.val j.column = false) (hready : remapReady s (placeSlot s group.val j.region j.slot) = true)
    (hspares : sparesGone s group.val j.column = false) (hfull : remapFull s group.val j.region j.slot j.column = false)
    (htile : tileAt s group.val j.region j.slot = some x) (hflight : tileInFlight s x = false) (hunit : unitInRegion s x = false)
    (hgood : (engineRead s x (placeSlot s group.val j.region j.slot) errs).2.1 = .good content errors) :
    ∃ t, exec (.patchRemap group errs) s = .next t ∧
      Frame [.mgmt, .folio, .ledger, .channels, .groups, .perf, .stats, .out] s t ∧
      (groupOf t group.val).remapJob = some (goodRemap j content (sparesOf s group.val j.column)) ∧
      sparesOf t group.val j.column = sparesOf s group.val j.column + 1 := by
  have hread : (engineRead (nominationsSet s group.val rest) x (placeSlot s group.val j.region j.slot) errs).2.1 =
      .good content errors := by
    rw [(nominationsSet_readsAlike s group.val rest).engineRead rfl]
    exact hgood
  have hnoted := (nominationsSet_groupsNoted s group.val rest).trans
    (engineRead_readLeaves (nominationsSet s group.val rest) x (placeSlot s group.val j.region j.slot) errs).groups
  have hexec := h.exec_of_good hlost hready hspares hfull htile hflight hunit hread
  rw [hnoted.sparesOf] at hexec
  have hframe : Frame [.mgmt, .folio, .ledger, .channels, .groups, .perf, .stats, .out] s _ :=
    Frame.step (engineRead_frame (nominationsSet s group.val rest) x (placeSlot s group.val j.region j.slot) errs)
      ((nominationsSet_frame s group.val rest).mono rfl) rfl
  refine ⟨_, hexec, Frame.step (remapJobSet_frame _ _ _) (Frame.step (takeSpare_frame _ _ _) hframe rfl) rfl, ?_, ?_⟩
  · rw [groupOf_remapJobSet]
  · have hset (y : State) (k : Option RemapJob) :
        sparesOf (remapJobSet y group.val k) group.val j.column = sparesOf y group.val j.column := by
      unfold sparesOf
      rw [groupOf_remapJobSet]
    rw [hset, sparesOf_takeSpare, hnoted.sparesOf]

/-! ### The commit (R83) -/

/-- A nomination as it was before its spare was taken. -/
def renominated (j : RemapJob) : RemapJob :=
  { j with spare := none, patch := 0, code := [] }

theorem exec_patchRemapCommit_failed {s : State} {group : Group} {j : RemapJob} (hjob : (groupOf s group.val).remapJob = some j)
    (hready : remapReady s (placeSlot s group.val j.region j.slot) = true) (hroom : journalRoom s group.val 1 = true) :
    exec (.patchRemapCommit group true) s = .next
      (modGroup (spareFailed (remapJobSet s group.val none) group.val j.region j.column) group.val
        (fun x => { x with nominations := renominated j :: x.nominations })) := by
  show execPatchRemapCommit group true s = _
  unfold execPatchRemapCommit
  dsimp only
  rw [hjob]
  dsimp only
  rw [if_neg (by rw [hready]; decide), if_pos hroom]
  rfl

/-- A failed spare stays consumed, and the patch is nominated again. -/
theorem patchRemapCommit_of_failed {s : State} {group : Group} {j : RemapJob} (hjob : (groupOf s group.val).remapJob = some j)
    (hready : remapReady s (placeSlot s group.val j.region j.slot) = true) (hroom : journalRoom s group.val 1 = true) :
    ∃ t, exec (.patchRemapCommit group true) s = .next t ∧ Frame [.groups, .queues, .perf, .stats] s t ∧
      (groupOf t group.val).remapJob = none ∧ (groupOf t group.val).spares = (groupOf s group.val).spares ∧
      (groupOf t group.val).nominations = renominated j :: (groupOf s group.val).nominations := by
  have hgroup := groupOf_jqPush (remapJobSet s group.val none) group.val (remapUnits j.column j.region 0x1FFFFF) group.val
  rw [groupOf_remapJobSet] at hgroup
  refine ⟨_, exec_patchRemapCommit_failed hjob hready hroom, Frame.step (modGroup_frame _ _ _)
    (Frame.step (spareFailed_frame _ _ _ _) ((remapJobSet_frame s group.val none).mono rfl) rfl) rfl, ?_, ?_, ?_⟩
  all_goals
    rw [groupOf_modGroup_self]
    unfold spareFailed
    rw [hgroup]

/-! ### A remap that is committed -/

/-- The spare holds the patch, and the queue the record of the remap. -/
def remapRecorded (s : State) (g p slot c spare : Nat) (patch : Patch) : State :=
  jqPush (filterMark (bump (storePatch s (8 * g + c) (spareBase s g + spare) patch) 0x2916 (8 * g + c + 1) 1) g p slot) g
    (remapUnits c p slot)

/-- The Palette copy of the remap table tile has its entry (R81, R83). -/
def remapEntered (s : State) (g p slot c spare : Nat) : State :=
  palPut (remapBase s g p (slot % 16)).1 2 (.remap g p (slot % 16))
    (some (lineOf (remapWith (padTo 64 (remapBase s g p (slot % 16)).2) slot c spare))) false

/-- The region holds a remapped patch, and its remap table tile is to be written. -/
def remapMarked (s : State) (g p slot : Nat) : State :=
  palSelectSome (modRegion s g p (fun r => { r with hr := true })) (paletteFind s (paletteKey (.remap g p (slot % 16))))

theorem remapCommit_eq (s : State) (g p slot c spare : Nat) (patch : Patch) :
    remapCommit s g p slot c spare patch =
      raise (remapMarked (remapEntered (remapRecorded s g p slot c spare patch) g p slot c spare) g p slot) 0x2201
        (leBytes 1 g ++ leBytes 1 c ++ leBytes 2 p ++ leBytes 3 slot ++ leBytes 4 spare) := rfl

theorem remapEntered_frame (s : State) (g p slot c spare : Nat) :
    Frame [.reserve, .channels, .palette, .perf, .stats] s (remapEntered s g p slot c spare) :=
  Frame.step (palPut_frame _ _ _ _ _) ((remapBase_frame s g p (slot % 16)).mono rfl) rfl

theorem remapMarked_frame (s : State) (g p slot : Nat) : Frame [.groups, .palette] s (remapMarked s g p slot) :=
  Frame.step (palSelectSome_frame _ _) ((modRegion_frame _ _ _ _).mono rfl) rfl

theorem remapRecorded_groupsNoted (s : State) (g p slot c spare : Nat) (patch : Patch) :
    GroupsNoted s (remapRecorded s g p slot c spare patch) := by
  have hstored : Frame [.path, .stats] s
      (bump (storePatch s (8 * g + c) (spareBase s g + spare) patch) 0x2916 (8 * g + c + 1) 1) :=
    Frame.step (bump_frame _ _ _ _) ((storePatch_frame s _ _ _).mono rfl) rfl
  unfold remapRecorded
  exact (hstored.groupsNoted (by decide)).trans ((filterMark_groupsNoted _ _ _ _).trans (jqPush_groupsNoted _ _ _))

/-- The spare holds the patch once the remap is committed. -/
theorem medium_remapCommit (s : State) (g p slot c spare : Nat) (patch : Patch) :
    tabGet dPatch (remapCommit s g p slot c spare patch).path.medium (patchKey (8 * g + c) (spareBase s g + spare)) = patch := by
  have hpath : (remapRecorded s g p slot c spare patch).path =
      (storePatch s (8 * g + c) (spareBase s g + spare) patch).path := by
    unfold remapRecorded
    rw [(jqPush_frame _ _ _).path_eq (by decide), (filterMark_frame _ _ _ _).path_eq (by decide), bump_path]
  rw [remapCommit_eq, (raise_frame _ _ _).path_eq (by decide), (remapMarked_frame _ _ _ _).path_eq (by decide),
    (remapEntered_frame _ _ _ _ _ _).path_eq (by decide), hpath]
  unfold storePatch
  dsimp only
  rw [tabGet_set_self]

/-- A commit marks the region as holding a remapped patch, and notes apart it leaves the group else. -/
theorem groupOf_remapCommit (s : State) (g p slot c spare : Nat) (patch : Patch) : ∃ u, GroupsNoted s u ∧
    groupOf (remapCommit s g p slot c spare patch) g =
      { groupOf u g with regions := tabMod dRegion (groupOf u g).regions p (fun r => { r with hr := true }) } := by
  refine ⟨_, (remapRecorded_groupsNoted s g p slot c spare patch).trans
    ((remapEntered_frame _ g p slot c spare).groupsNoted (by decide)), ?_⟩
  rw [remapCommit_eq, (raise_frame _ _ _).groupOf (by decide)]
  unfold remapMarked
  rw [(palSelectSome_frame _ _).groupOf (by decide)]
  unfold modRegion
  rw [groupOf_modGroup_self]

/-- The corrected codeword of a poison tile is programmed beside the spare (R41); of a good tile nothing is. -/
def poisonProgrammed (s : State) (g : Nat) (pl : Place) (j : RemapJob) : State :=
  if j.code = [] then remapJobSet s g none
  else storeColumns (remapJobSet s g none) g pl.addrs j.code ((liveColumns (remapJobSet s g none) g).filter (· != j.column))

theorem exec_patchRemapCommit {s : State} {group : Group} {j : RemapJob} (hjob : (groupOf s group.val).remapJob = some j)
    (hready : remapReady s (placeSlot s group.val j.region j.slot) = true) (hroom : journalRoom s group.val 1 = true) :
    exec (.patchRemapCommit group false) s = .next (remapCommit
      (poisonProgrammed s group.val (placeSlot s group.val j.region j.slot) j) group.val j.region j.slot j.column
      (j.spare.getD 0) j.patch) := by
  show execPatchRemapCommit group false s = _
  unfold execPatchRemapCommit
  dsimp only
  rw [hjob]
  dsimp only
  rw [if_neg (by rw [hready]; decide), if_pos hroom, if_neg Bool.false_ne_true]
  rfl

theorem poisonProgrammed_groupsNoted (s : State) (g : Nat) (pl : Place) (j : RemapJob) :
    GroupsNoted (remapJobSet s g none) (poisonProgrammed s g pl j) := by
  unfold poisonProgrammed
  split
  · exact .refl _
  · exact storeColumns_groupsNoted _ _ _ _ _

/-- The spare program of a remap is complete: the patch lies there and the region has a remapped patch. -/
theorem patchRemapCommit_of_done {s : State} {group : Group} {j : RemapJob} (hjob : (groupOf s group.val).remapJob = some j)
    (hready : remapReady s (placeSlot s group.val j.region j.slot) = true) (hroom : journalRoom s group.val 1 = true) :
    ∃ t, exec (.patchRemapCommit group false) s = .next t ∧
      Frame [.sys, .mgmt, .folio, .ledger, .reserve, .channels, .groups, .palette, .queues, .perf, .path, .stats, .out] s t ∧
      (groupOf t group.val).remapJob = none ∧ (regionOf t group.val j.region).hr = true ∧
      (groupOf t group.val).spares = (groupOf s group.val).spares ∧
      ∀ spare, j.spare = some spare →
        tabGet dPatch t.path.medium (patchKey (8 * group.val + j.column) (spareBase s group.val + spare)) = j.patch := by
  have hexec := exec_patchRemapCommit hjob hready hroom
  obtain ⟨t, hnext, hframe⟩ := execPatchRemapCommit_frame group false s
  obtain rfl := Host.Outcome.next.inj (hexec.symm.trans hnext)
  have hdone := poisonProgrammed_groupsNoted s group.val (placeSlot s group.val j.region j.slot) j
  obtain ⟨u, hu, hgroup⟩ := groupOf_remapCommit (poisonProgrammed s group.val (placeSlot s group.val j.region j.slot) j) group.val
    j.region j.slot j.column (j.spare.getD 0) j.patch
  have hnoted := (hdone.trans hu) group.val
  rw [groupOf_remapJobSet] at hnoted
  refine ⟨_, hexec, hframe, ?_, ?_, ?_, fun spare hspare => ?_⟩
  · rw [hgroup]
    dsimp only
    rw [hnoted]
  · unfold regionOf
    rw [hgroup]
    dsimp only
    rw [tabGet_mod_self]
  · rw [hgroup]
    dsimp only
    rw [hnoted]
  · have hbase : spareBase (poisonProgrammed s group.val (placeSlot s group.val j.region j.slot) j) group.val =
        spareBase s group.val := by
      unfold spareBase
      rw [hdone group.val, groupOf_remapJobSet]
    have hmedium := medium_remapCommit (poisonProgrammed s group.val (placeSlot s group.val j.region j.slot) j) group.val
      j.region j.slot j.column (j.spare.getD 0) j.patch
    rw [hbase, hspare] at hmedium
    rw [hspare]
    exact hmedium

theorem exec_patchRemapCommit_idle {s : State} {group : Group} (failed : Bool)
    (h : (groupOf s group.val).remapJob = none) : exec (.patchRemapCommit group failed) s = .next s := by
  show execPatchRemapCommit group failed s = _
  unfold execPatchRemapCommit
  dsimp only
  rw [h]

end Sys2Proof.Machine
end

section
/-! The translation object (R87). -/
namespace Sys2Proof.Machine

/-! ### A mask of one bit per column -/

/-- The number whose bits 0 to n - 1 are those of `f`. -/
def maskOf (f : Nat → Bool) (n : Nat) : Nat :=
  (List.range n).foldl (fun m c => m + 2 ^ c * bnat (f c)) 0

theorem maskOf_succ (f : Nat → Bool) (n : Nat) : maskOf f (n + 1) = maskOf f n + 2 ^ n * bnat (f n) := by
  unfold maskOf
  rw [List.range_succ, List.foldl_append]
  rfl

theorem maskOf_lt (f : Nat → Bool) (n : Nat) : maskOf f n < 2 ^ n := by
  induction n with
  | zero => exact Nat.one_pos
  | succ n ih =>
    have hbit : bnat (f n) ≤ 1 := by
      unfold bnat
      split <;> omega
    have hterm := Nat.mul_le_mul_left (2 ^ n) hbit
    rw [maskOf_succ, Nat.pow_succ]
    omega

theorem bnat_maskOf (f : Nat → Bool) (n : Nat) {c : Nat} (hc : c < n) : maskOf f n / 2 ^ c % 2 = bnat (f c) := by
  induction n with
  | zero => exact absurd hc (Nat.not_lt_zero c)
  | succ n ih =>
    rw [maskOf_succ]
    rcases Nat.lt_succ_iff_lt_or_eq.mp hc with hlt | rfl
    · have hpow : 2 ^ n * bnat (f n) = 2 ^ c * (2 * (2 ^ (n - c - 1) * bnat (f n))) := by
        rw [show n = c + (1 + (n - c - 1)) by omega, Nat.pow_add, Nat.pow_add]
        simp only [Nat.add_sub_cancel_left, pow_one]
        ring
      rw [hpow, Nat.add_mul_div_left _ _ (Nat.two_pow_pos c), Nat.add_mul_mod_self_left, ih hlt]
    · have hbit : bnat (f c) < 2 := by
        unfold bnat
        split <;> omega
      rw [Nat.add_mul_div_left _ _ (Nat.two_pow_pos c), Nat.div_eq_of_lt (maskOf_lt f c), Nat.zero_add, Nat.mod_eq_of_lt hbit]

theorem bitOf_maskOf (f : Nat → Bool) (n : Nat) {c : Nat} (hc : c < n) : bitOf (maskOf f n) c = f c := by
  unfold bitOf
  rw [bnat_maskOf f n hc]
  cases f c <;> rfl

/-! ### The written address -/

theorem ofLe_leBytes (n v : Nat) : ofLe (leBytes n v) = v % 256 ^ n := by
  induction n generalizing v with
  | zero => rw [pow_zero, Nat.mod_one]; rfl
  | succ n ih =>
    have hstep : ofLe (leBytes (n + 1) v) = (BitVec.ofNat 8 v).toNat + 256 * ofLe (leBytes n (v / 256)) := rfl
    rw [hstep, ih, BitVec.toNat_ofNat, pow_succ' 256 n]
    exact Nat.mod_mul.symm

theorem writeFits_translateDpa {dpa : Nat} (haligned : dpa % 64 = 0) (hrange : dpa < 2 ^ 44) :
    writeFits .operator 0x2231 1 (leBytes 8 dpa) = true := by
  have hrow : objRow? 0x2231 1 = some ⟨0x2231, 0x2231, 0x01, 0x01, .u64, .rw, false, .operator, 0, [(0, 17592186044352)], 64, .v⟩ := by
    decide +kernel
  have hvalue : ofLe (leBytes 8 dpa) = dpa := by
    rw [ofLe_leBytes]
    exact Nat.mod_eq_of_lt (by omega)
  have hlength : (leBytes 8 dpa).length = 8 := rfl
  have hmult : (dpa : Int) % 64 = 0 := by omega
  have hle : (dpa : Int) ≤ 17592186044352 := by omega
  unfold writeFits
  rw [hrow]
  dsimp only
  unfold ObjRow.inRange writtenValue
  simp [hvalue, hlength, hmult, hle, ObjType.lengthOk, ObjType.isNum, ObjType.width,
    levelNum]

/-! ### The translation -/

/-- The state in which the results of a translation stand. -/
def translated (s : State) (results : List Nat) (dpa : Nat) : State :=
  setSetting { s with path := { s.path with translated := results } } 0x2231 1 dpa

theorem translated_frame (s : State) (results : List Nat) (dpa : Nat) :
    Frame [.path, .settings] s (translated s results dpa) :=
  Frame.upd_settings (Frame.upd_path (.refl _ s) rfl) rfl

/-- The columns of a place whose patch lies elsewhere than at the slot's own address. -/
def remapMask (pl : Place) (base : Nat) : Nat :=
  maskOf (fun c => pl.addrs.getD c 0 != base) 8

/-! The two lemmas about `translation` unfold it as a function, not applied: applied to a state the kernel would evaluate the place. -/

theorem translation_of_slot {s : State} {dpa p slot : Nat} {pl : Place} (hplace : placeOf s (.host (dpa / 64)) = some pl)
    (hslot : pl.slot = some (p, slot)) :
    translation s dpa = some [pl.group, p, slot, regionBase s pl.group p + slot,
      remapMask pl (regionBase s pl.group p + slot)] := by
  have h : ∀ f, f = translation → f s dpa = some [pl.group, p, slot, regionBase s pl.group p + slot,
      remapMask pl (regionBase s pl.group p + slot)] := by
    delta translation
    rintro f rfl
    beta_reduce
    rw [hplace]
    dsimp only
    rw [hslot]
    rfl
  exact h _ rfl

theorem translation_of_none {s : State} {dpa : Nat} (hplace : placeOf s (.host (dpa / 64)) = none) : translation s dpa = none := by
  have h : ∀ f, f = translation → f s dpa = none := by
    delta translation
    rintro f rfl
    beta_reduce
    rw [hplace]
  exact h _ rfl

theorem translateWrite_of_some {s : State} {dpa : Nat} {r : List Nat} (h : translation s dpa = some r) :
    translateWrite s dpa = .ok (translated s r dpa) := by
  unfold translateWrite
  rw [h]
  rfl

theorem serves_translateDpa (via : Via) {dpa : BitVec 64} (pl : Place) (p slot : Nat) (haligned : dpa.toNat % 64 = 0)
    (hrange : dpa.toNat < 2 ^ 44) :
    Serves (.translateDpa via dpa) via .operator [.path, .settings]
      (fun _ s => placeOf s (.host (dpa.toNat / 64)) = some pl ∧ pl.slot = some (p, slot))
      (fun _ s t => SettingsKept 0x2231 1 s t ∧ setting t 0x2231 1 = dpa.toNat ∧
        ∃ mask, t.path = { s.path with translated := [pl.group, p, slot, regionBase s pl.group p + slot, mask] } ∧
          ∀ c, c < 8 → (bitOf mask c = true ↔ pl.addrs.getD c 0 ≠ regionBase s pl.group p + slot)) := by
  rintro s n s' hready ⟨hplace, hslot⟩
  have heffect := translateWrite_of_some (translation_of_slot hplace hslot)
  have hsettings (r : List Nat) : (translated s' r dpa.toNat).settings = (setSetting s' 0x2231 1 dpa.toNat).settings := rfl
  refine ⟨_, congrArg Host.Outcome.next (served_ready hready (writeFits_translateDpa haligned hrange) heffect),
    translated_frame _ _ _, settingsKept_of_setSetting (by decide) (hsettings _), setting_of_setSetting (hsettings _), _, rfl,
    fun c hc => ?_⟩
  unfold remapMask
  rw [bitOf_maskOf _ _ hc, bne_iff_ne]

theorem rejects_translateDpa (via : Via) {dpa : BitVec 64} (haligned : dpa.toNat % 64 = 0) (hrange : dpa.toNat < 2 ^ 44) :
    Rejects (.translateDpa via dpa) via .operator 0x2201 0x2231 1 (fun _ s => placeOf s (.host (dpa.toNat / 64)) = none) := by
  intro s n s' hready hplace
  have heffect : translateWrite s' dpa.toNat = .error 0x2201 := by
    unfold translateWrite
    rw [translation_of_none hplace]
    rfl
  exact congrArg Host.Outcome.next (served_error hready (writeFits_translateDpa haligned hrange) heffect)

end Sys2Proof.Machine
end

section
/-! Wear rotation (O41): the clauses of the obligation from the lemmas of its commands. -/
namespace Sys2Proof.Machine

/-- Settles O41, command by command: a gap step and its commit, the swap interval, the copy of a tile and the end of a batch and of
a move, a patch remap and its commit, and the translation object. -/
theorem rotation : Obligations.Rotation := by
  refine ⟨fun group errs => ⟨fun p => ⟨?_, fun x content errors => ?_⟩, fun s h => ?_, fun j => ?_, fun failed s h => ?_,
    fun h d rest => ?_, fun s h => ?_, fun m x content errors => ⟨?_, ?_, fun failed s h => ?_, ?_, ?_, fun s h => ?_⟩,
    fun j rest x content errors => ⟨?_, ?_, ?_, ?_⟩, fun s h => ?_, fun failed s h => ?_⟩,
    fun via dpa pl p slot haligned hrange => ⟨serves_translateDpa via pl p slot haligned hrange,
      rejects_translateDpa via haligned hrange⟩⟩
  · rintro s ⟨⟨hfirst, hsource, hgap, hjob, hruns, hheld⟩, htile⟩
    have h : GapStepRuns s group.val p := ⟨hfirst, hsource, hgap, hjob, hruns, hheld⟩
    exact gapStep_of_none errs h htile
  · rintro s ⟨⟨hfirst, hsource, hgap, hjob, hruns, hheld⟩, htile, ⟨hflight, hunit⟩, hgood⟩
    beta_reduce at *
    have h : GapStepRuns s group.val p := ⟨hfirst, hsource, hgap, hjob, hruns, hheld⟩
    have hread : (engineRead s x (placeSlot s group.val p (besideGap s group.val p)) errs).2.1 = .good content errors := by
      unfold besideGap
      exact hgood
    exact gapStep_of_good errs h htile hflight hunit hread
  · exact ⟨s, exec_gapStep_idle errs h, .refl _ s, trivial⟩
  · rintro s ⟨hjob, hcode, hroom, ⟨hhr, hbase⟩, hdst, hfence⟩
    obtain ⟨t, hexec, hframe, hmedium, hdone, hstat, hregions⟩ := gapStepCommit_of_room hjob hcode hroom hhr hbase hdst hfence
    exact ⟨t, hexec, hframe.mono rfl, fun ch a _ ha => hmedium ch a ha, hdone, hstat, hregions⟩
  · exact ⟨s, exec_gapStepCommit_idle failed h, .refl _ s, trivial⟩
  · dsimp only
    rintro s ⟨hruns, hcool, hmove, hroom, hretiring, hhot, hfree, hmapped⟩
    obtain ⟨t, hexec, hframe, hbegun, hrest, hmoving, hhot', hcold, hregion⟩ :=
      swapInterval_begins hruns hcool hmove hroom hretiring hhot hfree hmapped
    refine ⟨t, hexec, hframe, fun l hl hm => heat_le_hottest hhot hl hm, hbegun, hrest, hmoving, hhot', hcold, ?_⟩
    rw [hregion]
    rfl
  · exact ⟨_, exec_swapInterval_idle h, takeSwap_frame s group.val, swapThreshold_takeSwap s group.val⟩
  · rintro s ⟨⟨hmove, hcopied, hruns, hroom, hsrc, hdst, hready, hready', hidle⟩, htile⟩
    have h : TileCopyRuns s group.val m := ⟨hmove, hcopied, hruns, hroom, hsrc, hdst, hready, hready', hidle⟩
    exact moveTileCopy_of_none h errs htile
  · rintro s ⟨⟨hmove, hcopied, hruns, hroom, hsrc, hdst, hready, hready', hidle⟩, htile, ⟨hhr, hbase⟩, hgood⟩
    beta_reduce at *
    have h : TileCopyRuns s group.val m := ⟨hmove, hcopied, hruns, hroom, hsrc, hdst, hready, hready', hidle⟩
    obtain ⟨t, hexec, hframe, hmoved, hmedium⟩ := moveTileCopy_of_good h htile hhr hbase hgood
    exact ⟨t, hexec, hframe.mono rfl, hmoved, fun ch a _ ha => hmedium ch a ha⟩
  · exact ⟨s, exec_moveTileCopy_idle errs failed h.1 h.2, .refl _ s, trivial⟩
  · rintro s ⟨hmove, hcopied, hroom, hwithin⟩
    exact moveBatchComplete_of_within hmove hcopied hroom hwithin
  · rintro s ⟨hmove, hcopied, hroom, hlast, hregions, hkind, hretiring⟩
    obtain ⟨hexec, hdue, hdst, hstat⟩ := moveBatchComplete_of_last hmove hcopied hroom hlast hregions hkind hretiring
    refine ⟨_, hexec, Frame.step (moveSource_frame _ _ _) ((batchLanded_frame s group.val m).mono rfl) rfl, hdue, ?_, ?_, hstat,
      fun h1 => ?_, fun h1 hpartner => ?_⟩
    · rw [hdst]
    · rw [hdst]
    · obtain ⟨since, hgroup⟩ := groupOf_of_move_freed (s := s) (g := group.val) h1 hkind
      unfold regionOf
      rw [hgroup]
      unfold mappingMoved
      dsimp only
      rw [tabGet_mod_self, tabGet_mod_self]
      exact ⟨rfl, rfl, rfl, rfl, rfl⟩
    · obtain ⟨hbegun, hfree⟩ := groupOf_of_move_swapped (s := s) (g := group.val) h1 hpartner
      exact ⟨_, hbegun, rfl, rfl, rfl, rfl, rfl, hfree⟩
  · exact ⟨s, exec_moveBatchComplete_idle h, .refl _ s, trivial⟩
  · rintro s ⟨hfirst, hjob, hruns, hheld, hfence, hlost, hready, hunit, hspares, hfull, htile, hflight, hgood⟩
    have h : RemapRuns s group.val j rest := ⟨hfirst, hjob, hruns, hheld, hfence⟩
    exact patchRemap_of_good h hlost hready hspares hfull htile hflight hunit hgood
  · rintro s ⟨hfirst, hjob, hruns, hheld, hfence, hlost⟩
    have h : RemapRuns s group.val j rest := ⟨hfirst, hjob, hruns, hheld, hfence⟩
    exact ⟨_, h.exec_of_lost hlost errs, nominationsSet_frame s _ rest, groupOf_modGroup_self s _ _⟩
  · rintro s ⟨hjob, hready, hroom⟩
    exact patchRemapCommit_of_failed hjob hready hroom
  · rintro s ⟨hjob, hready, hroom⟩
    exact patchRemapCommit_of_done hjob hready hroom
  · exact ⟨s, exec_patchRemap_idle errs h, .refl _ s, trivial⟩
  · exact ⟨s, exec_patchRemapCommit_idle failed h, .refl _ s, trivial⟩

end Sys2Proof.Machine
end

section
/-! The tiles of the journal (R84, R330, R333, R466): the words a tile takes, and its way into the journal region. -/
namespace Sys2Proof.Machine

/-! ### The words of the next tile (R84, R333, R367) -/

theorem nextTileWords_zero (ws : List QWord) : nextTileWords 0 ws = [] := by
  unfold nextTileWords
  rfl

theorem nextTileWords_nil (n : Nat) : nextTileWords n [] = [] := by
  cases n <;> rfl

theorem nextTileWords_poisoned {w : QWord} (h : isPoisoned w = true) (n : Nat) (ws : List QWord) :
    nextTileWords n (w :: ws) = [] := by
  cases n with
  | zero => exact nextTileWords_zero _
  | succ n => exact if_pos h

theorem nextTileWords_endsRegion {w : QWord} (h : ¬ isPoisoned w = true) (hend : endsRegion w = true) (n : Nat) (ws : List QWord) :
    nextTileWords (n + 1) (w :: ws) = [w] :=
  (if_neg h).trans (if_pos hend)

theorem nextTileWords_takes {w : QWord} (h : ¬ isPoisoned w = true) (hend : ¬ endsRegion w = true) (n : Nat) (ws : List QWord) :
    nextTileWords (n + 1) (w :: ws) = w :: nextTileWords n ws :=
  (if_neg h).trans (if_neg hend)

theorem nextTileWords_ne_nil {w : QWord} (h : isPoisoned w = false) (n : Nat) (ws : List QWord) :
    nextTileWords (n + 1) (w :: ws) ≠ [] := by
  by_cases hend : endsRegion w = true
  · simp [nextTileWords_endsRegion (by simp [h]) hend]
  · simp [nextTileWords_takes (by simp [h]) hend]

/-- The words of a tile head the waiting words, none is poisoned, and they end as the tile is full, with the last waiting word, with
a record after which the records go to the next region, or before a poisoned word. -/
structure TileWords (n : Nat) (waiting ws : List QWord) : Prop where
  first : ws <+: waiting
  few : ws.length ≤ n
  sound : ∀ v ∈ ws, isPoisoned v = false
  ends : ws.length = n ∨ ws = waiting ∨ (∃ v ∈ ws.getLast?, endsRegion v = true) ∨ ∃ v ∈ waiting[ws.length]?, isPoisoned v = true

theorem TileWords.cons {n : Nat} {waiting ws : List QWord} (h : TileWords n waiting ws) {w : QWord} (hw : isPoisoned w = false) :
    TileWords (n + 1) (w :: waiting) (w :: ws) where
  first := h.first.imp fun _ h => congrArg (w :: ·) h
  few := Nat.succ_le_succ h.few
  sound := List.forall_mem_cons.mpr ⟨hw, h.sound⟩
  ends := by
    obtain hfull | hall | ⟨v, hv, hend⟩ | hbad := h.ends
    · exact .inl (congrArg Nat.succ hfull)
    · exact .inr (.inl (congrArg _ hall))
    · exact .inr (.inr (.inl ⟨v, List.mem_getLast?_cons hv, hend⟩))
    · exact .inr (.inr (.inr hbad))

theorem tileWords_nextTileWords (n : Nat) (waiting : List QWord) : TileWords n waiting (nextTileWords n waiting) := by
  induction n, waiting using nextTileWords.induct with
  | case1 waiting =>
    rw [nextTileWords_zero]
    exact ⟨⟨_, rfl⟩, Nat.le_refl 0, by simp, .inl rfl⟩
  | case2 n =>
    rw [nextTileWords_nil]
    exact ⟨⟨_, rfl⟩, Nat.zero_le n, by simp, .inr (.inl rfl)⟩
  | case3 n w ws hbad =>
    rw [nextTileWords_poisoned hbad]
    exact ⟨⟨_, rfl⟩, Nat.zero_le _, by simp, .inr (.inr (.inr ⟨w, rfl, hbad⟩))⟩
  | case4 n w ws hgood hend =>
    rw [nextTileWords_endsRegion hgood hend]
    exact ⟨⟨_, rfl⟩, by simp, by simpa using hgood, .inr (.inr (.inl ⟨w, rfl, hend⟩))⟩
  | case5 n w ws hgood hend ih =>
    rw [nextTileWords_takes hgood hend]
    exact ih.cons (by simpa using hgood)

/-! ### The issue of a tile (R84) -/

/-- A journal tile of given words, as it goes to the next slot of journal region `j`. -/
def journalTile (s : State) (g j : Nat) (words : List Nat) (n drop : Nat) (stale : Bool) : JournalOut :=
  { seq := (groupOf s g).journalSeq, addr := regionBase s g j + (groupOf s g).journalSlot,
    code := goodCode s (.journal g (groupOf s g).journalSeq) (journalPayload (groupOf s g).journalSeq words) zeroMac 0,
    words := n, stale := stale, drop := drop }

theorem journalTile_congr {s t : State} (hgroups : t.groups = s.groups) (hpath : t.path = s.path) (g j : Nat) (words : List Nat)
    (n drop : Nat) (stale : Bool) : journalTile t g j words n drop stale = journalTile s g j words n drop stale := by
  unfold journalTile regionBase regionArea goodCode epochByte groupOf
  rw [hgroups, hpath]

/-- A tile has been issued, at the time `now`. -/
def withTile (tile : JournalOut) (now : Nat) (x : GroupRec) : GroupRec :=
  { x with
    journalOut := x.journalOut ++ [tile], journalSeq := x.journalSeq + 1, journalSlot := x.journalSlot + 1,
    journalTiles := x.journalTiles + 1, journalSince := now,
    checkpointDue := x.checkpointDue || decide (262144 ≤ x.journalTiles + 1) }

theorem issueJournalTile_of_journal {s : State} {g j : Nat} (h : (groupOf s g).journals.head? = some j) (words : List Nat)
    (n drop : Nat) (stale : Bool) :
    issueJournalTile s g words n drop stale = modGroup s g (withTile (journalTile s g j words n drop stale) s.sys.time) := by
  unfold issueJournalTile
  dsimp only
  rw [h]
  rfl

theorem Frame.queueOf {U : List UnitName} {s t : State} (h : Frame U s t) (hu : .queues ∉ U) (q : Nat) :
    queueOf t q = queueOf s q := by
  unfold Machine.queueOf
  rw [h .queues hu]

theorem queueOf_takeWords_taken (s : State) (q n : Nat) :
    (queueOf (takeWords s q n) q).taken = (queueOf s q).taken + min n (unread (queueOf s q)) := by
  unfold takeWords
  dsimp only
  split
  · rw [queueOf_modQueue_self]
    rfl
  · rw [(bump_frame _ _ _ _).queueOf (by decide), queueOf_modQueue_self]
    rfl

theorem length_waitingWords (s : State) (g : Nat) : (waitingWords s g).length = unread (queueOf s g) := by
  unfold waitingWords unread
  rw [List.length_drop]

/-- The tile of the next words has been issued, and the words are taken. -/
theorem commitTile_of_journal {s : State} {g j : Nat} (hj : (groupOf s g).journals.head? = some j) {ws : List QWord}
    (hws : nextTileWords 7 (waitingWords s g) = ws) (hne : ws ≠ []) (drop : Nat) :
    commitTile s g drop = modGroup (takeWords s g ws.length) g
      (withTile (journalTile s g j (ws.map (·.data)) ws.length drop false) s.sys.time) := by
  have htaken := takeWords_frame s g ws.length
  unfold commitTile
  dsimp only
  rw [hws, if_neg hne, issueJournalTile_of_journal (j := j) (by rw [htaken.groupOf (by decide), hj]),
    journalTile_congr (htaken.groups_eq (by decide)) (htaken.path_eq (by decide)), htaken.sys_eq (by decide)]

/-- A checkpoint of the group is due (R333, R367). -/
def checkpointCalled (s : State) (g : Nat) : State :=
  modGroup s g (fun x => { x with checkpointDue := true })

theorem checkpointCalled_frame (s : State) (g : Nat) : Frame [.groups] s (checkpointCalled s g) := modGroup_frame _ _ _

theorem groupOf_checkpointCalled (s : State) (g : Nat) :
    groupOf (checkpointCalled s g) g = { groupOf s g with checkpointDue := true } :=
  groupOf_modGroup_self _ _ _

/-! ### The command that writes a tile (R84, R333, R466) -/

/-- The record of a stale column goes alone. -/
theorem exec_journalTileWrite_stale {s : State} {group : Group} {w : Nat} (hawake : groupAwake s group.val = true)
    (hstale : (groupOf s group.val).staleRecord = some w) :
    exec (.journalTileWrite group) s = .next (modGroup
      (issueJournalTile s group.val [(staleUnits w).headD 0] 0 0 true) group.val (fun x => { x with staleRecord := none })) := by
  show execJournalTileWrite group s = _
  unfold execJournalTileWrite
  dsimp only
  rw [if_neg (by rw [hawake]; decide), hstale]

section
variable {s : State} {group : Group} (hawake : groupAwake s group.val = true) (hstale : (groupOf s group.val).staleRecord = none)
  {w : QWord} {ws : List QWord} (hwaiting : waitingWords s group.val = w :: ws)
include hawake hstale hwaiting

theorem exec_journalTileWrite_words (hsound : isPoisoned w = false) :
    exec (.journalTileWrite group) s = .next (commitTile s group.val 0) := by
  show execJournalTileWrite group s = _
  unfold execJournalTileWrite
  dsimp only
  rw [if_neg (by rw [hawake]; decide), hstale]
  dsimp only
  rw [hwaiting]
  dsimp only
  rw [if_neg (by rw [hsound]; decide)]

theorem exec_journalTileWrite_poisoned (hbad : isPoisoned w = true) (hdue : (groupOf s group.val).checkpointDue = false) :
    exec (.journalTileWrite group) s = .next (raise (checkpointCalled s group.val) 0x2D01
      (leBytes 1 group.val ++ satBytes 4
        (((queueOf s group.val).mark + (queueOf s group.val).taken) % queueCapacity group.val))) := by
  show execJournalTileWrite group s = _
  unfold execJournalTileWrite
  dsimp only
  rw [if_neg (by rw [hawake]; decide), hstale]
  dsimp only
  rw [hwaiting]
  dsimp only
  rw [if_pos hbad, if_neg (by rw [hdue]; decide)]
  rfl

end

theorem exec_journalTileWrite_idle {s : State} {group : Group}
    (h : groupAwake s group.val = false ∨ ((groupOf s group.val).staleRecord = none ∧ waitingWords s group.val = [])) :
    exec (.journalTileWrite group) s = .next s := by
  show execJournalTileWrite group s = _
  unfold execJournalTileWrite
  dsimp only
  obtain hasleep | ⟨hstale, hwaiting⟩ := h
  · exact if_pos hasleep
  · rw [hstale]
    dsimp only
    rw [hwaiting]
    exact ite_self _

/-- A tile stands last in the journal that leaves a group, and sequence number and slot have moved on. -/
def TileIssued (tile : JournalOut) (x y : GroupRec) : Prop :=
  y.journalOut = x.journalOut ++ [tile] ∧ y.journalSeq = x.journalSeq + 1 ∧ y.journalSlot = x.journalSlot + 1

theorem journalTileWrite_of_words {s : State} {group : Group} {j : Nat} {w : QWord} {ws : List QWord}
    (hawake : groupAwake s group.val = true) (hj : (groupOf s group.val).journals.head? = some j)
    (hstale : (groupOf s group.val).staleRecord = none) (hwaiting : waitingWords s group.val = w :: ws)
    (hsound : isPoisoned w = false) :
    ∃ t, exec (.journalTileWrite group) s = .next t ∧ Frame [.groups, .queues, .stats] s t ∧
      ∃ tw, TileWords 7 (waitingWords s group.val) tw ∧ tw ≠ [] ∧
        TileIssued (journalTile s group.val j (tw.map (·.data)) tw.length 0 false) (groupOf s group.val) (groupOf t group.val) ∧
        (queueOf t group.val).taken = (queueOf s group.val).taken + tw.length := by
  have hwords := tileWords_nextTileWords 7 (waitingWords s group.val)
  have hne : nextTileWords 7 (waitingWords s group.val) ≠ [] := by
    rw [hwaiting]
    exact nextTileWords_ne_nil hsound 6 ws
  have hcommit := commitTile_of_journal hj rfl hne 0
  have hunread : (nextTileWords 7 (waitingWords s group.val)).length ≤ unread (queueOf s group.val) := by
    rw [← length_waitingWords]
    exact hwords.first.length_le
  refine ⟨_, exec_journalTileWrite_words hawake hstale hwaiting hsound, commitTile_frame s group.val 0, _, hwords, hne, ?_, ?_⟩
  · rw [hcommit, groupOf_modGroup_self, (takeWords_frame _ _ _).groupOf (by decide)]
    exact ⟨rfl, rfl, rfl⟩
  · rw [hcommit, (modGroup_frame _ _ _).queueOf (by decide), queueOf_takeWords_taken, Nat.min_eq_left hunread]

theorem journalTileWrite_of_stale {s : State} {group : Group} {j w : Nat} (hawake : groupAwake s group.val = true)
    (hj : (groupOf s group.val).journals.head? = some j) (hstale : (groupOf s group.val).staleRecord = some w) :
    ∃ t, exec (.journalTileWrite group) s = .next t ∧ Frame [.groups] s t ∧
      TileIssued (journalTile s group.val j [(staleUnits w).headD 0] 0 0 true) (groupOf s group.val) (groupOf t group.val) ∧
      (groupOf t group.val).staleRecord = none := by
  refine ⟨_, exec_journalTileWrite_stale hawake hstale,
    Frame.step (modGroup_frame _ _ _) (issueJournalTile_frame s _ _ _ _ _) rfl, ?_, ?_⟩
  all_goals rw [groupOf_modGroup_self]
  rw [issueJournalTile_of_journal hj, groupOf_modGroup_self]
  exact ⟨rfl, rfl, rfl⟩

theorem journalTileWrite_of_poisoned {s : State} {group : Group} {w : QWord} {ws : List QWord}
    (hawake : groupAwake s group.val = true) (hstale : (groupOf s group.val).staleRecord = none)
    (hwaiting : waitingWords s group.val = w :: ws) (hbad : isPoisoned w = true)
    (hdue : (groupOf s group.val).checkpointDue = false) :
    ∃ t, exec (.journalTileWrite group) s = .next t ∧ Frame [.mgmt, .folio, .ledger, .groups, .stats, .out] s t ∧
      (groupOf t group.val).checkpointDue = true ∧ (groupOf t group.val).journalOut = (groupOf s group.val).journalOut ∧
      LogsEvent 0x2D01 (leBytes 1 group.val ++ satBytes 4
        (((queueOf s group.val).mark + (queueOf s group.val).taken) % queueCapacity group.val)) s t := by
  have hcalled := checkpointCalled_frame s group.val
  refine ⟨_, exec_journalTileWrite_poisoned hawake hstale hwaiting hbad hdue, Frame.step (raise_frame _ _ _) (hcalled.mono rfl) rfl,
    ?_, ?_, logsEvent_raise (hcalled.ledger_eq (by decide)) (hcalled.sys_eq (by decide)) (hcalled.settings_eq (by decide)) _ _⟩
  all_goals rw [(raise_frame _ _ _).groupOf (by decide), groupOf_checkpointCalled]

end Sys2Proof.Machine
end

section
/-! The completion of a journal tile (R330, R244, R333, R466). -/
namespace Sys2Proof.Machine

/-- The columns that a program of a whole codeword reaches: those not erased (R46, R54). -/
def writtenColumns (s : State) (g : Nat) : List Nat :=
  (List.range 8).filter (fun c => !(erasedColumns s g none).contains c)

theorem lt_of_mem_writtenColumns {s : State} {g c : Nat} (h : c ∈ writtenColumns s g) : c < 8 :=
  List.mem_range.mp (List.mem_filter.mp h).1

theorem mem_writtenColumns {s : State} {g c : Nat} (hc : c < 8) : c ∈ writtenColumns s g ↔ c ∉ erasedColumns s g none := by
  unfold writtenColumns
  simp [hc]

/-- A journal tile stands in the medium, and its slot is marked in the filter (R212). -/
def tileLanded (s : State) (g : Nat) (tile : JournalOut) : State :=
  let t := storeColumns s g (List.replicate 8 tile.addr) tile.code (writtenColumns s g)
  let rel := tile.addr - regionArea t g
  filterMark t g (rel / 1048581) (rel % 1048581)

/-- A journal tile has left its group, and a tile with the record of a stale column releases the hold on programs (R466). -/
def tileLeft (s : State) (g : Nat) (tile : JournalOut) (rest : List JournalOut) : State :=
  modGroup s g (fun x => { x with journalOut := rest, staleHold := x.staleHold && !tile.stale })

theorem tileLanded_frame (s : State) (g : Nat) (tile : JournalOut) :
    Frame [.sys, .folio, .groups, .path, .stats] s (tileLanded s g tile) :=
  Frame.step (filterMark_frame _ _ _ _) (storeColumns_frame s _ _ _ _) rfl

theorem tileLeft_frame (s : State) (g : Nat) (tile : JournalOut) (rest : List JournalOut) :
    Frame [.groups] s (tileLeft s g tile rest) := modGroup_frame _ _ _

theorem tileLanded_groupsNoted (s : State) (g : Nat) (tile : JournalOut) : GroupsNoted s (tileLanded s g tile) :=
  (storeColumns_groupsNoted s _ _ _ _).trans (filterMark_groupsNoted _ _ _ _)

theorem tileLanded_sys {s : State} (h : s.sys.dev ≠ .varnish) (g : Nat) (tile : JournalOut) :
    (tileLanded s g tile).sys = s.sys :=
  ((filterMark_frame _ _ _ _).sys_eq (by decide)).trans (storeColumns_sys h _ _ _ _)

theorem medium_tileLanded (s : State) (g : Nat) {tile : JournalOut} (haddr : tile.addr < 2 ^ 35) {ch a : Nat} (ha : a < 2 ^ 35) :
    tabGet dPatch (tileLanded s g tile).path.medium (patchKey ch a) =
      if ch / 8 = g ∧ a = tile.addr ∧ ch % 8 ∉ erasedColumns s g none then patchOfSymbols tile.code (ch % 8)
      else tabGet dPatch s.path.medium (patchKey ch a) := by
  have hcol : ch % 8 < 8 := Nat.mod_lt _ (by decide)
  have haddrs (c : Nat) (hc : c < 8) : (List.replicate 8 tile.addr).getD c 0 < 2 ^ 35 := by rwa [List.getD_replicate _ hc]
  unfold tileLanded
  dsimp only
  rw [(filterMark_frame _ _ _ _).path_eq (by decide),
    medium_storeColumns tile.code (fun c hc => lt_of_mem_writtenColumns hc) haddrs s ha, List.getD_replicate _ hcol]
  simp only [mem_writtenColumns hcol]

section
variable {s : State} {g : Nat} {tile : JournalOut} {rest : List JournalOut} (h : (groupOf s g).journalOut = tile :: rest)
include h

theorem journalComplete_of_tile :
    journalComplete s g = setMark (tileLeft (tileLanded s g tile) g tile rest) g (tile.words + tile.drop) := by
  unfold journalComplete
  rw [h]
  rfl

theorem journalComplete_sys (hdev : s.sys.dev ≠ .varnish) : (journalComplete s g).sys = s.sys := by
  rw [journalComplete_of_tile h, (setMark_frame _ _ _).sys_eq (by decide), (tileLeft_frame _ _ _ _).sys_eq (by decide),
    tileLanded_sys hdev]

end

theorem exec_journalTileComplete {s : State} {group : Group} {tile : JournalOut} {rest : List JournalOut}
    (h : (groupOf s group.val).journalOut = tile :: rest) (hdev : s.sys.dev ≠ .varnish) :
    exec (.journalTileComplete group) s =
      .next (setMark (tileLeft (tileLanded s group.val tile) group.val tile rest) group.val (tile.words + tile.drop)) := by
  have hsys : (journalComplete s group.val).sys.dev ≠ .varnish := by rwa [journalComplete_sys h hdev]
  rw [← journalComplete_of_tile h]
  exact congrArg Host.Outcome.next (varnishAdvance_of_not_varnish hsys 5)

theorem exec_journalTileComplete_idle {s : State} {group : Group} (h : (groupOf s group.val).journalOut = [])
    (hdev : s.sys.dev ≠ .varnish) : exec (.journalTileComplete group) s = .next s := by
  have hnone : journalComplete s group.val = s := by
    unfold journalComplete
    rw [h]
  show Host.Outcome.next (varnishAdvance 5 (journalComplete s group.val)) = _
  rw [hnone, varnishAdvance_of_not_varnish hdev]

/-- The tile stands in the medium on every column that is not erased, and the mark of the queue has passed its words. -/
theorem journalTileComplete_of_tile {s : State} {group : Group} {tile : JournalOut} {rest : List JournalOut}
    (haddr : tile.addr < 2 ^ 35) (h : (groupOf s group.val).journalOut = tile :: rest) (hdev : s.sys.dev ≠ .varnish) :
    ∃ t, exec (.journalTileComplete group) s = .next t ∧ Frame [.sys, .folio, .groups, .queues, .path, .stats] s t ∧
      (groupOf t group.val).journalOut = rest ∧
      (groupOf t group.val).staleHold = ((groupOf s group.val).staleHold && !tile.stale) ∧
      (queueOf t group.val).mark = ((queueOf s group.val).mark + (tile.words + tile.drop)) % queueCapacity group.val ∧
      (queueOf t group.val).words = (queueOf s group.val).words.drop (tile.words + tile.drop) ∧
      ∀ ch a, a < 2 ^ 35 → tabGet dPatch t.path.medium (patchKey ch a) =
        if ch / 8 = group.val ∧ a = tile.addr ∧ ch % 8 ∉ erasedColumns s group.val none then patchOfSymbols tile.code (ch % 8)
        else tabGet dPatch s.path.medium (patchKey ch a) := by
  have hlanded := tileLanded_frame s group.val tile
  have hleft := tileLeft_frame (tileLanded s group.val tile) group.val tile rest
  have hmark := setMark_frame (tileLeft (tileLanded s group.val tile) group.val tile rest) group.val (tile.words + tile.drop)
  have hqueue : queueOf (tileLeft (tileLanded s group.val tile) group.val tile rest) group.val = queueOf s group.val := by
    rw [hleft.queueOf (by decide), hlanded.queueOf (by decide)]
  refine ⟨_, exec_journalTileComplete h hdev, Frame.step hmark (Frame.step hleft (hlanded.mono rfl) rfl) rfl, ?_, ?_, ?_, ?_,
    fun ch a ha => ?_⟩
  · rw [hmark.groupOf (by decide)]
    unfold tileLeft
    rw [groupOf_modGroup_self]
  · rw [hmark.groupOf (by decide)]
    unfold tileLeft
    rw [groupOf_modGroup_self, tileLanded_groupsNoted s group.val tile group.val]
  · unfold setMark
    rw [queueOf_modQueue_self, hqueue]
  · unfold setMark
    rw [queueOf_modQueue_self, hqueue]
  · rw [hmark.path_eq (by decide), hleft.path_eq (by decide)]
    exact medium_tileLanded s group.val haddr ha

end Sys2Proof.Machine
end

section
/-! The start of a checkpoint (R367, R78, R333): the next journal region, the two records, and the snapshot. -/
namespace Sys2Proof.Machine

/-! ### The next journal region (R78, R467) -/

/-- The group differs at most in the entries of its regions. -/
def RegionsOnly (g : Nat) (s t : State) : Prop :=
  groupOf t g = { groupOf s g with regions := (groupOf t g).regions }

theorem RegionsOnly.trans {g : Nat} {s t r : State} (h : RegionsOnly g s t) (k : RegionsOnly g t r) : RegionsOnly g s r := by
  unfold RegionsOnly at *
  rw [k, h]

theorem modRegion_regionsOnly (s : State) (g p : Nat) (f : RegionRec → RegionRec) : RegionsOnly g s (modRegion s g p f) := by
  unfold RegionsOnly modRegion
  rw [groupOf_modGroup_self]

theorem foldl_modRegion_regionsOnly (g : Nat) (f : RegionRec → RegionRec) (ps : List Nat) (s : State) :
    RegionsOnly g s (ps.foldl (fun s p => modRegion s g p f) s) :=
  List.foldlRecOn (motive := fun x => RegionsOnly g s x) ps _ rfl fun _ hx p _ => hx.trans (modRegion_regionsOnly _ g p f)

/-- The journal regions that the next checkpoint frees: those of generations before the last three (R78, R367). -/
def staleJournals (x : GroupRec) : List Nat :=
  if 4 ≤ x.journals.length then x.journals.drop 3 else []

/-- The head of the free list is the journal region now. -/
theorem groupOf_rotateJournal {s : State} {g j : Nat} {rest : List Nat}
    (h : (groupOf s g).free ++ staleJournals (groupOf s g) = j :: rest) :
    ∃ regions older, groupOf (rotateJournal s g) g =
      { groupOf s g with regions := regions, free := rest, journals := j :: older } := by
  unfold staleJournals at h
  unfold rotateJournal
  dsimp only
  rw [h]
  dsimp only
  rw [groupOf_modGroup_self, (foldl_modRegion_regionsOnly g _ _ s).trans (modRegion_regionsOnly _ g j _)]
  exact ⟨_, _, rfl⟩

/-! ### The words that wait are written (R84) -/

/-- The group differs at most in its journal tiles, their sequence and slot, and in whether a checkpoint is due. -/
def TilesOnly (g : Nat) (s t : State) : Prop :=
  groupOf t g = { groupOf s g with
    journalOut := (groupOf t g).journalOut, journalSeq := (groupOf t g).journalSeq, journalSlot := (groupOf t g).journalSlot,
    journalTiles := (groupOf t g).journalTiles, journalSince := (groupOf t g).journalSince,
    checkpointDue := (groupOf t g).checkpointDue }

theorem TilesOnly.refl (g : Nat) (s : State) : TilesOnly g s s := rfl

theorem TilesOnly.trans {g : Nat} {s t r : State} (h : TilesOnly g s t) (k : TilesOnly g t r) : TilesOnly g s r := by
  unfold TilesOnly at *
  rw [k, h]

theorem issueJournalTile_tilesOnly (s : State) (g : Nat) (words : List Nat) (n drop : Nat) (stale : Bool) :
    TilesOnly g s (issueJournalTile s g words n drop stale) := by
  unfold issueJournalTile
  dsimp only
  split
  · exact .refl g s
  · unfold TilesOnly
    rw [groupOf_modGroup_self]

theorem commitTile_tilesOnly (s : State) (g drop : Nat) : TilesOnly g s (commitTile s g drop) := by
  unfold commitTile
  dsimp only
  split
  · exact .refl g s
  · have htaken : TilesOnly g s (takeWords s g (nextTileWords 7 (waitingWords s g)).length) := by
      unfold TilesOnly
      rw [(takeWords_frame _ _ _).groupOf (by decide)]
    exact htaken.trans (issueJournalTile_tilesOnly ..)

theorem commitAll_tilesOnly (fuel : Nat) (s : State) (g : Nat) : TilesOnly g s (commitAll fuel s g) := by
  induction fuel generalizing s with
  | zero => exact .refl g s
  | succ fuel ih =>
    unfold commitAll
    split
    · exact .refl g s
    · exact (commitTile_tilesOnly s g 0).trans (ih _)

/-! ### The snapshot (R367) -/

/-- The checkpoint's two records stand in the queue, with the next journal region at the head of the journal regions. -/
def checkpointRecorded (s : State) (g : Nat) : State :=
  let t := jqPush (rotateJournal s g) g (checkpointUnits ((groupOf s g).generation + 1))
  jqPush t g (journalRegionUnits ((groupOf t g).journals.headD 0))

/-- All words that waited stand in tiles of the journal region before. -/
def recordsWritten (s : State) (g : Nat) : State :=
  commitAll 300000 (modGroup s g (fun x => { x with journals := x.journals.drop 1 })) g

/-- The journal goes on in its next region, and the header of the checkpoint is fixed. -/
def checkpointOpened (s : State) (g gen : Nat) (journals : List Nat) : State :=
  let t := modGroup s g (fun x => { x with
    journals := journals, journalSlot := 0, journalTiles := 0, checkpointDue := false,
    checkpoint := some { gen := gen, header := [] } })
  let header := anchorHeader t g gen 0
  modGroup t g (fun x => { x with checkpoint := some { gen := gen, header := header } })

/-- The body of the checkpoint's anchor slot is programmed. -/
def bodyProgrammed (s : State) (g gen : Nat) : State :=
  (List.range 8130).foldl (fun s i => programAnchor s g gen (i + 1) (anchorBody s g (i + 1))) s

theorem checkpointRecorded_groupsNoted (s : State) (g : Nat) : GroupsNoted (rotateJournal s g) (checkpointRecorded s g) := by
  unfold checkpointRecorded
  exact (jqPush_groupsNoted _ _ _).trans (jqPush_groupsNoted _ _ _)

theorem groupOf_recordsWritten_free (s : State) (g : Nat) : (groupOf (recordsWritten s g) g).free = (groupOf s g).free := by
  unfold recordsWritten
  rw [commitAll_tilesOnly, groupOf_modGroup_self]

theorem groupOf_checkpointOpened (s : State) (g gen : Nat) (journals : List Nat) :
    ∃ header, groupOf (checkpointOpened s g gen journals) g = { groupOf s g with
      journals := journals, journalSlot := 0, journalTiles := 0, checkpointDue := false,
      checkpoint := some { gen := gen, header := header } } := by
  unfold checkpointOpened
  dsimp only
  rw [groupOf_modGroup_self, groupOf_modGroup_self]
  exact ⟨_, rfl⟩

theorem programAnchor_groupsNoted (s : State) (g gen i : Nat) (payload : List Byte) :
    GroupsNoted s (programAnchor s g gen i payload) :=
  programAt_groupsNoted s _ _

theorem bodyProgrammed_groupsNoted (s : State) (g gen : Nat) : GroupsNoted s (bodyProgrammed s g gen) :=
  List.foldlRecOn (motive := fun x => GroupsNoted s x) _ _ (.refl s) fun _ hx _ _ =>
    hx.trans (programAnchor_groupsNoted _ _ _ _ _)

/-- A checkpoint of a group whose journal is sound, once regions and queue have room for it. -/
theorem startCheckpoint_of_room {s : State} {g j : Nat} {rest : List Nat} (hnone : (groupOf s g).checkpoint = none)
    (hfreed : (groupOf s g).free ++ staleJournals (groupOf s g) = j :: rest) (hroom : journalRoom s g 2 = true)
    (hstale : (groupOf s g).staleRecord = none) (hsound : ∀ w ∈ waitingWords s g, isPoisoned w = false) :
    startCheckpoint s g false =
      bodyProgrammed (checkpointOpened (recordsWritten (checkpointRecorded s g) g) g ((groupOf s g).generation + 1)
        (groupOf (checkpointRecorded s g) g).journals) g ((groupOf s g).generation + 1) := by
  have hregion : ¬ ((groupOf s g).free = [] ∧ (groupOf s g).journals.length < 4) := by
    rintro ⟨hfree, hshort⟩
    unfold staleJournals at hfreed
    rw [hfree, if_neg (by omega)] at hfreed
    exact List.cons_ne_nil _ _ hfreed.symm
  have hany : (waitingWords s g).any isPoisoned = false := List.any_eq_false.mpr fun w hw => by simp [hsound w hw]
  unfold startCheckpoint
  dsimp only
  rw [if_neg (by simp [hnone, hregion, hroom, hstale]), hany]
  simp only [Bool.false_eq_true, if_false]
  rfl

/-- A checkpoint of generation `gen` is open in the group, which writes its journal into region `j`. -/
def CheckpointBegun (gen j : Nat) (free : List Nat) (x : GroupRec) : Prop :=
  (∃ header, x.checkpoint = some { gen := gen, header := header }) ∧ x.checkpointDue = false ∧ x.journalSlot = 0 ∧
    x.journals.head? = some j ∧ x.free = free

theorem GroupsNoted.checkpointBegun {s t : State} (h : GroupsNoted s t) {g gen j : Nat} {free : List Nat}
    (hbegun : CheckpointBegun gen j free (groupOf s g)) : CheckpointBegun gen j free (groupOf t g) := by
  unfold CheckpointBegun
  rw [h g]
  exact hbegun

theorem checkpointBegun_checkpointOpened {s : State} {g j : Nat} {journals free : List Nat} (hj : journals.head? = some j)
    (hfree : (groupOf s g).free = free) (gen : Nat) : CheckpointBegun gen j free (groupOf (checkpointOpened s g gen journals) g) := by
  obtain ⟨header, hopened⟩ := groupOf_checkpointOpened s g gen journals
  rw [hopened]
  exact ⟨⟨header, rfl⟩, rfl, rfl, hj, hfree⟩

/-- The next journal region is the head of the free list, and the checkpoint's generation follows the last. -/
theorem checkpointBegun_startCheckpoint {s : State} {g j : Nat} {rest : List Nat} (hnone : (groupOf s g).checkpoint = none)
    (hfreed : (groupOf s g).free ++ staleJournals (groupOf s g) = j :: rest) (hroom : journalRoom s g 2 = true)
    (hstale : (groupOf s g).staleRecord = none) (hsound : ∀ w ∈ waitingWords s g, isPoisoned w = false) :
    CheckpointBegun ((groupOf s g).generation + 1) j rest (groupOf (startCheckpoint s g false) g) := by
  obtain ⟨regions, older, hrotated⟩ := groupOf_rotateJournal hfreed
  have hrecorded := checkpointRecorded_groupsNoted s g g
  rw [hrotated] at hrecorded
  have hj : (groupOf (checkpointRecorded s g) g).journals.head? = some j := by
    rw [hrecorded]
    rfl
  have hfree : (groupOf (recordsWritten (checkpointRecorded s g) g) g).free = rest := by
    rw [groupOf_recordsWritten_free, hrecorded]
  rw [startCheckpoint_of_room hnone hfreed hroom hstale hsound]
  exact (bodyProgrammed_groupsNoted _ _ _).checkpointBegun (checkpointBegun_checkpointOpened hj hfree _)

theorem exec_checkpoint_due {s : State} {group : Group} (hdue : (groupOf s group.val).checkpointDue = true)
    (hawake : groupAwake s group.val = true) :
    exec (.checkpoint group) s = .next (startCheckpoint s group.val false) :=
  congrArg Host.Outcome.next (if_pos (by rw [hdue, hawake]; decide))

theorem exec_checkpoint_idle {s : State} {group : Group}
    (h : (groupOf s group.val).checkpointDue = false ∨ (groupOf s group.val).checkpoint.isSome = true ∨
      groupAwake s group.val = false) : exec (.checkpoint group) s = .next s := by
  show execCheckpoint group s = _
  unfold execCheckpoint
  obtain hdue | hrunning | hasleep := h
  · rw [hdue, if_neg (by simp)]
  · have hstart : startCheckpoint s group.val false = s := if_pos (.inl hrunning)
    rw [hstart, ite_self]
  · rw [hasleep, if_neg (by simp)]

theorem checkpoint_of_room {s : State} {group : Group} {j : Nat} {rest : List Nat}
    (hdue : (groupOf s group.val).checkpointDue = true) (hnone : (groupOf s group.val).checkpoint = none)
    (hfreed : (groupOf s group.val).free ++ staleJournals (groupOf s group.val) = j :: rest)
    (hroom : journalRoom s group.val 2 = true) (hawake : groupAwake s group.val = true)
    (hstale : (groupOf s group.val).staleRecord = none) (hsound : ∀ w ∈ waitingWords s group.val, isPoisoned w = false) :
    ∃ t, exec (.checkpoint group) s = .next t ∧ Frame [.sys, .folio, .groups, .queues, .perf, .path, .stats] s t ∧
      CheckpointBegun ((groupOf s group.val).generation + 1) j rest (groupOf t group.val) :=
  ⟨_, exec_checkpoint_due hdue hawake, startCheckpoint_frame s _ false,
    checkpointBegun_startCheckpoint hnone hfreed hroom hstale hsound⟩

end Sys2Proof.Machine
end

section
/-! The header of a checkpoint and its completion (R366, R367 steps 3 and 4). -/
namespace Sys2Proof.Machine

/-! ### The statistics that a program counts ([2916]) -/

/-- Every statistic of the index reads as before. -/
def IndexStatsKept (idx : Nat) (s t : State) : Prop :=
  ∀ sub, sub < 256 → stat t idx sub = stat s idx sub

theorem IndexStatsKept.trans {idx : Nat} {s t r : State} (h : IndexStatsKept idx s t) (k : IndexStatsKept idx t r) :
    IndexStatsKept idx s r :=
  fun sub hsub => (k sub hsub).trans (h sub hsub)

theorem Frame.indexStatsKept {U : List UnitName} {s t : State} (h : Frame U s t) (hu : .stats ∉ U) (idx : Nat) :
    IndexStatsKept idx s t :=
  fun sub _ => h.stat hu idx sub

/-- A program counts in [2916] alone, at the channels of its group. -/
theorem storeColumns_indexStatsKept {idx g : Nat} (hidx : idx ≠ 0x2916) (hg : g < 8) {cols : List Nat} (hcols : ∀ c ∈ cols, c < 8)
    (s : State) (addrs : List Nat) (code : List Byte) : IndexStatsKept idx s (storeColumns s g addrs code cols) := by
  have hcolumn (x : State) (c : Nat) (hc : c < 8) : IndexStatsKept idx x (columnStored g addrs code x c) := by
    intro sub hsub
    unfold columnStored
    rw [stat_bump, if_neg (by unfold objKey; omega), (storePatch_frame _ _ _ _).stat (by decide)]
  rw [storeColumns_eq_foldl]
  refine IndexStatsKept.trans ?_ ((countProgram_frame _ g).indexStatsKept (by decide) idx)
  exact List.foldlRecOn (motive := fun x => IndexStatsKept idx s x) cols _ (fun _ _ => rfl) fun x hx c hc =>
    hx.trans (hcolumn x c (hcols c hc))

theorem programAt_indexStatsKept {idx : Nat} (hidx : idx ≠ 0x2916) {pl : Place} (hg : pl.group < 8) (s : State)
    (code : List Byte) : IndexStatsKept idx s (programAt s pl code) := by
  unfold programAt
  split
  · exact fun _ _ => rfl
  · exact (storeColumns_indexStatsKept hidx hg (fun c hc => List.mem_range.mp (List.mem_filter.mp hc).1) _ _ _).trans
      (((filterMark_frame _ _ _ _).indexStatsKept (by decide) idx).trans ((modGroup_frame _ _ _).indexStatsKept (by decide) idx))

/-! ### The anchor tiles (R64, R366) -/

/-- Where an anchor tile lies. -/
def anchorPlace (g a : Nat) : Place :=
  { group := g, slot := none, addrs := List.replicate 8 a, filter := (0x7FFF, a % 1048576) }

theorem programAnchor_eq (s : State) (g gen i : Nat) (payload : List Byte) :
    programAnchor s g gen i payload = programAt s (anchorPlace g (anchorBase gen + i))
      (goodCode s (.anchor g (anchorBase gen + i)) payload zeroMac (gen % 2 ^ 24)) := rfl

theorem anchorBase_lt (gen : Nat) : anchorBase gen < 2 ^ 35 := by
  unfold anchorBase
  omega

/-- The header of an anchor slot stands in the medium on every column that is not erased. -/
theorem medium_programAnchor_header {s : State} {g : Nat} (hfence : (groupOf s g).fenced = false) (gen : Nat) (payload : List Byte)
    {c : Nat} (hc : c < 8) (hcol : c ∉ erasedColumns s g none) :
    tabGet dPatch (programAnchor s g gen 0 payload).path.medium (patchKey (8 * g + c) (anchorBase gen)) =
      patchOfSymbols (goodCode s (.anchor g (anchorBase gen)) payload zeroMac (gen % 2 ^ 24)) c := by
  have hplace : placeFenced s (anchorPlace g (anchorBase gen)) = false := by
    unfold placeFenced anchorPlace
    rw [hfence]
    rfl
  have haddr {d : Nat} (hd : d < 8) : (anchorPlace g (anchorBase gen)).addrs.getD d 0 = anchorBase gen :=
    List.getD_replicate _ hd
  have hgroup : (8 * g + c) / 8 = g := by omega
  have hcolumn : (8 * g + c) % 8 = c := by omega
  rw [programAnchor_eq, Nat.add_zero,
    medium_programAt hplace (fun d hd => by rw [haddr hd]; exact anchorBase_lt gen) _ (anchorBase_lt gen), hcolumn, hgroup,
    haddr hc, if_pos ⟨rfl, rfl, hcol⟩]

/-! ### Header and completion (R367) -/

theorem checkpointHeaderWrite_of_open {s : State} {group : Group} {c : CheckRec} (h : (groupOf s group.val).checkpoint = some c) :
    ∃ t, exec (.checkpointHeaderWrite group) s = .next t ∧ Frame [.groups] s t ∧ GroupsKept group.val s t ∧
      groupOf t group.val = { groupOf s group.val with checkpoint := some { c with headerOut := true } } := by
  refine ⟨_, rfl, modGroup_frame _ _ _, fun q hq => ?_, ?_⟩
  · rw [groupOf_modGroup, if_neg hq]
  · rw [groupOf_modGroup_self, h]
    rfl

/-- The generation of a checkpoint is the group's, and a closing one closes it. -/
def generationDone (c : CheckRec) (x : GroupRec) : GroupRec :=
  { x with generation := c.gen, checkpoint := none, closed := x.closed || c.closing }

theorem completeCheckpoint_of_header {s : State} {g : Nat} {c : CheckRec} (h : (groupOf s g).checkpoint = some c)
    (hout : c.headerOut = true) :
    completeCheckpoint s g =
      bump (modGroup (programAnchor s g c.gen 0 c.header) g (generationDone c)) 0x2F12 (g + 1) 1 := by
  unfold completeCheckpoint
  rw [h]
  exact if_pos hout

theorem completeCheckpoint_sys {s : State} {g : Nat} {c : CheckRec} (h : (groupOf s g).checkpoint = some c)
    (hout : c.headerOut = true) (hdev : s.sys.dev ≠ .varnish) : (completeCheckpoint s g).sys = s.sys := by
  rw [completeCheckpoint_of_header h hout]
  exact programAt_sys hdev _ _

theorem statBits_generations {g : Nat} (hg : g < 8) : statBits 0x2F12 (g + 1) = 32 := by
  interval_cases g <;> decide +kernel

theorem stat_completeCheckpoint {s : State} {g : Nat} (hg : g < 8) {c : CheckRec} (h : (groupOf s g).checkpoint = some c)
    (hout : c.headerOut = true) : stat (completeCheckpoint s g) 0x2F12 (g + 1) = (stat s 0x2F12 (g + 1) + 1) % 2 ^ 32 := by
  have hprogram : IndexStatsKept 0x2F12 s (programAnchor s g c.gen 0 c.header) :=
    programAt_indexStatsKept (pl := anchorPlace g _) (by decide) hg s _
  rw [completeCheckpoint_of_header h hout, stat_bump, if_pos rfl, statBits_generations hg, (modGroup_frame _ _ _).stat (by decide),
    hprogram _ (by omega)]
  norm_num

theorem GroupsNoted.closed {s t : State} (h : GroupsNoted s t) (g : Nat) : (groupOf t g).closed = (groupOf s g).closed := by
  rw [h g]

/-- The generation is complete, and its header stands in the anchor slot. -/
theorem checkpointComplete_of_header {s : State} {group : Group} {c : CheckRec} (h : (groupOf s group.val).checkpoint = some c)
    (hout : c.headerOut = true) (hdev : s.sys.dev ≠ .varnish) (hfence : (groupOf s group.val).fenced = false) :
    ∃ t, exec (.checkpointComplete group) s = .next t ∧ Frame [.sys, .folio, .groups, .path, .stats] s t ∧
      (groupOf t group.val).generation = c.gen ∧ (groupOf t group.val).checkpoint = none ∧
      (groupOf t group.val).closed = ((groupOf s group.val).closed || c.closing) ∧
      stat t 0x2F12 (group.val + 1) = (stat s 0x2F12 (group.val + 1) + 1) % 2 ^ 32 ∧
      ∀ k, k < 8 → k ∉ erasedColumns s group.val none →
        tabGet dPatch t.path.medium (patchKey (8 * group.val + k) (anchorBase c.gen)) =
          patchOfSymbols (goodCode s (.anchor group.val (anchorBase c.gen)) c.header zeroMac (c.gen % 2 ^ 24)) k := by
  have hsys : (completeCheckpoint s group.val).sys.dev ≠ .varnish := by rwa [completeCheckpoint_sys h hout hdev]
  have hgroup : groupOf (completeCheckpoint s group.val) group.val =
      generationDone c (groupOf (programAnchor s group.val c.gen 0 c.header) group.val) := by
    rw [completeCheckpoint_of_header h hout, (bump_frame _ _ _ _).groupOf (by decide), groupOf_modGroup_self]
  have hclosed := (programAnchor_groupsNoted s group.val c.gen 0 c.header).closed group.val
  refine ⟨_, congrArg Host.Outcome.next (varnishAdvance_of_not_varnish hsys 5), completeCheckpoint_frame s group.val, ?_, ?_, ?_,
    stat_completeCheckpoint group.isLt h hout, fun k hk hcol => ?_⟩
  · rw [hgroup]
    rfl
  · rw [hgroup]
    rfl
  · rw [hgroup, ← hclosed]
    rfl
  · rw [completeCheckpoint_of_header h hout, (bump_frame _ _ _ _).path_eq (by decide), (modGroup_frame _ _ _).path_eq (by decide),
      medium_programAnchor_header hfence _ _ hk hcol]

theorem exec_checkpointComplete_idle {s : State} {group : Group} {c : CheckRec} (hdev : s.sys.dev ≠ .varnish)
    (h : (groupOf s group.val).checkpoint = none ∨ ((groupOf s group.val).checkpoint = some c ∧ c.headerOut = false)) :
    exec (.checkpointComplete group) s = .next s := by
  have hstays : completeCheckpoint s group.val = s := by
    unfold completeCheckpoint
    obtain hnone | ⟨hsome, hout⟩ := h
    · rw [hnone]
    · rw [hsome]
      exact if_neg (by rw [hout]; decide)
  show Host.Outcome.next (varnishAdvance 5 (completeCheckpoint s group.val)) = _
  rw [hstays, varnishAdvance_of_not_varnish hdev]

theorem exec_checkpointWindow (s : State) (group : Group) :
    exec (.checkpointWindow group) s = .next (checkpointCalled s group.val) := rfl

end Sys2Proof.Machine
end

section
/-! The rebuild of a stale column (R467, R468, R469): the next region, its items one by one, and the last of them. -/
namespace Sys2Proof.Machine

/-- The item of a region that the rebuild comes to next. -/
def rebuildSet (s : State) (g p slot : Nat) : State :=
  modGroup s g (fun x => { x with rebuild := some (p, slot) })

theorem rebuildSet_frame (s : State) (g p slot : Nat) : Frame [.groups] s (rebuildSet s g p slot) := modGroup_frame _ _ _

theorem groupOf_rebuildSet (s : State) (g p slot : Nat) :
    groupOf (rebuildSet s g p slot) g = { groupOf s g with rebuild := some (p, slot) } :=
  groupOf_modGroup_self _ _ _

/-! ### The next region (R468) -/

/-- The rebuild has taken a region, and its time runs. -/
def rebuildBegun (s : State) (g p : Nat) : State :=
  modGroup s g (fun x => { x with rebuild := some (p, 0), rebuildAt := some (x.rebuildAt.getD s.sys.time) })

theorem exec_rebuildRegion {s : State} {group : Group} {c p : Nat} {rest : List Nat} (hruns : engineRuns s group.val = true)
    (hidle : (groupOf s group.val).rebuild = none) (hdeep : (groupOf s group.val).deepReads = [])
    (hheld : settingB s 0x3300 0x0A = false) (hurgent : ∀ q ∈ visitedRegions s group.val, urgentRegion s group.val q = false)
    (hcolumn : serviceableStale s group.val = some c) (hregions : rebuildRegions s group.val = p :: rest) :
    exec (.rebuildRegion group) s = .next (rebuildBegun s group.val p) := by
  have hany : (visitedRegions s group.val).any (urgentRegion s group.val) = false :=
    List.any_eq_false.mpr fun q hq => by simp [hurgent q hq]
  show execRebuildRegion group s = _
  unfold execRebuildRegion
  dsimp only
  rw [if_neg (by simp [hruns, hidle, hdeep, hheld, hany]), hcolumn]
  dsimp only
  rw [hregions]
  rfl

theorem rebuildRegion_begins {s : State} {group : Group} {c p : Nat} {rest : List Nat} (hruns : engineRuns s group.val = true)
    (hidle : (groupOf s group.val).rebuild = none) (hdeep : (groupOf s group.val).deepReads = [])
    (hheld : settingB s 0x3300 0x0A = false) (hurgent : ∀ q ∈ visitedRegions s group.val, urgentRegion s group.val q = false)
    (hcolumn : serviceableStale s group.val = some c) (hregions : rebuildRegions s group.val = p :: rest) :
    ∃ t, exec (.rebuildRegion group) s = .next t ∧ Frame [.groups] s t ∧ (groupOf t group.val).rebuild = some (p, 0) ∧
      (∀ q, regionOf t group.val q = regionOf s group.val q) ∧
      (groupOf t group.val).rebuildAt = some ((groupOf s group.val).rebuildAt.getD s.sys.time) := by
  refine ⟨_, exec_rebuildRegion hruns hidle hdeep hheld hurgent hcolumn hregions, modGroup_frame _ _ _, ?_, fun q => ?_, ?_⟩
  · unfold rebuildBegun
    rw [groupOf_modGroup_self]
  · unfold rebuildBegun regionOf
    rw [groupOf_modGroup_self]
  · unfold rebuildBegun
    rw [groupOf_modGroup_self]

theorem exec_rebuildRegion_idle {s : State} {group : Group}
    (h : engineRuns s group.val = false ∨ (groupOf s group.val).rebuild.isSome = true ∨ settingB s 0x3300 0x0A = true) :
    exec (.rebuildRegion group) s = .next s := by
  show execRebuildRegion group s = _
  unfold execRebuildRegion
  dsimp only
  rw [if_pos (by tauto)]

/-! ### The stale column of a tile (R468 step 1) -/

/-- One column of a tile has its patch of the corrected codeword again. -/
def columnRebuilt (s : State) (g c : Nat) (pl : Place) (code : List Byte) : State :=
  filterMark (storeColumns s g pl.addrs code [c]) g pl.filter.1 pl.filter.2

theorem columnRebuilt_frame (s : State) (g c : Nat) (pl : Place) (code : List Byte) :
    Frame [.sys, .folio, .groups, .path, .stats] s (columnRebuilt s g c pl code) :=
  Frame.step (filterMark_frame _ _ _ _) (storeColumns_frame s _ _ _ _) rfl

theorem medium_columnRebuilt (s : State) (g c : Nat) {pl : Place} (haddr : pl.addrs.getD c 0 < 2 ^ 35) (code : List Byte)
    {ch a : Nat} (ha : a < 2 ^ 35) :
    tabGet dPatch (columnRebuilt s g c pl code).path.medium (patchKey ch a) =
      if ch = 8 * g + c ∧ a = pl.addrs.getD c 0 then patchOfSymbols code c else tabGet dPatch s.path.medium (patchKey ch a) := by
  unfold columnRebuilt
  rw [(filterMark_frame _ _ _ _).path_eq (by decide), storeColumns_eq_foldl, countProgram_path, List.foldl_cons, List.foldl_nil,
    medium_columnStored]
  refine if_congr ⟨patchKey_inj ha haddr, ?_⟩ rfl rfl
  rintro ⟨rfl, rfl⟩
  rfl

theorem rebuildPatch_of_programmed (s : State) (g p slot c : Nat) (pl : Place) (code : List Byte) (fails : Nat) :
    rebuildPatch s g p slot c pl code false fails = columnRebuilt s g c pl code := by
  unfold rebuildPatch
  dsimp only
  rw [if_neg (by simp)]
  rfl

theorem rebuildTile_of_good {s : State} {x : TileId} {pl : Place} {errs : List Codeword} {content : List Byte}
    {errors : List Nat} (h : (engineRead s x pl errs).2.1 = .good content errors) (g p slot c : Nat) (deep : List Codeword)
    (fails : Nat) :
    rebuildTile s g p slot c x pl errs deep false fails =
      columnRebuilt (engineRead s x pl errs).1 g c pl (rsEncode content) := by
  unfold rebuildTile
  dsimp only
  rw [correctedCode_of_good h]
  dsimp only
  rw [rebuildPatch_of_programmed]

/-! ### The items of a region (R468, R469) -/

/-- The rebuild of a group stands at an item of a region whose slot nothing else holds. -/
structure RebuildRuns (s : State) (g p slot c : Nat) : Prop where
  item : (groupOf s g).rebuild = some (p, slot)
  column : serviceableStale s g = some c
  runs : engineRuns s g = true
  held : slotHeld s g p slot = false
  fence : regionFenced s g p = false
  ready : remapReady s (placeSlot s g p slot) = true

theorem exec_rebuildSequence_idle {s : State} {group : Group} (errs deep : List Codeword) (failed : Option (Fin 8))
    (h : (groupOf s group.val).rebuild = none ∨ serviceableStale s group.val = none ∨ engineRuns s group.val = false) :
    exec (.rebuildSequence group errs deep failed) s = .next s := by
  show execRebuildSequence group errs deep failed s = _
  unfold execRebuildSequence
  dsimp only
  split
  case h_1 p slot c hitem hcolumn =>
    obtain hnone | hnone | hruns := h
    · exact absurd (hnone.symm.trans hitem) (by simp)
    · exact absurd (hnone.symm.trans hcolumn) (by simp)
    · exact if_pos (.inl hruns)
  case h_2 => rfl

section
variable {s : State} {group : Group} {p slot c : Nat} (h : RebuildRuns s group.val p slot c) {x : TileId}
  (hslot : slot < 1048577) (htile : tileAt s group.val p slot = some x) (hflight : tileInFlight s x = false)
  (hunit : unitInRegion s x = false) (hroom : journalRoom s group.val 1 = true)
  (hauth : tileDirty s x = true ∨ authReady s x = true) {errs : List Codeword} {content : List Byte} {errors : List Nat}
  (hgood : (engineRead s x (placeSlot s group.val p slot) errs).2.1 = .good content errors) (deep : List Codeword)
include h hslot htile hflight hunit hroom hauth hgood

theorem RebuildRuns.exec_tile :
    exec (.rebuildSequence group errs deep none) s = .next (rebuildSet
      (columnRebuilt (engineRead s x (placeSlot s group.val p slot) errs).1 group.val c (placeSlot s group.val p slot)
        (rsEncode content)) group.val p (slot + 1)) := by
  obtain ⟨hitem, hcolumn, hruns, hheld, hfence, hready⟩ := h
  have hauth' : (!tileDirty s x && !authReady s x) = false := by
    obtain hdirty | hauth := hauth
    · rw [hdirty, Bool.not_true, Bool.false_and]
    · rw [hauth, Bool.not_true, Bool.and_false]
  have hlast : slot + 1 < (if (regionOf s group.val p).hr = true then 1048597 else 1048581) := by split <;> omega
  show execRebuildSequence group errs deep none s = _
  unfold execRebuildSequence
  dsimp only
  rw [hitem, hcolumn]
  dsimp only
  rw [if_neg (show ¬ 1048581 ≤ slot by omega), htile]
  dsimp only
  rw [if_neg (by simp [hruns, hheld, hflight, hunit, hroom, hfence]), if_neg (by simp [hready]),
    if_neg (by simp [hauth']), if_pos hlast, if_neg (by omega), if_neg (by omega)]
  dsimp only
  rw [Option.isSome_none, rebuildTile_of_good hgood]
  rfl

/-- The stale column of a tile that reads well has its patch of the corrected codeword, and the rebuild comes to the next item. -/
theorem RebuildRuns.rebuildSequence_tile (haddr : (placeSlot s group.val p slot).addrs.getD c 0 < 2 ^ 35) :
    ∃ t, exec (.rebuildSequence group errs deep none) s = .next t ∧
      Frame [.sys, .mgmt, .folio, .ledger, .channels, .groups, .perf, .path, .stats, .out] s t ∧
      (groupOf t group.val).rebuild = some (p, slot + 1) ∧
      ∀ ch a, a < 2 ^ 35 → tabGet dPatch t.path.medium (patchKey ch a) =
        if ch = 8 * group.val + c ∧ a = (placeSlot s group.val p slot).addrs.getD c 0 then patchOfSymbols (rsEncode content) c
        else tabGet dPatch s.path.medium (patchKey ch a) := by
  have hread := engineRead_frame s x (placeSlot s group.val p slot) errs
  have hrebuilt := columnRebuilt_frame (engineRead s x (placeSlot s group.val p slot) errs).1 group.val c
    (placeSlot s group.val p slot) (rsEncode content)
  refine ⟨_, h.exec_tile hslot htile hflight hunit hroom hauth hgood deep, Frame.step (rebuildSet_frame _ _ _ _)
    (Frame.step hrebuilt (hread.mono rfl) rfl) rfl, ?_, fun ch a ha => ?_⟩
  · rw [groupOf_rebuildSet]
  · rw [(rebuildSet_frame _ _ _ _).path_eq (by decide), medium_columnRebuilt _ _ _ haddr _ ha, hread.path_eq (by decide)]

end

/-- The RB mark of a region is cleared, and the rebuild holds no region. -/
def regionRebuilt (s : State) (g p : Nat) : State :=
  modGroup (modRegion s g p (fun r => { r with rb := false })) g (fun x => { x with rebuild := none })

theorem regionRebuilt_frame (s : State) (g p : Nat) : Frame [.groups] s (regionRebuilt s g p) :=
  Frame.step (modGroup_frame _ _ _) (modRegion_frame s g p _) rfl

theorem groupOf_regionRebuilt (s : State) (g p : Nat) :
    (groupOf (regionRebuilt s g p) g).rebuild = none ∧ (regionOf (regionRebuilt s g p) g p).rb = false := by
  have hrb := regionOf_modRegion s g p (fun r => { r with rb := false }) p
  unfold regionRebuilt
  refine ⟨by rw [groupOf_modGroup_self], ?_⟩
  unfold regionOf at *
  rw [groupOf_modGroup_self, hrb, if_pos rfl]

/-- The end of the rebuild leaves the group without a region in rebuild, and the marks of its regions. -/
theorem groupOf_rebuildCheck {s : State} {g : Nat} (h : (groupOf s g).rebuild = none) :
    (groupOf (rebuildCheck s g) g).rebuild = none ∧ (groupOf (rebuildCheck s g) g).regions = (groupOf s g).regions := by
  unfold rebuildCheck
  split
  · split
    · unfold rebuildDone
      dsimp only
      rw [(tallyAdd_frame _ _).groupOf (by decide), (raise_frame _ _ _).groupOf (by decide), groupOf_modGroup_self]
      exact ⟨rfl, rfl⟩
    · exact ⟨h, rfl⟩
  · exact ⟨h, rfl⟩

theorem RebuildRuns.exec_last {s : State} {group : Group} {p slot c : Nat} (h : RebuildRuns s group.val p slot c)
    {failed : Option (Fin 8)} (hroom : journalRoom s group.val (1 + failed.elim 0 (·.val)) = true) (hslot : slot = 1048580)
    (htile : tileAt s group.val p slot = none) (hhr : (regionOf s group.val p).hr = false) (errs deep : List Codeword) :
    exec (.rebuildSequence group errs deep failed) s =
      .next (rebuildCheck (regionRebuilt (rebuildSwatch s group.val p slot c) group.val p) group.val) := by
  obtain ⟨hitem, hcolumn, hruns, hheld, hfence, hready⟩ := h
  show execRebuildSequence group errs deep failed s = _
  unfold execRebuildSequence
  dsimp only
  rw [hitem, hcolumn]
  dsimp only
  rw [if_neg (show ¬ 1048581 ≤ slot by omega), htile, hhr]
  dsimp only
  rw [if_neg (by simp [hruns, hheld, hroom, hfence]), if_neg (by simp [hready]), if_neg (by simp), if_neg (by simp; omega),
    if_pos (by omega)]
  rfl

/-- The last item of a region clears its RB mark. -/
theorem RebuildRuns.rebuildSequence_last {s : State} {group : Group} {p slot c : Nat} (h : RebuildRuns s group.val p slot c)
    {failed : Option (Fin 8)} (hroom : journalRoom s group.val (1 + failed.elim 0 (·.val)) = true) (hslot : slot = 1048580)
    (htile : tileAt s group.val p slot = none) (hhr : (regionOf s group.val p).hr = false) (errs deep : List Codeword) :
    ∃ t, exec (.rebuildSequence group errs deep failed) s = .next t ∧
      Frame [.sys, .mgmt, .folio, .ledger, .groups, .path, .stats, .out] s t ∧
      (groupOf t group.val).rebuild = none ∧ (regionOf t group.val p).rb = false := by
  obtain ⟨hrebuild, hrb⟩ := groupOf_regionRebuilt (rebuildSwatch s group.val p slot c) group.val p
  obtain ⟨hnone, hregions⟩ := groupOf_rebuildCheck hrebuild
  refine ⟨_, h.exec_last hroom hslot htile hhr errs deep, Frame.step (rebuildCheck_frame _ _) (Frame.step (regionRebuilt_frame _ _ _)
    ((rebuildSwatch_frame s _ p slot c).mono rfl) rfl) rfl, hnone, ?_⟩
  unfold regionOf at *
  rw [hregions, hrb]

end Sys2Proof.Machine
end

section
/-! Journal, checkpoints and rebuild (O42): the clauses of the obligation from the lemmas of its commands. -/
namespace Sys2Proof.Machine

/-- Settles O42, command by command: the tiles of the journal and their completion, the checkpoint from its call to its header, and the
rebuild of a stale column. -/
theorem journalAndCheckpoints : Obligations.JournalAndCheckpoints := by
  refine fun group => ⟨fun j w q qs => ⟨?_, ?_, ?_⟩, fun s h => ?_, fun tile rest haddr => ?_, fun s h => ?_, fun s _ => ?_, ?_,
    fun s h => ?_, fun c => ⟨?_, ?_, fun s h => ?_⟩, fun c p rest => ?_, fun s h => ?_,
    fun errs deep failed p slot c => ⟨fun k content errors hslot => ?_, ?_⟩, fun errs deep failed s h => ?_⟩
  · rintro s ⟨hawake, hj, hstale, hwaiting, hsound⟩
    obtain ⟨t, hexec, hframe, ws, hwords, hne, hissued, htaken⟩ := journalTileWrite_of_words hawake hj hstale hwaiting hsound
    exact ⟨t, hexec, hframe, ws, hwords.first, hne, hwords.few, hwords.sound, hwords.ends, hissued, htaken⟩
  · rintro s ⟨hawake, hj, hstale⟩
    exact journalTileWrite_of_stale hawake hj hstale
  · rintro s ⟨hawake, hstale, hwaiting, hbad, hdue⟩
    exact journalTileWrite_of_poisoned hawake hstale hwaiting hbad hdue
  · exact ⟨s, exec_journalTileWrite_idle h, .refl _ s, trivial⟩
  · rintro s ⟨hout, hdev⟩
    obtain ⟨t, hexec, hframe, hrest, hhold, hmark, hleft, hmedium⟩ := journalTileComplete_of_tile haddr hout hdev
    exact ⟨t, hexec, hframe, hrest, hhold, hmark, hleft, fun ch a _ ha => hmedium ch a ha⟩
  · exact ⟨s, exec_journalTileComplete_idle h.1 h.2, .refl _ s, trivial⟩
  · exact ⟨_, exec_checkpointWindow s group, checkpointCalled_frame s group.val,
      fun p hp => by unfold checkpointCalled; rw [groupOf_modGroup, if_neg hp], groupOf_checkpointCalled s group.val⟩
  · dsimp only
    rintro s ⟨hdue, hnone, hfreed, hroom, hawake, hstale, hsound⟩
    obtain ⟨j, rest, hlist⟩ := List.exists_cons_of_ne_nil hfreed
    obtain ⟨t, hexec, hframe, ⟨header, hopen⟩, hdone, hslot, hregion, hfree⟩ :=
      checkpoint_of_room hdue hnone hlist hroom hawake hstale hsound
    refine ⟨t, hexec, hframe, ⟨_, hopen, rfl, rfl, rfl⟩, hdone, hslot, ?_, ?_⟩
    · rw [hregion, hlist]
      rfl
    · rw [hfree, hlist]
      rfl
  · exact ⟨s, exec_checkpoint_idle h, .refl _ s, trivial⟩
  · exact fun s h => checkpointHeaderWrite_of_open h
  · rintro s ⟨hopen, hout, hdev, hfence⟩
    exact checkpointComplete_of_header hopen hout hdev hfence
  · exact ⟨s, exec_checkpointComplete_idle h.1 h.2, .refl _ s, trivial⟩
  · rintro s ⟨hruns, hidle, hdeep, hheld, hurgent, hcolumn, hregions⟩
    exact rebuildRegion_begins hruns hidle hdeep hheld hurgent hcolumn hregions
  · exact ⟨s, exec_rebuildRegion_idle h, .refl _ s, trivial⟩
  · dsimp only
    rintro s ⟨⟨hitem, hcolumn, hruns, hheld, hfence, hready⟩, htile, hflight, hunit, hroom, hauth, hgood, haddr, _⟩
    have h : RebuildRuns s group.val p slot c := ⟨hitem, hcolumn, hruns, hheld, hfence, hready⟩
    obtain ⟨t, hexec, hframe, hnext, hmedium⟩ := h.rebuildSequence_tile hslot htile hflight hunit hroom hauth hgood deep haddr
    exact ⟨t, hexec, hframe, hnext, fun ch a _ ha => hmedium ch a ha⟩
  · rintro s ⟨⟨hitem, hcolumn, hruns, hheld, hfence, hready⟩, hroom, hslot, htile, hhr⟩
    have h : RebuildRuns s group.val p slot c := ⟨hitem, hcolumn, hruns, hheld, hfence, hready⟩
    exact h.rebuildSequence_last hroom hslot htile hhr errs deep
  · exact ⟨s, exec_rebuildSequence_idle errs deep failed h, .refl _ s, trivial⟩

end Sys2Proof.Machine
end

section
/-! Scrubs (O34): the mirror tag word that a scrub makes good is an uncorrectable one met, so its row is nominated (R103, R105). -/
namespace Sys2Proof.Machine

/-- A state with nothing in the Easel but a bad mirror tag word: that of way 0 of bank 32, row 0, which stands in bank 0, row 0. -/
def badMirror : State :=
  { easel := { mirrorBad := [(512, true)] } }

theorem scrub_badMirror_nominates : ∃ t, exec (.easelScrub 0 0 .none) badMirror = .next t ∧ t.easel.rowsDue = [0] :=
  ⟨_, rfl, by decide +kernel⟩

/-- Refutes O34 in its first clause: a scrub that finds nothing in its ways still makes good the mirror tag words of its row, and a
mirror made good nominates its row (R103, R105), so the list of nominated rows grows. -/
theorem not_easelRepair : ¬ Obligations.EaselRepair := by
  rintro ⟨hscrub, -⟩
  obtain ⟨hclean, -⟩ := hscrub 0 0
  obtain ⟨t, hexec, -, -, -, -, hdue⟩ := hclean badMirror trivial
  obtain ⟨t', hexec', hdue'⟩ := scrub_badMirror_nominates
  obtain rfl : t' = t := Host.Outcome.next.inj (hexec'.symm.trans hexec)
  exact List.cons_ne_nil _ _ (hdue'.symm.trans hdue)

end Sys2Proof.Machine
end

section
/-! Media commands (O45): an injection is a write, and a write tries again every partial write that waits for a merge entry (R96). The
statement says of every state that the mailbox counts one command, and nothing in `State` bounds the port that such a write names. -/
namespace Sys2Proof.Machine

/-- No port has this number: the count of the writes that it holds, [2413.n+1], falls on the object [2B20.0B]. -/
def strayPort : Nat := objKey 0x2B20 0x0B - objKey 0x2413 1

/-- `freedMergeEntry` with poison injection enabled. Port 0 holds a write of line 65, and behind it stands the partial write of that
line that waits for a merge entry, which names `strayPort`. -/
def strayMergeWait : State :=
  { freedMergeEntry with
    settings := [(objKey 0x2B00 2, 1), (objKey 0x2B30 4, 0), (objKey 0x3200 3, 0)]
    ports := [(0, { link := 3, held := [{ writeOfLine64 with line := 65 }] })]
    easel := { freedMergeEntry.easel with
      mergeWait := [{ line := 65, who := .host strayPort 7, port := strayPort, mask := 1#64, data := 0xFF#512, seq := 1 }] } }

/-- The state meets the hypotheses of the injection clause of O45. -/
theorem strayMergeWait_open :
    (linkUp strayMergeWait 0 = true ∧ strayMergeWait.sys.memoryActive = true) ∧ settingB strayMergeWait 0x2B00 2 = true ∧
      lineAllowed strayMergeWait 0 64 = true := by
  decide +kernel

theorem strayMergeWait_uncounted : stat strayMergeWait 0x2B20 0x0B = 0 := by decide +kernel

/-- [2B20.0B] counts the command, and the hold of the write of `strayPort` with it. -/
theorem injection_counts_twice :
    ∃ t, exec (.injectPoison 0 64) strayMergeWait = .next t ∧ stat t 0x2B20 0x0B = 2 :=
  ⟨_, rfl, by decide +kernel⟩

/-- Refutes O45 in its injection clause: beside the injected write, a waiting partial write is tried again and held (R93, R96); its port
number is one that no port has, and the count of held writes that this number leads to is the port's count of mailbox commands. -/
theorem not_mediaCommands : ¬ Obligations.MediaCommands := by
  intro h
  obtain ⟨-, -, hinject, -⟩ := h 0 64 0 0
  obtain ⟨t, hexec, -, -, hcounted, -⟩ := hinject strayMergeWait strayMergeWait_open
  obtain ⟨t', hexec', htwice⟩ := injection_counts_twice
  obtain rfl : t' = t := Host.Outcome.next.inj (hexec'.symm.trans hexec)
  have hone : stat t' 0x2B20 0x0B = (stat strayMergeWait 0x2B20 0x0B + 1) % 2 ^ 64 := hcounted
  rw [htwice, strayMergeWait_uncounted] at hone
  exact absurd hone (by decide)

end Sys2Proof.Machine
end

section
/-! Fill-throughs (O48): the completion of a program also completes every write that waits for nothing more (R93), and the statement
counts in [2C00.06] over every state, where nothing in `State` bounds the port that such a write names. -/
namespace Sys2Proof.Machine

/-- The fill-through of line 64 by channel 0. -/
def fillOfLine64 : DestageRec :=
  { place := 1024, line := 64, version := 5, code := List.replicate 96 5, fill := some (.barrow 0 0 0) }

/-- Where line 64 lies in `strayAck`. -/
def placeOfLine64 : Place :=
  { group := 1, slot := some (0, 0), addrs := List.replicate 8 557056, filter := (0, 0) }

/-- A device in service whose fill-through of line 64 is in flight. The acknowledgement of a write of line 3, which waits for nothing
more, names a port that does not exist: the monitor of its writes, [2610+n.06], is the object [2C00.06]. -/
def strayAck : State :=
  { freedMergeEntry with
    easel := {
      lines := [(1024, { valid := true, dirty := true, flight := true, data := 0x1234567#512 })]
      flights := [fillOfLine64]
      acks := [{ line := 3, who := .host (0x2C00 - 0x2610) 0, arrival := 0 }] } }

/-- The state meets the hypotheses of the fill-through clause of O48. -/
theorem strayAck_inFlight :
    strayAck.easel.flights.find? (fun x => x.line == (64 : LineAddr).toNat && x.fill.isSome) = some fillOfLine64 ∧
      fillOfLine64.fill = some (.barrow 0 0 0) ∧ linePlace strayAck fillOfLine64.line = some placeOfLine64 ∧
      placeFenced strayAck placeOfLine64 = false ∧ (easelLine strayAck fillOfLine64.place).valid = true ∧
      (easelLine strayAck fillOfLine64.place).flight = true ∧
      (easelLine strayAck fillOfLine64.place).tag = easelTag fillOfLine64.line ∧
      (easelLine strayAck fillOfLine64.place).written = false ∧ (easelLine strayAck fillOfLine64.place).onDevice = false := by
  decide +kernel

theorem strayAck_uncounted : stat strayAck 0x2C00 6 = 0 := by decide +kernel

/-- [2C00.06] counts the beat's response, and the monitored write of the stray port with it. -/
theorem fillThrough_counts_twice :
    ∃ t, exec (.fillThroughComplete 64) strayAck = .next t ∧ stat t 0x2C00 6 = 2 :=
  ⟨_, rfl, by decide +kernel⟩

/-- Refutes O48 in its fill-through clause: with the fill-through completes a write that waited for nothing more (R93); its port number
is one that no port has, and the write count that this number leads to is Barrow's count of write responses. -/
theorem not_barrowStreams : ¬ Obligations.BarrowStreams := by
  rintro ⟨hfill, -⟩
  obtain ⟨hcomplete, -⟩ := hfill 64 fillOfLine64 placeOfLine64 0 0 0 (by decide) (by decide +kernel)
  obtain ⟨t, hexec, -, -, -, -, -, -, hcounted, -⟩ := hcomplete strayAck strayAck_inFlight
  obtain ⟨t', hexec', htwice⟩ := fillThrough_counts_twice
  obtain rfl : t' = t := Host.Outcome.next.inj (hexec'.symm.trans hexec)
  rw [htwice, strayAck_uncounted] at hcounted
  exact absurd hcounted (by decide)

end Sys2Proof.Machine
end

section
/-! Fields of a byte string: the number that stands between two parts, and a frame closed by its CRC (R440). -/
namespace Sys2Proof.Machine

@[simp] theorem length_leBytes (n v : Nat) : (leBytes n v).length = n := by
  induction n generalizing v with
  | zero => rfl
  | succ n ih => exact congrArg (· + 1) (ih _)

/-- The bytes between two parts. -/
theorem bytesAt_between (before field after : List Byte) :
    bytesAt (before ++ field ++ after) before.length field.length = field := by
  refine List.ext_getElem (by simp [bytesAt]) fun i hi _ => ?_
  have hlt : i < field.length := by simpa [bytesAt] using hi
  simp [bytesAt, List.getD_eq_getElem?_getD, List.getElem?_append, hlt]

/-- The number between two parts. -/
theorem numAt_between {bs before after : List Byte} {k n v : Nat} (hbs : bs = before ++ leBytes n v ++ after)
    (hk : before.length = k) (hv : v < 256 ^ n) : numAt bs k n = v := by
  have hfield := bytesAt_between before (leBytes n v) after
  rw [length_leBytes] at hfield
  unfold numAt
  rw [hbs, ← hk, hfield, ofLe_leBytes, Nat.mod_eq_of_lt hv]

theorem crc_lt (bs : List Byte) : (crc32c bs).toNat < 256 ^ 4 := (crc32c bs).isLt

theorem length_withCrc (bs : List Byte) : (withCrc bs).length = bs.length + 4 := by simp [withCrc]

theorem crcOk_withCrc (bs : List Byte) : crcOk (withCrc bs) = true := by
  have hcrc : numAt (withCrc bs) bs.length 4 = (crc32c bs).toNat :=
    numAt_between (after := []) (List.append_nil _).symm rfl (crc_lt bs)
  have htake : (withCrc bs).take bs.length = bs := List.take_left
  unfold crcOk
  simp [length_withCrc, hcrc, htake]

end Sys2Proof.Machine
end

section
/-! Object writes (O6): the effect of a write to a setting of its own (R424), the request that a frame or a tunnel payload carries
(R440, R442), and the answer of an I3C session (R441). -/
namespace Sys2Proof.Machine

/-! ### The effect (R424) -/

/-- The setting idx.sub of `t` is what `data` spells, and every other one is as in `s`. -/
def SettingWritten (idx sub : Nat) (data : List Byte) (s t : State) : Prop :=
  setting t idx sub = writtenNumber idx sub data ∧ SettingsKept idx sub s t

theorem settingWritten_of_settings {s t : State} {idx sub : Nat} {data : List Byte} (hsub : sub < 256)
    (h : t.settings = (setSetting s idx sub (writtenNumber idx sub data)).settings) : SettingWritten idx sub data s t :=
  ⟨setting_of_setSetting h, settingsKept_of_setSetting hsub h⟩

theorem writeEffect_of_plain {p : Nat × Nat} (hp : p ∈ plainSettings) (via : Via) (data : List Byte) (n : Nat) (s : State) :
    writeEffect via p.1 p.2 data n s = .ok (setSetting s p.1 p.2 (writtenNumber p.1 p.2 data)) := by
  fin_cases hp <;> rfl

theorem writeEffect_of_latched {p : Nat × Nat} (hp : p ∈ latchedSettings) (via : Via) (data : List Byte) (n : Nat) (s : State) :
    writeEffect via p.1 p.2 data n s = .ok (setSetting (keepForce s p.1 p.2) p.1 p.2 (writtenNumber p.1 p.2 data)) := by
  fin_cases hp <;> rfl

/-- What is kept in force stays in force whatever the setting becomes. -/
theorem forceN_setSetting_keepForce (s : State) (idx sub : Nat) (v : Int) :
    forceN (setSetting (keepForce s idx sub) idx sub v) idx sub = forceN s idx sub := by
  have hkept : tabGet (fun _ => none) (tabSet (fun _ => none) s.sys.inForce (256 * idx + sub) (some (forceN s idx sub)))
      (256 * idx + sub) = some (forceN s idx sub) := tabGet_set_self _ _ _
  exact congrArg (·.getD (settingN (setSetting (keepForce s idx sub) idx sub v) idx sub)) hkept

/-! ### The operands -/

theorem plainSettings_fit : ∀ p ∈ plainSettings, p.1 < 2 ^ 16 ∧ p.2 < 2 ^ 8 := by decide

theorem latchedSettings_fit : ∀ p ∈ latchedSettings, p.1 < 2 ^ 16 ∧ p.2 < 2 ^ 8 := by decide

theorem plainSettings_numeric : ∀ p ∈ plainSettings, (objRow? p.1 p.2).all (·.ty.isNum) = true := by decide +kernel

theorem length_le_of_lengthOk {ty : ObjType} (hnum : ty.isNum = true) {n : Nat} (h : ty.lengthOk n = true) : n ≤ 8 := by
  cases ty <;> simp_all [ObjType.isNum, ObjType.lengthOk, ObjType.width]

/-- A number is written in at most eight bytes. -/
theorem length_le_of_writeFits {p : Nat × Nat} (hp : p ∈ plainSettings) {level : Level} {data : List Byte}
    (h : writeFits level p.1 p.2 data = true) : data.length ≤ 8 := by
  have hnum := plainSettings_numeric p hp
  unfold writeFits at h
  split at h
  · rename_i r hr
    rw [hr] at hnum
    simp only [Bool.and_eq_true] at h
    obtain ⟨⟨⟨⟨-, hlength⟩, -⟩, -⟩, -⟩ := h
    exact length_le_of_lengthOk hnum hlength
  · exact absurd h (by decide)

theorem toNat_ofNat_of_lt {w v : Nat} (h : v < 2 ^ w) : (BitVec.ofNat w v).toNat = v := by
  rw [BitVec.toNat_ofNat, Nat.mod_eq_of_lt h]

/-! ### A request by its bytes (R440, R442) -/

/-- Operation 2 of R440, from the operation to the data. -/
def writeBody (idx sub : Nat) (data : List Byte) : List Byte :=
  [2] ++ leBytes 2 idx ++ leBytes 1 sub ++ leBytes 2 data.length ++ data

section
variable {idx sub : Nat} {data : List Byte} (hidx : idx < 2 ^ 16) (hsub : sub < 2 ^ 8) (hdata : data.length ≤ 8)
  (before after : List Byte)

theorem numAt_writeBody_operation : numAt (before ++ writeBody idx sub data ++ after) before.length 1 = 2 :=
  numAt_between (before := before) (v := 2) (after := leBytes 2 idx ++ leBytes 1 sub ++ leBytes 2 data.length ++ data ++ after)
    (by simp [writeBody, leBytes]) rfl (by decide)

include hidx in
theorem numAt_writeBody_index : numAt (before ++ writeBody idx sub data ++ after) (before.length + 1) 2 = idx :=
  numAt_between (before := before ++ [2]) (after := leBytes 1 sub ++ leBytes 2 data.length ++ data ++ after)
    (by simp [writeBody]) (by simp) hidx

include hsub in
theorem numAt_writeBody_subindex : numAt (before ++ writeBody idx sub data ++ after) (before.length + 3) 1 = sub :=
  numAt_between (before := before ++ [2] ++ leBytes 2 idx) (after := leBytes 2 data.length ++ data ++ after)
    (by simp [writeBody]) (by simp) hsub

include hdata in
theorem numAt_writeBody_length : numAt (before ++ writeBody idx sub data ++ after) (before.length + 4) 2 = data.length :=
  numAt_between (before := before ++ [2] ++ leBytes 2 idx ++ leBytes 1 sub) (after := data ++ after)
    (by simp [writeBody]) (by simp) (by omega)

theorem bytesAt_writeBody_data :
    bytesAt (before ++ writeBody idx sub data ++ after) (before.length + 6) data.length = data := by
  have hdata := bytesAt_between (before ++ [2] ++ leBytes 2 idx ++ leBytes 1 sub ++ leBytes 2 data.length) data after
  simpa [writeBody] using hdata

include hidx hsub hdata in
theorem dictionaryRequest_writeBody (s : State) (via : Via) (tag : Nat) :
    dictionaryRequest s via tag (before ++ writeBody idx sub data ++ after) before.length =
      serveTagged s via tag idx sub data (writeEffect via idx sub data) := by
  unfold dictionaryRequest
  simp only [numAt_writeBody_operation, numAt_writeBody_index hidx, numAt_writeBody_subindex hsub,
    numAt_writeBody_length hdata, bytesAt_writeBody_data]
  exact if_neg (by decide)
end

theorem length_writeBody (idx sub : Nat) (data : List Byte) : (writeBody idx sub data).length = 6 + data.length := by
  simp [writeBody]
  omega

/-! ### A request that is served, whatever its tag -/

theorem serveTagged_ready {s : State} {via : Via} {level : Level} {n : Nat} {s' t : State} (h : Ready s via level n s')
    {idx sub : Nat} {data : List Byte} (hw : writeFits level idx sub data = true) {eff : Nat → State → Except Nat State}
    (he : eff n s' = .ok t) (tag : Nat) : serveTagged s via tag idx sub data eff = accept t via n tag [] := by
  obtain ⟨r, hr, hstaged⟩ := writeChecks_ready h hw
  unfold serveTagged
  rw [if_pos h.isOpen, h.session]
  simp only [hr, hstaged, he, Bool.false_eq_true, if_false]

theorem sessionFor_settings {s s' : State} {via : Via} {n : Nat} (h : sessionFor s via = some (n, s')) :
    s'.settings = s.settings := by
  unfold sessionFor at h
  (repeat' split at h) <;> cases h <;> rfl

theorem accept_settings (s : State) (via : Via) (n tag : Nat) (data : List Byte) :
    (accept s via n tag data).settings = s.settings :=
  (accept_frame s via n tag data).settings_eq (by decide)

/-! ### The tunnel (R442) -/

section
variable {p : Nat × Nat} (hp : p ∈ plainSettings) {level : Level} {data : List Byte} (hw : writeFits level p.1 p.2 data = true)
  {s s' : State} {n : Nat}
include hp hw

theorem execDictionaryRequest_writeBody {port : Port} (h : Ready s (.mailbox port) level n s') :
    execDictionaryRequest port (writeBody p.1 p.2 data) s =
      .next (accept (setSetting s' p.1 p.2 (writtenNumber p.1 p.2 data)) (.mailbox port) n 0 []) := by
  obtain ⟨hidx, hsub⟩ := plainSettings_fit p hp
  have hdata := length_le_of_writeFits hp hw
  have hoperation := numAt_writeBody_operation (idx := p.1) (sub := p.2) (data := data) [] []
  have hlength := numAt_writeBody_length (idx := p.1) (sub := p.2) hdata [] []
  have hrequest := dictionaryRequest_writeBody hidx hsub hdata [] [] s (.mailbox port) 0
  simp only [List.nil_append, List.append_nil, List.length_nil, Nat.zero_add] at hoperation hlength hrequest
  unfold execDictionaryRequest
  dsimp only
  rw [if_neg (by simp [h.isOpen]), if_pos ⟨by rw [hlength, length_writeBody], .inr hoperation⟩, hrequest,
    serveTagged_ready h hw (writeEffect_of_plain hp _ _ _ _)]
end

/-! ### The I3C target (R441) -/

/-- The tag of request `seq` of session field `f` (R440). -/
def i3cTag (f : Fin 4) (seq : Fin 16) : Nat := 0x40 + 16 * f.val + seq.val

theorem i3cTag_lt (f : Fin 4) (seq : Fin 16) : i3cTag f seq < 256 := by
  unfold i3cTag
  omega

theorem sessionFor_i3c {s s' : State} {f : Fin 4} {n : Nat} (h : sessionFor s (.i3c f) = some (n, s')) : n = 12 + f.val := by
  unfold sessionFor at h
  dsimp only at h
  split at h <;> cases h <;> rfl

theorem sessionOf_of_sessions {x y : State} {n : Nat} {f : Session → Session}
    (h : y.mgmt.sessions = (modSession x n f).mgmt.sessions) : sessionOf y n = f (sessionOf x n) :=
  (congrArg (tabGet dSession · n) h).trans (sessionOf_modSession_self x n f)

theorem answer_i3c_response (s : State) (f : Fin 4) (n tag status abort detail : Nat) (data : List Byte) :
    (sessionOf (answer s (.i3c f) n tag status abort detail data) n).response = responseFrame tag status abort detail data := by
  unfold answer
  dsimp only
  split <;> exact congrArg Session.response
    (sessionOf_of_sessions (x := s) (f := fun x => { x with response := responseFrame tag status abort detail data }) rfl)

theorem accept_i3c_response (s : State) (f : Fin 4) (n tag : Nat) (data : List Byte) :
    (sessionOf (accept s (.i3c f) n tag data) n).response = responseFrame tag 0 0 0 data :=
  answer_i3c_response _ _ _ _ _ _ _ _

theorem status_responseFrame (tag : Nat) (data : List Byte) : numAt (responseFrame tag 0 0 0 data) 1 1 = 0 := by
  refine numAt_between (before := leBytes 1 tag) (after := leBytes 4 0 ++ leBytes 2 0 ++ leBytes 2 data.length ++ data ++
    leBytes 4 (crc32c (leBytes 1 tag ++ leBytes 1 0 ++ leBytes 4 0 ++ leBytes 2 0 ++ leBytes 2 data.length ++ data)).toNat)
    ?_ rfl (by decide)
  simp [responseFrame, withCrc]

theorem responseFrame_ne_nil (tag status abort detail : Nat) (data : List Byte) :
    responseFrame tag status abort detail data ≠ [] := by
  simp [responseFrame, withCrc, leBytes]

/-- The frame of an I3C write request (R440). -/
def writeFrame (tag idx sub : Nat) (data : List Byte) : List Byte := withCrc (leBytes 1 tag ++ writeBody idx sub data)

theorem writeFrame_eq (tag idx sub : Nat) (data : List Byte) : writeFrame tag idx sub data =
    leBytes 1 tag ++ writeBody idx sub data ++ leBytes 4 (crc32c (leBytes 1 tag ++ writeBody idx sub data)).toNat := rfl

theorem numAt_writeFrame_tag (f : Fin 4) (seq : Fin 16) (idx sub : Nat) (data : List Byte) :
    numAt (writeFrame (i3cTag f seq) idx sub data) 0 1 = i3cTag f seq := by
  refine numAt_between (before := []) (after := writeBody idx sub data ++
    leBytes 4 (crc32c (leBytes 1 (i3cTag f seq) ++ writeBody idx sub data)).toNat) ?_ rfl (i3cTag_lt f seq)
  simp [writeFrame_eq]

theorem frameOk_writeFrame (f : Fin 4) (seq : Fin 16) (idx sub : Nat) {data : List Byte} (hdata : data.length ≤ 8) :
    frameOk (writeFrame (i3cTag f seq) idx sub data) = true := by
  have hoperation := numAt_writeBody_operation (idx := idx) (sub := sub) (data := data) (leBytes 1 (i3cTag f seq))
    (leBytes 4 (crc32c (leBytes 1 (i3cTag f seq) ++ writeBody idx sub data)).toNat)
  have hlength := numAt_writeBody_length (idx := idx) (sub := sub) hdata (leBytes 1 (i3cTag f seq))
    (leBytes 4 (crc32c (leBytes 1 (i3cTag f seq) ++ writeBody idx sub data)).toNat)
  rw [← writeFrame_eq, length_leBytes] at hoperation hlength
  have htotal : (writeFrame (i3cTag f seq) idx sub data).length = 11 + data.length := by
    simp [writeFrame, length_withCrc, length_writeBody]
    omega
  have hversion : i3cTag f seq / 64 = 1 := by
    unfold i3cTag
    omega
  have hcrc : crcOk (writeFrame (i3cTag f seq) idx sub data) = true := crcOk_withCrc _
  unfold frameOk
  simp [hoperation, hlength, htotal, numAt_writeFrame_tag, hversion, hcrc]

theorem field_writeFrame (f : Fin 4) (seq : Fin 16) (idx sub : Nat) (data : List Byte) :
    Fin.ofNat 4 (((writeFrame (i3cTag f seq) idx sub data).headD 0).toNat / 16) = f := by
  have hhead : (writeFrame (i3cTag f seq) idx sub data).headD 0 = BitVec.ofNat 8 (i3cTag f seq) := rfl
  rw [hhead, toNat_ofNat_of_lt (i3cTag_lt f seq)]
  refine Fin.ext ?_
  simp only [Fin.ofNat, i3cTag]
  omega

section
variable {p : Nat × Nat} (hp : p ∈ plainSettings) {level : Level} {data : List Byte} (hw : writeFits level p.1 p.2 data = true)
  {s s' : State} {n : Nat} {f : Fin 4} (h : Ready s (.i3c f) level n s') (seq : Fin 16)
include hp hw h

theorem dictionaryRequest_writeFrame :
    dictionaryRequest s (.i3c f) (i3cTag f seq) (writeFrame (i3cTag f seq) p.1 p.2 data) 1 =
      accept (setSetting s' p.1 p.2 (writtenNumber p.1 p.2 data)) (.i3c f) n (i3cTag f seq) [] := by
  obtain ⟨hidx, hsub⟩ := plainSettings_fit p hp
  have hrequest := dictionaryRequest_writeBody hidx hsub (length_le_of_writeFits hp hw) (leBytes 1 (i3cTag f seq))
    (leBytes 4 (crc32c (leBytes 1 (i3cTag f seq) ++ writeBody p.1 p.2 data)).toNat) s (.i3c f) (i3cTag f seq)
  rw [← writeFrame_eq, length_leBytes] at hrequest
  rw [hrequest, serveTagged_ready h hw (writeEffect_of_plain hp _ _ _ _)]

/-- A served request becomes the last one of its session (R441), which changes neither a setting nor the response. -/
theorem i3cExecute_writeFrame :
    (i3cExecute s f (writeFrame (i3cTag f seq) p.1 p.2 data)).settings =
        (setSetting s' p.1 p.2 (writtenNumber p.1 p.2 data)).settings ∧
      (sessionOf (i3cExecute s f (writeFrame (i3cTag f seq) p.1 p.2 data)) (12 + f.val)).response =
        responseFrame (i3cTag f seq) 0 0 0 [] := by
  obtain rfl := sessionFor_i3c h.session
  have hresponse := accept_i3c_response (setSetting s' p.1 p.2 (writtenNumber p.1 p.2 data)) f (12 + f.val) (i3cTag f seq) []
  unfold i3cExecute
  dsimp only
  rw [numAt_writeFrame_tag, dictionaryRequest_writeFrame hp hw h seq, hresponse,
    if_pos ⟨status_responseFrame _ _, responseFrame_ne_nil _ _ _ _ _⟩]
  rw [modSession_settings, accept_settings, sessionOf_modSession_self]
  dsimp only
  exact ⟨rfl, hresponse⟩

theorem execI3cRequest_writeFrame (hlast : (sessionOf s (12 + f.val)).lastServed = none) :
    execI3cRequest (writeFrame (i3cTag f seq) p.1 p.2 data) s =
      .next (i3cExecute s f (writeFrame (i3cTag f seq) p.1 p.2 data)) := by
  unfold execI3cRequest
  dsimp only
  rw [field_writeFrame, if_neg (by simp [h.isOpen]),
    if_neg (by simp [frameOk_writeFrame f seq p.1 p.2 (length_le_of_writeFits hp hw)]), hlast]
end

/-! ### The statement -/

theorem serves_latched {p : Nat × Nat} (hp : p ∈ latchedSettings) {level : Level} {data : List Byte}
    (hw : writeFits level p.1 p.2 data = true) (via : Via) :
    Serves (.objectWrite via (BitVec.ofNat 16 p.1) (BitVec.ofNat 8 p.2) data) via level [.sys, .settings] (fun _ _ => True)
      (fun _ s t => setting t p.1 p.2 = writtenNumber p.1 p.2 data ∧ SettingsKept p.1 p.2 s t ∧
        forceN t p.1 p.2 = forceN s p.1 p.2) := by
  intro s n s' h _
  obtain ⟨hidx, hsub⟩ := latchedSettings_fit p hp
  obtain ⟨hset, hkept⟩ := settingWritten_of_settings (s := s') (data := data) hsub
    (t := setSetting (keepForce s' p.1 p.2) p.1 p.2 (writtenNumber p.1 p.2 data)) rfl
  refine ⟨_, ?_, Frame.step (setSetting_frame _ _ _ _) (Frame.mono (keepForce_frame _ _ _) rfl) rfl, hset, hkept,
    forceN_setSetting_keepForce s' p.1 p.2 _⟩
  show execObjectWrite _ _ _ _ s = _
  unfold execObjectWrite
  rw [toNat_ofNat_of_lt hidx, toNat_ofNat_of_lt hsub, served_ready h hw (writeEffect_of_latched hp _ _ _ _)]

theorem served_plain {p : Nat × Nat} (hp : p ∈ plainSettings) {level : Level} {data : List Byte}
    (hw : writeFits level p.1 p.2 data = true) {via : Via} {s s' : State} {n : Nat} (h : Ready s via level n s') :
    served s via (BitVec.ofNat 16 p.1).toNat (BitVec.ofNat 8 p.2).toNat data
        (writeEffect via (BitVec.ofNat 16 p.1).toNat (BitVec.ofNat 8 p.2).toNat data) =
      accept (setSetting s' p.1 p.2 (writtenNumber p.1 p.2 data)) via n (plainTag via) [] := by
  obtain ⟨hidx, hsub⟩ := plainSettings_fit p hp
  rw [toNat_ofNat_of_lt hidx, toNat_ofNat_of_lt hsub, served_ready h hw (writeEffect_of_plain hp _ _ _ _)]

/-- Settles O6: on every path a write comes down to `writeEffect` in the session of its request, which for these objects is
`setSetting` alone, under the value kept in force where the block takes it later. -/
theorem objectWrites : Obligations.ObjectWrites := by
  unfold Obligations.ObjectWrites
  refine ⟨fun p hp level data hw via => serves_latched hp hw via, fun p hp level data hw => ?_⟩
  obtain ⟨-, hsub⟩ := plainSettings_fit p hp
  have hwritten (s' : State) : SettingWritten p.1 p.2 data s' (setSetting s' p.1 p.2 (writtenNumber p.1 p.2 data)) :=
    settingWritten_of_settings hsub rfl
  have hframe (s' : State) := setSetting_frame s' p.1 p.2 (writtenNumber p.1 p.2 data)
  refine ⟨fun via s n s' h _ => ⟨_, ?_, hframe s', hwritten s'⟩, fun node s n s' h => ⟨_, ?_, hframe s', hwritten s'⟩,
    fun port s n s' h => ⟨_, execDictionaryRequest_writeBody hp hw h, hframe s', hwritten s'⟩, ?_⟩
  · exact congrArg Host.Outcome.next (served_plain hp hw h)
  · exact congrArg Host.Outcome.next (served_plain hp hw h)
  · intro f seq s n s' h hlast tag body
    obtain ⟨hsettings, hresponse⟩ := i3cExecute_writeFrame hp hw h seq
    have hkept : (setSetting s' p.1 p.2 (writtenNumber p.1 p.2 data)).settings =
        (setSetting s p.1 p.2 (writtenNumber p.1 p.2 data)).settings := by
      unfold setSetting
      rw [sessionFor_settings h.session]
    have hbody : writeFrame (i3cTag f seq) p.1 p.2 data = withCrc body := by
      simp [writeFrame, writeBody, i3cTag, body, tag]
    obtain ⟨hset, hother⟩ := settingWritten_of_settings (data := data) hsub (hsettings.trans hkept)
    refine ⟨_, ?_, hset, hother, hresponse⟩
    rw [← hbody]
    exact execI3cRequest_writeFrame hp hw h seq hlast

end Sys2Proof.Machine
end

section
/-! A host read on its way to its bank (R156, R168, R460, R461): what the counts, the sample and the order number leave of all that
the bank looks at. -/
namespace Sys2Proof.Machine

/-! ### What depends on a few units alone -/

theorem setting_congr {s t : State} (hset : t.settings = s.settings) (idx sub : Nat) : setting t idx sub = setting s idx sub := by
  unfold setting
  rw [hset]

theorem settingB_congr {s t : State} (hset : t.settings = s.settings) (idx sub : Nat) : settingB t idx sub = settingB s idx sub := by
  unfold settingB
  rw [setting_congr hset]

theorem hostVisibleUnits_congr {s t : State} (hpath : t.path = s.path) : hostVisibleUnits t = hostVisibleUnits s := by
  unfold hostVisibleUnits
  rw [hpath]

theorem windowSize_congr {s t : State} (hset : t.settings = s.settings) (hpath : t.path = s.path) (w : Nat) :
    windowSize t w = windowSize s w := by
  unfold windowSize
  rw [setting_congr hset, hostVisibleUnits_congr hpath]

theorem windowAt_congr {s t : State} (hset : t.settings = s.settings) (hpath : t.path = s.path) (dpa : Nat) :
    windowAt t dpa = windowAt s dpa := by
  have hsettingN : settingN t = settingN s := funext₂ (settingN_congr hset)
  have hsize : windowSize t = windowSize s := funext (windowSize_congr hset hpath)
  unfold windowAt
  rw [hsettingN, hsize]

/-! The kernel would compute `x * 2 ^ 28` by recursion to compare a `match` on it with the definition; so `sharedLine` and, below,
`lineRegion` are opened as functions, before they are applied. -/

theorem sharedLine_congr {s t : State} (hset : t.settings = s.settings) (hpath : t.path = s.path) (line : Nat) :
    sharedLine t line = sharedLine s line := by
  have hsettingB : settingB t = settingB s := funext₂ (settingB_congr hset)
  generalize hshared : sharedLine = shared
  delta sharedLine at hshared
  subst hshared
  beta_reduce
  rw [windowAt_congr hset hpath, hsettingB]

theorem hostDpa_congr {s t : State} (hports : t.ports = s.ports) (p address : Nat) : hostDpa t p address = hostDpa s p address := by
  unfold hostDpa portOf
  rw [hports]

theorem poisonEntry_congr {s t : State} (hpalette : t.palette = s.palette) (line : Nat) : poisonEntry t line = poisonEntry s line := by
  unfold poisonEntry bucketOf
  rw [hpalette]

theorem boundaryLine_congr {s t : State} (hcrypt : t.crypt = s.crypt) (line : Nat) : boundaryLine t line = boundaryLine s line := by
  unfold boundaryLine
  rw [hcrypt]

theorem usableWays_congr {s t : State} (hrecords : t.easel.wayRecords = s.easel.wayRecords) (set : Nat) :
    usableWays t set = usableWays s set := by
  unfold usableWays wayDisabled wayRecordsOf
  rw [hrecords]

theorem easelLine_congr {s t : State} (hlines : t.easel.lines = s.easel.lines) (q : Nat) : easelLine t q = easelLine s q := by
  unfold easelLine
  rw [hlines]

theorem easelFind_congr {s t : State} (hlines : t.easel.lines = s.easel.lines)
    (hrecords : t.easel.wayRecords = s.easel.wayRecords) (line : Nat) : easelFind t line = easelFind s line := by
  unfold easelFind
  simp only [usableWays_congr hrecords, easelLine_congr hlines]

theorem easelVictim_congr {s t : State} (hlines : t.easel.lines = s.easel.lines)
    (hrecords : t.easel.wayRecords = s.easel.wayRecords) (hplru : t.easel.plru = s.easel.plru) (set : Nat) :
    easelVictim t set = easelVictim s set := by
  unfold easelVictim
  simp only [usableWays_congr hrecords, easelLine_congr hlines, hplru]

section
variable {s t : State} (hsys : t.sys = s.sys) (hcrypt : t.crypt = s.crypt) (hset : t.settings = s.settings)
  (hgroups : t.groups = s.groups) (hpath : t.path = s.path) (hpalette : t.palette = s.palette)

include hgroups hsys in
theorem scratchPlace_congr (line : Nat) : scratchPlace t line = scratchPlace s line := by
  unfold scratchPlace poolEnd groupOf
  rw [hsys, hgroups]

include hsys hcrypt hpath in
theorem lineGroup_congr (line : Nat) : lineGroup t line = lineGroup s line := by
  unfold lineGroup
  rw [ephemeralState_congr hsys hcrypt, hpath]

include hset hpalette in
theorem spanFenced_congr (line : Nat) : spanFenced t line = spanFenced s line := by
  unfold spanFenced counterIndex rangeFirst
  simp only [hpalette, rangeOf_congr hset, settingN_congr hset]

include hgroups in
theorem groupOf_congr (g : Nat) : groupOf t g = groupOf s g := by
  unfold groupOf
  rw [hgroups]

include hgroups hpath in
theorem placeIdx_congr (g idx : Nat) : placeIdx t g idx = placeIdx s g idx := by
  have hslot (p i : Nat) : slotIn t g p i = slotIn s g p i := by
    unfold slotIn regionOf
    rw [groupOf_congr hgroups, hpath]
  unfold placeIdx regionFor
  simp only [groupOf_congr hgroups, hslot]

include hpath in
theorem tileIndex_host_congr (line : Nat) : tileIndex t (.host line) = tileIndex s (.host line) := by
  unfold tileIndex
  rw [hpath]

include hgroups hpath in
theorem lineRegion_congr (line : Nat) : lineRegion t line = lineRegion s line := by
  have hindex : tileIndex t (.host line) = tileIndex s (.host line) := tileIndex_host_congr hpath line
  have hplace : placeIdx t = placeIdx s := funext₂ (placeIdx_congr hgroups hpath)
  generalize hregion : lineRegion = region
  delta lineRegion at hregion
  subst hregion
  beta_reduce
  rw [hindex, hplace]

include hsys hcrypt hset hgroups hpath hpalette in
theorem lineFenced_congr (line : Nat) : lineFenced t line = lineFenced s line := by
  have hrange (r : Nat) : rangeRec t r = rangeRec s r := by
    unfold rangeRec
    rw [hcrypt]
  have hregion (g p : Nat) : regionFenced t g p = regionFenced s g p := by
    unfold regionFenced
    rw [groupOf_congr hgroups]
  unfold lineFenced
  simp only [ephemeralState_congr hsys hcrypt, scratchPlace_congr hsys hgroups, lineGroup_congr hsys hcrypt hpath,
    rangeOf_congr hset, sealedLine_congr hsys hcrypt hset, spanFenced_congr hset hpalette, lineRegion_congr hgroups hpath,
    groupOf_congr hgroups, hrange, hregion]
end

/-! ### The load that a port is told of, and the lines (R300) -/

/-- Nothing has happened in `t` that the load of a port or a line of the Easel depends on. -/
structure SameService (s t : State) : Prop where
  ports : t.ports = s.ports
  reserve : t.reserve = s.reserve
  settings : t.settings = s.settings
  path : t.path = s.path
  inForce : t.sys.inForce = s.sys.inForce
  lines : t.easel.lines = s.easel.lines
  nextRead : t.easel.nextRead = s.easel.nextRead

theorem SameService.trans {s t r : State} (h : SameService s t) (k : SameService t r) : SameService s r :=
  ⟨k.ports.trans h.ports, k.reserve.trans h.reserve, k.settings.trans h.settings, k.path.trans h.path, k.inForce.trans h.inForce,
    k.lines.trans h.lines, k.nextRead.trans h.nextRead⟩

/-- The units that a request's counts, samples, events and lookups change. -/
def countUnits : List UnitName := [.mgmt, .folio, .ledger, .palette, .queues, .perf, .stats, .draws, .out]

theorem Frame.sameService {s t : State} (h : Frame countUnits s t) : SameService s t where
  ports := h.ports_eq (by decide)
  reserve := h.reserve_eq (by decide)
  settings := h.settings_eq (by decide)
  path := h.path_eq (by decide)
  inForce := congrArg Sys.inForce (h.sys_eq (by decide))
  lines := congrArg Easel.lines (h.easel_eq (by decide))
  nextRead := congrArg Easel.nextRead (h.easel_eq (by decide))

theorem SameService.devLoad {s t : State} (h : SameService s t) (p : Nat) : devLoad t p = devLoad s p := by
  unfold Machine.devLoad heldEntries portOf shareWatermark portShareOf portCharged forceN
  simp only [settingN_congr h.settings, h.ports, h.reserve, h.path, h.inForce]

/-! ### The answer to a host (R157, R167) -/

/-- A host's answer carries the load of its port as it stands (R300). -/
theorem deliverRead_host_load {w : ReadWait} {p tag : Nat} (hw : w.who = .host p tag) (s : State) (data : Line) (poison : Bool) :
    ∃ x, Frame countUnits s x ∧ deliverRead s w data poison = settleConflict (emit x
      (.data (Fin.ofNat 4 p) tag (if poison then 0 else data) poison w.metaValue (devLoad x p))) p w.line := by
  unfold deliverRead
  rw [hw]
  refine ⟨_, ?_, rfl⟩
  refine Frame.ite (Frame.step (perfCount_frame _ _ _ _) ?_ rfl) ?_ <;>
  · refine Frame.step (monitorRead_frame _ _ _ _ _ _) (Frame.step (sampleDone_frame _ _ _) ?_ rfl) rfl
    have hflagged : Frame countUnits s (if poison then flagSample s (.host p tag) 14 else s) :=
      Frame.ite (Frame.mono (flagSample_frame _ _ _) rfl) (.refl _ s)
    exact Frame.ite (Frame.step (flagSample_frame _ _ _) hflagged rfl) hflagged

/-- Port `p` has its answer in `t`, and neither a line nor the medium has changed since `s`, nor has a read been issued. -/
structure Answered (s t : State) (p : Port) (tag : Nat) (data : Line) (poison : Bool) : Prop where
  output : Output.data p tag data poison 0 (devLoad s p.val) ∈ t.out
  lines : t.easel.lines = s.easel.lines
  medium : t.path.medium = s.path.medium
  nextRead : t.easel.nextRead = s.easel.nextRead

theorem deliverRead_answers {s y : State} (hy : SameService s y) {w : ReadWait} {p : Port} {tag : Nat}
    (hw : w.who = .host p.val tag) (hmeta : w.metaValue = 0) (data : Line) (poison : Bool) :
    Answered s (deliverRead y w data poison) p tag (if poison then 0 else data) poison := by
  have hframe := deliverRead_frame y w data poison
  have heasel := hframe.easel_eq (by decide)
  have hport : Fin.ofNat 4 p.val = p := Fin.ext (Nat.mod_eq_of_lt p.isLt)
  obtain ⟨x, hx, hdeliver⟩ := deliverRead_host_load hw y data poison
  constructor
  · rw [hdeliver, hport, hmeta, (hy.trans hx.sameService).devLoad]
    exact (settleConflict_out_suffix _ _ _).subset List.mem_cons_self
  · rw [heasel, hy.lines]
  · rw [hframe.path_eq (by decide), hy.path]
  · rw [heasel, hy.nextRead]

/-! ### The way to the bank (R156, R168) -/

/-- `x` is `s` with a request at its bank: counted, sampled, and numbered. -/
structure AtBank (s x : State) : Prop where
  frame : Frame [.easel, .perf, .stats, .draws] s x
  easel : x.easel = (nextOrder s).1.easel

section
variable {s x : State} (h : AtBank s x)
include h

theorem AtBank.lines : x.easel.lines = s.easel.lines := (congrArg Easel.lines h.easel).trans rfl

theorem AtBank.wayRecords : x.easel.wayRecords = s.easel.wayRecords := (congrArg Easel.wayRecords h.easel).trans rfl

theorem AtBank.reads : x.easel.reads = s.easel.reads := (congrArg Easel.reads h.easel).trans rfl

theorem AtBank.plru : x.easel.plru = s.easel.plru := (congrArg Easel.plru h.easel).trans rfl

theorem AtBank.mergeWait : x.easel.mergeWait = s.easel.mergeWait := (congrArg Easel.mergeWait h.easel).trans rfl

theorem AtBank.sameService : SameService s x where
  ports := h.frame.ports_eq (by decide)
  reserve := h.frame.reserve_eq (by decide)
  settings := h.frame.settings_eq (by decide)
  path := h.frame.path_eq (by decide)
  inForce := congrArg Sys.inForce (h.frame.sys_eq (by decide))
  lines := h.lines
  nextRead := (congrArg Easel.nextRead h.easel).trans rfl

theorem AtBank.lineFenced (line : Nat) : lineFenced x line = lineFenced s line :=
  lineFenced_congr (h.frame.sys_eq (by decide)) (h.frame.crypt_eq (by decide)) (h.frame.settings_eq (by decide))
    (h.frame.groups_eq (by decide)) (h.frame.path_eq (by decide)) (h.frame .palette (by decide)) line

theorem AtBank.heldBefore (line seq : Nat) : heldBefore x line seq = heldBefore s line seq :=
  heldBefore_congr (h.frame.ports_eq (by decide)) h.mergeWait line seq

theorem AtBank.easelFind (line : Nat) : easelFind x line = easelFind s line :=
  easelFind_congr h.lines h.wayRecords line

theorem AtBank.easelVictim (set : Nat) : easelVictim x set = easelVictim s set :=
  easelVictim_congr h.lines h.wayRecords h.plru set

theorem AtBank.easelLine (q : Nat) : easelLine x q = easelLine s q := easelLine_congr h.lines q

/-- A count or a stamp leaves a request at its bank. -/
theorem AtBank.counted {y : State} (hy : Frame [.perf, .stats] x y) : AtBank s y :=
  ⟨Frame.step hy h.frame rfl, (hy.easel_eq (by decide)).trans h.easel⟩
end

theorem ne_priming_of_hostsServed {s : State} (hserved : hostsServed s = true) : s.sys.dev ≠ .priming := by
  intro hdev
  simp [hostsServed, hdev] at hserved

theorem meetUpsets_none (s : State) (line : Nat) : meetUpsets s line [.none, .none] = s := rfl

theorem nextOrder_atBank {s y : State} (hy : Frame [.perf, .stats, .draws] s y) : AtBank s (nextOrder y).1 where
  frame := Frame.step (nextOrder_frame y) (Frame.mono hy rfl) rfl
  easel := by
    unfold nextOrder
    dsimp only
    rw [hy.easel_eq (by decide)]

/-- `x` is `s` with the read `w` of port `p` at its bank, the next in order there (R168). -/
structure ReadAtBank (s x : State) (w : ReadWait) (p : Port) (tag line : Nat) : Prop where
  bank : AtBank s x
  line : w.line = line
  who : w.who = .host p.val tag
  metaValue : w.metaValue = 0
  seq : w.seq = s.easel.nextSeq

/-- A read of a mapped line that no window shares, with no soft error on its way, goes to its bank as `bankRead`. -/
theorem hostRead_eq_bankRead {s : State} {p : Port} {address dpa : Nat} (hserved : hostsServed s = true)
    (hdpa : hostDpa s p.val address = some dpa) (hshared : sharedLine s (dpa / 64) = false) (tag mv : Nat) :
    ∃ x w, hostRead s p.val tag address mv [.none, .none] = bankRead x w ∧ ReadAtBank s x w p tag (dpa / 64) := by
  have hcount := perfCount_frame s p.val 2 1
  have hway : Frame [.perf, .stats, .draws] s
      (sampleDraw (countWarm (perfCount s p.val 2 1) p.val (warmNow (perfCount s p.val 2 1) (dpa / 64) true)) (.host p.val tag)
        (dpa / 64) false
        (arrivalFlags (perfCount s p.val 2 1) (dpa / 64) (warmNow (perfCount s p.val 2 1) (dpa / 64) true))) :=
    Frame.step (sampleDraw_frame _ _ _ _ _) (Frame.step (countWarm_frame _ _ _) (Frame.mono hcount rfl) rfl) rfl
  unfold hostRead
  dsimp only
  rw [if_neg (ne_priming_of_hostsServed hserved), if_pos hserved, hostDpa_congr (hcount.ports_eq (by decide)), hdpa]
  dsimp only
  have hshared' := (sharedLine_congr (hway.settings_eq (by decide)) (hway.path_eq (by decide)) (dpa / 64)).trans hshared
  rw [hshared', Bool.false_and, if_neg Bool.false_ne_true, meetUpsets_none]
  unfold lineRequest
  dsimp only
  rw [if_pos hshared']
  have heasel := hway.easel_eq (by decide)
  generalize sampleDraw _ _ _ _ _ = y at hway heasel ⊢
  exact ⟨_, _, rfl, nextOrder_atBank hway, rfl, rfl, rfl, congrArg Easel.nextSeq heasel⟩

end Sys2Proof.Machine
end

section
/-! A host read at its bank (O29). -/
namespace Sys2Proof.Machine

/-! ### The ends of a read at its bank (R157) -/

theorem easelTouch_sameService (s : State) (q : Nat) (last : Bool) : SameService s (easelTouch s q last) :=
  ⟨rfl, rfl, rfl, rfl, rfl, rfl, rfl⟩

section
variable {s x : State} {w : ReadWait} {p : Port} {tag line : Nat} (h : ReadAtBank s x w p tag line)
include h

theorem ReadAtBank.stamped : AtBank s (stamp x w.who 1) := h.bank.counted (Frame.mono (stamp_frame x w.who 1) rfl)

/-- A fenced line reads as poison (R31, R67). -/
theorem bankRead_fenced (hfence : lineFenced s line = true) : Answered s (bankRead x w) p tag 0 true := by
  unfold bankRead
  dsimp only
  rw [h.line, if_pos ((h.stamped.lineFenced line).trans hfence)]
  exact deliverRead_answers h.stamped.sameService h.who h.metaValue 0 true

/-- Past the fences and the held writes, a read looks for its line. -/
theorem bankRead_open (hfence : lineFenced s line = false) (hheld : heldBefore s line s.easel.nextSeq = false) :
    lineFenced (stamp x w.who 1) w.line = false ∧ heldBefore (stamp x w.who 1) w.line w.seq = false := by
  rw [h.line, h.seq, h.stamped.lineFenced, h.stamped.heldBefore]
  exact ⟨hfence, hheld⟩

variable (hfence : lineFenced s line = false) (hheld : heldBefore s line s.easel.nextSeq = false)
include hfence hheld

theorem bankRead_poison {q : Nat} (hfind : easelFind s line = some q) (hpoison : (easelLine s q).poison = true) :
    Answered s (bankRead x w) p tag 0 true := by
  obtain ⟨hopen, hfree⟩ := bankRead_open h hfence hheld
  unfold bankRead
  dsimp only
  rw [if_neg (ne_true_of_eq_false hopen), if_neg (ne_true_of_eq_false hfree), h.line, h.stamped.easelFind, hfind]
  dsimp only
  rw [if_pos (by rw [h.stamped.easelLine, hpoison])]
  exact deliverRead_answers (h.stamped.counted (Frame.mono (perfCount_frame _ _ _ _) rfl)).sameService h.who h.metaValue 0 true

theorem bankRead_hit {q : Nat} (hfind : easelFind s line = some q) (hpoison : (easelLine s q).poison = false)
    (hmerge : (easelLine s q).merge = false) (hfill : (easelLine s q).fill = false) :
    Answered s (bankRead x w) p tag (easelLine s q).data false := by
  obtain ⟨hopen, hfree⟩ := bankRead_open h hfence hheld
  have hcounted := h.stamped.counted (Frame.step
    (perfCount_frame _ (requesterPort (flagSample (bump (stamp x w.who 1) 0x2310 1 1) w.who 16) w.who) 5 1)
    (Frame.step (flagSample_frame _ w.who 16) (Frame.mono (bump_frame _ 0x2310 1 1) rfl) rfl) rfl)
  unfold bankRead
  dsimp only
  rw [if_neg (ne_true_of_eq_false hopen), if_neg (ne_true_of_eq_false hfree), h.line, h.stamped.easelFind, hfind]
  dsimp only
  simp only [h.stamped.easelLine, hpoison, hmerge, hfill, Bool.or_self, Bool.false_eq_true, if_false]
  exact deliverRead_answers (hcounted.sameService.trans (easelTouch_sameService _ q true)) h.who h.metaValue _ false

theorem bankRead_miss (hfind : easelFind s line = none) : bankRead x w = missRead (stamp x w.who 1) w := by
  obtain ⟨hopen, hfree⟩ := bankRead_open h hfence hheld
  unfold bankRead
  dsimp only
  rw [if_neg (ne_true_of_eq_false hopen), if_neg (ne_true_of_eq_false hfree), h.line, h.stamped.easelFind, hfind]
end

/-! ### A line that is not there (R98, R157) -/

theorem missRead_unlisted {s y : State} (hbank : AtBank s y) {w : ReadWait} (hentry : poisonEntry s w.line = none) :
    ∃ z, AtBank s z ∧ missRead y w = missRead.go w z w.line := by
  have hcounted := hbank.counted (Frame.step (perfCount_frame _ (requesterPort y w.who) 6 1)
    (Frame.mono (bump_frame y 0x2310 2 1) rfl) rfl)
  unfold missRead
  extract_lets line counted z
  have hz : AtBank s z := by
    unfold z
    split
    · exact hcounted.counted (Frame.mono (stamp_frame _ _ _) rfl)
    · exact hcounted
  clear_value z
  refine ⟨z, hz, ?_⟩
  rw [poisonEntry_congr (hz.frame .palette (by decide)), hentry]

/-- A line that is to be filled (R157). -/
def fillingLine (line : Nat) : EaselLine := { tag := easelTag line, valid := true, fill := true }

/-- No bypass read of a line stands open (R53). -/
def NoBypass (s : State) (line : Nat) : Prop :=
  ∀ e ∈ s.easel.reads, ¬ (e.2.kind = 1 ∧ e.2.line = line ∧ e.2.dead = false ∧ e.2.closed = false)

/-- The fill of a line is issued to the place R98 gives, and the read waits for it. -/
theorem missRead_go_fill {s y : State} (hbank : AtBank s y) {w : ReadWait} {line q : Nat} (hboundary : boundaryLine s line = none)
    (hvictim : easelVictim s (easelSet line) = some q) (hbypass : NoBypass s line) :
    ∃ z, Frame [.palette, .perf, .stats] y z ∧
      missRead.go w y line = waitRead (issueRead (modLine z q (fun _ => fillingLine line)) line 0 q []) w := by
  have hlookups : Frame [.palette, .perf, .stats] y (lookupRemap (lookupPath y line) line) :=
    Frame.step (lookupRemap_frame _ _) (lookupPath_frame y line) rfl
  have heasel := hlookups.easel_eq (by decide)
  have hreads : y.easel.reads.find? (fun e => e.2.kind == 1 && e.2.line == line && !e.2.dead && !e.2.closed) = none := by
    rw [hbank.reads, List.find?_eq_none]
    intro e he
    simpa using hbypass e he
  refine ⟨_, hlookups, ?_⟩
  unfold missRead.go
  rw [boundaryLine_congr (hbank.frame.crypt_eq (by decide)), hboundary]
  dsimp only
  rw [hreads]
  dsimp only
  rw [easelVictim_congr (congrArg Easel.lines heasel) (congrArg Easel.wayRecords heasel) (congrArg Easel.plru heasel),
    hbank.easelVictim, hvictim]
  rfl

/-- In `t` the read of port `p` waits for the fill of `line` to place `q` that has been issued since `s`. -/
structure Filling (s t : State) (p : Port) (tag line q : Nat) : Prop where
  lines : ∀ r, easelLine t r = if r = q then fillingLine line else easelLine s r
  read : tabGet dRead t.easel.reads s.easel.nextRead = { line := line, kind := 0, place := q, arrival := t.sys.time }
  nextRead : t.easel.nextRead = s.easel.nextRead + 1
  medium : t.path.medium = s.path.medium
  waits : ∃ w ∈ t.easel.waits, w.line = line ∧ w.who = .host p.val tag

theorem issueRead_filling {s z : State} (hz : SameService s z) {w : ReadWait} {p : Port} {tag line q : Nat} (hline : w.line = line)
    (hw : w.who = .host p.val tag) :
    Filling s (waitRead (issueRead (modLine z q (fun _ => fillingLine line)) line 0 q []) w) p tag line q where
  lines r := by
    rw [← easelLine_congr hz.lines r]
    exact easelLine_modLine z q r (fun _ => fillingLine line)
  read := by
    rw [← hz.nextRead]
    exact tabGet_set_self _ _ _
  nextRead := congrArg (· + 1) hz.nextRead
  medium := congrArg Path.medium hz.path
  waits := ⟨w, List.mem_append_right _ List.mem_cons_self, hline, hw⟩

theorem bankRead_filling {s x : State} {w : ReadWait} {p : Port} {tag line q : Nat} (h : ReadAtBank s x w p tag line)
    (hfence : lineFenced s line = false) (hheld : heldBefore s line s.easel.nextSeq = false)
    (hfind : easelFind s line = none) (hentry : poisonEntry s line = none) (hboundary : boundaryLine s line = none)
    (hvictim : easelVictim s (easelSet line) = some q) (hbypass : NoBypass s line) : Filling s (bankRead x w) p tag line q := by
  obtain ⟨y, hy, hgo⟩ := missRead_unlisted h.stamped (w := w) (h.line ▸ hentry)
  obtain ⟨z, hz, hfill⟩ := missRead_go_fill hy hboundary hvictim hbypass
  rw [bankRead_miss h hfence hheld hfind, hgo, h.line, hfill]
  exact issueRead_filling (hy.sameService.trans (Frame.mono hz rfl).sameService) h.line h.who

/-! ### The reads that reach no bank (R167, R363) -/

theorem earlyAccess_sameService (s : State) (p : Nat) : SameService s (earlyAccess s p) := by
  unfold earlyAccess
  split
  · exact (Frame.refl _ s).sameService
  · have hmarked : SameService s { s with sys := { s.sys with earlyAccess := tabSet dBool s.sys.earlyAccess p true } } :=
      ⟨rfl, rfl, rfl, rfl, rfl, rfl, rfl⟩
    exact hmarked.trans (Frame.mono (raise_frame _ _ _) rfl).sameService

section
variable {s : State} (port : Port) (tag address mv : Nat)

theorem hostRead_priming (hdev : s.sys.dev = .priming) :
    Answered s (hostRead s port.val tag address mv [.none, .none]) port tag 0 true := by
  unfold hostRead
  dsimp only
  rw [if_pos hdev]
  have hcount : Frame countUnits s (perfCount s port.val 2 1) := Frame.mono (perfCount_frame _ _ _ _) rfl
  exact deliverRead_answers (hcount.sameService.trans (earlyAccess_sameService _ _)) rfl rfl 0 true

theorem hostRead_unmapped (hserved : hostsServed s = true) (hdpa : hostDpa s port.val address = none) :
    Answered s (hostRead s port.val tag address mv [.none, .none]) port tag 0 true := by
  have hcount : Frame [.perf] s (perfCount s port.val 2 1) := perfCount_frame _ _ _ _
  have hsampled : Frame countUnits s (sampleDraw (perfCount s port.val 2 1) (.host port.val tag) 0 false 0) :=
    Frame.step (sampleDraw_frame _ _ _ _ _) (Frame.mono hcount rfl) rfl
  unfold hostRead
  dsimp only
  rw [if_neg (ne_priming_of_hostsServed hserved), if_pos hserved, hostDpa_congr (hcount.ports_eq (by decide)), hdpa]
  exact deliverRead_answers hsampled.sameService rfl rfl 0 true
end

/-! ### O29 -/

/-- The units that a host read may change. -/
def hostReadUnits : List UnitName := [.sys, .mgmt, .folio, .ledger, .reserve, .ports, .channels, .groups, .easel, .palette, .crypt,
  .directory, .queues, .barrow, .perf, .path, .stats, .draws, .out]

theorem completes_hostRead {port : Port} {tag : BitVec 16} {address : BitVec 52} {mv : Fin 3} {before : State → Prop}
    {after : State → State → Prop}
    (h : ∀ s, before s → linkUp s port.val = true ∧
      after s (hostRead s port.val tag.toNat address.toNat mv.val [.none, .none])) :
    Completes (.hostRead port tag address mv .none .none) hostReadUnits before after := by
  intro s hs
  obtain ⟨hlink, hafter⟩ := h s hs
  exact ⟨_, if_pos hlink, Frame.mono (hostRead_frame _ _ _ _ _ _) rfl, hafter⟩

/-- Settles O29. On its way to the bank a read changes only counts, its sample and the order number; there the line decides how it
ends. -/
theorem hostReads : Obligations.HostReads := by
  unfold Obligations.HostReads
  intro units port tag address mv p c served kept
  have hends {s t : State} {data : Line} {poison : Bool} (h : Answered s t port tag.toNat data poison) :
      Output.data port tag.toNat data poison 0 (devLoad s p) ∈ t.out ∧ kept s t :=
    ⟨h.output, h.lines, h.medium, h.nextRead⟩
  refine ⟨fun line q => completes_hostRead ?_, fun line q => completes_hostRead ?_, fun line => completes_hostRead ?_,
    fun line q => completes_hostRead ?_, completes_hostRead ?_, ?_⟩
  · rintro s ⟨⟨hlink, hserved, ⟨dpa, hdpa, rfl⟩, hshared, hheld⟩, hfence, hfind, hpoison, hmerge, hfill⟩
    obtain ⟨x, w, hread, hbank⟩ := hostRead_eq_bankRead hserved hdpa hshared tag.toNat mv.val
    rw [hread]
    exact ⟨hlink, hends (bankRead_hit hbank hfence hheld hfind hpoison hmerge hfill)⟩
  · rintro s ⟨⟨hlink, hserved, ⟨dpa, hdpa, rfl⟩, hshared, hheld⟩, hfence, hfind, hpoison⟩
    obtain ⟨x, w, hread, hbank⟩ := hostRead_eq_bankRead hserved hdpa hshared tag.toNat mv.val
    rw [hread]
    exact ⟨hlink, hends (bankRead_poison hbank hfence hheld hfind hpoison)⟩
  · rintro s ⟨⟨hlink, hserved, ⟨dpa, hdpa, rfl⟩, hshared, hheld⟩, hfence⟩
    obtain ⟨x, w, hread, hbank⟩ := hostRead_eq_bankRead hserved hdpa hshared tag.toNat mv.val
    rw [hread]
    exact ⟨hlink, hends (bankRead_fenced hbank hfence)⟩
  · rintro s ⟨⟨hlink, hserved, ⟨dpa, hdpa, rfl⟩, hshared, hheld⟩, hfence, hfind, hentry, hboundary, hvictim, hbypass⟩
    obtain ⟨x, w, hread, hbank⟩ := hostRead_eq_bankRead hserved hdpa hshared tag.toNat mv.val
    rw [hread]
    obtain ⟨hlines, hrecord, hnext, hmedium, hwaits⟩ :=
      bankRead_filling hbank hfence hheld hfind hentry hboundary hvictim hbypass
    refine ⟨hlink, hlines, ?_, ?_, ?_, hnext, hmedium, hwaits⟩ <;> rw [hrecord]
  · rintro s ⟨hlink, hdev | ⟨hserved, hdpa⟩⟩
    · exact ⟨hlink, hends (hostRead_priming port tag.toNat address.toNat mv.val hdev)⟩
    · exact ⟨hlink, hends (hostRead_unmapped port tag.toNat address.toNat mv.val hserved hdpa)⟩
  · intro s hlink
    exact ⟨s, if_neg (ne_true_of_eq_false hlink), Frame.refl _ _, trivial⟩

end Sys2Proof.Machine
end

section
/-! The budget and the measurement of the reserve (O21, O22): both commands publish the budget, and a publication that leaves the
device share below its charge selects lines of the Palette for writeback (R129), a unit that neither statement names (the units they
may change are those of `execBudgetUpdate_frame` and `execMeasurementStart_frame`). -/
namespace Sys2Proof.Machine

/-- A command that changes which lines the Palette has selected does not keep the Palette. -/
theorem not_completes_of_selectedAfter {c : Instr} {units : List UnitName} {before : State → Prop}
    {after : State → State → Prop} {s : State} {chosen : List Nat} (hpalette : .palette ∉ units) (hbefore : before s)
    (hselects : selectedAfter c s = some chosen) (hnew : chosen ≠ s.palette.selected) :
    ¬ Completes c units before after := by
  intro h
  obtain ⟨t, hexec, hframe, -⟩ := h s hbefore
  have hkept : t.palette = s.palette := hframe .palette hpalette
  unfold selectedAfter at hselects
  rw [hexec] at hselects
  exact hnew (Option.some.inj hselects ▸ congrArg Palette.selected hkept)

/-- An Active device that has lost a media domain, so that its budget is zero (R30), with its bank of 6 mF ready at V_hi and an
occasion to measure it, and one dirty line of the Palette still charged to the device share. -/
def degradedWithDeviceCharge : State :=
  { sys := { dev := .active, memoryActive := true, openRecordDone := true },
    power := { isoOn := true, domains := [(0, { lost := true })] },
    reserve := { vres := 14000, samples := [14000], c1 := 6000, c2 := 6000, measured := true, esr := 120, status := 3,
                 bleedEn := false, wt := false, occasion := true, deviceCharge := 1 },
    palette := { ways := [(0, { valid := true, dirty := true, charged := true })] } }

theorem budgetUpdate_selects_palette :
    selectedAfter .budgetUpdate degradedWithDeviceCharge = some [0] := by decide +kernel

theorem measurementStart_selects_palette :
    selectedAfter .measurementStart degradedWithDeviceCharge = some [0] := by decide +kernel

/-- The device is Active, ready and at V_hi, with an occasion and no measurement running (R121). -/
theorem degradedWithDeviceCharge_mayMeasure :
    degradedWithDeviceCharge.sys.dev = .active ∧ degradedWithDeviceCharge.reserve.status = 3 ∧
      degradedWithDeviceCharge.reserve.occasion = true ∧ degradedWithDeviceCharge.reserve.measure = .idle ∧
      vHi degradedWithDeviceCharge - 50 ≤ degradedWithDeviceCharge.reserve.vres ∧
      degradedWithDeviceCharge.reserve.vres ≤ vHi degradedWithDeviceCharge + 100 ∧
      degradedWithDeviceCharge.reserve.bleedEn = false := by decide +kernel

/-- Refutes O21 in its second clause: a budget update with the device share below its charge selects a line of the Palette for
writeback (R129), so the Palette does not hold the same. -/
theorem not_budgetFormulaAndPublication : ¬ Obligations.BudgetFormulaAndPublication := by
  rintro ⟨-, hupdate, -⟩
  exact not_completes_of_selectedAfter (by decide) ⟨rfl, by decide⟩ budgetUpdate_selects_palette (by decide) hupdate

/-- Refutes O22 in its fourth clause: a measurement publishes the lowered budget at its start (R121), and with the device share
below its charge that selects a line of the Palette for writeback (R129). -/
theorem not_reserveMeasurement : ¬ Obligations.ReserveMeasurement := by
  rintro ⟨-, -, -, hstart, -⟩
  exact not_completes_of_selectedAfter (by decide) degradedWithDeviceCharge_mayMeasure measurementStart_selects_palette
    (by decide) hstart

end Sys2Proof.Machine
end

section
/-! Palette writebacks (O36): the advance of the parent's counter may drop the remap table tile of the written tile's own slot (R137),
and the place of the writeback is taken after that advance. -/
namespace Sys2Proof.Machine

/-- The patches of slot 0 of region 24 in group 0 are remapped in column 0 to spare 5 (R81). -/
def remapOfSlot0 : Line := BitVec.ofNat 512 (2 ^ 63 + 5)

/-- Counter tile 0 lies in slot 0 of region 24 of group 0, a region with remapped patches. The Palette holds that tile dirty with its
mirror, selected for writeback, and in the two ways of one pair, both clean, its parent and the remap table tile of that slot. With
columns 6 and 7 erased the medium's copy of the remap table tile does not decode (R49). -/
def parentBesideRemap : State :=
  { groups := [(0, { table := [(28672, { mapped := true, phys := 24 })]
                     regions := [(24, { gap := 1048576, owner := 28672, hr := true })] })]
    channels := [(6, { failed := true }), (7, { failed := true })]
    palette := {
      ways := [(1024, { key := paletteKey (.counter 0), valid := true, dirty := true }),
        (1032, { key := paletteKey (.counter 0), valid := true, dirty := true, mirror := true }),
        (3072, { key := paletteKey (.node 1 0), valid := true }),
        (3080, { key := paletteKey (.remap 0 24 0), valid := true, data := remapOfSlot0 })]
      selected := [1024] } }

/-- The state meets the hypotheses of the grant clause of O36, for way 0 of set 64. -/
theorem parentBesideRemap_grantable :
    1024 ∈ parentBesideRemap.palette.selected ∧
      writebackReady parentBesideRemap (tileOfKey (palWay parentBesideRemap 1024).key) = true ∧
      advanceNeeds parentBesideRemap (tileOfKey (palWay parentBesideRemap 1024).key) = [] ∧
      (palWay parentBesideRemap 1024).valid = true ∧ (palWay parentBesideRemap 1024).dirty = true ∧
      (palWay parentBesideRemap 1024).mirror = false ∧ (palWay parentBesideRemap 1024).back = false ∧
      (palWay parentBesideRemap (partner 1024)).mirror = true := by
  decide +kernel

/-- The patch address of column 0 at a place. -/
def firstAddr (pl : Place) : Nat := pl.addrs.headD 0

/-- A writeback's tile, and the address in column 0 that it is to program. -/
def firstTarget (job : PalWrite) : TileId × Option Nat := (job.tile, job.pl.map firstAddr)

/-- What the writebacks under way after a command are to program in column 0; none where it has no next state. -/
def targetsAfter (c : Instr) (s : State) : Option (List (TileId × Option Nat)) :=
  match exec c s with
  | .next t => some (t.palette.writes.map firstTarget)
  | _ => none

/-- Before the grant the patch of column 0 lies at its spare (R82). -/
theorem parentBesideRemap_remapped :
    (placeOf parentBesideRemap (.counter 0)).map firstAddr = some (spareBase parentBesideRemap 0 + 5) := by decide +kernel

/-- The grant takes it at its original address: the parent's update has dropped the remap table tile. -/
theorem writebackGrant_loses_remap :
    targetsAfter (.paletteWritebackGrant 64 0) parentBesideRemap =
      some [(.counter 0, some (regionBase parentBesideRemap 0 24))] := by decide +kernel

theorem spare_ne_regionBase : spareBase parentBesideRemap 0 + 5 ≠ regionBase parentBesideRemap 0 24 := by decide +kernel

/-- Refutes O36 in its clause on the grant of a writeback: the parent's counter advances first (R193), its clean line becomes dirty in
place and drops the clean line beside it (R137), here the remap table tile of the written tile's slot (R82). The place of the
writeback is taken after that, so it is not the place in which the tile stood at the grant. -/
theorem not_paletteLines : ¬ Obligations.PaletteLines := by
  rintro ⟨-, -, hwritebacks, -⟩
  obtain ⟨hgrant, -⟩ := hwritebacks 64 0
  obtain ⟨t, hexec, -, -, -, -, job, hjob, -, -, hplace⟩ := hgrant parentBesideRemap parentBesideRemap_grantable
  have htargets := writebackGrant_loses_remap
  unfold targetsAfter at htargets
  rw [hexec] at htargets
  have hmem : firstTarget job ∈ t.palette.writes.map firstTarget := List.mem_map_of_mem hjob
  rw [Option.some.inj htargets, List.mem_singleton] at hmem
  obtain ⟨htile, haddr⟩ := Prod.mk.inj hmem
  rw [hplace, htile, parentBesideRemap_remapped] at haddr
  exact spare_ne_regionBase (Option.some.inj haddr)

end Sys2Proof.Machine
end

section
/-! The sharing directory and its rounds (R161, R283 to R288): what the entry and the round of a line are after each operation. -/
namespace Sys2Proof.Machine

theorem Frame.directory_eq {U : List UnitName} {s t : State} (h : Frame U s t) (hu : .directory ∉ U) :
    t.directory = s.directory := h .directory hu

/-! ### What depends on the directory alone -/

section
variable {s t : State} (h : t.directory = s.directory)
include h

theorem roundOf_congr (line : Nat) : roundOf t line = roundOf s line := by
  unfold roundOf
  rw [h]

theorem dirEntry_congr (e : Nat) : dirEntry t e = dirEntry s e := by
  unfold dirEntry
  rw [h]

theorem dirFind_congr (line : Nat) : dirFind t line = dirFind s line := by
  unfold dirFind
  simp only [dirEntry_congr h]

end

/-! ### The round of a line (R161, R286) -/

theorem roundOf_eq_none_iff {s : State} {line : Nat} :
    roundOf s line = none ↔ line ∉ s.directory.rounds.map SnoopRound.line := by
  simp [roundOf, List.find?_eq_none]

theorem line_of_roundOf {s : State} {line : Nat} {r : SnoopRound} (h : roundOf s line = some r) : r.line = line := by
  simpa using List.find?_some h

/-- A change of a line's round that leaves it the line's. -/
theorem roundOf_modRound {s : State} {line : Nat} {r : SnoopRound} (h : roundOf s line = some r) {f : SnoopRound → SnoopRound}
    (hf : ∀ x, x.line = line → (f x).line = line) : roundOf (modRound s line f) line = some (f r) := by
  have hsame : (fun x : SnoopRound => x.line == line) ∘ (fun x => if x.line = line then f x else x) =
      fun x => x.line == line := by
    funext x
    by_cases hx : x.line = line <;> simp [hx, hf]
  unfold roundOf modRound at *
  rw [List.find?_map, hsame, h, Option.map_some, if_pos (line_of_roundOf h)]

/-- The rounds are for the same lines, in the same order. -/
def RoundsKept (s t : State) : Prop :=
  t.directory.rounds.map SnoopRound.line = s.directory.rounds.map SnoopRound.line

theorem RoundsKept.trans {s t r : State} (h : RoundsKept s t) (k : RoundsKept t r) : RoundsKept s r := Eq.trans k h

theorem Frame.roundsKept {U : List UnitName} {s t : State} (h : Frame U s t) (hu : .directory ∉ U) : RoundsKept s t := by
  unfold RoundsKept
  rw [h.directory_eq hu]

theorem RoundsKept.roundOf_eq_none {s t : State} (h : RoundsKept s t) {line : Nat} (hnone : roundOf s line = none) :
    roundOf t line = none := by
  rw [roundOf_eq_none_iff] at *
  rwa [h]

/-! ### The entry of a line (R284, R285) -/

theorem of_dirFind {s : State} {line e : Nat} (h : dirFind s line = some e) :
    (dirEntry s e).presence ≠ 0 ∧ (dirEntry s e).tag = dirTag line := by
  simpa using List.find?_some h

/-- A line is still found in its entry where that holds the line and no other entry has changed. -/
theorem dirFind_of_kept {s t : State} {line e : Nat} (h : dirFind s line = some e)
    (hkept : ∀ k, k ≠ e → dirEntry t k = dirEntry s k) (hpresence : (dirEntry t e).presence ≠ 0)
    (htag : (dirEntry t e).tag = dirTag line) : dirFind t line = some e := by
  rw [← h]
  unfold dirFind
  refine List.find?_congr fun k _ => ?_
  by_cases hk : k = e
  · obtain ⟨hp, ht⟩ := of_dirFind h
    subst hk
    dsimp only
    rw [htag, ht, bne_iff_ne.mpr hpresence, bne_iff_ne.mpr hp]
  · rw [hkept k hk]

/-- What `putEntry` leaves in the entry it sets. -/
def entryPut (s : State) (tag presence : Nat) (exclusive : Bool) : DirEntry :=
  if presence = 0 then {} else { tag := tag, presence := presence, exclusive := exclusive, touch := s.directory.touches + 1 }

theorem dirEntry_putEntry (s : State) (e tag presence : Nat) (exclusive : Bool) (k : Nat) :
    dirEntry (putEntry s e tag presence exclusive) k = if k = e then entryPut s tag presence exclusive else dirEntry s k := by
  unfold putEntry entryPut
  split
  · exact dirEntry_modEntry s e k _
  · rw [dirEntry_congr ((maxStat_frame _ _ _ _).directory_eq (by decide)), dirEntry_modEntry]
    rfl

theorem presence_entryPut (s : State) (tag presence : Nat) (exclusive : Bool) :
    (entryPut s tag presence exclusive).presence = presence := by
  unfold entryPut
  split <;> simp_all

theorem exclusive_entryPut (s : State) (tag presence : Nat) (exclusive : Bool) :
    (entryPut s tag presence exclusive).exclusive = (exclusive && presence != 0) := by
  unfold entryPut
  split <;> simp_all

theorem putEntry_rounds (s : State) (e tag presence : Nat) (exclusive : Bool) :
    (putEntry s e tag presence exclusive).directory.rounds = s.directory.rounds := by
  unfold putEntry
  split
  · rfl
  · dsimp only
    rw [(maxStat_frame _ _ _ _).directory_eq (by decide)]
    rfl

/-! ### The answer of a holder (R285) -/

/-- An answer changes nothing, or sets one entry. -/
theorem holderAnswer_cases (s : State) (line q answer : Nat) :
    holderAnswer s line q answer = s ∨
      ∃ e tag presence exclusive, holderAnswer s line q answer = putEntry s e tag presence exclusive := by
  unfold holderAnswer
  split
  · exact .inl rfl
  · extract_lets x
    split_ifs
    · exact .inr ⟨_, _, _, _, rfl⟩
    · exact .inr ⟨_, _, _, _, rfl⟩
    · exact .inl rfl
    · exact .inl rfl

theorem holderAnswer_rounds (s : State) (line q answer : Nat) :
    (holderAnswer s line q answer).directory.rounds = s.directory.rounds := by
  obtain hnone | ⟨e, tag, presence, exclusive, hput⟩ := holderAnswer_cases s line q answer
  · rw [hnone]
  · rw [hput, putEntry_rounds]

theorem roundOf_holderAnswer (s : State) (line q answer l : Nat) :
    roundOf (holderAnswer s line q answer) l = roundOf s l := by
  unfold roundOf
  rw [holderAnswer_rounds]

section
variable {s : State} {line e q : Nat} (hfind : dirFind s line = some e)
include hfind

theorem holderAnswer_absent (hbit : bitOf (dirEntry s e).presence q = false) (answer : Nat) :
    holderAnswer s line q answer = s := by
  simp [holderAnswer, hfind, hbit]

/-- BIRspI takes the port out of the entry, and the exclusive state with the last port; BIRspS takes the exclusive state. -/
theorem holderAnswer_held (hbit : bitOf (dirEntry s e).presence q = true) (answer : Nat) :
    holderAnswer s line q answer =
      if answer = 0 then putEntry s e (dirEntry s e).tag ((dirEntry s e).presence - 2 ^ q)
        ((dirEntry s e).exclusive && (dirEntry s e).presence - 2 ^ q != 0)
      else if answer = 1 then putEntry s e (dirEntry s e).tag (dirEntry s e).presence false
      else s := by
  simp [holderAnswer, hfind, hbit]

/-- The answer leaves the entry free, or the line is still found in it. -/
theorem holderAnswer_entry (answer : Nat) :
    dirEntry (holderAnswer s line q answer) e = {} ∨ dirFind (holderAnswer s line q answer) line = some e := by
  obtain ⟨hpresence, htag⟩ := of_dirFind hfind
  have hput {n : Nat} (x : Bool) (hn : n ≠ 0) : dirFind (putEntry s e (dirEntry s e).tag n x) line = some e := by
    refine dirFind_of_kept hfind (fun k hk => ?_) ?_ ?_ <;> rw [dirEntry_putEntry]
    · rw [if_neg hk]
    · rwa [if_pos rfl, presence_entryPut]
    · rwa [if_pos rfl, entryPut, if_neg hn]
  cases hbit : bitOf (dirEntry s e).presence q with
  | false => exact .inr (by rwa [holderAnswer_absent hfind hbit])
  | true =>
    rw [holderAnswer_held hfind hbit]
    split
    · by_cases hleft : (dirEntry s e).presence - 2 ^ q = 0
      · exact .inl (by rw [dirEntry_putEntry, if_pos rfl, entryPut, if_pos hleft])
      · exact .inr (hput _ hleft)
    · split
      · exact .inr (hput _ hpresence)
      · exact .inr hfind

/-- The ports and the state that the answer leaves in the entry. -/
theorem dirEntry_holderAnswer (hbit : bitOf (dirEntry s e).presence q = true) (answer : Nat) :
    (dirEntry (holderAnswer s line q answer) e).presence =
        (if answer = 0 then (dirEntry s e).presence - 2 ^ q else (dirEntry s e).presence) ∧
      (dirEntry (holderAnswer s line q answer) e).exclusive =
        (if answer = 0 then (dirEntry s e).exclusive && (dirEntry s e).presence - 2 ^ q != 0
          else if answer = 1 then false else (dirEntry s e).exclusive) := by
  rw [holderAnswer_held hfind hbit]
  split
  · rw [dirEntry_putEntry, if_pos rfl, presence_entryPut, exclusive_entryPut, Bool.and_assoc, Bool.and_self]
    exact ⟨rfl, rfl⟩
  · split
    · rw [dirEntry_putEntry, if_pos rfl, presence_entryPut, exclusive_entryPut, Bool.false_and]
      exact ⟨rfl, rfl⟩
    · exact ⟨rfl, rfl⟩

end

/-! ### A round that is sent (R161, R163) -/

/-- The round of a request or of an eviction is outstanding, its snoops sent now. -/
def roundOpened (s : State) (r : SnoopRound) : State :=
  { s with directory := { s.directory with rounds := s.directory.rounds ++ [{ r with sentAt := s.sys.time }] } }

/-- One snoop of a round, counted at its port ([2B20.03]). -/
def snoopSent (line kind : Nat) (s : State) (q : Nat) : State :=
  emit (bump s (0x2B20 + q) 3 1) (.snoop (Fin.ofNat 4 q) line kind)

theorem sendRound_eq_foldl (s : State) (r : SnoopRound) (kind : Nat) :
    sendRound s r kind = r.waiting.foldl (snoopSent r.line kind) (roundOpened s r) := rfl

theorem snoopSent_frame (line kind : Nat) (s : State) (q : Nat) : Frame [.stats, .out] s (snoopSent line kind s q) :=
  Frame.step (emit_frame _ _) (Frame.mono (bump_frame s _ _ _) rfl) rfl

theorem sendRound_directory (s : State) (r : SnoopRound) (kind : Nat) :
    (sendRound s r kind).directory = (roundOpened s r).directory := by
  rw [sendRound_eq_foldl]
  exact (Frame.foldl (snoopSent_frame _ _) (.refl [.stats, .out] _)).directory_eq (by decide)

theorem roundOf_sendRound {s : State} {r : SnoopRound} (h : roundOf s r.line = none) (kind : Nat) :
    roundOf (sendRound s r kind) r.line = some { r with sentAt := s.sys.time } := by
  rw [roundOf_congr (sendRound_directory s r kind)]
  unfold roundOf at *
  simp [roundOpened, List.find?_append, h]

theorem dirEntry_sendRound (s : State) (r : SnoopRound) (kind e : Nat) : dirEntry (sendRound s r kind) e = dirEntry s e := by
  rw [dirEntry_congr (sendRound_directory s r kind)]
  rfl

theorem snoop_mem_sendRound {r : SnoopRound} {q : Nat} (hq : q ∈ r.waiting) (s : State) (kind : Nat) :
    Output.snoop (Fin.ofNat 4 q) r.line kind ∈ (sendRound s r kind).out := by
  obtain ⟨before, after, hsplit⟩ := List.append_of_mem hq
  rw [sendRound_eq_foldl, hsplit, List.foldl_append, List.foldl_cons]
  have hsent (x : State) : x.out <:+ (after.foldl (snoopSent r.line kind) x).out :=
    List.foldlRecOn (motive := fun t : State => x.out <:+ t.out) after _ List.suffix_rfl fun _ ht _ _ =>
      ht.trans (List.suffix_cons _ _)
  exact (hsent _).subset List.mem_cons_self

end Sys2Proof.Machine
end

section
/-! The end of a snoop round (R161, R285 to R287): the reads and writes that it answers open no round. -/
namespace Sys2Proof.Machine

/-! ### An answer to a host may acknowledge a conflict, and changes no other part of the rounds (R286) -/

theorem settleConflict_roundsKept (s : State) (p line : Nat) : RoundsKept s (settleConflict s p line) := by
  unfold settleConflict
  split
  · unfold RoundsKept
    rw [emit_directory, List.map_map]
    refine List.map_congr_left fun r _ => ?_
    by_cases hr : r.line = line <;> simp [hr]
  · exact rfl

theorem deliverRead_roundsKept (s : State) (w : ReadWait) (data : Line) (poison : Bool) :
    RoundsKept s (deliverRead s w data poison) := by
  cases hw : w.who with
  | host p tag =>
    obtain ⟨x, hx, hdeliver⟩ := deliverRead_host_load hw s data poison
    rw [hdeliver]
    exact (hx.roundsKept (by decide)).trans (((emit_frame _ _).roundsKept (by decide)).trans (settleConflict_roundsKept _ _ _))
  | barrow c load beat =>
    unfold deliverRead
    rw [hw]
    refine Frame.roundsKept (U := [.queues, .barrow, .perf, .stats]) ?_ (by decide)
    exact Frame.step (modBarrow_frame _ _ _) (Frame.step (sampleDone_frame _ _ _)
      (Frame.ite (Frame.mono (flagSample_frame s _ _) rfl) (.refl _ s)) rfl) rfl
  | scan p =>
    unfold deliverRead
    rw [hw]
    refine Frame.roundsKept (U := [.ports, .palette]) ?_ (by decide)
    exact Frame.ite (Frame.step (poisonInsert_frame _ _ _ _) (Frame.mono (modPort_frame s _ _) rfl) rfl) (.refl _ s)
  | clear p =>
    unfold deliverRead
    rw [hw]
    exact rfl

theorem missRead_go_roundsKept (w : ReadWait) (s : State) (line : Nat) : RoundsKept s (missRead.go w s line) := by
  unfold missRead.go
  split
  · refine RoundsKept.trans ?_ (deliverRead_roundsKept _ _ _ _)
    refine Frame.roundsKept (U := [.easel, .stats]) ?_ (by decide)
    have hbump : Frame [.easel, .stats] s (bump s 0x2780 9 1) := Frame.mono (bump_frame s _ _ _) rfl
    split
    · exact Frame.step (easelTouch_frame _ _ _) (Frame.step (modLine_frame _ _ _) hbump rfl) rfl
    · exact hbump
  · split
    · exact rfl
    · refine Frame.roundsKept (U := [.easel, .palette, .perf, .stats]) ?_ (by decide)
      have hlookups : Frame [.easel, .palette, .perf, .stats] s (lookupRemap (lookupPath s line) line) :=
        Frame.step (lookupRemap_frame _ _) (Frame.mono (lookupPath_frame s line) rfl) rfl
      dsimp only
      split
      · exact Frame.step (waitRead_frame _ _) (Frame.step (issueRead_frame _ _ _ _ _) (Frame.step (modLine_frame _ _ _)
          hlookups rfl) rfl) rfl
      · exact Frame.step (issueRead_frame _ _ _ _ _) (Frame.step (bump_frame _ _ _ _) hlookups rfl) rfl

theorem missRead_roundsKept (s : State) (w : ReadWait) : RoundsKept s (missRead s w) := by
  have hcounted : Frame [.perf, .stats] s (perfCount (bump s 0x2310 2 1) (requesterPort s w.who) 6 1) :=
    Frame.step (perfCount_frame _ _ _ _) (Frame.mono (bump_frame s _ _ _) rfl) rfl
  unfold missRead
  extract_lets line counted x
  have hx : RoundsKept s x := by
    unfold x
    split
    · exact (Frame.step (stamp_frame _ _ _) hcounted rfl).roundsKept (by decide)
    · exact hcounted.roundsKept (by decide)
  clear_value x
  refine hx.trans ?_
  split
  · split
    · exact deliverRead_roundsKept _ _ _ _
    · exact missRead_go_roundsKept _ _ _
  · exact missRead_go_roundsKept _ _ _

theorem bankRead_roundsKept (s : State) (w : ReadWait) : RoundsKept s (bankRead s w) := by
  unfold bankRead
  dsimp only
  refine ((stamp_frame s w.who 1).roundsKept (by decide)).trans ?_
  generalize stamp s w.who 1 = x
  split
  · exact deliverRead_roundsKept _ _ _ _
  · split
    · exact rfl
    · split
      · exact missRead_roundsKept _ _
      · split
        · exact ((perfCount_frame _ _ _ _).roundsKept (by decide)).trans (deliverRead_roundsKept _ _ _ _)
        · split
          · exact rfl
          · refine RoundsKept.trans ?_ (deliverRead_roundsKept _ _ _ _)
            refine Frame.roundsKept (U := [.easel, .perf, .stats]) ?_ (by decide)
            exact Frame.step (easelTouch_frame _ _ _) (Frame.step (perfCount_frame _ _ _ _) (Frame.step (flagSample_frame _ _ _)
              (Frame.mono (bump_frame _ _ _ _) rfl) rfl) rfl) rfl

theorem performRead_roundsKept (s : State) (w : ReadWait) : RoundsKept s (performRead s w) :=
  ((nextOrder_frame s).roundsKept (by decide)).trans (bankRead_roundsKept _ _)

theorem deliverAck_roundsKept (s : State) (a : AckWait) : RoundsKept s (deliverAck s a) := by
  unfold deliverAck
  split
  · extract_lets sampled monitored counted
    have hsampled : Frame [.queues, .perf, .stats] s sampled :=
      Frame.step (sampleDone_frame _ _ _) (Frame.ite (Frame.mono (flagSample_frame s _ _) rfl) (.refl _ s)) rfl
    have hmonitored : RoundsKept sampled monitored := (monitorWrite_frame _ _ _ _ _ _ _ _).roundsKept (by decide)
    have hcounted : Frame [.stats] monitored counted := Frame.ite (bump_frame _ _ _ _) (.refl _ _)
    exact (((hsampled.roundsKept (by decide)).trans hmonitored).trans (hcounted.roundsKept (by decide))).trans
      (((emit_frame _ _).roundsKept (by decide)).trans (settleConflict_roundsKept _ _ _))
  · exact (modBarrow_frame s _ _).roundsKept (by decide)
  · exact rfl

theorem settleAcks_roundsKept (s : State) : RoundsKept s (settleAcks s) :=
  List.foldlRecOn (motive := fun t : State => RoundsKept s t) _ deliverAck rfl fun t ht a _ => ht.trans (deliverAck_roundsKept t a)

/-! ### The last response (R161, R163, R287) -/

theorem dirApply_rounds (s : State) (line p : Nat) (write : Bool) (mv : Nat) :
    (dirApply s line p write mv).directory.rounds = s.directory.rounds := by
  unfold dirApply
  extract_lets bit
  split
  · split_ifs <;> exact putEntry_rounds ..
  · split
    · rfl
    · split
      · exact putEntry_rounds ..
      · rfl

theorem dirApply_roundsKept (s : State) (line p : Nat) (write : Bool) (mv : Nat) :
    RoundsKept s (dirApply s line p write mv) := congrArg _ (dirApply_rounds s line p write mv)

/-- A round is outstanding no more. -/
def roundClosed (s : State) (r : SnoopRound) : State :=
  { s with directory := { s.directory with rounds := s.directory.rounds.filter (fun x => x.line != r.line) } }

theorem roundOf_roundClosed (s : State) (r : SnoopRound) : roundOf (roundClosed s r) r.line = none := by
  simp [roundOf_eq_none_iff, roundClosed]

/-- The entry of a line is free. -/
def entryFreed (s : State) (line : Nat) : State :=
  match dirFind s line with
  | some e => modEntry s e (fun _ => {})
  | none => s

theorem dirEntry_entryFreed_of_find {s : State} {line e : Nat} (h : dirFind s line = some e) :
    dirEntry (entryFreed s line) e = {} := by
  unfold entryFreed
  rw [h]
  exact dirEntry_modEntry_self s e _

theorem dirEntry_entryFreed_of_free {s : State} {e : Nat} (h : dirEntry s e = {}) (line : Nat) :
    dirEntry (entryFreed s line) e = {} := by
  unfold entryFreed
  split
  · rw [dirEntry_modEntry, h, ite_self]
  · exact h

section
variable {r : SnoopRound} (hbehind : r.behind = [])
include hbehind

/-- An eviction frees the entry of its line (R287). -/
theorem endRound_eviction (hrequest : r.request = none) (s : State) :
    endRound s r = bump (entryFreed (roundClosed s r) r.line) 0x2B40 3 1 := by
  unfold endRound entryFreed
  rw [hbehind, hrequest]
  show (match dirFind (roundClosed s r) r.line with
    | some e => bump (modEntry (roundClosed s r) e (fun _ => {})) 0x2B40 3 1
    | none => bump (roundClosed s r) 0x2B40 3 1) = _
  cases dirFind (roundClosed s r) r.line <;> rfl

/-- What the end of a round lets go on opens no round, where nothing waited behind it. -/
theorem endRound_roundsKept (s : State) : RoundsKept (roundClosed s r) (endRound s r) := by
  cases hrequest : r.request with
  | none =>
    rw [endRound_eviction hbehind hrequest]
    unfold entryFreed
    split <;> exact rfl
  | some q =>
    unfold endRound
    rw [hbehind, hrequest]
    have hstamped (who : Requester) : RoundsKept (roundClosed s r) (stamp (roundClosed s r) who 7) :=
      (stamp_frame _ who 7).roundsKept (by decide)
    cases q with
    | read w => exact ((hstamped w.who).trans (dirApply_roundsKept _ _ _ _ _)).trans (performRead_roundsKept _ _)
    | write w =>
      show RoundsKept _ (settleAcks _)
      refine RoundsKept.trans ?_ (settleAcks_roundsKept _)
      refine ((hstamped w.who).trans (dirApply_roundsKept _ r.line (requesterNumber w.who) true w.metaValue)).trans ?_
      refine Frame.roundsKept (U := [.ports, .easel]) ?_ (by decide)
      exact Frame.upd_easel (Frame.foldl (fun x p => Frame.mono (modPort_frame x p _) rfl) (.refl _ _)) rfl

end

end Sys2Proof.Machine
end

section
/-! The responses of a holder to a snoop (R161, R285, R286, R288): BIRsp, BIConflict and the time-out. -/
namespace Sys2Proof.Machine

/-! ### A port that the line's round does not wait for -/

section
variable {s : State} {port : Port} {line : LineAddr} (h : ∀ x, roundOf s line.toNat = some x → port.val ∉ x.waiting)
include h

theorem exec_biSnoopResponse_stray (answer : Fin 3) : exec (.biSnoopResponse port line answer) s = .next s := by
  show execBiSnoopResponse port line answer s = .next s
  unfold execBiSnoopResponse
  cases hround : roundOf s line.toNat with
  | none => simp only [hround]
  | some r => simp [hround, h r hround]

theorem exec_biConflict_stray : exec (.biConflict port line) s = .next s := by
  show execBiConflict port line s = .next s
  unfold execBiConflict
  cases hround : roundOf s line.toNat with
  | none => simp only [hround]
  | some r => simp [hround, h r hround]

end

theorem exec_snoopTimeout_stray {s : State} {port : Port} {line : LineAddr}
    (h : ∀ x, roundOf s line.toNat = some x → port.val ∉ x.waiting ∨ port.val ∈ x.conflicts) :
    exec (.snoopTimeout port line) s = .next s := by
  show execSnoopTimeout port line s = .next s
  unfold execSnoopTimeout
  cases hround : roundOf s line.toNat with
  | none => simp only [hround]
  | some r =>
    have hstray : (r.waiting.contains port.val && !r.conflicts.contains port.val) = false := by
      rcases h r hround with hw | hc
      · simp [hw]
      · simp [hc]
    simp only [hround, hstray, Bool.false_eq_true, if_false]

/-! ### A response that its round waits for (R161, R285) -/

/-- A round that has had the response of a port. -/
def answered (r : SnoopRound) (q : Nat) : SnoopRound :=
  { r with waiting := r.waiting.erase q, conflicts := r.conflicts.erase q }

section
variable {s : State} {line q : Nat} {r : SnoopRound} (hround : roundOf s line = some r) (hwaits : q ∈ r.waiting)
include hround hwaits

theorem snoopAnswer_of_more (hmore : r.waiting.erase q ≠ []) (answer : Nat) :
    snoopAnswer s line q answer = modRound (holderAnswer s line q answer) line (fun _ => answered r q) := by
  simp [snoopAnswer, hround, hwaits, hmore, answered]

theorem snoopAnswer_of_last (hlast : r.waiting.erase q = []) (answer : Nat) :
    snoopAnswer s line q answer = endRound (holderAnswer s line q answer) (answered r q) := by
  simp [snoopAnswer, hround, hwaits, hlast, answered]

/-- The round goes on for the other ports. -/
theorem roundOf_snoopAnswer_of_more (hmore : r.waiting.erase q ≠ []) (answer : Nat) :
    roundOf (snoopAnswer s line q answer) line = some (answered r q) := by
  rw [snoopAnswer_of_more hround hwaits hmore]
  exact roundOf_modRound ((roundOf_holderAnswer ..).trans hround) fun _ _ => show r.line = line from line_of_roundOf hround

/-- The last response ends the round. -/
theorem roundOf_snoopAnswer_of_last (hlast : r.waiting.erase q = []) (hbehind : r.behind = []) (answer : Nat) :
    roundOf (snoopAnswer s line q answer) line = none := by
  rw [snoopAnswer_of_last hround hwaits hlast, ← line_of_roundOf hround]
  exact (endRound_roundsKept (r := answered r q) hbehind _).roundOf_eq_none (roundOf_roundClosed _ (answered r q))

/-- The last response to an eviction frees the entry of the line (R287). -/
theorem dirEntry_snoopAnswer_eviction (hlast : r.waiting.erase q = []) (hbehind : r.behind = []) (hrequest : r.request = none)
    {e : Nat} (hfind : dirFind s line = some e) (answer : Nat) : dirEntry (snoopAnswer s line q answer) e = {} := by
  rw [snoopAnswer_of_last hround hwaits hlast, endRound_eviction (r := answered r q) hbehind hrequest,
    dirEntry_congr (bump_directory _ _ _ _), show (answered r q).line = r.line from rfl,
    line_of_roundOf hround]
  rcases holderAnswer_entry hfind answer with hfree | hfound
  · exact dirEntry_entryFreed_of_free (s := roundClosed _ _) hfree line
  · exact dirEntry_entryFreed_of_find (s := roundClosed _ _) hfound

end

/-- Before its effect a late response is counted and recorded (R162). -/
theorem exec_biSnoopResponse_of_waiting {s : State} {port : Port} {line : LineAddr} {r : SnoopRound}
    (hround : roundOf s line.toNat = some r) (hwaits : port.val ∈ r.waiting) (answer : Fin 3) :
    ∃ x, Frame [.mgmt, .folio, .ledger, .stats, .out] s x ∧
      exec (.biSnoopResponse port line answer) s = .next (snoopAnswer x line.toNat port.val answer.val) := by
  refine ⟨if 400 * 64 ≤ s.sys.time - r.sentAt then raise (bump s 0x2600 7 1) 0x2602
      (leBytes 1 port.val ++ leBytes 6 (line.toNat * 64) ++ satBytes 4 ((s.sys.time - r.sentAt) / 64)) else s,
    Frame.ite (Frame.step (raise_frame _ _ _) (Frame.mono (bump_frame s _ _ _) rfl) rfl) (.refl _ s), ?_⟩
  show execBiSnoopResponse port line answer s = _
  unfold execBiSnoopResponse
  dsimp only
  rw [hround]
  exact if_pos (by simpa using hwaits)

/-! ### A conflict (R286) -/

/-- A round that notes a conflict to be acknowledged later. -/
def conflictNoted (p : Nat) (r : SnoopRound) : SnoopRound :=
  { r with conflicts := p :: r.conflicts.erase p }

theorem unanswered_congr {s t : State} (heasel : t.easel = s.easel) (hports : t.ports = s.ports) (p line : Nat) :
    unanswered t p line = unanswered s p line := by
  unfold unanswered portOf
  rw [heasel, hports]

theorem exec_biConflict_of_waiting {s : State} {port : Port} {line : LineAddr} {r : SnoopRound}
    (hround : roundOf s line.toNat = some r) (hwaits : port.val ∈ r.waiting) :
    ∃ x, Frame [.perf, .stats] s x ∧ exec (.biConflict port line) s =
      if unanswered s port.val line.toNat then .next (modRound x line.toNat (conflictNoted port.val))
      else .next (emit x (.biConflictAck port line.toNat)) := by
  have hcounted : Frame [.perf, .stats] s (perfCount (bump s (0x2B20 + port.val) 6 1) port.val 9 1) :=
    Frame.step (perfCount_frame _ _ _ _) (Frame.mono (bump_frame s _ _ _) rfl) rfl
  refine ⟨_, hcounted, ?_⟩
  show execBiConflict port line s = _
  unfold execBiConflict
  dsimp only
  rw [hround]
  dsimp only
  rw [if_pos (by simpa using hwaits), unanswered_congr (hcounted.easel_eq (by decide)) (hcounted.ports_eq (by decide))]
  rfl

/-! ### A time-out (R288, R295): what an event on another port leaves of a port -/

theorem bump_indexStatsKept (s : State) {idx i sub : Nat} (hi : i ≠ idx) (hsub : sub < 256) (n : Nat) :
    IndexStatsKept idx s (bump s i sub n) := by
  intro j hj
  rw [stat_bump, if_neg (by unfold objKey; omega)]

/-- An event counts in [3180] alone (R418). -/
theorem raise_indexStatsKept {idx : Nat} (hidx : idx ≠ 0x3180) (s : State) (code : Nat) (data : List Byte) :
    IndexStatsKept idx s (raise s code data) := by
  have hsuppress (tracked : Bool) : IndexStatsKept idx s (suppress s code tracked) := by
    have hbump := bump_indexStatsKept s (i := 0x3180) (sub := 0x0A) hidx.symm (by decide) 1
    unfold suppress
    split <;> exact hbump
  have hrecord : IndexStatsKept idx s (ledgerRecord s code data).1 := by
    unfold ledgerRecord
    split
    · exact (ledgerAssign_frame _ _ _ _).indexStatsKept (by decide) idx
    · split
      · split
        · exact (ledgerAssign_frame _ _ _ _).indexStatsKept (by decide) idx
        · exact hsuppress true
      · split
        · exact (ledgerAssign_frame _ _ _ _).indexStatsKept (by decide) idx
        · exact hsuppress false
  exact hrecord.trans ((raise_keeps_record s code data).indexStatsKept (by decide) idx)

theorem pushPacket_indexStatsKept {idx q : Nat} (hidx : queueIdx q ≠ idx) (s : State) (data : List Nat) :
    IndexStatsKept idx s (pushPacket s q data) := by
  have hword (x : State) (w : QWord) : IndexStatsKept idx x (pushWord x q w) := by
    have hfirst (f : QueueRec → QueueRec) : IndexStatsKept idx x (bump (modQueue x q f) (queueIdx q) 5 1) :=
      ((modQueue_frame x q f).indexStatsKept (by decide) idx).trans (bump_indexStatsKept _ hidx (by decide) 1)
    unfold pushWord
    dsimp only
    split
    · exact (hfirst _).trans (bump_indexStatsKept _ hidx (by decide) 1)
    · exact hfirst _
  have hnotice (x : State) (w : QWord) : IndexStatsKept idx x (noticeAfter x q w) := by
    have hfirst (f : QueueRec → QueueRec) := (modQueue_frame x q f).indexStatsKept (by decide) idx
    unfold noticeAfter
    dsimp only
    split
    · exact (hfirst _).trans (bump_indexStatsKept _ hidx (by decide) 1)
    · exact hfirst _
  exact List.foldlRecOn (motive := fun t => IndexStatsKept idx s t) _ _ (fun _ _ => rfl) fun x hx i _ =>
    hx.trans ((hword x _).trans (hnotice _ _))

/-- Port `p` is as it was, with its counts; and no tally counts but that of the full Ledger. -/
structure PortLeft (p : Nat) (s t : State) : Prop where
  port : portOf t p = portOf s p
  counts : IndexStatsKept (0x2B20 + p) s t
  tallies : ∀ j, j ≠ 151 → tabGet dNat t.folio.tallyPending j = tabGet dNat s.folio.tallyPending j

theorem PortLeft.refl (p : Nat) (s : State) : PortLeft p s s := ⟨rfl, fun _ _ => rfl, fun _ _ => rfl⟩

theorem PortLeft.trans {p : Nat} {s t r : State} (h : PortLeft p s t) (k : PortLeft p t r) : PortLeft p s r :=
  ⟨k.port.trans h.port, h.counts.trans k.counts, fun j hj => (k.tallies j hj).trans (h.tallies j hj)⟩

theorem Frame.portLeft {U : List UnitName} {s t : State} (h : Frame U s t) (hports : .ports ∉ U) (hfolio : .folio ∉ U) {p : Nat}
    (hcounts : IndexStatsKept (0x2B20 + p) s t) : PortLeft p s t where
  port := by
    unfold portOf
    rw [h.ports_eq hports]
  counts := hcounts
  tallies j _ := by rw [h.folio_eq hfolio]

theorem raise_portLeft {p : Nat} (hp : p < 4) (s : State) (code : Nat) (data : List Byte) : PortLeft p s (raise s code data) where
  port := by
    unfold portOf
    rw [(raise_frame s code data).ports_eq (by decide)]
  counts := raise_indexStatsKept (by omega) s code data
  tallies _ hj := raise_tallyPending hj s code data

section
variable {p q : Nat} (hq : q ≠ p)
include hq

theorem modPort_portLeft (s : State) (f : PortRec → PortRec) : PortLeft p s (modPort s q f) where
  port := by rw [portOf_modPort, if_neg hq.symm]
  counts := (modPort_frame s q f).indexStatsKept (by decide) _
  tallies _ _ := rfl

theorem bump_portLeft {sub : Nat} (hsub : sub < 256) (s : State) (n : Nat) : PortLeft p s (bump s (0x2B20 + q) sub n) :=
  (bump_frame s _ _ _).portLeft (by decide) (by decide) (bump_indexStatsKept s (by omega) hsub n)

variable (hp : p < 4)
include hp

theorem eventQueue_portLeft (s : State) (e : EventRec) : PortLeft p s (eventQueue s q e) := by
  have hpush (x : State) : PortLeft p x (pushPacket x (9 + q) (eventWords e)) :=
    (pushPacket_frame x _ _).portLeft (by decide) (by decide)
      (pushPacket_indexStatsKept (by unfold queueIdx; omega) x _)
  have hqueued (f : PortRec → PortRec) :
      PortLeft p s (bump (pushPacket (modPort s q f) (9 + q) (eventWords e)) (0x2B20 + q) 9 1) :=
    ((modPort_portLeft hq s f).trans (hpush _)).trans (bump_portLeft hq (by decide) _ 1)
  unfold eventQueue
  dsimp only
  split
  · exact (hqueued _).trans ((emit_frame _ _).portLeft (by decide) (by decide) fun _ _ => rfl)
  · exact hqueued _

/-- An event posted to another port. -/
theorem eventPost_portLeft (s : State) (log kind what dpa : Nat) : PortLeft p s (eventPost s q log kind what dpa) := by
  unfold eventPost
  dsimp only
  split
  · exact (modPort_portLeft hq s _).trans (eventQueue_portLeft hq hp _ _)
  · split
    · exact modPort_portLeft hq s _
    · exact ((modPort_portLeft hq s _).trans (bump_portLeft hq (sub := 0x0A) (by decide) _ 1)).trans (raise_portLeft hp _ _ _)

end

/-! ### The effect of a time-out (R288) -/

/-- The port is fenced from shared windows, with its count, event and tally. -/
def timeoutRecorded (s : State) (p line : Nat) : State :=
  tallyAdd (raise (bump (modPort s p (fun x => { x with fenced := true })) (0x2B20 + p) 5 1) 0x2B03
    (leBytes 1 p ++ leBytes 6 (line * 64))) 163

/-- The event that a port is fenced goes to the other ports whose links are up. -/
def fenceToldTo (p : Nat) (s : State) (q : Nat) : State :=
  if q ≠ p ∧ 2 ≤ (portOf s q).link ∧ (portOf s q).link ≤ 4 then eventPost s q 1 1 2 0 else s

/-- The event goes to every other port. -/
def othersTold (s : State) (p : Nat) : State := (List.range 4).foldl (fenceToldTo p) s

theorem exec_snoopTimeout_of_waiting {s : State} {port : Port} {line : LineAddr} {r : SnoopRound}
    (hround : roundOf s line.toNat = some r) (hwaits : port.val ∈ r.waiting) (hconflict : port.val ∉ r.conflicts) :
    exec (.snoopTimeout port line) s =
      .next (othersTold (timeoutRecorded (snoopAnswer s line.toNat port.val 0) port.val line.toNat) port.val) := by
  show execSnoopTimeout port line s = _
  unfold execSnoopTimeout
  dsimp only
  rw [hround]
  exact if_pos (by simp [hwaits, hconflict])

theorem othersTold_portLeft {p : Nat} (hp : p < 4) (s : State) : PortLeft p s (othersTold s p) := by
  refine List.foldlRecOn (motive := fun t => PortLeft p s t) _ _ (.refl p s) fun t ht q _ => ht.trans ?_
  unfold fenceToldTo
  split
  case isTrue h => exact eventPost_portLeft h.1 hp t 1 1 2 0
  case isFalse => exact .refl p t

theorem othersTold_frame (s : State) (p : Nat) : Frame [.mgmt, .folio, .ledger, .ports, .queues, .stats, .out] s (othersTold s p) :=
  Frame.foldl (fun x q => Frame.ite (eventPost_frame x q 1 1 2 0) (.refl _ x)) (.refl _ s)

theorem timeoutRecorded_frame (s : State) (p line : Nat) :
    Frame [.mgmt, .folio, .ledger, .ports, .stats, .out] s (timeoutRecorded s p line) :=
  Frame.step (tallyAdd_frame _ _) (Frame.step (raise_frame _ _ _) (Frame.step (bump_frame _ _ _ _)
    (Frame.mono (modPort_frame s _ _) rfl) rfl) rfl) rfl

theorem timeoutRecorded_fenced (s : State) (p line : Nat) : (portOf (timeoutRecorded s p line) p).fenced = true := by
  unfold timeoutRecorded
  rw [portOf, tallyAdd_ports, (raise_frame _ _ _).ports_eq (by decide), bump_ports]
  exact congrArg PortRec.fenced (portOf_modPort_self s p _)

theorem statBits_timeouts (port : Port) : statBits (0x2B20 + port.val) 5 = 32 := by
  revert port
  decide +kernel

theorem stat_timeoutRecorded (s : State) (port : Port) (line : Nat) :
    stat (timeoutRecorded s port.val line) (0x2B20 + port.val) 5 = (stat s (0x2B20 + port.val) 5 + 1) % 2 ^ 32 := by
  have hp := port.isLt
  unfold timeoutRecorded
  rw [(tallyAdd_frame _ _).stat (by decide), raise_indexStatsKept (by omega) _ _ _ 5 (by decide), stat_bump, if_pos rfl,
    statBits_timeouts, (modPort_frame _ _ _).stat (by decide)]
  rfl

theorem tally_timeoutRecorded (s : State) (p line : Nat) :
    tabGet dNat (timeoutRecorded s p line).folio.tallyPending 163 = min (tabGet dNat s.folio.tallyPending 163 + 1) 65535 := by
  unfold timeoutRecorded
  rw [tallyPending_tallyAdd, if_pos rfl, raise_tallyPending (by decide)]
  rfl

/-! ### What is counted of an answer that leaves the round open -/

theorem putEntry_indexStatsKept {idx : Nat} (hidx : idx ≠ 0x2B40) (s : State) (e tag presence : Nat) (exclusive : Bool) :
    IndexStatsKept idx s (putEntry s e tag presence exclusive) := by
  have hmax (x : State) (v : Int) : IndexStatsKept idx x (maxStat x 0x2B40 2 v) := by
    intro j hj
    unfold maxStat
    split
    · rw [stat_setStat, if_neg (by unfold objKey; omega)]
    · rfl
  unfold putEntry
  split
  · exact (modEntry_frame s e _).indexStatsKept (by decide) idx
  · exact IndexStatsKept.trans (fun _ _ => rfl) (hmax _ _)

theorem holderAnswer_indexStatsKept {idx : Nat} (hidx : idx ≠ 0x2B40) (s : State) (line q answer : Nat) :
    IndexStatsKept idx s (holderAnswer s line q answer) := by
  obtain hnone | ⟨e, tag, presence, exclusive, hput⟩ := holderAnswer_cases s line q answer
  · rw [hnone]
    exact fun _ _ => rfl
  · rw [hput]
    exact putEntry_indexStatsKept hidx s e tag presence exclusive

end Sys2Proof.Machine
end

section
/-! A set of the directory that is short of free ways gives up an entry (R287). -/
namespace Sys2Proof.Machine

/-- The entries of a set that may be given up: those of a line with no round outstanding. -/
def evictable (s : State) (set : Nat) : List Nat :=
  ((List.range 16).map (16 * set + ·)).filter (fun e =>
    (dirEntry s e).presence != 0 && (roundOf s (entryLine s e)).isNone)

/-- Order of the last touch of an entry. -/
def touchOf (s : State) (e : Nat) : Nat := (dirEntry s e).touch

/-- The search for the least recently touched entry, as `execDirectoryEviction` makes it. -/
def stalest (s : State) (es : List Nat) : Option Nat :=
  es.foldl (fun best e =>
    match best with
    | none => some e
    | some b => if (dirEntry s e).touch < (dirEntry s b).touch then some e else best) none

theorem stalest_eq_argmin (s : State) (es : List Nat) : stalest s es = es.argmin (touchOf s) := by
  unfold stalest List.argmin
  congr 1
  funext best e
  cases best <;> rfl

/-- The round of an eviction, which serves no request. -/
def evictionRound (s : State) (e : Nat) : SnoopRound :=
  { line := entryLine s e, waiting := (portsIn (dirEntry s e).presence).filter (snoopable s) }

/-- An entry is given up at once where no snoop can be sent for it, else its holders are snooped. -/
def giveUp (s : State) (e : Nat) : Host.Outcome State Fault Refusal :=
  if (evictionRound s e).waiting = [] then .next (bump (modEntry s e (fun _ => {})) 0x2B40 3 1)
  else .next (sendRound s (evictionRound s e) 2)

theorem exec_directoryEviction (set : Fin 2097152) (s : State) :
    exec (.directoryEviction set) s =
      if settingN s 0x2B00 3 ≤ freeWays s set.val then .next s
      else (stalest s (evictable s set.val)).elim (.next s) (giveUp s) := by
  show execDirectoryEviction set s = _
  unfold execDirectoryEviction
  dsimp only
  split
  · rfl
  · show (match stalest s (evictable s set.val) with
      | none => Host.Outcome.next s
      | some e => giveUp s e) = _
    cases stalest s (evictable s set.val) <;> rfl

/-- An entry that may be given up and was touched before every other such entry of its set is the one given up. -/
theorem stalest_evictable {s : State} {set i : Nat} (hi : i < 16) (hheld : (dirEntry s (16 * set + i)).presence ≠ 0)
    (hround : roundOf s (entryLine s (16 * set + i)) = none)
    (holdest : ∀ j, j < 16 → j ≠ i → (dirEntry s (16 * set + j)).presence ≠ 0 →
      roundOf s (entryLine s (16 * set + j)) = none → touchOf s (16 * set + i) < touchOf s (16 * set + j)) :
    stalest s (evictable s set) = some (16 * set + i) := by
  have hmem (e : Nat) : e ∈ evictable s set ↔
      (∃ j, j < 16 ∧ 16 * set + j = e) ∧ (dirEntry s e).presence ≠ 0 ∧ roundOf s (entryLine s e) = none := by
    simp [evictable]
  have hafter {e : Nat} (he : e ∈ evictable s set) (hne : e ≠ 16 * set + i) : touchOf s (16 * set + i) < touchOf s e := by
    obtain ⟨⟨j, hj, rfl⟩, hpresence, hnone⟩ := (hmem e).mp he
    exact holdest j hj (by omega) hpresence hnone
  rw [stalest_eq_argmin, List.argmin_eq_some_iff]
  refine ⟨(hmem _).mpr ⟨⟨i, hi, rfl⟩, hheld, hround⟩, fun e he => ?_, fun e he hle => ?_⟩
  · by_cases hne : e = 16 * set + i
    · rw [hne]
    · exact (hafter he hne).le
  · by_cases hne : e = 16 * set + i
    · rw [hne]
    · have := hafter he hne
      omega

theorem statBits_evictions : statBits 0x2B40 3 = 64 := by decide +kernel

end Sys2Proof.Machine
end

section
/-! A host read of a shared line that another port holds exclusively (R161, R285). -/
namespace Sys2Proof.Machine

theorem snoopable_congr {s t : State} (h : t.ports = s.ports) (p : Nat) : snoopable t p = snoopable s p := by
  unfold snoopable portOf
  rw [h]

/-- A read that is not fenced out and meets no soft error asks for its line, counted and sampled (R156, R460). -/
theorem hostRead_eq_lineRequest {s : State} {p : Port} {address dpa : Nat} (hserved : hostsServed s = true)
    (hdpa : hostDpa s p.val address = some dpa) (hfence : (portOf s p.val).fenced = false) (tag mv : Nat) :
    ∃ x w, Frame [.perf, .stats, .draws] s x ∧ w.line = dpa / 64 ∧ w.who = .host p.val tag ∧ w.metaValue = mv ∧
      hostRead s p.val tag address mv [.none, .none] = lineRequest x (.read w) := by
  have hcount := perfCount_frame s p.val 2 1
  have hway : Frame [.perf, .stats, .draws] s
      (sampleDraw (countWarm (perfCount s p.val 2 1) p.val (warmNow (perfCount s p.val 2 1) (dpa / 64) true)) (.host p.val tag)
        (dpa / 64) false
        (arrivalFlags (perfCount s p.val 2 1) (dpa / 64) (warmNow (perfCount s p.val 2 1) (dpa / 64) true))) :=
    Frame.step (sampleDraw_frame _ _ _ _ _) (Frame.step (countWarm_frame _ _ _) (Frame.mono hcount rfl) rfl) rfl
  unfold hostRead
  dsimp only
  rw [if_neg (ne_priming_of_hostsServed hserved), if_pos hserved, hostDpa_congr (hcount.ports_eq (by decide)), hdpa]
  dsimp only
  have hopen := congrArg (fun ports => (tabGet dPort ports p.val).fenced) (hway.ports_eq (by decide)) |>.trans hfence
  generalize sampleDraw _ _ _ _ _ = x at hway hopen ⊢
  rw [show (portOf x p.val).fenced = false from hopen, Bool.and_false, if_neg Bool.false_ne_true, meetUpsets_none]
  exact ⟨x, _, hway, rfl, rfl, rfl, rfl⟩

/-- The ports that a snoop of an exclusively held line goes to. -/
def otherHolders (s : State) (e p : Nat) : List Nat :=
  (portsIn (dirEntry s e).presence).filter (fun q => q != p && snoopable s q)

theorem otherHolders_congr {s t : State} (hdirectory : t.directory = s.directory) (hports : t.ports = s.ports) (e p : Nat) :
    otherHolders t e p = otherHolders s e p := by
  unfold otherHolders
  simp only [dirEntry_congr hdirectory, snoopable_congr hports]

theorem mem_otherHolders {s : State} {e p q : Nat} (hq : q < 4) (hne : q ≠ p) (hbit : bitOf (dirEntry s e).presence q = true)
    (hsnoop : snoopable s q = true) : q ∈ otherHolders s e p := by
  simp [otherHolders, portsIn, hq, hne, hbit, hsnoop]

theorem snoopsFor_exclusive {s : State} {line e : Nat} (hsuspect : tabGet dBool s.directory.suspect (dirSet line) = false)
    (hfind : dirFind s line = some e) (hexclusive : (dirEntry s e).exclusive = true) (p : Nat) :
    snoopsFor s line p false 1 = (1, otherHolders s e p) := by
  simp [snoopsFor, hsuspect, hfind, hexclusive, otherHolders]

/-- A read that needs snoops sends them, and its line is filled beside the round (R161). -/
theorem lineRequest_snoops {s : State} {w : ReadWait} {kind : Nat} {ports : List Nat} (hshared : sharedLine s w.line = true)
    (hround : roundOf s w.line = none)
    (hsnoops : ∀ t : State, t.directory = s.directory → t.ports = s.ports →
      snoopsFor t w.line (requesterNumber w.who) false w.metaValue = (kind, ports)) (hports : ports ≠ []) :
    ∃ x r, Frame [.easel, .perf] s x ∧ r.line = w.line ∧ r.waiting = ports ∧
      lineRequest s (.read w) = prefetch (sendRound x r kind) w.line := by
  have hcount := perfCount_frame s 12 7 1
  have hkind := hsnoops (perfCount s 12 7 1) (hcount.directory_eq (by decide)) (hcount.ports_eq (by decide))
  unfold lineRequest
  dsimp only
  rw [hshared, if_neg (by decide), roundOf_congr (hcount.directory_eq (by decide)), hround]
  dsimp only
  rw [hkind]
  dsimp only
  rw [if_neg hports]
  refine ⟨_, _, ?_, ?_, ?_, rfl⟩
  · exact Frame.ite (Frame.step (perfCount_frame _ _ _ _) (Frame.step (nextOrder_frame _) (Frame.mono hcount rfl) rfl) rfl)
      (Frame.step (nextOrder_frame _) (Frame.mono hcount rfl) rfl)
  · rfl
  · rfl

/-- The snoop of a holder is out, the round waits for it, and the fill beside the round changes neither entries nor medium. -/
theorem hostRead_snoops {s : State} {p : Port} {address dpa e q : Nat} (hserved : hostsServed s = true)
    (hdpa : hostDpa s p.val address = some dpa) (hshared : sharedLine s (dpa / 64) = true)
    (hfence : (portOf s p.val).fenced = false) (hround : roundOf s (dpa / 64) = none)
    (hsuspect : tabGet dBool s.directory.suspect (dirSet (dpa / 64)) = false) (hfind : dirFind s (dpa / 64) = some e)
    (hexclusive : (dirEntry s e).exclusive = true) (hq : q ∈ otherHolders s e p.val) (tag : Nat) :
    Output.snoop (Fin.ofNat 4 q) (dpa / 64) 1 ∈ (hostRead s p.val tag address 1 [.none, .none]).out ∧
      (∃ r, roundOf (hostRead s p.val tag address 1 [.none, .none]) (dpa / 64) = some r ∧ q ∈ r.waiting) ∧
      (hostRead s p.val tag address 1 [.none, .none]).directory.entries = s.directory.entries ∧
      (hostRead s p.val tag address 1 [.none, .none]).path = s.path := by
  obtain ⟨x, w, hx, hline, hwho, hmeta, hread⟩ := hostRead_eq_lineRequest hserved hdpa hfence tag 1
  have hxdir := hx.directory_eq (by decide)
  obtain ⟨y, r, hy, hrline, hrports, hsend⟩ := lineRequest_snoops (s := x) (w := w) (kind := 1) (ports := otherHolders s e p.val)
    (by rw [sharedLine_congr (hx.settings_eq (by decide)) (hx.path_eq (by decide)), hline, hshared])
    (by rw [roundOf_congr hxdir, hline, hround])
    (fun t htdir htports => by
      have hdir := htdir.trans hxdir
      have hports := htports.trans (hx.ports_eq (by decide))
      rw [hline, hwho, hmeta]
      refine (snoopsFor_exclusive (e := e) ?_ ?_ ?_ p.val).trans ?_
      · rw [hdir, hsuspect]
      · rw [dirFind_congr hdir, hfind]
      · rw [dirEntry_congr hdir, hexclusive]
      · rw [otherHolders_congr hdir hports])
    (List.ne_nil_of_mem hq)
  rw [hline] at hrline hsend
  have hfill := prefetch_frame (sendRound y r 1) (dpa / 64)
  have hydir := (hy.directory_eq (by decide)).trans hxdir
  rw [hread, hsend]
  have hrq : q ∈ r.waiting := hrports ▸ hq
  refine ⟨?_, ⟨{ r with sentAt := y.sys.time }, ?_, hrq⟩, ?_, ?_⟩
  · rw [hfill.out_eq (by decide), ← hrline]
    exact snoop_mem_sendRound hrq y 1
  · rw [roundOf_congr (hfill.directory_eq (by decide)), ← hrline]
    exact roundOf_sendRound ((roundOf_congr hydir _).trans (hrline ▸ hround)) 1
  · rw [hfill.directory_eq (by decide), sendRound_directory, ← hydir]
    rfl
  · rw [hfill.path_eq (by decide), (sendRound_frame _ _ _).path_eq (by decide), hy.path_eq (by decide), hx.path_eq (by decide)]

end Sys2Proof.Machine
end

section
/-! The sharing directory (O35): the read that snoops, the responses, and the evictions. -/
namespace Sys2Proof.Machine

/-- The units that a response or a time-out may change. -/
def sharingUnits : List UnitName := [.mgmt, .folio, .ledger, .reserve, .ports, .groups, .easel, .palette, .directory, .queues,
  .barrow, .perf, .stats, .out]

theorem completes_exclusiveRead (port : Port) (tag : BitVec 16) (address : BitVec 52) (line e q : Nat) (hq : q < 4)
    (hne : q ≠ port.val) :
    Completes (.hostRead port tag address 1 .none .none) hostReadUnits
      (fun s => linkUp s port.val = true ∧ hostsServed s = true ∧
        (∃ dpa, hostDpa s port.val address.toNat = some dpa ∧ dpa / 64 = line) ∧ sharedLine s line = true ∧
        (portOf s port.val).fenced = false ∧ roundOf s line = none ∧ tabGet dBool s.directory.suspect (dirSet line) = false ∧
        dirFind s line = some e ∧ (dirEntry s e).exclusive = true ∧ bitOf (dirEntry s e).presence q = true ∧
        snoopable s q = true)
      (fun s t => Output.snoop (Fin.ofNat 4 q) line 1 ∈ t.out ∧ (∃ r, roundOf t line = some r ∧ q ∈ r.waiting) ∧
        dirEntry t e = dirEntry s e ∧ t.path.medium = s.path.medium) := by
  refine completes_hostRead ?_
  rintro s ⟨hlink, hserved, ⟨dpa, hdpa, rfl⟩, hshared, hfence, hround, hsuspect, hfind, hexclusive, hbit, hsnoop⟩
  obtain ⟨hout, hwaits, hentries, hpath⟩ := hostRead_snoops hserved hdpa hshared hfence hround hsuspect hfind hexclusive
    (mem_otherHolders hq hne hbit hsnoop) tag.toNat
  refine ⟨hlink, hout, hwaits, ?_, congrArg Path.medium hpath⟩
  unfold dirEntry
  rw [← hentries]
  rfl

section
variable (port : Port) (line : LineAddr)

theorem completes_strayResponse (answer : Fin 3) :
    ∀ c ∈ [Instr.biSnoopResponse port line answer, .biConflict port line, .snoopTimeout port line],
      Completes c [] (fun s => ∀ x, roundOf s line.toNat = some x → port.val ∉ x.waiting) (fun _ _ => True) := by
  intro c hc s hstray
  refine ⟨s, ?_, .refl _ s, trivial⟩
  simp only [List.mem_cons, List.not_mem_nil, or_false] at hc
  rcases hc with rfl | rfl | rfl
  · exact exec_biSnoopResponse_stray hstray answer
  · exact exec_biConflict_stray hstray
  · exact exec_snoopTimeout_stray fun x hx => .inl (hstray x hx)

variable (r : SnoopRound)

/-- The round of the line waits for the port. -/
def RoundWaits (s : State) : Prop := roundOf s line.toNat = some r ∧ port.val ∈ r.waiting

theorem completes_response_of_more (answer : Fin 3) :
    Completes (.biSnoopResponse port line answer) sharingUnits
      (fun s => RoundWaits port line r s ∧ r.waiting.erase port.val ≠ [])
      (fun s t => roundOf t line.toNat = some (answered r port.val) ∧
        ∀ e, dirFind s line.toNat = some e → bitOf (dirEntry s e).presence port.val = true →
          (dirEntry t e).presence =
            (if answer.val = 0 then (dirEntry s e).presence - 2 ^ port.val else (dirEntry s e).presence) ∧
          (dirEntry t e).exclusive =
            (if answer.val = 0 then (dirEntry s e).exclusive && (dirEntry s e).presence - 2 ^ port.val != 0
              else if answer.val = 1 then false else (dirEntry s e).exclusive)) := by
  rintro s ⟨⟨hround, hwaits⟩, hmore⟩
  obtain ⟨x, hx, hexec⟩ := exec_biSnoopResponse_of_waiting hround hwaits answer
  have hdir := hx.directory_eq (by decide)
  have hround' := (roundOf_congr hdir _).trans hround
  refine ⟨_, hexec, Frame.step (snoopAnswer_frame _ _ _ _) (Frame.mono hx rfl) rfl,
    roundOf_snoopAnswer_of_more hround' hwaits hmore _, fun e hfind hbit => ?_⟩
  rw [← dirEntry_congr hdir] at hbit ⊢
  rw [snoopAnswer_of_more hround' hwaits hmore]
  exact dirEntry_holderAnswer ((dirFind_congr hdir _).trans hfind) hbit answer.val

theorem completes_response_of_last (answer : Fin 3) :
    Completes (.biSnoopResponse port line answer) sharingUnits
      (fun s => RoundWaits port line r s ∧ r.waiting.erase port.val = [] ∧ r.behind = [])
      (fun s t => roundOf t line.toNat = none ∧
        (r.request = none → ∀ e, dirFind s line.toNat = some e → dirEntry t e = {})) := by
  rintro s ⟨⟨hround, hwaits⟩, hlast, hbehind⟩
  obtain ⟨x, hx, hexec⟩ := exec_biSnoopResponse_of_waiting hround hwaits answer
  have hdir := hx.directory_eq (by decide)
  have hround' := (roundOf_congr hdir _).trans hround
  exact ⟨_, hexec, Frame.step (snoopAnswer_frame _ _ _ _) (Frame.mono hx rfl) rfl,
    roundOf_snoopAnswer_of_last hround' hwaits hlast hbehind _, fun hrequest e hfind =>
      dirEntry_snoopAnswer_eviction hround' hwaits hlast hbehind hrequest ((dirFind_congr hdir _).trans hfind) _⟩

theorem completes_timeout :
    Completes (.snoopTimeout port line) sharingUnits
      (fun s => RoundWaits port line r s ∧ port.val ∉ r.conflicts ∧ r.waiting.erase port.val ≠ [])
      (fun s t => (portOf t port.val).fenced = true ∧
        stat t (0x2B20 + port.val) 5 = (stat s (0x2B20 + port.val) 5 + 1) % 2 ^ 32 ∧
        roundOf t line.toNat = some (answered r port.val) ∧
        tabGet dNat t.folio.tallyPending 163 = min (tabGet dNat s.folio.tallyPending 163 + 1) 65535) := by
  rintro s ⟨⟨hround, hwaits⟩, hconflict, hmore⟩
  have hp := port.isLt
  have hanswer := snoopAnswer_of_more hround hwaits hmore 0
  have hkept : IndexStatsKept (0x2B20 + port.val) s (snoopAnswer s line.toNat port.val 0) := by
    rw [hanswer]
    exact (holderAnswer_indexStatsKept (by omega) s _ _ _).trans ((modRound_frame _ _ _).indexStatsKept (by decide) _)
  have hfolio : (snoopAnswer s line.toNat port.val 0).folio = s.folio := by
    rw [hanswer, (modRound_frame _ _ _).folio_eq (by decide), (holderAnswer_frame _ _ _ _).folio_eq (by decide)]
  have hanswered := roundOf_snoopAnswer_of_more hround hwaits hmore 0
  have hframe := snoopAnswer_frame s line.toNat port.val 0
  have hexec := exec_snoopTimeout_of_waiting hround hwaits hconflict
  generalize snoopAnswer s line.toNat port.val 0 = x at hkept hfolio hanswered hframe hexec
  have hrecorded := timeoutRecorded_frame x port.val line.toNat
  have htold := othersTold_frame (timeoutRecorded x port.val line.toNat) port.val
  have hleft := othersTold_portLeft hp (timeoutRecorded x port.val line.toNat)
  refine ⟨_, hexec, Frame.step htold (Frame.step hrecorded (Frame.mono hframe rfl) rfl) rfl, ?_, ?_, ?_, ?_⟩
  · rw [hleft.port, timeoutRecorded_fenced]
  · rw [hleft.counts 5 (by decide), stat_timeoutRecorded, hkept 5 (by decide)]
  · rw [roundOf_congr (htold.directory_eq (by decide)), roundOf_congr (hrecorded.directory_eq (by decide)), hanswered]
  · rw [hleft.tallies 163 (by decide), tally_timeoutRecorded, hfolio]

theorem completes_timeout_of_conflict :
    Completes (.snoopTimeout port line) [] (fun s => RoundWaits port line r s ∧ port.val ∈ r.conflicts)
      (fun _ _ => True) := by
  rintro s ⟨⟨hround, -⟩, hconflict⟩
  refine ⟨s, exec_snoopTimeout_stray fun x hx => .inr ?_, .refl _ s, trivial⟩
  rwa [← Option.some.inj (hround.symm.trans hx)]

theorem completes_conflict_acknowledged :
    Completes (.biConflict port line) [.perf, .stats, .out]
      (fun s => RoundWaits port line r s ∧ unanswered s port.val line.toNat = false)
      (fun s t => t.out = .biConflictAck port line.toNat :: s.out) := by
  rintro s ⟨⟨hround, hwaits⟩, hfree⟩
  obtain ⟨x, hx, hexec⟩ := exec_biConflict_of_waiting hround hwaits
  rw [hfree, if_neg Bool.false_ne_true] at hexec
  exact ⟨_, hexec, Frame.step (emit_frame _ _) (Frame.mono hx rfl) rfl, congrArg (_ :: ·) (hx.out_eq (by decide))⟩

theorem completes_conflict_noted :
    Completes (.biConflict port line) [.directory, .perf, .stats]
      (fun s => RoundWaits port line r s ∧ unanswered s port.val line.toNat = true)
      (fun _ t => ∃ x, roundOf t line.toNat = some x ∧ port.val ∈ x.conflicts ∧ x.waiting = r.waiting) := by
  rintro s ⟨⟨hround, hwaits⟩, hbusy⟩
  obtain ⟨x, hx, hexec⟩ := exec_biConflict_of_waiting hround hwaits
  rw [if_pos hbusy] at hexec
  exact ⟨_, hexec, Frame.step (modRound_frame _ _ _) (Frame.mono hx rfl) rfl, conflictNoted port.val r,
    roundOf_modRound ((roundOf_congr (hx.directory_eq (by decide)) _).trans hround) fun _ hx => hx,
    List.mem_cons_self, rfl⟩

end

section
variable (set : Fin 2097152)

/-- Entry `i` of a set short of free ways is held, has no round, and was touched before every other such entry of the set. -/
def Oldest (i : Nat) (s : State) : Prop :=
  freeWays s set.val < settingN s 0x2B00 3 ∧ (dirEntry s (16 * set.val + i)).presence ≠ 0 ∧
    roundOf s (entryLine s (16 * set.val + i)) = none ∧
    ∀ j, j < 16 → j ≠ i → (dirEntry s (16 * set.val + j)).presence ≠ 0 → roundOf s (entryLine s (16 * set.val + j)) = none →
      (dirEntry s (16 * set.val + i)).touch < (dirEntry s (16 * set.val + j)).touch

theorem exec_directoryEviction_of_oldest {i : Nat} (hi : i < 16) {s : State} (h : Oldest set i s) :
    exec (.directoryEviction set) s = giveUp s (16 * set.val + i) := by
  obtain ⟨hshort, hheld, hround, holdest⟩ := h
  rw [exec_directoryEviction, if_neg (by omega), stalest_evictable hi hheld hround holdest]
  rfl

theorem completes_eviction_unheld {i : Nat} (hi : i < 16) :
    Completes (.directoryEviction set) [.directory, .stats]
      (fun s => Oldest set i s ∧ (portsIn (dirEntry s (16 * set.val + i)).presence).filter (snoopable s) = [])
      (fun s t => (∀ k, dirEntry t k = if k = 16 * set.val + i then {} else dirEntry s k) ∧
        stat t 0x2B40 3 = (stat s 0x2B40 3 + 1) % 2 ^ 64) := by
  rintro s ⟨holdest, hholders⟩
  refine ⟨_, (exec_directoryEviction_of_oldest set hi holdest).trans (if_pos hholders),
    Frame.step (bump_frame _ _ _ _) (Frame.mono (modEntry_frame s _ _) rfl) rfl, fun k => ?_, ?_⟩
  · exact dirEntry_modEntry s _ k _
  · rw [stat_bump, if_pos rfl, statBits_evictions, (modEntry_frame _ _ _).stat (by decide)]
    rfl

theorem completes_eviction_snooped {i : Nat} (hi : i < 16) :
    Completes (.directoryEviction set) [.directory, .stats, .out]
      (fun s => Oldest set i s ∧ (portsIn (dirEntry s (16 * set.val + i)).presence).filter (snoopable s) ≠ [])
      (fun s t => (∀ k, dirEntry t k = dirEntry s k) ∧
        (∃ r, roundOf t (entryLine s (16 * set.val + i)) = some r ∧
          r.waiting = (portsIn (dirEntry s (16 * set.val + i)).presence).filter (snoopable s) ∧ r.request = none) ∧
        ∀ q ∈ (portsIn (dirEntry s (16 * set.val + i)).presence).filter (snoopable s),
          Output.snoop (Fin.ofNat 4 q) (entryLine s (16 * set.val + i)) 2 ∈ t.out) := by
  rintro s ⟨holdest, hholders⟩
  have hexec := (exec_directoryEviction_of_oldest set hi holdest).trans (if_neg hholders)
  obtain ⟨-, -, hround, -⟩ := holdest
  exact ⟨_, hexec, sendRound_frame _ _ _, dirEntry_sendRound s _ 2, ⟨_, roundOf_sendRound hround 2, rfl, rfl⟩,
    fun _ hq => snoop_mem_sendRound (r := evictionRound s (16 * set.val + i)) hq s 2⟩

theorem completes_eviction_ample :
    Completes (.directoryEviction set) [] (fun s => settingN s 0x2B00 3 ≤ freeWays s set.val) (fun _ _ => True) := by
  intro s hample
  exact ⟨s, (exec_directoryEviction set s).trans (if_pos hample), .refl _ s, trivial⟩

end

/-- Settles O35. A response acts on the round and on the entry of its line alone, until the last one ends the round; what the end lets
go on opens no round for the line. -/
theorem sharing : Obligations.Sharing := by
  unfold Obligations.Sharing
  intro units
  refine ⟨completes_exclusiveRead, fun port line answer r => ⟨completes_strayResponse port line answer,
    completes_response_of_more port line r answer, completes_response_of_last port line r answer, completes_timeout port line r,
    completes_timeout_of_conflict port line r, completes_conflict_acknowledged port line r, completes_conflict_noted port line r⟩,
    fun set i hi => ⟨completes_eviction_unheld set hi, completes_eviction_snooped set hi, completes_eviction_ample set⟩⟩

end Sys2Proof.Machine
end

section
/-! Requests with an effect of their own, and what the keys and their store are after each operation (R182 to R184). -/
namespace Sys2Proof.Machine

/-! ### Requests with an effect of their own (R424, R433) -/

/-- A request whose effect answers a state is served with that state. -/
theorem serves_of_effect {c : Instr} {via : Via} {level : Level} {units : List UnitName} {idx sub : Nat} {data : List Byte}
    {eff : Nat → State → Except Nat State} {before : Nat → State → Prop} {after : Nat → State → State → Prop}
    (hexec : ∀ s, exec c s = .next (served s via idx sub data eff)) (hfits : writeFits level idx sub data = true)
    (heff : ∀ n s, before n s → ∃ t, eff n s = .ok t ∧ Frame units s t ∧ after n s t) :
    Serves c via level units before after := by
  intro s n s' hready hbefore
  obtain ⟨t, ht, hframe, hafter⟩ := heff n s' hbefore
  exact ⟨t, (hexec s).trans (congrArg _ (served_ready hready hfits ht)), hframe, hafter⟩

/-- A request whose effect answers a detail code is rejected by it. -/
theorem rejects_of_effect {c : Instr} {via : Via} {level : Level} {idx sub d : Nat} {data : List Byte}
    {eff : Nat → State → Except Nat State} {before : Nat → State → Prop}
    (hexec : ∀ s, exec c s = .next (served s via idx sub data eff)) (hfits : writeFits level idx sub data = true)
    (heff : ∀ n s, before n s → eff n s = .error d) : Rejects c via level d idx sub before :=
  fun s n s' hready hbefore => (hexec s).trans (congrArg _ (served_error hready hfits (heff n s' hbefore)))

/-! ### Passes over a list -/

/-- What one element of a list brings about, in every state the pass can meet, and what no other undoes, holds after the pass. -/
theorem foldl_holds_of_mem {α : Type} {f : State → α → State} {Inv P : State → Prop} (hinv : ∀ x a, Inv x → Inv (f x a))
    (hkeep : ∀ x a, P x → P (f x a)) {a : α} (hset : ∀ x, Inv x → P (f x a)) {l : List α} (hmem : a ∈ l) {s : State}
    (hs : Inv s) : P (l.foldl f s) := by
  obtain ⟨before, after, rfl⟩ := List.append_of_mem hmem
  rw [List.foldl_append, List.foldl_cons]
  have hreached : Inv (before.foldl f s) := List.foldlRecOn (motive := Inv) _ f hs fun x hx b _ => hinv x b hx
  exact List.foldlRecOn (motive := P) _ f (hset _ hreached) fun x hx b _ => hkeep x b hx

/-! ### The key store (R184) -/

/-- The key store has been written `k` times more. -/
def KeysStored (k : Nat) (s t : State) : Prop :=
  t.crypt.storeSeq = s.crypt.storeSeq + k ∧ ∃ j ∈ t.folio.queue, j.task = .keyStore ∧ j.cls = 2

theorem keyStoreUpdate_crypt (s : State) :
    (keyStoreUpdate s).crypt = { s.crypt with storeSeq := s.crypt.storeSeq + 1 } := rfl

theorem keysStored_keyStoreUpdate {s t : State} (h : t.crypt.storeSeq = s.crypt.storeSeq) :
    KeysStored 1 s (keyStoreUpdate t) := by
  refine ⟨congrArg (· + 1) h, _, List.mem_append_right _ (List.mem_singleton_self _), rfl, rfl⟩

/-- An event leaves the updates of the Folio that wait. -/
theorem raise_folioQueue (s : State) (code : Nat) (data : List Byte) : (raise s code data).folio.queue = s.folio.queue := by
  have hassign (x : State) : (ledgerAssign x code data false).1.folio.queue = x.folio.queue := by
    unfold ledgerAssign
    split <;> rfl
  have hsuppress (tracked : Bool) : (suppress s code tracked).folio.queue = s.folio.queue :=
    congrArg Folio.queue ((suppress_frame s code tracked).folio_eq (by decide))
  have hrecord : (ledgerRecord s code data).1.folio.queue = s.folio.queue := by
    unfold ledgerRecord
    split
    · exact hassign _
    · split
      · split
        · exact hassign _
        · exact hsuppress _
      · split
        · exact hassign _
        · exact hsuppress _
  rw [(raise_keeps_record s code data).folio_eq (by decide), hrecord]

theorem KeysStored.raise {k : Nat} {s t : State} (h : KeysStored k s t) (code : Nat) (data : List Byte) :
    KeysStored k s (raise t code data) := by
  obtain ⟨hseq, hqueue⟩ := h
  have hcrypt := (raise_frame t code data).crypt_eq (by decide)
  exact ⟨by rw [hcrypt, hseq], by rwa [raise_folioQueue]⟩

/-! ### The key ranges -/

/-- Every key range but `r` is as before. -/
def RangesKept (r : Nat) (s t : State) : Prop :=
  ∀ q, q ≠ r → rangeRec t q = rangeRec s q

theorem rangeRec_congr {s t : State} (h : t.crypt.ranges = s.crypt.ranges) (q : Nat) : rangeRec t q = rangeRec s q := by
  unfold rangeRec
  rw [h]

theorem rangeRec_of_modRange {s t : State} {r : Nat} {f : RangeRec → RangeRec}
    (h : t.crypt.ranges = (modRange s r f).crypt.ranges) : rangeRec t r = f (rangeRec s r) :=
  (rangeRec_congr h r).trans (rangeRec_modRange_self s r f)

theorem rangesKept_of_modRange {s t : State} {r : Nat} {f : RangeRec → RangeRec}
    (h : t.crypt.ranges = (modRange s r f).crypt.ranges) : RangesKept r s t :=
  fun q hq => (rangeRec_congr h q).trans ((rangeRec_modRange s r q f).trans (if_neg hq))

/-! ### What every range command is rejected for (R182, R207) -/

/-- No other range's operation runs, no close of this range does, and the ephemeral key is not in use. -/
def RangeIdle (s : State) (r : Nat) : Prop :=
  ephemeralState s = false ∧ s.crypt.glaze.range = none ∧ (rangeRec s r).closing = false

theorem rangeGuard_of_idle {s : State} {r : Nat} (h : RangeIdle s r) : rangeGuard s r = none := by
  obtain ⟨hlasting, hengine, hopen⟩ := h
  simp [rangeGuard, hlasting, hengine, hopen]

theorem rangeGuard_of_ephemeral {s : State} (h : ephemeralState s = true) (r : Nat) : rangeGuard s r = some 0x270B :=
  if_pos h

theorem rangeGuard_of_busy {s : State} {r : Nat} (hlasting : ephemeralState s = false)
    (hbusy : (∃ q, s.crypt.glaze.range = some q ∧ q ≠ r) ∨ (rangeRec s r).closing = true) :
    rangeGuard s r = some 0x2709 := by
  unfold rangeGuard
  rw [if_neg (by simp [hlasting]), if_pos]
  rcases hbusy with ⟨q, hq, hne⟩ | hclosing
  · simp [hq, hne]
  · simp [hclosing]

/-- A range command whose effect heeds the guard, and a state of the range besides, is rejected by code. -/
theorem rejects_rangeCommand {c : Instr} {via : Via} {r : Nat} {data : List Byte} {eff : State → Except Nat State}
    {turned : Nat → Prop} (hexec : ∀ s, exec c s = .next (served s via (0x2710 + r) 6 data fun _ s => eff s))
    (hfits : writeFits .maintainer (0x2710 + r) 6 data = true)
    (hguard : ∀ s d, rangeGuard s r = some d → eff s = .error d)
    (hstate : ∀ s, rangeGuard s r = none → turned (rangeRec s r).state → eff s = .error 0x2709) :
    Rejects c via .maintainer 0x270B (0x2710 + r) 6 (fun _ s => ephemeralState s = true) ∧
    Rejects c via .maintainer 0x2709 (0x2710 + r) 6 (fun _ s => ephemeralState s = false ∧
      ((∃ q, s.crypt.glaze.range = some q ∧ q ≠ r) ∨ (rangeRec s r).closing = true ∨ turned (rangeRec s r).state)) := by
  refine ⟨rejects_of_effect hexec hfits fun _ s h => hguard s _ (rangeGuard_of_ephemeral h r),
    rejects_of_effect hexec hfits fun _ s ⟨hlasting, hturned⟩ => ?_⟩
  by_cases hbusy : (∃ q, s.crypt.glaze.range = some q ∧ q ≠ r) ∨ (rangeRec s r).closing = true
  · exact hguard s _ (rangeGuard_of_busy hlasting hbusy)
  · have hfree : rangeGuard s r = none := by
      obtain ⟨hengine, hopen⟩ := not_or.mp hbusy
      have hown : s.crypt.glaze.range.elim false (· != r) = false := by
        cases hrange : s.crypt.glaze.range with
        | none => rfl
        | some q => simpa using fun hne => hengine ⟨q, hrange, hne⟩
      simp [rangeGuard, hlasting, hown, hopen]
    exact hstate s hfree ((or_assoc.mpr hturned).resolve_left hbusy)

theorem writeFits_rangeCommand (range : KeyRange) : ∀ data ∈ [[1], [2], [3]],
    writeFits .maintainer (0x2710 + range.val) 6 data = true := by
  revert range
  decide +kernel

/-! ### An opening begins (R183) -/

/-- A range that begins its opening: under its next key where one is loaded, else under a drawn one. -/
def openingRec (key : List Byte) (x : RangeRec) : RangeRec :=
  if x.next = [] then
    { x with current := key, generation := x.generation + 1, source := 0, state := 1, closing := false }
  else
    { x with current := x.next, next := [], source := bnat x.nextInstalled, nextInstalled := false, state := 1,
             closing := false }

/-- The opening of range `r` has begun. -/
def OpeningBegun (r : Nat) (s t : State) : Prop :=
  rangeRec t r = openingRec (leBytes 96 (drawn s 768)) (rangeRec s r) ∧
  t.crypt.glaze.range = some r ∧ t.crypt.glaze.kind = 1 ∧ t.crypt.glaze.state = 1 ∧ t.crypt.glaze.mask = 0 ∧
  RangesKept r s t ∧ KeysStored 1 s t

/-- The range under its new key. -/
def openingKeyed (s : State) (r : Nat) : State :=
  modRange (if (rangeRec s r).next = [] then afterDraw s else s) r (openingRec (leBytes 96 (drawn s 768)))

theorem openingKeyed_eq (s : State) (r : Nat) :
    openingKeyed s r = if (rangeRec s r).next = [] then
        modRange (afterDraw s) r (fun x =>
          { x with current := leBytes 96 (drawn s 768), generation := x.generation + 1, source := 0, state := 1,
                   closing := false })
      else modRange s r (fun x =>
        { x with current := x.next, next := [], source := bnat x.nextInstalled, nextInstalled := false, state := 1,
                 closing := false }) := by
  have hmod (x : State) (f g : RangeRec → RangeRec) (h : f (rangeRec x r) = g (rangeRec x r)) :
      modRange x r f = modRange x r g := by
    unfold modRange tabMod
    rw [show f (tabGet dRange x.crypt.ranges r) = g (tabGet dRange x.crypt.ranges r) from h]
  unfold openingKeyed
  split
  case isTrue hnext => exact hmod _ _ _ (if_pos hnext)
  case isFalse hnext => exact hmod _ _ _ (if_neg hnext)

theorem openingKeyed_ranges (s : State) (r : Nat) : (openingKeyed s r).crypt.ranges =
    (modRange s r (openingRec (leBytes 96 (drawn s 768)))).crypt.ranges := by
  unfold openingKeyed
  split <;> rfl

theorem openingKeyed_glaze (s : State) (r : Nat) : (openingKeyed s r).crypt.glaze = s.crypt.glaze := by
  unfold openingKeyed
  split <;> rfl

theorem openingKeyed_storeSeq (s : State) (r : Nat) : (openingKeyed s r).crypt.storeSeq = s.crypt.storeSeq := by
  unfold openingKeyed
  split <;> rfl

theorem startOpening_of_idle {s : State} (h : s.crypt.glaze.range = none) (r : Nat) :
    startOpening s r = keyStoreUpdate (engineStart (openingKeyed s r) r 1) := by
  have hengine : (openingKeyed s r).crypt.glaze.range.isNone = true := by rw [openingKeyed_glaze, h]; rfl
  rw [openingKeyed_eq] at hengine ⊢
  unfold startOpening drawKey
  dsimp only
  rw [if_pos hengine]

theorem openingBegun_startOpening {s : State} (h : s.crypt.glaze.range = none) (r : Nat) :
    OpeningBegun r s (startOpening s r) := by
  have hranges : (keyStoreUpdate (engineStart (openingKeyed s r) r 1)).crypt.ranges = _ := openingKeyed_ranges s r
  rw [startOpening_of_idle h]
  exact ⟨rangeRec_of_modRange hranges, rfl, rfl, rfl, rfl, rangesKept_of_modRange hranges,
    keysStored_keyStoreUpdate (openingKeyed_storeSeq s r)⟩

end Sys2Proof.Machine
end

section
/-! The close and the erase of a key range (R182): the selection of its lines, and the lines that leave the Easel without destage. -/
namespace Sys2Proof.Machine

/-! ### The places of a range -/

theorem mem_of_tabGet_ne {α : Type} {d : Nat → α} {t : Tab α} {k : Nat} (h : tabGet d t k ≠ d k) : (k, tabGet d t k) ∈ t := by
  induction t with
  | nil => exact absurd rfl h
  | cons e t ih =>
    obtain ⟨j, v⟩ := e
    unfold tabGet at h ⊢
    split
    case isTrue hk => exact hk ▸ List.mem_cons_self
    case isFalse hk => exact List.mem_cons_of_mem _ (ih (by rwa [if_neg hk] at h))

theorem mem_lines_of_valid {s : State} {p : Nat} (h : (easelLine s p).valid = true) : (p, easelLine s p) ∈ s.easel.lines :=
  mem_of_tabGet_ne fun hdefault => absurd ((congrArg EaselLine.valid hdefault).symm.trans h) Bool.false_ne_true

/-- A line of range `r` stands at place `p`. -/
def LineOf (r : Nat) (s : State) (p : Nat) : Prop := (easelLine s p).valid = true ∧ rangeOf s (placeLine s p) = r

theorem mem_rangePlaces {s : State} {r p : Nat} (h : LineOf r s p) : p ∈ rangePlaces s r := by
  obtain ⟨hvalid, hrange⟩ := h
  exact List.mem_map.mpr ⟨_, List.mem_filter.mpr ⟨mem_lines_of_valid hvalid, by simp [hvalid, hrange]⟩, rfl⟩

theorem rangeOf_of_mem_rangePlaces {s : State} {r p : Nat} (h : p ∈ rangePlaces s r) : rangeOf s (placeLine s p) = r := by
  obtain ⟨e, he, rfl⟩ := List.mem_map.mp h
  have htest := (List.mem_filter.mp he).2
  simp only [Bool.and_eq_true, beq_iff_eq] at htest
  exact htest.2

/-! ### Selections in class 4 (R100, R182, R205) -/

theorem placeLine_congr {s t : State} {p : Nat} (h : (easelLine t p).tag = (easelLine s p).tag) : placeLine t p = placeLine s p := by
  unfold placeLine
  rw [h]

/-- A group's queue holds the line at place `q`, or it waits for a place there, or the queue is full. -/
def ChosenIn (x : GroupRec) (q : Nat) : Prop :=
  (∃ e ∈ x.destages, e.2 = q) ∨ q ∈ x.destageWait ∨ 64 ≤ x.destages.length

theorem destageInsert_perm (s : State) (q : List (Nat × Nat)) (cls p : Nat) :
    (destageInsert s q cls p).Perm ((cls, p) :: q) := by
  unfold destageInsert
  exact List.perm_middle.trans ((List.filter_append_perm _ q).cons _)

/-- The state in which a line is queued in class 4. -/
def queuedLast (s : State) (p : Nat) : State :=
  setQueued (modGroup s (lineGroup s (placeLine s p)) fun x => { x with destages := destageInsert s x.destages 4 p }) p true

/-- A selection in class 4 queues the line, unless the line is clean or chosen already. -/
theorem destageSelect_last (s : State) (p : Nat) :
    destageSelect s 4 0 p = queuedLast s p ∨
      destageSelect s 4 0 p = s ∧
        ((easelLine s p).dirty = true → ChosenIn (groupOf s (lineGroup s (placeLine s p))) p) := by
  unfold destageSelect queuedLast
  dsimp only
  rw [if_neg (show ¬ (4 = 1) by decide), if_pos (show (0 = 0) from rfl), if_neg (show ¬ (4 = 1) by decide)]
  split
  case isTrue hclean => exact .inr ⟨rfl, fun hdirty => absurd (hdirty.symm.trans hclean) (by decide)⟩
  · split
    case isTrue hqueued => exact .inr ⟨rfl, fun _ => .inl (by simpa using hqueued)⟩
    · split
      case isTrue hwaits => exact .inr ⟨rfl, fun _ => .inr (.inl (by simpa using hwaits))⟩
      · split
        · exact .inl rfl
        case isFalse hfull => exact .inr ⟨rfl, fun _ => .inr (.inr (Nat.le_of_not_lt hfull))⟩

theorem groupOf_queuedLast (s : State) (p g : Nat) : groupOf (queuedLast s p) g =
    if g = lineGroup s (placeLine s p) then
      { groupOf s g with destages := destageInsert s (groupOf s g).destages 4 p } else groupOf s g := by
  unfold queuedLast
  rw [(setQueued_frame _ _ _).groupOf (by decide), groupOf_modGroup]
  split
  case isTrue h => rw [h]
  case isFalse => rfl

theorem ChosenIn.select {s : State} {g q : Nat} (h : ChosenIn (groupOf s g) q) (p : Nat) :
    ChosenIn (groupOf (destageSelect s 4 0 p) g) q := by
  rcases destageSelect_last s p with hselect | ⟨hselect, -⟩
  · rw [hselect, groupOf_queuedLast]
    split
    · have hperm := destageInsert_perm s (groupOf s g).destages 4 p
      rcases h with ⟨e, he, hq⟩ | hwaits | hfull
      · exact .inl ⟨e, hperm.mem_iff.mpr (List.mem_cons_of_mem _ he), hq⟩
      · exact .inr (.inl hwaits)
      · exact .inr (.inr (hperm.length_eq ▸ Nat.le_succ_of_le hfull))
    · exact h
  · rwa [hselect]

theorem destageSelect_chooses {s : State} {p : Nat} (hdirty : (easelLine s p).dirty = true) :
    ChosenIn (groupOf (destageSelect s 4 0 p) (lineGroup s (placeLine s p))) p := by
  rcases destageSelect_last s p with hselect | ⟨hselect, hchosen⟩
  · rw [hselect, groupOf_queuedLast, if_pos rfl]
    exact .inl ⟨(4, p), (destageInsert_perm _ _ _ _).mem_iff.mpr List.mem_cons_self, rfl⟩
  · rw [hselect]
    exact hchosen hdirty

/-- A selection in class 4 counts nothing (R100). -/
theorem destageSelect_last_frame (s : State) (p : Nat) : Frame [.groups, .easel] s (destageSelect s 4 0 p) := by
  rcases destageSelect_last s p with hselect | ⟨hselect, -⟩
  · rw [hselect]
    exact Frame.step (setQueued_frame _ _ _) (Frame.step (modGroup_frame s _ _) (.refl _ s) rfl) rfl
  · rw [hselect]
    exact .refl _ s

/-- Every dirty line of a list is chosen by a pass of selections over the list. -/
theorem selectAll_chooses {s : State} {l : List Nat} {q : Nat} (hmem : q ∈ l) (hdirty : (easelLine s q).dirty = true) :
    ChosenIn (groupOf (l.foldl (fun s p => destageSelect s 4 0 p) s) (lineGroup s (placeLine s q))) q := by
  have hselects (x : State) (p : Nat) : Selects s x ∧ Frame [.groups, .easel] s x →
      Selects s (destageSelect x 4 0 p) ∧ Frame [.groups, .easel] s (destageSelect x 4 0 p) :=
    fun ⟨hx, hframe⟩ => ⟨hx.trans (destageSelect_selects x 4 0 p), hframe.trans (destageSelect_last_frame x p)⟩
  refine foldl_holds_of_mem (Inv := fun x => Selects s x ∧ Frame [.groups, .easel] s x)
    (P := fun x => ChosenIn (groupOf x (lineGroup s (placeLine s q))) q) hselects (fun x p h => h.select p)
    (fun x ⟨hx, hframe⟩ => ?_) hmem ⟨.refl s, .refl _ s⟩
  have hline := hx.lines q
  rw [← placeLine_congr (t := x) (by rw [hline]),
    ← lineGroup_congr (t := x) (hframe.sys_eq (by decide)) (hframe.crypt_eq (by decide)) (hframe.path_eq (by decide))]
  exact destageSelect_chooses (by rw [hline, hdirty])

/-! ### RANGE_CLOSE (R182) -/

/-- The close of range `r` runs. -/
def rangeClosing (s : State) (r : Nat) : State :=
  modRange s r (fun x => { x with closing := true })

/-- The lines that a close of the range selects. -/
def closingPlaces (s : State) (r : Nat) : List Nat :=
  (dirtyPlaces s (fun _ => true)).filter (fun p => rangeOf s (placeLine s p) == r)

theorem mem_closingPlaces {s : State} {r q : Nat} (h : LineOf r s q) (hselect : selectable (easelLine s q) = true) :
    q ∈ closingPlaces s r := by
  obtain ⟨hvalid, hrange⟩ := h
  refine List.mem_filter.mpr ⟨(mem_sortBy _).mpr (List.mem_map.mpr ⟨_, List.mem_filter.mpr
    ⟨mem_lines_of_valid hvalid, by simp [hselect]⟩, rfl⟩), by simp [hrange]⟩

theorem rangeClose_of_open {s : State} {r : Nat} (hidle : RangeIdle s r) (hopen : (rangeRec s r).state = 2) :
    rangeClose s r = .ok ((closingPlaces (rangeClosing s r) r).foldl (fun s p => destageSelect s 4 0 p) (rangeClosing s r)) := by
  unfold rangeClose
  rw [rangeGuard_of_idle hidle]
  exact if_pos hopen

/-! ### A line leaves the Easel without destage (R182) -/

theorem easelLine_chargeLine_of_ne {s : State} {p i : Nat} (h : i ≠ p) (q n : Nat) :
    easelLine (chargeLine s p q n) i = easelLine s i := by
  unfold chargeLine
  dsimp only
  split
  · rw [easelLine_modLine, if_neg h]
    split <;> rfl
  · rw [easelLine_modLine, if_neg h]
    split <;> split <;> rfl

theorem easelLine_destageRemove_of_ne {s : State} {p i : Nat} (h : i ≠ p) : easelLine (destageRemove s p) i = easelLine s i := by
  unfold destageRemove
  dsimp only
  rw [easelLine_congr (congrArg Easel.lines ((modGroup_frame _ _ _).easel_eq (by decide)))]
  exact (easelLine_modLine s p i _).trans (if_neg h)

/-- The line at a place is gone, with its charge, its merge entry and its place in the destage queue. -/
def lineDiscarded (s : State) (p : Nat) : State :=
  modLine (setMerge (destageRemove (chargeLine s p (easelLine s p).share 0) p) p 0#64) p (fun _ => {})

theorem setMerge_lines (s : State) (p : Nat) (m : BitVec 64) : (setMerge s p m).easel.lines = s.easel.lines := rfl

theorem easelLine_lineDiscarded (s : State) (p i : Nat) :
    easelLine (lineDiscarded s p) i = if i = p then {} else easelLine s i := by
  unfold lineDiscarded
  rw [easelLine_modLine]
  split
  · rfl
  case isFalse h =>
    rw [easelLine_congr (setMerge_lines _ _ _), easelLine_destageRemove_of_ne h, easelLine_chargeLine_of_ne h]

/-- A pass of steps that leave the Easel alone leaves it alone. -/
theorem foldl_easel {α : Type} {U : List UnitName} {f : State → α → State} (hf : ∀ x a, Frame U x (f x a)) (hu : .easel ∉ U)
    (l : List α) (s : State) : (l.foldl f s).easel = s.easel :=
  (Frame.foldl hf (.refl U s)).easel_eq hu

/-- Of what follows the discard of a range's lines, nothing reaches a line. -/
theorem discardRange_lines (s : State) (r : Nat) :
    (discardRange s r).easel.lines = ((rangePlaces s r).foldl lineDiscarded s).easel.lines := by
  have hflush (x : State) : (settleFlush x).easel.lines = x.easel.lines := rfl
  unfold discardRange
  dsimp only
  rw [hflush, settleAcks_lines, (deliverAll_frame _ _ _ _).easel_eq (by decide),
    foldl_easel (fun x _ => deliverAck_frame x _) (by decide), foldl_easel (fun x _ => modPort_frame x _ _) (by decide)]
  dsimp only
  rw [foldl_easel (fun x _ => modGroup_frame x _ _) (by decide), (deviceFree_frame _ _).easel_eq (by decide),
    foldl_easel (fun x _ => Frame.ite (poisonRemove_frame x _) (.refl _ x)) (by decide)]
  rfl

end Sys2Proof.Machine
end

section
/-! The range commands, the installation key and the next keys (O37). -/
namespace Sys2Proof.Machine

/-! ### What a key store update leaves (R184) -/

theorem keyStoreUpdate_ranges (s : State) : (keyStoreUpdate s).crypt.ranges = s.crypt.ranges := rfl

theorem modRange_storeSeq (s : State) (r : Nat) (f : RangeRec → RangeRec) :
    (modRange s r f).crypt.storeSeq = s.crypt.storeSeq := rfl

/-! ### RANGE_OPEN (R182, R183) -/

section
variable (via : Via) (range : KeyRange)

theorem exec_rangeOpen (s : State) : exec (.rangeOpen via range) s =
    .next (served s via (0x2710 + range.val) 6 [1] fun _ s => rangeOpen s range.val) := rfl

theorem serves_rangeOpen_closed :
    Serves (.rangeOpen via range) via .maintainer [.folio, .crypt]
      (fun _ s => RangeIdle s range.val ∧ (rangeRec s range.val).state = 4)
      (fun _ s t => rangeRec t range.val = { rangeRec s range.val with state := 2 } ∧ RangesKept range.val s t ∧
        KeysStored 1 s t) := by
  refine serves_of_effect (exec_rangeOpen via range) (writeFits_rangeCommand range _ (by simp)) fun _ s ⟨hidle, hclosed⟩ => ?_
  have heffect : rangeOpen s range.val = .ok (keyStoreUpdate (modRange s range.val (fun x => { x with state := 2 }))) := by
    unfold rangeOpen
    rw [rangeGuard_of_idle hidle]
    exact if_pos hclosed
  have hranges := keyStoreUpdate_ranges (modRange s range.val (fun x => { x with state := 2 }))
  exact ⟨_, heffect, Frame.step (keyStoreUpdate_frame _) ((modRange_frame _ _ _).mono rfl) rfl, rangeRec_of_modRange hranges,
    rangesKept_of_modRange hranges, keysStored_keyStoreUpdate rfl⟩

theorem serves_rangeOpen_empty :
    Serves (.rangeOpen via range) via .maintainer [.folio, .crypt, .draws]
      (fun _ s => RangeIdle s range.val ∧ (rangeRec s range.val).state = 0) (fun _ => OpeningBegun range.val) := by
  refine serves_of_effect (exec_rangeOpen via range) (writeFits_rangeCommand range _ (by simp)) fun _ s ⟨hidle, hempty⟩ => ?_
  have heffect : rangeOpen s range.val = .ok (startOpening s range.val) := by
    unfold rangeOpen
    rw [rangeGuard_of_idle hidle]
    dsimp only
    rw [if_neg (by omega), if_pos hempty]
  obtain ⟨-, hengine, -⟩ := hidle
  exact ⟨_, heffect, startOpening_frame _ _, openingBegun_startOpening hengine _⟩

theorem rejects_rangeOpen :
    Rejects (.rangeOpen via range) via .maintainer 0x270B (0x2710 + range.val) 6 (fun _ s => ephemeralState s = true) ∧
    Rejects (.rangeOpen via range) via .maintainer 0x2709 (0x2710 + range.val) 6 (fun _ s => ephemeralState s = false ∧
      ((∃ q, s.crypt.glaze.range = some q ∧ q ≠ range.val) ∨ (rangeRec s range.val).closing = true ∨
        ((rangeRec s range.val).state ≠ 4 ∧ (rangeRec s range.val).state ≠ 0))) := by
  refine rejects_rangeCommand (turned := fun st => st ≠ 4 ∧ st ≠ 0) (exec_rangeOpen via range)
    (writeFits_rangeCommand range _ (by simp)) (fun s d hguard => ?_) fun s hguard ⟨hclosed, hempty⟩ => ?_
  all_goals
    unfold rangeOpen
    rw [hguard]
  dsimp only
  rw [if_neg hclosed, if_neg hempty]

/-! ### RANGE_CLOSE and its end (R182) -/

theorem rangeClosing_frame (s : State) (r : Nat) : Frame [.crypt] s (rangeClosing s r) := modRange_frame s r _

theorem easelLine_rangeClosing (s : State) (r q : Nat) : easelLine (rangeClosing s r) q = easelLine s q :=
  easelLine_congr (congrArg Easel.lines ((rangeClosing_frame s r).easel_eq (by decide))) q

theorem lineOf_rangeClosing {s : State} {r q : Nat} (h : LineOf r s q) : LineOf r (rangeClosing s r) q := by
  have hlines := easelLine_rangeClosing s r q
  unfold LineOf
  rwa [rangeOf_congr ((rangeClosing_frame s r).settings_eq (by decide)), placeLine_congr (congrArg EaselLine.tag hlines), hlines]

theorem lineGroup_rangeClosing (s : State) (r line : Nat) : lineGroup (rangeClosing s r) line = lineGroup s line := by
  have hephemeral : ephemeralState (rangeClosing s r) = ephemeralState s := rfl
  unfold lineGroup
  rw [hephemeral, (rangeClosing_frame s r).path_eq (by decide)]

theorem exec_rangeClose (s : State) : exec (.rangeClose via range) s =
    .next (served s via (0x2710 + range.val) 6 [2] fun _ s => rangeClose s range.val) := rfl

theorem serves_rangeClose :
    Serves (.rangeClose via range) via .maintainer [.groups, .easel, .crypt, .stats]
      (fun _ s => RangeIdle s range.val ∧ (rangeRec s range.val).state = 2)
      (fun _ s t => rangeRec t range.val = { rangeRec s range.val with closing := true } ∧ RangesKept range.val s t ∧
        (∀ q, easelLine t q = { easelLine s q with queued := (easelLine t q).queued }) ∧
        ∀ q, LineOf range.val s q → selectable (easelLine s q) = true →
          ChosenIn (groupOf t (lineGroup s (placeLine s q))) q) := by
  refine serves_of_effect (exec_rangeClose via range) (writeFits_rangeCommand range _ (by simp)) fun _ s ⟨hidle, hopen⟩ => ?_
  have heffect := rangeClose_of_open hidle hopen
  have hframe := Frame.foldl destageSelect_last_frame (.refl _ (rangeClosing s range.val))
    (l := closingPlaces (rangeClosing s range.val) range.val)
  have hranges : _ = (rangeClosing s range.val).crypt.ranges := congrArg Crypt.ranges (hframe.crypt_eq (by decide))
  refine ⟨_, heffect, rangeClose_frame s range.val _ heffect, rangeRec_of_modRange hranges, rangesKept_of_modRange hranges,
    (Selects.foldl (fun s p => destageSelect_selects s 4 0 p) _ (rangeClosing s range.val)).lines, fun q hline hselect => ?_⟩
  have hdirty : (easelLine s q).dirty = true := by
    unfold selectable at hselect
    simp only [Bool.and_eq_true] at hselect
    exact hselect.1.2
  have hlines := easelLine_rangeClosing s range.val q
  rw [← lineGroup_rangeClosing s range.val, ← placeLine_congr (congrArg EaselLine.tag hlines)]
  exact selectAll_chooses (mem_closingPlaces (lineOf_rangeClosing hline) (hlines ▸ hselect)) (hlines ▸ hdirty)

theorem rejects_rangeClose :
    Rejects (.rangeClose via range) via .maintainer 0x270B (0x2710 + range.val) 6 (fun _ s => ephemeralState s = true) ∧
    Rejects (.rangeClose via range) via .maintainer 0x2709 (0x2710 + range.val) 6 (fun _ s => ephemeralState s = false ∧
      ((∃ q, s.crypt.glaze.range = some q ∧ q ≠ range.val) ∨ (rangeRec s range.val).closing = true ∨
        (rangeRec s range.val).state ≠ 2)) := by
  refine rejects_rangeCommand (turned := (· ≠ 2)) (exec_rangeClose via range)
    (writeFits_rangeCommand range _ (by simp)) (fun s d hguard => ?_) fun s hguard hstate => ?_
  all_goals
    unfold rangeClose
    rw [hguard]
  exact if_neg hstate

/-- The line at a place is dropped, and a fill on its way to it goes to no line. -/
def lineDropped (s : State) (p : Nat) : State :=
  modLine (if (easelLine s p).fill then deadenFill s p (placeLine s p) (fun _ => true) else s) p (fun _ => {})

/-- Reads that a fill no longer installs apart, only lines change. -/
theorem easelLine_lineDropped (s : State) (p i : Nat) :
    easelLine (lineDropped s p) i = if i = p then {} else easelLine s i := by
  unfold lineDropped
  rw [easelLine_modLine]
  split
  · rfl
  · split <;> rfl

/-- A place of the range holds the end of a close up. -/
def holdsClose (s : State) (p : Nat) : Bool :=
  (easelLine s p).dirty || (easelLine s p).merge || (easelLine s p).flight

/-- A dirty line that found no place in its queue is selected again. -/
def reselected (s : State) (p : Nat) : State :=
  if (easelLine s p).dirty && !(easelLine s p).queued && !(easelLine s p).flight then destageSelect s 4 0 p else s

/-- The close of range `r` has ended. -/
def rangeClosed (s : State) (r : Nat) : State :=
  keyStoreUpdate (modRange ((rangePlaces s r).foldl lineDropped s) r (fun x => { x with closing := false, state := 4 }))

theorem exec_rangeCloseEnd (s : State) : exec (.rangeCloseEnd range) s =
    if (rangeRec s range.val).closing = true then
      if (rangePlaces s range.val).filter (holdsClose s) = [] then .next (rangeClosed s range.val)
      else .next (((rangePlaces s range.val).filter (holdsClose s)).foldl reselected s)
    else .next s := rfl

theorem completes_rangeCloseEnd :
    Completes (.rangeCloseEnd range) [.folio, .groups, .easel, .crypt, .stats]
      (fun s => (rangeRec s range.val).closing = true ∧ ∀ p ∈ rangePlaces s range.val, (easelLine s p).dirty = false ∧
        (easelLine s p).merge = false ∧ (easelLine s p).flight = false)
      (fun s t => rangeRec t range.val = { rangeRec s range.val with closing := false, state := 4 } ∧
        RangesKept range.val s t ∧ KeysStored 1 s t ∧ ∀ p, LineOf range.val s p → (easelLine t p).valid = false) := by
  rintro s ⟨hclosing, hclean⟩
  have hnone : (rangePlaces s range.val).filter (holdsClose s) = [] := by
    refine List.filter_eq_nil_iff.mpr fun p hp => ?_
    obtain ⟨hdirty, hmerge, hflight⟩ := hclean p hp
    simp [holdsClose, hdirty, hmerge, hflight]
  have hexec := (exec_rangeCloseEnd range s).trans ((if_pos hclosing).trans (if_pos hnone))
  have hdropped (x : State) (p : Nat) : Frame [.easel] x (lineDropped x p) :=
    Frame.step (modLine_frame _ _ _) (Frame.ite (deadenFill_frame x _ _ _) (.refl _ x)) rfl
  have hframe := Frame.foldl hdropped (.refl [.easel] s) (l := rangePlaces s range.val)
  have hcrypt := hframe.crypt_eq (by decide)
  have hranges : (rangeClosed s range.val).crypt.ranges =
      (modRange s range.val (fun x => { x with closing := false, state := 4 })).crypt.ranges := by
    unfold rangeClosed
    rw [keyStoreUpdate_ranges]
    unfold modRange
    rw [hcrypt]
  refine ⟨_, hexec, Frame.step (keyStoreUpdate_frame _) (Frame.step (modRange_frame _ _ _) (hframe.mono rfl) rfl) rfl,
    rangeRec_of_modRange hranges, rangesKept_of_modRange hranges, keysStored_keyStoreUpdate ?_, fun p hline => ?_⟩
  · rw [modRange_storeSeq, hcrypt]
  · refine foldl_holds_of_mem (Inv := fun _ => True) (P := fun x => (easelLine x p).valid = false) (fun _ _ _ => trivial)
      (fun x q hx => ?_) (fun x _ => ?_) (mem_rangePlaces hline) trivial
    · rw [easelLine_lineDropped]
      split
      · rfl
      · exact hx
    · rw [easelLine_lineDropped, if_pos rfl]

theorem completes_rangeCloseEnd_held :
    Completes (.rangeCloseEnd range) [.groups, .easel, .stats]
      (fun s => (rangeRec s range.val).closing = true ∧ ∃ p ∈ rangePlaces s range.val, (easelLine s p).dirty = true ∨
        (easelLine s p).merge = true ∨ (easelLine s p).flight = true)
      (fun s t => ∀ q, easelLine t q = { easelLine s q with queued := (easelLine t q).queued }) := by
  rintro s ⟨hclosing, p, hp, hheld⟩
  have hsome : (rangePlaces s range.val).filter (holdsClose s) ≠ [] :=
    List.ne_nil_of_mem (List.mem_filter.mpr ⟨hp, by simpa [holdsClose, or_assoc] using hheld⟩)
  refine ⟨_, (exec_rangeCloseEnd range s).trans ((if_pos hclosing).trans (if_neg hsome)),
    Frame.foldl (fun x q => Frame.ite (destageSelect_frame x 4 0 q) (.refl _ x)) (.refl _ s), ?_⟩
  refine (Selects.foldl (fun x q => ?_) _ s).lines
  unfold reselected
  split
  · exact destageSelect_selects x 4 0 q
  · exact .refl x

theorem completes_rangeCloseEnd_idle :
    Completes (.rangeCloseEnd range) [] (fun s => (rangeRec s range.val).closing = false) (fun _ _ => True) :=
  fun s hidle => ⟨s, (exec_rangeCloseEnd range s).trans (if_neg (by simp [hidle])), .refl _ s, trivial⟩

/-! ### RANGE_ERASE (R182, R183) -/

theorem exec_rangeErase (s : State) : exec (.rangeErase via range) s =
    .next (served s via (0x2710 + range.val) 6 [3] fun _ s => rangeErase s range.val) := rfl

theorem easelLine_lineDiscarded_foldl (l : List Nat) (s : State) (i : Nat) :
    easelLine (l.foldl lineDiscarded s) i = if i ∈ l then {} else easelLine s i := by
  induction l generalizing s with
  | nil => rfl
  | cons p l ih =>
    rw [List.foldl_cons, ih, easelLine_lineDiscarded]
    by_cases hl : i ∈ l
    · rw [if_pos hl, if_pos (List.mem_cons_of_mem _ hl)]
    · rw [if_neg hl]
      exact if_congr (by simp [hl]) rfl rfl

theorem easelLine_discardRange (s : State) (r p : Nat) :
    easelLine (discardRange s r) p = if p ∈ rangePlaces s r then {} else easelLine s p :=
  (easelLine_congr (discardRange_lines s r) p).trans (easelLine_lineDiscarded_foldl _ s p)

/-- The old key is forgotten before the erased range is opened again. -/
def rangeErased (s : State) (r : Nat) : State :=
  modRange (discardRange s r) r (fun x => { x with current := [] })

theorem openingRec_keyless (key : List Byte) (x : RangeRec) : openingRec key { x with current := [] } = openingRec key x := by
  unfold openingRec
  split <;> rfl

theorem rangeErased_ranges (s : State) (r : Nat) :
    (rangeErased s r).crypt.ranges = (modRange s r (fun x => { x with current := [] })).crypt.ranges := by
  unfold rangeErased modRange
  rw [(discardRange_frame s r).crypt_eq (by decide)]

theorem openingBegun_rangeErased {s : State} (hengine : s.crypt.glaze.range = none) (r : Nat) :
    OpeningBegun r s (startOpening (rangeErased s r) r) := by
  have hdiscard := discardRange_frame s r
  have hcrypt := hdiscard.crypt_eq (by decide)
  have hdrawn : drawn (rangeErased s r) 768 = drawn s 768 := by
    have hdraws : (rangeErased s r).draws = s.draws := hdiscard .draws (by decide)
    unfold drawn
    rw [hdraws]
  have hfree : (rangeErased s r).crypt.glaze.range = none := by
    rw [← hengine]
    exact congrArg (·.glaze.range) hcrypt
  obtain ⟨hrec, hrange, hkind, hstate, hmask, hkept, hseq, hqueue⟩ := openingBegun_startOpening hfree r
  refine ⟨?_, hrange, hkind, hstate, hmask, fun q hq => (hkept q hq).trans (rangesKept_of_modRange (rangeErased_ranges s r) q hq),
    hseq.trans (congrArg (·.storeSeq + 1) hcrypt), hqueue⟩
  rw [hrec, hdrawn, rangeRec_of_modRange (rangeErased_ranges s r), openingRec_keyless]

theorem serves_rangeErase :
    Serves (.rangeErase via range) via .maintainer [.mgmt, .folio, .ledger, .reserve, .ports, .groups, .easel, .palette, .crypt,
        .directory, .queues, .barrow, .perf, .stats, .draws, .out]
      (fun _ s => RangeIdle s range.val ∧ ((rangeRec s range.val).state = 2 ∨ (rangeRec s range.val).state = 4))
      (fun _ s t => OpeningBegun range.val s t ∧ (∀ p, LineOf range.val s p → (easelLine t p).valid = false) ∧
        ∀ p, (easelLine s p).valid = true → rangeOf s (placeLine s p) ≠ range.val →
          (easelLine t p).data = (easelLine s p).data ∧ (easelLine t p).valid = true ∧
          (easelLine t p).dirty = (easelLine s p).dirty) := by
  refine serves_of_effect (exec_rangeErase via range) (writeFits_rangeCommand range _ (by simp)) fun _ s ⟨hidle, hstate⟩ => ?_
  have heffect : rangeErase s range.val = .ok (startOpening (rangeErased s range.val) range.val) := by
    unfold rangeErase
    rw [rangeGuard_of_idle hidle]
    exact if_pos hstate
  have hline (p : Nat) : easelLine (startOpening (rangeErased s range.val) range.val) p =
      if p ∈ rangePlaces s range.val then {} else easelLine s p := by
    rw [easelLine_congr (congrArg Easel.lines ((startOpening_frame _ _).easel_eq (by decide)))]
    exact easelLine_discardRange s range.val p
  obtain ⟨-, hengine, -⟩ := hidle
  refine ⟨_, heffect, rangeErase_frame s range.val _ heffect, openingBegun_rangeErased hengine _, fun p hmine => ?_,
    fun p hvalid hother => ?_⟩
  · rw [hline, if_pos (mem_rangePlaces hmine)]
  · rw [hline, if_neg fun hmem => hother (rangeOf_of_mem_rangePlaces hmem)]
    exact ⟨rfl, hvalid, rfl⟩

theorem rejects_rangeErase :
    Rejects (.rangeErase via range) via .maintainer 0x270B (0x2710 + range.val) 6 (fun _ s => ephemeralState s = true) ∧
    Rejects (.rangeErase via range) via .maintainer 0x2709 (0x2710 + range.val) 6 (fun _ s => ephemeralState s = false ∧
      ((∃ q, s.crypt.glaze.range = some q ∧ q ≠ range.val) ∨ (rangeRec s range.val).closing = true ∨
        ((rangeRec s range.val).state ≠ 2 ∧ (rangeRec s range.val).state ≠ 4))) := by
  refine rejects_rangeCommand (turned := fun st => st ≠ 2 ∧ st ≠ 4) (exec_rangeErase via range)
    (writeFits_rangeCommand range _ (by simp)) (fun s d hguard => ?_) fun s hguard hstate => ?_
  all_goals
    unfold rangeErase
    rw [hguard]
  exact if_neg (not_or.mpr hstate)

/-! ### DISCARD_NEXT_KEY (R208) -/

theorem exec_discardNextKey (s : State) : exec (.discardNextKey via range) s =
    .next (served s via 0x2720 6 (leBytes 1 range.val) fun _ s => discardNext s range.val) := rfl

theorem writeFits_discardNextKey : writeFits .maintainer 0x2720 6 (leBytes 1 range.val) = true := by
  revert range
  decide +kernel

theorem serves_discardNextKey :
    Serves (.discardNextKey via range) via .maintainer [.folio, .crypt] (fun _ s => (rangeRec s range.val).state ≠ 3)
      (fun _ s t => rangeRec t range.val = { rangeRec s range.val with next := [], nextInstalled := false } ∧
        RangesKept range.val s t ∧ KeysStored 1 s t) := by
  refine serves_of_effect (exec_discardNextKey via range) (writeFits_discardNextKey range) fun _ s hstate => ?_
  have heffect : discardNext s range.val = .ok _ := if_neg hstate
  have hranges := keyStoreUpdate_ranges (modRange s range.val (fun x => { x with next := [], nextInstalled := false }))
  exact ⟨_, heffect, discardNext_frame s range.val _ heffect, rangeRec_of_modRange hranges, rangesKept_of_modRange hranges,
    keysStored_keyStoreUpdate rfl⟩

theorem rejects_discardNextKey :
    Rejects (.discardNextKey via range) via .maintainer 0x2709 0x2720 6 (fun _ s => (rangeRec s range.val).state = 3) :=
  rejects_of_effect (exec_discardNextKey via range) (writeFits_discardNextKey range) fun _ _ hstate => if_pos hstate

end

/-! ### The installation key (R186) -/

/-- A key object takes bytes of its own length at Maintainer level. -/
theorem writeFits_octets {idx sub n : Nat} {data : List Byte}
    (hrow : (objRow? idx sub).map (fun x => (x.access, x.ty, x.level, x.staged)) = some (.wo, .octets n n, .maintainer, false))
    (hlength : data.length = n) : writeFits .maintainer idx sub data = true := by
  obtain ⟨x, hx, hrec⟩ := Option.map_eq_some_iff.mp hrow
  obtain ⟨haccess, hty, hlevel, hstaged⟩ : x.access = .wo ∧ x.ty = .octets n n ∧ x.level = .maintainer ∧ x.staged = false := by
    simpa using hrec
  unfold writeFits
  rw [hx]
  simp [haccess, hty, hlevel, hstaged, hlength, ObjType.lengthOk, ObjType.isNum]

theorem writeFits_installationKey (v : Nat) : writeFits .maintainer 0x2720 1 (leBytes 32 v) = true :=
  writeFits_octets (n := 32) (by decide +kernel) (length_leBytes 32 v)

theorem writeFits_installationKeyRewrap (v : Nat) : writeFits .maintainer 0x2720 2 (leBytes 40 v) = true :=
  writeFits_octets (n := 40) (by decide +kernel) (length_leBytes 40 v)

/-- The installation key is `key`, in the store too, and the event is raised. -/
def keyInstalled (s : State) (key data : List Byte) : State :=
  raise (keyStoreUpdate { s with crypt := { s.crypt with ki := key } }) 0x270C data

theorem keyInstalled_installs (s : State) (key data : List Byte) :
    (keyInstalled s key data).crypt.ki = key ∧ (keyInstalled s key data).crypt.ranges = s.crypt.ranges ∧
      KeysStored 1 s (keyInstalled s key data) ∧ LogsEvent 0x270C data s (keyInstalled s key data) := by
  have hcrypt : (keyInstalled s key data).crypt = { s.crypt with ki := key, storeSeq := s.crypt.storeSeq + 1 } :=
    (raise_frame _ 0x270C data).crypt_eq (by decide)
  refine ⟨by rw [hcrypt], by rw [hcrypt], (keysStored_keyStoreUpdate ?_).raise _ _, logsEvent_raise ?_ ?_ ?_ _ _⟩ <;> rfl

section
variable (via : Via)

theorem exec_installationKey (key : BitVec 256) (s : State) : exec (.installationKey via key) s =
    .next (served s via 0x2720 1 (leBytes 32 key.toNat) fun _ s => installationKey s (leBytes 32 key.toNat)) := rfl

theorem serves_installationKey (key : BitVec 256) :
    Serves (.installationKey via key) via .maintainer [.mgmt, .folio, .ledger, .crypt, .stats, .out]
      (fun _ s => ephemeralState s = false ∧ s.crypt.ki = [])
      (fun _ s t => t.crypt.ki = leBytes 32 key.toNat ∧ t.crypt.ranges = s.crypt.ranges ∧ KeysStored 1 s t ∧
        LogsEvent 0x270C [0] s t) := by
  refine serves_of_effect (exec_installationKey via key) (writeFits_installationKey _) fun _ s ⟨hlasting, hnone⟩ => ?_
  have heffect : installationKey s (leBytes 32 key.toNat) = .ok (keyInstalled s (leBytes 32 key.toNat) [0]) :=
    (if_neg (by simp [hlasting])).trans (if_neg (not_not.mpr hnone))
  exact ⟨_, heffect, installationKey_frame _ _ _ heffect, keyInstalled_installs _ _ _⟩

theorem rejects_installationKey (key : BitVec 256) :
    Rejects (.installationKey via key) via .maintainer 0x270B 0x2720 1 (fun _ s => ephemeralState s = true) ∧
    Rejects (.installationKey via key) via .maintainer 0x2708 0x2720 1
      (fun _ s => ephemeralState s = false ∧ s.crypt.ki ≠ []) :=
  ⟨rejects_of_effect (exec_installationKey via key) (writeFits_installationKey _) fun _ _ hephemeral => if_pos hephemeral,
    rejects_of_effect (exec_installationKey via key) (writeFits_installationKey _) fun _ _ ⟨hlasting, hset⟩ =>
      (if_neg (by simp [hlasting])).trans (if_pos hset)⟩

theorem exec_installationKeyRewrap (wrapped : BitVec 320) (s : State) : exec (.installationKeyRewrap via wrapped) s =
    .next (served s via 0x2720 2 (leBytes 40 wrapped.toNat) fun _ s => installationRewrap s (leBytes 40 wrapped.toNat)) := rfl

theorem serves_installationKeyRewrap (wrapped : BitVec 320) (key : List Byte) :
    Serves (.installationKeyRewrap via wrapped) via .maintainer [.mgmt, .folio, .ledger, .crypt, .stats, .out]
      (fun _ s => ephemeralState s = false ∧ s.crypt.ki ≠ [] ∧ keyUnwrap s.crypt.ki (leBytes 40 wrapped.toNat) = some key)
      (fun _ s t => t.crypt.ki = key ∧ t.crypt.ranges = s.crypt.ranges ∧ KeysStored 1 s t ∧ LogsEvent 0x270C [1] s t) := by
  refine serves_of_effect (exec_installationKeyRewrap via wrapped) (writeFits_installationKeyRewrap _)
    fun _ s ⟨hlasting, hset, hunwrap⟩ => ?_
  have heffect : installationRewrap s (leBytes 40 wrapped.toNat) = .ok (keyInstalled s key [1]) := by
    unfold installationRewrap
    rw [if_neg (by simp [hlasting]), if_neg hset, hunwrap]
    rfl
  exact ⟨_, heffect, installationRewrap_frame _ _ _ heffect, keyInstalled_installs _ _ _⟩

theorem rejects_installationKeyRewrap (wrapped : BitVec 320) :
    Rejects (.installationKeyRewrap via wrapped) via .maintainer 0x270B 0x2720 2 (fun _ s => ephemeralState s = true) ∧
    Rejects (.installationKeyRewrap via wrapped) via .maintainer 0x270A 0x2720 2
      (fun _ s => ephemeralState s = false ∧ s.crypt.ki = []) ∧
    Rejects (.installationKeyRewrap via wrapped) via .maintainer 0x2706 0x2720 2
      (fun _ s => ephemeralState s = false ∧ s.crypt.ki ≠ [] ∧ keyUnwrap s.crypt.ki (leBytes 40 wrapped.toNat) = none) := by
  refine ⟨rejects_of_effect (exec_installationKeyRewrap via wrapped) (writeFits_installationKeyRewrap _) fun _ s h => if_pos h,
    rejects_of_effect (exec_installationKeyRewrap via wrapped) (writeFits_installationKeyRewrap _) fun _ s ⟨hlasting, hnone⟩ =>
      (if_neg (by simp [hlasting])).trans (if_pos hnone),
    rejects_of_effect (exec_installationKeyRewrap via wrapped) (writeFits_installationKeyRewrap _)
      fun _ s ⟨hlasting, hset, hunwrap⟩ => ?_⟩
  unfold installationRewrap
  rw [if_neg (by simp [hlasting]), if_neg hset, hunwrap]

end

/-- Settles O37, command by command: the range commands share one guard (`rejects_rangeCommand`), an opening begins in one way from
Empty and after an erase (`openingBegun_startOpening`), and an erase reaches the lines of its range alone (`discardRange_lines`). -/
theorem keyRanges : Obligations.KeyRanges := by
  unfold Obligations.KeyRanges
  intro stored ranges via range r idle turned opening chosen mine
  exact ⟨serves_rangeOpen_closed via range, serves_rangeOpen_empty via range, rejects_rangeOpen via range,
    serves_rangeClose via range, rejects_rangeClose via range, completes_rangeCloseEnd range, completes_rangeCloseEnd_held range,
    completes_rangeCloseEnd_idle range, serves_rangeErase via range, rejects_rangeErase via range,
    serves_discardNextKey via range, rejects_discardNextKey via range,
    fun key => ⟨serves_installationKey via key, rejects_installationKey via key⟩,
    fun wrapped => ⟨serves_installationKeyRewrap via wrapped, rejects_installationKeyRewrap via wrapped⟩⟩

end Sys2Proof.Machine
end

section
/-! The start, the pause and the resumption of the Glaze engine (R201). -/
namespace Sys2Proof.Machine

theorem writeFits_glazeCommand : ∀ data ∈ [[1], [2], [3]], writeFits .maintainer 0x2780 2 data = true := by
  decide +kernel

/-! ### The finishing state (R205) -/

/-- The finishing state is entered: the engine's record of its lines. -/
theorem beginFinishing_crypt (s : State) (r : Nat) : ∃ lines, (beginFinishing s r).crypt =
    { s.crypt with glaze := { s.crypt.glaze with state := 4, finishing := lines } } := by
  unfold beginFinishing
  exact ⟨_, (Frame.foldl destageSelect_last_frame (.refl _ _)).crypt_eq (by decide)⟩

/-- The finishing state counts nothing. -/
theorem beginFinishing_frame_uncounted (s : State) (r : Nat) : Frame [.groups, .easel, .crypt] s (beginFinishing s r) := by
  unfold beginFinishing
  exact Frame.step (Frame.foldl destageSelect_last_frame (.refl _ _)) (Frame.upd_crypt (.refl _ s) rfl) rfl

/-! ### GLAZE_START -/

/-- A range that begins its re-keying: its next key is the one loaded, else a drawn one. -/
def glazingRec (key : List Byte) (x : RangeRec) : RangeRec :=
  if x.next = [] then { x with state := 3, next := key, nextInstalled := false, generation := x.generation + 1 }
  else { x with state := 3 }

/-- The range has a next key. -/
def glazeKeyed (s : State) (r : Nat) : State :=
  if (rangeRec s r).next = [] then
    modRange (afterDraw s) r (fun x =>
      { x with next := leBytes 96 (drawn s 768), nextInstalled := false, generation := x.generation + 1 })
  else s

/-- The range is Glazing, and the engine at its first step. -/
def glazeStarted (s : State) (r : Nat) : State :=
  keyStoreUpdate (engineStart (modRange (glazeKeyed s r) r (fun x => { x with state := 3 })) r 2)

/-- The start of the re-keying is recorded. -/
def glazeBegun (s : State) (r : Nat) : State :=
  raise (glazeStarted s r) 0x2781 (leBytes 1 r ++ leBytes 4 (rangeRec (glazeStarted s r) r).generation)

theorem glazeKeyed_frame (s : State) (r : Nat) : Frame [.crypt, .draws] s (glazeKeyed s r) :=
  Frame.ite (Frame.step (modRange_frame _ _ _) ((afterDraw_frame s).mono rfl) rfl) (.refl _ s)

theorem glazeKeyed_storeSeq (s : State) (r : Nat) : (glazeKeyed s r).crypt.storeSeq = s.crypt.storeSeq := by
  unfold glazeKeyed
  split <;> rfl

theorem glazeStarted_frame (s : State) (r : Nat) : Frame [.folio, .crypt, .draws] s (glazeStarted s r) :=
  Frame.step (keyStoreUpdate_frame _) (Frame.step (engineStart_frame _ _ _) (Frame.step (modRange_frame _ _ _)
    ((glazeKeyed_frame s r).mono rfl) rfl) rfl) rfl

theorem rangeRec_glazeKeyed (s : State) (r q : Nat) :
    rangeRec (modRange (glazeKeyed s r) r (fun x => { x with state := 3 })) q =
      if q = r then glazingRec (leBytes 96 (drawn s 768)) (rangeRec s r) else rangeRec s q := by
  have hdraw (q : Nat) : rangeRec (afterDraw s) q = rangeRec s q :=
    rangeRec_congr (congrArg Crypt.ranges ((afterDraw_frame s).crypt_eq (by decide))) q
  rw [rangeRec_modRange]
  unfold glazeKeyed glazingRec
  by_cases hq : q = r
  · rw [if_pos hq, if_pos hq]
    split
    · rw [rangeRec_modRange_self, hdraw]
    · rfl
  · rw [if_neg hq, if_neg hq]
    split
    · rw [rangeRec_modRange, if_neg hq, hdraw]
    · rfl

theorem rangeRec_glazeStarted (s : State) (r q : Nat) : rangeRec (glazeStarted s r) q =
    if q = r then glazingRec (leBytes 96 (drawn s 768)) (rangeRec s r) else rangeRec s q := by
  rw [← rangeRec_glazeKeyed]
  exact rangeRec_congr (by rfl) q

/-- What a start of the engine leaves in the key ranges and the engine, in the finishing state at once or not. -/
structure GlazeBegins (s : State) (r : Nat) (t : State) : Prop where
  range : t.crypt.glaze.range = some r
  kind : t.crypt.glaze.kind = 2
  mask : t.crypt.glaze.mask = 0
  state : t.crypt.glaze.state = 2 ∨ t.crypt.glaze.state = 4
  ranges : t.crypt.ranges = (glazeStarted s r).crypt.ranges
  storeSeq : t.crypt.storeSeq = s.crypt.storeSeq + 1
  ledger : t.ledger = (glazeBegun s r).ledger

theorem glazeBegins_glazeBegun (s : State) (r : Nat) : GlazeBegins s r (glazeBegun s r) := by
  have hcrypt : (glazeBegun s r).crypt = (glazeStarted s r).crypt := (raise_frame _ _ _).crypt_eq (by decide)
  have hseq : (glazeStarted s r).crypt.storeSeq = s.crypt.storeSeq + 1 := congrArg (· + 1) (glazeKeyed_storeSeq s r)
  refine ⟨by rw [hcrypt]; rfl, by rw [hcrypt]; rfl, by rw [hcrypt]; rfl, .inl (by rw [hcrypt]; rfl), by rw [hcrypt],
    by rw [hcrypt, hseq], rfl⟩

theorem GlazeBegins.finishing {s t : State} {r : Nat} (h : GlazeBegins s r t) : GlazeBegins s r (beginFinishing t r) := by
  obtain ⟨lines, hcrypt⟩ := beginFinishing_crypt t r
  refine ⟨by rw [hcrypt, h.range], by rw [hcrypt, h.kind], by rw [hcrypt, h.mask], .inr (by rw [hcrypt]), by rw [hcrypt, h.ranges],
    by rw [hcrypt, h.storeSeq], ?_⟩
  rw [(beginFinishing_frame t r).ledger_eq (by decide), h.ledger]

theorem GlazeBegins.rangeRec {s t : State} {r : Nat} (h : GlazeBegins s r t) (q : Nat) : Machine.rangeRec t q =
    if q = r then glazingRec (leBytes 96 (drawn s 768)) (Machine.rangeRec s r) else Machine.rangeRec s q :=
  (rangeRec_congr h.ranges q).trans (rangeRec_glazeStarted s r q)

theorem GlazeBegins.logsEvent {s t : State} {r : Nat} (h : GlazeBegins s r t) :
    LogsEvent 0x2781 (leBytes 1 r ++ leBytes 4 (Machine.rangeRec t r).generation) s t := by
  have hframe := glazeStarted_frame s r
  have hrec : Machine.rangeRec t r = Machine.rangeRec (glazeStarted s r) r := rangeRec_congr h.ranges r
  rw [hrec]
  exact h.ledger.trans (logsEvent_raise (hframe.ledger_eq (by decide)) (hframe.sys_eq (by decide))
    (hframe.settings_eq (by decide)) _ _)

section
variable (via : Via)

theorem exec_glazeStart (s : State) : exec (.glazeStart via) s =
    .next (served s via 0x2780 2 [1] fun _ s => glazeStart s) := rfl

/-- The engine is free for a range, whose close does not run. -/
def EngineFree (s : State) (r : Nat) : Prop := s.crypt.glaze.range = none ∧ (rangeRec s r).closing = false

theorem glazeStart_of_free {s : State} (hlasting : ephemeralState s = false) (hfree : EngineFree s (settingN s 0x2780 1))
    (hopen : (rangeRec s (settingN s 0x2780 1)).state = 2) :
    glazeStart s = .ok (if (nextStep (glazeBegun s (settingN s 0x2780 1)) (settingN s 0x2780 1) 0).isNone then
      beginFinishing (glazeBegun s (settingN s 0x2780 1)) (settingN s 0x2780 1) else glazeBegun s (settingN s 0x2780 1)) := by
  obtain ⟨hengine, hclosing⟩ := hfree
  unfold glazeStart
  dsimp only
  rw [if_neg (by simp [hlasting]), if_neg (by simp [hengine, hclosing]), if_neg (not_not.mpr hopen)]
  rfl

theorem serves_glazeStart :
    Serves (.glazeStart via) via .maintainer [.mgmt, .folio, .ledger, .groups, .easel, .crypt, .stats, .draws, .out]
      (fun _ s => ephemeralState s = false ∧ EngineFree s (settingN s 0x2780 1) ∧
        (rangeRec s (settingN s 0x2780 1)).state = 2)
      (fun _ s t => t.crypt.glaze.range = some (settingN s 0x2780 1) ∧ t.crypt.glaze.kind = 2 ∧ t.crypt.glaze.mask = 0 ∧
        (t.crypt.glaze.state = 2 ∨ t.crypt.glaze.state = 4) ∧ RangesKept (settingN s 0x2780 1) s t ∧
        t.crypt.storeSeq = s.crypt.storeSeq + 1 ∧
        rangeRec t (settingN s 0x2780 1) = glazingRec (leBytes 96 (drawn s 768)) (rangeRec s (settingN s 0x2780 1)) ∧
        LogsEvent 0x2781 (leBytes 1 (settingN s 0x2780 1) ++ leBytes 4 (rangeRec t (settingN s 0x2780 1)).generation) s t) := by
  refine serves_of_effect (exec_glazeStart via) (writeFits_glazeCommand _ (by simp)) fun _ s ⟨hlasting, hfree, hopen⟩ => ?_
  have heffect := glazeStart_of_free hlasting hfree hopen
  refine ⟨_, heffect, glazeStart_frame s _ heffect, ?_⟩
  generalize settingN s 0x2780 1 = r
  have hbegins : GlazeBegins s r (if (nextStep (glazeBegun s r) r 0).isNone then beginFinishing (glazeBegun s r) r
      else glazeBegun s r) := by
    split
    · exact (glazeBegins_glazeBegun s r).finishing
    · exact glazeBegins_glazeBegun s r
  exact ⟨hbegins.range, hbegins.kind, hbegins.mask, hbegins.state, fun q hq => (hbegins.rangeRec q).trans (if_neg hq),
    hbegins.storeSeq, (hbegins.rangeRec r).trans (if_pos rfl), hbegins.logsEvent⟩

theorem rejects_glazeStart_busy :
    Rejects (.glazeStart via) via .maintainer 0x2781 0x2780 2
      (fun _ s => ephemeralState s = false ∧ ¬ EngineFree s (settingN s 0x2780 1)) := by
  refine rejects_of_effect (exec_glazeStart via) (writeFits_glazeCommand _ (by simp)) fun _ s ⟨hlasting, hbusy⟩ => ?_
  refine (if_neg (by simp [hlasting])).trans (if_pos ?_)
  unfold EngineFree at hbusy
  cases hengine : s.crypt.glaze.range with
  | none => simpa [hengine] using hbusy
  | some q => rfl

theorem rejects_glazeStart_state :
    Rejects (.glazeStart via) via .maintainer 0x2782 0x2780 2
      (fun _ s => ephemeralState s = false ∧ EngineFree s (settingN s 0x2780 1) ∧
        (rangeRec s (settingN s 0x2780 1)).state ≠ 2) :=
  rejects_of_effect (exec_glazeStart via) (writeFits_glazeCommand _ (by simp)) fun _ _ ⟨hlasting, ⟨hengine, hclosing⟩, hstate⟩ =>
    (if_neg (by simp [hlasting])).trans ((if_neg (by simp [hengine, hclosing])).trans (if_pos hstate))

/-! ### GLAZE_PAUSE and GLAZE_RESUME -/

theorem exec_glazePause (s : State) : exec (.glazePause via) s =
    .next (served s via 0x2780 2 [2] fun _ s => glazePause s) := rfl

theorem exec_glazeResume (s : State) : exec (.glazeResume via) s =
    .next (served s via 0x2780 2 [3] fun _ s => glazeResume s) := rfl

theorem serves_glazePause :
    Serves (.glazePause via) via .maintainer [.crypt]
      (fun _ s => ephemeralState s = false ∧ (s.crypt.glaze.state = 1 ∨ s.crypt.glaze.state = 2))
      (fun _ s t => t.crypt = { s.crypt with glaze := { s.crypt.glaze with state := 3 } }) := by
  refine serves_of_effect (exec_glazePause via) (writeFits_glazeCommand _ (by simp)) fun _ s ⟨hlasting, hruns⟩ => ?_
  have heffect : glazePause s = .ok _ := (if_neg (by simp [hlasting])).trans (if_pos hruns)
  exact ⟨_, heffect, glazePause_frame s _ heffect, rfl⟩

theorem serves_glazeResume :
    Serves (.glazeResume via) via .maintainer [.crypt] (fun _ s => ephemeralState s = false ∧ s.crypt.glaze.state = 3)
      (fun _ s t => t.crypt = { s.crypt with glaze := { s.crypt.glaze with state := s.crypt.glaze.kind } }) := by
  refine serves_of_effect (exec_glazeResume via) (writeFits_glazeCommand _ (by simp)) fun _ s ⟨hlasting, hpaused⟩ => ?_
  have heffect : glazeResume s = .ok _ := (if_neg (by simp [hlasting])).trans (if_pos hpaused)
  exact ⟨_, heffect, glazeResume_frame s _ heffect, rfl⟩

theorem rejects_glazePause :
    Rejects (.glazePause via) via .maintainer 0x2783 0x2780 2
      (fun _ s => ephemeralState s = false ∧ s.crypt.glaze.state ≠ 1 ∧ s.crypt.glaze.state ≠ 2) :=
  rejects_of_effect (exec_glazePause via) (writeFits_glazeCommand _ (by simp)) fun _ _ ⟨hlasting, hstate⟩ =>
    (if_neg (by simp [hlasting])).trans (if_neg (not_or.mpr hstate))

theorem rejects_glazeResume :
    Rejects (.glazeResume via) via .maintainer 0x2783 0x2780 2
      (fun _ s => ephemeralState s = false ∧ s.crypt.glaze.state ≠ 3) :=
  rejects_of_effect (exec_glazeResume via) (writeFits_glazeCommand _ (by simp)) fun _ _ ⟨hlasting, hstate⟩ =>
    (if_neg (by simp [hlasting])).trans (if_neg hstate)

theorem rejects_glazeCommands_ephemeral : ∀ c ∈ [Instr.glazeStart via, .glazePause via, .glazeResume via],
    Rejects c via .maintainer 0x270B 0x2780 2 (fun _ s => ephemeralState s = true) := by
  simp only [List.forall_mem_cons, List.not_mem_nil, false_imp_iff, implies_true, and_true]
  exact ⟨rejects_of_effect (exec_glazeStart via) (writeFits_glazeCommand _ (by simp)) fun _ _ h => if_pos h,
    rejects_of_effect (exec_glazePause via) (writeFits_glazeCommand _ (by simp)) fun _ _ h => if_pos h,
    rejects_of_effect (exec_glazeResume via) (writeFits_glazeCommand _ (by simp)) fun _ _ h => if_pos h⟩

end

end Sys2Proof.Machine
end

section
/-! What programs of tiles, Palette writes and journal records leave of the keys, of the Glaze engine and of their counts. -/
namespace Sys2Proof.Machine

/-! ### The keys and the counts of the work on them (R195, R203, R205) -/

/-- The counts of page re-encryptions, of units and of operations that are complete (R208). -/
def cryptCounts : List (Nat × Nat) := [(0x2700, 9), (0x2780, 7), (0x2780, 0x0A)]

/-- The keys and the engine are as before, and so are their counts. -/
structure CryptKept (s t : State) : Prop where
  crypt : t.crypt = s.crypt
  count : ∀ e ∈ cryptCounts, stat t e.1 e.2 = stat s e.1 e.2

theorem CryptKept.refl (s : State) : CryptKept s s := ⟨rfl, fun _ _ => rfl⟩

theorem CryptKept.trans {s t r : State} (h : CryptKept s t) (k : CryptKept t r) : CryptKept s r :=
  ⟨k.crypt.trans h.crypt, fun e he => (k.count e he).trans (h.count e he)⟩

theorem CryptKept.foldl {α : Type} {f : State → α → State} (hf : ∀ s a, CryptKept s (f s a)) (l : List α) (s : State) :
    CryptKept s (l.foldl f s) :=
  List.foldlRecOn (motive := fun x => CryptKept s x) l f (.refl s) fun _ hx a _ => hx.trans (hf _ a)

/-- A change of the Palette alone. -/
theorem CryptKept.palette {s x : State} (h : CryptKept s x) (v : Palette) : CryptKept s { x with palette := v } :=
  ⟨h.crypt, h.count⟩

theorem CryptKept.ite {s a b : State} {c : Prop} [Decidable c] (ha : CryptKept s a) (hb : CryptKept s b) :
    CryptKept s (if c then a else b) := by
  split
  · exact ha
  · exact hb

theorem CryptKept.pages {s t : State} (h : CryptKept s t) : stat t 0x2700 9 = stat s 0x2700 9 := h.count (0x2700, 9) (by decide)

theorem CryptKept.units {s t : State} (h : CryptKept s t) : stat t 0x2780 7 = stat s 0x2780 7 := h.count (0x2780, 7) (by decide)

theorem CryptKept.operations {s t : State} (h : CryptKept s t) : stat t 0x2780 0x0A = stat s 0x2780 0x0A :=
  h.count (0x2780, 0x0A) (by decide)

theorem Frame.cryptKept {U : List UnitName} {s t : State} (h : Frame U s t) (hcrypt : .crypt ∉ U) (hstats : .stats ∉ U) :
    CryptKept s t :=
  ⟨h.crypt_eq hcrypt, fun e _ => h.stat hstats e.1 e.2⟩

theorem LowStatsKept.cryptKept {s t : State} (h : LowStatsKept s t) (hcrypt : t.crypt = s.crypt) : CryptKept s t := by
  refine ⟨hcrypt, fun e he => ?_⟩
  obtain ⟨hidx, hsub⟩ := (by decide : ∀ e ∈ cryptCounts, e.1 < 0x2900 ∧ e.2 < 256) e he
  exact h e.1 e.2 hidx hsub

theorem bump_cryptKept {idx sub : Nat} (h : ∀ e ∈ cryptCounts, objKey e.1 e.2 ≠ objKey idx sub) (s : State) (n : Nat) :
    CryptKept s (bump s idx sub n) :=
  ⟨(bump_frame s idx sub n).crypt_eq (by decide), fun e he => by rw [stat_bump, if_neg (h e he)]⟩

/-- A count of a subindex that is none of theirs. -/
theorem bump_cryptKept_of_sub {idx sub : Nat} (h : sub ≠ 7 ∧ sub ≠ 9 ∧ sub ≠ 0x0A ∧ sub < 256) (s : State) (n : Nat) :
    CryptKept s (bump s idx sub n) := by
  refine bump_cryptKept ?_ s n
  simp only [cryptCounts, List.forall_mem_cons, List.not_mem_nil, false_imp_iff, implies_true, and_true]
  unfold objKey
  omega

theorem raise_cryptKept (s : State) (code : Nat) (data : List Byte) : CryptKept s (raise s code data) := by
  refine ⟨(raise_frame s code data).crypt_eq (by decide), fun e he => ?_⟩
  obtain ⟨hidx, hsub⟩ := (by decide : ∀ e ∈ cryptCounts, e.1 ≠ 0x3180 ∧ e.2 < 256) e he
  exact raise_indexStatsKept hidx s code data e.2 hsub

theorem jqPush_cryptKept (s : State) (g : Nat) (units : List Nat) : CryptKept s (jqPush s g units) :=
  (jqPush_lowStatsKept s g units).cryptKept ((jqPush_frame s g units).crypt_eq (by decide))

theorem bumpCodec_cryptKept (s : State) (g n : Nat) : CryptKept s (bumpCodec s g 0x0D n) :=
  (bump_cryptKept_of_sub (by decide) s n).trans (bump_cryptKept_of_sub (by decide) _ n)

/-! ### Programs of tiles (R71, R101) -/

theorem regionWrite_cryptKept (s : State) (g p : Nat) : CryptKept s (regionWrite s g p) := by
  have hregion (x : State) (f : RegionRec → RegionRec) : CryptKept x (modRegion x g p f) :=
    (modRegion_frame x g p f).cryptKept (by decide) (by decide)
  have hdropped (x : State) : CryptKept x (bump x (0x2210 + g) 8 1) := bump_cryptKept_of_sub (by decide) x 1
  have hqueued (x : State) (f : GroupRec → GroupRec) : CryptKept x (modGroup x g f) :=
    (modGroup_frame x g f).cryptKept (by decide) (by decide)
  unfold regionWrite
  exact .ite (hregion _ _) (.ite (.ite ((hregion _ _).trans (hdropped _)) ((hregion _ _).trans (hqueued _ _))) (hregion _ _))

theorem programTile_cryptKept (s : State) (pl : Place) (code : List Byte) : CryptKept s (programTile s pl code) := by
  have hprogram : CryptKept s (programAt s pl code) :=
    (programAt_lowStatsKept s pl code).cryptKept ((programAt_frame s pl code).crypt_eq (by decide))
  unfold programTile
  dsimp only
  split
  · exact hprogram.trans (.ite (regionWrite_cryptKept _ _ _) (.refl _))
  · exact hprogram

theorem programMeta_cryptKept (s : State) (t : TileId) (payload : Line) (major minor : Nat) :
    CryptKept s (programMeta s t payload major minor) := by
  unfold programMeta
  split
  · exact programTile_cryptKept _ _ _
  · exact .refl s

theorem programLines_cryptKept (s : State) (codes : List (Nat × List Byte)) : CryptKept s (programLines s codes) := by
  unfold programLines
  refine CryptKept.foldl (fun x e => ?_) codes s
  split
  · exact (programTile_cryptKept _ _ _).trans ((noteVersion_frame _ _ _).cryptKept (by decide) (by decide))
  · exact .refl x

theorem openLineTile_cryptKept (s : State) (line : Nat) : CryptKept s (openLineTile programTile s line) := by
  unfold openLineTile
  split
  · exact .refl s
  · exact (CryptKept.ite (.refl s) ((afterDraw_frame s).cryptKept (by decide) (by decide))).trans (programTile_cryptKept _ _ _)

theorem openRest_cryptKept (s : State) (r : Nat) : CryptKept s (openRest s r) := by
  unfold openRest
  dsimp only
  exact (CryptKept.foldl openLineTile_cryptKept _ s).trans
    (.foldl (fun x _ => .foldl openLineTile_cryptKept _ x) _ _)

/-! ### Palette writes (R141, R144, R145) -/

theorem palMiss_cryptKept (s : State) (cls k : Nat) : CryptKept s (palMiss s cls k) := by
  have hmiss (x : State) (n : Nat) (m : Option MissReg) : CryptKept x (setMiss x n m) :=
    (setMiss_frame x n m).cryptKept (by decide) (by decide)
  have hdefer (x : State) : CryptKept x (palDefer x cls k) := (palDefer_frame x cls k).cryptKept (by decide) (by decide)
  have hfull : CryptKept s (palDefer (bump s 0x2510 4 1) cls k) := (bump_cryptKept_of_sub (by decide) _ _).trans (hdefer _)
  unfold palMiss
  split
  · split
    · split
      · exact (hmiss _ _ _).trans (bump_cryptKept_of_sub (by decide) _ _)
      · exact hfull
    · exact .refl s
  · split
    · exact hfull
    · split
      · exact hmiss _ _ _
      · exact ((palSelectSome_frame _ _).cryptKept (by decide) (by decide)).trans (hdefer _)

theorem palPush_cryptKept (s : State) (u : PalUpdate) : CryptKept s (palPush s u) := by
  have hselect (w : Option Nat) : CryptKept s (palSelectSome s w) := (palSelectSome_frame s w).cryptKept (by decide) (by decide)
  unfold palPush
  split
  · exact .refl s
  · split
    · split
      · exact .refl s
      · exact palMiss_cryptKept _ _ _
    · split
      · exact hselect _
      · exact hselect _

theorem palApply_cryptKept (s : State) (u : PalUpdate) : CryptKept s (palApply s u) := by
  unfold palApply
  dsimp only
  split
  · exact (CryptKept.refl s).palette _
  · split
    case h_1 t ht => exact Frame.cryptKept (palTry_frame s u t ht) (by decide) (by decide)
    case h_2 => exact (palPush_cryptKept s u).palette _

theorem palPut_cryptKept (s : State) (cls : Nat) (t : TileId) (data : Option Line) (fna : Bool) :
    CryptKept s (palPut s cls t data fna) := by
  have hcount (x : State) (sub : Nat) (h : sub ≠ 7 ∧ sub ≠ 9 ∧ sub ≠ 0x0A ∧ sub < 256) (e : Nat) :
      CryptKept x (perfCount (bump x 0x2510 sub 1) 12 e 1) :=
    (bump_cryptKept_of_sub h x 1).trans ((perfCount_frame _ _ _ _).cryptKept (by decide) (by decide))
  have happly (x : State) (held : Bool) (u : PalUpdate) :
      CryptKept x (palApply (if held = true then bump x 0x2510 6 1 else x) u) :=
    (CryptKept.ite (bump_cryptKept_of_sub (by decide) x 1) (.refl x)).trans (palApply_cryptKept _ u)
  unfold palPut
  dsimp only
  refine CryptKept.trans ?_ (happly _ _ _)
  split
  · exact (hcount s 1 (by decide) 2).trans ((hcount _ 2 (by decide) 3).trans
      ((palTouch_frame _ _).cryptKept (by decide) (by decide)))
  · exact hcount s 1 (by decide) 2

theorem openInvalidation_cryptKept (s : State) (v : Invalidation) : CryptKept s (openInvalidation s v) := by
  unfold openInvalidation
  dsimp only
  refine CryptKept.trans ?_ (bump_cryptKept_of_sub (by decide) _ _)
  refine CryptKept.trans ?_ (.foldl (fun x e => .ite ((palDrop_frame x _).cryptKept (by decide) (by decide)) (.refl x)) _ _)
  refine CryptKept.trans ((CryptKept.refl s).palette _) (.foldl (fun x n => ?_) _ _)
  split
  · exact .ite ((setMiss_frame x _ _).cryptKept (by decide) (by decide)) (.refl x)
  · exact .refl x

theorem settlePalette_cryptKept (s : State) : CryptKept s (settlePalette s) := by
  unfold settlePalette
  dsimp only
  refine CryptKept.trans ?_ (.foldl palApply_cryptKept _ _)
  refine CryptKept.palette (CryptKept.trans ((CryptKept.refl s).palette _) (.foldl (fun x e => ?_) _ _)) _
  exact .ite ((palDefer_frame x _ _).cryptKept (by decide) (by decide)) (.ite (.refl x) (palMiss_cryptKept x _ _))

theorem invalidateRange_cryptKept (s : State) (kind lo hi : Nat) : CryptKept s (invalidateRange s kind lo hi) := by
  unfold invalidateRange
  exact .ite ((CryptKept.refl s).palette _) (openInvalidation_cryptKept _ _)

theorem closeInvalidation_cryptKept (s : State) (kind lo hi : Nat) : CryptKept s (closeInvalidation s kind lo hi) := by
  unfold closeInvalidation
  dsimp only
  refine CryptKept.trans ?_ (settlePalette_cryptKept _)
  have hfreed := (CryptKept.refl s).palette { s.palette with comparators := s.palette.comparators.erase ⟨kind, lo, hi⟩ }
  split
  · exact hfreed
  · exact .ite ((hfreed.palette _).trans (openInvalidation_cryptKept _ _)) hfreed

/-- A tile whose parent is a node advances its counter in the Palette; only that of the highest nodes stands in the root (R191). -/
theorem parentAdvance_cryptKept {t p : TileId} (h : (parentOf t).1 = some p) (s : State) :
    CryptKept s (parentAdvance s t).1 := by
  have hadvance (kids : List TileId) (full : Bool) (d : Line) : CryptKept s (if full then
      bump (kids.foldl (fun s c => if c = t then s else palPut s 0 c none false) (palPut s 0 p (some d) false)) 0x2700 0x0A 1
      else palPut s 0 p (some d) false) := by
    have hput := palPut_cryptKept s 0 p (some d) false
    refine .ite (hput.trans (CryptKept.trans ?_ (bump_cryptKept (by decide) _ _))) hput
    exact .foldl (fun x c => .ite (.refl x) (palPut_cryptKept x _ _ _ _)) _ _
  unfold parentAdvance
  split
  · dsimp only
    rw [h]
    exact hadvance _ _ _
  · dsimp only
    rw [h]
    exact hadvance _ _ _
  · exact .refl s

/-! ### The window of a sealed range (R183) -/

theorem levelFour_cryptKept (s : State) (n : Nat) : CryptKept s (levelFour s n).1 := by
  unfold levelFour
  dsimp only
  refine CryptKept.trans (.ite (.refl s) ?_) (parentAdvance_cryptKept rfl _)
  exact ((afterDraw_frame s).cryptKept (by decide) (by decide)).trans (palPut_cryptKept _ _ _ _ _)

/-- A node written under a drawn major. -/
theorem drawnMeta_cryptKept (s : State) (t : TileId) (payload : Line) (major minor : Nat) :
    CryptKept s (programMeta (afterDraw s) t payload major minor) :=
  ((afterDraw_frame s).cryptKept (by decide) (by decide)).trans (programMeta_cryptKept _ _ _ _ _)

theorem freshNode_cryptKept (s : State) (n : Nat) : CryptKept s (freshNode s n) := by
  unfold freshNode
  dsimp only
  refine (levelFour_cryptKept s n).trans ((drawnMeta_cryptKept _ _ _ _ _).trans (.foldl (fun x i => ?_) _ _))
  refine (drawnMeta_cryptKept _ _ _ _ _).trans (.foldl (fun x j => ?_) _ _)
  exact (drawnMeta_cryptKept _ _ _ _ _).trans (.foldl (fun x k => programMeta_cryptKept _ _ _ _ _) _ _)

theorem windowInvalidate_cryptKept (s : State) (a b top : Nat) : CryptKept s (windowInvalidate s a b top) := by
  unfold windowInvalidate
  exact (invalidateRange_cryptKept s _ _ _).trans (.foldl (fun x i => invalidateRange_cryptKept x _ _ _) _ _)

theorem windowRelease_cryptKept (s : State) (a b top : Nat) : CryptKept s (windowRelease s a b top) := by
  unfold windowRelease
  exact (closeInvalidation_cryptKept s _ _ _).trans (.foldl (fun x i => closeInvalidation_cryptKept x _ _ _) _ _)

end Sys2Proof.Machine
end

section
/-! The end of an opening (R183) and the end of a re-keying (R205). -/
namespace Sys2Proof.Machine

/-! ### The engine is free again (R183) -/

theorem engineIdle_ranges (s : State) : (engineIdle s).crypt.ranges = s.crypt.ranges := by
  unfold engineIdle
  dsimp only
  split <;> rfl

theorem engineIdle_storeSeq (s : State) : (engineIdle s).crypt.storeSeq = s.crypt.storeSeq := by
  unfold engineIdle
  dsimp only
  split <;> rfl

/-- The next opening that waits begins. -/
theorem engineIdle_range (s : State) : (engineIdle s).crypt.glaze.range = s.crypt.glaze.queue.head? := by
  unfold engineIdle
  dsimp only
  split
  case h_1 hqueue => rw [hqueue]; rfl
  case h_2 hqueue => rw [hqueue]; rfl

theorem engineIdle_queue (s : State) : (engineIdle s).crypt.glaze.queue = s.crypt.glaze.queue.tail := by
  unfold engineIdle
  dsimp only
  split <;> rfl

theorem engineIdle_frame_crypt (s : State) : Frame [.crypt] s (engineIdle s) := by
  unfold engineIdle
  dsimp only
  split
  · exact Frame.step (engineStart_frame _ _ _) (Frame.upd_crypt (.refl _ s) rfl) rfl
  · exact Frame.upd_crypt (.refl _ s) rfl

/-! ### The window of an opening (R183) -/

/-- The keys and the counts of the work on them are as before; the engine at most noted that its window stands. -/
structure WindowStands (s t : State) : Prop where
  crypt : ∃ opened, t.crypt = { s.crypt with glaze := { s.crypt.glaze with opened := opened } }
  count : ∀ e ∈ cryptCounts, stat t e.1 e.2 = stat s e.1 e.2

theorem CryptKept.windowStands {s t : State} (h : CryptKept s t) : WindowStands s t :=
  ⟨⟨s.crypt.glaze.opened, h.crypt⟩, h.count⟩

theorem WindowStands.trans_kept {s t r : State} (h : WindowStands s t) (k : CryptKept t r) : WindowStands s r := by
  obtain ⟨⟨opened, hcrypt⟩, hcount⟩ := h
  exact ⟨⟨opened, k.crypt.trans hcrypt⟩, fun e he => (k.count e he).trans (hcount e he)⟩

theorem openWindow_windowStands (s : State) (r : Nat) : WindowStands s (openWindow s r) := by
  have hwritten (x : State) (h : CryptKept s x) :
      WindowStands s { x with crypt := { x.crypt with glaze := { x.crypt.glaze with opened := true } } } :=
    ⟨⟨true, by rw [h.crypt]⟩, h.count⟩
  unfold openWindow
  refine hwritten _ ?_
  split
  · exact .refl s
  · exact (windowInvalidate_cryptKept _ _ _ _).trans
      ((CryptKept.foldl freshNode_cryptKept _ _).trans (windowRelease_cryptKept _ _ _ _))

theorem openFirst_windowStands {s : State} {r : Nat} (h : (openFirst s r).2 = true) : WindowStands s (openFirst s r).1 := by
  unfold openFirst at h ⊢
  split
  · exact (CryptKept.refl s).windowStands
  · split
    · exact openWindow_windowStands s r
    case isFalse hopened hready =>
      rw [if_neg hopened, if_neg hready] at h
      exact absurd h Bool.false_ne_true

/-! ### OPENING_COMPLETE -/

/-- The completion of an opening is recorded. -/
def openingRecorded (s : State) (r : Nat) : State :=
  raise (raise s 0x270A (leBytes 1 r ++ leBytes 4 (rangeRec s r).generation ++ leBytes 1 (rangeRec s r).source)) 0x2782
    (leBytes 1 r ++ leBytes 1 1 ++ operationTime
      (raise s 0x270A (leBytes 1 r ++ leBytes 4 (rangeRec s r).generation ++ leBytes 1 (rangeRec s r).source)))

/-- The opening whose window stands has written the rest of its lines; its range is Open. -/
def rangeOpened (s : State) (r : Nat) : State :=
  modRange (openRest s r) r (fun x => { x with state := 2 })

/-- An operation of the engine is counted, and the engine free. -/
def operationEnded (s : State) : State :=
  engineIdle (bump s 0x2780 0x0A 1)

theorem openingRecorded_cryptKept (s : State) (r : Nat) : CryptKept s (openingRecorded s r) :=
  (raise_cryptKept _ _ _).trans (raise_cryptKept _ _ _)

theorem statBits_operations : statBits 0x2780 0x0A = 32 := by decide +kernel

theorem stat_operationEnded (s : State) :
    stat (operationEnded s) 0x2780 0x0A = (stat s 0x2780 0x0A + 1) % 2 ^ 32 := by
  unfold operationEnded
  rw [(engineIdle_frame_crypt _).stat (by decide), stat_bump, if_pos rfl, statBits_operations]
  rfl

theorem operationEnded_ranges (s : State) : (operationEnded s).crypt.ranges = s.crypt.ranges := engineIdle_ranges _

theorem operationEnded_storeSeq (s : State) : (operationEnded s).crypt.storeSeq = s.crypt.storeSeq := engineIdle_storeSeq _

theorem operationEnded_range (s : State) : (operationEnded s).crypt.glaze.range = s.crypt.glaze.queue.head? := engineIdle_range _

theorem operationEnded_queue (s : State) : (operationEnded s).crypt.glaze.queue = s.crypt.glaze.queue.tail := engineIdle_queue _

theorem rangeOpened_storeSeq (s : State) (r : Nat) : (rangeOpened s r).crypt.storeSeq = (openRest s r).crypt.storeSeq := rfl

theorem rangeOpened_glaze (s : State) (r : Nat) : (rangeOpened s r).crypt.glaze = (openRest s r).crypt.glaze := rfl

theorem exec_openingComplete {s : State} {r : Nat} (hrange : s.crypt.glaze.range = some r) (hkind : s.crypt.glaze.kind = 1)
    (hstate : s.crypt.glaze.state = 1) (hactive : s.sys.memoryActive = true)
    (hlasting : ephemeralState s = false) : exec .openingComplete s =
      if (openFirst s r).2 = false then .next (openFirst s r).1
      else .next (keyStoreUpdate (operationEnded (openingRecorded (rangeOpened (openFirst s r).1 r) r))) := by
  show execOpeningComplete s = _
  unfold execOpeningComplete
  dsimp only
  rw [hrange]
  exact if_pos ⟨hkind, hstate, hactive, hlasting⟩

theorem exec_openingComplete_idle {s : State} {r : Nat} (hrange : s.crypt.glaze.range = some r)
    (h : ¬ (s.crypt.glaze.kind = 1 ∧ s.crypt.glaze.state = 1 ∧ s.sys.memoryActive = true ∧ ephemeralState s = false)) :
    exec .openingComplete s = .next s := by
  show execOpeningComplete s = _
  unfold execOpeningComplete
  dsimp only
  rw [hrange]
  exact if_neg h

theorem completes_openingComplete (r : Nat) :
    Completes .openingComplete
      [.sys, .mgmt, .folio, .ledger, .reserve, .groups, .palette, .crypt, .perf, .path, .stats, .draws, .out]
      (fun s => s.crypt.glaze.range = some r ∧ s.crypt.glaze.kind = 1 ∧ s.crypt.glaze.state = 1 ∧ s.sys.memoryActive = true ∧
        ephemeralState s = false ∧ (openFirst s r).2 = true)
      (fun s t => (rangeRec t r).state = 2 ∧ (rangeRec t r).current = (rangeRec s r).current ∧
        t.crypt.storeSeq = s.crypt.storeSeq + 1 ∧ t.crypt.glaze.range = s.crypt.glaze.queue.head? ∧
        t.crypt.glaze.queue = s.crypt.glaze.queue.tail ∧ stat t 0x2780 0x0A = (stat s 0x2780 0x0A + 1) % 2 ^ 32) := by
  rintro s ⟨hrange, hkind, hstate, hactive, hlasting, hwindow⟩
  have hexec := (exec_openingComplete hrange hkind hstate hactive hlasting).trans (if_neg (by simp [hwindow]))
  obtain ⟨t, hnext, hframe⟩ := execOpeningComplete_frame s
  have ht := Host.Outcome.next.inj (hnext.symm.trans hexec)
  refine ⟨t, hnext, hframe, ?_⟩
  rw [ht]
  obtain ⟨⟨opened, hcrypt⟩, hcount⟩ := (openFirst_windowStands hwindow).trans_kept (openRest_cryptKept _ r)
  have hrecorded := openingRecorded_cryptKept (rangeOpened (openFirst s r).1 r) r
  have hranges : (operationEnded (openingRecorded (rangeOpened (openFirst s r).1 r) r)).crypt.ranges =
      (rangeOpened (openFirst s r).1 r).crypt.ranges := by rw [operationEnded_ranges, hrecorded.crypt]
  have hrec : rangeRec (keyStoreUpdate (operationEnded (openingRecorded (rangeOpened (openFirst s r).1 r) r))) r =
      { rangeRec s r with state := 2 } := by
    rw [rangeRec_of_modRange ((keyStoreUpdate_ranges _).trans hranges), rangeRec_congr (s := s) (by rw [hcrypt])]
  refine ⟨by rw [hrec], by rw [hrec], ?_, ?_, ?_, ?_⟩
  · rw [keyStoreUpdate_crypt, operationEnded_storeSeq, hrecorded.crypt, rangeOpened_storeSeq, hcrypt]
  · rw [keyStoreUpdate_crypt, operationEnded_range, hrecorded.crypt, rangeOpened_glaze, hcrypt]
  · rw [keyStoreUpdate_crypt, operationEnded_queue, hrecorded.crypt, rangeOpened_glaze, hcrypt]
  · rw [(keyStoreUpdate_frame _).stat (by decide), stat_operationEnded, hrecorded.operations]
    exact congrArg (fun n : Int => (n + 1) % 2 ^ 32) (hcount (0x2780, 0x0A) (by decide))

theorem completes_openingComplete_waits (r : Nat) :
    Completes .openingComplete [.palette, .perf, .stats] (fun s => s.crypt.glaze.range = some r ∧ s.crypt.glaze.kind = 1 ∧
      s.crypt.glaze.opened = false ∧ windowReady s r = false) (fun _ _ => True) := by
  rintro s ⟨hrange, hkind, hopened, hready⟩
  have hfirst : openFirst s r = (askWindow s r, false) := (if_neg (by simp [hopened])).trans (if_neg (by simp [hready]))
  by_cases hruns : s.crypt.glaze.state = 1 ∧ s.sys.memoryActive = true ∧ ephemeralState s = false
  · obtain ⟨hstate, hactive, hlasting⟩ := hruns
    refine ⟨askWindow s r, ?_, askWindow_frame s r, trivial⟩
    rw [exec_openingComplete hrange hkind hstate hactive hlasting, hfirst]
    exact if_pos rfl
  · exact ⟨s, exec_openingComplete_idle hrange fun h => hruns h.2, .refl _ s, trivial⟩

theorem completes_openingComplete_idle :
    Completes .openingComplete [] (fun s => s.crypt.glaze.range = none ∨ s.crypt.glaze.kind ≠ 1) (fun _ _ => True) := by
  intro s hidle
  refine ⟨s, ?_, .refl _ s, trivial⟩
  cases hrange : s.crypt.glaze.range with
  | none =>
    show execOpeningComplete s = _
    unfold execOpeningComplete
    dsimp only
    rw [hrange]
  | some r => exact exec_openingComplete_idle hrange fun h => hidle.elim (by simp [hrange]) (· h.1)

/-! ### GLAZE_FINISH (R205) -/

/-- The lines that the end of a re-keying waits for. -/
def finishingLeft (s : State) (r : Nat) : List (Nat × Bool) :=
  s.crypt.glaze.finishing.filter (fun e => (easelLine s e.1).dirty && rangeOf s (placeLine s e.1) == r)

/-- Range `r` is Open under its new key alone. -/
def rekeyed (s : State) (r : Nat) : State :=
  modRange ((rangeGroups s r).foldl (fun x g => jqPush x g (glazeUnits 3 r s.crypt.glaze.step)) s) r (fun x =>
    { x with current := x.next, next := [], source := bnat x.nextInstalled, nextInstalled := false, fna := false, state := 2 })

/-- The end of the re-keying is recorded. -/
def glazeRecorded (s : State) (r : Nat) : State :=
  raise (bump s 0x2780 0x0A 1) 0x2782 (leBytes 1 r ++ leBytes 1 2 ++ operationTime s)

/-- A line that the end waits for is selected, unless it is queued or its program runs. -/
def finishingSelect (s : State) (e : Nat × Bool) : State :=
  if (easelLine s e.1).queued || (easelLine s e.1).flight then s else destageSelect s 4 0 e.1

theorem exec_glazeFinish {s : State} {r : Nat} (hrange : s.crypt.glaze.range = some r) (hkind : s.crypt.glaze.kind = 2)
    (hstate : s.crypt.glaze.state = 4) : exec .glazeFinish s =
      if finishingLeft s r = [] then
        if (rangeGroups s r).any (fun g => !journalRoom s g 1) then .next s
        else .next (keyStoreUpdate (keyStoreUpdate (engineIdle (glazeRecorded (rekeyed s r) r))))
      else .next ((finishingLeft s r).foldl finishingSelect s) := by
  show execGlazeFinish s = _
  unfold execGlazeFinish
  dsimp only
  rw [hrange]
  exact if_pos ⟨hkind, hstate⟩

/-- A line that was dirty has not left the Easel since. -/
def FinishWaits (r : Nat) (s : State) : Prop :=
  ∃ e ∈ s.crypt.glaze.finishing, (easelLine s e.1).dirty = true ∧ rangeOf s (placeLine s e.1) = r

theorem finishingLeft_eq_nil_iff (s : State) (r : Nat) : finishingLeft s r = [] ↔ ¬ FinishWaits r s := by
  unfold finishingLeft FinishWaits
  simp only [List.filter_eq_nil_iff, Bool.and_eq_true, beq_iff_eq, not_exists, not_and]

theorem rekeyed_cryptKept (s : State) (r : Nat) :
    CryptKept s ((rangeGroups s r).foldl (fun x g => jqPush x g (glazeUnits 3 r s.crypt.glaze.step)) s) :=
  .foldl (fun x g => jqPush_cryptKept x g _) _ s

theorem stat_glazeRecorded (s : State) (r : Nat) :
    stat (glazeRecorded s r) 0x2780 0x0A = (stat s 0x2780 0x0A + 1) % 2 ^ 32 := by
  unfold glazeRecorded
  rw [(raise_cryptKept _ _ _).operations, stat_bump, if_pos rfl, statBits_operations]
  rfl

theorem glazeRecorded_crypt (s : State) (r : Nat) : (glazeRecorded s r).crypt = s.crypt :=
  ((raise_cryptKept _ _ _).crypt).trans ((bump_frame _ _ _ _).crypt_eq (by decide))

section
variable (r : Nat)

/-- A re-keying whose boundary has passed the range's last line. -/
def Finishing (s : State) : Prop :=
  s.crypt.glaze.range = some r ∧ s.crypt.glaze.kind = 2 ∧ s.crypt.glaze.state = 4

theorem completes_glazeFinish :
    Completes .glazeFinish [.mgmt, .folio, .ledger, .groups, .easel, .crypt, .queues, .perf, .stats, .out]
      (fun s => Finishing r s ∧ ¬ FinishWaits r s ∧ ∀ g ∈ rangeGroups s r, journalRoom s g 1 = true)
      (fun s t => rangeRec t r =
          { rangeRec s r with
            current := (rangeRec s r).next, next := [], source := bnat (rangeRec s r).nextInstalled, nextInstalled := false,
            fna := false, state := 2 } ∧ RangesKept r s t ∧ t.crypt.storeSeq = s.crypt.storeSeq + 2 ∧
        stat t 0x2780 0x0A = (stat s 0x2780 0x0A + 1) % 2 ^ 32) := by
  rintro s ⟨⟨hrange, hkind, hstate⟩, hdone, hroom⟩
  have hexec := (exec_glazeFinish hrange hkind hstate).trans ((if_pos ((finishingLeft_eq_nil_iff s r).mpr hdone)).trans
    (if_neg (by simpa using hroom)))
  obtain ⟨t, hnext, hframe⟩ := execGlazeFinish_frame s
  have ht := Host.Outcome.next.inj (hnext.symm.trans hexec)
  refine ⟨t, hnext, hframe, ?_⟩
  rw [ht]
  have hpushed := rekeyed_cryptKept s r
  have hranges : (keyStoreUpdate (keyStoreUpdate (engineIdle (glazeRecorded (rekeyed s r) r)))).crypt.ranges =
      (rekeyed s r).crypt.ranges := by
    rw [keyStoreUpdate_ranges, keyStoreUpdate_ranges, engineIdle_ranges, glazeRecorded_crypt]
  have hbefore := fun q => rangeRec_congr (congrArg Crypt.ranges hpushed.crypt) q
  refine ⟨(rangeRec_of_modRange hranges).trans (by rw [hbefore]), fun q hq => (rangesKept_of_modRange hranges q hq).trans (hbefore q),
    ?_, ?_⟩
  · rw [keyStoreUpdate_crypt, keyStoreUpdate_crypt, engineIdle_storeSeq, glazeRecorded_crypt]
    unfold rekeyed
    rw [modRange_storeSeq, hpushed.crypt]
  · rw [(keyStoreUpdate_frame _).stat (by decide), (keyStoreUpdate_frame _).stat (by decide),
      (engineIdle_frame_crypt _).stat (by decide), stat_glazeRecorded]
    unfold rekeyed
    rw [(modRange_frame _ _ _).stat (by decide), hpushed.operations]

theorem completes_glazeFinish_noRoom :
    Completes .glazeFinish [] (fun s => Finishing r s ∧ ¬ FinishWaits r s ∧ ∃ g ∈ rangeGroups s r, journalRoom s g 1 = false)
      (fun _ _ => True) := by
  rintro s ⟨⟨hrange, hkind, hstate⟩, hdone, hroom⟩
  exact ⟨s, (exec_glazeFinish hrange hkind hstate).trans ((if_pos ((finishingLeft_eq_nil_iff s r).mpr hdone)).trans
    (if_pos (by simpa using hroom))), .refl _ s, trivial⟩

theorem completes_glazeFinish_waits :
    Completes .glazeFinish [.groups, .easel, .stats] (fun s => Finishing r s ∧ FinishWaits r s)
      (fun s t => ∀ q, easelLine t q = { easelLine s q with queued := (easelLine t q).queued }) := by
  rintro s ⟨⟨hrange, hkind, hstate⟩, hwaits⟩
  refine ⟨_, (exec_glazeFinish hrange hkind hstate).trans
    (if_neg fun h => (finishingLeft_eq_nil_iff s r).mp h hwaits),
    Frame.foldl (fun x e => Frame.ite (.refl _ x) (destageSelect_frame x 4 0 e.1)) (.refl _ s), ?_⟩
  refine (Selects.foldl (fun x e => ?_) _ s).lines
  unfold finishingSelect
  split
  · exact .refl x
  · exact destageSelect_selects x 4 0 e.1

end

end Sys2Proof.Machine
end

section
/-! A step of the engine: its mask, its end, and the lines of an opening written on the way (R183, R202, R203, R205). -/
namespace Sys2Proof.Machine

/-! ### The medium after the program of a tile (R46, R54) -/

/-- The columns of a place that are not erased hold the patches of a codeword, and the medium else is as before. -/
def Programmed (s t : State) (pl : Place) (code : List Byte) : Prop :=
  ∀ ch a, ch < 64 → a < 2 ^ 35 → tabGet dPatch t.path.medium (patchKey ch a) =
    if ch / 8 = pl.group ∧ a = pl.addrs.getD (ch % 8) 0 ∧ ch % 8 ∉ erasedColumns s pl.group pl.slot
    then patchOfSymbols code (ch % 8) else tabGet dPatch s.path.medium (patchKey ch a)

/-- A place within the medium. -/
def Inside (pl : Place) : Prop := pl.group < 8 ∧ ∀ c, c < 8 → pl.addrs.getD c 0 < 2 ^ 35

theorem programmed_programTile {s : State} {pl : Place} (hinside : Inside pl) (hfence : placeFenced s pl = false)
    (code : List Byte) : Programmed s (programTile s pl code) pl code := by
  intro ch a _ ha
  rw [programTile_path]
  exact medium_programAt hfence hinside.2 code ha

theorem Programmed.of_path {s t u : State} {pl : Place} {code : List Byte} (h : Programmed s t pl code) (hpath : u.path = t.path) :
    Programmed s u pl code := by
  unfold Programmed
  rwa [hpath]

/-- What a program finds depends on the slots and the medium alone. -/
theorem Programmed.congr {s x t : State} {pl : Place} {code : List Byte} (h : Programmed x t pl code) (hslots : SameSlots s x) :
    Programmed s t pl code := by
  unfold Programmed at h ⊢
  simpa only [hslots.erasedColumns, hslots.path] using h

/-! ### The step mask (R202) -/

theorem maskIndex_congr {s t : State} (hset : t.settings = s.settings) (r line : Nat) : maskIndex t r line = maskIndex s r line := by
  unfold maskIndex rangeFirst
  simp only [settingN_congr hset]

theorem markedLine_congr {s t : State} (hset : t.settings = s.settings) (hmask : t.crypt.glaze.mask = s.crypt.glaze.mask)
    (r line : Nat) : markedLine t r line = markedLine s r line := by
  unfold markedLine
  rw [maskIndex_congr hset, hmask]

theorem getLsbD_or_bit (m : BitVec 512) {i : Nat} (hi : i < 512) : (m ||| (1#512 <<< i)).getLsbD i = true := by
  rw [BitVec.getLsbD_or, BitVec.getLsbD_shiftLeft]
  simp [hi]

theorem markedLine_markLines (s : State) (r line : Nat) : markedLine (markLines s r [line]) r line = true := by
  unfold markedLine
  rw [maskIndex_congr ((markLines_frame s r [line]).settings_eq (by decide))]
  exact getLsbD_or_bit _ (Nat.mod_lt _ (by decide))

/-! ### The end of a step (R205) -/

theorem nextStep_ge {s : State} {r k n : Nat} (h : nextStep s r k = some n) : k ≤ n := by
  unfold nextStep at h
  dsimp only at h
  split at h
  · exact (Option.some.inj h).le
  · obtain ⟨u, hu, rfl⟩ := Option.map_eq_some_iff.mp h
    obtain ⟨i, -, rfl⟩ := List.mem_map.mp (List.mem_of_find?_eq_some hu)
    omega

/-- Where the boundary goes from here. -/
def stepAfter (s : State) (r : Nat) : Nat :=
  (nextStep s r (s.crypt.glaze.step + 1)).getD (s.crypt.glaze.step + 1)

theorem lt_stepAfter (s : State) (r : Nat) : s.crypt.glaze.step < stepAfter s r := by
  unfold stepAfter
  cases hnext : nextStep s r (s.crypt.glaze.step + 1) with
  | none => exact Nat.lt_succ_self _
  | some n => exact nextStep_ge hnext

/-- The boundary has moved on. -/
def boundaryMoved (s : State) (r : Nat) : State :=
  { s with crypt := { s.crypt with glaze := { s.crypt.glaze with step := stepAfter s r, mask := 0 } } }

/-- The groups of the range have their records of the boundary. -/
def boundaryNoted (s : State) (r : Nat) : State :=
  (rangeGroups (boundaryMoved s r) r).foldl (fun x g => jqPush x g (glazeUnits 0 r (stepAfter s r))) (boundaryMoved s r)

theorem boundaryNoted_cryptKept (s : State) (r : Nat) : CryptKept (boundaryMoved s r) (boundaryNoted s r) :=
  .foldl (fun x g => jqPush_cryptKept x g _) _ _

/-- A step that does not end leaves the state; the end of one moves the boundary, and in a re-keying may enter the finishing state. -/
theorem stepEnd_cases (s : State) (r : Nat) : stepEnd s r = s ∨ (s.crypt.glaze.kind = 1 ∧ stepEnd s r = boundaryMoved s r) ∨
    (s.crypt.glaze.kind ≠ 1 ∧ (stepEnd s r = boundaryNoted s r ∨ stepEnd s r = beginFinishing (boundaryNoted s r) r)) := by
  unfold stepEnd
  dsimp only
  split
  · split
    case isTrue hkind => exact .inr (.inl ⟨hkind, rfl⟩)
    case isFalse hkind =>
      split
      · exact .inr (.inr ⟨hkind, .inr rfl⟩)
      · exact .inr (.inr ⟨hkind, .inl rfl⟩)
  · exact .inl rfl

/-- What the end of a step leaves: units in flight and counts; and it moves the boundary, or changes nothing. -/
structure StepEnded (s t : State) : Prop where
  step : t = s ∨ s.crypt.glaze.step < t.crypt.glaze.step
  units : t.crypt.glaze.units = s.crypt.glaze.units
  count : stat t 0x2780 7 = stat s 0x2780 7
  easel : s.crypt.glaze.kind = 1 → t.easel = s.easel

theorem StepEnded.refl (s : State) : StepEnded s s := ⟨.inl rfl, rfl, rfl, fun _ => rfl⟩

theorem stepEnd_stepEnded (s : State) (r : Nat) : StepEnded s (stepEnd s r) := by
  have hnoted := boundaryNoted_cryptKept s r
  rcases stepEnd_cases s r with hstays | ⟨hkind, hmoved⟩ | ⟨hkind, hnotes | hfinishes⟩
  · rw [hstays]
    exact .refl s
  · rw [hmoved]
    exact ⟨.inr (lt_stepAfter s r), rfl, rfl, fun _ => rfl⟩
  · rw [hnotes]
    exact ⟨.inr (by rw [hnoted.crypt]; exact lt_stepAfter s r), by rw [hnoted.crypt]; rfl, hnoted.units, fun h => absurd h hkind⟩
  · rw [hfinishes]
    obtain ⟨lines, hcrypt⟩ := beginFinishing_crypt (boundaryNoted s r) r
    have hcount := (beginFinishing_frame_uncounted (boundaryNoted s r) r).stat (by decide) 0x2780 7
    exact ⟨.inr (by rw [hcrypt, hnoted.crypt]; exact lt_stepAfter s r), by rw [hcrypt, hnoted.crypt]; rfl, hcount.trans hnoted.units,
      fun h => absurd h hkind⟩

/-- A line marked before its step could end is marked still, or the boundary has left it behind. -/
theorem StepEnded.marked {s t : State} {r : Nat} (h : StepEnded s t) {line : Nat} (hmarked : markedLine s r line = true) {k : Nat}
    (hk : s.crypt.glaze.step = k) (hstep : t.crypt.glaze.step = k) : markedLine t r line = true := by
  rcases h.step with rfl | hmoved
  · exact hmarked
  · omega

/-! ### An opening's lines (R183) -/

/-- The engine has noted whether its window stands. -/
def windowNoted (s : State) (opened : Bool) : State :=
  { s with crypt := { s.crypt with glaze := { s.crypt.glaze with opened := opened } } }

theorem windowNoted_frame (s : State) (opened : Bool) : Frame [.crypt] s (windowNoted s opened) :=
  Frame.upd_crypt (.refl _ s) rfl

/-- A range without a sealed window is opened at once. -/
theorem openFirst_of_no_window {s : State} {r : Nat} (h : windowOf s r = none) :
    ∃ opened, openFirst s r = (windowNoted s opened, true) := by
  have hready : windowReady s r = true := by simp [windowReady, h]
  have hwindow : openWindow s r = windowNoted s true := by
    unfold openWindow windowNoted
    rw [h]
  unfold openFirst
  by_cases hopened : s.crypt.glaze.opened = true
  · exact ⟨s.crypt.glaze.opened, if_pos hopened⟩
  · rw [if_neg hopened, if_pos hready, hwindow]
    exact ⟨true, rfl⟩

theorem not_sealed_of_no_window {s : State} {r line : Nat} (h : windowOf s r = none) (hrange : rangeOf s line = r) :
    sealedLine s line = false := by
  have hsealed : settingB s (0x2710 + r) 3 = false := by
    unfold windowOf at h
    split at h
    · exact absurd h (by simp)
    case isFalse hseal => simpa using hseal
  unfold sealedLine
  rw [hrange, hsealed, Bool.and_false]

section
variable (s : State) (opened : Bool)

theorem windowNoted_sameSlots : SameSlots s (windowNoted s opened) :=
  (windowNoted_frame s opened).sameSlots (by decide) (by decide) (by decide) (by decide) (by decide)

theorem ephemeralState_windowNoted : ephemeralState (windowNoted s opened) = ephemeralState s := rfl

theorem linePlace_windowNoted (line : Nat) : linePlace (windowNoted s opened) line = linePlace s line := by
  have hgroups : (windowNoted s opened).groups = s.groups := rfl
  have hsys : (windowNoted s opened).sys = s.sys := rfl
  unfold linePlace
  rw [ephemeralState_windowNoted, (windowNoted_sameSlots s opened).placeOf hgroups, scratchPlace_congr hsys hgroups]

theorem sealedLine_windowNoted (line : Nat) : sealedLine (windowNoted s opened) line = sealedLine s line := by
  have hset : (windowNoted s opened).settings = s.settings := rfl
  unfold sealedLine
  rw [ephemeralState_windowNoted, rangeOf_congr hset, settingB_congr hset]

theorem lineKey_windowNoted (line : Nat) : lineKey (windowNoted s opened) line = lineKey s line := by
  have hset : (windowNoted s opened).settings = s.settings := rfl
  unfold lineKey stepOf rangeFirst rangeRec
  simp only [rangeOf_congr hset, settingN_congr hset, ephemeralState_windowNoted]
  rfl

theorem lineCode_windowNoted (key : List Byte) (line major version : Nat) (data : Line) :
    lineCode (windowNoted s opened) key line major version data = lineCode s key line major version data := by
  have hset : (windowNoted s opened).settings = s.settings := rfl
  have hpath : (windowNoted s opened).path = s.path := rfl
  unfold lineCode lineMac goodCode epochByte
  simp only [sealedLine_windowNoted, rangeOf_congr hset, hpath]

end

end Sys2Proof.Machine
end

section
/-! Units of the Glaze engine: a line of an opening (R183), and the commit of a unit of a re-keying (R203). -/
namespace Sys2Proof.Machine

theorem engineProgram_path (s : State) (pl : Place) (code : List Byte) :
    (engineProgram s pl code).path = (programTile s pl code).path :=
  (noteProgram_frame _ pl code).path_eq (by decide)

/-- A line of an opening is written, and its mask bit set. -/
def openingMarked (s : State) (r line : Nat) : State :=
  markLines (openLineTile engineProgram s line) r [line]

/-- The line whose unit an index of the step names. -/
def unitLine (s : State) (r : Nat) (i : Fin 512) : Nat := rangeFirst s r + 512 * s.crypt.glaze.step + i.val

/-- The engine may write or read lines of the group (R203). -/
structure UnitRuns (s : State) (g : Nat) : Prop where
  memory : s.sys.memoryActive = true
  active : s.sys.dev = .active
  cool : groupCool s g = true
  awake : groupAwake s g = true

theorem ephemeralState_of_active {s : State} (h : s.sys.dev = .active) : ephemeralState s = false := by
  unfold ephemeralState
  rw [h]

theorem rangeOf_of_mem_stepLines {s : State} {r k line : Nat} (h : line ∈ stepLines s r k) : rangeOf s line = r := by
  have hmine := (List.mem_filter.mp h).2
  simp only [Bool.and_eq_true, beq_iff_eq] at hmine
  exact hmine.1

theorem exec_glazeUnit_opening {s : State} {r : Nat} {i : Fin 512} (errs : List (List Codeword))
    (hrange : s.crypt.glaze.range = some r) (hkind : s.crypt.glaze.kind = 1) (hstate : s.crypt.glaze.state = 1)
    (hruns : UnitRuns s (lineGroup s (unitLine s r i))) (hmem : unitLine s r i ∈ stepLines s r s.crypt.glaze.step)
    (hmark : markedLine s r (unitLine s r i) = false) {x : State} (hfirst : openFirst s r = (x, true))
    (hready : linesReady x [unitLine s r i] = true) : exec (.glazeUnit i errs) s =
      .next (if (nextStep (openingMarked x r (unitLine s r i)) r (s.crypt.glaze.step + 1)).isSome
        then stepEnd (openingMarked x r (unitLine s r i)) r else openingMarked x r (unitLine s r i)) := by
  obtain ⟨hmemory, hactive, hcool, hawake⟩ := hruns
  show execGlazeUnit i errs s = _
  unfold execGlazeUnit
  dsimp only
  rw [hrange]
  unfold unitLine at *
  dsimp only
  rw [if_neg (by simp [hmemory, hactive, ephemeralState_of_active hactive, hcool, hawake]),
    if_neg (by simp [hmem, hmark]), if_pos ⟨hkind, hstate⟩, hfirst]
  dsimp only
  rw [if_neg (by decide), if_neg (by simp [hready])]
  rfl

theorem exec_glazeUnit_idle {s : State} (h : s.crypt.glaze.range = none ∨ s.sys.dev ≠ .active) (i : Fin 512)
    (errs : List (List Codeword)) : exec (.glazeUnit i errs) s = .next s := by
  show execGlazeUnit i errs s = _
  unfold execGlazeUnit
  dsimp only
  cases hrange : s.crypt.glaze.range with
  | none => rfl
  | some r => exact if_pos (.inr (.inl (h.resolve_left (by simp [hrange]))))

section
variable {s : State} {line : Nat} {pl : Place} (hplace : linePlace s line = some pl) (hunsealed : sealedLine s line = false)
include hplace hunsealed

theorem openLineTile_windowNoted (opened : Bool) : openLineTile engineProgram (windowNoted s opened) line =
    engineProgram (afterDraw (windowNoted s opened)) pl (lineCode s (lineKey s line) line 0 (drawn s 24) 0) := by
  have hdrawn : drawn (windowNoted s opened) 24 = drawn s 24 := rfl
  unfold openLineTile
  rw [linePlace_windowNoted, hplace]
  dsimp only
  rw [sealedLine_windowNoted, hunsealed, lineKey_windowNoted, lineCode_windowNoted, hdrawn]
  rfl

theorem programmed_openLineTile (hinside : Inside pl) (hfence : placeFenced s pl = false) (opened : Bool) :
    Programmed s (openLineTile engineProgram (windowNoted s opened) line) pl
      (lineCode s (lineKey s line) line 0 (drawn s 24) 0) := by
  have hframe : Frame [.crypt, .draws] s (afterDraw (windowNoted s opened)) :=
    Frame.step (afterDraw_frame _) ((windowNoted_frame s opened).mono rfl) rfl
  rw [openLineTile_windowNoted hplace hunsealed]
  refine Programmed.congr (x := afterDraw (windowNoted s opened)) ?_
    (hframe.sameSlots (by decide) (by decide) (by decide) (by decide) (by decide))
  refine Programmed.of_path ?_ (engineProgram_path _ _ _)
  exact programmed_programTile hinside (((hframe.groupsNoted (by decide)).placeFenced pl).trans hfence) _

theorem openLineTile_keeps (opened : Bool) :
    (openLineTile engineProgram (windowNoted s opened) line).crypt = (windowNoted s opened).crypt ∧
      (openLineTile engineProgram (windowNoted s opened) line).easel = s.easel := by
  have hframe := Frame.step (engineProgram_frame (afterDraw (windowNoted s opened)) pl
    (lineCode s (lineKey s line) line 0 (drawn s 24) 0)) ((afterDraw_frame (windowNoted s opened)).mono
      (V := [.sys, .folio, .groups, .path, .stats, .draws]) rfl) rfl
  rw [openLineTile_windowNoted hplace hunsealed]
  exact ⟨hframe.crypt_eq (by decide), hframe.easel_eq (by decide)⟩

/-- A line's unit writes its tile and sets its bit, whether the step ends with it (`ends`) or not. -/
theorem openingMarked_ends (hinside : Inside pl) (hfence : placeFenced s pl = false) (hkind : s.crypt.glaze.kind = 1)
    {r : Nat} {opened ends : Bool} {t : State}
    (ht : t = if ends = true then stepEnd (openingMarked (windowNoted s opened) r line) r
      else openingMarked (windowNoted s opened) r line) :
    Programmed s t pl (lineCode s (lineKey s line) line 0 (drawn s 24) 0) ∧
      (t.crypt.glaze.step = s.crypt.glaze.step → markedLine t r line = true) ∧ t.easel.lines = s.easel.lines := by
  have hmarks : Frame [.crypt] (openLineTile engineProgram (windowNoted s opened) line)
      (openingMarked (windowNoted s opened) r line) := markLines_frame _ r [line]
  obtain ⟨hcrypt, heasel⟩ := openLineTile_keeps hplace hunsealed opened
  have hstep : (openingMarked (windowNoted s opened) r line).crypt.glaze.step = s.crypt.glaze.step :=
    congrArg (·.glaze.step) hcrypt
  have hopening : (openingMarked (windowNoted s opened) r line).crypt.glaze.kind = 1 :=
    (congrArg (·.glaze.kind) hcrypt).trans hkind
  have hends : StepEnded (openingMarked (windowNoted s opened) r line) t ∧
      t.path = (openingMarked (windowNoted s opened) r line).path := by
    rw [ht]
    split
    · exact ⟨stepEnd_stepEnded _ r, (stepEnd_frame _ r).path_eq (by decide)⟩
    · exact ⟨.refl _, rfl⟩
  obtain ⟨hended, hpath⟩ := hends
  refine ⟨?_, hended.marked (markedLine_markLines _ r line) hstep, ?_⟩
  · exact (programmed_openLineTile hplace hunsealed hinside hfence opened).of_path (hpath.trans (hmarks.path_eq (by decide)))
  · rw [hended.easel hopening, hmarks.easel_eq (by decide), heasel]

end

theorem completes_glazeUnit (i : Fin 512) (errs : List (List Codeword)) (r : Nat) (pl : Place) (hinside : Inside pl) :
    Completes (.glazeUnit i errs) [.sys, .mgmt, .folio, .ledger, .reserve, .channels, .ports, .groups, .easel, .palette, .crypt,
        .queues, .perf, .path, .stats, .draws, .out]
      (fun s => s.crypt.glaze.range = some r ∧ s.crypt.glaze.kind = 1 ∧ s.crypt.glaze.state = 1 ∧ s.sys.memoryActive = true ∧
        s.sys.dev = .active ∧ unitLine s r i ∈ stepLines s r s.crypt.glaze.step ∧ markedLine s r (unitLine s r i) = false ∧
        groupCool s (lineGroup s (unitLine s r i)) = true ∧ groupAwake s (lineGroup s (unitLine s r i)) = true ∧
        windowOf s r = none ∧ linePlace s (unitLine s r i) = some pl ∧ remapReady s pl = true ∧ placeFenced s pl = false)
      (fun s t => Programmed s t pl (lineCode s (lineKey s (unitLine s r i)) (unitLine s r i) 0 (drawn s 24) 0) ∧
        (t.crypt.glaze.step = s.crypt.glaze.step → markedLine t r (unitLine s r i) = true) ∧ t.easel.lines = s.easel.lines) := by
  rintro s ⟨hrange, hkind, hstate, hmemory, hactive, hmem, hmark, hcool, hawake, hwindow, hplace, hremap, hfence⟩
  obtain ⟨opened, hfirst⟩ := openFirst_of_no_window hwindow
  have hready : linesReady (windowNoted s opened) [unitLine s r i] = true := by
    unfold linesReady
    simp only [List.all_cons, List.all_nil, Bool.and_true, linePlace_windowNoted, hplace, Option.elim_some,
      (windowNoted_sameSlots s opened).remapReady, hremap]
  have hexec := exec_glazeUnit_opening errs hrange hkind hstate ⟨hmemory, hactive, hcool, hawake⟩ hmem hmark hfirst hready
  obtain ⟨t, hnext, hframe⟩ := execGlazeUnit_frame i errs s
  have ht := Host.Outcome.next.inj (hnext.symm.trans hexec)
  refine ⟨t, hnext, hframe, ?_⟩
  have hunsealed : sealedLine s (unitLine s r i) = false :=
    not_sealed_of_no_window hwindow (rangeOf_of_mem_stepLines hmem)
  exact openingMarked_ends hplace hunsealed hinside hfence hkind ht

theorem completes_glazeUnit_idle (i : Fin 512) (errs : List (List Codeword)) :
    Completes (.glazeUnit i errs) [] (fun s => s.crypt.glaze.range = none ∨ s.sys.dev ≠ .active) (fun _ _ => True) :=
  fun s hidle => ⟨s, exec_glazeUnit_idle hidle i errs, .refl _ s, trivial⟩

/-! ### GLAZE_UNIT_COMMIT (R203) -/

/-- The unit's codewords are programmed, and its tiles' bits set. -/
def unitProgrammed (s : State) (r : Nat) (u : GlazeUnit) : State :=
  markLines (bumpCodec (programLines s u.codes) u.lane 0x0D
    (u.codes.filter (fun e => !u.plain.any (fun p => p.1 == e.1))).length) r ((List.range u.count).map (u.line + ·))

/-- The unit is counted, and in flight no longer. -/
def unitEnded (s : State) (u : GlazeUnit) : State :=
  { deviceFree (bump s 0x2780 7 u.codes.length) u.booked with crypt := { s.crypt with glaze := { s.crypt.glaze with
    units := s.crypt.glaze.units.filter (fun v => v.line != u.line) } } }

theorem commitReady_of_unsealed {s : State} {u : GlazeUnit} {code : List Byte} {pl : Place} (hcodes : u.codes = [(u.line, code)])
    (hunsealed : sealedLine s u.line = false) (hplace : linePlace s u.line = some pl) (hremap : remapReady s pl = true) :
    commitReady s u = true := by
  simp [commitReady, linesReady, hcodes, hunsealed, hplace, hremap]

theorem exec_glazeUnitCommit {s : State} {line : LineAddr} {r : Nat} {u : GlazeUnit} (hrange : s.crypt.glaze.range = some r)
    (hfind : s.crypt.glaze.units.find? (fun x => x.line == line.toNat) = some u) (hready : commitReady s u = true)
    (hunsealed : sealedLine s u.line = false) :
    exec (.glazeUnitCommit line) s = .next (stepEnd (unitEnded (unitProgrammed s r u) u) r) := by
  show execGlazeUnitCommit line s = _
  unfold execGlazeUnitCommit
  dsimp only
  rw [hrange, hfind]
  dsimp only
  rw [if_neg (by simp [hready]), hunsealed, if_neg Bool.false_ne_true]
  rfl

theorem programLines_singleton {s : State} {line : Nat} {pl : Place} (hplace : linePlace s line = some pl) (code : List Byte) :
    programLines s [(line, code)] = noteVersion (programTile s pl code) line (versionOf code) := by
  unfold programLines
  rw [List.foldl_cons, List.foldl_nil]
  dsimp only
  rw [hplace]

theorem unitEnded_frame (s : State) (u : GlazeUnit) : Frame [.reserve, .crypt, .stats] s (unitEnded s u) :=
  Frame.upd_crypt (Frame.step (deviceFree_frame _ _) (Frame.step (bump_frame _ _ _ _) (.refl _ s) rfl) rfl) rfl

theorem unitEnded_step (s : State) (u : GlazeUnit) : (unitEnded s u).crypt.glaze.step = s.crypt.glaze.step := rfl

theorem unitEnded_mask (s : State) (u : GlazeUnit) : (unitEnded s u).crypt.glaze.mask = s.crypt.glaze.mask := rfl

theorem statBits_units : statBits 0x2780 7 = 64 := by decide +kernel

theorem stat_unitEnded (s : State) (u : GlazeUnit) :
    stat (unitEnded s u) 0x2780 7 = (stat s 0x2780 7 + u.codes.length) % 2 ^ 64 := by
  have hended : (unitEnded s u).stats = (bump s 0x2780 7 u.codes.length).stats := rfl
  have hstat : stat (unitEnded s u) 0x2780 7 = stat (bump s 0x2780 7 u.codes.length) 0x2780 7 := by
    unfold stat
    rw [hended]
  rw [hstat, stat_bump, if_pos rfl, statBits_units]
  rfl

theorem unitProgrammed_frame (s : State) (r : Nat) (u : GlazeUnit) : Frame [.crypt, .stats] (programLines s u.codes)
    (unitProgrammed s r u) :=
  Frame.step (markLines_frame _ _ _) (Frame.step (bumpCodec_frame _ _ _ _) (.refl _ _) rfl) rfl

theorem programmed_unitProgrammed {s : State} {u : GlazeUnit} {code : List Byte} {pl : Place} (hinside : Inside pl)
    (hcodes : u.codes = [(u.line, code)]) (hplace : linePlace s u.line = some pl) (hfence : placeFenced s pl = false) (r : Nat) :
    Programmed s (unitProgrammed s r u) pl code := by
  refine (programmed_programTile hinside hfence code).of_path ?_
  rw [(unitProgrammed_frame s r u).path_eq (by decide), hcodes, programLines_singleton hplace,
    (noteVersion_frame _ _ _).path_eq (by decide)]

theorem programLines_bumpCodec_cryptKept (s : State) (u : GlazeUnit) (n : Nat) :
    CryptKept s (bumpCodec (programLines s u.codes) u.lane 0x0D n) :=
  (programLines_cryptKept s _).trans (bumpCodec_cryptKept _ _ _)

theorem markLines_step (s : State) (r : Nat) (lines : List Nat) :
    (markLines s r lines).crypt.glaze.step = s.crypt.glaze.step := rfl

theorem unitProgrammed_step (s : State) (r : Nat) (u : GlazeUnit) :
    (unitProgrammed s r u).crypt.glaze.step = s.crypt.glaze.step := by
  unfold unitProgrammed
  rw [markLines_step, (programLines_bumpCodec_cryptKept s u _).crypt]

theorem stat_unitProgrammed (s : State) (r : Nat) (u : GlazeUnit) : stat (unitProgrammed s r u) 0x2780 7 = stat s 0x2780 7 :=
  ((markLines_frame _ r _).stat (by decide) _ _).trans (programLines_bumpCodec_cryptKept s u _).units

theorem markedLine_unitProgrammed {u : GlazeUnit} (hcount : u.count = 1) {s : State} (r : Nat) :
    markedLine (unitProgrammed s r u) r u.line = true := by
  unfold unitProgrammed
  rw [hcount]
  exact markedLine_markLines _ r u.line

theorem completes_glazeUnitCommit (line : LineAddr) (u : GlazeUnit) (code : List Byte) (pl : Place) (r : Nat)
    (hinside : Inside pl) :
    Completes (.glazeUnitCommit line) [.sys, .folio, .reserve, .groups, .easel, .palette, .crypt, .queues, .perf, .path, .stats]
      (fun s => s.crypt.glaze.range = some r ∧ s.crypt.glaze.units.find? (fun x => x.line == line.toNat) = some u ∧
        u.count = 1 ∧ u.codes = [(u.line, code)] ∧ sealedLine s u.line = false ∧ linePlace s u.line = some pl ∧
        remapReady s pl = true ∧ placeFenced s pl = false)
      (fun s t => Programmed s t pl code ∧ (∀ v ∈ t.crypt.glaze.units, v.line ≠ line.toNat) ∧
        stat t 0x2780 7 = (stat s 0x2780 7 + 1) % 2 ^ 64 ∧
        (t.crypt.glaze.step = s.crypt.glaze.step → markedLine t r u.line = true)) := by
  rintro s ⟨hrange, hfind, hcount, hcodes, hunsealed, hplace, hremap, hfence⟩
  have hexec := exec_glazeUnitCommit hrange hfind (commitReady_of_unsealed hcodes hunsealed hplace hremap) hunsealed
  obtain ⟨t, hnext, hframe⟩ := execGlazeUnitCommit_frame line s
  have ht := Host.Outcome.next.inj (hnext.symm.trans hexec)
  have hended : StepEnded (unitEnded (unitProgrammed s r u) u) t := ht ▸ stepEnd_stepEnded _ r
  have hpath : t.path = (unitProgrammed s r u).path :=
    ht ▸ ((stepEnd_frame _ r).path_eq (by decide)).trans ((unitEnded_frame _ u).path_eq (by decide))
  have hline : u.line = line.toNat := by simpa using List.find?_some hfind
  refine ⟨t, hnext, hframe, (programmed_unitProgrammed hinside hcodes hplace hfence r).of_path hpath, fun v hv => ?_, ?_, ?_⟩
  · rw [hended.units] at hv
    simpa [hline] using (List.mem_filter.mp hv).2
  · rw [hended.count, stat_unitEnded, stat_unitProgrammed, hcodes]
    rfl
  · refine hended.marked ?_ ((unitEnded_step _ u).trans (unitProgrammed_step s r u))
    rw [markedLine_congr ((unitEnded_frame _ u).settings_eq (by decide)) (unitEnded_mask _ u)]
    exact markedLine_unitProgrammed hcount r

theorem completes_glazeUnitCommit_idle (line : LineAddr) :
    Completes (.glazeUnitCommit line) []
      (fun s => s.crypt.glaze.units.find? (fun x => x.line == line.toNat) = none) (fun _ _ => True) := by
  intro s hnone
  refine ⟨s, ?_, .refl _ s, trivial⟩
  show execGlazeUnitCommit line s = _
  unfold execGlazeUnitCommit
  dsimp only
  rw [hnone]
  cases s.crypt.glaze.range <;> rfl

end Sys2Proof.Machine
end

section
/-! The re-encryption of a page (R195): its wait for the flights of its lines, and its end. -/
namespace Sys2Proof.Machine

/-! ### The lines of a page depend on the settings and the layout alone (R181, R191) -/

section
variable {s t : State} (hset : t.settings = s.settings) (hpath : t.path = s.path)
include hset hpath

theorem rangeUnits_congr (r : Nat) : rangeUnits t r = rangeUnits s r := by
  unfold rangeUnits visibleUnits
  simp only [settingN_congr hset, hostVisibleUnits_congr hpath, hpath]

theorem windowOf_congr (r : Nat) : windowOf t r = windowOf s r := by
  unfold windowOf
  simp only [settingB_congr hset, settingN_congr hset, rangeUnits_congr hset hpath]

theorem rangeOfCounter_congr (c : Nat) : rangeOfCounter t c = rangeOfCounter s c := by
  unfold rangeOfCounter
  simp only [windowOf_congr hset hpath]

theorem pageLines_congr (c : Nat) : pageLines t c = pageLines s c := by
  unfold pageLines rangeFirst
  simp only [rangeOfCounter_congr hset hpath, settingN_congr hset]

end

/-! ### PAGE_REENCRYPTION -/

/-- The page is noted as under re-encryption, with the payload of its counter tile, and its record pushed. -/
def pageBegun (s : State) (c r : Nat) (payload : Line) : State :=
  jqPush (modPage s c (fun j => { j with begun := true, old := payload })) (c % 8) (glazeUnits 1 r c)

theorem pageBegun_frame (s : State) (c r : Nat) (payload : Line) :
    Frame [.groups, .queues, .perf, .stats] s (pageBegun s c r payload) :=
  Frame.step (jqPush_frame _ _ _) ((modPage_frame s c _).mono rfl) rfl

theorem mem_pages_pageBegun {s : State} {job : PageJob2} (h : job ∈ (groupOf s (job.c % 8)).pages) (r : Nat) (payload : Line) :
    { job with begun := true, old := payload } ∈ (groupOf (pageBegun s job.c r payload) (job.c % 8)).pages := by
  unfold pageBegun modPage
  rw [groupOf_jqPush, groupOf_modGroup_self]
  exact List.mem_map.mpr ⟨job, h, if_pos rfl⟩

/-- A page whose lines have programs in flight waits, once its remap table tiles have been asked for (R195 step 2). -/
theorem pageStep_of_inFlight {s : State} {job : PageJob2} {payload : Line} {r : Nat} (hbegun : job.begun = false)
    (hdata : paletteData s (.counter job.c) = some payload) (hrange : rangeOfCounter s job.c = some r)
    (hflight : pageInFlight s (pageLines s job.c) = true) (errs : List (List Codeword)) :
    pageStep s job errs = pageBegun s job.c r payload ∨
      pageStep s job errs = askLines (pageBegun s job.c r payload) 1 (pageLines (pageBegun s job.c r payload) job.c) := by
  have hframe := pageBegun_frame s job.c r payload
  have hwaits : pageInFlight (pageBegun s job.c r payload) (pageLines (pageBegun s job.c r payload) job.c) = true := by
    rw [pageLines_congr (hframe.settings_eq (by decide)) (hframe.path_eq (by decide)), ← hflight]
    unfold pageInFlight
    rw [hframe.easel_eq (by decide)]
  have hstep : pageStep s job errs = if linesReady (pageBegun s job.c r payload)
      (pageLines (pageBegun s job.c r payload) job.c) = false then
        askLines (pageBegun s job.c r payload) 1 (pageLines (pageBegun s job.c r payload) job.c)
      else pageBegun s job.c r payload := by
    unfold pageStep
    dsimp only
    rw [hdata, hrange]
    dsimp only
    simp only [hbegun, Bool.false_eq_true, if_false]
    refine if_congr Iff.rfl rfl (if_pos ?_)
    rw [Bool.or_eq_true, Bool.or_eq_true]
    exact .inl (.inl hwaits)
  rw [hstep]
  split
  · exact .inr rfl
  · exact .inl rfl

theorem exec_pageReencryption {s : State} {group : Group} {job : PageJob2}
    (hfind : (groupOf s group.val).pages.find? (fun j => !j.ready) = some job) (hactive : s.sys.dev = .active)
    (hmemory : s.sys.memoryActive = true) (hawake : groupAwake s group.val = true)
    (hfenced : (groupOf s group.val).fenced = false) (hstale : (groupOf s group.val).staleHold = false)
    (hroom : journalRoom s group.val 1 = true) (errs : List (List Codeword)) :
    exec (.pageReencryption group errs) s = .next (pageStep s job errs) := by
  show execPageReencryption group errs s = _
  unfold execPageReencryption
  rw [hfind]
  exact if_pos (by simp [hactive, hmemory, hawake, hfenced, hstale, hroom])

theorem completes_pageReencryption (group : Group) (errs : List (List Codeword)) (job : PageJob2) (payload : Line) (r : Nat) :
    Completes (.pageReencryption group errs) [.sys, .mgmt, .folio, .ledger, .reserve, .channels, .ports, .groups, .easel, .palette,
        .queues, .perf, .path, .stats, .out]
      (fun s => (groupOf s group.val).pages.find? (fun j => !j.ready) = some job ∧ job.c % 8 = group.val ∧ job.begun = false ∧
        s.sys.dev = .active ∧ s.sys.memoryActive = true ∧ groupAwake s group.val = true ∧ (groupOf s group.val).fenced = false ∧
        (groupOf s group.val).staleHold = false ∧ journalRoom s group.val 1 = true ∧
        paletteData s (.counter job.c) = some payload ∧ rangeOfCounter s job.c = some r ∧
        pageInFlight s (pageLines s job.c) = true)
      (fun s t => { job with begun := true, old := payload } ∈ (groupOf t group.val).pages ∧ t.path.medium = s.path.medium) := by
  rintro s ⟨hfind, hgroup, hbegun, hactive, hmemory, hawake, hfenced, hstale, hroom, hdata, hrange, hflight⟩
  have hexec := exec_pageReencryption hfind hactive hmemory hawake hfenced hstale hroom errs
  obtain ⟨t, hnext, hframe⟩ := execPageReencryption_frame group errs s
  have ht := Host.Outcome.next.inj (hnext.symm.trans hexec)
  have hkept : Frame [.palette, .perf, .stats] (pageBegun s job.c r payload) t := by
    rcases pageStep_of_inFlight hbegun hdata hrange hflight errs with hwaits | hasks
    · rw [ht, hwaits]
      exact .refl _ _
    · rw [ht, hasks]
      exact askLines_frame _ _ _
  have hmem := List.mem_of_find?_eq_some hfind
  refine ⟨t, hnext, hframe, ?_, ?_⟩
  · rw [hkept.groupOf (by decide), ← hgroup]
    exact mem_pages_pageBegun (hgroup ▸ hmem) r payload
  · rw [hkept.path_eq (by decide), (pageBegun_frame _ _ _ _).path_eq (by decide)]

theorem completes_pageReencryption_idle (group : Group) (errs : List (List Codeword)) :
    Completes (.pageReencryption group errs) [] (fun s => (groupOf s group.val).pages.find? (fun j => !j.ready) = none)
      (fun _ _ => True) := by
  intro s hnone
  refine ⟨s, ?_, .refl _ s, trivial⟩
  show execPageReencryption group errs s = _
  unfold execPageReencryption
  rw [hnone]

/-! ### PAGE_REENCRYPTION_END (R195 step 4) -/

/-- The page's tiles are programmed, its counter tile written, and its bookings freed. -/
def pageProgrammed (s : State) (job : PageJob2) : State :=
  deviceFree (palPut (programLines s job.codes) 1 (.counter job.c) (some (counterPayload (majorOf job.old + 1) [])) false) job.booked

/-- The page is no longer under re-encryption. -/
def pageEnded (s : State) (g : Nat) (job : PageJob2) : State :=
  modGroup s g (fun x => { x with pages := x.pages.filter (fun j => j.c != job.c) })

/-- The re-encryption is counted, and its record pushed. -/
def pageRecorded (s : State) (g c : Nat) : State :=
  jqPush (bump s 0x2700 9 1) g (glazeUnits 2 ((rangeOfCounter s c).getD 0) c)

theorem exec_pageReencryptionEnd {s : State} {group : Group} {job : PageJob2}
    (hfind : (groupOf s group.val).pages.find? (fun j => j.ready) = some job) (hroom : journalRoom s group.val 1 = true) :
    exec (.pageReencryptionEnd group) s =
      .next (pageRecorded (pageEnded (pageProgrammed s job) group.val job) group.val job.c) := by
  show execPageReencryptionEnd group s = _
  unfold execPageReencryptionEnd
  dsimp only
  rw [hfind]
  exact if_neg (by simp [hroom])

theorem statBits_pages : statBits 0x2700 9 = 64 := by decide +kernel

theorem pageProgrammed_cryptKept (s : State) (job : PageJob2) : CryptKept s (pageProgrammed s job) :=
  (programLines_cryptKept s _).trans ((palPut_cryptKept _ _ _ _ _).trans ((deviceFree_frame _ _).cryptKept (by decide) (by decide)))

theorem pages_pageEnded (s : State) (g : Nat) (job : PageJob2) :
    (groupOf (pageEnded s g job) g).pages = (groupOf s g).pages.filter (fun j => j.c != job.c) := by
  unfold pageEnded
  rw [groupOf_modGroup_self]

theorem stat_pageEnded (s : State) (g : Nat) (job : PageJob2) : stat (pageEnded s g job) 0x2700 9 = stat s 0x2700 9 :=
  (modGroup_frame _ _ _).stat (by decide) _ _

theorem pages_pageRecorded (s : State) (g c : Nat) : (groupOf (pageRecorded s g c) g).pages = (groupOf s g).pages := by
  unfold pageRecorded
  rw [groupOf_jqPush, (bump_frame _ _ _ _).groupOf (by decide)]

theorem stat_pageRecorded (s : State) (g c : Nat) :
    stat (pageRecorded s g c) 0x2700 9 = (stat s 0x2700 9 + 1) % 2 ^ 64 := by
  unfold pageRecorded
  rw [(jqPush_cryptKept _ _ _).pages, stat_bump, if_pos rfl, statBits_pages]
  rfl

theorem completes_pageReencryptionEnd (group : Group) (job : PageJob2) :
    Completes (.pageReencryptionEnd group) [.sys, .folio, .reserve, .groups, .easel, .palette, .crypt, .queues, .perf, .path,
        .stats]
      (fun s => (groupOf s group.val).pages.find? (fun j => j.ready) = some job ∧ journalRoom s group.val 1 = true)
      (fun s t => (∀ j ∈ (groupOf t group.val).pages, j.c ≠ job.c) ∧ stat t 0x2700 9 = (stat s 0x2700 9 + 1) % 2 ^ 64) := by
  rintro s ⟨hfind, hroom⟩
  have hexec := exec_pageReencryptionEnd hfind hroom
  obtain ⟨t, hnext, hframe⟩ := execPageReencryptionEnd_frame group s
  have ht := Host.Outcome.next.inj (hnext.symm.trans hexec)
  refine ⟨t, hnext, hframe.mono rfl, fun j hj => ?_, ?_⟩
  · rw [ht, pages_pageRecorded, pages_pageEnded] at hj
    simpa using (List.mem_filter.mp hj).2
  · rw [ht, stat_pageRecorded, stat_pageEnded, (pageProgrammed_cryptKept s job).pages]

theorem completes_pageReencryptionEnd_idle (group : Group) :
    Completes (.pageReencryptionEnd group) []
      (fun s => (groupOf s group.val).pages.find? (fun j => j.ready) = none ∨ journalRoom s group.val 1 = false)
      (fun _ _ => True) := by
  intro s hidle
  refine ⟨s, ?_, .refl _ s, trivial⟩
  show execPageReencryptionEnd group s = _
  unfold execPageReencryptionEnd
  dsimp only
  cases hfind : (groupOf s group.val).pages.find? (fun j => j.ready) with
  | none => rfl
  | some job => exact if_pos (hidle.resolve_left (by simp [hfind]))

end Sys2Proof.Machine
end

section
/-! The re-anchoring of the counter tree (R198): it runs once, and its end opens the sealed ranges. -/
namespace Sys2Proof.Machine

/-! ### What a program leaves of a re-anchoring that is due -/

/-- The keys are as before, and so is the re-anchoring that is due. -/
structure AnchorKept (s t : State) : Prop where
  crypt : t.crypt = s.crypt
  reanchor : t.sys.reanchor = s.sys.reanchor

theorem AnchorKept.refl (s : State) : AnchorKept s s := ⟨rfl, rfl⟩

theorem AnchorKept.trans {s t r : State} (h : AnchorKept s t) (k : AnchorKept t r) : AnchorKept s r :=
  ⟨k.crypt.trans h.crypt, k.reanchor.trans h.reanchor⟩

theorem AnchorKept.foldl {α : Type} {f : State → α → State} (hf : ∀ s a, AnchorKept s (f s a)) (l : List α) (s : State) :
    AnchorKept s (l.foldl f s) :=
  List.foldlRecOn (motive := fun x => AnchorKept s x) l f (.refl s) fun _ hx a _ => hx.trans (hf _ a)

theorem AnchorKept.foldlFst {α β : Type} {f : State × β → α → State × β} (hf : ∀ x a, AnchorKept x.1 (f x a).1) (l : List α)
    (x : State × β) : AnchorKept x.1 (l.foldl f x).1 :=
  List.foldlRecOn (motive := fun y => AnchorKept x.1 y.1) l f (.refl x.1) fun _ hy a _ => hy.trans (hf _ a)

theorem Frame.anchorKept {U : List UnitName} {s t : State} (h : Frame U s t) (hcrypt : .crypt ∉ U) (hsys : .sys ∉ U) :
    AnchorKept s t :=
  ⟨h.crypt_eq hcrypt, by rw [h.sys_eq hsys]⟩

theorem varnishCounted_reanchor (s : State) : (varnishCounted s).sys.reanchor = s.sys.reanchor := by
  unfold varnishCounted
  split <;> rfl

/-- A program counts in Varnish, and nothing else of the device state changes (R376). -/
theorem countProgram_anchorKept (s : State) (g : Nat) : AnchorKept s (countProgram s g) := by
  have hcounted : AnchorKept s (varnishCounted s) :=
    ⟨(varnishCounted_frame s).crypt_eq (by decide), varnishCounted_reanchor s⟩
  have hgroup (x : State) (f : GroupRec → GroupRec) : AnchorKept x (modGroup x g f) :=
    (modGroup_frame x g f).anchorKept (by decide) (by decide)
  rw [countProgram_eq]
  refine hcounted.trans ?_
  unfold programCounted
  split
  · exact (hgroup _ _).trans ((tallyAdd_frame _ _).anchorKept (by decide) (by decide))
  · exact hgroup _ _

theorem programAt_anchorKept (s : State) (pl : Place) (code : List Byte) : AnchorKept s (programAt s pl code) := by
  unfold programAt
  split
  · exact .refl s
  · dsimp only
    rw [storeColumns_eq_foldl]
    exact ((columnsStored_frame _ _ _ _ _).anchorKept (by decide) (by decide)).trans ((countProgram_anchorKept _ _).trans
      (((filterMark_frame _ _ _ _).anchorKept (by decide) (by decide)).trans
        ((modGroup_frame _ _ _).anchorKept (by decide) (by decide))))

theorem programTile_anchorKept (s : State) (pl : Place) (code : List Byte) : AnchorKept s (programTile s pl code) := by
  have hprogram := programAt_anchorKept s pl code
  unfold programTile
  dsimp only
  split
  · exact hprogram.trans ((Frame.ite (regionWrite_frame _ _ _) (.refl _ _)).anchorKept (by decide) (by decide))
  · exact hprogram

theorem programMeta_anchorKept (s : State) (t : TileId) (payload : Line) (major minor : Nat) :
    AnchorKept s (programMeta s t payload major minor) := by
  unfold programMeta
  split
  · exact programTile_anchorKept _ _ _
  · exact .refl s

theorem drawnMeta_anchorKept (s : State) (t : TileId) (payload : Line) (major minor : Nat) :
    AnchorKept s (programMeta (afterDraw s) t payload major minor) :=
  ((afterDraw_frame s).anchorKept (by decide) (by decide)).trans (programMeta_anchorKept _ _ _ _ _)

/-! ### The tree (R198 steps 1 to 3) -/

theorem reanchorCounter_anchorKept (kept : Nat → Option Line) (x : State × List Nat) (c major : Nat) :
    AnchorKept x.1 (reanchorCounter kept x c major).1 := by
  have hread := (readMeta_frame x.1 (.counter c)).anchorKept (by decide) (by decide)
  unfold reanchorCounter
  split
  · exact programMeta_anchorKept _ _ _ _ _
  · dsimp only
    split
    · exact hread.trans (programMeta_anchorKept _ _ _ _ _)
    · exact hread.trans (drawnMeta_anchorKept _ _ _ _ _)

theorem reanchorTree_anchorKept (kept : Nat → Option Line) (l : Nat) (x : State × List Nat) (n major : Nat) :
    AnchorKept x.1 (reanchorTree kept l x n major).1 := by
  induction l generalizing x n major with
  | zero => exact reanchorCounter_anchorKept kept x n major
  | succ l ih =>
    unfold reanchorTree
    dsimp only
    exact (drawnMeta_anchorKept _ _ _ _ _).trans (.foldlFst (fun y k => ih y k _) _ (_, x.2))

theorem writePoisonTile_anchorKept (s : State) (line version : Nat) : AnchorKept s (writePoisonTile s line version) := by
  unfold writePoisonTile
  split
  · exact (programTile_anchorKept _ _ _).trans (((noteProgram_frame _ _ _).anchorKept (by decide) (by decide)).trans
      ((bumpCodec_frame _ _ _ _).anchorKept (by decide) (by decide)))
  · exact .refl s

theorem counterLost_anchorKept (s : State) (c code : Nat) (data : List Byte) : AnchorKept s (counterLost s c code data) := by
  have hpresent (x : State) (line : Nat) : AnchorKept x (poisonPresent x line) :=
    (poisonPresent_frame x line).anchorKept (by decide) (by decide)
  have hpermanent (x : State) (line : Nat) : AnchorKept x (mediaEvent (poisonPermanent x line) 0 line) :=
    ((poisonPermanent_frame x line).anchorKept (by decide) (by decide)).trans
      ((mediaEvent_frame _ _ _).anchorKept (by decide) (by decide))
  have hpoison (x : State) (line version : Nat) :
      AnchorKept x (if lineDirty x line then x else writePoisonTile x line version) := by
    split
    · exact .refl x
    · exact writePoisonTile_anchorKept x line version
  unfold counterLost
  dsimp only
  refine AnchorKept.trans ?_ ((palPut_frame _ _ _ _ _).anchorKept (by decide) (by decide))
  refine AnchorKept.trans ?_ ((raise_frame _ _ _).anchorKept (by decide) (by decide))
  refine AnchorKept.trans ?_ (.foldl hpermanent _ _)
  refine AnchorKept.trans ?_ (.foldl (fun x line => hpoison x line _) _ _)
  refine AnchorKept.trans ?_ ((afterDraw_frame _).anchorKept (by decide) (by decide))
  exact (AnchorKept.foldl hpresent _ s).trans ((readMeta_frame _ _).anchorKept (by decide) (by decide))

/-- The root has its new major, and the re-anchoring runs. -/
def reanchorBegun (s : State) : State :=
  { afterDraw s with crypt := { s.crypt with root := counterPayload (drawn s 64) [], reanchoring := true } }

theorem reanchorAll_anchorKept (s : State) : AnchorKept (reanchorBegun s) (reanchorAll s) := by
  have hinvalidate (x : State) (kind lo hi : Nat) : AnchorKept x (invalidateRange x kind lo hi) :=
    (invalidateRange_frame x kind lo hi).anchorKept (by decide) (by decide)
  have hclose (x : State) (kind lo hi : Nat) : AnchorKept x (closeInvalidation x kind lo hi) :=
    (closeInvalidation_frame x kind lo hi).anchorKept (by decide) (by decide)
  unfold reanchorAll
  dsimp only
  refine AnchorKept.trans ?_ (.foldl (fun x c => counterLost_anchorKept x c _ _) _ _)
  refine AnchorKept.trans ?_ ((hclose _ _ _ _).trans (hclose _ _ _ _))
  exact ((hinvalidate _ _ _ _).trans (hinvalidate _ _ _ _)).trans
    (.foldlFst (fun x k => reanchorTree_anchorKept _ 4 x k _) _ (_, []))

/-- No range invalidation is open, and no writeback of a counter tile or node is in flight (R144, R145). -/
def PaletteCalm (s : State) : Prop :=
  s.palette.comparators = [] ∧ s.palette.writes.all (fun w => keyKind (paletteKey w.tile) == 5) = true

theorem completes_treeReanchor :
    Completes .treeReanchor [.sys, .mgmt, .folio, .ledger, .reserve, .ports, .channels, .groups, .easel, .palette, .crypt, .queues,
        .perf, .path, .stats, .draws, .out]
      (fun s => s.sys.reanchor.isSome = true ∧ s.sys.memoryActive = true ∧ s.crypt.reanchoring = false ∧ PaletteCalm s)
      (fun s t => t.crypt.reanchoring = true ∧ t.sys.reanchor = s.sys.reanchor) := by
  rintro s ⟨hdue, hmemory, hidle, hcomparators, hwrites⟩
  have hexec : exec .treeReanchor s = .next (reanchorAll s) := if_pos ⟨hdue, hmemory, hidle, hcomparators, hwrites⟩
  have hkept := reanchorAll_anchorKept s
  exact ⟨_, hexec, (reanchorAll_frame s).mono rfl, by rw [hkept.crypt]; rfl, hkept.reanchor⟩

theorem completes_treeReanchor_idle :
    Completes .treeReanchor []
      (fun s => s.sys.reanchor = none ∨ s.sys.memoryActive = false ∨ s.crypt.reanchoring = true ∨ ¬ PaletteCalm s)
      (fun _ _ => True) := by
  intro s hidle
  have hexec : exec .treeReanchor s = .next s := by
    refine if_neg fun ⟨hdue, hmemory, hfree, hcalm⟩ => ?_
    rcases hidle with hnone | hinactive | hruns | hbusy
    · simp [hnone] at hdue
    · simp [hinactive] at hmemory
    · simp [hruns] at hfree
    · exact hbusy hcalm
  exact ⟨s, hexec, .refl _ s, trivial⟩

/-! ### TREE_REANCHOR_END (R198) -/

/-- A sealed range opens with its freshness mark set. -/
def sealedOpened (s : State) (r : Nat) : State :=
  if settingB s (0x2710 + r) 3 then
    modRange s r (fun x => { x with held := s.palette.spanWait.any (fun w => w.range == r), fna := true })
  else s

/-- The sealed ranges open. -/
def rangesReopened (s : State) : State := (List.range 8).foldl sealedOpened s

/-- The re-anchoring no longer runs. -/
def reanchorStopped (s : State) : State :=
  { s with crypt := { s.crypt with reanchoring := false } }

/-- It is no longer due either. -/
def reanchorEnded (s : State) : State :=
  { reanchorStopped s with sys := { s.sys with reanchor := none } }

theorem exec_treeReanchorEnd {s : State} {cause : Nat} (hdue : s.sys.reanchor = some cause) (hruns : s.crypt.reanchoring = true) :
    exec .treeReanchorEnd s = .next (keyStoreUpdate (raise (reanchorEnded (rangesReopened s)) 0x2706 (leBytes 1 cause))) := by
  have hpass : (List.range 8).foldl (fun s r => if settingB s (0x2710 + r) 3 then modRange s r (fun x =>
      { x with held := s.palette.spanWait.any (fun w => w.range == r), fna := true }) else s) s = rangesReopened s := rfl
  show execTreeReanchorEnd s = _
  unfold execTreeReanchorEnd
  dsimp only
  rw [hdue, hpass]
  generalize rangesReopened s = x
  exact if_pos hruns

theorem exec_treeReanchorEnd_idle {s : State} (h : s.sys.reanchor = none ∨ s.crypt.reanchoring = false) :
    exec .treeReanchorEnd s = .next s := by
  show execTreeReanchorEnd s = _
  unfold execTreeReanchorEnd
  dsimp only
  cases hdue : s.sys.reanchor with
  | none => rfl
  | some cause => exact if_neg (by simp [h.resolve_left (by simp [hdue])])

theorem sealedOpened_frame (s : State) (r : Nat) : Frame [.crypt] s (sealedOpened s r) := by
  unfold sealedOpened
  exact Frame.ite (modRange_frame _ _ _) (.refl _ s)

theorem rangesReopened_frame (s : State) : Frame [.crypt] s (rangesReopened s) := Frame.foldl sealedOpened_frame (.refl _ s)

theorem rangesReopened_storeSeq (s : State) : (rangesReopened s).crypt.storeSeq = s.crypt.storeSeq := by
  refine List.foldlRecOn (motive := fun x => x.crypt.storeSeq = s.crypt.storeSeq) _ sealedOpened rfl fun x hx r _ => ?_
  rw [← hx]
  unfold sealedOpened
  split <;> rfl

/-- A sealed range as the end of a re-anchoring leaves it. -/
def reopenedRec (s : State) (r : Nat) (x : RangeRec) : RangeRec :=
  if settingB s (0x2710 + r) 3 then { x with held := s.palette.spanWait.any (fun w => w.range == r), fna := true } else x

theorem rangeRec_sealedOpened {s x : State} (h : Frame [.crypt] s x) (r q : Nat) :
    rangeRec (sealedOpened x r) q = if q = r then reopenedRec s q (rangeRec x q) else rangeRec x q := by
  unfold sealedOpened reopenedRec
  rw [settingB_congr (h.settings_eq (by decide)), show x.palette = s.palette from h .palette (by decide)]
  by_cases hq : q = r
  · subst hq
    rw [if_pos rfl]
    split
    · exact rangeRec_modRange_self _ _ _
    · rfl
  · rw [if_neg hq]
    split
    · rw [rangeRec_modRange, if_neg hq]
    · rfl

theorem rangeRec_rangesReopened (s : State) (r : Nat) :
    rangeRec (rangesReopened s) r = if r < 8 then reopenedRec s r (rangeRec s r) else rangeRec s r := by
  have hpass := foldl_range_get (get := rangeRec) (f := sealedOpened) (F := reopenedRec s) (Inv := Frame [.crypt] s) (base := 0)
    (fun x i hx => hx.trans (sealedOpened_frame x i)) (fun x i hx j => by rw [Nat.zero_add]; exact rangeRec_sealedOpened hx i j)
    (.refl _ s) 8 r
  unfold rangesReopened
  rw [hpass]
  exact if_congr (by omega) rfl rfl

/-- An event is recorded alike whether or not a re-anchoring is due. -/
theorem ledgerRecord_reanchor (s : State) (due : Option Nat) (code : Nat) (data : List Byte) :
    (ledgerRecord { s with sys := { s.sys with reanchor := due } } code data).1.ledger = (ledgerRecord s code data).1.ledger := by
  have hassign (x : State) : (ledgerAssign { x with sys := { x.sys with reanchor := due } } code data false).1.ledger =
      (ledgerAssign x code data false).1.ledger := by
    unfold ledgerAssign
    dsimp only
    split <;> rfl
  have hsuppress (tracked : Bool) : (suppress { s with sys := { s.sys with reanchor := due } } code tracked).ledger =
      (suppress s code tracked).ledger :=
    suppress_ledger_congr (s := s) (t := { s with sys := { s.sys with reanchor := due } }) rfl code tracked
  have hlimit : forceN { s with sys := { s.sys with reanchor := due } } 0x3180 6 = forceN s 0x3180 6 := rfl
  unfold ledgerRecord
  rw [hlimit]
  dsimp only
  split
  · exact hassign s
  · split
    · split
      · exact hassign { s with ledger := _ }
      · exact hsuppress true
    · split
      · exact hassign { s with ledger := _ }
      · exact hsuppress false

theorem logsEvent_reanchorEnded {s x : State} (h : Frame [.crypt] s x) (code : Nat) (data : List Byte) :
    LogsEvent code data s (raise (reanchorEnded x) code data) := by
  have hrecord : (raise (reanchorEnded x) code data).ledger = (ledgerRecord (reanchorEnded x) code data).1.ledger :=
    raise_keeps_record _ code data .ledger (by decide)
  have hstopped : Frame [.crypt] s (reanchorStopped x) := Frame.upd_crypt h rfl
  exact (hrecord.trans (ledgerRecord_reanchor (reanchorStopped x) none code data)).trans (ledgerRecord_ledger_congr
    (hstopped.ledger_eq (by decide)) (hstopped.sys_eq (by decide)) (hstopped.settings_eq (by decide)) code data)

theorem reanchorEnded_crypt (s : State) : (reanchorEnded s).crypt = { s.crypt with reanchoring := false } := rfl

theorem reanchorEnded_sys (s : State) : (reanchorEnded s).sys = { s.sys with reanchor := none } := rfl

theorem completes_treeReanchorEnd (cause : Nat) :
    Completes .treeReanchorEnd [.sys, .mgmt, .folio, .ledger, .crypt, .stats, .out]
      (fun s => s.sys.reanchor = some cause ∧ s.crypt.reanchoring = true) (fun s t =>
        t.crypt.reanchoring = false ∧ t.sys.reanchor = none ∧ t.crypt.storeSeq = s.crypt.storeSeq + 1 ∧
        (∀ r, rangeRec t r = if r < 8 ∧ settingB s (0x2710 + r) 3 then
            { rangeRec s r with held := s.palette.spanWait.any (fun w => w.range == r), fna := true }
          else rangeRec s r) ∧ LogsEvent 0x2706 (leBytes 1 cause) s t) := by
  rintro s ⟨hdue, hruns⟩
  obtain ⟨t, hnext, hframe⟩ := execTreeReanchorEnd_frame s
  have ht := Host.Outcome.next.inj (hnext.symm.trans (exec_treeReanchorEnd hdue hruns))
  have hraise := raise_frame (reanchorEnded (rangesReopened s)) 0x2706 (leBytes 1 cause)
  have hcrypt := hraise.crypt_eq (by decide)
  refine ⟨t, hnext, hframe, ?_⟩
  rw [ht]
  refine ⟨?_, ?_, ?_, fun r => ?_, ?_⟩
  · rw [keyStoreUpdate_crypt, hcrypt, reanchorEnded_crypt]
  · rw [(keyStoreUpdate_frame _).sys_eq (by decide), hraise.sys_eq (by decide), reanchorEnded_sys]
  · rw [keyStoreUpdate_crypt, hcrypt, reanchorEnded_crypt, ← rangesReopened_storeSeq s]
  · have hranges : (raise (reanchorEnded (rangesReopened s)) 0x2706 (leBytes 1 cause)).crypt.ranges =
        (rangesReopened s).crypt.ranges := by rw [hcrypt, reanchorEnded_crypt]
    rw [rangeRec_congr ((keyStoreUpdate_ranges _).trans hranges), rangeRec_rangesReopened]
    unfold reopenedRec
    by_cases hr : r < 8
    · simp only [hr, true_and, if_true]
    · simp only [hr, false_and, if_false]
  · unfold LogsEvent
    rw [(keyStoreUpdate_frame _).ledger_eq (by decide)]
    exact logsEvent_reanchorEnded (rangesReopened_frame s) _ _

theorem completes_treeReanchorEnd_idle :
    Completes .treeReanchorEnd [] (fun s => s.sys.reanchor = none ∨ s.crypt.reanchoring = false) (fun _ _ => True) :=
  fun s hidle => ⟨s, exec_treeReanchorEnd_idle hidle, .refl _ s, trivial⟩

/-- Settles O38, command by command: the keys and the counts pass unchanged through programs, Palette writes and journal records
(`CryptKept`), the end of a step moves the boundary or changes nothing (`StepEnded`), and a re-anchoring stays due through all that
it writes (`AnchorKept`). -/
theorem glazing : Obligations.Glazing := by
  unfold Obligations.Glazing
  intro ranges calm programmed inside
  refine ⟨fun via => ?_, completes_openingComplete, completes_openingComplete_waits, completes_openingComplete_idle, ?_, ?_, ?_, ?_,
    completes_treeReanchor, completes_treeReanchor_idle, completes_treeReanchorEnd, completes_treeReanchorEnd_idle⟩
  · exact ⟨serves_glazeStart via, rejects_glazeCommands_ephemeral via, rejects_glazeStart_busy via, rejects_glazeStart_state via,
      serves_glazePause via, rejects_glazePause via, serves_glazeResume via, rejects_glazeResume via⟩
  · exact fun i errs r pl hinside => ⟨completes_glazeUnit i errs r pl hinside, completes_glazeUnit_idle i errs⟩
  · exact fun line u code pl r hinside => ⟨completes_glazeUnitCommit line u code pl r hinside, completes_glazeUnitCommit_idle line⟩
  · exact fun r => ⟨completes_glazeFinish r, completes_glazeFinish_noRoom r, completes_glazeFinish_waits r⟩
  · exact fun group errs job payload r => ⟨completes_pageReencryption group errs job payload r,
      completes_pageReencryption_idle group errs, completes_pageReencryptionEnd group job, completes_pageReencryptionEnd_idle group⟩

end Sys2Proof.Machine
end

section
/-! The close of a region pass (O39): RegionPasses, [281x.06], is an UNSIGNED32 (R231), and a statistic wraps at the width of its
object. The statement counts it modulo 2^64. -/
namespace Sys2Proof.Machine

/-- A pass of region 0 that has been measured and is through. -/
def passThrough : PassRec := { region := 0, offset := 1048576, measured := true }

/-- A device in service whose group 0 is about to close a pass, when RegionPasses stands at its last value. -/
def lastPassCounted : State :=
  { sys := { dev := .active, memoryActive := true }
    groups := [(0, { pass := some passThrough })]
    stats := [(objKey 0x2810 6, 2 ^ 32 - 1)] }

/-- The state meets the hypotheses of the clause of O39 on a pass that is through. -/
theorem lastPassCounted_closes :
    (groupOf lastPassCounted 0).pass = some passThrough ∧ passThrough.measured = true ∧
      (engineRuns lastPassCounted 0 = true ∧ journalRoom lastPassCounted 0 1 = true) ∧
      regionFenced lastPassCounted 0 passThrough.region = false ∧
      passEnd lastPassCounted 0 passThrough.region ≤ passThrough.offset := by
  decide +kernel

theorem lastPassCounted_passes : stat lastPassCounted 0x2810 6 = 2 ^ 32 - 1 := by decide +kernel

/-- The close counts the pass, and the count wraps to 0. -/
theorem regionPassClose_wraps :
    ∃ t, exec (.regionPassClose 0) lastPassCounted = .next t ∧ stat t 0x2810 6 = 0 :=
  ⟨_, rfl, by decide +kernel⟩

/-- Refutes O39 in its clause on the close of a pass: the statement takes RegionPasses for a count of 64 bits, but [281x.06] is an
UNSIGNED32 (R231), which never reads 2^32: where it stands at 2^32 - 1 the next close leaves 0. -/
theorem not_retouch : ¬ Obligations.Retouch := by
  rintro ⟨-, hgroups⟩
  obtain ⟨-, -, -, hpasses, -⟩ := hgroups 0
  obtain ⟨-, -, -, -, hclose, -⟩ := hpasses [] ⟨[], false⟩ passThrough (.host 0) (placeSlot lastPassCounted 0 0 0) rfl
  obtain ⟨t, hexec, -, -, -, -, -, hcounted, -⟩ := hclose lastPassCounted lastPassCounted_closes
  obtain ⟨t', hexec', hzero⟩ := regionPassClose_wraps
  obtain rfl : t' = t := Host.Outcome.next.inj (hexec'.symm.trans hexec)
  have hnext : stat t' 0x2810 6 = (stat lastPassCounted 0x2810 6 + 1) % 2 ^ 64 := hcounted
  rw [hzero, lastPassCounted_passes] at hnext
  exact absurd hnext (by decide)

end Sys2Proof.Machine
end

section
/-! The command frames of a stack (R234 to R240, R245, R247, R251, R257): a frame is executed, is a frame error, or is not heard. -/
namespace Sys2Proof.Machine

/-! ### Banks and mode registers of a stack -/

theorem bankOf_modBank (s : State) (ch b : Nat) (f : BankRec → BankRec) (c k : Nat) :
    bankOf (modBank s ch b f) c k = if c = ch ∧ k = b then f (bankOf s ch b) else bankOf s c k := by
  unfold bankOf modBank
  rw [channelOf_modChannel]
  by_cases hc : c = ch
  · simp [hc, tabGet_mod]
  · simp [hc]

theorem modeReg_setModeReg (s : State) (ch r v c q : Nat) :
    modeReg (setModeReg s ch r v) c q = if c = ch ∧ q = r then v % 65536 else modeReg s c q := by
  unfold modeReg setModeReg
  rw [channelOf_modChannel]
  by_cases hc : c = ch
  · simp [hc, tabGet_set]
  · simp [hc]

/-- A change of a channel that leaves its banks leaves the banks of every channel. -/
theorem bankOf_modChannel (s : State) (ch : Nat) (f : ChannelRec → ChannelRec) (hf : ∀ x, (f x).banks = x.banks) (c k : Nat) :
    bankOf (modChannel s ch f) c k = bankOf s c k := by
  unfold bankOf
  rw [channelOf_modChannel]
  split <;> simp_all

/-! ### What becomes of a frame (R237, R245, R257) -/

/-- The stack of a channel takes frames, and does not merely echo them (R237, R251, R254, R257). -/
def Listens (s : State) (ch : Nat) : Prop :=
  (channelOf s ch).parked = false ∧ (channelOf s ch).powerDown = false ∧ (channelOf s ch).stopped = false ∧
    (channelOf s ch).training ≠ some 0

theorem takeFrame_of_listens {s : State} {ch : Nat} (h : Listens s ch) (op : Nat) (fields : BitVec 44) (bank : Nat) (ok : Bool)
    (run : State → State) :
    takeFrame s ch op fields bank ok run = if frameEven op fields && ok then run s else sendEvent s ch 3 bank := by
  obtain ⟨hparked, hpower, hstopped, htraining⟩ := h
  simp [takeFrame, hparked, hpower, hstopped, htraining]

theorem takeFrame_of_deaf {s : State} {ch : Nat} (h : (channelOf s ch).parked = true ∨ (channelOf s ch).powerDown = true) (op : Nat)
    (fields : BitVec 44) (bank : Nat) (ok : Bool) (run : State → State) : takeFrame s ch op fields bank ok run = s :=
  if_pos h

theorem sendEvent_frame_out (s : State) (ch kind field : Nat) : Frame [.out] s (sendEvent s ch kind field) :=
  Frame.upd_out (.refl _ s) rfl

section
variable {c : Instr} {ch op bank : Nat} {fields : BitVec 44} {ok : State → Bool} {run : State → State → State}
  (hexec : ∀ s, exec c s = .next (takeFrame s ch op fields bank (ok s) (run s)))
include hexec

/-- A frame that the stack accepts is executed. -/
theorem completes_frame {units : List UnitName} {before : State → Prop} {after : State → State → Prop}
    (hgood : ∀ s, before s → Listens s ch ∧ frameEven op fields = true ∧ ok s = true) (hframe : ∀ s, Frame units s (run s s))
    (hafter : ∀ s, before s → after s (run s s)) : Completes c units before after := by
  intro s hs
  obtain ⟨hlistens, heven, hok⟩ := hgood s hs
  refine ⟨run s s, ?_, hframe s, hafter s hs⟩
  rw [hexec, takeFrame_of_listens hlistens, heven, hok]
  rfl

/-- A frame of odd parity or one that the stack does not accept is a frame error. -/
theorem completes_frameError {before : State → Prop}
    (hbad : ∀ s, before s → Listens s ch ∧ (frameEven op fields = false ∨ ok s = false)) :
    Completes c [.out] before (fun s t => t.out = .alert ch (alertFrame 3 bank) :: s.out) := by
  intro s hs
  obtain ⟨hlistens, hbad⟩ := hbad s hs
  refine ⟨sendEvent s ch 3 bank, ?_, sendEvent_frame_out s ch 3 bank, rfl⟩
  have hrefused : ¬ (frameEven op fields && ok s) = true := by rcases hbad with h | h <;> simp [h]
  rw [hexec, takeFrame_of_listens hlistens, if_neg hrefused]

end

end Sys2Proof.Machine
end

section
/-! A stack takes read, program, suspend and resume frames (O25). -/
namespace Sys2Proof.Machine

/-! ### Reads (R237, R239, R240) -/

/-- What a stack answers to a read outside its training modes: the stored patch as sensed (R237). -/
def sensedBurst (s : State) (ch bank index : Nat) (err : Patch) : Output :=
  .burst ch (patchBytes (tabGet dPatch s.path.medium (patchKey ch (index * 256 + bank)) ^^^ err))

/-- One bank of a stack has changed, and no other of any stack. -/
def BankSet (ch bank : Nat) (b : BankRec) (s t : State) : Prop :=
  ∀ c k, bankOf t c k = if c = ch ∧ k = bank then b else bankOf s c k

/-- The bank runs no program and no read (R240). -/
def BankFree (s : State) (ch bank : Nat) : Prop :=
  (bankOf s ch bank).running = none ∧ (bankOf s ch bank).readUntil ≤ s.sys.time

theorem modBank_bankSet (s : State) (ch bank : Nat) (f : BankRec → BankRec) :
    BankSet ch bank (f (bankOf s ch bank)) s (modBank s ch bank f) :=
  bankOf_modBank s ch bank f

theorem bankFree_iff {s : State} {ch bank : Nat} :
    ((bankOf s ch bank).running.isNone && !bankReading s ch bank) = true ↔ BankFree s ch bank := by
  simp [BankFree, bankReading]

theorem senseBytes_of_untrained {s : State} {ch : Nat} (h : (channelOf s ch).training = none) (bank index : Nat) (err : Patch) :
    Output.burst ch (senseBytes s ch bank index err) = sensedBurst s ch bank index err := by
  simp [senseBytes, h, sensedBurst, stackAddr]

/-- The stack hears frames and is in no training mode. -/
def Untrained (s : State) (ch : Nat) : Prop :=
  (channelOf s ch).parked = false ∧ (channelOf s ch).powerDown = false ∧ (channelOf s ch).stopped = false ∧
    (channelOf s ch).training = none

theorem Untrained.listens {s : State} {ch : Nat} (h : Untrained s ch) : Listens s ch := by
  obtain ⟨hparked, hpower, hstopped, htraining⟩ := h
  exact ⟨hparked, hpower, hstopped, by simp [htraining]⟩

/-- A read of a bank: the patch goes out as sensed, and its index is latched for 45 ns (R237, R242). -/
def ReadBegun (ch bank index : Nat) (err : Patch) (s t : State) : Prop :=
  t.out = sensedBurst s ch bank index err :: s.out ∧
    BankSet ch bank { bankOf s ch bank with latched := some index, readUntil := s.sys.time + 45 * 64 } s t

theorem stackRead_begins {s : State} {ch : Nat} (h : Untrained s ch) (bank index : Nat) (err : Patch) :
    ReadBegun ch bank index err s (stackRead s ch bank index err) := by
  obtain ⟨-, -, -, htraining⟩ := h
  refine ⟨?_, modBank_bankSet _ ch bank _⟩
  rw [← senseBytes_of_untrained htraining]
  rfl

section
variable (channel : Channel) (fields : BitVec 44) (data : Patch)

/-- What a read frame must meet at its bank (R236, R237, R240). -/
def ReadFits (s : State) : Prop :=
  bitsOf fields.toNat 2 1 = 0 ∧ frameIndex fields < stackIndices s channel.val ∧ BankFree s channel.val (frameBank fields)

variable {channel fields} in
theorem readFits_iff {s : State} :
    (decide (bitsOf fields.toNat 2 1 = 0) && decide (frameIndex fields < stackIndices s channel.val)
      && (bankOf s channel.val (frameBank fields)).running.isNone && !bankReading s channel.val (frameBank fields)) = true ↔
      ReadFits channel fields s := by
  simp [ReadFits, ← bankFree_iff, and_assoc]

theorem completes_rd :
    Completes (.rd channel fields data) [.channels, .out]
      (fun s => Untrained s channel.val ∧ frameEven 1 fields = true ∧ ReadFits channel fields s)
      (ReadBegun channel.val (frameBank fields) (frameIndex fields) data) :=
  completes_frame (fun _ => rfl) (fun _ hs => ⟨hs.1.listens, hs.2.1, readFits_iff.2 hs.2.2⟩)
    (fun s => stackRead_frame s _ _ _ _) fun _ hs => stackRead_begins hs.1 _ _ _

theorem completes_rd_error :
    Completes (.rd channel fields data) [.out]
      (fun s => Untrained s channel.val ∧ (frameEven 1 fields = false ∨ ¬ ReadFits channel fields s))
      (fun s t => t.out = .alert channel.val (alertFrame 3 (frameBank fields)) :: s.out) :=
  completes_frameError (fun _ => rfl) fun _ hs =>
    ⟨hs.1.listens, hs.2.imp_right fun hbad => Bool.eq_false_of_not_eq_true (mt readFits_iff.1 hbad)⟩

variable {channel fields} in
theorem latchedReadFits_iff {s : State} :
    (decide (bitsOf fields.toNat 2 1 = 0) && decide (frameIndex fields < stackIndices s channel.val)
      && (bankOf s channel.val (frameBank fields)).running.isNone
      && ((bankOf s channel.val (frameBank fields)).latched == some (frameIndex fields))
      && !bankReading s channel.val (frameBank fields)) = true ↔
      ReadFits channel fields s ∧ (bankOf s channel.val (frameBank fields)).latched = some (frameIndex fields) := by
  simp only [← readFits_iff, Bool.and_eq_true, beq_iff_eq]
  tauto

theorem completes_srd :
    Completes (.srd channel fields data) [.channels, .out]
      (fun s => Untrained s channel.val ∧ frameEven 2 fields = true ∧ ReadFits channel fields s ∧
        (bankOf s channel.val (frameBank fields)).latched = some (frameIndex fields))
      (ReadBegun channel.val (frameBank fields) (frameIndex fields) data) :=
  completes_frame (fun _ => rfl) (fun _ hs => ⟨hs.1.listens, hs.2.1, latchedReadFits_iff.2 hs.2.2⟩)
    (fun s => stackRead_frame s _ _ _ _) fun _ hs => stackRead_begins hs.1 _ _ _

theorem completes_srd_error :
    Completes (.srd channel fields data) [.out]
      (fun s => Untrained s channel.val ∧ (frameEven 2 fields = false ∨ ¬ ReadFits channel fields s ∨
        (bankOf s channel.val (frameBank fields)).latched ≠ some (frameIndex fields)))
      (fun s t => t.out = .alert channel.val (alertFrame 3 (frameBank fields)) :: s.out) :=
  completes_frameError (fun _ => rfl) fun _ hs =>
    ⟨hs.1.listens, hs.2.imp_right fun hbad =>
      Bool.eq_false_of_not_eq_true fun hok => not_and_or.2 hbad (latchedReadFits_iff.1 hok)⟩

/-! ### Programs (R237, R238, R240, R243) -/

/-- A program frame that its bank can take (R236, R240). -/
def ProgramFits (s : State) : Prop :=
  frameIndex fields < stackIndices s channel.val ∧ BankFree s channel.val (frameBank fields)

variable {channel fields} in
theorem programFits_iff {s : State} :
    (decide (frameIndex fields < stackIndices s channel.val) && (bankOf s channel.val (frameBank fields)).running.isNone
      && !bankReading s channel.val (frameBank fields)) = true ↔ ProgramFits channel fields s := by
  simp [ProgramFits, ← bankFree_iff, and_assoc]

/-- The program that a frame and its data ask for. -/
def frameProgram : BankProg := { index := frameIndex fields, data := data }

/-- A program is refused: its data is kept, to be sent again (R245, R246). -/
def programRefused (s : State) : State :=
  modBank s channel.val (frameBank fields) (fun b => { b with refused := some (frameProgram fields data) })

theorem programRefused_listens {s : State} (h : Listens s channel.val) : Listens (programRefused channel fields data s) channel.val := by
  unfold Listens programRefused modBank
  rw [channelOf_modChannel_self]
  exact h

variable {channel fields} in
theorem execPrg_of_fits {s : State} (h : Untrained s channel.val) (heven : frameEven 3 fields = true)
    (hfits : ProgramFits channel fields s) :
    exec (.prg channel fields data) s =
      .next (stackProgram s channel.val (frameBank fields) (frameIndex fields) (bitsOf fields.toNat 8 1) data) := by
  have hok := programFits_iff.2 hfits
  show execPrg channel fields data s = _
  unfold execPrg
  simp only [hok, heven, Bool.and_self, Bool.true_or, if_true, takeFrame_of_listens h.listens]

variable {channel fields} in
theorem execPrg_of_misfit {s : State} (h : Untrained s channel.val)
    (hbad : frameEven 3 fields = false ∨ ¬ ProgramFits channel fields s) :
    exec (.prg channel fields data) s = .next (sendEvent
      (if frameIndex fields < stackIndices s channel.val then programRefused channel fields data s else s)
      channel.val 3 (frameBank fields)) := by
  have hhears : stackHears s channel.val = true := by simp [stackHears, h.1, h.2.1]
  show execPrg channel fields data s = _
  unfold execPrg
  extract_lets ch bank i fits ok kept
  have hrefused : (frameEven 3 fields && ok) = false := by
    rcases hbad with hodd | hmisfit
    · rw [hodd, Bool.false_and]
    · rw [Bool.eq_false_of_not_eq_true (mt programFits_iff.1 hmisfit : ¬ ok = true), Bool.and_false]
  have hkept : kept = if i < stackIndices s ch then programRefused channel fields data s else s := by
    unfold kept
    rw [hrefused, hhears, Bool.false_or, Bool.not_true, Bool.or_false]
    by_cases hindex : i < stackIndices s ch <;> simp [fits, hindex, programRefused, frameProgram, ch, bank, i]
  have hlistens : Listens kept ch := by
    rw [hkept]
    split
    · exact programRefused_listens channel fields data h.listens
    · exact h.listens
  rw [takeFrame_of_listens hlistens, if_neg (by simp [hrefused]), hkept]

theorem programRefused_bankSet (s : State) :
    BankSet channel.val (frameBank fields)
      { bankOf s channel.val (frameBank fields) with refused := some (frameProgram fields data) } s
      (programRefused channel fields data s) :=
  modBank_bankSet s _ _ _

theorem completes_prg :
    Completes (.prg channel fields data) [.channels]
      (fun s => Untrained s channel.val ∧ frameEven 3 fields = true ∧ frameIndex fields < stackIndices s channel.val ∧
        BankFree s channel.val (frameBank fields) ∧ (crc8 (patchBytes data)).toNat = bitsOf fields.toNat 8 1)
      (fun s t => BankSet channel.val (frameBank fields)
        { bankOf s channel.val (frameBank fields) with
          running := some (frameProgram fields data), latched := none, refused := none } s t) := by
  rintro s ⟨hplain, heven, hindex, hfree, hcrc⟩
  refine ⟨_, execPrg_of_fits data hplain heven ⟨hindex, hfree⟩, ?_, ?_⟩
  all_goals
    unfold stackProgram
    rw [if_neg (not_not_intro hcrc), if_neg (by simp [hplain.2.2.2])]
  · exact Frame.step (modChannel_frame _ _ _) (modChannel_frame s _ _) rfl
  · intro c k
    rw [bankOf_modChannel]
    · exact modBank_bankSet s _ _ _ c k
    · exact fun _ => rfl

theorem completes_prg_badCrc :
    Completes (.prg channel fields data) [.channels, .out]
      (fun s => Untrained s channel.val ∧ frameEven 3 fields = true ∧ frameIndex fields < stackIndices s channel.val ∧
        BankFree s channel.val (frameBank fields) ∧ (crc8 (patchBytes data)).toNat ≠ bitsOf fields.toNat 8 1)
      (fun s t => t.out = .alert channel.val (alertFrame 4 (frameBank fields)) :: s.out ∧
        BankSet channel.val (frameBank fields)
          { bankOf s channel.val (frameBank fields) with refused := some (frameProgram fields data) } s t) := by
  rintro s ⟨hplain, heven, hindex, hfree, hcrc⟩
  refine ⟨_, execPrg_of_fits data hplain heven ⟨hindex, hfree⟩, stackProgram_frame s _ _ _ _ _, ?_⟩
  unfold stackProgram
  rw [if_pos hcrc]
  exact ⟨rfl, programRefused_bankSet channel fields data s⟩

theorem completes_prg_error :
    Completes (.prg channel fields data) [.channels, .out]
      (fun s => Untrained s channel.val ∧ (frameEven 3 fields = false ∨ stackIndices s channel.val ≤ frameIndex fields ∨
        ¬ BankFree s channel.val (frameBank fields)))
      (fun s t => t.out = .alert channel.val (alertFrame 3 (frameBank fields)) :: s.out ∧
        BankSet channel.val (frameBank fields)
          (if frameIndex fields < stackIndices s channel.val then
            { bankOf s channel.val (frameBank fields) with refused := some (frameProgram fields data) }
          else bankOf s channel.val (frameBank fields)) s t) := by
  rintro s ⟨hplain, hbad⟩
  have hmisfit : frameEven 3 fields = false ∨ ¬ ProgramFits channel fields s :=
    hbad.imp_right fun h hfits => h.elim (fun hle => absurd hfits.1 (by omega)) fun hbusy => hbusy hfits.2
  refine ⟨_, execPrg_of_misfit data hplain hmisfit, ?_⟩
  by_cases hindex : frameIndex fields < stackIndices s channel.val
  · rw [if_pos hindex]
    refine ⟨Frame.step (sendEvent_frame_out _ _ _ _) (Frame.mono (modChannel_frame s _ _) rfl) rfl, rfl, ?_⟩
    rw [if_pos hindex]
    exact programRefused_bankSet channel fields data s
  · rw [if_neg hindex]
    refine ⟨Frame.mono (sendEvent_frame_out s _ _ _) rfl, rfl, fun c k => ?_⟩
    rw [if_neg hindex]
    split
    case isTrue h => rw [h.1, h.2]; rfl
    case isFalse => rfl

/-! ### Suspension and resumption (R240) -/

variable {channel fields} in
theorem suspendFits_iff {s : State} :
    (decide (bitsOf fields.toNat 35 1 = 0) && (bankOf s channel.val (frameBank fields)).running.isSome
      && (bankOf s channel.val (frameBank fields)).suspended.isNone && !bankReading s channel.val (frameBank fields)) = true ↔
      bitsOf fields.toNat 35 1 = 0 ∧ (bankOf s channel.val (frameBank fields)).running.isSome = true ∧
        (bankOf s channel.val (frameBank fields)).suspended = none ∧
        (bankOf s channel.val (frameBank fields)).readUntil ≤ s.sys.time := by
  simp [bankReading, and_assoc]

variable {channel fields} in
theorem resumeFits_iff {s : State} :
    (decide (bitsOf fields.toNat 35 1 = 0) && (bankOf s channel.val (frameBank fields)).suspended.isSome
      && (bankOf s channel.val (frameBank fields)).running.isNone && !bankReading s channel.val (frameBank fields)) = true ↔
      bitsOf fields.toNat 35 1 = 0 ∧ BankFree s channel.val (frameBank fields) ∧
        (bankOf s channel.val (frameBank fields)).suspended.isSome = true := by
  simp only [← bankFree_iff, Bool.and_eq_true, decide_eq_true_eq]
  tauto

theorem completes_sus :
    Completes (.sus channel fields) [.channels]
      (fun s => Untrained s channel.val ∧ frameEven 4 fields = true ∧ bitsOf fields.toNat 35 1 = 0 ∧
        (bankOf s channel.val (frameBank fields)).running.isSome = true ∧
        (bankOf s channel.val (frameBank fields)).suspended = none ∧
        (bankOf s channel.val (frameBank fields)).readUntil ≤ s.sys.time)
      (fun s t => BankSet channel.val (frameBank fields)
        { bankOf s channel.val (frameBank fields) with
          suspended := (bankOf s channel.val (frameBank fields)).running, running := none, latched := none } s t) :=
  completes_frame (fun _ => rfl) (fun _ hs => ⟨hs.1.listens, hs.2.1, suspendFits_iff.2 hs.2.2⟩) (fun s => modChannel_frame s _ _)
    fun s _ => modBank_bankSet s _ _ _

theorem completes_sus_error :
    Completes (.sus channel fields) [.out]
      (fun s => Untrained s channel.val ∧ (frameEven 4 fields = false ∨ bitsOf fields.toNat 35 1 ≠ 0 ∨
        (bankOf s channel.val (frameBank fields)).running = none ∨
        (bankOf s channel.val (frameBank fields)).suspended.isSome = true ∨
        s.sys.time < (bankOf s channel.val (frameBank fields)).readUntil))
      (fun s t => t.out = .alert channel.val (alertFrame 3 (frameBank fields)) :: s.out) := by
  refine completes_frameError (fun _ => rfl) fun s hs => ⟨hs.1.listens, hs.2.imp_right fun hbad => ?_⟩
  refine Bool.eq_false_of_not_eq_true fun hok => ?_
  obtain ⟨hreserved, hrunning, hsuspended, hread⟩ := suspendFits_iff.1 hok
  rcases hbad with h | h | h | h
  · exact h hreserved
  · simp [h] at hrunning
  · simp [hsuspended] at h
  · omega

theorem completes_rsm :
    Completes (.rsm channel fields) [.channels]
      (fun s => Untrained s channel.val ∧ frameEven 5 fields = true ∧ bitsOf fields.toNat 35 1 = 0 ∧
        BankFree s channel.val (frameBank fields) ∧ (bankOf s channel.val (frameBank fields)).suspended.isSome = true)
      (fun s t => BankSet channel.val (frameBank fields)
        { bankOf s channel.val (frameBank fields) with
          running := (bankOf s channel.val (frameBank fields)).suspended, suspended := none, latched := none } s t) :=
  completes_frame (fun _ => rfl) (fun _ hs => ⟨hs.1.listens, hs.2.1, resumeFits_iff.2 hs.2.2⟩) (fun s => modChannel_frame s _ _)
    fun s _ => modBank_bankSet s _ _ _

theorem completes_rsm_error :
    Completes (.rsm channel fields) [.out]
      (fun s => Untrained s channel.val ∧ (frameEven 5 fields = false ∨ bitsOf fields.toNat 35 1 ≠ 0 ∨
        (bankOf s channel.val (frameBank fields)).suspended = none ∨ ¬ BankFree s channel.val (frameBank fields)))
      (fun s t => t.out = .alert channel.val (alertFrame 3 (frameBank fields)) :: s.out) := by
  refine completes_frameError (fun _ => rfl) fun s hs => ⟨hs.1.listens, hs.2.imp_right fun hbad => ?_⟩
  refine Bool.eq_false_of_not_eq_true fun hok => ?_
  obtain ⟨hreserved, hfree, hsuspended⟩ := resumeFits_iff.1 hok
  rcases hbad with h | h | h
  · exact h hreserved
  · simp [h] at hsuspended
  · exact h hfree

/-! ### A stack that does not hear (R254, R257) -/

theorem exec_bankFrame_of_deaf {s : State}
    (h : (channelOf s channel.val).parked = true ∨ (channelOf s channel.val).powerDown = true) :
    ∀ c ∈ [Instr.rd channel fields data, .srd channel fields data, .prg channel fields data, .sus channel fields,
      .rsm channel fields], exec c s = .next s := by
  have hhears : stackHears s channel.val = false := by rcases h with h | h <;> simp [stackHears, h]
  have hprg : exec (.prg channel fields data) s = .next s := by
    show execPrg channel fields data s = _
    unfold execPrg
    simp only [hhears, Bool.not_false, Bool.or_true, if_true, takeFrame_of_deaf h]
  simp only [List.forall_mem_cons, List.not_mem_nil, false_imp_iff, implies_true, and_true]
  exact ⟨congrArg _ (takeFrame_of_deaf h _ _ _ _ _), congrArg _ (takeFrame_of_deaf h _ _ _ _ _), hprg,
    congrArg _ (takeFrame_of_deaf h _ _ _ _ _), congrArg _ (takeFrame_of_deaf h _ _ _ _ _)⟩

end

/-- Settles O25, frame by frame: what a stack that listens executes and what it refuses (`completes_frame`, `completes_frameError`). -/
theorem stackBankFrames : Obligations.StackBankFrames := by
  unfold Obligations.StackBankFrames
  intro hears bankSet error channel fields data ch bank i sensed free readOk begun
  exact ⟨completes_rd channel fields data, completes_rd_error channel fields data, completes_srd channel fields data,
    completes_srd_error channel fields data, completes_prg channel fields data, completes_prg_badCrc channel fields data,
    completes_prg_error channel fields data, completes_sus channel fields, completes_sus_error channel fields,
    completes_rsm channel fields, completes_rsm_error channel fields,
    fun c hc s hs => ⟨s, exec_bankFrame_of_deaf channel fields data hs c hc, .refl _ s, trivial⟩⟩

end Sys2Proof.Machine
end

section
/-! A stack's mode registers, calibration, training modes and power-down (O26). -/
namespace Sys2Proof.Machine

/-! ### Mode registers (R247) -/

/-- A mode register is read: its value goes out with its complement, and FaultStatus is cleared (R247). -/
def RegisterRead (ch r : Nat) (temperature : Byte) (s t : State) : Prop :=
  t.out = .burst ch (mrrBytes (mrrValue s ch r temperature)) :: s.out ∧
    ∀ c q, modeReg t c q = if c = ch ∧ r = 0x0D ∧ q = 0x0D then 0 else modeReg s c q

theorem stackMrr_reads (s : State) (ch r : Nat) (temperature : Byte) : RegisterRead ch r temperature s (stackMrr s ch r temperature) := by
  unfold stackMrr
  dsimp only
  split
  case isTrue hfault =>
    refine ⟨rfl, fun c q => ?_⟩
    rw [modeReg_setModeReg]
    simp only [hfault, true_and]
    rfl
  case isFalse hfault => exact ⟨rfl, fun c q => (if_neg fun h => hfault h.2.1).symm⟩

/-- Every bit that a write reaches stands below bit 16. -/
theorem modeMask_lt (r : Nat) : modeMask r < 2 ^ 16 := by
  unfold modeMask
  split_ifs <;> decide

/-- A mode register is written: in the bits that a write reaches, and not at all where it reaches none (R247). -/
def registerWritten (s : State) (ch r v : Nat) : State :=
  if modeMask r = 0 then s else setModeReg s ch r (v &&& modeMask r)

theorem modeReg_registerWritten (s : State) (ch r v c q : Nat) : modeReg (registerWritten s ch r v) c q =
    if c = ch ∧ q = r ∧ modeMask r ≠ 0 then v &&& modeMask r else modeReg s c q := by
  unfold registerWritten
  split
  case isTrue hmask => rw [if_neg fun h => h.2.2 hmask]
  case isFalse hmask =>
    have hlt : v &&& modeMask r < 65536 := Nat.and_le_right.trans_lt (modeMask_lt r)
    rw [modeReg_setModeReg, Nat.mod_eq_of_lt hlt]
    simp only [hmask, ne_eq, not_false_eq_true, and_true]

theorem registerWritten_frame (s : State) (ch r v : Nat) : Frame [.channels] s (registerWritten s ch r v) :=
  Frame.ite (.refl _ s) (setModeReg_frame s ch r _)

section
variable (channel : Channel) (fields : BitVec 44)

theorem completes_mrr (temperature : Byte) :
    Completes (.mrr channel fields temperature) [.channels, .out]
      (fun s => Listens s channel.val ∧ frameEven 6 fields = true ∧ bitsOf fields.toNat 35 1 = 0 ∧ frameBank fields < 0x0F)
      (RegisterRead channel.val (frameBank fields) temperature) :=
  completes_frame (fun _ => rfl) (fun _ hs => ⟨hs.1, hs.2.1, by simpa using hs.2.2⟩) (fun s => stackMrr_frame s _ _ _)
    fun s _ => stackMrr_reads s _ _ _

theorem completes_mrr_error (temperature : Byte) :
    Completes (.mrr channel fields temperature) [.out]
      (fun s => Listens s channel.val ∧ (frameEven 6 fields = false ∨ bitsOf fields.toNat 35 1 ≠ 0 ∨ 0x0F ≤ frameBank fields))
      (fun s t => t.out = .alert channel.val (alertFrame 3 0xFF) :: s.out) :=
  completes_frameError (fun _ => rfl) fun _ hs => ⟨hs.1, hs.2.imp_right fun hbad => by simpa [imp_iff_not_or] using hbad⟩

theorem completes_mrw :
    Completes (.mrw channel fields) [.channels]
      (fun s => Listens s channel.val ∧ frameEven 7 fields = true ∧ bitsOf fields.toNat 19 1 = 0 ∧ frameBank fields < 0x0F)
      (fun s t => ∀ c q, modeReg t c q =
        if c = channel.val ∧ q = frameBank fields ∧ modeMask (frameBank fields) ≠ 0
        then bitsOf fields.toNat 35 20 &&& modeMask (frameBank fields) else modeReg s c q) :=
  completes_frame (run := fun _ s => registerWritten s channel.val (frameBank fields) (bitsOf fields.toNat 35 20)) (fun _ => rfl)
    (fun _ hs => ⟨hs.1, hs.2.1, by simpa using hs.2.2⟩) (fun s => registerWritten_frame s _ _ _)
    fun s _ => modeReg_registerWritten s _ _ _

theorem completes_mrw_error :
    Completes (.mrw channel fields) [.out]
      (fun s => Listens s channel.val ∧ (frameEven 7 fields = false ∨ bitsOf fields.toNat 19 1 ≠ 0 ∨ 0x0F ≤ frameBank fields))
      (fun s t => t.out = .alert channel.val (alertFrame 3 0xFF) :: s.out) :=
  completes_frameError (fun _ => rfl) fun _ hs => ⟨hs.1, hs.2.imp_right fun hbad => by simpa [imp_iff_not_or] using hbad⟩

end

/-! ### Calibration and training modes (R237, R251) -/

/-- The frame of a CAL sub-operation is well formed (R234, R237). -/
def CalOk (sub : Nat) (low : BitVec 40) : Prop :=
  frameEven 8 (calFields sub low) = true ∧ bitsOf low.toNat 39 1 = 0

/-- One channel is `x` now, and every other is as it was. -/
def ChannelSet (ch : Nat) (x : ChannelRec) (s t : State) : Prop :=
  ∀ c, channelOf t c = if c = ch then x else channelOf s c

theorem modChannel_channelSet (s : State) (ch : Nat) (f : ChannelRec → ChannelRec) :
    ChannelSet ch (f (channelOf s ch)) s (modChannel s ch f) :=
  fun c => channelOf_modChannel s ch c f

theorem toNat_calFields {sub : Nat} (hsub : sub < 16) (low : BitVec 40) : (calFields sub low).toNat = sub * 2 ^ 40 + low.toNat := by
  unfold calFields
  rw [BitVec.toNat_ofNat]
  have := low.isLt
  omega

theorem setWidth_calFields {sub : Nat} (hsub : sub < 16) (low : BitVec 40) : (calFields sub low).setWidth 40 = low := by
  apply BitVec.eq_of_toNat_eq
  rw [BitVec.toNat_setWidth, toNat_calFields hsub]
  have := low.isLt
  omega

/-- The training mode that a value of register 0x0E selects (R247). -/
theorem selectedMode_eq (s : State) (ch : Nat) : selectedMode s ch =
    if modeReg s ch 14 = 1 then some 0 else if modeReg s ch 14 = 2 then some 1
    else if modeReg s ch 14 = 4 then some 2 else if modeReg s ch 14 = 8 then some 3 else none := by
  unfold selectedMode
  generalize modeReg s ch 14 = v
  simp only [show List.range 4 = [0, 1, 2, 3] from rfl, List.find?_cons, List.find?_nil, Nat.reducePow, beq_eq_decide]
  split_ifs with h1 h2 h4 h8 <;> simp_all

section
variable (channel : Channel) (low : BitVec 40)

/-- A CAL frame on the stack of its channel: `run` is what its sub-operation does. -/
def calRun (channel : Channel) (sub : Nat) (low : BitVec 40) (run : State → State) (s : State) : State :=
  takeFrame s channel.val 8 (calFields sub low) 0xFF (decide (sub < 3) && decide (bitsOf low.toNat 39 1 = 0)) run

theorem exec_calZq {sub : Nat} (hsub : sub = 0 ∨ 3 ≤ sub ∧ sub < 16) (s : State) :
    exec (.calZq channel (calFields sub low)) s =
      .next (calRun channel sub low (fun s => modChannel s channel.val (fun x => { x with zqTemp := x.temp })) s) := by
  have hlt : sub < 16 := by omega
  have htop : (calFields sub low).toNat / 2 ^ 40 = sub := by
    rw [toNat_calFields hlt]
    have := low.isLt
    omega
  have hpick : (if sub < 3 then 0 else sub) = sub := by split <;> omega
  show execCalZq channel (calFields sub low) s = _
  unfold execCalZq
  simp only [htop, hpick, setWidth_calFields hlt]
  rfl

variable {channel low}

theorem completes_cal {c : Instr} {sub : Nat} {g : State → ChannelRec → ChannelRec} (hsub : sub < 3)
    (hexec : ∀ s, exec c s = .next (calRun channel sub low (fun s => modChannel s channel.val (g s)) s)) :
    Completes c [.channels] (fun s => Listens s channel.val ∧ CalOk sub low)
      (fun s t => ChannelSet channel.val (g s (channelOf s channel.val)) s t) :=
  completes_frame hexec (fun _ hs => ⟨hs.1, hs.2.1, by simp [hsub, hs.2.2]⟩) (fun s => modChannel_frame s _ _)
    fun s _ => modChannel_channelSet s _ _

theorem completes_cal_error {c : Instr} {sub : Nat} {run : State → State} {before : State → Prop}
    (hexec : ∀ s, exec c s = .next (calRun channel sub low run s)) (hbad : ∀ s, before s → 3 ≤ sub ∨ ¬ CalOk sub low) :
    Completes c [.out] (fun s => Listens s channel.val ∧ before s)
      (fun s t => t.out = .alert channel.val (alertFrame 3 0xFF) :: s.out) := by
  refine completes_frameError (op := 8) (fields := calFields sub low)
    (ok := fun _ => decide (sub < 3) && decide (bitsOf low.toNat 39 1 = 0)) (run := fun _ => run) hexec fun s hs => ⟨hs.1, ?_⟩
  rcases hbad s hs.2 with hreserved | hframe
  · exact .inr (by simp [show ¬ sub < 3 by omega])
  · rcases not_and_or.1 hframe with h | h
    · exact .inl (Bool.eq_false_of_not_eq_true h)
    · exact .inr (by simp [h])

end

/-! ### Power-down (R237, R240, R257) -/

section
variable (channel : Channel) (fields : BitVec 44)

theorem completes_pde :
    Completes (.pde channel fields) [.channels]
      (fun s => Listens s channel.val ∧ frameEven 9 fields = true ∧ bitsOf fields.toNat 43 1 = 0 ∧ stackIdle s channel.val = true)
      (fun s t => ChannelSet channel.val { channelOf s channel.val with powerDown := true } s t) :=
  completes_frame (fun _ => rfl) (fun _ hs => ⟨hs.1, hs.2.1, by simp [hs.2.2.1, hs.2.2.2]⟩) (fun s => modChannel_frame s _ _)
    fun s _ => modChannel_channelSet s _ _

theorem completes_pde_error :
    Completes (.pde channel fields) [.out]
      (fun s => Listens s channel.val ∧
        (frameEven 9 fields = false ∨ bitsOf fields.toNat 43 1 ≠ 0 ∨ stackIdle s channel.val = false))
      (fun s t => t.out = .alert channel.val (alertFrame 3 0xFF) :: s.out) :=
  completes_frameError (fun _ => rfl) fun _ hs => ⟨hs.1, hs.2.imp_right fun hbad => by
    rcases hbad with h | h <;> simp [h]⟩

theorem completes_pdx :
    Completes (.pdx channel fields) [.channels]
      (fun s => (channelOf s channel.val).parked = false ∧ (channelOf s channel.val).powerDown = true ∧
        frameEven 10 fields = true ∧ bitsOf fields.toNat 43 1 = 0)
      (fun s t => ChannelSet channel.val { channelOf s channel.val with powerDown := false } s t) := by
  rintro s ⟨hparked, hdown, heven, hreserved⟩
  refine ⟨modChannel s channel.val fun x => { x with powerDown := false }, ?_, modChannel_frame s _ _, modChannel_channelSet s _ _⟩
  show execPdx channel fields s = _
  simp [execPdx, hparked, hdown, heven, hreserved]

end

/-- Settles O26, frame by frame: what a stack that listens executes and what it refuses (`completes_frame`, `completes_frameError`). -/
theorem stackModeFrames : Obligations.StackModeFrames := by
  unfold Obligations.StackModeFrames
  intro hears only error channel fields low temperature ch r calOk
  have hzq := exec_calZq channel low (sub := 0) (.inl rfl)
  refine ⟨completes_mrr channel fields temperature, completes_mrr_error channel fields temperature, completes_mrw channel fields,
    completes_mrw_error channel fields, completes_cal (by decide) hzq, ?_,
    completes_cal (g := fun _ x => { x with training := none }) (by decide) fun _ => rfl, ?_, ?_, completes_pde channel fields,
    completes_pde_error channel fields, completes_pdx channel fields⟩
  · simp only [← selectedMode_eq]
    exact completes_cal (g := fun s x => { x with training := selectedMode s channel.val }) (by decide) fun _ => rfl
  · exact fun k hlow hhigh => completes_cal_error (exec_calZq channel low (.inr ⟨hlow, hhigh⟩)) fun _ _ => .inl hlow
  · simp only [List.forall_mem_cons, List.not_mem_nil, false_imp_iff, implies_true, and_true]
    exact ⟨completes_cal_error hzq fun _ h => .inr h, completes_cal_error (fun _ => rfl) fun _ h => .inr h,
      completes_cal_error (fun _ => rfl) fun _ h => .inr h⟩

end Sys2Proof.Machine
end

section
/-! Channels at the error limit, marked failed, returned and read (O28). -/
namespace Sys2Proof.Machine

/-! ### Tallies (R414) -/

/-- No tally has counted but those of the full Ledger and of the fences. -/
def TalliesKept (s t : State) : Prop :=
  ∀ j, j ≠ 151 → j ≠ 162 → tabGet dNat t.folio.tallyPending j = tabGet dNat s.folio.tallyPending j

theorem TalliesKept.trans {s t r : State} (h : TalliesKept s t) (k : TalliesKept t r) : TalliesKept s r :=
  fun j hj hj' => (k j hj hj').trans (h j hj hj')

theorem Frame.talliesKept {U : List UnitName} {s t : State} (h : Frame U s t) (hu : .folio ∉ U) : TalliesKept s t :=
  fun _ _ _ => by rw [h.folio_eq hu]

theorem TalliesKept.foldl {α : Type} {f : State → α → State} (hf : ∀ s a, TalliesKept s (f s a)) (l : List α) (s : State) :
    TalliesKept s (l.foldl f s) :=
  List.foldlRecOn (motive := fun t => TalliesKept s t) _ f (fun _ _ _ => rfl) fun x hx a _ => hx.trans (hf x a)

theorem raise_talliesKept (s : State) (code : Nat) (data : List Byte) : TalliesKept s (raise s code data) :=
  fun _ hj _ => raise_tallyPending hj s code data

theorem overThreshold_talliesKept (s : State) (p kind limit lat line : Nat) (warm : Bool) :
    TalliesKept s (overThreshold s p kind limit lat line warm) := by
  have hcount (sub : Nat) : TalliesKept s (bump s (0x2610 + p) sub 1) := (bump_frame s _ _ _).talliesKept (by decide)
  unfold overThreshold
  split
  · dsimp only
    split
    · exact (hcount _).trans (raise_talliesKept _ _ _)
    · exact hcount _
  · exact fun _ _ _ => rfl

theorem maxStat_talliesKept (s : State) (idx sub : Nat) (v : Int) : TalliesKept s (maxStat s idx sub v) :=
  (maxStat_frame s idx sub v).talliesKept (by decide)

theorem bump_talliesKept (s : State) (idx sub n : Nat) : TalliesKept s (bump s idx sub n) := fun _ _ _ => rfl

theorem monitorRead_talliesKept (s : State) (p line lat : Nat) (warm poison : Bool) :
    TalliesKept s (monitorRead s p line lat warm poison) := by
  unfold monitorRead
  extract_lets idx counted secret longest binned poisoned
  have hlongest : TalliesKept s longest :=
    ((bump_talliesKept s _ _ _).trans (bump_talliesKept _ _ _ _)).trans ((maxStat_talliesKept _ _ _ _).trans (maxStat_talliesKept _ _ _ _))
  have hpoisoned : Frame [.stats] binned poisoned := Frame.ite (bump_frame _ _ _ _) (.refl _ _)
  exact (hlongest.trans (bump_talliesKept _ _ _ _)).trans
    ((hpoisoned.talliesKept (by decide)).trans (overThreshold_talliesKept _ _ _ _ _ _ _))

theorem monitorWrite_talliesKept (s : State) (p line lat : Nat) (warm through snooped isSealed : Bool) :
    TalliesKept s (monitorWrite s p line lat warm through snooped isSealed) := by
  unfold monitorWrite
  dsimp only
  refine (bump_talliesKept s (0x2610 + p) 6 1).trans ?_
  generalize bump s (0x2610 + p) 6 1 = x
  split
  · exact ((bump_talliesKept x _ _ _).trans (maxStat_talliesKept _ _ _ _)).trans
      (((perfCount_frame _ _ _ _).talliesKept (by decide)).trans (overThreshold_talliesKept _ _ _ _ _ _ _))
  · exact (maxStat_talliesKept x _ _ _).trans (overThreshold_talliesKept _ _ _ _ _ _ _)

theorem deliverRead_talliesKept (s : State) (w : ReadWait) (data : Line) (poison : Bool) :
    TalliesKept s (deliverRead s w data poison) := by
  unfold deliverRead
  split
  · extract_lets flagged sampled monitored counted
    have hflagged : Frame [.perf] s flagged := Frame.ite (flagSample_frame s _ _) (.refl _ s)
    have hsampled : Frame [.queues, .perf, .stats] s sampled :=
      Frame.step (sampleDone_frame _ _ _) (Frame.ite (Frame.step (flagSample_frame _ _ _) (hflagged.mono rfl) rfl)
        (hflagged.mono rfl)) rfl
    have hcounted : Frame [.perf] monitored counted := Frame.ite (perfCount_frame _ _ _ _) (.refl _ _)
    exact ((hsampled.talliesKept (by decide)).trans (monitorRead_talliesKept _ _ _ _ _ _)).trans
      ((hcounted.talliesKept (by decide)).trans ((settleConflict_frame _ _ _).talliesKept (by decide)))
  · refine Frame.talliesKept (U := [.queues, .barrow, .perf, .stats]) ?_ (by decide)
    exact Frame.step (modBarrow_frame _ _ _) (Frame.step (sampleDone_frame _ _ _)
      (Frame.ite (Frame.mono (flagSample_frame s _ _) rfl) (.refl _ s)) rfl) rfl
  · refine Frame.talliesKept (U := [.ports, .palette]) ?_ (by decide)
    exact Frame.ite (Frame.step (poisonInsert_frame _ _ _ _) (Frame.mono (modPort_frame s _ _) rfl) rfl) (.refl _ s)
  · exact fun _ _ _ => rfl

theorem deliverAck_talliesKept (s : State) (a : AckWait) : TalliesKept s (deliverAck s a) := by
  unfold deliverAck
  split
  · extract_lets sampled monitored counted
    have hsampled : Frame [.queues, .perf, .stats] s sampled :=
      Frame.step (sampleDone_frame _ _ _) (Frame.ite (Frame.mono (flagSample_frame s _ _) rfl) (.refl _ s)) rfl
    have hcounted : Frame [.stats] monitored counted := Frame.ite (bump_frame _ _ _ _) (.refl _ _)
    exact ((hsampled.talliesKept (by decide)).trans (monitorWrite_talliesKept _ _ _ _ _ _ _ _)).trans
      ((hcounted.talliesKept (by decide)).trans ((settleConflict_frame _ _ _).talliesKept (by decide)))
  · exact (modBarrow_frame s _ _).talliesKept (by decide)
  · exact fun _ _ _ => rfl

theorem settleAcks_talliesKept (s : State) : TalliesKept s (settleAcks s) :=
  TalliesKept.foldl deliverAck_talliesKept _ _

theorem acknowledge_talliesKept (s : State) (w : WriteReq) (through : Bool) : TalliesKept s (acknowledge s w through) := by
  unfold acknowledge
  dsimp only
  split
  · exact fun _ _ _ => rfl
  · exact deliverAck_talliesKept _ _

theorem completeHeld_talliesKept (s : State) (mine : Nat → Bool) : TalliesKept s (completeHeld s mine) := by
  unfold completeHeld
  extract_lets ws stuck released easel freed
  have hreleased : Frame [.ports] s released := Frame.foldl (fun x p => modPort_frame x p _) (.refl _ s)
  have hfreed : TalliesKept s freed := hreleased.talliesKept (by decide)
  exact (hfreed.trans (TalliesKept.foldl (fun x w => acknowledge_talliesKept x w false) _ _)).trans
    (TalliesKept.foldl (fun x w => deliverRead_talliesKept x w 0 true) _ _)

/-! ### A column erased in service (R31, R466) -/

/-- A group marked fenced, and the shutdown that it has been fenced in (R31, R374). -/
def fenceMarked (s : State) (g : Nat) : State :=
  let s := modGroup s g (fun x => { x with fenced := true })
  if inShutdown s then { s with sys := { s.sys with fencedInWarn := true } } else s

/-- The writes to a group that wait for the medium wait no more (R31). -/
def acksReleased (s : State) (g : Nat) : State :=
  { s with easel := { s.easel with acks := s.easel.acks.map (fun a =>
      if lineGroup s a.line = g then { a with destage := false, counter := none } else a) } }

/-- What a fence completes: the writes that waited for the group, and those held for it. -/
def fenceSettled (s : State) (g : Nat) : State :=
  completeHeld (settleAcks (acksReleased (fenceMarked s g) g))
    (fun line => lineGroup (settleAcks (acksReleased (fenceMarked s g) g)) line == g)

theorem fenceGroup_of_unfenced {s : State} {g : Nat} (h : (groupOf s g).fenced = false) : fenceGroup s g =
    tallyAdd (raise (fenceSettled s g) 0x3303 (leBytes 1 g ++ leBytes 1 (erasedMask (fenceSettled s g) g))) 162 :=
  if_neg (by simp [h])

theorem fenceMarked_keeps (s : State) (g : Nat) :
    TalliesKept s (fenceMarked s g) ∧ (fenceMarked s g).sys.inForce = s.sys.inForce := by
  unfold fenceMarked
  dsimp only
  split <;> exact ⟨fun _ _ _ => rfl, rfl⟩

theorem fenceSettled_keeps (s : State) (g : Nat) :
    TalliesKept s (fenceSettled s g) ∧ (fenceSettled s g).sys.inForce = s.sys.inForce := by
  obtain ⟨htallies, hforce⟩ := fenceMarked_keeps s g
  have hreleased : Frame [.easel] (fenceMarked s g) (acksReleased (fenceMarked s g) g) := Frame.upd_easel (.refl _ _) rfl
  unfold fenceSettled
  generalize (fun line => lineGroup (settleAcks (acksReleased (fenceMarked s g) g)) line == g) = mine
  constructor
  · exact ((htallies.trans (hreleased.talliesKept (by decide))).trans (settleAcks_talliesKept _)).trans (completeHeld_talliesKept _ _)
  · rw [← hforce]
    exact congrArg Sys.inForce (((completeHeld_frame _ _).sys_eq (by decide)).trans
      (((settleAcks_frame _).sys_eq (by decide)).trans (hreleased.sys_eq (by decide))))

/-- The fence of a group counts in its own tally, and leaves the settings that wait for their moment. -/
theorem fenceGroup_keeps (s : State) (g : Nat) :
    TalliesKept s (fenceGroup s g) ∧ (fenceGroup s g).sys.inForce = s.sys.inForce := by
  cases h : (groupOf s g).fenced with
  | true =>
    rw [show fenceGroup s g = s from if_pos h]
    exact ⟨fun _ _ _ => rfl, rfl⟩
  | false =>
    obtain ⟨htallies, hforce⟩ := fenceSettled_keeps s g
    rw [fenceGroup_of_unfenced h]
    refine ⟨fun j hfull hj => ?_, ?_⟩
    · rw [tallyPending_tallyAdd, if_neg hj]
      exact htallies.trans (raise_talliesKept _ _ _) j hfull hj
    · rw [tallyAdd_sys, (raise_frame _ _ _).sys_eq (by decide), hforce]

theorem staleColumn_keeps (s : State) (g c : Nat) :
    TalliesKept s (staleColumn s g c) ∧ (staleColumn s g c).sys.inForce = s.sys.inForce := by
  unfold staleColumn
  split
  · exact fenceGroup_keeps s g
  · have hframe : Frame [.groups] s ((heldRegions (groupOf s g)).foldl (fun s p => modRegion s g p (fun r => { r with rb := true })) s) :=
      Frame.foldl (fun x p => modRegion_frame x g p _) (.refl _ s)
    exact ⟨(Frame.step (modGroup_frame _ _ _) hframe rfl).talliesKept (by decide),
      congrArg Sys.inForce ((Frame.step (modGroup_frame _ _ _) hframe rfl).sys_eq (by decide))⟩

theorem columnErased_keeps (s : State) (g c : Nat) :
    TalliesKept s (columnErased s g c) ∧ (columnErased s g c).sys.inForce = s.sys.inForce := by
  unfold columnErased
  split
  · exact ⟨fun _ _ _ => rfl, rfl⟩
  · split
    · exact staleColumn_keeps s g c
    · split
      · exact fenceGroup_keeps s g
      · exact ⟨fun _ _ _ => rfl, rfl⟩

/-! ### A channel marked failed (R253, R254) -/

/-- A failed channel: erased and parked, with its cause. -/
def failedRec (cause : Nat) (x : ChannelRec) : ChannelRec :=
  { x with failed := true, cause := cause, state := 3, parked := true, trained := false, temp := none, banks := [] }

/-- The failure of a channel, recorded and counted, before its column goes stale. -/
def failureRecorded (s : State) (ch cause : Nat) : State :=
  tallyAdd (raise (modChannel s ch (failedRec cause)) 0x2901 (leBytes 1 ch ++ leBytes 1 cause)) 159

theorem markFailed_of_failed {s : State} {ch : Nat} (h : (channelOf s ch).failed = true) (cause : Nat) : markFailed s ch cause = s :=
  if_pos h

section
variable {s : State} {ch : Nat} (h : (channelOf s ch).failed = false) (cause : Nat)
include h

theorem markFailed_eq : markFailed s ch cause = columnErased (failureRecorded s ch cause) (ch / 8) (ch % 8) :=
  if_neg (by simp [h])

theorem channelOf_markFailed (c : Nat) :
    channelOf (markFailed s ch cause) c = if c = ch then failedRec cause (channelOf s ch) else channelOf s c := by
  rw [markFailed_eq h, (columnErased_frame _ _ _).channelOf (by decide)]
  unfold failureRecorded
  rw [(tallyAdd_frame _ _).channelOf (by decide), (raise_frame _ _ _).channelOf (by decide), channelOf_modChannel]

theorem tally_markFailed : tabGet dNat (markFailed s ch cause).folio.tallyPending 159 =
    min (tabGet dNat s.folio.tallyPending 159 + 1) 65535 := by
  rw [markFailed_eq h, (columnErased_keeps _ _ _).1 159 (by decide) (by decide)]
  unfold failureRecorded
  rw [tallyPending_tallyAdd, if_pos rfl, raise_tallyPending (by decide)]
  rfl

end

theorem markFailed_inForce (s : State) (ch cause : Nat) : (markFailed s ch cause).sys.inForce = s.sys.inForce := by
  by_cases h : (channelOf s ch).failed = true
  · rw [markFailed_of_failed h]
  · rw [markFailed_eq (Bool.eq_false_of_not_eq_true h), (columnErased_keeps _ _ _).2]
    unfold failureRecorded
    rw [tallyAdd_sys, (raise_frame _ _ _).sys_eq (by decide)]
    rfl

end Sys2Proof.Machine
end

section
/-! The error window, the marking, the return and the mode register read of a channel (O28). -/
namespace Sys2Proof.Machine

/-! ### The error window (R253, R258) -/

/-- A pass over the first `n` units, each step of which changes its own unit alone, by a relation. -/
theorem foldl_range_rel {α β : Type} {get : α → Nat → β} {f : α → Nat → α} {R : β → β → Prop}
    (hown : ∀ x i, R (get x i) (get (f x i) i)) (hother : ∀ x i j, j ≠ i → get (f x i) j = get x j) (s : α) (n : Nat) :
    (∀ j, j < n → R (get s j) (get ((List.range n).foldl f s) j)) ∧ ∀ j, n ≤ j → get ((List.range n).foldl f s) j = get s j := by
  induction n with
  | zero => exact ⟨fun j hj => absurd hj (by omega), fun _ _ => rfl⟩
  | succ n ih =>
    obtain ⟨hpassed, hleft⟩ := ih
    rw [List.range_succ, List.foldl_append, List.foldl_cons, List.foldl_nil]
    refine ⟨fun j hj => ?_, fun j hj => (hother _ _ _ (by omega)).trans (hleft j (by omega))⟩
    by_cases hlast : j = n
    · rw [hlast, ← hleft n (le_refl n)]
      exact hown _ _
    · rw [hother _ _ _ hlast]
      exact hpassed j (by omega)

/-- The error count of a channel restarts. -/
def errorsCleared (s : State) (ch : Nat) : State :=
  modChannel s ch (fun x => { x with errors := 0 })

/-- One channel at the end of an error window (R253). -/
def windowStep (limit : Nat) (s : State) (ch : Nat) : State :=
  let x := channelOf s ch
  let s := errorsCleared s ch
  if x.failed ∨ x.parked ∨ x.errors < limit then s
  else if wouldFence s ch then raise s 0x2906 (leBytes 1 ch ++ satBytes 2 x.errors)
  else markFailed s ch 4

theorem exec_channelErrorWindow (s : State) : exec .channelErrorWindow s =
    .next ((List.range 64).foldl (windowStep (forceN s 0x2900 5)) (takeForce s 0x2900 5)) := rfl

/-- What the end of a window makes of a channel: its count restarts, and it fails only at the limit. -/
def WindowJudged (limit : Nat) (x y : ChannelRec) : Prop :=
  y.errors = 0 ∧ (x.failed = false → y.failed = true → limit ≤ x.errors ∧ y.cause = 4 ∧ y.parked = true)

theorem channelOf_errorsCleared (s : State) (ch c : Nat) :
    channelOf (errorsCleared s ch) c = if c = ch then { channelOf s ch with errors := 0 } else channelOf s c :=
  channelOf_modChannel s ch c _

theorem windowStep_judges (limit : Nat) (s : State) (ch : Nat) :
    WindowJudged limit (channelOf s ch) (channelOf (windowStep limit s ch) ch) := by
  have hcleared : channelOf (errorsCleared s ch) ch = { channelOf s ch with errors := 0 } := by
    rw [channelOf_errorsCleared, if_pos rfl]
  unfold windowStep
  dsimp only
  split
  case isTrue =>
    rw [hcleared]
    exact ⟨rfl, fun hno hyes => absurd (hno.symm.trans hyes) (by decide)⟩
  case isFalse hlimit =>
    split
    · rw [(raise_frame _ _ _).channelOf (by decide), hcleared]
      exact ⟨rfl, fun hno hyes => absurd (hno.symm.trans hyes) (by decide)⟩
    · have hfailed : (channelOf (errorsCleared s ch) ch).failed = false := by
        rw [hcleared]
        exact Bool.eq_false_of_not_eq_true fun h => hlimit (.inl h)
      rw [channelOf_markFailed hfailed, if_pos rfl, hcleared]
      exact ⟨rfl, fun _ _ => ⟨by omega, rfl, rfl⟩⟩

theorem windowStep_other (limit : Nat) (s : State) (ch c : Nat) (hne : c ≠ ch) :
    channelOf (windowStep limit s ch) c = channelOf s c := by
  have hcleared : channelOf (errorsCleared s ch) c = channelOf s c := by rw [channelOf_errorsCleared, if_neg hne]
  unfold windowStep
  dsimp only
  split
  · exact hcleared
  · split
    · rw [(raise_frame _ _ _).channelOf (by decide), hcleared]
    · by_cases hfailed : (channelOf (errorsCleared s ch) ch).failed = true
      · rw [markFailed_of_failed hfailed, hcleared]
      · rw [channelOf_markFailed (Bool.eq_false_of_not_eq_true hfailed), if_neg hne, hcleared]

theorem windowStep_inForce (limit : Nat) (s : State) (ch : Nat) : (windowStep limit s ch).sys.inForce = s.sys.inForce := by
  unfold windowStep
  dsimp only
  split
  · rfl
  · split
    · rw [(raise_frame _ _ _).sys_eq (by decide)]
      rfl
    · rw [markFailed_inForce]
      rfl

theorem forceN_channelErrorWindow {s t : State} (ht : exec .channelErrorWindow s = .next t) :
    forceN t 0x2900 5 = settingN s 0x2900 5 := by
  obtain ⟨u, hu, hframe⟩ := execChannelErrorWindow_frame s
  obtain rfl : u = t := Host.Outcome.next.inj (hu.symm.trans ht)
  have hforce : u.sys.inForce = (takeForce s 0x2900 5).sys.inForce := by
    rw [← Host.Outcome.next.inj ((exec_channelErrorWindow s).symm.trans ht)]
    exact List.foldlRecOn (motive := fun x : State => x.sys.inForce = (takeForce s 0x2900 5).sys.inForce) _ _ rfl
      fun x hx ch _ => (windowStep_inForce _ x ch).trans hx
  unfold forceN
  rw [hforce, settingN_congr (hframe.settings_eq (by decide))]
  unfold takeForce
  rw [tabGet_set_self]
  rfl

theorem completes_channelErrorWindow :
    Completes .channelErrorWindow
      [.sys, .mgmt, .folio, .ledger, .ports, .channels, .groups, .easel, .palette, .directory, .queues, .barrow, .perf, .stats, .out]
      (fun _ => True) (fun s t => forceN t 0x2900 5 = settingN s 0x2900 5 ∧
        ∀ ch, ch < 64 → WindowJudged (forceN s 0x2900 5) (channelOf s ch) (channelOf t ch)) := by
  intro s _
  obtain ⟨t, ht, hframe⟩ := execChannelErrorWindow_frame s
  refine ⟨t, ht, hframe.mono rfl, forceN_channelErrorWindow ht, ?_⟩
  rw [← Host.Outcome.next.inj ((exec_channelErrorWindow s).symm.trans ht)]
  exact (foldl_range_rel (windowStep_judges _) (windowStep_other _) (takeForce s 0x2900 5) 64).1

/-- Below its limit a channel's window only restarts its count. -/
theorem windowStep_below {limit : Nat} {s : State} {ch : Nat}
    (h : (channelOf s ch).failed = true ∨ (channelOf s ch).errors < limit) : windowStep limit s ch = errorsCleared s ch :=
  if_pos (h.imp_right .inr)

theorem channelOf_foldl_errorsCleared (s : State) (n c : Nat) :
    channelOf ((List.range n).foldl errorsCleared s) c = if c < n then { channelOf s c with errors := 0 } else channelOf s c := by
  rw [foldl_range_get (get := channelOf) (Inv := fun _ => True) (base := 0) (F := fun _ x => { x with errors := 0 }) (fun _ _ h => h)
    (fun x i _ j => by rw [channelOf_errorsCleared, Nat.zero_add]; split <;> simp_all) trivial]
  simp only [Nat.zero_le, true_and, Nat.zero_add]

theorem foldl_windowStep_below {limit : Nat} {s : State}
    (h : ∀ ch, ch < 64 → (channelOf s ch).failed = true ∨ (channelOf s ch).errors < limit) {n : Nat} (hn : n ≤ 64) :
    (List.range n).foldl (windowStep limit) s = (List.range n).foldl errorsCleared s := by
  induction n with
  | zero => rfl
  | succ n ih =>
    rw [List.range_succ, List.foldl_append, List.foldl_append, ih (by omega)]
    refine windowStep_below ?_
    rw [channelOf_foldl_errorsCleared, if_neg (by omega)]
    exact h n (by omega)

theorem completes_channelErrorWindow_below :
    Completes .channelErrorWindow [.sys, .channels]
      (fun s => ∀ ch, ch < 64 → (channelOf s ch).failed = true ∨ (channelOf s ch).errors < forceN s 0x2900 5)
      (fun s t => ∀ ch, channelOf t ch = if ch < 64 then { channelOf s ch with errors := 0 } else channelOf s ch) := by
  intro s hs
  refine ⟨(List.range 64).foldl errorsCleared (takeForce s 0x2900 5), ?_, ?_, channelOf_foldl_errorsCleared _ 64⟩
  · rw [exec_channelErrorWindow, foldl_windowStep_below (s := takeForce s 0x2900 5) hs (le_refl 64)]
  · exact Frame.foldl (fun x ch => (modChannel_frame x ch _).mono rfl) ((takeForce_frame s _ _).mono rfl)

/-! ### Marking a channel failed (R253, R255) -/

theorem writeFits_markChannel : ∀ b : Byte, b.toNat < 64 → writeFits .maintainer 0x2900 8 [b] = true := by decide +kernel

section
variable {channel : Byte} (via : Via) (hchannel : channel.toNat < 64)
include hchannel

theorem serves_markChannelFailed :
    Serves (.markChannelFailed via channel) via .maintainer
      [.sys, .mgmt, .folio, .ledger, .ports, .channels, .groups, .easel, .palette, .directory, .queues, .barrow, .perf, .stats, .out]
      (fun _ s => (channelOf s channel.toNat).failed = false ∧ wouldFence s channel.toNat = false)
      (fun _ s t => (channelOf t channel.toNat).failed = true ∧ (channelOf t channel.toNat).cause = 6 ∧
        (channelOf t channel.toNat).parked = true ∧ (channelOf t channel.toNat).state = 3 ∧ ChannelsKept channel.toNat s t ∧
        tabGet dNat t.folio.tallyPending 159 = min (tabGet dNat s.folio.tallyPending 159 + 1) 65535) := by
  refine serves_of_effect (fun _ => rfl) (writeFits_markChannel channel hchannel) fun _ s hs => ?_
  obtain ⟨hfailed, hfence⟩ := hs
  refine ⟨markFailed s channel.toNat 6, ?_, (markFailed_frame s _ _).mono rfl, ?_⟩
  · simp [markChannel, hfailed, hfence]
  · have hchannels := channelOf_markFailed hfailed 6
    rw [hchannels, if_pos rfl]
    exact ⟨rfl, rfl, rfl, rfl, fun d hd => (hchannels d).trans (if_neg hd), tally_markFailed hfailed 6⟩

theorem rejects_markChannelFailed_failed :
    Rejects (.markChannelFailed via channel) via .maintainer 0x2903 0x2900 8
      (fun _ s => (channelOf s channel.toNat).failed = true) :=
  rejects_of_effect (fun _ => rfl) (writeFits_markChannel channel hchannel) fun _ _ hs => if_pos hs

theorem rejects_markChannelFailed_fence :
    Rejects (.markChannelFailed via channel) via .maintainer 0x2904 0x2900 8
      (fun _ s => (channelOf s channel.toNat).failed = false ∧ wouldFence s channel.toNat = true) :=
  rejects_of_effect (fun _ => rfl) (writeFits_markChannel channel hchannel) fun _ _ hs => by simp [markChannel, hs.1, hs.2]

end

/-! ### The return of a channel (R255) -/

theorem writeFits_returnChannel : ∀ b : Byte, b.toNat < 64 → writeFits .maintainer 0x2900 9 [b] = true := by decide +kernel

/-- A table cut to the keys of a kind reads as its default elsewhere. -/
theorem tabGet_filter_of_not {α : Type} {d : Nat → α} (p : Nat → Bool) {k : Nat} (hk : p k = false) (t : Tab α) :
    tabGet d (t.filter (fun e => p e.1)) k = d k := by
  induction t with
  | nil => rfl
  | cons e t ih =>
    obtain ⟨j, v⟩ := e
    rw [List.filter_cons]
    split
    case isTrue hj =>
      have hne : k ≠ j := by rintro rfl; simp [hk] at hj
      simp only [tabGet, hne, if_false, ih]
    case isFalse => exact ih

/-- A channel that is returned leaves its stack's reset, to be trained in full (R247, R255). -/
def returnedRec (x : ChannelRec) : ChannelRec :=
  { x with
    regs := x.regs.filter (fun e => e.1 < 3), banks := [], training := none, loopback := 0, stopped := false, powerDown := false,
    erased := [], reissues := [], trained := false, alert := false, zqTemp := none, returning := true, state := 6, parked := false }

/-- The return of a channel begins (R255). -/
def returnBegun (s : State) (ch : Nat) : State :=
  modChannel (stackReset s ch) ch (fun x => { x with returning := true, state := 6, parked := false })

theorem channelOf_returnBegun (s : State) (ch c : Nat) :
    channelOf (returnBegun s ch) c = if c = ch then returnedRec (channelOf s ch) else channelOf s c := by
  unfold returnBegun stackReset
  rw [channelOf_modChannel, channelOf_modChannel_self, channelOf_modChannel]
  split <;> rfl

section
variable {channel : Byte} (via : Via) (hchannel : channel.toNat < 64)
include hchannel

theorem serves_returnChannel :
    Serves (.returnChannel via channel) via .maintainer [.channels]
      (fun _ s => (channelOf s channel.toNat).failed = true ∧ (domainOf s (channel.toNat % 8)).phase = .good ∧
        returnInProgress s = false ∧ ∀ k, k < 8 → (domainOf s k).restarting = false)
      (fun _ s t => (channelOf t channel.toNat).returning = true ∧ (channelOf t channel.toNat).state = 6 ∧
        (channelOf t channel.toNat).failed = true ∧ (channelOf t channel.toNat).parked = false ∧
        (∀ r, 3 ≤ r → modeReg t channel.toNat r = dMode r) ∧ ChannelsKept channel.toNat s t) := by
  refine serves_of_effect (fun _ => rfl) (writeFits_returnChannel channel hchannel) fun _ s hs => ?_
  obtain ⟨hfailed, hgood, hnone, hrestarting⟩ := hs
  have hrestarts : (List.range 8).any (fun k => (domainOf s k).restarting) = false := by simpa using hrestarting
  refine ⟨returnBegun s channel.toNat, ?_, Frame.step (modChannel_frame _ _ _) (modChannel_frame s _ _) rfl, ?_⟩
  · simp only [returnChannel, hfailed, hgood, hnone, hrestarts]
    rfl
  · have hreturned : channelOf (returnBegun s channel.toNat) channel.toNat = returnedRec (channelOf s channel.toNat) := by
      rw [channelOf_returnBegun, if_pos rfl]
    refine ⟨by rw [hreturned]; rfl, by rw [hreturned]; rfl, by rw [hreturned]; exact hfailed, by rw [hreturned]; rfl, fun r hr => ?_,
      fun d hd => by rw [channelOf_returnBegun, if_neg hd]⟩
    unfold modeReg
    rw [hreturned]
    exact tabGet_filter_of_not (fun k => decide (k < 3)) (by simpa using hr) _

theorem rejects_returnChannel_serving :
    Rejects (.returnChannel via channel) via .maintainer 0x2903 0x2900 9
      (fun _ s => (channelOf s channel.toNat).failed = false) :=
  rejects_of_effect (fun _ => rfl) (writeFits_returnChannel channel hchannel) fun _ _ hs => if_pos hs

theorem rejects_returnChannel_unpowered :
    Rejects (.returnChannel via channel) via .maintainer 0x2905 0x2900 9
      (fun _ s => (channelOf s channel.toNat).failed = true ∧ (domainOf s (channel.toNat % 8)).phase ≠ .good) :=
  rejects_of_effect (fun _ => rfl) (writeFits_returnChannel channel hchannel) fun _ _ hs => by simp [returnChannel, hs.1, hs.2]

theorem rejects_returnChannel_busy :
    Rejects (.returnChannel via channel) via .maintainer 0x2906 0x2900 9
      (fun _ s => (channelOf s channel.toNat).failed = true ∧ (domainOf s (channel.toNat % 8)).phase = .good ∧
        returnInProgress s = true) :=
  rejects_of_effect (fun _ => rfl) (writeFits_returnChannel channel hchannel) fun _ _ hs => by
    simp [returnChannel, hs.1, hs.2.1, hs.2.2]

end

/-! ### Mode register reads on request (R258) -/

theorem writeFits_mrRead : ∀ b : Byte, b.toNat < 15 → writeFits .operator 0x2920 2 [b] = true := by decide +kernel

/-- The register is noted, and FaultStatus is cleared by its read (R247, R258). -/
def registerNoted (s : State) (r : Nat) : State :=
  if r = 0x0D then setModeReg (setSetting s 0x2920 2 r) (settingN s 0x2920 1) 0x0D 0 else setSetting s 0x2920 2 r

theorem registerNoted_settings (s : State) (r : Nat) : (registerNoted s r).settings = (setSetting s 0x2920 2 r).settings := by
  unfold registerNoted
  split <;> rfl

section
variable {register : Byte} (via : Via) (temperature : Byte) (hregister : register.toNat < 15)
include hregister

theorem serves_mrRead :
    Serves (.mrRead via register temperature true) via .operator [.channels, .settings, .stats]
      (fun _ s => (channelOf s (settingN s 0x2920 1)).state = 2)
      (fun _ s t => settingN t 0x2920 2 = register.toNat ∧ SettingsKept 0x2920 2 s t ∧
        stat t 0x2920 3 = mrrValue s (settingN s 0x2920 1) register.toNat temperature) := by
  refine serves_of_effect (fun _ => rfl) (writeFits_mrRead register hregister) fun _ s hs => ?_
  have heffect : mrRead s register.toNat temperature true =
      .ok (setStat (registerNoted s register.toNat) 0x2920 3 (mrrValue s (settingN s 0x2920 1) register.toNat temperature)) :=
    if_neg (not_not_intro hs)
  have hsettings := registerNoted_settings s register.toNat
  refine ⟨_, heffect, mrRead_frame s _ _ _ _ heffect, ?_, settingsKept_of_setSetting (by decide) hsettings, stat_setStat_self _ _ _ _⟩
  rw [settingN_congr (setStat_settings _ _ _ _)]
  unfold settingN
  rw [setting_of_setSetting hsettings, Int.toNat_natCast]

theorem rejects_mrRead :
    Rejects (.mrRead via register temperature true) via .operator 0x2905 0x2920 2
      (fun _ s => (channelOf s (settingN s 0x2920 1)).state ≠ 2) :=
  rejects_of_effect (fun _ => rfl) (writeFits_mrRead register hregister) fun _ _ hs => if_pos hs

end

theorem mrrValue_eq (s : State) (ch : Nat) (register temperature : Byte) :
    mrrValue s ch register.toNat temperature = if register = 3 then temperature.toNat else modeReg s ch register.toNat := by
  have hthree : register.toNat = 3 ↔ register = 3 := BitVec.toNat_inj (y := (3 : Byte))
  unfold mrrValue
  exact if_congr hthree rfl rfl

/-- Settles O28: the window channel by channel (`windowStep`), and each request by its effect. -/
theorem channelService : Obligations.ChannelService := by
  unfold Obligations.ChannelService
  refine ⟨completes_channelErrorWindow, completes_channelErrorWindow_below, fun via channel hchannel => ?_,
    fun via register temperature hregister => ⟨?_, rejects_mrRead via temperature hregister⟩⟩
  · exact ⟨serves_markChannelFailed via hchannel, rejects_markChannelFailed_failed via hchannel,
      rejects_markChannelFailed_fence via hchannel, serves_returnChannel via hchannel, rejects_returnChannel_serving via hchannel,
      rejects_returnChannel_unpowered via hchannel, rejects_returnChannel_busy via hchannel⟩
  · have h := serves_mrRead via temperature hregister
    simp only [mrrValue_eq] at h
    exact_mod_cast h

end Sys2Proof.Machine
end

section
/-! The start's self-test (O20): a group whose path test fails is fenced, and the fence completes the writes that ports hold for it
(R370, R31). The statement names neither ports nor palette among the units that the self-test may change. -/
namespace Sys2Proof.Machine

/-- A write to line 0, which lies in group 0. -/
def writeOfLine0 : WriteReq := { line := 0, who := .host 0 7, port := 0, mask := BitVec.allOnes 64, data := 0#512 }

/-- A device at the self-test of its start. Group 0 has one free region for its path test, and port 0 holds a write to it. -/
def selfTestBesideHeld : State :=
  { sys := { dev := .priming, step := 9 }
    groups := [(0, { free := [5] })]
    ports := [(0, { held := [writeOfLine0] })] }

/-- The state meets the hypotheses of the clause of O20 on the self-test. -/
theorem selfTestBesideHeld_due :
    selfTestBesideHeld.sys.dev = .priming ∧ selfTestBesideHeld.sys.step = 9 ∧ selfTestBesideHeld.power.stopStep = none ∧
      selfTestBesideHeld.sys.coreLost = false := by
  decide +kernel

/-- No test of bits 0 to 6 fails. -/
theorem selfTestBesideHeld_passes : (selfTest selfTestBesideHeld (256 : BitVec 16).toNat true).sys.selfTest % 128 = 0 := by
  decide +kernel

/-- Where the path test of group 0 fails, its fence takes the held write off port 0. -/
theorem selfTestBesideHeld_released : (portOf (selfTest selfTestBesideHeld (256 : BitVec 16).toNat true) 0).held = [] := by
  decide +kernel

theorem exec_selfTest {s : State} (hdue : s.sys.dev = .priming ∧ s.sys.step = 9 ∧ s.power.stopStep = none ∧ s.sys.coreLost = false)
    {results : BitVec 16} (hpass : (selfTest s results.toNat true).sys.selfTest % 128 = 0) :
    exec (.selfTest results) s = .next (beginStep (selfTest s results.toNat true) 10) :=
  (if_pos hdue).trans (if_pos hpass)

/-- Refutes O20 in its clause on the self-test: where the path test of group 0 fails, the group is fenced (R370), and the fence
completes the write that port 0 holds for it (R31); the statement keeps every port as it was. -/
theorem not_startSequence : ¬ Obligations.StartSequence := by
  rintro ⟨-, -, -, -, -, -, -, -, htest, -⟩
  obtain ⟨t, hexec, hframe, -⟩ := htest 256 rfl selfTestBesideHeld selfTestBesideHeld_due
  obtain rfl : beginStep (selfTest selfTestBesideHeld (256 : BitVec 16).toNat true) 10 = t :=
    Host.Outcome.next.inj ((exec_selfTest selfTestBesideHeld_due selfTestBesideHeld_passes).symm.trans hexec)
  have hports : (selfTest selfTestBesideHeld (256 : BitVec 16).toNat true).ports = selfTestBesideHeld.ports :=
    ((beginStep_frame _ _).ports_eq (by decide)).symm.trans (hframe.ports_eq (by decide))
  have hheld := selfTestBesideHeld_released
  unfold portOf at hheld
  rw [hports] at hheld
  exact List.cons_ne_nil _ _ hheld

end Sys2Proof.Machine
end

section
/-! What the remap of a failed program leaves alone (R74, R83, R243): the banks of the stacks, and the count of failed programs
[2917]. -/
namespace Sys2Proof.Machine

/-- Every bank and every count of failed programs ([2917]) is as before. -/
structure FailureLeaves (s t : State) : Prop where
  fails : IndexStatsKept 0x2917 s t
  banks : ∀ c k, bankOf t c k = bankOf s c k

theorem FailureLeaves.refl (s : State) : FailureLeaves s s := ⟨fun _ _ => rfl, fun _ _ => rfl⟩

theorem FailureLeaves.trans {s t r : State} (h : FailureLeaves s t) (k : FailureLeaves t r) : FailureLeaves s r :=
  ⟨h.fails.trans k.fails, fun c b => (k.banks c b).trans (h.banks c b)⟩

/-- The last of several steps, and those before it. -/
theorem FailureLeaves.after {s t r : State} (k : FailureLeaves t r) (h : FailureLeaves s t) : FailureLeaves s r := h.trans k

theorem FailureLeaves.ite {s x y : State} {p : Prop} [Decidable p] (hx : FailureLeaves s x) (hy : FailureLeaves s y) :
    FailureLeaves s (if p then x else y) := by
  split
  · exact hx
  · exact hy

theorem Frame.bankOf {U : List UnitName} {s t : State} (h : Frame U s t) (hu : .channels ∉ U) (c k : Nat) :
    bankOf t c k = bankOf s c k := by
  unfold Machine.bankOf
  rw [h.channelOf hu]

theorem Frame.failureLeaves {U : List UnitName} {s t : State} (h : Frame U s t) (hchannels : .channels ∉ U) (hstats : .stats ∉ U) :
    FailureLeaves s t :=
  ⟨h.indexStatsKept hstats _, h.bankOf hchannels⟩

/-- A step that leaves the channels leaves what a failure leaves, if it counts elsewhere. -/
theorem Frame.failureLeaves_of_stats {U : List UnitName} {s t : State} (h : Frame U s t) (hchannels : .channels ∉ U)
    (hstats : IndexStatsKept 0x2917 s t) : FailureLeaves s t :=
  ⟨hstats, h.bankOf hchannels⟩

theorem FailureLeaves.foldl {α : Type} {f : State → α → State} {l : List α} (hf : ∀ s, ∀ a ∈ l, FailureLeaves s (f s a)) (s : State) :
    FailureLeaves s (l.foldl f s) :=
  List.foldlRecOn (motive := fun t => FailureLeaves s t) l f (.refl s) fun _ hx a ha => hx.trans (hf _ a ha)

theorem bump_failureLeaves (s : State) {idx sub : Nat} (hidx : idx ≠ 0x2917) (hsub : sub < 256) (n : Nat) :
    FailureLeaves s (bump s idx sub n) :=
  (bump_frame s _ _ _).failureLeaves_of_stats (by decide) (bump_indexStatsKept s hidx hsub n)

theorem perfCount_failureLeaves (s : State) (b e k : Nat) : FailureLeaves s (perfCount s b e k) :=
  (perfCount_frame s b e k).failureLeaves (by decide) (by decide)

theorem raise_failureLeaves (s : State) (code : Nat) (data : List Byte) : FailureLeaves s (raise s code data) :=
  (raise_frame s code data).failureLeaves_of_stats (by decide) (raise_indexStatsKept (by decide) s code data)

theorem modGroup_failureLeaves (s : State) (g : Nat) (f : GroupRec → GroupRec) : FailureLeaves s (modGroup s g f) :=
  (modGroup_frame s g f).failureLeaves (by decide) (by decide)

theorem modChannel_failureLeaves (s : State) (ch : Nat) {f : ChannelRec → ChannelRec} (hf : ∀ x, (f x).banks = x.banks) :
    FailureLeaves s (modChannel s ch f) :=
  ⟨(modChannel_frame s ch f).indexStatsKept (by decide) _, bankOf_modChannel s ch f hf⟩

/-! ### A write to the Palette (R141, R144) -/

theorem palDefer_failureLeaves (s : State) (cls k : Nat) : FailureLeaves s (palDefer s cls k) :=
  (palDefer_frame s cls k).failureLeaves (by decide) (by decide)

theorem setMiss_failureLeaves (s : State) (n : Nat) (m : Option MissReg) : FailureLeaves s (setMiss s n m) :=
  (setMiss_frame s n m).failureLeaves (by decide) (by decide)

theorem palSelectSome_failureLeaves (s : State) (w : Option Nat) : FailureLeaves s (palSelectSome s w) :=
  (palSelectSome_frame s w).failureLeaves (by decide) (by decide)

theorem palMiss_failureLeaves (s : State) (cls k : Nat) : FailureLeaves s (palMiss s cls k) := by
  have hfull : FailureLeaves s (palDefer (bump s 0x2510 4 1) cls k) :=
    .after (palDefer_failureLeaves _ _ _) (bump_failureLeaves s (by decide) (by decide) 1)
  unfold palMiss
  split
  · split
    · exact .ite (.after (bump_failureLeaves _ (by decide) (by decide) 1) (setMiss_failureLeaves _ _ _)) hfull
    · exact .refl s
  · split
    · exact hfull
    · split
      · exact setMiss_failureLeaves _ _ _
      · exact .after (palDefer_failureLeaves _ _ _) (palSelectSome_failureLeaves _ _)

theorem palPush_failureLeaves (s : State) (u : PalUpdate) : FailureLeaves s (palPush s u) := by
  unfold palPush
  exact .ite (.refl s) (.ite (.ite (.refl s) (palMiss_failureLeaves s _ _))
    (.ite (palSelectSome_failureLeaves s _) (palSelectSome_failureLeaves s _)))

theorem palTry_failureLeaves {s t : State} {u : PalUpdate} (h : palTry s u = some t) : FailureLeaves s t := by
  have hframe : Frame [.reserve, .palette] s t := Frame.ofO (palTry_frame s u) h (.refl _ s) rfl
  exact hframe.failureLeaves (by decide) (by decide)

theorem palApply_failureLeaves (s : State) (u : PalUpdate) : FailureLeaves s (palApply s u) := by
  have hwait (x : State) : FailureLeaves x { x with palette := { x.palette with updates := x.palette.updates ++ [u] } } :=
    (Frame.upd_palette (U := [.palette]) (.refl _ x) rfl).failureLeaves (by decide) (by decide)
  unfold palApply
  dsimp only
  refine .ite (hwait s) ?_
  split
  · next t ht => exact palTry_failureLeaves ht
  · exact .after (hwait _) (palPush_failureLeaves s u)

theorem palPut_failureLeaves (s : State) (cls : Nat) (t : TileId) (data : Option Line) (fna : Bool) :
    FailureLeaves s (palPut s cls t data fna) := by
  have hbump (x : State) {sub : Nat} (hsub : sub < 256) := bump_failureLeaves x (idx := 0x2510) (by decide) hsub 1
  unfold palPut
  extract_lets key looked hit held
  have hlooked : FailureLeaves s looked := .after (perfCount_failureLeaves _ _ _ _) (hbump s (by decide))
  have hhit : FailureLeaves looked hit := by
    unfold hit
    split
    · exact .after ((palTouch_frame _ _).failureLeaves (by decide) (by decide))
        (.after (perfCount_failureLeaves _ _ _ _) (hbump _ (by decide)))
    · exact .refl _
  exact .after (palApply_failureLeaves _ _) (.ite (.after (hbump _ (by decide)) (hlooked.trans hhit)) (hlooked.trans hhit))

/-! ### A tile read from the medium (R49, R54, R56) -/

theorem bumpCodec_failureLeaves (s : State) {g sub : Nat} (hg : g < 8) (hsub : sub < 256) (n : Nat) :
    FailureLeaves s (bumpCodec s g sub n) :=
  (bump_failureLeaves s (by decide) hsub n).trans (bump_failureLeaves _ (by omega) hsub n)

theorem maxStat_failureLeaves (s : State) {idx sub : Nat} (hidx : idx ≠ 0x2917) (hsub : sub < 256) (v : Int) :
    FailureLeaves s (maxStat s idx sub v) := by
  refine (maxStat_frame s idx sub v).failureLeaves_of_stats (by decide) fun i hi => ?_
  unfold maxStat
  split
  · rw [stat_setStat, if_neg (by unfold objKey; omega)]
  · rfl

/-- A decode counts in the codec's counters of the device and of the group, and by column. -/
theorem countDecode_failureLeaves (s : State) {g : Nat} (hg : g < 8) (erased : List Nat) (r : DecodeResult) (t : TileId) :
    FailureLeaves s (countDecode s g erased r t) := by
  have hcodec (x : State) (sub : Nat) (hsub : sub < 256) (n : Nat) := bumpCodec_failureLeaves x hg hsub n
  unfold countDecode
  extract_lets decoded counted
  have hcounted : FailureLeaves s counted := by
    refine .after ?_ (hcodec s 1 (by decide) 1)
    unfold counted
    split <;> exact perfCount_failureLeaves _ _ _ _
  split
  · exact hcounted
  · next symbols errors clean =>
    extract_lets sorted n summed longest spread
    have hsorted : FailureLeaves s sorted :=
      .ite (.after (hcodec _ 2 (by decide) 1) hcounted) (.ite (.after (hcodec _ 3 (by decide) 1) hcounted) hcounted)
    have hlongest : FailureLeaves s longest :=
      .after (maxStat_failureLeaves _ (by omega) (by decide) _) (.after (maxStat_failureLeaves _ (by decide) (by decide) _)
        (.after (hcodec _ 4 (by decide) _) hsorted))
    have hspread : FailureLeaves s spread :=
      .after (FailureLeaves.foldl (fun _ _ _ => bump_failureLeaves _ (by decide) (by omega) 1) _) hlongest
    split
    · split
      · exact .after (hcodec _ 0x0C (by decide) 1) hspread
      · exact hspread
    · split
      · exact .after (hcodec _ 0x0C (by decide) 1) hspread
      · exact hspread
    · exact .after (hcodec _ 8 (by decide) 1) hsorted
    · exact hsorted

theorem countReads_failureLeaves (s : State) {pl : Place} (hg : pl.group < 8) (n : Nat) : FailureLeaves s (countReads s pl n) :=
  FailureLeaves.foldl (fun _ c hc => by
    have hc : c < 8 := List.mem_range.mp (List.mem_filter.mp hc).1
    exact bump_failureLeaves _ (by decide) (by omega) n) s

theorem readTile_failureLeaves (s : State) (t : TileId) {pl : Place} (hg : pl.group < 8) (err : Codeword) (xfer : List Nat) :
    FailureLeaves s (readTile s t pl err xfer).1 :=
  (countReads_failureLeaves s hg 1).trans (countDecode_failureLeaves _ hg _ _ _)

theorem takeErased_failureLeaves (s : State) (g : Nat) (addrs : List Nat) : FailureLeaves s (takeErased s g addrs).1 := by
  have hcolumn (r : State × List Nat) (c : Nat) : FailureLeaves r.1 (takeColumn g addrs r c).1 := by
    unfold takeColumn
    dsimp only
    split
    · exact modChannel_failureLeaves _ _ fun _ => rfl
    · exact .refl _
  rw [takeErased_eq_foldl]
  exact List.foldlRecOn (motive := fun r : State × List Nat => FailureLeaves s r.1) (List.range 8) _ (.refl s) fun r hr c _ =>
    hr.trans (hcolumn r c)

theorem readMeta_failureLeaves (s : State) {t : TileId} (hg : ∀ pl, placeOf s t = some pl → pl.group < 8) :
    FailureLeaves s (readMeta s t).1 := by
  unfold readMeta
  split
  · next pl hpl =>
    have hread := FailureLeaves.after (readTile_failureLeaves (takeErased s pl.group pl.addrs).1 t (hg pl hpl) 0
      (takeErased s pl.group pl.addrs).2) (takeErased_failureLeaves s _ _)
    dsimp only
    split
    · dsimp only
      exact hread
    · dsimp only
      exact hread
  · exact .refl s

/-! ### The remap of a patch (R80, R82, R83) -/

/-- A journal record counts in its queue alone. -/
theorem jqPush_indexStatsKept {idx g : Nat} (hidx : queueIdx g ≠ idx) (s : State) (units : List Nat) :
    IndexStatsKept idx s (jqPush s g units) := by
  have hcounted (x : State) : IndexStatsKept idx x (perfCount x 12 0x0C 1) := (perfCount_frame x _ _ _).indexStatsKept (by decide) idx
  unfold jqPush
  refine .trans (.trans ?_ (hcounted _)) (pushPacket_indexStatsKept hidx _ _)
  split
  · exact (modGroup_frame s g _).indexStatsKept (by decide) idx
  · exact fun _ _ => rfl

theorem jqPush_failureLeaves (s : State) {g : Nat} (hg : g < 8) (units : List Nat) : FailureLeaves s (jqPush s g units) :=
  (jqPush_frame s g units).failureLeaves_of_stats (by decide) (jqPush_indexStatsKept (by unfold queueIdx; omega) s units)

theorem group_of_placeOf_remap {s : State} {g p k : Nat} {pl : Place} (h : placeOf s (.remap g p k) = some pl) : pl.group = g := by
  unfold placeOf at h
  rw [← Option.some.inj h]

theorem remapBase_failureLeaves (s : State) {g : Nat} (hg : g < 8) (p k : Nat) : FailureLeaves s (remapBase s g p k).1 := by
  unfold remapBase
  split
  · exact .refl s
  · have hread := readMeta_failureLeaves s (t := .remap g p k) fun pl hpl => (group_of_placeOf_remap hpl).symm ▸ hg
    dsimp only
    exact hread

theorem storePatch_failureLeaves (s : State) (ch addr : Nat) (v : Patch) : FailureLeaves s (storePatch s ch addr v) :=
  (storePatch_frame s ch addr v).failureLeaves (by decide) (by decide)

theorem undefinePatch_failureLeaves (s : State) (ch addr : Nat) : FailureLeaves s (undefinePatch s ch addr) :=
  (undefinePatch_frame s ch addr).failureLeaves (by decide) (by decide)

theorem takeSpare_failureLeaves (s : State) (g c : Nat) : FailureLeaves s (takeSpare s g c) := by
  unfold takeSpare
  extract_lets n taken pool near
  have htaken : FailureLeaves s taken := modGroup_failureLeaves s g _
  have hnear : FailureLeaves s near := .ite (.after (raise_failureLeaves _ _ _) htaken) htaken
  exact .ite (.after (raise_failureLeaves _ _ _) hnear) hnear

theorem retireRegion_failureLeaves (s : State) (g p slot c : Nat) : FailureLeaves s (retireRegion s g p slot c) := by
  unfold retireRegion
  exact .ite (raise_failureLeaves s _ _) (.ite (.refl s) (modGroup_failureLeaves s g _))

section
variable {g : Nat} (hg : g < 8) {c : Nat} (hc : c < 8)
include hg

theorem spareFailed_failureLeaves (s : State) (p c : Nat) : FailureLeaves s (spareFailed s g p c) := by
  unfold spareFailed
  exact jqPush_failureLeaves s hg _

theorem spareProgramFailed_failureLeaves (s : State) (c : Nat) (j : RemapJob) : FailureLeaves s (spareProgramFailed s g c j) := by
  have hspare := spareFailed_failureLeaves hg s j.region c
  unfold spareProgramFailed
  exact .ite (.after (retireRegion_failureLeaves _ _ _ _ _) (.after (modGroup_failureLeaves _ _ _) hspare))
    (.after (modGroup_failureLeaves _ _ _) (.after (takeSpare_failureLeaves _ _ _) hspare))

include hc

theorem remapCommit_failureLeaves (s : State) (p slot spare : Nat) (patch : Patch) :
    FailureLeaves s (remapCommit s g p slot c spare patch) := by
  unfold remapCommit
  dsimp only
  refine .after (raise_failureLeaves _ _ _) (.after (palSelectSome_failureLeaves _ _) ?_)
  refine .after ((modRegion_frame _ _ _ _).failureLeaves (by decide) (by decide)) (.after (palPut_failureLeaves _ _ _ _ _) ?_)
  refine .after (remapBase_failureLeaves _ hg _ _) (.after (jqPush_failureLeaves _ hg _) ?_)
  refine .after ((filterMark_frame _ _ _ _).failureLeaves (by decide) (by decide)) ?_
  exact .after (bump_failureLeaves _ (by decide) (by omega) 1) (storePatch_failureLeaves s _ _ _)

theorem remapNow_failureLeaves (s : State) (p slot : Nat) (patch : Patch) : FailureLeaves s (remapNow 0 s g p slot c patch).1 := by
  have hretired := retireRegion_failureLeaves s g p slot c
  unfold remapNow
  split
  · exact hretired
  · dsimp only
    exact .after (remapCommit_failureLeaves hg hc _ _ _ _ _) (takeSpare_failureLeaves s g c)

theorem failRemap_failureLeaves (s : State) (p slot : Nat) (patch : Patch) : FailureLeaves s (failRemap s g c p slot patch) := by
  have hremap := remapNow_failureLeaves hg hc s p slot patch
  unfold failRemap
  exact .ite (.after (raise_failureLeaves _ _ _) hremap) hremap

/-! ### A program that fails (R74, R83, R166, R243) -/

theorem groupFail_failureLeaves (s : State) (b : Nat) (a : Option Nat) : FailureLeaves s (groupFail s g c b a) := by
  unfold groupFail
  split
  · extract_lets marked landed undefined
    have hmarked : FailureLeaves s marked := (markSpares_frame s _ _ _ _).failureLeaves (by decide) (by decide)
    have hundefined : FailureLeaves s undefined := .ite (.after (undefinePatch_failureLeaves _ _ _) hmarked) hmarked
    split
    · exact .ite (.after ((placeWrites_frame _ _ _ _).failureLeaves (by decide) (by decide))
        (.after (failRemap_failureLeaves hg hc _ _ _ _) hundefined)) hundefined
    · exact hundefined
  · split
    · exact spareProgramFailed_failureLeaves hg s c _
    · exact .refl s

end

end Sys2Proof.Machine
end

section
/-! The events of a stack on ALERT_N (O27): programs that complete, fail or are sent again, reads that are erased, and a stack that
stops (R243 to R246, R253, R254). -/
namespace Sys2Proof.Machine

/-! ### Which events reach the block, and what they count -/

/-- The events of a channel reach the block (R254, R257). -/
def Heard (s : State) (ch : Nat) : Prop := (channelOf s ch).parked = false ∧ (channelOf s ch).powerDown = false

theorem eventsHeard_of_heard {s : State} {ch : Nat} (h : Heard s ch) : eventsHeard s ch = true := by
  obtain ⟨hparked, hpower⟩ := h
  simp [eventsHeard, hparked, hpower]

theorem eventsHeard_of_parked {s : State} {ch : Nat} (h : (channelOf s ch).parked = true) : eventsHeard s ch = false := by
  simp [eventsHeard, h]

theorem statBits_failedPrograms (channel : Channel) : statBits 0x2917 (channel.val + 1) = 32 := by
  revert channel; decide +kernel

theorem statBits_readErrors (channel : Channel) : statBits 0x2918 (channel.val + 1) = 32 := by
  revert channel; decide +kernel

theorem statBits_frameErrors (channel : Channel) : statBits 0x2919 (channel.val + 1) = 32 := by
  revert channel; decide +kernel

theorem statBits_writeCrcErrors (channel : Channel) : statBits 0x291A (channel.val + 1) = 32 := by
  revert channel; decide +kernel

theorem stat_bump_self {s : State} {idx sub n bits : Nat} (h : statBits idx sub = bits) :
    stat (bump s idx sub n) idx sub = (stat s idx sub + n) % 2 ^ bits := by
  rw [stat_bump, if_pos rfl, h]
  norm_cast

/-- One more error of a channel, in its statistic `idx` and towards the limit of R253. -/
def errorCounted (s : State) (idx ch : Nat) : State :=
  channelError (bump s idx (ch + 1) 1) ch

/-- A channel with one more error towards its limit. -/
def erredRec (x : ChannelRec) : ChannelRec := { x with errors := x.errors + 1 }

theorem countFrameError_eq (s : State) (ch : Nat) : countFrameError s ch = errorCounted s 0x2919 ch := rfl

theorem errorCounted_frame (s : State) (idx ch : Nat) : Frame [.channels, .stats] s (errorCounted s idx ch) :=
  Frame.step (channelError_frame _ _) ((bump_frame s _ _ _).mono rfl) rfl

theorem channelOf_errorCounted (s : State) (idx ch c : Nat) :
    channelOf (errorCounted s idx ch) c = if c = ch then erredRec (channelOf s ch) else channelOf s c := by
  unfold errorCounted channelError
  rw [channelOf_modChannel, (bump_frame s _ _ _).channelOf (by decide), (bump_frame s _ _ _).channelOf (by decide)]
  rfl

theorem bankOf_errorCounted (s : State) (idx ch c k : Nat) : bankOf (errorCounted s idx ch) c k = bankOf s c k := by
  refine (bankOf_modChannel (bump s idx (ch + 1) 1) ch (fun x => { x with errors := x.errors + 1 }) (fun _ => rfl) c k).trans ?_
  exact (bump_frame s _ _ _).bankOf (by decide) c k

theorem channelsKept_errorCounted (s : State) (idx ch : Nat) : ChannelsKept ch s (errorCounted s idx ch) := fun d hd => by
  rw [channelOf_errorCounted, if_neg hd]

theorem stat_errorCounted {s : State} {idx ch : Nat} (h : statBits idx (ch + 1) = 32) :
    stat (errorCounted s idx ch) idx (ch + 1) = (stat s idx (ch + 1) + 1) % 2 ^ 32 := by
  unfold errorCounted
  rw [(channelError_frame _ _).stat (by decide), stat_bump_self h]
  rfl

/-! ### A read whose transfer failed (R54, R245) -/

/-- A channel with one more error, and the read of a bank erased. -/
def readErredRec (bank : Nat) (x : ChannelRec) : ChannelRec :=
  { x with errors := x.errors + 1, erased := x.erased ++ [bank] }

/-- What an event of a failed read does. -/
def readErased (s : State) (idx ch bank : Nat) : State :=
  eraseRead (errorCounted s idx ch) ch bank

theorem readErased_frame (s : State) (idx ch bank : Nat) : Frame [.channels, .stats] s (readErased s idx ch bank) :=
  Frame.step (eraseRead_frame _ _ _) (errorCounted_frame s idx ch) rfl

theorem channelOf_readErased (s : State) (idx ch bank c : Nat) :
    channelOf (readErased s idx ch bank) c = if c = ch then readErredRec bank (channelOf s ch) else channelOf s c := by
  unfold readErased eraseRead
  rw [channelOf_modChannel, channelOf_errorCounted, channelOf_errorCounted, if_pos rfl]
  split <;> rfl

theorem stat_readErased {s : State} {idx ch : Nat} (h : statBits idx (ch + 1) = 32) (bank : Nat) :
    stat (readErased s idx ch bank) idx (ch + 1) = (stat s idx (ch + 1) + 1) % 2 ^ 32 := by
  unfold readErased
  rw [(eraseRead_frame _ _ _).stat (by decide), stat_errorCounted h]

/-- An event of a failed read counts in its statistic and erases the column for that read. -/
theorem completes_readErased {c : Instr} {idx ch bank : Nat} (hbits : statBits idx (ch + 1) = 32)
    (hexec : ∀ s, Heard s ch → exec c s = .next (readErased s idx ch bank)) :
    Completes c [.channels, .stats] (fun s => Heard s ch) (fun s t =>
      stat t idx (ch + 1) = (stat s idx (ch + 1) + 1) % 2 ^ 32 ∧ ChannelsKept ch s t ∧
        channelOf t ch = readErredRec bank (channelOf s ch)) := by
  intro s hs
  refine ⟨readErased s idx ch bank, hexec s hs, readErased_frame s idx ch bank, stat_readErased hbits bank, fun d hd => ?_, ?_⟩
  · rw [channelOf_readErased, if_neg hd]
  · rw [channelOf_readErased, if_pos rfl]

/-! ### A program complete (R244) -/

section
variable {s : State} {ch b : Nat} {prog : BankProg} (hrunning : (bankOf s ch b).running = some prog)
include hrunning

theorem stackDone_of_running : stackDone s ch b =
    modChannel (modBank (storePatch s ch (stackAddr b prog.index) prog.data) ch b (fun x => { x with running := none })) ch
      (fun x => { x with reissues := tabSet dNat x.reissues b 0 }) := by
  unfold stackDone
  rw [hrunning]

theorem bankOf_stackDone (c k : Nat) :
    bankOf (stackDone s ch b) c k = if c = ch ∧ k = b then { bankOf s ch b with running := none } else bankOf s c k := by
  have hstored := (storePatch_frame s ch (stackAddr b prog.index) prog.data).bankOf (by decide)
  rw [stackDone_of_running hrunning, bankOf_modChannel, bankOf_modBank, hstored, hstored]
  exact fun _ => rfl

theorem path_stackDone : (stackDone s ch b).path =
    { s.path with medium := tabSet dPatch s.path.medium (patchKey ch (stackAddr b prog.index)) prog.data } := by
  rw [stackDone_of_running hrunning]
  rfl

end

/-- The program of a bank has ended, and the RSM waits no longer for one into a suspended bank. -/
def programEnded (s : State) (ch b : Nat) : State := secondEnded (stackDone s ch b) ch b

theorem programEnded_frame (s : State) (ch b : Nat) : Frame [.channels, .groups, .path] s (programEnded s ch b) :=
  Frame.step (secondEnded_frame _ _ _) ((stackDone_frame s ch b).mono rfl) rfl

/-- A command that ends the program of a bank stores its data and idles the bank. -/
theorem completes_programEnded {c : Instr} {ch b : Nat} {prog : BankProg} {before : State → Prop}
    (hrunning : ∀ s, before s → (bankOf s ch b).running = some prog)
    (hexec : ∀ s, before s → exec c s = .next (programEnded s ch b)) :
    Completes c [.channels, .groups, .path] before (fun s t =>
      (∀ k, tabGet dPatch t.path.medium k =
        if k = patchKey ch (prog.index * 256 + b) then prog.data else tabGet dPatch s.path.medium k) ∧
      t.path = { s.path with medium := t.path.medium } ∧
      ∀ c k, bankOf t c k = if c = ch ∧ k = b then { bankOf s ch b with running := none } else bankOf s c k) := by
  intro s hs
  have hpath : (programEnded s ch b).path =
      { s.path with medium := tabSet dPatch s.path.medium (patchKey ch (stackAddr b prog.index)) prog.data } :=
    ((secondEnded_frame _ ch b).path_eq (by decide)).trans (path_stackDone (hrunning s hs))
  refine ⟨programEnded s ch b, hexec s hs, programEnded_frame s ch b, fun k => ?_, ?_, fun c k => ?_⟩
  · rw [hpath, tabGet_set]
    rfl
  · rw [hpath]
  · rw [← bankOf_stackDone (hrunning s hs)]
    exact (secondEnded_frame _ ch b).bankOf (by decide) c k

section
variable {channel : Channel} {bank : Byte}

theorem exec_doneEvent {s : State} (hheard : Heard s channel.val) (hrunning : (bankOf s channel.val bank.toNat).running.isSome = true) :
    exec (.doneEvent channel bank) s = .next (programEnded s channel.val bank.toNat) := by
  change execDoneEvent channel bank s = _
  simp only [execDoneEvent, eventsHeard_of_heard hheard, hrunning, if_true]
  rfl

theorem exec_programCompleteTimeout (s : State) :
    exec (.programCompleteTimeout channel bank) s = .next (programEnded s channel.val bank.toNat) := rfl

/-- With no program in the bank a time-out ends nothing but the wait of an RSM. -/
theorem completes_programCompleteTimeout_idle :
    Completes (.programCompleteTimeout channel bank) [.groups]
      (fun s => (bankOf s channel.val bank.toNat).running = none) (fun _ _ => True) := by
  intro s hs
  have hdone : stackDone s channel.val bank.toNat = s := by
    unfold stackDone
    rw [hs]
  refine ⟨_, exec_programCompleteTimeout s, ?_, trivial⟩
  unfold programEnded
  rw [hdone]
  exact secondEnded_frame s _ _

/-! ### An event with no program outstanding (R244, R245) -/

theorem completes_doneOrFail_idle : ∀ c ∈ [Instr.doneEvent channel bank, .failEvent channel bank],
    Completes c [.channels, .stats]
      (fun s => Heard s channel.val ∧ (bankOf s channel.val bank.toNat).running = none ∧ groupProgram s channel.val bank.toNat = false)
      (fun s t => stat t 0x2919 (channel.val + 1) = (stat s 0x2919 (channel.val + 1) + 1) % 2 ^ 32 ∧ ChannelsKept channel.val s t ∧
        channelOf t channel.val = erredRec (channelOf s channel.val)) := by
  intro c hc s ⟨hheard, hrunning, hgroup⟩
  have hexec : exec c s = .next (errorCounted s 0x2919 channel.val) := by
    rw [← countFrameError_eq]
    simp only [List.mem_cons, List.not_mem_nil, or_false] at hc
    obtain rfl | rfl := hc
    · change execDoneEvent channel bank s = _
      simp [execDoneEvent, eventsHeard_of_heard hheard, hrunning, hgroup]
    · change execFailEvent channel bank s = _
      simp [execFailEvent, eventsHeard_of_heard hheard, hrunning, hgroup]
  refine ⟨_, hexec, errorCounted_frame s _ _, stat_errorCounted (statBits_frameErrors channel), channelsKept_errorCounted s _ _, ?_⟩
  rw [channelOf_errorCounted, if_pos rfl]

end

/-! ### A program that fails (R243, R244, R246) -/

/-- The bank whose program failed is idle, and its patch undefined; what follows leaves the banks and the counts. -/
theorem stackFail_leaves {ch : Nat} (hch : ch < 64) (s : State) (bank : Nat) (p : BankProg) :
    FailureLeaves (modBank (undefinePatch s ch (stackAddr bank p.index)) ch bank (fun b => { b with running := none, refused := none }))
      (stackFail s ch bank p) := by
  have hg : ch / 8 < 8 := by omega
  have hc : ch % 8 < 8 := by omega
  unfold stackFail
  extract_lets addr undefined idled g c
  split
  · exact groupFail_failureLeaves hg hc idled bank _
  · split
    · exact .ite (spareProgramFailed_failureLeaves hg idled c _) (.refl idled)
    · split
      · exact failRemap_failureLeaves hg hc idled _ _ _
      · exact .refl idled

theorem bankOf_stackFail {ch : Nat} (hch : ch < 64) (s : State) (bank : Nat) (p : BankProg) :
    (bankOf (stackFail s ch bank p) ch bank).running = none := by
  rw [(stackFail_leaves hch s bank p).banks, bankOf_modBank, if_pos ⟨rfl, rfl⟩]

theorem stackFail_fails {ch : Nat} (hch : ch < 64) (s : State) (bank : Nat) (p : BankProg) :
    IndexStatsKept 0x2917 s (stackFail s ch bank p) :=
  ((undefinePatch_failureLeaves s ch _).fails.trans ((modBank_frame _ ch bank _).indexStatsKept (by decide) _)).trans
    (stackFail_leaves hch s bank p).fails

/-- What a failure does before the bank's own program fails. -/
def failureCounted (s : State) (ch bank : Nat) : State :=
  secondEnded (modChannel (bump s 0x2917 (ch + 1) 1) ch (fun x => { x with reissues := tabSet dNat x.reissues bank 0 })) ch bank

theorem failureCounted_leaves (s : State) (ch bank : Nat) : FailureLeaves (bump s 0x2917 (ch + 1) 1) (failureCounted s ch bank) :=
  .after ((secondEnded_frame _ _ _).failureLeaves (by decide) (by decide)) (modChannel_failureLeaves _ _ fun _ => rfl)

theorem bankOf_failureCounted (s : State) (ch bank c k : Nat) : bankOf (failureCounted s ch bank) c k = bankOf s c k :=
  ((failureCounted_leaves s ch bank).banks c k).trans ((bump_frame s _ _ _).bankOf (by decide) c k)

theorem programFailed_of_running {s : State} {ch bank : Nat} {p : BankProg} (h : (bankOf s ch bank).running = some p) :
    programFailed s ch bank = stackFail (failureCounted s ch bank) ch bank p := by
  unfold programFailed
  rw [← bankOf_failureCounted s ch bank] at h
  unfold failureCounted at h ⊢
  simp only [h]

theorem stat_programFailed {s : State} {channel : Channel} {bank : Nat} {p : BankProg}
    (h : (bankOf s channel.val bank).running = some p) :
    stat (programFailed s channel.val bank) 0x2917 (channel.val + 1) = (stat s 0x2917 (channel.val + 1) + 1) % 2 ^ 32 := by
  have hsub : channel.val + 1 < 256 := by omega
  rw [programFailed_of_running h, stackFail_fails channel.isLt _ _ _ _ hsub, (failureCounted_leaves s _ _).fails _ hsub,
    stat_bump_self (statBits_failedPrograms channel)]
  rfl

theorem completes_failEvent (channel : Channel) (bank : Byte) :
    Completes (.failEvent channel bank)
      [.mgmt, .folio, .ledger, .reserve, .channels, .groups, .easel, .palette, .queues, .perf, .path, .stats, .out]
      (fun s => Heard s channel.val ∧ (bankOf s channel.val bank.toNat).running.isSome = true)
      (fun s t => (bankOf t channel.val bank.toNat).running = none ∧
        stat t 0x2917 (channel.val + 1) = (stat s 0x2917 (channel.val + 1) + 1) % 2 ^ 32) := by
  intro s ⟨hheard, hrunning⟩
  obtain ⟨prog, hprog⟩ := Option.isSome_iff_exists.mp hrunning
  have hcounted : FailureLeaves s (setModeReg s channel.val 0x0C (min 65535 (modeReg s channel.val 0x0C + 1))) :=
    modChannel_failureLeaves s _ fun _ => rfl
  have hexec : exec (.failEvent channel bank) s =
      .next (programFailed (setModeReg s channel.val 0x0C (min 65535 (modeReg s channel.val 0x0C + 1))) channel.val bank.toNat) := by
    change execFailEvent channel bank s = _
    simp [execFailEvent, eventsHeard_of_heard hheard, hrunning]
  obtain ⟨t, ht, hframe⟩ := execFailEvent_frame channel bank s
  obtain rfl := Host.Outcome.next.inj (ht.symm.trans hexec)
  rw [← hcounted.banks] at hprog
  refine ⟨_, hexec, hframe, ?_, ?_⟩
  · rw [programFailed_of_running hprog]
    exact bankOf_stackFail channel.isLt _ _ _
  · rw [stat_programFailed hprog, hcounted.fails _ (by omega)]

end Sys2Proof.Machine
end

section
/-! Programs and frames sent again, and a stack that stops its banks (O27; R245, R246, R253, R254). -/
namespace Sys2Proof.Machine

/-! ### A refused program is sent again (R246) -/

/-- A channel that has reissued the program of a bank `n` times. -/
def reissuesRec (b n : Nat) (x : ChannelRec) : ChannelRec := { x with reissues := tabSet dNat x.reissues b n }

/-- The program of a bank goes out once more on its channel, counted as its reissue number `n`. -/
def reissued (s : State) (ch b : Nat) (prog : BankProg) (n : Nat) : State :=
  modBank (emit (emit (modChannel s ch (reissuesRec b n))
    (.caFrame ch (programFrame (stackAddr b prog.index) prog.data))) (.burst ch (patchBytes prog.data))) ch b
    (fun x => { x with running := some prog, refused := none, latched := none })

theorem reissueProgram_of_refused {s : State} {ch b : Nat} {prog : BankProg} (hrefused : (bankOf s ch b).refused = some prog)
    (hidle : (bankOf s ch b).running = none) (hroom : tabGet dNat (channelOf s ch).reissues b < settingN s 0x2900 4) :
    reissueProgram s ch b = reissued s ch b prog (tabGet dNat (channelOf s ch).reissues b + 1) := by
  have hbank := bankOf_modChannel s ch (reissuesRec b (tabGet dNat (channelOf s ch).reissues b + 1)) (fun _ => rfl) ch b
  unfold reissuesRec at hbank
  unfold reissueProgram
  simp only [hroom, if_true, hbank, hrefused, hidle, Option.isNone_none]
  rfl

theorem reissued_frame (s : State) (ch b : Nat) (prog : BankProg) (n : Nat) : Frame [.channels, .out] s (reissued s ch b prog n) :=
  Frame.step (modBank_frame _ _ _ _) (Frame.step (emit_frame _ _) (Frame.step (emit_frame _ _) ((modChannel_frame s ch _).mono rfl)
    rfl) rfl) rfl

theorem bankOf_reissued (s : State) (ch b : Nat) (prog : BankProg) (n : Nat) :
    (bankOf (reissued s ch b prog n) ch b).running = some prog ∧ (bankOf (reissued s ch b prog n) ch b).refused = none := by
  unfold reissued
  rw [bankOf_modBank, if_pos ⟨rfl, rfl⟩]
  exact ⟨rfl, rfl⟩

theorem reissues_reissued (s : State) (ch b : Nat) (prog : BankProg) (n : Nat) :
    tabGet dNat (channelOf (reissued s ch b prog n) ch).reissues b = n := by
  unfold reissued modBank
  rw [channelOf_modChannel, if_pos rfl, (emit_frame _ _).channelOf (by decide), (emit_frame _ _).channelOf (by decide),
    channelOf_modChannel, if_pos rfl]
  exact tabGet_set_self _ _ _

theorem channelsKept_reissued (s : State) (ch b : Nat) (prog : BankProg) (n : Nat) : ChannelsKept ch s (reissued s ch b prog n) := by
  intro d hd
  unfold reissued modBank
  rw [channelOf_modChannel, if_neg hd, (emit_frame _ _).channelOf (by decide), (emit_frame _ _).channelOf (by decide),
    channelOf_modChannel, if_neg hd]

/-- An event of a refused program counts in its statistic, and the program is sent again while its reissues last. -/
theorem completes_reissued {c : Instr} {idx ch b : Nat} {prog : BankProg} (hbits : statBits idx (ch + 1) = 32)
    (hexec : ∀ s, Heard s ch → exec c s = .next (reissueProgram (errorCounted s idx ch) ch b)) :
    Completes c [.channels, .stats, .out]
      (fun s => Heard s ch ∧ (bankOf s ch b).refused = some prog ∧ (bankOf s ch b).running = none ∧
        tabGet dNat (channelOf s ch).reissues b < settingN s 0x2900 4)
      (fun s t => t.out = .burst ch (patchBytes prog.data) :: .caFrame ch (programFrame (stackAddr b prog.index) prog.data) :: s.out ∧
        (bankOf t ch b).running = some prog ∧ (bankOf t ch b).refused = none ∧
        tabGet dNat (channelOf t ch).reissues b = tabGet dNat (channelOf s ch).reissues b + 1 ∧ ChannelsKept ch s t ∧
        stat t idx (ch + 1) = (stat s idx (ch + 1) + 1) % 2 ^ 32) := by
  intro s ⟨hheard, hrefused, hidle, hroom⟩
  have hreissues : tabGet dNat (channelOf (errorCounted s idx ch) ch).reissues b = tabGet dNat (channelOf s ch).reissues b := by
    rw [channelOf_errorCounted, if_pos rfl]
    rfl
  rw [← bankOf_errorCounted s idx ch] at hrefused hidle
  rw [← hreissues] at hroom
  refine ⟨_, (hexec s hheard).trans (congrArg _ (reissueProgram_of_refused hrefused hidle hroom)), ?_, rfl,
    (bankOf_reissued _ ch b prog _).1, (bankOf_reissued _ ch b prog _).2, ?_, fun d hd => ?_, ?_⟩
  · exact Frame.step (reissued_frame _ ch b prog _) ((errorCounted_frame s idx ch).mono rfl) rfl
  · rw [reissues_reissued, hreissues]
  · exact (channelsKept_reissued _ ch b prog _ d hd).trans (channelsKept_errorCounted s idx ch d hd)
  · rw [(reissued_frame _ ch b prog _).stat (by decide), stat_errorCounted hbits]

/-! ### Another frame is sent again once (R245) -/

/-- The last other frame of a channel, plus one, and whether it has gone out again. -/
def sentFrame (s : State) (ch : Nat) : Nat := tabGet dNat (groupOf s (ch / 8)).sent (ch % 8)

def frameResent (s : State) (ch : Nat) : Bool := tabGet dBool (groupOf s (ch / 8)).resent (ch % 8)

/-- The last other frame of a channel goes out again. -/
def frameAgain (s : State) (ch : Nat) : State :=
  modGroup (emit s (.caFrame ch (sentFrame s ch - 1))) (ch / 8) (fun x => { x with resent := tabSet dBool x.resent (ch % 8) true })

/-- No frame of a channel waits for its refusal. -/
def frameForgotten (s : State) (ch : Nat) : State :=
  modGroup s (ch / 8) (fun x => { x with
    sent := tabSet dNat x.sent (ch % 8) 0, resent := tabSet dBool x.resent (ch % 8) false })

theorem resendFrame_eq (s : State) (ch : Nat) : resendFrame s ch =
    if sentFrame s ch = 0 ∨ frameResent s ch = true then errorCounted (frameForgotten s ch) 0x2919 ch else frameAgain s ch := rfl

theorem frameAgain_frame (s : State) (ch : Nat) : Frame [.groups, .out] s (frameAgain s ch) :=
  Frame.step (modGroup_frame _ _ _) ((emit_frame s _).mono rfl) rfl

theorem frameForgotten_frame (s : State) (ch : Nat) : Frame [.groups] s (frameForgotten s ch) := modGroup_frame s _ _

theorem sentFrame_frameAgain (s : State) (ch : Nat) :
    frameResent (frameAgain s ch) ch = true ∧ sentFrame (frameAgain s ch) ch = sentFrame s ch := by
  unfold frameResent sentFrame frameAgain
  rw [groupOf_modGroup_self]
  exact ⟨tabGet_set_self (groupOf s (ch / 8)).resent (ch % 8) true, rfl⟩

theorem sentFrame_frameForgotten (s : State) (ch : Nat) : sentFrame (frameForgotten s ch) ch = 0 := by
  unfold sentFrame frameForgotten
  rw [groupOf_modGroup_self]
  exact tabGet_set_self (groupOf s (ch / 8)).sent (ch % 8) 0

section
variable {channel : Channel} {bank : Byte}

theorem exec_frameErrorEvent_other {s : State} (h : Heard s channel.val) :
    exec (.frameErrorEvent channel bank .other) s = .next (resendFrame s channel.val) := by
  change execFrameErrorEvent channel bank .other s = _
  simp [execFrameErrorEvent, eventsHeard_of_heard h]

theorem completes_frameErrorEvent_other (sent : Nat) (again : Bool) :
    Completes (.frameErrorEvent channel bank .other)
      (if again = true ∨ sent = 0 then [.channels, .groups, .stats] else [.groups, .out])
      (fun s => Heard s channel.val ∧ sentFrame s channel.val = sent ∧ frameResent s channel.val = again)
      (fun s t =>
        (again = false → sent ≠ 0 → t.out = .caFrame channel.val (sent - 1) :: s.out ∧
          frameResent t channel.val = true ∧ sentFrame t channel.val = sent) ∧
        (again = true ∨ sent = 0 → stat t 0x2919 (channel.val + 1) = (stat s 0x2919 (channel.val + 1) + 1) % 2 ^ 32 ∧
          channelOf t channel.val = erredRec (channelOf s channel.val) ∧ sentFrame t channel.val = 0)) := by
  rintro s ⟨hheard, rfl, rfl⟩
  refine ⟨_, exec_frameErrorEvent_other hheard, ?_⟩
  rw [resendFrame_eq]
  by_cases hlast : frameResent s channel.val = true ∨ sentFrame s channel.val = 0
  · have hkept := frameForgotten_frame s channel.val
    rw [if_pos hlast, if_pos hlast.symm]
    refine ⟨Frame.step (errorCounted_frame _ _ _) (hkept.mono rfl) rfl, fun hagain hsent => ?_, fun _ => ⟨?_, ?_, ?_⟩⟩
    · simp [hagain, hsent] at hlast
    · rw [stat_errorCounted (statBits_frameErrors channel), hkept.stat (by decide)]
    · rw [channelOf_errorCounted, if_pos rfl, hkept.channelOf (by decide)]
    · rw [← sentFrame_frameForgotten s channel.val]
      unfold sentFrame
      rw [(errorCounted_frame _ _ _).groupOf (by decide)]
  · rw [if_neg hlast, if_neg (mt Or.symm hlast)]
    exact ⟨frameAgain_frame s _, fun _ _ => ⟨rfl, sentFrame_frameAgain s _⟩, fun h => absurd h hlast⟩

/-! ### A stack that stops its banks (R247, R253), and one that is parked (R254) -/

theorem completes_stackStatusEvent_stop (reg : BitVec 16) :
    Completes (.stackStatusEvent channel 2 reg)
      [.sys, .mgmt, .folio, .ledger, .ports, .channels, .groups, .easel, .palette, .directory, .queues, .barrow, .perf, .stats, .out]
      (fun s => Heard s channel.val ∧ (channelOf s channel.val).failed = false ∧
        (bitOf reg.toNat 0 = true ∨ bitOf reg.toNat 2 = true ∨ bitOf reg.toNat 3 = true))
      (fun s t => (channelOf t channel.val).failed = true ∧ (channelOf t channel.val).cause = 5 ∧
        (channelOf t channel.val).parked = true ∧ (channelOf t channel.val).state = 3 ∧
        tabGet dNat t.folio.tallyPending 159 = min (tabGet dNat s.folio.tallyPending 159 + 1) 65535) := by
  intro s ⟨hheard, hfailed, hstops⟩
  have hraised := raise_frame s 0x2907 (leBytes 1 channel.val ++ leBytes 2 reg.toNat)
  have htally := raise_tallyPending (j := 159) (by decide) s 0x2907 (leBytes 1 channel.val ++ leBytes 2 reg.toNat)
  have hexec : exec (.stackStatusEvent channel 2 reg) s = .next (markFailed
      (modChannel (raise s 0x2907 (leBytes 1 channel.val ++ leBytes 2 reg.toNat)) channel.val (fun x => { x with stopped := true }))
      channel.val 5) := by
    change execStackStatusEvent channel 2 reg s = _
    have hstop : stopsStack reg.toNat = true := by
      unfold stopsStack
      rcases hstops with h | h | h <;> simp [h]
    simp [execStackStatusEvent, eventsHeard_of_heard hheard, hstop]
  generalize raise s 0x2907 (leBytes 1 channel.val ++ leBytes 2 reg.toNat) = x at hraised htally hexec
  have hserving : (channelOf (modChannel x channel.val (fun x => { x with stopped := true })) channel.val).failed = false := by
    rw [channelOf_modChannel, if_pos rfl, hraised.channelOf (by decide)]
    exact hfailed
  have hmarked := channelOf_markFailed hserving 5 channel.val
  rw [if_pos rfl] at hmarked
  refine ⟨_, hexec, Frame.step (markFailed_frame _ _ _) (Frame.step (modChannel_frame _ _ _) (hraised.mono rfl) rfl) rfl, ?_⟩
  beta_reduce
  rw [hmarked, tally_markFailed hserving 5]
  exact ⟨rfl, rfl, rfl, rfl, congrArg (fun n => min (n + 1) 65535) htally⟩

theorem completes_event_of_parked :
    ∀ c ∈ [Instr.doneEvent channel bank, .failEvent channel bank, .readErrorEvent channel bank, .writeCrcErrorEvent channel bank,
      .frameErrorEvent channel bank .read], Completes c [] (fun s => (channelOf s channel.val).parked = true) (fun _ _ => True) := by
  intro c hc s hs
  have hdeaf := eventsHeard_of_parked hs
  refine ⟨s, ?_, .refl _ s, trivial⟩
  simp only [List.mem_cons, List.not_mem_nil, or_false] at hc
  obtain rfl | rfl | rfl | rfl | rfl := hc <;> exact if_pos hdeaf

/-! ### The events, kind by kind -/

theorem exec_readErrorEvent {s : State} (h : Heard s channel.val) :
    exec (.readErrorEvent channel bank) s = .next (readErased s 0x2918 channel.val bank.toNat) :=
  if_neg (by simp [eventsHeard_of_heard h])

theorem exec_frameErrorEvent_read {s : State} (h : Heard s channel.val) :
    exec (.frameErrorEvent channel bank .read) s = .next (readErased s 0x2919 channel.val bank.toNat) :=
  if_neg (by simp [eventsHeard_of_heard h])

theorem exec_frameErrorEvent_program {s : State} (h : Heard s channel.val) :
    exec (.frameErrorEvent channel bank .program) s =
      .next (reissueProgram (errorCounted s 0x2919 channel.val) channel.val bank.toNat) :=
  if_neg (by simp [eventsHeard_of_heard h])

theorem exec_writeCrcErrorEvent {s : State} (h : Heard s channel.val) :
    exec (.writeCrcErrorEvent channel bank) s =
      .next (reissueProgram (errorCounted s 0x291A channel.val) channel.val bank.toNat) :=
  if_neg (by simp [eventsHeard_of_heard h])

end

/-- Settles O27, event by event; what the remap of a failed program leaves is `FailureLeaves`. -/
theorem stackEvents : Obligations.StackEvents := by
  unfold Obligations.StackEvents
  intro heard channel bank
  refine ⟨fun prog => ⟨?_, ?_⟩, completes_programCompleteTimeout_idle, completes_doneOrFail_idle, completes_failEvent channel bank,
    completes_readErased (statBits_readErrors channel) fun s => exec_readErrorEvent,
    completes_readErased (statBits_frameErrors channel) fun s => exec_frameErrorEvent_read,
    completes_frameErrorEvent_other, fun prog x hx => ?_, completes_stackStatusEvent_stop, completes_event_of_parked⟩
  · exact completes_programEnded (fun s hs => hs.2) fun s hs => exec_doneEvent hs.1 (Option.isSome_iff_exists.mpr ⟨prog, hs.2⟩)
  · exact completes_programEnded (fun s hs => hs) fun s _ => exec_programCompleteTimeout s
  · simp only [List.mem_cons, List.not_mem_nil, or_false] at hx
    obtain rfl | rfl := hx
    · exact completes_reissued (statBits_writeCrcErrors channel) fun s => exec_writeCrcErrorEvent
    · exact completes_reissued (statBits_frameErrors channel) fun s => exec_frameErrorEvent_program

end Sys2Proof.Machine
end

section
/-! The least of a list, and the winner of a slot (R262, R263). -/
namespace Sys2Proof.Machine

theorem leastBy_eq_argmin (key : BusRequest → Nat) (rs : List BusRequest) : leastBy key rs = rs.argmin key := by
  unfold leastBy List.argmin
  congr 1
  funext best r
  cases best <;> rfl

/-- The least value of a function over a list, with a bound: it is at most each value and at most the bound, and is one of them. -/
theorem foldl_min_least {α : Type} (f : α → Nat) (l : List α) (m : Nat) :
    l.foldl (fun m a => min m (f a)) m ≤ m ∧ (∀ a ∈ l, l.foldl (fun m a => min m (f a)) m ≤ f a) ∧
      (l.foldl (fun m a => min m (f a)) m = m ∨ ∃ a ∈ l, l.foldl (fun m a => min m (f a)) m = f a) := by
  induction l generalizing m with
  | nil => simp
  | cons b l ih =>
    obtain ⟨hbound, hall, hattained⟩ := ih (min m (f b))
    rw [List.foldl_cons]
    refine ⟨by omega, fun a ha => ?_, ?_⟩
    · obtain rfl | ha := List.mem_cons.mp ha
      · omega
      · exact hall a ha
    · obtain h | ⟨a, ha, h⟩ := hattained
      · rcases Nat.le_total m (f b) with hle | hle
        · exact .inl (h.trans (min_eq_left hle))
        · exact .inr ⟨b, List.mem_cons_self, h.trans (min_eq_right hle)⟩
      · exact .inr ⟨a, List.mem_cons_of_mem _ ha, h⟩

/-- The key that orders the requests of one rank (R262, R263). -/
def rankKey (s : State) (g rank : Nat) : BusRequest → Nat :=
  if rank = 0 then agedKey else pointerKey s g

theorem rankOf_lt {s : State} {g : Nat} (h : ∀ k ∈ (arbOf s g).ranks, k < 8) (r : BusRequest) : rankOf s g r < 8 := by
  unfold rankOf
  split
  · decide
  · rw [List.getD_eq_getElem?_getD]
    cases hget : (arbOf s g).ranks[r.position]? with
    | none => decide
    | some k => exact h k (List.mem_of_getElem? hget)

section
variable {s : State} {g n : Nat} {rs : List BusRequest}

theorem arbWinner_none (h : ∀ r ∈ rs, eligible s g n r = false) : arbWinner s g n rs = none := by
  have hnone : rs.filter (eligible s g n) = [] := List.filter_eq_nil_iff.mpr fun r hr => by simp [h r hr]
  unfold arbWinner
  rw [hnone]
  rfl

/-- Among eligible requests the slot goes to one of the lowest rank, and of the least key at that rank. -/
theorem arbWinner_least (hranks : ∀ k ∈ (arbOf s g).ranks, k < 8) {q : BusRequest} (hq : q ∈ rs)
    (heligible : eligible s g n q = true) :
    ∃ r, arbWinner s g n rs = some r ∧ r ∈ rs ∧ eligible s g n r = true ∧
      ∀ q ∈ rs, eligible s g n q = true → rankOf s g r < rankOf s g q ∨ (rankOf s g r = rankOf s g q ∧
        rankKey s g (rankOf s g r) r ≤ rankKey s g (rankOf s g r) q) := by
  have hmem {a : BusRequest} : a ∈ rs.filter (eligible s g n) ↔ a ∈ rs ∧ eligible s g n a = true := List.mem_filter
  obtain ⟨-, hlow, hattained⟩ := foldl_min_least (rankOf s g) (rs.filter (eligible s g n)) 8
  unfold arbWinner
  extract_lets el low best
  have hlow : ∀ a ∈ el, low ≤ rankOf s g a := hlow
  obtain ⟨a, ha, hlowest⟩ : ∃ a ∈ el, low = rankOf s g a := by
    refine hattained.resolve_left fun h => ?_
    have hle : low ≤ rankOf s g q := hlow q (hmem.mpr ⟨hq, heligible⟩)
    have hlt := rankOf_lt hranks q
    have h8 : low = 8 := h
    omega
  have hbest {b : BusRequest} : b ∈ best ↔ b ∈ el ∧ rankOf s g b = low := by
    rw [List.mem_filter, beq_iff_eq]
  have hkey : (if low = 0 then agedKey else pointerKey s g) = rankKey s g low := rfl
  rw [leastBy_eq_argmin, hkey]
  cases hwin : best.argmin (rankKey s g low) with
  | none =>
    rw [List.argmin_eq_none] at hwin
    have : a ∈ best := hbest.mpr ⟨ha, hlowest.symm⟩
    simp [hwin] at this
  | some r =>
    obtain ⟨hr, hrank⟩ := hbest.mp (List.argmin_mem hwin)
    refine ⟨r, rfl, (hmem.mp hr).1, (hmem.mp hr).2, fun q hq heligible => ?_⟩
    have hqel : q ∈ el := hmem.mpr ⟨hq, heligible⟩
    rw [hrank]
    rcases Nat.lt_or_ge low (rankOf s g q) with hlt | hge
    · exact .inl hlt
    · have hsame := Nat.le_antisymm (hlow q hqel) hge
      exact .inr ⟨hsame, List.le_of_mem_argmin (hbest.mpr ⟨hqel, hsame.symm⟩) hwin⟩

end

end Sys2Proof.Machine
end

section
/-! The note of a group's last request decides nothing about a slot. -/
namespace Sys2Proof.Machine

theorem arbOf_modArb (s : State) (g : Nat) (f : Arbiter → Arbiter) : arbOf (modArb s g f) g = f (arbOf s g) := by
  unfold arbOf modArb
  rw [groupOf_modGroup_self]

theorem Frame.arbOf {U : List UnitName} {s t : State} (h : Frame U s t) (hu : .groups ∉ U) (g : Nat) : arbOf t g = arbOf s g := by
  unfold Machine.arbOf
  rw [h.groupOf hu]

/-- A group notes the time of a request. -/
def requestNoted (s : State) (g v : Nat) : State :=
  modGroup s g (fun x => { x with requestAt := v })

theorem groupOf_requestNoted (s : State) (g v h : Nat) : ∃ w, groupOf (requestNoted s g v) h = { groupOf s h with requestAt := w } := by
  unfold requestNoted
  rw [groupOf_modGroup]
  split
  · next hh => exact ⟨v, by rw [hh]⟩
  · exact ⟨(groupOf s h).requestAt, rfl⟩

section
variable (s : State) (g v : Nat)

theorem requestNoted_sameSlots : SameSlots s (requestNoted s g v) :=
  modGroup_sameSlots (f := fun x => { x with requestAt := v }) (fun _ => rfl) (fun _ => rfl) (fun _ => rfl) (fun _ => rfl) s g

theorem arbOf_requestNoted (h : Nat) : arbOf (requestNoted s g v) h = arbOf s h := by
  obtain ⟨w, hw⟩ := groupOf_requestNoted s g v h
  unfold arbOf
  rw [hw]

theorem linePlace_requestNoted (line : Nat) : linePlace (requestNoted s g v) line = linePlace s line := by
  have hslots := requestNoted_sameSlots s g v
  have hindex (x : TileId) : tileIndex (requestNoted s g v) x = tileIndex s x := by
    unfold tileIndex hostCount
    simp only [hslots.path, hslots.typ]
  have hidx (h i : Nat) : placeIdx (requestNoted s g v) h i = placeIdx s h i := by
    obtain ⟨w, hw⟩ := groupOf_requestNoted s g v h
    unfold placeIdx regionFor
    simp only [hw, hslots.slotIn]
  have hplace (x : TileId) : placeOf (requestNoted s g v) x = placeOf s x := by
    unfold placeOf
    simp only [hindex, hidx, hslots.placeSlot]
  unfold linePlace scratchPlace poolEnd
  rw [ephemeralState_congr (s := s) (t := requestNoted s g v) rfl rfl, hplace]
  simp only [hslots.typ]
  rfl

theorem openPrograms_requestNoted (h : Nat) : openPrograms (requestNoted s g v) h = openPrograms s h := by
  obtain ⟨w, hw⟩ := groupOf_requestNoted s g v h
  unfold openPrograms openDestages openWritebacks openLines
  simp only [hw, linePlace_requestNoted, (requestNoted_sameSlots s g v).placeSlot]
  rfl

theorem regionHolder_requestNoted (h p : Nat) : regionHolder (requestNoted s g v) h p = regionHolder s h p := by
  obtain ⟨w, hw⟩ := groupOf_requestNoted s g v h
  unfold regionHolder lineIn
  simp only [hw, linePlace_requestNoted]
  rfl

theorem spareAt_requestNoted (h c b : Nat) : spareAt (requestNoted s g v) h c b = spareAt s h c b := by
  obtain ⟨w, hw⟩ := groupOf_requestNoted s g v h
  unfold spareAt spareBase
  rw [hw]

theorem bankNeed_requestNoted (h n : Nat) (r : BusRequest) (c : Nat) :
    bankNeed (requestNoted s g v) h n r c = bankNeed s h n r c := by
  have hreading (b : Nat) : readingIn (requestNoted s g v) h n c b = readingIn s h n c b := by
    unfold readingIn
    rw [arbOf_requestNoted]
  have hsuspended (b : Nat) : suspendedIn (requestNoted s g v) h c b = suspendedIn s h c b := by
    unfold suspendedIn
    rw [arbOf_requestNoted]
    rfl
  have hprograms (b : Nat) : programsIn (requestNoted s g v) h c b = programsIn s h c b := by
    unfold programsIn
    rw [openPrograms_requestNoted]
  have hrunning (b : Nat) : runningIn (requestNoted s g v) h c b = runningIn s h c b := by
    unfold runningIn sentIn
    rw [hsuspended, hprograms, spareAt_requestNoted]
    rfl
  have hthrough (b : Nat) : throughIn (requestNoted s g v) h c b = throughIn s h c b := by
    unfold throughIn
    rw [hprograms]
  unfold bankNeed
  simp only [hreading, hsuspended, hrunning, hthrough]

theorem eligible_requestNoted (h n : Nat) (r : BusRequest) : eligible (requestNoted s g v) h n r = eligible s h n r := by
  have hheld : staleHeld (requestNoted s g v) h r = staleHeld s h r := by
    obtain ⟨w, hw⟩ := groupOf_requestNoted s g v h
    unfold staleHeld
    rw [hw]
  unfold eligible needsSuspend dqFree
  simp only [bankNeed_requestNoted, hheld, arbOf_requestNoted, regionHolder_requestNoted]

theorem rankOf_requestNoted (h : Nat) (r : BusRequest) : rankOf (requestNoted s g v) h r = rankOf s h r := by
  unfold rankOf
  rw [arbOf_requestNoted]

theorem rankKey_requestNoted (h k : Nat) : rankKey (requestNoted s g v) h k = rankKey s h k := by
  unfold rankKey pointerKey
  rw [arbOf_requestNoted]

end

end Sys2Proof.Machine
end

section
/-! A phase of the group arbiter and the end of a locked sequence (O40). -/
namespace Sys2Proof.Machine

/-! ### A phase, step by step (R260, R271) -/

/-- The phase turns to its next slot: committed ranks act, and bookings that are past are dropped. -/
def slotTurned (s : State) (g : Nat) : State :=
  modArb s g (fun a => { a with
    ranks := a.shadow.getD a.ranks, shadow := none, slot := a.slot + 1, dq := a.dq.filter (fun k => decide (a.slot < k)),
    reads := a.reads.filter (fun x => decide (a.slot + 1 < x.slot)) })

/-- The time of a request is noted where there is one. -/
def asksNoted (s : State) (g : Nat) (rs : List BusRequest) : State :=
  if rs = [] then s else requestNoted s g s.sys.time

/-- The next slot is decided among the requests of a phase. -/
def slotDecided (s : State) (g : Nat) (asks : List ArbRequest) : State :=
  quietStep (decideSlot (asksNoted s g (busRequests s g asks)) g (arbOf (asksNoted s g (busRequests s g asks)) g).slot
    (busRequests s g asks)) g (busRequests s g asks)

/-- A group in light sleep wakes at a request (R18). -/
def sleepLeft (s : State) (g : Nat) (asks : List ArbRequest) : State :=
  if sleepOf s g = 1 ∧ busRequests s g asks ≠ [] then setSleep s g 0 else s

theorem exec_arbitrationPhase {s : State} {group : Group} (h : groupAwake s group.val = true) (asks : List ArbRequest)
    (withdraw : Bool) : exec (.arbitrationPhase group asks withdraw) s = .next (slotDecided
      (slotTurned (lockStep (openSlot (sleepLeft s group.val asks) group.val withdraw) group.val) group.val) group.val asks) :=
  if_neg (by simp [h])

theorem sleepLeft_of_awake {s : State} {g : Nat} (h : sleepOf s g = 0) (asks : List ArbRequest) : sleepLeft s g asks = s :=
  if_neg (by simp [h])

theorem arbOf_slotTurned (s : State) (g : Nat) : arbOf (slotTurned s g) g = { arbOf s g with
    ranks := (arbOf s g).shadow.getD (arbOf s g).ranks, shadow := none, slot := (arbOf s g).slot + 1,
    dq := (arbOf s g).dq.filter (fun k => decide ((arbOf s g).slot < k)),
    reads := (arbOf s g).reads.filter (fun x => decide ((arbOf s g).slot + 1 < x.slot)) } :=
  arbOf_modArb s g _

theorem slotTurned_frame (s : State) (g : Nat) : Frame [.groups] s (slotTurned s g) := modArb_frame s g _

theorem asksNoted_eq (s : State) (g : Nat) (rs : List BusRequest) :
    asksNoted s g rs = s ∨ ∃ v, asksNoted s g rs = requestNoted s g v := by
  unfold asksNoted
  split
  · exact .inl rfl
  · exact .inr ⟨_, rfl⟩

theorem asksNoted_frame (s : State) (g : Nat) (rs : List BusRequest) : Frame [.groups] s (asksNoted s g rs) :=
  Frame.ite (.refl _ s) (modGroup_frame s g _)

section
variable (s : State) (g : Nat) (rs : List BusRequest)

theorem arbOf_asksNoted (h : Nat) : arbOf (asksNoted s g rs) h = arbOf s h := by
  obtain heq | ⟨v, heq⟩ := asksNoted_eq s g rs <;> rw [heq]
  exact arbOf_requestNoted s g v h

theorem eligible_asksNoted (h n : Nat) (r : BusRequest) : eligible (asksNoted s g rs) h n r = eligible s h n r := by
  obtain heq | ⟨v, heq⟩ := asksNoted_eq s g rs <;> rw [heq]
  exact eligible_requestNoted s g v h n r

theorem rankOf_asksNoted (h : Nat) (r : BusRequest) : rankOf (asksNoted s g rs) h r = rankOf s h r := by
  obtain heq | ⟨v, heq⟩ := asksNoted_eq s g rs <;> rw [heq]
  exact rankOf_requestNoted s g v h r

theorem rankKey_asksNoted (h k : Nat) : rankKey (asksNoted s g rs) h k = rankKey s h k := by
  obtain heq | ⟨v, heq⟩ := asksNoted_eq s g rs <;> rw [heq]
  exact rankKey_requestNoted s g v h k

end

theorem arbOf_quietStep (s : State) (g : Nat) (rs : List BusRequest) :
    ∃ q, arbOf (quietStep s g rs) g = { arbOf s g with quiet := q } :=
  ⟨_, arbOf_modArb s g _⟩

/-! ### Requests and their positions (R259) -/

theorem mem_busRequests {s : State} {g : Nat} {asks : List ArbRequest} {r : BusRequest} :
    r ∈ busRequests s g asks ↔ ∃ a ∈ asks, busRequest s g a = some r := List.mem_filterMap

theorem askPlace_position {s : State} {ask : ArbRequest} {position : Nat} {pl : Place} {op : BusOp} {r : BusRequest}
    (h : askPlace s ask position pl op = some r) : r.position = position := by
  unfold askPlace at h
  split at h
  · cases h
  · rw [← Option.some.inj h]

theorem askRead_position {s : State} {g n : Nat} {ask : ArbRequest} {r : BusRequest} (h : askRead s g ask n = some r) :
    r.position ≤ 8 := by
  unfold askRead at h
  dsimp only at h
  split at h
  · split at h
    · rw [← Option.some.inj h]
      change readPosition s (tabGet dRead s.easel.reads n) ≤ 8
      unfold readPosition
      dsimp only
      split
      · decide
      · split <;> decide
    · cases h
  · cases h

theorem askFill_position {s : State} {g n : Nat} {ask : ArbRequest} {r : BusRequest} (h : askFill s g ask n = some r) :
    r.position = 1 := by
  unfold askFill at h
  split at h
  · dsimp only at h
    split at h
    · split at h
      · rw [← Option.some.inj h]
      · cases h
    · cases h
  · cases h

theorem askWriteback_position {s : State} {g w : Nat} {ask : ArbRequest} {r : BusRequest} (h : askWriteback s g ask w = some r) :
    r.position = 1 := by
  unfold askWriteback at h
  split at h
  · split at h
    · split at h
      · rw [← Option.some.inj h]
      · cases h
    · cases h
  · cases h

theorem askDestaged_position {s : State} {g line : Nat} {ask : ArbRequest} {r : BusRequest} (h : askDestaged s g ask line = some r) :
    r.position = 2 := by
  unfold askDestaged at h
  split at h
  · split at h
    · rw [← Option.some.inj h]
    · cases h
  · cases h

theorem askJournal_position {s : State} {g seq : Nat} {ask : ArbRequest} {r : BusRequest} (h : askJournal s g ask seq = some r) :
    r.position = 3 := by
  obtain ⟨t, -, rfl⟩ := Option.map_eq_some_iff.mp h
  rfl

/-- The nine requesters have positions 0 to 8. -/
theorem busRequest_position {s : State} {g : Nat} {ask : ArbRequest} {r : BusRequest} (h : busRequest s g ask = some r) :
    r.position ≤ 8 := by
  cases ask with
  | read id => exact askRead_position h
  | fill n => exact (askFill_position h).trans_le (by decide)
  | writeback set way => exact (askWriteback_position h).trans_le (by decide)
  | destage line => exact (askDestaged_position h).trans_le (by decide)
  | journal seq => exact (askJournal_position h).trans_le (by decide)
  | anchor addr code => exact (askPlace_position h).trans_le (by decide)
  | engineRead position _ _ _ _ _ => exact (askPlace_position h).trans_le (Nat.le_of_lt_succ position.isLt)
  | engineProgram position _ _ _ => exact (askPlace_position h).trans_le (Nat.le_of_lt_succ position.isLt)
  | deepRead _ _ _ => exact (askPlace_position h).trans_le (by decide)
  | swatchRead _ _ _ => exact (askPlace_position h).trans_le (by decide)
  | sweepRead _ _ => exact (askPlace_position h).trans_le (by decide)
  | frame opcode fields =>
    rw [← Option.some.inj h]
  | lock position _ _ _ _ =>
    rw [← Option.some.inj h]
    exact Nat.le_of_lt_succ position.isLt

/-! ### The counts of an arbiter ([2A10]) -/

theorem statBits_grants (group : Group) (position : Fin 9) : statBits (0x2A10 + group.val) (position.val + 1) = 64 := by
  revert group position; decide +kernel

theorem statBits_deadSlots (group : Group) : statBits (0x2A10 + group.val) 0x0D = 64 := by
  revert group; decide +kernel

theorem statBits_idleSlots (group : Group) : statBits (0x2A10 + group.val) 0x0E = 64 := by
  revert group; decide +kernel

theorem statBits_overruns (group : Group) : statBits (0x2A10 + group.val) 0x11 = 32 := by
  revert group; decide +kernel

/-! ### A slot decided with nothing in its way (R262) -/

/-- No locked sequence runs, the slot to come is not reserved, and no RSM is due. -/
structure SlotFree (s : State) (g n : Nat) : Prop where
  lock : (arbOf s g).lock = none
  reserved : ∀ e ∈ (arbOf s g).reserved, e.1 ≠ n
  resumes : (arbOf s g).resumes = []

theorem decideSlot_of_free {s : State} {g n : Nat} (h : SlotFree s g n) (rs : List BusRequest) :
    decideSlot s g n rs =
      (arbWinner s g n rs).elim (bump s (0x2A10 + g) 0x0E 1) (fun r => busUse (bookGrant s g n r) 1) := by
  have hreserved : (arbOf s g).reserved.find? (fun e => e.1 == n) = none :=
    List.find?_eq_none.mpr fun e he => by simp [h.reserved e he]
  have hdue : dueResumes s g n = [] := by
    unfold dueResumes
    rw [h.resumes]
    rfl
  unfold decideSlot
  simp only [h.lock, hreserved, hdue, Option.isSome_none, ne_eq, not_true_eq_false, if_false]
  cases arbWinner s g n rs <;> rfl

theorem SlotFree.congr {s t : State} {g n : Nat} (h : SlotFree s g n) (harb : arbOf t g = arbOf s g) : SlotFree t g n :=
  ⟨harb ▸ h.lock, harb ▸ h.reserved, harb ▸ h.resumes⟩

theorem SlotFree.turned {s : State} {g n : Nat} (h : SlotFree s g n) : SlotFree (slotTurned s g) g n := by
  obtain ⟨hlock, hreserved, hresumes⟩ := h
  constructor <;> rw [arbOf_slotTurned]
  · exact hlock
  · exact hreserved
  · exact hresumes

end Sys2Proof.Machine
end

section
/-! The slot of a phase with nothing in its way goes to the winner (O40; R262, R263, R271). -/
namespace Sys2Proof.Machine

/-! ### What a grant books (R262) -/

section
variable (s : State) (g n : Nat) (r : BusRequest)

theorem arbOf_bookGrant : (arbOf (bookGrant s g n r) g).granted = some r ∧
    (arbOf (bookGrant s g n r) g).pointer = (if rankOf s g r = 0 then (arbOf s g).pointer else (r.position + 1) % 9) ∧
    (arbOf (bookGrant s g n r) g).slot = (arbOf s g).slot ∧ (arbOf (bookGrant s g n r) g).ranks = (arbOf s g).ranks := by
  have hbump (x : State) (sub : Nat) : arbOf (bump x (0x2A10 + g) sub 1) g = arbOf x g := (bump_frame x _ _ _).arbOf (by decide) g
  unfold bookGrant
  extract_lets counted granted
  have hgranted : arbOf granted g = { arbOf s g with
      granted := some r, pointer := if rankOf s g r = 0 then (arbOf s g).pointer else (r.position + 1) % 9 } :=
    arbOf_modArb counted g _
  split
  · rw [arbOf_modArb, hbump, hgranted]
    exact ⟨rfl, rfl, rfl, rfl⟩
  · split
    · rw [arbOf_modArb, hbump, hbump, hgranted]
      exact ⟨rfl, rfl, rfl, rfl⟩
    · rw [arbOf_modArb, hgranted]
      exact ⟨rfl, rfl, rfl, rfl⟩

/-- A grant counts at its requester, and beside it in the counts of deferred frames and locked sequences alone. -/
theorem stat_bookGrant (hposition : r.position ≤ 8) :
    stat (bookGrant s g n r) (0x2A10 + g) (r.position + 1) =
      stat (bump s (0x2A10 + g) (r.position + 1) 1) (0x2A10 + g) (r.position + 1) := by
  have harb (x : State) (f : Arbiter → Arbiter) : stat (modArb x g f) (0x2A10 + g) (r.position + 1) =
      stat x (0x2A10 + g) (r.position + 1) := (modArb_frame x g f).stat (by decide) _ _
  have hother (x : State) (sub : Nat) (hsub : 9 < sub ∧ sub < 256) :
      stat (bump x (0x2A10 + g) sub 1) (0x2A10 + g) (r.position + 1) = stat x (0x2A10 + g) (r.position + 1) := by
    rw [stat_bump, if_neg (by unfold objKey; omega)]
  unfold bookGrant
  extract_lets counted granted
  have hgranted : stat granted (0x2A10 + g) (r.position + 1) = stat counted (0x2A10 + g) (r.position + 1) := harb counted _
  split
  · rw [harb, hother _ 0x0F (by decide), hgranted]
  · split
    · rw [harb, hother _ 0x0B (by decide), hother _ 0x0A (by decide), hgranted]
    · rw [harb, hgranted]

end

theorem decideSlot_won {s : State} {g n : Nat} {rs : List BusRequest} {r : BusRequest} (h : SlotFree s g n)
    (hwin : arbWinner s g n rs = some r) : decideSlot s g n rs = busUse (bookGrant s g n r) 1 := by
  rw [decideSlot_of_free h, hwin, Option.elim_some]

theorem decideSlot_idle {s : State} {g n : Nat} {rs : List BusRequest} (h : SlotFree s g n)
    (hwin : arbWinner s g n rs = none) : decideSlot s g n rs = bump s (0x2A10 + g) 0x0E 1 := by
  rw [decideSlot_of_free h, hwin, Option.elim_none]

/-! ### The slot decided -/

/-- The group is awake, no locked sequence runs, the next slot is not reserved, and no RSM is due. -/
def SlotOpen (s : State) (g : Nat) : Prop :=
  groupAwake s g = true ∧ (arbOf s g).lock = none ∧ (∀ e ∈ (arbOf s g).reserved, e.1 ≠ (arbOf s g).slot + 1) ∧
    (arbOf s g).resumes = []

theorem SlotOpen.slotFree {s : State} {g : Nat} (h : SlotOpen s g) : SlotFree s g ((arbOf s g).slot + 1) :=
  ⟨h.2.1, h.2.2.1, h.2.2.2⟩

theorem lockStep_of_unlocked {s : State} {g : Nat} (h : (arbOf s g).lock = none) : lockStep s g = s := by
  unfold lockStep
  rw [h]

theorem openSlot_of_ungranted {s : State} {g : Nat} (h : (arbOf s g).granted = none) (withdraw : Bool) : openSlot s g withdraw = s := by
  unfold openSlot
  rw [h]

/-- The requests that a phase judges. -/
def phaseRequests (s : State) (g : Nat) (asks : List ArbRequest) : List BusRequest := busRequests (slotTurned s g) g asks

/-- The state that the next slot is decided in. -/
def phaseState (s : State) (g : Nat) (asks : List ArbRequest) : State :=
  asksNoted (slotTurned s g) g (phaseRequests s g asks)

theorem slotDecided_slotTurned (s : State) (g : Nat) (asks : List ArbRequest) : slotDecided (slotTurned s g) g asks =
    quietStep (decideSlot (phaseState s g asks) g ((arbOf s g).slot + 1) (phaseRequests s g asks)) g (phaseRequests s g asks) := by
  have hslot : (arbOf (phaseState s g asks) g).slot = (arbOf s g).slot + 1 := by
    unfold phaseState
    rw [arbOf_asksNoted, arbOf_slotTurned]
  rw [← hslot]
  rfl

section
variable {s : State} {g : Nat} (asks : List ArbRequest)

theorem arbOf_phaseState : arbOf (phaseState s g asks) g = arbOf (slotTurned s g) g := arbOf_asksNoted _ _ _ _

theorem phaseState_frame (s : State) (g : Nat) (asks : List ArbRequest) : Frame [.groups] s (phaseState s g asks) :=
  Frame.step (asksNoted_frame _ _ _) (slotTurned_frame s g) rfl

theorem SlotFree.phase {n : Nat} (h : SlotFree s g n) : SlotFree (phaseState s g asks) g n :=
  h.turned.congr (arbOf_phaseState asks)

/-- With no eligible request the slot is idle. -/
theorem slotDecided_idle (h : SlotFree s g ((arbOf s g).slot + 1))
    (hnone : ∀ r ∈ phaseRequests s g asks, eligible (slotTurned s g) g ((arbOf s g).slot + 1) r = false) :
    slotDecided (slotTurned s g) g asks =
      quietStep (bump (phaseState s g asks) (0x2A10 + g) 0x0E 1) g (phaseRequests s g asks) := by
  rw [slotDecided_slotTurned, decideSlot_idle (h.phase asks) (arbWinner_none fun r hr => ?_)]
  unfold phaseState
  rw [eligible_asksNoted]
  exact hnone r hr

/-- With an eligible request the slot goes to one of the lowest rank, and of the least key at that rank. -/
theorem slotDecided_won (h : SlotFree s g ((arbOf s g).slot + 1))
    (hranks : ∀ k ∈ (arbOf s g).shadow.getD (arbOf s g).ranks, k < 8) {q : BusRequest} (hq : q ∈ phaseRequests s g asks)
    (heligible : eligible (slotTurned s g) g ((arbOf s g).slot + 1) q = true) :
    ∃ r ∈ phaseRequests s g asks, eligible (slotTurned s g) g ((arbOf s g).slot + 1) r = true ∧
      slotDecided (slotTurned s g) g asks =
        quietStep (busUse (bookGrant (phaseState s g asks) g ((arbOf s g).slot + 1) r) 1) g (phaseRequests s g asks) ∧
      (rankOf (slotTurned s g) g r < rankOf (slotTurned s g) g q ∨ (rankOf (slotTurned s g) g r = rankOf (slotTurned s g) g q ∧
        rankKey (slotTurned s g) g (rankOf (slotTurned s g) g r) r ≤ rankKey (slotTurned s g) g (rankOf (slotTurned s g) g r) q)) := by
  have hphase : ∀ k ∈ (arbOf (phaseState s g asks) g).ranks, k < 8 := by
    rw [arbOf_phaseState, arbOf_slotTurned]
    exact hranks
  have heligible' (r : BusRequest) : eligible (phaseState s g asks) g ((arbOf s g).slot + 1) r =
      eligible (slotTurned s g) g ((arbOf s g).slot + 1) r := eligible_asksNoted _ _ _ _ _ _
  have hrank (r : BusRequest) : rankOf (phaseState s g asks) g r = rankOf (slotTurned s g) g r := rankOf_asksNoted _ _ _ _ _
  have hkey (k : Nat) : rankKey (phaseState s g asks) g k = rankKey (slotTurned s g) g k := rankKey_asksNoted _ _ _ _ _
  obtain ⟨r, hwin, hmem, hr, hleast⟩ := arbWinner_least hphase hq ((heligible' q).trans heligible)
  refine ⟨r, hmem, (heligible' r).symm.trans hr, ?_, ?_⟩
  · rw [slotDecided_slotTurned, decideSlot_won (h.phase asks) hwin]
  · have hbeats := hleast q hq ((heligible' q).trans heligible)
    rwa [hrank, hrank, hkey] at hbeats

end

/-- The slot and the ranks of a phase that grants nothing, and its count. -/
theorem slotDecided_idle_after {s t : State} {group : Group} (asks : List ArbRequest)
    (ht : t = quietStep (bump (phaseState s group.val asks) (0x2A10 + group.val) 0x0E 1) group.val (phaseRequests s group.val asks)) :
    (∃ q, arbOf t group.val = { arbOf (slotTurned s group.val) group.val with quiet := q }) ∧
      stat t (0x2A10 + group.val) 0x0E = (stat s (0x2A10 + group.val) 0x0E + 1) % 2 ^ 64 := by
  subst ht
  constructor
  · obtain ⟨q, hq⟩ := arbOf_quietStep (bump (phaseState s group.val asks) (0x2A10 + group.val) 0x0E 1) group.val
      (phaseRequests s group.val asks)
    refine ⟨q, ?_⟩
    rw [hq, (bump_frame _ _ _ _).arbOf (by decide), arbOf_phaseState]
  · rw [(quietStep_frame _ _ _).stat (by decide), stat_bump_self (statBits_idleSlots group), (phaseState_frame s _ asks).stat (by decide)]
    rfl

/-- A granted slot: the grant, its count, and the pointer past the winner (R262). -/
theorem slotDecided_won_after {s t : State} {group : Group} (asks : List ArbRequest) {r : BusRequest} (hposition : r.position ≤ 8)
    (ht : t = quietStep (busUse (bookGrant (phaseState s group.val asks) group.val ((arbOf s group.val).slot + 1) r) 1) group.val
      (phaseRequests s group.val asks)) :
    (arbOf t group.val).granted = some r ∧
      (arbOf t group.val).pointer =
        (if rankOf (slotTurned s group.val) group.val r = 0 then (arbOf s group.val).pointer else (r.position + 1) % 9) ∧
      (arbOf t group.val).slot = (arbOf s group.val).slot + 1 ∧
      (arbOf t group.val).ranks = (arbOf s group.val).shadow.getD (arbOf s group.val).ranks ∧
      stat t (0x2A10 + group.val) (r.position + 1) = (stat s (0x2A10 + group.val) (r.position + 1) + 1) % 2 ^ 64 := by
  subst ht
  obtain ⟨hgranted, hpointer, hslot, hranks⟩ := arbOf_bookGrant (phaseState s group.val asks) group.val ((arbOf s group.val).slot + 1) r
  have hrank : rankOf (phaseState s group.val asks) group.val r = rankOf (slotTurned s group.val) group.val r :=
    rankOf_asksNoted _ _ _ _ _
  rw [hrank] at hpointer
  rw [arbOf_phaseState, arbOf_slotTurned] at hpointer hslot hranks
  obtain ⟨q, hq⟩ := arbOf_quietStep (busUse (bookGrant (phaseState s group.val asks) group.val ((arbOf s group.val).slot + 1) r) 1)
    group.val (phaseRequests s group.val asks)
  rw [hq, (busUse_frame _ _).arbOf (by decide)]
  refine ⟨hgranted, hpointer, hslot, hranks, ?_⟩
  rw [(quietStep_frame _ _ _).stat (by decide), (busUse_frame _ _).stat (by decide), stat_bookGrant _ _ _ _ hposition,
    stat_bump_self (statBits_grants group ⟨r.position, Nat.lt_succ_of_le hposition⟩), (phaseState_frame s _ asks).stat (by decide)]
  rfl

theorem completes_arbitrationPhase_free (group : Group) (asks : List ArbRequest) (withdraw : Bool) :
    Completes (.arbitrationPhase group asks withdraw)
      [.mgmt, .folio, .ledger, .thermal, .groups, .easel, .palette, .queues, .perf, .path, .stats, .out]
      (fun s => SlotOpen s group.val ∧ (arbOf s group.val).granted = none ∧ sleepOf s group.val = 0 ∧
        ∀ k ∈ (arbOf s group.val).shadow.getD (arbOf s group.val).ranks, k < 8)
      (fun s t =>
        (arbOf t group.val).slot = (arbOf s group.val).slot + 1 ∧
        (arbOf t group.val).ranks = (arbOf s group.val).shadow.getD (arbOf s group.val).ranks ∧
        ((∀ r, ¬ ((∃ a ∈ asks, busRequest (slotTurned s group.val) group.val a = some r) ∧
            eligible (slotTurned s group.val) group.val ((arbOf s group.val).slot + 1) r = true)) →
          (arbOf t group.val).granted = none ∧
            stat t (0x2A10 + group.val) 0x0E = (stat s (0x2A10 + group.val) 0x0E + 1) % 2 ^ 64) ∧
        ∀ q, ((∃ a ∈ asks, busRequest (slotTurned s group.val) group.val a = some q) ∧
            eligible (slotTurned s group.val) group.val ((arbOf s group.val).slot + 1) q = true) →
          ∃ r, (arbOf t group.val).granted = some r ∧
            ((∃ a ∈ asks, busRequest (slotTurned s group.val) group.val a = some r) ∧
              eligible (slotTurned s group.val) group.val ((arbOf s group.val).slot + 1) r = true) ∧
            stat t (0x2A10 + group.val) (r.position + 1) = (stat s (0x2A10 + group.val) (r.position + 1) + 1) % 2 ^ 64 ∧
            (arbOf t group.val).pointer =
              (if rankOf (slotTurned s group.val) group.val r = 0 then (arbOf s group.val).pointer else (r.position + 1) % 9) ∧
            (rankOf (slotTurned s group.val) group.val r < rankOf (slotTurned s group.val) group.val q ∨
              (rankOf (slotTurned s group.val) group.val r = rankOf (slotTurned s group.val) group.val q ∧
                (if rankOf (slotTurned s group.val) group.val r = 0 then agedKey r ≤ agedKey q
                  else pointerKey (slotTurned s group.val) group.val r ≤ pointerKey (slotTurned s group.val) group.val q)))) := by
  intro s ⟨hopen, hgranted, hsleep, hranks⟩
  have hfree := hopen.slotFree
  obtain ⟨t, ht, hframe⟩ := execArbitrationPhase_frame group asks withdraw s
  have hexec := exec_arbitrationPhase hopen.1 asks withdraw
  rw [sleepLeft_of_awake hsleep, openSlot_of_ungranted hgranted, lockStep_of_unlocked hopen.2.1] at hexec
  obtain rfl := Host.Outcome.next.inj (ht.symm.trans hexec)
  refine ⟨_, hexec, hframe, ?_⟩
  by_cases hany : ∃ q ∈ phaseRequests s group.val asks,
      eligible (slotTurned s group.val) group.val ((arbOf s group.val).slot + 1) q = true
  · have hwon {q : BusRequest} (hq : q ∈ phaseRequests s group.val asks)
        (heligible : eligible (slotTurned s group.val) group.val ((arbOf s group.val).slot + 1) q = true) :=
      slotDecided_won asks hfree hranks hq heligible
    obtain ⟨q, hq, heligible⟩ := hany
    obtain ⟨r, hr, -, hdecided, -⟩ := hwon hq heligible
    obtain ⟨a, -, ha⟩ := mem_busRequests.mp hr
    obtain ⟨-, -, hslot, hactive, -⟩ := slotDecided_won_after asks (busRequest_position ha) hdecided
    refine ⟨hslot, hactive, fun hcan => absurd ⟨mem_busRequests.mp hq, heligible⟩ (hcan q), fun q ⟨hask, heligible⟩ => ?_⟩
    obtain ⟨r, hr, hwinner, hdecided, hleast⟩ := hwon (mem_busRequests.mpr hask) heligible
    obtain ⟨a, hmem, ha⟩ := mem_busRequests.mp hr
    obtain ⟨hgrant, hpointer, -, -, hcount⟩ := slotDecided_won_after asks (busRequest_position ha) hdecided
    refine ⟨r, hgrant, ⟨⟨a, hmem, ha⟩, hwinner⟩, hcount, hpointer, hleast.imp_right fun ⟨hsame, hkey⟩ => ⟨hsame, ?_⟩⟩
    unfold rankKey at hkey
    split at hkey
    · next hzero => rwa [if_pos hzero]
    · next hzero => rwa [if_neg hzero]
  · have hnone : ∀ r ∈ phaseRequests s group.val asks,
        eligible (slotTurned s group.val) group.val ((arbOf s group.val).slot + 1) r = false := fun r hr =>
      Bool.eq_false_of_not_eq_true fun h => hany ⟨r, hr, h⟩
    obtain ⟨⟨quiet, harb⟩, hcount⟩ := slotDecided_idle_after asks (slotDecided_idle asks hfree hnone)
    rw [arbOf_slotTurned] at harb
    beta_reduce
    rw [harb]
    exact ⟨rfl, rfl, fun _ => ⟨hgranted, hcount⟩, fun q ⟨hask, heligible⟩ =>
      absurd ⟨q, mem_busRequests.mpr hask, heligible⟩ hany⟩

end Sys2Proof.Machine
end

section
/-! The grant that owns a slot goes out or leaves it dead, and a locked sequence ends after its slots (O40; R235, R239, R248,
R267 to R269). -/
namespace Sys2Proof.Machine

/-! ### The dead slot (R269) -/

/-- The arbiter gives the slot in progress to no one else. -/
def grantTaken (s : State) (g : Nat) : State := modArb s g (fun a => { a with granted := none })

theorem openSlot_dead {s : State} {g : Nat} {r : BusRequest} (hgranted : (arbOf s g).granted = some r) {withdraw : Bool}
    (h : withdraw = true ∨ busRequest s g r.ask = none) : openSlot s g withdraw = deadSlot (grantTaken s g) g r := by
  unfold openSlot
  rw [hgranted]
  exact if_pos (by rcases h with h | h <;> simp [h])

theorem arbOf_deadSlot {s : State} {g : Nat} {r : BusRequest} (hlock : (arbOf s g).lock = none) :
    ∃ dq, arbOf (deadSlot (grantTaken s g) g r) g =
      { arbOf s g with granted := none, reserved := (arbOf s g).reserved.filter (fun e => e.2 ≠ r), dq := dq } := by
  have htaken : arbOf (bump (grantTaken s g) (0x2A10 + g) 0x0D 1) g = { arbOf s g with granted := none } :=
    ((bump_frame _ _ _ _).arbOf (by decide) g).trans (arbOf_modArb s g _)
  unfold deadSlot
  dsimp only
  rw [arbOf_modArb, htaken, hlock]
  split <;> exact ⟨_, rfl⟩

/-- A phase with no request whose slot falls dead sends nothing, counts the slot, and frees what was reserved for the grant. -/
theorem completes_arbitrationPhase_dead (group : Group) (r : BusRequest) (withdraw : Bool) {before : State → Prop}
    (hbefore : ∀ s, before s → SlotOpen s group.val ∧ (arbOf s group.val).granted = some r ∧ sleepOf s group.val = 0 ∧
      (withdraw = true ∨ busRequest s group.val r.ask = none)) :
    Completes (.arbitrationPhase group [] withdraw)
      [.mgmt, .folio, .ledger, .thermal, .groups, .easel, .palette, .queues, .perf, .path, .stats, .out] before
      (fun s t => t.out = s.out ∧ stat t (0x2A10 + group.val) 0x0D = (stat s (0x2A10 + group.val) 0x0D + 1) % 2 ^ 64 ∧
        ∀ e ∈ (arbOf t group.val).reserved, e.2 ≠ r) := by
  intro s hs
  obtain ⟨⟨hawake, hlock, hreserved, hresumes⟩, hgranted, hsleep, hdead⟩ := hbefore s hs
  obtain ⟨t, ht, hframe⟩ := execArbitrationPhase_frame group [] withdraw s
  have hexec := exec_arbitrationPhase hawake [] withdraw
  obtain ⟨dq, harb⟩ := arbOf_deadSlot (r := r) hlock
  have htaken : Frame [.groups] s (grantTaken s group.val) := modArb_frame s _ _
  have hslot : Frame [.groups, .stats] s (deadSlot (grantTaken s group.val) group.val r) :=
    Frame.step (deadSlot_frame _ _ _) (htaken.mono rfl) rfl
  have hcount : stat (deadSlot (grantTaken s group.val) group.val r) (0x2A10 + group.val) 0x0D =
      (stat s (0x2A10 + group.val) 0x0D + 1) % 2 ^ 64 := by
    unfold deadSlot
    dsimp only
    rw [(modArb_frame _ _ _).stat (by decide), stat_bump_self (statBits_deadSlots group), htaken.stat (by decide)]
    rfl
  rw [sleepLeft_of_awake hsleep, openSlot_dead hgranted hdead, lockStep_of_unlocked (by rw [harb]; exact hlock)] at hexec
  generalize deadSlot (grantTaken s group.val) group.val r = x at hexec harb hslot hcount
  have hfree : SlotFree x group.val ((arbOf x group.val).slot + 1) := by
    constructor <;> rw [harb]
    · exact hlock
    · exact fun e he => hreserved e (List.mem_filter.mp he).1
    · exact hresumes
  have hidle := slotDecided_idle [] hfree fun q hq => by cases hq
  obtain ⟨⟨quiet, hquiet⟩, -⟩ := slotDecided_idle_after [] hidle
  rw [hidle] at hexec hquiet
  obtain rfl := Host.Outcome.next.inj (ht.symm.trans hexec)
  refine ⟨_, hexec, hframe, ?_, ?_, ?_⟩
  · rw [(quietStep_frame _ _ _).out_eq (by decide), (bump_frame _ _ _ _).out_eq (by decide),
      (phaseState_frame x _ _).out_eq (by decide), hslot.out_eq (by decide)]
  · rw [(quietStep_frame _ _ _).stat (by decide), stat_bump, if_neg (by unfold objKey; omega),
      (phaseState_frame x _ _).stat (by decide), hcount]
  · rw [hquiet, arbOf_slotTurned, harb]
    exact fun e he => of_decide_eq_true (List.mem_filter.mp he).2

/-! ### What has left the device stays in its output -/

theorem lockStep_out_suffix (s : State) (g : Nat) : s.out <:+ (lockStep s g).out := by
  unfold lockStep
  split
  · exact List.suffix_rfl
  · next l _ =>
    split
    · unfold lockOverrun
      extract_lets counted unlocked abandoned
      have hunlocked : Frame [.groups, .stats] s unlocked :=
        Frame.step (modArb_frame _ _ _) (Frame.step (maxStat_frame _ _ _ _) ((bump_frame s _ _ _).mono rfl) rfl) rfl
      have habandoned : Frame [.groups, .queues, .perf, .stats] s abandoned :=
        Frame.ite (Frame.step (abandonMove_frame _ _ _) (hunlocked.mono rfl) rfl) (hunlocked.mono rfl)
      exact (habandoned.out_suffix (by decide)).trans (raise_out_suffix _ _ _)
    · have harb (f : Arbiter → Arbiter) : s.out <:+ (modArb s g f).out := (modArb_frame s g f).out_suffix (by decide)
      split
      · exact (harb _).trans ((maxStat_frame _ _ _ _).out_suffix (by decide))
      · exact (harb _).trans ((bump_frame _ _ _ _).out_suffix (by decide))

theorem sendFrame_out_suffix (s : State) (ch bits : Nat) : s.out <:+ (sendFrame s ch bits).out := by
  unfold sendFrame
  rw [(modGroup_frame _ _ _).out_eq (by decide)]
  exact emit_out_suffix s _

theorem foldl_out_suffix {α : Type} {f : State → α → State} (hf : ∀ x a, x.out <:+ (f x a).out) (l : List α) (s : State) :
    s.out <:+ (l.foldl f s).out :=
  List.foldlRecOn (motive := fun t : State => s.out <:+ t.out) l f List.suffix_rfl fun _ hx a _ => hx.trans (hf _ a)

theorem issueResumes_out_suffix (s : State) (g : Nat) (xs : List ResumeRec) : s.out <:+ (issueResumes s g xs).out := by
  unfold issueResumes
  dsimp only
  rw [(modArb_frame _ _ _).out_eq (by decide)]
  refine foldl_out_suffix (fun x a => ?_) xs s
  have hsent := (sendFrame_out_suffix x (8 * g + a.column) (caBits 5 (a.bank * 2 ^ 36))).trans
    ((latchBank_frame _ g a.column a.bank 0).out_suffix (by decide))
  split
  · exact hsent.trans ((bump_frame _ _ _ _).out_suffix (by decide))
  · exact hsent

theorem decideSlot_out_suffix (s : State) (g n : Nat) (rs : List BusRequest) : s.out <:+ (decideSlot s g n rs).out := by
  have hbus (x : State) : x.out <:+ (busUse x 1).out := (busUse_frame x 1).out_suffix (by decide)
  have harb (f : Arbiter → Arbiter) : s.out <:+ (modArb s g f).out := (modArb_frame s g f).out_suffix (by decide)
  unfold decideSlot
  dsimp only
  split
  · exact (harb _).trans (hbus _)
  · split
    · exact (harb _).trans (hbus _)
    · split
      · exact (issueResumes_out_suffix s g _).trans (hbus _)
      · split
        · exact ((bookGrant_frame s g n _).out_suffix (by decide)).trans (hbus _)
        · exact (bump_frame s _ _ _).out_suffix (by decide)

theorem slotDecided_out_suffix (s : State) (g : Nat) (asks : List ArbRequest) : s.out <:+ (slotDecided s g asks).out :=
  (((asksNoted_frame s g _).out_suffix (by decide)).trans (decideSlot_out_suffix _ _ _ _)).trans
    ((quietStep_frame _ _ _).out_suffix (by decide))

/-! ### The frames of a grant (R235, R237 to R239, R248) -/

theorem latchedAt_latchBank {s : State} {g c d : Nat} (hcd : d ≠ c) (b v a : Nat) :
    latchedAt (latchBank s g c (b % 256) v) g d a = latchedAt s g d a := by
  unfold latchedAt latchBank
  rw [arbOf_modArb, tabGet_set, if_neg (by omega)]

/-- The frame of a read on a column: an SRD where the bank last read that index and the codes are shifted. -/
def readFrame (s : State) (g : Nat) (r : BusRequest) (codes : List Nat) (shifted : Bool) (c : Nat) : Output :=
  .caFrame (8 * g + c) (caBits (if shifted && latchedAt s g c (reqAddr r c) then 2 else 1)
    (addrBody (reqAddr r c) + codes.getD c 0 * 8))

/-- A column's frame of a read, and what it leaves latched. -/
def readSent (g : Nat) (r : BusRequest) (codes : List Nat) (shifted : Bool) (s : State) (c : Nat) : State :=
  latchBank (emit s (readFrame s g r codes shifted c)) g c (reqAddr r c % 256) (reqAddr r c / 256 + 1)

theorem issueFrames_read {s : State} {g : Nat} {r : BusRequest} {codes : List Nat} {shifted : Bool} (h : r.op = .read codes shifted) :
    issueFrames s g r = r.cols.foldl (readSent g r codes shifted) s := by
  unfold issueFrames
  rw [h]
  rfl

theorem readSent_out (g : Nat) (r : BusRequest) (codes : List Nat) (shifted : Bool) (s : State) (c : Nat) :
    (readSent g r codes shifted s c).out = readFrame s g r codes shifted c :: s.out := rfl

theorem readFrame_readSent {g : Nat} {r : BusRequest} {codes : List Nat} {shifted : Bool} {s : State} {c d : Nat} (hcd : d ≠ c) :
    readFrame (readSent g r codes shifted s c) g r codes shifted d = readFrame s g r codes shifted d := by
  have hlatched : latchedAt (readSent g r codes shifted s c) g d (reqAddr r d) = latchedAt s g d (reqAddr r d) :=
    latchedAt_latchBank hcd _ _ _
  unfold readFrame
  rw [hlatched]

theorem readFrame_mem {g : Nat} {r : BusRequest} {codes : List Nat} {shifted : Bool} {cols : List Nat} (hcols : cols.Nodup) {s : State}
    {c : Nat} (hc : c ∈ cols) : readFrame s g r codes shifted c ∈ (cols.foldl (readSent g r codes shifted) s).out := by
  induction cols generalizing s with
  | nil => cases hc
  | cons d cols ih =>
    obtain ⟨hd, hcols⟩ := List.nodup_cons.mp hcols
    rw [List.foldl_cons]
    obtain rfl | hc := List.mem_cons.mp hc
    · have hgrows := foldl_out_suffix (f := readSent g r codes shifted) (fun x a => List.suffix_cons _ _) cols
        (readSent g r codes shifted s c)
      exact hgrows.subset (by rw [readSent_out]; exact List.mem_cons_self)
    · rw [← readFrame_readSent (c := d) (fun h => hd (h ▸ hc))]
      exact ih hcols hc

/-- A column's frame of a program, and its data burst. -/
def programSent (g : Nat) (r : BusRequest) (code : List Byte) (s : State) (c : Nat) : State :=
  latchBank (emit s (.caFrame (8 * g + c) (programFrame (reqAddr r c) (patchOfSymbols code c)))) g c (reqAddr r c % 256) 0

def burstSent (g : Nat) (code : List Byte) (s : State) (c : Nat) : State :=
  emit s (.burst (8 * g + c) (patchBytes (patchOfSymbols code c)))

theorem issueFrames_program {s : State} {g : Nat} {r : BusRequest} {code : List Byte} {through : Bool}
    (h : r.op = .program code through) :
    issueFrames s g r = r.cols.foldl (burstSent g code) (r.cols.foldl (programSent g r code) s) := by
  unfold issueFrames
  rw [h]
  rfl

/-- A fold whose step puts out a column's frame, and keeps what is out, puts out the frame of every column. -/
theorem mem_out_foldl {f : State → Nat → State} {o : Nat → Output} (hf : ∀ x c, (f x c).out = o c :: x.out) {cols : List Nat} {c : Nat}
    (hc : c ∈ cols) (s : State) : o c ∈ (cols.foldl f s).out :=
  foldl_holds_of_mem (Inv := fun _ => True) (P := fun x => o c ∈ x.out) (fun _ _ h => h)
    (fun x a h => by rw [hf]; exact List.mem_cons_of_mem _ h) (fun x _ => by rw [hf]; exact List.mem_cons_self) hc trivial

theorem programFrames_mem {s : State} {g : Nat} {r : BusRequest} {code : List Byte} {through : Bool} (h : r.op = .program code through)
    {c : Nat} (hc : c ∈ r.cols) :
    Output.caFrame (8 * g + c) (programFrame (reqAddr r c) (patchOfSymbols code c)) ∈ (issueFrames s g r).out ∧
      Output.burst (8 * g + c) (patchBytes (patchOfSymbols code c)) ∈ (issueFrames s g r).out := by
  rw [issueFrames_program h]
  constructor
  · exact (foldl_out_suffix (fun x a => emit_out_suffix x _) r.cols _).subset
      (mem_out_foldl (f := programSent g r code) (fun _ _ => rfl) hc s)
  · exact mem_out_foldl (f := burstSent g code) (fun _ _ => rfl) hc _

theorem openSlot_sent {s : State} {g : Nat} {r : BusRequest} (hgranted : (arbOf s g).granted = some r)
    (hstands : (busRequest s g r.ask).isSome = true) (hreserved : ∀ e ∈ (arbOf s g).reserved, e.2 ≠ r) :
    openSlot s g false = markSent (noteBanks (issueFrames (grantTaken s g) g r) g (arbOf s g).slot r) g r := by
  have hnone : (arbOf s g).reserved.find? (fun e => decide (e.2 = r)) = none :=
    List.find?_eq_none.mpr fun e he => by simp [hreserved e he]
  obtain ⟨q, hq⟩ := Option.isSome_iff_exists.mp hstands
  unfold openSlot
  simp only [hgranted, hq, hnone, Option.isNone_some, Bool.or_false, Bool.false_eq_true, if_false]
  rfl

/-- What the frames of the grant put out stands in the output of the phase. -/
theorem completes_arbitrationPhase_sent (group : Group) (r : BusRequest) {before : State → Prop} {out : State → Output → Prop}
    (hbefore : ∀ s, before s → SlotOpen s group.val ∧ (arbOf s group.val).granted = some r ∧ sleepOf s group.val = 0 ∧
      (busRequest s group.val r.ask).isSome = true ∧ ∀ e ∈ (arbOf s group.val).reserved, e.2 ≠ r)
    (hout : ∀ s, before s → ∀ o, out s o → o ∈ (issueFrames (grantTaken s group.val) group.val r).out) :
    Completes (.arbitrationPhase group [] false)
      [.mgmt, .folio, .ledger, .thermal, .groups, .easel, .palette, .queues, .perf, .path, .stats, .out] before
      (fun s t => ∀ o, out s o → o ∈ t.out) := by
  intro s hs
  obtain ⟨hopen, hgranted, hsleep, hstands, hreserved⟩ := hbefore s hs
  obtain ⟨t, ht, hframe⟩ := execArbitrationPhase_frame group [] false s
  have hexec := exec_arbitrationPhase hopen.1 [] false
  rw [sleepLeft_of_awake hsleep, openSlot_sent hgranted hstands hreserved] at hexec
  obtain rfl := Host.Outcome.next.inj (ht.symm.trans hexec)
  refine ⟨_, hexec, hframe, fun o ho => ?_⟩
  have hnoted := (noteBanks_frame (issueFrames (grantTaken s group.val) group.val r) group.val (arbOf s group.val).slot r).out_suffix
    (by decide)
  have hmarked := hnoted.trans ((markSent_frame _ group.val r).out_suffix (by decide))
  have hturned := (hmarked.trans (lockStep_out_suffix _ group.val)).trans ((slotTurned_frame _ group.val).out_suffix (by decide))
  exact (hturned.trans (slotDecided_out_suffix _ _ _)).subset (hout s hs o ho)

theorem readFrame_grantTaken (s : State) (g : Nat) (r : BusRequest) (codes : List Nat) (shifted : Bool) (c : Nat) :
    readFrame (grantTaken s g) g r codes shifted c = readFrame s g r codes shifted c := by
  unfold readFrame latchedAt grantTaken
  rw [arbOf_modArb]

/-! ### Locked sequences (R267, R268) -/

theorem lockStep_runs_on {s : State} {g : Nat} {l : LockRec} (hlock : (arbOf s g).lock = some l) (hrun : l.run + 1 < l.slots)
    (hshort : l.run < 63 ∨ l.slots ≤ 64) : (arbOf (lockStep s g) g).lock = some { l with run := l.run + 1 } := by
  unfold lockStep
  rw [hlock]
  dsimp only
  rw [if_neg (by omega), if_neg (by omega), (bump_frame _ _ _ _).arbOf (by decide), arbOf_modArb]

/-- The frame of a locked slot is one of the owner's. -/
theorem lockedFrame_position {s : State} {g n : Nat} {rs : List BusRequest} {l : LockRec} {r : BusRequest}
    (hlock : (arbOf s g).lock = some l) (h : lockedFrame s g n rs = some r) : r.position = l.position := by
  have howner := List.find?_some h
  simp only [hlock, Option.any_some, Bool.and_eq_true, beq_iff_eq] at howner
  exact howner.1.1.symm

theorem arbOf_decideSlot_locked {s : State} {g : Nat} {l : LockRec} (hlock : (arbOf s g).lock = some l) (n : Nat)
    (rs : List BusRequest) : (arbOf (decideSlot s g n rs) g).lock = some l ∧
      ∀ r, (arbOf (decideSlot s g n rs) g).granted = some r → r.position = l.position := by
  unfold decideSlot
  rw [if_pos (by rw [hlock]; rfl)]
  dsimp only
  rw [(busUse_frame _ _).arbOf (by decide), arbOf_modArb]
  exact ⟨hlock, fun r hr => lockedFrame_position hlock hr⟩

theorem completes_arbitrationPhase_locked (group : Group) (asks : List ArbRequest) (withdraw : Bool) (l : LockRec) :
    Completes (.arbitrationPhase group asks withdraw)
      [.mgmt, .folio, .ledger, .thermal, .groups, .easel, .palette, .queues, .perf, .path, .stats, .out]
      (fun s => groupAwake s group.val = true ∧ (arbOf s group.val).granted = none ∧ (arbOf s group.val).lock = some l ∧
        l.run + 1 < l.slots ∧ (l.run < 63 ∨ l.slots ≤ 64))
      (fun _ t => (arbOf t group.val).lock = some { l with run := l.run + 1 } ∧
        ∀ r, (arbOf t group.val).granted = some r → r.position = l.position) := by
  intro s ⟨hawake, hgranted, hlock, hrun, hshort⟩
  obtain ⟨t, ht, hframe⟩ := execArbitrationPhase_frame group asks withdraw s
  have hexec := exec_arbitrationPhase hawake asks withdraw
  have hleft : arbOf (sleepLeft s group.val asks) group.val = arbOf s group.val :=
    (Frame.ite (U := [.thermal]) (setSleep_frame s _ _) (.refl _ s)).arbOf (by decide) _
  rw [openSlot_of_ungranted (by rw [hleft]; exact hgranted)] at hexec
  have hruns := lockStep_runs_on ((congrArg Arbiter.lock hleft).trans hlock) hrun hshort
  obtain rfl := Host.Outcome.next.inj (ht.symm.trans hexec)
  refine ⟨_, hexec, hframe, ?_⟩
  generalize lockStep (sleepLeft s group.val asks) group.val = x at hruns
  have hnoted : (arbOf (phaseState x group.val asks) group.val).lock = some { l with run := l.run + 1 } := by
    rw [arbOf_phaseState, arbOf_slotTurned]
    exact hruns
  rw [slotDecided_slotTurned]
  obtain ⟨q, hq⟩ := arbOf_quietStep (decideSlot (phaseState x group.val asks) group.val ((arbOf x group.val).slot + 1)
    (phaseRequests x group.val asks)) group.val (phaseRequests x group.val asks)
  rw [hq]
  exact arbOf_decideSlot_locked hnoted _ _

end Sys2Proof.Machine
end

section
/-! A locked sequence cut at its 64th slot (R268), and the phases of the arbiter together (O40). -/
namespace Sys2Proof.Machine

/-! ### An abandoned move (R268) -/

theorem GroupsNoted.arbOf {s t : State} (h : GroupsNoted s t) (g : Nat) : arbOf t g = arbOf s g := by
  unfold Machine.arbOf
  rw [h g]

theorem arbOf_abandonMove (s : State) (g region : Nat) : arbOf (abandonMove s g region) g = arbOf s g := by
  have harb (x : State) (f : GroupRec → GroupRec) (hf : ∀ y, (f y).arb = y.arb) : arbOf (modGroup x g f) g = arbOf x g := by
    unfold arbOf
    rw [groupOf_modGroup_self, hf]
  unfold abandonMove
  split
  · split
    · rw [harb]
      exact fun _ => rfl
    · rfl
  · split
    · split
      · rw [harb, (jqPush_groupsNoted s g _).arbOf]
        exact fun _ => rfl
      · rfl
    · rw [harb]
      exact fun _ => rfl

theorem abandonMove_indexStatsKept {idx g : Nat} (hidx : queueIdx g ≠ idx) (s : State) (region : Nat) :
    IndexStatsKept idx s (abandonMove s g region) := by
  have hgroup (x : State) (f : GroupRec → GroupRec) : IndexStatsKept idx x (modGroup x g f) :=
    (modGroup_frame x g f).indexStatsKept (by decide) idx
  unfold abandonMove
  split
  · split
    · exact hgroup s _
    · exact fun _ _ => rfl
  · split
    · split
      · exact (jqPush_indexStatsKept hidx s _).trans (hgroup _ _)
      · exact fun _ _ => rfl
    · exact hgroup s _

theorem groupOf_abandonMove_gapStep {s : State} {g : Nat} {j : GapJob} (h : (groupOf s g).gapJob = some j) :
    groupOf (abandonMove s g j.region) g = { groupOf s g with gapJob := none, steps := j.region :: (groupOf s g).steps } := by
  unfold abandonMove
  rw [h]
  dsimp only
  rw [if_pos rfl, groupOf_modGroup_self]

/-! ### The cut of a locked sequence (R268) -/

/-- A cut counted, and the lock released. -/
def lockCut (s : State) (g : Nat) : State :=
  modArb (maxStat (bump s (0x2A10 + g) 0x11 1) (0x2A10 + g) 0x0C 64) g (fun a => { a with lock := none })

/-- The move of a cut sequence of rotation is abandoned. -/
def moveCut (s : State) (g : Nat) (l : LockRec) : State :=
  if l.position = 5 then abandonMove (lockCut s g) g l.region else lockCut s g

theorem lockOverrun_eq (s : State) (g : Nat) (l : LockRec) :
    lockOverrun s g l = raise (moveCut s g l) 0x2A01 (leBytes 1 g ++ leBytes 1 l.position ++ leBytes 2 l.region) := rfl

theorem groupOf_lockCut (s : State) (g : Nat) :
    groupOf (lockCut s g) g = { groupOf s g with arb := { arbOf s g with lock := none } } := by
  have hcounted : groupOf (maxStat (bump s (0x2A10 + g) 0x11 1) (0x2A10 + g) 0x0C 64) g = groupOf s g :=
    ((maxStat_frame _ _ _ _).groupOf (by decide) g).trans ((bump_frame _ _ _ _).groupOf (by decide) g)
  unfold lockCut modArb
  rw [groupOf_modGroup_self, hcounted]
  rfl

theorem stat_maxStat_of_ne {s : State} {idx sub i j : Nat} (h : objKey i j ≠ objKey idx sub) (v : Int) :
    stat (maxStat s idx sub v) i j = stat s i j := by
  unfold maxStat
  split
  · rw [stat_setStat, if_neg h]
  · rfl

section
variable (s : State) (group : Group) (l : LockRec)

theorem arbOf_lockOverrun : (arbOf (lockOverrun s group.val l) group.val).lock = none := by
  have hcut : (arbOf (lockCut s group.val) group.val).lock = none := by
    unfold arbOf
    rw [groupOf_lockCut]
  rw [lockOverrun_eq, (raise_frame _ _ _).arbOf (by decide)]
  unfold moveCut
  split
  · rw [arbOf_abandonMove, hcut]
  · exact hcut

theorem stat_lockOverrun : stat (lockOverrun s group.val l) (0x2A10 + group.val) 0x11 =
    (stat s (0x2A10 + group.val) 0x11 + 1) % 2 ^ 32 := by
  have hcut : stat (lockCut s group.val) (0x2A10 + group.val) 0x11 = (stat s (0x2A10 + group.val) 0x11 + 1) % 2 ^ 32 := by
    unfold lockCut
    rw [(modArb_frame _ _ _).stat (by decide), stat_maxStat_of_ne (by unfold objKey; omega), stat_bump_self (statBits_overruns group)]
    rfl
  rw [lockOverrun_eq, raise_indexStatsKept (by omega) _ _ _ _ (by decide), ← hcut]
  unfold moveCut
  split
  · exact abandonMove_indexStatsKept (by unfold queueIdx; omega) _ _ _ (by decide)
  · rfl

theorem groupOf_lockOverrun {j : GapJob} (hposition : l.position = 5) (hjob : (groupOf s group.val).gapJob = some j)
    (hregion : j.region = l.region) : (groupOf (lockOverrun s group.val l) group.val).gapJob = none ∧
      (groupOf (lockOverrun s group.val l) group.val).steps = j.region :: (groupOf s group.val).steps := by
  have hjob' : (groupOf (lockCut s group.val) group.val).gapJob = some j := by
    rw [groupOf_lockCut]
    exact hjob
  rw [lockOverrun_eq, (raise_frame _ _ _).groupOf (by decide)]
  unfold moveCut
  rw [if_pos hposition, ← hregion, groupOf_abandonMove_gapStep hjob', groupOf_lockCut]
  exact ⟨rfl, rfl⟩

end

section
variable (group : Group)

theorem exec_lockOverrun {s : State} {l : LockRec} (h : (arbOf s group.val).lock = some l) : exec (.lockOverrun group) s =
    if 63 ≤ l.run ∧ 64 < l.slots then .next (lockOverrun s group.val l) else .next s := by
  change execLockOverrun group s = _
  unfold execLockOverrun
  rw [h]

theorem completes_lockOverrun (l : LockRec) :
    Completes (.lockOverrun group) [.mgmt, .folio, .ledger, .groups, .queues, .perf, .stats, .out]
      (fun s => (arbOf s group.val).lock = some l ∧ 63 ≤ l.run ∧ 64 < l.slots)
      (fun s t => (arbOf t group.val).lock = none ∧
        stat t (0x2A10 + group.val) 0x11 = (stat s (0x2A10 + group.val) 0x11 + 1) % 2 ^ 32 ∧
        (l.position = 5 → ∀ j, (groupOf s group.val).gapJob = some j → j.region = l.region →
          (groupOf t group.val).gapJob = none ∧ (groupOf t group.val).steps = j.region :: (groupOf s group.val).steps)) := by
  intro s ⟨hlock, hlong⟩
  refine ⟨_, (exec_lockOverrun group hlock).trans (if_pos hlong), lockOverrun_frame s _ l, arbOf_lockOverrun s group l,
    stat_lockOverrun s group l, fun hposition j => groupOf_lockOverrun s group l hposition⟩

theorem completes_lockOverrun_short (l : LockRec) :
    Completes (.lockOverrun group) []
      (fun s => (arbOf s group.val).lock = some l ∧ (l.run < 63 ∨ l.slots ≤ 64)) (fun _ _ => True) := by
  intro s ⟨hlock, hshort⟩
  exact ⟨s, (exec_lockOverrun group hlock).trans (if_neg (by omega)), .refl _ s, trivial⟩

theorem completes_lockOverrun_unlocked :
    Completes (.lockOverrun group) [] (fun s => (arbOf s group.val).lock = none) (fun _ _ => True) := by
  intro s hlock
  refine ⟨s, ?_, .refl _ s, trivial⟩
  change execLockOverrun group s = _
  unfold execLockOverrun
  rw [hlock]

theorem completes_arbitrationPhase_asleep (asks : List ArbRequest) (withdraw : Bool) :
    Completes (.arbitrationPhase group asks withdraw) [] (fun s => groupAwake s group.val = false) (fun _ _ => True) :=
  fun s hasleep => ⟨s, if_pos hasleep, .refl _ s, trivial⟩

end

/-- Settles O40: the slot of a phase is decided by `slotDecided`, the grant before it goes out by `openSlot`, and a lock runs on by
`lockStep`. -/
theorem arbitration : Obligations.Arbitration := by
  unfold Obligations.Arbitration
  intro units group asks withdraw g quiet ranked count can
  refine ⟨completes_arbitrationPhase_free group asks withdraw, fun r => ?_, fun l => ?_, completes_lockOverrun_unlocked group,
    completes_arbitrationPhase_asleep group asks withdraw⟩
  · intro owns stands
    refine ⟨completes_arbitrationPhase_dead group r true fun s hs => ⟨hs.1, hs.2.1, hs.2.2, .inl rfl⟩, ?_, ?_, ?_⟩
    · intro s ⟨hopen, hnone⟩
      obtain ⟨t, ht, hframe, hout, hcount, -⟩ := completes_arbitrationPhase_dead group r false
        (before := fun s => owns s ∧ busRequest s g r.ask = none)
        (fun s hs => ⟨hs.1.1, hs.1.2.1, hs.1.2.2, .inr hs.2⟩) s ⟨hopen, hnone⟩
      exact ⟨t, ht, hframe, hout, hcount⟩
    · intro codes shifted hop s hs
      obtain ⟨t, ht, hframe, hout⟩ := completes_arbitrationPhase_sent group r
        (before := fun s => owns s ∧ stands s) (out := fun s o => ∃ c ∈ r.cols, o = readFrame s g r codes shifted c)
        (fun s hs => ⟨hs.1.1, hs.1.2.1, hs.1.2.2, hs.2.1, hs.2.2.2⟩)
        (fun s hs o ho => by
          obtain ⟨c, hc, rfl⟩ := ho
          rw [issueFrames_read hop, ← readFrame_grantTaken]
          exact readFrame_mem hs.2.2.1 hc) s hs
      exact ⟨t, ht, hframe, fun c hc => hout _ ⟨c, hc, rfl⟩⟩
    · intro code through hop s hs
      obtain ⟨t, ht, hframe, hout⟩ := completes_arbitrationPhase_sent group r
        (before := fun s => owns s ∧ stands s)
        (out := fun _ o => ∃ c ∈ r.cols, o = .caFrame (8 * g + c) (programFrame (reqAddr r c) (patchOfSymbols code c)) ∨
          o = .burst (8 * g + c) (patchBytes (patchOfSymbols code c)))
        (fun s hs => ⟨hs.1.1, hs.1.2.1, hs.1.2.2, hs.2.1, hs.2.2.2⟩)
        (fun s hs o ho => by
          obtain ⟨c, hc, rfl | rfl⟩ := ho
          · exact (programFrames_mem hop hc).1
          · exact (programFrames_mem hop hc).2) s hs
      exact ⟨t, ht, hframe, fun c hc => ⟨hout _ ⟨c, hc, .inl rfl⟩, hout _ ⟨c, hc, .inr rfl⟩⟩⟩
  · exact ⟨completes_arbitrationPhase_locked group asks withdraw l, completes_lockOverrun group l, completes_lockOverrun_short group l⟩

end Sys2Proof.Machine
end
